-- ==== Sys2Proof/Word.lean ====
section
/-! DEFINITION. The word types of the device and their plainest helpers. -/

namespace Sys2Proof

/-- One byte of memory (R1). -/
abbrev Byte := BitVec 8

/-- A control and status register is 32 bits wide (00, *Registers*). -/
abbrev Word := BitVec 32

/-- The 48-bit µs and counter values that registers show in two halves (R36). -/
abbrev Count48 := BitVec 48

end Sys2Proof
end

