-- ==== Sys2Proof/Syntax.lean ====
section
/-! DEFINITION. The commands of the block: one constructor per row of spec/opcode_table.json, with the row's operands.
What the environment measures or decides (a lock, a verdict, an instant, received bytes) is an operand. -/

namespace Sys2Proof

/-- A data link or a beacon lane of Worga (R283). -/
inductive LinkId where
  | data (j : Fin 12)
  | beacon (n : Fin 48)
  deriving DecidableEq, Repr

/-- The number of a link in tables: 0 to 11 data links, 16 + n beacon lanes. -/
def LinkId.key : LinkId → Nat
  | .data j => j.val
  | .beacon n => 16 + n.val

/-- What a receiver finds at the end of a codeword (R285). -/
inductive Codeword where
  | good | corrected | uncorrectable
  deriving DecidableEq, Repr

/-- What the SECDED check of a read finds, by the address of a word's first byte; a word that is not listed reads well, and of
several entries for one word the first counts (R318, R361, R464, R466). -/
abbrev EccMap := List (Nat × Codeword)

/-- What the environment settles at the issue of an instruction: the core (4 is the keeper) and the thread; the core cycles
since the core's latest issue (R382); the threads of the core whose next instruction cannot issue yet by the times of R390, a bit
each (R399); the outcome of the SECDED check of the instruction word and of the words, by core address, that the instruction reads
from local RAM (R361); and the bits by which the word fetched differs from the instruction's encoding, which make it an illegal
word (R363). -/
structure Issue where
  core : Fin 5
  thread : Fin 4
  cycles : Nat := 1
  late : Fin 16 := 0
  fetch : Codeword := .good
  data : EccMap := []
  stray : BitVec 32 := 0
  deriving DecidableEq, Repr

/-- What Tarnish's sensors of one island give at a replanning (R521): the smallest canary slack in taps of 5 ps and the
ring-oscillator shift in ppm. -/
structure SensorRead where
  island : Fin 16
  taps : Fin 64
  shift : Int
  deriving DecidableEq, Repr

/-- A lane with an eye monitor (R57, R524). -/
inductive EyeLane where
  | front (n : Fin 224)
  | rear (r : Fin 48)
  deriving DecidableEq, Repr

/-- The number of a lane with an eye monitor: front lanes 0 to 223, rear lane r at 256 + r. -/
def EyeLane.key : EyeLane → Nat
  | .front n => n.val
  | .rear r => 256 + r.val

/-- What a ring stop finds in a flit of a packet: by its SECDED check a single-bit error, a double-bit error in the header
flit, or one in data flit `flit`, each with the stop and the link that finds it (R444); or, at the stop that receives the packet,
this class and command in the header (R431). -/
inductive FlitCheck where
  | corrected (stop : Fin 32)
  | header (stop : Fin 32) (link : Fin 4)
  | data (stop : Fin 32) (link : Fin 4) (flit : Nat)
  | command (cls : Fin 4) (code : Fin 16)
  deriving DecidableEq, Repr

/-- What the environment settles when a packet reaches its target: the ring cycles that it waited for its regulator (R438),
what the stops find in its flits, in the order of the finds, the SECDED outcomes of the memory words that the target reads, by
physical address (R318, R361, R464), and the cycles for which the target stalled it (R361, R461). -/
structure Serve where
  held : Nat := 0
  flit : List FlitCheck := []
  ecc : EccMap := []
  stall : Nat := 0
  deriving DecidableEq, Repr

/-- Where a packet comes from: the `k`-th of those on their way, or a unit that offers it now (R428, R430). -/
inductive PktSrc where
  | flight (k : Nat)
  | unit (ini : Fin 41) (addr : Fin 0x10000000000) (len : Fin 257) (data : List (BitVec 8))
  deriving DecidableEq, Repr

/-- What a USDO request of a client asks for (R493, R496): to read, `room` being the bytes that an answer frame takes; to
write in one frame; or to open a segmented write of a total length. The frame layout is that of CiA 1301. -/
inductive UsdoOp where
  | upload (room : Nat)
  | expedited (data : List (BitVec 8))
  | segmented (total : Nat)
  deriving DecidableEq, Repr

/-- A USDO segment: bytes of a write, the last of them marked, or the request for the next bytes of a read. -/
inductive UsdoSegment where
  | down (last : Bool) (data : List (BitVec 8))
  | up (room : Nat)
  deriving DecidableEq, Repr

/-- The NMT commands of R493. -/
inductive NmtCommand where
  | start | stop | preOperational | resetNode | resetCommunication
  deriving DecidableEq, Repr

/-- A CAN frame that can wake the device from Eclipse (R560). -/
inductive CanFrame where
  | nmt (cmd : NmtCommand)
  | usdo (index : Fin 65536) (sub : Fin 256) (op : UsdoOp)
  deriving DecidableEq, Repr

/-- A fast read that a flash offers: its instruction and its dummy cycles (R570). -/
structure FastRead where
  read : Nat
  dummy : Nat
  deriving DecidableEq, Repr

/-- What the Basic Flash Parameter Table of the flash says (R570): log₂ of its bytes, its 1-4-4 and its 1-1-4 fast read where it has
them, its quad-enable requirement, its 4-byte address entry method and its 4 KiB erase instruction. -/
structure Sfdp where
  density : Nat
  read144 : Option FastRead
  read114 : Option FastRead
  quadEnable : Nat
  addressEntry : Nat
  erase4k : Nat
  deriving DecidableEq, Repr

/-- How the programming of the flash ends (R578): well, or with a failure after a number of bytes. -/
inductive FlashRun where
  | done
  | failed (after : Nat)
  deriving DecidableEq, Repr

/-- The commands, in the order of the table. -/
inductive Instr where
  /-- REGISTER_WRITE (R4): A write to a CSR that has no row of its own acts on each field by its access code; reserved bits are ignored and clamps or refusals apply. -/
  | registerWrite (ini : Fin 41) (page : Fin 256) (off : Fin 65536) (data : List (BitVec 8))
  /-- RC_FIELD_READ (R4): A read that covers a whole RC field returns its value and then clears it. -/
  | rcFieldRead (ini : Fin 41) (page : Fin 256) (off : Fin 65536) (len : Fin 9)
  /-- HOLDING_REGISTER_LATCH (R36): A read of a _LO counter register copies the high part into the shared holding register that the matching _HI register returns. -/
  | holdingRegisterLatch (ini : Fin 41) (page : Fin 256) (off : Fin 65536)
  /-- SLOT_REFERENCE_EDGE (R24): Gnomon places a slot reference edge, tags a crossing and advances the serial, index and orbit. -/
  | slotReferenceEdge (t : Nat) (meas : Option Nat)
  /-- GNOMON_ENABLE_WRITE (R28): A write to GNO_CTRL.enable moves Gnomon to OFF or from OFF to ACQUIRE. -/
  | gnomonEnableWrite (t : Nat) (enable : Bool)
  /-- ACQUISITION_COMPLETE (R28): After 4,096 good edges with the PLL locked, Gnomon enters UNNUMBERED and publishes the slot periods. -/
  | acquisitionComplete (t : Nat)
  /-- XCLK_LOSS (R28): Four missing or misplaced edges, or a frequency outside the window, send Gnomon to HOLDOVER or LOST. -/
  | xclkLoss (t : Nat) (freq : Bool)
  /-- HOLDOVER_RECOVERY (R28): Sixty-four consecutive good edges return Gnomon from HOLDOVER to RUNNING without a break in numbering. -/
  | holdoverRecovery
  /-- HOLDOVER_LIMIT_EXPIRY (R28): GNO_HOLDOVER.limit slots in HOLDOVER send Gnomon to LOST. -/
  | holdoverLimitExpiry (t : Nat)
  /-- LOST_AUTO_RELOCK (R28): With auto_relock set and edges present, Gnomon leaves LOST for ACQUIRE. -/
  | lostAutoRelock (t : Nat)
  /-- REACQUIRE (R28): A write of 1 to GNO_CMD.reacquire moves Gnomon from LOST to ACQUIRE. -/
  | reacquire (t : Nat)
  /-- CANCEL_NAMED (R43): A write of 1 to GNO_CMD.cancel_named cancels every pending named-slot action and reports each to its owner. -/
  | cancelNamed
  /-- FC_INJECT (R38): A write to GNO_FC_INJECT queues a command word for the next edge at which the facet presents NONE, or is refused as a collision. -/
  | fcInject (word : BitVec 16)
  /-- ORBIT_MARK (R32): At its effect barrier an ORBIT_MARK numbers the timeline or is checked for alignment and counted as a mismatch. -/
  | orbitMark
  /-- ACCEPT (R40): At its effect barrier an external accept names the crossing S minus the accept latency and is taken or refused. -/
  | accept
  /-- EVENT_RESET (R37): At its effect barrier the event counter is set to 0. -/
  | eventReset
  /-- ORBIT_RESET (R644): At its effect barrier an ORBIT_RESET arms the reset of the orbit number. -/
  | orbitReset
  /-- ORBIT_RESET_ACT (R644): An armed orbit reset acts at the next index-0 crossing, gives it orbit 0 and records a discontinuity at the following barrier. -/
  | orbitResetAct
  /-- RESYNC (R37): At its effect barrier a RESYNC makes the next ORBIT_MARK number the timeline afresh. -/
  | resync
  /-- CAL_REQ (R37): At its effect barrier a calibration request goes to the sequencer edge detectors as an event. -/
  | calReq
  /-- USER_COMMAND (R37): At its effect barrier a user code USER0 to USER15 goes to the sequencer edge detectors as an event. -/
  | userCommand (n : Fin 16)
  /-- INTERNAL_ACCEPT (R40): An internal accept from a released decision takes effect at the first barrier after the release. -/
  | internalAccept
  /-- SLOT_BARRIER (R163): At token arrival each island applies state transitions, its period, bank exchanges and due changes, then runs three barrier cycles. -/
  | slotBarrier (t : Nat) (ecc : EccMap)
  /-- ISLAND_ARRIVE (R162): An island reports arrive after its last microword; the token is sent on time or late and a late barrier is counted. -/
  | islandArrive (i : Fin 16) (t : Nat) (late : Bool)
  /-- BARRIER_TIMEOUT (R164): An island not arrived by ARR_BAR_TMO past the edge is sent to FAULT and the token leaves without it. -/
  | barrierTimeout (i : Fin 16)
  /-- ISLAND_CLOCK_SLOW (R161): An island's measured period exceeds its plan by more than 3 %, setting clk_slow and counting the slot. -/
  | islandClockSlow (i : Fin 16) (period : Fin 0x100000)
  /-- ISLAND_CLOCK_UNLOCK (R161): An island clock generator loses lock, sending an executing island to FAULT at once or halting clearing. -/
  | islandClockUnlock (i : Fin 16)
  /-- ISLAND_CLOCK_RELOCK (R161): The clock of a clearing island locks again and the clearing restarts from plane 0. -/
  | islandClockRelock (i : Fin 16)
  /-- CLEARING_COMPLETE (R169): An island finishes clearing its 4,096 planes and registers and enters QUARANTINE. -/
  | clearingComplete (i : Fin 16)
  /-- ISLAND_OFF (R168): A write of ARR_ISL_CMD.off sends the island to OFF at the next token. -/
  | islandOff (i : Fin 16)
  /-- ISLAND_ON (R168): A write of ARR_ISL_CMD.on sends an island in OFF or FAULT to CLEARING, unless Tarnish has retired it. -/
  | islandOn (i : Fin 16)
  /-- ISLAND_QUARANTINE (R168): A write of ARR_ISL_CMD.quarantine returns an island in WARM or SERVICE to QUARANTINE. -/
  | islandQuarantine (i : Fin 16)
  /-- APPLY_MAP (R166): A write of ARR_ISL_CMD.apply_map sends the island to CLEARING with the written column map, or installs it at the next clearing from OFF. -/
  | applyMap (i : Fin 16)
  /-- ISLAND_MAP_WRITE (R165): A write to ARR_ISL_MAP is accepted only with four distinct columns up to 131. -/
  | islandMapWrite (i : Fin 16) (mask value : BitVec 32)
  /-- EDGE_CONFIG_WRITE (R156): A write to ARR_EDGE or ARR_WHALO_n is checked and takes effect at the next barrier. -/
  | edgeConfigWrite (whalo : Option (Fin 8)) (mask value : BitVec 32)
  /-- EPOCH_BUMP (R171): A write of 1 to ARR_CMD.epoch_bump increases ARR_EPOCH at the next barrier. -/
  | epochBump
  /-- RELOAD_START (R172): A write of 1 to ARR_ISL_RELOAD_CTRL.start arms the island reload engine and invalidates the island epoch, or is refused. -/
  | reloadStart (i : Fin 16)
  /-- RELOAD_COMPLETE (R173): The reload writes its last plane, sets the island epoch to E, marks it valid and sets done. -/
  | reloadComplete (i : Fin 16) (ecc : EccMap)
  /-- RELOAD_FETCH_ERROR (R173): An error response while fetching the reload source ends the reload with the epoch invalid. -/
  | reloadFetchError (i : Fin 16)
  /-- RELOAD_ABORT (R174): A write of 1 to ARR_ISL_RELOAD_CTRL.abort stops the reload before its last plane or is too late. -/
  | reloadAbort (i : Fin 16)
  /-- AUTO_RELOAD (R175): Resident firmware arms the reload of an island entering CLEARING or quarantined with an invalid epoch, and re-arms when the epoch moves on. -/
  | autoReload (i : Fin 16)
  /-- MICROWORD_ISSUE (R183): The sequencer issues one microword: wait, addresses, array operation, Beacon request, condition, scalar and flow in order. -/
  | microwordIssue (halo queue : List (Fin 16 × Nat))
  /-- WAIT_RELEASE (R188): A waiting microword is released on its condition, consuming a timer or detector event and clearing TO. -/
  | waitRelease (cycles : Fin 4096) (halo queue : List (Fin 16 × Nat))
  /-- WAIT_TIMEOUT (R188): A wait reaches its declared timeout and is released, setting TO and counting the timeout. -/
  | waitTimeout (halo queue : List (Fin 16 × Nat))
  /-- NEXT (R189): Flow continues at the next word. -/
  | seqNext
  /-- JUMP (R189): Flow continues at target. -/
  | jump (target : Fin 16384)
  /-- JIF (R189): Flow jumps when cond holds, consuming a tested timer or detector event. -/
  | jif (cond : Fin 64) (target : Fin 16384)
  /-- JIFN (R189): Flow jumps when cond does not hold, consuming a tested timer or detector event. -/
  | jifn (cond : Fin 64) (target : Fin 16384)
  /-- SEQ_CALL (R192): A microword CALL pushes the next address and jumps to target. -/
  | seqCall (target : Fin 16384)
  /-- PCALL (R195): A primitive call loads the call arguments and widths, pushes the return address and jumps. -/
  | pcall (a b w : Fin 4096) (bsrc : Fin 8) (src : Fin 16) (imm : BitVec 16) (target : Fin 16384)
  /-- SEQ_RET (R192): A microword RET pops the return address and continues there. -/
  | seqRet
  /-- LOOP (R191): LOOP increments LI and jumps while LI + 1 is below the limit, else resets LI; a taken LOOP is a background preemption point. -/
  | loop (lc : Fin 8) (target : Fin 16384)
  /-- STAGE_END (R215): STAGE_END ends the stage's foreground; the next stage or background starts in the following cycle. -/
  | stageEnd
  /-- YIELD (R218): YIELD marks a background preemption point at which the pass continues or is suspended. -/
  | yield
  /-- BG_END (R222): BG_END ends a background pass, counts it and restarts at bg_entry. -/
  | bgEnd
  /-- SC_NOP (R194): Scalar no-operation. -/
  | scNop
  /-- LDI (R194): Loads a zero-extended immediate into S[d]. -/
  | ldi (d : Fin 16) (imm : BitVec 16)
  /-- LDIH (R194): Loads the immediate into the high half of S[d]. -/
  | ldih (d : Fin 16) (imm : BitVec 16)
  /-- SC_ADDI (R194): S[d] = S[s] + sign-extended immediate. -/
  | scAddi (d src : Fin 16) (imm : BitVec 16)
  /-- MOV (R194): S[d] = S[s]. -/
  | mov (d src : Fin 16)
  /-- SUBR (R194): S[d] = S[s] − S[imm[3:0]]. -/
  | subr (d src : Fin 16) (imm : BitVec 16)
  /-- SC_ANDI (R194): S[d] = S[s] AND zero-extended immediate. -/
  | scAndi (d src : Fin 16) (imm : BitVec 16)
  /-- BCNT (R194): Loads the responder count of a Beacon register into S[d]. -/
  | bcnt (d src : Fin 16)
  /-- BFIRST (R194): Loads the first-responder index of a Beacon register into S[d]. -/
  | bfirst (d src : Fin 16)
  /-- LCI (R194): Sets a loop counter limit from the immediate and LI to 0. -/
  | lci (d : Fin 16) (imm : BitVec 16)
  /-- LCW (R194): Sets a loop counter limit from WN or WM plus the immediate, clamped, and LI to 0. -/
  | lcw (d src : Fin 16) (imm : BitVec 16)
  /-- CMP (R194): Sets Z and N from S[s] − S[imm[3:0]] without writing. -/
  | cmp (src : Fin 16) (imm : BitVec 16)
  /-- SEQ_TIMER_EXPIRY (R209): A sequencer timer ticks from 1 to 0, sets expired and reloads or stops. -/
  | seqTimerExpiry (t : Fin 8)
  /-- SEQ_TIMER_START (R210): A write of SEQ_TMR_STAT.start sets the timer running. -/
  | seqTimerStart (t : Fin 8)
  /-- SEQ_TIMER_STOP (R210): A write of SEQ_TMR_STAT.stop clears the running bit. -/
  | seqTimerStop (t : Fin 8)
  /-- SEQ_TIMER_LOAD (R210): A write of SEQ_TMR_STAT.load loads the count from reload, losing a same-cycle tick. -/
  | seqTimerLoad (t : Fin 8)
  /-- BG_ABORT (R222): A write of 1 to SEQ_BG_CTRL.abort discards the pass before BG_END and restarts at bg_entry, or is too late. -/
  | bgAbort
  /-- CSTORE_ECC_ERROR (R224): A control-store check finds an error: a single bit is corrected, a double bit faults the sequencer or empties the Umbra half. -/
  | cstoreEccError (word : Fin 16384) (double : Bool)
  /-- PROGRAM_LOAD (R228): A write of 1 to SEQ_CMD.load fetches an image into the Umbra half, or is refused. -/
  | programLoad
  /-- PROGRAM_LOAD_DONE (R229): The loader finishes its checks and the Umbra half becomes CHECKED or EMPTY with load_err. -/
  | programLoadDone
  /-- LOAD_ABORT (R228): A write of 1 to SEQ_CMD.load_abort ends the load before its checks end, or is too late. -/
  | loadAbort
  /-- EXCHANGE_ARM (R232): A write of 1 to SEQ_CMD.exchange arms the exchange at a penumbra slot, or is refused. -/
  | exchangeArm
  /-- EXCHANGE_CANCEL (R231): A write of 1 to SEQ_CMD.exchange_cancel returns an ARMED half to ADMITTED, or is too late. -/
  | exchangeCancel
  /-- PENUMBRA_EXCHANGE (R233): At the penumbra barrier the armed half becomes Active, the old half drains, background resets and records apply. -/
  | penumbraExchange
  /-- PROMISE_WRITE (R252): A write to SEQ_PROMISE_NS sets the pending promise or is refused below the Active bound. -/
  | promiseWrite (mask value : BitVec 32)
  /-- COMMIT_SET_ARM (R237): A write of 1 to SEQ_CS_CTRL.arm arms a commit set for its barrier, or is refused. -/
  | commitSetArm (n : Fin 4)
  /-- COMMIT_SET_ABORT (R238): A write of 1 to SEQ_CS_CTRL.abort disarms the set before its barrier, or is too late. -/
  | commitSetAbort (n : Fin 4)
  /-- COMMIT_SET_CLEAR (R240): A write of 1 to SEQ_CS_CTRL.clear clears every entry's valid bit unless armed. -/
  | commitSetClear (n : Fin 4)
  /-- COMMIT_SET_FIRE (R237): At its barrier an armed set writes its entries into the scalar registers and returns to open. -/
  | commitSetFire (n : Fin 4)
  /-- ADMISSION_RERUN (R249): A write of 1 to SEQ_ADM_CMD.rerun starts an admission of the Active and Umbra programs. -/
  | admissionRerun
  /-- ADMISSION_COMPLETE (R253): An admission run completes, publishes bounds and admits, rejects, refuses a plan or holds the Active program. -/
  | admissionComplete
  /-- MARGIN_PLAN_APPLY (R250): An admitted margin plan applies at the first slot barrier after its admissions complete. -/
  | marginPlanApply
  /-- BEACON_SETTLE (R262): A Beacon result lands in its BR register, at the Glint stage and in the external queues. -/
  | beaconSettle (removed : BitVec 16)
  /-- LATE_DECISION (R256): A decision result that lands after its launch instant is discarded and counted. -/
  | lateDecision (removed : BitVec 16)
  /-- LAUNCH_INSTANT (R270): At release minus 2.25 ns the Glint stage combines landed decisions and launches every output level. -/
  | launchInstant
  /-- GLINT_PULSE_END (R272): A pulse-mode output returns to inactive after its width expires. -/
  | glintPulseEnd (n : Fin 16)
  /-- BUSY_EVALUATE (R278): At each slot boundary the BUSY sources are evaluated and a change reaches BUSY_P/N one boundary later. -/
  | busyEvaluate
  /-- BUSY_MIN_EXPIRY (R278): The minimum assertion time of BUSY runs out. -/
  | busyMinExpiry
  /-- LANE_CTRL_WRITE (R51): A write to FLN_CTRL enables, disables or resets a lane's receive side and sets polarity. -/
  | laneCtrlWrite (n : Fin 224) (mask value : BitVec 32)
  /-- LANE_PLL_LOCK (R51): The receive PLL locks with REFCLK present and the lane enters SIGNAL_WAIT. -/
  | lanePllLock (n : Fin 224)
  /-- SIGNAL_DETECT (R51): Signal detect held for 1 µs moves the lane to LOCKING. -/
  | signalDetect (n : Fin 224)
  /-- LANE_LOCK_DONE (R51): CDR lock and adaptation complete and the lane enters READY. -/
  | laneLockDone (n : Fin 224) (ctle : Fin 32) (dfe1 : Fin 64)
  /-- LOCK_TIMEOUT (R51): Ten ms in LOCKING return the lane to RESET. -/
  | lockTimeout (n : Fin 224)
  /-- SIGNAL_LOST (R51): Signal detect lost for 64 word periods returns a READY lane to SIGNAL_WAIT. -/
  | signalLost (n : Fin 224)
  /-- CDR_LOST (R51): CDR lock lost returns a READY lane to LOCKING. -/
  | cdrLost (n : Fin 224)
  /-- ADAPT_RESTART (R53): A write of 1 to FLN_RX_EQ.adapt_restart restarts equaliser adaptation without leaving READY. -/
  | adaptRestart (n : Fin 224)
  /-- TX_FFE_WRITE (R54): A write to FLN_TX_FFE is clamped to the coefficient limits. -/
  | txFfeWrite (n : Fin 224) (mask value : BitVec 32)
  /-- EYE_SCAN_START (R57): A write of 1 to FLN_EYE_CTRL.start begins an eye scan in READY, or is refused. -/
  | eyeScanStart (n : Fin 224)
  /-- EYE_SCAN_DONE (R57): An eye scan ends and writes height and width, or ends invalid when the lane leaves READY. -/
  | eyeScanDone (lane : EyeLane) (height : Fin 65536) (width : Fin 256)
  /-- IDENTITY_RECORD (R63): An uplink identity frame updates the lane identity registers and is forwarded to the ledger. -/
  | identityRecord (n : Fin 224)
  /-- TELEMETRY_RECORD (R65): An uplink telemetry frame is forwarded to the ledger or dropped. -/
  | telemetryRecord (n : Fin 224)
  /-- SETPOINT_ACKNOWLEDGEMENT (R61): An uplink setpoint acknowledgement is copied to FLN_SC_ACK. -/
  | setpointAcknowledgement (n : Fin 224)
  /-- USER_FRAME (R66): An uplink user frame is placed in FLN_SC_RX_BUF or refused when full. -/
  | userFrame (n : Fin 224)
  /-- IDENTITY_TIMEOUT (R63): FLN_ID_AGE reaches the timeout; module_present clears and the absence goes to the ledger. -/
  | identityTimeout (n : Fin 224)
  /-- SC_TX_SEND (R73): A write of 1 to FLN_SC_TX_CTRL.send holds a downlink slow frame, or is refused. -/
  | scTxSend (n : Fin 224)
  /-- SC_TX_ABORT (R73): A write of 1 to FLN_SC_TX_CTRL.abort drops the frame before its first word, or is too late. -/
  | scTxAbort (n : Fin 224)
  /-- DOWNLINK_SLOT (R67): A lane's downlink slot begins with the fast-command word, the data window and the slow window. -/
  | downlinkSlot (n : Fin 224) (extra : Bool)
  /-- DL_WINDOW_WRITE (R68): A write to FLN_DL_WIN or FLN_DL_CTRL is refused when windows exceed W_min, else applies after the next barrier. -/
  | dlWindowWrite (n : Fin 224) (window : Bool) (mask value : BitVec 32)
  /-- BLOCK_ARRIVAL (R86): A lane block crosses the receive FIFO into its facet, or is dropped when the FIFO is full. -/
  | blockArrival (n : Fin 224) (word : BitVec 64)
  /-- FACET_LOGIC_CYCLE (R93): In each facet cycle the macrocells, block memories, edge detectors, sinks and payload packer act. -/
  | facetLogicCycle (f : Fin 57) (pins : BitVec 96) (us : Bool) (late : BitVec 288) (strobe : Bool)
  /-- FACET_TIMER_EXPIRY (R99): A facet timer ticks from 1 to 0, pulses its expiry and reloads or stops. -/
  | facetTimerExpiry (f : Fin 57) (t : Fin 16)
  /-- TX_WORD (R89): A lane's transmit path overlays, inserts CRC and scrambles one scheduler word. -/
  | txWord (n : Fin 224)
  /-- FACET_LOAD (R110): A write of 1 to EDG_CFG_CMD.load fetches an image into the shadow plane, or is refused. -/
  | facetLoad (f : Fin 57)
  /-- FACET_LOAD_DONE (R107): A facet image load ends its checks and the shadow plane becomes READY or EMPTY with load_err. -/
  | facetLoadDone (f : Fin 57)
  /-- FACET_ACTIVATE (R111): A write of 1 to EDG_CFG_CMD.activate arms the plane exchange, or switches at once outside RUN, or is refused. -/
  | facetActivate (f : Fin 57)
  /-- FACET_ABORT (R114): A write of 1 to EDG_CFG_CMD.abort cancels the activation and empties the shadow plane, or is too late. -/
  | facetAbort (f : Fin 57)
  /-- FACET_HALT (R109): A write of 1 to EDG_CFG_CMD.halt freezes a running facet at the next facet cycle. -/
  | facetHalt (f : Fin 57)
  /-- FACET_RESUME (R109): A write of 1 to EDG_CFG_CMD.resume returns a halted facet to RUN at the next barrier. -/
  | facetResume (f : Fin 57)
  /-- FACET_CAPTURE (R116): A write of 1 to EDG_CFG_CMD.capture copies registers, timers, detectors and aligners into the capture buffer. -/
  | facetCapture (f : Fin 57)
  /-- FACET_SWITCH_ENTRY (R112): At the activation barrier the facet enters SWITCH and begins the plane exchange. -/
  | facetSwitchEntry (f : Fin 57)
  /-- FACET_SWITCH_COMPLETE (R112): The plane exchange completes and the facet reaches RUN at the next barrier. -/
  | facetSwitchComplete (f : Fin 57)
  /-- FACET_CONFIG_SCRUB (R115): The configuration scrub corrects a single-bit error or faults the facet or empties the shadow on a double bit. -/
  | facetConfigScrub (f : Fin 57) (shadow double : Bool)
  /-- FACET_READBACK_READ (R116): A read of EDG_RB_DATA returns the selected readback word or is refused in the wrong state. -/
  | facetReadbackRead (ini : Fin 41) (f : Fin 57)
  /-- GPI_PIN_WRITE (R118): A write to GPI_PIN sets a pin's standard, or leaves it an input with a standard conflict. -/
  | gpiPinWrite (n : Fin 96) (mask value : BitVec 32)
  /-- VDDIO_CHANGE (R121): A GPIO bank supply changes and vddio_change is set. -/
  | vddioChange (k : Fin 4) (code : Fin 5)
  /-- PRISM_WORD (R128): Prism receives a lane word and sorts it into a contribution, or as late or stray. -/
  | prismWord (n : Fin 224) (t : Nat)
  /-- COMMIT_DEADLINE (R130): At a crossing's commit deadline Prism settles each lane's outcome and writes the planes into the hidden intake banks. -/
  | commitDeadline (t : Nat)
  /-- HBM_PIPELINE_WRITE (R320): The HBM controllers store a crossing's hand-off in its ring entry and write its tag, or drop it. -/
  | hbmPipelineWrite (inTime : Bool)
  /-- PRISM_APPLY (R133): A write of 1 to PRI_CMD.apply checks the pending copy and arms its commit, or is refused. -/
  | prismApply
  /-- PRISM_ABORT (R133): A write of 1 to PRI_CMD.abort discards the arming before its barrier, or is too late. -/
  | prismAbort
  /-- SLACK_RESET (R145): A write of 1 to PRI_CMD.slack_reset sets every lane's minimum slack to 0xFFFF. -/
  | slackReset
  /-- PRISM_APPLY_COMMIT (R134): At barrier B Prism empties the alignment buffers, commits gap crossings and switches configuration. -/
  | prismApplyCommit
  /-- SIDE_PORT_REQUEST (R142): A side-port piece joins or opens a queue entry, or is held when the queue is full. -/
  | sidePortRequest (write : Bool) (addr : Fin 0x10000000000) (len : Fin 257) (ini : Fin 41) (tag : Fin 64) (data : List (BitVec 8))
  /-- SIDE_PORT_PERFORM (R142): At a barrier Prism performs up to three queued plane accesses after the bank exchanges. -/
  | sidePortPerform
  /-- LINK_CONFIG_WRITE (R292): A write to WOR_LINK_CFG or WOR_BLN_CFG enables a link or takes it DOWN on a change, or is refused. -/
  | linkConfigWrite (l : LinkId) (mask value : BitVec 32)
  /-- LINK_LANE_LOSS (R292): A Worga lane loses lock or codeword alignment and its link goes DOWN. -/
  | linkLaneLoss (l : LinkId)
  /-- LINK_TRAINED (R292): All lanes of a link align within the skew limit and the link enters IDENT. -/
  | linkTrained (l : LinkId)
  /-- LINK_TRAIN_TIMEOUT (R292): Ten ms in TRAINING return the link to DOWN. -/
  | linkTrainTimeout (l : LinkId)
  /-- IDENT (R292): A received IDENT word is checked; eight valid ones reach MATCHING and a change returns to IDENT. -/
  | ident (l : LinkId) (word : BitVec 64)
  /-- SLOT (R293): A received SLOT marker is matched against local slots; 64 matched markers enter SERVICE. -/
  | slot (l : LinkId) (word : BitVec 64) (t : Nat)
  /-- MARKER_LOSS (R292): Four missing or unmatched markers, a lost local timeline or a discontinuity return SERVICE to MATCHING. -/
  | markerLoss (l : LinkId)
  /-- LINK_SLOT (R296): A link slot sends its SLOT marker, IDENT, halo frame, stream frames and bulk frames. -/
  | linkSlot (l : LinkId) (extra : Bool)
  /-- HALO_FRAME (R305): A received halo frame stores its planes or holds them for delay d, or is discarded as late. -/
  | haloFrame (j : Fin 12) (payload : List (BitVec 64))
  /-- WORGA_FRAME (R288): A received SOF-to-EOF frame is checked by CRC and length and landed or forwarded. -/
  | worgaFrame (j : Fin 12) (words : List (Fin 4 × Bool × BitVec 64)) (room : Bool)
  /-- WORGA_TX_SEND (R300): A write of 1 to WOR_TX_CMD.send queues a firmware frame with a tag, or is refused. -/
  | worgaTxSend
  /-- WORGA_TX_ABORT (R300): A write of 1 to WOR_TX_CMD.abort removes a tagged frame before its first fragment, or is too late. -/
  | worgaTxAbort (tag : Fin 256)
  /-- EPOCH_APPLY (R295): A write of 1 to WOR_CMD.epoch_apply arms the system epoch for its barrier, or is refused. -/
  | epochApply
  /-- EPOCH_ABORT (R295): A write of 1 to WOR_CMD.epoch_abort disarms the epoch apply, or is too late. -/
  | epochAbort
  /-- EPOCH_FIRE (R295): At its barrier the pending system epoch comes into force. -/
  | epochFire
  /-- BEACON_TREE_CONFIG (R307): A write to WOR_BCN_CTRL or WOR_BCN_CHILD is refused when the tree configuration is invalid. -/
  | beaconTreeConfig (off : Fin 3) (mask value : BitVec 32)
  /-- BEACON_OWN_RESULT (R309): The engine takes its own Beacon result and opens or fills a key. -/
  | beaconOwnResult (t : Nat)
  /-- BEACON_CELL_UP (R309): An up cell from a child opens or fills a key, or is dropped as late or excess. -/
  | beaconCellUp (n : Fin 48) (w0 w1 w2 : BitVec 64) (t : Nat)
  /-- BEACON_KEY_CLOSE (R310): A key closes when all inputs arrive or its wait expires, and the combined cell goes up or is delivered at the root. -/
  | beaconKeyClose (i : Nat) (t : Nat)
  /-- BEACON_CELL_DOWN (R311): A down cell on the parent lane is delivered as the system result and sent to the children. -/
  | beaconCellDown (n : Fin 48) (w0 w1 w2 : BitVec 64) (t : Nat)
  /-- SYS_RESULT_READ (R311): A read of WOR_SYS_RESULT copies the other system-result registers into holding registers. -/
  | sysResultRead (ini : Fin 41)
  /-- HBM_INIT_COMPLETE (R317): A stack finishes training and tag clearing and enters RUN. -/
  | hbmInitComplete (k : Fin 2)
  /-- HBM_INIT_FAIL (R317): A stack fails training or exceeds 5 ms in INIT and enters FAULT. -/
  | hbmInitFail (k : Fin 2)
  /-- HBM_FAULT (R317): Parity errors or write-clock loss send a running stack to FAULT. -/
  | hbmFault (k : Fin 2)
  /-- HBM_RESTART (R317): A write of 1 to HBM_CTRL.restart sends each faulted stack to INIT. -/
  | hbmRestart
  /-- HBM_PATROL_SCRUB (R318): The patrol scrubber reads and corrects the general region. -/
  | hbmPatrolScrub (addr : Fin 0x400000000) (o : Codeword)
  /-- PIPE_CTRL_WRITE (R319): A write to HBM_PIPE_CTRL is refused when the pipeline rate exceeds the reservation, else applies after a barrier. -/
  | pipeCtrlWrite (mask value : BitVec 32)
  /-- XFER_START (R323): A write of 1 to HBM_XFER_CTRL.start begins a one-shot copy to PE planes, or is refused. -/
  | xferStart (t : Fin 4) (ecc : EccMap)
  /-- XFER_ABORT (R324): A write of 1 to HBM_XFER_CTRL.abort stops a one-shot copy before its last plane, or is too late. -/
  | xferAbort (t : Fin 4)
  /-- READOUT_BEACON_ENTRY (R327): The readout engine keeps a Beacon entry or system result for its crossing, or drops it. -/
  | readoutBeaconEntry (system : Bool)
  /-- EVENT_READY (R328): An event reaches its ready instant and its gather starts when the previous gather has ended. -/
  | eventReady (t : Nat)
  /-- EVENT_GATHER (R329): The engine reads the window's tags and stored bytes and builds the event body. -/
  | eventGather (ecc : EccMap)
  /-- EVENT_ASSEMBLED (R342): An event body is assembled and the finish estimate is lowered to its real size. -/
  | eventAssembled
  /-- READOUT_FRAME_SEND (R338): An event frame is sent on the READY port chosen by the frame counter. -/
  | readoutFrameSend (t : Nat)
  /-- READOUT_APPLY (R344): A write of 1 to RDO_CMD.apply checks the pending readout configuration and applies it at the next barrier, or refuses it. -/
  | readoutApply
  /-- PORT_CONFIG_WRITE (R335): A write to RDO_PORT_CFG enables a port into TRAINING or takes it DOWN. -/
  | portConfigWrite (k : Fin 16) (mask value : BitVec 32)
  /-- PORT_LINK_UP (R335): PCS and FEC lock and the port enters UP and sends a gratuitous ARP. -/
  | portLinkUp (k : Fin 16)
  /-- PORT_PCS_LOSS (R335): The port loses PCS lock and goes DOWN. -/
  | portPcsLoss (k : Fin 16)
  /-- ARP_REQUEST_TIMER (R335): Each second without a known MAC, or each 60 s in READY, the port sends an ARP request. -/
  | arpRequestTimer (k : Fin 16)
  /-- ARP_TIMEOUT (R335): 180 s without an ARP reply returns the port to UP. -/
  | arpTimeout (k : Fin 16)
  /-- ARP_REPLY (R335): An ARP reply gives the destination MAC and the port enters READY. -/
  | arpReply (k : Fin 16) (ip : BitVec 32) (mac : BitVec 48) (target : BitVec 32)
  /-- ARP_REQUEST (R335): An ARP request for the port's address is answered. -/
  | arpRequest (k : Fin 16) (ip : BitVec 32) (mac : BitVec 48) (target : BitVec 32)
  /-- ICMP_ECHO_REQUEST (R335): An ICMP echo request is answered within the rate limit. -/
  | icmpEchoRequest (k : Fin 16) (t : Nat) (mac : BitVec 48) (ip target : BitVec 32) (rest : List (BitVec 8))
  /-- PORT_FRAME_DISCARD (R334): A received frame of any other kind is discarded and counted. -/
  | portFrameDiscard (k : Fin 16) (bad : Nat)
  /-- ADD (R365): rd = ra + rb. -/
  | add (u : Issue) (rd ra rb : Fin 32)
  /-- SUB (R365): rd = ra − rb. -/
  | sub (u : Issue) (rd ra rb : Fin 32)
  /-- AND (R365): rd = ra AND rb. -/
  | and (u : Issue) (rd ra rb : Fin 32)
  /-- OR (R365): rd = ra OR rb. -/
  | or (u : Issue) (rd ra rb : Fin 32)
  /-- XOR (R365): rd = ra XOR rb. -/
  | xor (u : Issue) (rd ra rb : Fin 32)
  /-- SLL (R365): Shift left by rb[4:0]. -/
  | sll (u : Issue) (rd ra rb : Fin 32)
  /-- SRL (R365): Logical shift right by rb[4:0]. -/
  | srl (u : Issue) (rd ra rb : Fin 32)
  /-- SRA (R365): Arithmetic shift right by rb[4:0]. -/
  | sra (u : Issue) (rd ra rb : Fin 32)
  /-- SLT (R365): Signed set-less-than. -/
  | slt (u : Issue) (rd ra rb : Fin 32)
  /-- SLTU (R365): Unsigned set-less-than. -/
  | sltu (u : Issue) (rd ra rb : Fin 32)
  /-- MIN (R365): Signed minimum. -/
  | min (u : Issue) (rd ra rb : Fin 32)
  /-- MAX (R365): Signed maximum. -/
  | max (u : Issue) (rd ra rb : Fin 32)
  /-- MINU (R365): Unsigned minimum. -/
  | minu (u : Issue) (rd ra rb : Fin 32)
  /-- MAXU (R365): Unsigned maximum. -/
  | maxu (u : Issue) (rd ra rb : Fin 32)
  /-- CLZ (R365): Count leading zeros. -/
  | clz (u : Issue) (rd ra : Fin 32)
  /-- CTZ (R365): Count trailing zeros. -/
  | ctz (u : Issue) (rd ra : Fin 32)
  /-- POPC (R365): Count ones. -/
  | popc (u : Issue) (rd ra : Fin 32)
  /-- BSWAP (R365): Reverse the four bytes. -/
  | bswap (u : Issue) (rd ra : Fin 32)
  /-- SEXTB (R365): Sign-extend byte. -/
  | sextb (u : Issue) (rd ra : Fin 32)
  /-- SEXTH (R365): Sign-extend half-word. -/
  | sexth (u : Issue) (rd ra : Fin 32)
  /-- ANDN (R365): ra AND NOT rb. -/
  | andn (u : Issue) (rd ra rb : Fin 32)
  /-- ROTR (R365): Rotate right by rb[4:0]. -/
  | rotr (u : Issue) (rd ra rb : Fin 32)
  /-- SLLI (R366): Shift left by an immediate. -/
  | slli (u : Issue) (rd ra sh : Fin 32)
  /-- SRLI (R366): Logical shift right by an immediate. -/
  | srli (u : Issue) (rd ra sh : Fin 32)
  /-- SRAI (R366): Arithmetic shift right by an immediate. -/
  | srai (u : Issue) (rd ra sh : Fin 32)
  /-- ROTRI (R366): Rotate right by an immediate. -/
  | rotri (u : Issue) (rd ra sh : Fin 32)
  /-- ADDI (R367): rd = ra + sign-extended immediate. -/
  | addi (u : Issue) (rd ra : Fin 32) (imm : BitVec 16)
  /-- ANDI (R367): rd = ra AND zero-extended immediate. -/
  | andi (u : Issue) (rd ra : Fin 32) (imm : BitVec 16)
  /-- ORI (R367): rd = ra OR zero-extended immediate. -/
  | ori (u : Issue) (rd ra : Fin 32) (imm : BitVec 16)
  /-- XORI (R367): rd = ra XOR zero-extended immediate. -/
  | xori (u : Issue) (rd ra : Fin 32) (imm : BitVec 16)
  /-- SLTI (R367): Signed compare with an immediate. -/
  | slti (u : Issue) (rd ra : Fin 32) (imm : BitVec 16)
  /-- SLTIU (R367): Unsigned compare with an immediate. -/
  | sltiu (u : Issue) (rd ra : Fin 32) (imm : BitVec 16)
  /-- LUI (R367): rd = imm16 × 2¹⁶. -/
  | lui (u : Issue) (rd : Fin 32) (imm : BitVec 16)
  /-- ADDPC (R367): rd = own address + 4 × immediate. -/
  | addpc (u : Issue) (rd : Fin 32) (imm : BitVec 16)
  /-- LB (R369): Load byte, sign-extended. -/
  | lb (u : Issue) (rd ra : Fin 32) (imm : BitVec 16)
  /-- LBU (R369): Load byte, zero-extended. -/
  | lbu (u : Issue) (rd ra : Fin 32) (imm : BitVec 16)
  /-- LH (R369): Load half-word, sign-extended. -/
  | lh (u : Issue) (rd ra : Fin 32) (imm : BitVec 16)
  /-- LHU (R369): Load half-word, zero-extended. -/
  | lhu (u : Issue) (rd ra : Fin 32) (imm : BitVec 16)
  /-- LW (R369): Load word. -/
  | lw (u : Issue) (rd ra : Fin 32) (imm : BitVec 16)
  /-- LDP (R371): Load a 64-bit word into an even register pair. -/
  | ldp (u : Issue) (rd ra : Fin 32) (imm : BitVec 16)
  /-- FLW (R383): Load a single-precision value into an FP register. -/
  | flw (u : Issue) (fd ra : Fin 32) (imm : BitVec 16)
  /-- FLD (R383): Load a double-precision value into an FP register. -/
  | fld (u : Issue) (fd ra : Fin 32) (imm : BitVec 16)
  /-- SB (R369): Store byte. -/
  | sb (u : Issue) (rs ra : Fin 32) (imm : BitVec 16)
  /-- SH (R369): Store half-word. -/
  | sh (u : Issue) (rs ra : Fin 32) (imm : BitVec 16)
  /-- SW (R369): Store word. -/
  | sw (u : Issue) (rs ra : Fin 32) (imm : BitVec 16)
  /-- STP (R371): Store an even register pair as a 64-bit word. -/
  | stp (u : Issue) (rs ra : Fin 32) (imm : BitVec 16)
  /-- FSW (R383): Store the low 32 bits of an FP register. -/
  | fsw (u : Issue) (fs ra : Fin 32) (imm : BitVec 16)
  /-- FSD (R383): Store all 64 bits of an FP register. -/
  | fsd (u : Issue) (fs ra : Fin 32) (imm : BitVec 16)
  /-- AMOADD (R372): Atomic add to a word in local RAM, scratchpad or mailbox, returning the old word. -/
  | amoadd (u : Issue) (rd ra rb : Fin 32)
  /-- AMOSWAP (R372): Atomic swap of a word, returning the old word. -/
  | amoswap (u : Issue) (rd ra rb : Fin 32)
  /-- BEQ (R368): Branch when equal. -/
  | beq (u : Issue) (ra rb : Fin 32) (disp : BitVec 16)
  /-- BNE (R368): Branch when not equal. -/
  | bne (u : Issue) (ra rb : Fin 32) (disp : BitVec 16)
  /-- BLT (R368): Branch when less, signed. -/
  | blt (u : Issue) (ra rb : Fin 32) (disp : BitVec 16)
  /-- BGE (R368): Branch when greater or equal, signed. -/
  | bge (u : Issue) (ra rb : Fin 32) (disp : BitVec 16)
  /-- BLTU (R368): Branch when less, unsigned. -/
  | bltu (u : Issue) (ra rb : Fin 32) (disp : BitVec 16)
  /-- BGEU (R368): Branch when greater or equal, unsigned. -/
  | bgeu (u : Issue) (ra rb : Fin 32) (disp : BitVec 16)
  /-- JMP (R368): Jump by displacement. -/
  | jmp (u : Issue) (disp : BitVec 26)
  /-- CALL (R356): Push the return address and jump, or raise return-stack overflow. -/
  | call (u : Issue) (disp : BitVec 26)
  /-- MUL (R377): Low 32 bits of the product. -/
  | mul (u : Issue) (rd ra rb : Fin 32)
  /-- MULHS (R377): High bits of the signed product. -/
  | mulhs (u : Issue) (rd ra rb : Fin 32)
  /-- MULHU (R377): High bits of the unsigned product. -/
  | mulhu (u : Issue) (rd ra rb : Fin 32)
  /-- DIVS (R378): Signed quotient, or divide-by-zero trap. -/
  | divs (u : Issue) (rd ra rb : Fin 32)
  /-- DIVU (R378): Unsigned quotient, or divide-by-zero trap. -/
  | divu (u : Issue) (rd ra rb : Fin 32)
  /-- REMS (R378): Signed remainder, or divide-by-zero trap. -/
  | rems (u : Issue) (rd ra rb : Fin 32)
  /-- REMU (R378): Unsigned remainder, or divide-by-zero trap. -/
  | remu (u : Issue) (rd ra rb : Fin 32)
  /-- DIVIDER_DONE (R379): The divider finishes after its data-dependent time and writes the result. -/
  | dividerDone (core : Fin 5) (thread : Fin 4)
  /-- WOPEN (R353): Open a register window, or raise window overflow. -/
  | wopen (u : Issue)
  /-- WCLOSE (R353): Close a register window, or raise window underflow. -/
  | wclose (u : Issue)
  /-- SPILL (R354): Store the oldest live window to the data stack in the trap window. -/
  | spill (u : Issue)
  /-- FILL (R354): Load a window from the data stack in the trap window. -/
  | fill (u : Issue)
  /-- JR (R368): Jump to the address in ra. -/
  | jr (u : Issue) (ra : Fin 32)
  /-- CALLR (R368): Push the return address and jump to ra. -/
  | callr (u : Issue) (ra : Fin 32)
  /-- RET (R356): Pop the return stack and continue there, or raise underflow. -/
  | ret (u : Issue)
  /-- RETC (R356): Return and close the window in one instruction. -/
  | retc (u : Issue)
  /-- TRAP (R406): Raise a software trap with a code. -/
  | trap (u : Issue) (code : Fin 32)
  /-- TRET (R408): Leave the trap window and resume, resetting the return stack when flagged. -/
  | tret (u : Issue)
  /-- FENCE (R375): Hold the thread until every earlier access has completed and its errors are delivered. -/
  | fence (u : Issue)
  /-- FSYNC (R389): Hold the thread until earlier FP operations complete and deliver any pending FP exception. -/
  | fsync (u : Issue)
  /-- MFC (R381): Read a core control register. -/
  | mfc (u : Issue) (rd ccr : Fin 32)
  /-- MTC (R381): Write a core control register, including apertures and window state. -/
  | mtc (u : Issue) (ccr ra : Fin 32)
  /-- WAITE (R404): Take pending events of the mask or enter WAIT. -/
  | waite (u : Issue) (rd ra : Fin 32)
  /-- SIGE (R403): Send software events to a thread. -/
  | sige (u : Issue) (ra rb : Fin 32)
  /-- BRK (R396): Enter DEBUG or raise a breakpoint trap. -/
  | brk (u : Issue)
  /-- FADD (R385): FP add. -/
  | fadd (u : Issue) (fd fa fb : Fin 32) (rm : Fin 8) (dbl : Bool)
  /-- FSUB (R385): FP subtract. -/
  | fsub (u : Issue) (fd fa fb : Fin 32) (rm : Fin 8) (dbl : Bool)
  /-- FMUL (R385): FP multiply. -/
  | fmul (u : Issue) (fd fa fb : Fin 32) (rm : Fin 8) (dbl : Bool)
  /-- FDIV (R385): FP divide. -/
  | fdiv (u : Issue) (fd fa fb : Fin 32) (rm : Fin 8) (dbl : Bool)
  /-- FSQRT (R385): FP square root. -/
  | fsqrt (u : Issue) (fd fa : Fin 32) (rm : Fin 8) (dbl : Bool)
  /-- FMIN (R387): FP minimum with the NaN and zero rules. -/
  | fmin (u : Issue) (fd fa fb : Fin 32) (dbl : Bool)
  /-- FMAX (R387): FP maximum with the NaN and zero rules. -/
  | fmax (u : Issue) (fd fa fb : Fin 32) (dbl : Bool)
  /-- FEQ (R385): Quiet FP equality compare. -/
  | feq (u : Issue) (rd fa fb : Fin 32) (dbl : Bool)
  /-- FLT (R385): Signalling FP less-than compare. -/
  | flt (u : Issue) (rd fa fb : Fin 32) (dbl : Bool)
  /-- FLE (R385): Signalling FP less-or-equal compare. -/
  | fle (u : Issue) (rd fa fb : Fin 32) (dbl : Bool)
  /-- FCLASS (R385): Classify an FP value. -/
  | fclass (u : Issue) (rd fa : Fin 32) (dbl : Bool)
  /-- FCVTW (R387): FP to signed integer with saturation. -/
  | fcvtw (u : Issue) (rd fa : Fin 32) (rm : Fin 8) (dbl : Bool)
  /-- FCVTWU (R387): FP to unsigned integer with saturation. -/
  | fcvtwu (u : Issue) (rd fa : Fin 32) (rm : Fin 8) (dbl : Bool)
  /-- FCVTFW (R385): Signed integer to FP. -/
  | fcvtfw (u : Issue) (fd ra : Fin 32) (rm : Fin 8) (dbl : Bool)
  /-- FCVTFWU (R385): Unsigned integer to FP. -/
  | fcvtfwu (u : Issue) (fd ra : Fin 32) (rm : Fin 8) (dbl : Bool)
  /-- FCVTP (R385): Convert between precisions. -/
  | fcvtp (u : Issue) (fd fa : Fin 32) (rm : Fin 8) (dbl : Bool)
  /-- FMVTOI (R385): Move FP bits to an integer register. -/
  | fmvtoi (u : Issue) (rd fa : Fin 32) (high : Bool)
  /-- FMVFROMI (R385): Move integer bits into an FP register. -/
  | fmvfromi (u : Issue) (fd ra : Fin 32) (high : Bool)
  /-- FNEG (R385): Invert the sign. -/
  | fneg (u : Issue) (fd fa : Fin 32) (dbl : Bool)
  /-- FABS (R385): Clear the sign. -/
  | fabs (u : Issue) (fd fa : Fin 32) (dbl : Bool)
  /-- FCOPYSIGN (R385): Magnitude of ra with the sign of rb. -/
  | fcopysign (u : Issue) (fd fa fb : Fin 32) (dbl : Bool)
  /-- FMADD (R385): Fused (fa × fb) + fc. -/
  | fmadd (u : Issue) (fd fa fb fc : Fin 32) (rm : Fin 8) (dbl : Bool)
  /-- FMSUB (R385): Fused (fa × fb) − fc. -/
  | fmsub (u : Issue) (fd fa fb fc : Fin 32) (rm : Fin 8) (dbl : Bool)
  /-- FNMADD (R385): Fused −(fa × fb) − fc. -/
  | fnmadd (u : Issue) (fd fa fb fc : Fin 32) (rm : Fin 8) (dbl : Bool)
  /-- FNMSUB (R385): Fused −(fa × fb) + fc. -/
  | fnmsub (u : Issue) (fd fa fb fc : Fin 32) (rm : Fin 8) (dbl : Bool)
  /-- FP_COMPLETE (R388): An FP operation completes, merges its flags and leaves an enabled exception pending. -/
  | fpComplete (core : Fin 5) (thread : Fin 4) (k : Nat)
  /-- IMPRECISE_TRAP (R389): A pending posted bus error or FP exception is delivered at the thread's next instruction, FENCE or FSYNC. -/
  | impreciseTrap (core : Fin 5) (thread : Fin 4) (late : Fin 16)
  /-- THREAD_START (R397): A write of 1 to CPU_THR_CMD.start sets the thread to its start state and RUN, or is refused. -/
  | threadStart (core : Fin 5) (thread : Fin 4)
  /-- THREAD_STOP (R398): A write of 1 to CPU_THR_CMD.stop turns the thread OFF at its next boundary as an owner reset. -/
  | threadStop (core : Fin 5) (thread : Fin 4)
  /-- THREAD_WAKE (R404): An event of its mask becomes pending for a waiting thread, which takes the pending bits and returns to RUN. -/
  | threadWake (core : Fin 5) (thread : Fin 4)
  /-- THREAD_EVENTS_WRITE (R403): A write to CPU_THR_EVENTS sets software events as SIGE does. -/
  | threadEventsWrite (core : Fin 5) (thread : Fin 4) (events : BitVec 16)
  /-- THREAD_TIMER_START (R405): A write of 1 to CPU_THR_TMR_STAT.start loads and runs the thread timer. -/
  | threadTimerStart (core : Fin 5) (thread : Fin 4)
  /-- THREAD_TIMER_STOP (R405): A write of 1 to CPU_THR_TMR_STAT.stop clears running. -/
  | threadTimerStop (core : Fin 5) (thread : Fin 4)
  /-- THREAD_TIMER_EXPIRY (R405): The thread timer reaches 0, sets event bit 16 and reloads or stops. -/
  | threadTimerExpiry (core : Fin 5) (thread : Fin 4)
  /-- STARVATION_ISSUE (R401): A ready thread unissued for starve × 16 cycles issues next whatever the priorities. -/
  | starvationIssue (core : Fin 4) (thread : Fin 4)
  /-- BLACKOUT (R419): After 1,024 cycles of unbreakable waiting the detector raises a Blackout trap on thread 0 of core 0 or reports it undelivered. -/
  | blackout
  /-- DEBUG_RESUME (R638): A write of 1 to DBG_THR_CMD.resume moves a thread in DEBUG to RUN. -/
  | debugResume (core : Fin 5) (thread : Fin 4)
  /-- READ (R431): A READ request reaches its target, which returns READ_DATA. -/
  | read (src : PktSrc) (v : Serve)
  /-- WRITE (R431): A WRITE request reaches its target, which writes and returns WRITE_ACK. -/
  | write (src : PktSrc) (v : Serve)
  /-- RING_AMOADD (R463): An AMOADD request at a scratchpad or mailbox bank reads and writes atomically and returns AMO_DATA. -/
  | ringAmoadd (src : PktSrc) (v : Serve)
  /-- RING_AMOSWAP (R463): An AMOSWAP request at a bank swaps atomically and returns AMO_DATA. -/
  | ringAmoswap (src : PktSrc) (v : Serve)
  /-- WRITE_P (R431): A posted write lands at its target without a response. -/
  | writeP (landing : Bool) (src : PktSrc) (v : Serve)
  /-- EVENT (R431): An EVENT packet sets software event bits of the named thread. -/
  | event (src : PktSrc) (v : Serve)
  /-- READ_DATA (R443): A read response reaches its initiator and frees the tag, or is discarded as stale. -/
  | readData (k lat : Nat) (flits : List FlitCheck)
  /-- WRITE_ACK (R443): A write response reaches its initiator and frees the tag, or is discarded as stale. -/
  | writeAck (k lat : Nat) (flits : List FlitCheck)
  /-- AMO_DATA (R443): An AMO response reaches its initiator and frees the tag. -/
  | amoData (k lat : Nat) (flits : List FlitCheck)
  /-- ERROR_REPORT (R597): The error queue takes a report, coalesces or stores it, or refuses it when full. -/
  | errorReport (page : Fin 32) (core : Fin 5) (t : Nat) (flits : List FlitCheck)
  /-- WAKE_REQ (R445): A stop holding a packet for a sleeping target sends a wake request to the power manager. -/
  | wakeReq (d : Fin 32) (flits : List FlitCheck)
  /-- WAKE_DONE (R445): A woken stop announces it can take packets and held packets are injected. -/
  | wakeDone (d : Fin 32) (flits : List (Fin 32 × List FlitCheck))
  /-- RING_TIMEOUT (R443): A transaction without a response after RNG_TIMEOUT completes as an error and its tag is retired. -/
  | ringTimeout (k : Nat)
  /-- ROUTE_WRITE (R434): A write to RNG_ROUTE changes a route after earlier transactions complete, or is refused. -/
  | routeWrite (stop : Fin 32) (entry : Fin 64) (mask value : BitVec 32)
  /-- GUAR_WRITE (R439): A write to RNG_INI_GUAR or its mask is refused when a link's guaranteed load would exceed 60 GB/s. -/
  | guarWrite (ini : Fin 41) (stops : Bool) (mask value : BitVec 32)
  /-- MASTER_RESET (R447): A master reset ends an initiator's packets, poisons cut packets, advances its epoch and frees its tags. -/
  | masterReset (ini : Fin 41) (cut : Option Nat)
  /-- TAG_HOLD_EXPIRY (R447): A freed tag rejoins the pool after 4,096 ring cycles. -/
  | tagHoldExpiry (k : Nat)
  /-- LAT_SUM_READ (R449): A read of RNG_INI_LAT_SUM clears it with the response count and latches that count. -/
  | latSumRead (ini i : Fin 41)
  /-- DMA_START (R452): A write of 1 to RNG_DMA_CTRL.start runs the descriptor chain, or is refused. -/
  | dmaStart (n : Fin 16)
  /-- DMA_ABORT (R453): A write of 1 to RNG_DMA_CTRL.abort stops the chain before its last write, or is too late. -/
  | dmaAbort (n : Fin 16)
  /-- DMA_RESUME (R452): A write of 1 to RNG_DMA_CTRL.resume continues a paused chain. -/
  | dmaResume (n : Fin 16)
  /-- DMA_DESCRIPTOR_COMPLETE (R451): A descriptor's writes are acknowledged; the channel fetches the next, pauses or finishes and signals its thread. -/
  | dmaDescriptorComplete (n : Fin 16)
  /-- SPD_PATROL_SCRUB (R464): The scratchpad scrubber reads a row and corrects or reports errors. -/
  | spdPatrolScrub (o : Fin 0x800000) (e : Codeword) (stall : Nat)
  /-- SPD_CLEAR_COMPLETE (R465): The banks finish clearing after power returns and the stop sends WAKE_DONE. -/
  | spdClearComplete
  /-- MAILBOX_KEEPER_ACCESS (R467): The keeper accesses the mailbox through port K with the collision rules against port R. -/
  | mailboxKeeperAccess (o : Codeword) (other : Option Nat) (v : Serve)
  /-- MAILBOX_SCRUB (R466): The mailbox scrubber visits words and corrects or reports errors. -/
  | mailboxScrub (o : Fin 0x10000) (e : Codeword)
  /-- MAILBOX_DOORBELL (R468): A write to SPD_MBX_DOORBELL sets event bit 19 of the named thread, or is refused. -/
  | mailboxDoorbell (ini : Fin 41) (mask value : BitVec 32)
  /-- TRY (R469): SEM_REQ op TRY takes a free semaphore or reports busy. -/
  | semTry (ini : Fin 41) (n : Fin 512)
  /-- WAIT (R469): SEM_REQ op WAIT takes or queues a wait on a semaphore. -/
  | wait (ini : Fin 41) (n : Fin 512) (prio : Fin 8)
  /-- RELEASE (R469): SEM_REQ op RELEASE frees the owner's semaphore and grants it to a waiter. -/
  | release (ini : Fin 41) (n : Fin 512)
  /-- CANCEL (R469): SEM_REQ op CANCEL removes a queued wait or reports too late. -/
  | cancel (ini : Fin 41) (n : Fin 512)
  /-- RENEW (R469): SEM_REQ op RENEW restarts the owner's lease. -/
  | renew (ini : Fin 41) (n : Fin 512)
  /-- BAD_OPERATION (R469): A SEM_REQ with an undefined op returns code 13. -/
  | badOperation (ini : Fin 41) (n : Fin 512) (op : Fin 16) (prio : Fin 8)
  /-- LEASE_EXPIRY (R474): A held semaphore's lease reaches 0 and the unit releases it and grants. -/
  | leaseExpiry (n : Fin 512)
  /-- SEM_ADMIN_WRITE (R470): A write to SEM_ADMIN, SEM_GRP_USE or SEM_GRP_LEASE is refused without the admin right. -/
  | semAdminWrite (ini : Fin 41) (off : Fin 65536) (mask value : BitVec 32)
  /-- USDO_REQUEST (R496): A USDO request initiates an expedited or segmented transfer, or is refused when one is open. -/
  | usdoRequest (index : Fin 65536) (sub : Fin 256) (op : UsdoOp)
  /-- USDO_SEGMENT (R496): A USDO segment continues a transfer; the last DOMAIN segment awaits its target's result. -/
  | usdoSegment (op : UsdoSegment)
  /-- USDO_ABORT (R496): A client abort ends a transfer before its commit point, or is recorded as too late. -/
  | usdoAbort (index : Fin 65536) (sub : Fin 256)
  /-- USDO_TIMEOUT (R496): A segmented transfer without a segment for 1 s ends with an abort. -/
  | usdoTimeout
  /-- RPDO (R497): A received RPDO writes its mapped objects in order, or sends EMCY on refusal. -/
  | rpdo (n : Fin 4) (data : List (BitVec 8))
  /-- TPDO_EVENT_TIMER (R497): A TPDO event timer expires and the TPDO is sent subject to its inhibit time. -/
  | tpdoEventTimer (n : Fin 4) (t : Nat)
  /-- HEARTBEAT (R493): The producer heartbeat timer expires and a heartbeat is sent. -/
  | heartbeat
  /-- NMT_START (R495): NMT start moves the node to Operational. -/
  | nmtStart
  /-- NMT_STOP (R495): NMT stop moves the node to Stopped. -/
  | nmtStop
  /-- NMT_ENTER_PREOPERATIONAL (R495): NMT enter pre-operational moves the node to Pre-operational. -/
  | nmtEnterPreoperational
  /-- NMT_RESET_NODE (R495): NMT reset node enters Initialisation and, when enabled, resets the device. -/
  | nmtResetNode
  /-- NMT_RESET_COMMUNICATION (R495): NMT reset communication re-enters Initialisation with the new bit rate and node-ID. -/
  | nmtResetCommunication
  /-- CAN_ENABLE_WRITE (R495): A write of 1 to DIC_CTRL.can_en puts the CAN node into Initialisation. -/
  | canEnableWrite
  /-- INITIALISATION_DONE (R495): Communication objects are set and the boot-up message sent; the node enters Pre-operational. -/
  | initialisationDone
  /-- CAN_BUS_OFF_RECOVERY (R492): A bus-off node recovers after 128 occurrences of 11 recessive bits. -/
  | canBusOffRecovery
  /-- LANTERN_DATAGRAM (R504): A Lantern datagram is checked, replayed from its session or executed item by item and answered. -/
  | lanternDatagram (dest : Option (BitVec 32 × BitVec 16)) (ip : BitVec 32) (port : BitVec 16) (data : List (BitVec 8))
  /-- LANTERN_READ (R503): Item READ returns an object's value. -/
  | lanternRead
  /-- LANTERN_WRITE (R503): Item WRITE writes an object's value. -/
  | lanternWrite
  /-- DOMAIN_BEGIN (R507): Item DOMAIN_BEGIN opens a staged DOMAIN write, or is refused when one is open. -/
  | domainBegin
  /-- DOMAIN_DATA (R505): Item DOMAIN_DATA stages bytes at the next expected offset. -/
  | domainData
  /-- DOMAIN_END (R508): Item DOMAIN_END checks the CRC and hands the staged data to its target. -/
  | domainEnd
  /-- DOMAIN_READ (R509): Item DOMAIN_READ returns bytes of a DOMAIN object at an offset. -/
  | domainRead
  /-- LANTERN_ABORT (R489): Item ABORT ends the session's open DOMAIN write, or is too late. -/
  | lanternAbort
  /-- DOMAIN_TIMEOUT (R505): A DOMAIN write without an item for 10 s ends as aborted. -/
  | domainTimeout
  /-- DOMAIN_RESULT (R508): The target's result of a DOMAIN hand-off is known and the answer is sent. -/
  | domainResult
  /-- REGISTER_WINDOW_ACCESS (R513): A register window subindex 02 performs one 32-bit access to the named CSR. -/
  | registerWindowAccess (client : Option (BitVec 32)) (w : Fin 256) (data : Option (BitVec 32))
  /-- MGT_ARP (R500): The management port answers an ARP request. -/
  | mgtArp (ip : BitVec 32) (mac : BitVec 48) (target : BitVec 32)
  /-- MGT_ICMP_ECHO (R500): The management port answers an ICMP echo within its rate limit. -/
  | mgtIcmpEcho (t : Nat) (mac : BitVec 48) (ip target : BitVec 32) (rest : List (BitVec 8))
  /-- JOURNAL_MIRROR (R517): The keeper mirrors journal entries to flash or counts lost ones. -/
  | journalMirror (ok : Bool)
  /-- TEMP_SAMPLE (R521): Tarnish reads island temperatures every 1 ms and starts a replanning above T_max. -/
  | tempSample (t : Nat) (temps : List Int) (lows : List Nat) (hbm0 hbm1 : BitVec 8)
  /-- TEMP_SHIFT_HELD (R525): A temperature shift beyond TAR_TEMP.trig held for 1 s triggers a replanning. -/
  | tempShiftHeld (i : Fin 16)
  /-- REPLAN_INTERVAL_EXPIRY (R525): TAR_INTERVAL.s elapses and a replanning is triggered. -/
  | replanIntervalExpiry
  /-- REPLAN (R525): A write of 1 to TAR_CMD.replan triggers a replanning. -/
  | replan
  /-- REPLANNING_START (R526): A replanning starts, or sets pending while one runs. -/
  | replanningStart
  /-- SENSORS_SAMPLED (R527): The sensors are sampled and the plan computed, raising warnings, retiring islands and ordering the voltage. -/
  | sensorsSampled (t : Nat) (reads : List SensorRead)
  /-- AVS_COMPLETE (R530): AVSBus reports completion of a voltage raise and the settle wait begins. -/
  | avsComplete (means : List Nat)
  /-- AVS_SETTLE_EXPIRY (R530): The settle time ends and the plan is proposed for admission. -/
  | avsSettleExpiry
  /-- AVS_FAIL (R531): An AVSBus error or a missing completion after 1 ms abandons the replanning. -/
  | avsFail
  /-- UNRETIRE (R529): A write of TAR_CMD.unretire clears an island's retired bit. -/
  | unretire (i : Fin 16)
  /-- HISTORY_POINT (R534): Each history period Tarnish stores a point per island and lane and refits the forecast. -/
  | historyPoint (t : Nat)
  /-- PENALTY_DECAY (R533): Each 24 h without an overrun removes 5 ps of an island's penalty. -/
  | penaltyDecay (i : Fin 16)
  /-- LEDGER_TICK (R542): Each second the ledger takes reports and telemetry, accumulates, computes life and moves record states. -/
  | ledgerTick (t : Nat)
  /-- PROBATION_EXPIRY (R548): prob_left reaches 0 and the ledger posts point 3. -/
  | probationExpiry (r : Fin 1024)
  /-- HIT_ADD (R544): A write to LED_HIT_ADD_HI adds a 64-bit hit count to the lane's record. -/
  | hitAdd (ini : Fin 41) (hi : BitVec 32)
  /-- ACTQ_READ (R546): A read of LED_ACTQ returns and removes the head of the action queue. -/
  | actqRead (ini : Fin 41)
  /-- ACTQ_DONE (R546): A write to LED_ACTQ_DONE reports a point's outcome, completing probation exit or reporting failure. -/
  | actqDone (r : Fin 4096) (point : Fin 8) (failed : Bool)
  /-- LEDGER_ACTION (R547): Resident firmware carries out a posted point by masking, raising thresholds or sending setpoints. -/
  | ledgerAction (r : Fin 1024) (point : Fin 4) (lane : Fin 224) (seq : Fin 256)
  /-- FORGET (R541): A write of LED_CMD.forget frees an ABSENT or RETIRED record. -/
  | forget (r : Fin 1024)
  /-- LEDGER_SELECT (R551): A write to LED_SEL copies the named record image into LED_REC. -/
  | ledgerSelect (r : Fin 1024)
  /-- LEDGER_MIRROR (R549): Every mirror_min minutes the keeper mirrors the ledger to flash. -/
  | ledgerMirror (ok : Bool)
  /-- DOZE (R557): A write of 1 to PWR_CMD.doze enters Doze at the next barrier. -/
  | doze
  /-- RUN (R557): A write of 1 to PWR_CMD.run returns to Run, or starts the Eclipse exit by the keeper. -/
  | run (keeper : Bool)
  /-- ECLIPSE (R558): A write of 1 to PWR_CMD.eclipse starts the Eclipse entry sequence. -/
  | eclipse
  /-- DUSK (R564): A write of 1 to PWR_CMD.dusk starts the ordered power-down. -/
  | dusk
  /-- POWER_ABORT (R558): A write of 1 to PWR_CMD.abort returns an entry or Dusk before its commit, or is too late. -/
  | powerAbort
  /-- ECLIPSE_COMMIT (R558): At the first barrier after the command the timeline, sequencer and Prism stop and pending actions cancel. -/
  | eclipseCommit
  /-- ECLIPSE_DRAIN_EXPIRY (R558): The readout drain ends, unfinished events are discarded and threads are signalled. -/
  | eclipseDrainExpiry
  /-- ECLIPSE_GRACE_EXPIRY (R558): The grace time ends, remaining threads stop, facets halt, stacks self-refresh and gates close. -/
  | eclipseGraceExpiry
  /-- DUSK_MIRROR_DONE (R564): The keeper finishes mirroring and powers every domain but always-on down. -/
  | duskMirrorDone
  /-- WAKE_CAN (R560): A CAN frame for the node wakes the device and starts the Eclipse exit. -/
  | wakeCan (frame : CanFrame)
  /-- WAKE_TIMING (R560): 1,024 good XCLK edges wake the device. -/
  | wakeTiming
  /-- WAKE_RING (R561): A keeper access outside the always-on domain wakes the device or is refused. -/
  | wakeRing
  /-- WAKE_TIMER (R560): The keeper's thread timer expiry wakes the device. -/
  | wakeTimer
  /-- DEV_RESET (R567): A write of 1 to PWR_CMD.dev_reset resets the device as a pin reset. -/
  | devReset
  /-- KICK (R567): A write of 1 to PWR_CMD.kick restarts the keeper watchdog. -/
  | kick
  /-- WATCHDOG_EXPIRY (R567): The keeper watchdog expires and resets the keeper. -/
  | watchdogExpiry (t : Nat)
  /-- CORE_RESET (R567): PWR_RESET.core resets a control core and its threads. -/
  | coreReset (c : Fin 4)
  /-- DMA_GROUP_RESET (R567): PWR_RESET.dma resets a DMA group. -/
  | dmaGroupReset (g : Fin 2)
  /-- EDGE_FABRIC_RESET (R567): PWR_RESET.edge resets every facet and the configuration port. -/
  | edgeFabricReset
  /-- GNOMON_RESET (R567): PWR_RESET.gnomon resets Gnomon with its counters and serial. -/
  | gnomonReset
  /-- WORGA_RESET (R567): PWR_RESET.worga resets the link engine and links. -/
  | worgaReset
  /-- READOUT_RESET (R567): PWR_RESET.readout resets the readout engine, ports and queue. -/
  | readoutReset
  /-- PWRGD_LOSS (R566): PWRGD low for 1 µs holds every domain in reset without Dusk. -/
  | pwrgdLoss (aon : Bool)
  /-- PIN_RESET (R567): RESET_N held low resets everything except retention contents; its rise starts Dawn. -/
  | pinReset
  /-- POWER_ON_RESET (R567): Supplies and PWRGD in range with RESET_N rising reset everything and start Dawn. -/
  | powerOnReset (board : List (Nat × List (BitVec 8)))
  /-- DAWN (R568): The boot sequence loads firmware, patch, retained regions, start plan and stored configuration. -/
  | dawn (t us : Nat) (mode : Fin 8) (flash : Option Sfdp) (stack0 stack1 : Bool)
  /-- RETENTION_SCRUB (R559): The keeper scrubs the retention SRAM, correcting or invalidating regions. -/
  | retentionScrub (region : Fin 5) (o : Codeword)
  /-- CONFIG_STORE (R578): A store command or a write to 0x3002:01 checks and programs a configuration slot. -/
  | configStore (run : FlashRun)
  /-- CONFIG_STORE_ABORT (R578): A write of 1 to BOT_STORE_CMD.abort keeps the old slot before the read-back ends. -/
  | configStoreAbort
  /-- VENDOR_UPDATE (R578): A vendor bundle is checked and programmed into area B then area A. -/
  | vendorUpdate (run : FlashRun)
  /-- ERQ_HEAD_READ (R600): A read of ERQ_HEAD word 0 or 0x3100:03 copies and marks the head entry taken. -/
  | erqHeadRead (ini : Fin 41)
  /-- ERQ_POP (R600): A write of the head's seq to ERQ_POP removes a taken head, or is refused. -/
  | erqPop (seq : BitVec 32)
  /-- BROWNOUT (R619): VDD_CORE or VDD_SRAM below threshold for 1 µs resets the device until the next RESET_N rise. -/
  | brownout (core : Bool)
  /-- AON_BROWNOUT (R619): VDD_AON below 0.68 V for 1 µs is a power-on reset and loses retention. -/
  | aonBrownout
  /-- THERMAL_TRIP (R620): An island above the trip point for 100 µs asserts THERMTRIP_N and holds the device in reset. -/
  | thermalTrip
  /-- SMB_STATUS (R629): SMBus Read Word 0x00 returns the status word. -/
  | smbStatus (pec : Bool)
  /-- SMB_ISLAND_TEMP (R629): SMBus Read Word 0x01 returns the hottest island temperature. -/
  | smbIslandTemp (pec : Bool)
  /-- SMB_HBM_TEMP (R629): SMBus Read Word 0x02 returns the hottest stack temperature. -/
  | smbHbmTemp (pec : Bool)
  /-- SMB_VOUT (R629): SMBus Read Word 0x03 returns the VDD_CORE setpoint. -/
  | smbVout (pec : Bool)
  /-- SMB_ERQ_USED (R629): SMBus Read Word 0x04 returns the error-queue entries held. -/
  | smbErqUsed (pec : Bool)
  /-- SMB_STEPPING (R629): SMBus Read Word 0x05 returns SYS_STEPPING. -/
  | smbStepping (pec : Bool)
  /-- SMB_ID (R629): SMBus Read Word 0x06 returns SYS_ID. -/
  | smbId (pec : Bool)
  /-- SMB_NACK (R629): An SMBus write, unknown command or read without required PEC is NACKed. -/
  | smbNack
  /-- IDCODE (R634): TAP instruction IDCODE selects SYS_JTAG_ID. -/
  | idcode
  /-- SAMPLE_PRELOAD (R634): TAP instruction SAMPLE/PRELOAD captures and loads the boundary register. -/
  | samplePreload (levels loaded : BitVec 895)
  /-- EXTEST (R634): TAP instruction EXTEST drives pins from the boundary register in boot modes 3 and 4. -/
  | extest (levels loaded : BitVec 895)
  /-- CLAMP (R634): TAP instruction CLAMP holds outputs with BYPASS selected in boot modes 3 and 4. -/
  | clamp
  /-- HIGHZ (R634): TAP instruction HIGHZ floats outputs in boot modes 3 and 4. -/
  | highz
  /-- EXTEST_PULSE (R634): IEEE 1149.6 EXTEST_PULSE on AC pins in boot modes 3 and 4. -/
  | extestPulse (levels loaded : BitVec 895)
  /-- EXTEST_TRAIN (R634): IEEE 1149.6 EXTEST_TRAIN on AC pins in boot modes 3 and 4. -/
  | extestTrain (levels loaded : BitVec 895)
  /-- BYPASS (R634): TAP instruction BYPASS, also taken for refused and undefined codes. -/
  | bypass
  /-- MEM_ACCESS (R636): An Update-DR with go issues one 4-byte ring access as initiator 40, or is ignored or refused. -/
  | memAccess (go write : Bool) (addr : Fin 0x10000000000) (data : BitVec 32)
  /-- TAP_RESET (R567): TRST_N low resets the test access port and returns pins to function. -/
  | tapReset
  /-- TRACE_CLEAR (R640): A write of 1 to DBG_TRACE_CMD.clear empties the trace buffer and clears stopped. -/
  | traceClear
  /-- WORGA_LANE_PLL_LOCK (R292): Every lane PLL of an enabled data link or beacon lane locks, and the link leaves DOWN for TRAINING. -/
  | worgaLanePllLock (l : LinkId)
  /-- WORGA_CODEWORD (R285): A Worga lane receives the end of an RS(544,514) codeword, checks or corrects it and counts corrected or uncorrectable codewords. -/
  | worgaCodeword (l : LinkId) (o : Codeword)
  /-- CAN_BUS_STATE_CHANGE (R492): The CAN controller's error counters take it into error-passive or bus-off, setting can_bus_off and error register bit 4, or back to error-active. -/
  | canBusStateChange (bus : Fin 3) (tec rec : Fin 512)
  /-- MGT_BLOCK_LOCK (R500): The management port PCS gains or loses block lock, setting or clearing DIC_STATUS.mgt_link. -/
  | mgtBlockLock (locked : Bool)
  /-- REFCLK_PRESENCE_CHANGE (R621): A REFCLK input is lost or returns, and its bit in FLN_REFCLK_STATUS changes within 10 µs. -/
  | refclkPresenceChange (k : Fin 8) (present : Bool)
  deriving DecidableEq, Repr

end Sys2Proof
end

