-- ==== Sys2Proof/Machine/Bits.lean ====
section
/-! DEFINITION. Bit fields, sign and byte order on natural numbers that stand for fixed-width words. -/

namespace Sys2Proof.Machine

/-- Bits `[lo + w - 1 : lo]` of `v`. -/
def bits (v lo w : Nat) : Nat := (v >>> lo) % 2 ^ w

/-- Bit `i` of `v` as 0 or 1. -/
def bit1 (v i : Nat) : Nat := (v >>> i) % 2

/-- `v` with bits `[lo + w - 1 : lo]` replaced by those of `x`. -/
def setBits (v lo w x : Nat) : Nat := (v - ((v >>> lo) % 2 ^ w) * 2 ^ lo) + (x % 2 ^ w) * 2 ^ lo

/-- `b` as 0 or 1. -/
def b2n (b : Bool) : Nat := if b then 1 else 0

/-- The integer a `w`-bit two's complement word stands for. -/
def toInt (w v : Nat) : Int := let u := v % 2 ^ w; if u < 2 ^ (w - 1) then (u : Int) else (u : Int) - (2 ^ w : Nat)

/-- The `w`-bit two's complement word of an integer. -/
def ofInt (w : Nat) (x : Int) : Nat := (x % ((2 ^ w : Nat) : Int)).toNat

/-- Sign extension of a `w`-bit word to `n` bits. -/
def sext (w n v : Nat) : Nat := ofInt n (toInt w v)

/-- `x` held within `lo` and `hi`. -/
def clampN (lo hi x : Nat) : Nat := if x < lo then lo else if hi < x then hi else x

/-- `x` held within `lo` and `hi`. -/
def clampI (lo hi x : Int) : Int := if x < lo then lo else if hi < x then hi else x

/-- Quotient rounded up; 0 for a divisor of 0. -/
def ceilDiv (a b : Nat) : Nat := if b = 0 then 0 else (a + b - 1) / b

/-- The number of ones among the low `n` bits of `v`. -/
def popCount (n v : Nat) : Nat :=
  match n with
  | 0 => 0
  | n + 1 => popCount n v + (v >>> n) % 2

/-- The number of ones of `v`, by halves: `2 ^ k` bits. -/
def popTree (k v : Nat) : Nat :=
  match k with
  | 0 => v % 2
  | k + 1 => if v = 0 then 0 else popTree k (v % 2 ^ 2 ^ k) + popTree k (v >>> 2 ^ k)

/-- The index of the lowest one among the low `n` bits of `v`. -/
def lowestOne (n v : Nat) : Option Nat := (List.range n).find? fun i => (v >>> i) % 2 = 1

/-- The index of the lowest one of `v` within `2 ^ k` bits, by halves. -/
def lowTree (k v : Nat) : Option Nat :=
  match k with
  | 0 => if v % 2 = 1 then some 0 else none
  | k + 1 =>
    if v = 0 then none
    else if v % 2 ^ 2 ^ k = 0 then (lowTree k (v >>> 2 ^ k)).map (· + 2 ^ k)
    else lowTree k (v % 2 ^ 2 ^ k)

/-- The little-endian number of a list of bytes (R1). -/
def leNat : List (BitVec 8) → Nat
  | [] => 0
  | b :: bs => b.toNat + 256 * leNat bs

/-- The `n` bytes of `v`, lowest first (R1). -/
def leBytes : Nat → Nat → List (BitVec 8)
  | 0, _ => []
  | n + 1, v => BitVec.ofNat 8 v :: leBytes n (v / 256)

/-- The big-endian number of a list of bytes, as the headers of published standards have it (R1). -/
def beNat (bs : List (BitVec 8)) : Nat := leNat bs.reverse

/-- The `n` bytes of `v`, highest first. -/
def beBytes (n v : Nat) : List (BitVec 8) := (leBytes n v).reverse

/-- `n` bytes from offset `o` of a list. -/
def slice (bs : List (BitVec 8)) (o n : Nat) : List (BitVec 8) := (bs.drop o).take n

/-- The little-endian number at offset `o`. -/
def leAt (bs : List (BitVec 8)) (o n : Nat) : Nat := leNat (slice bs o n)

/-- The list with position `i` changed by `f`; unchanged where there is no such position. -/
def listUpd {α : Type} (l : List α) (i : Nat) (f : α → α) : List α :=
  match l, i with
  | [], _ => []
  | a :: l, 0 => f a :: l
  | a :: l, i + 1 => a :: listUpd l i f

/-- The positions `0 … n - 1` at which `p` holds, as a bit set. -/
def bitSet (n : Nat) (p : Nat → Bool) : Nat :=
  match n with
  | 0 => 0
  | n + 1 => bitSet n p + (if p n then 2 ^ n else 0)

/-- Applies `f` for `i = 0 … n - 1` in order. -/
def forN {σ : Type} (n : Nat) (s : σ) (f : Nat → σ → σ) : σ :=
  match n with
  | 0 => s
  | n + 1 => f n (forN n s f)

/-- One byte into a reflected CRC-32 register (R103). -/
def crc32Byte (c : Nat) (b : BitVec 8) : Nat :=
  (List.range 8).foldl (fun c _ => if c % 2 = 1 then (c >>> 1) ^^^ 0xEDB88320 else c >>> 1) (c ^^^ b.toNat)

/-- The CRC-32 of the Ethernet frame check sequence: reflected 0x04C1_1DB7, initial value and final inversion of all
ones (R103). -/
def crc32 (bs : List (BitVec 8)) : Nat := bs.foldl crc32Byte 0xFFFFFFFF ^^^ 0xFFFFFFFF

/-- The CRC-32 of a byte string with the four bytes at offset `o` taken as 0 (R103, R226, R573). -/
def crc32Field (bs : List (BitVec 8)) (o : Nat) : Nat :=
  crc32 (bs.take o ++ List.replicate 4 0 ++ bs.drop (o + 4))

/-- The CRC-16 of the slow channel: 0x1021, initial value 0xFFFF, no reflection, no final inversion (R59). -/
def crc16 (bs : List (BitVec 8)) : Nat :=
  bs.foldl (fun c b => (List.range 8).foldl
    (fun c _ => if c &&& 0x8000 = 0 then (c <<< 1) % 65536 else ((c <<< 1) % 65536) ^^^ 0x1021)
    (c ^^^ (b.toNat <<< 8))) 0xFFFF

/-- The low `n` bits of `v` in reverse order. -/
def reverseBits (n v : Nat) : Nat := bitSet n fun i => v.testBit (n - 1 - i)

/-- Splits a word list at its first element that satisfies `p`. -/
def popWhere {α : Type} (p : α → Bool) : List α → Option (α × List α)
  | [] => none
  | a :: l => if p a then some (a, l) else (popWhere p l).map fun r => (r.1, a :: r.2)

end Sys2Proof.Machine
end

