-- ==== Sys2Proof/Machine/CpuWord.lean ====
section
/-! DEFINITION. The instruction words of the cores: the formats of R362 and the words that R350, R363, R364, R371, R384 and
R391 make illegal. -/

namespace Sys2Proof.Machine

/-- Format R (R362). -/
def encR (op rd ra rb func : Nat) : Nat := op <<< 26 + rd <<< 21 + ra <<< 16 + rb <<< 11 + func

/-- Format I: rd, or rs for stores, ra and a 16-bit immediate. -/
def encI (op rd ra imm : Nat) : Nat := op <<< 26 + rd <<< 21 + ra <<< 16 + imm % 65536

/-- Format B: ra, rb and a 16-bit displacement. -/
def encB (op ra rb disp : Nat) : Nat := op <<< 26 + ra <<< 21 + rb <<< 16 + disp % 65536

/-- Format J: a 26-bit displacement. -/
def encJ (op disp : Nat) : Nat := op <<< 26 + disp % 2 ^ 26

/-- Format F: fd, fa, fb, fc, the rounding mode and the precision. -/
def encF (op fd fa fb fc rm prec : Nat) : Nat :=
  op <<< 26 + fd <<< 21 + fa <<< 16 + fb <<< 11 + fc <<< 6 + rm <<< 3 + prec <<< 2

/-- func of the FP group (R384). -/
def fpFunc (rm prec op : Nat) : Nat := rm <<< 8 + prec <<< 7 + op

/-- A SYS instruction that is legal by its word alone (R380). -/
def legalSys (keeper : Bool) (rd ra rb func : Nat) : Bool :=
  let bare := rd == 0 && ra == 0 && rb == 0
  match func with
  | 0x000 => bare
  | 0x001 => bare
  | 0x002 => bare
  | 0x003 => bare
  | 0x004 => rd == 0 && ra < 24 && rb == 0
  | 0x005 => rd == 0 && ra < 24 && rb == 0
  | 0x006 => bare
  | 0x007 => bare
  | 0x008 => rd == 0 && ra == 0
  | 0x009 => bare
  | 0x00A => bare
  | 0x00B => bare && !keeper
  | 0x00C => rd < 24 && rb == 0 && !(keeper && ra == 3)
  | 0x00D => ra < 24 && rb == 0 && !(keeper && rd == 3)
  | 0x00E => rd < 24 && ra < 24 && rb == 0
  | 0x00F => rd == 0 && ra < 24 && rb < 24
  | 0x013 => bare
  | _ => false

/-- An FP-group instruction that is legal by its word alone: the register fields it uses, rm 0 where it does not round
(R384, R385). -/
def legalFp (rd ra rb func : Nat) : Bool :=
  let rm := bits func 8 3
  let rounds := rm ≤ 5
  let quiet := rm == 0
  match bits func 0 7 with
  | 0x00 => rounds
  | 0x01 => rounds
  | 0x02 => rounds
  | 0x03 => rounds
  | 0x04 => rounds && rb == 0
  | 0x05 => quiet
  | 0x06 => quiet
  | 0x08 => quiet && rd < 24
  | 0x09 => quiet && rd < 24
  | 0x0A => quiet && rd < 24
  | 0x0B => quiet && rd < 24 && rb == 0
  | 0x10 => rounds && rd < 24 && rb == 0
  | 0x11 => rounds && rd < 24 && rb == 0
  | 0x12 => rounds && ra < 24 && rb == 0
  | 0x13 => rounds && ra < 24 && rb == 0
  | 0x14 => rounds && rb == 0
  | 0x18 => quiet && rd < 24 && rb == 0
  | 0x19 => quiet && ra < 24 && rb == 0
  | 0x1A => quiet && rb == 0
  | 0x1B => quiet && rb == 0
  | 0x1C => quiet
  | _ => false

/-- A word that no rule on encodings makes illegal, on a control core or on the keeper. -/
def legalWord (keeper : Bool) (w : Nat) : Bool :=
  let rd := bits w 21 5
  let ra := bits w 16 5
  let rb := bits w 11 5
  let func := bits w 0 11
  let op := bits w 26 6
  if op = 0x00 then rd < 24 && ra < 24 && func ≤ 0x15 && (if 0x0E ≤ func && func ≤ 0x13 then rb == 0 else rb < 24)
  else if op = 0x01 then rd < 24 && ra < 24 && rb < 24 && func ≤ 7 && func != 3
  else if op = 0x02 then legalSys keeper rd ra rb func
  else if op = 0x03 then !keeper && legalFp rd ra rb func
  else if op < 0x08 then !keeper && bits w 3 3 ≤ 5 && bits w 0 2 == 0
  else if op < 0x0E then rd < 24 && ra < 24
  else if op < 0x10 then rd < 24 && ra == 0
  else if op = 0x15 ∨ op = 0x1B then rd < 24 && rd % 2 == 0 && ra < 24
  else if op = 0x16 ∨ op = 0x17 ∨ op = 0x1C ∨ op = 0x1D then !keeper && ra < 24
  else if op < 0x1E then rd < 24 && ra < 24
  else if op = 0x1E then rd < 24 && ra < 24 && rb < 24 && func ≤ 1
  else if 0x20 ≤ op ∧ op ≤ 0x25 then rd < 24 && ra < 24
  else if op = 0x26 ∨ op = 0x27 then true
  else if op = 0x28 then rd < 24 && ra < 24 && (func == 5 || func == 6 || func == 7 || func == 0x15)
  else false

end Sys2Proof.Machine
end

