-- ==== Sys2Proof/Config.lean ====
section
/-! DEFINITION. What an implementation fixes (fuses, grades) and the free values: constants with no body, so that
a claim holds whatever they are. -/

namespace Sys2Proof

/-- The speed grade is 28 and not 32 (R11, R641). -/
opaque Config.grade28 : Bool

/-- The temperature grade is E and not C (R11, R641). -/
opaque Config.gradeE : Bool

/-- The fused value of a register field, by the field's key (the reset entry "fuse", 00 *Registers*). -/
opaque Config.fuse : Nat → Nat

/-- A value that the spec leaves open, by the model's own counter of such values. -/
opaque Config.free : Nat → Nat

/-- The length in cycles of stretch k between preemption points inside a library primitive, by entry, n, m, OPT and k
(R218): the ROM's microwords are not in the spec. -/
opaque Config.libStretch : Nat → Nat → Nat → Nat → Nat → Nat

/-- The contents of the vendor ROM, by word (R223): not in the spec. -/
opaque Config.romWord : Nat → Nat

/-- PureEd25519 accepts the signature of an image, given as header and payload (R573): an external standard, uninterpreted. -/
opaque Config.signatureOk : List (BitVec 8) → Bool

/-- The SHA-256 digest of an image's key equals the fused vendor hash (`true`) or owner hash (`false`) (R573). -/
opaque Config.keyTrusted : Bool → List (BitVec 8) → Bool

/-- AES-256-GCM decryption of a patch with the fused key: nonce, associated data, ciphertext, tag (R574); none where the
tag does not verify. -/
opaque Config.decryptPatch : List (BitVec 8) → List (BitVec 8) → List (BitVec 8) → List (BitVec 8) → Option (List (BitVec 8))

/-- What Dawn loads into a field whose reset entry is "boot" where no stored configuration gives a value, by the field's key
(00 *Registers*): the node-ID and the addresses of the management port. -/
opaque Config.bootValue : Nat → Nat

/-- The fused vendor-ID of 0x1018:01 (R520). -/
opaque Config.vendorId : Nat

/-- The text of 0x100A, by the firmware version that Dawn loaded (R520): the spec gives no format. -/
opaque Config.softwareVersion : Nat → List (BitVec 8)

end Sys2Proof
end

