-- ==== Sys2Proof/Machine/Field.lean ====
section
/-! DEFINITION. The descriptor of one field of a control and status register, its place and its reset value. -/

namespace Sys2Proof.Machine

/-- The access codes of R4. -/
inductive Acc where
  | rw | ro | wo | w1c | w1s | rc
  deriving DecidableEq, Repr

/-- How the reset entry of a register table is given. -/
inductive Rst where
  /-- A stated value. -/
  | const (v : Nat)
  /-- One value in grade 32 and one in grade 28. -/
  | grade (g32 g28 : Nat)
  /-- Loaded from fuses. -/
  | fuse
  /-- One value for control cores 0 to 3 and one for the keeper (instance 4). -/
  | keeper (ctrl keep : Nat)
  /-- The instance number. -/
  | inst
  /-- One value for facets 0 to 55 and one for the timing facet 56. -/
  | facet56 (v v56 : Nat)
  /-- The ring (0) or direction (1) of the reset route of stop `i` to entry `j` (R433). -/
  | route (part : Nat)
  /-- The reset home set of scratchpad bank `i`, low or high word (R461). -/
  | home (half : Nat)
  deriving DecidableEq, Repr

/-- The clamp that a field's Meaning column states for a write. -/
inductive Clamp where
  /-- Every value of the width is taken. -/
  | none
  /-- Values below or above are replaced by the nearest bound. -/
  | range (lo hi : Nat)
  /-- Values above the bound keep the old value. -/
  | keepAbove (hi : Nat)
  deriving DecidableEq, Repr

/-- One field of a register or register array: `base` is the page offset of instance (0, 0), `s1` and `s2` the
strides of the two instance numbers with `c1` and `c2` instances, `code` the offset of the register within its
per-instance block, or within the page where it stands in no block (R595). -/
structure Fld where
  page : Nat
  base : Nat
  s1 : Nat
  c1 : Nat
  s2 : Nat
  c2 : Nat
  code : Nat
  lsb : Nat
  width : Nat
  acc : Acc
  rst : Rst
  clamp : Clamp := .none
  deriving DecidableEq, Repr

/-- The page offset of instance (i, j). -/
def Fld.off (f : Fld) (i j : Nat) : Nat := f.base + f.s1 * i + f.s2 * j

/-- The key of instance (i, j) in the state's table: 32 × (page × 0x1_0000 + offset) + lowest bit; the offset stays within
its page. -/
def Fld.key (f : Fld) (i j : Nat) : Nat := 0x200000 * f.page + (32 * f.off i j + f.lsb) % 0x200000

/-- The reset route of stop `s` for entry `e` = d + 32 g (R433): part 0 is the ring (A for g = 0, B for g = 1),
part 1 the direction with the smaller hop count, cw (0) when both counts are 16. -/
def resetRoute (part s e : Nat) : Nat :=
  if part = 0 then e / 32 % 2 else if (e + 32 - s) % 32 ≤ 16 then 0 else 1

/-- The reset home sets of R461's table, low word (`half = 0`) or high word of bank `b`. -/
def resetHome (half b : Nat) : Nat :=
  match half, b with
  | 0, 0 => 0xF
  | 0, 1 => 0xF0
  | 0, 2 => 0xF00
  | 0, 3 => 0xF000
  | 0, 4 => 0x20000
  | 0, 6 => 0x03FC0000
  | 0, 7 => 0xFC000000
  | 1, 5 => 0x8
  | 1, 7 => 0x3
  | _, _ => 0

/-- The reset value of instance (i, j). -/
def Fld.reset (f : Fld) (i j : Nat) : Nat :=
  (match f.rst with
   | .const v => v
   | .grade a b => if Config.grade28 then b else a
   | .fuse => Config.fuse (f.key i j)
   | .keeper a b => if i = 4 then b else a
   | .inst => i
   | .facet56 a b => if i = 56 then b else a
   | .route p => resetRoute p i j
   | .home h => resetHome h i) % 2 ^ f.width

/-- The instance of `f` that stands at page offset `o`, if one does. -/
def Fld.locate (f : Fld) (o : Nat) : Option (Nat × Nat) :=
  if o < f.base then none
  else
    let d := o - f.base
    let i := if f.s1 = 0 then 0 else d / f.s1
    let r := d - f.s1 * i
    let j := if f.s2 = 0 then 0 else r / f.s2
    if i < f.c1 ∧ j < f.c2 ∧ f.off i j = o then some (i, j) else none

/-- A written value after the clamp of the Meaning column, `old` being the value in force. -/
def Fld.clampTo (f : Fld) (old v : Nat) : Nat :=
  match f.clamp with
  | .none => v
  | .range lo hi => clampN lo hi v
  | .keepAbove hi => if hi < v then old else v

end Sys2Proof.Machine
end

