-- ==== Sys2Proof/Machine/RegsArray.lean ====
section
/-! DEFINITION. The register fields of the ARR, SEQ and BCN pages (R176, R177, R239, R240, R259, R280, R281), one descriptor each: page, base offset, strides and
instance counts, offset in the block, lowest bit, width, access code and reset value, as the tables give them. -/

namespace Sys2Proof.Machine

/-- R176. ARR_STATUS[0] service: Bit i: island i in SERVICE -/
def ARR_STATUS.service : Fld := .mk 5 0 0 1 0 1 0 0 16 .ro (.const 0x0000) .none
/-- R176. ARR_STATUS[16] executing: Bit 16 + i: island i in QUARANTINE, WARM or SERVICE -/
def ARR_STATUS.executing : Fld := .mk 5 0 0 1 0 1 0 16 16 .ro (.const 0x0000) .none
/-- R176. ARR_EPOCH[0] epoch: By R170 -/
def ARR_EPOCH.epoch : Fld := .mk 5 4 0 1 0 1 4 0 32 .ro (.const 0x0) .none
/-- R176. ARR_EDGE[0] n_mode: N side, by R154 -/
def ARR_EDGE.n_mode : Fld := .mk 5 8 0 1 0 1 8 0 2 .rw (.const 0x0) .none
/-- R176. ARR_EDGE[2] e_mode: E side -/
def ARR_EDGE.e_mode : Fld := .mk 5 8 0 1 0 1 8 2 2 .rw (.const 0x0) .none
/-- R176. ARR_EDGE[4] s_mode: S side -/
def ARR_EDGE.s_mode : Fld := .mk 5 8 0 1 0 1 8 4 2 .rw (.const 0x0) .none
/-- R176. ARR_EDGE[6] w_mode: W side -/
def ARR_EDGE.w_mode : Fld := .mk 5 8 0 1 0 1 8 6 2 .rw (.const 0x0) .none
/-- R176. ARR_EDGE[8] fallback: 0: Zero; 1: Reflect, by R155 -/
def ARR_EDGE.fallback : Fld := .mk 5 8 0 1 0 1 8 8 1 .rw (.const 0x0) .none
/-- R176. ARR_CMD[0] epoch_bump: By R171 -/
def ARR_CMD.epoch_bump : Fld := .mk 5 0xc 0 1 0 1 0xc 0 1 .wo (.const 0x0) .none
/-- R176. ARR_PERSIST[0] base: Region n, n = 0 to 7: first plane, 0x080 to 0xF7F -/
def ARR_PERSIST.base : Fld := .mk 5 0x10 4 8 0 1 0x10 0 12 .rw (.const 0x080) .none
/-- R176. ARR_PERSIST[16] planes: Planes, 1 to 3,840; base + planes ≤ 0xF80, or the write is refused by R156's action. The b -/
def ARR_PERSIST.planes : Fld := .mk 5 0x10 4 8 0 1 0x10 16 12 .rw (.const 0x000) .none
/-- R176. ARR_PERSIST[31] enable: 1: region in use -/
def ARR_PERSIST.enable : Fld := .mk 5 0x10 4 8 0 1 0x10 31 1 .rw (.const 0x0) .none
/-- R176. ARR_WHALO[0] addr: Edge halo plane n, n = 0 to 7, by R155 -/
def ARR_WHALO.addr : Fld := .mk 5 0x30 4 8 0 1 0x30 0 12 .rw (.const 0x000) .none
/-- R176. ARR_WHALO[31] enable: 1: entry in use -/
def ARR_WHALO.enable : Fld := .mk 5 0x30 4 8 0 1 0x30 31 1 .rw (.const 0x0) .none
/-- R176. ARR_WHALO_READY[0] ready: Bit 8 × side + n; side 0 N, 1 E, 2 S, 3 W -/
def ARR_WHALO_READY.ready : Fld := .mk 5 0x50 0 1 0 1 0x50 0 32 .ro (.const 0x0) .none
/-- R176. ARR_BAR_TMO[0] ns: Barrier timeout, 2 ns to 100 ns; out-of-range writes are clamped -/
def ARR_BAR_TMO.ns : Fld := .mk 5 0x54 0 1 0 1 0x54 0 7 .rw (.const 0x0A) (.range 2 100)
/-- R176. ARR_ERR[0] bar_timeout: By R164 -/
def ARR_ERR.bar_timeout : Fld := .mk 5 0x58 0 1 0 1 0x58 0 1 .w1c (.const 0x0) .none
/-- R176. ARR_ERR[1] bar_late: Barrier sent late, by R162 -/
def ARR_ERR.bar_late : Fld := .mk 5 0x58 0 1 0 1 0x58 1 1 .w1c (.const 0x0) .none
/-- R176. ARR_ERR[2] cfg_refused: By R156 or an ARR_PERSIST write refused -/
def ARR_ERR.cfg_refused : Fld := .mk 5 0x58 0 1 0 1 0x58 2 1 .w1c (.const 0x0) .none
/-- R176. ARR_ERR[3] whalo_miss: By R155 -/
def ARR_ERR.whalo_miss : Fld := .mk 5 0x58 0 1 0 1 0x58 3 1 .w1c (.const 0x0) .none
/-- R176. ARR_BAR_LATE_CNT[0] count: Late barriers -/
def ARR_BAR_LATE_CNT.count : Fld := .mk 5 0x5c 0 1 0 1 0x5c 0 32 .rc (.const 0x0) .none
/-- R176. ARR_BAR_TMO_CNT[0] count: Barrier timeouts -/
def ARR_BAR_TMO_CNT.count : Fld := .mk 5 0x60 0 1 0 1 0x60 0 32 .rc (.const 0x0) .none
/-- R176. ARR_WHALO_MISS_CNT[0] count: Worga reads that used the fallback -/
def ARR_WHALO_MISS_CNT.count : Fld := .mk 5 0x64 0 1 0 1 0x64 0 32 .rc (.const 0x0) .none
/-- R176. ARR_BAR_SPREAD[0] ps: Arrive spread of the last barrier -/
def ARR_BAR_SPREAD.ps : Fld := .mk 5 0x68 0 1 0 1 0x68 0 16 .ro (.const 0x0000) .none
/-- R176. ARR_BAR_SPREAD_MAX[0] ps: Largest arrive spread since the last read -/
def ARR_BAR_SPREAD_MAX.ps : Fld := .mk 5 0x6c 0 1 0 1 0x6c 0 16 .rc (.const 0x0000) .none
/-- R177. ARR_ISL_CTRL[0] hold: 1: stay in QUARANTINE, by R168 -/
def ARR_ISL_CTRL.hold : Fld := .mk 5 0x100 0x80 16 0 1 0 0 1 .rw (.const 0x0) .none
/-- R177. ARR_ISL_CTRL[1] auto_reload: By R175 -/
def ARR_ISL_CTRL.auto_reload : Fld := .mk 5 0x100 0x80 16 0 1 0 1 1 .rw (.const 0x1) .none
/-- R177. ARR_ISL_CMD[0] off: By R168 -/
def ARR_ISL_CMD.off : Fld := .mk 5 0x104 0x80 16 0 1 4 0 1 .wo (.const 0x0) .none
/-- R177. ARR_ISL_CMD[1] on: By R168 -/
def ARR_ISL_CMD.on : Fld := .mk 5 0x104 0x80 16 0 1 4 1 1 .wo (.const 0x0) .none
/-- R177. ARR_ISL_CMD[2] quarantine: By R168 -/
def ARR_ISL_CMD.quarantine : Fld := .mk 5 0x104 0x80 16 0 1 4 2 1 .wo (.const 0x0) .none
/-- R177. ARR_ISL_CMD[3] apply_map: By R166 -/
def ARR_ISL_CMD.apply_map : Fld := .mk 5 0x104 0x80 16 0 1 4 3 1 .wo (.const 0x0) .none
/-- R177. ARR_ISL_STATUS[0] state: By R167 -/
def ARR_ISL_STATUS.state : Fld := .mk 5 0x108 0x80 16 0 1 8 0 3 .ro (.const 0x0) .none
/-- R177. ARR_ISL_STATUS[3] epoch_valid: Island epoch valid -/
def ARR_ISL_STATUS.epoch_valid : Fld := .mk 5 0x108 0x80 16 0 1 8 3 1 .ro (.const 0x0) .none
/-- R177. ARR_ISL_STATUS[8] warm_left: Slots left in WARM -/
def ARR_ISL_STATUS.warm_left : Fld := .mk 5 0x108 0x80 16 0 1 8 8 6 .ro (.const 0x00) .none
/-- R177. ARR_ISL_STATUS[16] reason: Last exit from service, by R168; 0 none -/
def ARR_ISL_STATUS.reason : Fld := .mk 5 0x108 0x80 16 0 1 8 16 4 .ro (.const 0x0) .none
/-- R177. ARR_ISL_EPOCH[0] epoch: Island epoch -/
def ARR_ISL_EPOCH.epoch : Fld := .mk 5 0x10c 0x80 16 0 1 0xc 0 32 .ro (.const 0x0) .none
/-- R177. ARR_ISL_MAP[0] cols: Four excluded physical columns, by R165 -/
def ARR_ISL_MAP.cols : Fld := .mk 5 0x110 0x80 16 0 1 0x10 0 32 .rw (.const 0x83828180) .none
/-- R177. ARR_ISL_MAP_ACTIVE[0] cols: Map in use -/
def ARR_ISL_MAP_ACTIVE.cols : Fld := .mk 5 0x114 0x80 16 0 1 0x14 0 32 .ro (.const 0x83828180) .none
/-- R177. ARR_ISL_CLK_PLAN[0] period_fs: Planned period in fs, set by the margin plan -/
def ARR_ISL_CLK_PLAN.period_fs : Fld := .mk 5 0x118 0x80 16 0 1 0x18 0 20 .ro (.grade 0x4E200 0x595B0) .none
/-- R177. ARR_ISL_CLK_MEAS[0] period_fs: Mean period over the last 16 cycles, in fs -/
def ARR_ISL_CLK_MEAS.period_fs : Fld := .mk 5 0x11c 0x80 16 0 1 0x1c 0 20 .ro (.const 0x00000) .none
/-- R177. ARR_ISL_ERR[0] clk_slow: By R161 -/
def ARR_ISL_ERR.clk_slow : Fld := .mk 5 0x120 0x80 16 0 1 0x20 0 1 .w1c (.const 0x0) .none
/-- R177. ARR_ISL_ERR[1] clk_unlock: By R161 -/
def ARR_ISL_ERR.clk_unlock : Fld := .mk 5 0x120 0x80 16 0 1 0x20 1 1 .w1c (.const 0x0) .none
/-- R177. ARR_ISL_ERR[2] bar_timeout: By R164 -/
def ARR_ISL_ERR.bar_timeout : Fld := .mk 5 0x120 0x80 16 0 1 0x20 2 1 .w1c (.const 0x0) .none
/-- R177. ARR_ISL_ERR[3] cmd_refused: By R168 -/
def ARR_ISL_ERR.cmd_refused : Fld := .mk 5 0x120 0x80 16 0 1 0x20 3 1 .w1c (.const 0x0) .none
/-- R177. ARR_ISL_ERR[4] map_refused: By R165 -/
def ARR_ISL_ERR.map_refused : Fld := .mk 5 0x120 0x80 16 0 1 0x20 4 1 .w1c (.const 0x0) .none
/-- R177. ARR_ISL_ERR[5] reload_refused: By R172 -/
def ARR_ISL_ERR.reload_refused : Fld := .mk 5 0x120 0x80 16 0 1 0x20 5 1 .w1c (.const 0x0) .none
/-- R177. ARR_ISL_ERR[6] reload_err: By R173 -/
def ARR_ISL_ERR.reload_err : Fld := .mk 5 0x120 0x80 16 0 1 0x20 6 1 .w1c (.const 0x0) .none
/-- R177. ARR_ISL_ERR[7] reload_aborted: By R174 -/
def ARR_ISL_ERR.reload_aborted : Fld := .mk 5 0x120 0x80 16 0 1 0x20 7 1 .w1c (.const 0x0) .none
/-- R177. ARR_ISL_ERR[8] abort_too_late: By R174 -/
def ARR_ISL_ERR.abort_too_late : Fld := .mk 5 0x120 0x80 16 0 1 0x20 8 1 .w1c (.const 0x0) .none
/-- R177. ARR_ISL_RELOAD_SRC_LO[6] addr: Source address bits [31:6] -/
def ARR_ISL_RELOAD_SRC_LO.addr : Fld := .mk 5 0x124 0x80 16 0 1 0x24 6 26 .rw (.const 0x0) .none
/-- R177. ARR_ISL_RELOAD_SRC_HI[0] addr: Source address bits [39:32] -/
def ARR_ISL_RELOAD_SRC_HI.addr : Fld := .mk 5 0x128 0x80 16 0 1 0x28 0 8 .rw (.const 0x00) .none
/-- R177. ARR_ISL_RELOAD_CTRL[0] start: By R172 -/
def ARR_ISL_RELOAD_CTRL.start : Fld := .mk 5 0x12c 0x80 16 0 1 0x2c 0 1 .wo (.const 0x0) .none
/-- R177. ARR_ISL_RELOAD_CTRL[1] abort: By R174 -/
def ARR_ISL_RELOAD_CTRL.abort : Fld := .mk 5 0x12c 0x80 16 0 1 0x2c 1 1 .wo (.const 0x0) .none
/-- R177. ARR_ISL_RELOAD_EPOCH[0] epoch: E, by R172 -/
def ARR_ISL_RELOAD_EPOCH.epoch : Fld := .mk 5 0x130 0x80 16 0 1 0x30 0 32 .rw (.const 0x0) .none
/-- R177. ARR_ISL_RELOAD_STATUS[0] busy: Reload armed or running -/
def ARR_ISL_RELOAD_STATUS.busy : Fld := .mk 5 0x134 0x80 16 0 1 0x34 0 1 .ro (.const 0x0) .none
/-- R177. ARR_ISL_RELOAD_STATUS[1] done_: Reload complete -/
def ARR_ISL_RELOAD_STATUS.done_ : Fld := .mk 5 0x134 0x80 16 0 1 0x34 1 1 .w1c (.const 0x0) .none
/-- R177. ARR_ISL_RELOAD_STATUS[16] planes_left: Planes still to write -/
def ARR_ISL_RELOAD_STATUS.planes_left : Fld := .mk 5 0x134 0x80 16 0 1 0x34 16 12 .ro (.const 0x000) .none
/-- R177. ARR_ISL_HALO_STALL[0] cycles: Cycles stretched by halo queues, by R157 -/
def ARR_ISL_HALO_STALL.cycles : Fld := .mk 5 0x138 0x80 16 0 1 0x38 0 32 .rc (.const 0x0) .none
/-- R177. ARR_ISL_Q_STALL[0] cycles: Cycles waiting on an empty elastic queue -/
def ARR_ISL_Q_STALL.cycles : Fld := .mk 5 0x13c 0x80 16 0 1 0x3c 0 32 .rc (.const 0x0) .none
/-- R177. ARR_ISL_SLOW_CNT[0] count: Slots with clk_slow, by R161 -/
def ARR_ISL_SLOW_CNT.count : Fld := .mk 5 0x140 0x80 16 0 1 0x40 0 32 .rc (.const 0x0) .none
/-- R177. ARR_ISL_DISCARD_CNT[0] count: Transfers discarded by R14 -/
def ARR_ISL_DISCARD_CNT.count : Fld := .mk 5 0x144 0x80 16 0 1 0x44 0 32 .rc (.const 0x0) .none

/-- Fields of page ARR, part 0. -/
def fieldsARR0 : List Fld :=
  [ARR_STATUS.service, ARR_STATUS.executing, ARR_EPOCH.epoch, ARR_EDGE.n_mode,
   ARR_EDGE.e_mode, ARR_EDGE.s_mode, ARR_EDGE.w_mode, ARR_EDGE.fallback,
   ARR_CMD.epoch_bump, ARR_PERSIST.base, ARR_PERSIST.planes, ARR_PERSIST.enable,
   ARR_WHALO.addr, ARR_WHALO.enable, ARR_WHALO_READY.ready, ARR_BAR_TMO.ns,
   ARR_ERR.bar_timeout, ARR_ERR.bar_late, ARR_ERR.cfg_refused, ARR_ERR.whalo_miss,
   ARR_BAR_LATE_CNT.count, ARR_BAR_TMO_CNT.count, ARR_WHALO_MISS_CNT.count, ARR_BAR_SPREAD.ps,
   ARR_BAR_SPREAD_MAX.ps, ARR_ISL_CTRL.hold, ARR_ISL_CTRL.auto_reload, ARR_ISL_CMD.off,
   ARR_ISL_CMD.on, ARR_ISL_CMD.quarantine, ARR_ISL_CMD.apply_map, ARR_ISL_STATUS.state,
   ARR_ISL_STATUS.epoch_valid, ARR_ISL_STATUS.warm_left, ARR_ISL_STATUS.reason, ARR_ISL_EPOCH.epoch,
   ARR_ISL_MAP.cols, ARR_ISL_MAP_ACTIVE.cols, ARR_ISL_CLK_PLAN.period_fs, ARR_ISL_CLK_MEAS.period_fs]

/-- Fields of page ARR, part 1. -/
def fieldsARR1 : List Fld :=
  [ARR_ISL_ERR.clk_slow, ARR_ISL_ERR.clk_unlock, ARR_ISL_ERR.bar_timeout, ARR_ISL_ERR.cmd_refused,
   ARR_ISL_ERR.map_refused, ARR_ISL_ERR.reload_refused, ARR_ISL_ERR.reload_err, ARR_ISL_ERR.reload_aborted,
   ARR_ISL_ERR.abort_too_late, ARR_ISL_RELOAD_SRC_LO.addr, ARR_ISL_RELOAD_SRC_HI.addr, ARR_ISL_RELOAD_CTRL.start,
   ARR_ISL_RELOAD_CTRL.abort, ARR_ISL_RELOAD_EPOCH.epoch, ARR_ISL_RELOAD_STATUS.busy, ARR_ISL_RELOAD_STATUS.done_,
   ARR_ISL_RELOAD_STATUS.planes_left, ARR_ISL_HALO_STALL.cycles, ARR_ISL_Q_STALL.cycles, ARR_ISL_SLOW_CNT.count,
   ARR_ISL_DISCARD_CNT.count]

/-- All fields of page ARR. -/
def fieldsARR : List Fld := fieldsARR0 ++ fieldsARR1

/-- R239. SEQ_STATUS[0] state: 0 IDLE, 1 RUN, 2 FAULT, by R225 -/
def SEQ_STATUS.state : Fld := .mk 6 0 0 1 0 1 0 0 2 .ro (.const 0x0) .none
/-- R239. SEQ_STATUS[2] active_half: 0: words 5,120–10,751 Active; 1: words 10,752–16,383 Active -/
def SEQ_STATUS.active_half : Fld := .mk 6 0 0 1 0 1 0 2 1 .ro (.const 0x0) .none
/-- R239. SEQ_STATUS[8] drain_left: Slots left for the DRAINING half -/
def SEQ_STATUS.drain_left : Fld := .mk 6 0 0 1 0 1 0 8 6 .ro (.const 0x00) .none
/-- R239. SEQ_STATUS[16] stages: s of the Active program; 0 in IDLE -/
def SEQ_STATUS.stages : Fld := .mk 6 0 0 1 0 1 0 16 7 .ro (.const 0x00) .none
/-- R239. SEQ_CMD[0] load: By R228 -/
def SEQ_CMD.load : Fld := .mk 6 4 0 1 0 1 4 0 1 .wo (.const 0x0) .none
/-- R239. SEQ_CMD[1] load_abort: By R228 -/
def SEQ_CMD.load_abort : Fld := .mk 6 4 0 1 0 1 4 1 1 .wo (.const 0x0) .none
/-- R239. SEQ_CMD[2] exchange: By R232 -/
def SEQ_CMD.exchange : Fld := .mk 6 4 0 1 0 1 4 2 1 .wo (.const 0x0) .none
/-- R239. SEQ_CMD[3] exchange_cancel: By R231 and R232 -/
def SEQ_CMD.exchange_cancel : Fld := .mk 6 4 0 1 0 1 4 3 1 .wo (.const 0x0) .none
/-- R239. SEQ_LOAD_ADDR_LO[3] addr: Image address bits [31:3] -/
def SEQ_LOAD_ADDR_LO.addr : Fld := .mk 6 8 0 1 0 1 8 3 29 .rw (.const 0x0) .none
/-- R239. SEQ_LOAD_ADDR_HI[0] addr: Image address bits [39:32] -/
def SEQ_LOAD_ADDR_HI.addr : Fld := .mk 6 0xc 0 1 0 1 0xc 0 8 .rw (.const 0x00) .none
/-- R239. SEQ_LOAD_LEN[0] bytes: Image length -/
def SEQ_LOAD_LEN.bytes : Fld := .mk 6 0x10 0 1 0 1 0x10 0 18 .rw (.const 0x0) .none
/-- R239. SEQ_UMBRA_STATUS[0] state: By R230 -/
def SEQ_UMBRA_STATUS.state : Fld := .mk 6 0x14 0 1 0 1 0x14 0 3 .ro (.const 0x0) .none
/-- R239. SEQ_UMBRA_STATUS[8] load_err: By R229 -/
def SEQ_UMBRA_STATUS.load_err : Fld := .mk 6 0x14 0 1 0 1 0x14 8 8 .ro (.const 0x00) .none
/-- R239. SEQ_UMBRA_STATUS[16] admit_err: By *The latency promise and program admission* -/
def SEQ_UMBRA_STATUS.admit_err : Fld := .mk 6 0x14 0 1 0 1 0x14 16 8 .ro (.const 0x00) .none
/-- R239. SEQ_LOAD_ERR_WORD[0] word: Word index of a microword refusal -/
def SEQ_LOAD_ERR_WORD.word : Fld := .mk 6 0x18 0 1 0 1 0x18 0 13 .ro (.const 0x0000) .none
/-- R239. SEQ_ACTIVE_ID[0] id: image_id of the Active half -/
def SEQ_ACTIVE_ID.id : Fld := .mk 6 0x1c 0 1 0 1 0x1c 0 32 .ro (.const 0x0) .none
/-- R239. SEQ_UMBRA_ID[0] id: image_id of a checked Umbra image -/
def SEQ_UMBRA_ID.id : Fld := .mk 6 0x20 0 1 0 1 0x20 0 32 .ro (.const 0x0) .none
/-- R239. SEQ_XCHG_WHEN_LO[0] orbit: Named orbit [31:0] -/
def SEQ_XCHG_WHEN_LO.orbit : Fld := .mk 6 0x24 0 1 0 1 0x24 0 32 .rw (.const 0x0) .none
/-- R239. SEQ_XCHG_WHEN_HI[0] orbit: Named orbit [47:32] -/
def SEQ_XCHG_WHEN_HI.orbit : Fld := .mk 6 0x28 0 1 0 1 0x28 0 16 .rw (.const 0x0) .none
/-- R239. SEQ_XCHG_WHEN_HI[16] index: Named index -/
def SEQ_XCHG_WHEN_HI.index : Fld := .mk 6 0x28 0 1 0 1 0x28 16 12 .rw (.const 0x0) .none
/-- R239. SEQ_XCHG_WHEN_HI[31] named: By R232 -/
def SEQ_XCHG_WHEN_HI.named : Fld := .mk 6 0x28 0 1 0 1 0x28 31 1 .rw (.const 0x0) .none
/-- R239. SEQ_PROMISE_NS[0] ns: Pending promise, 40 to 1,600 ns, by R235; out-of-range writes are clamped -/
def SEQ_PROMISE_NS.ns : Fld := .mk 6 0x2c 0 1 0 1 0x2c 0 11 .rw (.const 0x028) (.range 40 1600)
/-- R239. SEQ_PROMISE_ACT[0] ns: Promise in force -/
def SEQ_PROMISE_ACT.ns : Fld := .mk 6 0x30 0 1 0 1 0x30 0 11 .ro (.const 0x028) .none
/-- R239. SEQ_CERT_NS[0] bound: Bound of the Active program under the current plan, in units of 0.01 ns -/
def SEQ_CERT_NS.bound : Fld := .mk 6 0x34 0 1 0 1 0x34 0 18 .ro (.const 0x0) .none
/-- R239. SEQ_LOST_DECISIONS[0] count: By R29 and R225 -/
def SEQ_LOST_DECISIONS.count : Fld := .mk 6 0x38 0 1 0 1 0x38 0 32 .rc (.const 0x0) .none
/-- R239. SEQ_FG_CYCLES[0] last: Last foreground cycle of the latest foreground slot -/
def SEQ_FG_CYCLES.last : Fld := .mk 6 0x3c 0 1 0 1 0x3c 0 16 .ro (.const 0x0000) .none
/-- R239. SEQ_FG_CYCLES[16] max: Largest value of last since the last read -/
def SEQ_FG_CYCLES.max : Fld := .mk 6 0x3c 0 1 0 1 0x3c 16 16 .rc (.const 0x0000) .none
/-- R239. SEQ_BG_CTRL[0] enable: By R222 -/
def SEQ_BG_CTRL.enable : Fld := .mk 6 0x40 0 1 0 1 0x40 0 1 .rw (.const 0x1) .none
/-- R239. SEQ_BG_CTRL[1] abort: By R222 -/
def SEQ_BG_CTRL.abort : Fld := .mk 6 0x40 0 1 0 1 0x40 1 1 .wo (.const 0x0) .none
/-- R239. SEQ_BG_CTRL[8] vendor_period: By R221; 0: no claimed slots -/
def SEQ_BG_CTRL.vendor_period : Fld := .mk 6 0x40 0 1 0 1 0x40 8 8 .ro (.const 0x00) .none
/-- R239. SEQ_BG_STATUS[0] started: A pass has run since the exchange -/
def SEQ_BG_STATUS.started : Fld := .mk 6 0x44 0 1 0 1 0x44 0 1 .ro (.const 0x0) .none
/-- R239. SEQ_BG_STATUS[1] suspended: Context saved -/
def SEQ_BG_STATUS.suspended : Fld := .mk 6 0x44 0 1 0 1 0x44 1 1 .ro (.const 0x0) .none
/-- R239. SEQ_BG_STATUS[2] pass_done: By R222 -/
def SEQ_BG_STATUS.pass_done : Fld := .mk 6 0x44 0 1 0 1 0x44 2 1 .w1c (.const 0x0) .none
/-- R239. SEQ_BG_STATUS[3] pass_aborted: By R222 and R233 -/
def SEQ_BG_STATUS.pass_aborted : Fld := .mk 6 0x44 0 1 0 1 0x44 3 1 .w1c (.const 0x0) .none
/-- R239. SEQ_BG_STATUS[16] yield: Y of the Active program -/
def SEQ_BG_STATUS.yield : Fld := .mk 6 0x44 0 1 0 1 0x44 16 16 .ro (.const 0x0000) .none
/-- R239. SEQ_BG_PASS_CNT[0] count: Passes completed -/
def SEQ_BG_PASS_CNT.count : Fld := .mk 6 0x48 0 1 0 1 0x48 0 32 .rc (.const 0x0) .none
/-- R239. SEQ_BG_STARVE_CNT[0] count: By R220 -/
def SEQ_BG_STARVE_CNT.count : Fld := .mk 6 0x4c 0 1 0 1 0x4c 0 32 .rc (.const 0x0) .none
/-- R239. SEQ_WAIT_TO_CNT[0] count: Waits ended by timeout, by R188 -/
def SEQ_WAIT_TO_CNT.count : Fld := .mk 6 0x50 0 1 0 1 0x50 0 32 .rc (.const 0x0) .none
/-- R239. SEQ_EDG_LOST_CNT[0] count: By R213 -/
def SEQ_EDG_LOST_CNT.count : Fld := .mk 6 0x54 0 1 0 1 0x54 0 32 .rc (.const 0x0) .none
/-- R239. SEQ_CSTORE_CORR_CNT[0] count: By R224 -/
def SEQ_CSTORE_CORR_CNT.count : Fld := .mk 6 0x58 0 1 0 1 0x58 0 32 .rc (.const 0x0) .none
/-- R239. SEQ_ERR[0] load_refused: By R228 -/
def SEQ_ERR.load_refused : Fld := .mk 6 0x5c 0 1 0 1 0x5c 0 1 .w1c (.const 0x0) .none
/-- R239. SEQ_ERR[1] load_failed: By R229 -/
def SEQ_ERR.load_failed : Fld := .mk 6 0x5c 0 1 0 1 0x5c 1 1 .w1c (.const 0x0) .none
/-- R239. SEQ_ERR[2] exchange_refused: By R232 -/
def SEQ_ERR.exchange_refused : Fld := .mk 6 0x5c 0 1 0 1 0x5c 2 1 .w1c (.const 0x0) .none
/-- R239. SEQ_ERR[3] exchange_cancelled: By R231 -/
def SEQ_ERR.exchange_cancelled : Fld := .mk 6 0x5c 0 1 0 1 0x5c 3 1 .w1c (.const 0x0) .none
/-- R239. SEQ_ERR[4] abort_too_late: By R222, R228, R232 or R238 -/
def SEQ_ERR.abort_too_late : Fld := .mk 6 0x5c 0 1 0 1 0x5c 4 1 .w1c (.const 0x0) .none
/-- R239. SEQ_ERR[5] aborted: By R222 or R228 -/
def SEQ_ERR.aborted : Fld := .mk 6 0x5c 0 1 0 1 0x5c 5 1 .w1c (.const 0x0) .none
/-- R239. SEQ_ERR[6] cstore_corrected: By R224 -/
def SEQ_ERR.cstore_corrected : Fld := .mk 6 0x5c 0 1 0 1 0x5c 6 1 .w1c (.const 0x0) .none
/-- R239. SEQ_ERR[7] cstore_fault: FAULT entered, by R224 -/
def SEQ_ERR.cstore_fault : Fld := .mk 6 0x5c 0 1 0 1 0x5c 7 1 .w1c (.const 0x0) .none
/-- R239. SEQ_ERR[8] commit_refused: By R237 and R238 -/
def SEQ_ERR.commit_refused : Fld := .mk 6 0x5c 0 1 0 1 0x5c 8 1 .w1c (.const 0x0) .none
/-- R239. SEQ_ERR[9] commit_cancelled: By R238 -/
def SEQ_ERR.commit_cancelled : Fld := .mk 6 0x5c 0 1 0 1 0x5c 9 1 .w1c (.const 0x0) .none
/-- R239. SEQ_ERR[10] edge_lost: By R213 -/
def SEQ_ERR.edge_lost : Fld := .mk 6 0x5c 0 1 0 1 0x5c 10 1 .w1c (.const 0x0) .none
/-- R239. SEQ_ERR[11] bg_starved: By R220 -/
def SEQ_ERR.bg_starved : Fld := .mk 6 0x5c 0 1 0 1 0x5c 11 1 .w1c (.const 0x0) .none
/-- R239. SEQ_ERR[12] wait_timeout: By R188 -/
def SEQ_ERR.wait_timeout : Fld := .mk 6 0x5c 0 1 0 1 0x5c 12 1 .w1c (.const 0x0) .none
/-- R239. SEQ_ERR[13] admit_rejected: Umbra half entered REJECTED -/
def SEQ_ERR.admit_rejected : Fld := .mk 6 0x5c 0 1 0 1 0x5c 13 1 .w1c (.const 0x0) .none
/-- R239. SEQ_ERR[14] save_write: By R221 -/
def SEQ_ERR.save_write : Fld := .mk 6 0x5c 0 1 0 1 0x5c 14 1 .w1c (.const 0x0) .none
/-- R239. SEQ_XCHG_CNT[0] count: Exchanges made -/
def SEQ_XCHG_CNT.count : Fld := .mk 6 0x60 0 1 0 1 0x60 0 32 .rc (.const 0x0) .none
/-- R239. SEQ_TMR_CFG[0] reload: Timer t, t = 0 to 7; a write of 0 stores 1 -/
def SEQ_TMR_CFG.reload : Fld := .mk 6 0x80 8 8 0 1 0x80 0 24 .rw (.const 0x000001) (.range 1 16777215)
/-- R239. SEQ_TMR_CFG[24] tick: By R209 -/
def SEQ_TMR_CFG.tick : Fld := .mk 6 0x80 8 8 0 1 0x80 24 2 .rw (.const 0x0) .none
/-- R239. SEQ_TMR_CFG[26] periodic: 1: periodic -/
def SEQ_TMR_CFG.periodic : Fld := .mk 6 0x80 8 8 0 1 0x80 26 1 .rw (.const 0x0) .none
/-- R239. SEQ_TMR_STAT[0] count: Current count -/
def SEQ_TMR_STAT.count : Fld := .mk 6 0x84 8 8 0 1 0x84 0 24 .ro (.const 0x000000) .none
/-- R239. SEQ_TMR_STAT[24] running: Running bit -/
def SEQ_TMR_STAT.running : Fld := .mk 6 0x84 8 8 0 1 0x84 24 1 .ro (.const 0x0) .none
/-- R239. SEQ_TMR_STAT[25] expired: Event pending -/
def SEQ_TMR_STAT.expired : Fld := .mk 6 0x84 8 8 0 1 0x84 25 1 .w1c (.const 0x0) .none
/-- R239. SEQ_TMR_STAT[28] start: Sets running -/
def SEQ_TMR_STAT.start : Fld := .mk 6 0x84 8 8 0 1 0x84 28 1 .wo (.const 0x0) .none
/-- R239. SEQ_TMR_STAT[29] stop: Clears running -/
def SEQ_TMR_STAT.stop : Fld := .mk 6 0x84 8 8 0 1 0x84 29 1 .wo (.const 0x0) .none
/-- R239. SEQ_TMR_STAT[30] load: Count = reload -/
def SEQ_TMR_STAT.load : Fld := .mk 6 0x84 8 8 0 1 0x84 30 1 .wo (.const 0x0) .none
/-- R239. SEQ_EDG[0] source: Detector e, e = 0 to 15, by R212 -/
def SEQ_EDG.source : Fld := .mk 6 0xc0 4 16 0 1 0xc0 0 8 .rw (.const 0x00) .none
/-- R239. SEQ_EDG[8] mode: By R213 -/
def SEQ_EDG.mode : Fld := .mk 6 0xc0 4 16 0 1 0xc0 8 2 .rw (.const 0x0) .none
/-- R239. SEQ_EDG[10] arg_match: By R213 -/
def SEQ_EDG.arg_match : Fld := .mk 6 0xc0 4 16 0 1 0xc0 10 1 .rw (.const 0x0) .none
/-- R239. SEQ_EDG[12] arg: Matched arg -/
def SEQ_EDG.arg : Fld := .mk 6 0xc0 4 16 0 1 0xc0 12 8 .rw (.const 0x00) .none
/-- R239. SEQ_EDG[20] last_arg: arg of the latest fast-command event -/
def SEQ_EDG.last_arg : Fld := .mk 6 0xc0 4 16 0 1 0xc0 20 8 .ro (.const 0x00) .none
/-- R239. SEQ_EDG[28] pending: Event pending -/
def SEQ_EDG.pending : Fld := .mk 6 0xc0 4 16 0 1 0xc0 28 1 .w1c (.const 0x0) .none
/-- R239. SEQ_EDG[29] sample: Stored previous sample -/
def SEQ_EDG.sample : Fld := .mk 6 0xc0 4 16 0 1 0xc0 29 1 .ro (.const 0x0) .none
/-- R239. SEQ_FG_S[0] value: Sn of the Active foreground context, n = 0 to 15 -/
def SEQ_FG_S.value : Fld := .mk 6 0x100 4 16 0 1 0x100 0 32 .ro (.const 0x0) .none
/-- R239. SEQ_BG_S[0] value: Sn of the background context -/
def SEQ_BG_S.value : Fld := .mk 6 0x140 4 16 0 1 0x140 0 32 .ro (.const 0x0) .none
/-- R240. SEQ_CS_CTRL[0] arm: By R237 -/
def SEQ_CS_CTRL.arm : Fld := .mk 6 0x200 0x100 4 0 1 0 0 1 .wo (.const 0x0) .none
/-- R240. SEQ_CS_CTRL[1] abort: By R238 -/
def SEQ_CS_CTRL.abort : Fld := .mk 6 0x200 0x100 4 0 1 0 1 1 .wo (.const 0x0) .none
/-- R240. SEQ_CS_CTRL[2] clear: Clears valid in every entry; ignored while armed -/
def SEQ_CS_CTRL.clear : Fld := .mk 6 0x200 0x100 4 0 1 0 2 1 .wo (.const 0x0) .none
/-- R240. SEQ_CS_STATUS[0] armed: Set armed -/
def SEQ_CS_STATUS.armed : Fld := .mk 6 0x204 0x100 4 0 1 4 0 1 .ro (.const 0x0) .none
/-- R240. SEQ_CS_STATUS[8] entries: Valid entries, 0 to 16 -/
def SEQ_CS_STATUS.entries : Fld := .mk 6 0x204 0x100 4 0 1 4 8 5 .ro (.const 0x00) .none
/-- R240. SEQ_CS_STATUS[16] committed: By R237 -/
def SEQ_CS_STATUS.committed : Fld := .mk 6 0x204 0x100 4 0 1 4 16 1 .w1c (.const 0x0) .none
/-- R240. SEQ_CS_STATUS[17] aborted: By R238 -/
def SEQ_CS_STATUS.aborted : Fld := .mk 6 0x204 0x100 4 0 1 4 17 1 .w1c (.const 0x0) .none
/-- R240. SEQ_CS_STATUS[18] cancelled: By R238 -/
def SEQ_CS_STATUS.cancelled : Fld := .mk 6 0x204 0x100 4 0 1 4 18 1 .w1c (.const 0x0) .none
/-- R240. SEQ_CS_WHEN_LO[0] orbit: Named orbit [31:0] -/
def SEQ_CS_WHEN_LO.orbit : Fld := .mk 6 0x208 0x100 4 0 1 8 0 32 .rw (.const 0x0) .none
/-- R240. SEQ_CS_WHEN_HI[0] orbit: Named orbit [47:32] -/
def SEQ_CS_WHEN_HI.orbit : Fld := .mk 6 0x20c 0x100 4 0 1 0xc 0 16 .rw (.const 0x0) .none
/-- R240. SEQ_CS_WHEN_HI[16] index: Named index -/
def SEQ_CS_WHEN_HI.index : Fld := .mk 6 0x20c 0x100 4 0 1 0xc 16 12 .rw (.const 0x0) .none
/-- R240. SEQ_CS_WHEN_HI[31] named: As in R111 -/
def SEQ_CS_WHEN_HI.named : Fld := .mk 6 0x20c 0x100 4 0 1 0xc 31 1 .rw (.const 0x0) .none
/-- R240. SEQ_CS_ENT[0] reg: Entry e, e = 0 to 15: register S0 to S15 -/
def SEQ_CS_ENT.reg : Fld := .mk 6 0x240 0x100 4 8 16 0x40 0 4 .rw (.const 0x0) .none
/-- R240. SEQ_CS_ENT[4] ctx: 0 foreground, 1 background, by R236 -/
def SEQ_CS_ENT.ctx : Fld := .mk 6 0x240 0x100 4 8 16 0x40 4 1 .rw (.const 0x0) .none
/-- R240. SEQ_CS_ENT[31] valid: 1: entry in use -/
def SEQ_CS_ENT.valid : Fld := .mk 6 0x240 0x100 4 8 16 0x40 31 1 .rw (.const 0x0) .none
/-- R240. SEQ_CS_VAL[0] value: Value written at the commit -/
def SEQ_CS_VAL.value : Fld := .mk 6 0x244 0x100 4 8 16 0x44 0 32 .rw (.const 0x0) .none
/-- R259. SEQ_ADM_STATUS[0] busy: Admission under way, by R253 -/
def SEQ_ADM_STATUS.busy : Fld := .mk 6 0x600 0 1 0 1 0x600 0 1 .ro (.const 0x0) .none
/-- R259. SEQ_ADM_STATUS[1] active_ok: Active program passed its latest admission -/
def SEQ_ADM_STATUS.active_ok : Fld := .mk 6 0x600 0 1 0 1 0x600 1 1 .ro (.const 0x0) .none
/-- R259. SEQ_ADM_STATUS[2] held: Active program held, by R251 -/
def SEQ_ADM_STATUS.held : Fld := .mk 6 0x600 0 1 0 1 0x600 2 1 .ro (.const 0x0) .none
/-- R259. SEQ_ADM_STATUS[3] bg_room_low: 1: fg_total + 10 + bg_yield > L; background runs only in idle slots, by R220 -/
def SEQ_ADM_STATUS.bg_room_low : Fld := .mk 6 0x600 0 1 0 1 0x600 3 1 .ro (.const 0x0) .none
/-- R259. SEQ_ADM_STATUS[8] active_err: Code of the latest failed admission of the Active program, by R246 -/
def SEQ_ADM_STATUS.active_err : Fld := .mk 6 0x600 0 1 0 1 0x600 8 8 .ro (.const 0x00) .none
/-- R259. SEQ_ADM_STATUS[16] plan_err: Code of the latest refused plan, by R250 -/
def SEQ_ADM_STATUS.plan_err : Fld := .mk 6 0x600 0 1 0 1 0x600 16 8 .ro (.const 0x00) .none
/-- R259. SEQ_ADM_CMD[0] rerun: Runs admission, by R249 -/
def SEQ_ADM_CMD.rerun : Fld := .mk 6 0x604 0 1 0 1 0x604 0 1 .wo (.const 0x0) .none
/-- R259. SEQ_ADM_PSLOW[0] period_fs: P of the plan in force; after reset, the start-plan period of R576 -/
def SEQ_ADM_PSLOW.period_fs : Fld := .mk 6 0x608 0 1 0 1 0x608 0 20 .ro (.grade 0x4E200 0x595B0) .none
/-- R259. SEQ_ADM_BUDGET[0] budget: L of the plan in force, by R244 -/
def SEQ_ADM_BUDGET.budget : Fld := .mk 6 0x60c 0 1 0 1 0x60c 0 16 .ro (.const 0x0000) .none
/-- R259. SEQ_ADM_BUDGET[16] fg_total: fg_total of the Active program -/
def SEQ_ADM_BUDGET.fg_total : Fld := .mk 6 0x60c 0 1 0 1 0x60c 16 16 .ro (.const 0x0000) .none
/-- R259. SEQ_DEC_INFO[0] dec_cycles: dec_cycles of the Active program -/
def SEQ_DEC_INFO.dec_cycles : Fld := .mk 6 0x610 0 1 0 1 0x610 0 16 .ro (.const 0x0000) .none
/-- R259. SEQ_DEC_INFO[16] full: 1: F is 7,750,000 fs -/
def SEQ_DEC_INFO.full : Fld := .mk 6 0x610 0 1 0 1 0x610 16 1 .ro (.const 0x0) .none
/-- R259. SEQ_DEC_OUTPUTS[0] active: Decided-output set of the Active program, bit n for output n -/
def SEQ_DEC_OUTPUTS.active : Fld := .mk 6 0x614 0 1 0 1 0x614 0 16 .ro (.const 0x0000) .none
/-- R259. SEQ_DEC_OUTPUTS[16] umbra: Decided-output set of a checked Umbra program -/
def SEQ_DEC_OUTPUTS.umbra : Fld := .mk 6 0x614 0 1 0 1 0x614 16 16 .ro (.const 0x0000) .none
/-- R259. SEQ_UMBRA_CERT[0] bound: By R254 -/
def SEQ_UMBRA_CERT.bound : Fld := .mk 6 0x618 0 1 0 1 0x618 0 18 .ro (.const 0x0) .none
/-- R259. SEQ_XCHG_CERT[0] bound: By R254 -/
def SEQ_XCHG_CERT.bound : Fld := .mk 6 0x61c 0 1 0 1 0x61c 0 18 .ro (.const 0x0) .none
/-- R259. SEQ_XCHG_FG[0] cycles: Largest exchange-slot foreground, by R248 -/
def SEQ_XCHG_FG.cycles : Fld := .mk 6 0x620 0 1 0 1 0x620 0 16 .ro (.const 0x0000) .none
/-- R259. SEQ_OVR_VALUE[0] value: Bit n: 1 force-accept, 0 force-reject, by R255 and R258 -/
def SEQ_OVR_VALUE.value : Fld := .mk 6 0x624 0 1 0 1 0x624 0 16 .rw (.const 0xFFFF) .none
/-- R259. SEQ_OVR_CNT[0] count: Crossings with an overrun, by R257 -/
def SEQ_OVR_CNT.count : Fld := .mk 6 0x628 0 1 0 1 0x628 0 32 .rc (.const 0x0) .none
/-- R259. SEQ_OVR_OUT[0] outputs: Outputs that have overrun -/
def SEQ_OVR_OUT.outputs : Fld := .mk 6 0x62c 0 1 0 1 0x62c 0 16 .w1c (.const 0x0000) .none
/-- R259. SEQ_OVR_LAST_LO[0] serial: Serial [31:0] of the latest overrun crossing -/
def SEQ_OVR_LAST_LO.serial : Fld := .mk 6 0x630 0 1 0 1 0x630 0 32 .ro (.const 0x0) .none
/-- R259. SEQ_OVR_LAST_HI[0] serial: Serial [63:32], read as a pair by the rule of R36 -/
def SEQ_OVR_LAST_HI.serial : Fld := .mk 6 0x634 0 1 0 1 0x634 0 32 .ro (.const 0x0) .none
/-- R259. SEQ_LATE_CNT[0] count: Late decisions, by R256 -/
def SEQ_LATE_CNT.count : Fld := .mk 6 0x638 0 1 0 1 0x638 0 32 .rc (.const 0x0) .none
/-- R259. SEQ_ADM_ERR[0] promise_refused: By R252 -/
def SEQ_ADM_ERR.promise_refused : Fld := .mk 6 0x63c 0 1 0 1 0x63c 0 1 .w1c (.const 0x0) .none
/-- R259. SEQ_ADM_ERR[1] plan_refused: By R250 -/
def SEQ_ADM_ERR.plan_refused : Fld := .mk 6 0x63c 0 1 0 1 0x63c 1 1 .w1c (.const 0x0) .none
/-- R259. SEQ_ADM_ERR[2] active_held: By R251 -/
def SEQ_ADM_ERR.active_held : Fld := .mk 6 0x63c 0 1 0 1 0x63c 2 1 .w1c (.const 0x0) .none
/-- R259. SEQ_ADM_ERR[3] overrun: By R257 -/
def SEQ_ADM_ERR.overrun : Fld := .mk 6 0x63c 0 1 0 1 0x63c 3 1 .w1c (.const 0x0) .none
/-- R259. SEQ_ADM_ERR[4] late_decision: By R256 -/
def SEQ_ADM_ERR.late_decision : Fld := .mk 6 0x63c 0 1 0 1 0x63c 4 1 .w1c (.const 0x0) .none
/-- R259. SEQ_ADM_RUN_CNT[0] count: Admissions run -/
def SEQ_ADM_RUN_CNT.count : Fld := .mk 6 0x640 0 1 0 1 0x640 0 32 .rc (.const 0x0) .none
/-- R259. SEQ_PLAN_REFUSED_CNT[0] count: Plans refused -/
def SEQ_PLAN_REFUSED_CNT.count : Fld := .mk 6 0x644 0 1 0 1 0x644 0 32 .rc (.const 0x0) .none

/-- Fields of page SEQ, part 0. -/
def fieldsSEQ0 : List Fld :=
  [SEQ_STATUS.state, SEQ_STATUS.active_half, SEQ_STATUS.drain_left, SEQ_STATUS.stages,
   SEQ_CMD.load, SEQ_CMD.load_abort, SEQ_CMD.exchange, SEQ_CMD.exchange_cancel,
   SEQ_LOAD_ADDR_LO.addr, SEQ_LOAD_ADDR_HI.addr, SEQ_LOAD_LEN.bytes, SEQ_UMBRA_STATUS.state,
   SEQ_UMBRA_STATUS.load_err, SEQ_UMBRA_STATUS.admit_err, SEQ_LOAD_ERR_WORD.word, SEQ_ACTIVE_ID.id,
   SEQ_UMBRA_ID.id, SEQ_XCHG_WHEN_LO.orbit, SEQ_XCHG_WHEN_HI.orbit, SEQ_XCHG_WHEN_HI.index,
   SEQ_XCHG_WHEN_HI.named, SEQ_PROMISE_NS.ns, SEQ_PROMISE_ACT.ns, SEQ_CERT_NS.bound,
   SEQ_LOST_DECISIONS.count, SEQ_FG_CYCLES.last, SEQ_FG_CYCLES.max, SEQ_BG_CTRL.enable,
   SEQ_BG_CTRL.abort, SEQ_BG_CTRL.vendor_period, SEQ_BG_STATUS.started, SEQ_BG_STATUS.suspended,
   SEQ_BG_STATUS.pass_done, SEQ_BG_STATUS.pass_aborted, SEQ_BG_STATUS.yield, SEQ_BG_PASS_CNT.count,
   SEQ_BG_STARVE_CNT.count, SEQ_WAIT_TO_CNT.count, SEQ_EDG_LOST_CNT.count, SEQ_CSTORE_CORR_CNT.count]

/-- Fields of page SEQ, part 1. -/
def fieldsSEQ1 : List Fld :=
  [SEQ_ERR.load_refused, SEQ_ERR.load_failed, SEQ_ERR.exchange_refused, SEQ_ERR.exchange_cancelled,
   SEQ_ERR.abort_too_late, SEQ_ERR.aborted, SEQ_ERR.cstore_corrected, SEQ_ERR.cstore_fault,
   SEQ_ERR.commit_refused, SEQ_ERR.commit_cancelled, SEQ_ERR.edge_lost, SEQ_ERR.bg_starved,
   SEQ_ERR.wait_timeout, SEQ_ERR.admit_rejected, SEQ_ERR.save_write, SEQ_XCHG_CNT.count,
   SEQ_TMR_CFG.reload, SEQ_TMR_CFG.tick, SEQ_TMR_CFG.periodic, SEQ_TMR_STAT.count,
   SEQ_TMR_STAT.running, SEQ_TMR_STAT.expired, SEQ_TMR_STAT.start, SEQ_TMR_STAT.stop,
   SEQ_TMR_STAT.load, SEQ_EDG.source, SEQ_EDG.mode, SEQ_EDG.arg_match,
   SEQ_EDG.arg, SEQ_EDG.last_arg, SEQ_EDG.pending, SEQ_EDG.sample,
   SEQ_FG_S.value, SEQ_BG_S.value, SEQ_CS_CTRL.arm, SEQ_CS_CTRL.abort,
   SEQ_CS_CTRL.clear, SEQ_CS_STATUS.armed, SEQ_CS_STATUS.entries, SEQ_CS_STATUS.committed]

/-- Fields of page SEQ, part 2. -/
def fieldsSEQ2 : List Fld :=
  [SEQ_CS_STATUS.aborted, SEQ_CS_STATUS.cancelled, SEQ_CS_WHEN_LO.orbit, SEQ_CS_WHEN_HI.orbit,
   SEQ_CS_WHEN_HI.index, SEQ_CS_WHEN_HI.named, SEQ_CS_ENT.reg, SEQ_CS_ENT.ctx,
   SEQ_CS_ENT.valid, SEQ_CS_VAL.value, SEQ_ADM_STATUS.busy, SEQ_ADM_STATUS.active_ok,
   SEQ_ADM_STATUS.held, SEQ_ADM_STATUS.bg_room_low, SEQ_ADM_STATUS.active_err, SEQ_ADM_STATUS.plan_err,
   SEQ_ADM_CMD.rerun, SEQ_ADM_PSLOW.period_fs, SEQ_ADM_BUDGET.budget, SEQ_ADM_BUDGET.fg_total,
   SEQ_DEC_INFO.dec_cycles, SEQ_DEC_INFO.full, SEQ_DEC_OUTPUTS.active, SEQ_DEC_OUTPUTS.umbra,
   SEQ_UMBRA_CERT.bound, SEQ_XCHG_CERT.bound, SEQ_XCHG_FG.cycles, SEQ_OVR_VALUE.value,
   SEQ_OVR_CNT.count, SEQ_OVR_OUT.outputs, SEQ_OVR_LAST_LO.serial, SEQ_OVR_LAST_HI.serial,
   SEQ_LATE_CNT.count, SEQ_ADM_ERR.promise_refused, SEQ_ADM_ERR.plan_refused, SEQ_ADM_ERR.active_held,
   SEQ_ADM_ERR.overrun, SEQ_ADM_ERR.late_decision, SEQ_ADM_RUN_CNT.count, SEQ_PLAN_REFUSED_CNT.count]

/-- All fields of page SEQ. -/
def fieldsSEQ : List Fld := fieldsSEQ0 ++ fieldsSEQ1 ++ fieldsSEQ2

/-- R280. BCN_STATUS[0] contrib: Bit i: island i in SERVICE -/
def BCN_STATUS.contrib : Fld := .mk 7 0 0 1 0 1 0 0 16 .ro (.const 0x0000) .none
/-- R280. BCN_STATUS[16] releasing: 1: at least one release pending -/
def BCN_STATUS.releasing : Fld := .mk 7 0 0 1 0 1 0 16 1 .ro (.const 0x0) .none
/-- R280. BCN_STATUS[17] busy: BUSY asserted -/
def BCN_STATUS.busy : Fld := .mk 7 0 0 1 0 1 0 17 1 .ro (.const 0x1) .none
/-- R280. BCN_STATUS[18] pending: Releases pending, by R271, saturating at 255 -/
def BCN_STATUS.pending : Fld := .mk 7 0 0 1 0 1 0 18 8 .ro (.const 0x00) .none
/-- R280. BCN_BR[0] count: Register n, n = 0 to 3, by R264 -/
def BCN_BR.count : Fld := .mk 7 0x10 8 4 0 1 0x10 0 18 .ro (.const 0x00000) .none
/-- R280. BCN_BR[30] full: 1: latest result from bcn_req 2 -/
def BCN_BR.full : Fld := .mk 7 0x10 8 4 0 1 0x10 30 1 .ro (.const 0x0) .none
/-- R280. BCN_BR[31] or_: OR -/
def BCN_BR.or_ : Fld := .mk 7 0x10 8 4 0 1 0x10 31 1 .ro (.const 0x0) .none
/-- R280. BCN_BR_FIRST[0] index: First responder -/
def BCN_BR_FIRST.index : Fld := .mk 7 0x14 8 4 0 1 0x14 0 17 .ro (.const 0x00000) .none
/-- R280. BCN_BR_FIRST[31] none: 1: no responder -/
def BCN_BR_FIRST.none : Fld := .mk 7 0x14 8 4 0 1 0x14 31 1 .ro (.const 0x1) .none
/-- R280. BCN_BR_CONTRIB[0] mask: Contributor mask of the latest result -/
def BCN_BR_CONTRIB.mask : Fld := .mk 7 0x30 4 4 0 1 0x30 0 16 .ro (.const 0x0000) .none
/-- R280. BCN_REQ_CNT[0] count: Requests settled -/
def BCN_REQ_CNT.count : Fld := .mk 7 0x40 0 1 0 1 0x40 0 32 .rc (.const 0x0) .none
/-- R280. BCN_EXT_DROP_CNT[0] count: By R265 -/
def BCN_EXT_DROP_CNT.count : Fld := .mk 7 0x44 0 1 0 1 0x44 0 32 .rc (.const 0x0) .none
/-- R280. BCN_ERR[0] ext_drop: By R265 -/
def BCN_ERR.ext_drop : Fld := .mk 7 0x48 0 1 0 1 0x48 0 1 .w1c (.const 0x0) .none
/-- R280. BCN_ERR[1] or_only: By R266 -/
def BCN_ERR.or_only : Fld := .mk 7 0x48 0 1 0 1 0x48 1 1 .w1c (.const 0x0) .none
/-- R280. BCN_ERR[2] degraded: By R268 -/
def BCN_ERR.degraded : Fld := .mk 7 0x48 0 1 0 1 0x48 2 1 .w1c (.const 0x0) .none
/-- R280. BCN_ERR[3] width_clamped: By R273 -/
def BCN_ERR.width_clamped : Fld := .mk 7 0x48 0 1 0 1 0x48 3 1 .w1c (.const 0x0) .none
/-- R280. BCN_ERR[4] bad_cfg: By R275 -/
def BCN_ERR.bad_cfg : Fld := .mk 7 0x48 0 1 0 1 0x48 4 1 .w1c (.const 0x0) .none
/-- R280. BCN_BUSY_CTRL[0] seq_en: By R277 -/
def BCN_BUSY_CTRL.seq_en : Fld := .mk 7 0x4c 0 1 0 1 0x4c 0 1 .rw (.const 0x1) .none
/-- R280. BCN_BUSY_CTRL[1] rdo_en: By R277 -/
def BCN_BUSY_CTRL.rdo_en : Fld := .mk 7 0x4c 0 1 0 1 0x4c 1 1 .rw (.const 0x1) .none
/-- R280. BCN_BUSY_CTRL[2] force: By R277 -/
def BCN_BUSY_CTRL.force : Fld := .mk 7 0x4c 0 1 0 1 0x4c 2 1 .rw (.const 0x0) .none
/-- R280. BCN_BUSY_CTRL[3] invert: By R278 -/
def BCN_BUSY_CTRL.invert : Fld := .mk 7 0x4c 0 1 0 1 0x4c 3 1 .rw (.const 0x0) .none
/-- R280. BCN_BUSY_CTRL[8] min_slots: By R278 -/
def BCN_BUSY_CTRL.min_slots : Fld := .mk 7 0x4c 0 1 0 1 0x4c 8 8 .rw (.const 0x04) .none
/-- R280. BCN_BUSY_STATUS[0] timeline: Source active -/
def BCN_BUSY_STATUS.timeline : Fld := .mk 7 0x50 0 1 0 1 0x50 0 1 .ro (.const 0x1) .none
/-- R280. BCN_BUSY_STATUS[1] seq: Source active -/
def BCN_BUSY_STATUS.seq : Fld := .mk 7 0x50 0 1 0 1 0x50 1 1 .ro (.const 0x1) .none
/-- R280. BCN_BUSY_STATUS[2] rdo: Source active -/
def BCN_BUSY_STATUS.rdo : Fld := .mk 7 0x50 0 1 0 1 0x50 2 1 .ro (.const 0x0) .none
/-- R280. BCN_BUSY_STATUS[3] force: Source active -/
def BCN_BUSY_STATUS.force : Fld := .mk 7 0x50 0 1 0 1 0x50 3 1 .ro (.const 0x0) .none
/-- R280. BCN_BUSY_CNT[0] count: Slots with BUSY asserted -/
def BCN_BUSY_CNT.count : Fld := .mk 7 0x54 0 1 0 1 0x54 0 32 .rc (.const 0x0) .none
/-- R280. BCN_GLINT_TRIM[0] code: Trim code, by R270 -/
def BCN_GLINT_TRIM.code : Fld := .mk 7 0x58 0 1 0 1 0x58 0 8 .ro (.const 0x00) .none
/-- R280. BCN_GLINT_TRIM[8] delay_ps: Measured output delay before trim, in ps -/
def BCN_GLINT_TRIM.delay_ps : Fld := .mk 7 0x58 0 1 0 1 0x58 8 12 .ro (.const 0x000) .none
/-- R281. BCN_GL_CFG[0] mode: By R272 -/
def BCN_GL_CFG.mode : Fld := .mk 7 0x100 0x20 16 0 1 0 0 2 .rw (.const 0x0) .none
/-- R281. BCN_GL_CFG[2] invert: By R272 -/
def BCN_GL_CFG.invert : Fld := .mk 7 0x100 0x20 16 0 1 0 2 1 .rw (.const 0x0) .none
/-- R281. BCN_GL_CFG[3] idle: By R274 -/
def BCN_GL_CFG.idle : Fld := .mk 7 0x100 0x20 16 0 1 0 3 2 .rw (.const 0x0) .none
/-- R281. BCN_GL_CFG[5] func: By R266 -/
def BCN_GL_CFG.func : Fld := .mk 7 0x100 0x20 16 0 1 0 5 2 .rw (.const 0x0) .none
/-- R281. BCN_GL_CFG[7] combine: By R267 -/
def BCN_GL_CFG.combine : Fld := .mk 7 0x100 0x20 16 0 1 0 7 2 .rw (.const 0x0) .none
/-- R281. BCN_GL_CFG[9] source: 0 decision, 1 force, by R269 -/
def BCN_GL_CFG.source : Fld := .mk 7 0x100 0x20 16 0 1 0 9 1 .rw (.const 0x0) .none
/-- R281. BCN_GL_CFG[10] force_val: By R269 -/
def BCN_GL_CFG.force_val : Fld := .mk 7 0x100 0x20 16 0 1 0 10 1 .rw (.const 0x0) .none
/-- R281. BCN_GL_CFG[11] deg_val: By R268 -/
def BCN_GL_CFG.deg_val : Fld := .mk 7 0x100 0x20 16 0 1 0 11 1 .rw (.const 0x1) .none
/-- R281. BCN_GL_CFG[16] min_islands: 0 to 16, by R268; larger writes store 16 -/
def BCN_GL_CFG.min_islands : Fld := .mk 7 0x100 0x20 16 0 1 0 16 5 .rw (.const 0x00) (.range 0 16)
/-- R281. BCN_GL_THRESH[0] count: By R266 -/
def BCN_GL_THRESH.count : Fld := .mk 7 0x104 0x20 16 0 1 4 0 18 .rw (.const 0x00001) .none
/-- R281. BCN_GL_WIDTH[0] width: Units of 0.25 ns, by R273 -/
def BCN_GL_WIDTH.width : Fld := .mk 7 0x108 0x20 16 0 1 8 0 8 .rw (.const 0x08) .none
/-- R281. BCN_GL_STATUS[0] value: Decision value of the latest launch -/
def BCN_GL_STATUS.value : Fld := .mk 7 0x10c 0x20 16 0 1 0xc 0 1 .ro (.const 0x0) .none
/-- R281. BCN_GL_STATUS[1] in_set: In the decided-output set of the Active program -/
def BCN_GL_STATUS.in_set : Fld := .mk 7 0x10c 0x20 16 0 1 0xc 1 1 .ro (.const 0x0) .none
/-- R281. BCN_GL_STATUS[2] idle: At idle level, by R274 -/
def BCN_GL_STATUS.idle : Fld := .mk 7 0x10c 0x20 16 0 1 0xc 2 1 .ro (.const 0x1) .none
/-- R281. BCN_GL_STATUS[3] overrun: Latest launch was an overrun -/
def BCN_GL_STATUS.overrun : Fld := .mk 7 0x10c 0x20 16 0 1 0xc 3 1 .ro (.const 0x0) .none
/-- R281. BCN_GL_STATUS[4] degraded: Latest launch was degraded -/
def BCN_GL_STATUS.degraded : Fld := .mk 7 0x10c 0x20 16 0 1 0xc 4 1 .ro (.const 0x0) .none
/-- R281. BCN_GL_STATUS[8] width_used: Pulse width applied, units of 0.25 ns, by R273 -/
def BCN_GL_STATUS.width_used : Fld := .mk 7 0x10c 0x20 16 0 1 0xc 8 8 .ro (.const 0x08) .none
/-- R281. BCN_GL_REL_CNT[0] count: Release instants -/
def BCN_GL_REL_CNT.count : Fld := .mk 7 0x110 0x20 16 0 1 0x10 0 32 .rc (.const 0x0) .none
/-- R281. BCN_GL_ONE_CNT[0] count: Releases with value 1 -/
def BCN_GL_ONE_CNT.count : Fld := .mk 7 0x114 0x20 16 0 1 0x14 0 32 .rc (.const 0x0) .none
/-- R281. BCN_GL_DEG_CNT[0] count: By R268 -/
def BCN_GL_DEG_CNT.count : Fld := .mk 7 0x118 0x20 16 0 1 0x18 0 32 .rc (.const 0x0) .none
/-- R281. BCN_GL_ORONLY_CNT[0] count: By R266 -/
def BCN_GL_ORONLY_CNT.count : Fld := .mk 7 0x11c 0x20 16 0 1 0x1c 0 32 .rc (.const 0x0) .none

/-- Fields of page BCN, part 0. -/
def fieldsBCN0 : List Fld :=
  [BCN_STATUS.contrib, BCN_STATUS.releasing, BCN_STATUS.busy, BCN_STATUS.pending,
   BCN_BR.count, BCN_BR.full, BCN_BR.or_, BCN_BR_FIRST.index,
   BCN_BR_FIRST.none, BCN_BR_CONTRIB.mask, BCN_REQ_CNT.count, BCN_EXT_DROP_CNT.count,
   BCN_ERR.ext_drop, BCN_ERR.or_only, BCN_ERR.degraded, BCN_ERR.width_clamped,
   BCN_ERR.bad_cfg, BCN_BUSY_CTRL.seq_en, BCN_BUSY_CTRL.rdo_en, BCN_BUSY_CTRL.force,
   BCN_BUSY_CTRL.invert, BCN_BUSY_CTRL.min_slots, BCN_BUSY_STATUS.timeline, BCN_BUSY_STATUS.seq,
   BCN_BUSY_STATUS.rdo, BCN_BUSY_STATUS.force, BCN_BUSY_CNT.count, BCN_GLINT_TRIM.code,
   BCN_GLINT_TRIM.delay_ps, BCN_GL_CFG.mode, BCN_GL_CFG.invert, BCN_GL_CFG.idle,
   BCN_GL_CFG.func, BCN_GL_CFG.combine, BCN_GL_CFG.source, BCN_GL_CFG.force_val,
   BCN_GL_CFG.deg_val, BCN_GL_CFG.min_islands, BCN_GL_THRESH.count, BCN_GL_WIDTH.width]

/-- Fields of page BCN, part 1. -/
def fieldsBCN1 : List Fld :=
  [BCN_GL_STATUS.value, BCN_GL_STATUS.in_set, BCN_GL_STATUS.idle, BCN_GL_STATUS.overrun,
   BCN_GL_STATUS.degraded, BCN_GL_STATUS.width_used, BCN_GL_REL_CNT.count, BCN_GL_ONE_CNT.count,
   BCN_GL_DEG_CNT.count, BCN_GL_ORONLY_CNT.count]

/-- All fields of page BCN. -/
def fieldsBCN : List Fld := fieldsBCN0 ++ fieldsBCN1

end Sys2Proof.Machine
end

