-- ==== Sys2Proof/Machine/RegsEdge.lean ====
section
/-! DEFINITION. The register fields of the EDG, GPI and PRI pages (R119 to R121, R145, R146), one descriptor each: page, base offset, strides and
instance counts, offset in the block, lowest bit, width, access code and reset value, as the tables give them. -/

namespace Sys2Proof.Machine

/-- R119. EDG_FCTRL[0] clk: Clock code by R80, effective at the next SWITCH; facet 56 ignores writes -/
def EDG_FCTRL.clk : Fld := .mk 3 0 0x200 57 0 1 0 0 2 .rw (.facet56 0x2 0x3) .none
/-- R119. EDG_FSTATUS[0] state: By R108 -/
def EDG_FSTATUS.state : Fld := .mk 3 4 0x200 57 0 1 4 0 3 .ro (.const 0x0) .none
/-- R119. EDG_FSTATUS[4] shadow: 0 EMPTY, 1 LOADING, 2 READY -/
def EDG_FSTATUS.shadow : Fld := .mk 3 4 0x200 57 0 1 4 4 2 .ro (.const 0x0) .none
/-- R119. EDG_FSTATUS[6] act_pending: 1: activation armed -/
def EDG_FSTATUS.act_pending : Fld := .mk 3 4 0x200 57 0 1 4 6 1 .ro (.const 0x0) .none
/-- R119. EDG_FSTATUS[7] capture_done: By R116 -/
def EDG_FSTATUS.capture_done : Fld := .mk 3 4 0x200 57 0 1 4 7 1 .w1c (.const 0x0) .none
/-- R119. EDG_FSTATUS[8] load_err: By R107 -/
def EDG_FSTATUS.load_err : Fld := .mk 3 4 0x200 57 0 1 4 8 8 .ro (.const 0x00) .none
/-- R119. EDG_CFG_ADDR_LO[3] addr: Image address bits [31:3] -/
def EDG_CFG_ADDR_LO.addr : Fld := .mk 3 8 0x200 57 0 1 8 3 29 .rw (.const 0x0) .none
/-- R119. EDG_CFG_ADDR_HI[0] addr: Image address bits [39:32] -/
def EDG_CFG_ADDR_HI.addr : Fld := .mk 3 0xc 0x200 57 0 1 0xc 0 8 .rw (.const 0x00) .none
/-- R119. EDG_CFG_LEN[0] bytes: Image length -/
def EDG_CFG_LEN.bytes : Fld := .mk 3 0x10 0x200 57 0 1 0x10 0 20 .rw (.const 0x0) .none
/-- R119. EDG_CFG_WHEN_LO[0] orbit: Named orbit [31:0] -/
def EDG_CFG_WHEN_LO.orbit : Fld := .mk 3 0x14 0x200 57 0 1 0x14 0 32 .rw (.const 0x0) .none
/-- R119. EDG_CFG_WHEN_HI[0] orbit: Named orbit [47:32] -/
def EDG_CFG_WHEN_HI.orbit : Fld := .mk 3 0x18 0x200 57 0 1 0x18 0 16 .rw (.const 0x0) .none
/-- R119. EDG_CFG_WHEN_HI[16] index: Named index -/
def EDG_CFG_WHEN_HI.index : Fld := .mk 3 0x18 0x200 57 0 1 0x18 16 12 .rw (.const 0x0) .none
/-- R119. EDG_CFG_WHEN_HI[31] named: By R111 -/
def EDG_CFG_WHEN_HI.named : Fld := .mk 3 0x18 0x200 57 0 1 0x18 31 1 .rw (.const 0x0) .none
/-- R119. EDG_CFG_CMD[0] load: By R110 -/
def EDG_CFG_CMD.load : Fld := .mk 3 0x1c 0x200 57 0 1 0x1c 0 1 .wo (.const 0x0) .none
/-- R119. EDG_CFG_CMD[1] activate: By R111 -/
def EDG_CFG_CMD.activate : Fld := .mk 3 0x1c 0x200 57 0 1 0x1c 1 1 .wo (.const 0x0) .none
/-- R119. EDG_CFG_CMD[2] abort: By R114 -/
def EDG_CFG_CMD.abort : Fld := .mk 3 0x1c 0x200 57 0 1 0x1c 2 1 .wo (.const 0x0) .none
/-- R119. EDG_CFG_CMD[3] halt: By R109 -/
def EDG_CFG_CMD.halt : Fld := .mk 3 0x1c 0x200 57 0 1 0x1c 3 1 .wo (.const 0x0) .none
/-- R119. EDG_CFG_CMD[4] resume: By R109 -/
def EDG_CFG_CMD.resume : Fld := .mk 3 0x1c 0x200 57 0 1 0x1c 4 1 .wo (.const 0x0) .none
/-- R119. EDG_CFG_CMD[5] capture: By R116 -/
def EDG_CFG_CMD.capture : Fld := .mk 3 0x1c 0x200 57 0 1 0x1c 5 1 .wo (.const 0x0) .none
/-- R119. EDG_IMG_ID[0] id: image_id of the active plane -/
def EDG_IMG_ID.id : Fld := .mk 3 0x20 0x200 57 0 1 0x20 0 32 .ro (.const 0x0) .none
/-- R119. EDG_SHADOW_ID[0] id: image_id of a READY shadow plane -/
def EDG_SHADOW_ID.id : Fld := .mk 3 0x24 0x200 57 0 1 0x24 0 32 .ro (.const 0x0) .none
/-- R119. EDG_FERR[0] load_refused: By R110 -/
def EDG_FERR.load_refused : Fld := .mk 3 0x28 0x200 57 0 1 0x28 0 1 .w1c (.const 0x0) .none
/-- R119. EDG_FERR[1] activate_refused: By R111 -/
def EDG_FERR.activate_refused : Fld := .mk 3 0x28 0x200 57 0 1 0x28 1 1 .w1c (.const 0x0) .none
/-- R119. EDG_FERR[2] named_cancelled: By R111 -/
def EDG_FERR.named_cancelled : Fld := .mk 3 0x28 0x200 57 0 1 0x28 2 1 .w1c (.const 0x0) .none
/-- R119. EDG_FERR[3] fifo_overflow: By R86 -/
def EDG_FERR.fifo_overflow : Fld := .mk 3 0x28 0x200 57 0 1 0x28 3 1 .w1c (.const 0x0) .none
/-- R119. EDG_FERR[4] clk_too_slow: By R81 -/
def EDG_FERR.clk_too_slow : Fld := .mk 3 0x28 0x200 57 0 1 0x28 4 1 .w1c (.const 0x0) .none
/-- R119. EDG_FERR[5] bram_collision: By R98 -/
def EDG_FERR.bram_collision : Fld := .mk 3 0x28 0x200 57 0 1 0x28 5 1 .w1c (.const 0x0) .none
/-- R119. EDG_FERR[6] cfg_uncorrectable: By R115 -/
def EDG_FERR.cfg_uncorrectable : Fld := .mk 3 0x28 0x200 57 0 1 0x28 6 1 .w1c (.const 0x0) .none
/-- R119. EDG_FERR[7] rb_refused: By R116 -/
def EDG_FERR.rb_refused : Fld := .mk 3 0x28 0x200 57 0 1 0x28 7 1 .w1c (.const 0x0) .none
/-- R119. EDG_FERR[8] abort_too_late: By R114 -/
def EDG_FERR.abort_too_late : Fld := .mk 3 0x28 0x200 57 0 1 0x28 8 1 .w1c (.const 0x0) .none
/-- R119. EDG_FERR[9] aborted: By R114 -/
def EDG_FERR.aborted : Fld := .mk 3 0x28 0x200 57 0 1 0x28 9 1 .w1c (.const 0x0) .none
/-- R119. EDG_BRAM_COLL_CNT[0] count: Write collisions -/
def EDG_BRAM_COLL_CNT.count : Fld := .mk 3 0x2c 0x200 57 0 1 0x2c 0 32 .rc (.const 0x0) .none
/-- R119. EDG_CFG_CORR_CNT[0] count: Corrected configuration errors -/
def EDG_CFG_CORR_CNT.count : Fld := .mk 3 0x30 0x200 57 0 1 0x30 0 32 .rc (.const 0x0) .none
/-- R119. EDG_RB_SEL[0] space: By R116 -/
def EDG_RB_SEL.space : Fld := .mk 3 0x34 0x200 57 0 1 0x34 0 2 .rw (.const 0x0) .none
/-- R119. EDG_RB_SEL[2] mem: Block memory for space 1 -/
def EDG_RB_SEL.mem : Fld := .mk 3 0x34 0x200 57 0 1 0x34 2 2 .rw (.const 0x0) .none
/-- R119. EDG_RB_SEL[8] index: Word or row -/
def EDG_RB_SEL.index : Fld := .mk 3 0x34 0x200 57 0 1 0x34 8 18 .rw (.const 0x0) .none
/-- R119. EDG_RB_DATA[0] data: Selected word; row bits [31:0] -/
def EDG_RB_DATA.data : Fld := .mk 3 0x38 0x200 57 0 1 0x38 0 32 .ro (.const 0x0) .none
/-- R119. EDG_RB_DATA_HI[0] data: Row bits [35:32] -/
def EDG_RB_DATA_HI.data : Fld := .mk 3 0x3c 0x200 57 0 1 0x3c 0 4 .ro (.const 0x0) .none
/-- R119. EDG_LANE_STATUS[0] aligned: Aligner locked -/
def EDG_LANE_STATUS.aligned : Fld := .mk 3 0x40 0x200 57 0x20 4 0x40 0 1 .ro (.const 0x0) .none
/-- R119. EDG_LANE_STATUS[1] seeded: Additive state seeded -/
def EDG_LANE_STATUS.seeded : Fld := .mk 3 0x40 0x200 57 0x20 4 0x40 1 1 .ro (.const 0x0) .none
/-- R119. EDG_LANE_STATUS[2] span_open: CRC span open -/
def EDG_LANE_STATUS.span_open : Fld := .mk 3 0x40 0x200 57 0x20 4 0x40 2 1 .ro (.const 0x0) .none
/-- R119. EDG_LANE_STATUS[8] offset: Bit offset of block boundary -/
def EDG_LANE_STATUS.offset : Fld := .mk 3 0x40 0x200 57 0x20 4 0x40 8 7 .ro (.const 0x00) .none
/-- R119. EDG_SLIP_CNT[0] count: Slips -/
def EDG_SLIP_CNT.count : Fld := .mk 3 0x44 0x200 57 0x20 4 0x44 0 32 .rc (.const 0x0) .none
/-- R119. EDG_ALIGN_LOSS_CNT[0] count: Alignment losses -/
def EDG_ALIGN_LOSS_CNT.count : Fld := .mk 3 0x48 0x200 57 0x20 4 0x48 0 32 .rc (.const 0x0) .none
/-- R119. EDG_CRC_OK_CNT[0] count: Spans with crc_ok = 1 -/
def EDG_CRC_OK_CNT.count : Fld := .mk 3 0x4c 0x200 57 0x20 4 0x4c 0 32 .rc (.const 0x0) .none
/-- R119. EDG_CRC_ERR_CNT[0] count: Spans with crc_ok = 0 -/
def EDG_CRC_ERR_CNT.count : Fld := .mk 3 0x50 0x200 57 0x20 4 0x50 0 32 .rc (.const 0x0) .none
/-- R119. EDG_RXFIFO_OVF_CNT[0] count: Blocks dropped -/
def EDG_RXFIFO_OVF_CNT.count : Fld := .mk 3 0x54 0x200 57 0x20 4 0x54 0 32 .rc (.const 0x0) .none
/-- R119. EDG_PRISM_WORD_CNT[0] count: Words delivered to Prism -/
def EDG_PRISM_WORD_CNT.count : Fld := .mk 3 0x58 0x200 57 0x20 4 0x58 0 32 .rc (.const 0x0) .none
/-- R120. EDG_TCLK[0] mult: Timing-facet multiplier, 4 to 21, effective at the next SWITCH of facet 56; a write that m -/
def EDG_TCLK.mult : Fld := .mk 3 0xf000 0 1 0 1 0xf000 0 5 .rw (.const 0x15) .none
/-- R120. EDG_CFG_PORT[0] facet: Facet being loaded -/
def EDG_CFG_PORT.facet : Fld := .mk 3 0xf004 0 1 0 1 0xf004 0 6 .ro (.const 0x00) .none
/-- R120. EDG_CFG_PORT[8] busy: 1: a load is running -/
def EDG_CFG_PORT.busy : Fld := .mk 3 0xf004 0 1 0 1 0xf004 8 1 .ro (.const 0x0) .none
/-- R120. EDG_RUN_LO[0] run: Bit f: facet f in RUN, for f = 0 to 31 -/
def EDG_RUN_LO.run : Fld := .mk 3 0xf008 0 1 0 1 0xf008 0 32 .ro (.const 0x0) .none
/-- R120. EDG_RUN_HI[0] run: Bit f − 32: facet f in RUN, for f = 32 to 56 -/
def EDG_RUN_HI.run : Fld := .mk 3 0xf00c 0 1 0 1 0xf00c 0 25 .ro (.const 0x0) .none

/-- Fields of page EDG, part 0. -/
def fieldsEDG0 : List Fld :=
  [EDG_FCTRL.clk, EDG_FSTATUS.state, EDG_FSTATUS.shadow, EDG_FSTATUS.act_pending,
   EDG_FSTATUS.capture_done, EDG_FSTATUS.load_err, EDG_CFG_ADDR_LO.addr, EDG_CFG_ADDR_HI.addr,
   EDG_CFG_LEN.bytes, EDG_CFG_WHEN_LO.orbit, EDG_CFG_WHEN_HI.orbit, EDG_CFG_WHEN_HI.index,
   EDG_CFG_WHEN_HI.named, EDG_CFG_CMD.load, EDG_CFG_CMD.activate, EDG_CFG_CMD.abort,
   EDG_CFG_CMD.halt, EDG_CFG_CMD.resume, EDG_CFG_CMD.capture, EDG_IMG_ID.id,
   EDG_SHADOW_ID.id, EDG_FERR.load_refused, EDG_FERR.activate_refused, EDG_FERR.named_cancelled,
   EDG_FERR.fifo_overflow, EDG_FERR.clk_too_slow, EDG_FERR.bram_collision, EDG_FERR.cfg_uncorrectable,
   EDG_FERR.rb_refused, EDG_FERR.abort_too_late, EDG_FERR.aborted, EDG_BRAM_COLL_CNT.count,
   EDG_CFG_CORR_CNT.count, EDG_RB_SEL.space, EDG_RB_SEL.mem, EDG_RB_SEL.index,
   EDG_RB_DATA.data, EDG_RB_DATA_HI.data, EDG_LANE_STATUS.aligned, EDG_LANE_STATUS.seeded]

/-- Fields of page EDG, part 1. -/
def fieldsEDG1 : List Fld :=
  [EDG_LANE_STATUS.span_open, EDG_LANE_STATUS.offset, EDG_SLIP_CNT.count, EDG_ALIGN_LOSS_CNT.count,
   EDG_CRC_OK_CNT.count, EDG_CRC_ERR_CNT.count, EDG_RXFIFO_OVF_CNT.count, EDG_PRISM_WORD_CNT.count,
   EDG_TCLK.mult, EDG_CFG_PORT.facet, EDG_CFG_PORT.busy, EDG_RUN_LO.run,
   EDG_RUN_HI.run]

/-- All fields of page EDG. -/
def fieldsEDG : List Fld := fieldsEDG0 ++ fieldsEDG1

/-- R121. GPI_PIN[0] std: Pin n = 24 × bank + pin, by R117; a write of 3 keeps the old value -/
def GPI_PIN.std : Fld := .mk 22 0 4 96 0 1 0 0 2 .rw (.const 0x0) (.keepAbove 2)
/-- R121. GPI_PIN[4] pull: 0 none, 1 down, 2 up; ignored for differential pins -/
def GPI_PIN.pull : Fld := .mk 22 0 4 96 0 1 0 4 2 .rw (.const 0x0) .none
/-- R121. GPI_PIN[6] odt: 1: 100 Ω on-die termination -/
def GPI_PIN.odt : Fld := .mk 22 0 4 96 0 1 0 6 1 .rw (.const 0x0) .none
/-- R121. GPI_PIN[8] drive: LVCMOS drive of 4, 8, 12 or 16 mA -/
def GPI_PIN.drive : Fld := .mk 22 0 4 96 0 1 0 8 2 .rw (.const 0x1) .none
/-- R121. GPI_PIN[16] in_: Synchronised input value -/
def GPI_PIN.in_ : Fld := .mk 22 0 4 96 0 1 0 16 1 .ro (.const 0x0) .none
/-- R121. GPI_PIN[17] driving: 1: output enabled -/
def GPI_PIN.driving : Fld := .mk 22 0 4 96 0 1 0 17 1 .ro (.const 0x0) .none
/-- R121. GPI_PIN[24] facet: Claiming facet; 0x3F none -/
def GPI_PIN.facet : Fld := .mk 22 0 4 96 0 1 0 24 6 .ro (.const 0x3F) .none
/-- R121. GPI_BANK_STATUS[0] vddio: 0 absent, 1 1.2 V, 2 1.8 V, 3 2.5 V, 4 3.3 V -/
def GPI_BANK_STATUS.vddio : Fld := .mk 22 0x180 4 4 0 1 0x180 0 3 .ro (.const 0x0) .none
/-- R121. GPI_ERR[0] vddio_change: Bit k: supply of bank k changed -/
def GPI_ERR.vddio_change : Fld := .mk 22 0x190 0 1 0 1 0x190 0 4 .w1c (.const 0x0) .none
/-- R121. GPI_ERR[4] std_conflict: By R118 -/
def GPI_ERR.std_conflict : Fld := .mk 22 0x190 0 1 0 1 0x190 4 1 .w1c (.const 0x0) .none

/-- Fields of page GPI, part 0. -/
def fieldsGPI0 : List Fld :=
  [GPI_PIN.std, GPI_PIN.pull, GPI_PIN.odt, GPI_PIN.drive,
   GPI_PIN.in_, GPI_PIN.driving, GPI_PIN.facet, GPI_BANK_STATUS.vddio,
   GPI_ERR.vddio_change, GPI_ERR.std_conflict]

/-- All fields of page GPI. -/
def fieldsGPI : List Fld := fieldsGPI0

/-- R145. PRI_STATUS[0] cfg_pending: By R133 -/
def PRI_STATUS.cfg_pending : Fld := .mk 4 0 0 1 0 1 0 0 1 .ro (.const 0x0) .none
/-- R145. PRI_STATUS[1] apply_armed: Commit at B pending -/
def PRI_STATUS.apply_armed : Fld := .mk 4 0 0 1 0 1 0 1 1 .ro (.const 0x0) .none
/-- R145. PRI_STATUS[2] budget_fail: By R131 -/
def PRI_STATUS.budget_fail : Fld := .mk 4 0 0 1 0 1 0 2 1 .ro (.const 0x0) .none
/-- R145. PRI_LIN[0] slots: L_in, 1 to 256 -/
def PRI_LIN.slots : Fld := .mk 4 4 0 1 0 1 4 0 9 .rw (.const 0x010) .none
/-- R145. PRI_INTAKE[0] planes: P, 1 to 63 -/
def PRI_INTAKE.planes : Fld := .mk 4 8 0 1 0 1 8 0 6 .rw (.const 0x02) .none
/-- R145. PRI_OUTBOUND[0] planes: Q, 0 to 64 -/
def PRI_OUTBOUND.planes : Fld := .mk 4 0xc 0 1 0 1 0xc 0 7 .rw (.const 0x00) .none
/-- R145. PRI_PIPE_SEL[0] plane0: By R137 -/
def PRI_PIPE_SEL.plane0 : Fld := .mk 4 0x10 0 1 0 1 0x10 0 6 .rw (.const 0x00) .none
/-- R145. PRI_PIPE_SEL[8] plane1: By R137 -/
def PRI_PIPE_SEL.plane1 : Fld := .mk 4 0x10 0 1 0 1 0x10 8 6 .rw (.const 0x01) .none
/-- R145. PRI_BUDGET[0] avail: ⌊GNO_PERIOD_MIN / 0.625 ns⌋, saturating at 255; from the period that R25 publishes -/
def PRI_BUDGET.avail : Fld := .mk 4 0x14 0 1 0 1 0x14 0 8 .ro (.const 0x27) .none
/-- R145. PRI_BUDGET[8] used: Port budget of the pending copy -/
def PRI_BUDGET.used : Fld := .mk 4 0x14 0 1 0 1 0x14 8 8 .ro (.const 0x0E) .none
/-- R145. PRI_CMD[0] apply: By R133 -/
def PRI_CMD.apply : Fld := .mk 4 0x18 0 1 0 1 0x18 0 1 .wo (.const 0x0) .none
/-- R145. PRI_CMD[1] abort: By R133 -/
def PRI_CMD.abort : Fld := .mk 4 0x18 0 1 0 1 0x18 1 1 .wo (.const 0x0) .none
/-- R145. PRI_CMD[2] slack_reset: Sets every PRI_LANE_SLACK.min to 0xFFFF -/
def PRI_CMD.slack_reset : Fld := .mk 4 0x18 0 1 0 1 0x18 2 1 .wo (.const 0x0) .none
/-- R145. PRI_APPLY_WHEN_LO[0] orbit: Named orbit [31:0] -/
def PRI_APPLY_WHEN_LO.orbit : Fld := .mk 4 0x1c 0 1 0 1 0x1c 0 32 .rw (.const 0x0) .none
/-- R145. PRI_APPLY_WHEN_HI[0] orbit: Named orbit [47:32] -/
def PRI_APPLY_WHEN_HI.orbit : Fld := .mk 4 0x20 0 1 0 1 0x20 0 16 .rw (.const 0x0) .none
/-- R145. PRI_APPLY_WHEN_HI[16] index: Named index -/
def PRI_APPLY_WHEN_HI.index : Fld := .mk 4 0x20 0 1 0 1 0x20 16 12 .rw (.const 0x0) .none
/-- R145. PRI_APPLY_WHEN_HI[31] named: As in R111 -/
def PRI_APPLY_WHEN_HI.named : Fld := .mk 4 0x20 0 1 0 1 0x20 31 1 .rw (.const 0x0) .none
/-- R145. PRI_CFG_ERR[0] code: By R144 -/
def PRI_CFG_ERR.code : Fld := .mk 4 0x24 0 1 0 1 0x24 0 8 .ro (.const 0x00) .none
/-- R145. PRI_ERR[0] cfg_refused: By R144 -/
def PRI_ERR.cfg_refused : Fld := .mk 4 0x28 0 1 0 1 0x28 0 1 .w1c (.const 0x0) .none
/-- R145. PRI_ERR[1] apply_cancelled: Named commit cancelled by R34 -/
def PRI_ERR.apply_cancelled : Fld := .mk 4 0x28 0 1 0 1 0x28 1 1 .w1c (.const 0x0) .none
/-- R145. PRI_ERR[2] aborted: By R133 -/
def PRI_ERR.aborted : Fld := .mk 4 0x28 0 1 0 1 0x28 2 1 .w1c (.const 0x0) .none
/-- R145. PRI_ERR[3] abort_too_late: By R133 -/
def PRI_ERR.abort_too_late : Fld := .mk 4 0x28 0 1 0 1 0x28 3 1 .w1c (.const 0x0) .none
/-- R145. PRI_ERR[4] budget_fail: By R131 -/
def PRI_ERR.budget_fail : Fld := .mk 4 0x28 0 1 0 1 0x28 4 1 .w1c (.const 0x0) .none
/-- R145. PRI_ERR[5] late_word: By R128 -/
def PRI_ERR.late_word : Fld := .mk 4 0x28 0 1 0 1 0x28 5 1 .w1c (.const 0x0) .none
/-- R145. PRI_ERR[6] stray_word: By R128 -/
def PRI_ERR.stray_word : Fld := .mk 4 0x28 0 1 0 1 0x28 6 1 .w1c (.const 0x0) .none
/-- R145. PRI_ERR[7] long_contribution: By R128 -/
def PRI_ERR.long_contribution : Fld := .mk 4 0x28 0 1 0 1 0x28 7 1 .w1c (.const 0x0) .none
/-- R145. PRI_ERR[8] missing_contribution: By R128 -/
def PRI_ERR.missing_contribution : Fld := .mk 4 0x28 0 1 0 1 0x28 8 1 .w1c (.const 0x0) .none
/-- R145. PRI_ERR[9] dl_truncated: By R139 -/
def PRI_ERR.dl_truncated : Fld := .mk 4 0x28 0 1 0 1 0x28 9 1 .w1c (.const 0x0) .none
/-- R145. PRI_ERR[10] sp_refused: Side-port access to 0xF80–0xFFF -/
def PRI_ERR.sp_refused : Fld := .mk 4 0x28 0 1 0 1 0x28 10 1 .w1c (.const 0x0) .none
/-- R145. PRI_ERR[11] quarantine_discard: By R143 -/
def PRI_ERR.quarantine_discard : Fld := .mk 4 0x28 0 1 0 1 0x28 11 1 .w1c (.const 0x0) .none
/-- R145. PRI_COMMIT_CNT[0] count: Crossings committed -/
def PRI_COMMIT_CNT.count : Fld := .mk 4 0x2c 0 1 0 1 0x2c 0 32 .rc (.const 0x0) .none
/-- R145. PRI_GAP_CNT[0] count: Crossings committed by R134 -/
def PRI_GAP_CNT.count : Fld := .mk 4 0x30 0 1 0 1 0x30 0 32 .rc (.const 0x0) .none
/-- R145. PRI_SP_STATUS[0] queued: Side-port requests queued, 0 to 256 -/
def PRI_SP_STATUS.queued : Fld := .mk 4 0x34 0 1 0 1 0x34 0 9 .ro (.const 0x000) .none
/-- R145. PRI_SP_ERR_CNT[0] count: Side-port accesses refused -/
def PRI_SP_ERR_CNT.count : Fld := .mk 4 0x38 0 1 0 1 0x38 0 32 .rc (.const 0x0) .none
/-- R145. PRI_DISCARD_CNT[0] count: Transfers discarded at quarantined islands -/
def PRI_DISCARD_CNT.count : Fld := .mk 4 0x3c 0 1 0 1 0x3c 0 32 .rc (.const 0x0) .none
/-- R146. PRI_LANE_CFG[0] enable: 1: uplink map in use -/
def PRI_LANE_CFG.enable : Fld := .mk 4 0x1000 0x40 224 0 1 0 0 1 .rw (.const 0x0) .none
/-- R146. PRI_LANE_CFG[1] tag_mode: By R127 -/
def PRI_LANE_CFG.tag_mode : Fld := .mk 4 0x1000 0x40 224 0 1 0 1 2 .rw (.const 0x0) .none
/-- R146. PRI_LANE_CFG[3] fill: By R129 -/
def PRI_LANE_CFG.fill : Fld := .mk 4 0x1000 0x40 224 0 1 0 3 2 .rw (.const 0x0) .none
/-- R146. PRI_LANE_CFG[8] delay: Slots, for tag_mode 2 -/
def PRI_LANE_CFG.delay : Fld := .mk 4 0x1000 0x40 224 0 1 0 8 8 .rw (.const 0x00) .none
/-- R146. PRI_LANE_MAP[0] first: First PE -/
def PRI_LANE_MAP.first : Fld := .mk 4 0x1004 0x40 224 0 1 4 0 17 .rw (.const 0x0) .none
/-- R146. PRI_LANE_MAP[17] run: Run length, 1 to 512 -/
def PRI_LANE_MAP.run : Fld := .mk 4 0x1004 0x40 224 0 1 4 17 10 .rw (.const 0x001) .none
/-- R146. PRI_LANE_GEOM[0] count: k -/
def PRI_LANE_GEOM.count : Fld := .mk 4 0x1008 0x40 224 0 1 8 0 13 .rw (.const 0x0) .none
/-- R146. PRI_LANE_GEOM[16] bits: b -/
def PRI_LANE_GEOM.bits : Fld := .mk 4 0x1008 0x40 224 0 1 8 16 6 .rw (.const 0x01) .none
/-- R146. PRI_LANE_WORDS[0] up_words: words of the pending copy -/
def PRI_LANE_WORDS.up_words : Fld := .mk 4 0x100c 0x40 224 0 1 0xc 0 7 .ro (.const 0x00) .none
/-- R146. PRI_LANE_WORDS[8] dl_words: dl_words of the pending copy -/
def PRI_LANE_WORDS.dl_words : Fld := .mk 4 0x100c 0x40 224 0 1 0xc 8 5 .ro (.const 0x00) .none
/-- R146. PRI_LANE_DL_MAP[0] first: By R139 -/
def PRI_LANE_DL_MAP.first : Fld := .mk 4 0x1010 0x40 224 0 1 0x10 0 17 .rw (.const 0x0) .none
/-- R146. PRI_LANE_DL_MAP[17] run: By R139 -/
def PRI_LANE_DL_MAP.run : Fld := .mk 4 0x1010 0x40 224 0 1 0x10 17 10 .rw (.const 0x001) .none
/-- R146. PRI_LANE_DL_GEOM[0] count: k; 0 sends no data -/
def PRI_LANE_DL_GEOM.count : Fld := .mk 4 0x1014 0x40 224 0 1 0x14 0 11 .rw (.const 0x0) .none
/-- R146. PRI_LANE_DL_GEOM[16] bits: d, 1 to 64 -/
def PRI_LANE_DL_GEOM.bits : Fld := .mk 4 0x1014 0x40 224 0 1 0x14 16 7 .rw (.const 0x01) .none
/-- R146. PRI_LANE_DL_GEOM[24] plane: First outbound plane -/
def PRI_LANE_DL_GEOM.plane : Fld := .mk 4 0x1014 0x40 224 0 1 0x14 24 6 .rw (.const 0x00) .none
/-- R146. PRI_LANE_SLACK[0] last: Slack of the last Complete contribution, in Prism cycles, saturating -/
def PRI_LANE_SLACK.last : Fld := .mk 4 0x1018 0x40 224 0 1 0x18 0 16 .ro (.const 0x0) .none
/-- R146. PRI_LANE_SLACK[16] min: Least slack since slack_reset -/
def PRI_LANE_SLACK.min : Fld := .mk 4 0x1018 0x40 224 0 1 0x18 16 16 .ro (.const 0xFFFF) .none
/-- R146. PRI_LANE_LATE_CNT[0] count: By R128 -/
def PRI_LANE_LATE_CNT.count : Fld := .mk 4 0x101c 0x40 224 0 1 0x1c 0 32 .rc (.const 0x0) .none
/-- R146. PRI_LANE_MISS_CNT[0] count: By R128 -/
def PRI_LANE_MISS_CNT.count : Fld := .mk 4 0x1020 0x40 224 0 1 0x20 0 32 .rc (.const 0x0) .none
/-- R146. PRI_LANE_STRAY_CNT[0] count: By R128 -/
def PRI_LANE_STRAY_CNT.count : Fld := .mk 4 0x1024 0x40 224 0 1 0x24 0 32 .rc (.const 0x0) .none
/-- R146. PRI_LANE_LONG_CNT[0] count: By R128 -/
def PRI_LANE_LONG_CNT.count : Fld := .mk 4 0x1028 0x40 224 0 1 0x28 0 32 .rc (.const 0x0) .none
/-- R146. PRI_LANE_TRUNC_CNT[0] count: By R139 -/
def PRI_LANE_TRUNC_CNT.count : Fld := .mk 4 0x102c 0x40 224 0 1 0x2c 0 32 .rc (.const 0x0) .none
/-- R146. PRI_LANE_PENDING[0] crossings: Contributions held -/
def PRI_LANE_PENDING.crossings : Fld := .mk 4 0x1030 0x40 224 0 1 0x30 0 9 .ro (.const 0x000) .none
/-- R146. PRI_LANE_PENDING[16] words: Words held, 0 to 4,096 -/
def PRI_LANE_PENDING.words : Fld := .mk 4 0x1030 0x40 224 0 1 0x30 16 13 .ro (.const 0x0000) .none
/-- R146. PRI_REAR_MAP[0] first: By R140 -/
def PRI_REAR_MAP.first : Fld := .mk 4 0x4800 0x10 8 0 1 0 0 17 .rw (.const 0x0) .none
/-- R146. PRI_REAR_MAP[17] run: By R140 -/
def PRI_REAR_MAP.run : Fld := .mk 4 0x4800 0x10 8 0 1 0 17 10 .rw (.const 0x001) .none
/-- R146. PRI_REAR_GEOM[0] count: k; 0 disables the stream -/
def PRI_REAR_GEOM.count : Fld := .mk 4 0x4804 0x10 8 0 1 4 0 18 .rw (.const 0x0) .none
/-- R146. PRI_REAR_GEOM[18] bits: d, 1 to 64 -/
def PRI_REAR_GEOM.bits : Fld := .mk 4 0x4804 0x10 8 0 1 4 18 7 .rw (.const 0x01) .none
/-- R146. PRI_REAR_GEOM[25] plane: First outbound plane -/
def PRI_REAR_GEOM.plane : Fld := .mk 4 0x4804 0x10 8 0 1 4 25 6 .rw (.const 0x00) .none
/-- R146. PRI_REAR_WORDS[0] words: Words per slot of the pending copy -/
def PRI_REAR_WORDS.words : Fld := .mk 4 0x4808 0x10 8 0 1 8 0 13 .ro (.const 0x0000) .none

/-- Fields of page PRI, part 0. -/
def fieldsPRI0 : List Fld :=
  [PRI_STATUS.cfg_pending, PRI_STATUS.apply_armed, PRI_STATUS.budget_fail, PRI_LIN.slots,
   PRI_INTAKE.planes, PRI_OUTBOUND.planes, PRI_PIPE_SEL.plane0, PRI_PIPE_SEL.plane1,
   PRI_BUDGET.avail, PRI_BUDGET.used, PRI_CMD.apply, PRI_CMD.abort,
   PRI_CMD.slack_reset, PRI_APPLY_WHEN_LO.orbit, PRI_APPLY_WHEN_HI.orbit, PRI_APPLY_WHEN_HI.index,
   PRI_APPLY_WHEN_HI.named, PRI_CFG_ERR.code, PRI_ERR.cfg_refused, PRI_ERR.apply_cancelled,
   PRI_ERR.aborted, PRI_ERR.abort_too_late, PRI_ERR.budget_fail, PRI_ERR.late_word,
   PRI_ERR.stray_word, PRI_ERR.long_contribution, PRI_ERR.missing_contribution, PRI_ERR.dl_truncated,
   PRI_ERR.sp_refused, PRI_ERR.quarantine_discard, PRI_COMMIT_CNT.count, PRI_GAP_CNT.count,
   PRI_SP_STATUS.queued, PRI_SP_ERR_CNT.count, PRI_DISCARD_CNT.count, PRI_LANE_CFG.enable,
   PRI_LANE_CFG.tag_mode, PRI_LANE_CFG.fill, PRI_LANE_CFG.delay, PRI_LANE_MAP.first]

/-- Fields of page PRI, part 1. -/
def fieldsPRI1 : List Fld :=
  [PRI_LANE_MAP.run, PRI_LANE_GEOM.count, PRI_LANE_GEOM.bits, PRI_LANE_WORDS.up_words,
   PRI_LANE_WORDS.dl_words, PRI_LANE_DL_MAP.first, PRI_LANE_DL_MAP.run, PRI_LANE_DL_GEOM.count,
   PRI_LANE_DL_GEOM.bits, PRI_LANE_DL_GEOM.plane, PRI_LANE_SLACK.last, PRI_LANE_SLACK.min,
   PRI_LANE_LATE_CNT.count, PRI_LANE_MISS_CNT.count, PRI_LANE_STRAY_CNT.count, PRI_LANE_LONG_CNT.count,
   PRI_LANE_TRUNC_CNT.count, PRI_LANE_PENDING.crossings, PRI_LANE_PENDING.words, PRI_REAR_MAP.first,
   PRI_REAR_MAP.run, PRI_REAR_GEOM.count, PRI_REAR_GEOM.bits, PRI_REAR_GEOM.plane,
   PRI_REAR_WORDS.words]

/-- All fields of page PRI. -/
def fieldsPRI : List Fld := fieldsPRI0 ++ fieldsPRI1

end Sys2Proof.Machine
end

