-- ==== Sys2Proof/Machine/RegsLinks.lean ====
section
/-! DEFINITION. The register fields of the WOR, HBM and RDO pages (R312, R313, R346 to R348), one descriptor each: page, base offset, strides and
instance counts, offset in the block, lowest bit, width, access code and reset value, as the tables give them. -/

namespace Sys2Proof.Machine

/-- R312. WOR_ADDR[0] addr: Fixed address, by R290 -/
def WOR_ADDR.addr : Fld := .mk 8 0 0 1 0 1 0 0 18 .rw (.const 0x00000) .none
/-- R312. WOR_ADDR[24] auto: 1: derive the address -/
def WOR_ADDR.auto : Fld := .mk 8 0 0 1 0 1 0 24 1 .rw (.const 0x0) .none
/-- R312. WOR_ADDR_STATUS[0] addr: Address in use -/
def WOR_ADDR_STATUS.addr : Fld := .mk 8 4 0 1 0 1 4 0 18 .ro (.const 0x00000) .none
/-- R312. WOR_ADDR_STATUS[24] valid: 1: address valid -/
def WOR_ADDR_STATUS.valid : Fld := .mk 8 4 0 1 0 1 4 24 1 .ro (.const 0x0) .none
/-- R312. WOR_EPOCH[0] pending: By R295 -/
def WOR_EPOCH.pending : Fld := .mk 8 8 0 1 0 1 8 0 16 .rw (.const 0x0000) .none
/-- R312. WOR_EPOCH[16] active: System epoch in force -/
def WOR_EPOCH.active : Fld := .mk 8 8 0 1 0 1 8 16 16 .ro (.const 0x0000) .none
/-- R312. WOR_EPOCH_WHEN_LO[0] orbit: Named orbit [31:0] -/
def WOR_EPOCH_WHEN_LO.orbit : Fld := .mk 8 0xc 0 1 0 1 0xc 0 32 .rw (.const 0x0) .none
/-- R312. WOR_EPOCH_WHEN_HI[0] orbit: Named orbit [47:32] -/
def WOR_EPOCH_WHEN_HI.orbit : Fld := .mk 8 0x10 0 1 0 1 0x10 0 16 .rw (.const 0x0) .none
/-- R312. WOR_EPOCH_WHEN_HI[16] index: Named index -/
def WOR_EPOCH_WHEN_HI.index : Fld := .mk 8 0x10 0 1 0 1 0x10 16 12 .rw (.const 0x0) .none
/-- R312. WOR_EPOCH_WHEN_HI[31] named: As in R111 -/
def WOR_EPOCH_WHEN_HI.named : Fld := .mk 8 0x10 0 1 0 1 0x10 31 1 .rw (.const 0x0) .none
/-- R312. WOR_CMD[0] epoch_apply: By R295 -/
def WOR_CMD.epoch_apply : Fld := .mk 8 0x14 0 1 0 1 0x14 0 1 .wo (.const 0x0) .none
/-- R312. WOR_CMD[1] epoch_abort: By R295 -/
def WOR_CMD.epoch_abort : Fld := .mk 8 0x14 0 1 0 1 0x14 1 1 .wo (.const 0x0) .none
/-- R312. WOR_HALO_DELAY[0] slots: d, by R305 -/
def WOR_HALO_DELAY.slots : Fld := .mk 8 0x18 0 1 0 1 0x18 0 3 .rw (.const 0x0) .none
/-- R312. WOR_RX_WIN_LO[16] base: Window base bits [31:16] -/
def WOR_RX_WIN_LO.base : Fld := .mk 8 0x1c 0 1 0 1 0x1c 16 16 .rw (.const 0x0000) .none
/-- R312. WOR_RX_WIN_HI[0] base: Window base bits [39:32] -/
def WOR_RX_WIN_HI.base : Fld := .mk 8 0x20 0 1 0 1 0x20 0 8 .rw (.const 0x00) .none
/-- R312. WOR_RX_WIN_HI[16] size: Window size in 64 KiB units; 0 closes it -/
def WOR_RX_WIN_HI.size : Fld := .mk 8 0x20 0 1 0 1 0x20 16 16 .rw (.const 0x0000) .none
/-- R312. WOR_BCN_CTRL[0] enable: Tree on -/
def WOR_BCN_CTRL.enable : Fld := .mk 8 0x24 0 1 0 1 0x24 0 1 .rw (.const 0x0) .none
/-- R312. WOR_BCN_CTRL[1] root: 1: root -/
def WOR_BCN_CTRL.root : Fld := .mk 8 0x24 0 1 0 1 0x24 1 1 .rw (.const 0x0) .none
/-- R312. WOR_BCN_CTRL[2] fixed: By R309 -/
def WOR_BCN_CTRL.fixed : Fld := .mk 8 0x24 0 1 0 1 0x24 2 1 .rw (.const 0x0) .none
/-- R312. WOR_BCN_CTRL[4] level: By R307 -/
def WOR_BCN_CTRL.level : Fld := .mk 8 0x24 0 1 0 1 0x24 4 4 .rw (.const 0x0) .none
/-- R312. WOR_BCN_CTRL[8] parent: Parent lane, 0 to 47 -/
def WOR_BCN_CTRL.parent : Fld := .mk 8 0x24 0 1 0 1 0x24 8 6 .rw (.const 0x00) .none
/-- R312. WOR_BCN_CHILD_LO[0] lanes: Bit n: lane n is a child, n = 0 to 31 -/
def WOR_BCN_CHILD_LO.lanes : Fld := .mk 8 0x28 0 1 0 1 0x28 0 32 .rw (.const 0x0) .none
/-- R312. WOR_BCN_CHILD_HI[0] lanes: Bit n − 32, n = 32 to 47 -/
def WOR_BCN_CHILD_HI.lanes : Fld := .mk 8 0x2c 0 1 0 1 0x2c 0 16 .rw (.const 0x0000) .none
/-- R312. WOR_BCN_WAIT[0] ns: By R309 -/
def WOR_BCN_WAIT.ns : Fld := .mk 8 0x30 0 1 0 1 0x30 0 12 .rw (.const 0x064) .none
/-- R312. WOR_SYS_RESULT[0] flags: [0] or, [1] full, [2] none, [3] partial -/
def WOR_SYS_RESULT.flags : Fld := .mk 8 0x34 0 1 0 1 0x34 0 4 .ro (.const 0x4) .none
/-- R312. WOR_SYS_RESULT[4] index: Key index -/
def WOR_SYS_RESULT.index : Fld := .mk 8 0x34 0 1 0 1 0x34 4 12 .ro (.const 0x000) .none
/-- R312. WOR_SYS_RESULT[16] uaddr: Key microword address -/
def WOR_SYS_RESULT.uaddr : Fld := .mk 8 0x34 0 1 0 1 0x34 16 14 .ro (.const 0x0000) .none
/-- R312. WOR_SYS_COUNT_LO[0] count: Count [31:0], by R311 -/
def WOR_SYS_COUNT_LO.count : Fld := .mk 8 0x38 0 1 0 1 0x38 0 32 .ro (.const 0x0) .none
/-- R312. WOR_SYS_COUNT_HI[0] count: Count [35:32] -/
def WOR_SYS_COUNT_HI.count : Fld := .mk 8 0x3c 0 1 0 1 0x3c 0 4 .ro (.const 0x0) .none
/-- R312. WOR_SYS_FIRST[0] p: First-responder PE -/
def WOR_SYS_FIRST.p : Fld := .mk 8 0x40 0 1 0 1 0x40 0 17 .ro (.const 0x00000) .none
/-- R312. WOR_SYS_FIRST_DEV[0] addr: First-responder device -/
def WOR_SYS_FIRST_DEV.addr : Fld := .mk 8 0x44 0 1 0 1 0x44 0 18 .ro (.const 0x00000) .none
/-- R312. WOR_SYS_DEVICES[0] count: Devices contributing -/
def WOR_SYS_DEVICES.count : Fld := .mk 8 0x48 0 1 0 1 0x48 0 19 .ro (.const 0x00000) .none
/-- R312. WOR_SYS_CNT[0] count: System results delivered -/
def WOR_SYS_CNT.count : Fld := .mk 8 0x4c 0 1 0 1 0x4c 0 32 .rc (.const 0x0) .none
/-- R312. WOR_ERR[0] lane_conflict: By R283 -/
def WOR_ERR.lane_conflict : Fld := .mk 8 0x50 0 1 0 1 0x50 0 1 .w1c (.const 0x0) .none
/-- R312. WOR_ERR[1] addr_conflict: By R290 -/
def WOR_ERR.addr_conflict : Fld := .mk 8 0x50 0 1 0 1 0x50 1 1 .w1c (.const 0x0) .none
/-- R312. WOR_ERR[2] epoch_refused: By R295 -/
def WOR_ERR.epoch_refused : Fld := .mk 8 0x50 0 1 0 1 0x50 2 1 .w1c (.const 0x0) .none
/-- R312. WOR_ERR[3] epoch_cancelled: By R295 -/
def WOR_ERR.epoch_cancelled : Fld := .mk 8 0x50 0 1 0 1 0x50 3 1 .w1c (.const 0x0) .none
/-- R312. WOR_ERR[4] bcn_cfg_refused: By R307 -/
def WOR_ERR.bcn_cfg_refused : Fld := .mk 8 0x50 0 1 0 1 0x50 4 1 .w1c (.const 0x0) .none
/-- R312. WOR_ERR[5] rx_drop: By R289 and R302 -/
def WOR_ERR.rx_drop : Fld := .mk 8 0x50 0 1 0 1 0x50 5 1 .w1c (.const 0x0) .none
/-- R312. WOR_ERR[6] rx_window: By R302 -/
def WOR_ERR.rx_window : Fld := .mk 8 0x50 0 1 0 1 0x50 6 1 .w1c (.const 0x0) .none
/-- R312. WOR_ERR[7] tx_refused: By R300 -/
def WOR_ERR.tx_refused : Fld := .mk 8 0x50 0 1 0 1 0x50 7 1 .w1c (.const 0x0) .none
/-- R312. WOR_ERR[8] stream_refused: By R301 -/
def WOR_ERR.stream_refused : Fld := .mk 8 0x50 0 1 0 1 0x50 8 1 .w1c (.const 0x0) .none
/-- R312. WOR_ERR[9] aborted: By R295 -/
def WOR_ERR.aborted : Fld := .mk 8 0x50 0 1 0 1 0x50 9 1 .w1c (.const 0x0) .none
/-- R312. WOR_ERR[10] abort_too_late: By R295 and R300 -/
def WOR_ERR.abort_too_late : Fld := .mk 8 0x50 0 1 0 1 0x50 10 1 .w1c (.const 0x0) .none
/-- R312. WOR_BCN_LATE_CNT[0] count: By R309 -/
def WOR_BCN_LATE_CNT.count : Fld := .mk 8 0x54 0 1 0 1 0x54 0 32 .rc (.const 0x0) .none
/-- R312. WOR_BCN_DROP_CNT[0] count: By R309 -/
def WOR_BCN_DROP_CNT.count : Fld := .mk 8 0x58 0 1 0 1 0x58 0 32 .rc (.const 0x0) .none
/-- R312. WOR_RX_DROP_CNT[0] count: By R289 and R302 -/
def WOR_RX_DROP_CNT.count : Fld := .mk 8 0x5c 0 1 0 1 0x5c 0 32 .rc (.const 0x0) .none
/-- R312. WOR_RX_WIN_CNT[0] count: By R302 -/
def WOR_RX_WIN_CNT.count : Fld := .mk 8 0x60 0 1 0 1 0x60 0 32 .rc (.const 0x0) .none
/-- R312. WOR_TX_SRC_LO[3] addr: Source bits [31:3] -/
def WOR_TX_SRC_LO.addr : Fld := .mk 8 0x80 0 1 0 1 0x80 3 29 .rw (.const 0x0) .none
/-- R312. WOR_TX_SRC_HI[0] addr: Source bits [39:32] -/
def WOR_TX_SRC_HI.addr : Fld := .mk 8 0x84 0 1 0 1 0x84 0 8 .rw (.const 0x00) .none
/-- R312. WOR_TX_DST_LO[0] addr: Destination address bits [31:0] -/
def WOR_TX_DST_LO.addr : Fld := .mk 8 0x88 0 1 0 1 0x88 0 32 .rw (.const 0x0) .none
/-- R312. WOR_TX_DST_HI[0] addr: Destination address bits [39:32] -/
def WOR_TX_DST_HI.addr : Fld := .mk 8 0x8c 0 1 0 1 0x8c 0 8 .rw (.const 0x00) .none
/-- R312. WOR_TX_DST_HI[8] device: Destination device -/
def WOR_TX_DST_HI.device : Fld := .mk 8 0x8c 0 1 0 1 0x8c 8 18 .rw (.const 0x00000) .none
/-- R312. WOR_TX_LEN[0] words: 1 to 2,046; out-of-range writes are clamped -/
def WOR_TX_LEN.words : Fld := .mk 8 0x90 0 1 0 1 0x90 0 11 .rw (.const 0x001) (.range 1 2046)
/-- R312. WOR_TX_CMD[0] send: By R300 -/
def WOR_TX_CMD.send : Fld := .mk 8 0x94 0 1 0 1 0x94 0 1 .wo (.const 0x0) .none
/-- R312. WOR_TX_CMD[1] abort: Aborts the frame named by tag -/
def WOR_TX_CMD.abort : Fld := .mk 8 0x94 0 1 0 1 0x94 1 1 .wo (.const 0x0) .none
/-- R312. WOR_TX_CMD[8] tag: Tag to abort -/
def WOR_TX_CMD.tag : Fld := .mk 8 0x94 0 1 0 1 0x94 8 5 .wo (.const 0x00) .none
/-- R312. WOR_TX_STATUS[0] tag: Tag of the latest send -/
def WOR_TX_STATUS.tag : Fld := .mk 8 0x98 0 1 0 1 0x98 0 5 .ro (.const 0x00) .none
/-- R312. WOR_TX_STATUS[8] queued: Tags in use, 0 to 32 -/
def WOR_TX_STATUS.queued : Fld := .mk 8 0x98 0 1 0 1 0x98 8 6 .ro (.const 0x00) .none
/-- R312. WOR_TX_DONE[0] tags: By R300 -/
def WOR_TX_DONE.tags : Fld := .mk 8 0x9c 0 1 0 1 0x9c 0 32 .w1c (.const 0x0) .none
/-- R312. WOR_TX_ABORTED[0] tags: By R300 -/
def WOR_TX_ABORTED.tags : Fld := .mk 8 0xa0 0 1 0 1 0xa0 0 32 .w1c (.const 0x0) .none
/-- R312. WOR_STRM_CFG[0] device: Destination device -/
def WOR_STRM_CFG.device : Fld := .mk 8 0x100 0x10 8 0 1 0 0 18 .rw (.const 0x00000) .none
/-- R312. WOR_STRM_CFG[31] enable: By R301 -/
def WOR_STRM_CFG.enable : Fld := .mk 8 0x100 0x10 8 0 1 0 31 1 .rw (.const 0x0) .none
/-- R312. WOR_STRM_BASE_LO[3] addr: Base bits [31:3] -/
def WOR_STRM_BASE_LO.addr : Fld := .mk 8 0x104 0x10 8 0 1 4 3 29 .rw (.const 0x0) .none
/-- R312. WOR_STRM_BASE_HI[0] addr: Base bits [39:32] -/
def WOR_STRM_BASE_HI.addr : Fld := .mk 8 0x108 0x10 8 0 1 8 0 8 .rw (.const 0x00) .none
/-- R312. WOR_STRM_BASE_HI[16] slots: Ring slots; a write of 0 stores 1 -/
def WOR_STRM_BASE_HI.slots : Fld := .mk 8 0x108 0x10 8 0 1 8 16 16 .rw (.const 0x0001) (.range 1 65535)
/-- R313. WOR_LINK_CFG[0] enable: By R292 -/
def WOR_LINK_CFG.enable : Fld := .mk 8 0x400 0x40 12 0 1 0 0 1 .rw (.const 0x0) .none
/-- R313. WOR_LINK_CFG[1] width: 0, 1, 2: w = 1, 2, 4; a write of 3 keeps the old value -/
def WOR_LINK_CFG.width : Fld := .mk 8 0x400 0x40 12 0 1 0 1 2 .rw (.const 0x0) (.keepAbove 2)
/-- R313. WOR_LINK_CFG[3] rate: By R284 -/
def WOR_LINK_CFG.rate : Fld := .mk 8 0x400 0x40 12 0 1 0 3 1 .rw (.const 0x0) .none
/-- R313. WOR_LINK_CFG[4] fec: By R285 -/
def WOR_LINK_CFG.fec : Fld := .mk 8 0x400 0x40 12 0 1 0 4 1 .rw (.const 0x0) .none
/-- R313. WOR_LINK_CFG[5] side: 0 N, 1 E, 2 S, 3 W, 4 none; writes of 5 to 7 keep the old value -/
def WOR_LINK_CFG.side : Fld := .mk 8 0x400 0x40 12 0 1 0 5 3 .rw (.const 0x4) (.keepAbove 4)
/-- R313. WOR_LINK_CFG[8] phase: By R296; effective at the next barrier -/
def WOR_LINK_CFG.phase : Fld := .mk 8 0x400 0x40 12 0 1 0 8 6 .rw (.const 0x00) .none
/-- R313. WOR_LINK_STATUS[0] state: By R291 -/
def WOR_LINK_STATUS.state : Fld := .mk 8 0x404 0x40 12 0 1 4 0 3 .ro (.const 0x0) .none
/-- R313. WOR_LINK_STATUS[3] window_ok: By R297 -/
def WOR_LINK_STATUS.window_ok : Fld := .mk 8 0x404 0x40 12 0 1 4 3 1 .ro (.const 0x0) .none
/-- R313. WOR_LINK_STATUS[4] bulk_ok: By R297 -/
def WOR_LINK_STATUS.bulk_ok : Fld := .mk 8 0x404 0x40 12 0 1 4 4 1 .ro (.const 0x0) .none
/-- R313. WOR_LINK_STATUS[5] halo_late: By R306 -/
def WOR_LINK_STATUS.halo_late : Fld := .mk 8 0x404 0x40 12 0 1 4 5 1 .ro (.const 0x0) .none
/-- R313. WOR_LINK_WORDS[0] w: W -/
def WOR_LINK_WORDS.w : Fld := .mk 8 0x408 0x40 12 0 1 8 0 10 .ro (.const 0x000) .none
/-- R313. WOR_LINK_WORDS[10] halo: H -/
def WOR_LINK_WORDS.halo : Fld := .mk 8 0x408 0x40 12 0 1 8 10 10 .ro (.const 0x000) .none
/-- R313. WOR_LINK_WORDS[20] bulk: G -/
def WOR_LINK_WORDS.bulk : Fld := .mk 8 0x408 0x40 12 0 1 8 20 10 .ro (.const 0x000) .none
/-- R313. WOR_LINK_PEER[0] addr: Peer address -/
def WOR_LINK_PEER.addr : Fld := .mk 8 0x40c 0x40 12 0 1 0xc 0 18 .ro (.const 0x00000) .none
/-- R313. WOR_LINK_PEER[18] use: Peer's use of the link -/
def WOR_LINK_PEER.use : Fld := .mk 8 0x40c 0x40 12 0 1 0xc 18 3 .ro (.const 0x0) .none
/-- R313. WOR_LINK_PEER[24] valid: Peer recorded -/
def WOR_LINK_PEER.valid : Fld := .mk 8 0x40c 0x40 12 0 1 0xc 24 1 .ro (.const 0x0) .none
/-- R313. WOR_LINK_MARK_OFS[0] ofs: Latest marker offset, in units of 10 ps -/
def WOR_LINK_MARK_OFS.ofs : Fld := .mk 8 0x410 0x40 12 0 1 0x10 0 24 .ro (.const 0x000000) .none
/-- R313. WOR_LINK_MARK_MAX[0] ofs: MARK_MAX; cleared at entry to SERVICE -/
def WOR_LINK_MARK_MAX.ofs : Fld := .mk 8 0x414 0x40 12 0 1 0x14 0 24 .ro (.const 0x000000) .none
/-- R313. WOR_HALO_ARRIVE[0] t: By R306, in units of 10 ps -/
def WOR_HALO_ARRIVE.t : Fld := .mk 8 0x418 0x40 12 0 1 0x18 0 24 .ro (.const 0x000000) .none
/-- R313. WOR_LINK_ERR[0] down: SERVICE left for DOWN -/
def WOR_LINK_ERR.down : Fld := .mk 8 0x41c 0x40 12 0 1 0x1c 0 1 .w1c (.const 0x0) .none
/-- R313. WOR_LINK_ERR[1] train_timeout: By R292 -/
def WOR_LINK_ERR.train_timeout : Fld := .mk 8 0x41c 0x40 12 0 1 0x1c 1 1 .w1c (.const 0x0) .none
/-- R313. WOR_LINK_ERR[2] side_mismatch: IDENT use not opposite -/
def WOR_LINK_ERR.side_mismatch : Fld := .mk 8 0x41c 0x40 12 0 1 0x1c 2 1 .w1c (.const 0x0) .none
/-- R313. WOR_LINK_ERR[3] marker_mismatch: By R292 -/
def WOR_LINK_ERR.marker_mismatch : Fld := .mk 8 0x41c 0x40 12 0 1 0x1c 3 1 .w1c (.const 0x0) .none
/-- R313. WOR_LINK_ERR[4] crc: By R288 -/
def WOR_LINK_ERR.crc : Fld := .mk 8 0x41c 0x40 12 0 1 0x1c 4 1 .w1c (.const 0x0) .none
/-- R313. WOR_LINK_ERR[5] fec_uncorr: By R285 -/
def WOR_LINK_ERR.fec_uncorr : Fld := .mk 8 0x41c 0x40 12 0 1 0x1c 5 1 .w1c (.const 0x0) .none
/-- R313. WOR_LINK_ERR[6] halo_late: By R305 -/
def WOR_LINK_ERR.halo_late : Fld := .mk 8 0x41c 0x40 12 0 1 0x1c 6 1 .w1c (.const 0x0) .none
/-- R313. WOR_LINK_ERR[7] halo_nomatch: By R304 -/
def WOR_LINK_ERR.halo_nomatch : Fld := .mk 8 0x41c 0x40 12 0 1 0x1c 7 1 .w1c (.const 0x0) .none
/-- R313. WOR_LINK_ERR[8] bad_ctl: By R287 and R311 -/
def WOR_LINK_ERR.bad_ctl : Fld := .mk 8 0x41c 0x40 12 0 1 0x1c 8 1 .w1c (.const 0x0) .none
/-- R313. WOR_LINK_ERR[9] window_refused: By R297 -/
def WOR_LINK_ERR.window_refused : Fld := .mk 8 0x41c 0x40 12 0 1 0x1c 9 1 .w1c (.const 0x0) .none
/-- R313. WOR_LINK_ERR[10] stray: By R287 -/
def WOR_LINK_ERR.stray : Fld := .mk 8 0x41c 0x40 12 0 1 0x1c 10 1 .w1c (.const 0x0) .none
/-- R313. WOR_LINK_CRC_CNT[0] count: By R288 -/
def WOR_LINK_CRC_CNT.count : Fld := .mk 8 0x420 0x40 12 0 1 0x20 0 32 .rc (.const 0x0) .none
/-- R313. WOR_FEC_CORR_CNT[0] count: By R285 -/
def WOR_FEC_CORR_CNT.count : Fld := .mk 8 0x424 0x40 12 0 1 0x24 0 32 .rc (.const 0x0) .none
/-- R313. WOR_FEC_UNCORR_CNT[0] count: By R285 -/
def WOR_FEC_UNCORR_CNT.count : Fld := .mk 8 0x428 0x40 12 0 1 0x28 0 32 .rc (.const 0x0) .none
/-- R313. WOR_HALO_LATE_CNT[0] count: By R305 -/
def WOR_HALO_LATE_CNT.count : Fld := .mk 8 0x42c 0x40 12 0 1 0x2c 0 32 .rc (.const 0x0) .none
/-- R313. WOR_HALO_NOMATCH_CNT[0] count: By R304 -/
def WOR_HALO_NOMATCH_CNT.count : Fld := .mk 8 0x430 0x40 12 0 1 0x30 0 32 .rc (.const 0x0) .none
/-- R313. WOR_LINK_DOWN_CNT[0] count: By R292, saturating -/
def WOR_LINK_DOWN_CNT.count : Fld := .mk 8 0x434 0x40 12 0 1 0x34 0 16 .rc (.const 0x0) .none
/-- R313. WOR_BLN_CFG[0] enable: By R292 -/
def WOR_BLN_CFG.enable : Fld := .mk 8 0x800 0x20 48 0 1 0 0 1 .rw (.const 0x0) .none
/-- R313. WOR_BLN_CFG[1] rate: By R284 -/
def WOR_BLN_CFG.rate : Fld := .mk 8 0x800 0x20 48 0 1 0 1 1 .rw (.const 0x0) .none
/-- R313. WOR_BLN_CFG[2] fec: By R285 -/
def WOR_BLN_CFG.fec : Fld := .mk 8 0x800 0x20 48 0 1 0 2 1 .rw (.const 0x0) .none
/-- R313. WOR_BLN_STATUS[0] state: By R291 -/
def WOR_BLN_STATUS.state : Fld := .mk 8 0x804 0x20 48 0 1 4 0 3 .ro (.const 0x0) .none
/-- R313. WOR_BLN_PEER[0] addr: Peer address -/
def WOR_BLN_PEER.addr : Fld := .mk 8 0x808 0x20 48 0 1 8 0 18 .ro (.const 0x00000) .none
/-- R313. WOR_BLN_PEER[24] valid: Peer recorded -/
def WOR_BLN_PEER.valid : Fld := .mk 8 0x808 0x20 48 0 1 8 24 1 .ro (.const 0x0) .none
/-- R313. WOR_BLN_PEER[25] role: Peer's role bit -/
def WOR_BLN_PEER.role : Fld := .mk 8 0x808 0x20 48 0 1 8 25 1 .ro (.const 0x0) .none
/-- R313. WOR_BLN_MARK_OFS[0] ofs: Latest marker offset, in units of 10 ps -/
def WOR_BLN_MARK_OFS.ofs : Fld := .mk 8 0x80c 0x20 48 0 1 0xc 0 24 .ro (.const 0x000000) .none
/-- R313. WOR_BLN_ERR[0] err: [0] down, [1] train_timeout, [2] role_mismatch, [3] marker_mismatch, [4] cell_crc, [5] fec -/
def WOR_BLN_ERR.err : Fld := .mk 8 0x810 0x20 48 0 1 0x10 0 7 .w1c (.const 0x00) .none
/-- R313. WOR_BLN_CELL_CNT[0] count: Cells received in SERVICE -/
def WOR_BLN_CELL_CNT.count : Fld := .mk 8 0x814 0x20 48 0 1 0x14 0 32 .rc (.const 0x0) .none
/-- R313. WOR_BLN_CRC_CNT[0] count: By R308 -/
def WOR_BLN_CRC_CNT.count : Fld := .mk 8 0x818 0x20 48 0 1 0x18 0 32 .rc (.const 0x0) .none

/-- Fields of page WOR, part 0. -/
def fieldsWOR0 : List Fld :=
  [WOR_ADDR.addr, WOR_ADDR.auto, WOR_ADDR_STATUS.addr, WOR_ADDR_STATUS.valid,
   WOR_EPOCH.pending, WOR_EPOCH.active, WOR_EPOCH_WHEN_LO.orbit, WOR_EPOCH_WHEN_HI.orbit,
   WOR_EPOCH_WHEN_HI.index, WOR_EPOCH_WHEN_HI.named, WOR_CMD.epoch_apply, WOR_CMD.epoch_abort,
   WOR_HALO_DELAY.slots, WOR_RX_WIN_LO.base, WOR_RX_WIN_HI.base, WOR_RX_WIN_HI.size,
   WOR_BCN_CTRL.enable, WOR_BCN_CTRL.root, WOR_BCN_CTRL.fixed, WOR_BCN_CTRL.level,
   WOR_BCN_CTRL.parent, WOR_BCN_CHILD_LO.lanes, WOR_BCN_CHILD_HI.lanes, WOR_BCN_WAIT.ns,
   WOR_SYS_RESULT.flags, WOR_SYS_RESULT.index, WOR_SYS_RESULT.uaddr, WOR_SYS_COUNT_LO.count,
   WOR_SYS_COUNT_HI.count, WOR_SYS_FIRST.p, WOR_SYS_FIRST_DEV.addr, WOR_SYS_DEVICES.count,
   WOR_SYS_CNT.count, WOR_ERR.lane_conflict, WOR_ERR.addr_conflict, WOR_ERR.epoch_refused,
   WOR_ERR.epoch_cancelled, WOR_ERR.bcn_cfg_refused, WOR_ERR.rx_drop, WOR_ERR.rx_window]

/-- Fields of page WOR, part 1. -/
def fieldsWOR1 : List Fld :=
  [WOR_ERR.tx_refused, WOR_ERR.stream_refused, WOR_ERR.aborted, WOR_ERR.abort_too_late,
   WOR_BCN_LATE_CNT.count, WOR_BCN_DROP_CNT.count, WOR_RX_DROP_CNT.count, WOR_RX_WIN_CNT.count,
   WOR_TX_SRC_LO.addr, WOR_TX_SRC_HI.addr, WOR_TX_DST_LO.addr, WOR_TX_DST_HI.addr,
   WOR_TX_DST_HI.device, WOR_TX_LEN.words, WOR_TX_CMD.send, WOR_TX_CMD.abort,
   WOR_TX_CMD.tag, WOR_TX_STATUS.tag, WOR_TX_STATUS.queued, WOR_TX_DONE.tags,
   WOR_TX_ABORTED.tags, WOR_STRM_CFG.device, WOR_STRM_CFG.enable, WOR_STRM_BASE_LO.addr,
   WOR_STRM_BASE_HI.addr, WOR_STRM_BASE_HI.slots, WOR_LINK_CFG.enable, WOR_LINK_CFG.width,
   WOR_LINK_CFG.rate, WOR_LINK_CFG.fec, WOR_LINK_CFG.side, WOR_LINK_CFG.phase,
   WOR_LINK_STATUS.state, WOR_LINK_STATUS.window_ok, WOR_LINK_STATUS.bulk_ok, WOR_LINK_STATUS.halo_late,
   WOR_LINK_WORDS.w, WOR_LINK_WORDS.halo, WOR_LINK_WORDS.bulk, WOR_LINK_PEER.addr]

/-- Fields of page WOR, part 2. -/
def fieldsWOR2 : List Fld :=
  [WOR_LINK_PEER.use, WOR_LINK_PEER.valid, WOR_LINK_MARK_OFS.ofs, WOR_LINK_MARK_MAX.ofs,
   WOR_HALO_ARRIVE.t, WOR_LINK_ERR.down, WOR_LINK_ERR.train_timeout, WOR_LINK_ERR.side_mismatch,
   WOR_LINK_ERR.marker_mismatch, WOR_LINK_ERR.crc, WOR_LINK_ERR.fec_uncorr, WOR_LINK_ERR.halo_late,
   WOR_LINK_ERR.halo_nomatch, WOR_LINK_ERR.bad_ctl, WOR_LINK_ERR.window_refused, WOR_LINK_ERR.stray,
   WOR_LINK_CRC_CNT.count, WOR_FEC_CORR_CNT.count, WOR_FEC_UNCORR_CNT.count, WOR_HALO_LATE_CNT.count,
   WOR_HALO_NOMATCH_CNT.count, WOR_LINK_DOWN_CNT.count, WOR_BLN_CFG.enable, WOR_BLN_CFG.rate,
   WOR_BLN_CFG.fec, WOR_BLN_STATUS.state, WOR_BLN_PEER.addr, WOR_BLN_PEER.valid,
   WOR_BLN_PEER.role, WOR_BLN_MARK_OFS.ofs, WOR_BLN_ERR.err, WOR_BLN_CELL_CNT.count,
   WOR_BLN_CRC_CNT.count]

/-- All fields of page WOR. -/
def fieldsWOR : List Fld := fieldsWOR0 ++ fieldsWOR1 ++ fieldsWOR2

/-- R346. HBM_CTRL[0] restart: 1: each stack in FAULT enters INIT, by R317 -/
def HBM_CTRL.restart : Fld := .mk 9 0 0 1 0 1 0 0 1 .wo (.const 0x0) .none
/-- R346. HBM_STATUS[0] stack0: State of stack 0, by R317 -/
def HBM_STATUS.stack0 : Fld := .mk 9 4 0 1 0 1 4 0 3 .ro (.const 0x0) .none
/-- R346. HBM_STATUS[4] stack1: State of stack 1 -/
def HBM_STATUS.stack1 : Fld := .mk 9 4 0 1 0 1 4 4 3 .ro (.const 0x0) .none
/-- R346. HBM_STATUS[8] pipe_ok: 1: pipeline storing, by R319 -/
def HBM_STATUS.pipe_ok : Fld := .mk 9 4 0 1 0 1 4 8 1 .ro (.const 0x0) .none
/-- R346. HBM_PIPE_CTRL[0] enable: By R319 -/
def HBM_PIPE_CTRL.enable : Fld := .mk 9 8 0 1 0 1 8 0 1 .rw (.const 0x0) .none
/-- R346. HBM_PIPE_CTRL[1] planes2: By R319 -/
def HBM_PIPE_CTRL.planes2 : Fld := .mk 9 8 0 1 0 1 8 1 1 .rw (.const 0x1) .none
/-- R346. HBM_PIPE_CTRL[2] half: By R319 -/
def HBM_PIPE_CTRL.half : Fld := .mk 9 8 0 1 0 1 8 2 1 .rw (.const 0x0) .none
/-- R346. HBM_PIPE_RATE[0] rate: D / GNO_PERIOD_MIN, units of 0.1 GB/s -/
def HBM_PIPE_RATE.rate : Fld := .mk 9 0xc 0 1 0 1 0xc 0 16 .ro (.const 0x0000) .none
/-- R346. HBM_SHARE[0] share: 1,560 GB/s less HBM_PIPE_RATE, units of 0.1 GB/s -/
def HBM_SHARE.share : Fld := .mk 9 0x10 0 1 0 1 0x10 0 16 .ro (.const 0x3CF0) .none
/-- R346. HBM_PIPE_LAST_LO[0] serial: Serial [31:0] of the latest tag written -/
def HBM_PIPE_LAST_LO.serial : Fld := .mk 9 0x14 0 1 0 1 0x14 0 32 .ro (.const 0x0) .none
/-- R346. HBM_PIPE_LAST_HI[0] serial: Serial [63:32], read as a pair by the rule of R36 -/
def HBM_PIPE_LAST_HI.serial : Fld := .mk 9 0x18 0 1 0 1 0x18 0 32 .ro (.const 0x0) .none
/-- R346. HBM_PIPE_DROP_CNT[0] count: By R321 -/
def HBM_PIPE_DROP_CNT.count : Fld := .mk 9 0x1c 0 1 0 1 0x1c 0 32 .rc (.const 0x0) .none
/-- R346. HBM_ECC_CORR_CNT[0] count: By R318 -/
def HBM_ECC_CORR_CNT.count : Fld := .mk 9 0x20 0 1 0 1 0x20 0 32 .rc (.const 0x0) .none
/-- R346. HBM_ECC_UNCORR_CNT[0] count: By R318 -/
def HBM_ECC_UNCORR_CNT.count : Fld := .mk 9 0x24 0 1 0 1 0x24 0 32 .rc (.const 0x0) .none
/-- R346. HBM_TEMP[0] stack0: Stack 0 temperature, °C -/
def HBM_TEMP.stack0 : Fld := .mk 9 0x28 0 1 0 1 0x28 0 8 .ro (.const 0x00) .none
/-- R346. HBM_TEMP[8] stack1: Stack 1 temperature, °C -/
def HBM_TEMP.stack1 : Fld := .mk 9 0x28 0 1 0 1 0x28 8 8 .ro (.const 0x00) .none
/-- R346. HBM_ERR[0] pipe_rate: By R319 -/
def HBM_ERR.pipe_rate : Fld := .mk 9 0x2c 0 1 0 1 0x2c 0 1 .w1c (.const 0x0) .none
/-- R346. HBM_ERR[1] pipe_drop: By R321 -/
def HBM_ERR.pipe_drop : Fld := .mk 9 0x2c 0 1 0 1 0x2c 1 1 .w1c (.const 0x0) .none
/-- R346. HBM_ERR[2] ecc_uncorr: By R318 -/
def HBM_ERR.ecc_uncorr : Fld := .mk 9 0x2c 0 1 0 1 0x2c 2 1 .w1c (.const 0x0) .none
/-- R346. HBM_ERR[3] stack_fault: A stack entered FAULT -/
def HBM_ERR.stack_fault : Fld := .mk 9 0x2c 0 1 0 1 0x2c 3 1 .w1c (.const 0x0) .none
/-- R346. HBM_ERR[4] ring_write: By R322 -/
def HBM_ERR.ring_write : Fld := .mk 9 0x2c 0 1 0 1 0x2c 4 1 .w1c (.const 0x0) .none
/-- R346. HBM_ERR[5] cfg_refused: By R319 -/
def HBM_ERR.cfg_refused : Fld := .mk 9 0x2c 0 1 0 1 0x2c 5 1 .w1c (.const 0x0) .none
/-- R346. HBM_ERR[6] xfer_refused: By R323 -/
def HBM_ERR.xfer_refused : Fld := .mk 9 0x2c 0 1 0 1 0x2c 6 1 .w1c (.const 0x0) .none
/-- R346. HBM_XFER_CTRL[0] mode: Channel t, t = 0 to 3, by R323; a write of 3 keeps the old value -/
def HBM_XFER_CTRL.mode : Fld := .mk 9 0x40 0x20 4 0 1 0x40 0 2 .rw (.const 0x0) (.keepAbove 2)
/-- R346. HBM_XFER_CTRL[4] start: By R323 -/
def HBM_XFER_CTRL.start : Fld := .mk 9 0x40 0x20 4 0 1 0x40 4 1 .wo (.const 0x0) .none
/-- R346. HBM_XFER_CTRL[5] abort: By R324 -/
def HBM_XFER_CTRL.abort : Fld := .mk 9 0x40 0x20 4 0 1 0x40 5 1 .wo (.const 0x0) .none
/-- R346. HBM_XFER_CFG[0] dst: First destination plane -/
def HBM_XFER_CFG.dst : Fld := .mk 9 0x44 0x20 4 0 1 0x44 0 12 .rw (.const 0x080) .none
/-- R346. HBM_XFER_CFG[12] planes: 1 to 64; out-of-range writes are clamped -/
def HBM_XFER_CFG.planes : Fld := .mk 9 0x44 0x20 4 0 1 0x44 12 7 .rw (.const 0x01) (.range 1 64)
/-- R346. HBM_XFER_CFG[20] lag: Recall lag in slots, by R323 -/
def HBM_XFER_CFG.lag : Fld := .mk 9 0x44 0x20 4 0 1 0x44 20 12 .rw (.const 0x000) .none
/-- R346. HBM_XFER_SRC_LO[6] addr: Source bits [31:6] -/
def HBM_XFER_SRC_LO.addr : Fld := .mk 9 0x48 0x20 4 0 1 0x48 6 26 .rw (.const 0x0) .none
/-- R346. HBM_XFER_SRC_HI[0] addr: Source bits [39:32] -/
def HBM_XFER_SRC_HI.addr : Fld := .mk 9 0x4c 0x20 4 0 1 0x4c 0 8 .rw (.const 0x00) .none
/-- R346. HBM_XFER_STATUS[0] grant: By R324; tested by wait_cond 3 -/
def HBM_XFER_STATUS.grant : Fld := .mk 9 0x50 0x20 4 0 1 0x50 0 1 .ro (.const 0x0) .none
/-- R346. HBM_XFER_STATUS[1] busy: One-shot copy running -/
def HBM_XFER_STATUS.busy : Fld := .mk 9 0x50 0x20 4 0 1 0x50 1 1 .ro (.const 0x0) .none
/-- R346. HBM_XFER_STATUS[2] done_: By R324 -/
def HBM_XFER_STATUS.done_ : Fld := .mk 9 0x50 0x20 4 0 1 0x50 2 1 .w1c (.const 0x0) .none
/-- R346. HBM_XFER_STATUS[3] aborted: By R324 -/
def HBM_XFER_STATUS.aborted : Fld := .mk 9 0x50 0x20 4 0 1 0x50 3 1 .w1c (.const 0x0) .none
/-- R346. HBM_XFER_STATUS[4] abort_too_late: By R324 -/
def HBM_XFER_STATUS.abort_too_late : Fld := .mk 9 0x50 0x20 4 0 1 0x50 4 1 .w1c (.const 0x0) .none
/-- R346. HBM_XFER_STATUS[5] missed: By R324 -/
def HBM_XFER_STATUS.missed : Fld := .mk 9 0x50 0x20 4 0 1 0x50 5 1 .w1c (.const 0x0) .none
/-- R346. HBM_XFER_MISS_CNT[0] count: By R324 -/
def HBM_XFER_MISS_CNT.count : Fld := .mk 9 0x54 0x20 4 0 1 0x54 0 32 .rc (.const 0x0) .none

/-- Fields of page HBM, part 0. -/
def fieldsHBM0 : List Fld :=
  [HBM_CTRL.restart, HBM_STATUS.stack0, HBM_STATUS.stack1, HBM_STATUS.pipe_ok,
   HBM_PIPE_CTRL.enable, HBM_PIPE_CTRL.planes2, HBM_PIPE_CTRL.half, HBM_PIPE_RATE.rate,
   HBM_SHARE.share, HBM_PIPE_LAST_LO.serial, HBM_PIPE_LAST_HI.serial, HBM_PIPE_DROP_CNT.count,
   HBM_ECC_CORR_CNT.count, HBM_ECC_UNCORR_CNT.count, HBM_TEMP.stack0, HBM_TEMP.stack1,
   HBM_ERR.pipe_rate, HBM_ERR.pipe_drop, HBM_ERR.ecc_uncorr, HBM_ERR.stack_fault,
   HBM_ERR.ring_write, HBM_ERR.cfg_refused, HBM_ERR.xfer_refused, HBM_XFER_CTRL.mode,
   HBM_XFER_CTRL.start, HBM_XFER_CTRL.abort, HBM_XFER_CFG.dst, HBM_XFER_CFG.planes,
   HBM_XFER_CFG.lag, HBM_XFER_SRC_LO.addr, HBM_XFER_SRC_HI.addr, HBM_XFER_STATUS.grant,
   HBM_XFER_STATUS.busy, HBM_XFER_STATUS.done_, HBM_XFER_STATUS.aborted, HBM_XFER_STATUS.abort_too_late,
   HBM_XFER_STATUS.missed, HBM_XFER_MISS_CNT.count]

/-- All fields of page HBM. -/
def fieldsHBM : List Fld := fieldsHBM0

/-- R347. RDO_CTRL[0] enable: 0: every event skipped, reason 3 -/
def RDO_CTRL.enable : Fld := .mk 10 0 0 1 0 1 0 0 1 .rw (.const 0x0) .none
/-- R347. RDO_CTRL[1] keep: By R340 -/
def RDO_CTRL.keep : Fld := .mk 10 0 0 1 0 1 0 1 1 .rw (.const 0x0) .none
/-- R347. RDO_CTRL[8] hold: By R328 -/
def RDO_CTRL.hold : Fld := .mk 10 0 0 1 0 1 0 8 8 .rw (.const 0x00) .none
/-- R347. RDO_CTRL[16] reserve: By R343 -/
def RDO_CTRL.reserve : Fld := .mk 10 0 0 1 0 1 0 16 8 .rw (.const 0x10) .none
/-- R347. RDO_CMD[0] apply: By R344 -/
def RDO_CMD.apply : Fld := .mk 10 4 0 1 0 1 4 0 1 .wo (.const 0x0) .none
/-- R347. RDO_STATUS[0] throttle: By R343 -/
def RDO_STATUS.throttle : Fld := .mk 10 8 0 1 0 1 8 0 1 .ro (.const 0x0) .none
/-- R347. RDO_STATUS[1] cfg_ok: By R344 -/
def RDO_STATUS.cfg_ok : Fld := .mk 10 8 0 1 0 1 8 1 1 .ro (.const 0x1) .none
/-- R347. RDO_STATUS[2] cfg_pending: By R344 -/
def RDO_STATUS.cfg_pending : Fld := .mk 10 8 0 1 0 1 8 2 1 .ro (.const 0x0) .none
/-- R347. RDO_STATUS[8] queued: Events queued, 0 to 4,096 -/
def RDO_STATUS.queued : Fld := .mk 10 8 0 1 0 1 8 8 13 .ro (.const 0x0000) .none
/-- R347. RDO_STATUS[24] ports_ready: n -/
def RDO_STATUS.ports_ready : Fld := .mk 10 8 0 1 0 1 8 24 5 .ro (.const 0x00) .none
/-- R347. RDO_ACCEPT[0] outputs: By R325 -/
def RDO_ACCEPT.outputs : Fld := .mk 10 0xc 0 1 0 1 0xc 0 16 .rw (.const 0x0001) .none
/-- R347. RDO_WINDOW[0] pre: By R328 -/
def RDO_WINDOW.pre : Fld := .mk 10 0x10 0 1 0 1 0x10 0 4 .rw (.const 0x0) .none
/-- R347. RDO_WINDOW[8] post: By R328 -/
def RDO_WINDOW.post : Fld := .mk 10 0x10 0 1 0 1 0x10 8 4 .rw (.const 0x0) .none
/-- R347. RDO_ZS[0] mode: By R330 -/
def RDO_ZS.mode : Fld := .mk 10 0x14 0 1 0 1 0x14 0 2 .rw (.const 0x1) .none
/-- R347. RDO_ZS[2] min: By R330 -/
def RDO_ZS.min : Fld := .mk 10 0x14 0 1 0 1 0x14 2 2 .rw (.const 0x1) .none
/-- R347. RDO_ROI[0] rows: By R331 -/
def RDO_ROI.rows : Fld := .mk 10 0x18 0 1 0 1 0x18 0 8 .rw (.const 0x04) .none
/-- R347. RDO_ROI[8] cols: By R331 -/
def RDO_ROI.cols : Fld := .mk 10 0x18 0 1 0 1 0x18 8 9 .rw (.const 0x010) .none
/-- R347. RDO_ROI[18] uaddr: By R331 -/
def RDO_ROI.uaddr : Fld := .mk 10 0x18 0 1 0 1 0x18 18 14 .rw (.const 0x0000) .none
/-- R347. RDO_PROMISE[0] us: Readout promise, 1 to 1,000 µs; out-of-range writes are clamped -/
def RDO_PROMISE.us : Fld := .mk 10 0x1c 0 1 0 1 0x1c 0 10 .rw (.const 0x064) (.range 1 1000)
/-- R347. RDO_FETCH[0] gbps: r_f, by R341 -/
def RDO_FETCH.gbps : Fld := .mk 10 0x20 0 1 0 1 0x20 0 8 .rw (.const 0x64) .none
/-- R347. RDO_FETCH[8] lat_ns: By R341 -/
def RDO_FETCH.lat_ns : Fld := .mk 10 0x20 0 1 0 1 0x20 8 16 .rw (.const 0x03E8) .none
/-- R347. RDO_MTU[0] bytes: IPv4 MTU, by R334 -/
def RDO_MTU.bytes : Fld := .mk 10 0x24 0 1 0 1 0x24 0 14 .rw (.const 0x2328) .none
/-- R347. RDO_CFG_ERR[0] code: By R344 -/
def RDO_CFG_ERR.code : Fld := .mk 10 0x28 0 1 0 1 0x28 0 8 .ro (.const 0x00) .none
/-- R347. RDO_TAU[0] ns: τ_max, rounded up -/
def RDO_TAU.ns : Fld := .mk 10 0x2c 0 1 0 1 0x2c 0 16 .ro (.const 0x0000) .none
/-- R347. RDO_THRESH[0] ns: By R343; 0 when at or below 0 -/
def RDO_THRESH.ns : Fld := .mk 10 0x30 0 1 0 1 0x30 0 20 .ro (.const 0x00000) .none
/-- R347. RDO_BACKLOG[0] ns: By R343 -/
def RDO_BACKLOG.ns : Fld := .mk 10 0x34 0 1 0 1 0x34 0 20 .ro (.const 0x00000) .none
/-- R347. RDO_EVBUF_LO[20] base: Event ring base bits [31:20] -/
def RDO_EVBUF_LO.base : Fld := .mk 10 0x38 0 1 0 1 0x38 20 12 .rw (.const 0x000) .none
/-- R347. RDO_EVBUF_HI[0] base: Base bits [39:32] -/
def RDO_EVBUF_HI.base : Fld := .mk 10 0x3c 0 1 0 1 0x3c 0 8 .rw (.const 0x00) .none
/-- R347. RDO_EVBUF_HI[16] size: Size in MiB -/
def RDO_EVBUF_HI.size : Fld := .mk 10 0x3c 0 1 0 1 0x3c 16 16 .rw (.const 0x0000) .none
/-- R347. RDO_EVBUF_WR[0] offset: By R340 -/
def RDO_EVBUF_WR.offset : Fld := .mk 10 0x40 0 1 0 1 0x40 0 32 .ro (.const 0x0) .none
/-- R347. RDO_EVT_CNT[0] count: Events received -/
def RDO_EVT_CNT.count : Fld := .mk 10 0x44 0 1 0 1 0x44 0 32 .rc (.const 0x0) .none
/-- R347. RDO_SENT_CNT[0] count: Events read out -/
def RDO_SENT_CNT.count : Fld := .mk 10 0x48 0 1 0 1 0x48 0 32 .rc (.const 0x0) .none
/-- R347. RDO_SKIP_CNT[0] count: By R342 -/
def RDO_SKIP_CNT.count : Fld := .mk 10 0x4c 0 1 0 1 0x4c 0 32 .rc (.const 0x0) .none
/-- R347. RDO_LATE_CNT[0] count: By R345 -/
def RDO_LATE_CNT.count : Fld := .mk 10 0x50 0 1 0 1 0x50 0 32 .rc (.const 0x0) .none
/-- R347. RDO_SRC_LATE_CNT[0] count: By R326 -/
def RDO_SRC_LATE_CNT.count : Fld := .mk 10 0x54 0 1 0 1 0x54 0 32 .rc (.const 0x0) .none
/-- R347. RDO_BCN_LATE_CNT[0] count: By R327 -/
def RDO_BCN_LATE_CNT.count : Fld := .mk 10 0x58 0 1 0 1 0x58 0 32 .rc (.const 0x0) .none
/-- R347. RDO_BCN_DROP_CNT[0] count: By R327 -/
def RDO_BCN_DROP_CNT.count : Fld := .mk 10 0x5c 0 1 0 1 0x5c 0 32 .rc (.const 0x0) .none
/-- R347. RDO_LAST_SKIP[0] reason: By R342 -/
def RDO_LAST_SKIP.reason : Fld := .mk 10 0x60 0 1 0 1 0x60 0 8 .ro (.const 0x00) .none
/-- R347. RDO_ERR[0] cfg_refused: By R344 -/
def RDO_ERR.cfg_refused : Fld := .mk 10 0x64 0 1 0 1 0x64 0 1 .w1c (.const 0x0) .none
/-- R347. RDO_ERR[1] cfg_fail: By R344 -/
def RDO_ERR.cfg_fail : Fld := .mk 10 0x64 0 1 0 1 0x64 1 1 .w1c (.const 0x0) .none
/-- R347. RDO_ERR[2] skip: By R342 -/
def RDO_ERR.skip : Fld := .mk 10 0x64 0 1 0 1 0x64 2 1 .w1c (.const 0x0) .none
/-- R347. RDO_ERR[3] late: By R345 -/
def RDO_ERR.late : Fld := .mk 10 0x64 0 1 0 1 0x64 3 1 .w1c (.const 0x0) .none
/-- R347. RDO_ERR[4] src_late: By R326 -/
def RDO_ERR.src_late : Fld := .mk 10 0x64 0 1 0 1 0x64 4 1 .w1c (.const 0x0) .none
/-- R347. RDO_ERR[5] port_change: By R345 -/
def RDO_ERR.port_change : Fld := .mk 10 0x64 0 1 0 1 0x64 5 1 .w1c (.const 0x0) .none
/-- R348. RDO_PORT_CFG[0] enable: By R334 and R335 -/
def RDO_PORT_CFG.enable : Fld := .mk 10 0x400 0x40 16 0 1 0 0 1 .rw (.const 0x0) .none
/-- R348. RDO_PORT_CFG[1] lane: Rear lane, 0 to 47 -/
def RDO_PORT_CFG.lane : Fld := .mk 10 0x400 0x40 16 0 1 0 1 6 .rw (.const 0x00) .none
/-- R348. RDO_PORT_CFG[7] medium: 0 KR1, 1 CR1 -/
def RDO_PORT_CFG.medium : Fld := .mk 10 0x400 0x40 16 0 1 0 7 1 .rw (.const 0x0) .none
/-- R348. RDO_PORT_STATUS[0] state: By R335 -/
def RDO_PORT_STATUS.state : Fld := .mk 10 0x404 0x40 16 0 1 4 0 2 .ro (.const 0x0) .none
/-- R348. RDO_PORT_MAC_LO[0] mac: MAC bits [31:0] -/
def RDO_PORT_MAC_LO.mac : Fld := .mk 10 0x408 0x40 16 0 1 8 0 32 .ro .fuse .none
/-- R348. RDO_PORT_MAC_HI[0] mac: MAC bits [47:32] -/
def RDO_PORT_MAC_HI.mac : Fld := .mk 10 0x40c 0x40 16 0 1 0xc 0 16 .ro .fuse .none
/-- R348. RDO_PORT_IP[0] ip: Source IPv4 address -/
def RDO_PORT_IP.ip : Fld := .mk 10 0x410 0x40 16 0 1 0x10 0 32 .rw (.const 0x0) .none
/-- R348. RDO_PORT_DST_IP[0] ip: Destination IPv4 address -/
def RDO_PORT_DST_IP.ip : Fld := .mk 10 0x414 0x40 16 0 1 0x14 0 32 .rw (.const 0x0) .none
/-- R348. RDO_PORT_UDP[0] src: Source UDP port -/
def RDO_PORT_UDP.src : Fld := .mk 10 0x418 0x40 16 0 1 0x18 0 16 .rw (.const 0xC350) .none
/-- R348. RDO_PORT_UDP[16] dst: Destination UDP port -/
def RDO_PORT_UDP.dst : Fld := .mk 10 0x418 0x40 16 0 1 0x18 16 16 .rw (.const 0xC350) .none
/-- R348. RDO_PORT_DST_MAC_LO[0] mac: Destination MAC bits [31:0] -/
def RDO_PORT_DST_MAC_LO.mac : Fld := .mk 10 0x41c 0x40 16 0 1 0x1c 0 32 .rw (.const 0x0) .none
/-- R348. RDO_PORT_DST_MAC_HI[0] mac: Destination MAC bits [47:32] -/
def RDO_PORT_DST_MAC_HI.mac : Fld := .mk 10 0x420 0x40 16 0 1 0x20 0 16 .rw (.const 0x0000) .none
/-- R348. RDO_PORT_DST_MAC_HI[31] static: By R335 -/
def RDO_PORT_DST_MAC_HI.static : Fld := .mk 10 0x420 0x40 16 0 1 0x20 31 1 .rw (.const 0x0) .none
/-- R348. RDO_PORT_IPOPT[0] ttl: IPv4 TTL -/
def RDO_PORT_IPOPT.ttl : Fld := .mk 10 0x424 0x40 16 0 1 0x24 0 8 .rw (.const 0x40) .none
/-- R348. RDO_PORT_IPOPT[8] dscp: IPv4 DSCP -/
def RDO_PORT_IPOPT.dscp : Fld := .mk 10 0x424 0x40 16 0 1 0x24 8 6 .rw (.const 0x00) .none
/-- R348. RDO_PORT_FRAME_CNT[0] count: Frames sent -/
def RDO_PORT_FRAME_CNT.count : Fld := .mk 10 0x428 0x40 16 0 1 0x28 0 32 .rc (.const 0x0) .none
/-- R348. RDO_PORT_RX_DROP_CNT[0] count: By R334 and R335 -/
def RDO_PORT_RX_DROP_CNT.count : Fld := .mk 10 0x42c 0x40 16 0 1 0x2c 0 32 .rc (.const 0x0) .none
/-- R348. RDO_PORT_FEC_CNT[0] count: Uncorrectable codewords received -/
def RDO_PORT_FEC_CNT.count : Fld := .mk 10 0x430 0x40 16 0 1 0x30 0 32 .rc (.const 0x0) .none
/-- R348. RDO_PORT_ERR[0] down: READY or UP left for DOWN -/
def RDO_PORT_ERR.down : Fld := .mk 10 0x434 0x40 16 0 1 0x34 0 1 .w1c (.const 0x0) .none
/-- R348. RDO_PORT_ERR[1] lane_conflict: By R334 -/
def RDO_PORT_ERR.lane_conflict : Fld := .mk 10 0x434 0x40 16 0 1 0x34 1 1 .w1c (.const 0x0) .none
/-- R348. RDO_PORT_ERR[2] arp_timeout: By R335 -/
def RDO_PORT_ERR.arp_timeout : Fld := .mk 10 0x434 0x40 16 0 1 0x34 2 1 .w1c (.const 0x0) .none

/-- Fields of page RDO, part 0. -/
def fieldsRDO0 : List Fld :=
  [RDO_CTRL.enable, RDO_CTRL.keep, RDO_CTRL.hold, RDO_CTRL.reserve,
   RDO_CMD.apply, RDO_STATUS.throttle, RDO_STATUS.cfg_ok, RDO_STATUS.cfg_pending,
   RDO_STATUS.queued, RDO_STATUS.ports_ready, RDO_ACCEPT.outputs, RDO_WINDOW.pre,
   RDO_WINDOW.post, RDO_ZS.mode, RDO_ZS.min, RDO_ROI.rows,
   RDO_ROI.cols, RDO_ROI.uaddr, RDO_PROMISE.us, RDO_FETCH.gbps,
   RDO_FETCH.lat_ns, RDO_MTU.bytes, RDO_CFG_ERR.code, RDO_TAU.ns,
   RDO_THRESH.ns, RDO_BACKLOG.ns, RDO_EVBUF_LO.base, RDO_EVBUF_HI.base,
   RDO_EVBUF_HI.size, RDO_EVBUF_WR.offset, RDO_EVT_CNT.count, RDO_SENT_CNT.count,
   RDO_SKIP_CNT.count, RDO_LATE_CNT.count, RDO_SRC_LATE_CNT.count, RDO_BCN_LATE_CNT.count,
   RDO_BCN_DROP_CNT.count, RDO_LAST_SKIP.reason, RDO_ERR.cfg_refused, RDO_ERR.cfg_fail]

/-- Fields of page RDO, part 1. -/
def fieldsRDO1 : List Fld :=
  [RDO_ERR.skip, RDO_ERR.late, RDO_ERR.src_late, RDO_ERR.port_change,
   RDO_PORT_CFG.enable, RDO_PORT_CFG.lane, RDO_PORT_CFG.medium, RDO_PORT_STATUS.state,
   RDO_PORT_MAC_LO.mac, RDO_PORT_MAC_HI.mac, RDO_PORT_IP.ip, RDO_PORT_DST_IP.ip,
   RDO_PORT_UDP.src, RDO_PORT_UDP.dst, RDO_PORT_DST_MAC_LO.mac, RDO_PORT_DST_MAC_HI.mac,
   RDO_PORT_DST_MAC_HI.static, RDO_PORT_IPOPT.ttl, RDO_PORT_IPOPT.dscp, RDO_PORT_FRAME_CNT.count,
   RDO_PORT_RX_DROP_CNT.count, RDO_PORT_FEC_CNT.count, RDO_PORT_ERR.down, RDO_PORT_ERR.lane_conflict,
   RDO_PORT_ERR.arp_timeout]

/-- All fields of page RDO. -/
def fieldsRDO : List Fld := fieldsRDO0 ++ fieldsRDO1

end Sys2Proof.Machine
end

