-- ==== Sys2Proof/Machine/RegsManagement.lean ====
section
/-! DEFINITION. The register fields of the DIC, TAR and LED pages (R519, R550, R551), one descriptor each: page, base offset, strides and
instance counts, offset in the block, lowest bit, width, access code and reset value, as the tables give them. -/

namespace Sys2Proof.Machine

/-- R519. DIC_CTRL[0] can_en: CAN node on; a write of 1 enters Initialisation -/
def DIC_CTRL.can_en : Fld := .mk 15 0 0 1 0 1 0 0 1 .rw (.const 0x1) .none
/-- R519. DIC_CTRL[1] lan_en: Lantern on, by R500 -/
def DIC_CTRL.lan_en : Fld := .mk 15 0 0 1 0 1 0 1 1 .rw (.const 0x1) .none
/-- R519. DIC_CTRL[2] nmt_reset_en: By R495 -/
def DIC_CTRL.nmt_reset_en : Fld := .mk 15 0 0 1 0 1 0 2 1 .rw (.const 0x0) .none
/-- R519. DIC_CTRL[3] emcy_en: By R498 -/
def DIC_CTRL.emcy_en : Fld := .mk 15 0 0 1 0 1 0 3 1 .rw (.const 0x1) .none
/-- R519. DIC_CTRL[4] notify_en: By R506 -/
def DIC_CTRL.notify_en : Fld := .mk 15 0 0 1 0 1 0 4 1 .rw (.const 0x1) .none
/-- R519. DIC_STATUS[0] nmt_hb: By R494 -/
def DIC_STATUS.nmt_hb : Fld := .mk 15 4 0 1 0 1 4 0 7 .ro (.const 0x00) .none
/-- R519. DIC_STATUS[8] domain_open: By R507 -/
def DIC_STATUS.domain_open : Fld := .mk 15 4 0 1 0 1 4 8 1 .ro (.const 0x0) .none
/-- R519. DIC_STATUS[9] domain_if: 0 CAN, 1 Lantern -/
def DIC_STATUS.domain_if : Fld := .mk 15 4 0 1 0 1 4 9 1 .ro (.const 0x0) .none
/-- R519. DIC_STATUS[10] mgt_link: By R500 -/
def DIC_STATUS.mgt_link : Fld := .mk 15 4 0 1 0 1 4 10 1 .ro (.const 0x0) .none
/-- R519. DIC_STATUS[11] mirror_ok: By R517 -/
def DIC_STATUS.mirror_ok : Fld := .mk 15 4 0 1 0 1 4 11 1 .ro (.const 0x1) .none
/-- R519. DIC_STATUS[16] queued: Requests queued, 0 to 64 -/
def DIC_STATUS.queued : Fld := .mk 15 4 0 1 0 1 4 16 7 .ro (.const 0x00) .none
/-- R519. DIC_CAN_CFG[0] node_id: By R492 -/
def DIC_CAN_CFG.node_id : Fld := .mk 15 8 0 1 0 1 8 0 7 .rw (.const 0) .none
/-- R519. DIC_CAN_CFG[8] nom_rate: By R492 -/
def DIC_CAN_CFG.nom_rate : Fld := .mk 15 8 0 1 0 1 8 8 2 .rw (.const 0x2) .none
/-- R519. DIC_CAN_CFG[12] data_rate: By R492 -/
def DIC_CAN_CFG.data_rate : Fld := .mk 15 8 0 1 0 1 8 12 2 .rw (.const 0x1) .none
/-- R519. DIC_CAN_STATE[0] bus: 0 error-active, 1 error-passive, 2 bus-off -/
def DIC_CAN_STATE.bus : Fld := .mk 15 0xc 0 1 0 1 0xc 0 2 .ro (.const 0x0) .none
/-- R519. DIC_CAN_STATE[8] tec: Transmit error counter -/
def DIC_CAN_STATE.tec : Fld := .mk 15 0xc 0 1 0 1 0xc 8 8 .ro (.const 0x00) .none
/-- R519. DIC_CAN_STATE[16] rec: Receive error counter -/
def DIC_CAN_STATE.rec : Fld := .mk 15 0xc 0 1 0 1 0xc 16 8 .ro (.const 0x00) .none
/-- R519. DIC_MGT_IP[0] ip: Host IPv4 address -/
def DIC_MGT_IP.ip : Fld := .mk 15 0x10 0 1 0 1 0x10 0 32 .rw (.const 0) .none
/-- R519. DIC_MGT_MASK[0] prefix_: Prefix length, 0 to 32; larger writes store 32 -/
def DIC_MGT_MASK.prefix_ : Fld := .mk 15 0x14 0 1 0 1 0x14 0 6 .rw (.const 0) (.range 0 32)
/-- R519. DIC_MGT_GW[0] ip: Default gateway; 0: none -/
def DIC_MGT_GW.ip : Fld := .mk 15 0x18 0 1 0 1 0x18 0 32 .rw (.const 0) .none
/-- R519. DIC_MGT_MAC_LO[0] mac: MAC bits [31:0] -/
def DIC_MGT_MAC_LO.mac : Fld := .mk 15 0x1c 0 1 0 1 0x1c 0 32 .ro .fuse .none
/-- R519. DIC_MGT_MAC_HI[0] mac: MAC bits [47:32] -/
def DIC_MGT_MAC_HI.mac : Fld := .mk 15 0x20 0 1 0 1 0x20 0 16 .ro .fuse .none
/-- R519. DIC_LAN_PORT[0] port: Lantern UDP port -/
def DIC_LAN_PORT.port : Fld := .mk 15 0x24 0 1 0 1 0x24 0 16 .rw (.const 0x4C4E) .none
/-- R519. DIC_RIGHTS[0] can: By R483 -/
def DIC_RIGHTS.can : Fld := .mk 15 0x28 0 1 0 1 0x28 0 4 .rw (.const 0xF) .none
/-- R519. DIC_RIGHTS[8] lan_default: By R483 -/
def DIC_RIGHTS.lan_default : Fld := .mk 15 0x28 0 1 0 1 0x28 8 4 .rw (.const 0x1) .none
/-- R519. DIC_JNL_HEAD[0] seq: Oldest entry held -/
def DIC_JNL_HEAD.seq : Fld := .mk 15 0x2c 0 1 0 1 0x2c 0 32 .ro (.const 0x0) .none
/-- R519. DIC_JNL_NEXT[0] seq: seq of the next entry -/
def DIC_JNL_NEXT.seq : Fld := .mk 15 0x30 0 1 0 1 0x30 0 32 .ro (.const 0x0) .none
/-- R519. DIC_JNL_MIRROR[0] seq: seq of the next entry to mirror -/
def DIC_JNL_MIRROR.seq : Fld := .mk 15 0x34 0 1 0 1 0x34 0 32 .ro (.const 0x0) .none
/-- R519. DIC_JNL_SEL[0] seq: By R518 -/
def DIC_JNL_SEL.seq : Fld := .mk 15 0x38 0 1 0 1 0x38 0 32 .rw (.const 0x0) .none
/-- R519. DIC_JNL_LOST_CNT[0] count: By R517 -/
def DIC_JNL_LOST_CNT.count : Fld := .mk 15 0x3c 0 1 0 1 0x3c 0 32 .rc (.const 0x0) .none
/-- R519. DIC_LAST_ABORT[0] code: By R514 -/
def DIC_LAST_ABORT.code : Fld := .mk 15 0x40 0 1 0 1 0x40 0 32 .ro (.const 0x0) .none
/-- R519. DIC_LAST_ABORT_OBJ[0] index: Object of that code -/
def DIC_LAST_ABORT_OBJ.index : Fld := .mk 15 0x44 0 1 0 1 0x44 0 16 .ro (.const 0x0000) .none
/-- R519. DIC_LAST_ABORT_OBJ[16] subindex: as its register -/
def DIC_LAST_ABORT_OBJ.subindex : Fld := .mk 15 0x44 0 1 0 1 0x44 16 8 .ro (.const 0x00) .none
/-- R519. DIC_LAST_ABORT_ADDR_LO[0] addr: By R488 -/
def DIC_LAST_ABORT_ADDR_LO.addr : Fld := .mk 15 0x48 0 1 0 1 0x48 0 32 .ro (.const 0x0) .none
/-- R519. DIC_LAST_ABORT_ADDR_HI[0] addr: Bits [39:32] -/
def DIC_LAST_ABORT_ADDR_HI.addr : Fld := .mk 15 0x4c 0 1 0 1 0x4c 0 8 .ro (.const 0x00) .none
/-- R519. DIC_ERR[0] rights_denied: By R483 -/
def DIC_ERR.rights_denied : Fld := .mk 15 0x50 0 1 0 1 0x50 0 1 .w1c (.const 0x0) .none
/-- R519. DIC_ERR[1] queue_full: By R486 -/
def DIC_ERR.queue_full : Fld := .mk 15 0x50 0 1 0 1 0x50 1 1 .w1c (.const 0x0) .none
/-- R519. DIC_ERR[2] jnl_lost: By R517 -/
def DIC_ERR.jnl_lost : Fld := .mk 15 0x50 0 1 0 1 0x50 2 1 .w1c (.const 0x0) .none
/-- R519. DIC_ERR[3] mirror_fail: By R517 -/
def DIC_ERR.mirror_fail : Fld := .mk 15 0x50 0 1 0 1 0x50 3 1 .w1c (.const 0x0) .none
/-- R519. DIC_ERR[4] emcy_inhibited: By R498 -/
def DIC_ERR.emcy_inhibited : Fld := .mk 15 0x50 0 1 0 1 0x50 4 1 .w1c (.const 0x0) .none
/-- R519. DIC_ERR[5] can_bus_off: By R492 -/
def DIC_ERR.can_bus_off : Fld := .mk 15 0x50 0 1 0 1 0x50 5 1 .w1c (.const 0x0) .none
/-- R519. DIC_REQ_CNT[0] count: Requests executed -/
def DIC_REQ_CNT.count : Fld := .mk 15 0x54 0 1 0 1 0x54 0 32 .rc (.const 0x0) .none
/-- R519. DIC_ABORT_CNT[0] count: By R514 -/
def DIC_ABORT_CNT.count : Fld := .mk 15 0x58 0 1 0 1 0x58 0 32 .rc (.const 0x0) .none
/-- R519. DIC_DENIED_CNT[0] count: By R483 -/
def DIC_DENIED_CNT.count : Fld := .mk 15 0x5c 0 1 0 1 0x5c 0 32 .rc (.const 0x0) .none
/-- R519. DIC_LAN_DUP_CNT[0] count: By R505 -/
def DIC_LAN_DUP_CNT.count : Fld := .mk 15 0x60 0 1 0 1 0x60 0 32 .rc (.const 0x0) .none
/-- R519. DIC_LAN_DROP_CNT[0] count: By R486, R500 and R504 -/
def DIC_LAN_DROP_CNT.count : Fld := .mk 15 0x64 0 1 0 1 0x64 0 32 .rc (.const 0x0) .none
/-- R519. DIC_EMCY_CNT[0] count: EMCY sent -/
def DIC_EMCY_CNT.count : Fld := .mk 15 0x68 0 1 0 1 0x68 0 32 .rc (.const 0x0) .none
/-- R519. DIC_EMCY_INH_CNT[0] count: By R498 -/
def DIC_EMCY_INH_CNT.count : Fld := .mk 15 0x6c 0 1 0 1 0x6c 0 32 .rc (.const 0x0) .none
/-- R519. DIC_JNL_DATA[0] bytes: 10 words: entry DIC_JNL_SEL, by R518 -/
def DIC_JNL_DATA.bytes : Fld := .mk 15 0x80 4 10 0 1 0x80 0 32 .ro (.const 0x0) .none
/-- R519. DIC_CLIENT_IP[0] ip: Client address -/
def DIC_CLIENT_IP.ip : Fld := .mk 15 0x100 8 16 0 1 0x100 0 32 .rw (.const 0x0) .none
/-- R519. DIC_CLIENT_CFG[0] prefix_: Prefix length; larger writes store 32 -/
def DIC_CLIENT_CFG.prefix_ : Fld := .mk 15 0x104 8 16 0 1 0x104 0 6 .rw (.const 0x20) (.range 0 32)
/-- R519. DIC_CLIENT_CFG[8] rights: By R483 -/
def DIC_CLIENT_CFG.rights : Fld := .mk 15 0x104 8 16 0 1 0x104 8 4 .rw (.const 0x0) .none
/-- R519. DIC_CLIENT_CFG[16] notify: By R506 -/
def DIC_CLIENT_CFG.notify : Fld := .mk 15 0x104 8 16 0 1 0x104 16 1 .rw (.const 0x0) .none
/-- R519. DIC_CLIENT_CFG[31] enable: Entry in use -/
def DIC_CLIENT_CFG.enable : Fld := .mk 15 0x104 8 16 0 1 0x104 31 1 .rw (.const 0x0) .none

/-- Fields of page DIC, part 0. -/
def fieldsDIC0 : List Fld :=
  [DIC_CTRL.can_en, DIC_CTRL.lan_en, DIC_CTRL.nmt_reset_en, DIC_CTRL.emcy_en,
   DIC_CTRL.notify_en, DIC_STATUS.nmt_hb, DIC_STATUS.domain_open, DIC_STATUS.domain_if,
   DIC_STATUS.mgt_link, DIC_STATUS.mirror_ok, DIC_STATUS.queued, DIC_CAN_CFG.node_id,
   DIC_CAN_CFG.nom_rate, DIC_CAN_CFG.data_rate, DIC_CAN_STATE.bus, DIC_CAN_STATE.tec,
   DIC_CAN_STATE.rec, DIC_MGT_IP.ip, DIC_MGT_MASK.prefix_, DIC_MGT_GW.ip,
   DIC_MGT_MAC_LO.mac, DIC_MGT_MAC_HI.mac, DIC_LAN_PORT.port, DIC_RIGHTS.can,
   DIC_RIGHTS.lan_default, DIC_JNL_HEAD.seq, DIC_JNL_NEXT.seq, DIC_JNL_MIRROR.seq,
   DIC_JNL_SEL.seq, DIC_JNL_LOST_CNT.count, DIC_LAST_ABORT.code, DIC_LAST_ABORT_OBJ.index,
   DIC_LAST_ABORT_OBJ.subindex, DIC_LAST_ABORT_ADDR_LO.addr, DIC_LAST_ABORT_ADDR_HI.addr, DIC_ERR.rights_denied,
   DIC_ERR.queue_full, DIC_ERR.jnl_lost, DIC_ERR.mirror_fail, DIC_ERR.emcy_inhibited]

/-- Fields of page DIC, part 1. -/
def fieldsDIC1 : List Fld :=
  [DIC_ERR.can_bus_off, DIC_REQ_CNT.count, DIC_ABORT_CNT.count, DIC_DENIED_CNT.count,
   DIC_LAN_DUP_CNT.count, DIC_LAN_DROP_CNT.count, DIC_EMCY_CNT.count, DIC_EMCY_INH_CNT.count,
   DIC_JNL_DATA.bytes, DIC_CLIENT_IP.ip, DIC_CLIENT_CFG.prefix_, DIC_CLIENT_CFG.rights,
   DIC_CLIENT_CFG.notify, DIC_CLIENT_CFG.enable]

/-- All fields of page DIC. -/
def fieldsDIC : List Fld := fieldsDIC0 ++ fieldsDIC1

/-- R550. TAR_CTRL[0] enable: Replanning on -/
def TAR_CTRL.enable : Fld := .mk 16 0 0 1 0 1 0 0 1 .rw (.const 0x1) .none
/-- R550. TAR_CTRL[1] eye_en: By R524 -/
def TAR_CTRL.eye_en : Fld := .mk 16 0 0 1 0 1 0 1 1 .rw (.const 0x1) .none
/-- R550. TAR_CMD[0] replan: Trigger 7 -/
def TAR_CMD.replan : Fld := .mk 16 4 0 1 0 1 4 0 1 .wo (.const 0x0) .none
/-- R550. TAR_CMD[1] unretire: By R529, for island -/
def TAR_CMD.unretire : Fld := .mk 16 4 0 1 0 1 4 1 1 .wo (.const 0x0) .none
/-- R550. TAR_CMD[16] island: Island for unretire -/
def TAR_CMD.island : Fld := .mk 16 4 0 1 0 1 4 16 4 .wo (.const 0x0) .none
/-- R550. TAR_STATUS[0] busy: Replanning under way -/
def TAR_STATUS.busy : Fld := .mk 16 8 0 1 0 1 8 0 1 .ro (.const 0x0) .none
/-- R550. TAR_STATUS[1] pending: By R526 -/
def TAR_STATUS.pending : Fld := .mk 16 8 0 1 0 1 8 1 1 .ro (.const 0x0) .none
/-- R550. TAR_STATUS[2] retry: By R532 -/
def TAR_STATUS.retry : Fld := .mk 16 8 0 1 0 1 8 2 1 .ro (.const 0x0) .none
/-- R550. TAR_STATUS[4] last_trigger: By R526 -/
def TAR_STATUS.last_trigger : Fld := .mk 16 8 0 1 0 1 8 4 4 .ro (.const 0x0) .none
/-- R550. TAR_STATUS[16] retired: Bit 16 + i: island i retired -/
def TAR_STATUS.retired : Fld := .mk 16 8 0 1 0 1 8 16 16 .ro (.const 0x0000) .none
/-- R550. TAR_INTERVAL[0] s: 21,600 s; smaller writes than 60 store 60 -/
def TAR_INTERVAL.s : Fld := .mk 16 0xc 0 1 0 1 0xc 0 20 .rw (.const 0x05460) (.range 60 1048575)
/-- R550. TAR_TARGET[0] mhz: Target clock; clamped to 2,500 to f_max, rounded down to 12.5 MHz -/
def TAR_TARGET.mhz : Fld := .mk 16 0x10 0 1 0 1 0x10 0 12 .rw (.grade 0xC80 0xAF0) .none
/-- R550. TAR_V[0] floor_mv: 650 mV; clamped to 650 to 850 -/
def TAR_V.floor_mv : Fld := .mk 16 0x14 0 1 0 1 0x14 0 10 .rw (.const 0x28A) .none
/-- R550. TAR_V[16] ceil_mv: 800 mV; clamped to floor_mv to 850 -/
def TAR_V.ceil_mv : Fld := .mk 16 0x14 0 1 0 1 0x14 16 10 .rw (.const 0x320) .none
/-- R550. TAR_GUARD[0] ps: Guard, ps -/
def TAR_GUARD.ps : Fld := .mk 16 0x18 0 1 0 1 0x18 0 8 .rw (.const 0x19) .none
/-- R550. TAR_GUARD[8] sram_mv: SRAM guard, mV -/
def TAR_GUARD.sram_mv : Fld := .mk 16 0x18 0 1 0 1 0x18 8 8 .rw (.const 0x1E) .none
/-- R550. TAR_GUARD[16] urgent_ps: By R535 -/
def TAR_GUARD.urgent_ps : Fld := .mk 16 0x18 0 1 0 1 0x18 16 8 .rw (.const 0x05) .none
/-- R550. TAR_TEMP[0] headroom: °C -/
def TAR_TEMP.headroom : Fld := .mk 16 0x1c 0 1 0 1 0x1c 0 8 .rw (.const 0x0A) .none
/-- R550. TAR_TEMP[8] trig: °C, by R525 -/
def TAR_TEMP.trig : Fld := .mk 16 0x1c 0 1 0 1 0x1c 8 8 .rw (.const 0x05) .none
/-- R550. TAR_WARN_H[0] hours: By R535 -/
def TAR_WARN_H.hours : Fld := .mk 16 0x20 0 1 0 1 0x20 0 20 .rw (.const 0x007D0) .none
/-- R550. TAR_HIST[0] period_h: 168 h; a write of 0 stores 1 -/
def TAR_HIST.period_h : Fld := .mk 16 0x24 0 1 0 1 0x24 0 16 .rw (.const 0x00A8) (.range 1 65535)
/-- R550. TAR_AVS[0] set_mv: VDD_CORE setpoint -/
def TAR_AVS.set_mv : Fld := .mk 16 0x28 0 1 0 1 0x28 0 10 .ro (.const 0x2EE) .none
/-- R550. TAR_AVS[16] settle_us: By R530 -/
def TAR_AVS.settle_us : Fld := .mk 16 0x28 0 1 0 1 0x28 16 10 .rw (.const 0x1F4) .none
/-- R550. TAR_PROBE[0] period: By R523 -/
def TAR_PROBE.period : Fld := .mk 16 0x2c 0 1 0 1 0x2c 0 8 .rw (.const 0x40) .none
/-- R550. TAR_PLAN[0] v_mv: Voltage of the plan in force -/
def TAR_PLAN.v_mv : Fld := .mk 16 0x30 0 1 0 1 0x30 0 10 .ro (.const 0x2EE) .none
/-- R550. TAR_PLAN[16] tmax: Highest T_max of the plan, °C -/
def TAR_PLAN.tmax : Fld := .mk 16 0x30 0 1 0 1 0x30 16 8 .ro (.const 0x00) .none
/-- R550. TAR_COEF[0] kt: k_T, fs per °C -/
def TAR_COEF.kt : Fld := .mk 16 0x34 0 1 0 1 0x34 0 16 .ro .fuse .none
/-- R550. TAR_COEF[16] kv: k_V, fs per mV -/
def TAR_COEF.kv : Fld := .mk 16 0x34 0 1 0 1 0x34 16 16 .ro .fuse .none
/-- R550. TAR_EYE_LIMIT[0] height: Units of 0.25 mV, by R536 -/
def TAR_EYE_LIMIT.height : Fld := .mk 16 0x38 0 1 0 1 0x38 0 16 .rw (.const 0x00A0) .none
/-- R550. TAR_EYE_LIMIT[16] width: Units of UI / 256 -/
def TAR_EYE_LIMIT.width : Fld := .mk 16 0x38 0 1 0 1 0x38 16 8 .rw (.const 0x40) .none
/-- R550. TAR_REPLAN_CNT[0] count: Replannings completed -/
def TAR_REPLAN_CNT.count : Fld := .mk 16 0x3c 0 1 0 1 0x3c 0 32 .rc (.const 0x0) .none
/-- R550. TAR_APPLY_CNT[0] count: Plans applied -/
def TAR_APPLY_CNT.count : Fld := .mk 16 0x40 0 1 0 1 0x40 0 32 .rc (.const 0x0) .none
/-- R550. TAR_EYE_REFUSED_CNT[0] count: By R524 -/
def TAR_EYE_REFUSED_CNT.count : Fld := .mk 16 0x44 0 1 0 1 0x44 0 32 .rc (.const 0x0) .none
/-- R550. TAR_ERR[0] plan_refused: A proposal refused, by R532 -/
def TAR_ERR.plan_refused : Fld := .mk 16 0x48 0 1 0 1 0x48 0 1 .w1c (.const 0x0) .none
/-- R550. TAR_ERR[1] avs_fail: By R531 -/
def TAR_ERR.avs_fail : Fld := .mk 16 0x48 0 1 0 1 0x48 1 1 .w1c (.const 0x0) .none
/-- R550. TAR_ERR[2] island_retired: By R529 -/
def TAR_ERR.island_retired : Fld := .mk 16 0x48 0 1 0 1 0x48 2 1 .w1c (.const 0x0) .none
/-- R550. TAR_ERR[3] eye_refused: By R524 -/
def TAR_ERR.eye_refused : Fld := .mk 16 0x48 0 1 0 1 0x48 3 1 .w1c (.const 0x0) .none
/-- R550. TAR_LANE_WARN[0] lanes: 7 words; bit n mod 32 of word ⌊n / 32⌋ for front lane n, by R536 -/
def TAR_LANE_WARN.lanes : Fld := .mk 16 0x50 4 7 0 1 0x50 0 32 .w1c (.const 0x0) .none
/-- R550. TAR_RLANE_WARN[0] lanes: 2 words, for rear lanes 0 to 47 -/
def TAR_RLANE_WARN.lanes : Fld := .mk 16 0x6c 4 2 0 1 0x6c 0 32 .w1c (.const 0x0) .none
/-- R550. TAR_ISL_SLACK[0] meas: Smallest canary slack, 0.1 ps -/
def TAR_ISL_SLACK.meas : Fld := .mk 16 0x100 0x20 16 0 1 0 0 16 .ro (.const 0x0000) .none
/-- R550. TAR_ISL_SLACK[16] norm: s_norm, 0.1 ps, signed -/
def TAR_ISL_SLACK.norm : Fld := .mk 16 0x100 0x20 16 0 1 0 16 16 .ro (.const 0x0000) .none
/-- R550. TAR_ISL_TEMP[0] now: 0.125 °C, signed -/
def TAR_ISL_TEMP.now : Fld := .mk 16 0x104 0x20 16 0 1 4 0 12 .ro (.const 0x000) .none
/-- R550. TAR_ISL_TEMP[16] max24: Highest over 24 h -/
def TAR_ISL_TEMP.max24 : Fld := .mk 16 0x104 0x20 16 0 1 4 16 12 .ro (.const 0x000) .none
/-- R550. TAR_ISL_DROOP[0] min_mv: Lowest VDD_CORE over 24 h -/
def TAR_ISL_DROOP.min_mv : Fld := .mk 16 0x108 0x20 16 0 1 8 0 10 .ro (.const 0x000) .none
/-- R550. TAR_ISL_DROOP[16] depth_mv: droop[i] -/
def TAR_ISL_DROOP.depth_mv : Fld := .mk 16 0x108 0x20 16 0 1 8 16 10 .ro (.const 0x000) .none
/-- R550. TAR_ISL_VMIN[0] mv: SRAM reading -/
def TAR_ISL_VMIN.mv : Fld := .mk 16 0x10c 0x20 16 0 1 0xc 0 10 .ro (.const 0x000) .none
/-- R550. TAR_ISL_VMIN[30] stale: By R522 and R523 -/
def TAR_ISL_VMIN.stale : Fld := .mk 16 0x10c 0x20 16 0 1 0xc 30 1 .ro (.const 0x1) .none
/-- R550. TAR_ISL_RO[0] shift_ppm: Signed, by R521 -/
def TAR_ISL_RO.shift_ppm : Fld := .mk 16 0x110 0x20 16 0 1 0x10 0 16 .ro (.const 0x0000) .none
/-- R550. TAR_ISL_SLOPE[0] fs_per_h: slope[i], signed; 0 without forecast -/
def TAR_ISL_SLOPE.fs_per_h : Fld := .mk 16 0x114 0x20 16 0 1 0x14 0 32 .ro (.const 0x0) .none
/-- R550. TAR_ISL_FORECAST[0] hours: t_exh; 0xFF_FFFF none -/
def TAR_ISL_FORECAST.hours : Fld := .mk 16 0x118 0x20 16 0 1 0x18 0 24 .ro (.const 0xFFFFFF) .none
/-- R550. TAR_ISL_WARN[0] advisory: By R535 -/
def TAR_ISL_WARN.advisory : Fld := .mk 16 0x11c 0x20 16 0 1 0x1c 0 1 .w1c (.const 0x0) .none
/-- R550. TAR_ISL_WARN[1] urgent: By R535 -/
def TAR_ISL_WARN.urgent : Fld := .mk 16 0x11c 0x20 16 0 1 0x1c 1 1 .w1c (.const 0x0) .none
/-- R550. TAR_ISL_WARN[2] below_target: By R535 -/
def TAR_ISL_WARN.below_target : Fld := .mk 16 0x11c 0x20 16 0 1 0x1c 2 1 .w1c (.const 0x0) .none
/-- R550. TAR_ISL_WARN[3] retired: By R535 -/
def TAR_ISL_WARN.retired : Fld := .mk 16 0x11c 0x20 16 0 1 0x1c 3 1 .w1c (.const 0x0) .none
/-- R550. TAR_ISL_WARN[8] penalty: ps, by R533 -/
def TAR_ISL_WARN.penalty : Fld := .mk 16 0x11c 0x20 16 0 1 0x1c 8 8 .ro (.const 0x00) .none
/-- R550. TAR_RLANE_EYE[0] height: Units of 0.25 mV, as FLN_EYE_RESULT -/
def TAR_RLANE_EYE.height : Fld := .mk 16 0x300 4 48 0 1 0 0 16 .ro (.const 0x0) .none
/-- R550. TAR_RLANE_EYE[16] width: Units of UI / 256, as FLN_EYE_RESULT -/
def TAR_RLANE_EYE.width : Fld := .mk 16 0x300 4 48 0 1 0 16 8 .ro (.const 0x0) .none
/-- R550. TAR_RLANE_EYE[31] valid: As FLN_EYE_RESULT -/
def TAR_RLANE_EYE.valid : Fld := .mk 16 0x300 4 48 0 1 0 31 1 .ro (.const 0x0) .none

/-- Fields of page TAR, part 0. -/
def fieldsTAR0 : List Fld :=
  [TAR_CTRL.enable, TAR_CTRL.eye_en, TAR_CMD.replan, TAR_CMD.unretire,
   TAR_CMD.island, TAR_STATUS.busy, TAR_STATUS.pending, TAR_STATUS.retry,
   TAR_STATUS.last_trigger, TAR_STATUS.retired, TAR_INTERVAL.s, TAR_TARGET.mhz,
   TAR_V.floor_mv, TAR_V.ceil_mv, TAR_GUARD.ps, TAR_GUARD.sram_mv,
   TAR_GUARD.urgent_ps, TAR_TEMP.headroom, TAR_TEMP.trig, TAR_WARN_H.hours,
   TAR_HIST.period_h, TAR_AVS.set_mv, TAR_AVS.settle_us, TAR_PROBE.period,
   TAR_PLAN.v_mv, TAR_PLAN.tmax, TAR_COEF.kt, TAR_COEF.kv,
   TAR_EYE_LIMIT.height, TAR_EYE_LIMIT.width, TAR_REPLAN_CNT.count, TAR_APPLY_CNT.count,
   TAR_EYE_REFUSED_CNT.count, TAR_ERR.plan_refused, TAR_ERR.avs_fail, TAR_ERR.island_retired,
   TAR_ERR.eye_refused, TAR_LANE_WARN.lanes, TAR_RLANE_WARN.lanes, TAR_ISL_SLACK.meas]

/-- Fields of page TAR, part 1. -/
def fieldsTAR1 : List Fld :=
  [TAR_ISL_SLACK.norm, TAR_ISL_TEMP.now, TAR_ISL_TEMP.max24, TAR_ISL_DROOP.min_mv,
   TAR_ISL_DROOP.depth_mv, TAR_ISL_VMIN.mv, TAR_ISL_VMIN.stale, TAR_ISL_RO.shift_ppm,
   TAR_ISL_SLOPE.fs_per_h, TAR_ISL_FORECAST.hours, TAR_ISL_WARN.advisory, TAR_ISL_WARN.urgent,
   TAR_ISL_WARN.below_target, TAR_ISL_WARN.retired, TAR_ISL_WARN.penalty, TAR_RLANE_EYE.height,
   TAR_RLANE_EYE.width, TAR_RLANE_EYE.valid]

/-- All fields of page TAR. -/
def fieldsTAR : List Fld := fieldsTAR0 ++ fieldsTAR1

/-- R551. LED_CTRL[0] enable: By R542 -/
def LED_CTRL.enable : Fld := .mk 17 0 0 1 0 1 0 0 1 .rw (.const 0x1) .none
/-- R551. LED_CTRL[1] hold: By R548 -/
def LED_CTRL.hold : Fld := .mk 17 0 0 1 0 1 0 1 1 .rw (.const 0x0) .none
/-- R551. LED_CTRL[8] mirror_min: By R549; a write of 0 stores 1 -/
def LED_CTRL.mirror_min : Fld := .mk 17 0 0 1 0 1 0 8 8 .rw (.const 0x3C) (.range 1 255)
/-- R551. LED_STATUS[0] used: Records not FREE, 0 to 1,024 -/
def LED_STATUS.used : Fld := .mk 17 4 0 1 0 1 4 0 11 .ro (.const 0x000) .none
/-- R551. LED_STATUS[16] mirror_ok: By R549 -/
def LED_STATUS.mirror_ok : Fld := .mk 17 4 0 1 0 1 4 16 1 .ro (.const 0x1) .none
/-- R551. LED_STATUS[20] actq: Queued points, 0 to 16 -/
def LED_STATUS.actq : Fld := .mk 17 4 0 1 0 1 4 20 5 .ro (.const 0x00) .none
/-- R551. LED_SEL[0] record: Record in the window -/
def LED_SEL.record : Fld := .mk 17 8 0 1 0 1 8 0 10 .rw (.const 0x000) .none
/-- R551. LED_CMD[0] forget: By R541, for LED_SEL -/
def LED_CMD.forget : Fld := .mk 17 0xc 0 1 0 1 0xc 0 1 .wo (.const 0x0) .none
/-- R551. LED_HIT_LANE[0] lane: By R544; per initiator -/
def LED_HIT_LANE.lane : Fld := .mk 17 0x10 0 1 0 1 0x10 0 8 .rw (.const 0x00) .none
/-- R551. LED_HIT_ADD_LO[0] count: By R544 -/
def LED_HIT_ADD_LO.count : Fld := .mk 17 0x14 0 1 0 1 0x14 0 32 .wo (.const 0x0) .none
/-- R551. LED_HIT_ADD_HI[0] count: By R544; the write adds -/
def LED_HIT_ADD_HI.count : Fld := .mk 17 0x18 0 1 0 1 0x18 0 32 .wo (.const 0x0) .none
/-- R551. LED_POLICY[0] components: [0] hours, [1] hits, [2] dose, by R545 -/
def LED_POLICY.components : Fld := .mk 17 0x1c 0 1 0 1 0x1c 0 3 .rw (.const 0x7) .none
/-- R551. LED_POLICY[3] temp_weight: By R542 -/
def LED_POLICY.temp_weight : Fld := .mk 17 0x1c 0 1 0 1 0x1c 3 1 .rw (.const 0x1) .none
/-- R551. LED_WARN[0] life: By R541 -/
def LED_WARN.life : Fld := .mk 17 0x20 0 1 0 1 0x20 0 17 .rw (.const 0x0E666) .none
/-- R551. LED_EOL[0] life: By R541 -/
def LED_EOL.life : Fld := .mk 17 0x24 0 1 0 1 0x24 0 17 .rw (.const 0x10000) .none
/-- R551. LED_ACT[0] warn_act: By R547 -/
def LED_ACT.warn_act : Fld := .mk 17 0x28 0 1 0 1 0x28 0 4 .rw (.const 0x1) .none
/-- R551. LED_ACT[4] eol_act: By R547 -/
def LED_ACT.eol_act : Fld := .mk 17 0x28 0 1 0 1 0x28 4 4 .rw (.const 0x5) .none
/-- R551. LED_THR[0] thr_table: Table k of 0x6000 + k -/
def LED_THR.thr_table : Fld := .mk 17 0x2c 0 1 0 1 0x2c 0 8 .rw (.const 0x00) .none
/-- R551. LED_THR[8] mask_table: Table k -/
def LED_THR.mask_table : Fld := .mk 17 0x2c 0 1 0 1 0x2c 8 8 .rw (.const 0x01) .none
/-- R551. LED_THR[16] thr_delta: By R547 -/
def LED_THR.thr_delta : Fld := .mk 17 0x2c 0 1 0 1 0x2c 16 16 .rw (.const 0x0001) .none
/-- R551. LED_SETPT_ADDR[0] warn: Setpoint address at point 1 -/
def LED_SETPT_ADDR.warn : Fld := .mk 17 0x30 0 1 0 1 0x30 0 16 .rw (.const 0x0000) .none
/-- R551. LED_SETPT_ADDR[16] eol: At point 2 -/
def LED_SETPT_ADDR.eol : Fld := .mk 17 0x30 0 1 0 1 0x30 16 16 .rw (.const 0x0000) .none
/-- R551. LED_SETPT_WARN[0] value: Setpoint value at point 1 -/
def LED_SETPT_WARN.value : Fld := .mk 17 0x34 0 1 0 1 0x34 0 32 .rw (.const 0x0) .none
/-- R551. LED_SETPT_EOL[0] value: At point 2 -/
def LED_SETPT_EOL.value : Fld := .mk 17 0x38 0 1 0 1 0x38 0 32 .rw (.const 0x0) .none
/-- R551. LED_PROBATION[0] s: By R548; a write of 0 stores 1 -/
def LED_PROBATION.s : Fld := .mk 17 0x3c 0 1 0 1 0x3c 0 16 .rw (.const 0x003C) (.range 1 65535)
/-- R551. LED_TWEIGHT[0] upper: Band b = 0 to 7: upper bound, °C, signed -/
def LED_TWEIGHT.upper : Fld := .mk 17 0x40 4 8 0 1 0x40 0 8 .rw (.const 0x7F) .none
/-- R551. LED_TWEIGHT[16] weight: Units of 1/256 -/
def LED_TWEIGHT.weight : Fld := .mk 17 0x40 4 8 0 1 0x40 16 16 .rw (.const 0x0100) .none
/-- R551. LED_DEF_TEMP[0] temp: 60.00 °C, in 0.01 °C -/
def LED_DEF_TEMP.temp : Fld := .mk 17 0x60 0 1 0 1 0x60 0 16 .rw (.const 0x1770) .none
/-- R551. LED_CLOCK[0] s: By R538 -/
def LED_CLOCK.s : Fld := .mk 17 0x64 0 1 0 1 0x64 0 32 .ro (.const 0) .none
/-- R551. LED_ACTQ[0] record: Head of the queue, by R546 -/
def LED_ACTQ.record : Fld := .mk 17 0x68 0 1 0 1 0x68 0 10 .rc (.const 0x000) .none
/-- R551. LED_ACTQ[12] point: as its register -/
def LED_ACTQ.point : Fld := .mk 17 0x68 0 1 0 1 0x68 12 2 .rc (.const 0x0) .none
/-- R551. LED_ACTQ[31] valid: 1: an entry was returned -/
def LED_ACTQ.valid : Fld := .mk 17 0x68 0 1 0 1 0x68 31 1 .rc (.const 0x0) .none
/-- R551. LED_ACTQ_DONE[0] record: By R546 -/
def LED_ACTQ_DONE.record : Fld := .mk 17 0x6c 0 1 0 1 0x6c 0 10 .wo (.const 0x000) .none
/-- R551. LED_ACTQ_DONE[12] point: as its register -/
def LED_ACTQ_DONE.point : Fld := .mk 17 0x6c 0 1 0 1 0x6c 12 2 .wo (.const 0x0) .none
/-- R551. LED_ACTQ_DONE[16] failed: as its register -/
def LED_ACTQ_DONE.failed : Fld := .mk 17 0x6c 0 1 0 1 0x6c 16 1 .wo (.const 0x0) .none
/-- R551. LED_ORPHAN_CNT[0] count: By R543 and R544 -/
def LED_ORPHAN_CNT.count : Fld := .mk 17 0x70 0 1 0 1 0x70 0 32 .rc (.const 0x0) .none
/-- R551. LED_ERR[0] orphan: By R543 and R544 -/
def LED_ERR.orphan : Fld := .mk 17 0x74 0 1 0 1 0x74 0 1 .w1c (.const 0x0) .none
/-- R551. LED_ERR[1] actq_full: By R546 -/
def LED_ERR.actq_full : Fld := .mk 17 0x74 0 1 0 1 0x74 1 1 .w1c (.const 0x0) .none
/-- R551. LED_ERR[2] action_fail: By R546 -/
def LED_ERR.action_fail : Fld := .mk 17 0x74 0 1 0 1 0x74 2 1 .w1c (.const 0x0) .none
/-- R551. LED_ERR[3] mirror_fail: By R549 -/
def LED_ERR.mirror_fail : Fld := .mk 17 0x74 0 1 0 1 0x74 3 1 .w1c (.const 0x0) .none
/-- R551. LED_REC[0] image: 16 words of the selected image -/
def LED_REC.image : Fld := .mk 17 0x100 4 16 0 1 0x100 0 32 .ro (.const 0x0) .none
/-- R551. LED_LANE_REC[0] record: By R539 -/
def LED_LANE_REC.record : Fld := .mk 17 0x400 4 224 0 1 0x400 0 10 .ro (.const 0x000) .none
/-- R551. LED_LANE_REC[15] valid: 1: lane mapped -/
def LED_LANE_REC.valid : Fld := .mk 17 0x400 4 224 0 1 0x400 15 1 .ro (.const 0x0) .none

/-- Fields of page LED, part 0. -/
def fieldsLED0 : List Fld :=
  [LED_CTRL.enable, LED_CTRL.hold, LED_CTRL.mirror_min, LED_STATUS.used,
   LED_STATUS.mirror_ok, LED_STATUS.actq, LED_SEL.record, LED_CMD.forget,
   LED_HIT_LANE.lane, LED_HIT_ADD_LO.count, LED_HIT_ADD_HI.count, LED_POLICY.components,
   LED_POLICY.temp_weight, LED_WARN.life, LED_EOL.life, LED_ACT.warn_act,
   LED_ACT.eol_act, LED_THR.thr_table, LED_THR.mask_table, LED_THR.thr_delta,
   LED_SETPT_ADDR.warn, LED_SETPT_ADDR.eol, LED_SETPT_WARN.value, LED_SETPT_EOL.value,
   LED_PROBATION.s, LED_TWEIGHT.upper, LED_TWEIGHT.weight, LED_DEF_TEMP.temp,
   LED_CLOCK.s, LED_ACTQ.record, LED_ACTQ.point, LED_ACTQ.valid,
   LED_ACTQ_DONE.record, LED_ACTQ_DONE.point, LED_ACTQ_DONE.failed, LED_ORPHAN_CNT.count,
   LED_ERR.orphan, LED_ERR.actq_full, LED_ERR.action_fail, LED_ERR.mirror_fail]

/-- Fields of page LED, part 1. -/
def fieldsLED1 : List Fld :=
  [LED_REC.image, LED_LANE_REC.record, LED_LANE_REC.valid]

/-- All fields of page LED. -/
def fieldsLED : List Fld := fieldsLED0 ++ fieldsLED1

end Sys2Proof.Machine
end

