-- ==== Sys2Proof/Machine/RegsRing.lean ====
section
/-! DEFINITION. The register fields of the RNG, SPD, SEM and CPU pages (R455 to R458, R477, R478, R393, R424, R425), one descriptor each: page, base offset, strides and
instance counts, offset in the block, lowest bit, width, access code and reset value, as the tables give them. -/

namespace Sys2Proof.Machine

/-- R455. RNG_CTRL[0] stats_en: By R449 -/
def RNG_CTRL.stats_en : Fld := .mk 11 0 0 1 0 1 0 0 1 .rw (.const 0x1) .none
/-- R455. RNG_TIMEOUT[0] us: By R443; 10 to 65,535 µs; smaller writes store 10 -/
def RNG_TIMEOUT.us : Fld := .mk 11 4 0 1 0 1 4 0 16 .rw (.const 0x2710) (.range 10 65535)
/-- R455. RNG_ERR[0] ecc_corrected: By R444 -/
def RNG_ERR.ecc_corrected : Fld := .mk 11 8 0 1 0 1 8 0 1 .w1c (.const 0x0) .none
/-- R455. RNG_ERR[1] ecc_uncorrectable: By R444 -/
def RNG_ERR.ecc_uncorrectable : Fld := .mk 11 8 0 1 0 1 8 1 1 .w1c (.const 0x0) .none
/-- R455. RNG_ERR[2] timeout: By R443 -/
def RNG_ERR.timeout : Fld := .mk 11 8 0 1 0 1 8 2 1 .w1c (.const 0x0) .none
/-- R455. RNG_ERR[3] guar_refused: By R439 -/
def RNG_ERR.guar_refused : Fld := .mk 11 8 0 1 0 1 8 3 1 .w1c (.const 0x0) .none
/-- R455. RNG_ERR[4] route_refused: By R434 -/
def RNG_ERR.route_refused : Fld := .mk 11 8 0 1 0 1 8 4 1 .w1c (.const 0x0) .none
/-- R455. RNG_ERR[5] protocol: By R431 -/
def RNG_ERR.protocol : Fld := .mk 11 8 0 1 0 1 8 5 1 .w1c (.const 0x0) .none
/-- R455. RNG_ECC_CORR_CNT[0] count: By R444 -/
def RNG_ECC_CORR_CNT.count : Fld := .mk 11 0xc 0 1 0 1 0xc 0 32 .rc (.const 0x0) .none
/-- R455. RNG_ECC_UNCORR_CNT[0] count: By R444 -/
def RNG_ECC_UNCORR_CNT.count : Fld := .mk 11 0x10 0 1 0 1 0x10 0 32 .rc (.const 0x0) .none
/-- R455. RNG_STALE_CNT[0] count: By R443 and R447 -/
def RNG_STALE_CNT.count : Fld := .mk 11 0x14 0 1 0 1 0x14 0 32 .rc (.const 0x0) .none
/-- R455. RNG_PROTO_CNT[0] count: By R431 -/
def RNG_PROTO_CNT.count : Fld := .mk 11 0x18 0 1 0 1 0x18 0 32 .rc (.const 0x0) .none
/-- R455. RNG_WAKE_CNT[0] count: By R445 -/
def RNG_WAKE_CNT.count : Fld := .mk 11 0x1c 0 1 0 1 0x1c 0 32 .rc (.const 0x0) .none
/-- R455. RNG_LINK_SEL[0] stop: Link leaving this stop -/
def RNG_LINK_SEL.stop : Fld := .mk 11 0x20 0 1 0 1 0x20 0 5 .rw (.const 0x00) .none
/-- R455. RNG_LINK_SEL[5] ring: 0 A, 1 B -/
def RNG_LINK_SEL.ring : Fld := .mk 11 0x20 0 1 0 1 0x20 5 1 .rw (.const 0x0) .none
/-- R455. RNG_LINK_SEL[6] dir: 0 cw, 1 ccw -/
def RNG_LINK_SEL.dir : Fld := .mk 11 0x20 0 1 0 1 0x20 6 1 .rw (.const 0x0) .none
/-- R455. RNG_LINK_LOAD[0] guar: U of the selected link, units of 0.25 GB/s, by R439 -/
def RNG_LINK_LOAD.guar : Fld := .mk 11 0x24 0 1 0 1 0x24 0 12 .ro (.const 0x000) .none
/-- R455. RNG_LINK_LOAD[16] q: Q of the selected link, in flits, by R440 -/
def RNG_LINK_LOAD.q : Fld := .mk 11 0x24 0 1 0 1 0x24 16 12 .ro (.const 0x000) .none
/-- R455. RNG_LINK_UTIL[0] flits: Flits carried in the last 1,024 ring cycles -/
def RNG_LINK_UTIL.flits : Fld := .mk 11 0x28 0 1 0 1 0x28 0 11 .ro (.const 0x000) .none
/-- R456. RNG_ROUTE[0] ring: 0 A, 1 B -/
def RNG_ROUTE.ring : Fld := .mk 11 0x1000 0x100 32 4 64 0x1000 0 1 .rw (.route 0) .none
/-- R456. RNG_ROUTE[1] dir: 0 cw, 1 ccw -/
def RNG_ROUTE.dir : Fld := .mk 11 0x1000 0x100 32 4 64 0x1000 1 1 .rw (.route 1) .none
/-- R456. RNG_ROUTE[2] alternate: By R433 and R434 -/
def RNG_ROUTE.alternate : Fld := .mk 11 0x1000 0x100 32 4 64 0x1000 2 1 .rw (.const 0x0) .none
/-- R456. RNG_STOP_STATUS[0] asleep: By R445 -/
def RNG_STOP_STATUS.asleep : Fld := .mk 11 0x3000 4 32 0 1 0x3000 0 1 .ro (.const 0x0) .none
/-- R456. RNG_STOP_STATUS[1] holding: Packets held for a wake -/
def RNG_STOP_STATUS.holding : Fld := .mk 11 0x3000 4 32 0 1 0x3000 1 1 .ro (.const 0x0) .none
/-- R457. RNG_INI_CFG[0] tagcap: 1 to 256, by R442; out-of-range writes are clamped -/
def RNG_INI_CFG.tagcap : Fld := .mk 11 0x4000 0x40 41 0 1 0 0 9 .rw (.const 0x100) (.range 1 256)
/-- R457. RNG_INI_REQ[0] rate: REQ regulator, by R438; a write of 0 stores 1 -/
def RNG_INI_REQ.rate : Fld := .mk 11 0x4004 0x40 41 0 1 4 0 10 .rw (.const 0x100) (.range 1 1023)
/-- R457. RNG_INI_REQ[16] burst: Flits; a write of 0 stores 1 -/
def RNG_INI_REQ.burst : Fld := .mk 11 0x4004 0x40 41 0 1 4 16 8 .rw (.const 0x10) (.range 1 255)
/-- R457. RNG_INI_REQ[31] enable: as its register -/
def RNG_INI_REQ.enable : Fld := .mk 11 0x4004 0x40 41 0 1 4 31 1 .rw (.const 0x0) .none
/-- R457. RNG_INI_PST[0] rate: PST regulator, regulator rate; a write of 0 stores 1 -/
def RNG_INI_PST.rate : Fld := .mk 11 0x4008 0x40 41 0 1 8 0 10 .rw (.const 0x100) (.range 1 1023)
/-- R457. RNG_INI_PST[16] burst: PST regulator, Flits; a write of 0 stores 1 -/
def RNG_INI_PST.burst : Fld := .mk 11 0x4008 0x40 41 0 1 8 16 8 .rw (.const 0x10) (.range 1 255)
/-- R457. RNG_INI_PST[31] enable: PST regulator, regulator enable -/
def RNG_INI_PST.enable : Fld := .mk 11 0x4008 0x40 41 0 1 8 31 1 .rw (.const 0x0) .none
/-- R457. RNG_INI_GUAR[0] rate: GUAR regulator, regulator rate; a write of 0 stores 1 -/
def RNG_INI_GUAR.rate : Fld := .mk 11 0x400c 0x40 41 0 1 0xc 0 10 .rw (.const 0x100) (.range 1 1023)
/-- R457. RNG_INI_GUAR[16] burst: GUAR regulator, Flits; a write of 0 stores 1 -/
def RNG_INI_GUAR.burst : Fld := .mk 11 0x400c 0x40 41 0 1 0xc 16 8 .rw (.const 0x10) (.range 1 255)
/-- R457. RNG_INI_GUAR[31] enable: GUAR regulator, regulator enable -/
def RNG_INI_GUAR.enable : Fld := .mk 11 0x400c 0x40 41 0 1 0xc 31 1 .rw (.const 0x0) .none
/-- R457. RNG_INI_GUAR_MASK[0] stops: Bit d: stop d guaranteed -/
def RNG_INI_GUAR_MASK.stops : Fld := .mk 11 0x4010 0x40 41 0 1 0x10 0 32 .rw (.const 0x0) .none
/-- R457. RNG_INI_STATUS[0] outstanding: Tags held -/
def RNG_INI_STATUS.outstanding : Fld := .mk 11 0x4014 0x40 41 0 1 0x14 0 9 .ro (.const 0x000) .none
/-- R457. RNG_INI_STATUS[16] epoch: By R447 -/
def RNG_INI_STATUS.epoch : Fld := .mk 11 0x4014 0x40 41 0 1 0x14 16 4 .ro (.const 0x0) .none
/-- R457. RNG_INI_STATUS[20] retired: Retired tags, by R443 -/
def RNG_INI_STATUS.retired : Fld := .mk 11 0x4014 0x40 41 0 1 0x14 20 9 .ro (.const 0x000) .none
/-- R457. RNG_INI_BOUND[0] cycles: By R440; 0 without GUAR -/
def RNG_INI_BOUND.cycles : Fld := .mk 11 0x4018 0x40 41 0 1 0x18 0 16 .ro (.const 0x0000) .none
/-- R457. RNG_INI_PKT_CNT[0] count: By R449 -/
def RNG_INI_PKT_CNT.count : Fld := .mk 11 0x401c 0x40 41 0 1 0x1c 0 32 .rc (.const 0x0) .none
/-- R457. RNG_INI_BYTE_CNT[0] count: Units of 64 B, by R449 -/
def RNG_INI_BYTE_CNT.count : Fld := .mk 11 0x4020 0x40 41 0 1 0x20 0 32 .rc (.const 0x0) .none
/-- R457. RNG_INI_RSP_CNT[0] count: By R449 -/
def RNG_INI_RSP_CNT.count : Fld := .mk 11 0x4024 0x40 41 0 1 0x24 0 32 .rc (.const 0x0) .none
/-- R457. RNG_INI_LAT_SUM[0] cycles: By R449 -/
def RNG_INI_LAT_SUM.cycles : Fld := .mk 11 0x4028 0x40 41 0 1 0x28 0 32 .rc (.const 0x0) .none
/-- R457. RNG_INI_LAT_MAX[0] cycles: By R449 -/
def RNG_INI_LAT_MAX.cycles : Fld := .mk 11 0x402c 0x40 41 0 1 0x2c 0 16 .rc (.const 0x0000) .none
/-- R457. RNG_INI_HELD_CNT[0] cycles: By R438 -/
def RNG_INI_HELD_CNT.cycles : Fld := .mk 11 0x4030 0x40 41 0 1 0x30 0 32 .rc (.const 0x0) .none
/-- R457. RNG_INI_TAG_WAIT[0] cycles: By R442 -/
def RNG_INI_TAG_WAIT.cycles : Fld := .mk 11 0x4034 0x40 41 0 1 0x34 0 32 .rc (.const 0x0) .none
/-- R457. RNG_INI_TMO_CNT[0] count: By R443 -/
def RNG_INI_TMO_CNT.count : Fld := .mk 11 0x4038 0x40 41 0 1 0x38 0 32 .rc (.const 0x0) .none
/-- R457. RNG_INI_ERR_CNT[0] count: Responses with status 1, 2 or 3 -/
def RNG_INI_ERR_CNT.count : Fld := .mk 11 0x403c 0x40 41 0 1 0x3c 0 32 .rc (.const 0x0) .none
/-- R458. RNG_DMA_DESC_LO[5] addr: First descriptor bits [31:5] -/
def RNG_DMA_DESC_LO.addr : Fld := .mk 11 0x6000 0x40 16 0 1 0 5 27 .rw (.const 0x0) .none
/-- R458. RNG_DMA_DESC_HI[0] addr: Bits [39:32] -/
def RNG_DMA_DESC_HI.addr : Fld := .mk 11 0x6004 0x40 16 0 1 4 0 8 .rw (.const 0x00) .none
/-- R458. RNG_DMA_CTRL[0] start: By R452 -/
def RNG_DMA_CTRL.start : Fld := .mk 11 0x6008 0x40 16 0 1 8 0 1 .wo (.const 0x0) .none
/-- R458. RNG_DMA_CTRL[1] abort: By R453 -/
def RNG_DMA_CTRL.abort : Fld := .mk 11 0x6008 0x40 16 0 1 8 1 1 .wo (.const 0x0) .none
/-- R458. RNG_DMA_CTRL[2] resume: By R452 -/
def RNG_DMA_CTRL.resume : Fld := .mk 11 0x6008 0x40 16 0 1 8 2 1 .wo (.const 0x0) .none
/-- R458. RNG_DMA_CTRL[8] thread: 4c + t for control thread t of core c; 16 keeper; larger writes store 16 -/
def RNG_DMA_CTRL.thread : Fld := .mk 11 0x6008 0x40 16 0 1 8 8 5 .rw (.const 0x00) (.range 0 16)
/-- R458. RNG_DMA_STATUS[0] state: By R452 -/
def RNG_DMA_STATUS.state : Fld := .mk 11 0x600c 0x40 16 0 1 0xc 0 3 .ro (.const 0x0) .none
/-- R458. RNG_DMA_STATUS[3] done_: Chain completed -/
def RNG_DMA_STATUS.done_ : Fld := .mk 11 0x600c 0x40 16 0 1 0xc 3 1 .w1c (.const 0x0) .none
/-- R458. RNG_DMA_STATUS[4] aborted: By R453 -/
def RNG_DMA_STATUS.aborted : Fld := .mk 11 0x600c 0x40 16 0 1 0xc 4 1 .w1c (.const 0x0) .none
/-- R458. RNG_DMA_STATUS[5] abort_too_late: By R453 -/
def RNG_DMA_STATUS.abort_too_late : Fld := .mk 11 0x600c 0x40 16 0 1 0xc 5 1 .w1c (.const 0x0) .none
/-- R458. RNG_DMA_STATUS[6] error: By R454 -/
def RNG_DMA_STATUS.error : Fld := .mk 11 0x600c 0x40 16 0 1 0xc 6 1 .w1c (.const 0x0) .none
/-- R458. RNG_DMA_STATUS[7] start_refused: By R452 -/
def RNG_DMA_STATUS.start_refused : Fld := .mk 11 0x600c 0x40 16 0 1 0xc 7 1 .w1c (.const 0x0) .none
/-- R458. RNG_DMA_STATUS[8] err_code: By R454 -/
def RNG_DMA_STATUS.err_code : Fld := .mk 11 0x600c 0x40 16 0 1 0xc 8 8 .ro (.const 0x00) .none
/-- R458. RNG_DMA_CUR_LO[5] addr: Descriptor in progress bits [31:5] -/
def RNG_DMA_CUR_LO.addr : Fld := .mk 11 0x6010 0x40 16 0 1 0x10 5 27 .ro (.const 0x0) .none
/-- R458. RNG_DMA_CUR_HI[0] addr: Bits [39:32] -/
def RNG_DMA_CUR_HI.addr : Fld := .mk 11 0x6014 0x40 16 0 1 0x14 0 8 .ro (.const 0x00) .none
/-- R458. RNG_DMA_BYTES[0] bytes: Bytes acknowledged in the chain, saturating -/
def RNG_DMA_BYTES.bytes : Fld := .mk 11 0x6018 0x40 16 0 1 0x18 0 32 .ro (.const 0x0) .none
/-- R458. RNG_DMA_ERR_ADDR_LO[0] addr: By R454 -/
def RNG_DMA_ERR_ADDR_LO.addr : Fld := .mk 11 0x601c 0x40 16 0 1 0x1c 0 32 .ro (.const 0x0) .none
/-- R458. RNG_DMA_ERR_ADDR_HI[0] addr: Bits [39:32] -/
def RNG_DMA_ERR_ADDR_HI.addr : Fld := .mk 11 0x6020 0x40 16 0 1 0x20 0 8 .ro (.const 0x00) .none

/-- Fields of page RNG, part 0. -/
def fieldsRNG0 : List Fld :=
  [RNG_CTRL.stats_en, RNG_TIMEOUT.us, RNG_ERR.ecc_corrected, RNG_ERR.ecc_uncorrectable,
   RNG_ERR.timeout, RNG_ERR.guar_refused, RNG_ERR.route_refused, RNG_ERR.protocol,
   RNG_ECC_CORR_CNT.count, RNG_ECC_UNCORR_CNT.count, RNG_STALE_CNT.count, RNG_PROTO_CNT.count,
   RNG_WAKE_CNT.count, RNG_LINK_SEL.stop, RNG_LINK_SEL.ring, RNG_LINK_SEL.dir,
   RNG_LINK_LOAD.guar, RNG_LINK_LOAD.q, RNG_LINK_UTIL.flits, RNG_ROUTE.ring,
   RNG_ROUTE.dir, RNG_ROUTE.alternate, RNG_STOP_STATUS.asleep, RNG_STOP_STATUS.holding,
   RNG_INI_CFG.tagcap, RNG_INI_REQ.rate, RNG_INI_REQ.burst, RNG_INI_REQ.enable,
   RNG_INI_PST.rate, RNG_INI_PST.burst, RNG_INI_PST.enable, RNG_INI_GUAR.rate,
   RNG_INI_GUAR.burst, RNG_INI_GUAR.enable, RNG_INI_GUAR_MASK.stops, RNG_INI_STATUS.outstanding,
   RNG_INI_STATUS.epoch, RNG_INI_STATUS.retired, RNG_INI_BOUND.cycles, RNG_INI_PKT_CNT.count]

/-- Fields of page RNG, part 1. -/
def fieldsRNG1 : List Fld :=
  [RNG_INI_BYTE_CNT.count, RNG_INI_RSP_CNT.count, RNG_INI_LAT_SUM.cycles, RNG_INI_LAT_MAX.cycles,
   RNG_INI_HELD_CNT.cycles, RNG_INI_TAG_WAIT.cycles, RNG_INI_TMO_CNT.count, RNG_INI_ERR_CNT.count,
   RNG_DMA_DESC_LO.addr, RNG_DMA_DESC_HI.addr, RNG_DMA_CTRL.start, RNG_DMA_CTRL.abort,
   RNG_DMA_CTRL.resume, RNG_DMA_CTRL.thread, RNG_DMA_STATUS.state, RNG_DMA_STATUS.done_,
   RNG_DMA_STATUS.aborted, RNG_DMA_STATUS.abort_too_late, RNG_DMA_STATUS.error, RNG_DMA_STATUS.start_refused,
   RNG_DMA_STATUS.err_code, RNG_DMA_CUR_LO.addr, RNG_DMA_CUR_HI.addr, RNG_DMA_BYTES.bytes,
   RNG_DMA_ERR_ADDR_LO.addr, RNG_DMA_ERR_ADDR_HI.addr]

/-- All fields of page RNG. -/
def fieldsRNG : List Fld := fieldsRNG0 ++ fieldsRNG1

/-- R477. SPD_BANK_HOME_LO[0] initiators: Bit i: initiator i in the home set, i = 0 to 31 -/
def SPD_BANK_HOME_LO.initiators : Fld := .mk 12 0 0x40 8 0 1 0 0 32 .rw (.home 0) .none
/-- R477. SPD_BANK_HOME_HI[0] initiators: Bit i − 32, i = 32 to 40 -/
def SPD_BANK_HOME_HI.initiators : Fld := .mk 12 4 0x40 8 0 1 4 0 9 .rw (.home 1) .none
/-- R477. SPD_BANK_STATUS[0] state: By R465 -/
def SPD_BANK_STATUS.state : Fld := .mk 12 8 0x40 8 0 1 8 0 2 .ro (.const 0x0) .none
/-- R477. SPD_BANK_CONFLICT_CNT[0] count: By R461 -/
def SPD_BANK_CONFLICT_CNT.count : Fld := .mk 12 0xc 0x40 8 0 1 0xc 0 32 .rc (.const 0x0) .none
/-- R477. SPD_BANK_ECC_CORR_CNT[0] count: By R464 -/
def SPD_BANK_ECC_CORR_CNT.count : Fld := .mk 12 0x10 0x40 8 0 1 0x10 0 32 .rc (.const 0x0) .none
/-- R477. SPD_BANK_ECC_UNCORR_CNT[0] count: By R464 -/
def SPD_BANK_ECC_UNCORR_CNT.count : Fld := .mk 12 0x14 0x40 8 0 1 0x14 0 32 .rc (.const 0x0) .none
/-- R477. SPD_BANK_AMO_CNT[0] count: AMOs performed, by R463 -/
def SPD_BANK_AMO_CNT.count : Fld := .mk 12 0x18 0x40 8 0 1 0x18 0 32 .rc (.const 0x0) .none
/-- R477. SPD_ERR[0] ecc_corrected: By R464 and R466 -/
def SPD_ERR.ecc_corrected : Fld := .mk 12 0x200 0 1 0 1 0x200 0 1 .w1c (.const 0x0) .none
/-- R477. SPD_ERR[1] ecc_uncorrectable: By R464 and R466 -/
def SPD_ERR.ecc_uncorrectable : Fld := .mk 12 0x200 0 1 0 1 0x200 1 1 .w1c (.const 0x0) .none
/-- R477. SPD_ERR[2] mbx_collision: By R467 -/
def SPD_ERR.mbx_collision : Fld := .mk 12 0x200 0 1 0 1 0x200 2 1 .w1c (.const 0x0) .none
/-- R477. SPD_ERR[3] doorbell_refused: By R468 -/
def SPD_ERR.doorbell_refused : Fld := .mk 12 0x200 0 1 0 1 0x200 3 1 .w1c (.const 0x0) .none
/-- R477. SPD_MBX_STATUS[0] state: 0 OFF, 1 CLEARING, 2 READY, by R466 -/
def SPD_MBX_STATUS.state : Fld := .mk 12 0x300 0 1 0 1 0x300 0 2 .ro (.const 0x0) .none
/-- R477. SPD_MBX_STATUS[2] port_r_open: 1: port R takes accesses -/
def SPD_MBX_STATUS.port_r_open : Fld := .mk 12 0x300 0 1 0 1 0x300 2 1 .ro (.const 0x0) .none
/-- R477. SPD_MBX_DOORBELL[0] thread: By R468 -/
def SPD_MBX_DOORBELL.thread : Fld := .mk 12 0x304 0 1 0 1 0x304 0 5 .wo (.const 0x00) .none
/-- R477. SPD_MBX_COLL_CNT[0] count: By R467 -/
def SPD_MBX_COLL_CNT.count : Fld := .mk 12 0x308 0 1 0 1 0x308 0 32 .rc (.const 0x0) .none
/-- R477. SPD_MBX_ECC_CORR_CNT[0] count: By R466 -/
def SPD_MBX_ECC_CORR_CNT.count : Fld := .mk 12 0x30c 0 1 0 1 0x30c 0 32 .rc (.const 0x0) .none
/-- R477. SPD_MBX_ECC_UNCORR_CNT[0] count: By R466 -/
def SPD_MBX_ECC_UNCORR_CNT.count : Fld := .mk 12 0x310 0 1 0 1 0x310 0 32 .rc (.const 0x0) .none

/-- Fields of page SPD, part 0. -/
def fieldsSPD0 : List Fld :=
  [SPD_BANK_HOME_LO.initiators, SPD_BANK_HOME_HI.initiators, SPD_BANK_STATUS.state, SPD_BANK_CONFLICT_CNT.count,
   SPD_BANK_ECC_CORR_CNT.count, SPD_BANK_ECC_UNCORR_CNT.count, SPD_BANK_AMO_CNT.count, SPD_ERR.ecc_corrected,
   SPD_ERR.ecc_uncorrectable, SPD_ERR.mbx_collision, SPD_ERR.doorbell_refused, SPD_MBX_STATUS.state,
   SPD_MBX_STATUS.port_r_open, SPD_MBX_DOORBELL.thread, SPD_MBX_COLL_CNT.count, SPD_MBX_ECC_CORR_CNT.count,
   SPD_MBX_ECC_UNCORR_CNT.count]

/-- All fields of page SPD. -/
def fieldsSPD : List Fld := fieldsSPD0

/-- R478. SEM_ADMIN_LO[0] initiators: By R470; bit i, i = 0 to 31 -/
def SEM_ADMIN_LO.initiators : Fld := .mk 13 0 0 1 0 1 0 0 32 .rw (.const 0x0003000F) .none
/-- R478. SEM_ADMIN_HI[0] initiators: Bit i − 32 -/
def SEM_ADMIN_HI.initiators : Fld := .mk 13 4 0 1 0 1 4 0 9 .rw (.const 0x000) .none
/-- R478. SEM_REQ[0] sem: By R469 -/
def SEM_REQ.sem : Fld := .mk 13 8 0 1 0 1 8 0 9 .wo (.const 0x000) .none
/-- R478. SEM_REQ[12] op: By R469 -/
def SEM_REQ.op : Fld := .mk 13 8 0 1 0 1 8 12 4 .wo (.const 0x0) .none
/-- R478. SEM_REQ[16] prio: Wait priority, 0 to 7 -/
def SEM_REQ.prio : Fld := .mk 13 8 0 1 0 1 8 16 3 .wo (.const 0x0) .none
/-- R478. SEM_ERR[0] denied: By R470 -/
def SEM_ERR.denied : Fld := .mk 13 0xc 0 1 0 1 0xc 0 1 .w1c (.const 0x0) .none
/-- R478. SEM_ERR[1] admin_denied: By R470 -/
def SEM_ERR.admin_denied : Fld := .mk 13 0xc 0 1 0 1 0xc 1 1 .w1c (.const 0x0) .none
/-- R478. SEM_ERR[2] lease_expired: By R474 -/
def SEM_ERR.lease_expired : Fld := .mk 13 0xc 0 1 0 1 0xc 2 1 .w1c (.const 0x0) .none
/-- R478. SEM_ERR[3] owner_reset: By R475 -/
def SEM_ERR.owner_reset : Fld := .mk 13 0xc 0 1 0 1 0xc 3 1 .w1c (.const 0x0) .none
/-- R478. SEM_ERR[4] bad_op: By R469 -/
def SEM_ERR.bad_op : Fld := .mk 13 0xc 0 1 0 1 0xc 4 1 .w1c (.const 0x0) .none
/-- R478. SEM_GRANT_CNT[0] count: By R471 -/
def SEM_GRANT_CNT.count : Fld := .mk 13 0x10 0 1 0 1 0x10 0 32 .rc (.const 0x0) .none
/-- R478. SEM_WAIT_CNT[0] count: By R471 -/
def SEM_WAIT_CNT.count : Fld := .mk 13 0x14 0 1 0 1 0x14 0 32 .rc (.const 0x0) .none
/-- R478. SEM_LEASE_CNT[0] count: By R474 -/
def SEM_LEASE_CNT.count : Fld := .mk 13 0x18 0 1 0 1 0x18 0 32 .rc (.const 0x0) .none
/-- R478. SEM_RESET_CNT[0] count: By R475 -/
def SEM_RESET_CNT.count : Fld := .mk 13 0x1c 0 1 0 1 0x1c 0 32 .rc (.const 0x0) .none
/-- R478. SEM_DENIED_CNT[0] count: By R470 -/
def SEM_DENIED_CNT.count : Fld := .mk 13 0x20 0 1 0 1 0x20 0 32 .rc (.const 0x0) .none
/-- R478. SEM_GRP_USE_LO[0] initiators: By R470 -/
def SEM_GRP_USE_LO.initiators : Fld := .mk 13 0x100 0x10 32 0 1 0 0 32 .rw (.const 0x0003FFFF) .none
/-- R478. SEM_GRP_USE_HI[0] initiators: Bit i − 32 -/
def SEM_GRP_USE_HI.initiators : Fld := .mk 13 0x104 0x10 32 0 1 4 0 9 .rw (.const 0x000) .none
/-- R478. SEM_GRP_LEASE[0] us: By R474; 10 to 1,048,575 µs; smaller writes store 10 -/
def SEM_GRP_LEASE.us : Fld := .mk 13 0x108 0x10 32 0 1 8 0 20 .rw (.const 0x003E8) (.range 10 1048575)
/-- R478. SEM_STATE[0] owner: Owning initiator when held -/
def SEM_STATE.owner : Fld := .mk 13 0x1000 4 512 0 1 0x1000 0 6 .ro (.const 0x00) .none
/-- R478. SEM_STATE[6] held: 1: held -/
def SEM_STATE.held : Fld := .mk 13 0x1000 4 512 0 1 0x1000 6 1 .ro (.const 0x0) .none
/-- R478. SEM_STATE[7] owner_reset: By R476 -/
def SEM_STATE.owner_reset : Fld := .mk 13 0x1000 4 512 0 1 0x1000 7 1 .ro (.const 0x0) .none
/-- R478. SEM_STATE[8] lease_expired: By R476 -/
def SEM_STATE.lease_expired : Fld := .mk 13 0x1000 4 512 0 1 0x1000 8 1 .ro (.const 0x0) .none
/-- R478. SEM_STATE[9] waiters: Waits queued, 0 to 18 -/
def SEM_STATE.waiters : Fld := .mk 13 0x1000 4 512 0 1 0x1000 9 5 .ro (.const 0x00) .none
/-- R478. SEM_INI_RESULT[0] sem: Semaphore of the latest outcome -/
def SEM_INI_RESULT.sem : Fld := .mk 13 0x2000 4 41 0 1 0x2000 0 9 .ro (.const 0x000) .none
/-- R478. SEM_INI_RESULT[12] code: By R469; 0 none -/
def SEM_INI_RESULT.code : Fld := .mk 13 0x2000 4 41 0 1 0x2000 12 4 .ro (.const 0x0) .none
/-- R478. SEM_INI_RESULT[16] owner_reset: Copied at grant, by R476 -/
def SEM_INI_RESULT.owner_reset : Fld := .mk 13 0x2000 4 41 0 1 0x2000 16 1 .ro (.const 0x0) .none
/-- R478. SEM_INI_RESULT[17] lease_expired: Copied at grant, by R476 -/
def SEM_INI_RESULT.lease_expired : Fld := .mk 13 0x2000 4 41 0 1 0x2000 17 1 .ro (.const 0x0) .none
/-- R478. SEM_INI_WAIT[0] sem: Semaphore waited on -/
def SEM_INI_WAIT.sem : Fld := .mk 13 0x2100 4 41 0 1 0x2100 0 9 .ro (.const 0x000) .none
/-- R478. SEM_INI_WAIT[15] waiting: 1: wait queued -/
def SEM_INI_WAIT.waiting : Fld := .mk 13 0x2100 4 41 0 1 0x2100 15 1 .ro (.const 0x0) .none
/-- R478. SEM_INI_WAIT[16] prio: Request priority -/
def SEM_INI_WAIT.prio : Fld := .mk 13 0x2100 4 41 0 1 0x2100 16 3 .ro (.const 0x0) .none
/-- R478. SEM_INH[0] level: By R473 -/
def SEM_INH.level : Fld := .mk 13 0x2200 4 16 0 1 0x2200 0 3 .ro (.const 0x0) .none
/-- R478. SEM_INH[3] signalled: 1: level signalled to the scheduler -/
def SEM_INH.signalled : Fld := .mk 13 0x2200 4 16 0 1 0x2200 3 1 .ro (.const 0x0) .none

/-- Fields of page SEM, part 0. -/
def fieldsSEM0 : List Fld :=
  [SEM_ADMIN_LO.initiators, SEM_ADMIN_HI.initiators, SEM_REQ.sem, SEM_REQ.op,
   SEM_REQ.prio, SEM_ERR.denied, SEM_ERR.admin_denied, SEM_ERR.lease_expired,
   SEM_ERR.owner_reset, SEM_ERR.bad_op, SEM_GRANT_CNT.count, SEM_WAIT_CNT.count,
   SEM_LEASE_CNT.count, SEM_RESET_CNT.count, SEM_DENIED_CNT.count, SEM_GRP_USE_LO.initiators,
   SEM_GRP_USE_HI.initiators, SEM_GRP_LEASE.us, SEM_STATE.owner, SEM_STATE.held,
   SEM_STATE.owner_reset, SEM_STATE.lease_expired, SEM_STATE.waiters, SEM_INI_RESULT.sem,
   SEM_INI_RESULT.code, SEM_INI_RESULT.owner_reset, SEM_INI_RESULT.lease_expired, SEM_INI_WAIT.sem,
   SEM_INI_WAIT.waiting, SEM_INI_WAIT.prio, SEM_INH.level, SEM_INH.signalled]

/-- All fields of page SEM. -/
def fieldsSEM : List Fld := fieldsSEM0

/-- R393. CPU_INFO[0] core: Core number -/
def CPU_INFO.core : Fld := .mk 14 0 0x1000 5 0 1 0 0 3 .ro .inst .none
/-- R393. CPU_INFO[3] fpu: FPU present -/
def CPU_INFO.fpu : Fld := .mk 14 0 0x1000 5 0 1 0 3 1 .ro (.keeper 0x1 0x0) .none
/-- R393. CPU_INFO[4] threads: Hardware threads -/
def CPU_INFO.threads : Fld := .mk 14 0 0x1000 5 0 1 0 4 4 .ro (.keeper 0x4 0x1) .none
/-- R393. CPU_INFO[8] lram_kib: Local RAM in KiB -/
def CPU_INFO.lram_kib : Fld := .mk 14 0 0x1000 5 0 1 0 8 8 .ro (.keeper 0x80 0x40) .none
/-- R393. CPU_ISA_VER[0] minor: Instruction-set minor version -/
def CPU_ISA_VER.minor : Fld := .mk 14 4 0x1000 5 0 1 4 0 16 .ro (.const 0x0000) .none
/-- R393. CPU_ISA_VER[16] major: Instruction-set major version -/
def CPU_ISA_VER.major : Fld := .mk 14 4 0x1000 5 0 1 4 16 16 .ro (.const 0x0001) .none
/-- R393. CPU_LRAM_CORR_CNT[0] count: By R361 -/
def CPU_LRAM_CORR_CNT.count : Fld := .mk 14 8 0x1000 5 0 1 8 0 32 .rc (.const 0x0) .none
/-- R393. CPU_LRAM_UNCORR_CNT[0] count: By R361 -/
def CPU_LRAM_UNCORR_CNT.count : Fld := .mk 14 0xc 0x1000 5 0 1 0xc 0 32 .rc (.const 0x0) .none
/-- R393. CPU_LRAM_EXT_STALL[0] cycles: Ring accesses delayed, by R361 -/
def CPU_LRAM_EXT_STALL.cycles : Fld := .mk 14 0x10 0x1000 5 0 1 0x10 0 32 .rc (.const 0x0) .none
/-- R393. CPU_ISA_ERR[0] lram_corrected: By R361 -/
def CPU_ISA_ERR.lram_corrected : Fld := .mk 14 0x14 0x1000 5 0 1 0x14 0 1 .w1c (.const 0x0) .none
/-- R393. CPU_ISA_ERR[1] lram_uncorrectable: By R361 -/
def CPU_ISA_ERR.lram_uncorrectable : Fld := .mk 14 0x14 0x1000 5 0 1 0x14 1 1 .w1c (.const 0x0) .none
/-- R393. CPU_ISA_ERR[2] posted_bus_err: By R374 -/
def CPU_ISA_ERR.posted_bus_err : Fld := .mk 14 0x14 0x1000 5 0 1 0x14 2 1 .w1c (.const 0x0) .none
/-- R424. CPU_SCHED[0] starve: By R401; 0 disables -/
def CPU_SCHED.starve : Fld := .mk 14 0x20 0x1000 5 0 1 0x20 0 8 .rw (.const 0x10) .none
/-- R424. CPU_THR_ERR[0] double_fault: Bit t: thread t double-faulted, by R415 -/
def CPU_THR_ERR.double_fault : Fld := .mk 14 0x24 0x1000 5 0 1 0x24 0 4 .w1c (.const 0x0) .none
/-- R424. CPU_THR_ERR[4] start_refused: Bit 4 + t, by R396 -/
def CPU_THR_ERR.start_refused : Fld := .mk 14 0x24 0x1000 5 0 1 0x24 4 4 .w1c (.const 0x0) .none
/-- R424. CPU_THR_ERR[8] impr_lost: Bit 8 + t, by R398 and R409 -/
def CPU_THR_ERR.impr_lost : Fld := .mk 14 0x24 0x1000 5 0 1 0x24 8 4 .w1c (.const 0x0) .none
/-- R424. CPU_THR_CTRL[0] dbg_en: By R396 and R406 -/
def CPU_THR_CTRL.dbg_en : Fld := .mk 14 0x100 0x1000 5 0x40 4 0 0 1 .rw (.const 0x0) .none
/-- R424. CPU_THR_CMD[0] start: By R396 -/
def CPU_THR_CMD.start : Fld := .mk 14 0x104 0x1000 5 0x40 4 4 0 1 .wo (.const 0x0) .none
/-- R424. CPU_THR_CMD[1] stop: By R396 and R398 -/
def CPU_THR_CMD.stop : Fld := .mk 14 0x104 0x1000 5 0x40 4 4 1 1 .wo (.const 0x0) .none
/-- R424. CPU_THR_PC_START[2] pc: Start address, by R397 -/
def CPU_THR_PC_START.pc : Fld := .mk 14 0x108 0x1000 5 0x40 4 8 2 30 .rw (.const 0x0) .none
/-- R424. CPU_THR_STATUS[0] state: By R395 -/
def CPU_THR_STATUS.state : Fld := .mk 14 0x10c 0x1000 5 0x40 4 0xc 0 3 .ro (.const 0x0) .none
/-- R424. CPU_THR_STATUS[3] in_trap: In the trap window -/
def CPU_THR_STATUS.in_trap : Fld := .mk 14 0x10c 0x1000 5 0x40 4 0xc 3 1 .ro (.const 0x0) .none
/-- R424. CPU_THR_STATUS[4] eff_prio: Effective priority, by R400 -/
def CPU_THR_STATUS.eff_prio : Fld := .mk 14 0x10c 0x1000 5 0x40 4 0xc 4 3 .ro (.const 0x0) .none
/-- R424. CPU_THR_STATUS[7] inherited: Inherited priority above base -/
def CPU_THR_STATUS.inherited : Fld := .mk 14 0x10c 0x1000 5 0x40 4 0xc 7 1 .ro (.const 0x0) .none
/-- R424. CPU_THR_STATUS[8] armed: In WAIT with an armed source or pending event -/
def CPU_THR_STATUS.armed : Fld := .mk 14 0x10c 0x1000 5 0x40 4 0xc 8 1 .ro (.const 0x0) .none
/-- R424. CPU_THR_PC[2] pc: Address of the next instruction -/
def CPU_THR_PC.pc : Fld := .mk 14 0x110 0x1000 5 0x40 4 0x10 2 30 .ro (.const 0x0) .none
/-- R424. CPU_THR_EVENTS[0] events: Software events; a write acts as SIGE, by R403 -/
def CPU_THR_EVENTS.events : Fld := .mk 14 0x114 0x1000 5 0x40 4 0x14 0 16 .w1s (.const 0x0000) .none
/-- R424. CPU_THR_EVEN[16] en: Enable of hardware event bits, by R402 -/
def CPU_THR_EVEN.en : Fld := .mk 14 0x118 0x1000 5 0x40 4 0x18 16 8 .rw (.const 0x00) .none
/-- R424. CPU_THR_WMASK[0] mask: Wait mask in WAIT -/
def CPU_THR_WMASK.mask : Fld := .mk 14 0x11c 0x1000 5 0x40 4 0x1c 0 32 .ro (.const 0x0) .none
/-- R424. CPU_THR_TMR_LOAD[0] reload: µs, by R405; a write of 0 stores 1 -/
def CPU_THR_TMR_LOAD.reload : Fld := .mk 14 0x120 0x1000 5 0x40 4 0x20 0 24 .rw (.const 0x000001) (.range 1 16777215)
/-- R424. CPU_THR_TMR_LOAD[24] periodic: 1: periodic -/
def CPU_THR_TMR_LOAD.periodic : Fld := .mk 14 0x120 0x1000 5 0x40 4 0x20 24 1 .rw (.const 0x0) .none
/-- R424. CPU_THR_TMR_STAT[0] count: Current count -/
def CPU_THR_TMR_STAT.count : Fld := .mk 14 0x124 0x1000 5 0x40 4 0x24 0 24 .ro (.const 0x000000) .none
/-- R424. CPU_THR_TMR_STAT[24] running: Running bit -/
def CPU_THR_TMR_STAT.running : Fld := .mk 14 0x124 0x1000 5 0x40 4 0x24 24 1 .ro (.const 0x0) .none
/-- R424. CPU_THR_TMR_STAT[28] start: By R405 -/
def CPU_THR_TMR_STAT.start : Fld := .mk 14 0x124 0x1000 5 0x40 4 0x24 28 1 .wo (.const 0x0) .none
/-- R424. CPU_THR_TMR_STAT[29] stop: By R405 -/
def CPU_THR_TMR_STAT.stop : Fld := .mk 14 0x124 0x1000 5 0x40 4 0x24 29 1 .wo (.const 0x0) .none
/-- R424. CPU_THR_DFAULT[0] cause1: First cause -/
def CPU_THR_DFAULT.cause1 : Fld := .mk 14 0x128 0x1000 5 0x40 4 0x28 0 5 .ro (.const 0x00) .none
/-- R424. CPU_THR_DFAULT[8] cause2: Second cause, by R415 -/
def CPU_THR_DFAULT.cause2 : Fld := .mk 14 0x128 0x1000 5 0x40 4 0x28 8 5 .ro (.const 0x00) .none
/-- R424. CPU_THR_DFAULT[31] valid: 1: double fault recorded; cleared by start -/
def CPU_THR_DFAULT.valid : Fld := .mk 14 0x128 0x1000 5 0x40 4 0x28 31 1 .ro (.const 0x0) .none
/-- R424. CPU_THR_DF_PC[2] pc: By R415 -/
def CPU_THR_DF_PC.pc : Fld := .mk 14 0x12c 0x1000 5 0x40 4 0x2c 2 30 .ro (.const 0x0) .none
/-- R424. CPU_THR_TRAP_CNT[0] count: Traps entered -/
def CPU_THR_TRAP_CNT.count : Fld := .mk 14 0x130 0x1000 5 0x40 4 0x30 0 32 .rc (.const 0x0) .none
/-- R424. CPU_THR_RS_TRAP_CNT[0] count: By R413, saturating -/
def CPU_THR_RS_TRAP_CNT.count : Fld := .mk 14 0x134 0x1000 5 0x40 4 0x34 0 16 .rc (.const 0x0000) .none
/-- R424. CPU_THR_IMPR_LOST_CNT[0] count: By R398 and R409, saturating -/
def CPU_THR_IMPR_LOST_CNT.count : Fld := .mk 14 0x138 0x1000 5 0x40 4 0x38 0 16 .rc (.const 0x0000) .none
/-- R425. CPU_BLACKOUT_CTRL[0] enable: By R421 -/
def CPU_BLACKOUT_CTRL.enable : Fld := .mk 14 0x8000 0 1 0 1 0x8000 0 1 .rw (.const 0x1) .none
/-- R425. CPU_BLACKOUT_STATUS[0] last: Bitmap of the latest Blackout -/
def CPU_BLACKOUT_STATUS.last : Fld := .mk 14 0x8004 0 1 0 1 0x8004 0 16 .ro (.const 0x0000) .none
/-- R425. CPU_BLACKOUT_STATUS[16] armed: Detector armed, by R421 -/
def CPU_BLACKOUT_STATUS.armed : Fld := .mk 14 0x8004 0 1 0 1 0x8004 16 1 .ro (.const 0x1) .none
/-- R425. CPU_BLACKOUT_STATUS[17] undelivered: By R420 -/
def CPU_BLACKOUT_STATUS.undelivered : Fld := .mk 14 0x8004 0 1 0 1 0x8004 17 1 .w1c (.const 0x0) .none
/-- R425. CPU_BLACKOUT_CNT[0] count: By R419 -/
def CPU_BLACKOUT_CNT.count : Fld := .mk 14 0x8008 0 1 0 1 0x8008 0 32 .rc (.const 0x0) .none

/-- Fields of page CPU, part 0. -/
def fieldsCPU0 : List Fld :=
  [CPU_INFO.core, CPU_INFO.fpu, CPU_INFO.threads, CPU_INFO.lram_kib,
   CPU_ISA_VER.minor, CPU_ISA_VER.major, CPU_LRAM_CORR_CNT.count, CPU_LRAM_UNCORR_CNT.count,
   CPU_LRAM_EXT_STALL.cycles, CPU_ISA_ERR.lram_corrected, CPU_ISA_ERR.lram_uncorrectable, CPU_ISA_ERR.posted_bus_err,
   CPU_SCHED.starve, CPU_THR_ERR.double_fault, CPU_THR_ERR.start_refused, CPU_THR_ERR.impr_lost,
   CPU_THR_CTRL.dbg_en, CPU_THR_CMD.start, CPU_THR_CMD.stop, CPU_THR_PC_START.pc,
   CPU_THR_STATUS.state, CPU_THR_STATUS.in_trap, CPU_THR_STATUS.eff_prio, CPU_THR_STATUS.inherited,
   CPU_THR_STATUS.armed, CPU_THR_PC.pc, CPU_THR_EVENTS.events, CPU_THR_EVEN.en,
   CPU_THR_WMASK.mask, CPU_THR_TMR_LOAD.reload, CPU_THR_TMR_LOAD.periodic, CPU_THR_TMR_STAT.count,
   CPU_THR_TMR_STAT.running, CPU_THR_TMR_STAT.start, CPU_THR_TMR_STAT.stop, CPU_THR_DFAULT.cause1,
   CPU_THR_DFAULT.cause2, CPU_THR_DFAULT.valid, CPU_THR_DF_PC.pc, CPU_THR_TRAP_CNT.count]

/-- Fields of page CPU, part 1. -/
def fieldsCPU1 : List Fld :=
  [CPU_THR_RS_TRAP_CNT.count, CPU_THR_IMPR_LOST_CNT.count, CPU_BLACKOUT_CTRL.enable, CPU_BLACKOUT_STATUS.last,
   CPU_BLACKOUT_STATUS.armed, CPU_BLACKOUT_STATUS.undelivered, CPU_BLACKOUT_CNT.count]

/-- All fields of page CPU. -/
def fieldsCPU : List Fld := fieldsCPU0 ++ fieldsCPU1

end Sys2Proof.Machine
end

