-- ==== Sys2Proof/Machine/RegsSystem.lean ====
section
/-! DEFINITION. The register fields of the SYS, BOT, PWR, ERQ and DBG pages (R639, R580, R579, R602, R640), one descriptor each: page, base offset, strides and
instance counts, offset in the block, lowest bit, width, access code and reset value, as the tables give them. -/

namespace Sys2Proof.Machine

/-- R639. SYS_STEPPING[4] letter: 1 = A -/
def SYS_STEPPING.letter : Fld := .mk 0 0 0 1 0 1 0 4 4 .ro (.const 0x1) .none
/-- R639. SYS_STEPPING[0] number: Stepping A1 -/
def SYS_STEPPING.number : Fld := .mk 0 0 0 1 0 1 0 0 4 .ro (.const 0x1) .none
/-- R639. SYS_ID[0] grade: Speed grade: 0x20 for 32, 0x1C for 28 -/
def SYS_ID.grade : Fld := .mk 0 4 0 1 0 1 4 0 8 .ro .fuse .none
/-- R639. SYS_ID[8] temp: 0 grade C, 1 grade E -/
def SYS_ID.temp : Fld := .mk 0 4 0 1 0 1 4 8 1 .ro .fuse .none
/-- R639. SYS_SERIAL_LO[0] serial: Device serial [31:0] -/
def SYS_SERIAL_LO.serial : Fld := .mk 0 8 0 1 0 1 8 0 32 .ro .fuse .none
/-- R639. SYS_SERIAL_HI[0] serial: Serial [63:32] -/
def SYS_SERIAL_HI.serial : Fld := .mk 0 0xc 0 1 0 1 0xc 0 32 .ro .fuse .none
/-- R639. SYS_JTAG_ID[0] one: as its register -/
def SYS_JTAG_ID.one : Fld := .mk 0 0x10 0 1 0 1 0x10 0 1 .ro (.const 0x1) .none
/-- R639. SYS_JTAG_ID[1] maker: Manufacturer identity -/
def SYS_JTAG_ID.maker : Fld := .mk 0 0x10 0 1 0 1 0x10 1 11 .ro .fuse .none
/-- R639. SYS_JTAG_ID[12] part: as its register -/
def SYS_JTAG_ID.part : Fld := .mk 0 0x10 0 1 0 1 0x10 12 16 .ro (.const 0x0131) .none
/-- R639. SYS_JTAG_ID[28] version: Stepping number -/
def SYS_JTAG_ID.version : Fld := .mk 0 0x10 0 1 0 1 0x10 28 4 .ro (.const 0x1) .none
/-- R639. SYS_SUPPLY[0] core_ok: VDD_CORE above the R619 threshold -/
def SYS_SUPPLY.core_ok : Fld := .mk 0 0x14 0 1 0 1 0x14 0 1 .ro (.const 0x1) .none
/-- R639. SYS_SUPPLY[1] sram_ok: VDD_SRAM above it -/
def SYS_SUPPLY.sram_ok : Fld := .mk 0 0x14 0 1 0 1 0x14 1 1 .ro (.const 0x1) .none
/-- R639. SYS_TEMP[0] island: Hottest island, 0.125 °C, signed -/
def SYS_TEMP.island : Fld := .mk 0 0x18 0 1 0 1 0x18 0 12 .ro (.const 0x000) .none
/-- R639. SYS_TEMP[16] hbm: Hottest stack, °C -/
def SYS_TEMP.hbm : Fld := .mk 0 0x18 0 1 0 1 0x18 16 8 .ro (.const 0x00) .none
/-- R639. SYS_TRIP[0] tripped: By R620 -/
def SYS_TRIP.tripped : Fld := .mk 0 0x1c 0 1 0 1 0x1c 0 1 .ro (.const 0x0) .none
/-- R639. SYS_TRIP[1] prior: By R620 -/
def SYS_TRIP.prior : Fld := .mk 0 0x1c 0 1 0 1 0x1c 1 1 .ro (.const 0x0) .none
/-- R639. SYS_TRIP[8] trip_c: 110 or 120 -/
def SYS_TRIP.trip_c : Fld := .mk 0 0x1c 0 1 0 1 0x1c 8 8 .ro .fuse .none
/-- R639. SYS_SMB_CFG[0] addr: By R629 -/
def SYS_SMB_CFG.addr : Fld := .mk 0 0x20 0 1 0 1 0x20 0 7 .rw (.const 0x2D) .none
/-- R639. SYS_SMB_CFG[8] pec_req: By R629 -/
def SYS_SMB_CFG.pec_req : Fld := .mk 0 0x20 0 1 0 1 0x20 8 1 .rw (.const 0x0) .none
/-- R639. SYS_SMB_CFG[9] enable: 0: the target NACKs its address -/
def SYS_SMB_CFG.enable : Fld := .mk 0 0x20 0 1 0 1 0x20 9 1 .rw (.const 0x1) .none
/-- R639. SYS_ERR[0] brownout: By R619 -/
def SYS_ERR.brownout : Fld := .mk 0 0x24 0 1 0 1 0x24 0 1 .w1c (.const 0x0) .none
/-- R639. SYS_ERR[1] thermtrip: By R620 -/
def SYS_ERR.thermtrip : Fld := .mk 0 0x24 0 1 0 1 0x24 1 1 .w1c (.const 0x0) .none
/-- R639. SYS_ERR[2] smb_pec: By R629 -/
def SYS_ERR.smb_pec : Fld := .mk 0 0x24 0 1 0 1 0x24 2 1 .w1c (.const 0x0) .none
/-- R639. SYS_ERR[3] smb_nack: By R629 -/
def SYS_ERR.smb_nack : Fld := .mk 0 0x24 0 1 0 1 0x24 3 1 .w1c (.const 0x0) .none
/-- R639. SYS_BROWNOUT_CNT[0] count: By R619; kept in retention -/
def SYS_BROWNOUT_CNT.count : Fld := .mk 0 0x28 0 1 0 1 0x28 0 32 .rc (.const 0x0) .none

/-- Fields of page SYS, part 0. -/
def fieldsSYS0 : List Fld :=
  [SYS_STEPPING.letter, SYS_STEPPING.number, SYS_ID.grade, SYS_ID.temp,
   SYS_SERIAL_LO.serial, SYS_SERIAL_HI.serial, SYS_JTAG_ID.one, SYS_JTAG_ID.maker,
   SYS_JTAG_ID.part, SYS_JTAG_ID.version, SYS_SUPPLY.core_ok, SYS_SUPPLY.sram_ok,
   SYS_TEMP.island, SYS_TEMP.hbm, SYS_TRIP.tripped, SYS_TRIP.prior,
   SYS_TRIP.trip_c, SYS_SMB_CFG.addr, SYS_SMB_CFG.pec_req, SYS_SMB_CFG.enable,
   SYS_ERR.brownout, SYS_ERR.thermtrip, SYS_ERR.smb_pec, SYS_ERR.smb_nack,
   SYS_BROWNOUT_CNT.count]

/-- All fields of page SYS. -/
def fieldsSYS : List Fld := fieldsSYS0

/-- R580. BOT_STATUS[0] step: By R568 -/
def BOT_STATUS.step : Fld := .mk 19 0 0 1 0 1 0 0 4 .ro (.const 0x0) .none
/-- R580. BOT_STATUS[4] dawn_done: By R568 -/
def BOT_STATUS.dawn_done : Fld := .mk 19 0 0 1 0 1 0 4 1 .ro (.const 0x0) .none
/-- R580. BOT_STATUS[5] bootmode: By R569 -/
def BOT_STATUS.bootmode : Fld := .mk 19 0 0 1 0 1 0 5 3 .ro (.const 0x0) .none
/-- R580. BOT_STATUS[8] err: By R575 -/
def BOT_STATUS.err : Fld := .mk 19 0 0 1 0 1 0 8 5 .ro (.const 0x00) .none
/-- R580. BOT_STATUS[16] fallback: By R575 -/
def BOT_STATUS.fallback : Fld := .mk 19 0 0 1 0 1 0 16 1 .ro (.const 0x0) .none
/-- R580. BOT_STATUS[17] from_flash: A region reloaded from flash in D7 -/
def BOT_STATUS.from_flash : Fld := .mk 19 0 0 1 0 1 0 17 1 .ro (.const 0x0) .none
/-- R580. BOT_STATUS[18] pwrgd_loss: By R566 -/
def BOT_STATUS.pwrgd_loss : Fld := .mk 19 0 0 1 0 1 0 18 1 .ro (.const 0x0) .none
/-- R580. BOT_ROM_VER[0] ver: Boot ROM -/
def BOT_ROM_VER.ver : Fld := .mk 19 4 0 1 0 1 4 0 32 .ro (.const 0x00010000) .none
/-- R580. BOT_KEEPER_VER[0] ver: image_ver -/
def BOT_KEEPER_VER.ver : Fld := .mk 19 8 0 1 0 1 8 0 32 .ro (.const 0) .none
/-- R580. BOT_CORE_VER[0] ver: Core c, c = 0 to 3 -/
def BOT_CORE_VER.ver : Fld := .mk 19 0xc 4 4 0 1 0xc 0 32 .ro (.const 0) .none
/-- R580. BOT_PATCH_VER[0] ver: By R574 -/
def BOT_PATCH_VER.ver : Fld := .mk 19 0x1c 0 1 0 1 0x1c 0 32 .ro (.const 0) .none
/-- R580. BOT_CFG_VER[0] ver: Stored configuration; 0 none -/
def BOT_CFG_VER.ver : Fld := .mk 19 0x20 0 1 0 1 0x20 0 32 .ro (.const 0) .none
/-- R580. BOT_CFG_GEN[0] gen: Generation in force -/
def BOT_CFG_GEN.gen : Fld := .mk 19 0x24 0 1 0 1 0x24 0 31 .ro (.const 0) .none
/-- R580. BOT_CFG_GEN[31] slot: Slot in force -/
def BOT_CFG_GEN.slot : Fld := .mk 19 0x24 0 1 0 1 0x24 31 1 .ro (.const 0) .none
/-- R580. BOT_CFG_REFUSED[0] count: By R577 -/
def BOT_CFG_REFUSED.count : Fld := .mk 19 0x28 0 1 0 1 0x28 0 16 .ro (.const 0x0000) .none
/-- R580. BOT_CFG_REFUSED[16] first: Number of the first refused record -/
def BOT_CFG_REFUSED.first : Fld := .mk 19 0x28 0 1 0 1 0x28 16 16 .ro (.const 0x0000) .none
/-- R580. BOT_DAWN_CNT[0] count: By R568 -/
def BOT_DAWN_CNT.count : Fld := .mk 19 0x2c 0 1 0 1 0x2c 0 32 .ro (.const 0) .none
/-- R580. BOT_DAWN_US[0] us: Duration of the last Dawn -/
def BOT_DAWN_US.us : Fld := .mk 19 0x30 0 1 0 1 0x30 0 32 .ro (.const 0x0) .none
/-- R580. BOT_FLASH[0] density: log₂ of bytes -/
def BOT_FLASH.density : Fld := .mk 19 0x34 0 1 0 1 0x34 0 8 .ro (.const 0x00) .none
/-- R580. BOT_FLASH[8] read: Read instruction -/
def BOT_FLASH.read : Fld := .mk 19 0x34 0 1 0 1 0x34 8 8 .ro (.const 0x00) .none
/-- R580. BOT_FLASH[16] dummy: Dummy cycles -/
def BOT_FLASH.dummy : Fld := .mk 19 0x34 0 1 0 1 0x34 16 5 .ro (.const 0x00) .none
/-- R580. BOT_FLASH[24] sck_mhz: By R570 -/
def BOT_FLASH.sck_mhz : Fld := .mk 19 0x34 0 1 0 1 0x34 24 8 .ro (.const 0x00) .none
/-- R580. BOT_QSPI_DIV[0] div: By R570; writes below 2 store 2 -/
def BOT_QSPI_DIV.div : Fld := .mk 19 0x38 0 1 0 1 0x38 0 4 .rw (.const 0x2) (.range 2 15)
/-- R580. BOT_FUSE[0] vendor_key: Vendor key hash programmed -/
def BOT_FUSE.vendor_key : Fld := .mk 19 0x3c 0 1 0 1 0x3c 0 1 .ro .fuse .none
/-- R580. BOT_FUSE[1] owner_key: By R573 -/
def BOT_FUSE.owner_key : Fld := .mk 19 0x3c 0 1 0 1 0x3c 1 1 .ro .fuse .none
/-- R580. BOT_FUSE[2] patch_key: Patch key programmed -/
def BOT_FUSE.patch_key : Fld := .mk 19 0x3c 0 1 0 1 0x3c 2 1 .ro .fuse .none
/-- R580. BOT_STORE_ADDR_LO[0] addr: By R578 -/
def BOT_STORE_ADDR_LO.addr : Fld := .mk 19 0x40 0 1 0 1 0x40 0 32 .rw (.const 0x0) .none
/-- R580. BOT_STORE_ADDR_HI[0] addr: Bits [39:32] -/
def BOT_STORE_ADDR_HI.addr : Fld := .mk 19 0x44 0 1 0 1 0x44 0 8 .rw (.const 0x00) .none
/-- R580. BOT_STORE_LEN[0] bytes: By R578 -/
def BOT_STORE_LEN.bytes : Fld := .mk 19 0x48 0 1 0 1 0x48 0 24 .rw (.const 0x000000) .none
/-- R580. BOT_STORE_CMD[0] store: By R578 -/
def BOT_STORE_CMD.store : Fld := .mk 19 0x4c 0 1 0 1 0x4c 0 1 .wo (.const 0x0) .none
/-- R580. BOT_STORE_CMD[1] abort: By R578 -/
def BOT_STORE_CMD.abort : Fld := .mk 19 0x4c 0 1 0 1 0x4c 1 1 .wo (.const 0x0) .none
/-- R580. BOT_STORE_ERR[0] code: By R578 -/
def BOT_STORE_ERR.code : Fld := .mk 19 0x50 0 1 0 1 0x50 0 8 .ro (.const 0x00) .none
/-- R580. BOT_KEEPER_RST_CNT[0] count: By R567 -/
def BOT_KEEPER_RST_CNT.count : Fld := .mk 19 0x54 0 1 0 1 0x54 0 32 .rc (.const 0x0) .none
/-- R580. BOT_ERR[0] sig_fail: By R575 -/
def BOT_ERR.sig_fail : Fld := .mk 19 0x58 0 1 0 1 0x58 0 1 .w1c (.const 0x0) .none
/-- R580. BOT_ERR[1] crc_fail: By R575 -/
def BOT_ERR.crc_fail : Fld := .mk 19 0x58 0 1 0 1 0x58 1 1 .w1c (.const 0x0) .none
/-- R580. BOT_ERR[2] flash_fail: Flash access failed -/
def BOT_ERR.flash_fail : Fld := .mk 19 0x58 0 1 0 1 0x58 2 1 .w1c (.const 0x0) .none
/-- R580. BOT_ERR[3] patch_fail: By R574 -/
def BOT_ERR.patch_fail : Fld := .mk 19 0x58 0 1 0 1 0x58 3 1 .w1c (.const 0x0) .none
/-- R580. BOT_ERR[4] cfg_refused: By R577 -/
def BOT_ERR.cfg_refused : Fld := .mk 19 0x58 0 1 0 1 0x58 4 1 .w1c (.const 0x0) .none
/-- R580. BOT_ERR[5] store_fail: By R578 -/
def BOT_ERR.store_fail : Fld := .mk 19 0x58 0 1 0 1 0x58 5 1 .w1c (.const 0x0) .none

/-- Fields of page BOT, part 0. -/
def fieldsBOT0 : List Fld :=
  [BOT_STATUS.step, BOT_STATUS.dawn_done, BOT_STATUS.bootmode, BOT_STATUS.err,
   BOT_STATUS.fallback, BOT_STATUS.from_flash, BOT_STATUS.pwrgd_loss, BOT_ROM_VER.ver,
   BOT_KEEPER_VER.ver, BOT_CORE_VER.ver, BOT_PATCH_VER.ver, BOT_CFG_VER.ver,
   BOT_CFG_GEN.gen, BOT_CFG_GEN.slot, BOT_CFG_REFUSED.count, BOT_CFG_REFUSED.first,
   BOT_DAWN_CNT.count, BOT_DAWN_US.us, BOT_FLASH.density, BOT_FLASH.read,
   BOT_FLASH.dummy, BOT_FLASH.sck_mhz, BOT_QSPI_DIV.div, BOT_FUSE.vendor_key,
   BOT_FUSE.owner_key, BOT_FUSE.patch_key, BOT_STORE_ADDR_LO.addr, BOT_STORE_ADDR_HI.addr,
   BOT_STORE_LEN.bytes, BOT_STORE_CMD.store, BOT_STORE_CMD.abort, BOT_STORE_ERR.code,
   BOT_KEEPER_RST_CNT.count, BOT_ERR.sig_fail, BOT_ERR.crc_fail, BOT_ERR.flash_fail,
   BOT_ERR.patch_fail, BOT_ERR.cfg_refused, BOT_ERR.store_fail]

/-- All fields of page BOT. -/
def fieldsBOT : List Fld := fieldsBOT0

/-- R579. PWR_STATUS[0] state: 0 Run, 1 Doze, 2 Eclipse, 3 entering Eclipse, 4 leaving Eclipse, 5 Dusk, 6 Dusk complete -/
def PWR_STATUS.state : Fld := .mk 18 0 0 1 0 1 0 0 3 .ro (.const 0x0) .none
/-- R579. PWR_STATUS[3] committed: Sequence past its commit point -/
def PWR_STATUS.committed : Fld := .mk 18 0 0 1 0 1 0 3 1 .ro (.const 0x0) .none
/-- R579. PWR_CMD[0] run: By R557 -/
def PWR_CMD.run : Fld := .mk 18 4 0 1 0 1 4 0 1 .wo (.const 0x0) .none
/-- R579. PWR_CMD[1] doze: By R557 -/
def PWR_CMD.doze : Fld := .mk 18 4 0 1 0 1 4 1 1 .wo (.const 0x0) .none
/-- R579. PWR_CMD[2] eclipse: By R557 and R558 -/
def PWR_CMD.eclipse : Fld := .mk 18 4 0 1 0 1 4 2 1 .wo (.const 0x0) .none
/-- R579. PWR_CMD[3] dusk: By R564 -/
def PWR_CMD.dusk : Fld := .mk 18 4 0 1 0 1 4 3 1 .wo (.const 0x0) .none
/-- R579. PWR_CMD[4] abort: By R558 and R564 -/
def PWR_CMD.abort : Fld := .mk 18 4 0 1 0 1 4 4 1 .wo (.const 0x0) .none
/-- R579. PWR_CMD[5] dev_reset: By R567 -/
def PWR_CMD.dev_reset : Fld := .mk 18 4 0 1 0 1 4 5 1 .wo (.const 0x0) .none
/-- R579. PWR_CMD[6] kick: Restarts the watchdog -/
def PWR_CMD.kick : Fld := .mk 18 4 0 1 0 1 4 6 1 .wo (.const 0x0) .none
/-- R579. PWR_WAKE_EN[0] en: By R560 -/
def PWR_WAKE_EN.en : Fld := .mk 18 8 0 1 0 1 8 0 4 .rw (.const 0x7) .none
/-- R579. PWR_WAKE_SRC[0] src: Sources that fired -/
def PWR_WAKE_SRC.src : Fld := .mk 18 0xc 0 1 0 1 0xc 0 4 .w1c (.const 0x0) .none
/-- R579. PWR_DRAIN[0] us: By R558 -/
def PWR_DRAIN.us : Fld := .mk 18 0x10 0 1 0 1 0x10 0 16 .rw (.const 0x03E8) .none
/-- R579. PWR_GRACE[0] ms: By R558 -/
def PWR_GRACE.ms : Fld := .mk 18 0x14 0 1 0 1 0x14 0 16 .rw (.const 0x000A) .none
/-- R579. PWR_RESET[0] core: By R567 -/
def PWR_RESET.core : Fld := .mk 18 0x18 0 1 0 1 0x18 0 4 .wo (.const 0x0) .none
/-- R579. PWR_RESET[4] dma: By R567 -/
def PWR_RESET.dma : Fld := .mk 18 0x18 0 1 0 1 0x18 4 2 .wo (.const 0x0) .none
/-- R579. PWR_RESET[6] edge: By R567 -/
def PWR_RESET.edge : Fld := .mk 18 0x18 0 1 0 1 0x18 6 1 .wo (.const 0x0) .none
/-- R579. PWR_RESET[7] gnomon: By R567 -/
def PWR_RESET.gnomon : Fld := .mk 18 0x18 0 1 0 1 0x18 7 1 .wo (.const 0x0) .none
/-- R579. PWR_RESET[8] worga: By R567 -/
def PWR_RESET.worga : Fld := .mk 18 0x18 0 1 0 1 0x18 8 1 .wo (.const 0x0) .none
/-- R579. PWR_RESET[9] readout: By R567 -/
def PWR_RESET.readout : Fld := .mk 18 0x18 0 1 0 1 0x18 9 1 .wo (.const 0x0) .none
/-- R579. PWR_WDOG[0] ms: Keeper watchdog; 0 off -/
def PWR_WDOG.ms : Fld := .mk 18 0x1c 0 1 0 1 0x1c 0 16 .rw (.const 0x03E8) .none
/-- R579. PWR_SCRUB[0] ms: By R559; writes below 10 store 10 -/
def PWR_SCRUB.ms : Fld := .mk 18 0x20 0 1 0 1 0x20 0 16 .rw (.const 0x03E8) (.range 10 65535)
/-- R579. PWR_ERR[0] cmd_refused: By R557 -/
def PWR_ERR.cmd_refused : Fld := .mk 18 0x24 0 1 0 1 0x24 0 1 .w1c (.const 0x0) .none
/-- R579. PWR_ERR[1] aborted: By R558 -/
def PWR_ERR.aborted : Fld := .mk 18 0x24 0 1 0 1 0x24 1 1 .w1c (.const 0x0) .none
/-- R579. PWR_ERR[2] abort_too_late: By R558 -/
def PWR_ERR.abort_too_late : Fld := .mk 18 0x24 0 1 0 1 0x24 2 1 .w1c (.const 0x0) .none
/-- R579. PWR_ERR[3] wdog: By R567 -/
def PWR_ERR.wdog : Fld := .mk 18 0x24 0 1 0 1 0x24 3 1 .w1c (.const 0x0) .none
/-- R579. PWR_ERR[4] ret_corrected: By R559 -/
def PWR_ERR.ret_corrected : Fld := .mk 18 0x24 0 1 0 1 0x24 4 1 .w1c (.const 0x0) .none
/-- R579. PWR_ERR[5] ret_uncorrectable: By R559 -/
def PWR_ERR.ret_uncorrectable : Fld := .mk 18 0x24 0 1 0 1 0x24 5 1 .w1c (.const 0x0) .none
/-- R579. PWR_RET_CORR_CNT[0] count: By R559 -/
def PWR_RET_CORR_CNT.count : Fld := .mk 18 0x28 0 1 0 1 0x28 0 32 .rc (.const 0x0) .none
/-- R579. PWR_RET_UNCORR_CNT[0] count: By R559 -/
def PWR_RET_UNCORR_CNT.count : Fld := .mk 18 0x2c 0 1 0 1 0x2c 0 32 .rc (.const 0x0) .none
/-- R579. PWR_LOST_EVT_CNT[0] count: By R558 -/
def PWR_LOST_EVT_CNT.count : Fld := .mk 18 0x30 0 1 0 1 0x30 0 32 .rc (.const 0x0) .none
/-- R579. PWR_ECLIPSE_CNT[0] count: By R558 -/
def PWR_ECLIPSE_CNT.count : Fld := .mk 18 0x34 0 1 0 1 0x34 0 32 .rc (.const 0x0) .none
/-- R579. PWR_EXIT_US[0] us: By R563 -/
def PWR_EXIT_US.us : Fld := .mk 18 0x38 0 1 0 1 0x38 0 16 .ro (.const 0x0000) .none
/-- R579. PWR_THR_RESTART[0] threads: Bit 4c + t, by R558 -/
def PWR_THR_RESTART.threads : Fld := .mk 18 0x3c 0 1 0 1 0x3c 0 17 .ro (.const 0x00000) .none
/-- R579. PWR_FACET_RESUME_LO[0] facets: Bit f: facet f moved from RUN to HALT at the latest Eclipse entry, f = 0 to 31, by R558 an -/
def PWR_FACET_RESUME_LO.facets : Fld := .mk 18 0x40 0 1 0 1 0x40 0 32 .ro (.const 0x0) .none
/-- R579. PWR_FACET_RESUME_HI[0] facets: Bit f − 32, f = 32 to 56 -/
def PWR_FACET_RESUME_HI.facets : Fld := .mk 18 0x44 0 1 0 1 0x44 0 25 .ro (.const 0x0000000) .none

/-- Fields of page PWR, part 0. -/
def fieldsPWR0 : List Fld :=
  [PWR_STATUS.state, PWR_STATUS.committed, PWR_CMD.run, PWR_CMD.doze,
   PWR_CMD.eclipse, PWR_CMD.dusk, PWR_CMD.abort, PWR_CMD.dev_reset,
   PWR_CMD.kick, PWR_WAKE_EN.en, PWR_WAKE_SRC.src, PWR_DRAIN.us,
   PWR_GRACE.ms, PWR_RESET.core, PWR_RESET.dma, PWR_RESET.edge,
   PWR_RESET.gnomon, PWR_RESET.worga, PWR_RESET.readout, PWR_WDOG.ms,
   PWR_SCRUB.ms, PWR_ERR.cmd_refused, PWR_ERR.aborted, PWR_ERR.abort_too_late,
   PWR_ERR.wdog, PWR_ERR.ret_corrected, PWR_ERR.ret_uncorrectable, PWR_RET_CORR_CNT.count,
   PWR_RET_UNCORR_CNT.count, PWR_LOST_EVT_CNT.count, PWR_ECLIPSE_CNT.count, PWR_EXIT_US.us,
   PWR_THR_RESTART.threads, PWR_FACET_RESUME_LO.facets, PWR_FACET_RESUME_HI.facets]

/-- All fields of page PWR. -/
def fieldsPWR : List Fld := fieldsPWR0

/-- R602. ERQ_STATUS[0] used: Entries held, 0 to 256 -/
def ERQ_STATUS.used : Fld := .mk 20 0 0 1 0 1 0 0 9 .ro (.const 0x000) .none
/-- R602. ERQ_STATUS[16] full: 256 entries held -/
def ERQ_STATUS.full : Fld := .mk 20 0 0 1 0 1 0 16 1 .ro (.const 0x0) .none
/-- R602. ERQ_STATUS[17] head_taken: By R600 -/
def ERQ_STATUS.head_taken : Fld := .mk 20 0 0 1 0 1 0 17 1 .ro (.const 0x0) .none
/-- R602. ERQ_POP[0] seq: By R600 -/
def ERQ_POP.seq : Fld := .mk 20 4 0 1 0 1 4 0 32 .wo (.const 0x0) .none
/-- R602. ERQ_NEXT_SEQ[0] seq: seq of the next store -/
def ERQ_NEXT_SEQ.seq : Fld := .mk 20 8 0 1 0 1 8 0 32 .ro (.const 0x0) .none
/-- R602. ERQ_STORE_CNT[0] count: By R597 -/
def ERQ_STORE_CNT.count : Fld := .mk 20 0xc 0 1 0 1 0xc 0 32 .rc (.const 0x0) .none
/-- R602. ERQ_COALESCE_CNT[0] count: By R597 -/
def ERQ_COALESCE_CNT.count : Fld := .mk 20 0x10 0 1 0 1 0x10 0 32 .rc (.const 0x0) .none
/-- R602. ERQ_OVERFLOW_CNT[0] count: By R598, saturating -/
def ERQ_OVERFLOW_CNT.count : Fld := .mk 20 0x14 0 1 0 1 0x14 0 32 .rc (.const 0x0) .none
/-- R602. ERQ_LOST_KEY_LO[0] page: Key of the latest refused report -/
def ERQ_LOST_KEY_LO.page : Fld := .mk 20 0x18 0 1 0 1 0x18 0 8 .ro (.const 0x00) .none
/-- R602. ERQ_LOST_KEY_LO[16] instance_: as its register -/
def ERQ_LOST_KEY_LO.instance_ : Fld := .mk 20 0x18 0 1 0 1 0x18 16 16 .ro (.const 0x0000) .none
/-- R602. ERQ_LOST_KEY_HI[0] code: as its register -/
def ERQ_LOST_KEY_HI.code : Fld := .mk 20 0x1c 0 1 0 1 0x1c 0 16 .ro (.const 0x0000) .none
/-- R602. ERQ_ERR[0] pop_refused: By R600 -/
def ERQ_ERR.pop_refused : Fld := .mk 20 0x20 0 1 0 1 0x20 0 1 .w1c (.const 0x0) .none
/-- R602. ERQ_ERR[1] overflow: By R598 -/
def ERQ_ERR.overflow : Fld := .mk 20 0x20 0 1 0 1 0x20 1 1 .w1c (.const 0x0) .none
/-- R602. ERQ_HEAD[0] bytes: 12 words of the head entry, by R600 -/
def ERQ_HEAD.bytes : Fld := .mk 20 0x100 4 12 0 1 0x100 0 32 .ro (.const 0x0) .none

/-- Fields of page ERQ, part 0. -/
def fieldsERQ0 : List Fld :=
  [ERQ_STATUS.used, ERQ_STATUS.full, ERQ_STATUS.head_taken, ERQ_POP.seq,
   ERQ_NEXT_SEQ.seq, ERQ_STORE_CNT.count, ERQ_COALESCE_CNT.count, ERQ_OVERFLOW_CNT.count,
   ERQ_LOST_KEY_LO.page, ERQ_LOST_KEY_LO.instance_, ERQ_LOST_KEY_HI.code, ERQ_ERR.pop_refused,
   ERQ_ERR.overflow, ERQ_HEAD.bytes]

/-- All fields of page ERQ. -/
def fieldsERQ : List Fld := fieldsERQ0

/-- R640. DBG_CTRL[0] trace_en: By R637 -/
def DBG_CTRL.trace_en : Fld := .mk 21 0 0 1 0 1 0 0 1 .rw (.const 0x0) .none
/-- R640. DBG_CTRL[1] wrap: By R637 -/
def DBG_CTRL.wrap : Fld := .mk 21 0 0 1 0 1 0 1 1 .rw (.const 0x1) .none
/-- R640. DBG_CTRL[2] tap_mem_en: By R636 -/
def DBG_CTRL.tap_mem_en : Fld := .mk 21 0 0 1 0 1 0 2 1 .rw (.const 0x1) .none
/-- R640. DBG_TRACE_STATUS[0] entries: Entries held, 0 to 4,096 -/
def DBG_TRACE_STATUS.entries : Fld := .mk 21 4 0 1 0 1 4 0 13 .ro (.const 0x0000) .none
/-- R640. DBG_TRACE_STATUS[16] stopped: By R637 -/
def DBG_TRACE_STATUS.stopped : Fld := .mk 21 4 0 1 0 1 4 16 1 .ro (.const 0x0) .none
/-- R640. DBG_TRACE_CMD[0] clear: Empties the buffer; clears stopped -/
def DBG_TRACE_CMD.clear : Fld := .mk 21 8 0 1 0 1 8 0 1 .wo (.const 0x0) .none
/-- R640. DBG_TRACE_SEL[0] index: Entry by age, 0 oldest -/
def DBG_TRACE_SEL.index : Fld := .mk 21 0xc 0 1 0 1 0xc 0 12 .rw (.const 0x000) .none
/-- R640. DBG_TRACE_DATA[0] bytes: 4 words of the selected entry -/
def DBG_TRACE_DATA.bytes : Fld := .mk 21 0x10 4 4 0 1 0x10 0 32 .ro (.const 0x0) .none
/-- R640. DBG_THR_SEL[0] thread: 4c + t; 16 keeper -/
def DBG_THR_SEL.thread : Fld := .mk 21 0x20 0 1 0 1 0x20 0 5 .rw (.const 0x00) .none
/-- R640. DBG_THR_SEL[8] reg: Register code -/
def DBG_THR_SEL.reg : Fld := .mk 21 0x20 0 1 0 1 0x20 8 5 .rw (.const 0x00) .none
/-- R640. DBG_THR_SEL[16] fp: 1: FP register -/
def DBG_THR_SEL.fp : Fld := .mk 21 0x20 0 1 0 1 0x20 16 1 .rw (.const 0x0) .none
/-- R640. DBG_THR_SEL[17] trap: 1: trap window -/
def DBG_THR_SEL.trap : Fld := .mk 21 0x20 0 1 0 1 0x20 17 1 .rw (.const 0x0) .none
/-- R640. DBG_THR_DATA_LO[0] value: By R638 -/
def DBG_THR_DATA_LO.value : Fld := .mk 21 0x24 0 1 0 1 0x24 0 32 .ro (.const 0x0) .none
/-- R640. DBG_THR_DATA_HI[0] value: FP bits [63:32] -/
def DBG_THR_DATA_HI.value : Fld := .mk 21 0x28 0 1 0 1 0x28 0 32 .ro (.const 0x0) .none
/-- R640. DBG_THR_CMD[0] resume: By R638 -/
def DBG_THR_CMD.resume : Fld := .mk 21 0x2c 0 1 0 1 0x2c 0 1 .wo (.const 0x0) .none
/-- R640. DBG_ERR[0] ic_refused: By R634 -/
def DBG_ERR.ic_refused : Fld := .mk 21 0x30 0 1 0 1 0x30 0 1 .w1c (.const 0x0) .none
/-- R640. DBG_ERR[1] mem_busy: By R636 -/
def DBG_ERR.mem_busy : Fld := .mk 21 0x30 0 1 0 1 0x30 1 1 .w1c (.const 0x0) .none
/-- R640. DBG_ERR[2] trace_overflow: By R637 -/
def DBG_ERR.trace_overflow : Fld := .mk 21 0x30 0 1 0 1 0x30 2 1 .w1c (.const 0x0) .none
/-- R640. DBG_ERR[3] thr_running: By R638 -/
def DBG_ERR.thr_running : Fld := .mk 21 0x30 0 1 0 1 0x30 3 1 .w1c (.const 0x0) .none

/-- Fields of page DBG, part 0. -/
def fieldsDBG0 : List Fld :=
  [DBG_CTRL.trace_en, DBG_CTRL.wrap, DBG_CTRL.tap_mem_en, DBG_TRACE_STATUS.entries,
   DBG_TRACE_STATUS.stopped, DBG_TRACE_CMD.clear, DBG_TRACE_SEL.index, DBG_TRACE_DATA.bytes,
   DBG_THR_SEL.thread, DBG_THR_SEL.reg, DBG_THR_SEL.fp, DBG_THR_SEL.trap,
   DBG_THR_DATA_LO.value, DBG_THR_DATA_HI.value, DBG_THR_CMD.resume, DBG_ERR.ic_refused,
   DBG_ERR.mem_busy, DBG_ERR.trace_overflow, DBG_ERR.thr_running]

/-- All fields of page DBG. -/
def fieldsDBG : List Fld := fieldsDBG0

end Sys2Proof.Machine
end

