-- ==== Sys2Proof/Machine/RegsTiming.lean ====
section
/-! DEFINITION. The register fields of the GNO and FLN pages (R44, R76, R77), one descriptor each: page, base offset, strides and
instance counts, offset in the block, lowest bit, width, access code and reset value, as the tables give them. -/

namespace Sys2Proof.Machine

/-- R44. GNO_CTRL[0] enable: 1: leave OFF for ACQUIRE; 0: go to OFF -/
def GNO_CTRL.enable : Fld := .mk 1 0 0 1 0 1 0 0 1 .rw (.const 0x0) .none
/-- R44. GNO_CTRL[1] holdover_en: 1: loss leads to HOLDOVER -/
def GNO_CTRL.holdover_en : Fld := .mk 1 0 0 1 0 1 0 1 1 .rw (.const 0x1) .none
/-- R44. GNO_CTRL[2] auto_relock: 1: LOST leads to ACQUIRE when edges are present -/
def GNO_CTRL.auto_relock : Fld := .mk 1 0 0 1 0 1 0 2 1 .rw (.const 0x1) .none
/-- R44. GNO_STATUS[0] state: State code, by R27 -/
def GNO_STATUS.state : Fld := .mk 1 4 0 1 0 1 4 0 3 .ro (.const 0x0) .none
/-- R44. GNO_STATUS[3] numbered: 1: index and orbit valid -/
def GNO_STATUS.numbered : Fld := .mk 1 4 0 1 0 1 4 3 1 .ro (.const 0x0) .none
/-- R44. GNO_STATUS[4] inject_pending: 1: an injected word waits -/
def GNO_STATUS.inject_pending : Fld := .mk 1 4 0 1 0 1 4 4 1 .ro (.const 0x0) .none
/-- R44. GNO_STATUS[5] shadow_pending: 1: a write waits to take effect, by R30 -/
def GNO_STATUS.shadow_pending : Fld := .mk 1 4 0 1 0 1 4 5 1 .ro (.const 0x0) .none
/-- R44. GNO_STATUS[6] resync_pending: 1: a RESYNC awaits its marker -/
def GNO_STATUS.resync_pending : Fld := .mk 1 4 0 1 0 1 4 6 1 .ro (.const 0x0) .none
/-- R44. GNO_STATUS[7] orbit_reset_pending: 1: an ORBIT_RESET is armed, by R644 -/
def GNO_STATUS.orbit_reset_pending : Fld := .mk 1 4 0 1 0 1 4 7 1 .ro (.const 0x0) .none
/-- R44. GNO_XCLK_NOM[0] nom_hz: Nominal crossing frequency in Hz, 10,000,000 to 100,000,000; out-of-range writes are clamp -/
def GNO_XCLK_NOM.nom_hz : Fld := .mk 1 8 0 1 0 1 8 0 27 .rw (.const 0x02639280) (.range 10000000 100000000)
/-- R44. GNO_TRACK[0] tol_ppm: Tracking half-window, 0 to 5,000 ppm; larger writes are clamped -/
def GNO_TRACK.tol_ppm : Fld := .mk 1 0xc 0 1 0 1 0xc 0 13 .rw (.const 0x03E8) (.range 0 5000)
/-- R44. GNO_PERIOD_MEAS[0] period_fs: Slot period measured over the last 1,024 edges, in fs -/
def GNO_PERIOD_MEAS.period_fs : Fld := .mk 1 0x10 0 1 0 1 0x10 0 32 .ro (.const 0x0) .none
/-- R44. GNO_PERIOD_MIN[0] period_fs: Shortest slot period in the window, in fs; published by R25 -/
def GNO_PERIOD_MIN.period_fs : Fld := .mk 1 0x14 0 1 0 1 0x14 0 32 .ro (.const 0x017C53F6) .none
/-- R44. GNO_PERIOD_MAX[0] period_fs: Longest slot period in the window, in fs; published by R25 -/
def GNO_PERIOD_MAX.period_fs : Fld := .mk 1 0x18 0 1 0 1 0x18 0 32 .ro (.const 0x017D16E2) .none
/-- R44. GNO_PHASE[0] step: Phase delay in steps of T_slot / 64 -/
def GNO_PHASE.step : Fld := .mk 1 0x1c 0 1 0 1 0x1c 0 6 .rw (.const 0x00) .none
/-- R44. GNO_ORBIT_LEN[0] length: Crossings per orbit, 16 to 4,096; out-of-range writes are clamped -/
def GNO_ORBIT_LEN.length : Fld := .mk 1 0x20 0 1 0 1 0x20 0 13 .rw (.const 0x1000) (.range 16 4096)
/-- R44. GNO_TAG_OFFSET[0] offset: Tag offset, by R32 -/
def GNO_TAG_OFFSET.offset : Fld := .mk 1 0x24 0 1 0 1 0x24 0 12 .rw (.const 0x000) .none
/-- R44. GNO_ACCEPT_LAT[0] slots: Accept latency, 1 to 4,095 slots; a write of 0 stores 1 -/
def GNO_ACCEPT_LAT.slots : Fld := .mk 1 0x28 0 1 0 1 0x28 0 12 .rw (.const 0x080) (.range 1 4095)
/-- R44. GNO_HOLDOVER[0] limit: Slots allowed in HOLDOVER -/
def GNO_HOLDOVER.limit : Fld := .mk 1 0x2c 0 1 0 1 0x2c 0 16 .rw (.const 0x0100) .none
/-- R44. GNO_IDLE_PERIOD[0] ns: Idle slot period, 10 ns to 100 ns; out-of-range writes are clamped -/
def GNO_IDLE_PERIOD.ns : Fld := .mk 1 0x30 0 1 0 1 0x30 0 7 .rw (.const 0x64) (.range 10 100)
/-- R44. GNO_INDEX[0] index: Index of the crossing tagged last -/
def GNO_INDEX.index : Fld := .mk 1 0x34 0 1 0 1 0x34 0 12 .ro (.const 0x000) .none
/-- R44. GNO_INDEX[31] valid: 1: index valid -/
def GNO_INDEX.valid : Fld := .mk 1 0x34 0 1 0 1 0x34 31 1 .ro (.const 0x0) .none
/-- R44. GNO_ORBIT_LO[0] orbit: Orbit number [31:0] -/
def GNO_ORBIT_LO.orbit : Fld := .mk 1 0x38 0 1 0 1 0x38 0 32 .ro (.const 0x0) .none
/-- R44. GNO_ORBIT_HI[0] orbit: Orbit number [47:32], by R36 -/
def GNO_ORBIT_HI.orbit : Fld := .mk 1 0x3c 0 1 0 1 0x3c 0 16 .ro (.const 0x0) .none
/-- R44. GNO_EVENT_LO[0] event: Event counter [31:0] -/
def GNO_EVENT_LO.event : Fld := .mk 1 0x40 0 1 0 1 0x40 0 32 .ro (.const 0x0) .none
/-- R44. GNO_EVENT_HI[0] event: Event counter [47:32], by R36 -/
def GNO_EVENT_HI.event : Fld := .mk 1 0x44 0 1 0 1 0x44 0 16 .ro (.const 0x0) .none
/-- R44. GNO_SERIAL_LO[0] serial: Crossing serial [31:0] -/
def GNO_SERIAL_LO.serial : Fld := .mk 1 0x48 0 1 0 1 0x48 0 32 .ro (.const 0x0) .none
/-- R44. GNO_SERIAL_HI[0] serial: Crossing serial [63:32], by R36 -/
def GNO_SERIAL_HI.serial : Fld := .mk 1 0x4c 0 1 0 1 0x4c 0 32 .ro (.const 0x0) .none
/-- R44. GNO_FC_ENABLE[1] mask: Bit n enables code n for n = 1 to 31 -/
def GNO_FC_ENABLE.mask : Fld := .mk 1 0x50 0 1 0 1 0x50 1 31 .rw (.const 0x3F) .none
/-- R44. GNO_FC_INJECT[0] word: Injects a command word, by R38 -/
def GNO_FC_INJECT.word : Fld := .mk 1 0x54 0 1 0 1 0x54 0 16 .wo (.const 0x0) .none
/-- R44. GNO_FC_LAST[0] word: Last command word applied -/
def GNO_FC_LAST.word : Fld := .mk 1 0x58 0 1 0 1 0x58 0 16 .ro (.const 0x0) .none
/-- R44. GNO_FC_LAST[16] serial_lo: Serial [15:0] of its presentation edge -/
def GNO_FC_LAST.serial_lo : Fld := .mk 1 0x58 0 1 0 1 0x58 16 16 .ro (.const 0x0) .none
/-- R44. GNO_CMD[0] reacquire: 1: LOST to ACQUIRE -/
def GNO_CMD.reacquire : Fld := .mk 1 0x5c 0 1 0 1 0x5c 0 1 .wo (.const 0x0) .none
/-- R44. GNO_CMD[1] cancel_named: 1: cancel all pending named-slot actions -/
def GNO_CMD.cancel_named : Fld := .mk 1 0x5c 0 1 0 1 0x5c 1 1 .wo (.const 0x0) .none
/-- R44. GNO_ERR[0] xclk_lost: Loss condition seen -/
def GNO_ERR.xclk_lost : Fld := .mk 1 0x60 0 1 0 1 0x60 0 1 .w1c (.const 0x0) .none
/-- R44. GNO_ERR[1] holdover_entered: HOLDOVER entered -/
def GNO_ERR.holdover_entered : Fld := .mk 1 0x60 0 1 0 1 0x60 1 1 .w1c (.const 0x0) .none
/-- R44. GNO_ERR[2] lost_entered: LOST entered -/
def GNO_ERR.lost_entered : Fld := .mk 1 0x60 0 1 0 1 0x60 2 1 .w1c (.const 0x0) .none
/-- R44. GNO_ERR[3] marker_mismatch: Marker not aligned -/
def GNO_ERR.marker_mismatch : Fld := .mk 1 0x60 0 1 0 1 0x60 3 1 .w1c (.const 0x0) .none
/-- R44. GNO_ERR[4] fc_collision: Command word refused -/
def GNO_ERR.fc_collision : Fld := .mk 1 0x60 0 1 0 1 0x60 4 1 .w1c (.const 0x0) .none
/-- R44. GNO_ERR[5] fc_unknown: Reserved code received -/
def GNO_ERR.fc_unknown : Fld := .mk 1 0x60 0 1 0 1 0x60 5 1 .w1c (.const 0x0) .none
/-- R44. GNO_ERR[6] accept_refused: Accept refused, by R41 -/
def GNO_ERR.accept_refused : Fld := .mk 1 0x60 0 1 0 1 0x60 6 1 .w1c (.const 0x0) .none
/-- R44. GNO_ERR[7] orbit_wrap: Orbit number wrapped -/
def GNO_ERR.orbit_wrap : Fld := .mk 1 0x60 0 1 0 1 0x60 7 1 .w1c (.const 0x0) .none
/-- R44. GNO_ERR[8] event_wrap: Event counter wrapped -/
def GNO_ERR.event_wrap : Fld := .mk 1 0x60 0 1 0 1 0x60 8 1 .w1c (.const 0x0) .none
/-- R44. GNO_ERR[9] serial_wrap: Serial wrapped -/
def GNO_ERR.serial_wrap : Fld := .mk 1 0x60 0 1 0 1 0x60 9 1 .w1c (.const 0x0) .none
/-- R44. GNO_ERR[10] named_cancelled: Named-slot action cancelled -/
def GNO_ERR.named_cancelled : Fld := .mk 1 0x60 0 1 0 1 0x60 10 1 .w1c (.const 0x0) .none
/-- R44. GNO_ERR[11] freq_window: Frequency outside the window -/
def GNO_ERR.freq_window : Fld := .mk 1 0x60 0 1 0 1 0x60 11 1 .w1c (.const 0x0) .none
/-- R44. GNO_DISCONT[0] count: Timeline discontinuities, saturating -/
def GNO_DISCONT.count : Fld := .mk 1 0x64 0 1 0 1 0x64 0 16 .rc (.const 0x0) .none
/-- R44. GNO_MISMATCH_CNT[0] count: Markers not aligned -/
def GNO_MISMATCH_CNT.count : Fld := .mk 1 0x68 0 1 0 1 0x68 0 32 .rc (.const 0x0) .none
/-- R44. GNO_REFUSED_CNT[0] count: Accepts refused -/
def GNO_REFUSED_CNT.count : Fld := .mk 1 0x6c 0 1 0 1 0x6c 0 32 .rc (.const 0x0) .none
/-- R44. GNO_COLLISION_CNT[0] count: Command words refused -/
def GNO_COLLISION_CNT.count : Fld := .mk 1 0x70 0 1 0 1 0x70 0 32 .rc (.const 0x0) .none
/-- R44. GNO_UNKNOWN_CNT[0] count: Reserved codes received -/
def GNO_UNKNOWN_CNT.count : Fld := .mk 1 0x74 0 1 0 1 0x74 0 32 .rc (.const 0x0) .none
/-- R44. GNO_NAMED_USED[0] entries: Matcher entries in use, 0 to 64 -/
def GNO_NAMED_USED.entries : Fld := .mk 1 0x78 0 1 0 1 0x78 0 7 .ro (.const 0x00) .none
/-- R44. GNO_ACQ_TIME[0] us: Duration of the last acquisition, in µs -/
def GNO_ACQ_TIME.us : Fld := .mk 1 0x7c 0 1 0 1 0x7c 0 32 .ro (.const 0x0) .none
/-- R44. GNO_FC_CNT[0] count: Words of code n sampled, whether applied, disabled or reserved, by R37, for n = 0x01 to 0x -/
def GNO_FC_CNT.count : Fld := .mk 1 0x80 4 32 0 1 0x80 0 32 .rc (.const 0x0) .none

/-- Fields of page GNO, part 0. -/
def fieldsGNO0 : List Fld :=
  [GNO_CTRL.enable, GNO_CTRL.holdover_en, GNO_CTRL.auto_relock, GNO_STATUS.state,
   GNO_STATUS.numbered, GNO_STATUS.inject_pending, GNO_STATUS.shadow_pending, GNO_STATUS.resync_pending,
   GNO_STATUS.orbit_reset_pending, GNO_XCLK_NOM.nom_hz, GNO_TRACK.tol_ppm, GNO_PERIOD_MEAS.period_fs,
   GNO_PERIOD_MIN.period_fs, GNO_PERIOD_MAX.period_fs, GNO_PHASE.step, GNO_ORBIT_LEN.length,
   GNO_TAG_OFFSET.offset, GNO_ACCEPT_LAT.slots, GNO_HOLDOVER.limit, GNO_IDLE_PERIOD.ns,
   GNO_INDEX.index, GNO_INDEX.valid, GNO_ORBIT_LO.orbit, GNO_ORBIT_HI.orbit,
   GNO_EVENT_LO.event, GNO_EVENT_HI.event, GNO_SERIAL_LO.serial, GNO_SERIAL_HI.serial,
   GNO_FC_ENABLE.mask, GNO_FC_INJECT.word, GNO_FC_LAST.word, GNO_FC_LAST.serial_lo,
   GNO_CMD.reacquire, GNO_CMD.cancel_named, GNO_ERR.xclk_lost, GNO_ERR.holdover_entered,
   GNO_ERR.lost_entered, GNO_ERR.marker_mismatch, GNO_ERR.fc_collision, GNO_ERR.fc_unknown]

/-- Fields of page GNO, part 1. -/
def fieldsGNO1 : List Fld :=
  [GNO_ERR.accept_refused, GNO_ERR.orbit_wrap, GNO_ERR.event_wrap, GNO_ERR.serial_wrap,
   GNO_ERR.named_cancelled, GNO_ERR.freq_window, GNO_DISCONT.count, GNO_MISMATCH_CNT.count,
   GNO_REFUSED_CNT.count, GNO_COLLISION_CNT.count, GNO_UNKNOWN_CNT.count, GNO_NAMED_USED.entries,
   GNO_ACQ_TIME.us, GNO_FC_CNT.count]

/-- All fields of page GNO. -/
def fieldsGNO : List Fld := fieldsGNO0 ++ fieldsGNO1

/-- R76. FLN_CTRL[0] rx_en: 1: receive side leaves DISABLED -/
def FLN_CTRL.rx_en : Fld := .mk 2 0 0x100 224 0 1 0 0 1 .rw (.const 0x0) .none
/-- R76. FLN_CTRL[1] tx_en: 1: transmitter on -/
def FLN_CTRL.tx_en : Fld := .mk 2 0 0x100 224 0 1 0 1 1 .rw (.const 0x0) .none
/-- R76. FLN_CTRL[2] rate: Rate code by R47; a write of 3 keeps the old code and sets bad_cfg -/
def FLN_CTRL.rate : Fld := .mk 2 0 0x100 224 0 1 0 2 2 .rw (.const 0x0) .none
/-- R76. FLN_CTRL[4] rx_invert: Receive polarity, by R49 -/
def FLN_CTRL.rx_invert : Fld := .mk 2 0 0x100 224 0 1 0 4 1 .rw (.const 0x0) .none
/-- R76. FLN_CTRL[5] tx_invert: Transmit polarity, by R49 -/
def FLN_CTRL.tx_invert : Fld := .mk 2 0 0x100 224 0 1 0 5 1 .rw (.const 0x0) .none
/-- R76. FLN_CTRL[6] loopback: 0 none, 1 near end, 2 far end, by R75; a write of 3 keeps the old code and sets bad_cfg -/
def FLN_CTRL.loopback : Fld := .mk 2 0 0x100 224 0 1 0 6 2 .rw (.const 0x0) .none
/-- R76. FLN_CTRL[8] sc_en: 1: slow-channel receiver on -/
def FLN_CTRL.sc_en : Fld := .mk 2 0 0x100 224 0 1 0 8 1 .rw (.const 0x0) .none
/-- R76. FLN_STATUS[0] state: Receive state, by R50 -/
def FLN_STATUS.state : Fld := .mk 2 4 0x100 224 0 1 4 0 3 .ro (.const 0x0) .none
/-- R76. FLN_STATUS[3] signal_detect: Signal present -/
def FLN_STATUS.signal_detect : Fld := .mk 2 4 0x100 224 0 1 4 3 1 .ro (.const 0x0) .none
/-- R76. FLN_STATUS[4] cdr_lock: CDR locked -/
def FLN_STATUS.cdr_lock : Fld := .mk 2 4 0x100 224 0 1 4 4 1 .ro (.const 0x0) .none
/-- R76. FLN_STATUS[5] adapt_done: Adaptation complete -/
def FLN_STATUS.adapt_done : Fld := .mk 2 4 0x100 224 0 1 4 5 1 .ro (.const 0x0) .none
/-- R76. FLN_STATUS[6] tx_ready: Transmit PLL locked -/
def FLN_STATUS.tx_ready : Fld := .mk 2 4 0x100 224 0 1 4 6 1 .ro (.const 0x0) .none
/-- R76. FLN_STATUS[7] module_present: Identity current, by R63 -/
def FLN_STATUS.module_present : Fld := .mk 2 4 0x100 224 0 1 4 7 1 .ro (.const 0x0) .none
/-- R76. FLN_STATUS[8] eye_busy: Scan running -/
def FLN_STATUS.eye_busy : Fld := .mk 2 4 0x100 224 0 1 4 8 1 .ro (.const 0x0) .none
/-- R76. FLN_RX_EQ[0] adapt_freeze: By R53 -/
def FLN_RX_EQ.adapt_freeze : Fld := .mk 2 8 0x100 224 0 1 8 0 1 .rw (.const 0x0) .none
/-- R76. FLN_RX_EQ[1] adapt_restart: By R53 -/
def FLN_RX_EQ.adapt_restart : Fld := .mk 2 8 0x100 224 0 1 8 1 1 .wo (.const 0x0) .none
/-- R76. FLN_RX_EQ[8] ctle: Current CTLE code -/
def FLN_RX_EQ.ctle : Fld := .mk 2 8 0x100 224 0 1 8 8 5 .ro (.const 0x00) .none
/-- R76. FLN_RX_EQ[16] dfe1: First DFE tap, two's complement -/
def FLN_RX_EQ.dfe1 : Fld := .mk 2 8 0x100 224 0 1 8 16 6 .ro (.const 0x00) .none
/-- R76. FLN_TX_FFE[0] pre: Pre-cursor, by R54 -/
def FLN_TX_FFE.pre : Fld := .mk 2 0xc 0x100 224 0 1 0xc 0 6 .rw (.const 0x04) .none
/-- R76. FLN_TX_FFE[8] main: Main cursor -/
def FLN_TX_FFE.main : Fld := .mk 2 0xc 0x100 224 0 1 0xc 8 6 .rw (.const 0x33) .none
/-- R76. FLN_TX_FFE[16] post: Post-cursor -/
def FLN_TX_FFE.post : Fld := .mk 2 0xc 0x100 224 0 1 0xc 16 6 .rw (.const 0x08) .none
/-- R76. FLN_EYE_CTRL[0] start: Starts a scan, by R57 -/
def FLN_EYE_CTRL.start : Fld := .mk 2 0x10 0x100 224 0 1 0x10 0 1 .wo (.const 0x0) .none
/-- R76. FLN_EYE_CTRL[1] eye: Eye select -/
def FLN_EYE_CTRL.eye : Fld := .mk 2 0x10 0x100 224 0 1 0x10 1 2 .rw (.const 0x0) .none
/-- R76. FLN_EYE_RESULT[0] height: Eye height in units of 0.25 mV -/
def FLN_EYE_RESULT.height : Fld := .mk 2 0x14 0x100 224 0 1 0x14 0 16 .ro (.const 0x0000) .none
/-- R76. FLN_EYE_RESULT[16] width: Eye width in units of UI / 256 -/
def FLN_EYE_RESULT.width : Fld := .mk 2 0x14 0x100 224 0 1 0x14 16 8 .ro (.const 0x00) .none
/-- R76. FLN_EYE_RESULT[31] valid: 1: last scan completed -/
def FLN_EYE_RESULT.valid : Fld := .mk 2 0x14 0x100 224 0 1 0x14 31 1 .ro (.const 0x0) .none
/-- R76. FLN_ERR[0] signal_lost: READY left on signal loss -/
def FLN_ERR.signal_lost : Fld := .mk 2 0x18 0x100 224 0 1 0x18 0 1 .w1c (.const 0x0) .none
/-- R76. FLN_ERR[1] cdr_lost: READY left on CDR loss -/
def FLN_ERR.cdr_lost : Fld := .mk 2 0x18 0x100 224 0 1 0x18 1 1 .w1c (.const 0x0) .none
/-- R76. FLN_ERR[2] lock_timeout: LOCKING timed out -/
def FLN_ERR.lock_timeout : Fld := .mk 2 0x18 0x100 224 0 1 0x18 2 1 .w1c (.const 0x0) .none
/-- R76. FLN_ERR[3] bad_cfg: Write clamped or kept -/
def FLN_ERR.bad_cfg : Fld := .mk 2 0x18 0x100 224 0 1 0x18 3 1 .w1c (.const 0x0) .none
/-- R76. FLN_ERR[4] eye_busy: Scan start refused -/
def FLN_ERR.eye_busy : Fld := .mk 2 0x18 0x100 224 0 1 0x18 4 1 .w1c (.const 0x0) .none
/-- R76. FLN_ERR[5] sc_crc: Slow frame failed CRC -/
def FLN_ERR.sc_crc : Fld := .mk 2 0x18 0x100 224 0 1 0x18 5 1 .w1c (.const 0x0) .none
/-- R76. FLN_ERR[6] sc_overflow: User frame refused -/
def FLN_ERR.sc_overflow : Fld := .mk 2 0x18 0x100 224 0 1 0x18 6 1 .w1c (.const 0x0) .none
/-- R76. FLN_ERR[7] id_timeout: Identity timed out -/
def FLN_ERR.id_timeout : Fld := .mk 2 0x18 0x100 224 0 1 0x18 7 1 .w1c (.const 0x0) .none
/-- R76. FLN_ERR[8] id_changed: New identity seen -/
def FLN_ERR.id_changed : Fld := .mk 2 0x18 0x100 224 0 1 0x18 8 1 .w1c (.const 0x0) .none
/-- R76. FLN_ERR[9] sc_tx_refused: Send refused while pending -/
def FLN_ERR.sc_tx_refused : Fld := .mk 2 0x18 0x100 224 0 1 0x18 9 1 .w1c (.const 0x0) .none
/-- R76. FLN_ERR[10] sc_tx_disabled: Send refused, slow_ok = 0 -/
def FLN_ERR.sc_tx_disabled : Fld := .mk 2 0x18 0x100 224 0 1 0x18 10 1 .w1c (.const 0x0) .none
/-- R76. FLN_ERR[11] dl_cfg_refused: Window write refused -/
def FLN_ERR.dl_cfg_refused : Fld := .mk 2 0x18 0x100 224 0 1 0x18 11 1 .w1c (.const 0x0) .none
/-- R76. FLN_LOCK_LOSS_CNT[0] count: Exits from READY, saturating -/
def FLN_LOCK_LOSS_CNT.count : Fld := .mk 2 0x1c 0x100 224 0 1 0x1c 0 16 .rc (.const 0x0) .none
/-- R76. FLN_DL_CTRL[0] dl_en: 1: scheduler drives the downlink -/
def FLN_DL_CTRL.dl_en : Fld := .mk 2 0x20 0x100 224 0 1 0x20 0 1 .rw (.const 0x0) .none
/-- R76. FLN_DL_CTRL[1] fc_en: 1: fast-command word present -/
def FLN_DL_CTRL.fc_en : Fld := .mk 2 0x20 0x100 224 0 1 0x20 1 1 .rw (.const 0x1) .none
/-- R76. FLN_DL_CTRL[2] slow_en: 1: slow frames sent -/
def FLN_DL_CTRL.slow_en : Fld := .mk 2 0x20 0x100 224 0 1 0x20 2 1 .rw (.const 0x1) .none
/-- R76. FLN_DL_CTRL[8] phase: Slot start in steps of T_slot / 64 -/
def FLN_DL_CTRL.phase : Fld := .mk 2 0x20 0x100 224 0 1 0x20 8 6 .rw (.const 0x00) .none
/-- R76. FLN_DL_WIN[0] data_words: Data window length in words -/
def FLN_DL_WIN.data_words : Fld := .mk 2 0x24 0x100 224 0 1 0x24 0 5 .rw (.const 0x00) .none
/-- R76. FLN_DL_WORDS[0] w_min: W_min, by R68; 0 to 127 -/
def FLN_DL_WORDS.w_min : Fld := .mk 2 0x28 0x100 224 0 1 0x28 0 7 .ro (.const 0x00) .none
/-- R76. FLN_DL_WORDS[8] slow_words: Guaranteed slow window; 0 to 127 -/
def FLN_DL_WORDS.slow_words : Fld := .mk 2 0x28 0x100 224 0 1 0x28 8 7 .ro (.const 0x00) .none
/-- R76. FLN_DL_WORDS[16] slow_ok: 1: slow_words ≥ 7 and slow_en = 1 -/
def FLN_DL_WORDS.slow_ok : Fld := .mk 2 0x28 0x100 224 0 1 0x28 16 1 .ro (.const 0x0) .none
/-- R76. FLN_SC_STATUS[0] rx_full: User frame in FLN_SC_RX_BUF; writing 1 frees it -/
def FLN_SC_STATUS.rx_full : Fld := .mk 2 0x2c 0x100 224 0 1 0x2c 0 1 .w1c (.const 0x0) .none
/-- R76. FLN_SC_STATUS[1] tx_pending: Frame held, by R73 -/
def FLN_SC_STATUS.tx_pending : Fld := .mk 2 0x2c 0x100 224 0 1 0x2c 1 1 .ro (.const 0x0) .none
/-- R76. FLN_SC_STATUS[2] tx_done: Frame sent -/
def FLN_SC_STATUS.tx_done : Fld := .mk 2 0x2c 0x100 224 0 1 0x2c 2 1 .w1c (.const 0x0) .none
/-- R76. FLN_SC_STATUS[3] tx_aborted: Frame dropped by abort -/
def FLN_SC_STATUS.tx_aborted : Fld := .mk 2 0x2c 0x100 224 0 1 0x2c 3 1 .w1c (.const 0x0) .none
/-- R76. FLN_SC_FRAME_CNT[0] count: Frames passing CRC -/
def FLN_SC_FRAME_CNT.count : Fld := .mk 2 0x30 0x100 224 0 1 0x30 0 32 .rc (.const 0x0) .none
/-- R76. FLN_SC_CRC_CNT[0] count: Frames failing length or CRC -/
def FLN_SC_CRC_CNT.count : Fld := .mk 2 0x34 0x100 224 0 1 0x34 0 32 .rc (.const 0x0) .none
/-- R76. FLN_SC_DROP_CNT[0] count: Frames dropped by R61, R65 or R66 -/
def FLN_SC_DROP_CNT.count : Fld := .mk 2 0x38 0x100 224 0 1 0x38 0 32 .rc (.const 0x0) .none
/-- R76. FLN_ID_LO[0] identity: Identity [31:0] -/
def FLN_ID_LO.identity : Fld := .mk 2 0x3c 0x100 224 0 1 0x3c 0 32 .ro (.const 0x0) .none
/-- R76. FLN_ID_HI[0] identity: Identity [63:32] -/
def FLN_ID_HI.identity : Fld := .mk 2 0x40 0x100 224 0 1 0x40 0 32 .ro (.const 0x0) .none
/-- R76. FLN_ID_INFO[0] module_type: From the record -/
def FLN_ID_INFO.module_type : Fld := .mk 2 0x44 0x100 224 0 1 0x44 0 16 .ro (.const 0x0) .none
/-- R76. FLN_ID_INFO[16] lane_in_module: From the record -/
def FLN_ID_INFO.lane_in_module : Fld := .mk 2 0x44 0x100 224 0 1 0x44 16 8 .ro (.const 0x0) .none
/-- R76. FLN_ID_INFO[24] lanes_in_module: From the record -/
def FLN_ID_INFO.lanes_in_module : Fld := .mk 2 0x44 0x100 224 0 1 0x44 24 8 .ro (.const 0x0) .none
/-- R76. FLN_ID_RATED_H[0] hours: rated_hours -/
def FLN_ID_RATED_H.hours : Fld := .mk 2 0x48 0x100 224 0 1 0x48 0 32 .ro (.const 0x0) .none
/-- R76. FLN_ID_RATED_G[0] hits: rated_hits -/
def FLN_ID_RATED_G.hits : Fld := .mk 2 0x4c 0x100 224 0 1 0x4c 0 32 .ro (.const 0x0) .none
/-- R76. FLN_ID_AGE[0] ms: Time since the last identity record, saturating -/
def FLN_ID_AGE.ms : Fld := .mk 2 0x50 0x100 224 0 1 0x50 0 32 .ro (.const 0x0) .none
/-- R76. FLN_SC_TX_CTRL[0] send: By R73 -/
def FLN_SC_TX_CTRL.send : Fld := .mk 2 0x54 0x100 224 0 1 0x54 0 1 .wo (.const 0x0) .none
/-- R76. FLN_SC_TX_CTRL[1] abort: By R73 -/
def FLN_SC_TX_CTRL.abort : Fld := .mk 2 0x54 0x100 224 0 1 0x54 1 1 .wo (.const 0x0) .none
/-- R76. FLN_SC_ACK[0] seq: Sequence of the last acknowledgement -/
def FLN_SC_ACK.seq : Fld := .mk 2 0x58 0x100 224 0 1 0x58 0 8 .ro (.const 0x00) .none
/-- R76. FLN_SC_ACK[8] status: 0 applied, 1 rejected, 2 unknown address -/
def FLN_SC_ACK.status : Fld := .mk 2 0x58 0x100 224 0 1 0x58 8 8 .ro (.const 0x00) .none
/-- R76. FLN_SC_ACK[31] new: Acknowledgement received -/
def FLN_SC_ACK.new : Fld := .mk 2 0x58 0x100 224 0 1 0x58 31 1 .w1c (.const 0x0) .none
/-- R76. FLN_DISCARD_CNT[0] count: Words discarded, by R14 and R75 -/
def FLN_DISCARD_CNT.count : Fld := .mk 2 0x5c 0x100 224 0 1 0x5c 0 32 .rc (.const 0x0) .none
/-- R76. FLN_SC_TX_BUF[0] bytes: 16 words; transmit frame, by R73 -/
def FLN_SC_TX_BUF.bytes : Fld := .mk 2 0x80 0x100 224 4 16 0x80 0 32 .rw (.const 0x0) .none
/-- R76. FLN_SC_RX_BUF[0] bytes: 16 words; user frame, by R66 -/
def FLN_SC_RX_BUF.bytes : Fld := .mk 2 0xc0 0x100 224 4 16 0xc0 0 32 .ro (.const 0x0) .none
/-- R77. FLN_TIMING_SEL[0] lane: Lane whose received words are copied to the timing facet, 0 to 223; larger writes are clam -/
def FLN_TIMING_SEL.lane : Fld := .mk 2 0xf000 0 1 0 1 0xf000 0 8 .rw (.const 0x00) (.range 0 223)
/-- R77. FLN_TIMING_SEL[31] enable: 1: copy on -/
def FLN_TIMING_SEL.enable : Fld := .mk 2 0xf000 0 1 0 1 0xf000 31 1 .rw (.const 0x0) .none
/-- R77. FLN_REFCLK_STATUS[0] present: Bit k: REFCLK_P/N[k] present -/
def FLN_REFCLK_STATUS.present : Fld := .mk 2 0xf004 0 1 0 1 0xf004 0 8 .ro (.const 0x00) .none
/-- R77. FLN_ID_TIMEOUT[0] ms: Identity timeout, 10 ms to 65,535 ms; smaller writes store 10 -/
def FLN_ID_TIMEOUT.ms : Fld := .mk 2 0xf008 0 1 0 1 0xf008 0 16 .rw (.const 0x03E8) (.range 10 65535)
/-- R77. FLN_FC_FWD_MASK[1] mask: Bit n: forward code n downlink, by R70 -/
def FLN_FC_FWD_MASK.mask : Fld := .mk 2 0xf00c 0 1 0 1 0xf00c 1 31 .rw (.const 0x3F) .none

/-- Fields of page FLN, part 0. -/
def fieldsFLN0 : List Fld :=
  [FLN_CTRL.rx_en, FLN_CTRL.tx_en, FLN_CTRL.rate, FLN_CTRL.rx_invert,
   FLN_CTRL.tx_invert, FLN_CTRL.loopback, FLN_CTRL.sc_en, FLN_STATUS.state,
   FLN_STATUS.signal_detect, FLN_STATUS.cdr_lock, FLN_STATUS.adapt_done, FLN_STATUS.tx_ready,
   FLN_STATUS.module_present, FLN_STATUS.eye_busy, FLN_RX_EQ.adapt_freeze, FLN_RX_EQ.adapt_restart,
   FLN_RX_EQ.ctle, FLN_RX_EQ.dfe1, FLN_TX_FFE.pre, FLN_TX_FFE.main,
   FLN_TX_FFE.post, FLN_EYE_CTRL.start, FLN_EYE_CTRL.eye, FLN_EYE_RESULT.height,
   FLN_EYE_RESULT.width, FLN_EYE_RESULT.valid, FLN_ERR.signal_lost, FLN_ERR.cdr_lost,
   FLN_ERR.lock_timeout, FLN_ERR.bad_cfg, FLN_ERR.eye_busy, FLN_ERR.sc_crc,
   FLN_ERR.sc_overflow, FLN_ERR.id_timeout, FLN_ERR.id_changed, FLN_ERR.sc_tx_refused,
   FLN_ERR.sc_tx_disabled, FLN_ERR.dl_cfg_refused, FLN_LOCK_LOSS_CNT.count, FLN_DL_CTRL.dl_en]

/-- Fields of page FLN, part 1. -/
def fieldsFLN1 : List Fld :=
  [FLN_DL_CTRL.fc_en, FLN_DL_CTRL.slow_en, FLN_DL_CTRL.phase, FLN_DL_WIN.data_words,
   FLN_DL_WORDS.w_min, FLN_DL_WORDS.slow_words, FLN_DL_WORDS.slow_ok, FLN_SC_STATUS.rx_full,
   FLN_SC_STATUS.tx_pending, FLN_SC_STATUS.tx_done, FLN_SC_STATUS.tx_aborted, FLN_SC_FRAME_CNT.count,
   FLN_SC_CRC_CNT.count, FLN_SC_DROP_CNT.count, FLN_ID_LO.identity, FLN_ID_HI.identity,
   FLN_ID_INFO.module_type, FLN_ID_INFO.lane_in_module, FLN_ID_INFO.lanes_in_module, FLN_ID_RATED_H.hours,
   FLN_ID_RATED_G.hits, FLN_ID_AGE.ms, FLN_SC_TX_CTRL.send, FLN_SC_TX_CTRL.abort,
   FLN_SC_ACK.seq, FLN_SC_ACK.status, FLN_SC_ACK.new, FLN_DISCARD_CNT.count,
   FLN_SC_TX_BUF.bytes, FLN_SC_RX_BUF.bytes, FLN_TIMING_SEL.lane, FLN_TIMING_SEL.enable,
   FLN_REFCLK_STATUS.present, FLN_ID_TIMEOUT.ms, FLN_FC_FWD_MASK.mask]

/-- All fields of page FLN. -/
def fieldsFLN : List Fld := fieldsFLN0 ++ fieldsFLN1

end Sys2Proof.Machine
end

