-- ==== Sys2Proof/Machine/Regs.lean ====
section
/-! DEFINITION. The register fields by page (00, *Registers*). -/

namespace Sys2Proof.Machine

/-- The fields that the register tables define on a page; no field on a page above 0x16 (R3). -/
def fieldsOfPage : Nat → List Fld
  | 0 => fieldsSYS
  | 1 => fieldsGNO
  | 2 => fieldsFLN
  | 3 => fieldsEDG
  | 4 => fieldsPRI
  | 5 => fieldsARR
  | 6 => fieldsSEQ
  | 7 => fieldsBCN
  | 8 => fieldsWOR
  | 9 => fieldsHBM
  | 10 => fieldsRDO
  | 11 => fieldsRNG
  | 12 => fieldsSPD
  | 13 => fieldsSEM
  | 14 => fieldsCPU
  | 15 => fieldsDIC
  | 16 => fieldsTAR
  | 17 => fieldsLED
  | 18 => fieldsPWR
  | 19 => fieldsBOT
  | 20 => fieldsERQ
  | 21 => fieldsDBG
  | 22 => fieldsGPI
  | _ => []

end Sys2Proof.Machine
end

