-- ==== Sys2Proof/Machine/Sparse.lean ====
section
/-! DEFINITION. Sparse tables: the one form in which the state holds what is indexed by a number (register
fields, memory bytes, bit planes, per-lane records). A table is a list of (key, value) pairs with strictly
rising keys and no entry equal to what an unlisted key reads as, so equal tables are equal lists. -/

namespace Sys2Proof.Machine

/-- A table of values of type `α` by number, in one canonical form (`Sparse.wf`). -/
abbrev Sparse (α : Type) := List (Nat × α)

/-- The value at key `k`; an unlisted key reads as `d`. -/
def Sparse.get {α : Type} (d : α) : Sparse α → Nat → α
  | [], _ => d
  | (a, v) :: m, k => if a = k then v else Sparse.get d m k

/-- The table without key `k`. -/
def Sparse.erase {α : Type} (m : Sparse α) (k : Nat) : Sparse α :=
  m.filter fun e => !(e.1 == k)

/-- Puts an entry at its place in the rising order of keys. -/
def Sparse.insert {α : Type} (k : Nat) (v : α) : Sparse α → Sparse α
  | [] => [(k, v)]
  | (a, w) :: m => if k < a then (k, v) :: (a, w) :: m else (a, w) :: Sparse.insert k v m

/-- The table with `v` at key `k`: an entry equal to the default is removed. -/
def Sparse.set {α : Type} [DecidableEq α] (d : α) (m : Sparse α) (k : Nat) (v : α) : Sparse α :=
  if v = d then m.erase k else Sparse.insert k v (m.erase k)

/-- Changes the value at key `k` by `f`. -/
def Sparse.upd {α : Type} [DecidableEq α] (d : α) (m : Sparse α) (k : Nat) (f : α → α) : Sparse α :=
  m.set d k (f (m.get d k))

/-- Keeps the entries whose key satisfies `p`; every other key reads as the default afterwards. -/
def Sparse.keep {α : Type} (m : Sparse α) (p : Nat → Bool) : Sparse α :=
  m.filter fun e => p e.1

/-- The canonical form: strictly rising keys, no entry equal to the default. -/
def Sparse.wf {α : Type} [DecidableEq α] (d : α) : Sparse α → Bool
  | [] => true
  | [(_, v)] => decide (v ≠ d)
  | (a, v) :: (b, w) :: m => decide (v ≠ d) && decide (a < b) && Sparse.wf d ((b, w) :: m)

end Sys2Proof.Machine
end

