-- ==== Sys2Proof/Machine/StateArray.lean ====
section
/-! DEFINITION. The internal state of the array and its islands (06), beside their registers. A plane is a number whose
bit p stands for logical PE p = 512 × row + column (R148). -/

namespace Sys2Proof.Machine

/-- A reload that is armed or runs (R172, R173): its source, the epoch E, the planes to write and how many are written. -/
structure Reload where
  /-- The copies of the resident firmware (R175) rather than a source in memory. -/
  firmware : Bool
  src : Nat
  epoch : Nat
  planes : List Nat
  /-- The firmware's copies as committed at epoch E, for a reload that the firmware arms (R175). -/
  image : Sparse Nat := []
  next : Nat := 0
  deriving DecidableEq, Repr

/-- One island, beside its registers. -/
structure Island where
  /-- Accepted commands that act at the next token: bit 0 off, 1 on, 2 quarantine, 3 apply_map (R168). -/
  cmd : Nat := 0
  /-- The map that the latest accepted apply_map named, and the one that waits for the next CLEARING (R166). -/
  map : Nat := 0
  mapWait : Option Nat := none
  /-- The clearing is complete (R169); the clock generator has lost lock in CLEARING (R161). -/
  cleared : Bool := false
  unlocked : Bool := false
  /-- Foreground slots completed in WARM (R168). -/
  warmDone : Nat := 0
  reload : Option Reload := none
  /-- Barrier cycles of the standing barrier in which the reload can still write (R173). -/
  cycles : Nat := 0
  /-- The latest reload has passed its commit point (R174). -/
  committed : Bool := false
  /-- The slow slot has been counted (R161). -/
  slow : Bool := false
  deriving DecidableEq, Repr

/-- The array (06). -/
structure Arr where
  /-- General memory, planes 0x080 to 0xF7F (R123). -/
  mem : Sparse Nat := []
  /-- The five registers of every PE (R148). -/
  c : Nat := 0
  m : Nat := 0
  f : Nat := 0
  x : Nat := 0
  y : Nat := 0
  islands : Sparse Island := []
  /-- ARR_EDGE and ARR_WHALO_n in force (R156). -/
  edge : Nat := 0
  whalo : Sparse Nat := []
  /-- The edge halo store: bits of entry n of a side at 8 × side + n (R155). -/
  halo : Sparse Nat := []
  /-- A change of R170 applies at the coming barrier. -/
  bump : Bool := false
  /-- Firmware's copies of the planes as committed at ARR_EPOCH, and as the side port's writes have left them since (R175). -/
  copies : Sparse Nat := []
  staged : Sparse Nat := []
  /-- ARR_EPOCH has increased at the latest barrier: its side-port writes belong to the new epoch (R171). -/
  bumped : Bool := false
  /-- Arrive instants of this barrier by island, in fs, and whether a barrier timeout has sent its token (R162, R164). -/
  arrived : Sparse Nat := []
  late : Bool := false
  timedOut : Bool := false
  deriving DecidableEq, Repr

end Sys2Proof.Machine
end

