-- ==== Sys2Proof/Machine/StateCpu.lean ====
section
/-! DEFINITION. The state of the control cores and the keeper (13, 14), beside the CPU page. Thread `t` of control core `c`
is thread number 4c + t, the keeper's thread is number 16; the same number names the thread as a ring initiator (R428). -/

namespace Sys2Proof.Machine

/-- An FP instruction that has issued and whose flags have not merged yet (R388). -/
structure FpOp where
  pc : Nat
  flags : Nat
  inTrap : Bool
  deriving DecidableEq, Repr

/-- One memory access of an instruction: its core address, its bytes, the bytes stored (none for a load) and the
operation of an AMO (R372). -/
inductive Access where
  | load (a n : Nat)
  | store (a n v : Nat)
  | amo (a : Nat) (swap : Bool) (v : Nat)
  deriving DecidableEq, Repr

/-- What an instruction does with the values that its accesses bring. -/
inductive After where
  | nothing
  /-- A store of 8 bytes. -/
  | wideStore
  /-- A load into rd: bytes, sign-extended or not. -/
  | word (rd n : Nat) (signed : Bool)
  | pair (rd : Nat)
  | fp (fd : Nat) (double : Bool)
  | spill
  | fill
  deriving DecidableEq, Repr

/-- The unfinished accesses of an instruction that waits for the ring network or for the mailbox's port K. -/
structure Waiting where
  todo : List Access
  /-- What the loads so far have brought: bytes and value. -/
  got : List (Nat × Nat) := []
  after : After
  /-- The access under way goes to port K of the mailbox (R466). -/
  portK : Bool := false
  /-- The physical address of the access under way and whether it is posted, as translated when it issued (R359). -/
  phys : Nat := 0
  posted : Bool := false
  /-- No tag is free for the access under way (R373, R442). -/
  stalled : Bool := false
  deriving DecidableEq, Repr

/-- Why a thread issues nothing. -/
inductive Hold where
  | none
  | access (w : Waiting)
  /-- It waits for the divider: destination and result (R379). -/
  | divide (rd v : Nat)
  /-- It waits in a WAITE: destination and mask (R404). -/
  | event (rd mask : Nat)
  deriving DecidableEq, Repr

/-- A hardware thread (R350 to R356, R382, R423). -/
structure Th where
  /-- g1 to g7. -/
  g : Sparse Nat := []
  /-- Register i of window k at 16 k + i; window 8 is the trap window. -/
  w : Sparse Nat := []
  f : Sparse Nat := []
  pc : Nat := 0
  cur : Nat := 0
  live : Nat := 1
  /-- The return-address stack, latest first. -/
  rstack : List Nat := []
  flags : Nat := 0
  enables : Nat := 0
  rm : Nat := 1
  ftz : Bool := false
  instret : Nat := 0
  /-- The holding register of CC_INSTRET_HI (R381). -/
  instretHi : Nat := 0
  events : Nat := 0
  prio : Nat := 0
  trapbase : Nat := 0
  resume : Nat := 0
  trapcode : Nat := 0
  trapinfo : Nat := 0
  rsReset : Bool := false
  trapscr : Nat := 0
  inTrap : Bool := false
  hold : Hold := .none
  /-- A stop waits for the access or division under way (R398). -/
  stopping : Bool := false
  /-- A start was written together with that stop (R396). -/
  restart : Bool := false
  fpOps : List FpOp := []
  /-- A pending FP exception: the address of the raising instruction, raised in the trap window or not (R417). -/
  fpPend : Option (Nat × Bool) := none
  /-- A pending posted bus error: the core address of the store, issued in the trap window or not (R374). -/
  busPend : Option (Nat × Bool) := none
  /-- The instant at which the timer was loaded (R405). -/
  tmrAt : Nat := 0
  deriving DecidableEq, Repr

/-- An aperture register (R357, R382). -/
structure Aperture where
  base : Nat := 0
  valid : Bool := false
  posted : Bool := false
  deriving DecidableEq, Repr

/-- What the threads of a core share. -/
structure Core where
  cycles : Nat := 0
  /-- The holding register of CC_CYCLE_HI (R381, R382). -/
  cycleHi : Nat := 0
  /-- The thread that issued last at each priority; at reset the turn begins with thread 0 (R399). -/
  last : Sparse Nat := []
  aps : Sparse Aperture := []
  /-- The thread that the starvation rule issues next (R401). -/
  must : Option Nat := none
  deriving DecidableEq, Repr

/-- The control cores and the keeper: threads by thread number, cores by core number. -/
structure Cpu where
  threads : Sparse Th := []
  cores : Sparse Core := []
  deriving DecidableEq, Repr

end Sys2Proof.Machine
end

