-- ==== Sys2Proof/Machine/StateErrors.lean ====
section
/-! DEFINITION. The state of the error queue and of the reports on their way to it (20). -/

namespace Sys2Proof.Machine

/-- A report that a unit has not yet sent (R596): its key, its count and its first and last detail. -/
structure Report where
  page : Nat
  inst : Nat
  code : Nat
  count : Nat
  first : Nat
  last : Nat
  /-- The block of the CPU page that reports, 4 for the keeper's and for the Blackout registers: each is a unit at a stop of its own
  (R596). 0 for every other page. -/
  core : Nat := 0
  deriving DecidableEq, Repr

/-- An entry of the error queue (R599). -/
structure ErrEntry where
  page : Nat
  inst : Nat
  code : Nat
  dawn : Nat
  count : Nat
  seq : Nat
  saturated : Bool
  taken : Bool
  firstTime : Nat
  firstDetail : Nat
  lastTime : Nat
  lastDetail : Nat
  deriving DecidableEq, Repr

/-- The error queue (R595 to R600). -/
structure Erq where
  /-- Reports not yet sent, each key once, in the order in which the keys of its unit became pending (R596). -/
  reports : List Report := []
  /-- The entries held, oldest first, at most 256 (R597). -/
  entries : List ErrEntry := []
  /-- The holding buffer of ERQ_HEAD, 48 bytes (R600). -/
  hold : List (BitVec 8) := []
  deriving DecidableEq, Repr

end Sys2Proof.Machine
end

