-- ==== Sys2Proof/Machine/StateEdge.lean ====
section
/-! DEFINITION. The internal state of the edge fabric (04), beside its registers. -/

namespace Sys2Proof.Machine

/-- A word of the downlink scheduler: its tag (0 idle, 1 fast command, 2 data, 3 slow), whether it is the first of its
downlink slot, and its 64 bits (R67, R89). -/
structure TxWord where
  tag : Nat
  first : Bool
  word : Nat
  deriving DecidableEq, Repr

/-- A word at a lane's Prism port (R87). -/
structure PortWord where
  tag : Nat
  first : Bool
  word : Nat
  deriving DecidableEq, Repr

/-- One block on its way through a receive lane path, with the status bits that describe it (R86). -/
structure Block where
  data : Nat
  valid : Bool := false
  slip : Bool := false
  /-- The aligner was aligned when it delivered the block. -/
  aligned : Bool := false
  crcDone : Bool := false
  crcOk : Bool := false
  deriving DecidableEq, Repr

/-- One receive and transmit lane path of a facet (R79). -/
structure LanePath where
  /-- Gearbox: bits received and not yet cut into a block, and their number (R82). -/
  buf : Nat := 0
  nbits : Nat := 0
  /-- Block aligner (R83): good blocks in a row, blocks to wait after a slip, the last 64 verdicts (1 is bad). -/
  good : Nat := 0
  wait : Nat := 0
  bad : Nat := 0
  slipped : Bool := false
  /-- A slip that found no bits: the next received bit is passed over (R83). -/
  skip : Bool := false
  /-- Receive FIFO of at most 16 blocks (R86). -/
  fifo : List Block := []
  /-- The block on the taps, and the blocks of earlier facet cycles, latest first, for pay_delay (R86, R87). -/
  port : Block := { data := 0 }
  past : List Block := []
  /-- Descrambler history or state (R84). -/
  hist : Nat := 0
  /-- CRC engine register; the span is open when EDG_LANE_STATUS.span_open is 1 (R85). -/
  crc : Nat := 0
  /-- Payload packer (R87): the partial word, its bits, the latched tag, the first-of-crossing flag still to give. -/
  pack : Nat := 0
  packBits : Nat := 0
  tag : Nat := 0
  first : Bool := false
  /-- Words at the Prism port, oldest first. -/
  words : List PortWord := []
  /-- Transmit scrambler history and transmit CRC register and span (R84, R89). -/
  scr : Nat := 0
  txCrc : Nat := 0
  txOpen : Bool := false
  /-- The scheduler word that the logic sees in this facet cycle, and the words on their way to the overlay stage with the
  facet cycles that are left (R89). -/
  tap : Option TxWord := none
  txQ : List (TxWord × Nat) := []
  deriving DecidableEq, Repr

/-- One hard timer of a facet (R99). -/
structure HardTimer where
  count : Nat := 0
  running : Bool := false
  deriving DecidableEq, Repr

/-- One facet (R79): its planes hold the images as loaded, byte for byte. -/
structure Facet where
  active : List (BitVec 8) := []
  shadow : List (BitVec 8) := []
  /-- The image being fetched, whether its bytes came without an error response, and EDG_CFG_LEN at the start of the fetch
  (R107, R110). -/
  loading : List (BitVec 8) := []
  fetched : Bool := false
  loadLen : Nat := 0
  /-- The latest reconfiguration has passed its commit point and no other has been started since (R114, R583). -/
  switched : Bool := false
  /-- The clock code in force (R80, R112). -/
  clk : Nat := 2
  /-- The 256 macrocell registers (R93). -/
  cells : Nat := 0
  timers : Sparse HardTimer := []
  /-- Expiry pulses of this cycle, and those held through SWITCH (R99, R113). -/
  expired : Nat := 0
  held : Nat := 0
  /-- Previous samples of tick-3 sources and of the edge detectors, and the detectors' pulses of this cycle (R99, R101). -/
  tickPrev : Nat := 0
  prev : Nat := 0
  pulses : Nat := 0
  /-- The detectors that take their first RUN sample as their previous sample (R113). -/
  fresh : Nat := 0
  /-- Block memory rows by 1,024 × memory + row, and read data by 2 × memory + port (R97, R98). -/
  rows : Sparse Nat := []
  read : Sparse Nat := []
  /-- Global (8 × 32) and broadcast (32) lines as they stood one, two and three facet cycles ago (R96). -/
  lines1 : Nat := 0
  lines2 : Nat := 0
  lines3 : Nat := 0
  /-- The exported lines as last driven (R96, R112). -/
  exports : Nat := 0
  /-- Slot reference edges seen, and the facet cycles since each one whose strobe is still to come (R91). -/
  edges : Nat := 0
  strobes : List Nat := []
  /-- Output values and enables of the claimed GPIO pins (R108). -/
  gpioOut : Nat := 0
  gpioEn : Nat := 0
  /-- The exchange of the planes has completed and RUN awaits the next barrier; a resume awaits it too (R109). -/
  complete : Bool := false
  resume : Bool := false
  /-- The capture buffer, 30 words (R116). -/
  capture : List Nat := []
  paths : Sparse LanePath := []
  deriving DecidableEq, Repr

/-- The edge fabric (04). -/
structure Edge where
  facets : Sparse Facet := []
  /-- Slot reference edges and 1 µs ticks are counted here for the facets' strobes. -/
  edges : Nat := 0
  /-- The timing-facet multiplier in force (R120). -/
  mult : Nat := 21
  deriving DecidableEq, Repr

end Sys2Proof.Machine
end

