-- ==== Sys2Proof/Machine/StateGnomon.lean ====
section
/-! DEFINITION. The internal state of Gnomon (02) and of the front lanes (03), beside their registers. -/

namespace Sys2Proof.Machine

/-- An owner of named-slot actions (R43): a facet activation (R111), a Prism apply (R133), a program exchange (R232),
a commit set (R237), a system-epoch apply (R295), the margin plan that waits for its barrier (R250), and the commit point of
an Eclipse entry or of Dusk (R558). -/
inductive Owner where
  | plan
  | facet (f : Nat)
  | prism
  | exchange
  | cset (n : Nat)
  | epoch
  | power
  deriving DecidableEq, Repr

/-- One numbering of the timeline (R32): from crossing `start` on, crossing `zero` has index 0 and orbit `orbit`, and
orbits hold `length` crossings. -/
structure Seg where
  start : Nat
  zero : Nat
  length : Nat
  orbit : Nat
  deriving DecidableEq, Repr

/-- What Gnomon keeps of a tagged crossing for accepts and readout (R32, R41, R42). Bit 0 of `sources` is external,
bit 1 internal. -/
structure Tag where
  serial : Nat
  /-- Instant of the slot reference edge that tagged it, in fs. -/
  edge : Nat := 0
  index : Nat := 0
  orbit : Nat := 0
  numbered : Bool := false
  holdover : Bool := false
  event : Option Nat := none
  sources : Nat := 0
  deriving DecidableEq, Repr

/-- A sampled command word, the serial of its presentation edge, and the crossing that an ACCEPT names (R38, R40). -/
structure FcWord where
  word : Nat
  serial : Nat
  target : Nat
  deriving DecidableEq, Repr

/-- A pending named-slot action: the matcher holds the serial that the name denotes (R43). -/
structure Named where
  owner : Owner
  serial : Nat
  deriving DecidableEq, Repr

/-- An action armed with named = 0, with the slot barriers still to come (R43). -/
structure Unnamed where
  owner : Owner
  left : Nat
  deriving DecidableEq, Repr

/-- Gnomon (02). -/
structure Gno where
  /-- The serial that the next tagged crossing takes (R31). -/
  nextSerial : Nat := 0
  /-- The orbit number of the crossing tagged last, 48 bits (R35). -/
  orbit : Nat := 0
  /-- The event counter, 48 bits (R42). -/
  event : Nat := 0
  /-- The numberings, latest first (R32). -/
  segs : List Seg := []
  /-- The first serial at which an armed ORBIT_RESET may act (R644). -/
  orAfter : Nat := 0
  /-- The discontinuity of an ORBIT_RESET that has acted and awaits its barrier (R644). -/
  orDiscont : Bool := false
  /-- Sampled words whose effect barrier is still to come, oldest first (R38). -/
  words : List FcWord := []
  /-- The word whose effect stands at the standing barrier (R38, R39). -/
  effect : Option FcWord := none
  /-- The word sampled at the latest edge and at the edge before it, for the downlink (R70). -/
  sampled : Nat := 0
  sampledPrev : Nat := 0
  /-- The word that the timing facet presents for the next edge (R38), and the timing-facet cycles from its presentation
  on (R102). -/
  presented : Option Nat := none
  setup : Nat := 0
  /-- The injected word that waits (R38). -/
  inject : Option Nat := none
  /-- Pending named-slot actions (R43). -/
  named : List Named := []
  /-- Pending actions armed with named = 0 (R43). -/
  unnamed : List Unnamed := []
  /-- Actions due at the standing barrier and not yet performed. -/
  due : List Owner := []
  /-- The crossings tagged last, latest first (R41). -/
  tags : List Tag := []
  /-- Slots elapsed in HOLDOVER (R28). -/
  holdSlots : Nat := 0
  /-- The serial of the edge whose slot barrier stands, once one has been passed. -/
  barrier : Option Nat := none
  /-- Internal accepts of decisions with their release instants, to take effect at the first barrier after the release, and
  those whose effect stands at the standing barrier (R40). -/
  accepts : List (Nat × Nat) := []
  acceptsDue : List Nat := []
  /-- Instant of the latest entry to ACQUIRE (R44). -/
  acquireAt : Nat := 0
  /-- The value in force of each register whose write still waits (R30): GNO_XCLK_NOM, GNO_TRACK, GNO_PHASE at the next
  ACQUIRE; GNO_ORBIT_LEN, GNO_TAG_OFFSET at the next numbering; GNO_ACCEPT_LAT at the next barrier. -/
  oldNom : Option Nat := none
  oldTol : Option Nat := none
  oldPhase : Option Nat := none
  oldLen : Option Nat := none
  oldOffset : Option Nat := none
  oldLat : Option Nat := none
  deriving DecidableEq, Repr

/-- One front lane (03), beside its registers. -/
structure Lane where
  /-- Slow-channel bytes received and not yet framed (R60). -/
  rx : List (BitVec 8) := []
  /-- The held downlink slow frame, sync and CRC included (R73). -/
  frame : List (BitVec 8) := []
  /-- FLN_DL_CTRL and FLN_DL_WIN in force while a write awaits its barrier (R69). -/
  oldDl : Option (Nat × Nat) := none
  /-- Words passed to the facet with their tags, oldest first (R67). -/
  words : List TxWord := []
  /-- The restart of adaptation in READY runs (R53). -/
  adapting : Bool := false
  /-- The time since the last identity record, in fs, as it stood at the instant `idFrom`; none before the first record (R63,
  R64). -/
  idAge : Option Nat := none
  idFrom : Nat := 0
  deriving DecidableEq, Repr

end Sys2Proof.Machine
end

