-- ==== Sys2Proof/Machine/StateLedgerIn.lean ====
section
/-! DEFINITION. What the lanes forward to the far-side ledger (R63, R65). -/

namespace Sys2Proof.Machine

/-- One forwarded report. -/
inductive LedReport where
  /-- An identity record with its whole payload, whether the identity differs from the one last held, and that one. -/
  | identity (lane : Nat) (payload : List (BitVec 8)) (changed : Bool) (old : Nat)
  /-- The identity timed out. -/
  | absent (lane : Nat)
  /-- A telemetry value: quantity, group, value as its 32-bit word. -/
  | telemetry (lane quantity group value : Nat)
  deriving DecidableEq, Repr

end Sys2Proof.Machine
end

