-- ==== Sys2Proof/Machine/StateOut.lean ====
section
/-! DEFINITION. What the block sends over its pins: the model keeps it as a list in the state, so that a statement can
say what was sent. -/

namespace Sys2Proof.Machine

/-- One thing sent. -/
inductive Sent where
  /-- One 64-bit word on FTX of a front lane, bit 0 first, and the levels of its 32 symbols in the order sent where the lane
  runs in PAM4 (R48, R89). -/
  | front (lane word : Nat) (levels : List Int)
  /-- The words of one link slot by the link's key, each with the rear lane that carries it, its type flag and its bits: on a data
  link every word of the slot, IDLE included; on a beacon lane that is past TRAINING its marker and IDENT (R286, R296). -/
  | link (key : Nat) (words : List (Nat × Bool × Nat))
  /-- One Ethernet frame of a readout port, from its destination address to its payload (R336). -/
  | ether (port : Nat) (bytes : List (BitVec 8))
  /-- One beacon cell on a lane (R308). -/
  | cell (lane : Nat) (words : List Nat)
  /-- One CAN frame of a heartbeat, a boot-up message or a TPDO: its identifier and its data (R493, R497). -/
  | can (id : Nat) (bytes : List (BitVec 8))
  /-- One answer of the USDO server: identifier, object, abort code (0: none) and data, in the layout of CiA 1301 (R493). -/
  | usdo (id index sub code : Nat) (bytes : List (BitVec 8))
  /-- One EMCY message: identifier, error code, error register and data (R498). -/
  | emcy (id code register : Nat) (bytes : List (BitVec 8))
  /-- One Ethernet frame of the management port (R500). -/
  | mgt (bytes : List (BitVec 8))
  /-- One UDP datagram of the management port: the next hop's, the destination's IPv4 address, the destination and source
  port, and the payload (R500, R501). -/
  | udp (hop ip port src : Nat) (payload : List (BitVec 8))
  /-- What a register read that stands as a command of its own has returned. -/
  | value (word : Nat)
  /-- The response status, other than 0, of a register access that stands as a command of its own (R3, R430, R488). -/
  | refused (status : Nat)
  /-- The response to a side-port request that stands as a command of its own: initiator, tag, status, bytes read (R142, R143). -/
  | side (initiator tag status : Nat) (bytes : List (BitVec 8))
  /-- The answer of the SMBus target: a word, or none for a NACK, and the PEC byte where the host clocks a further one (R629). -/
  | smb (word : Option Nat) (pec : Option Nat)
  /-- An AVSBus Vout command: the rail and the voltage in mV (R530, R628). -/
  | avs (rail mv : Nat)
  deriving DecidableEq, Repr

end Sys2Proof.Machine
end

