-- ==== Sys2Proof/Machine/StateDic.lean ====
section
/-! DEFINITION. The internal state of the dictionary engine and its two interfaces (17), beside the DIC page. -/

namespace Sys2Proof.Machine

/-- A change journal entry (R516). -/
structure JnlEntry where
  seq : Nat
  time : Nat
  dawn : Nat
  source : Nat
  client : Nat
  sub : Nat
  flags : Nat
  index : Nat
  code : Nat
  old : Nat
  new : Nat
  deriving DecidableEq, Repr

/-- Where a request comes from: CAN (USDO or RPDO), or a Lantern session as address, UDP port and session number (R505);
the replay of a stored configuration (R577) has all rights and no journal. -/
inductive ReqSrc where
  | usdo
  | rpdo
  | lantern (ip port session : Nat)
  | replay
  deriving DecidableEq, Repr

/-- The open DOMAIN write (R505, R507). -/
structure DomainWrite where
  src : ReqSrc
  index : Nat
  sub : Nat
  /-- Announced length and bytes staged. -/
  total : Nat
  got : Nat := 0
  deriving DecidableEq, Repr

/-- A DOMAIN write that has been handed to its target and waits for the result (R508, R512). -/
structure Handed where
  src : ReqSrc
  index : Nat
  sub : Nat
  length : Nat
  crc : Nat
  deriving DecidableEq, Repr

/-- A segmented USDO transfer that is open (R496): an upload holds the bytes still to send. -/
structure UsdoXfer where
  index : Nat
  sub : Nat
  write : Bool
  total : Nat
  data : List (BitVec 8) := []
  /-- The object is a DOMAIN, and the bytes of it that have been read. -/
  domain : Bool := false
  got : Nat := 0
  deriving DecidableEq, Repr

/-- One item of a Lantern datagram (R502). -/
structure LanItem where
  op : Nat
  sub : Nat
  index : Nat
  type : Nat
  data : List (BitVec 8)
  deriving DecidableEq, Repr

/-- A datagram being executed (R504): where it came from, its header's numbers, the items still to do and the response
items so far. -/
structure LanReq where
  ip : Nat
  port : Nat
  session : Nat
  seq : Nat
  count : Nat
  stop : Bool
  todo : List LanItem
  done_ : List (BitVec 8) := []
  failed : Bool := false
  started : Bool := false
  deriving DecidableEq, Repr

/-- A request in the engine's queue (R486): a Lantern datagram with its items, a USDO request or segment, or an RPDO. -/
inductive DicReq where
  | lantern (r : LanReq)
  | request (index sub : Nat) (op : UsdoOp)
  | segment (op : UsdoSegment)
  | rpdo (n : Nat) (data : List (BitVec 8))
  deriving DecidableEq, Repr

/-- A session (R505); the list of sessions is ordered by use, the longest idle first. -/
structure LanSession where
  ip : Nat
  port : Nat
  session : Nat
  seq : Nat
  response : List (BitVec 8)
  deriving DecidableEq, Repr

/-- A channel table (R510), beside its scalar and its descriptor. -/
structure ChanTable where
  desc : Nat := 0
  apply : Nat := 0
  scalar : Nat := 0
  state : Nat := 0
  code : Nat := 0
  copyB : Bool := false
  /-- The value that its commit gives the register (R512). -/
  value : Nat := 0
  /-- The commit set that is armed for it. -/
  set : Option Nat := none
  /-- The ledger's rewrite holds the table in its state, with the number of its rewrites so far (R511, R547). -/
  ledger : Bool := false
  deriving DecidableEq, Repr

/-- A PDO's objects (R497, R520). -/
structure Pdo where
  cob : Nat
  kind : Nat
  inhibit : Nat := 0
  timer : Nat := 0
  map : List Nat := []
  count : Nat := 0
  /-- The instant of the latest TPDO, in fs, plus 1. -/
  sentAt : Nat := 0
  deriving DecidableEq, Repr

/-- The dictionary engine. -/
structure Dic where
  /-- The journal ring, oldest first, at most 4,096 (R517). -/
  journal : List JnlEntry := []
  domain : Option DomainWrite := none
  handed : Option Handed := none
  usdo : Option UsdoXfer := none
  reqs : List DicReq := []
  /-- A request is in its steps 3 to 6 of R487; a reset of the engine ends it. -/
  busy : Bool := false
  /-- The latest DOMAIN write handed to its target, for which an abort is too late (R489). -/
  lastDomain : Option Handed := none
  /-- The object of the latest USDO write that has completed (R496). -/
  lastUsdo : Option (Nat × Nat) := none
  sessions : List LanSession := []
  tables : Sparse ChanTable := []
  windows : Sparse Nat := []
  /-- 0x1014, 0x1015, 0x1017 where written; the codes of 0x1003, newest first (R498, R520). -/
  cobEmcy : Option Nat := none
  inhibitEmcy : Nat := 100
  heartbeat : Nat := 1000
  history : List Nat := []
  rpdo : Sparse (Option Pdo) := []
  tpdo : Sparse (Option Pdo) := []
  /-- The instant of the latest EMCY, in fs, plus 1 (R498), and the seq of the next notification (R506). -/
  emcyAt : Nat := 0
  noteSeq : Nat := 0
  /-- The node-ID and the bit rates in force since the latest reset communication (R492). -/
  node : Nat := 0
  rates : Nat := 0x1200
  /-- Values replayed into 0x1000 to 0x1FFF and 0x2001, which Initialisation applies: (index, subindex, value) (R577). -/
  defaults : List (Nat × Nat × Nat) := []
  /-- The second of the latest echo replies and their number (R500). -/
  echoSecond : Nat := 0
  echoes : Nat := 0
  deriving DecidableEq, Repr

end Sys2Proof.Machine
end

