-- ==== Sys2Proof/Machine/StateSeq.lean ====
section
/-! DEFINITION. The internal state of the sequencer, its control store, Beacon and the Glint stage (07 to 10), beside
their registers. -/

namespace Sys2Proof.Machine

/-- A loop counter (R191): its limit and its loop index LI. -/
structure LoopCtr where
  limit : Nat := 1
  li : Nat := 0
  deriving DecidableEq, Repr

/-- A context (R207) with the call arguments of R195; the defaults are the cleared context of R208. -/
structure Ctx where
  s : Sparse Nat := []
  loops : Sparse LoopCtr := []
  stack : List Nat := []
  z : Bool := false
  n : Bool := false
  tgt : Bool := false
  pc : Nat := 0x1400
  asrc : Nat := 0
  wn : Nat := 1
  wm : Nat := 1
  opt : Nat := 0
  deriving DecidableEq, Repr

/-- What the loader and admission count in an image (R229, R242 to R248). -/
structure ProgFacts where
  /-- Longest path of each stage (R227). -/
  fg : List Nat := []
  dec : Nat := 0
  decided : Nat := 0
  fullLast : Bool := false
  decOutside : Bool := false
  missing : Bool := false
  yield : Nat := 0
  /-- BR registers with a full request, and the Beacon waits as (register, timeout) (R245). -/
  fullRegs : Nat := 0
  waits : List (Nat × Nat) := []
  deriving DecidableEq, Repr

/-- One customer half: its image as loaded, its facts and its foreground context (R207, R226). -/
structure Half where
  image : List (BitVec 8) := []
  facts : ProgFacts := {}
  ctx : Ctx := {}
  /-- Crossings whose stage ended in this slot, as (stage, serial), for the chains of R214. -/
  ran : List (Nat × Nat) := []
  deriving DecidableEq, Repr

/-- What issues microwords now (R215). -/
inductive Who where
  | stage (half k serial : Nat)
  | background
  deriving DecidableEq, Repr

/-- A slot's microword stream (R214 to R217). -/
structure Run where
  foreground : Bool := false
  serial : Nat := 0
  /-- L, the cycles already numbered, and the number of the last STAGE_END. -/
  length : Nat := 0
  used : Nat := 0
  who : Option Who := none
  /-- Stages still to run, as (half, stage, serial). -/
  todo : List (Nat × Nat × Nat) := []
  /-- The running microword waits (R188). -/
  waiting : Bool := false
  /-- The vendor probe claims the slot's background (R221). -/
  claimed : Bool := false
  deriving DecidableEq, Repr

/-- A call of a library entry with its arguments loaded (R195). -/
structure LibCall where
  entry : Nat
  a : Nat
  b : Nat
  d : Nat
  t : Nat
  asrc : Nat
  k : Nat
  n : Nat
  m : Nat
  opt : Nat
  deriving DecidableEq, Repr

/-- What a primitive produces where the table names it: the planes of D, F, C, and where OVF and DZ are set. -/
structure LibOut where
  d : List Nat := []
  f : Option Nat := none
  c : Option Nat := none
  ovf : Nat := 0
  dz : Nat := 0
  deriving DecidableEq, Repr

/-- A primitive called and not yet returned: M at the call, the first-step scratch planes, the results and whether a
Worga read missed. -/
structure LibPlan where
  call : LibCall
  m : Nat
  first : List Nat
  out : LibOut
  miss : Bool
  deriving DecidableEq, Repr

/-- A library primitive that background is in the middle of (R218, R585), with the stretches still to run. -/
structure LibRun where
  plan : LibPlan
  stretches : List Nat
  deriving DecidableEq, Repr

/-- A Beacon request that has not settled (R261 to R265): the responders and the taking-part islands at the request. -/
structure BcnReq where
  reg : Nat
  full : Bool
  glint : Option Nat
  ext : Nat
  /-- The running stage's crossing, or none in background, and its half. -/
  serial : Option Nat
  half : Nat
  addr : Nat
  responders : Nat
  contrib : Nat
  deriving DecidableEq, Repr

/-- A settled result in an external queue (R265). -/
structure BcnResult where
  or : Bool
  full : Bool
  count : Nat
  first : Option Nat
  contrib : Nat
  serial : Option Nat
  addr : Nat
  deriving DecidableEq, Repr

/-- What a crossing's last stage has requested and landed for one Glint output (R267): each landed result with its OR,
its full flag, its count and its contributor mask, in landing order. -/
structure Landed where
  issued : Nat := 0
  results : List (Bool × Bool × Nat × Nat) := []
  deriving DecidableEq, Repr

/-- A pending release (R271): the release instant in fs, the half whose last stage decides it, the decided-output set. -/
structure Release where
  serial : Nat
  instant : Nat
  half : Nat
  set : Nat
  /-- The crossing's last stage is among the stages of a slot that has opened. -/
  last : Bool := false
  outs : Sparse Landed := []
  /-- Islands whose ARR_ISL_ERR.clk_slow has been set since the crossing's entry instant (R257). -/
  slow : Nat := 0
  deriving DecidableEq, Repr

/-- A Glint output's level and the configuration in force until the next barrier (R272 to R275). -/
structure Glint where
  /-- 0 inactive, 1 active, 2 zero differential. -/
  level : Nat := 2
  /-- BCN_GL_CFG.invert under which the level was driven (R272, R275). -/
  invert : Bool := false
  /-- The level is a pulse that has not ended (R272). -/
  pulse : Bool := false
  /-- BCN_GL_CFG, BCN_GL_THRESH, BCN_GL_WIDTH in force, while a write waits for its barrier. -/
  old : Option (Nat × Nat × Nat) := none
  deriving DecidableEq, Repr

/-- What the Glint stage passes to the readout engine at a release instant (R276). -/
structure ReleaseRec where
  serial : Nat
  /-- The release instant in fs. -/
  instant : Nat := 0
  set : Nat
  values : Nat
  overrun : Nat
  degraded : Nat
  deriving DecidableEq, Repr

/-- A proposed margin plan: the islands' periods in fs, the core voltage in mV and each island's T_max in °C (R527);
whether it is the second plan of its replanning (R532). -/
structure Plan where
  periods : List Nat
  voltage : Nat
  tmax : List Int
  second : Bool
  deriving DecidableEq, Repr

/-- An admission under way (R249, R253): the programs to test under the plan in force, and a proposed plan to test. -/
structure Admission where
  active : Bool
  umbra : Bool
  plan : Option Plan := none
  deriving DecidableEq, Repr

/-- An entry of the trace buffer (R637). -/
structure TraceEntry where
  addr : Nat
  cycle : Nat
  serial : Nat
  flags : Nat
  deriving DecidableEq, Repr

/-- The sequencer, Beacon and the Glint stage. -/
structure Seq where
  half0 : Half := {}
  half1 : Half := {}
  bg : Ctx := {}
  /-- The image being fetched, none where the fetch got an error response (R228). -/
  loading : Option (List (BitVec 8)) := none
  /-- The latest load and the latest exchange have passed their commit points (R583). -/
  loaded : Bool := false
  exchanged : Bool := false
  /-- Stage count and foreground slots of the DRAINING half (R231). -/
  drainStages : Nat := 0
  drained : Nat := 0
  run : Run := {}
  /-- A slot barrier stands whose slot has not opened yet, with the serial and the index-0 mark of the entering crossing;
  ARR_EPOCH has increased at it. -/
  opening : Bool := false
  enters : Option (Nat × Bool) := none
  /-- The standing barrier is a penumbra barrier (R231, R234). -/
  penumbra : Bool := false
  /-- Instant up to which the count of a timer of tick source 0 or 2 has been brought (R209). -/
  tmrFrom : Sparse Nat := []
  /-- Instant of the latest slot reference edge, and the promise in force at it (R21, R235). -/
  edgeAt : Nat := 0
  edgePromise : Nat := 40
  /-- First save plane of the Active background program (R221). -/
  bgSave : Option Nat := none
  /-- The next pass starts at bg_entry; a pass has issued and not reached BG_END; the latest pass has (R218 to R222). -/
  bgFresh : Bool := true
  inPass : Bool := false
  passDone : Bool := false
  abortPass : Bool := false
  lib : Option LibRun := none
  /-- Barriers since the vendor probe rate changed (R221). -/
  probe : Nat := 0
  /-- Detectors that take their next sample as the previous one (R234). -/
  fresh : Nat := 0
  /-- Commit sets that have passed their barrier since their last arming (R238). -/
  fired : Nat := 0
  requests : List BcnReq := []
  /-- External queues toward the Worga engine and the readout engine, at most 16 entries each (R265). -/
  toWorga : List BcnResult := []
  toReadout : List BcnResult := []
  releases : List Release := []
  /-- The serial launched last (R256). -/
  launched : Option Nat := none
  glints : Sparse Glint := []
  /-- SEQ_OVR_VALUE in force while a write waits for its barrier (R258). -/
  oldOvr : Option Nat := none
  /-- The serial of the latest overrun crossing (R257). -/
  ovrLast : Nat := 0
  /-- Release records for the readout engine, oldest first (R276). -/
  records : List ReleaseRec := []
  /-- BUSY: the value evaluated at the latest boundary and the slots of minimum assertion left (R278). -/
  busyNext : Bool := true
  busyLeft : Nat := 0
  admission : Option Admission := none
  /-- A plan that admission has passed and that waits for its barrier (R250). -/
  plan : Option Plan := none
  /-- A plan that the Active program has refused and that Tarnish has not yet taken notice of (R250, R532). -/
  planRefused : Option Plan := none
  /-- The hold ends at the next barrier (R251). -/
  holdEnds : Bool := false
  /-- The microwords of patch RAM, 24 bytes each; the rest is all-zero words (R574). -/
  patch : List (BitVec 8) := []
  /-- The trace buffer, oldest first (R637). -/
  trace : List TraceEntry := []
  deriving DecidableEq, Repr

end Sys2Proof.Machine
end

