-- ==== Sys2Proof/Machine/StateTarnish.lean ====
section
/-! DEFINITION. The internal state of Tarnish and of the far-side ledger (18), beside their registers. -/

namespace Sys2Proof.Machine

/-- A history point of an island (R534): its instant in fs, s_norm in fs, the ring-oscillator shift and T_max in °C. -/
structure HistPoint where
  time : Nat
  norm : Int
  shift : Int
  tmax : Int
  deriving DecidableEq, Repr

/-- A history point of a lane (R536): its instant, and the eye's height and width. -/
structure EyePoint where
  time : Nat
  height : Nat
  width : Nat
  deriving DecidableEq, Repr

/-- A droop window under way (R521): the 10 ms it covers, its lowest VDD_CORE in mV and its depth so far. -/
structure DroopWindow where
  index : Nat
  low : Nat
  deep : Nat
  deriving DecidableEq, Repr

/-- What Tarnish holds of one island. Temperatures are in units of 0.125 °C. -/
structure TarIsland where
  /-- The droop window under way (R521). -/
  window : Option DroopWindow := none
  /-- Steps of the SRAM sweep under way, 0 to 511 (R523). -/
  sweep : Nat := 0
  temp : Int := 0
  /-- The temperature at the latest replanning (R525). -/
  tempPlan : Int := 0
  /-- The readings that can still be the highest of 24 h, oldest first, as (instant, value): each is above all later ones. -/
  temps : List (Nat × Int) := []
  /-- The droop windows that can still be the deepest and the lowest of 24 h, oldest first. -/
  depths : List (Nat × Nat) := []
  lows : List (Nat × Nat) := []
  /-- The smallest canary slack in fs and the ring-oscillator shift last read (R521, R522). -/
  slack : Nat := 0
  shift : Int := 0
  /-- s_norm at the latest readings (R534). -/
  norm : Option Int := none
  slope : Option Int := none
  /-- History points, latest first, at most 256. -/
  hist : List HistPoint := []
  deriving DecidableEq, Repr

/-- What a replanning knows of one island when it computes its plans (R527), in fs, mV and °C. -/
structure PredIn where
  measured : Bool
  slack : Nat
  period : Nat
  tnow : Int
  tmax : Int
  droop : Nat
  age : Int
  guard : Nat
  vmin : Option Nat
  deriving DecidableEq, Repr

/-- Where a replanning stands (R526, R530). -/
inductive TarPhase where
  | idle
  /-- The sensors are being sampled. -/
  | sampling
  /-- The higher voltage has been ordered. -/
  | raising
  /-- TAR_AVS.settle_us runs. -/
  | settling
  /-- The plan is proposed. -/
  | proposed
  /-- The plan has been admitted and waits for its barrier. -/
  | admitted
  /-- The plan is in force and the lower voltage has been ordered. -/
  | lowering
  deriving DecidableEq, Repr

/-- An eye scan of Tarnish under way (R524): the lane (front lanes 0 to 223, rear lanes 256 + r), the eye being scanned,
the eyes still to scan, adapt_freeze before the scan, and the smallest height and width so far. -/
structure TarScan where
  lane : Nat
  eye : Nat
  left : List Nat
  freeze : Nat
  height : Nat
  width : Nat
  deriving DecidableEq, Repr

/-- Tarnish, beside its registers. -/
structure Tarnish where
  phase : TarPhase := .idle
  /-- Triggers not yet absorbed, bit n for code n (R525, R526). -/
  due : Nat := 0
  islands : Sparse TarIsland := []
  /-- T_max of each island in the plan in force, in °C; none until a plan has been applied. -/
  tmax : Option (List Int) := none
  /-- Of the replanning under way: the setpoint at its readings, v0, and the plan to propose. -/
  vNow : Nat := 750
  v0 : Nat := 0
  ins : List PredIn := []
  plan : Option Plan := none
  /-- Lanes still to scan and scans under way (R524); the latest eyes and the history of the lanes (R536). -/
  scanTodo : List Nat := []
  scans : List TarScan := []
  eyes : Sparse (Option (Nat × Nat)) := []
  lanes : Sparse (List EyePoint) := []
  /-- The probe period has been written and waits for its slot barrier (R523). -/
  probeDue : Bool := true
  deriving DecidableEq, Repr

/-- A record of the far-side ledger (R538), with the fraction accumulator q (R542), the latest bias current of each group,
and the points that wait for a place in the action queue (R546). -/
structure LedRec where
  identity : Nat := 0
  moduleType : Nat := 0
  fwVersion : Nat := 0
  state : Nat := 0
  warnDone : Bool := false
  eolDone : Bool := false
  present : Bool := false
  raises : Nat := 0
  probLeft : Nat := 0
  ratedHours : Nat := 0
  ratedHits : Nat := 0
  ratedDose : Nat := 0
  rawS : Nat := 0
  effS : Nat := 0
  life : Nat := 0
  hits : Nat := 0
  dose : Nat := 0
  temp : Nat := 0
  bias : Nat := 0
  clock : Nat := 0
  q : Nat := 0
  currents : Sparse Nat := []
  /-- A lane has been attached or presence has returned since the latest state change (R541). -/
  attached : Bool := false
  /-- Forget has been written (R541). -/
  forget : Bool := false
  /-- Point 3 has been reported done (R541). -/
  exitDone : Bool := false
  /-- Wake from Eclipse or Dawn after Off stands (R541). -/
  woken : Bool := false
  /-- Every lane of the record has been taken by another record (R541). -/
  emptied : Bool := false
  /-- Point 3 has been posted in this stay in PROBATION (R548). -/
  exitPosted : Bool := false
  deriving DecidableEq, Repr

/-- What the retention SRAM keeps of a record, its image (R538); the fraction accumulator and what the ledger's logic and resident
firmware hold beside it are lost with their power (R542, R559). That its lanes have gone follows from the lane map, which is kept. -/
def LedRec.kept (x : LedRec) : LedRec :=
  { x with q := 0, currents := [], attached := false, forget := false, exitDone := false, woken := false, exitPosted := false }

/-- The setpoint of a point that resident firmware sends (R547): the attempts made, the lane and sequence byte of the latest, whether
its acknowledgement is awaited, and how the setpoint ended: acknowledged with status 0, or failed. -/
structure LedSend where
  point : Nat
  attempts : Nat := 0
  lane : Nat := 0
  seq : Nat := 0
  waits : Bool := false
  acked : Bool := false
  failed : Bool := false
  deriving DecidableEq, Repr

/-- Where resident firmware stands with the point it carries out (R547): the table sequences have been started, and the setpoints
that it sends. -/
structure LedWork where
  record : Nat
  point : Nat
  started : Bool := false
  sends : List LedSend := []
  deriving DecidableEq, Repr

/-- The far-side ledger, beside its registers. -/
structure Ledger where
  recs : Sparse LedRec := []
  /-- The record of a lane, plus 1; 0 where the lane is unmapped (R539). -/
  laneRec : Sparse Nat := []
  /-- The action queue, oldest first, and the points held because it was full, as (record, point) (R546). -/
  queue : List (Nat × Nat) := []
  held : List (Nat × Nat) := []
  /-- LED_HIT_LANE and LED_HIT_ADD_LO per initiator (R544). -/
  hitLane : Sparse Nat := []
  hitLow : Sparse Nat := []
  /-- Lanes with a Missing contribution since the latest tick (R548). -/
  missed : Sparse Bool := []
  /-- The record whose threshold raises a lane's channels carry, plus 1 (R547). -/
  prev : Sparse Nat := []
  /-- Points taken from the queue and not yet reported (R546). -/
  work : List LedWork := []
  deriving DecidableEq, Repr

end Sys2Proof.Machine
end

