-- ==== Sys2Proof/Machine/StatePower.lean ====
section
/-! DEFINITION. The power manager, the boot flash, the test access port and the boundary scan (19, 21), beside their
registers. -/

namespace Sys2Proof.Machine

/-- What the mirror of Tarnish's history holds (R534). -/
structure TarMirror where
  islands : List (Nat × List HistPoint)
  lanes : Sparse (List EyePoint)
  deriving DecidableEq, Repr

/-- The boot flash (R570, R571). -/
structure Flash where
  /-- The bytes from offset 0 on; an erased byte reads as 0xFF. The mirrors of the journal and of the ledger and the Dawn count stand
  here too. -/
  bytes : Sparse (BitVec 8) := []
  /-- The mirror of Tarnish's history, whose 256 KiB at 0x1B4_0000 have no layout in the spec. -/
  history : Option TarMirror := none
  /-- What the flash's parameter table says; none where the flash gives none (R570). -/
  sfdp : Option Sfdp := none
  deriving DecidableEq, Repr

/-- The power manager (R553 to R567). -/
structure Power where
  /-- The device is held in reset until the next RESET_N rise (R566, R619, R620). -/
  held : Bool := false
  /-- Every domain but the always-on one is off or held in reset (R558, R564, R620). -/
  gated : Bool := false
  /-- PWRGD is high (R566, R619). -/
  pwrgd : Bool := true
  /-- VDD_AON has left its range: no domain is powered (R553, R566). -/
  off : Bool := false
  /-- THERMTRIP_N is asserted (R620). -/
  thermtrip : Bool := false
  /-- RESET_N has risen and Dawn has not run (R568). -/
  dawnReady : Bool := true
  /-- The retention SRAM has lost its contents since the last Dawn: Dawn after Off. -/
  lost : Bool := true
  /-- Regions of the retention SRAM that are invalid (R559): bit 0 journal, 1 ledger, 2 Tarnish history, 3 error queue,
  4 dictionary store. -/
  invalid : Nat := 0
  /-- The state left by the entry under way, and its last step (R558, R564). -/
  left : Nat := 0
  step : Nat := 0
  /-- The latest entry or Dusk has passed its commit point (R583). -/
  past : Bool := false
  /-- Doze or Run from the next slot barrier on (R557). -/
  mode : Option Nat := none
  /-- Islands that executed at the entry (R563). -/
  islands : Nat := 0
  /-- Instant of the latest kick of the watchdog (R567). -/
  kickAt : Nat := 0
  /-- The power-loss flag (R566). -/
  lossFlag : Bool := false
  /-- What D2 has taken from the flash's parameter table beside what BOT_FLASH shows: the quad-enable requirement, the 4-byte address
  entry method and the 4 KiB erase instruction (R570). -/
  quadEnable : Nat := 0
  addressEntry : Nat := 0
  erase4k : Nat := 0
  /-- The image of a store under way, and whether a dictionary client waits for it; a vendor bundle (R578). -/
  store : Option (List (BitVec 8)) := none
  bundle : Option (List (BitVec 8)) := none
  deriving DecidableEq, Repr

/-- What drives the pins (R634). -/
inductive PinDrive where
  | functional | extest | clamp | highz | pulse | train
  deriving DecidableEq, Repr

/-- The test access port (R634 to R636). -/
structure Tap where
  /-- The instruction in force, by its code; IDCODE at Test-Logic-Reset. -/
  ir : Nat := 1
  /-- What the selected data register holds after Capture-DR. -/
  dr : Nat := 0
  /-- The boundary register's update latches (R635). -/
  boundary : Nat := 0
  pins : PinDrive := .functional
  /-- MEM_ACCESS: last read data, done, error, busy (R636). -/
  data : Nat := 0
  done_ : Bool := false
  error : Bool := false
  busy : Bool := false
  /-- The access that waits for a free tag: a write or not, its address and its data (R442, R636). -/
  waits : Option (Bool × Nat × Nat) := none
  deriving DecidableEq, Repr

end Sys2Proof.Machine
end

