-- ==== Sys2Proof/Machine/StatePrism.lean ====
section
/-! DEFINITION. The internal state of Prism (05), beside its registers. A plane is the set of the PEs whose bit is 1, as
a number: bit p stands for logical PE p = 512 × row + column (R124). -/

namespace Sys2Proof.Machine

/-- One lane's maps of a configuration (R125, R139); the defaults are the registers' reset values. -/
structure LaneMap where
  enable : Bool := false
  tagMode : Nat := 0
  fill : Nat := 0
  delay : Nat := 0
  first : Nat := 0
  run : Nat := 1
  count : Nat := 0
  bits : Nat := 1
  dlFirst : Nat := 0
  dlRun : Nat := 1
  dlCount : Nat := 0
  dlBits : Nat := 1
  dlPlane : Nat := 0
  deriving DecidableEq, Repr

/-- One rear stream's map (R140). -/
structure RearMap where
  first : Nat := 0
  run : Nat := 1
  count : Nat := 0
  bits : Nat := 1
  plane : Nat := 0
  deriving DecidableEq, Repr

/-- A whole configuration: the working one, an armed one (R133). The defaults are the reset values. -/
structure PrismCfg where
  lin : Nat := 16
  intake : Nat := 2
  outbound : Nat := 0
  sel0 : Nat := 0
  sel1 : Nat := 1
  lanes : Sparse LaneMap := []
  rears : Sparse RearMap := []
  deriving DecidableEq, Repr

/-- A contribution of a lane to a pending crossing: its words so far and the instant of its last word (R128). -/
structure Contrib where
  serial : Nat
  words : List Nat := []
  long : Bool := false
  last : Nat := 0
  deriving DecidableEq, Repr

/-- Where the words that follow a first-of-crossing word go (R128). -/
inductive OpenTo where
  | nothing
  | crossing (serial : Nat)
  | late (serial : Nat)
  | stray
  deriving DecidableEq, Repr

/-- The alignment buffer of a lane (R127 to R129). -/
structure LaneBuf where
  contribs : List Contrib := []
  current : OpenTo := .nothing
  /-- The last complete contribution, for fill 2 (R129). -/
  remembered : Option (List Nat) := none
  /-- Pending crossings that a numbering made Missing for this lane (R136). -/
  missed : List Nat := []
  deriving DecidableEq, Repr

/-- A crossing tagged in RUNNING or HOLDOVER, between its slot reference edge and its commit (R128, R132); a gap crossing
keeps the configuration under which it was tagged (R134). -/
structure Pending where
  serial : Nat
  index : Nat
  holdover : Bool
  gap : Option PrismCfg := none
  deriving DecidableEq, Repr

/-- A committed crossing: its identity, the P and the pipeline selects under which it was committed, and whether R134
committed it. -/
structure Entered where
  serial : Nat
  index : Nat
  holdover : Bool
  planes : Nat
  gap : Bool
  sel0 : Nat := 0
  sel1 : Nat := 1
  deriving DecidableEq, Repr

/-- The hand-off of a crossing to the HBM controllers: the two selected planes with 0 for the islands outside SERVICE, and
the islands in SERVICE at the entry instant, with HBM_PIPE_CTRL in force and whether the pipeline stores (R137, R167, R319,
R320). -/
structure Handoff where
  crossing : Entered
  pipe : Nat
  storing : Bool
  half0 : Nat
  half1 : Nat
  service : Nat
  deriving DecidableEq, Repr

/-- A side-port piece of at most 64 bytes: the byte offset in its plane, its length, its data for a write, and the
initiator and tag that await the response (R141, R142). -/
structure Piece where
  offset : Nat
  len : Nat
  data : List (BitVec 8)
  initiator : Nat
  tag : Nat
  /-- Byte position of the piece in its request, and whether an island answered with an error (R143). -/
  pos : Nat := 0
  bad : Bool := false
  deriving DecidableEq, Repr

/-- A request at the side port whose response is still to come: who sent it, its tag, its length, its direction (R142, R143). -/
structure Ask where
  initiator : Nat
  tag : Nat
  len : Nat
  write : Bool
  deriving DecidableEq, Repr

/-- A side-port queue entry: one plane access (R142). -/
structure SideEntry where
  write : Bool
  plane : Nat
  pieces : List Piece
  deriving DecidableEq, Repr

/-- Prism (05). -/
structure Prism where
  work : PrismCfg := {}
  armed : Option PrismCfg := none
  /-- The copy whose barrier B stands, where a later apply has armed another since (R133). -/
  fixed : Option PrismCfg := none
  /-- The latest apply has passed its barrier, so that an abort is too late (R583). -/
  applied : Bool := false
  bufs : Sparse LaneBuf := []
  pend : List Pending := []
  /-- Gap crossings whose words count as stray (R134). -/
  gaps : List Nat := []
  /-- Crossings whose deadline has passed within the 4,096 slots before, latest first, with their index (R128). -/
  settled : List (Nat × Nat) := []
  /-- The two intake banks, plane 63 being the valid plane: what the array sees and what Prism fills (R123, R124). -/
  inVisible : Sparse Nat := []
  inHidden : Sparse Nat := []
  /-- The crossing whose stage 1 runs in this slot; that of the hidden bank. -/
  visible : Option Entered := none
  hidden : Option Entered := none
  /-- Outbound banks, 64 planes each: the one the array sees and the hidden one (R124). -/
  outVisible : Sparse Nat := []
  outHidden : Sparse Nat := []
  /-- The outbound planes copied after the latest barrier, and those for the downlink slots and streams of the latest
  edge (R138). -/
  copyNext : Sparse Nat := []
  copy : Sparse Nat := []
  handoffs : List Handoff := []
  /-- The side-port queue, at most 256 entries, and the pieces the ring stop holds (R142). -/
  side : List SideEntry := []
  held : List (Bool × Nat × Piece) := []
  /-- Pieces performed whose response is still to leave, reads with their data (R142, R143). -/
  performed : List (Bool × Nat × Piece) := []
  /-- The requests that stand as commands of their own and await their response. -/
  asks : List Ask := []
  /-- Entries present at the token and still to perform at this barrier, at most three (R142). -/
  turns : Nat := 0
  /-- The last apply armed the registers as they now stand (R133). -/
  clean : Bool := true
  deriving DecidableEq, Repr

end Sys2Proof.Machine
end

