-- ==== Sys2Proof/Machine/StateWorga.lean ====
section
/-! DEFINITION. The internal state of the Worga engine (11), beside its registers. -/

namespace Sys2Proof.Machine

/-- A word on a link with its type flag, true for a control word (R284). -/
abbrev LinkWord := Bool × Nat

/-- Where a frame of the bulk window comes from (R298). -/
inductive Origin where
  | stream (r : Nat)
  | transit
  | firmware (tag : Nat)
  deriving DecidableEq, Repr

/-- A bulk or stream frame that waits on a link (R298, R299): destination device and descriptor address, source device,
payload words without the descriptor, how many are sent, and the first and last marks it arrived with. -/
structure Frame where
  origin : Origin := .transit
  type : Nat
  device : Nat
  source : Nat
  addr : Nat
  payload : List Nat
  sent : Nat := 0
  first : Bool := true
  last : Bool := true
  /-- The frame has no payload, not even a descriptor (R288). -/
  bare : Bool := false
  deriving DecidableEq, Repr

/-- A link's internal state (R292, R293, R305). -/
structure WLink where
  /-- Consecutive good IDENT words, and the latest of them (R292). -/
  identRun : Nat := 0
  ident : Nat := 0
  /-- Offsets in fs of the latest consecutive matched markers, latest first, with their index-0 marks (R293). -/
  marks : List (Nat × Bool) := []
  /-- Consecutive markers in SERVICE that were not matched (R292). -/
  misses : Nat := 0
  /-- The index that the latest marker carried (R305). -/
  marker : Option Nat := none
  /-- The open frame: its SOF and the payload words so far, latest first (R288). -/
  rx : Option (Nat × List Nat) := none
  /-- The next sequence number by frame type (R287). -/
  next : Sparse Nat := []
  /-- Frames in transit, in arrival order (R298). -/
  transit : List Frame := []
  /-- Stream frames that wait for the next link slot (R299). -/
  streams : List Frame := []
  /-- The lane of the link's group that carries the next link word (R286). -/
  turn : Nat := 0
  /-- Words received on the lanes of the group that wait for earlier ones of other lanes, and the lane that brings the next link
  word (R286). -/
  waits : Sparse (List LinkWord) := []
  rxTurn : Nat := 0
  /-- Control words received with an unknown code (R287). -/
  badWords : Nat := 0
  deriving DecidableEq, Repr

/-- The edge bits captured for an enabled halo entry: its number, its address and the bits by side (R303). -/
structure Capture where
  n : Nat
  addr : Nat
  north : Nat
  east : Nat
  south : Nat
  west : Nat
  deriving DecidableEq, Repr

/-- Halo planes held for the slot they serve, each an address and its bits (R305). -/
structure HeldHalo where
  link : Nat
  side : Nat
  serves : Nat
  planes : List (Nat × Nat)
  deriving DecidableEq, Repr

/-- A firmware frame (R300). -/
structure TxFrame where
  tag : Nat
  src : Nat
  dst : Nat
  device : Nat
  words : Nat
  sent : Nat := 0
  /-- The first fragment has started, its commit point (R300). -/
  started : Bool := false
  deriving DecidableEq, Repr

/-- The key of a combining entry (R308, R309). -/
structure TreeKey where
  index : Nat
  orbit : Nat
  uaddr : Nat
  deriving DecidableEq, Repr

/-- The fields of a beacon cell (R308). -/
structure Cell where
  or : Bool := false
  full : Bool := false
  none : Bool := true
  part : Bool := false
  key : TreeKey := { index := 0, orbit := 0, uaddr := 0 }
  devices : Nat := 0
  count : Nat := 0
  p : Nat := 0
  dev : Nat := 0
  deriving DecidableEq, Repr

/-- An open key: the inputs that have arrived and the instant at which it opened (R309). -/
structure OpenKey where
  key : TreeKey
  openedAt : Nat
  own : Option Cell := none
  children : List (Nat × Cell) := []
  deriving DecidableEq, Repr

/-- A posted write that an engine has handed to the ring and that has not reached its target yet: the data link it came
from, its address and its bytes (R302). -/
structure Posted where
  link : Nat
  addr : Nat
  data : List (BitVec 8)
  deriving DecidableEq, Repr

/-- The Worga engine. -/
structure Wor where
  links : Sparse WLink := []
  captured : List Capture := []
  held : List HeldHalo := []
  /-- The halo delay in force while a write waits for its barrier (R305). -/
  oldDelay : Option Nat := none
  frames : List TxFrame := []
  /-- Tags whose latest frame has passed its commit point (R300, R583). -/
  txPast : Nat := 0
  /-- The latest system-epoch apply has passed its barrier (R295). -/
  epochFired : Bool := false
  keys : List OpenKey := []
  /-- Closed keys with the serial current at their close (R309). -/
  closed : List (TreeKey × Nat) := []
  /-- The latest system result, and those passed to the readout engine, oldest first (R311). -/
  sys : Cell := {}
  sysOut : List Cell := []
  /-- Landings handed to the ring (R302). -/
  posted : List Posted := []
  deriving DecidableEq, Repr

end Sys2Proof.Machine
end

