-- ==== Sys2Proof/Machine/StateReadout.lean ====
section
/-! DEFINITION. The internal state of the HBM controllers and of the readout engine (12), beside their registers. -/

namespace Sys2Proof.Machine

/-- An array-transfer channel (R323, R324). -/
structure Xfer where
  /-- Bytes of a one-shot copy still to land. -/
  left : Nat := 0
  /-- The latest one-shot copy has landed, its commit point. -/
  landed : Bool := false
  /-- Planes of a recall still to be written at the standing barrier, and whether the tag named the crossing. -/
  recallSt : Nat := 0
  tagOk : Bool := false
  deriving DecidableEq, Repr

/-- The HBM controllers (12). -/
structure Hbm where
  /-- HBM_PIPE_CTRL in force while a write waits for its barrier (R319). -/
  oldPipe : Option Nat := none
  /-- The serial of the latest tag written (R346). -/
  last : Nat := 0
  xfers : Sparse Xfer := []
  deriving DecidableEq, Repr

/-- A readout configuration (R344); the defaults are the registers' reset values. -/
structure RdoCfg where
  enable : Bool := false
  keep : Bool := false
  hold : Nat := 0
  reserve : Nat := 0x10
  pre : Nat := 0
  post : Nat := 0
  mode : Nat := 1
  min : Nat := 1
  rows : Nat := 4
  cols : Nat := 0x10
  uaddr : Nat := 0
  promise : Nat := 100
  gbps : Nat := 100
  lat : Nat := 1000
  mtu : Nat := 9000
  base : Nat := 0
  size : Nat := 0
  deriving DecidableEq, Repr

/-- What the engine keeps for a crossing (R327): Beacon entries, system results, the release record. -/
structure Kept where
  beacons : List BcnResult := []
  systems : List Cell := []
  release : Option ReleaseRec := none
  /-- The gather of an event that covers the crossing has begun. -/
  gathered : Bool := false
  deriving DecidableEq, Repr

/-- Where an event stands. -/
inductive Phase where
  | queued
  | gathering
  | gathered
  | assembled
  deriving DecidableEq, Repr

/-- An event taken (R326, R328). -/
structure Event where
  number : Nat
  serial : Nat
  orbit : Nat
  index : Nat
  holdover : Bool
  /-- Bit 0 external, bit 1 internal. -/
  sources : Nat
  cfg : RdoCfg
  takenAt : Nat
  /-- The instant at which the window's last crossing entered, once it has (R328). -/
  enterAt : Option Nat := none
  charge : Nat
  /-- The skip reason, 0 for an event that is read out (R342). -/
  skip : Nat := 0
  phase : Phase := .queued
  /-- What was kept of each window crossing when the gather began (R327). -/
  window : List Kept := []
  release : Option ReleaseRec := none
  /-- No entry gave mode 2 its centre: the event uses mode 1 (R331). -/
  fellBack : Bool := false
  body : List (BitVec 8) := []
  partial_ : Bool := false
  /-- Frames sent, and the ports READY when the first was sent (R338). -/
  sent : Nat := 0
  ports : List Nat := []
  deriving DecidableEq, Repr

/-- A readout port beside its registers (R335, R336). -/
structure Port where
  /-- The destination MAC learned by ARP. -/
  mac : Option Nat := none
  ident : Nat := 0
  /-- ICMP echo requests answered in the second that began at the instant given. -/
  echoes : Nat := 0
  second : Nat := 0
  deriving DecidableEq, Repr

/-- The readout engine (12). -/
structure Rdo where
  work : RdoCfg := {}
  /-- A configuration that applies at the next slot barrier (R344). -/
  armed : Option RdoCfg := none
  /-- The finish estimate Φ in fs (R342). -/
  phi : Nat := 0
  /-- Events, oldest first (R326). -/
  events : List Event := []
  /-- The crossings for which something is kept, by serial (R327). -/
  kept : Sparse Kept := []
  /-- The number of the next frame (R338). -/
  frame : Nat := 0
  ports : Sparse Port := []
  deriving DecidableEq, Repr

end Sys2Proof.Machine
end

