-- ==== Sys2Proof/Machine/StateRing.lean ====
section
/-! DEFINITION. The state of the ring network, the DMA channels and the semaphore unit (15, 16), beside the RNG, SPD and
SEM pages. -/

namespace Sys2Proof.Machine

/-- The commands of requests and of the posted/event class (R431). -/
inductive Cmd where
  | read | write | amoAdd | amoSwap | writeP | event
  deriving DecidableEq, Repr

/-- A packet toward a target (R430). -/
structure Pkt where
  ini : Nat
  cmd : Cmd
  /-- Tag slot of the source stop. -/
  slot : Nat := 0
  epoch : Nat := 0
  g : Bool := false
  ring : Nat := 0
  dir : Nat := 0
  addr : Nat
  len : Nat
  data : List (BitVec 8) := []
  /-- An EVENT that a store to CPU_THR_EVENTS has become, an access of its thread (R375, R432). -/
  store : Bool := false
  /-- The packet was ended with a poison flit after this many intact bytes (R447). -/
  cut : Option Nat := none
  deriving DecidableEq, Repr

/-- What an initiator does with the response to a request. -/
inductive Purpose where
  /-- The access of a thread that waits. -/
  | wait
  /-- A posted store of a thread: its core address, issued in the trap window or not (R373). -/
  | posted (addr : Nat) (inTrap : Bool)
  /-- A descriptor fetch of a DMA channel (R450). -/
  | descriptor
  /-- The read of a piece: its source and destination (R451). -/
  | piece (src dst : Nat)
  /-- The write of a piece: its destination. -/
  | stored (dst : Nat)
  /-- A request of another unit. -/
  | unit
  deriving DecidableEq, Repr

/-- The request is a posted store of a thread. -/
def Purpose.isPosted : Purpose → Bool
  | .posted _ _ => true
  | _ => false

/-- A transaction that holds a tag (R442). -/
structure Txn where
  ini : Nat
  slot : Nat
  epoch : Nat
  dst : Nat
  g : Bool
  len : Nat
  purpose : Purpose
  deriving DecidableEq, Repr

/-- A response under way (R430): status 0 OK, 1 error, 2 poisoned, 3 refused. -/
structure Rsp where
  ini : Nat
  slot : Nat
  epoch : Nat
  cmd : Cmd
  src : Nat
  status : Nat
  /-- The address of the request. -/
  addr : Nat := 0
  /-- The request's g, and the ring and the direction as taken (R430, R433). -/
  g : Bool := false
  ring : Nat := 0
  dir : Nat := 0
  data : List (BitVec 8) := []
  deriving DecidableEq, Repr

/-- Flits that the ring has carried (R455): the ring and the direction, the stops between which they went, the instant of their
arrival and their number. -/
structure Carried where
  ring : Nat
  dir : Nat
  src : Nat
  dst : Nat
  at_ : Nat
  flits : Nat
  deriving DecidableEq, Repr

/-- A DMA descriptor (R450). -/
structure Desc where
  src : Nat
  dst : Nat
  rowLen : Nat
  rows : Nat
  ctrl : Nat
  srcStride : Int
  dstStride : Int
  next : Nat
  deriving DecidableEq, Repr

/-- A DMA channel (R450 to R454). -/
structure Dma where
  /-- The descriptor in progress. -/
  desc : Option Desc := none
  /-- The next piece: its row and its offset in the row. -/
  row : Nat := 0
  off : Nat := 0
  /-- A piece that was read and whose WRITE waits for a tag: its source, its destination and its bytes. -/
  ready : Option (Nat × Nat × List (BitVec 8)) := none
  /-- The READ or descriptor fetch that comes next waits for a tag. -/
  fetching : Bool := false
  /-- The last WRITE of the last descriptor has been issued, the commit point (R453). -/
  committed : Bool := false
  aborting : Bool := false
  /-- Responses to requests of an earlier chain, which an error has ended, are still outstanding: the fetch of the new chain's
  descriptor waits for them (R454). -/
  draining : Bool := false
  deriving DecidableEq, Repr

/-- The ring network. -/
structure Ring where
  /-- Packets on their way, in the order of their injection. -/
  reqs : List Pkt := []
  rsps : List Rsp := []
  /-- Transactions that hold a tag, retired tags, and freed tags held out of the pool (R442, R443, R447). -/
  outs : List Txn := []
  retired : List Txn := []
  kept : List Txn := []
  /-- Posted stores of threads that have been stopped or reset, whose bus error counts as lost (R398). -/
  orphans : List Txn := []
  /-- Packets held at injection for a sleeping stop or a changed route (R434, R445). -/
  held : List Pkt := []
  /-- Entries of alternate routes whose next packet takes ring B, by 64 × stop + entry (R433). -/
  turns : Sparse Bool := []
  /-- Changed route entries with the tag slots of the earlier transactions that still wait (R434). -/
  changed : List (Nat × List Nat) := []
  /-- The holding register of RNG_INI_RSP_CNT, by initiator (R449). -/
  rspHold : List (Nat × Nat) := []
  /-- Since when an initiator waits for a free tag (R442). -/
  tagWaits : Sparse (Option Nat) := []
  /-- Stops for which a WAKE_REQ is under way (R445). -/
  waking : List Nat := []
  /-- Interfaces whose WAKE_DONE was discarded: the stop, and the stop that has woken (R444, R445). -/
  deaf : List (Nat × Nat) := []
  dmas : Sparse Dma := []
  /-- The packets that have arrived within the last 1,024 ring cycles, latest first (R455). -/
  carried : List Carried := []
  /-- Requests whose pieces are in Prism's side-port queue (R142). -/
  sideReqs : List Pkt := []
  deriving DecidableEq, Repr

/-- A queued wait (R469). -/
structure SemWait where
  ini : Nat
  sem : Nat
  prio : Nat
  deriving DecidableEq, Repr

/-- The semaphore unit. -/
structure Sem where
  /-- Queued waits, oldest first, at most 18. -/
  waits : List SemWait := []
  /-- Initiators with the semaphores that they hold through the grant of a wait: what CANCEL finds too late (R469, R583). -/
  granted : List (Nat × Nat) := []
  /-- The length in µs of the running lease of each held semaphore (R474). -/
  leases : Sparse Nat := []
  deriving DecidableEq, Repr

end Sys2Proof.Machine
end

