-- ==== Sys2Proof/Machine/State.lean ====
section
/-! DEFINITION. The state of the block as plain data, its reset value, and the reasons a command can stop. -/

namespace Sys2Proof.Machine

/-- Why the machine stops. -/
inductive Fault where
  /-- Raised by no command: every command has the effect that the spec gives it, error responses and error bits included;
  safe. -/
  | none
  deriving DecidableEq, Repr

/-- Why a command has no meaning. -/
inductive Refusal where
  /-- Raised by `exec` for a command that the model gives no meaning yet; safe. -/
  | notModelled (mnemonic : String)
  deriving DecidableEq, Repr

/-- The state of the block. -/
structure State where
  /-- The commands that wait, first in, first out. -/
  pending : List Instr
  /-- Every field of every control and status register, by the field's key: the exclusive-or of its value and its
  reset value, so that a field at its reset value is not listed (R4). -/
  csr : Sparse Nat
  /-- The dictionary engine's own copies of the fields with access code RC, by the field's key: no read clears them (R45,
  R642). -/
  counts : Sparse Nat
  /-- The instant, in fs since power-on, that the last timed command named. -/
  now : Nat
  /-- The instant of the end of the last Dawn (R516, R597). -/
  dawnAt : Nat
  /-- How many free values have been taken; the model's own. -/
  freeCount : Nat
  /-- What the block has sent and nobody has taken, oldest first; the model's own record of its outputs. -/
  sent : List Sent
  /-- The bytes of HBM, scratchpad, mailbox and local RAM by physical address; an unlisted byte reads as 0. -/
  mem : List Host.Cell
  /-- The aligned 64-bit words that hold an uncorrectable error, by physical address of their first byte. -/
  poison : Sparse Bool
  gno : Gno
  edge : Edge
  /-- Reports forwarded to the ledger and not yet taken by a ledger tick (R63, R65). -/
  ledIn : List LedReport
  pri : Prism
  arr : Arr
  seq : Seq
  wor : Wor
  hbm : Hbm
  rdo : Rdo
  cpu : Cpu
  ring : Ring
  sem : Sem
  tar : Tarnish
  led : Ledger
  dic : Dic
  pwr : Power
  flash : Flash
  tap : Tap
  lanes : Sparse Lane
  erq : Erq
  deriving DecidableEq, Repr

/-- The machine right after reset: every register at its reset value, every queue and buffer empty. -/
def State.reset : State where
  pending := []
  csr := []
  counts := []
  now := 0
  dawnAt := 0
  freeCount := 0
  sent := []
  mem := []
  poison := []
  gno := {}
  edge := {}
  ledIn := []
  pri := {}
  arr := {}
  seq := {}
  wor := {}
  hbm := {}
  rdo := {}
  cpu := {}
  ring := {}
  sem := {}
  tar := {}
  led := {}
  dic := {}
  pwr := {}
  flash := {}
  tap := {}
  lanes := []
  erq := {}

end Sys2Proof.Machine
end

