-- ==== Sys2Proof/Machine/Ops.lean ====
section
/-! DEFINITION. The named operations over the registers, the counters and the error reports, which every meaning uses. -/

namespace Sys2Proof.Machine

/-- The value of a register field, instance (i, j). -/
def State.get (s : State) (f : Fld) (i : Nat := 0) (j : Nat := 0) : Nat :=
  Sparse.get 0 s.csr (f.key i j) ^^^ f.reset i j

/-- Stores a register field, instance (i, j), in its width. -/
def State.put (s : State) (f : Fld) (v : Nat) (i : Nat := 0) (j : Nat := 0) : State :=
  { s with csr := Sparse.set 0 s.csr (f.key i j) ((v % 2 ^ f.width) ^^^ f.reset i j) }

/-- A one-bit field as a truth value. -/
def State.bit (s : State) (f : Fld) (i : Nat := 0) (j : Nat := 0) : Bool := s.get f i j != 0

/-- A field whose two's complement value counts. -/
def State.getInt (s : State) (f : Fld) (i : Nat := 0) (j : Nat := 0) : Int := toInt f.width (s.get f i j)

/-- The copy of an RC field that the dictionary engine keeps (R45, R642). -/
def State.copyOf (s : State) (f : Fld) (i : Nat := 0) (j : Nat := 0) : Nat := Sparse.get 0 s.counts (f.key i j)

/-- Changes the dictionary engine's copy of an RC field: it saturates as the field does (R642). -/
def State.updCopy (s : State) (f : Fld) (g : Nat → Nat) (i : Nat := 0) (j : Nat := 0) : State :=
  { s with counts := Sparse.upd 0 s.counts (f.key i j) fun c => min (2 ^ f.width - 1) (g c) }

/-- Adds to a counter: an RC counter stays at its largest value, and so does the dictionary engine's copy (R642); any other
wraps. -/
def State.add (s : State) (f : Fld) (n : Nat) (i : Nat := 0) (j : Nat := 0) : State :=
  let v := s.get f i j + n
  match f.acc with
  | .rc => (s.put f (if 2 ^ f.width ≤ v then 2 ^ f.width - 1 else v) i j).updCopy f (fun c => c + n) i j
  | _ => s.put f v i j

/-- Raises an RC field that shows a largest value, and the dictionary engine's copy of it. -/
def State.raiseTo (s : State) (f : Fld) (v : Nat) (i : Nat := 0) (j : Nat := 0) : State :=
  (s.put f (max (min v (2 ^ f.width - 1)) (s.get f i j)) i j).updCopy f (fun c => max v c) i j

/-- Counts one (R642). -/
def State.inc (s : State) (f : Fld) (i : Nat := 0) (j : Nat := 0) : State := s.add f 1 i j

/-- Joins a report to a unit's pending reports: a pending key counts on, up to 65,536, and takes the new detail; a new
key goes to the end (R596). -/
def joinReport (r : Report) : List Report → List Report
  | [] => [r]
  | q :: qs =>
    if q.page = r.page ∧ q.inst = r.inst ∧ q.code = r.code ∧ q.core = r.core then
      { q with count := min 65536 (q.count + r.count), last := r.last } :: qs
    else q :: joinReport r qs

/-- The block of the CPU page that a report comes from (R428, R596): that of its thread for a bit of CPU_THR_ERR, that of its core
for a bit of CPU_ISA_ERR, the keeper's for a Blackout, and for an access that of its address. -/
def reportCore (page inst code detail : Nat) : Nat :=
  if page ≠ 14 then 0
  else if code = 0xF003 then 4
  else if 32 * 9 ≤ code ∧ code < 32 * 10 then min 4 (inst / 4)
  else if inst ≠ 0xFFFF then min 4 inst
  else
    let a := detail % 2 ^ 40
    min 4 (if a < 0x3000000000 then a % 65536 / 0x1000 else (a - 0x3200000000) / 0x1000000)

/-- Sends one report toward the error queue (R595, R596). -/
def State.report (s : State) (page inst code detail : Nat) : State :=
  let r : Report := { page, inst, code, count := 1, first := detail, last := detail, core := reportCore page inst code detail }
  { s with erq := { s.erq with reports := joinReport r s.erq.reports } }

/-- The report code of a register bit (R595). -/
def Fld.errCode (f : Fld) (b : Nat) : Nat := 32 * (f.code / 4) + f.lsb + b

/-- The instance that a report carries when none applies (R595). -/
def noInst : Nat := 0xFFFF

/-- Sets a one-bit error field and reports it once to the error queue (R595). -/
def State.err (s : State) (f : Fld) (i : Nat := 0) (inst : Nat := noInst) (detail : Nat := 0) (j : Nat := 0) : State :=
  (s.put f 1 i j).report f.page inst (f.errCode 0) detail

/-- Sets bit `b` of a status mask and reports it once to the error queue (R595). -/
def State.errBit (s : State) (f : Fld) (b : Nat) (i : Nat := 0) (inst : Nat := noInst) (detail : Nat := 0) : State :=
  (s.put f (s.get f i ||| 2 ^ b) i).report f.page inst (f.errCode b) detail

/-- Sets one bit of a mask field. -/
def State.setBit (s : State) (f : Fld) (b : Nat) (v : Bool) (i : Nat := 0) (j : Nat := 0) : State :=
  let o := s.get f i j
  s.put f (if v then o ||| 2 ^ b else o - (if o.testBit b then 2 ^ b else 0)) i j

/-- A free value of `w` bits: a value that the spec leaves open (log entry). -/
def State.fresh (s : State) (w : Nat) : Nat := Config.free s.freeCount % 2 ^ w

/-- Counts one free value as taken. -/
def State.tookFree (s : State) : State := { s with freeCount := s.freeCount + 1 }

/-- The clock of the model never runs back. -/
def State.at (s : State) (t : Nat) : State := { s with now := max s.now t }

/-- µs since the last Dawn, 48 bits (R597, R604). -/
def State.usSinceDawn (s : State) : Nat := ((s.now - s.dawnAt) / 1000000000) % 2 ^ 48

/-- The raw 32-bit word of a register, with no side effect. -/
def State.regWord (s : State) (page off : Nat) : Nat :=
  ((fieldsOfPage page).foldl (fun a f => match f.locate off with
    | some (i, j) => if f.acc = .wo then a else a ||| s.get f i j <<< f.lsb
    | none => a) 0)

/-- A write of the bits `m` of value `v` to one field, by its access code (R4) and its clamp (R591). -/
def State.wrField (s : State) (f : Fld) (m v : Nat) (i : Nat := 0) (j : Nat := 0) : State :=
  let old := s.get f i j
  let mf := bits m f.lsb f.width
  let vf := bits v f.lsb f.width
  let merged := (old &&& (2 ^ f.width - 1 - mf)) ||| (vf &&& mf)
  match f.acc with
  | .rw => if mf = 0 then s else s.put f (f.clampTo old merged) i j
  | .w1c => s.put f (old &&& (2 ^ f.width - 1 - (vf &&& mf))) i j
  | .w1s => s.put f (old ||| (vf &&& mf)) i j
  | .ro | .wo | .rc => s

/-- A write of the bits `m` of `v` to every field of the register at an offset of a page (R4, R591). -/
def State.wrReg (s : State) (page off m v : Nat) : State :=
  (fieldsOfPage page).foldl (fun s f => match f.locate off with
    | some (i, j) => s.wrField f m v i j
    | none => s) s

/-- The bits that a write of `m`, `v` brings to a write-only field (R591). -/
def woField (f : Fld) (m v : Nat) : Nat := bits v f.lsb f.width &&& bits m f.lsb f.width

/-- A write of the bits `m` reaches the field (R591). -/
def writes (f : Fld) (m : Nat) : Bool := bits m f.lsb f.width != 0

/-- All 32 bits of a register are written. -/
def allBits : Nat := 0xFFFFFFFF

/-- The state of a front lane beside its registers. -/
def State.lane (s : State) (n : Nat) : Lane := Sparse.get {} s.lanes n

/-- Changes the state of a front lane. -/
def State.updLane (s : State) (n : Nat) (f : Lane → Lane) : State := { s with lanes := Sparse.upd {} s.lanes n f }

/-- Changes Gnomon's internal state. -/
def State.updGno (s : State) (f : Gno → Gno) : State := { s with gno := f s.gno }

end Sys2Proof.Machine
end

