-- ==== Sys2Proof/Machine/Mem.lean ====
section
/-! DEFINITION. The physical memory map and the bytes behind it (R316, R358, R460, R466). -/

namespace Sys2Proof.Machine

/-- What an unlisted byte reads as. -/
def memDefault : BitVec 8 := 0

/-- The plain memory that stands at a physical address. -/
inductive MemKind where
  | hbm
  | scratchpad (bank : Nat)
  | mailbox
  | localRam (core : Nat)
  deriving DecidableEq, Repr

/-- Size of the local RAM of a core; the keeper is core 4 (R358). -/
def lramSize (c : Nat) : Nat := if c = 4 then 0x10000 else 0x20000

/-- The memory at an address, if one stands there. -/
def memKind (a : Nat) : Option MemKind :=
  if a < 0x0400000000 then some .hbm
  else if 0x1000000000 ≤ a ∧ a < 0x1000800000 then some (.scratchpad ((a - 0x1000000000) / 0x100000))
  else if 0x1000800000 ≤ a ∧ a < 0x1000810000 then some .mailbox
  else if 0x3200000000 ≤ a ∧ a < 0x3205000000 then
    let c := (a - 0x3200000000) / 0x1000000
    if (a - 0x3200000000) % 0x1000000 < lramSize c then some (.localRam c) else none
  else none

/-- Where core `c`'s local RAM stands for the ring (R358). -/
def lramBase (c : Nat) : Nat := 0x3200000000 + 0x1000000 * c

/-- One byte of memory. -/
def State.byte (s : State) (a : Nat) : BitVec 8 := Sparse.get memDefault s.mem a

/-- Writes one byte of memory. -/
def State.setByte (s : State) (a : Nat) (b : BitVec 8) : State := { s with mem := Sparse.set memDefault s.mem a b }

/-- `n` bytes from address `a` upward. -/
def State.bytesAt (s : State) (a : Nat) : Nat → List (BitVec 8)
  | 0 => []
  | n + 1 => s.byte a :: s.bytesAt (a + 1) n

/-- Writes bytes from address `a` upward. -/
def State.setBytes (s : State) (a : Nat) : List (BitVec 8) → State
  | [] => s
  | b :: bs => (s.setByte a b).setBytes (a + 1) bs

/-- The little-endian number of `n` bytes at `a` (R1). -/
def State.leMem (s : State) (a n : Nat) : Nat := leNat (s.bytesAt a n)

/-- Writes a little-endian number of `n` bytes at `a` (R1). -/
def State.setLeMem (s : State) (a n v : Nat) : State := s.setBytes a (leBytes n v)

/-- The bytes of the SECDED words at an address (R318, R361, R463, R466). -/
def eccWord (a : Nat) : Nat :=
  match memKind a with
  | some (.localRam _) => 4
  | _ => 8

/-- The range touches the SECDED word at `w`; with `part`, without covering it whole. -/
def eccTouches (a n : Nat) (part : Bool) (w : Nat) : Bool :=
  let k := eccWord a
  w % k == 0 && decide (a < w + k) && decide (w < a + n) && !(part && decide (a ≤ w) && decide (w + k ≤ a + n))

/-- The first entry of each word. -/
def eccFirst (m : EccMap) : EccMap := m.foldl (fun l e => if l.any (fun x => x.1 == e.1) then l else l ++ [e]) []

/-- Some aligned 64-bit word that the range touches holds an uncorrectable error. -/
def State.poisoned (s : State) (a n : Nat) : Bool :=
  (List.range ((a + n + 7) / 8 - a / 8)).any fun i => Sparse.get false s.poison (8 * (a / 8 + i))

/-- The state of an HBM stack (R317): 0 OFF, 1 INIT, 2 RUN, 3 SELF_REFRESH, 4 FAULT. -/
def State.stack (s : State) (k : Nat) : Nat := if k = 0 then s.get HBM_STATUS.stack0 else s.get HBM_STATUS.stack1

/-- Shows the state of an HBM stack. -/
def State.putStack (s : State) (k v : Nat) : State :=
  if k = 0 then s.put HBM_STATUS.stack0 v else s.put HBM_STATUS.stack1 v

/-- The stacks that a range of HBM addresses touches are in RUN; other memory is always served (R316, R317). -/
def State.memUp (s : State) (a n : Nat) : Bool :=
  memKind a != some .hbm ||
    ((s.stack (a / 256 % 2) == 2) && (s.stack ((a + n - 1) / 256 % 2) == 2) &&
      (decide (n ≤ 256) || (s.stack 0 == 2 && s.stack 1 == 2)))

/-- The words of a range in which the check finds an error (R318, R361, R464): those of HBM known to be uncorrectable, then those
of the map. With `part` only the words that the range does not cover whole. A stack that is not in RUN is not read. -/
def State.eccFound (s : State) (a n : Nat) (part : Bool) (ecc : EccMap) : EccMap :=
  let here (w : Nat) : Bool := eccTouches a n part w && s.memUp w 8
  ((s.poison.filter fun e => e.2 && here e.1).map fun e => (e.1, Codeword.uncorrectable)) ++
    (eccFirst ecc).filter fun e => here e.1 && e.2 != .good && !Sparse.get false s.poison e.1

/-- An uncorrectable error is among those found. -/
def eccBad (m : EccMap) : Bool := m.any fun e => e.2 == .uncorrectable

/-- Writes bytes to memory: an aligned word that is written whole holds no error any more (R318). -/
def State.writeMem (s : State) (a : Nat) (bs : List (BitVec 8)) : State :=
  { s.setBytes a bs with poison := s.poison.keep fun w => !(decide (a ≤ w) && decide (w + 8 ≤ a + bs.length)) }

/-- Every byte of the range is plain memory. -/
def memRange (a n : Nat) : Bool := (List.range n).all fun i => (memKind (a + i)).isSome

/-- The stretches of plain memory without a gap (R316, R460, R466): a range whose ends lie in one stretch is plain memory. -/
def MemKind.stretch : MemKind → Nat
  | .hbm => 0
  | .scratchpad _ | .mailbox => 1
  | .localRam c => 2 + c

/-- The bytes that a fetch of `n` bytes at `a` brings, or none when it gets an error response: an address that no memory
serves, a stack that is not in RUN or an uncorrectable word (R317, R318). -/
def State.fetchBytes (s : State) (a n : Nat) : Option (List (BitVec 8)) :=
  if n = 0 then some []
  else if (memKind a).isSome ∧ (memKind a).map MemKind.stretch = (memKind (a + n - 1)).map MemKind.stretch ∧ s.memUp a n ∧ ¬ s.poisoned a n then some (s.bytesAt a n) else none

/-- The memory form: rising addresses and no entry equal to what an unlisted address reads as. -/
def Memory.wf (m : List Host.Cell) : Bool := Sparse.wf memDefault m

end Sys2Proof.Machine
end

