-- ==== Sys2Proof/Machine/Boot.lean ====
section
/-! DEFINITION. The boot flash, its directories and images, and the loading of firmware and of the patch (R570 to R575). -/

namespace Sys2Proof.Machine

/-- What an erased byte of the flash reads as. -/
def flashErased : BitVec 8 := 0xFF

/-- `n` bytes of the flash from offset `a` on. -/
def Flash.read (f : Flash) (a : Nat) : Nat → List (BitVec 8)
  | 0 => []
  | n + 1 => Sparse.get flashErased f.bytes a :: f.read (a + 1) n

/-- Programs bytes from offset `a` on. -/
def Flash.program (f : Flash) (a : Nat) : List (BitVec 8) → Flash
  | [] => f
  | b :: bs => Flash.program { f with bytes := Sparse.set flashErased f.bytes a b } (a + 1) bs

/-- Erases `n` bytes from offset `a` on. -/
def Flash.erase (f : Flash) (a n : Nat) : Flash := { f with bytes := f.bytes.keep fun k => !(decide (a ≤ k) && decide (k < a + n)) }

/-- The units of `k` bytes, counted from `base`, of which the `n` bytes from `base` on hold a byte that is not erased, in ascending
order. -/
def Flash.units (f : Flash) (base n k : Nat) : List Nat :=
  let l := (f.bytes.filter fun e => decide (base ≤ e.1) && decide (e.1 < base + n)).map fun e => (e.1 - base) / k
  l.foldr (fun u r => if r.head? = some u then r else u :: r) []

/-- The Dawn count's place, four bytes of which hold it (R571); an erased one counts 0. -/
def dawnCountBase : Nat := 0x1B80000

/-- The Dawn count that the flash holds. -/
def Flash.dawns (f : Flash) : Nat :=
  let n := leNat (f.read dawnCountBase 4)
  if n = 0xFFFFFFFF then 0 else n

/-- An entry of a directory (R572). -/
structure DirEntry where
  type : Nat
  index : Nat
  offset : Nat
  length : Nat
  ver : Nat
  deriving DecidableEq, Repr

/-- The entries of a directory that passes its checks (R572). -/
def readDirectory (d : List (BitVec 8)) : Option (List DirEntry) :=
  let n := leAt d 6 2
  if leAt d 0 4 ≠ 0x52444B53 ∨ leAt d 4 2 ≠ 1 ∨ 127 < n ∨ crc32Field d 8 ≠ leAt d 8 4 then none
  else some ((List.range n).map fun e =>
    { type := leAt d (16 + 32 * e) 1, index := leAt d (17 + 32 * e) 1, offset := leAt d (20 + 32 * e) 4,
      length := leAt d (24 + 32 * e) 4, ver := leAt d (28 + 32 * e) 4 })

/-- Bytes `o` to `o + n - 1` are all 0. -/
def zeroAt (b : List (BitVec 8)) (o n : Nat) : Bool := (slice b o n).all (· == 0)

/-- The check of an image, header and payload, of the wanted type (R573): 0 valid, 1 header or type, 2 crc32, 3 signature.
`signed_` and `enc` say what the type demands; `limit` is the largest size. -/
def imageCheck (b : List (BitVec 8)) (type limit : Nat) (signed_ enc : Bool) : Nat :=
  let fl := leAt b 7 1
  let len := leAt b 8 4
  if b.length < 160 ∨ leAt b 0 4 ≠ 0x4D494B53 ∨ leAt b 4 2 ≠ 1 ∨ leAt b 6 1 ≠ type ∨ 4 ≤ fl ∨ ¬ zeroAt b 52 12 ∨
      (fl.testBit 0 != enc) ∨ (fl.testBit 1 != signed_) ∨ (¬ enc ∧ ¬ zeroAt b 20 28) ∨ (¬ signed_ ∧ ¬ zeroAt b 64 96) ∨
      limit < 160 + len ∨ b.length < 160 + len then 1
  else
    let img := b.take (160 + len)
    let zeroed := img.take 48 ++ List.replicate 4 0 ++ slice img 52 44 ++ List.replicate 64 0 ++ img.drop 160
    if crc32 zeroed ≠ leAt b 48 4 then 2
    else if signed_ ∧ ¬ (Config.keyTrusted (type != 4) (slice img 64 32) ∧ Config.signatureOk img) then 3
    else 0

/-- The payload of an image. -/
def imagePayload (b : List (BitVec 8)) : List (BitVec 8) := (b.drop 160).take (leAt b 8 4)

/-- The image area of directory A (0) or B (1) (R571). -/
def imageArea (d : Nat) : Nat × Nat := if d = 0 then (0x2000, 0x400000) else (0x400000, 0x800000)

/-- Directory A (0) or B (1), where it passes its crc32. -/
def State.directory (s : State) (d : Nat) : Option (List DirEntry) := readDirectory (s.flash.read (0x1000 * d) 4096)

/-- The image of a type and index in directory `d` with the outcome of its check; none where it names none. Its length is the
entry's; for types 1 and 2 aux + length must lie inside the local RAM (R573). -/
def State.imageIn (s : State) (d type index : Nat) : Option (List (BitVec 8) × Nat) :=
  match (s.directory d).bind fun es => es.find? fun e => e.type == type && (e.index == index || (type == 2 && e.index == 0xFF)) with
  | none => none
  | some e =>
    let (lo, hi) := imageArea d
    if e.offset < lo ∨ hi < e.offset + e.length then some ([], 1)
    else
      let b := s.flash.read e.offset e.length
      let c := if 160 + leAt b 8 4 ≠ e.length then 1 else imageCheck b type e.length true (type == 3)
      let ram := lramSize (if type = 1 then 4 else index)
      let c := if c = 0 ∧ (leAt b 12 4 ≠ e.ver ∨ (type ≤ 2 ∧ ram < leAt b 16 4 + leAt b 8 4)) then 1 else c
      some (b, c)

/-- Shows an error code of Dawn (R575); of several the lowest stays. -/
def State.dawnErr (s : State) (e : Nat) : State :=
  let old := s.get BOT_STATUS.err
  if old = 0 ∨ e < old then s.put BOT_STATUS.err e else s

/-- The quad read that the boot ROM takes: the 1-4-4 fast read, or the 1-1-4 one where that is absent (R570). -/
def fastRead (p : Sfdp) : Option FastRead := p.read144.orElse fun _ => p.read114

/-- Step D2: the flash is found and its reading selected (R570), and both directories are read; the error code or 0 (R575). -/
def State.flashFound (s : State) : State × Nat :=
  match s.flash.sfdp.bind fun p => (fastRead p).map fun r => (p, r) with
  | none => (s, 2)
  | some (p, r) =>
    if p.density < 25 then (s, 3)
    else
      let s := ((s.put BOT_FLASH.density p.density).put BOT_FLASH.read r.read).put BOT_FLASH.dummy r.dummy
      let s := s.put BOT_FLASH.sck_mhz (200 / max 2 (s.get BOT_QSPI_DIV.div))
      let s : State := { s with pwr := { s.pwr with quadEnable := p.quadEnable, addressEntry := p.addressEntry, erase4k := p.erase4k } }
      (s, if (s.directory 0).isNone && (s.directory 1).isNone then 4 else 0)

/-- An invalid image is reported (R575). -/
def State.imageBad (s : State) (c : Nat) : State := if c = 3 then s.err BOT_ERR.sig_fail else s.err BOT_ERR.crc_fail

/-- The valid image of a type and index: from directory A, else from B, in recovery mode from B only (R569, R575). -/
def State.bootImage (s : State) (mode type index : Nat) : State × Option (List (BitVec 8)) :=
  let fromB (s : State) : State × Option (List (BitVec 8)) := match s.imageIn 1 type index with
    | some (b, 0) => (s, some b)
    | some (_, c) => (s.imageBad c, none)
    | none => (s, none)
  if mode = 1 then fromB s
  else match s.imageIn 0 type index with
    | some (b, 0) => (s, some b)
    | some (_, c) => fromB ((s.imageBad c).put BOT_STATUS.fallback 1)
    | none => fromB (s.put BOT_STATUS.fallback 1)

/-- Loads firmware into the local RAM of a core (4 is the keeper) and names its start address (R568, D3, D5). -/
def State.loadFirmware (s : State) (c : Nat) (img : List (BitVec 8)) : State :=
  let aux := leAt img 16 4
  let ver := leAt img 12 4
  let s := s.writeMem (lramBase c + aux) (imagePayload img)
  let s := if c = 4 then s.put BOT_KEEPER_VER.ver ver else s.put BOT_CORE_VER.ver ver c
  s.put CPU_THR_PC_START.pc (aux / 4) c 0

/-- Writes the patch's microwords into patch RAM, the rest of which is filled with all-zero words (R574). -/
def State.setPatch (s : State) (plain : List (BitVec 8)) : State :=
  { s with seq := { s.seq with patch := plain } }

/-- Loads the patch, which has passed its signature check (R574): false where it fails. -/
def State.loadPatch (s : State) (img : List (BitVec 8)) : State × Bool :=
  match Config.decryptPatch (slice img 20 12) (img.take 20) (imagePayload img) (slice img 32 16) with
  | some p =>
    if p.length % 24 = 0 ∧ p.length ≤ 24576 then ((s.setPatch p).put BOT_PATCH_VER.ver (leAt img 12 4), true)
    else (((s.setPatch []).put BOT_PATCH_VER.ver 0).err BOT_ERR.patch_fail, false)
  | none => (((s.setPatch []).put BOT_PATCH_VER.ver 0).err BOT_ERR.patch_fail, false)

/-- The local RAM of a core loses its contents. -/
def State.clearLram (s : State) (c : Nat) : State :=
  let inRam (a : Nat) : Bool := decide (lramBase c ≤ a) && decide (a < lramBase c + lramSize c)
  { s with mem := s.mem.filter fun e => !inRam e.1, poison := s.poison.keep fun w => !inRam w }

end Sys2Proof.Machine
end

