-- ==== Sys2Proof/Machine/Threads.lean ====
section
/-! DEFINITION. The threads of the control cores and of the keeper: their registers, events and timers (R350 to R352,
R395, R400 to R405). -/

namespace Sys2Proof.Machine

/-- The core of a thread number; 4 is the keeper. -/
def coreOf (u : Nat) : Nat := u / 4

/-- The thread number within its core. -/
def lane4 (u : Nat) : Nat := u % 4

/-- There are threads 0 to 16, the last being the keeper's (R422). -/
def isThread (u : Nat) : Bool := u < 17

/-- A thread. -/
def State.th (s : State) (u : Nat) : Th := Sparse.get {} s.cpu.threads u

/-- Changes a thread. -/
def State.updTh (s : State) (u : Nat) (f : Th → Th) : State :=
  { s with cpu := { s.cpu with threads := Sparse.upd {} s.cpu.threads u f } }

/-- What the threads of a core share. -/
def State.core (s : State) (c : Nat) : Core := Sparse.get {} s.cpu.cores c

/-- Changes what the threads of a core share. -/
def State.updCore (s : State) (c : Nat) (f : Core → Core) : State :=
  { s with cpu := { s.cpu with cores := Sparse.upd {} s.cpu.cores c f } }

/-- The state of a thread (R395): 0 OFF, 1 RUN, 2 WAIT, 3 HALTED, 4 DEBUG. -/
def State.thState (s : State) (u : Nat) : Nat := s.get CPU_THR_STATUS.state (coreOf u) (lane4 u)

/-- Shows the state of a thread. -/
def State.putThState (s : State) (u v : Nat) : State := s.put CPU_THR_STATUS.state v (coreOf u) (lane4 u)

/-- The window whose registers a thread names (R351). -/
def Th.window (t : Th) : Nat := if t.inTrap then 8 else t.cur

/-- An integer register by its code (R350). -/
def Th.reg (t : Th) (r : Nat) : Nat :=
  if r = 0 then 0 else if r < 8 then Sparse.get 0 t.g r % 2 ^ 32 else Sparse.get 0 t.w (16 * t.window + (r - 8)) % 2 ^ 32

/-- Writes an integer register by its code; g0 discards (R350). -/
def Th.setReg (t : Th) (r v : Nat) : Th :=
  let v := v % 2 ^ 32
  if r = 0 then t
  else if r < 8 then { t with g := Sparse.set 0 t.g r v }
  else { t with w := Sparse.set 0 t.w (16 * t.window + (r - 8)) v }

/-- An FP register (R383). -/
def Th.freg (t : Th) (r : Nat) : Nat := Sparse.get 0 t.f r % 2 ^ 64

/-- Writes an FP register. -/
def Th.setFreg (t : Th) (r v : Nat) : Th := { t with f := Sparse.set 0 t.f r (v % 2 ^ 64) }

/-- Copies four registers from window `a`, register `i` on, to window `b`, register `j` on (R351). -/
def Th.copy4 (t : Th) (a i b j : Nat) : Th :=
  { t with w := (List.range 4).foldl (fun w n => Sparse.set 0 w (16 * b + j + n) (Sparse.get 0 t.w (16 * a + i + n))) t.w }

/-- CC_WSTATE as a word (R382). -/
def Th.wstate (t : Th) : Nat := t.cur + 16 * t.live

/-! ### Events (R402 to R405) -/

/-- The enable bits of the hardware events, in their places. -/
def State.evEnabled (s : State) (u : Nat) : Nat := s.get CPU_THR_EVEN.en (coreOf u) (lane4 u) <<< 16

/-- The pending events of a thread can change: those of a halted one are frozen (R415). -/
def State.takesEvents (s : State) (u : Nat) : Bool := isThread u && s.thState u != 3

/-- A hardware event reaches a thread: set only while its enable bit is 1 (R402). -/
def State.raiseEvent (s : State) (u b : Nat) : State :=
  if s.takesEvents u && (s.evEnabled u).testBit b then s.updTh u fun t => { t with events := t.events ||| 2 ^ b } else s

/-- A hardware event reaches the 16 threads of the control cores (R402). -/
def State.raiseAll (s : State) (b : Nat) : State := (List.range 16).foldl (fun s u => s.raiseEvent u b) s

/-- Software events land at a thread (R403). -/
def State.softEvents (s : State) (u m : Nat) : State :=
  if s.takesEvents u then s.updTh u fun t => { t with events := t.events ||| m % 2 ^ 16 } else s

/-- The base priority of a thread, or the larger level that the semaphore unit signals for it (R400). -/
def State.effPrio (s : State) (u : Nat) : Nat :=
  max (s.th u).prio (if u < 16 && s.bit SEM_INH.signalled u then s.get SEM_INH.level u else 0)

/-- The hardware events of a thread whose source is armed (R402), in their places. A running DMA channel that names the
thread arms bit 18. -/
def State.armedBits (s : State) (u : Nat) : Nat :=
  let c := coreOf u
  let t := lane4 u
  let dma : Bool := (List.range 16).any fun n =>
    s.get RNG_DMA_CTRL.thread n == u && (s.get RNG_DMA_STATUS.state n == 1 || s.get RNG_DMA_STATUS.state n == 2)
  let src : Nat := (if s.bit CPU_THR_TMR_STAT.running c t then 0x10000 else 0)
    + (if s.bit SEM_INI_WAIT.waiting u then 0x20000 else 0) + (if dma then 0x40000 else 0) + 0xF80000
  s.evEnabled u &&& src

/-- A thread in WAIT holds a pending event or an armed source of its mask (R419, CPU_THR_STATUS.armed). -/
def State.waitArmed (s : State) (u : Nat) : Bool :=
  match (s.th u).hold with
  | .event _ m => s.thState u == 2 && (m &&& ((s.th u).events ||| s.armedBits u) != 0)
  | _ => false

/-- A write of 1 to CPU_THR_TMR_STAT.start (R405). -/
def State.timerStart (s : State) (u : Nat) : State :=
  let c := coreOf u
  let t := lane4 u
  let s := s.put CPU_THR_TMR_STAT.count (s.get CPU_THR_TMR_LOAD.reload c t) c t
  (s.put CPU_THR_TMR_STAT.running 1 c t).updTh u fun h => { h with tmrAt := s.now }

/-- A write of 1 to CPU_THR_TMR_STAT.stop (R405): the count that has been reached stays. -/
def State.timerStop (s : State) (u : Nat) : State :=
  let c := coreOf u
  let t := lane4 u
  if ¬ s.bit CPU_THR_TMR_STAT.running c t then s
  else
    let gone := (s.now - (s.th u).tmrAt) / 1000000000
    (s.put CPU_THR_TMR_STAT.count (max 1 (s.get CPU_THR_TMR_STAT.count c t - gone)) c t).put CPU_THR_TMR_STAT.running 0 c t

/-- A tick takes the count of a running timer from 1 to 0 (R405). -/
def State.thrTimerExpiry (s : State) (u : Nat) : State :=
  let c := coreOf u
  let t := lane4 u
  if ¬ s.bit CPU_THR_TMR_STAT.running c t then s
  else
    let s := s.raiseEvent u 16
    if s.bit CPU_THR_TMR_LOAD.periodic c t then s.timerStart u
    else (s.put CPU_THR_TMR_STAT.count 0 c t).put CPU_THR_TMR_STAT.running 0 c t

end Sys2Proof.Machine
end

