-- ==== Sys2Proof/Machine/Semaphores.lean ====
section
/-! DEFINITION. The semaphore unit (R469 to R476). -/

namespace Sys2Proof.Machine

/-- Changes the semaphore unit's internal state. -/
def State.updSem (s : State) (f : Sem → Sem) : State := { s with sem := f s.sem }

/-- The bit of initiator `i` in a _LO and _HI pair. -/
def State.iniBit (s : State) (lo hi : Fld) (i : Nat) (g : Nat := 0) : Bool :=
  if i < 32 then (s.get lo g).testBit i else (s.get hi g).testBit (i - 32)

/-- Initiator `i` holds semaphore `n`. -/
def State.holdsSem (s : State) (i n : Nat) : Bool := s.bit SEM_STATE.held n && s.get SEM_STATE.owner n == i

/-- The level that the unit signals for a thread of base priority `base`: it signals one that differs from it and is not 0
(R473). -/
def signalled (base level : Nat) : Nat := if level = base then 0 else level

/-- The priority of a wait, given the levels signalled for the threads (R471). -/
def waitPrio (levels : Nat → Nat) (w : SemWait) : Nat := if w.ini < 16 then max w.prio (levels w.ini) else w.prio

/-- The levels of the control threads after `k` links of the chains of holders and waiters (R473), by thread. -/
def State.semLevels (s : State) : Nat → List Nat
  | 0 => List.replicate 16 0
  | k + 1 =>
    let below := s.semLevels k
    (List.range 16).map fun u =>
      (s.sem.waits.filter fun w => s.holdsSem u w.sem).foldl
        (fun a w => max a (waitPrio (fun v => signalled (s.th v).prio (below.getD v 0)) w)) 0

/-- The priority of a wait in the state (R471). -/
def State.waitPrioNow (s : State) (w : SemWait) : Nat :=
  waitPrio (fun u => if s.bit SEM_INH.signalled u then s.get SEM_INH.level u else 0) w

/-- Publishes the levels, and whether each is signalled: it is where it differs from the base priority and is not 0
(R473). -/
def State.publishLevels (s : State) : State :=
  let levels := s.semLevels 16
  (List.range 16).foldl (fun s u =>
    let l := levels.getD u 0
    (s.put SEM_INH.level l u).put SEM_INH.signalled (b2n (signalled (s.th u).prio l != 0)) u) s

/-- Publishes the number of waits on a semaphore. -/
def State.publishWaiters (s : State) (n : Nat) : State :=
  s.put SEM_STATE.waiters (s.sem.waits.filter fun w => w.sem = n).length n

/-- Writes an outcome for an initiator (R469). -/
def State.semResult (s : State) (i n code : Nat) : State :=
  (((s.put SEM_INI_RESULT.sem n i).put SEM_INI_RESULT.code code i).put SEM_INI_RESULT.owner_reset 0 i).put
    SEM_INI_RESULT.lease_expired 0 i

/-- Starts the lease of a semaphore with its group's length (R474). -/
def State.startLease (s : State) (n : Nat) : State :=
  s.updSem fun m => { m with leases := Sparse.set 0 m.leases n (s.get SEM_GRP_LEASE.us (n / 16)) }

/-- A grant: held, counted, code 1 with the semaphore's flags (R469, R471, R476). -/
def State.semGrant (s : State) (i n : Nat) : State :=
  let s := ((s.put SEM_STATE.owner i n).put SEM_STATE.held 1 n).startLease n
  let s := (s.inc SEM_GRANT_CNT.count).semResult i n 1
  (s.put SEM_INI_RESULT.owner_reset (s.get SEM_STATE.owner_reset n) i).put
    SEM_INI_RESULT.lease_expired (s.get SEM_STATE.lease_expired n) i

/-- Removes the wait of an initiator. -/
def State.dropWait (s : State) (i : Nat) : State :=
  match s.sem.waits.find? (fun w => w.ini = i) with
  | none => s
  | some w =>
    let s := s.updSem fun m => { m with waits := m.waits.filter fun w => w.ini ≠ i }
    ((s.put SEM_INI_WAIT.waiting 0 i).publishWaiters w.sem)

/-- The wait that a free semaphore goes to: the highest priority, ties to the one queued first (R471). -/
def State.nextWaiter (s : State) (n : Nat) : Option SemWait :=
  (s.sem.waits.filter fun w => w.sem = n).foldl (fun b w => match b with
    | none => some w
    | some v => if s.waitPrioNow v < s.waitPrioNow w then some w else b) none

/-- A semaphore becomes free with its flags and is granted to a waiter (R471, R476). -/
def State.semFree (s : State) (n : Nat) (reset expired : Bool) : State :=
  let old := s.get SEM_STATE.owner n
  let s := s.updSem fun m => { m with granted := (m.granted.filter fun e => e ≠ (old, n)), leases := m.leases.erase n }
  let s := (s.put SEM_STATE.owner 0 n).put SEM_STATE.held 0 n
  let s := (s.put SEM_STATE.owner_reset (b2n reset) n).put SEM_STATE.lease_expired (b2n expired) n
  match s.nextWaiter n with
  | none => s.publishLevels
  | some w =>
    let s := ((s.dropWait w.ini).semGrant w.ini n).updSem fun m => { m with granted := m.granted ++ [(w.ini, n)] }
    (s.raiseEvent w.ini 17).publishLevels

/-- TRY, and WAIT on a free semaphore (R469). -/
def State.semTake (s : State) (i n : Nat) : State := (s.semGrant i n).publishLevels

/-- One operation of an initiator that has the right (R469). -/
def State.semOp (s : State) (i n op prio : Nat) : State :=
  let free := !s.bit SEM_STATE.held n
  let mine := s.holdsSem i n
  match op with
  | 1 => if free then s.semTake i n else s.semResult i n (if mine then 10 else 2)
  | 2 =>
    if free then s.semTake i n
    else if mine then s.semResult i n 10
    else if 17 < i then s.semResult i n 11
    else if s.bit SEM_INI_WAIT.waiting i then s.semResult i n 6
    else
      let s := s.updSem fun m => { m with waits := m.waits ++ [{ ini := i, sem := n, prio := prio }] }
      let s := ((s.put SEM_INI_WAIT.sem n i).put SEM_INI_WAIT.waiting 1 i).put SEM_INI_WAIT.prio prio i
      (((s.inc SEM_WAIT_CNT.count).publishWaiters n).semResult i n 3).publishLevels
  | 3 => if mine then (s.semFree n false false).semResult i n 4 else s.semResult i n 5
  | 4 =>
    if s.sem.waits.any (fun w => w.ini = i ∧ w.sem = n) then ((s.dropWait i).semResult i n 7).publishLevels
    else if mine ∧ (i, n) ∈ s.sem.granted then s.semResult i n 8
    else s.semResult i n 12
  | 5 => if mine then (s.startLease n).semResult i n 9 else s.semResult i n 5
  | _ => (s.semResult i n 13).err SEM_ERR.bad_op 0 i n

/-- The initiator may operate on the semaphore (R470). -/
def State.semMay (s : State) (i n : Nat) : Bool := s.iniBit SEM_GRP_USE_LO.initiators SEM_GRP_USE_HI.initiators i (n / 16)

/-- A SEM_REQ that lacks the right (R470): the report carries the semaphore and the initiator. -/
def State.semDeny (s : State) (i n : Nat) : State := (s.inc SEM_DENIED_CNT.count).err SEM_ERR.denied 0 n i

/-- One operation, or its denial. -/
def State.semRequest (s : State) (i n op prio : Nat) : State := if s.semMay i n then s.semOp i n op prio else s.semDeny i n

/-- A write of the bits `m` of `v` to SEM_REQ (R469): nothing where byte 1 is not covered; false where it gets an error
response. -/
def State.writeSemReq (s : State) (i m v : Nat) : State × Bool :=
  if bits m 8 8 = 0 then (s, true)
  else
    let n := woField SEM_REQ.sem m v
    (s.semRequest i n (woField SEM_REQ.op m v) (woField SEM_REQ.prio m v), s.semMay i n)

/-- The lease of a held semaphore runs out (R474). -/
def State.leaseExpiry (s : State) (n : Nat) : State :=
  if ¬ s.bit SEM_STATE.held n then s
  else
    let old := s.get SEM_STATE.owner n
    let s := (s.inc SEM_LEASE_CNT.count).err SEM_ERR.lease_expired 0 n old
    s.semFree n false true

/-- An owner reset (R475): the wait of the initiator goes, and every semaphore that it holds is released. -/
def State.ownerReset (s : State) (i : Nat) : State :=
  let s := (s.dropWait i).updSem fun m => { m with granted := m.granted.filter fun e => e.1 ≠ i }
  ((List.range 512).foldl (fun s n =>
    if s.holdsSem i n then ((s.inc SEM_RESET_CNT.count).err SEM_ERR.owner_reset 0 n i).semFree n true false else s) s).publishLevels

/-- A write to SEM_ADMIN, SEM_GRP_USE or SEM_GRP_LEASE by an initiator (R470): refused without the right, and
counted as a SEM_REQ without it is. -/
def State.writeSemAdmin (s : State) (i off m v : Nat) : State × Bool :=
  let may : Bool := if off < 8 then i == 16 else s.iniBit SEM_ADMIN_LO.initiators SEM_ADMIN_HI.initiators i
  if may then (s.wrReg 13 off m v, true) else ((s.inc SEM_DENIED_CNT.count).err SEM_ERR.admin_denied 0 i, false)

end Sys2Proof.Machine
end

