-- ==== Sys2Proof/Machine/RingNet.lean ====
section
/-! DEFINITION. The ring network: stops, routes, tags, injection, the guaranteed class and the reset of an initiator
(R427 to R449). -/

namespace Sys2Proof.Machine

/-- Changes the ring network's internal state. -/
def State.updRing (s : State) (f : Ring → Ring) : State := { s with ring := f s.ring }

/-- The stop of an initiator (R428). -/
def iniStop (i : Nat) : Nat :=
  if i < 16 then i / 4
  else if i = 16 then 4
  else if i = 17 then 5
  else if i < 26 then 6
  else if i < 34 then 7
  else match i with
    | 34 => 17
    | 35 => 19
    | 36 => 20
    | 37 => 21
    | 38 => 22
    | 39 => 24
    | _ => 28

/-- The stop that serves a CSR page and offset; the System stop where none does (R428). -/
def csrStop (page off : Nat) : Nat :=
  match page with
  | 1 => 23
  | 2 => 22
  | 3 => 22
  | 4 => 20
  | 5 => 21
  | 6 => 21
  | 7 => 21
  | 8 => 19
  | 9 => 16
  | 10 => 17
  | 11 => 6
  | 12 => 8
  | 13 => 26
  | 14 => if off < 0x4000 then off / 0x1000 else 4
  | 15 => 5
  | 16 => 24
  | 17 => 25
  | 18 => 4
  | 19 => 4
  | 20 => 27
  | 21 => 28
  | 22 => 22
  | _ => 30

/-- The stop that serves an address (R428). -/
def targetStop (a : Nat) : Nat :=
  if a < 0x0400000000 then (if a / 256 % 2 = 0 then 16 else 18)
  else if 0x1000000000 ≤ a ∧ a < 0x1000800000 then 8 + (a - 0x1000000000) / 0x100000
  else if 0x1000800000 ≤ a ∧ a < 0x1000810000 then 29
  else if 0x2000000000 ≤ a ∧ a < 0x3000000000 then csrStop ((a - 0x2000000000) / 65536) (a % 65536)
  else if 0x3000000000 ≤ a ∧ a < 0x3004000000 then 20
  else if 0x3100000000 ≤ a ∧ a < 0x3100080000 then 21
  else if 0x3200000000 ≤ a ∧ a < 0x3205000000 then (a - 0x3200000000) / 0x1000000
  else 30

/-- The flits of a packet that carries `len` bytes from address `a` (R432). -/
def dataFlits (a len : Nat) : Nat :=
  if len = 0 ∨ (len ≤ 16 ∧ a / 16 = (a + len - 1) / 16) then 1 else 1 + (a + len - a / 32 * 32 + 31) / 32

/-- The hops from stop `a` to stop `b`, clockwise (0) or counter-clockwise (R427). -/
def hops (dir a b : Nat) : Nat := if dir = 0 then (b + 32 - a) % 32 else (a + 32 - b) % 32

/-- The link that leaves stop `l` in direction `dir` lies on the way from `a` to `b` (R427). -/
def onWay (dir l a b : Nat) : Bool := hops dir a l < hops dir a b

/-- Commands of the request class (R431). -/
def Cmd.isRequest : Cmd → Bool
  | .read => true
  | .write => true
  | .amoAdd => true
  | .amoSwap => true
  | _ => false

/-- The class that R431 gives a command code: 0 request, 1 response, 2 posted/event, 3 maintenance; none for a reserved code. -/
def codeClass (code : Nat) : Option Nat :=
  if code < 4 then some 0
  else if code < 6 then some 2
  else if 8 ≤ code ∧ code < 11 then some 1
  else if 12 ≤ code ∧ code < 15 then some 3
  else none

/-- The code of a command (R431). -/
def Cmd.code : Cmd → Nat
  | .read => 0
  | .write => 1
  | .amoAdd => 2
  | .amoSwap => 3
  | .writeP => 4
  | .event => 5

/-- The class of a command (R431). -/
def Cmd.class_ (c : Cmd) : Nat := if c.isRequest then 0 else 2

/-- The code of the response to a request (R431). -/
def Cmd.answerCode : Cmd → Nat
  | .read => 8
  | .write => 9
  | _ => 10

/-- A packet never covers bytes on both sides of a 256-byte boundary (R432). -/
def oneBlock (a len : Nat) : Bool := a / 256 == (a + len - 1) / 256

/-- The packet is an access of a thread; the EVENT of a SIGE is none (R373, R375). -/
def Pkt.isAccess (p : Pkt) : Bool := decide (p.ini < 17) && (p.cmd != .event || p.store)

/-- Two packets are accesses of one thread to one stop: they take effect in program order, whatever their classes, their g and
their routes (R375). -/
def Pkt.inOrder (p q : Pkt) (dst : Pkt → Nat) : Bool := p.isAccess && q.isAccess && p.ini == q.ini && dst p == dst q

/-- None of two packets overtakes the other: they take one way through the ring (R433, R436), or stand in the order of their
thread (R375). -/
def Pkt.sameWay (p q : Pkt) (dst : Pkt → Nat) : Bool :=
  p.inOrder q dst || iniStop p.ini == iniStop q.ini && dst p == dst q && p.cmd.isRequest == q.cmd.isRequest && p.g == q.g &&
    p.ring == q.ring && p.dir == q.dir

/-- The bytes that a packet toward a target carries (R432). -/
def Pkt.carried (p : Pkt) : Nat := if p.cmd = .read then 0 else p.len

/-- A request carries g = 1 (R439). -/
def State.guaranteed (s : State) (i dst : Nat) : Bool :=
  s.bit RNG_INI_GUAR.enable i && (s.get RNG_INI_GUAR_MASK.stops i).testBit dst

/-! ### Tags (R442) -/

/-- Transactions and freed tags that occupy a slot of a stop. -/
def Ring.used (r : Ring) (stop : Nat) : List Nat :=
  ((r.outs ++ r.retired ++ r.kept).filter fun x => iniStop x.ini = stop).map fun x => x.slot

/-- The tags that an initiator holds. -/
def Ring.heldTags (r : Ring) (i : Nat) : Nat := (r.outs.filter fun x => x.ini = i).length

/-- The lowest free tag slot of an initiator's stop, within its cap (R442). -/
def State.freeTag (s : State) (i : Nat) : Option Nat :=
  if s.get RNG_INI_CFG.tagcap i ≤ s.ring.heldTags i then none
  else
    let used := s.ring.used (iniStop i)
    (List.range 256).find? fun n => !used.contains n

/-! ### Injection (R433 to R435, R445, R449) -/

/-- A span of 1,024 ring cycles has not passed since instant `t` (R427, R455). -/
def State.recent (s : State) (t : Nat) : Bool := decide (s.now < t + 1024 * 500000)

/-- A packet of some flits has come from one stop to another (R455). -/
def State.carry (s : State) (ring dir src dst flits : Nat) : State :=
  s.updRing fun r => { r with carried := { ring, dir, src, dst, at_ := s.now, flits } :: r.carried.filter fun c => s.recent c.at_ }

/-- The flits that the link which leaves stop `l` has carried in the last 1,024 ring cycles: at most one a cycle (R455). -/
def State.linkFlits (s : State) (l ring dir : Nat) : Nat :=
  min 1024 (((s.ring.carried.filter fun c =>
    s.recent c.at_ && c.ring == ring && c.dir == dir && onWay dir l c.src c.dst).map fun c => c.flits).sum)

/-- Counts an injected packet (R449). -/
def State.countInjected (s : State) (p : Pkt) : State :=
  if ¬ s.bit RNG_CTRL.stats_en then s
  else (s.inc RNG_INI_PKT_CNT.count p.ini).add RNG_INI_BYTE_CNT.count ((p.carried + 63) / 64) p.ini

/-- The stop that a packet goes to; an EVENT goes to the core of its thread (R431). -/
def Pkt.dst (p : Pkt) : Nat := if p.cmd = .event then coreOf (p.addr % 32) else targetStop p.addr

/-- The ring and the direction that a packet from a stop to stop `d` takes by its route entry; an alternate entry takes its other
ring next (R433). -/
def State.takeRoute (s : State) (stop d : Nat) (g : Bool) : State × Nat × Nat :=
  let e := d + 32 * b2n g
  let dir := s.get RNG_ROUTE.dir stop e
  if s.bit RNG_ROUTE.alternate stop e then
    let turn := Sparse.get false s.ring.turns (64 * stop + e)
    (s.updRing fun r => { r with turns := r.turns.set false (64 * stop + e) (!turn) }, b2n turn, dir)
  else (s, s.get RNG_ROUTE.ring stop e, dir)

/-- A packet enters the ring on the route of its entry (R433). -/
def State.inject (s : State) (p : Pkt) : State :=
  let (s, ring, dir) := s.takeRoute (iniStop p.ini) p.dst p.g
  let p := { p with ring := ring, dir := dir }
  (s.updRing fun r => { r with reqs := r.reqs ++ [p] }).countInjected p

/-- A packet cannot be injected yet: its target's domain sleeps, its interface has not had the target's WAKE_DONE, an earlier access
of its thread to that stop is held, or its route has changed and earlier requests still wait (R375, R434, R445). -/
def State.mustHold (s : State) (p : Pkt) : Bool :=
  s.bit RNG_STOP_STATUS.asleep p.dst || s.ring.deaf.contains (iniStop p.ini, p.dst) ||
    (s.ring.held.any fun q => q.inOrder p Pkt.dst) || (p.cmd.isRequest && s.ring.changed.any fun c => c.1 == 64 * iniStop p.ini + p.dst + 32 * b2n p.g)

/-- Shows for which stops packets are held for a wake (R445, R456). -/
def State.publishHolding (s : State) : State :=
  (List.range 32).foldl (fun s d =>
    let waits (p : Pkt) : Bool := p.dst == d && (s.bit RNG_STOP_STATUS.asleep d || s.ring.deaf.contains (iniStop p.ini, d))
    s.put RNG_STOP_STATUS.holding (b2n (s.ring.held.any waits)) d) s

/-- Offers a packet: it is injected, or held. What holds a packet holds the later ones of its entry and class too. -/
def State.offer (s : State) (p : Pkt) : State :=
  if s.mustHold p then
    (s.updRing fun r => { r with held := r.held ++ [p] }).publishHolding
  else s.inject p

/-- Injects the held packets that can go, in their order (R434, R445). -/
def State.releaseHeld (s : State) : State :=
  let held := s.ring.held
  let s := s.updRing fun r => { r with held := [] }
  (held.foldl (fun s p => s.offer p) s).publishHolding

/-- An initiator begins to wait for a free tag (R442). -/
def State.tagWait (s : State) (i : Nat) : State :=
  if (Sparse.get none s.ring.tagWaits i).isSome then s
  else s.updRing fun r => { r with tagWaits := r.tagWaits.set none i (some s.now) }

/-- The wait of an initiator for a tag is over: its ring cycles of 0.5 ns are counted (R427, R442). -/
def State.tagGot (s : State) (i : Nat) : State :=
  match Sparse.get none s.ring.tagWaits i with
  | none => s
  | some t => (s.updRing fun r => { r with tagWaits := r.tagWaits.erase i }).add RNG_INI_TAG_WAIT.cycles ((s.now - t) / 500000) i

/-- A unit issues a request: none where no tag is free (R442). -/
def State.request (s : State) (p : Pkt) (purpose : Purpose) : Option State :=
  match s.freeTag p.ini with
  | none => none
  | some n =>
    let dst := targetStop p.addr
    let g := s.guaranteed p.ini dst
    let epoch := s.get RNG_INI_STATUS.epoch p.ini
    let s := s.tagGot p.ini
    let s := s.updRing fun r => { r with outs := r.outs ++ [{ ini := p.ini, slot := n, epoch, dst, g, len := p.len, purpose }] }
    some (s.offer { p with slot := n, epoch, g })

/-- A transaction ends: its tag is free, and a route change that waited for it goes on (R434, R442). -/
def State.freeTxn (s : State) (x : Txn) : State :=
  let s := s.updRing fun r => { r with
    outs := r.outs.filter fun y => y ≠ x
    changed := (r.changed.map fun c => if c.1 / 64 = iniStop x.ini then (c.1, c.2.filter fun n => n ≠ x.slot) else c).filter
      fun c => !c.2.isEmpty }
  s.releaseHeld

/-- What the initiators' interfaces show (R457). -/
def State.iniOutstanding (s : State) (i : Nat) : Nat := s.ring.heldTags i

/-- Retired tags of an initiator (R443, R457). -/
def State.iniRetired (s : State) (i : Nat) : Nat := (s.ring.retired.filter fun x => x.ini = i).length

/-! ### The guaranteed class (R439, R440) -/

/-- The guaranteed buckets: initiator and target. -/
def State.buckets (s : State) : List (Nat × Nat) :=
  (List.range 41).flatMap fun i =>
    if s.bit RNG_INI_GUAR.enable i then
      ((List.range 32).filter fun d => (s.get RNG_INI_GUAR_MASK.stops i).testBit d).map fun d => (i, d)
    else []

/-- The part, in halves, of a bucket that the route entry of stop `a` toward `b` brings to a link: 0 where it does not cross
it (R439). -/
def State.routeShare (s : State) (l ring dir a b : Nat) : Nat :=
  let e := b + 32
  if s.get RNG_ROUTE.dir a e = dir ∧ onWay dir l a b then
    if s.bit RNG_ROUTE.alternate a e then 1 else if s.get RNG_ROUTE.ring a e = ring then 2 else 0
  else 0

/-- U of a link in units of 0.125 GB/s, and Q in flits (R439, R440): a bucket counts where its request route or its response
route crosses the link. -/
def State.linkLoad (s : State) (l ring dir : Nat) : Nat × Nat :=
  s.buckets.foldl (fun a b =>
    let from_ := iniStop b.1
    let h := max (s.routeShare l ring dir from_ b.2) (s.routeShare l ring dir b.2 from_)
    (a.1 + h * s.get RNG_INI_GUAR.rate b.1, a.2 + (if h = 0 then 0 else s.get RNG_INI_GUAR.burst b.1))) (0, 0)

/-- No link has more than 60 GB/s of guaranteed load (R439). -/
def State.guarOk (s : State) : Bool :=
  (List.range 32).all fun l => (List.range 4).all fun x => (s.linkLoad l (x % 2) (x / 2)).1 ≤ 480

/-- D of R440 for a guaranteed packet of 9 flits from `a` to `b`; an alternate route takes the larger of its two rings. -/
def State.boundOne (s : State) (a b : Nat) : Nat :=
  let e := b + 32
  let dir := s.get RNG_ROUTE.dir a e
  let h := hops dir a b
  let along (ring : Nat) : Nat := (List.range 32).foldl (fun n l =>
    if onWay dir l a b then n + (s.linkLoad l ring dir).2 + 9 else n) 0
  let q := if s.bit RNG_ROUTE.alternate a e then max (along 0) (along 1) else along (s.get RNG_ROUTE.ring a e)
  8 + 2 * h + 8 + q

/-- Publishes RNG_INI_BOUND of every initiator (R440). -/
def State.publishBounds (s : State) : State :=
  (List.range 41).foldl (fun s i =>
    let v := if s.bit RNG_INI_GUAR.enable i then
        ((List.range 32).filter fun d => (s.get RNG_INI_GUAR_MASK.stops i).testBit d).foldl
          (fun m d => max m (s.boundOne (iniStop i) d + s.boundOne d (iniStop i))) 0
      else 0
    s.put RNG_INI_BOUND.cycles (min v 65535) i) s

/-- A write to RNG_INI_GUAR or RNG_INI_GUAR_MASK (R439). -/
def State.writeGuar (s : State) (off m v : Nat) : State :=
  let t := s.wrReg 11 off m v
  if t.guarOk then t.publishBounds else s.err RNG_ERR.guar_refused 0 (iniStop ((off - 0x4000) / 0x40))

/-- The transaction's packet waits at injection. -/
def State.isHeld (s : State) (x : Txn) : Bool :=
  s.ring.held.any fun p => p.cmd.isRequest && p.ini == x.ini && p.slot == x.slot && p.epoch == x.epoch

/-- A write to route entry `e` of stop `a` (R434, R439): it applies to every packet that is not injected yet. -/
def State.writeRoute (s : State) (a e m v : Nat) : State :=
  let t := s.wrReg 11 (RNG_ROUTE.ring.off a e) m v
  if t.bit RNG_ROUTE.alternate a e ∧ a ≤ 4 then s.err RNG_ERR.route_refused 0 a
  else if ¬ t.guarOk then s.err RNG_ERR.guar_refused 0 a
  else
    let same : Bool := t.get RNG_ROUTE.ring a e == s.get RNG_ROUTE.ring a e && t.get RNG_ROUTE.dir a e == s.get RNG_ROUTE.dir a e
      && t.get RNG_ROUTE.alternate a e == s.get RNG_ROUTE.alternate a e
    let slots := (s.ring.outs.filter fun x => iniStop x.ini = a ∧ x.dst = e % 32 ∧ ¬ s.isHeld x).map fun x => x.slot
    let t := if same || slots.isEmpty then t else t.updRing fun r => { r with changed := r.changed ++ [(64 * a + e, slots)] }
    (if t.bit RNG_ROUTE.alternate a e then t else t.updRing fun r => { r with turns := r.turns.erase (64 * a + e) }).publishBounds

/-! ### Errors and resets (R443, R444, R447) -/

/-- What a stop's SECDED check finds in a flit of a packet (R444). -/
def State.flitCorrected (s : State) (stop : Nat) : State :=
  (s.inc RNG_ECC_CORR_CNT.count).err RNG_ERR.ecc_corrected 0 stop

/-- A double-bit error in a flit (R444). -/
def State.flitUncorrectable (s : State) (stop link : Nat) : State :=
  (s.inc RNG_ECC_UNCORR_CNT.count).err RNG_ERR.ecc_uncorrectable 0 stop link

/-- A stop discards a packet with a reserved command, or with a command in a class that R431 does not give it. -/
def State.protocolError (s : State) (stop : Nat) : State := (s.inc RNG_PROTO_CNT.count).err RNG_ERR.protocol 0 stop

/-- The tags of an initiator at its reset: the epoch advances and every tag is freed, held out of the pool (R447, steps 4 and 5).
A stop or a double fault of a thread does this and no more. -/
def State.resetTags (s : State) (i : Nat) : State :=
  let mine := (s.ring.outs ++ s.ring.retired).filter fun x => x.ini = i
  let epoch := (s.get RNG_INI_STATUS.epoch i + 1) % 16
  let s := s.updRing fun r => { r with
    retired := r.retired.filter fun x => x.ini ≠ i
    orphans := (r.orphans ++ r.outs.filter fun x => x.ini = i ∧ x.purpose.isPosted).filter fun x => ¬ (x.ini = i ∧ x.epoch = epoch)
    kept := r.kept ++ mine }
  let s := mine.foldl (fun s x => s.freeTxn x) s
  (s.put RNG_INI_STATUS.epoch epoch i).publishHolding

/-- The interface of an initiator at a master reset: its held packets go too (R447, step 1). -/
def State.masterTags (s : State) (i : Nat) : State :=
  ((s.updRing fun r => { r with held := r.held.filter fun p => p.ini ≠ i }).tagGot i).resetTags i

/-- The thread whose CPU_THR_EVENTS a write of `n` bytes at a physical address reaches (R403, R424). -/
def eventsThread (a n : Nat) : Option Nat :=
  (List.range 17).find? fun u =>
    let r := 0x20000E0000 + CPU_THR_EVENTS.events.off (coreOf u) (lane4 u)
    decide (r < a + n) && decide (a < r + 4)

/-- The thread whose events the packet is on its way to set (R403). -/
def Pkt.signals (p : Pkt) : Option Nat :=
  match p.cmd with
  | .event => some (p.addr % 32)
  | .write | .writeP => eventsThread p.addr p.len
  | _ => none

/-- The last packet of an initiator whose header is on the ring ends after `n` whole data flits with a poison flit (R447,
step 3). -/
def Ring.cutLast (r : Ring) (i n : Nat) : Ring :=
  match r.reqs.reverse.find? (fun p => p.ini = i) with
  | none => r
  | some p =>
    let ok := p.addr / 32 * 32 + 32 * n - p.addr
    if p.carried ≤ ok ∨ dataFlits p.addr p.carried ≤ 1 then r
    else { r with reqs := r.reqs.map fun q => if q = p then { q with cut := some ok } else q }

/-- How far the last packet of an initiator is on the ring when a reset comes is open: a free value says how many of its data flits
are, and where that is not all of them the packet is cut after those (R447, steps 2 and 3). -/
def State.cutFree (s : State) (i : Nat) : State :=
  match s.ring.reqs.reverse.find? (fun p => p.ini = i) with
  | none => s
  | some p =>
    let n := dataFlits p.addr p.carried - 1
    if n = 0 then s else (s.updRing fun r => r.cutLast i (s.fresh 8 % (n + 1))).tookFree

/-- Freed tags are held for 4,096 ring cycles and then free again (R447). -/
def State.tagHoldExpiry (s : State) (k : Nat) : State :=
  match s.ring.kept[k]? with
  | none => s
  | some x => s.updRing fun r => { r with kept := r.kept.filter fun y => y ≠ x }

/-- A read of RNG_INI_LAT_SUM clears it and RNG_INI_RSP_CNT, whose count a holding register keeps for its next read
(R449). -/
def State.readLatSum (s : State) (i : Nat) : Nat × State :=
  let s' := s.updRing fun r => { r with rspHold := (r.rspHold.filter fun h => h.1 ≠ i) ++ [(i, s.get RNG_INI_RSP_CNT.count i)] }
  (s.get RNG_INI_LAT_SUM.cycles i, (s'.put RNG_INI_LAT_SUM.cycles 0 i).put RNG_INI_RSP_CNT.count 0 i)

/-- A response reaches its initiator: the counts of R449 and RNG_INI_ERR_CNT. -/
def State.countResponse (s : State) (i status lat len : Nat) : State :=
  let s := if status = 0 then s else s.inc RNG_INI_ERR_CNT.count i
  if ¬ s.bit RNG_CTRL.stats_en then s
  else
    let s := (s.inc RNG_INI_RSP_CNT.count i).add RNG_INI_LAT_SUM.cycles lat i
    let s := s.add RNG_INI_BYTE_CNT.count ((len + 63) / 64) i
    s.raiseTo RNG_INI_LAT_MAX.cycles lat i

end Sys2Proof.Machine
end

