-- ==== Sys2Proof/Machine/Traps.lean ====
section
/-! DEFINITION. Traps, double faults, the start and the stop of a thread, imprecise traps and the Blackout detector (R396 to
R421). -/

namespace Sys2Proof.Machine

/-- Thread `u` has taken an event, been started or been stopped: the Blackout detector is armed again; the keeper is outside it
(R421). -/
def State.rearm (s : State) (u : Nat) : State := if u < 16 then s.put CPU_BLACKOUT_STATUS.armed 1 else s

/-- Sets a bit of CPU_THR_ERR for a thread; the report names the thread (R424). -/
def State.thrErr (s : State) (f : Fld) (u : Nat) (detail : Nat := 0) : State := s.errBit f (lane4 u) (coreOf u) u detail

/-- A stop or a double fault of a thread, for its tags and for its semaphores (R398, R416, R447): packets handed over to the
ring stay. -/
def State.threadReset (s : State) (u : Nat) : State := (s.resetTags u).ownerReset u

/-- A start from OFF or HALTED (R397); from another state it is refused (R396). -/
def State.startThread (s : State) (u : Nat) : State :=
  let c := coreOf u
  let t := lane4 u
  let st := s.thState u
  if ¬ isThread u then s
  else if st ≠ 0 ∧ st ≠ 3 then s.thrErr CPU_THR_ERR.start_refused u
  else
    let s := s.updTh u fun h => { h with
      pc := 4 * s.get CPU_THR_PC_START.pc c t, cur := 0, live := 1, rstack := [], events := 0
      flags := 0, enables := 0, rm := 1, ftz := false, fpOps := [], fpPend := none, busPend := none
      inTrap := false, rsReset := false, hold := .none, stopping := false, restart := false }
    ((s.putThState u 1).put CPU_THR_DFAULT.valid 0 c t).rearm u

/-- The keeper's local RAM, thread and published state at its reset (R422). -/
def State.keeperCleared (s : State) (i u : Nat) : State :=
  let s := (((s.clearLram i).cutFree u).masterTags u).ownerReset u
  let s := { s with cpu := { s.cpu with threads := s.cpu.threads.erase u, cores := s.cpu.cores.erase i } }.putThState u 0
  (s.inc BOT_KEEPER_RST_CNT.count).put CPU_THR_WMASK.mask 0 i 0

/-- The keeper starts on what the boot read found; with no image the boot has failed. -/
def State.keeperBooted (s : State) (i u : Nat) : Option (List Byte) → State
  | some img => ({ s.loadFirmware i img with pwr := { s.pwr with kickAt := s.now } }).startThread u
  | none => s.put BOT_STATUS.err 5

/-- Step D3 at a reset of the keeper, after step D2 has ended with error `e` (R567, R575). -/
def State.keeperLoads (s : State) (e : Nat) : State :=
  if e ≠ 0 then s.put BOT_STATUS.err e
  else
    let p := s.bootImage (s.get BOT_STATUS.bootmode) 1 0
    p.1.keeperBooted 4 16 p.2

/-- The reset of the keeper (R422, R567): its local RAM is lost, and the boot ROM repeats steps D2 and D3 of Dawn. Without a flash or
valid firmware the keeper stays in the boot ROM (R575). -/
def State.keeperReset (s : State) : State :=
  let p := (s.keeperCleared 4 16).flashFound
  p.1.keeperLoads p.2

/-- A double fault: the thread halts with its state frozen (R415, R416); the keeper is reset (R422). -/
def State.doubleFault (s : State) (u cause2 pc : Nat) : State :=
  let c := coreOf u
  let t := lane4 u
  let h := s.th u
  let s := (s.putThState u 3).updTh u fun h => { h with hold := .none, stopping := false, restart := false }
  let s := (s.put CPU_THR_DFAULT.cause1 h.trapcode c t).put CPU_THR_DFAULT.cause2 cause2 c t
  let s := (s.put CPU_THR_DFAULT.valid 1 c t).put CPU_THR_DF_PC.pc (pc / 4) c t
  let s := (s.thrErr CPU_THR_ERR.double_fault u (h.trapcode + 256 * cause2)).threadReset u
  if u = 16 then s.keeperReset else s

/-- The address of a trap's handler (R406). -/
def Th.entry (h : Th) (cause : Nat) : Nat := 1024 * h.trapbase + 32 * cause

/-- Takes a trap: entry into the trap window (R406, R407), or a double fault for a thread that is in it (R414). -/
def State.takeTrap (s : State) (u cause info resume : Nat) : State :=
  let h := s.th u
  if h.inTrap then s.doubleFault u cause h.pc
  else
    let s := s.updTh u fun h => { h with
      resume, trapcode := cause, trapinfo := info % 2 ^ 32, inTrap := true, pc := h.entry cause, hold := .none }
    let s := s.inc CPU_THR_TRAP_CNT.count (coreOf u) (lane4 u)
    if cause = 4 ∨ cause = 5 then s.inc CPU_THR_RS_TRAP_CNT.count (coreOf u) (lane4 u) else s

/-- A thread leaves WAIT (R410): the address of the WAITE stays its next instruction. -/
def State.leaveWait (s : State) (u : Nat) : State :=
  ((s.updTh u fun h => { h with hold := .none }).putThState u 1).put CPU_THR_WMASK.mask 0 (coreOf u) (lane4 u)

/-- The imprecise trap that is due at a thread's next instruction: a posted bus error before an FP exception; none that was
raised outside the trap window is due inside it (R409, R411). Its cause, its CC_TRAPINFO, and whether it was raised in the trap
window. -/
def Th.due (h : Th) : Option (Nat × Nat × Bool) :=
  let open_ (p : Option (Nat × Bool)) : Option (Nat × Bool) := p.filter fun q => !(h.inTrap && !q.2)
  match open_ h.busPend with
  | some q => some (14, q)
  | none => (open_ h.fpPend).map fun q => (15, q)

/-- Delivers the imprecise trap that is due, if one is (R389, R409); one that was raised in the trap window is a double fault, in
it or after it (R414, R418). -/
def State.deliverEvent (s : State) (u : Nat) : Option State :=
  let h := s.th u
  match h.due with
  | none => none
  | some (cause, info, inTrap) =>
    let s := s.updTh u fun h => if cause = 14 then { h with busPend := none } else { h with fpPend := none }
    some (if inTrap then s.doubleFault u cause h.pc else s.takeTrap u cause info h.pc)

/-- An imprecise trap that becomes due while its thread is in WAIT is delivered at once (R410). -/
def State.deliverWaiting (s : State) (u : Nat) : State :=
  if s.thState u = 2 ∧ (s.th u).due.isSome then
    let s := s.leaveWait u
    (s.deliverEvent u).getD s
  else s

/-- A record of an imprecise trap is lost (R398, R409). -/
def State.imprLost (s : State) (u : Nat) : State :=
  (s.inc CPU_THR_IMPR_LOST_CNT.count (coreOf u) (lane4 u)).thrErr CPU_THR_ERR.impr_lost u

/-- An error response to a posted store of a thread (R374, R398, R409). -/
def State.postedError (s : State) (u addr : Nat) (inTrap : Bool) : State :=
  let st := s.thState u
  let s := s.err CPU_ISA_ERR.posted_bus_err (coreOf u) (coreOf u)
  if st = 0 ∨ st = 3 ∨ (s.th u).stopping ∨ (s.th u).busPend.isSome then s.imprLost u
  else (s.updTh u fun h => { h with busPend := some (addr, inTrap) }).deliverWaiting u

/-- The flags of an FP instruction merge; an enabled one leaves an exception pending (R388, R409, R417). The CC_FCSR of a halted
thread is frozen (R415). -/
def State.fpComplete (s : State) (u k : Nat) : State :=
  match (s.th u).fpOps[k]? with
  | none => s
  | some o =>
    if s.thState u = 3 then s else
    let s := s.updTh u fun h => { h with fpOps := h.fpOps.eraseIdx k, flags := h.flags ||| o.flags }
    let h := s.th u
    if o.flags &&& h.enables = 0 then s
    else if h.fpPend.isSome then s.imprLost u
    else (s.updTh u fun h => { h with fpPend := some (o.pc, o.inTrap) }).deliverWaiting u

/-! ### Start and stop (R396 to R398) -/

/-- A thread stops: OFF, with an owner reset; a bus error that has not been delivered is discarded and counted (R398). -/
def State.stopNow (s : State) (u : Nat) : State :=
  let again := (s.th u).restart
  let s := if (s.th u).busPend.isSome then s.imprLost u else s
  let s := s.updTh u fun h => { h with hold := .none, stopping := false, restart := false, inTrap := false, busPend := none }
  let s := ((s.putThState u 0).put CPU_THR_WMASK.mask 0 (coreOf u) (lane4 u)).rearm u
  let s := s.threadReset u
  if again then s.startThread u else s

/-- A write of 1 to CPU_THR_CMD.stop (R396, R398): a thread that waits for an access or for the divider stops when that
has completed, one that waits for a tag at the end of its instruction. -/
def State.stopThread (s : State) (u : Nat) : State :=
  if ¬ isThread u ∨ s.thState u = 0 then s
  else match (s.th u).hold with
    | .access _ => (s.updTh u fun h => { h with stopping := true }).rearm u
    | .divide _ _ => (s.updTh u fun h => { h with stopping := true }).rearm u
    | _ => s.stopNow u

/-- A write to CPU_THR_CMD: the stop acts first and the start second (R396). -/
def State.writeThrCmd (s : State) (u m v : Nat) : State :=
  let stop := woField CPU_THR_CMD.stop m v = 1
  let start := woField CPU_THR_CMD.start m v = 1
  let s := if stop then s.stopThread u else s
  if ¬ start then s
  else if (s.th u).stopping then (if stop then s.updTh u fun h => { h with restart := true } else s.thrErr CPU_THR_ERR.start_refused u)
  else s.startThread u

/-- Resumes a thread that the debug unit holds (R396). -/
def State.debugResume (s : State) (u : Nat) : State := if s.thState u = 4 then s.putThState u 1 else s

/-! ### Blackout (R419 to R421) -/

/-- The threads of the control cores that wait, as a bitmap (R406). -/
def State.waiters (s : State) : Nat := bitSet 16 fun u => s.thState u = 2

/-- The conditions of a Blackout hold (R419, R421). -/
def State.blackout (s : State) : Bool :=
  s.bit CPU_BLACKOUT_CTRL.enable && s.bit CPU_BLACKOUT_STATUS.armed &&
    ((List.range 16).all fun u => s.thState u != 1 && s.thState u != 4 && !s.waitArmed u) && s.waiters != 0 &&
    !((s.ring.reqs ++ s.ring.held).any fun p => p.signals.any fun u => u < 16)

/-- The detector has found those conditions for 1,024 core cycles (R419 to R421). -/
def State.blackoutFires (s : State) : State :=
  if ¬ s.blackout then s
  else
    let map := s.waiters
    let s := ((s.put CPU_BLACKOUT_STATUS.last map).put CPU_BLACKOUT_STATUS.armed 0).inc CPU_BLACKOUT_CNT.count
    if s.thState 0 = 2 then ((s.leaveWait 0).takeTrap 0 16 map (s.th 0).pc).report 14 noInst 0xF003 map
    else
      ((s.put CPU_BLACKOUT_STATUS.undelivered 1).raiseEvent 16 19).report 14 noInst 0xF003 (map + 2 ^ 16)

/-! ### Waits for events (R404) -/

/-- A thread in WAIT takes every pending event of its mask and goes on (R404, R421). -/
def State.wakeThread (s : State) (u : Nat) : State :=
  match (s.th u).hold with
  | .event rd m =>
    let ev := (s.th u).events &&& m
    if s.thState u ≠ 2 ∨ ev = 0 then s
    else
      let s := s.leaveWait u
      (s.updTh u fun h => { h.setReg rd ev with
        events := h.events &&& (2 ^ 32 - 1 - m), pc := h.pc + 4, instret := (h.instret + 1) % 2 ^ 64 }).rearm u
  | _ => s

end Sys2Proof.Machine
end

