-- ==== Sys2Proof/Machine/CpuIssue.lean ====
section
/-! DEFINITION. The issue of an instruction, its memory accesses and its end (R357 to R376, R392, R409). -/

namespace Sys2Proof.Machine

/-- What an instruction comes to. -/
inductive Res where
  /-- It has acted; `State` is the state after it, the pc included. -/
  | acted (s : State)
  /-- It raises a trap (R392). -/
  | trap (cause info : Nat)
  /-- It does not issue: its thread is held. -/
  | held

/-- The thread number that an issue names; the keeper has thread 0 alone (R422). -/
def thr (u : Issue) : Nat := 4 * u.core.val + u.thread.val

/-- The thread runs and nothing holds it (R395, R399). -/
def State.thrReady (s : State) (u : Nat) : Bool := isThread u && s.thState u == 1 && (s.th u).hold == .none

/-- The thread that is owed the next issue of a core, if it is ready (R401). -/
def State.owed (s : State) (c : Nat) : Option Nat := (s.core c).must.filter s.thrReady

/-- The thread that the scheduler of a core picks (R399 to R401), where `late` marks the threads whose next instruction cannot
issue yet: the one that is owed the issue, else of the ready threads of the highest effective priority the first in turn after the
one that issued last at that priority. -/
def State.pick (s : State) (c late : Nat) : Option Nat :=
  match s.owed c with
  | some u => some u
  | none =>
    let ready (t : Nat) : Bool := s.thrReady (4 * c + t) && !late.testBit t
    let top := (List.range 4).foldl (fun m t => if ready t then max m (s.effPrio (4 * c + t)) else m) 0
    let from_ := Sparse.get 3 (s.core c).last top + 1
    (((List.range 4).map fun i => (from_ + i) % 4).find? fun t => ready t && s.effPrio (4 * c + t) == top).map fun t => 4 * c + t

/-- The thread can issue an instruction: it is ready, and the scheduler of its core picks it (R395, R399). -/
def State.thrCanIssue (s : State) (u late : Nat) : Bool := s.thrReady u && s.pick (coreOf u) late == some u

/-- A thread takes an issue of its core, `n` core cycles after the core's latest (R382, R399, R401). -/
def State.tookIssue (s : State) (u n : Nat) : State :=
  let p := s.effPrio u
  s.updCore (coreOf u) fun k => { k with cycles := (k.cycles + n) % 2 ^ 64, must := none, last := k.last.set 3 p (lane4 u) }

/-- A ready thread has not issued for starve × 16 core cycles: it issues next, the lowest-numbered of several first (R401). -/
def State.starved (s : State) (u : Nat) : State :=
  if s.thrReady u ∧ s.get CPU_SCHED.starve (coreOf u) ≠ 0 then
    s.updCore (coreOf u) fun k => { k with must := some (min u ((s.owed (coreOf u)).getD u)) }
  else s

/-- A local-RAM word is read with a single-bit error (R361). -/
def State.lramCorrected (s : State) (c : Nat) : State := (s.inc CPU_LRAM_CORR_CNT.count c).err CPU_ISA_ERR.lram_corrected c c

/-- A local-RAM word is read with a double-bit error (R361). -/
def State.lramUncorrectable (s : State) (c : Nat) : State :=
  (s.inc CPU_LRAM_UNCORR_CNT.count c).err CPU_ISA_ERR.lram_uncorrectable c c

/-- An instruction address that a thread can execute: word-aligned and inside its core's local RAM (R360). -/
def pcOk (u pc : Nat) : Bool := pc % 4 == 0 && decide (pc < lramSize (coreOf u))

/-- Issues the instruction whose encoding is `enc` (R361, R363, R392, R409): a pending imprecise trap is delivered first;
then the trap of the step or of the fetch; then an illegal word; then what `body` says. A word that differs from `enc`
and is legal is another instruction's, and nothing happens. -/
def State.issue (s : State) (u : Issue) (enc : Nat) (body : State → Res) : State :=
  let id := thr u
  let c := coreOf id
  if ¬ s.thrCanIssue id u.late.val then s
  else
    let s0 := s.tookIssue id u.cycles
    match s0.deliverEvent id with
    | some s => s
    | none =>
      let pc := (s.th id).pc
      let word := (enc ^^^ u.stray.toNat) % 2 ^ 32
      if ¬ pcOk id pc then s0.takeTrap id 1 pc pc
      else if u.fetch = .uncorrectable then (s0.lramUncorrectable c).takeTrap id 2 pc pc
      else
        let s1 := if u.fetch = .corrected then s0.lramCorrected c else s0
        if ¬ legalWord (c == 4) word then s1.takeTrap id 3 word pc
        else if u.stray ≠ 0 then s
        else match body s1 with
          | .acted s => s
          | .trap cause info => s1.takeTrap id cause info pc
          | .held => s

/-- An instruction ends: the thread goes on at `next`, and the instruction counts as retired (R382). -/
def State.retire (s : State) (id next : Nat) (f : Th → Th := fun h => h) : State :=
  s.updTh id fun h => { f h with pc := next, instret := (h.instret + 1) % 2 ^ 64 }

/-- An instruction that only changes its thread. -/
def State.plain (s : State) (id : Nat) (f : Th → Th) : Res := .acted (s.retire id ((s.th id).pc + 4) f)

/-- A transfer of control to an address (R360). -/
def State.transfer (s : State) (id target : Nat) (f : Th → Th := fun h => h) : Res :=
  if pcOk id target then .acted (s.retire id target f) else .trap 1 target

/-- pc + 4 × a signed displacement of `w` bits (R368). -/
def relative (pc w disp : Nat) : Nat := ofInt 32 ((pc : Int) + 4 * toInt w disp)

/-! ### Accesses (R357 to R361, R370 to R375) -/

/-- The address of an access. -/
def Access.addr : Access → Nat
  | .load a _ => a
  | .store a _ _ => a
  | .amo a _ _ => a

/-- The bytes of an access. -/
def Access.size : Access → Nat
  | .load _ n => n
  | .store _ n _ => n
  | .amo _ _ _ => 4

/-- An aperture of a core (R357, R358, R382). -/
def State.aperture (s : State) (c n : Nat) : Aperture :=
  if n = 0 then { base := 0, valid := true }
  else if n = 15 then { base := 0x200, valid := true }
  else Sparse.get {} (s.core c).aps n

/-- The address is in the core's local RAM (R358). -/
def isLocal (a : Nat) : Bool := a < 2 ^ 28

/-- The physical address of a core address (R357). -/
def State.physical (s : State) (c a : Nat) : Nat := ((s.aperture c (a / 2 ^ 28)).base * 2 ^ 28 + a % 2 ^ 28) % 2 ^ 40

/-- An AMO may act at a physical address: the scratchpad and the mailbox (R372). -/
def amoTarget (p : Nat) : Bool := 0x1000000000 ≤ p && p < 0x1000810000

/-- The precise trap that an access meets before it leaves the core: alignment, then access fault (R357, R358, R370,
R372). -/
def State.accessTrap (s : State) (c : Nat) (x : Access) : Option Nat :=
  let a := x.addr
  if a % x.size ≠ 0 then some 8
  else if isLocal a then (if a + x.size ≤ lramSize c then none else some 9)
  else if ¬ (s.aperture c (a / 2 ^ 28)).valid then some 9
  else match x with
    | .amo _ _ _ => if amoTarget (s.physical c a) then none else some 9
    | _ => none

/-- The first trap among the accesses of an instruction. -/
def State.firstTrap (s : State) (c : Nat) : List Access → Option (Nat × Nat)
  | [] => none
  | x :: xs => match s.accessTrap c x with
    | some cause => some (cause, x.addr)
    | none => s.firstTrap c xs

/-- The operation of an AMO on the old word (R372). -/
def amoValue (swap : Bool) (old v : Nat) : Nat := if swap then v % 2 ^ 32 else (old + v) % 2 ^ 32

/-- Performs an access on local RAM (R361, R372, R373). -/
def State.localAccess (s : State) (c : Nat) (x : Access) : State × Option (Nat × Nat) :=
  let p := lramBase c + x.addr
  match x with
  | .load _ n => (s, some (n, s.leMem p n))
  | .store _ n v => (s.setLeMem p n v, none)
  | .amo _ swap v => let old := s.leMem p 4
    (s.setLeMem p 4 (amoValue swap old v), some (4, old))

/-- The value that the loads of an instruction have brought, lowest address first. -/
def gotValue : List (Nat × Nat) → Nat
  | [] => 0
  | (n, v) :: rest => v + 256 ^ n * gotValue rest

/-- The values of an instruction's accesses reach its registers (R354, R369, R371, R372, R383). -/
def Th.finish (h : Th) (after : After) (got : List (Nat × Nat)) : Th :=
  let v := gotValue got
  match after with
  | .nothing => h
  | .wideStore => h
  | .word rd n sgn => h.setReg rd (if sgn then sext (8 * n) 32 v else v)
  | .pair rd => (h.setReg rd v).setReg (rd + 1) (v / 2 ^ 32)
  | .fp fd dbl => h.setFreg fd (if dbl then v else 0xFFFFFFFF00000000 + v % 2 ^ 32)
  | .spill => { h.setReg 7 (h.reg 7 + (2 ^ 32 - 64)) with live := h.live - 1 }
  | .fill =>
    let k := (h.cur + 8 - h.live) % 8
    let w := (List.range 16).foldl (fun w i => Sparse.set 0 w (16 * k + i) (got.getD i (4, 0)).2) h.w
    { { h with w }.setReg 7 (h.reg 7 + 64) with live := h.live + 1 }

/-- The packet of an access that leaves the core for a physical address. -/
def Access.pkt (x : Access) (id a : Nat) : Pkt :=
  match x with
  | .load _ n => { ini := id, cmd := .read, addr := a, len := n }
  | .store _ n v => { ini := id, cmd := .write, addr := a, len := n, data := leBytes n v }
  | .amo _ swap v => { ini := id, cmd := if swap then .amoSwap else .amoAdd, addr := a, len := 4, data := leBytes 4 v }

/-- A store to a CPU_THR_EVENTS register: the thread that it names and the events (R403, R432). -/
def Access.signal (x : Access) (a : Nat) : Option (Nat × Nat) :=
  match x with
  | .store _ n v => if n ≤ 4 then (eventsThread a n).map fun t => (t, v * 256 ^ (a % 4) % 65536) else none
  | _ => none

/-- A store that its thread does not wait for (R373). -/
def State.isPosted (s : State) (c : Nat) (x : Access) : Bool :=
  match x with
  | .store a _ _ => !isLocal a && decide (a / 2 ^ 28 ≠ 15) && (s.aperture c (a / 2 ^ 28)).posted
  | _ => false

/-- An access that has issued is handed to the ring network: none where no tag is free, else whether its thread goes on (R373). A
store to CPU_THR_EVENTS leaves as an EVENT, which has no response (R432). -/
def State.sendAccess (s : State) (id : Nat) (x : Access) (phys : Nat) (posted : Bool) : Option (State × Bool) :=
  match x.signal phys with
  | some (t, m) => some (s.offer { ini := id, cmd := .event, addr := t, len := 2, data := leBytes 2 m, store := true }, true)
  | none => (s.request (x.pkt id phys) (if posted then .posted x.addr (s.th id).inTrap else .wait)).map fun t => (t, posted)

/-- Holds a thread in an access. -/
def State.holdAccess (s : State) (id : Nat) (w : Waiting) : State := s.updTh id fun h => { h with hold := .access w }

/-- The core address of an access as a bus error reports it: that of the whole access where it was split (R406). -/
def accessInfo (after : After) (x : Access) : Nat :=
  match after with
  | .pair _ => x.addr / 8 * 8
  | .fp _ true => x.addr / 8 * 8
  | .wideStore => x.addr / 8 * 8
  | _ => x.addr

/-- An access of a thread meets a trap: the thread takes it, or stops (R392, R398). -/
def State.accessFails (s : State) (id cause info : Nat) : State :=
  if (s.th id).stopping then s.stopNow id
  else (s.updTh id fun h => { h with hold := .none }).takeTrap id cause info (s.th id).pc

/-- The last access of an instruction is done: the instruction ends, and a thread with a stop stops (R398). -/
def State.accessEnds (s : State) (id : Nat) (after : After) (got : List (Nat × Nat)) : State :=
  let s := (s.updTh id fun h => { h with hold := .none }).retire id ((s.th id).pc + 4) fun h => h.finish after got
  if (s.th id).stopping then s.stopNow id else s

/-- Runs the accesses of an instruction in their order until one must be waited for, then the instruction's end: an access
to local RAM acts at once, a posted store is handed over, and any other access holds the thread (R373, R374, R466). Each access is
translated and checked when it issues (R357, R359). -/
def State.access (s : State) (id : Nat) (after : After) : List Access → List (Nat × Nat) → State
  | [], got => s.accessEnds id after got
  | x :: xs, got =>
    let c := coreOf id
    match s.accessTrap c x with
    | some cause => s.accessFails id cause (accessInfo after x)
    | none =>
      if isLocal x.addr then
        let (s, v) := s.localAccess c x
        s.access id after xs (got ++ v.toList)
      else
        let phys := s.physical c x.addr
        let w : Waiting := { todo := x :: xs, got, after, phys, posted := s.isPosted c x }
        if c = 4 ∧ memKind phys = some .mailbox then s.holdAccess id { w with portK := true }
        else match s.sendAccess id x phys w.posted with
          | none => (s.holdAccess id { w with stalled := true }).tagWait id
          | some (s, true) => s.access id after xs got
          | some (s, false) => s.holdAccess id w

/-- A thread that waits for a free tag hands its access over when there is one (R373, R442). -/
def State.retryThread (s : State) (id : Nat) : State :=
  match (s.th id).hold with
  | .access w =>
    if ¬ w.stalled then s
    else match w.todo with
      | [] => s
      | x :: xs => match s.sendAccess id x w.phys w.posted with
        | none => s
        | some (s, true) => s.access id w.after xs w.got
        | some (s, false) => s.holdAccess id { w with stalled := false }
  | _ => s

/-- The threads that wait for a free tag try again (R373, R442). -/
def State.retryStalled (s : State) : State := (List.range 17).foldl (fun s id => s.retryThread id) s

/-- The words of local RAM that the reads of an instruction touch are checked in the order of its accesses, up to the first access
that finds an uncorrectable error (R361): the state with the counts, and that access. -/
def State.lramChecked (s : State) (c : Nat) (ecc : EccMap) : List Access → State × Option Access
  | [] => (s, none)
  | x :: xs =>
    let reads : Bool := match x with
      | .store _ _ _ => false
      | _ => isLocal x.addr
    let here := (eccFirst ecc).filter fun e =>
      reads && e.1 % 4 == 0 && decide (x.addr < e.1 + 4) && decide (e.1 < x.addr + x.size)
    let s := here.foldl (fun s e => match e.2 with
      | .good => s
      | .corrected => s.lramCorrected c
      | .uncorrectable => s.lramUncorrectable c) s
    if eccBad here then (s, some x) else s.lramChecked c ecc xs

/-- The accesses of an instruction, with the check of the local words that it reads (R361, R392). -/
def State.accesses (s : State) (u : Issue) (after : After) (xs : List Access) : Res :=
  let c := coreOf (thr u)
  match s.firstTrap c xs with
  | some (cause, info) => .trap cause info
  | none => match s.lramChecked c u.data xs with
    -- the counts of the check stand, the instruction has no effect
    | (s, some x) => .acted (s.takeTrap (thr u) 11 x.addr (s.th (thr u)).pc)
    | (s, none) => .acted (s.access (thr u) after xs [])

/-- An access of 8 bytes splits at CSR space (R371, R592). -/
def wide (mk : Nat → Nat → Nat → Access) (a v : Nat) : List Access :=
  if a / 2 ^ 28 = 15 ∧ a % 8 = 0 then [mk a 4 (v % 2 ^ 32), mk (a + 4) 4 (v / 2 ^ 32)] else [mk a 8 v]

/-- The response to the access of a thread that waits, or the end of a port-K access: its bytes, or an error (R374,
R398). -/
def State.accessDone (s : State) (id : Nat) (error : Bool) (data : List (BitVec 8)) : State :=
  match (s.th id).hold with
  | .access w =>
    match w.todo with
    | [] => s
    | x :: xs =>
      if (s.th id).stopping then s.stopNow id
      else if error then s.accessFails id 12 (accessInfo w.after x)
      else s.access id w.after xs (match x with
        | .store _ _ _ => w.got
        | _ => w.got ++ [(x.size, leNat data)])
  | _ => s

/-- No earlier access of the thread is outstanding (R372, R375). -/
def State.settled (s : State) (id : Nat) : Bool :=
  !(s.ring.outs.any fun x => x.ini == id) && !(s.ring.held.any fun p => p.ini == id)

end Sys2Proof.Machine
end

