-- ==== Sys2Proof/Machine/CoreArith.lean ====
section
/-! DEFINITION. The arithmetic instructions of the cores (R365 to R367, R377 to R379). -/

namespace Sys2Proof.Machine

/-- An ALU-group instruction: rd takes `f` of ra and rb (R365). -/
def State.alu (s : State) (u : Issue) (func : Nat) (rd ra rb : Fin 32) (f : Nat → Nat → Nat) : State :=
  s.issue u (encR 0x00 rd.val ra.val rb.val func) fun s =>
    let h := s.th (thr u)
    s.plain (thr u) fun t => t.setReg rd.val (f (h.reg ra.val) (h.reg rb.val))

/-- A shift-immediate instruction (R366). -/
def State.shiftImm (s : State) (u : Issue) (func : Nat) (rd ra sh : Fin 32) (f : Nat → Nat → Nat) : State :=
  s.issue u (encR 0x28 rd.val ra.val sh.val func) fun s =>
    s.plain (thr u) fun t => t.setReg rd.val (f ((s.th (thr u)).reg ra.val) sh.val)

/-- An I-format arithmetic instruction: rd takes `f` of ra and the immediate (R367). -/
def State.immOp (s : State) (u : Issue) (op : Nat) (rd ra : Fin 32) (imm : BitVec 16) (f : Nat → Nat → Nat) : State :=
  s.issue u (encI op rd.val ra.val imm.toNat) fun s =>
    s.plain (thr u) fun t => t.setReg rd.val (f ((s.th (thr u)).reg ra.val) imm.toNat)

/-- An I-format instruction of the pc and the immediate, ra 0 (R367). -/
def State.upperOp (s : State) (u : Issue) (op : Nat) (rd : Fin 32) (imm : BitVec 16) (f : Nat → Nat → Nat) : State :=
  s.issue u (encI op rd.val 0 imm.toNat) fun s =>
    s.plain (thr u) fun t => t.setReg rd.val (f (s.th (thr u)).pc imm.toNat)

/-- A multiplication (R377). -/
def State.mulOp (s : State) (u : Issue) (func : Nat) (rd ra rb : Fin 32) (f : Nat → Nat → Nat) : State :=
  s.issue u (encR 0x01 rd.val ra.val rb.val func) fun s =>
    let h := s.th (thr u)
    s.plain (thr u) fun t => t.setReg rd.val (f (h.reg ra.val) (h.reg rb.val))

/-- The divider of a core is busy (R379). -/
def State.dividing (s : State) (c : Nat) : Bool :=
  (List.range 4).any fun t => match (s.th (4 * c + t)).hold with
    | .divide _ _ => true
    | _ => false

/-- A division: a divisor of 0 traps, else the thread waits for the divider; it does not issue while the divider is busy
(R378, R379). -/
def State.divOp (s : State) (u : Issue) (func : Nat) (rd ra rb : Fin 32) (f : Nat → Nat → Nat) : State :=
  s.issue u (encR 0x01 rd.val ra.val rb.val func) fun s =>
    let h := s.th (thr u)
    if s.dividing (coreOf (thr u)) then .held
    else if h.reg rb.val = 0 then .trap 10 0
    else .acted (s.updTh (thr u) fun t => { t with hold := .divide rd.val (f (h.reg ra.val) (h.reg rb.val)) })

/-- The divider of a thread's core is done: the result reaches rd (R379); a thread that is to stop stops (R398). -/
def State.dividerDone (s : State) (id : Nat) : State :=
  match (s.th id).hold with
  | .divide rd v =>
    if (s.th id).stopping then s.stopNow id
    else s.retire id ((s.th id).pc + 4) fun t => { t with hold := .none }.setReg rd v
  | _ => s

/-- Rotation of a 32-bit word to the right. -/
def rotr32 (a k : Nat) : Nat := (a >>> (k % 32) ||| a <<< ((32 - k % 32) % 32)) % 2 ^ 32

/-- Arithmetic shift of a 32-bit word to the right. -/
def sra32 (a k : Nat) : Nat := ofInt 32 (toInt 32 a / (2 ^ (k % 32) : Nat))

/-- a < b, signed. -/
def slt32 (a b : Nat) : Bool := toInt 32 a < toInt 32 b

/-- Leading zeros of a 32-bit word (R365, R379). -/
def clz32 (a : Nat) : Nat := 32 - (if a % 2 ^ 32 = 0 then 0 else Nat.log2 (a % 2 ^ 32) + 1)

/-- ADD: rd = add of ra and rb (R365). -/
def execAdd (u : Issue) (rd ra rb : Fin 32) (s : State) : Host.Outcome State Fault Refusal :=
  .next (s.alu u 0x000 rd ra rb fun a b => a + b)

/-- SUB: rd = sub of ra and rb (R365). -/
def execSub (u : Issue) (rd ra rb : Fin 32) (s : State) : Host.Outcome State Fault Refusal :=
  .next (s.alu u 0x001 rd ra rb fun a b => a + 2 ^ 32 - b)

/-- AND: rd = and of ra and rb (R365). -/
def execAnd (u : Issue) (rd ra rb : Fin 32) (s : State) : Host.Outcome State Fault Refusal :=
  .next (s.alu u 0x002 rd ra rb fun a b => a &&& b)

/-- OR: rd = or of ra and rb (R365). -/
def execOr (u : Issue) (rd ra rb : Fin 32) (s : State) : Host.Outcome State Fault Refusal :=
  .next (s.alu u 0x003 rd ra rb fun a b => a ||| b)

/-- XOR: rd = xor of ra and rb (R365). -/
def execXor (u : Issue) (rd ra rb : Fin 32) (s : State) : Host.Outcome State Fault Refusal :=
  .next (s.alu u 0x004 rd ra rb fun a b => a ^^^ b)

/-- SLL: rd = sll of ra and rb (R365). -/
def execSll (u : Issue) (rd ra rb : Fin 32) (s : State) : Host.Outcome State Fault Refusal :=
  .next (s.alu u 0x005 rd ra rb fun a b => a <<< (b % 32))

/-- SRL: rd = srl of ra and rb (R365). -/
def execSrl (u : Issue) (rd ra rb : Fin 32) (s : State) : Host.Outcome State Fault Refusal :=
  .next (s.alu u 0x006 rd ra rb fun a b => a >>> (b % 32))

/-- SRA: rd = sra of ra and rb (R365). -/
def execSra (u : Issue) (rd ra rb : Fin 32) (s : State) : Host.Outcome State Fault Refusal :=
  .next (s.alu u 0x007 rd ra rb fun a b => sra32 a b)

/-- SLT: rd = slt of ra and rb (R365). -/
def execSlt (u : Issue) (rd ra rb : Fin 32) (s : State) : Host.Outcome State Fault Refusal :=
  .next (s.alu u 0x008 rd ra rb fun a b => b2n (slt32 a b))

/-- SLTU: rd = sltu of ra and rb (R365). -/
def execSltu (u : Issue) (rd ra rb : Fin 32) (s : State) : Host.Outcome State Fault Refusal :=
  .next (s.alu u 0x009 rd ra rb fun a b => b2n (decide (a < b)))

/-- MIN: rd = min of ra and rb (R365). -/
def execMin (u : Issue) (rd ra rb : Fin 32) (s : State) : Host.Outcome State Fault Refusal :=
  .next (s.alu u 0x00A rd ra rb fun a b => if slt32 a b then a else b)

/-- MAX: rd = max of ra and rb (R365). -/
def execMax (u : Issue) (rd ra rb : Fin 32) (s : State) : Host.Outcome State Fault Refusal :=
  .next (s.alu u 0x00B rd ra rb fun a b => if slt32 a b then b else a)

/-- MINU: rd = minu of ra and rb (R365). -/
def execMinu (u : Issue) (rd ra rb : Fin 32) (s : State) : Host.Outcome State Fault Refusal :=
  .next (s.alu u 0x00C rd ra rb fun a b => min a b)

/-- MAXU: rd = maxu of ra and rb (R365). -/
def execMaxu (u : Issue) (rd ra rb : Fin 32) (s : State) : Host.Outcome State Fault Refusal :=
  .next (s.alu u 0x00D rd ra rb fun a b => max a b)

/-- ANDN: rd = andn of ra and rb (R365). -/
def execAndn (u : Issue) (rd ra rb : Fin 32) (s : State) : Host.Outcome State Fault Refusal :=
  .next (s.alu u 0x014 rd ra rb fun a b => a &&& (2 ^ 32 - 1 - b))

/-- ROTR: rd = rotr of ra and rb (R365). -/
def execRotr (u : Issue) (rd ra rb : Fin 32) (s : State) : Host.Outcome State Fault Refusal :=
  .next (s.alu u 0x015 rd ra rb fun a b => rotr32 a b)

/-- CLZ of ra (R365). -/
def execClz (u : Issue) (rd ra : Fin 32) (s : State) : Host.Outcome State Fault Refusal :=
  .next (s.alu u 0x00E rd ra 0 fun a _ => clz32 a)

/-- CTZ of ra (R365). -/
def execCtz (u : Issue) (rd ra : Fin 32) (s : State) : Host.Outcome State Fault Refusal :=
  .next (s.alu u 0x00F rd ra 0 fun a _ => (lowestOne 32 a).getD 32)

/-- POPC of ra (R365). -/
def execPopc (u : Issue) (rd ra : Fin 32) (s : State) : Host.Outcome State Fault Refusal :=
  .next (s.alu u 0x010 rd ra 0 fun a _ => popCount 32 a)

/-- BSWAP of ra (R365). -/
def execBswap (u : Issue) (rd ra : Fin 32) (s : State) : Host.Outcome State Fault Refusal :=
  .next (s.alu u 0x011 rd ra 0 fun a _ => leNat (leBytes 4 a).reverse)

/-- SEXTB of ra (R365). -/
def execSextb (u : Issue) (rd ra : Fin 32) (s : State) : Host.Outcome State Fault Refusal :=
  .next (s.alu u 0x012 rd ra 0 fun a _ => sext 8 32 a)

/-- SEXTH of ra (R365). -/
def execSexth (u : Issue) (rd ra : Fin 32) (s : State) : Host.Outcome State Fault Refusal :=
  .next (s.alu u 0x013 rd ra 0 fun a _ => sext 16 32 a)

/-- SLLI: ra shifted by the amount in the word (R366). -/
def execSlli (u : Issue) (rd ra sh : Fin 32) (s : State) : Host.Outcome State Fault Refusal :=
  .next (s.shiftImm u 0x005 rd ra sh fun a k => a <<< k)

/-- SRLI: ra shifted by the amount in the word (R366). -/
def execSrli (u : Issue) (rd ra sh : Fin 32) (s : State) : Host.Outcome State Fault Refusal :=
  .next (s.shiftImm u 0x006 rd ra sh fun a k => a >>> k)

/-- SRAI: ra shifted by the amount in the word (R366). -/
def execSrai (u : Issue) (rd ra sh : Fin 32) (s : State) : Host.Outcome State Fault Refusal :=
  .next (s.shiftImm u 0x007 rd ra sh fun a k => sra32 a k)

/-- ROTRI: ra shifted by the amount in the word (R366). -/
def execRotri (u : Issue) (rd ra sh : Fin 32) (s : State) : Host.Outcome State Fault Refusal :=
  .next (s.shiftImm u 0x015 rd ra sh fun a k => rotr32 a k)

/-- ADDI of ra and the immediate (R367). -/
def execAddi (u : Issue) (rd ra : Fin 32) (imm : BitVec 16) (s : State) : Host.Outcome State Fault Refusal :=
  .next (s.immOp u 0x08 rd ra imm fun a k => a + sext 16 32 k)

/-- ANDI of ra and the immediate (R367). -/
def execAndi (u : Issue) (rd ra : Fin 32) (imm : BitVec 16) (s : State) : Host.Outcome State Fault Refusal :=
  .next (s.immOp u 0x09 rd ra imm fun a k => a &&& k)

/-- ORI of ra and the immediate (R367). -/
def execOri (u : Issue) (rd ra : Fin 32) (imm : BitVec 16) (s : State) : Host.Outcome State Fault Refusal :=
  .next (s.immOp u 0x0A rd ra imm fun a k => a ||| k)

/-- XORI of ra and the immediate (R367). -/
def execXori (u : Issue) (rd ra : Fin 32) (imm : BitVec 16) (s : State) : Host.Outcome State Fault Refusal :=
  .next (s.immOp u 0x0B rd ra imm fun a k => a ^^^ k)

/-- SLTI of ra and the immediate (R367). -/
def execSlti (u : Issue) (rd ra : Fin 32) (imm : BitVec 16) (s : State) : Host.Outcome State Fault Refusal :=
  .next (s.immOp u 0x0C rd ra imm fun a k => b2n (slt32 a (sext 16 32 k)))

/-- SLTIU of ra and the immediate (R367). -/
def execSltiu (u : Issue) (rd ra : Fin 32) (imm : BitVec 16) (s : State) : Host.Outcome State Fault Refusal :=
  .next (s.immOp u 0x0D rd ra imm fun a k => b2n (decide (a < sext 16 32 k)))

/-- LUI: rd = imm16 × 2^16 (R367). -/
def execLui (u : Issue) (rd : Fin 32) (imm : BitVec 16) (s : State) : Host.Outcome State Fault Refusal :=
  .next (s.upperOp u 0x0E rd imm fun _ k => k * 65536)

/-- ADDPC: rd = the address of the instruction + 4 × imm16, signed (R367). -/
def execAddpc (u : Issue) (rd : Fin 32) (imm : BitVec 16) (s : State) : Host.Outcome State Fault Refusal :=
  .next (s.upperOp u 0x0F rd imm fun pc k => relative pc 16 k)

/-- MUL: Bits [31:0] of ra × rb (R377). -/
def execMul (u : Issue) (rd ra rb : Fin 32) (s : State) : Host.Outcome State Fault Refusal :=
  .next (s.mulOp u 0x000 rd ra rb fun a b => a * b)

/-- MULHS: Bits [63:32] of ra × rb, signed (R377). -/
def execMulhs (u : Issue) (rd ra rb : Fin 32) (s : State) : Host.Outcome State Fault Refusal :=
  .next (s.mulOp u 0x001 rd ra rb fun a b => ofInt 32 (toInt 32 a * toInt 32 b / (2 ^ 32 : Nat)))

/-- MULHU: Bits [63:32] of ra × rb, unsigned (R377). -/
def execMulhu (u : Issue) (rd ra rb : Fin 32) (s : State) : Host.Outcome State Fault Refusal :=
  .next (s.mulOp u 0x002 rd ra rb fun a b => a * b / 2 ^ 32)

/-- DIVS: signed quotient, toward zero (R377 to R379). -/
def execDivs (u : Issue) (rd ra rb : Fin 32) (s : State) : Host.Outcome State Fault Refusal :=
  .next (s.divOp u 0x004 rd ra rb fun a b => ofInt 32 ((toInt 32 a).tdiv (toInt 32 b)))

/-- DIVU: unsigned quotient (R377 to R379). -/
def execDivu (u : Issue) (rd ra rb : Fin 32) (s : State) : Host.Outcome State Fault Refusal :=
  .next (s.divOp u 0x005 rd ra rb fun a b => a / b)

/-- REMS: signed remainder, with the sign of the dividend (R377 to R379). -/
def execRems (u : Issue) (rd ra rb : Fin 32) (s : State) : Host.Outcome State Fault Refusal :=
  .next (s.divOp u 0x006 rd ra rb fun a b => ofInt 32 ((toInt 32 a).tmod (toInt 32 b)))

/-- REMU: unsigned remainder (R377 to R379). -/
def execRemu (u : Issue) (rd ra rb : Fin 32) (s : State) : Host.Outcome State Fault Refusal :=
  .next (s.divOp u 0x007 rd ra rb fun a b => a % b)

/-- DIVIDER_DONE (R379). -/
def execDividerDone (core : Fin 5) (thread : Fin 4) (s : State) : Host.Outcome State Fault Refusal :=
  .next (s.dividerDone (4 * core.val + thread.val))

end Sys2Proof.Machine
end

