-- ==== Sys2Proof/Machine/CoreControl.lean ====
section
/-! DEFINITION. Control transfer, the SYS group and the core control registers (R353 to R356, R368, R380 to R382, R396,
R403 to R408, R412, R423). -/

namespace Sys2Proof.Machine

/-- A conditional branch (R368). -/
def State.branchOp (s : State) (u : Issue) (op : Nat) (ra rb : Fin 32) (disp : BitVec 16) (p : Nat → Nat → Bool) : State :=
  s.issue u (encB op ra.val rb.val disp.toNat) fun s =>
    let h := s.th (thr u)
    if p (h.reg ra.val) (h.reg rb.val) then s.transfer (thr u) (relative h.pc 16 disp.toNat) else s.plain (thr u) fun t => t

/-- A SYS instruction (R380). -/
def State.sysOp (s : State) (u : Issue) (rd ra rb : Fin 32) (func : Nat) (body : State → Th → Nat → Res) : State :=
  let enc := encR 0x02 rd.val ra.val rb.val func
  s.issue u enc fun s => body s (s.th (thr u)) enc

/-- A call: the target is checked first, then the window, then the depth (R356, R360, R392, R412). -/
def State.callTo (s : State) (id enc target : Nat) : Res :=
  let h := s.th id
  if ¬ pcOk id target then .trap 1 target
  else if h.inTrap then .trap 3 enc
  else if 128 ≤ h.rstack.length then .trap 4 128
  else .acted (s.retire id target fun t => { t with rstack := (t.pc + 4) :: t.rstack })

/-- Opening a window (R351, R353). -/
def Th.openWindow (h : Th) : Th :=
  let tgt := (h.cur + 1) % 8
  { h.copy4 h.cur 12 tgt 0 with cur := tgt, live := h.live + 1 }

/-- Closing a window (R351, R353). -/
def Th.closeWindow (h : Th) : Th :=
  let tgt := (h.cur + 7) % 8
  { h.copy4 h.cur 0 tgt 12 with cur := tgt, live := h.live - 1 }

/-- A return (R356, R360, R392, R412); RETC also closes a window. -/
def State.returnFrom (s : State) (id enc : Nat) (close : Bool) : Res :=
  let h := s.th id
  let bad : Option Nat := match h.rstack with
    | [] => none
    | a :: _ => if pcOk id a then none else some a
  match bad, h.rstack with
  | some a, _ => .trap 1 a
  | none, rest =>
    if h.inTrap then .trap 3 enc
    else match rest with
      | [] => .trap 5 0
      | a :: rest =>
        if close && h.live ≤ 1 then .trap 7 h.wstate
        else .acted (s.retire id a fun t => { (if close then t.closeWindow else t) with rstack := rest })

/-- Reads a core control register, with the latch of its read (R381, R382, R423). -/
def State.readCcr (s : State) (id n : Nat) : Nat × State :=
  let h := s.th id
  let c := coreOf id
  match n with
  | 0 => (lane4 id + 4 * c, s)
  | 1 => (h.wstate, s)
  | 2 => (h.rstack.length, s)
  | 3 => (h.flags + h.enables <<< 8 + h.rm <<< 16 + b2n h.ftz <<< 20 + b2n h.fpPend.isSome <<< 24, s)
  | 4 => ((s.core c).cycles % 2 ^ 32, s.updCore c fun k => { k with cycleHi := (s.core c).cycles / 2 ^ 32 })
  | 5 => ((s.core c).cycleHi, s)
  | 6 => (h.instret % 2 ^ 32, s.updTh id fun t => { t with instretHi := h.instret / 2 ^ 32 })
  | 7 => (h.instretHi, s)
  | 8 => (h.events, s)
  | 9 => (h.prio, s)
  | 10 => (h.trapbase <<< 10, s)
  | 11 => (h.resume, s)
  | 12 => (h.trapcode, s)
  | 13 => (h.trapinfo, s)
  | 14 => (b2n h.rsReset, s)
  | 15 => (h.trapscr, s)
  | _ => let a := s.aperture c (n - 16)
    (a.base + b2n a.valid <<< 16 + b2n a.posted <<< 17, s)

/-- Writes a core control register: none where that is an illegal instruction (R381, R408). -/
def State.writeCcr (s : State) (id n v : Nat) : Option State :=
  let h := s.th id
  match n with
  | 1 =>
    let live := bits v 4 4
    if ¬ h.inTrap ∨ live = 0 ∨ 8 < live then none else some (s.updTh id fun t => { t with cur := v % 8, live })
  | 3 => some (s.updTh id fun t => { t with flags := bits v 0 5, enables := bits v 8 5, rm := bits v 16 3, ftz := v.testBit 20 })
  | 9 => some (s.updTh id fun t => { t with prio := v % 8 }).publishLevels
  | 10 => some (s.updTh id fun t => { t with trapbase := bits v 10 7 })
  | 11 => if h.inTrap then some (s.updTh id fun t => { t with resume := v / 4 * 4 }) else none
  | 14 => if h.inTrap then some (s.updTh id fun t => { t with rsReset := t.rsReset || v.testBit 0 }) else none
  | 15 => some (s.updTh id fun t => { t with trapscr := v })
  | n =>
    if 17 ≤ n ∧ n ≤ 30 then
      some (s.updCore (coreOf id) fun k => { k with
        aps := Sparse.set {} k.aps (n - 16) { base := bits v 0 12, valid := v.testBit 16, posted := v.testBit 17 } })
    else none

/-- CC_FCSR is reached only after every FP instruction of the thread has merged its flags (R381, R389). -/
def Th.fpBusy (h : Th) : Bool := !h.fpOps.isEmpty

/-- A SIGE lands: within the core at once, else it travels as an EVENT (R403, R432). -/
def State.signal (s : State) (id tgt m : Nat) : State :=
  if coreOf id = coreOf tgt then s.softEvents tgt m
  else s.offer { ini := id, cmd := .event, addr := tgt, len := 2, data := leBytes 2 m }

/-- BEQ: taken when ra = rb (R368). -/
def execBeq (u : Issue) (ra rb : Fin 32) (disp : BitVec 16) (s : State) : Host.Outcome State Fault Refusal :=
  .next (s.branchOp u 0x20 ra rb disp fun a b => a == b)

/-- BNE: taken when ra ≠ rb (R368). -/
def execBne (u : Issue) (ra rb : Fin 32) (disp : BitVec 16) (s : State) : Host.Outcome State Fault Refusal :=
  .next (s.branchOp u 0x21 ra rb disp fun a b => a != b)

/-- BLT: taken when ra < rb, signed (R368). -/
def execBlt (u : Issue) (ra rb : Fin 32) (disp : BitVec 16) (s : State) : Host.Outcome State Fault Refusal :=
  .next (s.branchOp u 0x22 ra rb disp fun a b => slt32 a b)

/-- BGE: taken when ra ≥ rb, signed (R368). -/
def execBge (u : Issue) (ra rb : Fin 32) (disp : BitVec 16) (s : State) : Host.Outcome State Fault Refusal :=
  .next (s.branchOp u 0x23 ra rb disp fun a b => !slt32 a b)

/-- BLTU: taken when ra < rb, unsigned (R368). -/
def execBltu (u : Issue) (ra rb : Fin 32) (disp : BitVec 16) (s : State) : Host.Outcome State Fault Refusal :=
  .next (s.branchOp u 0x24 ra rb disp fun a b => decide (a < b))

/-- BGEU: taken when ra ≥ rb, unsigned (R368). -/
def execBgeu (u : Issue) (ra rb : Fin 32) (disp : BitVec 16) (s : State) : Host.Outcome State Fault Refusal :=
  .next (s.branchOp u 0x25 ra rb disp fun a b => decide (b ≤ a))

/-- JMP (R368). -/
def execJmp (u : Issue) (disp : BitVec 26) (s : State) : Host.Outcome State Fault Refusal :=
  .next (s.issue u (encJ 0x26 disp.toNat) fun s => s.transfer (thr u) (relative (s.th (thr u)).pc 26 disp.toNat))

/-- CALL (R356, R368). -/
def execCall (u : Issue) (disp : BitVec 26) (s : State) : Host.Outcome State Fault Refusal :=
  let enc := encJ 0x27 disp.toNat
  .next (s.issue u enc fun s => s.callTo (thr u) enc (relative (s.th (thr u)).pc 26 disp.toNat))

/-- WOPEN (R351, R353, R412). -/
def execWopen (u : Issue) (s : State) : Host.Outcome State Fault Refusal :=
  .next (s.sysOp u 0 0 0 0x000 fun s h enc =>
    if h.inTrap then .trap 3 enc else if 8 ≤ h.live then .trap 6 h.wstate else s.plain (thr u) Th.openWindow)

/-- WCLOSE (R351, R353, R412). -/
def execWclose (u : Issue) (s : State) : Host.Outcome State Fault Refusal :=
  .next (s.sysOp u 0 0 0 0x001 fun s h enc =>
    if h.inTrap then .trap 3 enc else if h.live ≤ 1 then .trap 7 h.wstate else s.plain (thr u) Th.closeWindow)

/-- SPILL: the oldest live window goes to the stack (R354). -/
def execSpill (u : Issue) (s : State) : Host.Outcome State Fault Refusal :=
  .next (s.sysOp u 0 0 0 0x002 fun s h enc =>
    if ¬ h.inTrap ∨ h.live ≤ 1 then .trap 3 enc
    else
      let k := (h.cur + 8 - h.live + 1) % 8
      s.accesses u .spill ((List.range 16).map fun i =>
        .store ((h.reg 7 + 2 ^ 32 - 64 + 4 * i) % 2 ^ 32) 4 (Sparse.get 0 h.w (16 * k + i))))

/-- FILL: the window below the oldest live one comes from the stack (R354). -/
def execFill (u : Issue) (s : State) : Host.Outcome State Fault Refusal :=
  .next (s.sysOp u 0 0 0 0x003 fun s h enc =>
    if ¬ h.inTrap ∨ 8 ≤ h.live then .trap 3 enc
    else s.accesses u .fill ((List.range 16).map fun i => .load ((h.reg 7 + 4 * i) % 2 ^ 32) 4))

/-- JR (R368). -/
def execJr (u : Issue) (ra : Fin 32) (s : State) : Host.Outcome State Fault Refusal :=
  .next (s.sysOp u 0 ra 0 0x004 fun s h _ => s.transfer (thr u) (h.reg ra.val))

/-- CALLR (R356, R368). -/
def execCallr (u : Issue) (ra : Fin 32) (s : State) : Host.Outcome State Fault Refusal :=
  .next (s.sysOp u 0 ra 0 0x005 fun s h enc => s.callTo (thr u) enc (h.reg ra.val))

/-- RET (R356). -/
def execRet (u : Issue) (s : State) : Host.Outcome State Fault Refusal :=
  .next (s.sysOp u 0 0 0 0x006 fun s _ enc => s.returnFrom (thr u) enc false)

/-- RETC: RET and WCLOSE (R356). -/
def execRetc (u : Issue) (s : State) : Host.Outcome State Fault Refusal :=
  .next (s.sysOp u 0 0 0 0x007 fun s _ enc => s.returnFrom (thr u) enc true)

/-- TRAP: a software trap; the thread resumes after it (R406, R412). -/
def execTrap (u : Issue) (code : Fin 32) (s : State) : Host.Outcome State Fault Refusal :=
  .next (s.sysOp u 0 0 code 0x008 fun s h enc =>
    if h.inTrap then .trap 3 enc else .acted (s.takeTrap (thr u) 13 code.val (h.pc + 4)))

/-- TRET: the return from a trap (R408). -/
def execTret (u : Issue) (s : State) : Host.Outcome State Fault Refusal :=
  .next (s.sysOp u 0 0 0 0x009 fun s h enc =>
    if ¬ h.inTrap then .trap 3 enc
    else s.transfer (thr u) h.resume fun t => { t with
      inTrap := false, rstack := if t.rsReset then [] else t.rstack, rsReset := false })

/-- FENCE: holds its thread until every earlier access has completed (R375). -/
def execFence (u : Issue) (s : State) : Host.Outcome State Fault Refusal :=
  .next (s.sysOp u 0 0 0 0x00A fun s _ _ => if s.settled (thr u) then s.plain (thr u) fun t => t else .held)

/-- FSYNC: holds its thread until every earlier FP instruction has merged its flags (R389). -/
def execFsync (u : Issue) (s : State) : Host.Outcome State Fault Refusal :=
  .next (s.sysOp u 0 0 0 0x00B fun s h _ => if h.fpBusy then .held else s.plain (thr u) fun t => t)

/-- MFC: rd takes a core control register (R381, R382). -/
def execMfc (u : Issue) (rd ccr : Fin 32) (s : State) : Host.Outcome State Fault Refusal :=
  .next (s.sysOp u rd ccr 0 0x00C fun s h _ =>
    if ccr.val = 3 ∧ h.fpBusy then .held
    else
      let (v, s) := s.readCcr (thr u) ccr.val
      s.plain (thr u) fun t => t.setReg rd.val v)

/-- MTC: a core control register takes ra (R359, R381, R382). -/
def execMtc (u : Issue) (ccr ra : Fin 32) (s : State) : Host.Outcome State Fault Refusal :=
  .next (s.sysOp u ccr ra 0 0x00D fun s h enc =>
    if ccr.val = 3 ∧ h.fpBusy then .held
    else match s.writeCcr (thr u) ccr.val (h.reg ra.val) with
      | none => .trap 3 enc
      | some s => s.plain (thr u) fun t => t)

/-- WAITE: takes the pending events of the mask, or waits (R404, R412, R421). -/
def execWaite (u : Issue) (rd ra : Fin 32) (s : State) : Host.Outcome State Fault Refusal :=
  .next (s.sysOp u rd ra 0 0x00E fun s h enc =>
    let m := h.reg ra.val
    let ev := h.events &&& m
    if m / 2 ^ 24 ≠ 0 ∨ m = 0 ∨ h.inTrap then .trap 3 enc
    else if ev ≠ 0 then
      .acted ((s.retire (thr u) (h.pc + 4) fun t =>
        { t.setReg rd.val ev with events := t.events &&& (2 ^ 32 - 1 - m) }).rearm (thr u))
    else
      .acted (((s.updTh (thr u) fun t => { t with hold := .event rd.val m }).putThState (thr u) 2).put
        CPU_THR_WMASK.mask m (coreOf (thr u)) (lane4 (thr u))))

/-- SIGE: events for the thread that ra names (R403). -/
def execSige (u : Issue) (ra rb : Fin 32) (s : State) : Host.Outcome State Fault Refusal :=
  .next (s.sysOp u 0 ra rb 0x00F fun s h enc =>
    let tgt := h.reg ra.val
    let m := h.reg rb.val
    if 2 ^ 16 ≤ m ∨ ¬ isThread tgt then .trap 3 enc
    else .acted ((s.retire (thr u) (h.pc + 4)).signal (thr u) tgt m))

/-- BRK: the debug unit holds the thread, or a breakpoint trap (R396, R406). -/
def execBrk (u : Issue) (s : State) : Host.Outcome State Fault Refusal :=
  .next (s.sysOp u 0 0 0 0x013 fun s h _ =>
    if s.bit CPU_THR_CTRL.dbg_en (coreOf (thr u)) (lane4 (thr u)) then
      .acted ((s.retire (thr u) (h.pc + 4)).putThState (thr u) 4)
    else .acted (s.takeTrap (thr u) 17 0 (h.pc + 4)))

end Sys2Proof.Machine
end

