-- ==== Sys2Proof/Machine/Fpu.lean ====
section
/-! DEFINITION. IEEE 754-2019 binary32 and binary64 arithmetic as the FPU computes it (R383 to R388): exact results as
integers, rounded once. Flags are numbers: 1 nv, 2 dz, 4 of, 8 uf, 16 nx (R382). -/

namespace Sys2Proof.Machine

/-- A format: the bits of the significand with the hidden one, and the bits of the exponent. -/
structure FpFmt where
  prec : Nat
  expBits : Nat
  deriving DecidableEq, Repr

/-- binary32 and binary64. -/
def fmtOf (double : Bool) : FpFmt := if double then { prec := 53, expBits := 11 } else { prec := 24, expBits := 8 }

/-- The exponent bias. -/
def FpFmt.bias (k : FpFmt) : Nat := 2 ^ (k.expBits - 1) - 1

/-- The width of the format. -/
def FpFmt.width (k : FpFmt) : Nat := k.prec + k.expBits

/-- The exponent of the last place of the smallest normal and of every subnormal. -/
def FpFmt.least (k : FpFmt) : Int := 2 - (k.bias : Int) - k.prec

/-- A datum: m × 2^e with its sign, m = 0 for a zero. -/
inductive FpNum where
  | fin (neg : Bool) (m : Nat) (e : Int)
  | inf (neg : Bool)
  | nan (signalling : Bool)
  deriving DecidableEq, Repr

/-- The sign bit of a pattern. -/
def FpFmt.sign (k : FpFmt) (v : Nat) : Bool := v.testBit (k.width - 1)

/-- A pattern is subnormal. -/
def FpFmt.subnormal (k : FpFmt) (v : Nat) : Bool := bits v (k.prec - 1) k.expBits == 0 && v % 2 ^ (k.prec - 1) != 0

/-- What a pattern stands for. -/
def FpFmt.decode (k : FpFmt) (v : Nat) : FpNum :=
  let x := bits v (k.prec - 1) k.expBits
  let m := v % 2 ^ (k.prec - 1)
  if x = 2 ^ k.expBits - 1 then
    if m = 0 then .inf (k.sign v) else .nan (!m.testBit (k.prec - 2))
  else if x = 0 then .fin (k.sign v) m k.least
  else .fin (k.sign v) (m + 2 ^ (k.prec - 1)) (k.least + (x - 1 : Nat))

/-- An operand as an operation sees it: with ftz a subnormal counts as a zero of its sign (R387). -/
def FpFmt.operand (k : FpFmt) (ftz : Bool) (v : Nat) : FpNum :=
  if ftz && k.subnormal v then .fin (k.sign v) 0 k.least else k.decode v

/-- The pattern of a sign. -/
def FpFmt.signBit (k : FpFmt) (neg : Bool) : Nat := if neg then 2 ^ (k.width - 1) else 0

/-- ±∞. -/
def FpFmt.infinity (k : FpFmt) (neg : Bool) : Nat := k.signBit neg + (2 ^ k.expBits - 1) * 2 ^ (k.prec - 1)

/-- The largest finite value of a sign. -/
def FpFmt.largest (k : FpFmt) (neg : Bool) : Nat := k.infinity neg - 1

/-- The canonical quiet NaN (R386). -/
def FpFmt.quiet (k : FpFmt) : Nat := k.infinity false + 2 ^ (k.prec - 2)

/-- A result with its flags. -/
abbrev FpRes := Nat × Nat

/-- The result of an invalid operation. -/
def FpFmt.invalid (k : FpFmt) : FpRes := (k.quiet, 1)

/-- Whether a significand cut to `q` with remainder `r` of `d` parts is raised by one in a rounding mode of R384. -/
def roundsUp (rm : Nat) (neg : Bool) (q r d : Nat) : Bool :=
  if r = 0 then false
  else match rm with
    | 1 => decide (d < 2 * r) || (2 * r == d && q % 2 == 1)
    | 2 => decide (d ≤ 2 * r)
    | 3 => !neg
    | 4 => neg
    | _ => false

/-- m × 2^e as a multiple of 2^to, rounded: the multiple, and whether it is exact. -/
def roundAt (rm : Nat) (neg : Bool) (m : Nat) (e tgt : Int) : Nat × Bool :=
  if tgt ≤ e then (m <<< (e - tgt).toNat, true)
  else
    let k := (tgt - e).toNat
    let q := m >>> k
    let r := m % 2 ^ k
    (if roundsUp rm neg q r (2 ^ k) then q + 1 else q, r == 0)

/-- The number of bits of `m`. -/
def bitLen (m : Nat) : Nat := if m = 0 then 0 else Nat.log2 m + 1

/-- Rounds ±m × 2^e, m not 0, to the format (R384, R387): tininess is detected after rounding, and with ftz a subnormal
result becomes a zero. -/
def FpFmt.round (k : FpFmt) (rm : Nat) (ftz neg : Bool) (m : Nat) (e : Int) : FpRes :=
  let top : Int := e + bitLen m - k.prec
  let (q, exact) := roundAt rm neg m e (max top k.least)
  let at_ := max top k.least
  let (q, at_) := if q = 2 ^ k.prec then (2 ^ (k.prec - 1), at_ + 1) else (q, at_)
  let (u, _) := roundAt rm neg m e top
  let tiny : Bool := decide (top < k.least) && !(decide (top + 1 = k.least) && u == 2 ^ k.prec)
  let nx := if exact then 0 else 16
  let uf := if tiny && !exact then 8 else 0
  if (k.bias : Int) + 1 < at_ + k.prec then
    let inf : Bool := match rm with
      | 1 => true
      | 2 => true
      | 3 => !neg
      | 4 => neg
      | _ => false
    (if inf then k.infinity neg else k.largest neg, 4 + 16)
  else if q < 2 ^ (k.prec - 1) then
    if ftz && q != 0 then (k.signBit neg, 8 + 16) else (k.signBit neg + q, nx + uf)
  else (k.signBit neg + (at_ - k.least).toNat * 2 ^ (k.prec - 1) + q, nx + uf)

/-- Rounds an exact signed value x × 2^e; `zeroNeg` is the sign of an exact zero. -/
def FpFmt.roundInt (k : FpFmt) (rm : Nat) (ftz zeroNeg : Bool) (x e : Int) : FpRes :=
  if x = 0 then (k.signBit zeroNeg, 0) else k.round rm ftz (decide (x < 0)) x.natAbs e

/-- One of the operands is a signalling NaN. -/
def anySignalling (xs : List FpNum) : Bool := xs.any fun x => x == .nan true

/-- One of the operands is a NaN. -/
def FpNum.isNan : FpNum → Bool
  | .nan _ => true
  | _ => false

/-- The result of an operation with a NaN operand (R386). -/
def FpFmt.nanOf (k : FpFmt) (xs : List FpNum) : FpRes := (k.quiet, b2n (anySignalling xs))

/-- The signed significand. -/
def signed (neg : Bool) (m : Nat) : Int := if neg then -(m : Int) else m

/-- The sum of two finite values, exact, as an integer and an exponent. -/
def exactSum (x e y f : Int) : Int × Int :=
  let l := min e f
  (x * 2 ^ (e - l).toNat + y * 2 ^ (f - l).toNat, l)

/-- The sign of an exact zero sum (IEEE 754): that of both where they agree, else + except toward negative. -/
def zeroSumNeg (rm : Nat) (a b : Bool) : Bool := if a = b then a else rm == 4

/-- a + b. -/
def FpFmt.add (k : FpFmt) (rm : Nat) (ftz : Bool) (a b : FpNum) : FpRes :=
  if a.isNan || b.isNan then k.nanOf [a, b]
  else match a, b with
    | .inf p, .inf q => if p = q then (k.infinity p, 0) else k.invalid
    | .inf p, _ => (k.infinity p, 0)
    | _, .inf q => (k.infinity q, 0)
    | .fin p m e, .fin q n f =>
      let (x, l) := exactSum (signed p m) e (signed q n) f
      k.roundInt rm ftz (zeroSumNeg rm p q) x l
    | _, _ => k.invalid

/-- The operand with its sign inverted. -/
def FpNum.neg : FpNum → FpNum
  | .fin p m e => .fin (!p) m e
  | .inf p => .inf (!p)
  | .nan s => .nan s

/-- a × b. -/
def FpFmt.mul (k : FpFmt) (rm : Nat) (ftz : Bool) (a b : FpNum) : FpRes :=
  if a.isNan || b.isNan then k.nanOf [a, b]
  else match a, b with
    | .inf p, .inf q => (k.infinity (p != q), 0)
    | .inf p, .fin q n _ => if n = 0 then k.invalid else (k.infinity (p != q), 0)
    | .fin p m _, .inf q => if m = 0 then k.invalid else (k.infinity (p != q), 0)
    | .fin p m e, .fin q n f => k.roundInt rm ftz (p != q) (signed (p != q) (m * n)) (e + f)
    | _, _ => k.invalid

/-- a / b. -/
def FpFmt.div (k : FpFmt) (rm : Nat) (ftz : Bool) (a b : FpNum) : FpRes :=
  if a.isNan || b.isNan then k.nanOf [a, b]
  else match a, b with
    | .inf _, .inf _ => k.invalid
    | .inf p, .fin q _ _ => (k.infinity (p != q), 0)
    | .fin p _ _, .inf q => (k.signBit (p != q), 0)
    | .fin p m e, .fin q n f =>
      if n = 0 then (if m = 0 then k.invalid else (k.infinity (p != q), 2))
      else if m = 0 then (k.signBit (p != q), 0)
      else
        let sh := k.prec + 3 + bitLen n
        let v := m <<< sh
        k.round rm ftz (p != q) (2 * (v / n) + b2n (v % n != 0)) (e - f - sh - 1)
    | _, _ => k.invalid

/-- The integer part of the square root of a number below 4^n, bit by bit. -/
def isqrt (v : Nat) : Nat → Nat
  | 0 => 0
  | n + 1 =>
    let r := 2 * isqrt (v / 4) n
    if (r + 1) * (r + 1) ≤ v then r + 1 else r

/-- √a. -/
def FpFmt.sqrt (k : FpFmt) (rm : Nat) (ftz : Bool) (a : FpNum) : FpRes :=
  match a with
  | .nan _ => k.nanOf [a]
  | .inf p => if p then k.invalid else (k.infinity false, 0)
  | .fin p m e =>
    if m = 0 then (k.signBit p, 0)
    else if p then k.invalid
    else
      let sh := 2 * k.prec + 6 + (if (e - 2 * k.prec - 6) % 2 = 0 then 0 else 1)
      let v := m <<< sh
      let r := isqrt v (bitLen v)
      k.round rm ftz false (2 * r + b2n (r * r != v)) ((e - sh) / 2 - 1)

/-- (a × b) + c with one rounding; ∞ × 0 is invalid whatever c holds (R386). -/
def FpFmt.fma (k : FpFmt) (rm : Nat) (ftz : Bool) (a b c : FpNum) : FpRes :=
  let zeroInf : Bool := match a, b with
    | .inf _, .fin _ n _ => n == 0
    | .fin _ m _, .inf _ => m == 0
    | _, _ => false
  if zeroInf then k.invalid
  else if a.isNan || b.isNan || c.isNan then k.nanOf [a, b, c]
  else
    let prod : Option (Bool × Option (Nat × Int)) := match a, b with
      | .fin p m e, .fin q n f => some (p != q, some (m * n, e + f))
      | .fin p _ _, .inf q => some (p != q, none)
      | .inf p, .fin q _ _ => some (p != q, none)
      | .inf p, .inf q => some (p != q, none)
      | _, _ => none
    match prod, c with
    | some (p, none), .inf q => if p = q then (k.infinity p, 0) else k.invalid
    | some (p, none), _ => (k.infinity p, 0)
    | some _, .inf q => (k.infinity q, 0)
    | some (p, some (m, e)), .fin q n f =>
      let (x, l) := exactSum (signed p m) e (signed q n) f
      k.roundInt rm ftz (zeroSumNeg rm p q) x l
    | _, _ => k.invalid

/-- a < b of two values that are not NaN; the zeros are equal. -/
def FpNum.lt (a b : FpNum) : Bool :=
  match a, b with
  | .inf p, .inf q => p && !q
  | .inf p, _ => p
  | _, .inf q => !q
  | .fin p m e, .fin q n f => let l := min e f
    decide (signed p m * 2 ^ (e - l).toNat < signed q n * 2 ^ (f - l).toNat)
  | _, _ => false

/-- A comparison: equal (0), less (1), less or equal (2); quiet for equality only (R385). -/
def fpCompare (op : Nat) (a b : FpNum) : FpRes :=
  if a.isNan || b.isNan then (0, b2n (op != 0 || anySignalling [a, b]))
  else
    let eq := !(a.lt b) && !(b.lt a)
    (b2n (match op with
      | 0 => eq
      | 1 => a.lt b
      | _ => a.lt b || eq), 0)

/-- The pattern of an operand after ftz. -/
def FpFmt.flushed (k : FpFmt) (ftz : Bool) (v : Nat) : Nat := if ftz && k.subnormal v then k.signBit (k.sign v) else v

/-- FMIN and FMAX (R387): −0 stands below +0. -/
def FpFmt.minMax (k : FpFmt) (ftz maxi : Bool) (va vb : Nat) : FpRes :=
  let a := k.operand ftz va
  let b := k.operand ftz vb
  let ra := k.flushed ftz va
  let rb := k.flushed ftz vb
  if anySignalling [a, b] then k.invalid
  else if a.isNan && b.isNan then (k.quiet, 0)
  else if a.isNan then (rb, 0)
  else if b.isNan then (ra, 0)
  else
    let below : Bool := a.lt b || (!(b.lt a) && k.sign va && !k.sign vb)
    (if below != maxi then ra else rb, 0)

/-- FCLASS (R385): the bit of the class of a pattern; with `ftz` a subnormal counts as a zero of its sign (R387). -/
def FpFmt.classOf (k : FpFmt) (ftz : Bool) (v : Nat) : Nat :=
  match k.decode v with
  | .nan s => if s then 0 else 1
  | .inf p => if p then 2 else 9
  | .fin p m _ =>
    if m = 0 ∨ (ftz ∧ k.subnormal v) then (if p then 5 else 6)
    else if k.subnormal v then (if p then 4 else 7)
    else if p then 3 else 8

/-- FCVTW and FCVTWU (R387): the 32-bit word. -/
def fpToInt (rm : Nat) (unsigned : Bool) (a : FpNum) : FpRes :=
  let hi : Int := if unsigned then 0xFFFFFFFF else 0x7FFFFFFF
  let lo : Int := if unsigned then 0 else -0x80000000
  match a with
  | .nan _ => (ofInt 32 hi, 1)
  | .inf p => (ofInt 32 (if p then lo else hi), 1)
  | .fin p m e =>
    let (q, exact) := roundAt rm p m e 0
    let x := signed p q
    if hi < x then (ofInt 32 hi, 1)
    else if x < lo then (ofInt 32 lo, 1)
    else (ofInt 32 x, if exact then 0 else 16)

/-- FCVTFW and FCVTFWU: from a 32-bit word. -/
def FpFmt.ofWord (k : FpFmt) (rm : Nat) (ftz unsigned : Bool) (v : Nat) : FpRes :=
  k.roundInt rm ftz false (if unsigned then ((v % 2 ^ 32 : Nat) : Int) else toInt 32 v) 0

/-- FCVTP: from the other precision. -/
def FpFmt.convert (k : FpFmt) (rm : Nat) (ftz : Bool) (a : FpNum) : FpRes :=
  match a with
  | .nan _ => k.nanOf [a]
  | .inf p => (k.infinity p, 0)
  | .fin p m e => if m = 0 then (k.signBit p, 0) else k.round rm ftz p m e

end Sys2Proof.Machine
end

