-- ==== Sys2Proof/Machine/CoreFp.lean ====
section
/-! DEFINITION. The FP instructions (R383 to R389) and the merge of their flags. -/

namespace Sys2Proof.Machine

/-- The rounding mode of an instruction: its own, or CC_FCSR.rm; none where that is illegal (R384). -/
def Th.rounding (h : Th) (rm : Nat) : Option Nat :=
  if rm ≠ 0 then some rm else if 1 ≤ h.rm ∧ h.rm ≤ 5 then some h.rm else none

/-- The pattern of an FP register in a precision (R383). -/
def Th.fval (h : Th) (dbl : Bool) (r : Nat) : Nat := if dbl then h.freg r else h.freg r % 2 ^ 32

/-- An operand of an FP register (R387). -/
def Th.fnum (h : Th) (dbl : Bool) (r : Nat) : FpNum := (fmtOf dbl).operand h.ftz (h.fval dbl r)

/-- Writes an FP result in a precision (R383). -/
def Th.setFval (h : Th) (dbl : Bool) (r v : Nat) : Th :=
  h.setFreg r (if dbl then v else 0xFFFFFFFF00000000 + v % 2 ^ 32)

/-- The end of an FP instruction: its flags merge at FP_COMPLETE (R388). -/
def State.fpEnd (s : State) (id flags : Nat) (f : Th → Th) : Res :=
  let h := s.th id
  .acted (s.retire id (h.pc + 4) fun t =>
    { f t with fpOps := t.fpOps ++ [{ pc := h.pc, flags, inTrap := h.inTrap }] })

/-- An FP-group instruction that rounds: `f` is given the rounding mode and the thread (R384, R385). -/
def State.fpRound (s : State) (u : Issue) (op : Nat) (rd ra rb : Fin 32) (rm : Fin 8) (dbl : Bool)
    (f : Nat → Th → FpRes) (put : Th → Nat → Th) : State :=
  let enc := encR 0x03 rd.val ra.val rb.val (fpFunc rm.val (b2n dbl) op)
  s.issue u enc fun s =>
    let h := s.th (thr u)
    match h.rounding rm.val with
    | none => .trap 3 enc
    | some m => let r := f m h
      s.fpEnd (thr u) r.2 fun t => put t r.1

/-- An FP-group instruction that does not round, rm = 0 (R384, R385). -/
def State.fpQuiet (s : State) (u : Issue) (op : Nat) (rd ra rb : Fin 32) (dbl : Bool)
    (f : Th → FpRes) (put : Th → Nat → Th) : State :=
  s.issue u (encR 0x03 rd.val ra.val rb.val (fpFunc 0 (b2n dbl) op)) fun s =>
    let r := f (s.th (thr u))
    s.fpEnd (thr u) r.2 fun t => put t r.1

/-- An F-format instruction: the product and fc take signs (R385). -/
def State.fpFused (s : State) (u : Issue) (op : Nat) (fd fa fb fc : Fin 32) (rm : Fin 8) (dbl negProd negC : Bool) : State :=
  let enc := encF op fd.val fa.val fb.val fc.val rm.val (b2n dbl)
  s.issue u enc fun s =>
    let h := s.th (thr u)
    match h.rounding rm.val with
    | none => .trap 3 enc
    | some m =>
      let sign (n : Bool) (x : FpNum) : FpNum := if n then x.neg else x
      let r := (fmtOf dbl).fma m h.ftz (sign negProd (h.fnum dbl fa.val)) (h.fnum dbl fb.val) (sign negC (h.fnum dbl fc.val))
      s.fpEnd (thr u) r.2 fun t => t.setFval dbl fd.val r.1

/-- FADD: fa + fb (R385). -/
def execFadd (u : Issue) (fd fa fb : Fin 32) (rm : Fin 8) (dbl : Bool) (s : State) : Host.Outcome State Fault Refusal :=
  .next (s.fpRound u 0x00 fd fa fb rm dbl (fun m h => (fmtOf dbl).add m h.ftz (h.fnum dbl fa.val) (h.fnum dbl fb.val))
    fun t v => t.setFval dbl fd.val v)

/-- FSUB: fa − fb (R385). -/
def execFsub (u : Issue) (fd fa fb : Fin 32) (rm : Fin 8) (dbl : Bool) (s : State) : Host.Outcome State Fault Refusal :=
  .next (s.fpRound u 0x01 fd fa fb rm dbl (fun m h => (fmtOf dbl).add m h.ftz (h.fnum dbl fa.val) (h.fnum dbl fb.val).neg)
    fun t v => t.setFval dbl fd.val v)

/-- FMUL: fa × fb (R385). -/
def execFmul (u : Issue) (fd fa fb : Fin 32) (rm : Fin 8) (dbl : Bool) (s : State) : Host.Outcome State Fault Refusal :=
  .next (s.fpRound u 0x02 fd fa fb rm dbl (fun m h => (fmtOf dbl).mul m h.ftz (h.fnum dbl fa.val) (h.fnum dbl fb.val))
    fun t v => t.setFval dbl fd.val v)

/-- FDIV: fa / fb (R385). -/
def execFdiv (u : Issue) (fd fa fb : Fin 32) (rm : Fin 8) (dbl : Bool) (s : State) : Host.Outcome State Fault Refusal :=
  .next (s.fpRound u 0x03 fd fa fb rm dbl (fun m h => (fmtOf dbl).div m h.ftz (h.fnum dbl fa.val) (h.fnum dbl fb.val))
    fun t v => t.setFval dbl fd.val v)

/-- FSQRT: √fa (R385). -/
def execFsqrt (u : Issue) (fd fa : Fin 32) (rm : Fin 8) (dbl : Bool) (s : State) : Host.Outcome State Fault Refusal :=
  .next (s.fpRound u 0x04 fd fa 0 rm dbl (fun m h => (fmtOf dbl).sqrt m h.ftz (h.fnum dbl fa.val))
    fun t v => t.setFval dbl fd.val v)

/-- FMIN: by R387. -/
def execFmin (u : Issue) (fd fa fb : Fin 32) (dbl : Bool) (s : State) : Host.Outcome State Fault Refusal :=
  .next (s.fpQuiet u 0x05 fd fa fb dbl (fun h => (fmtOf dbl).minMax h.ftz false (h.fval dbl fa.val) (h.fval dbl fb.val))
    fun t v => t.setFval dbl fd.val v)

/-- FMAX: by R387. -/
def execFmax (u : Issue) (fd fa fb : Fin 32) (dbl : Bool) (s : State) : Host.Outcome State Fault Refusal :=
  .next (s.fpQuiet u 0x06 fd fa fb dbl (fun h => (fmtOf dbl).minMax h.ftz true (h.fval dbl fa.val) (h.fval dbl fb.val))
    fun t v => t.setFval dbl fd.val v)

/-- FEQ: 1 when fa = fb, quiet (R385). -/
def execFeq (u : Issue) (rd fa fb : Fin 32) (dbl : Bool) (s : State) : Host.Outcome State Fault Refusal :=
  .next (s.fpQuiet u 0x08 rd fa fb dbl (fun h => fpCompare 0 (h.fnum dbl fa.val) (h.fnum dbl fb.val))
    fun t v => t.setReg rd.val v)

/-- FLT: 1 when fa < fb, signalling (R385). -/
def execFlt (u : Issue) (rd fa fb : Fin 32) (dbl : Bool) (s : State) : Host.Outcome State Fault Refusal :=
  .next (s.fpQuiet u 0x09 rd fa fb dbl (fun h => fpCompare 1 (h.fnum dbl fa.val) (h.fnum dbl fb.val))
    fun t v => t.setReg rd.val v)

/-- FLE: 1 when fa ≤ fb, signalling (R385). -/
def execFle (u : Issue) (rd fa fb : Fin 32) (dbl : Bool) (s : State) : Host.Outcome State Fault Refusal :=
  .next (s.fpQuiet u 0x0A rd fa fb dbl (fun h => fpCompare 2 (h.fnum dbl fa.val) (h.fnum dbl fb.val))
    fun t v => t.setReg rd.val v)

/-- FCLASS: one class bit (R385). -/
def execFclass (u : Issue) (rd fa : Fin 32) (dbl : Bool) (s : State) : Host.Outcome State Fault Refusal :=
  .next (s.fpQuiet u 0x0B rd fa 0 dbl (fun h => (2 ^ (fmtOf dbl).classOf h.ftz (h.fval dbl fa.val), 0))
    fun t v => t.setReg rd.val v)

/-- FCVTW: to an integer (R385, R387). -/
def execFcvtw (u : Issue) (rd fa : Fin 32) (rm : Fin 8) (dbl : Bool) (s : State) : Host.Outcome State Fault Refusal :=
  .next (s.fpRound u 0x10 rd fa 0 rm dbl (fun m h => fpToInt m false (h.fnum dbl fa.val))
    fun t v => t.setReg rd.val v)

/-- FCVTWU: to an integer (R385, R387). -/
def execFcvtwu (u : Issue) (rd fa : Fin 32) (rm : Fin 8) (dbl : Bool) (s : State) : Host.Outcome State Fault Refusal :=
  .next (s.fpRound u 0x11 rd fa 0 rm dbl (fun m h => fpToInt m true (h.fnum dbl fa.val))
    fun t v => t.setReg rd.val v)

/-- FCVTFW: from an integer (R385). -/
def execFcvtfw (u : Issue) (fd ra : Fin 32) (rm : Fin 8) (dbl : Bool) (s : State) : Host.Outcome State Fault Refusal :=
  .next (s.fpRound u 0x12 fd ra 0 rm dbl (fun m h => (fmtOf dbl).ofWord m h.ftz false (h.reg ra.val))
    fun t v => t.setFval dbl fd.val v)

/-- FCVTFWU: from an integer (R385). -/
def execFcvtfwu (u : Issue) (fd ra : Fin 32) (rm : Fin 8) (dbl : Bool) (s : State) : Host.Outcome State Fault Refusal :=
  .next (s.fpRound u 0x13 fd ra 0 rm dbl (fun m h => (fmtOf dbl).ofWord m h.ftz true (h.reg ra.val))
    fun t v => t.setFval dbl fd.val v)

/-- FCVTP: from the other precision (R385). -/
def execFcvtp (u : Issue) (fd fa : Fin 32) (rm : Fin 8) (dbl : Bool) (s : State) : Host.Outcome State Fault Refusal :=
  .next (s.fpRound u 0x14 fd fa 0 rm dbl (fun m h => (fmtOf dbl).convert m h.ftz (h.fnum (!dbl) fa.val))
    fun t v => t.setFval dbl fd.val v)

/-- FMVTOI: half of an FP register (R385). -/
def execFmvtoi (u : Issue) (rd fa : Fin 32) (high : Bool) (s : State) : Host.Outcome State Fault Refusal :=
  .next (s.fpQuiet u 0x18 rd fa 0 high (fun h => (if high then h.freg fa.val / 2 ^ 32 else h.freg fa.val % 2 ^ 32, 0))
    fun t v => t.setReg rd.val v)

/-- FMVFROMI: into half of an FP register (R385). -/
def execFmvfromi (u : Issue) (fd ra : Fin 32) (high : Bool) (s : State) : Host.Outcome State Fault Refusal :=
  .next (s.fpQuiet u 0x19 fd ra 0 high (fun h => (h.reg ra.val, 0))
    fun t v => t.setFreg fd.val (if high then v * 2 ^ 32 + t.freg fd.val % 2 ^ 32 else 0xFFFFFFFF00000000 + v))

/-- FNEG: the sign inverted (R385, R386). -/
def execFneg (u : Issue) (fd fa : Fin 32) (dbl : Bool) (s : State) : Host.Outcome State Fault Refusal :=
  .next (s.fpQuiet u 0x1A fd fa 0 dbl (fun h => (h.fval dbl fa.val ^^^ (fmtOf dbl).signBit true, 0))
    fun t v => t.setFval dbl fd.val v)

/-- FABS: the sign cleared (R385, R386). -/
def execFabs (u : Issue) (fd fa : Fin 32) (dbl : Bool) (s : State) : Host.Outcome State Fault Refusal :=
  .next (s.fpQuiet u 0x1B fd fa 0 dbl (fun h => (h.fval dbl fa.val % 2 ^ ((fmtOf dbl).width - 1), 0))
    fun t v => t.setFval dbl fd.val v)

/-- FCOPYSIGN: magnitude of fa, sign of fb (R385, R386). -/
def execFcopysign (u : Issue) (fd fa fb : Fin 32) (dbl : Bool) (s : State) : Host.Outcome State Fault Refusal :=
  .next (s.fpQuiet u 0x1C fd fa fb dbl (fun h =>
      (h.fval dbl fa.val % 2 ^ ((fmtOf dbl).width - 1) + (fmtOf dbl).signBit ((fmtOf dbl).sign (h.fval dbl fb.val)), 0))
    fun t v => t.setFval dbl fd.val v)

/-- FMADD: (fa × fb) + fc with one rounding (R385). -/
def execFmadd (u : Issue) (fd fa fb fc : Fin 32) (rm : Fin 8) (dbl : Bool) (s : State) : Host.Outcome State Fault Refusal :=
  .next (s.fpFused u 0x04 fd fa fb fc rm dbl false false)

/-- FMSUB: (fa × fb) − fc with one rounding (R385). -/
def execFmsub (u : Issue) (fd fa fb fc : Fin 32) (rm : Fin 8) (dbl : Bool) (s : State) : Host.Outcome State Fault Refusal :=
  .next (s.fpFused u 0x05 fd fa fb fc rm dbl false true)

/-- FNMADD: −(fa × fb) − fc with one rounding (R385). -/
def execFnmadd (u : Issue) (fd fa fb fc : Fin 32) (rm : Fin 8) (dbl : Bool) (s : State) : Host.Outcome State Fault Refusal :=
  .next (s.fpFused u 0x06 fd fa fb fc rm dbl true true)

/-- FNMSUB: −(fa × fb) + fc with one rounding (R385). -/
def execFnmsub (u : Issue) (fd fa fb fc : Fin 32) (rm : Fin 8) (dbl : Bool) (s : State) : Host.Outcome State Fault Refusal :=
  .next (s.fpFused u 0x07 fd fa fb fc rm dbl true false)

/-- FP_COMPLETE: the flags of one FP instruction of a thread merge (R388). -/
def execFpComplete (core : Fin 5) (thread : Fin 4) (k : Nat) (s : State) : Host.Outcome State Fault Refusal :=
  .next (s.fpComplete (4 * core.val + thread.val) k)

end Sys2Proof.Machine
end

