-- ==== Sys2Proof/Machine/CoreMemory.lean ====
section
/-! DEFINITION. The loads, stores and atomics of the cores (R369 to R376, R383). -/

namespace Sys2Proof.Machine

/-- The address of a load or store: ra + the signed immediate (R369). -/
def Th.dataAddr (h : Th) (ra : Fin 32) (imm : BitVec 16) : Nat := (h.reg ra.val + sext 16 32 imm.toNat) % 2 ^ 32

/-- A load of `n` bytes into an integer register (R369). -/
def State.loadOp (s : State) (u : Issue) (op : Nat) (rd ra : Fin 32) (imm : BitVec 16) (n : Nat) (sgn : Bool) : State :=
  s.issue u (encI op rd.val ra.val imm.toNat) fun s =>
    s.accesses u (.word rd.val n sgn) [.load ((s.th (thr u)).dataAddr ra imm) n]

/-- A store of the low `n` bytes of rs (R369). -/
def State.storeOp (s : State) (u : Issue) (op : Nat) (rs ra : Fin 32) (imm : BitVec 16) (n : Nat) : State :=
  s.issue u (encI op rs.val ra.val imm.toNat) fun s =>
    let h := s.th (thr u)
    s.accesses u .nothing [.store (h.dataAddr ra imm) n (h.reg rs.val % 256 ^ n)]

/-- A load of 8 bytes, into a register pair or an FP register (R371, R383). -/
def State.wideLoad (s : State) (u : Issue) (op : Nat) (rd ra : Fin 32) (imm : BitVec 16) (after : After) : State :=
  s.issue u (encI op rd.val ra.val imm.toNat) fun s =>
    s.accesses u after (wide (fun a n _ => .load a n) ((s.th (thr u)).dataAddr ra imm) 0)

/-- A store of 8 bytes (R371, R383). -/
def State.wideStore (s : State) (u : Issue) (op : Nat) (rs ra : Fin 32) (imm : BitVec 16) (v : Th → Nat) : State :=
  s.issue u (encI op rs.val ra.val imm.toNat) fun s =>
    let h := s.th (thr u)
    s.accesses u .wideStore (wide (fun a n v => .store a n v) (h.dataAddr ra imm) (v h))

/-- An AMO: it issues only after every earlier access of the thread has completed (R372). -/
def State.amoOp (s : State) (u : Issue) (swap : Bool) (rd ra rb : Fin 32) : State :=
  s.issue u (encR 0x1E rd.val ra.val rb.val (b2n swap)) fun s =>
    let h := s.th (thr u)
    if ¬ s.settled (thr u) then .held
    else s.accesses u (.word rd.val 4 false) [.amo (h.reg ra.val) swap (h.reg rb.val)]

/-- LB (R369, R370). -/
def execLb (u : Issue) (rd ra : Fin 32) (imm : BitVec 16) (s : State) : Host.Outcome State Fault Refusal :=
  .next (s.loadOp u 0x10 rd ra imm 1 true)

/-- LBU (R369, R370). -/
def execLbu (u : Issue) (rd ra : Fin 32) (imm : BitVec 16) (s : State) : Host.Outcome State Fault Refusal :=
  .next (s.loadOp u 0x11 rd ra imm 1 false)

/-- LH (R369, R370). -/
def execLh (u : Issue) (rd ra : Fin 32) (imm : BitVec 16) (s : State) : Host.Outcome State Fault Refusal :=
  .next (s.loadOp u 0x12 rd ra imm 2 true)

/-- LHU (R369, R370). -/
def execLhu (u : Issue) (rd ra : Fin 32) (imm : BitVec 16) (s : State) : Host.Outcome State Fault Refusal :=
  .next (s.loadOp u 0x13 rd ra imm 2 false)

/-- LW (R369, R370). -/
def execLw (u : Issue) (rd ra : Fin 32) (imm : BitVec 16) (s : State) : Host.Outcome State Fault Refusal :=
  .next (s.loadOp u 0x14 rd ra imm 4 false)

/-- SB (R369, R370, R373). -/
def execSb (u : Issue) (rs ra : Fin 32) (imm : BitVec 16) (s : State) : Host.Outcome State Fault Refusal :=
  .next (s.storeOp u 0x18 rs ra imm 1)

/-- SH (R369, R370, R373). -/
def execSh (u : Issue) (rs ra : Fin 32) (imm : BitVec 16) (s : State) : Host.Outcome State Fault Refusal :=
  .next (s.storeOp u 0x19 rs ra imm 2)

/-- SW (R369, R370, R373). -/
def execSw (u : Issue) (rs ra : Fin 32) (imm : BitVec 16) (s : State) : Host.Outcome State Fault Refusal :=
  .next (s.storeOp u 0x1A rs ra imm 4)

/-- LDP: the pair rd, rd + 1 (R371). -/
def execLdp (u : Issue) (rd ra : Fin 32) (imm : BitVec 16) (s : State) : Host.Outcome State Fault Refusal :=
  .next (s.wideLoad u 0x15 rd ra imm (.pair rd.val))

/-- STP: rs is the low word, rs + 1 the high one (R371). -/
def execStp (u : Issue) (rs ra : Fin 32) (imm : BitVec 16) (s : State) : Host.Outcome State Fault Refusal :=
  .next (s.wideStore u 0x1B rs ra imm fun h => h.reg rs.val + 2 ^ 32 * h.reg (rs.val + 1))

/-- FLW: bits [31:0] of fd, bits [63:32] all ones (R383). -/
def execFlw (u : Issue) (fd ra : Fin 32) (imm : BitVec 16) (s : State) : Host.Outcome State Fault Refusal :=
  .next (s.issue u (encI 0x16 fd.val ra.val imm.toNat) fun s =>
    s.accesses u (.fp fd.val false) [.load ((s.th (thr u)).dataAddr ra imm) 4])

/-- FLD: all 64 bits (R383). -/
def execFld (u : Issue) (fd ra : Fin 32) (imm : BitVec 16) (s : State) : Host.Outcome State Fault Refusal :=
  .next (s.wideLoad u 0x17 fd ra imm (.fp fd.val true))

/-- FSW: bits [31:0] (R383). -/
def execFsw (u : Issue) (fs ra : Fin 32) (imm : BitVec 16) (s : State) : Host.Outcome State Fault Refusal :=
  .next (s.issue u (encI 0x1C fs.val ra.val imm.toNat) fun s =>
    let h := s.th (thr u)
    s.accesses u .nothing [.store (h.dataAddr ra imm) 4 (h.freg fs.val % 2 ^ 32)])

/-- FSD: all 64 bits (R383). -/
def execFsd (u : Issue) (fs ra : Fin 32) (imm : BitVec 16) (s : State) : Host.Outcome State Fault Refusal :=
  .next (s.wideStore u 0x1D fs ra imm fun h => h.freg fs.val)

/-- AMOADD (R372). -/
def execAmoadd (u : Issue) (rd ra rb : Fin 32) (s : State) : Host.Outcome State Fault Refusal :=
  .next (s.amoOp u false rd ra rb)

/-- AMOSWAP (R372). -/
def execAmoswap (u : Issue) (rd ra rb : Fin 32) (s : State) : Host.Outcome State Fault Refusal :=
  .next (s.amoOp u true rd ra rb)

end Sys2Proof.Machine
end

