-- ==== Sys2Proof/Machine/CoreThreads.lean ====
section
/-! DEFINITION. The threads: start, stop, events, timers, imprecise traps and the Blackout detector (R396 to R421). -/

namespace Sys2Proof.Machine

/-- IMPRECISE_TRAP: a pending imprecise trap is delivered at the next instruction of its thread, when the scheduler picks it (R389, R399, R409 to R411). -/
def execImpreciseTrap (core : Fin 5) (thread : Fin 4) (late : Fin 16) (s : State) : Host.Outcome State Fault Refusal :=
  .next (if s.thrCanIssue (4 * core.val + thread.val) late.val then (s.deliverEvent (4 * core.val + thread.val)).getD s else s.deliverWaiting (4 * core.val + thread.val))

/-- THREAD_START: a write of 1 to CPU_THR_CMD.start (R397). -/
def execThreadStart (core : Fin 5) (thread : Fin 4) (s : State) : Host.Outcome State Fault Refusal :=
  .next (s.writeThrCmd (4 * core.val + thread.val) 1 1)

/-- THREAD_STOP: a write of 1 to CPU_THR_CMD.stop (R398). -/
def execThreadStop (core : Fin 5) (thread : Fin 4) (s : State) : Host.Outcome State Fault Refusal :=
  .next (s.writeThrCmd (4 * core.val + thread.val) 2 2)

/-- THREAD_WAKE: a thread in WAIT takes the pending events of its mask (R404). -/
def execThreadWake (core : Fin 5) (thread : Fin 4) (s : State) : Host.Outcome State Fault Refusal :=
  .next (s.wakeThread (4 * core.val + thread.val))

/-- THREAD_EVENTS_WRITE: a write to CPU_THR_EVENTS lands (R403). -/
def execThreadEventsWrite (core : Fin 5) (thread : Fin 4) (events : BitVec 16) (s : State) : Host.Outcome State Fault Refusal :=
  .next (s.softEvents (4 * core.val + thread.val) events.toNat)

/-- THREAD_TIMER_START: a write of 1 to CPU_THR_TMR_STAT.start (R405). -/
def execThreadTimerStart (core : Fin 5) (thread : Fin 4) (s : State) : Host.Outcome State Fault Refusal :=
  .next (if isThread (4 * core.val + thread.val) then s.timerStart (4 * core.val + thread.val) else s)

/-- THREAD_TIMER_STOP: a write of 1 to CPU_THR_TMR_STAT.stop (R405). -/
def execThreadTimerStop (core : Fin 5) (thread : Fin 4) (s : State) : Host.Outcome State Fault Refusal :=
  .next (if isThread (4 * core.val + thread.val) then s.timerStop (4 * core.val + thread.val) else s)

/-- THREAD_TIMER_EXPIRY: a tick takes the count of a running timer from 1 to 0 (R405). -/
def execThreadTimerExpiry (core : Fin 5) (thread : Fin 4) (s : State) : Host.Outcome State Fault Refusal :=
  .next (if isThread (4 * core.val + thread.val) then s.thrTimerExpiry (4 * core.val + thread.val) else s)

/-- STARVATION_ISSUE: a ready thread that has not issued for starve × 16 cycles issues next (R401). -/
def execStarvationIssue (core : Fin 4) (thread : Fin 4) (s : State) : Host.Outcome State Fault Refusal :=
  .next (s.starved (4 * core.val + thread.val))

/-- BLACKOUT: the detector finds a Blackout (R419 to R421). -/
def execBlackout (s : State) : Host.Outcome State Fault Refusal :=
  .next (s.blackoutFires)

end Sys2Proof.Machine
end

