-- ==== Sys2Proof/Machine/Array.lean ====
section
/-! DEFINITION. PE memory, neighbour reads and the array operation (R123, R124, R148 to R155). -/

namespace Sys2Proof.Machine

/-- The number of PEs. -/
def pes : Nat := 131072

/-- Every PE. -/
def allPes : Nat := 2 ^ pes - 1

/-- One bit per row of `rows` rows: the lowest column of each (R148). -/
def rowOnes (rows : Nat) : Nat := (2 ^ (512 * rows) - 1) / (2 ^ 512 - 1)

/-- The PEs of island `i` (R148). -/
def islandMask (i : Nat) : Nat := (rowOnes 64 * (2 ^ 128 - 1)) <<< (512 * 64 * (i / 4) + 128 * (i % 4))

/-- An island's state code (R167): 0 OFF, 1 CLEARING, 2 QUARANTINE, 3 WARM, 4 SERVICE, 5 FAULT. -/
def State.islState (s : State) (i : Nat) : Nat := s.get ARR_ISL_STATUS.state i

/-- The PEs of the islands whose state satisfies `p`. -/
def State.pesWhere (s : State) (p : Nat → Bool) : Nat :=
  (List.range 16).foldl (fun m i => if p (s.islState i) then m ||| islandMask i else m) 0

/-- QUARANTINE, WARM or SERVICE: the island takes microwords (R167). -/
def executing (st : Nat) : Bool := 2 ≤ st && st ≤ 4

/-- WARM or SERVICE: intake, side port and halo are normal (R167). -/
def inUse (st : Nat) : Bool := st = 3 || st = 4

/-- SERVICE: outbound planes, hand-off, Beacon and Glint are normal (R167). -/
def inService (st : Nat) : Bool := st = 4

/-- The plane at a bit address, as the array and the side port see it (R123, R124). -/
def State.plane (s : State) (a : Nat) : Nat :=
  if a < 64 then
    match s.pri.visible with
    | some e => if a < e.planes ∨ a = 63 then Sparse.get 0 s.pri.inVisible a else 0
    | none => 0
  else if a < 0x80 then Sparse.get 0 s.pri.outVisible (a - 64)
  else if a < 0xF80 then Sparse.get 0 s.arr.mem a
  else 0

/-- The plane at a bit address as the side port sees it: below 0x40 the whole visible intake bank, in every slot (R123). -/
def State.portPlane (s : State) (a : Nat) : Nat := if a < 64 then Sparse.get 0 s.pri.inVisible a else s.plane a

/-- `new` where `mask` is 1, `old` elsewhere. -/
def mixBits (old new mask : Nat) : Nat := (old ^^^ (old &&& mask)) ||| (new &&& mask)

/-- Writes a plane at the PEs of `mask`; an address that R123 or R124 closes discards the write. -/
def State.setPlane (s : State) (a v mask : Nat) : State :=
  if a < 64 then
    match s.pri.visible with
    | some e =>
      if a < e.planes ∨ a = 63 then
        { s with pri := { s.pri with inVisible := Sparse.upd 0 s.pri.inVisible a fun o => mixBits o v mask } }
      else s
    | none => s
  else if a < 0x80 then
    { s with pri := { s.pri with outVisible := Sparse.upd 0 s.pri.outVisible (a - 64) fun o => mixBits o v mask } }
  else if a < 0xF80 then { s with arr := { s.arr with mem := Sparse.upd 0 s.arr.mem a fun o => mixBits o v mask } }
  else s

/-- A side-port write of a plane: below 0x40 into the visible intake bank, in every slot (R123). -/
def State.setPortPlane (s : State) (a v mask : Nat) : State :=
  if a < 64 then { s with pri := { s.pri with inVisible := Sparse.upd 0 s.pri.inVisible a fun o => mixBits o v mask } }
  else s.setPlane a v mask

/-- The plane is one of the save planes that belong to the sequencer (R221). -/
def State.savePlane (s : State) (a : Nat) : Bool :=
  match s.seq.bgSave with
  | some b => b ≤ a && a < b + 5
  | none => false

/-- A write by a program: a save plane discards it (R221). -/
def State.progPlane (s : State) (a v mask : Nat) : State :=
  if s.savePlane a then s.err SEQ_ERR.save_write else s.setPlane a v mask

/-- The source of operand B (R148): the PE itself or a neighbour. -/
inductive BSrc where
  | own | north | east | south | west
  deriving DecidableEq, Repr

/-- The number of a side (R155): N 0, E 1, S 2, W 3. -/
def BSrc.side : BSrc → Nat
  | .own | .north => 0
  | .east => 1
  | .south => 2
  | .west => 3

/-- The PEs at the edge of a side. -/
def edgePes : BSrc → Nat
  | .own => 0
  | .north => 2 ^ 512 - 1
  | .south => (2 ^ 512 - 1) <<< (255 * 512)
  | .west => rowOnes 256
  | .east => rowOnes 256 <<< 511

/-- Inside the array: each PE takes the bit of its neighbour on a side; the edge PEs take 0 (R153). -/
def shiftPlane (d : BSrc) (v : Nat) : Nat :=
  match d with
  | .own => v
  | .north => (v <<< 512) &&& allPes
  | .south => v >>> 512
  | .west => (v <<< 1) &&& (allPes ^^^ rowOnes 256)
  | .east => (v >>> 1) &&& (allPes ^^^ (rowOnes 256 <<< 511))

/-- The edge PEs take the bits of the opposite side (R154, Wrap). -/
def wrapPlane (d : BSrc) (v : Nat) : Nat :=
  match d with
  | .own => 0
  | .north => v >>> (255 * 512)
  | .south => (v <<< (255 * 512)) &&& allPes
  | .west => (v >>> 511) &&& rowOnes 256
  | .east => (v &&& rowOnes 256) <<< 511

/-- Places edge bits (512 for N and S, 256 for E and W) at the edge PEs of a side (R155). -/
def spreadEdge (d : BSrc) (e : Nat) : Nat :=
  match d with
  | .own => 0
  | .north => e % 2 ^ 512
  | .south => (e % 2 ^ 512) <<< (255 * 512)
  | .west => (List.range 256).foldl (fun m r => if e.testBit r then m ||| 2 ^ (512 * r) else m) 0
  | .east => (List.range 256).foldl (fun m r => if e.testBit r then m ||| 2 ^ (512 * r + 511) else m) 0

/-- The edge bits of a plane at a side, as R155 stores them. -/
def gatherEdge (d : BSrc) (v : Nat) : Nat :=
  match d with
  | .own => 0
  | .north => v % 2 ^ 512
  | .south => v >>> (255 * 512)
  | .west => bitSet 256 fun r => v.testBit (512 * r)
  | .east => bitSet 256 fun r => v.testBit (512 * r + 511)

/-- The edge mode of a side in force (R154, R156). -/
def State.edgeMode (s : State) (d : BSrc) : Nat :=
  match d with
  | .own => 0
  | _ => bits s.arr.edge (2 * d.side) 2

/-- The enabled entry of the edge halo store in force that names an address (R155). -/
def State.whaloEntry (s : State) (addr : Nat) : Option Nat :=
  (List.range 8).find? fun n => let w := Sparse.get 0 s.arr.whalo n; w.testBit 31 && w % 4096 == addr

/-- What the edge PEs of a side read, and whether a Worga read missed (R154, R155). -/
def State.edgeRead (s : State) (d : BSrc) (addr own live : Nat) : Nat × Bool :=
  let e := edgePes d
  match s.edgeMode d with
  | 1 => (wrapPlane d live, false)
  | 2 => (own &&& e, false)
  | 3 =>
    let fallback := if s.arr.edge.testBit 8 then own &&& e else 0
    match s.whaloEntry addr with
    | some n =>
      if (s.get ARR_WHALO_READY.ready).testBit (8 * d.side + n) then
        (spreadEdge d (Sparse.get 0 s.arr.halo (8 * d.side + n)), false)
      else (fallback, true)
    | none => (fallback, true)
  | _ => (0, false)

/-- The neighbour-operand read of every PE (R153 to R155). -/
def State.neighbour (s : State) (d : BSrc) (addr : Nat) : Nat × Bool :=
  let own := s.plane addr
  match d with
  | .own => (own, false)
  | _ =>
    let live := own &&& s.pesWhere inUse
    let (e, miss) := s.edgeRead d addr own live
    (shiftPlane d live ||| e, miss && (s.pesWhere executing &&& edgePes d) != 0)

/-- Third inputs (R148). -/
inductive KSrc where
  | c | f | x | y
  deriving DecidableEq, Repr

/-- Destinations of the result (R148). -/
inductive Dest where
  | none | mem | f | x | y | m
  deriving DecidableEq, Repr

/-- One array operation with its addresses computed (R148). -/
structure ArrayOp where
  aAddr : Nat
  bAddr : Nat
  bSrc : BSrc
  kSrc : KSrc
  ttR : Nat
  ttC : Nat
  dest : Dest
  wAddr : Nat
  carry : Bool
  all : Bool
  deriving DecidableEq, Repr

/-- The truth table `tt` applied to three planes: PE p gets bit 4a + 2b + k of the table (R149). -/
def lookup (tt a b k : Nat) : Nat :=
  let na := allPes ^^^ a
  let nb := allPes ^^^ b
  let nk := allPes ^^^ k
  (List.range 8).foldl (fun r i =>
    if tt.testBit i then
      r ||| ((if i.testBit 2 then a else na) &&& (if i.testBit 1 then b else nb) &&& (if i.testBit 0 then k else nk))
    else r) 0

/-- The value of operand B: an own or neighbour read, with its miss. -/
def State.operandB (s : State) (o : ArrayOp) : Nat × Bool := s.neighbour o.bSrc o.bAddr

/-- Every executing PE performs the operation with operand B given (R149). -/
def State.arrayOpWith (s : State) (o : ArrayOp) (b : Nat) : State :=
  let ex := s.pesWhere executing
  let a := s.plane o.aAddr
  let k := match o.kSrc with
    | .c => s.arr.c
    | .f => s.arr.f
    | .x => s.arr.x
    | .y => s.arr.y
  let r := lookup o.ttR a b k
  let en := if o.all then ex else s.arr.m &&& ex
  let c := if o.carry then mixBits s.arr.c (lookup o.ttC a b k) en else s.arr.c
  let s := match o.dest with
    | .none => s
    | .mem => s.progPlane o.wAddr r en
    | .f => { s with arr := { s.arr with f := mixBits s.arr.f r en } }
    | .x => { s with arr := { s.arr with x := mixBits s.arr.x r en } }
    | .y => { s with arr := { s.arr with y := mixBits s.arr.y r en } }
    | .m => { s with arr := { s.arr with m := mixBits s.arr.m r ex } }
  { s with arr := { s.arr with c := c } }

/-- A Worga read that used the fallback is reported and counted once for the microword (R155). -/
def State.whaloMiss (s : State) (miss : Bool) : State :=
  if miss then (s.err ARR_ERR.whalo_miss).inc ARR_WHALO_MISS_CNT.count else s

/-- Every executing PE performs one array operation (R149, R150). -/
def State.arrayOp (s : State) (o : ArrayOp) : State :=
  let (b, miss) := s.operandB o
  (s.arrayOpWith o b).whaloMiss miss

/-! ### What an island out of service does not take (R14, R157, R159) -/

/-- OFF, CLEARING, FAULT: the island takes no microwords and no halo entries (R159, R167). -/
def offered (st : Nat) : Bool := !executing st

/-- The island on a side of island `i`, across a wrap border where that side wraps (R148, R154). -/
def State.neighbourIsl (s : State) (d : BSrc) (i : Nat) : Option Nat :=
  let wraps : Bool := s.edgeMode d == 1
  match d with
  | .own => none
  | .north => if 4 ≤ i then some (i - 4) else if wraps then some (i + 12) else none
  | .south => if i < 12 then some (i + 4) else if wraps then some (i - 12) else none
  | .west => if i % 4 ≠ 0 then some (i - 1) else if wraps then some (i + 3) else none
  | .east => if i % 4 ≠ 3 then some (i + 1) else if wraps then some (i - 3) else none

/-- `n` microwords are offered to every island: one out of service drains, discards and counts them (R14). -/
def State.offerWords (s : State) (n : Nat) : State :=
  (List.range 16).foldl (fun s i => if offered (s.islState i) then s.add ARR_ISL_DISCARD_CNT.count n i else s) s

/-- `n` halo entries are offered along a direction: an island out of service drains, discards and counts those that an executing
neighbour pushes (R14, R157). -/
def State.offerHalo (s : State) (d : BSrc) (n : Nat) : State :=
  (List.range 16).foldl (fun s i =>
    match s.neighbourIsl d i with
    | some j => if offered (s.islState i) ∧ executing (s.islState j) then s.add ARR_ISL_DISCARD_CNT.count n i else s
    | none => s) s

/-- Clears an island's memory, every bank and window included, and sets its registers (R152, R169). -/
def State.clearIsland (s : State) (i : Nat) : State :=
  let keep (v : Nat) := v ^^^ (v &&& islandMask i)
  let wipe (t : Sparse Nat) : Sparse Nat := (t.map fun e => (e.1, keep e.2)).filter fun e => e.2 != 0
  { s with
    arr := { s.arr with mem := wipe s.arr.mem, c := keep s.arr.c, f := keep s.arr.f, x := keep s.arr.x, y := keep s.arr.y,
                        m := s.arr.m ||| islandMask i }
    pri := { s.pri with inVisible := wipe s.pri.inVisible, inHidden := wipe s.pri.inHidden,
                        outVisible := wipe s.pri.outVisible, outHidden := wipe s.pri.outHidden } }

end Sys2Proof.Machine
end

