-- ==== Sys2Proof/Machine/Microword.lean ====
section
/-! DEFINITION. The microword's fields, the library's entry points and the checks on one microword (R179 to R199,
R645). A microword is a 192-bit number. -/

namespace Sys2Proof.Machine

def mwAImm (w : Nat) : Nat := bits w 0 12
def mwABase (w : Nat) : Nat := bits w 12 3
def mwAIdx (w : Nat) : Nat := bits w 15 5
def mwBImm (w : Nat) : Nat := bits w 20 12
def mwBBase (w : Nat) : Nat := bits w 32 3
def mwBIdx (w : Nat) : Nat := bits w 35 5
def mwWImm (w : Nat) : Nat := bits w 40 12
def mwWBase (w : Nat) : Nat := bits w 52 3
def mwWIdx (w : Nat) : Nat := bits w 55 5
def mwBSrc (w : Nat) : Nat := bits w 60 3
def mwKSrc (w : Nat) : Nat := bits w 63 2
def mwTtR (w : Nat) : Nat := bits w 65 8
def mwTtC (w : Nat) : Nat := bits w 73 8
def mwDest (w : Nat) : Nat := bits w 81 3
def mwCarry (w : Nat) : Nat := bits w 84 1
def mwMask (w : Nat) : Nat := bits w 85 1
def mwBcnReq (w : Nat) : Nat := bits w 86 2
def mwBcnReg (w : Nat) : Nat := bits w 88 2
def mwGlint (w : Nat) : Nat := bits w 90 5
def mwBcnExt (w : Nat) : Nat := bits w 95 2
def mwWaitCond (w : Nat) : Nat := bits w 97 4
def mwWaitArg (w : Nat) : Nat := bits w 101 5
def mwWaitMode (w : Nat) : Nat := bits w 106 1
def mwTimeout (w : Nat) : Nat := bits w 107 12
def mwFlow (w : Nat) : Nat := bits w 119 4
def mwCond (w : Nat) : Nat := bits w 123 6
def mwLc (w : Nat) : Nat := bits w 129 3
def mwTarget (w : Nat) : Nat := bits w 132 14
def mwScOp (w : Nat) : Nat := bits w 146 4
def mwScD (w : Nat) : Nat := bits w 150 4
def mwScS (w : Nat) : Nat := bits w 154 4
def mwScImm (w : Nat) : Nat := bits w 158 16
def mwTrace (w : Nat) : Nat := bits w 174 1

/-- The first customer address (R193). -/
def customerLo : Nat := 0x1400
/-- The last customer address (R193). -/
def customerHi : Nat := 0x29FF

/-- An entry point of the library (R199): width bounds, whether a second width applies, whether OPT bit 12 is honoured. -/
structure LibEntry where
  lo : Nat
  hi : Nat
  two : Bool
  signed : Bool
  deriving DecidableEq, Repr

/-- The library's entry points (R199). -/
def libEntry (a : Nat) : Option LibEntry :=
  match a with
  | 0x0010 | 0x0020 | 0x0030 | 0x0060 | 0x00E0 | 0x00F0 | 0x00F8 => some ⟨1, 64, false, false⟩
  | 0x0018 | 0x0028 => some ⟨2, 64, false, false⟩
  | 0x0038 => some ⟨1, 32, false, false⟩
  | 0x0040 => some ⟨1, 64, true, true⟩
  | 0x0048 => some ⟨2, 64, false, true⟩
  | 0x0050 | 0x0058 | 0x0070 | 0x0080 | 0x0088 | 0x0098 | 0x00C0 => some ⟨1, 64, false, true⟩
  | 0x0068 | 0x0090 => some ⟨1, 32, false, true⟩
  | 0x00A0 | 0x00A8 | 0x00B0 | 0x00B8 => some ⟨1, 60, false, false⟩
  | 0x00C8 | 0x00D0 => some ⟨1, 1, false, false⟩
  | 0x0100 => some ⟨1, 64, true, false⟩
  | 0x0108 => some ⟨2, 64, true, false⟩
  | 0x0110 => some ⟨1, 32, false, false⟩
  | 0x0118 => some ⟨2, 32, false, false⟩
  | _ => none

/-- Width n of a call (R195). -/
def callN (imm : Nat) : Nat := bits imm 0 6 + 1
/-- Width m of a call (R195). -/
def callM (imm : Nat) : Nat := bits imm 6 6 + 1
/-- OPT of a call (R195). -/
def callOpt (imm : Nat) : Nat := bits imm 12 4

/-- The widths and OPT of a library call are within R199 and R645. -/
def libCallOk (e : LibEntry) (target imm : Nat) : Bool :=
  let n := callN imm
  let m := callM imm
  e.lo ≤ n && n ≤ e.hi && callOpt imm ≤ 1 && (e.signed || callOpt imm = 0) &&
    (if e.two then (if target = 0x40 then decide (n ≤ m) else decide (e.lo ≤ m)) else decide (m = 1))

/-- ⌈log₂(n + 1)⌉ (R199). -/
def popWidth (n : Nat) : Nat := ((List.range 8).find? fun k => n + 1 ≤ 2 ^ k).getD 7

/-- Cycles of a library call, the PCALL microword through the returning one, waits apart (R199). -/
def libCycles (target n m opt : Nat) : Nat :=
  match target with
  | 0x0018 | 0x0028 => n + 4
  | 0x0040 => m + 2
  | 0x0048 => if opt = 1 then 2 * n + 4 else 2 * n + 1
  | 0x0060 | 0x0070 => n + 2
  | 0x0080 | 0x0088 => 2 * n + 1
  | 0x0090 => 3 * n + 1
  | 0x0098 => 2 * n + 2
  | 0x00A0 | 0x00A8 | 0x00B0 => 2 * n + 4
  | 0x00B8 => 4 * n + 11
  | 0x00C0 => 4 * n + 3
  | 0x00C8 | 0x00D0 => 4
  | 0x00E0 => n * (popWidth n + 1) + popWidth n + 3
  | 0x0100 => m * n + 3 * m + 1
  | 0x0108 => m * n + 3 * m + n + 3
  | 0x0110 => 2 * n * n + 7 * n + 4
  | 0x0118 => 2 * n * n + 13 * n + 14
  | _ => n + 1

/-- Scratch planes of a library call (R199). -/
def libScratch (target n : Nat) : Nat :=
  match target with
  | 0x00A0 | 0x00A8 | 0x00B0 => n + 1
  | 0x00B8 => 3 * n + 6
  | 0x00C0 => 2
  | 0x00E0 | 0x0100 | 0x0108 => 1
  | 0x0110 => 2 * n + 2
  | 0x0118 => 2 * n + 4
  | _ => 0

/-- Planes of D of a library call (R199); 0 where it writes none. -/
def libDest (target n m : Nat) : Nat :=
  match target with
  | 0x0040 => m
  | 0x0050 | 0x0058 | 0x0060 | 0x0068 | 0x0070 | 0x00C0 => 0
  | 0x0090 | 0x0110 | 0x0118 => 2 * n
  | 0x00A0 | 0x00A8 | 0x00B0 => n + 2
  | 0x00B8 => n + 4
  | 0x00C8 | 0x00D0 => 2
  | 0x00E0 => popWidth n
  | 0x0100 | 0x0108 => n + m
  | _ => n

/-- D may overlap A or B, or no such overlap can arise (R199). -/
def libOverlapOk (target : Nat) : Bool :=
  match target with
  | 0x0010 | 0x0018 | 0x0020 | 0x0028 | 0x0030 | 0x0038 | 0x0050 | 0x0058 | 0x0060 | 0x0068 | 0x0070 | 0x00C0
  | 0x00F0 | 0x00F8 => true
  | _ => false

/-- The microword calls a library entry. -/
def mwLib (w : Nat) : Option LibEntry := if mwFlow w = 5 then libEntry (mwTarget w) else none

/-- A conditional code that R190 defines. -/
def condDefined (c : Nat) : Bool := c ≤ 8 || (0x10 ≤ c && c ≤ 0x2B)

/-- The BR register that a condition reads (R186, R190). -/
def condReg (c : Nat) : Option Nat :=
  if 1 ≤ c ∧ c ≤ 4 then some (c - 1) else if 5 ≤ c ∧ c ≤ 8 then some (c - 5) else none

/-- The BR registers that a microword reads (R186). -/
def mwReads (w : Nat) : List Nat :=
  (if mwFlow w = 2 ∨ mwFlow w = 3 then (condReg (mwCond w)).toList else []) ++
    (if mwScOp w = 7 ∨ mwScOp w = 8 then [mwScS w % 4] else [])

/-- Refusal 2 of R196: a reserved code. -/
def mwReserved (w : Nat) : Bool :=
  mwBSrc w = 7 || 6 ≤ mwDest w || mwBcnReq w = 3 || 6 ≤ mwWaitCond w || 11 ≤ mwFlow w ||
    !condDefined (mwCond w) || 12 ≤ mwScOp w

/-- Scalar fields that R194 leaves unused are 0. -/
def mwScalarClean (w : Nat) : Bool :=
  let d := mwScD w
  let s := mwScS w
  let i := mwScImm w
  match mwScOp w with
  | 0 => d = 0 && s = 0 && i = 0
  | 1 | 2 => s = 0
  | 4 => i = 0
  | 5 => i < 16
  | 7 | 8 => s < 4 && i = 0
  | 9 => d < 8 && s = 0
  | 10 => d < 8 && s < 2
  | 11 => d = 0 && i < 16
  | _ => true

/-- Every unused field is 0 in a microword other than a PCALL (R645). -/
def mwClean (w : Nat) : Bool :=
  let idle := mwDest w = 0 && mwCarry w = 0
  (!idle || (bits w 0 40 = 0 && mwBSrc w = 0 && mwKSrc w = 0)) &&
  (mwDest w = 1 || bits w 40 20 = 0) && (mwDest w != 0 || mwTtR w = 0) && (mwCarry w = 1 || mwTtC w = 0) &&
  (!(mwCarry w = 0 && (mwDest w = 0 || mwDest w = 5)) || mwMask w = 0) &&
  (mwBcnReq w != 0 || (mwBcnReg w = 0 && mwGlint w = 0 && mwBcnExt w = 0)) &&
  ((mwGlint w).testBit 4 || mwGlint w = 0) && mwScalarClean w

/-- Every unused field is 0 in a PCALL (R195, R645). -/
def mwCallClean (w : Nat) : Bool :=
  mwTtR w = 0 && mwTtC w = 0 && mwDest w = 0 && mwCarry w = 0 && mwMask w = 0 && mwKSrc w = 0 && mwBcnReq w = 0 &&
    mwBcnReg w = 0 && mwGlint w = 0 && mwBcnExt w = 0 && mwScOp w = 0 && mwScD w = 0 &&
    ((mwLib w).isSome || callOpt (mwScImm w) < 2)

/-- An index term with bit 4 = 0 has bits [3:0] 0 (R180). -/
def idxClean (i : Nat) : Bool := i.testBit 4 || i = 0

/-- Flow fields that the operation does not use are 0 (R189). -/
def mwFlowClean (w : Nat) : Bool :=
  let f := mwFlow w
  (f = 2 || f = 3 || mwCond w = 0) && (f = 7 || mwLc w = 0) && ((1 ≤ f && f ≤ 5) || f = 7 || mwTarget w = 0)

/-- Refusal 4 of R196 does not apply: a wait has a timeout and an argument in its range (R187). -/
def mwWaitOk (w : Nat) : Bool :=
  let a := mwWaitArg w
  match mwWaitCond w with
  | 0 => a = 0
  | 1 => mwTimeout w != 0
  | 2 | 3 => mwTimeout w != 0 && a < 4
  | 4 => mwTimeout w != 0 && a < 16
  | 5 => mwTimeout w != 0 && a < 8
  | _ => true

/-- A target within R193. -/
def mwTargetOk (w : Nat) : Bool :=
  let t := mwTarget w
  let cust := customerLo ≤ t && t ≤ customerHi
  match mwFlow w with
  | 1 | 2 | 3 | 4 | 7 => cust
  | 5 => cust || (libEntry t).isSome
  | _ => true

/-- The lowest code of R196 that refuses a microword by itself (1 to 6, 8, 9), 0 where none does. -/
def mwErr (w : Nat) : Nat :=
  if w >>> 175 ≠ 0 then 1
  else if mwReserved w then 2
  else if ¬ (idxClean (mwAIdx w) && idxClean (mwBIdx w) && idxClean (mwWIdx w) && mwFlowClean w &&
      (if mwFlow w = 5 then mwCallClean w else mwClean w)) then 3
  else if ¬ mwWaitOk w then 4
  else if ¬ (mwReads w).all (fun r => mwWaitCond w == 2 && mwWaitArg w == r) then 5
  else if ¬ mwTargetOk w then 6
  else if mwScOp w = 9 ∧ mwFlow w ≠ 5 ∧ mwScImm w = 0 then 8
  else match mwLib w with
    | some e => if libCallOk e (mwTarget w) (mwScImm w) then 0 else 9
    | none => 0

/-- Sequencer cycles of a microword that waits `k` cycles (R197, R199). -/
def mwCycles (w k : Nat) : Nat :=
  k + (if (mwLib w).isSome then libCycles (mwTarget w) (callN (mwScImm w)) (callM (mwScImm w)) (callOpt (mwScImm w)) else 1)

end Sys2Proof.Machine
end

