-- ==== Sys2Proof/Machine/Library.lean ====
section
/-! DEFINITION. The primitive library: what each entry point leaves behind (R198 to R206, R646), over whole planes. A
field is a list of planes, bit 0 first. -/

namespace Sys2Proof.Machine

/-- The complement of a plane. -/
def notP (v : Nat) : Nat := allPes ^^^ v

/-- `a` where `s` is 1, `b` elsewhere. -/
def muxP (s a b : Nat) : Nat := mixBits b a s

/-- Bit-by-bit majority. -/
def majP (a b c : Nat) : Nat := (a &&& b) ||| (a &&& c) ||| (b &&& c)

/-- Sum and carry out of two fields of one width with a carry in. -/
def addF : List Nat → List Nat → Nat → List Nat × Nat
  | a :: as, b :: bs, c =>
    let r := addF as bs (majP a b c)
    ((a ^^^ b ^^^ c) :: r.1, r.2)
  | _, _, c => ([], c)

/-- A − B and 1 where A ≥ B unsigned. -/
def subF (a b : List Nat) : List Nat × Nat := addF a (b.map notP) allPes

/-- A field of `w` planes, extended by a plane above. -/
def extF (w top : Nat) (a : List Nat) : List Nat := a.take w ++ List.replicate (w - a.length) top

/-- The top plane of a field. -/
def topF (a : List Nat) : Nat := a.getLastD 0

/-- The field with its sign plane inverted, so that signed order becomes unsigned order (R202). -/
def flipTop (a : List Nat) : List Nat := a.dropLast ++ [notP (topF a)]

/-- A ≥ B by the sign convention (R202). -/
def geF (signed : Bool) (a b : List Nat) : Nat := if signed then (subF (flipTop a) (flipTop b)).2 else (subF a b).2

/-- Plane-by-plane choice between two fields. -/
def muxF (s : Nat) (a b : List Nat) : List Nat := List.zipWith (muxP s) a b

/-- Negates the field where `s` is 1. -/
def negWhere (s : Nat) (a : List Nat) : List Nat :=
  (addF (a.map fun p => p ^^^ s) (List.replicate a.length 0) s).1

/-- 1 where the operands' signs agree and the result's differs (R201). -/
def overflowP (a b r : Nat) : Nat := notP (a ^^^ b) &&& (a ^^^ r)

/-- Product of two fields modulo 2 to the power `w`, by shifted additions. -/
def mulF (w : Nat) (a : List Nat) : Nat → List Nat → List Nat
  | _, [] => List.replicate w 0
  | j, b :: bs =>
    let part := extF w 0 (List.replicate j 0 ++ a.map fun p => p &&& b)
    (addF part (mulF w a (j + 1) bs) 0).1

/-- Restoring division over the dividend's planes, highest first: quotient planes, lowest first, and the remainder of
`n + 1` planes (R203). Where B is 0 the quotient is all ones and the remainder A. -/
def divF (b : List Nat) : List Nat → List Nat → List Nat → List Nat × List Nat
  | [], q, r => (q, r)
  | x :: xs, q, r =>
    let r1 := x :: r.dropLast
    let (t, ge) := subF r1 b
    divF b xs (ge :: q) (muxF ge t r1)

/-- Unsigned quotient and remainder of two `n`-plane fields. -/
def divmodF (a b : List Nat) : List Nat × List Nat :=
  let n := a.length
  let (q, r) := divF (b ++ [0]) a.reverse [] (List.replicate (n + 1) 0)
  (q, r.take n)

/-- 1 where the field is 0. -/
def zeroF (a : List Nat) : Nat := notP (a.foldl (· ||| ·) 0)

/-- The field of `n` planes at an address. -/
def State.field (s : State) (a n : Nat) : List Nat := (List.range n).map fun i => s.plane ((a + i) % 4096)

/-- The source that a b_src code names (R181); 5 and 6 name no memory source. -/
def bSrcOf (code : Nat) : BSrc :=
  match code with
  | 1 => .north
  | 2 => .east
  | 3 => .south
  | 4 => .west
  | _ => .own

/-- The field of `n` planes at an address as a neighbour source reads it (R153). -/
def State.nbField (s : State) (d : BSrc) (a n : Nat) : List Nat :=
  (List.range n).map fun i => (s.neighbour d ((a + i) % 4096)).1

/-- Some plane of the field missed its Worga entry (R155). -/
def State.nbMiss (s : State) (d : BSrc) (a n : Nat) : Bool :=
  (List.range n).any fun i => (s.neighbour d ((a + i) % 4096)).2

/-- The same bit in every PE. -/
def splat (b : Bool) : Nat := if b then allPes else 0

/-- The field B of a call, read through ASRC (R181, R195). -/
def State.libB (s : State) (x : LibCall) (n : Nat) : List Nat :=
  if x.asrc = 6 then (List.range n).map fun i => splat (x.k.testBit ((x.b + i) % 4096 % 32))
  else s.nbField (bSrcOf x.asrc) x.b n

/-- The entry reads B (R199). -/
def libUsesB (e : Nat) : Bool :=
  match e with
  | 0x30 | 0x38 | 0x40 | 0x68 | 0xA0 | 0xA8 | 0xB0 | 0xB8 | 0xC0 | 0xC8 | 0xD0 | 0xE0 | 0xF8 => false
  | _ => true

/-- The sides from which an entry reads A beside its own memory. -/
def libSides (e : Nat) : List BSrc :=
  match e with
  | 0xA0 | 0xC8 | 0xB8 => [.west, .east]
  | 0xA8 | 0xD0 => [.north, .south]
  | 0xB0 => [.east]
  | 0xC0 => [.west, .north, .east, .south]
  | _ => []

/-- The width of B (R199). -/
def LibCall.bWidth (x : LibCall) : Nat := if x.entry = 0x100 ∨ x.entry = 0x108 then x.m else x.n

/-- Sum of fields of any widths in `w` planes. -/
def sumF (w : Nat) (fs : List (List Nat)) : List Nat :=
  fs.foldl (fun r f => (addF r (extF w 0 f) 0).1) (List.replicate w 0)

/-- The first step of CSUM2 and CSUM3, written to the scratch planes from T in every PE (R646). -/
def State.libFirst (s : State) (x : LibCall) : List Nat :=
  let a := s.field x.a x.n
  match x.entry with
  | 0xB0 => sumF (x.n + 1) [a, s.nbField .east x.a x.n]
  | 0xB8 => sumF (x.n + 2) [s.nbField .west x.a x.n, a, s.nbField .east x.a x.n]
  | _ => []

/-- Writes a field of planes at the PEs of a mask. -/
def State.setField (s : State) (a mask : Nat) (ps : List Nat) : State :=
  ps.zipIdx.foldl (fun s p => s.progPlane ((a + p.2) % 4096) p.1 mask) s

/-- The results of an entry, read from a state whose first-step scratch stands (R199, R201 to R204, R646). -/
def State.libOut (s : State) (x : LibCall) : LibOut :=
  let n := x.n
  let m := x.m
  let sg := x.opt % 2 = 1
  let a := s.field x.a n
  let b := s.libB x x.bWidth
  let k := (List.range n).map fun i => splat (x.k.testBit i)
  let nb (d : BSrc) := s.nbField d x.a n
  match x.entry with
  | 0x10 => let r := addF a b 0; { d := r.1, c := some r.2 }
  | 0x18 =>
    let r := addF a b 0
    let v := overflowP (topF a) (topF b) (topF r.1)
    { d := r.1, c := some r.2, f := some v, ovf := v }
  | 0x20 => let r := subF a b; { d := r.1, c := some r.2 }
  | 0x28 =>
    let r := subF a b
    let v := overflowP (topF a) (notP (topF b)) (topF r.1)
    { d := r.1, c := some r.2, f := some v, ovf := v }
  | 0x30 => { d := negWhere allPes a }
  | 0x38 => { d := (addF a k 0).1 }
  | 0x40 =>
    let d := s.field x.d m
    let e := extF m (if sg then topF a else 0) a
    let r := addF d e 0
    { d := r.1, ovf := if sg then overflowP (topF d) (topF e) (topF r.1) else r.2 }
  | 0x48 =>
    let r := addF a b 0
    if sg then
      let v := overflowP (topF a) (topF b) (topF r.1)
      let neg := topF a
      { d := muxF v (List.replicate (n - 1) (notP neg) ++ [neg]) r.1 }
    else { d := r.1.map fun p => p ||| r.2 }
  | 0x50 => { f := some (geF sg a b) }
  | 0x58 => { f := some (notP (geF sg b a)) }
  | 0x60 => { f := some (zeroF (List.zipWith (· ^^^ ·) a b)) }
  | 0x68 => { f := some (geF sg a k) }
  | 0x70 => { f := some (geF sg a b &&& s.plane x.d) }
  | 0x80 => { d := muxF (geF sg a b) b a }
  | 0x88 => { d := muxF (geF sg a b) a b }
  | 0x90 => let g := geF sg a b; { d := muxF g b a ++ muxF g a b }
  | 0x98 =>
    let t := muxP (s.plane x.t) (notP (geF sg a b)) (notP (geF sg b a))
    { d := muxF t b a, f := some t }
  | 0xA0 => { d := sumF (n + 2) [nb .west, a, nb .east] }
  | 0xA8 => { d := sumF (n + 2) [nb .north, a, nb .south] }
  | 0xB0 => { d := sumF (n + 2) [s.field x.t (n + 1), s.nbField .south x.t (n + 1)] }
  | 0xB8 => { d := sumF (n + 4) [s.nbField .north x.t (n + 2), s.field x.t (n + 2), s.nbField .south x.t (n + 2)] }
  | 0xC0 =>
    { f := some (geF sg a (nb .west) &&& geF sg a (nb .north) &&& notP (geF sg (nb .east) a) &&&
        notP (geF sg (nb .south) a)) }
  | 0xC8 => { d := sumF 2 [nb .west, a, nb .east] }
  | 0xD0 => { d := sumF 2 [nb .north, a, nb .south] }
  | 0xE0 => { d := sumF (popWidth n) (a.map fun p => [p]) }
  | 0xF0 => { d := b }
  | 0xF8 => { d := List.replicate n 0 }
  | 0x100 => { d := mulF (n + m) a 0 b }
  | 0x108 => { d := mulF (n + m) (extF (n + m) (topF a) a) 0 (extF (n + m) (topF b) b) }
  | 0x110 => let r := divmodF a b; { d := r.1 ++ r.2, dz := zeroF b }
  | 0x118 =>
    let z := zeroF b
    let r := divmodF (negWhere (topF a) a) (negWhere (topF b) b)
    let q := negWhere (topF a ^^^ topF b) r.1
    let least := topF a &&& zeroF a.dropLast
    { d := muxF z (List.replicate n allPes) q ++ muxF z a (negWhere (topF a) r.2), dz := z,
      ovf := least &&& b.foldl (· &&& ·) allPes }
  | _ => {}

/-- Two runs of planes meet, addresses being modulo 4,096. -/
def planesMeet (a n b m : Nat) : Bool := n != 0 && m != 0 && ((b + 4096 - a) % 4096 < n || (a + 4096 - b) % 4096 < m)

/-- D is unspecified after the call (R206). -/
def LibCall.clash (x : LibCall) : Bool :=
  let nd := libDest x.entry x.n x.m
  (!libOverlapOk x.entry && (planesMeet x.d nd x.a x.n ||
    (libUsesB x.entry && x.asrc != 6 && planesMeet x.d nd x.b x.bWidth))) ||
    planesMeet x.d nd x.t (libScratch x.entry x.n)

/-- A free plane at the PEs of a mask, for what the library leaves unspecified (R198, R206). -/
def State.freePlane (s : State) (a mask : Nat) : State := (s.progPlane a (s.fresh pes) mask).tookFree

/-- Free planes from an address on. -/
def State.freeField (s : State) (a mask n : Nat) : State :=
  (List.range n).foldl (fun s i => s.freePlane ((a + i) % 4096) mask) s

/-- Some read of the entry missed its Worga entry (R155, R646). -/
def State.libMiss (s : State) (x : LibCall) : Bool :=
  (libUsesB x.entry && x.asrc != 6 && s.nbMiss (bSrcOf x.asrc) x.b x.bWidth) ||
    (libSides x.entry).any (fun d => s.nbMiss d x.a x.n)

/-- Some read of the second step missed (R646). -/
def State.libMiss2 (s : State) (x : LibCall) : Bool :=
  match x.entry with
  | 0xB0 => s.nbMiss .south x.t (x.n + 1)
  | 0xB8 => s.nbMiss .north x.t (x.n + 2) || s.nbMiss .south x.t (x.n + 2)
  | _ => false

/-- A miss inside a primitive is reported; how many of its microwords read is not stated, so the count is free but not 0
(R155). -/
def State.libMissed (s : State) (miss : Bool) : State :=
  if miss then ((s.err ARR_ERR.whalo_miss).add ARR_WHALO_MISS_CNT.count (max 1 (s.fresh 16))).tookFree else s

/-- The PE registers that the library leaves unspecified: C and X and Y in every executing PE, F where M is 1, except the
results that the table names (R198). -/
def State.libRegs (s : State) (ex on : Nat) (o : LibOut) : State :=
  let fr (k : Nat) := Config.free (s.freeCount + k) % 2 ^ pes
  let c := mixBits s.arr.c (match o.c with | some c => muxP on c (fr 0) | none => fr 0) ex
  let f := mixBits s.arr.f (o.f.getD (fr 1)) on
  { s with arr := { s.arr with c := c, f := f, x := mixBits s.arr.x (fr 2) ex, y := mixBits s.arr.y (fr 3) ex },
           freeCount := s.freeCount + 4 }

/-- A primitive at its call: what it will leave behind, from the operands as they stand (R199). -/
def State.libPlan (s : State) (x : LibCall) : LibPlan :=
  let first := s.libFirst x
  let t := s.setField x.t (s.pesWhere executing) first
  { call := x, m := s.arr.m, first := first, out := t.libOut x, miss := s.libMiss x || t.libMiss2 x }

/-- A primitive at its return, in every executing PE (R198 to R206). -/
def State.libFinish (s : State) (p : LibPlan) : State :=
  let x := p.call
  let ex := s.pesWhere executing
  let on := p.m &&& ex
  let s := { s with arr := { s.arr with m := mixBits s.arr.m p.m ex } }
  let s := s.setField x.t ex p.first
  let s := s.freeField (x.t + p.first.length) ex (libScratch x.entry x.n - p.first.length)
  let s := if x.clash then s.freeField x.d on (libDest x.entry x.n x.m) else s.setField x.d on p.out.d
  let s := if p.out.ovf &&& on = 0 then s else s.progPlane 0xF7E (s.plane 0xF7E ||| p.out.ovf) on
  let s := if p.out.dz &&& on = 0 then s else s.progPlane 0xF7F (s.plane 0xF7F ||| p.out.dz) on
  (s.libRegs ex on p.out).libMissed p.miss

/-- A primitive stopped at a taken LOOP: D, scratch and the PE registers hold whatever it has written by then, which the
spec does not state (R585). -/
def State.libPartial (s : State) (p : LibPlan) : State :=
  let x := p.call
  let ex := s.pesWhere executing
  let s := s.freeField x.t ex (libScratch x.entry x.n)
  let s := s.freeField x.d (p.m &&& ex) (libDest x.entry x.n x.m)
  let s := s.libRegs ex (p.m &&& ex) {}
  { s with arr := { s.arr with m := mixBits s.arr.m (s.fresh pes) ex } }.tookFree

/-- A context after a library call: S12 to S15, WN, WM, ASRC, OPT and LC5 to LC7 are unspecified (R198). -/
def libCtx (c : Ctx) (k : Nat) : Ctx :=
  let fr (i w : Nat) := Config.free (k + i) % 2 ^ w
  let s := (List.range 4).foldl (fun t i => Sparse.set 0 t (12 + i) (fr i 32)) c.s
  let l := (List.range 3).foldl (fun t i =>
    Sparse.set {} t (5 + i) { limit := fr (4 + i) 16 % 65535 + 1, li := fr (7 + i) 16 : LoopCtr }) c.loops
  { c with s := s, loops := l, wn := fr 10 6 + 1, wm := fr 11 6 + 1,
           asrc := [0, 1, 2, 3, 4, 6].getD (fr 12 3 % 6) 0, opt := fr 13 4 }

/-- How many free values `libCtx` takes. -/
def libCtxFree : Nat := 14

end Sys2Proof.Machine
end

