-- ==== Sys2Proof/Machine/NamedSlots.lean ====
section
/-! DEFINITION. Crossing identities and the named-slot matcher (R31, R32, R43). -/

namespace Sys2Proof.Machine

/-- Gnomon's state code (R27). -/
def State.gnoState (s : State) : Nat := s.get GNO_STATUS.state

/-- UNNUMBERED, RUNNING, HOLDOVER: slot reference edges tag crossings (R24). -/
def State.hasTimeline (s : State) : Bool := s.gnoState = 2 || s.gnoState = 3 || s.gnoState = 4

/-- The slot period between the two latest slot reference edges of the present timeline, in fs. -/
def State.slotPeriod (s : State) : Nat :=
  match s.gno.tags with
  | a :: b :: _ => if s.gno.acquireAt ≤ b.edge then a.edge - b.edge else s.get GNO_PERIOD_MIN.period_fs
  | _ => s.get GNO_PERIOD_MIN.period_fs

/-- RUNNING or HOLDOVER (R27). -/
def State.tagging (s : State) : Bool := s.gnoState = 3 || s.gnoState = 4

/-- The timeline is numbered (R32). -/
def State.numbered (s : State) : Bool := s.tagging && !s.gno.segs.isEmpty

/-- How far serial `a` lies behind serial `b`, the serial being 64 bits wide (R35). -/
def serialAge (a b : Nat) : Nat := (b + 2 ^ 64 - a) % 2 ^ 64

/-- The serial of the crossing tagged last. -/
def State.lastSerial (s : State) : Nat := (s.gno.nextSerial + 2 ^ 64 - 1) % 2 ^ 64

/-- The crossing serial that GNO_SERIAL shows: that of the crossing tagged last, and 0 before the first (R44). -/
def State.shownSerial (s : State) : Nat := (s.gno.tags.head?.map (·.serial)).getD 0

/-- The crossing whose stage 1 runs in the slot that the barrier after the latest edge opens (R18, R43). -/
def State.slotSerial (s : State) : Nat := (s.lastSerial + 2 ^ 64 - s.pri.work.lin) % 2 ^ 64

/-- Where a serial lies as seen from the serial `ref`, which stands at 2 to the power 63: across the wrap of the serial, what
lies behind is smaller and what lies ahead is larger (R35). -/
def seenFrom (ref serial : Nat) : Nat := (serial + 2 ^ 64 + 2 ^ 63 - ref) % 2 ^ 64

/-- The place at which `ref` itself stands. -/
def here : Nat := 2 ^ 63

/-- A numbering as seen from a serial. -/
def Seg.seenFrom (g : Seg) (ref : Nat) : Seg :=
  { g with start := Machine.seenFrom ref g.start, zero := Machine.seenFrom ref g.zero }

/-- Index and orbit of the crossing at place `n` under a numbering seen from the same serial (R32): before the index-0 crossing
the index counts back and the orbit number is kept. -/
def Seg.nameOf (g : Seg) (n : Nat) : Nat × Nat :=
  if g.zero ≤ n then ((n - g.zero) % g.length, (g.orbit + (n - g.zero) / g.length) % 2 ^ 48)
  else ((g.length - (g.zero - n) % g.length) % g.length, g.orbit)

/-- Index and orbit of a crossing under the numbering `g` (R32, R35). -/
def Seg.identity (g : Seg) (serial : Nat) : Nat × Nat := (g.seenFrom serial).nameOf here

/-- The numbering that covers a crossing: the latest whose first crossing is not later (R32, R35). -/
def segOf (segs : List Seg) (serial : Nat) : Option Seg := segs.find? fun g => decide ((g.seenFrom serial).start ≤ here)

/-- The earliest serial from `cur` on that the numbering gives the name, below `stop` (R32, R43); of the crossings before the
index-0 crossing that bear one name, the earliest after `cur`. -/
def Seg.named (g : Seg) (cur stop orbit index : Nat) : Option Nat :=
  if g.length ≤ index then none
  else
    let lo := max cur g.start
    let back :=
      let lo := max (cur + 1) g.start
      if orbit = g.orbit ∧ lo < g.zero then
        let want := (g.length - (g.zero - lo) % g.length) % g.length
        let t := lo + (index + g.length - want) % g.length
        if t < g.zero then some t else none
      else none
    let t0 := g.zero + ((orbit + 2 ^ 48 - g.orbit) % 2 ^ 48) * g.length + index
    let fwd := if t0 < lo then t0 + g.length * 2 ^ 48 else t0
    match back with
    | some t => if t < stop then some t else none
    | none => if fwd < stop then some fwd else none

/-- The first serial, from `cur` on, that a name denotes over all numberings, the oldest covering one first. -/
def namedIn : List Seg → Nat → Nat → Nat → Nat → Option Nat
  | [], _, _, _, _ => none
  | g :: gs, stop, cur, orbit, index =>
    match namedIn gs g.start cur orbit index with
    | some t => some t
    | none => g.named cur stop orbit index

/-- The serial that a name denotes, measured forward from the current slot, or none where the matcher refuses the
action (R43). -/
def State.matchName (s : State) (orbit index : Nat) : Option Nat :=
  if ¬ s.numbered then none
  else
    let cur := s.slotSerial
    match namedIn (s.gno.segs.map fun g => g.seenFrom cur) (2 ^ 65) here orbit index with
    | none => none
    | some t =>
      if (s.gno.segs.head?.map (·.length)).getD 0 ≤ index then none
      else if t < here + 2 ∨ here + (2 ^ 32 - 1) < t then none
      else some ((cur + (t - here)) % 2 ^ 64)

/-- Takes an owner's action out of the matcher and the list of unnamed actions. -/
def State.disarm (s : State) (o : Owner) : State :=
  let g := { s.gno with named := s.gno.named.filter (fun n => n.owner ≠ o),
                        unnamed := s.gno.unnamed.filter (fun n => n.owner ≠ o),
                        due := s.gno.due.filter (fun n => n ≠ o) }
  { s with gno := g }.put GNO_NAMED_USED.entries g.named.length

/-- Submits an action: by name through the matcher (none where it refuses), or at the second barrier from now (R43). An
earlier arming of the same owner is replaced. -/
def State.arm (s : State) (o : Owner) (named : Bool) (orbit index : Nat) : Option State :=
  let s' := s.disarm o
  if named then
    if 64 ≤ s'.gno.named.length then none
    else (s.matchName orbit index).map fun t =>
      let g := { s'.gno with named := s'.gno.named ++ [{ owner := o, serial := t }] }
      { s' with gno := g }.put GNO_NAMED_USED.entries g.named.length
  else some { s' with gno := { s'.gno with unnamed := s'.gno.unnamed ++ [{ owner := o, left := 2 }] } }

/-- The action of an owner is armed. -/
def State.armed (s : State) (o : Owner) : Bool :=
  s.gno.named.any (fun n => n.owner = o) || s.gno.unnamed.any (fun n => n.owner = o) || s.gno.due.contains o

/-- The rank in which actions due at one barrier are performed: a margin plan, a program exchange, the commit sets in
ascending number (sets 0 and 1 bring the ledger's rewrites, sets 2 and 3 the dictionary's commits), then every other action,
and last the commit point of an Eclipse entry (R16, R237, R558). -/
def Owner.rank : Owner → Nat
  | .plan => 0
  | .exchange => 1
  | .cset n => 2 + n
  | .facet _ | .prism | .epoch => 8
  | .power => 9

/-- The action of an owner is due at the standing barrier, and none of a lower rank is still to be performed (R16). -/
def State.isDue (s : State) (o : Owner) : Bool :=
  s.gno.due.contains o && s.gno.due.all fun q => o.rank ≤ q.rank

/-- Takes an owner's due action as performed. -/
def State.tookDue (s : State) (o : Owner) : State := s.updGno fun g => { g with due := g.due.filter fun q => q ≠ o }

end Sys2Proof.Machine
end

