-- ==== Sys2Proof/Machine/ProgImage.lean ====
section
/-! DEFINITION. Program images and the loader's checks (R192, R196, R218, R226 to R229, R605, R647). -/

namespace Sys2Proof.Machine

def progLength (i : List (BitVec 8)) : Nat := leAt i 8 4
def progId (i : List (BitVec 8)) : Nat := leAt i 12 4
def progWords (i : List (BitVec 8)) : Nat := leAt i 16 2
def progStages (i : List (BitVec 8)) : Nat := leAt i 18 1
def progTimerRestart (i : List (BitVec 8)) : Nat := leAt i 19 1
def progEdgeRestart (i : List (BitVec 8)) : Nat := leAt i 20 2
def progBgEntry (i : List (BitVec 8)) : Nat := leAt i 22 2
def progBgSave (i : List (BitVec 8)) : Nat := leAt i 24 2
def progYield (i : List (BitVec 8)) : Nat := leAt i 26 2
def progMinPatch (i : List (BitVec 8)) : Nat := leAt i 28 4
def progFgTotal (i : List (BitVec 8)) : Nat := leAt i 32 4
def progDec (i : List (BitVec 8)) : Nat := leAt i 36 4
/-- The image has a background program (R226). -/
def progHasBg (i : List (BitVec 8)) : Bool := leAt i 6 2 % 2 = 1
/-- The record of stage k, 1 to 64 (R227). -/
def progStage (i : List (BitVec 8)) (k : Nat) : Nat := leAt i (64 + 8 * (k - 1)) 8
/-- The entry of stage k. -/
def progEntry (i : List (BitVec 8)) (k : Nat) : Nat := progStage i k % 65536
/-- fg_cycles of stage k. -/
def progFg (i : List (BitVec 8)) (k : Nat) : Nat := progStage i k >>> 32
/-- The record of timer t (R227). -/
def progTimer (i : List (BitVec 8)) (t : Nat) : Nat := leAt i (576 + 8 * t) 8
/-- The record of edge detector e (R227). -/
def progEdge (i : List (BitVec 8)) (e : Nat) : Nat := leAt i (640 + 4 * e) 4
/-- The microword at a customer address. -/
def progWord (i : List (BitVec 8)) (a : Nat) : Nat := leAt i (704 + 24 * (a - customerLo)) 24
/-- The code of an image, one number a word. -/
def progCode (i : List (BitVec 8)) : List Nat := (List.range (progWords i)).map fun k => leAt i (704 + 24 * k) 24

/-- Where control may go from word `k` (an index): `loops` adds the taken LOOP, `calls` the called routine. -/
def flowSucc (w k : Nat) (loops calls : Bool) : List Nat :=
  let t := mwTarget w - customerLo
  match mwFlow w with
  | 1 => [t]
  | 2 => if mwCond w = 0 then [t] else [k + 1, t]
  | 3 => if mwCond w = 0 then [k + 1] else [k + 1, t]
  | 4 => (k + 1) :: (if calls then [t] else [])
  | 5 => (k + 1) :: (if calls ∧ (mwLib w).isNone then [t] else [])
  | 6 | 8 | 10 => []
  | 7 => (k + 1) :: (if loops then [t] else [])
  | _ => [k + 1]

/-- One more round of the words from which a path of the same routine comes to a RET. -/
def retRound (code : List Nat) (s : Nat) : Nat :=
  code.zipIdx.foldl (fun (a : Nat) e =>
    let t := mwTarget e.1 - customerLo
    let back :=
      if mwFlow e.1 = 6 then true
      else if mwFlow e.1 = 4 ∨ (mwFlow e.1 = 5 ∧ (mwLib e.1).isNone) then s.testBit t && s.testBit (e.2 + 1)
      else (flowSucc e.1 e.2 true false).any fun k => s.testBit k
    if back then a ||| 2 ^ e.2 else a) s

/-- The words from which a path of the same routine comes to a RET, as a set; at most one round a word. -/
def canReturn (code : List Nat) : Nat → Nat → Nat
  | 0, s => s
  | k + 1, s =>
    let t := retRound code s
    if t = s then s else canReturn code k t

/-- Where control may go from word `k`: the word after a call is reached only when its routine can return (`ret`). -/
def pathSucc (ret w k : Nat) (loops calls : Bool) : List Nat :=
  let t := mwTarget w - customerLo
  if (mwFlow w = 4 ∨ (mwFlow w = 5 ∧ (mwLib w).isNone)) ∧ ¬ ret.testBit t then (if calls then [t] else [])
  else flowSucc w k loops calls

/-- One round of reachability over the words of a set. -/
def reachRound (code : List Nat) (ret : Nat) (calls : Bool) (s : Nat) : Nat :=
  (code.zipIdx.foldl (fun (a : Nat) e =>
    if s.testBit e.2 then (pathSucc ret e.1 e.2 true calls).foldl (fun a t => if t < code.length then a ||| 2 ^ t else a) a
    else a) s)

/-- The words reachable from a set, as a set; at most one round a word. -/
def reach (code : List Nat) (ret : Nat) (calls : Bool) : Nat → Nat → Nat
  | 0, s => s
  | k + 1, s =>
    let t := reachRound code ret calls s
    if t = s then s else reach code ret calls k t

/-- The calls (word index, target) in the routine that starts at word `e`, each call counted as returning. -/
def routineCalls (code : List Nat) (e : Nat) : List (Nat × Nat) :=
  let r := reach code (2 ^ code.length - 1) false code.length (2 ^ e)
  (code.zipIdx.filter fun x => r.testBit x.2 && (mwFlow x.1 == 4 || mwFlow x.1 == 5)).map fun x => (x.2, mwTarget x.1)

/-- The CALL and PCALL words below a routine that close a cycle or exceed depth 8 (R192, R229 code 7). -/
def badCalls (code : List Nat) : Nat → List Nat → Nat → List Nat
  | 0, _, e => (routineCalls code e).map (·.1)
  | k + 1, chain, e =>
    ((routineCalls code e).map fun c =>
      if (libEntry c.2).isSome then []
      else
        let t := c.2 - customerLo
        if chain.contains t then [c.1] else if t < code.length then badCalls code k (t :: chain) t else []).flatten

/-- The lowest failing word and its lowest code among 1 to 9 (R229, step 2). -/
def wordErr (code : List Nat) (roots : List Nat) : Option (Nat × Nat) :=
  let bad7 := (roots.map fun e => badCalls code 8 [e] e).flatten
  (code.zipIdx.map fun x =>
    let c := mwErr x.1
    let c := if bad7.contains x.2 ∧ (c = 0 ∨ 7 < c) then 7 else c
    (x.2, c)).find? fun x => x.2 != 0

/-- One round that settles the words all of whose successors are settled; taken LOOPs apart. -/
def settleRound (code : List Nat) (ret s : Nat) : Nat :=
  code.zipIdx.foldl (fun (a : Nat) e =>
    if (pathSucc ret e.1 e.2 false false).all fun t => s.testBit t then a ||| 2 ^ e.2 else a) s

/-- The words from which every path, taken LOOPs apart, ends. -/
def settled (code : List Nat) (ret : Nat) : Nat → Nat → Nat
  | 0, s => s
  | k + 1, s =>
    let t := settleRound code ret s
    if t = s then s else settled code ret k t

/-- A cycle that no LOOP forms is reachable from the roots (R229 code 22). -/
def hasCycle (code : List Nat) (roots : List Nat) : Bool :=
  let all := 2 ^ code.length - 1
  let ret := canReturn code code.length 0
  let r := reach code ret true code.length (roots.foldl (fun a e => a ||| 2 ^ e) 0)
  let unreached := all ^^^ (all &&& r)
  all &&& r != 0 && settled code ret code.length unreached != all

/-- The LOOP words: index, counter, target index. -/
def loopWords (code : List Nat) : List (Nat × Nat × Nat) :=
  (code.zipIdx.filter fun x => mwFlow x.1 == 7).map fun x => (x.2, mwLc x.1, mwTarget x.1 - customerLo)

/-- Words of a loop's body: those from its target to it, and the routines called from them (R605). -/
def loopBody (code : List Nat) (l : Nat × Nat × Nat) : Nat :=
  let own := bitSet code.length fun k => l.2.2 ≤ k && k ≤ l.1
  let called := (code.zipIdx.filter fun x => own.testBit x.2 && (mwFlow x.1 == 4 || (mwFlow x.1 == 5 && (mwLib x.1).isNone))).foldl
    (fun a x => a ||| 2 ^ (mwTarget x.1 - customerLo)) 0
  own ||| (if called = 0 then 0 else reach code (canReturn code code.length 0) true code.length called)

/-- A loop body holds what R605 forbids. -/
def badBody (code : List Nat) : Bool :=
  (loopWords code).any fun l =>
    let b := loopBody code l
    code.zipIdx.any fun x => b.testBit x.2 &&
      (((mwScOp x.1 == 9 || mwScOp x.1 == 10) && mwFlow x.1 != 5 && mwScD x.1 % 8 == l.2.1) ||
       (mwFlow x.1 == 7 && x.2 != l.1 && mwLc x.1 == l.2.1) || (mwFlow x.1 == 5 && 5 ≤ l.2.1))

/-- A point on a path (R229, R647): word, return words, limit and LI of each counter, WN and WM, and the LOOP words whose
target the path has passed since their counter's LI was last set to 0. -/
structure Walk where
  pc : Nat
  stack : List Nat := []
  loops : List (Option Nat × Nat) := List.replicate 8 (none, 0)
  w : Option (Nat × Nat) := none
  passed : Nat := 0
  deriving DecidableEq, Repr

/-- Sets a counter's limit with LI = 0; the LOOPs on it wait for their target anew. -/
def Walk.setLimit (x : Walk) (ls : List (Nat × Nat × Nat)) (c lim : Nat) : Walk :=
  { x with loops := listUpd x.loops c fun _ => (some lim, 0),
           passed := ls.foldl (fun p l => if l.2.1 = c ∧ p.testBit l.1 then p - 2 ^ l.1 else p) x.passed }

/-- What one word does to a path. -/
inductive WalkStep where
  /-- The path breaks a rule of code 22. -/
  | bad
  /-- It ends (STAGE_END or BG_END). -/
  | done
  | go (xs : List Walk)
  deriving DecidableEq, Repr

/-- One microword of a path: its loop registers, then where it may go (R183, R190 to R195, R647). -/
def walkStep (code : List Nat) (ls : List (Nat × Nat × Nat)) (x : Walk) : WalkStep :=
  let w := code.getD x.pc 0
  let x := { x with passed := ls.foldl (fun p l => if l.2.2 = x.pc then p ||| 2 ^ l.1 else p) x.passed }
  let imm := mwScImm w
  let f := mwFlow w
  let go (x : Walk) (ks : List Nat) : WalkStep := .go (ks.map fun k => { x with pc := k })
  if f = 5 then
    let n := callN imm
    let m := callM imm
    let y := { (x.setLimit ls 6 n).setLimit ls 7 m with w := some (n, m) }
    if (mwLib w).isSome then go y [x.pc + 1]
    else .go [{ y with pc := mwTarget w - customerLo, stack := (x.pc + 1) :: y.stack }]
  else
    let lcw : Option Nat := x.w.map fun p =>
      (clampI 1 65535 (((if mwScS w = 0 then p.1 else p.2 : Nat) : Int) + toInt 16 imm)).toNat
    if mwScOp w = 10 ∧ lcw.isNone then .bad
    else
      let x := if mwScOp w = 9 then x.setLimit ls (mwScD w % 8) imm
        else if mwScOp w = 10 then x.setLimit ls (mwScD w % 8) (lcw.getD 1) else x
      match f with
      | 4 => .go [{ x with pc := mwTarget w - customerLo, stack := (x.pc + 1) :: x.stack }]
      | 6 => match x.stack with
        | [] => .bad
        | r :: rs => .go [{ x with pc := r, stack := rs }]
      | 7 =>
        let (lim, li) := x.loops.getD (mwLc w) (none, 0)
        match lim with
        | none => .bad
        | some l =>
          if ¬ x.passed.testBit x.pc then .bad
          else if li + 1 < l then
            .go [{ x with pc := mwTarget w - customerLo, loops := listUpd x.loops (mwLc w) fun p => (p.1, li + 1) }]
          else go (x.setLimit ls (mwLc w) l) [x.pc + 1]
      | 8 | 10 => .done
      | _ => go x (flowSucc w x.pc false false)

/-- A path word that code 23 refuses in a stage or in background (R229). -/
def walkBad23 (bg : Bool) (w : Nat) (depth : Nat) : Bool :=
  match mwFlow w with
  | 8 => bg || depth != 0
  | 9 => !bg
  | 10 => !bg || depth != 0
  | _ => false

/-- What a walk has found so far: refusals 22 and 23, the longest count, the longest count to a decision, the outputs
decided on every path, those decided on some, and whether a decision carries bcn_req 2. -/
structure WalkSum where
  bad22 : Bool := false
  bad23 : Bool := false
  cycles : Nat := 0
  dec : Nat := 0
  sure : Nat := 0xFFFF
  some_ : Nat := 0
  full : Bool := false
  deriving DecidableEq, Repr

/-- A path with its count, its latest decision and the outputs it has decided. -/
structure FgPath where
  at_ : Walk
  cycles : Nat := 0
  dec : Nat := 0
  outs : Nat := 0
  deriving DecidableEq, Repr

/-- Adds a path to a front: paths at the same point keep the longest count and the outputs that both have decided. -/
def joinPath (p : FgPath) : List FgPath → List FgPath
  | [] => [p]
  | q :: qs =>
    if q.at_ = p.at_ then
      { q with cycles := max q.cycles p.cycles, dec := max q.dec p.dec, outs := q.outs &&& p.outs } :: qs
    else q :: joinPath p qs

/-- One word further on every path of a stage. -/
def fgRound (code : List Nat) (ls : List (Nat × Nat × Nat)) (front : List FgPath) (s : WalkSum) :
    List FgPath × WalkSum :=
  front.foldl (fun (a : List FgPath × WalkSum) p =>
    let w := code.getD p.at_.pc 0
    let c := p.cycles + mwCycles w (mwTimeout w)
    let isDec := (mwGlint w).testBit 4
    let o := if isDec then 2 ^ (mwGlint w % 16) else 0
    let p' : FgPath := { at_ := p.at_, cycles := c, dec := if isDec then c else p.dec, outs := p.outs ||| o }
    let s := { a.2 with bad23 := a.2.bad23 || walkBad23 false w p.at_.stack.length, some_ := a.2.some_ ||| o,
                        full := a.2.full || (isDec && mwBcnReq w == 2) }
    match walkStep code ls p.at_ with
    | .bad => (a.1, { s with bad22 := true })
    | .done => (a.1, { s with cycles := max s.cycles c, dec := max s.dec p'.dec, sure := s.sure &&& p'.outs })
    | .go xs => (xs.foldl (fun f x => joinPath { p' with at_ := x } f) a.1, s)) ([], s)

/-- Walks every path of a stage; a count beyond the fuel fits no 32-bit field. -/
def fgWalk (code : List Nat) (ls : List (Nat × Nat × Nat)) : Nat → List FgPath → WalkSum → WalkSum
  | 0, _, s => { s with cycles := 2 ^ 32 }
  | k + 1, front, s =>
    if front.isEmpty ∨ s.bad22 then s
    else
      let r := fgRound code ls front s
      fgWalk code ls k r.1 r.2

/-- The stretches of a library primitive of `t` cycles between its preemption points (R218). -/
def libStretches (entry n m opt : Nat) : Nat → Nat → List Nat
  | 0, t => if t = 0 then [] else [t]
  | k + 1, t =>
    if t = 0 then []
    else
      let c := min t (max 1 (Config.libStretch entry n m opt k))
      c :: libStretches entry n m opt k (t - c)

/-- The stretches of the library call in a microword, its wait in the first. -/
def mwStretches (w : Nat) : List Nat :=
  let n := callN (mwScImm w)
  let m := callM (mwScImm w)
  let o := callOpt (mwScImm w)
  let t := libCycles (mwTarget w) n m o
  libStretches (mwTarget w) n m o t t

/-- What a walk of the background has found: refusals and Y (R218). -/
structure BgSum where
  bad22 : Bool := false
  bad23 : Bool := false
  yield : Nat := 0
  deriving DecidableEq, Repr

/-- Adds a background point with the cycles since its latest preemption point. -/
def joinBg (x : Walk) (c : Nat) : List (Walk × Nat) → List (Walk × Nat)
  | [] => [(x, c)]
  | q :: qs => if q.1 = x then (q.1, max q.2 c) :: qs else q :: joinBg x c qs

/-- The path's next pass of the LOOP word is taken (R191). -/
def Walk.loopTaken (x : Walk) (w : Nat) : Bool :=
  mwFlow w == 7 && (match x.loops.getD (mwLc w) (none, 0) with
    | (some l, li) => decide (li + 1 < l)
    | _ => false)

/-- One word further on every background path. -/
def bgRound (code : List Nat) (ls : List (Nat × Nat × Nat)) (front : List (Walk × Nat)) (s : BgSum) :
    List (Walk × Nat) × BgSum :=
  front.foldl (fun (a : List (Walk × Nat) × BgSum) p =>
    let x := p.1
    let w := code.getD x.pc 0
    let t := mwTimeout w
    let st := mwStretches w
    let lib := (mwLib w).isSome
    let c := if lib ∧ 1 < st.length then p.2 + t + st.headD 0 else p.2 + mwCycles w t
    let inner := if lib then st.tail.dropLast.foldl max 0 else 0
    let s := { a.2 with bad23 := a.2.bad23 || walkBad23 true w x.stack.length || (mwGlint w).testBit 4 }
    match walkStep code ls x with
    | .bad => (a.1, { s with bad22 := true })
    | .done => (a.1, { s with yield := max s.yield c })
    | .go xs =>
      let point := mwFlow w = 9 ∨ x.loopTaken w
      let s := if lib ∧ 1 < st.length then { s with yield := max s.yield (max c inner) }
        else if point then { s with yield := max s.yield c } else s
      let after := if lib ∧ 1 < st.length then st.getLastD 0 else if point then 0 else c
      (xs.foldl (fun f y => joinBg y after f) a.1, s)) ([], s)

/-- Walks every background path. -/
def bgWalk (code : List Nat) (ls : List (Nat × Nat × Nat)) : Nat → List (Walk × Nat) → BgSum → BgSum
  | 0, _, s => { s with yield := 2 ^ 32 }
  | k + 1, front, s =>
    if front.isEmpty ∨ s.bad22 then s
    else
      let r := bgRound code ls front s
      bgWalk code ls k r.1 r.2

/-- The facts of an image whose words and targets have passed codes 1 to 21, with the refusals 22 and 23. -/
def progFacts (i : List (BitVec 8)) : ProgFacts × Bool × Bool :=
  let code := progCode i
  let ls := loopWords code
  let s := progStages i
  let entries := (List.range s).map fun k => progEntry i (k + 1) - customerLo
  let roots := entries ++ if progHasBg i then [progBgEntry i - customerLo] else []
  if hasCycle code roots ∨ badBody code then ({}, true, false)
  else
    let sums := entries.map fun e => fgWalk code ls (2 ^ 32) [{ at_ := { pc := e } }] {}
    let last : WalkSum := sums.getLastD {}
    let bg : BgSum := if progHasBg i then bgWalk code ls (2 ^ 32) [({ pc := progBgEntry i - customerLo }, 0)] {} else {}
    ({ fg := sums.map (·.cycles), dec := last.dec, decided := last.some_, fullLast := last.full,
       decOutside := sums.dropLast.any fun x => x.some_ != 0,
       missing := last.some_ &&& last.sure != last.some_, yield := bg.yield,
       fullRegs := code.foldl (fun a w => if mwBcnReq w = 2 then a ||| 2 ^ mwBcnReg w else a) 0,
       waits := (code.filter fun w => mwWaitCond w == 2).map fun w => (mwWaitArg w, mwTimeout w) },
     sums.any (·.bad22) || bg.bad22, sums.any (·.bad23) || bg.bad23)

/-- A timer record is in range with its reserved bits 0 (R227). -/
def timerOk (r : Nat) : Bool := bits r 0 24 != 0 && bits r 28 4 = 0 && bits r 56 8 = 0

/-- An edge-detector record is in range with its reserved bits 0 (R212, R227). -/
def edgeOk (r : Nat) : Bool :=
  let src := bits r 0 8
  (src ≤ 0x2A) && bits r 11 1 = 0 && bits r 20 12 = 0

/-- Check 20 fails: an entry, a target or the step from the last word leaves the loaded code, or bg_entry and flags
disagree (R229). -/
def progErr20 (i : List (BitVec 8)) : Bool :=
  let code := progCode i
  let n := code.length
  let inside (a : Nat) : Bool := customerLo ≤ a && a < customerLo + n
  let w := code.getLastD 0
  (List.range (progStages i)).any (fun k => !inside (progEntry i (k + 1))) ||
    (if progHasBg i then !inside (progBgEntry i) else progBgEntry i != 0xFFFF) ||
    code.any (fun w => (mwFlow w == 1 || mwFlow w == 2 || mwFlow w == 3 || mwFlow w == 4 || mwFlow w == 7 ||
      (mwFlow w == 5 && (mwLib w).isNone)) && !inside (mwTarget w)) ||
    (flowSucc w (n - 1) false false).contains n

/-- The first failing code of an image, with the word index of codes 1 to 9, and its facts (R229); `len` is SEQ_LOAD_LEN and
`patch` BOT_PATCH_VER. -/
def progErr (len patch : Nat) (i : List (BitVec 8)) : Nat × Nat × ProgFacts :=
  let n := progWords i
  let s := progStages i
  let roots := (List.range s).map (fun k => progEntry i (k + 1) - customerLo) ++
    if progHasBg i then [progBgEntry i - customerLo] else []
  let at_ (c : Nat) : Nat × Nat × ProgFacts := (c, 0, {})
  if crc32Field i 60 ≠ leAt i 60 4 then at_ 16
  else if leAt i 0 4 ≠ 0x49514553 ∨ leAt i 4 2 ≠ 1 ∨ 1 < leAt i 6 2 ∨ leAt i 40 20 ≠ 0 then at_ 17
  else if progLength i ≠ len ∨ progLength i ≠ 704 + 24 * n then at_ 18
  else if n = 0 ∨ 5632 < n ∨ s = 0 ∨ 64 < s then at_ 19
  else match wordErr (progCode i) (roots.filter (· < n)) with
  | some (k, c) => (c, k, {})
  | none =>
    if progErr20 i then at_ 20
    else if (if progHasBg i then progBgSave i < 0x80 ∨ 0xF79 < progBgSave i else progBgSave i ≠ 0) then at_ 21
    else
      let (f, b22, b23) := progFacts i
      if b22 then at_ 22
      else if b23 then at_ 23
      else if (List.range s).any (fun k => progFg i (k + 1) != f.fg.getD k 0) ∨ progFgTotal i ≠ f.fg.sum ∨
          progDec i ≠ f.dec ∨ progYield i ≠ f.yield then at_ 24
      else if ¬ (List.range 8).all (fun t => timerOk (progTimer i t)) ∨
          ¬ (List.range 16).all (fun e => edgeOk (progEdge i e)) ∨
          (List.range 64).any (fun k => bits (progStage i (k + 1)) 16 16 != 0 || (s ≤ k && progStage i (k + 1) != 0)) then at_ 25
      else if patch < progMinPatch i then at_ 26
      else (0, 0, f)

end Sys2Proof.Machine
end

