-- ==== Sys2Proof/Machine/TarnishBase.lean ====
section
/-! DEFINITION. What other units signal to Tarnish: the triggers of a replanning and the overruns (R525, R526, R533). -/

namespace Sys2Proof.Machine

/-- Changes the internal state of Tarnish. -/
def State.updTar (s : State) (f : Tarnish → Tarnish) : State := { s with tar := f s.tar }

/-- What Tarnish holds of an island. -/
def State.tarIsl (s : State) (i : Nat) : TarIsland := Sparse.get {} s.tar.islands i

/-- Changes what Tarnish holds of an island. -/
def State.updTarIsl (s : State) (i : Nat) (f : TarIsland → TarIsland) : State :=
  s.updTar fun t => { t with islands := Sparse.upd {} t.islands i f }

/-- A trigger of a replanning arrives (R525, R526). -/
def State.tarTrigger (s : State) (code : Nat) : State :=
  if ¬ s.bit TAR_CTRL.enable then s
  else
    let s := s.updTar fun t => { t with due := t.due ||| 2 ^ code }
    if s.bit TAR_STATUS.busy then s.put TAR_STATUS.pending 1 else s

/-- An overrun adds 5 ps to the penalty of each island that it names, up to 50 ps, and triggers a replanning (R257,
R533). -/
def State.tarOverrun (s : State) (islands : Nat) : State :=
  ((List.range 16).foldl (fun s i =>
    if islands.testBit i then s.put TAR_ISL_WARN.penalty (min 50 (s.get TAR_ISL_WARN.penalty i + 5)) i else s) s).tarTrigger 4

end Sys2Proof.Machine
end

