-- ==== Sys2Proof/Machine/Sequencer.lean ====
section
/-! DEFINITION. The sequencer's contexts, timers, edge detectors and slot: how a microword issues and what follows it
(R183 to R222, R637). -/

namespace Sys2Proof.Machine

/-- Changes the sequencer's internal state. -/
def State.updSeq (s : State) (f : Seq → Seq) : State := { s with seq := f s.seq }

/-- A physical customer half. -/
def State.half (s : State) (h : Nat) : Half := if h = 0 then s.seq.half0 else s.seq.half1

/-- Changes a physical customer half. -/
def State.updHalf (s : State) (h : Nat) (f : Half → Half) : State :=
  s.updSeq fun q => if h = 0 then { q with half0 := f q.half0 } else { q with half1 := f q.half1 }

/-- The physical half that is Active, or was last (R223). -/
def State.activeHalf (s : State) : Nat := s.get SEQ_STATUS.active_half

/-- The other half. -/
def State.umbraHalf (s : State) : Nat := 1 - s.activeHalf

/-- The Active half. -/
def State.active (s : State) : Half := s.half s.activeHalf

/-- The sequencer's state code (R225): 0 IDLE, 1 RUN, 2 FAULT. -/
def State.seqState (s : State) : Nat := s.get SEQ_STATUS.state

/-- The Umbra half's state code (R230). -/
def State.umbraState (s : State) : Nat := s.get SEQ_UMBRA_STATUS.state

/-- The period in fs of the slowest island in the margin plan in force (R242). -/
def State.pSlow (s : State) : Nat := (List.range 16).foldl (fun m i => max m (s.get ARR_ISL_CLK_PLAN.period_fs i)) 1

/-- L of a slot of period `t` fs (R217, R244). -/
def slotLength (t p : Nat) : Nat := t / p - 3

/-- Reports a SEQ_ERR bit. -/
def State.seqErr (s : State) (f : Fld) : State := s.err f

/-- A cleared context that starts at `pc` (R208). -/
def clearedCtx (pc : Nat) : Ctx := { pc := pc }

/-- S register `n` of a context. -/
def Ctx.reg (c : Ctx) (n : Nat) : Nat := Sparse.get 0 c.s n

/-- Writes S register `n`. -/
def Ctx.setReg (c : Ctx) (n v : Nat) : Ctx := { c with s := Sparse.set 0 c.s n (v % 2 ^ 32) }

/-- Loop counter `n` of a context. -/
def Ctx.loop (c : Ctx) (n : Nat) : LoopCtr := Sparse.get {} c.loops n

/-- Sets loop counter `n`. -/
def Ctx.setLoop (c : Ctx) (n lim li : Nat) : Ctx :=
  { c with loops := Sparse.set {} c.loops n { limit := lim, li := li } }

/-- The context of what issues microwords now. -/
def State.curCtx (s : State) : Ctx :=
  match s.seq.run.who with
  | some (.stage h _ _) => (s.half h).ctx
  | _ => s.seq.bg

/-- Changes the context of what issues microwords now. -/
def State.updCtx (s : State) (f : Ctx → Ctx) : State :=
  match s.seq.run.who with
  | some (.stage h _ _) => s.updHalf h fun x => { x with ctx := f x.ctx }
  | some .background => s.updSeq fun q => { q with bg := f q.bg }
  | none => s

/-- The microword at the context's PC, in the half that issues it (R193). -/
def State.curWord (s : State) : Nat :=
  match s.seq.run.who with
  | some (.stage h _ _) => progWord (s.half h).image (s.half h).ctx.pc
  | _ => progWord s.active.image s.seq.bg.pc

/-- What comes before the first microword of the slot has been done: the changes of the barrier (R16), the effects of its fast
commands and accepts (R39, R213) and its side-port accesses (R142, R143). -/
def State.barrierDone (s : State) : Bool :=
  s.gno.due.isEmpty && s.gno.effect.isNone && s.gno.acceptsDue.isEmpty && s.pri.turns == 0

/-- The sequencer can issue: it runs, a slot is open, no change of the barrier is outstanding, and something runs. -/
def State.canIssue (s : State) : Bool :=
  s.seqState = 1 && !s.seq.opening && s.barrierDone && s.seq.run.who.isSome

/-! ### Timers -/

/-- One tick of a timer (R209). -/
def State.timerTick (s : State) (t : Nat) : State :=
  if ¬ s.bit SEQ_TMR_STAT.running t then s
  else
    let c := s.get SEQ_TMR_STAT.count t
    if 2 ≤ c then s.put SEQ_TMR_STAT.count (c - 1) t
    else
      let s := s.put SEQ_TMR_STAT.expired 1 t
      if s.bit SEQ_TMR_CFG.periodic t then s.put SEQ_TMR_STAT.count (s.get SEQ_TMR_CFG.reload t) t
      else (s.put SEQ_TMR_STAT.count 0 t).put SEQ_TMR_STAT.running 0 t

/-- The ticks of a slot barrier: tick 1 always, tick 3 when the barrier opens the slot of an index-0 crossing (R209). -/
def State.timersAtBarrier (s : State) (orbitStart : Bool) : State :=
  (List.range 8).foldl (fun s t =>
    let k := s.get SEQ_TMR_CFG.tick t
    if k = 1 ∨ (k = 3 ∧ orbitStart) then s.timerTick t else s) s

/-- The time between two ticks of a timer of tick source 0 or 2, in fs: a sequencer cycle, P_slow, or 1 µs (R209, R217); 0 for the
others, which tick at barriers. -/
def State.tickLen (s : State) (t : Nat) : Nat :=
  match s.get SEQ_TMR_CFG.tick t with
  | 0 => s.pSlow
  | 2 => 1000000000
  | _ => 0

/-- Ticks of source 0 or 2 since the count was last brought up to date (R209). -/
def State.ticksSince (s : State) (t : Nat) : Nat :=
  if s.tickLen t = 0 ∨ ¬ s.bit SEQ_TMR_STAT.running t then 0 else (s.now - Sparse.get 0 s.seq.tmrFrom t) / s.tickLen t

/-- The count of a timer as it stands now (R209): the tick from 1 to 0 is a command. -/
def State.timerCount (s : State) (t : Nat) : Nat :=
  let c := s.get SEQ_TMR_STAT.count t
  if s.ticksSince t = 0 then c else max (min 1 c) (c - s.ticksSince t)

/-- Counts of source 0 and 2 go on from now. -/
def State.timerFrom (s : State) (t : Nat) : State := s.updSeq fun q => { q with tmrFrom := Sparse.set 0 q.tmrFrom t s.now }

/-- Brings a timer's count up to date. A running timer keeps the part of a tick that has passed; one that does not run counts
from now. -/
def State.timerSync (s : State) (t : Nat) : State :=
  let from_ := Sparse.get 0 s.seq.tmrFrom t + s.ticksSince t * s.tickLen t
  let running := s.bit SEQ_TMR_STAT.running t
  let s := s.put SEQ_TMR_STAT.count (s.timerCount t) t
  if running then s.updSeq fun q => { q with tmrFrom := Sparse.set 0 q.tmrFrom t from_ } else s.timerFrom t

/-- Brings the count of every timer up to date, before the length of a sequencer cycle changes. -/
def State.timersSync (s : State) : State := forN 8 s fun t s => s.timerSync t

/-- The tick that takes a running timer of tick source 0 or 2 from 1 to 0 (R209); the ticks before it are no commands. -/
def State.timerExpiry (s : State) (t : Nat) : State :=
  let k := s.get SEQ_TMR_CFG.tick t
  if (k = 0 ∨ k = 2) ∧ s.bit SEQ_TMR_STAT.running t then ((s.put SEQ_TMR_STAT.count 1 t).timerTick t).timerFrom t else s

/-- The command bits of SEQ_TMR_STAT, in the order load, stop, start (R210): bit 0 load, 1 stop, 2 start. -/
def State.timerCmd (s : State) (t cmd : Nat) : State :=
  let s := s.timerSync t
  let s := if cmd.testBit 0 then s.put SEQ_TMR_STAT.count (s.get SEQ_TMR_CFG.reload t) t else s
  let s := if cmd.testBit 1 then s.put SEQ_TMR_STAT.running 0 t else s
  if cmd.testBit 2 then s.put SEQ_TMR_STAT.running 1 t else s

/-- A write to SEQ_TMR_CFG_t: a reload of 0 stores 1 (R239). -/
def State.writeTimerCfg (s : State) (t m v : Nat) : State :=
  let was := s.get SEQ_TMR_CFG.tick t
  let s := (s.timerSync t).wrReg 6 (0x80 + 8 * t) m v
  let s := if s.get SEQ_TMR_CFG.tick t = was then s else s.timerFrom t
  if s.get SEQ_TMR_CFG.reload t = 0 then s.put SEQ_TMR_CFG.reload 1 t else s

/-! ### Edge detectors -/

/-- An event of detector `e` (R213): pending, or counted as lost where one is pending. -/
def State.edgeEvent (s : State) (e : Nat) (arg : Option Nat := none) : State :=
  if s.get SEQ_EDG.mode e = 0 then s
  else if s.bit SEQ_EDG.pending e then (s.inc SEQ_EDG_LOST_CNT.count).seqErr SEQ_ERR.edge_lost
  else
    let s := s.put SEQ_EDG.pending 1 e
    match arg with
    | some a => s.put SEQ_EDG.last_arg a e
    | none => s

/-- A sample of a level source at detector `e` (R213, R234). -/
def State.edgeSample (s : State) (e : Nat) (v : Bool) : State :=
  let first := s.seq.fresh.testBit e
  let old := s.bit SEQ_EDG.sample e
  let m := s.get SEQ_EDG.mode e
  let s := s.put SEQ_EDG.sample (b2n v) e
  if first then s.updSeq fun q => { q with fresh := q.fresh - 2 ^ e }
  else if (m.testBit 0 && v && !old) || (m.testBit 1 && !v && old) then s.edgeEvent e
  else s

/-- Every detector whose source satisfies `p`. -/
def State.eachEdge (s : State) (p : Nat → Bool) (f : Nat → State → State) : State :=
  (List.range 16).foldl (fun s e => if p (s.get SEQ_EDG.source e) then f e s else s) s

/-- A forwarded fast command reaches the detectors that name its code (R39, R212, R213); at a penumbra barrier no detector raises
an event (R234). -/
def State.seqFastCommand (s : State) (code arg : Nat) : State :=
  if code = 0 ∨ 0x1F < code ∨ s.seq.penumbra then s
  else s.eachEdge (· == code) fun e s =>
    if s.bit SEQ_EDG.arg_match e ∧ s.get SEQ_EDG.arg e ≠ arg then s else s.edgeEvent e (some arg)

/-- A request to BR register `r` settles: the detectors on its OR and on its count sample (R212). -/
def State.seqSettled (s : State) (r : Nat) : State :=
  let or := s.bit BCN_BR.or_ r
  let ge : Bool := s.active.ctx.reg 10 % 2 ^ 17 ≤ s.get BCN_BR.count r
  let s := s.eachEdge (· == 0x20 + r) fun e s => s.edgeSample e or
  s.eachEdge (· == 0x24 + r) fun e s => s.edgeSample e ge

/-- The detectors' events and samples of a slot barrier (R212): a penumbra barrier raises none of the events (R234). -/
def State.edgesAtBarrier (s : State) (orbitStart epoch : Bool) : State :=
  let hold := decide (s.gnoState = 4)
  let s := if orbitStart ∧ ¬ s.seq.penumbra then s.eachEdge (· == 0x28) fun e s => s.edgeEvent e else s
  let s := s.eachEdge (· == 0x29) fun e s => s.edgeSample e hold
  if epoch ∧ ¬ s.seq.penumbra then s.eachEdge (· == 0x2A) fun e s => s.edgeEvent e else s

/-! ### Conditions, scalar and flow operations -/

/-- Whether a condition holds (R190); `c` is the context and `stage` says that a stage issues. -/
def State.condHolds (s : State) (c : Ctx) (stage : Bool) (cond : Nat) : Bool :=
  if cond = 0 then true
  else if cond ≤ 4 then s.bit BCN_BR.or_ (cond - 1)
  else if cond ≤ 8 then c.reg 10 % 2 ^ 17 ≤ s.get BCN_BR.count (cond - 5)
  else if 0x10 ≤ cond ∧ cond ≤ 0x17 then s.bit SEQ_TMR_STAT.expired (cond - 0x10)
  else if 0x18 ≤ cond ∧ cond ≤ 0x27 then s.bit SEQ_EDG.pending (cond - 0x18)
  else match cond with
    | 0x28 => c.z
    | 0x29 => c.n
    | 0x2A => c.tgt
    | 0x2B => stage
    | _ => false

/-- A test consumes the timer or edge-detector event that it finds (R211). -/
def State.consumeCond (s : State) (cond : Nat) : State :=
  if 0x10 ≤ cond ∧ cond ≤ 0x17 then s.put SEQ_TMR_STAT.expired 0 (cond - 0x10)
  else if 0x18 ≤ cond ∧ cond ≤ 0x27 then s.put SEQ_EDG.pending 0 (cond - 0x18)
  else s

/-- Z and N of a result (R194). -/
def Ctx.flags (c : Ctx) (v : Nat) : Ctx := { c with z := v % 2 ^ 32 == 0, n := v.testBit 31 }

/-- Writes S[d] and sets Z and N (R194). -/
def Ctx.result (c : Ctx) (d v : Nat) : Ctx := (c.setReg d v).flags v

/-- `x` + 2³² − `y`, so that its low 32 bits are the difference. -/
def sub32 (x y : Nat) : Nat := (x + 2 ^ 32 - y % 2 ^ 32) % 2 ^ 32

/-- The first-responder index that BFIRST loads (R194). -/
def State.brFirst (s : State) (r : Nat) : Nat := if s.bit BCN_BR_FIRST.none r then 0xFFFFFFFF else s.get BCN_BR_FIRST.index r

/-- A scalar operation on a context (R194). -/
def State.scalarOp (s : State) (c : Ctx) (op d src imm : Nat) : Ctx :=
  match op with
  | 1 => c.result d imm
  | 2 => c.result d (imm * 65536 + c.reg d % 65536)
  | 3 => c.result d ((c.reg src + sext 16 32 imm) % 2 ^ 32)
  | 4 => c.result d (c.reg src)
  | 5 => c.result d (sub32 (c.reg src) (c.reg (imm % 16)))
  | 6 => c.result d (c.reg src &&& imm)
  | 7 => c.result d (s.get BCN_BR.count (src % 4))
  | 8 => c.result d (s.brFirst (src % 4))
  | 9 => c.setLoop (d % 8) imm 0
  | 10 => c.setLoop (d % 8) (clampI 1 65535 (((if src % 2 = 0 then c.wn else c.wm : Nat) : Int) + toInt 16 imm)).toNat 0
  | 11 => c.flags (sub32 (c.reg src) (c.reg (imm % 16)))
  | _ => c

/-- The scalar operation of what runs now. -/
def State.scalar (s : State) (op d src imm : Nat) : State := s.updCtx fun c => s.scalarOp c op d src imm

/-- Continues at an address. -/
def Ctx.goto (c : Ctx) (a : Nat) : Ctx := { c with pc := a % 2 ^ 14 }

/-- The next word. -/
def Ctx.next (c : Ctx) : Ctx := c.goto (c.pc + 1)

/-- CALL: pushes the next address and jumps (R192). -/
def Ctx.call (c : Ctx) (a : Nat) : Ctx := { c with stack := (c.pc + 1) :: c.stack }.goto a

/-- RET: pops and continues there (R192). -/
def Ctx.ret (c : Ctx) : Ctx :=
  match c.stack with
  | [] => c
  | r :: rs => { c with stack := rs }.goto r

/-- LOOP jumps (R191). -/
def Ctx.loopTaken (c : Ctx) (lc : Nat) : Bool := (c.loop lc).li + 1 < (c.loop lc).limit

/-- LOOP (R191). -/
def Ctx.doLoop (c : Ctx) (lc a : Nat) : Ctx :=
  let l := c.loop lc
  if c.loopTaken lc then (c.setLoop lc l.limit (l.li + 1)).goto a else (c.setLoop lc l.limit 0).next

/-- An address of a microword (R180). -/
def Ctx.address (c : Ctx) (imm base idx : Nat) : Nat :=
  let b := match base with
    | 0 => 0
    | 1 => c.reg 12
    | 2 => c.reg 13
    | 3 => c.reg 14
    | 4 => c.reg 15
    | 5 => c.reg 8
    | 6 => c.reg 9
    | _ => c.reg 10
  let li := (c.loop (idx % 8)).li % 4096
  let x := if idx.testBit 4 then (if idx.testBit 3 then 4096 - li else li) else 0
  (imm + b % 4096 + x) % 4096

/-- The addresses a, b and w of a microword. -/
def Ctx.addrA (c : Ctx) (w : Nat) : Nat := c.address (mwAImm w) (mwABase w) (mwAIdx w)
def Ctx.addrB (c : Ctx) (w : Nat) : Nat := c.address (mwBImm w) (mwBBase w) (mwBIdx w)
def Ctx.addrW (c : Ctx) (w : Nat) : Nat := c.address (mwWImm w) (mwWBase w) (mwWIdx w)

/-- The call arguments of a PCALL (R195). -/
def Ctx.pcallArgs (c : Ctx) (a b w bsrc src imm : Nat) : Ctx :=
  let c := (((c.setReg 12 a).setReg 13 b).setReg 14 w).setReg 15 (c.reg src)
  let c := { c with asrc := if bsrc = 5 then c.asrc else bsrc, wn := callN imm, wm := callM imm, opt := callOpt imm }
  (c.setLoop 6 (callN imm) 0).setLoop 7 (callM imm) 0

/-! ### The array part and the Beacon request -/

/-- The destination that a code names (R182). -/
def destOf (code : Nat) : Dest :=
  match code with
  | 1 => .mem
  | 2 => .f
  | 3 => .x
  | 4 => .y
  | 5 => .m
  | _ => .none

/-- The third input that a code names (R182). -/
def kSrcOf (code : Nat) : KSrc :=
  match code with
  | 1 => .f
  | 2 => .x
  | 3 => .y
  | _ => .c

/-- The array operation of a microword under a context (R180 to R182). -/
def mwArrayOp (c : Ctx) (w : Nat) : ArrayOp where
  aAddr := c.addrA w
  bAddr := c.addrB w
  bSrc := bSrcOf (if mwBSrc w = 5 then c.asrc else mwBSrc w)
  kSrc := kSrcOf (mwKSrc w)
  ttR := mwTtR w
  ttC := mwTtC w
  dest := destOf (mwDest w)
  wAddr := c.addrW w
  carry := mwCarry w = 1
  all := mwMask w = 1

/-- Step 3 of R183: every executing PE performs the array operation; a constant operand comes from S11. A PCALL performs none and
moves no halo entry (R157, R195). -/
def State.mwArray (s : State) (c : Ctx) (w : Nat) : State :=
  let o := mwArrayOp c w
  let src := if mwBSrc w = 5 then c.asrc else mwBSrc w
  let s := if mwFlow w = 5 then s.offerWords 1 else (s.offerWords 1).offerHalo o.bSrc 1
  if mwDest w = 0 ∧ mwCarry w = 0 then s
  else if src = 6 then s.arrayOpWith o (splat ((c.reg 11).testBit (o.bAddr % 32)))
  else s.arrayOp o

/-- Changes the pending release of a crossing. -/
def State.updRelease (s : State) (half serial : Nat) (f : Release → Release) : State :=
  s.updSeq fun q => { q with releases := q.releases.map fun r => if r.serial = serial ∧ r.half = half then f r else r }

/-- A Beacon request of what runs now: F and M of the islands in SERVICE (R184, R185, R261, R267). -/
def State.beaconRequest (s : State) (req reg : Nat) (glint : Option Nat) (ext addr : Nat) : State :=
  if req = 0 then s
  else
    let (serial, half) := match s.seq.run.who with
      | some (.stage h _ c) => (some c, h)
      | _ => (none, s.activeHalf)
    let r : BcnReq := { reg := reg, full := req = 2, glint := glint, ext := ext, serial := serial, half := half, addr := addr,
                        responders := s.arr.f &&& s.arr.m &&& s.pesWhere inService,
                        contrib := bitSet 16 fun i => inService (s.islState i) }
    let s := s.updSeq fun q => { q with requests := q.requests ++ [r] }
    match glint, serial with
    | some n, some c => s.updRelease half c fun x =>
        { x with outs := Sparse.upd {} x.outs n fun l => { l with issued := l.issued + 1 } }
    | _, _ => s

/-- Step 4 of R183. -/
def State.mwBeacon (s : State) (w addr : Nat) : State :=
  s.beaconRequest (mwBcnReq w) (mwBcnReg w) (if (mwGlint w).testBit 4 then some (mwGlint w % 16) else none) (mwBcnExt w) addr

/-- A microword with trace set is recorded (R637). -/
def State.traceWord (s : State) (w addr cycle : Nat) (tgt : Bool) : State :=
  if mwTrace w = 0 ∨ ¬ s.bit DBG_CTRL.trace_en then s
  else
    let r := s.seq.run
    let stage := match r.who with
      | some (.stage ..) => true
      | _ => false
    let e : TraceEntry := { addr := addr, cycle := cycle % 65536, serial := if r.foreground then r.serial % 2 ^ 32 else 0,
                            flags := b2n stage + 2 * b2n (!r.foreground) + 4 * b2n tgt }
    if s.seq.trace.length < 4096 then
      let s := s.updSeq fun q => { q with trace := q.trace ++ [e] }
      s.put DBG_TRACE_STATUS.entries s.seq.trace.length
    else if s.bit DBG_CTRL.wrap then
      (s.updSeq fun q => { q with trace := q.trace.drop 1 ++ [e] }).err DBG_ERR.trace_overflow
    else (s.put DBG_TRACE_STATUS.stopped 1).err DBG_ERR.trace_overflow

/-! ### Background (R218 to R222) -/

/-- The Active program has a background program. -/
def State.hasBg (s : State) : Bool := progHasBg s.active.image

/-- Y of the Active program. -/
def State.bgY (s : State) : Nat := progYield s.active.image

/-- Uses cycle numbers of the slot. -/
def State.useCycles (s : State) (n : Nat) : State := s.updSeq fun q => { q with run := { q.run with used := q.run.used + n } }

/-- Nothing is issued any more in the slot. -/
def State.stopIssue (s : State) : State :=
  s.updSeq fun q => { q with run := { q.run with who := none, todo := [], waiting := false } }

/-- The five internal save microwords (R219). -/
def State.bgSave (s : State) : State :=
  let ex := s.pesWhere executing
  let b := progBgSave s.active.image
  let a := s.arr
  ([a.c, a.m, a.f, a.x, a.y].zipIdx.foldl (fun s p => s.setPlane (b + p.2) p.1 ex) s).offerWords 5 |>.useCycles 5

/-- The five internal restore microwords (R220). -/
def State.bgRestore (s : State) : State :=
  let ex := s.pesWhere executing
  let p (k : Nat) := s.plane (progBgSave s.active.image + k)
  let a := s.arr
  { s with arr := { a with c := mixBits a.c (p 0) ex, m := mixBits a.m (p 1) ex, f := mixBits a.f (p 2) ex,
                           x := mixBits a.x (p 3) ex, y := mixBits a.y (p 4) ex } }.offerWords 5 |>.useCycles 5

/-- The pass in progress is discarded and the next one starts at bg_entry with a cleared context (R208, R222, R585). -/
def State.bgDiscard (s : State) : State :=
  let s := s.updSeq fun q => { q with bg := clearedCtx (progBgEntry s.active.image), lib := none, bgFresh := true,
                                      inPass := false, abortPass := false }
  s.put SEQ_BG_STATUS.suspended 0

/-- A preemption point (R218, R219): the sequencer continues or suspends the pass. -/
def State.preempt (s : State) : State :=
  let s := if s.seq.abortPass then s.bgDiscard else s
  let r := s.seq.run
  if s.bit SEQ_BG_CTRL.enable ∧ r.used + s.bgY + 5 ≤ r.length then s
  else
    let s := s.bgSave.stopIssue
    s.put SEQ_BG_STATUS.suspended (b2n (!s.seq.bgFresh))

/-- Background starts in a slot after its last STAGE_END, or at cycle 1 of a slot without stages (R220, R221). -/
def State.bgStart (s : State) : State :=
  let r := s.seq.run
  if ¬ s.hasBg ∨ ¬ s.bit SEQ_BG_CTRL.enable ∨ r.claimed then s.stopIssue
  else
    let need := if s.seq.bgFresh then r.used + 5 + s.bgY else r.used + 10 + s.bgY
    if r.length < need then ((s.inc SEQ_BG_STARVE_CNT.count).seqErr SEQ_ERR.bg_starved).stopIssue
    else
      let s := if s.seq.bgFresh then
          s.updSeq fun q => { q with bg := { q.bg with pc := progBgEntry s.active.image, stack := [] } }
        else s.bgRestore
      let s := s.updSeq fun q => { q with run := { q.run with who := some .background } }
      (s.put SEQ_BG_STATUS.suspended 0).put SEQ_BG_STATUS.started 1

/-- The next stage of the slot starts with PC at its entry and an empty call stack, or background does (R215, R216). -/
def State.nextStage (s : State) : State :=
  match s.seq.run.todo with
  | [] => (s.updSeq fun q => { q with run := { q.run with who := none } }).bgStart
  | (h, k, c) :: rest =>
    let s := s.updHalf h fun x => { x with ctx := { x.ctx with pc := progEntry x.image k, stack := [] } }
    s.updSeq fun q => { q with run := { q.run with who := some (.stage h k c), todo := rest } }

/-- STAGE_END (R215, R217). -/
def State.stageEnd (s : State) : State :=
  match s.seq.run.who with
  | some (.stage h k c) =>
    let s := s.updHalf h fun x => { x with ran := x.ran ++ [(k, c)] }
    let u := min 0xFFFF s.seq.run.used
    let s := (s.put SEQ_FG_CYCLES.last u).raiseTo SEQ_FG_CYCLES.max u
    s.nextStage
  | _ => s

/-- YIELD: a preemption point of background (R218). -/
def State.yieldPoint (s : State) : State :=
  match s.seq.run.who with
  | some .background => (s.updCtx Ctx.next).preempt
  | _ => s

/-- BG_END (R222, R585): the pass ends and is counted, unless an abort has come; the next one starts at bg_entry. -/
def State.bgEnd (s : State) : State :=
  match s.seq.run.who with
  | some .background =>
    if s.seq.abortPass then s.preempt
    else
      let s := (s.put SEQ_BG_STATUS.pass_done 1).inc SEQ_BG_PASS_CNT.count
      let s := s.updSeq fun q => { q with bgFresh := true, inPass := false, passDone := true,
                                          bg := { q.bg with pc := progBgEntry s.active.image, stack := [] } }
      s.preempt
  | _ => s

/-- A write of 1 to SEQ_BG_CTRL.abort (R222, R583, R585). -/
def State.bgAbort (s : State) : State :=
  if s.seq.inPass then
    if s.seq.abortPass then s
    else
      let s := (s.put SEQ_BG_STATUS.pass_aborted 1).seqErr SEQ_ERR.aborted
      let running := match s.seq.run.who with
        | some .background => true
        | _ => false
      if running then s.updSeq fun q => { q with abortPass := true } else s.bgDiscard
  else if s.seq.passDone then s.seqErr SEQ_ERR.abort_too_late
  else s

/-! ### Flow of what runs now -/

/-- A conditional jump (R189, R211): `sense` is the outcome that jumps. -/
def State.flowIf (s : State) (cond target : Nat) (sense : Bool) : State :=
  let stage := match s.seq.run.who with
    | some (.stage ..) => true
    | _ => false
  let t := s.condHolds s.curCtx stage cond
  let s := s.consumeCond cond
  s.updCtx fun c => if t = sense then c.goto target else c.next

/-- LOOP of what runs now; a taken one is a preemption point of background (R191, R218). -/
def State.flowLoop (s : State) (lc target : Nat) : State :=
  let taken := s.curCtx.loopTaken lc
  let s := s.updCtx fun c => c.doLoop lc target
  match s.seq.run.who with
  | some .background => if taken then s.preempt else s
  | _ => s

/-- The call that a context's arguments describe. -/
def Ctx.libCall (c : Ctx) (entry : Nat) : LibCall :=
  { entry := entry, a := c.reg 12 % 4096, b := c.reg 13 % 4096, d := c.reg 14 % 4096, t := c.reg 15 % 4096, asrc := c.asrc,
    k := c.reg 11, n := c.wn, m := c.wm, opt := c.opt }

/-- A primitive returns: its results stand, and the context holds what R198 leaves. -/
def State.libReturn (s : State) (p : LibPlan) : State :=
  let s := s.libFinish p
  let s := s.updCtx fun c => (libCtx c s.freeCount).next
  { s with freeCount := s.freeCount + libCtxFree }

/-- The primitive reads neighbours (R199): it is one of those of neighbour sums, maxima and counts, or ASRC names a neighbour. -/
def LibCall.neighbours (x : LibCall) : Bool :=
  (decide (0xA0 ≤ x.entry) && decide (x.entry ≤ 0xD0)) || (decide (1 ≤ x.asrc) && decide (x.asrc ≤ 4))

/-- `n` microwords of a primitive are offered to the islands out of service (R14). How many halo entries they push toward such an
island the spec does not state: what each counts of those is free. -/
def State.libOffer (s : State) (x : LibCall) (n : Nat) : State :=
  let s := s.offerWords n
  if ¬ x.neighbours then s
  else (List.range 16).foldl (fun s i =>
    let near := [BSrc.north, .east, .south, .west].any fun d => (s.neighbourIsl d i).any fun j => executing (s.islState j)
    if offered (s.islState i) ∧ near then (s.add ARR_ISL_DISCARD_CNT.count (s.fresh 16) i).tookFree else s) s

/-- Background runs the next stretch of the primitive it is in: cycles `c`, then a preemption point, or the return (R218). The
PCALL itself is `own` of them in the first stretch. -/
def State.libStretch (s : State) (r : LibRun) (own : Nat) : State :=
  match r.stretches with
  | [] => s
  | [c] => ((s.updSeq fun q => { q with lib := none }).libOffer r.plan.call (c - own)).useCycles c |>.libReturn r.plan
  | c :: rest =>
    let s := ((s.updSeq fun q => { q with lib := some { r with stretches := rest } }).libOffer r.plan.call (c - own)).useCycles c
    (s.libPartial r.plan).preempt

/-- PCALL with its arguments loaded from the given addresses (R195, R199): a library entry runs, a customer routine is
entered. A stage runs a primitive at once; background runs its first stretch. -/
def State.pcall (s : State) (a b w bsrc src imm target : Nat) : State :=
  let s := s.updCtx fun c => c.pcallArgs a b w bsrc src imm
  match libEntry target with
  | none => s.updCtx fun c => c.call target
  | some _ =>
    let p := s.libPlan (s.curCtx.libCall target)
    let t := libCycles target p.call.n p.call.m p.call.opt
    match s.seq.run.who with
    | some .background => s.libStretch { plan := p, stretches := libStretches target p.call.n p.call.m p.call.opt t t } 1
    | some (.stage ..) => ((s.libOffer p.call (t - 1)).useCycles t).libReturn p
    | none => s

/-! ### One microword -/

/-- The condition of a wait holds (R187). -/
def State.waitHolds (s : State) (cond arg : Nat) : Bool :=
  match cond with
  | 1 => (s.get ARR_WHALO_READY.ready).testBit arg
  | 2 => s.seq.requests.all fun r => r.reg != arg % 4
  | 3 => s.bit HBM_XFER_STATUS.grant (arg % 4)
  | 4 => s.bit SEQ_EDG.pending (arg % 16)
  | 5 => s.bit SEQ_TMR_STAT.expired (arg % 8)
  | _ => false

/-- Flow and scalar parts of a microword: cond is judged before the scalar operation (R183, steps 5 to 7). -/
def State.mwFlowStep (s : State) (w : Nat) : State :=
  let stage := match s.seq.run.who with
    | some (.stage ..) => true
    | _ => false
  let f := mwFlow w
  let t := s.condHolds s.curCtx stage (mwCond w)
  let tests := f = 2 ∨ f = 3
  let s' := if tests then s.consumeCond (mwCond w) else s
  let s' := if f = 5 then s' else s'.updCtx fun c => s.scalarOp c (mwScOp w) (mwScD w) (mwScS w) (mwScImm w)
  match f with
  | 1 => s'.updCtx fun c => c.goto (mwTarget w)
  | 2 => s'.updCtx fun c => if t then c.goto (mwTarget w) else c.next
  | 3 => s'.updCtx fun c => if t then c.next else c.goto (mwTarget w)
  | 4 => s'.updCtx fun c => c.call (mwTarget w)
  | 5 =>
    let c := s.curCtx
    s'.pcall (c.addrA w) (c.addrB w) (c.addrW w) (mwBSrc w) (mwScS w) (mwScImm w) (mwTarget w)
  | 6 => s'.updCtx Ctx.ret
  | 7 => s'.flowLoop (mwLc w) (mwTarget w)
  | 8 => s'.stageEnd
  | 9 => s'.yieldPoint
  | 10 => s'.bgEnd
  | _ => s'.updCtx Ctx.next

/-- The cycles that a microword takes before its flow step counts its own: a PCALL of a library entry counts itself in its
formula (R197, R199). -/
def ownCycles (w : Nat) : Nat := if (mwLib w).isSome then 0 else 1

/-- The running microword is performed after a wait of `k` cycles (R183, R197, R217). It is not issued where it would
occupy a number above L. -/
def State.performWord (s : State) (k : Nat) : State :=
  let w := s.curWord
  let c := s.curCtx
  let r := s.seq.run
  let bg := match r.who with
    | some .background => true
    | _ => false
  let need := if bg then k + ownCycles w + (if (mwLib w).isSome then (mwStretches w).headD 0 else 0) else mwCycles w k
  if r.length < r.used + need then s.stopIssue
  else
    let s := s.updSeq fun q => { q with run := { q.run with waiting := false },
                                        inPass := q.inPass || bg, passDone := q.passDone && !bg,
                                        bgFresh := q.bgFresh && !bg }
    let s := s.traceWord w c.pc (r.used + k + 1) c.tgt
    let s := s.useCycles (k + ownCycles w)
    let s := s.mwArray c w
    let s := s.mwBeacon w c.pc
    s.mwFlowStep w

/-- Issue of the next microword, or of the next stretch of the primitive that background is in; a wait whose condition does
not hold yet begins (R183, R188). -/
def State.microwordIssue (s : State) : State :=
  if ¬ s.canIssue ∨ s.seq.run.waiting then s
  else
    match s.seq.run.who, s.seq.lib with
    | some .background, some r =>
      if s.seq.run.length < s.seq.run.used + r.stretches.headD 0 then s.stopIssue else s.libStretch r 0
    | _, _ =>
      let w := s.curWord
      if mwWaitCond w = 0 then s.performWord (mwTimeout w)
      else if mwWaitMode w = 0 ∧ s.waitHolds (mwWaitCond w) (mwWaitArg w) then
        let s := if mwWaitCond w = 4 then s.put SEQ_EDG.pending 0 (mwWaitArg w % 16)
          else if mwWaitCond w = 5 then s.put SEQ_TMR_STAT.expired 0 (mwWaitArg w % 8) else s
        (s.updCtx fun c => { c with tgt := false }).performWord 0
      else s.updSeq fun q => { q with run := { q.run with waiting := true } }

/-- A waiting microword is released on its condition after `k` cycles (R188, R211). -/
def State.waitRelease (s : State) (k : Nat) : State :=
  let w := s.curWord
  if ¬ s.canIssue ∨ ¬ s.seq.run.waiting ∨ ¬ s.waitHolds (mwWaitCond w) (mwWaitArg w) ∨
      (if mwWaitMode w = 1 then k ≠ mwTimeout w else mwTimeout w < k) then s
  else
    let s := if mwWaitCond w = 4 then s.put SEQ_EDG.pending 0 (mwWaitArg w % 16)
      else if mwWaitCond w = 5 then s.put SEQ_TMR_STAT.expired 0 (mwWaitArg w % 8) else s
    (s.updCtx fun c => { c with tgt := false }).performWord k

/-- A wait reaches its timeout without its condition (R188). -/
def State.waitTimeout (s : State) : State :=
  let w := s.curWord
  if ¬ s.canIssue ∨ ¬ s.seq.run.waiting ∨ s.waitHolds (mwWaitCond w) (mwWaitArg w) then s
  else
    let s := (s.inc SEQ_WAIT_TO_CNT.count).seqErr SEQ_ERR.wait_timeout
    (s.updCtx fun c => { c with tgt := true }).performWord (mwTimeout w)

/-- Cycles that islands stretched while the microword ran: halo stalls and queue stalls by island (R157, R159). -/
def State.addStalls (s : State) (halo queue : List (Fin 16 × Nat)) : State :=
  let s := halo.foldl (fun s p => s.add ARR_ISL_HALO_STALL.cycles p.2 p.1.val) s
  queue.foldl (fun s p => s.add ARR_ISL_Q_STALL.cycles p.2 p.1.val) s

/-! ### The slot opens (R214 to R217, R251, R271) -/

/-- The stages of a half that run for the crossings before `serial`, in descending order (R214). -/
def stagesOf (x : Half) (h lo serial : Nat) : List (Nat × Nat × Nat) :=
  ((List.range (progStages x.image)).reverse.map (· + 1)).filterMap fun k =>
    let c := (serial + 2 ^ 64 - (k - 1)) % 2 ^ 64
    if k < lo then none
    else if k = 1 ∨ x.ran.contains (k - 1, c) then some (h, k, c) else none

/-- A DRAINING half goes to EMPTY (R231). -/
def State.drainDone (s : State) : State :=
  let s := (s.put SEQ_UMBRA_STATUS.state 0).put SEQ_STATUS.drain_left 0
  s.updHalf s.umbraHalf fun _ => {}

/-- The pending release of a crossing whose stage 1 starts (R21, R271). -/
def State.addRelease (s : State) (serial : Nat) : State :=
  let r : Release := { serial := serial, instant := s.seq.edgeAt + s.seq.edgePromise * 1000000, half := s.activeHalf,
                       set := s.active.facts.decided }
  s.updSeq fun q => { q with releases := q.releases ++ [r] }

/-- Shows the pending releases (R280). -/
def State.publishReleases (s : State) : State :=
  let k := s.seq.releases.length
  (s.put BCN_STATUS.releasing (b2n (k != 0))).put BCN_STATUS.pending (min 255 k)

/-- Crossings of a half whose chain is broken lose their release (R214, R271). -/
def State.dropReleases (s : State) (p : Release → Bool) : State :=
  s.updSeq fun q => { q with releases := q.releases.filter fun r => !p r }

/-- The releases under the stages of a slot: a crossing whose last stage is among them keeps its release for good, and one
whose last stage has not been reached keeps it only while its next stage is among them (R214, R271). -/
def State.scheduleReleases (s : State) (stages : List (Nat × Nat × Nat)) : State :=
  let s := s.dropReleases fun r => !r.last && !stages.any fun x => x.1 == r.half && x.2.2 == r.serial
  let final := fun r : Release =>
    stages.any fun x => x.1 == r.half && x.2.2 == r.serial && x.2.1 == progStages (s.half x.1).image
  s.updSeq fun q => { q with releases := q.releases.map fun r => if final r then { r with last := true } else r }

/-- The SRAM sweep of island `i` advances by one step (R523). A sweep of 512 steps ends with a reading, in steps of 5 mV from 550 to
850 mV (R521): a measurement, and so a free value. -/
def State.sweepIsland (s : State) (i : Nat) : State :=
  let n := (s.tarIsl i).sweep + 1
  let s := s.updTarIsl i fun x => { x with sweep := n % 512 }
  if n < 512 then s
  else ((s.put TAR_ISL_VMIN.mv (550 + 5 * (Config.free s.freeCount % 61)) i).put TAR_ISL_VMIN.stale 0 i).tookFree

/-- In a claimed slot the vendor probe program advances the SRAM sweep of every executing island by one step (R523). -/
def State.sweepStep (s : State) : State :=
  (List.range 16).foldl (fun s i => if executing (s.islState i) then s.sweepIsland i else s) s

/-- The vendor probe claims the slot that opens (R221). -/
def State.probeClaims (s : State) : Bool :=
  let v := s.get SEQ_BG_CTRL.vendor_period
  v != 0 && s.seq.probe % v == 0

/-- The slot opens: the run of its stages, or background (R214 to R217, R225, R251). -/
def State.openSlot (s : State) : State :=
  let enter := s.seq.enters
  let held := s.bit SEQ_ADM_STATUS.held
  let fg := enter.isSome
  let serial := (enter.map (·.1)).getD 0
  let run := s.seqState = 1
  let t := if fg then s.get GNO_PERIOD_MIN.period_fs else s.get GNO_IDLE_PERIOD.ns * 1000000
  let claim := s.probeClaims
  let open_ : Run := { foreground := fg, serial := serial, length := slotLength t s.pSlow, claimed := claim }
  let s := s.updSeq fun q => { q with opening := false, enters := none, probe := q.probe + 1, run := open_ }
  let s := if claim then s.sweepStep else s
  let u := s.umbraHalf
  let draining := s.umbraState = 6
  let runs : Bool := fg && run && !held
  let old := if runs ∧ draining then stagesOf (s.half u) u 2 serial else []
  let new := if runs then stagesOf s.active s.activeHalf 1 serial else []
  let s := s.updSeq fun q => { q with half0 := { q.half0 with ran := [] }, half1 := { q.half1 with ran := [] } }
  let s := if draining ∧ old.isEmpty then s.drainDone else s
  let s := if fg ∧ run ∧ held then s.inc SEQ_LOST_DECISIONS.count else s
  let s := if runs then s.addRelease serial else s
  let s := (s.scheduleReleases (old ++ new)).publishReleases
  if ¬ run then s
  else (s.updSeq fun q => { q with run := { q.run with todo := old ++ new } }).nextStage

/-- The slot opens once no change of its barrier is outstanding (R16). -/
def State.openIfReady (s : State) : State :=
  if s.seq.opening ∧ s.gno.due.isEmpty then s.openSlot else s

end Sys2Proof.Machine
end

