-- ==== Sys2Proof/Machine/Beacon.lean ====
section
/-! DEFINITION. Beacon reduction, the Glint stage and BUSY (R255 to R279). -/

namespace Sys2Proof.Machine

/-! ### Glint outputs -/

/-- The internal state of Glint output `n`. -/
def State.glint (s : State) (n : Nat) : Glint := Sparse.get {} s.seq.glints n

/-- Changes Glint output `n`. -/
def State.updGlint (s : State) (n : Nat) (f : Glint → Glint) : State :=
  s.updSeq fun q => { q with glints := Sparse.upd {} q.glints n f }

/-- The configuration words of output `n` as written: BCN_GL_CFG, BCN_GL_THRESH, BCN_GL_WIDTH. -/
def State.glintWords (s : State) (n : Nat) : Nat × Nat × Nat :=
  (s.regWord 7 (0x100 + 0x20 * n), s.regWord 7 (0x104 + 0x20 * n), s.regWord 7 (0x108 + 0x20 * n))

/-- The configuration words in force (R275). -/
def State.glintCfg (s : State) (n : Nat) : Nat × Nat × Nat := ((s.glint n).old).getD (s.glintWords n)

/-- The largest width that fits GNO_PERIOD_MIN (R273). -/
def State.widthFit (s : State) : Nat := (s.get GNO_PERIOD_MIN.period_fs - 1000000) / 250000

/-- The width that the Glint stage applies (R273). -/
def State.widthUsed (s : State) (n : Nat) : Nat := min (s.glintCfg n).2.2 s.widthFit

/-- Shows the width applied. -/
def State.publishWidth (s : State) (n : Nat) : State := s.put BCN_GL_STATUS.width_used (min 255 (s.widthUsed n)) n

/-- The Glint outputs and BUSY are driven at all: Dawn has completed, and the device is not in Eclipse or Dusk state 6 (R279,
R565). -/
def State.pinsDriven (s : State) : Bool :=
  s.bit BOT_STATUS.dawn_done && s.get PWR_STATUS.state != 2 && s.get PWR_STATUS.state != 6

/-- Output `n` is driven at a level with the polarity in force, `pulse` saying that the level ends by itself; zero differential
where the outputs are not driven (R272, R275, R279). -/
def State.driveGlint (s : State) (n level : Nat) (pulse : Bool) : State :=
  let inv := (s.glintCfg n).1.testBit 2
  s.updGlint n fun g =>
    if s.pinsDriven then { g with level := level, invert := inv, pulse := pulse } else { g with level := 2, pulse := false }

/-- GLINT_P/N of output `n`: P above N, N above P, or none at zero differential (R272). -/
def State.glintPin (s : State) (n : Nat) : Option Bool :=
  match (s.glint n).level with
  | 0 => some (s.glint n).invert
  | 1 => some !(s.glint n).invert
  | _ => none

/-- Output `n` takes its idle level (R274): 0 inactive, 1 active, 2 zero differential. -/
def State.glintIdle (s : State) (n : Nat) : State :=
  (s.driveGlint n (bits (s.glintCfg n).1 3 2) false).put BCN_GL_STATUS.idle 1 n

/-- Every output takes its idle level (R274). -/
def State.glintsIdle (s : State) : State := (List.range 16).foldl (fun s n => s.glintIdle n) s

/-- A write to a register of Glint output `n` at block offset `off` (R273, R275). -/
def State.writeGlint (s : State) (n off m v : Nat) : State :=
  let old := s.glintWords n
  let c0 := s.glintCfg n
  let mode := s.get BCN_GL_CFG.mode n
  let idle := s.get BCN_GL_CFG.idle n
  let comb := s.get BCN_GL_CFG.combine n
  let s := s.wrReg 7 (0x100 + 0x20 * n + off) m v
  let s := if off = 0 then
      let b0 := s.get BCN_GL_CFG.mode n = 3
      let b1 := s.get BCN_GL_CFG.idle n = 3
      let b2 := s.get BCN_GL_CFG.combine n = 3
      let s := if b0 then s.put BCN_GL_CFG.mode mode n else s
      let s := if b1 then s.put BCN_GL_CFG.idle idle n else s
      let s := if b2 then s.put BCN_GL_CFG.combine comb n else s
      if b0 ∨ b1 ∨ b2 then s.err BCN_ERR.bad_cfg 0 n else s
    else if off = 8 then
      let w := max 4 (s.get BCN_GL_WIDTH.width n)
      if s.widthFit < w then (s.put BCN_GL_WIDTH.width s.widthFit n).err BCN_ERR.width_clamped 0 n
      else s.put BCN_GL_WIDTH.width w n
    else s
  if s.glintWords n = old then s else s.updGlint n fun g => { g with old := some c0 }

/-- A write to SEQ_OVR_VALUE waits for the next slot barrier (R258). -/
def State.writeOvr (s : State) (m v : Nat) : State :=
  let o := s.seq.oldOvr.getD (s.get SEQ_OVR_VALUE.value)
  (s.wrReg 6 0x624 m v).updSeq fun q => { q with oldOvr := some o }

/-- Written configuration comes into force (R258, R275); an output that no launch drives follows its idle code (R274). -/
def State.glintsAtBarrier (s : State) : State :=
  let s := s.updSeq fun q => { q with oldOvr := none }
  (List.range 16).foldl (fun s n =>
    let s := (s.updGlint n fun g => { g with old := none }).publishWidth n
    if s.bit BCN_GL_STATUS.idle n then s.glintIdle n else s) s

/-- The stored widths are checked against newly published periods (R273). -/
def State.glintsPeriod (s : State) : State :=
  (List.range 16).foldl (fun s n =>
    (if s.widthFit < s.get BCN_GL_WIDTH.width n then s.err BCN_ERR.width_clamped 0 n else s).publishWidth n) s

/-! ### Releases -/

/-- No decision is released whose release instant falls after now: each such crossing is counted where `count` says so,
its results on the way are no decisions, and the outputs go idle (R29, R225, R251). -/
def State.dropLater (s : State) (count : Bool) : State :=
  let gone := s.seq.releases.filter fun r => decide (s.now < r.instant)
  let n := gone.length
  let s := s.updSeq fun q =>
    { q with releases := q.releases.filter fun r => decide (r.instant ≤ s.now),
             requests := q.requests.map fun x => if gone.any fun r => x.serial = some r.serial ∧ x.half = r.half then
               { x with glint := none } else x }
  (if count then s.add SEQ_LOST_DECISIONS.count n else s).glintsIdle.publishReleases

/-- The decision bit of one landed result (R266); `x` is (OR, full, count, contributors). -/
def decisionBit (cfg thresh : Nat) (x : Bool × Bool × Nat × Nat) : Bool :=
  let cnt := if x.2.1 then x.2.2.1 else b2n x.1
  match bits cfg 5 2 with
  | 0 => x.1
  | 1 => !x.1
  | 2 => thresh ≤ cnt
  | _ => cnt < thresh

/-- The results that R267 combines. -/
def combined (cfg : Nat) (l : Landed) : List (Bool × Bool × Nat × Nat) :=
  if bits cfg 7 2 = 0 then l.results.getLast?.toList else l.results

/-- The combined decision (R267). -/
def combineBits (cfg thresh : Nat) (l : Landed) : Bool :=
  let bs := (combined cfg l).map (decisionBit cfg thresh)
  if bits cfg 7 2 = 2 then bs.all id else bs.any id

/-- The level that output `n` takes at a launch of value `v` (R272, R274). -/
def glintLevel (mode level : Nat) (idle v : Bool) : Nat :=
  let cur := if idle then 0 else level
  if mode = 2 then (if v then 1 - min 1 cur else cur) else b2n v

/-- Output `n` launches value `v` (R269, R272). -/
def State.glintLaunch (s : State) (n : Nat) (v ovr deg : Bool) : State :=
  let cfg := (s.glintCfg n).1
  let v := if cfg.testBit 9 then cfg.testBit 10 else v
  let idle := s.bit BCN_GL_STATUS.idle n
  let s := s.driveGlint n (glintLevel (bits cfg 0 2) (s.glint n).level idle v) (bits cfg 0 2 == 1 && v)
  let s := ((s.put BCN_GL_STATUS.value (b2n v) n).put BCN_GL_STATUS.idle 0 n).put BCN_GL_STATUS.overrun (b2n ovr) n
  let s := (s.put BCN_GL_STATUS.degraded (b2n deg) n).publishWidth n
  let s := s.inc BCN_GL_REL_CNT.count n
  if v then s.inc BCN_GL_ONE_CNT.count n else s

/-- Every landed bcn_req 1 result that func 2 or 3 turns into a decision bit is counted, whether or not the launch uses the bit
(R266). -/
def State.countOrOnly (s : State) (n cfg : Nat) (l : Landed) : State :=
  let k := (l.results.filter fun x => !x.2.1).length
  if 2 ≤ bits cfg 5 2 ∧ k ≠ 0 then (s.add BCN_GL_ORONLY_CNT.count k n).err BCN_ERR.or_only 0 n else s

/-- The launch of output `n` for a release whose program decides it (R255, R266 to R269): the new state, and whether it
overran and was degraded. -/
def State.launchOne (s : State) (r : Release) (n : Nat) : State × Bool × Bool :=
  let (cfg, thresh, _) := s.glintCfg n
  let l := Sparse.get {} r.outs n
  let s := s.countOrOnly n cfg l
  if l.issued = 0 ∨ l.results.length < l.issued then
    (s.glintLaunch n ((s.seq.oldOvr.getD (s.get SEQ_OVR_VALUE.value)).testBit n) true false, true, false)
  else
    let used := combined cfg l
    let least := used.foldl (fun m x => min m (popCount 16 x.2.2.2)) 16
    if least < bits cfg 16 5 then
      let s := (s.inc BCN_GL_DEG_CNT.count n).err BCN_ERR.degraded 0 n
      (s.glintLaunch n (cfg.testBit 11) false true, false, true)
    else (s.glintLaunch n (combineBits cfg thresh l) false false, false, false)

/-- A crossing with overrun outputs is counted, recorded and reported, and signalled to Tarnish (R257). The detail of the report
carries what R257 names, in a layout that the spec does not give (DESIGN CHOICE): serial [31:0], the output mask from bit 32, the
islands from bit 48. -/
def State.overrun (s : State) (serial mask slow : Nat) : State :=
  if mask = 0 then s
  else
    let s := (s.inc SEQ_OVR_CNT.count).put SEQ_OVR_OUT.outputs (s.get SEQ_OVR_OUT.outputs ||| mask)
    let s := s.put SEQ_OVR_LAST_LO.serial (serial % 2 ^ 32)
    let s := s.err SEQ_ADM_ERR.overrun 0 noInst (serial % 2 ^ 32 + 2 ^ 32 * mask + 2 ^ 48 * slow)
    (s.updSeq fun q => { q with ovrLast := serial }).tarOverrun slow

/-- The launch instant of the oldest pending release (R255, R266 to R276): every output launches its level, and the record
goes to the readout engine. -/
def State.launch (s : State) : State :=
  match s.seq.releases with
  | [] => s
  | r :: rest =>
    let s := (s.at (r.instant - 2250000)).updSeq fun q => { q with releases := rest, launched := some r.serial }
    let (s, ov, dg) := (List.range 16).foldl (fun (a : State × Nat × Nat) n =>
      if r.set.testBit n then
        let (t, o, d) := a.1.launchOne r n
        (t, a.2.1 + (if o then 2 ^ n else 0), a.2.2 + (if d then 2 ^ n else 0))
      else (a.1.glintIdle n, a.2)) (s, 0, 0)
    let vals := bitSet 16 fun n => r.set.testBit n && s.bit BCN_GL_STATUS.value n
    let s := s.overrun r.serial ov r.slow
    let rec_ : ReleaseRec := { serial := r.serial, instant := r.instant, set := r.set, values := vals, overrun := ov, degraded := dg }
    (s.updSeq fun q => { q with records := q.records ++ [rec_] }).publishReleases

/-- A pulse ends (R272), whatever BCN_GL_CFG holds since its launch (R275). -/
def State.pulseEnd (s : State) (n : Nat) : State :=
  if (s.glint n).pulse then s.updGlint n fun g => { g with level := 0, pulse := false } else s

/-! ### Beacon -/

/-- A result enters an external queue of 16 entries or is dropped (R265). -/
def State.externalPush (s : State) (worga : Bool) (x : BcnResult) : State :=
  let q := if worga then s.seq.toWorga else s.seq.toReadout
  if 16 ≤ q.length then (s.inc BCN_EXT_DROP_CNT.count).err BCN_ERR.ext_drop
  else s.updSeq fun z => if worga then { z with toWorga := q ++ [x] } else { z with toReadout := q ++ [x] }

/-- The crossing's launch instant has passed (R256). -/
def State.launchedPast (s : State) (serial : Nat) : Bool :=
  match s.seq.launched with
  | some l => serialAge serial l < 2 ^ 63
  | none => false

/-- A decision result reaches the Glint stage: it lands for its crossing, or is late and discarded (R256, R266, R267). -/
def State.landDecision (s : State) (r : BcnReq) (res : Bool × Bool × Nat × Nat) : State :=
  match r.glint, r.serial with
  | some n, some c =>
    if s.seq.releases.any fun x => x.serial = c ∧ x.half = r.half then
      s.updRelease r.half c fun x =>
        { x with outs := Sparse.upd {} x.outs n fun l => { l with results := l.results ++ [res] } }
    else if s.launchedPast c then (s.inc SEQ_LATE_CNT.count).err SEQ_ADM_ERR.late_decision
    else s
  | _, _ => s

/-- The oldest request settles (R261 to R265); `removed` names islands that went to FAULT before their partial reached the
root. -/
def State.beaconSettle (s : State) (removed : Nat) : State :=
  match s.seq.requests with
  | [] => s
  | r :: rest =>
    let gone := bitSet 16 fun i => removed.testBit i && s.islState i == 5
    let contrib := r.contrib - (r.contrib &&& gone)
    let pes := (List.range 16).foldl (fun m i => if contrib.testBit i then m ||| islandMask i else m) 0
    let who := r.responders &&& pes
    let or := who != 0
    let count := popTree 17 who
    let first := lowTree 17 who
    let s := (s.updSeq fun q => { q with requests := rest }).inc BCN_REQ_CNT.count
    let s := (s.put BCN_BR.or_ (b2n or) r.reg).put BCN_BR.full (b2n r.full) r.reg
    let s := s.put BCN_BR_CONTRIB.mask contrib r.reg
    let s := if r.full then
        ((s.put BCN_BR.count count r.reg).put BCN_BR_FIRST.none (b2n first.isNone) r.reg).put BCN_BR_FIRST.index
          (first.getD 0) r.reg
      else s
    let s := s.seqSettled r.reg
    let s := s.landDecision r (or, r.full, count, contrib)
    let x : BcnResult := { or := or, full := r.full, count := count, first := first, contrib := contrib,
                           serial := r.serial, addr := r.addr }
    let s := if r.ext.testBit 0 then s.externalPush true x else s
    if r.ext.testBit 1 then s.externalPush false x else s

/-- The oldest request settles with a decision whose launch instant has passed (R256). -/
def State.lateDecision (s : State) (removed : Nat) : State :=
  match s.seq.requests with
  | r :: _ =>
    match r.glint, r.serial with
    | some _, some c => if s.launchedPast c then s.beaconSettle removed else s
    | _, _ => s
  | [] => s

/-! ### BUSY -/

/-- The sources of BUSY (R277); `rdo` is the readout engine's throttle. -/
def State.busySources (s : State) (rdo : Bool) : Bool × Bool × Bool × Bool :=
  (!s.tagging, s.seqState != 1 || s.bit SEQ_ADM_STATUS.held, rdo, s.bit BCN_BUSY_CTRL.force)

/-- A slot boundary evaluates the sources; what the boundary before evaluated reaches the pin (R278). -/
def State.busyEvaluate (s : State) (rdo : Bool) : State :=
  let want := s.seq.busyNext
  let busy := s.bit BCN_STATUS.busy
  let left := s.seq.busyLeft
  let s := if want ∧ ¬ busy then
      (s.put BCN_STATUS.busy 1).updSeq fun q => { q with busyLeft := max 1 (s.get BCN_BUSY_CTRL.min_slots) }
    else if ¬ want ∧ busy ∧ left = 0 then s.put BCN_STATUS.busy 0
    else s.updSeq fun q => { q with busyLeft := max (min 1 left) (left - 1) }
  let (a, b, c, d) := s.busySources rdo
  let s := (((s.put BCN_BUSY_STATUS.timeline (b2n a)).put BCN_BUSY_STATUS.seq (b2n b)).put BCN_BUSY_STATUS.rdo
    (b2n c)).put BCN_BUSY_STATUS.force (b2n d)
  let on := a || (b && s.bit BCN_BUSY_CTRL.seq_en) || (c && s.bit BCN_BUSY_CTRL.rdo_en) || d
  let s := s.updSeq fun q => { q with busyNext := on }
  if s.bit BCN_STATUS.busy then s.inc BCN_BUSY_CNT.count else s

/-- The minimum assertion time of BUSY runs out (R278). -/
def State.busyExpiry (s : State) : State :=
  if s.seq.busyLeft ≠ 1 then s
  else
    let s := s.updSeq fun q => { q with busyLeft := 0 }
    if s.seq.busyNext then s else s.put BCN_STATUS.busy 0

/-- BUSY_P/N: P above N (R278). Until Dawn completes it is asserted with invert 0 (R279). -/
def State.busyPin (s : State) : Bool :=
  if s.bit BOT_STATUS.dawn_done then s.bit BCN_STATUS.busy != s.bit BCN_BUSY_CTRL.invert else true

end Sys2Proof.Machine
end

