-- ==== Sys2Proof/Machine/ErrorQueue.lean ====
section
/-! DEFINITION. The error queue: how a report becomes an entry, what the entry sends, and how it is taken (R595 to R600),
with the EMCY messages and notifications of R498 and R506. -/

namespace Sys2Proof.Machine

/-- Changes the error queue's internal state. -/
def State.updErq (s : State) (f : Erq → Erq) : State := { s with erq := f s.erq }

/-- Changes the dictionary engine's internal state. -/
def State.updDic (s : State) (f : Dic → Dic) : State := { s with dic := f s.dic }

/-- Sends something over the pins. -/
def State.emit (s : State) (x : Sent) : State := { s with sent := s.sent ++ [x] }

/-- The 48 bytes of an entry (R599). -/
def ErrEntry.bytes (e : ErrEntry) : List (BitVec 8) :=
  leBytes 1 e.page ++ leBytes 1 (b2n e.saturated + 2 * b2n e.taken) ++ leBytes 2 e.inst ++ leBytes 2 e.code ++ leBytes 2 e.dawn
    ++ leBytes 4 e.count ++ leBytes 4 e.seq ++ leBytes 8 e.firstTime ++ leBytes 8 e.firstDetail ++ leBytes 8 e.lastTime
    ++ leBytes 8 e.lastDetail

/-- Shows what the queue holds (R602). -/
def State.publishErq (s : State) : State :=
  let n := s.erq.entries.length
  let taken : Bool := match s.erq.entries with
    | e :: _ => e.taken
    | [] => false
  ((s.put ERQ_STATUS.used n).put ERQ_STATUS.full (b2n (n == 256))).put ERQ_STATUS.head_taken (b2n taken)

/-! ### EMCY and notifications (R498, R499, R506) -/

/-- Error register 0x1001 (R499). -/
def State.errorRegister (s : State) : Nat :=
  b2n (!s.erq.entries.isEmpty) + 16 * b2n (s.get DIC_CAN_STATE.bus != 0)

/-- Two IPv4 addresses agree in their first `p` bits. -/
def samePrefix (p a b : Nat) : Bool := a / 2 ^ (32 - min p 32) == b / 2 ^ (32 - min p 32)

/-- Where a datagram to an address goes on the management network (R504); none where no gateway is set. -/
def State.mgtHop (s : State) (ip : Nat) : Option Nat :=
  if samePrefix (s.get DIC_MGT_MASK.prefix_) (s.get DIC_MGT_IP.ip) ip then some ip
  else if s.get DIC_MGT_GW.ip = 0 then none
  else some (s.get DIC_MGT_GW.ip)

/-- Sends a UDP datagram over the management port (R500, R504); with lan_en = 0 nothing leaves. -/
def State.mgtUdp (s : State) (ip port : Nat) (payload : List (BitVec 8)) : State :=
  match s.mgtHop ip with
  | none => s
  | some hop => if ¬ s.bit DIC_CTRL.lan_en then s else s.emit (.udp hop ip port (s.get DIC_LAN_PORT.port) payload)

/-- The node's identifier of a service of the predefined set (R493). -/
def State.cobId (s : State) (base : Nat) : Nat := base + s.dic.node

/-- The identifier of EMCY, 0x1014 (R520). -/
def State.emcyCob (s : State) : Nat := s.dic.cobEmcy.getD (s.cobId 0x80)

/-- The node is Pre-operational or Operational (R494). -/
def State.nmtOn (s : State) : Bool := s.get DIC_STATUS.nmt_hb == 127 || s.get DIC_STATUS.nmt_hb == 5

/-- The notification datagram of an entry (R501, R502, R506). -/
def notifyBytes (seq : Nat) (e : ErrEntry) : List (BitVec 8) :=
  leBytes 2 0x4E4C ++ [1, 2] ++ leBytes 2 0 ++ leBytes 2 seq ++ [1, 0] ++ leBytes 2 0 ++ leBytes 4 0
    ++ [8, 3] ++ leBytes 2 0x3100 ++ leBytes 2 0x000A ++ leBytes 2 48 ++ leBytes 4 0 ++ e.bytes

/-- The clients that get notifications (R506). -/
def State.noteClients (s : State) : List Nat :=
  (List.range 16).filter fun n =>
    s.bit DIC_CLIENT_CFG.enable n && s.bit DIC_CLIENT_CFG.notify n && s.get DIC_CLIENT_CFG.prefix_ n == 32

/-- Sends a notification to every client that wants one (R506). -/
def State.notify (s : State) (e : ErrEntry) : State :=
  if ¬ (s.bit DIC_CTRL.notify_en ∧ s.bit DIC_CTRL.lan_en) then s
  else
    let data := notifyBytes s.dic.noteSeq e
    let s := s.noteClients.foldl (fun s n => s.mgtUdp (s.get DIC_CLIENT_IP.ip n) (s.get DIC_LAN_PORT.port) data) s
    s.updDic fun d => { d with noteSeq := (d.noteSeq + 1) % 65536 }

/-- One EMCY with its notification, unless the inhibit time of 0x1015 still runs (R498, R506). The code is kept in 0x1003. -/
def State.emcy (s : State) (code : Nat) (data : List (BitVec 8)) (note : Option ErrEntry) : State :=
  if ¬ (s.bit DIC_CTRL.emcy_en ∧ s.nmtOn ∧ s.get PWR_STATUS.state ≠ 2) then s
  else if s.dic.emcyAt ≠ 0 ∧ s.now < s.dic.emcyAt - 1 + s.dic.inhibitEmcy * 10 ^ 11 then
    (s.inc DIC_EMCY_INH_CNT.count).err DIC_ERR.emcy_inhibited
  else
    let s := s.updDic fun d => { d with emcyAt := s.now + 1 }
    let s := if s.bit DIC_CTRL.can_en ∧ ¬ s.emcyCob.testBit 31 then
        let s := (s.emit (.emcy (s.emcyCob % 2048) code s.errorRegister data)).inc DIC_EMCY_CNT.count
        s.updDic fun d => { d with history := (code :: d.history).take 8 }
      else s
    match note with
    | some e => s.notify e
    | none => s

/-! ### Reports (R596 to R598) -/

/-- An entry takes a coalescing report (R597). -/
def ErrEntry.coalesce (e : ErrEntry) (r : Report) (t : Nat) : ErrEntry :=
  { e with count := min 0xFFFFFFFF (e.count + r.count), saturated := e.saturated || decide (0xFFFFFFFF < e.count + r.count),
           lastTime := t, lastDetail := r.last }

/-- The entry has the key of the report and is not taken (R597). -/
def ErrEntry.matches_ (e : ErrEntry) (r : Report) : Bool := e.page == r.page && e.inst == r.inst && e.code == r.code && !e.taken

/-- Event bit 21 at every thread (R402, R597). -/
def State.erqEvent (s : State) : State := (s.raiseAll 21).raiseEvent 16 21

/-- The queue processes one report (R597, R598). -/
def State.erqTake (s : State) (r : Report) : State :=
  let t := s.usSinceDawn
  if s.erq.entries.any (fun e => e.matches_ r) then
    let s := s.updErq fun q => { q with entries := q.entries.map fun e => if e.matches_ r then e.coalesce r t else e }
    (s.inc ERQ_COALESCE_CNT.count).erqEvent
  else if s.erq.entries.length < 256 then
    let seq := s.get ERQ_NEXT_SEQ.seq
    let e : ErrEntry := { page := r.page, inst := r.inst, code := r.code, dawn := s.get BOT_DAWN_CNT.count % 65536, count := r.count,
                          seq, saturated := false, taken := false, firstTime := t, firstDetail := r.first,
                          lastTime := t, lastDetail := r.last }
    let s := s.updErq fun q => { q with entries := q.entries ++ [e] }
    let s := ((s.put ERQ_NEXT_SEQ.seq (seq + 1)).inc ERQ_STORE_CNT.count).publishErq
    (s.erqEvent).emcy (0xFF00 + r.page) (e.bytes.take 8) (some e)
  else
    let s := s.add ERQ_OVERFLOW_CNT.count r.count
    let s := ((s.put ERQ_LOST_KEY_LO.page r.page).put ERQ_LOST_KEY_LO.instance_ r.inst).put ERQ_LOST_KEY_HI.code r.code
    s.put ERQ_ERR.overflow 1

/-- The first pending report of a unit, which leaves next (R596): the page, and the block of the CPU page. -/
def State.nextReport (s : State) (p core : Nat) : Option (Report × List Report) :=
  popWhere (fun r : Report => r.page == p && r.core == core) s.erq.reports

/-! ### Taking entries (R600) -/

/-- A read of ERQ_HEAD word 0, or of 0x3100:03: the head entry goes to the holding buffer and is taken (R600). The copy shows
the entry as it was before. -/
def State.erqHead (s : State) : State :=
  match s.erq.entries with
  | [] => s.updErq fun q => { q with hold := [] }
  | e :: es => (s.updErq fun q => { q with hold := e.bytes, entries := { e with taken := true } :: es }).publishErq

/-- A write to ERQ_POP; false where it is refused (R600). -/
def State.erqPop (s : State) (seq : Nat) : State × Bool :=
  match s.erq.entries with
  | e :: es => if e.taken ∧ e.seq = seq then ((s.updErq fun q => { q with entries := es }).publishErq, true)
    else (s.put ERQ_ERR.pop_refused 1, false)
  | [] => (s.put ERQ_ERR.pop_refused 1, false)

/-- The entry at a position from the head, as the dictionary shows it (R603). -/
def State.erqEntry (s : State) (n : Nat) : List (BitVec 8) :=
  match s.erq.entries[n]? with
  | some e => e.bytes
  | none => List.replicate 48 0

end Sys2Proof.Machine
end

