-- ==== Sys2Proof/Machine/Debug.lean ====
section
/-! DEFINITION. The debug unit: test access port, memory access, trace buffer; the SMBus target (21, R629, R634 to R638). -/

namespace Sys2Proof.Machine

/-- Changes the test access port. -/
def State.updTap (s : State) (f : Tap → Tap) : State := { s with tap := f s.tap }

/-- Loads an instruction that the port executes by code `ir`: every pin returns to its functional state (R634). -/
def State.tapLoad (s : State) (ir dr : Nat) (pins : PinDrive := .functional) : State :=
  s.updTap fun t => { t with ir := ir, dr := dr, pins := pins }

/-- BYPASS, whose register captures 0. -/
def State.tapBypass (s : State) : State := s.tapLoad 0xFF 0

/-- An instruction that drives the pins: it acts in boot modes 3 and 4, and as BYPASS otherwise (R634). -/
def State.tapPins (s : State) (ir : Nat) (pins : PinDrive) : State :=
  let m := s.get BOT_STATUS.bootmode
  if m = 3 ∨ m = 4 then s.tapLoad ir 0 pins else s.tapBypass.err DBG_ERR.ic_refused

/-- SYS_JTAG_ID (R639). -/
def State.jtagId (s : State) : Nat := s.regWord 0 0x10

/-- The MEM_ACCESS register that Capture-DR loads (R636). -/
def Tap.capture (t : Tap) : Nat := t.data * 2 ^ 40 + b2n t.done_ * 2 ^ 73 + b2n t.error * 2 ^ 74 + b2n t.busy * 2 ^ 75

/-- The port's access goes to the ring once a tag is free (R442, R636). -/
def State.tapRequest (s : State) : State :=
  match s.tap.waits with
  | none => s
  | some (write, addr, data) =>
    match s.request { ini := 40, cmd := if write then .write else .read, addr := addr, len := 4,
                      data := if write then leBytes 4 data else [] } .unit with
    | none => s.tagWait 40
    | some s => s.updTap fun t => { t with waits := none }

/-- An Update-DR of MEM_ACCESS (R636); the instruction selects the register. -/
def State.memAccess (s : State) (go write : Bool) (addr data : Nat) : State :=
  let s := s.updTap fun t => { t with ir := 0x20, dr := t.capture, pins := .functional }
  if ¬ go then s
  else if s.tap.busy then s.err DBG_ERR.mem_busy
  else if ¬ s.bit DBG_CTRL.tap_mem_en ∨ s.get BOT_STATUS.bootmode = 4 ∨ s.get PWR_STATUS.state = 2 then
    s.updTap fun t => { t with done_ := false, error := true }
  else
    (s.updTap fun t => { t with busy := true, done_ := false, error := false, waits := some (write, addr, data) }).tapRequest

/-- The access of the port has completed (R636). -/
def State.tapDone (s : State) (ok : Bool) (data : List (BitVec 8)) : State :=
  s.updTap fun t =>
    let t := { t with busy := false, done_ := true, error := !ok, data := if ok ∧ data.length = 4 then leNat data else t.data }
    if t.ir = 0x20 then { t with dr := t.capture } else t

/-- What the reset of initiator 40 leaves of an access under way: it has ended in an error (R447, R567, R636). -/
def Tap.dropAccess (t : Tap) : Tap :=
  if ¬ t.busy then t
  else
    let t := { t with busy := false, done_ := true, error := true, waits := none }
    if t.ir = 0x20 then { t with dr := t.capture } else t

/-- TRST_N low (R567, R634). -/
def State.tapReset (s : State) : State := s.tapLoad 1 s.jtagId

/-- A write of 1 to DBG_TRACE_CMD.clear (R640). -/
def State.traceClear (s : State) : State :=
  { s with seq := { s.seq with trace := [] } }.put DBG_TRACE_STATUS.entries 0 |>.put DBG_TRACE_STATUS.stopped 0

/-- The packet error code of a Read Word: the CRC-8 of SMBus, x⁸ + x² + x + 1, over the address with its write bit, the command
code, the address with its read bit and the two data bytes (R629). -/
def smbPec (addr code word : Nat) : Nat :=
  let byte (c b : Nat) : Nat :=
    (List.range 8).foldl (fun c _ => if c.testBit 7 then (2 * c % 256) ^^^ 0x07 else 2 * c) (c ^^^ b % 256)
  [2 * addr, code, 2 * addr + 1, word % 256, word / 256].foldl byte 0

/-- The SMBus target is selected and answers, but for Dusk complete, which counts as Off (R553, R564, R629). -/
def State.smbAnswer (s : State) (code word : Nat) (pec : Bool) : State :=
  if ¬ s.bit SYS_SMB_CFG.enable ∨ s.get PWR_STATUS.state = 6 then s.emit (.smb none none)
  else if s.bit SYS_SMB_CFG.pec_req ∧ ¬ pec then (s.err SYS_ERR.smb_pec).emit (.smb none none)
  else
    let w := word % 65536
    s.emit (.smb (some w) (if pec then some (smbPec (s.get SYS_SMB_CFG.addr) code w) else none))

/-- An unknown command or a write (R629). -/
def State.smbNack (s : State) : State :=
  let s := s.emit (.smb none none)
  if s.bit SYS_SMB_CFG.enable ∧ s.get PWR_STATUS.state ≠ 6 then s.err SYS_ERR.smb_nack else s

/-- The status word of the SMBus target (R629). -/
def State.smbStatus (s : State) : Nat :=
  s.get BOT_STATUS.dawn_done + 2 * s.get SYS_TRIP.tripped + 4 * s.get BCN_STATUS.busy + 8 * (s.get PWR_STATUS.state % 8) +
    64 * b2n ((List.range 16).any fun i => s.bit TAR_ISL_WARN.urgent i)

/-- The hottest island temperature; 0x8000 where no island reading is current: none since the last reset, or in Eclipse
(R554, R629). -/
def State.smbIslandTemp (s : State) : Nat :=
  if s.tar.islands.all (fun e => e.2.temps.isEmpty) ∨ s.get PWR_STATUS.state = 2 then 0x8000
  else ofInt 16 (s.getInt SYS_TEMP.island)

/-- The hottest stack temperature; 0x8000 where no stack is in RUN (R629). -/
def State.smbHbmTemp (s : State) : Nat :=
  if s.stack 0 ≠ 2 ∧ s.stack 1 ≠ 2 then 0x8000 else ofInt 16 (s.getInt SYS_TEMP.hbm)

end Sys2Proof.Machine
end

