-- ==== Sys2Proof/Machine/Dma.lean ====
section
/-! DEFINITION. The DMA channels (R450 to R454), and what the response to a request brings to its initiator (R374, R443). A
channel has one READ under way at a time: the read of a piece follows the issue of the write before it. -/

namespace Sys2Proof.Machine

/-- A channel. -/
def State.dma (s : State) (n : Nat) : Dma := Sparse.get {} s.ring.dmas n

/-- Changes a channel. -/
def State.updDma (s : State) (n : Nat) (f : Dma → Dma) : State :=
  s.updRing fun r => { r with dmas := Sparse.upd {} r.dmas n f }

/-- The address of the descriptor in progress. -/
def State.dmaCur (s : State) (n : Nat) : Nat := 32 * s.get RNG_DMA_CUR_LO.addr n + 2 ^ 32 * s.get RNG_DMA_CUR_HI.addr n

/-- Shows the descriptor in progress. -/
def State.putDmaCur (s : State) (n a : Nat) : State :=
  (s.put RNG_DMA_CUR_LO.addr (a / 32) n).put RNG_DMA_CUR_HI.addr (a / 2 ^ 32) n

/-- Shows a channel's state (R452). -/
def State.putDma (s : State) (n v : Nat) : State := s.put RNG_DMA_STATUS.state v n

/-- Sets event bit 18 of the thread that a channel names (R452). -/
def State.dmaEvent (s : State) (n : Nat) : State := s.raiseEvent (s.get RNG_DMA_CTRL.thread n) 18

/-- Requests of the channel are outstanding. -/
def State.dmaBusy (s : State) (n : Nat) : Bool :=
  (s.ring.outs.any fun x => x.ini == 18 + n) || (s.ring.held.any fun p => p.ini == 18 + n)

/-- The bytes as a descriptor (R450); none where a field is out of range or a reserved field is not 0. -/
def parseDesc (b : List (BitVec 8)) : Option Desc :=
  let ctrl := leAt b 15 1
  let next := leAt b 24 5
  if 8 ≤ ctrl ∨ leAt b 29 3 ≠ 0 ∨ next % 32 ≠ 0 then none
  else some {
    src := leAt b 0 5, dst := leAt b 5 5, rowLen := leAt b 10 3 + 1, rows := leAt b 13 2 + 1, ctrl
    srcStride := toInt 32 (leAt b 16 4), dstStride := toInt 32 (leAt b 20 4), next }

/-- Where row `i` of a descriptor starts (R451). -/
def Desc.rowSrc (d : Desc) (i : Nat) : Int := d.src + i * d.srcStride

/-- Where row `i` goes. -/
def Desc.rowDst (d : Desc) (i : Nat) : Int := d.dst + i * d.dstStride

/-- The smallest and the largest start of the rows: the first and the last row bound them. -/
def rowSpan (a stride : Int) (rows : Nat) : Int × Int :=
  let z := a + (rows - 1 : Nat) * stride
  (min a z, max a z)

/-- A row touches CSR space, where rows start at a + i × stride (R454): the rows with any byte of it. -/
def touchesCsr (a stride : Int) (rows len : Nat) : Bool :=
  (List.range rows).any fun i =>
    let x := a + i * stride
    x < 0x3000000000 && 0x2000000000 < x + len

/-- A row that is read and a row that is written have a byte in common (R451). -/
def Desc.overlaps (d : Desc) : Bool :=
  (List.range d.rows).any fun i => (List.range d.rows).any fun j =>
    decide (d.rowSrc i < d.rowDst j + d.rowLen) && decide (d.rowDst j < d.rowSrc i + d.rowLen)

/-- A row leaves the 40-bit address space: a field out of range (R454). -/
def outOfSpace (a stride : Int) (rows len : Nat) : Bool :=
  let (lo, hi) := rowSpan a stride rows
  lo < 0 || (2 ^ 40 : Nat) < hi + len

/-- The channel goes to ERROR and issues nothing more, an abort under way or not (R452, R454). -/
def State.dmaFail (s : State) (n code addr : Nat) : State :=
  let s := (s.put RNG_DMA_STATUS.err_code code n).put RNG_DMA_ERR_ADDR_LO.addr addr n
  let s := (s.put RNG_DMA_ERR_ADDR_HI.addr (addr / 2 ^ 32) n).put RNG_DMA_STATUS.error 1 n
  let s := (s.updDma n fun _ => {}).putDma n 5
  (s.report 11 n 0xF002 (addr + 2 ^ 40 * code)).dmaEvent n

/-- An abort before the commit point ends once no response is outstanding (R452, R453). -/
def State.dmaAborted (s : State) (n : Nat) : State :=
  (((s.updDma n fun _ => {}).put RNG_DMA_STATUS.aborted 1 n).putDma n 4).dmaEvent n

/-- Fetches the descriptor in progress (R451). -/
def State.dmaFetch (s : State) (n : Nat) : State :=
  match s.request { ini := 18 + n, cmd := .read, addr := s.dmaCur n, len := 32 } .descriptor with
  | some s => s.updDma n fun d => { d with fetching := false }
  | none => (s.updDma n fun d => { d with fetching := true }).tagWait (18 + n)

/-- The next piece of a descriptor: source, destination and length; none after the last (R451). -/
def Dma.piece (d : Dma) : Option (Nat × Nat × Nat) :=
  match d.desc with
  | none => none
  | some x =>
    if x.rows ≤ d.row then none
    else
      let a := (x.rowSrc d.row).toNat + d.off
      let b := (x.rowDst d.row).toNat + d.off
      some (a, b, min (x.rowLen - d.off) (min (256 - a % 256) (256 - b % 256)))

/-- The bytes that a piece writes: those read, free ones where source and destination of the descriptor overlap (R451). -/
def State.dmaPieceData (s : State) (n : Nat) (data : List (BitVec 8)) : State × List (BitVec 8) :=
  if (s.dma n).desc.any Desc.overlaps then (s.tookFree, leBytes data.length (s.fresh (8 * data.length))) else (s, data)

/-- Issues the READ of the next piece, if there is one (R451). -/
def State.dmaRead (s : State) (n : Nat) : State :=
  match (s.dma n).piece with
  | none => s
  | some (a, b, k) =>
    match s.request { ini := 18 + n, cmd := .read, addr := a, len := k } (.piece a b) with
    | none => (s.updDma n fun d => { d with fetching := true }).tagWait (18 + n)
    | some s => s.updDma n fun d =>
      let off := d.off + k
      let done := match d.desc with
        | some x => decide (x.rowLen ≤ off)
        | none => true
      { d with fetching := false, row := if done then d.row + 1 else d.row, off := if done then 0 else off }

/-- Issues the WRITE of a piece that was read; after the last one of the last descriptor the chain is past its commit
point (R451, R453). -/
def State.dmaWrite (s : State) (n : Nat) : State :=
  match (s.dma n).ready with
  | none => s
  | some (_, b, bytes) =>
    match s.request { ini := 18 + n, cmd := .write, addr := b, len := bytes.length, data := bytes } (.stored b) with
    | none => s.tagWait (18 + n)
    | some s =>
      let d := s.dma n
      let last : Bool := d.piece.isNone && (match d.desc with
        | some x => x.ctrl % 2 == 1
        | none => false)
      (s.updDma n fun d => { d with ready := none, committed := last }).dmaRead n

/-- A descriptor has completed: the next one, a hold, or the end of the chain (R451, R452). -/
def State.dmaComplete (s : State) (n : Nat) : State :=
  match (s.dma n).desc with
  | none => s
  | some x =>
    let s := s.updDma n fun d => { d with desc := none, row := 0, off := 0 }
    if x.ctrl % 2 = 1 then
      (((s.updDma n fun _ => {}).put RNG_DMA_STATUS.done_ 1 n).putDma n 3).dmaEvent n
    else
      let s := (if x.ctrl.testBit 1 then s.dmaEvent n else s).putDmaCur n x.next
      if x.ctrl.testBit 2 then s.putDma n 2 else s.dmaFetch n

/-- Every write of the descriptor has been acknowledged (R451). -/
def State.dmaDescDone (s : State) (n : Nat) : Bool :=
  let d := s.dma n
  d.desc.isSome && d.piece.isNone && d.ready.isNone && !s.dmaBusy n

/-- What a channel does when nothing holds it back: an abort, and the chain that follows an error, wait for the outstanding
responses; requests that waited for a tag are issued (R452 to R454). -/
def State.dmaPump (s : State) (n : Nat) : State :=
  let d := s.dma n
  if (d.aborting ∨ d.draining) ∧ s.dmaBusy n then s
  else if d.aborting then s.dmaAborted n
  else if d.draining then (s.updDma n fun d => { d with draining := false }).dmaFetch n
  else if d.ready.isSome then s.dmaWrite n
  else if d.fetching then (if d.desc.isNone then s.dmaFetch n else s.dmaRead n)
  else s

/-- A write of 1 to start (R452); after an error the fetch waits for the responses that are still outstanding (R454). -/
def State.dmaStart (s : State) (n : Nat) : State :=
  let st := s.get RNG_DMA_STATUS.state n
  if st = 1 ∨ st = 2 then s.err RNG_DMA_STATUS.start_refused n n
  else
    let s := (s.updDma n fun _ => { draining := true }).put RNG_DMA_BYTES.bytes 0 n
    let a := 32 * s.get RNG_DMA_DESC_LO.addr n + 2 ^ 32 * s.get RNG_DMA_DESC_HI.addr n
    ((s.putDmaCur n a).putDma n 1).dmaPump n

/-- A write of 1 to abort (R453, R583). -/
def State.dmaAbort (s : State) (n : Nat) : State :=
  let st := s.get RNG_DMA_STATUS.state n
  if st = 1 ∨ st = 2 then
    if (s.dma n).committed then s.put RNG_DMA_STATUS.abort_too_late 1 n
    else (s.updDma n fun d => { d with aborting := true, ready := none, fetching := false }).dmaPump n
  else if st = 3 then s.put RNG_DMA_STATUS.abort_too_late 1 n
  else s

/-- A write of 1 to resume (R452). -/
def State.dmaResume (s : State) (n : Nat) : State :=
  if s.get RNG_DMA_STATUS.state n = 2 ∧ ¬ (s.dma n).aborting then (s.putDma n 1).dmaFetch n else s

/-- A write to RNG_DMA_CTRL: abort, then resume and start (R643). -/
def State.writeDmaCtrl (s : State) (n m v : Nat) : State :=
  let s := s.wrField RNG_DMA_CTRL.thread m v n
  let s := if woField RNG_DMA_CTRL.abort m v = 1 then s.dmaAbort n else s
  let s := if woField RNG_DMA_CTRL.resume m v = 1 then s.dmaResume n else s
  if woField RNG_DMA_CTRL.start m v = 1 then s.dmaStart n else s

/-- The response to a request of a channel (R451 to R454): in RUN or PAUSED an error ends the chain, an abort under way or not;
in another state, and before the first fetch of a chain, nothing but the bytes acknowledged is of account. -/
def State.dmaResponse (s : State) (n : Nat) (x : Txn) (ok : Bool) (data : List (BitVec 8)) : State :=
  let d := s.dma n
  let runs : Bool := (s.get RNG_DMA_STATUS.state n == 1 || s.get RNG_DMA_STATUS.state n == 2) && !d.draining
  let counted (s : State) : State :=
    if ok ∧ ¬ d.draining then s.put RNG_DMA_BYTES.bytes (min (2 ^ 32 - 1) (s.get RNG_DMA_BYTES.bytes n + x.len)) n else s
  match x.purpose with
  | .descriptor =>
    if ¬ runs then s.dmaPump n
    else if ¬ ok then s.dmaFail n 1 (s.dmaCur n)
    else if d.aborting then s.dmaPump n
    else match parseDesc data with
      | none => s.dmaFail n 2 (s.dmaCur n)
      | some d =>
        if outOfSpace d.src d.srcStride d.rows d.rowLen ∨ outOfSpace d.dst d.dstStride d.rows d.rowLen then
          s.dmaFail n 2 (s.dmaCur n)
        else if touchesCsr d.src d.srcStride d.rows d.rowLen ∨ touchesCsr d.dst d.dstStride d.rows d.rowLen then
          s.dmaFail n 3 (s.dmaCur n)
        else (s.updDma n fun c => { c with desc := some d, row := 0, off := 0 }).dmaRead n
  | .piece a b =>
    if ¬ runs then s.dmaPump n
    else if ¬ ok then s.dmaFail n 4 a
    else if d.aborting then s.dmaPump n
    else
      let (s, data) := s.dmaPieceData n data
      (s.updDma n fun d => { d with ready := some (a, b, data) }).dmaWrite n
  | .stored b => if runs ∧ ¬ ok then s.dmaFail n 5 b else (counted s).dmaPump n
  | _ => s

/-- The descriptor's writes have all been acknowledged: it completes (R451). -/
def State.dmaDescriptorComplete (s : State) (n : Nat) : State :=
  if s.get RNG_DMA_STATUS.state n = 1 ∧ s.dmaDescDone n ∧ ¬ (s.dma n).aborting then s.dmaComplete n
  else s

/-- A channel at a reset of its group (R452). -/
def State.dmaReset (s : State) (n : Nat) : State := (s.updDma n fun _ => {}).putDma n 0

/-! ### Responses (R374, R442, R443, R447) -/

/-- A tag has become free: the initiators that wait for one try again, in ascending number (R373, R442). -/
def State.retryTags (s : State) : State := ((List.range 16).foldl (fun s n => s.dmaPump n) s.retryStalled).tapRequest

/-- Freed tags rejoin the pool (R447). -/
def State.tagReturns (s : State) (k : Nat) : State := (s.tagHoldExpiry k).retryTags

/-- The response to a transaction reaches its initiator. -/
def State.completeTxn (s : State) (x : Txn) (ok : Bool) (data : List (BitVec 8)) : State :=
  let s := s.freeTxn x
  let s := match x.purpose with
    | .wait => s.accessDone x.ini (!ok) data
    | .posted a it => if ok then s else s.postedError x.ini a it
    | .unit => if x.ini = 40 then s.tapDone ok data else s
    | _ => s.dmaResponse (x.ini - 18) x ok data
  s.retryTags

/-- A transaction has waited RNG_TIMEOUT.us without a response (R443): an error response toward the initiator, and the tag
is retired. -/
def State.ringTimeout (s : State) (k : Nat) : State :=
  match s.ring.outs[k]? with
  | none => s
  | some x =>
    let s := (s.inc RNG_INI_TMO_CNT.count x.ini).err RNG_ERR.timeout 0 (iniStop x.ini)
    let s := s.updRing fun r => { r with retired := r.retired ++ [x] }
    s.completeTxn x false []

/-- A response arrives that is outdated (R374, R443, R447, R398). -/
def State.staleResponse (s : State) (r : Rsp) : State :=
  let s := s.inc RNG_STALE_CNT.count
  let same (x : Txn) : Bool := x.ini == r.ini && x.slot == r.slot && x.epoch == r.epoch
  let s := s.updRing fun g => { g with retired := g.retired.filter fun x => !same x }
  let s := if s.ring.orphans.any same then
      let s := s.updRing fun g => { g with orphans := g.orphans.filter fun x => !same x }
      if r.status = 0 then s else (s.err CPU_ISA_ERR.posted_bus_err (coreOf r.ini) (coreOf r.ini)).imprLost r.ini
    else s
  s.retryTags

/-- The `k`-th response under way reaches its initiator after `lat` ring cycles (R443, R447, R449). -/
def State.response (s : State) (k lat : Nat) : State :=
  match s.ring.rsps[k]? with
  | none => s
  | some r =>
    let s := s.updRing fun g => { g with rsps := g.rsps.eraseIdx k }
    let s := s.countResponse r.ini r.status lat r.data.length
    match s.ring.outs.find? (fun x => x.ini == r.ini && x.slot == r.slot) with
    | none => s.staleResponse r
    | some x => if x.epoch ≠ r.epoch then s.staleResponse r else s.completeTxn x (r.status == 0) r.data

end Sys2Proof.Machine
end

