-- ==== Sys2Proof/Machine/EdgeImage.lean ====
section
/-! DEFINITION. Facet images: their sections, their records and the checks of R107 (R103 to R107). -/

namespace Sys2Proof.Machine

/-- The sections behind the header: type, reserved word, payload (R104). -/
def imgSections : Nat → List (BitVec 8) → List (Nat × Nat × List (BitVec 8))
  | 0, _ => []
  | n + 1, bs => (leAt bs 0 2, leAt bs 2 2, slice bs 8 (leAt bs 4 4)) :: imgSections n (bs.drop (8 + leAt bs 4 4))

/-- The bytes that the sections behind the header declare, their own headers included (R104, R107). -/
def imgSpan : Nat → List (BitVec 8) → Nat
  | 0, _ => 0
  | n + 1, bs => 8 + leAt bs 4 4 + imgSpan n (bs.drop (8 + leAt bs 4 4))

/-- All sections of an image. -/
def imgAll (img : List (BitVec 8)) : List (Nat × Nat × List (BitVec 8)) := imgSections (leAt img 17 1) (img.drop 64)

/-- The payload of the section of type `t`; empty where there is none. -/
def imgSec (img : List (BitVec 8)) (t : Nat) : List (BitVec 8) :=
  match (imgAll img).find? (fun x => x.1 == t) with
  | some x => x.2.2
  | none => []

/-- `n` bytes at offset `o` of lane `l`'s primitives record (R105). -/
def imgPrim (img : List (BitVec 8)) (l o n : Nat) : Nat := leAt (imgSec img 1) (64 * l + o) n

/-- The image_id field of the header. -/
def imgId (img : List (BitVec 8)) : Nat := leAt img 12 4
/-- The clk_code field of the header. -/
def imgClk (img : List (BitVec 8)) : Nat := leAt img 16 1
/-- Bit t: timer t restarts at activation. -/
def imgTimerRestart (img : List (BitVec 8)) : Nat := leAt img 18 2
/-- Bit m: block memory m is loaded at activation. -/
def imgBramLoad (img : List (BitVec 8)) : Nat := leAt img 20 1
/-- Bit e: edge detector e restarts at activation. -/
def imgEdgeRestart (img : List (BitVec 8)) : Nat := leAt img 24 8

/-- The source code of array input `i` (R91). -/
def imgInput (img : List (BitVec 8)) (i : Nat) : Nat := leAt (imgSec img 2) (2 * i) 2
/-- The true mask of product term `p` (R104). -/
def imgTermT (img : List (BitVec 8)) (p : Nat) : Nat := leAt (imgSec img 3) (44 * p) 22
/-- The complement mask of product term `p` (R104). -/
def imgTermC (img : List (BitVec 8)) (p : Nat) : Nat := leAt (imgSec img 3) (44 * p + 22) 22
/-- The record of macrocell `n` (R105). -/
def imgCell (img : List (BitVec 8)) (n : Nat) : Nat := leAt (imgSec img 4) (12 * n) 12
/-- The sink map: sink code and source of each entry (R104). -/
def imgSinks (img : List (BitVec 8)) : List (Nat × Nat) :=
  (List.range ((imgSec img 5).length / 4)).map fun i => (leAt (imgSec img 5) (4 * i) 2, leAt (imgSec img 5) (4 * i + 2) 2)
/-- The record of timer `t` (R105). -/
def imgTimer (img : List (BitVec 8)) (t : Nat) : Nat := leAt (imgSec img 6) (12 * t) 12
/-- The record of edge detector `e` (R104). -/
def imgEdge (img : List (BitVec 8)) (e : Nat) : Nat := leAt (imgSec img 7) (4 * e) 4
/-- The source of exported line `j` (R104). -/
def imgExport (img : List (BitVec 8)) (j : Nat) : Nat := leAt (imgSec img 8) (2 * j) 2
/-- The aspect code of block memory `m` (R97). -/
def imgAspect (img : List (BitVec 8)) (m : Nat) : Nat := leAt (imgSec img 9) m 1
/-- Row `r` of the contents of block memory `m` (R104). -/
def imgRow (img : List (BitVec 8)) (m r : Nat) : Nat := leAt (imgSec img (0x10 + m)) (5 * r) 5

/-- The source codes that R91 defines; the timing facet has lane 0 only. -/
def srcDefined (timing : Bool) (c : Nat) : Bool :=
  c < 0x100 || (0x100 ≤ c && c < (if timing then 0x140 else 0x200)) || (0x200 ≤ c && c < (if timing then 0x208 else 0x220))
    || (0x220 ≤ c && c < 0x270) || (0x280 ≤ c && c < (if timing then 0x284 else 0x290))
    || (0x2C0 ≤ c && c < (if timing then 0x2D0 else 0x300)) || (0x400 ≤ c && c < 0x600 && c % 0x40 < 36)
    || (0x600 ≤ c && c < 0x723) || (0x724 ≤ c && c < 0x730) || (0x800 ≤ c && c < 0x860) || c == 0xFFFF

/-- The sink codes that R106 defines. -/
def sinkDefined (timing : Bool) (c : Nat) : Bool :=
  let k := c % 0x100
  let b := c % 0x80
  (c < (if timing then 0x100 else 0x400)
      && (k < 7 || (0x10 ≤ k && k < 0x1C) || (0x20 ≤ k && k < 0x24) || (0x30 ≤ k && k < 0x40)))
    || (0x1000 ≤ c && c < 0x1400 && (b < 2 || (0x10 ≤ b && b < 0x1F) || (0x20 ≤ b && b < 0x44)))
    || (0x2000 ≤ c && c < 0x2040 && c % 4 < 3) || (timing && 0x3000 ≤ c && c < 0x3011) || (0x4000 ≤ c && c < 0x40C0)

/-- Every element differs from those behind it. -/
def allDistinct : List Nat → Bool
  | [] => true
  | a :: l => !l.contains a && allDistinct l

/-- The longest carry chain: consecutive macrocells joined by cin_sel = 0 (R94). -/
def longestChain (img : List (BitVec 8)) : Nat :=
  ((List.range 256).foldl (fun (r : Nat × Nat) n =>
    let c := if bits (imgCell img n) 68 2 = 0 then r.1 + 1 else 1
    (c, max r.2 c)) (0, 0)).2

/-- The longest carry chain that a clock code allows (R80). -/
def chainLimit (clk : Nat) : Nat := if clk = 0 then 256 else if clk = 1 then 128 else 32

/-- The ranges of lane `l`'s primitives (R105). -/
def primOk (img : List (BitVec 8)) (l : Nat) : Bool :=
  let b := imgPrim img l 0 1
  64 ≤ b && b ≤ 128 && imgPrim img l 1 1 ≤ 2 && imgPrim img l 2 1 ≤ 16 && 1 ≤ imgPrim img l 3 1
    && 1 ≤ imgPrim img l 4 1 && imgPrim img l 4 1 ≤ 64 && 1 ≤ imgPrim img l 5 1 && imgPrim img l 10 1 ≤ 2
    && 1 ≤ imgPrim img l 11 1 && imgPrim img l 11 1 ≤ 64 && imgPrim img l 28 1 ≤ 32 && imgPrim img l 29 1 < 8
    && imgPrim img l 31 1 == 0
    && (List.range 4).all (fun t => imgPrim img l (44 + t) 1 ≤ b - 16)
    && imgPrim img l 48 1 < b && 1 ≤ imgPrim img l 49 1 && imgPrim img l 48 1 + imgPrim img l 49 1 ≤ b
    && imgPrim img l 50 1 ≤ 15 && imgPrim img l 51 1 ≤ b - 8 && imgPrim img l 52 1 ≤ 2 && imgPrim img l 53 1 ≤ 48
    && imgPrim img l 54 1 + imgPrim img l 28 1 ≤ 64 && imgPrim img l 55 1 ≤ 15 && imgPrim img l 56 1 ≤ 48
    && imgPrim img l 57 7 == 0

/-- The payload length that R104 gives each section type; the sink map holds whole entries. -/
def secLenOk (timing : Bool) (t n : Nat) : Bool :=
  if t = 1 then n == (if timing then 64 else 256) else if t = 2 then n == 320 else if t = 3 then n == 22528
  else if t = 4 then n == 3072 else if t = 5 then n % 4 == 0 else if t = 6 then n == 192 else if t = 7 then n == 256
  else if t = 8 then n == 64 else if t = 9 then n == 4 else n == 5120

/-- The first load_err of R107 that an image meets, lowest code first; 0 for an image that passes. `claimed n` says that
GPIO pin `n` is claimed elsewhere. -/
def imgErr (timing : Bool) (cfgLen : Nat) (claimed : Nat → Bool) (img : List (BitVec 8)) : Nat :=
  let secs := imgAll img
  let want := (List.range 9).map (· + 1) ++ ((List.range 4).filter fun m => (imgBramLoad img).testBit m).map (· + 0x10)
  let sinks := imgSinks img
  if crc32Field img 60 ≠ leAt img 60 4 then 1
  else if leAt img 0 4 ≠ 0x54454346 ∨ leAt img 4 2 ≠ 1 ∨ leAt img 6 2 ≠ 0 ∨ leAt img 21 3 ≠ 0 ∨ leAt img 32 28 ≠ 0
      ∨ 16 ≤ imgBramLoad img ∨ secs.any (fun x => x.2.1 ≠ 0) ∨ secs.map (·.1) ≠ want then 2
  else if (timing ∧ imgClk img ≠ 3) ∨ (¬timing ∧ 2 < imgClk img) then 3
  else if leAt img 8 4 ≠ cfgLen ∨ leAt img 8 4 ≠ 64 + imgSpan (leAt img 17 1) (img.drop 64) then 4
  else if (List.range 160).any (fun i => !srcDefined timing (imgInput img i))
      || (List.range 16).any (fun t => !srcDefined timing (bits (imgTimer img t) 64 16))
      || (List.range 64).any (fun e => !srcDefined timing (imgEdge img e % 65536)) then 5
  else if sinks.any (fun x => !sinkDefined timing x.1 || 0x101 < x.2) || !allDistinct (sinks.map (·.1)) then 6
  else if chainLimit (imgClk img) < longestChain img then 7
  else if sinks.any (fun x => 0x4000 ≤ x.1 && claimed ((x.1 - 0x4000) / 2)) then 8
  else if secs.any (fun x => !secLenOk timing x.1 x.2.2.length)
      || (List.range (if timing then 1 else 4)).any (fun l => !primOk img l)
      || (List.range 256).any (fun n => bits (imgCell img n) 68 2 = 3 || bits (imgCell img n) 70 26 ≠ 0)
      || (List.range 16).any (fun t => bits (imgTimer img t) 24 8 ≠ 0 || bits (imgTimer img t) 60 4 ≠ 0
          || bits (imgTimer img t) 80 16 ≠ 0)
      || (List.range 64).any (fun e => bits (imgEdge img e) 18 14 ≠ 0)
      || (List.range 32).any (fun j => 0x101 < imgExport img j)
      || (List.range 4).any (fun m => 5 < imgAspect img m || (List.range 1024).any (fun r => 2 ^ 36 ≤ imgRow img m r)) then 9
  else 0

end Sys2Proof.Machine
end

