-- ==== Sys2Proof/Machine/FrontLanes.lean ====
section
/-! DEFINITION. The front lanes: receive states, transmit equaliser, eye scans, the slow channel and the downlink slot
(03, R46 to R78). -/

namespace Sys2Proof.Machine

/-- The state of a lane's receive side (R50): 0 DISABLED, 1 RESET, 2 SIGNAL_WAIT, 3 LOCKING, 4 READY. -/
def State.laneState (s : State) (n : Nat) : Nat := s.get FLN_STATUS.state n

/-- Reports a lane's error bit with the lane number (R77). -/
def State.laneErr (s : State) (f : Fld) (n : Nat) (detail : Nat := 0) : State := s.err f n n detail

/-- Ends a running scan with valid = 0 (R57). -/
def State.endScan (s : State) (n : Nat) : State :=
  if s.bit FLN_STATUS.eye_busy n then (s.put FLN_STATUS.eye_busy 0 n).put FLN_EYE_RESULT.valid 0 n else s

/-- The receive paths that take this lane's words: its facet's, and the timing facet's where FLN_TIMING_SEL names the
lane (R46, R102). -/
def State.pathsOf (s : State) (n : Nat) : List (Nat × Nat) :=
  (n / 4, n % 4) :: if s.bit FLN_TIMING_SEL.enable && s.get FLN_TIMING_SEL.lane = n then [(56, 0)] else []

/-- One lane path of a facet. -/
def State.path (s : State) (f l : Nat) : LanePath := Sparse.get {} (Sparse.get {} s.edge.facets f).paths l

/-- Changes a facet's internal state. -/
def State.updFacet (s : State) (f : Nat) (g : Facet → Facet) : State :=
  { s with edge := { s.edge with facets := Sparse.upd {} s.edge.facets f g } }

/-- Changes one lane path of a facet. -/
def State.updPath (s : State) (f l : Nat) (g : LanePath → LanePath) : State :=
  s.updFacet f fun x => { x with paths := Sparse.upd {} x.paths l g }

/-- A facet's internal state. -/
def State.facet (s : State) (f : Nat) : Facet := Sparse.get {} s.edge.facets f

/-- The aligner and gearbox of a path start anew, so that no bits of a previous lock remain (R52, R83); its additive state is no
longer seeded (R119). -/
def State.restartPath (s : State) (f l : Nat) : State :=
  (((s.updPath f l fun p => { p with buf := 0, nbits := 0, good := 0, wait := 0, bad := 0, slipped := false, skip := false }).put
    EDG_LANE_STATUS.aligned 0 f l).put EDG_LANE_STATUS.offset 0 f l).put EDG_LANE_STATUS.seeded 0 f l

/-- Enters a receive state: a lane that leaves READY ends its scan, a lane that enters READY delivers from a fresh word
boundary (R51, R52, R57). -/
def State.enterLane (s : State) (n st : Nat) : State :=
  let s := if s.laneState n = 4 ∧ st ≠ 4 then s.endScan n else s
  let s := s.put FLN_STATUS.state st n
  let s := if st < 3 then (s.put FLN_STATUS.cdr_lock 0 n).put FLN_STATUS.adapt_done 0 n else s
  let s := if st < 2 then s.put FLN_STATUS.signal_detect 0 n else s
  if st = 4 then (s.pathsOf n).foldl (fun s p => s.restartPath p.1 p.2) s else s

/-- The line rate of a rate code, in bit/s (R47). -/
def lineRate (code : Nat) : Nat := if code = 0 then 10312500000 else if code = 1 then 25781250000 else 53125000000

/-- The level of a pair of bits in PAM4, bit 2i + 1 above bit 2i: 0b00 is -3, 0b01 is -1, 0b11 is 1, 0b10 is 3 (R48). -/
def pam4Level (pair : Nat) : Int :=
  match pair % 4 with
  | 0 => -3
  | 1 => -1
  | 3 => 1
  | _ => 3

/-- The levels of the 32 symbols of a word, symbol 0 first (R48). -/
def pam4Levels (word : Nat) : List Int := (List.range 32).map fun i => pam4Level (word / 4 ^ i)

/-- The levels that a lane sends for a word: those of PAM4 at rate 2, negated under tx_invert; none to state in NRZ (R47 to
R49). -/
def State.levels (s : State) (n word : Nat) : List Int :=
  if s.get FLN_CTRL.rate n ≠ 2 then []
  else if s.bit FLN_CTRL.tx_invert n then (pam4Levels word).map fun l => -l else pam4Levels word

/-- The bits that a lane sends for a word: inverted under tx_invert (R49). -/
def State.lineWord (s : State) (n word : Nat) : Nat := if s.bit FLN_CTRL.tx_invert n then word ^^^ (2 ^ 64 - 1) else word

/-- A lane sends a word on FTX (R48, R49). -/
def State.sendFront (s : State) (n word : Nat) : State :=
  { s with sent := s.sent ++ [.front n (s.lineWord n word) (s.levels n word)] }

/-- Whole 64-bit words of a rate code in a time given in fs (R68). -/
def wordsIn (fs code : Nat) : Nat := fs * lineRate code / (64 * 10 ^ 15)

/-- W_min of a lane from the published period (R68, R25). -/
def State.wMin (s : State) (n : Nat) : Nat := wordsIn (s.get GNO_PERIOD_MIN.period_fs) (s.get FLN_CTRL.rate n)

/-- Publishes FLN_DL_WORDS (R68): W_min, the guaranteed slow window, and whether it carries frames (R72). -/
def State.publishDl (s : State) (n : Nat) : State :=
  let w := s.wMin n
  let slow := w - s.get FLN_DL_CTRL.fc_en n - s.get FLN_DL_WIN.data_words n
  ((s.put FLN_DL_WORDS.w_min w n).put FLN_DL_WORDS.slow_words slow n).put FLN_DL_WORDS.slow_ok
    (b2n (7 ≤ slow && s.bit FLN_DL_CTRL.slow_en n)) n

/-- A write to FLN_CTRL (R49, R51): a reserved rate or loopback code keeps the old one and sets bad_cfg; then the
receive side moves by the first three rows of R51. -/
def State.writeLaneCtrl (s : State) (n m v : Nat) : State :=
  let oldRate := s.get FLN_CTRL.rate n
  let oldLoop := s.get FLN_CTRL.loopback n
  let t := s.wrReg 2 (0x100 * n) m v
  let badRate := t.get FLN_CTRL.rate n = 3
  let badLoop := t.get FLN_CTRL.loopback n = 3
  let t := if badRate then t.put FLN_CTRL.rate oldRate n else t
  let t := if badLoop then t.put FLN_CTRL.loopback oldLoop n else t
  let t := if badRate ∨ badLoop then t.laneErr FLN_ERR.bad_cfg n else t
  let t := if t.bit FLN_CTRL.sc_en n then t else t.updLane n fun l => { l with rx := [] }
  let t := if t.bit FLN_CTRL.tx_en n then t else t.put FLN_STATUS.tx_ready 0 n
  let t := t.publishDl n
  if ¬ t.bit FLN_CTRL.rx_en n then (if t.laneState n = 0 then t else t.enterLane n 0)
  else if t.laneState n = 0 then t.enterLane n 1
  else if t.get FLN_CTRL.rate n ≠ oldRate ∨ t.get FLN_CTRL.loopback n ≠ oldLoop then t.enterLane n 1
  else t

/-- The receive PLL of a lane in RESET locks while its REFCLK is present (R51, R46); the transmit PLL has the same
reference. -/
def State.lanePllLock (s : State) (n : Nat) : State :=
  if (s.get FLN_REFCLK_STATUS.present).testBit (n / 28) then
    let s := if s.bit FLN_CTRL.tx_en n then s.put FLN_STATUS.tx_ready 1 n else s
    if s.laneState n = 1 then s.enterLane n 2 else s
  else s

/-- Signal detect held for 1 µs (R51). -/
def State.signalDetect (s : State) (n : Nat) : State :=
  if s.laneState n = 2 then (s.put FLN_STATUS.signal_detect 1 n).enterLane n 3 else s

/-- CDR lock and adaptation done (R51); in READY, the end of a restarted adaptation (R53). `ctle` and `dfe1` are the
settings that adaptation found; frozen settings stay. -/
def State.laneLockDone (s : State) (n ctle dfe1 : Nat) : State :=
  let settle (s : State) : State :=
    let s := if s.bit FLN_RX_EQ.adapt_freeze n then s else (s.put FLN_RX_EQ.ctle ctle n).put FLN_RX_EQ.dfe1 dfe1 n
    (s.put FLN_STATUS.adapt_done 1 n).updLane n fun l => { l with adapting := false }
  if s.laneState n = 3 then ((settle s).put FLN_STATUS.cdr_lock 1 n).enterLane n 4
  else if s.laneState n = 4 ∧ (s.lane n).adapting then settle s
  else s

/-- 10 ms in LOCKING (R51). -/
def State.lockTimeout (s : State) (n : Nat) : State :=
  if s.laneState n = 3 then (s.enterLane n 1).laneErr FLN_ERR.lock_timeout n else s

/-- Signal detect lost for 64 word periods (R51). -/
def State.signalLost (s : State) (n : Nat) : State :=
  if s.laneState n = 4 then
    (((s.enterLane n 2).put FLN_STATUS.signal_detect 0 n).laneErr FLN_ERR.signal_lost n).inc FLN_LOCK_LOSS_CNT.count n
  else s

/-- CDR lock lost (R51). -/
def State.cdrLost (s : State) (n : Nat) : State :=
  if s.laneState n = 4 then
    ((((s.enterLane n 3).put FLN_STATUS.cdr_lock 0 n).put FLN_STATUS.adapt_done 0 n).laneErr FLN_ERR.cdr_lost n).inc
      FLN_LOCK_LOSS_CNT.count n
  else s

/-- A restart of adaptation in READY goes back to the reset settings without leaving READY (R53); frozen settings hold. -/
def State.adaptRestart (s : State) (n : Nat) : State :=
  if s.laneState n = 4 ∧ ¬ s.bit FLN_RX_EQ.adapt_freeze n then
    ((((s.put FLN_RX_EQ.ctle 0 n).put FLN_RX_EQ.dfe1 0 n).put FLN_STATUS.adapt_done 0 n).updLane n
      fun l => { l with adapting := true })
  else s

/-- The coefficients that a write of (pre, main, post) stores: main is raised to 32, then post and then pre are lowered
until the sum is 63 or less (R54). -/
def ffeLimit (pre main post : Nat) : Nat × Nat × Nat :=
  let main := max main 32
  let ovr := pre + main + post - 63
  let post' := post - ovr
  let pre' := pre - (ovr - post)
  (pre', main, post')

/-- A write to FLN_TX_FFE (R54). -/
def State.writeTxFfe (s : State) (n m v : Nat) : State :=
  let t := s.wrReg 2 (0x100 * n + 0x0C) m v
  let p := t.get FLN_TX_FFE.pre n
  let a := t.get FLN_TX_FFE.main n
  let q := t.get FLN_TX_FFE.post n
  let r := ffeLimit p a q
  if r = (p, a, q) then t
  else (((t.put FLN_TX_FFE.pre r.1 n).put FLN_TX_FFE.main r.2.1 n).put FLN_TX_FFE.post r.2.2 n).laneErr FLN_ERR.bad_cfg n

/-- A write of 1 to FLN_EYE_CTRL.start (R57). -/
def State.eyeStart (s : State) (n : Nat) : State :=
  if s.laneState n = 4 ∧ ¬ s.bit FLN_STATUS.eye_busy n then
    (s.put FLN_STATUS.eye_busy 1 n).put FLN_EYE_RESULT.valid 0 n
  else s.laneErr FLN_ERR.eye_busy n

/-- A scan completes with its height and width (R57). -/
def State.eyeDone (s : State) (n height width : Nat) : State :=
  if s.bit FLN_STATUS.eye_busy n then
    (((s.put FLN_STATUS.eye_busy 0 n).put FLN_EYE_RESULT.height height n).put FLN_EYE_RESULT.width width n).put
      FLN_EYE_RESULT.valid 1 n
  else s

/-- What the slow-channel receiver finds at the head of its bytes (R58 to R60). -/
inductive SlowScan where
  /-- No whole frame yet; the bytes from the first sync on. -/
  | more (rest : List (BitVec 8))
  /-- A frame that fails length (`false`) or CRC (`true`): the hunt goes on behind its sync. -/
  | bad (crc : Bool) (rest : List (BitVec 8))
  /-- A frame that passes: type, payload, and what follows it. -/
  | good (type : Nat) (payload rest : List (BitVec 8))
  deriving DecidableEq, Repr

/-- Hunts for a sync byte and judges the frame behind it (R60). -/
def slowScan : List (BitVec 8) → SlowScan
  | [] => .more []
  | b :: bs =>
    if b ≠ 0xA5 then slowScan bs
    else match bs with
      | t :: l :: p =>
        let n := l.toNat
        if 48 < n then .bad false bs
        else if p.length < n + 2 then .more (b :: bs)
        else if crc16 (t :: l :: p.take n) = leAt p n 2 then .good t.toNat (p.take n) (p.drop (n + 2))
        else .bad true bs
      | _ => .more (b :: bs)

/-- Discards failing frames until a whole good frame or the end of the bytes stands at the head (R60). -/
def State.slowHunt (n : Nat) : Nat → State → State
  | 0, s => s
  | k + 1, s =>
    match slowScan (s.lane n).rx with
    | .more rest => s.updLane n fun l => { l with rx := rest }
    | .bad crc rest =>
      let s := (s.updLane n fun l => { l with rx := rest }).inc FLN_SC_CRC_CNT.count n
      State.slowHunt n k (if crc then s.laneErr FLN_ERR.sc_crc n else s)
    | .good .. => s

/-- A slow-channel byte reaches the lane (R60, R87); with sc_en = 0 the lane discards it without counting. -/
def State.slowByte (s : State) (n : Nat) (b : BitVec 8) : State :=
  if s.bit FLN_CTRL.sc_en n then s.updLane n fun l => { l with rx := l.rx ++ [b] } else s

/-- The facet of a lane is being reconfigured: its state is SWITCH (R64, R112). -/
def State.reconfiguring (s : State) (n : Nat) : Bool := s.get EDG_FSTATUS.state (n / 4) = 3

/-- The age of a lane's last identity record in fs: it holds its value while the facet is reconfigured (R63, R64). -/
def State.idAge (s : State) (n : Nat) : Nat :=
  let l := s.lane n
  match l.idAge with
  | none => 0
  | some a => a + if s.reconfiguring n then 0 else s.now - l.idFrom

/-- FLN_ID_AGE.ms: whole ms, saturating (R76). -/
def State.idAgeMs (s : State) (n : Nat) : Nat := min 0xFFFFFFFF (s.idAge n / 10 ^ 12)

/-- The age of a lane's last identity record counts on from `a` (R63). -/
def State.ageFrom (s : State) (n a : Nat) : State := s.updLane n fun l => { l with idAge := some a, idFrom := s.now }

/-- The age of a lane's record is taken up at a change of the facet's state, from which on it holds or counts (R64). -/
def State.takeAge (s : State) (n : Nat) : State := if (s.lane n).idAge.isNone then s else s.ageFrom n (s.idAge n)

/-- An accepted identity record (R62, R63). -/
def State.takeIdentity (s : State) (n : Nat) (p : List (BitVec 8)) : State :=
  let old := s.get FLN_ID_LO.identity n + 2 ^ 32 * s.get FLN_ID_HI.identity n
  let new := leAt p 0 8
  let changed := old != new
  let s := if changed then s.laneErr FLN_ERR.id_changed n else s
  let s := (s.put FLN_ID_LO.identity new n).put FLN_ID_HI.identity (new >>> 32) n
  let s := ((s.put FLN_ID_INFO.module_type (leAt p 8 2) n).put FLN_ID_INFO.lane_in_module (leAt p 12 1) n).put
    FLN_ID_INFO.lanes_in_module (leAt p 13 1) n
  let s := (s.put FLN_ID_RATED_H.hours (leAt p 16 4) n).put FLN_ID_RATED_G.hits (leAt p 20 4) n
  let s := (s.put FLN_STATUS.module_present 1 n).ageFrom n 0
  let r : LedReport := .identity n p changed old
  { s with ledIn := s.ledIn ++ [r] }

/-- A user frame goes to FLN_SC_RX_BUF or is refused (R66). -/
def State.takeUser (s : State) (n type : Nat) (p : List (BitVec 8)) : State :=
  if s.bit FLN_SC_STATUS.rx_full n then (s.inc FLN_SC_DROP_CNT.count n).laneErr FLN_ERR.sc_overflow n
  else
    let bs := BitVec.ofNat 8 type :: BitVec.ofNat 8 p.length :: p ++ List.replicate (48 - p.length) 0
    let s := forN 16 s fun i s => s.put FLN_SC_RX_BUF.bytes (leAt (bs ++ List.replicate 14 0) (4 * i) 4) n i
    s.put FLN_SC_STATUS.rx_full 1 n

/-- What a good frame of a defined type does (R61, R63, R65, R66); every other frame is counted as dropped. -/
def State.slowAct (s : State) (n type : Nat) (p : List (BitVec 8)) : State :=
  let drop := s.inc FLN_SC_DROP_CNT.count n
  if type = 1 then (if p.length = 32 ∧ leAt p 28 1 = 1 then s.takeIdentity n p else drop)
  else if type = 2 then
    (if p.length = 6 ∧ 1 ≤ leAt p 0 1 ∧ leAt p 0 1 ≤ 3 then
      { s with ledIn := s.ledIn ++ [LedReport.telemetry n (leAt p 0 1) (leAt p 1 1) (leAt p 2 4)] }
     else drop)
  else if type = 3 then
    (if p.length = 2 then
      ((s.put FLN_SC_ACK.seq (leAt p 0 1) n).put FLN_SC_ACK.status (leAt p 1 1) n).put FLN_SC_ACK.new 1 n
     else drop)
  else if 0x10 ≤ type ∧ type ≤ 0x7F then s.takeUser n type p
  else drop

/-- The next good frame of a lane, where its type satisfies `p`: it is counted and acts; a frame of a reserved type is
discarded with it on the way (R60, R61). A good frame of another kind waits for its own command. -/
def State.slowFrame (s : State) (n : Nat) (mine : Nat → Bool) : State :=
  let s := State.slowHunt n ((s.lane n).rx.length + 1) s
  match slowScan (s.lane n).rx with
  | .good t p rest =>
    if mine t ∨ ¬ (t = 1 ∨ t = 2 ∨ t = 3 ∨ (0x10 ≤ t ∧ t ≤ 0x7F)) then
      ((s.updLane n fun l => { l with rx := rest }).inc FLN_SC_FRAME_CNT.count n).slowAct n t p
    else s
  | _ => s

/-- FLN_ID_AGE reaches FLN_ID_TIMEOUT.ms (R63); while the facet is being reconfigured no timeout occurs (R64). -/
def State.identityTimeout (s : State) (n : Nat) : State :=
  if s.bit FLN_STATUS.module_present n ∧ ¬ s.reconfiguring n then
    let s := (s.ageFrom n (s.get FLN_ID_TIMEOUT.ms * 10 ^ 12)).put FLN_STATUS.module_present 0 n
    let s := s.laneErr FLN_ERR.id_timeout n
    { s with ledIn := s.ledIn ++ [LedReport.absent n] }
  else s

/-- A write of 1 to FLN_SC_TX_CTRL.send (R72, R73): the lane adds the sync byte and the CRC. It refuses a submission while
slow_ok is 0 and while a frame is pending, each with its own bit. -/
def State.slowSend (s : State) (n : Nat) : State :=
  let off : Bool := !s.bit FLN_DL_WORDS.slow_ok n
  let held := s.bit FLN_SC_STATUS.tx_pending n
  let s := if off then s.laneErr FLN_ERR.sc_tx_disabled n else s
  let s := if held then s.laneErr FLN_ERR.sc_tx_refused n else s
  if off || held then s
  else
    let bs := ((List.range 16).map fun i => leBytes 4 (s.get FLN_SC_TX_BUF.bytes n i)).flatten
    let body := bs.take (2 + min 48 (leAt bs 1 1))
    let frame := 0xA5 :: body ++ leBytes 2 (crc16 body)
    (s.updLane n fun l => { l with frame := frame }).put FLN_SC_STATUS.tx_pending 1 n

/-- A write of 1 to FLN_SC_TX_CTRL.abort: before the first word has passed to the facet the frame is dropped; a frame
that has passed is complete, and the abort finds nothing pending (R73, R583). -/
def State.slowAbort (s : State) (n : Nat) : State :=
  if s.bit FLN_SC_STATUS.tx_pending n then
    ((s.updLane n fun l => { l with frame := [] }).put FLN_SC_STATUS.tx_pending 0 n).put FLN_SC_STATUS.tx_aborted 1 n
  else s

/-- FLN_DL_CTRL and FLN_DL_WIN in force for the coming downlink slot (R69): (dl_en, fc_en, slow_en, data_words). -/
def State.dlInForce (s : State) (n : Nat) : Bool × Bool × Bool × Nat :=
  match (s.lane n).oldDl with
  | some (c, w) => (c.testBit 0, c.testBit 1, c.testBit 2, w)
  | none => (s.bit FLN_DL_CTRL.dl_en n, s.bit FLN_DL_CTRL.fc_en n, s.bit FLN_DL_CTRL.slow_en n, s.get FLN_DL_WIN.data_words n)

/-- A write to FLN_DL_CTRL (`off` 0x20) or FLN_DL_WIN (`off` 0x24): refused when fc + data_words would exceed W_min;
otherwise in force after the next barrier (R68, R69). -/
def State.writeDl (s : State) (n off m v : Nat) : State :=
  let t := s.wrReg 2 (0x100 * n + off) m v
  if t.wMin n < t.get FLN_DL_CTRL.fc_en n + t.get FLN_DL_WIN.data_words n then s.laneErr FLN_ERR.dl_cfg_refused n
  else
    let old := (s.regWord 2 (0x100 * n + 0x20), s.get FLN_DL_WIN.data_words n)
    (t.updLane n fun l => { l with oldDl := some (l.oldDl.getD old) }).publishDl n

/-- The fast-command word of the slot opened at the latest edge (R70). -/
def State.fcDownWord (s : State) : Nat :=
  let w := s.gno.sampledPrev
  let code := w % 256
  let cmd := if 1 ≤ code ∧ code < 32 ∧ (s.get FLN_FC_FWD_MASK.mask * 2).testBit code then w % 65536 else 0
  cmd + s.get GNO_INDEX.index * 2 ^ 16 + b2n (s.bit GNO_INDEX.valid) * 2 ^ 28 + b2n (s.gnoState = 4) * 2 ^ 29
    + (s.lastSerial % 2 ^ 32) * 2 ^ 32

/-- 64-bit words of a byte string, the last filled with 0x00 (R72). -/
def wordsOf : Nat → List (BitVec 8) → List Nat
  | 0, _ => []
  | k + 1, bs => leAt bs 0 8 :: wordsOf k (bs.drop 8)

/-- The data words that Prism's outbound corner-turn has prepared for a lane (R139): stream bit j × d + i is bit
plane + i of channel j. -/
def turnOut (planes : Sparse Nat) (first run count d plane : Nat) : List Nat :=
  let bit (t : Nat) : Bool :=
    let j := t / d
    j < count && (Sparse.get 0 planes (plane + t % d)).testBit (first + j % run + 512 * (j / run))
  if d = 0 then [] else
    (List.range (ceilDiv (count * d) 64)).map fun w => bitSet 64 fun i => bit (64 * w + i)

/-- A lane's data words for the slot of the latest edge, before the data window cuts them (R138, R139). -/
def State.dlData (s : State) (n : Nat) : List Nat :=
  let m : LaneMap := Sparse.get {} s.pri.work.lanes n
  turnOut s.pri.copy m.dlFirst m.dlRun m.dlCount m.dlBits m.dlPlane

/-- One downlink slot of a lane (R67 to R74); `extra` says that the slot holds one word more than its least number. The
words pass to the facet with their tags. -/
def State.downlinkSlot (s : State) (n : Nat) (extra : Bool) : State :=
  if ¬ s.bit FLN_CTRL.tx_en n then s
  else
    let (dlEn, fcEn, slowEn, dataWords) := s.dlInForce n
    let timeline := s.hasTimeline
    let total := (if timeline then s.wMin n
      else wordsIn (s.get GNO_IDLE_PERIOD.ns * 1000000) (s.get FLN_CTRL.rate n)) + b2n extra
    let fc := if timeline && dlEn && fcEn then [(1, s.fcDownWord)] else []
    let nd := if timeline && dlEn then dataWords else 0
    let src := if timeline && dlEn then s.dlData n else []
    let data := (src.take nd).map (fun w => (2, w)) ++ List.replicate (nd - src.length) (0, 0)
    let slow := total - fc.length - nd
    let frame := (s.lane n).frame
    let k := (frame.length + 7) / 8
    let busy := s.get EDG_FSTATUS.state (n / 4) = 3 || s.bit EDG_FSTATUS.act_pending (n / 4)
    let goes := dlEn && slowEn && 7 ≤ slow && k ≤ slow && s.bit FLN_SC_STATUS.tx_pending n && !busy
    let fr := if goes then (wordsOf k frame).map fun w => (3, w) else []
    let all := fc ++ data ++ fr ++ List.replicate (slow - fr.length) (0, 0)
    let words := (List.range all.length).map fun i =>
      let e := all.getD i (0, 0)
      ({ tag := e.1, first := i == 0, word := e.2 } : TxWord)
    let s := if goes then
        ((s.updLane n fun l => { l with frame := [] }).put FLN_SC_STATUS.tx_pending 0 n).put FLN_SC_STATUS.tx_done 1 n
      else s
    let s := if nd < src.length && timeline && dlEn then
        (s.inc PRI_LANE_TRUNC_CNT.count n).err PRI_ERR.dl_truncated 0 n
      else s
    if s.get FLN_CTRL.loopback n = 2 then s.add FLN_DISCARD_CNT.count words.length n
    else s.updLane n fun l => { l with words := l.words ++ words }

/-- A REFCLK input is lost or returns (R621). -/
def State.refclkPresence (s : State) (k : Nat) (present : Bool) : State := s.setBit FLN_REFCLK_STATUS.present k present

end Sys2Proof.Machine
end

