-- ==== Sys2Proof/Machine/EdgePaths.lean ====
section
/-! DEFINITION. The receive and transmit lane paths of the facets: gearbox, block aligner, descrambler, CRC engine,
block port, payload packer, overlay, CRC insertion and scrambler (R81 to R90). -/

namespace Sys2Proof.Machine

/-- A facet's state (R108): 0 UNCONFIGURED, 1 RUN, 2 HALT, 3 SWITCH, 4 FAULT. -/
def State.facetState (s : State) (f : Nat) : Nat := s.get EDG_FSTATUS.state f

/-- Reports a facet's error bit with the facet number. -/
def State.facetErr (s : State) (f : Fld) (k : Nat) (detail : Nat := 0) : State := s.err f k k detail

/-- The registered output that a sink-map source names: macrocell, constant 0, constant 1 (R95, R104). -/
def sinkValue (cells src : Nat) : Bool := if src < 0x100 then cells.testBit src else src == 0x101

/-- The value of a sink: its mapped source; an unmapped sink reads 0 (R95). -/
def Facet.sink (x : Facet) (sinks : List (Nat × Nat)) (code : Nat) : Bool :=
  match sinks.find? (fun e => e.1 == code) with
  | some e => sinkValue x.cells e.2
  | none => false

/-- A run of sinks as a number, lowest code at bit 0. -/
def Facet.sinkBits (x : Facet) (sinks : List (Nat × Nat)) (code n : Nat) : Nat :=
  bitSet n fun i => x.sink sinks (code + i)

/-- The descrambler and the additive scrambler step of R84: one bit `x` against history `h` with taps `tap`. -/
def additiveBit (tap d h : Nat) : Bool := (popCount d (tap &&& h)) % 2 = 1

/-- Runs the descrambler (receive) or scrambler (transmit) over bits `lo` to `hi - 1` of a block: the new block and
history (R84). Mode 1 shifts the received bit on receive and the sent bit on transmit. -/
def scramble (mode d tap : Nat) (transmit : Bool) (lo hi block hist : Nat) : Nat × Nat :=
  if mode = 0 then (block, hist)
  else (List.range (hi - lo)).foldl (fun (r : Nat × Nat) k =>
    let i := lo + k
    let x := r.1.testBit i
    let p := additiveBit tap d r.2
    let y := xor x p
    let shifted := if mode = 1 then (if transmit then y else x) else p
    (if xor x y then r.1 ^^^ 2 ^ i else r.1, (2 * r.2 + b2n shifted) % 2 ^ 64)) (block, hist)

/-- The parameters of a lane's CRC engine (R85). -/
structure CrcParm where
  w : Nat
  refin : Bool
  refout : Bool
  compare : Bool
  off : Nat
  poly : Nat
  init : Nat
  xorout : Nat

/-- Reads lane `l`'s CRC parameters from an image (R105). -/
def crcParm (img : List (BitVec 8)) (l : Nat) : CrcParm where
  w := imgPrim img l 28 1
  refin := (imgPrim img l 29 1).testBit 0
  refout := (imgPrim img l 29 1).testBit 1
  compare := (imgPrim img l 29 1).testBit 2
  off := imgPrim img l 30 1
  poly := imgPrim img l 32 4
  init := imgPrim img l 36 4
  xorout := imgPrim img l 40 4

/-- Groups of eight message bits, the last bit of each group first (R85, refin = 1). -/
def refinOrder : Nat → List Nat → List Nat
  | 0, l => l
  | k + 1, l => if l.isEmpty then [] else (l.take 8).reverse ++ refinOrder k (l.drop 8)

/-- Takes the message bits at positions `ps` of a block into the CRC register (R85). -/
def CrcParm.take (c : CrcParm) (block : Nat) (ps : List Nat) (reg : Nat) : Nat :=
  (if c.refin then refinOrder ps.length ps else ps).foldl (fun reg i =>
    let fb := xor (reg.testBit (c.w - 1)) (block.testBit i)
    let r := (2 * reg) % 2 ^ c.w
    if fb then r ^^^ (c.poly % 2 ^ c.w) else r) reg

/-- The result of a span (R85). -/
def CrcParm.result (c : CrcParm) (reg : Nat) : Nat :=
  ((if c.refout then reverseBits c.w reg else reg) ^^^ c.xorout) % 2 ^ c.w

/-- The image of the active plane of a facet. -/
def State.img (s : State) (f : Nat) : List (BitVec 8) := (s.facet f).active

/-- The clock of the timing facet lies below the word rate of the lane that FLN_TIMING_SEL names: mult × the crossing clock,
or mult × nom_hz in OFF, ACQUIRE and LOST (R80, R102). -/
def State.timingSlow (s : State) : Bool :=
  let rate := lineRate (s.get FLN_CTRL.rate (s.get FLN_TIMING_SEL.lane))
  if s.hasTimeline && s.slotPeriod != 0 then decide (64 * s.edge.mult * 10 ^ 15 < rate * s.slotPeriod)
  else decide (64 * s.edge.mult * s.gno.oldNom.getD (s.get GNO_XCLK_NOM.nom_hz) < rate)

/-- A block enters the receive FIFO, or is dropped when it is full (R86, R588); the timing facet also reports a clock
below its lane's word rate (R102). -/
def State.pushBlock (s : State) (f l : Nat) (b : Block) : State :=
  if 16 ≤ (s.path f l).fifo.length then
    let s := (s.inc EDG_RXFIFO_OVF_CNT.count f l).facetErr EDG_FERR.fifo_overflow f
    if f = 56 ∧ s.timingSlow then s.facetErr EDG_FERR.clk_too_slow f else s
  else s.updPath f l fun p => { p with fifo := p.fifo ++ [b] }

/-- A block is good by the align mode (R83). -/
def blockGood (img : List (BitVec 8)) (l b : Nat) : Bool :=
  if imgPrim img l 1 1 = 2 then b.testBit 0 != b.testBit 1
  else ((b % 2 ^ imgPrim img l 2 1) ^^^ imgPrim img l 6 2) &&& imgPrim img l 8 2 == 0

/-- The aligner judges one block that the gearbox cut (R83). -/
def State.judgeBlock (s : State) (f l b : Nat) : State :=
  let img := s.img f
  let p := s.path f l
  if imgPrim img l 1 1 = 0 then (s.put EDG_LANE_STATUS.aligned 1 f l).pushBlock f l { data := b, valid := true, aligned := true }
  else if s.bit EDG_LANE_STATUS.aligned f l then
    let bad := (2 * p.bad + b2n !(blockGood img l b)) % 2 ^ 64
    if imgPrim img l 4 1 ≤ popTree 6 bad then
      ((s.updPath f l fun p => { p with bad := 0, good := 0, wait := 0 }).put EDG_LANE_STATUS.aligned 0 f l).inc
        EDG_ALIGN_LOSS_CNT.count f l
    else
      (s.updPath f l fun p => { p with bad := bad, slipped := false }).pushBlock f l
        { data := b, valid := true, slip := p.slipped, aligned := true }
  else if 0 < p.wait then s.updPath f l fun p => { p with wait := p.wait - 1 }
  else if blockGood img l b then
    let s := s.updPath f l fun p => { p with good := p.good + 1 }
    if imgPrim img l 3 1 ≤ p.good + 1 then
      (s.updPath f l fun p => { p with bad := 0, good := 0 }).put EDG_LANE_STATUS.aligned 1 f l
    else s
  else
    let s := s.updPath f l fun p =>
      { p with good := 0, wait := imgPrim img l 5 1, slipped := true, buf := p.buf / 2, nbits := p.nbits - 1, skip := p.nbits == 0 }
    let o := s.get EDG_LANE_STATUS.offset f l + 1
    (s.inc EDG_SLIP_CNT.count f l).put EDG_LANE_STATUS.offset (if o < imgPrim img l 0 1 then o else 0) f l

/-- Cuts the gathered bits into blocks of B bits, at most `k` of them (R82). -/
def State.cutBlocks (f l : Nat) : Nat → State → State
  | 0, s => s
  | k + 1, s =>
    let b := imgPrim (s.img f) l 0 1
    let p := s.path f l
    if 64 ≤ b ∧ b ≤ p.nbits then
      let s' := s.updPath f l fun p => { p with buf := p.buf >>> b, nbits := p.nbits - b }
      State.cutBlocks f l k (s'.judgeBlock f l (p.buf % 2 ^ b))
    else s

/-- One lane word enters the gearbox of a path: word bit 0 is the earliest, and a slip that still waits passes it over (R48,
R82, R83). -/
def State.pathWord (s : State) (f l word : Nat) : State :=
  State.cutBlocks f l 3 (s.updPath f l fun p =>
    let k := b2n p.skip
    { p with buf := p.buf + (word >>> k) <<< p.nbits, nbits := p.nbits + 64 - k, skip := false })

/-- The clock code that serves a lane's rate (R81): facets run at the code that took effect at their last SWITCH. -/
def State.facetServes (s : State) (f rate : Nat) : Bool := rate ≤ (s.facet f).clk

/-- One 64-bit word at a lane's receiver (R49, R52, R75, R81, R102). A facet that holds no running plane takes no words;
the boundary counts what it discards (R14). -/
def State.takeWord (s : State) (n raw : Nat) : State :=
  if s.laneState n ≠ 4 then s
  else
    let word := if s.bit FLN_CTRL.rx_invert n then raw ^^^ (2 ^ 64 - 1) else raw
    let s := if s.get FLN_CTRL.loopback n = 2 ∧ s.bit FLN_CTRL.tx_en n then
        s.sendFront n word
      else s
    let timing := s.bit FLN_TIMING_SEL.enable && s.get FLN_TIMING_SEL.lane = n
    let st56 := s.facetState 56
    let s := if timing && (st56 = 1 || st56 = 2 || st56 = 3) then s.pathWord 56 0 word else s
    let f := n / 4
    let st := s.facetState f
    if ¬ s.facetServes f (s.get FLN_CTRL.rate n) then
      (s.inc FLN_DISCARD_CNT.count n).facetErr EDG_FERR.clk_too_slow f
    else if st = 0 ∨ st = 4 then s.inc FLN_DISCARD_CNT.count n
    else s.pathWord f (n % 4) word

/-- One 64-bit word on FRX of a lane: in near-end loopback the receiver listens to the lane's own transmitter instead (R75). -/
def State.laneWord (s : State) (n raw : Nat) : State := if s.get FLN_CTRL.loopback n = 1 then s else s.takeWord n raw

/-- The block that a facet cycle brings to a lane's block port: the next block of the FIFO, descrambled and checked, with
its status bits (R84 to R86). The sinks are those registered at the start of the cycle. -/
def State.portCycle (s : State) (f l : Nat) (sinks : List (Nat × Nat)) : State :=
  let x := s.facet f
  let p := s.path f l
  let img := x.active
  let keepPast (b : Block) : List Block := (b :: p.past).take 16
  match p.fifo with
  | [] =>
    let b : Block := { data := p.port.data, aligned := p.port.aligned }
    s.updPath f l fun q => { q with port := b, past := keepPast b }
  | b :: rest =>
    let lo := imgPrim img l 2 1
    let hi := imgPrim img l 0 1
    let mode := imgPrim img l 10 1
    let seed := mode = 2 && x.sink sinks (0x100 * l + 2)
    let r := scramble mode (imgPrim img l 11 1) (imgPrim img l 12 8) false lo hi b.data
      (if seed then imgPrim img l 20 8 else p.hist)
    let s := if seed then s.put EDG_LANE_STATUS.seeded 1 f l else s
    let c := crcParm img l
    let start := 0 < c.w && x.sink sinks (0x100 * l)
    let isOpen := start || s.bit EDG_LANE_STATUS.span_open f l
    let stop := isOpen && x.sink sinks (0x100 * l + 1)
    let ps := (List.range (hi - lo)).map (· + lo)
    let ps := if stop && c.compare then ps.filter fun i => i < c.off || c.off + c.w ≤ i else ps
    let reg := if isOpen then c.take r.1 ps (if start then c.init % 2 ^ c.w else p.crc) else p.crc
    let ok := stop && c.result reg == (if c.compare then bits r.1 c.off c.w else 0)
    let blk : Block := { b with data := r.1, crcDone := stop, crcOk := ok }
    let s := s.updPath f l fun q => { q with fifo := rest, hist := r.2, crc := reg, port := blk, past := keepPast blk }
    let s := s.put EDG_LANE_STATUS.span_open (b2n (isOpen && !stop)) f l
    if stop then (if ok then s.inc EDG_CRC_OK_CNT.count f l else s.inc EDG_CRC_ERR_CNT.count f l) else s

/-- Words that the packer emits go to the lane's Prism port with the latched tag; the first of a crossing is flagged
(R87). -/
def State.emitWord (s : State) (f l word : Nat) : State :=
  (s.updPath f l fun p =>
    { p with words := p.words ++ [{ tag := p.tag, first := p.first, word := word }], first := false }).inc
      EDG_PRISM_WORD_CNT.count f l

/-- Emits whole words from the packer's bits, at most `k`. -/
def State.packOut (f l : Nat) : Nat → State → State
  | 0, s => s
  | k + 1, s =>
    let p := s.path f l
    if 64 ≤ p.packBits then
      State.packOut f l k ((s.emitWord f l (p.pack % 2 ^ 64)).updPath f l
        fun q => { q with pack := p.pack >>> 64, packBits := p.packBits - 64 })
    else s

/-- The payload packer of a lane in one facet cycle (R87). -/
def State.packCycle (s : State) (f l : Nat) (sinks : List (Nat × Nat)) : State :=
  let x := s.facet f
  let p := s.path f l
  let img := x.active
  let b := p.past.getD (imgPrim img l 50 1) { data := 0 }
  let sk (k : Nat) : Bool := x.sink sinks (0x100 * l + k)
  if ¬ b.valid then s
  else
    let s := if sk 4 then
        s.updPath f l fun q => { q with tag := x.sinkBits sinks (0x100 * l + 0x10) 12, first := true, pack := 0, packBits := 0 }
      else s
    let s := if sk 3 then
        let w := imgPrim img l 49 1
        State.packOut f l 3 (s.updPath f l fun q =>
          { q with pack := q.pack + (bits b.data (imgPrim img l 48 1) w) <<< q.packBits, packBits := q.packBits + w })
      else s
    let s := if sk 5 ∧ 0 < (s.path f l).packBits then
        (s.emitWord f l ((s.path f l).pack % 2 ^ 64)).updPath f l fun q => { q with pack := 0, packBits := 0 }
      else s
    if sk 6 then s.slowByte (4 * f + l) (BitVec.ofNat 8 (bits b.data (imgPrim img l 51 1) 8)) else s

/-- What facet `f`'s transmit path of lane `l` makes of one scheduler word, with the path's new state (R89): overlay, CRC
insertion, scrambling. -/
def State.txMade (s : State) (f l : Nat) (word : Nat) : Nat × Nat × Bool × Nat :=
  let x := s.facet f
  let img := x.active
  let sinks := imgSinks img
  let sk (k : Nat) : Bool := x.sink sinks (0x100 * l + k)
  let p := s.path f l
  let w := if sk 0x20 then setBits word (imgPrim img l 53 1) 16 (x.sinkBits sinks (0x100 * l + 0x30) 16) else word
  let c := crcParm img l
  let off := imgPrim img l 54 1
  let isOpen := 0 < c.w && (sk 0x21 || p.txOpen)
  let ins := isOpen && sk 0x22
  let m := if ins then setBits w off c.w 0 else w
  let reg := if isOpen then c.take m (List.range 64) (if sk 0x21 then c.init % 2 ^ c.w else p.txCrc) else p.txCrc
  let w := if ins then setBits m off c.w (c.result reg) else w
  let mode := imgPrim img l 52 1
  let r := scramble mode (imgPrim img l 11 1) (imgPrim img l 12 8) true (imgPrim img l 2 1) 64 w
    (if mode = 2 && sk 0x23 then imgPrim img l 20 8 else p.scr)
  (r.1, reg, isOpen && !ins, r.2)

/-- Lane `n` of the front sends the word `w`: inverted, and looped back, where FLN_CTRL says so (R49, R75). -/
def State.txOut (s : State) (n w : Nat) : State :=
  if ¬ s.bit FLN_CTRL.tx_en n then s
  else
    let out := s.lineWord n w
    let s := s.sendFront n w
    if s.get FLN_CTRL.loopback n = 1 then s.takeWord n out else s

/-- What facet `f` gives lane `l` for one scheduler word, in facet state `st`: zeros where it does not run (R108). -/
def State.txStep (s : State) (st f l word : Nat) : State × Nat :=
  if st ≠ 1 then (s, 0)
  else
    let m := s.txMade f l word
    (s.updPath f l fun q => { q with txCrc := m.2.1, txOpen := m.2.2.1, scr := m.2.2.2 }, m.1)

/-- One scheduler word at the overlay stage of its lane: what the facet makes of it goes out (R89, R108); in far-end loopback
the lane discards and counts it (R75). -/
def State.txEmit (s : State) (n : Nat) (t : TxWord) : State :=
  let p := s.txStep (s.facetState (n / 4)) (n / 4) (n % 4) t.word
  if s.get FLN_CTRL.loopback n = 2 then p.1.inc FLN_DISCARD_CNT.count n else p.1.txOut n p.2

/-- The words whose facet cycles are over leave for the overlay stage, oldest first, at most `k` of them. -/
def State.txDrain (n : Nat) : Nat → State → State
  | 0, s => s
  | k + 1, s =>
    match (s.path (n / 4) (n % 4)).txQ with
    | (t, 0) :: rest => State.txDrain n k ((s.updPath (n / 4) (n % 4) fun p => { p with txQ := rest }).txEmit n t)
    | _ => s

/-- A facet cycle ends for a transmit path: the words on their way to the overlay stage move on by one cycle (R89). -/
def State.txCycle (s : State) (n : Nat) : State :=
  let k := (s.path (n / 4) (n % 4)).txQ.length
  State.txDrain n k (s.updPath (n / 4) (n % 4) fun p => { p with tap := none, txQ := p.txQ.map fun e => (e.1, e.2 - 1) })

/-- The transmit path takes one scheduler word: the logic sees it in the coming facet cycle, and tx_delay facet cycles later
it stands at the overlay stage (R89). A facet that does not run sends all-zero words at once (R108); in SWITCH the scheduler
words are counted (R112). In far-end loopback the lane discards and counts them (R75). -/
def State.txWord (s : State) (n : Nat) : State :=
  match (s.lane n).words with
  | [] => s
  | t :: rest =>
    let s := s.updLane n fun l => { l with words := rest }
    if s.get FLN_CTRL.loopback n = 2 then s.inc FLN_DISCARD_CNT.count n
    else
      let f := n / 4
      let st := s.facetState f
      let s := if st = 3 then s.inc FLN_DISCARD_CNT.count n else s
      let d := if st = 1 then imgPrim (s.img f) (n % 4) 55 1 else 0
      let s := if st = 1 then s.updPath f (n % 4) fun p => { p with tap := some t } else s
      if d = 0 ∧ (s.path f (n % 4)).txQ = [] then s.txEmit n t
      else s.updPath f (n % 4) fun p => { p with txQ := p.txQ ++ [(t, d)] }

end Sys2Proof.Machine
end

