-- ==== Sys2Proof/Machine/Edge.lean ====
section
/-! DEFINITION. The edge fabric: product-term logic, block memories, timers, edge detectors, images, facet states and
GPIO (04). -/

namespace Sys2Proof.Machine

/-- What a facet sees of the world outside it in one cycle: synchronised pin inputs, global and broadcast lines, the
slot strobe, the 1 µs tick. -/
structure FacetSees where
  pins : Nat
  lines : Nat
  strobe : Bool
  us : Bool

/-- The value of a source (R91). -/
def State.facetSource (s : State) (f : Nat) (v : FacetSees) (c : Nat) : Bool :=
  let x := s.facet f
  if c < 0x100 then x.cells.testBit c
  else if c < 0x200 then
    let l := (c - 0x100) / 64
    let k := (c - 0x100) % 64
    (s.path f l).port.data.testBit (imgPrim x.active l (44 + k / 16) 1 + k % 16)
  else if c < 0x220 then
    let l := (c - 0x200) / 8
    let b := (s.path f l).port
    let lane := if f = 56 then s.get FLN_TIMING_SEL.lane else 4 * f + l
    match (c - 0x200) % 8 with
    | 0 => b.valid
    | 1 => b.aligned
    | 2 => b.crcDone
    | 3 => b.crcOk
    | 4 => b.slip
    | 5 => s.laneState lane = 4
    | 6 => s.bit EDG_LANE_STATUS.seeded f l
    | _ => false
  else if c < 0x230 then x.expired.testBit (c - 0x220)
  else if c < 0x270 then x.pulses.testBit (c - 0x230)
  else if c < 0x290 then
    match (s.path f ((c - 0x280) / 4)).tap with
    | none => false
    | some t =>
      match (c - 0x280) % 4 with
      | 0 => true
      | 1 => t.tag.testBit 0
      | 2 => t.tag.testBit 1
      | _ => t.first
  else if c < 0x300 then
    let l := (c - 0x2C0) / 16
    match (s.path f l).tap with
    | none => false
    | some t => t.word.testBit (imgPrim x.active l 56 1 + (c - 0x2C0) % 16)
  else if c < 0x600 then
    let k := c - 0x400
    (Sparse.get 0 x.read (2 * (k / 0x80) + k % 0x80 / 0x40)).testBit (k % 0x40)
  else if c < 0x720 then v.lines.testBit (c - 0x600)
  else if c = 0x720 then v.strobe
  else if c = 0x721 then s.numbered
  else if c = 0x722 then s.gnoState = 4
  else if c < 0x730 then (s.get GNO_INDEX.index).testBit (c - 0x724)
  else if c < 0x860 then v.pins.testBit (c - 0x800)
  else false

/-- The terms of block `b` as a set: each is the AND of the literals its masks select (R92). -/
def blockTerms (img : List (BitVec 8)) (inputs cells b : Nat) : Nat :=
  let lits := inputs + bits cells (16 * b) 16 * 2 ^ 160
  bitSet 32 fun j =>
    let t := imgTermT img (32 * b + j)
    let c := imgTermC img (32 * b + j)
    lits &&& t == t && lits &&& c == 0

/-- The next value and carry out of a macrocell (R93, R94). -/
def macrocell (r0 terms : Nat) (q cin : Bool) : Bool × Bool :=
  let a := bits r0 0 32 &&& terms != 0
  let b := bits r0 32 32 &&& terms != 0
  let inv := r0.testBit 66
  match bits r0 64 2 with
  | 0 => (xor a inv, false)
  | 1 => (xor q (xor a inv), false)
  | 2 => (xor (xor a b) cin, (a && b) || (a && cin) || (b && cin))
  | _ => (if b then xor a inv else q, false)

/-- The 256 registers after one cycle (R93, R94). -/
def nextCells (img : List (BitVec 8)) (inputs cells : Nat) : Nat :=
  let terms := (List.range 16).map fun b => blockTerms img inputs cells b
  ((List.range 256).foldl (fun (r : Nat × Bool) n =>
    let r0 := imgCell img n
    let cin := match bits r0 68 2 with
      | 0 => r.2
      | 2 => true
      | _ => false
    let o := macrocell r0 (terms.getD (n / 16) 0) (cells.testBit n) cin
    (r.1 + b2n o.1 * 2 ^ n, o.2)) (0, false)).1

/-- Row, lowest bit and width that an address of an aspect code reaches (R97). -/
def bramPlace (aspect a : Nat) : Nat × Nat × Nat :=
  match aspect with
  | 0 => (a % 2 ^ 15 / 32, a % 32, 1)
  | 1 => (a % 2 ^ 14 / 16, 2 * (a % 16), 2)
  | 2 => (a % 2 ^ 13 / 8, 4 * (a % 8), 4)
  | 3 => (a % 2 ^ 12 / 4, 9 * (a % 4), 9)
  | 4 => (a % 2 ^ 11 / 2, 18 * (a % 2), 18)
  | _ => (a % 2 ^ 10, 0, 36)

/-- One cycle of block memory `m` (R98): both ports read what stood before the cycle, port 0's write wins. -/
def State.bramCycle (s : State) (f m : Nat) (sinks : List (Nat × Nat)) : State :=
  let x := s.facet f
  let sk (p k : Nat) : Bool := x.sink sinks (0x1000 + 0x100 * m + 0x80 * p + k)
  let place (p : Nat) := bramPlace (imgAspect x.active m) (x.sinkBits sinks (0x1000 + 0x100 * m + 0x80 * p + 0x10) 15)
  let row (p : Nat) := Sparse.get 0 x.rows (1024 * m + (place p).1)
  let writes (p : Nat) := sk p 0 && sk p 1
  let clash := writes 0 && writes 1 && (place 0).1 == (place 1).1 && (place 0).2.1 == (place 1).2.1
  let rd (p : Nat) (y : Facet) : Facet :=
    if sk p 0 then { y with read := Sparse.set 0 y.read (2 * m + p) (bits (row p) (place p).2.1 (place p).2.2) } else y
  let wr (p : Nat) (y : Facet) : Facet :=
    let k := 1024 * m + (place p).1
    let d := x.sinkBits sinks (0x1000 + 0x100 * m + 0x80 * p + 0x20) 36
    { y with rows := Sparse.set 0 y.rows k (setBits (Sparse.get 0 y.rows k) (place p).2.1 (place p).2.2 d) }
  let s := s.updFacet f fun y =>
    let y := rd 1 (rd 0 y)
    let y := if writes 0 then wr 0 y else y
    if writes 1 && !clash then wr 1 y else y
  if clash then (s.inc EDG_BRAM_COLL_CNT.count f).facetErr EDG_FERR.bram_collision f else s

/-- A tick of a hard timer (R99): the new timer and whether it expires. -/
def HardTimer.tick (h : HardTimer) (reload : Nat) (periodic : Bool) : HardTimer × Bool :=
  if ¬ h.running then (h, false)
  else if h.count ≤ 1 then ({ count := if periodic then reload else 0, running := periodic }, true)
  else ({ h with count := h.count - 1 }, false)

/-- Timer `t`'s record in the plane in force. -/
def State.timerRec (s : State) (f t : Nat) : Nat := imgTimer (s.img f) t

/-- The timers of a facet in one RUN cycle: load, then stop, then start, then tick; a tick in a cycle with a load is
lost (R99, R100). `src` gives the sources as they stand in this cycle. -/
def State.timerCycle (s : State) (f : Nat) (v : FacetSees) (src : Nat → Bool) (sinks : List (Nat × Nat)) : State :=
  let x := s.facet f
  let r := (List.range 16).foldl (fun (r : Sparse HardTimer × Nat × Nat) t =>
    let r0 := s.timerRec f t
    let sk (k : Nat) : Bool := x.sink sinks (0x2000 + 4 * t + k)
    let now := src (bits r0 64 16)
    let ticks := match bits r0 57 2 with
      | 0 => true
      | 1 => v.strobe
      | 2 => v.us
      | _ => now && !x.tickPrev.testBit t
    let h := Sparse.get {} r.1 t
    let h := if sk 2 then { h with count := bits r0 0 24 } else h
    let h := if sk 1 then { h with running := false } else h
    let h := if sk 0 then { h with running := true } else h
    let o := if ticks && !sk 2 then h.tick (bits r0 0 24) (r0.testBit 59) else (h, false)
    (Sparse.set {} r.1 t o.1, r.2.1 + b2n o.2 * 2 ^ t, r.2.2 + b2n now * 2 ^ t)) (x.timers, 0, 0)
  s.updFacet f fun y => { y with timers := r.1, expired := r.2.1, tickPrev := r.2.2 }

/-- The edge detectors of a facet in one cycle (R101, R113): the pulses for the next cycle and the new samples. `src` gives
the sources as they stand in this cycle. -/
def State.edgeCycle (s : State) (f : Nat) (src : Nat → Bool) : State :=
  let x := s.facet f
  let r := (List.range 64).foldl (fun (r : Nat × Nat) e =>
    let r0 := imgEdge x.active e
    let now := src (r0 % 65536)
    let was := if x.fresh.testBit e then now else x.prev.testBit e
    let pulse := match bits r0 16 2 with
      | 1 => now && !was
      | 2 => was && !now
      | 3 => now != was
      | _ => false
    (r.1 + b2n pulse * 2 ^ e, r.2 + b2n now * 2 ^ e)) (0, 0)
  s.updFacet f fun y => { y with pulses := r.1, prev := r.2, fresh := 0 }

/-- A pin's standard and its bank's supply permit an output (R117). -/
def stdDrives (std vddio : Nat) : Bool :=
  match std with
  | 0 => vddio != 0
  | 1 => vddio == 3
  | 2 => vddio == 1
  | _ => false

/-- A pin's standard is permitted at its bank's supply, at least as an input (R117). -/
def stdPermitted (std vddio : Nat) : Bool :=
  match std with
  | 0 => true
  | 1 => vddio == 2 || vddio == 3
  | 2 => vddio == 1 || vddio == 2
  | _ => false

/-- The pins that an image claims through a GPIO sink (R118). -/
def imgPins (img : List (BitVec 8)) : List Nat :=
  ((imgSinks img).filter fun e => 0x4000 ≤ e.1 && e.1 < 0x40C0).map fun e => (e.1 - 0x4000) / 2

/-- A pin drives out: its claiming facet enables it, and its standard and supply permit an output (R117, R118, R121). -/
def State.drivePin (s : State) (n : Nat) : State :=
  s.put GPI_PIN.driving (b2n ((s.facet (s.get GPI_PIN.facet n)).gpioEn.testBit n &&
    stdDrives (s.get GPI_PIN.std n) (s.get GPI_BANK_STATUS.vddio (n / 24)))) n

/-- The claimed pins take output values and enables from the sinks (R95, R118). -/
def State.gpioCycle (s : State) (f : Nat) (sinks : List (Nat × Nat)) : State :=
  let x := s.facet f
  let pins := imgPins x.active
  let out := bitSet 96 fun n => pins.contains n && x.sink sinks (0x4000 + 2 * n)
  let en := bitSet 96 fun n => pins.contains n && x.sink sinks (0x4000 + 2 * n + 1)
  let s := s.updFacet f fun y => { y with gpioOut := out, gpioEn := en }
  pins.foldl (fun s n => s.drivePin n) s

/-- The exported lines of an image's macrocells (R96). -/
def exportLines (img : List (BitVec 8)) (cells : Nat) : Nat := bitSet 32 fun j => sinkValue cells (imgExport img j)

/-- The lines that reach a facet: its group's exports, facet position q at bits 32q up, and the timing broadcast at bit
256 up (R91, R96). -/
def State.linesTo (s : State) (f : Nat) : Nat :=
  if f = 56 then 0
  else (List.range 8).foldl (fun a q => a + (if 8 * (f / 8) + q < 56 then (s.facet (8 * (f / 8) + q)).exports * 2 ^ (32 * q) else 0))
    ((s.facet 56).exports * 2 ^ 256)

/-- The ages in facet cycles of the slot strobes on their way, and whether one is present in this cycle: exactly 1 cycle after
its edge in the timing facet, 2 to 3 cycles after it in a lane facet (R91). -/
def strobeStep (timing late new : Bool) (ages : List Nat) : List Nat × Bool :=
  let a := ages.map (· + 1) ++ if new then [0] else []
  let here (k : Nat) : Bool := if timing then decide (1 ≤ k) else decide (3 ≤ k) || (k == 2 && !late)
  (a.filter fun k => !here k, a.any here)

/-- The timing facet presents a command word to Gnomon (R38, R102): a second word before the sample is refused; in a
state without reference edges it is ignored. -/
def State.presentWord (s : State) (w : Nat) : State :=
  if ¬ s.hasTimeline ∨ w % 256 = 0 then s
  else match s.gno.presented with
    | none => s.updGno fun g => { g with presented := some w, setup := 1 }
    | some _ => (s.inc GNO_COLLISION_CNT.count).err GNO_ERR.fc_collision

/-- The inputs of a facet's pins: the second pin of a differential pair supplies 0 (R118). -/
def State.pinInputs (s : State) (pins : Nat) : Nat :=
  bitSet 96 fun n => pins.testBit n && !(n % 2 == 1 && s.get GPI_PIN.std n != 0)

/-- The lanes of a facet's receive paths: the timing facet has lane 0 only (R79). -/
def facetLanes (f : Nat) : List Nat := if f = 56 then [0] else [0, 1, 2, 3]

/-- The transmit paths of a lane facet move on by one cycle (R89). -/
def State.txCycles (s : State) (f : Nat) : State :=
  if f = 56 then s else [0, 1, 2, 3].foldl (fun s l => s.txCycle (4 * f + l)) s

/-- The ports of a facet in RUN show the blocks of the cycle, and its packers take them (R86, R87). -/
def State.portCycles (s : State) (f : Nat) : State :=
  let sinks := imgSinks (s.facet f).active
  let s := (facetLanes f).foldl (fun s l => s.portCycle f l sinks) s
  if f = 56 then s else (facetLanes f).foldl (fun s l => s.packCycle f l sinks) s

/-- The 160 inputs of the macrocells in a cycle (R91, R104). -/
def State.cellInputs (s : State) (f : Nat) (v : FacetSees) : Nat :=
  bitSet 160 fun i => s.facetSource f v (imgInput (s.facet f).active i)

/-- A cycle of a facet in RUN (R86 to R102): everything acts on the registers and on the sources of the cycle's start. -/
def State.runCycle (s : State) (f : Nat) (v : FacetSees) : State :=
  let x := s.facet f
  let sinks := imgSinks x.active
  let s := s.portCycles f
  let src : Nat → Bool := s.facetSource f v
  let cells := nextCells x.active (s.cellInputs f v) x.cells
  let s := (List.range 4).foldl (fun s m => s.bramCycle f m sinks) s
  let s := (s.timerCycle f v src sinks).edgeCycle f src
  let s := s.gpioCycle f sinks
  let s := if f = 56 ∧ x.sink sinks 0x3010 then s.presentWord (x.sinkBits sinks 0x3000 16) else s
  s.updFacet f fun y => { y with cells := cells, exports := exportLines x.active cells }

/-- A cycle of a facet in SWITCH: the kept timers tick on by their old records, except on tick 3, and their expiries are held
(R113). The plane that the exchange replaced holds the old records until RUN. -/
def State.switchCycle (s : State) (f : Nat) (v : FacetSees) : State :=
  let x := s.facet f
  let r := (List.range 16).foldl (fun (r : Sparse HardTimer × Nat) t =>
    let r0 := imgTimer x.shadow t
    let kept := !(imgTimerRestart x.active).testBit t
    let ticks := kept && match bits r0 57 2 with
      | 0 => true
      | 1 => v.strobe
      | 2 => v.us
      | _ => false
    let o := if ticks then (Sparse.get {} r.1 t).tick (bits r0 0 24) (r0.testBit 59) else (Sparse.get {} r.1 t, false)
    (Sparse.set {} r.1 t o.1, r.2 + b2n o.2 * 2 ^ t)) (x.timers, 0)
  s.updFacet f fun y => { y with timers := r.1, held := y.held ||| r.2 }

/-- A timing-facet cycle more for the presented word's setup (R102). -/
def State.setupCycle (s : State) (f : Nat) : State :=
  if f = 56 ∧ s.gno.presented.isSome then s.updGno fun g => { g with setup := g.setup + 1 } else s

/-- GPI_PIN.in of the pins that a facet's synchronisers show: its own pins and those that no facet claims (R118, R121). -/
def State.showPins (s : State) (f pins : Nat) : State :=
  forN 96 s fun n s =>
    if s.get GPI_PIN.facet n = f ∨ s.get GPI_PIN.facet n = 0x3F then s.put GPI_PIN.in_ (b2n (pins.testBit n)) n else s

/-- The slot strobe of a facet's cycle, and the edges that still wait for theirs (R91). -/
def State.strobes (s : State) (f : Nat) (late : Bool) : List Nat × Bool :=
  strobeStep (f = 56) late ((s.facet f).edges ≠ s.edge.edges) (s.facet f).strobes

/-- What a facet's cycle sees from outside (R91): a line of `late` takes the cycle more that its synchroniser may. -/
def State.facetSees (s : State) (f pins : Nat) (us : Bool) (late : Nat) (lateStrobe : Bool) : FacetSees :=
  let x := s.facet f
  { pins := s.pinInputs pins, strobe := (s.strobes f lateStrobe).2, us,
    lines := bitSet 288 fun i => if late.testBit i then x.lines3.testBit i else x.lines2.testBit i }

/-- The synchronisers of a facet move on by a cycle (R91, R118). -/
def State.facetStages (s : State) (f pins : Nat) (lateStrobe : Bool) : State :=
  let sb := s.strobes f lateStrobe
  let v := s.pinInputs pins
  let s := s.setupCycle f
  (s.updFacet f fun y =>
    { y with lines3 := y.lines2, lines2 := y.lines1, lines1 := s.linesTo f, edges := s.edge.edges, strobes := sb.1 }).showPins f v

/-- One cycle of a facet (R86 to R102). In RUN everything acts on the registers of the cycle's start; in SWITCH only the
kept timers tick (R113); in every other state nothing moves but words on their way to the overlay stage. -/
def State.facetCycle (s : State) (f pins : Nat) (us : Bool) (late : Nat) (lateStrobe : Bool) : State :=
  let st := s.facetState f
  let v := s.facetSees f pins us late lateStrobe
  let s := s.facetStages f pins lateStrobe
  let s := if st = 1 then s.runCycle f v else if st = 3 then s.switchCycle f v else s
  s.txCycles f

/-- One tick of a facet timer that takes its count from 1 (or 0) to an expiry (R99, R113). In RUN the controls of the cycle
act before it: a tick in a cycle that carries a load is lost, a stop acts before a start (R100). In SWITCH only a timer that the
new image does not restart ticks, and not on tick 3 (R113). -/
def State.facetTimerExpiry (s : State) (f t : Nat) : State :=
  let st := s.facetState f
  let x := s.facet f
  let h := Sparse.get {} x.timers t
  let sk (k : Nat) : Bool := st == 1 && x.sink (imgSinks x.active) (0x2000 + 4 * t + k)
  let running := sk 0 || (h.running && !sk 1)
  let r0 := imgTimer (if st = 3 then x.shadow else x.active) t
  let kept := st = 3 && !(imgTimerRestart x.active).testBit t && bits r0 57 2 != 3
  if (st = 1 ∨ kept) ∧ running ∧ ¬ sk 2 ∧ h.count ≤ 1 then
    let o := ({ h with running := true } : HardTimer).tick (bits r0 0 24) (r0.testBit 59)
    s.updFacet f fun y =>
      { y with timers := Sparse.set {} y.timers t o.1,
               expired := if st = 1 then y.expired ||| 2 ^ t else y.expired,
               held := if st = 3 then y.held ||| 2 ^ t else y.held }
  else s

/-- A pin leaves its facet: an input with high impedance (R108, R118). -/
def State.releasePin (s : State) (n : Nat) : State := (s.put GPI_PIN.facet 0x3F n).put GPI_PIN.driving 0 n

/-- The pins that a facet holds and that `keep` does not name leave it (R118). -/
def State.releasePins (s : State) (f : Nat) (keep : List Nat) : State :=
  forN 96 s fun n s => if s.get GPI_PIN.facet n = f ∧ n ∉ keep then s.releasePin n else s

/-- The ages of the identity records of a facet's lanes hold in SWITCH (R64). -/
def State.takeAges (s : State) (f : Nat) : State :=
  if f = 56 then s else [0, 1, 2, 3].foldl (fun s l => s.takeAge (4 * f + l)) s

/-- Enters a facet state; EDG_RUN shows the facets in RUN; pins are claimed in RUN, HALT and SWITCH and released in
UNCONFIGURED and FAULT (R108, R118, R120). -/
def State.enterFacet (s : State) (f st : Nat) : State :=
  let s := (s.takeAges f).put EDG_FSTATUS.state st f
  let s := if f < 32 then s.setBit EDG_RUN_LO.run f (st = 1) else s.setBit EDG_RUN_HI.run (f - 32) (st = 1)
  if st = 0 ∨ st = 4 then
    (s.releasePins f []).updFacet f fun x => { x with gpioOut := 0, gpioEn := 0 }
  else (imgPins (s.img f)).foldl (fun s n => s.put GPI_PIN.facet f n) s

/-- Drops an armed activation. -/
def State.disarmFacet (s : State) (f : Nat) : State := (s.disarm (.facet f)).put EDG_FSTATUS.act_pending 0 f

/-- Empties the shadow plane (R107, R109). -/
def State.emptyShadow (s : State) (f : Nat) : State :=
  let busy := s.get EDG_FSTATUS.shadow f = 1
  let s := (s.updFacet f fun x => { x with shadow := [], loading := [] }).put EDG_FSTATUS.shadow 0 f
  let s := s.put EDG_SHADOW_ID.id 0 f
  if busy then s.put EDG_CFG_PORT.busy 0 else s

/-- A load_err of a facet (R107). -/
def State.facetLoadErr (s : State) (f e : Nat) : State := s.put EDG_FSTATUS.load_err e f

/-- The physical address of a facet's image. -/
def State.facetImgAddr (s : State) (f : Nat) : Nat :=
  8 * s.get EDG_CFG_ADDR_LO.addr f + 2 ^ 32 * s.get EDG_CFG_ADDR_HI.addr f

/-- A write of 1 to EDG_CFG_CMD.load (R110): refused in SWITCH, while LOADING, or while an activation is pending; the
port serves one facet at a time (R107, code 12). The bytes are those that memory holds at the start of the fetch. -/
def State.facetLoad (s : State) (f : Nat) : State :=
  if s.facetState f = 3 ∨ s.get EDG_FSTATUS.shadow f = 1 ∨ s.bit EDG_FSTATUS.act_pending f then
    s.facetErr EDG_FERR.load_refused f
  else if s.bit EDG_CFG_PORT.busy then (s.emptyShadow f).facetLoadErr f 12
  else
    let len := s.get EDG_CFG_LEN.bytes f
    let got := s.fetchBytes (s.facetImgAddr f) len
    let s := (s.emptyShadow f).updFacet f fun x =>
      { x with loading := got.getD [], fetched := got.isSome, loadLen := len, switched := false }
    let s := (s.put EDG_FSTATUS.shadow 1 f).facetLoadErr f 0
    (s.put EDG_CFG_PORT.facet f).put EDG_CFG_PORT.busy 1

/-- A GPIO pin that another facet claims in RUN, HALT or SWITCH, or that another facet's READY or LOADING shadow image
claims (R107, code 8). -/
def State.pinTaken (s : State) (f n : Nat) : Bool :=
  (List.range 57).any fun g => g ≠ f &&
    (((s.facetState g = 1 || s.facetState g = 2 || s.facetState g = 3) && (imgPins (s.img g)).contains n)
      || (s.get EDG_FSTATUS.shadow g ≠ 0 && ((imgPins (s.facet g).shadow).contains n)))

/-- The load ends its checks (R107): READY, or EMPTY with load_err. A fetch that met an error response ends with code 10. -/
def State.facetLoadDone (s : State) (f : Nat) : State :=
  if s.get EDG_FSTATUS.shadow f ≠ 1 then s
  else
    let x := s.facet f
    let img := x.loading
    let e := if x.fetched then imgErr (f = 56) x.loadLen (s.pinTaken f) img else 10
    let s := s.put EDG_CFG_PORT.busy 0
    if e = 0 then
      ((s.updFacet f fun x => { x with shadow := img, loading := [] }).put EDG_FSTATUS.shadow 2 f).put EDG_SHADOW_ID.id
        (imgId img) f
    else (s.emptyShadow f).facetLoadErr f e

/-- Entry to SWITCH, the commit point (R112, R114): the planes exchange, macrocells load init, marked block memories
load their rows, open spans are discarded, a changed alignment starts anew, and the new clock code takes effect. -/
def State.switchFacet (s : State) (f : Nat) : State :=
  let x := s.facet f
  let new := x.shadow
  let old := x.active
  let init := bitSet 256 fun n => (imgCell new n).testBit 67
  let load := imgBramLoad new
  let rows := (List.range 4).foldl (fun r m =>
    if load.testBit m then
      (List.range 1024).foldl (fun r i => Sparse.set 0 r (1024 * m + i) (imgRow new m i % 2 ^ 36)) r
    else r) x.rows
  let s := s.disarmFacet f
  let s := s.updFacet f fun y =>
    { y with active := new, shadow := old, cells := init, rows := rows, complete := false, resume := false,
             clk := s.get EDG_FCTRL.clk f, switched := true }
  let s : State := if f = 56 then { s with edge := { s.edge with mult := s.get EDG_TCLK.mult } } else s
  let s := (s.put EDG_IMG_ID.id (imgId new) f).put EDG_SHADOW_ID.id 0 f
  let s := (s.put EDG_FSTATUS.shadow 0 f).enterFacet f 3
  (facetLanes f).foldl (fun s l =>
    let same := (List.range 10).all fun k =>
      (k = 3 || k = 4 || k = 5) || imgPrim old l k 1 = imgPrim new l k 1
    let s := s.put EDG_LANE_STATUS.span_open 0 f l
    let s := s.updPath f l fun p => { p with txOpen := false, pack := 0, packBits := 0 }
    if same then s else s.restartPath f l) s

/-- The exchange completes (R112): RUN follows at the first slot barrier. -/
def State.switchComplete (s : State) (f : Nat) : State :=
  if s.facetState f = 3 then s.updFacet f fun x => { x with complete := true } else s

/-- The first RUN cycle after an exchange (R113): timers whose restart bit is 1 take their initial values, detectors
whose restart bit is 1 take their first sample, the expiries held in SWITCH pulse and no detector does. The global and broadcast
lines, held until RUN, follow the new image (R112). The pins that only the old image claimed are released (R118). -/
def State.startRun (s : State) (f : Nat) : State :=
  let img := s.img f
  let s := s.updFacet f fun x =>
    { x with complete := false, shadow := [], fresh := imgEdgeRestart img, expired := x.held, held := 0, pulses := 0,
             exports := exportLines img x.cells,
             timers := (List.range 16).foldl (fun r t =>
               if (imgTimerRestart img).testBit t then
                 Sparse.set {} r t { count := bits (imgTimer img t) 32 24, running := (imgTimer img t).testBit 56 }
               else r) x.timers }
  (s.releasePins f (imgPins img)).enterFacet f 1

/-- What a slot barrier does to the facets: SWITCH with its exchange complete, and HALT with a resume, enter RUN (R109). -/
def State.facetsAtBarrier (s : State) : State :=
  s.edge.facets.foldl (fun s e =>
    let f := e.1
    if s.facetState f = 3 ∧ e.2.complete then s.startRun f
    else if s.facetState f = 2 ∧ e.2.resume then (s.updFacet f fun x => { x with resume := false }).enterFacet f 1
    else s) s

/-- A write of 1 to EDG_CFG_CMD.activate (R109, R111): at once outside RUN, else armed for its barrier. -/
def State.facetActivate (s : State) (f : Nat) : State :=
  let st := s.facetState f
  if s.get EDG_FSTATUS.shadow f ≠ 2 ∨ imgClk (s.facet f).shadow ≠ s.get EDG_FCTRL.clk f ∨ st = 3 ∨ s.gno.due.contains (.facet f) then
    s.facetErr EDG_FERR.activate_refused f
  else if st ≠ 1 then s.switchFacet f
  else
    match s.arm (.facet f) (s.bit EDG_CFG_WHEN_HI.named f)
        (s.get EDG_CFG_WHEN_LO.orbit f + 2 ^ 32 * s.get EDG_CFG_WHEN_HI.orbit f) (s.get EDG_CFG_WHEN_HI.index f) with
    | some s => (s.updFacet f fun x => { x with switched := false }).put EDG_FSTATUS.act_pending 1 f
    | none => s.facetErr EDG_FERR.activate_refused f

/-- The activation barrier of a facet in RUN (R109, R112). -/
def State.facetSwitchEntry (s : State) (f : Nat) : State :=
  if s.isDue (.facet f) then
    (if s.facetState f = 1 ∧ s.get EDG_FSTATUS.shadow f = 2 then (s.tookDue (.facet f)).switchFacet f
     else (s.tookDue (.facet f)).put EDG_FSTATUS.act_pending 0 f)
  else s

/-- A write of 1 to EDG_CFG_CMD.abort (R114): before entry to SWITCH it cancels an activation and empties the shadow
plane; from then on it is too late, until the next load or activation starts; with nothing of the kind it does nothing (R583). -/
def State.facetAbort (s : State) (f : Nat) : State :=
  if (s.facet f).switched ∨ s.gno.due.contains (.facet f) then s.facetErr EDG_FERR.abort_too_late f
  else
    let sh := s.get EDG_FSTATUS.shadow f
    if sh = 0 ∧ ¬ s.bit EDG_FSTATUS.act_pending f then s
    else
      let s := if sh = 1 then s.facetLoadErr f 11 else s
      ((s.disarmFacet f).emptyShadow f).facetErr EDG_FERR.aborted f

/-- A write of 1 to EDG_CFG_CMD.halt (R109). -/
def State.facetHalt (s : State) (f : Nat) : State := if s.facetState f = 1 then s.enterFacet f 2 else s

/-- A write of 1 to EDG_CFG_CMD.resume (R109). -/
def State.facetResume (s : State) (f : Nat) : State :=
  if s.facetState f = 2 then s.updFacet f fun x => { x with resume := true } else s

/-- A write of 1 to EDG_CFG_CMD.capture (R116). -/
def State.facetCapture (s : State) (f : Nat) : State :=
  let st := s.facetState f
  if st = 3 then s.facetErr EDG_FERR.rb_refused f
  else if st = 1 ∨ st = 2 then
    let x := s.facet f
    let words := (List.range 8).map (fun i => bits x.cells (32 * i) 32)
      ++ (List.range 16).map (fun t => let h := Sparse.get {} x.timers t; h.count + b2n h.running * 2 ^ 24)
      ++ [bits x.prev 0 32, bits x.prev 32 32]
      ++ (List.range 4).map (fun l => s.get EDG_LANE_STATUS.aligned f l + 256 * s.get EDG_LANE_STATUS.offset f l)
    (s.updFacet f fun y => { y with capture := words }).put EDG_FSTATUS.capture_done 1 f
  else s

/-- What EDG_RB_DATA and EDG_RB_DATA_HI select (R116): the word, or none where the read is refused. -/
def State.readback (s : State) (f : Nat) : Option Nat :=
  let x := s.facet f
  let st := s.facetState f
  let i := s.get EDG_RB_SEL.index f
  match s.get EDG_RB_SEL.space f with
  | 0 => some (x.capture.getD i 0)
  | 1 => if st = 1 ∨ st = 3 then none
         else some (if i < 1024 then Sparse.get 0 x.rows (1024 * s.get EDG_RB_SEL.mem f + i) else 0)
  | 2 => some (leAt x.active (4 * i) 4)
  | _ => some 0

/-- A read of EDG_RB_DATA (R116): the data registers take the selected word, or 0 where the read is refused. -/
def State.facetReadback (s : State) (f : Nat) : State :=
  match s.readback f with
  | some v => (s.put EDG_RB_DATA.data v f).put EDG_RB_DATA_HI.data (v >>> 32) f
  | none => ((s.put EDG_RB_DATA.data 0 f).put EDG_RB_DATA_HI.data 0 f).facetErr EDG_FERR.rb_refused f

/-- The configuration scrub finds an error (R115): one bit is corrected and counted; two bits fault the facet, or empty
a READY shadow plane with load_err 1. -/
def State.facetScrub (s : State) (f : Nat) (shadow double : Bool) : State :=
  if ¬ double then s.inc EDG_CFG_CORR_CNT.count f
  else if shadow then
    (if s.get EDG_FSTATUS.shadow f = 2 then ((s.disarmFacet f).emptyShadow f).facetLoadErr f 1 else s)
  else if s.facetState f = 1 ∨ s.facetState f = 2 then
    ((s.disarmFacet f).enterFacet f 4).facetErr EDG_FERR.cfg_uncorrectable f
  else s

/-- A facet has lost its planes and its lane paths: the registers that show them are at their reset values (R119). -/
def State.blankFacet (s : State) (f : Nat) : State :=
  (facetLanes f).foldl (fun s l => (((s.put EDG_LANE_STATUS.aligned 0 f l).put EDG_LANE_STATUS.seeded 0 f l).put
    EDG_LANE_STATUS.span_open 0 f l).put EDG_LANE_STATUS.offset 0 f l) (s.put EDG_IMG_ID.id 0 f)

/-- A reset of the edge fabric (R109, R567): every facet UNCONFIGURED with its shadow plane EMPTY and its state lost, and the
clocks in force those of the reset values. -/
def State.resetEdge (s : State) : State :=
  let s := forN 57 s fun f s => (((s.disarmFacet f).emptyShadow f).enterFacet f 0).blankFacet f
  let s := (s.put EDG_CFG_PORT.busy 0).put EDG_CFG_PORT.facet 0
  { s with edge := { s.edge with facets := [], mult := 21 } }

/-- A write to EDG_TCLK (R120): a multiplier outside 4 to 21 takes the nearest bound, and the largest value that keeps
mult × nom_hz at or below 850 MHz is stored when the written one does not. -/
def State.writeTclk (s : State) (m v : Nat) : State :=
  if ¬ writes EDG_TCLK.mult m then s
  else
    let t := s.wrReg 3 0xF000 m v
    t.put EDG_TCLK.mult (min (clampN 4 21 (t.get EDG_TCLK.mult)) (850000000 / t.get GNO_XCLK_NOM.nom_hz))

/-- A write to EDG_FCTRL: facet 56 ignores writes (R119). -/
def State.writeFctrl (s : State) (f m v : Nat) : State := if f = 56 then s else s.wrReg 3 (0x200 * f) m v

/-- Checks a pin's standard against its bank's supply (R118): where the two permit no output the pin stops driving, and where
they do not permit it as an input either it sets std_conflict. -/
def State.checkPin (s : State) (n : Nat) : State :=
  let s := s.drivePin n
  if stdPermitted (s.get GPI_PIN.std n) (s.get GPI_BANK_STATUS.vddio (n / 24)) then s else s.err GPI_ERR.std_conflict 0 n

/-- A write to GPI_PIN (R117, R118): a differential standard on pin 2i also stands at pin 2i + 1, which follows it. -/
def State.writePin (s : State) (n m v : Nat) : State :=
  let was := s.get GPI_PIN.std n
  let pairStd := s.get GPI_PIN.std (n - n % 2)
  let t := s.wrReg 22 (4 * n) m v
  if n % 2 = 1 then (if pairStd = 0 then t.checkPin n else t.put GPI_PIN.std pairStd n)
  else
    let std := t.get GPI_PIN.std n
    let t := if std ≠ 0 then (t.put GPI_PIN.std std (n + 1)).put GPI_PIN.in_ 0 (n + 1)
      else if was ≠ 0 then t.put GPI_PIN.std 0 (n + 1) else t
    (t.checkPin n).drivePin (n + 1)

/-- A GPIO bank supply changes (R117, R118, R121): a pin whose standard the new supply does not permit is an input with high
impedance and sets std_conflict, and a pin whose standard it permits as an input only stops driving. -/
def State.vddioChange (s : State) (k code : Nat) : State :=
  let s := s.put GPI_BANK_STATUS.vddio code k
  let s := s.errBit GPI_ERR.vddio_change k 0 k
  forN 24 s fun i s => s.checkPin (24 * k + i)

end Sys2Proof.Machine
end

