-- ==== Sys2Proof/Machine/Islands.lean ====
section
/-! DEFINITION. Island states, the slot barrier at the islands, epochs and reload (R156 to R175). -/

namespace Sys2Proof.Machine

/-- An island's internal state. -/
def State.isl (s : State) (i : Nat) : Island := Sparse.get {} s.arr.islands i

/-- Changes an island's internal state. -/
def State.updIsl (s : State) (i : Nat) (f : Island → Island) : State :=
  { s with arr := { s.arr with islands := Sparse.upd {} s.arr.islands i f } }

/-- Reports an island's error bit with the island number (R177). -/
def State.islErr (s : State) (f : Fld) (i : Nat) : State := s.err f i i

/-- Publishes ARR_STATUS and BCN_STATUS.contrib from the islands' states (R176, R280). -/
def State.publishArr (s : State) : State :=
  let serving := bitSet 16 fun i => inService (s.islState i)
  ((s.put ARR_STATUS.service serving).put BCN_STATUS.contrib serving).put ARR_STATUS.executing
    (bitSet 16 fun i => executing (s.islState i))

/-- Foreground slots that an island spends in WARM: s − 1 for the Active program's stage count s (R168). -/
def State.warmNeed (s : State) : Nat := s.get SEQ_STATUS.stages - 1

/-- An armed or running reload ends before its commit point with the epoch invalid (R174). -/
def State.stopReload (s : State) (i : Nat) : State :=
  match (s.isl i).reload with
  | none => s
  | some r =>
    let s := s.updIsl i fun x => { x with reload := none }
    let s := (s.put ARR_ISL_RELOAD_STATUS.busy 0 i).put ARR_ISL_RELOAD_STATUS.planes_left
      (min 4095 (r.planes.length - r.next)) i
    (s.put ARR_ISL_STATUS.epoch_valid 0 i).islErr ARR_ISL_ERR.reload_aborted i

/-- An island enters a state; `reason` is given where R168 states one. Entry to OFF, CLEARING, FAULT or QUARANTINE
invalidates the epoch, and entry to OFF, CLEARING or FAULT ends a reload. A clearing that starts anew keeps a loss of lock
(R161). An island that does not execute gives no reading: its
readings are stale (R522). -/
def State.enterIsl (s : State) (i st : Nat) (reason : Option Nat := none) : State :=
  let clearing : Bool := s.islState i == 1 && st == 1
  let s := s.put ARR_ISL_STATUS.state st i
  let s := match reason with
    | some r => s.put ARR_ISL_STATUS.reason r i
    | none => s
  let s := if inUse st then s else s.put ARR_ISL_STATUS.epoch_valid 0 i
  let s := if st = 0 ∨ st = 1 ∨ st = 5 then s.stopReload i else s
  let s := s.put ARR_ISL_STATUS.warm_left (if st = 3 then min 63 s.warmNeed else 0) i
  let s := s.updIsl i fun x => { x with cleared := false, unlocked := x.unlocked && clearing, warmDone := 0 }
  let s := if st = 1 then
      match (s.isl i).mapWait with
      | some m => (s.put ARR_ISL_MAP_ACTIVE.cols m i).updIsl i fun x => { x with mapWait := none }
      | none => s
    else s
  let s := if executing st then s else s.put TAR_ISL_VMIN.stale 1 i
  (if st = 2 then s.tarTrigger 5 else s).publishArr

/-- A write to ARR_ISL_CMD: each bit is judged against the state at the write (R166, R168, R529); `bits` has bit 0 off,
1 on, 2 quarantine, 3 apply_map. An island that Tarnish has retired is not turned on. -/
def State.islCmd (s : State) (i cmd : Nat) : State :=
  let retired := (s.get TAR_STATUS.retired).testBit i
  let st := s.islState i
  let row (b : Nat) : Bool := match b with
    | 0 => st != 0
    | 1 => (st == 0 || st == 5) && !retired
    | 2 => inUse st
    | _ => true
  (List.range 4).foldl (fun s b =>
    if ¬ cmd.testBit b then s
    else if row b then
      s.updIsl i fun x => { x with cmd := x.cmd ||| 2 ^ b, map := if b = 3 then s.get ARR_ISL_MAP.cols i else x.map }
    else s.islErr ARR_ISL_ERR.cmd_refused i) s

/-- Reports each command of a set that no longer has a row at the token (R168). -/
def State.dropCmds (s : State) (i cmds : Nat) : State :=
  (List.range 4).foldl (fun s b => if cmds.testBit b then s.islErr ARR_ISL_ERR.cmd_refused i else s) s

/-- Sets the map that the next entry to CLEARING installs (R166). -/
def State.armMap (s : State) (i : Nat) : State := s.updIsl i fun x => { x with mapWait := some x.map }

/-- One island's transition at the token (R168); `fg` says that the slot that closes was a foreground slot. -/
def State.islToken (s : State) (fg : Bool) (i : Nat) : State :=
  let c := (s.isl i).cmd
  let st := s.islState i
  let s := s.updIsl i fun x => { x with cmd := 0, slow := false }
  let drop (s : State) (used : Nat) : State := s.dropCmds i (c - (c &&& used))
  if c.testBit 0 ∧ st ≠ 0 then drop (s.enterIsl i 0 (some 1)) 1
  else if c.testBit 3 ∧ st ≠ 0 then drop ((s.armMap i).enterIsl i 1 (some 5)) 8
  else if c.testBit 1 ∧ (st = 0 ∨ st = 5) then
    drop ((if c.testBit 3 then s.armMap i else s).enterIsl i 1) 10
  else if c.testBit 3 ∧ st = 0 then drop (s.armMap i) 8
  else if st = 1 then
    drop (if (s.isl i).cleared ∧ ¬ (s.isl i).unlocked then s.enterIsl i 2 else s) 0
  else if c.testBit 2 ∧ inUse st then drop (s.enterIsl i 2 (some 6)) 4
  else if st = 2 then
    drop (if s.bit ARR_ISL_STATUS.epoch_valid i ∧ s.get ARR_ISL_EPOCH.epoch i = s.get ARR_EPOCH.epoch
          ∧ ¬ s.bit ARR_ISL_CTRL.hold i
      then s.enterIsl i (if s.warmNeed = 0 then 4 else 3) else s) 0
  else if st = 3 then
    let need := s.warmNeed
    let n := (s.isl i).warmDone + 1
    drop (if ¬ fg ∨ need ≤ n then s.enterIsl i 4
      else (s.updIsl i fun x => { x with warmDone := n }).put ARR_ISL_STATUS.warm_left (min 63 (need - n)) i) 0
  else drop s 0

/-- ARR_EPOCH increases once at a barrier that applies a change, and islands in WARM or SERVICE take it (R170); the firmware's
copies are those of the new epoch (R175). -/
def State.epochIncrease (s : State) : State :=
  if ¬ s.arr.bump then { s with arr := { s.arr with bumped := false } }
  else
    let s : State := { s with arr := { s.arr with bump := false, bumped := true, copies := s.arr.staged } }
    let s := s.put ARR_EPOCH.epoch (s.get ARR_EPOCH.epoch + 1)
    let e := s.get ARR_EPOCH.epoch
    (List.range 16).foldl (fun s i => if inUse (s.islState i) then s.put ARR_ISL_EPOCH.epoch e i else s) s

/-- The raw ARR_WHALO_n word. -/
def State.whaloWord (s : State) (n : Nat) : Nat := s.get ARR_WHALO.addr n + 2 ^ 31 * s.get ARR_WHALO.enable n

/-- The edge configuration written comes into force and the ready bits clear (R155, R156). -/
def State.edgeAtBarrier (s : State) : State :=
  let w := (List.range 8).foldl (fun (t : Sparse Nat) n => Sparse.set 0 t n (s.whaloWord n)) []
  { s with arr := { s.arr with edge := s.regWord 5 8, whalo := w } }.put ARR_WHALO_READY.ready 0

/-- Every island's transition, and the accounting of arrivals starts anew (R163). -/
def State.islandsAtBarrier (s : State) (fg : Bool) : State :=
  let s := (List.range 16).foldl (fun s i => s.islToken fg i) s
  { s with arr := { s.arr with arrived := [], late := false, timedOut := false } }

/-- The intake banks exchange where `entered` names the crossing and P of an entry instant, and no crossing is visible
otherwise; the outbound banks always exchange (R124). -/
def State.exchangeBanks (s : State) (entered : Bool) : State :=
  let p := s.pri
  let p := { p with outVisible := p.outHidden, outHidden := p.outVisible }
  let p := if entered then
      { p with inVisible := p.inHidden, inHidden := p.inVisible, visible := p.hidden, hidden := none }
    else { p with visible := none }
  { s with pri := p }

/-- Every executing island has arrived. -/
def State.allArrived (s : State) : Bool :=
  (List.range 16).all fun j => !executing (s.islState j) || Sparse.get 0 s.arr.arrived j != 0

/-- Records the spread of the arrive times of the barrier (R163). -/
def State.recordSpread (s : State) : State :=
  let ts := s.arr.arrived.map (·.2)
  let high := ts.foldl max 0
  let spread := min 0xFFFF ((high - ts.foldl min high) / 1000)
  let s := s.put ARR_BAR_SPREAD.ps spread
  s.raiseTo ARR_BAR_SPREAD_MAX.ps spread

/-- Island `i` executes and has not arrived: the barrier awaits it (R162, R164). -/
def State.awaited (s : State) (i : Nat) : Bool := executing (s.islState i) && Sparse.get 0 s.arr.arrived i == 0

/-- An arrival, or the fall of an island that was awaited, may be the last: the spread is recorded, and a barrier that waited
past its edge is counted as late, unless a timeout sends its token (R162 to R164). -/
def State.arrivals (s : State) : State :=
  if s.arr.arrived.isEmpty ∨ ¬ s.allArrived then s
  else
    let s := s.recordSpread
    if s.arr.late ∧ ¬ s.arr.timedOut then (s.err ARR_ERR.bar_late).inc ARR_BAR_LATE_CNT.count else s

/-- An executing island reports that it has retired its last microword (R162): the arrive instant in fs, and whether it
came after t_e + d_i. -/
def State.islandArrive (s : State) (i t : Nat) (late : Bool) : State :=
  if ¬ s.awaited i then s
  else
    { s with arr := { s.arr with arrived := Sparse.set 0 s.arr.arrived i (t + 1), late := s.arr.late || late } }.arrivals

/-- A slot reference edge has come whose barrier has not passed (R162). -/
def State.edgeStands (s : State) : Bool := s.hasTimeline && s.gno.barrier != some s.lastSerial

/-- An executing island has not arrived by ARR_BAR_TMO: it goes to FAULT and the token leaves without it (R164). -/
def State.barrierTimeout (s : State) (i : Nat) : State :=
  if ¬ s.awaited i then s
  else
    let s := { s with arr := { s.arr with timedOut := true } }
    ((((s.enterIsl i 5 (some 3)).err ARR_ERR.bar_timeout 0 i).islErr ARR_ISL_ERR.bar_timeout i).inc ARR_BAR_TMO_CNT.count).arrivals

/-- The island's clock runs: it executes, or it clears and has not lost lock (R161). -/
def State.clockRuns (s : State) (i : Nat) : Bool :=
  executing (s.islState i) || (s.islState i == 1 && !(s.isl i).unlocked)

/-- An island's mean period over 16 cycles is measured (R161). -/
def State.islandClock (s : State) (i period : Nat) : State :=
  if ¬ s.clockRuns i then s
  else
    let s := s.put ARR_ISL_CLK_MEAS.period_fs (min period 0xFFFFF) i
    if 103 * s.get ARR_ISL_CLK_PLAN.period_fs i < 100 * period then
      let s := s.islErr ARR_ISL_ERR.clk_slow i
      let s : State := { s with seq := { s.seq with releases := s.seq.releases.map fun r => { r with slow := r.slow ||| 2 ^ i } } }
      if (s.isl i).slow then s
      else (s.updIsl i fun x => { x with slow := true }).inc ARR_ISL_SLOW_CNT.count i
    else s

/-- An island's clock generator loses lock (R161). A barrier that awaited the island past its slot reference edge was late, and
it awaits the island no more (R162, R164). -/
def State.clockUnlock (s : State) (i : Nat) : State :=
  let st := s.islState i
  if executing st then
    let waited := s.awaited i
    let late := waited && s.edgeStands
    let s := (s.enterIsl i 5 (some 4)).islErr ARR_ISL_ERR.clk_unlock i
    let s : State := { s with arr := { s.arr with late := s.arr.late || late } }
    if waited then s.arrivals else s
  else if st = 1 then
    (s.updIsl i fun x => { x with unlocked := true, cleared := false }).islErr ARR_ISL_ERR.clk_unlock i
  else s

/-- The clock of a clearing island locks again: the clearing starts again from plane 0 (R161). -/
def State.clockRelock (s : State) (i : Nat) : State :=
  if s.islState i = 1 ∧ (s.isl i).unlocked then
    s.updIsl i fun x => { x with unlocked := false, cleared := false }
  else s

/-- An island finishes its clearing (R152, R169); it leaves CLEARING at the next token (R168). -/
def State.clearingComplete (s : State) (i : Nat) : State :=
  if s.islState i = 1 ∧ ¬ (s.isl i).unlocked ∧ ¬ (s.isl i).cleared then
    (s.clearIsland i).updIsl i fun x => { x with cleared := true }
  else s

/-- A write to ARR_ISL_MAP (R165). -/
def State.writeIslMap (s : State) (i m v : Nat) : State :=
  let old := s.get ARR_ISL_MAP.cols i
  let t := s.wrReg 5 (0x110 + 0x80 * i) m v
  let w := t.get ARR_ISL_MAP.cols i
  let c (j : Nat) := bits w (8 * j) 8
  let ok := (List.range 4).all fun j => c j ≤ 131 && (List.range j).all fun k => c k != c j
  if ok then t else (t.put ARR_ISL_MAP.cols old i).islErr ARR_ISL_ERR.map_refused i

/-- A write to ARR_WHALO_n (R156). -/
def State.writeWhalo (s : State) (n m v : Nat) : State :=
  let t := s.wrReg 5 (0x30 + 4 * n) m v
  let addr (k : Nat) := t.get ARR_WHALO.addr k
  let clash := t.bit ARR_WHALO.enable n && (List.range 8).any fun k =>
    k != n && t.bit ARR_WHALO.enable k && addr k == addr n
  if clash ∨ 0xF7F < addr n then s.err ARR_ERR.cfg_refused else t

/-- A write to ARR_EDGE (R156). -/
def State.writeEdge (s : State) (m v : Nat) : State := s.wrReg 5 8 m v

/-- A write to ARR_PERSIST_n (R176). -/
def State.writePersist (s : State) (n m v : Nat) : State :=
  let t := s.wrReg 5 (0x10 + 4 * n) m v
  let b := t.get ARR_PERSIST.base n
  let p := t.get ARR_PERSIST.planes n
  if ¬ t.bit ARR_PERSIST.enable n ∨ (0x80 ≤ b ∧ b ≤ 0xF7F ∧ 1 ≤ p ∧ p ≤ 3840 ∧ b + p ≤ 0xF80) then t
  else s.err ARR_ERR.cfg_refused

/-- The planes of the enabled persistent regions, in the order of a reload source (R172). -/
def State.persistentPlanes (s : State) : List Nat :=
  ((List.range 8).map fun n =>
    if s.bit ARR_PERSIST.enable n then (List.range (s.get ARR_PERSIST.planes n)).map (s.get ARR_PERSIST.base n + ·)
    else []).flatten

/-- A change of R170 applies at the coming barrier. -/
def State.bumpEpoch (s : State) : State := { s with arr := { s.arr with bump := true } }

/-- Arms an island's reload engine (R172). -/
def State.armReload (s : State) (i : Nat) (firmware : Bool) (src epoch : Nat) : State :=
  let planes := s.persistentPlanes
  let r : Reload := { firmware, src, epoch, planes, image := if firmware then s.arr.copies else [] }
  let s := s.updIsl i fun x => { x with reload := some r, committed := false, cycles := 0 }
  let s := (s.put ARR_ISL_RELOAD_STATUS.busy 1 i).put ARR_ISL_RELOAD_STATUS.planes_left (min 4095 planes.length) i
  s.put ARR_ISL_STATUS.epoch_valid 0 i

/-- A write of 1 to ARR_ISL_RELOAD_CTRL.start (R172); the source register holds address bits [39:6]. -/
def State.reloadStart (s : State) (i : Nat) : State :=
  let st := s.islState i
  if (st ≠ 1 ∧ st ≠ 2) ∨ s.bit ARR_ISL_RELOAD_STATUS.busy i then s.islErr ARR_ISL_ERR.reload_refused i
  else s.armReload i false (64 * s.get ARR_ISL_RELOAD_SRC_LO.addr i + 2 ^ 32 * s.get ARR_ISL_RELOAD_SRC_HI.addr i)
    (s.get ARR_ISL_RELOAD_EPOCH.epoch i)

/-- A write of 1 to ARR_ISL_RELOAD_CTRL.abort (R174). -/
def State.reloadAbort (s : State) (i : Nat) : State :=
  if (s.isl i).reload.isSome then s.stopReload i
  else if (s.isl i).committed then s.islErr ARR_ISL_ERR.abort_too_late i
  else s

/-- Resident firmware arms the reload of a returning island, from its copies as committed at the current epoch, which the side
port's writes of a barrier complete (R171, R175). -/
def State.autoReload (s : State) (i : Nat) : State :=
  let st := s.islState i
  if s.bit ARR_ISL_CTRL.auto_reload i ∧ (st = 1 ∨ st = 2) ∧ (s.isl i).reload.isNone ∧ s.pri.turns = 0 ∧
      ¬ (s.bit ARR_ISL_STATUS.epoch_valid i ∧ s.get ARR_ISL_EPOCH.epoch i = s.get ARR_EPOCH.epoch) then
    let e := s.get ARR_EPOCH.epoch
    (s.put ARR_ISL_RELOAD_EPOCH.epoch e i).armReload i true 0 e
  else s

/-- The plane bits that 1,024 source bytes give an island (R172). -/
def localPlane (i : Nat) (bs : List (BitVec 8)) : Nat :=
  (List.range 64).foldl (fun v r => v ||| leAt bs (16 * r) 16 <<< (512 * (64 * (i / 4) + r) + 128 * (i % 4))) 0

end Sys2Proof.Machine
end

