-- ==== Sys2Proof/Machine/Prism.lean ====
section
/-! DEFINITION. Prism: configuration, alignment, commit, hand-off and outbound corner-turn (05, R123 to R140, R144). -/

namespace Sys2Proof.Machine

/-- A lane's maps in the registers. -/
def State.laneMap (s : State) (n : Nat) : LaneMap where
  enable := s.bit PRI_LANE_CFG.enable n
  tagMode := s.get PRI_LANE_CFG.tag_mode n
  fill := s.get PRI_LANE_CFG.fill n
  delay := s.get PRI_LANE_CFG.delay n
  first := s.get PRI_LANE_MAP.first n
  run := s.get PRI_LANE_MAP.run n
  count := s.get PRI_LANE_GEOM.count n
  bits := s.get PRI_LANE_GEOM.bits n
  dlFirst := s.get PRI_LANE_DL_MAP.first n
  dlRun := s.get PRI_LANE_DL_MAP.run n
  dlCount := s.get PRI_LANE_DL_GEOM.count n
  dlBits := s.get PRI_LANE_DL_GEOM.bits n
  dlPlane := s.get PRI_LANE_DL_GEOM.plane n

/-- A rear stream's map in the registers. -/
def State.rearMap (s : State) (r : Nat) : RearMap where
  first := s.get PRI_REAR_MAP.first r
  run := s.get PRI_REAR_MAP.run r
  count := s.get PRI_REAR_GEOM.count r
  bits := s.get PRI_REAR_GEOM.bits r
  plane := s.get PRI_REAR_GEOM.plane r

/-- The pending copy: what the registers hold (R133). -/
def State.prismCfg (s : State) : PrismCfg where
  lin := s.get PRI_LIN.slots
  intake := s.get PRI_INTAKE.planes
  outbound := s.get PRI_OUTBOUND.planes
  sel0 := s.get PRI_PIPE_SEL.plane0
  sel1 := s.get PRI_PIPE_SEL.plane1
  lanes := (List.range 224).foldl (fun t n => Sparse.set {} t n (s.laneMap n)) []
  rears := (List.range 8).foldl (fun t r => Sparse.set {} t r (s.rearMap r)) []

/-- 64-bit words of `k` channels of `b` bits (R125, R139). -/
def mapWords (k b : Nat) : Nat := ceilDiv (k * b) 64

/-- PE of channel `j` (R125). -/
def chanPe (first run j : Nat) : Nat := first + j % run + 512 * (j / run)

/-- The PEs of channels 0 to k − 1 (R125). -/
def mapMask (first run k : Nat) : Nat :=
  ((2 ^ run - 1) * rowOnes (k / run) + (2 ^ (k % run) - 1) <<< (512 * (k / run))) <<< first

/-- The geometry conditions of R126: k, run, and the last channel's PE. -/
def geomOk (first run k : Nat) : Bool :=
  1 ≤ k && 1 ≤ run && run ≤ 512 && first % 512 + run ≤ 512 && chanPe first run (k - 1) ≤ 131071

/-- The uplink conditions of R126 on one lane, b and words included. -/
def LaneMap.upOk (m : LaneMap) (p : Nat) : Bool :=
  geomOk m.first m.run m.count && 1 ≤ m.bits && m.bits ≤ p && mapWords m.count m.bits ≤ 96

/-- A downlink map or rear stream within R139 and R140, `most` being the words it may have; count 0 sends nothing. -/
def outOk (q most first run k d plane : Nat) : Bool :=
  k = 0 || (geomOk first run k && 1 ≤ d && d ≤ 64 && plane + d ≤ q && mapWords k d ≤ most)

/-- The PEs, row by row, that the channels of any geometry name; channels beyond the last PE name none (R125). -/
def anyMask (first run k : Nat) : Nat :=
  if run = 0 then 0
  else ((List.range (ceilDiv k run)).foldl (fun v r => v ||| (2 ^ min run (k - r * run) - 1) <<< (first + 512 * r)) 0) % 2 ^ 131072

/-- The PEs that a map names. -/
def LaneMap.pes (m : LaneMap) : Nat :=
  if geomOk m.first m.run m.count then mapMask m.first m.run m.count else anyMask m.first m.run m.count

/-- The first lane whose map names a PE of a lane before it, whatever their geometry (R126, R144). -/
def clashLane : List (Nat × LaneMap) → Nat → Option Nat
  | [], _ => none
  | (n, m) :: ms, acc => if acc &&& m.pes != 0 then some n else clashLane ms (acc ||| m.pes)

/-- The port budget in Prism cycles (R131). -/
def portBudget (p q : Nat) : Nat := 12 + (p + 2) / 2 + (q + 1) / 2

/-- Prism cycles that a slot is guaranteed to have (R131). -/
def State.prismCycles (s : State) : Nat := s.get GNO_PERIOD_MIN.period_fs / 625000

/-- A failing check of a configuration: its code with no lane or stream to name (R144). -/
def failsAll (code : Nat) (b : Bool) : List (Nat × Nat) := if b then [(code, noInst)] else []

/-- A failing check of a configuration: its code with the first lane or stream that fails it (R144, R146). -/
def failsAt (code : Nat) (n : Option Nat) : List (Nat × Nat) := n.toList.map fun k => (code, k)

/-- The failing checks of a configuration in the order of their codes, with the lane or stream that each names (R144, codes 1
to 10; R146). -/
def State.prismFaults (s : State) (c : PrismCfg) : List (Nat × Nat) :=
  let up := c.lanes.filter fun e => e.2.enable
  let lane (ms : Sparse LaneMap) (bad : LaneMap → Bool) : Option Nat := (ms.find? fun e => bad e.2).map (·.1)
  failsAt 1 (clashLane up 0) ++
  failsAt 2 (lane up fun m => !m.upOk c.intake) ++
  failsAll 3 (!(decide (1 ≤ c.lin) && decide (c.lin ≤ 256))) ++
  failsAt 3 (lane up fun m => decide (4096 < c.lin * mapWords m.count m.bits)) ++
  failsAll 4 (decide (s.prismCycles < portBudget c.intake c.outbound)) ++
  (if s.get GNO_ORBIT_LEN.length < c.lin then failsAt 5 (lane up fun m => m.tagMode == 0) else []) ++
  failsAt 6 (lane c.lanes fun m => !outOk c.outbound 31 m.dlFirst m.dlRun m.dlCount m.dlBits m.dlPlane) ++
  failsAt 7 ((c.rears.find? fun e => !outOk c.outbound 4096 e.2.first e.2.run e.2.count e.2.bits e.2.plane).map (·.1)) ++
  failsAll 8 (!((decide (c.sel0 < c.intake) || c.sel0 == 0x3F) && (decide (c.sel1 < c.intake) || c.sel1 == 0x3F))) ++
  failsAt 9 (lane c.lanes fun m => m.tagMode == 3 || m.fill == 3) ++
  failsAll 10 (c.lin != s.pri.work.lin && s.tagging)

/-- The first failing check of a configuration; code 0 where every check passes (R144). -/
def State.prismCheck (s : State) (c : PrismCfg) : Nat × Nat := (s.prismFaults c).headD (0, noInst)

/-- Publishes the figures of the pending copy (R145, R146). -/
def State.publishPrism (s : State) : State :=
  (s.put PRI_BUDGET.avail (min 255 s.prismCycles)).put PRI_BUDGET.used
    (portBudget (s.get PRI_INTAKE.planes) (s.get PRI_OUTBOUND.planes))

/-- Publishes the words of a lane's maps in the pending copy (R146). -/
def State.publishLaneWords (s : State) (n : Nat) : State :=
  (s.put PRI_LANE_WORDS.up_words (min 0x7F (mapWords (s.get PRI_LANE_GEOM.count n) (s.get PRI_LANE_GEOM.bits n))) n).put
    PRI_LANE_WORDS.dl_words (min 0x1F (mapWords (s.get PRI_LANE_DL_GEOM.count n) (s.get PRI_LANE_DL_GEOM.bits n))) n

/-- Publishes the words of a rear stream in the pending copy (R146). -/
def State.publishRearWords (s : State) (r : Nat) : State :=
  s.put PRI_REAR_WORDS.words (min 0x1FFF (mapWords (s.get PRI_REAR_GEOM.count r) (s.get PRI_REAR_GEOM.bits r))) r

/-- A write to a register of the pending copy, at an offset of the PRI page (R133). -/
def State.writePrism (s : State) (off m v : Nat) : State :=
  let s := (s.wrReg 4 off m v).put PRI_STATUS.cfg_pending 1
  let s := { s with pri := { s.pri with clean := false } }
  let s := s.publishPrism
  if off < 0x1000 then s
  else if off < 0x4800 then s.publishLaneWords ((off - 0x1000) / 0x40)
  else s.publishRearWords ((off - 0x4800) / 0x10)

/-- A named-slot register pair: named, orbit, index. -/
def State.whenOf (s : State) (lo hi idx nm : Fld) (i : Nat := 0) : Bool × Nat × Nat :=
  (s.bit nm i, s.get lo i + 2 ^ 32 * s.get hi i, s.get idx i)

/-- A refused apply, reported with the lane or stream that fails (R144, R146). -/
def State.prismRefuse (s : State) (code inst : Nat) : State := (s.put PRI_CFG_ERR.code code).err PRI_ERR.cfg_refused 0 inst

/-- The copy that commits at the standing barrier B whatever is armed after it (R133). -/
def State.prismFixed (s : State) : Option PrismCfg :=
  if s.gno.due.contains .prism then s.pri.fixed.or s.pri.armed else s.pri.fixed

/-- A write of 1 to PRI_CMD.apply (R133, R144): a passing apply replaces an armed one, a failing one leaves it. -/
def State.prismApply (s : State) : State :=
  let c := s.prismCfg
  let (code, inst) := s.prismCheck c
  if code ≠ 0 then s.prismRefuse code inst
  else
    let (named, orbit, index) := s.whenOf PRI_APPLY_WHEN_LO.orbit PRI_APPLY_WHEN_HI.orbit PRI_APPLY_WHEN_HI.index
      PRI_APPLY_WHEN_HI.named
    match s.arm .prism named orbit index with
    | none => s.prismRefuse 11 noInst
    | some t =>
      let t := t.updGno fun g => { g with due := s.gno.due }
      { t with pri := { t.pri with armed := some c, fixed := s.prismFixed, clean := true, applied := false } }.put PRI_CFG_ERR.code 0
        |>.put PRI_STATUS.apply_armed 1

/-- A write of 1 to PRI_CMD.abort (R133): too late once the latest apply has passed B. -/
def State.prismAbort (s : State) : State :=
  if s.gno.due.contains .prism ∧ s.pri.fixed.isNone then s.err PRI_ERR.abort_too_late
  else if s.pri.armed.isSome then
    let t := (s.disarm .prism).updGno fun g => { g with due := s.gno.due }
    ({ t with pri := { t.pri with armed := none } }.put PRI_STATUS.apply_armed 0).put PRI_CFG_ERR.code 12
      |>.err PRI_ERR.aborted
  else if s.pri.applied then s.err PRI_ERR.abort_too_late
  else s

/-- A named commit that a discontinuity or a cancel takes away (R34, R145). -/
def State.prismCancelled (s : State) : State :=
  ({ s with pri := { s.pri with armed := none } }.put PRI_STATUS.apply_armed 0).err PRI_ERR.apply_cancelled

/-- A write of 1 to PRI_CMD.slack_reset (R145). -/
def State.slackReset (s : State) : State := forN 224 s fun n s => s.put PRI_LANE_SLACK.min 0xFFFF n

/-- A write to PRI_CMD: an abort first, an apply last (R643). -/
def State.writePriCmd (s : State) (m v : Nat) : State :=
  let s := if woField PRI_CMD.abort m v = 1 then s.prismAbort else s
  let s := if woField PRI_CMD.slack_reset m v = 1 then s.slackReset else s
  if woField PRI_CMD.apply m v = 1 then s.prismApply else s

/-- A lane's alignment buffer. -/
def State.buf (s : State) (n : Nat) : LaneBuf := Sparse.get {} s.pri.bufs n

/-- Changes a lane's alignment buffer and publishes PRI_LANE_PENDING. -/
def State.updBuf (s : State) (n : Nat) (f : LaneBuf → LaneBuf) : State :=
  let b := f (s.buf n)
  let s := { s with pri := { s.pri with bufs := Sparse.set {} s.pri.bufs n b } }
  (s.put PRI_LANE_PENDING.crossings b.contribs.length n).put PRI_LANE_PENDING.words
    (min 4096 ((b.contribs.map fun c => c.words.length).sum)) n

/-- Empties every alignment buffer (R134, R136). -/
def State.emptyBufs (s : State) : State :=
  s.pri.bufs.foldl (fun s e => s.updBuf e.1 fun b => { b with contribs := [], current := .nothing }) s

/-- The configuration changes a lane's uplink map, control or geometry (R129). -/
def LaneMap.upChanged (a b : LaneMap) : Bool :=
  (a.enable, a.tagMode, a.fill, a.delay, a.first, a.run, a.count, a.bits) !=
  (b.enable, b.tagMode, b.fill, b.delay, b.first, b.run, b.count, b.bits)

/-- After the bank exchange Prism copies its Q outbound planes, with 0 for the islands outside SERVICE, for the downlink
slots and rear streams of the edge to come (R138, R167). -/
def State.cornerTurn (s : State) : State :=
  let live := s.pesWhere inService
  let planes := ((s.pri.outHidden.filter fun e => e.1 < s.pri.work.outbound).map fun e => (e.1, e.2 &&& live)).filter
    fun e => e.2 != 0
  { s with pri := { s.pri with copyNext := planes } }

/-- The commit of an armed configuration at B (R133, R134); the corner-turn after the barrier uses the new Q (R134, R138). -/
def State.prismApplyCommit (s : State) : State :=
  match s.prismFixed with
  | none => s
  | some c =>
    if ¬ s.isDue .prism then s
    else
      let old := s.pri.work
      let s := (s.tookDue .prism).emptyBufs
      let pend := s.pri.pend.map fun p => { p with gap := some (p.gap.getD old) }
      let gaps := (pend.map (·.serial) ++ s.pri.gaps).eraseDups.take 4096
      let forget (n : Nat) (b : LaneBuf) : LaneBuf :=
        if (Sparse.get {} old.lanes n).upChanged (Sparse.get {} c.lanes n) then { b with remembered := none } else b
      let bufs := (s.pri.bufs.map fun e => (e.1, forget e.1 e.2)).filter fun e => e.2 ≠ ({} : LaneBuf)
      let next := if s.pri.fixed.isSome then s.pri.armed else none
      let p := { s.pri with work := c, armed := next, fixed := none, applied := next.isNone, pend := pend, gaps := gaps, bufs := bufs }
      (({ s with pri := p }.put PRI_STATUS.apply_armed (b2n next.isSome)).put PRI_STATUS.cfg_pending
        (b2n (!p.clean || next.isSome))).put PRI_STATUS.budget_fail 0 |>.cornerTurn

/-- Prism takes the crossing that an edge tagged in RUNNING or HOLDOVER (R132). -/
def State.prismTag (s : State) (serial index : Nat) (holdover : Bool) : State :=
  let p : Pending := { serial, index, holdover }
  { s with pri := { s.pri with pend := s.pri.pend ++ [p] } }

/-- The lane maps a crossing is committed under. -/
def State.cfgOf (s : State) (p : Pending) : PrismCfg := p.gap.getD s.pri.work

/-- A word for the settled crossing `serial` is late: tagged within the 4,096 preceding slots, and no gap crossing (R128, R134). -/
def State.lateFor (s : State) (serial : Nat) : Bool :=
  s.pri.settled.any (fun q => q.1 == serial) && !s.pri.gaps.contains serial && decide (serialAge serial s.lastSerial ≤ 4096)

/-- Where a first-of-crossing word with a tag goes on lane `n` (R127, R128, R134, R136). -/
def State.classify (s : State) (n tag : Nat) : OpenTo :=
  let m : LaneMap := Sparse.get {} s.pri.work.lanes n
  let b := s.buf n
  let names (serial index : Nat) : Bool :=
    match m.tagMode with
    | 0 => index == tag
    | 1 => serial % 4096 == tag
    | _ => serial == (s.lastSerial + 2 ^ 64 - m.delay) % 2 ^ 64
  match (s.pri.pend.filter fun p => names p.serial p.index).getLast? with
  | some p =>
    if p.gap.isSome ∨ b.missed.contains p.serial ∨ b.contribs.any (fun c => c.serial == p.serial) then .stray
    else .crossing p.serial
  | none =>
    match s.pri.settled.find? fun q => names q.1 q.2 with
    | some q => if s.lateFor q.1 then .late q.1 else .stray
    | none => .stray

/-- A word counted as late (R128). -/
def State.lateWord (s : State) (n : Nat) : State := (s.inc PRI_LANE_LATE_CNT.count n).err PRI_ERR.late_word 0 n

/-- A word counted as stray (R128). -/
def State.strayWord (s : State) (n : Nat) : State := (s.inc PRI_LANE_STRAY_CNT.count n).err PRI_ERR.stray_word 0 n

/-- A word whose label names crossing `serial`, which is not pending: late or stray (R128). -/
def State.pastWord (s : State) (n serial : Nat) : State := if s.lateFor serial then s.lateWord n else s.strayWord n

/-- A word joins the contribution to a pending crossing; one beyond `words` makes it Long (R128). -/
def State.addWord (s : State) (n serial word : Nat) : State :=
  let m : LaneMap := Sparse.get {} s.pri.work.lanes n
  let b := s.buf n
  match b.contribs.find? fun c => c.serial == serial with
  | none => s.pastWord n serial
  | some c =>
    let put (c' : Contrib) (s : State) : State :=
      s.updBuf n fun b => { b with contribs := b.contribs.map fun d => if d.serial = serial then c' else d }
    if c.words.length < mapWords m.count m.bits then put { c with words := c.words ++ [word], last := s.now } s
    else if c.long then s
    else ((put { c with long := true } s).inc PRI_LANE_LONG_CNT.count n).err PRI_ERR.long_contribution 0 n

/-- One Prism word of a lane: its tag, its first-of-crossing flag and its 64 bits (R127, R128). -/
def State.prismTake (s : State) (n tag : Nat) (first : Bool) (word : Nat) : State :=
  if ¬ (Sparse.get {} s.pri.work.lanes n).enable then s
  else
    let s := if first then
        match s.classify n tag with
        | .crossing c => s.updBuf n fun b =>
            let new : Contrib := { serial := c }
            { b with contribs := b.contribs ++ [new], current := .crossing c }
        | o => s.updBuf n fun b => { b with current := o }
      else s
    match (s.buf n).current with
    | .crossing c => s.addWord n c word
    | .late c => s.pastWord n c
    | .stray | .nothing => s.strayWord n

/-- The oldest word at a lane's Prism port reaches Prism at instant `t`; for the timing facet there is no port (R87). -/
def State.prismWord (s : State) (n t : Nat) : State :=
  let s := s.at t
  match (s.path (n / 4) (n % 4)).words with
  | [] => s
  | w :: ws => (s.updPath (n / 4) (n % 4) fun p => { p with words := ws }).prismTake n w.tag w.first w.word

/-- Bit-plane `i` of a lane's stream (R125). -/
def placePlane (m : LaneMap) (stream i : Nat) : Nat :=
  (List.range m.count).foldl (fun v j =>
    if stream.testBit (j * m.bits + i) then v ||| 2 ^ chanPe m.first m.run j else v) 0

/-- The number that a list of 64-bit words stands for, the first lowest (R125). -/
def streamOf : List Nat → Nat
  | [] => 0
  | w :: ws => w % 2 ^ 64 + 2 ^ 64 * streamOf ws

/-- A lane's outcome for a crossing: the stream to place (none: fill 1's all ones) and whether it is complete (R128,
R129). -/
def LaneBuf.outcome (b : LaneBuf) (m : LaneMap) (serial : Nat) : Option (List Nat) × Bool :=
  match b.contribs.find? fun c => c.serial == serial with
  | some c =>
    if ¬ c.long ∧ c.words.length = mapWords m.count m.bits then (some c.words, true)
    else (if m.fill = 1 then none else if m.fill = 2 then some (b.remembered.getD []) else some [], false)
  | none => (if m.fill = 1 then none else if m.fill = 2 then some (b.remembered.getD []) else some [], false)

/-- Settles one lane for a crossing: its counts, its slack, its planes joined to `planes` and its valid bits (R128 to
R130). -/
def State.settleLane (s : State) (n : Nat) (m : LaneMap) (serial : Nat) (acc : List Nat × Nat) :
    State × (List Nat × Nat) :=
  let b := s.buf n
  let (stream, complete) := b.outcome m serial
  let mask := mapMask m.first m.run m.count
  let add := match stream with
    | some ws => (List.range acc.1.length).map fun i => if i < m.bits then placePlane m (streamOf ws) i else 0
    | none => (List.range acc.1.length).map fun i => if i < m.bits then mask else 0
  let planes := (List.range acc.1.length).map fun i => acc.1.getD i 0 ||| add.getD i 0
  let last := ((b.contribs.find? fun c => c.serial == serial).map (·.last)).getD 0
  let s := s.updBuf n fun b =>
    { b with contribs := b.contribs.filter (fun c => c.serial != serial), missed := b.missed.filter (· != serial),
             remembered := if complete then stream else b.remembered }
  if complete then
    let slack := min 0xFFFF ((s.now - last) / 625000)
    ((s.put PRI_LANE_SLACK.last slack n).put PRI_LANE_SLACK.min (min slack (s.get PRI_LANE_SLACK.min n)) n,
      (planes, acc.2 ||| mask))
  else
    let s : State := { s with led := { s.led with missed := Sparse.set false s.led.missed n true } }
    ((s.inc PRI_LANE_MISS_CNT.count n).err PRI_ERR.missing_contribution 0 n, (planes, acc.2))

/-- Writes a crossing's planes and valid plane into the hidden intake bank, at the islands that take intake commits; each
other island discards the commit and counts it (R14, R130, R167). -/
def State.commitPlanes (s : State) (planes : List Nat) (valid : Nat) : State :=
  let live := s.pesWhere inUse
  let bank := (List.range planes.length).foldl
    (fun t i => Sparse.upd 0 t i fun o => mixBits o (planes.getD i 0) live) s.pri.inHidden
  let bank := Sparse.upd 0 bank 63 fun o => mixBits o valid live
  let s := { s with pri := { s.pri with inHidden := bank } }
  (List.range 16).foldl (fun s i => if inUse (s.islState i) then s else s.inc ARR_ISL_DISCARD_CNT.count i) s

/-- The commit deadline of the oldest pending crossing, at instant `t` (R128 to R132, R134). -/
def State.commitDeadline (s : State) (t : Nat) : State :=
  let s := s.at t
  match s.pri.pend with
  | [] => s
  | p :: rest =>
    let c := s.cfgOf p
    if serialAge p.serial s.lastSerial + 1 < c.lin ∨ 2 ^ 63 ≤ serialAge p.serial s.lastSerial then s
    else
      let settled := ((p.serial, p.index) :: s.pri.settled).take 4096
      let s := { s with pri := { s.pri with pend := rest, settled := settled } }
      if s.bit PRI_STATUS.budget_fail then
        (c.lanes.filter fun e => e.2.enable).foldl (fun s e => s.updBuf e.1 fun b =>
          { b with contribs := b.contribs.filter fun k => k.serial != p.serial }) s
      else
        let r := (c.lanes.filter fun e => e.2.enable).foldl
          (fun (a : State × (List Nat × Nat)) e => a.1.settleLane e.1 e.2 p.serial a.2)
          (s, (List.replicate c.intake 0, 0))
        let s := r.1.commitPlanes r.2.1 r.2.2
        let e : Entered := { serial := p.serial, index := p.index, holdover := p.holdover, planes := c.intake,
                             gap := p.gap.isSome, sel0 := c.sel0, sel1 := c.sel1 }
        let s := { s with pri := { s.pri with hidden := some e } }
        let s := s.inc PRI_COMMIT_CNT.count
        if e.gap then s.inc PRI_GAP_CNT.count else s

/-- The crossing of the hidden bank has its entry instant at the latest slot reference edge (R18). -/
def State.entering (s : State) : Option Entered :=
  match s.pri.hidden with
  | some e => if (e.serial + s.pri.work.lin) % 2 ^ 64 = s.lastSerial then some e else none
  | none => none

/-- A selected plane of the hidden bank (R137). -/
def State.selected (s : State) (sel : Nat) : Nat := Sparse.get 0 s.pri.inHidden (if sel = 0x3F then 63 else sel)

/-- At a crossing's entry instant its hand-off to the HBM controllers is fixed (R137, R167). -/
def State.prismEdge (s : State) : State :=
  match s.entering with
  | none => s
  | some e =>
    let live := s.pesWhere inService
    let h : Handoff := { crossing := e, pipe := s.hbm.oldPipe.getD (s.regWord 9 8), storing := s.bit HBM_STATUS.pipe_ok, half0 := s.selected e.sel0 &&& live,
                         half1 := s.selected e.sel1 &&& live, service := s.get ARR_STATUS.service }
    { s with pri := { s.pri with handoffs := s.pri.handoffs ++ [h] } }

/-- At a slot reference edge the copy made at the barrier before it serves the slot that the edge opens (R138). -/
def State.turnEdge (s : State) : State := { s with pri := { s.pri with copy := s.pri.copyNext } }

/-- The words of a rear stream for the slot of the latest edge (R140). -/
def State.rearWords (s : State) (r : Nat) : List Nat :=
  let m : RearMap := Sparse.get {} s.pri.work.rears r
  turnOut s.pri.copy m.first m.run m.count m.bits m.plane

/-- Gnomon leaves its timeline: every buffer empties and nothing more is committed (R136). -/
def State.prismLost (s : State) : State :=
  let s := s.emptyBufs
  { s with pri := { s.pri with pend := [], hidden := none } }

/-- At a numbering the pending crossings of the tag-mode-0 lanes are Missing and their buffers empty (R136). -/
def State.prismNumbering (s : State) : State :=
  let pend := s.pri.pend.map (·.serial)
  (s.pri.work.lanes.filter fun e => e.2.enable && e.2.tagMode == 0).foldl (fun s e => s.updBuf e.1 fun b =>
    { b with contribs := [], current := .nothing, missed := pend }) s

/-- The port budget is checked again at an entry to UNNUMBERED, on the period just published (R131). -/
def State.prismBudget (s : State) : State :=
  let s := s.publishPrism
  if s.prismCycles < portBudget s.pri.work.intake s.pri.work.outbound then
    (s.put PRI_STATUS.budget_fail 1).err PRI_ERR.budget_fail
  else s.put PRI_STATUS.budget_fail 0

end Sys2Proof.Machine
end

