-- ==== Sys2Proof/Machine/SidePort.lean ====
section
/-! DEFINITION. Prism's side port into PE memory (R123, R141 to R143). -/

namespace Sys2Proof.Machine

/-- First physical address of the PE-memory aperture (R141). -/
def peBase : Nat := 0x3000000000

/-- The end of the aperture: 4,096 planes of 16 KiB. -/
def peEnd : Nat := peBase + 4096 * 0x4000

/-- Publishes the entries queued (R142, R145). -/
def State.publishSide (s : State) : State := s.put PRI_SP_STATUS.queued s.pri.side.length

/-- Adds a piece to the queue: it joins the tail entry of the same direction and plane or opens one; none where all 256
entries are in use (R142). An entry that the standing barrier has taken is joined no more. -/
def joinSide (taken : Nat) (q : List SideEntry) (write : Bool) (plane : Nat) (p : Piece) : Option (List SideEntry) :=
  match q.getLast? with
  | some e =>
    if e.write = write ∧ e.plane = plane ∧ taken < q.length then some (q.dropLast ++ [{ e with pieces := e.pieces ++ [p] }])
    else if q.length < 256 then some (q ++ [{ write := write, plane := plane, pieces := [p] }]) else none
  | none => some [{ write := write, plane := plane, pieces := [p] }]

/-- A piece reaches Prism: it enters the queue, or the ring stop holds it behind the pieces already held (R14, R142). -/
def State.sidePiece (s : State) (write : Bool) (plane : Nat) (p : Piece) : State :=
  let held (s : State) : State := { s with pri := { s.pri with held := s.pri.held ++ [(write, plane, p)] } }
  if s.pri.held.isEmpty then
    match joinSide s.pri.turns s.pri.side write plane p with
    | some q => { s with pri := { s.pri with side := q } }.publishSide
    | none => held s
  else held s

/-- Held pieces enter as entries free (R142). -/
def State.admitHeld (s : State) : Nat → State
  | 0 => s
  | k + 1 =>
    match s.pri.held with
    | [] => s
    | (w, a, p) :: rest =>
      match joinSide s.pri.turns s.pri.side w a p with
      | some q => State.admitHeld { s with pri := { s.pri with side := q, held := rest } } k
      | none => s

/-- The pieces of a request: split at 64-byte boundaries, each within one plane (R141). -/
def sideSplit (initiator tag : Nat) (data : List (BitVec 8)) : Nat → Nat → Nat → Nat → List (Nat × Piece)
  | 0, _, _, _ => []
  | k + 1, addr, len, pos =>
    if len = 0 then []
    else
      let n := min len (64 - addr % 64)
      let a := addr - peBase
      (a / 0x4000, { offset := a % 0x4000, len := n, data := slice data pos n, initiator, tag, pos }) ::
        sideSplit initiator tag data k (addr + n) (len - n) (pos + n)

/-- Some plane of the range is one of the closed ones, 0xF80 to 0xFFF (R123). -/
def sideClosed (addr len : Nat) : Bool := 0xF80 ≤ (addr + len - 1 - peBase) / 0x4000

/-- A request that reaches the closed planes gets an error response with no side effect (R123, R145). -/
def State.sideRefuse (s : State) : State := (s.inc PRI_SP_ERR_CNT.count).err PRI_ERR.sp_refused

/-- A side-port request of at least one byte: refused (none) where it touches a closed plane, else queued piece by piece
(R123, R141, R142). -/
def State.sideRequest (s : State) (write : Bool) (addr len initiator tag : Nat) (data : List (BitVec 8)) : Option State :=
  if sideClosed addr len then none
  else some ((sideSplit initiator tag data (len / 64 + 2) addr len 0).foldl (fun s e => s.sidePiece write e.1 e.2) s)

/-- The islands, by number, whose PEs a piece touches in one 64-byte row chunk (R143, R148). -/
def chunkIslands (lo hi : Nat) : List Nat :=
  (List.range 4).filterMap fun q =>
    let b := 64 * (lo / 64) + 16 * q
    if b < hi ∧ lo < b + 16 then some (4 * (lo / 4096) + q) else none

/-- Counts the discards of a write piece: once for each 64-byte row and island that discards it (R143). -/
def State.sideDiscards (s : State) (p : Piece) : State :=
  (List.range (p.len / 64 + 2)).foldl (fun s k =>
    let lo := max p.offset (64 * (p.offset / 64 + k))
    let hi := min (p.offset + p.len) (64 * (p.offset / 64 + k + 1))
    if hi ≤ lo then s
    else (chunkIslands lo hi).foldl (fun s i =>
      if inUse (s.islState i) then s
      else ((s.inc PRI_DISCARD_CNT.count).inc ARR_ISL_DISCARD_CNT.count i).err PRI_ERR.quarantine_discard) s) s

/-- The PEs that a piece covers. -/
def Piece.mask (p : Piece) : Nat := (2 ^ (8 * p.len) - 1) <<< (8 * p.offset)

/-- Resident firmware follows the side port's writes of general memory in its copies: a write at the barrier of an increase of
ARR_EPOCH belongs to the new epoch (R171, R175). -/
def State.followWrite (s : State) (plane v mask : Nat) : State :=
  if plane < 0x80 ∨ 0xF80 ≤ plane then s
  else
    let put (t : Sparse Nat) : Sparse Nat := Sparse.upd 0 t plane fun o => mixBits o v mask
    { s with arr := { s.arr with staged := put s.arr.staged, copies := if s.arr.bumped then put s.arr.copies else s.arr.copies } }

/-- Performs a write piece; a save plane of the sequencer discards it (R143, R221). -/
def State.sideWrite (s : State) (plane : Nat) (p : Piece) : State :=
  if s.savePlane plane then s.err SEQ_ERR.save_write
  else
    let live := s.pesWhere inUse
    let v := leNat p.data <<< (8 * p.offset)
    ((s.setPortPlane plane v (p.mask &&& live)).followWrite plane v p.mask).sideDiscards p

/-- Performs a read piece: an island that is not in use gives 0 and an error (R143). -/
def State.sideRead (s : State) (plane : Nat) (p : Piece) : Piece :=
  let live := s.pesWhere inUse
  let v := (s.portPlane plane &&& p.mask &&& live) >>> (8 * p.offset)
  { p with data := leBytes p.len v, bad := p.mask &&& live != p.mask }

/-- Performs one queue entry (R142, R143). -/
def State.sideEntry (s : State) (e : SideEntry) : State :=
  e.pieces.foldl (fun s p =>
    let (s, p) := if e.write then (s.sideWrite e.plane p, p) else (s, s.sideRead e.plane p)
    { s with pri := { s.pri with performed := s.pri.performed ++ [(e.write, e.plane, p)] } }) s

/-- The entries that were present at the token, at most three, are performed in arrival order (R142). -/
def State.sidePerform (s : State) : State :=
  let s := (List.range s.pri.turns).foldl (fun s _ =>
    match s.pri.side with
    | [] => s
    | e :: rest => (State.sideEntry { s with pri := { s.pri with side := rest, turns := s.pri.turns - 1 } } e).admitHeld 256) s
  { s with pri := { s.pri with turns := 0 } }.publishSide

/-- At the token the barrier takes the entries present, at most three (R142). -/
def State.sideAtToken (s : State) : State := { s with pri := { s.pri with turns := min 3 s.pri.side.length } }

end Sys2Proof.Machine
end

