-- ==== Sys2Proof/Machine/Hbm.lean ====
section
/-! DEFINITION. The HBM stacks, the pipeline ring and the array transfers (R315 to R324). -/

namespace Sys2Proof.Machine

/-- Changes the HBM controllers' internal state. -/
def State.updHbm (s : State) (f : Hbm → Hbm) : State := { s with hbm := f s.hbm }

/-! ### Stacks (R317, R318) -/

/-- The HBM address belongs to stack `k` (R316). -/
def inStack (k a : Nat) : Bool := a < 0x400000000 && a / 256 % 2 == k

/-- The contents of a stack are lost (R317). -/
def State.hbmLose (s : State) (k : Nat) : State :=
  { s with mem := s.mem.filter fun c => !inStack k c.1, poison := s.poison.keep fun w => !inStack k w }

/-- First byte of the tag table (R316). -/
def tagTable : Nat := 0x80000000

/-- Training and tag clear complete: every tag of the stack has valid = 0 (R317). -/
def State.hbmInitComplete (s : State) (k : Nat) : State :=
  if s.stack k ≠ 1 then s
  else
    let tag (a : Nat) : Bool := decide (tagTable ≤ a) && decide (a < tagTable + 0x100000) && a % 16 == 8 && inStack k a
    let clear (c : Nat × BitVec 8) : Nat × BitVec 8 := if tag c.1 then (c.1, c.2 &&& 0xFE) else c
    { s with mem := (s.mem.map clear).filter fun c => c.2 != memDefault }.putStack k 2

/-- A stack enters FAULT (R317, R346). -/
def State.hbmToFault (s : State) (k : Nat) : State := (s.putStack k 4).err HBM_ERR.stack_fault 0 k

/-- Training fails or takes more than 5 ms (R317). -/
def State.hbmInitFail (s : State) (k : Nat) : State := if s.stack k = 1 then s.hbmToFault k else s

/-- Parity errors or the loss of write-clock lock in RUN (R317). -/
def State.hbmFault (s : State) (k : Nat) : State := if s.stack k = 2 then s.hbmToFault k else s

/-- A write of 1 to HBM_CTRL.restart (R317). -/
def State.hbmRestart (s : State) : State :=
  [0, 1].foldl (fun s k => if s.stack k = 4 then (s.hbmLose k).putStack k 1 else s) s

/-- A word is found to be uncorrectable: what stands in it from then on is a free value (R318, log entry). -/
def State.hbmSpoil (s : State) (w : Nat) : State :=
  if Sparse.get false s.poison w then s
  else
    let t := (s.setLeMem w 8 (s.fresh 64)).tookFree
    { t with poison := t.poison.set false w true }

/-- An HBM read finds a single-bit error, which it corrects, or an uncorrectable one (R318). -/
def State.hbmEcc (s : State) (a : Nat) (o : Codeword) : State :=
  match o with
  | .good => s
  | .corrected => s.inc HBM_ECC_CORR_CNT.count
  | .uncorrectable =>
    let s := s.hbmSpoil (a / 8 * 8)
    (s.inc HBM_ECC_UNCORR_CNT.count).err HBM_ERR.ecc_uncorr 0 (a / 256 % 2)

/-- A read of `n` bytes of HBM by one of the chip's engines: the errors that it finds (R318). -/
def State.hbmRead (s : State) (a n : Nat) (ecc : EccMap) : State :=
  if memKind a = some .hbm then (s.eccFound a n false ecc).foldl (fun s e => s.hbmEcc e.1 e.2) s else s

/-- The bytes of an HBM read as one number: what a stack that is not in RUN returns is free (R317, R329). -/
def State.hbmReturned (s : State) (a n : Nat) : State × Nat :=
  if s.memUp a n then (s, s.leMem a n)
  else
    let v := s.fresh (8 * n)
    (s.tookFree, leNat ((List.range n).map fun i =>
      if s.memUp (a + i) 1 then s.byte (a + i) else BitVec.ofNat 8 (v / 256 ^ i)))

/-- The patrol scrubber reads the word at an address of the general region (R318). -/
def State.patrolScrub (s : State) (a : Nat) (o : Codeword) : State :=
  if a < 0x80100000 ∨ 0x400000000 ≤ a ∨ s.stack (a / 256 % 2) ≠ 2 then s
  else if Sparse.get false s.poison (a / 8 * 8) then s.hbmEcc a .uncorrectable
  else s.hbmEcc a o

/-! ### The pipeline ring (R319 to R322) -/

/-- HBM_PIPE_CTRL in force (R319). -/
def State.pipeWord (s : State) : Nat := s.hbm.oldPipe.getD (s.regWord 9 8)

/-- D of a pipeline configuration: the stored bytes per crossing (R319). -/
def pipeBytes (w : Nat) : Nat := (1 + bit1 w 1) * (if w.testBit 2 then 8192 else 16384)

/-- The rate check of R319: 1,360 GB/s. -/
def State.pipeRateOk (s : State) (w : Nat) : Bool := pipeBytes w * 1000000 ≤ 1360 * s.get GNO_PERIOD_MIN.period_fs

/-- Publishes the pipeline's rate and share and whether it stores (R319, R346); the units round down. -/
def State.publishPipe (s : State) : State :=
  let w := s.pipeWord
  let rate := if w.testBit 0 then pipeBytes w * 10000000 / max 1 (s.get GNO_PERIOD_MIN.period_fs) else 0
  let s := (s.put HBM_PIPE_RATE.rate (min 0xFFFF rate)).put HBM_SHARE.share (15600 - rate)
  s.put HBM_STATUS.pipe_ok (b2n (w.testBit 0 && s.pipeRateOk w))

/-- A write to HBM_PIPE_CTRL (R319): refused, or in force from the next slot barrier. -/
def State.writePipeCtrl (s : State) (m v : Nat) : State :=
  let old := s.pipeWord
  let t := s.wrReg 9 8 m v
  let w := t.regWord 9 8
  if w.testBit 0 ∧ ¬ s.pipeRateOk w then s.err HBM_ERR.cfg_refused
  else t.updHbm fun h => { h with oldPipe := some old }

/-- The rate is checked again at an entry of Gnomon to UNNUMBERED (R319). -/
def State.pipePeriods (s : State) : State :=
  let s := s.publishPipe
  let w := s.pipeWord
  if w.testBit 0 ∧ ¬ s.pipeRateOk w then s.err HBM_ERR.pipe_rate else s

/-- The tag of a ring entry (R320). -/
def pipeTag (h : Handoff) : List (BitVec 8) :=
  let c := h.crossing
  let flags := 1 + 2 * b2n c.holdover + 4 * b2n c.gap + 8 * bit1 h.pipe 1 + 16 * bit1 h.pipe 2
  leBytes 8 c.serial ++ leBytes 1 flags ++ leBytes 1 0 ++ leBytes 2 h.service ++ leBytes 2 (c.index % 4096) ++ leBytes 2 0

/-- The oldest hand-off is stored in its ring entry, or dropped (R320, R321). `inTime`: it lands within 1.0 µs. -/
def State.pipelineWrite (s : State) (inTime : Bool) : State :=
  match s.pri.handoffs with
  | [] => s
  | h :: rest =>
    let s := { s with pri := { s.pri with handoffs := rest } }
    if s.stack 0 ≠ 2 ∨ s.stack 1 ≠ 2 ∨ ¬ h.storing ∨ ¬ inTime then
      (s.inc HBM_PIPE_DROP_CNT.count).err HBM_ERR.pipe_drop
    else
      let e := h.crossing.serial % 65536
      let n := if h.pipe.testBit 2 then 8192 else 16384
      let s := s.writeMem (0x8000 * e) (leBytes n h.half0)
      let s := if h.pipe.testBit 1 then s.writeMem (0x8000 * e + 16384) (leBytes n h.half1) else s
      let s := s.writeMem (tagTable + 16 * e) (pipeTag h)
      let s := s.updHbm fun x => { x with last := h.crossing.serial }
      s.put HBM_PIPE_LAST_LO.serial (h.crossing.serial % 2 ^ 32)

/-- A write of the ring network to the ring or the tag table is refused while the pipeline is enabled (R322). -/
def State.ringWriteClosed (s : State) (a n : Nat) : Bool :=
  s.bit HBM_PIPE_CTRL.enable && decide (a < 0x80100000) && decide (0 < n)

/-- Reports such a write (R322). -/
def State.ringWriteErr (s : State) : State := s.err HBM_ERR.ring_write

/-- A ring tag as it stands: serial and the tag's other bytes as one number; none where it cannot be read. -/
def State.ringTag (s : State) (serial : Nat) : Option (Nat × Nat) :=
  let a := tagTable + 16 * (serial % 65536)
  if s.memUp a 16 then some (s.leMem a 8, s.leMem (a + 8) 8) else none

/-- The errors that the read of a ring tag finds (R318). -/
def State.tagRead (s : State) (serial : Nat) (ecc : EccMap) : State := s.hbmRead (tagTable + 16 * (serial % 65536)) 16 ecc

/-- The tag names the crossing and is valid (R329). -/
def tagNames (serial : Nat) (t : Nat × Nat) : Bool := t.1 == serial && t.2.testBit 0

/-! ### Island reload (R173) -/

/-- The data of the next plane of a reload, or none where the fetch gets an error response (R173), with the errors that its read
finds (R318). -/
def State.reloadData (s : State) (i : Nat) (r : Reload) (ecc : EccMap) : State × Option Nat :=
  if r.firmware then (s, some (Sparse.get 0 r.image (r.planes.getD r.next 0)))
  else
    let s := s.hbmRead (r.src + 1024 * r.next) 1024 ecc
    (s, (s.fetchBytes (r.src + 1024 * r.next) 1024).map (localPlane i))

/-- An error response while fetching the source ends the reload with the epoch invalid (R173). -/
def State.reloadFetchError (s : State) (i : Nat) : State :=
  match (s.isl i).reload with
  | none => s
  | some _ =>
    let s := s.updIsl i fun x => { x with reload := none }
    ((s.put ARR_ISL_RELOAD_STATUS.busy 0 i).put ARR_ISL_STATUS.epoch_valid 0 i).islErr ARR_ISL_ERR.reload_err i

/-- Writes the next plane of an island's reload in one barrier cycle (R173). -/
def State.reloadPlane (s : State) (i : Nat) (ecc : EccMap) : State :=
  match (s.isl i).reload with
  | none => s
  | some r =>
    match s.reloadData i r ecc with
    | (s, none) => s.reloadFetchError i
    | (s, some d) =>
      let s := s.setPlane (r.planes.getD r.next 0) d (islandMask i)
      let s := s.updIsl i fun x => { x with reload := some { r with next := r.next + 1 }, cycles := x.cycles - 1 }
      s.put ARR_ISL_RELOAD_STATUS.planes_left (min 4095 (r.planes.length - (r.next + 1))) i

/-- The reload writes of a barrier: a plane in each of B1 to B3, but for the last plane, which RELOAD_COMPLETE writes in
the cycle that is left (R173). -/
def State.reloadAtBarrier (s : State) (i : Nat) (ecc : EccMap) : State :=
  if s.islState i ≠ 2 then s.updIsl i fun x => { x with cycles := 0 }
  else
    (List.range 3).foldl (fun s _ =>
      match (s.isl i).reload with
      | some r => if r.next + 1 < r.planes.length then s.reloadPlane i ecc else s
      | none => s) (s.updIsl i fun x => { x with cycles := 3 })

/-- The reload that island `i` has ended takes effect: the commit point (R173, R174). -/
def State.reloadDone (s : State) (i : Nat) : State :=
  match (s.isl i).reload with
  | none => s
  | some r =>
    let s := s.updIsl i fun x => { x with reload := none, committed := true }
    let s := (s.put ARR_ISL_RELOAD_STATUS.busy 0 i).put ARR_ISL_RELOAD_STATUS.planes_left 0 i
    let s := (s.put ARR_ISL_RELOAD_STATUS.done_ 1 i).put ARR_ISL_EPOCH.epoch r.epoch i
    s.put ARR_ISL_STATUS.epoch_valid 1 i

/-- The reload writes its last plane (R173), unless its fetch gets an error response. -/
def State.reloadComplete (s : State) (i : Nat) (ecc : EccMap) : State :=
  match (s.isl i).reload with
  | none => s
  | some r =>
    let last := r.planes.length - r.next
    if s.islState i ≠ 2 ∨ (s.isl i).cycles = 0 ∨ 1 < last then s
    else if last = 1 then (s.reloadPlane i ecc).reloadDone i
    else s.reloadDone i

/-! ### Array transfers (R323, R324) -/

/-- A transfer channel. -/
def State.xfer (s : State) (t : Nat) : Xfer := Sparse.get {} s.hbm.xfers t

/-- Changes a transfer channel. -/
def State.updXfer (s : State) (t : Nat) (f : Xfer → Xfer) : State :=
  s.updHbm fun h => { h with xfers := Sparse.upd {} h.xfers t f }

/-- The initiator number of a channel's side-port pieces; ring stops have smaller numbers. -/
def xferInitiator (t : Nat) : Nat := 1000 + t

/-- A refused start or configuration (R323). -/
def State.xferRefuse (s : State) (t : Nat) : State := s.err HBM_ERR.xfer_refused 0 t

/-- The configuration of a channel can be accepted (R323). -/
def State.xferOk (s : State) (t : Nat) : Bool :=
  let dst := s.get HBM_XFER_CFG.dst t
  match s.get HBM_XFER_CTRL.mode t with
  | 1 => dst + s.get HBM_XFER_CFG.planes t - 1 ≤ 0xF7F
  | 2 => dst + 1 ≤ 0xF7F && 2000000000 ≤ s.get HBM_XFER_CFG.lag t * s.get GNO_PERIOD_MIN.period_fs
  | _ => true

/-- A whole plane goes to the side port as one piece, and its 64-byte pieces are counted there (R142). -/
def State.sidePlane (s : State) (t plane : Nat) (v : Nat) : State :=
  s.sidePiece true plane { offset := 0, len := 0x4000, data := leBytes 0x4000 v, initiator := xferInitiator t, tag := 0 }

/-- A block of 16 KiB from memory as the read returns it (R318, R323); where no memory stands it is free (log entry). -/
def State.xferBlock (s : State) (ecc : EccMap) (a : Nat) : State × Nat :=
  let s := s.hbmRead a 0x4000 ecc
  if memKind a = some .hbm then s.hbmReturned a 0x4000
  else match s.fetchBytes a 0x4000 with
    | some bs => (s, leNat bs)
    | none => (s.tookFree, s.fresh 131072)

/-- A write of 1 to HBM_XFER_CTRL.start (R323): the channel submits its planes in ascending order. -/
def State.xferStart (s : State) (t : Nat) (ecc : EccMap) : State :=
  if s.get HBM_XFER_CTRL.mode t ≠ 1 then s
  else if s.bit HBM_XFER_STATUS.busy t ∨ ¬ s.xferOk t then s.xferRefuse t
  else
    let n := s.get HBM_XFER_CFG.planes t
    let src := 64 * s.get HBM_XFER_SRC_LO.addr t + 2 ^ 32 * s.get HBM_XFER_SRC_HI.addr t
    let s := ((s.put HBM_XFER_STATUS.grant 0 t).put HBM_XFER_STATUS.done_ 0 t).put HBM_XFER_STATUS.busy 1 t
    let s := s.updXfer t fun x => { x with left := 0x4000 * n, landed := false }
    (List.range n).foldl (fun s i =>
      let (s, v) := s.xferBlock ecc (src + 0x4000 * i)
      s.sidePlane t (s.get HBM_XFER_CFG.dst t + i) v) s

/-- The channel's pieces leave the side-port queue; held pieces take the entries that free (R142). -/
def State.xferWithdraw (s : State) (t : Nat) : State :=
  let mine (p : Piece) : Bool := p.initiator == xferInitiator t
  let side := (s.pri.side.map fun e => { e with pieces := e.pieces.filter fun p => !mine p }).filter fun e => !e.pieces.isEmpty
  let taken := (s.pri.side.take s.pri.turns).filter fun e => e.pieces.any fun p => !mine p
  ({ s with pri := { s.pri with side := side, held := s.pri.held.filter fun h => !mine h.2.2,
                                turns := taken.length } }.admitHeld 256).publishSide

/-- A write of 1 to HBM_XFER_CTRL.abort (R324). -/
def State.xferAbort (s : State) (t : Nat) : State :=
  if s.bit HBM_XFER_STATUS.busy t then
    let s := (s.xferWithdraw t).updXfer t fun x => { x with left := 0 }
    (s.put HBM_XFER_STATUS.busy 0 t).put HBM_XFER_STATUS.aborted 1 t
  else if (s.xfer t).landed then s.put HBM_XFER_STATUS.abort_too_late 1 t
  else s

/-- A write to HBM_XFER_CTRL_t or HBM_XFER_CFG_t (R323): an abort first, a start last (R643). While a one-shot channel is busy
a start and a configuration are refused. -/
def State.writeXfer (s : State) (t off m v : Nat) : State :=
  let ctrl := off % 0x20 = 0
  let abort := ctrl ∧ woField HBM_XFER_CTRL.abort m v = 1
  let start := ctrl ∧ woField HBM_XFER_CTRL.start m v = 1
  let s := if abort then s.xferAbort t else s
  let n := s.wrReg 9 off m v
  if s.bit HBM_XFER_STATUS.busy t then s.xferRefuse t
  else
    let s := if n.xferOk t then n else s.xferRefuse t
    if start then s.xferStart t [] else s

/-- What a recall of the slot of `tag` carries into the planes of channel `t` (R323): one half, or both of a wide slot. -/
def State.recallFill (s : State) (t dst a n : Nat) (wide : Bool) : State :=
  (s.sidePlane t dst (s.leMem a n)).sidePlane t (dst + 1) (if wide then s.leMem (a + 16384) n else 0)

/-- A recall of the slot of `serial`, whose tag the ring holds, at address `a` (R323): without its stack it is missed. -/
def State.recallTagged (s : State) (t serial a len : Nat) (ecc : EccMap) (tag : Nat × Nat) : State :=
  if ¬ s.memUp a len then (s.inc HBM_XFER_MISS_CNT.count t).put HBM_XFER_STATUS.missed 1 t
  else
    let n := if tag.2.testBit 4 then len / 4 else len / 2
    let s := s.hbmRead a n ecc
    let s := if tag.2.testBit 3 then s.hbmRead (a + 16384) n ecc else s
    (s.recallFill t (s.get HBM_XFER_CFG.dst t) a n (tag.2.testBit 3)).updXfer t
      fun x => { x with recallSt := 2, tagOk := tagNames serial tag }

/-- The serial that channel `t` recalls for the standing slot of serial `n`: it lags by HBM_XFER_CFG.lag (R323). -/
def State.recallSerial (s : State) (t n : Nat) : Nat := (n + 2 ^ 64 - s.get HBM_XFER_CFG.lag t) % 2 ^ 64

/-- The address of the ring slot of a serial (R322). -/
def ringSlot (serial : Nat) : Nat := 0x8000 * (serial % 65536)

/-- The bytes of a ring slot (R322). -/
def ringSlotLen : Nat := 0x8000

/-- Channel `t` recalls the slot of `serial`, given its ring tag (R323): without one the recall is missed. -/
def State.recallHeld (s : State) (t serial : Nat) (ecc : EccMap) : Option (Nat × Nat) → State
  | none => (s.inc HBM_XFER_MISS_CNT.count t).put HBM_XFER_STATUS.missed 1 t
  | some tag => s.recallTagged t serial (ringSlot serial) ringSlotLen ecc tag

/-- Channel `t` recalls for the slot that stands visible (R323): without one there is nothing to recall. -/
def State.recallShown (s : State) (t : Nat) (ecc : EccMap) : Option Entered → State
  | none => s
  | some e =>
    let n := s.recallSerial t e.serial
    let s := s.tagRead n ecc
    s.recallHeld t n ecc (s.ringTag n)

/-- Before the token each recall channel submits its two planes for a barrier that opens a foreground slot with a crossing
in stage 1; at every other barrier it clears grant (R323, R324). A half that the entry does not store is written as 0. -/
def State.recallOne (s : State) (ecc : EccMap) (t : Nat) : State :=
  if s.get HBM_XFER_CTRL.mode t ≠ 2 then s
  else (s.put HBM_XFER_STATUS.grant 0 t).recallShown t ecc s.pri.visible

/-- The recalls of the standing barrier (R323); what an earlier barrier left is withdrawn (R324). -/
def State.recallLeft (s : State) (t : Nat) : State :=
  if (s.xfer t).recallSt = 0 then s
  else
    let s := (s.xferWithdraw t).updXfer t fun x => { x with recallSt := 0 }
    (s.inc HBM_XFER_MISS_CNT.count t).put HBM_XFER_STATUS.missed 1 t

/-- The recalls of the coming barrier are submitted. -/
def State.recallAtBarrier (s : State) (ecc : EccMap) : State :=
  (List.range 4).foldl (fun s t => (s.recallLeft t).recallOne ecc t) s

/-- After the accesses of a barrier: what has landed for channel `t` (R324). -/
def State.xferLanded (s : State) (t : Nat) : State :=
  let mine (p : Bool × Nat × Piece) : Bool := p.2.2.initiator == xferInitiator t
  let done := s.pri.performed.filter mine
  let s := { s with pri := { s.pri with performed := s.pri.performed.filter fun p => !mine p } }
  let bytes : Nat := done.foldl (fun n p => n + p.2.2.len) 0
  let x := s.xfer t
  if x.recallSt ≠ 0 then
    if bytes < 0x8000 then s.recallLeft t
    else
      let s := s.updXfer t fun x => { x with recallSt := 0 }
      s.put HBM_XFER_STATUS.grant (b2n x.tagOk) t
  else if ¬ s.bit HBM_XFER_STATUS.busy t then s
  else
    let left := x.left - bytes
    let s := s.updXfer t fun x => { x with left := left }
    if left ≠ 0 then s
    else
      let s := s.updXfer t fun x => { x with landed := true }
      ((s.put HBM_XFER_STATUS.busy 0 t).put HBM_XFER_STATUS.grant 1 t).put HBM_XFER_STATUS.done_ 1 t

/-- The side-port accesses of a barrier, with what they land for the transfer channels (R142, R324). -/
def State.sideAccesses (s : State) : State := (List.range 4).foldl (fun s t => s.xferLanded t) s.sidePerform

/-- At a slot barrier an accepted HBM_PIPE_CTRL comes into force (R319): the flag says that one did. -/
def State.pipeAtBarrier (s : State) : State × Bool :=
  if s.hbm.oldPipe.isSome then ((s.updHbm fun h => { h with oldPipe := none }).publishPipe, true) else (s, false)

end Sys2Proof.Machine
end

