-- ==== Sys2Proof/Machine/Admission.lean ====
section
/-! DEFINITION. The latency promise and program admission (R235, R242 to R254). -/

namespace Sys2Proof.Machine

/-- F of an image in fs (R242). -/
def fixedTerm (f : ProgFacts) : Nat := if f.fullLast then 7750000 else 6250000

/-- B of an image with `c` cycles to the decision, in fs (R242, R248). -/
def boundOf (f : ProgFacts) (tmax p c : Nat) : Nat := fixedTerm f + c * p + (f.fg.length - 1) * tmax

/-- A bound in units of 0.01 ns, rounded up (R254). -/
def certOf (b : Nat) : Nat := min (2 ^ 18 - 1) (ceilDiv b 10000)

/-- A Beacon wait breaks R245. -/
def waitShort (f : ProgFacts) (p : Nat) : Bool :=
  f.waits.any fun w => decide (w.2 < ceilDiv (if f.fullRegs.testBit w.1 then 4000000 else 2500000) p)

/-- The admission code of an image (R246): the first failing check. -/
def admitCode (f : ProgFacts) (tmin tmax p promise : Nat) : Nat :=
  if f.decOutside then 6
  else if f.missing then 7
  else if waitShort f p then 5
  else if slotLength tmin p < f.fg.sum then 1
  else if f.dec ≠ 0 ∧ promise * 1000000 < boundOf f tmax p f.dec then 2
  else 0

/-- Foreground and DRAINING part of exchange slot P + j (R248). -/
def xchgSlot (old new : ProgFacts) (j : Nat) : Nat × Nat :=
  let drain := (old.fg.drop (j + 1)).sum
  (drain + (new.fg.take (j + 1)).sum, drain)

/-- The exchange check (R248): the code, the largest decision bound and the largest foreground of the exchange slots. -/
def admitExchange (old new : ProgFacts) (tmin tmax p promise : Nat) : Nat × Nat × Nat :=
  (List.range (old.fg.length - 1)).foldl (fun (a : Nat × Nat × Nat) j =>
    let (fg, drain) := xchgSlot old new j
    let decides := new.fg.length ≤ j + 1 ∧ new.dec ≠ 0
    let b := if decides then boundOf new tmax p (drain + new.dec) else 0
    let c := if a.1 ≠ 0 then a.1 else if slotLength tmin p < fg then 3
      else if decides ∧ promise * 1000000 < b then 4 else 0
    (c, max a.2.1 b, max a.2.2 fg)) (0, 0, 0)

/-- The Umbra half is ADMITTED or ARMED (R230). -/
def State.umbraReady (s : State) : Bool := s.umbraState = 3 || s.umbraState = 5

/-- A half is Active, be it in FAULT (R225). -/
def State.hasActive (s : State) : Bool := s.seqState != 0

/-- Publishes what is known of the Active program under the plan in force (R254, R259). -/
def State.publishActive (s : State) : State :=
  let x := s.active
  let f := x.facts
  let p := s.pSlow
  let l := slotLength (s.get GNO_PERIOD_MIN.period_fs) p
  let b := boundOf f (s.get GNO_PERIOD_MAX.period_fs) p f.dec
  let s := (s.put SEQ_ADM_PSLOW.period_fs p).put SEQ_ADM_BUDGET.budget (min 0xFFFF l)
  if ¬ s.hasActive then s
  else
    let s := (s.put SEQ_STATUS.stages (progStages x.image)).put SEQ_ACTIVE_ID.id (progId x.image)
    let s := (s.put SEQ_ADM_BUDGET.fg_total (min 0xFFFF f.fg.sum)).put SEQ_CERT_NS.bound (if f.dec = 0 then 0 else certOf b)
    let s := (s.put SEQ_DEC_INFO.dec_cycles (min 0xFFFF f.dec)).put SEQ_DEC_INFO.full (b2n f.fullLast)
    let s := s.put SEQ_DEC_OUTPUTS.active f.decided
    let s := s.put SEQ_ADM_STATUS.bg_room_low (b2n (decide (l < f.fg.sum + 10 + progYield x.image)))
    let s := s.put SEQ_BG_STATUS.yield (progYield x.image)
    (List.range 16).foldl (fun s n => s.put BCN_GL_STATUS.in_set (b2n (f.decided.testBit n)) n) s

/-- An event of R249: an admission starts, or restarts with the newer inputs (R253). -/
def State.startAdmission (s : State) (active umbra : Bool) (plan : Option Plan := none) : State :=
  let a : Admission := match s.seq.admission with
    | none => { active := active, umbra := umbra, plan := plan }
    | some o => { active := active || o.active, umbra := umbra || o.umbra, plan := plan.orElse fun _ => o.plan }
  (s.updSeq fun q => { q with admission := some a }).put SEQ_ADM_STATUS.busy 1

/-- The Active program is held (R251). -/
def State.hold (s : State) : State :=
  let s := s.updSeq fun q => { q with holdEnds := false }
  if s.bit SEQ_ADM_STATUS.held then s
  else ((s.put SEQ_ADM_STATUS.held 1).err SEQ_ADM_ERR.active_held).dropLater false

/-- Gnomon enters UNNUMBERED with newly published periods (R235, R249, R251, R273). -/
def State.admissionOnPeriods (s : State) : State :=
  let s := s.put SEQ_PROMISE_ACT.ns (s.get SEQ_PROMISE_NS.ns)
  let s := s.glintsPeriod
  let s := if s.hasActive then s.hold else s
  (s.startAdmission true true).publishActive

/-- The Umbra half's image is refused: REJECTED with the code; an armed exchange is cancelled (R231). -/
def State.umbraReject (s : State) (code : Nat) : State :=
  let s := if s.umbraState = 5 then (s.disarm .exchange).seqErr SEQ_ERR.exchange_cancelled else s
  ((s.put SEQ_UMBRA_STATUS.state 4).put SEQ_UMBRA_STATUS.admit_err code).seqErr SEQ_ERR.admit_rejected

/-- The admission of the Umbra half under periods with largest period `p` (R246 to R248, R254). -/
def State.admitUmbra (s : State) (p : Nat) : State :=
  let st := s.umbraState
  if st ≠ 2 ∧ ¬ s.umbraReady then s
  else
    let nw := (s.half s.umbraHalf).facts
    let old := s.active.facts
    let tmin := s.get GNO_PERIOD_MIN.period_fs
    let tmax := s.get GNO_PERIOD_MAX.period_fs
    let pend := s.get SEQ_PROMISE_NS.ns
    let c := admitCode nw tmin tmax p pend
    let held := s.bit SEQ_ADM_STATUS.held ∧ ¬ s.seq.holdEnds
    let x := if c = 0 ∧ s.seqState = 1 ∧ 2 ≤ old.fg.length ∧ ¬ held then
        admitExchange old nw tmin tmax p (max pend (s.get SEQ_PROMISE_ACT.ns))
      else (0, 0, 0)
    let c := if c = 0 then x.1 else c
    let b := if nw.dec = 0 then 0 else certOf (boundOf nw tmax p nw.dec)
    let s := ((s.put SEQ_UMBRA_CERT.bound b).put SEQ_XCHG_CERT.bound (certOf x.2.1)).put SEQ_XCHG_FG.cycles (min 0xFFFF x.2.2)
    if c ≠ 0 then s.umbraReject c
    else
      let s := s.put SEQ_UMBRA_STATUS.admit_err 0
      if st = 2 then s.put SEQ_UMBRA_STATUS.state 3 else s

/-- The admission of the Active program under largest period `p`: its code, and what follows outside a plan (R247, R249,
R251). -/
def State.admitActive (s : State) (p : Nat) (planned : Bool) : State × Nat :=
  if ¬ s.hasActive then (s, 0)
  else
    let c := admitCode s.active.facts (s.get GNO_PERIOD_MIN.period_fs) (s.get GNO_PERIOD_MAX.period_fs) p
      (min (s.get SEQ_PROMISE_NS.ns) (s.get SEQ_PROMISE_ACT.ns))
    let s := s.put SEQ_ADM_STATUS.active_ok (b2n (c == 0))
    let s := if c = 0 then s else s.put SEQ_ADM_STATUS.active_err c
    if c ≠ 0 then (if planned then s else s.hold, c)
    else (if s.bit SEQ_ADM_STATUS.held then s.updSeq fun q => { q with holdEnds := true } else s, c)

/-- The run for a proposed plan (R249, R250): the Active program, then an ADMITTED or ARMED Umbra half, both under the proposed
periods. A plan that the Active program refuses is not applied. -/
def State.admitPlan (s : State) (pl : Plan) : State :=
  let p := pl.periods.foldl max 1
  let (s, c) := s.admitActive p true
  let s :=
    if c = 0 then s.updSeq fun q => { q with plan := some pl }
    else
      let s := (s.put SEQ_ADM_STATUS.plan_err c).inc SEQ_PLAN_REFUSED_CNT.count
      (s.err SEQ_ADM_ERR.plan_refused 0 noInst p).updSeq fun q => { q with planRefused := some pl }
  s.admitUmbra p

/-- An admission run completes (R249, R250, R253): what other events ask is tested under the plan in force, and then a proposed
plan is tested. -/
def State.admissionComplete (s : State) : State :=
  match s.seq.admission with
  | none => s
  | some a =>
    let s := (s.updSeq fun q => { q with admission := none }).inc SEQ_ADM_RUN_CNT.count
    let s := s.put SEQ_ADM_STATUS.busy 0
    let s := if a.active then (s.admitActive s.pSlow false).1 else s
    let s := if a.umbra then s.admitUmbra s.pSlow else s
    (match a.plan with
    | none => s
    | some pl => s.admitPlan pl).publishActive

/-- A write to SEQ_PROMISE_NS (R235, R239, R249, R252). -/
def State.writePromise (s : State) (m v : Nat) : State :=
  if ¬ writes SEQ_PROMISE_NS.ns m then s else
  let old := s.get SEQ_PROMISE_NS.ns
  let s' := s.wrReg 6 0x2C m v
  let ns := s'.get SEQ_PROMISE_NS.ns
  let f := s.active.facts
  if s.hasActive ∧ f.dec ≠ 0 ∧ ns * 1000000 < boundOf f (s.get GNO_PERIOD_MAX.period_fs) s.pSlow f.dec then
    (s'.put SEQ_PROMISE_NS.ns old).err SEQ_ADM_ERR.promise_refused
  else if s.umbraReady then s'.startAdmission false true
  else s'

/-- The Glint output path is trimmed to 2.25 ns (R270): what the measurement finds is open. -/
def State.glintTrim (s : State) : State :=
  let code := s.fresh 8
  let s := s.tookFree
  ((s.put BCN_GLINT_TRIM.code code).put BCN_GLINT_TRIM.delay_ps (s.fresh 12)).tookFree

/-- The margin plan that has been admitted comes into force at its barrier (R17, R158, R250). What Tarnish does with it
besides the periods stands with Tarnish. -/
def State.planApply (s : State) : State :=
  match s.seq.plan with
  | none => s
  | some pl =>
    let s := (List.range 16).foldl (fun s i => s.put ARR_ISL_CLK_PLAN.period_fs (pl.periods.getD i 0) i) s.timersSync
    ((s.updSeq fun q => { q with plan := none }).publishActive).glintTrim

end Sys2Proof.Machine
end

