-- ==== Sys2Proof/Machine/Umbra.lean ====
section
/-! DEFINITION. The control store, program loading, the exchange and the commit sets (R208, R223 to R241). -/

namespace Sys2Proof.Machine

/-! ### Loading -/

/-- A load of the Umbra half begins (R208, R228): its context is cleared and the image is fetched. -/
def State.programLoad (s : State) : State :=
  let u := s.umbraState
  if u = 1 ∨ u = 5 ∨ u = 6 then s.seqErr SEQ_ERR.load_refused
  else
    let a := 8 * s.get SEQ_LOAD_ADDR_LO.addr + 2 ^ 32 * s.get SEQ_LOAD_ADDR_HI.addr
    let img := s.fetchBytes a (s.get SEQ_LOAD_LEN.bytes)
    let s := s.updSeq fun q => { q with loading := img, loaded := false }
    let s := s.updHalf s.umbraHalf fun _ => { ctx := clearedCtx (progEntry (img.getD []) 1) }
    let s := ((s.put SEQ_UMBRA_STATUS.state 1).put SEQ_UMBRA_STATUS.load_err 0).put SEQ_UMBRA_STATUS.admit_err 0
    ((s.put SEQ_UMBRA_ID.id 0).put SEQ_DEC_OUTPUTS.umbra 0).put SEQ_UMBRA_CERT.bound 0

/-- The load ends without an image (R229, R231). -/
def State.loadFails (s : State) (code : Nat) : State :=
  let s := s.updSeq fun q => { q with loading := none }
  let s := s.updHalf s.umbraHalf fun _ => {}
  (s.put SEQ_UMBRA_STATUS.state 0).put SEQ_UMBRA_STATUS.load_err code

/-- The loader has fetched and checked the image (R229, R249). -/
def State.loadDone (s : State) : State :=
  if s.umbraState ≠ 1 then s
  else match s.seq.loading with
  | none => (s.loadFails 27).seqErr SEQ_ERR.load_failed
  | some img =>
    let (c, w, f) := progErr img.length (s.get BOT_PATCH_VER.ver) img
    if c ≠ 0 then
      let s := (s.loadFails c).seqErr SEQ_ERR.load_failed
      if c ≤ 9 then s.put SEQ_LOAD_ERR_WORD.word w else s
    else
      let s := s.updSeq fun q => { q with loading := none, loaded := true }
      let s := s.updHalf s.umbraHalf fun x => { x with image := img, facts := f }
      let s := ((s.put SEQ_UMBRA_STATUS.state 2).put SEQ_UMBRA_ID.id (progId img)).put SEQ_DEC_OUTPUTS.umbra f.decided
      s.startAdmission false true

/-- A write of 1 to SEQ_CMD.load_abort (R228, R583). -/
def State.loadAbort (s : State) : State :=
  if s.umbraState = 1 then (s.loadFails 28).seqErr SEQ_ERR.aborted
  else if s.seq.loaded then s.seqErr SEQ_ERR.abort_too_late
  else s

/-! ### Faults of the control store -/

/-- The sequencer enters FAULT (R225, R274). -/
def State.seqFault (s : State) : State :=
  if s.seqState = 2 then s.seqErr SEQ_ERR.cstore_fault
  else
    let s := (s.put SEQ_STATUS.state 2).seqErr SEQ_ERR.cstore_fault
    s.stopIssue.dropLater true

/-- A control-store check finds an error in a word (R223, R224). -/
def State.cstoreError (s : State) (word : Nat) (double : Bool) : State :=
  if ¬ double then (s.inc SEQ_CSTORE_CORR_CNT.count).seqErr SEQ_ERR.cstore_corrected
  else
    let half : Option Nat := if word < 5120 then none else if word < 10752 then some 0 else some 1
    match half with
    | none => s.seqFault
    | some h =>
      if h = s.activeHalf ∧ s.hasActive then s.seqFault
      else
        let u := s.umbraState
        if h ≠ s.umbraHalf ∨ u = 0 then s
        else if u = 6 then s.seqFault
        else
          let s := if u = 5 then (s.disarm .exchange).seqErr SEQ_ERR.exchange_cancelled else s
          (((s.loadFails 30).put SEQ_UMBRA_ID.id 0).put SEQ_DEC_OUTPUTS.umbra 0).put SEQ_UMBRA_CERT.bound 0

/-! ### The exchange -/

/-- A write of 1 to SEQ_CMD.exchange (R232). -/
def State.exchangeArm (s : State) : State :=
  if s.umbraState ≠ 3 then s.seqErr SEQ_ERR.exchange_refused
  else
    let (named, orbit, index) := s.whenOf SEQ_XCHG_WHEN_LO.orbit SEQ_XCHG_WHEN_HI.orbit SEQ_XCHG_WHEN_HI.index
      SEQ_XCHG_WHEN_HI.named
    match s.arm .exchange named orbit index with
    | none => s.seqErr SEQ_ERR.exchange_refused
    | some s => (s.updSeq fun q => { q with exchanged := false }).put SEQ_UMBRA_STATUS.state 5

/-- The armed exchange is cancelled (R34, R231). -/
def State.exchangeCancelled (s : State) : State :=
  ((s.disarm .exchange).put SEQ_UMBRA_STATUS.state 3).seqErr SEQ_ERR.exchange_cancelled

/-- A write of 1 to SEQ_CMD.exchange_cancel (R231, R232, R583). -/
def State.exchangeCancel (s : State) : State :=
  if s.gno.due.contains .exchange then s.seqErr SEQ_ERR.abort_too_late
  else if s.umbraState = 5 then s.exchangeCancelled
  else if s.seq.exchanged then s.seqErr SEQ_ERR.abort_too_late
  else s

/-- A write to SEQ_CMD: bits act in the order of R643 (R239). -/
def State.writeSeqCmd (s : State) (m v : Nat) : State :=
  let s := if woField SEQ_CMD.load_abort m v = 1 then s.loadAbort else s
  let s := if woField SEQ_CMD.exchange_cancel m v = 1 then s.exchangeCancel else s
  let s := if woField SEQ_CMD.load m v = 1 then s.programLoad else s
  if woField SEQ_CMD.exchange m v = 1 then s.exchangeArm else s

/-- Timer `t` at the exchange (R234). -/
def State.exchangeTimer (s : State) (img : List (BitVec 8)) (all : Bool) (t : Nat) : State :=
  let r := progTimer img t
  let was := s.get SEQ_TMR_CFG.tick t
  let s := (((s.timerSync t).put SEQ_TMR_CFG.reload (bits r 0 24) t).put SEQ_TMR_CFG.tick (bits r 24 2) t).put SEQ_TMR_CFG.periodic (bits r 26 1) t
  if all ∨ (progTimerRestart img).testBit t then
    (((s.put SEQ_TMR_STAT.count (bits r 32 24) t).put SEQ_TMR_STAT.running (bits r 27 1) t).put SEQ_TMR_STAT.expired 0 t).timerFrom t
  else if bits r 24 2 = was then s
  else s.timerFrom t

/-- Edge detector `e` at the exchange (R234). -/
def State.exchangeEdge (s : State) (img : List (BitVec 8)) (all : Bool) (e : Nat) : State :=
  let r := progEdge img e
  let s := ((s.put SEQ_EDG.source (bits r 0 8) e).put SEQ_EDG.mode (bits r 8 2) e).put SEQ_EDG.arg_match (bits r 10 1) e
  let s := s.put SEQ_EDG.arg (bits r 12 8) e
  if all ∨ (progEdgeRestart img).testBit e then
    (s.put SEQ_EDG.pending 0 e).updSeq fun q => { q with fresh := q.fresh ||| 2 ^ e }
  else s

/-- The pending promise comes into force at a penumbra barrier unless it is below the one in force (R235). -/
def State.promiseAtPenumbra (s : State) : State :=
  s.put SEQ_PROMISE_ACT.ns (max (s.get SEQ_PROMISE_NS.ns) (s.get SEQ_PROMISE_ACT.ns))

/-- The exchange at the penumbra barrier (R231, R233 to R235, R249, R251). -/
def State.exchange (s : State) : State :=
  if s.umbraState ≠ 5 then s
  else
    let old := s.activeHalf
    let sOld := progStages s.active.image
    let idle := s.seqState = 0
    let drains := s.seqState = 1 ∧ ¬ s.bit SEQ_ADM_STATUS.held ∧ 2 ≤ sOld
    let pass := s.seq.inPass
    -- 1 and 2: the halves change over
    let s := (s.put SEQ_STATUS.active_half s.umbraHalf).put SEQ_STATUS.state 1
    let s := if drains then
        (s.put SEQ_UMBRA_STATUS.state 6).put SEQ_STATUS.drain_left (sOld - 1)
      else ((s.put SEQ_UMBRA_STATUS.state 0).put SEQ_STATUS.drain_left 0).updHalf old fun _ => {}
    let s := s.updSeq fun q => { q with drainStages := sOld, drained := 0, exchanged := true }
    let s := ((s.put SEQ_UMBRA_STATUS.load_err 0).put SEQ_UMBRA_ID.id 0).put SEQ_DEC_OUTPUTS.umbra 0
    let s := ((s.put SEQ_UMBRA_CERT.bound 0).put SEQ_XCHG_CERT.bound 0).put SEQ_XCHG_FG.cycles 0
    -- 3: the background starts anew
    let s := s.bgDiscard
    let s := if pass then s.put SEQ_BG_STATUS.pass_aborted 1 else s
    let s := (s.put SEQ_BG_STATUS.started 0).updSeq fun q =>
      { q with passDone := false, bgSave := if progHasBg s.active.image then some (progBgSave s.active.image) else none }
    -- 4: the records of the new image
    let img := s.active.image
    let s := (List.range 8).foldl (fun s t => s.exchangeTimer img idle t) s
    let s := (List.range 16).foldl (fun s e => s.exchangeEdge img idle e) s
    -- 5: the count; the promise; what is known of the new program
    let s := (s.inc SEQ_XCHG_CNT.count).promiseAtPenumbra
    let s := if s.bit TAR_STATUS.retry then s.tarTrigger 6 else s
    let s := (s.put SEQ_ADM_STATUS.active_ok 1).put SEQ_ADM_STATUS.active_err 0
    let s := if s.seq.admission.isSome then s.startAdmission (s.bit SEQ_ADM_STATUS.held) false
      else (s.put SEQ_ADM_STATUS.held 0).updSeq fun q => { q with holdEnds := false }
    s.publishActive

/-- The exchange due at the standing barrier is made (R16, R233). -/
def State.penumbra (s : State) : State :=
  if s.isDue .exchange then (s.tookDue .exchange).exchange else s

/-- The DRAINING half counts a completed foreground slot (R231). -/
def State.drainSlot (s : State) : State :=
  if s.umbraState ≠ 6 then s
  else
    let n := s.seq.drained + 1
    let s := (s.updSeq fun q => { q with drained := n }).put SEQ_STATUS.drain_left (s.seq.drainStages - 1 - n)
    if s.seq.drainStages ≤ n + 1 then s.drainDone else s

/-! ### Commit sets -/

/-- Valid entries of a set. -/
def State.csEntries (s : State) (n : Nat) : Nat := ((List.range 16).filter fun e => s.bit SEQ_CS_ENT.valid n e).length

/-- Shows the number of valid entries (R240). -/
def State.publishCs (s : State) (n : Nat) : State := s.put SEQ_CS_STATUS.entries (s.csEntries n) n

/-- A write of 1 to SEQ_CS_CTRL.arm (R237). -/
def State.csArm (s : State) (n : Nat) : State :=
  if s.bit SEQ_CS_STATUS.armed n ∨ s.csEntries n = 0 then s.seqErr SEQ_ERR.commit_refused
  else
    let (named, orbit, index) := s.whenOf SEQ_CS_WHEN_LO.orbit SEQ_CS_WHEN_HI.orbit SEQ_CS_WHEN_HI.index
      SEQ_CS_WHEN_HI.named n
    match s.arm (.cset n) named orbit index with
    | none => s.seqErr SEQ_ERR.commit_refused
    | some s => (s.updSeq fun q => { q with fired := q.fired - (if q.fired.testBit n then 2 ^ n else 0) }).put SEQ_CS_STATUS.armed 1 n

/-- A channel table whose commit set fires changes its copy in use; one whose set is cancelled keeps it (R510, R511, R512). -/
def ChanTable.settle (fired : Bool) (t : ChanTable) : ChanTable :=
  if fired then { t with state := 3, copyB := !t.copyB, set := none, ledger := false }
  else { t with state := 5, code := 8, set := none, ledger := false }

/-- Commit set `n` fires or is cancelled: the table that it is armed for takes notice (R511). -/
def State.tablesSettle (s : State) (n : Nat) (fired : Bool) : State :=
  { s with dic := { s.dic with tables := s.dic.tables.map fun e => (e.1, if e.2.set = some n then e.2.settle fired else e.2) } }

/-- A write of 1 to SEQ_CS_CTRL.abort (R238, R583). -/
def State.csAbort (s : State) (n : Nat) : State :=
  if s.gno.due.contains (.cset n) then s.seqErr SEQ_ERR.abort_too_late
  else if s.bit SEQ_CS_STATUS.armed n then
    (((s.disarm (.cset n)).put SEQ_CS_STATUS.armed 0 n).put SEQ_CS_STATUS.aborted 1 n).tablesSettle n false
  else if s.seq.fired.testBit n then s.seqErr SEQ_ERR.abort_too_late
  else s

/-- A write of 1 to SEQ_CS_CTRL.clear (R240). -/
def State.csClear (s : State) (n : Nat) : State :=
  if s.bit SEQ_CS_STATUS.armed n then s
  else ((List.range 16).foldl (fun s e => s.put SEQ_CS_ENT.valid 0 n e) s).publishCs n

/-- A write to SEQ_CS_CTRL: abort, then clear, then arm (R240). -/
def State.writeCsCtrl (s : State) (n m v : Nat) : State :=
  let s := if woField SEQ_CS_CTRL.abort m v = 1 then s.csAbort n else s
  let s := if woField SEQ_CS_CTRL.clear m v = 1 then s.csClear n else s
  if woField SEQ_CS_CTRL.arm m v = 1 then s.csArm n else s

/-- A write to an entry or a value of a set: ignored while the set is armed (R238). -/
def State.writeCsEntry (s : State) (n off m v : Nat) : State :=
  if s.bit SEQ_CS_STATUS.armed n then s.seqErr SEQ_ERR.commit_refused
  else (s.wrReg 6 off m v).publishCs n

/-- An armed set is cancelled by a discontinuity (R34, R238). -/
def State.csCancelled (s : State) (n : Nat) : State :=
  ((((s.disarm (.cset n)).put SEQ_CS_STATUS.armed 0 n).put SEQ_CS_STATUS.cancelled 1 n).seqErr
    SEQ_ERR.commit_cancelled).tablesSettle n false

/-- Entry `e` of a set writes its register (R236). -/
def State.csWrite (s : State) (n e : Nat) : State :=
  if ¬ s.bit SEQ_CS_ENT.valid n e then s
  else
    let r := s.get SEQ_CS_ENT.reg n e
    let v := s.get SEQ_CS_VAL.value n e
    if s.bit SEQ_CS_ENT.ctx n e then s.updSeq fun q => { q with bg := q.bg.setReg r v }
    else
      let w (s : State) (h : Nat) := s.updHalf h fun x => { x with ctx := x.ctx.setReg r v }
      let s := if s.umbraReady then w s s.umbraHalf else s
      w s s.activeHalf

/-- A set fires at its barrier (R16, R237). -/
def State.csFire (s : State) (n : Nat) : State :=
  if ¬ s.isDue (.cset n) then s
  else
    let s := s.tookDue (.cset n)
    let s := (List.range 16).foldl (fun s e => s.csWrite n e) s
    let s := s.updSeq fun q => { q with fired := q.fired ||| 2 ^ n }
    ((s.put SEQ_CS_STATUS.armed 0 n).put SEQ_CS_STATUS.committed 1 n).tablesSettle n true

end Sys2Proof.Machine
end

