-- ==== Sys2Proof/Machine/Worga.lean ====
section
/-! DEFINITION. Worga: lanes, addresses, link states, IDENT words and SLOT markers (R283 to R294). -/

namespace Sys2Proof.Machine

/-- Changes the Worga engine's internal state. -/
def State.updWor (s : State) (f : Wor → Wor) : State := { s with wor := f s.wor }

/-- The internal state of a link. -/
def State.wlink (s : State) (l : LinkId) : WLink := Sparse.get {} s.wor.links l.key

/-- Changes the internal state of a link. -/
def State.updLink (s : State) (l : LinkId) (f : WLink → WLink) : State :=
  s.updWor fun w => { w with links := Sparse.upd {} w.links l.key f }

/-- The link's state code (R291): 0 DOWN, 1 TRAINING, 2 IDENT, 3 MATCHING, 4 SERVICE. -/
def State.linkState (s : State) : LinkId → Nat
  | .data j => s.get WOR_LINK_STATUS.state j.val
  | .beacon n => s.get WOR_BLN_STATUS.state n.val

/-- Shows a link's state (R291). -/
def State.putLinkState (s : State) (l : LinkId) (v : Nat) : State :=
  match l with
  | .data j => s.put WOR_LINK_STATUS.state v j.val
  | .beacon n => s.put WOR_BLN_STATUS.state v n.val

/-- The link is enabled. -/
def State.linkEnabled (s : State) : LinkId → Bool
  | .data j => s.bit WOR_LINK_CFG.enable j.val
  | .beacon n => s.bit WOR_BLN_CFG.enable n.val

/-- The errors that data links and beacon lanes share (R313). -/
inductive LinkErr where
  | down | trainTimeout | mismatch | marker | crc | fec | badCtl
  deriving DecidableEq, Repr

/-- The bit of WOR_BLN_ERR (R313). -/
def LinkErr.lane : LinkErr → Nat
  | .down => 0
  | .trainTimeout => 1
  | .mismatch => 2
  | .marker => 3
  | .crc => 4
  | .fec => 5
  | .badCtl => 6

/-- The bit of WOR_LINK_ERR (R313). -/
def LinkErr.field : LinkErr → Fld
  | .down => WOR_LINK_ERR.down
  | .trainTimeout => WOR_LINK_ERR.train_timeout
  | .mismatch => WOR_LINK_ERR.side_mismatch
  | .marker => WOR_LINK_ERR.marker_mismatch
  | .crc => WOR_LINK_ERR.crc
  | .fec => WOR_LINK_ERR.fec_uncorr
  | .badCtl => WOR_LINK_ERR.bad_ctl

/-- Sets an error bit of a link and reports it with the link or lane number (R313). -/
def State.linkErr (s : State) (l : LinkId) (e : LinkErr) : State :=
  match l with
  | .data j => s.err e.field j.val j.val
  | .beacon n => s.errBit WOR_BLN_ERR.err e.lane n.val n.val

/-- The width of a data link (R313). -/
def State.linkWidth (s : State) (j : Nat) : Nat := 2 ^ s.get WOR_LINK_CFG.width j

/-- Link word period p in fs (R284). -/
def State.linkPeriod (s : State) (j : Nat) : Nat :=
  (if s.bit WOR_LINK_CFG.rate j then 1280000 else 640000) / s.linkWidth j

/-- The rear lanes that a data link would use. -/
def State.linkLanes (s : State) (j : Nat) : List Nat := (List.range (s.linkWidth j)).map (4 * j + ·)

/-- The rear lanes of a link (R283). -/
def State.rearLanes (s : State) : LinkId → List Nat
  | .data j => s.linkLanes j.val
  | .beacon n => [n.val]

/-- How many uses a rear lane has (R283): enabled data links, beacon lanes and readout ports. -/
def State.laneUses (s : State) (lane : Nat) : Nat :=
  (List.range 12).countP (fun j => s.bit WOR_LINK_CFG.enable j && (s.linkLanes j).contains lane) +
    b2n (s.bit WOR_BLN_CFG.enable lane) +
    (List.range 16).countP fun k => s.bit RDO_PORT_CFG.enable k && s.get RDO_PORT_CFG.lane k == lane

/-- Some lane has a second use (R283). -/
def State.laneConflict (s : State) (lanes : List Nat) : Bool := lanes.any fun n => decide (1 < s.laneUses n)

/-! ### Windows (R296, R297) -/

/-- Enabled ARR_WHALO entries (R297). -/
def State.whaloCount (s : State) : Nat := (List.range 8).countP fun n => s.bit ARR_WHALO.enable n

/-- W of a data link (R296). -/
def State.linkW (s : State) (j : Nat) : Nat := s.get GNO_PERIOD_MIN.period_fs / s.linkPeriod j

/-- H of a data link by its side, while Gnomon is numbered (R297). -/
def State.linkHalo (s : State) (j : Nat) : Nat :=
  match s.get WOR_LINK_CFG.side j with
  | 0 | 2 => 2 + 9 * s.whaloCount
  | 1 | 3 => 2 + 5 * s.whaloCount
  | _ => 0

/-- H of the current link slot (R297). -/
def State.linkH (s : State) (j : Nat) : Nat := if s.numbered then s.linkHalo j else 0

/-- The acceptance check of R297. -/
def State.windowOk (s : State) (j : Nat) : Bool := 2 + s.linkHalo j ≤ s.linkW j

/-- G, the guaranteed bulk window, with the halo window counted (R297). -/
def State.linkG (s : State) (j : Nat) : Nat := s.linkW j - 2 - s.linkH j

/-- The latest expected halo arrival in fs (R306). -/
def State.haloArrive (s : State) (j : Nat) : Nat :=
  s.get WOR_LINK_MARK_MAX.ofs j * 10000 + (s.linkH j + 1) * s.linkPeriod j + 2000000

/-- Publishes WOR_HALO_ARRIVE and the late mark of R306. -/
def State.publishArrive (s : State) (j : Nat) : State :=
  let a := s.haloArrive j
  let d := s.wor.oldDelay.getD (s.get WOR_HALO_DELAY.slots)
  let s := s.put WOR_HALO_ARRIVE.t (min 0xFFFFFF (a / 10000)) j
  s.put WOR_LINK_STATUS.halo_late (b2n (1 ≤ d && d * s.get GNO_PERIOD_MIN.period_fs < a)) j

/-- Publishes a link's windows (R297, R306). -/
def State.publishLink (s : State) (j : Nat) : State :=
  let s := (s.put WOR_LINK_WORDS.w (min 1023 (s.linkW j)) j).put WOR_LINK_WORDS.halo (s.linkH j) j
  let s := s.put WOR_LINK_WORDS.bulk (min 1023 (s.linkG j)) j
  let s := s.put WOR_LINK_STATUS.window_ok (b2n (s.windowOk j)) j
  (s.put WOR_LINK_STATUS.bulk_ok (b2n (11 ≤ s.linkG j)) j).publishArrive j

/-- The data links in use. -/
def State.linksInUse (s : State) : List Nat := (List.range 12).filter fun j => s.bit WOR_LINK_CFG.enable j

/-- Publishes the windows of every data link in use. -/
def State.publishLinks (s : State) : State := s.linksInUse.foldl (fun s j => s.publishLink j) s

/-- A write to ARR_WHALO_n (R156, R297): refused when a data link in use cannot hold the halo window. -/
def State.writeWhaloChecked (s : State) (n m v : Nat) : State :=
  let t := s.writeWhalo n m v
  if t.whaloCount = s.whaloCount then t
  else match t.linksInUse.filter fun j => !t.windowOk j with
    | [] => t.publishLinks
    | bad => bad.foldl (fun s j => s.err WOR_LINK_ERR.window_refused j j) s

/-! ### Addresses (R289, R290) -/

/-- The side that faces a side (R292): N with S, E with W, none with none. -/
def oppositeSide (x : Nat) : Nat := if x < 4 then (x + 2) % 4 else x

/-- The data link of a side: the enabled one with the lowest number. -/
def State.linkOfSide (s : State) (side : Nat) : Option (Fin 12) :=
  (List.finRange 12).find? fun j => s.bit WOR_LINK_CFG.enable j.val && s.get WOR_LINK_CFG.side j.val == side

/-- The peer's address on a side whose link has reached MATCHING (R290). -/
def State.peerOn (s : State) (side : Nat) : Option Nat :=
  match s.linkOfSide side with
  | none => none
  | some j => if 3 ≤ s.linkState (.data j) then some (s.get WOR_LINK_PEER.addr j.val) else none

/-- A W or N peer stands at the last column or row: the address derived from it lies beyond 511 (R290, R604). -/
def State.addrBeyond (s : State) : Bool :=
  (s.peerOn 3).any (fun a => a % 512 == 511) || (s.peerOn 0).any fun a => a / 512 == 511

/-- The device's address, none while it is invalid (R290, R604). -/
def State.ownAddress (s : State) : Option Nat :=
  if ¬ s.bit WOR_ADDR.auto then some (s.get WOR_ADDR.addr)
  else
    if s.addrBeyond then none
    else match (s.peerOn 3).map (· + 1), (s.peerOn 0).map (· + 512) with
    | some a, some b => if a = b then some a else none
    | some a, none => some a
    | none, b => b

/-- Derives the address again and publishes it; a change to an invalid one is an error, and so is one derived beyond
the grid (R290, R604). -/
def State.worgaAddress (s : State) : State :=
  match s.ownAddress with
  | some a => (s.put WOR_ADDR_STATUS.addr a).put WOR_ADDR_STATUS.valid 1
  | none =>
    if s.bit WOR_ADDR_STATUS.valid ∨ s.addrBeyond then (s.put WOR_ADDR_STATUS.valid 0).err WOR_ERR.addr_conflict else s

/-- A write to WOR_ADDR (R290). -/
def State.writeWorAddr (s : State) (m v : Nat) : State :=
  let t := s.wrReg 8 0 m v
  match t.ownAddress with
  | some _ => t.worgaAddress
  | none => (t.put WOR_ADDR_STATUS.valid 0).err WOR_ERR.addr_conflict

/-- The side of the first hop toward a device (R289). -/
def hopSide (own dst : Nat) : Option Nat :=
  if dst % 512 ≠ own % 512 then some (if own % 512 < dst % 512 then 1 else 3)
  else if dst / 512 ≠ own / 512 then some (if own / 512 < dst / 512 then 2 else 0)
  else none

/-- The first-hop link toward a device (R289). -/
def State.firstHop (s : State) (dst : Nat) : Option (Fin 12) :=
  match s.ownAddress with
  | none => none
  | some own => (hopSide own dst).bind s.linkOfSide

/-! ### Link states (R291, R292) -/

/-- The link restarts its match of markers. -/
def State.resetMarks (s : State) (l : LinkId) : State := s.updLink l fun w => { w with marks := [], misses := 0 }

/-- The peer is no longer recorded. -/
def State.forgetPeer (s : State) (l : LinkId) : State :=
  match l with
  | .data j => s.put WOR_LINK_PEER.valid 0 j.val
  | .beacon n => s.put WOR_BLN_PEER.valid 0 n.val

/-- A link goes DOWN (R292). -/
def State.linkDown (s : State) (l : LinkId) : State :=
  let was := s.linkState l
  let s := ((s.putLinkState l 0).resetMarks l).forgetPeer l
  let s := s.updLink l fun w => { w with identRun := 0, rx := none, marker := none, turn := 0, waits := [], rxTurn := 0 }
  let s := if was = 4 then s.linkErr l .down else s
  s.worgaAddress

/-- SERVICE returns to MATCHING (R292). -/
def State.leaveService (s : State) (l : LinkId) : State :=
  if s.linkState l = 4 then ((s.putLinkState l 3).resetMarks l).linkErr l .marker else s

/-- A write to WOR_LINK_CFG or WOR_BLN_CFG (R283, R292, R297). -/
def State.writeLinkCfg (s : State) (l : LinkId) (m v : Nat) : State :=
  match l with
  | .data j =>
    let t := s.wrReg 8 (0x400 + 0x40 * j.val) m v
    let on := t.bit WOR_LINK_CFG.enable j.val
    if on ∧ t.laneConflict (t.linkLanes j.val) then s.err WOR_ERR.lane_conflict 0 j.val
    else if t.linksInUse.any fun k => !t.windowOk k then s.err WOR_LINK_ERR.window_refused j.val j.val
    else
      let same (f : Fld) : Bool := t.get f j.val == s.get f j.val
      let t := t.publishLink j.val
      let keep := on && same WOR_LINK_CFG.width && same WOR_LINK_CFG.rate && same WOR_LINK_CFG.fec
      if keep ∨ t.linkState l = 0 then t.worgaAddress else t.linkDown l
  | .beacon n =>
    let t := s.wrReg 8 (0x800 + 0x20 * n.val) m v
    let on := t.bit WOR_BLN_CFG.enable n.val
    if on ∧ t.laneConflict [n.val] then s.err WOR_ERR.lane_conflict 0 n.val
    else
      let same (f : Fld) : Bool := t.get f n.val == s.get f n.val
      let keep := on && same WOR_BLN_CFG.rate && same WOR_BLN_CFG.fec
      if keep ∨ t.linkState l = 0 then t else t.linkDown l

/-- A lane loses lock or codeword alignment (R292). -/
def State.linkLaneLoss (s : State) (l : LinkId) : State :=
  let st := s.linkState l
  if st = 0 then s
  else
    let s := s.linkDown l
    match l with
    | .data j => if st = 4 then s.inc WOR_LINK_DOWN_CNT.count j.val else s
    | .beacon _ => s

/-- The codes of control words (R287): IDLE, SLOT, IDENT, SOF, EOF, BCN. -/
def controlCodes : List Nat := [0x00, 0x1E, 0x66, 0x2D, 0x33, 0x4B]

/-- A control word with an unknown code is taken as IDLE, counted, and an error (R287). -/
def State.badControl (s : State) (l : LinkId) : State :=
  (s.updLink l fun w => { w with badWords := min 0xFFFFFFFF (w.badWords + 1) }).linkErr l .badCtl

/-- Every lane's PLL of an enabled link has locked (R292). -/
def State.linkPllLock (s : State) (l : LinkId) : State :=
  if s.linkEnabled l ∧ s.linkState l = 0 ∧ (s.rearLanes l).all (fun n => (s.get FLN_REFCLK_STATUS.present).testBit (n / 6)) then s.putLinkState l 1 else s

/-- All lanes are codeword-aligned within the skew of R286: link words are aligned from here on (R286, R292). -/
def State.linkTrained (s : State) (l : LinkId) : State :=
  if s.linkState l = 1 then (s.putLinkState l 2).updLink l fun w => { w with identRun := 0, waits := [], rxTurn := 0 } else s

/-- 10 ms in TRAINING (R292). -/
def State.linkTrainTimeout (s : State) (l : LinkId) : State :=
  if s.linkState l = 1 then (s.linkDown l).linkErr l .trainTimeout else s

/-- A lane has received the end of a codeword (R285): it was good, corrected or uncorrectable. In FEC mode 0 nothing is
corrected. -/
def State.worgaCodeword (s : State) (l : LinkId) (o : Codeword) : State :=
  if s.linkState l = 0 then s
  else match o, l with
    | .good, _ => s
    | .corrected, .data j => if s.bit WOR_LINK_CFG.fec j.val then s.inc WOR_FEC_CORR_CNT.count j.val else s
    | .corrected, .beacon _ => s
    | .uncorrectable, .data j => (s.inc WOR_FEC_UNCORR_CNT.count j.val).linkErr l .fec
    | .uncorrectable, .beacon _ => s.linkErr l .fec

/-! ### IDENT (R287, R292) -/

/-- This device's role on a beacon lane: 1 on its parent lane (R287). -/
def State.laneRole (s : State) (n : Nat) : Nat := b2n (!s.bit WOR_BCN_CTRL.root && s.get WOR_BCN_CTRL.parent == n)

/-- The device's use of a link as IDENT tells it (R287). -/
def State.linkUse (s : State) : LinkId → Nat
  | .data j => s.get WOR_LINK_CFG.side j.val
  | .beacon _ => 7

/-- The role bit that IDENT tells (R287). -/
def State.linkRole (s : State) : LinkId → Nat
  | .data _ => 0
  | .beacon n => s.laneRole n.val

/-- The IDENT word that a link sends (R287, R290). -/
def State.identWord (s : State) (l : LinkId) : Nat :=
  0x66 + (s.ownAddress.getD (s.get WOR_ADDR.addr) <<< 8) + (b2n s.ownAddress.isSome <<< 26) + (s.linkUse l <<< 27) +
    (s.linkRole l <<< 30)

/-- The part of an IDENT word that names the peer: address, validity, use and role. -/
def identPeer (w : Nat) : Nat := bits w 8 23

/-- The peer's use or role fits this link (R292). -/
def State.identFits (s : State) (l : LinkId) (w : Nat) : Bool :=
  match l with
  | .data j => bits w 27 3 == oppositeSide (s.get WOR_LINK_CFG.side j.val)
  | .beacon n => bit1 w 30 != s.laneRole n.val

/-- The peer is recorded and the link enters MATCHING (R292). -/
def State.enterMatching (s : State) (l : LinkId) (w : Nat) : State :=
  let s := (s.putLinkState l 3).resetMarks l
  let s := match l with
    | .data j => ((s.put WOR_LINK_PEER.addr (bits w 8 18) j.val).put WOR_LINK_PEER.use (bits w 27 3) j.val).put
        WOR_LINK_PEER.valid 1 j.val
    | .beacon n => ((s.put WOR_BLN_PEER.addr (bits w 8 18) n.val).put WOR_BLN_PEER.role (bit1 w 30) n.val).put
        WOR_BLN_PEER.valid 1 n.val
  s.worgaAddress

/-- A received IDENT word (R292). -/
def State.linkIdent (s : State) (l : LinkId) (w : Nat) : State :=
  let st := s.linkState l
  let k := s.wlink l
  let peer := identPeer w
  if st = 2 then
    if ¬ s.identFits l w then (s.updLink l fun x => { x with identRun := 0 }).linkErr l .mismatch
    else if bit1 w 26 = 0 then s.updLink l fun x => { x with identRun := 0 }
    else
      let run := if peer = k.ident then k.identRun + 1 else 1
      let s := s.updLink l fun x => { x with identRun := run, ident := peer }
      if 8 ≤ run then s.enterMatching l w else s
  else if 3 ≤ st then
    if peer = k.ident then s
    else
      let s := ((s.putLinkState l 2).resetMarks l).forgetPeer l
      (s.updLink l fun x => { x with identRun := 0 }).worgaAddress
  else s

/-! ### SLOT markers (R287, R293) -/

/-- The tag of the crossing that is current in the slot which the latest edge, or the edge `k` slots earlier, opened, and
that edge's instant (R43, R293). -/
def State.slotBack (s : State) (k : Nat) : Option (Tag × Nat) :=
  match s.gno.tags[k]? with
  | none => none
  | some e =>
    let serial := (e.serial + 2 ^ 64 - s.pri.work.lin) % 2 ^ 64
    ((s.gno.tags.find? fun g => g.serial == serial && g.numbered)).map fun g => (g, e.edge)

/-- The reference edge of the local slot that a marker matches (R293). -/
def State.markerMatch (s : State) (w : Nat) : Option Nat :=
  if bit1 w 20 = 0 ∨ bits w 22 16 ≠ s.get WOR_EPOCH.active then none
  else ((List.range 17).findSome? fun k => match s.slotBack k with
    | some (g, t) => if g.index = bits w 8 12 ∧ g.orbit % 2 ^ 24 = bits w 38 24 then some t else none
    | none => none)

/-- The service condition of R293 on the markers matched in MATCHING, latest first. -/
def State.serviceReady (s : State) (marks : List (Nat × Bool)) : Bool :=
  let m := marks.take 64
  let hi := (m.map (·.1)).foldl max 0
  let lo := (m.map (·.1)).foldl min hi
  s.tagging && m.length == 64 && decide (16 * (hi - lo) < s.slotPeriod) && m.any (·.2) && s.ownAddress.isSome

/-- A link enters SERVICE (R292, R313). -/
def State.enterService (s : State) (l : LinkId) : State :=
  let s := (s.putLinkState l 4).updLink l fun w => { w with misses := 0 }
  match l with
  | .data j => (s.put WOR_LINK_MARK_MAX.ofs 0 j.val).publishArrive j.val
  | .beacon _ => s

/-- One more marker is missing or not matched (R292, R293). -/
def State.markerMiss (s : State) (l : LinkId) : State :=
  match s.linkState l with
  | 3 => s.resetMarks l
  | 4 =>
    let n := (s.wlink l).misses + 1
    let s := s.updLink l fun w => { w with misses := n }
    if 4 ≤ n then s.leaveService l else s
  | _ => s

/-- Shows the offset of a matched marker (R306, R313). -/
def State.publishOffset (s : State) (l : LinkId) (ofs : Nat) : State :=
  let v := min 0xFFFFFF (ofs / 10000)
  match l with
  | .data j =>
    let s := s.put WOR_LINK_MARK_OFS.ofs v j.val
    if s.linkState l = 4 ∧ s.get WOR_LINK_MARK_MAX.ofs j.val < v then
      (s.put WOR_LINK_MARK_MAX.ofs v j.val).publishArrive j.val
    else s
  | .beacon n => s.put WOR_BLN_MARK_OFS.ofs v n.val

/-- A received SLOT marker that arrives at the engine at instant `t` (R293). -/
def State.slotMarker (s : State) (l : LinkId) (w t : Nat) : State :=
  if s.linkState l < 3 then s
  else
    let s := (s.at t).updLink l fun x => { x with marker := some (bits w 8 12) }
    match s.markerMatch w with
    | none => s.markerMiss l
    | some edge =>
      let ofs := t - edge
      let s := s.publishOffset l ofs
      let s := s.updLink l fun x =>
        { x with misses := 0, marks := if s.linkState l = 3 then ((ofs, bits w 8 12 == 0) :: x.marks).take 64 else [] }
      if s.linkState l = 3 ∧ s.serviceReady (s.wlink l).marks then s.enterService l else s

/-- Every link. -/
def allLinks : List LinkId := (List.finRange 12).map .data ++ (List.finRange 48).map .beacon

/-- The local timeline is lost or has a discontinuity: every link leaves SERVICE (R292), and H follows the numbering
(R297). -/
def State.worgaDiscontinuity (s : State) : State := (allLinks.foldl (fun s l => s.leaveService l) s).publishLinks

/-- The window check at an entry to UNNUMBERED (R297). -/
def State.worgaPeriods (s : State) : State := s.publishLinks

end Sys2Proof.Machine
end

