-- ==== Sys2Proof/Machine/WorgaFrames.lean ====
section
/-! DEFINITION. Worga: link slots, frames, firmware frames, rear streams and the halo exchange (R287, R288, R296 to R306). -/

namespace Sys2Proof.Machine

/-! ### Frames (R287, R288) -/

/-- The CRC-32 of a frame (R288). -/
def frameCrc (sof : Nat) (payload : List Nat) (eof : Nat) : Nat :=
  crc32 (leBytes 7 (sof >>> 8) ++ (payload.map (leBytes 8)).flatten ++ leBytes 3 (bits eof 8 24))

/-- A SOF word (R287). -/
def sofWord (type first last dst src seq : Nat) : Nat :=
  0x2D + (type <<< 8) + (first <<< 10) + (last <<< 11) + (dst <<< 12) + (src <<< 30) + (seq <<< 48)

/-- The words of a frame (R288). -/
def frameWords (sof : Nat) (payload : List Nat) : List LinkWord :=
  let eof := 0x33 + (payload.length % 2048) <<< 8
  [(true, sof)] ++ payload.map (fun w => (false, w)) ++ [(true, eof + (frameCrc sof payload eof) <<< 32)]

/-- The next sequence number of a link and frame type (R287). -/
def State.takeSeq (s : State) (j : Fin 12) (type : Nat) : Nat × State :=
  let n := Sparse.get 0 (s.wlink (.data j)).next type
  (n, s.updLink (.data j) fun w => { w with next := Sparse.set 0 w.next type ((n + 1) % 65536) })

/-- Sends one frame on a link. -/
def State.putFrame (s : State) (j : Fin 12) (type : Nat) (first last : Bool) (dst src : Nat) (payload : List Nat) :
    State × List LinkWord :=
  let (n, s) := s.takeSeq j type
  (s, frameWords (sofWord type (b2n first) (b2n last) dst src n) payload)

/-! ### The halo window (R303, R304) -/

/-- At the token the edge bits of each enabled entry are captured for every side (R303). -/
def State.haloCapture (s : State) : State :=
  let live := s.pesWhere inUse
  let caps := (List.range 8).filterMap fun n =>
    let w := Sparse.get 0 s.arr.whalo n
    if ¬ w.testBit 31 then none
    else
      let v := s.plane (w % 4096) &&& live
      some { n := n, addr := w % 4096, north := gatherEdge .north v, east := gatherEdge .east v,
             south := gatherEdge .south v, west := gatherEdge .west v }
  s.updWor fun x => { x with captured := caps }

/-- The edge bits of a capture on a side. -/
def Capture.side (c : Capture) : Nat → Nat
  | 0 => c.north
  | 1 => c.east
  | 2 => c.south
  | _ => c.west

/-- Words of a plane's bits on a side (R304). -/
def haloWords (side : Nat) : Nat := if side % 2 = 0 then 8 else 4

/-- The halo payload of a side (R304). -/
def haloPayload (side : Nat) (caps : List Capture) : List Nat :=
  (caps.map fun c => (c.addr + c.n * 4096) :: (List.range (haloWords side)).map fun i => bits (c.side side) (64 * i) 64).flatten

/-! ### The bulk window (R298, R299) -/

/-- How many payload words of a frame start now in the `room` words left: none where the frame waits (R299); a stream frame goes
whole or waits (R301). -/
def pieceOf (stream : Bool) (g room total sent : Nat) : Option Nat :=
  let rest := total - sent
  if stream ∨ total + 3 ≤ g then (if rest + 3 ≤ room then some rest else none)
  else
    let f := min rest (8 * ((room - 3) / 8))
    if 3 ≤ room ∧ (8 ≤ f ∨ f = rest) then some f else none

/-- A stream frame, of this device or in transit, is never fragmented (R287, R301). -/
def Frame.whole (f : Frame) : Bool := f.type == 2

/-- The frame is that of a rear stream of this device. -/
def Frame.ofStream (f : Frame) : Bool :=
  match f.origin with
  | .stream _ => true
  | _ => false

/-- Frames of streams in ascending stream number, those of one stream in their order (R298). -/
def inStreamOrder (fs : List Frame) : List Frame :=
  ((List.range 8).map fun r => fs.filter fun f => f.origin = .stream r).flatten

/-- The frames that go out in a bulk window, each with the words it sends, and those that remain (R298, R299). -/
def fillWindow (g : Nat) : List Frame → Nat → List (Frame × Nat) × List Frame
  | [], _ => ([], [])
  | f :: fs, room =>
    match pieceOf f.whole g room f.payload.length f.sent with
    | none => ([], f :: fs)
    | some n =>
      if f.sent + n < f.payload.length then ([(f, n)], { f with sent := f.sent + n } :: fs)
      else
        let (o, r) := fillWindow g fs (room - (n + 3 - b2n f.bare))
        ((f, n) :: o, r)

/-- The 64-bit word at an address, or a free value where no memory serves it (log entry). -/
def State.frameWord (s : State) (a : Nat) : State × Nat :=
  match s.fetchBytes a 8 with
  | some bs => (s, leNat bs)
  | none => (s.tookFree, s.fresh 64)

/-- `n` words of a frame's payload from memory. -/
def State.frameData (s : State) (a : Nat) : Nat → State × List Nat
  | 0 => (s, [])
  | n + 1 =>
    let (s, w) := s.frameWord a
    let (s, ws) := s.frameData (a + 8) n
    (s, w :: ws)

/-- The index of the current slot for a stream's ring (R301): free while Gnomon is not numbered. -/
def State.slotIndex (s : State) : State × Nat :=
  match s.slotBack 0 with
  | some (g, _) => (s, g.index)
  | none => (s.tookFree, s.fresh 12)

/-- The frames of the rear streams that leave on a link in this slot, in ascending stream number (R298, R301). -/
def State.streamFrames (s : State) (j : Fin 12) : State × List Frame :=
  if ¬ s.hasTimeline then (s, [])
  else (List.range 8).foldl (fun (a : State × List Frame) r =>
    let s := a.1
    let dev := s.get WOR_STRM_CFG.device r
    let words := s.rearWords r
    if ¬ s.bit WOR_STRM_CFG.enable r ∨ s.firstHop dev ≠ some j ∨ words.isEmpty then a
    else
      let (s, i) := s.slotIndex
      let base := 8 * s.get WOR_STRM_BASE_LO.addr r + 2 ^ 32 * s.get WOR_STRM_BASE_HI.addr r
      let addr := (base + i % (max 1 (s.get WOR_STRM_BASE_HI.slots r)) * 8 * words.length) % 2 ^ 40
      (s, a.2 ++ [{ origin := .stream r, type := 2, device := dev, source := s.ownAddress.getD 0, addr := addr,
                    payload := words }])) (s, [])

/-- The firmware frames that wait for a link, in submission order (R298, R300). -/
def State.firmwareFrames (s : State) (j : Fin 12) : State × List Frame :=
  (s.wor.frames.filter fun f => s.firstHop f.device = some j).foldl (fun (a : State × List Frame) f =>
    let (s, ws) := a.1.frameData (f.src + 8 * f.sent) (f.words - f.sent)
    (s, a.2 ++ [{ origin := .firmware f.tag, type := 1, device := f.device, source := s.ownAddress.getD 0, addr := f.dst,
                  payload := List.replicate f.sent 0 ++ ws, sent := f.sent }])) (s, [])

/-- Tags in use (R312). -/
def State.publishTx (s : State) : State := s.put WOR_TX_STATUS.queued s.wor.frames.length

/-- A fragment of a frame leaves: a firmware frame passes its commit point with its first one and is done with its last
one (R300). -/
def State.frameSent (s : State) (f : Frame) (n : Nat) : State :=
  match f.origin with
  | .firmware tag =>
    if f.sent + n < f.payload.length then
      s.updWor fun w => { w with frames := w.frames.map fun x =>
        if x.tag = tag then { x with sent := f.sent + n, started := true } else x }
    else
      let s := s.updWor fun w => { w with frames := w.frames.filter fun x => x.tag ≠ tag, txPast := w.txPast ||| 2 ^ tag }
      (s.setBit WOR_TX_DONE.tags tag true).publishTx
  | _ => s

/-- The frames of one bulk window go out. -/
def State.sendPieces (s : State) (j : Fin 12) (ps : List (Frame × Nat)) : State × List LinkWord :=
  ps.foldl (fun (a : State × List LinkWord) p =>
    let f := p.1
    let n := p.2
    let desc := (f.addr + 8 * f.sent) % 2 ^ 40
    let (s, ws) := a.1.putFrame j f.type (f.first && f.sent == 0) (f.last && decide (f.payload.length ≤ f.sent + n)) f.device
      f.source (if f.bare then [] else desc :: (f.payload.drop f.sent).take n)
    (s.frameSent f n, a.2 ++ ws)) (s, [])

/-- The SLOT marker of the current slot (R287): index and orbit are free while the slot is not numbered. -/
def State.slotWord (s : State) : State × Nat :=
  let rest := (b2n (s.gnoState = 4) <<< 21) + (s.get WOR_EPOCH.active <<< 22)
  match s.slotBack 0 with
  | some (g, _) => (s, 0x1E + (g.index <<< 8) + (1 <<< 20) + rest + ((g.orbit % 2 ^ 24) <<< 38))
  | none => (s.tookFree, 0x1E + (s.fresh 12 <<< 8) + rest + ((s.fresh 36 >>> 12) <<< 38))

/-- W of a link (R296): a beacon lane is one lane wide. -/
def State.slotWords (s : State) : LinkId → Nat
  | .data j => s.linkW j.val
  | .beacon n => s.get GNO_PERIOD_MIN.period_fs / (if s.bit WOR_BLN_CFG.rate n.val then 1280000 else 640000)

/-- Words filled up with IDLE words (R287, R291). -/
def fillIdle (n : Nat) (ws : List LinkWord) : List LinkWord := ws ++ List.replicate (n - ws.length) (true, 0)

/-- Words go out in order over the lanes of the link: link word i of data link j on lane 4j + (i mod w) (R286). -/
def State.sendWords (s : State) (l : LinkId) (ws : List LinkWord) : State :=
  match l with
  | .data j =>
    let k := (s.wlink l).turn
    let w := s.linkWidth j.val
    let lanes := ws.zipIdx.map fun e => (4 * j.val + (k + e.2) % w, e.1)
    let s : State := { s with sent := s.sent ++ [.link l.key lanes] }
    s.updLink l fun x => { x with turn := (k + ws.length) % w }
  | .beacon n => { s with sent := s.sent ++ [.link l.key (ws.map fun e => (n.val, e))] }

/-- The words of a data link's slot in MATCHING or SERVICE after its marker and IDENT (R296 to R301). -/
def State.slotBody (s : State) (j : Fin 12) (extra : Bool) : State × List LinkWord :=
  let l : LinkId := .data j
  let h := s.linkH j.val
  let halo : Bool := h != 0 && s.windowOk j.val && !s.wor.captured.isEmpty
  let (s, hw) := if halo then
      s.putFrame j 0 true true (s.get WOR_LINK_PEER.addr j.val) (s.ownAddress.getD 0)
        (haloPayload (s.get WOR_LINK_CFG.side j.val) s.wor.captured)
    else (s, [])
  let (s, streams) := s.streamFrames j
  let (s, firm) := s.firmwareFrames j
  let queue := inStreamOrder ((s.wlink l).streams ++ streams) ++ (s.wlink l).transit ++ firm
  let (out, rest) := fillWindow (s.linkG j.val) queue (s.linkW j.val + b2n extra - 2 - h)
  let (s, bw) := s.sendPieces j out
  (s.updLink l fun w => { w with transit := rest.filter (fun f => f.origin = .transit), streams := rest.filter Frame.ofStream },
    fillIdle h hw ++ bw)

/-- A link slot (R291, R296 to R301): `extra` says that it holds W + 1 words. -/
def State.linkSlot (s : State) (l : LinkId) (extra : Bool) : State :=
  let st := s.linkState l
  let n := s.slotWords l + b2n extra
  if st = 0 then s
  else if st = 1 then s.sendWords l (fillIdle n [])
  else
    let (s, mark) := s.slotWord
    let head : List LinkWord := [(true, mark), (true, s.identWord l)]
    match l with
    | .beacon _ => s.sendWords l (if st = 2 then fillIdle n head else head)
    | .data j =>
      if st = 2 then s.sendWords l (fillIdle n head)
      else
        let (s, body) := s.slotBody j extra
        s.sendWords l (fillIdle n (head ++ body))

/-! ### Firmware frames (R300) -/

/-- A write of 1 to WOR_TX_CMD.send (R300): the tag is one of those not in use. A refusal names the first-hop link (R313). -/
def State.txSend (s : State) : State :=
  let dev := s.get WOR_TX_DST_HI.device
  let free := (List.range 32).filter fun t => s.wor.frames.all fun f => f.tag ≠ t
  let link := s.firstHop dev
  let hop : Bool := link.any fun j => s.linkState (.data j) == 4 && s.bit WOR_LINK_STATUS.bulk_ok j.val
  if free.isEmpty ∨ ¬ hop then s.err WOR_ERR.tx_refused 0 ((link.map (·.val)).getD noInst)
  else
    let tag := free.getD (s.fresh 32 % free.length) 0
    let f : TxFrame := { tag := tag, src := 8 * s.get WOR_TX_SRC_LO.addr + 2 ^ 32 * s.get WOR_TX_SRC_HI.addr,
                         dst := s.get WOR_TX_DST_LO.addr + 2 ^ 32 * s.get WOR_TX_DST_HI.addr, device := dev,
                         words := s.get WOR_TX_LEN.words }
    let s := s.tookFree.updWor fun w =>
      { w with frames := w.frames ++ [f], txPast := if w.txPast.testBit tag then w.txPast - 2 ^ tag else w.txPast }
    (s.put WOR_TX_STATUS.tag tag).publishTx

/-- A write of 1 to WOR_TX_CMD.abort (R300). -/
def State.txAbort (s : State) (tag : Nat) : State :=
  match s.wor.frames.find? fun f => f.tag = tag with
  | some f =>
    if f.started then s.err WOR_ERR.abort_too_late
    else ((s.updWor fun w => { w with frames := w.frames.filter fun x => x.tag ≠ tag }).setBit WOR_TX_ABORTED.tags tag true).publishTx
  | none => if s.wor.txPast.testBit tag then s.err WOR_ERR.abort_too_late else s

/-- A write to WOR_TX_CMD: an abort first, a send last (R643). -/
def State.writeTxCmd (s : State) (m v : Nat) : State :=
  let s := if woField WOR_TX_CMD.abort m v = 1 then s.txAbort (woField WOR_TX_CMD.tag m v) else s
  if woField WOR_TX_CMD.send m v = 1 then s.txSend else s

/-- A write to a register of rear stream `r` (R301): refused, with the link whose streams exceed G (R313). -/
def State.writeStream (s : State) (r off m v : Nat) : State :=
  let t := s.wrReg 8 (0x100 + 0x10 * r + off) m v
  let words (k : Nat) : Nat := let x : RearMap := Sparse.get {} t.pri.work.rears k; mapWords x.count x.bits
  let heavy := (List.finRange 12).find? fun j =>
    let load := ((List.range 8).filter fun k => t.bit WOR_STRM_CFG.enable k && t.firstHop (t.get WOR_STRM_CFG.device k) = some j).foldl
      (fun n k => n + words k + 3) 0
    load != 0 && !decide (load + 2 + t.linkHalo j.val ≤ t.linkW j.val)
  match heavy with
  | none => t
  | some j => s.err WOR_ERR.stream_refused 0 j.val

/-! ### Receive (R288, R289, R294, R302) -/

/-- A frame that link `j` brought is discarded for want of a link or of room (R289, R302). -/
def State.rxDrop (s : State) (j : Nat) : State := (s.inc WOR_RX_DROP_CNT.count).err WOR_ERR.rx_drop 0 j

/-- Bytes of a link's receive buffer in use (R302). -/
def State.rxFill (s : State) (j : Nat) : Nat :=
  (s.wor.posted.filter fun p => p.link = j).foldl (fun n p => n + p.data.length) 0

/-- Bytes from an address on, cut at the 256-byte boundaries into at most `k` packets (R430, R432). -/
def blockCuts : Nat → Nat → List (BitVec 8) → List (Nat × List (BitVec 8))
  | 0, _, _ => []
  | k + 1, a, bs =>
    if bs.isEmpty then []
    else
      let n := 256 - a % 256
      (a, bs.take n) :: blockCuts k (a + n) (bs.drop n)

/-- The posted writes by which a frame of link `j` lands (R302, R432). -/
def postedWrites (j addr : Nat) (bs : List (BitVec 8)) : List Posted :=
  (blockCuts (bs.length / 256 + 2) addr bs).map fun e => { link := j, addr := e.1, data := e.2 }

/-- A bulk or stream frame for this device (R302). -/
def State.landFrame (s : State) (j : Fin 12) (addr : Nat) (payload : List Nat) : State :=
  let n := 8 * payload.length
  let base := s.get WOR_RX_WIN_LO.base * 65536 + s.get WOR_RX_WIN_HI.base * 2 ^ 32
  let size := s.get WOR_RX_WIN_HI.size * 65536
  if addr < base ∨ base + size < addr + n then (s.inc WOR_RX_WIN_CNT.count).err WOR_ERR.rx_window 0 j.val
  else if 65536 < s.rxFill j.val + n then s.rxDrop j.val
  else s.updWor fun w => { w with posted := w.posted ++ postedWrites j.val addr (payload.map (leBytes 8)).flatten }

/-- A halo plane goes to the store of a side, under the enabled entry with its address (R304, R305). -/
def State.storeHalo (s : State) (j side : Nat) (p : Nat × Nat) : State :=
  match s.whaloEntry p.1 with
  | some n =>
    let k := 8 * side + n
    let s := { s with arr := { s.arr with halo := Sparse.set 0 s.arr.halo k p.2 } }
    s.setBit ARR_WHALO_READY.ready k true
  | none => (s.inc WOR_HALO_NOMATCH_CNT.count j).err WOR_LINK_ERR.halo_nomatch j j

/-- A late halo frame (R305). -/
def State.haloLate (s : State) (j : Nat) : State := (s.inc WOR_HALO_LATE_CNT.count j).err WOR_LINK_ERR.halo_late j j

/-- The planes of a halo payload: address and bits (R304). -/
def haloPlanes (side : Nat) : Nat → List Nat → List (Nat × Nat)
  | 0, _ => []
  | _, [] => []
  | n + 1, d :: ws =>
    let k := haloWords side
    if ws.length < k then []
    else (d % 4096, leNat (((ws.take k).map (leBytes 8)).flatten)) :: haloPlanes side n (ws.drop k)

/-- How far the slot with index `x` lies from the current one, the nearest of its repetitions (R305). -/
def State.indexAhead (s : State) (x : Nat) : Option Int :=
  match s.slotBack 0 with
  | none => none
  | some (g, _) =>
    let len : Nat := (s.gno.segs.head?.map (·.length)).getD 1
    let d := (x + len - g.index % len) % len
    some (if 2 * d < len then (d : Int) else (d : Int) - len)

/-- The halo delay in force (R305). -/
def State.haloDelay (s : State) : Nat := s.wor.oldDelay.getD (s.get WOR_HALO_DELAY.slots)

/-- A good halo frame on a link in SERVICE (R304, R305). -/
def State.haloFrame (s : State) (j : Fin 12) (payload : List Nat) : State :=
  let side := s.get WOR_LINK_CFG.side j.val
  if s.linkState (.data j) ≠ 4 ∨ 4 ≤ side then s
  else
    let d := s.haloDelay
    let planes := haloPlanes side 8 payload
    let ahead := (s.wlink (.data j)).marker.bind s.indexAhead
    match ahead with
    | none => s.haloLate j.val
    | some a =>
      if d = 0 then (if a = 0 then planes.foldl (fun s p => s.storeHalo j.val side p) s else s.haloLate j.val)
      else if a + d ≤ 0 then s.haloLate j.val
      else
        let serves := (s.slotSerial + (a + d).toNat) % 2 ^ 64
        s.updWor fun w => { w with held := w.held ++ [{ link := j.val, side := side, serves := serves, planes := planes }] }

/-- A frame for another device goes toward it (R289). `room`: the transit buffer of its link has room. -/
def State.forwardFrame (s : State) (j : Fin 12) (sof : Nat) (payload : List Nat) (room : Bool) : State :=
  match s.firstHop (bits sof 12 18) with
  | none => s.rxDrop j.val
  | some k =>
    if s.linkState (.data k) ≠ 4 ∨ ¬ room then s.rxDrop j.val
    else s.updLink (.data k) fun w => { w with transit := w.transit ++ [
      { type := bits sof 8 2, device := bits sof 12 18, source := bits sof 30 18, addr := payload.headD 0 % 2 ^ 40,
        payload := payload.tail, first := sof.testBit 10, last := sof.testBit 11, bare := payload.isEmpty }] }

/-- A frame with good CRC and payload count (R289, R294): one for this device is used or lands, any other is forwarded. Halo
frames are taken in SERVICE only. -/
def State.goodFrame (s : State) (j : Fin 12) (sof : Nat) (payload : List Nat) (room : Bool) : State :=
  let type := bits sof 8 2
  if type = 3 ∨ s.linkState (.data j) < (if type = 0 then 4 else 3) then s
  else if s.ownAddress ≠ some (bits sof 12 18) then s.forwardFrame j sof payload room
  else if type = 0 then s.haloFrame j payload
  else match payload with
    | [] => s
    | d :: ws => s.landFrame j (d % 2 ^ 40) ws

/-- A frame whose CRC or payload count fails (R288). -/
def State.badFrame (s : State) (j : Fin 12) : State := (s.inc WOR_LINK_CRC_CNT.count j.val).linkErr (.data j) .crc

/-- A received link word other than SLOT and IDENT (R287, R288). -/
def State.frameWordIn (s : State) (j : Fin 12) (room : Bool) (w : LinkWord) : State :=
  let l : LinkId := .data j
  let x := s.wlink l
  if s.linkState l < 3 then s
  else if w.1 then
    match w.2 % 256 with
    | 0x2D =>
      let s := if x.rx.isSome then s.badFrame j else s
      s.updLink l fun x => { x with rx := some (w.2, []) }
    | 0x33 =>
      let s := s.updLink l fun x => { x with rx := none }
      match x.rx with
      | none => s
      | some (sof, back) =>
        let payload := back.reverse
        if bits w.2 8 11 = payload.length ∧ bits w.2 32 32 = frameCrc sof payload w.2 then s.goodFrame j sof payload room
        else s.badFrame j
    | 0x00 | 0x1E | 0x66 | 0x4B => s
    | _ => s.badControl l
  else match x.rx with
    | none => s.err WOR_LINK_ERR.stray j.val j.val
    | some (sof, back) => s.updLink l fun x => { x with rx := some (sof, w.2 :: back) }

/-- The link words whose lanes have all delivered up to them are taken in their order, at most `k` of them (R286). -/
def State.linkDeliver (j : Fin 12) (room : Bool) : Nat → State → State
  | 0, s => s
  | k + 1, s =>
    let x := s.wlink (.data j)
    match Sparse.get [] x.waits x.rxTurn with
    | [] => s
    | w :: ws =>
      let s := s.updLink (.data j) fun y =>
        { y with waits := Sparse.set [] y.waits x.rxTurn ws, rxTurn := (x.rxTurn + 1) % s.linkWidth j.val }
      State.linkDeliver j room k (s.frameWordIn j room w)

/-- A word arrives on lane `k` of a data link's group (R286); a link that is DOWN or TRAINING uses nothing (R291). -/
def State.laneWordIn (s : State) (j : Fin 12) (room : Bool) (k : Nat) (w : LinkWord) : State :=
  if s.linkState (.data j) < 2 ∨ s.linkWidth j.val ≤ k then s
  else
    let s := s.updLink (.data j) fun x => { x with waits := Sparse.upd [] x.waits k fun ws => ws ++ [w] }
    State.linkDeliver j room ((s.wlink (.data j)).waits.map fun e => e.2.length).sum s

/-- Words arrive on the lanes of a data link. -/
def State.frameIn (s : State) (j : Fin 12) (ws : List (Nat × LinkWord)) (room : Bool) : State :=
  ws.foldl (fun s w => s.laneWordIn j room w.1 w.2) s

/-! ### The barrier (R303, R305) -/

/-- A write to WOR_HALO_DELAY waits for the next slot barrier (R305). -/
def State.writeHaloDelay (s : State) (m v : Nat) : State :=
  let old := s.haloDelay
  let t := s.wrReg 8 0x18 m v
  t.updWor fun w => { w with oldDelay := some old }

/-- At the token: a new halo delay discards the held planes, the planes held for the opening slot are written and their
ready bits set, and the edge bits are captured (R303, R305). -/
def State.worgaAtBarrier (s : State) : State :=
  let s := if s.wor.oldDelay.isSome then
      let held := s.wor.held
      let s := s.updWor fun w => { w with oldDelay := none, held := [] }
      (held.foldl (fun s h => s.haloLate h.link) s).publishLinks
    else s
  let cur := s.slotSerial
  let now := s.wor.held.filter fun h => s.hasTimeline && h.serves == cur
  let s := s.updWor fun w => { w with held := w.held.filter fun h => !(s.hasTimeline && h.serves == cur) }
  let s := now.foldl (fun s h => h.planes.foldl (fun s p => s.storeHalo h.link h.side p) s) s
  s.haloCapture

/-- The timeline ends: no slot will be served by the planes held. -/
def State.worgaTimelineLost (s : State) : State :=
  let held := s.wor.held
  let s := s.updWor fun w => { w with held := [] }
  held.foldl (fun s h => s.haloLate h.link) s

end Sys2Proof.Machine
end

