-- ==== Sys2Proof/Machine/WorgaTree.lean ====
section
/-! DEFINITION. Worga: the system epoch (R295) and the combining tree (R307 to R311), and the writes to the WOR page. -/

namespace Sys2Proof.Machine

/-! ### System epoch (R295) -/

/-- A write of 1 to WOR_CMD.epoch_apply (R295). -/
def State.epochApply (s : State) : State :=
  let (named, orbit, index) := s.whenOf WOR_EPOCH_WHEN_LO.orbit WOR_EPOCH_WHEN_HI.orbit WOR_EPOCH_WHEN_HI.index
    WOR_EPOCH_WHEN_HI.named
  match s.arm .epoch named orbit index with
  | none => s.err WOR_ERR.epoch_refused
  | some s => s.updWor fun w => { w with epochFired := false }

/-- The apply of the system epoch is armed and its barrier is still to come. -/
def State.epochArmed (s : State) : Bool :=
  s.gno.named.any (fun n => n.owner = .epoch) || s.gno.unnamed.any fun n => n.owner = .epoch

/-- A write of 1 to WOR_CMD.epoch_abort (R295). -/
def State.epochAbort (s : State) : State :=
  if s.epochArmed then (s.disarm .epoch).err WOR_ERR.aborted
  else if s.wor.epochFired ∨ s.gno.due.contains .epoch then s.err WOR_ERR.abort_too_late
  else s

/-- A write to WOR_CMD: an abort first, an apply last (R643). -/
def State.writeWorCmd (s : State) (m v : Nat) : State :=
  let s := if woField WOR_CMD.epoch_abort m v = 1 then s.epochAbort else s
  if woField WOR_CMD.epoch_apply m v = 1 then s.epochApply else s

/-- The barrier of the apply (R295). -/
def State.epochFire (s : State) : State :=
  if ¬ s.isDue .epoch then s
  else ((s.tookDue .epoch).updWor fun w => { w with epochFired := true }).put WOR_EPOCH.active (s.get WOR_EPOCH.pending)

/-- The apply is cancelled (R34, R295). -/
def State.epochCancelled (s : State) : State := s.err WOR_ERR.epoch_cancelled

/-! ### The tree (R307) -/

/-- The child lanes (R307). -/
def State.childLanes (s : State) : List (Fin 48) :=
  let m := s.get WOR_BCN_CHILD_LO.lanes + 2 ^ 32 * s.get WOR_BCN_CHILD_HI.lanes
  (List.finRange 48).filter fun n => m.testBit n.val

/-- A configuration that R307 accepts. -/
def State.treeOk (s : State) : Bool :=
  let ch := s.childLanes
  let root := s.bit WOR_BCN_CTRL.root
  decide (ch.length ≤ 8) && (root || ch.all fun n => n.val != s.get WOR_BCN_CTRL.parent) &&
    (!root || s.get WOR_BCN_CTRL.level == 0)

/-- A write to WOR_BCN_CTRL, WOR_BCN_CHILD_LO or WOR_BCN_CHILD_HI (R307). -/
def State.writeTree (s : State) (off m v : Nat) : State :=
  let t := s.wrReg 8 off m v
  if t.treeOk then t else s.err WOR_ERR.bcn_cfg_refused

/-- A write to WOR_BCN_WAIT (R309). -/
def State.writeTreeWait (s : State) (m v : Nat) : State :=
  let t := s.wrReg 8 0x30 m v
  t.put WOR_BCN_WAIT.ns (min (t.get WOR_BCN_WAIT.ns) (8 * t.get GNO_ORBIT_LEN.length * t.get GNO_PERIOD_MIN.period_fs / 1000000))

/-! ### Cells (R308) -/

/-- Word 0 of a cell but for its code and direction. -/
def Cell.head (c : Cell) : Nat :=
  (b2n c.or <<< 9) + (b2n c.full <<< 10) + (b2n c.none <<< 11) + (b2n c.part <<< 12) + (c.key.index <<< 13) +
    (c.key.orbit <<< 25) + (c.key.uaddr <<< 29) + (c.devices <<< 43)

/-- The three words of a cell, direction 0 up and 1 down (R308). -/
def Cell.words (c : Cell) (dir : Nat) : List Nat :=
  let w0 := 0x4B + (dir <<< 8) + c.head
  let w1 := if c.full then c.count + (c.p <<< 36) + ((c.dev % 2 ^ 11) <<< 53) else 0
  let w2 := if c.full then c.dev >>> 11 else 0
  [w0, w1, w2 + (crc16 (leBytes 8 w0 ++ leBytes 8 w1 ++ leBytes 6 w2) <<< 48)]

/-- The cell that three words spell, with its direction; none where the CRC fails (R308). -/
def cellOf (w0 w1 w2 : Nat) : Option (Nat × Cell) :=
  if w0 % 256 ≠ 0x4B ∨ bits w2 48 16 ≠ crc16 (leBytes 8 w0 ++ leBytes 8 w1 ++ leBytes 6 w2) then none
  else
    let full := w0.testBit 10
    some (bit1 w0 8,
      { or := w0.testBit 9, full := full, none := w0.testBit 11, part := w0.testBit 12,
        key := { index := bits w0 13 12, orbit := bits w0 25 4, uaddr := bits w0 29 14 }, devices := bits w0 43 19,
        count := if full then bits w1 0 36 else 0, p := if full then bits w1 36 17 else 0,
        dev := if full then bits w1 53 11 + 2 ^ 11 * bits w2 0 7 else 0 })

/-- The node discards an input (R309). -/
def State.treeDrop (s : State) : State := s.inc WOR_BCN_DROP_CNT.count
def State.treeLate (s : State) : State := s.inc WOR_BCN_LATE_CNT.count

/-- Finds the key of an input, opening it where it is new (R309): the flag says that the input has been discarded. -/
def State.openTreeKey (s : State) (k : TreeKey) : State × Bool :=
  if s.wor.keys.any fun o => o.key = k then (s, true)
  else if s.wor.closed.any fun c => c.1 = k then (s.treeLate, false)
  else if 16 ≤ s.wor.keys.length then (s.treeDrop, false)
  else (s.updWor fun w => { w with keys := w.keys ++ [{ key := k, openedAt := s.now }] }, true)

/-- Changes an open key. -/
def State.updKey (s : State) (k : TreeKey) (f : OpenKey → OpenKey) : State :=
  s.updWor fun w => { w with keys := w.keys.map fun o => if o.key = k then f o else o }

/-- The key of an own result (R309): index and orbit of its crossing, free where the crossing has none. -/
def State.ownKey (s : State) (serial addr : Nat) : State × TreeKey :=
  match s.gno.tags.find? fun g => g.serial == serial && g.numbered with
  | some g => (s, { index := g.index, orbit := g.orbit % 16, uaddr := addr })
  | none => (s.tookFree, { index := s.fresh 12, orbit := (s.fresh 16) >>> 12, uaddr := addr })

/-- The engine takes its own result from the queue of R265 (R309). -/
def State.ownResult (s : State) (t : Nat) : State :=
  match s.seq.toWorga with
  | [] => s
  | r :: rest =>
    let s := (s.at t).updSeq fun q => { q with toWorga := rest }
    match r.serial with
    | none => s.treeDrop
    | some c =>
      if ¬ s.bit WOR_BCN_CTRL.enable then s.treeDrop
      else
        let (s, k) := s.ownKey c r.addr
        let (s, open_) := s.openTreeKey k
        if ¬ open_ then s
        else
          let cell : Cell := { or := r.or, full := r.full, none := !r.or, part := false, key := k, devices := 1,
                               count := if r.full then r.count else 0, p := if r.full then r.first.getD 0 else 0,
                               dev := if r.full ∧ r.or then s.ownAddress.getD 0 else 0 }
          s.updKey k fun o => { o with own := some cell }

/-- The child lanes in SERVICE (R309). -/
def State.childrenUp (s : State) : List (Fin 48) := s.childLanes.filter fun n => s.linkState (.beacon n) = 4

/-- An up cell of a child (R309). -/
def State.childCell (s : State) (n : Fin 48) (c : Cell) (t : Nat) : State :=
  if ¬ s.bit WOR_BCN_CTRL.enable then s
  else
    let (s, open_) := (s.at t).openTreeKey c.key
    if ¬ open_ then s
    else s.updKey c.key fun o => { o with children := (o.children.filter fun x => x.1 ≠ n.val) ++ [(n.val, c)] }

/-- Delivery of a system result (R311). -/
def State.deliver (s : State) (c : Cell) : State :=
  let flags := b2n c.or + 2 * b2n c.full + 4 * b2n c.none + 8 * b2n c.part
  let s := ((s.put WOR_SYS_RESULT.flags flags).put WOR_SYS_RESULT.index c.key.index).put WOR_SYS_RESULT.uaddr c.key.uaddr
  (s.updWor fun w => { w with sys := c, sysOut := w.sysOut ++ [c] }).inc WOR_SYS_CNT.count

/-- A cell goes out on a lane. -/
def State.sendCell (s : State) (n : Fin 48) (c : Cell) (dir : Nat) : State :=
  { s with sent := s.sent ++ [.cell n.val (c.words dir)] }

/-- The cell goes up on the parent lane, which sends cells in MATCHING and SERVICE (R291, R310). -/
def State.sendUp (s : State) (n : Fin 48) (c : Cell) : State :=
  if 3 ≤ s.linkState (.beacon n) then s.sendCell n c 0 else s

/-- The cell goes down on every child lane in SERVICE (R310, R311). -/
def State.sendDown (s : State) (c : Cell) : State := s.childrenUp.foldl (fun s n => s.sendCell n c 1) s

/-- Combines the inputs that arrived (R310); `absent`: an expected input did not arrive. -/
def combine (k : TreeKey) (ins : List Cell) (absent : Bool) : Cell :=
  let full := ins.all (·.full)
  let resp := ins.filter fun c => !c.none
  let best := resp.foldl (fun (b : Option Cell) c => match b with
    | some x => if c.dev < x.dev then some c else b
    | none => some c) none
  { or := ins.any (·.or), full := full, none := resp.isEmpty, part := absent || ins.any (·.part), key := k,
    devices := (ins.foldl (fun n c => n + c.devices) 0) % 2 ^ 19,
    count := if full then (ins.foldl (fun n c => n + c.count) 0) % 2 ^ 36 else 0,
    p := if full then (best.map (·.p)).getD 0 else 0, dev := if full then (best.map (·.dev)).getD 0 else 0 }

/-- Every expected input of a key has arrived (R309). -/
def State.keyComplete (s : State) (o : OpenKey) : Bool :=
  o.own.isSome && s.childrenUp.all fun n => o.children.any fun x => x.1 = n.val

/-- An open key closes at instant `t` (R309, R310): complete, unless fixed, or at its deadline. -/
def State.closeKey (s : State) (i t : Nat) : State :=
  match s.wor.keys[i]? with
  | none => s
  | some o =>
    let s := s.at t
    let due : Bool := decide (o.openedAt + s.get WOR_BCN_WAIT.ns * 1000000 ≤ s.now)
    let full := s.keyComplete o
    if ¬ due ∧ (s.bit WOR_BCN_CTRL.fixed ∨ ¬ full) then s
    else
      let c := combine o.key (o.own.toList ++ o.children.map (·.2)) !full
      let last := s.lastSerial
      let keep := 8 * (s.gno.segs.head?.map (·.length)).getD 4096
      let s := s.updWor fun w =>
        { w with keys := w.keys.filter fun x => x.key ≠ o.key,
                 closed := (o.key, last) :: w.closed.filter fun x => serialAge x.2 last < keep && decide (x.1 ≠ o.key) }
      if s.bit WOR_BCN_CTRL.root then (s.deliver c).sendDown c
      else
        let n := s.get WOR_BCN_CTRL.parent
        if h : n < 48 then s.sendUp ⟨n, h⟩ c else s

/-- The lane is the device's parent lane (R307). -/
def State.isParent (s : State) (n : Fin 48) : Bool := s.laneRole n.val = 1

/-- A beacon cell arrives on a lane at instant `t` (R294, R308, R309, R311). -/
def State.cellIn (s : State) (n : Fin 48) (w0 w1 w2 t : Nat) : State :=
  if s.linkState (.beacon n) ≠ 4 then s
  else if ¬ controlCodes.contains (w0 % 256) then s.badControl (.beacon n)
  else match cellOf w0 w1 w2 with
  | none => (s.inc WOR_BLN_CRC_CNT.count n.val).linkErr (.beacon n) .crc
  | some (dir, c) =>
    let s := s.inc WOR_BLN_CELL_CNT.count n.val
    let parent := s.isParent n
    let child := s.childLanes.contains n
    if dir = 0 then
      if parent then s.linkErr (.beacon n) .badCtl
      else if child then s.childCell n c t
      else s
    else if child then s.linkErr (.beacon n) .badCtl
    else if parent then ((s.at t).deliver c).sendDown c
    else s

/-- A read of WOR_SYS_RESULT copies the rest of the result into the holding registers (R36, R311). -/
def State.latchSys (s : State) : State :=
  let c := s.wor.sys
  let s := (s.put WOR_SYS_COUNT_LO.count (c.count % 2 ^ 32)).put WOR_SYS_COUNT_HI.count (c.count / 2 ^ 32)
  ((s.put WOR_SYS_FIRST.p c.p).put WOR_SYS_FIRST_DEV.addr c.dev).put WOR_SYS_DEVICES.count c.devices

/-- A write to a register of the WOR page (R312, R313). -/
def State.writeWor (s : State) (off m v : Nat) : State :=
  match off with
  | 0x00 => s.writeWorAddr m v
  | 0x14 => s.writeWorCmd m v
  | 0x18 => s.writeHaloDelay m v
  | 0x24 | 0x28 | 0x2C => s.writeTree off m v
  | 0x30 => s.writeTreeWait m v
  | 0x94 => s.writeTxCmd m v
  | _ =>
    if 0x100 ≤ off ∧ off < 0x180 then s.writeStream ((off - 0x100) / 16) (off % 16) m v
    else if h : 0x400 ≤ off ∧ off < 0x700 then
      if off % 64 = 0 then s.writeLinkCfg (.data ⟨(off - 0x400) / 64, by omega⟩) m v else s.wrReg 8 off m v
    else if h : 0x800 ≤ off ∧ off < 0xE00 then
      if off % 32 = 0 then s.writeLinkCfg (.beacon ⟨(off - 0x800) / 32, by omega⟩) m v else s.wrReg 8 off m v
    else s.wrReg 8 off m v

end Sys2Proof.Machine
end

