-- ==== Sys2Proof/Machine/Readout.lean ====
section
/-! DEFINITION. The readout engine: what it keeps, windows, the event body and the readout promise (R325 to R333, R340 to
R345). -/

namespace Sys2Proof.Machine

/-- Changes the readout engine's internal state. -/
def State.updRdo (s : State) (f : Rdo → Rdo) : State := { s with rdo := f s.rdo }

/-! ### The promise (R341 to R343) -/

/-- The configuration that the registers hold, the pending copy (R344). -/
def State.rdoPending (s : State) : RdoCfg where
  enable := s.bit RDO_CTRL.enable
  keep := s.bit RDO_CTRL.keep
  hold := s.get RDO_CTRL.hold
  reserve := s.get RDO_CTRL.reserve
  pre := s.get RDO_WINDOW.pre
  post := s.get RDO_WINDOW.post
  mode := s.get RDO_ZS.mode
  min := s.get RDO_ZS.min
  rows := s.get RDO_ROI.rows
  cols := s.get RDO_ROI.cols
  uaddr := s.get RDO_ROI.uaddr
  promise := s.get RDO_PROMISE.us
  gbps := s.get RDO_FETCH.gbps
  lat := s.get RDO_FETCH.lat_ns
  mtu := s.get RDO_MTU.bytes
  base := s.get RDO_EVBUF_LO.base * 2 ^ 20 + s.get RDO_EVBUF_HI.base * 2 ^ 32
  size := s.get RDO_EVBUF_HI.size * 2 ^ 20

/-- The ports READY, in ascending order (R338). -/
def State.readyPorts (s : State) : List Nat := (List.range 16).filter fun k => s.get RDO_PORT_STATUS.state k == 3

/-- Body bytes per frame (R336). -/
def RdoCfg.chunk (c : RdoCfg) : Nat := 8 * ((c.mtu - 84) / 8)

/-- W crossings of the window (R328). -/
def RdoCfg.window (c : RdoCfg) : Nat := c.pre + c.post + 1

/-- τ(x) in fs with n ports, rounded up (R341); none where no bound exists. -/
def RdoCfg.tau (c : RdoCfg) (n x : Nat) : Option Nat :=
  if n = 0 ∨ c.gbps = 0 then none
  else
    let wire := x + 122 * ceilDiv x c.chunk
    some (max 500000000 (max (ceilDiv (wire * 1000000000) (12375 * n)) (ceilDiv (x * 1000000) c.gbps)))

/-- D_fix in fs (R341). -/
def RdoCfg.fixed (c : RdoCfg) : Nat := c.lat * 1000000 + 2000000000

/-- D of the pipeline in force (R319). -/
def State.storedBytes (s : State) : Nat := pipeBytes s.pipeWord

/-- The worst-case body of a window (R333). -/
def State.charge (s : State) (c : RdoCfg) : Nat := 16 + c.window * (200 + s.storedBytes)

/-- RDO_THRESH in fs, none where it is at or below 0 (R343). -/
def State.threshold (s : State) : Option Nat :=
  let c := s.rdo.work
  match c.tau s.readyPorts.length (s.charge c) with
  | none => none
  | some t =>
    let p := c.promise * 1000000000
    let d := c.fixed + (1 + c.reserve) * t
    if p ≤ d then none else some (p - d)

/-- The backlog in fs (R343). -/
def State.backlog (s : State) : Nat := s.rdo.phi - s.now

/-- The engine signals throttle (R343). -/
def State.throttle (s : State) : Bool :=
  match s.threshold with
  | none => true
  | some t => t < s.backlog

/-- Publishes the estimate's registers; times in ns round up for RDO_TAU and down otherwise. -/
def State.publishRdo (s : State) : State :=
  let c := s.rdo.work
  let n := s.readyPorts.length
  let s := s.put RDO_STATUS.ports_ready n
  let s := s.put RDO_TAU.ns (match c.tau n (s.charge c) with
    | some t => min 0xFFFF (ceilDiv t 1000000)
    | none => 0xFFFF)
  let s := s.put RDO_THRESH.ns ((s.threshold.getD 0) / 1000000)
  let s := s.put RDO_BACKLOG.ns (min 0xFFFFF (s.backlog / 1000000))
  let s := s.put RDO_STATUS.throttle (b2n s.throttle)
  s.put RDO_STATUS.queued (s.rdo.events.filter fun e => e.skip = 0).length

/-! ### Configuration (R344) -/

/-- The first failing code of the checks of R344, with `n` ports enabled; 0 when every check passes. -/
def State.rdoCheck (s : State) (c : RdoCfg) : Nat :=
  let n := (List.range 16).countP fun k => s.bit RDO_PORT_CFG.enable k
  let pmin := s.get GNO_PERIOD_MIN.period_fs
  let pmax := s.get GNO_PERIOD_MAX.period_fs
  let promise := c.promise * 1000000000
  let late : Bool := match c.tau n (s.charge c) with
    | none => true
    | some t => decide (promise < c.fixed + max (1000000000 + (c.post + c.hold + 1) * pmax + t) ((1 + c.reserve) * t))
  if 61424 * pmin < promise then 1
  else if late then 2
  else if s.get HBM_SHARE.share < c.gbps * (1 + b2n c.keep) * 10 + 200 then 3
  else if 15 < c.pre + c.post then 4
  else if c.mtu < 1500 ∨ 9000 < c.mtu then 5
  else if c.mode = 3 ∨ c.min = 0 then 6
  else if c.gbps < 1 ∨ 200 < c.gbps then 7
  else if c.keep ∧ (c.size = 0 ∨ c.base < 0x80100000 ∨ 0x400000000 < c.base + c.size) then 8
  else 0

/-- A write to a register of the pending copy (R344). -/
def State.writeRdoCfg (s : State) (off m v : Nat) : State := (s.wrReg 10 off m v).put RDO_STATUS.cfg_pending 1

/-- A write of 1 to RDO_CMD.apply (R344). -/
def State.rdoApply (s : State) : State :=
  let c := s.rdoPending
  let code := s.rdoCheck c
  if code ≠ 0 then (s.put RDO_CFG_ERR.code code).err RDO_ERR.cfg_refused
  else ((s.updRdo fun r => { r with armed := some c }).put RDO_CFG_ERR.code 0).put RDO_STATUS.cfg_pending 0

/-- The check of the working configuration is repeated (R344). -/
def State.rdoRecheck (s : State) : State :=
  if s.rdoCheck s.rdo.work = 0 then s.put RDO_STATUS.cfg_ok 1
  else (s.put RDO_STATUS.cfg_ok 0).err RDO_ERR.cfg_fail

/-- Entry of Gnomon to UNNUMBERED: the pipeline's and the readout's checks (R319, R344). -/
def State.readoutPeriods (s : State) : State := s.pipePeriods.rdoRecheck.publishRdo

/-- The slot barrier: a passed configuration comes into force (R344), and an accepted pipeline configuration with the check
that follows it (R319). -/
def State.readoutAtBarrier (s : State) : State :=
  let (s, pipe) := s.pipeAtBarrier
  let s := match s.rdo.armed with
    | some c => (s.updRdo fun r => { r with work := c, armed := none }).put RDO_STATUS.cfg_ok 1
    | none => s
  let s := if pipe then s.rdoRecheck else s
  s.publishRdo

/-! ### What the engine keeps (R325, R327) -/

/-- Kept records of the last 4,096 crossings (R327). -/
def State.pruneKept (s : State) : State :=
  let last := s.lastSerial
  s.updRdo fun r => { r with kept := r.kept.keep fun c => serialAge c last < 4096 }

/-- What is kept of a crossing. -/
def State.keptOf (s : State) (serial : Nat) : Kept := Sparse.get {} s.rdo.kept serial

/-- Changes what is kept of a crossing. -/
def State.updKept (s : State) (serial : Nat) (f : Kept → Kept) : State :=
  (s.updRdo fun r => { r with kept := Sparse.upd {} r.kept serial f }).pruneKept

/-- A release record arrives (R276, R325, R327): it is kept, also with the events of its crossing, and an internal accept
passes to Gnomon. It counts from its release instant on. -/
def State.takeRecord (s : State) : State :=
  match s.seq.records with
  | [] => s
  | r :: rest =>
    let s := (s.updSeq fun q => { q with records := rest }).updKept r.serial fun k => { k with release := some r }
    let s := s.updRdo fun x => { x with events := x.events.map fun e => if e.serial = r.serial then { e with release := some r } else e }
    if r.set &&& s.get RDO_ACCEPT.outputs &&& r.values = 0 then s
    else s.updGno fun g => { g with accepts := g.accepts ++ [(r.serial, r.instant)] }

/-- An entry that is dropped (R327). -/
def State.beaconDrop (s : State) : State := s.inc RDO_BCN_DROP_CNT.count

/-- An entry for a crossing whose gather has begun is counted (R327). -/
def State.countLate (s : State) (serial : Nat) : State :=
  if (s.keptOf serial).gathered then s.inc RDO_BCN_LATE_CNT.count else s

/-- The engine takes the oldest Beacon entry routed to it (R265, R327). -/
def State.takeBeacon (s : State) : State :=
  match s.seq.toReadout with
  | [] => s
  | x :: rest =>
    let s := s.updSeq fun q => { q with toReadout := rest }
    match x.serial with
    | none => s.beaconDrop
    | some c =>
      if 4 ≤ (s.keptOf c).beacons.length then s.beaconDrop
      else (s.countLate c).updKept c fun k => { k with beacons := k.beacons ++ [x] }

/-- The engine takes the oldest system result (R311, R327). -/
def State.takeSystem (s : State) : State :=
  match s.wor.sysOut with
  | [] => s
  | x :: rest =>
    let s := s.updWor fun w => { w with sysOut := rest }
    match s.gno.tags.find? fun g => g.numbered && g.index == x.key.index && g.orbit % 16 == x.key.orbit with
    | none => s
    | some g =>
      if 2 ≤ (s.keptOf g.serial).systems.length then s.beaconDrop
      else (s.countLate g.serial).updKept g.serial fun k => { k with systems := k.systems ++ [x] }

/-! ### Taking an event (R326, R328, R342) -/

/-- The entry instant of a crossing in fs, once it has entered: that of the slot reference edge at which it entered (R18, R328). -/
def State.entered (s : State) (serial : Nat) : Option Nat :=
  (s.gno.tags.find? fun g => g.serial == (serial + s.pri.work.lin) % 2 ^ 64).map (·.edge)

/-- The entry instant of a crossing in fs: the one it had, or the instant at which its edge is due by the latest slot period. -/
def State.entryInstant (s : State) (serial : Nat) : Nat :=
  (s.entered serial).getD (s.seq.edgeAt + serialAge s.lastSerial ((serial + s.pri.work.lin) % 2 ^ 64) * s.slotPeriod)

/-- The earliest instant of the ready barrier of a window whose last crossing enters at `t` (R328). -/
def State.readyFrom (s : State) (c : RdoCfg) (t : Nat) : Nat := t + 1000000000 + c.hold * s.get GNO_PERIOD_MAX.period_fs

/-- The last crossing of an event's window. -/
def Event.lastCrossing (e : Event) : Nat := (e.serial + e.cfg.post) % 2 ^ 64

/-- Events whose window's last crossing has entered keep its entry instant (R328). -/
def State.eventsEnter (s : State) : State :=
  s.updRdo fun r => { r with events := r.events.map fun e => { e with enterAt := e.enterAt.or (s.entered e.lastCrossing) } }

/-- The event has its ready instant at the standing barrier or had it before (R328). -/
def State.isReady (s : State) (e : Event) : Bool :=
  match e.enterAt with
  | some t => decide (serialAge e.lastCrossing s.slotSerial < 2 ^ 63 ∧ s.readyFrom e.cfg t ≤ s.now)
  | none => false

/-- The ready instant used in the finish estimate: the first slot boundary not before the earliest instant, on the grid of
the standing barrier and the slot period, before the take or after it (R342). -/
def State.readyEstimate (s : State) (c : RdoCfg) (serial : Nat) : Nat :=
  let lo := s.readyFrom c (s.entryInstant ((serial + c.post) % 2 ^ 64))
  if lo ≤ s.now then s.now - (s.now - lo) / max 1 s.slotPeriod * s.slotPeriod
  else s.now + ceilDiv (lo - s.now) (max 1 s.slotPeriod) * s.slotPeriod

/-- A skipped event is counted and shown (R342). -/
def State.skipEvent (s : State) (reason : Nat) : State :=
  ((s.inc RDO_SKIP_CNT.count).put RDO_LAST_SKIP.reason reason).err RDO_ERR.skip

/-- The skip reason at the take and the new finish estimate (R342). -/
def State.takeCheck (s : State) (serial : Nat) : Nat × Nat :=
  let c := s.rdo.work
  let n := s.readyPorts.length
  if ¬ c.enable then (3, s.rdo.phi)
  else if ¬ s.bit RDO_STATUS.cfg_ok then (5, s.rdo.phi)
  else match c.tau n (s.charge c) with
    | none => (2, s.rdo.phi)
    | some t =>
      if 4096 ≤ (s.rdo.events.filter fun e => e.skip = 0).length then (4, s.rdo.phi)
      else
        let phi := max s.rdo.phi (s.readyEstimate c serial) + t
        if phi + c.fixed ≤ s.now + c.promise * 1000000000 then (0, phi) else (1, s.rdo.phi)

/-- The engine receives what Gnomon takes for a crossing (R326): a new event, or a further source of one. -/
def State.eventTaken (s : State) (g : Tag) (new : Bool) : State :=
  let number := g.event.getD 0
  if new then
    let s := s.inc RDO_EVT_CNT.count
    let (skip, phi) := s.takeCheck g.serial
    let e : Event := { number := number, serial := g.serial, orbit := g.orbit, index := g.index, holdover := g.holdover,
                       sources := g.sources, cfg := s.rdo.work, takenAt := s.now, charge := s.charge s.rdo.work, skip := skip }
    let s := (s.updRdo fun r => { r with events := r.events ++ [e], phi := phi }).eventsEnter
    (if skip = 0 then s else s.skipEvent skip).publishRdo
  else if s.rdo.events.any fun e => e.number = number ∧ e.serial = g.serial ∧ e.phase = .queued then
    s.updRdo fun r => { r with events := r.events.map fun e =>
      if e.number = number ∧ e.serial = g.serial then { e with sources := g.sources } else e }
  else (s.inc RDO_SRC_LATE_CNT.count).err RDO_ERR.src_late

/-! ### Gather (R328 to R333) -/

/-- Changes the first event that satisfies `p`. -/
def updFirst (p : Event → Bool) (f : Event → Event) : List Event → List Event
  | [] => []
  | e :: es => if p e then f e :: es else e :: updFirst p f es

/-- The crossings of an event's window, in ascending serial (R328). -/
def Event.crossings (e : Event) : List Nat :=
  (List.range e.cfg.window).map fun i => (e.serial + 2 ^ 64 - e.cfg.pre + i) % 2 ^ 64

/-- The oldest event that has not begun its gather is ready (R328): what is kept of its window is fixed. -/
def State.eventReady (s : State) : State :=
  let es := s.rdo.events
  if es.any fun e => e.phase = .gathering then s
  else match es.find? fun e => e.skip = 0 ∧ e.phase = .queued with
    | none => s
    | some e =>
      if ¬ s.isReady e then s
      else
        let win := e.crossings.map s.keptOf
        let rel := (s.keptOf e.serial).release.or e.release
        let s := e.crossings.foldl (fun s c => s.updKept c fun k => { k with gathered := true }) s
        s.updRdo fun r => { r with events := updFirst (fun x => x.skip = 0 ∧ x.phase = .queued) (fun x =>
          { x with phase := .gathering, window := win, release := rel }) r.events }

/-- A record (R332): type, position relative to c, flags, payload. -/
def record (type : Nat) (pos : Nat) (flags : Nat) (payload : List (BitVec 8)) : List (BitVec 8) :=
  leBytes 1 type ++ leBytes 1 pos ++ leBytes 2 flags ++ leBytes 4 payload.length ++ payload

/-- The channels of a crossing with v ≥ min, as a plane (R330). -/
def overMin (planes2 : Bool) (min p0 p1 : Nat) : Nat :=
  match planes2, min with
  | true, 1 => p0 ||| p1
  | true, 2 => p1
  | true, _ => p0 &&& p1
  | false, 1 => p0
  | false, _ => 0

/-- Block k lies in the region about PE `p` (R331). -/
def inRegion (c : RdoCfg) (p k : Nat) : Bool :=
  let r0 := p / 512
  let c0 := p % 512
  let row := k / 8
  let lo := 64 * (k % 8)
  decide (row ≤ r0 + c.rows) && decide (r0 ≤ row + c.rows) && decide (lo ≤ c0 + c.cols) && decide (c0 ≤ lo + 63 + c.cols)

/-- The data record of a present crossing (R330, R333): its stored planes, with the centre of the region. -/
def dataRecord (c : RdoCfg) (pos : Nat) (planes2 half : Bool) (p0 p1 : Nat) (centre : Option Nat) : List (BitVec 8) :=
  let n := if half then 8192 else 16384
  let raw := record 0x02 pos 0 (leBytes n p0 ++ (if planes2 then leBytes n p1 else []))
  if c.mode = 0 then raw
  else
    let hit := overMin planes2 c.min p0 p1
    let blocks := n / 8
    let kept := (List.range blocks).filter fun k => bits hit (64 * k) 64 != 0 &&
      (match c.mode, centre with
       | 2, some p => inRegion c p k
       | _, _ => true)
    let payload := leBytes (blocks / 8) (kept.foldl (fun m k => m ||| 2 ^ k) 0) ++
      (kept.map fun k => leBytes 8 (bits p0 (64 * k) 64) ++ (if planes2 then leBytes 8 (bits p1 (64 * k) 64) else [])).flatten
    let block := record 0x03 pos 0 payload
    if raw.length ≤ block.length then raw else block

/-- A Beacon record (R333): where the entry carries no count and first responder, those fields are free. -/
def State.beaconRecord (s : State) (pos : Nat) (x : BcnResult) : State × List (BitVec 8) :=
  let none_ := !x.or
  let tail (cnt first : Nat) := record 0x10 pos 0 (leBytes 2 x.addr ++ leBytes 1 (b2n x.or + 2 * b2n x.full + 4 * b2n none_) ++
    leBytes 1 0 ++ leBytes 4 cnt ++ leBytes 4 first ++ leBytes 2 x.contrib ++ leBytes 2 0)
  match x.full, x.first with
  | true, some p => (s, tail x.count p)
  | true, none => (s.tookFree, tail x.count (s.fresh 32))
  | false, _ => (s.tookFree, tail (s.fresh 64 % 2 ^ 32) (s.fresh 64 / 2 ^ 32))

/-- A system-result record (R333). -/
def systemRecord (pos : Nat) (x : Cell) : List (BitVec 8) :=
  record 0x11 pos 0 (leBytes 2 x.key.index ++ leBytes 2 x.key.uaddr ++
    leBytes 1 (b2n x.or + 2 * b2n x.full + 4 * b2n x.none + 8 * b2n x.part) ++ leBytes 3 0 ++ leBytes 8 x.count ++
    leBytes 4 x.p ++ leBytes 4 x.dev ++ leBytes 4 x.devices ++ leBytes 4 0)

/-- The end record (R333). -/
def endRecord (body : List (BitVec 8)) (count reason : Nat) : List (BitVec 8) :=
  record 0x7F 0 0 (leBytes 4 (crc32 body) ++ leBytes 2 count ++ leBytes 1 reason ++ leBytes 1 0)

/-- The records of one window crossing (R329 to R333): the state, the bytes, the number of records, and whether the crossing
makes the event partial. `fallback`: mode 2 has found no centre; `ecc`: what the reads find (R318). A read with an error
response leaves the data as returned. -/
def State.crossingRecords (s : State) (e : Event) (ecc : EccMap) (i serial : Nat) (centre : Option Nat) (fallback : Bool) :
    State × List (BitVec 8) × Nat × Bool :=
  let pos := (i + 256 - e.cfg.pre) % 256
  let k := e.window.getD i {}
  let a := 0x8000 * (serial % 65536)
  let fb := 16 * b2n fallback
  let s := s.tagRead serial ecc
  let tag := s.ringTag serial
  let bad := s.poisoned (tagTable + 16 * (serial % 65536)) 16
  let (s, head, count, part) : State × List (BitVec 8) × Nat × Bool :=
    match tag with
    | some t =>
      if tagNames serial t then
        let planes2 := t.2.testBit 3
        let half := t.2.testBit 4
        let n := if half then 8192 else 16384
        let s := s.hbmRead a n ecc
        let s := if planes2 then s.hbmRead (a + 16384) n ecc else s
        let bad := bad || !s.memUp a 0x8000 || s.poisoned a n || (planes2 && s.poisoned (a + 16384) n)
        let mask := bits t.2 16 16
        let flags := 2 * bit1 t.2 1 + 4 * bit1 t.2 2 + 8 * b2n bad + fb + 32 * b2n half + 64 * b2n planes2
        let (s, p0) := s.hbmReturned a n
        let (s, p1) := if planes2 then s.hbmReturned (a + 16384) n else (s, 0)
        (s, record 0x01 pos flags (leBytes 8 (mask + bits t.2 32 12 * 65536)) ++
          dataRecord e.cfg pos planes2 half p0 p1 centre, 2, mask != 0xFFFF)
      else (s.tookFree, record 0x01 pos (1 + 8 * b2n bad + fb) (leBytes 8 (s.fresh 28)), 1, true)
    | none => (s.tookFree, record 0x01 pos (9 + fb) (leBytes 8 (s.fresh 28)), 1, true)
  let (s, beacons) := k.beacons.foldl (fun (a : State × List (BitVec 8)) x =>
    let (s, b) := a.1.beaconRecord pos x
    (s, a.2 ++ b)) (s, [])
  (s, head ++ beacons ++ (k.systems.map (systemRecord pos)).flatten, count + k.beacons.length + k.systems.length, part)

/-- The centre of R331: the first responder of the accepted crossing's Beacon entry at RDO_ROI.uaddr. -/
def Event.centre (e : Event) : Option Nat :=
  let k := e.window.getD e.cfg.pre {}
  (k.beacons.find? fun x => x.addr == e.cfg.uaddr && x.full && x.first.isSome).bind (·.first)

/-- Mode 2 finds no centre: the event uses mode 1 (R331). -/
def Event.noCentre (e : Event) : Bool := e.cfg.mode == 2 && e.centre.isNone

/-- The body of an event (R332). -/
def State.buildBody (s : State) (e : Event) (ecc : EccMap) : State × List (BitVec 8) × Bool :=
  let centre := if e.cfg.mode = 2 then e.centre else none
  let (s, _, body, count, part) := e.crossings.foldl (fun (a : State × Nat × List (BitVec 8) × Nat × Bool) c =>
    let (s, i, body, count, part) := a
    let (s, bs, n, p) := s.crossingRecords e ecc i c centre e.noCentre
    (s, i + 1, body ++ bs, count + n, part || p)) (s, 0, [], 0, false)
  (s, body ++ endRecord body count 0, part)

/-- The gather of the event under way (R329): its body is built. -/
def State.eventGather (s : State) (ecc : EccMap) : State :=
  match s.rdo.events.find? fun e => e.phase = .gathering with
  | none => s
  | some e =>
    let (s, body, part) := s.buildBody e ecc
    s.updRdo fun r => { r with events := updFirst (fun x => x.phase = .gathering) (fun x =>
      { x with phase := .gathered, body := body, partial_ := part, fellBack := x.noCentre }) r.events }

/-! ### The readout header (R337) -/

/-- The readout header of frame `i` of `n`. -/
def State.readoutHeader (s : State) (e : Event) (i n off : Nat) : List (BitVec 8) :=
  let r := e.release.filter fun r => decide (r.instant ≤ s.now)
  let ovr := (r.map (·.overrun)).getD 0
  let deg := (r.map (·.degraded)).getD 0
  let flags := b2n (i == 0) + 2 * b2n (i + 1 == n) + 4 * b2n (e.skip != 0) + 8 * b2n e.holdover + 16 * b2n (ovr != 0) +
    32 * b2n (deg != 0) + 64 * b2n e.partial_ + 128 * b2n r.isNone
  leBytes 2 0x4F52 ++ leBytes 1 1 ++ leBytes 1 flags ++ leBytes 2 i ++ leBytes 2 n ++ leBytes 4 off ++
    leBytes 4 e.body.length ++ leBytes 8 e.number ++ leBytes 8 e.serial ++ leBytes 6 e.orbit ++ leBytes 2 (e.index % 4096) ++
    leBytes 4 (s.get WOR_ADDR_STATUS.addr + 2 ^ 31 * s.get WOR_ADDR_STATUS.valid) ++
    leBytes 1 (bit1 e.sources 1 + 2 * bit1 e.sources 0) ++ leBytes 1 e.cfg.pre ++ leBytes 1 e.cfg.post ++
    leBytes 1 (if e.fellBack then 1 else e.cfg.mode) ++ leBytes 2 ((r.map (·.values)).getD 0) ++ leBytes 2 ovr ++ leBytes 2 deg ++
    leBytes 2 ((r.map (·.set)).getD 0)

/-- Frames of an event (R337). -/
def Event.frames (e : Event) : Nat := ceilDiv e.body.length e.cfg.chunk

/-- The bytes of the smallest event in the event ring: the header and 8 bytes of 0, one crossing record and the end record,
padded (R332, R333, R340). -/
def leastKept : Nat := 128

/-- With keep the event goes to the event ring (R340); where not even the smallest event fits before the ring's end, the next
one is written from the ring's base. -/
def State.keepEvent (s : State) (e : Event) : State :=
  if ¬ e.cfg.keep then s
  else
    let bs := s.readoutHeader e 0 1 0 ++ leBytes 8 0 ++ e.body
    let bs := bs ++ List.replicate ((64 - bs.length % 64) % 64) 0
    let off := s.get RDO_EVBUF_WR.offset
    let at_ := if off + bs.length ≤ e.cfg.size then off else 0
    let s := if s.memUp (e.cfg.base + at_) bs.length then s.writeMem (e.cfg.base + at_) bs else s
    s.put RDO_EVBUF_WR.offset (if at_ + bs.length + leastKept ≤ e.cfg.size then at_ + bs.length else 0)

/-- The body is assembled: Φ falls to its real size (R342), and the event is kept (R340). -/
def State.eventAssembled (s : State) : State :=
  match s.rdo.events.find? fun e => e.phase = .gathered with
  | none => s
  | some e =>
    let n := s.readyPorts.length
    let c := e.cfg
    let drop := (c.tau n e.charge).getD 0 - (c.tau n e.body.length).getD 0
    let done := updFirst (fun x => x.phase = .gathered) (fun x => { x with phase := .assembled }) s.rdo.events
    let s := s.updRdo fun r => { r with phi := r.phi - drop, events := done }
    (s.keepEvent e).publishRdo

end Sys2Proof.Machine
end

