-- ==== Sys2Proof/Machine/ReadoutPorts.lean ====
section
/-! DEFINITION. The readout ports: Ethernet, ARP, ICMP and the sending of event frames (R334 to R339, R345). -/

namespace Sys2Proof.Machine

/-- A port beside its registers. -/
def State.port (s : State) (k : Nat) : Port := Sparse.get {} s.rdo.ports k

/-- Changes a port. -/
def State.updPort (s : State) (k : Nat) (f : Port → Port) : State :=
  s.updRdo fun r => { r with ports := Sparse.upd {} r.ports k f }

/-- The port's own MAC (R336). -/
def State.portMac (s : State) (k : Nat) : Nat := s.get RDO_PORT_MAC_LO.mac k + 2 ^ 32 * s.get RDO_PORT_MAC_HI.mac k

/-- The destination MAC, where it is known (R335). -/
def State.destMac (s : State) (k : Nat) : Option Nat :=
  if s.bit RDO_PORT_DST_MAC_HI.static k then
    some (s.get RDO_PORT_DST_MAC_LO.mac k + 2 ^ 32 * s.get RDO_PORT_DST_MAC_HI.mac k)
  else (s.port k).mac

/-- A frame leaves a port. -/
def State.sendEther (s : State) (k : Nat) (bs : List (BitVec 8)) : State := { s with sent := s.sent ++ [.ether k bs] }

/-- Every change of the READY count is reported, and the threshold follows it (R343, R345). -/
def State.portsChanged (s : State) (before : Nat) : State :=
  if s.readyPorts.length = before then s.publishRdo else (s.err RDO_ERR.port_change).publishRdo

/-- Shows a port's state (R335). -/
def State.putPort (s : State) (k v : Nat) : State :=
  let n := s.readyPorts.length
  (s.put RDO_PORT_STATUS.state v k).portsChanged n

/-- UP and READY by their condition: the port's address set and the destination MAC known (R335). -/
def State.portEval (s : State) (k : Nat) : State :=
  let st := s.get RDO_PORT_STATUS.state k
  if st < 2 then s
  else s.putPort k (if s.get RDO_PORT_IP.ip k ≠ 0 ∧ (s.destMac k).isSome then 3 else 2)

/-- An ARP packet (R334, R335): operation 1 request, 2 reply. -/
def arpFrame (dst src op spa tha tpa : Nat) : List (BitVec 8) :=
  beBytes 6 dst ++ beBytes 6 src ++ beBytes 2 0x0806 ++ beBytes 2 1 ++ beBytes 2 0x0800 ++ beBytes 1 6 ++ beBytes 1 4 ++
    beBytes 2 op ++ beBytes 6 src ++ beBytes 4 spa ++ beBytes 6 tha ++ beBytes 4 tpa

/-- The broadcast address. -/
def broadcast : Nat := 2 ^ 48 - 1

/-- A port goes DOWN (R335, R348). -/
def State.portDown (s : State) (k : Nat) : State :=
  let st := s.get RDO_PORT_STATUS.state k
  let s := (s.putPort k 0).updPort k fun p => { p with mac := none }
  if 2 ≤ st then s.err RDO_PORT_ERR.down k k else s

/-- A write to RDO_PORT_CFG (R283, R334, R335). -/
def State.writePortCfg (s : State) (k m v : Nat) : State :=
  let t := s.wrReg 10 (0x400 + 0x40 * k) m v
  let on := t.bit RDO_PORT_CFG.enable k
  let lane := t.get RDO_PORT_CFG.lane k
  if on ∧ t.laneConflict [lane] then (s.err WOR_ERR.lane_conflict 0 k).err RDO_PORT_ERR.lane_conflict k k
  else
    let st := t.get RDO_PORT_STATUS.state k
    let same := lane == s.get RDO_PORT_CFG.lane k && t.get RDO_PORT_CFG.medium k == s.get RDO_PORT_CFG.medium k
    if ¬ on then (if st = 0 then t else t.portDown k)
    else if st = 0 then t.putPort k 1
    else if same then t
    else (t.portDown k).putPort k 1

/-- PCS and FEC lock: UP, with a gratuitous ARP (R335). -/
def State.portLinkUp (s : State) (k : Nat) : State :=
  if s.get RDO_PORT_STATUS.state k ≠ 1 then s
  else
    let ip := s.get RDO_PORT_IP.ip k
    let s := s.putPort k 2
    (s.sendEther k (arpFrame broadcast (s.portMac k) 1 ip 0 ip)).portEval k

/-- Loss of PCS lock (R335). -/
def State.portPcsLoss (s : State) (k : Nat) : State := if 2 ≤ s.get RDO_PORT_STATUS.state k then s.portDown k else s

/-- The ARP timer: each second without a known destination MAC, each 60 s in READY (R335). -/
def State.arpTimer (s : State) (k : Nat) : State :=
  if s.get RDO_PORT_STATUS.state k < 2 ∨ s.bit RDO_PORT_DST_MAC_HI.static k then s
  else s.sendEther k (arpFrame broadcast (s.portMac k) 1 (s.get RDO_PORT_IP.ip k) 0 (s.get RDO_PORT_DST_IP.ip k))

/-- 180 s without an ARP reply (R335). -/
def State.arpTimeout (s : State) (k : Nat) : State :=
  if s.get RDO_PORT_STATUS.state k ≠ 3 ∨ s.bit RDO_PORT_DST_MAC_HI.static k then s
  else ((s.updPort k fun p => { p with mac := none }).portEval k).err RDO_PORT_ERR.arp_timeout k k

/-- A received frame is discarded and counted (R334). -/
def State.portDiscard (s : State) (k : Nat) : State := s.inc RDO_PORT_RX_DROP_CNT.count k

/-- An ARP reply to the port's address (R335). -/
def State.arpReply (s : State) (k ip mac target : Nat) : State :=
  if s.get RDO_PORT_STATUS.state k < 2 then s
  else if target ≠ s.get RDO_PORT_IP.ip k then s.portDiscard k
  else if ip = s.get RDO_PORT_DST_IP.ip k ∧ ¬ s.bit RDO_PORT_DST_MAC_HI.static k then
    (s.updPort k fun p => { p with mac := some (mac % 2 ^ 48) }).portEval k
  else s

/-- An ARP request (R335): answered when it is for the port's own address. -/
def State.arpRequest (s : State) (k ip mac target : Nat) : State :=
  if s.get RDO_PORT_STATUS.state k < 2 then s
  else if target ≠ s.get RDO_PORT_IP.ip k ∨ target = 0 then s.portDiscard k
  else s.sendEther k (arpFrame mac (s.portMac k) 2 target mac ip)

/-- The 16-bit one's complement sum of IPv4, UDP and ICMP checksums. -/
def onesSum : List (BitVec 8) → Nat → Nat
  | a :: b :: bs, acc => onesSum bs (acc + a.toNat * 256 + b.toNat)
  | [a], acc => acc + a.toNat * 256
  | [], acc => acc

/-- Folds the carries and complements. -/
def checksum (bs : List (BitVec 8)) : Nat :=
  let x := onesSum bs 0
  let fold (x : Nat) := x % 65536 + x / 65536
  0xFFFF - fold (fold (fold x))

/-- An IPv4 header (R336): total length, identification, protocol, source, destination. -/
def ipHeader (dscp ttl len ident proto src dst : Nat) : List (BitVec 8) :=
  let h (sum : Nat) := beBytes 1 0x45 ++ beBytes 1 (4 * dscp) ++ beBytes 2 len ++ beBytes 2 ident ++ beBytes 2 0x4000 ++
    beBytes 1 ttl ++ beBytes 1 proto ++ beBytes 2 sum ++ beBytes 4 src ++ beBytes 4 dst
  h (checksum (h 0))

/-- The IPv4 identification of the next frame of a port (R336). -/
def State.takeIdent (s : State) (k : Nat) : Nat × State :=
  ((s.port k).ident, s.updPort k fun p => { p with ident := (p.ident + 1) % 65536 })

/-- An IPv4 frame. -/
def State.sendIp (s : State) (k mac dst proto : Nat) (payload : List (BitVec 8)) : State :=
  let (id, s) := s.takeIdent k
  s.sendEther k (beBytes 6 mac ++ beBytes 6 (s.portMac k) ++ beBytes 2 0x0800 ++
    ipHeader (s.get RDO_PORT_IPOPT.dscp k) (s.get RDO_PORT_IPOPT.ttl k) (20 + payload.length) id proto
      (s.get RDO_PORT_IP.ip k) dst ++ payload)

/-- An ICMP echo request at instant `t` (R335): answered at most 1,000 times a second and within the MTU, else discarded.
`rest`: the bytes after the checksum. -/
def State.icmpEcho (s : State) (k t mac ip target : Nat) (rest : List (BitVec 8)) : State :=
  if s.get RDO_PORT_STATUS.state k < 2 then s
  else
    let s := s.at t
    let p := s.port k
    let fresh : Bool := decide (p.second + 1000000000000000 ≤ s.now)
    let n := if fresh then 0 else p.echoes
    if target ≠ s.get RDO_PORT_IP.ip k ∨ s.rdo.work.mtu < 24 + rest.length ∨ 1000 ≤ n then s.portDiscard k
    else
      let s := s.updPort k fun p => { p with echoes := n + 1, second := if fresh then s.now else p.second }
      let m (sum : Nat) := beBytes 1 0 ++ beBytes 1 0 ++ beBytes 2 sum ++ rest
      s.sendIp k mac ip 1 (m (checksum (m 0)))

/-- A received frame of any other kind (R334); `bad`: uncorrectable codewords received with it (R348). -/
def State.portOther (s : State) (k bad : Nat) : State :=
  if s.get RDO_PORT_STATUS.state k < 2 then s else (s.portDiscard k).add RDO_PORT_FEC_CNT.count bad k

/-- A UDP datagram of a port (R336). -/
def State.sendUdp (s : State) (k : Nat) (data : List (BitVec 8)) : State :=
  let src := s.get RDO_PORT_IP.ip k
  let dst := s.get RDO_PORT_DST_IP.ip k
  let len := 8 + data.length
  let pseudo := beBytes 4 src ++ beBytes 4 dst ++ beBytes 2 17 ++ beBytes 2 len
  let head (sum : Nat) := beBytes 2 (s.get RDO_PORT_UDP.src k) ++ beBytes 2 (s.get RDO_PORT_UDP.dst k) ++ beBytes 2 len ++
    beBytes 2 sum
  let c := checksum (pseudo ++ head 0 ++ data)
  let c := if c = 0 then 0xFFFF else c
  (s.sendIp k ((s.destMac k).getD 0) dst 17 (head c ++ data)).inc RDO_PORT_FRAME_CNT.count k

/-- The event whose frame goes next: the oldest, once assembled or skipped (R326). -/
def Event.canSend (e : Event) : Bool := e.skip != 0 || e.phase == .assembled

/-- The port of the next frame (R338, R345): position g mod n in the list taken at the event's first frame, of which only the
ports still READY count. -/
def pickPort (g : Nat) (ready ports : List Nat) : Option Nat :=
  let p := ports.getD (g % ports.length) 0
  if ports.isEmpty then none
  else if ready.contains p then some p
  else
    let left := ports.filter ready.contains
    let left := if left.isEmpty then ready else left
    left[g % max 1 left.length]?

/-- The oldest event has sent its last frame at instant `t` (R342, R345). -/
def State.eventDone (s : State) (e : Event) (t : Nat) : State :=
  let s := s.updRdo fun r => { r with events := r.events.tail }
  let s := if e.skip ≠ 0 then s
    else
      let s := s.inc RDO_SENT_CNT.count
      if e.takenAt + e.cfg.promise * 1000000000 < t then (s.inc RDO_LATE_CNT.count).err RDO_ERR.late else s
  s.publishRdo

/-- The next event frame is released to its port at instant `t` (R336, R338). -/
def State.readoutFrame (s : State) (t : Nat) : State :=
  match s.rdo.events with
  | [] => s
  | e :: _ =>
    if ¬ e.canSend then s
    else
      let s := s.at t
      let ready := s.readyPorts
      let ports := if e.sent = 0 then ready else e.ports
      let e := if e.skip ≠ 0 then { e with body := endRecord [] 0 e.skip, release := (s.keptOf e.serial).release.or e.release } else e
      match pickPort s.rdo.frame ready ports with
      | none => if e.skip ≠ 0 then s.eventDone e s.now else s
      | some k =>
        let n := e.frames
        let off := e.cfg.chunk * e.sent
        let s := s.sendUdp k (s.readoutHeader e e.sent n off ++ slice e.body off e.cfg.chunk)
        let s := s.updRdo fun r => { r with frame := r.frame + 1 }
        if n ≤ e.sent + 1 then s.eventDone e s.now
        else s.updRdo fun r => { r with events := updFirst (fun _ => true) (fun x =>
          { x with sent := x.sent + 1, ports := ports }) r.events }

/-- A write to a register of a port's block (R348). -/
def State.writePort (s : State) (k off m v : Nat) : State :=
  match off with
  | 0 => s.writePortCfg k m v
  | _ =>
    let old := s.get RDO_PORT_DST_IP.ip k
    let s := s.wrReg 10 (0x400 + 0x40 * k + off) m v
    let s := if s.get RDO_PORT_DST_IP.ip k = old then s else s.updPort k fun p => { p with mac := none }
    s.portEval k

/-- A write to a register of the RDO page (R347). -/
def State.writeRdo (s : State) (off m v : Nat) : State :=
  if 0x400 ≤ off ∧ off < 0x800 then s.writePort ((off - 0x400) / 0x40) ((off - 0x400) % 0x40) m v
  else match off with
    | 0x04 => if woField RDO_CMD.apply m v = 1 then s.rdoApply else s
    | 0x00 | 0x10 | 0x14 | 0x18 | 0x1C | 0x20 | 0x24 | 0x38 | 0x3C => s.writeRdoCfg off m v
    | _ => s.wrReg 10 off m v

/-- A write to a register of the HBM page (R346). -/
def State.writeHbm (s : State) (off m v : Nat) : State :=
  match off with
  | 0x00 => if woField HBM_CTRL.restart m v = 1 then s.hbmRestart else s
  | 0x08 => s.writePipeCtrl m v
  | _ =>
    if 0x40 ≤ off ∧ off < 0xC0 ∧ off % 0x20 < 8 then s.writeXfer ((off - 0x40) / 0x20) off m v else s.wrReg 9 off m v

end Sys2Proof.Machine
end

