-- ==== Sys2Proof/Machine/Tarnish.lean ====
section
/-! DEFINITION. Tarnish: sensors, replanning, margin plans, the core voltage, forecast and warnings (18, R521 to R537). -/

namespace Sys2Proof.Machine

/-- 24 h in fs. -/
def dayFs : Nat := 86400 * 10 ^ 15

/-- One hour in fs. -/
def hourFs : Nat := 3600 * 10 ^ 15

/-- Adds a value to the window of 24 h and drops what can no longer be the extreme one; `above a b` says that `a` makes an
older `b` needless. -/
def windowPush {α : Type} (above : α → α → Bool) (t : Nat) (v : α) (l : List (Nat × α)) : List (Nat × α) :=
  (l.filter fun e => decide (t < e.1 + dayFs) && !above v e.2) ++ [(t, v)]

/-- Sets a warning bit of an island, with its event and its report (R535). The spec names s_norm and t_exh for the detail
and no layout of them: the detail is a free value. -/
def State.tarWarn (s : State) (f : Fld) (i : Nat) : State :=
  ((s.err f i i (s.fresh 64)).tookFree).raiseAll 23

/-! ### Forecast (R534) -/

/-- The slope of the least-squares line through the points, per hour, as a numerator and a positive denominator (R534). -/
def fitLine (pts : List (Nat × Int)) : Option (Int × Int) :=
  let n : Int := pts.length
  let sx : Int := (pts.map fun p => (p.1 : Int)).sum
  let sy : Int := (pts.map (·.2)).sum
  let sxx : Int := (pts.map fun p => (p.1 : Int) * p.1).sum
  let sxy : Int := (pts.map fun p => (p.1 : Int) * p.2).sum
  let d := n * sxx - sx * sx
  if d ≤ 0 then none else some ((n * sxy - sx * sy) * hourFs, d)

/-- That slope rounded down. -/
def fitSlope (pts : List (Nat × Int)) : Option Int := (fitLine pts).map fun e => e.1 / e.2

/-- The fit of an island's history with its current value, from 4 stored points on (R534). -/
def State.islSlope (s : State) (i : Nat) : Option Int :=
  let h := (s.tarIsl i).hist
  match (s.tarIsl i).norm with
  | none => none
  | some v => if h.length < 4 then none else fitSlope ((s.now, v) :: (h.take 31).map fun p => (p.time, p.norm))

/-- guard[i] in fs (R527, R533). -/
def State.tarGuard (s : State) (i : Nat) : Nat := (s.get TAR_GUARD.ps + s.get TAR_ISL_WARN.penalty i) * 1000

/-- t_exh in hours (R534). -/
def State.islForecast (s : State) (i : Nat) : Option Nat :=
  match s.islSlope i, (s.tarIsl i).norm with
  | some m, some v =>
    if m < 0 then some (if v < s.tarGuard i then 0 else ((v - s.tarGuard i) / (-m)).toNat) else none
  | _, _ => none

/-- Publishes an island's slope and forecast (R534, R550). -/
def State.publishForecast (s : State) (i : Nat) : State :=
  let s := s.updTarIsl i fun x => { x with slope := s.islSlope i }
  match s.islForecast i with
  | none => (s.put TAR_ISL_SLOPE.fs_per_h 0 i).put TAR_ISL_FORECAST.hours 0xFFFFFF i
  | some h => (s.put TAR_ISL_SLOPE.fs_per_h (ofInt 32 ((s.tarIsl i).slope.getD 0)) i).put TAR_ISL_FORECAST.hours
      (min h 0xFFFFFE) i

/-! ### Triggers (R525, R526) -/

/-- The length of a droop window, 10 ms in fs (R521). -/
def droopWindow : Nat := 10 ^ 13

/-- A droop window of an island has ended at instant `t`: its lowest VDD_CORE and its depth, 0 to 200 mV, enter the 24 h (R521). -/
def State.droopEnds (s : State) (i t low deep : Nat) : State :=
  let s := s.updTarIsl i fun x =>
    { x with depths := windowPush (fun a b => decide (b ≤ a)) t (min 200 deep) x.depths,
             lows := windowPush (fun a b => decide (a ≤ b)) t low x.lows }
  let x := s.tarIsl i
  (s.put TAR_ISL_DROOP.min_mv ((x.lows.head?.map (·.2)).getD low) i).put TAR_ISL_DROOP.depth_mv ((x.depths.head?.map (·.2)).getD 0) i

/-- The lowest VDD_CORE of an island since the sample before (R521). The droop sensor runs continuously: the value joins the window of
10 ms that it falls into, and the window before it has ended. -/
def State.droopSample (s : State) (i low : Nat) : State :=
  let k := (s.now - 1) / droopWindow
  let deep := s.get TAR_AVS.set_mv - low
  let x := s.tarIsl i
  let s := match x.window with
    | some w => if w.index = k then s else s.droopEnds i ((w.index + 1) * droopWindow) w.low w.deep
    | none => s
  let old := x.window.filter fun w => w.index == k
  s.updTarIsl i fun x => { x with window := some (match old with
    | some w => { w with low := min w.low low, deep := max w.deep deep }
    | none => { index := k, low := low, deep := deep }) }

/-- The temperatures of the islands, in units of 0.125 °C, and what the droop sensors saw since the sample before (R521, R525). -/
def State.tempSample (s : State) (t : Nat) (temps : List Int) (lows : List Nat) (h0 h1 : Nat) : State :=
  let s := (((s.at t).put HBM_TEMP.stack0 h0).put HBM_TEMP.stack1 h1).put SYS_TEMP.hbm (ofInt 8 (max (toInt 8 (h0 % 256)) (toInt 8 (h1 % 256))))
  let s := match temps with
    | [] => s
    | v :: vs => s.put SYS_TEMP.island (ofInt 12 (vs.foldl max v))
  let s := lows.zipIdx.foldl (fun s e => if e.2 < 16 then s.droopSample e.2 e.1 else s) s
  (List.range 16).foldl (fun s i =>
    match temps[i]? with
    | none => s
    | some v =>
      let s := s.updTarIsl i fun x => { x with temp := v, temps := windowPush (fun a b => decide (b ≤ a)) s.now v x.temps }
      let hi := (((s.tarIsl i).temps.head?).map (·.2)).getD v
      let s := (s.put TAR_ISL_TEMP.now (ofInt 12 v) i).put TAR_ISL_TEMP.max24 (ofInt 12 hi) i
      match s.tar.tmax with
      | none => s
      | some l => if 8 * l.getD i 0 < v then s.tarTrigger 2 else s) s

/-- An island's temperature has stood away from its value at the latest replanning for 1 s (R525). -/
def State.tempShiftHeld (s : State) (i : Nat) : State :=
  let x := s.tarIsl i
  if 8 * s.get TAR_TEMP.trig < (x.temp - x.tempPlan).natAbs then s.tarTrigger 3 else s

/-! ### Eye scans (R524, R536) -/

/-- A rear lane is in use and its receiver has lock: TRAINING is over, or the port's physical layer is up. -/
def State.rearReady (s : State) (r : Nat) : Bool :=
  ((List.range 12).any fun j => decide (2 ≤ s.get WOR_LINK_STATUS.state j) && (s.linkLanes j).contains r) ||
    decide (2 ≤ s.get WOR_BLN_STATUS.state r) ||
    (List.range 16).any fun k => s.bit RDO_PORT_CFG.enable k && s.get RDO_PORT_CFG.lane k == r &&
      decide (2 ≤ s.get RDO_PORT_STATUS.state k)

/-- The lane can be scanned. -/
def State.scanReady (s : State) (lane : Nat) : Bool := if lane < 256 then s.laneState lane == 4 else s.rearReady (lane - 256)

/-- The warning of a lane's eye (R536): its mask bit is set, the lane reported and the event of R402 raised. -/
def State.laneWarn (s : State) (lane : Nat) : State :=
  let (f, n) := if lane < 256 then (TAR_LANE_WARN.lanes, lane) else (TAR_RLANE_WARN.lanes, lane - 256)
  let k := n / 32
  (s.put f (s.get f k ||| 2 ^ (n % 32)) k).report f.page n (32 * (f.off k 0 / 4) + n % 32) 0 |>.raiseAll 23

/-- A value falls below its limit, or its forecast does within TAR_WARN_H.hours (R534, R536). -/
def State.crosses (s : State) (pts : List (Nat × Int)) (limit : Nat) : Bool :=
  match pts with
  | [] => false
  | (_, v) :: rest =>
    decide (v < limit) ||
      (match (if rest.length < 4 then none else fitLine (pts.take 32)) with
       | none => false
       | some (m, d) => decide (m < 0 ∧ (v - limit) * d < s.get TAR_WARN_H.hours * (-m)))

/-- Judges a lane's latest eye (R536). -/
def State.judgeEye (s : State) (lane : Nat) : State :=
  match Sparse.get none s.tar.eyes lane with
  | none => s
  | some (h, w) =>
    let hist := Sparse.get [] s.tar.lanes lane
    let hs := (s.now, (h : Int)) :: hist.map fun p => (p.time, (p.height : Int))
    let ws := (s.now, (w : Int)) :: hist.map fun p => (p.time, (p.width : Int))
    if s.crosses hs (s.get TAR_EYE_LIMIT.height) ∨ s.crosses ws (s.get TAR_EYE_LIMIT.width) then s.laneWarn lane else s

/-- A scan of Tarnish ends: the lane's adapt_freeze gets the value that it held before. -/
def State.scanEnds (s : State) (x : TarScan) : State :=
  let s := s.updTar fun t => { t with scans := t.scans.filter fun y => y.lane != x.lane }
  if x.lane < 256 then s.put FLN_RX_EQ.adapt_freeze x.freeze x.lane else s

/-- Starts the scan of a lane's next eye, or counts the start that R57 refuses. -/
def State.scanStart (s : State) (lane : Nat) : State :=
  if ¬ s.scanReady lane then s
  else if lane < 256 then
    let freeze := s.get FLN_RX_EQ.adapt_freeze lane
    if s.bit FLN_STATUS.eye_busy lane then
      (s.eyeStart lane).inc TAR_EYE_REFUSED_CNT.count |>.err TAR_ERR.eye_refused 0 lane
    else
      let s := (s.put FLN_RX_EQ.adapt_freeze 1 lane).eyeStart lane
      let x : TarScan := { lane, eye := 0, left := if s.get FLN_CTRL.rate lane = 2 then [1, 2] else [], freeze,
                           height := 0xFFFF, width := 0xFF }
      s.updTar fun t => { t with scans := t.scans ++ [x] }
  else
    let s := s.put TAR_RLANE_EYE.valid 0 (lane - 256)
    let x : TarScan := { lane, eye := 0, left := [1, 2], freeze := 0, height := 0xFFFF, width := 0xFF }
    s.updTar fun t => { t with scans := t.scans ++ [x] }

/-- Scans of lanes that have left READY end (R57), and further lanes start, at most 8 at once, in ascending order. -/
def State.scanNext (s : State) : State :=
  let s := s.tar.scans.foldl (fun s x =>
    if (if x.lane < 256 then s.bit FLN_STATUS.eye_busy x.lane else s.rearReady (x.lane - 256)) then s else s.scanEnds x) s
  s.tar.scanTodo.foldl (fun s lane =>
    if 8 ≤ s.tar.scans.length then s
    else (s.updTar fun t => { t with scanTodo := t.scanTodo.filter (· != lane) }).scanStart lane) s

/-- A replanning begins to scan the lanes (R524). -/
def State.scansBegin (s : State) : State :=
  if ¬ s.bit TAR_CTRL.eye_en then s
  else
    let lanes := (List.range 224 ++ (List.range 48).map (256 + ·)).filter fun n =>
      s.scanReady n && !(s.tar.scans.any fun x => x.lane == n)
    (s.updTar fun t => { t with scanTodo := lanes }).scanNext

/-- A scan completes (R57, R524): `lane` as in `TarScan`. A scan of Tarnish goes on with the lane's next eye. -/
def State.scanDone (s : State) (lane height width : Nat) : State :=
  let mine := s.tar.scans.find? fun x => x.lane == lane
  let s := if lane < 256 then s.eyeDone lane height width
    else if mine.isSome then
      ((s.put TAR_RLANE_EYE.height height (lane - 256)).put TAR_RLANE_EYE.width width (lane - 256)).put
        TAR_RLANE_EYE.valid 1 (lane - 256)
    else s
  match mine with
  | none => s
  | some x =>
    let x := { x with height := min x.height (height % 65536), width := min x.width (width % 256) }
    match x.left with
    | e :: rest =>
      let y := { x with eye := e, left := rest }
      let s := s.updTar fun t => { t with scans := t.scans.map fun z => if z.lane = lane then y else z }
      if s.scanReady lane then s.eyeStart lane else s.scanNext
    | [] =>
      let s := (s.scanEnds x).updTar fun t =>
        { t with eyes := Sparse.set none t.eyes lane (some (x.height, x.width)) }
      (s.judgeEye lane).scanNext

/-! ### The plan (R527 to R529) -/

/-- Predicted slack in fs at period `p` and voltage `v`. -/
def PredIn.pred (x : PredIn) (kt kv vNow : Nat) (p v : Nat) : Int :=
  x.slack + ((p : Int) - x.period) + kv * ((v : Int) - vNow) - kt * (x.tmax - x.tnow) - kv * x.droop - x.age

/-- Predicted slack of an island of the replanning under way. -/
def State.pred (s : State) (x : PredIn) (p v : Nat) : Int :=
  x.pred (s.get TAR_COEF.kt) (s.get TAR_COEF.kv) s.tar.vNow p v

/-- Period in fs of a clock in Hz, rounded up. -/
def clockPeriod (f : Nat) : Nat := ceilDiv (10 ^ 15) f

/-- The target period p_target (R527). -/
def State.pTarget (s : State) : Nat := clockPeriod (s.get TAR_TARGET.mhz * 1000000)

/-- The clocks of the grid from the target down to 2.5 GHz. -/
def State.clockGrid (s : State) : List Nat :=
  let f := s.get TAR_TARGET.mhz * 1000000
  (List.range ((f - 2500000000) / 12500000 + 1)).map fun k => f - 12500000 * k

/-- The shortest period of the grid that an island reaches at voltage `v`; 0 for none. -/
def State.fastest (s : State) (x : PredIn) (v : Nat) : Nat :=
  ((s.clockGrid.map clockPeriod).find? fun p => decide ((x.guard : Int) ≤ s.pred x p v)).getD 0

/-- The lowest voltage of the steps from v0 that satisfies `ok`, below the ceiling. -/
def State.lowestV (s : State) (ok : Nat → Bool) : Option Nat :=
  let c := s.get TAR_V.ceil_mv
  ((List.range ((c - s.tar.v0 + 4) / 5)).map (s.tar.v0 + 5 * ·)).find? ok

/-- The plan's voltage (R527). With no island measured the voltage in force stays. -/
def State.planVoltage (s : State) (meas : List PredIn) : Nat :=
  let c := s.get TAR_V.ceil_mv
  if meas.isEmpty then s.get TAR_AVS.set_mv
  else if c < s.tar.v0 then c
  else (s.lowestV fun v => meas.all fun x => s.fastest x v == s.pTarget).getD c

/-- A plan (R527, R528), and the islands that it retires (R529). -/
def State.makePlan (s : State) : Plan × List Nat :=
  let ins := s.tar.ins
  let v := s.planVoltage (ins.filter (·.measured))
  let per (i : Nat) (x : PredIn) : Nat := if x.measured then s.fastest x v else s.get ARR_ISL_CLK_PLAN.period_fs i
  let short (x : PredIn) : Bool := match x.vmin with
    | some m => decide (v < m + s.get TAR_GUARD.sram_mv)
    | none => false
  let idx := List.range 16
  let getI (i : Nat) : Option PredIn := ins[i]?
  let retire := idx.filter fun i => match getI i with
    | some x => x.measured && (per i x == 0 || short x)
    | none => false
  let gone (i : Nat) : Bool := retire.contains i || (s.get TAR_STATUS.retired).testBit i
  let base (i : Nat) : Nat := match getI i with
    | some x => per i x
    | none => s.get ARR_ISL_CLK_PLAN.period_fs i
  let rest := idx.filter fun i => !gone i
  let most := (rest.map base).foldl max 0
  let periods := idx.map fun i => if gone i then (if most = 0 then s.get ARR_ISL_CLK_PLAN.period_fs i else most) else base i
  ({ periods, voltage := v, tmax := ins.map (·.tmax), second := false }, retire)

/-- The second plan (R532): periods at most those of the first plan and of the plan in force, at the lowest voltage that
meets them. -/
def State.secondPlan (s : State) (first : Plan) : Option Plan :=
  let per (i : Nat) : Nat := min (first.periods.getD i 0) (s.get ARR_ISL_CLK_PLAN.period_fs i)
  let c := s.get TAR_V.ceil_mv
  let meets (v : Nat) : Bool := (List.range 16).all fun i => match s.tar.ins[i]? with
    | some x => !x.measured || (s.get TAR_STATUS.retired).testBit i ||
        (let p := s.fastest x v; p != 0 && decide (p ≤ per i))
    | none => true
  let v := if c < s.tar.v0 then none else (s.lowestV meets).orElse fun _ => if meets c then some c else none
  v.map fun v => { first with periods := (List.range 16).map per, voltage := v, second := true }

/-! ### A replanning (R525 to R537) -/

/-- A replanning starts on the triggers that have come (R526). -/
def State.replanStart (s : State) : State :=
  if s.tar.phase ≠ .idle ∨ ¬ s.bit TAR_CTRL.enable ∨ (s.tar.due = 0 ∧ ¬ s.bit TAR_STATUS.pending) then s
  else
    let s := match lowestOne 9 s.tar.due with
      | some c => s.put TAR_STATUS.last_trigger c
      | none => s
    let s := (s.put TAR_STATUS.busy 1).put TAR_STATUS.pending 0
    (s.updTar fun t => { t with phase := .sampling, due := 0 }).scansBegin

/-- A replanning ends (R526). -/
def State.replanEnd (s : State) (completed : Bool) : State :=
  let s := (s.updTar fun t => { t with phase := .idle, plan := none }).put TAR_STATUS.busy 0
  if completed then s.inc TAR_REPLAN_CNT.count else s

/-- The readings of an island, as far as its state gives them (R521 to R523). -/
def State.takeReading (s : State) (r : SensorRead) : State :=
  let i := r.island.val
  if ¬ executing (s.islState i) then s.put TAR_ISL_VMIN.stale 1 i
  else
    let s := s.updTarIsl i fun x => { x with slack := 5000 * r.taps.val, shift := r.shift }
    (s.put TAR_ISL_SLACK.meas (50 * r.taps.val) i).put TAR_ISL_RO.shift_ppm (ofInt 16 r.shift) i

/-- What the plan takes of an island (R527); `read` says that the island gave readings. -/
def State.predIn (s : State) (read : Bool) (i : Nat) : PredIn :=
  let x := s.tarIsl i
  let hi := (x.temps.head?.map (·.2)).getD x.temp
  { measured := read && executing (s.islState i),
    slack := x.slack, period := s.get ARR_ISL_CLK_PLAN.period_fs i,
    tnow := x.temp / 8, tmax := -((-hi) / 8) + s.get TAR_TEMP.headroom,
    droop := (x.depths.head?.map (·.2)).getD 0, age := 0, guard := s.tarGuard i,
    vmin := if executing (s.islState i) && !s.bit TAR_ISL_VMIN.stale i then some (s.get TAR_ISL_VMIN.mv i) else none }

/-- s_norm of a measured island, and with it its age (R527, R534). -/
def State.normalise (s : State) (i : Nat) (x : PredIn) : State × PredIn :=
  if ¬ x.measured then (s, x)
  else
    let n := s.pred x s.pTarget (s.get TAR_V.ceil_mv)
    let s := s.updTarIsl i fun y => { y with norm := some n }
    let s := (s.put TAR_ISL_SLACK.norm (ofInt 16 (clampI (-32768) 32767 (n / 100))) i).publishForecast i
    let age : Int := match s.islForecast i, (s.tarIsl i).slope with
      | some _, some m => max 1000 ((-m) * s.get TAR_INTERVAL.s / 3600)
      | _, _ => 1000
    (s, { x with age := age })

/-- The margin of an island runs out within a `den`-th of TAR_WARN_H.hours (R535). -/
def State.exhausts (s : State) (i den : Nat) : Bool := match s.islForecast i with
  | some t => decide (den * t < s.get TAR_WARN_H.hours)
  | none => false

/-- s_norm of an island is nearly down to its guard (R535). -/
def State.nearGuard (s : State) (i : Nat) : Bool := match (s.tarIsl i).norm with
  | some n => decide (n < s.tarGuard i + s.get TAR_GUARD.urgent_ps * 1000)
  | none => false

/-- The warnings of a replanning, raised before its proposal (R535). -/
def State.planWarnings (s : State) (pl : Plan) (retire : List Nat) : State :=
  (List.range 16).foldl (fun s i =>
    let s := if s.exhausts i 1 then s.tarWarn TAR_ISL_WARN.advisory i else s
    let s := if s.nearGuard i ∨ s.exhausts i 8 then s.tarWarn TAR_ISL_WARN.urgent i else s
    let s := if s.pTarget < pl.periods.getD i 0 then s.tarWarn TAR_ISL_WARN.below_target i else s
    if retire.contains i ∨ (s.get TAR_STATUS.retired).testBit i then s.tarWarn TAR_ISL_WARN.retired i else s) s

/-- An island retires (R529): it is turned off and marked. -/
def State.retireIsland (s : State) (i : Nat) : State :=
  ((s.islCmd i 1).setBit TAR_STATUS.retired i true).err TAR_ERR.island_retired 0 i

/-- Proposes the plan of the replanning for admission, with its event (R249, R402, R530). -/
def State.tarPropose (s : State) : State :=
  match s.tar.plan with
  | none => s
  | some pl => ((s.updTar fun t => { t with phase := .proposed }).startAdmission false false (some pl)).raiseAll 23

/-- The voltage in mV is ordered as an AVSBus Vout command to rail 0 (R530, R628). -/
def State.avsOrder (s : State) (mv : Nat) : State := { s with sent := s.sent ++ [.avs 0 mv] }

/-- Orders the plan's voltage before its proposal, where it is higher (R530). -/
def State.orderVoltage (s : State) (pl : Plan) : State :=
  let s := s.updTar fun t => { t with plan := some pl }
  if s.get TAR_AVS.set_mv < pl.voltage then (s.avsOrder pl.voltage).updTar fun t => { t with phase := .raising }
  else s.tarPropose

/-- The sensors have been sampled and the plan is computed (R527 to R530, R535). -/
def State.sensorsSampled (s : State) (t : Nat) (reads : List SensorRead) : State :=
  if s.tar.phase ≠ .sampling then s
  else
    let s := reads.foldl State.takeReading (s.at t)
    let s := (List.range 16).foldl (fun s i =>
      let s := s.updTarIsl i fun x => { x with tempPlan := x.temp }
      if executing (s.islState i) ∧ s.get SEQ_BG_CTRL.vendor_period ≠ 0 then s else s.put TAR_ISL_VMIN.stale 1 i) s
    let s := s.updTar fun x => { x with vNow := s.get TAR_AVS.set_mv }
    let (s, ins) := (List.range 16).foldl (fun (a : State × List PredIn) i =>
      let (s, x) := a.1.normalise i (a.1.predIn (reads.any fun r => r.island.val == i) i)
      (s, a.2 ++ [x])) (s, [])
    let vmax := (ins.filterMap (·.vmin)).foldl max 0
    let v0 := if ins.any (·.vmin.isSome) then
        max (s.get TAR_V.floor_mv) (5 * ceilDiv (vmax + s.get TAR_GUARD.sram_mv) 5)
      else s.get TAR_V.floor_mv
    let s := s.updTar fun x => { x with ins := ins, v0 := v0 }
    let (pl, retire) := s.makePlan
    let s := s.planWarnings pl retire
    let s := retire.foldl State.retireIsland s
    s.orderVoltage pl

/-- AVSBus reports that the ordered voltage stands, with the mean droop-sensor readings of the islands in mV (R530). -/
def State.avsComplete (s : State) (means : List Nat) : State :=
  match s.tar.plan with
  | none => s
  | some pl =>
    match s.tar.phase with
    | .raising =>
      let s := s.put TAR_AVS.set_mv pl.voltage
      let near (m : Nat) : Bool := decide (m ≤ pl.voltage + 10 ∧ pl.voltage ≤ m + 10)
      if (List.range 16).all fun i => near (means.getD i 0) then s.updTar fun t => { t with phase := .settling } else s
    | .lowering => (s.put TAR_AVS.set_mv pl.voltage).replanEnd true
    | _ => s

/-- TAR_AVS.settle_us has passed (R530). -/
def State.avsSettled (s : State) : State := if s.tar.phase = .settling then s.tarPropose else s

/-- AVSBus reports an error, or nothing for 1 ms (R531). -/
def State.avsFail (s : State) : State :=
  if s.tar.phase = .raising ∨ s.tar.phase = .lowering then
    ((s.err TAR_ERR.avs_fail).replanEnd false).put TAR_STATUS.pending 1
  else s

/-- Both proposals have been refused (R532): the plan in force stays. -/
def State.planStays (s : State) : State :=
  let s := s.put TAR_STATUS.retry 1
  let s := (List.range 16).foldl (fun s i => match s.tar.ins[i]? with
    | some x =>
      if x.measured ∧ s.pred x (s.get ARR_ISL_CLK_PLAN.period_fs i) (s.get TAR_AVS.set_mv) < x.guard then
        s.tarWarn TAR_ISL_WARN.urgent i
      else s
    | none => s) s
  s.replanEnd true

/-- What Tarnish does when the admission of its proposal completes (R250, R532). -/
def State.tarAdmission (s : State) : State :=
  if s.tar.phase ≠ .proposed ∨ s.seq.admission.isSome then s
  else
    match s.seq.planRefused with
    | some pl =>
      let s := (s.updSeq fun q => { q with planRefused := none }).err TAR_ERR.plan_refused
      if pl.second then s.planStays
      else match s.secondPlan pl with
        | some p2 => s.orderVoltage p2
        | none => s.planStays
    | none => if s.seq.plan.isSome then (s.put TAR_STATUS.retry 0).updTar fun t => { t with phase := .admitted } else s

/-- The admitted plan comes into force at its barrier (R17, R158, R250, R530). -/
def State.tarApply (s : State) : State :=
  match s.seq.plan with
  | none => s
  | some pl =>
    let s := s.planApply.inc TAR_APPLY_CNT.count
    let s := s.updTar fun t => { t with tmax := some pl.tmax }
    let hi := pl.tmax.foldl max 0
    let s := (s.put TAR_PLAN.v_mv pl.voltage).put TAR_PLAN.tmax (min 255 hi.toNat)
    if s.tar.phase ≠ .admitted then s
    else if pl.voltage < s.get TAR_AVS.set_mv then
      (s.avsOrder pl.voltage).updTar fun t => { t with phase := .lowering, plan := some pl }
    else s.replanEnd true

/-- A write of an island number to TAR_CMD.unretire (R529). -/
def State.unretire (s : State) (i : Nat) : State := s.setBit TAR_STATUS.retired i false

/-- A write to TAR_CMD (R525, R529). -/
def State.writeTarCmd (s : State) (m v : Nat) : State :=
  let s := if woField TAR_CMD.replan m v = 1 then s.tarTrigger 7 else s
  if woField TAR_CMD.unretire m v = 1 then s.unretire (woField TAR_CMD.island m v) else s

/-- A history period ends (R534, R536): a point per island and per lane. -/
def State.historyPoint (s : State) (t : Nat) : State :=
  let s := s.at t
  let s := (List.range 16).foldl (fun s i =>
    let x := s.tarIsl i
    match x.norm with
    | none => s
    | some n =>
      let hi := (x.temps.head?.map (·.2)).getD x.temp
      let p : HistPoint := { time := s.now, norm := n, shift := x.shift, tmax := -((-hi) / 8) + s.get TAR_TEMP.headroom }
      (s.updTarIsl i fun x => { x with hist := (p :: x.hist).take 256 }).publishForecast i) s
  s.tar.eyes.foldl (fun s e => match e.2 with
    | none => s
    | some (h, w) =>
      (s.updTar fun t => { t with lanes := Sparse.upd [] t.lanes e.1 fun l =>
        (({ time := s.now, height := h, width := w } : EyePoint) :: l).take 64 }).judgeEye e.1) s

/-- 24 h without an overrun that names the island take 5 ps off its penalty (R533). -/
def State.penaltyDecay (s : State) (i : Nat) : State :=
  s.put TAR_ISL_WARN.penalty (s.get TAR_ISL_WARN.penalty i - 5) i

/-- At a slot barrier the written probe period comes into force (R221, R523); islands that do not execute have stale
readings (R522); scans of lanes that left READY end. -/
def State.probeAtBarrier (s : State) : State :=
  let p := s.get TAR_PROBE.period
  let s := if ¬ s.tar.probeDue then s
    else
      let new := s.get SEQ_BG_CTRL.vendor_period != p
      let s := (s.put SEQ_BG_CTRL.vendor_period p).updTar fun t => { t with probeDue := false }
      if new then s.updSeq fun q => { q with probe := 0 } else s
  let s := (List.range 16).foldl (fun s i =>
    if executing (s.islState i) ∧ s.get SEQ_BG_CTRL.vendor_period ≠ 0 ∨ s.bit TAR_ISL_VMIN.stale i then s
    else s.put TAR_ISL_VMIN.stale 1 i) s
  if s.tar.scans.isEmpty then s else s.scanNext

/-- A write to TAR_TARGET: clamped to 2,500 MHz to f_max, rounded down to the grid of 12.5 MHz; the field holds whole
MHz (R550). -/
def State.writeTarTarget (s : State) (m v : Nat) : State :=
  let t := s.wrReg 16 0x10 m v
  let f := clampN 2500 (if Config.grade28 then 2800 else 3200) (t.get TAR_TARGET.mhz)
  t.put TAR_TARGET.mhz (2 * f / 25 * 25 / 2)

/-- A write to TAR_V: the floor within 650 to 850, the ceiling within the floor to 850 (R550). -/
def State.writeTarV (s : State) (m v : Nat) : State :=
  let t := s.wrReg 16 0x14 m v
  let f := clampN 650 850 (t.get TAR_V.floor_mv)
  (t.put TAR_V.floor_mv f).put TAR_V.ceil_mv (clampN f 850 (t.get TAR_V.ceil_mv))

/-- A write to TAR_PROBE (R523). -/
def State.writeTarProbe (s : State) (m v : Nat) : State :=
  (s.wrReg 16 0x2C m v).updTar fun t => { t with probeDue := true }

end Sys2Proof.Machine
end

