-- ==== Sys2Proof/Machine/Gnomon.lean ====
section
/-! DEFINITION. Gnomon: states, numbering, fast commands, accepts and the named-slot matcher's cancellations (R24 to R43,
R644). -/

namespace Sys2Proof.Machine

/-- Reports a GNO_ERR bit. -/
def State.gnoErr (s : State) (f : Fld) : State := s.err f

/-- Some write waits to take effect (R30). -/
def State.publishShadow (s : State) : State :=
  let g := s.gno
  s.put GNO_STATUS.shadow_pending (b2n (g.oldNom.isSome || g.oldTol.isSome || g.oldPhase.isSome || g.oldLen.isSome ||
    g.oldOffset.isSome || g.oldLat.isSome))

/-- A write to GNO_XCLK_NOM, GNO_TRACK, GNO_PHASE, GNO_ORBIT_LEN, GNO_TAG_OFFSET or GNO_ACCEPT_LAT waits (R30); the last
stores 1 for 0. -/
def State.writeShadowed (s : State) (off m v : Nat) : State :=
  let keep (o : Option Nat) (f : Fld) : Option Nat := if writes f m then some (o.getD (s.get f)) else o
  let g := s.gno
  let g := match off with
    | 0x08 => { g with oldNom := keep g.oldNom GNO_XCLK_NOM.nom_hz }
    | 0x0C => { g with oldTol := keep g.oldTol GNO_TRACK.tol_ppm }
    | 0x1C => { g with oldPhase := keep g.oldPhase GNO_PHASE.step }
    | 0x20 => { g with oldLen := keep g.oldLen GNO_ORBIT_LEN.length }
    | 0x24 => { g with oldOffset := keep g.oldOffset GNO_TAG_OFFSET.offset }
    | _ => { g with oldLat := keep g.oldLat GNO_ACCEPT_LAT.slots }
  let s : State := { s.wrReg 1 off m v with gno := g }
  let s := if off = 0x28 ∧ s.get GNO_ACCEPT_LAT.slots = 0 then s.put GNO_ACCEPT_LAT.slots 1 else s
  s.publishShadow

/-- GNO_ORBIT_LEN and GNO_TAG_OFFSET in force (R30). -/
def State.orbitLen (s : State) : Nat := s.gno.oldLen.getD (s.get GNO_ORBIT_LEN.length)
def State.tagOffset (s : State) : Nat := s.gno.oldOffset.getD (s.get GNO_TAG_OFFSET.offset)

/-- Cancels one pending named-slot action and reports it to its owner and to the error queue (R34). -/
def State.cancelNamed (s : State) (o : Owner) : State :=
  let s := s.gnoErr GNO_ERR.named_cancelled
  match o with
  | .plan => s
  | .facet f => (s.disarmFacet f).facetErr EDG_FERR.named_cancelled f
  | .prism => (s.disarm .prism).prismCancelled
  | .exchange => s.exchangeCancelled
  | .cset n => s.csCancelled n
  | .epoch => (s.disarm .epoch).epochCancelled
  | .power => s

/-- Cancels every named-slot action still pending. -/
def State.cancelAllNamed (s : State) : State := s.gno.named.foldl (fun s n => s.cancelNamed n.owner) s

/-- A write of 1 to GNO_CMD.cancel_named cancels every pending action, armed by name or not (R43). -/
def State.cancelCommand (s : State) : State :=
  let s := s.cancelAllNamed
  s.gno.unnamed.foldl (fun s n => s.cancelNamed n.owner) s

/-- A timeline discontinuity (R34). -/
def State.discontinuity (s : State) : State := ((s.inc GNO_DISCONT.count).cancelAllNamed).worgaDiscontinuity

/-- An accept is refused (R41). -/
def State.refuseAccept (s : State) : State := (s.inc GNO_REFUSED_CNT.count).gnoErr GNO_ERR.accept_refused

/-- Sampled words and an armed ORBIT_RESET are discarded; a discarded ACCEPT counts as refused (R38). -/
def State.discardWords (s : State) : State :=
  let ws := s.gno.words ++ s.gno.effect.toList
  let s := s.updGno fun g => { g with words := [], effect := none, presented := none }
  let s := ws.foldl (fun s w => if w.word % 256 = 2 then s.refuseAccept else s) s
  s.put GNO_STATUS.orbit_reset_pending 0

/-- The numbering ends with the timeline. -/
def State.unnumber (s : State) : State :=
  ((s.updGno fun g => { g with segs := [] }).put GNO_STATUS.numbered 0).put GNO_INDEX.valid 0

/-- The timeline ends in OFF or LOST (R29, R34, R38, R136). -/
def State.endTimeline (s : State) (st : Nat) : State :=
  let tagged := s.tagging
  let had := s.hasTimeline
  let s := (s.put GNO_STATUS.state st).discardWords
  if ¬ had then s
  else
    let s := (s.dropLater true).prismLost.unnumber
    let s := if tagged then s.worgaTimelineLost else s
    s.discontinuity

/-- Entry to ACQUIRE at instant `t`: waiting writes to GNO_XCLK_NOM, GNO_TRACK and GNO_PHASE are taken (R30). -/
def State.enterAcquire (s : State) (t : Nat) : State :=
  let s := (s.at t).put GNO_STATUS.state 1
  let s := s.updGno fun g => { g with oldNom := none, oldTol := none, oldPhase := none, acquireAt := s.now }
  s.publishShadow.glintsIdle

/-- A write to GNO_CTRL at instant `t` (R28): enable 0 leads to OFF from any state, 1 leads from OFF to ACQUIRE. -/
def State.writeGnoCtrl (s : State) (t m v : Nat) : State :=
  let s := (s.at t).wrReg 1 0 m v
  let on := s.bit GNO_CTRL.enable
  if on ∧ s.gnoState = 0 then s.enterAcquire t
  else if ¬ on ∧ s.gnoState ≠ 0 then s.endTimeline 0
  else s

/-- The published period of a window edge: the reciprocal of nom × (1 ± tol) in whole fs (R25). -/
def windowPeriod (nom : Nat) (ppm : Nat) : Nat := 10 ^ 21 / (nom * ppm)

/-- The condition of R28 holds in ACQUIRE at instant `t`: UNNUMBERED, with the periods published and every check that
depends on them run again (R25). -/
def State.acquired (s : State) (t : Nat) : State :=
  if s.gnoState ≠ 1 then s
  else
    let s := (s.at t).put GNO_STATUS.state 2
    let nom := s.gno.oldNom.getD (s.get GNO_XCLK_NOM.nom_hz)
    let tol := s.gno.oldTol.getD (s.get GNO_TRACK.tol_ppm)
    let s := (s.put GNO_PERIOD_MIN.period_fs (windowPeriod nom (1000000 + tol))).put GNO_PERIOD_MAX.period_fs
      (windowPeriod nom (1000000 - tol))
    let s := s.put GNO_ACQ_TIME.us (min 0xFFFFFFFF ((s.now - s.gno.acquireAt) / 1000000000))
    let s := forN 224 s.prismBudget fun n s => s.publishDl n
    s.admissionOnPeriods.worgaPeriods.readoutPeriods

/-- The loss condition (R28): edges missing or misplaced, or the frequency outside the window. -/
def State.xclkLoss (s : State) (t : Nat) (freq : Bool) : State :=
  let st := s.gnoState
  if st ≠ 2 ∧ st ≠ 3 then s
  else
    let s := (s.at t).gnoErr GNO_ERR.xclk_lost
    let s := if freq then s.gnoErr GNO_ERR.freq_window else s
    if st = 3 ∧ s.bit GNO_CTRL.holdover_en ∧ s.get GNO_HOLDOVER.limit ≠ 0 then
      ((s.put GNO_STATUS.state 4).updGno fun g => { g with holdSlots := 0 }).gnoErr GNO_ERR.holdover_entered
    else (s.gnoErr GNO_ERR.lost_entered).endTimeline 5

/-- 64 consecutive good edges before the limit (R28). -/
def State.holdoverRecovery (s : State) : State :=
  if s.gnoState = 4 ∧ s.gno.holdSlots < s.get GNO_HOLDOVER.limit then s.put GNO_STATUS.state 3 else s

/-- The limit of slots in HOLDOVER is reached (R28). -/
def State.holdoverExpiry (s : State) (t : Nat) : State :=
  if s.gnoState = 4 ∧ s.get GNO_HOLDOVER.limit ≤ s.gno.holdSlots then
    ((s.at t).gnoErr GNO_ERR.lost_entered).endTimeline 5
  else s

/-- LOST to ACQUIRE: edges are present with auto_relock set, or reacquire is written (R28). -/
def State.relock (s : State) (t : Nat) (auto : Bool) : State :=
  if s.gnoState = 5 ∧ (¬ auto ∨ s.bit GNO_CTRL.auto_relock) then s.enterAcquire t else s

/-- A write to GNO_FC_INJECT (R38). -/
def State.fcInject (s : State) (word : Nat) : State :=
  match s.gno.inject with
  | some _ => (s.inc GNO_COLLISION_CNT.count).gnoErr GNO_ERR.fc_collision
  | none => (s.updGno fun g => { g with inject := some (word % 65536) }).put GNO_STATUS.inject_pending 1

/-! ### The slot reference edge -/

/-- A reserved code (R37). -/
def fcReserved (code : Nat) : Bool := (0x07 ≤ code && code ≤ 0x0F) || 0x20 ≤ code

/-- The word sampled at the edge with serial `serial`: the one presented at least 2 timing-facet cycles before, else the
injected one; a word presented later waits for the next edge (R37, R38, R102). -/
def State.sampleWord (s : State) (serial : Nat) : State :=
  let ready := if 2 ≤ s.gno.setup then s.gno.presented else none
  let w := ready.or s.gno.inject
  let s := if ready.isNone ∧ s.gno.inject.isSome then
      (s.updGno fun g => { g with inject := none }).put GNO_STATUS.inject_pending 0
    else s
  let s := s.updGno fun g => { g with presented := if ready.isSome then none else g.presented, sampledPrev := g.sampled, sampled := w.getD 0 }
  match w with
  | none => s
  | some w =>
    let code := w % 256
    if code = 0 then s
    else
      let s := if code < 0x20 then s.inc GNO_FC_CNT.count code else s
      if fcReserved code then (s.inc GNO_UNKNOWN_CNT.count).gnoErr GNO_ERR.fc_unknown
      else if ¬ (s.get GNO_FC_ENABLE.mask).testBit (code - 1) then s
      else
        let lat := s.gno.oldLat.getD (s.get GNO_ACCEPT_LAT.slots)
        let x : FcWord := { word := w, serial := serial, target := (serial + 2 ^ 64 - lat) % 2 ^ 64 }
        s.updGno fun g => { g with words := g.words ++ [x] }

/-- Shows the identity of the crossing tagged last (R36, R44). -/
def State.publishTag (s : State) (g : Tag) : State :=
  let s := s.put GNO_SERIAL_LO.serial (g.serial % 2 ^ 32)
  if g.numbered then
    ((s.put GNO_INDEX.index g.index).put GNO_INDEX.valid 1).put GNO_ORBIT_LO.orbit (g.orbit % 2 ^ 32)
  else s.put GNO_INDEX.valid 0

/-- Crossing tags kept for accepts: the latest 4,100. -/
def tagsKept : Nat := 4100

/-- A numbering whose index-0 crossing lies 2 to the power 62 crossings back is taken on from a later crossing with index 0, so
that the wrap of the serial never changes a name (R35). -/
def State.refreshSeg (s : State) (serial orbit : Nat) : State :=
  match segOf s.gno.segs serial with
  | some g => if serialAge g.zero serial < 2 ^ 62 ∨ 2 ^ 63 ≤ serialAge g.zero serial then s
    else s.updGno fun x => { x with segs := ({ g with start := serial, zero := serial, orbit } :: x.segs).take 512 }
  | none => s

/-- A slot reference edge at instant `t` (R24, R31, R32, R35, R38): it tags a crossing, advances the serial and samples one
command word. `meas` is the slot period measured over the last 1,024 edges, where a measurement ends. -/
def State.slotEdge (s : State) (t : Nat) (meas : Option Nat) : State :=
  if ¬ s.hasTimeline then s
  else
    let s := s.at t
    let serial := s.gno.nextSerial
    let hold := decide (s.gnoState = 4)
    let id : Option (Nat × Nat) := if s.tagging then (segOf s.gno.segs serial).map fun g => g.identity serial else none
    let tag : Tag := match id with
      | some (i, o) => { serial := serial, edge := s.now, index := i, orbit := o, numbered := true, holdover := hold }
      | none => { serial := serial, edge := s.now }
    let wrap := tag.numbered && s.gno.orbit == 2 ^ 48 - 1 && tag.orbit == 0
    let next := (serial + 1) % 2 ^ 64
    let s := s.updGno fun g =>
      { g with nextSerial := next, tags := (tag :: g.tags).take tagsKept,
               orbit := if tag.numbered then tag.orbit else g.orbit,
               holdSlots := if hold then g.holdSlots + 1 else g.holdSlots }
    let s := if wrap then s.gnoErr GNO_ERR.orbit_wrap else s
    let s := if serial = 2 ^ 64 - 1 then s.gnoErr GNO_ERR.serial_wrap else s
    let s := s.publishTag tag
    let s := if tag.numbered ∧ tag.index = 0 then s.refreshSeg serial tag.orbit else s
    let s := match meas with
      | some p => s.put GNO_PERIOD_MEAS.period_fs p
      | none => s
    let s := s.sampleWord serial
    let s := if s.tagging then s.prismTag serial tag.index hold else s
    let s := { s with edge := { s.edge with edges := s.edge.edges + 1 } }
    let s := s.updSeq fun q => { q with edgeAt := s.now, edgePromise := s.get SEQ_PROMISE_ACT.ns }
    s.turnEdge.prismEdge.eventsEnter

/-- An armed ORBIT_RESET has met its crossing: the one tagged last has index 0 (R644). -/
def State.orbitResetReady (s : State) : Bool :=
  s.bit GNO_STATUS.orbit_reset_pending && s.numbered &&
    match s.gno.tags with
    | g :: _ => g.numbered && g.index == 0 && decide (seenFrom g.serial s.gno.orAfter ≤ here)
    | [] => false

/-- The armed ORBIT_RESET acts (R644): the crossing tagged last takes orbit number 0, and the orbit number counts on by R32,
which keeps it up to the index-0 crossing of the numbering. -/
def State.orbitResetAct (s : State) : State :=
  if ¬ s.orbitResetReady then s
  else match s.gno.tags with
  | [] => s
  | g :: gs =>
    let g0 := { g with orbit := 0 }
    let old : Seg := (segOf s.gno.segs g.serial).getD { start := g.serial, zero := g.serial, length := s.orbitLen, orbit := 0 }
    let origin := if here < (old.seenFrom g.serial).zero then old.zero else g.serial
    let seg : Seg := { old with start := g.serial, zero := origin, orbit := 0 }
    let s := s.updGno fun x => { x with tags := g0 :: gs, segs := (seg :: x.segs).take 512, orbit := 0, orDiscont := true }
    (s.put GNO_STATUS.orbit_reset_pending 0).publishTag g0

/-! ### Effects of fast commands (R37 to R42) -/

/-- The actions and changes of the standing barrier have been performed (R16). -/
def State.barrierSettled (s : State) : Bool := s.gno.due.isEmpty

/-- The word with the given code stands at the barrier for its effect, and no effect that R39 puts before it is still to
come. -/
def State.effectOf (s : State) (code : Nat) : Option FcWord :=
  match s.gno.effect with
  | none => none
  | some w =>
    let first : Bool := code = 3 || code = 4 || (if code = 2 then s.gno.acceptsDue.all fun c => decide (w.target ≤ c) else s.gno.acceptsDue.isEmpty)
    if s.barrierSettled ∧ w.word % 256 = code ∧ first then some w else none

/-- The word has taken effect (R44). -/
def State.tookEffect (s : State) (w : FcWord) : State :=
  ((s.updGno fun g => { g with effect := none }).put GNO_FC_LAST.word w.word).put GNO_FC_LAST.serial_lo (w.serial % 65536)

/-- With tag offset 0 the index-0 crossing is the one tagged last, which takes its place under the new numbering (R32). -/
def State.renumberLast (s : State) (origin : Nat) : State :=
  if origin ≠ s.lastSerial then s
  else match s.gno.tags with
  | [] => s
  | g :: gs =>
    let g0 := { g with index := 0, orbit := s.gno.orbit }
    let s := s.updGno fun x => { x with tags := g0 :: gs }
    let s : State := { s with pri := { s.pri with pend := s.pri.pend.map fun p => if p.serial = origin then { p with index := 0 } else p } }
    s.publishTag { g0 with numbered := true }

/-- The timeline is numbered by a marker presented at the edge with serial `mark` (R32, R34). -/
def State.number (s : State) (mark : Nat) : State :=
  let s := s.updGno fun g => { g with oldLen := none, oldOffset := none }
  let s := s.publishShadow
  let origin := (mark + 2 + s.tagOffset) % 2 ^ 64
  let seg : Seg := { start := if origin = s.lastSerial then origin else s.gno.nextSerial, zero := origin, length := s.orbitLen, orbit := s.gno.orbit }
  let s := (s.updGno fun g => { g with segs := (seg :: g.segs).take 512 }).renumberLast origin
  let s := if s.gnoState = 2 then s.put GNO_STATUS.state 3 else s
  let s := (s.put GNO_STATUS.numbered 1).put GNO_STATUS.resync_pending 0
  s.prismNumbering.discontinuity

/-- ORBIT_MARK at its effect barrier (R32, R33). -/
def State.orbitMark (s : State) : State :=
  match s.effectOf 1 with
  | none => s
  | some w =>
    let s := s.tookEffect w
    if s.gnoState = 2 ∨ s.bit GNO_STATUS.resync_pending then s.number w.serial
    else
      let z := (w.serial + 2 + s.tagOffset) % 2 ^ 64
      match segOf s.gno.segs z with
      | some g => if (g.identity z).1 = 0 then s else (s.inc GNO_MISMATCH_CNT.count).gnoErr GNO_ERR.marker_mismatch
      | none => (s.inc GNO_MISMATCH_CNT.count).gnoErr GNO_ERR.marker_mismatch

/-- Shows the event counter (R44). -/
def State.publishEvent (s : State) : State := s.put GNO_EVENT_LO.event (s.gno.event % 2 ^ 32)

/-- An accept of a crossing, by source bit 0 external or 1 internal (R41, R42). -/
def State.accept (s : State) (serial src : Nat) : State :=
  let ok := s.tagging ∧ serialAge serial s.lastSerial ≤ 4096
  match (if ok then s.gno.tags.find? fun g => g.serial = serial ∧ g.numbered else none) with
  | none => s.refuseAccept
  | some g =>
    let new := g.event.isNone
    let ev := g.event.getD s.gno.event
    let g' := { g with event := some ev, sources := g.sources ||| 2 ^ src }
    let wrap := new && s.gno.event == 2 ^ 48 - 1
    let s := s.updGno fun x =>
      { x with tags := x.tags.map fun q => if q.serial = serial then g' else q,
               event := if new then (x.event + 1) % 2 ^ 48 else x.event }
    let s := if wrap then s.gnoErr GNO_ERR.event_wrap else s
    s.publishEvent.eventTaken g' new

/-- ACCEPT at its effect barrier (R40). -/
def State.externalAccept (s : State) : State :=
  match s.effectOf 2 with
  | none => s
  | some w => (s.tookEffect w).accept w.target 0

/-- The internal accept with the smallest serial that stands at the barrier (R39, R40). -/
def State.internalAccept (s : State) : State :=
  match s.gno.acceptsDue with
  | [] => s
  | c :: cs =>
    let least := cs.foldl min c
    let first : Bool := match s.gno.effect with
      | some w => w.word % 256 != 3 && w.word % 256 != 4 && (w.word % 256 != 2 || decide (least < w.target))
      | none => true
    if ¬ s.barrierSettled ∨ ¬ first then s
    else (s.updGno fun g => { g with acceptsDue := g.acceptsDue.erase least }).accept least 1

/-- EVENT_RESET at its effect barrier (R37). -/
def State.eventReset (s : State) : State :=
  match s.effectOf 3 with
  | none => s
  | some w => ((s.tookEffect w).updGno fun g => { g with event := 0 }).publishEvent

/-- ORBIT_RESET at its effect barrier (R644): it only arms the reset. -/
def State.orbitReset (s : State) : State :=
  match s.effectOf 4 with
  | none => s
  | some w =>
    let s := s.tookEffect w
    if s.bit GNO_STATUS.orbit_reset_pending then s
    else (s.updGno fun g => { g with orAfter := g.nextSerial }).put GNO_STATUS.orbit_reset_pending 1

/-- RESYNC at its effect barrier (R37). -/
def State.resync (s : State) : State :=
  match s.effectOf 5 with
  | none => s
  | some w => (s.tookEffect w).put GNO_STATUS.resync_pending 1

/-- CAL_REQ or a user code at its effect barrier (R37): code and arg go to the sequencer as an event. -/
def State.forward (s : State) (code : Nat) : State :=
  match s.effectOf code with
  | none => s
  | some w => (s.tookEffect w).seqFastCommand code (bits w.word 8 8)

/-! ### The slot barrier (R16, R39, R163) -/

/-- An Eclipse entry or Dusk has been accepted and has not passed its commit point (R558, R564). -/
def State.powerEntering (s : State) : Bool :=
  (s.get PWR_STATUS.state == 3 || s.get PWR_STATUS.state == 5) && !s.bit PWR_STATUS.committed

/-- Run, Doze, or an entry before its commit point: the slots go on (R557, R558). -/
def State.powerLive (s : State) : Bool := s.get PWR_STATUS.state ≤ 1 || s.powerEntering

/-- A written Doze or Run comes into force (R557). -/
def State.powerAtBarrier (s : State) : State :=
  match s.pwr.mode with
  | some m => { s with pwr := { s.pwr with mode := none } }.put PWR_STATUS.state m
  | none => s

/-- The slot barrier can be passed: the one before it has been settled, its slot has opened, its effects and its side-port
accesses have been done, every executing island has arrived (R162, R164); with a timeline, a slot reference edge has come
since. -/
def State.barrierReady (s : State) : Bool :=
  s.powerLive && s.barrierDone && !s.seq.opening && s.allArrived && !s.orbitResetReady &&
    (!s.hasTimeline || s.gno.barrier != some s.lastSerial)

/-- The actions that are due at the barrier leave the matcher and the list of unnamed actions (R43). -/
def State.collectDue (s : State) : State :=
  let cur := s.slotSerial
  let live := s.hasTimeline
  let g := s.gno
  let hit (n : Named) : Bool := live && n.serial == cur
  let due := (g.named.filter hit).map (·.owner) ++ ((g.unnamed.filter fun n => decide (n.left ≤ 1)).map (·.owner)) ++
    (if s.seq.plan.isSome then [.plan] else []) ++ (if s.powerEntering then [.power] else [])
  let g := { g with named := g.named.filter fun n => !hit n,
                    unnamed := (g.unnamed.filter fun n => decide (1 < n.left)).map fun n => { n with left := n.left - 1 },
                    due := due }
  ({ s with gno := g }).put GNO_NAMED_USED.entries g.named.length

/-- A due change increases ARR_EPOCH (R170). -/
def Owner.bumps : Owner → Bool
  | .exchange | .cset _ => true
  | _ => false

/-- The word and the internal accepts whose effect stands at the barrier (R38, R40). -/
def State.collectEffects (s : State) : State :=
  let last := s.lastSerial
  let isDue (w : FcWord) : Bool := s.hasTimeline && (w.serial + 2) % 2 ^ 64 == last
  let released (a : Nat × Nat) : Bool := decide (a.2 < s.now)
  s.updGno fun g => { g with effect := g.words.find? isDue, words := g.words.filter fun w => !isDue w,
                             acceptsDue := (g.accepts.filter released).map (·.1),
                             accepts := g.accepts.filter fun a => !released a,
                             barrier := if s.hasTimeline then some last else g.barrier }

/-- The slot barrier at instant `t`, with what the reads of the recalls and of the reloads find (R318): what every unit does at the token, up to the changes that are due there (R163). -/
def State.slotBarrier (s : State) (t : Nat) (ecc : EccMap) : State :=
  if ¬ s.barrierReady then s
  else
    let s := s.at t
    let closed := s.seq.run.foreground
    let enter := s.entering
    let orbitStart := match enter with
      | some e => s.numbered && e.index == 0
      | none => false
    let s := s.stopIssue.collectDue
    let s := s.updSeq fun q => { q with penumbra := s.gno.due.contains .exchange }
    let s := if s.gno.due.any Owner.bumps then s.bumpEpoch else s
    let epoch := s.arr.bump
    let s := s.epochIncrease.islandsAtBarrier closed
    let s := s.exchangeBanks enter.isSome
    let s := s.edgeAtBarrier.cornerTurn.worgaAtBarrier
    let s := (List.range 16).foldl (fun s i => s.reloadAtBarrier i ecc) s
    let s := (s.recallAtBarrier ecc).sideAtToken.facetsAtBarrier
    let s : State := { s with lanes := s.lanes.foldl (fun (m : Sparse Lane) e => Sparse.upd {} m e.1 fun l => { l with oldDl := none }) s.lanes }
    let s := (s.updGno fun g => { g with oldLat := none }).publishShadow.glintsAtBarrier
    let s := if closed then s.drainSlot else s
    let s := (s.timersAtBarrier orbitStart).edgesAtBarrier orbitStart epoch
    let s := if s.seq.holdEnds then (s.put SEQ_ADM_STATUS.held 0).updSeq fun q => { q with holdEnds := false } else s
    let s := if s.gno.orDiscont then (s.updGno fun g => { g with orDiscont := false }).discontinuity else s
    let s := (s.collectEffects.readoutAtBarrier.probeAtBarrier.powerAtBarrier).raiseAll 20
    (s.updSeq fun q => { q with opening := true, enters := enter.map fun (e : Entered) => (e.serial, orbitStart) }).openIfReady

end Sys2Proof.Machine
end

