-- ==== Sys2Proof/Machine/Journal.lean ====
section
/-! DEFINITION. The change journal (R515 to R518). -/

namespace Sys2Proof.Machine

/-- The 40 bytes of an entry (R516). -/
def JnlEntry.bytes (e : JnlEntry) : List (BitVec 8) :=
  leBytes 4 e.seq ++ leBytes 6 e.time ++ leBytes 2 e.dawn ++ leBytes 1 e.source ++ leBytes 1 e.client ++ leBytes 1 e.sub
    ++ leBytes 1 e.flags ++ leBytes 2 e.index ++ leBytes 2 0 ++ leBytes 4 e.code ++ leBytes 8 e.old ++ leBytes 8 e.new

/-- The entry that 40 bytes describe (R516). -/
def entryOfBytes (b : List (BitVec 8)) : JnlEntry :=
  { seq := leAt b 0 4, time := leAt b 4 6, dawn := leAt b 10 2, source := leAt b 12 1, client := leAt b 13 1, sub := leAt b 14 1,
    flags := leAt b 15 1, index := leAt b 16 2, code := leAt b 20 4, old := leAt b 24 8, new := leAt b 32 8 }

/-- The journal mirror in the flash: 65,536 places of 40 bytes (R517, R571); that of an entry goes by its seq. -/
def journalBase : Nat := 0x1800000

/-- Where the flash holds the entry with a seq. -/
def journalPlace (seq : Nat) : Nat := journalBase + 40 * (seq % 65536)

/-- An entry goes to the flash. -/
def Flash.mirrorEntry (f : Flash) (e : JnlEntry) : Flash := f.program (journalPlace e.seq) e.bytes

/-- The entries that the flash holds, those whose seq belongs to their place. -/
def Flash.entries (f : Flash) : List JnlEntry :=
  (f.units journalBase (40 * 65536) 40).filterMap fun u =>
    let e := entryOfBytes (f.read (journalBase + 40 * u) 40)
    if e.seq % 65536 = u then some e else none

/-- How far entry `e` stands behind entry `d` in the order of seq, which wraps (R516). -/
def JnlEntry.behind (e d : JnlEntry) : Nat := (d.seq + 2 ^ 32 - e.seq) % 2 ^ 32

/-- The newest 4,096 entries that the flash holds, oldest first (R517). -/
def Flash.newest (f : Flash) : List JnlEntry :=
  let all := f.entries
  match all.foldl (fun (b : Option JnlEntry) e => match b with
      | none => some e
      | some d => if e.behind d < 2 ^ 31 then some d else some e) none with
  | none => []
  | some d => (all.filter fun e => decide (e.behind d < 4096)).mergeSort fun a b => decide (b.behind d ≤ a.behind d)

/-- Shows the oldest and the next seq of the ring (R519). -/
def State.publishJournal (s : State) : State :=
  match s.dic.journal, s.dic.journal.getLast? with
  | e :: _, some l => (s.put DIC_JNL_HEAD.seq e.seq).put DIC_JNL_NEXT.seq (l.seq + 1)
  | _, _ => s.put DIC_JNL_HEAD.seq (s.get DIC_JNL_NEXT.seq)

/-- One entry joins the ring: the oldest of 4,096 is overwritten, and lost where it was not mirrored (R517). -/
def State.recordEntry (s : State) (e : JnlEntry) : State :=
  let e := { e with seq := s.get DIC_JNL_NEXT.seq, time := s.usSinceDawn, dawn := s.get BOT_DAWN_CNT.count % 65536 }
  let full : Bool := decide (4096 ≤ s.dic.journal.length)
  let head := s.get DIC_JNL_HEAD.seq
  let lost : Bool := full && s.get DIC_JNL_MIRROR.seq == head
  let s := s.updDic fun d => { d with journal := (if full then d.journal.drop 1 else d.journal) ++ [e] }
  let s := s.publishJournal
  if lost then ((s.inc DIC_JNL_LOST_CNT.count).put DIC_JNL_MIRROR.seq (head + 1)).err DIC_ERR.jnl_lost else s

/-- The entries of the ring that are not in the flash yet (R517). -/
def State.unmirrored (s : State) : List JnlEntry :=
  let from_ := s.get DIC_JNL_MIRROR.seq
  s.dic.journal.filter fun e => (e.seq + 2 ^ 32 - from_) % 2 ^ 32 < 2 ^ 31

/-- The keeper mirrors the oldest entry that is not mirrored yet (R517); a write of the flash that fails shows (R580). -/
def State.journalMirror (s : State) (ok : Bool) : State :=
  match s.unmirrored with
  | [] => s
  | e :: _ =>
    if ok then
      let s : State := { s with flash := s.flash.mirrorEntry e }
      (s.put DIC_JNL_MIRROR.seq (e.seq + 1)).put DIC_STATUS.mirror_ok 1
    else ((s.put DIC_STATUS.mirror_ok 0).err DIC_ERR.mirror_fail).err BOT_ERR.flash_fail

/-- Mirrors every entry (R517, R564). -/
def State.mirrorJournal (s : State) : State := forN s.unmirrored.length s fun _ s => s.journalMirror true

/-- At Dawn after Off the newest 4,096 mirrored entries come back, and seq goes on after the last of them (R517). -/
def State.reloadJournal (s : State) : State :=
  let all := s.flash.newest
  let s := s.updDic fun d => { d with journal := all }
  let s := match all.getLast? with
    | some l => (s.put DIC_JNL_NEXT.seq (l.seq + 1)).put DIC_JNL_MIRROR.seq (l.seq + 1)
    | none => s
  s.publishJournal

/-- The entry with a seq, as DIC_JNL_DATA shows it: 0 outside the ring (R518). -/
def State.journalEntry (s : State) (seq : Nat) : List (BitVec 8) :=
  match s.dic.journal.find? (fun e => e.seq == seq) with
  | some e => e.bytes
  | none => List.replicate 40 0

/-- The ring of 163,840 bytes: the entry with seq q at byte 40 × (q mod 4,096) (R517); a place that no entry has taken
reads 0. -/
def State.journalRing (s : State) (off : Nat) : BitVec 8 :=
  match s.dic.journal.find? (fun e => e.seq % 4096 == off / 40) with
  | some e => (e.bytes[off % 40]?).getD 0
  | none => 0

/-! ### What ends a transfer (R489, R495, R515) -/

/-- The source and the client of a request as an entry names them (R483, R516); the numbering of Lantern clients is the
caller's. -/
def ReqSrc.code : ReqSrc → Nat
  | .usdo => 0
  | .rpdo => 1
  | .lantern _ _ _ => 2
  | .replay => 0

/-- The lowest-numbered enabled entry of the client table that matches an address (R483). -/
def State.clientOf (s : State) (ip : Nat) : Option Nat :=
  (List.range 16).find? fun n =>
    s.bit DIC_CLIENT_CFG.enable n && samePrefix (s.get DIC_CLIENT_CFG.prefix_ n) (s.get DIC_CLIENT_IP.ip n) ip

/-- The client byte of an entry (R516). -/
def State.clientByte (s : State) : ReqSrc → Nat
  | .lantern ip _ _ => (s.clientOf ip).getD 0xFF
  | _ => 0

/-- Records a request (R515, R516). A replayed record is not recorded (R577). -/
def State.journal (s : State) (src : ReqSrc) (index sub flags code old new : Nat) : State :=
  if src = .replay then s
  else s.recordEntry { seq := 0, time := 0, dawn := 0, source := src.code, client := s.clientByte src, sub, flags, index, code,
                       old := old % 2 ^ 64, new := new % 2 ^ 64 }

/-- Records an NMT command (R515, R516). -/
def State.journalNmt (s : State) (cs : Nat) : State :=
  s.recordEntry { seq := 0, time := 0, dawn := 0, source := 3, client := 0, sub := cs, flags := 0, index := 0, code := 0,
                  old := 0, new := 0 }

/-- The latest abort code and its object (R514). -/
def State.abortCode (s : State) (index sub code : Nat) : State :=
  if code = 0 then s
  else (((s.put DIC_LAST_ABORT.code code).put DIC_LAST_ABORT_OBJ.index index).put DIC_LAST_ABORT_OBJ.subindex sub).inc
    DIC_ABORT_CNT.count

/-- The staging area, scratchpad bank 4 (R507). -/
def stageBase : Nat := 0x1000400000

/-- The new value of an entry on a DOMAIN (R516): the length, and the checksum of the `got` bytes staged. The CRC of data that have
not all arrived is open. -/
def State.domainNew (s : State) (total got : Nat) : State × Nat :=
  if got = total then (s, total + 2 ^ 32 * crc32 (s.bytesAt stageBase total)) else (s.tookFree, total + 2 ^ 32 * s.fresh 32)

/-- The open DOMAIN write ends before its commit point (R489): the staged bytes are discarded, the end is recorded, and a
channel table that it was to write is idle again. -/
def State.dropDomain (s : State) (code : Nat) : State :=
  match s.dic.domain with
  | none => s
  | some d =>
    let idle (t : Sparse ChanTable) : Sparse ChanTable :=
      if d.index / 256 = 0x60 then Sparse.upd {} t (d.index % 256) fun t => { t with state := 0 } else t
    let s := (s.updDic fun x => { x with domain := none, tables := idle x.tables }).put DIC_STATUS.domain_open 0
    let p := s.domainNew d.total d.got
    (p.1.journal d.src d.index d.sub 5 code 0 p.2).abortCode d.index d.sub code

/-- A table that a segmented write of its scalar value holds in state 1 is idle again (R511). -/
def State.freeScalar (s : State) (index sub : Nat) (write : Bool) : State :=
  if write ∧ index / 256 = 0x60 ∧ sub = 5 then
    s.updDic fun d => { d with tables := Sparse.upd {} d.tables (index % 256) fun t => { t with state := 0 } }
  else s

/-- The open USDO transfer ends without an answer (R495): the journal records an abort. -/
def State.endUsdo (s : State) (code : Nat) : State :=
  match s.dic.usdo with
  | none => s
  | some x =>
    let s := (s.updDic fun d => { d with usdo := none }).freeScalar x.index x.sub x.write
    match s.dic.domain with
    | some d => if d.src = .usdo then s.dropDomain code
      else (s.journal .usdo x.index x.sub 4 code 0 0).abortCode x.index x.sub code
    | none => (s.journal .usdo x.index x.sub 4 code 0 0).abortCode x.index x.sub code

/-- The requests that a queue entry counts as. -/
def DicReq.size : DicReq → Nat
  | .lantern r => r.todo.length
  | _ => 1

/-- The requests queued. -/
def State.queued (s : State) : Nat := (s.dic.reqs.map DicReq.size).sum

/-- Shows the requests queued (R519). -/
def State.publishQueue (s : State) : State := s.put DIC_STATUS.queued s.queued

/-- The queue drops the requests that satisfy `p`. -/
def State.dropReqs (s : State) (p : DicReq → Bool) : State :=
  (s.updDic fun d => { d with reqs := d.reqs.filter fun r => !p r }).publishQueue

/-- The request is one of the CAN node. -/
def DicReq.isCan : DicReq → Bool
  | .lantern _ => false
  | _ => true

/-- The request is an RPDO. -/
def DicReq.isRpdo : DicReq → Bool
  | .rpdo _ _ => true
  | _ => false

/-- The request opens a USDO transfer on an object. -/
def DicReq.opens (index sub : Nat) : DicReq → Bool
  | .request i b _ => i == index && b == sub
  | _ => false

/-- The request is a segment of the open USDO transfer. -/
def DicReq.isSegment : DicReq → Bool
  | .segment _ => true
  | _ => false

/-- USDO and PDO service ends (R494, R495): the open transfer and those whose request still waits end without an answer, and the
journal records an abort of each. -/
def State.cutUsdo (s : State) : State :=
  let s := s.endUsdo 0
  (s.dic.reqs.foldl (fun s r => match r with
    | .request index sub _ => s.journal .usdo index sub 4 0 0 0
    | _ => s) s).dropReqs DicReq.isCan

/-- The node enters Initialisation (R494, R495). -/
def State.enterInit (s : State) : State := s.cutUsdo.put DIC_STATUS.nmt_hb 0

/-- A write to DIC_CTRL (R495, R519): a write of 1 to can_en enters Initialisation. -/
def State.writeDicCtrl (s : State) (m v : Nat) : State :=
  let s := s.wrReg 15 0 m v
  if (bits m 0 1 = 1 ∧ bits v 0 1 = 1) then s.enterInit else s

/-- A write to DIC_CAN_CFG, which the next reset communication takes in place of replayed values (R492, R577): a node-ID of 0 is refused (R492); the field holds no value above 127. -/
def State.writeCanCfg (s : State) (m v : Nat) : State :=
  let old := s.get DIC_CAN_CFG.node_id
  let s := s.updDic fun d => { d with defaults := d.defaults.filter fun e => e.1 != 0x2001 }
  let s := s.wrReg 15 8 m v
  if s.get DIC_CAN_CFG.node_id = 0 then s.put DIC_CAN_CFG.node_id old else s

end Sys2Proof.Machine
end

