-- ==== Sys2Proof/Machine/Ledger.lean ====
section
/-! DEFINITION. The far-side ledger: records, lane reports, life, states, the action queue and probation (18, R538 to R549;
R606, R607). -/

namespace Sys2Proof.Machine

/-- Changes the internal state of the ledger. -/
def State.updLed (s : State) (f : Ledger → Ledger) : State := { s with led := f s.led }

/-- A record. -/
def State.ledRec (s : State) (r : Nat) : LedRec := Sparse.get {} s.led.recs r

/-- Changes a record. -/
def State.updRec (s : State) (r : Nat) (f : LedRec → LedRec) : State :=
  s.updLed fun l => { l with recs := Sparse.upd {} l.recs r f }

/-- The record that a lane maps to (R539). -/
def State.laneRecord (s : State) (lane : Nat) : Option Nat :=
  match Sparse.get 0 s.led.laneRec lane with
  | 0 => none
  | r + 1 => some r

/-- The lanes of a record. -/
def State.recLanes (s : State) (r : Nat) : List Nat :=
  (s.led.laneRec.filter fun e => e.2 == r + 1).map (·.1)

/-- A record is FREE, and no lane has been attached to it since (R539). -/
def LedRec.isFree (x : LedRec) : Bool := x.state == 0 && !x.attached

/-- The first record number, below 1,024, that satisfies `p`. -/
def State.findRec (s : State) (p : Nat → LedRec → Bool) : Option Nat := (List.range 1024).find? fun r => p r (s.ledRec r)

/-- Maps a lane to a record, or unmaps it (R539). -/
def State.mapLane (s : State) (lane : Nat) (r : Option Nat) : State :=
  let s := s.updLed fun l => { l with laneRec := Sparse.set 0 l.laneRec lane ((r.map (· + 1)).getD 0) }
  (s.put LED_LANE_REC.record (r.getD 0) lane).put LED_LANE_REC.valid (b2n r.isSome) lane

/-- A lane leaves its record; a record left without lanes is marked (R539, R541). -/
def State.leaveRecord (s : State) (lane : Nat) : State :=
  match s.laneRecord lane with
  | none => s
  | some r =>
    let s := s.mapLane lane none
    if (s.recLanes r).isEmpty then s.updRec r fun x => { x with emptied := true } else s

/-- Of two records, the one with the smaller ledger clock at offset 60, the lower number first (R607). -/
def State.oldestOf (s : State) (st : Nat) : Option Nat :=
  (List.range 1024).foldl (fun o r =>
    if (s.ledRec r).state ≠ st then o
    else match o with
      | none => some r
      | some q => if (s.ledRec r).clock < (s.ledRec q).clock then some r else some q) none

/-- A record for a new identity (R539, R606, R607): a FREE one, or one that is recycled; none where there is none. -/
def State.allocRecord (s : State) : Option (State × Nat) :=
  match s.findRec fun _ x => x.isFree with
  | some r => some (s, r)
  | none =>
    match (s.oldestOf 6).orElse fun _ => s.oldestOf 5 with
    | none => none
    | some r =>
      let s := (s.recLanes r).foldl (fun s n => s.mapLane n none) s
      let s := s.report 17 r 0xF004 (s.ledRec r).identity
      some (s.updRec r fun _ => {}, r)

/-- Opens a record for the module whose identity record is `p` (R62, R539). -/
def State.openRecord (s : State) (r : Nat) (p : List (BitVec 8)) : State :=
  s.updRec r fun _ =>
    { identity := leAt p 0 8, moduleType := leAt p 8 2, fwVersion := leAt p 10 2, ratedHours := leAt p 16 4,
      ratedHits := leAt p 20 4, ratedDose := leAt p 24 4, temp := 0x8000 }

/-- A lane is attached to a record, which is present (R539). -/
def State.attach (s : State) (lane r : Nat) : State :=
  (s.mapLane lane (some r)).updRec r fun x => { x with attached := true, present := true, emptied := false }

/-- An identity record (R539, R542, R607). -/
def State.ledIdentity (s : State) (lane : Nat) (p : List (BitVec 8)) (changed : Bool) : State :=
  let id := leAt p 0 8
  let held := s.laneRecord lane
  let s := match held with
    | some r =>
      if ¬ changed ∧ (s.ledRec r).identity = id then
        s.updRec r fun x => { x with present := true, attached := x.attached || !x.present || x.state == 0 }
      else
        let s := s.leaveRecord lane
        match s.findRec fun _ x => !x.isFree && x.identity == id with
        | some q => s.attach lane q
        | none => match s.allocRecord with
          | some (s, q) => (s.openRecord q p).attach lane q
          | none => s.report 17 lane 0xF005 id
    | none =>
      match s.findRec fun _ x => !x.isFree && x.identity == id with
      | some q => s.attach lane q
      | none => match s.allocRecord with
        | some (s, q) => (s.openRecord q p).attach lane q
        | none => s.report 17 lane 0xF005 id
  match s.laneRecord lane with
  | some r => if leAt p 29 1 % 2 = 0 then s.updRec r fun x => { x with temp := 0x8000 } else s
  | none => s

/-- An absence report (R539). -/
def State.ledAbsent (s : State) (lane : Nat) : State :=
  match s.laneRecord lane with
  | none => s
  | some r =>
    if (s.recLanes r).any fun n => s.bit FLN_STATUS.module_present n then s
    else s.updRec r fun x => { x with present := false }

/-- Telemetry or hits that no record takes (R543, R544). -/
def State.orphan (s : State) (lane : Nat) : State := (s.inc LED_ORPHAN_CNT.count).err LED_ERR.orphan 0 lane

/-- A telemetry value (R65, R543). -/
def State.ledTelemetry (s : State) (lane quantity group value : Nat) : State :=
  match s.laneRecord lane with
  | none => s.orphan lane
  | some r =>
    if 8 ≤ group then s.orphan lane
    else s.updRec r fun x =>
      if quantity = 1 then { x with bias := ofInt 16 (toInt 32 value / 10) }
      else if quantity = 2 then { x with currents := Sparse.set 0 x.currents group (value % 2 ^ 32) }
      else { x with temp := value % 65536 }

/-- The lane reports and the telemetry of a tick (R542). -/
def State.ledReports (s : State) : State :=
  let reports := s.ledIn
  let s : State := { s with ledIn := [] }
  let s := reports.foldl (fun s r => match r with
    | .identity n p c _ => s.ledIdentity n p c
    | .absent n => s.ledAbsent n
    | .telemetry .. => s) s
  reports.foldl (fun s r => match r with
    | .telemetry n q g v => s.ledTelemetry n q g v
    | _ => s) s

/-- The weight of a record's temperature band, in units of 1/256 (R542). -/
def State.tempWeight (s : State) (x : LedRec) : Nat :=
  if ¬ s.bit LED_POLICY.temp_weight then 256
  else
    let t := toInt 16 (if x.temp = 0x8000 then s.get LED_DEF_TEMP.temp else x.temp)
    let b := ((List.range 8).find? fun b => decide (t ≤ 100 * s.getInt LED_TWEIGHT.upper b)).getD 7
    s.get LED_TWEIGHT.weight b

/-- A record accumulates in its state (R540). -/
def accumulates (st : Nat) : Bool := 1 ≤ st && st ≤ 4

/-- One second of accumulation (R542). -/
def State.accumulate (s : State) (x : LedRec) : LedRec :=
  if ¬ accumulates x.state ∨ ¬ x.present then x
  else
    let q := x.q + s.tempWeight x
    let charge : Int := (x.currents.map fun e => toInt 32 e.2).sum
    let dose := min (2 ^ 64 - 1) ((x.dose : Int) + charge).toNat
    { x with rawS := min 0xFFFFFFFF (x.rawS + 1), effS := min 0xFFFFFFFF (x.effS + q / 256), q := q % 256, dose := dose }

/-- life of a record (R545). -/
def State.lifeOf (s : State) (x : LedRec) : Nat :=
  let c := s.get LED_POLICY.components
  let part (b num den : Nat) : Nat := if c.testBit b ∧ den ≠ 0 then 65536 * num / den else 0
  min 0xFFFFFFFF (max (part 0 x.effS (3600 * x.ratedHours))
    (max (part 1 x.hits (10 ^ 9 * x.ratedHits)) (part 2 x.dose (10 ^ 6 * x.ratedDose))))

/-- Posts a point of a record, or holds it while the queue is full (R546). -/
def State.postPoint (s : State) (r p : Nat) : State :=
  if s.led.queue.length < 16 then
    ((s.updLed fun l => { l with queue := l.queue ++ [(r, p)] }).put LED_STATUS.actq (s.led.queue.length + 1)).report
      17 r 0xF001 p
  else (s.updLed fun l => { l with held := l.held ++ [(r, p)] }).err LED_ERR.actq_full 0 r

/-- The points that are held are posted again (R546). -/
def State.repost (s : State) : State :=
  let h := s.led.held
  h.foldl (fun s e => s.postPoint e.1 e.2) (s.updLed fun l => { l with held := [] })

/-- A record enters PROBATION (R541, R548). -/
def State.enterProbation (s : State) (r : Nat) : State :=
  (s.updRec r fun x => { x with state := 1, probLeft := s.get LED_PROBATION.s, exitDone := false, exitPosted := false }).postPoint
    r 0

/-- The state change of a record at the tick, the highest row that holds (R541). -/
def State.recordState (s : State) (r : Nat) : State :=
  let x := s.ledRec r
  let st := x.state
  let s :=
    if (st = 5 ∨ st = 6) ∧ x.forget then
      ((s.recLanes r).foldl (fun s n => s.mapLane n none) s).updRec r fun _ => {}
    else if (st ≠ 0 ∧ st ≠ 6) ∧ x.emptied then s.updRec r fun x => { x with state := 6, present := false }
    else if accumulates st ∧ ¬ x.present then s.updRec r fun x => { x with state := 5 }
    else if st = 0 ∧ x.attached then s.enterProbation r
    else if (2 ≤ st ∧ st ≤ 6) ∧ x.attached then s.enterProbation r
    else if (2 ≤ st ∧ st ≤ 4) ∧ x.woken then s.enterProbation r
    else if st = 1 ∧ x.exitDone then
      let st' := if x.eolDone ∧ s.get LED_EOL.life ≤ x.life then 4 else if x.warnDone ∧ s.get LED_WARN.life ≤ x.life then 3 else 2
      s.updRec r fun y => { y with state := st' }
    else if st = 2 ∧ s.get LED_WARN.life ≤ x.life then (s.updRec r fun x => { x with state := 3, warnDone := true }).postPoint r 1
    else if (st = 2 ∨ st = 3) ∧ s.get LED_EOL.life ≤ x.life then
      (s.updRec r fun x => { x with state := 4, eolDone := true }).postPoint r 2
    else s
  s.updRec r fun x => { x with attached := false, forget := false, woken := false, emptied := false, exitDone := false }

/-- Counts down the probation of a record (R548). -/
def State.countProbation (s : State) (r : Nat) : State :=
  let x := s.ledRec r
  if x.state ≠ 1 then s
  else
    let good := (s.recLanes r).all fun n => s.bit FLN_STATUS.module_present n && !Sparse.get false s.led.missed n
    let left := if ¬ good then s.get LED_PROBATION.s
      else if s.bit LED_CTRL.hold ∧ x.probLeft ≠ 0 then max 1 (x.probLeft - 1) else x.probLeft - 1
    s.updRec r fun x => { x with probLeft := left, exitPosted := x.exitPosted && left == 0 }

/-- Records in use (R551). -/
def State.publishUsed (s : State) : State :=
  s.put LED_STATUS.used ((s.led.recs.filter fun e => e.2.state != 0 || e.2.attached).length)

/-- The ledger's tick, once per second of the ring clock (R542). -/
def State.ledgerTick (s : State) (t : Nat) : State :=
  if ¬ s.bit LED_CTRL.enable then s
  else
    let s := s.at t
    let s := (s.put LED_CLOCK.s (s.get LED_CLOCK.s + 1)).ledReports
    let used := s.led.recs.map (·.1)
    let clock := s.get LED_CLOCK.s
    let s := used.foldl (fun s r => s.updRec r fun x =>
      let x := s.accumulate x
      { x with life := s.lifeOf x, clock := if x.present then clock else x.clock }) s
    let s := s.repost
    let s := used.foldl (fun s r => s.recordState r) s
    let s := used.foldl (fun s r => s.countProbation r) s
    (s.updLed fun l => { l with missed := [] }).publishUsed

/-- prob_left of a record has reached 0: point 3 is posted (R548). -/
def State.probationExpiry (s : State) (r : Nat) : State :=
  let x := s.ledRec r
  if x.state = 1 ∧ x.probLeft = 0 ∧ ¬ x.exitPosted then (s.updRec r fun x => { x with exitPosted := true }).postPoint r 3
  else s

/-- A write to LED_HIT_ADD_HI by initiator `ini` (R544). -/
def State.hitAdd (s : State) (ini hi : Nat) : State :=
  let lane := Sparse.get 0 s.led.hitLane ini
  let n := Sparse.get 0 s.led.hitLow ini + 2 ^ 32 * (hi % 2 ^ 32)
  match s.laneRecord lane with
  | some r => s.updRec r fun x => { x with hits := min (2 ^ 64 - 1) (x.hits + n) }
  | none => s.orphan lane

/-- A read of LED_ACTQ removes the head of the action queue (R546). -/
def State.actqPop (s : State) : State :=
  match s.led.queue with
  | [] => s
  | (r, p) :: q =>
    (s.updLed fun l => { l with queue := q, work := l.work ++ [{ record := r, point := p }] }).put LED_STATUS.actq q.length

/-- The word that a read of LED_ACTQ returns (R546). -/
def State.actqWord (s : State) : Nat :=
  match s.led.queue with
  | [] => 0
  | (r, p) :: _ => r + p * 2 ^ 12 + 2 ^ 31

/-- A write to LED_ACTQ_DONE (R546, R548). -/
def State.actqDone (s : State) (r p : Nat) (failed : Bool) : State :=
  let s := s.updLed fun l => { l with work := l.work.filter fun w => !(w.record == r && w.point == p) }
  let s := if failed then s.err LED_ERR.action_fail 0 r else s
  let x := s.ledRec r
  if p ≠ 3 ∨ x.state ≠ 1 then s
  else if failed then s.updRec r fun x => { x with probLeft := s.get LED_PROBATION.s, exitPosted := false }
  else s.updRec r fun x => { x with exitDone := true }

/-- Forget is written for a record (R541). -/
def State.forgetRec (s : State) (r : Nat) : State := s.updRec r fun x => { x with forget := x.state == 5 || x.state == 6 }

/-- The 64-byte image of a record (R538). -/
def State.recImage (s : State) (r : Nat) : List (BitVec 8) :=
  let x := s.ledRec r
  leBytes 8 x.identity ++ leBytes 2 x.moduleType ++ leBytes 2 x.fwVersion ++
    leBytes 1 (x.state + 8 * b2n x.warnDone + 16 * b2n x.eolDone + 32 * b2n x.present + 64 * x.raises) ++
    leBytes 1 (s.recLanes r).length ++ leBytes 2 x.probLeft ++ leBytes 4 x.ratedHours ++ leBytes 4 x.ratedHits ++
    leBytes 4 x.ratedDose ++ leBytes 4 x.rawS ++ leBytes 4 x.effS ++ leBytes 4 x.life ++ leBytes 8 x.hits ++
    leBytes 8 x.dose ++ leBytes 2 x.temp ++ leBytes 2 x.bias ++ leBytes 4 x.clock

/-- The record that a 64-byte image describes (R538). -/
def recOfImage (b : List (BitVec 8)) : LedRec :=
  let f := leAt b 12 1
  { identity := leAt b 0 8, moduleType := leAt b 8 2, fwVersion := leAt b 10 2, state := f % 8, warnDone := f.testBit 3,
    eolDone := f.testBit 4, present := f.testBit 5, raises := f / 64, probLeft := leAt b 14 2, ratedHours := leAt b 16 4,
    ratedHits := leAt b 20 4, ratedDose := leAt b 24 4, rawS := leAt b 28 4, effS := leAt b 32 4, life := leAt b 36 4,
    hits := leAt b 40 8, dose := leAt b 48 8, temp := leAt b 56 2, bias := leAt b 58 2, clock := leAt b 60 4 }

/-- The ledger's mirror in the flash, two copies of 128 KiB (R571). -/
def ledgerBase (copy : Nat) : Nat := 0x1B00000 + 0x20000 * copy

/-- One copy of the mirror is erased and programmed: the images of the records at 64 bytes each, the record of each mapped lane, two
bytes a lane, and LED_CLOCK (R538, R549, R559). -/
def State.mirrorCopy (s : State) (copy : Nat) (f : Flash) : Flash :=
  let b := ledgerBase copy
  let f := s.led.recs.foldl (fun f e => f.program (b + 64 * e.1) (s.recImage e.1)) (f.erase b 0x20000)
  let f := s.led.laneRec.foldl (fun f e => f.program (b + 0x10000 + 2 * e.1) (leBytes 2 (e.2 - 1))) f
  f.program (b + 0x10200) (leBytes 4 (s.get LED_CLOCK.s))

/-- The copy that Dawn reads: the first, or the second where the first has no clock. -/
def Flash.ledgerCopy (f : Flash) : Nat := if leNat (f.read (ledgerBase 0 + 0x10200) 4) = 0xFFFFFFFF then 1 else 0

/-- The records that a copy holds. -/
def Flash.records (f : Flash) (copy : Nat) : Sparse LedRec :=
  (f.units (ledgerBase copy) 0x10000 64).foldl
    (fun t r => Sparse.set {} t r (recOfImage (f.read (ledgerBase copy + 64 * r) 64))) []

/-- The records of the lanes, plus 1, that a copy holds. -/
def Flash.laneRecords (f : Flash) (copy : Nat) : Sparse Nat :=
  (f.units (ledgerBase copy + 0x10000) 0x200 2).foldl
    (fun t n => Sparse.set 0 t n (leNat (f.read (ledgerBase copy + 0x10000 + 2 * n) 2) % 1024 + 1)) []

/-- The ledger's clock that a copy holds; an erased one counts 0. -/
def Flash.ledgerClock (f : Flash) (copy : Nat) : Nat :=
  let n := leNat (f.read (ledgerBase copy + 0x10200) 4)
  if n = 0xFFFFFFFF then 0 else n

/-- A write to LED_SEL copies the record's image into LED_REC (R551). -/
def State.ledgerSelect (s : State) (r : Nat) : State :=
  let img := s.recImage r
  forN 16 (s.put LED_SEL.record r) fun i t => t.put LED_REC.image (leAt img (4 * i) 4) i

/-- Every record in service goes back to PROBATION at the next tick: wake from Eclipse, or Dawn after Off (R541). -/
def State.ledgerWake (s : State) : State :=
  s.updLed fun l => { l with recs := l.recs.map fun e => (e.1, if 2 ≤ e.2.state ∧ e.2.state ≤ 4 then { e.2 with woken := true } else e.2) }

end Sys2Proof.Machine
end

