-- ==== Sys2Proof/Machine/Power.lean ====
section
/-! DEFINITION. The power manager: Doze, Eclipse, Dusk and the resets (19, R553 to R567). -/

namespace Sys2Proof.Machine

/-- Changes the power manager's internal state. -/
def State.updPwr (s : State) (f : Power → Power) : State := { s with pwr := f s.pwr }

/-- PWR_STATUS.state (R579). -/
def State.powerState (s : State) : Nat := s.get PWR_STATUS.state

/-- Every domain runs: neither held in reset, nor off, nor in Eclipse, nor after Dusk (R554, R564 to R566, R620). -/
def State.awake (s : State) : Bool := !s.pwr.held && !s.pwr.gated && s.powerState != 2 && s.powerState != 6

/-- A command of a unit outside the always-on domain acts only while the domains run (R554). -/
def State.live (s : State) (f : State → State) : State := if s.awake then f s else s

/-- A unit of the always-on domain acts unless the device is held in reset or Dusk is complete (R564, R566). -/
def State.alive (s : State) (f : State → State) : State := if s.pwr.held || s.powerState == 6 then s else f s

/-- A unit of the always-on domain that no halt of the keeper stops acts unless the device is held in reset (R466, R566). -/
def State.powered (s : State) (f : State → State) : State := if s.pwr.held then s else f s

/-! ### Commands (R557, R558, R564) -/

/-- Reports a PWR_ERR bit. -/
def State.pwrErr (s : State) (f : Fld) : State := s.err f

/-- A write of 1 to PWR_CMD.doze (R557). -/
def State.powerDoze (s : State) : State :=
  if s.powerState = 0 then s.updPwr fun p => { p with mode := some 1 } else s.pwrErr PWR_ERR.cmd_refused

/-- An entry or Dusk is accepted (R558, R564, step 1). -/
def State.powerEnter (s : State) (st : Nat) : State :=
  let from_ := s.powerState
  let s := s.updPwr fun p => { p with left := from_, step := 1, past := false, mode := none,
                                      islands := bitSet 16 fun i => executing (s.islState i) }
  (s.put PWR_STATUS.state st).put PWR_STATUS.committed 0

/-- A write of 1 to PWR_CMD.eclipse (R557, R558). -/
def State.powerEclipse (s : State) : State :=
  if s.powerState ≤ 1 then s.powerEnter 3 else s.pwrErr PWR_ERR.cmd_refused

/-- A write of 1 to PWR_CMD.dusk (R557, R564): from Eclipse it commits at once and starts at step 5. -/
def State.powerDusk (s : State) : State :=
  if s.powerState ≤ 1 then s.powerEnter 5
  else if s.powerState = 2 then
    ((s.put PWR_STATUS.state 5).put PWR_STATUS.committed 1).updPwr fun p => { p with left := 2, step := 5, past := true }
  else s.pwrErr PWR_ERR.cmd_refused

/-- A write of 1 to PWR_CMD.abort (R558, R564, R583). -/
def State.powerAbort (s : State) : State :=
  if s.powerEntering ∧ ¬ s.gno.due.contains .power then
    ((s.put PWR_STATUS.state s.pwr.left).updPwr fun p => { p with step := 0 }).pwrErr PWR_ERR.aborted
  else if s.powerEntering ∨ s.pwr.past then s.pwrErr PWR_ERR.abort_too_late
  else s

/-! ### The Eclipse entry (R558) -/

/-- Step 2, at the slot barrier: the commit point (R558). -/
def State.eclipseCommit (s : State) : State :=
  if ¬ s.isDue .power then s
  else
    let s := (s.tookDue .power).put PWR_STATUS.committed 1
    let s := s.updPwr fun p => { p with step := 2, past := true }
    let s := if s.gnoState = 0 then s else s.endTimeline 0
    let s := (s.cancelCommand.prismLost.stopIssue).dropLater true
    let s := if s.umbraState = 6 then s.drainDone else s
    s.updSeq fun q => { q with opening := false, enters := none, run := {} }

/-- Step 3: the drain of the readout engine ends; the doorbell rings at every thread that is not OFF (R558). The keeper's
own thread is not among them. -/
def State.eclipseDrain (s : State) : State :=
  if s.pwr.step ≠ 2 then s
  else
    let s := (s.add PWR_LOST_EVT_CNT.count s.rdo.events.length).updRdo fun r => { r with events := [], kept := [] }
    let on := bitSet 16 fun u => s.thState u != 0
    let s := (List.range 16).foldl (fun s u => if on.testBit u then s.raiseEvent u 19 else s) s
    (s.put PWR_THR_RESTART.threads on).updPwr fun p => { p with step := 3 }

/-- The stops of the always-on domain: the keeper, the mailbox and the System stop (R428, R554). -/
def alwaysOnStop (d : Nat) : Bool := d == 4 || d == 29 || d == 30

/-- The scratchpad loses its contents (R465). -/
def State.loseScratchpad (s : State) : State :=
  let out (a : Nat) : Bool := !(decide (0x1000000000 ≤ a) && decide (a < 0x1000800000))
  forN 8 { s with mem := s.mem.filter fun e => out e.1, poison := s.poison.keep out } fun b s => s.put SPD_BANK_STATUS.state 0 b

/-- The islands' supplies go: OFF with reason 2, the PE memory lost (R168, R554). Resident firmware's copies stand in the general
region, which keeps its contents (R559). -/
def State.islandsOff (s : State) : State :=
  let s := (List.range 16).foldl (fun s i => if s.islState i = 0 then s else s.enterIsl i 0 (some 2)) s
  { s with arr := { s.arr with mem := [], c := 0, m := 0, f := 0, x := 0, y := 0, halo := [], bumped := false } }

/-- Front lanes, rear links and readout ports lose their supply (R554). -/
def State.lanesOff (s : State) : State :=
  let s := forN 224 s fun n s => if s.laneState n = 0 then s else (s.put FLN_STATUS.tx_ready 0 n).enterLane n 0
  let s := allLinks.foldl (fun s l => if s.linkState l = 0 then s else ((s.putLinkState l 0).resetMarks l).forgetPeer l) s
  forN 16 s.worgaAddress fun k s =>
    if s.get RDO_PORT_STATUS.state k = 0 then s else (s.putPort k 0).updPort k fun p => { p with mac := none }

/-- The dictionary engine drops the requests and the transfers under way; a table that one was to write is idle again (R554). -/
def Dic.dropWork (d : Dic) : Dic :=
  { d with domain := none, handed := none, usdo := none, reqs := [], busy := false, lastDomain := none, lastUsdo := none,
           tables := (d.tables.map fun e => (e.1, if e.2.state = 1 then { e.2 with state := 0, ledger := false } else e.2)).filter
             fun e => e.2 != {} }

/-- Glint outputs at zero differential, BUSY asserted (R565). -/
def State.pinsGated (s : State) : State :=
  let s := (List.range 16).foldl (fun s n => s.updGlint n fun g => { g with level := 2, pulse := false }) s
  (s.put BCN_STATUS.busy 1).updSeq fun q => { q with busyNext := true }

/-! ### The Eclipse exit (R560 to R563) -/

/-- Steps X1 to X4 (R563). -/
def State.eclipseExit (s : State) : State :=
  let s := (s.put PWR_STATUS.state 4).put PWR_EXIT_US.us (Config.free s.freeCount % 251)
  let s := s.tookFree.updPwr fun p => { p with gated := false }
  -- X1
  let s := (List.range 32).foldl (fun s d => if 8 ≤ d ∧ d < 16 then s else s.put RNG_STOP_STATUS.asleep 0 d) s
  let s := (forN 8 s fun b s => s.put SPD_BANK_STATUS.state 1 b).put SPD_MBX_STATUS.port_r_open 1
  let s := (List.range 16).foldl (fun s i =>
    if s.pwr.islands.testBit i ∧ ¬ (s.get TAR_STATUS.retired).testBit i then s.enterIsl i 1 else s) s
  let s := forN 224 s fun n s => if s.bit FLN_CTRL.rx_en n then s.enterLane n 1 else s
  let s := allLinks.foldl (fun s l => if s.linkEnabled l then s.putLinkState l 1 else s) s
  let s := forN 16 s fun k s => if s.bit RDO_PORT_CFG.enable k then s.putPort k 1 else s
  let s := if s.bit GNO_CTRL.enable then s.enterAcquire s.now else s
  let resume := s.get PWR_FACET_RESUME_LO.facets + 2 ^ 32 * s.get PWR_FACET_RESUME_HI.facets
  let s := forN 57 s fun f s => if resume.testBit f then s.facetResume f else s
  -- X2
  let s := [0, 1].foldl (fun s k => if s.stack k = 3 then s.putStack k 2 else s) s
  -- X3
  let s := (List.range 16).foldl (fun s u => if (s.get PWR_THR_RESTART.threads).testBit u then s.startThread u else s) s
  let s := if s.seq.inPass then (s.put SEQ_BG_STATUS.pass_aborted 1).seqErr SEQ_ERR.aborted else s
  let s := s.bgDiscard
  -- X4
  ((s.tarTrigger 8).ledgerWake.put PWR_STATUS.state 0).releaseHeld

/-- Wake source `b` fires in Eclipse where it is enabled: its bit, the keeper's event and the exit (R560). -/
def State.wakes (s : State) (b : Nat) : Bool := s.powerState == 2 && (s.get PWR_WAKE_EN.en).testBit b
def State.wake (s : State) (b event : Nat) : State := ((s.setBit PWR_WAKE_SRC.src b true).raiseEvent 16 event).eclipseExit

/-- 1,024 good edges on XCLK (R560). -/
def State.wakeTiming (s : State) : State := if s.wakes 1 then s.wake 1 22 else s

/-- The keeper's timer expires (R405, R560); in Eclipse it can wake the device. -/
def State.keeperTimer (s : State) : State :=
  let ran := s.bit CPU_THR_TMR_STAT.running 4 0
  let s := s.thrTimerExpiry 16
  if ran ∧ s.wakes 3 then (s.setBit PWR_WAKE_SRC.src 3 true).eclipseExit else s

/-- The timer of a thread expires (R405, R560). -/
def State.threadTimer (s : State) (u : Nat) : State := if u = 16 then s.keeperTimer else s.thrTimerExpiry u

/-- A write of 1 to PWR_CMD.run, by the keeper or by another initiator (R557). -/
def State.powerRun (s : State) (keeper : Bool) : State :=
  if s.powerState = 1 then s.updPwr fun p => { p with mode := some 0 }
  else if s.powerState = 2 ∧ keeper then s.eclipseExit
  else s.pwrErr PWR_ERR.cmd_refused

/-! ### Resets (R566, R567, R619, R620) -/

/-- Shows again, after a reset, what the retention SRAM holds: the lane map, the records used, the journal's and the error
queue's numbers (R517, R539, R602). -/
def State.publishRetained (s : State) : State :=
  let s := s.led.laneRec.foldl (fun s e => s.mapLane e.1 (some (e.2 - 1))) s
  let s := s.publishUsed.publishErq.publishJournal
  match s.erq.entries.getLast? with
  | some e => s.put ERQ_NEXT_SEQ.seq (e.seq + 1)
  | none => s

/-- The registers of the Lantern client table, which the dictionary store keeps (R559). -/
def clientKey (k : Nat) : Bool := k / 32 / 65536 == 15 && decide (0x100 ≤ k / 32 % 65536)

/-- The records and the lane map that the retention SRAM has kept (R538, R559). -/
def Ledger.kept (l old : Ledger) : Ledger := { l with recs := (old.recs.map fun e => (e.1, e.2.kept)).filter fun e => e.2 != {}, laneRec := old.laneRec }

/-- The sensor and eye histories that the retention SRAM has kept (R522, R559). -/
def Tarnish.kept (t old : Tarnish) : Tarnish :=
  { t with islands := (old.islands.map fun e => (e.1, { ({} : TarIsland) with hist := e.2.hist })).filter fun e => e.2 != {},
           lanes := old.lanes }

/-- The contents of the retention SRAM go from one state to another (R559), with what survives every reset but a power-on
one (R619, R620). -/
def State.retain (s old : State) : State :=
  let s : State := { s with
    erq := { s.erq with entries := old.erq.entries }
    led := s.led.kept old.led
    tar := s.tar.kept old.tar
    dic := { s.dic with journal := old.dic.journal, defaults := old.dic.defaults }
    csr := old.csr.keep clientKey }
  let s := (s.put DIC_JNL_NEXT.seq (old.get DIC_JNL_NEXT.seq)).put DIC_JNL_MIRROR.seq (old.get DIC_JNL_MIRROR.seq)
  let s := (s.put LED_CLOCK.s (old.get LED_CLOCK.s)).put SYS_BROWNOUT_CNT.count (old.get SYS_BROWNOUT_CNT.count)
  let s := s.updCopy SYS_BROWNOUT_CNT.count fun _ => old.copyOf SYS_BROWNOUT_CNT.count
  let s := (s.put SYS_TRIP.prior (max (old.get SYS_TRIP.prior) (old.get SYS_TRIP.tripped))).publishRetained
  { s with pwr := { s.pwr with lost := old.pwr.lost, invalid := old.pwr.invalid, lossFlag := old.pwr.lossFlag } }

/-- The machine after a reset of everything: what stands outside it stays, the command queue, the clock and the flash among it. -/
def State.fromReset (s : State) : State :=
  { State.reset with pending := s.pending, now := s.now, freeCount := s.freeCount, sent := s.sent, flash := s.flash }

/-- The mailbox has power and clears its rows, which takes 1.024 µs; step D1 of Dawn takes longer (R466, R568). -/
def State.mailboxClears (s : State) : State := s.put SPD_MBX_STATUS.state 1

/-- Everything except the retention SRAM contents is reset (R567). The node enters Initialisation, where an open USDO transfer ends
and the journal, which keeps its contents, records an abort (R495). -/
def State.warmReset (s : State) : State :=
  let s := s.cutUsdo
  s.fromReset.retain s

/-- RESET_N low for 1 µs and its rise (R567, R568); the rise finds PWRGD high. -/
def State.pinReset (s : State) : State :=
  s.warmReset.mailboxClears.updPwr fun p => { p with dawnReady := true, held := false }

/-- A write of 1 to PWR_CMD.dev_reset (R567). -/
def State.devReset (s : State) : State := s.pinReset

/-- The power-on reset (R567): everything is reset, and retained regions will come from the flash, in which the board may
have programmed bytes while the device was off (R571). A power-loss flag that VDD_AON has kept stays (R566). -/
def State.powerOn (s : State) (board : List (Nat × List (BitVec 8))) : State :=
  ({ s.fromReset with flash := board.foldl (fun f e => f.program e.1 e.2) s.flash } : State).mailboxClears.updPwr fun p =>
    { p with lossFlag := s.pwr.lossFlag }

/-- Every domain is held in reset while VDD_AON stays in range (R566): the retention SRAM keeps a power-loss flag, and the next Dawn
is one after Off. THERMTRIP_N stays as it was (R620). -/
def State.lossHold (s : State) : State :=
  s.warmReset.updPwr fun p => { p with dawnReady := false, held := true, lossFlag := true, lost := true, thermtrip := s.pwr.thermtrip }

/-- PWRGD low for 1 µs (R566): every domain is held in reset; without VDD_AON no domain is powered. -/
def State.pwrgdLoss (s : State) (aon : Bool) : State :=
  if aon then s.lossHold.updPwr fun p => { p with pwrgd := false }
  else s.fromReset.updPwr fun p => { p with dawnReady := false, held := true, pwrgd := false, off := true }

/-- VDD_CORE or VDD_SRAM below its threshold for 1 µs, which is monitored while PWRGD is high (R619). -/
def State.brownout (s : State) (core : Bool) : State :=
  if ¬ s.pwr.pwrgd then s
  else
    let s := ((s.inc SYS_BROWNOUT_CNT.count).lossHold).err SYS_ERR.brownout
    if core then s.put SYS_SUPPLY.core_ok 0 else s.put SYS_SUPPLY.sram_ok 0

/-- VDD_AON below 0.68 V for 1 µs, which is monitored while PWRGD is high (R619): a power-on reset, with the retention contents
lost. -/
def State.aonBrownout (s : State) : State := if ¬ s.pwr.pwrgd then s else s.fromReset.mailboxClears

/-- The mailbox's registers on the SPD page (R466, R477). -/
def mailboxKey (k : Nat) : Bool := k / 32 / 65536 == 12 && decide (0x300 ≤ k / 32 % 65536)

/-- The registers of the always-on domain (R554): SYS, DIC, PWR, BOT and ERQ pages, and the keeper's part of the CPU page. -/
def alwaysOnKey (k : Nat) : Bool :=
  let page := k / 32 / 65536
  let off := k / 32 % 65536
  page == 0 || page == 15 || page == 18 || page == 19 || page == 20 || (page == 14 && decide (0x4000 ≤ off) && decide (off < 0x5000))

/-- The memory of the always-on domain: the mailbox and the keeper's local RAM (R554). -/
def alwaysOnByte (a : Nat) : Bool :=
  (decide (0x1000800000 ≤ a) && decide (a < 0x1000810000)) || (decide (0x3204000000 ≤ a) && decide (a < 0x3204010000))

/-- Every domain but the always-on one is held in reset (R564, R620). -/
def State.gatedReset (s : State) : State :=
  let t := s.fromReset
  { t with
    csr := s.csr.keep fun k => alwaysOnKey k || mailboxKey k
    counts := s.counts.keep fun k => alwaysOnKey k || mailboxKey k
    dawnAt := s.dawnAt
    mem := s.mem.filter fun e => alwaysOnByte e.1
    poison := s.poison.keep alwaysOnByte
    cpu := { threads := s.cpu.threads.keep (· == 16), cores := s.cpu.cores.keep (· == 4) }
    erq := s.erq
    led := t.led.kept s.led
    tar := t.tar.kept s.tar
    dic := s.dic.dropWork
    pwr := { s.pwr with gated := true } }.put LED_CLOCK.s (s.get LED_CLOCK.s) |>.put SPD_MBX_STATUS.port_r_open 0

/-- An island sensor above the trip point for 100 µs (R620): THERMTRIP_N is asserted, and every domain but the always-on one is held
in reset. -/
def State.thermalTrip (s : State) : State :=
  let s := s.gatedReset.pinsGated
  ((s.put SYS_TRIP.tripped 1).err SYS_ERR.thermtrip).updPwr fun p => { p with thermtrip := true, dawnReady := false }

/-- A write of 1 to PWR_CMD.kick (R567). -/
def State.kick (s : State) : State := s.updPwr fun p => { p with kickAt := s.now }

/-- PWR_WDOG.ms has passed without a kick at instant `t` (R567). -/
def State.watchdogExpiry (s : State) (t : Nat) : State :=
  let s := s.at t
  let ms := s.get PWR_WDOG.ms
  if ms = 0 ∨ s.now < s.pwr.kickAt + ms * 10 ^ 12 then s else s.keeperReset.pwrErr PWR_ERR.wdog

/-- The state of thread `u` at the reset of its core. -/
def State.threadWiped (s : State) (u : Nat) : State := { s with cpu := { s.cpu with threads := s.cpu.threads.erase u } }

/-- Thread `t` of core `c` at the reset of its core (R567). -/
def State.threadCleared (s : State) (c t : Nat) : State :=
  (((((s.cutFree (4 * c + t)).masterTags (4 * c + t)).ownerReset (4 * c + t)).threadWiped (4 * c + t)).putThState (4 * c + t) 0).put CPU_THR_WMASK.mask 0 c t

/-- The state of core `c` outside its threads and its local RAM at its reset. -/
def State.coreCleared (s : State) (c : Nat) : State := { s with cpu := { s.cpu with cores := s.cpu.cores.erase c } }

/-- The reset of control core `c` (R567): its local RAM is kept, and the keeper starts thread 0. -/
def State.coreReset (s : State) (c : Nat) : State :=
  (((List.range 4).foldl (fun s t => s.threadCleared c t) s).coreCleared c).startThread (4 * c)

/-- A master reset of an initiator (R447, R475). -/
def State.masterReset (s : State) (i : Nat) : State := ((s.cutFree i).masterTags i).ownerReset i

/-- The reset of the edge fabric (R567): its configuration port is an initiator. -/
def State.edgeReset (s : State) : State := (s.masterReset 38).resetEdge

/-- The reset of DMA group `g`: channels 8 g to 8 g + 7 (R452, R567). -/
def State.dmaGroupReset (s : State) (g : Nat) : State :=
  (List.range 8).foldl (fun s k => ((s.masterReset (18 + 8 * g + k)).dmaReset (8 * g + k))) s

/-- The reset of Gnomon with its counters and serial (R567). -/
def State.gnomonReset (s : State) : State :=
  let s := if s.gnoState = 0 then s else s.endTimeline 0
  let g := s.gno
  { s with csr := s.csr.keep fun k => k / 32 / 65536 != 1
           counts := s.counts.keep fun k => k / 32 / 65536 != 1
           gno := { ({} : Gno) with named := g.named, unnamed := g.unnamed, due := g.due } }

/-- The reset of the link engine: every link is DOWN (R567). -/
def State.worgaReset (s : State) : State :=
  let s := s.masterReset 35
  let s := allLinks.foldl (fun s l => ((s.putLinkState l 0).resetMarks l).forgetPeer l) s
  { s with wor := {} }.worgaAddress

/-- The reset of the readout engine: its ports are DOWN and its event queue is empty (R567). -/
def State.readoutReset (s : State) : State :=
  let s := s.masterReset 34
  let s := forN 16 s fun k s => s.putPort k 0
  ({ s with rdo := { ({} : Rdo) with work := s.rdo.work } }).publishRdo

/-- A write to PWR_RESET (R567, R579): each bit resets its unit. -/
def State.writePwrReset (s : State) (m v : Nat) : State :=
  let core := woField PWR_RESET.core m v
  let dma := woField PWR_RESET.dma m v
  let s := (List.range 4).foldl (fun s c => if core.testBit c then s.coreReset c else s) s
  let s := (List.range 2).foldl (fun s g => if dma.testBit g then s.dmaGroupReset g else s) s
  let s := if woField PWR_RESET.edge m v = 1 then s.edgeReset else s
  let s := if woField PWR_RESET.gnomon m v = 1 then s.gnomonReset else s
  let s := if woField PWR_RESET.worga m v = 1 then s.worgaReset else s
  if woField PWR_RESET.readout m v = 1 then s.readoutReset else s

/-- A write to PWR_CMD: aborts first, then what ends, then what starts (R643). -/
def State.writePwrCmd (s : State) (keeper : Bool) (m v : Nat) : State :=
  let on (f : Fld) : Bool := woField f m v == 1
  let s := if on PWR_CMD.abort then s.powerAbort else s
  let s := if on PWR_CMD.kick then s.kick else s
  let s := if on PWR_CMD.run then s.powerRun keeper else s
  let s := if on PWR_CMD.doze then s.powerDoze else s
  let s := if on PWR_CMD.eclipse then s.powerEclipse else s
  let s := if on PWR_CMD.dusk then s.powerDusk else s
  if on PWR_CMD.dev_reset then s.devReset else s

/-! ### The retention SRAM (R559) -/

/-- The keeper's scrub reads a word of a region (R559). -/
def State.retentionScrub (s : State) (region : Nat) (o : Codeword) : State :=
  match o with
  | .good => s
  | .corrected => (s.inc PWR_RET_CORR_CNT.count).pwrErr PWR_ERR.ret_corrected
  | .uncorrectable =>
    ((s.inc PWR_RET_UNCORR_CNT.count).pwrErr PWR_ERR.ret_uncorrectable).updPwr fun p => { p with invalid := p.invalid ||| 2 ^ region }

end Sys2Proof.Machine
end

