-- ==== Sys2Proof/Machine/Store.lean ====
section
/-! DEFINITION. The start and the abort of the storing of a configuration (R578). -/

namespace Sys2Proof.Machine

/-- An image is handed to the keeper (R578). -/
def State.storeStart (s : State) (img : List (BitVec 8)) : State :=
  { s with pwr := { s.pwr with store := some img } }

/-- A write of 1 to BOT_STORE_CMD.store (R578): bytes that cannot be read leave an image that fails its checks. -/
def State.storeFrom (s : State) : State :=
  if s.pwr.store.isSome then s
  else s.storeStart ((s.fetchBytes (s.get BOT_STORE_ADDR_LO.addr + 2 ^ 32 * s.get BOT_STORE_ADDR_HI.addr)
    (s.get BOT_STORE_LEN.bytes)).getD [])

/-- A store that fails shows its code (R578). -/
def State.storeFails (s : State) (code : Nat) : State :=
  ({ s with pwr := { s.pwr with store := none } }.put BOT_STORE_ERR.code code).err BOT_ERR.store_fail

/-- An abort before the commit point (R578); with nothing under way it has no effect (R583). -/
def State.storeAbort (s : State) : State := if s.pwr.store.isSome then s.storeFails 6 else s

/-- A write to BOT_STORE_CMD (R580). -/
def State.writeStoreCmd (s : State) (m v : Nat) : State :=
  let s := if woField BOT_STORE_CMD.abort m v = 1 then s.storeAbort else s
  if woField BOT_STORE_CMD.store m v = 1 then s.storeFrom else s

end Sys2Proof.Machine
end

