-- ==== Sys2Proof/Machine/CsrBus.lean ====
section
/-! DEFINITION. The CSR space: which unit's operation a write of a register is, what a read returns and does, and the
accesses that are refused (R3, R4, R488, R589 to R593). -/

namespace Sys2Proof.Machine

/-! ### Writes, unit by unit -/

/-- The bit of a write-only field is written as 1. -/
def wrote (f : Fld) (m v : Nat) : Bool := woField f m v == 1

/-- A write to the FLN page (R76). -/
def State.writeFln (s : State) (off m v : Nat) : State :=
  let n := off / 0x100
  if 224 ≤ n then s.wrReg 2 off m v
  else match off % 0x100 with
    | 0x00 => s.writeLaneCtrl n m v
    | 0x08 => let s := s.wrReg 2 off m v; if wrote FLN_RX_EQ.adapt_restart m v then s.adaptRestart n else s
    | 0x0C => s.writeTxFfe n m v
    | 0x10 => let s := s.wrReg 2 off m v; if wrote FLN_EYE_CTRL.start m v then s.eyeStart n else s
    | 0x20 => s.writeDl n 0x20 m v
    | 0x24 => s.writeDl n 0x24 m v
    | 0x54 =>
      let s := if wrote FLN_SC_TX_CTRL.abort m v then s.slowAbort n else s
      if wrote FLN_SC_TX_CTRL.send m v then s.slowSend n else s
    | _ => s.wrReg 2 off m v

/-- A write to the EDG page (R119). -/
def State.writeEdg (s : State) (off m v : Nat) : State :=
  let f := off / 0x200
  if off = 0xF000 then s.writeTclk m v
  else if 57 ≤ f then s.wrReg 3 off m v
  else match off % 0x200 with
    | 0x00 => s.writeFctrl f m v
    | 0x1C =>
      let s := if wrote EDG_CFG_CMD.abort m v then s.facetAbort f else s
      let s := if wrote EDG_CFG_CMD.halt m v then s.facetHalt f else s
      let s := if wrote EDG_CFG_CMD.resume m v then s.facetResume f else s
      let s := if wrote EDG_CFG_CMD.capture m v then s.facetCapture f else s
      let s := if wrote EDG_CFG_CMD.load m v then s.facetLoad f else s
      if wrote EDG_CFG_CMD.activate m v then s.facetActivate f else s
    | _ => s.wrReg 3 off m v

/-- A write to the PRI page (R145). -/
def State.writePri (s : State) (off m v : Nat) : State :=
  let lane : Bool := decide (0x1000 ≤ off) && decide (off < 0x4800) && decide (off % 0x40 < 0x18) && off % 0x40 != 0xC
  let rear : Bool := decide (0x4800 ≤ off) && decide (off % 0x10 < 8)
  if off = 0x18 then s.writePriCmd m v
  else if off = 4 ∨ off = 8 ∨ off = 0xC ∨ off = 0x10 ∨ lane ∨ rear then s.writePrism off m v
  else s.wrReg 4 off m v

/-- A write to the ARR page (R176). -/
def State.writeArr (s : State) (off m v : Nat) : State :=
  if off = 8 then s.writeEdge m v
  else if off = 0xC then (if wrote ARR_CMD.epoch_bump m v then s.bumpEpoch else s)
  else if 0x10 ≤ off ∧ off < 0x30 then s.writePersist ((off - 0x10) / 4) m v
  else if 0x30 ≤ off ∧ off < 0x50 then s.writeWhaloChecked ((off - 0x30) / 4) m v
  else if off < 0x100 then s.wrReg 5 off m v
  else
    let i := (off - 0x100) / 0x80
    match (off - 0x100) % 0x80 with
    | 0x04 => s.islCmd i (bits (v &&& m) 0 4)
    | 0x10 => s.writeIslMap i m v
    | 0x2C =>
      let s := if wrote ARR_ISL_RELOAD_CTRL.abort m v then s.reloadAbort i else s
      if wrote ARR_ISL_RELOAD_CTRL.start m v then s.reloadStart i else s
    | _ => s.wrReg 5 off m v

/-- A write to the SEQ page (R239, R259). -/
def State.writeSeq (s : State) (off m v : Nat) : State :=
  if off = 0x04 then s.writeSeqCmd m v
  else if off = 0x2C then s.writePromise m v
  else if off = 0x40 then
    let s := s.wrReg 6 off m v
    if wrote SEQ_BG_CTRL.abort m v then s.bgAbort else s
  else if 0x80 ≤ off ∧ off < 0xC0 then
    let t := (off - 0x80) / 8
    if off % 8 = 0 then s.writeTimerCfg t m v
    else (s.wrReg 6 off m v).timerCmd t
      (woField SEQ_TMR_STAT.load m v + 2 * woField SEQ_TMR_STAT.stop m v + 4 * woField SEQ_TMR_STAT.start m v)
  else if 0x200 ≤ off ∧ off < 0x600 then
    let n := (off - 0x200) / 0x100
    let r := off % 0x100
    if r = 0 then s.writeCsCtrl n m v
    else if 0x40 ≤ r ∧ r < 0xC0 then s.writeCsEntry n off m v
    else s.wrReg 6 off m v
  else if off = 0x604 then (if wrote SEQ_ADM_CMD.rerun m v then s.startAdmission s.hasActive s.umbraReady else s)
  else if off = 0x624 then s.writeOvr m v
  else s.wrReg 6 off m v

/-- A write to the BCN page (R280). -/
def State.writeBcn (s : State) (off m v : Nat) : State :=
  let r := (off - 0x100) % 0x20
  if 0x100 ≤ off ∧ r < 0xC then s.writeGlint ((off - 0x100) / 0x20) r m v else s.wrReg 7 off m v

/-- A write to the RNG page (R455 to R458); a larger tag cap lets the initiators that wait for a tag go on (R373, R442). -/
def State.writeRng (s : State) (off m v : Nat) : State :=
  if 0x1000 ≤ off ∧ off < 0x3000 then s.writeRoute ((off - 0x1000) / 0x100) (off % 0x100 / 4) m v
  else if 0x4000 ≤ off ∧ off < 0x6000 ∧ (off % 0x40 = 0xC ∨ off % 0x40 = 0x10) then s.writeGuar off m v
  else if 0x4000 ≤ off ∧ off < 0x6000 ∧ off % 0x40 = 0 then (s.wrReg 11 off m v).retryTags
  else if 0x6000 ≤ off ∧ off % 0x40 = 8 then s.writeDmaCtrl ((off - 0x6000) / 0x40) m v
  else s.wrReg 11 off m v

/-- A write to SPD_MBX_DOORBELL (R468); false where it is refused, and the report names the initiator (R478). -/
def State.doorbell (s : State) (ini m v : Nat) : State × Bool :=
  let u := woField SPD_MBX_DOORBELL.thread m v
  if bits m 0 5 = 0 then (s, true)
  else if 16 < u ∨ (u < 16 ∧ ini ≠ 16 ∧ ini ≠ 17) then (s.err SPD_ERR.doorbell_refused 0 ini, false)
  else (s.raiseEvent u 19, true)

/-- A write to the CPU page (R393, R424). -/
def State.writeCpu (s : State) (off m v : Nat) : State :=
  let c := off / 0x1000
  let r := off % 0x1000
  if 0x8000 ≤ off ∨ r < 0x100 then s.wrReg 14 off m v
  else
    let u := 4 * c + (r - 0x100) / 0x40
    match r % 0x40 with
    | 0x04 => s.writeThrCmd u m v
    | 0x14 => s.softEvents u (woField CPU_THR_EVENTS.events m v)
    | 0x24 =>
      let s := if wrote CPU_THR_TMR_STAT.start m v then s.timerStart u else s
      if wrote CPU_THR_TMR_STAT.stop m v then s.timerStop u else s
    | _ => s.wrReg 14 off m v

/-- A write to the TAR page (R550). -/
def State.writeTar (s : State) (off m v : Nat) : State :=
  match off with
  | 0x04 => s.writeTarCmd m v
  | 0x10 => s.writeTarTarget m v
  | 0x14 => s.writeTarV m v
  | 0x2C => s.writeTarProbe m v
  | _ => s.wrReg 16 off m v

/-- A write to the LED page (R551); lane and low count are kept for each initiator (R544). -/
def State.writeLed (s : State) (ini off m v : Nat) : State :=
  match off with
  | 0x08 =>
    let s := s.wrReg 17 off m v
    if writes LED_SEL.record m then s.ledgerSelect (s.get LED_SEL.record) else s
  | 0x0C => if wrote LED_CMD.forget m v then s.forgetRec (s.get LED_SEL.record) else s
  | 0x10 => if bits m 0 8 = 0 then s else s.updLed fun l => { l with hitLane := Sparse.set 0 l.hitLane ini (bits v 0 8) }
  | 0x14 => s.updLed fun l => { l with hitLow := Sparse.set 0 l.hitLow ini (woField LED_HIT_ADD_LO.count m v) }
  | 0x18 => s.hitAdd ini (woField LED_HIT_ADD_HI.count m v)
  | 0x6C =>
    if writes LED_ACTQ_DONE.record m || writes LED_ACTQ_DONE.point m || writes LED_ACTQ_DONE.failed m then
      s.actqDone (woField LED_ACTQ_DONE.record m v) (woField LED_ACTQ_DONE.point m v) (woField LED_ACTQ_DONE.failed m v == 1)
    else s
  | _ => s.wrReg 17 off m v

/-- A write to the DBG page (R640). -/
def State.writeDbg (s : State) (off m v : Nat) : State :=
  match off with
  | 0x08 => if wrote DBG_TRACE_CMD.clear m v then s.traceClear else s
  | 0x2C => if wrote DBG_THR_CMD.resume m v then s.debugResume (s.get DBG_THR_SEL.thread) else s
  | _ => s.wrReg 21 off m v

/-- A write to the GNO page (R44). -/
def State.writeGno (s : State) (off m v : Nat) : State :=
  match off with
  | 0x00 => s.writeGnoCtrl s.now m v
  | 0x08 | 0x0C | 0x1C | 0x20 | 0x24 | 0x28 => s.writeShadowed off m v
  | 0x54 => if bits m 0 16 = 0 then s else s.fcInject (woField GNO_FC_INJECT.word m v)
  | 0x5C =>
    let s := if wrote GNO_CMD.cancel_named m v then s.cancelCommand else s
    if wrote GNO_CMD.reacquire m v then s.relock s.now false else s
  | _ => s.wrReg 1 off m v

/-- What a write of the bits `m` of `v` to a register does, by the unit whose page it is. -/
def State.writeUnit (s : State) (ini page off m v : Nat) : State :=
  match page with
  | 1 => s.writeGno off m v
  | 2 => s.writeFln off m v
  | 3 => s.writeEdg off m v
  | 4 => s.writePri off m v
  | 5 => s.writeArr off m v
  | 6 => s.writeSeq off m v
  | 7 => s.writeBcn off m v
  | 8 => s.writeWor off m v
  | 9 => s.writeHbm off m v
  | 10 => s.writeRdo off m v
  | 11 => s.writeRng off m v
  | 14 => s.writeCpu off m v
  | 15 => if off = 0 then s.writeDicCtrl m v else if off = 8 then s.writeCanCfg m v else s.wrReg 15 off m v
  | 16 => s.writeTar off m v
  | 17 => s.writeLed ini off m v
  | 18 => if off = 4 then s.writePwrCmd (ini == 16) m v else if off = 0x18 then s.writePwrReset m v else s.wrReg 18 off m v
  | 19 => if off = 0x4C then s.writeStoreCmd m v else s.wrReg 19 off m v
  | 21 => s.writeDbg off m v
  | 22 => if off < 0x180 then s.writePin (off / 4) m v else s.wrReg 22 off m v
  | _ => s.wrReg page off m v

/-! ### Refused writes of the dictionary engine (R488) -/

/-- The report bits that say that a unit has refused a write by a rule of its own chapter. -/
def refusalBits : List Fld :=
  [FLN_ERR.eye_busy, FLN_ERR.sc_tx_refused, FLN_ERR.sc_tx_disabled, FLN_ERR.dl_cfg_refused, FLN_ERR.bad_cfg,
   EDG_FERR.load_refused, EDG_FERR.activate_refused, EDG_FERR.rb_refused, PRI_ERR.cfg_refused, ARR_ERR.cfg_refused, ARR_ISL_ERR.cmd_refused,
   ARR_ISL_ERR.map_refused, ARR_ISL_ERR.reload_refused, SEQ_ERR.load_refused, SEQ_ERR.exchange_refused,
   SEQ_ERR.commit_refused, SEQ_ADM_ERR.promise_refused, BCN_ERR.bad_cfg, WOR_ERR.lane_conflict, WOR_ERR.epoch_refused,
   WOR_ERR.bcn_cfg_refused, WOR_ERR.tx_refused, WOR_ERR.stream_refused, WOR_LINK_ERR.window_refused, HBM_ERR.cfg_refused,
   HBM_ERR.xfer_refused, RDO_ERR.cfg_refused, RDO_PORT_ERR.lane_conflict, RNG_ERR.guar_refused, RNG_ERR.route_refused,
   RNG_DMA_STATUS.start_refused, PWR_ERR.cmd_refused, GNO_ERR.fc_collision]

/-- A report names a refusal. -/
def Report.refusal (r : Report) : Bool :=
  refusalBits.any (fun f => f.page == r.page && f.errCode 0 == r.code) ||
    (r.page == 14 && (List.range 4).any fun t => CPU_THR_ERR.start_refused.errCode t == r.code)

/-- Runs a write and says whether its unit refused it. -/
def State.watched (s : State) (f : State → State) : State × Bool :=
  let t := f (s.updErq fun q => { q with reports := [] })
  (t.updErq fun q => { q with reports := q.reports.foldl (fun l r => joinReport r l) s.erq.reports },
    t.erq.reports.any Report.refusal)

/-! ### Accesses -/

/-- A register stands at an offset of a page (R3). Of the keeper's block, CPU_SCHED and threads 1 to 3 are absent (R424), and
of facet 56 the registers of lanes 1 to 3 (R119). -/
def csrDefined (page off : Nat) : Bool :=
  (fieldsOfPage page).any (fun f => (f.locate off).isSome) &&
    !(page == 14 && decide (0x4000 ≤ off) && decide (off < 0x5000) && (off == 0x4020 || decide (0x4140 ≤ off))) &&
    !(page == 3 && decide (0x7060 ≤ off) && decide (off < 0x7200))

/-- The status of a refused write: 3 toward the dictionary engine, else the one given (R488). -/
def refusedStatus (ini other : Nat) : Nat := if ini = 17 then 3 else other

/-- A write of the bits `m` of `v` to the register at an offset by an initiator: the response status (R430) is 0, 1 (error)
or 3 (refused). -/
def State.csrWrite (s : State) (ini page off m v : Nat) : State × Nat :=
  if page = 12 ∧ off = 0x304 then
    let (s, ok) := s.doorbell ini m v
    (s, if ok then 0 else refusedStatus ini 1)
  else if page = 13 ∧ (off = 8 ∨ off < 8 ∨ (0x100 ≤ off ∧ off < 0x300)) then
    let (s, ok) := if off = 8 then s.writeSemReq ini m v else s.writeSemAdmin ini off m v
    (s, if ok then 0 else refusedStatus ini 1)
  else if page = 20 ∧ off = 4 then
    let (s, ok) := s.erqPop (woField ERQ_POP.seq m v)
    (s, if ok then 0 else refusedStatus ini 0)
  else if page = 15 ∧ off = 8 ∧ bits m 0 7 ≠ 0 ∧ (s.writeCanCfg m v).get DIC_CAN_CFG.node_id ≠ bits v 0 7 then
    (s.writeCanCfg m v, refusedStatus ini 0)
  else if page = 18 ∧ off = 4 ∧ wrote PWR_CMD.dev_reset m v then (s.writeUnit ini page off m v, 0)
  else
    let (s, refused) := s.watched fun s => s.writeUnit ini page off m v
    (s, if refused then refusedStatus ini 0 else 0)

/-- The pending value of a running thread timer (R405). -/
def State.timerNow (s : State) (c t : Nat) : Nat :=
  let n := s.get CPU_THR_TMR_STAT.count c t
  if s.bit CPU_THR_TMR_STAT.running c t then max 1 (n - (s.now - (s.th (4 * c + t)).tmrAt) / 1000000000) else n

/-- The word of a register of the CPU page (R424). -/
def State.cpuWordAt (s : State) (off : Nat) : Nat :=
  let c := off / 0x1000
  let r := off % 0x1000
  if 0x8000 ≤ off ∨ r < 0x100 then s.regWord 14 off
  else
    let t := (r - 0x100) / 0x40
    let u := 4 * c + t
    let h := s.th u
    match r % 0x40 with
    | 0x0C => s.thState u + 8 * b2n h.inTrap + 16 * (s.effPrio u % 8) + 128 * b2n (decide (h.prio < s.effPrio u)) +
        256 * b2n (s.waitArmed u)
    | 0x10 => h.pc / 4 * 4
    | 0x14 => h.events % 2 ^ 16
    | 0x24 => s.timerNow c t + 2 ^ 24 * s.get CPU_THR_TMR_STAT.running c t
    | _ => s.regWord 14 off

/-- One trace entry (R637). -/
def TraceEntry.bytes (e : TraceEntry) : List (BitVec 8) :=
  leBytes 2 e.addr ++ leBytes 2 e.cycle ++ leBytes 4 e.serial ++ leBytes 4 e.flags ++ leBytes 4 0

/-- The debug unit can read a thread's registers (R638). -/
def State.dbgReadable (s : State) : Bool :=
  let st := s.thState (s.get DBG_THR_SEL.thread)
  isThread (s.get DBG_THR_SEL.thread) && (st == 3 || st == 4)

/-- The register that DBG_THR_SEL names (R638). -/
def State.dbgValue (s : State) : Nat :=
  if ¬ s.dbgReadable then 0
  else
    let h := s.th (s.get DBG_THR_SEL.thread)
    let r := s.get DBG_THR_SEL.reg
    if s.bit DBG_THR_SEL.fp then h.freg r else ({ h with inTrap := s.bit DBG_THR_SEL.trap }).reg r

/-- The count of responses that a read of RNG_INI_RSP_CNT returns: what a read of RNG_INI_LAT_SUM has kept, else the count
(R449). -/
def State.rspCount (s : State) (i : Nat) : Nat :=
  match s.ring.rspHold.find? (fun h => h.1 == i) with
  | some h => h.2
  | none => s.get RNG_INI_RSP_CNT.count i

/-- The word that a register shows to an initiator, with no side effect (R4). -/
def State.csrView (s : State) (ini page off : Nat) : Nat :=
  match page with
  | 0 =>
    if off = 4 then (if Config.grade28 then 0x1C else 0x20) + 256 * b2n Config.gradeE
    else if off = 0x1C then s.get SYS_TRIP.tripped + 2 * s.get SYS_TRIP.prior + 256 * (if Config.gradeE then 120 else 110)
    else s.regWord 0 off
  | 2 => if off < 0xE000 ∧ off % 0x100 = 0x50 then s.idAgeMs (off / 0x100) else s.regWord 2 off
  | 6 =>
    if 0x100 ≤ off ∧ off < 0x140 then s.active.ctx.reg ((off - 0x100) / 4)
    else if 0x140 ≤ off ∧ off < 0x180 then s.seq.bg.reg ((off - 0x140) / 4)
    else if 0x80 ≤ off ∧ off < 0xC0 ∧ off % 8 = 4 then
      s.regWord 6 off - s.get SEQ_TMR_STAT.count ((off - 0x80) / 8) + s.timerCount ((off - 0x80) / 8)
    else s.regWord 6 off
  | 10 => s.publishRdo.regWord 10 off
  | 11 =>
    let i := (off - 0x4000) / 0x40
    if off = 0x24 then
      let (u, q) := s.linkLoad (s.get RNG_LINK_SEL.stop) (s.get RNG_LINK_SEL.ring) (s.get RNG_LINK_SEL.dir)
      (u / 2) % 2 ^ 12 + 2 ^ 16 * (q % 2 ^ 12)
    else if off = 0x28 then s.linkFlits (s.get RNG_LINK_SEL.stop) (s.get RNG_LINK_SEL.ring) (s.get RNG_LINK_SEL.dir)
    else if 0x4000 ≤ off ∧ off < 0x6000 ∧ off % 0x40 = 0x14 then
      s.regWord 11 off + s.iniOutstanding i + 2 ^ 20 * s.iniRetired i
    else if 0x4000 ≤ off ∧ off < 0x6000 ∧ off % 0x40 = 0x24 then s.rspCount i
    else s.regWord 11 off
  | 14 => s.cpuWordAt off
  | 15 => if 0x80 ≤ off ∧ off < 0xA8 then leAt (s.journalEntry (s.get DIC_JNL_SEL.seq)) (off - 0x80) 4 else s.regWord 15 off
  | 17 =>
    if off = 0x10 then Sparse.get 0 s.led.hitLane ini
    else if off = 0x68 then s.actqWord
    else s.regWord 17 off
  | 20 =>
    if off = 0x100 then (match s.erq.entries with
      | e :: _ => leAt e.bytes 0 4
      | [] => 0)
    else if 0x100 < off then leAt s.erq.hold (off - 0x100) 4
    else s.regWord 20 off
  | 21 =>
    if 0x10 ≤ off ∧ off < 0x20 then
      (match s.seq.trace[s.get DBG_TRACE_SEL.index]? with
       | some e => leAt e.bytes (off - 0x10) 4
       | none => 0)
    else if off = 0x24 then s.dbgValue % 2 ^ 32
    else if off = 0x28 then s.dbgValue / 2 ^ 32
    else s.regWord 21 off
  | _ => s.regWord page off

/-- A read of the bits `m` clears the RC fields that it covers wholly (R590). -/
def State.readClear (s : State) (page off m : Nat) : State :=
  (fieldsOfPage page).foldl (fun s f => match f.locate off with
    | some (i, j) =>
      let first := f.lsb / 8 * 8
      let past := (f.lsb + f.width + 7) / 8 * 8
      if f.acc = .rc ∧ bits m first (past - first) = 2 ^ (past - first) - 1 then s.put f 0 i j else s
    | none => s) s

/-- What a read of the bits `m` of a register does to the state (R36, R116, R311, R449, R546, R590, R600, R638). -/
def State.readEffect (s : State) (page off m : Nat) : State :=
  match page with
  | 1 =>
    match off with
    | 0x38 => s.put GNO_ORBIT_HI.orbit (s.gno.orbit / 2 ^ 32)
    | 0x40 => s.put GNO_EVENT_HI.event (s.gno.event / 2 ^ 32)
    | 0x48 => s.put GNO_SERIAL_HI.serial (s.shownSerial / 2 ^ 32)
    | _ => s.readClear page off m
  | 3 => if (off % 0x200 = 0x38 ∨ off % 0x200 = 0x3C) ∧ off < 0x7200 then s.facetReadback (off / 0x200) else s.readClear page off m
  | 6 => if off = 0x630 then s.put SEQ_OVR_LAST_HI.serial (s.seq.ovrLast / 2 ^ 32) else s.readClear page off m
  | 8 => if off = 0x34 then s.latchSys else s.readClear page off m
  | 9 => if off = 0x14 then s.put HBM_PIPE_LAST_HI.serial (s.hbm.last / 2 ^ 32) else s.readClear page off m
  | 11 =>
    let i := (off - 0x4000) / 0x40
    if 0x4000 ≤ off ∧ off < 0x6000 ∧ off % 0x40 = 0x28 then
      (if m % 2 ^ 32 = allBits then (s.readLatSum i).2 else s)
    else if 0x4000 ≤ off ∧ off < 0x6000 ∧ off % 0x40 = 0x24 then
      (if s.ring.rspHold.any (fun h => h.1 == i) then
        s.updRing fun r => { r with rspHold := r.rspHold.filter fun h => h.1 != i }
       else s.readClear page off m)
    else s.readClear page off m
  | 17 => if off = 0x68 then (if m % 2 ^ 32 = allBits then s.actqPop else s) else s.readClear page off m
  | 20 => if off = 0x100 ∧ bits m 0 8 ≠ 0 then s.erqHead else s.readClear page off m
  | 21 =>
    if (off = 0x24 ∨ off = 0x28) ∧ ¬ s.dbgReadable then s.err DBG_ERR.thr_running else s.readClear page off m
  | _ => s.readClear page off m

/-- A read of the bits `m` of a register by an initiator: the state after it and the register's word. -/
def State.csrRead (s : State) (ini page off m : Nat) : State × Nat :=
  if page = 3 ∧ off < 0x7200 ∧ (off % 0x200 = 0x38 ∨ off % 0x200 = 0x3C) then
    let s := s.readEffect page off m
    (s, s.csrView ini page off)
  else (s.readEffect page off m, s.csrView ini page off)

/-! ### The requests of the dictionary engine (R449) -/

/-- The dictionary engine, initiator 17, has sent some packets that move `units` units of 64 bytes, and has had their responses, the
last with this status (R449): each round trip takes a free number of ring cycles. -/
def State.engineTrips (s : State) (packets units status : Nat) : State :=
  let s := if status = 0 then s else s.inc RNG_INI_ERR_CNT.count 17
  if ¬ s.bit RNG_CTRL.stats_en then s
  else
    let longest := s.fresh 16
    let s := s.tookFree
    let total := longest + s.fresh 32 % ((packets - 1) * longest + 1)
    let s := ((s.tookFree.add RNG_INI_PKT_CNT.count packets 17).add RNG_INI_BYTE_CNT.count units 17).add RNG_INI_RSP_CNT.count packets 17
    (s.add RNG_INI_LAT_SUM.cycles total 17).raiseTo RNG_INI_LAT_MAX.cycles longest 17

/-- An access of the engine to a register: that of its own page takes no packet. -/
def State.engineTrip (s : State) (page status : Nat) : State := if page = 15 then s else s.engineTrips 1 1 status

/-! ### Addresses -/

/-- The CSR space (R2, R589). -/
def csrBase : Nat := 0x2000000000

/-- The address lies in the CSR space. -/
def inCsr (a : Nat) : Bool := decide (0x2000000000 ≤ a) && decide (a < 0x3000000000)

/-- The address of a register. -/
def csrAddr (page off : Nat) : Nat := csrBase + page * 65536 + off

/-- Logs an access that is refused (R593, R594, R601): the operation is 0 read, 1 write, 2 AMO. -/
def State.refuseAccess (s : State) (page ini a op len reason : Nat) : State :=
  s.report page noInst 0xF000 (a % 2 ^ 40 + 2 ^ 40 * ini + 2 ^ 46 * op + 2 ^ 48 * ((len - 1) % 256) + 2 ^ 56 * reason)

/-- The page that a refusal of an address names (R593). -/
def refusalPage (a : Nat) : Nat :=
  let p := (a - csrBase) / 65536
  if inCsr a ∧ p ≤ 0x16 then p else 0

/-- Why an access of a register is refused: 0 it is not (R589). -/
def csrReason (a len : Nat) : Nat :=
  let off := a % 65536
  if ¬ (len = 1 ∨ len = 2 ∨ len = 4 ∨ len = 8) then 2
  else if a % len ≠ 0 then 3
  else if ¬ csrDefined ((a - csrBase) / 65536) (off / 4 * 4) then 1
  else 0

/-- The page of an address of the CSR space. -/
def csrPage (a : Nat) : Nat := (a - csrBase) / 65536

/-- The offset of the register of an address in its page. -/
def csrOff (a : Nat) : Nat := a % 65536 / 4 * 4

/-- The bits of the register that an access of `len` bytes at `a` reaches. -/
def csrBits (a len : Nat) : Nat := (2 ^ (8 * len) - 1) * 2 ^ (8 * (a % 4))

/-- A write as an access answers it. -/
def State.csrPut (s : State) (ini page off m v : Nat) : State × Nat × List (BitVec 8) :=
  let p := s.csrWrite ini page off m v
  (p.1, p.2, [])

/-- A read as an access answers it: the bytes `sh` bits up. -/
def State.csrTake (s : State) (ini page off m len sh : Nat) : State × Nat × List (BitVec 8) :=
  let p := s.csrRead ini page off m
  (p.1, 0, leBytes len (p.2 / 2 ^ sh))

/-- One access of at most 4 bytes that R589 permits: what it does, its status and the bytes read. -/
def State.csrOne (s : State) (ini a len : Nat) : Option (List (BitVec 8)) → State × Nat × List (BitVec 8)
  | some bs => s.csrPut ini (csrPage a) (csrOff a) (csrBits a len) (leNat bs * 2 ^ (8 * (a % 4)))
  | none => s.csrTake ini (csrPage a) (csrOff a) (csrBits a len) len (8 * (a % 4))

/-- The upper half of an access of 8 bytes at `a`, after its lower half answered `st` and `lo` (R592, R593). -/
def State.csrHigh (s : State) (ini a : Nat) (data : Option (List (BitVec 8))) (st : Nat) (lo : List (BitVec 8)) :
    State × Nat × List (BitVec 8) :=
  if st = 1 then (s, 1, [])
  else if csrReason a 4 ≠ 0 then (s.refuseAccess (refusalPage a) ini a (b2n data.isSome) 4 1, 1, [])
  else
    let p := s.csrOne ini a 4 data
    (p.1, if p.2.1 = 1 then 1 else max st p.2.1, if p.2.1 = 1 then [] else lo ++ p.2.2)

/-- An access to the CSR space (R589, R592, R593): an access of 8 bytes is two of 4. -/
def State.csrAccess (s : State) (ini a len : Nat) (data : Option (List (BitVec 8))) : State × Nat × List (BitVec 8) :=
  if csrReason a len ≠ 0 then
    (s.refuseAccess (refusalPage a) ini a (b2n data.isSome) (if csrReason a len = 1 then min 4 len else len) (csrReason a len), 1, [])
  else if len ≤ 4 then s.csrOne ini a len data
  else
    let p := s.csrOne ini a 4 (data.map fun b => b.take 4)
    p.1.csrHigh ini (a + 4) (data.map fun b => b.drop 4) p.2.1 p.2.2

end Sys2Proof.Machine
end

