-- ==== Sys2Proof/Machine/Access.lean ====
section
/-! DEFINITION. Register accesses that stand as commands of their own (R2, R4, R554). -/

namespace Sys2Proof.Machine

/-- A register acts while its domain has power: those of the always-on domain also in Eclipse (R554). The dictionary engine
and the error-queue logic belong to the Ring domain; in Eclipse the keeper takes the error queue over (R600). -/
def State.onPage (s : State) (page off : Nat) (f : State → State) : State :=
  if alwaysOnKey ((page * 65536 + off) * 32) && page != 15 && (page != 20 || s.powerState == 2) then s.alive f else s.live f

/-- The reports of a unit leave while the domains run; in Eclipse the keeper sends and queues those of the always-on domain
(R600). -/
def State.onReports (s : State) (page core : Nat) (f : State → State) : State :=
  if s.powerState == 2 && (alwaysOnKey ((page * 65536 + if page = 14 then 0x1000 * core else 0) * 32) || page == 12) then s.alive f
  else s.live f

/-- The response of a register access that stands as a command of its own: its status where that is not 0, else the word read
(R3, R430). -/
def State.answer (s : State) (st : Nat) (word : Option Nat) : State :=
  if st ≠ 0 then s.emit (.refused st)
  else match word with
    | some v => s.emit (.value v)
    | none => s

/-- A write of bytes to the CSR space by an initiator (R4, R589). -/
def State.regWrite (s : State) (ini page off : Nat) (data : List (BitVec 8)) : State :=
  s.onPage page off fun s =>
    let (s, st, _) := s.csrAccess ini (csrAddr page off) data.length (some data)
    s.answer st none

/-- A read of `len` bytes of the CSR space by an initiator, whose answer shows (R4, R589). -/
def State.regRead (s : State) (ini page off len : Nat) : State :=
  s.onPage page off fun s =>
    let (s, st, data) := s.csrAccess ini (csrAddr page off) len none
    s.answer st (some (leNat data))

/-- The SMBus target, in the always-on domain, answers unless it is held in reset (R620, R629). -/
def State.onSmb (s : State) (f : State → State) : State := if s.pwr.held then s.emit (.smb none none) else f s

end Sys2Proof.Machine
end

