-- ==== Sys2Proof/Machine/Objects.lean ====
section
/-! DEFINITION. The objects of the dictionary (R45, R78, R122, R147, R178, R241, R260, R282, R314, R349, R394, R426, R459,
R479, R520, R552, R582, R603): index, subindices, type, access and what each stands for. -/

namespace Sys2Proof.Machine

/-- The types that objects have (R480). -/
inductive ObjTy where
  | u8 | u16 | u32 | u64 | text | octets (n : Nat) | domain
  deriving DecidableEq, Repr

/-- The type code of R480. -/
def ObjTy.code : ObjTy → Nat
  | .u8 => 0x05
  | .u16 => 0x06
  | .u32 => 0x07
  | .u64 => 0x1B
  | .text => 0x09
  | .octets _ => 0x0A
  | .domain => 0x0F

/-- The size in bytes, where it is fixed (R480). -/
def ObjTy.size : ObjTy → Nat
  | .u8 => 1
  | .u16 => 2
  | .u32 => 4
  | .u64 => 8
  | .octets n => n
  | .text | .domain => 0

/-- The access codes of objects (R481). -/
inductive ObjAcc where
  | ro | wo | rw
  deriving DecidableEq, Repr

/-- A run of register bits inside an object's value: the register's page, its offset for instance 0 and the stride, or the
thread numbering of the CPU page; its lowest bit and width there, the width in the object, to which a larger count
saturates, and the place in the object. -/
structure ObjPart where
  page : Nat
  base : Nat
  stride : Nat
  thread : Bool
  lsb : Nat
  src : Nat
  width : Nat
  pos : Nat
  deriving DecidableEq, Repr

/-- What an object stands for. -/
inductive ObjKind where
  /-- Register bits, read and written by the registers' own rules. -/
  | regs (parts : List ObjPart)
  /-- Counts, read without clearing. -/
  | peek (parts : List ObjPart)
  /-- A command bit: any value written gives it. -/
  | cmd (page base stride bits : Nat)
  /-- The values taken and the command bits that each gives; other values are refused. -/
  | codes (values : List (Nat × Nat)) (page base stride : Nat) (thread : Bool)
  /-- A named slot that goes to a WHEN register pair, followed by a command bit. -/
  | apply (page lo cmd stride bits : Nat)
  /-- An object of the engine itself, or one with a rule of its own. -/
  | own
  deriving DecidableEq, Repr

/-- One row of an object table: `count` indices from `index` on, subindices `first` to `last`. -/
structure ObjRow where
  index : Nat
  count : Nat
  first : Nat
  last : Nat
  ty : ObjTy
  acc : ObjAcc
  kind : ObjKind
  deriving DecidableEq, Repr

/-- The objects of 0x1000 on. -/
def objects10 : List ObjRow := [
  ⟨0x1000, 1, 0x0, 0x0, .u32, .ro, .regs []⟩,
  ⟨0x1001, 1, 0x0, 0x0, .u8, .ro, .own⟩,
  ⟨0x1003, 1, 0x0, 0x0, .u8, .rw, .own⟩,
  ⟨0x1003, 1, 0x1, 0x8, .u32, .ro, .own⟩,
  ⟨0x1008, 1, 0x0, 0x0, .text, .ro, .own⟩,
  ⟨0x1009, 1, 0x0, 0x0, .text, .ro, .own⟩,
  ⟨0x100A, 1, 0x0, 0x0, .text, .ro, .own⟩,
  ⟨0x1014, 1, 0x0, 0x0, .u32, .rw, .own⟩,
  ⟨0x1015, 1, 0x0, 0x0, .u16, .rw, .own⟩,
  ⟨0x1017, 1, 0x0, 0x0, .u16, .rw, .own⟩,
  ⟨0x1018, 1, 0x1, 0x1, .u32, .ro, .own⟩,
  ⟨0x1018, 1, 0x2, 0x2, .u32, .ro, .own⟩,
  ⟨0x1018, 1, 0x3, 0x3, .u32, .ro, .regs [⟨0, 0x0, 0x0, false, 0, 32, 32, 0⟩]⟩,
  ⟨0x1018, 1, 0x4, 0x4, .u32, .ro, .regs [⟨0, 0x8, 0x0, false, 0, 32, 32, 0⟩]⟩]

/-- The objects of 0x1400 on. -/
def objects14 : List ObjRow := [
  ⟨0x1400, 4, 0x1, 0x1, .u32, .rw, .own⟩,
  ⟨0x1400, 4, 0x2, 0x2, .u8, .rw, .own⟩]

/-- The objects of 0x1600 on. -/
def objects16 : List ObjRow := [
  ⟨0x1600, 4, 0x0, 0x0, .u8, .rw, .own⟩,
  ⟨0x1600, 4, 0x1, 0x10, .u32, .rw, .own⟩]

/-- The objects of 0x1800 on. -/
def objects18 : List ObjRow := [
  ⟨0x1800, 4, 0x1, 0x1, .u32, .rw, .own⟩,
  ⟨0x1800, 4, 0x2, 0x2, .u8, .rw, .own⟩,
  ⟨0x1800, 4, 0x3, 0x3, .u16, .rw, .own⟩,
  ⟨0x1800, 4, 0x5, 0x5, .u16, .rw, .own⟩]

/-- The objects of 0x1A00 on. -/
def objects1A : List ObjRow := [
  ⟨0x1A00, 4, 0x0, 0x0, .u8, .rw, .own⟩,
  ⟨0x1A00, 4, 0x1, 0x10, .u32, .rw, .own⟩]

/-- The objects of 0x2000 on. -/
def objects20 : List ObjRow := [
  ⟨0x2000, 1, 0x1, 0x1, .u32, .ro, .regs [⟨0, 0x0, 0x0, false, 0, 32, 32, 0⟩]⟩,
  ⟨0x2000, 1, 0x2, 0x2, .text, .ro, .own⟩,
  ⟨0x2000, 1, 0x3, 0x3, .u64, .ro, .regs [⟨0, 0x8, 0x0, false, 0, 32, 32, 0⟩, ⟨0, 0xC, 0x0, false, 0, 32, 32, 32⟩]⟩,
  ⟨0x2001, 1, 0x1, 0x1, .u8, .rw, .regs [⟨15, 0x8, 0x0, false, 0, 7, 7, 0⟩]⟩,
  ⟨0x2001, 1, 0x2, 0x2, .u8, .rw, .regs [⟨15, 0x8, 0x0, false, 8, 2, 2, 0⟩]⟩,
  ⟨0x2001, 1, 0x3, 0x3, .u8, .rw, .regs [⟨15, 0x8, 0x0, false, 12, 2, 2, 0⟩]⟩,
  ⟨0x2001, 1, 0x4, 0x4, .u32, .ro, .regs [⟨15, 0xC, 0x0, false, 0, 32, 32, 0⟩]⟩,
  ⟨0x2002, 1, 0x1, 0x1, .u32, .rw, .regs [⟨15, 0x10, 0x0, false, 0, 32, 32, 0⟩]⟩,
  ⟨0x2002, 1, 0x2, 0x2, .u8, .rw, .regs [⟨15, 0x14, 0x0, false, 0, 6, 6, 0⟩]⟩,
  ⟨0x2002, 1, 0x3, 0x3, .u32, .rw, .regs [⟨15, 0x18, 0x0, false, 0, 32, 32, 0⟩]⟩,
  ⟨0x2002, 1, 0x4, 0x4, .u64, .ro, .regs [⟨15, 0x1C, 0x0, false, 0, 32, 32, 0⟩, ⟨15, 0x20, 0x0, false, 0, 32, 16, 32⟩]⟩,
  ⟨0x2002, 1, 0x5, 0x5, .u16, .rw, .regs [⟨15, 0x24, 0x0, false, 0, 16, 16, 0⟩]⟩,
  ⟨0x2003, 1, 0x1, 0x1, .u8, .rw, .regs [⟨15, 0x28, 0x0, false, 0, 4, 4, 0⟩]⟩,
  ⟨0x2003, 1, 0x2, 0x2, .u8, .rw, .regs [⟨15, 0x28, 0x0, false, 8, 4, 4, 0⟩]⟩,
  ⟨0x2003, 1, 0x3, 0x3, .u8, .rw, .regs [⟨15, 0x0, 0x0, false, 0, 8, 8, 0⟩]⟩,
  ⟨0x2004, 1, 0x1, 0x10, .u64, .rw, .regs [⟨15, 0x100, 0x8, false, 0, 32, 32, 0⟩, ⟨15, 0x104, 0x8, false, 0, 6, 6, 32⟩, ⟨15, 0x104, 0x8, false, 8, 4, 4, 40⟩, ⟨15, 0x104, 0x8, false, 16, 1, 1, 48⟩, ⟨15, 0x104, 0x8, false, 31, 1, 1, 63⟩]⟩]

/-- The objects of 0x2100 on. -/
def objects21 : List ObjRow := [
  ⟨0x2100, 1, 0x1, 0x1, .u8, .ro, .regs [⟨1, 0x4, 0x0, false, 0, 3, 3, 0⟩]⟩,
  ⟨0x2100, 1, 0x2, 0x2, .u32, .rw, .regs [⟨1, 0x8, 0x0, false, 0, 32, 32, 0⟩]⟩,
  ⟨0x2100, 1, 0x3, 0x3, .u16, .rw, .regs [⟨1, 0xC, 0x0, false, 0, 13, 13, 0⟩]⟩,
  ⟨0x2100, 1, 0x4, 0x4, .u32, .ro, .regs [⟨1, 0x10, 0x0, false, 0, 32, 32, 0⟩]⟩,
  ⟨0x2100, 1, 0x5, 0x5, .u32, .ro, .regs [⟨1, 0x14, 0x0, false, 0, 32, 32, 0⟩]⟩,
  ⟨0x2100, 1, 0x6, 0x6, .u32, .ro, .regs [⟨1, 0x18, 0x0, false, 0, 32, 32, 0⟩]⟩,
  ⟨0x2100, 1, 0x7, 0x7, .u8, .rw, .regs [⟨1, 0x1C, 0x0, false, 0, 6, 6, 0⟩]⟩,
  ⟨0x2100, 1, 0x8, 0x8, .u16, .rw, .regs [⟨1, 0x2C, 0x0, false, 0, 16, 16, 0⟩]⟩,
  ⟨0x2100, 1, 0x9, 0x9, .u8, .rw, .regs [⟨1, 0x30, 0x0, false, 0, 7, 7, 0⟩]⟩,
  ⟨0x2100, 1, 0xA, 0xA, .u8, .rw, .regs [⟨1, 0x0, 0x0, false, 0, 3, 3, 0⟩]⟩,
  ⟨0x2101, 1, 0x1, 0x1, .u16, .rw, .regs [⟨1, 0x20, 0x0, false, 0, 13, 13, 0⟩]⟩,
  ⟨0x2101, 1, 0x2, 0x2, .u16, .rw, .regs [⟨1, 0x24, 0x0, false, 0, 12, 12, 0⟩]⟩,
  ⟨0x2101, 1, 0x3, 0x3, .u16, .rw, .regs [⟨1, 0x28, 0x0, false, 0, 12, 12, 0⟩]⟩,
  ⟨0x2101, 1, 0x4, 0x4, .u16, .ro, .regs [⟨1, 0x34, 0x0, false, 0, 12, 12, 0⟩]⟩,
  ⟨0x2101, 1, 0x5, 0x5, .u64, .ro, .regs [⟨1, 0x38, 0x0, false, 0, 32, 32, 0⟩, ⟨1, 0x3C, 0x0, false, 0, 32, 32, 32⟩]⟩,
  ⟨0x2101, 1, 0x6, 0x6, .u64, .ro, .regs [⟨1, 0x40, 0x0, false, 0, 32, 32, 0⟩, ⟨1, 0x44, 0x0, false, 0, 32, 32, 32⟩]⟩,
  ⟨0x2101, 1, 0x7, 0x7, .u64, .ro, .regs [⟨1, 0x48, 0x0, false, 0, 32, 32, 0⟩, ⟨1, 0x4C, 0x0, false, 0, 32, 32, 32⟩]⟩,
  ⟨0x2102, 1, 0x1, 0x1, .u32, .rw, .regs [⟨1, 0x50, 0x0, false, 0, 32, 32, 0⟩]⟩,
  ⟨0x2102, 1, 0x2, 0x2, .u16, .wo, .regs [⟨1, 0x54, 0x0, false, 0, 16, 16, 0⟩]⟩,
  ⟨0x2102, 1, 0x3, 0x3, .u32, .ro, .peek [⟨1, 0x74, 0x0, false, 0, 32, 32, 0⟩]⟩,
  ⟨0x2102, 1, 0x4, 0x4, .u32, .ro, .peek [⟨1, 0x70, 0x0, false, 0, 32, 32, 0⟩]⟩,
  ⟨0x2102, 1, 0x5, 0x5, .u32, .ro, .peek [⟨1, 0x68, 0x0, false, 0, 32, 32, 0⟩]⟩,
  ⟨0x2102, 1, 0x6, 0x6, .u32, .ro, .peek [⟨1, 0x6C, 0x0, false, 0, 32, 32, 0⟩]⟩,
  ⟨0x2102, 1, 0x7, 0x7, .u16, .ro, .peek [⟨1, 0x64, 0x0, false, 0, 16, 16, 0⟩]⟩,
  ⟨0x2102, 1, 0x8, 0x8, .u8, .wo, .regs [⟨1, 0x5C, 0x0, false, 0, 8, 8, 0⟩]⟩,
  ⟨0x2103, 1, 0x1, 0x20, .u32, .ro, .peek [⟨1, 0x80, 0x4, false, 0, 32, 32, 0⟩]⟩]

/-- The objects of 0x2200 on. -/
def objects22 : List ObjRow := [
  ⟨0x2200, 1, 0x1, 0xE0, .u32, .rw, .regs [⟨2, 0x0, 0x100, false, 0, 32, 32, 0⟩]⟩,
  ⟨0x2201, 1, 0x1, 0xE0, .u32, .ro, .regs [⟨2, 0x4, 0x100, false, 0, 32, 32, 0⟩]⟩,
  ⟨0x2202, 1, 0x1, 0xE0, .u32, .rw, .regs [⟨2, 0xC, 0x100, false, 0, 32, 32, 0⟩]⟩,
  ⟨0x2203, 1, 0x1, 0xE0, .u32, .ro, .regs [⟨2, 0x14, 0x100, false, 0, 32, 32, 0⟩]⟩,
  ⟨0x2204, 1, 0x1, 0xE0, .u64, .ro, .regs [⟨2, 0x3C, 0x100, false, 0, 32, 32, 0⟩, ⟨2, 0x40, 0x100, false, 0, 32, 32, 32⟩]⟩,
  ⟨0x2205, 1, 0x1, 0xE0, .u32, .rw, .regs [⟨2, 0x20, 0x100, false, 0, 32, 32, 0⟩]⟩,
  ⟨0x2206, 1, 0x1, 0xE0, .u8, .rw, .regs [⟨2, 0x24, 0x100, false, 0, 5, 5, 0⟩]⟩,
  ⟨0x2207, 1, 0x1, 0xE0, .u16, .ro, .peek [⟨2, 0x1C, 0x100, false, 0, 16, 16, 0⟩]⟩,
  ⟨0x2208, 1, 0x1, 0x1, .u16, .rw, .regs [⟨2, 0xF000, 0x0, false, 0, 8, 8, 0⟩, ⟨2, 0xF000, 0x0, false, 31, 1, 1, 15⟩]⟩,
  ⟨0x2208, 1, 0x2, 0x2, .u16, .rw, .regs [⟨2, 0xF008, 0x0, false, 0, 16, 16, 0⟩]⟩,
  ⟨0x2208, 1, 0x3, 0x3, .u32, .rw, .regs [⟨2, 0xF00C, 0x0, false, 0, 32, 32, 0⟩]⟩]

/-- The objects of 0x2300 on. -/
def objects23 : List ObjRow := [
  ⟨0x2300, 1, 0x1, 0x39, .u32, .rw, .regs [⟨3, 0x0, 0x200, false, 0, 32, 32, 0⟩]⟩,
  ⟨0x2301, 1, 0x1, 0x39, .u32, .ro, .regs [⟨3, 0x4, 0x200, false, 0, 32, 32, 0⟩]⟩,
  ⟨0x2302, 1, 0x1, 0x39, .domain, .rw, .own⟩,
  ⟨0x2303, 1, 0x1, 0x39, .u64, .wo, .apply 3 0x14 0x1C 0x200 2⟩,
  ⟨0x2304, 1, 0x1, 0x39, .u8, .wo, .cmd 3 0x1C 0x200 4⟩,
  ⟨0x2305, 1, 0x1, 0x1, .u8, .rw, .regs [⟨3, 0xF000, 0x0, false, 0, 5, 5, 0⟩]⟩,
  ⟨0x2306, 1, 0x1, 0x60, .u32, .rw, .regs [⟨22, 0x0, 0x4, false, 0, 32, 32, 0⟩]⟩,
  ⟨0x2307, 1, 0x1, 0x4, .u8, .ro, .regs [⟨22, 0x180, 0x4, false, 0, 3, 3, 0⟩]⟩]

/-- The objects of 0x2400 on. -/
def objects24 : List ObjRow := [
  ⟨0x2400, 1, 0x1, 0x1, .u16, .rw, .regs [⟨4, 0x4, 0x0, false, 0, 9, 9, 0⟩]⟩,
  ⟨0x2400, 1, 0x2, 0x2, .u8, .rw, .regs [⟨4, 0x8, 0x0, false, 0, 6, 6, 0⟩]⟩,
  ⟨0x2400, 1, 0x3, 0x3, .u8, .rw, .regs [⟨4, 0xC, 0x0, false, 0, 7, 7, 0⟩]⟩,
  ⟨0x2400, 1, 0x4, 0x4, .u16, .rw, .regs [⟨4, 0x10, 0x0, false, 0, 16, 16, 0⟩]⟩,
  ⟨0x2400, 1, 0x5, 0x5, .u16, .ro, .regs [⟨4, 0x14, 0x0, false, 0, 16, 16, 0⟩]⟩,
  ⟨0x2400, 1, 0x6, 0x6, .u64, .wo, .apply 4 0x1C 0x18 0x0 1⟩,
  ⟨0x2400, 1, 0x7, 0x7, .u8, .wo, .cmd 4 0x18 0x0 2⟩,
  ⟨0x2400, 1, 0x8, 0x8, .u8, .ro, .regs [⟨4, 0x24, 0x0, false, 0, 8, 8, 0⟩]⟩,
  ⟨0x2400, 1, 0x9, 0x9, .u32, .ro, .peek [⟨4, 0x2C, 0x0, false, 0, 32, 32, 0⟩]⟩,
  ⟨0x2400, 1, 0xA, 0xA, .u32, .ro, .peek [⟨4, 0x30, 0x0, false, 0, 32, 32, 0⟩]⟩,
  ⟨0x2401, 1, 0x1, 0xE0, .u32, .rw, .regs [⟨4, 0x1000, 0x40, false, 0, 32, 32, 0⟩]⟩,
  ⟨0x2402, 1, 0x1, 0xE0, .u64, .rw, .regs [⟨4, 0x1004, 0x40, false, 0, 32, 32, 0⟩, ⟨4, 0x1008, 0x40, false, 0, 32, 32, 32⟩]⟩,
  ⟨0x2403, 1, 0x1, 0xE0, .u64, .rw, .regs [⟨4, 0x1010, 0x40, false, 0, 32, 32, 0⟩, ⟨4, 0x1014, 0x40, false, 0, 32, 32, 32⟩]⟩,
  ⟨0x2404, 1, 0x1, 0xE0, .u32, .ro, .regs [⟨4, 0x1018, 0x40, false, 0, 32, 32, 0⟩]⟩,
  ⟨0x2405, 1, 0x1, 0xE0, .u64, .ro, .peek [⟨4, 0x101C, 0x40, false, 0, 32, 16, 0⟩, ⟨4, 0x1020, 0x40, false, 0, 32, 16, 16⟩, ⟨4, 0x1024, 0x40, false, 0, 32, 16, 32⟩, ⟨4, 0x1028, 0x40, false, 0, 32, 16, 48⟩]⟩,
  ⟨0x2406, 1, 0x1, 0x8, .u64, .rw, .regs [⟨4, 0x4800, 0x10, false, 0, 32, 32, 0⟩, ⟨4, 0x4804, 0x10, false, 0, 32, 32, 32⟩]⟩]

/-- The objects of 0x2500 on. -/
def objects25 : List ObjRow := [
  ⟨0x2500, 1, 0x1, 0x1, .u32, .ro, .regs [⟨5, 0x0, 0x0, false, 0, 32, 32, 0⟩]⟩,
  ⟨0x2500, 1, 0x2, 0x2, .u32, .ro, .regs [⟨5, 0x4, 0x0, false, 0, 32, 32, 0⟩]⟩,
  ⟨0x2500, 1, 0x3, 0x3, .u16, .rw, .regs [⟨5, 0x8, 0x0, false, 0, 16, 16, 0⟩]⟩,
  ⟨0x2500, 1, 0x4, 0x4, .u8, .rw, .regs [⟨5, 0x54, 0x0, false, 0, 7, 7, 0⟩]⟩,
  ⟨0x2500, 1, 0x5, 0x5, .u8, .wo, .cmd 5 0xC 0x0 1⟩,
  ⟨0x2500, 1, 0x6, 0x6, .u32, .ro, .peek [⟨5, 0x5C, 0x0, false, 0, 32, 32, 0⟩]⟩,
  ⟨0x2500, 1, 0x7, 0x7, .u32, .ro, .peek [⟨5, 0x60, 0x0, false, 0, 32, 32, 0⟩]⟩,
  ⟨0x2500, 1, 0x8, 0x8, .u32, .ro, .peek [⟨5, 0x64, 0x0, false, 0, 32, 32, 0⟩]⟩,
  ⟨0x2501, 1, 0x1, 0x10, .u32, .ro, .regs [⟨5, 0x108, 0x80, false, 0, 32, 32, 0⟩]⟩,
  ⟨0x2502, 1, 0x1, 0x10, .u32, .rw, .regs [⟨5, 0x110, 0x80, false, 0, 32, 32, 0⟩]⟩,
  ⟨0x2503, 1, 0x1, 0x10, .u8, .wo, .codes [(1, 1), (2, 2), (3, 4), (4, 8)] 5 0x104 0x80 false⟩,
  ⟨0x2504, 1, 0x1, 0x10, .u8, .rw, .regs [⟨5, 0x100, 0x80, false, 0, 2, 2, 0⟩]⟩,
  ⟨0x2505, 1, 0x1, 0x8, .u32, .rw, .regs [⟨5, 0x10, 0x4, false, 0, 32, 32, 0⟩]⟩,
  ⟨0x2506, 1, 0x1, 0x8, .u32, .rw, .regs [⟨5, 0x30, 0x4, false, 0, 32, 32, 0⟩]⟩,
  ⟨0x2507, 1, 0x1, 0x10, .u64, .ro, .regs [⟨5, 0x118, 0x80, false, 0, 32, 20, 0⟩, ⟨5, 0x11C, 0x80, false, 0, 32, 20, 32⟩]⟩,
  ⟨0x2508, 1, 0x1, 0x10, .u64, .ro, .peek [⟨5, 0x138, 0x80, false, 0, 32, 32, 0⟩, ⟨5, 0x140, 0x80, false, 0, 32, 16, 32⟩, ⟨5, 0x144, 0x80, false, 0, 32, 16, 48⟩]⟩]

/-- The objects of 0x2600 on. -/
def objects26 : List ObjRow := [
  ⟨0x2600, 1, 0x1, 0x1, .domain, .rw, .own⟩,
  ⟨0x2600, 1, 0x2, 0x2, .u32, .ro, .regs [⟨6, 0x14, 0x0, false, 0, 32, 32, 0⟩]⟩,
  ⟨0x2600, 1, 0x3, 0x3, .u64, .wo, .apply 6 0x24 0x4 0x0 4⟩,
  ⟨0x2600, 1, 0x4, 0x4, .u8, .wo, .cmd 6 0x4 0x0 8⟩,
  ⟨0x2600, 1, 0x5, 0x5, .u32, .ro, .regs [⟨6, 0x1C, 0x0, false, 0, 32, 32, 0⟩]⟩,
  ⟨0x2600, 1, 0x6, 0x6, .u32, .ro, .regs [⟨6, 0x20, 0x0, false, 0, 32, 32, 0⟩]⟩,
  ⟨0x2600, 1, 0x7, 0x7, .u32, .ro, .regs [⟨6, 0x0, 0x0, false, 0, 32, 32, 0⟩]⟩,
  ⟨0x2600, 1, 0x8, 0x8, .u16, .ro, .regs [⟨6, 0x18, 0x0, false, 0, 16, 16, 0⟩]⟩,
  ⟨0x2601, 1, 0x1, 0x1, .u8, .rw, .regs [⟨6, 0x40, 0x0, false, 0, 1, 1, 0⟩]⟩,
  ⟨0x2601, 1, 0x2, 0x2, .u8, .wo, .cmd 6 0x40 0x0 2⟩,
  ⟨0x2601, 1, 0x3, 0x3, .u32, .ro, .peek [⟨6, 0x48, 0x0, false, 0, 32, 32, 0⟩]⟩,
  ⟨0x2601, 1, 0x4, 0x4, .u32, .ro, .peek [⟨6, 0x4C, 0x0, false, 0, 32, 32, 0⟩]⟩,
  ⟨0x2601, 1, 0x5, 0x5, .u32, .ro, .regs [⟨6, 0x44, 0x0, false, 0, 32, 32, 0⟩]⟩,
  ⟨0x2602, 1, 0x1, 0x8, .u32, .rw, .regs [⟨6, 0x80, 0x8, false, 0, 32, 32, 0⟩]⟩,
  ⟨0x2603, 1, 0x1, 0x10, .u32, .rw, .regs [⟨6, 0xC0, 0x4, false, 0, 20, 20, 0⟩]⟩,
  ⟨0x2604, 1, 0x1, 0x1, .u32, .ro, .peek [⟨6, 0x38, 0x0, false, 0, 32, 32, 0⟩]⟩,
  ⟨0x2604, 1, 0x2, 0x2, .u32, .ro, .peek [⟨6, 0x50, 0x0, false, 0, 32, 32, 0⟩]⟩,
  ⟨0x2604, 1, 0x3, 0x3, .u32, .ro, .peek [⟨6, 0x54, 0x0, false, 0, 32, 32, 0⟩]⟩,
  ⟨0x2604, 1, 0x4, 0x4, .u32, .ro, .peek [⟨6, 0x58, 0x0, false, 0, 32, 32, 0⟩]⟩,
  ⟨0x2604, 1, 0x5, 0x5, .u32, .ro, .peek [⟨6, 0x60, 0x0, false, 0, 32, 32, 0⟩]⟩,
  ⟨0x2604, 1, 0x6, 0x6, .u32, .ro, .regs [⟨6, 0x3C, 0x0, false, 0, 32, 32, 0⟩]⟩]

/-- The objects of 0x2700 on. -/
def objects27 : List ObjRow := [
  ⟨0x2700, 1, 0x1, 0x1, .u16, .rw, .regs [⟨6, 0x2C, 0x0, false, 0, 11, 11, 0⟩]⟩,
  ⟨0x2700, 1, 0x2, 0x2, .u16, .ro, .regs [⟨6, 0x30, 0x0, false, 0, 11, 11, 0⟩]⟩,
  ⟨0x2700, 1, 0x3, 0x3, .u32, .ro, .regs [⟨6, 0x34, 0x0, false, 0, 32, 32, 0⟩]⟩,
  ⟨0x2700, 1, 0x4, 0x4, .u32, .ro, .regs [⟨6, 0x618, 0x0, false, 0, 32, 32, 0⟩]⟩,
  ⟨0x2700, 1, 0x5, 0x5, .u32, .ro, .regs [⟨6, 0x61C, 0x0, false, 0, 32, 32, 0⟩]⟩,
  ⟨0x2701, 1, 0x1, 0x1, .u32, .ro, .regs [⟨6, 0x600, 0x0, false, 0, 32, 32, 0⟩]⟩,
  ⟨0x2701, 1, 0x2, 0x2, .u32, .ro, .regs [⟨6, 0x608, 0x0, false, 0, 32, 32, 0⟩]⟩,
  ⟨0x2701, 1, 0x3, 0x3, .u32, .ro, .regs [⟨6, 0x60C, 0x0, false, 0, 32, 32, 0⟩]⟩,
  ⟨0x2701, 1, 0x4, 0x4, .u32, .ro, .regs [⟨6, 0x610, 0x0, false, 0, 32, 32, 0⟩]⟩,
  ⟨0x2701, 1, 0x5, 0x5, .u32, .ro, .regs [⟨6, 0x614, 0x0, false, 0, 32, 32, 0⟩]⟩,
  ⟨0x2701, 1, 0x6, 0x6, .u8, .wo, .cmd 6 0x604 0x0 1⟩,
  ⟨0x2701, 1, 0x7, 0x7, .u32, .ro, .peek [⟨6, 0x640, 0x0, false, 0, 32, 32, 0⟩]⟩,
  ⟨0x2701, 1, 0x8, 0x8, .u32, .ro, .peek [⟨6, 0x644, 0x0, false, 0, 32, 32, 0⟩]⟩,
  ⟨0x2702, 1, 0x1, 0x1, .u16, .rw, .regs [⟨6, 0x624, 0x0, false, 0, 16, 16, 0⟩]⟩,
  ⟨0x2702, 1, 0x2, 0x2, .u32, .ro, .peek [⟨6, 0x628, 0x0, false, 0, 32, 32, 0⟩]⟩,
  ⟨0x2702, 1, 0x3, 0x3, .u16, .ro, .regs [⟨6, 0x62C, 0x0, false, 0, 16, 16, 0⟩]⟩,
  ⟨0x2702, 1, 0x4, 0x4, .u64, .ro, .regs [⟨6, 0x630, 0x0, false, 0, 32, 32, 0⟩, ⟨6, 0x634, 0x0, false, 0, 32, 32, 32⟩]⟩,
  ⟨0x2702, 1, 0x5, 0x5, .u32, .ro, .peek [⟨6, 0x638, 0x0, false, 0, 32, 32, 0⟩]⟩]

/-- The objects of 0x2800 on. -/
def objects28 : List ObjRow := [
  ⟨0x2800, 1, 0x1, 0x1, .u32, .ro, .regs [⟨7, 0x0, 0x0, false, 0, 32, 32, 0⟩]⟩,
  ⟨0x2800, 1, 0x2, 0x2, .u32, .ro, .peek [⟨7, 0x40, 0x0, false, 0, 32, 32, 0⟩]⟩,
  ⟨0x2800, 1, 0x3, 0x3, .u32, .ro, .peek [⟨7, 0x44, 0x0, false, 0, 32, 32, 0⟩]⟩,
  ⟨0x2800, 1, 0x4, 0x4, .u32, .ro, .regs [⟨7, 0x58, 0x0, false, 0, 32, 32, 0⟩]⟩,
  ⟨0x2801, 1, 0x1, 0x10, .u32, .rw, .regs [⟨7, 0x100, 0x20, false, 0, 32, 32, 0⟩]⟩,
  ⟨0x2802, 1, 0x1, 0x10, .u32, .rw, .regs [⟨7, 0x104, 0x20, false, 0, 18, 18, 0⟩]⟩,
  ⟨0x2803, 1, 0x1, 0x10, .u8, .rw, .regs [⟨7, 0x108, 0x20, false, 0, 8, 8, 0⟩]⟩,
  ⟨0x2804, 1, 0x1, 0x10, .u64, .ro, .peek [⟨7, 0x110, 0x20, false, 0, 32, 32, 0⟩, ⟨7, 0x114, 0x20, false, 0, 32, 16, 32⟩, ⟨7, 0x118, 0x20, false, 0, 32, 16, 48⟩]⟩,
  ⟨0x2805, 1, 0x1, 0x1, .u16, .rw, .regs [⟨7, 0x4C, 0x0, false, 0, 16, 16, 0⟩]⟩,
  ⟨0x2805, 1, 0x2, 0x2, .u8, .ro, .regs [⟨7, 0x50, 0x0, false, 0, 8, 8, 0⟩]⟩,
  ⟨0x2805, 1, 0x3, 0x3, .u32, .ro, .peek [⟨7, 0x54, 0x0, false, 0, 32, 32, 0⟩]⟩]

/-- The objects of 0x2900 on. -/
def objects29 : List ObjRow := [
  ⟨0x2900, 1, 0x1, 0x1, .u32, .rw, .regs [⟨8, 0x0, 0x0, false, 0, 32, 32, 0⟩]⟩,
  ⟨0x2900, 1, 0x2, 0x2, .u32, .ro, .regs [⟨8, 0x4, 0x0, false, 0, 32, 32, 0⟩]⟩,
  ⟨0x2900, 1, 0x3, 0x3, .u16, .rw, .regs [⟨8, 0x8, 0x0, false, 0, 16, 16, 0⟩]⟩,
  ⟨0x2900, 1, 0x4, 0x4, .u64, .wo, .apply 8 0xC 0x14 0x0 1⟩,
  ⟨0x2900, 1, 0x5, 0x5, .u8, .rw, .regs [⟨8, 0x18, 0x0, false, 0, 3, 3, 0⟩]⟩,
  ⟨0x2900, 1, 0x6, 0x6, .u64, .rw, .regs [⟨8, 0x1C, 0x0, false, 0, 32, 32, 0⟩, ⟨8, 0x20, 0x0, false, 0, 32, 32, 32⟩]⟩,
  ⟨0x2901, 1, 0x1, 0xC, .u32, .rw, .regs [⟨8, 0x400, 0x40, false, 0, 32, 32, 0⟩]⟩,
  ⟨0x2902, 1, 0x1, 0xC, .u32, .ro, .regs [⟨8, 0x404, 0x40, false, 0, 32, 32, 0⟩]⟩,
  ⟨0x2903, 1, 0x1, 0xC, .u64, .ro, .peek [⟨8, 0x420, 0x40, false, 0, 32, 16, 0⟩, ⟨8, 0x428, 0x40, false, 0, 32, 16, 16⟩, ⟨8, 0x42C, 0x40, false, 0, 32, 16, 32⟩, ⟨8, 0x434, 0x40, false, 0, 32, 16, 48⟩]⟩,
  ⟨0x2904, 1, 0x1, 0x30, .u8, .rw, .regs [⟨8, 0x800, 0x20, false, 0, 8, 8, 0⟩]⟩,
  ⟨0x2905, 1, 0x1, 0x1, .u32, .rw, .regs [⟨8, 0x24, 0x0, false, 0, 32, 32, 0⟩]⟩,
  ⟨0x2905, 1, 0x2, 0x2, .u64, .rw, .regs [⟨8, 0x28, 0x0, false, 0, 32, 32, 0⟩, ⟨8, 0x2C, 0x0, false, 0, 32, 16, 32⟩]⟩,
  ⟨0x2905, 1, 0x3, 0x3, .u16, .rw, .regs [⟨8, 0x30, 0x0, false, 0, 12, 12, 0⟩]⟩,
  ⟨0x2906, 1, 0x1, 0x1, .u32, .ro, .regs [⟨8, 0x34, 0x0, false, 0, 32, 32, 0⟩]⟩,
  ⟨0x2906, 1, 0x2, 0x2, .u64, .ro, .regs [⟨8, 0x38, 0x0, false, 0, 32, 32, 0⟩, ⟨8, 0x3C, 0x0, false, 0, 32, 32, 32⟩]⟩,
  ⟨0x2906, 1, 0x3, 0x3, .u64, .ro, .regs [⟨8, 0x40, 0x0, false, 0, 17, 17, 0⟩, ⟨8, 0x44, 0x0, false, 0, 18, 18, 32⟩]⟩,
  ⟨0x2906, 1, 0x4, 0x4, .u32, .ro, .regs [⟨8, 0x48, 0x0, false, 0, 32, 32, 0⟩]⟩,
  ⟨0x2907, 1, 0x1, 0x8, .u32, .rw, .regs [⟨8, 0x100, 0x10, false, 0, 32, 32, 0⟩]⟩,
  ⟨0x2908, 1, 0x1, 0x8, .u64, .rw, .regs [⟨8, 0x104, 0x10, false, 0, 32, 32, 0⟩, ⟨8, 0x108, 0x10, false, 0, 8, 8, 32⟩, ⟨8, 0x108, 0x10, false, 16, 16, 16, 48⟩]⟩]

/-- The objects of 0x2A00 on. -/
def objects2A : List ObjRow := [
  ⟨0x2A00, 1, 0x1, 0x1, .u32, .ro, .regs [⟨9, 0x4, 0x0, false, 0, 32, 32, 0⟩]⟩,
  ⟨0x2A00, 1, 0x2, 0x2, .u8, .rw, .regs [⟨9, 0x8, 0x0, false, 0, 8, 8, 0⟩]⟩,
  ⟨0x2A00, 1, 0x3, 0x3, .u16, .ro, .regs [⟨9, 0xC, 0x0, false, 0, 16, 16, 0⟩]⟩,
  ⟨0x2A00, 1, 0x4, 0x4, .u32, .ro, .peek [⟨9, 0x1C, 0x0, false, 0, 32, 32, 0⟩]⟩,
  ⟨0x2A00, 1, 0x5, 0x5, .u32, .ro, .peek [⟨9, 0x20, 0x0, false, 0, 32, 32, 0⟩]⟩,
  ⟨0x2A00, 1, 0x6, 0x6, .u32, .ro, .peek [⟨9, 0x24, 0x0, false, 0, 32, 32, 0⟩]⟩,
  ⟨0x2A00, 1, 0x7, 0x7, .u16, .ro, .regs [⟨9, 0x28, 0x0, false, 0, 16, 16, 0⟩]⟩,
  ⟨0x2A01, 1, 0x1, 0x1, .u32, .rw, .regs [⟨10, 0x0, 0x0, false, 0, 32, 32, 0⟩]⟩,
  ⟨0x2A01, 1, 0x2, 0x2, .u16, .rw, .regs [⟨10, 0xC, 0x0, false, 0, 16, 16, 0⟩]⟩,
  ⟨0x2A01, 1, 0x3, 0x3, .u16, .rw, .regs [⟨10, 0x10, 0x0, false, 0, 16, 16, 0⟩]⟩,
  ⟨0x2A01, 1, 0x4, 0x4, .u8, .rw, .regs [⟨10, 0x14, 0x0, false, 0, 8, 8, 0⟩]⟩,
  ⟨0x2A01, 1, 0x5, 0x5, .u32, .rw, .regs [⟨10, 0x18, 0x0, false, 0, 32, 32, 0⟩]⟩,
  ⟨0x2A01, 1, 0x6, 0x6, .u16, .rw, .regs [⟨10, 0x1C, 0x0, false, 0, 10, 10, 0⟩]⟩,
  ⟨0x2A01, 1, 0x7, 0x7, .u32, .rw, .regs [⟨10, 0x20, 0x0, false, 0, 32, 32, 0⟩]⟩,
  ⟨0x2A01, 1, 0x8, 0x8, .u16, .rw, .regs [⟨10, 0x24, 0x0, false, 0, 16, 16, 0⟩]⟩,
  ⟨0x2A01, 1, 0x9, 0x9, .u8, .wo, .cmd 10 0x4 0x0 1⟩,
  ⟨0x2A01, 1, 0xA, 0xA, .u32, .ro, .regs [⟨10, 0x8, 0x0, false, 0, 32, 32, 0⟩]⟩,
  ⟨0x2A01, 1, 0xB, 0xB, .u8, .ro, .regs [⟨10, 0x28, 0x0, false, 0, 8, 8, 0⟩]⟩,
  ⟨0x2A02, 1, 0x1, 0x1, .u32, .ro, .peek [⟨10, 0x44, 0x0, false, 0, 32, 32, 0⟩]⟩,
  ⟨0x2A02, 1, 0x2, 0x2, .u32, .ro, .peek [⟨10, 0x48, 0x0, false, 0, 32, 32, 0⟩]⟩,
  ⟨0x2A02, 1, 0x3, 0x3, .u32, .ro, .peek [⟨10, 0x4C, 0x0, false, 0, 32, 32, 0⟩]⟩,
  ⟨0x2A02, 1, 0x4, 0x4, .u32, .ro, .peek [⟨10, 0x50, 0x0, false, 0, 32, 32, 0⟩]⟩,
  ⟨0x2A02, 1, 0x5, 0x5, .u32, .ro, .peek [⟨10, 0x54, 0x0, false, 0, 32, 32, 0⟩]⟩,
  ⟨0x2A02, 1, 0x6, 0x6, .u32, .ro, .peek [⟨10, 0x58, 0x0, false, 0, 32, 32, 0⟩]⟩,
  ⟨0x2A02, 1, 0x7, 0x7, .u32, .ro, .peek [⟨10, 0x5C, 0x0, false, 0, 32, 32, 0⟩]⟩,
  ⟨0x2A03, 1, 0x1, 0x10, .u32, .rw, .regs [⟨10, 0x400, 0x40, false, 0, 32, 32, 0⟩]⟩,
  ⟨0x2A04, 1, 0x1, 0x10, .u64, .rw, .regs [⟨10, 0x410, 0x40, false, 0, 32, 32, 0⟩, ⟨10, 0x414, 0x40, false, 0, 32, 32, 32⟩]⟩,
  ⟨0x2A05, 1, 0x1, 0x10, .u32, .rw, .regs [⟨10, 0x418, 0x40, false, 0, 32, 32, 0⟩]⟩,
  ⟨0x2A06, 1, 0x1, 0x10, .u8, .ro, .regs [⟨10, 0x404, 0x40, false, 0, 2, 2, 0⟩]⟩]

/-- The objects of 0x2B00 on. -/
def objects2B : List ObjRow := [
  ⟨0x2B00, 1, 0x1, 0x5, .u32, .ro, .regs [⟨14, 0x0, 0x1000, false, 0, 32, 32, 0⟩]⟩,
  ⟨0x2B01, 1, 0x1, 0x5, .u32, .ro, .regs [⟨14, 0x4, 0x1000, false, 0, 32, 32, 0⟩]⟩,
  ⟨0x2B02, 1, 0x1, 0x5, .u64, .ro, .peek [⟨14, 0x8, 0x1000, false, 0, 32, 32, 0⟩, ⟨14, 0xC, 0x1000, false, 0, 32, 32, 32⟩]⟩,
  ⟨0x2B03, 1, 0x1, 0x11, .u32, .rw, .regs [⟨14, 0x108, 0x1000, true, 0, 32, 32, 0⟩]⟩,
  ⟨0x2B04, 1, 0x1, 0x11, .u8, .wo, .codes [(1, 1), (2, 2), (3, 3)] 14 0x104 0x1000 true⟩,
  ⟨0x2B05, 1, 0x1, 0x11, .u32, .ro, .regs [⟨14, 0x10C, 0x1000, true, 0, 32, 32, 0⟩]⟩,
  ⟨0x2B06, 1, 0x1, 0x11, .u64, .ro, .regs [⟨14, 0x128, 0x1000, true, 0, 32, 32, 0⟩, ⟨14, 0x12C, 0x1000, true, 0, 32, 32, 32⟩]⟩,
  ⟨0x2B07, 1, 0x1, 0x1, .u8, .rw, .regs [⟨14, 0x8000, 0x0, false, 0, 1, 1, 0⟩]⟩,
  ⟨0x2B07, 1, 0x2, 0x2, .u32, .ro, .regs [⟨14, 0x8004, 0x0, false, 0, 32, 32, 0⟩]⟩,
  ⟨0x2B07, 1, 0x3, 0x3, .u32, .ro, .peek [⟨14, 0x8008, 0x0, false, 0, 32, 32, 0⟩]⟩]

/-- The objects of 0x2C00 on. -/
def objects2C : List ObjRow := [
  ⟨0x2C00, 1, 0x1, 0x1, .u16, .rw, .regs [⟨11, 0x4, 0x0, false, 0, 16, 16, 0⟩]⟩,
  ⟨0x2C00, 1, 0x2, 0x2, .u64, .ro, .peek [⟨11, 0xC, 0x0, false, 0, 32, 32, 0⟩, ⟨11, 0x10, 0x0, false, 0, 32, 32, 32⟩]⟩,
  ⟨0x2C00, 1, 0x3, 0x3, .u32, .ro, .peek [⟨11, 0x14, 0x0, false, 0, 32, 32, 0⟩]⟩,
  ⟨0x2C01, 1, 0x1, 0x29, .u64, .rw, .regs [⟨11, 0x4004, 0x40, false, 0, 32, 32, 0⟩, ⟨11, 0x400C, 0x40, false, 0, 32, 32, 32⟩]⟩,
  ⟨0x2C02, 1, 0x1, 0x29, .u32, .rw, .regs [⟨11, 0x4010, 0x40, false, 0, 32, 32, 0⟩]⟩,
  ⟨0x2C03, 1, 0x1, 0x29, .u64, .ro, .peek [⟨11, 0x4020, 0x40, false, 0, 32, 32, 0⟩, ⟨11, 0x402C, 0x40, false, 0, 32, 16, 32⟩, ⟨11, 0x4018, 0x40, false, 0, 32, 16, 48⟩]⟩,
  ⟨0x2C04, 1, 0x1, 0x10, .u32, .ro, .regs [⟨11, 0x600C, 0x40, false, 0, 32, 32, 0⟩]⟩,
  ⟨0x2C05, 1, 0x1, 0x8, .u64, .ro, .peek [⟨12, 0xC, 0x40, false, 0, 32, 32, 0⟩, ⟨12, 0x10, 0x40, false, 0, 32, 16, 32⟩, ⟨12, 0x14, 0x40, false, 0, 32, 16, 48⟩]⟩,
  ⟨0x2C06, 1, 0x1, 0x1, .u8, .ro, .regs [⟨12, 0x300, 0x0, false, 0, 8, 8, 0⟩]⟩,
  ⟨0x2C06, 1, 0x2, 0x2, .u32, .ro, .peek [⟨12, 0x308, 0x0, false, 0, 32, 32, 0⟩]⟩,
  ⟨0x2C06, 1, 0x3, 0x3, .u64, .ro, .peek [⟨12, 0x30C, 0x0, false, 0, 32, 32, 0⟩, ⟨12, 0x310, 0x0, false, 0, 32, 32, 32⟩]⟩,
  ⟨0x2C07, 1, 0x1, 0x20, .u64, .rw, .regs [⟨13, 0x100, 0x10, false, 0, 32, 32, 0⟩, ⟨13, 0x104, 0x10, false, 0, 32, 32, 32⟩]⟩,
  ⟨0x2C08, 1, 0x1, 0x20, .u32, .rw, .regs [⟨13, 0x108, 0x10, false, 0, 20, 20, 0⟩]⟩,
  ⟨0x2C09, 1, 0x1, 0x1, .u32, .ro, .peek [⟨13, 0x10, 0x0, false, 0, 32, 32, 0⟩]⟩,
  ⟨0x2C09, 1, 0x2, 0x2, .u32, .ro, .peek [⟨13, 0x14, 0x0, false, 0, 32, 32, 0⟩]⟩,
  ⟨0x2C09, 1, 0x3, 0x3, .u32, .ro, .peek [⟨13, 0x18, 0x0, false, 0, 32, 32, 0⟩]⟩,
  ⟨0x2C09, 1, 0x4, 0x4, .u32, .ro, .peek [⟨13, 0x1C, 0x0, false, 0, 32, 32, 0⟩]⟩,
  ⟨0x2C09, 1, 0x5, 0x5, .u32, .ro, .peek [⟨13, 0x20, 0x0, false, 0, 32, 32, 0⟩]⟩,
  ⟨0x2C0A, 1, 0x1, 0x200, .u32, .ro, .regs [⟨13, 0x1000, 0x4, false, 0, 32, 32, 0⟩]⟩]

/-- The objects of 0x2D00 on. -/
def objects2D : List ObjRow := [
  ⟨0x2D00, 1, 0x1, 0x1, .u32, .ro, .regs [⟨15, 0x2C, 0x0, false, 0, 32, 32, 0⟩]⟩,
  ⟨0x2D00, 1, 0x2, 0x2, .u32, .ro, .regs [⟨15, 0x30, 0x0, false, 0, 32, 32, 0⟩]⟩,
  ⟨0x2D00, 1, 0x3, 0x3, .u32, .ro, .regs [⟨15, 0x34, 0x0, false, 0, 32, 32, 0⟩]⟩,
  ⟨0x2D00, 1, 0x4, 0x4, .u32, .ro, .peek [⟨15, 0x3C, 0x0, false, 0, 32, 32, 0⟩]⟩,
  ⟨0x2D01, 1, 0x1, 0x1, .domain, .ro, .own⟩,
  ⟨0x2D02, 1, 0x1, 0x1, .u32, .ro, .peek [⟨15, 0x54, 0x0, false, 0, 32, 32, 0⟩]⟩,
  ⟨0x2D02, 1, 0x2, 0x2, .u32, .ro, .peek [⟨15, 0x58, 0x0, false, 0, 32, 32, 0⟩]⟩,
  ⟨0x2D02, 1, 0x3, 0x3, .u32, .ro, .peek [⟨15, 0x5C, 0x0, false, 0, 32, 32, 0⟩]⟩,
  ⟨0x2D02, 1, 0x4, 0x4, .u32, .ro, .peek [⟨15, 0x60, 0x0, false, 0, 32, 32, 0⟩]⟩,
  ⟨0x2D02, 1, 0x5, 0x5, .u32, .ro, .peek [⟨15, 0x64, 0x0, false, 0, 32, 32, 0⟩]⟩,
  ⟨0x2D02, 1, 0x6, 0x6, .u32, .ro, .peek [⟨15, 0x68, 0x0, false, 0, 32, 32, 0⟩]⟩,
  ⟨0x2D02, 1, 0x7, 0x7, .u32, .ro, .peek [⟨15, 0x6C, 0x0, false, 0, 32, 32, 0⟩]⟩,
  ⟨0x2D02, 1, 0x8, 0x8, .u32, .ro, .regs [⟨15, 0x40, 0x0, false, 0, 32, 32, 0⟩]⟩,
  ⟨0x2D02, 1, 0x9, 0x9, .u32, .ro, .regs [⟨15, 0x44, 0x0, false, 0, 32, 32, 0⟩]⟩]

/-- The objects of 0x2E00 on. -/
def objects2E : List ObjRow := [
  ⟨0x2E00, 1, 0x1, 0x1, .u8, .rw, .regs [⟨16, 0x0, 0x0, false, 0, 8, 8, 0⟩]⟩,
  ⟨0x2E00, 1, 0x2, 0x2, .u32, .rw, .regs [⟨16, 0xC, 0x0, false, 0, 20, 20, 0⟩]⟩,
  ⟨0x2E00, 1, 0x3, 0x3, .u16, .rw, .regs [⟨16, 0x10, 0x0, false, 0, 12, 12, 0⟩]⟩,
  ⟨0x2E00, 1, 0x4, 0x4, .u32, .rw, .regs [⟨16, 0x14, 0x0, false, 0, 32, 32, 0⟩]⟩,
  ⟨0x2E00, 1, 0x5, 0x5, .u32, .rw, .regs [⟨16, 0x18, 0x0, false, 0, 32, 32, 0⟩]⟩,
  ⟨0x2E00, 1, 0x6, 0x6, .u16, .rw, .regs [⟨16, 0x1C, 0x0, false, 0, 16, 16, 0⟩]⟩,
  ⟨0x2E00, 1, 0x7, 0x7, .u32, .rw, .regs [⟨16, 0x20, 0x0, false, 0, 20, 20, 0⟩]⟩,
  ⟨0x2E00, 1, 0x8, 0x8, .u8, .rw, .regs [⟨16, 0x2C, 0x0, false, 0, 8, 8, 0⟩]⟩,
  ⟨0x2E00, 1, 0x9, 0x9, .u32, .ro, .regs [⟨16, 0x8, 0x0, false, 0, 32, 32, 0⟩]⟩,
  ⟨0x2E00, 1, 0xA, 0xA, .u32, .ro, .regs [⟨16, 0x30, 0x0, false, 0, 32, 32, 0⟩]⟩,
  ⟨0x2E00, 1, 0xB, 0xB, .u8, .wo, .cmd 16 0x4 0x0 1⟩,
  ⟨0x2E00, 1, 0xC, 0xC, .u8, .wo, .own⟩,
  ⟨0x2E01, 1, 0x1, 0x10, .u64, .ro, .regs [⟨16, 0x100, 0x20, false, 0, 32, 32, 0⟩, ⟨16, 0x118, 0x20, false, 0, 32, 24, 32⟩, ⟨16, 0x11C, 0x20, false, 0, 4, 4, 56⟩]⟩,
  ⟨0x2E02, 1, 0x1, 0x10, .u64, .ro, .regs [⟨16, 0x104, 0x20, false, 0, 12, 12, 0⟩, ⟨16, 0x108, 0x20, false, 0, 10, 10, 16⟩, ⟨16, 0x10C, 0x20, false, 0, 10, 10, 32⟩, ⟨16, 0x110, 0x20, false, 0, 16, 16, 48⟩]⟩,
  ⟨0x2E03, 1, 0x1, 0x5, .u64, .ro, .own⟩]

/-- The objects of 0x2F00 on. -/
def objects2F : List ObjRow := [
  ⟨0x2F00, 1, 0x1, 0x1, .u16, .rw, .regs [⟨17, 0x0, 0x0, false, 0, 16, 16, 0⟩]⟩,
  ⟨0x2F00, 1, 0x2, 0x2, .u32, .ro, .regs [⟨17, 0x4, 0x0, false, 0, 32, 32, 0⟩]⟩,
  ⟨0x2F00, 1, 0x3, 0x3, .u8, .rw, .regs [⟨17, 0x1C, 0x0, false, 0, 8, 8, 0⟩]⟩,
  ⟨0x2F00, 1, 0x4, 0x4, .u32, .rw, .regs [⟨17, 0x20, 0x0, false, 0, 32, 32, 0⟩]⟩,
  ⟨0x2F00, 1, 0x5, 0x5, .u32, .rw, .regs [⟨17, 0x24, 0x0, false, 0, 32, 32, 0⟩]⟩,
  ⟨0x2F00, 1, 0x6, 0x6, .u8, .rw, .regs [⟨17, 0x28, 0x0, false, 0, 8, 8, 0⟩]⟩,
  ⟨0x2F00, 1, 0x7, 0x7, .u32, .rw, .regs [⟨17, 0x2C, 0x0, false, 0, 32, 32, 0⟩]⟩,
  ⟨0x2F00, 1, 0x8, 0x8, .u16, .rw, .regs [⟨17, 0x3C, 0x0, false, 0, 16, 16, 0⟩]⟩,
  ⟨0x2F00, 1, 0x9, 0x9, .u32, .ro, .regs [⟨17, 0x64, 0x0, false, 0, 32, 32, 0⟩]⟩,
  ⟨0x2F01, 8, 0x1, 0x80, .octets 64, .ro, .own⟩,
  ⟨0x2F09, 1, 0x1, 0xE0, .u16, .ro, .regs [⟨17, 0x400, 0x4, false, 0, 16, 16, 0⟩]⟩,
  ⟨0x2F0A, 1, 0x1, 0x1, .u16, .wo, .own⟩,
  ⟨0x2F0B, 1, 0x1, 0x8, .u32, .rw, .regs [⟨17, 0x40, 0x4, false, 0, 32, 32, 0⟩]⟩,
  ⟨0x2F0C, 1, 0x1, 0x1, .u32, .rw, .regs [⟨17, 0x30, 0x0, false, 0, 32, 32, 0⟩]⟩,
  ⟨0x2F0C, 1, 0x2, 0x2, .u32, .rw, .regs [⟨17, 0x34, 0x0, false, 0, 32, 32, 0⟩]⟩,
  ⟨0x2F0C, 1, 0x3, 0x3, .u32, .rw, .regs [⟨17, 0x38, 0x0, false, 0, 32, 32, 0⟩]⟩,
  ⟨0x2F0C, 1, 0x4, 0x4, .u16, .rw, .regs [⟨17, 0x60, 0x0, false, 0, 16, 16, 0⟩]⟩]

/-- The objects of 0x3000 on. -/
def objects30 : List ObjRow := [
  ⟨0x3000, 1, 0x1, 0x1, .u8, .ro, .regs [⟨18, 0x0, 0x0, false, 0, 3, 3, 0⟩]⟩,
  ⟨0x3000, 1, 0x2, 0x2, .u8, .wo, .codes [(1, 1), (2, 2), (3, 4), (4, 8), (5, 16), (6, 32)] 18 0x4 0x0 false⟩,
  ⟨0x3000, 1, 0x3, 0x3, .u8, .rw, .regs [⟨18, 0x8, 0x0, false, 0, 8, 8, 0⟩]⟩,
  ⟨0x3000, 1, 0x4, 0x4, .u16, .rw, .regs [⟨18, 0x10, 0x0, false, 0, 16, 16, 0⟩]⟩,
  ⟨0x3000, 1, 0x5, 0x5, .u16, .rw, .regs [⟨18, 0x14, 0x0, false, 0, 16, 16, 0⟩]⟩,
  ⟨0x3000, 1, 0x6, 0x6, .u16, .rw, .regs [⟨18, 0x20, 0x0, false, 0, 16, 16, 0⟩]⟩,
  ⟨0x3000, 1, 0x7, 0x7, .u32, .ro, .peek [⟨18, 0x34, 0x0, false, 0, 32, 32, 0⟩]⟩,
  ⟨0x3001, 1, 0x1, 0x1, .u32, .ro, .regs [⟨19, 0x0, 0x0, false, 0, 32, 32, 0⟩]⟩,
  ⟨0x3001, 1, 0x2, 0x2, .u32, .ro, .regs [⟨19, 0x8, 0x0, false, 0, 32, 32, 0⟩]⟩,
  ⟨0x3001, 1, 0x3, 0x6, .u32, .ro, .regs [⟨19, 0xC, 0x4, false, 0, 32, 32, 0⟩]⟩,
  ⟨0x3001, 1, 0x7, 0x7, .u32, .ro, .regs [⟨19, 0x1C, 0x0, false, 0, 32, 32, 0⟩]⟩,
  ⟨0x3001, 1, 0x8, 0x8, .u32, .ro, .regs [⟨19, 0x20, 0x0, false, 0, 32, 32, 0⟩]⟩,
  ⟨0x3001, 1, 0x9, 0x9, .u32, .ro, .regs [⟨19, 0x2C, 0x0, false, 0, 32, 32, 0⟩]⟩,
  ⟨0x3001, 1, 0xA, 0xA, .u32, .ro, .regs [⟨19, 0x28, 0x0, false, 0, 32, 32, 0⟩]⟩,
  ⟨0x3002, 1, 0x1, 0x1, .domain, .rw, .own⟩,
  ⟨0x3002, 1, 0x2, 0x2, .u32, .ro, .regs [⟨19, 0x24, 0x0, false, 0, 32, 32, 0⟩]⟩,
  ⟨0x3002, 1, 0x3, 0x3, .u8, .ro, .regs [⟨19, 0x50, 0x0, false, 0, 8, 8, 0⟩]⟩,
  ⟨0x3003, 1, 0x1, 0x1, .domain, .wo, .own⟩]

/-- The objects of 0x3100 on. -/
def objects31 : List ObjRow := [
  ⟨0x3100, 1, 0x1, 0x1, .u32, .ro, .regs [⟨20, 0x0, 0x0, false, 0, 32, 32, 0⟩]⟩,
  ⟨0x3100, 1, 0x2, 0x2, .u32, .ro, .peek [⟨20, 0x14, 0x0, false, 0, 32, 32, 0⟩]⟩,
  ⟨0x3100, 1, 0x3, 0x3, .octets 48, .ro, .own⟩,
  ⟨0x3100, 1, 0x4, 0x4, .u32, .wo, .own⟩,
  ⟨0x3100, 1, 0x5, 0x5, .u64, .ro, .regs [⟨20, 0x18, 0x0, false, 0, 32, 32, 0⟩, ⟨20, 0x1C, 0x0, false, 0, 16, 16, 32⟩]⟩,
  ⟨0x3100, 1, 0x6, 0x6, .u32, .ro, .peek [⟨20, 0x10, 0x0, false, 0, 32, 32, 0⟩]⟩,
  ⟨0x3101, 1, 0x1, 0x80, .octets 48, .ro, .own⟩,
  ⟨0x3102, 1, 0x1, 0x80, .octets 48, .ro, .own⟩]

/-- The objects of 0x4000 on. -/
def objects40 : List ObjRow := [
  ⟨0x4000, 256, 0x1, 0x1, .u32, .rw, .own⟩,
  ⟨0x4000, 256, 0x2, 0x2, .u32, .rw, .own⟩]

/-- The objects of 0x6000 on. -/
def objects60 : List ObjRow := [
  ⟨0x6000, 256, 0x1, 0x1, .domain, .rw, .own⟩,
  ⟨0x6000, 256, 0x2, 0x2, .u64, .rw, .own⟩,
  ⟨0x6000, 256, 0x3, 0x3, .u64, .rw, .own⟩,
  ⟨0x6000, 256, 0x4, 0x4, .u32, .ro, .own⟩,
  ⟨0x6000, 256, 0x5, 0x5, .u32, .rw, .own⟩]

/-- The rows of the object tables whose first index has a high byte. -/
def objectsOf (high : Nat) : List ObjRow :=
  match high with
  | 0x10 => objects10
  | 0x14 => objects14
  | 0x16 => objects16
  | 0x18 => objects18
  | 0x1A => objects1A
  | 0x20 => objects20
  | 0x21 => objects21
  | 0x22 => objects22
  | 0x23 => objects23
  | 0x24 => objects24
  | 0x25 => objects25
  | 0x26 => objects26
  | 0x27 => objects27
  | 0x28 => objects28
  | 0x29 => objects29
  | 0x2A => objects2A
  | 0x2B => objects2B
  | 0x2C => objects2C
  | 0x2D => objects2D
  | 0x2E => objects2E
  | 0x2F => objects2F
  | 0x30 => objects30
  | 0x31 => objects31
  | 0x40 => objects40
  | 0x60 => objects60
  | _ => []

/-- The rows that hold an index. Every row's indices share their high byte. -/
def rowsOf (index : Nat) : List ObjRow := (objectsOf (index / 256)).filter fun r => r.index ≤ index && index < r.index + r.count

/-- The row of an object. -/
def objectRow (index sub : Nat) : Option ObjRow := (rowsOf index).find? fun r => r.first ≤ sub && sub ≤ r.last

/-- Subindex 00 of a record or array, which no table lists (R481): the highest subindex that the 8 bits of a subindex reach. -/
def topSub (index : Nat) : Option Nat :=
  let rs := rowsOf index
  if rs.isEmpty ∨ rs.any (fun r => r.first == 0) then none else some (min 255 (rs.foldl (fun m r => max m r.last) 0))

end Sys2Proof.Machine
end

