-- ==== Sys2Proof/Machine/Dictionary.lean ====
section
/-! DEFINITION. The reading and writing of the dictionary's objects (R480 to R490, R497, R513, R520). -/

namespace Sys2Proof.Machine

/-! ### What an object is -/

/-- An object found in the tables. `n` counts indices from the row's first, `i` subindices from the row's first. -/
structure ObjInfo where
  ty : ObjTy
  acc : ObjAcc
  kind : ObjKind
  n : Nat
  i : Nat
  deriving DecidableEq, Repr

/-- The object of an index and subindex, or the abort code of R481. -/
def objInfo (index sub : Nat) : Except Nat ObjInfo :=
  match objectRow index sub with
  | some r => .ok { ty := r.ty, acc := r.acc, kind := r.kind, n := index - r.index, i := sub - r.first }
  | none =>
    if (rowsOf index).isEmpty then .error 0x06020000
    else match topSub index with
      | some _ => if sub = 0 then .ok { ty := .u8, acc := .ro, kind := .own, n := 0, i := 0 } else .error 0x06090011
      | none => .error 0x06090011

/-- The right bit that a write of an index needs (R482). -/
def writeRight (index : Nat) : Nat :=
  if (0x2600 ≤ index ∧ index ≤ 0x28FF) ∨ index = 0x2A01 ∨ (0x6000 ≤ index ∧ index ≤ 0x60FF) then 1
  else if (0x2000 ≤ index ∧ index ≤ 0x20FF) ∨ (0x2B00 ≤ index ∧ index ≤ 0x2CFF) ∨ (0x3000 ≤ index ∧ index ≤ 0x30FF) ∨
      (0x4000 ≤ index ∧ index ≤ 0x40FF) then 3
  else 2

/-- The rights that a request carries (R483); the replay of a stored configuration carries all four (R577). -/
def State.rightsOf (s : State) : ReqSrc → Nat
  | .usdo | .rpdo => s.get DIC_RIGHTS.can
  | .lantern ip _ _ => match s.clientOf ip with
    | some n => s.get DIC_CLIENT_CFG.rights n
    | none => s.get DIC_RIGHTS.lan_default
  | .replay => 0xF

/-- A request that lacks its right (R483). -/
def State.denied (s : State) : State := (s.inc DIC_DENIED_CNT.count).err DIC_ERR.rights_denied

/-! ### Values -/

/-- The page offset of a part for instance `i`. -/
def ObjPart.off (p : ObjPart) (i : Nat) : Nat :=
  if p.thread then p.base + 4096 * (i / 4) + 64 * (i % 4) else p.base + p.stride * i

/-- The place in the object of a part of a register's word. -/
def ObjPart.take (p : ObjPart) (w : Nat) : Nat := min (2 ^ p.width - 1) (bits w p.lsb p.src) * 2 ^ p.pos

/-- A register has an RC field. -/
def hasRc (page off : Nat) : Bool := (fieldsOfPage page).any fun f => f.acc == .rc && (f.locate off).isSome

/-- The word that a register shows to the dictionary engine: its own copies stand for the RC fields (R45, R642). -/
def State.dicWord (s : State) (page off : Nat) : Nat :=
  (fieldsOfPage page).foldl (fun w f => match f.locate off with
    | some (i, j) => if f.acc = .rc then (w ^^^ bits w f.lsb f.width <<< f.lsb) ||| s.copyOf f i j <<< f.lsb else w
    | none => w) (s.csrView 17 page off)

/-- The value of a list of parts, with no side effect. -/
def State.partsView (s : State) (ps : List ObjPart) (i : Nat) : Nat :=
  (ps.map fun p => p.take (s.dicWord p.page (p.off i))).sum

/-- The value of a list of parts, read in order by the registers' own rules; a register with counts is read without clearing
(R45). -/
def State.partsRead (s : State) (ps : List ObjPart) (i : Nat) : State × Nat :=
  ps.foldl (fun (s, v) p =>
    if hasRc p.page (p.off i) then (s.engineTrip p.page 0, v + p.take (s.dicWord p.page (p.off i)))
    else
      let (s, w) := s.csrRead 17 p.page (p.off i) allBits
      (s.engineTrip p.page 0, v + p.take w)) (s, 0)

/-- The bytes of a text. -/
def textBytes (t : String) : List (BitVec 8) := t.toList.map fun c => BitVec.ofNat 8 c.toNat

/-- The order code of the part (R641). -/
def orderCode : List (BitVec 8) :=
  textBytes "SKD-OMT131-" ++ textBytes (if Config.grade28 then "28" else "32") ++ textBytes "-A1-" ++
    textBytes (if Config.gradeE then "E" else "C")

/-- The communication objects of RPDO `n` (R520). -/
def State.rpdo (s : State) (n : Nat) : Pdo :=
  (Sparse.get none s.dic.rpdo n).getD { cob := 0x80000200 + 0x100 * n + s.dic.node, kind := 0xFF }

/-- The communication objects of TPDO `n` (R520). -/
def State.tpdo (s : State) (n : Nat) : Pdo :=
  (Sparse.get none s.dic.tpdo n).getD { cob := 0x80000180 + 0x100 * n + s.dic.node, kind := 0xFE }

/-- Changes RPDO `n`. -/
def State.updRpdo (s : State) (n : Nat) (f : Pdo → Pdo) : State :=
  s.updDic fun d => { d with rpdo := Sparse.set none d.rpdo n (some (f (s.rpdo n))) }

/-- Changes TPDO `n`. -/
def State.updTpdo (s : State) (n : Nat) (f : Pdo → Pdo) : State :=
  s.updDic fun d => { d with tpdo := Sparse.set none d.tpdo n (some (f (s.tpdo n))) }

/-- A channel table (R510). -/
def State.table (s : State) (k : Nat) : ChanTable := Sparse.get {} s.dic.tables k

/-- Changes a channel table. -/
def State.updTable (s : State) (k : Nat) (f : ChanTable → ChanTable) : State :=
  s.updDic fun d => { d with tables := Sparse.upd {} d.tables k f }

/-- The number of planes of a table (R510). -/
def ChanTable.planes (t : ChanTable) : Nat := bits t.desc 24 7

/-- A table that a write is in progress on or a commit armed for (R511). -/
def ChanTable.inProgress (t : ChanTable) : Bool := t.state == 1 || t.state == 2

/-- The address that a register window holds (R513). -/
def State.windowAddr (s : State) (w : Nat) : Nat :=
  let a := Sparse.get 0 s.dic.windows w
  csrAddr (bits a 16 7) (bits a 2 14 * 4)

/-- The register window shows its register with no side effect. -/
def State.windowView (s : State) (w : Nat) : Nat :=
  let a := Sparse.get 0 s.dic.windows w
  s.csrView 17 (bits a 16 7) (bits a 2 14 * 4)

/-- The fixed-size PDO objects at a subindex. -/
def Pdo.comm (p : Pdo) (sub : Nat) : Nat :=
  match sub with
  | 1 => p.cob
  | 2 => p.kind
  | 3 => p.inhibit
  | _ => p.timer

/-- A mapping object at a subindex. -/
def Pdo.mapping (p : Pdo) (sub : Nat) : Nat := if sub = 0 then p.count else p.map.getD (sub - 1) 0

/-- The value of an object of the engine itself that is a number and that a read leaves unchanged. -/
def State.ownView (s : State) (index sub n : Nat) : Nat :=
  if index = 0x1001 then s.errorRegister
  else if index = 0x1003 then (if sub = 0 then s.dic.history.length else s.dic.history.getD (sub - 1) 0)
  else if index = 0x1014 then s.emcyCob
  else if index = 0x1015 then s.dic.inhibitEmcy
  else if index = 0x1017 then s.dic.heartbeat
  else if index = 0x1018 ∧ sub ≠ 0 then (if sub = 1 then Config.vendorId % 2 ^ 32 else 0x131)
  else if index / 4 = 0x1400 / 4 ∧ sub ≠ 0 then (s.rpdo n).comm sub
  else if index / 4 = 0x1600 / 4 then (s.rpdo n).mapping sub
  else if index / 4 = 0x1800 / 4 ∧ sub ≠ 0 then (s.tpdo n).comm sub
  else if index / 4 = 0x1A00 / 4 then (s.tpdo n).mapping sub
  else if index = 0x2E03 ∧ sub ≠ 0 then
    (if sub = 5 then s.get TAR_RLANE_WARN.lanes 0 + 2 ^ 32 * s.get TAR_RLANE_WARN.lanes 1
     else s.get TAR_LANE_WARN.lanes (2 * sub - 2) + (if sub = 4 then 0 else 2 ^ 32 * s.get TAR_LANE_WARN.lanes (2 * sub - 1)))
  else if index / 256 = 0x40 ∧ sub = 1 then Sparse.get 0 s.dic.windows n
  else if index / 256 = 0x40 ∧ sub = 2 then s.windowView n
  else if index / 256 = 0x60 ∧ sub = 2 then (s.table n).desc
  else if index / 256 = 0x60 ∧ sub = 3 then (s.table n).apply
  else if index / 256 = 0x60 ∧ sub = 4 then
    (s.table n).state + 256 * (s.table n).code + 65536 * b2n (s.table n).copyB
  else if index / 256 = 0x60 ∧ sub = 5 then (s.table n).scalar
  else (topSub index).getD 0

/-- The bytes of a text or octet object of the engine itself. -/
def State.ownBytes (s : State) (index sub n : Nat) : List (BitVec 8) :=
  if index = 0x1008 then textBytes "Nalyorix Omentos"
  else if index = 0x1009 then textBytes "A1"
  else if index = 0x100A then (Config.softwareVersion (s.get BOT_KEEPER_VER.ver)).take 64
  else if index = 0x2000 then orderCode
  else if index / 16 = 0x2F0 then s.recImage (128 * n + sub - 1)
  else if index = 0x3101 then s.erqEntry (sub - 1)
  else if index = 0x3102 then s.erqEntry (127 + sub)
  else match s.erq.entries with
    | e :: _ => e.bytes
    | [] => List.replicate 48 0

/-- The value of an object with no side effect, in the size of its type. -/
def State.objView (s : State) (o : ObjInfo) (index sub : Nat) : List (BitVec 8) :=
  match o.ty with
  | .text | .octets _ => s.ownBytes index sub o.n
  | .domain => []
  | _ => leBytes o.ty.size (match o.kind with
    | .regs ps | .peek ps => s.partsView ps o.i
    | .own => s.ownView index sub o.n
    | _ => 0)

/-- The access of a register window (R513): the state, the response status and the bytes read. -/
def State.windowAccess (s : State) (w : Nat) (data : Option (List (BitVec 8))) : State × Nat × List (BitVec 8) :=
  let (s, st, bytes) := s.csrAccess 17 (s.windowAddr w) 4 data
  (s.engineTrip (csrPage (s.windowAddr w)) st, st, bytes)

/-- The abort code of a response status (R488, R513, R514); a refused write stores its register's address. -/
def State.statusCode (s : State) (st addr : Nat) : State × Nat :=
  if st = 0 then (s, 0)
  else if st = 3 then
    ((s.put DIC_LAST_ABORT_ADDR_LO.addr (addr % 2 ^ 32)).put DIC_LAST_ABORT_ADDR_HI.addr (addr / 2 ^ 32), 0x0F060000)
  else (s, 0x06060000)

/-- Reads the value of an object by its own rules (R520): the abort code and the bytes. -/
def State.objRead (s : State) (o : ObjInfo) (index sub : Nat) : State × Nat × List (BitVec 8) :=
  match o.kind with
  | .regs ps =>
    let (s, v) := s.partsRead ps o.i
    (s, 0, leBytes o.ty.size v)
  | .own =>
    if index = 0x3100 ∧ sub = 3 then (s.erqHead, 0, s.objView o index sub)
    else if index / 256 = 0x40 ∧ sub = 2 then
      let (s, st, b) := s.windowAccess o.n none
      let (s, c) := s.statusCode st (s.windowAddr o.n)
      (s, c, b)
    else (s, 0, s.objView o index sub)
  | _ => (s, 0, s.objView o index sub)

/-! ### Reads -/

/-- The checks of a read (R481, R483, R503): the object or the abort code. `ty` is the type code that a Lantern item names. -/
def State.readCheck (s : State) (src : ReqSrc) (index sub : Nat) (ty : Option Nat) : Except Nat ObjInfo :=
  match objInfo index sub with
  | .error c => .error c
  | .ok o =>
    if o.acc = .wo then .error 0x06010001
    else if ¬ (s.rightsOf src).testBit 0 then .error 0x06010000
    else if ty.any (fun t => t != o.ty.code) then .error 0x06070010
    else .ok o

/-- A refused request shows its code, and a right that was missing is counted (R483, R514). -/
def State.refuseCode (s : State) (index sub code : Nat) : State :=
  (if code = 0x06010000 then s.denied else s).abortCode index sub code

/-- A read request of an object that is no DOMAIN: the abort code and the bytes. -/
def State.dicRead (s : State) (src : ReqSrc) (index sub : Nat) (ty : Option Nat) : State × Nat × List (BitVec 8) :=
  let s := s.inc DIC_REQ_CNT.count
  match s.readCheck src index sub ty with
  | .error c => (s.refuseCode index sub c, c, [])
  | .ok o =>
    if o.ty = .domain then (s.refuseCode index sub 0x06070010, 0x06070010, [])
    else
      let (s, c, b) := s.objRead o index sub
      (s.refuseCode index sub c, c, b)

/-! ### Writes -/

/-- The family code of a refused write (R488, R514): the code that the unit publishes, or 0x0F06_0000. -/
def State.refusedCode (s : State) (page off : Nat) : State × Nat :=
  if page = 15 then (s, 0x06090030)
  else if page = 20 then (s, 0x06090030)
  else if page = 4 ∧ off = 0x18 ∧ s.get PRI_CFG_ERR.code ≠ 0 then (s, 0x0F040000 + s.get PRI_CFG_ERR.code)
  else if page = 10 ∧ off = 4 ∧ s.get RDO_CFG_ERR.code ≠ 0 then (s, 0x0F050000 + s.get RDO_CFG_ERR.code)
  else s.statusCode 3 (csrAddr page off)

/-- The abort code of a register write of the engine that was answered with status `st` (R488, R514). -/
def State.writeCode (s : State) (st page off : Nat) : State × Nat :=
  if st = 3 then s.refusedCode page off else s.statusCode st (csrAddr page off)

/-- One register write of the engine: the abort code. -/
def State.engineWrite (s : State) (page off m v : Nat) : State × Nat :=
  let (s, st) := s.csrWrite 17 page off m v
  (s.engineTrip page st).writeCode st page off

/-- Writes the parts of an object in order, up to the first that is refused. -/
def State.partsWrite (s : State) (ps : List ObjPart) (i v : Nat) : State × Nat :=
  ps.foldl (fun (s, c) p =>
    if c ≠ 0 then (s, c)
    else s.engineWrite p.page (p.off i) ((2 ^ p.width - 1) * 2 ^ p.lsb) (bits v p.pos p.width * 2 ^ p.lsb)) (s, 0)

/-- The service right is held by the CAN side or by an enabled client (R484). -/
def State.serviceHeld (s : State) : Bool :=
  (s.get DIC_RIGHTS.can).testBit 3 ||
    (List.range 16).any fun n => s.bit DIC_CLIENT_CFG.enable n && (s.get DIC_CLIENT_CFG.rights n).testBit 3

/-- An object may stand in a PDO mapping with a length in bits (R497). -/
def State.mappable (s : State) (tx : Bool) (entry : Nat) : Bool :=
  let index := entry / 65536
  let sub := entry / 256 % 256
  match objInfo index sub with
  | .error _ => false
  | .ok o =>
    let n := if o.ty = .text then (s.ownBytes index sub o.n).length else o.ty.size
    let fits : Bool := decide (0 < n) && decide (n ≤ 8) && decide (entry % 256 = 8 * n)
    let may : Bool := if tx then o.acc != .wo else o.acc == .rw && writeRight index == 1
    fits && may

/-- The abort code of a mapping of the first `count` entries of `map`, 0 where it is permitted (R497). -/
def State.mapCode (s : State) (tx : Bool) (map : List Nat) (count : Nat) : Nat :=
  let used := (List.range count).map fun k => map.getD k 0
  if 16 < count then 0x06040042
  else if used.any fun e => !s.mappable tx e then 0x06040041
  else if 64 < (used.map fun e => e % 256 / 8).sum then 0x06040042
  else 0

/-- A write to a mapping object (R497, R520): the new PDO or the abort code. -/
def State.writeMap (s : State) (p : Pdo) (tx : Bool) (sub v : Nat) : Except Nat Pdo :=
  if sub = 0 then
    let c := s.mapCode tx p.map v
    if c = 0 then .ok { p with count := v } else .error c
  else
    let map := ((List.range 16).map fun k => if k = sub - 1 then v else p.map.getD k 0)
    let c := if v = 0 ∨ s.mappable tx v then (if sub ≤ p.count then s.mapCode tx map p.count else 0) else 0x06040041
    if c = 0 then .ok { p with map := map } else .error c

/-- A write to a communication object (R497, R520): the new PDO or the abort code. -/
def Pdo.writeComm (p : Pdo) (sub v : Nat) : Except Nat Pdo :=
  match sub with
  | 1 => .ok { p with cob := bits v 0 11 + 2 ^ 31 * bits v 31 1 }
  | 2 => if v = 0xFE ∨ v = 0xFF then .ok { p with kind := v } else .error 0x06090030
  | 3 => .ok { p with inhibit := v }
  | _ => .ok { p with timer := v }

/-- A write to an object of the engine itself or to one with a rule of its own: the abort code. Channel tables and windows
are written elsewhere. -/
def State.ownWrite (s : State) (index sub n v : Nat) : State × Nat :=
  let pdo (e : Except Nat Pdo) (put : State → Pdo → State) : State × Nat := match e with
    | .ok p => (put s p, 0)
    | .error c => (s, c)
  let putR (s : State) (p : Pdo) : State := s.updRpdo n fun _ => p
  let putT (s : State) (p : Pdo) : State := s.updTpdo n fun _ => p
  if index = 0x1003 then (if v = 0 then (s.updDic fun d => { d with history := [] }, 0) else (s, 0x06090030))
  else if index = 0x1014 then (s.updDic fun d => { d with cobEmcy := some (bits v 0 11 + 2 ^ 31 * bits v 31 1) }, 0)
  else if index = 0x1015 then (s.updDic fun d => { d with inhibitEmcy := v }, 0)
  else if index = 0x1017 then (s.updDic fun d => { d with heartbeat := v }, 0)
  else if index / 4 = 0x1400 / 4 then pdo ((s.rpdo n).writeComm sub v) putR
  else if index / 4 = 0x1600 / 4 then pdo (s.writeMap (s.rpdo n) false sub v) putR
  else if index / 4 = 0x1800 / 4 then pdo ((s.tpdo n).writeComm sub v) putT
  else if index / 4 = 0x1A00 / 4 then pdo (s.writeMap (s.tpdo n) true sub v) putT
  else if index = 0x2E00 then s.engineWrite 16 4 0xF0002 (2 + 2 ^ 16 * bits v 0 4)
  else if index = 0x2F0A then (s.forgetRec (bits v 0 10), 0)
  else if index = 0x3100 then
    let (s, ok) := s.erqPop v
    (s, if ok then 0 else 0x06090030)
  else (s.updDic fun d => { d with windows := Sparse.set 0 d.windows n (v &&& 0x7FFFFC) }, 0)

/-- Step 3 of a write (R487): the register write or the action, with the refusals of this chapter. -/
def State.objWrite (s : State) (o : ObjInfo) (index sub v : Nat) : State × Nat :=
  match o.kind with
  | .regs ps =>
    if index = 0x2001 ∧ sub = 1 ∧ (v = 0 ∨ 127 < v) then (s, 0x06090030)
    else
      let (t, c) := s.partsWrite ps o.i v
      if (index = 0x2003 ∨ index = 0x2004) ∧ ¬ t.serviceHeld then (s, 0x06090030) else (t, c)
  | .peek _ => (s, 0)
  | .cmd page base stride b => s.engineWrite page (base + stride * o.i) b b
  | .codes l page base stride thread =>
    match l.find? (fun e => e.1 == v) with
    | none => (s, 0x06090030)
    | some e =>
      let off := if thread then base + 4096 * (o.i / 4) + 64 * (o.i % 4) else base + stride * o.i
      s.engineWrite page off e.2 e.2
  | .apply page lo cmd stride b =>
    let (s, c) := s.engineWrite page (lo + stride * o.i) allBits (v % 2 ^ 32)
    if c ≠ 0 then (s, c)
    else
      let (s, c) := s.engineWrite page (lo + 4 + stride * o.i) allBits (v / 2 ^ 32)
      if c ≠ 0 then (s, c) else s.engineWrite page (cmd + stride * o.i) b b
  | .own => s.ownWrite index sub o.n v

/-- Step 1 of a write (R481, R482, R483, R487): the object or the abort code. -/
def State.writeCheck (s : State) (src : ReqSrc) (index sub : Nat) (ty : Option Nat) (len : Nat) : Except Nat ObjInfo :=
  match objInfo index sub with
  | .error c => .error c
  | .ok o =>
    if o.acc = .ro then .error 0x06010002
    else if ¬ (s.rightsOf src).testBit (writeRight index) then .error 0x06010000
    else if ty.any (fun t => t != o.ty.code) then .error 0x06070010
    else if o.ty = .domain ∨ o.ty.size = len then .ok o
    else .error 0x06070010

/-- The object is a DOMAIN. -/
def isDomain (index sub : Nat) : Bool := match objInfo index sub with
  | .ok o => o.ty == .domain
  | .error _ => false

/-- The object is the value of a register window (R513). -/
def isWindow (index sub : Nat) : Bool := index / 256 == 0x40 && sub == 2

/-- The flags of an entry on an object (R516): DOMAIN and window. -/
def objFlags (index sub : Nat) : Nat := b2n (isDomain index sub) + 16 * b2n (isWindow index sub)

/-- A write of `v` that step 1 refuses: its old and new value were not read, so that their places in the entry are free. For a DOMAIN
the old value is 0 and the new one begins with the length announced, `v`; for a window the new one is `v` with the address (R513,
R516). -/
def State.refuseWrite (s : State) (src : ReqSrc) (index sub flags code v : Nat) : State :=
  let flags := flags ||| objFlags index sub
  let domain := flags.testBit 0
  let old := if domain then 0 else s.fresh 64
  let s := s.tookFree
  let new := if domain then v % 2 ^ 32 + 2 ^ 32 * (s.fresh 64 % 2 ^ 32)
    else if flags.testBit 4 then v % 2 ^ 32 + 2 ^ 32 * (s.windowAddr (index % 256) % 2 ^ 32)
    else s.fresh 64
  (s.tookFree.journal src index sub (flags ||| 2) code old new).refuseCode index sub code

/-- Steps 4 and 5 of a write (R487). -/
def State.finishWrite (s : State) (src : ReqSrc) (index sub code old new flags : Nat) : State :=
  ((s.updDic fun d => { d with busy := false }).journal src index sub (flags + (if code = 0 then 0 else 2)) code old new).abortCode
    index sub code

/-- Step 3 with the mark of a request in work; a write that resets the engine ends there (R487, R567). -/
def State.marked (s : State) (f : State → State × Nat) : State × Nat := f (s.updDic fun d => { d with busy := true })

end Sys2Proof.Machine
end

