-- ==== Sys2Proof/Machine/RingServe.lean ====
section
/-! DEFINITION. What a target does with a packet, the responses and the wake of sleeping targets (R316 to R318, R361, R428 to
R431, R438, R443 to R448, R460 to R467, R594). -/

namespace Sys2Proof.Machine

/-! ### A packet leaves and arrives -/

/-- Counts the cycles that a packet waited for its regulator (R438): PST for the posted/event class, GUAR for a request to a stop
in the guaranteed mask, else REQ; a disabled regulator admits every packet. -/
def State.countHeld (s : State) (p : Pkt) (n : Nat) : State :=
  let f := if ¬ p.cmd.isRequest then RNG_INI_PST.enable
    else if (s.get RNG_INI_GUAR_MASK.stops p.ini).testBit p.dst then RNG_INI_GUAR.enable else RNG_INI_REQ.enable
  if s.bit f p.ini then s.add RNG_INI_HELD_CNT.cycles n p.ini else s

/-- The flits of a packet have been carried to its target (R432, R455). -/
def State.carryPkt (s : State) (p : Pkt) : State :=
  s.carry p.ring p.dir (iniStop p.ini) p.dst (if p.cmd = .event then 1 else dataFlits p.addr p.carried)

/-- An earlier packet takes the way of the `k`-th and has not arrived yet (R375, R433). -/
def Ring.behind (r : Ring) (k : Nat) (p : Pkt) : Bool := (r.reqs.take k).any fun q => q.sameWay p Pkt.dst

/-- Takes the packet that a command names off the ring: one on its way, or one that a unit offers now. None where there is no
such packet, an earlier one of its way comes first, no tag is free or the packet is held (R375, R442, R445); bytes on both sides of
a 256-byte boundary make no packet (R432). -/
def State.takePkt (s : State) (cmd : Cmd) : PktSrc → State × Option Pkt
  | .flight k =>
    match s.ring.reqs[k]? with
    | some p => if p.cmd = cmd ∧ ¬ s.ring.behind k p then (s.updRing fun r => { r with reqs := r.reqs.eraseIdx k }, some p) else (s, none)
    | none => (s, none)
  | .unit ini addr len data =>
    let p : Pkt := { ini := ini.val, cmd, addr := addr.val, len := if cmd = .read then len.val else data.length,
                     data := if cmd = .read then [] else data }
    if p.len = 0 ∨ ¬ oneBlock p.addr p.len then (s, none)
    else
      let before := s.ring.reqs.length
      let t := if cmd.isRequest then s.request p .unit else some (s.offer p)
      match t with
      | none => (s.tagWait ini.val, none)
      | some t =>
        match t.ring.reqs[before]? with
        | some q => if t.ring.behind before q then (t, none) else (t.updRing fun r => { r with reqs := r.reqs.eraseIdx before }, some q)
        | none => (t, none)

/-- Sends the response to a request (R430, R431) on the route of its own stop's entry for the requesting stop, with the g of the
request (R433); the posted class gets none. -/
def State.respond (s : State) (p : Pkt) (status : Nat) (data : List (BitVec 8)) : State :=
  if ¬ p.cmd.isRequest then s
  else
    let (s, ring, dir) := s.takeRoute p.dst (iniStop p.ini) p.g
    s.updRing fun r => { r with
      rsps := r.rsps ++ [{ ini := p.ini, slot := p.slot, epoch := p.epoch, cmd := p.cmd, src := p.dst, status, addr := p.addr,
                           g := p.g, ring, dir, data }] }

/-- The operation code of an access in a refusal (R601). -/
def Cmd.opCode : Cmd → Nat
  | .read => 0
  | .amoAdd => 2
  | .amoSwap => 2
  | _ => 1

/-- The CSR page of the unit that serves an address (R593, R594). -/
def pageOf (a : Nat) : Nat :=
  if inCsr a then refusalPage a
  else match memKind a with
    | some .hbm => 9
    | some (.scratchpad _) => 12
    | some .mailbox => 12
    | some (.localRam _) => 14
    | none =>
      if 0x3000000000 ≤ a ∧ a < 0x3004000000 then 4
      else if 0x3100000000 ≤ a ∧ a < 0x3100080000 then 6
      else if 0x3200000000 ≤ a ∧ a < 0x3205000000 then 14
      else 0

/-- A request is refused: an error response, no side effect, a log entry (R3, R594). -/
def State.refusePkt (s : State) (p : Pkt) (reason : Nat) : State :=
  (s.refuseAccess (pageOf p.addr) p.ini p.addr p.cmd.opCode p.len reason).respond p 1 []

/-! ### Memory targets -/

/-- The SECDED outcome of the word that a target reads, counted and reported by its unit (R318, R361, R464, R466). -/
def State.targetEcc (s : State) (a : Nat) (o : Codeword) : State :=
  match memKind a with
  | some .hbm => s.hbmEcc a o
  | some (.scratchpad b) => (match o with
    | .good => s
    | .corrected => (s.inc SPD_BANK_ECC_CORR_CNT.count b).err SPD_ERR.ecc_corrected 0 b
    | .uncorrectable => (s.inc SPD_BANK_ECC_UNCORR_CNT.count b).err SPD_ERR.ecc_uncorrectable 0 b a)
  | some .mailbox => (match o with
    | .good => s
    | .corrected => (s.inc SPD_MBX_ECC_CORR_CNT.count).err SPD_ERR.ecc_corrected 0 noInst
    | .uncorrectable => (s.inc SPD_MBX_ECC_UNCORR_CNT.count).err SPD_ERR.ecc_uncorrectable 0 noInst a)
  | some (.localRam c) => (match o with
    | .good => s
    | .corrected => s.lramCorrected c
    | .uncorrectable => s.lramUncorrectable c)
  | none => s

/-- Cycles for which the target stalled the packet (R361, R461). -/
def State.targetStall (s : State) (a n : Nat) : State :=
  match memKind a with
  | some (.scratchpad b) => s.add SPD_BANK_CONFLICT_CNT.count n b
  | some (.localRam c) => s.add CPU_LRAM_EXT_STALL.cycles n c
  | _ => s

/-- The memory at the address takes accesses now: the scratchpad bank or the mailbox is READY (R465, R466). -/
def State.memReady (s : State) (a : Nat) : Bool :=
  match memKind a with
  | some (.scratchpad b) => s.get SPD_BANK_STATUS.state b == 2
  | some .mailbox => s.get SPD_MBX_STATUS.state == 2 && s.bit SPD_MBX_STATUS.port_r_open
  | _ => true

/-- A write covers whole SECDED words only, so that it reads none (R463). -/
def wholeWords (a n : Nat) : Bool := a % eccWord a == 0 && n % eccWord a == 0

/-- The errors that a target's read of its memory finds, counted and reported by its unit (R318, R361, R464, R466), and whether one
is uncorrectable. With `part` only the words that the range does not cover whole are read. -/
def State.targetRead (s : State) (a n : Nat) (part : Bool) (ecc : EccMap) : State × Bool :=
  let found := s.eccFound a n part ecc
  (found.foldl (fun s e => s.targetEcc e.1 e.2) s, eccBad found)

/-- A target writes its memory: the words that the write covers in part are read first, and an uncorrectable one stops it (R463,
R464). Whether it did. -/
def State.targetWrite (s : State) (a : Nat) (data : List (BitVec 8)) (ecc : EccMap) : State × Bool :=
  let (s, bad) := s.targetRead a data.length true ecc
  if bad then (s, true) else (s.writeMem a data, false)

/-- A target's memory refuses the access (R317, R322, R461): no memory there, a stack that is not in RUN, or a write to the closed
regions of the ring; the reason does not depend on the rest of the packet. -/
def State.memRefuses (s : State) (p : Pkt) : Option State :=
  if p.cmd ≠ .read ∧ s.ringWriteClosed p.addr p.len then some ((s.refusePkt p 4).err HBM_ERR.ring_write)
  else if ¬ memRange p.addr p.len ∨ ¬ s.memUp p.addr p.len then some (s.refusePkt p 4)
  else none

/-- The aligned 64-byte pieces of a write that arrived intact, as address and bytes, where the bytes of the packet in the intervals
`holes` did not (R448). -/
def intactPieces (a : Nat) (data : List (BitVec 8)) (holes : List (Nat × Nat)) : List (Nat × List (BitVec 8)) :=
  let first := a / 64
  let last := (a + data.length - 1) / 64
  (List.range (last - first + 1)).filterMap fun i =>
    let b := max a (64 * (first + i))
    let e := min (a + data.length) (64 * (first + i + 1))
    if holes.any fun h => decide (a + h.1 < e) && decide (b < a + h.2) then none else some (b, slice data (b - a) (e - b))

/-- The bytes of a packet that data flit `j` carries, as an interval of the packet (R432). -/
def Pkt.flitBytes (p : Pkt) (j : Nat) : Nat × Nat :=
  (p.addr / 32 * 32 + 32 * j - p.addr, min p.len (p.addr / 32 * 32 + 32 * (j + 1) - p.addr))

/-- The tag of pieces that no response awaits. -/
def lostTag : Nat := 0x400000

/-- One intact piece of a poisoned write is written, at the side port or in plain memory (R448): the state and the bytes written so
far. -/
def State.writePiece (s : State) (ini : Nat) (ecc : EccMap) (n a : Nat) (data : List (BitVec 8)) : State × Nat :=
  if decide (peBase ≤ a) && decide (a < peEnd) then
    match s.sideRequest true a data.length ini lostTag data with
    | some t => (t, n + data.length)
    | none => (s, n)
  else if (memKind a).isSome then
    let (s, bad) := s.targetWrite a data ecc
    (s, if bad then n else n + data.length)
  else (s, n)

/-- A poisoned or poison-tailed write (R448): what the target refuses of a whole packet it refuses of this one. One of 64 bytes
or less writes nothing. Of a longer one, a report of the address and the bytes written goes to the error queue; the code of that
report is open. -/
def State.poisonedWrite (s : State) (p : Pkt) (holes : List (Nat × Nat)) (stall : Nat) (ecc : EccMap) : State :=
  let s := s.targetStall p.addr stall
  match (if (memKind p.addr).isSome then s.memRefuses p else none) with
  | some t => t
  | none =>
    if p.len ≤ 64 then s.respond p 2 []
    else
      let (s, n) := (intactPieces p.addr p.data holes).foldl
        (fun (x : State × Nat) e => x.1.writePiece p.ini ecc x.2 e.1 e.2) (s, 0)
      let code := s.fresh 16
      ((s.tookFree).report (pageOf p.addr) noInst code (p.addr + 2 ^ 40 * n)).respond p 2 []

/-- The memory at the address takes AMOs: the scratchpad or the mailbox (R372, R463). -/
def amoPlace (a : Nat) : Bool :=
  match memKind a with
  | some (.scratchpad _) => true
  | some .mailbox => true
  | _ => false

/-- A target's memory serves a read, a write or an AMO (R316 to R318, R322, R361, R463, R464); an AMO is of one aligned word, else
the width or the alignment is the reason of its refusal (R594, R601). -/
def State.serveMem (s : State) (p : Pkt) (v : Serve) : State :=
  let s := s.targetStall p.addr v.stall
  match s.memRefuses p with
  | some t => t
  | none => match p.cmd with
    | .read =>
      let (s, bad) := s.targetRead p.addr p.len false v.ecc
      s.respond p (b2n bad) (s.bytesAt p.addr p.len)
    | .amoAdd | .amoSwap =>
      if ¬ amoPlace p.addr then s.refusePkt p 4
      else if p.len ≠ 4 then s.refusePkt p 2
      else if p.addr % 4 ≠ 0 then s.refusePkt p 3
      else
        let s := match memKind p.addr with
          | some (.scratchpad b) => s.inc SPD_BANK_AMO_CNT.count b
          | _ => s
        let (s, bad) := s.targetRead p.addr 4 false v.ecc
        let old := s.leMem p.addr 4
        if bad then s.respond p 1 (leBytes 4 old)
        else (s.setLeMem p.addr 4 (amoValue (decide (p.cmd = .amoSwap)) old (leNat p.data))).respond p 0 (leBytes 4 old)
    | _ =>
      let (s, bad) := s.targetWrite p.addr p.data v.ecc
      s.respond p (b2n bad) []

/-! ### The apertures of PE memory and of the control store -/

/-- The tag under which a request's pieces are known at Prism. -/
def Pkt.sideTag (p : Pkt) : Nat := p.slot + 256 * p.epoch

/-- What the array's port answers to a side-port request: taken, with the state after it, or refused (R141, R142). -/
def State.sideAnswer (s : State) (p : Pkt) : Option State → State
  | none => s.sideRefuse.refusePkt p 4
  | some t => if p.cmd.isRequest then t.updRing fun r => { r with sideReqs := r.sideReqs ++ [p] } else t

/-- A side-port request (R123, R141, R142); its response leaves when all its pieces have been performed. -/
def State.serveSide (s : State) (p : Pkt) : State :=
  let write : Bool := decide (p.cmd = .write) || decide (p.cmd = .writeP)
  if p.cmd = .amoAdd ∨ p.cmd = .amoSwap then s.refusePkt p 4
  else s.sideAnswer p (s.sideRequest write p.addr p.len p.ini p.sideTag p.data)

/-- The bytes of a read whose pieces have been performed. -/
def sideBytes (pieces : List Piece) (n : Nat) : List (BitVec 8) :=
  (List.range n).map fun i =>
    match pieces.find? (fun q => decide (q.pos ≤ i) && decide (i < q.pos + q.len)) with
    | some q => (q.data[i - q.pos]?).getD 0
    | none => 0

/-- The responses of the side-port requests whose pieces have all been performed (R142, R143). -/
def State.sideResponses (s : State) : State :=
  s.ring.sideReqs.foldl (fun s p =>
    let mine (e : Bool × Nat × Piece) : Bool := e.2.2.initiator == p.ini && e.2.2.tag == p.sideTag
    let done_ : List Piece := (s.pri.performed.filter mine).map fun e => e.2.2
    if (done_.map fun q : Piece => q.len).sum < p.len then s
    else
      let s : State := { s with pri := { s.pri with performed := s.pri.performed.filter fun e => !mine e } }
      let s := s.updRing fun r => { r with sideReqs := r.sideReqs.filter fun q => q ≠ p }
      s.respond p (if done_.any fun q => q.bad then 1 else 0) (if p.cmd = .read then sideBytes done_ p.len else [])) s

/-- Tags from here on mark the engine's own writes of channel tables (R512), and from `askTag` on the requests that stand as
commands of their own. -/
def tableTag : Nat := 0x100000

/-- The tags of the requests that stand as commands of their own. -/
def askTag : Nat := 0x200000

/-- The piece belongs to the request. -/
def Ask.owns (q : Ask) (p : Piece) : Bool := p.initiator == q.initiator && p.tag == askTag + q.tag

/-- The responses of the requests that stand as commands of their own (R142, R143): status 1 where an island that is not in use
has answered a read. -/
def State.askResponses (s : State) : State :=
  s.pri.asks.foldl (fun s q =>
    let done_ : List Piece := (s.pri.performed.filter fun e => q.owns e.2.2).map fun e => e.2.2
    if (done_.map fun p : Piece => p.len).sum < q.len then s
    else
      let s : State := { s with pri := { s.pri with performed := s.pri.performed.filter (fun e => !q.owns e.2.2), asks := s.pri.asks.erase q } }
      s.emit (.side q.initiator q.tag (if done_.any fun p => p.bad then 1 else 0) (if q.write then [] else sideBytes done_ q.len))) s

/-- A side-port request that stands as a command of its own (R123, R141, R142): refused with an error response and a log entry
where it reaches the closed planes or lies outside the aperture. -/
def State.sideAsk (s : State) (write : Bool) (addr len ini tag : Nat) (data : List (BitVec 8)) : State :=
  if addr < peBase then (s.refuseAccess 4 ini addr (b2n write) len 1).emit (.side ini tag 1 [])
  else match s.sideRequest write addr len ini (askTag + tag) data with
  | none => (s.sideRefuse.refuseAccess 4 ini addr (b2n write) len 4).emit (.side ini tag 1 [])
  | some t =>
    let q : Ask := { initiator := ini, tag := tag, len := len, write := write }
    { t with pri := { t.pri with asks := t.pri.asks ++ [q] } }

/-- A performed piece whose response is still to come. -/
def State.pieceWaits (s : State) (p : Piece) : Bool :=
  (p.initiator == 17 && decide (tableTag ≤ p.tag) && decide (p.tag < askTag)) || s.pri.asks.any (fun q => q.owns p) ||
    s.ring.sideReqs.any fun q => q.ini == p.initiator && q.sideTag == p.tag

/-- The side-port accesses of a barrier with the responses that they complete, after the changes of R16 (R142); what answers no
request that waits is forgotten. -/
def State.sidePortPerform (s : State) : State :=
  if ¬ s.gno.due.isEmpty then s
  else
    let s := s.sideAccesses.sideResponses.askResponses
    { s with pri := { s.pri with performed := s.pri.performed.filter fun e => s.pieceWaits e.2.2 } }

/-- One byte of the control store as its aperture shows it (R223). -/
def State.cstoreByte (s : State) (o : Nat) : BitVec 8 :=
  let w := o / 32
  let word := if w < 4096 then Config.romWord w
    else if w < 5120 then 0
    else if w < 10752 then (if w - 5120 < progWords s.seq.half0.image then leAt s.seq.half0.image (704 + 24 * (w - 5120)) 24 else 0)
    else if w - 10752 < progWords s.seq.half1.image then leAt s.seq.half1.image (704 + 24 * (w - 10752)) 24 else 0
  if 24 ≤ o % 32 then 0 else BitVec.ofNat 8 (word / 2 ^ (8 * (o % 32)))

/-- An access of the control-store aperture (R223): reads of the ROM and of the customer halves are served. -/
def State.serveCstore (s : State) (p : Pkt) : State :=
  let o := p.addr - 0x3100000000
  let patch : Bool := decide (o < 32 * 5120) && decide (32 * 4096 < o + p.len)
  if p.cmd ≠ .read ∨ patch then s.refusePkt p 4
  else s.respond p 0 ((List.range p.len).map fun i => s.cstoreByte (o + i))

/-! ### Any target -/

/-- A packet that has arrived is performed (R428, R589, R594). -/
def State.performPkt (s : State) (p : Pkt) (v : Serve) : State :=
  let a := p.addr
  if (memKind a).isSome ∨ (0x3200000000 ≤ a ∧ a < 0x3205000000) then s.serveMem p v
  else if inCsr a then
    if p.cmd = .amoAdd ∨ p.cmd = .amoSwap then s.refusePkt p 4
    else
      let (s, st, data) := s.csrAccess p.ini a p.len (if p.cmd = .read then none else some p.data)
      s.respond p st data
  else if 0x3000000000 ≤ a ∧ a < 0x3004000000 then s.serveSide p
  else if 0x3100000000 ≤ a ∧ a < 0x3100080000 then s.serveCstore p
  else s.refusePkt p 1

/-- What the stops on its way find in a packet of `data` data flits that goes to stop `dst` (R431, R444): none where it is
discarded, else the data flits that became poison flits. -/
def State.checkFlits (s : State) (data dst : Nat) : List FlitCheck → State × Option (List Nat)
  | [] => (s, some [])
  | .corrected stop :: rest => (s.flitCorrected stop.val).checkFlits data dst rest
  | .header stop link :: _ => (s.flitUncorrectable stop.val link.val, none)
  | .data stop link n :: rest =>
    if data ≤ n then s.checkFlits data dst rest
    else
      let (s, holes) := (s.flitUncorrectable stop.val link.val).checkFlits data dst rest
      (s, holes.map fun l => n :: l)
  | .command cls code :: rest =>
    if codeClass code.val = some cls.val then s.checkFlits data dst rest else (s.protocolError dst, none)

/-- A packet reaches its target (R431, R444, R448). A packet that a stop discards is gone: its transaction times out. -/
def State.serve (s : State) (p : Pkt) (v : Serve) : State :=
  match ((s.countHeld p v.held).carryPkt p).checkFlits (dataFlits p.addr p.carried - 1) p.dst v.flit with
  | (s, none) => s
  | (s, some flits) =>
    let tail := match p.cut with
      | some n => [(n, p.len)]
      | none => []
    let holes := flits.map p.flitBytes ++ tail
    if holes.isEmpty then s.performPkt p v else s.poisonedWrite p holes v.stall v.ecc

/-- A packet can be served now: the memory that it addresses is ready (R465, R466). -/
def State.canServe (s : State) (p : Pkt) : Bool := p.cmd == .event || s.memReady p.addr

/-- A READ, WRITE, AMO or posted write reaches its target. -/
def State.ringServe (s : State) (cmd : Cmd) (src : PktSrc) (v : Serve) : State :=
  let (t, p) := s.takePkt cmd src
  match p with
  | none => t
  | some p =>
    if t.canServe p then t.serve p v
    else match src with
      | .flight _ => s
      | .unit _ _ _ _ => t.updRing fun r => { r with reqs := r.reqs ++ [p] }

/-- An EVENT packet reaches the core of its thread (R403, R431). -/
def State.ringEvent (s : State) (src : PktSrc) (v : Serve) : State :=
  let (s, p) := s.takePkt .event src
  match p with
  | none => s
  | some p =>
    match ((s.countHeld p v.held).carryPkt p).checkFlits 0 p.dst v.flit with
    | (s, none) => s
    | (s, some _) => s.softEvents (p.addr % 32) (leNat p.data)

/-- The next landing of the Worga engine leaves as a WRITE_P of initiator 35 (R302). -/
def State.offerLanding (s : State) : State :=
  match s.wor.posted with
  | [] => s
  | w :: ws => (s.updWor fun x => { x with posted := ws }).offer
      { ini := 35, cmd := .writeP, addr := w.addr, len := w.data.length, data := w.data }

/-! ### Responses -/

/-- The `k`-th response under way, of a class of commands, reaches its initiator after `lat` ring cycles (R431, R443, R444): a
stop can discard it, and a poison flit makes its status 2. -/
def State.ringResponse (s : State) (is : Cmd → Bool) (k lat : Nat) (flits : List FlitCheck) : State :=
  match s.ring.rsps[k]? with
  | none => s
  | some r =>
    if ¬ is r.cmd then s
    else match (s.carry r.ring r.dir r.src (iniStop r.ini) (dataFlits r.addr r.data.length)).checkFlits
        (dataFlits r.addr r.data.length - 1) (iniStop r.ini) flits with
      | (s, none) => s.updRing fun g => { g with rsps := g.rsps.eraseIdx k }
      | (s, some []) => s.response k lat
      | (s, some (_ :: _)) =>
        (s.updRing fun g => { g with rsps := listUpd g.rsps k fun r => { r with status := 2 } }).response k lat

/-! ### Sleeping targets (R445, R561) -/

/-- A one-flit packet of the maintenance class goes to a stop: what the stops on its way find in it, and whether it arrives
(R431, R444). -/
def State.maintenance (s : State) (dst : Nat) (flits : List FlitCheck) : State × Bool :=
  let r := s.checkFlits 0 dst flits
  (r.1, r.2.isSome)

/-- The stop from which the reports of a unit leave (R428, R596). -/
def reportStop (page core : Nat) : Nat := if page = 14 then core else csrStop page 0

/-- A unit sends its first pending report as one flit to stop 27, whose queue processes it at instant `t` (R444, R455, R596,
R597). -/
def State.errorReport (s : State) (p core t : Nat) (flits : List FlitCheck) : State :=
  match s.nextReport p core with
  | none => s
  | some (r, rest) =>
    let s := (s.at t).updErq fun q => { q with reports := rest }
    let (s, ring, dir) := s.takeRoute (reportStop p core) 27 false
    let (s, arrives) := (s.carry ring dir (reportStop p core) 27 1).maintenance 27 flits
    if arrives then s.erqTake r else s

/-- A stop that holds packets for a sleeping target sends a wake request, once, to the stop of the power manager (R444, R445). -/
def State.wakeReq (s : State) (d : Nat) (flits : List FlitCheck := []) : State :=
  if s.bit RNG_STOP_STATUS.asleep d ∧ s.ring.held.any (fun p => p.dst == d) ∧ ¬ s.ring.waking.contains d ∧ s.powerState ≠ 2 then
    let (s, arrives) := (s.updRing fun r => { r with waking := r.waking ++ [d] }).maintenance (csrStop 18 0) flits
    if arrives then (s.inc RNG_WAKE_CNT.count).raiseEvent 16 23 else s
  else s

/-- The WAKE_DONE of stop `d` goes to stop `t` (R444, R445): where it is discarded, that stop's interface holds its packets on. -/
def State.wakeDoneTo (s : State) (d t : Nat) (flits : List FlitCheck) : State :=
  let (s, arrives) := s.maintenance t flits
  if arrives then s else s.updRing fun r => { r with deaf := r.deaf ++ [(t, d)] }

/-- The unit of a stop can take packets, a scratchpad bank only once it is READY: the stop sends WAKE_DONE to every stop, of which
`flits` names those where a check finds an error (R444, R445, R465). -/
def State.wakeDone (s : State) (d : Nat) (flits : List (Fin 32 × List FlitCheck) := []) : State :=
  if s.powerState = 2 ∨ (8 ≤ d ∧ d < 16 ∧ s.get SPD_BANK_STATUS.state (d - 8) ≠ 2) then s
  else
    let s := (s.put RNG_STOP_STATUS.asleep 0 d).updRing fun r => { r with
      waking := r.waking.filter fun x => x ≠ d, deaf := r.deaf.filter fun x => x.2 ≠ d }
    (flits.foldl (fun s e => s.wakeDoneTo d e.1.val e.2) s).releaseHeld

/-- The banks finish clearing after power returns (R465). -/
def State.spdClearComplete (s : State) : State :=
  let s := forN 8 s fun b s => if s.get SPD_BANK_STATUS.state b = 1 then s.put SPD_BANK_STATUS.state 2 b else s
  forN 8 s fun b s => if s.get SPD_BANK_STATUS.state b = 2 then s.wakeDone (8 + b) else s

/-- A packet of the keeper for a domain that Eclipse has turned off (R445, R560, R561): it wakes the device, or is refused. -/
def State.wakeRing (s : State) : State :=
  match s.ring.held.find? (fun p => p.ini == 16 && !alwaysOnStop p.dst) with
  | none => s
  | some p =>
    if s.powerState ≠ 2 then s
    else if s.wakes 2 then (s.inc RNG_WAKE_CNT.count).wake 2 23
    else
      let s := (s.updRing fun r => { r with held := r.held.filter fun q => q ≠ p }).publishHolding
      (s.refuseAccess (pageOf p.addr) p.ini p.addr p.cmd.opCode p.len 4).respond p 1 []

/-! ### Master reset, the mailbox and the scrubbers -/

/-- A master reset of an initiator, whose last packet is cut after `cut` data flits where that is given (R447, R475). -/
def State.masterResetAt (s : State) (i : Nat) (cut : Option Nat) : State :=
  let s := match cut with
    | some n => s.updRing fun r => r.cutLast i n
    | none => s
  (s.masterTags i).ownerReset i

/-- A scratchpad scrubber visits the word at an offset of the scratchpad, after the bank has stalled it for some cycles (R461,
R464). -/
def State.spdScrub (s : State) (o : Nat) (e : Codeword) (stall : Nat) : State :=
  let a := 0x1000000000 + o % 0x800000
  if s.memReady a then (s.targetStall a stall).targetEcc a e else s

/-- The mailbox scrubber visits the word at an offset (R466). -/
def State.mailboxScrub (s : State) (o : Nat) (e : Codeword) : State :=
  if s.get SPD_MBX_STATUS.state = 2 then s.targetEcc (0x1000800000 + o % 0x10000) e else s

/-- The access of the keeper that waits for port K, with its physical address (R359, R466). -/
def State.portKAccess (s : State) : Option (Access × Nat) :=
  match (s.th 16).hold with
  | .access w => if w.portK then w.todo.head?.map fun x => (x, w.phys) else none
  | _ => none

/-- An access changes memory in one mailbox cycle and reads nothing: a write of whole 64-bit words. -/
def wholeWrite (x : Access) (a : Nat) : Bool :=
  match x with
  | .store _ n _ => wholeWords a n
  | _ => false

/-- The keeper's access is performed at port K with the outcome of the SECDED check (R464, R466, R467). -/
def State.keeperAccess (s : State) (x : Access) (a : Nat) (o : Codeword) : State :=
  let reads : Bool := !wholeWrite x a
  let o := if reads then o else .good
  let s := s.targetEcc a o
  match x with
  | .load _ n => s.accessDone 16 (decide (o = .uncorrectable)) (s.bytesAt a n)
  | .store _ n v =>
    if o = .uncorrectable then s.accessDone 16 true [] else (s.setLeMem a n v).accessDone 16 false []
  | .amo _ swap v =>
    let old := s.leMem a 4
    if o = .uncorrectable then s.accessDone 16 true []
    else (s.setLeMem a 4 (amoValue swap old v)).accessDone 16 false (leBytes 4 old)

/-- The bytes that two writes share within one mailbox row of 32 bytes (R467). -/
def rowsMeet (a n b m : Nat) : Bool :=
  (List.range n).any fun i => decide (b ≤ a + i) && decide (a + i < b + m)

/-- A write of `n` bytes at `b` covers the whole 64-bit word of an access at `a`. -/
def coversWord (b n a : Nat) : Bool := decide (b ≤ a / 8 * 8) && decide (a / 8 * 8 + 8 ≤ b + n)

/-- The keeper accesses the mailbox (R466, R467). `other` is the packet on its way of which an access of port R, to any of its
rows, falls into the same mailbox cycle and row: a write that covers the keeper's word whole stands before the keeper's read or
write of the cycle, every other access of port R acts after it. -/
def State.mailboxKeeper (s : State) (o : Codeword) (other : Option Nat) (v : Serve) : State :=
  match s.portKAccess with
  | none => s
  | some (x, a) =>
    if s.get SPD_MBX_STATUS.state ≠ 2 then s
    else
      match other.bind (fun k => s.ring.reqs[k]?) with
      | none => s.keeperAccess x a o
      | some p =>
        let k := other.getD 0
        let same : Bool := decide (memKind p.addr = some .mailbox) && decide (p.addr / 32 ≤ a / 32) &&
          decide (a / 32 ≤ (p.addr + p.len - 1) / 32) && s.memReady p.addr
        if ¬ same then s.keeperAccess x a o
        else
          let first : Bool := (p.cmd == .write || p.cmd == .writeP) && coversWord p.addr p.len a &&
            (match x with
             | .load _ _ => true
             | _ => wholeWrite x a)
          if first then
            let s := s.ringServe p.cmd (.flight k) v
            let clash : Bool := wholeWrite x a && rowsMeet a x.size p.addr p.len
            let s := if clash then (s.inc SPD_MBX_COLL_CNT.count).err SPD_ERR.mbx_collision 0 noInst else s
            s.keeperAccess x a o
          else (s.keeperAccess x a o).ringServe p.cmd (.flight k) v

/-! ### Tests of the row's own kinds -/

/-- A response of a READ (R431). -/
def Cmd.isRead (c : Cmd) : Bool := c == .read
/-- A response of a WRITE. -/
def Cmd.isWrite (c : Cmd) : Bool := c == .write
/-- A response of an AMO. -/
def Cmd.isAmo (c : Cmd) : Bool := c == .amoAdd || c == .amoSwap

end Sys2Proof.Machine
end

