-- ==== Sys2Proof/Machine/Tables.lean ====
section
/-! DEFINITION. Channel parameter tables: their checks, the writing of their planes and the arming of their commit (R510 to
R512), for the dictionary and for the ledger's rewrites (R547). -/

namespace Sys2Proof.Machine

/-- The fields of a descriptor (R510). -/
def ChanTable.baseA (t : ChanTable) : Nat := bits t.desc 0 12
def ChanTable.baseB (t : ChanTable) : Nat := bits t.desc 12 12
def ChanTable.reg (t : ChanTable) : Nat := bits t.desc 32 4
def ChanTable.background (t : ChanTable) : Bool := t.desc.testBit 36
def ChanTable.enabled (t : ChanTable) : Bool := t.desc.testBit 63

/-- The register that a table's program reads, in its context (R510). -/
def State.tableReg (s : State) (t : ChanTable) : Nat := if t.background then s.seq.bg.reg t.reg else s.active.ctx.reg t.reg

/-- A copy lies inside 0x080 to 0xF7F and inside an enabled persistent region (R512). -/
def State.copyOk (s : State) (base planes : Nat) : Bool :=
  decide (0x80 ≤ base) && decide (base + planes ≤ 0xF80) &&
    (List.range 8).any fun n => s.bit ARR_PERSIST.enable n && decide (s.get ARR_PERSIST.base n ≤ base) &&
      decide (base + planes ≤ s.get ARR_PERSIST.base n + s.get ARR_PERSIST.planes n)

/-- The commit sets not armed and not filled for another table, among `sets`. -/
def State.freeSets (s : State) (sets : List Nat) : List Nat := sets.filter fun n => !s.bit SEQ_CS_STATUS.armed n

/-- The checks before the first write: the code cc of R512, or 0. Copies matter only where there are planes. -/
def State.tableCheck (s : State) (t : ChanTable) (len : Nat) (sets : List Nat) : Nat :=
  if ¬ t.enabled then 1
  else if t.planes ≠ 0 ∧ len ≠ t.planes * 16384 then 2
  else if t.planes ≠ 0 ∧ ¬ (s.copyOk t.baseA t.planes ∧ s.copyOk t.baseB t.planes ∧
      (t.baseA + t.planes ≤ t.baseB ∨ t.baseB + t.planes ≤ t.baseA)) then 3
  else if t.planes ≠ 0 ∧ s.tableReg t ≠ t.baseA ∧ s.tableReg t ≠ t.baseB then 4
  else if (s.freeSets sets).isEmpty then 5
  else 0

/-- The base of the copy that the register does not name. -/
def State.otherCopy (s : State) (t : ChanTable) : Nat := if s.tableReg t = t.baseA then t.baseB else t.baseA

/-- A table is refused (R512). -/
def State.tableRefused (s : State) (k cc : Nat) : State :=
  s.updTable k fun t => { t with state := 4, code := cc, ledger := false }

/-- Steps 3 and 4: a free set of `sets` takes the register's new value and is armed for the table's slot. The code cc is 0
where it is armed. -/
def State.tableArm (s : State) (k : Nat) (sets : List Nat) : State × Nat :=
  let t := s.table k
  match s.freeSets sets with
  | [] => (s.tableRefused k 5, 5)
  | n :: _ =>
    let s := s.csClear n
    let s := ((s.put SEQ_CS_ENT.reg t.reg n 0).put SEQ_CS_ENT.ctx (b2n t.background) n 0).put SEQ_CS_ENT.valid 1 n 0
    let s := (s.put SEQ_CS_VAL.value t.value n 0).publishCs n
    let s := (s.put SEQ_CS_WHEN_LO.orbit (bits t.apply 0 32) n).put SEQ_CS_WHEN_HI.orbit (bits t.apply 32 16) n
    let s := ((s.put SEQ_CS_WHEN_HI.index (bits t.apply 48 12) n).put SEQ_CS_WHEN_HI.named (bits t.apply 63 1) n).csArm n
    if s.bit SEQ_CS_STATUS.armed n then (s.updTable k fun t => { t with state := 2, set := some n }, 0)
    else (s.tableRefused k 6, 6)

/-- The tag of a table's side-port writes. -/
def tagOfTable (k : Nat) : Nat := tableTag + k

/-- The side port took a request, or the state as it was. -/
def State.takenOr (s : State) : Option State → State × Bool
  | some t => (t, true)
  | none => (s, false)

/-- One plane of a table goes to plane `plane` of the array as 64 packets of 256 bytes (R432, R449), unless an earlier one was
refused. -/
def State.tablePlane (s : State) (k plane : Nat) (data : List (BitVec 8)) (ok : Bool) : State × Bool :=
  if ¬ ok then (s, false)
  else
    let r := s.takenOr (s.sideRequest true (peBase + 0x4000 * plane) 0x4000 17 (tagOfTable k) data)
    (r.1.engineTrips 64 256 (b2n (!r.2)), r.2)

/-- Steps 1 and 2: the planes go to the copy that the register does not name, one 16 KiB burst each, and resident firmware is
signalled (R512). False where the side port refuses. -/
def State.tablePlanes (s : State) (k : Nat) (planes : List (List (BitVec 8))) : State × Bool :=
  let t := s.table k
  let base := s.otherCopy t
  let s := s.updTable k fun t => { t with value := base }
  let p := planes.zipIdx.foldl (fun p e => p.1.tablePlane k (base + e.2) e.1 p.2) (s, true)
  (p.1.raiseAll 22, p.2)

/-- Bytes of a table's planes that the side port has performed. -/
def State.tableDone (s : State) (k : Nat) : Nat :=
  ((s.pri.performed.filter fun e => e.2.2.initiator == 17 && e.2.2.tag == tagOfTable k).map fun e => e.2.2.len).sum

/-- Every write of a table has been acknowledged: the acknowledgements are taken. -/
def State.takeTable (s : State) (k : Nat) : State :=
  { s with pri := { s.pri with performed := s.pri.performed.filter fun e => !(e.2.2.initiator == 17 && e.2.2.tag == tagOfTable k) } }

/-- A table in state 1 whose writes have all been acknowledged is armed (R512, steps 3 and 4). -/
def State.tableWritten (s : State) (k : Nat) : State :=
  let t := s.table k
  if t.state = 1 ∧ t.planes ≠ 0 ∧ t.planes * 16384 ≤ s.tableDone k then
    ((s.takeTable k).tableArm k (if t.ledger then [0, 1] else [2, 3])).1
  else s

/-- After the side-port accesses of a barrier (R142, R512). -/
def State.tablesWritten (s : State) : State := s.dic.tables.foldl (fun s e => s.tableWritten e.1) s

/-- The planes of the copy that the register names, as bytes (R509). -/
def State.tableBytes (s : State) (k off n : Nat) : List (BitVec 8) :=
  let t := s.table k
  let base := s.tableReg t
  (List.range n).map fun i =>
    let b := off + i
    let live := s.pesWhere inUse
    BitVec.ofNat 8 ((s.portPlane (base + b / 16384) &&& live) / 2 ^ (8 * (b % 16384)))

end Sys2Proof.Machine
end

