-- ==== Sys2Proof/Machine/Domain.lean ====
section
/-! DEFINITION. DOMAIN transfers and the writes of channel tables and register windows (R489, R505 to R513). -/

namespace Sys2Proof.Machine

/-- The longest DOMAIN write of an object (R507): an image's length must fit the register that names it. -/
def domainLimit (index : Nat) : Nat :=
  if index = 0x2302 then 2 ^ 20 - 1 else if index = 0x2600 then 2 ^ 18 - 1 else 1048576

/-- The object is subindex 01 or 05 of a channel table that is in progress, or a descriptor of one (R511). -/
def State.tableBusy (s : State) (index sub : Nat) : Bool :=
  index / 256 == 0x60 && sub != 4 && (s.table (index % 256)).inProgress

/-! ### Opening and staging -/

/-- Shows whether a DOMAIN write is open and over which interface (R507). -/
def State.publishDomain (s : State) : State :=
  match s.dic.domain with
  | none => s.put DIC_STATUS.domain_open 0
  | some d => (s.put DIC_STATUS.domain_open 1).put DIC_STATUS.domain_if (match d.src with
    | .lantern _ _ _ => 1
    | _ => 0)

/-- The checks at the start of a DOMAIN write (R481, R483, R507, R511): the abort code or 0. -/
def State.openCheck (s : State) (src : ReqSrc) (index sub : Nat) (ty : Option Nat) (total : Nat) : Nat :=
  match s.writeCheck src index sub ty 0 with
  | .error c => c
  | .ok o =>
    if o.ty ≠ .domain then 0x06070010
    else if s.dic.domain.isSome ∨ s.tableBusy index sub then 0x08000020
    else if domainLimit index < total then 0x05040005
    else if index / 256 = 0x60 ∧ (s.table (index % 256)).planes = 0 then 0x06090030
    else 0

/-- A DOMAIN write opens, or is refused and recorded (R507, R511). -/
def State.domainOpen (s : State) (src : ReqSrc) (index sub : Nat) (ty : Option Nat) (total : Nat) : State × Nat :=
  let c := s.openCheck src index sub ty total
  if c ≠ 0 then ((s.refuseWrite src index sub 1 c total), c)
  else
    let s := (s.updDic fun d => { d with domain := some { src, index, sub, total }, lastDomain := none }).publishDomain
    (if index / 256 = 0x60 then s.updTable (index % 256) fun t => { t with state := 1, code := 0, ledger := false } else s, 0)

/-- Bytes are staged at the next offset (R505, R507): the abort code or 0. -/
def State.domainData (s : State) (off : Nat) (data : List (BitVec 8)) : State × Nat :=
  match s.dic.domain with
  | none => (s, 0x0F000003)
  | some d =>
    if off ≠ d.got then (s, 0x06090030)
    else if d.total < d.got + data.length then (s, 0x05040005)
    else if ¬ s.memUp (stageBase + d.got) data.length then (s, 0x06060000)
    else ((s.writeMem (stageBase + d.got) data).updDic fun x =>
      { x with domain := some { d with got := d.got + data.length } }, 0)

/-! ### The hand-off (R508) -/

/-- Writes the staging address and a length into an address pair and a length register, then a command bit: the abort code
of a refusal. -/
def State.handImage (s : State) (page lo cmd len : Nat) : State × Nat :=
  let (s, _) := s.engineWrite page lo allBits (stageBase % 2 ^ 32)
  let (s, _) := s.engineWrite page (lo + 4) allBits (stageBase / 2 ^ 32)
  let (s, _) := s.engineWrite page (lo + 8) allBits len
  s.engineWrite page cmd 1 1

/-- Hands the staged bytes to the target of an object: the abort code, 0 where the hand-off is done (R508, R512, R578). -/
def State.handOff (s : State) (index sub total : Nat) : State × Nat :=
  if index = 0x2302 then s.handImage 3 (0x200 * (sub - 1) + 8) (0x200 * (sub - 1) + 0x1C) total
  else if index = 0x2600 then s.handImage 6 8 4 total
  else if index / 256 = 0x60 then
    let k := index % 256
    let c := s.tableCheck (s.table k) total [2, 3]
    if c ≠ 0 then (s.tableRefused k c, 0x0F080000 + c)
    else
      let n := (s.table k).planes
      let (s, ok) := s.tablePlanes k ((List.range n).map fun i => s.bytesAt (stageBase + 16384 * i) 16384)
      if ok then (s, 0) else (s.tableRefused k 7, 0x0F080007)
  else if index = 0x3002 then
    if s.pwr.store.isSome then (s, 0x08000020) else (s.storeStart (s.bytesAt stageBase total), 0)
  else if s.pwr.bundle.isSome then (s, 0x08000020)
  else ({ s with pwr := { s.pwr with bundle := some (s.bytesAt stageBase total) } }, 0)

/-- A DOMAIN write whose bytes have all been staged is recorded: at its commit point, or with the code of its refusal (R515, R516). -/
def State.recordHanded (s : State) (h : Handed) (code : Nat) : State :=
  (s.journal h.src h.index h.sub (1 + (if code = 0 then 0 else 2)) code 0 (h.length + 2 ^ 32 * h.crc)).abortCode h.index h.sub code

/-- The end of the DOMAIN write that is open (R489, R507, R508): the staged bytes are checked and handed over. `crc` is the
checksum that DOMAIN_END carries. A code other than 0 ends the write. -/
def State.domainEnd (s : State) (crc : Option Nat) : State × Nat :=
  match s.dic.domain with
  | none => (s, 0x0F000003)
  | some d =>
    if d.got ≠ d.total then (s.dropDomain 0x06070010, 0x06070010)
    else
      let sum := crc32 (s.bytesAt stageBase d.total)
      if crc.any (· != sum) then (s.dropDomain 0x0F000004, 0x0F000004)
      else
        let h : Handed := { src := d.src, index := d.index, sub := d.sub, length := d.total, crc := sum }
        let (s, c) := s.handOff d.index d.sub d.total
        let s := (s.updDic fun x => { x with domain := none }).publishDomain
        if c ≠ 0 then (s.recordHanded h c, c)
        else ((s.updDic fun x => { x with handed := some h, lastDomain := some h }).recordHanded h 0, 0)

/-- The result of a hand-off: none while it is not known, else the abort code (R508). -/
def State.handResult (s : State) (h : Handed) : Option Nat :=
  if h.index = 0x2302 then
    let f := h.sub - 1
    let e := s.get EDG_FSTATUS.load_err f
    match s.get EDG_FSTATUS.shadow f with
    | 1 => none
    | 2 => some (if e = 0 then 0 else 0x0F010000 + e)
    | _ => some (0x0F010000 + e)
  else if h.index = 0x2600 then
    match s.umbraState with
    | 0 => some (0x0F020000 + s.get SEQ_UMBRA_STATUS.load_err)
    | 3 | 5 | 6 => some 0
    | 4 => some (0x0F030000 + s.get SEQ_UMBRA_STATUS.admit_err)
    | _ => none
  else if h.index / 256 = 0x60 then
    let t := s.table (h.index % 256)
    match t.state with
    | 1 => none
    | 4 | 5 => some (0x0F080000 + t.code)
    | _ => some 0
  else if h.index = 0x3002 then
    (if s.pwr.store.isSome then none else if s.get BOT_STORE_ERR.code = 0 then some 0 else some 0x0F060000)
  else if s.pwr.bundle.isSome then none
  else if s.get BOT_STORE_ERR.code = 0 then some 0 else some 0x0F060000

/-- The write handed over ends with its result (R508): a refusal is recorded (R515). -/
def State.handDone (s : State) (h : Handed) (code : Nat) : State :=
  let s := s.updDic fun d => { d with handed := none }
  if code = 0 then s else s.recordHanded h code

/-! ### Aborts (R489) -/

/-- A DOMAIN write of `src` on an object. -/
def Handed.isOf (h : Handed) (src : ReqSrc) (index sub : Nat) : Bool := h.src == src && h.index == index && h.sub == sub

/-- An abort that comes after the commit point is recorded as too late (R489, R583). -/
def State.tooLate (s : State) (src : ReqSrc) (index sub flags new : Nat) : State :=
  (s.journal src index sub flags 0x0F000001 0 new).abortCode index sub 0x0F000001

/-- An abort by the client of the DOMAIN write of `src` on an object: 0 where it ends the write, 0x0F00_0001 where it is too
late, else 0x0F00_0003. -/
def State.domainAbort (s : State) (src : ReqSrc) (index sub : Nat) : State × Nat :=
  let mine : Bool := match s.dic.domain with
    | some d => d.src == src && d.index == index && d.sub == sub
    | none => false
  if mine then (s.dropDomain 0, 0)
  else match s.dic.lastDomain.filter (·.isOf src index sub) with
    | some h => (s.tooLate h.src index sub 9 (h.length + 2 ^ 32 * h.crc), 0x0F000001)
    | none => ((s.journal src index sub 5 0x0F000003 0 0).abortCode index sub 0x0F000003, 0x0F000003)

/-- No DOMAIN item or segment has come for the time allowed (R496, R505). -/
def State.domainTimeout (s : State) : State := s.dropDomain 0x05040000

/-! ### Reads of a DOMAIN object (R509) -/

/-- The length of a DOMAIN object as a read finds it. -/
def State.domainSize (s : State) (index sub : Nat) : Nat :=
  if index = 0x2302 then (s.facet (sub - 1)).active.length
  else if index = 0x2600 then s.active.image.length
  else if index = 0x2D01 then 163840
  else if index / 256 = 0x60 then (s.table (index % 256)).planes * 16384
  else if s.get BOT_CFG_VER.ver = 0 then 0
  else 160 + leNat (s.flash.read (0x800000 + 0x800000 * s.get BOT_CFG_GEN.slot + 8) 4)

/-- `n` bytes of a DOMAIN object from offset `off` on, as they are now. -/
def State.domainBytes (s : State) (index sub off n : Nat) : List (BitVec 8) :=
  let n := min n (s.domainSize index sub - off)
  if index = 0x2302 then slice (s.facet (sub - 1)).active off n
  else if index = 0x2600 then slice s.active.image off n
  else if index = 0x2D01 then (List.range n).map fun i => s.journalRing (off + i)
  else if index / 256 = 0x60 then s.tableBytes (index % 256) off n
  else s.flash.read (0x800000 + 0x800000 * s.get BOT_CFG_GEN.slot + off) n

/-- A read of bytes of a DOMAIN object: the abort code and the bytes (R509). -/
def State.domainRead (s : State) (src : ReqSrc) (index sub : Nat) (ty : Option Nat) (off n : Nat) :
    State × Nat × List (BitVec 8) :=
  match s.readCheck src index sub ty with
  | .error c => (s.refuseCode index sub c, c, [])
  | .ok o =>
    if o.ty ≠ .domain then (s.refuseCode index sub 0x06070010, 0x06070010, [])
    else if index = 0x2302 ∧ s.bit EDG_CFG_PORT.busy then (s.refuseCode index sub 0x08000020, 0x08000020, [])
    else (s, 0, s.domainBytes index sub off n)

/-! ### Writes of values -/

/-- A write of a channel table's descriptor, apply slot or scalar value (R510 to R512). -/
def State.tableWrite (s : State) (k sub v : Nat) : State × Nat :=
  if (s.table k).inProgress then (s, 0x08000020)
  else if sub = 2 ∧ 64 < bits v 24 7 then (s, 0x06090030)
  else match sub with
    | 2 => (s.updTable k fun t => { t with desc := v &&& 0x8000001F7FFFFFFF }, 0)
    | 3 => (s.updTable k fun t => { t with apply := v &&& 0x8FFFFFFFFFFFFFFF }, 0)
    | _ =>
      if (s.table k).planes ≠ 0 then (s, 0x06090030)
      else
        let s := s.updTable k fun t => { t with state := 1, code := 0, scalar := v, value := v, ledger := false }
        let c := s.tableCheck (s.table k) 0 [2, 3]
        if c ≠ 0 then (s.tableRefused k c, 0x0F080000 + c)
        else
          let (s, c) := (s.raiseAll 22).tableArm k [2, 3]
          (s, if c = 0 then 0 else 0x0F080000 + c)

/-- A write through a register window (R513): the journal's new value carries the address. -/
def State.windowWrite (s : State) (w v : Nat) : State × Nat :=
  let a := s.windowAddr w
  let (s, st, _) := s.windowAccess w (some (leBytes 4 v))
  s.writeCode st (csrPage a) (csrOff a)

/-- A write request of a value, over either interface or in a replay (R487). -/
def State.dicWrite (s : State) (src : ReqSrc) (index sub : Nat) (ty : Option Nat) (bs : List (BitVec 8)) : State × Nat :=
  let s := s.inc DIC_REQ_CNT.count
  let v := leNat bs
  let window := isWindow index sub
  match s.writeCheck src index sub ty bs.length with
  | .error c => (s.refuseWrite src index sub 0 c v, c)
  | .ok o =>
    if o.ty = .domain then (s.refuseWrite src index sub 0 0x06070010 bs.length, 0x06070010)
    else
      let old := leNat (s.objView o index sub)
      let (t, c) := s.marked fun s =>
        if window then s.windowWrite o.n v
        else if index / 256 = 0x60 then s.tableWrite o.n sub v
        else s.objWrite o index sub v
      if ¬ t.dic.busy then (t, c)
      else
        let new := leNat (t.objView o index sub) + (if window then 2 ^ 32 * (t.windowAddr o.n % 2 ^ 32) else 0)
        (t.finishWrite src index sub c old new (if window then 16 else 0), c)

end Sys2Proof.Machine
end

