-- ==== Sys2Proof/Machine/Usdo.lean ====
section
/-! DEFINITION. The USDO server and the process data objects of the CAN node (R493, R496, R497). -/

namespace Sys2Proof.Machine

/-- The CAN node serves: it is on and the device is not in Eclipse (R519, R562). -/
def State.canOn (s : State) : Bool := s.bit DIC_CTRL.can_en && s.powerState != 2

/-- USDO is served: Pre-operational and Operational (R494). -/
def State.usdoOn (s : State) : Bool := s.canOn && s.nmtOn

/-- PDOs are served: Operational (R494). -/
def State.pdoOn (s : State) : Bool := s.canOn && s.get DIC_STATUS.nmt_hb == 5

/-- A USDO write begins (R583): an abort is no longer one of the write before it. -/
def State.usdoBegins (s : State) : State := s.updDic fun d => { d with lastUsdo := none }

/-- An answer of the USDO server (R493): an abort code, or 0 with data. -/
def State.usdoSay (s : State) (index sub code : Nat) (bs : List (BitVec 8)) : State :=
  if s.usdoOn then s.emit (.usdo (s.cobId 0x580) index sub code bs) else s

/-- The open transfer changes or ends. -/
def State.setUsdo (s : State) (x : Option UsdoXfer) : State := s.updDic fun d => { d with usdo := x }

/-- A write over USDO has completed (R496): the object that a late abort names. -/
def State.usdoWrote (s : State) (index sub : Nat) : State := s.updDic fun d => { d with lastUsdo := some (index, sub) }

/-- The open DOMAIN write over USDO has all its bytes: a refusal ends the transfer with its answer, else the answer waits for
the target's result (R496, R508). -/
def State.usdoDomainEnd (s : State) (index sub : Nat) : State :=
  let (s, c) := s.domainEnd none
  if c = 0 then s else (s.setUsdo none).usdoSay index sub c []

/-- A USDO request to read (R496). -/
def State.usdoUpload (s : State) (index sub room : Nat) : State :=
  if isDomain index sub then
    let (s, c, _) := (s.inc DIC_REQ_CNT.count).domainRead .usdo index sub none 0 0
    if c ≠ 0 then s.usdoSay index sub c []
    else
      let n := s.domainSize index sub
      (s.setUsdo (some { index, sub, write := false, total := n, domain := true })).usdoSay index sub 0 (leBytes 4 n)
  else
    let (s, c, b) := s.dicRead .usdo index sub none
    if c ≠ 0 then s.usdoSay index sub c []
    else if b.length ≤ room then s.usdoSay index sub 0 b
    else (s.setUsdo (some { index, sub, write := false, total := b.length, data := b })).usdoSay index sub 0 (leBytes 4 b.length)

/-- A USDO request to write in one frame (R496). -/
def State.usdoExpedited (s : State) (index sub : Nat) (data : List (BitVec 8)) : State :=
  let s := s.usdoBegins
  if isDomain index sub then
    let (s, c) := (s.inc DIC_REQ_CNT.count).domainOpen .usdo index sub none data.length
    if c ≠ 0 then s.usdoSay index sub c []
    else
      let s := s.setUsdo (some { index, sub, write := true, total := data.length, domain := true })
      let (s, c) := s.domainData 0 data
      if c ≠ 0 then ((s.dropDomain c).setUsdo none).usdoSay index sub c [] else s.usdoDomainEnd index sub
  else
    let (s, c) := s.dicWrite .usdo index sub none data
    (if c = 0 then s.usdoWrote index sub else s).usdoSay index sub c []

/-- Why a write of a channel table's subindex 02, 03 or 05 is refused at its start (R511): an abort code or 0. -/
def State.tableStart (s : State) (index sub : Nat) : Nat :=
  if s.tableBusy index sub then 0x08000020
  else if index / 256 = 0x60 ∧ sub = 5 ∧ (s.table (index % 256)).planes ≠ 0 then 0x06090030
  else 0

/-- A segmented write of a table's scalar value holds the table in state 1 from its start (R511). -/
def State.holdScalar (s : State) (index sub : Nat) : State :=
  if index / 256 = 0x60 ∧ sub = 5 then s.updTable (index % 256) fun t => { t with state := 1, code := 0, ledger := false } else s

/-- A USDO request that opens a segmented write (R496). -/
def State.usdoSegmented (s : State) (index sub total : Nat) : State :=
  let s := s.usdoBegins.inc DIC_REQ_CNT.count
  if isDomain index sub then
    let (s, c) := s.domainOpen .usdo index sub none total
    (if c ≠ 0 then s else s.setUsdo (some { index, sub, write := true, total, domain := true })).usdoSay index sub c []
  else match s.writeCheck .usdo index sub none total with
    | .error c => (s.refuseWrite .usdo index sub 0 c 0).usdoSay index sub c []
    | .ok _ =>
      let c := s.tableStart index sub
      if c ≠ 0 then (s.refuseWrite .usdo index sub 0 c 0).usdoSay index sub c []
      else ((s.holdScalar index sub).setUsdo (some { index, sub, write := true, total })).usdoSay index sub 0 []

/-- A USDO request (R496): refused while a transfer is open. -/
def State.usdoRequest (s : State) (index sub : Nat) (op : UsdoOp) : State :=
  if s.dic.usdo.isSome then
    let s := s.inc DIC_REQ_CNT.count
    (match op with
     | .upload _ => s.abortCode index sub 0x08000020
     | .expedited data => s.refuseWrite .usdo index sub 0 0x08000020 (if isDomain index sub then data.length else leNat data)
     | .segmented total => s.refuseWrite .usdo index sub 0 0x08000020 total).usdoSay index sub 0x08000020 []
  else match op with
    | .upload room => s.usdoUpload index sub room
    | .expedited data => s.usdoExpedited index sub data
    | .segmented total => s.usdoSegmented index sub total

/-- The open transfer ends with an abort that the engine sends and records (R496, R515). -/
def State.usdoEnd (s : State) (code : Nat) : State :=
  match s.dic.usdo with
  | none => s
  | some x => (s.endUsdo code).usdoSay x.index x.sub code []

/-- A segment of a USDO transfer (R496); one that no open transfer takes is ignored, one in the wrong direction ends it. -/
def State.usdoSegment (s : State) (op : UsdoSegment) : State :=
  match s.dic.usdo with
  | none => s
  | some x =>
    let before := s
    let s := s.inc DIC_REQ_CNT.count
    match op with
    | .down last data =>
      if ¬ x.write then s.usdoEnd 0x05040001
      else if x.domain then
        let (s, c) := s.domainData ((s.dic.domain.map (·.got)).getD 0) data
        if c ≠ 0 then s.usdoEnd c
        else if last then s.usdoDomainEnd x.index x.sub
        else s.usdoSay x.index x.sub 0 []
      else
        let all := x.data ++ data
        if x.total < all.length then s.usdoEnd 0x06070010
        else if last then
          let (s, c) := ((before.setUsdo none).freeScalar x.index x.sub true).dicWrite .usdo x.index x.sub none all
          (if c = 0 then s.usdoWrote x.index x.sub else s).usdoSay x.index x.sub c []
        else (s.setUsdo (some { x with data := all })).usdoSay x.index x.sub 0 []
    | .up room =>
      if x.write then s.usdoEnd 0x05040001
      else if x.domain then
        let (s, c, b) := s.domainRead .usdo x.index x.sub none x.got room
        if c ≠ 0 then s.usdoEnd c
        else
          let got := x.got + b.length
          (s.setUsdo (if b.isEmpty ∨ x.total ≤ got then none else some { x with got := got })).usdoSay x.index x.sub 0 b
      else
        let rest := x.data.drop room
        (s.setUsdo (if rest.isEmpty then none else some { x with data := rest })).usdoSay x.index x.sub 0 (x.data.take room)

/-- The latest DOMAIN write over USDO that has been handed over, where it is one on the object. -/
def State.lastUsdoDomain (s : State) (index sub : Nat) : Option Handed := s.dic.lastDomain.filter (·.isOf .usdo index sub)

/-- The client aborts (R489, R496, R583): a request that still waits and the open transfer end; after the commit point the abort is
recorded as too late, and nothing is answered. Every abort is recorded (R515). -/
def State.usdoAbort (s : State) (index sub : Nat) : State :=
  let flags := b2n (isDomain index sub)
  if s.dic.reqs.any (DicReq.opens index sub) then
    (s.dropReqs (DicReq.opens index sub)).journal .usdo index sub (4 + flags) 0 0 0
  else if s.dic.usdo.isSome ∧ ¬ (s.dic.handed.any fun h => h.src == .usdo) then (s.dropReqs DicReq.isSegment).endUsdo 0
  else match s.lastUsdoDomain index sub with
    | some h => s.tooLate .usdo index sub 9 (h.length + 2 ^ 32 * h.crc)
    | none =>
      if s.dic.lastUsdo = some (index, sub) then s.tooLate .usdo index sub (8 + flags) 0
      else s.journal .usdo index sub (4 + flags) 0 0 0

/-- No segment of the open transfer has arrived for 1 s (R496). -/
def State.usdoTimeout (s : State) : State :=
  if s.dic.handed.any fun h => h.src == .usdo then s else s.usdoEnd 0x05040000

/-! ### Process data (R497) -/

/-- The entries of a mapping: index, subindex and bytes. -/
def Pdo.entries (p : Pdo) : List (Nat × Nat × Nat) :=
  (List.range p.count).map fun k =>
    let e := p.map.getD k 0
    (e / 65536, e / 256 % 256, e % 256 / 8)

/-- An RPDO writes its mapped objects in entry order; one shorter than its mapping is discarded (R497). -/
def State.rpdoWrite (s : State) (n : Nat) (data : List (BitVec 8)) : State :=
  let es := (s.rpdo n).entries
  if data.length < (es.map fun e => e.2.2).sum then s
  else
    (es.foldl (fun (s, at_) e =>
      let (s, c) := s.dicWrite .rpdo e.1 e.2.1 none (slice data at_ e.2.2)
      let s := if c = 0 then s else (s.emcy 0xFF0F (leBytes 8 (s.fresh 64)) none).tookFree
      (s, at_ + e.2.2)) (s, 0)).1

/-- A TPDO's data as they are now: a mapped object that cannot be read gives zeros of its length. -/
def State.tpdoData (s : State) (n : Nat) : State × List (BitVec 8) :=
  (s.tpdo n).entries.foldl (fun (s, b) e =>
    match objInfo e.1 e.2.1 with
    | .error _ => (s, b ++ List.replicate e.2.2 0)
    | .ok o =>
      let (s, _, v) := s.objRead o e.1 e.2.1
      (s, b ++ v)) (s, [])

/-- The event timer of TPDO `n` expires at instant `t` (R497): it is sent unless its inhibit time still runs. -/
def State.tpdoTimer (s : State) (n t : Nat) : State :=
  let s := s.at t
  let p := s.tpdo n
  if ¬ s.canOn ∨ s.get DIC_STATUS.nmt_hb ≠ 5 ∨ p.cob.testBit 31 ∨ p.timer = 0 then s
  else if p.sentAt ≠ 0 ∧ s.now < p.sentAt - 1 + p.inhibit * 10 ^ 11 then s
  else
    let (s, b) := s.tpdoData n
    (s.updTpdo n fun p => { p with sentAt := s.now + 1 }).emit (.can (p.cob % 2048) b)

end Sys2Proof.Machine
end

