-- ==== Sys2Proof/Machine/Lantern.lean ====
section
/-! DEFINITION. The request queue of the dictionary engine and Lantern (R486, R500 to R508). -/

namespace Sys2Proof.Machine

/-! ### Datagrams (R501, R502) -/

/-- The items of a datagram; none where they overrun its length. -/
def lanItems : Nat → List (BitVec 8) → Option (List LanItem)
  | 0, _ => some []
  | n + 1, b =>
    let len := leAt b 6 2
    let whole := 12 + (len + 3) / 4 * 4
    if b.length < whole then none
    else (lanItems n (b.drop whole)).map fun l =>
      { op := leAt b 0 1, sub := leAt b 1 1, index := leAt b 2 2, type := leAt b 4 2, data := slice b 12 len } :: l

/-- A header of a response (R501). -/
def lanHeader (session seq items flags status : Nat) : List (BitVec 8) :=
  leBytes 2 0x4E4C ++ [1, 1] ++ leBytes 2 session ++ leBytes 2 seq ++ leBytes 1 items ++ leBytes 1 flags ++ leBytes 2 status ++
    leBytes 4 0

/-- A response item (R502, R504). -/
def LanItem.response (x : LanItem) (code : Nat) (data : List (BitVec 8)) : List (BitVec 8) :=
  leBytes 1 x.op ++ leBytes 1 x.sub ++ leBytes 2 x.index ++ leBytes 2 x.type ++ leBytes 2 data.length ++ leBytes 4 code ++ data ++
    List.replicate ((4 - data.length % 4) % 4) 0

/-! ### The queue (R486) -/

/-- The sessions after a response to a session: it is the latest used, and of 32 the one idle longest that holds no open DOMAIN
write makes room (R505). -/
def State.useSession (s : State) (x : LanSession) : State :=
  let same (y : LanSession) : Bool := y.ip == x.ip && y.port == x.port && y.session == x.session
  let rest := s.dic.sessions.filter fun y => !same y
  let holds (y : LanSession) : Bool := s.dic.domain.any fun d => d.src == .lantern y.ip y.port y.session
  let rest := if rest.length < 32 then rest
    else match popWhere (fun y => !holds y) rest with
      | some (_, l) => l
      | none => rest
  s.updDic fun d => { d with sessions := rest ++ [x] }

/-- The stored answer of a session to a request with the same seq (R505). -/
def State.stored (s : State) (r : LanReq) : Option LanSession :=
  s.dic.sessions.find? fun y => y.ip == r.ip && y.port == r.port && y.session == r.session && y.seq == r.seq

/-- The source of a datagram's items. -/
def LanReq.src (r : LanReq) : ReqSrc := .lantern r.ip r.port r.session

/-- The response data that an item will take, so far as that is known before it executes. -/
def State.itemRoom (s : State) (x : LanItem) : Nat :=
  match x.op with
  | 1 => match objInfo x.index x.sub with
    | .ok o => (s.objView o x.index x.sub).length
    | .error _ => 0
  | 6 => 4 + min (leAt x.data 4 4) (s.domainSize x.index x.sub - leAt x.data 0 4)
  | _ => 0

/-- The result that an item gets without being executed: 0 where it is executed (R503, R504). Twelve bytes are kept for each
item after it, so that every item is answered. -/
def State.itemCode (s : State) (r : LanReq) (x : LanItem) (after : Nat) : Nat :=
  if r.stop ∧ r.failed then 0x0F000002
  else if x.op = 0 ∨ 7 < x.op then 0x05040001
  else if 1472 < 16 + r.done_.length + 12 + (s.itemRoom x + 3) / 4 * 4 + 12 * after then 0x05040005
  else 0

/-- The response of a datagram whose items are done goes out and is stored in its session (R504, R505). -/
def State.lanAnswer (s : State) (r : LanReq) : State :=
  let bytes := lanHeader r.session r.seq r.count (s.fresh 1) 0 ++ r.done_
  (s.tookFree.useSession { ip := r.ip, port := r.port, session := r.session, seq := r.seq, response := bytes }).mgtUdp r.ip r.port
    bytes

/-- Changes the request at the head of the queue. -/
def State.setHead (s : State) (r : Option DicReq) : State :=
  s.updDic fun d => { d with reqs := r.toList ++ d.reqs.drop 1 }

/-- A request is served where its service is on in the NMT state (R494). -/
def State.servedBy (s : State) (on : Bool) (f : State → State) : State := if on then f s else s

/-- An item that is not executed (R503, R504): a write request is recorded (R515). -/
def State.itemSkipped (s : State) (r : LanReq) (x : LanItem) (c : Nat) : State :=
  if x.op = 2 then s.refuseWrite r.src x.index x.sub 0 c (leNat x.data)
  else if x.op = 3 then s.refuseWrite r.src x.index x.sub 1 c (leNat x.data)
  else s.abortCode x.index x.sub c

/-- One turn of the queue: what needs no command of its own happens; false where the head waits for one. -/
def State.queueTurn (s : State) : State × Bool :=
  if s.dic.handed.isSome then (s, false)
  else match s.dic.reqs with
    | [] => (s, false)
    | .request index sub op :: _ => ((s.setHead none).servedBy s.usdoOn fun s => s.usdoRequest index sub op, true)
    | .segment op :: _ => ((s.setHead none).servedBy s.usdoOn fun s => s.usdoSegment op, true)
    | .rpdo n data :: _ => ((s.setHead none).servedBy s.pdoOn fun s => s.rpdoWrite n data, true)
    | .lantern r :: _ =>
      match s.stored r with
      | some y =>
        if r.started then (s, false)
        else (((s.setHead none).inc DIC_LAN_DUP_CNT.count).useSession y |>.mgtUdp r.ip r.port y.response, true)
      | none =>
        match r.todo with
        | [] => ((s.setHead none).lanAnswer r, true)
        | x :: rest =>
          let c := s.itemCode r x rest.length
          if c = 0 then (s.setHead (some (.lantern { r with started := true })), false)
          else
            let s := s.itemSkipped r x c
            (s.setHead (some (.lantern { r with todo := rest, done_ := r.done_ ++ x.response c [], failed := true, started := true })),
              true)

/-- Turns of the queue up to a request that waits for its command. -/
def State.queueRun (s : State) : Nat → State
  | 0 => s
  | n + 1 =>
    let (s, more) := s.queueTurn
    if more then State.queueRun s n else s

/-- The queue goes on (R486). -/
def State.advance (s : State) : State := (s.queueRun 200).publishQueue

/-- A USDO request, a segment or an RPDO arrives (R486): with the queue full it stays unserved. -/
def State.enqueue (s : State) (r : DicReq) : State :=
  if 64 ≤ s.queued then s.err DIC_ERR.queue_full
  else (s.updDic fun d => { d with reqs := d.reqs ++ [r] }).advance

/-! ### Lantern (R504) -/

/-- A datagram is dropped and counted (R486, R504). -/
def State.lanDrop (s : State) : State := s.inc DIC_LAN_DROP_CNT.count

/-- A frame arrives whose source is UDP port `port` of `ip` (R500, R504). `dest` holds the IPv4 address and the UDP port to which it brings
datagram `b`, untagged and without options or fragments; none for every other frame, which is discarded like a datagram to another
address or port. -/
def State.lanternDatagram (s : State) (dest : Option (Nat × Nat)) (ip port : Nat) (b : List (BitVec 8)) : State :=
  let session := leAt b 4 2
  let seq := leAt b 6 2
  let refuse (status : Nat) : State := s.tookFree.mgtUdp ip port (lanHeader session seq 0 (s.fresh 1) status)
  if dest ≠ some (s.get DIC_MGT_IP.ip, s.get DIC_LAN_PORT.port) then s.lanDrop
  else if ¬ s.bit DIC_CTRL.lan_en then s
  else if b.length < 16 ∨ leAt b 0 2 ≠ 0x4E4C ∨ leAt b 3 1 ≠ 0 then s.lanDrop
  else if leAt b 2 1 ≠ 1 then refuse 2
  else
    let n := leAt b 8 1
    if n = 0 ∨ 32 < n then refuse 1
    else match lanItems n (b.drop 16) with
      | none => refuse 1
      | some todo =>
        if 64 < s.queued + n then s.lanDrop.err DIC_ERR.queue_full
        else (s.updDic fun d => { d with reqs := d.reqs ++
          [.lantern { ip, port, session, seq, count := n, stop := leAt b 9 1 % 2 == 1, todo }] }).advance

/-- The item at the head of the queue, where its operation is `op` and nothing keeps it waiting. -/
def State.headItem (s : State) (op : Nat) : Option (LanReq × LanItem) :=
  if s.dic.handed.isSome then none
  else match s.dic.reqs with
    | .lantern r :: _ => match r.todo with
      | x :: _ => if x.op = op then some (r, x) else none
      | [] => none
    | _ => none

/-- The head item is done with its result (R504). -/
def State.itemDone (s : State) (code : Nat) (data : List (BitVec 8)) : State :=
  match s.dic.reqs with
  | .lantern r :: _ => match r.todo with
    | x :: rest =>
      (s.setHead (some (.lantern { r with todo := rest, done_ := r.done_ ++ x.response code data, failed := r.failed || code != 0 }))).advance
    | [] => s
  | _ => s

/-- Executes the head item where it is of operation `op`. -/
def State.onItem (s : State) (op : Nat) (f : State → LanReq → LanItem → State) : State :=
  match s.headItem op with
  | some (r, x) => f s r x
  | none => s

/-- Item READ (R503). -/
def State.lanRead (s : State) : State := s.onItem 1 fun s r x =>
  let (s, c, b) := s.dicRead r.src x.index x.sub (some x.type)
  s.itemDone c b

/-- Item WRITE (R503). -/
def State.lanWrite (s : State) : State := s.onItem 2 fun s r x =>
  let (s, c) := s.dicWrite r.src x.index x.sub (some x.type) x.data
  s.itemDone c []

/-- The open DOMAIN write is that of a session on the item's object. -/
def State.ownsDomain (s : State) (r : LanReq) (x : LanItem) : Bool :=
  s.dic.domain.any fun d => d.src == r.src && d.index == x.index && d.sub == x.sub

/-- Item DOMAIN_BEGIN (R503, R507). -/
def State.lanBegin (s : State) : State := s.onItem 3 fun s r x =>
  let s := s.inc DIC_REQ_CNT.count
  if x.data.length ≠ 4 then (s.refuseWrite r.src x.index x.sub 1 0x06070010 (leNat x.data)).itemDone 0x06070010 []
  else
    let (s, c) := s.domainOpen r.src x.index x.sub (some x.type) (leNat x.data)
    s.itemDone c []

/-- A DOMAIN item is refused: its code is shown (R505, R514). -/
def State.itemRefused (s : State) (x : LanItem) (c : Nat) : State := (s.abortCode x.index x.sub c).itemDone c []

/-- Item DOMAIN_DATA (R503, R505). -/
def State.lanData (s : State) : State := s.onItem 4 fun s r x =>
  let s := s.inc DIC_REQ_CNT.count
  if ¬ s.ownsDomain r x then s.itemRefused x 0x0F000003
  else if x.type ≠ 0x0F ∨ x.data.length < 4 ∨ 1444 < x.data.length then s.itemRefused x 0x06070010
  else
    let (s, c) := s.domainData (leAt x.data 0 4) (x.data.drop 4)
    if c = 0 then s.itemDone 0 [] else s.itemRefused x c

/-- Item DOMAIN_END (R503, R507, R508): with the hand-off done, the answer waits for the result. -/
def State.lanEnd (s : State) : State := s.onItem 5 fun s r x =>
  let s := s.inc DIC_REQ_CNT.count
  if ¬ s.ownsDomain r x then s.itemRefused x 0x0F000003
  else if x.type ≠ 0x0F ∨ x.data.length ≠ 4 then s.itemRefused x 0x06070010
  else
    let (s, c) := s.domainEnd (some (leNat x.data))
    if c = 0 then s else s.itemDone c []

/-- Item DOMAIN_READ (R503, R509). -/
def State.lanDomainRead (s : State) : State := s.onItem 6 fun s r x =>
  let s := s.inc DIC_REQ_CNT.count
  if x.data.length ≠ 8 then s.itemRefused x 0x06070010
  else if 1440 < leAt x.data 4 4 then s.itemRefused x 0x06070010
  else
    let (s, c, b) := s.domainRead r.src x.index x.sub (some x.type) (leAt x.data 0 4) (leAt x.data 4 4)
    s.itemDone c (if c = 0 then leBytes 4 (leAt x.data 0 4) ++ b else [])

/-- Item ABORT (R489, R503). -/
def State.lanAbort (s : State) : State := s.onItem 7 fun s r x =>
  let s := s.inc DIC_REQ_CNT.count
  match objInfo x.index x.sub with
  | .ok o =>
    if x.type ≠ o.ty.code then (s.journal r.src x.index x.sub 6 0x06070010 0 0).itemRefused x 0x06070010
    else
      let (s, c) := s.domainAbort r.src x.index x.sub
      s.itemDone c []
  | .error c => (s.journal r.src x.index x.sub 6 c 0 0).itemRefused x c

/-- The result of a hand-off is known (R508): it is recorded, the answer goes out and the queue goes on. -/
def State.domainResult (s : State) : State :=
  match s.dic.handed with
  | none => s
  | some h => match s.handResult h with
    | none => s
    | some c =>
      let s := s.handDone h c
      match h.src with
      | .lantern _ _ _ => s.itemDone c []
      | _ =>
        let s := if c = 0 then s.usdoWrote h.index h.sub else s
        (if s.dic.usdo.isSome then (s.setUsdo none).usdoSay h.index h.sub c [] else s).advance

/-- No DOMAIN item has come for 10 s (R505). -/
def State.lanTimeout (s : State) : State :=
  match s.dic.domain with
  | some d => match d.src with
    | .lantern _ _ _ => s.dropDomain 0x05040000
    | _ => s
  | none => s

/-! ### ARP and ICMP on the management port (R500) -/

/-- The MAC of the management port (R519). -/
def State.mgtMac (s : State) : Nat := s.get DIC_MGT_MAC_LO.mac + 2 ^ 32 * s.get DIC_MGT_MAC_HI.mac

/-- An ARP request for `target` from `ip` at `mac` (R500, RFC 826). -/
def State.mgtArp (s : State) (ip mac target : Nat) : State :=
  if target ≠ s.get DIC_MGT_IP.ip then s.lanDrop
  else if ¬ s.bit DIC_CTRL.lan_en then s
  else s.emit (.mgt (arpFrame mac s.mgtMac 2 target mac ip))

/-- An ICMP echo request at instant `t` (R500, RFC 792): at most 100 replies a second. The time to live and the identification
of the reply are free. -/
def State.mgtEcho (s : State) (t mac ip target : Nat) (rest : List (BitVec 8)) : State :=
  let s := s.at t
  if target ≠ s.get DIC_MGT_IP.ip then s.lanDrop
  else if ¬ s.bit DIC_CTRL.lan_en then s
  else
    let sec := s.now / 10 ^ 15
    let n := if s.dic.echoSecond = sec then s.dic.echoes else 0
    if 100 ≤ n then s.lanDrop
    else
      let body := [(0 : BitVec 8), 0] ++ beBytes 2 (checksum ([(0 : BitVec 8), 0, 0, 0] ++ rest)) ++ rest
      let open_ := s.fresh 24
      let head := ipHeader 0 (open_ / 65536) (20 + body.length) (open_ % 65536) 1 target ip
      let s := (s.updDic fun d => { d with echoSecond := sec, echoes := n + 1 }).tookFree
      s.emit (.mgt (beBytes 6 mac ++ beBytes 6 s.mgtMac ++ beBytes 2 0x0800 ++ head ++ body))

/-- The PCS of the management port gains or loses block lock (R500). -/
def State.mgtLock (s : State) (locked : Bool) : State := s.put DIC_STATUS.mgt_link (b2n locked)

end Sys2Proof.Machine
end

