-- ==== Sys2Proof/Machine/CanNode.lean ====
section
/-! DEFINITION. The CAN node: NMT, Initialisation, heartbeat, the bus states and waking (R492 to R495, R560, R562). -/

namespace Sys2Proof.Machine

/-- The NMT state's heartbeat value (R494). -/
def State.nmtState (s : State) : Nat := s.get DIC_STATUS.nmt_hb

/-- Shows an NMT state. -/
def State.putNmt (s : State) (v : Nat) : State := s.put DIC_STATUS.nmt_hb v

/-- NMT start: Pre-operational or Stopped to Operational (R495). -/
def State.nmtStart (s : State) : State :=
  let s := s.journalNmt 1
  if s.nmtState = 127 ∨ s.nmtState = 4 then s.putNmt 5 else s

/-- NMT stop: Pre-operational or Operational to Stopped, where the open USDO transfer ends (R495). -/
def State.nmtStop (s : State) : State :=
  let s := s.journalNmt 2
  if s.nmtState = 127 ∨ s.nmtState = 5 then s.cutUsdo.putNmt 4 else s

/-- NMT enter pre-operational: Operational or Stopped to Pre-operational (R495). -/
def State.nmtPreOperational (s : State) : State :=
  let s := s.journalNmt 128
  if s.nmtState = 5 ∨ s.nmtState = 4 then (s.dropReqs DicReq.isRpdo).putNmt 127 else s

/-- NMT reset communication (R495). -/
def State.nmtResetCommunication (s : State) : State := (s.journalNmt 130).enterInit

/-- NMT reset node: with nmt_reset_en also the device reset (R495, R567). -/
def State.nmtResetNode (s : State) : State :=
  let reset := s.bit DIC_CTRL.nmt_reset_en
  let s := (s.journalNmt 129).enterInit
  if reset then s.devReset else s

/-- An NMT command to the node (R493, R495). -/
def State.nmt (s : State) : NmtCommand → State
  | .start => s.nmtStart
  | .stop => s.nmtStop
  | .preOperational => s.nmtPreOperational
  | .resetNode => s.nmtResetNode
  | .resetCommunication => s.nmtResetCommunication

/-- An NMT command received while the node is on and the device is not in Eclipse. -/
def State.onNmt (s : State) (cmd : NmtCommand) : State := if s.canOn then s.nmt cmd else s

/-- A value that Initialisation applies (R495, R577). -/
def State.applyDefault (s : State) (index sub v : Nat) : State :=
  match objInfo index sub with
  | .ok o => (s.objWrite o index sub v).1
  | .error _ => s

/-- The communication objects take their defaults and the values of the dictionary store; the node-ID and the bit rates written
come into force (R492, R495, R577). -/
def State.initObjects (s : State) : State :=
  let defaults := s.dic.defaults
  let s := (defaults.filter fun e => e.1 == 0x2001).foldl (fun s e => s.applyDefault e.1 e.2.1 e.2.2) s
  let s := s.updDic fun d => { d with
    node := s.get DIC_CAN_CFG.node_id
    rates := s.get DIC_CAN_CFG.nom_rate + 16 * s.get DIC_CAN_CFG.data_rate
    cobEmcy := none, inhibitEmcy := 100, heartbeat := 1000, history := [], rpdo := [], tpdo := [] }
  let s := (defaults.filter fun e => e.1 != 0x2001).foldl (fun s e => s.applyDefault e.1 e.2.1 e.2.2) s
  s.updDic fun d => { d with defaults := defaults }

/-- The end of Initialisation (R494, R495): the boot-up message goes out and the node is Pre-operational. It needs Dawn to be
over, or to have ended for want of core firmware (R568, R575). -/
def State.initialisationDone (s : State) : State :=
  if s.canOn ∧ s.nmtState = 0 ∧ (s.bit BOT_STATUS.dawn_done ∨ s.get BOT_STATUS.err = 6) then
    let s := s.initObjects
    (s.emit (.can (s.cobId 0x700) [0])).putNmt 127
  else s

/-- The producer heartbeat timer expires (R493, R494): also in Eclipse, and no more once Dusk is complete (R562, R564). -/
def State.heartbeat (s : State) : State :=
  if s.bit DIC_CTRL.can_en ∧ s.dic.heartbeat ≠ 0 ∧ s.nmtState ≠ 0 then
    s.emit (.can (s.cobId 0x700) (leBytes 1 s.nmtState))
  else s

/-- The CAN controller's error counters take it into another bus state (R492, R499). -/
def State.canBus (s : State) (bus tec rec : Nat) : State :=
  let s := ((s.put DIC_CAN_STATE.bus bus).put DIC_CAN_STATE.tec tec).put DIC_CAN_STATE.rec rec
  if bus = 2 then s.err DIC_ERR.can_bus_off else s

/-- A bus-off node has seen 128 occurrences of 11 recessive bits (R492): it is error-active again with its counters at 0, and
keeps its NMT state. -/
def State.canRecovery (s : State) : State := if s.get DIC_CAN_STATE.bus = 2 then s.canBus 0 0 0 else s

/-- A write of 1 to DIC_CTRL.can_en (R495). -/
def State.canEnable (s : State) : State := s.writeDicCtrl 1 1

/-- A CAN frame for the node in Eclipse (R560, R562): it wakes the device; an NMT command is performed after exit step X3, a
USDO request is not answered. -/
def State.wakeCan (s : State) (f : CanFrame) : State :=
  if s.bit DIC_CTRL.can_en ∧ s.wakes 0 then
    let s := s.wake 0 20
    match f with
    | .nmt cmd => s.nmt cmd
    | .usdo _ _ _ => s
  else s

/-- Every mirror_min minutes, and in Dusk, the ledger goes to flash, to one copy and then to the other (R549, R571, R580). -/
def State.ledgerMirror (s : State) (ok : Bool) : State :=
  if ok then
    { s with flash := s.mirrorCopy 1 (s.mirrorCopy 0 s.flash) }.put LED_STATUS.mirror_ok 1
  else ((s.put LED_STATUS.mirror_ok 0).err LED_ERR.mirror_fail).err BOT_ERR.flash_fail

/-- Tarnish's history goes to flash (R534, R564). -/
def State.historyMirror (s : State) : State :=
  let m : TarMirror := { islands := s.tar.islands.map fun e => (e.1, e.2.hist), lanes := s.tar.lanes }
  { s with flash := { s.flash with history := some m } }

/-- The keeper has mirrored everything (R564, steps 5 to 7): every domain but the always-on one is powered down. -/
def State.duskMirrorDone (s : State) : State :=
  if s.powerState ≠ 5 ∨ s.pwr.step ≠ 5 then s
  else
    let s := (s.mirrorJournal.ledgerMirror true).historyMirror
    let s := s.gatedReset.pinsGated.putThState 16 0
    ((s.put PWR_STATUS.state 6).put PWR_STATUS.committed 0).updPwr fun p => { p with step := 0 }

end Sys2Proof.Machine
end

