-- ==== Sys2Proof/Machine/Dawn.lean ====
section
/-! DEFINITION. Dawn, the stored configuration and the vendor update (R568 to R578). -/

namespace Sys2Proof.Machine

/-! ### Steps -/

/-- Step `k` of Dawn is complete (R568). -/
def State.dawnStep (s : State) (k : Nat) : State := s.put BOT_STATUS.step k

/-- Step D3: the keeper's firmware is loaded and started, with the watchdog armed (R568). -/
def State.dawnKeeper (s : State) (img : List (BitVec 8)) : State :=
  ((s.loadFirmware 4 img).updPwr fun p => { p with kickAt := s.now }).startThread 16

/-- A stack goes through INIT (R317, R575). -/
def State.dawnStack (s : State) (k : Nat) (ok : Bool) : State :=
  let s := s.putStack k 1
  if ok then s.hbmInitComplete k else (s.hbmInitFail k).dawnErr 9

/-- Step D4: the scratchpad banks have been cleared, port R of the mailbox is open, and the stacks come through INIT (R317, R465, R568). -/
def State.dawnDomains (s : State) (ok0 ok1 : Bool) : State :=
  let s := forN 8 s fun b s => s.put SPD_BANK_STATUS.state 2 b
  let s := s.put SPD_MBX_STATUS.port_r_open 1
  (s.dawnStack 0 ok0).dawnStack 1 ok1

/-- The directory entry of a type and index (R572). -/
def State.dirEntry (s : State) (d type index : Nat) : Option DirEntry :=
  (s.directory d).bind fun es => es.find? fun e => e.type == type && (e.index == index || (type == 2 && e.index == 0xFF))

/-- The firmware of each control core (R569, R575): an image that several cores share is checked once. -/
def State.coreImages (s : State) (mode : Nat) : State × List (Option (List (BitVec 8))) :=
  let key (c : Nat) : Option DirEntry × Option DirEntry := (s.dirEntry 0 2 c, s.dirEntry 1 2 c)
  (List.range 4).foldl (fun (s, l) c =>
    match (List.range c).find? fun b => key b == key c with
    | some b => (s, l ++ [l.getD b none])
    | none =>
      let (s, i) := s.bootImage mode 2 c
      (s, l ++ [i])) (s, [])

/-- Step D5: firmware for every core, or none is started (R568, R575). -/
def State.dawnCores (s : State) (mode : Nat) : State :=
  let (s, imgs) := s.coreImages mode
  if imgs.any fun i => i.isNone then s.dawnErr 6
  else (forN 4 s fun c s => (s.loadFirmware c ((imgs.getD c none).getD [])).startThread (4 * c)).dawnStep 5

/-- Step D6: the patch (R574, R575). -/
def State.dawnPatch (s : State) (mode : Nat) : State :=
  let none_ (s : State) : State := ((s.setPatch []).put BOT_PATCH_VER.ver 0).dawnErr 7
  match s.bootImage mode 3 0 with
  | (s, some img) =>
    let (s, ok) := s.loadPatch img
    if ok then s else s.dawnErr 7
  | (s, none) => none_ s

/-! ### Step D7: the retained regions (R517, R534, R549, R559, R568) -/

/-- The ledger's records, its lane map and its clock come back from flash (R545, R549). -/
def State.reloadLedger (s : State) : State :=
  let s := s.led.laneRec.foldl (fun s e => s.mapLane e.1 none) s
  let c := s.flash.ledgerCopy
  let s := s.updLed fun l => { l with recs := s.flash.records c }
  let s := (s.flash.laneRecords c).foldl (fun s e => s.mapLane e.1 (some (e.2 - 1))) s
  (s.put LED_CLOCK.s (s.flash.ledgerClock c)).publishUsed

/-- Tarnish's history comes back from flash (R534). -/
def State.reloadHistory (s : State) : State :=
  let m : TarMirror := s.flash.history.getD { islands := [], lanes := [] }
  s.updTar fun t => { t with
    islands := (m.islands.map fun e => (e.1, { ({} : TarIsland) with hist := e.2 })).filter fun e => e.2 != {}
    lanes := m.lanes }

/-- The regions without a flash area start empty: the error queue and the dictionary store (R559, R571). -/
def State.emptyQueue (s : State) : State := (s.updErq fun e => { e with entries := [] }).publishErq
def State.emptyStore (s : State) : State :=
  { s with csr := s.csr.keep (fun k => !clientKey k), dic := { s.dic with defaults := [] } }

/-- The regions that Dawn reloads: all after Off, else the invalid ones (R568). -/
def State.regionsLost (s : State) : Nat := if s.pwr.lost then 31 else s.pwr.invalid

/-- A field whose reset entry is "boot" takes the value that the flash gives where no configuration is replayed. -/
def State.bootFields (s : State) : State :=
  let s := s.put DIC_CAN_CFG.node_id (1 + Config.bootValue (DIC_CAN_CFG.node_id.key 0 0) % 127)
  let s := s.put DIC_MGT_IP.ip (Config.bootValue (DIC_MGT_IP.ip.key 0 0))
  let s := s.put DIC_MGT_MASK.prefix_ (Config.bootValue (DIC_MGT_MASK.prefix_.key 0 0) % 33)
  s.put DIC_MGT_GW.ip (Config.bootValue (DIC_MGT_GW.ip.key 0 0))

/-- Step D7. -/
def State.dawnRetained (s : State) : State :=
  let r := s.regionsLost
  let off := s.pwr.lost
  let s := if r.testBit 0 then s.reloadJournal else s
  let s := if r.testBit 1 then s.reloadLedger else s
  let s := if off then s.ledgerWake else s
  let s := if r.testBit 2 then s.reloadHistory else s
  let s := if r.testBit 3 then s.emptyQueue else s
  let s := if r.testBit 4 then s.emptyStore else s
  let s := if r % 8 = 0 then s else s.put BOT_STATUS.from_flash 1
  let s := s.put BOT_STATUS.pwrgd_loss (b2n s.pwr.lossFlag)
  let s := s.updPwr fun p => { p with lost := false, invalid := 0, lossFlag := false }
  let n := (s.flash.dawns + 1) % 2 ^ 32
  let s : State := { s with flash := s.flash.program dawnCountBase (leBytes 4 n) }
  (s.put BOT_DAWN_CNT.count n).bootFields.dawnStep 7

/-- Step D8: the start plan, and every island turned on (R568, R576). -/
def State.dawnPlan (s : State) : State :=
  let p := if Config.grade28 then 366000 else 320000
  let s := ((s.put TAR_AVS.set_mv 750).put TAR_PLAN.v_mv 750).put SEQ_ADM_PSLOW.period_fs p
  let s := forN 16 s fun i s => s.put ARR_ISL_CLK_PLAN.period_fs p i
  (forN 16 s fun i s => s.enterIsl i 1).dawnStep 8

/-! ### The stored configuration (R577) -/

/-- A record of a stored configuration. -/
structure CfgRecord where
  index : Nat
  sub : Nat
  domain : Bool
  data : List (BitVec 8)
  deriving DecidableEq, Repr

/-- The records of a payload, with at most `fuel` of them; none where the payload ends inside one or a reserved flag is set. -/
def cfgRecords : Nat → List (BitVec 8) → Option (List CfgRecord)
  | _, [] => some []
  | 0, _ => none
  | fuel + 1, b =>
    let n := leAt b 4 4
    let fl := leAt b 3 1
    if b.length < 8 + n ∨ 2 ≤ fl then none
    else
      let r : CfgRecord := { index := leAt b 0 2, sub := leAt b 2 1, domain := fl == 1, data := slice b 8 n }
      (cfgRecords fuel (b.drop (8 + (n + 3) / 4 * 4))).map fun l => r :: l

/-- A record that may never be replayed or stored (R577, R578). -/
def CfgRecord.barred (r : CfgRecord) : Bool := r.index / 256 == 0x30

/-- Bytes of a configuration slot (R571, R573): as many as its header announces, within the slot; the header alone where it
does not begin with the magic number of an image. -/
def State.slotImage (s : State) (k : Nat) : List (BitVec 8) :=
  let base := 0x800000 + 0x800000 * k
  let n := if leNat (s.flash.read base 4) = 0x4D494B53 then min (leNat (s.flash.read (base + 8) 4)) (0x800000 - 160) else 0
  s.flash.read base (160 + n)

/-- The check of a configuration slot's image: its error code, 0 where it is valid (R573). -/
def State.slotCheck (s : State) (k : Nat) : Nat := imageCheck (s.slotImage k) 4 0x800000 (s.bit BOT_FUSE.owner_key) false

/-- A configuration slot is valid (R573). -/
def State.slotValid (s : State) (k : Nat) : Bool := s.slotCheck k == 0

/-- The generation of a slot. -/
def State.slotGen (s : State) (k : Nat) : Nat := leAt (s.slotImage k) 16 4 % 2 ^ 31

/-- The slot that Dawn takes: the valid one with the higher generation, slot 0 where they are equal (R577). -/
def State.dawnSlot (s : State) : Option Nat :=
  match s.slotValid 0, s.slotValid 1 with
  | true, true => some (if s.slotGen 0 < s.slotGen 1 then 1 else 0)
  | true, false => some 0
  | false, true => some 1
  | false, false => none

/-- The side-port accesses of as many barriers, at most `n`, as it takes until the writes of table `k` have been performed and its
commit set is armed (R142, R512). -/
def State.tableBarriers (s : State) (k : Nat) : Nat → State
  | 0 => s
  | n + 1 => if (s.table k).state = 1 then State.tableBarriers (s.sideAtToken.sidePortPerform.tablesWritten) k n else s

/-- What a DOMAIN write handed over waits for comes to its end, so that the replay has its answer (R508, R577). -/
def State.handSettle (s : State) (h : Handed) : State :=
  if h.index = 0x2302 then s.facetLoadDone (h.sub - 1)
  else if h.index = 0x2600 then s.loadDone.admissionComplete
  else if h.index / 256 = 0x60 then s.tableBarriers (h.index % 256) (s.pri.side.length + 1)
  else s

/-- Executes one record as a dictionary write with all four rights: its abort code (R577). -/
def State.replayRecord (s : State) (r : CfgRecord) : State × Nat :=
  if r.barred then (s, 0x06010000)
  else if r.domain then
    let s := s.inc DIC_REQ_CNT.count
    let (s, c) := s.domainOpen .replay r.index r.sub none r.data.length
    if c ≠ 0 then (s, c)
    else
      let (s, c) := s.domainData 0 r.data
      if c ≠ 0 then (s.dropDomain c, c)
      else
        let (s, c) := s.domainEnd none
        match s.dic.handed with
        | none => (s, c)
        | some h =>
          let s := s.handSettle h
          let c := (s.handResult h).getD 0x08000020
          (s.handDone h c, c)
  else
    let (s, c) := s.dicWrite .replay r.index r.sub none r.data
    if c = 0 ∧ (r.index / 4096 = 1 ∨ r.index = 0x2001) then
      (s.updDic fun d => { d with defaults := d.defaults ++ [(r.index, r.sub, leNat r.data)] }, c)
    else (s, c)

/-- A refused record is counted and reported, and the replay goes on (R577). -/
def State.recordRefused (s : State) (n : Nat) : State :=
  let s := if s.get BOT_CFG_REFUSED.count = 0 then s.put BOT_CFG_REFUSED.first n else s
  (s.put BOT_CFG_REFUSED.count (min 65535 (s.get BOT_CFG_REFUSED.count + 1))).err BOT_ERR.cfg_refused

/-- Replays the records of a configuration in order (R577). -/
def State.replay (s : State) (l : List CfgRecord) : State :=
  let s := s.updDic fun d => { d with defaults := [] }
  l.zipIdx.foldl (fun s e =>
    let (s, c) := s.replayRecord e.1
    if c = 0 then s else s.recordRefused e.2) s

/-- A slot holds an image or part of one: its first bytes are not erased. -/
def State.slotUsed (s : State) (k : Nat) : Bool := leNat (s.flash.read (0x800000 + 0x800000 * k) 4) != 0xFFFFFFFF

/-- The configuration slots whose image is invalid are reported (R575). -/
def State.slotsChecked (s : State) : State :=
  [0, 1].foldl (fun s k => if s.slotUsed k ∧ s.slotCheck k ≠ 0 then s.imageBad (s.slotCheck k) else s) s

/-- Step D9 (R575, R577). -/
def State.dawnReplay (s : State) : State :=
  let s := s.slotsChecked
  match s.dawnSlot with
  | none => (s.put BOT_CFG_VER.ver 0).dawnErr 8
  | some k =>
    let img := s.slotImage k
    let s := (s.put BOT_CFG_VER.ver (leAt img 12 4)).put BOT_CFG_GEN.gen (s.slotGen k)
    let p := imagePayload img
    ((s.put BOT_CFG_GEN.slot k).replay ((cfgRecords p.length p).getD [])).dawnStep 9

/-- Step D10 (R270, R279, R495, R516, R525, R568). -/
def State.dawnDone (s : State) : State :=
  let s : State := { ((s.dawnStep 10).put BOT_STATUS.dawn_done 1) with dawnAt := s.now }
  (s.glintsIdle.glintTrim.initialisationDone).tarTrigger 8

/-! ### Dawn (R568, R569, R575) -/

/-- Dawn ends in the boot ROM after D1 (R569, R575): BUSY asserted, the Glint outputs at zero differential. -/
def State.dawnStop (s : State) (err : Nat) : State := ((s.put BOT_STATUS.err err).dawnStep 1).pinsGated

/-- A field takes its reset value. -/
def State.toReset (s : State) (f : Fld) (i : Nat := 0) : State := s.put f (f.reset i 0) i

/-- The dictionary rights at their reset values, those of the clients that the retention SRAM has kept included (R569). -/
def State.rightsReset (s : State) : State :=
  forN 16 ((s.toReset DIC_RIGHTS.can).toReset DIC_RIGHTS.lan_default) fun n s => s.toReset DIC_CLIENT_CFG.rights n

/-- Steps D4 to D10, after the keeper's firmware has started (R568, R569). -/
def State.dawnRest (s : State) (mode : Nat) (ok0 ok1 : Bool) : State :=
  let s := ((s.dawnDomains ok0 ok1).dawnStep 4).dawnCores mode
  let whole : Bool := s.get BOT_STATUS.err != 6
  let s := ((s.dawnPatch mode).dawnStep 6).dawnRetained
  let s := if mode = 2 then s.rightsReset else s
  if ¬ whole then s.initialisationDone
  else
    let s := s.dawnPlan
    (if mode = 2 then s.put BOT_CFG_VER.ver 0 else s.dawnReplay).dawnDone

/-- Dawn in one command, ending at instant `t` after `us` microseconds: RESET_N must have risen. In mode 4 the keeper, and with it
every unit but the test access port, stays held in reset (R569). -/
def State.dawn (s : State) (t us mode : Nat) (flash : Option Sfdp) (ok0 ok1 : Bool) : State :=
  if ¬ s.pwr.dawnReady then s
  else
    let s := (((s.at t).updPwr fun p => { p with dawnReady := false }).put BOT_STATUS.bootmode mode).put BOT_STATUS.err 0
    let s : State := { s.put SPD_MBX_STATUS.state 2 with flash := { s.flash with sfdp := flash } }
    if mode = 4 then s.pinsGated.updPwr fun p => { p with held := true }
    else if mode = 3 then s.dawnStop 0
    else if 5 ≤ mode then s.dawnStop 1
    else
      let (s, e) := s.flashFound
      if e ≠ 0 then s.dawnStop e
      else
        match (s.dawnStep 2).bootImage mode 1 0 with
        | (s, none) => s.dawnStop 5
        | (s, some img) => (((s.dawnKeeper img).dawnStep 3).dawnRest mode ok0 ok1).put BOT_DAWN_US.us us

/-! ### Storing a configuration (R578) -/

/-- The checks of an image to store: its error code, 0 where it may be stored. -/
def State.storeCheck (s : State) (img : List (BitVec 8)) : Nat :=
  if 0x800000 < img.length then 4
  else match imageCheck img 4 0x800000 (s.bit BOT_FUSE.owner_key) false with
    | 1 => 1
    | 2 | 3 => 2
    | _ =>
      let p := imagePayload img
      match cfgRecords p.length p with
      | none => 1
      | some l => if l.any fun r => r.barred || (rowsOf r.index).isEmpty then 3 else 0

/-- The image with its generation written and its crc32 made to fit (R573, R578). -/
def withGeneration (img : List (BitVec 8)) (g : Nat) : List (BitVec 8) :=
  let b := img.take 16 ++ leBytes 4 g ++ img.drop 20
  let sum := crc32 (b.take 48 ++ List.replicate 4 0 ++ slice b 52 44 ++ List.replicate 64 0 ++ b.drop 160)
  b.take 48 ++ leBytes 4 sum ++ b.drop 52

/-- How many of `n` bytes the flash has programmed. -/
def landed (r : FlashRun) (n : Nat) : Nat :=
  match r with
  | .done => n
  | .failed k => min n k

/-- The keeper stores the image handed to it (R578): the slot that Dawn would not take gets it, up to its read-back. -/
def State.configStore (s : State) (run : FlashRun) : State :=
  match s.pwr.store with
  | none => s
  | some img =>
    let c := s.storeCheck img
    if c ≠ 0 then s.storeFails c
    else
      let (slot, gen) := match s.dawnSlot with
        | some k => (1 - k, s.slotGen k)
        | none => (0, 0)
      let base := 0x800000 + 0x800000 * slot
      let data := withGeneration (img.take (160 + leAt img 8 4)) ((gen + 1) % 2 ^ 31)
      let f := (s.flash.erase base 0x800000).program base (data.take (landed run data.length))
      let s : State := { s with flash := f }
      match run with
      | .done => ({ s with pwr := { s.pwr with store := none } } : State).put BOT_STORE_ERR.code 0
      | .failed _ => (s.storeFails 5).err BOT_ERR.flash_fail

/-! ### A vendor update (R578) -/

/-- The images of a bundle, one after the other; none where it ends inside one. -/
def bundleImages : Nat → List (BitVec 8) → Option (List (List (BitVec 8)))
  | _, [] => some []
  | 0, _ => none
  | fuel + 1, b =>
    let n := 160 + leAt b 8 4
    if b.length < n then none else (bundleImages fuel (b.drop n)).map fun l => b.take n :: l

/-- The error code of an image of a bundle, 0 where it is valid (R573). -/
def bundleCheck (b : List (BitVec 8)) : Nat :=
  let ty := leAt b 6 1
  if ty = 0 ∨ 3 < ty then 1
  else match imageCheck b ty b.length true (ty == 3) with
    | 0 => if ty ≤ 2 ∧ lramSize (if ty = 1 then 4 else 0) < leAt b 16 4 + leAt b 8 4 then 1 else 0
    | 1 => 1
    | _ => 2

/-- The index of image `n` in a bundle: the core firmware images take the cores in turn, and a single one serves all cores. -/
def bundleIndex (l : List (List (BitVec 8))) (n : Nat) : Nat :=
  let core (b : List (BitVec 8)) : Bool := leAt b 6 1 == 2
  if ¬ core (l.getD n []) then 0
  else if (l.filter core).length = 1 then 0xFF
  else ((l.take n).filter core).length

/-- The directory that names the images of a bundle, placed one after the other from offset `base` (R572). -/
def bundleDirectory (l : List (List (BitVec 8))) (base : Nat) : List (BitVec 8) :=
  let entry (n : Nat) : List (BitVec 8) :=
    let b := l.getD n []
    let off := base + ((l.take n).map List.length).sum
    leBytes 1 (leAt b 6 1) ++ leBytes 1 (bundleIndex l n) ++ leBytes 2 0 ++ leBytes 4 off ++ leBytes 4 b.length ++
      leBytes 4 (leAt b 12 4) ++ List.replicate 16 0
  let body := (List.range l.length).flatMap entry
  let head (crc : Nat) : List (BitVec 8) :=
    leBytes 4 0x52444B53 ++ leBytes 2 1 ++ leBytes 2 l.length ++ leBytes 4 crc ++ leBytes 4 0
  let rest := body ++ List.replicate (4096 - 16 - body.length) 0
  head (crc32 (head 0 ++ rest)) ++ rest

/-- The check of a bundle: its error code. -/
def bundleCode (b : List (BitVec 8)) : Nat :=
  match bundleImages b.length b with
  | none => 1
  | some l =>
    let bad := (l.map bundleCheck).filter (· != 0)
    let cores := (l.filter fun b => leAt b 6 1 == 2).length
    if l.isEmpty ∨ 127 < l.length ∨ 4 < cores then 1
    else match bad with
      | c :: _ => c
      | [] => if 0x400000 - 0x2000 < b.length then 4 else 0

/-- Image area and directory `d` are erased and programmed, the images first; at most `n` bytes land (R578). -/
def Flash.writeArea (f : Flash) (d : Nat) (l : List (List (BitVec 8))) (n : Nat) : Flash :=
  let (lo, hi) := imageArea d
  let imgs := l.flatten
  let f := ((f.erase (0x1000 * d) 0x1000).erase lo (hi - lo)).program lo (imgs.take n)
  f.program (0x1000 * d) ((bundleDirectory l lo).take (n - imgs.length))

/-- The keeper checks and programs a vendor bundle: area and directory B, then A (R578). -/
def State.vendorUpdate (s : State) (run : FlashRun) : State :=
  match s.pwr.bundle with
  | none => s
  | some b =>
    let s := s.updPwr fun p => { p with bundle := none }
    let fails (s : State) (c : Nat) : State := (s.put BOT_STORE_ERR.code c).err BOT_ERR.store_fail
    let c := bundleCode b
    if c ≠ 0 then fails s c
    else
      let l := (bundleImages b.length b).getD []
      let half := b.length + 4096
      let n := landed run (2 * half)
      let f := s.flash.writeArea 1 l n
      let s : State := { s with flash := if n < half then f else f.writeArea 0 l (n - half) }
      match run with
      | .done => s.put BOT_STORE_ERR.code 0
      | .failed _ => (fails s 5).err BOT_ERR.flash_fail

end Sys2Proof.Machine
end

