-- ==== Sys2Proof/Machine/RowsArray.lean ====
section
/-! DEFINITION. The commands of the islands and of the sequencer's program flow (06, 07, 08; R150 to R241). -/

namespace Sys2Proof.Machine

/-! ### Islands -/

/-- R162: An island reports arrive after its last microword; the token is sent on time or late and a late barrier is
counted. -/
def execIslandArrive (i : Fin 16) (t : Nat) (late : Bool) (s : State) : Host.Outcome State Fault Refusal :=
  .next (s.live fun s => s.islandArrive i.val t late)

/-- R164: An island not arrived by ARR_BAR_TMO past the edge is sent to FAULT and the token leaves without it. -/
def execBarrierTimeout (i : Fin 16) (s : State) : Host.Outcome State Fault Refusal :=
  .next (s.live fun s => s.barrierTimeout i.val)

/-- R161: An island's measured period exceeds its plan by more than 3 %, setting clk_slow and counting the slot. -/
def execIslandClockSlow (i : Fin 16) (period : Fin 0x100000) (s : State) : Host.Outcome State Fault Refusal :=
  .next (s.live fun s => s.islandClock i.val period.val)

/-- R161: An island clock generator loses lock, sending an executing island to FAULT at once or halting clearing. -/
def execIslandClockUnlock (i : Fin 16) (s : State) : Host.Outcome State Fault Refusal :=
  .next (s.live fun s => s.clockUnlock i.val)

/-- R161: The clock of a clearing island locks again and the clearing restarts from plane 0. -/
def execIslandClockRelock (i : Fin 16) (s : State) : Host.Outcome State Fault Refusal :=
  .next (s.live fun s => s.clockRelock i.val)

/-- R169: An island finishes clearing its 4,096 planes and registers and enters QUARANTINE. -/
def execClearingComplete (i : Fin 16) (s : State) : Host.Outcome State Fault Refusal :=
  .next (s.live fun s => s.clearingComplete i.val)

/-- R168: A write of ARR_ISL_CMD.off sends the island to OFF at the next token. -/
def execIslandOff (i : Fin 16) (s : State) : Host.Outcome State Fault Refusal :=
  .next (s.live fun s => s.islCmd i.val 1)

/-- R168: A write of ARR_ISL_CMD.on sends an island in OFF or FAULT to CLEARING, unless Tarnish has retired it. -/
def execIslandOn (i : Fin 16) (s : State) : Host.Outcome State Fault Refusal :=
  .next (s.live fun s => s.islCmd i.val 2)

/-- R168: A write of ARR_ISL_CMD.quarantine returns an island in WARM or SERVICE to QUARANTINE. -/
def execIslandQuarantine (i : Fin 16) (s : State) : Host.Outcome State Fault Refusal :=
  .next (s.live fun s => s.islCmd i.val 4)

/-- R166: A write of ARR_ISL_CMD.apply_map sends the island to CLEARING with the written column map, or installs it at
the next clearing from OFF. -/
def execApplyMap (i : Fin 16) (s : State) : Host.Outcome State Fault Refusal :=
  .next (s.live fun s => s.islCmd i.val 8)

/-- R165: A write to ARR_ISL_MAP is accepted only with four distinct columns up to 131. -/
def execIslandMapWrite (i : Fin 16) (mask value : BitVec 32) (s : State) : Host.Outcome State Fault Refusal :=
  .next (s.live fun s => s.writeIslMap i.val mask.toNat value.toNat)

/-- R156, R297: A write to ARR_EDGE or ARR_WHALO_n is checked and takes effect at the next barrier. -/
def execEdgeConfigWrite (whalo : Option (Fin 8)) (mask value : BitVec 32)
    (s : State) : Host.Outcome State Fault Refusal :=
  .next (s.live fun s => match whalo with
    | none => s.writeEdge mask.toNat value.toNat
    | some n => s.writeWhaloChecked n.val mask.toNat value.toNat)

/-- R171: A write of 1 to ARR_CMD.epoch_bump increases ARR_EPOCH at the next barrier. -/
def execEpochBump (s : State) : Host.Outcome State Fault Refusal := .next (s.live fun s => s.bumpEpoch)

/-- R172: A write of 1 to ARR_ISL_RELOAD_CTRL.start arms the island reload engine and invalidates the island epoch, or
is refused. -/
def execReloadStart (i : Fin 16) (s : State) : Host.Outcome State Fault Refusal :=
  .next (s.live fun s => s.reloadStart i.val)

/-- R173: The reload writes its last plane, sets the island epoch to E, marks it valid and sets done. -/
def execReloadComplete (i : Fin 16) (ecc : EccMap) (s : State) : Host.Outcome State Fault Refusal :=
  .next (s.live fun s => s.reloadComplete i.val ecc)

/-- R173: An error response while fetching the reload source ends the reload with the epoch invalid. -/
def execReloadFetchError (i : Fin 16) (s : State) : Host.Outcome State Fault Refusal :=
  .next (s.live fun s => s.reloadFetchError i.val)

/-- R174: A write of 1 to ARR_ISL_RELOAD_CTRL.abort stops the reload before its last plane or is too late. -/
def execReloadAbort (i : Fin 16) (s : State) : Host.Outcome State Fault Refusal :=
  .next (s.live fun s => s.reloadAbort i.val)

/-- R175: Resident firmware arms the reload of an island entering CLEARING or quarantined with an invalid epoch, and
re-arms when the epoch moves on. -/
def execAutoReload (i : Fin 16) (s : State) : Host.Outcome State Fault Refusal :=
  .next (s.live fun s => s.autoReload i.val)

/-! ### Microwords -/

/-- Flow and scalar commands act on the context of what the sequencer issues now; with nothing to issue they change nothing. -/
def State.issuing (s : State) (f : State → State) : State := s.live fun s => if s.canIssue then f s else s

/-- R183: The sequencer issues one microword: wait, addresses, array operation, Beacon request, condition, scalar and
flow in order. -/
def execMicrowordIssue (halo queue : List (Fin 16 × Nat)) (s : State) : Host.Outcome State Fault Refusal :=
  .next (s.live fun s => s.microwordIssue.addStalls halo queue)

/-- R188: A waiting microword is released on its condition, consuming a timer or detector event and clearing TO. -/
def execWaitRelease (cycles : Fin 4096) (halo queue : List (Fin 16 × Nat)) (s : State) : Host.Outcome State Fault Refusal :=
  .next (s.live fun s => (s.waitRelease cycles.val).addStalls halo queue)

/-- R188: A wait reaches its declared timeout and is released, setting TO and counting the timeout. -/
def execWaitTimeout (halo queue : List (Fin 16 × Nat)) (s : State) : Host.Outcome State Fault Refusal :=
  .next (s.live fun s => s.waitTimeout.addStalls halo queue)

/-- R189: Flow continues at the next word. -/
def execSeqNext (s : State) : Host.Outcome State Fault Refusal := .next (s.issuing fun s => s.updCtx Ctx.next)

/-- R189: Flow continues at target. -/
def execJump (target : Fin 16384) (s : State) : Host.Outcome State Fault Refusal :=
  .next (s.issuing fun s => s.updCtx fun c => c.goto target.val)

/-- R189: Flow jumps when cond holds, consuming a tested timer or detector event. -/
def execJif (cond : Fin 64) (target : Fin 16384) (s : State) : Host.Outcome State Fault Refusal :=
  .next (s.issuing fun s => s.flowIf cond.val target.val true)

/-- R189: Flow jumps when cond does not hold, consuming a tested timer or detector event. -/
def execJifn (cond : Fin 64) (target : Fin 16384) (s : State) : Host.Outcome State Fault Refusal :=
  .next (s.issuing fun s => s.flowIf cond.val target.val false)

/-- R192: A microword CALL pushes the next address and jumps to target. -/
def execSeqCall (target : Fin 16384) (s : State) : Host.Outcome State Fault Refusal :=
  .next (s.issuing fun s => s.updCtx fun c => c.call target.val)

/-- R195: A primitive call loads the call arguments and widths, pushes the return address and jumps. -/
def execPcall (a b w : Fin 4096) (bsrc : Fin 8) (src : Fin 16) (imm : BitVec 16) (target : Fin 16384)
    (s : State) : Host.Outcome State Fault Refusal :=
  .next (s.issuing fun s => s.pcall a.val b.val w.val bsrc.val src.val imm.toNat target.val)

/-- R192: A microword RET pops the return address and continues there. -/
def execSeqRet (s : State) : Host.Outcome State Fault Refusal := .next (s.issuing fun s => s.updCtx Ctx.ret)

/-- R191: LOOP increments LI and jumps while LI + 1 is below the limit, else resets LI; a taken LOOP is a background
preemption point. -/
def execLoop (lc : Fin 8) (target : Fin 16384) (s : State) : Host.Outcome State Fault Refusal :=
  .next (s.issuing fun s => s.flowLoop lc.val target.val)

/-- R215: STAGE_END ends the stage's foreground; the next stage or background starts in the following cycle. -/
def execStageEnd (s : State) : Host.Outcome State Fault Refusal := .next (s.issuing fun s => s.stageEnd)

/-- R218: YIELD marks a background preemption point at which the pass continues or is suspended. -/
def execYield (s : State) : Host.Outcome State Fault Refusal := .next (s.issuing fun s => s.yieldPoint)

/-- R222: BG_END ends a background pass, counts it and restarts at bg_entry. -/
def execBgEnd (s : State) : Host.Outcome State Fault Refusal := .next (s.issuing fun s => s.bgEnd)

/-- R194: Scalar no-operation. -/
def execScNop (s : State) : Host.Outcome State Fault Refusal := .next (s.issuing fun s => s.scalar 0 0 0 0)

/-- R194: Loads a zero-extended immediate into S[d]. -/
def execLdi (d : Fin 16) (imm : BitVec 16) (s : State) : Host.Outcome State Fault Refusal :=
  .next (s.issuing fun s => s.scalar 1 d.val 0 imm.toNat)

/-- R194: Loads the immediate into the high half of S[d]. -/
def execLdih (d : Fin 16) (imm : BitVec 16) (s : State) : Host.Outcome State Fault Refusal :=
  .next (s.issuing fun s => s.scalar 2 d.val 0 imm.toNat)

/-- R194: S[d] = S[s] + sign-extended immediate. -/
def execScAddi (d src : Fin 16) (imm : BitVec 16) (s : State) : Host.Outcome State Fault Refusal :=
  .next (s.issuing fun s => s.scalar 3 d.val src.val imm.toNat)

/-- R194: S[d] = S[s]. -/
def execMov (d src : Fin 16) (s : State) : Host.Outcome State Fault Refusal :=
  .next (s.issuing fun s => s.scalar 4 d.val src.val 0)

/-- R194: S[d] = S[s] − S[imm[3:0]]. -/
def execSubr (d src : Fin 16) (imm : BitVec 16) (s : State) : Host.Outcome State Fault Refusal :=
  .next (s.issuing fun s => s.scalar 5 d.val src.val imm.toNat)

/-- R194: S[d] = S[s] AND zero-extended immediate. -/
def execScAndi (d src : Fin 16) (imm : BitVec 16) (s : State) : Host.Outcome State Fault Refusal :=
  .next (s.issuing fun s => s.scalar 6 d.val src.val imm.toNat)

/-- R194: Loads the responder count of a Beacon register into S[d]. -/
def execBcnt (d src : Fin 16) (s : State) : Host.Outcome State Fault Refusal :=
  .next (s.issuing fun s => s.scalar 7 d.val src.val 0)

/-- R194: Loads the first-responder index of a Beacon register into S[d]. -/
def execBfirst (d src : Fin 16) (s : State) : Host.Outcome State Fault Refusal :=
  .next (s.issuing fun s => s.scalar 8 d.val src.val 0)

/-- R194: Sets a loop counter limit from the immediate and LI to 0. -/
def execLci (d : Fin 16) (imm : BitVec 16) (s : State) : Host.Outcome State Fault Refusal :=
  .next (s.issuing fun s => s.scalar 9 d.val 0 imm.toNat)

/-- R194: Sets a loop counter limit from WN or WM plus the immediate, clamped, and LI to 0. -/
def execLcw (d src : Fin 16) (imm : BitVec 16) (s : State) : Host.Outcome State Fault Refusal :=
  .next (s.issuing fun s => s.scalar 10 d.val src.val imm.toNat)

/-- R194: Sets Z and N from S[s] − S[imm[3:0]] without writing. -/
def execCmp (src : Fin 16) (imm : BitVec 16) (s : State) : Host.Outcome State Fault Refusal :=
  .next (s.issuing fun s => s.scalar 11 0 src.val imm.toNat)

/-! ### The sequencer -/

/-- R209: A sequencer timer ticks from 1 to 0, sets expired and reloads or stops. -/
def execSeqTimerExpiry (t : Fin 8) (s : State) : Host.Outcome State Fault Refusal :=
  .next (s.live fun s => s.timerExpiry t.val)

/-- R210: A write of SEQ_TMR_STAT.start sets the timer running. -/
def execSeqTimerStart (t : Fin 8) (s : State) : Host.Outcome State Fault Refusal :=
  .next (s.live fun s => s.timerCmd t.val 4)

/-- R210: A write of SEQ_TMR_STAT.stop clears the running bit. -/
def execSeqTimerStop (t : Fin 8) (s : State) : Host.Outcome State Fault Refusal :=
  .next (s.live fun s => s.timerCmd t.val 2)

/-- R210: A write of SEQ_TMR_STAT.load loads the count from reload, losing a same-cycle tick. -/
def execSeqTimerLoad (t : Fin 8) (s : State) : Host.Outcome State Fault Refusal :=
  .next (s.live fun s => s.timerCmd t.val 1)

/-- R222: A write of 1 to SEQ_BG_CTRL.abort discards the pass before BG_END and restarts at bg_entry, or is too late.
-/
def execBgAbort (s : State) : Host.Outcome State Fault Refusal := .next (s.live fun s => s.bgAbort)

/-- R224: A control-store check finds an error: a single bit is corrected, a double bit faults the sequencer or
empties the Umbra half. -/
def execCstoreEccError (word : Fin 16384) (double : Bool) (s : State) : Host.Outcome State Fault Refusal :=
  .next (s.live fun s => s.cstoreError word.val double)

/-- R228: A write of 1 to SEQ_CMD.load fetches an image into the Umbra half, or is refused. -/
def execProgramLoad (s : State) : Host.Outcome State Fault Refusal := .next (s.live fun s => s.programLoad)

/-- R229: The loader finishes its checks and the Umbra half becomes CHECKED or EMPTY with load_err. -/
def execProgramLoadDone (s : State) : Host.Outcome State Fault Refusal := .next (s.live fun s => s.loadDone)

/-- R228: A write of 1 to SEQ_CMD.load_abort ends the load before its checks end, or is too late. -/
def execLoadAbort (s : State) : Host.Outcome State Fault Refusal := .next (s.live fun s => s.loadAbort)

/-- R232: A write of 1 to SEQ_CMD.exchange arms the exchange at a penumbra slot, or is refused. -/
def execExchangeArm (s : State) : Host.Outcome State Fault Refusal := .next (s.live fun s => s.exchangeArm)

/-- R231: A write of 1 to SEQ_CMD.exchange_cancel returns an ARMED half to ADMITTED, or is too late. -/
def execExchangeCancel (s : State) : Host.Outcome State Fault Refusal :=
  .next (s.live fun s => s.exchangeCancel)

/-- R233: At the penumbra barrier the armed half becomes Active, the old half drains, background resets and records
apply. -/
def execPenumbraExchange (s : State) : Host.Outcome State Fault Refusal :=
  .next (s.live fun s => s.penumbra.openIfReady)

/-- R252: A write to SEQ_PROMISE_NS sets the pending promise or is refused below the Active bound. -/
def execPromiseWrite (mask value : BitVec 32) (s : State) : Host.Outcome State Fault Refusal :=
  .next (s.live fun s => s.writePromise mask.toNat value.toNat)

/-- R237: A write of 1 to SEQ_CS_CTRL.arm arms a commit set for its barrier, or is refused. -/
def execCommitSetArm (n : Fin 4) (s : State) : Host.Outcome State Fault Refusal :=
  .next (s.live fun s => s.csArm n.val)

/-- R238: A write of 1 to SEQ_CS_CTRL.abort disarms the set before its barrier, or is too late. -/
def execCommitSetAbort (n : Fin 4) (s : State) : Host.Outcome State Fault Refusal :=
  .next (s.live fun s => s.csAbort n.val)

/-- R240: A write of 1 to SEQ_CS_CTRL.clear clears every entry's valid bit unless armed. -/
def execCommitSetClear (n : Fin 4) (s : State) : Host.Outcome State Fault Refusal :=
  .next (s.live fun s => s.csClear n.val)

/-- R237: At its barrier an armed set writes its entries into the scalar registers and returns to open. -/
def execCommitSetFire (n : Fin 4) (s : State) : Host.Outcome State Fault Refusal :=
  .next (s.live fun s => (s.csFire n.val).openIfReady)

/-- R249: A write of 1 to SEQ_ADM_CMD.rerun starts an admission of the Active and Umbra programs. -/
def execAdmissionRerun (s : State) : Host.Outcome State Fault Refusal :=
  .next (s.live fun s => s.startAdmission s.hasActive s.umbraReady)

/-- R253: An admission run completes, publishes bounds and admits, rejects, refuses a plan or holds the Active
program. -/
def execAdmissionComplete (s : State) : Host.Outcome State Fault Refusal :=
  .next (s.live fun s => s.admissionComplete.tarAdmission)

/-- R250: An admitted margin plan applies at the first slot barrier after its admissions complete. -/
def execMarginPlanApply (s : State) : Host.Outcome State Fault Refusal :=
  .next (s.live fun s => if s.isDue .plan then ((s.tookDue .plan).tarApply).openIfReady else s)

/-! ### Beacon and Glint -/

/-- R262: A Beacon result lands in its BR register, at the Glint stage and in the external queues. -/
def execBeaconSettle (removed : BitVec 16) (s : State) : Host.Outcome State Fault Refusal :=
  .next (s.live fun s => s.beaconSettle removed.toNat)

/-- R256: A decision result that lands after its launch instant is discarded and counted. -/
def execLateDecision (removed : BitVec 16) (s : State) : Host.Outcome State Fault Refusal :=
  .next (s.live fun s => s.lateDecision removed.toNat)

/-- R270: At release minus 2.25 ns the Glint stage combines landed decisions and launches every output level. -/
def execLaunchInstant (s : State) : Host.Outcome State Fault Refusal :=
  .next (s.live fun s => s.launch.takeRecord)

/-- R272: A pulse-mode output returns to inactive after its width expires. -/
def execGlintPulseEnd (n : Fin 16) (s : State) : Host.Outcome State Fault Refusal :=
  .next (s.live fun s => s.pulseEnd n.val)

/-- R278: At each slot boundary the BUSY sources are evaluated and a change reaches BUSY_P/N one boundary later. -/
def execBusyEvaluate (s : State) : Host.Outcome State Fault Refusal :=
  .next (s.live fun s => s.busyEvaluate s.throttle)

/-- R278: The minimum assertion time of BUSY runs out. -/
def execBusyMinExpiry (s : State) : Host.Outcome State Fault Refusal := .next (s.live fun s => s.busyExpiry)

end Sys2Proof.Machine
end

