-- ==== Sys2Proof/Machine/RowsEdge.lean ====
section
/-! DEFINITION. The commands of the front lanes, the edge fabric and Prism (03, 04, 05; R45 to R149). -/

namespace Sys2Proof.Machine

/-! ### Front lanes -/

/-- R51: A write to FLN_CTRL enables, disables or resets a lane's receive side and sets polarity. -/
def execLaneCtrlWrite (n : Fin 224) (mask value : BitVec 32) (s : State) : Host.Outcome State Fault Refusal :=
  .next (s.live fun s => s.writeLaneCtrl n.val mask.toNat value.toNat)

/-- R51: The receive PLL locks with REFCLK present and the lane enters SIGNAL_WAIT. -/
def execLanePllLock (n : Fin 224) (s : State) : Host.Outcome State Fault Refusal :=
  .next (s.live fun s => s.lanePllLock n.val)

/-- R51: Signal detect held for 1 µs moves the lane to LOCKING. -/
def execSignalDetect (n : Fin 224) (s : State) : Host.Outcome State Fault Refusal :=
  .next (s.live fun s => s.signalDetect n.val)

/-- R51: CDR lock and adaptation complete and the lane enters READY. -/
def execLaneLockDone (n : Fin 224) (ctle : Fin 32) (dfe1 : Fin 64) (s : State) : Host.Outcome State Fault Refusal :=
  .next (s.live fun s => s.laneLockDone n.val ctle.val dfe1.val)

/-- R51: Ten ms in LOCKING return the lane to RESET. -/
def execLockTimeout (n : Fin 224) (s : State) : Host.Outcome State Fault Refusal :=
  .next (s.live fun s => s.lockTimeout n.val)

/-- R51: Signal detect lost for 64 word periods returns a READY lane to SIGNAL_WAIT. -/
def execSignalLost (n : Fin 224) (s : State) : Host.Outcome State Fault Refusal :=
  .next (s.live fun s => s.signalLost n.val)

/-- R51: CDR lock lost returns a READY lane to LOCKING. -/
def execCdrLost (n : Fin 224) (s : State) : Host.Outcome State Fault Refusal :=
  .next (s.live fun s => s.cdrLost n.val)

/-- R53: A write of 1 to FLN_RX_EQ.adapt_restart restarts equaliser adaptation without leaving READY. -/
def execAdaptRestart (n : Fin 224) (s : State) : Host.Outcome State Fault Refusal :=
  .next (s.live fun s => s.adaptRestart n.val)

/-- R54: A write to FLN_TX_FFE is clamped to the coefficient limits. -/
def execTxFfeWrite (n : Fin 224) (mask value : BitVec 32) (s : State) : Host.Outcome State Fault Refusal :=
  .next (s.live fun s => s.writeTxFfe n.val mask.toNat value.toNat)

/-- R57: A write of 1 to FLN_EYE_CTRL.start begins an eye scan in READY, or is refused. -/
def execEyeScanStart (n : Fin 224) (s : State) : Host.Outcome State Fault Refusal :=
  .next (s.live fun s => s.eyeStart n.val)

/-- R57: An eye scan ends and writes height and width, or ends invalid when the lane leaves READY. -/
def execEyeScanDone (lane : EyeLane) (height : Fin 65536) (width : Fin 256)
    (s : State) : Host.Outcome State Fault Refusal :=
  .next (s.live fun s => s.scanDone lane.key height.val width.val)

/-- R63: An uplink identity frame updates the lane identity registers and is forwarded to the ledger. -/
def execIdentityRecord (n : Fin 224) (s : State) : Host.Outcome State Fault Refusal :=
  .next (s.live fun s => s.slowFrame n.val (· == 1))

/-- R65: An uplink telemetry frame is forwarded to the ledger or dropped. -/
def execTelemetryRecord (n : Fin 224) (s : State) : Host.Outcome State Fault Refusal :=
  .next (s.live fun s => s.slowFrame n.val (· == 2))

/-- R61: An uplink setpoint acknowledgement is copied to FLN_SC_ACK. -/
def execSetpointAcknowledgement (n : Fin 224) (s : State) : Host.Outcome State Fault Refusal :=
  .next (s.live fun s => s.slowFrame n.val (· == 3))

/-- R66: An uplink user frame is placed in FLN_SC_RX_BUF or refused when full. -/
def execUserFrame (n : Fin 224) (s : State) : Host.Outcome State Fault Refusal :=
  .next (s.live fun s => s.slowFrame n.val fun t => decide (0x10 ≤ t) && decide (t ≤ 0x7F))

/-- R63: FLN_ID_AGE reaches the timeout; module_present clears and the absence goes to the ledger. -/
def execIdentityTimeout (n : Fin 224) (s : State) : Host.Outcome State Fault Refusal :=
  .next (s.live fun s => s.identityTimeout n.val)

/-- R73: A write of 1 to FLN_SC_TX_CTRL.send holds a downlink slow frame, or is refused. -/
def execScTxSend (n : Fin 224) (s : State) : Host.Outcome State Fault Refusal :=
  .next (s.live fun s => s.slowSend n.val)

/-- R73: A write of 1 to FLN_SC_TX_CTRL.abort drops the frame before its first word, or is too late. -/
def execScTxAbort (n : Fin 224) (s : State) : Host.Outcome State Fault Refusal :=
  .next (s.live fun s => s.slowAbort n.val)

/-- R67: A lane's downlink slot begins with the fast-command word, the data window and the slow window. -/
def execDownlinkSlot (n : Fin 224) (extra : Bool) (s : State) : Host.Outcome State Fault Refusal :=
  .next (s.live fun s => s.downlinkSlot n.val extra)

/-- R68: A write to FLN_DL_WIN or FLN_DL_CTRL is refused when windows exceed W_min, else applies after the next
barrier. -/
def execDlWindowWrite (n : Fin 224) (window : Bool) (mask value : BitVec 32)
    (s : State) : Host.Outcome State Fault Refusal :=
  .next (s.live fun s => s.writeDl n.val (if window then 0x24 else 0x20) mask.toNat value.toNat)

/-- R86: A lane block crosses the receive FIFO into its facet, or is dropped when the FIFO is full. -/
def execBlockArrival (n : Fin 224) (word : BitVec 64) (s : State) : Host.Outcome State Fault Refusal :=
  .next (s.live fun s => s.laneWord n.val word.toNat)

/-- R621: A REFCLK input is lost or returns, and its bit in FLN_REFCLK_STATUS changes within 10 µs. -/
def execRefclkPresenceChange (k : Fin 8) (present : Bool) (s : State) : Host.Outcome State Fault Refusal :=
  .next (s.live fun s => s.refclkPresence k.val present)

/-! ### The edge fabric -/

/-- R93: In each facet cycle the macrocells, block memories, edge detectors, sinks and payload packer act. -/
def execFacetLogicCycle (f : Fin 57) (pins : BitVec 96) (us : Bool) (late : BitVec 288) (strobe : Bool)
    (s : State) : Host.Outcome State Fault Refusal :=
  .next (s.live fun s => s.facetCycle f.val pins.toNat us late.toNat strobe)

/-- R99: A facet timer ticks from 1 to 0, pulses its expiry and reloads or stops. -/
def execFacetTimerExpiry (f : Fin 57) (t : Fin 16) (s : State) : Host.Outcome State Fault Refusal :=
  .next (s.live fun s => s.facetTimerExpiry f.val t.val)

/-- R89: A lane's transmit path overlays, inserts CRC and scrambles one scheduler word. -/
def execTxWord (n : Fin 224) (s : State) : Host.Outcome State Fault Refusal :=
  .next (s.live fun s => s.txWord n.val)

/-- R110: A write of 1 to EDG_CFG_CMD.load fetches an image into the shadow plane, or is refused. -/
def execFacetLoad (f : Fin 57) (s : State) : Host.Outcome State Fault Refusal :=
  .next (s.live fun s => s.facetLoad f.val)

/-- R107: A facet image load ends its checks and the shadow plane becomes READY or EMPTY with load_err. -/
def execFacetLoadDone (f : Fin 57) (s : State) : Host.Outcome State Fault Refusal :=
  .next (s.live fun s => s.facetLoadDone f.val)

/-- R111: A write of 1 to EDG_CFG_CMD.activate arms the plane exchange, or switches at once outside RUN, or is
refused. -/
def execFacetActivate (f : Fin 57) (s : State) : Host.Outcome State Fault Refusal :=
  .next (s.live fun s => s.facetActivate f.val)

/-- R114: A write of 1 to EDG_CFG_CMD.abort cancels the activation and empties the shadow plane, or is too late. -/
def execFacetAbort (f : Fin 57) (s : State) : Host.Outcome State Fault Refusal :=
  .next (s.live fun s => s.facetAbort f.val)

/-- R109: A write of 1 to EDG_CFG_CMD.halt freezes a running facet at the next facet cycle. -/
def execFacetHalt (f : Fin 57) (s : State) : Host.Outcome State Fault Refusal :=
  .next (s.live fun s => s.facetHalt f.val)

/-- R109: A write of 1 to EDG_CFG_CMD.resume returns a halted facet to RUN at the next barrier. -/
def execFacetResume (f : Fin 57) (s : State) : Host.Outcome State Fault Refusal :=
  .next (s.live fun s => s.facetResume f.val)

/-- R116: A write of 1 to EDG_CFG_CMD.capture copies registers, timers, detectors and aligners into the capture
buffer. -/
def execFacetCapture (f : Fin 57) (s : State) : Host.Outcome State Fault Refusal :=
  .next (s.live fun s => s.facetCapture f.val)

/-- R112: At the activation barrier the facet enters SWITCH and begins the plane exchange. -/
def execFacetSwitchEntry (f : Fin 57) (s : State) : Host.Outcome State Fault Refusal :=
  .next (s.live fun s => (s.facetSwitchEntry f.val).openIfReady)

/-- R112: The plane exchange completes and the facet reaches RUN at the next barrier. -/
def execFacetSwitchComplete (f : Fin 57) (s : State) : Host.Outcome State Fault Refusal :=
  .next (s.live fun s => s.switchComplete f.val)

/-- R115: The configuration scrub corrects a single-bit error or faults the facet or empties the shadow on a double
bit. -/
def execFacetConfigScrub (f : Fin 57) (shadow double : Bool) (s : State) : Host.Outcome State Fault Refusal :=
  .next (s.live fun s => s.facetScrub f.val shadow double)

/-- R116: A read of EDG_RB_DATA returns the selected readback word or is refused in the wrong state. -/
def execFacetReadbackRead (ini : Fin 41) (f : Fin 57) (s : State) : Host.Outcome State Fault Refusal :=
  .next (s.regRead ini.val 3 (0x200 * f.val + 0x38) 4)

/-- R118: A write to GPI_PIN sets a pin's standard, or leaves it an input with a standard conflict. -/
def execGpiPinWrite (n : Fin 96) (mask value : BitVec 32) (s : State) : Host.Outcome State Fault Refusal :=
  .next (s.live fun s => s.writePin n.val mask.toNat value.toNat)

/-- R121: A GPIO bank supply changes and vddio_change is set. -/
def execVddioChange (k : Fin 4) (code : Fin 5) (s : State) : Host.Outcome State Fault Refusal :=
  .next (s.live fun s => s.vddioChange k.val code.val)

/-! ### Prism -/

/-- R128: Prism receives a lane word and sorts it into a contribution, or as late or stray. -/
def execPrismWord (n : Fin 224) (t : Nat) (s : State) : Host.Outcome State Fault Refusal :=
  .next (s.live fun s => s.prismWord n.val t)

/-- R130: At a crossing's commit deadline Prism settles each lane's outcome and writes the planes into the hidden
intake banks. -/
def execCommitDeadline (t : Nat) (s : State) : Host.Outcome State Fault Refusal :=
  .next (s.live fun s => s.commitDeadline t)

/-- R133: A write of 1 to PRI_CMD.apply checks the pending copy and arms its commit, or is refused. -/
def execPrismApply (s : State) : Host.Outcome State Fault Refusal := .next (s.live fun s => s.prismApply)

/-- R133: A write of 1 to PRI_CMD.abort discards the arming before its barrier, or is too late. -/
def execPrismAbort (s : State) : Host.Outcome State Fault Refusal := .next (s.live fun s => s.prismAbort)

/-- R145: A write of 1 to PRI_CMD.slack_reset sets every lane's minimum slack to 0xFFFF. -/
def execSlackReset (s : State) : Host.Outcome State Fault Refusal := .next (s.live fun s => s.slackReset)

/-- R134: At barrier B Prism empties the alignment buffers, commits gap crossings and switches configuration. -/
def execPrismApplyCommit (s : State) : Host.Outcome State Fault Refusal :=
  .next (s.live fun s => s.prismApplyCommit.openIfReady)

/-- R142: A side-port piece joins or opens a queue entry, or is held when the queue is full. -/
def execSidePortRequest (write : Bool) (addr : Fin 0x10000000000) (len : Fin 257) (ini : Fin 41) (tag : Fin 64) (data : List (BitVec 8))
    (s : State) : Host.Outcome State Fault Refusal :=
  .next (s.live fun s => s.sideAsk write addr.val len.val ini.val tag.val data)

/-- R142: At a barrier Prism performs up to three queued plane accesses after the bank exchanges. -/
def execSidePortPerform (s : State) : Host.Outcome State Fault Refusal :=
  .next (s.live fun s => s.sidePortPerform.tablesWritten)

end Sys2Proof.Machine
end

