-- ==== Sys2Proof/Machine/RowsLinks.lean ====
section
/-! DEFINITION. The commands of Worga, of the HBM controllers and of the readout engine (11, 12; R283 to R348). -/

namespace Sys2Proof.Machine

/-! ### Worga -/

/-- R292: A write to WOR_LINK_CFG or WOR_BLN_CFG enables a link or takes it DOWN on a change, or is refused. -/
def execLinkConfigWrite (l : LinkId) (mask value : BitVec 32) (s : State) : Host.Outcome State Fault Refusal :=
  .next (s.live fun s => s.writeLinkCfg l mask.toNat value.toNat)

/-- R292: A Worga lane loses lock or codeword alignment and its link goes DOWN. -/
def execLinkLaneLoss (l : LinkId) (s : State) : Host.Outcome State Fault Refusal :=
  .next (s.live fun s => s.linkLaneLoss l)

/-- R292: All lanes of a link align within the skew limit and the link enters IDENT. -/
def execLinkTrained (l : LinkId) (s : State) : Host.Outcome State Fault Refusal :=
  .next (s.live fun s => s.linkTrained l)

/-- R292: Ten ms in TRAINING return the link to DOWN. -/
def execLinkTrainTimeout (l : LinkId) (s : State) : Host.Outcome State Fault Refusal :=
  .next (s.live fun s => s.linkTrainTimeout l)

/-- R292: A received IDENT word is checked; eight valid ones reach MATCHING and a change returns to IDENT. -/
def execIdent (l : LinkId) (word : BitVec 64) (s : State) : Host.Outcome State Fault Refusal :=
  .next (s.live fun s => s.linkIdent l word.toNat)

/-- R293: A received SLOT marker is matched against local slots; 64 matched markers enter SERVICE. -/
def execSlot (l : LinkId) (word : BitVec 64) (t : Nat) (s : State) : Host.Outcome State Fault Refusal :=
  .next (s.live fun s => s.slotMarker l word.toNat t)

/-- R292: Four missing or unmatched markers, a lost local timeline or a discontinuity return SERVICE to MATCHING. -/
def execMarkerLoss (l : LinkId) (s : State) : Host.Outcome State Fault Refusal :=
  .next (s.live fun s => s.markerMiss l)

/-- R296: A link slot sends its SLOT marker, IDENT, halo frame, stream frames and bulk frames. -/
def execLinkSlot (l : LinkId) (extra : Bool) (s : State) : Host.Outcome State Fault Refusal :=
  .next (s.live fun s => s.linkSlot l extra)

/-- R305: A received halo frame stores its planes or holds them for delay d, or is discarded as late. -/
def execHaloFrame (j : Fin 12) (payload : List (BitVec 64)) (s : State) : Host.Outcome State Fault Refusal :=
  .next (s.live fun s => s.haloFrame j (payload.map BitVec.toNat))

/-- R288: A received SOF-to-EOF frame is checked by CRC and length and landed or forwarded. -/
def execWorgaFrame (j : Fin 12) (words : List (Fin 4 × Bool × BitVec 64)) (room : Bool)
    (s : State) : Host.Outcome State Fault Refusal :=
  .next (s.live fun s => s.frameIn j (words.map fun w => (w.1.val, w.2.1, w.2.2.toNat)) room)

/-- R300: A write of 1 to WOR_TX_CMD.send queues a firmware frame with a tag, or is refused. -/
def execWorgaTxSend (s : State) : Host.Outcome State Fault Refusal := .next (s.live fun s => s.txSend)

/-- R300: A write of 1 to WOR_TX_CMD.abort removes a tagged frame before its first fragment, or is too late. -/
def execWorgaTxAbort (tag : Fin 256) (s : State) : Host.Outcome State Fault Refusal :=
  .next (s.live fun s => s.txAbort tag.val)

/-- R295: A write of 1 to WOR_CMD.epoch_apply arms the system epoch for its barrier, or is refused. -/
def execEpochApply (s : State) : Host.Outcome State Fault Refusal := .next (s.live fun s => s.epochApply)

/-- R295: A write of 1 to WOR_CMD.epoch_abort disarms the epoch apply, or is too late. -/
def execEpochAbort (s : State) : Host.Outcome State Fault Refusal := .next (s.live fun s => s.epochAbort)

/-- R295: At its barrier the pending system epoch comes into force. -/
def execEpochFire (s : State) : Host.Outcome State Fault Refusal :=
  .next (s.live fun s => s.epochFire.openIfReady)

/-- R307: A write to WOR_BCN_CTRL or WOR_BCN_CHILD is refused when the tree configuration is invalid. -/
def execBeaconTreeConfig (off : Fin 3) (mask value : BitVec 32) (s : State) : Host.Outcome State Fault Refusal :=
  .next (s.live fun s => s.writeTree (0x24 + 4 * off.val) mask.toNat value.toNat)

/-- R309: The engine takes its own Beacon result and opens or fills a key. -/
def execBeaconOwnResult (t : Nat) (s : State) : Host.Outcome State Fault Refusal :=
  .next (s.live fun s => s.ownResult t)

/-- R309: An up cell from a child opens or fills a key, or is dropped as late or excess. -/
def execBeaconCellUp (n : Fin 48) (w0 w1 w2 : BitVec 64) (t : Nat) (s : State) : Host.Outcome State Fault Refusal :=
  .next (s.live fun s => if s.isParent n then s else s.cellIn n w0.toNat w1.toNat w2.toNat t)

/-- R310: A key closes when all inputs arrive or its wait expires, and the combined cell goes up or is delivered at
the root. -/
def execBeaconKeyClose (i : Nat) (t : Nat) (s : State) : Host.Outcome State Fault Refusal :=
  .next (s.live fun s => s.closeKey i t)

/-- R311: A down cell on the parent lane is delivered as the system result and sent to the children. -/
def execBeaconCellDown (n : Fin 48) (w0 w1 w2 : BitVec 64) (t : Nat) (s : State) : Host.Outcome State Fault Refusal :=
  .next (s.live fun s => if s.isParent n then s.cellIn n w0.toNat w1.toNat w2.toNat t else s)

/-- R311: A read of WOR_SYS_RESULT copies the other system-result registers into holding registers. -/
def execSysResultRead (ini : Fin 41) (s : State) : Host.Outcome State Fault Refusal :=
  .next (s.regRead ini.val 8 0x34 4)

/-- R292: Every lane PLL of an enabled data link or beacon lane locks, and the link leaves DOWN for TRAINING. -/
def execWorgaLanePllLock (l : LinkId) (s : State) : Host.Outcome State Fault Refusal :=
  .next (s.live fun s => s.linkPllLock l)

/-- R285: A Worga lane receives the end of an RS(544,514) codeword, checks or corrects it and counts corrected or
uncorrectable codewords. -/
def execWorgaCodeword (l : LinkId) (o : Codeword) (s : State) : Host.Outcome State Fault Refusal :=
  .next (s.live fun s => s.worgaCodeword l o)

/-! ### HBM -/

/-- R320: The HBM controllers store a crossing's hand-off in its ring entry and write its tag, or drop it. -/
def execHbmPipelineWrite (inTime : Bool) (s : State) : Host.Outcome State Fault Refusal :=
  .next (s.live fun s => s.pipelineWrite inTime)

/-- R317: A stack finishes training and tag clearing and enters RUN. -/
def execHbmInitComplete (k : Fin 2) (s : State) : Host.Outcome State Fault Refusal :=
  .next (s.live fun s => s.hbmInitComplete k.val)

/-- R317: A stack fails training or exceeds 5 ms in INIT and enters FAULT. -/
def execHbmInitFail (k : Fin 2) (s : State) : Host.Outcome State Fault Refusal :=
  .next (s.live fun s => s.hbmInitFail k.val)

/-- R317: Parity errors or write-clock loss send a running stack to FAULT. -/
def execHbmFault (k : Fin 2) (s : State) : Host.Outcome State Fault Refusal :=
  .next (s.live fun s => s.hbmFault k.val)

/-- R317: A write of 1 to HBM_CTRL.restart sends each faulted stack to INIT. -/
def execHbmRestart (s : State) : Host.Outcome State Fault Refusal := .next (s.live fun s => s.hbmRestart)

/-- R318: The patrol scrubber reads and corrects the general region. -/
def execHbmPatrolScrub (addr : Fin 0x400000000) (o : Codeword) (s : State) : Host.Outcome State Fault Refusal :=
  .next (s.live fun s => s.patrolScrub addr.val o)

/-- R319: A write to HBM_PIPE_CTRL is refused when the pipeline rate exceeds the reservation, else applies after a
barrier. -/
def execPipeCtrlWrite (mask value : BitVec 32) (s : State) : Host.Outcome State Fault Refusal :=
  .next (s.live fun s => s.writePipeCtrl mask.toNat value.toNat)

/-- R323: A write of 1 to HBM_XFER_CTRL.start begins a one-shot copy to PE planes, or is refused. -/
def execXferStart (t : Fin 4) (ecc : EccMap) (s : State) : Host.Outcome State Fault Refusal :=
  .next (s.live fun s => s.xferStart t.val ecc)

/-- R324: A write of 1 to HBM_XFER_CTRL.abort stops a one-shot copy before its last plane, or is too late. -/
def execXferAbort (t : Fin 4) (s : State) : Host.Outcome State Fault Refusal :=
  .next (s.live fun s => s.xferAbort t.val)

/-! ### Readout -/

/-- R327: The readout engine keeps a Beacon entry or system result for its crossing, or drops it. -/
def execReadoutBeaconEntry (system : Bool) (s : State) : Host.Outcome State Fault Refusal :=
  .next (s.live fun s => if system then s.takeSystem else s.takeBeacon)

/-- R328: An event reaches its ready instant and its gather starts when the previous gather has ended. -/
def execEventReady (t : Nat) (s : State) : Host.Outcome State Fault Refusal :=
  .next (s.live fun s => (s.at t).eventReady)

/-- R329: The engine reads the window's tags and stored bytes and builds the event body. -/
def execEventGather (ecc : EccMap) (s : State) : Host.Outcome State Fault Refusal := .next (s.live fun s => s.eventGather ecc)

/-- R342: An event body is assembled and the finish estimate is lowered to its real size. -/
def execEventAssembled (s : State) : Host.Outcome State Fault Refusal :=
  .next (s.live fun s => s.eventAssembled)

/-- R338: An event frame is sent on the READY port chosen by the frame counter. -/
def execReadoutFrameSend (t : Nat) (s : State) : Host.Outcome State Fault Refusal :=
  .next (s.live fun s => s.readoutFrame t)

/-- R344: A write of 1 to RDO_CMD.apply checks the pending readout configuration and applies it at the next barrier,
or refuses it. -/
def execReadoutApply (s : State) : Host.Outcome State Fault Refusal := .next (s.live fun s => s.rdoApply)

/-- R335: A write to RDO_PORT_CFG enables a port into TRAINING or takes it DOWN. -/
def execPortConfigWrite (k : Fin 16) (mask value : BitVec 32) (s : State) : Host.Outcome State Fault Refusal :=
  .next (s.live fun s => s.writePortCfg k.val mask.toNat value.toNat)

/-- R335: PCS and FEC lock and the port enters UP and sends a gratuitous ARP. -/
def execPortLinkUp (k : Fin 16) (s : State) : Host.Outcome State Fault Refusal :=
  .next (s.live fun s => s.portLinkUp k.val)

/-- R335: The port loses PCS lock and goes DOWN. -/
def execPortPcsLoss (k : Fin 16) (s : State) : Host.Outcome State Fault Refusal :=
  .next (s.live fun s => s.portPcsLoss k.val)

/-- R335: Each second without a known MAC, or each 60 s in READY, the port sends an ARP request. -/
def execArpRequestTimer (k : Fin 16) (s : State) : Host.Outcome State Fault Refusal :=
  .next (s.live fun s => s.arpTimer k.val)

/-- R335: 180 s without an ARP reply returns the port to UP. -/
def execArpTimeout (k : Fin 16) (s : State) : Host.Outcome State Fault Refusal :=
  .next (s.live fun s => s.arpTimeout k.val)

/-- R335: An ARP reply gives the destination MAC and the port enters READY. -/
def execArpReply (k : Fin 16) (ip : BitVec 32) (mac : BitVec 48) (target : BitVec 32)
    (s : State) : Host.Outcome State Fault Refusal :=
  .next (s.live fun s => s.arpReply k.val ip.toNat mac.toNat target.toNat)

/-- R335: An ARP request for the port's address is answered. -/
def execArpRequest (k : Fin 16) (ip : BitVec 32) (mac : BitVec 48) (target : BitVec 32)
    (s : State) : Host.Outcome State Fault Refusal :=
  .next (s.live fun s => s.arpRequest k.val ip.toNat mac.toNat target.toNat)

/-- R335: An ICMP echo request is answered within the rate limit. -/
def execIcmpEchoRequest (k : Fin 16) (t : Nat) (mac : BitVec 48) (ip target : BitVec 32) (rest : List (BitVec 8))
    (s : State) : Host.Outcome State Fault Refusal :=
  .next (s.live fun s => s.icmpEcho k.val t mac.toNat ip.toNat target.toNat rest)

/-- R334: A received frame of any other kind is discarded and counted. -/
def execPortFrameDiscard (k : Fin 16) (bad : Nat) (s : State) : Host.Outcome State Fault Refusal :=
  .next (s.live fun s => s.portOther k.val bad)

end Sys2Proof.Machine
end

