-- ==== Sys2Proof/Machine/LedgerAction.lean ====
section
/-! DEFINITION. The actions of resident firmware on a posted point of the ledger (R547). -/

namespace Sys2Proof.Machine

/-! ### Arithmetic on tables of planes: entry bit i of a channel at PE p is bit p of plane i -/

/-- Adds `delta` to the entries of the PEs in `m`, saturating at all ones. -/
def addPlanes (m delta : Nat) (planes : List Nat) : List Nat :=
  let sum := planes.zipIdx.foldl (fun (acc, c) e =>
    let d := if delta.testBit e.2 then m else 0
    (acc ++ [e.1 ^^^ d ^^^ c], (e.1 &&& d) ||| (c &&& (e.1 ^^^ d)))) (([] : List Nat), 0)
  let ovr := if delta / 2 ^ planes.length = 0 then sum.2 else m
  sum.1.map fun p => p ||| ovr

/-- Takes `delta` off the entries of the PEs in `m`, saturating at 0. -/
def subPlanes (m delta : Nat) (planes : List Nat) : List Nat :=
  let diff := planes.zipIdx.foldl (fun (acc, b) e =>
    let d := if delta.testBit e.2 then m else 0
    (acc ++ [e.1 ^^^ d ^^^ b], ((d ||| b) ^^^ ((d ||| b) &&& e.1)) ||| (d &&& b))) (([] : List Nat), 0)
  let under := if delta / 2 ^ planes.length = 0 then diff.2 else m
  diff.1.map fun p => p ^^^ (p &&& under)

/-- Clears every bit of the entries of the PEs in `m`. -/
def clearPlanes (m : Nat) (planes : List Nat) : List Nat := planes.map fun p => p ^^^ (p &&& m)

/-- Sets every bit of the entries of the PEs in `m`. -/
def fillPlanes (m : Nat) (planes : List Nat) : List Nat := planes.map fun p => p ||| m

/-! ### The channels of a record -/

/-- The PEs of a lane's channels (R125). -/
def State.lanePes (s : State) (n : Nat) : Nat :=
  let m : LaneMap := Sparse.get {} s.pri.work.lanes n
  mapMask m.first m.run m.count

/-- The PEs of the channels of a record's lanes. -/
def State.recordPes (s : State) (r : Nat) : Nat := (s.recLanes r).foldl (fun a n => a ||| s.lanePes n) 0

/-- The record whose raises a lane's channels carry (R547). -/
def State.previousRaises (s : State) (lane : Nat) : Nat :=
  match Sparse.get 0 s.led.prev lane with
  | 0 => 0
  | q + 1 => (s.ledRec q).raises

/-- The action bits of a point (R547). -/
def State.pointActs (s : State) (p : Nat) : Nat := if p = 1 then s.get LED_ACT.warn_act else s.get LED_ACT.eol_act

/-- The points whose actions a point carries out: itself, or at point 3 each point whose done bit is set. -/
def State.pointsApplied (s : State) (r p : Nat) : List Nat :=
  if p = 3 then (if (s.ledRec r).warnDone then [1] else []) ++ (if (s.ledRec r).eolDone then [2] else [])
  else if p = 0 then [] else [p]

/-- The number of threshold raises that a point brings. -/
def State.raisesOf (s : State) (r p : Nat) : Nat := ((s.pointsApplied r p).filter fun q => (s.pointActs q).testBit 1).length

/-- A point masks the record's channels. -/
def State.masks (s : State) (r p : Nat) : Bool := (s.pointsApplied r p).any fun q => (s.pointActs q).testBit 2

/-- What a point does to the threshold table. -/
def State.editThresholds (s : State) (r p : Nat) (planes : List Nat) : List Nat :=
  let delta := s.get LED_THR.thr_delta
  if p = 0 then (s.recLanes r).foldl (fun t n => subPlanes (s.lanePes n) (s.previousRaises n * delta) t) planes
  else (List.range (s.raisesOf r p)).foldl (fun t _ => addPlanes (s.recordPes r) delta t) planes

/-- What a point does to the mask table. -/
def State.editMasks (s : State) (r p : Nat) (planes : List Nat) : List Nat :=
  if p = 0 then clearPlanes (s.recordPes r) planes
  else if s.masks r p then clearPlanes (s.recordPes r) planes
  else if p = 3 then fillPlanes (s.recordPes r) planes
  else planes

/-- A point changes the threshold table, or the mask table. -/
def State.changesThresholds (s : State) (r p : Nat) : Bool := p == 0 || s.raisesOf r p != 0
def State.changesMasks (s : State) (r p : Nat) : Bool := p == 0 || p == 3 || s.masks r p

/-- The tables that a point rewrites, each with its new planes. -/
def State.rewrites (s : State) (r p : Nat) : List (Nat × List Nat) :=
  let thr := s.get LED_THR.thr_table
  let mask := s.get LED_THR.mask_table
  let planes (k : Nat) : List Nat := (List.range (s.table k).planes).map fun i => s.plane (s.tableReg (s.table k) + i)
  let t : Bool := s.changesThresholds r p
  let m : Bool := s.changesMasks r p
  if t && m && thr == mask then [(thr, s.editMasks r p (s.editThresholds r p (planes thr)))]
  else (if t then [(thr, s.editThresholds r p (planes thr))] else []) ++ (if m then [(mask, s.editMasks r p (planes mask))] else [])

/-- The sequence of R512 for a rewritten table, with commit set 0 or 1. -/
def State.rewriteTable (s : State) (k : Nat) (planes : List Nat) : State :=
  let c := s.tableCheck (s.table k) ((s.table k).planes * 16384) [0, 1]
  if c ≠ 0 then s.tableRefused k c
  else
    let s := s.updTable k fun t => { t with state := 1, code := 0, ledger := true }
    let (s, ok) := s.tablePlanes k (planes.map fun p => leBytes 16384 p)
    if ok then s else s.tableRefused k 7

/-! ### Setpoints -/

/-- The setpoint of a point: its address and value (R547). -/
def State.setpointOf (s : State) (p : Nat) : Nat × Nat :=
  if p = 1 then (s.get LED_SETPT_ADDR.warn, s.get LED_SETPT_WARN.value) else (s.get LED_SETPT_ADDR.eol, s.get LED_SETPT_EOL.value)

/-- A setpoint frame is submitted on a lane (R61, R66, R73): seq, address, value. -/
def State.sendSetpoint (s : State) (lane seq addr value : Nat) : State :=
  let b := [(0x81 : BitVec 8), 7] ++ leBytes 1 seq ++ leBytes 2 addr ++ leBytes 4 value
  let s := (List.range 3).foldl (fun s i => s.put FLN_SC_TX_BUF.bytes (leAt b (4 * i) 4) lane i) s
  s.slowSend lane

/-- Changes the work on a point. -/
def State.updWork (s : State) (r p : Nat) (f : LedWork → LedWork) : State :=
  s.updLed fun l => { l with work := l.work.map fun w => if w.record = r ∧ w.point = p then f w else w }

/-- The work on a point, or none. -/
def State.workOn (s : State) (r p : Nat) : Option LedWork := s.led.work.find? fun w => w.record == r && w.point == p

/-- The table sequences of a point start together (R547). At point 0 the lanes' channels come to carry the record's raises; at point 3
the raises are counted anew. Every setpoint that is due is listed. -/
def State.startWork (s : State) (r p : Nat) : State :=
  let raised := s.raisesOf r p
  let lanes := s.recLanes r
  let points := (s.pointsApplied r p).filter fun q => (s.pointActs q).testBit 3
  let s := (s.rewrites r p).foldl (fun s e => s.rewriteTable e.1 e.2) s
  let s := s.updRec r fun x => { x with raises := min 2 ((if p = 3 then 0 else x.raises) + raised) }
  let s := if p = 0 then s.updLed fun l => { l with prev := lanes.foldl (fun t n => Sparse.set 0 t n (r + 1)) l.prev } else s
  s.updWork r p fun w => { w with started := true, sends := points.map fun q => { point := q } }

/-- The acknowledgement that a lane shows is that of the setpoint sent last (R61, R547). -/
def State.answers (s : State) (x : LedSend) : Bool :=
  x.waits && s.bit FLN_SC_ACK.new x.lane && s.get FLN_SC_ACK.seq x.lane == x.seq

/-- What firmware makes of a setpoint: an acknowledgement ends the attempt, with status 0 the setpoint; after three attempts without
one of status 0 the setpoint has failed (R547). -/
def State.judgeSend (s : State) (x : LedSend) : LedSend :=
  if s.answers x then
    let ok : Bool := s.get FLN_SC_ACK.status x.lane == 0
    { x with waits := false, acked := ok, failed := !ok && decide (3 ≤ x.attempts) }
  else { x with failed := x.failed || (!x.acked && decide (3 ≤ x.attempts)) }

/-- Firmware takes the acknowledgements of the setpoints of a point and clears FLN_SC_ACK.new for each. -/
def State.takeAcks (s : State) (r p : Nat) : State :=
  match s.workOn r p with
  | none => s
  | some w =>
    let t := s.updWork r p fun w => { w with sends := w.sends.map s.judgeSend }
    w.sends.foldl (fun t x => if s.answers x then t.put FLN_SC_ACK.new 0 x.lane else t) t

/-- A setpoint is sent on `lane`, one of the record's with slow_ok = 1, with the sequence byte `seq` (R547): the first that is neither
acknowledged nor failed. -/
def State.sendDue (s : State) (r p lane seq : Nat) : State :=
  match (s.workOn r p).bind fun w => w.sends.find? fun x => !x.acked && !x.failed with
  | none => s
  | some x =>
    if ¬ (s.recLanes r).contains lane ∨ ¬ s.bit FLN_DL_WORDS.slow_ok lane ∨ s.bit FLN_SC_STATUS.tx_pending lane then s
    else
      (s.sendSetpoint lane seq (s.setpointOf x.point).1 (s.setpointOf x.point).2).updWork r p fun w => { w with
        sends := w.sends.map fun y =>
          if y.point = x.point then { y with attempts := y.attempts + 1, lane := lane, seq := seq, waits := true } else y }

/-- Resident firmware carries out point `p` of record `r`, which it has taken from the action queue (R547). The table sequences
start together once no table is in progress and a commit set is free for each; then the setpoints that are due are sent, each at
most three times and none after its acknowledgement with status 0. -/
def State.ledgerAction (s : State) (r p lane seq : Nat) : State :=
  match s.workOn r p with
  | none => s
  | some w =>
    let due := s.rewrites r p
    let ready : Bool := due.all (fun e => !(s.table e.1).inProgress) && decide (due.length ≤ (s.freeSets [0, 1]).length)
    if ¬ w.started ∧ ¬ ready then s
    else (((if w.started then s else s.startWork r p).takeAcks r p).sendDue r p lane seq)

end Sys2Proof.Machine
end

