-- ==== Sys2Proof/Machine/RowsManagement.lean ====
section
/-! DEFINITION. The commands of the dictionary, of CAN and Lantern, of Tarnish and of the ledger (17, 18; R476 to R551). -/

namespace Sys2Proof.Machine

/-! ### CAN -/

/-- R496: A USDO request initiates an expedited or segmented transfer, or is refused when one is open. -/
def execUsdoRequest (index : Fin 65536) (sub : Fin 256) (op : UsdoOp)
    (s : State) : Host.Outcome State Fault Refusal :=
  .next (s.alive fun s => if s.usdoOn then s.enqueue (.request index.val sub.val op) else s)

/-- R496: A USDO segment continues a transfer; the last DOMAIN segment awaits its target's result. -/
def execUsdoSegment (op : UsdoSegment) (s : State) : Host.Outcome State Fault Refusal :=
  .next (s.alive fun s => if s.usdoOn then s.enqueue (.segment op) else s)

/-- R496: A client abort ends a transfer before its commit point, or is recorded as too late. -/
def execUsdoAbort (index : Fin 65536) (sub : Fin 256) (s : State) : Host.Outcome State Fault Refusal :=
  .next (s.alive fun s => if s.usdoOn then s.usdoAbort index.val sub.val else s)

/-- R496: A segmented transfer without a segment for 1 s ends with an abort. -/
def execUsdoTimeout (s : State) : Host.Outcome State Fault Refusal := .next (s.alive fun s => s.usdoTimeout)

/-- R497: A received RPDO writes its mapped objects in order, or sends EMCY on refusal. -/
def execRpdo (n : Fin 4) (data : List (BitVec 8)) (s : State) : Host.Outcome State Fault Refusal :=
  .next (s.alive fun s => if s.pdoOn && !((s.rpdo n.val).cob.testBit 31) then s.enqueue (.rpdo n.val data) else s)

/-- R497: A TPDO event timer expires and the TPDO is sent subject to its inhibit time. -/
def execTpdoEventTimer (n : Fin 4) (t : Nat) (s : State) : Host.Outcome State Fault Refusal :=
  .next (s.alive fun s => s.tpdoTimer n.val t)

/-- R493: The producer heartbeat timer expires and a heartbeat is sent. -/
def execHeartbeat (s : State) : Host.Outcome State Fault Refusal := .next (s.alive fun s => s.heartbeat)

/-- R495: NMT start moves the node to Operational. -/
def execNmtStart (s : State) : Host.Outcome State Fault Refusal := .next (s.alive fun s => s.onNmt .start)

/-- R495: NMT stop moves the node to Stopped. -/
def execNmtStop (s : State) : Host.Outcome State Fault Refusal := .next (s.alive fun s => s.onNmt .stop)

/-- R495: NMT enter pre-operational moves the node to Pre-operational. -/
def execNmtEnterPreoperational (s : State) : Host.Outcome State Fault Refusal :=
  .next (s.alive fun s => s.onNmt .preOperational)

/-- R495: NMT reset node enters Initialisation and, when enabled, resets the device. -/
def execNmtResetNode (s : State) : Host.Outcome State Fault Refusal :=
  .next (s.alive fun s => s.onNmt .resetNode)

/-- R495: NMT reset communication re-enters Initialisation with the new bit rate and node-ID. -/
def execNmtResetCommunication (s : State) : Host.Outcome State Fault Refusal :=
  .next (s.alive fun s => s.onNmt .resetCommunication)

/-- R495: A write of 1 to DIC_CTRL.can_en puts the CAN node into Initialisation. -/
def execCanEnableWrite (s : State) : Host.Outcome State Fault Refusal := .next (s.live fun s => s.canEnable)

/-- R495: Communication objects are set and the boot-up message sent; the node enters Pre-operational. -/
def execInitialisationDone (s : State) : Host.Outcome State Fault Refusal :=
  .next (s.alive fun s => s.initialisationDone)

/-- R492: A bus-off node recovers after 128 occurrences of 11 recessive bits. -/
def execCanBusOffRecovery (s : State) : Host.Outcome State Fault Refusal :=
  .next (s.alive fun s => s.canRecovery)

/-- R492: The CAN controller's error counters take it into error-passive or bus-off, setting can_bus_off and error
register bit 4, or back to error-active. -/
def execCanBusStateChange (bus : Fin 3) (tec rec : Fin 512) (s : State) : Host.Outcome State Fault Refusal :=
  .next (s.alive fun s => s.canBus bus.val tec.val rec.val)

/-! ### Lantern -/

/-- R504: A Lantern datagram is checked, replayed from its session or executed item by item and answered. -/
def execLanternDatagram (dest : Option (BitVec 32 × BitVec 16)) (ip : BitVec 32) (port : BitVec 16) (data : List (BitVec 8))
    (s : State) : Host.Outcome State Fault Refusal :=
  .next (s.live fun s => s.lanternDatagram (dest.map fun p => (p.1.toNat, p.2.toNat)) ip.toNat port.toNat data)

/-- R503: Item READ returns an object's value. -/
def execLanternRead (s : State) : Host.Outcome State Fault Refusal := .next (s.live fun s => s.lanRead)

/-- R503: Item WRITE writes an object's value. -/
def execLanternWrite (s : State) : Host.Outcome State Fault Refusal := .next (s.live fun s => s.lanWrite)

/-- R507: Item DOMAIN_BEGIN opens a staged DOMAIN write, or is refused when one is open. -/
def execDomainBegin (s : State) : Host.Outcome State Fault Refusal := .next (s.live fun s => s.lanBegin)

/-- R505: Item DOMAIN_DATA stages bytes at the next expected offset. -/
def execDomainData (s : State) : Host.Outcome State Fault Refusal := .next (s.live fun s => s.lanData)

/-- R508: Item DOMAIN_END checks the CRC and hands the staged data to its target. -/
def execDomainEnd (s : State) : Host.Outcome State Fault Refusal := .next (s.live fun s => s.lanEnd)

/-- R509: Item DOMAIN_READ returns bytes of a DOMAIN object at an offset. -/
def execDomainRead (s : State) : Host.Outcome State Fault Refusal := .next (s.live fun s => s.lanDomainRead)

/-- R489: Item ABORT ends the session's open DOMAIN write, or is too late. -/
def execLanternAbort (s : State) : Host.Outcome State Fault Refusal := .next (s.live fun s => s.lanAbort)

/-- R505: A DOMAIN write without an item for 10 s ends as aborted. -/
def execDomainTimeout (s : State) : Host.Outcome State Fault Refusal := .next (s.live fun s => s.lanTimeout)

/-- R508: The target's result of a DOMAIN hand-off is known and the answer is sent. -/
def execDomainResult (s : State) : Host.Outcome State Fault Refusal := .next (s.live fun s => s.domainResult)

/-- A request on subindex 02 of register window `w` on its own, by a Lantern client or by USDO (R487, R513): a read shows its word. -/
def State.windowCommand (s : State) (client : Option Nat) (w : Nat) (data : Option Nat) : State :=
  let src : ReqSrc := match client with
    | some ip => .lantern ip 0 0
    | none => .usdo
  match data with
  | some v => (s.dicWrite src (0x4000 + w) 2 none (leBytes 4 v)).1
  | none =>
    let (s, c, b) := s.dicRead src (0x4000 + w) 2 none
    if c = 0 then s.emit (.value (leNat b)) else s

/-- R513: A register window subindex 02 performs one 32-bit access to the named CSR. -/
def execRegisterWindowAccess (client : Option (BitVec 32)) (w : Fin 256) (data : Option (BitVec 32))
    (s : State) : Host.Outcome State Fault Refusal :=
  .next (s.live fun s => s.windowCommand (client.map BitVec.toNat) w.val (data.map BitVec.toNat))

/-- R500: The management port answers an ARP request. -/
def execMgtArp (ip : BitVec 32) (mac : BitVec 48) (target : BitVec 32)
    (s : State) : Host.Outcome State Fault Refusal :=
  .next (s.live fun s => s.mgtArp ip.toNat mac.toNat target.toNat)

/-- R500: The management port answers an ICMP echo within its rate limit. -/
def execMgtIcmpEcho (t : Nat) (mac : BitVec 48) (ip target : BitVec 32) (rest : List (BitVec 8))
    (s : State) : Host.Outcome State Fault Refusal :=
  .next (s.live fun s => s.mgtEcho t mac.toNat ip.toNat target.toNat rest)

/-- R500: The management port PCS gains or loses block lock, setting or clearing DIC_STATUS.mgt_link. -/
def execMgtBlockLock (locked : Bool) (s : State) : Host.Outcome State Fault Refusal :=
  .next (s.live fun s => s.mgtLock locked)

/-- R517: The keeper mirrors journal entries to flash or counts lost ones. -/
def execJournalMirror (ok : Bool) (s : State) : Host.Outcome State Fault Refusal :=
  .next (s.alive fun s => s.journalMirror ok)

/-! ### Tarnish -/

/-- R521: Tarnish reads island temperatures every 1 ms and starts a replanning above T_max. -/
def execTempSample (t : Nat) (temps : List Int) (lows : List Nat) (hbm0 hbm1 : BitVec 8)
    (s : State) : Host.Outcome State Fault Refusal :=
  .next (s.live fun s => s.tempSample t temps lows hbm0.toNat hbm1.toNat)

/-- R525: A temperature shift beyond TAR_TEMP.trig held for 1 s triggers a replanning. -/
def execTempShiftHeld (i : Fin 16) (s : State) : Host.Outcome State Fault Refusal :=
  .next (s.live fun s => s.tempShiftHeld i.val)

/-- R525: TAR_INTERVAL.s elapses and a replanning is triggered. -/
def execReplanIntervalExpiry (s : State) : Host.Outcome State Fault Refusal :=
  .next (s.live fun s => s.tarTrigger 1)

/-- R525: A write of 1 to TAR_CMD.replan triggers a replanning. -/
def execReplan (s : State) : Host.Outcome State Fault Refusal := .next (s.live fun s => s.tarTrigger 7)

/-- R526: A replanning starts, or sets pending while one runs. -/
def execReplanningStart (s : State) : Host.Outcome State Fault Refusal :=
  .next (s.live fun s => s.replanStart)

/-- R527: The sensors are sampled and the plan computed, raising warnings, retiring islands and ordering the voltage.
-/
def execSensorsSampled (t : Nat) (reads : List SensorRead) (s : State) : Host.Outcome State Fault Refusal :=
  .next (s.live fun s => s.sensorsSampled t reads)

/-- R530: AVSBus reports completion of a voltage raise and the settle wait begins. -/
def execAvsComplete (means : List Nat) (s : State) : Host.Outcome State Fault Refusal :=
  .next (s.live fun s => s.avsComplete means)

/-- R530: The settle time ends and the plan is proposed for admission. -/
def execAvsSettleExpiry (s : State) : Host.Outcome State Fault Refusal := .next (s.live fun s => s.avsSettled)

/-- R531: An AVSBus error or a missing completion after 1 ms abandons the replanning. -/
def execAvsFail (s : State) : Host.Outcome State Fault Refusal := .next (s.live fun s => s.avsFail)

/-- R529: A write of TAR_CMD.unretire clears an island's retired bit. -/
def execUnretire (i : Fin 16) (s : State) : Host.Outcome State Fault Refusal :=
  .next (s.live fun s => s.unretire i.val)

/-- R534: Each history period Tarnish stores a point per island and lane and refits the forecast. -/
def execHistoryPoint (t : Nat) (s : State) : Host.Outcome State Fault Refusal :=
  .next (s.live fun s => s.historyPoint t)

/-- R533: Each 24 h without an overrun removes 5 ps of an island's penalty. -/
def execPenaltyDecay (i : Fin 16) (s : State) : Host.Outcome State Fault Refusal :=
  .next (s.live fun s => s.penaltyDecay i.val)

/-! ### The ledger -/

/-- R542: Each second the ledger takes reports and telemetry, accumulates, computes life and moves record states. -/
def execLedgerTick (t : Nat) (s : State) : Host.Outcome State Fault Refusal :=
  .next (s.live fun s => s.ledgerTick t)

/-- R548: prob_left reaches 0 and the ledger posts point 3. -/
def execProbationExpiry (r : Fin 1024) (s : State) : Host.Outcome State Fault Refusal :=
  .next (s.live fun s => s.probationExpiry r.val)

/-- R544: A write to LED_HIT_ADD_HI adds a 64-bit hit count to the lane's record. -/
def execHitAdd (ini : Fin 41) (hi : BitVec 32) (s : State) : Host.Outcome State Fault Refusal :=
  .next (s.live fun s => s.hitAdd ini.val hi.toNat)

/-- R546: A read of LED_ACTQ returns and removes the head of the action queue. -/
def execActqRead (ini : Fin 41) (s : State) : Host.Outcome State Fault Refusal :=
  .next (s.regRead ini.val 17 0x68 4)

/-- R546: A write to LED_ACTQ_DONE reports a point's outcome, completing probation exit or reporting failure. -/
def execActqDone (r : Fin 4096) (point : Fin 8) (failed : Bool) (s : State) : Host.Outcome State Fault Refusal :=
  .next (s.live fun s => s.actqDone r.val point.val failed)

/-- R547: Resident firmware carries out a posted point by masking, raising thresholds or sending setpoints. -/
def execLedgerAction (r : Fin 1024) (point : Fin 4) (lane : Fin 224) (seq : Fin 256)
    (s : State) : Host.Outcome State Fault Refusal :=
  .next (s.live fun s => s.ledgerAction r.val point.val lane.val seq.val)

/-- R541: A write of LED_CMD.forget frees an ABSENT or RETIRED record. -/
def execForget (r : Fin 1024) (s : State) : Host.Outcome State Fault Refusal :=
  .next (s.live fun s => s.forgetRec r.val)

/-- R551: A write to LED_SEL copies the named record image into LED_REC. -/
def execLedgerSelect (r : Fin 1024) (s : State) : Host.Outcome State Fault Refusal :=
  .next (s.live fun s => s.ledgerSelect r.val)

/-- R549: Every mirror_min minutes the keeper mirrors the ledger to flash. -/
def execLedgerMirror (ok : Bool) (s : State) : Host.Outcome State Fault Refusal :=
  .next (s.alive fun s => s.ledgerMirror ok)

end Sys2Proof.Machine
end

