-- ==== Sys2Proof/Machine/Pins.lean ====
section
/-! DEFINITION. The pins: what each ball carries (R608 to R611), what the outputs show in each power state and under the test access
port (R565, R634), and the boundary register (R635). -/

namespace Sys2Proof.Machine

/-! ### The scanned balls (R608 to R611, R635) -/

/-- A scanned signal; a differential pair counts once, at its P ball. -/
inductive PinSig where
  | frx (n : Nat) | ftx (n : Nat) | brx (r : Nat) | btx (r : Nat) | refclk (k : Nat) | glint (n : Nat) | gpio (n : Nat)
  | xclk | busy | mgtRx | mgtTx | canTxd | canRxd | qspiSck | qspiCs | qspiIo (k : Nat) | avsClk | avsMdata | avsSdata
  | smbScl | smbSda | bootmode (k : Nat)
  deriving DecidableEq, Repr

/-- The front lane whose balls stand at pair `p` of row pair `g` from an edge, the first lane being `base` (R608). -/
def frontBall (base g p : Nat) : Option Nat := if 24 * g + p < 112 then some (base + 24 * g + p) else none

/-- The signals of rows 1 to 10 and 63 to 72 (R608, R609): `d` is the distance from the edge, 0 to 9. -/
def edgeSig (base refs d col : Nat) : Option PinSig :=
  if d = 8 ∧ 50 ≤ col ∧ col ≤ 59 ∧ (col - 50) % 3 = 0 then some (.refclk (refs + (col - 50) / 3))
  else if col % 3 ≠ 2 then none
  else (frontBall base (d / 2) (col / 3)).map fun n => if d % 2 = 0 then .frx n else .ftx n

/-- The signals of row 16 (R611). -/
def rowSig (col : Nat) : Option PinSig :=
  match col with
  | 12 => some .xclk
  | 15 => some .busy
  | 18 => some .mgtRx
  | 21 => some .mgtTx
  | 24 => some .canTxd
  | 25 => some .canRxd
  | 27 => some .qspiSck
  | 28 => some .qspiCs
  | 34 => some .avsClk
  | 35 => some .avsMdata
  | 36 => some .avsSdata
  | 38 => some .smbScl
  | 39 => some .smbSda
  | c => if 29 ≤ c ∧ c ≤ 32 then some (.qspiIo (c - 29)) else if 41 ≤ c ∧ c ≤ 43 then some (.bootmode (c - 41)) else none

/-- GPIO pin of bank `k` at a column (R611). -/
def gpioSig (k col : Nat) : Option PinSig :=
  ((List.range 24).find? fun j => 12 + j + j / 2 == col).map fun j => .gpio (24 * k + j)

/-- The rear lane at a column of row 13 + 2k (R610). -/
def rearSig (k col : Nat) : Option PinSig :=
  match col with
  | 2 => some (.brx k)
  | 5 => some (.btx k)
  | 68 => some (.btx (24 + k))
  | 71 => some (.brx (24 + k))
  | _ => none

/-- The signal that is scanned at ball row-column (R608 to R611, R635). -/
def ballSig (row col : Nat) : Option PinSig :=
  if row ≤ 10 then edgeSig 0 0 (row - 1) col
  else if 63 ≤ row then edgeSig 112 4 (72 - row) col
  else if row = 14 then (if 12 ≤ col ∧ col ≤ 57 ∧ (col - 12) % 3 = 0 then some (.glint ((col - 12) / 3)) else none)
  else if row = 16 then rowSig col
  else if 57 ≤ row ∧ row ≤ 60 ∧ 12 ≤ col ∧ col ≤ 47 then gpioSig (row - 57) col
  else if row % 2 = 1 ∧ 13 ≤ row ∧ row ≤ 59 then rearSig ((row - 13) / 2) col
  else none

/-! ### The boundary register (R635) -/

/-- The groups of outputs that share a control cell, in the order of the cells. -/
inductive PinGroup where
  | ftx | btx | mgtTx | glintBusy | canTxd | qspi | avs
  deriving DecidableEq, Repr

/-- A cell of the boundary register. -/
inductive BoundaryCell where
  | input (p : PinSig)
  | output (p : PinSig)
  | control (p : PinSig)
  | shared (g : PinGroup)
  deriving DecidableEq, Repr

/-- The cells of a scanned signal. -/
def PinSig.cells (p : PinSig) : List BoundaryCell :=
  match p with
  | .frx _ | .brx _ | .mgtRx | .refclk _ | .xclk | .canRxd | .avsSdata | .bootmode _ => [.input p]
  | .ftx _ | .btx _ | .mgtTx | .glint _ | .busy | .canTxd | .qspiSck | .qspiCs | .avsClk | .avsMdata => [.output p]
  | .qspiIo _ | .smbScl | .smbSda | .gpio _ => [.input p, .output p, .control p]

/-- The cells of one row of balls, in ascending column. -/
def rowCells (row : Nat) : List BoundaryCell :=
  (List.range 72).flatMap fun c => match ballSig row (c + 1) with
    | some p => p.cells
    | none => []

/-- The 895 cells, the first nearest TDI. -/
def boundaryCells : List BoundaryCell :=
  (List.range 72).flatMap (fun r => rowCells (r + 1)) ++
    ([.ftx, .btx, .mgtTx, .glintBusy, .canTxd, .qspi, .avs] : List PinGroup).map .shared

/-- The group whose shared control cell an output follows. -/
def PinSig.group (p : PinSig) : Option PinGroup :=
  match p with
  | .ftx _ => some .ftx
  | .btx _ => some .btx
  | .mgtTx => some .mgtTx
  | .glint _ | .busy => some .glintBusy
  | .canTxd => some .canTxd
  | .qspiSck | .qspiCs => some .qspi
  | .avsClk | .avsMdata => some .avs
  | _ => none

/-- The control cell of an output. -/
def PinSig.controlCell (p : PinSig) : BoundaryCell :=
  match p.group with
  | some g => .shared g
  | none => .control p

/-- A signal has an IEEE 1149.6 AC cell (R635). -/
def PinSig.isAc (p : PinSig) : Bool :=
  match p with
  | .frx _ | .brx _ | .mgtRx | .ftx _ | .btx _ | .mgtTx => true
  | _ => false

/-- The place of a cell in the boundary register. -/
def cellIndex (c : BoundaryCell) : Nat := boundaryCells.idxOf c

/-! ### What the outputs show (R565, R634) -/

/-- What an output shows: what its unit drives, a level, zero differential at common mode, high impedance, the CAN heartbeat alone, or
the AC test signal of a level (IEEE 1149.6). -/
inductive PinShow where
  | unit
  | level (b : Bool)
  | zero
  | highZ
  | heartbeat
  | ac (b : Bool)
  deriving DecidableEq, Repr

/-- A GPIO pin is driven by its claiming facet, or is an input (R108, R118). -/
def State.gpioShow (s : State) (n : Nat) : PinShow :=
  if s.bit GPI_PIN.driving n then .level ((s.facet (s.get GPI_PIN.facet n)).gpioOut.testBit n) else .highZ

/-- A Glint output (R272, R565). -/
def State.glintShow (s : State) (n : Nat) : PinShow :=
  match s.glintPin n with
  | some b => .level b
  | none => .zero

/-- What a pin shows in function (R565): in Off high impedance; in Eclipse and after Dusk the lanes stand at zero differential and
QSPI_CS_N high and QSPI_SCK low; CAN_TXD sends the heartbeat alone in Eclipse and is recessive after Dusk. -/
def State.pinFunction (s : State) (p : PinSig) : PinShow :=
  let eclipse : Bool := s.get PWR_STATUS.state == 2
  let dusk : Bool := s.get PWR_STATUS.state == 6
  let low : Bool := eclipse || dusk
  if s.pwr.off then .highZ
  else match p with
    | .glint n => s.glintShow n
    | .busy => .level s.busyPin
    | .ftx _ | .btx _ | .mgtTx => if low then .zero else .unit
    | .gpio n => if dusk then .highZ else s.gpioShow n
    | .canTxd => if dusk then .level true else if eclipse then .heartbeat else .unit
    | .qspiCs => if low then .level true else .unit
    | .qspiSck => if low then .level false else .unit
    | _ => .unit

/-- Bit of the boundary register's update latches for a cell. -/
def State.latch (s : State) (c : BoundaryCell) : Bool := s.tap.boundary.testBit (cellIndex c)

/-- What an output shows under a test instruction that drives it from the boundary register: its output cell where its control cell
holds 1, else high impedance. `ac` says that AC cells send their test signal. -/
def State.pinTest (s : State) (ac : Bool) (p : PinSig) : PinShow :=
  if ¬ s.latch p.controlCell then .highZ
  else if ac && p.isAc then .ac (s.latch (.output p)) else .level (s.latch (.output p))

/-- What an output shows (R565, R634). -/
def State.pinShow (s : State) (p : PinSig) : PinShow :=
  match s.tap.pins with
  | .functional => s.pinFunction p
  | .highz => .highZ
  | .extest | .clamp => s.pinTest false p
  | .pulse | .train => s.pinTest true p

/-! ### Capture and update (R634, R635) -/

/-- The bit that an output or control cell captures, `level` being the level at the ball: what the pin shows where the state holds it. -/
def PinShow.captured (x : PinShow) (level : Bool) : Bool :=
  match x with
  | .level b | .ac b => b
  | .unit | .heartbeat => level
  | .zero | .highZ => false

/-- A pin is driven. -/
def PinShow.drives (x : PinShow) : Bool :=
  match x with
  | .zero | .highZ => false
  | _ => true

/-- The first output that a shared control cell governs. -/
def PinGroup.first (g : PinGroup) : PinSig :=
  match g with
  | .ftx => .ftx 0
  | .btx => .btx 0
  | .mgtTx => .mgtTx
  | .glintBusy => .busy
  | .canTxd => .canTxd
  | .qspi => .qspiSck
  | .avs => .avsClk

/-- What a cell captures from the levels at the balls: an input cell the level, an output cell what is driven there, a control cell
whether the output is driven. -/
def State.cellCapture (s : State) (c : BoundaryCell) (level : Bool) : Bool :=
  match c with
  | .input _ => level
  | .output p => (s.pinShow p).captured level
  | .control p => (s.pinShow p).drives
  | .shared g => (s.pinShow g.first).drives

/-- The boundary register at Capture-DR, from the levels at the balls of its cells. -/
def State.boundaryCapture (s : State) (levels : Nat) : Nat :=
  boundaryCells.zipIdx.foldl (fun a e => a + b2n (s.cellCapture e.1 (levels.testBit e.2)) * 2 ^ e.2) 0

/-- The boundary register is selected: it captures the pins, and the latches take what is shifted in (R634, R635). -/
def State.boundaryScan (s : State) (levels loaded : Nat) : State :=
  s.updTap fun t => { t with dr := s.boundaryCapture levels, boundary := loaded }

/-- SAMPLE/PRELOAD: the pins stay in function (R634). -/
def State.tapSample (s : State) (levels loaded : Nat) : State := (s.tapLoad 2 0).boundaryScan levels loaded

/-- EXTEST and its pulse and train: in boot modes 3 and 4 the pins are driven from the boundary register, which captures them and is
loaded anew; else BYPASS (R634). -/
def State.tapExtest (s : State) (ir : Nat) (pins : PinDrive) (levels loaded : Nat) : State :=
  let t := s.tapPins ir pins
  if t.tap.ir = ir then t.boundaryScan levels loaded else t

end Sys2Proof.Machine
end

