-- ==== Sys2Proof/Machine/PowerGates.lean ====
section
/-! DEFINITION. The power gates close: the reset of the initiators of the closing domains, and steps 4 to 6 of the Eclipse entry
(R447, R475, R554, R555, R558, R564). -/

namespace Sys2Proof.Machine

/-- The initiators outside the always-on domain (R428, R554). -/
def gatedInitiators : List Nat := (List.range 41).filter fun i => i != 16

/-- A packet on the ring reaches its target before the gates close (R447, step 2, R555). -/
def State.landPkt (s : State) (p : Pkt) : State :=
  if p.cmd = .event then (s.carryPkt p).softEvents (p.addr % 32) (leNat p.data) else s.serve p {}

/-- The packets on the ring reach their targets, in the order of their injection, and the responses their initiators, after a free
number of cycles: those of a reset initiator are outdated (R447, R555). A request whose pieces wait at Prism gets an error
response. -/
def State.ringDrains (s : State) : State :=
  let sent := s.ring.reqs
  let s := sent.foldl (fun s p => s.landPkt p) (s.updRing fun r => { r with reqs := [] })
  let s := s.ring.sideReqs.foldl (fun s p => s.respond p 1 []) s
  let s := s.updRing fun r => { r with sideReqs := [] }
  forN s.ring.rsps.length s fun _ s => s.tookFree.response 0 (s.fresh 16)

/-- The initiators of the closing domains are reset: what of their packets is on the ring is cut or completed (R447, R555). -/
def State.gateInitiators (s : State) : State := gatedInitiators.foldl (fun s i => (s.cutFree i).masterTags i) s

/-- Every semaphore becomes free and no wait stays queued (R554): to those of the closing domains' initiators it is an owner reset
(R475). -/
def State.freeSemaphores (s : State) : State :=
  let s := (List.range 41).foldl (fun s i => s.dropWait i) s
  forN 512 s fun n s =>
    if ¬ s.bit SEM_STATE.held n then s
    else
      let i := s.get SEM_STATE.owner n
      if i = 16 then s.semFree n false false else ((s.inc SEM_RESET_CNT.count).err SEM_ERR.owner_reset 0 n i).semFree n true false

/-- What the Ring domain holds beside registers is lost; what always-on memory holds stays (R554, R559). -/
def State.ringOff (s : State) : State :=
  let s := (List.range 32).foldl (fun s d => if alwaysOnStop d then s else s.put RNG_STOP_STATUS.asleep 1 d) s
  let s := s.gateInitiators.ringDrains
  let s := (List.range 16).foldl (fun s n => s.dmaReset n) s
  let s := s.freeSemaphores.loseScratchpad
  let s := s.updRing fun r => { r with reqs := [], rsps := [], changed := [], deaf := [], waking := [] }
  let s := s.updTar fun t => { t with phase := .idle, due := 0, plan := none, scanTodo := [], scans := [] }
  let s : State := { s with dic := s.dic.dropWork, tap := s.tap.dropAccess }
  let s := ((((s.put TAR_STATUS.busy 0).put TAR_STATUS.pending 0).put DIC_STATUS.mgt_link 0).put DIC_STATUS.domain_open 0).put DIC_STATUS.queued 0
  s.put SPD_MBX_STATUS.port_r_open 0

/-- Step 5: facets in RUN go to HALT, the stacks refresh themselves, the power gates close (R558). -/
def State.closeGates (s : State) : State :=
  let s := s.ringOff
  let runs := bitSet 57 fun f => s.facetState f == 1
  let s := (s.put PWR_FACET_RESUME_LO.facets (runs % 2 ^ 32)).put PWR_FACET_RESUME_HI.facets (runs / 2 ^ 32)
  let s := forN 57 s fun f s => s.facetHalt f
  let s := [0, 1].foldl (fun s k => if s.stack k = 2 then s.putStack k 3 else s) s
  let s := (s.islandsOff.lanesOff).updSeq fun q => { q with admission := none, plan := none, planRefused := none }
  let s := s.put SEQ_ADM_STATUS.busy 0
  let s := (s.updHbm fun h => { h with xfers := [] })
  let s := { s with pri := { s.pri with side := [], held := [], performed := [], turns := 0 } }.publishSide
  (s.updPwr fun p => { p with gated := true }).pinsGated

/-- Step 4 ends: the remaining threads stop (R398). From here Eclipse runs steps 5 and 6; Dusk goes on with step 5 (R558,
R564). -/
def State.eclipseGrace (s : State) : State :=
  if s.pwr.step ≠ 3 then s
  else
    let s := (List.range 16).foldl (fun s u => if s.thState u = 0 then s else s.stopNow u) s
    if s.powerState = 3 then
      let s := ((s.closeGates.put PWR_STATUS.state 2).put PWR_STATUS.committed 0).inc PWR_ECLIPSE_CNT.count
      s.updPwr fun p => { p with step := 0 }
    else s.updPwr fun p => { p with step := 5 }

end Sys2Proof.Machine
end

