-- ==== Sys2Proof/Machine/RowsPower.lean ====
section
/-! DEFINITION. The commands of the power manager, of boot, of the error queue and of the pins (19, 20, 21; R553 to R640). -/

namespace Sys2Proof.Machine

/-! ### Power states -/

/-- R557: A write of 1 to PWR_CMD.doze enters Doze at the next barrier. -/
def execDoze (s : State) : Host.Outcome State Fault Refusal := .next (s.alive fun s => s.powerDoze)

/-- R557: A write of 1 to PWR_CMD.run returns to Run, or starts the Eclipse exit by the keeper. -/
def execRun (keeper : Bool) (s : State) : Host.Outcome State Fault Refusal :=
  .next (s.alive fun s => s.powerRun keeper)

/-- R558: A write of 1 to PWR_CMD.eclipse starts the Eclipse entry sequence. -/
def execEclipse (s : State) : Host.Outcome State Fault Refusal := .next (s.alive fun s => s.powerEclipse)

/-- R564: A write of 1 to PWR_CMD.dusk starts the ordered power-down. -/
def execDusk (s : State) : Host.Outcome State Fault Refusal := .next (s.alive fun s => s.powerDusk)

/-- R558: A write of 1 to PWR_CMD.abort returns an entry or Dusk before its commit, or is too late. -/
def execPowerAbort (s : State) : Host.Outcome State Fault Refusal := .next (s.alive fun s => s.powerAbort)

/-- R558: At the first barrier after the command the timeline, sequencer and Prism stop and pending actions cancel. -/
def execEclipseCommit (s : State) : Host.Outcome State Fault Refusal :=
  .next (s.alive fun s => s.eclipseCommit)

/-- R558: The readout drain ends, unfinished events are discarded and threads are signalled. -/
def execEclipseDrainExpiry (s : State) : Host.Outcome State Fault Refusal :=
  .next (s.alive fun s => s.eclipseDrain)

/-- R558: The grace time ends, remaining threads stop, facets halt, stacks self-refresh and gates close. -/
def execEclipseGraceExpiry (s : State) : Host.Outcome State Fault Refusal :=
  .next (s.alive fun s => s.eclipseGrace)

/-- R564: The keeper finishes mirroring and powers every domain but always-on down. -/
def execDuskMirrorDone (s : State) : Host.Outcome State Fault Refusal :=
  .next (s.alive fun s => s.duskMirrorDone)

/-- R560: A CAN frame for the node wakes the device and starts the Eclipse exit. -/
def execWakeCan (frame : CanFrame) (s : State) : Host.Outcome State Fault Refusal :=
  .next (s.alive fun s => s.wakeCan frame)

/-- R560: 1,024 good XCLK edges wake the device. -/
def execWakeTiming (s : State) : Host.Outcome State Fault Refusal := .next (s.alive fun s => s.wakeTiming)

/-- R561: A keeper access outside the always-on domain wakes the device or is refused. -/
def execWakeRing (s : State) : Host.Outcome State Fault Refusal := .next (s.alive fun s => s.wakeRing)

/-- R560: The keeper's thread timer expiry wakes the device. -/
def execWakeTimer (s : State) : Host.Outcome State Fault Refusal := .next (s.alive fun s => s.keeperTimer)

/-! ### Resets -/

/-- R567: A write of 1 to PWR_CMD.dev_reset resets the device as a pin reset. -/
def execDevReset (s : State) : Host.Outcome State Fault Refusal := .next (s.alive fun s => s.devReset)

/-- R567: A write of 1 to PWR_CMD.kick restarts the keeper watchdog. -/
def execKick (s : State) : Host.Outcome State Fault Refusal := .next (s.alive fun s => s.kick)

/-- R567: The keeper watchdog expires and resets the keeper. -/
def execWatchdogExpiry (t : Nat) (s : State) : Host.Outcome State Fault Refusal :=
  .next (s.alive fun s => s.watchdogExpiry t)

/-- R567: PWR_RESET.core resets a control core and its threads. -/
def execCoreReset (c : Fin 4) (s : State) : Host.Outcome State Fault Refusal :=
  .next (s.live fun s => s.coreReset c.val)

/-- R567: PWR_RESET.dma resets a DMA group. -/
def execDmaGroupReset (g : Fin 2) (s : State) : Host.Outcome State Fault Refusal :=
  .next (s.live fun s => s.dmaGroupReset g.val)

/-- R567: PWR_RESET.edge resets every facet and the configuration port. -/
def execEdgeFabricReset (s : State) : Host.Outcome State Fault Refusal := .next (s.live fun s => s.edgeReset)

/-- R567: PWR_RESET.gnomon resets Gnomon with its counters and serial. -/
def execGnomonReset (s : State) : Host.Outcome State Fault Refusal := .next (s.live fun s => s.gnomonReset)

/-- R567: PWR_RESET.worga resets the link engine and links. -/
def execWorgaReset (s : State) : Host.Outcome State Fault Refusal := .next (s.live fun s => s.worgaReset)

/-- R567: PWR_RESET.readout resets the readout engine, ports and queue. -/
def execReadoutReset (s : State) : Host.Outcome State Fault Refusal := .next (s.live fun s => s.readoutReset)

/-- R566: PWRGD low for 1 µs holds every domain in reset without Dusk. -/
def execPwrgdLoss (aon : Bool) (s : State) : Host.Outcome State Fault Refusal := .next (s.pwrgdLoss aon)

/-- R567: RESET_N held low resets everything except retention contents; its rise starts Dawn. -/
def execPinReset (s : State) : Host.Outcome State Fault Refusal := .next (s.pinReset)

/-- R567: Supplies and PWRGD in range with RESET_N rising reset everything and start Dawn. -/
def execPowerOnReset (board : List (Nat × List (BitVec 8))) (s : State) : Host.Outcome State Fault Refusal :=
  .next (s.powerOn board)

/-- R619: VDD_CORE or VDD_SRAM below threshold for 1 µs resets the device until the next RESET_N rise. -/
def execBrownout (core : Bool) (s : State) : Host.Outcome State Fault Refusal := .next (s.brownout core)

/-- R619: VDD_AON below 0.68 V for 1 µs is a power-on reset and loses retention. -/
def execAonBrownout (s : State) : Host.Outcome State Fault Refusal := .next (s.aonBrownout)

/-- R620: An island above the trip point for 100 µs asserts THERMTRIP_N and holds the device in reset. -/
def execThermalTrip (s : State) : Host.Outcome State Fault Refusal := .next (s.thermalTrip)

/-! ### Boot -/

/-- R568: The boot sequence loads firmware, patch, retained regions, start plan and stored configuration. -/
def execDawn (t us : Nat) (mode : Fin 8) (flash : Option Sfdp) (stack0 stack1 : Bool)
    (s : State) : Host.Outcome State Fault Refusal :=
  .next (s.dawn t us mode.val flash stack0 stack1)

/-- R559: The keeper scrubs the retention SRAM, correcting or invalidating regions. -/
def execRetentionScrub (region : Fin 5) (o : Codeword) (s : State) : Host.Outcome State Fault Refusal :=
  .next (s.alive fun s => s.retentionScrub region.val o)

/-- R578: A store command or a write to 0x3002:01 checks and programs a configuration slot. -/
def execConfigStore (run : FlashRun) (s : State) : Host.Outcome State Fault Refusal :=
  .next (s.alive fun s => s.configStore run)

/-- R578: A write of 1 to BOT_STORE_CMD.abort keeps the old slot before the read-back ends. -/
def execConfigStoreAbort (s : State) : Host.Outcome State Fault Refusal :=
  .next (s.alive fun s => s.storeAbort)

/-- R578: A vendor bundle is checked and programmed into area B then area A. -/
def execVendorUpdate (run : FlashRun) (s : State) : Host.Outcome State Fault Refusal :=
  .next (s.alive fun s => s.vendorUpdate run)

/-! ### The error queue -/

/-- R600: A read of ERQ_HEAD word 0 or 0x3100:03 copies and marks the head entry taken. -/
def execErqHeadRead (ini : Fin 41) (s : State) : Host.Outcome State Fault Refusal :=
  .next (s.regRead ini.val 20 0x100 4)

/-- R600: A write of the head's seq to ERQ_POP removes a taken head, or is refused. -/
def execErqPop (seq : BitVec 32) (s : State) : Host.Outcome State Fault Refusal :=
  .next (s.onReports 20 0 fun s => (s.erqPop seq.toNat).1)

/-! ### SMBus -/

/-- R629: SMBus Read Word 0x00 returns the status word. -/
def execSmbStatus (pec : Bool) (s : State) : Host.Outcome State Fault Refusal :=
  .next (s.onSmb fun s => s.smbAnswer 0 s.smbStatus pec)

/-- R629: SMBus Read Word 0x01 returns the hottest island temperature. -/
def execSmbIslandTemp (pec : Bool) (s : State) : Host.Outcome State Fault Refusal :=
  .next (s.onSmb fun s => s.smbAnswer 1 s.smbIslandTemp pec)

/-- R629: SMBus Read Word 0x02 returns the hottest stack temperature. -/
def execSmbHbmTemp (pec : Bool) (s : State) : Host.Outcome State Fault Refusal :=
  .next (s.onSmb fun s => s.smbAnswer 2 s.smbHbmTemp pec)

/-- R629: SMBus Read Word 0x03 returns the VDD_CORE setpoint. -/
def execSmbVout (pec : Bool) (s : State) : Host.Outcome State Fault Refusal :=
  .next (s.onSmb fun s => s.smbAnswer 3 (s.get TAR_AVS.set_mv) pec)

/-- R629: SMBus Read Word 0x04 returns the error-queue entries held. -/
def execSmbErqUsed (pec : Bool) (s : State) : Host.Outcome State Fault Refusal :=
  .next (s.onSmb fun s => s.smbAnswer 4 (s.get ERQ_STATUS.used) pec)

/-- R629: SMBus Read Word 0x05 returns SYS_STEPPING. -/
def execSmbStepping (pec : Bool) (s : State) : Host.Outcome State Fault Refusal :=
  .next (s.onSmb fun s => s.smbAnswer 5 (s.regWord 0 0) pec)

/-- R629: SMBus Read Word 0x06 returns SYS_ID. -/
def execSmbId (pec : Bool) (s : State) : Host.Outcome State Fault Refusal :=
  .next (s.onSmb fun s => s.smbAnswer 6 (s.csrView 17 0 4) pec)

/-- R629: An SMBus write, unknown command or read without required PEC is NACKed. -/
def execSmbNack (s : State) : Host.Outcome State Fault Refusal := .next (s.onSmb fun s => s.smbNack)

/-! ### The test access port -/

/-- R634: TAP instruction IDCODE selects SYS_JTAG_ID. -/
def execIdcode (s : State) : Host.Outcome State Fault Refusal := .next (s.tapLoad 1 s.jtagId)

/-- R634: TAP instruction SAMPLE/PRELOAD captures and loads the boundary register. -/
def execSamplePreload (levels loaded : BitVec 895) (s : State) : Host.Outcome State Fault Refusal :=
  .next (s.tapSample levels.toNat loaded.toNat)

/-- R634: TAP instruction EXTEST drives pins from the boundary register in boot modes 3 and 4. -/
def execExtest (levels loaded : BitVec 895) (s : State) : Host.Outcome State Fault Refusal :=
  .next (s.tapExtest 3 .extest levels.toNat loaded.toNat)

/-- R634: TAP instruction CLAMP holds outputs with BYPASS selected in boot modes 3 and 4. -/
def execClamp (s : State) : Host.Outcome State Fault Refusal := .next (s.tapPins 4 .clamp)

/-- R634: TAP instruction HIGHZ floats outputs in boot modes 3 and 4. -/
def execHighz (s : State) : Host.Outcome State Fault Refusal := .next (s.tapPins 5 .highz)

/-- R634: IEEE 1149.6 EXTEST_PULSE on AC pins in boot modes 3 and 4. -/
def execExtestPulse (levels loaded : BitVec 895) (s : State) : Host.Outcome State Fault Refusal :=
  .next (s.tapExtest 6 .pulse levels.toNat loaded.toNat)

/-- R634: IEEE 1149.6 EXTEST_TRAIN on AC pins in boot modes 3 and 4. -/
def execExtestTrain (levels loaded : BitVec 895) (s : State) : Host.Outcome State Fault Refusal :=
  .next (s.tapExtest 7 .train levels.toNat loaded.toNat)

/-- R634: TAP instruction BYPASS, also taken for refused and undefined codes. -/
def execBypass (s : State) : Host.Outcome State Fault Refusal := .next (s.tapBypass)

/-- R636: An Update-DR with go issues one 4-byte ring access as initiator 40, or is ignored or refused. -/
def execMemAccess (go write : Bool) (addr : Fin 0x10000000000) (data : BitVec 32)
    (s : State) : Host.Outcome State Fault Refusal :=
  .next (s.memAccess go write addr.val data.toNat)

/-- R567: TRST_N low resets the test access port and returns pins to function. -/
def execTapReset (s : State) : Host.Outcome State Fault Refusal := .next (s.tapReset)

/-- R640: A write of 1 to DBG_TRACE_CMD.clear empties the trace buffer and clears stopped. -/
def execTraceClear (s : State) : Host.Outcome State Fault Refusal := .next (s.live fun s => s.traceClear)

end Sys2Proof.Machine
end

