-- ==== Sys2Proof/Machine/RowsRing.lean ====
section
/-! DEFINITION. The commands of the debug unit's threads, the ring, the DMA channels, the scratchpad, the mailbox and the semaphores (15, 16; R428 to R475). -/

namespace Sys2Proof.Machine

/-- R638: A write of 1 to DBG_THR_CMD.resume moves a thread in DEBUG to RUN. -/
def execDebugResume (core : Fin 5) (thread : Fin 4) (s : State) : Host.Outcome State Fault Refusal :=
  .next (s.live fun s => s.debugResume (4 * core.val + thread.val))

/-! ### The ring -/

/-- R431: A READ request reaches its target, which returns READ_DATA. -/
def execRead (src : PktSrc) (v : Serve) (s : State) : Host.Outcome State Fault Refusal :=
  .next (s.live fun s => s.ringServe .read src v)

/-- R431: A WRITE request reaches its target, which writes and returns WRITE_ACK. -/
def execWrite (src : PktSrc) (v : Serve) (s : State) : Host.Outcome State Fault Refusal :=
  .next (s.live fun s => s.ringServe .write src v)

/-- R463: An AMOADD request at a scratchpad or mailbox bank reads and writes atomically and returns AMO_DATA. -/
def execRingAmoadd (src : PktSrc) (v : Serve) (s : State) : Host.Outcome State Fault Refusal :=
  .next (s.live fun s => s.ringServe .amoAdd src v)

/-- R463: An AMOSWAP request at a bank swaps atomically and returns AMO_DATA. -/
def execRingAmoswap (src : PktSrc) (v : Serve) (s : State) : Host.Outcome State Fault Refusal :=
  .next (s.live fun s => s.ringServe .amoSwap src v)

/-- R431: A posted write lands at its target without a response. -/
def execWriteP (landing : Bool) (src : PktSrc) (v : Serve) (s : State) : Host.Outcome State Fault Refusal :=
  .next (s.live fun s => if landing then s.offerLanding else s.ringServe .writeP src v)

/-- R431: An EVENT packet sets software event bits of the named thread. -/
def execEvent (src : PktSrc) (v : Serve) (s : State) : Host.Outcome State Fault Refusal :=
  .next (s.live fun s => s.ringEvent src v)

/-- R443: A read response reaches its initiator and frees the tag, or is discarded as stale. -/
def execReadData (k lat : Nat) (flits : List FlitCheck) (s : State) : Host.Outcome State Fault Refusal :=
  .next (s.live fun s => s.ringResponse (· == .read) k lat flits)

/-- R443: A write response reaches its initiator and frees the tag, or is discarded as stale. -/
def execWriteAck (k lat : Nat) (flits : List FlitCheck) (s : State) : Host.Outcome State Fault Refusal :=
  .next (s.live fun s => s.ringResponse (· == .write) k lat flits)

/-- R443: An AMO response reaches its initiator and frees the tag. -/
def execAmoData (k lat : Nat) (flits : List FlitCheck) (s : State) : Host.Outcome State Fault Refusal :=
  .next (s.live fun s => s.ringResponse (fun c => c == .amoAdd || c == .amoSwap) k lat flits)

/-- R597: The error queue takes a report, coalesces or stores it, or refuses it when full. -/
def execErrorReport (page : Fin 32) (core : Fin 5) (t : Nat) (flits : List FlitCheck)
    (s : State) : Host.Outcome State Fault Refusal :=
  .next (s.onReports page.val core.val fun s => s.errorReport page.val core.val t flits)

/-- R445: A stop holding a packet for a sleeping target sends a wake request to the power manager. -/
def execWakeReq (d : Fin 32) (flits : List FlitCheck) (s : State) : Host.Outcome State Fault Refusal :=
  .next (s.alive fun s => s.wakeReq d.val flits)

/-- R445: A woken stop announces it can take packets and held packets are injected. -/
def execWakeDone (d : Fin 32) (flits : List (Fin 32 × List FlitCheck)) (s : State) : Host.Outcome State Fault Refusal :=
  .next (s.live fun s => s.wakeDone d.val flits)

/-- R443: A transaction without a response after RNG_TIMEOUT completes as an error and its tag is retired. -/
def execRingTimeout (k : Nat) (s : State) : Host.Outcome State Fault Refusal :=
  .next (s.live fun s => s.ringTimeout k)

/-- R434: A write to RNG_ROUTE changes a route after earlier transactions complete, or is refused. -/
def execRouteWrite (stop : Fin 32) (entry : Fin 64) (mask value : BitVec 32)
    (s : State) : Host.Outcome State Fault Refusal :=
  .next (s.live fun s => s.writeRoute stop.val entry.val mask.toNat value.toNat)

/-- R439: A write to RNG_INI_GUAR or its mask is refused when a link's guaranteed load would exceed 60 GB/s. -/
def execGuarWrite (ini : Fin 41) (stops : Bool) (mask value : BitVec 32)
    (s : State) : Host.Outcome State Fault Refusal :=
  .next (s.live fun s => s.writeGuar (0x4000 + 0x40 * ini.val + (if stops then 0x10 else 0xC)) mask.toNat value.toNat)

/-- R447: A master reset ends an initiator's packets, poisons cut packets, advances its epoch and frees its tags. -/
def execMasterReset (ini : Fin 41) (cut : Option Nat) (s : State) : Host.Outcome State Fault Refusal :=
  .next (s.live fun s => s.masterResetAt ini.val cut)

/-- R447: A freed tag rejoins the pool after 4,096 ring cycles. -/
def execTagHoldExpiry (k : Nat) (s : State) : Host.Outcome State Fault Refusal :=
  .next (s.live fun s => s.tagReturns k)

/-- R449: A read of RNG_INI_LAT_SUM clears it with the response count and latches that count. -/
def execLatSumRead (ini i : Fin 41) (s : State) : Host.Outcome State Fault Refusal :=
  .next (s.regRead ini.val 11 (0x4000 + 0x40 * i.val + 0x28) 4)

/-! ### DMA -/

/-- R452: A write of 1 to RNG_DMA_CTRL.start runs the descriptor chain, or is refused. -/
def execDmaStart (n : Fin 16) (s : State) : Host.Outcome State Fault Refusal :=
  .next (s.live fun s => s.dmaStart n.val)

/-- R453: A write of 1 to RNG_DMA_CTRL.abort stops the chain before its last write, or is too late. -/
def execDmaAbort (n : Fin 16) (s : State) : Host.Outcome State Fault Refusal :=
  .next (s.live fun s => s.dmaAbort n.val)

/-- R452: A write of 1 to RNG_DMA_CTRL.resume continues a paused chain. -/
def execDmaResume (n : Fin 16) (s : State) : Host.Outcome State Fault Refusal :=
  .next (s.live fun s => s.dmaResume n.val)

/-- R451: A descriptor's writes are acknowledged; the channel fetches the next, pauses or finishes and signals its
thread. -/
def execDmaDescriptorComplete (n : Fin 16) (s : State) : Host.Outcome State Fault Refusal :=
  .next (s.live fun s => s.dmaDescriptorComplete n.val)

/-! ### Scratchpad and mailbox -/

/-- R464: The scratchpad scrubber reads a row and corrects or reports errors. -/
def execSpdPatrolScrub (o : Fin 0x800000) (e : Codeword) (stall : Nat) (s : State) : Host.Outcome State Fault Refusal :=
  .next (s.live fun s => s.spdScrub o.val e stall)

/-- R465: The banks finish clearing after power returns and the stop sends WAKE_DONE. -/
def execSpdClearComplete (s : State) : Host.Outcome State Fault Refusal :=
  .next (s.live fun s => s.spdClearComplete)

/-- R467: The keeper accesses the mailbox through port K with the collision rules against port R. -/
def execMailboxKeeperAccess (o : Codeword) (other : Option Nat) (v : Serve)
    (s : State) : Host.Outcome State Fault Refusal :=
  .next (s.alive fun s => s.mailboxKeeper o other v)

/-- R466: The mailbox scrubber visits words and corrects or reports errors. -/
def execMailboxScrub (o : Fin 0x10000) (e : Codeword) (s : State) : Host.Outcome State Fault Refusal :=
  .next (s.powered fun s => s.mailboxScrub o.val e)

/-- R468: A write to SPD_MBX_DOORBELL sets event bit 19 of the named thread, or is refused. -/
def execMailboxDoorbell (ini : Fin 41) (mask value : BitVec 32) (s : State) : Host.Outcome State Fault Refusal :=
  .next (s.alive fun s => (s.doorbell ini.val mask.toNat value.toNat).1)

/-! ### Semaphores -/

/-- R469: SEM_REQ op TRY takes a free semaphore or reports busy. -/
def execSemTry (ini : Fin 41) (n : Fin 512) (s : State) : Host.Outcome State Fault Refusal :=
  .next (s.live fun s => s.semRequest ini.val n.val 1 0)

/-- R469: SEM_REQ op WAIT takes or queues a wait on a semaphore. -/
def execWait (ini : Fin 41) (n : Fin 512) (prio : Fin 8) (s : State) : Host.Outcome State Fault Refusal :=
  .next (s.live fun s => s.semRequest ini.val n.val 2 prio.val)

/-- R469: SEM_REQ op RELEASE frees the owner's semaphore and grants it to a waiter. -/
def execRelease (ini : Fin 41) (n : Fin 512) (s : State) : Host.Outcome State Fault Refusal :=
  .next (s.live fun s => s.semRequest ini.val n.val 3 0)

/-- R469: SEM_REQ op CANCEL removes a queued wait or reports too late. -/
def execCancel (ini : Fin 41) (n : Fin 512) (s : State) : Host.Outcome State Fault Refusal :=
  .next (s.live fun s => s.semRequest ini.val n.val 4 0)

/-- R469: SEM_REQ op RENEW restarts the owner's lease. -/
def execRenew (ini : Fin 41) (n : Fin 512) (s : State) : Host.Outcome State Fault Refusal :=
  .next (s.live fun s => s.semRequest ini.val n.val 5 0)

/-- R469: A SEM_REQ with an undefined op returns code 13. -/
def execBadOperation (ini : Fin 41) (n : Fin 512) (op : Fin 16) (prio : Fin 8)
    (s : State) : Host.Outcome State Fault Refusal :=
  .next (s.live fun s => s.semRequest ini.val n.val op.val prio.val)

/-- R474: A held semaphore's lease reaches 0 and the unit releases it and grants. -/
def execLeaseExpiry (n : Fin 512) (s : State) : Host.Outcome State Fault Refusal :=
  .next (s.live fun s => s.leaseExpiry n.val)

/-- R470: A write to SEM_ADMIN, SEM_GRP_USE or SEM_GRP_LEASE is refused without the admin right. -/
def execSemAdminWrite (ini : Fin 41) (off : Fin 65536) (mask value : BitVec 32)
    (s : State) : Host.Outcome State Fault Refusal :=
  .next (s.live fun s => (s.writeSemAdmin ini.val off.val mask.toNat value.toNat).1)

end Sys2Proof.Machine
end

