-- ==== Sys2Proof/Machine/RowsTiming.lean ====
section
/-! DEFINITION. The commands of Gnomon and of register accesses in general (00, 02; R4, R24 to R44, R644). -/

namespace Sys2Proof.Machine

/-- R4: A write to a CSR that has no row of its own acts on each field by its access code; reserved bits are ignored
and clamps or refusals apply. -/
def execRegisterWrite (ini : Fin 41) (page : Fin 256) (off : Fin 65536) (data : List (BitVec 8))
    (s : State) : Host.Outcome State Fault Refusal :=
  .next (s.regWrite ini.val page.val off.val data)

/-- R4: A read that covers a whole RC field returns its value and then clears it. -/
def execRcFieldRead (ini : Fin 41) (page : Fin 256) (off : Fin 65536) (len : Fin 9)
    (s : State) : Host.Outcome State Fault Refusal :=
  .next (s.regRead ini.val page.val off.val len.val)

/-- R36: A read of a _LO counter register copies the high part into the shared holding register that the matching _HI
register returns. -/
def execHoldingRegisterLatch (ini : Fin 41) (page : Fin 256) (off : Fin 65536)
    (s : State) : Host.Outcome State Fault Refusal :=
  .next (s.regRead ini.val page.val off.val 4)

/-- R24: Gnomon places a slot reference edge, tags a crossing and advances the serial, index and orbit. -/
def execSlotReferenceEdge (t : Nat) (meas : Option Nat) (s : State) : Host.Outcome State Fault Refusal :=
  .next (s.live fun s => s.slotEdge t meas)

/-- R28: A write to GNO_CTRL.enable moves Gnomon to OFF or from OFF to ACQUIRE. -/
def execGnomonEnableWrite (t : Nat) (enable : Bool) (s : State) : Host.Outcome State Fault Refusal :=
  .next (s.live fun s => s.writeGnoCtrl t 1 (b2n enable))

/-- R28: After 4,096 good edges with the PLL locked, Gnomon enters UNNUMBERED and publishes the slot periods. -/
def execAcquisitionComplete (t : Nat) (s : State) : Host.Outcome State Fault Refusal :=
  .next (s.live fun s => s.acquired t)

/-- R28: Four missing or misplaced edges, or a frequency outside the window, send Gnomon to HOLDOVER or LOST. -/
def execXclkLoss (t : Nat) (freq : Bool) (s : State) : Host.Outcome State Fault Refusal :=
  .next (s.live fun s => s.xclkLoss t freq)

/-- R28: Sixty-four consecutive good edges return Gnomon from HOLDOVER to RUNNING without a break in numbering. -/
def execHoldoverRecovery (s : State) : Host.Outcome State Fault Refusal :=
  .next (s.live fun s => s.holdoverRecovery)

/-- R28: GNO_HOLDOVER.limit slots in HOLDOVER send Gnomon to LOST. -/
def execHoldoverLimitExpiry (t : Nat) (s : State) : Host.Outcome State Fault Refusal :=
  .next (s.live fun s => s.holdoverExpiry t)

/-- R28: With auto_relock set and edges present, Gnomon leaves LOST for ACQUIRE. -/
def execLostAutoRelock (t : Nat) (s : State) : Host.Outcome State Fault Refusal :=
  .next (s.live fun s => s.relock t true)

/-- R28: A write of 1 to GNO_CMD.reacquire moves Gnomon from LOST to ACQUIRE. -/
def execReacquire (t : Nat) (s : State) : Host.Outcome State Fault Refusal :=
  .next (s.live fun s => s.relock t false)

/-- R43: A write of 1 to GNO_CMD.cancel_named cancels every pending named-slot action and reports each to its owner.
-/
def execCancelNamed (s : State) : Host.Outcome State Fault Refusal := .next (s.live fun s => s.cancelCommand)

/-- R38: A write to GNO_FC_INJECT queues a command word for the next edge at which the facet presents NONE, or is
refused as a collision. -/
def execFcInject (word : BitVec 16) (s : State) : Host.Outcome State Fault Refusal :=
  .next (s.live fun s => s.fcInject word.toNat)

/-- R32: At its effect barrier an ORBIT_MARK numbers the timeline or is checked for alignment and counted as a
mismatch. -/
def execOrbitMark (s : State) : Host.Outcome State Fault Refusal := .next (s.live fun s => s.orbitMark)

/-- R40: At its effect barrier an external accept names the crossing S minus the accept latency and is taken or
refused. -/
def execAccept (s : State) : Host.Outcome State Fault Refusal := .next (s.live fun s => s.externalAccept)

/-- R37: At its effect barrier the event counter is set to 0. -/
def execEventReset (s : State) : Host.Outcome State Fault Refusal := .next (s.live fun s => s.eventReset)

/-- R644: At its effect barrier an ORBIT_RESET arms the reset of the orbit number. -/
def execOrbitReset (s : State) : Host.Outcome State Fault Refusal := .next (s.live fun s => s.orbitReset)

/-- R644: An armed orbit reset acts at the next index-0 crossing, gives it orbit 0 and records a discontinuity at the
following barrier. -/
def execOrbitResetAct (s : State) : Host.Outcome State Fault Refusal :=
  .next (s.live fun s => s.orbitResetAct)

/-- R37: At its effect barrier a RESYNC makes the next ORBIT_MARK number the timeline afresh. -/
def execResync (s : State) : Host.Outcome State Fault Refusal := .next (s.live fun s => s.resync)

/-- R37: At its effect barrier a calibration request goes to the sequencer edge detectors as an event. -/
def execCalReq (s : State) : Host.Outcome State Fault Refusal := .next (s.live fun s => s.forward 6)

/-- R37: At its effect barrier a user code USER0 to USER15 goes to the sequencer edge detectors as an event. -/
def execUserCommand (n : Fin 16) (s : State) : Host.Outcome State Fault Refusal :=
  .next (s.live fun s => s.forward (16 + n.val))

/-- R40: An internal accept from a released decision takes effect at the first barrier after the release. -/
def execInternalAccept (s : State) : Host.Outcome State Fault Refusal :=
  .next (s.live fun s => s.internalAccept)

/-- R163: At token arrival each island applies state transitions, its period, bank exchanges and due changes, then
runs three barrier cycles. -/
def execSlotBarrier (t : Nat) (ecc : EccMap) (s : State) : Host.Outcome State Fault Refusal :=
  .next (s.live fun s => s.slotBarrier t ecc)

end Sys2Proof.Machine
end

