-- ==== Sys2Proof/Machine/Dispatch.lean ====
section
/-! DEFINITION. The meaning of every command, one arm each. -/

namespace Sys2Proof.Machine

def exec (i : Instr) (s : State) : Host.Outcome State Fault Refusal :=
  match i with
  | .registerWrite ini page off data => Sys2Proof.Machine.execRegisterWrite ini page off data s
  | .rcFieldRead ini page off len => Sys2Proof.Machine.execRcFieldRead ini page off len s
  | .holdingRegisterLatch ini page off => Sys2Proof.Machine.execHoldingRegisterLatch ini page off s
  | .slotReferenceEdge t meas => Sys2Proof.Machine.execSlotReferenceEdge t meas s
  | .gnomonEnableWrite t enable => Sys2Proof.Machine.execGnomonEnableWrite t enable s
  | .acquisitionComplete t => Sys2Proof.Machine.execAcquisitionComplete t s
  | .xclkLoss t freq => Sys2Proof.Machine.execXclkLoss t freq s
  | .holdoverRecovery => Sys2Proof.Machine.execHoldoverRecovery s
  | .holdoverLimitExpiry t => Sys2Proof.Machine.execHoldoverLimitExpiry t s
  | .lostAutoRelock t => Sys2Proof.Machine.execLostAutoRelock t s
  | .reacquire t => Sys2Proof.Machine.execReacquire t s
  | .cancelNamed => Sys2Proof.Machine.execCancelNamed s
  | .fcInject word => Sys2Proof.Machine.execFcInject word s
  | .orbitMark => Sys2Proof.Machine.execOrbitMark s
  | .accept => Sys2Proof.Machine.execAccept s
  | .eventReset => Sys2Proof.Machine.execEventReset s
  | .orbitReset => Sys2Proof.Machine.execOrbitReset s
  | .orbitResetAct => Sys2Proof.Machine.execOrbitResetAct s
  | .resync => Sys2Proof.Machine.execResync s
  | .calReq => Sys2Proof.Machine.execCalReq s
  | .userCommand n => Sys2Proof.Machine.execUserCommand n s
  | .internalAccept => Sys2Proof.Machine.execInternalAccept s
  | .slotBarrier t ecc => Sys2Proof.Machine.execSlotBarrier t ecc s
  | .islandArrive i0 t late => Sys2Proof.Machine.execIslandArrive i0 t late s
  | .barrierTimeout i0 => Sys2Proof.Machine.execBarrierTimeout i0 s
  | .islandClockSlow i0 period => Sys2Proof.Machine.execIslandClockSlow i0 period s
  | .islandClockUnlock i0 => Sys2Proof.Machine.execIslandClockUnlock i0 s
  | .islandClockRelock i0 => Sys2Proof.Machine.execIslandClockRelock i0 s
  | .clearingComplete i0 => Sys2Proof.Machine.execClearingComplete i0 s
  | .islandOff i0 => Sys2Proof.Machine.execIslandOff i0 s
  | .islandOn i0 => Sys2Proof.Machine.execIslandOn i0 s
  | .islandQuarantine i0 => Sys2Proof.Machine.execIslandQuarantine i0 s
  | .applyMap i0 => Sys2Proof.Machine.execApplyMap i0 s
  | .islandMapWrite i0 mask value => Sys2Proof.Machine.execIslandMapWrite i0 mask value s
  | .edgeConfigWrite whalo mask value => Sys2Proof.Machine.execEdgeConfigWrite whalo mask value s
  | .epochBump => Sys2Proof.Machine.execEpochBump s
  | .reloadStart i0 => Sys2Proof.Machine.execReloadStart i0 s
  | .reloadComplete i0 i1 => Sys2Proof.Machine.execReloadComplete i0 i1 s
  | .reloadFetchError i0 => Sys2Proof.Machine.execReloadFetchError i0 s
  | .reloadAbort i0 => Sys2Proof.Machine.execReloadAbort i0 s
  | .autoReload i0 => Sys2Proof.Machine.execAutoReload i0 s
  | .microwordIssue halo queue => Sys2Proof.Machine.execMicrowordIssue halo queue s
  | .waitRelease cycles halo queue => Sys2Proof.Machine.execWaitRelease cycles halo queue s
  | .waitTimeout halo queue => Sys2Proof.Machine.execWaitTimeout halo queue s
  | .seqNext => Sys2Proof.Machine.execSeqNext s
  | .jump target => Sys2Proof.Machine.execJump target s
  | .jif cond target => Sys2Proof.Machine.execJif cond target s
  | .jifn cond target => Sys2Proof.Machine.execJifn cond target s
  | .seqCall target => Sys2Proof.Machine.execSeqCall target s
  | .pcall a b w bsrc src imm target => Sys2Proof.Machine.execPcall a b w bsrc src imm target s
  | .seqRet => Sys2Proof.Machine.execSeqRet s
  | .loop lc target => Sys2Proof.Machine.execLoop lc target s
  | .stageEnd => Sys2Proof.Machine.execStageEnd s
  | .yield => Sys2Proof.Machine.execYield s
  | .bgEnd => Sys2Proof.Machine.execBgEnd s
  | .scNop => Sys2Proof.Machine.execScNop s
  | .ldi d imm => Sys2Proof.Machine.execLdi d imm s
  | .ldih d imm => Sys2Proof.Machine.execLdih d imm s
  | .scAddi d src imm => Sys2Proof.Machine.execScAddi d src imm s
  | .mov d src => Sys2Proof.Machine.execMov d src s
  | .subr d src imm => Sys2Proof.Machine.execSubr d src imm s
  | .scAndi d src imm => Sys2Proof.Machine.execScAndi d src imm s
  | .bcnt d src => Sys2Proof.Machine.execBcnt d src s
  | .bfirst d src => Sys2Proof.Machine.execBfirst d src s
  | .lci d imm => Sys2Proof.Machine.execLci d imm s
  | .lcw d src imm => Sys2Proof.Machine.execLcw d src imm s
  | .cmp src imm => Sys2Proof.Machine.execCmp src imm s
  | .seqTimerExpiry t => Sys2Proof.Machine.execSeqTimerExpiry t s
  | .seqTimerStart t => Sys2Proof.Machine.execSeqTimerStart t s
  | .seqTimerStop t => Sys2Proof.Machine.execSeqTimerStop t s
  | .seqTimerLoad t => Sys2Proof.Machine.execSeqTimerLoad t s
  | .bgAbort => Sys2Proof.Machine.execBgAbort s
  | .cstoreEccError word double => Sys2Proof.Machine.execCstoreEccError word double s
  | .programLoad => Sys2Proof.Machine.execProgramLoad s
  | .programLoadDone => Sys2Proof.Machine.execProgramLoadDone s
  | .loadAbort => Sys2Proof.Machine.execLoadAbort s
  | .exchangeArm => Sys2Proof.Machine.execExchangeArm s
  | .exchangeCancel => Sys2Proof.Machine.execExchangeCancel s
  | .penumbraExchange => Sys2Proof.Machine.execPenumbraExchange s
  | .promiseWrite mask value => Sys2Proof.Machine.execPromiseWrite mask value s
  | .commitSetArm n => Sys2Proof.Machine.execCommitSetArm n s
  | .commitSetAbort n => Sys2Proof.Machine.execCommitSetAbort n s
  | .commitSetClear n => Sys2Proof.Machine.execCommitSetClear n s
  | .commitSetFire n => Sys2Proof.Machine.execCommitSetFire n s
  | .admissionRerun => Sys2Proof.Machine.execAdmissionRerun s
  | .admissionComplete => Sys2Proof.Machine.execAdmissionComplete s
  | .marginPlanApply => Sys2Proof.Machine.execMarginPlanApply s
  | .beaconSettle removed => Sys2Proof.Machine.execBeaconSettle removed s
  | .lateDecision removed => Sys2Proof.Machine.execLateDecision removed s
  | .launchInstant => Sys2Proof.Machine.execLaunchInstant s
  | .glintPulseEnd n => Sys2Proof.Machine.execGlintPulseEnd n s
  | .busyEvaluate => Sys2Proof.Machine.execBusyEvaluate s
  | .busyMinExpiry => Sys2Proof.Machine.execBusyMinExpiry s
  | .laneCtrlWrite n mask value => Sys2Proof.Machine.execLaneCtrlWrite n mask value s
  | .lanePllLock n => Sys2Proof.Machine.execLanePllLock n s
  | .signalDetect n => Sys2Proof.Machine.execSignalDetect n s
  | .laneLockDone n ctle dfe1 => Sys2Proof.Machine.execLaneLockDone n ctle dfe1 s
  | .lockTimeout n => Sys2Proof.Machine.execLockTimeout n s
  | .signalLost n => Sys2Proof.Machine.execSignalLost n s
  | .cdrLost n => Sys2Proof.Machine.execCdrLost n s
  | .adaptRestart n => Sys2Proof.Machine.execAdaptRestart n s
  | .txFfeWrite n mask value => Sys2Proof.Machine.execTxFfeWrite n mask value s
  | .eyeScanStart n => Sys2Proof.Machine.execEyeScanStart n s
  | .eyeScanDone lane height width => Sys2Proof.Machine.execEyeScanDone lane height width s
  | .identityRecord n => Sys2Proof.Machine.execIdentityRecord n s
  | .telemetryRecord n => Sys2Proof.Machine.execTelemetryRecord n s
  | .setpointAcknowledgement n => Sys2Proof.Machine.execSetpointAcknowledgement n s
  | .userFrame n => Sys2Proof.Machine.execUserFrame n s
  | .identityTimeout n => Sys2Proof.Machine.execIdentityTimeout n s
  | .scTxSend n => Sys2Proof.Machine.execScTxSend n s
  | .scTxAbort n => Sys2Proof.Machine.execScTxAbort n s
  | .downlinkSlot n extra => Sys2Proof.Machine.execDownlinkSlot n extra s
  | .dlWindowWrite n window mask value => Sys2Proof.Machine.execDlWindowWrite n window mask value s
  | .blockArrival n word => Sys2Proof.Machine.execBlockArrival n word s
  | .facetLogicCycle f pins us late strobe => Sys2Proof.Machine.execFacetLogicCycle f pins us late strobe s
  | .facetTimerExpiry f t => Sys2Proof.Machine.execFacetTimerExpiry f t s
  | .txWord n => Sys2Proof.Machine.execTxWord n s
  | .facetLoad f => Sys2Proof.Machine.execFacetLoad f s
  | .facetLoadDone f => Sys2Proof.Machine.execFacetLoadDone f s
  | .facetActivate f => Sys2Proof.Machine.execFacetActivate f s
  | .facetAbort f => Sys2Proof.Machine.execFacetAbort f s
  | .facetHalt f => Sys2Proof.Machine.execFacetHalt f s
  | .facetResume f => Sys2Proof.Machine.execFacetResume f s
  | .facetCapture f => Sys2Proof.Machine.execFacetCapture f s
  | .facetSwitchEntry f => Sys2Proof.Machine.execFacetSwitchEntry f s
  | .facetSwitchComplete f => Sys2Proof.Machine.execFacetSwitchComplete f s
  | .facetConfigScrub f shadow double => Sys2Proof.Machine.execFacetConfigScrub f shadow double s
  | .facetReadbackRead ini f => Sys2Proof.Machine.execFacetReadbackRead ini f s
  | .gpiPinWrite n mask value => Sys2Proof.Machine.execGpiPinWrite n mask value s
  | .vddioChange k code => Sys2Proof.Machine.execVddioChange k code s
  | .prismWord n t => Sys2Proof.Machine.execPrismWord n t s
  | .commitDeadline t => Sys2Proof.Machine.execCommitDeadline t s
  | .hbmPipelineWrite inTime => Sys2Proof.Machine.execHbmPipelineWrite inTime s
  | .prismApply => Sys2Proof.Machine.execPrismApply s
  | .prismAbort => Sys2Proof.Machine.execPrismAbort s
  | .slackReset => Sys2Proof.Machine.execSlackReset s
  | .prismApplyCommit => Sys2Proof.Machine.execPrismApplyCommit s
  | .sidePortRequest write addr len ini tag data => Sys2Proof.Machine.execSidePortRequest write addr len ini tag data s
  | .sidePortPerform => Sys2Proof.Machine.execSidePortPerform s
  | .linkConfigWrite l mask value => Sys2Proof.Machine.execLinkConfigWrite l mask value s
  | .linkLaneLoss l => Sys2Proof.Machine.execLinkLaneLoss l s
  | .linkTrained l => Sys2Proof.Machine.execLinkTrained l s
  | .linkTrainTimeout l => Sys2Proof.Machine.execLinkTrainTimeout l s
  | .ident l word => Sys2Proof.Machine.execIdent l word s
  | .slot l word t => Sys2Proof.Machine.execSlot l word t s
  | .markerLoss l => Sys2Proof.Machine.execMarkerLoss l s
  | .linkSlot l extra => Sys2Proof.Machine.execLinkSlot l extra s
  | .haloFrame j payload => Sys2Proof.Machine.execHaloFrame j payload s
  | .worgaFrame j words room => Sys2Proof.Machine.execWorgaFrame j words room s
  | .worgaTxSend => Sys2Proof.Machine.execWorgaTxSend s
  | .worgaTxAbort tag => Sys2Proof.Machine.execWorgaTxAbort tag s
  | .epochApply => Sys2Proof.Machine.execEpochApply s
  | .epochAbort => Sys2Proof.Machine.execEpochAbort s
  | .epochFire => Sys2Proof.Machine.execEpochFire s
  | .beaconTreeConfig off mask value => Sys2Proof.Machine.execBeaconTreeConfig off mask value s
  | .beaconOwnResult t => Sys2Proof.Machine.execBeaconOwnResult t s
  | .beaconCellUp n w0 w1 w2 t => Sys2Proof.Machine.execBeaconCellUp n w0 w1 w2 t s
  | .beaconKeyClose i0 t => Sys2Proof.Machine.execBeaconKeyClose i0 t s
  | .beaconCellDown n w0 w1 w2 t => Sys2Proof.Machine.execBeaconCellDown n w0 w1 w2 t s
  | .sysResultRead ini => Sys2Proof.Machine.execSysResultRead ini s
  | .hbmInitComplete k => Sys2Proof.Machine.execHbmInitComplete k s
  | .hbmInitFail k => Sys2Proof.Machine.execHbmInitFail k s
  | .hbmFault k => Sys2Proof.Machine.execHbmFault k s
  | .hbmRestart => Sys2Proof.Machine.execHbmRestart s
  | .hbmPatrolScrub addr o => Sys2Proof.Machine.execHbmPatrolScrub addr o s
  | .pipeCtrlWrite mask value => Sys2Proof.Machine.execPipeCtrlWrite mask value s
  | .xferStart t ecc => Sys2Proof.Machine.execXferStart t ecc s
  | .xferAbort t => Sys2Proof.Machine.execXferAbort t s
  | .readoutBeaconEntry system => Sys2Proof.Machine.execReadoutBeaconEntry system s
  | .eventReady t => Sys2Proof.Machine.execEventReady t s
  | .eventGather ecc => Sys2Proof.Machine.execEventGather ecc s
  | .eventAssembled => Sys2Proof.Machine.execEventAssembled s
  | .readoutFrameSend t => Sys2Proof.Machine.execReadoutFrameSend t s
  | .readoutApply => Sys2Proof.Machine.execReadoutApply s
  | .portConfigWrite k mask value => Sys2Proof.Machine.execPortConfigWrite k mask value s
  | .portLinkUp k => Sys2Proof.Machine.execPortLinkUp k s
  | .portPcsLoss k => Sys2Proof.Machine.execPortPcsLoss k s
  | .arpRequestTimer k => Sys2Proof.Machine.execArpRequestTimer k s
  | .arpTimeout k => Sys2Proof.Machine.execArpTimeout k s
  | .arpReply k ip mac target => Sys2Proof.Machine.execArpReply k ip mac target s
  | .arpRequest k ip mac target => Sys2Proof.Machine.execArpRequest k ip mac target s
  | .icmpEchoRequest k t mac ip target rest => Sys2Proof.Machine.execIcmpEchoRequest k t mac ip target rest s
  | .portFrameDiscard k bad => Sys2Proof.Machine.execPortFrameDiscard k bad s
  | .add u rd ra rb => Sys2Proof.Machine.execAdd u rd ra rb s
  | .sub u rd ra rb => Sys2Proof.Machine.execSub u rd ra rb s
  | .and u rd ra rb => Sys2Proof.Machine.execAnd u rd ra rb s
  | .or u rd ra rb => Sys2Proof.Machine.execOr u rd ra rb s
  | .xor u rd ra rb => Sys2Proof.Machine.execXor u rd ra rb s
  | .sll u rd ra rb => Sys2Proof.Machine.execSll u rd ra rb s
  | .srl u rd ra rb => Sys2Proof.Machine.execSrl u rd ra rb s
  | .sra u rd ra rb => Sys2Proof.Machine.execSra u rd ra rb s
  | .slt u rd ra rb => Sys2Proof.Machine.execSlt u rd ra rb s
  | .sltu u rd ra rb => Sys2Proof.Machine.execSltu u rd ra rb s
  | .min u rd ra rb => Sys2Proof.Machine.execMin u rd ra rb s
  | .max u rd ra rb => Sys2Proof.Machine.execMax u rd ra rb s
  | .minu u rd ra rb => Sys2Proof.Machine.execMinu u rd ra rb s
  | .maxu u rd ra rb => Sys2Proof.Machine.execMaxu u rd ra rb s
  | .clz u rd ra => Sys2Proof.Machine.execClz u rd ra s
  | .ctz u rd ra => Sys2Proof.Machine.execCtz u rd ra s
  | .popc u rd ra => Sys2Proof.Machine.execPopc u rd ra s
  | .bswap u rd ra => Sys2Proof.Machine.execBswap u rd ra s
  | .sextb u rd ra => Sys2Proof.Machine.execSextb u rd ra s
  | .sexth u rd ra => Sys2Proof.Machine.execSexth u rd ra s
  | .andn u rd ra rb => Sys2Proof.Machine.execAndn u rd ra rb s
  | .rotr u rd ra rb => Sys2Proof.Machine.execRotr u rd ra rb s
  | .slli u rd ra sh => Sys2Proof.Machine.execSlli u rd ra sh s
  | .srli u rd ra sh => Sys2Proof.Machine.execSrli u rd ra sh s
  | .srai u rd ra sh => Sys2Proof.Machine.execSrai u rd ra sh s
  | .rotri u rd ra sh => Sys2Proof.Machine.execRotri u rd ra sh s
  | .addi u rd ra imm => Sys2Proof.Machine.execAddi u rd ra imm s
  | .andi u rd ra imm => Sys2Proof.Machine.execAndi u rd ra imm s
  | .ori u rd ra imm => Sys2Proof.Machine.execOri u rd ra imm s
  | .xori u rd ra imm => Sys2Proof.Machine.execXori u rd ra imm s
  | .slti u rd ra imm => Sys2Proof.Machine.execSlti u rd ra imm s
  | .sltiu u rd ra imm => Sys2Proof.Machine.execSltiu u rd ra imm s
  | .lui u rd imm => Sys2Proof.Machine.execLui u rd imm s
  | .addpc u rd imm => Sys2Proof.Machine.execAddpc u rd imm s
  | .lb u rd ra imm => Sys2Proof.Machine.execLb u rd ra imm s
  | .lbu u rd ra imm => Sys2Proof.Machine.execLbu u rd ra imm s
  | .lh u rd ra imm => Sys2Proof.Machine.execLh u rd ra imm s
  | .lhu u rd ra imm => Sys2Proof.Machine.execLhu u rd ra imm s
  | .lw u rd ra imm => Sys2Proof.Machine.execLw u rd ra imm s
  | .ldp u rd ra imm => Sys2Proof.Machine.execLdp u rd ra imm s
  | .flw u fd ra imm => Sys2Proof.Machine.execFlw u fd ra imm s
  | .fld u fd ra imm => Sys2Proof.Machine.execFld u fd ra imm s
  | .sb u rs ra imm => Sys2Proof.Machine.execSb u rs ra imm s
  | .sh u rs ra imm => Sys2Proof.Machine.execSh u rs ra imm s
  | .sw u rs ra imm => Sys2Proof.Machine.execSw u rs ra imm s
  | .stp u rs ra imm => Sys2Proof.Machine.execStp u rs ra imm s
  | .fsw u fs ra imm => Sys2Proof.Machine.execFsw u fs ra imm s
  | .fsd u fs ra imm => Sys2Proof.Machine.execFsd u fs ra imm s
  | .amoadd u rd ra rb => Sys2Proof.Machine.execAmoadd u rd ra rb s
  | .amoswap u rd ra rb => Sys2Proof.Machine.execAmoswap u rd ra rb s
  | .beq u ra rb disp => Sys2Proof.Machine.execBeq u ra rb disp s
  | .bne u ra rb disp => Sys2Proof.Machine.execBne u ra rb disp s
  | .blt u ra rb disp => Sys2Proof.Machine.execBlt u ra rb disp s
  | .bge u ra rb disp => Sys2Proof.Machine.execBge u ra rb disp s
  | .bltu u ra rb disp => Sys2Proof.Machine.execBltu u ra rb disp s
  | .bgeu u ra rb disp => Sys2Proof.Machine.execBgeu u ra rb disp s
  | .jmp u disp => Sys2Proof.Machine.execJmp u disp s
  | .call u disp => Sys2Proof.Machine.execCall u disp s
  | .mul u rd ra rb => Sys2Proof.Machine.execMul u rd ra rb s
  | .mulhs u rd ra rb => Sys2Proof.Machine.execMulhs u rd ra rb s
  | .mulhu u rd ra rb => Sys2Proof.Machine.execMulhu u rd ra rb s
  | .divs u rd ra rb => Sys2Proof.Machine.execDivs u rd ra rb s
  | .divu u rd ra rb => Sys2Proof.Machine.execDivu u rd ra rb s
  | .rems u rd ra rb => Sys2Proof.Machine.execRems u rd ra rb s
  | .remu u rd ra rb => Sys2Proof.Machine.execRemu u rd ra rb s
  | .dividerDone core thread => Sys2Proof.Machine.execDividerDone core thread s
  | .wopen u => Sys2Proof.Machine.execWopen u s
  | .wclose u => Sys2Proof.Machine.execWclose u s
  | .spill u => Sys2Proof.Machine.execSpill u s
  | .fill u => Sys2Proof.Machine.execFill u s
  | .jr u ra => Sys2Proof.Machine.execJr u ra s
  | .callr u ra => Sys2Proof.Machine.execCallr u ra s
  | .ret u => Sys2Proof.Machine.execRet u s
  | .retc u => Sys2Proof.Machine.execRetc u s
  | .trap u code => Sys2Proof.Machine.execTrap u code s
  | .tret u => Sys2Proof.Machine.execTret u s
  | .fence u => Sys2Proof.Machine.execFence u s
  | .fsync u => Sys2Proof.Machine.execFsync u s
  | .mfc u rd ccr => Sys2Proof.Machine.execMfc u rd ccr s
  | .mtc u ccr ra => Sys2Proof.Machine.execMtc u ccr ra s
  | .waite u rd ra => Sys2Proof.Machine.execWaite u rd ra s
  | .sige u ra rb => Sys2Proof.Machine.execSige u ra rb s
  | .brk u => Sys2Proof.Machine.execBrk u s
  | .fadd u fd fa fb rm dbl => Sys2Proof.Machine.execFadd u fd fa fb rm dbl s
  | .fsub u fd fa fb rm dbl => Sys2Proof.Machine.execFsub u fd fa fb rm dbl s
  | .fmul u fd fa fb rm dbl => Sys2Proof.Machine.execFmul u fd fa fb rm dbl s
  | .fdiv u fd fa fb rm dbl => Sys2Proof.Machine.execFdiv u fd fa fb rm dbl s
  | .fsqrt u fd fa rm dbl => Sys2Proof.Machine.execFsqrt u fd fa rm dbl s
  | .fmin u fd fa fb dbl => Sys2Proof.Machine.execFmin u fd fa fb dbl s
  | .fmax u fd fa fb dbl => Sys2Proof.Machine.execFmax u fd fa fb dbl s
  | .feq u rd fa fb dbl => Sys2Proof.Machine.execFeq u rd fa fb dbl s
  | .flt u rd fa fb dbl => Sys2Proof.Machine.execFlt u rd fa fb dbl s
  | .fle u rd fa fb dbl => Sys2Proof.Machine.execFle u rd fa fb dbl s
  | .fclass u rd fa dbl => Sys2Proof.Machine.execFclass u rd fa dbl s
  | .fcvtw u rd fa rm dbl => Sys2Proof.Machine.execFcvtw u rd fa rm dbl s
  | .fcvtwu u rd fa rm dbl => Sys2Proof.Machine.execFcvtwu u rd fa rm dbl s
  | .fcvtfw u fd ra rm dbl => Sys2Proof.Machine.execFcvtfw u fd ra rm dbl s
  | .fcvtfwu u fd ra rm dbl => Sys2Proof.Machine.execFcvtfwu u fd ra rm dbl s
  | .fcvtp u fd fa rm dbl => Sys2Proof.Machine.execFcvtp u fd fa rm dbl s
  | .fmvtoi u rd fa high => Sys2Proof.Machine.execFmvtoi u rd fa high s
  | .fmvfromi u fd ra high => Sys2Proof.Machine.execFmvfromi u fd ra high s
  | .fneg u fd fa dbl => Sys2Proof.Machine.execFneg u fd fa dbl s
  | .fabs u fd fa dbl => Sys2Proof.Machine.execFabs u fd fa dbl s
  | .fcopysign u fd fa fb dbl => Sys2Proof.Machine.execFcopysign u fd fa fb dbl s
  | .fmadd u fd fa fb fc rm dbl => Sys2Proof.Machine.execFmadd u fd fa fb fc rm dbl s
  | .fmsub u fd fa fb fc rm dbl => Sys2Proof.Machine.execFmsub u fd fa fb fc rm dbl s
  | .fnmadd u fd fa fb fc rm dbl => Sys2Proof.Machine.execFnmadd u fd fa fb fc rm dbl s
  | .fnmsub u fd fa fb fc rm dbl => Sys2Proof.Machine.execFnmsub u fd fa fb fc rm dbl s
  | .fpComplete core thread k => Sys2Proof.Machine.execFpComplete core thread k s
  | .impreciseTrap core thread late => Sys2Proof.Machine.execImpreciseTrap core thread late s
  | .threadStart core thread => Sys2Proof.Machine.execThreadStart core thread s
  | .threadStop core thread => Sys2Proof.Machine.execThreadStop core thread s
  | .threadWake core thread => Sys2Proof.Machine.execThreadWake core thread s
  | .threadEventsWrite core thread events => Sys2Proof.Machine.execThreadEventsWrite core thread events s
  | .threadTimerStart core thread => Sys2Proof.Machine.execThreadTimerStart core thread s
  | .threadTimerStop core thread => Sys2Proof.Machine.execThreadTimerStop core thread s
  | .threadTimerExpiry core thread => Sys2Proof.Machine.execThreadTimerExpiry core thread s
  | .starvationIssue core thread => Sys2Proof.Machine.execStarvationIssue core thread s
  | .blackout => Sys2Proof.Machine.execBlackout s
  | .debugResume core thread => Sys2Proof.Machine.execDebugResume core thread s
  | .read src v => Sys2Proof.Machine.execRead src v s
  | .write src v => Sys2Proof.Machine.execWrite src v s
  | .ringAmoadd src v => Sys2Proof.Machine.execRingAmoadd src v s
  | .ringAmoswap src v => Sys2Proof.Machine.execRingAmoswap src v s
  | .writeP landing src v => Sys2Proof.Machine.execWriteP landing src v s
  | .event src v => Sys2Proof.Machine.execEvent src v s
  | .readData k lat flit => Sys2Proof.Machine.execReadData k lat flit s
  | .writeAck k lat flit => Sys2Proof.Machine.execWriteAck k lat flit s
  | .amoData k lat flit => Sys2Proof.Machine.execAmoData k lat flit s
  | .errorReport page core t flits => Sys2Proof.Machine.execErrorReport page core t flits s
  | .wakeReq d flits => Sys2Proof.Machine.execWakeReq d flits s
  | .wakeDone d flits => Sys2Proof.Machine.execWakeDone d flits s
  | .ringTimeout k => Sys2Proof.Machine.execRingTimeout k s
  | .routeWrite stop entry mask value => Sys2Proof.Machine.execRouteWrite stop entry mask value s
  | .guarWrite ini stops mask value => Sys2Proof.Machine.execGuarWrite ini stops mask value s
  | .masterReset ini cut => Sys2Proof.Machine.execMasterReset ini cut s
  | .tagHoldExpiry k => Sys2Proof.Machine.execTagHoldExpiry k s
  | .latSumRead ini i0 => Sys2Proof.Machine.execLatSumRead ini i0 s
  | .dmaStart n => Sys2Proof.Machine.execDmaStart n s
  | .dmaAbort n => Sys2Proof.Machine.execDmaAbort n s
  | .dmaResume n => Sys2Proof.Machine.execDmaResume n s
  | .dmaDescriptorComplete n => Sys2Proof.Machine.execDmaDescriptorComplete n s
  | .spdPatrolScrub o e stall => Sys2Proof.Machine.execSpdPatrolScrub o e stall s
  | .spdClearComplete => Sys2Proof.Machine.execSpdClearComplete s
  | .mailboxKeeperAccess o other v => Sys2Proof.Machine.execMailboxKeeperAccess o other v s
  | .mailboxScrub o e => Sys2Proof.Machine.execMailboxScrub o e s
  | .mailboxDoorbell ini mask value => Sys2Proof.Machine.execMailboxDoorbell ini mask value s
  | .semTry ini n => Sys2Proof.Machine.execSemTry ini n s
  | .wait ini n prio => Sys2Proof.Machine.execWait ini n prio s
  | .release ini n => Sys2Proof.Machine.execRelease ini n s
  | .cancel ini n => Sys2Proof.Machine.execCancel ini n s
  | .renew ini n => Sys2Proof.Machine.execRenew ini n s
  | .badOperation ini n op prio => Sys2Proof.Machine.execBadOperation ini n op prio s
  | .leaseExpiry n => Sys2Proof.Machine.execLeaseExpiry n s
  | .semAdminWrite ini off mask value => Sys2Proof.Machine.execSemAdminWrite ini off mask value s
  | .usdoRequest index sub op => Sys2Proof.Machine.execUsdoRequest index sub op s
  | .usdoSegment op => Sys2Proof.Machine.execUsdoSegment op s
  | .usdoAbort index sub => Sys2Proof.Machine.execUsdoAbort index sub s
  | .usdoTimeout => Sys2Proof.Machine.execUsdoTimeout s
  | .rpdo n data => Sys2Proof.Machine.execRpdo n data s
  | .tpdoEventTimer n t => Sys2Proof.Machine.execTpdoEventTimer n t s
  | .heartbeat => Sys2Proof.Machine.execHeartbeat s
  | .nmtStart => Sys2Proof.Machine.execNmtStart s
  | .nmtStop => Sys2Proof.Machine.execNmtStop s
  | .nmtEnterPreoperational => Sys2Proof.Machine.execNmtEnterPreoperational s
  | .nmtResetNode => Sys2Proof.Machine.execNmtResetNode s
  | .nmtResetCommunication => Sys2Proof.Machine.execNmtResetCommunication s
  | .canEnableWrite => Sys2Proof.Machine.execCanEnableWrite s
  | .initialisationDone => Sys2Proof.Machine.execInitialisationDone s
  | .canBusOffRecovery => Sys2Proof.Machine.execCanBusOffRecovery s
  | .lanternDatagram dest ip port data => Sys2Proof.Machine.execLanternDatagram dest ip port data s
  | .lanternRead => Sys2Proof.Machine.execLanternRead s
  | .lanternWrite => Sys2Proof.Machine.execLanternWrite s
  | .domainBegin => Sys2Proof.Machine.execDomainBegin s
  | .domainData => Sys2Proof.Machine.execDomainData s
  | .domainEnd => Sys2Proof.Machine.execDomainEnd s
  | .domainRead => Sys2Proof.Machine.execDomainRead s
  | .lanternAbort => Sys2Proof.Machine.execLanternAbort s
  | .domainTimeout => Sys2Proof.Machine.execDomainTimeout s
  | .domainResult => Sys2Proof.Machine.execDomainResult s
  | .registerWindowAccess client w data => Sys2Proof.Machine.execRegisterWindowAccess client w data s
  | .mgtArp ip mac target => Sys2Proof.Machine.execMgtArp ip mac target s
  | .mgtIcmpEcho t mac ip target rest => Sys2Proof.Machine.execMgtIcmpEcho t mac ip target rest s
  | .journalMirror ok => Sys2Proof.Machine.execJournalMirror ok s
  | .tempSample t temps lows hbm0 hbm1 => Sys2Proof.Machine.execTempSample t temps lows hbm0 hbm1 s
  | .tempShiftHeld i0 => Sys2Proof.Machine.execTempShiftHeld i0 s
  | .replanIntervalExpiry => Sys2Proof.Machine.execReplanIntervalExpiry s
  | .replan => Sys2Proof.Machine.execReplan s
  | .replanningStart => Sys2Proof.Machine.execReplanningStart s
  | .sensorsSampled t reads => Sys2Proof.Machine.execSensorsSampled t reads s
  | .avsComplete means => Sys2Proof.Machine.execAvsComplete means s
  | .avsSettleExpiry => Sys2Proof.Machine.execAvsSettleExpiry s
  | .avsFail => Sys2Proof.Machine.execAvsFail s
  | .unretire i0 => Sys2Proof.Machine.execUnretire i0 s
  | .historyPoint t => Sys2Proof.Machine.execHistoryPoint t s
  | .penaltyDecay i0 => Sys2Proof.Machine.execPenaltyDecay i0 s
  | .ledgerTick t => Sys2Proof.Machine.execLedgerTick t s
  | .probationExpiry r => Sys2Proof.Machine.execProbationExpiry r s
  | .hitAdd ini hi => Sys2Proof.Machine.execHitAdd ini hi s
  | .actqRead ini => Sys2Proof.Machine.execActqRead ini s
  | .actqDone r point failed => Sys2Proof.Machine.execActqDone r point failed s
  | .ledgerAction r point lane seq => Sys2Proof.Machine.execLedgerAction r point lane seq s
  | .forget r => Sys2Proof.Machine.execForget r s
  | .ledgerSelect r => Sys2Proof.Machine.execLedgerSelect r s
  | .ledgerMirror ok => Sys2Proof.Machine.execLedgerMirror ok s
  | .doze => Sys2Proof.Machine.execDoze s
  | .run keeper => Sys2Proof.Machine.execRun keeper s
  | .eclipse => Sys2Proof.Machine.execEclipse s
  | .dusk => Sys2Proof.Machine.execDusk s
  | .powerAbort => Sys2Proof.Machine.execPowerAbort s
  | .eclipseCommit => Sys2Proof.Machine.execEclipseCommit s
  | .eclipseDrainExpiry => Sys2Proof.Machine.execEclipseDrainExpiry s
  | .eclipseGraceExpiry => Sys2Proof.Machine.execEclipseGraceExpiry s
  | .duskMirrorDone => Sys2Proof.Machine.execDuskMirrorDone s
  | .wakeCan frame => Sys2Proof.Machine.execWakeCan frame s
  | .wakeTiming => Sys2Proof.Machine.execWakeTiming s
  | .wakeRing => Sys2Proof.Machine.execWakeRing s
  | .wakeTimer => Sys2Proof.Machine.execWakeTimer s
  | .devReset => Sys2Proof.Machine.execDevReset s
  | .kick => Sys2Proof.Machine.execKick s
  | .watchdogExpiry t => Sys2Proof.Machine.execWatchdogExpiry t s
  | .coreReset c => Sys2Proof.Machine.execCoreReset c s
  | .dmaGroupReset g => Sys2Proof.Machine.execDmaGroupReset g s
  | .edgeFabricReset => Sys2Proof.Machine.execEdgeFabricReset s
  | .gnomonReset => Sys2Proof.Machine.execGnomonReset s
  | .worgaReset => Sys2Proof.Machine.execWorgaReset s
  | .readoutReset => Sys2Proof.Machine.execReadoutReset s
  | .pwrgdLoss aon => Sys2Proof.Machine.execPwrgdLoss aon s
  | .pinReset => Sys2Proof.Machine.execPinReset s
  | .powerOnReset board => Sys2Proof.Machine.execPowerOnReset board s
  | .dawn t us mode flash stack0 stack1 => Sys2Proof.Machine.execDawn t us mode flash stack0 stack1 s
  | .retentionScrub region o => Sys2Proof.Machine.execRetentionScrub region o s
  | .configStore run => Sys2Proof.Machine.execConfigStore run s
  | .configStoreAbort => Sys2Proof.Machine.execConfigStoreAbort s
  | .vendorUpdate run => Sys2Proof.Machine.execVendorUpdate run s
  | .erqHeadRead ini => Sys2Proof.Machine.execErqHeadRead ini s
  | .erqPop seq => Sys2Proof.Machine.execErqPop seq s
  | .brownout core => Sys2Proof.Machine.execBrownout core s
  | .aonBrownout => Sys2Proof.Machine.execAonBrownout s
  | .thermalTrip => Sys2Proof.Machine.execThermalTrip s
  | .smbStatus pec => Sys2Proof.Machine.execSmbStatus pec s
  | .smbIslandTemp pec => Sys2Proof.Machine.execSmbIslandTemp pec s
  | .smbHbmTemp pec => Sys2Proof.Machine.execSmbHbmTemp pec s
  | .smbVout pec => Sys2Proof.Machine.execSmbVout pec s
  | .smbErqUsed pec => Sys2Proof.Machine.execSmbErqUsed pec s
  | .smbStepping pec => Sys2Proof.Machine.execSmbStepping pec s
  | .smbId pec => Sys2Proof.Machine.execSmbId pec s
  | .smbNack => Sys2Proof.Machine.execSmbNack s
  | .idcode => Sys2Proof.Machine.execIdcode s
  | .samplePreload levels loaded => Sys2Proof.Machine.execSamplePreload levels loaded s
  | .extest levels loaded => Sys2Proof.Machine.execExtest levels loaded s
  | .clamp => Sys2Proof.Machine.execClamp s
  | .highz => Sys2Proof.Machine.execHighz s
  | .extestPulse levels loaded => Sys2Proof.Machine.execExtestPulse levels loaded s
  | .extestTrain levels loaded => Sys2Proof.Machine.execExtestTrain levels loaded s
  | .bypass => Sys2Proof.Machine.execBypass s
  | .memAccess go write addr data => Sys2Proof.Machine.execMemAccess go write addr data s
  | .tapReset => Sys2Proof.Machine.execTapReset s
  | .traceClear => Sys2Proof.Machine.execTraceClear s
  | .worgaLanePllLock l => Sys2Proof.Machine.execWorgaLanePllLock l s
  | .worgaCodeword l o => Sys2Proof.Machine.execWorgaCodeword l o s
  | .canBusStateChange bus tec rec => Sys2Proof.Machine.execCanBusStateChange bus tec rec s
  | .mgtBlockLock locked => Sys2Proof.Machine.execMgtBlockLock locked s
  | .refclkPresenceChange k present => Sys2Proof.Machine.execRefclkPresenceChange k present s

end Sys2Proof.Machine
end

