-- ==== Sys2Proof/Machine/Footprint.lean ====
section
/-! DEFINITION. The footprint of every command: the register pages and the parts of the state that it may change, read off
the rules that its meaning follows. -/

namespace Sys2Proof.Machine

/-- The parts of the state beside the registers and the waiting commands. -/
inductive Part where
  | now
  | dawnAt
  | freeCount
  | sent
  | mem
  | poison
  | gno
  | edge
  | ledIn
  | pri
  | arr
  | seq
  | wor
  | hbm
  | rdo
  | cpu
  | ring
  | sem
  | tar
  | led
  | dic
  | pwr
  | flash
  | tap
  | lanes
  | erq
  | counts
  deriving DecidableEq, Repr

/-- The bit of a part in a footprint; bits 0 to 22 are the register pages (R3). -/
def Part.place : Part → Nat
  | .now => 34
  | .dawnAt => 35
  | .freeCount => 36
  | .sent => 37
  | .mem => 38
  | .poison => 39
  | .gno => 40
  | .edge => 41
  | .ledIn => 42
  | .pri => 43
  | .arr => 44
  | .seq => 45
  | .wor => 46
  | .hbm => 47
  | .rdo => 48
  | .cpu => 49
  | .ring => 50
  | .sem => 51
  | .tar => 52
  | .led => 53
  | .dic => 54
  | .pwr => 55
  | .flash => 56
  | .tap => 57
  | .lanes => 58
  | .erq => 59
  | .counts => 60

/-- A footprint: its pages and its parts. -/
def span (pages : List Nat) (parts : List Part) : Nat :=
  (pages ++ parts.map Part.place).foldl (fun m b => m ||| 2 ^ b) 0

/-- The footprint of an instruction, with a trap that halts its thread or resets the keeper among what may come of it. -/
def instructionSpan : Nat :=
  span [6, 7, 11, 13, 14, 19] [.freeCount, .mem, .poison, .seq, .cpu, .ring, .sem, .pwr, .erq, .counts]

/-- The footprint of a command that may name any register of the device or any address. -/
def everySpan : Nat :=
  span (List.range 23) [.now, .dawnAt, .freeCount, .sent, .mem, .poison, .gno, .edge, .ledIn, .pri, .arr, .seq, .wor, .hbm, .rdo, .cpu, .ring, .sem, .tar, .led, .dic, .pwr, .flash, .tap, .lanes, .erq, .counts]

/-- The footprint of a command. -/
def footprint (c : Instr) : Nat :=
  match c with
  | .registerWrite _ _ _ _ => everySpan
  | .rcFieldRead _ _ _ _ => everySpan
  | .holdingRegisterLatch _ _ _ => everySpan
  | .slotReferenceEdge _ _ => span [1, 6, 7] [.now, .gno, .edge, .pri, .seq, .rdo, .erq, .counts]
  | .gnomonEnableWrite _ _ => span [1, 3, 4, 5, 6, 7, 8, 16] [.now, .mem, .gno, .pri, .arr, .seq, .wor, .tar, .dic,
      .erq, .counts]
  | .acquisitionComplete _ => span [1, 2, 4, 6, 7, 8, 9, 10] [.now, .seq, .erq, .counts]
  | .xclkLoss _ _ => span [1, 3, 4, 5, 6, 7, 8, 16] [.now, .mem, .gno, .pri, .arr, .seq, .wor, .tar, .dic, .erq,
      .counts]
  | .holdoverRecovery => span [1] []
  | .holdoverLimitExpiry _ => span [1, 3, 4, 5, 6, 7, 8, 16] [.now, .mem, .gno, .pri, .arr, .seq, .wor, .tar, .dic,
      .erq, .counts]
  | .lostAutoRelock _ => span [1, 7] [.now, .gno, .seq]
  | .reacquire _ => span [1, 7] [.now, .gno, .seq]
  | .cancelNamed => span [1, 3, 4, 5, 6, 7, 8, 16] [.mem, .gno, .pri, .arr, .seq, .tar, .dic, .erq, .counts]
  | .fcInject _ => span [1] [.gno, .erq, .counts]
  | .orbitMark => span [1, 3, 4, 5, 6, 7, 8, 16] [.mem, .gno, .pri, .arr, .seq, .wor, .tar, .dic, .erq, .counts]
  | .accept => span [1, 10] [.gno, .rdo, .erq, .counts]
  | .eventReset => span [1] [.gno]
  | .orbitReset => span [1] [.gno]
  | .orbitResetAct => span [1] [.gno]
  | .resync => span [1] [.gno]
  | .calReq => span [1, 6] [.gno, .erq, .counts]
  | .userCommand _ => span [1, 6] [.gno, .erq, .counts]
  | .internalAccept => span [1, 10] [.gno, .rdo, .erq, .counts]
  | .slotBarrier _ _ => span [1, 2, 3, 4, 5, 6, 7, 8, 9, 10, 16, 18, 22] [.now, .freeCount, .mem, .poison, .gno,
      .edge, .pri, .arr, .seq, .wor, .hbm, .rdo, .cpu, .tar, .dic, .pwr, .lanes, .erq, .counts]
  | .islandArrive _ _ _ => span [5] [.arr, .erq, .counts]
  | .barrierTimeout _ => span [5, 7, 16] [.arr, .tar, .erq, .counts]
  | .islandClockSlow _ _ => span [5] [.arr, .seq, .erq, .counts]
  | .islandClockUnlock _ => span [5, 7, 16] [.arr, .tar, .erq, .counts]
  | .islandClockRelock _ => span [] [.arr]
  | .clearingComplete _ => span [] [.mem, .pri, .arr]
  | .islandOff _ => span [5] [.arr, .erq]
  | .islandOn _ => span [5] [.arr, .erq]
  | .islandQuarantine _ => span [5] [.arr, .erq]
  | .applyMap _ => span [5] [.arr, .erq]
  | .islandMapWrite _ _ _ => span [5] [.erq]
  | .edgeConfigWrite _ _ _ => span [5, 8] [.erq]
  | .epochBump => span [] [.arr]
  | .reloadStart _ => span [5] [.arr, .erq]
  | .reloadComplete _ _ => span [5, 9] [.freeCount, .mem, .poison, .pri, .arr, .erq, .counts]
  | .reloadFetchError _ => span [5] [.arr, .erq]
  | .reloadAbort _ => span [5] [.arr, .erq]
  | .autoReload _ => span [5] [.arr]
  | .microwordIssue _ _ => span [5, 6, 21] [.freeCount, .mem, .pri, .arr, .seq, .erq, .counts]
  | .waitRelease _ _ _ => span [5, 6, 21] [.freeCount, .mem, .pri, .arr, .seq, .erq, .counts]
  | .waitTimeout _ _ => span [5, 6, 21] [.freeCount, .mem, .pri, .arr, .seq, .erq, .counts]
  | .seqNext => span [] [.seq]
  | .jump _ => span [] [.seq]
  | .jif _ _ => span [6] [.seq]
  | .jifn _ _ => span [6] [.seq]
  | .seqCall _ => span [] [.seq]
  | .pcall _ _ _ _ _ _ _ => span [5, 6] [.freeCount, .mem, .pri, .arr, .seq, .erq, .counts]
  | .seqRet => span [] [.seq]
  | .loop _ _ => span [5, 6] [.mem, .pri, .arr, .seq, .counts]
  | .stageEnd => span [5, 6] [.arr, .seq, .erq, .counts]
  | .yield => span [5, 6] [.mem, .pri, .arr, .seq, .counts]
  | .bgEnd => span [5, 6] [.mem, .pri, .arr, .seq, .counts]
  | .scNop => span [] [.seq]
  | .ldi _ _ => span [] [.seq]
  | .ldih _ _ => span [] [.seq]
  | .scAddi _ _ _ => span [] [.seq]
  | .mov _ _ => span [] [.seq]
  | .subr _ _ _ => span [] [.seq]
  | .scAndi _ _ _ => span [] [.seq]
  | .bcnt _ _ => span [] [.seq]
  | .bfirst _ _ => span [] [.seq]
  | .lci _ _ => span [] [.seq]
  | .lcw _ _ _ => span [] [.seq]
  | .cmp _ _ => span [] [.seq]
  | .seqTimerExpiry _ => span [6] [.seq]
  | .seqTimerStart _ => span [6] [.seq]
  | .seqTimerStop _ => span [6] [.seq]
  | .seqTimerLoad _ => span [6] [.seq]
  | .bgAbort => span [6] [.seq, .erq]
  | .cstoreEccError _ _ => span [1, 6, 7] [.gno, .seq, .erq, .counts]
  | .programLoad => span [6] [.seq, .erq]
  | .programLoadDone => span [6] [.seq, .erq]
  | .loadAbort => span [6] [.seq, .erq]
  | .exchangeArm => span [1, 6] [.gno, .seq, .erq]
  | .exchangeCancel => span [1, 6] [.gno, .erq]
  | .penumbraExchange => span [5, 6, 7, 16] [.freeCount, .mem, .gno, .pri, .arr, .seq, .tar, .erq, .counts]
  | .promiseWrite _ _ => span [6] [.seq, .erq]
  | .commitSetArm _ => span [1, 6] [.gno, .seq, .erq]
  | .commitSetAbort _ => span [1, 6] [.gno, .dic, .erq]
  | .commitSetClear _ => span [6] []
  | .commitSetFire _ => span [5, 6, 7, 16] [.freeCount, .gno, .arr, .seq, .tar, .dic, .erq, .counts]
  | .admissionRerun => span [6] [.seq]
  | .admissionComplete => span [1, 6, 7, 16] [.freeCount, .sent, .gno, .seq, .cpu, .tar, .erq, .counts]
  | .marginPlanApply => span [5, 6, 7, 16] [.freeCount, .sent, .gno, .arr, .seq, .tar, .erq, .counts]
  | .beaconSettle _ => span [6, 7] [.seq, .erq, .counts]
  | .lateDecision _ => span [6, 7] [.seq, .erq, .counts]
  | .launchInstant => span [6, 7, 16] [.now, .gno, .seq, .rdo, .tar, .erq, .counts]
  | .glintPulseEnd _ => span [] [.seq]
  | .busyEvaluate => span [7] [.seq, .counts]
  | .busyMinExpiry => span [7] [.seq]
  | .laneCtrlWrite _ _ _ => span [2, 3] [.edge, .lanes, .erq]
  | .lanePllLock _ => span [2, 3] [.edge]
  | .signalDetect _ => span [2, 3] [.edge]
  | .laneLockDone _ _ _ => span [2, 3] [.edge, .lanes]
  | .lockTimeout _ => span [2, 3] [.edge, .erq]
  | .signalLost _ => span [2, 3] [.edge, .erq, .counts]
  | .cdrLost _ => span [2, 3] [.edge, .erq, .counts]
  | .adaptRestart _ => span [2] [.lanes]
  | .txFfeWrite _ _ _ => span [2] [.erq]
  | .eyeScanStart _ => span [2] [.erq]
  | .eyeScanDone _ _ _ => span [2, 16] [.cpu, .tar, .erq, .counts]
  | .identityRecord _ => span [2] [.ledIn, .lanes, .erq, .counts]
  | .telemetryRecord _ => span [2] [.ledIn, .lanes, .erq, .counts]
  | .setpointAcknowledgement _ => span [2] [.ledIn, .lanes, .erq, .counts]
  | .userFrame _ => span [2] [.ledIn, .lanes, .erq, .counts]
  | .identityTimeout _ => span [2] [.ledIn, .lanes, .erq]
  | .scTxSend _ => span [2] [.lanes, .erq]
  | .scTxAbort _ => span [2] [.lanes]
  | .downlinkSlot _ _ => span [2, 4] [.lanes, .erq, .counts]
  | .dlWindowWrite _ _ _ _ => span [2] [.lanes, .erq]
  | .blockArrival _ _ => span [2, 3] [.sent, .edge, .erq, .counts]
  | .facetLogicCycle _ _ _ _ _ => span [1, 2, 3, 22] [.sent, .gno, .edge, .tap, .lanes, .erq, .counts]
  | .facetTimerExpiry _ _ => span [] [.edge]
  | .txWord _ => span [2, 3] [.sent, .edge, .tap, .lanes, .erq, .counts]
  | .facetLoad _ => span [3] [.edge, .erq]
  | .facetLoadDone _ => span [3] [.edge]
  | .facetActivate _ => span [1, 3, 22] [.gno, .edge, .lanes, .erq]
  | .facetAbort _ => span [1, 3] [.gno, .edge, .erq]
  | .facetHalt _ => span [3, 22] [.edge, .lanes]
  | .facetResume _ => span [] [.edge]
  | .facetCapture _ => span [3] [.edge, .erq]
  | .facetSwitchEntry _ => span [1, 3, 5, 6, 7, 16, 22] [.freeCount, .gno, .edge, .arr, .seq, .tar, .lanes, .erq,
      .counts]
  | .facetSwitchComplete _ => span [] [.edge]
  | .facetConfigScrub _ _ _ => span [1, 3, 22] [.gno, .edge, .lanes, .erq, .counts]
  | .facetReadbackRead _ _ => everySpan
  | .gpiPinWrite _ _ _ => span [22] [.erq]
  | .vddioChange _ _ => span [22] [.erq]
  | .prismWord _ _ => span [4] [.now, .edge, .pri, .erq, .counts]
  | .commitDeadline _ => span [4, 5] [.now, .pri, .led, .erq, .counts]
  | .hbmPipelineWrite _ => span [9] [.mem, .poison, .pri, .hbm, .erq, .counts]
  | .prismApply => span [1, 4] [.gno, .pri, .erq]
  | .prismAbort => span [1, 4] [.gno, .pri, .erq]
  | .slackReset => span [4] []
  | .prismApplyCommit => span [4, 5, 6, 7, 16] [.freeCount, .gno, .pri, .arr, .seq, .tar, .erq, .counts]
  | .sidePortRequest _ _ _ _ _ _ => span [4] [.sent, .pri, .erq, .counts]
  | .sidePortPerform => span [1, 4, 5, 6, 9] [.sent, .mem, .gno, .pri, .arr, .seq, .hbm, .ring, .dic, .erq, .counts]
  | .linkConfigWrite _ _ _ => span [8] [.wor, .erq]
  | .linkLaneLoss _ => span [8] [.wor, .erq, .counts]
  | .linkTrained _ => span [8] [.wor]
  | .linkTrainTimeout _ => span [8] [.wor, .erq]
  | .ident _ _ => span [8] [.wor, .erq]
  | .slot _ _ _ => span [8] [.now, .wor, .erq]
  | .markerLoss _ => span [8] [.wor, .erq]
  | .linkSlot _ _ => span [8] [.freeCount, .sent, .wor]
  | .haloFrame _ _ => span [5, 8] [.arr, .wor, .erq, .counts]
  | .worgaFrame _ _ _ => span [5, 8] [.arr, .wor, .erq, .counts]
  | .worgaTxSend => span [8] [.freeCount, .wor, .erq]
  | .worgaTxAbort _ => span [8] [.wor, .erq]
  | .epochApply => span [1, 8] [.gno, .wor, .erq]
  | .epochAbort => span [1, 8] [.gno, .erq]
  | .epochFire => span [5, 6, 7, 8, 16] [.freeCount, .gno, .arr, .seq, .wor, .tar, .erq, .counts]
  | .beaconTreeConfig _ _ _ => span [8] [.erq]
  | .beaconOwnResult _ => span [8] [.now, .freeCount, .seq, .wor, .counts]
  | .beaconCellUp _ _ _ _ _ => span [8] [.now, .sent, .wor, .erq, .counts]
  | .beaconKeyClose _ _ => span [8] [.now, .sent, .wor, .counts]
  | .beaconCellDown _ _ _ _ _ => span [8] [.now, .sent, .wor, .erq, .counts]
  | .sysResultRead _ => everySpan
  | .hbmInitComplete _ => span [9] [.mem]
  | .hbmInitFail _ => span [9] [.erq]
  | .hbmFault _ => span [9] [.erq]
  | .hbmRestart => span [9] [.mem, .poison]
  | .hbmPatrolScrub _ _ => span [9] [.freeCount, .mem, .poison, .erq, .counts]
  | .pipeCtrlWrite _ _ => span [9] [.hbm, .erq]
  | .xferStart _ _ => span [4, 9] [.freeCount, .mem, .poison, .pri, .hbm, .erq, .counts]
  | .xferAbort _ => span [4, 9] [.pri, .hbm]
  | .readoutBeaconEntry _ => span [10] [.seq, .wor, .rdo, .counts]
  | .eventReady _ => span [] [.now, .rdo]
  | .eventGather _ => span [9] [.freeCount, .mem, .poison, .rdo, .erq, .counts]
  | .eventAssembled => span [10] [.mem, .poison, .rdo]
  | .readoutFrameSend _ => span [10] [.now, .sent, .rdo, .erq, .counts]
  | .readoutApply => span [10] [.rdo, .erq]
  | .portConfigWrite _ _ _ => span [8, 10] [.rdo, .erq]
  | .portLinkUp _ => span [10] [.sent, .erq]
  | .portPcsLoss _ => span [10] [.rdo, .erq]
  | .arpRequestTimer _ => span [] [.sent]
  | .arpTimeout _ => span [10] [.rdo, .erq]
  | .arpReply _ _ _ _ => span [10] [.rdo, .erq, .counts]
  | .arpRequest _ _ _ _ => span [10] [.sent, .counts]
  | .icmpEchoRequest _ _ _ _ _ _ => span [10] [.now, .sent, .rdo, .counts]
  | .portFrameDiscard _ _ => span [10] [.counts]
  | .add _ _ _ _ => instructionSpan
  | .sub _ _ _ _ => instructionSpan
  | .and _ _ _ _ => instructionSpan
  | .or _ _ _ _ => instructionSpan
  | .xor _ _ _ _ => instructionSpan
  | .sll _ _ _ _ => instructionSpan
  | .srl _ _ _ _ => instructionSpan
  | .sra _ _ _ _ => instructionSpan
  | .slt _ _ _ _ => instructionSpan
  | .sltu _ _ _ _ => instructionSpan
  | .min _ _ _ _ => instructionSpan
  | .max _ _ _ _ => instructionSpan
  | .minu _ _ _ _ => instructionSpan
  | .maxu _ _ _ _ => instructionSpan
  | .clz _ _ _ => instructionSpan
  | .ctz _ _ _ => instructionSpan
  | .popc _ _ _ => instructionSpan
  | .bswap _ _ _ => instructionSpan
  | .sextb _ _ _ => instructionSpan
  | .sexth _ _ _ => instructionSpan
  | .andn _ _ _ _ => instructionSpan
  | .rotr _ _ _ _ => instructionSpan
  | .slli _ _ _ _ => instructionSpan
  | .srli _ _ _ _ => instructionSpan
  | .srai _ _ _ _ => instructionSpan
  | .rotri _ _ _ _ => instructionSpan
  | .addi _ _ _ _ => instructionSpan
  | .andi _ _ _ _ => instructionSpan
  | .ori _ _ _ _ => instructionSpan
  | .xori _ _ _ _ => instructionSpan
  | .slti _ _ _ _ => instructionSpan
  | .sltiu _ _ _ _ => instructionSpan
  | .lui _ _ _ => instructionSpan
  | .addpc _ _ _ => instructionSpan
  | .lb _ _ _ _ => instructionSpan
  | .lbu _ _ _ _ => instructionSpan
  | .lh _ _ _ _ => instructionSpan
  | .lhu _ _ _ _ => instructionSpan
  | .lw _ _ _ _ => instructionSpan
  | .ldp _ _ _ _ => instructionSpan
  | .flw _ _ _ _ => instructionSpan
  | .fld _ _ _ _ => instructionSpan
  | .sb _ _ _ _ => instructionSpan
  | .sh _ _ _ _ => instructionSpan
  | .sw _ _ _ _ => instructionSpan
  | .stp _ _ _ _ => instructionSpan
  | .fsw _ _ _ _ => instructionSpan
  | .fsd _ _ _ _ => instructionSpan
  | .amoadd _ _ _ _ => instructionSpan
  | .amoswap _ _ _ _ => instructionSpan
  | .beq _ _ _ _ => instructionSpan
  | .bne _ _ _ _ => instructionSpan
  | .blt _ _ _ _ => instructionSpan
  | .bge _ _ _ _ => instructionSpan
  | .bltu _ _ _ _ => instructionSpan
  | .bgeu _ _ _ _ => instructionSpan
  | .jmp _ _ => instructionSpan
  | .call _ _ => instructionSpan
  | .mul _ _ _ _ => instructionSpan
  | .mulhs _ _ _ _ => instructionSpan
  | .mulhu _ _ _ _ => instructionSpan
  | .divs _ _ _ _ => instructionSpan
  | .divu _ _ _ _ => instructionSpan
  | .rems _ _ _ _ => instructionSpan
  | .remu _ _ _ _ => instructionSpan
  | .dividerDone _ _ => span [6, 7, 11, 13, 14] [.seq, .cpu, .ring, .sem, .erq, .counts]
  | .wopen _ => instructionSpan
  | .wclose _ => instructionSpan
  | .spill _ => instructionSpan
  | .fill _ => instructionSpan
  | .jr _ _ => instructionSpan
  | .callr _ _ => instructionSpan
  | .ret _ => instructionSpan
  | .retc _ => instructionSpan
  | .trap _ _ => instructionSpan
  | .tret _ => instructionSpan
  | .fence _ => instructionSpan
  | .fsync _ => instructionSpan
  | .mfc _ _ _ => instructionSpan
  | .mtc _ _ _ => instructionSpan
  | .waite _ _ _ => instructionSpan
  | .sige _ _ _ => instructionSpan
  | .brk _ => instructionSpan
  | .fadd _ _ _ _ _ _ => instructionSpan
  | .fsub _ _ _ _ _ _ => instructionSpan
  | .fmul _ _ _ _ _ _ => instructionSpan
  | .fdiv _ _ _ _ _ _ => instructionSpan
  | .fsqrt _ _ _ _ _ => instructionSpan
  | .fmin _ _ _ _ _ => instructionSpan
  | .fmax _ _ _ _ _ => instructionSpan
  | .feq _ _ _ _ _ => instructionSpan
  | .flt _ _ _ _ _ => instructionSpan
  | .fle _ _ _ _ _ => instructionSpan
  | .fclass _ _ _ _ => instructionSpan
  | .fcvtw _ _ _ _ _ => instructionSpan
  | .fcvtwu _ _ _ _ _ => instructionSpan
  | .fcvtfw _ _ _ _ _ => instructionSpan
  | .fcvtfwu _ _ _ _ _ => instructionSpan
  | .fcvtp _ _ _ _ _ => instructionSpan
  | .fmvtoi _ _ _ _ => instructionSpan
  | .fmvfromi _ _ _ _ => instructionSpan
  | .fneg _ _ _ _ => instructionSpan
  | .fabs _ _ _ _ => instructionSpan
  | .fcopysign _ _ _ _ _ => instructionSpan
  | .fmadd _ _ _ _ _ _ _ => instructionSpan
  | .fmsub _ _ _ _ _ _ _ => instructionSpan
  | .fnmadd _ _ _ _ _ _ _ => instructionSpan
  | .fnmsub _ _ _ _ _ _ _ => instructionSpan
  | .fpComplete _ _ _ => instructionSpan
  | .impreciseTrap _ _ _ => instructionSpan
  | .threadStart _ _ => span [6, 7, 11, 13, 14] [.seq, .cpu, .ring, .sem, .erq, .counts]
  | .threadStop _ _ => span [6, 7, 11, 13, 14] [.seq, .cpu, .ring, .sem, .erq, .counts]
  | .threadWake _ _ => span [6, 7, 14] [.seq, .cpu, .erq, .counts]
  | .threadEventsWrite _ _ _ => span [] [.cpu]
  | .threadTimerStart _ _ => span [14] [.cpu]
  | .threadTimerStop _ _ => span [14] []
  | .threadTimerExpiry _ _ => span [14] [.cpu]
  | .starvationIssue _ _ => span [] [.cpu]
  | .blackout => instructionSpan
  | .debugResume _ _ => span [14] []
  | .read _ _ => everySpan
  | .write _ _ => everySpan
  | .ringAmoadd _ _ => everySpan
  | .ringAmoswap _ _ => everySpan
  | .writeP _ _ _ => everySpan
  | .event _ _ => span [11] [.cpu, .ring, .erq, .counts]
  | .readData _ _ _ => span [6, 7, 11, 13, 14, 19] [.freeCount, .mem, .poison, .seq, .cpu, .ring, .sem, .pwr, .tap,
      .erq, .counts]
  | .writeAck _ _ _ => span [6, 7, 11, 13, 14, 19] [.freeCount, .mem, .poison, .seq, .cpu, .ring, .sem, .pwr, .tap,
      .erq, .counts]
  | .amoData _ _ _ => span [6, 7, 11, 13, 14, 19] [.freeCount, .mem, .poison, .seq, .cpu, .ring, .sem, .pwr, .tap,
      .erq, .counts]
  | .errorReport _ _ _ _ => span [11, 15, 20] [.now, .sent, .cpu, .ring, .dic, .erq, .counts]
  | .wakeReq _ _ => span [11] [.cpu, .ring, .erq, .counts]
  | .wakeDone _ _ => span [11] [.ring, .erq, .counts]
  | .ringTimeout _ => span [6, 7, 11, 13, 14, 19] [.freeCount, .mem, .poison, .seq, .cpu, .ring, .sem, .pwr, .tap,
      .erq, .counts]
  | .routeWrite _ _ _ _ => span [11] [.ring, .erq]
  | .guarWrite _ _ _ _ => span [11] [.erq]
  | .masterReset _ _ => span [11, 13] [.cpu, .ring, .sem, .erq, .counts]
  | .tagHoldExpiry _ => span [6, 7, 11, 13, 14, 19] [.freeCount, .mem, .poison, .seq, .cpu, .ring, .sem, .pwr, .tap,
      .erq, .counts]
  | .latSumRead _ _ => everySpan
  | .dmaStart _ => span [11] [.cpu, .ring, .erq, .counts]
  | .dmaAbort _ => span [11] [.cpu, .ring, .counts]
  | .dmaResume _ => span [11] [.ring, .counts]
  | .dmaDescriptorComplete _ => span [11] [.cpu, .ring, .counts]
  | .spdPatrolScrub _ _ _ => span [9, 12, 14] [.freeCount, .mem, .poison, .erq, .counts]
  | .spdClearComplete => span [11, 12] [.ring, .erq, .counts]
  | .mailboxKeeperAccess _ _ _ => everySpan
  | .mailboxScrub _ _ => span [9, 12, 14] [.freeCount, .mem, .poison, .erq, .counts]
  | .mailboxDoorbell _ _ _ => span [12] [.cpu, .erq]
  | .semTry _ _ => span [13] [.cpu, .sem, .erq, .counts]
  | .wait _ _ _ => span [13] [.cpu, .sem, .erq, .counts]
  | .release _ _ => span [13] [.cpu, .sem, .erq, .counts]
  | .cancel _ _ => span [13] [.cpu, .sem, .erq, .counts]
  | .renew _ _ => span [13] [.cpu, .sem, .erq, .counts]
  | .badOperation _ _ _ _ => span [13] [.cpu, .sem, .erq, .counts]
  | .leaseExpiry _ => span [13] [.cpu, .sem, .erq, .counts]
  | .semAdminWrite _ _ _ _ => span [13] [.erq, .counts]
  | .usdoRequest _ _ _ => everySpan
  | .usdoSegment _ => everySpan
  | .usdoAbort _ _ => span [15] [.freeCount, .seq, .dic, .erq, .counts]
  | .usdoTimeout => span [15] [.freeCount, .sent, .seq, .dic, .erq, .counts]
  | .rpdo _ _ => everySpan
  | .tpdoEventTimer _ _ => everySpan
  | .heartbeat => span [] [.sent]
  | .nmtStart => everySpan
  | .nmtStop => everySpan
  | .nmtEnterPreoperational => everySpan
  | .nmtResetNode => everySpan
  | .nmtResetCommunication => everySpan
  | .canEnableWrite => span [15] [.freeCount, .seq, .dic, .erq, .counts]
  | .initialisationDone => everySpan
  | .canBusOffRecovery => span [15] [.erq]
  | .lanternDatagram _ _ _ _ => everySpan
  | .lanternRead => everySpan
  | .lanternWrite => everySpan
  | .domainBegin => everySpan
  | .domainData => everySpan
  | .domainEnd => everySpan
  | .domainRead => everySpan
  | .lanternAbort => everySpan
  | .domainTimeout => span [15] [.freeCount, .seq, .dic, .erq, .counts]
  | .domainResult => everySpan
  | .registerWindowAccess _ _ _ => everySpan
  | .mgtArp _ _ _ => span [15] [.sent, .counts]
  | .mgtIcmpEcho _ _ _ _ _ => span [15] [.now, .freeCount, .sent, .dic, .counts]
  | .journalMirror _ => span [15, 19] [.flash, .erq]
  | .tempSample _ _ _ _ _ => span [0, 9, 16] [.now, .tar]
  | .tempShiftHeld _ => span [16] [.tar]
  | .replanIntervalExpiry => span [16] [.tar]
  | .replan => span [16] [.tar]
  | .replanningStart => span [2, 16] [.tar, .erq, .counts]
  | .sensorsSampled _ _ => span [5, 6, 16] [.now, .freeCount, .sent, .arr, .seq, .cpu, .tar, .erq]
  | .avsComplete _ => span [16] [.tar, .counts]
  | .avsSettleExpiry => span [6] [.seq, .cpu, .tar]
  | .avsFail => span [16] [.tar, .erq, .counts]
  | .unretire _ => span [16] []
  | .historyPoint _ => span [16] [.now, .cpu, .tar, .lanes, .erq]
  | .penaltyDecay _ => span [16] []
  | .ledgerTick _ => span [6, 7, 17] [.now, .ledIn, .seq, .led, .erq, .counts]
  | .probationExpiry _ => span [17] [.led, .erq]
  | .hitAdd _ _ => span [17] [.led, .erq, .counts]
  | .actqRead _ => everySpan
  | .actqDone _ _ _ => span [17] [.led, .erq]
  | .ledgerAction _ _ _ _ => span [2, 4, 11] [.freeCount, .pri, .seq, .cpu, .led, .dic, .lanes, .erq, .counts]
  | .forget _ => span [] [.led]
  | .ledgerSelect _ => span [17] []
  | .ledgerMirror _ => span [17, 19] [.flash, .erq]
  | .doze => span [18] [.pwr, .erq]
  | .run _ => span [1, 2, 3, 5, 6, 7, 8, 9, 10, 11, 12, 14, 16, 18] [.now, .freeCount, .gno, .edge, .arr, .seq, .cpu,
      .ring, .tar, .led, .pwr, .erq, .counts]
  | .eclipse => span [18] [.pwr, .erq]
  | .dusk => span [18] [.pwr, .erq]
  | .powerAbort => span [18] [.pwr, .erq]
  | .eclipseCommit => span [1, 3, 4, 5, 6, 7, 8, 16, 18] [.mem, .gno, .pri, .arr, .seq, .wor, .tar, .dic, .pwr, .erq,
      .counts]
  | .eclipseDrainExpiry => span [18] [.rdo, .cpu, .pwr, .counts]
  | .eclipseGraceExpiry => everySpan
  | .duskMirrorDone => everySpan
  | .wakeCan _ => everySpan
  | .wakeTiming => span [1, 2, 3, 5, 6, 7, 8, 9, 10, 11, 12, 14, 16, 18] [.now, .freeCount, .gno, .edge, .arr, .seq,
      .cpu, .ring, .tar, .led, .pwr, .erq, .counts]
  | .wakeRing => span [1, 2, 3, 5, 6, 7, 8, 9, 10, 11, 12, 14, 16, 18] [.now, .freeCount, .gno, .edge, .arr, .seq,
      .cpu, .ring, .tar, .led, .pwr, .erq, .counts]
  | .wakeTimer => span [1, 2, 3, 5, 6, 7, 8, 9, 10, 11, 12, 14, 16, 18] [.now, .freeCount, .gno, .edge, .arr, .seq,
      .cpu, .ring, .tar, .led, .pwr, .erq, .counts]
  | .devReset => everySpan
  | .kick => span [] [.pwr]
  | .watchdogExpiry _ => span [6, 7, 11, 13, 14, 18, 19] [.now, .freeCount, .mem, .poison, .seq, .cpu, .ring, .sem,
      .pwr, .erq, .counts]
  | .coreReset _ => span [6, 7, 11, 13, 14] [.freeCount, .seq, .cpu, .ring, .sem, .erq, .counts]
  | .dmaGroupReset _ => span [11, 13] [.freeCount, .cpu, .ring, .sem, .erq, .counts]
  | .edgeFabricReset => span [1, 3, 11, 13, 22] [.freeCount, .gno, .edge, .cpu, .ring, .sem, .lanes, .erq, .counts]
  | .gnomonReset => span [1, 3, 4, 5, 6, 7, 8, 16] [.mem, .gno, .pri, .arr, .seq, .wor, .tar, .dic, .erq, .counts]
  | .worgaReset => span [8, 11, 13] [.freeCount, .wor, .cpu, .ring, .sem, .erq, .counts]
  | .readoutReset => span [10, 11, 13] [.freeCount, .rdo, .cpu, .ring, .sem, .erq, .counts]
  | .pwrgdLoss _ => everySpan
  | .pinReset => everySpan
  | .powerOnReset _ => everySpan
  | .dawn _ _ _ _ _ _ => everySpan
  | .retentionScrub _ _ => span [18] [.pwr, .erq, .counts]
  | .configStore _ => span [19] [.pwr, .flash, .erq]
  | .configStoreAbort => span [19] [.pwr, .erq]
  | .vendorUpdate _ => span [19] [.pwr, .flash, .erq]
  | .erqHeadRead _ => everySpan
  | .erqPop _ => span [20] [.erq]
  | .brownout _ => everySpan
  | .aonBrownout => everySpan
  | .thermalTrip => everySpan
  | .smbStatus _ => span [0] [.sent, .erq]
  | .smbIslandTemp _ => span [0] [.sent, .erq]
  | .smbHbmTemp _ => span [0] [.sent, .erq]
  | .smbVout _ => span [0] [.sent, .erq]
  | .smbErqUsed _ => span [0] [.sent, .erq]
  | .smbStepping _ => span [0] [.sent, .erq]
  | .smbId _ => span [0] [.sent, .erq]
  | .smbNack => span [0] [.sent, .erq]
  | .idcode => span [] [.tap]
  | .samplePreload _ _ => span [] [.tap]
  | .extest _ _ => span [21] [.tap, .erq]
  | .clamp => span [21] [.tap, .erq]
  | .highz => span [21] [.tap, .erq]
  | .extestPulse _ _ => span [21] [.tap, .erq]
  | .extestTrain _ _ => span [21] [.tap, .erq]
  | .bypass => span [] [.tap]
  | .memAccess _ _ _ _ => span [11, 21] [.ring, .tap, .erq, .counts]
  | .tapReset => span [] [.tap]
  | .traceClear => span [21] [.seq]
  | .worgaLanePllLock _ => span [8] []
  | .worgaCodeword _ _ => span [8] [.erq, .counts]
  | .canBusStateChange _ _ _ => span [15] [.erq]
  | .mgtBlockLock _ => span [15] []
  | .refclkPresenceChange _ _ => span [2] []

/-- From `s` to `t` nothing outside a footprint has changed: no command that waits, no field of a register of another page,
no byte of memory, and no other part of the state. -/
def Outside (m : Nat) (s t : State) : Prop :=
  t.pending = s.pending ∧
    (∀ (f : Fld) (i j : Nat), f.page < 23 → m.testBit f.page = false → t.get f i j = s.get f i j) ∧
    (m.testBit Part.mem.place = false → ∀ a, t.byte a = s.byte a) ∧
    (m.testBit Part.now.place = false → t.now = s.now) ∧
    (m.testBit Part.dawnAt.place = false → t.dawnAt = s.dawnAt) ∧
    (m.testBit Part.freeCount.place = false → t.freeCount = s.freeCount) ∧
    (m.testBit Part.sent.place = false → t.sent = s.sent) ∧
    (m.testBit Part.poison.place = false → t.poison = s.poison) ∧
    (m.testBit Part.gno.place = false → t.gno = s.gno) ∧
    (m.testBit Part.edge.place = false → t.edge = s.edge) ∧
    (m.testBit Part.ledIn.place = false → t.ledIn = s.ledIn) ∧
    (m.testBit Part.pri.place = false → t.pri = s.pri) ∧
    (m.testBit Part.arr.place = false → t.arr = s.arr) ∧
    (m.testBit Part.seq.place = false → t.seq = s.seq) ∧
    (m.testBit Part.wor.place = false → t.wor = s.wor) ∧
    (m.testBit Part.hbm.place = false → t.hbm = s.hbm) ∧
    (m.testBit Part.rdo.place = false → t.rdo = s.rdo) ∧
    (m.testBit Part.cpu.place = false → t.cpu = s.cpu) ∧
    (m.testBit Part.ring.place = false → t.ring = s.ring) ∧
    (m.testBit Part.sem.place = false → t.sem = s.sem) ∧
    (m.testBit Part.tar.place = false → t.tar = s.tar) ∧
    (m.testBit Part.led.place = false → t.led = s.led) ∧
    (m.testBit Part.dic.place = false → t.dic = s.dic) ∧
    (m.testBit Part.pwr.place = false → t.pwr = s.pwr) ∧
    (m.testBit Part.flash.place = false → t.flash = s.flash) ∧
    (m.testBit Part.tap.place = false → t.tap = s.tap) ∧
    (m.testBit Part.lanes.place = false → t.lanes = s.lanes) ∧
    (m.testBit Part.erq.place = false → t.erq = s.erq) ∧
    (m.testBit Part.counts.place = false → t.counts = s.counts)

end Sys2Proof.Machine
end

