-- ==== Sys2Proof/WellFormed.lean ====
section
/-! DEFINITION. Which commands are well formed: what the types of their operands do not say. -/

namespace Sys2Proof

/-- A write mask covers whole bytes (R589). -/
def byteMask (m : BitVec 32) : Bool :=
  (List.range 4).all fun k => let b := m.toNat / 2 ^ (8 * k) % 256; b == 0 || b == 255

/-- The data of a request fits its length: a read brings none (R430, R431). -/
def PktSrc.wf (isWrite : Bool) : PktSrc → Bool
  | .flight _ => true
  | .unit _ _ len data => decide (0 < len.val) && (if isWrite then data.length == len.val else data.isEmpty)

/-- An expedited USDO write brings at least one byte, an upload asks for at least one (R496). -/
def UsdoOp.wf : UsdoOp → Bool
  | .upload room => decide (0 < room)
  | .expedited data => !data.isEmpty
  | .segmented total => decide (0 < total)

/-- The readings of one sampling name each island at most once (R521). -/
def readsWf (l : List SensorRead) : Bool := (l.map fun r => r.island.val).Nodup

/-- The well-formedness of a command. -/
def Instr.wf : Instr → Bool
  | .registerWrite _ _ _ data => [1, 2, 4, 8].contains data.length
  | .rcFieldRead _ _ _ len => [1, 2, 4, 8].contains len.val
  | .holdingRegisterLatch _ _ off => off.val % 4 == 0
  | .islandMapWrite _ mask _ | .promiseWrite mask _ | .laneCtrlWrite _ mask _ | .txFfeWrite _ mask _ | .dlWindowWrite _ _ mask _
  | .edgeConfigWrite _ mask _ | .gpiPinWrite _ mask _ | .linkConfigWrite _ mask _ | .beaconTreeConfig _ mask _
  | .pipeCtrlWrite mask _ | .portConfigWrite _ mask _ | .routeWrite _ _ mask _ | .guarWrite _ _ mask _
  | .mailboxDoorbell _ mask _ => byteMask mask
  | .semAdminWrite _ off mask _ => byteMask mask && off.val % 4 == 0
  | .sidePortRequest isWrite _ len _ _ data => decide (0 < len.val) && (if isWrite then data.length == len.val else data.isEmpty)
  | .read src _ => src.wf false
  | .write src _ => src.wf true
  | .ringAmoadd src _ => src.wf true
  | .ringAmoswap src _ => src.wf true
  | .writeP _ src _ => src.wf true
  | .event src _ => src.wf true
  | .haloFrame _ payload => decide (payload.length ≤ 2047)
  | .badOperation _ _ op _ => decide (op.val = 0 ∨ 5 < op.val)
  | .usdoRequest _ _ op => op.wf
  | .rpdo _ data => decide (data.length ≤ 64)
  | .lanternDatagram _ _ _ data => decide (data.length ≤ 1472)
  | .tempSample _ temps lows _ _ => temps.length == 16 && lows.length == 16
  | .sensorsSampled _ reads => readsWf reads
  | .avsComplete means => means.length == 16
  | .dawn _ us _ _ _ _ => decide (us < 2 ^ 32)
  | _ => true

end Sys2Proof
end

