-- ==== Sys2Proof/Safety.lean ====
section
/-! DEFINITION. What counts as a sound state of the block and as a safe run, in the terms that claims use. -/

namespace Sys2Proof.Safety

open Sys2Proof.Machine

/-- The commands that wait are well formed. -/
def queueWf (s : State) : Bool := s.pending.all Instr.wf

/-- The tables that every command may write stand in their canonical form: registers, the dictionary engine's copies of counts,
memory, its damaged words and the lanes. -/
def tablesWf (s : State) : Prop :=
  Sparse.wf 0 s.csr = true ∧ Sparse.wf 0 s.counts = true ∧ Sparse.wf memDefault s.mem = true ∧ Sparse.wf false s.poison = true ∧
    Sparse.wf {} s.lanes = true

/-- A step neither faults nor refuses. -/
def completes (s : State) : Prop := ∃ t, step s = .next t

/-- The always-on domain runs: the device is not held in reset, and Dusk is not complete (R554, R564, R566). -/
def stands (s : State) : Bool := !(s.pwr.held || s.powerState == 6)

/-- The command completes: `exec` answers a next state, of which `P` holds. -/
def Does (c : Instr) (s : State) (P : State → Prop) : Prop := ∃ r, exec c s = .next r ∧ P r

/-- The abort code of a check of the dictionary, 0 where it permits the request. -/
def codeOf : Except Nat ObjInfo → Nat
  | .error c => c
  | .ok _ => 0

/-- No initiator waits for a free tag of the ring, and no channel for its outstanding responses (R373, R442, R452). -/
def noStall (s : State) : Bool :=
  ((List.range 17).all fun u => match (s.th u).hold with
    | .access w => !w.stalled
    | _ => true) &&
  ((List.range 16).all fun n => !(s.dma n).draining && !(s.dma n).aborting && (s.dma n).ready.isNone && !(s.dma n).fetching) &&
  s.tap.waits.isNone

/-- The instruction that `u` issues reaches its own effect: its thread can issue, no imprecise trap is due, and its word is
fetched from an address that holds one, as it was encoded (R360, R361, R395, R409). -/
def runs (s : State) (u : Issue) : Bool :=
  s.thrCanIssue (thr u) u.late.val && (s.th (thr u)).due.isNone && pcOk (thr u) (s.th (thr u)).pc && u.fetch != .uncorrectable &&
    u.stray == 0

/-- The state in which an issued instruction acts: the cycles of its core have gone on, its turn is taken, and a corrected fetch
is counted. -/
def issued (s : State) (u : Issue) : State :=
  let t := s.tookIssue (thr u) u.cycles
  if u.fetch = .corrected then t.lramCorrected (coreOf (thr u)) else t

/-- The word that an integer register holds for an instruction. -/
def word (s : State) (u : Issue) (r : Fin 32) : BitVec 32 := BitVec.ofNat 32 ((s.th (thr u)).reg r.val)

/-- The core address of a load or store (R369). -/
def dataAt (s : State) (u : Issue) (ra : Fin 32) (imm : BitVec 16) : Nat := (word s u ra + imm.signExtend 32).toNat

/-- The instruction that `u` issues has ended: its thread goes on with the word after it, and counts it (R382). -/
abbrev next (u : Issue) (h h' : Th) (t : State) : Prop :=
  t.th (thr u) = { h' with pc := h.pc + 4, instret := (h.instret + 1) % 2 ^ 64 }

/-- From `s` to `r` the instruction that `u` issues has changed nothing outside its thread, its core's counts and memory. -/
abbrev still (s r : State) (u : Issue) : Prop :=
  r = { s with cpu := r.cpu, csr := r.csr, counts := r.counts, mem := r.mem } ∧ r.cpu.cores = (issued s u).cpu.cores ∧
    (u.fetch = .good → u.data = [] → r.csr = s.csr ∧ r.counts = s.counts) ∧ ∀ v < 17, v ≠ thr u → r.th v = s.th v

/-- Thread `id` of `s` has entered a trap in `r` (R406, R407): its registers stay. -/
abbrev trapped (s r : State) (id cause info resume : Nat) : Prop :=
  (r.th id).inTrap = true ∧ (r.th id).trapcode = cause ∧ (r.th id).trapinfo = info % 2 ^ 32 ∧ (r.th id).resume = resume ∧
    (r.th id).pc = 1024 * (s.th id).trapbase + 32 * cause ∧ (r.th id).g = (s.th id).g ∧ (r.th id).w = (s.th id).w ∧
    (r.th id).f = (s.th id).f ∧ (r.th id).cur = (s.th id).cur ∧ (r.th id).live = (s.th id).live ∧
    (r.th id).rstack = (s.th id).rstack ∧ r.mem = s.mem ∧ ∀ v < 17, v ≠ id → r.th v = s.th v

/-- The entry of its truth tables that PE `p` takes in an array operation (R149): 4a + 2b + k. -/
def tableIndex (s : State) (o : ArrayOp) (p : Nat) : Nat :=
  let k := match o.kSrc with
    | .c => s.arr.c
    | .f => s.arr.f
    | .x => s.arr.x
    | .y => s.arr.y
  4 * ((s.plane o.aAddr).testBit p).toNat + 2 * ((s.operandB o).1.testBit p).toNat + (k.testBit p).toNat

/-- PE `p` executes and keeps the results of an array operation (R149): mask_mode is all, or its M is 1. -/
abbrev enabled (s : State) (o : ArrayOp) (p : Nat) : Prop :=
  (s.pesWhere executing).testBit p = true ∧ (o.all = true ∨ s.arr.m.testBit p = true)

/-- The number that the `n` planes from address `a` on hold in PE `p`, bit 0 first (R199). -/
def fieldAt (s : State) (a n p : Nat) : Nat :=
  (List.range n).foldl (fun v i => v + 2 ^ i * ((s.plane ((a + i) % 4096)).testBit p).toNat) 0

end Sys2Proof.Safety
end

