-- ==== Sys2Proof/Certificates/Slice0/Obligations.lean ====
section
/-! DEFINITION. The statements for the provers. Each is a conjunction of clauses; a clause names one command, what it asks
of the state and of the operands, and what holds of the state after it. -/

open Sys2Proof Sys2Proof.Machine Sys2Proof.Safety

/-- A write of the CSR space acts on each field by its access code, a read clears or latches, and an undefined offset is
refused and reported. -/
def Obligations.RegisterAccess : Prop :=
  (∀ (s : State) (ini : Fin 41) (v : BitVec 32), s.awake = true →
      Does (.registerWrite ini 1 0x02C (leBytes 4 v.toNat)) s fun r => r.get GNO_HOLDOVER.limit = v.toNat % 65536 ∧ r.now = s.now ∧ ∀ a, r.byte a = s.byte a) ∧
  (∀ (s : State) (ini : Fin 41) (v : BitVec 32), s.awake = true →
      Does (.registerWrite ini 1 0x060 (leBytes 4 v.toNat)) s fun r => r.get GNO_ERR.xclk_lost = (if v.getLsbD 0 then 0 else s.get GNO_ERR.xclk_lost % 2) ∧ r.get GNO_ERR.freq_window = (if v.getLsbD 11 then 0 else s.get GNO_ERR.freq_window % 2)) ∧
  (∀ (s : State) (ini : Fin 41) (v : BitVec 32), s.awake = true →
      Does (.registerWrite ini 1 0x010 (leBytes 4 v.toNat)) s fun r => r.get GNO_PERIOD_MEAS.period_fs = s.get GNO_PERIOD_MEAS.period_fs) ∧
  (∀ (s : State) (ini : Fin 41) (v : BitVec 32), s.awake = true →
      exec (.registerWrite ini 1 0x100 (leBytes 4 v.toNat)) s = .next ((s.report 1 noInst 0xF000 ((0x2000010100 : Nat) + 2 ^ 40 * ini.val + 2 ^ 46 * 1 + 2 ^ 48 * 3 + 2 ^ 56 * 1)).emit (.refused 1))) ∧
  (∀ (s : State) (ini : Fin 41), s.awake = true →
      Does (.rcFieldRead ini 1 0x068 4) s fun r => r.get GNO_MISMATCH_CNT.count = 0 ∧ r.sent = s.sent ++ [.value (s.get GNO_MISMATCH_CNT.count % 2 ^ 32)]) ∧
  (∀ (s : State) (ini : Fin 41), s.awake = true →
      Does (.holdingRegisterLatch ini 1 0x038) s fun r => r.get GNO_ORBIT_HI.orbit = s.gno.orbit / 2 ^ 32 % 2 ^ 16 ∧ r.sent = s.sent ++ [.value (s.get GNO_ORBIT_LO.orbit % 2 ^ 32)]) ∧
  (∀ (s : State) (ini : Fin 41), s.awake = true →
      Does (.holdingRegisterLatch ini 1 0x048) s fun r => r.get GNO_SERIAL_HI.serial = (s.gno.tags.head?.map (fun g => g.serial / 2 ^ 32)).getD 0 % 2 ^ 32 ∧ r.sent = s.sent ++ [.value (s.get GNO_SERIAL_LO.serial % 2 ^ 32)])

/-- Gnomon moves between its lock states as the table of R28 states. -/
def Obligations.GnomonStates : Prop :=
  (∀ (s : State) (t : Nat), s.awake = true → s.gnoState = 0 →
      Does (.gnomonEnableWrite t true) s fun r => r.gnoState = 1 ∧ r.bit GNO_CTRL.enable = true ∧ r.now = max s.now t) ∧
  (∀ (s : State) (t : Nat), s.awake = true → s.gnoState ≠ 0 →
      Does (.gnomonEnableWrite t false) s fun r => r.gnoState = 0 ∧ r.bit GNO_CTRL.enable = false) ∧
  (∀ (s : State) (t : Nat), s.awake = true → s.gnoState = 1 →
      Does (.acquisitionComplete t) s fun r => r.gnoState = 2 ∧ r.get GNO_PERIOD_MIN.period_fs = windowPeriod (s.gno.oldNom.getD (s.get GNO_XCLK_NOM.nom_hz)) (1000000 + s.gno.oldTol.getD (s.get GNO_TRACK.tol_ppm)) % 2 ^ 32 ∧ r.get GNO_PERIOD_MAX.period_fs = windowPeriod (s.gno.oldNom.getD (s.get GNO_XCLK_NOM.nom_hz)) (1000000 - s.gno.oldTol.getD (s.get GNO_TRACK.tol_ppm)) % 2 ^ 32) ∧
  (∀ (s : State) (t : Nat) (freq : Bool), s.awake = true → s.gnoState = 3 → s.bit GNO_CTRL.holdover_en = true → s.get GNO_HOLDOVER.limit ≠ 0 →
      Does (.xclkLoss t freq) s fun r => r.gnoState = 4 ∧ r.gno.holdSlots = 0 ∧ r.get GNO_ERR.xclk_lost = 1 ∧ r.get GNO_ERR.holdover_entered = 1 ∧ (freq = true → r.get GNO_ERR.freq_window = 1)) ∧
  (∀ (s : State) (t : Nat) (freq : Bool), s.awake = true → s.gnoState = 2 →
      Does (.xclkLoss t freq) s fun r => r.gnoState = 5 ∧ r.get GNO_ERR.lost_entered = 1) ∧
  (∀ (s : State), s.awake = true → s.gnoState = 4 → s.gno.holdSlots < s.get GNO_HOLDOVER.limit →
      exec (.holdoverRecovery) s = .next (s.put GNO_STATUS.state 3)) ∧
  (∀ (s : State) (t : Nat), s.awake = true → s.gnoState = 4 → s.get GNO_HOLDOVER.limit ≤ s.gno.holdSlots →
      Does (.holdoverLimitExpiry t) s fun r => r.gnoState = 5 ∧ r.get GNO_ERR.lost_entered = 1) ∧
  (∀ (s : State) (t : Nat), s.awake = true → s.gnoState = 5 → s.bit GNO_CTRL.auto_relock = true →
      Does (.lostAutoRelock t) s fun r => r.gnoState = 1) ∧
  (∀ (s : State) (t : Nat), s.awake = true → s.gnoState = 5 →
      Does (.reacquire t) s fun r => r.gnoState = 1)

/-- A slot reference edge tags a crossing; the barrier stands for it with what is due, in the order of R16; an injected
word waits for a sample. That an ACCEPT names its crossing by the latency in force when it is sampled, and how words
that wait share the edges, are the model's choices (log entry 136, log entry 25). -/
def Obligations.GnomonEdges : Prop :=
  (∀ (s : State) (t : Nat) (meas : Option Nat), s.awake = true → s.hasTimeline = true →
      Does (.slotReferenceEdge t meas) s fun r => r.gno.nextSerial = (s.gno.nextSerial + 1) % 2 ^ 64 ∧ r.now = max s.now t ∧ (r.gno.tags.head?.map fun g => g.serial) = some s.gno.nextSerial ∧ r.get GNO_SERIAL_LO.serial = s.gno.nextSerial % 2 ^ 32) ∧
  (∀ (s : State) (t : Nat) (ecc : EccMap), s.awake = true → s.barrierReady = true →
      Does (.slotBarrier t ecc) s fun r => r.now = max s.now t ∧ r.gno.accepts = [] ∧ (s.hasTimeline = true → r.gno.barrier = some s.lastSerial)) ∧
  (∀ (s : State) (t : Nat) (ecc : EccMap), s.awake = true → s.barrierReady = true → s.gno.orDiscont = false →
      Does (.slotBarrier t ecc) s fun r => (s.seq.plan.isSome = true → r.gno.due.contains .plan = true) ∧ (s.powerEntering = true → r.gno.due.contains .power = true) ∧ (s.hasTimeline = true → (s.gno.named.all fun n => n.serial != s.slotSerial || r.gno.due.contains n.owner && !r.gno.named.contains n) = true) ∧ (s.gno.unnamed.all fun n => decide (1 < n.left) || r.gno.due.contains n.owner) = true) ∧
  (∀ (s : State), s.awake = true → s.gno.due.contains .plan = true →
      exec (.penumbraExchange) s = .next (s)) ∧
  (∀ (s : State) (n : Fin 4), s.awake = true → (s.gno.due.contains .plan || s.gno.due.contains .exchange || (List.range n.val).any fun k => s.gno.due.contains (.cset k)) = true →
      exec (.commitSetFire n) s = .next (s)) ∧
  (∀ (s : State) (f : Fin 57), s.awake = true → (s.gno.due.contains .plan || s.gno.due.contains .exchange || (List.range 4).any fun k => s.gno.due.contains (.cset k)) = true →
      exec (.facetSwitchEntry f) s = .next (s)) ∧
  (∀ (s : State), s.awake = true → (s.gno.due.contains .plan || s.gno.due.contains .exchange || (List.range 4).any fun k => s.gno.due.contains (.cset k)) = true →
      exec (.prismApplyCommit) s = .next (s)) ∧
  (∀ (s : State), s.awake = true → (s.gno.due.contains .plan || s.gno.due.contains .exchange || (List.range 4).any fun k => s.gno.due.contains (.cset k)) = true →
      exec (.epochFire) s = .next (s)) ∧
  (∀ (s : State), s.awake = true → s.gno.due ≠ [] →
      exec (.orbitMark) s = .next (s)) ∧
  (∀ (s : State), s.awake = true → s.gno.due ≠ [] →
      exec (.accept) s = .next (s)) ∧
  (∀ (s : State), s.awake = true → s.gno.due ≠ [] →
      exec (.internalAccept) s = .next (s)) ∧
  (∀ (s : State), s.awake = true → s.gno.due ≠ [] →
      exec (.eventReset) s = .next (s)) ∧
  (∀ (s : State), s.awake = true → s.gno.due ≠ [] →
      exec (.orbitReset) s = .next (s)) ∧
  (∀ (s : State), s.awake = true → s.gno.due ≠ [] →
      exec (.resync) s = .next (s)) ∧
  (∀ (s : State), s.awake = true → s.gno.due ≠ [] →
      exec (.calReq) s = .next (s)) ∧
  (∀ (s : State) (n : Fin 16), s.awake = true → s.gno.due ≠ [] →
      exec (.userCommand n) s = .next (s)) ∧
  (∀ (s : State) (t : Nat) (w : BitVec 16), s.awake = true → s.hasTimeline = true → s.gno.presented = some w.toNat → 2 ≤ s.gno.setup → 0 < w.toNat % 256 → w.toNat % 256 ≤ 6 → (s.get GNO_FC_ENABLE.mask).testBit (w.toNat % 256 - 1) = true →
      Does (.slotReferenceEdge t none) s fun r => r.gno.presented = none ∧ r.gno.sampled = w.toNat ∧ r.gno.words = s.gno.words ++ [{ word := w.toNat, serial := s.gno.nextSerial, target := (s.gno.nextSerial + 2 ^ 64 - s.gno.oldLat.getD (s.get GNO_ACCEPT_LAT.slots)) % 2 ^ 64 }]) ∧
  (∀ (s : State) (t : Nat), s.awake = true → s.hasTimeline = true → s.gno.inject = none → s.gno.setup < 2 →
      Does (.slotReferenceEdge t none) s fun r => r.gno.presented = s.gno.presented ∧ r.gno.sampled = 0 ∧ r.gno.words = s.gno.words) ∧
  (∀ (s : State) (word : BitVec 16), s.awake = true → s.gno.inject = none →
      exec (.fcInject word) s = .next ((s.updGno fun g => { g with inject := some word.toNat }).put GNO_STATUS.inject_pending 1)) ∧
  (∀ (s : State) (word : BitVec 16), s.awake = true → s.gno.inject.isSome = true →
      Does (.fcInject word) s fun r => r.gno.inject = s.gno.inject ∧ r.get GNO_ERR.fc_collision = 1) ∧
  (∀ (s : State), s.awake = true →
      Does (.cancelNamed) s fun r => ∀ o, o ≠ Owner.plan → o ≠ Owner.power → s.gno.named.any (fun n => n.owner = o) = true → r.gno.named.all (fun n => n.owner ≠ o) = true ∧ r.get GNO_ERR.named_cancelled = 1)

/-- Each fast command has the effect of its code at its effect barrier. That the 4,096 slots are counted in serials and
that a crossing tagged before LOST can be accepted after it is the model's choice (log entry 137), as is the place of
index 0 with tag offset 0 (log entry 132). -/
def Obligations.FastCommandEffects : Prop :=
  (∀ (s : State) (w : FcWord), s.awake = true → s.effectOf 1 = some w → s.gnoState = 2 →
      Does (.orbitMark) s fun r => r.gnoState = 3 ∧ r.get GNO_STATUS.numbered = 1 ∧ r.get GNO_STATUS.resync_pending = 0 ∧ r.gno.effect = none ∧ (r.gno.segs.head?.map fun g => g.zero) = some ((w.serial + 2 + s.get GNO_TAG_OFFSET.offset) % 2 ^ 64) ∧ (r.gno.segs.head?.map fun g => g.length) = some (s.get GNO_ORBIT_LEN.length)) ∧
  (∀ (s : State) (w : FcWord) (g : Tag), s.awake = true → s.effectOf 2 = some w → s.tagging = true → serialAge w.target s.lastSerial ≤ 4096 → (s.gno.tags.find? (fun q => q.serial = w.target ∧ q.numbered) = some g) → g.event = none →
      Does (.accept) s fun r => r.gno.event = (s.gno.event + 1) % 2 ^ 48 ∧ r.gno.effect = none ∧ (r.gno.tags.find? fun q => q.serial = w.target ∧ q.numbered).map (fun q => q.event) = some (some s.gno.event)) ∧
  (∀ (s : State) (c : Nat) (g : Tag), s.awake = true → s.gno.acceptsDue = [c] → s.gno.effect = none → s.gno.due = [] → s.tagging = true → serialAge c s.lastSerial ≤ 4096 → (s.gno.tags.find? (fun q => q.serial = c ∧ q.numbered) = some g) → g.event = none →
      Does (.internalAccept) s fun r => r.gno.event = (s.gno.event + 1) % 2 ^ 48 ∧ r.gno.acceptsDue = []) ∧
  (∀ (s : State) (w : FcWord), s.awake = true → s.effectOf 3 = some w →
      Does (.eventReset) s fun r => r.gno.event = 0 ∧ r.get GNO_EVENT_LO.event = 0 ∧ r.gno.effect = none ∧ r.get GNO_FC_LAST.word = w.word % 65536) ∧
  (∀ (s : State) (w : FcWord), s.awake = true → s.effectOf 4 = some w →
      Does (.orbitReset) s fun r => r.bit GNO_STATUS.orbit_reset_pending = true ∧ r.gno.orbit = s.gno.orbit ∧ r.gno.effect = none) ∧
  (∀ (s : State), s.awake = true → s.orbitResetReady = true →
      Does (.orbitResetAct) s fun r => r.gno.orbit = 0 ∧ r.bit GNO_STATUS.orbit_reset_pending = false ∧ r.get GNO_ORBIT_LO.orbit = 0 ∧ r.gno.orDiscont = true) ∧
  (∀ (s : State) (w : FcWord), s.awake = true → s.effectOf 5 = some w →
      Does (.resync) s fun r => r.bit GNO_STATUS.resync_pending = true ∧ r.gno.effect = none) ∧
  (∀ (s : State) (w : FcWord), s.awake = true → s.effectOf 6 = some w →
      exec (.calReq) s = .next ((s.tookEffect w).seqFastCommand 6 (w.word / 256 % 256))) ∧
  (∀ (s : State) (n : Fin 16) (w : FcWord), s.awake = true → s.effectOf (16 + n.val) = some w →
      exec (.userCommand n) s = .next ((s.tookEffect w).seqFastCommand (16 + n.val) (w.word / 256 % 256)))

/-- The commands of ARR_ISL_CMD are judged against the island's state, and the accepted ones wait for the next token. -/
def Obligations.IslandCommands : Prop :=
  (∀ (s : State) (i : Fin 16), s.awake = true → s.islState i.val ≠ 0 →
      Does (.islandOff i) s fun r => (r.isl i.val).cmd.testBit 0 = true ∧ r.islState i.val = s.islState i.val) ∧
  (∀ (s : State) (i : Fin 16), s.awake = true → s.islState i.val = 0 →
      Does (.islandOff i) s fun r => r.get ARR_ISL_ERR.cmd_refused i.val = 1 ∧ (r.isl i.val).cmd = (s.isl i.val).cmd) ∧
  (∀ (s : State) (i : Fin 16), s.awake = true → (s.islState i.val = 0 ∨ s.islState i.val = 5) → (s.get TAR_STATUS.retired).testBit i.val = false →
      Does (.islandOn i) s fun r => (r.isl i.val).cmd.testBit 1 = true) ∧
  (∀ (s : State) (i : Fin 16), s.awake = true → (s.islState i.val = 3 ∨ s.islState i.val = 4) →
      Does (.islandQuarantine i) s fun r => (r.isl i.val).cmd.testBit 2 = true) ∧
  (∀ (s : State) (i : Fin 16), s.awake = true →
      Does (.applyMap i) s fun r => (r.isl i.val).cmd.testBit 3 = true ∧ (r.isl i.val).map = s.get ARR_ISL_MAP.cols i.val) ∧
  (∀ (s : State) (i : Fin 16) (v : BitVec 32), s.awake = true → (∀ j < 4, bits v.toNat (8 * j) 8 ≤ 131 ∧ ∀ k < j, bits v.toNat (8 * k) 8 ≠ bits v.toNat (8 * j) 8) →
      Does (.islandMapWrite i 0xFFFFFFFF#32 v) s fun r => r.get ARR_ISL_MAP.cols i.val = v.toNat) ∧
  (∀ (s : State) (i : Fin 16) (v : BitVec 32), s.awake = true → (¬ ∀ j < 4, bits v.toNat (8 * j) 8 ≤ 131 ∧ ∀ k < j, bits v.toNat (8 * k) 8 ≠ bits v.toNat (8 * j) 8) →
      Does (.islandMapWrite i 0xFFFFFFFF#32 v) s fun r => r.get ARR_ISL_ERR.map_refused i.val = 1 ∧ r.get ARR_ISL_MAP.cols i.val = s.get ARR_ISL_MAP.cols i.val % 2 ^ 32) ∧
  (∀ (s : State) (v : BitVec 32), s.awake = true →
      Does (.edgeConfigWrite none 0xFFFFFFFF#32 v) s fun r => r.get ARR_EDGE.n_mode = bits v.toNat 0 2 ∧ r.get ARR_EDGE.w_mode = bits v.toNat 6 2 ∧ r.arr.edge = s.arr.edge) ∧
  (∀ (s : State) (n : Fin 8) (v : BitVec 32), s.awake = true → v.getLsbD 31 = false → bits v.toNat 0 12 ≤ 0xF7F →
      Does (.edgeConfigWrite (some n) 0xFFFFFFFF#32 v) s fun r => r.get ARR_WHALO.addr n.val = bits v.toNat 0 12 ∧ r.bit ARR_WHALO.enable n.val = false) ∧
  (∀ (s : State), s.awake = true →
      exec (.epochBump) s = .next ({ s with arr := { s.arr with bump := true } }))

/-- Arrivals, timeouts, clocks and clearing of the islands, and their reloads. -/
def Obligations.IslandEvents : Prop :=
  (∀ (s : State) (i : Fin 16) (t : Nat) (late : Bool), s.awake = true → executing (s.islState i.val) = true → Sparse.get 0 s.arr.arrived i.val = 0 →
      Does (.islandArrive i t late) s fun r => Sparse.get 0 r.arr.arrived i.val = t + 1 ∧ r.arr.late = (s.arr.late || late)) ∧
  (∀ (s : State) (i : Fin 16), s.awake = true → executing (s.islState i.val) = true → Sparse.get 0 s.arr.arrived i.val = 0 →
      Does (.barrierTimeout i) s fun r => r.islState i.val = 5 ∧ r.get ARR_ISL_STATUS.reason i.val = 3 ∧ r.get ARR_ERR.bar_timeout = 1 ∧ r.get ARR_ISL_ERR.bar_timeout i.val = 1) ∧
  (∀ (s : State) (i : Fin 16) (p : Fin 0x100000), s.awake = true → (executing (s.islState i.val) = true ∨ s.islState i.val = 1 ∧ (s.isl i.val).unlocked = false) → 103 * s.get ARR_ISL_CLK_PLAN.period_fs i.val < 100 * p.val →
      Does (.islandClockSlow i p) s fun r => r.get ARR_ISL_ERR.clk_slow i.val = 1 ∧ r.get ARR_ISL_CLK_MEAS.period_fs i.val = p.val ∧ ((s.isl i.val).slow = false → r.get ARR_ISL_SLOW_CNT.count i.val = min (2 ^ 32 - 1) (s.get ARR_ISL_SLOW_CNT.count i.val + 1))) ∧
  (∀ (s : State) (i : Fin 16) (p : Fin 0x100000), s.awake = true → (executing (s.islState i.val) = true ∨ s.islState i.val = 1 ∧ (s.isl i.val).unlocked = false) → 100 * p.val ≤ 103 * s.get ARR_ISL_CLK_PLAN.period_fs i.val →
      exec (.islandClockSlow i p) s = .next (s.put ARR_ISL_CLK_MEAS.period_fs p.val i.val)) ∧
  (∀ (s : State) (i : Fin 16), s.awake = true → executing (s.islState i.val) = true →
      Does (.islandClockUnlock i) s fun r => r.islState i.val = 5 ∧ r.get ARR_ISL_STATUS.reason i.val = 4 ∧ r.get ARR_ISL_ERR.clk_unlock i.val = 1) ∧
  (∀ (s : State) (i : Fin 16), s.awake = true → s.islState i.val = 1 →
      Does (.islandClockUnlock i) s fun r => r.islState i.val = 1 ∧ (r.isl i.val).unlocked = true ∧ (r.isl i.val).cleared = false ∧ r.get ARR_ISL_ERR.clk_unlock i.val = 1) ∧
  (∀ (s : State) (i : Fin 16), s.awake = true → s.islState i.val = 1 → (s.isl i.val).unlocked = true →
      Does (.islandClockRelock i) s fun r => (r.isl i.val).unlocked = false ∧ (r.isl i.val).cleared = false) ∧
  (∀ (s : State) (i : Fin 16), s.awake = true → s.islState i.val = 1 → (s.isl i.val).unlocked = false → (s.isl i.val).cleared = false →
      Does (.clearingComplete i) s fun r => (r.isl i.val).cleared = true ∧ r.islState i.val = 1) ∧
  (∀ (s : State) (i : Fin 16), s.awake = true → (s.islState i.val = 1 ∨ s.islState i.val = 2) → s.bit ARR_ISL_RELOAD_STATUS.busy i.val = false →
      Does (.reloadStart i) s fun r => (r.isl i.val).reload.map (fun x => x.epoch) = some (s.get ARR_ISL_RELOAD_EPOCH.epoch i.val) ∧ r.get ARR_ISL_RELOAD_STATUS.busy i.val = 1 ∧ r.get ARR_ISL_STATUS.epoch_valid i.val = 0) ∧
  (∀ (s : State) (i : Fin 16), s.awake = true → (s.islState i.val ≠ 1 ∧ s.islState i.val ≠ 2 ∨ s.bit ARR_ISL_RELOAD_STATUS.busy i.val = true) →
      Does (.reloadStart i) s fun r => r.get ARR_ISL_ERR.reload_refused i.val = 1 ∧ (r.isl i.val).reload = (s.isl i.val).reload) ∧
  (∀ (s : State) (i : Fin 16) (x : Reload) (ecc : EccMap), s.awake = true → s.islState i.val = 2 → (s.isl i.val).cycles ≠ 0 → (s.isl i.val).reload = some x → x.planes.length ≤ x.next + 1 → (x.planes.length = x.next + 1 → (s.reloadData i.val x ecc).2.isSome = true) →
      Does (.reloadComplete i ecc) s fun r => r.get ARR_ISL_STATUS.epoch_valid i.val = 1 ∧ r.get ARR_ISL_EPOCH.epoch i.val = x.epoch % 2 ^ 32 ∧ r.get ARR_ISL_RELOAD_STATUS.done_ i.val = 1 ∧ r.get ARR_ISL_RELOAD_STATUS.busy i.val = 0 ∧ (r.isl i.val).reload = none) ∧
  (∀ (s : State) (i : Fin 16) (x : Reload) (ecc : EccMap) (d : Nat), s.awake = true → s.islState i.val = 2 → (s.isl i.val).cycles ≠ 0 → (s.isl i.val).reload = some x → x.planes.length = x.next + 1 → 0x80 ≤ x.planes.getD x.next 0 → x.planes.getD x.next 0 < 0xF80 → (s.reloadData i.val x ecc).2 = some d →
      Does (.reloadComplete i ecc) s fun r => ∀ a, r.plane a = if a = x.planes.getD x.next 0 then mixBits (s.plane a) d (islandMask i.val) else s.plane a) ∧
  (∀ (s : State) (i : Fin 16), s.awake = true → (s.isl i.val).reload.isSome = true →
      Does (.reloadFetchError i) s fun r => (r.isl i.val).reload = none ∧ r.get ARR_ISL_ERR.reload_err i.val = 1 ∧ r.get ARR_ISL_STATUS.epoch_valid i.val = 0) ∧
  (∀ (s : State) (i : Fin 16), s.awake = true → (s.isl i.val).reload.isSome = true →
      Does (.reloadAbort i) s fun r => (r.isl i.val).reload = none ∧ r.get ARR_ISL_ERR.reload_aborted i.val = 1 ∧ r.get ARR_ISL_STATUS.epoch_valid i.val = 0) ∧
  (∀ (s : State) (i : Fin 16), s.awake = true → s.bit ARR_ISL_CTRL.auto_reload i.val = true → (s.islState i.val = 1 ∨ s.islState i.val = 2) → (s.isl i.val).reload = none → s.pri.turns = 0 → (s.bit ARR_ISL_STATUS.epoch_valid i.val = false ∨ s.get ARR_ISL_EPOCH.epoch i.val ≠ s.get ARR_EPOCH.epoch) →
      Does (.autoReload i) s fun r => (r.isl i.val).reload.map (fun x => x.epoch) = some (s.get ARR_EPOCH.epoch) ∧ (r.isl i.val).reload.map (fun x => x.firmware) = some true ∧ r.get ARR_ISL_RELOAD_STATUS.busy i.val = 1)

/-- A microword is issued, waits, is released and times out; the flow commands move the running context. -/
def Obligations.MicrowordIssue : Prop :=
  (∀ (s : State) (halo queue : List (Fin 16 × Nat)) (h k c : Nat), s.awake = true → s.canIssue = true → s.seq.run.who = some (.stage h k c) → s.seq.run.waiting = false → mwWaitCond s.curWord = 0 → mwFlow s.curWord = 0 → s.seq.run.used + mwCycles s.curWord (mwTimeout s.curWord) ≤ s.seq.run.length →
      Does (.microwordIssue halo queue) s fun r => r.curCtx.pc = (s.curCtx.pc + 1) % 2 ^ 14 ∧ r.seq.run.used = s.seq.run.used + mwTimeout s.curWord + 1 ∧ r.seq.run.who = s.seq.run.who) ∧
  (∀ (s : State) (halo queue : List (Fin 16 × Nat)) (h k c : Nat) (p : Fin 131072), s.awake = true → s.canIssue = true → s.seq.run.who = some (.stage h k c) → s.seq.run.waiting = false → mwWaitCond s.curWord = 0 → mwFlow s.curWord = 0 → mwBSrc s.curWord ≤ 4 → s.seq.run.used + mwCycles s.curWord (mwTimeout s.curWord) ≤ s.seq.run.length →
      Does (.microwordIssue halo queue) s fun r => r.arr.f.testBit p.val = if (mwArrayOp s.curCtx s.curWord).dest = .f ∧ enabled s (mwArrayOp s.curCtx s.curWord) p.val then (mwArrayOp s.curCtx s.curWord).ttR.testBit (tableIndex s (mwArrayOp s.curCtx s.curWord) p.val) else s.arr.f.testBit p.val ∧ r.arr.x.testBit p.val = if (mwArrayOp s.curCtx s.curWord).dest = .x ∧ enabled s (mwArrayOp s.curCtx s.curWord) p.val then (mwArrayOp s.curCtx s.curWord).ttR.testBit (tableIndex s (mwArrayOp s.curCtx s.curWord) p.val) else s.arr.x.testBit p.val ∧ r.arr.y.testBit p.val = if (mwArrayOp s.curCtx s.curWord).dest = .y ∧ enabled s (mwArrayOp s.curCtx s.curWord) p.val then (mwArrayOp s.curCtx s.curWord).ttR.testBit (tableIndex s (mwArrayOp s.curCtx s.curWord) p.val) else s.arr.y.testBit p.val ∧ r.arr.m.testBit p.val = if (mwArrayOp s.curCtx s.curWord).dest = .m ∧ (s.pesWhere executing).testBit p.val = true then (mwArrayOp s.curCtx s.curWord).ttR.testBit (tableIndex s (mwArrayOp s.curCtx s.curWord) p.val) else s.arr.m.testBit p.val ∧ r.arr.c.testBit p.val = if (mwArrayOp s.curCtx s.curWord).carry = true ∧ enabled s (mwArrayOp s.curCtx s.curWord) p.val then (mwArrayOp s.curCtx s.curWord).ttC.testBit (tableIndex s (mwArrayOp s.curCtx s.curWord) p.val) else s.arr.c.testBit p.val) ∧
  (∀ (s : State) (halo queue : List (Fin 16 × Nat)) (h k c : Nat) (p : Fin 131072), s.awake = true → s.canIssue = true → s.seq.run.who = some (.stage h k c) → s.seq.run.waiting = false → mwWaitCond s.curWord = 0 → mwFlow s.curWord = 0 → mwBSrc s.curWord ≤ 4 → s.seq.run.used + mwCycles s.curWord (mwTimeout s.curWord) ≤ s.seq.run.length → 0x80 ≤ (mwArrayOp s.curCtx s.curWord).wAddr → (mwArrayOp s.curCtx s.curWord).wAddr < 0xF80 → s.savePlane (mwArrayOp s.curCtx s.curWord).wAddr = false →
      Does (.microwordIssue halo queue) s fun r => ∀ a, (r.plane a).testBit p.val = if a = (mwArrayOp s.curCtx s.curWord).wAddr ∧ (mwArrayOp s.curCtx s.curWord).dest = .mem ∧ enabled s (mwArrayOp s.curCtx s.curWord) p.val then (mwArrayOp s.curCtx s.curWord).ttR.testBit (tableIndex s (mwArrayOp s.curCtx s.curWord) p.val) else (s.plane a).testBit p.val) ∧
  (∀ (s : State) (cycles : Fin 4096) (halo queue : List (Fin 16 × Nat)) (h k c : Nat), s.awake = true → s.canIssue = true → s.seq.run.who = some (.stage h k c) → s.seq.run.waiting = true → s.waitHolds (mwWaitCond s.curWord) (mwWaitArg s.curWord) = true → mwWaitMode s.curWord = 0 → cycles.val ≤ mwTimeout s.curWord → mwFlow s.curWord = 0 → s.seq.run.used + mwCycles s.curWord cycles.val ≤ s.seq.run.length →
      Does (.waitRelease cycles halo queue) s fun r => r.seq.run.waiting = false ∧ r.curCtx.tgt = false ∧ r.curCtx.pc = (s.curCtx.pc + 1) % 2 ^ 14 ∧ r.seq.run.used = s.seq.run.used + cycles.val + 1) ∧
  (∀ (s : State) (halo queue : List (Fin 16 × Nat)) (h k c : Nat), s.awake = true → s.canIssue = true → s.seq.run.who = some (.stage h k c) → s.seq.run.waiting = true → s.waitHolds (mwWaitCond s.curWord) (mwWaitArg s.curWord) = false → mwFlow s.curWord = 0 → s.seq.run.used + mwCycles s.curWord (mwTimeout s.curWord) ≤ s.seq.run.length →
      Does (.waitTimeout halo queue) s fun r => r.seq.run.waiting = false ∧ r.curCtx.tgt = true ∧ r.get SEQ_ERR.wait_timeout = 1 ∧ r.curCtx.pc = (s.curCtx.pc + 1) % 2 ^ 14) ∧
  (∀ (s : State), s.awake = true → s.canIssue = true →
      Does (.seqNext) s fun r => r.curCtx.pc = (s.curCtx.pc + 1) % 2 ^ 14) ∧
  (∀ (s : State) (a : Fin 16384), s.awake = true → s.canIssue = true →
      Does (.jump a) s fun r => r.curCtx.pc = a.val) ∧
  (∀ (s : State) (q : Fin 64) (a : Fin 16384), s.awake = true → s.canIssue = true →
      Does (.jif q a) s fun r => r.curCtx.pc = if s.condHolds s.curCtx (match s.seq.run.who with | some (.stage _ _ _) => true | _ => false) q.val then a.val else (s.curCtx.pc + 1) % 2 ^ 14) ∧
  (∀ (s : State) (q : Fin 64) (a : Fin 16384), s.awake = true → s.canIssue = true →
      Does (.jifn q a) s fun r => r.curCtx.pc = if s.condHolds s.curCtx (match s.seq.run.who with | some (.stage _ _ _) => true | _ => false) q.val then (s.curCtx.pc + 1) % 2 ^ 14 else a.val) ∧
  (∀ (s : State) (a : Fin 16384), s.awake = true → s.canIssue = true →
      Does (.seqCall a) s fun r => r.curCtx.pc = a.val ∧ r.curCtx.stack = (s.curCtx.pc + 1) :: s.curCtx.stack) ∧
  (∀ (s : State) (x : Nat) (xs : List Nat), s.awake = true → s.canIssue = true → s.curCtx.stack = x :: xs →
      Does (.seqRet) s fun r => r.curCtx.pc = x % 2 ^ 14 ∧ r.curCtx.stack = xs) ∧
  (∀ (s : State) (a b w : Fin 4096) (m : Fin 8) (q : Fin 16) (v : BitVec 16) (z : Fin 16384), s.awake = true → s.canIssue = true → libEntry z.val = none →
      Does (.pcall a b w m q v z) s fun r => r.curCtx.pc = z.val ∧ r.curCtx.stack = (s.curCtx.pc + 1) :: s.curCtx.stack ∧ r.curCtx.reg 12 = a.val ∧ r.curCtx.reg 13 = b.val ∧ r.curCtx.reg 14 = w.val ∧ r.curCtx.reg 15 = s.curCtx.reg q.val % 2 ^ 32) ∧
  (∀ (s : State) (a b w : Fin 4096) (m : Fin 8) (q : Fin 16) (v : BitVec 16) (z : Fin 16384) (h k c : Nat), s.awake = true → s.canIssue = true → (libEntry z.val).isSome = true → s.seq.run.who = some (.stage h k c) →
      Does (.pcall a b w m q v z) s fun r => r.seq.run.used = s.seq.run.used + libCycles z.val (callN v.toNat) (callM v.toNat) (callOpt v.toNat)) ∧
  (∀ (s : State) (a b w : Fin 4096) (q : Fin 16) (v : BitVec 16) (z : Fin 16384) (h k c : Nat) (p : Fin 131072), s.awake = true → s.canIssue = true → s.seq.run.who = some (.stage h k c) → (z.val = 0x10 ∨ z.val = 0x20 ∨ z.val = 0xF0 ∨ z.val = 0xF8) → 0x80 ≤ w.val → w.val + callN v.toNat ≤ 0xF7E → s.seq.bgSave = none →
      Does (.pcall a b w 0 q v z) s fun r => fieldAt r w.val (callN v.toNat) p.val = if (s.pesWhere executing).testBit p.val = true ∧ s.arr.m.testBit p.val = true then (if z.val = 0x10 then (fieldAt s a.val (callN v.toNat) p.val + fieldAt s b.val (callN v.toNat) p.val) % 2 ^ callN v.toNat else if z.val = 0x20 then (fieldAt s a.val (callN v.toNat) p.val + 2 ^ callN v.toNat - fieldAt s b.val (callN v.toNat) p.val) % 2 ^ callN v.toNat else if z.val = 0xF0 then fieldAt s b.val (callN v.toNat) p.val else 0) else fieldAt s w.val (callN v.toNat) p.val)

/-- Loops, the end of a stage, yield points and the end of a background pass. -/
def Obligations.MicrowordFlow : Prop :=
  (∀ (s : State) (n : Fin 8) (a : Fin 16384), s.awake = true → s.canIssue = true → s.curCtx.loopTaken n.val = true → (s.seq.run.who = some .background → s.seq.abortPass = false ∧ s.bit SEQ_BG_CTRL.enable = true ∧ s.seq.run.used + s.bgY + 5 ≤ s.seq.run.length) →
      Does (.loop n a) s fun r => r.curCtx.pc = a.val ∧ (r.curCtx.loop n.val).li = (s.curCtx.loop n.val).li + 1) ∧
  (∀ (s : State) (n : Fin 8) (a : Fin 16384), s.awake = true → s.canIssue = true → s.curCtx.loopTaken n.val = false →
      Does (.loop n a) s fun r => r.curCtx.pc = (s.curCtx.pc + 1) % 2 ^ 14 ∧ (r.curCtx.loop n.val).li = 0) ∧
  (∀ (s : State) (h k c : Nat), s.awake = true → s.canIssue = true → s.seq.run.who = some (.stage h k c) →
      Does (.stageEnd) s fun r => r.get SEQ_FG_CYCLES.last = min 0xFFFF s.seq.run.used ∧ (r.half h).ran = (s.half h).ran ++ [(k, c)] ∧ r.seq.run.todo = s.seq.run.todo.tail) ∧
  (∀ (s : State), s.awake = true → s.canIssue = true → s.seq.run.who = some .background → s.seq.abortPass = false → s.bit SEQ_BG_CTRL.enable = true → s.seq.run.used + s.bgY + 5 ≤ s.seq.run.length →
      Does (.yield) s fun r => r.seq.run.who = some .background ∧ r.curCtx.pc = (s.curCtx.pc + 1) % 2 ^ 14) ∧
  (∀ (s : State), s.awake = true → s.canIssue = true → s.seq.run.who = some .background → s.seq.abortPass = false → s.seq.run.length < s.seq.run.used + s.bgY + 5 →
      Does (.yield) s fun r => r.seq.run.who = none) ∧
  (∀ (s : State), s.awake = true → s.canIssue = true → s.seq.run.who = some .background → s.seq.abortPass = false →
      Does (.bgEnd) s fun r => r.get SEQ_BG_STATUS.pass_done = 1 ∧ r.seq.passDone = true ∧ r.seq.inPass = false ∧ r.seq.bgFresh = true)

/-- Each scalar operation writes its register, loop counter or flags of the running context. -/
def Obligations.MicrowordScalars : Prop :=
  (∀ (s : State), s.awake = true → s.canIssue = true →
      exec (.scNop) s = .next (s)) ∧
  (∀ (s : State) (d : Fin 16) (v : BitVec 16), s.awake = true → s.canIssue = true →
      Does (.ldi d v) s fun r => r.curCtx.reg d.val = (v.zeroExtend 32).toNat ∧ r.curCtx.z = decide ((v.zeroExtend 32).toNat = 0) ∧ r.curCtx.n = (v.zeroExtend 32).msb ∧ r.curCtx.pc = s.curCtx.pc) ∧
  (∀ (s : State) (d : Fin 16) (v : BitVec 16), s.awake = true → s.canIssue = true →
      Does (.ldih d v) s fun r => r.curCtx.reg d.val = ((v ++ (BitVec.ofNat 16 (s.curCtx.reg d.val)) : BitVec 32)).toNat ∧ r.curCtx.z = decide (((v ++ (BitVec.ofNat 16 (s.curCtx.reg d.val)) : BitVec 32)).toNat = 0) ∧ r.curCtx.n = ((v ++ (BitVec.ofNat 16 (s.curCtx.reg d.val)) : BitVec 32)).msb ∧ r.curCtx.pc = s.curCtx.pc) ∧
  (∀ (s : State) (d q : Fin 16) (v : BitVec 16), s.awake = true → s.canIssue = true →
      Does (.scAddi d q v) s fun r => r.curCtx.reg d.val = ((BitVec.ofNat 32 (s.curCtx.reg q.val) + v.signExtend 32)).toNat ∧ r.curCtx.z = decide (((BitVec.ofNat 32 (s.curCtx.reg q.val) + v.signExtend 32)).toNat = 0) ∧ r.curCtx.n = ((BitVec.ofNat 32 (s.curCtx.reg q.val) + v.signExtend 32)).msb ∧ r.curCtx.pc = s.curCtx.pc) ∧
  (∀ (s : State) (d q : Fin 16), s.awake = true → s.canIssue = true →
      Does (.mov d q) s fun r => r.curCtx.reg d.val = (BitVec.ofNat 32 (s.curCtx.reg q.val)).toNat ∧ r.curCtx.z = decide ((BitVec.ofNat 32 (s.curCtx.reg q.val)).toNat = 0) ∧ r.curCtx.n = (BitVec.ofNat 32 (s.curCtx.reg q.val)).msb ∧ r.curCtx.pc = s.curCtx.pc) ∧
  (∀ (s : State) (d q : Fin 16) (v : BitVec 16), s.awake = true → s.canIssue = true →
      Does (.subr d q v) s fun r => r.curCtx.reg d.val = ((BitVec.ofNat 32 (s.curCtx.reg q.val) - BitVec.ofNat 32 (s.curCtx.reg (v.toNat % 16)))).toNat ∧ r.curCtx.z = decide (((BitVec.ofNat 32 (s.curCtx.reg q.val) - BitVec.ofNat 32 (s.curCtx.reg (v.toNat % 16)))).toNat = 0) ∧ r.curCtx.n = ((BitVec.ofNat 32 (s.curCtx.reg q.val) - BitVec.ofNat 32 (s.curCtx.reg (v.toNat % 16)))).msb ∧ r.curCtx.pc = s.curCtx.pc) ∧
  (∀ (s : State) (d q : Fin 16) (v : BitVec 16), s.awake = true → s.canIssue = true →
      Does (.scAndi d q v) s fun r => r.curCtx.reg d.val = ((BitVec.ofNat 32 (s.curCtx.reg q.val) &&& v.zeroExtend 32)).toNat ∧ r.curCtx.z = decide (((BitVec.ofNat 32 (s.curCtx.reg q.val) &&& v.zeroExtend 32)).toNat = 0) ∧ r.curCtx.n = ((BitVec.ofNat 32 (s.curCtx.reg q.val) &&& v.zeroExtend 32)).msb ∧ r.curCtx.pc = s.curCtx.pc) ∧
  (∀ (s : State) (d q : Fin 16), s.awake = true → s.canIssue = true →
      Does (.bcnt d q) s fun r => r.curCtx.reg d.val = (BitVec.ofNat 32 (s.get BCN_BR.count (q.val % 4))).toNat ∧ r.curCtx.z = decide ((BitVec.ofNat 32 (s.get BCN_BR.count (q.val % 4))).toNat = 0) ∧ r.curCtx.n = (BitVec.ofNat 32 (s.get BCN_BR.count (q.val % 4))).msb ∧ r.curCtx.pc = s.curCtx.pc) ∧
  (∀ (s : State) (d q : Fin 16), s.awake = true → s.canIssue = true →
      Does (.bfirst d q) s fun r => r.curCtx.reg d.val = (if s.bit BCN_BR_FIRST.none (q.val % 4) then 0xFFFFFFFF#32 else BitVec.ofNat 32 (s.get BCN_BR_FIRST.index (q.val % 4))).toNat ∧ r.curCtx.z = decide ((if s.bit BCN_BR_FIRST.none (q.val % 4) then 0xFFFFFFFF#32 else BitVec.ofNat 32 (s.get BCN_BR_FIRST.index (q.val % 4))).toNat = 0) ∧ r.curCtx.n = (if s.bit BCN_BR_FIRST.none (q.val % 4) then 0xFFFFFFFF#32 else BitVec.ofNat 32 (s.get BCN_BR_FIRST.index (q.val % 4))).msb ∧ r.curCtx.pc = s.curCtx.pc) ∧
  (∀ (s : State) (d : Fin 16) (v : BitVec 16), s.awake = true → s.canIssue = true →
      Does (.lci d v) s fun r => (r.curCtx.loop (d.val % 8)).limit = v.toNat ∧ (r.curCtx.loop (d.val % 8)).li = 0) ∧
  (∀ (s : State) (d q : Fin 16) (v : BitVec 16), s.awake = true → s.canIssue = true →
      Does (.lcw d q v) s fun r => ((r.curCtx.loop (d.val % 8)).limit : Int) = max 1 (min 65535 (((if q.val % 2 = 0 then s.curCtx.wn else s.curCtx.wm : Nat) : Int) + v.toInt)) ∧ (r.curCtx.loop (d.val % 8)).li = 0) ∧
  (∀ (s : State) (q : Fin 16) (v : BitVec 16), s.awake = true → s.canIssue = true →
      Does (.cmp q v) s fun r => r.curCtx.z = decide (s.curCtx.reg q.val % 2 ^ 32 = s.curCtx.reg (v.toNat % 16) % 2 ^ 32) ∧ r.curCtx.n = (BitVec.ofNat 32 (s.curCtx.reg q.val) - BitVec.ofNat 32 (s.curCtx.reg (v.toNat % 16))).msb ∧ r.curCtx.s = s.curCtx.s)

/-- Timers of the sequencer, the background abort and the control store's errors. -/
def Obligations.SequencerTimers : Prop :=
  (∀ (s : State) (t : Fin 8), s.awake = true → (s.get SEQ_TMR_CFG.tick t.val = 0 ∨ s.get SEQ_TMR_CFG.tick t.val = 2) → s.bit SEQ_TMR_STAT.running t.val = true →
      Does (.seqTimerExpiry t) s fun r => r.get SEQ_TMR_STAT.expired t.val = 1 ∧ (s.bit SEQ_TMR_CFG.periodic t.val = false → r.get SEQ_TMR_STAT.running t.val = 0 ∧ r.get SEQ_TMR_STAT.count t.val = 0) ∧ (s.bit SEQ_TMR_CFG.periodic t.val = true → r.get SEQ_TMR_STAT.count t.val = s.get SEQ_TMR_CFG.reload t.val % 2 ^ 24)) ∧
  (∀ (s : State) (t : Fin 8), s.awake = true →
      Does (.seqTimerStart t) s fun r => r.get SEQ_TMR_STAT.running t.val = 1 ∧ r.get SEQ_TMR_STAT.count t.val = s.timerCount t.val % 2 ^ 24) ∧
  (∀ (s : State) (t : Fin 8), s.awake = true →
      Does (.seqTimerStop t) s fun r => r.get SEQ_TMR_STAT.running t.val = 0 ∧ r.get SEQ_TMR_STAT.count t.val = s.timerCount t.val % 2 ^ 24) ∧
  (∀ (s : State) (t : Fin 8), s.awake = true →
      Does (.seqTimerLoad t) s fun r => r.get SEQ_TMR_STAT.count t.val = s.get SEQ_TMR_CFG.reload t.val % 2 ^ 24 ∧ r.get SEQ_TMR_STAT.running t.val = s.get SEQ_TMR_STAT.running t.val) ∧
  (∀ (s : State), s.awake = true → s.seq.inPass = true → s.seq.abortPass = false →
      Does (.bgAbort) s fun r => r.get SEQ_BG_STATUS.pass_aborted = 1 ∧ r.get SEQ_ERR.aborted = 1 ∧ (r.seq.abortPass = true ∨ r.seq.inPass = false)) ∧
  (∀ (s : State) (word : Fin 16384), s.awake = true →
      Does (.cstoreEccError word false) s fun r => r.get SEQ_ERR.cstore_corrected = 1 ∧ r.seqState = s.seqState) ∧
  (∀ (s : State) (word : Fin 16384), s.awake = true → word.val < 5120 → s.seqState ≠ 2 →
      Does (.cstoreEccError word true) s fun r => r.seqState = 2 ∧ r.get SEQ_ERR.cstore_fault = 1)

/-- Loading, admission and exchange of a program image, and the promise. -/
def Obligations.ProgramLoading : Prop :=
  (∀ (s : State), s.awake = true → s.umbraState ≠ 1 → s.umbraState ≠ 5 → s.umbraState ≠ 6 →
      Does (.programLoad) s fun r => r.umbraState = 1 ∧ r.get SEQ_UMBRA_STATUS.load_err = 0 ∧ r.seq.loading = s.fetchBytes (8 * s.get SEQ_LOAD_ADDR_LO.addr + 2 ^ 32 * s.get SEQ_LOAD_ADDR_HI.addr) (s.get SEQ_LOAD_LEN.bytes)) ∧
  (∀ (s : State) (img : List (BitVec 8)), s.awake = true → s.umbraState = 1 → s.seq.loading = some img → (progErr img.length (s.get BOT_PATCH_VER.ver) img).1 = 0 →
      Does (.programLoadDone) s fun r => r.umbraState = 2 ∧ r.get SEQ_UMBRA_ID.id = progId img % 2 ^ 32 ∧ (r.half s.umbraHalf).image = img ∧ r.get SEQ_ADM_STATUS.busy = 1) ∧
  (∀ (s : State), s.awake = true → s.umbraState = 1 → s.seq.loading = none →
      Does (.programLoadDone) s fun r => r.umbraState = 0 ∧ r.get SEQ_UMBRA_STATUS.load_err = 27 ∧ r.get SEQ_ERR.load_failed = 1) ∧
  (∀ (s : State), s.awake = true → s.umbraState = 1 →
      Does (.loadAbort) s fun r => r.umbraState = 0 ∧ r.get SEQ_UMBRA_STATUS.load_err = 28 ∧ r.get SEQ_ERR.aborted = 1) ∧
  (∀ (s : State), s.awake = true → s.umbraState = 3 → s.bit SEQ_XCHG_WHEN_HI.named = false →
      Does (.exchangeArm) s fun r => r.umbraState = 5 ∧ r.armed .exchange = true) ∧
  (∀ (s : State), s.awake = true → s.umbraState = 5 → s.gno.due.contains .exchange = false →
      Does (.exchangeCancel) s fun r => r.umbraState = 3 ∧ r.get SEQ_ERR.exchange_cancelled = 1 ∧ r.armed .exchange = false) ∧
  (∀ (s : State), s.awake = true → s.isDue .exchange = true → s.umbraState = 5 →
      Does (.penumbraExchange) s fun r => r.activeHalf = 1 - s.activeHalf ∧ r.seqState = 1) ∧
  (∀ (s : State) (v : BitVec 32), s.awake = true → s.seqState = 0 →
      Does (.promiseWrite 0xFFFFFFFF#32 v) s fun r => r.get SEQ_PROMISE_NS.ns = clampN 40 1600 (bits v.toNat 0 11)) ∧
  (∀ (s : State), s.awake = true →
      Does (.admissionRerun) s fun r => r.seq.admission.isSome = true ∧ r.get SEQ_ADM_STATUS.busy = 1) ∧
  (∀ (s : State) (a : Admission), s.awake = true → s.seq.admission = some a → s.tar.phase ≠ .proposed →
      Does (.admissionComplete) s fun r => r.seq.admission = none ∧ r.get SEQ_ADM_STATUS.busy = 0) ∧
  (∀ (s : State) (a : Admission), s.awake = true → s.seq.admission = some a → a.active = false → a.umbra = true → a.plan = none → s.tar.phase ≠ .proposed → s.umbraState = 2 → s.seqState = 0 → (s.half s.umbraHalf).facts.decOutside = false → (s.half s.umbraHalf).facts.missing = false → waitShort (s.half s.umbraHalf).facts s.pSlow = false → (s.half s.umbraHalf).facts.fg.sum ≤ s.get GNO_PERIOD_MIN.period_fs / s.pSlow - 3 → ((s.half s.umbraHalf).facts.dec = 0 ∨ (if (s.half s.umbraHalf).facts.fullLast then 7750000 else 6250000) + (s.half s.umbraHalf).facts.dec * s.pSlow + ((s.half s.umbraHalf).facts.fg.length - 1) * s.get GNO_PERIOD_MAX.period_fs ≤ 1000000 * s.get SEQ_PROMISE_NS.ns) →
      Does (.admissionComplete) s fun r => r.umbraState = 3 ∧ r.get SEQ_UMBRA_STATUS.admit_err = 0 ∧ r.get SEQ_UMBRA_CERT.bound = (if (s.half s.umbraHalf).facts.dec = 0 then 0 else certOf ((if (s.half s.umbraHalf).facts.fullLast then 7750000 else 6250000) + (s.half s.umbraHalf).facts.dec * s.pSlow + ((s.half s.umbraHalf).facts.fg.length - 1) * s.get GNO_PERIOD_MAX.period_fs)) % 2 ^ 18) ∧
  (∀ (s : State) (a : Admission), s.awake = true → s.seq.admission = some a → a.active = false → a.umbra = true → a.plan = none → s.tar.phase ≠ .proposed → s.umbraState = 2 → (¬ (((s.half s.umbraHalf).facts.decOutside = false) ∧ ((s.half s.umbraHalf).facts.missing = false) ∧ (waitShort (s.half s.umbraHalf).facts s.pSlow = false) ∧ ((s.half s.umbraHalf).facts.fg.sum ≤ s.get GNO_PERIOD_MIN.period_fs / s.pSlow - 3) ∧ ((s.half s.umbraHalf).facts.dec = 0 ∨ (if (s.half s.umbraHalf).facts.fullLast then 7750000 else 6250000) + (s.half s.umbraHalf).facts.dec * s.pSlow + ((s.half s.umbraHalf).facts.fg.length - 1) * s.get GNO_PERIOD_MAX.period_fs ≤ 1000000 * s.get SEQ_PROMISE_NS.ns))) →
      Does (.admissionComplete) s fun r => r.umbraState = 4 ∧ r.get SEQ_ERR.admit_rejected = 1 ∧ r.get SEQ_UMBRA_STATUS.admit_err = if (s.half s.umbraHalf).facts.decOutside = true then 6 else if (s.half s.umbraHalf).facts.missing = true then 7 else if waitShort (s.half s.umbraHalf).facts s.pSlow = true then 5 else if s.get GNO_PERIOD_MIN.period_fs / s.pSlow - 3 < (s.half s.umbraHalf).facts.fg.sum then 1 else 2) ∧
  (∀ (s : State) (a : Admission), s.awake = true → s.seq.admission = some a → a.active = false → a.umbra = true → a.plan = none → s.tar.phase ≠ .proposed → s.umbraState = 2 → s.seqState = 1 → 2 ≤ s.active.facts.fg.length → s.bit SEQ_ADM_STATUS.held = false → (s.half s.umbraHalf).facts.decOutside = false → (s.half s.umbraHalf).facts.missing = false → waitShort (s.half s.umbraHalf).facts s.pSlow = false → (s.half s.umbraHalf).facts.fg.sum ≤ s.get GNO_PERIOD_MIN.period_fs / s.pSlow - 3 → ((s.half s.umbraHalf).facts.dec = 0 ∨ (if (s.half s.umbraHalf).facts.fullLast then 7750000 else 6250000) + (s.half s.umbraHalf).facts.dec * s.pSlow + ((s.half s.umbraHalf).facts.fg.length - 1) * s.get GNO_PERIOD_MAX.period_fs ≤ 1000000 * s.get SEQ_PROMISE_NS.ns) →
      Does (.admissionComplete) s fun r => r.umbraState = (if (admitExchange s.active.facts (s.half s.umbraHalf).facts (s.get GNO_PERIOD_MIN.period_fs) (s.get GNO_PERIOD_MAX.period_fs) s.pSlow (max (s.get SEQ_PROMISE_NS.ns) (s.get SEQ_PROMISE_ACT.ns))).1 = 0 then 3 else 4) ∧ r.get SEQ_UMBRA_STATUS.admit_err = (admitExchange s.active.facts (s.half s.umbraHalf).facts (s.get GNO_PERIOD_MIN.period_fs) (s.get GNO_PERIOD_MAX.period_fs) s.pSlow (max (s.get SEQ_PROMISE_NS.ns) (s.get SEQ_PROMISE_ACT.ns))).1 % 2 ^ 5) ∧
  (∀ (s : State) (a : Admission), s.awake = true → s.seq.admission = some a → a.active = true → a.umbra = false → a.plan = none → s.tar.phase ≠ .proposed → s.seqState ≠ 0 →
      Does (.admissionComplete) s fun r => (r.get SEQ_ADM_STATUS.active_ok = 1 ↔ ((s.active.facts.decOutside = false) ∧ (s.active.facts.missing = false) ∧ (waitShort s.active.facts s.pSlow = false) ∧ (s.active.facts.fg.sum ≤ s.get GNO_PERIOD_MIN.period_fs / s.pSlow - 3) ∧ (s.active.facts.dec = 0 ∨ (if s.active.facts.fullLast then 7750000 else 6250000) + s.active.facts.dec * s.pSlow + (s.active.facts.fg.length - 1) * s.get GNO_PERIOD_MAX.period_fs ≤ 1000000 * min (s.get SEQ_PROMISE_NS.ns) (s.get SEQ_PROMISE_ACT.ns))))) ∧
  (∀ (s : State) (p : Plan), s.awake = true → s.isDue .plan = true → s.seq.plan = some p →
      Does (.marginPlanApply) s fun r => r.seq.plan = none ∧ ∀ i < 16, r.get ARR_ISL_CLK_PLAN.period_fs i = p.periods.getD i 0 % 2 ^ 20)

/-- Commit sets are armed, aborted, cleared and fire at their barrier. -/
def Obligations.CommitSets : Prop :=
  (∀ (s : State) (n : Fin 4), s.awake = true → s.bit SEQ_CS_STATUS.armed n.val = false → s.csEntries n.val ≠ 0 → s.bit SEQ_CS_WHEN_HI.named n.val = false →
      Does (.commitSetArm n) s fun r => r.get SEQ_CS_STATUS.armed n.val = 1 ∧ r.armed (.cset n.val) = true) ∧
  (∀ (s : State) (n : Fin 4), s.awake = true → s.csEntries n.val = 0 →
      Does (.commitSetArm n) s fun r => r.get SEQ_ERR.commit_refused = 1 ∧ r.gno = s.gno) ∧
  (∀ (s : State) (n : Fin 4), s.awake = true → s.bit SEQ_CS_STATUS.armed n.val = true → s.gno.due.contains (.cset n.val) = false →
      Does (.commitSetAbort n) s fun r => r.get SEQ_CS_STATUS.armed n.val = 0 ∧ r.get SEQ_CS_STATUS.aborted n.val = 1 ∧ r.armed (.cset n.val) = false) ∧
  (∀ (s : State) (n : Fin 4), s.awake = true → s.bit SEQ_CS_STATUS.armed n.val = false →
      Does (.commitSetClear n) s fun r => r.get SEQ_CS_STATUS.entries n.val = 0 ∧ ∀ e < 16, r.get SEQ_CS_ENT.valid n.val e = 0) ∧
  (∀ (s : State) (n : Fin 4), s.awake = true → s.isDue (.cset n.val) = true →
      Does (.commitSetFire n) s fun r => r.get SEQ_CS_STATUS.armed n.val = 0 ∧ r.get SEQ_CS_STATUS.committed n.val = 1 ∧ ∀ e < 16, s.bit SEQ_CS_ENT.valid n.val e = true → s.bit SEQ_CS_ENT.ctx n.val e = true → (∀ e2 < 16, e < e2 → s.bit SEQ_CS_ENT.valid n.val e2 = false) → r.seq.bg.reg (s.get SEQ_CS_ENT.reg n.val e) = s.get SEQ_CS_VAL.value n.val e % 2 ^ 32)

/-- Beacon requests settle, decisions launch, pulses end and BUSY follows its sources. -/
def Obligations.BeaconAndGlint : Prop :=
  (∀ (s : State) (q : BcnReq) (rest : List BcnReq), s.awake = true → s.seq.requests = q :: rest →
      Does (.beaconSettle 0#16) s fun r => r.seq.requests = rest ∧ r.get BCN_BR_CONTRIB.mask q.reg = q.contrib % 2 ^ 16 ∧ r.get BCN_BR.full q.reg = b2n q.full) ∧
  (∀ (s : State) (removed : BitVec 16) (q : BcnReq) (rest : List BcnReq) (n c : Nat), s.awake = true → s.seq.requests = q :: rest → q.glint = some n → q.serial = some c → s.launchedPast c = true → (s.seq.releases.any (fun x => x.serial = c ∧ x.half = q.half) = false) →
      Does (.lateDecision removed) s fun r => r.get SEQ_ADM_ERR.late_decision = 1 ∧ r.seq.requests = rest) ∧
  (∀ (s : State) (x : Release) (rest : List Release), s.awake = true → s.seq.releases = x :: rest →
      Does (.launchInstant) s fun r => r.seq.releases = rest ∧ r.seq.launched = some x.serial ∧ r.now = max s.now (x.instant - 2250000) ∧ ∀ n < 16, x.set.testBit n = false → r.get BCN_GL_STATUS.idle n = 1) ∧
  (∀ (s : State) (n : Fin 16), s.awake = true → (s.glint n.val).pulse = true →
      Does (.glintPulseEnd n) s fun r => (r.glint n.val).level = 0 ∧ (r.glint n.val).pulse = false) ∧
  (∀ (s : State), s.awake = true → s.seq.busyNext = true → s.bit BCN_STATUS.busy = false →
      Does (.busyEvaluate) s fun r => r.get BCN_STATUS.busy = 1 ∧ r.seq.busyLeft = max 1 (s.get BCN_BUSY_CTRL.min_slots) ∧ (s.bit BCN_BUSY_CTRL.force = true → r.seq.busyNext = true)) ∧
  (∀ (s : State), s.awake = true → s.seq.busyLeft = 1 → s.seq.busyNext = false →
      Does (.busyMinExpiry) s fun r => r.get BCN_STATUS.busy = 0 ∧ r.seq.busyLeft = 0)

/-- The receive side of a front lane moves between its states as the table of R51 states. -/
def Obligations.FrontLaneStates : Prop :=
  (∀ (s : State) (n : Fin 224) (v : BitVec 32), s.awake = true → s.laneState n.val = 0 → v.getLsbD 0 = true → bits v.toNat 2 2 ≠ 3 → bits v.toNat 6 2 ≠ 3 →
      Does (.laneCtrlWrite n 0xFFFFFFFF#32 v) s fun r => r.laneState n.val = 1 ∧ r.get FLN_CTRL.rx_en n.val = 1 ∧ r.get FLN_CTRL.tx_en n.val = bits v.toNat 1 1 ∧ r.get FLN_CTRL.rate n.val = bits v.toNat 2 2) ∧
  (∀ (s : State) (n : Fin 224) (v : BitVec 32), s.awake = true → v.getLsbD 0 = false →
      Does (.laneCtrlWrite n 0xFFFFFFFF#32 v) s fun r => r.laneState n.val = 0 ∧ r.get FLN_CTRL.rx_en n.val = 0) ∧
  (∀ (s : State) (n : Fin 224) (v : BitVec 32), s.awake = true → bits v.toNat 2 2 = 3 →
      Does (.laneCtrlWrite n 0xFFFFFFFF#32 v) s fun r => r.get FLN_CTRL.rate n.val = s.get FLN_CTRL.rate n.val % 4 ∧ r.get FLN_ERR.bad_cfg n.val = 1) ∧
  (∀ (s : State) (n : Fin 224), s.awake = true → s.laneState n.val = 1 → (s.get FLN_REFCLK_STATUS.present).testBit (n.val / 28) = true →
      Does (.lanePllLock n) s fun r => r.laneState n.val = 2) ∧
  (∀ (s : State) (n : Fin 224), s.awake = true → s.laneState n.val = 2 →
      Does (.signalDetect n) s fun r => r.laneState n.val = 3 ∧ r.get FLN_STATUS.signal_detect n.val = 1) ∧
  (∀ (s : State) (n : Fin 224) (ctle : Fin 32) (dfe1 : Fin 64), s.awake = true → s.laneState n.val = 3 →
      Does (.laneLockDone n ctle dfe1) s fun r => r.laneState n.val = 4 ∧ r.get FLN_STATUS.cdr_lock n.val = 1 ∧ r.get FLN_STATUS.adapt_done n.val = 1 ∧ (s.bit FLN_RX_EQ.adapt_freeze n.val = false → r.get FLN_RX_EQ.ctle n.val = ctle.val ∧ r.get FLN_RX_EQ.dfe1 n.val = dfe1.val)) ∧
  (∀ (s : State) (n : Fin 224), s.awake = true → s.laneState n.val = 3 →
      Does (.lockTimeout n) s fun r => r.laneState n.val = 1 ∧ r.get FLN_ERR.lock_timeout n.val = 1) ∧
  (∀ (s : State) (n : Fin 224), s.awake = true → s.laneState n.val = 4 →
      Does (.signalLost n) s fun r => r.laneState n.val = 2 ∧ r.get FLN_ERR.signal_lost n.val = 1 ∧ r.get FLN_LOCK_LOSS_CNT.count n.val = min 65535 (s.get FLN_LOCK_LOSS_CNT.count n.val + 1)) ∧
  (∀ (s : State) (n : Fin 224), s.awake = true → s.laneState n.val = 4 →
      Does (.cdrLost n) s fun r => r.laneState n.val = 3 ∧ r.get FLN_ERR.cdr_lost n.val = 1 ∧ r.get FLN_STATUS.cdr_lock n.val = 0 ∧ r.get FLN_LOCK_LOSS_CNT.count n.val = min 65535 (s.get FLN_LOCK_LOSS_CNT.count n.val + 1)) ∧
  (∀ (s : State) (n : Fin 224), s.awake = true → s.laneState n.val = 4 → s.bit FLN_RX_EQ.adapt_freeze n.val = false →
      Does (.adaptRestart n) s fun r => r.laneState n.val = 4 ∧ r.get FLN_RX_EQ.ctle n.val = 0 ∧ r.get FLN_RX_EQ.dfe1 n.val = 0 ∧ r.get FLN_STATUS.adapt_done n.val = 0) ∧
  (∀ (s : State) (k : Fin 8) (present : Bool), s.awake = true →
      Does (.refclkPresenceChange k present) s fun r => (r.get FLN_REFCLK_STATUS.present).testBit k.val = present)

/-- The transmit equaliser is limited as R54 states; an eye scan starts and completes. That the start clears valid is the
model's choice (log entry 139). -/
def Obligations.LaneEqualisers : Prop :=
  (∀ (s : State) (n : Fin 224) (v : BitVec 32), s.awake = true →
      Does (.txFfeWrite n 0xFFFFFFFF#32 v) s fun r => r.get FLN_TX_FFE.pre n.val = (ffeLimit (bits v.toNat 0 6) (bits v.toNat 8 6) (bits v.toNat 16 6)).1 ∧ r.get FLN_TX_FFE.main n.val = (ffeLimit (bits v.toNat 0 6) (bits v.toNat 8 6) (bits v.toNat 16 6)).2.1 ∧ r.get FLN_TX_FFE.post n.val = (ffeLimit (bits v.toNat 0 6) (bits v.toNat 8 6) (bits v.toNat 16 6)).2.2 ∧ 32 ≤ r.get FLN_TX_FFE.main n.val ∧ r.get FLN_TX_FFE.pre n.val + r.get FLN_TX_FFE.main n.val + r.get FLN_TX_FFE.post n.val ≤ 63) ∧
  (∀ (s : State) (n : Fin 224), s.awake = true → s.laneState n.val = 4 → s.bit FLN_STATUS.eye_busy n.val = false →
      Does (.eyeScanStart n) s fun r => r.get FLN_STATUS.eye_busy n.val = 1 ∧ r.get FLN_EYE_RESULT.valid n.val = 0) ∧
  (∀ (s : State) (n : Fin 224), s.awake = true → s.laneState n.val ≠ 4 →
      exec (.eyeScanStart n) s = .next (s.laneErr FLN_ERR.eye_busy n.val)) ∧
  (∀ (s : State) (n : Fin 224) (height : Fin 65536) (width : Fin 256), s.awake = true → s.bit FLN_STATUS.eye_busy n.val = true → s.tar.scans.find? (fun x => x.lane == n.val) = none →
      Does (.eyeScanDone (.front n) height width) s fun r => r.get FLN_STATUS.eye_busy n.val = 0 ∧ r.get FLN_EYE_RESULT.height n.val = height.val ∧ r.get FLN_EYE_RESULT.width n.val = width.val ∧ r.get FLN_EYE_RESULT.valid n.val = 1) ∧
  (∀ (s : State) (q : Fin 48) (height : Fin 65536) (width : Fin 256) (x : TarScan), s.awake = true → s.tar.scans.find? (fun x => x.lane == 256 + q.val) = some x → x.left = [] →
      Does (.eyeScanDone (.rear q) height width) s fun r => r.get TAR_RLANE_EYE.height q.val = height.val ∧ r.get TAR_RLANE_EYE.width q.val = width.val ∧ r.get TAR_RLANE_EYE.valid q.val = 1)

/-- A good slow-channel frame is counted and acts by its type; frames are sent and aborted. That bytes beyond a payload
read as 0 is the model's choice (log entry 141). That a length byte above 48 sends the 48 bytes of the buffer and
stands as it is written is the model's choice (log entry 144). -/
def Obligations.SlowChannel : Prop :=
  (∀ (s : State) (n : Fin 224) (p rest : List (BitVec 8)), s.awake = true → slowScan (s.lane n.val).rx = .good 1 p rest → p.length = 32 → leAt p 28 1 = 1 →
      Does (.identityRecord n) s fun r => r.get FLN_ID_LO.identity n.val = leAt p 0 8 % 2 ^ 32 ∧ r.get FLN_ID_HI.identity n.val = leAt p 0 8 / 2 ^ 32 % 2 ^ 32 ∧ r.get FLN_STATUS.module_present n.val = 1 ∧ r.get FLN_ID_AGE.ms n.val = 0 ∧ r.get FLN_SC_FRAME_CNT.count n.val = min (2 ^ 32 - 1) (s.get FLN_SC_FRAME_CNT.count n.val + 1) ∧ (r.lane n.val).rx = rest) ∧
  (∀ (s : State) (n : Fin 224) (p rest : List (BitVec 8)), s.awake = true → slowScan (s.lane n.val).rx = .good 2 p rest → p.length = 6 → 1 ≤ leAt p 0 1 → leAt p 0 1 ≤ 3 →
      Does (.telemetryRecord n) s fun r => r.ledIn = s.ledIn ++ [.telemetry n.val (leAt p 0 1) (leAt p 1 1) (leAt p 2 4)] ∧ (r.lane n.val).rx = rest ∧ r.get FLN_SC_FRAME_CNT.count n.val = min (2 ^ 32 - 1) (s.get FLN_SC_FRAME_CNT.count n.val + 1)) ∧
  (∀ (s : State) (n : Fin 224) (p rest : List (BitVec 8)), s.awake = true → slowScan (s.lane n.val).rx = .good 3 p rest → p.length = 2 →
      Does (.setpointAcknowledgement n) s fun r => r.get FLN_SC_ACK.seq n.val = leAt p 0 1 % 256 ∧ r.get FLN_SC_ACK.status n.val = leAt p 1 1 % 256 ∧ r.get FLN_SC_ACK.new n.val = 1 ∧ (r.lane n.val).rx = rest) ∧
  (∀ (s : State) (n : Fin 224) (t : Nat) (p rest : List (BitVec 8)), s.awake = true → slowScan (s.lane n.val).rx = .good t p rest → 0x10 ≤ t → t ≤ 0x7F → s.bit FLN_SC_STATUS.rx_full n.val = false →
      Does (.userFrame n) s fun r => r.get FLN_SC_STATUS.rx_full n.val = 1 ∧ r.get FLN_SC_RX_BUF.bytes n.val 0 = t + 256 * p.length + 65536 * leAt p 0 2 ∧ (r.lane n.val).rx = rest) ∧
  (∀ (s : State) (n : Fin 224) (t : Nat) (p rest : List (BitVec 8)), s.awake = true → slowScan (s.lane n.val).rx = .good t p rest → 0x10 ≤ t → t ≤ 0x7F → s.bit FLN_SC_STATUS.rx_full n.val = true →
      Does (.userFrame n) s fun r => r.get FLN_SC_DROP_CNT.count n.val = min (2 ^ 32 - 1) (s.get FLN_SC_DROP_CNT.count n.val + 1) ∧ r.get FLN_ERR.sc_overflow n.val = 1) ∧
  (∀ (s : State) (n : Fin 224), s.awake = true → s.bit FLN_STATUS.module_present n.val = true → s.reconfiguring n.val = false →
      Does (.identityTimeout n) s fun r => r.get FLN_STATUS.module_present n.val = 0 ∧ r.get FLN_ERR.id_timeout n.val = 1 ∧ r.ledIn = s.ledIn ++ [.absent n.val]) ∧
  (∀ (s : State) (n : Fin 224), s.awake = true → s.bit FLN_DL_WORDS.slow_ok n.val = true → s.bit FLN_SC_STATUS.tx_pending n.val = false →
      Does (.scTxSend n) s fun r => r.get FLN_SC_STATUS.tx_pending n.val = 1 ∧ (r.lane n.val).frame.head? = some 0xA5#8 ∧ (r.lane n.val).frame.length = 5 + min 48 (bits (s.get FLN_SC_TX_BUF.bytes n.val 0) 8 8)) ∧
  (∀ (s : State) (n : Fin 224), s.awake = true → s.bit FLN_SC_STATUS.tx_pending n.val = true →
      Does (.scTxAbort n) s fun r => r.get FLN_SC_STATUS.tx_pending n.val = 0 ∧ r.get FLN_SC_STATUS.tx_aborted n.val = 1 ∧ (r.lane n.val).frame = [])

/-- A downlink slot passes W_min words, the fast-command word first; a word received goes to the facet or is counted. What
a masked command sends and that an inverted PAM4 word shows both the inverted bits and the negated levels are the
model's choices (log entry 143, log entry 138). -/
def Obligations.DownlinkSlot : Prop :=
  (∀ (s : State) (n : Fin 224) (extra : Bool) (slow : Bool) (d : Nat), s.awake = true → s.bit FLN_CTRL.tx_en n.val = true → s.get FLN_CTRL.loopback n.val ≠ 2 → s.hasTimeline = true → s.dlInForce n.val = (true, true, slow, d) → 1 + d ≤ s.wMin n.val →
      Does (.downlinkSlot n extra) s fun r => (r.lane n.val).words.length = (s.lane n.val).words.length + s.wMin n.val + b2n extra ∧ (r.lane n.val).words[(s.lane n.val).words.length]? = some { tag := 1, first := true, word := s.fcDownWord }) ∧
  (∀ (s : State) (n : Fin 224) (v : BitVec 32), s.awake = true → s.get FLN_DL_CTRL.fc_en n.val + bits v.toNat 0 5 ≤ s.wMin n.val →
      Does (.dlWindowWrite n true 0xFFFFFFFF#32 v) s fun r => r.get FLN_DL_WIN.data_words n.val = bits v.toNat 0 5 ∧ (r.lane n.val).oldDl = some ((s.lane n.val).oldDl.getD (s.regWord 2 (0x100 * n.val + 0x20), s.get FLN_DL_WIN.data_words n.val))) ∧
  (∀ (s : State) (n : Fin 224) (v : BitVec 32), s.awake = true → s.wMin n.val < s.get FLN_DL_CTRL.fc_en n.val + bits v.toNat 0 5 →
      exec (.dlWindowWrite n true 0xFFFFFFFF#32 v) s = .next (s.laneErr FLN_ERR.dl_cfg_refused n.val)) ∧
  (∀ (s : State) (n : Fin 224) (word : BitVec 64), s.awake = true → s.laneState n.val = 4 → s.bit FLN_CTRL.rx_invert n.val = false → (s.path (n.val / 4) (n.val % 4)).skip = false → s.get FLN_CTRL.loopback n.val ≠ 2 → s.bit FLN_TIMING_SEL.enable = false → s.facetState (n.val / 4) = 1 → s.facetServes (n.val / 4) (s.get FLN_CTRL.rate n.val) = true → (s.path (n.val / 4) (n.val % 4)).nbits + 64 < imgPrim (s.img (n.val / 4)) (n.val % 4) 0 1 →
      Does (.blockArrival n word) s fun r => (r.path (n.val / 4) (n.val % 4)).nbits = (s.path (n.val / 4) (n.val % 4)).nbits + 64 ∧ (r.path (n.val / 4) (n.val % 4)).buf = (s.path (n.val / 4) (n.val % 4)).buf + word.toNat <<< (s.path (n.val / 4) (n.val % 4)).nbits) ∧
  (∀ (s : State) (n : Fin 224) (word : BitVec 64), s.awake = true → s.laneState n.val = 4 → s.bit FLN_TIMING_SEL.enable = false → s.facetState (n.val / 4) = 0 →
      Does (.blockArrival n word) s fun r => r.get FLN_DISCARD_CNT.count n.val = min (2 ^ 32 - 1) (s.get FLN_DISCARD_CNT.count n.val + 1) ∧ r.edge = s.edge) ∧
  (∀ (s : State) (n : Fin 224) (t : TxWord) (rest : List TxWord) (out : Nat), s.awake = true → (s.lane n.val).words = t :: rest → s.facetState (n.val / 4) = 1 → s.bit FLN_CTRL.tx_en n.val = true → s.get FLN_CTRL.loopback n.val = 0 → imgPrim (s.img (n.val / 4)) (n.val % 4) 55 1 = 0 → (s.path (n.val / 4) (n.val % 4)).txQ = [] → out = (s.txMade (n.val / 4) (n.val % 4) t.word).1 →
      Does (.txWord n) s fun r => (r.lane n.val).words = rest ∧ r.sent = s.sent ++ [.front n.val (if s.bit FLN_CTRL.tx_invert n.val then out ^^^ (2 ^ 64 - 1) else out) (if s.get FLN_CTRL.rate n.val = 2 then (if s.bit FLN_CTRL.tx_invert n.val then (pam4Levels out).map fun l => -l else pam4Levels out) else [])]) ∧
  (∀ (s : State) (n : Fin 224) (t : TxWord) (rest : List TxWord), s.awake = true → (s.lane n.val).words = t :: rest → s.facetState (n.val / 4) ≠ 1 → s.bit FLN_CTRL.tx_en n.val = true → s.get FLN_CTRL.loopback n.val = 0 → (s.path (n.val / 4) (n.val % 4)).txQ = [] →
      Does (.txWord n) s fun r => r.sent = s.sent ++ [.front n.val (if s.bit FLN_CTRL.tx_invert n.val then 2 ^ 64 - 1 else 0) (if s.get FLN_CTRL.rate n.val = 2 then (if s.bit FLN_CTRL.tx_invert n.val then (pam4Levels 0).map fun l => -l else pam4Levels 0) else [])])

/-- A facet loads, activates, halts, resumes and aborts as R108 to R114 state. -/
def Obligations.FacetCommands : Prop :=
  (∀ (s : State) (f : Fin 57), s.awake = true → s.facetState f.val ≠ 3 → s.get EDG_FSTATUS.shadow f.val ≠ 1 → s.bit EDG_FSTATUS.act_pending f.val = false → s.bit EDG_CFG_PORT.busy = false →
      Does (.facetLoad f) s fun r => r.get EDG_FSTATUS.shadow f.val = 1 ∧ r.get EDG_CFG_PORT.busy = 1 ∧ r.get EDG_CFG_PORT.facet = f.val ∧ r.get EDG_FSTATUS.load_err f.val = 0 ∧ (r.facet f.val).loading = (s.fetchBytes (s.facetImgAddr f.val) (s.get EDG_CFG_LEN.bytes f.val)).getD []) ∧
  (∀ (s : State) (f : Fin 57), s.awake = true → s.facetState f.val = 3 →
      exec (.facetLoad f) s = .next (s.facetErr EDG_FERR.load_refused f.val)) ∧
  (∀ (s : State) (f : Fin 57), s.awake = true → s.get EDG_FSTATUS.shadow f.val = 1 →
      Does (.facetLoadDone f) s fun r => r.get EDG_CFG_PORT.busy = 0 ∧ ((if (s.facet f.val).fetched then imgErr (f.val = 56) (s.facet f.val).loadLen (s.pinTaken f.val) (s.facet f.val).loading else 10) = 0 → r.get EDG_FSTATUS.shadow f.val = 2 ∧ (r.facet f.val).shadow = (s.facet f.val).loading ∧ r.get EDG_SHADOW_ID.id f.val = imgId (s.facet f.val).loading % 2 ^ 32) ∧ ((if (s.facet f.val).fetched then imgErr (f.val = 56) (s.facet f.val).loadLen (s.pinTaken f.val) (s.facet f.val).loading else 10) ≠ 0 → r.get EDG_FSTATUS.shadow f.val = 0 ∧ r.get EDG_FSTATUS.load_err f.val = (if (s.facet f.val).fetched then imgErr (f.val = 56) (s.facet f.val).loadLen (s.pinTaken f.val) (s.facet f.val).loading else 10))) ∧
  (∀ (s : State) (f : Fin 57), s.awake = true → s.get EDG_FSTATUS.shadow f.val = 2 → imgClk (s.facet f.val).shadow = s.get EDG_FCTRL.clk f.val → s.facetState f.val ≠ 1 → s.facetState f.val ≠ 3 →
      Does (.facetActivate f) s fun r => r.facetState f.val = 3 ∧ (r.facet f.val).active = (s.facet f.val).shadow ∧ r.get EDG_IMG_ID.id f.val = imgId (s.facet f.val).shadow % 2 ^ 32 ∧ (r.facet f.val).cells = bitSet 256 (fun n => (imgCell (s.facet f.val).shadow n).testBit 67) ∧ (r.facet f.val).clk = s.get EDG_FCTRL.clk f.val) ∧
  (∀ (s : State) (f : Fin 57), s.awake = true → s.get EDG_FSTATUS.shadow f.val = 2 → imgClk (s.facet f.val).shadow = s.get EDG_FCTRL.clk f.val → s.facetState f.val = 1 → s.bit EDG_CFG_WHEN_HI.named f.val = false →
      Does (.facetActivate f) s fun r => r.get EDG_FSTATUS.act_pending f.val = 1 ∧ r.facetState f.val = 1 ∧ r.armed (.facet f.val) = true) ∧
  (∀ (s : State) (f : Fin 57), s.awake = true → s.isDue (.facet f.val) = true → s.facetState f.val = 1 → s.get EDG_FSTATUS.shadow f.val = 2 →
      Does (.facetSwitchEntry f) s fun r => r.facetState f.val = 3 ∧ (r.facet f.val).active = (s.facet f.val).shadow) ∧
  (∀ (s : State) (f : Fin 57), s.awake = true → s.facetState f.val = 3 →
      Does (.facetSwitchComplete f) s fun r => (r.facet f.val).complete = true ∧ (r.facet f.val).active = (s.facet f.val).active ∧ r.facetState f.val = 3) ∧
  (∀ (s : State) (f : Fin 57), s.awake = true → (s.facet f.val).switched = false → s.gno.due.contains (.facet f.val) = false → s.get EDG_FSTATUS.shadow f.val ≠ 0 →
      Does (.facetAbort f) s fun r => r.get EDG_FSTATUS.shadow f.val = 0 ∧ r.get EDG_FSTATUS.act_pending f.val = 0 ∧ r.armed (.facet f.val) = false ∧ r.get EDG_FERR.aborted f.val = 1) ∧
  (∀ (s : State) (f : Fin 57), s.awake = true → ((s.facet f.val).switched = true ∨ s.gno.due.contains (.facet f.val) = true) →
      exec (.facetAbort f) s = .next (s.facetErr EDG_FERR.abort_too_late f.val)) ∧
  (∀ (s : State) (f : Fin 57), s.awake = true → s.facetState f.val = 1 →
      Does (.facetHalt f) s fun r => r.facetState f.val = 2 ∧ r.edge = s.edge) ∧
  (∀ (s : State) (f : Fin 57), s.awake = true → s.facetState f.val = 2 →
      Does (.facetResume f) s fun r => (r.facet f.val).resume = true ∧ r.facetState f.val = 2) ∧
  (∀ (s : State) (f : Fin 57), s.awake = true → (s.facetState f.val = 1 ∨ s.facetState f.val = 2) →
      Does (.facetCapture f) s fun r => r.get EDG_FSTATUS.capture_done f.val = 1 ∧ (r.facet f.val).capture.length = 30 ∧ (r.facet f.val).capture.getD 0 0 = bits (s.facet f.val).cells 0 32) ∧
  (∀ (s : State) (ini : Fin 41) (f : Fin 57) (v : Nat), s.awake = true → s.readback f.val = some v →
      Does (.facetReadbackRead ini f) s fun r => r.get EDG_RB_DATA.data f.val = v % 2 ^ 32 ∧ r.sent = s.sent ++ [.value (v % 2 ^ 32)]) ∧
  (∀ (s : State) (f : Fin 57) (shadow : Bool), s.awake = true →
      Does (.facetConfigScrub f shadow false) s fun r => r.get EDG_CFG_CORR_CNT.count f.val = min (2 ^ 32 - 1) (s.get EDG_CFG_CORR_CNT.count f.val + 1) ∧ r.edge = s.edge) ∧
  (∀ (s : State) (f : Fin 57), s.awake = true → s.facetState f.val = 1 →
      Does (.facetConfigScrub f false true) s fun r => r.facetState f.val = 4 ∧ r.get EDG_FERR.cfg_uncorrectable f.val = 1)

/-- In RUN a facet computes its macrocells, exports them and takes its lines with two stages; a timer expires. -/
def Obligations.FacetCycle : Prop :=
  (∀ (s : State) (f : Fin 57) (pins : BitVec 96) (us : Bool) (late : BitVec 288) (strobe : Bool), s.awake = true → s.facetState f.val = 1 →
      Does (.facetLogicCycle f pins us late strobe) s fun r => (r.facet f.val).exports = exportLines (s.img f.val) (r.facet f.val).cells ∧ (r.facet f.val).lines1 = s.linesTo f.val ∧ (r.facet f.val).lines2 = (s.facet f.val).lines1 ∧ (r.facet f.val).lines3 = (s.facet f.val).lines2 ∧ (r.facet f.val).active = s.img f.val ∧ (r.facet f.val).cells = nextCells (s.img f.val) (bitSet 160 fun i => ((s.facetStages f.val pins.toNat strobe).portCycles f.val).facetSource f.val (s.facetSees f.val pins.toNat us late.toNat strobe) (imgInput (s.img f.val) i)) (s.facet f.val).cells) ∧
  (∀ (s : State) (f : Fin 57) (pins : BitVec 96) (us : Bool) (late : BitVec 288) (strobe : Bool), s.awake = true → s.facetState f.val = 2 →
      Does (.facetLogicCycle f pins us late strobe) s fun r => (r.facet f.val).cells = (s.facet f.val).cells ∧ (r.facet f.val).timers = (s.facet f.val).timers ∧ (r.facet f.val).exports = (s.facet f.val).exports) ∧
  (∀ (s : State) (f : Fin 57) (t : Fin 16), s.awake = true → s.facetState f.val = 1 → (Sparse.get {} (s.facet f.val).timers t.val).running = true → (Sparse.get {} (s.facet f.val).timers t.val).count ≤ 1 → (s.facet f.val).sink (imgSinks (s.img f.val)) (0x2000 + 4 * t.val + 1) = false → (s.facet f.val).sink (imgSinks (s.img f.val)) (0x2000 + 4 * t.val + 2) = false →
      Does (.facetTimerExpiry f t) s fun r => (r.facet f.val).expired.testBit t.val = true ∧ Sparse.get {} (r.facet f.val).timers t.val = (if (s.timerRec f.val t.val).testBit 59 then { count := bits (s.timerRec f.val t.val) 0 24, running := true } else { count := 0, running := false })) ∧
  (∀ (s : State) (n : Fin 96) (v : BitVec 32), s.awake = true →
      Does (.gpiPinWrite n 0xFFFFFFFF#32 v) s fun r => r.get GPI_PIN.pull n.val = bits v.toNat 4 2 ∧ r.get GPI_PIN.drive n.val = bits v.toNat 8 2 ∧ r.get GPI_PIN.facet n.val = s.get GPI_PIN.facet n.val) ∧
  (∀ (s : State) (n : Fin 96) (v : BitVec 32), s.awake = true → n.val % 2 = 0 → (bits v.toNat 0 2 = 1 ∨ bits v.toNat 0 2 = 2) →
      Does (.gpiPinWrite n 0xFFFFFFFF#32 v) s fun r => r.get GPI_PIN.std n.val = bits v.toNat 0 2 ∧ r.get GPI_PIN.std (n.val + 1) = bits v.toNat 0 2) ∧
  (∀ (s : State) (k : Fin 4) (code : Fin 5), s.awake = true →
      Does (.vddioChange k code) s fun r => r.get GPI_BANK_STATUS.vddio k.val = code.val ∧ (r.get GPI_ERR.vddio_change).testBit k.val = true)

/-- An apply is checked and armed, an abort takes it back, and the commit makes it the working configuration. -/
def Obligations.PrismCommands : Prop :=
  (∀ (s : State), s.awake = true → (s.prismCheck s.prismCfg).1 = 0 → s.bit PRI_APPLY_WHEN_HI.named = false →
      Does (.prismApply) s fun r => r.pri.armed = some s.prismCfg ∧ r.get PRI_STATUS.apply_armed = 1 ∧ r.get PRI_CFG_ERR.code = 0 ∧ r.armed .prism = true) ∧
  (∀ (s : State), s.awake = true → (s.prismCheck s.prismCfg).1 ≠ 0 →
      Does (.prismApply) s fun r => r.pri = s.pri ∧ r.get PRI_CFG_ERR.code = (s.prismCheck s.prismCfg).1 % 256 ∧ r.get PRI_ERR.cfg_refused = 1) ∧
  (∀ (s : State), s.awake = true → s.pri.armed.isSome = true → s.gno.due.contains .prism = false →
      Does (.prismAbort) s fun r => r.pri.armed = none ∧ r.get PRI_STATUS.apply_armed = 0 ∧ r.get PRI_CFG_ERR.code = 12 ∧ r.armed .prism = false ∧ r.get PRI_ERR.aborted = 1) ∧
  (∀ (s : State) (c : PrismCfg), s.awake = true → s.pri.armed = some c → s.pri.fixed = none → s.isDue .prism = true →
      Does (.prismApplyCommit) s fun r => r.pri.work = c ∧ r.pri.armed = none ∧ r.get PRI_STATUS.apply_armed = 0 ∧ r.pri.applied = true) ∧
  (∀ (s : State), s.awake = true →
      Does (.slackReset) s fun r => ∀ n < 224, r.get PRI_LANE_SLACK.min n = 0xFFFF)

/-- A Prism word joins its crossing, the deadline commits the oldest crossing, the side port takes and performs requests. -/
def Obligations.PrismData : Prop :=
  (∀ (s : State) (n : Fin 224) (t : Nat) (w : PortWord) (ws : List PortWord) (c : Nat), s.awake = true → (s.path (n.val / 4) (n.val % 4)).words = w :: ws → (Sparse.get {} s.pri.work.lanes n.val).enable = true → w.first = true → s.classify n.val w.tag = .crossing c → 0 < mapWords (Sparse.get {} s.pri.work.lanes n.val).count (Sparse.get {} s.pri.work.lanes n.val).bits →
      Does (.prismWord n t) s fun r => (r.path (n.val / 4) (n.val % 4)).words = ws ∧ (r.buf n.val).contribs = (s.buf n.val).contribs ++ [{ serial := c, words := [w.word], last := max s.now t }] ∧ r.now = max s.now t) ∧
  (∀ (s : State) (t : Nat) (p : Pending) (rest : List Pending), s.awake = true → s.pri.pend = p :: rest → (s.cfgOf p).lin ≤ serialAge p.serial s.lastSerial + 1 → serialAge p.serial s.lastSerial < 2 ^ 63 → s.bit PRI_STATUS.budget_fail = false →
      Does (.commitDeadline t) s fun r => r.pri.pend = rest ∧ r.pri.hidden = some { serial := p.serial, index := p.index, holdover := p.holdover, planes := (s.cfgOf p).intake, gap := p.gap.isSome } ∧ r.get PRI_COMMIT_CNT.count = min (2 ^ 32 - 1) (s.get PRI_COMMIT_CNT.count + 1)) ∧
  (∀ (s : State) (write : Bool) (addr : Fin 0x10000000000) (len : Fin 257) (ini : Fin 41) (tag : Fin 64) (data : List (BitVec 8)), s.awake = true → sideClosed addr.val len.val = false → peBase ≤ addr.val → 0 < len.val → len.val ≤ 64 - addr.val % 64 → s.pri.held = [] → s.pri.side = [] →
      Does (.sidePortRequest write addr len ini tag data) s fun r => r.pri.side = [{ write := write, plane := (addr.val - peBase) / 0x4000, pieces := [{ offset := (addr.val - peBase) % 0x4000, len := len.val, data := slice data 0 len.val, initiator := ini.val, tag := askTag + tag.val }] }] ∧ r.pri.asks = s.pri.asks ++ [{ initiator := ini.val, tag := tag.val, len := len.val, write := write }] ∧ r.get PRI_SP_STATUS.queued = 1) ∧
  (∀ (s : State) (write : Bool) (addr : Fin 0x10000000000) (len : Fin 257) (ini : Fin 41) (tag : Fin 64) (data : List (BitVec 8)), s.awake = true → peBase ≤ addr.val → sideClosed addr.val len.val = true →
      Does (.sidePortRequest write addr len ini tag data) s fun r => r.get PRI_SP_ERR_CNT.count = min (2 ^ 32 - 1) (s.get PRI_SP_ERR_CNT.count + 1) ∧ r.get PRI_ERR.sp_refused = 1 ∧ r.sent = s.sent ++ [.side ini.val tag.val 1 []] ∧ r.pri = s.pri ∧ r.arr = s.arr ∧ (s.erq.reports = [] → r.erq.reports.any (fun q => q.page == 4 && q.code == 0xF000) = true)) ∧
  (∀ (s : State) (k : Nat) (p : Piece) (q : Pkt), s.awake = true → s.gno.due = [] → s.pri.asks = [] → s.pri.turns = 1 → s.pri.side = [{ write := false, plane := k, pieces := [p] }] → s.pri.held = [] → s.pri.performed = [] → s.ring.sideReqs = [q] → q.cmd = .read → q.ini = p.initiator → q.sideTag = p.tag → q.len = p.len → s.hbm.xfers = [] → (∀ t < 4, p.initiator ≠ xferInitiator t) →
      Does (.sidePortPerform) s fun r => r.pri.side = [] ∧ r.pri.turns = 0 ∧ r.ring.sideReqs = [] ∧ r.ring.rsps = s.ring.rsps ++ [{ ini := q.ini, slot := q.slot, epoch := q.epoch, cmd := .read, src := q.dst, status := if (s.sideRead k p).bad then 1 else 0, addr := q.addr, g := q.g, ring := (s.takeRoute q.dst (iniStop q.ini) q.g).2.1, dir := (s.takeRoute q.dst (iniStop q.ini) q.g).2.2, data := sideBytes [s.sideRead k p] q.len }])

/-- A Worga link moves between its states as the table of R292 states. That the published offset is truncated to its unit
is the model's choice (log entry 65). -/
def Obligations.LinkStates : Prop :=
  (∀ (s : State) (j : Fin 12) (v : BitVec 32), s.awake = true → v.getLsbD 0 = true → bits v.toNat 5 3 ≤ 4 → s.linkState (.data j) = 0 → (s.wrReg 8 (0x400 + 0x40 * j.val) allBits v.toNat).laneConflict ((s.wrReg 8 (0x400 + 0x40 * j.val) allBits v.toNat).linkLanes j.val) = false → (s.wrReg 8 (0x400 + 0x40 * j.val) allBits v.toNat).windowOk j.val = true →
      Does (.linkConfigWrite (.data j) 0xFFFFFFFF#32 v) s fun r => r.get WOR_LINK_CFG.enable j.val = 1 ∧ r.get WOR_LINK_CFG.side j.val = bits v.toNat 5 3 ∧ r.linkState (.data j) = 0) ∧
  (∀ (s : State) (j : Fin 12) (v : BitVec 32), s.awake = true → v.getLsbD 0 = true → (s.wrReg 8 (0x400 + 0x40 * j.val) allBits v.toNat).laneConflict ((s.wrReg 8 (0x400 + 0x40 * j.val) allBits v.toNat).linkLanes j.val) = true →
      exec (.linkConfigWrite (.data j) 0xFFFFFFFF#32 v) s = .next (s.err WOR_ERR.lane_conflict 0 j.val)) ∧
  (∀ (s : State) (j : Fin 12) (v : BitVec 32), s.awake = true → v.getLsbD 0 = false → s.linkState (.data j) = 4 →
      Does (.linkConfigWrite (.data j) 0xFFFFFFFF#32 v) s fun r => r.linkState (.data j) = 0 ∧ r.get WOR_LINK_CFG.enable j.val = 0 ∧ r.get WOR_LINK_ERR.down j.val = 1 ∧ r.get WOR_LINK_PEER.valid j.val = 0) ∧
  (∀ (s : State) (l : LinkId), s.awake = true → s.linkEnabled l = true → s.linkState l = 0 → (∀ n ∈ s.rearLanes l, (s.get FLN_REFCLK_STATUS.present).testBit (n / 6) = true) →
      Does (.worgaLanePllLock l) s fun r => r.linkState l = 1) ∧
  (∀ (s : State) (l : LinkId), s.awake = true → s.linkState l = 1 →
      Does (.linkTrained l) s fun r => r.linkState l = 2 ∧ (r.wlink l).identRun = 0) ∧
  (∀ (s : State) (j : Fin 12), s.awake = true → s.linkState (.data j) = 1 →
      Does (.linkTrainTimeout (.data j)) s fun r => r.linkState (.data j) = 0 ∧ r.get WOR_LINK_ERR.train_timeout j.val = 1) ∧
  (∀ (s : State) (j : Fin 12), s.awake = true → s.linkState (.data j) = 4 →
      Does (.linkLaneLoss (.data j)) s fun r => r.linkState (.data j) = 0 ∧ r.get WOR_LINK_ERR.down j.val = 1 ∧ r.get WOR_LINK_DOWN_CNT.count j.val = min 65535 (s.get WOR_LINK_DOWN_CNT.count j.val + 1)) ∧
  (∀ (s : State) (n : Fin 48), s.awake = true → s.linkState (.beacon n) ≠ 0 →
      Does (.linkLaneLoss (.beacon n)) s fun r => r.linkState (.beacon n) = 0) ∧
  (∀ (s : State) (j : Fin 12) (word : BitVec 64), s.awake = true → s.linkState (.data j) = 2 → s.identFits (.data j) word.toNat = true → word.getLsbD 26 = true → identPeer word.toNat = (s.wlink (.data j)).ident → (s.wlink (.data j)).identRun = 7 →
      Does (.ident (.data j) word) s fun r => r.linkState (.data j) = 3 ∧ r.get WOR_LINK_PEER.addr j.val = bits word.toNat 8 18 ∧ r.get WOR_LINK_PEER.valid j.val = 1) ∧
  (∀ (s : State) (j : Fin 12) (word : BitVec 64), s.awake = true → s.linkState (.data j) = 2 → s.identFits (.data j) word.toNat = false →
      Does (.ident (.data j) word) s fun r => r.linkState (.data j) = 2 ∧ (r.wlink (.data j)).identRun = 0 ∧ r.get WOR_LINK_ERR.side_mismatch j.val = 1) ∧
  (∀ (s : State) (j : Fin 12) (word : BitVec 64) (t edge : Nat), s.awake = true → s.linkState (.data j) = 4 → s.markerMatch word.toNat = some edge →
      Does (.slot (.data j) word t) s fun r => r.linkState (.data j) = 4 ∧ (r.wlink (.data j)).misses = 0 ∧ (r.wlink (.data j)).marker = some (bits word.toNat 8 12) ∧ r.get WOR_LINK_MARK_OFS.ofs j.val = min 0xFFFFFF ((t - edge) / 10000)) ∧
  (∀ (s : State) (j : Fin 12), s.awake = true → s.linkState (.data j) = 4 → (s.wlink (.data j)).misses = 3 →
      Does (.markerLoss (.data j)) s fun r => r.linkState (.data j) = 3 ∧ r.get WOR_LINK_ERR.marker_mismatch j.val = 1) ∧
  (∀ (s : State) (j : Fin 12), s.awake = true → s.linkState (.data j) ≠ 0 → s.bit WOR_LINK_CFG.fec j.val = true →
      Does (.worgaCodeword (.data j) .corrected) s fun r => r.get WOR_FEC_CORR_CNT.count j.val = min (2 ^ 32 - 1) (s.get WOR_FEC_CORR_CNT.count j.val + 1)) ∧
  (∀ (s : State) (j : Fin 12), s.awake = true → s.linkState (.data j) ≠ 0 →
      Does (.worgaCodeword (.data j) .uncorrectable) s fun r => r.get WOR_FEC_UNCORR_CNT.count j.val = min (2 ^ 32 - 1) (s.get WOR_FEC_UNCORR_CNT.count j.val + 1) ∧ r.get WOR_LINK_ERR.fec_uncorr j.val = 1)

/-- Link slots, halo planes, frames that land and firmware frames. -/
def Obligations.WorgaFrames : Prop :=
  (∀ (s : State) (n : Fin 48) (extra : Bool), s.awake = true → 3 ≤ s.linkState (.beacon n) →
      Does (.linkSlot (.beacon n) extra) s fun r => r.sent = s.sent ++ [.link (16 + n.val) [(n.val, true, s.slotWord.2), (n.val, true, s.identWord (.beacon n))]]) ∧
  (∀ (s : State) (n : Fin 48) (extra : Bool), s.awake = true → s.linkState (.beacon n) = 2 →
      Does (.linkSlot (.beacon n) extra) s fun r => r.sent = s.sent ++ [.link (16 + n.val) ((fillIdle (s.slotWords (.beacon n) + b2n extra) [(true, s.slotWord.2), (true, s.identWord (.beacon n))]).map fun e => (n.val, e))]) ∧
  (∀ (s : State) (j : Fin 12) (payload : List (BitVec 64)) (p : Nat × Nat) (k : Nat), s.awake = true → s.linkState (.data j) = 4 → s.get WOR_LINK_CFG.side j.val < 4 → s.haloDelay = 0 → (s.wlink (.data j)).marker.bind s.indexAhead = some 0 → haloPlanes (s.get WOR_LINK_CFG.side j.val) 8 (payload.map BitVec.toNat) = [p] → s.whaloEntry p.1 = some k →
      Does (.haloFrame j payload) s fun r => Sparse.get 0 r.arr.halo (8 * s.get WOR_LINK_CFG.side j.val + k) = p.2 ∧ (r.get ARR_WHALO_READY.ready).testBit (8 * s.get WOR_LINK_CFG.side j.val + k) = true) ∧
  (∀ (s : State) (j : Fin 12) (words : List (Fin 4 × Bool × BitVec 64)) (room : Bool) (sof d : Nat) (ws : List Nat), s.awake = true → words.map (fun w => (w.1.val, w.2.1, w.2.2.toNat)) = (frameWords sof (d :: ws)).zipIdx.map (fun e => (((s.wlink (.data j)).rxTurn + e.2) % s.linkWidth j.val, e.1)) → (s.wlink (.data j)).rxTurn < s.linkWidth j.val → (s.wlink (.data j)).waits = [] → sof % 256 = 0x2D → bits sof 8 2 = 1 → ws.length < 2047 → 3 ≤ s.linkState (.data j) → (s.wlink (.data j)).rx = none → s.ownAddress = some (bits sof 12 18) → s.get WOR_RX_WIN_LO.base * 65536 + s.get WOR_RX_WIN_HI.base * 2 ^ 32 ≤ d % 2 ^ 40 → d % 2 ^ 40 + 8 * ws.length ≤ s.get WOR_RX_WIN_LO.base * 65536 + s.get WOR_RX_WIN_HI.base * 2 ^ 32 + s.get WOR_RX_WIN_HI.size * 65536 → s.rxFill j.val + 8 * ws.length ≤ 65536 →
      Does (.worgaFrame j words room) s fun r => r.wor.posted = s.wor.posted ++ postedWrites j.val (d % 2 ^ 40) (ws.map (leBytes 8)).flatten ∧ (r.wlink (.data j)).rx = none ∧ ∀ p ∈ postedWrites j.val (d % 2 ^ 40) (ws.map (leBytes 8)).flatten, 0 < p.data.length ∧ p.addr / 256 = (p.addr + p.data.length - 1) / 256) ∧
  (∀ (s : State) (j : Fin 12), s.awake = true → (∃ t < 32, s.wor.frames.all (fun f => f.tag ≠ t) = true) → s.firstHop (s.get WOR_TX_DST_HI.device) = some j → s.linkState (.data j) = 4 → s.bit WOR_LINK_STATUS.bulk_ok j.val = true →
      Does (.worgaTxSend) s fun r => r.wor.frames.length = s.wor.frames.length + 1 ∧ r.get WOR_TX_STATUS.queued = (s.wor.frames.length + 1) % 64 ∧ r.wor.frames.getLast?.map (fun f => (f.src, f.dst, f.device, f.words)) = some (8 * s.get WOR_TX_SRC_LO.addr + 2 ^ 32 * s.get WOR_TX_SRC_HI.addr, s.get WOR_TX_DST_LO.addr + 2 ^ 32 * s.get WOR_TX_DST_HI.addr, s.get WOR_TX_DST_HI.device, s.get WOR_TX_LEN.words)) ∧
  (∀ (s : State) (tag : Fin 256) (f : TxFrame), s.awake = true → s.wor.frames.find? (fun x => x.tag = tag.val) = some f → f.started = false →
      Does (.worgaTxAbort tag) s fun r => r.wor.frames.all (fun x => x.tag ≠ tag.val) = true ∧ (r.get WOR_TX_ABORTED.tags).testBit tag.val = (decide (tag.val < 32)) ∧ r.get WOR_TX_STATUS.queued = r.wor.frames.length % 64) ∧
  (∀ (s : State) (tag : Fin 256) (f : TxFrame), s.awake = true → s.wor.frames.find? (fun x => x.tag = tag.val) = some f → f.started = true →
      exec (.worgaTxAbort tag) s = .next (s.err WOR_ERR.abort_too_late))

/-- The system epoch is armed, aborted and fires; the combining tree opens, closes and delivers. -/
def Obligations.SystemEpochAndTree : Prop :=
  (∀ (s : State), s.awake = true → s.bit WOR_EPOCH_WHEN_HI.named = false →
      Does (.epochApply) s fun r => r.armed .epoch = true ∧ r.wor.epochFired = false) ∧
  (∀ (s : State), s.awake = true → s.epochArmed = true →
      Does (.epochAbort) s fun r => r.armed .epoch = false ∧ r.get WOR_ERR.aborted = 1) ∧
  (∀ (s : State), s.awake = true → s.isDue .epoch = true →
      Does (.epochFire) s fun r => r.get WOR_EPOCH.active = s.get WOR_EPOCH.pending % 65536 ∧ r.wor.epochFired = true) ∧
  (∀ (s : State) (off : Fin 3) (v : BitVec 32), s.awake = true → (s.wrReg 8 (0x24 + 4 * off.val) allBits v.toNat).treeOk = true →
      exec (.beaconTreeConfig off 0xFFFFFFFF#32 v) s = .next (s.wrReg 8 (0x24 + 4 * off.val) allBits v.toNat)) ∧
  (∀ (s : State) (off : Fin 3) (v : BitVec 32), s.awake = true → (s.wrReg 8 (0x24 + 4 * off.val) allBits v.toNat).treeOk = false →
      exec (.beaconTreeConfig off 0xFFFFFFFF#32 v) s = .next (s.err WOR_ERR.bcn_cfg_refused)) ∧
  (∀ (s : State) (t : Nat) (x : BcnResult) (rest : List BcnResult) (c : Nat) (g : Tag), s.awake = true → s.seq.toWorga = x :: rest → x.serial = some c → s.bit WOR_BCN_CTRL.enable = true → s.gno.tags.find? (fun q => q.serial == c && q.numbered) = some g → s.wor.keys = [] → s.wor.closed = [] →
      Does (.beaconOwnResult t) s fun r => r.seq.toWorga = rest ∧ r.wor.keys = s.wor.keys ++ [{ key := { index := g.index, orbit := g.orbit % 16, uaddr := x.addr }, openedAt := max s.now t, own := some { or := x.or, full := x.full, none := !x.or, key := { index := g.index, orbit := g.orbit % 16, uaddr := x.addr }, devices := 1, count := if x.full then x.count else 0, p := if x.full then x.first.getD 0 else 0, dev := if x.full ∧ x.or then s.ownAddress.getD 0 else 0 } }]) ∧
  (∀ (s : State) (n : Fin 48) (w0 w1 w2 : BitVec 64) (t : Nat) (c : Cell), s.awake = true → s.linkState (.beacon n) = 4 → s.isParent n = false → s.childLanes.contains n = true → s.bit WOR_BCN_CTRL.enable = true → cellOf w0.toNat w1.toNat w2.toNat = some (0, c) → s.wor.keys = [] → s.wor.closed = [] →
      Does (.beaconCellUp n w0 w1 w2 t) s fun r => r.wor.keys = [{ key := c.key, openedAt := max s.now t, children := [(n.val, c)] }] ∧ r.get WOR_BLN_CELL_CNT.count n.val = min (2 ^ 32 - 1) (s.get WOR_BLN_CELL_CNT.count n.val + 1)) ∧
  (∀ (s : State) (n : Fin 48) (w0 w1 w2 : BitVec 64) (t : Nat), s.awake = true → s.linkState (.beacon n) = 4 → s.isParent n = false → w0.toNat % 256 = 0x4B → cellOf w0.toNat w1.toNat w2.toNat = none →
      Does (.beaconCellUp n w0 w1 w2 t) s fun r => r.get WOR_BLN_CRC_CNT.count n.val = min (2 ^ 32 - 1) (s.get WOR_BLN_CRC_CNT.count n.val + 1) ∧ r.wor = s.wor) ∧
  (∀ (s : State) (i t : Nat) (o : OpenKey), s.awake = true → s.wor.keys = [o] → i = 0 → o.openedAt + s.get WOR_BCN_WAIT.ns * 1000000 ≤ t → s.bit WOR_BCN_CTRL.root = true →
      Does (.beaconKeyClose i t) s fun r => r.wor.keys = [] ∧ r.wor.sys = combine o.key (o.own.toList ++ o.children.map (·.2)) (!s.keyComplete o) ∧ r.get WOR_SYS_CNT.count = min (2 ^ 32 - 1) (s.get WOR_SYS_CNT.count + 1) ∧ r.wor.sysOut = s.wor.sysOut ++ [r.wor.sys]) ∧
  (∀ (s : State) (n : Fin 48) (w0 w1 w2 : BitVec 64) (t : Nat) (c : Cell), s.awake = true → s.linkState (.beacon n) = 4 → s.isParent n = true → s.childLanes.contains n = false → cellOf w0.toNat w1.toNat w2.toNat = some (1, c) →
      Does (.beaconCellDown n w0 w1 w2 t) s fun r => r.wor.sys = c ∧ r.get WOR_SYS_RESULT.index = c.key.index % 4096 ∧ r.get WOR_SYS_CNT.count = min (2 ^ 32 - 1) (s.get WOR_SYS_CNT.count + 1)) ∧
  (∀ (s : State) (ini : Fin 41), s.awake = true →
      Does (.sysResultRead ini) s fun r => r.get WOR_SYS_COUNT_LO.count = s.wor.sys.count % 2 ^ 32 ∧ r.get WOR_SYS_DEVICES.count = s.wor.sys.devices % 2 ^ 19 ∧ r.get WOR_SYS_RESULT.flags = s.get WOR_SYS_RESULT.flags ∧ r.sent.length = s.sent.length + 1)

/-- The HBM stacks initialise, fail and restart; errors of the patrol are counted. What a stack reads as once its contents
are lost is the model's choice (log entry 5, log entry 67). -/
def Obligations.HbmStacks : Prop :=
  (∀ (s : State) (k : Fin 2), s.awake = true → s.stack k.val = 1 →
      Does (.hbmInitComplete k) s fun r => r.stack k.val = 2 ∧ ∀ a, tagTable ≤ a → a < tagTable + 0x100000 → a % 16 = 8 → a / 256 % 2 = k.val → (r.byte a).getLsbD 0 = false) ∧
  (∀ (s : State) (k : Fin 2), s.awake = true → s.stack k.val = 1 →
      Does (.hbmInitFail k) s fun r => r.stack k.val = 4 ∧ r.get HBM_ERR.stack_fault = 1) ∧
  (∀ (s : State) (k : Fin 2), s.awake = true → s.stack k.val = 2 →
      Does (.hbmFault k) s fun r => r.stack k.val = 4 ∧ r.get HBM_ERR.stack_fault = 1 ∧ ∀ a, r.byte a = s.byte a) ∧
  (∀ (s : State), s.awake = true → s.stack 1 = 4 → s.stack 0 ≠ 4 →
      Does (.hbmRestart) s fun r => r.stack 1 = 1 ∧ r.stack 0 = s.stack 0 ∧ ∀ a, r.byte a = (if inStack 1 a then memDefault else s.byte a)) ∧
  (∀ (s : State) (addr : Fin 0x400000000), s.awake = true → 0x80100000 ≤ addr.val → s.stack (addr.val / 256 % 2) = 2 → Sparse.get false s.poison (addr.val / 8 * 8) = false →
      exec (.hbmPatrolScrub addr .corrected) s = .next (s.inc HBM_ECC_CORR_CNT.count)) ∧
  (∀ (s : State) (addr : Fin 0x400000000), s.awake = true → 0x80100000 ≤ addr.val → s.stack (addr.val / 256 % 2) = 2 →
      Does (.hbmPatrolScrub addr .uncorrectable) s fun r => Sparse.get false r.poison (addr.val / 8 * 8) = true ∧ r.get HBM_ERR.ecc_uncorr = 1 ∧ r.get HBM_ECC_UNCORR_CNT.count = min (2 ^ 32 - 1) (s.get HBM_ECC_UNCORR_CNT.count + 1))

/-- The pipeline stores a crossing with its tag; its configuration waits for the barrier; array transfers start and abort. -/
def Obligations.HbmPipeline : Prop :=
  (∀ (s : State) (h : Handoff) (rest : List Handoff), s.awake = true → s.pri.handoffs = h :: rest → s.stack 0 = 2 → s.stack 1 = 2 → h.storing = true →
      Does (.hbmPipelineWrite true) s fun r => r.pri.handoffs = rest ∧ r.hbm.last = h.crossing.serial ∧ r.get HBM_PIPE_LAST_LO.serial = h.crossing.serial % 2 ^ 32 ∧ ∀ k < 16, r.byte (tagTable + 16 * (h.crossing.serial % 65536) + k) = (pipeTag h).getD k 0) ∧
  (∀ (s : State) (inTime : Bool) (h : Handoff) (rest : List Handoff), s.awake = true → s.pri.handoffs = h :: rest → s.stack 0 ≠ 2 →
      Does (.hbmPipelineWrite inTime) s fun r => r.pri.handoffs = rest ∧ r.get HBM_PIPE_DROP_CNT.count = min (2 ^ 32 - 1) (s.get HBM_PIPE_DROP_CNT.count + 1) ∧ r.get HBM_ERR.pipe_drop = 1 ∧ ∀ a, r.byte a = s.byte a) ∧
  (∀ (s : State) (v : BitVec 32), s.awake = true → s.pipeRateOk v.toNat = true →
      Does (.pipeCtrlWrite 0xFFFFFFFF#32 v) s fun r => r.get HBM_PIPE_CTRL.enable = bits v.toNat 0 1 ∧ r.get HBM_PIPE_CTRL.half = bits v.toNat 2 1 ∧ r.hbm.oldPipe = some s.pipeWord) ∧
  (∀ (s : State) (v : BitVec 32), s.awake = true → v.getLsbD 0 = true → s.pipeRateOk v.toNat = false →
      exec (.pipeCtrlWrite 0xFFFFFFFF#32 v) s = .next (s.err HBM_ERR.cfg_refused)) ∧
  (∀ (s : State) (t : Fin 4) (ecc : EccMap), s.awake = true → s.get HBM_XFER_CTRL.mode t.val = 1 → s.bit HBM_XFER_STATUS.busy t.val = false → s.xferOk t.val = true →
      Does (.xferStart t ecc) s fun r => r.get HBM_XFER_STATUS.busy t.val = 1 ∧ r.get HBM_XFER_STATUS.done_ t.val = 0 ∧ (r.xfer t.val).left = 0x4000 * s.get HBM_XFER_CFG.planes t.val) ∧
  (∀ (s : State) (t : Fin 4) (ecc : EccMap), s.awake = true → s.get HBM_XFER_CTRL.mode t.val = 1 → s.bit HBM_XFER_STATUS.busy t.val = true →
      exec (.xferStart t ecc) s = .next (s.err HBM_ERR.xfer_refused 0 t.val)) ∧
  (∀ (s : State) (t : Fin 4), s.awake = true → s.bit HBM_XFER_STATUS.busy t.val = true →
      Does (.xferAbort t) s fun r => r.get HBM_XFER_STATUS.busy t.val = 0 ∧ r.get HBM_XFER_STATUS.aborted t.val = 1 ∧ (r.xfer t.val).left = 0 ∧ ∀ e ∈ r.pri.side, ∀ p ∈ e.pieces, p.initiator ≠ xferInitiator t.val)

/-- Beacon entries are kept; an event becomes ready, is gathered, assembled and sent. -/
def Obligations.ReadoutEvents : Prop :=
  (∀ (s : State) (x : BcnResult) (rest : List BcnResult) (c : Nat), s.awake = true → s.seq.toReadout = x :: rest → x.serial = some c → (s.keptOf c).beacons.length < 4 → serialAge c s.lastSerial < 4096 →
      Does (.readoutBeaconEntry false) s fun r => r.seq.toReadout = rest ∧ (r.keptOf c).beacons = (s.keptOf c).beacons ++ [x]) ∧
  (∀ (s : State) (t : Nat) (e : Event) (rest : List Event), s.awake = true → s.rdo.events = e :: rest → s.rdo.events.any (fun x => x.phase = .gathering) = false → e.skip = 0 → e.phase = .queued → (s.at t).isReady e = true →
      Does (.eventReady t) s fun r => r.rdo.events = { e with phase := .gathering, window := e.crossings.map s.keptOf, release := (s.keptOf e.serial).release.or e.release } :: rest) ∧
  (∀ (s : State) (e : Event) (rest : List Event) (ecc : EccMap), s.awake = true → s.rdo.events = e :: rest → e.phase = .gathering →
      Does (.eventGather ecc) s fun r => r.rdo.events = { e with phase := .gathered, body := (s.buildBody e ecc).2.1, partial_ := (s.buildBody e ecc).2.2, fellBack := e.noCentre } :: rest) ∧
  (∀ (s : State) (e : Event) (rest : List Event), s.awake = true → s.rdo.events = e :: rest → e.phase = .gathered →
      Does (.eventAssembled) s fun r => r.rdo.events = { e with phase := .assembled } :: rest ∧ r.rdo.phi ≤ s.rdo.phi ∧ ∀ a, e.cfg.keep = false → r.byte a = s.byte a) ∧
  (∀ (s : State) (t : Nat) (e : Event) (rest : List Event) (k : Nat), s.awake = true → s.rdo.events = e :: rest → e.skip = 0 → e.phase = .assembled → e.sent = 0 → e.frames ≤ 1 → pickPort s.rdo.frame s.readyPorts s.readyPorts = some k →
      Does (.readoutFrameSend t) s fun r => r.rdo.events = rest ∧ r.rdo.frame = s.rdo.frame + 1 ∧ r.get RDO_SENT_CNT.count = min (2 ^ 32 - 1) (s.get RDO_SENT_CNT.count + 1) ∧ r.sent = (s.sendUdp k (s.readoutHeader e 0 e.frames 0 ++ slice e.body 0 e.cfg.chunk)).sent) ∧
  (∀ (s : State), s.awake = true → s.rdoCheck s.rdoPending = 0 →
      Does (.readoutApply) s fun r => r.rdo.armed = some s.rdoPending ∧ r.get RDO_CFG_ERR.code = 0 ∧ r.get RDO_STATUS.cfg_pending = 0) ∧
  (∀ (s : State), s.awake = true → s.rdoCheck s.rdoPending ≠ 0 →
      Does (.readoutApply) s fun r => r.rdo = s.rdo ∧ r.get RDO_CFG_ERR.code = s.rdoCheck s.rdoPending % 256 ∧ r.get RDO_ERR.cfg_refused = 1)

/-- A readout port moves between its states and answers ARP and ICMP as R334 and R335 state. The bytes of the ARP and ICMP
frames, and when a learned MAC is forgotten, are the model's (log entry 75, PRESUMED). -/
def Obligations.ReadoutPorts : Prop :=
  (∀ (s : State) (k : Fin 16) (v : BitVec 32), s.awake = true → v.getLsbD 0 = true → s.get RDO_PORT_STATUS.state k.val = 0 → (s.wrReg 10 (0x400 + 0x40 * k.val) allBits v.toNat).laneConflict [bits v.toNat 1 6] = false →
      Does (.portConfigWrite k 0xFFFFFFFF#32 v) s fun r => r.get RDO_PORT_STATUS.state k.val = 1 ∧ r.get RDO_PORT_CFG.enable k.val = 1 ∧ r.get RDO_PORT_CFG.lane k.val = bits v.toNat 1 6) ∧
  (∀ (s : State) (k : Fin 16) (v : BitVec 32), s.awake = true → v.getLsbD 0 = false → 2 ≤ s.get RDO_PORT_STATUS.state k.val → s.get RDO_PORT_STATUS.state k.val < 4 →
      Does (.portConfigWrite k 0xFFFFFFFF#32 v) s fun r => r.get RDO_PORT_STATUS.state k.val = 0 ∧ r.get RDO_PORT_ERR.down k.val = 1) ∧
  (∀ (s : State) (k : Fin 16), s.awake = true → s.get RDO_PORT_STATUS.state k.val = 1 →
      Does (.portLinkUp k) s fun r => r.get RDO_PORT_STATUS.state k.val = (if s.get RDO_PORT_IP.ip k.val ≠ 0 ∧ (s.destMac k.val).isSome then 3 else 2) ∧ r.sent = s.sent ++ [.ether k.val (arpFrame broadcast (s.portMac k.val) 1 (s.get RDO_PORT_IP.ip k.val) 0 (s.get RDO_PORT_IP.ip k.val))]) ∧
  (∀ (s : State) (k : Fin 16), s.awake = true → 2 ≤ s.get RDO_PORT_STATUS.state k.val →
      Does (.portPcsLoss k) s fun r => r.get RDO_PORT_STATUS.state k.val = 0 ∧ (r.port k.val).mac = none ∧ r.get RDO_PORT_ERR.down k.val = 1) ∧
  (∀ (s : State) (k : Fin 16), s.awake = true → 2 ≤ s.get RDO_PORT_STATUS.state k.val → s.bit RDO_PORT_DST_MAC_HI.static k.val = false →
      Does (.arpRequestTimer k) s fun r => r.sent = s.sent ++ [.ether k.val (arpFrame broadcast (s.portMac k.val) 1 (s.get RDO_PORT_IP.ip k.val) 0 (s.get RDO_PORT_DST_IP.ip k.val))]) ∧
  (∀ (s : State) (k : Fin 16), s.awake = true → s.get RDO_PORT_STATUS.state k.val = 3 → s.bit RDO_PORT_DST_MAC_HI.static k.val = false →
      Does (.arpTimeout k) s fun r => r.get RDO_PORT_STATUS.state k.val = 2 ∧ (r.port k.val).mac = none ∧ r.get RDO_PORT_ERR.arp_timeout k.val = 1) ∧
  (∀ (s : State) (k : Fin 16) (ip : BitVec 32) (mac : BitVec 48) (target : BitVec 32), s.awake = true → 2 ≤ s.get RDO_PORT_STATUS.state k.val → target.toNat = s.get RDO_PORT_IP.ip k.val → ip.toNat = s.get RDO_PORT_DST_IP.ip k.val → s.bit RDO_PORT_DST_MAC_HI.static k.val = false →
      Does (.arpReply k ip mac target) s fun r => (r.port k.val).mac = some mac.toNat ∧ (target.toNat ≠ 0 → r.get RDO_PORT_STATUS.state k.val = 3)) ∧
  (∀ (s : State) (k : Fin 16) (ip : BitVec 32) (mac : BitVec 48) (target : BitVec 32), s.awake = true → 2 ≤ s.get RDO_PORT_STATUS.state k.val → target.toNat = s.get RDO_PORT_IP.ip k.val → target.toNat ≠ 0 →
      Does (.arpRequest k ip mac target) s fun r => r.sent = s.sent ++ [.ether k.val (arpFrame mac.toNat (s.portMac k.val) 2 target.toNat mac.toNat ip.toNat)]) ∧
  (∀ (s : State) (k : Fin 16) (t : Nat) (mac : BitVec 48) (ip target : BitVec 32) (rest : List (BitVec 8)), s.awake = true → 2 ≤ s.get RDO_PORT_STATUS.state k.val → target.toNat = s.get RDO_PORT_IP.ip k.val → 24 + rest.length ≤ s.rdo.work.mtu → s.now ≤ t → (s.port k.val).second + 10 ^ 15 ≤ t →
      Does (.icmpEchoRequest k t mac ip target rest) s fun r => r.sent.length = s.sent.length + 1 ∧ (r.port k.val).echoes = 1 ∧ (r.port k.val).second = t) ∧
  (∀ (s : State) (k : Fin 16) (bad : Nat), s.awake = true → 2 ≤ s.get RDO_PORT_STATUS.state k.val →
      Does (.portFrameDiscard k bad) s fun r => r.get RDO_PORT_RX_DROP_CNT.count k.val = min (2 ^ 32 - 1) (s.get RDO_PORT_RX_DROP_CNT.count k.val + 1) ∧ r.get RDO_PORT_FEC_CNT.count k.val = min (2 ^ 32 - 1) (s.get RDO_PORT_FEC_CNT.count k.val + bad))

/-- The NMT states of the CAN node, its heartbeat and its bus states. How heartbeat and EMCY frames are listed is the
model's choice (log entry 107). -/
def Obligations.CanNode : Prop :=
  (∀ (s : State), stands s = true → s.canOn = true → (s.nmtState = 127 ∨ s.nmtState = 4) →
      Does (.nmtStart) s fun r => r.nmtState = 5 ∧ r.get DIC_JNL_NEXT.seq = (s.get DIC_JNL_NEXT.seq + 1) % 2 ^ 32) ∧
  (∀ (s : State), stands s = true → s.canOn = false →
      exec (.nmtStart) s = .next (s)) ∧
  (∀ (s : State), stands s = true → s.canOn = true → (s.nmtState = 127 ∨ s.nmtState = 5) →
      Does (.nmtStop) s fun r => r.nmtState = 4 ∧ r.dic.usdo = none) ∧
  (∀ (s : State), stands s = true → s.canOn = true → (s.nmtState = 5 ∨ s.nmtState = 4) →
      Does (.nmtEnterPreoperational) s fun r => r.nmtState = 127 ∧ r.dic.usdo = s.dic.usdo ∧ r.get DIC_JNL_NEXT.seq = (s.get DIC_JNL_NEXT.seq + 1) % 2 ^ 32) ∧
  (∀ (s : State), stands s = true → s.canOn = true → s.bit DIC_CTRL.nmt_reset_en = false →
      Does (.nmtResetNode) s fun r => r.nmtState = 0 ∧ r.dic.usdo = none) ∧
  (∀ (s : State), stands s = true → s.canOn = true →
      Does (.nmtResetCommunication) s fun r => r.nmtState = 0 ∧ r.dic.usdo = none) ∧
  (∀ (s : State), s.awake = true →
      Does (.canEnableWrite) s fun r => r.bit DIC_CTRL.can_en = true ∧ r.nmtState = 0 ∧ r.dic.usdo = none) ∧
  (∀ (s : State), stands s = true → s.canOn = true → s.nmtState = 0 → s.bit BOT_STATUS.dawn_done = true →
      Does (.initialisationDone) s fun r => r.nmtState = 127) ∧
  (∀ (s : State), stands s = true → s.canOn = true → s.nmtState = 0 → s.bit BOT_STATUS.dawn_done = true → s.dic.defaults = [] →
      Does (.initialisationDone) s fun r => r.dic.node = s.get DIC_CAN_CFG.node_id ∧ r.dic.heartbeat = 1000 ∧ r.sent = s.sent ++ [.can (0x700 + s.get DIC_CAN_CFG.node_id) [0]]) ∧
  (∀ (s : State), stands s = true → s.bit DIC_CTRL.can_en = true → s.dic.heartbeat ≠ 0 → s.nmtState ≠ 0 →
      Does (.heartbeat) s fun r => r.sent = s.sent ++ [.can (0x700 + s.dic.node) [BitVec.ofNat 8 (s.get DIC_STATUS.nmt_hb)]]) ∧
  (∀ (s : State) (bus : Fin 3) (tec rec : Fin 512), stands s = true →
      Does (.canBusStateChange bus tec rec) s fun r => r.get DIC_CAN_STATE.bus = bus.val ∧ r.get DIC_CAN_STATE.tec = tec.val % 256 ∧ r.get DIC_CAN_STATE.rec = rec.val % 256) ∧
  (∀ (s : State) (tec rec : Fin 512), stands s = true →
      Does (.canBusStateChange 2 tec rec) s fun r => r.get DIC_ERR.can_bus_off = 1 ∧ r.errorRegister / 16 = 1) ∧
  (∀ (s : State), stands s = true → s.get DIC_CAN_STATE.bus = 2 →
      Does (.canBusOffRecovery) s fun r => r.get DIC_CAN_STATE.bus = 0 ∧ r.get DIC_CAN_STATE.tec = 0 ∧ r.get DIC_CAN_STATE.rec = 0 ∧ r.nmtState = s.nmtState)

/-- USDO requests, segments, aborts and timeouts; process data written and sent. -/
def Obligations.UsdoAndPdo : Prop :=
  (∀ (s : State) (index : Fin 65536) (sub : Fin 256) (room c : Nat), stands s = true → s.usdoOn = true → s.dic.reqs = [] → s.dic.handed = none → s.dic.usdo = none → codeOf (s.readCheck .usdo index.val sub.val none) = c → c ≠ 0 → isDomain index.val sub.val = false →
      Does (.usdoRequest index sub (.upload room)) s fun r => r.sent = s.sent ++ [.usdo (0x580 + s.dic.node) index.val sub.val c []] ∧ r.dic.usdo = none) ∧
  (∀ (s : State) (room : Nat), stands s = true → s.usdoOn = true → s.dic.reqs = [] → s.dic.handed = none → s.dic.usdo = none → (s.get DIC_RIGHTS.can).testBit 0 = true → 2 ≤ room →
      Does (.usdoRequest 0x1017 0 (.upload room)) s fun r => r.sent = s.sent ++ [.usdo (0x580 + s.dic.node) 0x1017 0 0 (leBytes 2 s.dic.heartbeat)]) ∧
  (∀ (s : State) (data : List (BitVec 8)), stands s = true → s.usdoOn = true → s.dic.reqs = [] → s.dic.handed = none → s.dic.usdo = none → (s.get DIC_RIGHTS.can).testBit 2 = true → data.length = 2 →
      Does (.usdoRequest 0x1017 0 (.expedited data)) s fun r => r.dic.heartbeat = leNat data ∧ r.sent = s.sent ++ [.usdo (0x580 + s.dic.node) 0x1017 0 0 []] ∧ r.get DIC_JNL_NEXT.seq = (s.get DIC_JNL_NEXT.seq + 1) % 2 ^ 32) ∧
  (∀ (s : State) (index : Fin 65536) (sub : Fin 256) (op : UsdoOp), stands s = true → s.usdoOn = true → s.dic.reqs = [] → s.dic.handed = none → s.dic.usdo.isSome = true →
      Does (.usdoRequest index sub op) s fun r => r.dic.usdo = s.dic.usdo ∧ r.sent = s.sent ++ [.usdo (0x580 + s.dic.node) index.val sub.val 0x08000020 []]) ∧
  (∀ (s : State) (room : Nat) (x : UsdoXfer), stands s = true → s.usdoOn = true → s.dic.reqs = [] → s.dic.handed = none → s.dic.usdo = some x → x.write = false → x.domain = false →
      Does (.usdoSegment (.up room)) s fun r => r.sent = s.sent ++ [.usdo (0x580 + s.dic.node) x.index x.sub 0 (x.data.take room)] ∧ r.dic.usdo = (if x.data.length ≤ room then none else some { x with data := x.data.drop room })) ∧
  (∀ (s : State) (last : Bool) (data : List (BitVec 8)) (x : UsdoXfer), stands s = true → s.usdoOn = true → s.dic.reqs = [] → s.dic.handed = none → s.dic.usdo = some x → x.write = false →
      Does (.usdoSegment (.down last data)) s fun r => r.dic.usdo = none ∧ r.get DIC_LAST_ABORT.code = 0x05040001) ∧
  (∀ (s : State) (index : Fin 65536) (sub : Fin 256), stands s = true → s.usdoOn = true → s.dic.handed = none → s.dic.usdo.isSome = true →
      Does (.usdoAbort index sub) s fun r => r.dic.usdo = none ∧ r.sent = s.sent) ∧
  (∀ (s : State), stands s = true → s.dic.handed = none → s.dic.usdo.isSome = true →
      Does (.usdoTimeout) s fun r => r.dic.usdo = none ∧ r.get DIC_LAST_ABORT.code = 0x05040000) ∧
  (∀ (s : State) (n : Fin 4) (data : List (BitVec 8)), stands s = true → s.usdoOn = true → s.dic.reqs = [] → s.dic.handed = none → s.nmtState = 5 → (s.rpdo n.val).cob.testBit 31 = false → (s.rpdo n.val).entries = [(0x2603, 1, 4)] → 4 ≤ data.length → (s.get DIC_RIGHTS.can).testBit 1 = true →
      Does (.rpdo n data) s fun r => r.get SEQ_EDG.source = leAt data 0 1 ∧ r.get SEQ_EDG.mode = leAt data 1 1 % 4 ∧ r.dic.reqs = []) ∧
  (∀ (s : State) (n : Fin 4) (data : List (BitVec 8)), stands s = true → s.usdoOn = true → s.dic.reqs = [] → s.dic.handed = none → data.length < ((s.rpdo n.val).entries.map fun e => e.2.2).sum →
      Does (.rpdo n data) s fun r => r.dic.reqs = [] ∧ r.sent = s.sent ∧ r.erq = s.erq) ∧
  (∀ (s : State) (n : Fin 4) (t : Nat), stands s = true → s.canOn = true → s.nmtState = 5 → (s.tpdo n.val).cob.testBit 31 = false → (s.tpdo n.val).timer ≠ 0 → (s.tpdo n.val).entries = [(0x1017, 0, 2)] → ((s.tpdo n.val).sentAt = 0 ∨ (s.tpdo n.val).sentAt - 1 + (s.tpdo n.val).inhibit * 10 ^ 11 ≤ s.now) →
      Does (.tpdoEventTimer n t) s fun r => r.sent = s.sent ++ [.can ((s.tpdo n.val).cob % 2048) (leBytes 2 s.dic.heartbeat)] ∧ (r.tpdo n.val).sentAt = r.now + 1) ∧
  (∀ (s : State) (n : Fin 4) (t : Nat), stands s = true → s.nmtState ≠ 5 →
      exec (.tpdoEventTimer n t) s = .next (s.at t))

/-- Lantern datagrams, their items and DOMAIN transfers. The last header flag of a response, and which discarded datagrams
are counted, are the model's choices (log entry 105). -/
def Obligations.LanternItems : Prop :=
  (∀ (s : State) (dest : Option (BitVec 32 × BitVec 16)) (ip : BitVec 32) (port : BitVec 16) (data : List (BitVec 8)), s.awake = true → dest.map (fun p => (p.1.toNat, p.2.toNat)) = some (s.get DIC_MGT_IP.ip, s.get DIC_LAN_PORT.port) → s.bit DIC_CTRL.lan_en = false →
      exec (.lanternDatagram dest ip port data) s = .next (s)) ∧
  (∀ (s : State) (dest : Option (BitVec 32 × BitVec 16)) (ip : BitVec 32) (port : BitVec 16) (data : List (BitVec 8)), s.awake = true → dest.map (fun p => (p.1.toNat, p.2.toNat)) ≠ some (s.get DIC_MGT_IP.ip, s.get DIC_LAN_PORT.port) →
      exec (.lanternDatagram dest ip port data) s = .next (s.inc DIC_LAN_DROP_CNT.count)) ∧
  (∀ (s : State) (dest : Option (BitVec 32 × BitVec 16)) (ip : BitVec 32) (port : BitVec 16) (data : List (BitVec 8)), s.awake = true → dest.map (fun p => (p.1.toNat, p.2.toNat)) = some (s.get DIC_MGT_IP.ip, s.get DIC_LAN_PORT.port) → s.bit DIC_CTRL.lan_en = true → (data.length < 16 ∨ leAt data 0 2 ≠ 0x4E4C) →
      exec (.lanternDatagram dest ip port data) s = .next (s.inc DIC_LAN_DROP_CNT.count)) ∧
  (∀ (s : State) (dest : Option (BitVec 32 × BitVec 16)) (ip : BitVec 32) (port : BitVec 16) (data : List (BitVec 8)) (x : LanItem), s.awake = true → dest.map (fun p => (p.1.toNat, p.2.toNat)) = some (s.get DIC_MGT_IP.ip, s.get DIC_LAN_PORT.port) → s.bit DIC_CTRL.lan_en = true → 16 ≤ data.length → leAt data 0 2 = 0x4E4C → leAt data 2 1 = 1 → leAt data 3 1 = 0 → leAt data 8 1 = 1 → lanItems 1 (data.drop 16) = some [x] → s.dic.reqs = [] → s.dic.handed = none → s.dic.sessions = [] → (x.op = 2 ∧ x.data.length ≤ 1400) →
      Does (.lanternDatagram dest ip port data) s fun r => r.dic.reqs = [.lantern { ip := ip.toNat, port := port.toNat, session := leAt data 4 2, seq := leAt data 6 2, count := 1, stop := leAt data 9 1 % 2 == 1, todo := [x], started := true }] ∧ r.get DIC_STATUS.queued = 1) ∧
  (∀ (s : State) (dest : Option (BitVec 32 × BitVec 16)) (ip : BitVec 32) (port : BitVec 16) (data : List (BitVec 8)), s.awake = true → dest.map (fun p => (p.1.toNat, p.2.toNat)) = some (s.get DIC_MGT_IP.ip, s.get DIC_LAN_PORT.port) → s.bit DIC_CTRL.lan_en = true → 16 ≤ data.length → leAt data 0 2 = 0x4E4C → leAt data 2 1 = 1 → leAt data 3 1 = 0 → 1 ≤ leAt data 8 1 → leAt data 8 1 ≤ 32 → (lanItems (leAt data 8 1) (data.drop 16)).isSome = true → 64 < s.queued + leAt data 8 1 →
      Does (.lanternDatagram dest ip port data) s fun r => r.get DIC_LAN_DROP_CNT.count = min (2 ^ 32 - 1) (s.get DIC_LAN_DROP_CNT.count + 1) ∧ r.get DIC_ERR.queue_full = 1 ∧ r.dic = s.dic) ∧
  (∀ (s : State) (q : LanReq) (x : LanItem), s.awake = true → s.dic.handed = none → s.dic.reqs = [.lantern q] → q.todo = [x] → s.stored q = none → x.op = 1 → x.index = 0x1017 → x.sub = 0 → x.type = 6 → (s.rightsOf q.src).testBit 0 = true →
      Does (.lanternRead) s fun r => r.dic.reqs = [] ∧ (r.dic.sessions.getLast?).map (fun y => y.response.drop 16) = some (q.done_ ++ x.response 0 (leBytes 2 s.dic.heartbeat))) ∧
  (∀ (s : State) (q : LanReq) (x : LanItem), s.awake = true → s.dic.handed = none → s.dic.reqs = [.lantern q] → q.todo = [x] → s.stored q = none → x.op = 2 → x.index = 0x1017 → x.sub = 0 → x.type = 6 → x.data.length = 2 → (s.rightsOf q.src).testBit 2 = true →
      Does (.lanternWrite) s fun r => r.dic.heartbeat = leNat x.data ∧ r.dic.reqs = [] ∧ (r.dic.sessions.getLast?).map (fun y => y.response.drop 16) = some (q.done_ ++ x.response 0 [])) ∧
  (∀ (s : State) (q : LanReq) (x : LanItem) (c : Nat), s.awake = true → s.dic.handed = none → s.dic.reqs = [.lantern q] → q.todo = [x] → s.stored q = none → x.op = 2 → c ≠ 0 → codeOf (s.writeCheck q.src x.index x.sub (some x.type) x.data.length) = c →
      Does (.lanternWrite) s fun r => r.get DIC_LAST_ABORT.code = c ∧ r.dic.reqs = []) ∧
  (∀ (s : State) (q : LanReq) (x : LanItem), s.awake = true → s.dic.handed = none → s.dic.reqs = [.lantern q] → q.todo = [x] → s.stored q = none → x.op = 3 → x.data.length = 4 → s.openCheck q.src x.index x.sub (some x.type) (leNat x.data) = 0 →
      Does (.domainBegin) s fun r => r.dic.domain = some { src := q.src, index := x.index, sub := x.sub, total := leNat x.data } ∧ r.get DIC_STATUS.domain_open = 1 ∧ r.get DIC_STATUS.domain_if = 1 ∧ r.dic.reqs = []) ∧
  (∀ (s : State) (q : LanReq) (x : LanItem) (d : DomainWrite), s.awake = true → s.dic.handed = none → s.dic.reqs = [.lantern q] → q.todo = [x] → s.stored q = none → x.op = 4 → s.dic.domain = some d → s.ownsDomain q x = true → x.type = 15 → 4 ≤ x.data.length → x.data.length ≤ 1444 → leAt x.data 0 4 = d.got → d.got + (x.data.length - 4) ≤ d.total → d.total ≤ 1048576 →
      Does (.domainData) s fun r => r.dic.domain = some { d with got := d.got + (x.data.length - 4) } ∧ r.bytesAt (0x1000400000 + d.got) (x.data.length - 4) = x.data.drop 4) ∧
  (∀ (s : State) (q : LanReq) (x : LanItem) (d : DomainWrite), s.awake = true → s.dic.handed = none → s.dic.reqs = [.lantern q] → q.todo = [x] → s.stored q = none → x.op = 5 → s.dic.domain = some d → s.ownsDomain q x = true → x.type = 15 → x.data.length = 4 → d.got = d.total → leNat x.data ≠ crc32 (s.bytesAt 0x1000400000 d.total) →
      Does (.domainEnd) s fun r => r.dic.domain = none ∧ r.get DIC_LAST_ABORT.code = 0x0F000004 ∧ r.dic.handed = none ∧ r.dic.reqs = []) ∧
  (∀ (s : State) (q : LanReq) (x : LanItem) (d : DomainWrite), s.awake = true → s.dic.handed = none → s.dic.reqs = [.lantern q] → q.todo = [x] → s.stored q = none → x.op = 5 → s.dic.domain = some d → s.ownsDomain q x = true → x.type = 15 → x.data.length = 4 → d.got = d.total → leNat x.data = crc32 (s.bytesAt 0x1000400000 d.total) → d.index = 0x3003 → s.pwr.bundle = none →
      Does (.domainEnd) s fun r => r.dic.domain = none ∧ r.dic.handed = some { src := d.src, index := d.index, sub := d.sub, length := d.total, crc := leNat x.data } ∧ r.pwr.bundle = some (s.bytesAt 0x1000400000 d.total) ∧ r.dic.reqs = s.dic.reqs) ∧
  (∀ (s : State) (q : LanReq) (x : LanItem), s.awake = true → s.dic.handed = none → s.dic.reqs = [.lantern q] → q.todo = [x] → s.stored q = none → x.op = 6 → x.data.length = 8 → leAt x.data 4 4 ≤ 1440 → x.index = 0x2D01 → x.sub = 1 → codeOf (s.readCheck q.src x.index x.sub (some x.type)) = 0 →
      Does (.domainRead) s fun r => r.dic.reqs = [] ∧ (r.dic.sessions.getLast?).map (fun y => y.response.drop 16) = some (q.done_ ++ x.response 0 (leBytes 4 (leAt x.data 0 4) ++ s.domainBytes x.index x.sub (leAt x.data 0 4) (leAt x.data 4 4)))) ∧
  (∀ (s : State) (q : LanReq) (x : LanItem), s.awake = true → s.dic.handed = none → s.dic.reqs = [.lantern q] → q.todo = [x] → s.stored q = none → x.op = 7 → s.ownsDomain q x = true →
      Does (.lanternAbort) s fun r => r.dic.domain = none ∧ r.get DIC_STATUS.domain_open = 0 ∧ r.dic.reqs = [] ∧ (r.dic.sessions.getLast?).map (fun y => y.response.drop 16) = some (q.done_ ++ x.response 0 [])) ∧
  (∀ (s : State) (q : LanReq) (x : LanItem) (h : Handed), s.awake = true → s.dic.handed = none → s.dic.reqs = [.lantern q] → q.todo = [x] → s.stored q = none → x.op = 7 → s.ownsDomain q x = false → s.dic.lastDomain = some h → h.src = q.src → h.index = x.index → h.sub = x.sub →
      Does (.lanternAbort) s fun r => r.dic.reqs = [] ∧ (r.dic.sessions.getLast?).map (fun y => y.response.drop 16) = some (q.done_ ++ x.response 0x0F000001 []) ∧ r.get DIC_JNL_NEXT.seq = (s.get DIC_JNL_NEXT.seq + 1) % 2 ^ 32) ∧
  (∀ (s : State) (q : LanReq) (x : LanItem), s.awake = true → s.dic.handed = none → s.dic.reqs = [.lantern q] → q.todo = [x] → s.stored q = none → x.op = 7 → s.ownsDomain q x = false → s.dic.lastDomain = none →
      Does (.lanternAbort) s fun r => r.dic.reqs = [] ∧ (r.dic.sessions.getLast?).map (fun y => y.response.drop 16) = some (q.done_ ++ x.response 0x0F000003 []) ∧ r.get DIC_JNL_NEXT.seq = (s.get DIC_JNL_NEXT.seq + 1) % 2 ^ 32) ∧
  (∀ (s : State) (d : DomainWrite) (ip port session : Nat), s.awake = true → s.dic.domain = some d → d.src = .lantern ip port session →
      Does (.domainTimeout) s fun r => r.dic.domain = none ∧ r.get DIC_STATUS.domain_open = 0 ∧ r.get DIC_LAST_ABORT.code = 0x05040000) ∧
  (∀ (s : State) (q : LanReq) (x : LanItem) (h : Handed) (c ip port session : Nat), s.awake = true → s.dic.reqs = [.lantern q] → q.todo = [x] → s.stored q = none → s.dic.handed = some h → s.handResult h = some c → h.src = .lantern ip port session →
      Does (.domainResult) s fun r => r.dic.handed = none ∧ r.dic.reqs = [] ∧ (r.dic.sessions.getLast?).map (fun y => y.response.drop 16) = some (q.done_ ++ x.response c []) ∧ (c = 0 → r.get DIC_JNL_NEXT.seq = s.get DIC_JNL_NEXT.seq) ∧ (c ≠ 0 → r.get DIC_JNL_NEXT.seq = (s.get DIC_JNL_NEXT.seq + 1) % 2 ^ 32)) ∧
  (∀ (s : State) (h : Handed), s.awake = true → s.dic.handed = some h → s.handResult h = none →
      exec (.domainResult) s = .next (s))

/-- The management port, register windows and the mirror of the journal. The place of an entry of the journal in the flash
is the model's choice (log entry 122). The bytes of the ARP and ICMP frames are the model's (log entry 75, PRESUMED). -/
def Obligations.ManagementPort : Prop :=
  (∀ (s : State) (client : Option (BitVec 32)) (w : Fin 256), s.awake = true → Sparse.get 0 s.dic.windows w.val = 0x0F0038 → (s.rightsOf (match client with | some ip => .lantern ip.toNat 0 0 | none => .usdo)).testBit 0 = true →
      Does (.registerWindowAccess client w none) s fun r => r.sent = s.sent ++ [.value (s.get DIC_JNL_SEL.seq % 2 ^ 32)]) ∧
  (∀ (s : State) (client : Option (BitVec 32)) (w : Fin 256) (v : BitVec 32), s.awake = true → Sparse.get 0 s.dic.windows w.val = 0x0F0038 → (s.rightsOf (match client with | some ip => .lantern ip.toNat 0 0 | none => .usdo)).testBit 3 = true →
      Does (.registerWindowAccess client w (some v)) s fun r => r.get DIC_JNL_SEL.seq = v.toNat ∧ r.sent = s.sent ∧ r.get DIC_JNL_NEXT.seq = (s.get DIC_JNL_NEXT.seq + 1) % 2 ^ 32) ∧
  (∀ (s : State) (ip : BitVec 32) (mac : BitVec 48) (target : BitVec 32), s.awake = true → s.bit DIC_CTRL.lan_en = true → target.toNat = s.get DIC_MGT_IP.ip →
      Does (.mgtArp ip mac target) s fun r => r.sent = s.sent ++ [.mgt (arpFrame mac.toNat s.mgtMac 2 target.toNat mac.toNat ip.toNat)]) ∧
  (∀ (s : State) (ip : BitVec 32) (mac : BitVec 48) (target : BitVec 32), s.awake = true → s.bit DIC_CTRL.lan_en = true → target.toNat ≠ s.get DIC_MGT_IP.ip →
      exec (.mgtArp ip mac target) s = .next (s.inc DIC_LAN_DROP_CNT.count)) ∧
  (∀ (s : State) (t : Nat) (mac : BitVec 48) (ip target : BitVec 32) (rest : List (BitVec 8)), s.awake = true → s.bit DIC_CTRL.lan_en = true → target.toNat = s.get DIC_MGT_IP.ip → (s.dic.echoSecond ≠ max s.now t / 10 ^ 15 ∨ s.dic.echoes < 100) →
      Does (.mgtIcmpEcho t mac ip target rest) s fun r => r.dic.echoes = (if s.dic.echoSecond = max s.now t / 10 ^ 15 then s.dic.echoes else 0) + 1 ∧ ∃ b, r.sent = s.sent ++ [.mgt b] ∧ b.drop 38 = rest) ∧
  (∀ (s : State) (t : Nat) (mac : BitVec 48) (ip target : BitVec 32) (rest : List (BitVec 8)), s.awake = true → s.bit DIC_CTRL.lan_en = true → s.dic.echoSecond = max s.now t / 10 ^ 15 → 100 ≤ s.dic.echoes →
      Does (.mgtIcmpEcho t mac ip target rest) s fun r => r.sent = s.sent ∧ r.get DIC_LAN_DROP_CNT.count = min (2 ^ 32 - 1) (s.get DIC_LAN_DROP_CNT.count + 1)) ∧
  (∀ (s : State) (locked : Bool), s.awake = true →
      exec (.mgtBlockLock locked) s = .next (s.put DIC_STATUS.mgt_link (if locked then 1 else 0))) ∧
  (∀ (s : State) (e : JnlEntry) (l : List JnlEntry), stands s = true → s.unmirrored = e :: l →
      Does (.journalMirror true) s fun r => r.flash = s.flash.program (0x1800000 + 40 * (e.seq % 65536)) e.bytes ∧ r.get DIC_JNL_MIRROR.seq = (e.seq + 1) % 2 ^ 32 ∧ r.get DIC_STATUS.mirror_ok = 1) ∧
  (∀ (s : State), stands s = true → s.unmirrored ≠ [] →
      Does (.journalMirror false) s fun r => r.flash = s.flash ∧ r.get DIC_STATUS.mirror_ok = 0 ∧ r.get DIC_ERR.mirror_fail = 1 ∧ r.get BOT_ERR.flash_fail = 1)

/-- Temperatures, triggers of a replanning, the steps of one, and what Tarnish keeps. -/
def Obligations.TarnishPlans : Prop :=
  (∀ (s : State) (t : Nat) (temps : List Int) (lows : List Nat) (h0 h1 : BitVec 8), s.awake = true →
      Does (.tempSample t temps lows h0 h1) s fun r => r.get HBM_TEMP.stack0 = h0.toNat ∧ r.get HBM_TEMP.stack1 = h1.toNat ∧ ∀ i < 16, i < temps.length → (r.tarIsl i).temp = temps.getD i 0 ∧ r.get TAR_ISL_TEMP.now i = ofInt 12 (temps.getD i 0)) ∧
  (∀ (s : State) (t : Nat) (temps : List Int) (lows : List Nat) (h0 h1 : BitVec 8) (l : List Int), s.awake = true → s.bit TAR_CTRL.enable = true → s.tar.tmax = some l → (∃ i, i < 16 ∧ i < temps.length ∧ 8 * l.getD i 0 < temps.getD i 0) →
      Does (.tempSample t temps lows h0 h1) s fun r => r.tar.due.testBit 2 = true) ∧
  (∀ (s : State) (i : Fin 16), s.awake = true → s.bit TAR_CTRL.enable = true → 8 * s.get TAR_TEMP.trig < ((s.tarIsl i.val).temp - (s.tarIsl i.val).tempPlan).natAbs →
      Does (.tempShiftHeld i) s fun r => r.tar.due = s.tar.due ||| 2 ^ 3 ∧ (s.bit TAR_STATUS.busy = true → r.get TAR_STATUS.pending = 1)) ∧
  (∀ (s : State) (i : Fin 16), s.awake = true → ((s.tarIsl i.val).temp - (s.tarIsl i.val).tempPlan).natAbs ≤ 8 * s.get TAR_TEMP.trig →
      exec (.tempShiftHeld i) s = .next (s)) ∧
  (∀ (s : State) (t low : Nat) (h0 h1 : BitVec 8), s.awake = true → (s.tarIsl 0).window = none →
      Does (.tempSample t [] [low] h0 h1) s fun r => (r.tarIsl 0).window = some { index := (max s.now t - 1) / (10 ^ 13), low := low, deep := s.get TAR_AVS.set_mv - low }) ∧
  (∀ (s : State), s.awake = true → s.bit TAR_CTRL.enable = true →
      Does (.replanIntervalExpiry) s fun r => r.tar.due = s.tar.due ||| 2 ^ 1 ∧ (s.bit TAR_STATUS.busy = true → r.get TAR_STATUS.pending = 1)) ∧
  (∀ (s : State), s.awake = true → s.bit TAR_CTRL.enable = true →
      Does (.replan) s fun r => r.tar.due = s.tar.due ||| 2 ^ 7 ∧ (s.bit TAR_STATUS.busy = true → r.get TAR_STATUS.pending = 1)) ∧
  (∀ (s : State), s.awake = true → s.bit TAR_CTRL.enable = false →
      exec (.replan) s = .next (s)) ∧
  (∀ (s : State), s.awake = true → s.bit TAR_CTRL.enable = true → s.tar.phase = .idle → s.tar.due ≠ 0 →
      Does (.replanningStart) s fun r => r.tar.phase = .sampling ∧ r.tar.due = 0 ∧ r.get TAR_STATUS.busy = 1 ∧ r.get TAR_STATUS.pending = 0 ∧ (∀ c < 9, s.tar.due.testBit c = true → (∀ b < c, s.tar.due.testBit b = false) → r.get TAR_STATUS.last_trigger = c)) ∧
  (∀ (s : State) (t : Nat) (reads : List SensorRead), s.awake = true → s.tar.phase = .sampling →
      Does (.sensorsSampled t reads) s fun r => r.tar.ins.length = 16 ∧ r.tar.vNow = s.get TAR_AVS.set_mv ∧ r.tar.plan.isSome = true ∧ (r.tar.phase = .raising ∨ r.tar.phase = .proposed)) ∧
  (∀ (s : State) (t : Nat) (x : SensorRead), s.awake = true → s.tar.phase = .sampling → executing (s.islState x.island.val) = true →
      Does (.sensorsSampled t [x]) s fun r => r.get TAR_ISL_SLACK.meas x.island.val = 50 * x.taps.val ∧ r.get TAR_ISL_RO.shift_ppm x.island.val = ofInt 16 x.shift) ∧
  (∀ (s : State) (means : List Nat) (p : Plan), s.awake = true → s.tar.phase = .raising → s.tar.plan = some p → (∀ i < 16, means.getD i 0 ≤ p.voltage + 10 ∧ p.voltage ≤ means.getD i 0 + 10) →
      Does (.avsComplete means) s fun r => r.get TAR_AVS.set_mv = p.voltage % 1024 ∧ r.tar.phase = .settling) ∧
  (∀ (s : State) (means : List Nat) (p : Plan), s.awake = true → s.tar.phase = .raising → s.tar.plan = some p → (¬ ∀ i < 16, means.getD i 0 ≤ p.voltage + 10 ∧ p.voltage ≤ means.getD i 0 + 10) →
      Does (.avsComplete means) s fun r => r.get TAR_AVS.set_mv = p.voltage % 1024 ∧ r.tar.phase = .raising) ∧
  (∀ (s : State) (means : List Nat) (p : Plan), s.awake = true → s.tar.phase = .lowering → s.tar.plan = some p →
      Does (.avsComplete means) s fun r => r.get TAR_AVS.set_mv = p.voltage % 1024 ∧ r.tar.phase = .idle ∧ r.tar.plan = none ∧ r.get TAR_STATUS.busy = 0 ∧ r.get TAR_REPLAN_CNT.count = min (2 ^ 32 - 1) (s.get TAR_REPLAN_CNT.count + 1)) ∧
  (∀ (s : State), s.awake = true → s.tar.phase = .settling → s.tar.plan.isSome = true →
      Does (.avsSettleExpiry) s fun r => r.tar.phase = .proposed ∧ r.tar.plan = s.tar.plan ∧ r.get SEQ_ADM_STATUS.busy = 1) ∧
  (∀ (s : State), s.awake = true → (s.tar.phase = .raising ∨ s.tar.phase = .lowering) →
      Does (.avsFail) s fun r => r.tar.phase = .idle ∧ r.tar.plan = none ∧ r.get TAR_STATUS.busy = 0 ∧ r.get TAR_STATUS.pending = 1 ∧ r.get TAR_ERR.avs_fail = 1) ∧
  (∀ (s : State) (i : Fin 16), s.awake = true →
      Does (.unretire i) s fun r => ∀ j < 16, (r.get TAR_STATUS.retired).testBit j = (decide (j ≠ i.val) && (s.get TAR_STATUS.retired).testBit j)) ∧
  (∀ (s : State) (t : Nat), s.awake = true →
      Does (.historyPoint t) s fun r => ∀ i < 16, (s.tarIsl i).norm.isSome = true → ((r.tarIsl i).hist.head?).map (fun p => p.norm) = (s.tarIsl i).norm ∧ ((r.tarIsl i).hist.head?).map (fun p => p.time) = some (max s.now t) ∧ (r.tarIsl i).hist.tail = (s.tarIsl i).hist.take 255) ∧
  (∀ (s : State) (i : Fin 16), s.awake = true →
      Does (.penaltyDecay i) s fun r => r.get TAR_ISL_WARN.penalty i.val = (s.get TAR_ISL_WARN.penalty i.val - 5) % 256)

/-- The ledger: its tick, points and their reports, hits, selection and mirror. The places of the ledger's copies in the
flash are the model's choice (log entry 122). -/
def Obligations.FarSideLedger : Prop :=
  (∀ (s : State) (t : Nat), s.awake = true → s.bit LED_CTRL.enable = true →
      Does (.ledgerTick t) s fun r => r.get LED_CLOCK.s = (s.get LED_CLOCK.s + 1) % 2 ^ 32 ∧ r.ledIn = [] ∧ r.led.missed = []) ∧
  (∀ (s : State) (t : Nat), s.awake = true → s.bit LED_CTRL.enable = false →
      exec (.ledgerTick t) s = .next (s)) ∧
  (∀ (s : State) (t k : Nat) (x : LedRec), s.awake = true → s.bit LED_CTRL.enable = true → s.ledIn = [] → s.led.recs = [(k, x)] → (2 ≤ x.state ∧ x.state ≤ 4) → x.present = true → x.emptied = false →
      Does (.ledgerTick t) s fun r => (r.ledRec k).rawS = min 0xFFFFFFFF (x.rawS + 1) ∧ (r.ledRec k).effS = min 0xFFFFFFFF (x.effS + (x.q + s.tempWeight x) / 256) ∧ (r.ledRec k).q = (x.q + s.tempWeight x) % 256) ∧
  (∀ (s : State) (k : Fin 1024), s.awake = true → (s.ledRec k.val).state = 1 → (s.ledRec k.val).probLeft = 0 → (s.ledRec k.val).exitPosted = false → s.led.queue.length < 16 →
      Does (.probationExpiry k) s fun r => r.led.queue = s.led.queue ++ [(k.val, 3)] ∧ r.get LED_STATUS.actq = s.led.queue.length + 1 ∧ (r.ledRec k.val).exitPosted = true) ∧
  (∀ (s : State) (k : Fin 1024), s.awake = true → (s.ledRec k.val).state = 1 → (s.ledRec k.val).probLeft = 0 → (s.ledRec k.val).exitPosted = false → 16 ≤ s.led.queue.length →
      Does (.probationExpiry k) s fun r => r.led.queue = s.led.queue ∧ r.led.held = s.led.held ++ [(k.val, 3)] ∧ r.get LED_ERR.actq_full = 1) ∧
  (∀ (s : State) (ini : Fin 41) (hi : BitVec 32) (k : Nat), s.awake = true → s.laneRecord (Sparse.get 0 s.led.hitLane ini.val) = some k →
      Does (.hitAdd ini hi) s fun r => (r.ledRec k).hits = min (2 ^ 64 - 1) ((s.ledRec k).hits + (Sparse.get 0 s.led.hitLow ini.val + 2 ^ 32 * hi.toNat))) ∧
  (∀ (s : State) (ini : Fin 41) (hi : BitVec 32), s.awake = true → s.laneRecord (Sparse.get 0 s.led.hitLane ini.val) = none →
      Does (.hitAdd ini hi) s fun r => r.led = s.led ∧ r.get LED_ERR.orphan = 1 ∧ r.get LED_ORPHAN_CNT.count = min (2 ^ 32 - 1) (s.get LED_ORPHAN_CNT.count + 1)) ∧
  (∀ (s : State) (ini : Fin 41) (k p : Nat) (l : List (Nat × Nat)), s.awake = true → s.led.queue = (k, p) :: l → k < 4096 → p < 8 →
      Does (.actqRead ini) s fun r => r.led.queue = l ∧ r.get LED_STATUS.actq = l.length % 32 ∧ r.sent = s.sent ++ [.value (k + 4096 * p + 2 ^ 31)]) ∧
  (∀ (s : State) (k : Fin 4096), s.awake = true → (s.ledRec k.val).state = 1 → (s.ledRec k.val).exitPosted = true →
      Does (.actqDone k 3 false) s fun r => (r.ledRec k.val).exitDone = true) ∧
  (∀ (s : State) (k : Fin 4096) (p : Fin 8), s.awake = true →
      Does (.actqDone k p true) s fun r => r.get LED_ERR.action_fail = 1 ∧ (r.ledRec k.val).exitDone = (s.ledRec k.val).exitDone) ∧
  (∀ (s : State) (k : Fin 1024) (p : Fin 4) (lane : Fin 224) (seq : Fin 256), s.awake = true → s.led.work.find? (fun w => w.record == k.val && w.point == p.val) = none →
      exec (.ledgerAction k p lane seq) s = .next (s)) ∧
  (∀ (s : State) (k : Fin 1024) (lane : Fin 224) (seq : Fin 256) (w : LedWork), s.awake = true → s.led.work = [w] → w.record = k.val → w.point = 1 → w.started = false → s.get LED_ACT.warn_act = 8 → (s.recLanes k.val).contains lane.val = true → s.bit FLN_DL_WORDS.slow_ok lane.val = true → s.bit FLN_SC_STATUS.tx_pending lane.val = false →
      Does (.ledgerAction k 1 lane seq) s fun r => r.led.work = [{ w with started := true, sends := [{ point := 1, attempts := 1, lane := lane.val, seq := seq.val, waits := true }] }] ∧ r.get FLN_SC_STATUS.tx_pending lane.val = 1 ∧ leAt (((List.range 3).map fun i => leBytes 4 (r.get FLN_SC_TX_BUF.bytes lane.val i)).flatten) 2 1 = seq.val) ∧
  (∀ (s : State) (k : Fin 1024) (lane : Fin 224) (seq : Fin 256) (w : LedWork) (x : LedSend), s.awake = true → s.led.work = [w] → w.record = k.val → w.point = 1 → w.started = true → w.sends = [x] → x.acked = false → x.failed = false → x.waits = true → s.bit FLN_SC_ACK.new x.lane = true → s.get FLN_SC_ACK.seq x.lane = x.seq → (s.get FLN_SC_ACK.status x.lane = 0 ∨ 3 ≤ x.attempts) →
      Does (.ledgerAction k 1 lane seq) s fun r => r.led.work = [{ w with sends := [{ x with waits := false, acked := s.get FLN_SC_ACK.status x.lane == 0, failed := s.get FLN_SC_ACK.status x.lane != 0 && decide (3 ≤ x.attempts) }] }] ∧ r.get FLN_SC_ACK.new x.lane = 0) ∧
  (∀ (s : State) (k : Fin 1024), s.awake = true →
      Does (.forget k) s fun r => (r.ledRec k.val).forget = decide ((s.ledRec k.val).state = 5 ∨ (s.ledRec k.val).state = 6)) ∧
  (∀ (s : State) (k : Fin 1024), s.awake = true →
      Does (.ledgerSelect k) s fun r => r.get LED_SEL.record = k.val ∧ ∀ i < 16, r.get LED_REC.image i = leAt (s.recImage k.val) (4 * i) 4) ∧
  (∀ (s : State), stands s = true → (∀ e ∈ s.led.recs, e.1 < 1024) → (∀ e ∈ s.led.laneRec, e.1 < 256) →
      Does (.ledgerMirror true) s fun r => r.get LED_STATUS.mirror_ok = 1 ∧ ∀ c < 2, (r.flash.read (0x1B10200 + 0x20000 * c) 4 = leBytes 4 (s.get LED_CLOCK.s) ∧ ∀ e ∈ s.led.recs, r.flash.read (0x1B00000 + 0x20000 * c + 64 * e.1) 64 = s.recImage e.1)) ∧
  (∀ (s : State), stands s = true →
      Does (.ledgerMirror false) s fun r => r.flash = s.flash ∧ r.get LED_STATUS.mirror_ok = 0 ∧ r.get LED_ERR.mirror_fail = 1 ∧ r.get BOT_ERR.flash_fail = 1)

/-- Doze, the Eclipse entry, its exit by each wake source, and Dusk. -/
def Obligations.PowerStates : Prop :=
  (∀ (s : State), stands s = true → s.powerState = 0 →
      exec (.doze) s = .next ({ s with pwr := { s.pwr with mode := some 1 } })) ∧
  (∀ (s : State), stands s = true → s.powerState ≠ 0 →
      exec (.doze) s = .next (s.err PWR_ERR.cmd_refused)) ∧
  (∀ (s : State) (keeper : Bool), stands s = true → s.powerState = 1 →
      exec (.run keeper) s = .next ({ s with pwr := { s.pwr with mode := some 0 } })) ∧
  (∀ (s : State), stands s = true → s.powerState = 2 →
      Does (.run true) s fun r => r.powerState = 0 ∧ r.awake = true) ∧
  (∀ (s : State), stands s = true → s.powerState = 2 →
      exec (.run false) s = .next (s.err PWR_ERR.cmd_refused)) ∧
  (∀ (s : State), stands s = true → s.powerState ≤ 1 →
      Does (.eclipse) s fun r => r.powerState = 3 ∧ r.pwr.step = 1 ∧ r.pwr.left = s.powerState ∧ r.get PWR_STATUS.committed = 0) ∧
  (∀ (s : State), stands s = true → s.powerState ≤ 1 →
      Does (.dusk) s fun r => r.powerState = 5 ∧ r.pwr.step = 1 ∧ r.pwr.left = s.powerState ∧ r.get PWR_STATUS.committed = 0) ∧
  (∀ (s : State), stands s = true → s.powerState = 2 →
      Does (.dusk) s fun r => r.powerState = 5 ∧ r.pwr.step = 5 ∧ r.get PWR_STATUS.committed = 1) ∧
  (∀ (s : State), stands s = true → s.powerEntering = true → s.gno.due.contains .power = false →
      Does (.powerAbort) s fun r => r.powerState = s.pwr.left % 8 ∧ r.pwr.step = 0 ∧ r.get PWR_ERR.aborted = 1) ∧
  (∀ (s : State), stands s = true → s.powerEntering = false → s.pwr.past = true →
      exec (.powerAbort) s = .next (s.err PWR_ERR.abort_too_late)) ∧
  (∀ (s : State), stands s = true → s.isDue .power = true →
      Does (.eclipseCommit) s fun r => r.get PWR_STATUS.committed = 1 ∧ r.pwr.step = 2 ∧ r.get GNO_STATUS.state = 0 ∧ r.gno.due.contains .power = false) ∧
  (∀ (s : State), stands s = true → s.pwr.step = 2 →
      Does (.eclipseDrainExpiry) s fun r => r.rdo.events = [] ∧ r.pwr.step = 3 ∧ ∀ u < 16, (r.get PWR_THR_RESTART.threads).testBit u = (s.thState u != 0)) ∧
  (∀ (s : State), stands s = true → s.pwr.step = 3 → s.powerState = 3 →
      Does (.eclipseGraceExpiry) s fun r => r.powerState = 2 ∧ r.get PWR_STATUS.committed = 0 ∧ r.pwr.step = 0 ∧ (∀ i < 16, r.islState i = 0) ∧ ∀ k < 2, r.stack k = (if s.stack k = 2 then 3 else s.stack k)) ∧
  (∀ (s : State), stands s = true → s.powerState = 5 → s.pwr.step = 5 →
      Does (.duskMirrorDone) s fun r => r.powerState = 6 ∧ (∀ c < 2, r.flash.read (0x1B10200 + 0x20000 * c) 4 = leBytes 4 (s.get LED_CLOCK.s)) ∧ r.flash.history.isSome = true ∧ r.thState 16 = 0) ∧
  (∀ (s : State) (index : Fin 65536) (sub : Fin 256) (op : UsdoOp), stands s = true → s.bit DIC_CTRL.can_en = true → s.wakes 0 = true →
      Does (.wakeCan (.usdo index sub op)) s fun r => r.powerState = 0 ∧ (r.get PWR_WAKE_SRC.src).testBit 0 = true) ∧
  (∀ (s : State), stands s = true → s.bit DIC_CTRL.can_en = true → s.wakes 0 = true →
      Does (.wakeCan (.nmt .stop)) s fun r => r.powerState = 0 ∧ r.nmtState = (if s.nmtState = 127 ∨ s.nmtState = 5 then 4 else s.nmtState)) ∧
  (∀ (s : State) (frame : CanFrame), stands s = true → s.wakes 0 = false →
      exec (.wakeCan frame) s = .next (s)) ∧
  (∀ (s : State), stands s = true → s.wakes 1 = true →
      Does (.wakeTiming) s fun r => r.powerState = 0 ∧ (r.get PWR_WAKE_SRC.src).testBit 1 = true) ∧
  (∀ (s : State), stands s = true → s.wakes 2 = true → (s.ring.held.any fun p => p.ini == 16 && !alwaysOnStop p.dst) = true →
      Does (.wakeRing) s fun r => r.powerState = 0 ∧ (r.get PWR_WAKE_SRC.src).testBit 2 = true ∧ r.get RNG_WAKE_CNT.count = min (2 ^ 32 - 1) (s.get RNG_WAKE_CNT.count + 1)) ∧
  (∀ (s : State) (p : Pkt), stands s = true → s.powerState = 2 → s.wakes 2 = false → s.ring.held = [p] → p.ini = 16 → alwaysOnStop p.dst = false →
      Does (.wakeRing) s fun r => r.ring.held = [] ∧ r.powerState = 2) ∧
  (∀ (s : State), stands s = true → s.bit CPU_THR_TMR_STAT.running 4 0 = true → s.wakes 3 = true →
      Does (.wakeTimer) s fun r => r.powerState = 0 ∧ (r.get PWR_WAKE_SRC.src).testBit 3 = true)

/-- Device, pin, power-on and unit resets, supply losses and the thermal trip: what each resets and what stays. That a
loss of PWRGD with VDD_AON in range counts as Off for the Dawn that follows is the model's choice (log entry 186).
What memory reads as after a reset, and what the reset of a unit leaves of its registers, are the model's choices (log
entry 5, log entry 119). -/
def Obligations.Resets : Prop :=
  (∀ (s : State), stands s = true →
      Does (.devReset) s fun r => r.pwr.dawnReady = true ∧ r.powerState = 0 ∧ r.mem = [] ∧ r.erq.entries = s.erq.entries ∧ r.led.recs = ((s.led.recs.map fun e => (e.1, e.2.kept)).filter fun e => e.2 != {}) ∧ (s.dic.usdo = none → s.dic.reqs = [] → r.dic.journal = s.dic.journal) ∧ r.pending = s.pending ∧ r.flash = s.flash ∧ r.sent = s.sent) ∧
  (∀ (s : State), 
      Does (.pinReset) s fun r => r.awake = true ∧ r.pwr.dawnReady = true ∧ r.mem = [] ∧ r.bit BOT_STATUS.dawn_done = false ∧ r.erq.entries = s.erq.entries ∧ r.led.recs = ((s.led.recs.map fun e => (e.1, e.2.kept)).filter fun e => e.2 != {}) ∧ (s.dic.usdo = none → s.dic.reqs = [] → r.dic.journal = s.dic.journal) ∧ r.pending = s.pending ∧ r.flash = s.flash ∧ r.sent = s.sent) ∧
  (∀ (s : State) (board : List (Nat × List (BitVec 8))), 
      Does (.powerOnReset board) s fun r => r.awake = true ∧ r.pwr.dawnReady = true ∧ r.pwr.lost = true ∧ r.erq.entries = [] ∧ r.led.recs = [] ∧ r.dic.journal = [] ∧ r.flash = board.foldl (fun f e => f.program e.1 e.2) s.flash) ∧
  (∀ (s : State), 
      Does (.pwrgdLoss true) s fun r => r.pwr.held = true ∧ r.pwr.pwrgd = false ∧ r.pwr.dawnReady = false ∧ r.pwr.lossFlag = true ∧ r.erq.entries = s.erq.entries ∧ r.led.recs = ((s.led.recs.map fun e => (e.1, e.2.kept)).filter fun e => e.2 != {}) ∧ (s.dic.usdo = none → s.dic.reqs = [] → r.dic.journal = s.dic.journal) ∧ r.pending = s.pending ∧ r.flash = s.flash ∧ r.sent = s.sent) ∧
  (∀ (s : State), 
      Does (.pwrgdLoss false) s fun r => r.pwr.held = true ∧ r.pwr.off = true ∧ r.pwr.dawnReady = false ∧ r.pwr.lost = true ∧ r.erq.entries = []) ∧
  (∀ (s : State) (core : Bool), s.pwr.pwrgd = false →
      exec (.brownout core) s = .next (s)) ∧
  (∀ (s : State) (core : Bool), s.pwr.pwrgd = true →
      Does (.brownout core) s fun r => r.pwr.held = true ∧ r.get SYS_SUPPLY.core_ok = (if core then 0 else 1) ∧ r.get SYS_SUPPLY.sram_ok = (if core then 1 else 0) ∧ r.get SYS_ERR.brownout = 1 ∧ r.get SYS_BROWNOUT_CNT.count = min (2 ^ 32 - 1) (s.get SYS_BROWNOUT_CNT.count + 1)) ∧
  (∀ (s : State), s.pwr.pwrgd = true →
      Does (.aonBrownout) s fun r => r.awake = true ∧ r.pwr.lost = true ∧ r.pwr.dawnReady = true ∧ r.erq.entries = [] ∧ r.flash = s.flash) ∧
  (∀ (s : State), 
      Does (.thermalTrip) s fun r => r.pwr.gated = true ∧ r.pwr.thermtrip = true ∧ r.pwr.held = s.pwr.held ∧ r.th 16 = s.th 16 ∧ r.powerState = s.powerState ∧ r.awake = false ∧ r.pwr.dawnReady = false ∧ r.get SYS_TRIP.tripped = 1 ∧ r.get SYS_ERR.thermtrip = 1 ∧ r.get BCN_STATUS.busy = 1 ∧ r.erq.entries = s.erq.entries ∧ r.flash = s.flash) ∧
  (∀ (s : State), stands s = true →
      exec (.kick) s = .next ({ s with pwr := { s.pwr with kickAt := s.now } })) ∧
  (∀ (s : State) (t : Nat), stands s = true → (s.get PWR_WDOG.ms = 0 ∨ max s.now t < s.pwr.kickAt + s.get PWR_WDOG.ms * 10 ^ 12) →
      exec (.watchdogExpiry t) s = .next (s.at t)) ∧
  (∀ (s : State) (t : Nat), stands s = true → s.get PWR_WDOG.ms ≠ 0 → s.pwr.kickAt + s.get PWR_WDOG.ms * 10 ^ 12 ≤ max s.now t →
      Does (.watchdogExpiry t) s fun r => r.get PWR_ERR.wdog = 1 ∧ r.get BOT_KEEPER_RST_CNT.count = min (2 ^ 32 - 1) (s.get BOT_KEEPER_RST_CNT.count + 1)) ∧
  (∀ (s : State) (c : Fin 4), s.awake = true →
      Does (.coreReset c) s fun r => r.thState (4 * c.val) = 1 ∧ r.thState (4 * c.val + 1) = 0 ∧ r.thState (4 * c.val + 2) = 0 ∧ r.thState (4 * c.val + 3) = 0 ∧ r.mem = s.mem) ∧
  (∀ (s : State) (g : Fin 2), s.awake = true →
      Does (.dmaGroupReset g) s fun r => (∀ k < 8, r.get RNG_INI_STATUS.epoch (18 + 8 * g.val + k) = (s.get RNG_INI_STATUS.epoch (18 + 8 * g.val + k) + 1) % 16) ∧ ∀ k < 8, r.get RNG_DMA_STATUS.state (8 * g.val + k) = 0) ∧
  (∀ (s : State), s.awake = true →
      Does (.edgeFabricReset) s fun r => r.edge.facets = [] ∧ r.get EDG_CFG_PORT.busy = 0 ∧ ∀ f < 57, r.facetState f = 0) ∧
  (∀ (s : State), s.awake = true →
      Does (.gnomonReset) s fun r => (fieldsGNO.all fun x => (List.range 32).all fun i => r.get x i == State.reset.get x i) = true ∧ r.gno.tags = [] ∧ r.gno.nextSerial = 0 ∧ r.gno.event = 0 ∧ r.gno.orbit = 0 ∧ r.gno.words = [] ∧ r.gno.segs = [] ∧ r.gno.accepts = [] ∧ (s.hasTimeline = true → r.gno.named.all (fun n => n.owner = .plan ∨ n.owner = .power) = true)) ∧
  (∀ (s : State), s.awake = true →
      Does (.worgaReset) s fun r => ∀ j : Fin 12, r.linkState (.data j) = 0) ∧
  (∀ (s : State), s.awake = true →
      Does (.readoutReset) s fun r => r.rdo.events = [] ∧ ∀ k < 16, r.get RDO_PORT_STATUS.state k = 0)

/-- Dawn where it stops in the boot ROM, the retention scrub, the storing of a configuration and the vendor update. That a
stored image has its CRC computed again, slot 0 where none is valid, the code of an image above 8 MiB, how the images
of a bundle follow each other and the indices of its directory are the model's readings and not the spec's words (log
entry 123, UNVERIFIED, and log entry 124). -/
def Obligations.BootAndStore : Prop :=
  (∀ (s : State) (t us : Nat) (mode : Fin 8) (flash : Option Sfdp) (ok0 ok1 : Bool), s.pwr.dawnReady = false →
      exec (.dawn t us mode flash ok0 ok1) s = .next (s)) ∧
  (∀ (s : State) (t us : Nat) (flash : Option Sfdp) (ok0 ok1 : Bool), s.pwr.dawnReady = true →
      Does (.dawn t us 3 flash ok0 ok1) s fun r => r.pwr.dawnReady = false ∧ r.get BOT_STATUS.step = 1 ∧ r.get BOT_STATUS.err = 0 ∧ r.get BCN_STATUS.busy = 1 ∧ r.now = max s.now t ∧ r.get BOT_STATUS.bootmode = 3) ∧
  (∀ (s : State) (t us : Nat) (mode : Fin 8) (flash : Option Sfdp) (ok0 ok1 : Bool), s.pwr.dawnReady = true → 5 ≤ mode.val →
      Does (.dawn t us mode flash ok0 ok1) s fun r => r.pwr.dawnReady = false ∧ r.get BOT_STATUS.step = 1 ∧ r.get BOT_STATUS.err = 1 ∧ r.get BCN_STATUS.busy = 1 ∧ r.now = max s.now t ∧ r.get BOT_STATUS.bootmode = mode.val) ∧
  (∀ (s : State) (t us : Nat) (mode : Fin 8) (ok0 ok1 : Bool), s.pwr.dawnReady = true → mode.val ≤ 2 →
      Does (.dawn t us mode none ok0 ok1) s fun r => r.pwr.dawnReady = false ∧ r.get BOT_STATUS.step = 1 ∧ r.get BOT_STATUS.err = 2 ∧ r.get BCN_STATUS.busy = 1 ∧ r.now = max s.now t) ∧
  (∀ (s : State) (t us : Nat) (mode : Fin 8) (x : Sfdp) (ok0 ok1 : Bool), s.pwr.dawnReady = true → mode.val ≤ 2 → (fastRead x).isSome = true → x.density < 25 →
      Does (.dawn t us mode (some x) ok0 ok1) s fun r => r.pwr.dawnReady = false ∧ r.get BOT_STATUS.step = 1 ∧ r.get BOT_STATUS.err = 3 ∧ r.get BCN_STATUS.busy = 1 ∧ r.now = max s.now t) ∧
  (∀ (s : State) (t us : Nat) (mode : Fin 8) (x : Sfdp) (ok0 ok1 : Bool), s.pwr.dawnReady = true → mode.val ≤ 2 → x.read144 = none → x.read114 = none →
      Does (.dawn t us mode (some x) ok0 ok1) s fun r => r.pwr.dawnReady = false ∧ r.get BOT_STATUS.step = 1 ∧ r.get BOT_STATUS.err = 2 ∧ r.get BCN_STATUS.busy = 1 ∧ r.now = max s.now t) ∧
  (∀ (s : State) (t us : Nat) (flash : Option Sfdp) (ok0 ok1 : Bool), s.pwr.dawnReady = true →
      Does (.dawn t us 4 flash ok0 ok1) s fun r => r.pwr.held = true ∧ r.pwr.dawnReady = false ∧ r.get BOT_STATUS.bootmode = 4) ∧
  (∀ (s : State) (t us : Nat) (mode : Fin 8) (x : Sfdp) (ok0 ok1 : Bool), s.pwr.dawnReady = true → mode.val ≤ 2 → (fastRead x).isSome = true → 25 ≤ x.density →
      Does (.dawn t us mode (some x) ok0 ok1) s fun r => (if (s.directory 0).isNone = true ∧ (s.directory 1).isNone = true then r.get BOT_STATUS.step = 1 ∧ r.get BOT_STATUS.err = 4 ∧ r.get BOT_FLASH.density = x.density % 256
       else if (s.bootImage mode.val 1 0).2 = none then r.get BOT_STATUS.step = 1 ∧ r.get BOT_STATUS.err = 5
       else r.get BOT_DAWN_US.us = us % 2 ^ 32)) ∧
  (∀ (s : State) (t us : Nat) (x : Sfdp) (ok0 ok1 : Bool), s.pwr.dawnReady = true → (fastRead x).isSome = true → 25 ≤ x.density → s.dic.defaults = [] →
      Does (.dawn t us 2 (some x) ok0 ok1) s fun r => (if (s.directory 0).isNone = true ∧ (s.directory 1).isNone = true then r.get BOT_STATUS.step = 1 ∧ r.get BOT_STATUS.err = 4 ∧ r.get BOT_FLASH.density = x.density % 256
       else if (s.bootImage 2 1 0).2 = none then r.get BOT_STATUS.step = 1 ∧ r.get BOT_STATUS.err = 5
       else r.get BOT_DAWN_US.us = us % 2 ^ 32 ∧
         (if (s.coreImages 2).2.any (fun i => i.isNone) = true then r.get BOT_STATUS.step = 7 ∧ r.get BOT_STATUS.err = 6
          else r.get BOT_STATUS.step = 10 ∧ r.get BOT_STATUS.dawn_done = 1))) ∧
  (∀ (s : State) (region : Fin 5), stands s = true →
      Does (.retentionScrub region .uncorrectable) s fun r => r.pwr.invalid.testBit region.val = true ∧ r.get PWR_ERR.ret_uncorrectable = 1 ∧ r.get PWR_RET_UNCORR_CNT.count = min (2 ^ 32 - 1) (s.get PWR_RET_UNCORR_CNT.count + 1)) ∧
  (∀ (s : State) (region : Fin 5), stands s = true →
      Does (.retentionScrub region .corrected) s fun r => r.pwr = s.pwr ∧ r.get PWR_ERR.ret_corrected = 1 ∧ r.get PWR_RET_CORR_CNT.count = min (2 ^ 32 - 1) (s.get PWR_RET_CORR_CNT.count + 1)) ∧
  (∀ (s : State) (img : List (BitVec 8)), stands s = true → s.pwr.store = some img → s.storeCheck img = 0 →
      Does (.configStore .done) s fun r => r.pwr.store = none ∧ r.get BOT_STORE_ERR.code = 0 ∧ r.flash.read (0x800000 + 0x800000 * (match s.dawnSlot with | some k => 1 - k | none => 0)) (160 + leAt img 8 4) = withGeneration (img.take (160 + leAt img 8 4)) (((match s.dawnSlot with | some k => s.slotGen k | none => 0) + 1) % 2 ^ 31) ∧ ∀ k, s.dawnSlot = some k → ∀ a, 0x800000 + 0x800000 * k ≤ a → a < 0x1000000 + 0x800000 * k → Sparse.get flashErased r.flash.bytes a = Sparse.get flashErased s.flash.bytes a) ∧
  (∀ (s : State) (run : FlashRun) (img : List (BitVec 8)), stands s = true → s.pwr.store = some img → s.storeCheck img ≠ 0 →
      Does (.configStore run) s fun r => r.pwr.store = none ∧ r.flash = s.flash ∧ r.get BOT_STORE_ERR.code = s.storeCheck img ∧ r.get BOT_ERR.store_fail = 1) ∧
  (∀ (s : State), stands s = true → s.pwr.store.isSome = true →
      Does (.configStoreAbort) s fun r => r.pwr.store = none ∧ r.flash = s.flash ∧ r.get BOT_STORE_ERR.code = 6) ∧
  (∀ (s : State) (b : List (BitVec 8)), stands s = true → s.pwr.bundle = some b →
      Does (.vendorUpdate .done) s fun r => r.pwr.bundle = none ∧ r.get BOT_STORE_ERR.code = bundleCode b ∧ (bundleCode b = 0 → r.flash.read 0x2000 b.length = b ∧ r.flash.read 0x400000 b.length = b ∧ r.flash.read 0 4096 = bundleDirectory ((bundleImages b.length b).getD []) 0x2000 ∧ r.flash.read 0x1000 4096 = bundleDirectory ((bundleImages b.length b).getD []) 0x400000) ∧ (bundleCode b ≠ 0 → r.flash = s.flash ∧ r.get BOT_ERR.store_fail = 1)) ∧
  (∀ (s : State) (run : FlashRun) (b : List (BitVec 8)), stands s = true → s.pwr.bundle = some b →
      Does (.vendorUpdate run) s fun r => r.pwr.bundle = none ∧ (bundleCode b ≠ 0 → r.flash = s.flash ∧ r.get BOT_STORE_ERR.code = bundleCode b ∧ r.get BOT_ERR.store_fail = 1) ∧ (bundleCode b = 0 → r.get BOT_STORE_ERR.code = (match run with | .done => 0 | .failed _ => 5)))

/-- The head of the error queue, the SMBus target, the test access port and the trace buffer. The cells of the boundary
register are the model's (log entry 188, PRESUMED). That the copy of a first read shows taken as 0 is the model's
choice (log entry 133). -/
def Obligations.ErrorQueueAndTap : Prop :=
  (∀ (s : State) (ini : Fin 41) (e : ErrEntry) (es : List ErrEntry), s.awake = true → s.erq.entries = e :: es →
      Does (.erqHeadRead ini) s fun r => r.erq.entries = { e with taken := true } :: es ∧ r.erq.hold = e.bytes ∧ r.get ERQ_STATUS.head_taken = 1 ∧ r.sent = s.sent ++ [.value (leAt e.bytes 0 4)]) ∧
  (∀ (s : State) (seq : BitVec 32) (e : ErrEntry) (es : List ErrEntry), s.awake = true → s.erq.entries = e :: es → e.taken = true → e.seq = seq.toNat →
      Does (.erqPop seq) s fun r => r.erq.entries = es ∧ r.get ERQ_STATUS.used = es.length % 512) ∧
  (∀ (s : State) (seq : BitVec 32) (e : ErrEntry) (es : List ErrEntry), s.awake = true → s.erq.entries = e :: es → (e.taken = false ∨ e.seq ≠ seq.toNat) →
      exec (.erqPop seq) s = .next (s.put ERQ_ERR.pop_refused 1)) ∧
  (∀ (s : State) (pec : Bool), s.pwr.held = false → s.bit SYS_SMB_CFG.enable = true → s.powerState ≠ 6 → (s.bit SYS_SMB_CFG.pec_req = false ∨ pec = true) →
      exec (.smbStatus pec) s = .next (s.emit (.smb (some ((s.get BOT_STATUS.dawn_done + 2 * s.get SYS_TRIP.tripped + 4 * s.get BCN_STATUS.busy + 8 * (s.powerState % 8) + 64 * b2n ((List.range 16).any fun i => s.bit TAR_ISL_WARN.urgent i)) % 65536)) (if pec then some (smbPec (s.get SYS_SMB_CFG.addr) 0 ((s.get BOT_STATUS.dawn_done + 2 * s.get SYS_TRIP.tripped + 4 * s.get BCN_STATUS.busy + 8 * (s.powerState % 8) + 64 * b2n ((List.range 16).any fun i => s.bit TAR_ISL_WARN.urgent i)) % 65536)) else none)))) ∧
  (∀ (s : State) (pec : Bool), s.pwr.held = false → s.bit SYS_SMB_CFG.enable = true → s.powerState ≠ 6 → (s.bit SYS_SMB_CFG.pec_req = false ∨ pec = true) → s.powerState ≠ 2 → (s.tar.islands.any fun e => !e.2.temps.isEmpty) = true →
      exec (.smbIslandTemp pec) s = .next (s.emit (.smb (some (ofInt 16 (s.getInt SYS_TEMP.island))) (if pec then some (smbPec (s.get SYS_SMB_CFG.addr) 1 (ofInt 16 (s.getInt SYS_TEMP.island))) else none)))) ∧
  (∀ (s : State) (pec : Bool), s.pwr.held = false → s.bit SYS_SMB_CFG.enable = true → s.powerState ≠ 6 → (s.bit SYS_SMB_CFG.pec_req = false ∨ pec = true) → (s.stack 0 = 2 ∨ s.stack 1 = 2) →
      exec (.smbHbmTemp pec) s = .next (s.emit (.smb (some (ofInt 16 (s.getInt SYS_TEMP.hbm))) (if pec then some (smbPec (s.get SYS_SMB_CFG.addr) 2 (ofInt 16 (s.getInt SYS_TEMP.hbm))) else none)))) ∧
  (∀ (s : State) (pec : Bool), s.pwr.held = false → s.bit SYS_SMB_CFG.enable = true → s.powerState ≠ 6 → (s.bit SYS_SMB_CFG.pec_req = false ∨ pec = true) →
      exec (.smbVout pec) s = .next (s.emit (.smb (some (s.get TAR_AVS.set_mv % 65536)) (if pec then some (smbPec (s.get SYS_SMB_CFG.addr) 3 (s.get TAR_AVS.set_mv % 65536)) else none)))) ∧
  (∀ (s : State) (pec : Bool), s.pwr.held = false → s.bit SYS_SMB_CFG.enable = true → s.powerState ≠ 6 → (s.bit SYS_SMB_CFG.pec_req = false ∨ pec = true) →
      exec (.smbErqUsed pec) s = .next (s.emit (.smb (some (s.get ERQ_STATUS.used % 65536)) (if pec then some (smbPec (s.get SYS_SMB_CFG.addr) 4 (s.get ERQ_STATUS.used % 65536)) else none)))) ∧
  (∀ (s : State) (pec : Bool), s.pwr.held = false → s.bit SYS_SMB_CFG.enable = true → s.powerState ≠ 6 → (s.bit SYS_SMB_CFG.pec_req = false ∨ pec = true) →
      exec (.smbStepping pec) s = .next (s.emit (.smb (some ((s.get SYS_STEPPING.number ||| s.get SYS_STEPPING.letter * 16) % 65536)) (if pec then some (smbPec (s.get SYS_SMB_CFG.addr) 5 ((s.get SYS_STEPPING.number ||| s.get SYS_STEPPING.letter * 16) % 65536)) else none)))) ∧
  (∀ (s : State) (pec : Bool), s.pwr.held = false → s.bit SYS_SMB_CFG.enable = true → s.powerState ≠ 6 → (s.bit SYS_SMB_CFG.pec_req = false ∨ pec = true) →
      exec (.smbId pec) s = .next (s.emit (.smb (some (((if Sys2Proof.Config.grade28 then 0x1C else 0x20) + 256 * b2n Sys2Proof.Config.gradeE) % 65536)) (if pec then some (smbPec (s.get SYS_SMB_CFG.addr) 6 (((if Sys2Proof.Config.grade28 then 0x1C else 0x20) + 256 * b2n Sys2Proof.Config.gradeE) % 65536)) else none)))) ∧
  (∀ (s : State), s.pwr.held = false → s.bit SYS_SMB_CFG.enable = true → s.powerState ≠ 6 → s.bit SYS_SMB_CFG.pec_req = true →
      exec (.smbVout false) s = .next ((s.err SYS_ERR.smb_pec).emit (.smb none none))) ∧
  (∀ (s : State), s.pwr.held = false → s.bit SYS_SMB_CFG.enable = true → s.powerState ≠ 6 →
      exec (.smbNack) s = .next ((s.emit (.smb none none)).err SYS_ERR.smb_nack)) ∧
  (∀ (s : State), 
      Does (.idcode) s fun r => r.tap.ir = 1 ∧ r.tap.dr = (s.get SYS_JTAG_ID.one ||| s.get SYS_JTAG_ID.maker * 2 ||| s.get SYS_JTAG_ID.part * 4096 ||| s.get SYS_JTAG_ID.version * 2 ^ 28) ∧ r.tap.pins = .functional ∧ r.csr = s.csr) ∧
  (∀ (s : State) (levels loaded : BitVec 895), 
      Does (.samplePreload levels loaded) s fun r => r.tap.ir = 2 ∧ (∀ k < 895, r.tap.dr.testBit k = (match boundaryCells[k]? with | some c => (s.updTap fun t => { t with pins := .functional }).cellCapture c (levels.getLsbD k) | none => false)) ∧ (∀ k < 895, (match boundaryCells[k]? with | some (.input _) => r.tap.dr.testBit k == levels.getLsbD k | _ => true) = true) ∧ r.tap.boundary = loaded.toNat ∧ r.tap.pins = .functional ∧ r.csr = s.csr) ∧
  (∀ (s : State) (levels loaded : BitVec 895), (s.get BOT_STATUS.bootmode = 3 ∨ s.get BOT_STATUS.bootmode = 4) →
      Does (.extest levels loaded) s fun r => r.tap.ir = 3 ∧ r.tap.pins = .extest ∧ r.tap.boundary = loaded.toNat ∧ (∀ k < 895, (match boundaryCells[k]? with | some (.input _) => r.tap.dr.testBit k == levels.getLsbD k | _ => true) = true) ∧ r.csr = s.csr) ∧
  (∀ (s : State) (levels loaded : BitVec 895), (s.get BOT_STATUS.bootmode = 3 ∨ s.get BOT_STATUS.bootmode = 4) →
      Does (.extestPulse levels loaded) s fun r => r.tap.ir = 6 ∧ r.tap.pins = .pulse ∧ r.tap.boundary = loaded.toNat ∧ (∀ k < 895, (match boundaryCells[k]? with | some (.input _) => r.tap.dr.testBit k == levels.getLsbD k | _ => true) = true) ∧ r.csr = s.csr) ∧
  (∀ (s : State) (levels loaded : BitVec 895), (s.get BOT_STATUS.bootmode = 3 ∨ s.get BOT_STATUS.bootmode = 4) →
      Does (.extestTrain levels loaded) s fun r => r.tap.ir = 7 ∧ r.tap.pins = .train ∧ r.tap.boundary = loaded.toNat ∧ (∀ k < 895, (match boundaryCells[k]? with | some (.input _) => r.tap.dr.testBit k == levels.getLsbD k | _ => true) = true) ∧ r.csr = s.csr) ∧
  (∀ (s : State), (s.get BOT_STATUS.bootmode = 3 ∨ s.get BOT_STATUS.bootmode = 4) →
      exec (.clamp) s = .next ({ s with tap := { s.tap with ir := 4, dr := 0, pins := .clamp } })) ∧
  (∀ (s : State), (s.get BOT_STATUS.bootmode = 3 ∨ s.get BOT_STATUS.bootmode = 4) →
      exec (.highz) s = .next ({ s with tap := { s.tap with ir := 5, dr := 0, pins := .highz } })) ∧
  (∀ (s : State) (levels loaded : BitVec 895), s.get BOT_STATUS.bootmode ≠ 3 → s.get BOT_STATUS.bootmode ≠ 4 →
      Does (.extest levels loaded) s fun r => r.tap.ir = 0xFF ∧ r.tap.dr = 0 ∧ r.tap.pins = .functional ∧ r.get DBG_ERR.ic_refused = 1) ∧
  (∀ (s : State), 
      exec (.bypass) s = .next ({ s with tap := { s.tap with ir := 0xFF, dr := 0, pins := .functional } })) ∧
  (∀ (s : State) (write : Bool) (addr : Fin 0x10000000000) (data : BitVec 32), s.tap.busy = false → s.bit DBG_CTRL.tap_mem_en = true → s.get BOT_STATUS.bootmode ≠ 4 → s.powerState ≠ 2 → (s.freeTag 40).isSome = true →
      Does (.memAccess true write addr data) s fun r => r.tap.busy = true ∧ r.tap.done_ = false ∧ r.tap.error = false ∧ (r.ring.outs.getLast?).map (fun x => (x.ini, x.len)) = some (40, 4)) ∧
  (∀ (s : State) (write : Bool) (addr : Fin 0x10000000000) (data : BitVec 32), s.tap.busy = false → (s.bit DBG_CTRL.tap_mem_en = false ∨ s.get BOT_STATUS.bootmode = 4 ∨ s.powerState = 2) →
      Does (.memAccess true write addr data) s fun r => r.tap.error = true ∧ r.tap.done_ = false ∧ r.ring = s.ring) ∧
  (∀ (s : State) (write : Bool) (addr : Fin 0x10000000000) (data : BitVec 32), s.tap.busy = true →
      Does (.memAccess true write addr data) s fun r => r.get DBG_ERR.mem_busy = 1 ∧ r.tap.busy = true ∧ r.ring = s.ring) ∧
  (∀ (s : State), 
      Does (.tapReset) s fun r => r.tap.ir = 1 ∧ r.tap.pins = .functional ∧ r.tap.boundary = s.tap.boundary ∧ r.csr = s.csr) ∧
  (∀ (s : State), s.awake = true →
      Does (.traceClear) s fun r => r.seq.trace = [] ∧ r.get DBG_TRACE_STATUS.entries = 0 ∧ r.get DBG_TRACE_STATUS.stopped = 0)

/-- Requests, posted writes and events that reach their targets over the ring. -/
def Obligations.RingRequests : Prop :=
  (∀ (s : State) (k : Nat) (v : Serve) (p : Pkt), s.awake = true → s.ring.reqs[k]? = some p → p.cmd = .read → p.cut = none → s.ring.behind k p = false → v.flit = [] → memRange p.addr p.len = true → s.memUp p.addr p.len = true → s.memReady p.addr = true → s.eccFound p.addr p.len false v.ecc = [] →
      Does (.read (.flight k) v) s fun r => r.ring.reqs = s.ring.reqs.eraseIdx k ∧ r.ring.rsps = s.ring.rsps ++ [{ ini := p.ini, slot := p.slot, epoch := p.epoch, cmd := .read, src := p.dst, status := 0, addr := p.addr, g := p.g, ring := (s.takeRoute p.dst (iniStop p.ini) p.g).2.1, dir := (s.takeRoute p.dst (iniStop p.ini) p.g).2.2, data := s.bytesAt p.addr p.len }] ∧ r.mem = s.mem) ∧
  (∀ (s : State) (k : Nat) (v : Serve) (p : Pkt), s.awake = true → s.ring.reqs[k]? = some p → p.cmd = .read → p.cut = none → s.ring.behind k p = false → v.flit = [] → 0x3205000000 ≤ p.addr →
      Does (.read (.flight k) v) s fun r => r.ring.reqs = s.ring.reqs.eraseIdx k ∧ r.ring.rsps = s.ring.rsps ++ [{ ini := p.ini, slot := p.slot, epoch := p.epoch, cmd := .read, src := p.dst, status := 1, addr := p.addr, g := p.g, ring := (s.takeRoute p.dst (iniStop p.ini) p.g).2.1, dir := (s.takeRoute p.dst (iniStop p.ini) p.g).2.2, data := [] }] ∧ r.mem = s.mem) ∧
  (∀ (s : State) (k : Nat) (v : Serve) (p : Pkt) (stop : Fin 32) (link : Fin 4), s.awake = true → s.ring.reqs[k]? = some p → p.cmd = .read → s.memReady p.addr = true → s.ring.behind k p = false → v.flit = [.header stop link] →
      Does (.read (.flight k) v) s fun r => r.ring.reqs = s.ring.reqs.eraseIdx k ∧ r.ring.rsps = s.ring.rsps ∧ r.get RNG_ERR.ecc_uncorrectable = 1) ∧
  (∀ (s : State) (ini : Fin 41) (addr : Fin 0x10000000000) (len : Fin 257) (data : List (BitVec 8)) (v : Serve), s.awake = true → len.val ≠ 0 → oneBlock addr.val len.val = true → s.freeTag ini.val = none → Sparse.get none s.ring.tagWaits ini.val = none →
      Does (.read (.unit ini addr len data) v) s fun r => Sparse.get none r.ring.tagWaits ini.val = some s.now ∧ r.ring.outs = s.ring.outs ∧ r.ring.reqs = s.ring.reqs ∧ r.csr = s.csr) ∧
  (∀ (s : State) (k : Nat) (v : Serve) (p : Pkt), s.awake = true → s.ring.reqs[k]? = some p → p.cmd = .write → p.cut = none → s.ring.behind k p = false → v.flit = [] → memRange p.addr p.len = true → s.memUp p.addr p.len = true → s.memReady p.addr = true → s.eccFound p.addr p.len true v.ecc = [] → p.data.length = p.len → s.ringWriteClosed p.addr p.len = false →
      Does (.write (.flight k) v) s fun r => r.ring.reqs = s.ring.reqs.eraseIdx k ∧ r.ring.rsps = s.ring.rsps ++ [{ ini := p.ini, slot := p.slot, epoch := p.epoch, cmd := .write, src := p.dst, status := 0, addr := p.addr, g := p.g, ring := (s.takeRoute p.dst (iniStop p.ini) p.g).2.1, dir := (s.takeRoute p.dst (iniStop p.ini) p.g).2.2, data := [] }] ∧ r.bytesAt p.addr p.len = p.data) ∧
  (∀ (s : State) (k : Nat) (v : Serve) (p : Pkt), s.awake = true → s.ring.reqs[k]? = some p → p.cmd = .writeP → p.cut = none → s.ring.behind k p = false → v.flit = [] → memRange p.addr p.len = true → s.memUp p.addr p.len = true → s.memReady p.addr = true → s.eccFound p.addr p.len true v.ecc = [] → p.data.length = p.len → s.ringWriteClosed p.addr p.len = false →
      Does (.writeP false (.flight k) v) s fun r => r.ring.reqs = s.ring.reqs.eraseIdx k ∧ r.ring.rsps = s.ring.rsps ∧ r.bytesAt p.addr p.len = p.data) ∧
  (∀ (s : State) (k : Nat) (v : Serve) (p : Pkt), s.awake = true → s.ring.reqs[k]? = some p → p.cmd = .amoAdd → p.cut = none → s.ring.behind k p = false → v.flit = [] → memRange p.addr p.len = true → s.memUp p.addr p.len = true → s.memReady p.addr = true → s.eccFound p.addr p.len false v.ecc = [] → p.addr % 4 = 0 → p.len = 4 → p.addr < 0x1000810000 → 0x1000000000 ≤ p.addr → s.ringWriteClosed p.addr p.len = false →
      Does (.ringAmoadd (.flight k) v) s fun r => r.ring.reqs = s.ring.reqs.eraseIdx k ∧ r.ring.rsps = s.ring.rsps ++ [{ ini := p.ini, slot := p.slot, epoch := p.epoch, cmd := .amoAdd, src := p.dst, status := 0, addr := p.addr, g := p.g, ring := (s.takeRoute p.dst (iniStop p.ini) p.g).2.1, dir := (s.takeRoute p.dst (iniStop p.ini) p.g).2.2, data := leBytes 4 (s.leMem p.addr 4) }] ∧ r.leMem p.addr 4 = (s.leMem p.addr 4 + leNat p.data) % 2 ^ 32) ∧
  (∀ (s : State) (k : Nat) (v : Serve) (p : Pkt), s.awake = true → s.ring.reqs[k]? = some p → p.cmd = .amoSwap → p.cut = none → s.ring.behind k p = false → v.flit = [] → memRange p.addr p.len = true → s.memUp p.addr p.len = true → s.memReady p.addr = true → s.eccFound p.addr p.len false v.ecc = [] → p.addr % 4 = 0 → p.len = 4 → p.addr < 0x1000810000 → 0x1000000000 ≤ p.addr → s.ringWriteClosed p.addr p.len = false →
      Does (.ringAmoswap (.flight k) v) s fun r => r.ring.reqs = s.ring.reqs.eraseIdx k ∧ r.ring.rsps = s.ring.rsps ++ [{ ini := p.ini, slot := p.slot, epoch := p.epoch, cmd := .amoSwap, src := p.dst, status := 0, addr := p.addr, g := p.g, ring := (s.takeRoute p.dst (iniStop p.ini) p.g).2.1, dir := (s.takeRoute p.dst (iniStop p.ini) p.g).2.2, data := leBytes 4 (s.leMem p.addr 4) }] ∧ r.leMem p.addr 4 = leNat p.data % 2 ^ 32) ∧
  (∀ (s : State) (k : Nat) (v : Serve) (p : Pkt), s.awake = true → s.ring.reqs[k]? = some p → p.cmd = .event → s.ring.behind k p = false → v.flit = [] → p.addr % 32 < 17 → s.thState (p.addr % 32) ≠ 3 →
      Does (.event (.flight k) v) s fun r => r.ring.reqs = s.ring.reqs.eraseIdx k ∧ (r.th (p.addr % 32)).events = (s.th (p.addr % 32)).events ||| leNat p.data % 65536) ∧
  (∀ (s : State) (k : Nat) (v : Serve) (p : Pkt), s.awake = true → s.ring.reqs[k]? = some p → (memKind p.addr).isSome = true → p.cmd = .write →
      Does (.write (.flight k) v) s fun r => ∀ a, (a < p.addr ∨ p.addr + p.data.length ≤ a) → r.byte a = s.byte a) ∧
  (∀ (s : State) (k : Nat) (v : Serve) (p : Pkt), s.awake = true → s.ring.reqs[k]? = some p → (memKind p.addr).isSome = true → p.cmd = .writeP →
      Does (.writeP false (.flight k) v) s fun r => ∀ a, (a < p.addr ∨ p.addr + p.data.length ≤ a) → r.byte a = s.byte a) ∧
  (∀ (s : State) (k : Nat) (v : Serve) (p : Pkt), s.awake = true → s.ring.reqs[k]? = some p → (memKind p.addr).isSome = true → p.cmd = .amoAdd →
      Does (.ringAmoadd (.flight k) v) s fun r => ∀ a, (a < p.addr ∨ p.addr + 4 ≤ a) → r.byte a = s.byte a) ∧
  (∀ (s : State) (k : Nat) (v : Serve) (p : Pkt), s.awake = true → s.ring.reqs[k]? = some p → (memKind p.addr).isSome = true → p.cmd = .amoSwap →
      Does (.ringAmoswap (.flight k) v) s fun r => ∀ a, (a < p.addr ∨ p.addr + 4 ≤ a) → r.byte a = s.byte a) ∧
  (∀ (s : State) (k : Nat) (v : Serve) (p : Pkt), s.awake = true → s.ring.reqs[k]? = some p → p.cmd = .read → ((memKind p.addr).isSome = true ∨ 0x3000000000 ≤ p.addr ∧ p.addr < 0x3004000000) →
      Does (.read (.flight k) v) s fun r => r.mem = s.mem) ∧
  (∀ (s : State) (k : Nat) (v : Serve) (p : Pkt), s.awake = true → s.ring.reqs[k]? = some p → p.cmd = .write → (0x3000000000 ≤ p.addr ∧ p.addr < 0x3004000000) →
      Does (.write (.flight k) v) s fun r => r.mem = s.mem) ∧
  (∀ (s : State) (k : Nat) (v : Serve) (p : Pkt), s.awake = true → s.ring.reqs[k]? = some p → p.cmd = .writeP → (0x3000000000 ≤ p.addr ∧ p.addr < 0x3004000000) →
      Does (.writeP false (.flight k) v) s fun r => r.mem = s.mem)

/-- Responses, timeouts, freed tags, error reports and the sleep of stops. -/
def Obligations.RingResponses : Prop :=
  (∀ (s : State) (k lat : Nat) (q : Rsp) (x : Txn), s.awake = true → s.ring.rsps[k]? = some q → s.ring.outs.find? (fun y => y.ini == q.ini && y.slot == q.slot) = some x → x.epoch = q.epoch → x.purpose = .unit → x.ini = q.ini → s.ring.held = [] → noStall s = true → (x.ini < 18 ∨ 33 < x.ini) → q.cmd = .read →
      Does (.readData k lat []) s fun r => r.ring.rsps = s.ring.rsps.eraseIdx k ∧ r.ring.outs = s.ring.outs.filter (fun y => y ≠ x) ∧ (x.ini = 40 → r.tap.busy = false ∧ r.tap.done_ = true ∧ r.tap.error = (q.status != 0))) ∧
  (∀ (s : State) (k lat : Nat) (q : Rsp) (x : Txn), s.awake = true → s.ring.rsps[k]? = some q → s.ring.outs.find? (fun y => y.ini == q.ini && y.slot == q.slot) = some x → x.epoch = q.epoch → x.purpose = .unit → x.ini = q.ini → s.ring.held = [] → noStall s = true → (x.ini < 18 ∨ 33 < x.ini) → q.cmd = .write →
      Does (.writeAck k lat []) s fun r => r.ring.rsps = s.ring.rsps.eraseIdx k ∧ r.ring.outs = s.ring.outs.filter (fun y => y ≠ x)) ∧
  (∀ (s : State) (k lat : Nat) (q : Rsp) (x : Txn), s.awake = true → s.ring.rsps[k]? = some q → s.ring.outs.find? (fun y => y.ini == q.ini && y.slot == q.slot) = some x → x.epoch = q.epoch → x.purpose = .unit → x.ini = q.ini → s.ring.held = [] → noStall s = true → (x.ini < 18 ∨ 33 < x.ini) → (q.cmd = .amoAdd ∨ q.cmd = .amoSwap) →
      Does (.amoData k lat []) s fun r => r.ring.rsps = s.ring.rsps.eraseIdx k ∧ r.ring.outs = s.ring.outs.filter (fun y => y ≠ x)) ∧
  (∀ (s : State) (k lat : Nat) (q : Rsp) (x : Txn) (a b : Nat), s.awake = true → s.ring.rsps[k]? = some q → s.ring.outs.find? (fun y => y.ini == q.ini && y.slot == q.slot) = some x → x.epoch = q.epoch → x.ini = q.ini → 17 < x.ini → x.ini < 34 → noStall s = true → s.ring.held = [] → q.cmd = .read → q.status = 0 → x.purpose = .piece a b → s.get RNG_DMA_STATUS.state (x.ini - 18) = 1 → (s.dma (x.ini - 18)).desc.any Desc.overlaps = false → (s.dma (x.ini - 18)).piece.isNone = true → (s.freeTag x.ini).isSome = true → s.get RNG_STOP_STATUS.asleep (targetStop b) = 0 → s.ring.deaf = [] → s.ring.changed = [] →
      Does (.readData k lat []) s fun r => r.mem = s.mem ∧ (r.dma (x.ini - 18)).piece.isNone = true ∧ r.ring.reqs.length = s.ring.reqs.length + 1 ∧ (r.ring.reqs.getLast?).map (fun p => (p.cmd, p.addr, p.len, p.data)) = some (.write, b, q.data.length, q.data)) ∧
  (∀ (s : State) (k lat : Nat) (q : Rsp) (x : Txn), s.awake = true → s.ring.rsps[k]? = some q → s.ring.outs.find? (fun y => y.ini == q.ini && y.slot == q.slot) = some x → x.epoch = q.epoch → x.ini = q.ini → 17 < x.ini → x.ini < 34 → noStall s = true → s.ring.held = [] → q.cmd = .write →
      Does (.writeAck k lat []) s fun r => r.mem = s.mem) ∧
  (∀ (s : State) (k lat : Nat) (q : Rsp) (x : Txn), s.awake = true → s.ring.rsps[k]? = some q → q.cmd = .read → s.ring.outs.find? (fun y => y.ini == q.ini && y.slot == q.slot) = some x → x.epoch ≠ q.epoch → s.ring.kept = [] → noStall s = true →
      Does (.readData k lat []) s fun r => r.ring.rsps = s.ring.rsps.eraseIdx k ∧ r.get RNG_STALE_CNT.count = min (2 ^ 32 - 1) (s.get RNG_STALE_CNT.count + 1) ∧ r.ring.outs = s.ring.outs) ∧
  (∀ (s : State) (k lat : Nat) (flit : List FlitCheck) (q : Rsp), s.awake = true → s.ring.rsps[k]? = some q → q.cmd ≠ .write →
      exec (.writeAck k lat flit) s = .next (s)) ∧
  (∀ (s : State) (k : Nat) (x : Txn), s.awake = true → s.ring.outs[k]? = some x → x.purpose = .unit → s.ring.held = [] → noStall s = true → (x.ini < 18 ∨ 33 < x.ini ∧ x.ini < 41) →
      Does (.ringTimeout k) s fun r => r.ring.retired = s.ring.retired ++ [x] ∧ r.get RNG_ERR.timeout = 1 ∧ r.get RNG_INI_TMO_CNT.count x.ini = min (2 ^ 32 - 1) (s.get RNG_INI_TMO_CNT.count x.ini + 1) ∧ r.ring.outs = s.ring.outs.filter (fun y => y ≠ x)) ∧
  (∀ (s : State) (page : Fin 32) (core : Fin 5) (t : Nat) (q : Report) (rest : List Report), s.awake = true → s.nextReport page.val core.val = some (q, rest) → s.erq.entries.any (fun e => e.matches_ q) = false → s.erq.entries.length < 256 →
      Does (.errorReport page core t []) s fun r => r.erq.entries.length = s.erq.entries.length + 1 ∧ r.erq.entries.take s.erq.entries.length = s.erq.entries ∧ (r.erq.entries.getLast?).map (fun e => (e.page, e.inst, e.code, e.count, e.seq)) = some (q.page, q.inst, q.code, q.count, s.get ERQ_NEXT_SEQ.seq) ∧ r.get ERQ_NEXT_SEQ.seq = (s.get ERQ_NEXT_SEQ.seq + 1) % 2 ^ 32) ∧
  (∀ (s : State) (page : Fin 32) (core : Fin 5) (t : Nat) (q : Report) (rest : List Report), s.awake = true → s.nextReport page.val core.val = some (q, rest) → s.erq.entries.any (fun e => e.matches_ q) = true →
      Does (.errorReport page core t []) s fun r => r.erq.entries.length = s.erq.entries.length ∧ r.get ERQ_COALESCE_CNT.count = min (2 ^ 32 - 1) (s.get ERQ_COALESCE_CNT.count + 1) ∧ r.erq.reports = rest) ∧
  (∀ (s : State) (page : Fin 32) (core : Fin 5) (t : Nat) (q : Report) (rest : List Report), s.awake = true → s.nextReport page.val core.val = some (q, rest) → s.erq.entries.any (fun e => e.matches_ q) = false → 256 ≤ s.erq.entries.length →
      Does (.errorReport page core t []) s fun r => r.erq.entries = s.erq.entries ∧ r.get ERQ_ERR.overflow = 1 ∧ r.get ERQ_LOST_KEY_HI.code = q.code % 65536) ∧
  (∀ (s : State) (page : Fin 32) (core : Fin 5) (t : Nat) (q : Report) (rest : List Report) (stop : Fin 32) (link : Fin 4) (more : List FlitCheck), s.awake = true → s.nextReport page.val core.val = some (q, rest) →
      Does (.errorReport page core t (.header stop link :: more)) s fun r => r.erq.entries = s.erq.entries ∧ r.erq.reports.length ≤ rest.length + 1 ∧ r.get RNG_ERR.ecc_uncorrectable = 1) ∧
  (∀ (s : State) (core : Fin 5) (t : Nat) (q : Report) (rest : List Report), stands s = true → s.nextReport 12 core.val = some (q, rest) → s.powerState = 2 → s.erq.entries.any (fun e => e.matches_ q) = false → s.erq.entries.length < 256 →
      Does (.errorReport 12 core t []) s fun r => r.erq.entries.length = s.erq.entries.length + 1 ∧ r.erq.reports = rest) ∧
  (∀ (s : State) (k : Nat) (x : Txn), s.awake = true → s.ring.kept[k]? = some x → noStall s = true →
      Does (.tagHoldExpiry k) s fun r => r.ring.kept = s.ring.kept.filter (fun y => y ≠ x) ∧ r.ring.outs = s.ring.outs ∧ r.csr = s.csr) ∧
  (∀ (s : State) (ini i : Fin 41), s.awake = true →
      Does (.latSumRead ini i) s fun r => r.sent = s.sent ++ [.value (s.get RNG_INI_LAT_SUM.cycles i.val % 2 ^ 32)] ∧ r.get RNG_INI_LAT_SUM.cycles i.val = 0 ∧ r.get RNG_INI_RSP_CNT.count i.val = 0 ∧ r.ring.rspHold.contains (i.val, s.get RNG_INI_RSP_CNT.count i.val) = true) ∧
  (∀ (s : State) (d : Fin 32), stands s = true → s.bit RNG_STOP_STATUS.asleep d.val = true → s.ring.held.any (fun p => p.dst == d.val) = true → s.ring.waking.contains d.val = false → s.powerState ≠ 2 →
      Does (.wakeReq d []) s fun r => r.ring.waking = s.ring.waking ++ [d.val] ∧ r.get RNG_WAKE_CNT.count = min (2 ^ 32 - 1) (s.get RNG_WAKE_CNT.count + 1)) ∧
  (∀ (s : State) (d stop : Fin 32) (link : Fin 4), stands s = true → s.bit RNG_STOP_STATUS.asleep d.val = true → s.ring.held.any (fun p => p.dst == d.val) = true → s.ring.waking.contains d.val = false → s.powerState ≠ 2 →
      Does (.wakeReq d [.header stop link]) s fun r => r.ring.waking = s.ring.waking ++ [d.val] ∧ r.get RNG_WAKE_CNT.count = s.get RNG_WAKE_CNT.count ∧ r.get RNG_ERR.ecc_uncorrectable = 1) ∧
  (∀ (s : State) (d : Fin 32) (p : Pkt), s.awake = true → (8 ≤ d.val → d.val < 16 → s.get SPD_BANK_STATUS.state (d.val - 8) = 2) → s.ring.held = [p] → p.dst = d.val → s.ring.changed = [] →
      Does (.wakeDone d []) s fun r => r.bit RNG_STOP_STATUS.asleep d.val = false ∧ r.ring.waking.contains d.val = false ∧ (r.ring.deaf.any fun x => x.2 == d.val) = false ∧ r.ring.held = [] ∧ r.ring.reqs.length = s.ring.reqs.length + 1)

/-- Routes, the guaranteed class, master resets and the DMA channels. That a channel started after an error fetches only
when the responses still outstanding have come is the model's choice (log entry 94). -/
def Obligations.RingControl : Prop :=
  (∀ (s : State) (stop : Fin 32) (entry : Fin 64) (value : BitVec 32), s.awake = true → (value.getLsbD 2 = false ∨ 4 < stop.val) → (s.wrReg 11 (0x1000 + 0x100 * stop.val + 4 * entry.val) 0xFFFFFFFF value.toNat).guarOk = true →
      Does (.routeWrite stop entry 0xFFFFFFFF#32 value) s fun r => r.get RNG_ROUTE.ring stop.val entry.val = bits value.toNat 0 1 ∧ r.get RNG_ROUTE.dir stop.val entry.val = bits value.toNat 1 1 ∧ r.get RNG_ROUTE.alternate stop.val entry.val = bits value.toNat 2 1) ∧
  (∀ (s : State) (stop : Fin 32) (entry : Fin 64) (value : BitVec 32), s.awake = true → value.getLsbD 2 = true → stop.val ≤ 4 →
      exec (.routeWrite stop entry 0xFFFFFFFF#32 value) s = .next (s.err RNG_ERR.route_refused 0 stop.val)) ∧
  (∀ (s : State) (ini : Fin 41) (stops : Bool) (mask value : BitVec 32), s.awake = true → (s.wrReg 11 (0x4000 + 0x40 * ini.val + (if stops then 0x10 else 0xC)) mask.toNat value.toNat).guarOk = true →
      exec (.guarWrite ini stops mask value) s = .next ((s.wrReg 11 (0x4000 + 0x40 * ini.val + (if stops then 0x10 else 0xC)) mask.toNat value.toNat).publishBounds)) ∧
  (∀ (s : State) (ini : Fin 41) (stops : Bool) (mask value : BitVec 32), s.awake = true → (s.wrReg 11 (0x4000 + 0x40 * ini.val + (if stops then 0x10 else 0xC)) mask.toNat value.toNat).guarOk = false →
      exec (.guarWrite ini stops mask value) s = .next (s.err RNG_ERR.guar_refused 0 (iniStop ini.val))) ∧
  (∀ (s : State) (ini : Fin 41), s.awake = true → (s.sem.waits.any fun w => w.ini == ini.val) = false →
      Does (.masterReset ini none) s fun r => r.get RNG_INI_STATUS.epoch ini.val = (s.get RNG_INI_STATUS.epoch ini.val + 1) % 16 ∧ (r.ring.outs.any fun x => x.ini == ini.val) = false ∧ (r.ring.held.any fun p => p.ini == ini.val) = false ∧ ∀ n < 512, s.holdsSem ini.val n = true → r.holdsSem ini.val n = false) ∧
  (∀ (s : State) (n : Fin 16), s.awake = true → s.get RNG_DMA_STATUS.state n.val ≠ 1 → s.get RNG_DMA_STATUS.state n.val ≠ 2 → (s.freeTag (18 + n.val)).isSome = true → s.dmaBusy n.val = false → s.get RNG_DMA_DESC_LO.addr n.val < 2 ^ 27 → s.get RNG_DMA_DESC_HI.addr n.val < 2 ^ 8 →
      Does (.dmaStart n) s fun r => r.get RNG_DMA_STATUS.state n.val = 1 ∧ r.get RNG_DMA_BYTES.bytes n.val = 0 ∧ r.dmaCur n.val = 32 * s.get RNG_DMA_DESC_LO.addr n.val + 2 ^ 32 * s.get RNG_DMA_DESC_HI.addr n.val ∧ (r.ring.outs.getLast?).map (fun x => (x.ini, x.len)) = some (18 + n.val, 32)) ∧
  (∀ (s : State) (n : Fin 16), s.awake = true → s.get RNG_DMA_STATUS.state n.val ≠ 1 → s.get RNG_DMA_STATUS.state n.val ≠ 2 → s.dmaBusy n.val = true →
      Does (.dmaStart n) s fun r => r.get RNG_DMA_STATUS.state n.val = 1 ∧ (r.dma n.val).draining = true ∧ r.ring.outs = s.ring.outs) ∧
  (∀ (s : State) (n : Fin 16), s.awake = true → (s.get RNG_DMA_STATUS.state n.val = 1 ∨ s.get RNG_DMA_STATUS.state n.val = 2) →
      exec (.dmaStart n) s = .next (s.err RNG_DMA_STATUS.start_refused n.val n.val)) ∧
  (∀ (s : State) (n : Fin 16), s.awake = true → (s.get RNG_DMA_STATUS.state n.val = 1 ∨ s.get RNG_DMA_STATUS.state n.val = 2) → (s.dma n.val).committed = false → s.dmaBusy n.val = false →
      Does (.dmaAbort n) s fun r => r.get RNG_DMA_STATUS.state n.val = 4 ∧ r.get RNG_DMA_STATUS.aborted n.val = 1) ∧
  (∀ (s : State) (n : Fin 16), s.awake = true → (s.get RNG_DMA_STATUS.state n.val = 3 ∨ s.get RNG_DMA_STATUS.state n.val = 1 ∧ (s.dma n.val).committed = true) →
      exec (.dmaAbort n) s = .next (s.put RNG_DMA_STATUS.abort_too_late 1 n.val)) ∧
  (∀ (s : State) (n : Fin 16), s.awake = true → s.get RNG_DMA_STATUS.state n.val = 2 → (s.dma n.val).aborting = false → (s.freeTag (18 + n.val)).isSome = true →
      Does (.dmaResume n) s fun r => r.get RNG_DMA_STATUS.state n.val = 1 ∧ (r.ring.outs.getLast?).map (fun x => (x.ini, x.len)) = some (18 + n.val, 32)) ∧
  (∀ (s : State) (n : Fin 16) (d : Desc), s.awake = true → s.get RNG_DMA_STATUS.state n.val = 1 → s.dmaDescDone n.val = true → (s.dma n.val).aborting = false → (s.dma n.val).desc = some d → d.ctrl % 2 = 1 →
      Does (.dmaDescriptorComplete n) s fun r => r.get RNG_DMA_STATUS.state n.val = 3 ∧ r.get RNG_DMA_STATUS.done_ n.val = 1 ∧ (r.dma n.val).desc = none) ∧
  (∀ (s : State) (n : Fin 16) (d : Desc), s.awake = true → s.get RNG_DMA_STATUS.state n.val = 1 → s.dmaDescDone n.val = true → (s.dma n.val).aborting = false → (s.dma n.val).desc = some d → d.ctrl % 2 = 0 → d.ctrl.testBit 2 = true → d.next % 32 = 0 → d.next < 2 ^ 40 →
      Does (.dmaDescriptorComplete n) s fun r => r.get RNG_DMA_STATUS.state n.val = 2 ∧ r.dmaCur n.val = d.next ∧ (r.dma n.val).desc = none)

/-- Scrubbing and clearing of the banks, and the mailbox. -/
def Obligations.ScratchpadAndMailbox : Prop :=
  (∀ (s : State) (o : Fin 0x800000) (stall : Nat), s.awake = true → s.get SPD_BANK_STATUS.state (o.val / 0x100000) = 2 →
      Does (.spdPatrolScrub o .corrected stall) s fun r => r.get SPD_BANK_CONFLICT_CNT.count (o.val / 0x100000) = min (2 ^ 32 - 1) (s.get SPD_BANK_CONFLICT_CNT.count (o.val / 0x100000) + stall) ∧ r.get SPD_BANK_ECC_CORR_CNT.count (o.val / 0x100000) = min (2 ^ 32 - 1) (s.get SPD_BANK_ECC_CORR_CNT.count (o.val / 0x100000) + 1) ∧ r.get SPD_ERR.ecc_corrected = 1 ∧ r.mem = s.mem) ∧
  (∀ (s : State) (o : Fin 0x800000), s.awake = true → s.get SPD_BANK_STATUS.state (o.val / 0x100000) = 2 →
      Does (.spdPatrolScrub o .uncorrectable 0) s fun r => r.get SPD_BANK_ECC_UNCORR_CNT.count (o.val / 0x100000) = min (2 ^ 32 - 1) (s.get SPD_BANK_ECC_UNCORR_CNT.count (o.val / 0x100000) + 1) ∧ r.get SPD_ERR.ecc_uncorrectable = 1) ∧
  (∀ (s : State), s.awake = true →
      Does (.spdClearComplete) s fun r => ∀ b < 8, r.get SPD_BANK_STATUS.state b = (if s.get SPD_BANK_STATUS.state b = 1 then 2 else s.get SPD_BANK_STATUS.state b) ∧ (r.get SPD_BANK_STATUS.state b = 2 → r.bit RNG_STOP_STATUS.asleep (8 + b) = false)) ∧
  (∀ (s : State) (v : Serve) (a p n rd : Nat) (signed : Bool), stands s = true → s.portKAccess = some (.load a n, p) → (s.th 16).hold = .access { todo := [.load a n], got := [], after := .word rd n signed, portK := true, phys := p } → rd < 32 → s.get SPD_MBX_STATUS.state = 2 → (s.th 16).stopping = false →
      Does (.mailboxKeeperAccess .good none v) s fun r => (r.th 16).hold = .none ∧ (r.th 16).pc = (s.th 16).pc + 4 ∧ r.mem = s.mem ∧ (r.th 16).reg rd = (if rd = 0 then 0 else (if signed then sext (8 * n) 32 (leNat (s.bytesAt p n)) else leNat (s.bytesAt p n)) % 2 ^ 32) ∧ ∀ q < 32, q ≠ rd → (r.th 16).reg q = (s.th 16).reg q) ∧
  (∀ (s : State) (v : Serve) (a p n x : Nat), stands s = true → s.portKAccess = some (.store a n x, p) → (s.th 16).hold = .access { todo := [.store a n x], got := [], after := .nothing, portK := true, phys := p } → s.get SPD_MBX_STATUS.state = 2 → (s.th 16).stopping = false →
      Does (.mailboxKeeperAccess .good none v) s fun r => (r.th 16).hold = .none ∧ (r.th 16).pc = (s.th 16).pc + 4 ∧ (∀ q < 32, (r.th 16).reg q = (s.th 16).reg q) ∧ r.bytesAt p n = leBytes n x ∧ ∀ b, (b < p ∨ p + n ≤ b) → r.byte b = s.byte b) ∧
  (∀ (s : State) (o : Codeword) (k : Option Nat) (v : Serve), stands s = true → s.get SPD_MBX_STATUS.state ≠ 2 →
      exec (.mailboxKeeperAccess o k v) s = .next (s)) ∧
  (∀ (s : State) (o : Fin 0x10000), s.pwr.held = false → s.get SPD_MBX_STATUS.state = 2 →
      Does (.mailboxScrub o .corrected) s fun r => r.get SPD_MBX_ECC_CORR_CNT.count = min (2 ^ 32 - 1) (s.get SPD_MBX_ECC_CORR_CNT.count + 1) ∧ r.get SPD_ERR.ecc_corrected = 1) ∧
  (∀ (s : State) (ini : Fin 41) (value : BitVec 32), stands s = true → bits value.toNat 0 5 ≤ 16 → (bits value.toNat 0 5 = 16 ∨ ini.val = 16 ∨ ini.val = 17) → (s.evEnabled (bits value.toNat 0 5)).testBit 19 = true →
      Does (.mailboxDoorbell ini 0xFFFFFFFF#32 value) s fun r => ((r.th (bits value.toNat 0 5)).events.testBit 19) = true) ∧
  (∀ (s : State) (ini : Fin 41) (value : BitVec 32), stands s = true → (16 < bits value.toNat 0 5 ∨ bits value.toNat 0 5 < 16 ∧ ini.val ≠ 16 ∧ ini.val ≠ 17) →
      exec (.mailboxDoorbell ini 0xFFFFFFFF#32 value) s = .next (s.err SPD_ERR.doorbell_refused 0 ini.val))

/-- The operations on semaphores, leases, and the rights of initiators. -/
def Obligations.Semaphores : Prop :=
  (∀ (s : State) (ini : Fin 41) (n : Fin 512), s.awake = true → s.semMay ini.val n.val = true → s.bit SEM_STATE.held n.val = false →
      Does (.semTry ini n) s fun r => r.get SEM_INI_RESULT.code ini.val = 1 ∧ r.get SEM_INI_RESULT.sem ini.val = n.val ∧ r.holdsSem ini.val n.val = true ∧ r.get SEM_GRANT_CNT.count = min (2 ^ 32 - 1) (s.get SEM_GRANT_CNT.count + 1) ∧ Sparse.get 0 r.sem.leases n.val = s.get SEM_GRP_LEASE.us (n.val / 16)) ∧
  (∀ (s : State) (ini : Fin 41) (n : Fin 512), s.awake = true → s.semMay ini.val n.val = true → s.bit SEM_STATE.held n.val = true → s.get SEM_STATE.owner n.val ≠ ini.val →
      Does (.semTry ini n) s fun r => r.get SEM_INI_RESULT.code ini.val = 2 ∧ r.get SEM_INI_RESULT.sem ini.val = n.val ∧ r.holdsSem ini.val n.val = false) ∧
  (∀ (s : State) (ini : Fin 41) (n : Fin 512), s.awake = true → s.semMay ini.val n.val = false →
      exec (.semTry ini n) s = .next ((s.inc SEM_DENIED_CNT.count).err SEM_ERR.denied 0 n.val ini.val)) ∧
  (∀ (s : State) (ini : Fin 41) (n : Fin 512) (prio : Fin 8), s.awake = true → s.semMay ini.val n.val = true → s.bit SEM_STATE.held n.val = false →
      Does (.wait ini n prio) s fun r => r.get SEM_INI_RESULT.code ini.val = 1 ∧ r.get SEM_INI_RESULT.sem ini.val = n.val ∧ r.holdsSem ini.val n.val = true ∧ r.get SEM_GRANT_CNT.count = min (2 ^ 32 - 1) (s.get SEM_GRANT_CNT.count + 1) ∧ Sparse.get 0 r.sem.leases n.val = s.get SEM_GRP_LEASE.us (n.val / 16)) ∧
  (∀ (s : State) (ini : Fin 41) (n : Fin 512) (prio : Fin 8), s.awake = true → s.semMay ini.val n.val = true → s.bit SEM_STATE.held n.val = true → s.get SEM_STATE.owner n.val ≠ ini.val → ini.val ≤ 17 → s.bit SEM_INI_WAIT.waiting ini.val = false →
      Does (.wait ini n prio) s fun r => r.get SEM_INI_RESULT.code ini.val = 3 ∧ r.get SEM_INI_RESULT.sem ini.val = n.val ∧ r.sem.waits = s.sem.waits ++ [{ ini := ini.val, sem := n.val, prio := prio.val }] ∧ r.get SEM_INI_WAIT.waiting ini.val = 1 ∧ r.get SEM_INI_WAIT.sem ini.val = n.val ∧ r.get SEM_INI_WAIT.prio ini.val = prio.val) ∧
  (∀ (s : State) (ini : Fin 41) (n : Fin 512), s.awake = true → s.semMay ini.val n.val = true → s.holdsSem ini.val n.val = true → s.nextWaiter n.val = none →
      Does (.release ini n) s fun r => r.get SEM_INI_RESULT.code ini.val = 4 ∧ r.get SEM_INI_RESULT.sem ini.val = n.val ∧ r.bit SEM_STATE.held n.val = false ∧ r.get SEM_STATE.owner n.val = 0) ∧
  (∀ (s : State) (ini : Fin 41) (n : Fin 512) (w : SemWait), s.awake = true → s.semMay ini.val n.val = true → s.holdsSem ini.val n.val = true → s.nextWaiter n.val = some w → w.ini < 41 → w.ini ≠ ini.val →
      Does (.release ini n) s fun r => r.holdsSem w.ini n.val = true ∧ (r.sem.waits.any fun x => x.ini == w.ini) = false ∧ r.sem.granted.contains (w.ini, n.val) = true ∧ r.get SEM_INI_RESULT.code ini.val = 4 ∧ r.get SEM_INI_RESULT.sem ini.val = n.val) ∧
  (∀ (s : State) (ini : Fin 41) (n : Fin 512), s.awake = true → s.semMay ini.val n.val = true → s.holdsSem ini.val n.val = false →
      Does (.release ini n) s fun r => r.get SEM_INI_RESULT.code ini.val = 5 ∧ r.get SEM_INI_RESULT.sem ini.val = n.val) ∧
  (∀ (s : State) (ini : Fin 41) (n : Fin 512), s.awake = true → s.semMay ini.val n.val = true → ((s.sem.waits.any fun x => decide (x.ini = ini.val ∧ x.sem = n.val)) = true) →
      Does (.cancel ini n) s fun r => r.get SEM_INI_RESULT.code ini.val = 7 ∧ r.get SEM_INI_RESULT.sem ini.val = n.val ∧ (r.sem.waits.any fun x => x.ini == ini.val) = false ∧ r.get SEM_INI_WAIT.waiting ini.val = 0) ∧
  (∀ (s : State) (ini : Fin 41) (n : Fin 512), s.awake = true → s.semMay ini.val n.val = true → s.holdsSem ini.val n.val = true → ((s.sem.waits.any fun x => decide (x.ini = ini.val ∧ x.sem = n.val)) = false) → (ini.val, n.val) ∈ s.sem.granted →
      Does (.cancel ini n) s fun r => r.get SEM_INI_RESULT.code ini.val = 8 ∧ r.get SEM_INI_RESULT.sem ini.val = n.val) ∧
  (∀ (s : State) (ini : Fin 41) (n : Fin 512), s.awake = true → s.semMay ini.val n.val = true → s.holdsSem ini.val n.val = true →
      Does (.renew ini n) s fun r => r.get SEM_INI_RESULT.code ini.val = 9 ∧ r.get SEM_INI_RESULT.sem ini.val = n.val ∧ Sparse.get 0 r.sem.leases n.val = s.get SEM_GRP_LEASE.us (n.val / 16)) ∧
  (∀ (s : State) (ini : Fin 41) (n : Fin 512) (op : Fin 16) (prio : Fin 8), s.awake = true → s.semMay ini.val n.val = true → (op.val = 0 ∨ 5 < op.val) →
      Does (.badOperation ini n op prio) s fun r => r.get SEM_INI_RESULT.code ini.val = 13 ∧ r.get SEM_INI_RESULT.sem ini.val = n.val ∧ r.get SEM_ERR.bad_op = 1) ∧
  (∀ (s : State) (n : Fin 512), s.awake = true → s.bit SEM_STATE.held n.val = true → s.nextWaiter n.val = none →
      Does (.leaseExpiry n) s fun r => r.bit SEM_STATE.held n.val = false ∧ r.get SEM_STATE.lease_expired n.val = 1 ∧ r.get SEM_ERR.lease_expired = 1 ∧ r.get SEM_LEASE_CNT.count = min (2 ^ 32 - 1) (s.get SEM_LEASE_CNT.count + 1)) ∧
  (∀ (s : State) (ini : Fin 41) (value : BitVec 32), s.awake = true → s.iniBit SEM_ADMIN_LO.initiators SEM_ADMIN_HI.initiators ini.val = true →
      Does (.semAdminWrite ini 0x108 0xFFFFFFFF#32 value) s fun r => r.get SEM_GRP_LEASE.us = max 10 (bits value.toNat 0 20)) ∧
  (∀ (s : State) (ini : Fin 41) (off : Fin 65536) (mask value : BitVec 32), s.awake = true → (off.val < 8 → ini.val ≠ 16) → (8 ≤ off.val → s.iniBit SEM_ADMIN_LO.initiators SEM_ADMIN_HI.initiators ini.val = false) →
      exec (.semAdminWrite ini off mask value) s = .next ((s.inc SEM_DENIED_CNT.count).err SEM_ERR.admin_denied 0 ini.val))

/-- The ALU group: every code writes rd with its result and goes on with the next word. -/
def Obligations.AluGroup : Prop :=
  (∀ (s : State) (u : Issue) (rd ra rb : Fin 32), runs s u = true → rd.val < 24 → ra.val < 24 → rb.val < 24 →
      exec (.add u rd ra rb) s = .next ((issued s u).retire (thr u) ((s.th (thr u)).pc + 4) fun t => t.setReg rd.val ((word s u ra + word s u rb).toNat))) ∧
  (∀ (s : State) (u : Issue) (rd ra rb : Fin 32), runs s u = true → rd.val < 24 → ra.val < 24 → rb.val < 24 →
      exec (.sub u rd ra rb) s = .next ((issued s u).retire (thr u) ((s.th (thr u)).pc + 4) fun t => t.setReg rd.val ((word s u ra - word s u rb).toNat))) ∧
  (∀ (s : State) (u : Issue) (rd ra rb : Fin 32), runs s u = true → rd.val < 24 → ra.val < 24 → rb.val < 24 →
      exec (.and u rd ra rb) s = .next ((issued s u).retire (thr u) ((s.th (thr u)).pc + 4) fun t => t.setReg rd.val ((word s u ra &&& word s u rb).toNat))) ∧
  (∀ (s : State) (u : Issue) (rd ra rb : Fin 32), runs s u = true → rd.val < 24 → ra.val < 24 → rb.val < 24 →
      exec (.or u rd ra rb) s = .next ((issued s u).retire (thr u) ((s.th (thr u)).pc + 4) fun t => t.setReg rd.val ((word s u ra ||| word s u rb).toNat))) ∧
  (∀ (s : State) (u : Issue) (rd ra rb : Fin 32), runs s u = true → rd.val < 24 → ra.val < 24 → rb.val < 24 →
      exec (.xor u rd ra rb) s = .next ((issued s u).retire (thr u) ((s.th (thr u)).pc + 4) fun t => t.setReg rd.val ((word s u ra ^^^ word s u rb).toNat))) ∧
  (∀ (s : State) (u : Issue) (rd ra rb : Fin 32), runs s u = true → rd.val < 24 → ra.val < 24 → rb.val < 24 →
      exec (.sll u rd ra rb) s = .next ((issued s u).retire (thr u) ((s.th (thr u)).pc + 4) fun t => t.setReg rd.val ((word s u ra <<< ((word s u rb).toNat % 32)).toNat))) ∧
  (∀ (s : State) (u : Issue) (rd ra rb : Fin 32), runs s u = true → rd.val < 24 → ra.val < 24 → rb.val < 24 →
      exec (.srl u rd ra rb) s = .next ((issued s u).retire (thr u) ((s.th (thr u)).pc + 4) fun t => t.setReg rd.val ((word s u ra >>> ((word s u rb).toNat % 32)).toNat))) ∧
  (∀ (s : State) (u : Issue) (rd ra rb : Fin 32), runs s u = true → rd.val < 24 → ra.val < 24 → rb.val < 24 →
      exec (.sra u rd ra rb) s = .next ((issued s u).retire (thr u) ((s.th (thr u)).pc + 4) fun t => t.setReg rd.val (((word s u ra).sshiftRight ((word s u rb).toNat % 32)).toNat))) ∧
  (∀ (s : State) (u : Issue) (rd ra rb : Fin 32), runs s u = true → rd.val < 24 → ra.val < 24 → rb.val < 24 →
      exec (.slt u rd ra rb) s = .next ((issued s u).retire (thr u) ((s.th (thr u)).pc + 4) fun t => t.setReg rd.val (if (word s u ra).slt (word s u rb) then 1 else 0))) ∧
  (∀ (s : State) (u : Issue) (rd ra rb : Fin 32), runs s u = true → rd.val < 24 → ra.val < 24 → rb.val < 24 →
      exec (.sltu u rd ra rb) s = .next ((issued s u).retire (thr u) ((s.th (thr u)).pc + 4) fun t => t.setReg rd.val (if (word s u ra).ult (word s u rb) then 1 else 0))) ∧
  (∀ (s : State) (u : Issue) (rd ra rb : Fin 32), runs s u = true → rd.val < 24 → ra.val < 24 → rb.val < 24 →
      exec (.min u rd ra rb) s = .next ((issued s u).retire (thr u) ((s.th (thr u)).pc + 4) fun t => t.setReg rd.val (if (word s u ra).toInt ≤ (word s u rb).toInt then (word s u ra).toNat else (word s u rb).toNat))) ∧
  (∀ (s : State) (u : Issue) (rd ra rb : Fin 32), runs s u = true → rd.val < 24 → ra.val < 24 → rb.val < 24 →
      exec (.max u rd ra rb) s = .next ((issued s u).retire (thr u) ((s.th (thr u)).pc + 4) fun t => t.setReg rd.val (if (word s u ra).toInt ≤ (word s u rb).toInt then (word s u rb).toNat else (word s u ra).toNat))) ∧
  (∀ (s : State) (u : Issue) (rd ra rb : Fin 32), runs s u = true → rd.val < 24 → ra.val < 24 → rb.val < 24 →
      exec (.minu u rd ra rb) s = .next ((issued s u).retire (thr u) ((s.th (thr u)).pc + 4) fun t => t.setReg rd.val (if (word s u ra).toNat ≤ (word s u rb).toNat then (word s u ra).toNat else (word s u rb).toNat))) ∧
  (∀ (s : State) (u : Issue) (rd ra rb : Fin 32), runs s u = true → rd.val < 24 → ra.val < 24 → rb.val < 24 →
      exec (.maxu u rd ra rb) s = .next ((issued s u).retire (thr u) ((s.th (thr u)).pc + 4) fun t => t.setReg rd.val (if (word s u ra).toNat ≤ (word s u rb).toNat then (word s u rb).toNat else (word s u ra).toNat))) ∧
  (∀ (s : State) (u : Issue) (rd ra rb : Fin 32), runs s u = true → rd.val < 24 → ra.val < 24 → rb.val < 24 →
      exec (.andn u rd ra rb) s = .next ((issued s u).retire (thr u) ((s.th (thr u)).pc + 4) fun t => t.setReg rd.val ((word s u ra &&& ~~~(word s u rb)).toNat))) ∧
  (∀ (s : State) (u : Issue) (rd ra rb : Fin 32), runs s u = true → rd.val < 24 → ra.val < 24 → rb.val < 24 →
      exec (.rotr u rd ra rb) s = .next ((issued s u).retire (thr u) ((s.th (thr u)).pc + 4) fun t => t.setReg rd.val (((word s u ra).rotateRight ((word s u rb).toNat % 32)).toNat))) ∧
  (∀ (s : State) (u : Issue) (rd ra : Fin 32), runs s u = true → rd.val < 24 → ra.val < 24 →
      exec (.clz u rd ra) s = .next ((issued s u).retire (thr u) ((s.th (thr u)).pc + 4) fun t => t.setReg rd.val (((List.range 32).find? fun n => (word s u ra).getMsbD n).getD 32))) ∧
  (∀ (s : State) (u : Issue) (rd ra : Fin 32), runs s u = true → rd.val < 24 → ra.val < 24 →
      exec (.ctz u rd ra) s = .next ((issued s u).retire (thr u) ((s.th (thr u)).pc + 4) fun t => t.setReg rd.val (((List.range 32).find? fun n => (word s u ra).getLsbD n).getD 32))) ∧
  (∀ (s : State) (u : Issue) (rd ra : Fin 32), runs s u = true → rd.val < 24 → ra.val < 24 →
      exec (.popc u rd ra) s = .next ((issued s u).retire (thr u) ((s.th (thr u)).pc + 4) fun t => t.setReg rd.val (((List.range 32).filter fun n => (word s u ra).getLsbD n).length))) ∧
  (∀ (s : State) (u : Issue) (rd ra : Fin 32), runs s u = true → rd.val < 24 → ra.val < 24 →
      exec (.bswap u rd ra) s = .next ((issued s u).retire (thr u) ((s.th (thr u)).pc + 4) fun t => t.setReg rd.val (((word s u ra).extractLsb' 0 8 ++ (word s u ra).extractLsb' 8 8 ++ (word s u ra).extractLsb' 16 8 ++ (word s u ra).extractLsb' 24 8).toNat))) ∧
  (∀ (s : State) (u : Issue) (rd ra : Fin 32), runs s u = true → rd.val < 24 → ra.val < 24 →
      exec (.sextb u rd ra) s = .next ((issued s u).retire (thr u) ((s.th (thr u)).pc + 4) fun t => t.setReg rd.val ((((word s u ra).extractLsb' 0 8).signExtend 32).toNat))) ∧
  (∀ (s : State) (u : Issue) (rd ra : Fin 32), runs s u = true → rd.val < 24 → ra.val < 24 →
      exec (.sexth u rd ra) s = .next ((issued s u).retire (thr u) ((s.th (thr u)).pc + 4) fun t => t.setReg rd.val ((((word s u ra).extractLsb' 0 16).signExtend 32).toNat))) ∧
  (∀ (s : State) (u : Issue) (rd ra rb : Fin 32), runs s u = true → (24 ≤ rd.val ∨ 24 ≤ ra.val ∨ 24 ≤ rb.val) → (s.th (thr u)).inTrap = false →
      Does (.add u rd ra rb) s fun r => trapped s r (thr u) 3 (2 ^ 21 * rd.val + 2 ^ 16 * ra.val + 2 ^ 11 * rb.val) (s.th (thr u)).pc)

/-- The shift-immediate group: SLLI, SRLI, SRAI and ROTRI. -/
def Obligations.ShiftImmediate : Prop :=
  (∀ (s : State) (u : Issue) (rd ra sh : Fin 32), runs s u = true → rd.val < 24 → ra.val < 24 →
      exec (.slli u rd ra sh) s = .next ((issued s u).retire (thr u) ((s.th (thr u)).pc + 4) fun t => t.setReg rd.val ((word s u ra <<< sh.val).toNat))) ∧
  (∀ (s : State) (u : Issue) (rd ra sh : Fin 32), runs s u = true → rd.val < 24 → ra.val < 24 →
      exec (.srli u rd ra sh) s = .next ((issued s u).retire (thr u) ((s.th (thr u)).pc + 4) fun t => t.setReg rd.val ((word s u ra >>> sh.val).toNat))) ∧
  (∀ (s : State) (u : Issue) (rd ra sh : Fin 32), runs s u = true → rd.val < 24 → ra.val < 24 →
      exec (.srai u rd ra sh) s = .next ((issued s u).retire (thr u) ((s.th (thr u)).pc + 4) fun t => t.setReg rd.val (((word s u ra).sshiftRight sh.val).toNat))) ∧
  (∀ (s : State) (u : Issue) (rd ra sh : Fin 32), runs s u = true → rd.val < 24 → ra.val < 24 →
      exec (.rotri u rd ra sh) s = .next ((issued s u).retire (thr u) ((s.th (thr u)).pc + 4) fun t => t.setReg rd.val (((word s u ra).rotateRight sh.val).toNat))) ∧
  (∀ (s : State) (u : Issue) (rd ra rb sh : Fin 32), runs s u = true → rd.val < 24 → ra.val < 24 → rb.val < 24 →
      word s u rb = BitVec.ofNat 32 sh.val → exec (.slli u rd ra sh) s = exec (.sll u rd ra rb) s) ∧
  (∀ (s : State) (u : Issue) (rd ra rb sh : Fin 32), runs s u = true → rd.val < 24 → ra.val < 24 → rb.val < 24 →
      word s u rb = BitVec.ofNat 32 sh.val → exec (.srli u rd ra sh) s = exec (.srl u rd ra rb) s) ∧
  (∀ (s : State) (u : Issue) (rd ra rb sh : Fin 32), runs s u = true → rd.val < 24 → ra.val < 24 → rb.val < 24 →
      word s u rb = BitVec.ofNat 32 sh.val → exec (.srai u rd ra sh) s = exec (.sra u rd ra rb) s) ∧
  (∀ (s : State) (u : Issue) (rd ra rb sh : Fin 32), runs s u = true → rd.val < 24 → ra.val < 24 → rb.val < 24 →
      word s u rb = BitVec.ofNat 32 sh.val → exec (.rotri u rd ra sh) s = exec (.rotr u rd ra rb) s) ∧
  (∀ (s : State) (u : Issue) (rd ra sh : Fin 32), runs s u = true → 24 ≤ rd.val ∨ 24 ≤ ra.val → (s.th (thr u)).inTrap = false →
      Does (.slli u rd ra sh) s fun r => trapped s r (thr u) 3 (2 ^ 26 * 0x28 + 2 ^ 21 * rd.val + 2 ^ 16 * ra.val + 2 ^ 11 * sh.val + 0x005) (s.th (thr u)).pc) ∧
  (∀ (s : State) (u : Issue) (rd ra sh : Fin 32), runs s u = true → 24 ≤ rd.val ∨ 24 ≤ ra.val → (s.th (thr u)).inTrap = false →
      Does (.srli u rd ra sh) s fun r => trapped s r (thr u) 3 (2 ^ 26 * 0x28 + 2 ^ 21 * rd.val + 2 ^ 16 * ra.val + 2 ^ 11 * sh.val + 0x006) (s.th (thr u)).pc) ∧
  (∀ (s : State) (u : Issue) (rd ra sh : Fin 32), runs s u = true → 24 ≤ rd.val ∨ 24 ≤ ra.val → (s.th (thr u)).inTrap = false →
      Does (.srai u rd ra sh) s fun r => trapped s r (thr u) 3 (2 ^ 26 * 0x28 + 2 ^ 21 * rd.val + 2 ^ 16 * ra.val + 2 ^ 11 * sh.val + 0x007) (s.th (thr u)).pc) ∧
  (∀ (s : State) (u : Issue) (rd ra sh : Fin 32), runs s u = true → 24 ≤ rd.val ∨ 24 ≤ ra.val → (s.th (thr u)).inTrap = false →
      Does (.rotri u rd ra sh) s fun r => trapped s r (thr u) 3 (2 ^ 26 * 0x28 + 2 ^ 21 * rd.val + 2 ^ 16 * ra.val + 2 ^ 11 * sh.val + 0x015) (s.th (thr u)).pc)

/-- The I-format operations: ADDI, ANDI, ORI, XORI, SLTI, SLTIU, LUI and ADDPC. -/
def Obligations.ImmediateOperations : Prop :=
  (∀ (s : State) (u : Issue) (rd ra : Fin 32) (imm : BitVec 16), runs s u = true → rd.val < 24 → ra.val < 24 →
      exec (.addi u rd ra imm) s = .next ((issued s u).retire (thr u) ((s.th (thr u)).pc + 4) fun t => t.setReg rd.val ((word s u ra + imm.signExtend 32).toNat))) ∧
  (∀ (s : State) (u : Issue) (rd ra : Fin 32) (imm : BitVec 16), runs s u = true → rd.val < 24 → ra.val < 24 →
      exec (.andi u rd ra imm) s = .next ((issued s u).retire (thr u) ((s.th (thr u)).pc + 4) fun t => t.setReg rd.val ((word s u ra &&& imm.zeroExtend 32).toNat))) ∧
  (∀ (s : State) (u : Issue) (rd ra : Fin 32) (imm : BitVec 16), runs s u = true → rd.val < 24 → ra.val < 24 →
      exec (.ori u rd ra imm) s = .next ((issued s u).retire (thr u) ((s.th (thr u)).pc + 4) fun t => t.setReg rd.val ((word s u ra ||| imm.zeroExtend 32).toNat))) ∧
  (∀ (s : State) (u : Issue) (rd ra : Fin 32) (imm : BitVec 16), runs s u = true → rd.val < 24 → ra.val < 24 →
      exec (.xori u rd ra imm) s = .next ((issued s u).retire (thr u) ((s.th (thr u)).pc + 4) fun t => t.setReg rd.val ((word s u ra ^^^ imm.zeroExtend 32).toNat))) ∧
  (∀ (s : State) (u : Issue) (rd ra : Fin 32) (imm : BitVec 16), runs s u = true → rd.val < 24 → ra.val < 24 →
      exec (.slti u rd ra imm) s = .next ((issued s u).retire (thr u) ((s.th (thr u)).pc + 4) fun t => t.setReg rd.val (if (word s u ra).slt (imm.signExtend 32) then 1 else 0))) ∧
  (∀ (s : State) (u : Issue) (rd ra : Fin 32) (imm : BitVec 16), runs s u = true → rd.val < 24 → ra.val < 24 →
      exec (.sltiu u rd ra imm) s = .next ((issued s u).retire (thr u) ((s.th (thr u)).pc + 4) fun t => t.setReg rd.val (if (word s u ra).ult (imm.signExtend 32) then 1 else 0))) ∧
  (∀ (s : State) (u : Issue) (rd : Fin 32) (imm : BitVec 16), runs s u = true → rd.val < 24 →
      exec (.lui u rd imm) s = .next ((issued s u).retire (thr u) ((s.th (thr u)).pc + 4) fun t => t.setReg rd.val (65536 * imm.toNat))) ∧
  (∀ (s : State) (u : Issue) (rd : Fin 32) (imm : BitVec 16), runs s u = true → rd.val < 24 →
      exec (.addpc u rd imm) s = .next ((issued s u).retire (thr u) ((s.th (thr u)).pc + 4) fun t => t.setReg rd.val ((BitVec.ofNat 32 (s.th (thr u)).pc + 4 * imm.signExtend 32).toNat))) ∧
  (∀ (s : State) (u : Issue) (rd : Fin 32) (imm : BitVec 16), runs s u = true → 24 ≤ rd.val → (s.th (thr u)).inTrap = false →
      Does (.lui u rd imm) s fun r => trapped s r (thr u) 3 (2 ^ 26 * 0x0E + 2 ^ 21 * rd.val + imm.toNat) (s.th (thr u)).pc) ∧
  (∀ (s : State) (u : Issue) (rd : Fin 32) (imm : BitVec 16), runs s u = true → 24 ≤ rd.val → (s.th (thr u)).inTrap = false →
      Does (.addpc u rd imm) s fun r => trapped s r (thr u) 3 (2 ^ 26 * 0x0F + 2 ^ 21 * rd.val + imm.toNat) (s.th (thr u)).pc) ∧
  (∀ (s t v : State) (u : Issue) (rd : Fin 32) (hi lo : BitVec 16), runs s u = true → rd.val < 24 → 0 < rd.val →
      exec (.lui u rd hi) s = .next t → runs t u = true → exec (.ori u rd rd lo) t = .next v →
      (v.th (thr u)).reg rd.val = 65536 * hi.toNat + lo.toNat) ∧
  (∀ (u : Issue) (pc a : Nat), pcOk (thr u) pc = true → pcOk (thr u) a = true →
      ∃ imm : BitVec 16, (BitVec.ofNat 32 pc + 4 * imm.signExtend 32).toNat = a)

/-- Products, and divisions with their waits and trap. -/
def Obligations.ProductsAndDivisions : Prop :=
  (∀ (s : State) (u : Issue) (rd ra rb : Fin 32), runs s u = true → rd.val < 24 → ra.val < 24 → rb.val < 24 →
      exec (.mul u rd ra rb) s = .next ((issued s u).retire (thr u) ((s.th (thr u)).pc + 4) fun t => t.setReg rd.val ((word s u ra * word s u rb).toNat))) ∧
  (∀ (s : State) (u : Issue) (rd ra rb : Fin 32), runs s u = true → rd.val < 24 → ra.val < 24 → rb.val < 24 →
      exec (.mulhs u rd ra rb) s = .next ((issued s u).retire (thr u) ((s.th (thr u)).pc + 4) fun t => t.setReg rd.val ((((word s u ra).signExtend 64 * (word s u rb).signExtend 64).extractLsb' 32 32).toNat))) ∧
  (∀ (s : State) (u : Issue) (rd ra rb : Fin 32), runs s u = true → rd.val < 24 → ra.val < 24 → rb.val < 24 →
      exec (.mulhu u rd ra rb) s = .next ((issued s u).retire (thr u) ((s.th (thr u)).pc + 4) fun t => t.setReg rd.val ((((word s u ra).zeroExtend 64 * (word s u rb).zeroExtend 64).extractLsb' 32 32).toNat))) ∧
  (∀ (s : State) (u : Issue) (rd ra rb : Fin 32), runs s u = true → rd.val < 24 → ra.val < 24 → rb.val < 24 → s.dividing u.core.val = false → word s u rb ≠ 0#32 →
      exec (.divs u rd ra rb) s = .next ((issued s u).updTh (thr u) fun t => { t with hold := .divide rd.val (((word s u ra).sdiv (word s u rb)).toNat) })) ∧
  (∀ (s : State) (u : Issue) (rd ra rb : Fin 32), runs s u = true → rd.val < 24 → ra.val < 24 → rb.val < 24 → s.dividing u.core.val = false → word s u rb ≠ 0#32 →
      exec (.divu u rd ra rb) s = .next ((issued s u).updTh (thr u) fun t => { t with hold := .divide rd.val (((word s u ra).udiv (word s u rb)).toNat) })) ∧
  (∀ (s : State) (u : Issue) (rd ra rb : Fin 32), runs s u = true → rd.val < 24 → ra.val < 24 → rb.val < 24 → s.dividing u.core.val = false → word s u rb ≠ 0#32 →
      exec (.rems u rd ra rb) s = .next ((issued s u).updTh (thr u) fun t => { t with hold := .divide rd.val (((word s u ra).srem (word s u rb)).toNat) })) ∧
  (∀ (s : State) (u : Issue) (rd ra rb : Fin 32), runs s u = true → rd.val < 24 → ra.val < 24 → rb.val < 24 → s.dividing u.core.val = false → word s u rb ≠ 0#32 →
      exec (.remu u rd ra rb) s = .next ((issued s u).updTh (thr u) fun t => { t with hold := .divide rd.val (((word s u ra).umod (word s u rb)).toNat) })) ∧
  (∀ (s : State) (u : Issue) (rd ra rb : Fin 32), runs s u = true → rd.val < 24 → ra.val < 24 → rb.val < 24 → s.dividing u.core.val = false → word s u rb = 0#32 → (s.th (thr u)).inTrap = false →
      Does (.divs u rd ra rb) s fun r => trapped s r (thr u) 10 0 (s.th (thr u)).pc) ∧
  (∀ (s : State) (u : Issue) (rd ra rb : Fin 32), runs s u = true → rd.val < 24 → ra.val < 24 → rb.val < 24 → s.dividing u.core.val = true →
      exec (.remu u rd ra rb) s = .next (s)) ∧
  (∀ (s : State) (core : Fin 5) (thread : Fin 4) (d v : Nat), (s.th (4 * core.val + thread.val)).hold = .divide d v → (s.th (4 * core.val + thread.val)).stopping = false →
      exec (.dividerDone core thread) s = .next (s.retire (4 * core.val + thread.val) ((s.th (4 * core.val + thread.val)).pc + 4) fun t => { t with hold := .none }.setReg d v))

/-- Loads, stores and atomics on local RAM, and what they leave. -/
def Obligations.LocalAccesses : Prop :=
  (∀ (s : State) (u : Issue) (rd ra : Fin 32) (imm : BitVec 16), runs s u = true → rd.val < 24 → ra.val < 24 → dataAt s u ra imm % 1 = 0 → dataAt s u ra imm + 1 ≤ lramSize u.core.val → eccBad u.data = false → (s.th (thr u)).stopping = false →
      Does (.lb u rd ra imm) s fun r => next u (s.th (thr u)) ((s.th (thr u)).setReg rd.val (((BitVec.ofNat 8 (s.leMem (lramBase u.core.val + dataAt s u ra imm) 1)).signExtend 32).toNat)) r ∧ still s r u ∧ r.mem = s.mem) ∧
  (∀ (s : State) (u : Issue) (rd ra : Fin 32) (imm : BitVec 16), runs s u = true → rd.val < 24 → ra.val < 24 → dataAt s u ra imm % 1 = 0 → dataAt s u ra imm + 1 ≤ lramSize u.core.val → eccBad u.data = false → (s.th (thr u)).stopping = false →
      Does (.lbu u rd ra imm) s fun r => next u (s.th (thr u)) ((s.th (thr u)).setReg rd.val (s.leMem (lramBase u.core.val + dataAt s u ra imm) 1)) r ∧ still s r u ∧ r.mem = s.mem) ∧
  (∀ (s : State) (u : Issue) (rd ra : Fin 32) (imm : BitVec 16), runs s u = true → rd.val < 24 → ra.val < 24 → dataAt s u ra imm % 2 = 0 → dataAt s u ra imm + 2 ≤ lramSize u.core.val → eccBad u.data = false → (s.th (thr u)).stopping = false →
      Does (.lh u rd ra imm) s fun r => next u (s.th (thr u)) ((s.th (thr u)).setReg rd.val (((BitVec.ofNat 16 (s.leMem (lramBase u.core.val + dataAt s u ra imm) 2)).signExtend 32).toNat)) r ∧ still s r u ∧ r.mem = s.mem) ∧
  (∀ (s : State) (u : Issue) (rd ra : Fin 32) (imm : BitVec 16), runs s u = true → rd.val < 24 → ra.val < 24 → dataAt s u ra imm % 2 = 0 → dataAt s u ra imm + 2 ≤ lramSize u.core.val → eccBad u.data = false → (s.th (thr u)).stopping = false →
      Does (.lhu u rd ra imm) s fun r => next u (s.th (thr u)) ((s.th (thr u)).setReg rd.val (s.leMem (lramBase u.core.val + dataAt s u ra imm) 2)) r ∧ still s r u ∧ r.mem = s.mem) ∧
  (∀ (s : State) (u : Issue) (rd ra : Fin 32) (imm : BitVec 16), runs s u = true → rd.val < 24 → ra.val < 24 → dataAt s u ra imm % 4 = 0 → dataAt s u ra imm + 4 ≤ lramSize u.core.val → eccBad u.data = false → (s.th (thr u)).stopping = false →
      Does (.lw u rd ra imm) s fun r => next u (s.th (thr u)) ((s.th (thr u)).setReg rd.val (s.leMem (lramBase u.core.val + dataAt s u ra imm) 4)) r ∧ still s r u ∧ r.mem = s.mem) ∧
  (∀ (s : State) (u : Issue) (rd ra : Fin 32) (imm : BitVec 16), runs s u = true → rd.val < 24 → ra.val < 24 → rd.val % 2 = 0 → dataAt s u ra imm % 8 = 0 → dataAt s u ra imm + 8 ≤ lramSize u.core.val → eccBad u.data = false → (s.th (thr u)).stopping = false →
      Does (.ldp u rd ra imm) s fun r => next u (s.th (thr u)) (((s.th (thr u)).setReg rd.val (s.leMem (lramBase u.core.val + dataAt s u ra imm) 4)).setReg (rd.val + 1) (s.leMem ((lramBase u.core.val + dataAt s u ra imm) + 4) 4)) r ∧ still s r u ∧ r.mem = s.mem) ∧
  (∀ (s : State) (u : Issue) (fd ra : Fin 32) (imm : BitVec 16), runs s u = true → u.core.val ≠ 4 → ra.val < 24 → dataAt s u ra imm % 4 = 0 → dataAt s u ra imm + 4 ≤ lramSize u.core.val → eccBad u.data = false → (s.th (thr u)).stopping = false →
      Does (.flw u fd ra imm) s fun r => next u (s.th (thr u)) ((s.th (thr u)).setFreg fd.val (0xFFFFFFFF00000000 + s.leMem (lramBase u.core.val + dataAt s u ra imm) 4)) r ∧ still s r u ∧ r.mem = s.mem) ∧
  (∀ (s : State) (u : Issue) (fd ra : Fin 32) (imm : BitVec 16), runs s u = true → u.core.val ≠ 4 → ra.val < 24 → dataAt s u ra imm % 8 = 0 → dataAt s u ra imm + 8 ≤ lramSize u.core.val → eccBad u.data = false → (s.th (thr u)).stopping = false →
      Does (.fld u fd ra imm) s fun r => next u (s.th (thr u)) ((s.th (thr u)).setFreg fd.val (s.leMem (lramBase u.core.val + dataAt s u ra imm) 8)) r ∧ still s r u ∧ r.mem = s.mem) ∧
  (∀ (s : State) (u : Issue) (rs ra : Fin 32) (imm : BitVec 16), runs s u = true → rs.val < 24 → ra.val < 24 → (s.th (thr u)).stopping = false → dataAt s u ra imm % 1 = 0 → dataAt s u ra imm + 1 ≤ lramSize u.core.val →
      Does (.sb u rs ra imm) s fun r => next u (s.th (thr u)) (s.th (thr u)) r ∧ still s r u ∧ r.leMem (lramBase u.core.val + dataAt s u ra imm) 1 = (word s u rs).toNat % 2 ^ 8 ∧ ∀ x, x < (lramBase u.core.val + dataAt s u ra imm) ∨ (lramBase u.core.val + dataAt s u ra imm) + 1 ≤ x → r.byte x = s.byte x) ∧
  (∀ (s : State) (u : Issue) (rs ra : Fin 32) (imm : BitVec 16), runs s u = true → rs.val < 24 → ra.val < 24 → (s.th (thr u)).stopping = false → dataAt s u ra imm % 2 = 0 → dataAt s u ra imm + 2 ≤ lramSize u.core.val →
      Does (.sh u rs ra imm) s fun r => next u (s.th (thr u)) (s.th (thr u)) r ∧ still s r u ∧ r.leMem (lramBase u.core.val + dataAt s u ra imm) 2 = (word s u rs).toNat % 2 ^ 16 ∧ ∀ x, x < (lramBase u.core.val + dataAt s u ra imm) ∨ (lramBase u.core.val + dataAt s u ra imm) + 2 ≤ x → r.byte x = s.byte x) ∧
  (∀ (s : State) (u : Issue) (rs ra : Fin 32) (imm : BitVec 16), runs s u = true → rs.val < 24 → ra.val < 24 → (s.th (thr u)).stopping = false → dataAt s u ra imm % 4 = 0 → dataAt s u ra imm + 4 ≤ lramSize u.core.val →
      Does (.sw u rs ra imm) s fun r => next u (s.th (thr u)) (s.th (thr u)) r ∧ still s r u ∧ r.leMem (lramBase u.core.val + dataAt s u ra imm) 4 = (word s u rs).toNat % 2 ^ 32 ∧ ∀ x, x < (lramBase u.core.val + dataAt s u ra imm) ∨ (lramBase u.core.val + dataAt s u ra imm) + 4 ≤ x → r.byte x = s.byte x) ∧
  (∀ (s : State) (u : Issue) (rs ra : Fin 32) (imm : BitVec 16), runs s u = true → rs.val < 24 → ra.val < 24 → rs.val % 2 = 0 → (s.th (thr u)).stopping = false → dataAt s u ra imm % 8 = 0 → dataAt s u ra imm + 8 ≤ lramSize u.core.val →
      Does (.stp u rs ra imm) s fun r => next u (s.th (thr u)) (s.th (thr u)) r ∧ still s r u ∧ r.leMem (lramBase u.core.val + dataAt s u ra imm) 4 = (word s u rs).toNat ∧ r.leMem ((lramBase u.core.val + dataAt s u ra imm) + 4) 4 = (s.th (thr u)).reg (rs.val + 1) ∧ ∀ x, x < (lramBase u.core.val + dataAt s u ra imm) ∨ (lramBase u.core.val + dataAt s u ra imm) + 8 ≤ x → r.byte x = s.byte x) ∧
  (∀ (s : State) (u : Issue) (fs ra : Fin 32) (imm : BitVec 16), runs s u = true → u.core.val ≠ 4 → ra.val < 24 → (s.th (thr u)).stopping = false → dataAt s u ra imm % 4 = 0 → dataAt s u ra imm + 4 ≤ lramSize u.core.val →
      Does (.fsw u fs ra imm) s fun r => next u (s.th (thr u)) (s.th (thr u)) r ∧ still s r u ∧ r.leMem (lramBase u.core.val + dataAt s u ra imm) 4 = (s.th (thr u)).freg fs.val % 2 ^ 32 ∧ ∀ x, x < (lramBase u.core.val + dataAt s u ra imm) ∨ (lramBase u.core.val + dataAt s u ra imm) + 4 ≤ x → r.byte x = s.byte x) ∧
  (∀ (s : State) (u : Issue) (fs ra : Fin 32) (imm : BitVec 16), runs s u = true → u.core.val ≠ 4 → ra.val < 24 → (s.th (thr u)).stopping = false → dataAt s u ra imm % 8 = 0 → dataAt s u ra imm + 8 ≤ lramSize u.core.val →
      Does (.fsd u fs ra imm) s fun r => next u (s.th (thr u)) (s.th (thr u)) r ∧ still s r u ∧ r.leMem (lramBase u.core.val + dataAt s u ra imm) 8 = (s.th (thr u)).freg fs.val ∧ ∀ x, x < (lramBase u.core.val + dataAt s u ra imm) ∨ (lramBase u.core.val + dataAt s u ra imm) + 8 ≤ x → r.byte x = s.byte x) ∧
  (∀ (s : State) (u : Issue) (rd ra rb : Fin 32), runs s u = true → rd.val < 24 → ra.val < 24 → rb.val < 24 → s.settled (thr u) = true → (word s u ra).toNat % 4 = 0 → (word s u ra).toNat + 4 ≤ lramSize u.core.val → eccBad u.data = false → (s.th (thr u)).stopping = false →
      Does (.amoadd u rd ra rb) s fun r => next u (s.th (thr u)) ((s.th (thr u)).setReg rd.val (s.leMem (lramBase u.core.val + (word s u ra).toNat) 4)) r ∧ still s r u ∧ r.leMem (lramBase u.core.val + (word s u ra).toNat) 4 = ((s.leMem (lramBase u.core.val + (word s u ra).toNat) 4) + (word s u rb).toNat) % 2 ^ 32 ∧ ∀ x, x < (lramBase u.core.val + (word s u ra).toNat) ∨ (lramBase u.core.val + (word s u ra).toNat) + 4 ≤ x → r.byte x = s.byte x) ∧
  (∀ (s : State) (u : Issue) (rd ra rb : Fin 32), runs s u = true → rd.val < 24 → ra.val < 24 → rb.val < 24 → s.settled (thr u) = true → (word s u ra).toNat % 4 = 0 → (word s u ra).toNat + 4 ≤ lramSize u.core.val → eccBad u.data = false → (s.th (thr u)).stopping = false →
      Does (.amoswap u rd ra rb) s fun r => next u (s.th (thr u)) ((s.th (thr u)).setReg rd.val (s.leMem (lramBase u.core.val + (word s u ra).toNat) 4)) r ∧ still s r u ∧ r.leMem (lramBase u.core.val + (word s u ra).toNat) 4 = (word s u rb).toNat ∧ ∀ x, x < (lramBase u.core.val + (word s u ra).toNat) ∨ (lramBase u.core.val + (word s u ra).toNat) + 4 ≤ x → r.byte x = s.byte x)

/-- What an access raises, and an access that leaves the core. -/
def Obligations.AccessTraps : Prop :=
  (∀ (s : State) (u : Issue) (rd ra : Fin 32) (imm : BitVec 16), runs s u = true → rd.val < 24 → ra.val < 24 → (s.th (thr u)).inTrap = false → dataAt s u ra imm % 4 ≠ 0 →
      Does (.lw u rd ra imm) s fun r => trapped s r (thr u) 8 (dataAt s u ra imm) (s.th (thr u)).pc) ∧
  (∀ (s : State) (u : Issue) (rs ra : Fin 32) (imm : BitVec 16), runs s u = true → rs.val < 24 → ra.val < 24 → (s.th (thr u)).inTrap = false → dataAt s u ra imm % 2 ≠ 0 →
      Does (.sh u rs ra imm) s fun r => trapped s r (thr u) 8 (dataAt s u ra imm) (s.th (thr u)).pc) ∧
  (∀ (s : State) (u : Issue) (rd ra : Fin 32) (imm : BitVec 16), runs s u = true → rd.val < 24 → ra.val < 24 → (s.th (thr u)).inTrap = false → rd.val % 2 = 1 →
      Does (.ldp u rd ra imm) s fun r => trapped s r (thr u) 3 (0x54000000 + 2 ^ 21 * rd.val + 2 ^ 16 * ra.val + imm.toNat) (s.th (thr u)).pc) ∧
  (∀ (s : State) (u : Issue) (rd ra : Fin 32) (imm : BitVec 16), runs s u = true → rd.val < 24 → ra.val < 24 → (s.th (thr u)).inTrap = false → dataAt s u ra imm % 4 = 0 → dataAt s u ra imm < 2 ^ 28 → lramSize u.core.val ≤ dataAt s u ra imm →
      Does (.lw u rd ra imm) s fun r => trapped s r (thr u) 9 (dataAt s u ra imm) (s.th (thr u)).pc) ∧
  (∀ (s : State) (u : Issue) (rs ra : Fin 32) (imm : BitVec 16), runs s u = true → rs.val < 24 → ra.val < 24 → (s.th (thr u)).inTrap = false → dataAt s u ra imm % 4 = 0 → (s.aperture u.core.val (dataAt s u ra imm / 2 ^ 28)).valid = false →
      Does (.sw u rs ra imm) s fun r => trapped s r (thr u) 9 (dataAt s u ra imm) (s.th (thr u)).pc) ∧
  (∀ (s : State) (u : Issue) (rd ra rb : Fin 32), runs s u = true → rd.val < 24 → ra.val < 24 → rb.val < 24 → (s.th (thr u)).inTrap = false → s.settled (thr u) = true → (word s u ra).toNat % 4 = 0 → 0xF0000000 ≤ (word s u ra).toNat →
      Does (.amoadd u rd ra rb) s fun r => trapped s r (thr u) 9 (word s u ra).toNat (s.th (thr u)).pc) ∧
  (∀ (s : State) (u : Issue) (rd ra : Fin 32) (imm : BitVec 16), runs s u = true → rd.val < 24 → ra.val < 24 → (s.th (thr u)).inTrap = false → dataAt s u ra imm % 4 = 0 → dataAt s u ra imm + 4 ≤ lramSize u.core.val → u.data = [(dataAt s u ra imm, .uncorrectable)] → u.fetch = .good →
      Does (.lw u rd ra imm) s fun r => trapped s r (thr u) 11 (dataAt s u ra imm) (s.th (thr u)).pc ∧ r.get CPU_LRAM_UNCORR_CNT.count u.core.val = min (2 ^ 32 - 1) (s.get CPU_LRAM_UNCORR_CNT.count u.core.val + 1)) ∧
  (∀ (s : State) (u : Issue) (rd ra : Fin 32) (imm : BitVec 16), runs s u = true → rd.val < 24 → ra.val < 24 → dataAt s u ra imm % 4 = 0 → 2 ^ 28 ≤ dataAt s u ra imm → (s.aperture u.core.val (dataAt s u ra imm / 2 ^ 28)).valid = true → (s.freeTag (thr u)).isSome = true → u.core.val ≠ 4 →
      Does (.lw u rd ra imm) s fun r => (r.th (thr u)).hold = .access { todo := [.load (dataAt s u ra imm) 4], after := .word rd.val 4 false, phys := (s.physical u.core.val (dataAt s u ra imm)) } ∧ (r.th (thr u)).pc = (s.th (thr u)).pc ∧ (r.ring.outs.getLast?).map (fun x => (x.ini, x.len)) = some (thr u, 4) ∧ r.mem = s.mem) ∧
  (∀ (s : State) (u : Issue) (rs ra : Fin 32) (imm : BitVec 16), runs s u = true → rs.val < 24 → ra.val < 24 → dataAt s u ra imm % 4 = 0 → 2 ^ 28 ≤ dataAt s u ra imm → (s.aperture u.core.val (dataAt s u ra imm / 2 ^ 28)).valid = true → (s.freeTag (thr u)).isSome = true → u.core.val ≠ 4 → eventsThread (s.physical u.core.val (dataAt s u ra imm)) 4 = none → (s.th (thr u)).stopping = false → dataAt s u ra imm < 0xF0000000 → (s.aperture u.core.val (dataAt s u ra imm / 2 ^ 28)).posted = true →
      Does (.sw u rs ra imm) s fun r => next u (s.th (thr u)) (s.th (thr u)) r ∧ (r.ring.outs.getLast?).map (fun x => (x.ini, x.len)) = some (thr u, 4) ∧ r.mem = s.mem) ∧
  (∀ (s : State) (u : Issue) (rs ra : Fin 32) (imm : BitVec 16), runs s u = true → rs.val < 24 → ra.val < 24 → dataAt s u ra imm % 4 = 0 → 2 ^ 28 ≤ dataAt s u ra imm → (s.aperture u.core.val (dataAt s u ra imm / 2 ^ 28)).valid = true → (s.freeTag (thr u)).isSome = true → u.core.val ≠ 4 → eventsThread (s.physical u.core.val (dataAt s u ra imm)) 4 = none → (0xF0000000 ≤ dataAt s u ra imm ∨ (s.aperture u.core.val (dataAt s u ra imm / 2 ^ 28)).posted = false) →
      Does (.sw u rs ra imm) s fun r => (r.th (thr u)).hold = .access { todo := [.store (dataAt s u ra imm) 4 (word s u rs).toNat], after := .nothing, phys := (s.physical u.core.val (dataAt s u ra imm)) } ∧ (r.ring.outs.getLast?).map (fun x => (x.ini, x.len)) = some (thr u, 4) ∧ r.mem = s.mem) ∧
  (∀ (s : State) (u : Issue) (rd ra : Fin 32) (imm : BitVec 16), runs s u = true → rd.val < 24 → ra.val < 24 → dataAt s u ra imm % 4 = 0 → 2 ^ 28 ≤ dataAt s u ra imm → (s.aperture u.core.val (dataAt s u ra imm / 2 ^ 28)).valid = true → s.freeTag (thr u) = none → u.core.val ≠ 4 →
      Does (.lw u rd ra imm) s fun r => noStall r = false ∧ (r.th (thr u)).pc = (s.th (thr u)).pc) ∧
  (∀ (s : State) (k lat : Nat) (q : Rsp) (x : Txn) (a d p : Nat), s.awake = true → s.ring.rsps[k]? = some q → s.ring.outs.find? (fun y => y.ini == q.ini && y.slot == q.slot) = some x → x.epoch = q.epoch → x.purpose = .wait → x.ini = q.ini → s.ring.held = [] → noStall s = true → x.ini < 17 → q.cmd = .read → (s.th x.ini).hold = .access { todo := [.load a 4], after := .word d 4 false, phys := p } → (s.th x.ini).stopping = false → q.status = 0 →
      Does (.readData k lat []) s fun r => (r.th x.ini) = { (s.th x.ini).setReg d (leNat q.data) with hold := .none, pc := (s.th x.ini).pc + 4, instret := ((s.th x.ini).instret + 1) % 2 ^ 64 }) ∧
  (∀ (s : State) (k lat : Nat) (q : Rsp) (x : Txn) (a d p : Nat), s.awake = true → s.ring.rsps[k]? = some q → s.ring.outs.find? (fun y => y.ini == q.ini && y.slot == q.slot) = some x → x.epoch = q.epoch → x.purpose = .wait → x.ini = q.ini → s.ring.held = [] → noStall s = true → x.ini < 17 → q.cmd = .read → (s.th x.ini).hold = .access { todo := [.load a 4], after := .word d 4 false, phys := p } → (s.th x.ini).stopping = false → q.status ≠ 0 → (s.th x.ini).inTrap = false → a < 2 ^ 32 →
      Does (.readData k lat []) s fun r => trapped s r x.ini 12 a (s.th x.ini).pc)

/-- Branches, jumps, calls, returns and register windows. -/
def Obligations.Transfers : Prop :=
  (∀ (s : State) (u : Issue) (ra rb : Fin 32) (disp : BitVec 16), runs s u = true → ra.val < 24 → rb.val < 24 → (word s u ra = word s u rb → pcOk (thr u) (BitVec.ofNat 32 (s.th (thr u)).pc + 4 * disp.signExtend 32).toNat = true) →
      exec (.beq u ra rb disp) s = .next ((issued s u).retire (thr u) (if word s u ra = word s u rb then (BitVec.ofNat 32 (s.th (thr u)).pc + 4 * disp.signExtend 32).toNat else (s.th (thr u)).pc + 4))) ∧
  (∀ (s : State) (u : Issue) (ra rb : Fin 32) (disp : BitVec 16), runs s u = true → ra.val < 24 → rb.val < 24 → (word s u ra ≠ word s u rb → pcOk (thr u) (BitVec.ofNat 32 (s.th (thr u)).pc + 4 * disp.signExtend 32).toNat = true) →
      exec (.bne u ra rb disp) s = .next ((issued s u).retire (thr u) (if word s u ra ≠ word s u rb then (BitVec.ofNat 32 (s.th (thr u)).pc + 4 * disp.signExtend 32).toNat else (s.th (thr u)).pc + 4))) ∧
  (∀ (s : State) (u : Issue) (ra rb : Fin 32) (disp : BitVec 16), runs s u = true → ra.val < 24 → rb.val < 24 → ((word s u ra).toInt < (word s u rb).toInt → pcOk (thr u) (BitVec.ofNat 32 (s.th (thr u)).pc + 4 * disp.signExtend 32).toNat = true) →
      exec (.blt u ra rb disp) s = .next ((issued s u).retire (thr u) (if (word s u ra).toInt < (word s u rb).toInt then (BitVec.ofNat 32 (s.th (thr u)).pc + 4 * disp.signExtend 32).toNat else (s.th (thr u)).pc + 4))) ∧
  (∀ (s : State) (u : Issue) (ra rb : Fin 32) (disp : BitVec 16), runs s u = true → ra.val < 24 → rb.val < 24 → ((word s u ra).toInt ≥ (word s u rb).toInt → pcOk (thr u) (BitVec.ofNat 32 (s.th (thr u)).pc + 4 * disp.signExtend 32).toNat = true) →
      exec (.bge u ra rb disp) s = .next ((issued s u).retire (thr u) (if (word s u ra).toInt ≥ (word s u rb).toInt then (BitVec.ofNat 32 (s.th (thr u)).pc + 4 * disp.signExtend 32).toNat else (s.th (thr u)).pc + 4))) ∧
  (∀ (s : State) (u : Issue) (ra rb : Fin 32) (disp : BitVec 16), runs s u = true → ra.val < 24 → rb.val < 24 → ((word s u ra).toNat < (word s u rb).toNat → pcOk (thr u) (BitVec.ofNat 32 (s.th (thr u)).pc + 4 * disp.signExtend 32).toNat = true) →
      exec (.bltu u ra rb disp) s = .next ((issued s u).retire (thr u) (if (word s u ra).toNat < (word s u rb).toNat then (BitVec.ofNat 32 (s.th (thr u)).pc + 4 * disp.signExtend 32).toNat else (s.th (thr u)).pc + 4))) ∧
  (∀ (s : State) (u : Issue) (ra rb : Fin 32) (disp : BitVec 16), runs s u = true → ra.val < 24 → rb.val < 24 → ((word s u ra).toNat ≥ (word s u rb).toNat → pcOk (thr u) (BitVec.ofNat 32 (s.th (thr u)).pc + 4 * disp.signExtend 32).toNat = true) →
      exec (.bgeu u ra rb disp) s = .next ((issued s u).retire (thr u) (if (word s u ra).toNat ≥ (word s u rb).toNat then (BitVec.ofNat 32 (s.th (thr u)).pc + 4 * disp.signExtend 32).toNat else (s.th (thr u)).pc + 4))) ∧
  (∀ (s : State) (u : Issue) (ra rb : Fin 32) (disp : BitVec 16), runs s u = true → ra.val < 24 → rb.val < 24 → (s.th (thr u)).inTrap = false → word s u ra = word s u rb → pcOk (thr u) (BitVec.ofNat 32 (s.th (thr u)).pc + 4 * disp.signExtend 32).toNat = false →
      Does (.beq u ra rb disp) s fun r => trapped s r (thr u) 1 (BitVec.ofNat 32 (s.th (thr u)).pc + 4 * disp.signExtend 32).toNat (s.th (thr u)).pc) ∧
  (∀ (s : State) (u : Issue) (disp : BitVec 26), runs s u = true → pcOk (thr u) (BitVec.ofNat 32 (s.th (thr u)).pc + 4 * disp.signExtend 32).toNat = true →
      exec (.jmp u disp) s = .next ((issued s u).retire (thr u) (BitVec.ofNat 32 (s.th (thr u)).pc + 4 * disp.signExtend 32).toNat)) ∧
  (∀ (s : State) (u : Issue) (disp : BitVec 26), runs s u = true → (s.th (thr u)).inTrap = false → (s.th (thr u)).rstack.length < 128 → pcOk (thr u) (BitVec.ofNat 32 (s.th (thr u)).pc + 4 * disp.signExtend 32).toNat = true →
      exec (.call u disp) s = .next ((issued s u).retire (thr u) (BitVec.ofNat 32 (s.th (thr u)).pc + 4 * disp.signExtend 32).toNat fun t => { t with rstack := ((s.th (thr u)).pc + 4) :: (s.th (thr u)).rstack })) ∧
  (∀ (s : State) (u : Issue) (disp : BitVec 26), runs s u = true → (s.th (thr u)).inTrap = false → (s.th (thr u)).rstack.length = 128 → pcOk (thr u) (BitVec.ofNat 32 (s.th (thr u)).pc + 4 * disp.signExtend 32).toNat = true →
      Does (.call u disp) s fun r => trapped s r (thr u) 4 128 (s.th (thr u)).pc) ∧
  (∀ (s : State) (u : Issue) (ra : Fin 32), runs s u = true → ra.val < 24 → pcOk (thr u) (word s u ra).toNat = true →
      exec (.jr u ra) s = .next ((issued s u).retire (thr u) (word s u ra).toNat)) ∧
  (∀ (s : State) (u : Issue) (ra : Fin 32), runs s u = true → (s.th (thr u)).inTrap = false → (s.th (thr u)).rstack.length < 128 → ra.val < 24 → pcOk (thr u) (word s u ra).toNat = true →
      exec (.callr u ra) s = .next ((issued s u).retire (thr u) (word s u ra).toNat fun t => { t with rstack := ((s.th (thr u)).pc + 4) :: (s.th (thr u)).rstack })) ∧
  (∀ (s : State) (u : Issue) (a : Nat) (rest : List Nat), runs s u = true → (s.th (thr u)).inTrap = false → (s.th (thr u)).rstack = a :: rest → pcOk (thr u) a = true →
      exec (.ret u) s = .next ((issued s u).retire (thr u) a fun t => { t with rstack := rest })) ∧
  (∀ (s : State) (u : Issue), runs s u = true → (s.th (thr u)).inTrap = false → (s.th (thr u)).rstack = [] →
      Does (.ret u) s fun r => trapped s r (thr u) 5 0 (s.th (thr u)).pc) ∧
  (∀ (s : State) (u : Issue) (a : Nat) (rest : List Nat), runs s u = true → (s.th (thr u)).inTrap = false → (s.th (thr u)).rstack = a :: rest → pcOk (thr u) a = true → 1 < (s.th (thr u)).live →
      Does (.retc u) s fun r => (r.th (thr u)).cur = ((s.th (thr u)).cur + 7) % 8 ∧ (r.th (thr u)).live = (s.th (thr u)).live - 1 ∧ (r.th (thr u)).pc = a ∧ (r.th (thr u)).rstack = rest ∧ ∀ i < 4, (r.th (thr u)).reg (20 + i) = (s.th (thr u)).reg (8 + i)) ∧
  (∀ (s : State) (u : Issue), runs s u = true → (s.th (thr u)).stopping = false → (s.th (thr u)).inTrap = true → 1 < (s.th (thr u)).live → (s.th (thr u)).reg 7 % 4 = 0 → 64 ≤ (s.th (thr u)).reg 7 → (s.th (thr u)).reg 7 ≤ lramSize u.core.val →
      Does (.spill u) s fun r => (r.th (thr u)).live = (s.th (thr u)).live - 1 ∧ (r.th (thr u)).reg 7 = (s.th (thr u)).reg 7 - 64 ∧ (r.th (thr u)).pc = (s.th (thr u)).pc + 4 ∧ ∀ i < 16, r.leMem (lramBase u.core.val + (s.th (thr u)).reg 7 - 64 + 4 * i) 4 = Sparse.get 0 (s.th (thr u)).w (16 * (((s.th (thr u)).cur + 8 - (s.th (thr u)).live + 1) % 8) + i) % 2 ^ 32) ∧
  (∀ (s : State) (u : Issue), runs s u = true → (s.th (thr u)).inTrap = true → (s.th (thr u)).live < 8 → (s.th (thr u)).reg 7 % 4 = 0 → (s.th (thr u)).reg 7 + 64 ≤ lramSize u.core.val → eccBad u.data = false → (s.th (thr u)).stopping = false →
      Does (.fill u) s fun r => (r.th (thr u)).live = (s.th (thr u)).live + 1 ∧ (r.th (thr u)).reg 7 = (s.th (thr u)).reg 7 + 64 ∧ (r.th (thr u)).pc = (s.th (thr u)).pc + 4 ∧ r.mem = s.mem ∧ ∀ i < 16, Sparse.get 0 (r.th (thr u)).w (16 * (((s.th (thr u)).cur + 8 - (s.th (thr u)).live) % 8) + i) = s.leMem (lramBase u.core.val + (s.th (thr u)).reg 7 + 4 * i) 4) ∧
  (∀ (s : State) (u : Issue), runs s u = true → (s.th (thr u)).inTrap = false →
      Does (.spill u) s fun r => trapped s r (thr u) 3 0x08000002 (s.th (thr u)).pc)

/-- WOPEN and WCLOSE: the copy and CC_WSTATE, or the window trap. -/
def Obligations.WindowInstructions : Prop :=
  (∀ (s : State) (u : Issue), runs s u = true → (s.th (thr u)).inTrap = false → (s.th (thr u)).live < 8 →
      Does (.wopen u) s fun r => (r.th (thr u)).cur = ((s.th (thr u)).cur + 1) % 8 ∧ (r.th (thr u)).live = (s.th (thr u)).live + 1 ∧ (r.th (thr u)).pc = (s.th (thr u)).pc + 4 ∧ (r.th (thr u)).g = (s.th (thr u)).g ∧ ∀ i < 4, (r.th (thr u)).reg (8 + i) = (s.th (thr u)).reg (20 + i) ∧ ∀ k < 144, ¬ (16 * (r.th (thr u)).cur + 0 ≤ k ∧ k < 16 * (r.th (thr u)).cur + 4) → Sparse.get 0 (r.th (thr u)).w k = Sparse.get 0 (s.th (thr u)).w k) ∧
  (∀ (s : State) (u : Issue), runs s u = true → (s.th (thr u)).inTrap = false → (s.th (thr u)).live = 8 →
      Does (.wopen u) s fun r => trapped s r (thr u) 6 ((s.th (thr u)).cur + 16 * 8) (s.th (thr u)).pc) ∧
  (∀ (s : State) (u : Issue), runs s u = true → (s.th (thr u)).inTrap = false → 1 < (s.th (thr u)).live →
      Does (.wclose u) s fun r => (r.th (thr u)).cur = ((s.th (thr u)).cur + 7) % 8 ∧ (r.th (thr u)).live = (s.th (thr u)).live - 1 ∧ (r.th (thr u)).pc = (s.th (thr u)).pc + 4 ∧ (r.th (thr u)).g = (s.th (thr u)).g ∧ ∀ i < 4, (r.th (thr u)).reg (20 + i) = (s.th (thr u)).reg (8 + i) ∧ ∀ k < 144, ¬ (16 * (r.th (thr u)).cur + 12 ≤ k ∧ k < 16 * (r.th (thr u)).cur + 16) → Sparse.get 0 (r.th (thr u)).w k = Sparse.get 0 (s.th (thr u)).w k) ∧
  (∀ (s : State) (u : Issue), runs s u = true → (s.th (thr u)).inTrap = false → (s.th (thr u)).live = 1 →
      Does (.wclose u) s fun r => trapped s r (thr u) 7 ((s.th (thr u)).cur + 16) (s.th (thr u)).pc)

/-- Traps, fences, control registers, events and breakpoints of the SYS group. That CC_FCSR.pending ignores a write and
that a trap does not retire are the model's choices (log entry 82, log entry 83). -/
def Obligations.SystemInstructions : Prop :=
  (∀ (s : State) (u : Issue) (rb : Fin 32), runs s u = true → (s.th (thr u)).inTrap = false →
      Does (.trap u rb) s fun r => trapped s r (thr u) 13 rb.val ((s.th (thr u)).pc + 4)) ∧
  (∀ (s : State) (u : Issue), runs s u = true → (s.th (thr u)).inTrap = true → pcOk (thr u) (s.th (thr u)).resume = true →
      exec (.tret u) s = .next ((issued s u).retire (thr u) (s.th (thr u)).resume fun t => { t with inTrap := false, rstack := if t.rsReset then [] else t.rstack, rsReset := false })) ∧
  (∀ (s : State) (u : Issue), runs s u = true → (s.th (thr u)).inTrap = false →
      Does (.tret u) s fun r => trapped s r (thr u) 3 0x08000009 (s.th (thr u)).pc) ∧
  (∀ (s : State) (u : Issue), runs s u = true → s.settled (thr u) = true →
      exec (.fence u) s = .next ((issued s u).retire (thr u) ((s.th (thr u)).pc + 4))) ∧
  (∀ (s : State) (u : Issue), runs s u = true → s.settled (thr u) = false →
      exec (.fence u) s = .next (s)) ∧
  (∀ (s : State) (u : Issue), runs s u = true → u.core.val ≠ 4 → (s.th (thr u)).fpOps = [] →
      exec (.fsync u) s = .next ((issued s u).retire (thr u) ((s.th (thr u)).pc + 4))) ∧
  (∀ (s : State) (u : Issue), runs s u = true → u.core.val = 4 → (s.th (thr u)).inTrap = false →
      Does (.fsync u) s fun r => trapped s r (thr u) 3 0x0800000B (s.th (thr u)).pc) ∧
  (∀ (s : State) (u : Issue) (rd ccr : Fin 32), runs s u = true → rd.val < 24 → 0 < rd.val → ccr.val ≠ 3 → ccr.val < 16 →
      Does (.mfc u rd ccr) s fun r => (r.th (thr u)).pc = (s.th (thr u)).pc + 4 ∧ (ccr.val = 0 → (r.th (thr u)).reg rd.val = (u.thread.val + 4 * u.core.val) % 2 ^ 32) ∧ (ccr.val = 1 → (r.th (thr u)).reg rd.val = ((s.th (thr u)).cur + 16 * (s.th (thr u)).live) % 2 ^ 32) ∧ (ccr.val = 2 → (r.th (thr u)).reg rd.val = ((s.th (thr u)).rstack.length) % 2 ^ 32) ∧ (ccr.val = 4 → (r.th (thr u)).reg rd.val = (((s.core u.core.val).cycles + u.cycles) % 2 ^ 64 % 2 ^ 32) % 2 ^ 32) ∧ (ccr.val = 5 → (r.th (thr u)).reg rd.val = ((s.core u.core.val).cycleHi) % 2 ^ 32) ∧ (ccr.val = 6 → (r.th (thr u)).reg rd.val = ((s.th (thr u)).instret % 2 ^ 32) % 2 ^ 32) ∧ (ccr.val = 7 → (r.th (thr u)).reg rd.val = ((s.th (thr u)).instretHi) % 2 ^ 32) ∧ (ccr.val = 8 → (r.th (thr u)).reg rd.val = ((s.th (thr u)).events) % 2 ^ 32) ∧ (ccr.val = 9 → (r.th (thr u)).reg rd.val = ((s.th (thr u)).prio) % 2 ^ 32) ∧ (ccr.val = 10 → (r.th (thr u)).reg rd.val = (1024 * (s.th (thr u)).trapbase) % 2 ^ 32) ∧ (ccr.val = 11 → (r.th (thr u)).reg rd.val = ((s.th (thr u)).resume) % 2 ^ 32) ∧ (ccr.val = 12 → (r.th (thr u)).reg rd.val = ((s.th (thr u)).trapcode) % 2 ^ 32) ∧ (ccr.val = 13 → (r.th (thr u)).reg rd.val = ((s.th (thr u)).trapinfo) % 2 ^ 32) ∧ (ccr.val = 14 → (r.th (thr u)).reg rd.val = ((if (s.th (thr u)).rsReset then 1 else 0)) % 2 ^ 32) ∧ (ccr.val = 15 → (r.th (thr u)).reg rd.val = ((s.th (thr u)).trapscr) % 2 ^ 32) ∧ (ccr.val = 4 → (r.core u.core.val).cycleHi = ((s.core u.core.val).cycles + u.cycles) % 2 ^ 64 / 2 ^ 32) ∧ (ccr.val = 6 → (r.th (thr u)).instretHi = (s.th (thr u)).instret / 2 ^ 32)) ∧
  (∀ (s : State) (u : Issue) (rd ccr : Fin 32), runs s u = true → rd.val < 24 → ccr.val = 3 → u.core.val ≠ 4 → (s.th (thr u)).fpOps = [] →
      Does (.mfc u rd ccr) s fun r => next u (s.th (thr u)) ((s.th (thr u)).setReg rd.val ((s.th (thr u)).flags + 256 * (s.th (thr u)).enables + 65536 * (s.th (thr u)).rm + (if (s.th (thr u)).ftz then 2 ^ 20 else 0) + (if (s.th (thr u)).fpPend.isSome then 2 ^ 24 else 0))) r) ∧
  (∀ (s : State) (u : Issue) (rd ccr : Fin 32), runs s u = true → rd.val < 24 → 16 ≤ ccr.val →
      Does (.mfc u rd ccr) s fun r => next u (s.th (thr u)) ((s.th (thr u)).setReg rd.val ((s.aperture u.core.val (ccr.val - 16)).base + (if (s.aperture u.core.val (ccr.val - 16)).valid then 65536 else 0) + (if (s.aperture u.core.val (ccr.val - 16)).posted then 131072 else 0))) r) ∧
  (∀ (s : State) (u : Issue) (ccr ra : Fin 32), runs s u = true → ra.val < 24 → ccr.val = 9 →
      Does (.mtc u ccr ra) s fun r => next u (s.th (thr u)) { (s.th (thr u)) with prio := (word s u ra).toNat % 8 } r) ∧
  (∀ (s : State) (u : Issue) (ccr ra : Fin 32), runs s u = true → ra.val < 24 → ccr.val = 10 →
      Does (.mtc u ccr ra) s fun r => next u (s.th (thr u)) { (s.th (thr u)) with trapbase := (word s u ra).toNat / 1024 % 128 } r) ∧
  (∀ (s : State) (u : Issue) (ccr ra : Fin 32), runs s u = true → ra.val < 24 → ccr.val = 15 →
      Does (.mtc u ccr ra) s fun r => next u (s.th (thr u)) { (s.th (thr u)) with trapscr := (word s u ra).toNat } r) ∧
  (∀ (s : State) (u : Issue) (ccr ra : Fin 32), runs s u = true → ra.val < 24 → ccr.val = 3 → u.core.val ≠ 4 → (s.th (thr u)).fpOps = [] →
      Does (.mtc u ccr ra) s fun r => next u (s.th (thr u)) { (s.th (thr u)) with flags := (word s u ra).toNat % 32, enables := (word s u ra).toNat / 256 % 32, rm := (word s u ra).toNat / 65536 % 8, ftz := (word s u ra).getLsbD 20 } r) ∧
  (∀ (s : State) (u : Issue) (ccr ra : Fin 32), runs s u = true → ra.val < 24 → ccr.val = 11 → (s.th (thr u)).inTrap = true →
      Does (.mtc u ccr ra) s fun r => next u (s.th (thr u)) { (s.th (thr u)) with resume := (word s u ra).toNat / 4 * 4 } r) ∧
  (∀ (s : State) (u : Issue) (ccr ra : Fin 32), runs s u = true → ra.val < 24 → ccr.val = 14 → (s.th (thr u)).inTrap = true →
      Does (.mtc u ccr ra) s fun r => next u (s.th (thr u)) { (s.th (thr u)) with rsReset := (s.th (thr u)).rsReset || (word s u ra).getLsbD 0 } r) ∧
  (∀ (s : State) (u : Issue) (ccr ra : Fin 32), runs s u = true → ra.val < 24 → ccr.val = 1 → (s.th (thr u)).inTrap = true → 0 < (word s u ra).toNat / 16 % 16 → (word s u ra).toNat / 16 % 16 ≤ 8 →
      Does (.mtc u ccr ra) s fun r => next u (s.th (thr u)) { (s.th (thr u)) with cur := (word s u ra).toNat % 8, live := (word s u ra).toNat / 16 % 16 } r) ∧
  (∀ (s : State) (u : Issue) (ccr ra : Fin 32), runs s u = true → ra.val < 24 → 17 ≤ ccr.val → ccr.val ≤ 30 →
      Does (.mtc u ccr ra) s fun r => (r.aperture u.core.val (ccr.val - 16)) = { base := (word s u ra).toNat % 4096, valid := (word s u ra).getLsbD 16, posted := (word s u ra).getLsbD 17 } ∧ next u (s.th (thr u)) (s.th (thr u)) r) ∧
  (∀ (s : State) (u : Issue) (ccr ra : Fin 32), runs s u = true → ra.val < 24 → (s.th (thr u)).inTrap = false → ccr.val ∈ [0, 1, 2, 4, 5, 6, 7, 8, 11, 12, 13, 14, 16, 31] →
      Does (.mtc u ccr ra) s fun r => trapped s r (thr u) 3 (0x0800000D + 2 ^ 21 * ccr.val + 2 ^ 16 * ra.val) (s.th (thr u)).pc) ∧
  (∀ (s : State) (u : Issue) (rd ra : Fin 32), runs s u = true → rd.val < 24 → ra.val < 24 → (s.th (thr u)).inTrap = false → word s u ra ≠ 0#32 → (word s u ra).toNat < 2 ^ 24 → (BitVec.ofNat 32 (s.th (thr u)).events &&& word s u ra) ≠ 0#32 →
      Does (.waite u rd ra) s fun r => next u (s.th (thr u)) { (s.th (thr u)).setReg rd.val ((BitVec.ofNat 32 (s.th (thr u)).events &&& word s u ra)).toNat with events := (BitVec.ofNat 32 (s.th (thr u)).events &&& ~~~(word s u ra)).toNat } r ∧ (thr u < 16 → r.get CPU_BLACKOUT_STATUS.armed = 1)) ∧
  (∀ (s : State) (u : Issue) (rd ra : Fin 32), runs s u = true → rd.val < 24 → ra.val < 24 → (s.th (thr u)).inTrap = false → word s u ra ≠ 0#32 → (word s u ra).toNat < 2 ^ 24 → (BitVec.ofNat 32 (s.th (thr u)).events &&& word s u ra) = 0#32 →
      Does (.waite u rd ra) s fun r => r.thState (thr u) = 2 ∧ (r.th (thr u)).hold = .event rd.val (word s u ra).toNat ∧ (r.th (thr u)).pc = (s.th (thr u)).pc ∧ r.get CPU_THR_WMASK.mask u.core.val u.thread.val = (word s u ra).toNat) ∧
  (∀ (s : State) (u : Issue) (rd ra : Fin 32), runs s u = true → rd.val < 24 → ra.val < 24 → (s.th (thr u)).inTrap = false → (word s u ra = 0#32 ∨ 2 ^ 24 ≤ (word s u ra).toNat) →
      Does (.waite u rd ra) s fun r => trapped s r (thr u) 3 (0x0800000E + 2 ^ 21 * rd.val + 2 ^ 16 * ra.val) (s.th (thr u)).pc) ∧
  (∀ (s : State) (u : Issue) (ra rb : Fin 32), runs s u = true → ra.val < 24 → rb.val < 24 → (word s u ra).toNat < 17 → (word s u rb).toNat < 65536 → (word s u ra).toNat / 4 = u.core.val → s.thState (word s u ra).toNat ≠ 3 →
      Does (.sige u ra rb) s fun r => (r.th (word s u ra).toNat).events = (s.th (word s u ra).toNat).events ||| (word s u rb).toNat ∧ (r.th (thr u)).pc = (s.th (thr u)).pc + 4) ∧
  (∀ (s : State) (u : Issue) (ra rb : Fin 32), runs s u = true → ra.val < 24 → rb.val < 24 → (word s u ra).toNat < 17 → (word s u rb).toNat < 65536 → (word s u ra).toNat / 4 ≠ u.core.val →
      exec (.sige u ra rb) s = .next (((issued s u).retire (thr u) ((s.th (thr u)).pc + 4)).offer { ini := thr u, cmd := .event, addr := (word s u ra).toNat, len := 2, data := leBytes 2 (word s u rb).toNat })) ∧
  (∀ (s : State) (u : Issue), runs s u = true → (s.th (thr u)).inTrap = false → s.bit CPU_THR_CTRL.dbg_en u.core.val u.thread.val = false →
      Does (.brk u) s fun r => trapped s r (thr u) 17 0 ((s.th (thr u)).pc + 4)) ∧
  (∀ (s : State) (u : Issue), runs s u = true → s.bit CPU_THR_CTRL.dbg_en u.core.val u.thread.val = true →
      exec (.brk u) s = .next (((issued s u).retire (thr u) ((s.th (thr u)).pc + 4)).putThState (thr u) 4))

/-- The FP instructions: fd or rd takes the result of the format, and the flags wait for their merge. -/
def Obligations.FpInstructions : Prop :=
  (∀ (s : State) (u : Issue) (fd fa fb : Fin 32) (rm : Fin 8) (m : Nat) (dbl : Bool), runs s u = true → u.core.val ≠ 4 → 1 ≤ m → m ≤ 5 → (rm.val = 0 ∧ (s.th (thr u)).rm = m ∨ rm.val = m) →
      exec (.fadd u fd fa fb rm dbl) s = .next ((issued s u).retire (thr u) ((s.th (thr u)).pc + 4) fun t => { (t.setFval dbl fd.val ((fmtOf dbl).add m (s.th (thr u)).ftz ((s.th (thr u)).fnum dbl fa.val) ((s.th (thr u)).fnum dbl fb.val)).1) with fpOps := t.fpOps ++ [{ pc := (s.th (thr u)).pc, flags := ((fmtOf dbl).add m (s.th (thr u)).ftz ((s.th (thr u)).fnum dbl fa.val) ((s.th (thr u)).fnum dbl fb.val)).2, inTrap := (s.th (thr u)).inTrap }] })) ∧
  (∀ (s : State) (u : Issue) (fd fa fb : Fin 32) (rm : Fin 8) (m : Nat) (dbl : Bool), runs s u = true → u.core.val ≠ 4 → 1 ≤ m → m ≤ 5 → (rm.val = 0 ∧ (s.th (thr u)).rm = m ∨ rm.val = m) →
      exec (.fsub u fd fa fb rm dbl) s = .next ((issued s u).retire (thr u) ((s.th (thr u)).pc + 4) fun t => { (t.setFval dbl fd.val ((fmtOf dbl).add m (s.th (thr u)).ftz ((s.th (thr u)).fnum dbl fa.val) ((s.th (thr u)).fnum dbl fb.val).neg).1) with fpOps := t.fpOps ++ [{ pc := (s.th (thr u)).pc, flags := ((fmtOf dbl).add m (s.th (thr u)).ftz ((s.th (thr u)).fnum dbl fa.val) ((s.th (thr u)).fnum dbl fb.val).neg).2, inTrap := (s.th (thr u)).inTrap }] })) ∧
  (∀ (s : State) (u : Issue) (fd fa fb : Fin 32) (rm : Fin 8) (m : Nat) (dbl : Bool), runs s u = true → u.core.val ≠ 4 → 1 ≤ m → m ≤ 5 → (rm.val = 0 ∧ (s.th (thr u)).rm = m ∨ rm.val = m) →
      exec (.fmul u fd fa fb rm dbl) s = .next ((issued s u).retire (thr u) ((s.th (thr u)).pc + 4) fun t => { (t.setFval dbl fd.val ((fmtOf dbl).mul m (s.th (thr u)).ftz ((s.th (thr u)).fnum dbl fa.val) ((s.th (thr u)).fnum dbl fb.val)).1) with fpOps := t.fpOps ++ [{ pc := (s.th (thr u)).pc, flags := ((fmtOf dbl).mul m (s.th (thr u)).ftz ((s.th (thr u)).fnum dbl fa.val) ((s.th (thr u)).fnum dbl fb.val)).2, inTrap := (s.th (thr u)).inTrap }] })) ∧
  (∀ (s : State) (u : Issue) (fd fa fb : Fin 32) (rm : Fin 8) (m : Nat) (dbl : Bool), runs s u = true → u.core.val ≠ 4 → 1 ≤ m → m ≤ 5 → (rm.val = 0 ∧ (s.th (thr u)).rm = m ∨ rm.val = m) →
      exec (.fdiv u fd fa fb rm dbl) s = .next ((issued s u).retire (thr u) ((s.th (thr u)).pc + 4) fun t => { (t.setFval dbl fd.val ((fmtOf dbl).div m (s.th (thr u)).ftz ((s.th (thr u)).fnum dbl fa.val) ((s.th (thr u)).fnum dbl fb.val)).1) with fpOps := t.fpOps ++ [{ pc := (s.th (thr u)).pc, flags := ((fmtOf dbl).div m (s.th (thr u)).ftz ((s.th (thr u)).fnum dbl fa.val) ((s.th (thr u)).fnum dbl fb.val)).2, inTrap := (s.th (thr u)).inTrap }] })) ∧
  (∀ (s : State) (u : Issue) (fd fa : Fin 32) (rm : Fin 8) (m : Nat) (dbl : Bool), runs s u = true → u.core.val ≠ 4 → 1 ≤ m → m ≤ 5 → (rm.val = 0 ∧ (s.th (thr u)).rm = m ∨ rm.val = m) →
      exec (.fsqrt u fd fa rm dbl) s = .next ((issued s u).retire (thr u) ((s.th (thr u)).pc + 4) fun t => { (t.setFval dbl fd.val ((fmtOf dbl).sqrt m (s.th (thr u)).ftz ((s.th (thr u)).fnum dbl fa.val)).1) with fpOps := t.fpOps ++ [{ pc := (s.th (thr u)).pc, flags := ((fmtOf dbl).sqrt m (s.th (thr u)).ftz ((s.th (thr u)).fnum dbl fa.val)).2, inTrap := (s.th (thr u)).inTrap }] })) ∧
  (∀ (s : State) (u : Issue) (fd fa fb fc : Fin 32) (rm : Fin 8) (m : Nat) (dbl : Bool), runs s u = true → u.core.val ≠ 4 → 1 ≤ m → m ≤ 5 → (rm.val = 0 ∧ (s.th (thr u)).rm = m ∨ rm.val = m) →
      exec (.fmadd u fd fa fb fc rm dbl) s = .next ((issued s u).retire (thr u) ((s.th (thr u)).pc + 4) fun t => { (t.setFval dbl fd.val ((fmtOf dbl).fma m (s.th (thr u)).ftz ((s.th (thr u)).fnum dbl fa.val) ((s.th (thr u)).fnum dbl fb.val) ((s.th (thr u)).fnum dbl fc.val)).1) with fpOps := t.fpOps ++ [{ pc := (s.th (thr u)).pc, flags := ((fmtOf dbl).fma m (s.th (thr u)).ftz ((s.th (thr u)).fnum dbl fa.val) ((s.th (thr u)).fnum dbl fb.val) ((s.th (thr u)).fnum dbl fc.val)).2, inTrap := (s.th (thr u)).inTrap }] })) ∧
  (∀ (s : State) (u : Issue) (fd fa fb fc : Fin 32) (rm : Fin 8) (m : Nat) (dbl : Bool), runs s u = true → u.core.val ≠ 4 → 1 ≤ m → m ≤ 5 → (rm.val = 0 ∧ (s.th (thr u)).rm = m ∨ rm.val = m) →
      exec (.fmsub u fd fa fb fc rm dbl) s = .next ((issued s u).retire (thr u) ((s.th (thr u)).pc + 4) fun t => { (t.setFval dbl fd.val ((fmtOf dbl).fma m (s.th (thr u)).ftz ((s.th (thr u)).fnum dbl fa.val) ((s.th (thr u)).fnum dbl fb.val) ((s.th (thr u)).fnum dbl fc.val).neg).1) with fpOps := t.fpOps ++ [{ pc := (s.th (thr u)).pc, flags := ((fmtOf dbl).fma m (s.th (thr u)).ftz ((s.th (thr u)).fnum dbl fa.val) ((s.th (thr u)).fnum dbl fb.val) ((s.th (thr u)).fnum dbl fc.val).neg).2, inTrap := (s.th (thr u)).inTrap }] })) ∧
  (∀ (s : State) (u : Issue) (fd fa fb fc : Fin 32) (rm : Fin 8) (m : Nat) (dbl : Bool), runs s u = true → u.core.val ≠ 4 → 1 ≤ m → m ≤ 5 → (rm.val = 0 ∧ (s.th (thr u)).rm = m ∨ rm.val = m) →
      exec (.fnmadd u fd fa fb fc rm dbl) s = .next ((issued s u).retire (thr u) ((s.th (thr u)).pc + 4) fun t => { (t.setFval dbl fd.val ((fmtOf dbl).fma m (s.th (thr u)).ftz ((s.th (thr u)).fnum dbl fa.val).neg ((s.th (thr u)).fnum dbl fb.val) ((s.th (thr u)).fnum dbl fc.val).neg).1) with fpOps := t.fpOps ++ [{ pc := (s.th (thr u)).pc, flags := ((fmtOf dbl).fma m (s.th (thr u)).ftz ((s.th (thr u)).fnum dbl fa.val).neg ((s.th (thr u)).fnum dbl fb.val) ((s.th (thr u)).fnum dbl fc.val).neg).2, inTrap := (s.th (thr u)).inTrap }] })) ∧
  (∀ (s : State) (u : Issue) (fd fa fb fc : Fin 32) (rm : Fin 8) (m : Nat) (dbl : Bool), runs s u = true → u.core.val ≠ 4 → 1 ≤ m → m ≤ 5 → (rm.val = 0 ∧ (s.th (thr u)).rm = m ∨ rm.val = m) →
      exec (.fnmsub u fd fa fb fc rm dbl) s = .next ((issued s u).retire (thr u) ((s.th (thr u)).pc + 4) fun t => { (t.setFval dbl fd.val ((fmtOf dbl).fma m (s.th (thr u)).ftz ((s.th (thr u)).fnum dbl fa.val).neg ((s.th (thr u)).fnum dbl fb.val) ((s.th (thr u)).fnum dbl fc.val)).1) with fpOps := t.fpOps ++ [{ pc := (s.th (thr u)).pc, flags := ((fmtOf dbl).fma m (s.th (thr u)).ftz ((s.th (thr u)).fnum dbl fa.val).neg ((s.th (thr u)).fnum dbl fb.val) ((s.th (thr u)).fnum dbl fc.val)).2, inTrap := (s.th (thr u)).inTrap }] })) ∧
  (∀ (s : State) (u : Issue) (fd fa fb : Fin 32) (dbl : Bool), runs s u = true → u.core.val ≠ 4 →
      exec (.fmin u fd fa fb dbl) s = .next ((issued s u).retire (thr u) ((s.th (thr u)).pc + 4) fun t => { (t.setFval dbl fd.val ((fmtOf dbl).minMax (s.th (thr u)).ftz false ((s.th (thr u)).fval dbl fa.val) ((s.th (thr u)).fval dbl fb.val)).1) with fpOps := t.fpOps ++ [{ pc := (s.th (thr u)).pc, flags := ((fmtOf dbl).minMax (s.th (thr u)).ftz false ((s.th (thr u)).fval dbl fa.val) ((s.th (thr u)).fval dbl fb.val)).2, inTrap := (s.th (thr u)).inTrap }] })) ∧
  (∀ (s : State) (u : Issue) (fd fa fb : Fin 32) (dbl : Bool), runs s u = true → u.core.val ≠ 4 →
      exec (.fmax u fd fa fb dbl) s = .next ((issued s u).retire (thr u) ((s.th (thr u)).pc + 4) fun t => { (t.setFval dbl fd.val ((fmtOf dbl).minMax (s.th (thr u)).ftz true ((s.th (thr u)).fval dbl fa.val) ((s.th (thr u)).fval dbl fb.val)).1) with fpOps := t.fpOps ++ [{ pc := (s.th (thr u)).pc, flags := ((fmtOf dbl).minMax (s.th (thr u)).ftz true ((s.th (thr u)).fval dbl fa.val) ((s.th (thr u)).fval dbl fb.val)).2, inTrap := (s.th (thr u)).inTrap }] })) ∧
  (∀ (s : State) (u : Issue) (rd fa fb : Fin 32) (dbl : Bool), runs s u = true → u.core.val ≠ 4 → rd.val < 24 →
      exec (.feq u rd fa fb dbl) s = .next ((issued s u).retire (thr u) ((s.th (thr u)).pc + 4) fun t => { (t.setReg rd.val (fpCompare 0 ((s.th (thr u)).fnum dbl fa.val) ((s.th (thr u)).fnum dbl fb.val)).1) with fpOps := t.fpOps ++ [{ pc := (s.th (thr u)).pc, flags := (fpCompare 0 ((s.th (thr u)).fnum dbl fa.val) ((s.th (thr u)).fnum dbl fb.val)).2, inTrap := (s.th (thr u)).inTrap }] })) ∧
  (∀ (s : State) (u : Issue) (rd fa fb : Fin 32) (dbl : Bool), runs s u = true → u.core.val ≠ 4 → rd.val < 24 →
      exec (.flt u rd fa fb dbl) s = .next ((issued s u).retire (thr u) ((s.th (thr u)).pc + 4) fun t => { (t.setReg rd.val (fpCompare 1 ((s.th (thr u)).fnum dbl fa.val) ((s.th (thr u)).fnum dbl fb.val)).1) with fpOps := t.fpOps ++ [{ pc := (s.th (thr u)).pc, flags := (fpCompare 1 ((s.th (thr u)).fnum dbl fa.val) ((s.th (thr u)).fnum dbl fb.val)).2, inTrap := (s.th (thr u)).inTrap }] })) ∧
  (∀ (s : State) (u : Issue) (rd fa fb : Fin 32) (dbl : Bool), runs s u = true → u.core.val ≠ 4 → rd.val < 24 →
      exec (.fle u rd fa fb dbl) s = .next ((issued s u).retire (thr u) ((s.th (thr u)).pc + 4) fun t => { (t.setReg rd.val (fpCompare 2 ((s.th (thr u)).fnum dbl fa.val) ((s.th (thr u)).fnum dbl fb.val)).1) with fpOps := t.fpOps ++ [{ pc := (s.th (thr u)).pc, flags := (fpCompare 2 ((s.th (thr u)).fnum dbl fa.val) ((s.th (thr u)).fnum dbl fb.val)).2, inTrap := (s.th (thr u)).inTrap }] })) ∧
  (∀ (s : State) (u : Issue) (rd fa : Fin 32) (dbl : Bool), runs s u = true → u.core.val ≠ 4 → rd.val < 24 →
      exec (.fclass u rd fa dbl) s = .next ((issued s u).retire (thr u) ((s.th (thr u)).pc + 4) fun t => { (t.setReg rd.val ((2 ^ (fmtOf dbl).classOf (s.th (thr u)).ftz ((s.th (thr u)).fval dbl fa.val), 0)).1) with fpOps := t.fpOps ++ [{ pc := (s.th (thr u)).pc, flags := ((2 ^ (fmtOf dbl).classOf (s.th (thr u)).ftz ((s.th (thr u)).fval dbl fa.val), 0)).2, inTrap := (s.th (thr u)).inTrap }] })) ∧
  (∀ (s : State) (u : Issue) (rd fa : Fin 32) (rm : Fin 8) (m : Nat) (dbl : Bool), runs s u = true → u.core.val ≠ 4 → 1 ≤ m → m ≤ 5 → (rm.val = 0 ∧ (s.th (thr u)).rm = m ∨ rm.val = m) → rd.val < 24 →
      exec (.fcvtw u rd fa rm dbl) s = .next ((issued s u).retire (thr u) ((s.th (thr u)).pc + 4) fun t => { (t.setReg rd.val (fpToInt m false ((s.th (thr u)).fnum dbl fa.val)).1) with fpOps := t.fpOps ++ [{ pc := (s.th (thr u)).pc, flags := (fpToInt m false ((s.th (thr u)).fnum dbl fa.val)).2, inTrap := (s.th (thr u)).inTrap }] })) ∧
  (∀ (s : State) (u : Issue) (rd fa : Fin 32) (rm : Fin 8) (m : Nat) (dbl : Bool), runs s u = true → u.core.val ≠ 4 → 1 ≤ m → m ≤ 5 → (rm.val = 0 ∧ (s.th (thr u)).rm = m ∨ rm.val = m) → rd.val < 24 →
      exec (.fcvtwu u rd fa rm dbl) s = .next ((issued s u).retire (thr u) ((s.th (thr u)).pc + 4) fun t => { (t.setReg rd.val (fpToInt m true ((s.th (thr u)).fnum dbl fa.val)).1) with fpOps := t.fpOps ++ [{ pc := (s.th (thr u)).pc, flags := (fpToInt m true ((s.th (thr u)).fnum dbl fa.val)).2, inTrap := (s.th (thr u)).inTrap }] })) ∧
  (∀ (s : State) (u : Issue) (fd ra : Fin 32) (rm : Fin 8) (m : Nat) (dbl : Bool), runs s u = true → u.core.val ≠ 4 → 1 ≤ m → m ≤ 5 → (rm.val = 0 ∧ (s.th (thr u)).rm = m ∨ rm.val = m) → ra.val < 24 →
      exec (.fcvtfw u fd ra rm dbl) s = .next ((issued s u).retire (thr u) ((s.th (thr u)).pc + 4) fun t => { (t.setFval dbl fd.val ((fmtOf dbl).ofWord m (s.th (thr u)).ftz false (word s u ra).toNat).1) with fpOps := t.fpOps ++ [{ pc := (s.th (thr u)).pc, flags := ((fmtOf dbl).ofWord m (s.th (thr u)).ftz false (word s u ra).toNat).2, inTrap := (s.th (thr u)).inTrap }] })) ∧
  (∀ (s : State) (u : Issue) (fd ra : Fin 32) (rm : Fin 8) (m : Nat) (dbl : Bool), runs s u = true → u.core.val ≠ 4 → 1 ≤ m → m ≤ 5 → (rm.val = 0 ∧ (s.th (thr u)).rm = m ∨ rm.val = m) → ra.val < 24 →
      exec (.fcvtfwu u fd ra rm dbl) s = .next ((issued s u).retire (thr u) ((s.th (thr u)).pc + 4) fun t => { (t.setFval dbl fd.val ((fmtOf dbl).ofWord m (s.th (thr u)).ftz true (word s u ra).toNat).1) with fpOps := t.fpOps ++ [{ pc := (s.th (thr u)).pc, flags := ((fmtOf dbl).ofWord m (s.th (thr u)).ftz true (word s u ra).toNat).2, inTrap := (s.th (thr u)).inTrap }] })) ∧
  (∀ (s : State) (u : Issue) (fd fa : Fin 32) (rm : Fin 8) (m : Nat) (dbl : Bool), runs s u = true → u.core.val ≠ 4 → 1 ≤ m → m ≤ 5 → (rm.val = 0 ∧ (s.th (thr u)).rm = m ∨ rm.val = m) →
      exec (.fcvtp u fd fa rm dbl) s = .next ((issued s u).retire (thr u) ((s.th (thr u)).pc + 4) fun t => { (t.setFval dbl fd.val ((fmtOf dbl).convert m (s.th (thr u)).ftz ((s.th (thr u)).fnum (!dbl) fa.val)).1) with fpOps := t.fpOps ++ [{ pc := (s.th (thr u)).pc, flags := ((fmtOf dbl).convert m (s.th (thr u)).ftz ((s.th (thr u)).fnum (!dbl) fa.val)).2, inTrap := (s.th (thr u)).inTrap }] })) ∧
  (∀ (s : State) (u : Issue) (rd fa : Fin 32) (high : Bool), runs s u = true → u.core.val ≠ 4 → rd.val < 24 →
      exec (.fmvtoi u rd fa high) s = .next ((issued s u).retire (thr u) ((s.th (thr u)).pc + 4) fun t => { (t.setReg rd.val (if high then (s.th (thr u)).freg fa.val / 2 ^ 32 else (s.th (thr u)).freg fa.val % 2 ^ 32)) with fpOps := t.fpOps ++ [{ pc := (s.th (thr u)).pc, flags := 0, inTrap := (s.th (thr u)).inTrap }] })) ∧
  (∀ (s : State) (u : Issue) (fd ra : Fin 32) (high : Bool), runs s u = true → u.core.val ≠ 4 → ra.val < 24 →
      exec (.fmvfromi u fd ra high) s = .next ((issued s u).retire (thr u) ((s.th (thr u)).pc + 4) fun t => { (t.setFreg fd.val (if high then (word s u ra).toNat * 2 ^ 32 + t.freg fd.val % 2 ^ 32 else 0xFFFFFFFF00000000 + (word s u ra).toNat)) with fpOps := t.fpOps ++ [{ pc := (s.th (thr u)).pc, flags := 0, inTrap := (s.th (thr u)).inTrap }] })) ∧
  (∀ (s : State) (u : Issue) (fd fa : Fin 32) (dbl : Bool), runs s u = true → u.core.val ≠ 4 →
      exec (.fneg u fd fa dbl) s = .next ((issued s u).retire (thr u) ((s.th (thr u)).pc + 4) fun t => { (t.setFval dbl fd.val ((((s.th (thr u)).freg fa.val % (2 * (if dbl then 2 ^ 63 else 2 ^ 31))) + (if dbl then 2 ^ 63 else 2 ^ 31)) % (2 * (if dbl then 2 ^ 63 else 2 ^ 31)))) with fpOps := t.fpOps ++ [{ pc := (s.th (thr u)).pc, flags := 0, inTrap := (s.th (thr u)).inTrap }] })) ∧
  (∀ (s : State) (u : Issue) (fd fa : Fin 32) (dbl : Bool), runs s u = true → u.core.val ≠ 4 →
      exec (.fabs u fd fa dbl) s = .next ((issued s u).retire (thr u) ((s.th (thr u)).pc + 4) fun t => { (t.setFval dbl fd.val (((s.th (thr u)).freg fa.val % (2 * (if dbl then 2 ^ 63 else 2 ^ 31))) % (if dbl then 2 ^ 63 else 2 ^ 31))) with fpOps := t.fpOps ++ [{ pc := (s.th (thr u)).pc, flags := 0, inTrap := (s.th (thr u)).inTrap }] })) ∧
  (∀ (s : State) (u : Issue) (fd fa fb : Fin 32) (dbl : Bool), runs s u = true → u.core.val ≠ 4 →
      exec (.fcopysign u fd fa fb dbl) s = .next ((issued s u).retire (thr u) ((s.th (thr u)).pc + 4) fun t => { (t.setFval dbl fd.val (((s.th (thr u)).freg fa.val % (2 * (if dbl then 2 ^ 63 else 2 ^ 31))) % (if dbl then 2 ^ 63 else 2 ^ 31) + ((s.th (thr u)).freg fb.val % (2 * (if dbl then 2 ^ 63 else 2 ^ 31))) / (if dbl then 2 ^ 63 else 2 ^ 31) * (if dbl then 2 ^ 63 else 2 ^ 31))) with fpOps := t.fpOps ++ [{ pc := (s.th (thr u)).pc, flags := 0, inTrap := (s.th (thr u)).inTrap }] })) ∧
  (∀ (s : State) (u : Issue) (fd fa fb : Fin 32) (rm : Fin 8) (dbl : Bool), runs s u = true → (s.th (thr u)).inTrap = false → u.core.val ≠ 4 → (5 < rm.val ∨ rm.val = 0 ∧ ((s.th (thr u)).rm = 0 ∨ 5 < (s.th (thr u)).rm)) →
      Does (.fadd u fd fa fb rm dbl) s fun r => trapped s r (thr u) 3 (0x0C000000 + 2 ^ 21 * fd.val + 2 ^ 16 * fa.val + 2 ^ 11 * fb.val + 256 * rm.val + (if dbl then 128 else 0)) (s.th (thr u)).pc) ∧
  (∀ (s : State) (u : Issue) (fd fa fb : Fin 32) (rm : Fin 8) (dbl : Bool), runs s u = true → (s.th (thr u)).inTrap = false → u.core.val = 4 →
      Does (.fmul u fd fa fb rm dbl) s fun r => (r.th (thr u)).trapcode = 3 ∧ (r.th (thr u)).inTrap = true) ∧
  (∀ (s : State) (core : Fin 5) (thread : Fin 4) (k : Nat) (o : FpOp), (s.th (4 * core.val + thread.val)).fpOps[k]? = some o → o.flags &&& (s.th (4 * core.val + thread.val)).enables = 0 → s.thState (4 * core.val + thread.val) ≠ 3 →
      exec (.fpComplete core thread k) s = .next (s.updTh (4 * core.val + thread.val) fun h => { h with fpOps := h.fpOps.eraseIdx k, flags := h.flags ||| o.flags })) ∧
  (∀ (s : State) (core : Fin 5) (thread : Fin 4) (k : Nat) (o : FpOp), (s.th (4 * core.val + thread.val)).fpOps[k]? = some o → o.flags &&& (s.th (4 * core.val + thread.val)).enables ≠ 0 → (s.th (4 * core.val + thread.val)).fpPend = none → s.thState (4 * core.val + thread.val) ≠ 2 → s.thState (4 * core.val + thread.val) ≠ 3 →
      Does (.fpComplete core thread k) s fun r => (r.th (4 * core.val + thread.val)).fpPend = some (o.pc, o.inTrap) ∧ (r.th (4 * core.val + thread.val)).flags = (s.th (4 * core.val + thread.val)).flags ||| o.flags)

/-- Which trap an instruction meets first, imprecise traps and double faults. -/
def Obligations.TrapDelivery : Prop :=
  (∀ (s : State) (u : Issue) (rd ra rb : Fin 32) (a : Nat), s.thrCanIssue (thr u) u.late.val = true → (s.th (thr u)).inTrap = false → (s.th (thr u)).busPend = some (a, false) →
      Does (.add u rd ra rb) s fun r => trapped s r (thr u) 14 a (s.th (thr u)).pc ∧ (r.th (thr u)).busPend = none) ∧
  (∀ (s : State) (u : Issue) (rd ra rb : Fin 32) (a : Nat), s.thrCanIssue (thr u) u.late.val = true → (s.th (thr u)).inTrap = false → (s.th (thr u)).busPend = none → (s.th (thr u)).fpPend = some (a, false) →
      Does (.add u rd ra rb) s fun r => trapped s r (thr u) 15 a (s.th (thr u)).pc ∧ (r.th (thr u)).fpPend = none) ∧
  (∀ (s : State) (u : Issue) (rd ra rb : Fin 32), s.thrCanIssue (thr u) u.late.val = true → (s.th (thr u)).due = none → (s.th (thr u)).inTrap = false → pcOk (thr u) (s.th (thr u)).pc = false →
      Does (.add u rd ra rb) s fun r => trapped s r (thr u) 1 (s.th (thr u)).pc (s.th (thr u)).pc) ∧
  (∀ (s : State) (u : Issue) (rd ra rb : Fin 32), s.thrCanIssue (thr u) u.late.val = true → (s.th (thr u)).due = none → (s.th (thr u)).inTrap = false → pcOk (thr u) (s.th (thr u)).pc = true → u.fetch = .uncorrectable →
      Does (.add u rd ra rb) s fun r => trapped s r (thr u) 2 (s.th (thr u)).pc (s.th (thr u)).pc) ∧
  (∀ (s : State) (u : Issue) (rd ra rb : Fin 32), s.thrCanIssue (thr u) u.late.val = true → (s.th (thr u)).due = none → (s.th (thr u)).inTrap = true → u.core.val ≠ 4 → pcOk (thr u) (s.th (thr u)).pc = false →
      Does (.add u rd ra rb) s fun r => r.thState (thr u) = 3 ∧ r.get CPU_THR_DFAULT.cause1 u.core.val u.thread.val = (s.th (thr u)).trapcode % 32 ∧ r.get CPU_THR_DFAULT.cause2 u.core.val u.thread.val = 1 ∧ r.get CPU_THR_DFAULT.valid u.core.val u.thread.val = 1 ∧ (r.th (thr u)).pc = (s.th (thr u)).pc ∧ (r.th (thr u)).g = (s.th (thr u)).g ∧ (r.th (thr u)).w = (s.th (thr u)).w ∧ (r.th (thr u)).trapcode = (s.th (thr u)).trapcode ∧ (r.th (thr u)).resume = (s.th (thr u)).resume) ∧
  (∀ (s : State) (core : Fin 5) (thread : Fin 4) (late : Fin 16) (a : Nat), s.thrCanIssue (4 * core.val + thread.val) late.val = true → (s.th (4 * core.val + thread.val)).inTrap = false → (s.th (4 * core.val + thread.val)).busPend = some (a, false) →
      Does (.impreciseTrap core thread late) s fun r => trapped s r (4 * core.val + thread.val) 14 a (s.th (4 * core.val + thread.val)).pc) ∧
  (∀ (s : State) (core : Fin 5) (thread : Fin 4) (late : Fin 16) (a : Nat), s.thState (4 * core.val + thread.val) = 2 → (s.th (4 * core.val + thread.val)).inTrap = false → (s.th (4 * core.val + thread.val)).busPend = none → (s.th (4 * core.val + thread.val)).fpPend = some (a, false) →
      Does (.impreciseTrap core thread late) s fun r => trapped s r (4 * core.val + thread.val) 15 a (s.th (4 * core.val + thread.val)).pc ∧ r.thState (4 * core.val + thread.val) = 1) ∧
  (∀ (s : State) (core : Fin 5) (thread : Fin 4) (late : Fin 16) (a : Nat), (s.th (4 * core.val + thread.val)).inTrap = true → (s.th (4 * core.val + thread.val)).busPend = none → (s.th (4 * core.val + thread.val)).fpPend = some (a, false) →
      exec (.impreciseTrap core thread late) s = .next (s)) ∧
  (∀ (s : State) (core : Fin 5) (thread : Fin 4) (late : Fin 16) (a : Nat), s.thrCanIssue (4 * core.val + thread.val) late.val = true → core.val ≠ 4 → (s.th (4 * core.val + thread.val)).busPend = some (a, true) →
      Does (.impreciseTrap core thread late) s fun r => r.thState (4 * core.val + thread.val) = 3 ∧ r.get CPU_THR_DFAULT.cause1 core.val thread.val = (s.th (4 * core.val + thread.val)).trapcode % 32 ∧ r.get CPU_THR_DFAULT.cause2 core.val thread.val = 14 ∧ r.get CPU_THR_DFAULT.valid core.val thread.val = 1 ∧ (r.th (4 * core.val + thread.val)).pc = (s.th (4 * core.val + thread.val)).pc)

/-- Start, stop, events, timers, priorities and the Blackout detector. -/
def Obligations.Threads : Prop :=
  (∀ (s : State) (core : Fin 5) (thread : Fin 4), (4 * core.val + thread.val) < 17 → (s.thState (4 * core.val + thread.val) = 0 ∨ s.thState (4 * core.val + thread.val) = 3) → (s.th (4 * core.val + thread.val)).stopping = false →
      Does (.threadStart core thread) s fun r => (r.th (4 * core.val + thread.val)).pc = 4 * s.get CPU_THR_PC_START.pc core.val thread.val ∧ (r.th (4 * core.val + thread.val)).cur = 0 ∧ (r.th (4 * core.val + thread.val)).live = 1 ∧ (r.th (4 * core.val + thread.val)).rstack = [] ∧ (r.th (4 * core.val + thread.val)).events = 0 ∧ (r.th (4 * core.val + thread.val)).inTrap = false ∧ (r.th (4 * core.val + thread.val)).flags = 0 ∧ (r.th (4 * core.val + thread.val)).enables = 0 ∧ (r.th (4 * core.val + thread.val)).rm = 1 ∧ (r.th (4 * core.val + thread.val)).fpPend = none ∧ (r.th (4 * core.val + thread.val)).busPend = none ∧ (r.th (4 * core.val + thread.val)).g = (s.th (4 * core.val + thread.val)).g ∧ (r.th (4 * core.val + thread.val)).w = (s.th (4 * core.val + thread.val)).w ∧ r.thState (4 * core.val + thread.val) = 1 ∧ ((4 * core.val + thread.val) < 16 → r.get CPU_BLACKOUT_STATUS.armed = 1) ∧ ((4 * core.val + thread.val) = 16 → r.get CPU_BLACKOUT_STATUS.armed = s.get CPU_BLACKOUT_STATUS.armed)) ∧
  (∀ (s : State) (core : Fin 5) (thread : Fin 4), (4 * core.val + thread.val) < 17 → s.thState (4 * core.val + thread.val) ≠ 0 → s.thState (4 * core.val + thread.val) ≠ 3 →
      exec (.threadStart core thread) s = .next (s.thrErr CPU_THR_ERR.start_refused (4 * core.val + thread.val))) ∧
  (∀ (s : State) (core : Fin 5) (thread : Fin 4), (4 * core.val + thread.val) < 17 → s.thState (4 * core.val + thread.val) ≠ 0 → (s.th (4 * core.val + thread.val)).hold = .none → (s.th (4 * core.val + thread.val)).restart = false →
      Does (.threadStop core thread) s fun r => r.thState (4 * core.val + thread.val) = 0 ∧ r.th (4 * core.val + thread.val) = { (s.th (4 * core.val + thread.val)) with hold := .none, stopping := false, restart := false, inTrap := false, busPend := none } ∧ r.get CPU_THR_WMASK.mask core.val thread.val = 0 ∧ ((s.th (4 * core.val + thread.val)).busPend.isSome = true → r.get CPU_THR_IMPR_LOST_CNT.count core.val thread.val = min (2 ^ 16 - 1) (s.get CPU_THR_IMPR_LOST_CNT.count core.val thread.val + 1)) ∧ (∀ n < 512, r.holdsSem (4 * core.val + thread.val) n = false) ∧ ((4 * core.val + thread.val) < 16 → r.get CPU_BLACKOUT_STATUS.armed = 1) ∧ ((4 * core.val + thread.val) = 16 → r.get CPU_BLACKOUT_STATUS.armed = s.get CPU_BLACKOUT_STATUS.armed)) ∧
  (∀ (s : State) (core : Fin 5) (thread : Fin 4) (d m : Nat), (4 * core.val + thread.val) < 17 → s.thState (4 * core.val + thread.val) ≠ 0 → (s.th (4 * core.val + thread.val)).hold = .event d m → (s.th (4 * core.val + thread.val)).restart = false →
      Does (.threadStop core thread) s fun r => r.thState (4 * core.val + thread.val) = 0 ∧ r.th (4 * core.val + thread.val) = { (s.th (4 * core.val + thread.val)) with hold := .none, stopping := false, restart := false, inTrap := false, busPend := none } ∧ r.get CPU_THR_WMASK.mask core.val thread.val = 0 ∧ ((s.th (4 * core.val + thread.val)).busPend.isSome = true → r.get CPU_THR_IMPR_LOST_CNT.count core.val thread.val = min (2 ^ 16 - 1) (s.get CPU_THR_IMPR_LOST_CNT.count core.val thread.val + 1)) ∧ (∀ n < 512, r.holdsSem (4 * core.val + thread.val) n = false) ∧ ((4 * core.val + thread.val) < 16 → r.get CPU_BLACKOUT_STATUS.armed = 1) ∧ ((4 * core.val + thread.val) = 16 → r.get CPU_BLACKOUT_STATUS.armed = s.get CPU_BLACKOUT_STATUS.armed)) ∧
  (∀ (s : State) (core : Fin 5) (thread : Fin 4) (d v : Nat), (4 * core.val + thread.val) < 17 → s.thState (4 * core.val + thread.val) ≠ 0 → (s.th (4 * core.val + thread.val)).hold = .divide d v →
      exec (.threadStop core thread) s = .next ((s.updTh (4 * core.val + thread.val) fun h => { h with stopping := true }).rearm (4 * core.val + thread.val))) ∧
  (∀ (s : State) (core : Fin 5) (thread : Fin 4) (w : Waiting), (4 * core.val + thread.val) < 17 → s.thState (4 * core.val + thread.val) ≠ 0 → (s.th (4 * core.val + thread.val)).hold = .access w →
      exec (.threadStop core thread) s = .next ((s.updTh (4 * core.val + thread.val) fun h => { h with stopping := true }).rearm (4 * core.val + thread.val))) ∧
  (∀ (s : State) (core : Fin 5) (thread : Fin 4) (d m : Nat), s.thState (4 * core.val + thread.val) = 2 → (s.th (4 * core.val + thread.val)).hold = .event d m → ((s.th (4 * core.val + thread.val)).events &&& m) ≠ 0 →
      Does (.threadWake core thread) s fun r => r.thState (4 * core.val + thread.val) = 1 ∧ r.th (4 * core.val + thread.val) = { (s.th (4 * core.val + thread.val)).setReg d ((s.th (4 * core.val + thread.val)).events &&& m) with hold := .none, events := (s.th (4 * core.val + thread.val)).events &&& (2 ^ 32 - 1 - m), pc := (s.th (4 * core.val + thread.val)).pc + 4, instret := ((s.th (4 * core.val + thread.val)).instret + 1) % 2 ^ 64 }) ∧
  (∀ (s : State) (core : Fin 5) (thread : Fin 4) (d m : Nat), s.thState (4 * core.val + thread.val) = 2 → (s.th (4 * core.val + thread.val)).hold = .event d m → ((s.th (4 * core.val + thread.val)).events &&& m) = 0 →
      exec (.threadWake core thread) s = .next (s)) ∧
  (∀ (s : State) (core : Fin 5) (thread : Fin 4) (events : BitVec 16), (4 * core.val + thread.val) < 17 → s.thState (4 * core.val + thread.val) ≠ 3 →
      exec (.threadEventsWrite core thread events) s = .next (s.updTh (4 * core.val + thread.val) fun h => { h with events := h.events ||| events.toNat })) ∧
  (∀ (s : State) (core : Fin 5) (thread : Fin 4), (4 * core.val + thread.val) < 17 →
      Does (.threadTimerStart core thread) s fun r => r.get CPU_THR_TMR_STAT.count core.val thread.val = s.get CPU_THR_TMR_LOAD.reload core.val thread.val % 2 ^ 24 ∧ r.get CPU_THR_TMR_STAT.running core.val thread.val = 1) ∧
  (∀ (s : State) (core : Fin 5) (thread : Fin 4), (4 * core.val + thread.val) < 17 → s.bit CPU_THR_TMR_STAT.running core.val thread.val = true →
      Does (.threadTimerStop core thread) s fun r => r.get CPU_THR_TMR_STAT.running core.val thread.val = 0 ∧ r.get CPU_THR_TMR_STAT.count core.val thread.val = max 1 (s.get CPU_THR_TMR_STAT.count core.val thread.val - (s.now - (s.th (4 * core.val + thread.val)).tmrAt) / 1000000000) % 2 ^ 24 ∧ r.cpu = s.cpu) ∧
  (∀ (s : State) (core : Fin 5) (thread : Fin 4), (4 * core.val + thread.val) < 17 → s.bit CPU_THR_TMR_STAT.running core.val thread.val = true → s.get CPU_THR_EVEN.en core.val thread.val % 2 = 1 → s.bit CPU_THR_TMR_LOAD.periodic core.val thread.val = false →
      Does (.threadTimerExpiry core thread) s fun r => (r.th (4 * core.val + thread.val)).events = (s.th (4 * core.val + thread.val)).events ||| 65536 ∧ r.get CPU_THR_TMR_STAT.running core.val thread.val = 0 ∧ r.get CPU_THR_TMR_STAT.count core.val thread.val = 0) ∧
  (∀ (s : State) (core : Fin 5) (thread : Fin 4), (4 * core.val + thread.val) < 17 → s.bit CPU_THR_TMR_STAT.running core.val thread.val = true → s.get CPU_THR_EVEN.en core.val thread.val % 2 = 0 → s.bit CPU_THR_TMR_LOAD.periodic core.val thread.val = true →
      Does (.threadTimerExpiry core thread) s fun r => r.th (4 * core.val + thread.val) = { (s.th (4 * core.val + thread.val)) with tmrAt := s.now } ∧ r.get CPU_THR_TMR_STAT.running core.val thread.val = 1 ∧ r.get CPU_THR_TMR_STAT.count core.val thread.val = s.get CPU_THR_TMR_LOAD.reload core.val thread.val % 2 ^ 24) ∧
  (∀ (s : State) (core thread : Fin 4), s.thrReady (4 * core.val + thread.val) = true → s.get CPU_SCHED.starve core.val ≠ 0 →
      Does (.starvationIssue core thread) s fun r => (r.core core.val).must = some (min (4 * core.val + thread.val) ((s.owed core.val).getD (4 * core.val + thread.val))) ∧ r.csr = s.csr) ∧
  (∀ (s : State), s.blackout = true → s.thState 0 = 2 → (s.th 0).inTrap = false →
      Does (.blackout) s fun r => trapped s r 0 16 s.waiters (s.th 0).pc ∧ r.thState 0 = 1 ∧ r.get CPU_BLACKOUT_STATUS.last = s.waiters % 2 ^ 16 ∧ r.get CPU_BLACKOUT_STATUS.armed = 0 ∧ r.get CPU_BLACKOUT_CNT.count = min (2 ^ 32 - 1) (s.get CPU_BLACKOUT_CNT.count + 1)) ∧
  (∀ (s : State), s.blackout = true → s.thState 0 ≠ 2 →
      Does (.blackout) s fun r => r.get CPU_BLACKOUT_STATUS.undelivered = 1 ∧ r.get CPU_BLACKOUT_STATUS.armed = 0 ∧ r.th 0 = s.th 0) ∧
  (∀ (s : State), s.blackout = false →
      exec (.blackout) s = .next (s)) ∧
  (∀ (s : State) (core : Fin 5) (thread : Fin 4), stands s = true → (4 * core.val + thread.val) < 17 → s.thState (4 * core.val + thread.val) = 4 →
      Does (.debugResume core thread) s fun r => r.thState (4 * core.val + thread.val) = 1)

/-- A step of the block is the command at the front of its queue, performed on the state with the rest of the queue. With
an empty queue the block idles: that is the model's choice (log entry 1). -/
def Obligations.StepTakesTheFrontCommand : Prop :=
  (∀ (s : State) (c : Instr) (rest : List Instr), s.pending = c :: rest → step s = exec c { s with pending := rest }) ∧
  (∀ s : State, s.pending = [] → step s = .next s)

/-- The state after reset. The register values are those of the register tables. Memory that nothing has written reads 0
(the model's choice, log entry 5), and the general registers of a thread hold 0 (the model's choice, log entry 6). -/
def Obligations.ResetState : Prop :=
  (∀ (f : Fld) (i j : Nat), State.reset.get f i j = f.reset i j) ∧
  State.reset.get GNO_STATUS.state = 0 ∧ State.reset.get GNO_PERIOD_MIN.period_fs = 0x017C53F6 ∧
  (∀ n < 224, State.reset.get FLN_STATUS.state n = 0) ∧ (∀ n < 57, State.reset.get EDG_FSTATUS.state n = 0) ∧
  State.reset.powerState = 0 ∧ State.reset.awake = true ∧ (∀ u < 17, State.reset.thState u = 0) ∧
  (∀ n < 32, State.reset.bit RNG_STOP_STATUS.asleep n = false) ∧ State.reset.pending = [] ∧
  (∀ a, State.reset.byte a = 0) ∧ (∀ u r, (State.reset.th u).reg r = 0) ∧ tablesWf State.reset

/-- The invariant of the state's tables: keys strictly rise and no entry holds what an unlisted key reads as, so that
equal tables are equal data. Every step keeps it, and takes one command off the queue. -/
def Obligations.TablesStayCanonical : Prop :=
  ∀ s t : State, tablesWf s → step s = .next t → tablesWf t ∧ t.pending = s.pending.tail

/-- The frame of every command. Its footprint lists the register pages (numbered as in the CSR map) and the parts of the
state that the rules let it change; for a command that may name any register the footprint holds every page. -/
def Obligations.CommandFrames : Prop :=
  ∀ (c : Instr) (s t : State), exec c s = .next t → Outside (footprint c) s t

/-- A facet cycle and timer, a pin write, a supply change, Dawn, the scrub, the stores and the vendor update complete with
their effect. -/
def Obligations.NineCommandsComplete : Prop :=
  (∀ (s : State) (f : Fin 57) (pins : BitVec 96) (us : Bool) (late : BitVec 288) (strobe : Bool), s.awake = true → s.facetState f.val = 1 →
      Does (.facetLogicCycle f pins us late strobe) s fun r => (r.facet f.val).exports = exportLines (s.img f.val) (r.facet f.val).cells ∧ (r.facet f.val).cells = nextCells (s.img f.val) (bitSet 160 fun i => ((s.facetStages f.val pins.toNat strobe).portCycles f.val).facetSource f.val (s.facetSees f.val pins.toNat us late.toNat strobe) (imgInput (s.img f.val) i)) (s.facet f.val).cells) ∧
  (∀ (s : State) (f : Fin 57) (t : Fin 16), s.awake = true → s.facetState f.val = 1 → (Sparse.get {} (s.facet f.val).timers t.val).running = true → (Sparse.get {} (s.facet f.val).timers t.val).count ≤ 1 → (s.facet f.val).sink (imgSinks (s.img f.val)) (0x2000 + 4 * t.val + 1) = false → (s.facet f.val).sink (imgSinks (s.img f.val)) (0x2000 + 4 * t.val + 2) = false →
      Does (.facetTimerExpiry f t) s fun r => (r.facet f.val).expired.testBit t.val = true) ∧
  (∀ (s : State) (n : Fin 96) (v : BitVec 32), s.awake = true →
      Does (.gpiPinWrite n 0xFFFFFFFF#32 v) s fun r => r.get GPI_PIN.pull n.val = bits v.toNat 4 2 ∧ r.get GPI_PIN.drive n.val = bits v.toNat 8 2) ∧
  (∀ (s : State) (k : Fin 4) (code : Fin 5), s.awake = true →
      Does (.vddioChange k code) s fun r => r.get GPI_BANK_STATUS.vddio k.val = code.val) ∧
  (∀ (s : State) (t us : Nat) (x : Sfdp) (ok0 ok1 : Bool), s.pwr.dawnReady = true → (fastRead x).isSome = true → 25 ≤ x.density → s.dic.defaults = [] →
      Does (.dawn t us 2 (some x) ok0 ok1) s fun r => (if (s.directory 0).isNone = true ∧ (s.directory 1).isNone = true then r.get BOT_STATUS.step = 1 ∧ r.get BOT_STATUS.err = 4 ∧ r.get BOT_FLASH.density = x.density % 256
       else if (s.bootImage 2 1 0).2 = none then r.get BOT_STATUS.step = 1 ∧ r.get BOT_STATUS.err = 5
       else r.get BOT_DAWN_US.us = us % 2 ^ 32 ∧
         (if (s.coreImages 2).2.any (fun i => i.isNone) = true then r.get BOT_STATUS.step = 7 ∧ r.get BOT_STATUS.err = 6
          else r.get BOT_STATUS.step = 10 ∧ r.get BOT_STATUS.dawn_done = 1))) ∧
  (∀ (s : State) (region : Fin 5), stands s = true →
      Does (.retentionScrub region .corrected) s fun r => r.get PWR_ERR.ret_corrected = 1 ∧ r.pwr = s.pwr) ∧
  (∀ (s : State) (img : List (BitVec 8)), stands s = true → s.pwr.store = some img → s.storeCheck img = 0 →
      Does (.configStore .done) s fun r => r.pwr.store = none ∧ r.get BOT_STORE_ERR.code = 0 ∧ r.flash.read (0x800000 + 0x800000 * (match s.dawnSlot with | some k => 1 - k | none => 0)) (160 + leAt img 8 4) = withGeneration (img.take (160 + leAt img 8 4)) (((match s.dawnSlot with | some k => s.slotGen k | none => 0) + 1) % 2 ^ 31) ∧ ∀ k, s.dawnSlot = some k → ∀ a, 0x800000 + 0x800000 * k ≤ a → a < 0x1000000 + 0x800000 * k → Sparse.get flashErased r.flash.bytes a = Sparse.get flashErased s.flash.bytes a) ∧
  (∀ (s : State), stands s = true → s.pwr.store.isSome = true →
      Does (.configStoreAbort) s fun r => r.pwr.store = none ∧ r.flash = s.flash ∧ r.get BOT_STORE_ERR.code = 6) ∧
  (∀ (s : State) (b : List (BitVec 8)), stands s = true → s.pwr.bundle = some b →
      Does (.vendorUpdate .done) s fun r => r.pwr.bundle = none ∧ r.get BOT_STORE_ERR.code = bundleCode b ∧ (bundleCode b = 0 → r.flash.read 0x2000 b.length = b ∧ r.flash.read 0x400000 b.length = b ∧ r.flash.read 0 4096 = bundleDirectory ((bundleImages b.length b).getD []) 0x2000 ∧ r.flash.read 0x1000 4096 = bundleDirectory ((bundleImages b.length b).getD []) 0x400000) ∧ (bundleCode b ≠ 0 → r.flash = s.flash ∧ r.get BOT_ERR.store_fail = 1))
end

