-- ==== Sys2Proof/Laws/Sparse.lean ====
section
/-! SUPPORT. The laws of sparse tables: a read after a write, and that every operation keeps the canonical form. -/

namespace Sys2Proof.Machine

variable {α : Type}

theorem Sparse.get_erase_ne (d : α) (m : Sparse α) {k x : Nat} (h : x ≠ k) : Sparse.get d (Sparse.erase m k) x = Sparse.get d m x := by
  induction m with
  | nil => rfl
  | cons e m ih =>
    obtain ⟨a, v⟩ := e
    by_cases ha : a = k
    · have hx : a ≠ x := fun e => h (by omega)
      simp only [Sparse.erase, List.filter_cons] at ih ⊢
      simp [ha, Sparse.get, ih, show k ≠ x from fun e => h e.symm]
    · simp only [Sparse.erase, List.filter_cons] at ih ⊢
      simp [ha, Sparse.get, ih]

theorem Sparse.get_erase_same (d : α) (m : Sparse α) (k : Nat) : Sparse.get d (Sparse.erase m k) k = d := by
  induction m with
  | nil => rfl
  | cons e m ih =>
    obtain ⟨a, v⟩ := e
    by_cases ha : a = k
    · simpa [Sparse.erase, List.filter_cons, ha] using ih
    · simpa [Sparse.erase, List.filter_cons, ha, Sparse.get] using ih

theorem Sparse.get_insert_same (d : α) (m : Sparse α) (k : Nat) (v : α) (h : ∀ e ∈ m, e.1 ≠ k) :
    Sparse.get d (Sparse.insert k v m) k = v := by
  induction m with
  | nil => simp [Sparse.insert, Sparse.get]
  | cons e m ih =>
    obtain ⟨a, w⟩ := e
    have ha : a ≠ k := h (a, w) (by simp)
    unfold Sparse.insert
    split
    · simp [Sparse.get]
    · simp [Sparse.get, ha, ih fun e he => h e (by simp [he])]

theorem Sparse.get_insert_ne (d : α) (m : Sparse α) {k x : Nat} (v : α) (h : x ≠ k) :
    Sparse.get d (Sparse.insert k v m) x = Sparse.get d m x := by
  induction m with
  | nil => simp [Sparse.insert, Sparse.get, show k ≠ x from fun e => h e.symm]
  | cons e m ih =>
    obtain ⟨a, w⟩ := e
    unfold Sparse.insert
    split
    · simp [Sparse.get, show k ≠ x from fun e => h e.symm]
    · simp [Sparse.get, ih]

/-- A read after a write to the same key gives the value written. -/
@[simp] theorem Sparse.get_set_same [DecidableEq α] (d : α) (m : Sparse α) (k : Nat) (v : α) : Sparse.get d (Sparse.set d m k v) k = v := by
  unfold Sparse.set
  split
  · next h => rw [Sparse.get_erase_same, h]
  · refine Sparse.get_insert_same d _ k v fun e he => ?_
    simpa [Sparse.erase] using (List.mem_filter.mp he).2

/-- A write leaves every other key alone. -/
theorem Sparse.get_set_ne [DecidableEq α] (d : α) (m : Sparse α) {k x : Nat} (v : α) (h : x ≠ k) :
    Sparse.get d (Sparse.set d m k v) x = Sparse.get d m x := by
  unfold Sparse.set
  split
  · exact Sparse.get_erase_ne d m h
  · rw [Sparse.get_insert_ne d _ v h, Sparse.get_erase_ne d m h]

@[simp] theorem Sparse.get_upd_same [DecidableEq α] (d : α) (m : Sparse α) (k : Nat) (f : α → α) :
    Sparse.get d (Sparse.upd d m k f) k = f (Sparse.get d m k) := by simp [Sparse.upd]

theorem Sparse.get_upd_ne [DecidableEq α] (d : α) (m : Sparse α) {k x : Nat} (f : α → α) (h : x ≠ k) :
    Sparse.get d (Sparse.upd d m k f) x = Sparse.get d m x := Sparse.get_set_ne d m _ h

/-- The canonical form, said of the list: keys strictly rise and no value is the default. -/
theorem Sparse.wf_iff [DecidableEq α] (d : α) (m : Sparse α) :
    Sparse.wf d m = true ↔ m.Pairwise (fun a b => a.1 < b.1) ∧ ∀ e ∈ m, e.2 ≠ d := by
  induction m with
  | nil => simp [Sparse.wf]
  | cons e m ih =>
    obtain ⟨a, v⟩ := e
    cases m with
    | nil => simp [Sparse.wf]
    | cons e' m' =>
      obtain ⟨b, w⟩ := e'
      simp only [Sparse.wf, Bool.and_eq_true, decide_eq_true_eq, ih]
      rw [List.pairwise_cons (a := (a, v))]
      constructor
      · rintro ⟨⟨hv, hab⟩, hp, hd⟩
        refine ⟨⟨fun x hx => ?_, hp⟩, fun x hx => ?_⟩
        · rcases List.mem_cons.mp hx with rfl | hx
          · exact hab
          · exact Nat.lt_trans hab ((List.pairwise_cons.mp hp).1 x hx)
        · rcases List.mem_cons.mp hx with rfl | hx
          · exact hv
          · exact hd x hx
      · rintro ⟨⟨h1, hp⟩, hd⟩
        exact ⟨⟨hd (a, v) (by simp), h1 (b, w) (by simp)⟩, hp, fun x hx => hd x (by simp [List.mem_cons.mp hx])⟩

theorem Sparse.wf_filter [DecidableEq α] (d : α) (m : Sparse α) (p : Nat × α → Bool) (h : Sparse.wf d m = true) :
    Sparse.wf d (m.filter p) = true := by
  rw [Sparse.wf_iff] at h ⊢
  exact ⟨h.1.filter p, fun e he => h.2 e (List.mem_filter.mp he).1⟩

theorem Sparse.wf_keep [DecidableEq α] (d : α) (m : Sparse α) (p : Nat → Bool) (h : Sparse.wf d m = true) :
    Sparse.wf d (Sparse.keep m p) = true := Sparse.wf_filter d m _ h

theorem Sparse.mem_insert (k : Nat) (v : α) (m : Sparse α) (e : Nat × α) : e ∈ Sparse.insert k v m → e = (k, v) ∨ e ∈ m := by
  induction m with
  | nil => simp [Sparse.insert]
  | cons x m ih =>
    obtain ⟨a, w⟩ := x
    unfold Sparse.insert
    split
    · simp
    · intro h
      rcases List.mem_cons.mp h with h | h
      · simp [h]
      · rcases ih h with h | h
        · exact .inl h
        · simp [h]

theorem Sparse.wf_insert [DecidableEq α] (d : α) (k : Nat) (v : α) (m : Sparse α) (hv : v ≠ d) (hk : ∀ e ∈ m, e.1 ≠ k)
    (h : Sparse.wf d m = true) : Sparse.wf d (Sparse.insert k v m) = true := by
  rw [Sparse.wf_iff] at h ⊢
  refine ⟨?_, fun e he => ?_⟩
  · obtain ⟨hp, -⟩ := h
    induction m with
    | nil => simp [Sparse.insert]
    | cons x m ih =>
      obtain ⟨a, w⟩ := x
      have hp' := List.pairwise_cons.mp hp
      unfold Sparse.insert
      split
      · next hlt =>
        refine List.pairwise_cons.mpr ⟨fun e he => ?_, hp⟩
        rcases List.mem_cons.mp he with rfl | he
        · exact hlt
        · exact Nat.lt_trans hlt (hp'.1 e he)
      · next hge =>
        refine List.pairwise_cons.mpr ⟨fun e he => ?_, ih (fun e he => hk e (by simp [he])) hp'.2⟩
        rcases Sparse.mem_insert k v m e he with rfl | he
        · have : a ≠ k := hk (a, w) (by simp)
          show a < k
          omega
        · exact hp'.1 e he
  · rcases Sparse.mem_insert k v m e he with rfl | he
    · exact hv
    · exact h.2 e he

/-- A write keeps the canonical form. -/
theorem Sparse.wf_set [DecidableEq α] (d : α) (m : Sparse α) (k : Nat) (v : α) (h : Sparse.wf d m = true) :
    Sparse.wf d (Sparse.set d m k v) = true := by
  unfold Sparse.set
  split
  · exact Sparse.wf_filter d m _ h
  · next hv =>
    refine Sparse.wf_insert d k v _ hv (fun e he => ?_) (Sparse.wf_filter d m _ h)
    simpa [Sparse.erase] using (List.mem_filter.mp he).2

theorem Sparse.wf_upd [DecidableEq α] (d : α) (m : Sparse α) (k : Nat) (f : α → α) (h : Sparse.wf d m = true) :
    Sparse.wf d (Sparse.upd d m k f) = true := Sparse.wf_set d m k _ h

/-- A fold of updates keeps the canonical form. -/
theorem Sparse.wf_foldl_upd [DecidableEq α] {β : Type} (d : α) (k : β → Nat) (f : β → α → α) (l : List β) (m : Sparse α)
    (h : Sparse.wf d m = true) : Sparse.wf d (l.foldl (fun m e => Sparse.upd d m (k e) (f e)) m) = true := by
  induction l generalizing m with
  | nil => exact h
  | cons e l ih => exact ih _ (Sparse.wf_upd d m _ _ h)

theorem Sparse.get_keep_same (d : α) (m : Sparse α) (p : Nat → Bool) (k : Nat) (h : p k = true) :
    Sparse.get d (Sparse.keep m p) k = Sparse.get d m k := by
  induction m with
  | nil => rfl
  | cons e m ih =>
    obtain ⟨a, v⟩ := e
    simp only [Sparse.keep, List.filter_cons] at ih ⊢
    by_cases ha : a = k
    · subst ha
      simp [h, Sparse.get]
    · split
      · simp [Sparse.get, ha, ih]
      · simp [Sparse.get, ha, ih]

theorem Sparse.get_keep_out (d : α) (m : Sparse α) (p : Nat → Bool) (k : Nat) (h : p k = false) :
    Sparse.get d (Sparse.keep m p) k = d := by
  induction m with
  | nil => rfl
  | cons e m ih =>
    obtain ⟨a, v⟩ := e
    simp only [Sparse.keep, List.filter_cons] at ih ⊢
    by_cases ha : a = k
    · subst ha
      simpa [h] using ih
    · split
      · simp [Sparse.get, ha, ih]
      · exact ih

end Sys2Proof.Machine
end

