-- ==== Sys2Proof/Laws/Only.lean ====
section
/-! SUPPORT. What an operation may change: a mask of register pages (bits 0 to 31) and of parts of the state (from bit 32),
everything else standing as it was, and the canonical forms and the waiting commands untouched. -/

namespace Sys2Proof.Machine

/-- Mask `a` allows no more than mask `b`. -/
abbrev Covers (a b : Nat) : Prop := a &&& b = a

theorem Covers.trans {a b c : Nat} (h : Covers a b) (k : Covers b c) : Covers a c := by
  unfold Covers at *
  rw [← h, Nat.and_assoc, k]

theorem Covers.testBit {a b n : Nat} (h : Covers a b) (k : a.testBit n = true) : b.testBit n = true := by
  have := congrArg (Nat.testBit · n) h
  simp only [Nat.testBit_and, k, Bool.true_and] at this
  exact this

/-- From `s` to `t` no more than mask `A` allows has changed: the commands that wait stand as they were, the tables keep their
canonical form, a register of a page outside `A` reads as before, and so does every part of the state outside `A`. -/
structure Only (A : Nat) (s t : State) : Prop where
  pending : t.pending = s.pending
  csrWf : Sparse.wf 0 s.csr = true → Sparse.wf 0 t.csr = true
  memWf : Sparse.wf memDefault s.mem = true → Sparse.wf memDefault t.mem = true
  poisonWf : Sparse.wf false s.poison = true → Sparse.wf false t.poison = true
  lanesWf : Sparse.wf {} s.lanes = true → Sparse.wf {} t.lanes = true
  countsWf : Sparse.wf 0 s.counts = true → Sparse.wf 0 t.counts = true
  regs : ∀ k, k / 0x200000 < 23 → A.testBit (k / 0x200000) = false → Sparse.get 0 t.csr k = Sparse.get 0 s.csr k
  now : A.testBit 34 = false → t.now = s.now
  dawnAt : A.testBit 35 = false → t.dawnAt = s.dawnAt
  freeCount : A.testBit 36 = false → t.freeCount = s.freeCount
  sent : A.testBit 37 = false → t.sent = s.sent
  mem : A.testBit 38 = false → t.mem = s.mem
  poison : A.testBit 39 = false → t.poison = s.poison
  gno : A.testBit 40 = false → t.gno = s.gno
  edge : A.testBit 41 = false → t.edge = s.edge
  ledIn : A.testBit 42 = false → t.ledIn = s.ledIn
  pri : A.testBit 43 = false → t.pri = s.pri
  arr : A.testBit 44 = false → t.arr = s.arr
  seq : A.testBit 45 = false → t.seq = s.seq
  wor : A.testBit 46 = false → t.wor = s.wor
  hbm : A.testBit 47 = false → t.hbm = s.hbm
  rdo : A.testBit 48 = false → t.rdo = s.rdo
  cpu : A.testBit 49 = false → t.cpu = s.cpu
  ring : A.testBit 50 = false → t.ring = s.ring
  sem : A.testBit 51 = false → t.sem = s.sem
  tar : A.testBit 52 = false → t.tar = s.tar
  led : A.testBit 53 = false → t.led = s.led
  dic : A.testBit 54 = false → t.dic = s.dic
  pwr : A.testBit 55 = false → t.pwr = s.pwr
  flash : A.testBit 56 = false → t.flash = s.flash
  tap : A.testBit 57 = false → t.tap = s.tap
  lanes : A.testBit 58 = false → t.lanes = s.lanes
  erq : A.testBit 59 = false → t.erq = s.erq
  counts : A.testBit 60 = false → t.counts = s.counts

namespace Only

variable {A : Nat} {s₀ s t : State} {α β : Type}

theorem rfl : Only A s s := by constructor <;> simp

theorem trans (h : Only A s₀ s) (k : Only A s t) : Only A s₀ t where
  pending := k.pending.trans h.pending
  csrWf := fun w => k.csrWf (h.csrWf w)
  memWf := fun w => k.memWf (h.memWf w)
  poisonWf := fun w => k.poisonWf (h.poisonWf w)
  lanesWf := fun w => k.lanesWf (h.lanesWf w)
  countsWf := fun w => k.countsWf (h.countsWf w)
  regs := fun x hp hx => (k.regs x hp hx).trans (h.regs x hp hx)
  now := fun x => (k.now x).trans (h.now x)
  dawnAt := fun x => (k.dawnAt x).trans (h.dawnAt x)
  freeCount := fun x => (k.freeCount x).trans (h.freeCount x)
  sent := fun x => (k.sent x).trans (h.sent x)
  mem := fun x => (k.mem x).trans (h.mem x)
  poison := fun x => (k.poison x).trans (h.poison x)
  gno := fun x => (k.gno x).trans (h.gno x)
  edge := fun x => (k.edge x).trans (h.edge x)
  ledIn := fun x => (k.ledIn x).trans (h.ledIn x)
  pri := fun x => (k.pri x).trans (h.pri x)
  arr := fun x => (k.arr x).trans (h.arr x)
  seq := fun x => (k.seq x).trans (h.seq x)
  wor := fun x => (k.wor x).trans (h.wor x)
  hbm := fun x => (k.hbm x).trans (h.hbm x)
  rdo := fun x => (k.rdo x).trans (h.rdo x)
  cpu := fun x => (k.cpu x).trans (h.cpu x)
  ring := fun x => (k.ring x).trans (h.ring x)
  sem := fun x => (k.sem x).trans (h.sem x)
  tar := fun x => (k.tar x).trans (h.tar x)
  led := fun x => (k.led x).trans (h.led x)
  dic := fun x => (k.dic x).trans (h.dic x)
  pwr := fun x => (k.pwr x).trans (h.pwr x)
  flash := fun x => (k.flash x).trans (h.flash x)
  tap := fun x => (k.tap x).trans (h.tap x)
  lanes := fun x => (k.lanes x).trans (h.lanes x)
  erq := fun x => (k.erq x).trans (h.erq x)
  counts := fun x => (k.counts x).trans (h.counts x)

/-- A smaller mask says more. -/
theorem mono {B : Nat} (h : Only B s t) (c : Covers B A) : Only A s t := by
  have hb : ∀ n, A.testBit n = false → B.testBit n = false := fun n hn => by
    by_contra hc
    have := c.testBit (n := n) (by simpa using hc)
    simp [hn] at this
  constructor
  case pending => exact h.pending
  case csrWf => exact h.csrWf
  case memWf => exact h.memWf
  case poisonWf => exact h.poisonWf
  case lanesWf => exact h.lanesWf
  case countsWf => exact h.countsWf
  case regs => exact fun k hp hk => h.regs k hp (hb _ hk)
  case now => exact fun x => h.now (hb _ x)
  case dawnAt => exact fun x => h.dawnAt (hb _ x)
  case freeCount => exact fun x => h.freeCount (hb _ x)
  case sent => exact fun x => h.sent (hb _ x)
  case mem => exact fun x => h.mem (hb _ x)
  case poison => exact fun x => h.poison (hb _ x)
  case gno => exact fun x => h.gno (hb _ x)
  case edge => exact fun x => h.edge (hb _ x)
  case ledIn => exact fun x => h.ledIn (hb _ x)
  case pri => exact fun x => h.pri (hb _ x)
  case arr => exact fun x => h.arr (hb _ x)
  case seq => exact fun x => h.seq (hb _ x)
  case wor => exact fun x => h.wor (hb _ x)
  case hbm => exact fun x => h.hbm (hb _ x)
  case rdo => exact fun x => h.rdo (hb _ x)
  case cpu => exact fun x => h.cpu (hb _ x)
  case ring => exact fun x => h.ring (hb _ x)
  case sem => exact fun x => h.sem (hb _ x)
  case tar => exact fun x => h.tar (hb _ x)
  case led => exact fun x => h.led (hb _ x)
  case dic => exact fun x => h.dic (hb _ x)
  case pwr => exact fun x => h.pwr (hb _ x)
  case flash => exact fun x => h.flash (hb _ x)
  case tap => exact fun x => h.tap (hb _ x)
  case lanes => exact fun x => h.lanes (hb _ x)
  case erq => exact fun x => h.erq (hb _ x)
  case counts => exact fun x => h.counts (hb _ x)

theorem ite {c : Prop} [Decidable c] {t u : State} (h : Only A s t) (k : Only A s u) : Only A s (if c then t else u) := by
  split <;> assumption

theorem foldl {g : State → α → State} (l : List α) (h : Only A s₀ s) (k : ∀ s x, Only A s₀ s → Only A s₀ (g s x)) :
    Only A s₀ (l.foldl g s) := by
  induction l generalizing s with
  | nil => exact h
  | cons x l ih => exact ih (k s x h)

theorem forN {g : Nat → State → State} (n : Nat) (h : Only A s₀ s) (k : ∀ n s, Only A s₀ s → Only A s₀ (g n s)) :
    Only A s₀ (Machine.forN n s g) := by
  induction n with
  | zero => exact h
  | succ n ih => exact k n _ ih

/-- The state that comes first in a pair. -/
structure Fst (A : Nat) (s : State) (p : State × α) : Prop where
  out : Only A s p.1

theorem Fst.of {p : State × α} (h : Fst A s p) : Only A s p.1 := h.out
theorem Fst.pair {x : α} (h : Only A s t) : Fst A s (t, x) := ⟨h⟩
theorem Fst.unpair {x : α} (h : Fst A s (t, x)) : Only A s t := h.out
theorem Fst.elim {p : State × α} {x : α} (e : p = (t, x)) (h : Fst A s p) : Only A s t := by subst e; exact h.out
theorem Fst.ite {c : Prop} [Decidable c] {p q : State × α} (h : Fst A s p) (k : Fst A s q) : Fst A s (if c then p else q) := by
  split <;> assumption

theorem Fst.foldl {g : State × β → α → State × β} (l : List α) {p : State × β} (h : Fst A s₀ p) (k : ∀ q x, Fst A s₀ q → Fst A s₀ (g q x)) :
    Fst A s₀ (l.foldl g p) := by
  induction l generalizing p with
  | nil => exact h
  | cons x l ih => exact ih (k p x h)

/-- The state that comes second in a pair. -/
structure Snd (A : Nat) (s : State) (p : α × State) : Prop where
  out : Only A s p.2

theorem Snd.of {p : α × State} (h : Snd A s p) : Only A s p.2 := h.out
theorem Snd.pair {x : α} (h : Only A s t) : Snd A s (x, t) := ⟨h⟩
theorem Snd.elim {p : α × State} {x : α} (e : p = (x, t)) (h : Snd A s p) : Only A s t := by subst e; exact h.out
theorem Snd.ite {c : Prop} [Decidable c] {p q : α × State} (h : Snd A s p) (k : Snd A s q) : Snd A s (if c then p else q) := by
  split <;> assumption

/-- The state that an option holds. -/
structure Opt (A : Nat) (s : State) (p : Option State) : Prop where
  out : ∀ t, p = some t → Only A s t

theorem Opt.none : Opt A s none := ⟨fun _ h => nomatch h⟩
theorem Opt.some (h : Only A s t) : Opt A s (some t) := ⟨fun _ e => by cases e; exact h⟩
theorem Opt.elim {p : Option State} (e : p = .some t) (h : Opt A s p) : Only A s t := h.out t e
theorem Opt.getD {p : Option State} (h : Opt A s p) (k : Only A s t) : Only A s (p.getD t) := by
  cases p with
  | none => exact k
  | some u => exact h.out u (Eq.refl _)
theorem Opt.ite {c : Prop} [Decidable c] {p q : Option State} (h : Opt A s p) (k : Opt A s q) : Opt A s (if c then p else q) := by
  split <;> assumption
theorem Opt.map {f : α → State} {p : Option α} (h : ∀ x, Only A s (f x)) : Opt A s (p.map f) := by
  cases p with
  | none => exact Opt.none
  | some x => exact Opt.some (h x)

/-- The state of a pair that an option holds. -/
structure OptFst (A : Nat) (s : State) (p : Option (State × α)) : Prop where
  out : ∀ t x, p = some (t, x) → Only A s t

theorem OptFst.none : OptFst (α := α) A s none := ⟨fun _ _ h => nomatch h⟩
theorem OptFst.some {x : α} (h : Only A s t) : OptFst A s (some (t, x)) := ⟨fun _ _ e => by cases e; exact h⟩
theorem OptFst.elim {p : Option (State × α)} {x : α} (e : p = .some (t, x)) (h : OptFst A s p) : Only A s t := h.out t x e
theorem OptFst.ite {c : Prop} [Decidable c] {p q : Option (State × α)} (h : OptFst A s p) (k : OptFst A s q) : OptFst A s (if c then p else q) := by
  split <;> assumption

theorem OptFst.mapped {p : Option State} {x : α} (h : Opt A s p) : OptFst A s (p.map fun t => (t, x)) := by
  cases p with
  | none => exact OptFst.none
  | some u => exact OptFst.some (h.out u (Eq.refl _))

/-! ### Updates of one part -/

theorem set_now {x_now} (h : Only A s₀ s) (c_now : A.testBit 34 = true) :
    Only A s₀ { s with now := x_now } := by
  refine h.trans ?_
  constructor
  case pending => exact Eq.refl _
  case csrWf => exact id
  case memWf => exact id
  case poisonWf => exact id
  case lanesWf => exact id
  case countsWf => exact id
  case regs => exact fun _ _ _ => Eq.refl _
  case now => intro e; simp [c_now] at e
  case dawnAt => exact fun _ => Eq.refl _
  case freeCount => exact fun _ => Eq.refl _
  case sent => exact fun _ => Eq.refl _
  case mem => exact fun _ => Eq.refl _
  case poison => exact fun _ => Eq.refl _
  case gno => exact fun _ => Eq.refl _
  case edge => exact fun _ => Eq.refl _
  case ledIn => exact fun _ => Eq.refl _
  case pri => exact fun _ => Eq.refl _
  case arr => exact fun _ => Eq.refl _
  case seq => exact fun _ => Eq.refl _
  case wor => exact fun _ => Eq.refl _
  case hbm => exact fun _ => Eq.refl _
  case rdo => exact fun _ => Eq.refl _
  case cpu => exact fun _ => Eq.refl _
  case ring => exact fun _ => Eq.refl _
  case sem => exact fun _ => Eq.refl _
  case tar => exact fun _ => Eq.refl _
  case led => exact fun _ => Eq.refl _
  case dic => exact fun _ => Eq.refl _
  case pwr => exact fun _ => Eq.refl _
  case flash => exact fun _ => Eq.refl _
  case tap => exact fun _ => Eq.refl _
  case lanes => exact fun _ => Eq.refl _
  case erq => exact fun _ => Eq.refl _
  case counts => exact fun _ => Eq.refl _

theorem set_dawnAt {x_dawnAt} (h : Only A s₀ s) (c_dawnAt : A.testBit 35 = true) :
    Only A s₀ { s with dawnAt := x_dawnAt } := by
  refine h.trans ?_
  constructor
  case pending => exact Eq.refl _
  case csrWf => exact id
  case memWf => exact id
  case poisonWf => exact id
  case lanesWf => exact id
  case countsWf => exact id
  case regs => exact fun _ _ _ => Eq.refl _
  case now => exact fun _ => Eq.refl _
  case dawnAt => intro e; simp [c_dawnAt] at e
  case freeCount => exact fun _ => Eq.refl _
  case sent => exact fun _ => Eq.refl _
  case mem => exact fun _ => Eq.refl _
  case poison => exact fun _ => Eq.refl _
  case gno => exact fun _ => Eq.refl _
  case edge => exact fun _ => Eq.refl _
  case ledIn => exact fun _ => Eq.refl _
  case pri => exact fun _ => Eq.refl _
  case arr => exact fun _ => Eq.refl _
  case seq => exact fun _ => Eq.refl _
  case wor => exact fun _ => Eq.refl _
  case hbm => exact fun _ => Eq.refl _
  case rdo => exact fun _ => Eq.refl _
  case cpu => exact fun _ => Eq.refl _
  case ring => exact fun _ => Eq.refl _
  case sem => exact fun _ => Eq.refl _
  case tar => exact fun _ => Eq.refl _
  case led => exact fun _ => Eq.refl _
  case dic => exact fun _ => Eq.refl _
  case pwr => exact fun _ => Eq.refl _
  case flash => exact fun _ => Eq.refl _
  case tap => exact fun _ => Eq.refl _
  case lanes => exact fun _ => Eq.refl _
  case erq => exact fun _ => Eq.refl _
  case counts => exact fun _ => Eq.refl _

theorem set_freeCount {x_freeCount} (h : Only A s₀ s) (c_freeCount : A.testBit 36 = true) :
    Only A s₀ { s with freeCount := x_freeCount } := by
  refine h.trans ?_
  constructor
  case pending => exact Eq.refl _
  case csrWf => exact id
  case memWf => exact id
  case poisonWf => exact id
  case lanesWf => exact id
  case countsWf => exact id
  case regs => exact fun _ _ _ => Eq.refl _
  case now => exact fun _ => Eq.refl _
  case dawnAt => exact fun _ => Eq.refl _
  case freeCount => intro e; simp [c_freeCount] at e
  case sent => exact fun _ => Eq.refl _
  case mem => exact fun _ => Eq.refl _
  case poison => exact fun _ => Eq.refl _
  case gno => exact fun _ => Eq.refl _
  case edge => exact fun _ => Eq.refl _
  case ledIn => exact fun _ => Eq.refl _
  case pri => exact fun _ => Eq.refl _
  case arr => exact fun _ => Eq.refl _
  case seq => exact fun _ => Eq.refl _
  case wor => exact fun _ => Eq.refl _
  case hbm => exact fun _ => Eq.refl _
  case rdo => exact fun _ => Eq.refl _
  case cpu => exact fun _ => Eq.refl _
  case ring => exact fun _ => Eq.refl _
  case sem => exact fun _ => Eq.refl _
  case tar => exact fun _ => Eq.refl _
  case led => exact fun _ => Eq.refl _
  case dic => exact fun _ => Eq.refl _
  case pwr => exact fun _ => Eq.refl _
  case flash => exact fun _ => Eq.refl _
  case tap => exact fun _ => Eq.refl _
  case lanes => exact fun _ => Eq.refl _
  case erq => exact fun _ => Eq.refl _
  case counts => exact fun _ => Eq.refl _

theorem set_sent {x_sent} (h : Only A s₀ s) (c_sent : A.testBit 37 = true) :
    Only A s₀ { s with sent := x_sent } := by
  refine h.trans ?_
  constructor
  case pending => exact Eq.refl _
  case csrWf => exact id
  case memWf => exact id
  case poisonWf => exact id
  case lanesWf => exact id
  case countsWf => exact id
  case regs => exact fun _ _ _ => Eq.refl _
  case now => exact fun _ => Eq.refl _
  case dawnAt => exact fun _ => Eq.refl _
  case freeCount => exact fun _ => Eq.refl _
  case sent => intro e; simp [c_sent] at e
  case mem => exact fun _ => Eq.refl _
  case poison => exact fun _ => Eq.refl _
  case gno => exact fun _ => Eq.refl _
  case edge => exact fun _ => Eq.refl _
  case ledIn => exact fun _ => Eq.refl _
  case pri => exact fun _ => Eq.refl _
  case arr => exact fun _ => Eq.refl _
  case seq => exact fun _ => Eq.refl _
  case wor => exact fun _ => Eq.refl _
  case hbm => exact fun _ => Eq.refl _
  case rdo => exact fun _ => Eq.refl _
  case cpu => exact fun _ => Eq.refl _
  case ring => exact fun _ => Eq.refl _
  case sem => exact fun _ => Eq.refl _
  case tar => exact fun _ => Eq.refl _
  case led => exact fun _ => Eq.refl _
  case dic => exact fun _ => Eq.refl _
  case pwr => exact fun _ => Eq.refl _
  case flash => exact fun _ => Eq.refl _
  case tap => exact fun _ => Eq.refl _
  case lanes => exact fun _ => Eq.refl _
  case erq => exact fun _ => Eq.refl _
  case counts => exact fun _ => Eq.refl _

theorem set_mem {x_mem} (h : Only A s₀ s) (w_mem : Sparse.wf memDefault s.mem = true → Sparse.wf memDefault x_mem = true) (c_mem : A.testBit 38 = true) :
    Only A s₀ { s with mem := x_mem } := by
  refine h.trans ?_
  constructor
  case pending => exact Eq.refl _
  case csrWf => exact id
  case memWf => exact w_mem
  case poisonWf => exact id
  case lanesWf => exact id
  case countsWf => exact id
  case regs => exact fun _ _ _ => Eq.refl _
  case now => exact fun _ => Eq.refl _
  case dawnAt => exact fun _ => Eq.refl _
  case freeCount => exact fun _ => Eq.refl _
  case sent => exact fun _ => Eq.refl _
  case mem => intro e; simp [c_mem] at e
  case poison => exact fun _ => Eq.refl _
  case gno => exact fun _ => Eq.refl _
  case edge => exact fun _ => Eq.refl _
  case ledIn => exact fun _ => Eq.refl _
  case pri => exact fun _ => Eq.refl _
  case arr => exact fun _ => Eq.refl _
  case seq => exact fun _ => Eq.refl _
  case wor => exact fun _ => Eq.refl _
  case hbm => exact fun _ => Eq.refl _
  case rdo => exact fun _ => Eq.refl _
  case cpu => exact fun _ => Eq.refl _
  case ring => exact fun _ => Eq.refl _
  case sem => exact fun _ => Eq.refl _
  case tar => exact fun _ => Eq.refl _
  case led => exact fun _ => Eq.refl _
  case dic => exact fun _ => Eq.refl _
  case pwr => exact fun _ => Eq.refl _
  case flash => exact fun _ => Eq.refl _
  case tap => exact fun _ => Eq.refl _
  case lanes => exact fun _ => Eq.refl _
  case erq => exact fun _ => Eq.refl _
  case counts => exact fun _ => Eq.refl _

theorem set_poison {x_poison} (h : Only A s₀ s) (w_poison : Sparse.wf false s.poison = true → Sparse.wf false x_poison = true) (c_poison : A.testBit 39 = true) :
    Only A s₀ { s with poison := x_poison } := by
  refine h.trans ?_
  constructor
  case pending => exact Eq.refl _
  case csrWf => exact id
  case memWf => exact id
  case poisonWf => exact w_poison
  case lanesWf => exact id
  case countsWf => exact id
  case regs => exact fun _ _ _ => Eq.refl _
  case now => exact fun _ => Eq.refl _
  case dawnAt => exact fun _ => Eq.refl _
  case freeCount => exact fun _ => Eq.refl _
  case sent => exact fun _ => Eq.refl _
  case mem => exact fun _ => Eq.refl _
  case poison => intro e; simp [c_poison] at e
  case gno => exact fun _ => Eq.refl _
  case edge => exact fun _ => Eq.refl _
  case ledIn => exact fun _ => Eq.refl _
  case pri => exact fun _ => Eq.refl _
  case arr => exact fun _ => Eq.refl _
  case seq => exact fun _ => Eq.refl _
  case wor => exact fun _ => Eq.refl _
  case hbm => exact fun _ => Eq.refl _
  case rdo => exact fun _ => Eq.refl _
  case cpu => exact fun _ => Eq.refl _
  case ring => exact fun _ => Eq.refl _
  case sem => exact fun _ => Eq.refl _
  case tar => exact fun _ => Eq.refl _
  case led => exact fun _ => Eq.refl _
  case dic => exact fun _ => Eq.refl _
  case pwr => exact fun _ => Eq.refl _
  case flash => exact fun _ => Eq.refl _
  case tap => exact fun _ => Eq.refl _
  case lanes => exact fun _ => Eq.refl _
  case erq => exact fun _ => Eq.refl _
  case counts => exact fun _ => Eq.refl _

theorem set_gno {x_gno} (h : Only A s₀ s) (c_gno : A.testBit 40 = true) :
    Only A s₀ { s with gno := x_gno } := by
  refine h.trans ?_
  constructor
  case pending => exact Eq.refl _
  case csrWf => exact id
  case memWf => exact id
  case poisonWf => exact id
  case lanesWf => exact id
  case countsWf => exact id
  case regs => exact fun _ _ _ => Eq.refl _
  case now => exact fun _ => Eq.refl _
  case dawnAt => exact fun _ => Eq.refl _
  case freeCount => exact fun _ => Eq.refl _
  case sent => exact fun _ => Eq.refl _
  case mem => exact fun _ => Eq.refl _
  case poison => exact fun _ => Eq.refl _
  case gno => intro e; simp [c_gno] at e
  case edge => exact fun _ => Eq.refl _
  case ledIn => exact fun _ => Eq.refl _
  case pri => exact fun _ => Eq.refl _
  case arr => exact fun _ => Eq.refl _
  case seq => exact fun _ => Eq.refl _
  case wor => exact fun _ => Eq.refl _
  case hbm => exact fun _ => Eq.refl _
  case rdo => exact fun _ => Eq.refl _
  case cpu => exact fun _ => Eq.refl _
  case ring => exact fun _ => Eq.refl _
  case sem => exact fun _ => Eq.refl _
  case tar => exact fun _ => Eq.refl _
  case led => exact fun _ => Eq.refl _
  case dic => exact fun _ => Eq.refl _
  case pwr => exact fun _ => Eq.refl _
  case flash => exact fun _ => Eq.refl _
  case tap => exact fun _ => Eq.refl _
  case lanes => exact fun _ => Eq.refl _
  case erq => exact fun _ => Eq.refl _
  case counts => exact fun _ => Eq.refl _

theorem set_edge {x_edge} (h : Only A s₀ s) (c_edge : A.testBit 41 = true) :
    Only A s₀ { s with edge := x_edge } := by
  refine h.trans ?_
  constructor
  case pending => exact Eq.refl _
  case csrWf => exact id
  case memWf => exact id
  case poisonWf => exact id
  case lanesWf => exact id
  case countsWf => exact id
  case regs => exact fun _ _ _ => Eq.refl _
  case now => exact fun _ => Eq.refl _
  case dawnAt => exact fun _ => Eq.refl _
  case freeCount => exact fun _ => Eq.refl _
  case sent => exact fun _ => Eq.refl _
  case mem => exact fun _ => Eq.refl _
  case poison => exact fun _ => Eq.refl _
  case gno => exact fun _ => Eq.refl _
  case edge => intro e; simp [c_edge] at e
  case ledIn => exact fun _ => Eq.refl _
  case pri => exact fun _ => Eq.refl _
  case arr => exact fun _ => Eq.refl _
  case seq => exact fun _ => Eq.refl _
  case wor => exact fun _ => Eq.refl _
  case hbm => exact fun _ => Eq.refl _
  case rdo => exact fun _ => Eq.refl _
  case cpu => exact fun _ => Eq.refl _
  case ring => exact fun _ => Eq.refl _
  case sem => exact fun _ => Eq.refl _
  case tar => exact fun _ => Eq.refl _
  case led => exact fun _ => Eq.refl _
  case dic => exact fun _ => Eq.refl _
  case pwr => exact fun _ => Eq.refl _
  case flash => exact fun _ => Eq.refl _
  case tap => exact fun _ => Eq.refl _
  case lanes => exact fun _ => Eq.refl _
  case erq => exact fun _ => Eq.refl _
  case counts => exact fun _ => Eq.refl _

theorem set_ledIn {x_ledIn} (h : Only A s₀ s) (c_ledIn : A.testBit 42 = true) :
    Only A s₀ { s with ledIn := x_ledIn } := by
  refine h.trans ?_
  constructor
  case pending => exact Eq.refl _
  case csrWf => exact id
  case memWf => exact id
  case poisonWf => exact id
  case lanesWf => exact id
  case countsWf => exact id
  case regs => exact fun _ _ _ => Eq.refl _
  case now => exact fun _ => Eq.refl _
  case dawnAt => exact fun _ => Eq.refl _
  case freeCount => exact fun _ => Eq.refl _
  case sent => exact fun _ => Eq.refl _
  case mem => exact fun _ => Eq.refl _
  case poison => exact fun _ => Eq.refl _
  case gno => exact fun _ => Eq.refl _
  case edge => exact fun _ => Eq.refl _
  case ledIn => intro e; simp [c_ledIn] at e
  case pri => exact fun _ => Eq.refl _
  case arr => exact fun _ => Eq.refl _
  case seq => exact fun _ => Eq.refl _
  case wor => exact fun _ => Eq.refl _
  case hbm => exact fun _ => Eq.refl _
  case rdo => exact fun _ => Eq.refl _
  case cpu => exact fun _ => Eq.refl _
  case ring => exact fun _ => Eq.refl _
  case sem => exact fun _ => Eq.refl _
  case tar => exact fun _ => Eq.refl _
  case led => exact fun _ => Eq.refl _
  case dic => exact fun _ => Eq.refl _
  case pwr => exact fun _ => Eq.refl _
  case flash => exact fun _ => Eq.refl _
  case tap => exact fun _ => Eq.refl _
  case lanes => exact fun _ => Eq.refl _
  case erq => exact fun _ => Eq.refl _
  case counts => exact fun _ => Eq.refl _

theorem set_pri {x_pri} (h : Only A s₀ s) (c_pri : A.testBit 43 = true) :
    Only A s₀ { s with pri := x_pri } := by
  refine h.trans ?_
  constructor
  case pending => exact Eq.refl _
  case csrWf => exact id
  case memWf => exact id
  case poisonWf => exact id
  case lanesWf => exact id
  case countsWf => exact id
  case regs => exact fun _ _ _ => Eq.refl _
  case now => exact fun _ => Eq.refl _
  case dawnAt => exact fun _ => Eq.refl _
  case freeCount => exact fun _ => Eq.refl _
  case sent => exact fun _ => Eq.refl _
  case mem => exact fun _ => Eq.refl _
  case poison => exact fun _ => Eq.refl _
  case gno => exact fun _ => Eq.refl _
  case edge => exact fun _ => Eq.refl _
  case ledIn => exact fun _ => Eq.refl _
  case pri => intro e; simp [c_pri] at e
  case arr => exact fun _ => Eq.refl _
  case seq => exact fun _ => Eq.refl _
  case wor => exact fun _ => Eq.refl _
  case hbm => exact fun _ => Eq.refl _
  case rdo => exact fun _ => Eq.refl _
  case cpu => exact fun _ => Eq.refl _
  case ring => exact fun _ => Eq.refl _
  case sem => exact fun _ => Eq.refl _
  case tar => exact fun _ => Eq.refl _
  case led => exact fun _ => Eq.refl _
  case dic => exact fun _ => Eq.refl _
  case pwr => exact fun _ => Eq.refl _
  case flash => exact fun _ => Eq.refl _
  case tap => exact fun _ => Eq.refl _
  case lanes => exact fun _ => Eq.refl _
  case erq => exact fun _ => Eq.refl _
  case counts => exact fun _ => Eq.refl _

theorem set_arr {x_arr} (h : Only A s₀ s) (c_arr : A.testBit 44 = true) :
    Only A s₀ { s with arr := x_arr } := by
  refine h.trans ?_
  constructor
  case pending => exact Eq.refl _
  case csrWf => exact id
  case memWf => exact id
  case poisonWf => exact id
  case lanesWf => exact id
  case countsWf => exact id
  case regs => exact fun _ _ _ => Eq.refl _
  case now => exact fun _ => Eq.refl _
  case dawnAt => exact fun _ => Eq.refl _
  case freeCount => exact fun _ => Eq.refl _
  case sent => exact fun _ => Eq.refl _
  case mem => exact fun _ => Eq.refl _
  case poison => exact fun _ => Eq.refl _
  case gno => exact fun _ => Eq.refl _
  case edge => exact fun _ => Eq.refl _
  case ledIn => exact fun _ => Eq.refl _
  case pri => exact fun _ => Eq.refl _
  case arr => intro e; simp [c_arr] at e
  case seq => exact fun _ => Eq.refl _
  case wor => exact fun _ => Eq.refl _
  case hbm => exact fun _ => Eq.refl _
  case rdo => exact fun _ => Eq.refl _
  case cpu => exact fun _ => Eq.refl _
  case ring => exact fun _ => Eq.refl _
  case sem => exact fun _ => Eq.refl _
  case tar => exact fun _ => Eq.refl _
  case led => exact fun _ => Eq.refl _
  case dic => exact fun _ => Eq.refl _
  case pwr => exact fun _ => Eq.refl _
  case flash => exact fun _ => Eq.refl _
  case tap => exact fun _ => Eq.refl _
  case lanes => exact fun _ => Eq.refl _
  case erq => exact fun _ => Eq.refl _
  case counts => exact fun _ => Eq.refl _

theorem set_seq {x_seq} (h : Only A s₀ s) (c_seq : A.testBit 45 = true) :
    Only A s₀ { s with seq := x_seq } := by
  refine h.trans ?_
  constructor
  case pending => exact Eq.refl _
  case csrWf => exact id
  case memWf => exact id
  case poisonWf => exact id
  case lanesWf => exact id
  case countsWf => exact id
  case regs => exact fun _ _ _ => Eq.refl _
  case now => exact fun _ => Eq.refl _
  case dawnAt => exact fun _ => Eq.refl _
  case freeCount => exact fun _ => Eq.refl _
  case sent => exact fun _ => Eq.refl _
  case mem => exact fun _ => Eq.refl _
  case poison => exact fun _ => Eq.refl _
  case gno => exact fun _ => Eq.refl _
  case edge => exact fun _ => Eq.refl _
  case ledIn => exact fun _ => Eq.refl _
  case pri => exact fun _ => Eq.refl _
  case arr => exact fun _ => Eq.refl _
  case seq => intro e; simp [c_seq] at e
  case wor => exact fun _ => Eq.refl _
  case hbm => exact fun _ => Eq.refl _
  case rdo => exact fun _ => Eq.refl _
  case cpu => exact fun _ => Eq.refl _
  case ring => exact fun _ => Eq.refl _
  case sem => exact fun _ => Eq.refl _
  case tar => exact fun _ => Eq.refl _
  case led => exact fun _ => Eq.refl _
  case dic => exact fun _ => Eq.refl _
  case pwr => exact fun _ => Eq.refl _
  case flash => exact fun _ => Eq.refl _
  case tap => exact fun _ => Eq.refl _
  case lanes => exact fun _ => Eq.refl _
  case erq => exact fun _ => Eq.refl _
  case counts => exact fun _ => Eq.refl _

theorem set_wor {x_wor} (h : Only A s₀ s) (c_wor : A.testBit 46 = true) :
    Only A s₀ { s with wor := x_wor } := by
  refine h.trans ?_
  constructor
  case pending => exact Eq.refl _
  case csrWf => exact id
  case memWf => exact id
  case poisonWf => exact id
  case lanesWf => exact id
  case countsWf => exact id
  case regs => exact fun _ _ _ => Eq.refl _
  case now => exact fun _ => Eq.refl _
  case dawnAt => exact fun _ => Eq.refl _
  case freeCount => exact fun _ => Eq.refl _
  case sent => exact fun _ => Eq.refl _
  case mem => exact fun _ => Eq.refl _
  case poison => exact fun _ => Eq.refl _
  case gno => exact fun _ => Eq.refl _
  case edge => exact fun _ => Eq.refl _
  case ledIn => exact fun _ => Eq.refl _
  case pri => exact fun _ => Eq.refl _
  case arr => exact fun _ => Eq.refl _
  case seq => exact fun _ => Eq.refl _
  case wor => intro e; simp [c_wor] at e
  case hbm => exact fun _ => Eq.refl _
  case rdo => exact fun _ => Eq.refl _
  case cpu => exact fun _ => Eq.refl _
  case ring => exact fun _ => Eq.refl _
  case sem => exact fun _ => Eq.refl _
  case tar => exact fun _ => Eq.refl _
  case led => exact fun _ => Eq.refl _
  case dic => exact fun _ => Eq.refl _
  case pwr => exact fun _ => Eq.refl _
  case flash => exact fun _ => Eq.refl _
  case tap => exact fun _ => Eq.refl _
  case lanes => exact fun _ => Eq.refl _
  case erq => exact fun _ => Eq.refl _
  case counts => exact fun _ => Eq.refl _

theorem set_hbm {x_hbm} (h : Only A s₀ s) (c_hbm : A.testBit 47 = true) :
    Only A s₀ { s with hbm := x_hbm } := by
  refine h.trans ?_
  constructor
  case pending => exact Eq.refl _
  case csrWf => exact id
  case memWf => exact id
  case poisonWf => exact id
  case lanesWf => exact id
  case countsWf => exact id
  case regs => exact fun _ _ _ => Eq.refl _
  case now => exact fun _ => Eq.refl _
  case dawnAt => exact fun _ => Eq.refl _
  case freeCount => exact fun _ => Eq.refl _
  case sent => exact fun _ => Eq.refl _
  case mem => exact fun _ => Eq.refl _
  case poison => exact fun _ => Eq.refl _
  case gno => exact fun _ => Eq.refl _
  case edge => exact fun _ => Eq.refl _
  case ledIn => exact fun _ => Eq.refl _
  case pri => exact fun _ => Eq.refl _
  case arr => exact fun _ => Eq.refl _
  case seq => exact fun _ => Eq.refl _
  case wor => exact fun _ => Eq.refl _
  case hbm => intro e; simp [c_hbm] at e
  case rdo => exact fun _ => Eq.refl _
  case cpu => exact fun _ => Eq.refl _
  case ring => exact fun _ => Eq.refl _
  case sem => exact fun _ => Eq.refl _
  case tar => exact fun _ => Eq.refl _
  case led => exact fun _ => Eq.refl _
  case dic => exact fun _ => Eq.refl _
  case pwr => exact fun _ => Eq.refl _
  case flash => exact fun _ => Eq.refl _
  case tap => exact fun _ => Eq.refl _
  case lanes => exact fun _ => Eq.refl _
  case erq => exact fun _ => Eq.refl _
  case counts => exact fun _ => Eq.refl _

theorem set_rdo {x_rdo} (h : Only A s₀ s) (c_rdo : A.testBit 48 = true) :
    Only A s₀ { s with rdo := x_rdo } := by
  refine h.trans ?_
  constructor
  case pending => exact Eq.refl _
  case csrWf => exact id
  case memWf => exact id
  case poisonWf => exact id
  case lanesWf => exact id
  case countsWf => exact id
  case regs => exact fun _ _ _ => Eq.refl _
  case now => exact fun _ => Eq.refl _
  case dawnAt => exact fun _ => Eq.refl _
  case freeCount => exact fun _ => Eq.refl _
  case sent => exact fun _ => Eq.refl _
  case mem => exact fun _ => Eq.refl _
  case poison => exact fun _ => Eq.refl _
  case gno => exact fun _ => Eq.refl _
  case edge => exact fun _ => Eq.refl _
  case ledIn => exact fun _ => Eq.refl _
  case pri => exact fun _ => Eq.refl _
  case arr => exact fun _ => Eq.refl _
  case seq => exact fun _ => Eq.refl _
  case wor => exact fun _ => Eq.refl _
  case hbm => exact fun _ => Eq.refl _
  case rdo => intro e; simp [c_rdo] at e
  case cpu => exact fun _ => Eq.refl _
  case ring => exact fun _ => Eq.refl _
  case sem => exact fun _ => Eq.refl _
  case tar => exact fun _ => Eq.refl _
  case led => exact fun _ => Eq.refl _
  case dic => exact fun _ => Eq.refl _
  case pwr => exact fun _ => Eq.refl _
  case flash => exact fun _ => Eq.refl _
  case tap => exact fun _ => Eq.refl _
  case lanes => exact fun _ => Eq.refl _
  case erq => exact fun _ => Eq.refl _
  case counts => exact fun _ => Eq.refl _

theorem set_cpu {x_cpu} (h : Only A s₀ s) (c_cpu : A.testBit 49 = true) :
    Only A s₀ { s with cpu := x_cpu } := by
  refine h.trans ?_
  constructor
  case pending => exact Eq.refl _
  case csrWf => exact id
  case memWf => exact id
  case poisonWf => exact id
  case lanesWf => exact id
  case countsWf => exact id
  case regs => exact fun _ _ _ => Eq.refl _
  case now => exact fun _ => Eq.refl _
  case dawnAt => exact fun _ => Eq.refl _
  case freeCount => exact fun _ => Eq.refl _
  case sent => exact fun _ => Eq.refl _
  case mem => exact fun _ => Eq.refl _
  case poison => exact fun _ => Eq.refl _
  case gno => exact fun _ => Eq.refl _
  case edge => exact fun _ => Eq.refl _
  case ledIn => exact fun _ => Eq.refl _
  case pri => exact fun _ => Eq.refl _
  case arr => exact fun _ => Eq.refl _
  case seq => exact fun _ => Eq.refl _
  case wor => exact fun _ => Eq.refl _
  case hbm => exact fun _ => Eq.refl _
  case rdo => exact fun _ => Eq.refl _
  case cpu => intro e; simp [c_cpu] at e
  case ring => exact fun _ => Eq.refl _
  case sem => exact fun _ => Eq.refl _
  case tar => exact fun _ => Eq.refl _
  case led => exact fun _ => Eq.refl _
  case dic => exact fun _ => Eq.refl _
  case pwr => exact fun _ => Eq.refl _
  case flash => exact fun _ => Eq.refl _
  case tap => exact fun _ => Eq.refl _
  case lanes => exact fun _ => Eq.refl _
  case erq => exact fun _ => Eq.refl _
  case counts => exact fun _ => Eq.refl _

theorem set_ring {x_ring} (h : Only A s₀ s) (c_ring : A.testBit 50 = true) :
    Only A s₀ { s with ring := x_ring } := by
  refine h.trans ?_
  constructor
  case pending => exact Eq.refl _
  case csrWf => exact id
  case memWf => exact id
  case poisonWf => exact id
  case lanesWf => exact id
  case countsWf => exact id
  case regs => exact fun _ _ _ => Eq.refl _
  case now => exact fun _ => Eq.refl _
  case dawnAt => exact fun _ => Eq.refl _
  case freeCount => exact fun _ => Eq.refl _
  case sent => exact fun _ => Eq.refl _
  case mem => exact fun _ => Eq.refl _
  case poison => exact fun _ => Eq.refl _
  case gno => exact fun _ => Eq.refl _
  case edge => exact fun _ => Eq.refl _
  case ledIn => exact fun _ => Eq.refl _
  case pri => exact fun _ => Eq.refl _
  case arr => exact fun _ => Eq.refl _
  case seq => exact fun _ => Eq.refl _
  case wor => exact fun _ => Eq.refl _
  case hbm => exact fun _ => Eq.refl _
  case rdo => exact fun _ => Eq.refl _
  case cpu => exact fun _ => Eq.refl _
  case ring => intro e; simp [c_ring] at e
  case sem => exact fun _ => Eq.refl _
  case tar => exact fun _ => Eq.refl _
  case led => exact fun _ => Eq.refl _
  case dic => exact fun _ => Eq.refl _
  case pwr => exact fun _ => Eq.refl _
  case flash => exact fun _ => Eq.refl _
  case tap => exact fun _ => Eq.refl _
  case lanes => exact fun _ => Eq.refl _
  case erq => exact fun _ => Eq.refl _
  case counts => exact fun _ => Eq.refl _

theorem set_sem {x_sem} (h : Only A s₀ s) (c_sem : A.testBit 51 = true) :
    Only A s₀ { s with sem := x_sem } := by
  refine h.trans ?_
  constructor
  case pending => exact Eq.refl _
  case csrWf => exact id
  case memWf => exact id
  case poisonWf => exact id
  case lanesWf => exact id
  case countsWf => exact id
  case regs => exact fun _ _ _ => Eq.refl _
  case now => exact fun _ => Eq.refl _
  case dawnAt => exact fun _ => Eq.refl _
  case freeCount => exact fun _ => Eq.refl _
  case sent => exact fun _ => Eq.refl _
  case mem => exact fun _ => Eq.refl _
  case poison => exact fun _ => Eq.refl _
  case gno => exact fun _ => Eq.refl _
  case edge => exact fun _ => Eq.refl _
  case ledIn => exact fun _ => Eq.refl _
  case pri => exact fun _ => Eq.refl _
  case arr => exact fun _ => Eq.refl _
  case seq => exact fun _ => Eq.refl _
  case wor => exact fun _ => Eq.refl _
  case hbm => exact fun _ => Eq.refl _
  case rdo => exact fun _ => Eq.refl _
  case cpu => exact fun _ => Eq.refl _
  case ring => exact fun _ => Eq.refl _
  case sem => intro e; simp [c_sem] at e
  case tar => exact fun _ => Eq.refl _
  case led => exact fun _ => Eq.refl _
  case dic => exact fun _ => Eq.refl _
  case pwr => exact fun _ => Eq.refl _
  case flash => exact fun _ => Eq.refl _
  case tap => exact fun _ => Eq.refl _
  case lanes => exact fun _ => Eq.refl _
  case erq => exact fun _ => Eq.refl _
  case counts => exact fun _ => Eq.refl _

theorem set_tar {x_tar} (h : Only A s₀ s) (c_tar : A.testBit 52 = true) :
    Only A s₀ { s with tar := x_tar } := by
  refine h.trans ?_
  constructor
  case pending => exact Eq.refl _
  case csrWf => exact id
  case memWf => exact id
  case poisonWf => exact id
  case lanesWf => exact id
  case countsWf => exact id
  case regs => exact fun _ _ _ => Eq.refl _
  case now => exact fun _ => Eq.refl _
  case dawnAt => exact fun _ => Eq.refl _
  case freeCount => exact fun _ => Eq.refl _
  case sent => exact fun _ => Eq.refl _
  case mem => exact fun _ => Eq.refl _
  case poison => exact fun _ => Eq.refl _
  case gno => exact fun _ => Eq.refl _
  case edge => exact fun _ => Eq.refl _
  case ledIn => exact fun _ => Eq.refl _
  case pri => exact fun _ => Eq.refl _
  case arr => exact fun _ => Eq.refl _
  case seq => exact fun _ => Eq.refl _
  case wor => exact fun _ => Eq.refl _
  case hbm => exact fun _ => Eq.refl _
  case rdo => exact fun _ => Eq.refl _
  case cpu => exact fun _ => Eq.refl _
  case ring => exact fun _ => Eq.refl _
  case sem => exact fun _ => Eq.refl _
  case tar => intro e; simp [c_tar] at e
  case led => exact fun _ => Eq.refl _
  case dic => exact fun _ => Eq.refl _
  case pwr => exact fun _ => Eq.refl _
  case flash => exact fun _ => Eq.refl _
  case tap => exact fun _ => Eq.refl _
  case lanes => exact fun _ => Eq.refl _
  case erq => exact fun _ => Eq.refl _
  case counts => exact fun _ => Eq.refl _

theorem set_led {x_led} (h : Only A s₀ s) (c_led : A.testBit 53 = true) :
    Only A s₀ { s with led := x_led } := by
  refine h.trans ?_
  constructor
  case pending => exact Eq.refl _
  case csrWf => exact id
  case memWf => exact id
  case poisonWf => exact id
  case lanesWf => exact id
  case countsWf => exact id
  case regs => exact fun _ _ _ => Eq.refl _
  case now => exact fun _ => Eq.refl _
  case dawnAt => exact fun _ => Eq.refl _
  case freeCount => exact fun _ => Eq.refl _
  case sent => exact fun _ => Eq.refl _
  case mem => exact fun _ => Eq.refl _
  case poison => exact fun _ => Eq.refl _
  case gno => exact fun _ => Eq.refl _
  case edge => exact fun _ => Eq.refl _
  case ledIn => exact fun _ => Eq.refl _
  case pri => exact fun _ => Eq.refl _
  case arr => exact fun _ => Eq.refl _
  case seq => exact fun _ => Eq.refl _
  case wor => exact fun _ => Eq.refl _
  case hbm => exact fun _ => Eq.refl _
  case rdo => exact fun _ => Eq.refl _
  case cpu => exact fun _ => Eq.refl _
  case ring => exact fun _ => Eq.refl _
  case sem => exact fun _ => Eq.refl _
  case tar => exact fun _ => Eq.refl _
  case led => intro e; simp [c_led] at e
  case dic => exact fun _ => Eq.refl _
  case pwr => exact fun _ => Eq.refl _
  case flash => exact fun _ => Eq.refl _
  case tap => exact fun _ => Eq.refl _
  case lanes => exact fun _ => Eq.refl _
  case erq => exact fun _ => Eq.refl _
  case counts => exact fun _ => Eq.refl _

theorem set_dic {x_dic} (h : Only A s₀ s) (c_dic : A.testBit 54 = true) :
    Only A s₀ { s with dic := x_dic } := by
  refine h.trans ?_
  constructor
  case pending => exact Eq.refl _
  case csrWf => exact id
  case memWf => exact id
  case poisonWf => exact id
  case lanesWf => exact id
  case countsWf => exact id
  case regs => exact fun _ _ _ => Eq.refl _
  case now => exact fun _ => Eq.refl _
  case dawnAt => exact fun _ => Eq.refl _
  case freeCount => exact fun _ => Eq.refl _
  case sent => exact fun _ => Eq.refl _
  case mem => exact fun _ => Eq.refl _
  case poison => exact fun _ => Eq.refl _
  case gno => exact fun _ => Eq.refl _
  case edge => exact fun _ => Eq.refl _
  case ledIn => exact fun _ => Eq.refl _
  case pri => exact fun _ => Eq.refl _
  case arr => exact fun _ => Eq.refl _
  case seq => exact fun _ => Eq.refl _
  case wor => exact fun _ => Eq.refl _
  case hbm => exact fun _ => Eq.refl _
  case rdo => exact fun _ => Eq.refl _
  case cpu => exact fun _ => Eq.refl _
  case ring => exact fun _ => Eq.refl _
  case sem => exact fun _ => Eq.refl _
  case tar => exact fun _ => Eq.refl _
  case led => exact fun _ => Eq.refl _
  case dic => intro e; simp [c_dic] at e
  case pwr => exact fun _ => Eq.refl _
  case flash => exact fun _ => Eq.refl _
  case tap => exact fun _ => Eq.refl _
  case lanes => exact fun _ => Eq.refl _
  case erq => exact fun _ => Eq.refl _
  case counts => exact fun _ => Eq.refl _

theorem set_pwr {x_pwr} (h : Only A s₀ s) (c_pwr : A.testBit 55 = true) :
    Only A s₀ { s with pwr := x_pwr } := by
  refine h.trans ?_
  constructor
  case pending => exact Eq.refl _
  case csrWf => exact id
  case memWf => exact id
  case poisonWf => exact id
  case lanesWf => exact id
  case countsWf => exact id
  case regs => exact fun _ _ _ => Eq.refl _
  case now => exact fun _ => Eq.refl _
  case dawnAt => exact fun _ => Eq.refl _
  case freeCount => exact fun _ => Eq.refl _
  case sent => exact fun _ => Eq.refl _
  case mem => exact fun _ => Eq.refl _
  case poison => exact fun _ => Eq.refl _
  case gno => exact fun _ => Eq.refl _
  case edge => exact fun _ => Eq.refl _
  case ledIn => exact fun _ => Eq.refl _
  case pri => exact fun _ => Eq.refl _
  case arr => exact fun _ => Eq.refl _
  case seq => exact fun _ => Eq.refl _
  case wor => exact fun _ => Eq.refl _
  case hbm => exact fun _ => Eq.refl _
  case rdo => exact fun _ => Eq.refl _
  case cpu => exact fun _ => Eq.refl _
  case ring => exact fun _ => Eq.refl _
  case sem => exact fun _ => Eq.refl _
  case tar => exact fun _ => Eq.refl _
  case led => exact fun _ => Eq.refl _
  case dic => exact fun _ => Eq.refl _
  case pwr => intro e; simp [c_pwr] at e
  case flash => exact fun _ => Eq.refl _
  case tap => exact fun _ => Eq.refl _
  case lanes => exact fun _ => Eq.refl _
  case erq => exact fun _ => Eq.refl _
  case counts => exact fun _ => Eq.refl _

theorem set_flash {x_flash} (h : Only A s₀ s) (c_flash : A.testBit 56 = true) :
    Only A s₀ { s with flash := x_flash } := by
  refine h.trans ?_
  constructor
  case pending => exact Eq.refl _
  case csrWf => exact id
  case memWf => exact id
  case poisonWf => exact id
  case lanesWf => exact id
  case countsWf => exact id
  case regs => exact fun _ _ _ => Eq.refl _
  case now => exact fun _ => Eq.refl _
  case dawnAt => exact fun _ => Eq.refl _
  case freeCount => exact fun _ => Eq.refl _
  case sent => exact fun _ => Eq.refl _
  case mem => exact fun _ => Eq.refl _
  case poison => exact fun _ => Eq.refl _
  case gno => exact fun _ => Eq.refl _
  case edge => exact fun _ => Eq.refl _
  case ledIn => exact fun _ => Eq.refl _
  case pri => exact fun _ => Eq.refl _
  case arr => exact fun _ => Eq.refl _
  case seq => exact fun _ => Eq.refl _
  case wor => exact fun _ => Eq.refl _
  case hbm => exact fun _ => Eq.refl _
  case rdo => exact fun _ => Eq.refl _
  case cpu => exact fun _ => Eq.refl _
  case ring => exact fun _ => Eq.refl _
  case sem => exact fun _ => Eq.refl _
  case tar => exact fun _ => Eq.refl _
  case led => exact fun _ => Eq.refl _
  case dic => exact fun _ => Eq.refl _
  case pwr => exact fun _ => Eq.refl _
  case flash => intro e; simp [c_flash] at e
  case tap => exact fun _ => Eq.refl _
  case lanes => exact fun _ => Eq.refl _
  case erq => exact fun _ => Eq.refl _
  case counts => exact fun _ => Eq.refl _

theorem set_tap {x_tap} (h : Only A s₀ s) (c_tap : A.testBit 57 = true) :
    Only A s₀ { s with tap := x_tap } := by
  refine h.trans ?_
  constructor
  case pending => exact Eq.refl _
  case csrWf => exact id
  case memWf => exact id
  case poisonWf => exact id
  case lanesWf => exact id
  case countsWf => exact id
  case regs => exact fun _ _ _ => Eq.refl _
  case now => exact fun _ => Eq.refl _
  case dawnAt => exact fun _ => Eq.refl _
  case freeCount => exact fun _ => Eq.refl _
  case sent => exact fun _ => Eq.refl _
  case mem => exact fun _ => Eq.refl _
  case poison => exact fun _ => Eq.refl _
  case gno => exact fun _ => Eq.refl _
  case edge => exact fun _ => Eq.refl _
  case ledIn => exact fun _ => Eq.refl _
  case pri => exact fun _ => Eq.refl _
  case arr => exact fun _ => Eq.refl _
  case seq => exact fun _ => Eq.refl _
  case wor => exact fun _ => Eq.refl _
  case hbm => exact fun _ => Eq.refl _
  case rdo => exact fun _ => Eq.refl _
  case cpu => exact fun _ => Eq.refl _
  case ring => exact fun _ => Eq.refl _
  case sem => exact fun _ => Eq.refl _
  case tar => exact fun _ => Eq.refl _
  case led => exact fun _ => Eq.refl _
  case dic => exact fun _ => Eq.refl _
  case pwr => exact fun _ => Eq.refl _
  case flash => exact fun _ => Eq.refl _
  case tap => intro e; simp [c_tap] at e
  case lanes => exact fun _ => Eq.refl _
  case erq => exact fun _ => Eq.refl _
  case counts => exact fun _ => Eq.refl _

theorem set_lanes {x_lanes} (h : Only A s₀ s) (w_lanes : Sparse.wf {} s.lanes = true → Sparse.wf {} x_lanes = true) (c_lanes : A.testBit 58 = true) :
    Only A s₀ { s with lanes := x_lanes } := by
  refine h.trans ?_
  constructor
  case pending => exact Eq.refl _
  case csrWf => exact id
  case memWf => exact id
  case poisonWf => exact id
  case lanesWf => exact w_lanes
  case countsWf => exact id
  case regs => exact fun _ _ _ => Eq.refl _
  case now => exact fun _ => Eq.refl _
  case dawnAt => exact fun _ => Eq.refl _
  case freeCount => exact fun _ => Eq.refl _
  case sent => exact fun _ => Eq.refl _
  case mem => exact fun _ => Eq.refl _
  case poison => exact fun _ => Eq.refl _
  case gno => exact fun _ => Eq.refl _
  case edge => exact fun _ => Eq.refl _
  case ledIn => exact fun _ => Eq.refl _
  case pri => exact fun _ => Eq.refl _
  case arr => exact fun _ => Eq.refl _
  case seq => exact fun _ => Eq.refl _
  case wor => exact fun _ => Eq.refl _
  case hbm => exact fun _ => Eq.refl _
  case rdo => exact fun _ => Eq.refl _
  case cpu => exact fun _ => Eq.refl _
  case ring => exact fun _ => Eq.refl _
  case sem => exact fun _ => Eq.refl _
  case tar => exact fun _ => Eq.refl _
  case led => exact fun _ => Eq.refl _
  case dic => exact fun _ => Eq.refl _
  case pwr => exact fun _ => Eq.refl _
  case flash => exact fun _ => Eq.refl _
  case tap => exact fun _ => Eq.refl _
  case lanes => intro e; simp [c_lanes] at e
  case erq => exact fun _ => Eq.refl _
  case counts => exact fun _ => Eq.refl _

theorem set_erq {x_erq} (h : Only A s₀ s) (c_erq : A.testBit 59 = true) :
    Only A s₀ { s with erq := x_erq } := by
  refine h.trans ?_
  constructor
  case pending => exact Eq.refl _
  case csrWf => exact id
  case memWf => exact id
  case poisonWf => exact id
  case lanesWf => exact id
  case countsWf => exact id
  case regs => exact fun _ _ _ => Eq.refl _
  case now => exact fun _ => Eq.refl _
  case dawnAt => exact fun _ => Eq.refl _
  case freeCount => exact fun _ => Eq.refl _
  case sent => exact fun _ => Eq.refl _
  case mem => exact fun _ => Eq.refl _
  case poison => exact fun _ => Eq.refl _
  case gno => exact fun _ => Eq.refl _
  case edge => exact fun _ => Eq.refl _
  case ledIn => exact fun _ => Eq.refl _
  case pri => exact fun _ => Eq.refl _
  case arr => exact fun _ => Eq.refl _
  case seq => exact fun _ => Eq.refl _
  case wor => exact fun _ => Eq.refl _
  case hbm => exact fun _ => Eq.refl _
  case rdo => exact fun _ => Eq.refl _
  case cpu => exact fun _ => Eq.refl _
  case ring => exact fun _ => Eq.refl _
  case sem => exact fun _ => Eq.refl _
  case tar => exact fun _ => Eq.refl _
  case led => exact fun _ => Eq.refl _
  case dic => exact fun _ => Eq.refl _
  case pwr => exact fun _ => Eq.refl _
  case flash => exact fun _ => Eq.refl _
  case tap => exact fun _ => Eq.refl _
  case lanes => exact fun _ => Eq.refl _
  case erq => intro e; simp [c_erq] at e
  case counts => exact fun _ => Eq.refl _

theorem set_counts {x_counts} (h : Only A s₀ s) (w_counts : Sparse.wf 0 s.counts = true → Sparse.wf 0 x_counts = true) (c_counts : A.testBit 60 = true) :
    Only A s₀ { s with counts := x_counts } := by
  refine h.trans ?_
  constructor
  case pending => exact Eq.refl _
  case csrWf => exact id
  case memWf => exact id
  case poisonWf => exact id
  case lanesWf => exact id
  case countsWf => exact w_counts
  case regs => exact fun _ _ _ => Eq.refl _
  case now => exact fun _ => Eq.refl _
  case dawnAt => exact fun _ => Eq.refl _
  case freeCount => exact fun _ => Eq.refl _
  case sent => exact fun _ => Eq.refl _
  case mem => exact fun _ => Eq.refl _
  case poison => exact fun _ => Eq.refl _
  case gno => exact fun _ => Eq.refl _
  case edge => exact fun _ => Eq.refl _
  case ledIn => exact fun _ => Eq.refl _
  case pri => exact fun _ => Eq.refl _
  case arr => exact fun _ => Eq.refl _
  case seq => exact fun _ => Eq.refl _
  case wor => exact fun _ => Eq.refl _
  case hbm => exact fun _ => Eq.refl _
  case rdo => exact fun _ => Eq.refl _
  case cpu => exact fun _ => Eq.refl _
  case ring => exact fun _ => Eq.refl _
  case sem => exact fun _ => Eq.refl _
  case tar => exact fun _ => Eq.refl _
  case led => exact fun _ => Eq.refl _
  case dic => exact fun _ => Eq.refl _
  case pwr => exact fun _ => Eq.refl _
  case flash => exact fun _ => Eq.refl _
  case tap => exact fun _ => Eq.refl _
  case lanes => exact fun _ => Eq.refl _
  case erq => exact fun _ => Eq.refl _
  case counts => intro e; simp [c_counts] at e

theorem set_pri_arr {x_pri} {x_arr} (h : Only A s₀ s) (c_pri : A.testBit 43 = true) (c_arr : A.testBit 44 = true) :
    Only A s₀ { s with pri := x_pri, arr := x_arr } := by
  refine h.trans ?_
  constructor
  case pending => exact Eq.refl _
  case csrWf => exact id
  case memWf => exact id
  case poisonWf => exact id
  case lanesWf => exact id
  case countsWf => exact id
  case regs => exact fun _ _ _ => Eq.refl _
  case now => exact fun _ => Eq.refl _
  case dawnAt => exact fun _ => Eq.refl _
  case freeCount => exact fun _ => Eq.refl _
  case sent => exact fun _ => Eq.refl _
  case mem => exact fun _ => Eq.refl _
  case poison => exact fun _ => Eq.refl _
  case gno => exact fun _ => Eq.refl _
  case edge => exact fun _ => Eq.refl _
  case ledIn => exact fun _ => Eq.refl _
  case pri => intro e; simp [c_pri] at e
  case arr => intro e; simp [c_arr] at e
  case seq => exact fun _ => Eq.refl _
  case wor => exact fun _ => Eq.refl _
  case hbm => exact fun _ => Eq.refl _
  case rdo => exact fun _ => Eq.refl _
  case cpu => exact fun _ => Eq.refl _
  case ring => exact fun _ => Eq.refl _
  case sem => exact fun _ => Eq.refl _
  case tar => exact fun _ => Eq.refl _
  case led => exact fun _ => Eq.refl _
  case dic => exact fun _ => Eq.refl _
  case pwr => exact fun _ => Eq.refl _
  case flash => exact fun _ => Eq.refl _
  case tap => exact fun _ => Eq.refl _
  case lanes => exact fun _ => Eq.refl _
  case erq => exact fun _ => Eq.refl _
  case counts => exact fun _ => Eq.refl _

theorem set_mem_poison {x_mem} {x_poison} (h : Only A s₀ s) (w_mem : Sparse.wf memDefault s.mem = true → Sparse.wf memDefault x_mem = true) (w_poison : Sparse.wf false s.poison = true → Sparse.wf false x_poison = true) (c_mem : A.testBit 38 = true) (c_poison : A.testBit 39 = true) :
    Only A s₀ { s with mem := x_mem, poison := x_poison } := by
  refine h.trans ?_
  constructor
  case pending => exact Eq.refl _
  case csrWf => exact id
  case memWf => exact w_mem
  case poisonWf => exact w_poison
  case lanesWf => exact id
  case countsWf => exact id
  case regs => exact fun _ _ _ => Eq.refl _
  case now => exact fun _ => Eq.refl _
  case dawnAt => exact fun _ => Eq.refl _
  case freeCount => exact fun _ => Eq.refl _
  case sent => exact fun _ => Eq.refl _
  case mem => intro e; simp [c_mem] at e
  case poison => intro e; simp [c_poison] at e
  case gno => exact fun _ => Eq.refl _
  case edge => exact fun _ => Eq.refl _
  case ledIn => exact fun _ => Eq.refl _
  case pri => exact fun _ => Eq.refl _
  case arr => exact fun _ => Eq.refl _
  case seq => exact fun _ => Eq.refl _
  case wor => exact fun _ => Eq.refl _
  case hbm => exact fun _ => Eq.refl _
  case rdo => exact fun _ => Eq.refl _
  case cpu => exact fun _ => Eq.refl _
  case ring => exact fun _ => Eq.refl _
  case sem => exact fun _ => Eq.refl _
  case tar => exact fun _ => Eq.refl _
  case led => exact fun _ => Eq.refl _
  case dic => exact fun _ => Eq.refl _
  case pwr => exact fun _ => Eq.refl _
  case flash => exact fun _ => Eq.refl _
  case tap => exact fun _ => Eq.refl _
  case lanes => exact fun _ => Eq.refl _
  case erq => exact fun _ => Eq.refl _
  case counts => exact fun _ => Eq.refl _

theorem set_freeCount_arr {x_freeCount} {x_arr} (h : Only A s₀ s) (c_freeCount : A.testBit 36 = true) (c_arr : A.testBit 44 = true) :
    Only A s₀ { s with freeCount := x_freeCount, arr := x_arr } := by
  refine h.trans ?_
  constructor
  case pending => exact Eq.refl _
  case csrWf => exact id
  case memWf => exact id
  case poisonWf => exact id
  case lanesWf => exact id
  case countsWf => exact id
  case regs => exact fun _ _ _ => Eq.refl _
  case now => exact fun _ => Eq.refl _
  case dawnAt => exact fun _ => Eq.refl _
  case freeCount => intro e; simp [c_freeCount] at e
  case sent => exact fun _ => Eq.refl _
  case mem => exact fun _ => Eq.refl _
  case poison => exact fun _ => Eq.refl _
  case gno => exact fun _ => Eq.refl _
  case edge => exact fun _ => Eq.refl _
  case ledIn => exact fun _ => Eq.refl _
  case pri => exact fun _ => Eq.refl _
  case arr => intro e; simp [c_arr] at e
  case seq => exact fun _ => Eq.refl _
  case wor => exact fun _ => Eq.refl _
  case hbm => exact fun _ => Eq.refl _
  case rdo => exact fun _ => Eq.refl _
  case cpu => exact fun _ => Eq.refl _
  case ring => exact fun _ => Eq.refl _
  case sem => exact fun _ => Eq.refl _
  case tar => exact fun _ => Eq.refl _
  case led => exact fun _ => Eq.refl _
  case dic => exact fun _ => Eq.refl _
  case pwr => exact fun _ => Eq.refl _
  case flash => exact fun _ => Eq.refl _
  case tap => exact fun _ => Eq.refl _
  case lanes => exact fun _ => Eq.refl _
  case erq => exact fun _ => Eq.refl _
  case counts => exact fun _ => Eq.refl _

theorem set_csr_gno_counts {x_csr} {x_gno} {x_counts} (h : Only A s₀ s) (w_csr : Sparse.wf 0 s.csr = true → Sparse.wf 0 x_csr = true) (w_counts : Sparse.wf 0 s.counts = true → Sparse.wf 0 x_counts = true) (c_gno : A.testBit 40 = true) (c_counts : A.testBit 60 = true) (r_csr : ∀ k, k / 0x200000 < 23 → A.testBit (k / 0x200000) = false → Sparse.get 0 x_csr k = Sparse.get 0 s.csr k) :
    Only A s₀ { s with csr := x_csr, gno := x_gno, counts := x_counts } := by
  refine h.trans ?_
  constructor
  case pending => exact Eq.refl _
  case csrWf => exact w_csr
  case memWf => exact id
  case poisonWf => exact id
  case lanesWf => exact id
  case countsWf => exact w_counts
  case regs => exact r_csr
  case now => exact fun _ => Eq.refl _
  case dawnAt => exact fun _ => Eq.refl _
  case freeCount => exact fun _ => Eq.refl _
  case sent => exact fun _ => Eq.refl _
  case mem => exact fun _ => Eq.refl _
  case poison => exact fun _ => Eq.refl _
  case gno => intro e; simp [c_gno] at e
  case edge => exact fun _ => Eq.refl _
  case ledIn => exact fun _ => Eq.refl _
  case pri => exact fun _ => Eq.refl _
  case arr => exact fun _ => Eq.refl _
  case seq => exact fun _ => Eq.refl _
  case wor => exact fun _ => Eq.refl _
  case hbm => exact fun _ => Eq.refl _
  case rdo => exact fun _ => Eq.refl _
  case cpu => exact fun _ => Eq.refl _
  case ring => exact fun _ => Eq.refl _
  case sem => exact fun _ => Eq.refl _
  case tar => exact fun _ => Eq.refl _
  case led => exact fun _ => Eq.refl _
  case dic => exact fun _ => Eq.refl _
  case pwr => exact fun _ => Eq.refl _
  case flash => exact fun _ => Eq.refl _
  case tap => exact fun _ => Eq.refl _
  case lanes => exact fun _ => Eq.refl _
  case erq => exact fun _ => Eq.refl _
  case counts => intro e; simp [c_counts] at e

theorem set_csr_dic {x_csr} {x_dic} (h : Only A s₀ s) (w_csr : Sparse.wf 0 s.csr = true → Sparse.wf 0 x_csr = true) (c_dic : A.testBit 54 = true) (r_csr : ∀ k, k / 0x200000 < 23 → A.testBit (k / 0x200000) = false → Sparse.get 0 x_csr k = Sparse.get 0 s.csr k) :
    Only A s₀ { s with csr := x_csr, dic := x_dic } := by
  refine h.trans ?_
  constructor
  case pending => exact Eq.refl _
  case csrWf => exact w_csr
  case memWf => exact id
  case poisonWf => exact id
  case lanesWf => exact id
  case countsWf => exact id
  case regs => exact r_csr
  case now => exact fun _ => Eq.refl _
  case dawnAt => exact fun _ => Eq.refl _
  case freeCount => exact fun _ => Eq.refl _
  case sent => exact fun _ => Eq.refl _
  case mem => exact fun _ => Eq.refl _
  case poison => exact fun _ => Eq.refl _
  case gno => exact fun _ => Eq.refl _
  case edge => exact fun _ => Eq.refl _
  case ledIn => exact fun _ => Eq.refl _
  case pri => exact fun _ => Eq.refl _
  case arr => exact fun _ => Eq.refl _
  case seq => exact fun _ => Eq.refl _
  case wor => exact fun _ => Eq.refl _
  case hbm => exact fun _ => Eq.refl _
  case rdo => exact fun _ => Eq.refl _
  case cpu => exact fun _ => Eq.refl _
  case ring => exact fun _ => Eq.refl _
  case sem => exact fun _ => Eq.refl _
  case tar => exact fun _ => Eq.refl _
  case led => exact fun _ => Eq.refl _
  case dic => intro e; simp [c_dic] at e
  case pwr => exact fun _ => Eq.refl _
  case flash => exact fun _ => Eq.refl _
  case tap => exact fun _ => Eq.refl _
  case lanes => exact fun _ => Eq.refl _
  case erq => exact fun _ => Eq.refl _
  case counts => exact fun _ => Eq.refl _

theorem set_dic_tap {x_dic} {x_tap} (h : Only A s₀ s) (c_dic : A.testBit 54 = true) (c_tap : A.testBit 57 = true) :
    Only A s₀ { s with dic := x_dic, tap := x_tap } := by
  refine h.trans ?_
  constructor
  case pending => exact Eq.refl _
  case csrWf => exact id
  case memWf => exact id
  case poisonWf => exact id
  case lanesWf => exact id
  case countsWf => exact id
  case regs => exact fun _ _ _ => Eq.refl _
  case now => exact fun _ => Eq.refl _
  case dawnAt => exact fun _ => Eq.refl _
  case freeCount => exact fun _ => Eq.refl _
  case sent => exact fun _ => Eq.refl _
  case mem => exact fun _ => Eq.refl _
  case poison => exact fun _ => Eq.refl _
  case gno => exact fun _ => Eq.refl _
  case edge => exact fun _ => Eq.refl _
  case ledIn => exact fun _ => Eq.refl _
  case pri => exact fun _ => Eq.refl _
  case arr => exact fun _ => Eq.refl _
  case seq => exact fun _ => Eq.refl _
  case wor => exact fun _ => Eq.refl _
  case hbm => exact fun _ => Eq.refl _
  case rdo => exact fun _ => Eq.refl _
  case cpu => exact fun _ => Eq.refl _
  case ring => exact fun _ => Eq.refl _
  case sem => exact fun _ => Eq.refl _
  case tar => exact fun _ => Eq.refl _
  case led => exact fun _ => Eq.refl _
  case dic => intro e; simp [c_dic] at e
  case pwr => exact fun _ => Eq.refl _
  case flash => exact fun _ => Eq.refl _
  case tap => intro e; simp [c_tap] at e
  case lanes => exact fun _ => Eq.refl _
  case erq => exact fun _ => Eq.refl _
  case counts => exact fun _ => Eq.refl _

/-- A mask that allows everything leaves the canonical forms and the waiting commands to show. -/
theorem all (hA : Covers 0x1FFFFFFC007FFFFF A) (pending : t.pending = s.pending)
    (csrWf : Sparse.wf 0 s.csr = true → Sparse.wf 0 t.csr = true)
    (memWf : Sparse.wf memDefault s.mem = true → Sparse.wf memDefault t.mem = true)
    (poisonWf : Sparse.wf false s.poison = true → Sparse.wf false t.poison = true)
    (lanesWf : Sparse.wf {} s.lanes = true → Sparse.wf {} t.lanes = true)
    (countsWf : Sparse.wf 0 s.counts = true → Sparse.wf 0 t.counts = true) : Only A s t := by
  have hb : ∀ n, (0x1FFFFFFC007FFFFF : Nat).testBit n = true → A.testBit n = false → False := fun n h1 h2 => by simp [hA.testBit h1] at h2
  constructor
  case pending => exact pending
  case csrWf => exact csrWf
  case memWf => exact memWf
  case poisonWf => exact poisonWf
  case lanesWf => exact lanesWf
  case countsWf => exact countsWf
  case regs =>
    intro k hp hk
    generalize k / 0x200000 = p at hp hk
    interval_cases p <;> exact (hb _ (by decide) hk).elim
  all_goals exact fun h => (hb _ (by decide) h).elim

end Only

end Sys2Proof.Machine
end

