-- ==== Sys2Proof/Laws/OnlyOps.lean ====
section
/-! SUPPORT. What each operation of Machine/Ops.lean may change. -/

set_option linter.unusedTactic false
set_option linter.unreachableTactic false
set_option linter.unusedVariables false

namespace Sys2Proof.Machine

/-- The key of a field lies in its page. -/
theorem Fld.key_page (f : Fld) (i j : Nat) : f.key i j / 0x200000 = f.page := by
  unfold Fld.key
  omega

/-- The mask of one register page. -/
def pageMask (p : Nat) : Nat := if p < 23 then 2 ^ p else 0

theorem pageMask_all (p : Nat) : Covers (pageMask p) 0x7FFFFF := by
  unfold pageMask
  split
  · next h => interval_cases p <;> decide
  · decide

/-- The registers listed for a page stand in it. -/
theorem fieldsOfPage_page (p : Nat) : ∀ f ∈ fieldsOfPage p, f.page = p ∧ p < 23 := by
  by_cases hp : p < 23
  · have : ∀ q < 23, (fieldsOfPage q).all (fun f => f.page == q) = true := by decide +kernel
    intro f hf
    have h := this p hp
    rw [List.all_eq_true] at h
    exact ⟨by simpa using h f hf, hp⟩
  · intro f hf
    have : fieldsOfPage p = [] := by
      unfold fieldsOfPage
      split <;> first | omega | rfl
    simp [this] at hf

theorem State.put_only {A : Nat} {s₀ : State} {s : State} {f : Fld} {v : Nat} {i : Nat} {j : Nat} (hS : Only A s₀ s) (hpf : A.testBit f.page = true) :
    Only A s₀ (State.put s f v i j) := by
  refine hS.trans ?_
  constructor
  case pending => exact Eq.refl _
  case csrWf => exact Sparse.wf_set 0 s.csr _ _
  case memWf => exact id
  case poisonWf => exact id
  case lanesWf => exact id
  case countsWf => exact id
  case regs =>
    intro k _ hk
    refine Sparse.get_set_ne 0 s.csr _ fun e => ?_
    rw [e, Fld.key_page] at hk
    simp [hpf] at hk
  all_goals exact fun _ => Eq.refl _

theorem State.updCopy_only {A : Nat} {s₀ : State} {s : State} {f : Fld} {g : Nat → Nat} {i : Nat} {j : Nat} (hS : Only A s₀ s) (hpf : A.testBit f.page = true) (hA : Covers 0x1000000000000000 A) :
    Only A s₀ (State.updCopy s f g i j) := by
  unfold State.updCopy
  repeat' (first
    | with_reducible exact hS
    | with_reducible assumption
    | (with_reducible refine Covers.testBit hA ?_; decide)
    | (with_reducible refine Covers.trans ?_ hA; decide)
    | (refine fun _ => ?_; intros)
    | with_reducible refine Only.set_counts ?_ ?_ ?_
    | exact Sparse.wf_upd _ _ _ _
    | exact Sparse.wf_set _ _ _ _
    | exact Sparse.wf_filter _ _ _
    | exact Sparse.wf_keep _ _ _
    | exact Sparse.wf_filter _ _ _ (by assumption)
    | exact Sparse.wf_keep _ _ _ (by assumption)
    | exact Sparse.wf_upd _ _ _ _ (by assumption))

theorem State.add_only {A : Nat} {s₀ : State} {s : State} {f : Fld} {n : Nat} {i : Nat} {j : Nat} (hS : Only A s₀ s) (hpf : A.testBit f.page = true) (hA : Covers 0x1000000000000000 A) :
    Only A s₀ (State.add s f n i j) := by
  unfold State.add
  repeat' (first
    | with_reducible exact hS
    | with_reducible assumption
    | (with_reducible refine Covers.testBit hA ?_; decide)
    | (with_reducible refine Covers.trans ?_ hA; decide)
    | (refine fun _ => ?_; intros)
    | (extract_lets -underBinder +onlyGivenNames x; refine (fun (hx : Only A s₀ x) => ?_ : Only A s₀ x → _) ?_; (on_goal 2 => unfold x; clear x); (on_goal 1 => clear_value x; revert x; intro _ _))
    | (extract_lets -underBinder +onlyGivenNames x; unfold x; clear x)
    | (extract_lets -underBinder +onlyGivenNames x; revert x; intro _)
    | with_reducible refine Only.ite ?_ ?_
    | with_reducible refine State.put_only ?_ ?_
    | with_reducible refine State.updCopy_only ?_ ?_ ?_
    | split
    | (refine fun _ => ?_))

theorem State.raiseTo_only {A : Nat} {s₀ : State} {s : State} {f : Fld} {v : Nat} {i : Nat} {j : Nat} (hS : Only A s₀ s) (hpf : A.testBit f.page = true) (hA : Covers 0x1000000000000000 A) :
    Only A s₀ (State.raiseTo s f v i j) := by
  unfold State.raiseTo
  repeat' (first
    | with_reducible exact hS
    | with_reducible assumption
    | (with_reducible refine Covers.testBit hA ?_; decide)
    | (with_reducible refine Covers.trans ?_ hA; decide)
    | (refine fun _ => ?_; intros)
    | with_reducible refine State.put_only ?_ ?_
    | with_reducible refine State.updCopy_only ?_ ?_ ?_)

theorem State.inc_only {A : Nat} {s₀ : State} {s : State} {f : Fld} {i : Nat} {j : Nat} (hS : Only A s₀ s) (hpf : A.testBit f.page = true) (hA : Covers 0x1000000000000000 A) :
    Only A s₀ (State.inc s f i j) := by
  unfold State.inc
  repeat' (first
    | with_reducible exact hS
    | with_reducible assumption
    | (with_reducible refine Covers.testBit hA ?_; decide)
    | (with_reducible refine Covers.trans ?_ hA; decide)
    | with_reducible refine State.add_only ?_ ?_ ?_)

theorem State.report_only {A : Nat} {s₀ : State} {s : State} {page : Nat} {inst : Nat} {code : Nat} {detail : Nat} (hS : Only A s₀ s) (hA : Covers 0x800000000000000 A) :
    Only A s₀ (State.report s page inst code detail) := by
  unfold State.report
  repeat' (first
    | with_reducible exact hS
    | with_reducible assumption
    | (with_reducible refine Covers.testBit hA ?_; decide)
    | (with_reducible refine Covers.trans ?_ hA; decide)
    | (extract_lets -underBinder +onlyGivenNames x; refine (fun (hx : Only A s₀ x) => ?_ : Only A s₀ x → _) ?_; (on_goal 2 => unfold x; clear x); (on_goal 1 => clear_value x; revert x; intro _ _))
    | (extract_lets -underBinder +onlyGivenNames x; unfold x; clear x)
    | (extract_lets -underBinder +onlyGivenNames x; revert x; intro _)
    | with_reducible refine Only.set_erq ?_ ?_)

theorem State.err_only {A : Nat} {s₀ : State} {s : State} {f : Fld} {i : Nat} {inst : Nat} {detail : Nat} {j : Nat} (hS : Only A s₀ s) (hpf : A.testBit f.page = true) (hA : Covers 0x800000000000000 A) :
    Only A s₀ (State.err s f i inst detail j) := by
  unfold State.err
  repeat' (first
    | with_reducible exact hS
    | with_reducible assumption
    | (with_reducible refine Covers.testBit hA ?_; decide)
    | (with_reducible refine Covers.trans ?_ hA; decide)
    | with_reducible refine State.put_only ?_ ?_
    | with_reducible refine State.report_only ?_ ?_)

theorem State.errBit_only {A : Nat} {s₀ : State} {s : State} {f : Fld} {b : Nat} {i : Nat} {inst : Nat} {detail : Nat} (hS : Only A s₀ s) (hpf : A.testBit f.page = true) (hA : Covers 0x800000000000000 A) :
    Only A s₀ (State.errBit s f b i inst detail) := by
  unfold State.errBit
  repeat' (first
    | with_reducible exact hS
    | with_reducible assumption
    | (with_reducible refine Covers.testBit hA ?_; decide)
    | (with_reducible refine Covers.trans ?_ hA; decide)
    | with_reducible refine State.put_only ?_ ?_
    | with_reducible refine State.report_only ?_ ?_)

theorem State.setBit_only {A : Nat} {s₀ : State} {s : State} {f : Fld} {b : Nat} {v : Bool} {i : Nat} {j : Nat} (hS : Only A s₀ s) (hpf : A.testBit f.page = true) :
    Only A s₀ (State.setBit s f b v i j) := by
  unfold State.setBit
  repeat' (first
    | with_reducible exact hS
    | with_reducible assumption
    | (extract_lets -underBinder +onlyGivenNames x; refine (fun (hx : Only A s₀ x) => ?_ : Only A s₀ x → _) ?_; (on_goal 2 => unfold x; clear x); (on_goal 1 => clear_value x; revert x; intro _ _))
    | (extract_lets -underBinder +onlyGivenNames x; unfold x; clear x)
    | (extract_lets -underBinder +onlyGivenNames x; revert x; intro _)
    | with_reducible refine Only.ite ?_ ?_
    | with_reducible refine State.put_only ?_ ?_)

theorem State.tookFree_only {A : Nat} {s₀ : State} {s : State} (hS : Only A s₀ s) (hA : Covers 0x1000000000 A) :
    Only A s₀ (State.tookFree s) := by
  unfold State.tookFree
  repeat' (first
    | with_reducible exact hS
    | with_reducible assumption
    | (with_reducible refine Covers.testBit hA ?_; decide)
    | (with_reducible refine Covers.trans ?_ hA; decide)
    | with_reducible refine Only.set_freeCount ?_ ?_)

theorem State.at_only {A : Nat} {s₀ : State} {s : State} {t : Nat} (hS : Only A s₀ s) (hA : Covers 0x400000000 A) :
    Only A s₀ (State.at s t) := by
  unfold State.at
  repeat' (first
    | with_reducible exact hS
    | with_reducible assumption
    | (with_reducible refine Covers.testBit hA ?_; decide)
    | (with_reducible refine Covers.trans ?_ hA; decide)
    | with_reducible refine Only.set_now ?_ ?_)

theorem State.wrField_only {A : Nat} {s₀ : State} {s : State} {f : Fld} {m : Nat} {v : Nat} {i : Nat} {j : Nat} (hS : Only A s₀ s) (hpf : A.testBit f.page = true) :
    Only A s₀ (State.wrField s f m v i j) := by
  unfold State.wrField
  repeat' (first
    | with_reducible exact hS
    | with_reducible assumption
    | (extract_lets -underBinder +onlyGivenNames x; refine (fun (hx : Only A s₀ x) => ?_ : Only A s₀ x → _) ?_; (on_goal 2 => unfold x; clear x); (on_goal 1 => clear_value x; revert x; intro _ _))
    | (extract_lets -underBinder +onlyGivenNames x; unfold x; clear x)
    | (extract_lets -underBinder +onlyGivenNames x; revert x; intro _)
    | with_reducible refine Only.ite ?_ ?_
    | with_reducible refine State.put_only ?_ ?_
    | split
    | (refine fun _ => ?_))

theorem State.wrReg_only {A : Nat} {s₀ : State} {s : State} {page : Nat} {off : Nat} {m : Nat} {v : Nat} (hS : Only A s₀ s) (cp : Covers (pageMask page) A) :
    Only A s₀ (State.wrReg s page off m v) := by
  unfold State.wrReg
  have hp : ∀ f ∈ fieldsOfPage page, A.testBit f.page = true := fun f hf => by
    obtain ⟨e, hlt⟩ := fieldsOfPage_page page f hf
    rw [e]
    refine cp.testBit ?_
    simp [pageMask, hlt, Nat.testBit_two_pow_self]
  revert hp
  generalize fieldsOfPage page = l
  intro hp
  induction l generalizing s with
  | nil => exact hS
  | cons f l ih =>
    refine ih ?_ fun g hg => hp g (List.mem_cons_of_mem _ hg)
    show Only A s₀ (match f.locate off with | some (i, j) => s.wrField f m v i j | none => s)
    split
    · exact State.wrField_only hS (hp f List.mem_cons_self)
    · exact hS

theorem State.updLane_only {A : Nat} {s₀ : State} {s : State} {n : Nat} {f : Lane → Lane} (hS : Only A s₀ s) (hA : Covers 0x400000000000000 A) :
    Only A s₀ (State.updLane s n f) := by
  unfold State.updLane
  repeat' (first
    | with_reducible exact hS
    | with_reducible assumption
    | (with_reducible refine Covers.testBit hA ?_; decide)
    | (with_reducible refine Covers.trans ?_ hA; decide)
    | with_reducible refine Only.set_lanes ?_ ?_ ?_
    | exact Sparse.wf_upd _ _ _ _
    | exact Sparse.wf_set _ _ _ _
    | exact Sparse.wf_filter _ _ _
    | exact Sparse.wf_keep _ _ _
    | exact Sparse.wf_filter _ _ _ (by assumption)
    | exact Sparse.wf_keep _ _ _ (by assumption)
    | exact Sparse.wf_upd _ _ _ _ (by assumption))

theorem State.updGno_only {A : Nat} {s₀ : State} {s : State} {f : Gno → Gno} (hS : Only A s₀ s) (hA : Covers 0x10000000000 A) :
    Only A s₀ (State.updGno s f) := by
  unfold State.updGno
  repeat' (first
    | with_reducible exact hS
    | with_reducible assumption
    | (with_reducible refine Covers.testBit hA ?_; decide)
    | (with_reducible refine Covers.trans ?_ hA; decide)
    | with_reducible refine Only.set_gno ?_ ?_)

end Sys2Proof.Machine
end

