-- ==== Sys2Proof/Laws/OnlyMem.lean ====
section
/-! SUPPORT. What each operation of Machine/Mem.lean may change. -/

set_option linter.unusedTactic false
set_option linter.unreachableTactic false
set_option linter.unusedVariables false

namespace Sys2Proof.Machine

theorem State.setBytes_poison (s : State) (a : Nat) (l : List (BitVec 8)) : (s.setBytes a l).poison = s.poison := by
  induction l generalizing s a with
  | nil => rfl
  | cons b l ih => exact ih _ _

theorem State.setByte_only {A : Nat} {s₀ : State} {s : State} {a : Nat} {b : BitVec 8} (hS : Only A s₀ s) (hA : Covers 0x4000000000 A) :
    Only A s₀ (State.setByte s a b) := by
  unfold State.setByte
  repeat' (first
    | with_reducible exact hS
    | with_reducible assumption
    | (with_reducible refine Covers.testBit hA ?_; decide)
    | (with_reducible refine Covers.trans ?_ hA; decide)
    | with_reducible refine Only.set_mem ?_ ?_ ?_
    | exact Sparse.wf_upd _ _ _ _
    | exact Sparse.wf_set _ _ _ _
    | exact Sparse.wf_filter _ _ _
    | exact Sparse.wf_keep _ _ _
    | exact Sparse.wf_filter _ _ _ (by assumption)
    | exact Sparse.wf_keep _ _ _ (by assumption)
    | exact Sparse.wf_upd _ _ _ _ (by assumption))

theorem State.setBytes_only {A : Nat} {s₀ : State} {s : State} {a : Nat} {v0 : List (BitVec 8)} (hS : Only A s₀ s) (hA : Covers 0x4000000000 A) :
    Only A s₀ (State.setBytes s a v0) := by
  induction v0 generalizing s a with
  | nil => exact hS
  | cons b l ih => exact ih (State.setByte_only hS hA)

theorem State.setLeMem_only {A : Nat} {s₀ : State} {s : State} {a : Nat} {n : Nat} {v : Nat} (hS : Only A s₀ s) (hA : Covers 0x4000000000 A) :
    Only A s₀ (State.setLeMem s a n v) := by
  unfold State.setLeMem
  repeat' (first
    | with_reducible exact hS
    | with_reducible assumption
    | (with_reducible refine Covers.testBit hA ?_; decide)
    | (with_reducible refine Covers.trans ?_ hA; decide)
    | with_reducible refine State.setBytes_only ?_ ?_)

theorem State.putStack_only {A : Nat} {s₀ : State} {s : State} {k : Nat} {v : Nat} (hS : Only A s₀ s) (hA : Covers 0x200 A) :
    Only A s₀ (State.putStack s k v) := by
  unfold State.putStack
  repeat' (first
    | with_reducible exact hS
    | with_reducible assumption
    | (with_reducible refine Covers.testBit hA ?_; decide)
    | (with_reducible refine Covers.trans ?_ hA; decide)
    | with_reducible refine Only.ite ?_ ?_
    | with_reducible refine State.put_only ?_ ?_)

theorem State.writeMem_only {A : Nat} {s₀ : State} {s : State} {a : Nat} {bs : List (BitVec 8)} (hS : Only A s₀ s) (hA : Covers 0xC000000000 A) :
    Only A s₀ (State.writeMem s a bs) := by
  unfold State.writeMem
  refine (State.setBytes_only (a := a) (v0 := bs) hS (Covers.trans (by decide) hA)).trans ?_
  refine Only.set_poison Only.rfl (fun w => Sparse.wf_filter false _ _ ?_) (Covers.testBit hA (by decide))
  rw [State.setBytes_poison] at w
  exact w

end Sys2Proof.Machine
end

