-- ==== Sys2Proof/Laws/OnlyBoot.lean ====
section
/-! SUPPORT. What each operation of Machine/Boot.lean may change. -/

set_option linter.unusedTactic false
set_option linter.unreachableTactic false
set_option linter.unusedVariables false

namespace Sys2Proof.Machine

theorem State.dawnErr_only {A : Nat} {s₀ : State} {s : State} {e : Nat} (hS : Only A s₀ s) (hA : Covers 0x800000000080000 A) :
    Only A s₀ (State.dawnErr s e) := by
  unfold State.dawnErr
  repeat' (first
    | with_reducible exact hS
    | with_reducible assumption
    | (with_reducible refine Covers.testBit hA ?_; decide)
    | (with_reducible refine Covers.trans ?_ hA; decide)
    | (extract_lets -underBinder +onlyGivenNames x; refine (fun (hx : Only A s₀ x) => ?_ : Only A s₀ x → _) ?_; (on_goal 2 => unfold x; clear x); (on_goal 1 => clear_value x; revert x; intro _ _))
    | (extract_lets -underBinder +onlyGivenNames x; unfold x; clear x)
    | (extract_lets -underBinder +onlyGivenNames x; revert x; intro _)
    | with_reducible refine Only.ite ?_ ?_
    | with_reducible refine State.put_only ?_ ?_
    | with_reducible refine State.err_only ?_ ?_ ?_)

theorem State.flashFound_only {A : Nat} {s₀ : State} {s : State} (hS : Only A s₀ s) (hA : Covers 0x80000000080000 A) :
    Only.Fst A s₀ (State.flashFound s) := by
  unfold State.flashFound
  repeat' (first
    | with_reducible exact hS
    | with_reducible assumption
    | (with_reducible refine Covers.testBit hA ?_; decide)
    | (with_reducible refine Covers.trans ?_ hA; decide)
    | (refine fun _ => ?_; intros)
    | (extract_lets -underBinder +onlyGivenNames x; refine (fun (hx : Only A s₀ x) => ?_ : Only A s₀ x → _) ?_; (on_goal 2 => unfold x; clear x); (on_goal 1 => clear_value x; revert x; intro _ _))
    | (extract_lets -underBinder +onlyGivenNames x; unfold x; clear x)
    | (extract_lets -underBinder +onlyGivenNames x; revert x; intro _)
    | with_reducible refine Only.ite ?_ ?_
    | with_reducible refine State.put_only ?_ ?_
    | with_reducible refine Only.Fst.ite ?_ ?_
    | with_reducible refine Only.Fst.unpair (by assumption)
    | split
    | with_reducible refine Only.Fst.of ?_
    | with_reducible refine Only.Fst.pair ?_
    | with_reducible refine Only.Fst.elim (by assumption) ?_
    | with_reducible refine Only.set_pwr ?_ ?_
    | (refine fun _ => ?_))

theorem State.imageBad_only {A : Nat} {s₀ : State} {s : State} {c : Nat} (hS : Only A s₀ s) (hA : Covers 0x800000000080000 A) :
    Only A s₀ (State.imageBad s c) := by
  unfold State.imageBad
  repeat' (first
    | with_reducible exact hS
    | with_reducible assumption
    | (with_reducible refine Covers.testBit hA ?_; decide)
    | (with_reducible refine Covers.trans ?_ hA; decide)
    | with_reducible refine Only.ite ?_ ?_
    | with_reducible refine State.err_only ?_ ?_ ?_)

theorem State.bootImage_only {A : Nat} {s₀ : State} {s : State} {mode : Nat} {type : Nat} {index : Nat} (hS : Only A s₀ s) (hA : Covers 0x800000000080000 A) :
    Only.Fst A s₀ (State.bootImage s mode type index) := by
  unfold State.bootImage
  repeat' (first
    | with_reducible exact hS
    | with_reducible assumption
    | (with_reducible refine Covers.testBit hA ?_; decide)
    | (with_reducible refine Covers.trans ?_ hA; decide)
    | (extract_lets -underBinder +onlyGivenNames x; refine (fun (hx : Only A s₀ x) => ?_ : Only A s₀ x → _) ?_; (on_goal 2 => unfold x; clear x); (on_goal 1 => clear_value x; revert x; intro _ _))
    | (extract_lets -underBinder +onlyGivenNames x; unfold x; clear x)
    | (extract_lets -underBinder +onlyGivenNames x; revert x; intro _)
    | with_reducible refine Only.ite ?_ ?_
    | with_reducible refine State.put_only ?_ ?_
    | with_reducible refine State.imageBad_only ?_ ?_
    | with_reducible refine Only.Fst.ite ?_ ?_
    | with_reducible refine Only.Fst.unpair (by assumption)
    | split
    | with_reducible refine Only.Fst.of ?_
    | with_reducible refine Only.Fst.pair ?_
    | with_reducible refine Only.Fst.elim (by assumption) ?_
    | (refine fun _ => ?_))

theorem State.loadFirmware_only {A : Nat} {s₀ : State} {s : State} {c : Nat} {img : List (BitVec 8)} (hS : Only A s₀ s) (hA : Covers 0xC000084000 A) :
    Only A s₀ (State.loadFirmware s c img) := by
  unfold State.loadFirmware
  repeat' (first
    | with_reducible exact hS
    | with_reducible assumption
    | (with_reducible refine Covers.testBit hA ?_; decide)
    | (with_reducible refine Covers.trans ?_ hA; decide)
    | (extract_lets -underBinder +onlyGivenNames x; refine (fun (hx : Only A s₀ x) => ?_ : Only A s₀ x → _) ?_; (on_goal 2 => unfold x; clear x); (on_goal 1 => clear_value x; revert x; intro _ _))
    | (extract_lets -underBinder +onlyGivenNames x; unfold x; clear x)
    | (extract_lets -underBinder +onlyGivenNames x; revert x; intro _)
    | with_reducible refine Only.ite ?_ ?_
    | with_reducible refine State.put_only ?_ ?_
    | with_reducible refine State.writeMem_only ?_ ?_)

theorem State.setPatch_only {A : Nat} {s₀ : State} {s : State} {plain : List (BitVec 8)} (hS : Only A s₀ s) (hA : Covers 0x200000000000 A) :
    Only A s₀ (State.setPatch s plain) := by
  unfold State.setPatch
  repeat' (first
    | with_reducible exact hS
    | with_reducible assumption
    | (with_reducible refine Covers.testBit hA ?_; decide)
    | (with_reducible refine Covers.trans ?_ hA; decide)
    | with_reducible refine Only.set_seq ?_ ?_)

theorem State.loadPatch_only {A : Nat} {s₀ : State} {s : State} {img : List (BitVec 8)} (hS : Only A s₀ s) (hA : Covers 0x800200000080000 A) :
    Only.Fst A s₀ (State.loadPatch s img) := by
  unfold State.loadPatch
  repeat' (first
    | with_reducible exact hS
    | with_reducible assumption
    | (with_reducible refine Covers.testBit hA ?_; decide)
    | (with_reducible refine Covers.trans ?_ hA; decide)
    | with_reducible refine Only.ite ?_ ?_
    | with_reducible refine State.put_only ?_ ?_
    | with_reducible refine State.err_only ?_ ?_ ?_
    | with_reducible refine State.setPatch_only ?_ ?_
    | with_reducible refine Only.Fst.ite ?_ ?_
    | with_reducible refine Only.Fst.unpair (by assumption)
    | split
    | with_reducible refine Only.Fst.of ?_
    | with_reducible refine Only.Fst.pair ?_
    | with_reducible refine Only.Fst.elim (by assumption) ?_
    | (refine fun _ => ?_))

theorem State.clearLram_only {A : Nat} {s₀ : State} {s : State} {c : Nat} (hS : Only A s₀ s) (hA : Covers 0xC000000000 A) :
    Only A s₀ (State.clearLram s c) := by
  unfold State.clearLram
  repeat' (first
    | with_reducible exact hS
    | with_reducible assumption
    | (with_reducible refine Covers.testBit hA ?_; decide)
    | (with_reducible refine Covers.trans ?_ hA; decide)
    | (refine fun _ => ?_; intros)
    | (extract_lets -underBinder +onlyGivenNames x; refine (fun (hx : Only A s₀ x) => ?_ : Only A s₀ x → _) ?_; (on_goal 2 => unfold x; clear x); (on_goal 1 => clear_value x; revert x; intro _ _))
    | (extract_lets -underBinder +onlyGivenNames x; unfold x; clear x)
    | (extract_lets -underBinder +onlyGivenNames x; revert x; intro _)
    | with_reducible refine Only.set_mem_poison ?_ ?_ ?_ ?_ ?_
    | exact Sparse.wf_upd _ _ _ _
    | exact Sparse.wf_set _ _ _ _
    | exact Sparse.wf_filter _ _ _
    | exact Sparse.wf_keep _ _ _
    | exact Sparse.wf_filter _ _ _ (by assumption)
    | exact Sparse.wf_keep _ _ _ (by assumption)
    | exact Sparse.wf_upd _ _ _ _ (by assumption))

end Sys2Proof.Machine
end

