-- ==== Sys2Proof/Laws/OnlyThreads.lean ====
section
/-! SUPPORT. What each operation of Machine/Threads.lean may change. -/

set_option linter.unusedTactic false
set_option linter.unreachableTactic false
set_option linter.unusedVariables false

namespace Sys2Proof.Machine

theorem State.updTh_only {A : Nat} {s₀ : State} {s : State} {u : Nat} {f : Th → Th} (hS : Only A s₀ s) (hA : Covers 0x2000000000000 A) :
    Only A s₀ (State.updTh s u f) := by
  unfold State.updTh
  repeat' (first
    | with_reducible exact hS
    | with_reducible assumption
    | (with_reducible refine Covers.testBit hA ?_; decide)
    | (with_reducible refine Covers.trans ?_ hA; decide)
    | with_reducible refine Only.set_cpu ?_ ?_)

theorem State.updCore_only {A : Nat} {s₀ : State} {s : State} {c : Nat} {f : Core → Core} (hS : Only A s₀ s) (hA : Covers 0x2000000000000 A) :
    Only A s₀ (State.updCore s c f) := by
  unfold State.updCore
  repeat' (first
    | with_reducible exact hS
    | with_reducible assumption
    | (with_reducible refine Covers.testBit hA ?_; decide)
    | (with_reducible refine Covers.trans ?_ hA; decide)
    | with_reducible refine Only.set_cpu ?_ ?_)

theorem State.putThState_only {A : Nat} {s₀ : State} {s : State} {u : Nat} {v : Nat} (hS : Only A s₀ s) (hA : Covers 0x4000 A) :
    Only A s₀ (State.putThState s u v) := by
  unfold State.putThState
  repeat' (first
    | with_reducible exact hS
    | with_reducible assumption
    | (with_reducible refine Covers.testBit hA ?_; decide)
    | (with_reducible refine Covers.trans ?_ hA; decide)
    | with_reducible refine State.put_only ?_ ?_)

theorem State.raiseEvent_only {A : Nat} {s₀ : State} {s : State} {u : Nat} {b : Nat} (hS : Only A s₀ s) (hA : Covers 0x2000000000000 A) :
    Only A s₀ (State.raiseEvent s u b) := by
  unfold State.raiseEvent
  repeat' (first
    | with_reducible exact hS
    | with_reducible assumption
    | (with_reducible refine Covers.testBit hA ?_; decide)
    | (with_reducible refine Covers.trans ?_ hA; decide)
    | (refine fun _ => ?_; intros)
    | with_reducible refine Only.ite ?_ ?_
    | with_reducible refine State.updTh_only ?_ ?_)

theorem State.raiseAll_only {A : Nat} {s₀ : State} {s : State} {b : Nat} (hS : Only A s₀ s) (hA : Covers 0x2000000000000 A) :
    Only A s₀ (State.raiseAll s b) := by
  unfold State.raiseAll
  repeat' (first
    | with_reducible exact hS
    | with_reducible assumption
    | (with_reducible refine Covers.testBit hA ?_; decide)
    | (with_reducible refine Covers.trans ?_ hA; decide)
    | (refine fun _ => ?_; intros)
    | with_reducible refine State.raiseEvent_only ?_ ?_
    | with_reducible refine Only.foldl _ ?_ ?_
    | with_reducible refine Only.Fst.ite ?_ ?_
    | with_reducible refine Only.Fst.unpair (by assumption)
    | with_reducible refine Only.Fst.foldl _ ?_ ?_
    | with_reducible refine Only.Fst.of ?_
    | with_reducible refine Only.Fst.pair ?_
    | with_reducible refine Only.Fst.elim (by assumption) ?_)

theorem State.softEvents_only {A : Nat} {s₀ : State} {s : State} {u : Nat} {m : Nat} (hS : Only A s₀ s) (hA : Covers 0x2000000000000 A) :
    Only A s₀ (State.softEvents s u m) := by
  unfold State.softEvents
  repeat' (first
    | with_reducible exact hS
    | with_reducible assumption
    | (with_reducible refine Covers.testBit hA ?_; decide)
    | (with_reducible refine Covers.trans ?_ hA; decide)
    | (refine fun _ => ?_; intros)
    | with_reducible refine Only.ite ?_ ?_
    | with_reducible refine State.updTh_only ?_ ?_)

theorem State.timerStart_only {A : Nat} {s₀ : State} {s : State} {u : Nat} (hS : Only A s₀ s) (hA : Covers 0x2000000004000 A) :
    Only A s₀ (State.timerStart s u) := by
  unfold State.timerStart
  repeat' (first
    | with_reducible exact hS
    | with_reducible assumption
    | (with_reducible refine Covers.testBit hA ?_; decide)
    | (with_reducible refine Covers.trans ?_ hA; decide)
    | (refine fun _ => ?_; intros)
    | (extract_lets -underBinder +onlyGivenNames x; refine (fun (hx : Only A s₀ x) => ?_ : Only A s₀ x → _) ?_; (on_goal 2 => unfold x; clear x); (on_goal 1 => clear_value x; revert x; intro _ _))
    | (extract_lets -underBinder +onlyGivenNames x; unfold x; clear x)
    | (extract_lets -underBinder +onlyGivenNames x; revert x; intro _)
    | with_reducible refine State.put_only ?_ ?_
    | with_reducible refine State.updTh_only ?_ ?_)

theorem State.timerStop_only {A : Nat} {s₀ : State} {s : State} {u : Nat} (hS : Only A s₀ s) (hA : Covers 0x4000 A) :
    Only A s₀ (State.timerStop s u) := by
  unfold State.timerStop
  repeat' (first
    | with_reducible exact hS
    | with_reducible assumption
    | (with_reducible refine Covers.testBit hA ?_; decide)
    | (with_reducible refine Covers.trans ?_ hA; decide)
    | (extract_lets -underBinder +onlyGivenNames x; refine (fun (hx : Only A s₀ x) => ?_ : Only A s₀ x → _) ?_; (on_goal 2 => unfold x; clear x); (on_goal 1 => clear_value x; revert x; intro _ _))
    | (extract_lets -underBinder +onlyGivenNames x; unfold x; clear x)
    | (extract_lets -underBinder +onlyGivenNames x; revert x; intro _)
    | with_reducible refine Only.ite ?_ ?_
    | with_reducible refine State.put_only ?_ ?_)

theorem State.thrTimerExpiry_only {A : Nat} {s₀ : State} {s : State} {u : Nat} (hS : Only A s₀ s) (hA : Covers 0x2000000004000 A) :
    Only A s₀ (State.thrTimerExpiry s u) := by
  unfold State.thrTimerExpiry
  repeat' (first
    | with_reducible exact hS
    | with_reducible assumption
    | (with_reducible refine Covers.testBit hA ?_; decide)
    | (with_reducible refine Covers.trans ?_ hA; decide)
    | (extract_lets -underBinder +onlyGivenNames x; refine (fun (hx : Only A s₀ x) => ?_ : Only A s₀ x → _) ?_; (on_goal 2 => unfold x; clear x); (on_goal 1 => clear_value x; revert x; intro _ _))
    | (extract_lets -underBinder +onlyGivenNames x; unfold x; clear x)
    | (extract_lets -underBinder +onlyGivenNames x; revert x; intro _)
    | with_reducible refine Only.ite ?_ ?_
    | with_reducible refine State.put_only ?_ ?_
    | with_reducible refine State.raiseEvent_only ?_ ?_
    | with_reducible refine State.timerStart_only ?_ ?_)

end Sys2Proof.Machine
end

