-- ==== Sys2Proof/Laws/OnlySemaphores.lean ====
section
/-! SUPPORT. What each operation of Machine/Semaphores.lean may change. -/

set_option linter.unusedTactic false
set_option linter.unreachableTactic false
set_option linter.unusedVariables false

namespace Sys2Proof.Machine

theorem State.updSem_only {A : Nat} {s₀ : State} {s : State} {f : Sem → Sem} (hS : Only A s₀ s) (hA : Covers 0x8000000000000 A) :
    Only A s₀ (State.updSem s f) := by
  unfold State.updSem
  repeat' (first
    | with_reducible exact hS
    | with_reducible assumption
    | (with_reducible refine Covers.testBit hA ?_; decide)
    | (with_reducible refine Covers.trans ?_ hA; decide)
    | with_reducible refine Only.set_sem ?_ ?_)

theorem State.publishLevels_only {A : Nat} {s₀ : State} {s : State} (hS : Only A s₀ s) (hA : Covers 0x2000 A) :
    Only A s₀ (State.publishLevels s) := by
  unfold State.publishLevels
  repeat' (first
    | with_reducible exact hS
    | with_reducible assumption
    | (with_reducible refine Covers.testBit hA ?_; decide)
    | (with_reducible refine Covers.trans ?_ hA; decide)
    | (refine fun _ => ?_; intros)
    | (extract_lets -underBinder +onlyGivenNames x; refine (fun (hx : Only A s₀ x) => ?_ : Only A s₀ x → _) ?_; (on_goal 2 => unfold x; clear x); (on_goal 1 => clear_value x; revert x; intro _ _))
    | (extract_lets -underBinder +onlyGivenNames x; unfold x; clear x)
    | (extract_lets -underBinder +onlyGivenNames x; revert x; intro _)
    | with_reducible refine State.put_only ?_ ?_
    | with_reducible refine Only.foldl _ ?_ ?_
    | with_reducible refine Only.Fst.ite ?_ ?_
    | with_reducible refine Only.Fst.unpair (by assumption)
    | with_reducible refine Only.Fst.foldl _ ?_ ?_
    | with_reducible refine Only.Fst.of ?_
    | with_reducible refine Only.Fst.pair ?_
    | with_reducible refine Only.Fst.elim (by assumption) ?_)

theorem State.publishWaiters_only {A : Nat} {s₀ : State} {s : State} {n : Nat} (hS : Only A s₀ s) (hA : Covers 0x2000 A) :
    Only A s₀ (State.publishWaiters s n) := by
  unfold State.publishWaiters
  repeat' (first
    | with_reducible exact hS
    | with_reducible assumption
    | (with_reducible refine Covers.testBit hA ?_; decide)
    | (with_reducible refine Covers.trans ?_ hA; decide)
    | (refine fun _ => ?_; intros)
    | with_reducible refine State.put_only ?_ ?_)

theorem State.semResult_only {A : Nat} {s₀ : State} {s : State} {i : Nat} {n : Nat} {code : Nat} (hS : Only A s₀ s) (hA : Covers 0x2000 A) :
    Only A s₀ (State.semResult s i n code) := by
  unfold State.semResult
  repeat' (first
    | with_reducible exact hS
    | with_reducible assumption
    | (with_reducible refine Covers.testBit hA ?_; decide)
    | (with_reducible refine Covers.trans ?_ hA; decide)
    | with_reducible refine State.put_only ?_ ?_)

theorem State.startLease_only {A : Nat} {s₀ : State} {s : State} {n : Nat} (hS : Only A s₀ s) (hA : Covers 0x8000000000000 A) :
    Only A s₀ (State.startLease s n) := by
  unfold State.startLease
  repeat' (first
    | with_reducible exact hS
    | with_reducible assumption
    | (with_reducible refine Covers.testBit hA ?_; decide)
    | (with_reducible refine Covers.trans ?_ hA; decide)
    | (refine fun _ => ?_; intros)
    | with_reducible refine State.updSem_only ?_ ?_)

theorem State.semGrant_only {A : Nat} {s₀ : State} {s : State} {i : Nat} {n : Nat} (hS : Only A s₀ s) (hA : Covers 0x1008000000002000 A) :
    Only A s₀ (State.semGrant s i n) := by
  unfold State.semGrant
  repeat' (first
    | with_reducible exact hS
    | with_reducible assumption
    | (with_reducible refine Covers.testBit hA ?_; decide)
    | (with_reducible refine Covers.trans ?_ hA; decide)
    | (extract_lets -underBinder +onlyGivenNames x; refine (fun (hx : Only A s₀ x) => ?_ : Only A s₀ x → _) ?_; (on_goal 2 => unfold x; clear x); (on_goal 1 => clear_value x; revert x; intro _ _))
    | (extract_lets -underBinder +onlyGivenNames x; unfold x; clear x)
    | (extract_lets -underBinder +onlyGivenNames x; revert x; intro _)
    | with_reducible refine State.put_only ?_ ?_
    | with_reducible refine State.inc_only ?_ ?_ ?_
    | with_reducible refine State.semResult_only ?_ ?_
    | with_reducible refine State.startLease_only ?_ ?_
    | exact Only.OfRes.trap
    | exact Only.OfRes.held
    | with_reducible refine Only.OfRes.acted ?_
    | with_reducible refine Only.OfRes.ite ?_ ?_
    | with_reducible refine Only.OfRes.elim (by assumption) ?_)

theorem State.dropWait_only {A : Nat} {s₀ : State} {s : State} {i : Nat} (hS : Only A s₀ s) (hA : Covers 0x8000000002000 A) :
    Only A s₀ (State.dropWait s i) := by
  unfold State.dropWait
  repeat' (first
    | with_reducible exact hS
    | with_reducible assumption
    | (with_reducible refine Covers.testBit hA ?_; decide)
    | (with_reducible refine Covers.trans ?_ hA; decide)
    | (refine fun _ => ?_; intros)
    | (extract_lets -underBinder +onlyGivenNames x; refine (fun (hx : Only A s₀ x) => ?_ : Only A s₀ x → _) ?_; (on_goal 2 => unfold x; clear x); (on_goal 1 => clear_value x; revert x; intro _ _))
    | (extract_lets -underBinder +onlyGivenNames x; unfold x; clear x)
    | (extract_lets -underBinder +onlyGivenNames x; revert x; intro _)
    | with_reducible refine State.put_only ?_ ?_
    | with_reducible refine State.updSem_only ?_ ?_
    | with_reducible refine State.publishWaiters_only ?_ ?_
    | split
    | (refine fun _ => ?_))

theorem State.semFree_only {A : Nat} {s₀ : State} {s : State} {n : Nat} {reset : Bool} {expired : Bool} (hS : Only A s₀ s) (hA : Covers 0x100A000000002000 A) :
    Only A s₀ (State.semFree s n reset expired) := by
  unfold State.semFree
  repeat' (first
    | with_reducible exact hS
    | with_reducible assumption
    | (with_reducible refine Covers.testBit hA ?_; decide)
    | (with_reducible refine Covers.trans ?_ hA; decide)
    | (refine fun _ => ?_; intros)
    | (extract_lets -underBinder +onlyGivenNames x; refine (fun (hx : Only A s₀ x) => ?_ : Only A s₀ x → _) ?_; (on_goal 2 => unfold x; clear x); (on_goal 1 => clear_value x; revert x; intro _ _))
    | (extract_lets -underBinder +onlyGivenNames x; unfold x; clear x)
    | (extract_lets -underBinder +onlyGivenNames x; revert x; intro _)
    | with_reducible refine State.put_only ?_ ?_
    | with_reducible refine State.raiseEvent_only ?_ ?_
    | with_reducible refine State.updSem_only ?_ ?_
    | with_reducible refine State.publishLevels_only ?_ ?_
    | with_reducible refine State.semGrant_only ?_ ?_
    | with_reducible refine State.dropWait_only ?_ ?_
    | exact Only.OfRes.trap
    | exact Only.OfRes.held
    | with_reducible refine Only.OfRes.acted ?_
    | with_reducible refine Only.OfRes.ite ?_ ?_
    | split
    | with_reducible refine Only.OfRes.elim (by assumption) ?_
    | (refine fun _ => ?_))

theorem State.semTake_only {A : Nat} {s₀ : State} {s : State} {i : Nat} {n : Nat} (hS : Only A s₀ s) (hA : Covers 0x1008000000002000 A) :
    Only A s₀ (State.semTake s i n) := by
  unfold State.semTake
  repeat' (first
    | with_reducible exact hS
    | with_reducible assumption
    | (with_reducible refine Covers.testBit hA ?_; decide)
    | (with_reducible refine Covers.trans ?_ hA; decide)
    | with_reducible refine State.publishLevels_only ?_ ?_
    | with_reducible refine State.semGrant_only ?_ ?_)

theorem State.semOp_only {A : Nat} {s₀ : State} {s : State} {i : Nat} {n : Nat} {op : Nat} {prio : Nat} (hS : Only A s₀ s) (hA : Covers 0x180A000000002000 A) :
    Only A s₀ (State.semOp s i n op prio) := by
  unfold State.semOp
  repeat' (first
    | with_reducible exact hS
    | with_reducible assumption
    | (with_reducible refine Covers.testBit hA ?_; decide)
    | (with_reducible refine Covers.trans ?_ hA; decide)
    | (refine fun _ => ?_; intros)
    | (extract_lets -underBinder +onlyGivenNames x; refine (fun (hx : Only A s₀ x) => ?_ : Only A s₀ x → _) ?_; (on_goal 2 => unfold x; clear x); (on_goal 1 => clear_value x; revert x; intro _ _))
    | (extract_lets -underBinder +onlyGivenNames x; unfold x; clear x)
    | (extract_lets -underBinder +onlyGivenNames x; revert x; intro _)
    | with_reducible refine Only.ite ?_ ?_
    | with_reducible refine State.put_only ?_ ?_
    | with_reducible refine State.inc_only ?_ ?_ ?_
    | with_reducible refine State.err_only ?_ ?_ ?_
    | with_reducible refine State.updSem_only ?_ ?_
    | with_reducible refine State.publishLevels_only ?_ ?_
    | with_reducible refine State.publishWaiters_only ?_ ?_
    | with_reducible refine State.semResult_only ?_ ?_
    | with_reducible refine State.startLease_only ?_ ?_
    | with_reducible refine State.dropWait_only ?_ ?_
    | with_reducible refine State.semFree_only ?_ ?_
    | with_reducible refine State.semTake_only ?_ ?_
    | exact Only.OfRes.trap
    | exact Only.OfRes.held
    | with_reducible refine Only.OfRes.acted ?_
    | with_reducible refine Only.OfRes.ite ?_ ?_
    | split
    | with_reducible refine Only.OfRes.elim (by assumption) ?_
    | (refine fun _ => ?_))

theorem State.semDeny_only {A : Nat} {s₀ : State} {s : State} {i : Nat} {n : Nat} (hS : Only A s₀ s) (hA : Covers 0x1800000000002000 A) :
    Only A s₀ (State.semDeny s i n) := by
  unfold State.semDeny
  repeat' (first
    | with_reducible exact hS
    | with_reducible assumption
    | (with_reducible refine Covers.testBit hA ?_; decide)
    | (with_reducible refine Covers.trans ?_ hA; decide)
    | with_reducible refine State.inc_only ?_ ?_ ?_
    | with_reducible refine State.err_only ?_ ?_ ?_)

theorem State.semRequest_only {A : Nat} {s₀ : State} {s : State} {i : Nat} {n : Nat} {op : Nat} {prio : Nat} (hS : Only A s₀ s) (hA : Covers 0x180A000000002000 A) :
    Only A s₀ (State.semRequest s i n op prio) := by
  unfold State.semRequest
  repeat' (first
    | with_reducible exact hS
    | with_reducible assumption
    | (with_reducible refine Covers.testBit hA ?_; decide)
    | (with_reducible refine Covers.trans ?_ hA; decide)
    | with_reducible refine Only.ite ?_ ?_
    | with_reducible refine State.semOp_only ?_ ?_
    | with_reducible refine State.semDeny_only ?_ ?_)

theorem State.writeSemReq_only {A : Nat} {s₀ : State} {s : State} {i : Nat} {m : Nat} {v : Nat} (hS : Only A s₀ s) (hA : Covers 0x180A000000002000 A) :
    Only.Fst A s₀ (State.writeSemReq s i m v) := by
  unfold State.writeSemReq
  repeat' (first
    | with_reducible exact hS
    | with_reducible assumption
    | (with_reducible refine Covers.testBit hA ?_; decide)
    | (with_reducible refine Covers.trans ?_ hA; decide)
    | (extract_lets -underBinder +onlyGivenNames x; refine (fun (hx : Only A s₀ x) => ?_ : Only A s₀ x → _) ?_; (on_goal 2 => unfold x; clear x); (on_goal 1 => clear_value x; revert x; intro _ _))
    | (extract_lets -underBinder +onlyGivenNames x; unfold x; clear x)
    | (extract_lets -underBinder +onlyGivenNames x; revert x; intro _)
    | with_reducible refine Only.ite ?_ ?_
    | with_reducible refine State.semRequest_only ?_ ?_
    | with_reducible refine Only.Fst.ite ?_ ?_
    | with_reducible refine Only.Fst.unpair (by assumption)
    | with_reducible refine Only.Fst.of ?_
    | with_reducible refine Only.Fst.pair ?_
    | with_reducible refine Only.Fst.elim (by assumption) ?_)

theorem State.leaseExpiry_only {A : Nat} {s₀ : State} {s : State} {n : Nat} (hS : Only A s₀ s) (hA : Covers 0x180A000000002000 A) :
    Only A s₀ (State.leaseExpiry s n) := by
  unfold State.leaseExpiry
  repeat' (first
    | with_reducible exact hS
    | with_reducible assumption
    | (with_reducible refine Covers.testBit hA ?_; decide)
    | (with_reducible refine Covers.trans ?_ hA; decide)
    | (extract_lets -underBinder +onlyGivenNames x; refine (fun (hx : Only A s₀ x) => ?_ : Only A s₀ x → _) ?_; (on_goal 2 => unfold x; clear x); (on_goal 1 => clear_value x; revert x; intro _ _))
    | (extract_lets -underBinder +onlyGivenNames x; unfold x; clear x)
    | (extract_lets -underBinder +onlyGivenNames x; revert x; intro _)
    | with_reducible refine Only.ite ?_ ?_
    | with_reducible refine State.inc_only ?_ ?_ ?_
    | with_reducible refine State.err_only ?_ ?_ ?_
    | with_reducible refine State.semFree_only ?_ ?_
    | exact Only.OfRes.trap
    | exact Only.OfRes.held
    | with_reducible refine Only.OfRes.acted ?_
    | with_reducible refine Only.OfRes.ite ?_ ?_
    | with_reducible refine Only.OfRes.elim (by assumption) ?_)

theorem State.ownerReset_only {A : Nat} {s₀ : State} {s : State} {i : Nat} (hS : Only A s₀ s) (hA : Covers 0x180A000000002000 A) :
    Only A s₀ (State.ownerReset s i) := by
  unfold State.ownerReset
  repeat' (first
    | with_reducible exact hS
    | with_reducible assumption
    | (with_reducible refine Covers.testBit hA ?_; decide)
    | (with_reducible refine Covers.trans ?_ hA; decide)
    | (refine fun _ => ?_; intros)
    | (extract_lets -underBinder +onlyGivenNames x; refine (fun (hx : Only A s₀ x) => ?_ : Only A s₀ x → _) ?_; (on_goal 2 => unfold x; clear x); (on_goal 1 => clear_value x; revert x; intro _ _))
    | (extract_lets -underBinder +onlyGivenNames x; unfold x; clear x)
    | (extract_lets -underBinder +onlyGivenNames x; revert x; intro _)
    | with_reducible refine Only.ite ?_ ?_
    | with_reducible refine State.inc_only ?_ ?_ ?_
    | with_reducible refine State.err_only ?_ ?_ ?_
    | with_reducible refine State.updSem_only ?_ ?_
    | with_reducible refine State.publishLevels_only ?_ ?_
    | with_reducible refine State.dropWait_only ?_ ?_
    | with_reducible refine State.semFree_only ?_ ?_
    | with_reducible refine Only.foldl _ ?_ ?_
    | with_reducible refine Only.Fst.ite ?_ ?_
    | with_reducible refine Only.Fst.unpair (by assumption)
    | with_reducible refine Only.Fst.foldl _ ?_ ?_
    | with_reducible refine Only.Fst.of ?_
    | with_reducible refine Only.Fst.pair ?_
    | with_reducible refine Only.Fst.elim (by assumption) ?_)

theorem State.writeSemAdmin_only {A : Nat} {s₀ : State} {s : State} {i : Nat} {off : Nat} {m : Nat} {v : Nat} (hS : Only A s₀ s) (hA : Covers 0x1800000000002000 A) :
    Only.Fst A s₀ (State.writeSemAdmin s i off m v) := by
  unfold State.writeSemAdmin
  repeat' (first
    | with_reducible exact hS
    | with_reducible assumption
    | (with_reducible refine Covers.testBit hA ?_; decide)
    | (with_reducible refine Covers.trans ?_ hA; decide)
    | (with_reducible refine Covers.trans (Covers.trans (pageMask_all _) ?_) hA; decide)
    | (extract_lets -underBinder +onlyGivenNames x; refine (fun (hx : Only A s₀ x) => ?_ : Only A s₀ x → _) ?_; (on_goal 2 => unfold x; clear x); (on_goal 1 => clear_value x; revert x; intro _ _))
    | (extract_lets -underBinder +onlyGivenNames x; unfold x; clear x)
    | (extract_lets -underBinder +onlyGivenNames x; revert x; intro _)
    | with_reducible refine Only.ite ?_ ?_
    | with_reducible refine State.inc_only ?_ ?_ ?_
    | with_reducible refine State.err_only ?_ ?_ ?_
    | with_reducible refine State.wrReg_only ?_ ?_
    | with_reducible refine Only.Fst.ite ?_ ?_
    | with_reducible refine Only.Fst.unpair (by assumption)
    | with_reducible refine Only.Fst.of ?_
    | with_reducible refine Only.Fst.pair ?_
    | with_reducible refine Only.Fst.elim (by assumption) ?_)

end Sys2Proof.Machine
end

