-- ==== Sys2Proof/Laws/OnlyRingNet.lean ====
section
/-! SUPPORT. What each operation of Machine/RingNet.lean may change. -/

set_option linter.unusedTactic false
set_option linter.unreachableTactic false
set_option linter.unusedVariables false

namespace Sys2Proof.Machine

theorem State.updRing_only {A : Nat} {s₀ : State} {s : State} {f : Ring → Ring} (hS : Only A s₀ s) (hA : Covers 0x4000000000000 A) :
    Only A s₀ (State.updRing s f) := by
  unfold State.updRing
  repeat' (first
    | with_reducible exact hS
    | with_reducible assumption
    | (with_reducible refine Covers.testBit hA ?_; decide)
    | (with_reducible refine Covers.trans ?_ hA; decide)
    | with_reducible refine Only.set_ring ?_ ?_)

theorem State.carry_only {A : Nat} {s₀ : State} {s : State} {ring : Nat} {dir : Nat} {src : Nat} {dst : Nat} {flits : Nat} (hS : Only A s₀ s) (hA : Covers 0x4000000000000 A) :
    Only A s₀ (State.carry s ring dir src dst flits) := by
  unfold State.carry
  repeat' (first
    | with_reducible exact hS
    | with_reducible assumption
    | (with_reducible refine Covers.testBit hA ?_; decide)
    | (with_reducible refine Covers.trans ?_ hA; decide)
    | (refine fun _ => ?_; intros)
    | with_reducible refine State.updRing_only ?_ ?_)

theorem State.countInjected_only {A : Nat} {s₀ : State} {s : State} {p : Pkt} (hS : Only A s₀ s) (hA : Covers 0x1000000000000800 A) :
    Only A s₀ (State.countInjected s p) := by
  unfold State.countInjected
  repeat' (first
    | with_reducible exact hS
    | with_reducible assumption
    | (with_reducible refine Covers.testBit hA ?_; decide)
    | (with_reducible refine Covers.trans ?_ hA; decide)
    | with_reducible refine Only.ite ?_ ?_
    | with_reducible refine State.add_only ?_ ?_ ?_
    | with_reducible refine State.inc_only ?_ ?_ ?_)

theorem State.takeRoute_only {A : Nat} {s₀ : State} {s : State} {stop : Nat} {d : Nat} {g : Bool} (hS : Only A s₀ s) (hA : Covers 0x4000000000000 A) :
    Only.Fst A s₀ (State.takeRoute s stop d g) := by
  unfold State.takeRoute
  repeat' (first
    | with_reducible exact hS
    | with_reducible assumption
    | (with_reducible refine Covers.testBit hA ?_; decide)
    | (with_reducible refine Covers.trans ?_ hA; decide)
    | (refine fun _ => ?_; intros)
    | (extract_lets -underBinder +onlyGivenNames x; refine (fun (hx : Only A s₀ x) => ?_ : Only A s₀ x → _) ?_; (on_goal 2 => unfold x; clear x); (on_goal 1 => clear_value x; revert x; intro _ _))
    | (extract_lets -underBinder +onlyGivenNames x; unfold x; clear x)
    | (extract_lets -underBinder +onlyGivenNames x; revert x; intro _)
    | with_reducible refine Only.ite ?_ ?_
    | with_reducible refine State.updRing_only ?_ ?_
    | with_reducible refine Only.Fst.ite ?_ ?_
    | with_reducible refine Only.Fst.unpair (by assumption)
    | with_reducible refine Only.Fst.of ?_
    | with_reducible refine Only.Fst.pair ?_
    | with_reducible refine Only.Fst.elim (by assumption) ?_)

theorem State.inject_only {A : Nat} {s₀ : State} {s : State} {p : Pkt} (hS : Only A s₀ s) (hA : Covers 0x1004000000000800 A) :
    Only A s₀ (State.inject s p) := by
  unfold State.inject
  repeat' (first
    | with_reducible exact hS
    | with_reducible assumption
    | (with_reducible refine Covers.testBit hA ?_; decide)
    | (with_reducible refine Covers.trans ?_ hA; decide)
    | (refine fun _ => ?_; intros)
    | (extract_lets -underBinder +onlyGivenNames x; refine (fun (hx : Only A s₀ x) => ?_ : Only A s₀ x → _) ?_; (on_goal 2 => unfold x; clear x); (on_goal 1 => clear_value x; revert x; intro _ _))
    | (extract_lets -underBinder +onlyGivenNames x; unfold x; clear x)
    | (extract_lets -underBinder +onlyGivenNames x; revert x; intro _)
    | with_reducible refine State.updRing_only ?_ ?_
    | with_reducible refine State.countInjected_only ?_ ?_
    | with_reducible refine State.takeRoute_only ?_ ?_
    | with_reducible refine Only.Fst.ite ?_ ?_
    | with_reducible refine Only.Fst.unpair (by assumption)
    | split
    | with_reducible refine Only.Fst.of ?_
    | with_reducible refine Only.Fst.pair ?_
    | with_reducible refine Only.Fst.elim (by assumption) ?_)

theorem State.publishHolding_only {A : Nat} {s₀ : State} {s : State} (hS : Only A s₀ s) (hA : Covers 0x800 A) :
    Only A s₀ (State.publishHolding s) := by
  unfold State.publishHolding
  repeat' (first
    | with_reducible exact hS
    | with_reducible assumption
    | (with_reducible refine Covers.testBit hA ?_; decide)
    | (with_reducible refine Covers.trans ?_ hA; decide)
    | (refine fun _ => ?_; intros)
    | (extract_lets -underBinder +onlyGivenNames x; refine (fun (hx : Only A s₀ x) => ?_ : Only A s₀ x → _) ?_; (on_goal 2 => unfold x; clear x); (on_goal 1 => clear_value x; revert x; intro _ _))
    | (extract_lets -underBinder +onlyGivenNames x; unfold x; clear x)
    | (extract_lets -underBinder +onlyGivenNames x; revert x; intro _)
    | with_reducible refine State.put_only ?_ ?_
    | with_reducible refine Only.foldl _ ?_ ?_
    | with_reducible refine Only.Fst.ite ?_ ?_
    | with_reducible refine Only.Fst.unpair (by assumption)
    | with_reducible refine Only.Fst.foldl _ ?_ ?_
    | exact Only.OfRes.trap
    | exact Only.OfRes.held
    | with_reducible refine Only.OfRes.acted ?_
    | with_reducible refine Only.OfRes.ite ?_ ?_
    | with_reducible refine Only.Fst.of ?_
    | with_reducible refine Only.Fst.pair ?_
    | with_reducible refine Only.Fst.elim (by assumption) ?_
    | with_reducible refine Only.OfRes.elim (by assumption) ?_)

theorem State.offer_only {A : Nat} {s₀ : State} {s : State} {p : Pkt} (hS : Only A s₀ s) (hA : Covers 0x1004000000000800 A) :
    Only A s₀ (State.offer s p) := by
  unfold State.offer
  repeat' (first
    | with_reducible exact hS
    | with_reducible assumption
    | (with_reducible refine Covers.testBit hA ?_; decide)
    | (with_reducible refine Covers.trans ?_ hA; decide)
    | (refine fun _ => ?_; intros)
    | with_reducible refine Only.ite ?_ ?_
    | with_reducible refine State.updRing_only ?_ ?_
    | with_reducible refine State.inject_only ?_ ?_
    | with_reducible refine State.publishHolding_only ?_ ?_
    | exact Only.OfRes.trap
    | exact Only.OfRes.held
    | with_reducible refine Only.OfRes.acted ?_
    | with_reducible refine Only.OfRes.ite ?_ ?_
    | with_reducible refine Only.OfRes.elim (by assumption) ?_)

theorem State.releaseHeld_only {A : Nat} {s₀ : State} {s : State} (hS : Only A s₀ s) (hA : Covers 0x1004000000000800 A) :
    Only A s₀ (State.releaseHeld s) := by
  unfold State.releaseHeld
  repeat' (first
    | with_reducible exact hS
    | with_reducible assumption
    | (with_reducible refine Covers.testBit hA ?_; decide)
    | (with_reducible refine Covers.trans ?_ hA; decide)
    | (refine fun _ => ?_; intros)
    | (extract_lets -underBinder +onlyGivenNames x; refine (fun (hx : Only A s₀ x) => ?_ : Only A s₀ x → _) ?_; (on_goal 2 => unfold x; clear x); (on_goal 1 => clear_value x; revert x; intro _ _))
    | (extract_lets -underBinder +onlyGivenNames x; unfold x; clear x)
    | (extract_lets -underBinder +onlyGivenNames x; revert x; intro _)
    | with_reducible refine State.updRing_only ?_ ?_
    | with_reducible refine State.publishHolding_only ?_ ?_
    | with_reducible refine State.offer_only ?_ ?_
    | with_reducible refine Only.foldl _ ?_ ?_
    | with_reducible refine Only.Fst.ite ?_ ?_
    | with_reducible refine Only.Fst.unpair (by assumption)
    | with_reducible refine Only.Fst.foldl _ ?_ ?_
    | exact Only.OfRes.trap
    | exact Only.OfRes.held
    | with_reducible refine Only.OfRes.acted ?_
    | with_reducible refine Only.OfRes.ite ?_ ?_
    | with_reducible refine Only.Fst.of ?_
    | with_reducible refine Only.Fst.pair ?_
    | with_reducible refine Only.Fst.elim (by assumption) ?_
    | with_reducible refine Only.OfRes.elim (by assumption) ?_)

theorem State.tagWait_only {A : Nat} {s₀ : State} {s : State} {i : Nat} (hS : Only A s₀ s) (hA : Covers 0x4000000000000 A) :
    Only A s₀ (State.tagWait s i) := by
  unfold State.tagWait
  repeat' (first
    | with_reducible exact hS
    | with_reducible assumption
    | (with_reducible refine Covers.testBit hA ?_; decide)
    | (with_reducible refine Covers.trans ?_ hA; decide)
    | (refine fun _ => ?_; intros)
    | with_reducible refine Only.ite ?_ ?_
    | with_reducible refine State.updRing_only ?_ ?_)

theorem State.tagGot_only {A : Nat} {s₀ : State} {s : State} {i : Nat} (hS : Only A s₀ s) (hA : Covers 0x1004000000000800 A) :
    Only A s₀ (State.tagGot s i) := by
  unfold State.tagGot
  repeat' (first
    | with_reducible exact hS
    | with_reducible assumption
    | (with_reducible refine Covers.testBit hA ?_; decide)
    | (with_reducible refine Covers.trans ?_ hA; decide)
    | (refine fun _ => ?_; intros)
    | with_reducible refine State.add_only ?_ ?_ ?_
    | with_reducible refine State.updRing_only ?_ ?_
    | split
    | (refine fun _ => ?_))

theorem State.request_only {A : Nat} {s₀ : State} {s : State} {p : Pkt} {purpose : Purpose} (hS : Only A s₀ s) (hA : Covers 0x1004000000000800 A) :
    Only.Opt A s₀ (State.request s p purpose) := by
  unfold State.request
  repeat' (first
    | with_reducible exact hS
    | with_reducible assumption
    | (with_reducible refine Covers.testBit hA ?_; decide)
    | (with_reducible refine Covers.trans ?_ hA; decide)
    | (refine fun _ => ?_; intros)
    | (extract_lets -underBinder +onlyGivenNames x; refine (fun (hx : Only A s₀ x) => ?_ : Only A s₀ x → _) ?_; (on_goal 2 => unfold x; clear x); (on_goal 1 => clear_value x; revert x; intro _ _))
    | (extract_lets -underBinder +onlyGivenNames x; unfold x; clear x)
    | (extract_lets -underBinder +onlyGivenNames x; revert x; intro _)
    | with_reducible refine State.updRing_only ?_ ?_
    | with_reducible refine State.offer_only ?_ ?_
    | with_reducible refine State.tagGot_only ?_ ?_
    | exact Only.Opt.none
    | with_reducible refine Only.Opt.some ?_
    | with_reducible refine Only.Opt.ite ?_ ?_
    | with_reducible refine Only.Opt.getD ?_ ?_
    | with_reducible refine Only.Opt.map ?_
    | split
    | with_reducible refine Only.Opt.elim (by assumption) ?_
    | (refine fun _ => ?_))

theorem State.freeTxn_only {A : Nat} {s₀ : State} {s : State} {x : Txn} (hS : Only A s₀ s) (hA : Covers 0x1004000000000800 A) :
    Only A s₀ (State.freeTxn s x) := by
  unfold State.freeTxn
  repeat' (first
    | with_reducible exact hS
    | with_reducible assumption
    | (with_reducible refine Covers.testBit hA ?_; decide)
    | (with_reducible refine Covers.trans ?_ hA; decide)
    | (refine fun _ => ?_; intros)
    | (extract_lets -underBinder +onlyGivenNames x; refine (fun (hx : Only A s₀ x) => ?_ : Only A s₀ x → _) ?_; (on_goal 2 => unfold x; clear x); (on_goal 1 => clear_value x; revert x; intro _ _))
    | (extract_lets -underBinder +onlyGivenNames x; unfold x; clear x)
    | (extract_lets -underBinder +onlyGivenNames x; revert x; intro _)
    | with_reducible refine Only.ite ?_ ?_
    | with_reducible refine State.updRing_only ?_ ?_
    | with_reducible refine State.releaseHeld_only ?_ ?_)

theorem State.publishBounds_only {A : Nat} {s₀ : State} {s : State} (hS : Only A s₀ s) (hA : Covers 0x800 A) :
    Only A s₀ (State.publishBounds s) := by
  unfold State.publishBounds
  repeat' (first
    | with_reducible exact hS
    | with_reducible assumption
    | (with_reducible refine Covers.testBit hA ?_; decide)
    | (with_reducible refine Covers.trans ?_ hA; decide)
    | (refine fun _ => ?_; intros)
    | (extract_lets -underBinder +onlyGivenNames x; refine (fun (hx : Only A s₀ x) => ?_ : Only A s₀ x → _) ?_; (on_goal 2 => unfold x; clear x); (on_goal 1 => clear_value x; revert x; intro _ _))
    | (extract_lets -underBinder +onlyGivenNames x; unfold x; clear x)
    | (extract_lets -underBinder +onlyGivenNames x; revert x; intro _)
    | with_reducible refine Only.ite ?_ ?_
    | with_reducible refine State.put_only ?_ ?_
    | with_reducible refine Only.foldl _ ?_ ?_
    | with_reducible refine Only.Fst.ite ?_ ?_
    | with_reducible refine Only.Fst.unpair (by assumption)
    | with_reducible refine Only.Fst.foldl _ ?_ ?_
    | with_reducible refine Only.Fst.of ?_
    | with_reducible refine Only.Fst.pair ?_
    | with_reducible refine Only.Fst.elim (by assumption) ?_)

theorem State.writeGuar_only {A : Nat} {s₀ : State} {s : State} {off : Nat} {m : Nat} {v : Nat} (hS : Only A s₀ s) (hA : Covers 0x800000000000800 A) :
    Only A s₀ (State.writeGuar s off m v) := by
  unfold State.writeGuar
  repeat' (first
    | with_reducible exact hS
    | with_reducible assumption
    | (with_reducible refine Covers.testBit hA ?_; decide)
    | (with_reducible refine Covers.trans ?_ hA; decide)
    | (with_reducible refine Covers.trans (Covers.trans (pageMask_all _) ?_) hA; decide)
    | (extract_lets -underBinder +onlyGivenNames x; refine (fun (hx : Only A s₀ x) => ?_ : Only A s₀ x → _) ?_; (on_goal 2 => unfold x; clear x); (on_goal 1 => clear_value x; revert x; intro _ _))
    | (extract_lets -underBinder +onlyGivenNames x; unfold x; clear x)
    | (extract_lets -underBinder +onlyGivenNames x; revert x; intro _)
    | with_reducible refine Only.ite ?_ ?_
    | with_reducible refine State.err_only ?_ ?_ ?_
    | with_reducible refine State.wrReg_only ?_ ?_
    | with_reducible refine State.publishBounds_only ?_ ?_)

theorem State.writeRoute_only {A : Nat} {s₀ : State} {s : State} {a : Nat} {e : Nat} {m : Nat} {v : Nat} (hS : Only A s₀ s) (hA : Covers 0x804000000000800 A) :
    Only A s₀ (State.writeRoute s a e m v) := by
  unfold State.writeRoute
  repeat' (first
    | with_reducible exact hS
    | with_reducible assumption
    | (with_reducible refine Covers.testBit hA ?_; decide)
    | (with_reducible refine Covers.trans ?_ hA; decide)
    | (with_reducible refine Covers.trans (Covers.trans (pageMask_all _) ?_) hA; decide)
    | (refine fun _ => ?_; intros)
    | (extract_lets -underBinder +onlyGivenNames x; refine (fun (hx : Only A s₀ x) => ?_ : Only A s₀ x → _) ?_; (on_goal 2 => unfold x; clear x); (on_goal 1 => clear_value x; revert x; intro _ _))
    | (extract_lets -underBinder +onlyGivenNames x; unfold x; clear x)
    | (extract_lets -underBinder +onlyGivenNames x; revert x; intro _)
    | with_reducible refine Only.ite ?_ ?_
    | with_reducible refine State.err_only ?_ ?_ ?_
    | with_reducible refine State.wrReg_only ?_ ?_
    | with_reducible refine State.updRing_only ?_ ?_
    | with_reducible refine State.publishBounds_only ?_ ?_)

theorem State.flitCorrected_only {A : Nat} {s₀ : State} {s : State} {stop : Nat} (hS : Only A s₀ s) (hA : Covers 0x1800000000000800 A) :
    Only A s₀ (State.flitCorrected s stop) := by
  unfold State.flitCorrected
  repeat' (first
    | with_reducible exact hS
    | with_reducible assumption
    | (with_reducible refine Covers.testBit hA ?_; decide)
    | (with_reducible refine Covers.trans ?_ hA; decide)
    | with_reducible refine State.inc_only ?_ ?_ ?_
    | with_reducible refine State.err_only ?_ ?_ ?_)

theorem State.flitUncorrectable_only {A : Nat} {s₀ : State} {s : State} {stop : Nat} {link : Nat} (hS : Only A s₀ s) (hA : Covers 0x1800000000000800 A) :
    Only A s₀ (State.flitUncorrectable s stop link) := by
  unfold State.flitUncorrectable
  repeat' (first
    | with_reducible exact hS
    | with_reducible assumption
    | (with_reducible refine Covers.testBit hA ?_; decide)
    | (with_reducible refine Covers.trans ?_ hA; decide)
    | with_reducible refine State.inc_only ?_ ?_ ?_
    | with_reducible refine State.err_only ?_ ?_ ?_)

theorem State.protocolError_only {A : Nat} {s₀ : State} {s : State} {stop : Nat} (hS : Only A s₀ s) (hA : Covers 0x1800000000000800 A) :
    Only A s₀ (State.protocolError s stop) := by
  unfold State.protocolError
  repeat' (first
    | with_reducible exact hS
    | with_reducible assumption
    | (with_reducible refine Covers.testBit hA ?_; decide)
    | (with_reducible refine Covers.trans ?_ hA; decide)
    | with_reducible refine State.inc_only ?_ ?_ ?_
    | with_reducible refine State.err_only ?_ ?_ ?_)

theorem State.resetTags_only {A : Nat} {s₀ : State} {s : State} {i : Nat} (hS : Only A s₀ s) (hA : Covers 0x1004000000000800 A) :
    Only A s₀ (State.resetTags s i) := by
  unfold State.resetTags
  repeat' (first
    | with_reducible exact hS
    | with_reducible assumption
    | (with_reducible refine Covers.testBit hA ?_; decide)
    | (with_reducible refine Covers.trans ?_ hA; decide)
    | (refine fun _ => ?_; intros)
    | (extract_lets -underBinder +onlyGivenNames x; refine (fun (hx : Only A s₀ x) => ?_ : Only A s₀ x → _) ?_; (on_goal 2 => unfold x; clear x); (on_goal 1 => clear_value x; revert x; intro _ _))
    | (extract_lets -underBinder +onlyGivenNames x; unfold x; clear x)
    | (extract_lets -underBinder +onlyGivenNames x; revert x; intro _)
    | with_reducible refine State.put_only ?_ ?_
    | with_reducible refine State.updRing_only ?_ ?_
    | with_reducible refine State.publishHolding_only ?_ ?_
    | with_reducible refine State.freeTxn_only ?_ ?_
    | with_reducible refine Only.foldl _ ?_ ?_
    | with_reducible refine Only.Fst.ite ?_ ?_
    | with_reducible refine Only.Fst.unpair (by assumption)
    | with_reducible refine Only.Fst.foldl _ ?_ ?_
    | with_reducible refine Only.Fst.of ?_
    | with_reducible refine Only.Fst.pair ?_
    | with_reducible refine Only.Fst.elim (by assumption) ?_)

theorem State.masterTags_only {A : Nat} {s₀ : State} {s : State} {i : Nat} (hS : Only A s₀ s) (hA : Covers 0x1004000000000800 A) :
    Only A s₀ (State.masterTags s i) := by
  unfold State.masterTags
  repeat' (first
    | with_reducible exact hS
    | with_reducible assumption
    | (with_reducible refine Covers.testBit hA ?_; decide)
    | (with_reducible refine Covers.trans ?_ hA; decide)
    | (refine fun _ => ?_; intros)
    | with_reducible refine State.updRing_only ?_ ?_
    | with_reducible refine State.tagGot_only ?_ ?_
    | with_reducible refine State.resetTags_only ?_ ?_
    | exact Only.OfRes.trap
    | exact Only.OfRes.held
    | with_reducible refine Only.OfRes.acted ?_
    | with_reducible refine Only.OfRes.ite ?_ ?_
    | with_reducible refine Only.OfRes.elim (by assumption) ?_)

theorem State.cutFree_only {A : Nat} {s₀ : State} {s : State} {i : Nat} (hS : Only A s₀ s) (hA : Covers 0x4001000000000 A) :
    Only A s₀ (State.cutFree s i) := by
  unfold State.cutFree
  repeat' (first
    | with_reducible exact hS
    | with_reducible assumption
    | (with_reducible refine Covers.testBit hA ?_; decide)
    | (with_reducible refine Covers.trans ?_ hA; decide)
    | (refine fun _ => ?_; intros)
    | (extract_lets -underBinder +onlyGivenNames x; refine (fun (hx : Only A s₀ x) => ?_ : Only A s₀ x → _) ?_; (on_goal 2 => unfold x; clear x); (on_goal 1 => clear_value x; revert x; intro _ _))
    | (extract_lets -underBinder +onlyGivenNames x; unfold x; clear x)
    | (extract_lets -underBinder +onlyGivenNames x; revert x; intro _)
    | with_reducible refine Only.ite ?_ ?_
    | with_reducible refine State.tookFree_only ?_ ?_
    | with_reducible refine State.updRing_only ?_ ?_
    | split
    | (refine fun _ => ?_))

theorem State.tagHoldExpiry_only {A : Nat} {s₀ : State} {s : State} {k : Nat} (hS : Only A s₀ s) (hA : Covers 0x4000000000000 A) :
    Only A s₀ (State.tagHoldExpiry s k) := by
  unfold State.tagHoldExpiry
  repeat' (first
    | with_reducible exact hS
    | with_reducible assumption
    | (with_reducible refine Covers.testBit hA ?_; decide)
    | (with_reducible refine Covers.trans ?_ hA; decide)
    | (refine fun _ => ?_; intros)
    | with_reducible refine State.updRing_only ?_ ?_
    | split
    | (refine fun _ => ?_))

theorem State.readLatSum_only {A : Nat} {s₀ : State} {s : State} {i : Nat} (hS : Only A s₀ s) (hA : Covers 0x4000000000800 A) :
    Only.Snd A s₀ (State.readLatSum s i) := by
  unfold State.readLatSum
  repeat' (first
    | with_reducible exact hS
    | with_reducible assumption
    | (with_reducible refine Covers.testBit hA ?_; decide)
    | (with_reducible refine Covers.trans ?_ hA; decide)
    | (refine fun _ => ?_; intros)
    | (extract_lets -underBinder +onlyGivenNames x; refine (fun (hx : Only A s₀ x) => ?_ : Only A s₀ x → _) ?_; (on_goal 2 => unfold x; clear x); (on_goal 1 => clear_value x; revert x; intro _ _))
    | (extract_lets -underBinder +onlyGivenNames x; unfold x; clear x)
    | (extract_lets -underBinder +onlyGivenNames x; revert x; intro _)
    | with_reducible refine State.put_only ?_ ?_
    | with_reducible refine State.updRing_only ?_ ?_
    | with_reducible refine Only.Snd.ite ?_ ?_
    | with_reducible refine Only.Snd.of ?_
    | with_reducible refine Only.Snd.pair ?_
    | with_reducible refine Only.Snd.elim (by assumption) ?_)

theorem State.countResponse_only {A : Nat} {s₀ : State} {s : State} {i : Nat} {status : Nat} {lat : Nat} {len : Nat} (hS : Only A s₀ s) (hA : Covers 0x1000000000000800 A) :
    Only A s₀ (State.countResponse s i status lat len) := by
  unfold State.countResponse
  repeat' (first
    | with_reducible exact hS
    | with_reducible assumption
    | (with_reducible refine Covers.testBit hA ?_; decide)
    | (with_reducible refine Covers.trans ?_ hA; decide)
    | (extract_lets -underBinder +onlyGivenNames x; refine (fun (hx : Only A s₀ x) => ?_ : Only A s₀ x → _) ?_; (on_goal 2 => unfold x; clear x); (on_goal 1 => clear_value x; revert x; intro _ _))
    | (extract_lets -underBinder +onlyGivenNames x; unfold x; clear x)
    | (extract_lets -underBinder +onlyGivenNames x; revert x; intro _)
    | with_reducible refine Only.ite ?_ ?_
    | with_reducible refine State.add_only ?_ ?_ ?_
    | with_reducible refine State.raiseTo_only ?_ ?_ ?_
    | with_reducible refine State.inc_only ?_ ?_ ?_)

end Sys2Proof.Machine
end

