-- ==== Sys2Proof/Laws/OnlyTraps.lean ====
section
/-! SUPPORT. What each operation of Machine/Traps.lean may change. -/

set_option linter.unusedTactic false
set_option linter.unreachableTactic false
set_option linter.unusedVariables false

namespace Sys2Proof.Machine

theorem State.rearm_only {A : Nat} {s₀ : State} {s : State} {u : Nat} (hS : Only A s₀ s) (hA : Covers 0x4000 A) :
    Only A s₀ (State.rearm s u) := by
  unfold State.rearm
  repeat' (first
    | with_reducible exact hS
    | with_reducible assumption
    | (with_reducible refine Covers.testBit hA ?_; decide)
    | (with_reducible refine Covers.trans ?_ hA; decide)
    | with_reducible refine Only.ite ?_ ?_
    | with_reducible refine State.put_only ?_ ?_)

theorem State.thrErr_only {A : Nat} {s₀ : State} {s : State} {f : Fld} {u : Nat} {detail : Nat} (hS : Only A s₀ s) (hpf : A.testBit f.page = true) (hA : Covers 0x800000000000000 A) :
    Only A s₀ (State.thrErr s f u detail) := by
  unfold State.thrErr
  repeat' (first
    | with_reducible exact hS
    | with_reducible assumption
    | (with_reducible refine Covers.testBit hA ?_; decide)
    | (with_reducible refine Covers.trans ?_ hA; decide)
    | with_reducible refine State.errBit_only ?_ ?_ ?_)

theorem State.threadReset_only {A : Nat} {s₀ : State} {s : State} {u : Nat} (hS : Only A s₀ s) (hA : Covers 0x180E000000002800 A) :
    Only A s₀ (State.threadReset s u) := by
  unfold State.threadReset
  repeat' (first
    | with_reducible exact hS
    | with_reducible assumption
    | (with_reducible refine Covers.testBit hA ?_; decide)
    | (with_reducible refine Covers.trans ?_ hA; decide)
    | with_reducible refine State.ownerReset_only ?_ ?_
    | with_reducible refine State.resetTags_only ?_ ?_)

theorem State.startThread_only {A : Nat} {s₀ : State} {s : State} {u : Nat} (hS : Only A s₀ s) (hA : Covers 0x18022000000040C0 A) :
    Only A s₀ (State.startThread s u) := by
  unfold State.startThread
  repeat' (first
    | with_reducible exact hS
    | with_reducible assumption
    | (with_reducible refine Covers.testBit hA ?_; decide)
    | (with_reducible refine Covers.trans ?_ hA; decide)
    | (refine fun _ => ?_; intros)
    | (extract_lets -underBinder +onlyGivenNames x; refine (fun (hx : Only A s₀ x) => ?_ : Only A s₀ x → _) ?_; (on_goal 2 => unfold x; clear x); (on_goal 1 => clear_value x; revert x; intro _ _))
    | (extract_lets -underBinder +onlyGivenNames x; unfold x; clear x)
    | (extract_lets -underBinder +onlyGivenNames x; revert x; intro _)
    | with_reducible refine Only.ite ?_ ?_
    | with_reducible refine State.put_only ?_ ?_
    | with_reducible refine State.updTh_only ?_ ?_
    | with_reducible refine State.putThState_only ?_ ?_
    | with_reducible refine State.hold_only ?_ ?_
    | with_reducible refine State.rearm_only ?_ ?_
    | with_reducible refine State.thrErr_only ?_ ?_ ?_)

theorem State.keeperCleared_only {A : Nat} {s₀ : State} {s : State} {i : Nat} {u : Nat} (hS : Only A s₀ s) (hA : Covers 0x180E00D000086800 A) :
    Only A s₀ (State.keeperCleared s i u) := by
  unfold State.keeperCleared
  repeat' (first
    | with_reducible exact hS
    | with_reducible assumption
    | (with_reducible refine Covers.testBit hA ?_; decide)
    | (with_reducible refine Covers.trans ?_ hA; decide)
    | (extract_lets -underBinder +onlyGivenNames x; refine (fun (hx : Only A s₀ x) => ?_ : Only A s₀ x → _) ?_; (on_goal 2 => unfold x; clear x); (on_goal 1 => clear_value x; revert x; intro _ _))
    | (extract_lets -underBinder +onlyGivenNames x; unfold x; clear x)
    | (extract_lets -underBinder +onlyGivenNames x; revert x; intro _)
    | with_reducible refine State.put_only ?_ ?_
    | with_reducible refine State.inc_only ?_ ?_ ?_
    | with_reducible refine State.clearLram_only ?_ ?_
    | with_reducible refine State.putThState_only ?_ ?_
    | with_reducible refine State.ownerReset_only ?_ ?_
    | with_reducible refine State.masterTags_only ?_ ?_
    | with_reducible refine State.cutFree_only ?_ ?_
    | with_reducible refine Only.set_cpu ?_ ?_)

theorem State.keeperBooted_only {A : Nat} {s₀ : State} {s : State} {i : Nat} {u : Nat} {v0 : Option (List Byte)} (hS : Only A s₀ s) (hA : Covers 0x188220C0000840C0 A) :
    Only A s₀ (State.keeperBooted s i u v0) := by
  unfold State.keeperBooted
  repeat' (first
    | with_reducible exact hS
    | with_reducible assumption
    | (with_reducible refine Covers.testBit hA ?_; decide)
    | (with_reducible refine Covers.trans ?_ hA; decide)
    | (refine fun _ => ?_; intros)
    | with_reducible refine State.put_only ?_ ?_
    | with_reducible refine State.err_only ?_ ?_ ?_
    | with_reducible refine State.loadFirmware_only ?_ ?_
    | with_reducible refine State.startThread_only ?_ ?_
    | with_reducible refine Only.Fst.ite ?_ ?_
    | with_reducible refine Only.Fst.unpair (by assumption)
    | split
    | with_reducible refine Only.Fst.of ?_
    | with_reducible refine Only.Fst.pair ?_
    | with_reducible refine Only.Fst.elim (by assumption) ?_
    | with_reducible refine Only.set_pwr ?_ ?_)

theorem State.keeperLoads_only {A : Nat} {s₀ : State} {s : State} {e : Nat} (hS : Only A s₀ s) (hA : Covers 0x188220C0000840C0 A) :
    Only A s₀ (State.keeperLoads s e) := by
  unfold State.keeperLoads
  repeat' (first
    | with_reducible exact hS
    | with_reducible assumption
    | (with_reducible refine Covers.testBit hA ?_; decide)
    | (with_reducible refine Covers.trans ?_ hA; decide)
    | (extract_lets -underBinder +onlyGivenNames x; refine (fun (hx : Only A s₀ x) => ?_ : Only A s₀ x → _) ?_; (on_goal 2 => unfold x; clear x); (on_goal 1 => clear_value x; revert x; intro _ _))
    | (extract_lets -underBinder +onlyGivenNames x; unfold x; clear x)
    | (extract_lets -underBinder +onlyGivenNames x; revert x; intro _)
    | with_reducible refine Only.ite ?_ ?_
    | with_reducible refine State.put_only ?_ ?_
    | with_reducible refine State.err_only ?_ ?_ ?_
    | with_reducible refine State.bootImage_only ?_ ?_
    | with_reducible refine State.keeperBooted_only ?_ ?_
    | with_reducible refine Only.Fst.ite ?_ ?_
    | with_reducible refine Only.Fst.unpair (by assumption)
    | with_reducible refine Only.Fst.of ?_
    | with_reducible refine Only.Fst.pair ?_
    | with_reducible refine Only.Fst.elim (by assumption) ?_)

theorem State.keeperReset_only {A : Nat} {s₀ : State} {s : State} (hS : Only A s₀ s) (hA : Covers 0x188E20D0000868C0 A) :
    Only A s₀ (State.keeperReset s) := by
  unfold State.keeperReset
  repeat' (first
    | with_reducible exact hS
    | with_reducible assumption
    | (with_reducible refine Covers.testBit hA ?_; decide)
    | (with_reducible refine Covers.trans ?_ hA; decide)
    | (extract_lets -underBinder +onlyGivenNames x; refine (fun (hx : Only A s₀ x) => ?_ : Only A s₀ x → _) ?_; (on_goal 2 => unfold x; clear x); (on_goal 1 => clear_value x; revert x; intro _ _))
    | (extract_lets -underBinder +onlyGivenNames x; revert x; intro _)
    | with_reducible refine State.flashFound_only ?_ ?_
    | with_reducible refine State.keeperCleared_only ?_ ?_
    | with_reducible refine State.keeperLoads_only ?_ ?_
    | with_reducible refine Only.Fst.ite ?_ ?_
    | with_reducible refine Only.Fst.unpair (by assumption)
    | with_reducible refine Only.Fst.of ?_
    | with_reducible refine Only.Fst.pair ?_
    | with_reducible refine Only.Fst.elim (by assumption) ?_)

theorem State.doubleFault_only {A : Nat} {s₀ : State} {s : State} {u : Nat} {cause2 : Nat} {pc : Nat} (hS : Only A s₀ s) (hA : Covers 0x188E20D0000868C0 A) :
    Only A s₀ (State.doubleFault s u cause2 pc) := by
  unfold State.doubleFault
  repeat' (first
    | with_reducible exact hS
    | with_reducible assumption
    | (with_reducible refine Covers.testBit hA ?_; decide)
    | (with_reducible refine Covers.trans ?_ hA; decide)
    | (refine fun _ => ?_; intros)
    | (extract_lets -underBinder +onlyGivenNames x; refine (fun (hx : Only A s₀ x) => ?_ : Only A s₀ x → _) ?_; (on_goal 2 => unfold x; clear x); (on_goal 1 => clear_value x; revert x; intro _ _))
    | (extract_lets -underBinder +onlyGivenNames x; unfold x; clear x)
    | (extract_lets -underBinder +onlyGivenNames x; revert x; intro _)
    | with_reducible refine Only.ite ?_ ?_
    | with_reducible refine State.put_only ?_ ?_
    | with_reducible refine State.updTh_only ?_ ?_
    | with_reducible refine State.putThState_only ?_ ?_
    | with_reducible refine State.hold_only ?_ ?_
    | with_reducible refine State.thrErr_only ?_ ?_ ?_
    | with_reducible refine State.threadReset_only ?_ ?_
    | with_reducible refine State.keeperReset_only ?_ ?_)

theorem State.takeTrap_only {A : Nat} {s₀ : State} {s : State} {u : Nat} {cause : Nat} {info : Nat} {resume : Nat} (hS : Only A s₀ s) (hA : Covers 0x188E20D0000868C0 A) :
    Only A s₀ (State.takeTrap s u cause info resume) := by
  unfold State.takeTrap
  repeat' (first
    | with_reducible exact hS
    | with_reducible assumption
    | (with_reducible refine Covers.testBit hA ?_; decide)
    | (with_reducible refine Covers.trans ?_ hA; decide)
    | (refine fun _ => ?_; intros)
    | (extract_lets -underBinder +onlyGivenNames x; refine (fun (hx : Only A s₀ x) => ?_ : Only A s₀ x → _) ?_; (on_goal 2 => unfold x; clear x); (on_goal 1 => clear_value x; revert x; intro _ _))
    | (extract_lets -underBinder +onlyGivenNames x; unfold x; clear x)
    | (extract_lets -underBinder +onlyGivenNames x; revert x; intro _)
    | with_reducible refine Only.ite ?_ ?_
    | with_reducible refine State.inc_only ?_ ?_ ?_
    | with_reducible refine State.updTh_only ?_ ?_
    | with_reducible refine State.hold_only ?_ ?_
    | with_reducible refine State.doubleFault_only ?_ ?_)

theorem State.leaveWait_only {A : Nat} {s₀ : State} {s : State} {u : Nat} (hS : Only A s₀ s) (hA : Covers 0x18022000000040C0 A) :
    Only A s₀ (State.leaveWait s u) := by
  unfold State.leaveWait
  repeat' (first
    | with_reducible exact hS
    | with_reducible assumption
    | (with_reducible refine Covers.testBit hA ?_; decide)
    | (with_reducible refine Covers.trans ?_ hA; decide)
    | (refine fun _ => ?_; intros)
    | with_reducible refine State.put_only ?_ ?_
    | with_reducible refine State.updTh_only ?_ ?_
    | with_reducible refine State.putThState_only ?_ ?_
    | with_reducible refine State.hold_only ?_ ?_)

theorem State.deliverEvent_only {A : Nat} {s₀ : State} {s : State} {u : Nat} (hS : Only A s₀ s) (hA : Covers 0x188E20D0000868C0 A) :
    Only.Opt A s₀ (State.deliverEvent s u) := by
  unfold State.deliverEvent
  repeat' (first
    | with_reducible exact hS
    | with_reducible assumption
    | (with_reducible refine Covers.testBit hA ?_; decide)
    | (with_reducible refine Covers.trans ?_ hA; decide)
    | (refine fun _ => ?_; intros)
    | (extract_lets -underBinder +onlyGivenNames x; refine (fun (hx : Only A s₀ x) => ?_ : Only A s₀ x → _) ?_; (on_goal 2 => unfold x; clear x); (on_goal 1 => clear_value x; revert x; intro _ _))
    | (extract_lets -underBinder +onlyGivenNames x; unfold x; clear x)
    | (extract_lets -underBinder +onlyGivenNames x; revert x; intro _)
    | with_reducible refine Only.ite ?_ ?_
    | with_reducible refine State.updTh_only ?_ ?_
    | with_reducible refine State.doubleFault_only ?_ ?_
    | with_reducible refine State.takeTrap_only ?_ ?_
    | exact Only.Opt.none
    | with_reducible refine Only.Opt.some ?_
    | with_reducible refine Only.Opt.ite ?_ ?_
    | with_reducible refine Only.Opt.getD ?_ ?_
    | with_reducible refine Only.Opt.map ?_
    | split
    | with_reducible refine Only.Opt.elim (by assumption) ?_
    | (refine fun _ => ?_))

theorem State.deliverWaiting_only {A : Nat} {s₀ : State} {s : State} {u : Nat} (hS : Only A s₀ s) (hA : Covers 0x188E20D0000868C0 A) :
    Only A s₀ (State.deliverWaiting s u) := by
  unfold State.deliverWaiting
  repeat' (first
    | with_reducible exact hS
    | with_reducible assumption
    | (with_reducible refine Covers.testBit hA ?_; decide)
    | (with_reducible refine Covers.trans ?_ hA; decide)
    | (extract_lets -underBinder +onlyGivenNames x; refine (fun (hx : Only A s₀ x) => ?_ : Only A s₀ x → _) ?_; (on_goal 2 => unfold x; clear x); (on_goal 1 => clear_value x; revert x; intro _ _))
    | (extract_lets -underBinder +onlyGivenNames x; unfold x; clear x)
    | (extract_lets -underBinder +onlyGivenNames x; revert x; intro _)
    | with_reducible refine Only.ite ?_ ?_
    | with_reducible refine State.leaveWait_only ?_ ?_
    | with_reducible refine State.deliverEvent_only ?_ ?_
    | exact Only.Opt.none
    | with_reducible refine Only.Opt.some ?_
    | with_reducible refine Only.Opt.ite ?_ ?_
    | with_reducible refine Only.Opt.getD ?_ ?_
    | with_reducible refine Only.Opt.map ?_
    | with_reducible refine Only.Opt.elim (by assumption) ?_)

theorem State.imprLost_only {A : Nat} {s₀ : State} {s : State} {u : Nat} (hS : Only A s₀ s) (hA : Covers 0x1800000000004000 A) :
    Only A s₀ (State.imprLost s u) := by
  unfold State.imprLost
  repeat' (first
    | with_reducible exact hS
    | with_reducible assumption
    | (with_reducible refine Covers.testBit hA ?_; decide)
    | (with_reducible refine Covers.trans ?_ hA; decide)
    | with_reducible refine State.inc_only ?_ ?_ ?_
    | with_reducible refine State.thrErr_only ?_ ?_ ?_)

theorem State.postedError_only {A : Nat} {s₀ : State} {s : State} {u : Nat} {addr : Nat} {inTrap : Bool} (hS : Only A s₀ s) (hA : Covers 0x188E20D0000868C0 A) :
    Only A s₀ (State.postedError s u addr inTrap) := by
  unfold State.postedError
  repeat' (first
    | with_reducible exact hS
    | with_reducible assumption
    | (with_reducible refine Covers.testBit hA ?_; decide)
    | (with_reducible refine Covers.trans ?_ hA; decide)
    | (refine fun _ => ?_; intros)
    | (extract_lets -underBinder +onlyGivenNames x; refine (fun (hx : Only A s₀ x) => ?_ : Only A s₀ x → _) ?_; (on_goal 2 => unfold x; clear x); (on_goal 1 => clear_value x; revert x; intro _ _))
    | (extract_lets -underBinder +onlyGivenNames x; unfold x; clear x)
    | (extract_lets -underBinder +onlyGivenNames x; revert x; intro _)
    | with_reducible refine Only.ite ?_ ?_
    | with_reducible refine State.err_only ?_ ?_ ?_
    | with_reducible refine State.updTh_only ?_ ?_
    | with_reducible refine State.deliverWaiting_only ?_ ?_
    | with_reducible refine State.imprLost_only ?_ ?_)

theorem State.fpComplete_only {A : Nat} {s₀ : State} {s : State} {u : Nat} {k : Nat} (hS : Only A s₀ s) (hA : Covers 0x188E20D0000868C0 A) :
    Only A s₀ (State.fpComplete s u k) := by
  unfold State.fpComplete
  repeat' (first
    | with_reducible exact hS
    | with_reducible assumption
    | (with_reducible refine Covers.testBit hA ?_; decide)
    | (with_reducible refine Covers.trans ?_ hA; decide)
    | (refine fun _ => ?_; intros)
    | (extract_lets -underBinder +onlyGivenNames x; refine (fun (hx : Only A s₀ x) => ?_ : Only A s₀ x → _) ?_; (on_goal 2 => unfold x; clear x); (on_goal 1 => clear_value x; revert x; intro _ _))
    | (extract_lets -underBinder +onlyGivenNames x; unfold x; clear x)
    | (extract_lets -underBinder +onlyGivenNames x; revert x; intro _)
    | with_reducible refine Only.ite ?_ ?_
    | with_reducible refine State.updTh_only ?_ ?_
    | with_reducible refine State.deliverWaiting_only ?_ ?_
    | with_reducible refine State.imprLost_only ?_ ?_
    | split
    | (refine fun _ => ?_))

theorem State.stopNow_only {A : Nat} {s₀ : State} {s : State} {u : Nat} (hS : Only A s₀ s) (hA : Covers 0x180E2000000068C0 A) :
    Only A s₀ (State.stopNow s u) := by
  unfold State.stopNow
  repeat' (first
    | with_reducible exact hS
    | with_reducible assumption
    | (with_reducible refine Covers.testBit hA ?_; decide)
    | (with_reducible refine Covers.trans ?_ hA; decide)
    | (refine fun _ => ?_; intros)
    | (extract_lets -underBinder +onlyGivenNames x; refine (fun (hx : Only A s₀ x) => ?_ : Only A s₀ x → _) ?_; (on_goal 2 => unfold x; clear x); (on_goal 1 => clear_value x; revert x; intro _ _))
    | (extract_lets -underBinder +onlyGivenNames x; unfold x; clear x)
    | (extract_lets -underBinder +onlyGivenNames x; revert x; intro _)
    | with_reducible refine Only.ite ?_ ?_
    | with_reducible refine State.put_only ?_ ?_
    | with_reducible refine State.updTh_only ?_ ?_
    | with_reducible refine State.putThState_only ?_ ?_
    | with_reducible refine State.hold_only ?_ ?_
    | with_reducible refine State.rearm_only ?_ ?_
    | with_reducible refine State.threadReset_only ?_ ?_
    | with_reducible refine State.startThread_only ?_ ?_
    | with_reducible refine State.imprLost_only ?_ ?_)

theorem State.stopThread_only {A : Nat} {s₀ : State} {s : State} {u : Nat} (hS : Only A s₀ s) (hA : Covers 0x180E2000000068C0 A) :
    Only A s₀ (State.stopThread s u) := by
  unfold State.stopThread
  repeat' (first
    | with_reducible exact hS
    | with_reducible assumption
    | (with_reducible refine Covers.testBit hA ?_; decide)
    | (with_reducible refine Covers.trans ?_ hA; decide)
    | (refine fun _ => ?_; intros)
    | with_reducible refine Only.ite ?_ ?_
    | with_reducible refine State.updTh_only ?_ ?_
    | with_reducible refine State.hold_only ?_ ?_
    | with_reducible refine State.rearm_only ?_ ?_
    | with_reducible refine State.stopNow_only ?_ ?_
    | split
    | (refine fun _ => ?_))

theorem State.writeThrCmd_only {A : Nat} {s₀ : State} {s : State} {u : Nat} {m : Nat} {v : Nat} (hS : Only A s₀ s) (hA : Covers 0x180E2000000068C0 A) :
    Only A s₀ (State.writeThrCmd s u m v) := by
  unfold State.writeThrCmd
  repeat' (first
    | with_reducible exact hS
    | with_reducible assumption
    | (with_reducible refine Covers.testBit hA ?_; decide)
    | (with_reducible refine Covers.trans ?_ hA; decide)
    | (refine fun _ => ?_; intros)
    | (extract_lets -underBinder +onlyGivenNames x; refine (fun (hx : Only A s₀ x) => ?_ : Only A s₀ x → _) ?_; (on_goal 2 => unfold x; clear x); (on_goal 1 => clear_value x; revert x; intro _ _))
    | (extract_lets -underBinder +onlyGivenNames x; unfold x; clear x)
    | (extract_lets -underBinder +onlyGivenNames x; revert x; intro _)
    | with_reducible refine Only.ite ?_ ?_
    | with_reducible refine State.updTh_only ?_ ?_
    | with_reducible refine State.thrErr_only ?_ ?_ ?_
    | with_reducible refine State.startThread_only ?_ ?_
    | with_reducible refine State.stopThread_only ?_ ?_)

theorem State.debugResume_only {A : Nat} {s₀ : State} {s : State} {u : Nat} (hS : Only A s₀ s) (hA : Covers 0x4000 A) :
    Only A s₀ (State.debugResume s u) := by
  unfold State.debugResume
  repeat' (first
    | with_reducible exact hS
    | with_reducible assumption
    | (with_reducible refine Covers.testBit hA ?_; decide)
    | (with_reducible refine Covers.trans ?_ hA; decide)
    | with_reducible refine Only.ite ?_ ?_
    | with_reducible refine State.putThState_only ?_ ?_)

theorem State.blackoutFires_only {A : Nat} {s₀ : State} {s : State} (hS : Only A s₀ s) (hA : Covers 0x188E20D0000868C0 A) :
    Only A s₀ (State.blackoutFires s) := by
  unfold State.blackoutFires
  repeat' (first
    | with_reducible exact hS
    | with_reducible assumption
    | (with_reducible refine Covers.testBit hA ?_; decide)
    | (with_reducible refine Covers.trans ?_ hA; decide)
    | (extract_lets -underBinder +onlyGivenNames x; refine (fun (hx : Only A s₀ x) => ?_ : Only A s₀ x → _) ?_; (on_goal 2 => unfold x; clear x); (on_goal 1 => clear_value x; revert x; intro _ _))
    | (extract_lets -underBinder +onlyGivenNames x; unfold x; clear x)
    | (extract_lets -underBinder +onlyGivenNames x; revert x; intro _)
    | with_reducible refine Only.ite ?_ ?_
    | with_reducible refine State.put_only ?_ ?_
    | with_reducible refine State.inc_only ?_ ?_ ?_
    | with_reducible refine State.report_only ?_ ?_
    | with_reducible refine State.raiseEvent_only ?_ ?_
    | with_reducible refine State.takeTrap_only ?_ ?_
    | with_reducible refine State.leaveWait_only ?_ ?_)

theorem State.wakeThread_only {A : Nat} {s₀ : State} {s : State} {u : Nat} (hS : Only A s₀ s) (hA : Covers 0x18022000000040C0 A) :
    Only A s₀ (State.wakeThread s u) := by
  unfold State.wakeThread
  repeat' (first
    | with_reducible exact hS
    | with_reducible assumption
    | (with_reducible refine Covers.testBit hA ?_; decide)
    | (with_reducible refine Covers.trans ?_ hA; decide)
    | (refine fun _ => ?_; intros)
    | (extract_lets -underBinder +onlyGivenNames x; refine (fun (hx : Only A s₀ x) => ?_ : Only A s₀ x → _) ?_; (on_goal 2 => unfold x; clear x); (on_goal 1 => clear_value x; revert x; intro _ _))
    | (extract_lets -underBinder +onlyGivenNames x; unfold x; clear x)
    | (extract_lets -underBinder +onlyGivenNames x; revert x; intro _)
    | with_reducible refine Only.ite ?_ ?_
    | with_reducible refine State.updTh_only ?_ ?_
    | with_reducible refine State.hold_only ?_ ?_
    | with_reducible refine State.rearm_only ?_ ?_
    | with_reducible refine State.leaveWait_only ?_ ?_
    | split
    | (refine fun _ => ?_))

end Sys2Proof.Machine
end

