-- ==== Sys2Proof/Laws/OnlyCpuIssue.lean ====
section
/-! SUPPORT. What each operation of Machine/CpuIssue.lean may change. -/

set_option linter.unusedTactic false
set_option linter.unreachableTactic false
set_option linter.unusedVariables false

namespace Sys2Proof.Machine

/-- `Only` of the state in which an instruction has acted. -/
structure Only.OfRes (A : Nat) (s₀ : State) (r : Res) : Prop where
  of : ∀ t, r = .acted t → Only A s₀ t

theorem Only.OfRes.acted {A : Nat} {s₀ t : State} (h : Only A s₀ t) : Only.OfRes A s₀ (.acted t) := ⟨fun _ e => by
  cases e
  exact h⟩

theorem Only.OfRes.trap {A : Nat} {s₀ : State} {c i : Nat} : Only.OfRes A s₀ (.trap c i) := ⟨fun _ e => by cases e⟩

theorem Only.OfRes.held {A : Nat} {s₀ : State} : Only.OfRes A s₀ .held := ⟨fun _ e => by cases e⟩

theorem Only.OfRes.ite {A : Nat} {s₀ : State} {p : Prop} [Decidable p] {a b : Res} (ha : Only.OfRes A s₀ a)
    (hb : Only.OfRes A s₀ b) : Only.OfRes A s₀ (if p then a else b) := by
  split <;> assumption

theorem Only.OfRes.elim {A : Nat} {s₀ t : State} {r : Res} (e : r = .acted t) (h : Only.OfRes A s₀ r) : Only A s₀ t :=
  h.of t e

theorem State.tookIssue_only {A : Nat} {s₀ : State} {s : State} {u : Nat} {n : Nat} (hS : Only A s₀ s) (hA : Covers 0x2000000000000 A) :
    Only A s₀ (State.tookIssue s u n) := by
  unfold State.tookIssue
  repeat' (first
    | with_reducible exact hS
    | with_reducible assumption
    | (with_reducible refine Covers.testBit hA ?_; decide)
    | (with_reducible refine Covers.trans ?_ hA; decide)
    | (refine fun _ => ?_; intros)
    | (extract_lets -underBinder +onlyGivenNames x; refine (fun (hx : Only A s₀ x) => ?_ : Only A s₀ x → _) ?_; (on_goal 2 => unfold x; clear x); (on_goal 1 => clear_value x; revert x; intro _ _))
    | (extract_lets -underBinder +onlyGivenNames x; unfold x; clear x)
    | (extract_lets -underBinder +onlyGivenNames x; revert x; intro _)
    | with_reducible refine State.updCore_only ?_ ?_)

theorem State.starved_only {A : Nat} {s₀ : State} {s : State} {u : Nat} (hS : Only A s₀ s) (hA : Covers 0x2000000000000 A) :
    Only A s₀ (State.starved s u) := by
  unfold State.starved
  repeat' (first
    | with_reducible exact hS
    | with_reducible assumption
    | (with_reducible refine Covers.testBit hA ?_; decide)
    | (with_reducible refine Covers.trans ?_ hA; decide)
    | (refine fun _ => ?_; intros)
    | with_reducible refine Only.ite ?_ ?_
    | with_reducible refine State.updCore_only ?_ ?_)

theorem State.lramCorrected_only {A : Nat} {s₀ : State} {s : State} {c : Nat} (hS : Only A s₀ s) (hA : Covers 0x1800000000004000 A) :
    Only A s₀ (State.lramCorrected s c) := by
  unfold State.lramCorrected
  repeat' (first
    | with_reducible exact hS
    | with_reducible assumption
    | (with_reducible refine Covers.testBit hA ?_; decide)
    | (with_reducible refine Covers.trans ?_ hA; decide)
    | with_reducible refine State.inc_only ?_ ?_ ?_
    | with_reducible refine State.err_only ?_ ?_ ?_)

theorem State.lramUncorrectable_only {A : Nat} {s₀ : State} {s : State} {c : Nat} (hS : Only A s₀ s) (hA : Covers 0x1800000000004000 A) :
    Only A s₀ (State.lramUncorrectable s c) := by
  unfold State.lramUncorrectable
  repeat' (first
    | with_reducible exact hS
    | with_reducible assumption
    | (with_reducible refine Covers.testBit hA ?_; decide)
    | (with_reducible refine Covers.trans ?_ hA; decide)
    | with_reducible refine State.inc_only ?_ ?_ ?_
    | with_reducible refine State.err_only ?_ ?_ ?_)

theorem State.issue_only {A : Nat} {s₀ : State} {s : State} {u : Issue} {enc : Nat} {body : State → Res} (hS : Only A s₀ s) (hbody : ∀ t, Only A s₀ t → Only.OfRes A s₀ (body t)) (hA : Covers 0x188E20D0000868C0 A) :
    Only A s₀ (State.issue s u enc body) := by
  unfold State.issue
  extract_lets id c s0 pc word s1
  have h0 : Only A s₀ s0 := State.tookIssue_only hS (Covers.trans (by decide) hA)
  have h1 : Only A s₀ s1 := Only.ite (State.lramCorrected_only h0 (Covers.trans (by decide) hA)) h0
  clear_value s0 s1 pc word
  refine Only.ite hS ?_
  split
  · exact Only.Opt.elim (by assumption) (State.deliverEvent_only h0 (Covers.trans (by decide) hA))
  · refine Only.ite (State.takeTrap_only h0 (Covers.trans (by decide) hA)) ?_
    refine Only.ite (State.takeTrap_only (State.lramUncorrectable_only h0 (Covers.trans (by decide) hA))
      (Covers.trans (by decide) hA)) ?_
    refine Only.ite (State.takeTrap_only h1 (Covers.trans (by decide) hA)) ?_
    refine Only.ite hS ?_
    split
    · next e => exact (hbody _ h1).of _ e
    · exact State.takeTrap_only h1 (Covers.trans (by decide) hA)
    · exact hS

theorem State.retire_only {A : Nat} {s₀ : State} {s : State} {id : Nat} {next : Nat} {f : Th → Th} (hS : Only A s₀ s) (hA : Covers 0x2000000000000 A) :
    Only A s₀ (State.retire s id next f) := by
  unfold State.retire
  repeat' (first
    | with_reducible exact hS
    | with_reducible assumption
    | (with_reducible refine Covers.testBit hA ?_; decide)
    | (with_reducible refine Covers.trans ?_ hA; decide)
    | (refine fun _ => ?_; intros)
    | with_reducible refine State.updTh_only ?_ ?_)

theorem State.plain_only {A : Nat} {s₀ : State} {s : State} {id : Nat} {f : Th → Th} (hS : Only A s₀ s) (hA : Covers 0x2000000000000 A) :
    Only.OfRes A s₀ (State.plain s id f) := by
  unfold State.plain
  repeat' (first
    | with_reducible exact hS
    | with_reducible assumption
    | (with_reducible refine Covers.testBit hA ?_; decide)
    | (with_reducible refine Covers.trans ?_ hA; decide)
    | with_reducible refine State.retire_only ?_ ?_
    | exact Only.OfRes.trap
    | exact Only.OfRes.held
    | with_reducible refine Only.OfRes.acted ?_
    | with_reducible refine Only.OfRes.ite ?_ ?_
    | with_reducible refine Only.OfRes.elim (by assumption) ?_)

theorem State.transfer_only {A : Nat} {s₀ : State} {s : State} {id : Nat} {target : Nat} {f : Th → Th} (hS : Only A s₀ s) (hA : Covers 0x2000000000000 A) :
    Only.OfRes A s₀ (State.transfer s id target f) := by
  unfold State.transfer
  repeat' (first
    | with_reducible exact hS
    | with_reducible assumption
    | (with_reducible refine Covers.testBit hA ?_; decide)
    | (with_reducible refine Covers.trans ?_ hA; decide)
    | with_reducible refine Only.ite ?_ ?_
    | with_reducible refine State.retire_only ?_ ?_
    | exact Only.OfRes.trap
    | exact Only.OfRes.held
    | with_reducible refine Only.OfRes.acted ?_
    | with_reducible refine Only.OfRes.ite ?_ ?_
    | with_reducible refine Only.OfRes.elim (by assumption) ?_)

theorem State.localAccess_only {A : Nat} {s₀ : State} {s : State} {c : Nat} {x : Access} (hS : Only A s₀ s) (hA : Covers 0x4000000000 A) :
    Only.Fst A s₀ (State.localAccess s c x) := by
  unfold State.localAccess
  repeat' (first
    | with_reducible exact hS
    | with_reducible assumption
    | (with_reducible refine Covers.testBit hA ?_; decide)
    | (with_reducible refine Covers.trans ?_ hA; decide)
    | (extract_lets -underBinder +onlyGivenNames x; refine (fun (hx : Only A s₀ x) => ?_ : Only A s₀ x → _) ?_; (on_goal 2 => unfold x; clear x); (on_goal 1 => clear_value x; revert x; intro _ _))
    | (extract_lets -underBinder +onlyGivenNames x; unfold x; clear x)
    | (extract_lets -underBinder +onlyGivenNames x; revert x; intro _)
    | with_reducible refine State.setLeMem_only ?_ ?_
    | with_reducible refine Only.Fst.ite ?_ ?_
    | with_reducible refine Only.Fst.unpair (by assumption)
    | split
    | with_reducible refine Only.Fst.of ?_
    | with_reducible refine Only.Fst.pair ?_
    | with_reducible refine Only.Fst.elim (by assumption) ?_
    | (refine fun _ => ?_))

theorem State.sendAccess_only {A : Nat} {s₀ : State} {s : State} {id : Nat} {x : Access} {phys : Nat} {posted : Bool} (hS : Only A s₀ s) (hA : Covers 0x1004000000000800 A) :
    Only.OptFst A s₀ (State.sendAccess s id x phys posted) := by
  unfold State.sendAccess
  split
  · exact Only.OptFst.some (State.offer_only hS (Covers.trans (by decide) hA))
  · exact Only.OptFst.mapped (State.request_only hS (Covers.trans (by decide) hA))

theorem State.holdAccess_only {A : Nat} {s₀ : State} {s : State} {id : Nat} {w : Waiting} (hS : Only A s₀ s) (hA : Covers 0x18022000000000C0 A) :
    Only A s₀ (State.holdAccess s id w) := by
  unfold State.holdAccess
  repeat' (first
    | with_reducible exact hS
    | with_reducible assumption
    | (with_reducible refine Covers.testBit hA ?_; decide)
    | (with_reducible refine Covers.trans ?_ hA; decide)
    | (refine fun _ => ?_; intros)
    | with_reducible refine State.updTh_only ?_ ?_
    | with_reducible refine State.hold_only ?_ ?_)

theorem State.accessFails_only {A : Nat} {s₀ : State} {s : State} {id : Nat} {cause : Nat} {info : Nat} (hS : Only A s₀ s) (hA : Covers 0x188E20D0000868C0 A) :
    Only A s₀ (State.accessFails s id cause info) := by
  unfold State.accessFails
  repeat' (first
    | with_reducible exact hS
    | with_reducible assumption
    | (with_reducible refine Covers.testBit hA ?_; decide)
    | (with_reducible refine Covers.trans ?_ hA; decide)
    | (refine fun _ => ?_; intros)
    | with_reducible refine Only.ite ?_ ?_
    | with_reducible refine State.updTh_only ?_ ?_
    | with_reducible refine State.hold_only ?_ ?_
    | with_reducible refine State.takeTrap_only ?_ ?_
    | with_reducible refine State.stopNow_only ?_ ?_)

theorem State.accessEnds_only {A : Nat} {s₀ : State} {s : State} {id : Nat} {after : After} {got : List (Nat × Nat)} (hS : Only A s₀ s) (hA : Covers 0x180E2000000068C0 A) :
    Only A s₀ (State.accessEnds s id after got) := by
  unfold State.accessEnds
  repeat' (first
    | with_reducible exact hS
    | with_reducible assumption
    | (with_reducible refine Covers.testBit hA ?_; decide)
    | (with_reducible refine Covers.trans ?_ hA; decide)
    | (refine fun _ => ?_; intros)
    | (extract_lets -underBinder +onlyGivenNames x; refine (fun (hx : Only A s₀ x) => ?_ : Only A s₀ x → _) ?_; (on_goal 2 => unfold x; clear x); (on_goal 1 => clear_value x; revert x; intro _ _))
    | (extract_lets -underBinder +onlyGivenNames x; unfold x; clear x)
    | (extract_lets -underBinder +onlyGivenNames x; revert x; intro _)
    | with_reducible refine Only.ite ?_ ?_
    | with_reducible refine State.updTh_only ?_ ?_
    | with_reducible refine State.hold_only ?_ ?_
    | with_reducible refine State.stopNow_only ?_ ?_
    | with_reducible refine State.retire_only ?_ ?_)

theorem State.access_only {A : Nat} {s₀ : State} {s : State} {id : Nat} {after : After} {v0 : List Access} {v1 : List (Nat × Nat)} (hS : Only A s₀ s) (hA : Covers 0x188E20D0000868C0 A) :
    Only A s₀ (State.access s id after v0 v1) := by
  induction v0 generalizing s v1 with
  | nil =>
    unfold State.access
    repeat' (first
      | with_reducible exact hS
      | with_reducible assumption
      | (with_reducible refine Covers.testBit hA ?_; decide)
      | (with_reducible refine Covers.trans ?_ hA; decide)
      | (refine fun _ => ?_; intros)
      | (extract_lets -underBinder +onlyGivenNames x; refine (fun (hx : Only A s₀ x) => ?_ : Only A s₀ x → _) ?_; (on_goal 2 => unfold x; clear x); (on_goal 1 => clear_value x; revert x; intro _ _))
      | (extract_lets -underBinder +onlyGivenNames x; unfold x; clear x)
      | (extract_lets -underBinder +onlyGivenNames x; revert x; intro _)
      | with_reducible refine Only.ite ?_ ?_
      | with_reducible refine State.tagWait_only ?_ ?_
      | with_reducible refine State.localAccess_only ?_ ?_
      | with_reducible refine State.sendAccess_only ?_ ?_
      | with_reducible refine State.holdAccess_only ?_ ?_
      | with_reducible refine State.accessFails_only ?_ ?_
      | with_reducible refine State.accessEnds_only ?_ ?_
      | with_reducible refine Only.Fst.ite ?_ ?_
      | with_reducible refine Only.Fst.unpair (by assumption)
      | exact Only.OptFst.none
      | with_reducible refine Only.OptFst.some ?_
      | with_reducible refine Only.OptFst.ite ?_ ?_
      | split
      | with_reducible refine Only.Fst.of ?_
      | with_reducible refine Only.Fst.pair ?_
      | with_reducible refine Only.Fst.elim (by assumption) ?_
      | with_reducible refine Only.OptFst.elim (by assumption) ?_
      | (refine fun _ => ?_))
  | cons x l ih =>
    unfold State.access
    repeat' (first
      | with_reducible exact hS
      | with_reducible assumption
      | (with_reducible refine Covers.testBit hA ?_; decide)
      | (with_reducible refine Covers.trans ?_ hA; decide)
      | with_reducible refine ih ?_
      | (refine fun _ => ?_; intros)
      | (extract_lets -underBinder +onlyGivenNames x; refine (fun (hx : Only A s₀ x) => ?_ : Only A s₀ x → _) ?_; (on_goal 2 => unfold x; clear x); (on_goal 1 => clear_value x; revert x; intro _ _))
      | (extract_lets -underBinder +onlyGivenNames x; unfold x; clear x)
      | (extract_lets -underBinder +onlyGivenNames x; revert x; intro _)
      | with_reducible refine Only.ite ?_ ?_
      | with_reducible refine State.tagWait_only ?_ ?_
      | with_reducible refine State.localAccess_only ?_ ?_
      | with_reducible refine State.sendAccess_only ?_ ?_
      | with_reducible refine State.holdAccess_only ?_ ?_
      | with_reducible refine State.accessFails_only ?_ ?_
      | with_reducible refine State.accessEnds_only ?_ ?_
      | with_reducible refine Only.Fst.ite ?_ ?_
      | with_reducible refine Only.Fst.unpair (by assumption)
      | exact Only.OptFst.none
      | with_reducible refine Only.OptFst.some ?_
      | with_reducible refine Only.OptFst.ite ?_ ?_
      | split
      | with_reducible refine Only.Fst.of ?_
      | with_reducible refine Only.Fst.pair ?_
      | with_reducible refine Only.Fst.elim (by assumption) ?_
      | with_reducible refine Only.OptFst.elim (by assumption) ?_
      | (refine fun _ => ?_))

theorem State.retryThread_only {A : Nat} {s₀ : State} {s : State} {id : Nat} (hS : Only A s₀ s) (hA : Covers 0x188E20D0000868C0 A) :
    Only A s₀ (State.retryThread s id) := by
  unfold State.retryThread
  repeat' (first
    | with_reducible exact hS
    | with_reducible assumption
    | (with_reducible refine Covers.testBit hA ?_; decide)
    | (with_reducible refine Covers.trans ?_ hA; decide)
    | with_reducible refine Only.ite ?_ ?_
    | with_reducible refine State.hold_only ?_ ?_
    | with_reducible refine State.sendAccess_only ?_ ?_
    | with_reducible refine State.holdAccess_only ?_ ?_
    | with_reducible refine State.access_only ?_ ?_
    | exact Only.OptFst.none
    | with_reducible refine Only.OptFst.some ?_
    | with_reducible refine Only.OptFst.ite ?_ ?_
    | split
    | with_reducible refine Only.OptFst.elim (by assumption) ?_
    | (refine fun _ => ?_))

theorem State.retryStalled_only {A : Nat} {s₀ : State} {s : State} (hS : Only A s₀ s) (hA : Covers 0x188E20D0000868C0 A) :
    Only A s₀ (State.retryStalled s) := by
  unfold State.retryStalled
  repeat' (first
    | with_reducible exact hS
    | with_reducible assumption
    | (with_reducible refine Covers.testBit hA ?_; decide)
    | (with_reducible refine Covers.trans ?_ hA; decide)
    | (refine fun _ => ?_; intros)
    | with_reducible refine State.retryThread_only ?_ ?_
    | with_reducible refine Only.foldl _ ?_ ?_
    | with_reducible refine Only.Fst.ite ?_ ?_
    | with_reducible refine Only.Fst.unpair (by assumption)
    | with_reducible refine Only.Fst.foldl _ ?_ ?_
    | with_reducible refine Only.Fst.of ?_
    | with_reducible refine Only.Fst.pair ?_
    | with_reducible refine Only.Fst.elim (by assumption) ?_)

theorem State.lramChecked_only {A : Nat} {s₀ : State} {s : State} {c : Nat} {ecc : EccMap} {v0 : List Access} (hS : Only A s₀ s) (hA : Covers 0x1800000000004000 A) :
    Only.Fst A s₀ (State.lramChecked s c ecc v0) := by
  induction v0 generalizing s with
  | nil =>
    unfold State.lramChecked
    repeat' (first
      | with_reducible exact hS
      | with_reducible assumption
      | (with_reducible refine Covers.testBit hA ?_; decide)
      | (with_reducible refine Covers.trans ?_ hA; decide)
      | (refine fun _ => ?_; intros)
      | (extract_lets -underBinder +onlyGivenNames x; refine (fun (hx : Only A s₀ x) => ?_ : Only A s₀ x → _) ?_; (on_goal 2 => unfold x; clear x); (on_goal 1 => clear_value x; revert x; intro _ _))
      | (extract_lets -underBinder +onlyGivenNames x; unfold x; clear x)
      | (extract_lets -underBinder +onlyGivenNames x; revert x; intro _)
      | with_reducible refine Only.ite ?_ ?_
      | with_reducible refine State.lramCorrected_only ?_ ?_
      | with_reducible refine State.lramUncorrectable_only ?_ ?_
      | with_reducible refine Only.foldl _ ?_ ?_
      | with_reducible refine Only.Fst.ite ?_ ?_
      | with_reducible refine Only.Fst.unpair (by assumption)
      | with_reducible refine Only.Fst.foldl _ ?_ ?_
      | split
      | with_reducible refine Only.Fst.of ?_
      | with_reducible refine Only.Fst.pair ?_
      | with_reducible refine Only.Fst.elim (by assumption) ?_
      | (refine fun _ => ?_))
  | cons x l ih =>
    unfold State.lramChecked
    repeat' (first
      | with_reducible exact hS
      | with_reducible assumption
      | (with_reducible refine Covers.testBit hA ?_; decide)
      | (with_reducible refine Covers.trans ?_ hA; decide)
      | with_reducible refine ih ?_
      | (refine fun _ => ?_; intros)
      | (extract_lets -underBinder +onlyGivenNames x; refine (fun (hx : Only A s₀ x) => ?_ : Only A s₀ x → _) ?_; (on_goal 2 => unfold x; clear x); (on_goal 1 => clear_value x; revert x; intro _ _))
      | (extract_lets -underBinder +onlyGivenNames x; unfold x; clear x)
      | (extract_lets -underBinder +onlyGivenNames x; revert x; intro _)
      | with_reducible refine Only.ite ?_ ?_
      | with_reducible refine State.lramCorrected_only ?_ ?_
      | with_reducible refine State.lramUncorrectable_only ?_ ?_
      | with_reducible refine Only.foldl _ ?_ ?_
      | with_reducible refine Only.Fst.ite ?_ ?_
      | with_reducible refine Only.Fst.unpair (by assumption)
      | with_reducible refine Only.Fst.foldl _ ?_ ?_
      | split
      | with_reducible refine Only.Fst.of ?_
      | with_reducible refine Only.Fst.pair ?_
      | with_reducible refine Only.Fst.elim (by assumption) ?_
      | (refine fun _ => ?_))

theorem State.accesses_only {A : Nat} {s₀ : State} {s : State} {u : Issue} {after : After} {xs : List Access} (hS : Only A s₀ s) (hA : Covers 0x188E20D0000868C0 A) :
    Only.OfRes A s₀ (State.accesses s u after xs) := by
  unfold State.accesses
  repeat' (first
    | with_reducible exact hS
    | with_reducible assumption
    | (with_reducible refine Covers.testBit hA ?_; decide)
    | (with_reducible refine Covers.trans ?_ hA; decide)
    | (extract_lets -underBinder +onlyGivenNames x; refine (fun (hx : Only A s₀ x) => ?_ : Only A s₀ x → _) ?_; (on_goal 2 => unfold x; clear x); (on_goal 1 => clear_value x; revert x; intro _ _))
    | (extract_lets -underBinder +onlyGivenNames x; unfold x; clear x)
    | (extract_lets -underBinder +onlyGivenNames x; revert x; intro _)
    | with_reducible refine State.takeTrap_only ?_ ?_
    | with_reducible refine State.access_only ?_ ?_
    | with_reducible refine State.lramChecked_only ?_ ?_
    | with_reducible refine Only.Fst.ite ?_ ?_
    | with_reducible refine Only.Fst.unpair (by assumption)
    | exact Only.OfRes.trap
    | exact Only.OfRes.held
    | with_reducible refine Only.OfRes.acted ?_
    | with_reducible refine Only.OfRes.ite ?_ ?_
    | split
    | with_reducible refine Only.Fst.of ?_
    | with_reducible refine Only.Fst.pair ?_
    | with_reducible refine Only.Fst.elim (by assumption) ?_
    | with_reducible refine Only.OfRes.elim (by assumption) ?_
    | (refine fun _ => ?_))

theorem State.accessDone_only {A : Nat} {s₀ : State} {s : State} {id : Nat} {error : Bool} {data : List (BitVec 8)} (hS : Only A s₀ s) (hA : Covers 0x188E20D0000868C0 A) :
    Only A s₀ (State.accessDone s id error data) := by
  unfold State.accessDone
  repeat' (first
    | with_reducible exact hS
    | with_reducible assumption
    | (with_reducible refine Covers.testBit hA ?_; decide)
    | (with_reducible refine Covers.trans ?_ hA; decide)
    | with_reducible refine Only.ite ?_ ?_
    | with_reducible refine State.hold_only ?_ ?_
    | with_reducible refine State.stopNow_only ?_ ?_
    | with_reducible refine State.accessFails_only ?_ ?_
    | with_reducible refine State.access_only ?_ ?_
    | split
    | (refine fun _ => ?_))

end Sys2Proof.Machine
end

