-- ==== Sys2Proof/Laws/OnlyCoreArith.lean ====
section
/-! SUPPORT. What each operation of Machine/CoreArith.lean may change. -/

set_option linter.unusedTactic false
set_option linter.unreachableTactic false
set_option linter.unusedVariables false

namespace Sys2Proof.Machine

theorem State.alu_only {A : Nat} {s₀ : State} {s : State} {u : Issue} {func : Nat} {rd : Fin 32} {ra : Fin 32} {rb : Fin 32} {f : Nat → Nat → Nat} (hS : Only A s₀ s) (hA : Covers 0x188E20D0000868C0 A) :
    Only A s₀ (State.alu s u func rd ra rb f) := by
  unfold State.alu
  repeat' (first
    | with_reducible exact hS
    | with_reducible assumption
    | (with_reducible refine Covers.testBit hA ?_; decide)
    | (with_reducible refine Covers.trans ?_ hA; decide)
    | (refine fun _ => ?_; intros)
    | (extract_lets -underBinder +onlyGivenNames x; refine (fun (hx : Only A s₀ x) => ?_ : Only A s₀ x → _) ?_; (on_goal 2 => unfold x; clear x); (on_goal 1 => clear_value x; revert x; intro _ _))
    | (extract_lets -underBinder +onlyGivenNames x; unfold x; clear x)
    | (extract_lets -underBinder +onlyGivenNames x; revert x; intro _)
    | with_reducible refine State.issue_only ?_ ?_ ?_
    | with_reducible refine State.plain_only ?_ ?_
    | exact Only.OfRes.trap
    | exact Only.OfRes.held
    | with_reducible refine Only.OfRes.acted ?_
    | with_reducible refine Only.OfRes.ite ?_ ?_
    | with_reducible refine Only.OfRes.elim (by assumption) ?_)

theorem State.shiftImm_only {A : Nat} {s₀ : State} {s : State} {u : Issue} {func : Nat} {rd : Fin 32} {ra : Fin 32} {sh : Fin 32} {f : Nat → Nat → Nat} (hS : Only A s₀ s) (hA : Covers 0x188E20D0000868C0 A) :
    Only A s₀ (State.shiftImm s u func rd ra sh f) := by
  unfold State.shiftImm
  repeat' (first
    | with_reducible exact hS
    | with_reducible assumption
    | (with_reducible refine Covers.testBit hA ?_; decide)
    | (with_reducible refine Covers.trans ?_ hA; decide)
    | (refine fun _ => ?_; intros)
    | with_reducible refine State.issue_only ?_ ?_ ?_
    | with_reducible refine State.plain_only ?_ ?_
    | exact Only.OfRes.trap
    | exact Only.OfRes.held
    | with_reducible refine Only.OfRes.acted ?_
    | with_reducible refine Only.OfRes.ite ?_ ?_
    | with_reducible refine Only.OfRes.elim (by assumption) ?_)

theorem State.immOp_only {A : Nat} {s₀ : State} {s : State} {u : Issue} {op : Nat} {rd : Fin 32} {ra : Fin 32} {imm : BitVec 16} {f : Nat → Nat → Nat} (hS : Only A s₀ s) (hA : Covers 0x188E20D0000868C0 A) :
    Only A s₀ (State.immOp s u op rd ra imm f) := by
  unfold State.immOp
  repeat' (first
    | with_reducible exact hS
    | with_reducible assumption
    | (with_reducible refine Covers.testBit hA ?_; decide)
    | (with_reducible refine Covers.trans ?_ hA; decide)
    | (refine fun _ => ?_; intros)
    | with_reducible refine State.issue_only ?_ ?_ ?_
    | with_reducible refine State.plain_only ?_ ?_
    | exact Only.OfRes.trap
    | exact Only.OfRes.held
    | with_reducible refine Only.OfRes.acted ?_
    | with_reducible refine Only.OfRes.ite ?_ ?_
    | with_reducible refine Only.OfRes.elim (by assumption) ?_)

theorem State.upperOp_only {A : Nat} {s₀ : State} {s : State} {u : Issue} {op : Nat} {rd : Fin 32} {imm : BitVec 16} {f : Nat → Nat → Nat} (hS : Only A s₀ s) (hA : Covers 0x188E20D0000868C0 A) :
    Only A s₀ (State.upperOp s u op rd imm f) := by
  unfold State.upperOp
  repeat' (first
    | with_reducible exact hS
    | with_reducible assumption
    | (with_reducible refine Covers.testBit hA ?_; decide)
    | (with_reducible refine Covers.trans ?_ hA; decide)
    | (refine fun _ => ?_; intros)
    | with_reducible refine State.issue_only ?_ ?_ ?_
    | with_reducible refine State.plain_only ?_ ?_
    | exact Only.OfRes.trap
    | exact Only.OfRes.held
    | with_reducible refine Only.OfRes.acted ?_
    | with_reducible refine Only.OfRes.ite ?_ ?_
    | with_reducible refine Only.OfRes.elim (by assumption) ?_)

theorem State.mulOp_only {A : Nat} {s₀ : State} {s : State} {u : Issue} {func : Nat} {rd : Fin 32} {ra : Fin 32} {rb : Fin 32} {f : Nat → Nat → Nat} (hS : Only A s₀ s) (hA : Covers 0x188E20D0000868C0 A) :
    Only A s₀ (State.mulOp s u func rd ra rb f) := by
  unfold State.mulOp
  repeat' (first
    | with_reducible exact hS
    | with_reducible assumption
    | (with_reducible refine Covers.testBit hA ?_; decide)
    | (with_reducible refine Covers.trans ?_ hA; decide)
    | (refine fun _ => ?_; intros)
    | (extract_lets -underBinder +onlyGivenNames x; refine (fun (hx : Only A s₀ x) => ?_ : Only A s₀ x → _) ?_; (on_goal 2 => unfold x; clear x); (on_goal 1 => clear_value x; revert x; intro _ _))
    | (extract_lets -underBinder +onlyGivenNames x; unfold x; clear x)
    | (extract_lets -underBinder +onlyGivenNames x; revert x; intro _)
    | with_reducible refine State.issue_only ?_ ?_ ?_
    | with_reducible refine State.plain_only ?_ ?_
    | exact Only.OfRes.trap
    | exact Only.OfRes.held
    | with_reducible refine Only.OfRes.acted ?_
    | with_reducible refine Only.OfRes.ite ?_ ?_
    | with_reducible refine Only.OfRes.elim (by assumption) ?_)

theorem State.divOp_only {A : Nat} {s₀ : State} {s : State} {u : Issue} {func : Nat} {rd : Fin 32} {ra : Fin 32} {rb : Fin 32} {f : Nat → Nat → Nat} (hS : Only A s₀ s) (hA : Covers 0x188E20D0000868C0 A) :
    Only A s₀ (State.divOp s u func rd ra rb f) := by
  unfold State.divOp
  repeat' (first
    | with_reducible exact hS
    | with_reducible assumption
    | (with_reducible refine Covers.testBit hA ?_; decide)
    | (with_reducible refine Covers.trans ?_ hA; decide)
    | (refine fun _ => ?_; intros)
    | (extract_lets -underBinder +onlyGivenNames x; refine (fun (hx : Only A s₀ x) => ?_ : Only A s₀ x → _) ?_; (on_goal 2 => unfold x; clear x); (on_goal 1 => clear_value x; revert x; intro _ _))
    | (extract_lets -underBinder +onlyGivenNames x; unfold x; clear x)
    | (extract_lets -underBinder +onlyGivenNames x; revert x; intro _)
    | with_reducible refine Only.ite ?_ ?_
    | with_reducible refine State.updTh_only ?_ ?_
    | with_reducible refine State.hold_only ?_ ?_
    | with_reducible refine State.issue_only ?_ ?_ ?_
    | exact Only.OfRes.trap
    | exact Only.OfRes.held
    | with_reducible refine Only.OfRes.acted ?_
    | with_reducible refine Only.OfRes.ite ?_ ?_
    | with_reducible refine Only.OfRes.elim (by assumption) ?_)

theorem State.dividerDone_only {A : Nat} {s₀ : State} {s : State} {id : Nat} (hS : Only A s₀ s) (hA : Covers 0x180E2000000068C0 A) :
    Only A s₀ (State.dividerDone s id) := by
  unfold State.dividerDone
  repeat' (first
    | with_reducible exact hS
    | with_reducible assumption
    | (with_reducible refine Covers.testBit hA ?_; decide)
    | (with_reducible refine Covers.trans ?_ hA; decide)
    | (refine fun _ => ?_; intros)
    | with_reducible refine Only.ite ?_ ?_
    | with_reducible refine State.hold_only ?_ ?_
    | with_reducible refine State.stopNow_only ?_ ?_
    | with_reducible refine State.retire_only ?_ ?_
    | split
    | (refine fun _ => ?_))

end Sys2Proof.Machine
end

