-- ==== Sys2Proof/Laws/ExecCoreArith.lean ====
section
/-! SUPPORT. What each command of Machine/CoreArith.lean may change. -/

set_option linter.unusedTactic false
set_option linter.unreachableTactic false
set_option linter.unusedVariables false

namespace Sys2Proof.Machine

theorem execAdd_only {A : Nat} {u : Issue} {rd : Fin 32} {ra : Fin 32} {rb : Fin 32} {s : State} {t : State} (h : execAdd u rd ra rb s = .next t) (hA : Covers 0x188E20D0000868C0 A) :
    Only A s t := by
  unfold execAdd at h
  injection h with h
  subst h
  have hS : Only A s s := Only.rfl
  repeat' (first
    | with_reducible exact hS
    | with_reducible assumption
    | (with_reducible refine Covers.testBit hA ?_; decide)
    | (with_reducible refine Covers.trans ?_ hA; decide)
    | (refine fun _ => ?_; intros)
    | with_reducible refine State.alu_only ?_ ?_)

theorem execSub_only {A : Nat} {u : Issue} {rd : Fin 32} {ra : Fin 32} {rb : Fin 32} {s : State} {t : State} (h : execSub u rd ra rb s = .next t) (hA : Covers 0x188E20D0000868C0 A) :
    Only A s t := by
  unfold execSub at h
  injection h with h
  subst h
  have hS : Only A s s := Only.rfl
  repeat' (first
    | with_reducible exact hS
    | with_reducible assumption
    | (with_reducible refine Covers.testBit hA ?_; decide)
    | (with_reducible refine Covers.trans ?_ hA; decide)
    | (refine fun _ => ?_; intros)
    | with_reducible refine State.alu_only ?_ ?_)

theorem execAnd_only {A : Nat} {u : Issue} {rd : Fin 32} {ra : Fin 32} {rb : Fin 32} {s : State} {t : State} (h : execAnd u rd ra rb s = .next t) (hA : Covers 0x188E20D0000868C0 A) :
    Only A s t := by
  unfold execAnd at h
  injection h with h
  subst h
  have hS : Only A s s := Only.rfl
  repeat' (first
    | with_reducible exact hS
    | with_reducible assumption
    | (with_reducible refine Covers.testBit hA ?_; decide)
    | (with_reducible refine Covers.trans ?_ hA; decide)
    | (refine fun _ => ?_; intros)
    | with_reducible refine State.alu_only ?_ ?_)

theorem execOr_only {A : Nat} {u : Issue} {rd : Fin 32} {ra : Fin 32} {rb : Fin 32} {s : State} {t : State} (h : execOr u rd ra rb s = .next t) (hA : Covers 0x188E20D0000868C0 A) :
    Only A s t := by
  unfold execOr at h
  injection h with h
  subst h
  have hS : Only A s s := Only.rfl
  repeat' (first
    | with_reducible exact hS
    | with_reducible assumption
    | (with_reducible refine Covers.testBit hA ?_; decide)
    | (with_reducible refine Covers.trans ?_ hA; decide)
    | (refine fun _ => ?_; intros)
    | with_reducible refine State.alu_only ?_ ?_)

theorem execXor_only {A : Nat} {u : Issue} {rd : Fin 32} {ra : Fin 32} {rb : Fin 32} {s : State} {t : State} (h : execXor u rd ra rb s = .next t) (hA : Covers 0x188E20D0000868C0 A) :
    Only A s t := by
  unfold execXor at h
  injection h with h
  subst h
  have hS : Only A s s := Only.rfl
  repeat' (first
    | with_reducible exact hS
    | with_reducible assumption
    | (with_reducible refine Covers.testBit hA ?_; decide)
    | (with_reducible refine Covers.trans ?_ hA; decide)
    | (refine fun _ => ?_; intros)
    | with_reducible refine State.alu_only ?_ ?_)

theorem execSll_only {A : Nat} {u : Issue} {rd : Fin 32} {ra : Fin 32} {rb : Fin 32} {s : State} {t : State} (h : execSll u rd ra rb s = .next t) (hA : Covers 0x188E20D0000868C0 A) :
    Only A s t := by
  unfold execSll at h
  injection h with h
  subst h
  have hS : Only A s s := Only.rfl
  repeat' (first
    | with_reducible exact hS
    | with_reducible assumption
    | (with_reducible refine Covers.testBit hA ?_; decide)
    | (with_reducible refine Covers.trans ?_ hA; decide)
    | (refine fun _ => ?_; intros)
    | with_reducible refine State.alu_only ?_ ?_)

theorem execSrl_only {A : Nat} {u : Issue} {rd : Fin 32} {ra : Fin 32} {rb : Fin 32} {s : State} {t : State} (h : execSrl u rd ra rb s = .next t) (hA : Covers 0x188E20D0000868C0 A) :
    Only A s t := by
  unfold execSrl at h
  injection h with h
  subst h
  have hS : Only A s s := Only.rfl
  repeat' (first
    | with_reducible exact hS
    | with_reducible assumption
    | (with_reducible refine Covers.testBit hA ?_; decide)
    | (with_reducible refine Covers.trans ?_ hA; decide)
    | (refine fun _ => ?_; intros)
    | with_reducible refine State.alu_only ?_ ?_)

theorem execSra_only {A : Nat} {u : Issue} {rd : Fin 32} {ra : Fin 32} {rb : Fin 32} {s : State} {t : State} (h : execSra u rd ra rb s = .next t) (hA : Covers 0x188E20D0000868C0 A) :
    Only A s t := by
  unfold execSra at h
  injection h with h
  subst h
  have hS : Only A s s := Only.rfl
  repeat' (first
    | with_reducible exact hS
    | with_reducible assumption
    | (with_reducible refine Covers.testBit hA ?_; decide)
    | (with_reducible refine Covers.trans ?_ hA; decide)
    | (refine fun _ => ?_; intros)
    | with_reducible refine State.alu_only ?_ ?_)

theorem execSlt_only {A : Nat} {u : Issue} {rd : Fin 32} {ra : Fin 32} {rb : Fin 32} {s : State} {t : State} (h : execSlt u rd ra rb s = .next t) (hA : Covers 0x188E20D0000868C0 A) :
    Only A s t := by
  unfold execSlt at h
  injection h with h
  subst h
  have hS : Only A s s := Only.rfl
  repeat' (first
    | with_reducible exact hS
    | with_reducible assumption
    | (with_reducible refine Covers.testBit hA ?_; decide)
    | (with_reducible refine Covers.trans ?_ hA; decide)
    | (refine fun _ => ?_; intros)
    | with_reducible refine State.alu_only ?_ ?_)

theorem execSltu_only {A : Nat} {u : Issue} {rd : Fin 32} {ra : Fin 32} {rb : Fin 32} {s : State} {t : State} (h : execSltu u rd ra rb s = .next t) (hA : Covers 0x188E20D0000868C0 A) :
    Only A s t := by
  unfold execSltu at h
  injection h with h
  subst h
  have hS : Only A s s := Only.rfl
  repeat' (first
    | with_reducible exact hS
    | with_reducible assumption
    | (with_reducible refine Covers.testBit hA ?_; decide)
    | (with_reducible refine Covers.trans ?_ hA; decide)
    | (refine fun _ => ?_; intros)
    | with_reducible refine State.alu_only ?_ ?_)

theorem execMin_only {A : Nat} {u : Issue} {rd : Fin 32} {ra : Fin 32} {rb : Fin 32} {s : State} {t : State} (h : execMin u rd ra rb s = .next t) (hA : Covers 0x188E20D0000868C0 A) :
    Only A s t := by
  unfold execMin at h
  injection h with h
  subst h
  have hS : Only A s s := Only.rfl
  repeat' (first
    | with_reducible exact hS
    | with_reducible assumption
    | (with_reducible refine Covers.testBit hA ?_; decide)
    | (with_reducible refine Covers.trans ?_ hA; decide)
    | (refine fun _ => ?_; intros)
    | with_reducible refine Only.ite ?_ ?_
    | with_reducible refine State.alu_only ?_ ?_)

theorem execMax_only {A : Nat} {u : Issue} {rd : Fin 32} {ra : Fin 32} {rb : Fin 32} {s : State} {t : State} (h : execMax u rd ra rb s = .next t) (hA : Covers 0x188E20D0000868C0 A) :
    Only A s t := by
  unfold execMax at h
  injection h with h
  subst h
  have hS : Only A s s := Only.rfl
  repeat' (first
    | with_reducible exact hS
    | with_reducible assumption
    | (with_reducible refine Covers.testBit hA ?_; decide)
    | (with_reducible refine Covers.trans ?_ hA; decide)
    | (refine fun _ => ?_; intros)
    | with_reducible refine Only.ite ?_ ?_
    | with_reducible refine State.alu_only ?_ ?_)

theorem execMinu_only {A : Nat} {u : Issue} {rd : Fin 32} {ra : Fin 32} {rb : Fin 32} {s : State} {t : State} (h : execMinu u rd ra rb s = .next t) (hA : Covers 0x188E20D0000868C0 A) :
    Only A s t := by
  unfold execMinu at h
  injection h with h
  subst h
  have hS : Only A s s := Only.rfl
  repeat' (first
    | with_reducible exact hS
    | with_reducible assumption
    | (with_reducible refine Covers.testBit hA ?_; decide)
    | (with_reducible refine Covers.trans ?_ hA; decide)
    | (refine fun _ => ?_; intros)
    | with_reducible refine State.alu_only ?_ ?_)

theorem execMaxu_only {A : Nat} {u : Issue} {rd : Fin 32} {ra : Fin 32} {rb : Fin 32} {s : State} {t : State} (h : execMaxu u rd ra rb s = .next t) (hA : Covers 0x188E20D0000868C0 A) :
    Only A s t := by
  unfold execMaxu at h
  injection h with h
  subst h
  have hS : Only A s s := Only.rfl
  repeat' (first
    | with_reducible exact hS
    | with_reducible assumption
    | (with_reducible refine Covers.testBit hA ?_; decide)
    | (with_reducible refine Covers.trans ?_ hA; decide)
    | (refine fun _ => ?_; intros)
    | with_reducible refine State.alu_only ?_ ?_)

theorem execAndn_only {A : Nat} {u : Issue} {rd : Fin 32} {ra : Fin 32} {rb : Fin 32} {s : State} {t : State} (h : execAndn u rd ra rb s = .next t) (hA : Covers 0x188E20D0000868C0 A) :
    Only A s t := by
  unfold execAndn at h
  injection h with h
  subst h
  have hS : Only A s s := Only.rfl
  repeat' (first
    | with_reducible exact hS
    | with_reducible assumption
    | (with_reducible refine Covers.testBit hA ?_; decide)
    | (with_reducible refine Covers.trans ?_ hA; decide)
    | (refine fun _ => ?_; intros)
    | with_reducible refine State.alu_only ?_ ?_)

theorem execRotr_only {A : Nat} {u : Issue} {rd : Fin 32} {ra : Fin 32} {rb : Fin 32} {s : State} {t : State} (h : execRotr u rd ra rb s = .next t) (hA : Covers 0x188E20D0000868C0 A) :
    Only A s t := by
  unfold execRotr at h
  injection h with h
  subst h
  have hS : Only A s s := Only.rfl
  repeat' (first
    | with_reducible exact hS
    | with_reducible assumption
    | (with_reducible refine Covers.testBit hA ?_; decide)
    | (with_reducible refine Covers.trans ?_ hA; decide)
    | (refine fun _ => ?_; intros)
    | with_reducible refine State.alu_only ?_ ?_)

theorem execClz_only {A : Nat} {u : Issue} {rd : Fin 32} {ra : Fin 32} {s : State} {t : State} (h : execClz u rd ra s = .next t) (hA : Covers 0x188E20D0000868C0 A) :
    Only A s t := by
  unfold execClz at h
  injection h with h
  subst h
  have hS : Only A s s := Only.rfl
  repeat' (first
    | with_reducible exact hS
    | with_reducible assumption
    | (with_reducible refine Covers.testBit hA ?_; decide)
    | (with_reducible refine Covers.trans ?_ hA; decide)
    | (refine fun _ => ?_; intros)
    | with_reducible refine State.alu_only ?_ ?_)

theorem execCtz_only {A : Nat} {u : Issue} {rd : Fin 32} {ra : Fin 32} {s : State} {t : State} (h : execCtz u rd ra s = .next t) (hA : Covers 0x188E20D0000868C0 A) :
    Only A s t := by
  unfold execCtz at h
  injection h with h
  subst h
  have hS : Only A s s := Only.rfl
  repeat' (first
    | with_reducible exact hS
    | with_reducible assumption
    | (with_reducible refine Covers.testBit hA ?_; decide)
    | (with_reducible refine Covers.trans ?_ hA; decide)
    | (refine fun _ => ?_; intros)
    | with_reducible refine State.alu_only ?_ ?_)

theorem execPopc_only {A : Nat} {u : Issue} {rd : Fin 32} {ra : Fin 32} {s : State} {t : State} (h : execPopc u rd ra s = .next t) (hA : Covers 0x188E20D0000868C0 A) :
    Only A s t := by
  unfold execPopc at h
  injection h with h
  subst h
  have hS : Only A s s := Only.rfl
  repeat' (first
    | with_reducible exact hS
    | with_reducible assumption
    | (with_reducible refine Covers.testBit hA ?_; decide)
    | (with_reducible refine Covers.trans ?_ hA; decide)
    | (refine fun _ => ?_; intros)
    | with_reducible refine State.alu_only ?_ ?_)

theorem execBswap_only {A : Nat} {u : Issue} {rd : Fin 32} {ra : Fin 32} {s : State} {t : State} (h : execBswap u rd ra s = .next t) (hA : Covers 0x188E20D0000868C0 A) :
    Only A s t := by
  unfold execBswap at h
  injection h with h
  subst h
  have hS : Only A s s := Only.rfl
  repeat' (first
    | with_reducible exact hS
    | with_reducible assumption
    | (with_reducible refine Covers.testBit hA ?_; decide)
    | (with_reducible refine Covers.trans ?_ hA; decide)
    | (refine fun _ => ?_; intros)
    | with_reducible refine State.alu_only ?_ ?_)

theorem execSextb_only {A : Nat} {u : Issue} {rd : Fin 32} {ra : Fin 32} {s : State} {t : State} (h : execSextb u rd ra s = .next t) (hA : Covers 0x188E20D0000868C0 A) :
    Only A s t := by
  unfold execSextb at h
  injection h with h
  subst h
  have hS : Only A s s := Only.rfl
  repeat' (first
    | with_reducible exact hS
    | with_reducible assumption
    | (with_reducible refine Covers.testBit hA ?_; decide)
    | (with_reducible refine Covers.trans ?_ hA; decide)
    | (refine fun _ => ?_; intros)
    | with_reducible refine State.alu_only ?_ ?_)

theorem execSexth_only {A : Nat} {u : Issue} {rd : Fin 32} {ra : Fin 32} {s : State} {t : State} (h : execSexth u rd ra s = .next t) (hA : Covers 0x188E20D0000868C0 A) :
    Only A s t := by
  unfold execSexth at h
  injection h with h
  subst h
  have hS : Only A s s := Only.rfl
  repeat' (first
    | with_reducible exact hS
    | with_reducible assumption
    | (with_reducible refine Covers.testBit hA ?_; decide)
    | (with_reducible refine Covers.trans ?_ hA; decide)
    | (refine fun _ => ?_; intros)
    | with_reducible refine State.alu_only ?_ ?_)

theorem execSlli_only {A : Nat} {u : Issue} {rd : Fin 32} {ra : Fin 32} {sh : Fin 32} {s : State} {t : State} (h : execSlli u rd ra sh s = .next t) (hA : Covers 0x188E20D0000868C0 A) :
    Only A s t := by
  unfold execSlli at h
  injection h with h
  subst h
  have hS : Only A s s := Only.rfl
  repeat' (first
    | with_reducible exact hS
    | with_reducible assumption
    | (with_reducible refine Covers.testBit hA ?_; decide)
    | (with_reducible refine Covers.trans ?_ hA; decide)
    | (refine fun _ => ?_; intros)
    | with_reducible refine State.shiftImm_only ?_ ?_)

theorem execSrli_only {A : Nat} {u : Issue} {rd : Fin 32} {ra : Fin 32} {sh : Fin 32} {s : State} {t : State} (h : execSrli u rd ra sh s = .next t) (hA : Covers 0x188E20D0000868C0 A) :
    Only A s t := by
  unfold execSrli at h
  injection h with h
  subst h
  have hS : Only A s s := Only.rfl
  repeat' (first
    | with_reducible exact hS
    | with_reducible assumption
    | (with_reducible refine Covers.testBit hA ?_; decide)
    | (with_reducible refine Covers.trans ?_ hA; decide)
    | (refine fun _ => ?_; intros)
    | with_reducible refine State.shiftImm_only ?_ ?_)

theorem execSrai_only {A : Nat} {u : Issue} {rd : Fin 32} {ra : Fin 32} {sh : Fin 32} {s : State} {t : State} (h : execSrai u rd ra sh s = .next t) (hA : Covers 0x188E20D0000868C0 A) :
    Only A s t := by
  unfold execSrai at h
  injection h with h
  subst h
  have hS : Only A s s := Only.rfl
  repeat' (first
    | with_reducible exact hS
    | with_reducible assumption
    | (with_reducible refine Covers.testBit hA ?_; decide)
    | (with_reducible refine Covers.trans ?_ hA; decide)
    | (refine fun _ => ?_; intros)
    | with_reducible refine State.shiftImm_only ?_ ?_)

theorem execRotri_only {A : Nat} {u : Issue} {rd : Fin 32} {ra : Fin 32} {sh : Fin 32} {s : State} {t : State} (h : execRotri u rd ra sh s = .next t) (hA : Covers 0x188E20D0000868C0 A) :
    Only A s t := by
  unfold execRotri at h
  injection h with h
  subst h
  have hS : Only A s s := Only.rfl
  repeat' (first
    | with_reducible exact hS
    | with_reducible assumption
    | (with_reducible refine Covers.testBit hA ?_; decide)
    | (with_reducible refine Covers.trans ?_ hA; decide)
    | (refine fun _ => ?_; intros)
    | with_reducible refine State.shiftImm_only ?_ ?_)

theorem execAddi_only {A : Nat} {u : Issue} {rd : Fin 32} {ra : Fin 32} {imm : BitVec 16} {s : State} {t : State} (h : execAddi u rd ra imm s = .next t) (hA : Covers 0x188E20D0000868C0 A) :
    Only A s t := by
  unfold execAddi at h
  injection h with h
  subst h
  have hS : Only A s s := Only.rfl
  repeat' (first
    | with_reducible exact hS
    | with_reducible assumption
    | (with_reducible refine Covers.testBit hA ?_; decide)
    | (with_reducible refine Covers.trans ?_ hA; decide)
    | (refine fun _ => ?_; intros)
    | with_reducible refine State.immOp_only ?_ ?_)

theorem execAndi_only {A : Nat} {u : Issue} {rd : Fin 32} {ra : Fin 32} {imm : BitVec 16} {s : State} {t : State} (h : execAndi u rd ra imm s = .next t) (hA : Covers 0x188E20D0000868C0 A) :
    Only A s t := by
  unfold execAndi at h
  injection h with h
  subst h
  have hS : Only A s s := Only.rfl
  repeat' (first
    | with_reducible exact hS
    | with_reducible assumption
    | (with_reducible refine Covers.testBit hA ?_; decide)
    | (with_reducible refine Covers.trans ?_ hA; decide)
    | (refine fun _ => ?_; intros)
    | with_reducible refine State.immOp_only ?_ ?_)

theorem execOri_only {A : Nat} {u : Issue} {rd : Fin 32} {ra : Fin 32} {imm : BitVec 16} {s : State} {t : State} (h : execOri u rd ra imm s = .next t) (hA : Covers 0x188E20D0000868C0 A) :
    Only A s t := by
  unfold execOri at h
  injection h with h
  subst h
  have hS : Only A s s := Only.rfl
  repeat' (first
    | with_reducible exact hS
    | with_reducible assumption
    | (with_reducible refine Covers.testBit hA ?_; decide)
    | (with_reducible refine Covers.trans ?_ hA; decide)
    | (refine fun _ => ?_; intros)
    | with_reducible refine State.immOp_only ?_ ?_)

theorem execXori_only {A : Nat} {u : Issue} {rd : Fin 32} {ra : Fin 32} {imm : BitVec 16} {s : State} {t : State} (h : execXori u rd ra imm s = .next t) (hA : Covers 0x188E20D0000868C0 A) :
    Only A s t := by
  unfold execXori at h
  injection h with h
  subst h
  have hS : Only A s s := Only.rfl
  repeat' (first
    | with_reducible exact hS
    | with_reducible assumption
    | (with_reducible refine Covers.testBit hA ?_; decide)
    | (with_reducible refine Covers.trans ?_ hA; decide)
    | (refine fun _ => ?_; intros)
    | with_reducible refine State.immOp_only ?_ ?_)

theorem execSlti_only {A : Nat} {u : Issue} {rd : Fin 32} {ra : Fin 32} {imm : BitVec 16} {s : State} {t : State} (h : execSlti u rd ra imm s = .next t) (hA : Covers 0x188E20D0000868C0 A) :
    Only A s t := by
  unfold execSlti at h
  injection h with h
  subst h
  have hS : Only A s s := Only.rfl
  repeat' (first
    | with_reducible exact hS
    | with_reducible assumption
    | (with_reducible refine Covers.testBit hA ?_; decide)
    | (with_reducible refine Covers.trans ?_ hA; decide)
    | (refine fun _ => ?_; intros)
    | with_reducible refine State.immOp_only ?_ ?_)

theorem execSltiu_only {A : Nat} {u : Issue} {rd : Fin 32} {ra : Fin 32} {imm : BitVec 16} {s : State} {t : State} (h : execSltiu u rd ra imm s = .next t) (hA : Covers 0x188E20D0000868C0 A) :
    Only A s t := by
  unfold execSltiu at h
  injection h with h
  subst h
  have hS : Only A s s := Only.rfl
  repeat' (first
    | with_reducible exact hS
    | with_reducible assumption
    | (with_reducible refine Covers.testBit hA ?_; decide)
    | (with_reducible refine Covers.trans ?_ hA; decide)
    | (refine fun _ => ?_; intros)
    | with_reducible refine State.immOp_only ?_ ?_)

theorem execLui_only {A : Nat} {u : Issue} {rd : Fin 32} {imm : BitVec 16} {s : State} {t : State} (h : execLui u rd imm s = .next t) (hA : Covers 0x188E20D0000868C0 A) :
    Only A s t := by
  unfold execLui at h
  injection h with h
  subst h
  have hS : Only A s s := Only.rfl
  repeat' (first
    | with_reducible exact hS
    | with_reducible assumption
    | (with_reducible refine Covers.testBit hA ?_; decide)
    | (with_reducible refine Covers.trans ?_ hA; decide)
    | (refine fun _ => ?_; intros)
    | with_reducible refine State.upperOp_only ?_ ?_)

theorem execAddpc_only {A : Nat} {u : Issue} {rd : Fin 32} {imm : BitVec 16} {s : State} {t : State} (h : execAddpc u rd imm s = .next t) (hA : Covers 0x188E20D0000868C0 A) :
    Only A s t := by
  unfold execAddpc at h
  injection h with h
  subst h
  have hS : Only A s s := Only.rfl
  repeat' (first
    | with_reducible exact hS
    | with_reducible assumption
    | (with_reducible refine Covers.testBit hA ?_; decide)
    | (with_reducible refine Covers.trans ?_ hA; decide)
    | (refine fun _ => ?_; intros)
    | with_reducible refine State.upperOp_only ?_ ?_)

theorem execMul_only {A : Nat} {u : Issue} {rd : Fin 32} {ra : Fin 32} {rb : Fin 32} {s : State} {t : State} (h : execMul u rd ra rb s = .next t) (hA : Covers 0x188E20D0000868C0 A) :
    Only A s t := by
  unfold execMul at h
  injection h with h
  subst h
  have hS : Only A s s := Only.rfl
  repeat' (first
    | with_reducible exact hS
    | with_reducible assumption
    | (with_reducible refine Covers.testBit hA ?_; decide)
    | (with_reducible refine Covers.trans ?_ hA; decide)
    | (refine fun _ => ?_; intros)
    | with_reducible refine State.mulOp_only ?_ ?_)

theorem execMulhs_only {A : Nat} {u : Issue} {rd : Fin 32} {ra : Fin 32} {rb : Fin 32} {s : State} {t : State} (h : execMulhs u rd ra rb s = .next t) (hA : Covers 0x188E20D0000868C0 A) :
    Only A s t := by
  unfold execMulhs at h
  injection h with h
  subst h
  have hS : Only A s s := Only.rfl
  repeat' (first
    | with_reducible exact hS
    | with_reducible assumption
    | (with_reducible refine Covers.testBit hA ?_; decide)
    | (with_reducible refine Covers.trans ?_ hA; decide)
    | (refine fun _ => ?_; intros)
    | with_reducible refine State.mulOp_only ?_ ?_)

theorem execMulhu_only {A : Nat} {u : Issue} {rd : Fin 32} {ra : Fin 32} {rb : Fin 32} {s : State} {t : State} (h : execMulhu u rd ra rb s = .next t) (hA : Covers 0x188E20D0000868C0 A) :
    Only A s t := by
  unfold execMulhu at h
  injection h with h
  subst h
  have hS : Only A s s := Only.rfl
  repeat' (first
    | with_reducible exact hS
    | with_reducible assumption
    | (with_reducible refine Covers.testBit hA ?_; decide)
    | (with_reducible refine Covers.trans ?_ hA; decide)
    | (refine fun _ => ?_; intros)
    | with_reducible refine State.mulOp_only ?_ ?_)

theorem execDivs_only {A : Nat} {u : Issue} {rd : Fin 32} {ra : Fin 32} {rb : Fin 32} {s : State} {t : State} (h : execDivs u rd ra rb s = .next t) (hA : Covers 0x188E20D0000868C0 A) :
    Only A s t := by
  unfold execDivs at h
  injection h with h
  subst h
  have hS : Only A s s := Only.rfl
  repeat' (first
    | with_reducible exact hS
    | with_reducible assumption
    | (with_reducible refine Covers.testBit hA ?_; decide)
    | (with_reducible refine Covers.trans ?_ hA; decide)
    | (refine fun _ => ?_; intros)
    | with_reducible refine State.divOp_only ?_ ?_)

theorem execDivu_only {A : Nat} {u : Issue} {rd : Fin 32} {ra : Fin 32} {rb : Fin 32} {s : State} {t : State} (h : execDivu u rd ra rb s = .next t) (hA : Covers 0x188E20D0000868C0 A) :
    Only A s t := by
  unfold execDivu at h
  injection h with h
  subst h
  have hS : Only A s s := Only.rfl
  repeat' (first
    | with_reducible exact hS
    | with_reducible assumption
    | (with_reducible refine Covers.testBit hA ?_; decide)
    | (with_reducible refine Covers.trans ?_ hA; decide)
    | (refine fun _ => ?_; intros)
    | with_reducible refine State.divOp_only ?_ ?_)

theorem execRems_only {A : Nat} {u : Issue} {rd : Fin 32} {ra : Fin 32} {rb : Fin 32} {s : State} {t : State} (h : execRems u rd ra rb s = .next t) (hA : Covers 0x188E20D0000868C0 A) :
    Only A s t := by
  unfold execRems at h
  injection h with h
  subst h
  have hS : Only A s s := Only.rfl
  repeat' (first
    | with_reducible exact hS
    | with_reducible assumption
    | (with_reducible refine Covers.testBit hA ?_; decide)
    | (with_reducible refine Covers.trans ?_ hA; decide)
    | (refine fun _ => ?_; intros)
    | with_reducible refine State.divOp_only ?_ ?_)

theorem execRemu_only {A : Nat} {u : Issue} {rd : Fin 32} {ra : Fin 32} {rb : Fin 32} {s : State} {t : State} (h : execRemu u rd ra rb s = .next t) (hA : Covers 0x188E20D0000868C0 A) :
    Only A s t := by
  unfold execRemu at h
  injection h with h
  subst h
  have hS : Only A s s := Only.rfl
  repeat' (first
    | with_reducible exact hS
    | with_reducible assumption
    | (with_reducible refine Covers.testBit hA ?_; decide)
    | (with_reducible refine Covers.trans ?_ hA; decide)
    | (refine fun _ => ?_; intros)
    | with_reducible refine State.divOp_only ?_ ?_)

theorem execDividerDone_only {A : Nat} {core : Fin 5} {thread : Fin 4} {s : State} {t : State} (h : execDividerDone core thread s = .next t) (hA : Covers 0x180E2000000068C0 A) :
    Only A s t := by
  unfold execDividerDone at h
  injection h with h
  subst h
  have hS : Only A s s := Only.rfl
  repeat' (first
    | with_reducible exact hS
    | with_reducible assumption
    | (with_reducible refine Covers.testBit hA ?_; decide)
    | (with_reducible refine Covers.trans ?_ hA; decide)
    | with_reducible refine State.dividerDone_only ?_ ?_)

end Sys2Proof.Machine
end

