-- ==== Sys2Proof/Laws/OnlyCoreControl.lean ====
section
/-! SUPPORT. What each operation of Machine/CoreControl.lean may change. -/

set_option linter.unusedTactic false
set_option linter.unreachableTactic false
set_option linter.unusedVariables false

namespace Sys2Proof.Machine

theorem State.branchOp_only {A : Nat} {s₀ : State} {s : State} {u : Issue} {op : Nat} {ra : Fin 32} {rb : Fin 32} {disp : BitVec 16} {p : Nat → Nat → Bool} (hS : Only A s₀ s) (hA : Covers 0x188E20D0000868C0 A) :
    Only A s₀ (State.branchOp s u op ra rb disp p) := by
  unfold State.branchOp
  repeat' (first
    | with_reducible exact hS
    | with_reducible assumption
    | (with_reducible refine Covers.testBit hA ?_; decide)
    | (with_reducible refine Covers.trans ?_ hA; decide)
    | (refine fun _ => ?_; intros)
    | (extract_lets -underBinder +onlyGivenNames x; refine (fun (hx : Only A s₀ x) => ?_ : Only A s₀ x → _) ?_; (on_goal 2 => unfold x; clear x); (on_goal 1 => clear_value x; revert x; intro _ _))
    | (extract_lets -underBinder +onlyGivenNames x; unfold x; clear x)
    | (extract_lets -underBinder +onlyGivenNames x; revert x; intro _)
    | with_reducible refine Only.ite ?_ ?_
    | with_reducible refine State.issue_only ?_ ?_ ?_
    | with_reducible refine State.plain_only ?_ ?_
    | with_reducible refine State.transfer_only ?_ ?_
    | exact Only.OfRes.trap
    | exact Only.OfRes.held
    | with_reducible refine Only.OfRes.acted ?_
    | with_reducible refine Only.OfRes.ite ?_ ?_
    | with_reducible refine Only.OfRes.elim (by assumption) ?_)

theorem State.sysOp_only {A : Nat} {s₀ : State} {s : State} {u : Issue} {rd : Fin 32} {ra : Fin 32} {rb : Fin 32} {func : Nat} {body : State → Th → Nat → Res} (hS : Only A s₀ s) (hbody : ∀ t x y, Only A s₀ t → Only.OfRes A s₀ (body t x y)) (hA : Covers 0x188E20D0000868C0 A) :
    Only A s₀ (State.sysOp s u rd ra rb func body) := by
  unfold State.sysOp
  repeat' (first
    | with_reducible exact hS
    | with_reducible assumption
    | (with_reducible refine Covers.testBit hA ?_; decide)
    | (with_reducible refine Covers.trans ?_ hA; decide)
    | (refine fun _ => ?_; intros)
    | (extract_lets -underBinder +onlyGivenNames x; refine (fun (hx : Only A s₀ x) => ?_ : Only A s₀ x → _) ?_; (on_goal 2 => unfold x; clear x); (on_goal 1 => clear_value x; revert x; intro _ _))
    | (extract_lets -underBinder +onlyGivenNames x; unfold x; clear x)
    | (extract_lets -underBinder +onlyGivenNames x; revert x; intro _)
    | with_reducible refine hbody _ _ _ ?_
    | with_reducible refine State.issue_only ?_ ?_ ?_
    | exact Only.OfRes.trap
    | exact Only.OfRes.held
    | with_reducible refine Only.OfRes.acted ?_
    | with_reducible refine Only.OfRes.ite ?_ ?_
    | with_reducible refine Only.OfRes.elim (by assumption) ?_)

theorem State.callTo_only {A : Nat} {s₀ : State} {s : State} {id : Nat} {enc : Nat} {target : Nat} (hS : Only A s₀ s) (hA : Covers 0x2000000000000 A) :
    Only.OfRes A s₀ (State.callTo s id enc target) := by
  unfold State.callTo
  repeat' (first
    | with_reducible exact hS
    | with_reducible assumption
    | (with_reducible refine Covers.testBit hA ?_; decide)
    | (with_reducible refine Covers.trans ?_ hA; decide)
    | (refine fun _ => ?_; intros)
    | (extract_lets -underBinder +onlyGivenNames x; refine (fun (hx : Only A s₀ x) => ?_ : Only A s₀ x → _) ?_; (on_goal 2 => unfold x; clear x); (on_goal 1 => clear_value x; revert x; intro _ _))
    | (extract_lets -underBinder +onlyGivenNames x; unfold x; clear x)
    | (extract_lets -underBinder +onlyGivenNames x; revert x; intro _)
    | with_reducible refine Only.ite ?_ ?_
    | with_reducible refine State.retire_only ?_ ?_
    | exact Only.OfRes.trap
    | exact Only.OfRes.held
    | with_reducible refine Only.OfRes.acted ?_
    | with_reducible refine Only.OfRes.ite ?_ ?_
    | with_reducible refine Only.OfRes.elim (by assumption) ?_)

theorem State.returnFrom_only {A : Nat} {s₀ : State} {s : State} {id : Nat} {enc : Nat} {close : Bool} (hS : Only A s₀ s) (hA : Covers 0x2000000000000 A) :
    Only.OfRes A s₀ (State.returnFrom s id enc close) := by
  unfold State.returnFrom
  repeat' (first
    | with_reducible exact hS
    | with_reducible assumption
    | (with_reducible refine Covers.testBit hA ?_; decide)
    | (with_reducible refine Covers.trans ?_ hA; decide)
    | (refine fun _ => ?_; intros)
    | (extract_lets -underBinder +onlyGivenNames x; refine (fun (hx : Only A s₀ x) => ?_ : Only A s₀ x → _) ?_; (on_goal 2 => unfold x; clear x); (on_goal 1 => clear_value x; revert x; intro _ _))
    | (extract_lets -underBinder +onlyGivenNames x; unfold x; clear x)
    | (extract_lets -underBinder +onlyGivenNames x; revert x; intro _)
    | with_reducible refine Only.ite ?_ ?_
    | with_reducible refine State.retire_only ?_ ?_
    | with_reducible refine State.live_only ?_ ?_
    | exact Only.OfRes.trap
    | exact Only.OfRes.held
    | with_reducible refine Only.OfRes.acted ?_
    | with_reducible refine Only.OfRes.ite ?_ ?_
    | split
    | with_reducible refine Only.OfRes.elim (by assumption) ?_
    | (refine fun _ => ?_))

theorem State.readCcr_only {A : Nat} {s₀ : State} {s : State} {id : Nat} {n : Nat} (hS : Only A s₀ s) (hA : Covers 0x2000000000000 A) :
    Only.Snd A s₀ (State.readCcr s id n) := by
  unfold State.readCcr
  repeat' (first
    | with_reducible exact hS
    | with_reducible assumption
    | (with_reducible refine Covers.testBit hA ?_; decide)
    | (with_reducible refine Covers.trans ?_ hA; decide)
    | (refine fun _ => ?_; intros)
    | (extract_lets -underBinder +onlyGivenNames x; refine (fun (hx : Only A s₀ x) => ?_ : Only A s₀ x → _) ?_; (on_goal 2 => unfold x; clear x); (on_goal 1 => clear_value x; revert x; intro _ _))
    | (extract_lets -underBinder +onlyGivenNames x; unfold x; clear x)
    | (extract_lets -underBinder +onlyGivenNames x; revert x; intro _)
    | with_reducible refine State.updTh_only ?_ ?_
    | with_reducible refine State.updCore_only ?_ ?_
    | with_reducible refine Only.Snd.ite ?_ ?_
    | split
    | with_reducible refine Only.Snd.of ?_
    | with_reducible refine Only.Snd.pair ?_
    | with_reducible refine Only.Snd.elim (by assumption) ?_
    | (refine fun _ => ?_))

theorem State.writeCcr_only {A : Nat} {s₀ : State} {s : State} {id : Nat} {n : Nat} {v : Nat} (hS : Only A s₀ s) (hA : Covers 0x2000000002000 A) :
    Only.Opt A s₀ (State.writeCcr s id n v) := by
  unfold State.writeCcr
  repeat' (first
    | with_reducible exact hS
    | with_reducible assumption
    | (with_reducible refine Covers.testBit hA ?_; decide)
    | (with_reducible refine Covers.trans ?_ hA; decide)
    | (refine fun _ => ?_; intros)
    | (extract_lets -underBinder +onlyGivenNames x; refine (fun (hx : Only A s₀ x) => ?_ : Only A s₀ x → _) ?_; (on_goal 2 => unfold x; clear x); (on_goal 1 => clear_value x; revert x; intro _ _))
    | (extract_lets -underBinder +onlyGivenNames x; unfold x; clear x)
    | (extract_lets -underBinder +onlyGivenNames x; revert x; intro _)
    | with_reducible refine Only.ite ?_ ?_
    | with_reducible refine State.updTh_only ?_ ?_
    | with_reducible refine State.updCore_only ?_ ?_
    | with_reducible refine State.publishLevels_only ?_ ?_
    | with_reducible refine State.live_only ?_ ?_
    | exact Only.Opt.none
    | with_reducible refine Only.Opt.some ?_
    | with_reducible refine Only.Opt.ite ?_ ?_
    | with_reducible refine Only.Opt.getD ?_ ?_
    | with_reducible refine Only.Opt.map ?_
    | split
    | with_reducible refine Only.Opt.elim (by assumption) ?_
    | (refine fun _ => ?_))

theorem State.signal_only {A : Nat} {s₀ : State} {s : State} {id : Nat} {tgt : Nat} {m : Nat} (hS : Only A s₀ s) (hA : Covers 0x1006000000000800 A) :
    Only A s₀ (State.signal s id tgt m) := by
  unfold State.signal
  repeat' (first
    | with_reducible exact hS
    | with_reducible assumption
    | (with_reducible refine Covers.testBit hA ?_; decide)
    | (with_reducible refine Covers.trans ?_ hA; decide)
    | with_reducible refine Only.ite ?_ ?_
    | with_reducible refine State.softEvents_only ?_ ?_
    | with_reducible refine State.offer_only ?_ ?_)

end Sys2Proof.Machine
end

