-- ==== Sys2Proof/Laws/ExecCoreControl.lean ====
section
/-! SUPPORT. What each command of Machine/CoreControl.lean may change. -/

set_option linter.unusedTactic false
set_option linter.unreachableTactic false
set_option linter.unusedVariables false

namespace Sys2Proof.Machine

theorem execBeq_only {A : Nat} {u : Issue} {ra : Fin 32} {rb : Fin 32} {disp : BitVec 16} {s : State} {t : State} (h : execBeq u ra rb disp s = .next t) (hA : Covers 0x188E20D0000868C0 A) :
    Only A s t := by
  unfold execBeq at h
  injection h with h
  subst h
  have hS : Only A s s := Only.rfl
  repeat' (first
    | with_reducible exact hS
    | with_reducible assumption
    | (with_reducible refine Covers.testBit hA ?_; decide)
    | (with_reducible refine Covers.trans ?_ hA; decide)
    | (refine fun _ => ?_; intros)
    | with_reducible refine State.branchOp_only ?_ ?_)

theorem execBne_only {A : Nat} {u : Issue} {ra : Fin 32} {rb : Fin 32} {disp : BitVec 16} {s : State} {t : State} (h : execBne u ra rb disp s = .next t) (hA : Covers 0x188E20D0000868C0 A) :
    Only A s t := by
  unfold execBne at h
  injection h with h
  subst h
  have hS : Only A s s := Only.rfl
  repeat' (first
    | with_reducible exact hS
    | with_reducible assumption
    | (with_reducible refine Covers.testBit hA ?_; decide)
    | (with_reducible refine Covers.trans ?_ hA; decide)
    | (refine fun _ => ?_; intros)
    | with_reducible refine State.branchOp_only ?_ ?_)

theorem execBlt_only {A : Nat} {u : Issue} {ra : Fin 32} {rb : Fin 32} {disp : BitVec 16} {s : State} {t : State} (h : execBlt u ra rb disp s = .next t) (hA : Covers 0x188E20D0000868C0 A) :
    Only A s t := by
  unfold execBlt at h
  injection h with h
  subst h
  have hS : Only A s s := Only.rfl
  repeat' (first
    | with_reducible exact hS
    | with_reducible assumption
    | (with_reducible refine Covers.testBit hA ?_; decide)
    | (with_reducible refine Covers.trans ?_ hA; decide)
    | (refine fun _ => ?_; intros)
    | with_reducible refine State.branchOp_only ?_ ?_)

theorem execBge_only {A : Nat} {u : Issue} {ra : Fin 32} {rb : Fin 32} {disp : BitVec 16} {s : State} {t : State} (h : execBge u ra rb disp s = .next t) (hA : Covers 0x188E20D0000868C0 A) :
    Only A s t := by
  unfold execBge at h
  injection h with h
  subst h
  have hS : Only A s s := Only.rfl
  repeat' (first
    | with_reducible exact hS
    | with_reducible assumption
    | (with_reducible refine Covers.testBit hA ?_; decide)
    | (with_reducible refine Covers.trans ?_ hA; decide)
    | (refine fun _ => ?_; intros)
    | with_reducible refine State.branchOp_only ?_ ?_)

theorem execBltu_only {A : Nat} {u : Issue} {ra : Fin 32} {rb : Fin 32} {disp : BitVec 16} {s : State} {t : State} (h : execBltu u ra rb disp s = .next t) (hA : Covers 0x188E20D0000868C0 A) :
    Only A s t := by
  unfold execBltu at h
  injection h with h
  subst h
  have hS : Only A s s := Only.rfl
  repeat' (first
    | with_reducible exact hS
    | with_reducible assumption
    | (with_reducible refine Covers.testBit hA ?_; decide)
    | (with_reducible refine Covers.trans ?_ hA; decide)
    | (refine fun _ => ?_; intros)
    | with_reducible refine State.branchOp_only ?_ ?_)

theorem execBgeu_only {A : Nat} {u : Issue} {ra : Fin 32} {rb : Fin 32} {disp : BitVec 16} {s : State} {t : State} (h : execBgeu u ra rb disp s = .next t) (hA : Covers 0x188E20D0000868C0 A) :
    Only A s t := by
  unfold execBgeu at h
  injection h with h
  subst h
  have hS : Only A s s := Only.rfl
  repeat' (first
    | with_reducible exact hS
    | with_reducible assumption
    | (with_reducible refine Covers.testBit hA ?_; decide)
    | (with_reducible refine Covers.trans ?_ hA; decide)
    | (refine fun _ => ?_; intros)
    | with_reducible refine State.branchOp_only ?_ ?_)

theorem execJmp_only {A : Nat} {u : Issue} {disp : BitVec 26} {s : State} {t : State} (h : execJmp u disp s = .next t) (hA : Covers 0x188E20D0000868C0 A) :
    Only A s t := by
  unfold execJmp at h
  injection h with h
  subst h
  have hS : Only A s s := Only.rfl
  repeat' (first
    | with_reducible exact hS
    | with_reducible assumption
    | (with_reducible refine Covers.testBit hA ?_; decide)
    | (with_reducible refine Covers.trans ?_ hA; decide)
    | (refine fun _ => ?_; intros)
    | with_reducible refine State.issue_only ?_ ?_ ?_
    | with_reducible refine State.transfer_only ?_ ?_
    | exact Only.OfRes.trap
    | exact Only.OfRes.held
    | with_reducible refine Only.OfRes.acted ?_
    | with_reducible refine Only.OfRes.ite ?_ ?_
    | with_reducible refine Only.OfRes.elim (by assumption) ?_)

theorem execCall_only {A : Nat} {u : Issue} {disp : BitVec 26} {s : State} {t : State} (h : execCall u disp s = .next t) (hA : Covers 0x188E20D0000868C0 A) :
    Only A s t := by
  unfold execCall at h
  injection h with h
  subst h
  have hS : Only A s s := Only.rfl
  repeat' (first
    | with_reducible exact hS
    | with_reducible assumption
    | (with_reducible refine Covers.testBit hA ?_; decide)
    | (with_reducible refine Covers.trans ?_ hA; decide)
    | (refine fun _ => ?_; intros)
    | (extract_lets -underBinder +onlyGivenNames x; refine (fun (hx : Only A s₀ x) => ?_ : Only A s₀ x → _) ?_; (on_goal 2 => unfold x; clear x); (on_goal 1 => clear_value x; revert x; intro _ _))
    | (extract_lets -underBinder +onlyGivenNames x; unfold x; clear x)
    | (extract_lets -underBinder +onlyGivenNames x; revert x; intro _)
    | with_reducible refine State.issue_only ?_ ?_ ?_
    | with_reducible refine State.callTo_only ?_ ?_
    | exact Only.OfRes.trap
    | exact Only.OfRes.held
    | with_reducible refine Only.OfRes.acted ?_
    | with_reducible refine Only.OfRes.ite ?_ ?_
    | with_reducible refine Only.OfRes.elim (by assumption) ?_)

theorem execWopen_only {A : Nat} {u : Issue} {s : State} {t : State} (h : execWopen u s = .next t) (hA : Covers 0x188E20D0000868C0 A) :
    Only A s t := by
  unfold execWopen at h
  injection h with h
  subst h
  have hS : Only A s s := Only.rfl
  repeat' (first
    | with_reducible exact hS
    | with_reducible assumption
    | (with_reducible refine Covers.testBit hA ?_; decide)
    | (with_reducible refine Covers.trans ?_ hA; decide)
    | (refine fun _ => ?_; intros)
    | with_reducible refine Only.ite ?_ ?_
    | with_reducible refine State.plain_only ?_ ?_
    | with_reducible refine State.live_only ?_ ?_
    | with_reducible refine State.sysOp_only ?_ ?_ ?_
    | exact Only.OfRes.trap
    | exact Only.OfRes.held
    | with_reducible refine Only.OfRes.acted ?_
    | with_reducible refine Only.OfRes.ite ?_ ?_
    | with_reducible refine Only.OfRes.elim (by assumption) ?_)

theorem execWclose_only {A : Nat} {u : Issue} {s : State} {t : State} (h : execWclose u s = .next t) (hA : Covers 0x188E20D0000868C0 A) :
    Only A s t := by
  unfold execWclose at h
  injection h with h
  subst h
  have hS : Only A s s := Only.rfl
  repeat' (first
    | with_reducible exact hS
    | with_reducible assumption
    | (with_reducible refine Covers.testBit hA ?_; decide)
    | (with_reducible refine Covers.trans ?_ hA; decide)
    | (refine fun _ => ?_; intros)
    | with_reducible refine Only.ite ?_ ?_
    | with_reducible refine State.plain_only ?_ ?_
    | with_reducible refine State.live_only ?_ ?_
    | with_reducible refine State.sysOp_only ?_ ?_ ?_
    | exact Only.OfRes.trap
    | exact Only.OfRes.held
    | with_reducible refine Only.OfRes.acted ?_
    | with_reducible refine Only.OfRes.ite ?_ ?_
    | with_reducible refine Only.OfRes.elim (by assumption) ?_)

theorem execSpill_only {A : Nat} {u : Issue} {s : State} {t : State} (h : execSpill u s = .next t) (hA : Covers 0x188E20D0000868C0 A) :
    Only A s t := by
  unfold execSpill at h
  injection h with h
  subst h
  have hS : Only A s s := Only.rfl
  repeat' (first
    | with_reducible exact hS
    | with_reducible assumption
    | (with_reducible refine Covers.testBit hA ?_; decide)
    | (with_reducible refine Covers.trans ?_ hA; decide)
    | (refine fun _ => ?_; intros)
    | (extract_lets -underBinder +onlyGivenNames x; refine (fun (hx : Only A s₀ x) => ?_ : Only A s₀ x → _) ?_; (on_goal 2 => unfold x; clear x); (on_goal 1 => clear_value x; revert x; intro _ _))
    | (extract_lets -underBinder +onlyGivenNames x; unfold x; clear x)
    | (extract_lets -underBinder +onlyGivenNames x; revert x; intro _)
    | with_reducible refine Only.ite ?_ ?_
    | with_reducible refine State.accesses_only ?_ ?_
    | with_reducible refine State.live_only ?_ ?_
    | with_reducible refine State.sysOp_only ?_ ?_ ?_
    | exact Only.OfRes.trap
    | exact Only.OfRes.held
    | with_reducible refine Only.OfRes.acted ?_
    | with_reducible refine Only.OfRes.ite ?_ ?_
    | with_reducible refine Only.OfRes.elim (by assumption) ?_)

theorem execFill_only {A : Nat} {u : Issue} {s : State} {t : State} (h : execFill u s = .next t) (hA : Covers 0x188E20D0000868C0 A) :
    Only A s t := by
  unfold execFill at h
  injection h with h
  subst h
  have hS : Only A s s := Only.rfl
  repeat' (first
    | with_reducible exact hS
    | with_reducible assumption
    | (with_reducible refine Covers.testBit hA ?_; decide)
    | (with_reducible refine Covers.trans ?_ hA; decide)
    | (refine fun _ => ?_; intros)
    | with_reducible refine Only.ite ?_ ?_
    | with_reducible refine State.accesses_only ?_ ?_
    | with_reducible refine State.live_only ?_ ?_
    | with_reducible refine State.sysOp_only ?_ ?_ ?_
    | exact Only.OfRes.trap
    | exact Only.OfRes.held
    | with_reducible refine Only.OfRes.acted ?_
    | with_reducible refine Only.OfRes.ite ?_ ?_
    | with_reducible refine Only.OfRes.elim (by assumption) ?_)

theorem execJr_only {A : Nat} {u : Issue} {ra : Fin 32} {s : State} {t : State} (h : execJr u ra s = .next t) (hA : Covers 0x188E20D0000868C0 A) :
    Only A s t := by
  unfold execJr at h
  injection h with h
  subst h
  have hS : Only A s s := Only.rfl
  repeat' (first
    | with_reducible exact hS
    | with_reducible assumption
    | (with_reducible refine Covers.testBit hA ?_; decide)
    | (with_reducible refine Covers.trans ?_ hA; decide)
    | (refine fun _ => ?_; intros)
    | with_reducible refine State.transfer_only ?_ ?_
    | with_reducible refine State.sysOp_only ?_ ?_ ?_
    | exact Only.OfRes.trap
    | exact Only.OfRes.held
    | with_reducible refine Only.OfRes.acted ?_
    | with_reducible refine Only.OfRes.ite ?_ ?_
    | with_reducible refine Only.OfRes.elim (by assumption) ?_)

theorem execCallr_only {A : Nat} {u : Issue} {ra : Fin 32} {s : State} {t : State} (h : execCallr u ra s = .next t) (hA : Covers 0x188E20D0000868C0 A) :
    Only A s t := by
  unfold execCallr at h
  injection h with h
  subst h
  have hS : Only A s s := Only.rfl
  repeat' (first
    | with_reducible exact hS
    | with_reducible assumption
    | (with_reducible refine Covers.testBit hA ?_; decide)
    | (with_reducible refine Covers.trans ?_ hA; decide)
    | (refine fun _ => ?_; intros)
    | with_reducible refine State.sysOp_only ?_ ?_ ?_
    | with_reducible refine State.callTo_only ?_ ?_
    | exact Only.OfRes.trap
    | exact Only.OfRes.held
    | with_reducible refine Only.OfRes.acted ?_
    | with_reducible refine Only.OfRes.ite ?_ ?_
    | with_reducible refine Only.OfRes.elim (by assumption) ?_)

theorem execRet_only {A : Nat} {u : Issue} {s : State} {t : State} (h : execRet u s = .next t) (hA : Covers 0x188E20D0000868C0 A) :
    Only A s t := by
  unfold execRet at h
  injection h with h
  subst h
  have hS : Only A s s := Only.rfl
  repeat' (first
    | with_reducible exact hS
    | with_reducible assumption
    | (with_reducible refine Covers.testBit hA ?_; decide)
    | (with_reducible refine Covers.trans ?_ hA; decide)
    | (refine fun _ => ?_; intros)
    | with_reducible refine State.sysOp_only ?_ ?_ ?_
    | with_reducible refine State.returnFrom_only ?_ ?_
    | exact Only.OfRes.trap
    | exact Only.OfRes.held
    | with_reducible refine Only.OfRes.acted ?_
    | with_reducible refine Only.OfRes.ite ?_ ?_
    | with_reducible refine Only.OfRes.elim (by assumption) ?_)

theorem execRetc_only {A : Nat} {u : Issue} {s : State} {t : State} (h : execRetc u s = .next t) (hA : Covers 0x188E20D0000868C0 A) :
    Only A s t := by
  unfold execRetc at h
  injection h with h
  subst h
  have hS : Only A s s := Only.rfl
  repeat' (first
    | with_reducible exact hS
    | with_reducible assumption
    | (with_reducible refine Covers.testBit hA ?_; decide)
    | (with_reducible refine Covers.trans ?_ hA; decide)
    | (refine fun _ => ?_; intros)
    | with_reducible refine State.sysOp_only ?_ ?_ ?_
    | with_reducible refine State.returnFrom_only ?_ ?_
    | exact Only.OfRes.trap
    | exact Only.OfRes.held
    | with_reducible refine Only.OfRes.acted ?_
    | with_reducible refine Only.OfRes.ite ?_ ?_
    | with_reducible refine Only.OfRes.elim (by assumption) ?_)

theorem execTrap_only {A : Nat} {u : Issue} {code : Fin 32} {s : State} {t : State} (h : execTrap u code s = .next t) (hA : Covers 0x188E20D0000868C0 A) :
    Only A s t := by
  unfold execTrap at h
  injection h with h
  subst h
  have hS : Only A s s := Only.rfl
  repeat' (first
    | with_reducible exact hS
    | with_reducible assumption
    | (with_reducible refine Covers.testBit hA ?_; decide)
    | (with_reducible refine Covers.trans ?_ hA; decide)
    | (refine fun _ => ?_; intros)
    | with_reducible refine Only.ite ?_ ?_
    | with_reducible refine State.takeTrap_only ?_ ?_
    | with_reducible refine State.sysOp_only ?_ ?_ ?_
    | exact Only.OfRes.trap
    | exact Only.OfRes.held
    | with_reducible refine Only.OfRes.acted ?_
    | with_reducible refine Only.OfRes.ite ?_ ?_
    | with_reducible refine Only.OfRes.elim (by assumption) ?_)

theorem execTret_only {A : Nat} {u : Issue} {s : State} {t : State} (h : execTret u s = .next t) (hA : Covers 0x188E20D0000868C0 A) :
    Only A s t := by
  unfold execTret at h
  injection h with h
  subst h
  have hS : Only A s s := Only.rfl
  repeat' (first
    | with_reducible exact hS
    | with_reducible assumption
    | (with_reducible refine Covers.testBit hA ?_; decide)
    | (with_reducible refine Covers.trans ?_ hA; decide)
    | (refine fun _ => ?_; intros)
    | with_reducible refine Only.ite ?_ ?_
    | with_reducible refine State.transfer_only ?_ ?_
    | with_reducible refine State.sysOp_only ?_ ?_ ?_
    | exact Only.OfRes.trap
    | exact Only.OfRes.held
    | with_reducible refine Only.OfRes.acted ?_
    | with_reducible refine Only.OfRes.ite ?_ ?_
    | with_reducible refine Only.OfRes.elim (by assumption) ?_)

theorem execFence_only {A : Nat} {u : Issue} {s : State} {t : State} (h : execFence u s = .next t) (hA : Covers 0x188E20D0000868C0 A) :
    Only A s t := by
  unfold execFence at h
  injection h with h
  subst h
  have hS : Only A s s := Only.rfl
  repeat' (first
    | with_reducible exact hS
    | with_reducible assumption
    | (with_reducible refine Covers.testBit hA ?_; decide)
    | (with_reducible refine Covers.trans ?_ hA; decide)
    | (refine fun _ => ?_; intros)
    | with_reducible refine Only.ite ?_ ?_
    | with_reducible refine State.plain_only ?_ ?_
    | with_reducible refine State.sysOp_only ?_ ?_ ?_
    | exact Only.OfRes.trap
    | exact Only.OfRes.held
    | with_reducible refine Only.OfRes.acted ?_
    | with_reducible refine Only.OfRes.ite ?_ ?_
    | with_reducible refine Only.OfRes.elim (by assumption) ?_)

theorem execFsync_only {A : Nat} {u : Issue} {s : State} {t : State} (h : execFsync u s = .next t) (hA : Covers 0x188E20D0000868C0 A) :
    Only A s t := by
  unfold execFsync at h
  injection h with h
  subst h
  have hS : Only A s s := Only.rfl
  repeat' (first
    | with_reducible exact hS
    | with_reducible assumption
    | (with_reducible refine Covers.testBit hA ?_; decide)
    | (with_reducible refine Covers.trans ?_ hA; decide)
    | (refine fun _ => ?_; intros)
    | with_reducible refine Only.ite ?_ ?_
    | with_reducible refine State.plain_only ?_ ?_
    | with_reducible refine State.sysOp_only ?_ ?_ ?_
    | exact Only.OfRes.trap
    | exact Only.OfRes.held
    | with_reducible refine Only.OfRes.acted ?_
    | with_reducible refine Only.OfRes.ite ?_ ?_
    | with_reducible refine Only.OfRes.elim (by assumption) ?_)

theorem execMfc_only {A : Nat} {u : Issue} {rd : Fin 32} {ccr : Fin 32} {s : State} {t : State} (h : execMfc u rd ccr s = .next t) (hA : Covers 0x188E20D0000868C0 A) :
    Only A s t := by
  unfold execMfc at h
  injection h with h
  subst h
  have hS : Only A s s := Only.rfl
  repeat' (first
    | with_reducible exact hS
    | with_reducible assumption
    | (with_reducible refine Covers.testBit hA ?_; decide)
    | (with_reducible refine Covers.trans ?_ hA; decide)
    | (refine fun _ => ?_; intros)
    | (extract_lets -underBinder +onlyGivenNames x; refine (fun (hx : Only A s₀ x) => ?_ : Only A s₀ x → _) ?_; (on_goal 2 => unfold x; clear x); (on_goal 1 => clear_value x; revert x; intro _ _))
    | (extract_lets -underBinder +onlyGivenNames x; unfold x; clear x)
    | (extract_lets -underBinder +onlyGivenNames x; revert x; intro _)
    | with_reducible refine Only.ite ?_ ?_
    | with_reducible refine State.plain_only ?_ ?_
    | with_reducible refine State.sysOp_only ?_ ?_ ?_
    | with_reducible refine State.readCcr_only ?_ ?_
    | with_reducible refine Only.Snd.ite ?_ ?_
    | exact Only.OfRes.trap
    | exact Only.OfRes.held
    | with_reducible refine Only.OfRes.acted ?_
    | with_reducible refine Only.OfRes.ite ?_ ?_
    | split
    | with_reducible refine Only.Snd.of ?_
    | with_reducible refine Only.Snd.pair ?_
    | with_reducible refine Only.Snd.elim (by assumption) ?_
    | with_reducible refine Only.OfRes.elim (by assumption) ?_)

theorem execMtc_only {A : Nat} {u : Issue} {ccr : Fin 32} {ra : Fin 32} {s : State} {t : State} (h : execMtc u ccr ra s = .next t) (hA : Covers 0x188E20D0000868C0 A) :
    Only A s t := by
  unfold execMtc at h
  injection h with h
  subst h
  have hS : Only A s s := Only.rfl
  repeat' (first
    | with_reducible exact hS
    | with_reducible assumption
    | (with_reducible refine Covers.testBit hA ?_; decide)
    | (with_reducible refine Covers.trans ?_ hA; decide)
    | (refine fun _ => ?_; intros)
    | with_reducible refine Only.ite ?_ ?_
    | with_reducible refine State.plain_only ?_ ?_
    | with_reducible refine State.sysOp_only ?_ ?_ ?_
    | with_reducible refine State.writeCcr_only ?_ ?_
    | exact Only.Opt.none
    | with_reducible refine Only.Opt.some ?_
    | with_reducible refine Only.Opt.ite ?_ ?_
    | with_reducible refine Only.Opt.getD ?_ ?_
    | with_reducible refine Only.Opt.map ?_
    | exact Only.OfRes.trap
    | exact Only.OfRes.held
    | with_reducible refine Only.OfRes.acted ?_
    | with_reducible refine Only.OfRes.ite ?_ ?_
    | split
    | with_reducible refine Only.Opt.elim (by assumption) ?_
    | with_reducible refine Only.OfRes.elim (by assumption) ?_
    | (refine fun _ => ?_))

theorem execWaite_only {A : Nat} {u : Issue} {rd : Fin 32} {ra : Fin 32} {s : State} {t : State} (h : execWaite u rd ra s = .next t) (hA : Covers 0x188E20D0000868C0 A) :
    Only A s t := by
  unfold execWaite at h
  injection h with h
  subst h
  have hS : Only A s s := Only.rfl
  repeat' (first
    | with_reducible exact hS
    | with_reducible assumption
    | (with_reducible refine Covers.testBit hA ?_; decide)
    | (with_reducible refine Covers.trans ?_ hA; decide)
    | (refine fun _ => ?_; intros)
    | (extract_lets -underBinder +onlyGivenNames x; refine (fun (hx : Only A s₀ x) => ?_ : Only A s₀ x → _) ?_; (on_goal 2 => unfold x; clear x); (on_goal 1 => clear_value x; revert x; intro _ _))
    | (extract_lets -underBinder +onlyGivenNames x; unfold x; clear x)
    | (extract_lets -underBinder +onlyGivenNames x; revert x; intro _)
    | with_reducible refine Only.ite ?_ ?_
    | with_reducible refine State.put_only ?_ ?_
    | with_reducible refine State.updTh_only ?_ ?_
    | with_reducible refine State.putThState_only ?_ ?_
    | with_reducible refine State.hold_only ?_ ?_
    | with_reducible refine State.rearm_only ?_ ?_
    | with_reducible refine State.retire_only ?_ ?_
    | with_reducible refine State.sysOp_only ?_ ?_ ?_
    | exact Only.OfRes.trap
    | exact Only.OfRes.held
    | with_reducible refine Only.OfRes.acted ?_
    | with_reducible refine Only.OfRes.ite ?_ ?_
    | with_reducible refine Only.OfRes.elim (by assumption) ?_)

theorem execSige_only {A : Nat} {u : Issue} {ra : Fin 32} {rb : Fin 32} {s : State} {t : State} (h : execSige u ra rb s = .next t) (hA : Covers 0x188E20D0000868C0 A) :
    Only A s t := by
  unfold execSige at h
  injection h with h
  subst h
  have hS : Only A s s := Only.rfl
  repeat' (first
    | with_reducible exact hS
    | with_reducible assumption
    | (with_reducible refine Covers.testBit hA ?_; decide)
    | (with_reducible refine Covers.trans ?_ hA; decide)
    | (refine fun _ => ?_; intros)
    | (extract_lets -underBinder +onlyGivenNames x; refine (fun (hx : Only A s₀ x) => ?_ : Only A s₀ x → _) ?_; (on_goal 2 => unfold x; clear x); (on_goal 1 => clear_value x; revert x; intro _ _))
    | (extract_lets -underBinder +onlyGivenNames x; unfold x; clear x)
    | (extract_lets -underBinder +onlyGivenNames x; revert x; intro _)
    | with_reducible refine Only.ite ?_ ?_
    | with_reducible refine State.retire_only ?_ ?_
    | with_reducible refine State.sysOp_only ?_ ?_ ?_
    | with_reducible refine State.signal_only ?_ ?_
    | exact Only.OfRes.trap
    | exact Only.OfRes.held
    | with_reducible refine Only.OfRes.acted ?_
    | with_reducible refine Only.OfRes.ite ?_ ?_
    | with_reducible refine Only.OfRes.elim (by assumption) ?_)

theorem execBrk_only {A : Nat} {u : Issue} {s : State} {t : State} (h : execBrk u s = .next t) (hA : Covers 0x188E20D0000868C0 A) :
    Only A s t := by
  unfold execBrk at h
  injection h with h
  subst h
  have hS : Only A s s := Only.rfl
  repeat' (first
    | with_reducible exact hS
    | with_reducible assumption
    | (with_reducible refine Covers.testBit hA ?_; decide)
    | (with_reducible refine Covers.trans ?_ hA; decide)
    | (refine fun _ => ?_; intros)
    | with_reducible refine Only.ite ?_ ?_
    | with_reducible refine State.putThState_only ?_ ?_
    | with_reducible refine State.takeTrap_only ?_ ?_
    | with_reducible refine State.retire_only ?_ ?_
    | with_reducible refine State.sysOp_only ?_ ?_ ?_
    | exact Only.OfRes.trap
    | exact Only.OfRes.held
    | with_reducible refine Only.OfRes.acted ?_
    | with_reducible refine Only.OfRes.ite ?_ ?_
    | with_reducible refine Only.OfRes.elim (by assumption) ?_)

end Sys2Proof.Machine
end

