-- ==== Sys2Proof/Laws/OnlyCoreFp.lean ====
section
/-! SUPPORT. What each operation of Machine/CoreFp.lean may change. -/

set_option linter.unusedTactic false
set_option linter.unreachableTactic false
set_option linter.unusedVariables false

namespace Sys2Proof.Machine

theorem State.fpEnd_only {A : Nat} {s₀ : State} {s : State} {id : Nat} {flags : Nat} {f : Th → Th} (hS : Only A s₀ s) (hA : Covers 0x2000000000000 A) :
    Only.OfRes A s₀ (State.fpEnd s id flags f) := by
  unfold State.fpEnd
  repeat' (first
    | with_reducible exact hS
    | with_reducible assumption
    | (with_reducible refine Covers.testBit hA ?_; decide)
    | (with_reducible refine Covers.trans ?_ hA; decide)
    | (refine fun _ => ?_; intros)
    | (extract_lets -underBinder +onlyGivenNames x; refine (fun (hx : Only A s₀ x) => ?_ : Only A s₀ x → _) ?_; (on_goal 2 => unfold x; clear x); (on_goal 1 => clear_value x; revert x; intro _ _))
    | (extract_lets -underBinder +onlyGivenNames x; unfold x; clear x)
    | (extract_lets -underBinder +onlyGivenNames x; revert x; intro _)
    | with_reducible refine State.retire_only ?_ ?_
    | exact Only.OfRes.trap
    | exact Only.OfRes.held
    | with_reducible refine Only.OfRes.acted ?_
    | with_reducible refine Only.OfRes.ite ?_ ?_
    | with_reducible refine Only.OfRes.elim (by assumption) ?_)

theorem State.fpRound_only {A : Nat} {s₀ : State} {s : State} {u : Issue} {op : Nat} {rd : Fin 32} {ra : Fin 32} {rb : Fin 32} {rm : Fin 8} {dbl : Bool} {f : Nat → Th → FpRes} {put : Th → Nat → Th} (hS : Only A s₀ s) (hA : Covers 0x188E20D0000868C0 A) :
    Only A s₀ (State.fpRound s u op rd ra rb rm dbl f put) := by
  unfold State.fpRound
  repeat' (first
    | with_reducible exact hS
    | with_reducible assumption
    | (with_reducible refine Covers.testBit hA ?_; decide)
    | (with_reducible refine Covers.trans ?_ hA; decide)
    | (refine fun _ => ?_; intros)
    | (extract_lets -underBinder +onlyGivenNames x; refine (fun (hx : Only A s₀ x) => ?_ : Only A s₀ x → _) ?_; (on_goal 2 => unfold x; clear x); (on_goal 1 => clear_value x; revert x; intro _ _))
    | (extract_lets -underBinder +onlyGivenNames x; unfold x; clear x)
    | (extract_lets -underBinder +onlyGivenNames x; revert x; intro _)
    | with_reducible refine State.put_only ?_ ?_
    | with_reducible refine State.issue_only ?_ ?_ ?_
    | with_reducible refine State.fpEnd_only ?_ ?_
    | exact Only.OfRes.trap
    | exact Only.OfRes.held
    | with_reducible refine Only.OfRes.acted ?_
    | with_reducible refine Only.OfRes.ite ?_ ?_
    | split
    | with_reducible refine Only.OfRes.elim (by assumption) ?_
    | (refine fun _ => ?_))

theorem State.fpQuiet_only {A : Nat} {s₀ : State} {s : State} {u : Issue} {op : Nat} {rd : Fin 32} {ra : Fin 32} {rb : Fin 32} {dbl : Bool} {f : Th → FpRes} {put : Th → Nat → Th} (hS : Only A s₀ s) (hA : Covers 0x188E20D0000868C0 A) :
    Only A s₀ (State.fpQuiet s u op rd ra rb dbl f put) := by
  unfold State.fpQuiet
  repeat' (first
    | with_reducible exact hS
    | with_reducible assumption
    | (with_reducible refine Covers.testBit hA ?_; decide)
    | (with_reducible refine Covers.trans ?_ hA; decide)
    | (refine fun _ => ?_; intros)
    | (extract_lets -underBinder +onlyGivenNames x; refine (fun (hx : Only A s₀ x) => ?_ : Only A s₀ x → _) ?_; (on_goal 2 => unfold x; clear x); (on_goal 1 => clear_value x; revert x; intro _ _))
    | (extract_lets -underBinder +onlyGivenNames x; unfold x; clear x)
    | (extract_lets -underBinder +onlyGivenNames x; revert x; intro _)
    | with_reducible refine State.put_only ?_ ?_
    | with_reducible refine State.issue_only ?_ ?_ ?_
    | with_reducible refine State.fpEnd_only ?_ ?_
    | exact Only.OfRes.trap
    | exact Only.OfRes.held
    | with_reducible refine Only.OfRes.acted ?_
    | with_reducible refine Only.OfRes.ite ?_ ?_
    | with_reducible refine Only.OfRes.elim (by assumption) ?_)

theorem State.fpFused_only {A : Nat} {s₀ : State} {s : State} {u : Issue} {op : Nat} {fd : Fin 32} {fa : Fin 32} {fb : Fin 32} {fc : Fin 32} {rm : Fin 8} {dbl : Bool} {negProd : Bool} {negC : Bool} (hS : Only A s₀ s) (hA : Covers 0x188E20D0000868C0 A) :
    Only A s₀ (State.fpFused s u op fd fa fb fc rm dbl negProd negC) := by
  unfold State.fpFused
  repeat' (first
    | with_reducible exact hS
    | with_reducible assumption
    | (with_reducible refine Covers.testBit hA ?_; decide)
    | (with_reducible refine Covers.trans ?_ hA; decide)
    | (refine fun _ => ?_; intros)
    | (extract_lets -underBinder +onlyGivenNames x; refine (fun (hx : Only A s₀ x) => ?_ : Only A s₀ x → _) ?_; (on_goal 2 => unfold x; clear x); (on_goal 1 => clear_value x; revert x; intro _ _))
    | (extract_lets -underBinder +onlyGivenNames x; unfold x; clear x)
    | (extract_lets -underBinder +onlyGivenNames x; revert x; intro _)
    | with_reducible refine Only.ite ?_ ?_
    | with_reducible refine State.issue_only ?_ ?_ ?_
    | with_reducible refine State.fpEnd_only ?_ ?_
    | exact Only.OfRes.trap
    | exact Only.OfRes.held
    | with_reducible refine Only.OfRes.acted ?_
    | with_reducible refine Only.OfRes.ite ?_ ?_
    | split
    | with_reducible refine Only.OfRes.elim (by assumption) ?_
    | (refine fun _ => ?_))

end Sys2Proof.Machine
end

