-- ==== Sys2Proof/Laws/ExecCoreFp.lean ====
section
/-! SUPPORT. What each command of Machine/CoreFp.lean may change. -/

set_option linter.unusedTactic false
set_option linter.unreachableTactic false
set_option linter.unusedVariables false

namespace Sys2Proof.Machine

theorem execFadd_only {A : Nat} {u : Issue} {fd : Fin 32} {fa : Fin 32} {fb : Fin 32} {rm : Fin 8} {dbl : Bool} {s : State} {t : State} (h : execFadd u fd fa fb rm dbl s = .next t) (hA : Covers 0x188E20D0000868C0 A) :
    Only A s t := by
  unfold execFadd at h
  injection h with h
  subst h
  have hS : Only A s s := Only.rfl
  repeat' (first
    | with_reducible exact hS
    | with_reducible assumption
    | (with_reducible refine Covers.testBit hA ?_; decide)
    | (with_reducible refine Covers.trans ?_ hA; decide)
    | (refine fun _ => ?_; intros)
    | with_reducible refine State.add_only ?_ ?_ ?_
    | with_reducible refine State.fpRound_only ?_ ?_)

theorem execFsub_only {A : Nat} {u : Issue} {fd : Fin 32} {fa : Fin 32} {fb : Fin 32} {rm : Fin 8} {dbl : Bool} {s : State} {t : State} (h : execFsub u fd fa fb rm dbl s = .next t) (hA : Covers 0x188E20D0000868C0 A) :
    Only A s t := by
  unfold execFsub at h
  injection h with h
  subst h
  have hS : Only A s s := Only.rfl
  repeat' (first
    | with_reducible exact hS
    | with_reducible assumption
    | (with_reducible refine Covers.testBit hA ?_; decide)
    | (with_reducible refine Covers.trans ?_ hA; decide)
    | (refine fun _ => ?_; intros)
    | with_reducible refine State.add_only ?_ ?_ ?_
    | with_reducible refine State.fpRound_only ?_ ?_)

theorem execFmul_only {A : Nat} {u : Issue} {fd : Fin 32} {fa : Fin 32} {fb : Fin 32} {rm : Fin 8} {dbl : Bool} {s : State} {t : State} (h : execFmul u fd fa fb rm dbl s = .next t) (hA : Covers 0x188E20D0000868C0 A) :
    Only A s t := by
  unfold execFmul at h
  injection h with h
  subst h
  have hS : Only A s s := Only.rfl
  repeat' (first
    | with_reducible exact hS
    | with_reducible assumption
    | (with_reducible refine Covers.testBit hA ?_; decide)
    | (with_reducible refine Covers.trans ?_ hA; decide)
    | (refine fun _ => ?_; intros)
    | with_reducible refine State.fpRound_only ?_ ?_)

theorem execFdiv_only {A : Nat} {u : Issue} {fd : Fin 32} {fa : Fin 32} {fb : Fin 32} {rm : Fin 8} {dbl : Bool} {s : State} {t : State} (h : execFdiv u fd fa fb rm dbl s = .next t) (hA : Covers 0x188E20D0000868C0 A) :
    Only A s t := by
  unfold execFdiv at h
  injection h with h
  subst h
  have hS : Only A s s := Only.rfl
  repeat' (first
    | with_reducible exact hS
    | with_reducible assumption
    | (with_reducible refine Covers.testBit hA ?_; decide)
    | (with_reducible refine Covers.trans ?_ hA; decide)
    | (refine fun _ => ?_; intros)
    | with_reducible refine State.fpRound_only ?_ ?_)

theorem execFsqrt_only {A : Nat} {u : Issue} {fd : Fin 32} {fa : Fin 32} {rm : Fin 8} {dbl : Bool} {s : State} {t : State} (h : execFsqrt u fd fa rm dbl s = .next t) (hA : Covers 0x188E20D0000868C0 A) :
    Only A s t := by
  unfold execFsqrt at h
  injection h with h
  subst h
  have hS : Only A s s := Only.rfl
  repeat' (first
    | with_reducible exact hS
    | with_reducible assumption
    | (with_reducible refine Covers.testBit hA ?_; decide)
    | (with_reducible refine Covers.trans ?_ hA; decide)
    | (refine fun _ => ?_; intros)
    | with_reducible refine State.fpRound_only ?_ ?_)

theorem execFmin_only {A : Nat} {u : Issue} {fd : Fin 32} {fa : Fin 32} {fb : Fin 32} {dbl : Bool} {s : State} {t : State} (h : execFmin u fd fa fb dbl s = .next t) (hA : Covers 0x188E20D0000868C0 A) :
    Only A s t := by
  unfold execFmin at h
  injection h with h
  subst h
  have hS : Only A s s := Only.rfl
  repeat' (first
    | with_reducible exact hS
    | with_reducible assumption
    | (with_reducible refine Covers.testBit hA ?_; decide)
    | (with_reducible refine Covers.trans ?_ hA; decide)
    | (refine fun _ => ?_; intros)
    | with_reducible refine State.fpQuiet_only ?_ ?_)

theorem execFmax_only {A : Nat} {u : Issue} {fd : Fin 32} {fa : Fin 32} {fb : Fin 32} {dbl : Bool} {s : State} {t : State} (h : execFmax u fd fa fb dbl s = .next t) (hA : Covers 0x188E20D0000868C0 A) :
    Only A s t := by
  unfold execFmax at h
  injection h with h
  subst h
  have hS : Only A s s := Only.rfl
  repeat' (first
    | with_reducible exact hS
    | with_reducible assumption
    | (with_reducible refine Covers.testBit hA ?_; decide)
    | (with_reducible refine Covers.trans ?_ hA; decide)
    | (refine fun _ => ?_; intros)
    | with_reducible refine State.fpQuiet_only ?_ ?_)

theorem execFeq_only {A : Nat} {u : Issue} {rd : Fin 32} {fa : Fin 32} {fb : Fin 32} {dbl : Bool} {s : State} {t : State} (h : execFeq u rd fa fb dbl s = .next t) (hA : Covers 0x188E20D0000868C0 A) :
    Only A s t := by
  unfold execFeq at h
  injection h with h
  subst h
  have hS : Only A s s := Only.rfl
  repeat' (first
    | with_reducible exact hS
    | with_reducible assumption
    | (with_reducible refine Covers.testBit hA ?_; decide)
    | (with_reducible refine Covers.trans ?_ hA; decide)
    | (refine fun _ => ?_; intros)
    | with_reducible refine State.fpQuiet_only ?_ ?_)

theorem execFlt_only {A : Nat} {u : Issue} {rd : Fin 32} {fa : Fin 32} {fb : Fin 32} {dbl : Bool} {s : State} {t : State} (h : execFlt u rd fa fb dbl s = .next t) (hA : Covers 0x188E20D0000868C0 A) :
    Only A s t := by
  unfold execFlt at h
  injection h with h
  subst h
  have hS : Only A s s := Only.rfl
  repeat' (first
    | with_reducible exact hS
    | with_reducible assumption
    | (with_reducible refine Covers.testBit hA ?_; decide)
    | (with_reducible refine Covers.trans ?_ hA; decide)
    | (refine fun _ => ?_; intros)
    | with_reducible refine State.fpQuiet_only ?_ ?_)

theorem execFle_only {A : Nat} {u : Issue} {rd : Fin 32} {fa : Fin 32} {fb : Fin 32} {dbl : Bool} {s : State} {t : State} (h : execFle u rd fa fb dbl s = .next t) (hA : Covers 0x188E20D0000868C0 A) :
    Only A s t := by
  unfold execFle at h
  injection h with h
  subst h
  have hS : Only A s s := Only.rfl
  repeat' (first
    | with_reducible exact hS
    | with_reducible assumption
    | (with_reducible refine Covers.testBit hA ?_; decide)
    | (with_reducible refine Covers.trans ?_ hA; decide)
    | (refine fun _ => ?_; intros)
    | with_reducible refine State.fpQuiet_only ?_ ?_)

theorem execFclass_only {A : Nat} {u : Issue} {rd : Fin 32} {fa : Fin 32} {dbl : Bool} {s : State} {t : State} (h : execFclass u rd fa dbl s = .next t) (hA : Covers 0x188E20D0000868C0 A) :
    Only A s t := by
  unfold execFclass at h
  injection h with h
  subst h
  have hS : Only A s s := Only.rfl
  repeat' (first
    | with_reducible exact hS
    | with_reducible assumption
    | (with_reducible refine Covers.testBit hA ?_; decide)
    | (with_reducible refine Covers.trans ?_ hA; decide)
    | (refine fun _ => ?_; intros)
    | with_reducible refine State.fpQuiet_only ?_ ?_)

theorem execFcvtw_only {A : Nat} {u : Issue} {rd : Fin 32} {fa : Fin 32} {rm : Fin 8} {dbl : Bool} {s : State} {t : State} (h : execFcvtw u rd fa rm dbl s = .next t) (hA : Covers 0x188E20D0000868C0 A) :
    Only A s t := by
  unfold execFcvtw at h
  injection h with h
  subst h
  have hS : Only A s s := Only.rfl
  repeat' (first
    | with_reducible exact hS
    | with_reducible assumption
    | (with_reducible refine Covers.testBit hA ?_; decide)
    | (with_reducible refine Covers.trans ?_ hA; decide)
    | (refine fun _ => ?_; intros)
    | with_reducible refine State.fpRound_only ?_ ?_)

theorem execFcvtwu_only {A : Nat} {u : Issue} {rd : Fin 32} {fa : Fin 32} {rm : Fin 8} {dbl : Bool} {s : State} {t : State} (h : execFcvtwu u rd fa rm dbl s = .next t) (hA : Covers 0x188E20D0000868C0 A) :
    Only A s t := by
  unfold execFcvtwu at h
  injection h with h
  subst h
  have hS : Only A s s := Only.rfl
  repeat' (first
    | with_reducible exact hS
    | with_reducible assumption
    | (with_reducible refine Covers.testBit hA ?_; decide)
    | (with_reducible refine Covers.trans ?_ hA; decide)
    | (refine fun _ => ?_; intros)
    | with_reducible refine State.fpRound_only ?_ ?_)

theorem execFcvtfw_only {A : Nat} {u : Issue} {fd : Fin 32} {ra : Fin 32} {rm : Fin 8} {dbl : Bool} {s : State} {t : State} (h : execFcvtfw u fd ra rm dbl s = .next t) (hA : Covers 0x188E20D0000868C0 A) :
    Only A s t := by
  unfold execFcvtfw at h
  injection h with h
  subst h
  have hS : Only A s s := Only.rfl
  repeat' (first
    | with_reducible exact hS
    | with_reducible assumption
    | (with_reducible refine Covers.testBit hA ?_; decide)
    | (with_reducible refine Covers.trans ?_ hA; decide)
    | (refine fun _ => ?_; intros)
    | with_reducible refine State.fpRound_only ?_ ?_)

theorem execFcvtfwu_only {A : Nat} {u : Issue} {fd : Fin 32} {ra : Fin 32} {rm : Fin 8} {dbl : Bool} {s : State} {t : State} (h : execFcvtfwu u fd ra rm dbl s = .next t) (hA : Covers 0x188E20D0000868C0 A) :
    Only A s t := by
  unfold execFcvtfwu at h
  injection h with h
  subst h
  have hS : Only A s s := Only.rfl
  repeat' (first
    | with_reducible exact hS
    | with_reducible assumption
    | (with_reducible refine Covers.testBit hA ?_; decide)
    | (with_reducible refine Covers.trans ?_ hA; decide)
    | (refine fun _ => ?_; intros)
    | with_reducible refine State.fpRound_only ?_ ?_)

theorem execFcvtp_only {A : Nat} {u : Issue} {fd : Fin 32} {fa : Fin 32} {rm : Fin 8} {dbl : Bool} {s : State} {t : State} (h : execFcvtp u fd fa rm dbl s = .next t) (hA : Covers 0x188E20D0000868C0 A) :
    Only A s t := by
  unfold execFcvtp at h
  injection h with h
  subst h
  have hS : Only A s s := Only.rfl
  repeat' (first
    | with_reducible exact hS
    | with_reducible assumption
    | (with_reducible refine Covers.testBit hA ?_; decide)
    | (with_reducible refine Covers.trans ?_ hA; decide)
    | (refine fun _ => ?_; intros)
    | with_reducible refine State.fpRound_only ?_ ?_)

theorem execFmvtoi_only {A : Nat} {u : Issue} {rd : Fin 32} {fa : Fin 32} {high : Bool} {s : State} {t : State} (h : execFmvtoi u rd fa high s = .next t) (hA : Covers 0x188E20D0000868C0 A) :
    Only A s t := by
  unfold execFmvtoi at h
  injection h with h
  subst h
  have hS : Only A s s := Only.rfl
  repeat' (first
    | with_reducible exact hS
    | with_reducible assumption
    | (with_reducible refine Covers.testBit hA ?_; decide)
    | (with_reducible refine Covers.trans ?_ hA; decide)
    | (refine fun _ => ?_; intros)
    | with_reducible refine Only.ite ?_ ?_
    | with_reducible refine State.fpQuiet_only ?_ ?_)

theorem execFmvfromi_only {A : Nat} {u : Issue} {fd : Fin 32} {ra : Fin 32} {high : Bool} {s : State} {t : State} (h : execFmvfromi u fd ra high s = .next t) (hA : Covers 0x188E20D0000868C0 A) :
    Only A s t := by
  unfold execFmvfromi at h
  injection h with h
  subst h
  have hS : Only A s s := Only.rfl
  repeat' (first
    | with_reducible exact hS
    | with_reducible assumption
    | (with_reducible refine Covers.testBit hA ?_; decide)
    | (with_reducible refine Covers.trans ?_ hA; decide)
    | (refine fun _ => ?_; intros)
    | with_reducible refine Only.ite ?_ ?_
    | with_reducible refine State.fpQuiet_only ?_ ?_)

theorem execFneg_only {A : Nat} {u : Issue} {fd : Fin 32} {fa : Fin 32} {dbl : Bool} {s : State} {t : State} (h : execFneg u fd fa dbl s = .next t) (hA : Covers 0x188E20D0000868C0 A) :
    Only A s t := by
  unfold execFneg at h
  injection h with h
  subst h
  have hS : Only A s s := Only.rfl
  repeat' (first
    | with_reducible exact hS
    | with_reducible assumption
    | (with_reducible refine Covers.testBit hA ?_; decide)
    | (with_reducible refine Covers.trans ?_ hA; decide)
    | (refine fun _ => ?_; intros)
    | with_reducible refine State.fpQuiet_only ?_ ?_)

theorem execFabs_only {A : Nat} {u : Issue} {fd : Fin 32} {fa : Fin 32} {dbl : Bool} {s : State} {t : State} (h : execFabs u fd fa dbl s = .next t) (hA : Covers 0x188E20D0000868C0 A) :
    Only A s t := by
  unfold execFabs at h
  injection h with h
  subst h
  have hS : Only A s s := Only.rfl
  repeat' (first
    | with_reducible exact hS
    | with_reducible assumption
    | (with_reducible refine Covers.testBit hA ?_; decide)
    | (with_reducible refine Covers.trans ?_ hA; decide)
    | (refine fun _ => ?_; intros)
    | with_reducible refine State.fpQuiet_only ?_ ?_)

theorem execFcopysign_only {A : Nat} {u : Issue} {fd : Fin 32} {fa : Fin 32} {fb : Fin 32} {dbl : Bool} {s : State} {t : State} (h : execFcopysign u fd fa fb dbl s = .next t) (hA : Covers 0x188E20D0000868C0 A) :
    Only A s t := by
  unfold execFcopysign at h
  injection h with h
  subst h
  have hS : Only A s s := Only.rfl
  repeat' (first
    | with_reducible exact hS
    | with_reducible assumption
    | (with_reducible refine Covers.testBit hA ?_; decide)
    | (with_reducible refine Covers.trans ?_ hA; decide)
    | (refine fun _ => ?_; intros)
    | with_reducible refine State.fpQuiet_only ?_ ?_)

theorem execFmadd_only {A : Nat} {u : Issue} {fd : Fin 32} {fa : Fin 32} {fb : Fin 32} {fc : Fin 32} {rm : Fin 8} {dbl : Bool} {s : State} {t : State} (h : execFmadd u fd fa fb fc rm dbl s = .next t) (hA : Covers 0x188E20D0000868C0 A) :
    Only A s t := by
  unfold execFmadd at h
  injection h with h
  subst h
  have hS : Only A s s := Only.rfl
  repeat' (first
    | with_reducible exact hS
    | with_reducible assumption
    | (with_reducible refine Covers.testBit hA ?_; decide)
    | (with_reducible refine Covers.trans ?_ hA; decide)
    | with_reducible refine State.fpFused_only ?_ ?_)

theorem execFmsub_only {A : Nat} {u : Issue} {fd : Fin 32} {fa : Fin 32} {fb : Fin 32} {fc : Fin 32} {rm : Fin 8} {dbl : Bool} {s : State} {t : State} (h : execFmsub u fd fa fb fc rm dbl s = .next t) (hA : Covers 0x188E20D0000868C0 A) :
    Only A s t := by
  unfold execFmsub at h
  injection h with h
  subst h
  have hS : Only A s s := Only.rfl
  repeat' (first
    | with_reducible exact hS
    | with_reducible assumption
    | (with_reducible refine Covers.testBit hA ?_; decide)
    | (with_reducible refine Covers.trans ?_ hA; decide)
    | with_reducible refine State.fpFused_only ?_ ?_)

theorem execFnmadd_only {A : Nat} {u : Issue} {fd : Fin 32} {fa : Fin 32} {fb : Fin 32} {fc : Fin 32} {rm : Fin 8} {dbl : Bool} {s : State} {t : State} (h : execFnmadd u fd fa fb fc rm dbl s = .next t) (hA : Covers 0x188E20D0000868C0 A) :
    Only A s t := by
  unfold execFnmadd at h
  injection h with h
  subst h
  have hS : Only A s s := Only.rfl
  repeat' (first
    | with_reducible exact hS
    | with_reducible assumption
    | (with_reducible refine Covers.testBit hA ?_; decide)
    | (with_reducible refine Covers.trans ?_ hA; decide)
    | with_reducible refine State.fpFused_only ?_ ?_)

theorem execFnmsub_only {A : Nat} {u : Issue} {fd : Fin 32} {fa : Fin 32} {fb : Fin 32} {fc : Fin 32} {rm : Fin 8} {dbl : Bool} {s : State} {t : State} (h : execFnmsub u fd fa fb fc rm dbl s = .next t) (hA : Covers 0x188E20D0000868C0 A) :
    Only A s t := by
  unfold execFnmsub at h
  injection h with h
  subst h
  have hS : Only A s s := Only.rfl
  repeat' (first
    | with_reducible exact hS
    | with_reducible assumption
    | (with_reducible refine Covers.testBit hA ?_; decide)
    | (with_reducible refine Covers.trans ?_ hA; decide)
    | with_reducible refine State.fpFused_only ?_ ?_)

theorem execFpComplete_only {A : Nat} {core : Fin 5} {thread : Fin 4} {k : Nat} {s : State} {t : State} (h : execFpComplete core thread k s = .next t) (hA : Covers 0x188E20D0000868C0 A) :
    Only A s t := by
  unfold execFpComplete at h
  injection h with h
  subst h
  have hS : Only A s s := Only.rfl
  repeat' (first
    | with_reducible exact hS
    | with_reducible assumption
    | (with_reducible refine Covers.testBit hA ?_; decide)
    | (with_reducible refine Covers.trans ?_ hA; decide)
    | with_reducible refine State.fpComplete_only ?_ ?_)

end Sys2Proof.Machine
end

