-- ==== Sys2Proof/Laws/ExecCoreMemory.lean ====
section
/-! SUPPORT. What each command of Machine/CoreMemory.lean may change. -/

set_option linter.unusedTactic false
set_option linter.unreachableTactic false
set_option linter.unusedVariables false

namespace Sys2Proof.Machine

theorem execLb_only {A : Nat} {u : Issue} {rd : Fin 32} {ra : Fin 32} {imm : BitVec 16} {s : State} {t : State} (h : execLb u rd ra imm s = .next t) (hA : Covers 0x188E20D0000868C0 A) :
    Only A s t := by
  unfold execLb at h
  injection h with h
  subst h
  have hS : Only A s s := Only.rfl
  repeat' (first
    | with_reducible exact hS
    | with_reducible assumption
    | (with_reducible refine Covers.testBit hA ?_; decide)
    | (with_reducible refine Covers.trans ?_ hA; decide)
    | with_reducible refine State.loadOp_only ?_ ?_)

theorem execLbu_only {A : Nat} {u : Issue} {rd : Fin 32} {ra : Fin 32} {imm : BitVec 16} {s : State} {t : State} (h : execLbu u rd ra imm s = .next t) (hA : Covers 0x188E20D0000868C0 A) :
    Only A s t := by
  unfold execLbu at h
  injection h with h
  subst h
  have hS : Only A s s := Only.rfl
  repeat' (first
    | with_reducible exact hS
    | with_reducible assumption
    | (with_reducible refine Covers.testBit hA ?_; decide)
    | (with_reducible refine Covers.trans ?_ hA; decide)
    | with_reducible refine State.loadOp_only ?_ ?_)

theorem execLh_only {A : Nat} {u : Issue} {rd : Fin 32} {ra : Fin 32} {imm : BitVec 16} {s : State} {t : State} (h : execLh u rd ra imm s = .next t) (hA : Covers 0x188E20D0000868C0 A) :
    Only A s t := by
  unfold execLh at h
  injection h with h
  subst h
  have hS : Only A s s := Only.rfl
  repeat' (first
    | with_reducible exact hS
    | with_reducible assumption
    | (with_reducible refine Covers.testBit hA ?_; decide)
    | (with_reducible refine Covers.trans ?_ hA; decide)
    | with_reducible refine State.loadOp_only ?_ ?_)

theorem execLhu_only {A : Nat} {u : Issue} {rd : Fin 32} {ra : Fin 32} {imm : BitVec 16} {s : State} {t : State} (h : execLhu u rd ra imm s = .next t) (hA : Covers 0x188E20D0000868C0 A) :
    Only A s t := by
  unfold execLhu at h
  injection h with h
  subst h
  have hS : Only A s s := Only.rfl
  repeat' (first
    | with_reducible exact hS
    | with_reducible assumption
    | (with_reducible refine Covers.testBit hA ?_; decide)
    | (with_reducible refine Covers.trans ?_ hA; decide)
    | with_reducible refine State.loadOp_only ?_ ?_)

theorem execLw_only {A : Nat} {u : Issue} {rd : Fin 32} {ra : Fin 32} {imm : BitVec 16} {s : State} {t : State} (h : execLw u rd ra imm s = .next t) (hA : Covers 0x188E20D0000868C0 A) :
    Only A s t := by
  unfold execLw at h
  injection h with h
  subst h
  have hS : Only A s s := Only.rfl
  repeat' (first
    | with_reducible exact hS
    | with_reducible assumption
    | (with_reducible refine Covers.testBit hA ?_; decide)
    | (with_reducible refine Covers.trans ?_ hA; decide)
    | with_reducible refine State.loadOp_only ?_ ?_)

theorem execSb_only {A : Nat} {u : Issue} {rs : Fin 32} {ra : Fin 32} {imm : BitVec 16} {s : State} {t : State} (h : execSb u rs ra imm s = .next t) (hA : Covers 0x188E20D0000868C0 A) :
    Only A s t := by
  unfold execSb at h
  injection h with h
  subst h
  have hS : Only A s s := Only.rfl
  repeat' (first
    | with_reducible exact hS
    | with_reducible assumption
    | (with_reducible refine Covers.testBit hA ?_; decide)
    | (with_reducible refine Covers.trans ?_ hA; decide)
    | with_reducible refine State.storeOp_only ?_ ?_)

theorem execSh_only {A : Nat} {u : Issue} {rs : Fin 32} {ra : Fin 32} {imm : BitVec 16} {s : State} {t : State} (h : execSh u rs ra imm s = .next t) (hA : Covers 0x188E20D0000868C0 A) :
    Only A s t := by
  unfold execSh at h
  injection h with h
  subst h
  have hS : Only A s s := Only.rfl
  repeat' (first
    | with_reducible exact hS
    | with_reducible assumption
    | (with_reducible refine Covers.testBit hA ?_; decide)
    | (with_reducible refine Covers.trans ?_ hA; decide)
    | with_reducible refine State.storeOp_only ?_ ?_)

theorem execSw_only {A : Nat} {u : Issue} {rs : Fin 32} {ra : Fin 32} {imm : BitVec 16} {s : State} {t : State} (h : execSw u rs ra imm s = .next t) (hA : Covers 0x188E20D0000868C0 A) :
    Only A s t := by
  unfold execSw at h
  injection h with h
  subst h
  have hS : Only A s s := Only.rfl
  repeat' (first
    | with_reducible exact hS
    | with_reducible assumption
    | (with_reducible refine Covers.testBit hA ?_; decide)
    | (with_reducible refine Covers.trans ?_ hA; decide)
    | with_reducible refine State.storeOp_only ?_ ?_)

theorem execLdp_only {A : Nat} {u : Issue} {rd : Fin 32} {ra : Fin 32} {imm : BitVec 16} {s : State} {t : State} (h : execLdp u rd ra imm s = .next t) (hA : Covers 0x188E20D0000868C0 A) :
    Only A s t := by
  unfold execLdp at h
  injection h with h
  subst h
  have hS : Only A s s := Only.rfl
  repeat' (first
    | with_reducible exact hS
    | with_reducible assumption
    | (with_reducible refine Covers.testBit hA ?_; decide)
    | (with_reducible refine Covers.trans ?_ hA; decide)
    | with_reducible refine State.wideLoad_only ?_ ?_)

theorem execStp_only {A : Nat} {u : Issue} {rs : Fin 32} {ra : Fin 32} {imm : BitVec 16} {s : State} {t : State} (h : execStp u rs ra imm s = .next t) (hA : Covers 0x188E20D0000868C0 A) :
    Only A s t := by
  unfold execStp at h
  injection h with h
  subst h
  have hS : Only A s s := Only.rfl
  repeat' (first
    | with_reducible exact hS
    | with_reducible assumption
    | (with_reducible refine Covers.testBit hA ?_; decide)
    | (with_reducible refine Covers.trans ?_ hA; decide)
    | (refine fun _ => ?_; intros)
    | with_reducible refine State.wideStore_only ?_ ?_)

theorem execFlw_only {A : Nat} {u : Issue} {fd : Fin 32} {ra : Fin 32} {imm : BitVec 16} {s : State} {t : State} (h : execFlw u fd ra imm s = .next t) (hA : Covers 0x188E20D0000868C0 A) :
    Only A s t := by
  unfold execFlw at h
  injection h with h
  subst h
  have hS : Only A s s := Only.rfl
  repeat' (first
    | with_reducible exact hS
    | with_reducible assumption
    | (with_reducible refine Covers.testBit hA ?_; decide)
    | (with_reducible refine Covers.trans ?_ hA; decide)
    | (refine fun _ => ?_; intros)
    | with_reducible refine State.issue_only ?_ ?_ ?_
    | with_reducible refine State.accesses_only ?_ ?_
    | exact Only.OfRes.trap
    | exact Only.OfRes.held
    | with_reducible refine Only.OfRes.acted ?_
    | with_reducible refine Only.OfRes.ite ?_ ?_
    | with_reducible refine Only.OfRes.elim (by assumption) ?_)

theorem execFld_only {A : Nat} {u : Issue} {fd : Fin 32} {ra : Fin 32} {imm : BitVec 16} {s : State} {t : State} (h : execFld u fd ra imm s = .next t) (hA : Covers 0x188E20D0000868C0 A) :
    Only A s t := by
  unfold execFld at h
  injection h with h
  subst h
  have hS : Only A s s := Only.rfl
  repeat' (first
    | with_reducible exact hS
    | with_reducible assumption
    | (with_reducible refine Covers.testBit hA ?_; decide)
    | (with_reducible refine Covers.trans ?_ hA; decide)
    | with_reducible refine State.wideLoad_only ?_ ?_)

theorem execFsw_only {A : Nat} {u : Issue} {fs : Fin 32} {ra : Fin 32} {imm : BitVec 16} {s : State} {t : State} (h : execFsw u fs ra imm s = .next t) (hA : Covers 0x188E20D0000868C0 A) :
    Only A s t := by
  unfold execFsw at h
  injection h with h
  subst h
  have hS : Only A s s := Only.rfl
  repeat' (first
    | with_reducible exact hS
    | with_reducible assumption
    | (with_reducible refine Covers.testBit hA ?_; decide)
    | (with_reducible refine Covers.trans ?_ hA; decide)
    | (refine fun _ => ?_; intros)
    | (extract_lets -underBinder +onlyGivenNames x; refine (fun (hx : Only A s₀ x) => ?_ : Only A s₀ x → _) ?_; (on_goal 2 => unfold x; clear x); (on_goal 1 => clear_value x; revert x; intro _ _))
    | (extract_lets -underBinder +onlyGivenNames x; unfold x; clear x)
    | (extract_lets -underBinder +onlyGivenNames x; revert x; intro _)
    | with_reducible refine State.issue_only ?_ ?_ ?_
    | with_reducible refine State.accesses_only ?_ ?_
    | exact Only.OfRes.trap
    | exact Only.OfRes.held
    | with_reducible refine Only.OfRes.acted ?_
    | with_reducible refine Only.OfRes.ite ?_ ?_
    | with_reducible refine Only.OfRes.elim (by assumption) ?_)

theorem execFsd_only {A : Nat} {u : Issue} {fs : Fin 32} {ra : Fin 32} {imm : BitVec 16} {s : State} {t : State} (h : execFsd u fs ra imm s = .next t) (hA : Covers 0x188E20D0000868C0 A) :
    Only A s t := by
  unfold execFsd at h
  injection h with h
  subst h
  have hS : Only A s s := Only.rfl
  repeat' (first
    | with_reducible exact hS
    | with_reducible assumption
    | (with_reducible refine Covers.testBit hA ?_; decide)
    | (with_reducible refine Covers.trans ?_ hA; decide)
    | (refine fun _ => ?_; intros)
    | with_reducible refine State.wideStore_only ?_ ?_)

theorem execAmoadd_only {A : Nat} {u : Issue} {rd : Fin 32} {ra : Fin 32} {rb : Fin 32} {s : State} {t : State} (h : execAmoadd u rd ra rb s = .next t) (hA : Covers 0x188E20D0000868C0 A) :
    Only A s t := by
  unfold execAmoadd at h
  injection h with h
  subst h
  have hS : Only A s s := Only.rfl
  repeat' (first
    | with_reducible exact hS
    | with_reducible assumption
    | (with_reducible refine Covers.testBit hA ?_; decide)
    | (with_reducible refine Covers.trans ?_ hA; decide)
    | with_reducible refine State.amoOp_only ?_ ?_)

theorem execAmoswap_only {A : Nat} {u : Issue} {rd : Fin 32} {ra : Fin 32} {rb : Fin 32} {s : State} {t : State} (h : execAmoswap u rd ra rb s = .next t) (hA : Covers 0x188E20D0000868C0 A) :
    Only A s t := by
  unfold execAmoswap at h
  injection h with h
  subst h
  have hS : Only A s s := Only.rfl
  repeat' (first
    | with_reducible exact hS
    | with_reducible assumption
    | (with_reducible refine Covers.testBit hA ?_; decide)
    | (with_reducible refine Covers.trans ?_ hA; decide)
    | with_reducible refine State.amoOp_only ?_ ?_)

end Sys2Proof.Machine
end

