-- ==== Sys2Proof/Laws/ExecCoreThreads.lean ====
section
/-! SUPPORT. What each command of Machine/CoreThreads.lean may change. -/

set_option linter.unusedTactic false
set_option linter.unreachableTactic false
set_option linter.unusedVariables false

namespace Sys2Proof.Machine

theorem execImpreciseTrap_only {A : Nat} {core : Fin 5} {thread : Fin 4} {late : Fin 16} {s : State} {t : State} (h : execImpreciseTrap core thread late s = .next t) (hA : Covers 0x188E20D0000868C0 A) :
    Only A s t := by
  unfold execImpreciseTrap at h
  injection h with h
  subst h
  have hS : Only A s s := Only.rfl
  repeat' (first
    | with_reducible exact hS
    | with_reducible assumption
    | (with_reducible refine Covers.testBit hA ?_; decide)
    | (with_reducible refine Covers.trans ?_ hA; decide)
    | with_reducible refine Only.ite ?_ ?_
    | with_reducible refine State.deliverEvent_only ?_ ?_
    | with_reducible refine State.deliverWaiting_only ?_ ?_
    | exact Only.Opt.none
    | with_reducible refine Only.Opt.some ?_
    | with_reducible refine Only.Opt.ite ?_ ?_
    | with_reducible refine Only.Opt.getD ?_ ?_
    | with_reducible refine Only.Opt.map ?_
    | with_reducible refine Only.Opt.elim (by assumption) ?_)

theorem execThreadStart_only {A : Nat} {core : Fin 5} {thread : Fin 4} {s : State} {t : State} (h : execThreadStart core thread s = .next t) (hA : Covers 0x180E2000000068C0 A) :
    Only A s t := by
  unfold execThreadStart at h
  injection h with h
  subst h
  have hS : Only A s s := Only.rfl
  repeat' (first
    | with_reducible exact hS
    | with_reducible assumption
    | (with_reducible refine Covers.testBit hA ?_; decide)
    | (with_reducible refine Covers.trans ?_ hA; decide)
    | with_reducible refine State.writeThrCmd_only ?_ ?_)

theorem execThreadStop_only {A : Nat} {core : Fin 5} {thread : Fin 4} {s : State} {t : State} (h : execThreadStop core thread s = .next t) (hA : Covers 0x180E2000000068C0 A) :
    Only A s t := by
  unfold execThreadStop at h
  injection h with h
  subst h
  have hS : Only A s s := Only.rfl
  repeat' (first
    | with_reducible exact hS
    | with_reducible assumption
    | (with_reducible refine Covers.testBit hA ?_; decide)
    | (with_reducible refine Covers.trans ?_ hA; decide)
    | with_reducible refine State.writeThrCmd_only ?_ ?_)

theorem execThreadWake_only {A : Nat} {core : Fin 5} {thread : Fin 4} {s : State} {t : State} (h : execThreadWake core thread s = .next t) (hA : Covers 0x18022000000040C0 A) :
    Only A s t := by
  unfold execThreadWake at h
  injection h with h
  subst h
  have hS : Only A s s := Only.rfl
  repeat' (first
    | with_reducible exact hS
    | with_reducible assumption
    | (with_reducible refine Covers.testBit hA ?_; decide)
    | (with_reducible refine Covers.trans ?_ hA; decide)
    | with_reducible refine State.wakeThread_only ?_ ?_)

theorem execThreadEventsWrite_only {A : Nat} {core : Fin 5} {thread : Fin 4} {events : BitVec 16} {s : State} {t : State} (h : execThreadEventsWrite core thread events s = .next t) (hA : Covers 0x2000000000000 A) :
    Only A s t := by
  unfold execThreadEventsWrite at h
  injection h with h
  subst h
  have hS : Only A s s := Only.rfl
  repeat' (first
    | with_reducible exact hS
    | with_reducible assumption
    | (with_reducible refine Covers.testBit hA ?_; decide)
    | (with_reducible refine Covers.trans ?_ hA; decide)
    | with_reducible refine State.softEvents_only ?_ ?_)

theorem execThreadTimerStart_only {A : Nat} {core : Fin 5} {thread : Fin 4} {s : State} {t : State} (h : execThreadTimerStart core thread s = .next t) (hA : Covers 0x2000000004000 A) :
    Only A s t := by
  unfold execThreadTimerStart at h
  injection h with h
  subst h
  have hS : Only A s s := Only.rfl
  repeat' (first
    | with_reducible exact hS
    | with_reducible assumption
    | (with_reducible refine Covers.testBit hA ?_; decide)
    | (with_reducible refine Covers.trans ?_ hA; decide)
    | with_reducible refine Only.ite ?_ ?_
    | with_reducible refine State.timerStart_only ?_ ?_)

theorem execThreadTimerStop_only {A : Nat} {core : Fin 5} {thread : Fin 4} {s : State} {t : State} (h : execThreadTimerStop core thread s = .next t) (hA : Covers 0x4000 A) :
    Only A s t := by
  unfold execThreadTimerStop at h
  injection h with h
  subst h
  have hS : Only A s s := Only.rfl
  repeat' (first
    | with_reducible exact hS
    | with_reducible assumption
    | (with_reducible refine Covers.testBit hA ?_; decide)
    | (with_reducible refine Covers.trans ?_ hA; decide)
    | with_reducible refine Only.ite ?_ ?_
    | with_reducible refine State.timerStop_only ?_ ?_)

theorem execThreadTimerExpiry_only {A : Nat} {core : Fin 5} {thread : Fin 4} {s : State} {t : State} (h : execThreadTimerExpiry core thread s = .next t) (hA : Covers 0x2000000004000 A) :
    Only A s t := by
  unfold execThreadTimerExpiry at h
  injection h with h
  subst h
  have hS : Only A s s := Only.rfl
  repeat' (first
    | with_reducible exact hS
    | with_reducible assumption
    | (with_reducible refine Covers.testBit hA ?_; decide)
    | (with_reducible refine Covers.trans ?_ hA; decide)
    | with_reducible refine Only.ite ?_ ?_
    | with_reducible refine State.thrTimerExpiry_only ?_ ?_)

theorem execStarvationIssue_only {A : Nat} {core : Fin 4} {thread : Fin 4} {s : State} {t : State} (h : execStarvationIssue core thread s = .next t) (hA : Covers 0x2000000000000 A) :
    Only A s t := by
  unfold execStarvationIssue at h
  injection h with h
  subst h
  have hS : Only A s s := Only.rfl
  repeat' (first
    | with_reducible exact hS
    | with_reducible assumption
    | (with_reducible refine Covers.testBit hA ?_; decide)
    | (with_reducible refine Covers.trans ?_ hA; decide)
    | with_reducible refine State.starved_only ?_ ?_)

theorem execBlackout_only {A : Nat} {s : State} {t : State} (h : execBlackout s = .next t) (hA : Covers 0x188E20D0000868C0 A) :
    Only A s t := by
  unfold execBlackout at h
  injection h with h
  subst h
  have hS : Only A s s := Only.rfl
  repeat' (first
    | with_reducible exact hS
    | with_reducible assumption
    | (with_reducible refine Covers.testBit hA ?_; decide)
    | (with_reducible refine Covers.trans ?_ hA; decide)
    | with_reducible refine State.blackoutFires_only ?_ ?_)

end Sys2Proof.Machine
end

