-- ==== Sys2Proof/Laws/OnlyArray.lean ====
section
/-! SUPPORT. What each operation of Machine/Array.lean may change. -/

set_option linter.unusedTactic false
set_option linter.unreachableTactic false
set_option linter.unusedVariables false

namespace Sys2Proof.Machine

theorem State.setPlane_only {A : Nat} {s₀ : State} {s : State} {a : Nat} {v : Nat} {mask : Nat} (hS : Only A s₀ s) (hA : Covers 0x184000000000 A) :
    Only A s₀ (State.setPlane s a v mask) := by
  unfold State.setPlane
  repeat' (first
    | with_reducible exact hS
    | with_reducible assumption
    | (with_reducible refine Covers.testBit hA ?_; decide)
    | (with_reducible refine Covers.trans ?_ hA; decide)
    | (refine fun _ => ?_; intros)
    | with_reducible refine Only.ite ?_ ?_
    | split
    | with_reducible refine Only.set_pri ?_ ?_
    | with_reducible refine Only.set_mem ?_ ?_ ?_
    | exact Sparse.wf_upd _ _ _ _
    | exact Sparse.wf_set _ _ _ _
    | exact Sparse.wf_filter _ _ _
    | exact Sparse.wf_keep _ _ _
    | exact Sparse.wf_filter _ _ _ (by assumption)
    | exact Sparse.wf_keep _ _ _ (by assumption)
    | exact Sparse.wf_upd _ _ _ _ (by assumption)
    | with_reducible refine Only.set_arr ?_ ?_
    | (refine fun _ => ?_))

theorem State.setPortPlane_only {A : Nat} {s₀ : State} {s : State} {a : Nat} {v : Nat} {mask : Nat} (hS : Only A s₀ s) (hA : Covers 0x184000000000 A) :
    Only A s₀ (State.setPortPlane s a v mask) := by
  unfold State.setPortPlane
  repeat' (first
    | with_reducible exact hS
    | with_reducible assumption
    | (with_reducible refine Covers.testBit hA ?_; decide)
    | (with_reducible refine Covers.trans ?_ hA; decide)
    | (refine fun _ => ?_; intros)
    | with_reducible refine Only.ite ?_ ?_
    | with_reducible refine State.setPlane_only ?_ ?_
    | with_reducible refine Only.set_pri ?_ ?_)

theorem State.progPlane_only {A : Nat} {s₀ : State} {s : State} {a : Nat} {v : Nat} {mask : Nat} (hS : Only A s₀ s) (hA : Covers 0x800184000000040 A) :
    Only A s₀ (State.progPlane s a v mask) := by
  unfold State.progPlane
  repeat' (first
    | with_reducible exact hS
    | with_reducible assumption
    | (with_reducible refine Covers.testBit hA ?_; decide)
    | (with_reducible refine Covers.trans ?_ hA; decide)
    | with_reducible refine Only.ite ?_ ?_
    | with_reducible refine State.err_only ?_ ?_ ?_
    | with_reducible refine State.setPlane_only ?_ ?_)

theorem State.arrayOpWith_only {A : Nat} {s₀ : State} {s : State} {o : ArrayOp} {b : Nat} (hS : Only A s₀ s) (hA : Covers 0x800184000000040 A) :
    Only A s₀ (State.arrayOpWith s o b) := by
  unfold State.arrayOpWith
  repeat' (first
    | with_reducible exact hS
    | with_reducible assumption
    | (with_reducible refine Covers.testBit hA ?_; decide)
    | (with_reducible refine Covers.trans ?_ hA; decide)
    | (extract_lets -underBinder +onlyGivenNames x; refine (fun (hx : Only A s₀ x) => ?_ : Only A s₀ x → _) ?_; (on_goal 2 => unfold x; clear x); (on_goal 1 => clear_value x; revert x; intro _ _))
    | (extract_lets -underBinder +onlyGivenNames x; unfold x; clear x)
    | (extract_lets -underBinder +onlyGivenNames x; revert x; intro _)
    | with_reducible refine Only.ite ?_ ?_
    | with_reducible refine State.progPlane_only ?_ ?_
    | split
    | with_reducible refine Only.set_arr ?_ ?_
    | (refine fun _ => ?_))

theorem State.whaloMiss_only {A : Nat} {s₀ : State} {s : State} {miss : Bool} (hS : Only A s₀ s) (hA : Covers 0x1800000000000020 A) :
    Only A s₀ (State.whaloMiss s miss) := by
  unfold State.whaloMiss
  repeat' (first
    | with_reducible exact hS
    | with_reducible assumption
    | (with_reducible refine Covers.testBit hA ?_; decide)
    | (with_reducible refine Covers.trans ?_ hA; decide)
    | with_reducible refine Only.ite ?_ ?_
    | with_reducible refine State.inc_only ?_ ?_ ?_
    | with_reducible refine State.err_only ?_ ?_ ?_)

theorem State.arrayOp_only {A : Nat} {s₀ : State} {s : State} {o : ArrayOp} (hS : Only A s₀ s) (hA : Covers 0x1800184000000060 A) :
    Only A s₀ (State.arrayOp s o) := by
  unfold State.arrayOp
  repeat' (first
    | with_reducible exact hS
    | with_reducible assumption
    | (with_reducible refine Covers.testBit hA ?_; decide)
    | (with_reducible refine Covers.trans ?_ hA; decide)
    | (extract_lets -underBinder +onlyGivenNames x; refine (fun (hx : Only A s₀ x) => ?_ : Only A s₀ x → _) ?_; (on_goal 2 => unfold x; clear x); (on_goal 1 => clear_value x; revert x; intro _ _))
    | (extract_lets -underBinder +onlyGivenNames x; unfold x; clear x)
    | (extract_lets -underBinder +onlyGivenNames x; revert x; intro _)
    | with_reducible refine State.arrayOpWith_only ?_ ?_
    | with_reducible refine State.whaloMiss_only ?_ ?_
    | split)

theorem State.offerWords_only {A : Nat} {s₀ : State} {s : State} {n : Nat} (hS : Only A s₀ s) (hA : Covers 0x1000000000000020 A) :
    Only A s₀ (State.offerWords s n) := by
  unfold State.offerWords
  repeat' (first
    | with_reducible exact hS
    | with_reducible assumption
    | (with_reducible refine Covers.testBit hA ?_; decide)
    | (with_reducible refine Covers.trans ?_ hA; decide)
    | (refine fun _ => ?_; intros)
    | with_reducible refine Only.ite ?_ ?_
    | with_reducible refine State.add_only ?_ ?_ ?_
    | with_reducible refine Only.foldl _ ?_ ?_
    | with_reducible refine Only.Fst.ite ?_ ?_
    | with_reducible refine Only.Fst.unpair (by assumption)
    | with_reducible refine Only.Fst.foldl _ ?_ ?_
    | with_reducible refine Only.Fst.of ?_
    | with_reducible refine Only.Fst.pair ?_
    | with_reducible refine Only.Fst.elim (by assumption) ?_)

theorem State.offerHalo_only {A : Nat} {s₀ : State} {s : State} {d : BSrc} {n : Nat} (hS : Only A s₀ s) (hA : Covers 0x1000000000000020 A) :
    Only A s₀ (State.offerHalo s d n) := by
  unfold State.offerHalo
  repeat' (first
    | with_reducible exact hS
    | with_reducible assumption
    | (with_reducible refine Covers.testBit hA ?_; decide)
    | (with_reducible refine Covers.trans ?_ hA; decide)
    | (refine fun _ => ?_; intros)
    | with_reducible refine Only.ite ?_ ?_
    | with_reducible refine State.add_only ?_ ?_ ?_
    | with_reducible refine Only.foldl _ ?_ ?_
    | with_reducible refine Only.Fst.ite ?_ ?_
    | with_reducible refine Only.Fst.unpair (by assumption)
    | with_reducible refine Only.Fst.foldl _ ?_ ?_
    | split
    | with_reducible refine Only.Fst.of ?_
    | with_reducible refine Only.Fst.pair ?_
    | with_reducible refine Only.Fst.elim (by assumption) ?_
    | (refine fun _ => ?_))

theorem State.clearIsland_only {A : Nat} {s₀ : State} {s : State} {i : Nat} (hS : Only A s₀ s) (hA : Covers 0x184000000000 A) :
    Only A s₀ (State.clearIsland s i) := by
  unfold State.clearIsland
  repeat' (first
    | with_reducible exact hS
    | with_reducible assumption
    | (with_reducible refine Covers.testBit hA ?_; decide)
    | (with_reducible refine Covers.trans ?_ hA; decide)
    | (refine fun _ => ?_; intros)
    | (extract_lets -underBinder +onlyGivenNames x; refine (fun (hx : Only A s₀ x) => ?_ : Only A s₀ x → _) ?_; (on_goal 2 => unfold x; clear x); (on_goal 1 => clear_value x; revert x; intro _ _))
    | (extract_lets -underBinder +onlyGivenNames x; unfold x; clear x)
    | (extract_lets -underBinder +onlyGivenNames x; revert x; intro _)
    | with_reducible refine Only.set_pri_arr ?_ ?_ ?_)

end Sys2Proof.Machine
end

