-- ==== Sys2Proof/Laws/OnlyLibrary.lean ====
section
/-! SUPPORT. What each operation of Machine/Library.lean may change. -/

set_option linter.unusedTactic false
set_option linter.unreachableTactic false
set_option linter.unusedVariables false

namespace Sys2Proof.Machine

theorem State.setField_only {A : Nat} {s₀ : State} {s : State} {a : Nat} {mask : Nat} {ps : List Nat} (hS : Only A s₀ s) (hA : Covers 0x800184000000040 A) :
    Only A s₀ (State.setField s a mask ps) := by
  unfold State.setField
  repeat' (first
    | with_reducible exact hS
    | with_reducible assumption
    | (with_reducible refine Covers.testBit hA ?_; decide)
    | (with_reducible refine Covers.trans ?_ hA; decide)
    | (refine fun _ => ?_; intros)
    | with_reducible refine State.progPlane_only ?_ ?_
    | with_reducible refine Only.foldl _ ?_ ?_
    | with_reducible refine Only.Fst.ite ?_ ?_
    | with_reducible refine Only.Fst.unpair (by assumption)
    | with_reducible refine Only.Fst.foldl _ ?_ ?_
    | with_reducible refine Only.Fst.of ?_
    | with_reducible refine Only.Fst.pair ?_
    | with_reducible refine Only.Fst.elim (by assumption) ?_)

theorem State.freePlane_only {A : Nat} {s₀ : State} {s : State} {a : Nat} {mask : Nat} (hS : Only A s₀ s) (hA : Covers 0x800185000000040 A) :
    Only A s₀ (State.freePlane s a mask) := by
  unfold State.freePlane
  repeat' (first
    | with_reducible exact hS
    | with_reducible assumption
    | (with_reducible refine Covers.testBit hA ?_; decide)
    | (with_reducible refine Covers.trans ?_ hA; decide)
    | with_reducible refine State.tookFree_only ?_ ?_
    | with_reducible refine State.progPlane_only ?_ ?_)

theorem State.freeField_only {A : Nat} {s₀ : State} {s : State} {a : Nat} {mask : Nat} {n : Nat} (hS : Only A s₀ s) (hA : Covers 0x800185000000040 A) :
    Only A s₀ (State.freeField s a mask n) := by
  unfold State.freeField
  repeat' (first
    | with_reducible exact hS
    | with_reducible assumption
    | (with_reducible refine Covers.testBit hA ?_; decide)
    | (with_reducible refine Covers.trans ?_ hA; decide)
    | (refine fun _ => ?_; intros)
    | with_reducible refine State.freePlane_only ?_ ?_
    | with_reducible refine Only.foldl _ ?_ ?_
    | with_reducible refine Only.Fst.ite ?_ ?_
    | with_reducible refine Only.Fst.unpair (by assumption)
    | with_reducible refine Only.Fst.foldl _ ?_ ?_
    | with_reducible refine Only.Fst.of ?_
    | with_reducible refine Only.Fst.pair ?_
    | with_reducible refine Only.Fst.elim (by assumption) ?_)

theorem State.libMissed_only {A : Nat} {s₀ : State} {s : State} {miss : Bool} (hS : Only A s₀ s) (hA : Covers 0x1800001000000020 A) :
    Only A s₀ (State.libMissed s miss) := by
  unfold State.libMissed
  repeat' (first
    | with_reducible exact hS
    | with_reducible assumption
    | (with_reducible refine Covers.testBit hA ?_; decide)
    | (with_reducible refine Covers.trans ?_ hA; decide)
    | with_reducible refine Only.ite ?_ ?_
    | with_reducible refine State.add_only ?_ ?_ ?_
    | with_reducible refine State.err_only ?_ ?_ ?_
    | with_reducible refine State.tookFree_only ?_ ?_)

theorem State.libRegs_only {A : Nat} {s₀ : State} {s : State} {ex : Nat} {on : Nat} {o : LibOut} (hS : Only A s₀ s) (hA : Covers 0x101000000000 A) :
    Only A s₀ (State.libRegs s ex on o) := by
  unfold State.libRegs
  repeat' (first
    | with_reducible exact hS
    | with_reducible assumption
    | (with_reducible refine Covers.testBit hA ?_; decide)
    | (with_reducible refine Covers.trans ?_ hA; decide)
    | (extract_lets -underBinder +onlyGivenNames x; refine (fun (hx : Only A s₀ x) => ?_ : Only A s₀ x → _) ?_; (on_goal 2 => unfold x; clear x); (on_goal 1 => clear_value x; revert x; intro _ _))
    | (extract_lets -underBinder +onlyGivenNames x; unfold x; clear x)
    | (extract_lets -underBinder +onlyGivenNames x; revert x; intro _)
    | split
    | with_reducible refine Only.set_freeCount_arr ?_ ?_ ?_
    | (refine fun _ => ?_))

theorem State.libFinish_only {A : Nat} {s₀ : State} {s : State} {p : LibPlan} (hS : Only A s₀ s) (hA : Covers 0x1800185000000060 A) :
    Only A s₀ (State.libFinish s p) := by
  unfold State.libFinish
  repeat' (first
    | with_reducible exact hS
    | with_reducible assumption
    | (with_reducible refine Covers.testBit hA ?_; decide)
    | (with_reducible refine Covers.trans ?_ hA; decide)
    | (extract_lets -underBinder +onlyGivenNames x; refine (fun (hx : Only A s₀ x) => ?_ : Only A s₀ x → _) ?_; (on_goal 2 => unfold x; clear x); (on_goal 1 => clear_value x; revert x; intro _ _))
    | (extract_lets -underBinder +onlyGivenNames x; unfold x; clear x)
    | (extract_lets -underBinder +onlyGivenNames x; revert x; intro _)
    | with_reducible refine Only.ite ?_ ?_
    | with_reducible refine State.progPlane_only ?_ ?_
    | with_reducible refine State.setField_only ?_ ?_
    | with_reducible refine State.freeField_only ?_ ?_
    | with_reducible refine State.libMissed_only ?_ ?_
    | with_reducible refine State.libRegs_only ?_ ?_
    | with_reducible refine Only.set_arr ?_ ?_)

theorem State.libPartial_only {A : Nat} {s₀ : State} {s : State} {p : LibPlan} (hS : Only A s₀ s) (hA : Covers 0x800185000000040 A) :
    Only A s₀ (State.libPartial s p) := by
  unfold State.libPartial
  repeat' (first
    | with_reducible exact hS
    | with_reducible assumption
    | (with_reducible refine Covers.testBit hA ?_; decide)
    | (with_reducible refine Covers.trans ?_ hA; decide)
    | (extract_lets -underBinder +onlyGivenNames x; refine (fun (hx : Only A s₀ x) => ?_ : Only A s₀ x → _) ?_; (on_goal 2 => unfold x; clear x); (on_goal 1 => clear_value x; revert x; intro _ _))
    | (extract_lets -underBinder +onlyGivenNames x; unfold x; clear x)
    | (extract_lets -underBinder +onlyGivenNames x; revert x; intro _)
    | with_reducible refine State.tookFree_only ?_ ?_
    | with_reducible refine State.freeField_only ?_ ?_
    | with_reducible refine State.libRegs_only ?_ ?_
    | with_reducible refine Only.set_arr ?_ ?_)

end Sys2Proof.Machine
end

