-- ==== Sys2Proof/Laws/OnlyNamedSlots.lean ====
section
/-! SUPPORT. What each operation of Machine/NamedSlots.lean may change. -/

set_option linter.unusedTactic false
set_option linter.unreachableTactic false
set_option linter.unusedVariables false

namespace Sys2Proof.Machine

theorem State.disarm_only {A : Nat} {s₀ : State} {s : State} {o : Owner} (hS : Only A s₀ s) (hA : Covers 0x10000000002 A) :
    Only A s₀ (State.disarm s o) := by
  unfold State.disarm
  repeat' (first
    | with_reducible exact hS
    | with_reducible assumption
    | (with_reducible refine Covers.testBit hA ?_; decide)
    | (with_reducible refine Covers.trans ?_ hA; decide)
    | (refine fun _ => ?_; intros)
    | (extract_lets -underBinder +onlyGivenNames x; refine (fun (hx : Only A s₀ x) => ?_ : Only A s₀ x → _) ?_; (on_goal 2 => unfold x; clear x); (on_goal 1 => clear_value x; revert x; intro _ _))
    | (extract_lets -underBinder +onlyGivenNames x; unfold x; clear x)
    | (extract_lets -underBinder +onlyGivenNames x; revert x; intro _)
    | with_reducible refine State.put_only ?_ ?_
    | with_reducible refine Only.set_gno ?_ ?_)

theorem State.arm_only {A : Nat} {s₀ : State} {s : State} {o : Owner} {named : Bool} {orbit : Nat} {index : Nat} (hS : Only A s₀ s) (hA : Covers 0x10000000002 A) :
    Only.Opt A s₀ (State.arm s o named orbit index) := by
  unfold State.arm
  repeat' (first
    | with_reducible exact hS
    | with_reducible assumption
    | (with_reducible refine Covers.testBit hA ?_; decide)
    | (with_reducible refine Covers.trans ?_ hA; decide)
    | (refine fun _ => ?_; intros)
    | (extract_lets -underBinder +onlyGivenNames x; refine (fun (hx : Only A s₀ x) => ?_ : Only A s₀ x → _) ?_; (on_goal 2 => unfold x; clear x); (on_goal 1 => clear_value x; revert x; intro _ _))
    | (extract_lets -underBinder +onlyGivenNames x; unfold x; clear x)
    | (extract_lets -underBinder +onlyGivenNames x; revert x; intro _)
    | with_reducible refine Only.ite ?_ ?_
    | with_reducible refine State.put_only ?_ ?_
    | with_reducible refine State.disarm_only ?_ ?_
    | exact Only.Opt.none
    | with_reducible refine Only.Opt.some ?_
    | with_reducible refine Only.Opt.ite ?_ ?_
    | with_reducible refine Only.Opt.getD ?_ ?_
    | with_reducible refine Only.Opt.map ?_
    | with_reducible refine Only.Opt.elim (by assumption) ?_
    | with_reducible refine Only.set_gno ?_ ?_)

theorem State.tookDue_only {A : Nat} {s₀ : State} {s : State} {o : Owner} (hS : Only A s₀ s) (hA : Covers 0x10000000000 A) :
    Only A s₀ (State.tookDue s o) := by
  unfold State.tookDue
  repeat' (first
    | with_reducible exact hS
    | with_reducible assumption
    | (with_reducible refine Covers.testBit hA ?_; decide)
    | (with_reducible refine Covers.trans ?_ hA; decide)
    | (refine fun _ => ?_; intros)
    | with_reducible refine State.updGno_only ?_ ?_)

end Sys2Proof.Machine
end

