-- ==== Sys2Proof/Laws/OnlyTarnishBase.lean ====
section
/-! SUPPORT. What each operation of Machine/TarnishBase.lean may change. -/

set_option linter.unusedTactic false
set_option linter.unreachableTactic false
set_option linter.unusedVariables false

namespace Sys2Proof.Machine

theorem State.updTar_only {A : Nat} {s₀ : State} {s : State} {f : Tarnish → Tarnish} (hS : Only A s₀ s) (hA : Covers 0x10000000000000 A) :
    Only A s₀ (State.updTar s f) := by
  unfold State.updTar
  repeat' (first
    | with_reducible exact hS
    | with_reducible assumption
    | (with_reducible refine Covers.testBit hA ?_; decide)
    | (with_reducible refine Covers.trans ?_ hA; decide)
    | with_reducible refine Only.set_tar ?_ ?_)

theorem State.updTarIsl_only {A : Nat} {s₀ : State} {s : State} {i : Nat} {f : TarIsland → TarIsland} (hS : Only A s₀ s) (hA : Covers 0x10000000000000 A) :
    Only A s₀ (State.updTarIsl s i f) := by
  unfold State.updTarIsl
  repeat' (first
    | with_reducible exact hS
    | with_reducible assumption
    | (with_reducible refine Covers.testBit hA ?_; decide)
    | (with_reducible refine Covers.trans ?_ hA; decide)
    | (refine fun _ => ?_; intros)
    | with_reducible refine State.updTar_only ?_ ?_)

theorem State.tarTrigger_only {A : Nat} {s₀ : State} {s : State} {code : Nat} (hS : Only A s₀ s) (hA : Covers 0x10000000010000 A) :
    Only A s₀ (State.tarTrigger s code) := by
  unfold State.tarTrigger
  repeat' (first
    | with_reducible exact hS
    | with_reducible assumption
    | (with_reducible refine Covers.testBit hA ?_; decide)
    | (with_reducible refine Covers.trans ?_ hA; decide)
    | (refine fun _ => ?_; intros)
    | (extract_lets -underBinder +onlyGivenNames x; refine (fun (hx : Only A s₀ x) => ?_ : Only A s₀ x → _) ?_; (on_goal 2 => unfold x; clear x); (on_goal 1 => clear_value x; revert x; intro _ _))
    | (extract_lets -underBinder +onlyGivenNames x; unfold x; clear x)
    | (extract_lets -underBinder +onlyGivenNames x; revert x; intro _)
    | with_reducible refine Only.ite ?_ ?_
    | with_reducible refine State.put_only ?_ ?_
    | with_reducible refine State.updTar_only ?_ ?_)

theorem State.tarOverrun_only {A : Nat} {s₀ : State} {s : State} {islands : Nat} (hS : Only A s₀ s) (hA : Covers 0x10000000010000 A) :
    Only A s₀ (State.tarOverrun s islands) := by
  unfold State.tarOverrun
  repeat' (first
    | with_reducible exact hS
    | with_reducible assumption
    | (with_reducible refine Covers.testBit hA ?_; decide)
    | (with_reducible refine Covers.trans ?_ hA; decide)
    | (refine fun _ => ?_; intros)
    | with_reducible refine Only.ite ?_ ?_
    | with_reducible refine State.put_only ?_ ?_
    | with_reducible refine State.tarTrigger_only ?_ ?_
    | with_reducible refine Only.foldl _ ?_ ?_
    | with_reducible refine Only.Fst.ite ?_ ?_
    | with_reducible refine Only.Fst.unpair (by assumption)
    | with_reducible refine Only.Fst.foldl _ ?_ ?_
    | with_reducible refine Only.Fst.of ?_
    | with_reducible refine Only.Fst.pair ?_
    | with_reducible refine Only.Fst.elim (by assumption) ?_)

end Sys2Proof.Machine
end

