-- ==== Sys2Proof/Laws/OnlySequencer.lean ====
section
/-! SUPPORT. What each operation of Machine/Sequencer.lean may change. -/

set_option linter.unusedTactic false
set_option linter.unreachableTactic false
set_option linter.unusedVariables false

namespace Sys2Proof.Machine

theorem State.updSeq_only {A : Nat} {s₀ : State} {s : State} {f : Seq → Seq} (hS : Only A s₀ s) (hA : Covers 0x200000000000 A) :
    Only A s₀ (State.updSeq s f) := by
  unfold State.updSeq
  repeat' (first
    | with_reducible exact hS
    | with_reducible assumption
    | (with_reducible refine Covers.testBit hA ?_; decide)
    | (with_reducible refine Covers.trans ?_ hA; decide)
    | with_reducible refine Only.set_seq ?_ ?_)

theorem State.updHalf_only {A : Nat} {s₀ : State} {s : State} {h : Nat} {f : Half → Half} (hS : Only A s₀ s) (hA : Covers 0x200000000000 A) :
    Only A s₀ (State.updHalf s h f) := by
  unfold State.updHalf
  repeat' (first
    | with_reducible exact hS
    | with_reducible assumption
    | (with_reducible refine Covers.testBit hA ?_; decide)
    | (with_reducible refine Covers.trans ?_ hA; decide)
    | (refine fun _ => ?_; intros)
    | with_reducible refine Only.ite ?_ ?_
    | with_reducible refine State.updSeq_only ?_ ?_)

theorem State.seqErr_only {A : Nat} {s₀ : State} {s : State} {f : Fld} (hS : Only A s₀ s) (hpf : A.testBit f.page = true) (hA : Covers 0x800000000000000 A) :
    Only A s₀ (State.seqErr s f) := by
  unfold State.seqErr
  repeat' (first
    | with_reducible exact hS
    | with_reducible assumption
    | (with_reducible refine Covers.testBit hA ?_; decide)
    | (with_reducible refine Covers.trans ?_ hA; decide)
    | with_reducible refine State.err_only ?_ ?_ ?_)

theorem State.updCtx_only {A : Nat} {s₀ : State} {s : State} {f : Ctx → Ctx} (hS : Only A s₀ s) (hA : Covers 0x200000000000 A) :
    Only A s₀ (State.updCtx s f) := by
  unfold State.updCtx
  repeat' (first
    | with_reducible exact hS
    | with_reducible assumption
    | (with_reducible refine Covers.testBit hA ?_; decide)
    | (with_reducible refine Covers.trans ?_ hA; decide)
    | (refine fun _ => ?_; intros)
    | with_reducible refine State.updSeq_only ?_ ?_
    | with_reducible refine State.updHalf_only ?_ ?_
    | split
    | (refine fun _ => ?_))

theorem State.timerTick_only {A : Nat} {s₀ : State} {s : State} {t : Nat} (hS : Only A s₀ s) (hA : Covers 0x40 A) :
    Only A s₀ (State.timerTick s t) := by
  unfold State.timerTick
  repeat' (first
    | with_reducible exact hS
    | with_reducible assumption
    | (with_reducible refine Covers.testBit hA ?_; decide)
    | (with_reducible refine Covers.trans ?_ hA; decide)
    | (extract_lets -underBinder +onlyGivenNames x; refine (fun (hx : Only A s₀ x) => ?_ : Only A s₀ x → _) ?_; (on_goal 2 => unfold x; clear x); (on_goal 1 => clear_value x; revert x; intro _ _))
    | (extract_lets -underBinder +onlyGivenNames x; unfold x; clear x)
    | (extract_lets -underBinder +onlyGivenNames x; revert x; intro _)
    | with_reducible refine Only.ite ?_ ?_
    | with_reducible refine State.put_only ?_ ?_)

theorem State.timersAtBarrier_only {A : Nat} {s₀ : State} {s : State} {orbitStart : Bool} (hS : Only A s₀ s) (hA : Covers 0x40 A) :
    Only A s₀ (State.timersAtBarrier s orbitStart) := by
  unfold State.timersAtBarrier
  repeat' (first
    | with_reducible exact hS
    | with_reducible assumption
    | (with_reducible refine Covers.testBit hA ?_; decide)
    | (with_reducible refine Covers.trans ?_ hA; decide)
    | (refine fun _ => ?_; intros)
    | (extract_lets -underBinder +onlyGivenNames x; refine (fun (hx : Only A s₀ x) => ?_ : Only A s₀ x → _) ?_; (on_goal 2 => unfold x; clear x); (on_goal 1 => clear_value x; revert x; intro _ _))
    | (extract_lets -underBinder +onlyGivenNames x; unfold x; clear x)
    | (extract_lets -underBinder +onlyGivenNames x; revert x; intro _)
    | with_reducible refine Only.ite ?_ ?_
    | with_reducible refine State.timerTick_only ?_ ?_
    | with_reducible refine Only.foldl _ ?_ ?_
    | with_reducible refine Only.Fst.ite ?_ ?_
    | with_reducible refine Only.Fst.unpair (by assumption)
    | with_reducible refine Only.Fst.foldl _ ?_ ?_
    | with_reducible refine Only.Fst.of ?_
    | with_reducible refine Only.Fst.pair ?_
    | with_reducible refine Only.Fst.elim (by assumption) ?_)

theorem State.timerFrom_only {A : Nat} {s₀ : State} {s : State} {t : Nat} (hS : Only A s₀ s) (hA : Covers 0x200000000000 A) :
    Only A s₀ (State.timerFrom s t) := by
  unfold State.timerFrom
  repeat' (first
    | with_reducible exact hS
    | with_reducible assumption
    | (with_reducible refine Covers.testBit hA ?_; decide)
    | (with_reducible refine Covers.trans ?_ hA; decide)
    | (refine fun _ => ?_; intros)
    | with_reducible refine State.updSeq_only ?_ ?_)

theorem State.timerSync_only {A : Nat} {s₀ : State} {s : State} {t : Nat} (hS : Only A s₀ s) (hA : Covers 0x200000000040 A) :
    Only A s₀ (State.timerSync s t) := by
  unfold State.timerSync
  repeat' (first
    | with_reducible exact hS
    | with_reducible assumption
    | (with_reducible refine Covers.testBit hA ?_; decide)
    | (with_reducible refine Covers.trans ?_ hA; decide)
    | (refine fun _ => ?_; intros)
    | (extract_lets -underBinder +onlyGivenNames x; refine (fun (hx : Only A s₀ x) => ?_ : Only A s₀ x → _) ?_; (on_goal 2 => unfold x; clear x); (on_goal 1 => clear_value x; revert x; intro _ _))
    | (extract_lets -underBinder +onlyGivenNames x; unfold x; clear x)
    | (extract_lets -underBinder +onlyGivenNames x; revert x; intro _)
    | with_reducible refine Only.ite ?_ ?_
    | with_reducible refine State.put_only ?_ ?_
    | with_reducible refine State.updSeq_only ?_ ?_
    | with_reducible refine State.timerFrom_only ?_ ?_)

theorem State.timersSync_only {A : Nat} {s₀ : State} {s : State} (hS : Only A s₀ s) (hA : Covers 0x200000000040 A) :
    Only A s₀ (State.timersSync s) := by
  unfold State.timersSync
  repeat' (first
    | with_reducible exact hS
    | with_reducible assumption
    | (with_reducible refine Covers.testBit hA ?_; decide)
    | (with_reducible refine Covers.trans ?_ hA; decide)
    | (refine fun _ => ?_; intros)
    | with_reducible refine State.timerSync_only ?_ ?_
    | with_reducible refine Only.forN _ ?_ ?_)

theorem State.timerExpiry_only {A : Nat} {s₀ : State} {s : State} {t : Nat} (hS : Only A s₀ s) (hA : Covers 0x200000000040 A) :
    Only A s₀ (State.timerExpiry s t) := by
  unfold State.timerExpiry
  repeat' (first
    | with_reducible exact hS
    | with_reducible assumption
    | (with_reducible refine Covers.testBit hA ?_; decide)
    | (with_reducible refine Covers.trans ?_ hA; decide)
    | (extract_lets -underBinder +onlyGivenNames x; refine (fun (hx : Only A s₀ x) => ?_ : Only A s₀ x → _) ?_; (on_goal 2 => unfold x; clear x); (on_goal 1 => clear_value x; revert x; intro _ _))
    | (extract_lets -underBinder +onlyGivenNames x; unfold x; clear x)
    | (extract_lets -underBinder +onlyGivenNames x; revert x; intro _)
    | with_reducible refine Only.ite ?_ ?_
    | with_reducible refine State.put_only ?_ ?_
    | with_reducible refine State.timerTick_only ?_ ?_
    | with_reducible refine State.timerFrom_only ?_ ?_)

theorem State.timerCmd_only {A : Nat} {s₀ : State} {s : State} {t : Nat} {cmd : Nat} (hS : Only A s₀ s) (hA : Covers 0x200000000040 A) :
    Only A s₀ (State.timerCmd s t cmd) := by
  unfold State.timerCmd
  repeat' (first
    | with_reducible exact hS
    | with_reducible assumption
    | (with_reducible refine Covers.testBit hA ?_; decide)
    | (with_reducible refine Covers.trans ?_ hA; decide)
    | (extract_lets -underBinder +onlyGivenNames x; refine (fun (hx : Only A s₀ x) => ?_ : Only A s₀ x → _) ?_; (on_goal 2 => unfold x; clear x); (on_goal 1 => clear_value x; revert x; intro _ _))
    | (extract_lets -underBinder +onlyGivenNames x; unfold x; clear x)
    | (extract_lets -underBinder +onlyGivenNames x; revert x; intro _)
    | with_reducible refine Only.ite ?_ ?_
    | with_reducible refine State.put_only ?_ ?_
    | with_reducible refine State.timerSync_only ?_ ?_)

theorem State.writeTimerCfg_only {A : Nat} {s₀ : State} {s : State} {t : Nat} {m : Nat} {v : Nat} (hS : Only A s₀ s) (hA : Covers 0x200000000040 A) :
    Only A s₀ (State.writeTimerCfg s t m v) := by
  unfold State.writeTimerCfg
  repeat' (first
    | with_reducible exact hS
    | with_reducible assumption
    | (with_reducible refine Covers.testBit hA ?_; decide)
    | (with_reducible refine Covers.trans ?_ hA; decide)
    | (with_reducible refine Covers.trans (Covers.trans (pageMask_all _) ?_) hA; decide)
    | (extract_lets -underBinder +onlyGivenNames x; refine (fun (hx : Only A s₀ x) => ?_ : Only A s₀ x → _) ?_; (on_goal 2 => unfold x; clear x); (on_goal 1 => clear_value x; revert x; intro _ _))
    | (extract_lets -underBinder +onlyGivenNames x; unfold x; clear x)
    | (extract_lets -underBinder +onlyGivenNames x; revert x; intro _)
    | with_reducible refine Only.ite ?_ ?_
    | with_reducible refine State.put_only ?_ ?_
    | with_reducible refine State.wrReg_only ?_ ?_
    | with_reducible refine State.timerFrom_only ?_ ?_
    | with_reducible refine State.timerSync_only ?_ ?_)

theorem State.edgeEvent_only {A : Nat} {s₀ : State} {s : State} {e : Nat} {arg : Option Nat} (hS : Only A s₀ s) (hA : Covers 0x1800000000000040 A) :
    Only A s₀ (State.edgeEvent s e arg) := by
  unfold State.edgeEvent
  repeat' (first
    | with_reducible exact hS
    | with_reducible assumption
    | (with_reducible refine Covers.testBit hA ?_; decide)
    | (with_reducible refine Covers.trans ?_ hA; decide)
    | (extract_lets -underBinder +onlyGivenNames x; refine (fun (hx : Only A s₀ x) => ?_ : Only A s₀ x → _) ?_; (on_goal 2 => unfold x; clear x); (on_goal 1 => clear_value x; revert x; intro _ _))
    | (extract_lets -underBinder +onlyGivenNames x; unfold x; clear x)
    | (extract_lets -underBinder +onlyGivenNames x; revert x; intro _)
    | with_reducible refine Only.ite ?_ ?_
    | with_reducible refine State.put_only ?_ ?_
    | with_reducible refine State.inc_only ?_ ?_ ?_
    | with_reducible refine State.seqErr_only ?_ ?_ ?_
    | split
    | (refine fun _ => ?_))

theorem State.edgeSample_only {A : Nat} {s₀ : State} {s : State} {e : Nat} {v : Bool} (hS : Only A s₀ s) (hA : Covers 0x1800200000000040 A) :
    Only A s₀ (State.edgeSample s e v) := by
  unfold State.edgeSample
  repeat' (first
    | with_reducible exact hS
    | with_reducible assumption
    | (with_reducible refine Covers.testBit hA ?_; decide)
    | (with_reducible refine Covers.trans ?_ hA; decide)
    | (refine fun _ => ?_; intros)
    | (extract_lets -underBinder +onlyGivenNames x; refine (fun (hx : Only A s₀ x) => ?_ : Only A s₀ x → _) ?_; (on_goal 2 => unfold x; clear x); (on_goal 1 => clear_value x; revert x; intro _ _))
    | (extract_lets -underBinder +onlyGivenNames x; unfold x; clear x)
    | (extract_lets -underBinder +onlyGivenNames x; revert x; intro _)
    | with_reducible refine Only.ite ?_ ?_
    | with_reducible refine State.put_only ?_ ?_
    | with_reducible refine State.updSeq_only ?_ ?_
    | with_reducible refine State.edgeEvent_only ?_ ?_)

theorem State.eachEdge_only {A : Nat} {s₀ : State} {s : State} {p : Nat → Bool} {f : Nat → State → State} (hS : Only A s₀ s) (hf : ∀ x t, Only A s₀ t → Only A s₀ (f x t)) :
    Only A s₀ (State.eachEdge s p f) := by
  unfold State.eachEdge
  repeat' (first
    | with_reducible exact hS
    | with_reducible assumption
    | (refine fun _ => ?_; intros)
    | with_reducible refine Only.ite ?_ ?_
    | with_reducible refine hf _ _ ?_
    | with_reducible refine Only.foldl _ ?_ ?_
    | with_reducible refine Only.Fst.ite ?_ ?_
    | with_reducible refine Only.Fst.unpair (by assumption)
    | with_reducible refine Only.Fst.foldl _ ?_ ?_
    | with_reducible refine Only.Fst.of ?_
    | with_reducible refine Only.Fst.pair ?_
    | with_reducible refine Only.Fst.elim (by assumption) ?_)

theorem State.seqFastCommand_only {A : Nat} {s₀ : State} {s : State} {code : Nat} {arg : Nat} (hS : Only A s₀ s) (hA : Covers 0x1800000000000040 A) :
    Only A s₀ (State.seqFastCommand s code arg) := by
  unfold State.seqFastCommand
  repeat' (first
    | with_reducible exact hS
    | with_reducible assumption
    | (with_reducible refine Covers.testBit hA ?_; decide)
    | (with_reducible refine Covers.trans ?_ hA; decide)
    | (refine fun _ => ?_; intros)
    | with_reducible refine Only.ite ?_ ?_
    | with_reducible refine State.edgeEvent_only ?_ ?_
    | with_reducible refine State.eachEdge_only ?_ ?_)

theorem State.seqSettled_only {A : Nat} {s₀ : State} {s : State} {r : Nat} (hS : Only A s₀ s) (hA : Covers 0x1800200000000040 A) :
    Only A s₀ (State.seqSettled s r) := by
  unfold State.seqSettled
  repeat' (first
    | with_reducible exact hS
    | with_reducible assumption
    | (with_reducible refine Covers.testBit hA ?_; decide)
    | (with_reducible refine Covers.trans ?_ hA; decide)
    | (refine fun _ => ?_; intros)
    | (extract_lets -underBinder +onlyGivenNames x; refine (fun (hx : Only A s₀ x) => ?_ : Only A s₀ x → _) ?_; (on_goal 2 => unfold x; clear x); (on_goal 1 => clear_value x; revert x; intro _ _))
    | (extract_lets -underBinder +onlyGivenNames x; unfold x; clear x)
    | (extract_lets -underBinder +onlyGivenNames x; revert x; intro _)
    | with_reducible refine State.edgeSample_only ?_ ?_
    | with_reducible refine State.eachEdge_only ?_ ?_)

theorem State.edgesAtBarrier_only {A : Nat} {s₀ : State} {s : State} {orbitStart : Bool} {epoch : Bool} (hS : Only A s₀ s) (hA : Covers 0x1800200000000040 A) :
    Only A s₀ (State.edgesAtBarrier s orbitStart epoch) := by
  unfold State.edgesAtBarrier
  repeat' (first
    | with_reducible exact hS
    | with_reducible assumption
    | (with_reducible refine Covers.testBit hA ?_; decide)
    | (with_reducible refine Covers.trans ?_ hA; decide)
    | (refine fun _ => ?_; intros)
    | (extract_lets -underBinder +onlyGivenNames x; refine (fun (hx : Only A s₀ x) => ?_ : Only A s₀ x → _) ?_; (on_goal 2 => unfold x; clear x); (on_goal 1 => clear_value x; revert x; intro _ _))
    | (extract_lets -underBinder +onlyGivenNames x; unfold x; clear x)
    | (extract_lets -underBinder +onlyGivenNames x; revert x; intro _)
    | with_reducible refine Only.ite ?_ ?_
    | with_reducible refine State.edgeEvent_only ?_ ?_
    | with_reducible refine State.edgeSample_only ?_ ?_
    | with_reducible refine State.eachEdge_only ?_ ?_)

theorem State.consumeCond_only {A : Nat} {s₀ : State} {s : State} {cond : Nat} (hS : Only A s₀ s) (hA : Covers 0x40 A) :
    Only A s₀ (State.consumeCond s cond) := by
  unfold State.consumeCond
  repeat' (first
    | with_reducible exact hS
    | with_reducible assumption
    | (with_reducible refine Covers.testBit hA ?_; decide)
    | (with_reducible refine Covers.trans ?_ hA; decide)
    | with_reducible refine Only.ite ?_ ?_
    | with_reducible refine State.put_only ?_ ?_)

theorem State.scalar_only {A : Nat} {s₀ : State} {s : State} {op : Nat} {d : Nat} {src : Nat} {imm : Nat} (hS : Only A s₀ s) (hA : Covers 0x200000000000 A) :
    Only A s₀ (State.scalar s op d src imm) := by
  unfold State.scalar
  repeat' (first
    | with_reducible exact hS
    | with_reducible assumption
    | (with_reducible refine Covers.testBit hA ?_; decide)
    | (with_reducible refine Covers.trans ?_ hA; decide)
    | (refine fun _ => ?_; intros)
    | with_reducible refine State.updCtx_only ?_ ?_)

theorem State.mwArray_only {A : Nat} {s₀ : State} {s : State} {c : Ctx} {w : Nat} (hS : Only A s₀ s) (hA : Covers 0x1800184000000060 A) :
    Only A s₀ (State.mwArray s c w) := by
  unfold State.mwArray
  repeat' (first
    | with_reducible exact hS
    | with_reducible assumption
    | (with_reducible refine Covers.testBit hA ?_; decide)
    | (with_reducible refine Covers.trans ?_ hA; decide)
    | (extract_lets -underBinder +onlyGivenNames x; refine (fun (hx : Only A s₀ x) => ?_ : Only A s₀ x → _) ?_; (on_goal 2 => unfold x; clear x); (on_goal 1 => clear_value x; revert x; intro _ _))
    | (extract_lets -underBinder +onlyGivenNames x; unfold x; clear x)
    | (extract_lets -underBinder +onlyGivenNames x; revert x; intro _)
    | with_reducible refine Only.ite ?_ ?_
    | with_reducible refine State.arrayOpWith_only ?_ ?_
    | with_reducible refine State.arrayOp_only ?_ ?_
    | with_reducible refine State.offerWords_only ?_ ?_
    | with_reducible refine State.offerHalo_only ?_ ?_)

theorem State.updRelease_only {A : Nat} {s₀ : State} {s : State} {half : Nat} {serial : Nat} {f : Release → Release} (hS : Only A s₀ s) (hA : Covers 0x200000000000 A) :
    Only A s₀ (State.updRelease s half serial f) := by
  unfold State.updRelease
  repeat' (first
    | with_reducible exact hS
    | with_reducible assumption
    | (with_reducible refine Covers.testBit hA ?_; decide)
    | (with_reducible refine Covers.trans ?_ hA; decide)
    | (refine fun _ => ?_; intros)
    | with_reducible refine Only.ite ?_ ?_
    | with_reducible refine State.updSeq_only ?_ ?_)

theorem State.beaconRequest_only {A : Nat} {s₀ : State} {s : State} {req : Nat} {reg : Nat} {glint : Option Nat} {ext : Nat} {addr : Nat} (hS : Only A s₀ s) (hA : Covers 0x200000000000 A) :
    Only A s₀ (State.beaconRequest s req reg glint ext addr) := by
  unfold State.beaconRequest
  repeat' (first
    | with_reducible exact hS
    | with_reducible assumption
    | (with_reducible refine Covers.testBit hA ?_; decide)
    | (with_reducible refine Covers.trans ?_ hA; decide)
    | (refine fun _ => ?_; intros)
    | (extract_lets -underBinder +onlyGivenNames x; refine (fun (hx : Only A s₀ x) => ?_ : Only A s₀ x → _) ?_; (on_goal 2 => unfold x; clear x); (on_goal 1 => clear_value x; revert x; intro _ _))
    | (extract_lets -underBinder +onlyGivenNames x; unfold x; clear x)
    | (extract_lets -underBinder +onlyGivenNames x; revert x; intro _)
    | with_reducible refine Only.ite ?_ ?_
    | with_reducible refine State.updSeq_only ?_ ?_
    | with_reducible refine State.updRelease_only ?_ ?_
    | split
    | (refine fun _ => ?_))

theorem State.mwBeacon_only {A : Nat} {s₀ : State} {s : State} {w : Nat} {addr : Nat} (hS : Only A s₀ s) (hA : Covers 0x200000000000 A) :
    Only A s₀ (State.mwBeacon s w addr) := by
  unfold State.mwBeacon
  repeat' (first
    | with_reducible exact hS
    | with_reducible assumption
    | (with_reducible refine Covers.testBit hA ?_; decide)
    | (with_reducible refine Covers.trans ?_ hA; decide)
    | with_reducible refine Only.ite ?_ ?_
    | with_reducible refine State.beaconRequest_only ?_ ?_)

theorem State.traceWord_only {A : Nat} {s₀ : State} {s : State} {w : Nat} {addr : Nat} {cycle : Nat} {tgt : Bool} (hS : Only A s₀ s) (hA : Covers 0x800200000200000 A) :
    Only A s₀ (State.traceWord s w addr cycle tgt) := by
  unfold State.traceWord
  repeat' (first
    | with_reducible exact hS
    | with_reducible assumption
    | (with_reducible refine Covers.testBit hA ?_; decide)
    | (with_reducible refine Covers.trans ?_ hA; decide)
    | (refine fun _ => ?_; intros)
    | (extract_lets -underBinder +onlyGivenNames x; refine (fun (hx : Only A s₀ x) => ?_ : Only A s₀ x → _) ?_; (on_goal 2 => unfold x; clear x); (on_goal 1 => clear_value x; revert x; intro _ _))
    | (extract_lets -underBinder +onlyGivenNames x; unfold x; clear x)
    | (extract_lets -underBinder +onlyGivenNames x; revert x; intro _)
    | with_reducible refine Only.ite ?_ ?_
    | with_reducible refine State.put_only ?_ ?_
    | with_reducible refine State.err_only ?_ ?_ ?_
    | with_reducible refine State.updSeq_only ?_ ?_
    | split
    | (refine fun _ => ?_))

theorem State.useCycles_only {A : Nat} {s₀ : State} {s : State} {n : Nat} (hS : Only A s₀ s) (hA : Covers 0x200000000000 A) :
    Only A s₀ (State.useCycles s n) := by
  unfold State.useCycles
  repeat' (first
    | with_reducible exact hS
    | with_reducible assumption
    | (with_reducible refine Covers.testBit hA ?_; decide)
    | (with_reducible refine Covers.trans ?_ hA; decide)
    | (refine fun _ => ?_; intros)
    | with_reducible refine State.updSeq_only ?_ ?_)

theorem State.stopIssue_only {A : Nat} {s₀ : State} {s : State} (hS : Only A s₀ s) (hA : Covers 0x200000000000 A) :
    Only A s₀ (State.stopIssue s) := by
  unfold State.stopIssue
  repeat' (first
    | with_reducible exact hS
    | with_reducible assumption
    | (with_reducible refine Covers.testBit hA ?_; decide)
    | (with_reducible refine Covers.trans ?_ hA; decide)
    | (refine fun _ => ?_; intros)
    | with_reducible refine State.updSeq_only ?_ ?_)

theorem State.bgSave_only {A : Nat} {s₀ : State} {s : State} (hS : Only A s₀ s) (hA : Covers 0x1000384000000020 A) :
    Only A s₀ (State.bgSave s) := by
  unfold State.bgSave
  repeat' (first
    | with_reducible exact hS
    | with_reducible assumption
    | (with_reducible refine Covers.testBit hA ?_; decide)
    | (with_reducible refine Covers.trans ?_ hA; decide)
    | (refine fun _ => ?_; intros)
    | (extract_lets -underBinder +onlyGivenNames x; refine (fun (hx : Only A s₀ x) => ?_ : Only A s₀ x → _) ?_; (on_goal 2 => unfold x; clear x); (on_goal 1 => clear_value x; revert x; intro _ _))
    | (extract_lets -underBinder +onlyGivenNames x; unfold x; clear x)
    | (extract_lets -underBinder +onlyGivenNames x; revert x; intro _)
    | with_reducible refine State.setPlane_only ?_ ?_
    | with_reducible refine State.offerWords_only ?_ ?_
    | with_reducible refine State.useCycles_only ?_ ?_
    | with_reducible refine Only.foldl _ ?_ ?_
    | with_reducible refine Only.Fst.ite ?_ ?_
    | with_reducible refine Only.Fst.unpair (by assumption)
    | with_reducible refine Only.Fst.foldl _ ?_ ?_
    | with_reducible refine Only.Fst.of ?_
    | with_reducible refine Only.Fst.pair ?_
    | with_reducible refine Only.Fst.elim (by assumption) ?_)

theorem State.bgRestore_only {A : Nat} {s₀ : State} {s : State} (hS : Only A s₀ s) (hA : Covers 0x1000300000000020 A) :
    Only A s₀ (State.bgRestore s) := by
  unfold State.bgRestore
  repeat' (first
    | with_reducible exact hS
    | with_reducible assumption
    | (with_reducible refine Covers.testBit hA ?_; decide)
    | (with_reducible refine Covers.trans ?_ hA; decide)
    | (extract_lets -underBinder +onlyGivenNames x; refine (fun (hx : Only A s₀ x) => ?_ : Only A s₀ x → _) ?_; (on_goal 2 => unfold x; clear x); (on_goal 1 => clear_value x; revert x; intro _ _))
    | (extract_lets -underBinder +onlyGivenNames x; unfold x; clear x)
    | (extract_lets -underBinder +onlyGivenNames x; revert x; intro _)
    | with_reducible refine State.offerWords_only ?_ ?_
    | with_reducible refine State.useCycles_only ?_ ?_
    | with_reducible refine Only.set_arr ?_ ?_)

theorem State.bgDiscard_only {A : Nat} {s₀ : State} {s : State} (hS : Only A s₀ s) (hA : Covers 0x200000000040 A) :
    Only A s₀ (State.bgDiscard s) := by
  unfold State.bgDiscard
  repeat' (first
    | with_reducible exact hS
    | with_reducible assumption
    | (with_reducible refine Covers.testBit hA ?_; decide)
    | (with_reducible refine Covers.trans ?_ hA; decide)
    | (refine fun _ => ?_; intros)
    | (extract_lets -underBinder +onlyGivenNames x; refine (fun (hx : Only A s₀ x) => ?_ : Only A s₀ x → _) ?_; (on_goal 2 => unfold x; clear x); (on_goal 1 => clear_value x; revert x; intro _ _))
    | (extract_lets -underBinder +onlyGivenNames x; unfold x; clear x)
    | (extract_lets -underBinder +onlyGivenNames x; revert x; intro _)
    | with_reducible refine State.put_only ?_ ?_
    | with_reducible refine State.updSeq_only ?_ ?_)

theorem State.preempt_only {A : Nat} {s₀ : State} {s : State} (hS : Only A s₀ s) (hA : Covers 0x1000384000000060 A) :
    Only A s₀ (State.preempt s) := by
  unfold State.preempt
  repeat' (first
    | with_reducible exact hS
    | with_reducible assumption
    | (with_reducible refine Covers.testBit hA ?_; decide)
    | (with_reducible refine Covers.trans ?_ hA; decide)
    | (extract_lets -underBinder +onlyGivenNames x; refine (fun (hx : Only A s₀ x) => ?_ : Only A s₀ x → _) ?_; (on_goal 2 => unfold x; clear x); (on_goal 1 => clear_value x; revert x; intro _ _))
    | (extract_lets -underBinder +onlyGivenNames x; unfold x; clear x)
    | (extract_lets -underBinder +onlyGivenNames x; revert x; intro _)
    | with_reducible refine Only.ite ?_ ?_
    | with_reducible refine State.put_only ?_ ?_
    | with_reducible refine State.stopIssue_only ?_ ?_
    | with_reducible refine State.bgSave_only ?_ ?_
    | with_reducible refine State.bgDiscard_only ?_ ?_)

theorem State.bgStart_only {A : Nat} {s₀ : State} {s : State} (hS : Only A s₀ s) (hA : Covers 0x1800300000000060 A) :
    Only A s₀ (State.bgStart s) := by
  unfold State.bgStart
  repeat' (first
    | with_reducible exact hS
    | with_reducible assumption
    | (with_reducible refine Covers.testBit hA ?_; decide)
    | (with_reducible refine Covers.trans ?_ hA; decide)
    | (refine fun _ => ?_; intros)
    | (extract_lets -underBinder +onlyGivenNames x; refine (fun (hx : Only A s₀ x) => ?_ : Only A s₀ x → _) ?_; (on_goal 2 => unfold x; clear x); (on_goal 1 => clear_value x; revert x; intro _ _))
    | (extract_lets -underBinder +onlyGivenNames x; unfold x; clear x)
    | (extract_lets -underBinder +onlyGivenNames x; revert x; intro _)
    | with_reducible refine Only.ite ?_ ?_
    | with_reducible refine State.put_only ?_ ?_
    | with_reducible refine State.inc_only ?_ ?_ ?_
    | with_reducible refine State.updSeq_only ?_ ?_
    | with_reducible refine State.seqErr_only ?_ ?_ ?_
    | with_reducible refine State.stopIssue_only ?_ ?_
    | with_reducible refine State.bgRestore_only ?_ ?_)

theorem State.nextStage_only {A : Nat} {s₀ : State} {s : State} (hS : Only A s₀ s) (hA : Covers 0x1800300000000060 A) :
    Only A s₀ (State.nextStage s) := by
  unfold State.nextStage
  repeat' (first
    | with_reducible exact hS
    | with_reducible assumption
    | (with_reducible refine Covers.testBit hA ?_; decide)
    | (with_reducible refine Covers.trans ?_ hA; decide)
    | (refine fun _ => ?_; intros)
    | (extract_lets -underBinder +onlyGivenNames x; refine (fun (hx : Only A s₀ x) => ?_ : Only A s₀ x → _) ?_; (on_goal 2 => unfold x; clear x); (on_goal 1 => clear_value x; revert x; intro _ _))
    | (extract_lets -underBinder +onlyGivenNames x; unfold x; clear x)
    | (extract_lets -underBinder +onlyGivenNames x; revert x; intro _)
    | with_reducible refine State.updSeq_only ?_ ?_
    | with_reducible refine State.updHalf_only ?_ ?_
    | with_reducible refine State.bgStart_only ?_ ?_
    | split
    | (refine fun _ => ?_))

theorem State.stageEnd_only {A : Nat} {s₀ : State} {s : State} (hS : Only A s₀ s) (hA : Covers 0x1800300000000060 A) :
    Only A s₀ (State.stageEnd s) := by
  unfold State.stageEnd
  repeat' (first
    | with_reducible exact hS
    | with_reducible assumption
    | (with_reducible refine Covers.testBit hA ?_; decide)
    | (with_reducible refine Covers.trans ?_ hA; decide)
    | (refine fun _ => ?_; intros)
    | (extract_lets -underBinder +onlyGivenNames x; refine (fun (hx : Only A s₀ x) => ?_ : Only A s₀ x → _) ?_; (on_goal 2 => unfold x; clear x); (on_goal 1 => clear_value x; revert x; intro _ _))
    | (extract_lets -underBinder +onlyGivenNames x; unfold x; clear x)
    | (extract_lets -underBinder +onlyGivenNames x; revert x; intro _)
    | with_reducible refine State.put_only ?_ ?_
    | with_reducible refine State.raiseTo_only ?_ ?_ ?_
    | with_reducible refine State.updHalf_only ?_ ?_
    | with_reducible refine State.nextStage_only ?_ ?_
    | split
    | (refine fun _ => ?_))

theorem State.yieldPoint_only {A : Nat} {s₀ : State} {s : State} (hS : Only A s₀ s) (hA : Covers 0x1000384000000060 A) :
    Only A s₀ (State.yieldPoint s) := by
  unfold State.yieldPoint
  repeat' (first
    | with_reducible exact hS
    | with_reducible assumption
    | (with_reducible refine Covers.testBit hA ?_; decide)
    | (with_reducible refine Covers.trans ?_ hA; decide)
    | (refine fun _ => ?_; intros)
    | with_reducible refine State.updCtx_only ?_ ?_
    | with_reducible refine State.preempt_only ?_ ?_
    | split
    | (refine fun _ => ?_))

theorem State.bgEnd_only {A : Nat} {s₀ : State} {s : State} (hS : Only A s₀ s) (hA : Covers 0x1000384000000060 A) :
    Only A s₀ (State.bgEnd s) := by
  unfold State.bgEnd
  repeat' (first
    | with_reducible exact hS
    | with_reducible assumption
    | (with_reducible refine Covers.testBit hA ?_; decide)
    | (with_reducible refine Covers.trans ?_ hA; decide)
    | (refine fun _ => ?_; intros)
    | (extract_lets -underBinder +onlyGivenNames x; refine (fun (hx : Only A s₀ x) => ?_ : Only A s₀ x → _) ?_; (on_goal 2 => unfold x; clear x); (on_goal 1 => clear_value x; revert x; intro _ _))
    | (extract_lets -underBinder +onlyGivenNames x; unfold x; clear x)
    | (extract_lets -underBinder +onlyGivenNames x; revert x; intro _)
    | with_reducible refine Only.ite ?_ ?_
    | with_reducible refine State.put_only ?_ ?_
    | with_reducible refine State.inc_only ?_ ?_ ?_
    | with_reducible refine State.updSeq_only ?_ ?_
    | with_reducible refine State.preempt_only ?_ ?_
    | split
    | (refine fun _ => ?_))

theorem State.bgAbort_only {A : Nat} {s₀ : State} {s : State} (hS : Only A s₀ s) (hA : Covers 0x800200000000040 A) :
    Only A s₀ (State.bgAbort s) := by
  unfold State.bgAbort
  repeat' (first
    | with_reducible exact hS
    | with_reducible assumption
    | (with_reducible refine Covers.testBit hA ?_; decide)
    | (with_reducible refine Covers.trans ?_ hA; decide)
    | (refine fun _ => ?_; intros)
    | (extract_lets -underBinder +onlyGivenNames x; refine (fun (hx : Only A s₀ x) => ?_ : Only A s₀ x → _) ?_; (on_goal 2 => unfold x; clear x); (on_goal 1 => clear_value x; revert x; intro _ _))
    | (extract_lets -underBinder +onlyGivenNames x; unfold x; clear x)
    | (extract_lets -underBinder +onlyGivenNames x; revert x; intro _)
    | with_reducible refine Only.ite ?_ ?_
    | with_reducible refine State.put_only ?_ ?_
    | with_reducible refine State.updSeq_only ?_ ?_
    | with_reducible refine State.seqErr_only ?_ ?_ ?_
    | with_reducible refine State.bgDiscard_only ?_ ?_
    | split
    | (refine fun _ => ?_))

theorem State.flowIf_only {A : Nat} {s₀ : State} {s : State} {cond : Nat} {target : Nat} {sense : Bool} (hS : Only A s₀ s) (hA : Covers 0x200000000040 A) :
    Only A s₀ (State.flowIf s cond target sense) := by
  unfold State.flowIf
  repeat' (first
    | with_reducible exact hS
    | with_reducible assumption
    | (with_reducible refine Covers.testBit hA ?_; decide)
    | (with_reducible refine Covers.trans ?_ hA; decide)
    | (refine fun _ => ?_; intros)
    | (extract_lets -underBinder +onlyGivenNames x; refine (fun (hx : Only A s₀ x) => ?_ : Only A s₀ x → _) ?_; (on_goal 2 => unfold x; clear x); (on_goal 1 => clear_value x; revert x; intro _ _))
    | (extract_lets -underBinder +onlyGivenNames x; unfold x; clear x)
    | (extract_lets -underBinder +onlyGivenNames x; revert x; intro _)
    | with_reducible refine Only.ite ?_ ?_
    | with_reducible refine State.updCtx_only ?_ ?_
    | with_reducible refine State.consumeCond_only ?_ ?_
    | split
    | (refine fun _ => ?_))

theorem State.flowLoop_only {A : Nat} {s₀ : State} {s : State} {lc : Nat} {target : Nat} (hS : Only A s₀ s) (hA : Covers 0x1000384000000060 A) :
    Only A s₀ (State.flowLoop s lc target) := by
  unfold State.flowLoop
  repeat' (first
    | with_reducible exact hS
    | with_reducible assumption
    | (with_reducible refine Covers.testBit hA ?_; decide)
    | (with_reducible refine Covers.trans ?_ hA; decide)
    | (refine fun _ => ?_; intros)
    | (extract_lets -underBinder +onlyGivenNames x; refine (fun (hx : Only A s₀ x) => ?_ : Only A s₀ x → _) ?_; (on_goal 2 => unfold x; clear x); (on_goal 1 => clear_value x; revert x; intro _ _))
    | (extract_lets -underBinder +onlyGivenNames x; unfold x; clear x)
    | (extract_lets -underBinder +onlyGivenNames x; revert x; intro _)
    | with_reducible refine Only.ite ?_ ?_
    | with_reducible refine State.updCtx_only ?_ ?_
    | with_reducible refine State.preempt_only ?_ ?_
    | split
    | (refine fun _ => ?_))

theorem State.libReturn_only {A : Nat} {s₀ : State} {s : State} {p : LibPlan} (hS : Only A s₀ s) (hA : Covers 0x1800385000000060 A) :
    Only A s₀ (State.libReturn s p) := by
  unfold State.libReturn
  repeat' (first
    | with_reducible exact hS
    | with_reducible assumption
    | (with_reducible refine Covers.testBit hA ?_; decide)
    | (with_reducible refine Covers.trans ?_ hA; decide)
    | (refine fun _ => ?_; intros)
    | (extract_lets -underBinder +onlyGivenNames x; refine (fun (hx : Only A s₀ x) => ?_ : Only A s₀ x → _) ?_; (on_goal 2 => unfold x; clear x); (on_goal 1 => clear_value x; revert x; intro _ _))
    | (extract_lets -underBinder +onlyGivenNames x; unfold x; clear x)
    | (extract_lets -underBinder +onlyGivenNames x; revert x; intro _)
    | with_reducible refine State.libFinish_only ?_ ?_
    | with_reducible refine State.updCtx_only ?_ ?_
    | with_reducible refine Only.set_freeCount ?_ ?_)

theorem State.libOffer_only {A : Nat} {s₀ : State} {s : State} {x : LibCall} {n : Nat} (hS : Only A s₀ s) (hA : Covers 0x1000001000000020 A) :
    Only A s₀ (State.libOffer s x n) := by
  unfold State.libOffer
  repeat' (first
    | with_reducible exact hS
    | with_reducible assumption
    | (with_reducible refine Covers.testBit hA ?_; decide)
    | (with_reducible refine Covers.trans ?_ hA; decide)
    | (refine fun _ => ?_; intros)
    | (extract_lets -underBinder +onlyGivenNames x; refine (fun (hx : Only A s₀ x) => ?_ : Only A s₀ x → _) ?_; (on_goal 2 => unfold x; clear x); (on_goal 1 => clear_value x; revert x; intro _ _))
    | (extract_lets -underBinder +onlyGivenNames x; unfold x; clear x)
    | (extract_lets -underBinder +onlyGivenNames x; revert x; intro _)
    | with_reducible refine Only.ite ?_ ?_
    | with_reducible refine State.add_only ?_ ?_ ?_
    | with_reducible refine State.tookFree_only ?_ ?_
    | with_reducible refine State.offerWords_only ?_ ?_
    | with_reducible refine Only.foldl _ ?_ ?_
    | with_reducible refine Only.Fst.ite ?_ ?_
    | with_reducible refine Only.Fst.unpair (by assumption)
    | with_reducible refine Only.Fst.foldl _ ?_ ?_
    | with_reducible refine Only.Fst.of ?_
    | with_reducible refine Only.Fst.pair ?_
    | with_reducible refine Only.Fst.elim (by assumption) ?_)

theorem State.libStretch_only {A : Nat} {s₀ : State} {s : State} {r : LibRun} {own : Nat} (hS : Only A s₀ s) (hA : Covers 0x1800385000000060 A) :
    Only A s₀ (State.libStretch s r own) := by
  unfold State.libStretch
  repeat' (first
    | with_reducible exact hS
    | with_reducible assumption
    | (with_reducible refine Covers.testBit hA ?_; decide)
    | (with_reducible refine Covers.trans ?_ hA; decide)
    | (refine fun _ => ?_; intros)
    | (extract_lets -underBinder +onlyGivenNames x; refine (fun (hx : Only A s₀ x) => ?_ : Only A s₀ x → _) ?_; (on_goal 2 => unfold x; clear x); (on_goal 1 => clear_value x; revert x; intro _ _))
    | (extract_lets -underBinder +onlyGivenNames x; unfold x; clear x)
    | (extract_lets -underBinder +onlyGivenNames x; revert x; intro _)
    | with_reducible refine State.libPartial_only ?_ ?_
    | with_reducible refine State.updSeq_only ?_ ?_
    | with_reducible refine State.useCycles_only ?_ ?_
    | with_reducible refine State.preempt_only ?_ ?_
    | with_reducible refine State.libReturn_only ?_ ?_
    | with_reducible refine State.libOffer_only ?_ ?_
    | split
    | (refine fun _ => ?_))

theorem State.pcall_only {A : Nat} {s₀ : State} {s : State} {a : Nat} {b : Nat} {w : Nat} {bsrc : Nat} {src : Nat} {imm : Nat} {target : Nat} (hS : Only A s₀ s) (hA : Covers 0x1800385000000060 A) :
    Only A s₀ (State.pcall s a b w bsrc src imm target) := by
  unfold State.pcall
  repeat' (first
    | with_reducible exact hS
    | with_reducible assumption
    | (with_reducible refine Covers.testBit hA ?_; decide)
    | (with_reducible refine Covers.trans ?_ hA; decide)
    | (refine fun _ => ?_; intros)
    | (extract_lets -underBinder +onlyGivenNames x; refine (fun (hx : Only A s₀ x) => ?_ : Only A s₀ x → _) ?_; (on_goal 2 => unfold x; clear x); (on_goal 1 => clear_value x; revert x; intro _ _))
    | (extract_lets -underBinder +onlyGivenNames x; unfold x; clear x)
    | (extract_lets -underBinder +onlyGivenNames x; revert x; intro _)
    | with_reducible refine State.updCtx_only ?_ ?_
    | with_reducible refine State.useCycles_only ?_ ?_
    | with_reducible refine State.libReturn_only ?_ ?_
    | with_reducible refine State.libOffer_only ?_ ?_
    | with_reducible refine State.libStretch_only ?_ ?_
    | split
    | (refine fun _ => ?_))

theorem State.mwFlowStep_only {A : Nat} {s₀ : State} {s : State} {w : Nat} (hS : Only A s₀ s) (hA : Covers 0x1800385000000060 A) :
    Only A s₀ (State.mwFlowStep s w) := by
  unfold State.mwFlowStep
  repeat' (first
    | with_reducible exact hS
    | with_reducible assumption
    | (with_reducible refine Covers.testBit hA ?_; decide)
    | (with_reducible refine Covers.trans ?_ hA; decide)
    | (refine fun _ => ?_; intros)
    | (extract_lets -underBinder +onlyGivenNames x; refine (fun (hx : Only A s₀ x) => ?_ : Only A s₀ x → _) ?_; (on_goal 2 => unfold x; clear x); (on_goal 1 => clear_value x; revert x; intro _ _))
    | (extract_lets -underBinder +onlyGivenNames x; unfold x; clear x)
    | (extract_lets -underBinder +onlyGivenNames x; revert x; intro _)
    | with_reducible refine Only.ite ?_ ?_
    | with_reducible refine State.updCtx_only ?_ ?_
    | with_reducible refine State.consumeCond_only ?_ ?_
    | with_reducible refine State.stageEnd_only ?_ ?_
    | with_reducible refine State.yieldPoint_only ?_ ?_
    | with_reducible refine State.bgEnd_only ?_ ?_
    | with_reducible refine State.flowLoop_only ?_ ?_
    | with_reducible refine State.pcall_only ?_ ?_
    | split
    | (refine fun _ => ?_))

theorem State.performWord_only {A : Nat} {s₀ : State} {s : State} {k : Nat} (hS : Only A s₀ s) (hA : Covers 0x1800385000200060 A) :
    Only A s₀ (State.performWord s k) := by
  unfold State.performWord
  repeat' (first
    | with_reducible exact hS
    | with_reducible assumption
    | (with_reducible refine Covers.testBit hA ?_; decide)
    | (with_reducible refine Covers.trans ?_ hA; decide)
    | (refine fun _ => ?_; intros)
    | (extract_lets -underBinder +onlyGivenNames x; refine (fun (hx : Only A s₀ x) => ?_ : Only A s₀ x → _) ?_; (on_goal 2 => unfold x; clear x); (on_goal 1 => clear_value x; revert x; intro _ _))
    | (extract_lets -underBinder +onlyGivenNames x; unfold x; clear x)
    | (extract_lets -underBinder +onlyGivenNames x; revert x; intro _)
    | with_reducible refine Only.ite ?_ ?_
    | with_reducible refine State.updSeq_only ?_ ?_
    | with_reducible refine State.mwArray_only ?_ ?_
    | with_reducible refine State.mwBeacon_only ?_ ?_
    | with_reducible refine State.traceWord_only ?_ ?_
    | with_reducible refine State.useCycles_only ?_ ?_
    | with_reducible refine State.stopIssue_only ?_ ?_
    | with_reducible refine State.mwFlowStep_only ?_ ?_
    | split
    | (refine fun _ => ?_))

theorem State.microwordIssue_only {A : Nat} {s₀ : State} {s : State} (hS : Only A s₀ s) (hA : Covers 0x1800385000200060 A) :
    Only A s₀ (State.microwordIssue s) := by
  unfold State.microwordIssue
  repeat' (first
    | with_reducible exact hS
    | with_reducible assumption
    | (with_reducible refine Covers.testBit hA ?_; decide)
    | (with_reducible refine Covers.trans ?_ hA; decide)
    | (refine fun _ => ?_; intros)
    | (extract_lets -underBinder +onlyGivenNames x; refine (fun (hx : Only A s₀ x) => ?_ : Only A s₀ x → _) ?_; (on_goal 2 => unfold x; clear x); (on_goal 1 => clear_value x; revert x; intro _ _))
    | (extract_lets -underBinder +onlyGivenNames x; unfold x; clear x)
    | (extract_lets -underBinder +onlyGivenNames x; revert x; intro _)
    | with_reducible refine Only.ite ?_ ?_
    | with_reducible refine State.put_only ?_ ?_
    | with_reducible refine State.updSeq_only ?_ ?_
    | with_reducible refine State.updCtx_only ?_ ?_
    | with_reducible refine State.stopIssue_only ?_ ?_
    | with_reducible refine State.libStretch_only ?_ ?_
    | with_reducible refine State.performWord_only ?_ ?_
    | split
    | (refine fun _ => ?_))

theorem State.waitRelease_only {A : Nat} {s₀ : State} {s : State} {k : Nat} (hS : Only A s₀ s) (hA : Covers 0x1800385000200060 A) :
    Only A s₀ (State.waitRelease s k) := by
  unfold State.waitRelease
  repeat' (first
    | with_reducible exact hS
    | with_reducible assumption
    | (with_reducible refine Covers.testBit hA ?_; decide)
    | (with_reducible refine Covers.trans ?_ hA; decide)
    | (refine fun _ => ?_; intros)
    | (extract_lets -underBinder +onlyGivenNames x; refine (fun (hx : Only A s₀ x) => ?_ : Only A s₀ x → _) ?_; (on_goal 2 => unfold x; clear x); (on_goal 1 => clear_value x; revert x; intro _ _))
    | (extract_lets -underBinder +onlyGivenNames x; unfold x; clear x)
    | (extract_lets -underBinder +onlyGivenNames x; revert x; intro _)
    | with_reducible refine Only.ite ?_ ?_
    | with_reducible refine State.put_only ?_ ?_
    | with_reducible refine State.updCtx_only ?_ ?_
    | with_reducible refine State.performWord_only ?_ ?_)

theorem State.waitTimeout_only {A : Nat} {s₀ : State} {s : State} (hS : Only A s₀ s) (hA : Covers 0x1800385000200060 A) :
    Only A s₀ (State.waitTimeout s) := by
  unfold State.waitTimeout
  repeat' (first
    | with_reducible exact hS
    | with_reducible assumption
    | (with_reducible refine Covers.testBit hA ?_; decide)
    | (with_reducible refine Covers.trans ?_ hA; decide)
    | (refine fun _ => ?_; intros)
    | (extract_lets -underBinder +onlyGivenNames x; refine (fun (hx : Only A s₀ x) => ?_ : Only A s₀ x → _) ?_; (on_goal 2 => unfold x; clear x); (on_goal 1 => clear_value x; revert x; intro _ _))
    | (extract_lets -underBinder +onlyGivenNames x; unfold x; clear x)
    | (extract_lets -underBinder +onlyGivenNames x; revert x; intro _)
    | with_reducible refine Only.ite ?_ ?_
    | with_reducible refine State.inc_only ?_ ?_ ?_
    | with_reducible refine State.seqErr_only ?_ ?_ ?_
    | with_reducible refine State.updCtx_only ?_ ?_
    | with_reducible refine State.performWord_only ?_ ?_)

theorem State.addStalls_only {A : Nat} {s₀ : State} {s : State} {halo : List (Fin 16 × Nat)} {queue : List (Fin 16 × Nat)} (hS : Only A s₀ s) (hA : Covers 0x1000000000000020 A) :
    Only A s₀ (State.addStalls s halo queue) := by
  unfold State.addStalls
  repeat' (first
    | with_reducible exact hS
    | with_reducible assumption
    | (with_reducible refine Covers.testBit hA ?_; decide)
    | (with_reducible refine Covers.trans ?_ hA; decide)
    | (refine fun _ => ?_; intros)
    | (extract_lets -underBinder +onlyGivenNames x; refine (fun (hx : Only A s₀ x) => ?_ : Only A s₀ x → _) ?_; (on_goal 2 => unfold x; clear x); (on_goal 1 => clear_value x; revert x; intro _ _))
    | (extract_lets -underBinder +onlyGivenNames x; unfold x; clear x)
    | (extract_lets -underBinder +onlyGivenNames x; revert x; intro _)
    | with_reducible refine State.add_only ?_ ?_ ?_
    | with_reducible refine Only.foldl _ ?_ ?_
    | with_reducible refine Only.Fst.ite ?_ ?_
    | with_reducible refine Only.Fst.unpair (by assumption)
    | with_reducible refine Only.Fst.foldl _ ?_ ?_
    | with_reducible refine Only.Fst.of ?_
    | with_reducible refine Only.Fst.pair ?_
    | with_reducible refine Only.Fst.elim (by assumption) ?_)

theorem State.drainDone_only {A : Nat} {s₀ : State} {s : State} (hS : Only A s₀ s) (hA : Covers 0x200000000040 A) :
    Only A s₀ (State.drainDone s) := by
  unfold State.drainDone
  repeat' (first
    | with_reducible exact hS
    | with_reducible assumption
    | (with_reducible refine Covers.testBit hA ?_; decide)
    | (with_reducible refine Covers.trans ?_ hA; decide)
    | (refine fun _ => ?_; intros)
    | (extract_lets -underBinder +onlyGivenNames x; refine (fun (hx : Only A s₀ x) => ?_ : Only A s₀ x → _) ?_; (on_goal 2 => unfold x; clear x); (on_goal 1 => clear_value x; revert x; intro _ _))
    | (extract_lets -underBinder +onlyGivenNames x; unfold x; clear x)
    | (extract_lets -underBinder +onlyGivenNames x; revert x; intro _)
    | with_reducible refine State.put_only ?_ ?_
    | with_reducible refine State.updHalf_only ?_ ?_)

theorem State.addRelease_only {A : Nat} {s₀ : State} {s : State} {serial : Nat} (hS : Only A s₀ s) (hA : Covers 0x200000000000 A) :
    Only A s₀ (State.addRelease s serial) := by
  unfold State.addRelease
  repeat' (first
    | with_reducible exact hS
    | with_reducible assumption
    | (with_reducible refine Covers.testBit hA ?_; decide)
    | (with_reducible refine Covers.trans ?_ hA; decide)
    | (refine fun _ => ?_; intros)
    | (extract_lets -underBinder +onlyGivenNames x; refine (fun (hx : Only A s₀ x) => ?_ : Only A s₀ x → _) ?_; (on_goal 2 => unfold x; clear x); (on_goal 1 => clear_value x; revert x; intro _ _))
    | (extract_lets -underBinder +onlyGivenNames x; unfold x; clear x)
    | (extract_lets -underBinder +onlyGivenNames x; revert x; intro _)
    | with_reducible refine State.updSeq_only ?_ ?_)

theorem State.publishReleases_only {A : Nat} {s₀ : State} {s : State} (hS : Only A s₀ s) (hA : Covers 0x80 A) :
    Only A s₀ (State.publishReleases s) := by
  unfold State.publishReleases
  repeat' (first
    | with_reducible exact hS
    | with_reducible assumption
    | (with_reducible refine Covers.testBit hA ?_; decide)
    | (with_reducible refine Covers.trans ?_ hA; decide)
    | (extract_lets -underBinder +onlyGivenNames x; refine (fun (hx : Only A s₀ x) => ?_ : Only A s₀ x → _) ?_; (on_goal 2 => unfold x; clear x); (on_goal 1 => clear_value x; revert x; intro _ _))
    | (extract_lets -underBinder +onlyGivenNames x; unfold x; clear x)
    | (extract_lets -underBinder +onlyGivenNames x; revert x; intro _)
    | with_reducible refine State.put_only ?_ ?_)

theorem State.dropReleases_only {A : Nat} {s₀ : State} {s : State} {p : Release → Bool} (hS : Only A s₀ s) (hA : Covers 0x200000000000 A) :
    Only A s₀ (State.dropReleases s p) := by
  unfold State.dropReleases
  repeat' (first
    | with_reducible exact hS
    | with_reducible assumption
    | (with_reducible refine Covers.testBit hA ?_; decide)
    | (with_reducible refine Covers.trans ?_ hA; decide)
    | (refine fun _ => ?_; intros)
    | with_reducible refine State.updSeq_only ?_ ?_)

theorem State.scheduleReleases_only {A : Nat} {s₀ : State} {s : State} {stages : List (Nat × Nat × Nat)} (hS : Only A s₀ s) (hA : Covers 0x200000000000 A) :
    Only A s₀ (State.scheduleReleases s stages) := by
  unfold State.scheduleReleases
  repeat' (first
    | with_reducible exact hS
    | with_reducible assumption
    | (with_reducible refine Covers.testBit hA ?_; decide)
    | (with_reducible refine Covers.trans ?_ hA; decide)
    | (refine fun _ => ?_; intros)
    | (extract_lets -underBinder +onlyGivenNames x; refine (fun (hx : Only A s₀ x) => ?_ : Only A s₀ x → _) ?_; (on_goal 2 => unfold x; clear x); (on_goal 1 => clear_value x; revert x; intro _ _))
    | (extract_lets -underBinder +onlyGivenNames x; unfold x; clear x)
    | (extract_lets -underBinder +onlyGivenNames x; revert x; intro _)
    | with_reducible refine Only.ite ?_ ?_
    | with_reducible refine State.updSeq_only ?_ ?_
    | with_reducible refine State.dropReleases_only ?_ ?_)

theorem State.sweepIsland_only {A : Nat} {s₀ : State} {s : State} {i : Nat} (hS : Only A s₀ s) (hA : Covers 0x10001000010000 A) :
    Only A s₀ (State.sweepIsland s i) := by
  unfold State.sweepIsland
  repeat' (first
    | with_reducible exact hS
    | with_reducible assumption
    | (with_reducible refine Covers.testBit hA ?_; decide)
    | (with_reducible refine Covers.trans ?_ hA; decide)
    | (refine fun _ => ?_; intros)
    | (extract_lets -underBinder +onlyGivenNames x; refine (fun (hx : Only A s₀ x) => ?_ : Only A s₀ x → _) ?_; (on_goal 2 => unfold x; clear x); (on_goal 1 => clear_value x; revert x; intro _ _))
    | (extract_lets -underBinder +onlyGivenNames x; unfold x; clear x)
    | (extract_lets -underBinder +onlyGivenNames x; revert x; intro _)
    | with_reducible refine Only.ite ?_ ?_
    | with_reducible refine State.put_only ?_ ?_
    | with_reducible refine State.tookFree_only ?_ ?_
    | with_reducible refine State.updTarIsl_only ?_ ?_)

theorem State.sweepStep_only {A : Nat} {s₀ : State} {s : State} (hS : Only A s₀ s) (hA : Covers 0x10001000010000 A) :
    Only A s₀ (State.sweepStep s) := by
  unfold State.sweepStep
  repeat' (first
    | with_reducible exact hS
    | with_reducible assumption
    | (with_reducible refine Covers.testBit hA ?_; decide)
    | (with_reducible refine Covers.trans ?_ hA; decide)
    | (refine fun _ => ?_; intros)
    | with_reducible refine Only.ite ?_ ?_
    | with_reducible refine State.sweepIsland_only ?_ ?_
    | with_reducible refine Only.foldl _ ?_ ?_
    | with_reducible refine Only.Fst.ite ?_ ?_
    | with_reducible refine Only.Fst.unpair (by assumption)
    | with_reducible refine Only.Fst.foldl _ ?_ ?_
    | with_reducible refine Only.Fst.of ?_
    | with_reducible refine Only.Fst.pair ?_
    | with_reducible refine Only.Fst.elim (by assumption) ?_)

theorem State.openSlot_only {A : Nat} {s₀ : State} {s : State} (hS : Only A s₀ s) (hA : Covers 0x18103010000100E0 A) :
    Only A s₀ (State.openSlot s) := by
  unfold State.openSlot
  repeat' (first
    | with_reducible exact hS
    | with_reducible assumption
    | (with_reducible refine Covers.testBit hA ?_; decide)
    | (with_reducible refine Covers.trans ?_ hA; decide)
    | (refine fun _ => ?_; intros)
    | (extract_lets -underBinder +onlyGivenNames x; refine (fun (hx : Only A s₀ x) => ?_ : Only A s₀ x → _) ?_; (on_goal 2 => unfold x; clear x); (on_goal 1 => clear_value x; revert x; intro _ _))
    | (extract_lets -underBinder +onlyGivenNames x; unfold x; clear x)
    | (extract_lets -underBinder +onlyGivenNames x; revert x; intro _)
    | with_reducible refine Only.ite ?_ ?_
    | with_reducible refine State.inc_only ?_ ?_ ?_
    | with_reducible refine State.updSeq_only ?_ ?_
    | with_reducible refine State.nextStage_only ?_ ?_
    | with_reducible refine State.drainDone_only ?_ ?_
    | with_reducible refine State.addRelease_only ?_ ?_
    | with_reducible refine State.publishReleases_only ?_ ?_
    | with_reducible refine State.scheduleReleases_only ?_ ?_
    | with_reducible refine State.sweepStep_only ?_ ?_
    | exact Only.OfRes.trap
    | exact Only.OfRes.held
    | with_reducible refine Only.OfRes.acted ?_
    | with_reducible refine Only.OfRes.ite ?_ ?_
    | with_reducible refine Only.OfRes.elim (by assumption) ?_)

theorem State.openIfReady_only {A : Nat} {s₀ : State} {s : State} (hS : Only A s₀ s) (hA : Covers 0x18103010000100E0 A) :
    Only A s₀ (State.openIfReady s) := by
  unfold State.openIfReady
  repeat' (first
    | with_reducible exact hS
    | with_reducible assumption
    | (with_reducible refine Covers.testBit hA ?_; decide)
    | (with_reducible refine Covers.trans ?_ hA; decide)
    | with_reducible refine Only.ite ?_ ?_
    | with_reducible refine State.openSlot_only ?_ ?_)

end Sys2Proof.Machine
end

