-- ==== Sys2Proof/Laws/OnlyBeacon.lean ====
section
/-! SUPPORT. What each operation of Machine/Beacon.lean may change. -/

set_option linter.unusedTactic false
set_option linter.unreachableTactic false
set_option linter.unusedVariables false

namespace Sys2Proof.Machine

theorem State.updGlint_only {A : Nat} {s₀ : State} {s : State} {n : Nat} {f : Glint → Glint} (hS : Only A s₀ s) (hA : Covers 0x200000000000 A) :
    Only A s₀ (State.updGlint s n f) := by
  unfold State.updGlint
  repeat' (first
    | with_reducible exact hS
    | with_reducible assumption
    | (with_reducible refine Covers.testBit hA ?_; decide)
    | (with_reducible refine Covers.trans ?_ hA; decide)
    | (refine fun _ => ?_; intros)
    | with_reducible refine State.updSeq_only ?_ ?_)

theorem State.publishWidth_only {A : Nat} {s₀ : State} {s : State} {n : Nat} (hS : Only A s₀ s) (hA : Covers 0x80 A) :
    Only A s₀ (State.publishWidth s n) := by
  unfold State.publishWidth
  repeat' (first
    | with_reducible exact hS
    | with_reducible assumption
    | (with_reducible refine Covers.testBit hA ?_; decide)
    | (with_reducible refine Covers.trans ?_ hA; decide)
    | with_reducible refine State.put_only ?_ ?_)

theorem State.driveGlint_only {A : Nat} {s₀ : State} {s : State} {n : Nat} {level : Nat} {pulse : Bool} (hS : Only A s₀ s) (hA : Covers 0x200000000000 A) :
    Only A s₀ (State.driveGlint s n level pulse) := by
  unfold State.driveGlint
  repeat' (first
    | with_reducible exact hS
    | with_reducible assumption
    | (with_reducible refine Covers.testBit hA ?_; decide)
    | (with_reducible refine Covers.trans ?_ hA; decide)
    | (refine fun _ => ?_; intros)
    | (extract_lets -underBinder +onlyGivenNames x; refine (fun (hx : Only A s₀ x) => ?_ : Only A s₀ x → _) ?_; (on_goal 2 => unfold x; clear x); (on_goal 1 => clear_value x; revert x; intro _ _))
    | (extract_lets -underBinder +onlyGivenNames x; unfold x; clear x)
    | (extract_lets -underBinder +onlyGivenNames x; revert x; intro _)
    | with_reducible refine Only.ite ?_ ?_
    | with_reducible refine State.updGlint_only ?_ ?_)

theorem State.glintIdle_only {A : Nat} {s₀ : State} {s : State} {n : Nat} (hS : Only A s₀ s) (hA : Covers 0x200000000080 A) :
    Only A s₀ (State.glintIdle s n) := by
  unfold State.glintIdle
  repeat' (first
    | with_reducible exact hS
    | with_reducible assumption
    | (with_reducible refine Covers.testBit hA ?_; decide)
    | (with_reducible refine Covers.trans ?_ hA; decide)
    | with_reducible refine State.put_only ?_ ?_
    | with_reducible refine State.driveGlint_only ?_ ?_)

theorem State.glintsIdle_only {A : Nat} {s₀ : State} {s : State} (hS : Only A s₀ s) (hA : Covers 0x200000000080 A) :
    Only A s₀ (State.glintsIdle s) := by
  unfold State.glintsIdle
  repeat' (first
    | with_reducible exact hS
    | with_reducible assumption
    | (with_reducible refine Covers.testBit hA ?_; decide)
    | (with_reducible refine Covers.trans ?_ hA; decide)
    | (refine fun _ => ?_; intros)
    | with_reducible refine State.glintIdle_only ?_ ?_
    | with_reducible refine Only.foldl _ ?_ ?_
    | with_reducible refine Only.Fst.ite ?_ ?_
    | with_reducible refine Only.Fst.unpair (by assumption)
    | with_reducible refine Only.Fst.foldl _ ?_ ?_
    | with_reducible refine Only.Fst.of ?_
    | with_reducible refine Only.Fst.pair ?_
    | with_reducible refine Only.Fst.elim (by assumption) ?_)

theorem State.writeGlint_only {A : Nat} {s₀ : State} {s : State} {n : Nat} {off : Nat} {m : Nat} {v : Nat} (hS : Only A s₀ s) (hA : Covers 0x800200000000080 A) :
    Only A s₀ (State.writeGlint s n off m v) := by
  unfold State.writeGlint
  repeat' (first
    | with_reducible exact hS
    | with_reducible assumption
    | (with_reducible refine Covers.testBit hA ?_; decide)
    | (with_reducible refine Covers.trans ?_ hA; decide)
    | (with_reducible refine Covers.trans (Covers.trans (pageMask_all _) ?_) hA; decide)
    | (refine fun _ => ?_; intros)
    | (extract_lets -underBinder +onlyGivenNames x; refine (fun (hx : Only A s₀ x) => ?_ : Only A s₀ x → _) ?_; (on_goal 2 => unfold x; clear x); (on_goal 1 => clear_value x; revert x; intro _ _))
    | (extract_lets -underBinder +onlyGivenNames x; unfold x; clear x)
    | (extract_lets -underBinder +onlyGivenNames x; revert x; intro _)
    | with_reducible refine Only.ite ?_ ?_
    | with_reducible refine State.put_only ?_ ?_
    | with_reducible refine State.err_only ?_ ?_ ?_
    | with_reducible refine State.wrReg_only ?_ ?_
    | with_reducible refine State.updGlint_only ?_ ?_)

theorem State.writeOvr_only {A : Nat} {s₀ : State} {s : State} {m : Nat} {v : Nat} (hS : Only A s₀ s) (hA : Covers 0x200000000040 A) :
    Only A s₀ (State.writeOvr s m v) := by
  unfold State.writeOvr
  repeat' (first
    | with_reducible exact hS
    | with_reducible assumption
    | (with_reducible refine Covers.testBit hA ?_; decide)
    | (with_reducible refine Covers.trans ?_ hA; decide)
    | (with_reducible refine Covers.trans (Covers.trans (pageMask_all _) ?_) hA; decide)
    | (refine fun _ => ?_; intros)
    | (extract_lets -underBinder +onlyGivenNames x; refine (fun (hx : Only A s₀ x) => ?_ : Only A s₀ x → _) ?_; (on_goal 2 => unfold x; clear x); (on_goal 1 => clear_value x; revert x; intro _ _))
    | (extract_lets -underBinder +onlyGivenNames x; unfold x; clear x)
    | (extract_lets -underBinder +onlyGivenNames x; revert x; intro _)
    | with_reducible refine State.wrReg_only ?_ ?_
    | with_reducible refine State.updSeq_only ?_ ?_)

theorem State.glintsAtBarrier_only {A : Nat} {s₀ : State} {s : State} (hS : Only A s₀ s) (hA : Covers 0x200000000080 A) :
    Only A s₀ (State.glintsAtBarrier s) := by
  unfold State.glintsAtBarrier
  repeat' (first
    | with_reducible exact hS
    | with_reducible assumption
    | (with_reducible refine Covers.testBit hA ?_; decide)
    | (with_reducible refine Covers.trans ?_ hA; decide)
    | (refine fun _ => ?_; intros)
    | (extract_lets -underBinder +onlyGivenNames x; refine (fun (hx : Only A s₀ x) => ?_ : Only A s₀ x → _) ?_; (on_goal 2 => unfold x; clear x); (on_goal 1 => clear_value x; revert x; intro _ _))
    | (extract_lets -underBinder +onlyGivenNames x; unfold x; clear x)
    | (extract_lets -underBinder +onlyGivenNames x; revert x; intro _)
    | with_reducible refine Only.ite ?_ ?_
    | with_reducible refine State.updSeq_only ?_ ?_
    | with_reducible refine State.updGlint_only ?_ ?_
    | with_reducible refine State.publishWidth_only ?_ ?_
    | with_reducible refine State.glintIdle_only ?_ ?_
    | with_reducible refine Only.foldl _ ?_ ?_
    | with_reducible refine Only.Fst.ite ?_ ?_
    | with_reducible refine Only.Fst.unpair (by assumption)
    | with_reducible refine Only.Fst.foldl _ ?_ ?_
    | with_reducible refine Only.Fst.of ?_
    | with_reducible refine Only.Fst.pair ?_
    | with_reducible refine Only.Fst.elim (by assumption) ?_)

theorem State.glintsPeriod_only {A : Nat} {s₀ : State} {s : State} (hS : Only A s₀ s) (hA : Covers 0x800000000000080 A) :
    Only A s₀ (State.glintsPeriod s) := by
  unfold State.glintsPeriod
  repeat' (first
    | with_reducible exact hS
    | with_reducible assumption
    | (with_reducible refine Covers.testBit hA ?_; decide)
    | (with_reducible refine Covers.trans ?_ hA; decide)
    | (refine fun _ => ?_; intros)
    | with_reducible refine Only.ite ?_ ?_
    | with_reducible refine State.err_only ?_ ?_ ?_
    | with_reducible refine State.publishWidth_only ?_ ?_
    | with_reducible refine Only.foldl _ ?_ ?_
    | with_reducible refine Only.Fst.ite ?_ ?_
    | with_reducible refine Only.Fst.unpair (by assumption)
    | with_reducible refine Only.Fst.foldl _ ?_ ?_
    | with_reducible refine Only.Fst.of ?_
    | with_reducible refine Only.Fst.pair ?_
    | with_reducible refine Only.Fst.elim (by assumption) ?_)

theorem State.dropLater_only {A : Nat} {s₀ : State} {s : State} {count : Bool} (hS : Only A s₀ s) (hA : Covers 0x10002000000000C0 A) :
    Only A s₀ (State.dropLater s count) := by
  unfold State.dropLater
  repeat' (first
    | with_reducible exact hS
    | with_reducible assumption
    | (with_reducible refine Covers.testBit hA ?_; decide)
    | (with_reducible refine Covers.trans ?_ hA; decide)
    | (refine fun _ => ?_; intros)
    | (extract_lets -underBinder +onlyGivenNames x; refine (fun (hx : Only A s₀ x) => ?_ : Only A s₀ x → _) ?_; (on_goal 2 => unfold x; clear x); (on_goal 1 => clear_value x; revert x; intro _ _))
    | (extract_lets -underBinder +onlyGivenNames x; unfold x; clear x)
    | (extract_lets -underBinder +onlyGivenNames x; revert x; intro _)
    | with_reducible refine Only.ite ?_ ?_
    | with_reducible refine State.add_only ?_ ?_ ?_
    | with_reducible refine State.updSeq_only ?_ ?_
    | with_reducible refine State.publishReleases_only ?_ ?_
    | with_reducible refine State.glintsIdle_only ?_ ?_)

theorem State.glintLaunch_only {A : Nat} {s₀ : State} {s : State} {n : Nat} {v : Bool} {ovr : Bool} {deg : Bool} (hS : Only A s₀ s) (hA : Covers 0x1000200000000080 A) :
    Only A s₀ (State.glintLaunch s n v ovr deg) := by
  unfold State.glintLaunch
  repeat' (first
    | with_reducible exact hS
    | with_reducible assumption
    | (with_reducible refine Covers.testBit hA ?_; decide)
    | (with_reducible refine Covers.trans ?_ hA; decide)
    | (extract_lets -underBinder +onlyGivenNames x; refine (fun (hx : Only A s₀ x) => ?_ : Only A s₀ x → _) ?_; (on_goal 2 => unfold x; clear x); (on_goal 1 => clear_value x; revert x; intro _ _))
    | (extract_lets -underBinder +onlyGivenNames x; unfold x; clear x)
    | (extract_lets -underBinder +onlyGivenNames x; revert x; intro _)
    | with_reducible refine Only.ite ?_ ?_
    | with_reducible refine State.put_only ?_ ?_
    | with_reducible refine State.inc_only ?_ ?_ ?_
    | with_reducible refine State.publishWidth_only ?_ ?_
    | with_reducible refine State.driveGlint_only ?_ ?_)

theorem State.countOrOnly_only {A : Nat} {s₀ : State} {s : State} {n : Nat} {cfg : Nat} {l : Landed} (hS : Only A s₀ s) (hA : Covers 0x1800000000000080 A) :
    Only A s₀ (State.countOrOnly s n cfg l) := by
  unfold State.countOrOnly
  repeat' (first
    | with_reducible exact hS
    | with_reducible assumption
    | (with_reducible refine Covers.testBit hA ?_; decide)
    | (with_reducible refine Covers.trans ?_ hA; decide)
    | (refine fun _ => ?_; intros)
    | (extract_lets -underBinder +onlyGivenNames x; refine (fun (hx : Only A s₀ x) => ?_ : Only A s₀ x → _) ?_; (on_goal 2 => unfold x; clear x); (on_goal 1 => clear_value x; revert x; intro _ _))
    | (extract_lets -underBinder +onlyGivenNames x; unfold x; clear x)
    | (extract_lets -underBinder +onlyGivenNames x; revert x; intro _)
    | with_reducible refine Only.ite ?_ ?_
    | with_reducible refine State.add_only ?_ ?_ ?_
    | with_reducible refine State.err_only ?_ ?_ ?_)

theorem State.launchOne_only {A : Nat} {s₀ : State} {s : State} {r : Release} {n : Nat} (hS : Only A s₀ s) (hA : Covers 0x1800200000000080 A) :
    Only.Fst A s₀ (State.launchOne s r n) := by
  unfold State.launchOne
  repeat' (first
    | with_reducible exact hS
    | with_reducible assumption
    | (with_reducible refine Covers.testBit hA ?_; decide)
    | (with_reducible refine Covers.trans ?_ hA; decide)
    | (refine fun _ => ?_; intros)
    | (extract_lets -underBinder +onlyGivenNames x; refine (fun (hx : Only A s₀ x) => ?_ : Only A s₀ x → _) ?_; (on_goal 2 => unfold x; clear x); (on_goal 1 => clear_value x; revert x; intro _ _))
    | (extract_lets -underBinder +onlyGivenNames x; unfold x; clear x)
    | (extract_lets -underBinder +onlyGivenNames x; revert x; intro _)
    | with_reducible refine Only.ite ?_ ?_
    | with_reducible refine State.inc_only ?_ ?_ ?_
    | with_reducible refine State.err_only ?_ ?_ ?_
    | with_reducible refine State.glintLaunch_only ?_ ?_
    | with_reducible refine State.countOrOnly_only ?_ ?_
    | with_reducible refine Only.foldl _ ?_ ?_
    | with_reducible refine Only.Fst.ite ?_ ?_
    | with_reducible refine Only.Fst.unpair (by assumption)
    | with_reducible refine Only.Fst.foldl _ ?_ ?_
    | split
    | with_reducible refine Only.Fst.of ?_
    | with_reducible refine Only.Fst.pair ?_
    | with_reducible refine Only.Fst.elim (by assumption) ?_)

theorem State.overrun_only {A : Nat} {s₀ : State} {s : State} {serial : Nat} {mask : Nat} {slow : Nat} (hS : Only A s₀ s) (hA : Covers 0x1810200000010040 A) :
    Only A s₀ (State.overrun s serial mask slow) := by
  unfold State.overrun
  repeat' (first
    | with_reducible exact hS
    | with_reducible assumption
    | (with_reducible refine Covers.testBit hA ?_; decide)
    | (with_reducible refine Covers.trans ?_ hA; decide)
    | (refine fun _ => ?_; intros)
    | (extract_lets -underBinder +onlyGivenNames x; refine (fun (hx : Only A s₀ x) => ?_ : Only A s₀ x → _) ?_; (on_goal 2 => unfold x; clear x); (on_goal 1 => clear_value x; revert x; intro _ _))
    | (extract_lets -underBinder +onlyGivenNames x; unfold x; clear x)
    | (extract_lets -underBinder +onlyGivenNames x; revert x; intro _)
    | with_reducible refine Only.ite ?_ ?_
    | with_reducible refine State.put_only ?_ ?_
    | with_reducible refine State.inc_only ?_ ?_ ?_
    | with_reducible refine State.err_only ?_ ?_ ?_
    | with_reducible refine State.tarOverrun_only ?_ ?_
    | with_reducible refine State.updSeq_only ?_ ?_)

theorem State.launch_only {A : Nat} {s₀ : State} {s : State} (hS : Only A s₀ s) (hA : Covers 0x18102004000100C0 A) :
    Only A s₀ (State.launch s) := by
  unfold State.launch
  repeat' (first
    | with_reducible exact hS
    | with_reducible assumption
    | (with_reducible refine Covers.testBit hA ?_; decide)
    | (with_reducible refine Covers.trans ?_ hA; decide)
    | (refine fun _ => ?_; intros)
    | (extract_lets -underBinder +onlyGivenNames x; refine (fun (hx : Only A s₀ x) => ?_ : Only A s₀ x → _) ?_; (on_goal 2 => unfold x; clear x); (on_goal 1 => clear_value x; revert x; intro _ _))
    | (extract_lets -underBinder +onlyGivenNames x; unfold x; clear x)
    | (extract_lets -underBinder +onlyGivenNames x; revert x; intro _)
    | with_reducible refine Only.ite ?_ ?_
    | with_reducible refine State.at_only ?_ ?_
    | with_reducible refine State.updSeq_only ?_ ?_
    | with_reducible refine State.publishReleases_only ?_ ?_
    | with_reducible refine State.glintIdle_only ?_ ?_
    | with_reducible refine State.launchOne_only ?_ ?_
    | with_reducible refine State.overrun_only ?_ ?_
    | with_reducible refine Only.foldl _ ?_ ?_
    | with_reducible refine Only.Fst.ite ?_ ?_
    | with_reducible refine Only.Fst.unpair (by assumption)
    | with_reducible refine Only.Fst.foldl _ ?_ ?_
    | split
    | with_reducible refine Only.Fst.of ?_
    | with_reducible refine Only.Fst.pair ?_
    | with_reducible refine Only.Fst.elim (by assumption) ?_
    | (refine fun _ => ?_))

theorem State.pulseEnd_only {A : Nat} {s₀ : State} {s : State} {n : Nat} (hS : Only A s₀ s) (hA : Covers 0x200000000000 A) :
    Only A s₀ (State.pulseEnd s n) := by
  unfold State.pulseEnd
  repeat' (first
    | with_reducible exact hS
    | with_reducible assumption
    | (with_reducible refine Covers.testBit hA ?_; decide)
    | (with_reducible refine Covers.trans ?_ hA; decide)
    | (refine fun _ => ?_; intros)
    | with_reducible refine Only.ite ?_ ?_
    | with_reducible refine State.updGlint_only ?_ ?_)

theorem State.externalPush_only {A : Nat} {s₀ : State} {s : State} {worga : Bool} {x : BcnResult} (hS : Only A s₀ s) (hA : Covers 0x1800200000000080 A) :
    Only A s₀ (State.externalPush s worga x) := by
  unfold State.externalPush
  repeat' (first
    | with_reducible exact hS
    | with_reducible assumption
    | (with_reducible refine Covers.testBit hA ?_; decide)
    | (with_reducible refine Covers.trans ?_ hA; decide)
    | (refine fun _ => ?_; intros)
    | (extract_lets -underBinder +onlyGivenNames x; refine (fun (hx : Only A s₀ x) => ?_ : Only A s₀ x → _) ?_; (on_goal 2 => unfold x; clear x); (on_goal 1 => clear_value x; revert x; intro _ _))
    | (extract_lets -underBinder +onlyGivenNames x; unfold x; clear x)
    | (extract_lets -underBinder +onlyGivenNames x; revert x; intro _)
    | with_reducible refine Only.ite ?_ ?_
    | with_reducible refine State.inc_only ?_ ?_ ?_
    | with_reducible refine State.err_only ?_ ?_ ?_
    | with_reducible refine State.updSeq_only ?_ ?_)

theorem State.landDecision_only {A : Nat} {s₀ : State} {s : State} {r : BcnReq} {res : Bool × Bool × Nat × Nat} (hS : Only A s₀ s) (hA : Covers 0x1800200000000040 A) :
    Only A s₀ (State.landDecision s r res) := by
  unfold State.landDecision
  repeat' (first
    | with_reducible exact hS
    | with_reducible assumption
    | (with_reducible refine Covers.testBit hA ?_; decide)
    | (with_reducible refine Covers.trans ?_ hA; decide)
    | (refine fun _ => ?_; intros)
    | with_reducible refine Only.ite ?_ ?_
    | with_reducible refine State.inc_only ?_ ?_ ?_
    | with_reducible refine State.err_only ?_ ?_ ?_
    | with_reducible refine State.updRelease_only ?_ ?_
    | split
    | (refine fun _ => ?_))

theorem State.beaconSettle_only {A : Nat} {s₀ : State} {s : State} {removed : Nat} (hS : Only A s₀ s) (hA : Covers 0x18002000000000C0 A) :
    Only A s₀ (State.beaconSettle s removed) := by
  unfold State.beaconSettle
  repeat' (first
    | with_reducible exact hS
    | with_reducible assumption
    | (with_reducible refine Covers.testBit hA ?_; decide)
    | (with_reducible refine Covers.trans ?_ hA; decide)
    | (refine fun _ => ?_; intros)
    | (extract_lets -underBinder +onlyGivenNames x; refine (fun (hx : Only A s₀ x) => ?_ : Only A s₀ x → _) ?_; (on_goal 2 => unfold x; clear x); (on_goal 1 => clear_value x; revert x; intro _ _))
    | (extract_lets -underBinder +onlyGivenNames x; unfold x; clear x)
    | (extract_lets -underBinder +onlyGivenNames x; revert x; intro _)
    | with_reducible refine Only.ite ?_ ?_
    | with_reducible refine State.put_only ?_ ?_
    | with_reducible refine State.inc_only ?_ ?_ ?_
    | with_reducible refine State.updSeq_only ?_ ?_
    | with_reducible refine State.seqSettled_only ?_ ?_
    | with_reducible refine State.externalPush_only ?_ ?_
    | with_reducible refine State.landDecision_only ?_ ?_
    | with_reducible refine Only.foldl _ ?_ ?_
    | with_reducible refine Only.Fst.ite ?_ ?_
    | with_reducible refine Only.Fst.unpair (by assumption)
    | with_reducible refine Only.Fst.foldl _ ?_ ?_
    | split
    | with_reducible refine Only.Fst.of ?_
    | with_reducible refine Only.Fst.pair ?_
    | with_reducible refine Only.Fst.elim (by assumption) ?_
    | (refine fun _ => ?_))

theorem State.lateDecision_only {A : Nat} {s₀ : State} {s : State} {removed : Nat} (hS : Only A s₀ s) (hA : Covers 0x18002000000000C0 A) :
    Only A s₀ (State.lateDecision s removed) := by
  unfold State.lateDecision
  repeat' (first
    | with_reducible exact hS
    | with_reducible assumption
    | (with_reducible refine Covers.testBit hA ?_; decide)
    | (with_reducible refine Covers.trans ?_ hA; decide)
    | with_reducible refine Only.ite ?_ ?_
    | with_reducible refine State.beaconSettle_only ?_ ?_
    | split
    | (refine fun _ => ?_))

theorem State.busyEvaluate_only {A : Nat} {s₀ : State} {s : State} {rdo : Bool} (hS : Only A s₀ s) (hA : Covers 0x1000200000000080 A) :
    Only A s₀ (State.busyEvaluate s rdo) := by
  unfold State.busyEvaluate
  repeat' (first
    | with_reducible exact hS
    | with_reducible assumption
    | (with_reducible refine Covers.testBit hA ?_; decide)
    | (with_reducible refine Covers.trans ?_ hA; decide)
    | (refine fun _ => ?_; intros)
    | (extract_lets -underBinder +onlyGivenNames x; refine (fun (hx : Only A s₀ x) => ?_ : Only A s₀ x → _) ?_; (on_goal 2 => unfold x; clear x); (on_goal 1 => clear_value x; revert x; intro _ _))
    | (extract_lets -underBinder +onlyGivenNames x; unfold x; clear x)
    | (extract_lets -underBinder +onlyGivenNames x; revert x; intro _)
    | with_reducible refine Only.ite ?_ ?_
    | with_reducible refine State.put_only ?_ ?_
    | with_reducible refine State.inc_only ?_ ?_ ?_
    | with_reducible refine State.updSeq_only ?_ ?_
    | split)

theorem State.busyExpiry_only {A : Nat} {s₀ : State} {s : State} (hS : Only A s₀ s) (hA : Covers 0x200000000080 A) :
    Only A s₀ (State.busyExpiry s) := by
  unfold State.busyExpiry
  repeat' (first
    | with_reducible exact hS
    | with_reducible assumption
    | (with_reducible refine Covers.testBit hA ?_; decide)
    | (with_reducible refine Covers.trans ?_ hA; decide)
    | (refine fun _ => ?_; intros)
    | (extract_lets -underBinder +onlyGivenNames x; refine (fun (hx : Only A s₀ x) => ?_ : Only A s₀ x → _) ?_; (on_goal 2 => unfold x; clear x); (on_goal 1 => clear_value x; revert x; intro _ _))
    | (extract_lets -underBinder +onlyGivenNames x; unfold x; clear x)
    | (extract_lets -underBinder +onlyGivenNames x; revert x; intro _)
    | with_reducible refine Only.ite ?_ ?_
    | with_reducible refine State.put_only ?_ ?_
    | with_reducible refine State.updSeq_only ?_ ?_)

end Sys2Proof.Machine
end

