-- ==== Sys2Proof/Laws/OnlyErrorQueue.lean ====
section
/-! SUPPORT. What each operation of Machine/ErrorQueue.lean may change. -/

set_option linter.unusedTactic false
set_option linter.unreachableTactic false
set_option linter.unusedVariables false

namespace Sys2Proof.Machine

theorem State.updErq_only {A : Nat} {s₀ : State} {s : State} {f : Erq → Erq} (hS : Only A s₀ s) (hA : Covers 0x800000000000000 A) :
    Only A s₀ (State.updErq s f) := by
  unfold State.updErq
  repeat' (first
    | with_reducible exact hS
    | with_reducible assumption
    | (with_reducible refine Covers.testBit hA ?_; decide)
    | (with_reducible refine Covers.trans ?_ hA; decide)
    | with_reducible refine Only.set_erq ?_ ?_)

theorem State.updDic_only {A : Nat} {s₀ : State} {s : State} {f : Dic → Dic} (hS : Only A s₀ s) (hA : Covers 0x40000000000000 A) :
    Only A s₀ (State.updDic s f) := by
  unfold State.updDic
  repeat' (first
    | with_reducible exact hS
    | with_reducible assumption
    | (with_reducible refine Covers.testBit hA ?_; decide)
    | (with_reducible refine Covers.trans ?_ hA; decide)
    | with_reducible refine Only.set_dic ?_ ?_)

theorem State.emit_only {A : Nat} {s₀ : State} {s : State} {x : Sent} (hS : Only A s₀ s) (hA : Covers 0x2000000000 A) :
    Only A s₀ (State.emit s x) := by
  unfold State.emit
  repeat' (first
    | with_reducible exact hS
    | with_reducible assumption
    | (with_reducible refine Covers.testBit hA ?_; decide)
    | (with_reducible refine Covers.trans ?_ hA; decide)
    | with_reducible refine Only.set_sent ?_ ?_)

theorem State.publishErq_only {A : Nat} {s₀ : State} {s : State} (hS : Only A s₀ s) (hA : Covers 0x100000 A) :
    Only A s₀ (State.publishErq s) := by
  unfold State.publishErq
  repeat' (first
    | with_reducible exact hS
    | with_reducible assumption
    | (with_reducible refine Covers.testBit hA ?_; decide)
    | (with_reducible refine Covers.trans ?_ hA; decide)
    | (extract_lets -underBinder +onlyGivenNames x; refine (fun (hx : Only A s₀ x) => ?_ : Only A s₀ x → _) ?_; (on_goal 2 => unfold x; clear x); (on_goal 1 => clear_value x; revert x; intro _ _))
    | (extract_lets -underBinder +onlyGivenNames x; unfold x; clear x)
    | (extract_lets -underBinder +onlyGivenNames x; revert x; intro _)
    | with_reducible refine State.put_only ?_ ?_
    | split
    | (refine fun _ => ?_))

theorem State.mgtUdp_only {A : Nat} {s₀ : State} {s : State} {ip : Nat} {port : Nat} {payload : List (BitVec 8)} (hS : Only A s₀ s) (hA : Covers 0x2000000000 A) :
    Only A s₀ (State.mgtUdp s ip port payload) := by
  unfold State.mgtUdp
  repeat' (first
    | with_reducible exact hS
    | with_reducible assumption
    | (with_reducible refine Covers.testBit hA ?_; decide)
    | (with_reducible refine Covers.trans ?_ hA; decide)
    | with_reducible refine Only.ite ?_ ?_
    | with_reducible refine State.emit_only ?_ ?_
    | split
    | (refine fun _ => ?_))

theorem State.notify_only {A : Nat} {s₀ : State} {s : State} {e : ErrEntry} (hS : Only A s₀ s) (hA : Covers 0x40002000000000 A) :
    Only A s₀ (State.notify s e) := by
  unfold State.notify
  repeat' (first
    | with_reducible exact hS
    | with_reducible assumption
    | (with_reducible refine Covers.testBit hA ?_; decide)
    | (with_reducible refine Covers.trans ?_ hA; decide)
    | (refine fun _ => ?_; intros)
    | (extract_lets -underBinder +onlyGivenNames x; refine (fun (hx : Only A s₀ x) => ?_ : Only A s₀ x → _) ?_; (on_goal 2 => unfold x; clear x); (on_goal 1 => clear_value x; revert x; intro _ _))
    | (extract_lets -underBinder +onlyGivenNames x; unfold x; clear x)
    | (extract_lets -underBinder +onlyGivenNames x; revert x; intro _)
    | with_reducible refine Only.ite ?_ ?_
    | with_reducible refine State.updDic_only ?_ ?_
    | with_reducible refine State.mgtUdp_only ?_ ?_
    | with_reducible refine Only.foldl _ ?_ ?_
    | with_reducible refine Only.Fst.ite ?_ ?_
    | with_reducible refine Only.Fst.unpair (by assumption)
    | with_reducible refine Only.Fst.foldl _ ?_ ?_
    | with_reducible refine Only.Fst.of ?_
    | with_reducible refine Only.Fst.pair ?_
    | with_reducible refine Only.Fst.elim (by assumption) ?_)

theorem State.emcy_only {A : Nat} {s₀ : State} {s : State} {code : Nat} {data : List (BitVec 8)} {note : Option ErrEntry} (hS : Only A s₀ s) (hA : Covers 0x1840002000008000 A) :
    Only A s₀ (State.emcy s code data note) := by
  unfold State.emcy
  repeat' (first
    | with_reducible exact hS
    | with_reducible assumption
    | (with_reducible refine Covers.testBit hA ?_; decide)
    | (with_reducible refine Covers.trans ?_ hA; decide)
    | (refine fun _ => ?_; intros)
    | (extract_lets -underBinder +onlyGivenNames x; refine (fun (hx : Only A s₀ x) => ?_ : Only A s₀ x → _) ?_; (on_goal 2 => unfold x; clear x); (on_goal 1 => clear_value x; revert x; intro _ _))
    | (extract_lets -underBinder +onlyGivenNames x; unfold x; clear x)
    | (extract_lets -underBinder +onlyGivenNames x; revert x; intro _)
    | with_reducible refine Only.ite ?_ ?_
    | with_reducible refine State.inc_only ?_ ?_ ?_
    | with_reducible refine State.err_only ?_ ?_ ?_
    | with_reducible refine State.updDic_only ?_ ?_
    | with_reducible refine State.emit_only ?_ ?_
    | with_reducible refine State.notify_only ?_ ?_
    | split
    | (refine fun _ => ?_))

theorem State.erqEvent_only {A : Nat} {s₀ : State} {s : State} (hS : Only A s₀ s) (hA : Covers 0x2000000000000 A) :
    Only A s₀ (State.erqEvent s) := by
  unfold State.erqEvent
  repeat' (first
    | with_reducible exact hS
    | with_reducible assumption
    | (with_reducible refine Covers.testBit hA ?_; decide)
    | (with_reducible refine Covers.trans ?_ hA; decide)
    | with_reducible refine State.raiseEvent_only ?_ ?_
    | with_reducible refine State.raiseAll_only ?_ ?_)

theorem State.erqTake_only {A : Nat} {s₀ : State} {s : State} {r : Report} (hS : Only A s₀ s) (hA : Covers 0x1842002000108000 A) :
    Only A s₀ (State.erqTake s r) := by
  unfold State.erqTake
  repeat' (first
    | with_reducible exact hS
    | with_reducible assumption
    | (with_reducible refine Covers.testBit hA ?_; decide)
    | (with_reducible refine Covers.trans ?_ hA; decide)
    | (refine fun _ => ?_; intros)
    | (extract_lets -underBinder +onlyGivenNames x; refine (fun (hx : Only A s₀ x) => ?_ : Only A s₀ x → _) ?_; (on_goal 2 => unfold x; clear x); (on_goal 1 => clear_value x; revert x; intro _ _))
    | (extract_lets -underBinder +onlyGivenNames x; unfold x; clear x)
    | (extract_lets -underBinder +onlyGivenNames x; revert x; intro _)
    | with_reducible refine Only.ite ?_ ?_
    | with_reducible refine State.put_only ?_ ?_
    | with_reducible refine State.add_only ?_ ?_ ?_
    | with_reducible refine State.inc_only ?_ ?_ ?_
    | with_reducible refine State.updErq_only ?_ ?_
    | with_reducible refine State.publishErq_only ?_ ?_
    | with_reducible refine State.emcy_only ?_ ?_
    | with_reducible refine State.erqEvent_only ?_ ?_)

theorem State.erqHead_only {A : Nat} {s₀ : State} {s : State} (hS : Only A s₀ s) (hA : Covers 0x800000000100000 A) :
    Only A s₀ (State.erqHead s) := by
  unfold State.erqHead
  repeat' (first
    | with_reducible exact hS
    | with_reducible assumption
    | (with_reducible refine Covers.testBit hA ?_; decide)
    | (with_reducible refine Covers.trans ?_ hA; decide)
    | (refine fun _ => ?_; intros)
    | with_reducible refine State.updErq_only ?_ ?_
    | with_reducible refine State.publishErq_only ?_ ?_
    | split
    | (refine fun _ => ?_))

theorem State.erqPop_only {A : Nat} {s₀ : State} {s : State} {seq : Nat} (hS : Only A s₀ s) (hA : Covers 0x800000000100000 A) :
    Only.Fst A s₀ (State.erqPop s seq) := by
  unfold State.erqPop
  repeat' (first
    | with_reducible exact hS
    | with_reducible assumption
    | (with_reducible refine Covers.testBit hA ?_; decide)
    | (with_reducible refine Covers.trans ?_ hA; decide)
    | (refine fun _ => ?_; intros)
    | with_reducible refine Only.ite ?_ ?_
    | with_reducible refine State.put_only ?_ ?_
    | with_reducible refine State.updErq_only ?_ ?_
    | with_reducible refine State.publishErq_only ?_ ?_
    | with_reducible refine Only.Fst.ite ?_ ?_
    | with_reducible refine Only.Fst.unpair (by assumption)
    | split
    | with_reducible refine Only.Fst.of ?_
    | with_reducible refine Only.Fst.pair ?_
    | with_reducible refine Only.Fst.elim (by assumption) ?_
    | (refine fun _ => ?_))

end Sys2Proof.Machine
end

