-- ==== Sys2Proof/Laws/OnlyDebug.lean ====
section
/-! SUPPORT. What each operation of Machine/Debug.lean may change. -/

set_option linter.unusedTactic false
set_option linter.unreachableTactic false
set_option linter.unusedVariables false

namespace Sys2Proof.Machine

theorem State.updTap_only {A : Nat} {s₀ : State} {s : State} {f : Tap → Tap} (hS : Only A s₀ s) (hA : Covers 0x200000000000000 A) :
    Only A s₀ (State.updTap s f) := by
  unfold State.updTap
  repeat' (first
    | with_reducible exact hS
    | with_reducible assumption
    | (with_reducible refine Covers.testBit hA ?_; decide)
    | (with_reducible refine Covers.trans ?_ hA; decide)
    | with_reducible refine Only.set_tap ?_ ?_)

theorem State.tapLoad_only {A : Nat} {s₀ : State} {s : State} {ir : Nat} {dr : Nat} {pins : PinDrive} (hS : Only A s₀ s) (hA : Covers 0x200000000000000 A) :
    Only A s₀ (State.tapLoad s ir dr pins) := by
  unfold State.tapLoad
  repeat' (first
    | with_reducible exact hS
    | with_reducible assumption
    | (with_reducible refine Covers.testBit hA ?_; decide)
    | (with_reducible refine Covers.trans ?_ hA; decide)
    | (refine fun _ => ?_; intros)
    | with_reducible refine State.updTap_only ?_ ?_)

theorem State.tapBypass_only {A : Nat} {s₀ : State} {s : State} (hS : Only A s₀ s) (hA : Covers 0x200000000000000 A) :
    Only A s₀ (State.tapBypass s) := by
  unfold State.tapBypass
  repeat' (first
    | with_reducible exact hS
    | with_reducible assumption
    | (with_reducible refine Covers.testBit hA ?_; decide)
    | (with_reducible refine Covers.trans ?_ hA; decide)
    | with_reducible refine State.tapLoad_only ?_ ?_)

theorem State.tapPins_only {A : Nat} {s₀ : State} {s : State} {ir : Nat} {pins : PinDrive} (hS : Only A s₀ s) (hA : Covers 0xA00000000200000 A) :
    Only A s₀ (State.tapPins s ir pins) := by
  unfold State.tapPins
  repeat' (first
    | with_reducible exact hS
    | with_reducible assumption
    | (with_reducible refine Covers.testBit hA ?_; decide)
    | (with_reducible refine Covers.trans ?_ hA; decide)
    | (extract_lets -underBinder +onlyGivenNames x; refine (fun (hx : Only A s₀ x) => ?_ : Only A s₀ x → _) ?_; (on_goal 2 => unfold x; clear x); (on_goal 1 => clear_value x; revert x; intro _ _))
    | (extract_lets -underBinder +onlyGivenNames x; unfold x; clear x)
    | (extract_lets -underBinder +onlyGivenNames x; revert x; intro _)
    | with_reducible refine Only.ite ?_ ?_
    | with_reducible refine State.err_only ?_ ?_ ?_
    | with_reducible refine State.tapLoad_only ?_ ?_
    | with_reducible refine State.tapBypass_only ?_ ?_)

theorem State.tapRequest_only {A : Nat} {s₀ : State} {s : State} (hS : Only A s₀ s) (hA : Covers 0x1204000000000800 A) :
    Only A s₀ (State.tapRequest s) := by
  unfold State.tapRequest
  repeat' (first
    | with_reducible exact hS
    | with_reducible assumption
    | (with_reducible refine Covers.testBit hA ?_; decide)
    | (with_reducible refine Covers.trans ?_ hA; decide)
    | (refine fun _ => ?_; intros)
    | with_reducible refine Only.ite ?_ ?_
    | with_reducible refine State.tagWait_only ?_ ?_
    | with_reducible refine State.request_only ?_ ?_
    | with_reducible refine State.updTap_only ?_ ?_
    | exact Only.Opt.none
    | with_reducible refine Only.Opt.some ?_
    | with_reducible refine Only.Opt.ite ?_ ?_
    | with_reducible refine Only.Opt.getD ?_ ?_
    | with_reducible refine Only.Opt.map ?_
    | split
    | with_reducible refine Only.Opt.elim (by assumption) ?_
    | (refine fun _ => ?_))

theorem State.memAccess_only {A : Nat} {s₀ : State} {s : State} {go : Bool} {write : Bool} {addr : Nat} {data : Nat} (hS : Only A s₀ s) (hA : Covers 0x1A04000000200800 A) :
    Only A s₀ (State.memAccess s go write addr data) := by
  unfold State.memAccess
  repeat' (first
    | with_reducible exact hS
    | with_reducible assumption
    | (with_reducible refine Covers.testBit hA ?_; decide)
    | (with_reducible refine Covers.trans ?_ hA; decide)
    | (refine fun _ => ?_; intros)
    | (extract_lets -underBinder +onlyGivenNames x; refine (fun (hx : Only A s₀ x) => ?_ : Only A s₀ x → _) ?_; (on_goal 2 => unfold x; clear x); (on_goal 1 => clear_value x; revert x; intro _ _))
    | (extract_lets -underBinder +onlyGivenNames x; unfold x; clear x)
    | (extract_lets -underBinder +onlyGivenNames x; revert x; intro _)
    | with_reducible refine Only.ite ?_ ?_
    | with_reducible refine State.err_only ?_ ?_ ?_
    | with_reducible refine State.updTap_only ?_ ?_
    | with_reducible refine State.tapRequest_only ?_ ?_)

theorem State.tapDone_only {A : Nat} {s₀ : State} {s : State} {ok : Bool} {data : List (BitVec 8)} (hS : Only A s₀ s) (hA : Covers 0x200000000000000 A) :
    Only A s₀ (State.tapDone s ok data) := by
  unfold State.tapDone
  repeat' (first
    | with_reducible exact hS
    | with_reducible assumption
    | (with_reducible refine Covers.testBit hA ?_; decide)
    | (with_reducible refine Covers.trans ?_ hA; decide)
    | (refine fun _ => ?_; intros)
    | (extract_lets -underBinder +onlyGivenNames x; refine (fun (hx : Only A s₀ x) => ?_ : Only A s₀ x → _) ?_; (on_goal 2 => unfold x; clear x); (on_goal 1 => clear_value x; revert x; intro _ _))
    | (extract_lets -underBinder +onlyGivenNames x; unfold x; clear x)
    | (extract_lets -underBinder +onlyGivenNames x; revert x; intro _)
    | with_reducible refine Only.ite ?_ ?_
    | with_reducible refine State.updTap_only ?_ ?_)

theorem State.tapReset_only {A : Nat} {s₀ : State} {s : State} (hS : Only A s₀ s) (hA : Covers 0x200000000000000 A) :
    Only A s₀ (State.tapReset s) := by
  unfold State.tapReset
  repeat' (first
    | with_reducible exact hS
    | with_reducible assumption
    | (with_reducible refine Covers.testBit hA ?_; decide)
    | (with_reducible refine Covers.trans ?_ hA; decide)
    | with_reducible refine State.tapLoad_only ?_ ?_)

theorem State.traceClear_only {A : Nat} {s₀ : State} {s : State} (hS : Only A s₀ s) (hA : Covers 0x200000200000 A) :
    Only A s₀ (State.traceClear s) := by
  unfold State.traceClear
  repeat' (first
    | with_reducible exact hS
    | with_reducible assumption
    | (with_reducible refine Covers.testBit hA ?_; decide)
    | (with_reducible refine Covers.trans ?_ hA; decide)
    | with_reducible refine State.put_only ?_ ?_
    | with_reducible refine Only.set_seq ?_ ?_)

theorem State.smbAnswer_only {A : Nat} {s₀ : State} {s : State} {code : Nat} {word : Nat} {pec : Bool} (hS : Only A s₀ s) (hA : Covers 0x800002000000001 A) :
    Only A s₀ (State.smbAnswer s code word pec) := by
  unfold State.smbAnswer
  repeat' (first
    | with_reducible exact hS
    | with_reducible assumption
    | (with_reducible refine Covers.testBit hA ?_; decide)
    | (with_reducible refine Covers.trans ?_ hA; decide)
    | (extract_lets -underBinder +onlyGivenNames x; refine (fun (hx : Only A s₀ x) => ?_ : Only A s₀ x → _) ?_; (on_goal 2 => unfold x; clear x); (on_goal 1 => clear_value x; revert x; intro _ _))
    | (extract_lets -underBinder +onlyGivenNames x; unfold x; clear x)
    | (extract_lets -underBinder +onlyGivenNames x; revert x; intro _)
    | with_reducible refine Only.ite ?_ ?_
    | with_reducible refine State.err_only ?_ ?_ ?_
    | with_reducible refine State.emit_only ?_ ?_)

theorem State.smbNack_only {A : Nat} {s₀ : State} {s : State} (hS : Only A s₀ s) (hA : Covers 0x800002000000001 A) :
    Only A s₀ (State.smbNack s) := by
  unfold State.smbNack
  repeat' (first
    | with_reducible exact hS
    | with_reducible assumption
    | (with_reducible refine Covers.testBit hA ?_; decide)
    | (with_reducible refine Covers.trans ?_ hA; decide)
    | (extract_lets -underBinder +onlyGivenNames x; refine (fun (hx : Only A s₀ x) => ?_ : Only A s₀ x → _) ?_; (on_goal 2 => unfold x; clear x); (on_goal 1 => clear_value x; revert x; intro _ _))
    | (extract_lets -underBinder +onlyGivenNames x; unfold x; clear x)
    | (extract_lets -underBinder +onlyGivenNames x; revert x; intro _)
    | with_reducible refine Only.ite ?_ ?_
    | with_reducible refine State.err_only ?_ ?_ ?_
    | with_reducible refine State.emit_only ?_ ?_)

end Sys2Proof.Machine
end

