-- ==== Sys2Proof/Laws/OnlyDma.lean ====
section
/-! SUPPORT. What each operation of Machine/Dma.lean may change. -/

set_option linter.unusedTactic false
set_option linter.unreachableTactic false
set_option linter.unusedVariables false

namespace Sys2Proof.Machine

theorem State.updDma_only {A : Nat} {s₀ : State} {s : State} {n : Nat} {f : Dma → Dma} (hS : Only A s₀ s) (hA : Covers 0x4000000000000 A) :
    Only A s₀ (State.updDma s n f) := by
  unfold State.updDma
  repeat' (first
    | with_reducible exact hS
    | with_reducible assumption
    | (with_reducible refine Covers.testBit hA ?_; decide)
    | (with_reducible refine Covers.trans ?_ hA; decide)
    | (refine fun _ => ?_; intros)
    | with_reducible refine State.updRing_only ?_ ?_)

theorem State.putDmaCur_only {A : Nat} {s₀ : State} {s : State} {n : Nat} {a : Nat} (hS : Only A s₀ s) (hA : Covers 0x800 A) :
    Only A s₀ (State.putDmaCur s n a) := by
  unfold State.putDmaCur
  repeat' (first
    | with_reducible exact hS
    | with_reducible assumption
    | (with_reducible refine Covers.testBit hA ?_; decide)
    | (with_reducible refine Covers.trans ?_ hA; decide)
    | with_reducible refine State.put_only ?_ ?_)

theorem State.putDma_only {A : Nat} {s₀ : State} {s : State} {n : Nat} {v : Nat} (hS : Only A s₀ s) (hA : Covers 0x800 A) :
    Only A s₀ (State.putDma s n v) := by
  unfold State.putDma
  repeat' (first
    | with_reducible exact hS
    | with_reducible assumption
    | (with_reducible refine Covers.testBit hA ?_; decide)
    | (with_reducible refine Covers.trans ?_ hA; decide)
    | with_reducible refine State.put_only ?_ ?_)

theorem State.dmaEvent_only {A : Nat} {s₀ : State} {s : State} {n : Nat} (hS : Only A s₀ s) (hA : Covers 0x2000000000000 A) :
    Only A s₀ (State.dmaEvent s n) := by
  unfold State.dmaEvent
  repeat' (first
    | with_reducible exact hS
    | with_reducible assumption
    | (with_reducible refine Covers.testBit hA ?_; decide)
    | (with_reducible refine Covers.trans ?_ hA; decide)
    | with_reducible refine State.raiseEvent_only ?_ ?_)

theorem State.dmaFail_only {A : Nat} {s₀ : State} {s : State} {n : Nat} {code : Nat} {addr : Nat} (hS : Only A s₀ s) (hA : Covers 0x806000000000800 A) :
    Only A s₀ (State.dmaFail s n code addr) := by
  unfold State.dmaFail
  repeat' (first
    | with_reducible exact hS
    | with_reducible assumption
    | (with_reducible refine Covers.testBit hA ?_; decide)
    | (with_reducible refine Covers.trans ?_ hA; decide)
    | (refine fun _ => ?_; intros)
    | (extract_lets -underBinder +onlyGivenNames x; refine (fun (hx : Only A s₀ x) => ?_ : Only A s₀ x → _) ?_; (on_goal 2 => unfold x; clear x); (on_goal 1 => clear_value x; revert x; intro _ _))
    | (extract_lets -underBinder +onlyGivenNames x; unfold x; clear x)
    | (extract_lets -underBinder +onlyGivenNames x; revert x; intro _)
    | with_reducible refine State.put_only ?_ ?_
    | with_reducible refine State.report_only ?_ ?_
    | with_reducible refine State.updDma_only ?_ ?_
    | with_reducible refine State.putDma_only ?_ ?_
    | with_reducible refine State.dmaEvent_only ?_ ?_)

theorem State.dmaAborted_only {A : Nat} {s₀ : State} {s : State} {n : Nat} (hS : Only A s₀ s) (hA : Covers 0x6000000000800 A) :
    Only A s₀ (State.dmaAborted s n) := by
  unfold State.dmaAborted
  repeat' (first
    | with_reducible exact hS
    | with_reducible assumption
    | (with_reducible refine Covers.testBit hA ?_; decide)
    | (with_reducible refine Covers.trans ?_ hA; decide)
    | (refine fun _ => ?_; intros)
    | with_reducible refine State.put_only ?_ ?_
    | with_reducible refine State.updDma_only ?_ ?_
    | with_reducible refine State.putDma_only ?_ ?_
    | with_reducible refine State.dmaEvent_only ?_ ?_)

theorem State.dmaFetch_only {A : Nat} {s₀ : State} {s : State} {n : Nat} (hS : Only A s₀ s) (hA : Covers 0x1004000000000800 A) :
    Only A s₀ (State.dmaFetch s n) := by
  unfold State.dmaFetch
  repeat' (first
    | with_reducible exact hS
    | with_reducible assumption
    | (with_reducible refine Covers.testBit hA ?_; decide)
    | (with_reducible refine Covers.trans ?_ hA; decide)
    | (refine fun _ => ?_; intros)
    | with_reducible refine State.tagWait_only ?_ ?_
    | with_reducible refine State.request_only ?_ ?_
    | with_reducible refine State.updDma_only ?_ ?_
    | exact Only.Opt.none
    | with_reducible refine Only.Opt.some ?_
    | with_reducible refine Only.Opt.ite ?_ ?_
    | with_reducible refine Only.Opt.getD ?_ ?_
    | with_reducible refine Only.Opt.map ?_
    | split
    | with_reducible refine Only.Opt.elim (by assumption) ?_
    | (refine fun _ => ?_))

theorem State.dmaPieceData_only {A : Nat} {s₀ : State} {s : State} {n : Nat} {data : List (BitVec 8)} (hS : Only A s₀ s) (hA : Covers 0x1000000000 A) :
    Only.Fst A s₀ (State.dmaPieceData s n data) := by
  unfold State.dmaPieceData
  repeat' (first
    | with_reducible exact hS
    | with_reducible assumption
    | (with_reducible refine Covers.testBit hA ?_; decide)
    | (with_reducible refine Covers.trans ?_ hA; decide)
    | with_reducible refine Only.ite ?_ ?_
    | with_reducible refine State.tookFree_only ?_ ?_
    | with_reducible refine Only.Fst.ite ?_ ?_
    | with_reducible refine Only.Fst.unpair (by assumption)
    | with_reducible refine Only.Fst.of ?_
    | with_reducible refine Only.Fst.pair ?_
    | with_reducible refine Only.Fst.elim (by assumption) ?_)

theorem State.dmaRead_only {A : Nat} {s₀ : State} {s : State} {n : Nat} (hS : Only A s₀ s) (hA : Covers 0x1004000000000800 A) :
    Only A s₀ (State.dmaRead s n) := by
  unfold State.dmaRead
  repeat' (first
    | with_reducible exact hS
    | with_reducible assumption
    | (with_reducible refine Covers.testBit hA ?_; decide)
    | (with_reducible refine Covers.trans ?_ hA; decide)
    | (refine fun _ => ?_; intros)
    | (extract_lets -underBinder +onlyGivenNames x; refine (fun (hx : Only A s₀ x) => ?_ : Only A s₀ x → _) ?_; (on_goal 2 => unfold x; clear x); (on_goal 1 => clear_value x; revert x; intro _ _))
    | (extract_lets -underBinder +onlyGivenNames x; unfold x; clear x)
    | (extract_lets -underBinder +onlyGivenNames x; revert x; intro _)
    | with_reducible refine Only.ite ?_ ?_
    | with_reducible refine State.tagWait_only ?_ ?_
    | with_reducible refine State.request_only ?_ ?_
    | with_reducible refine State.updDma_only ?_ ?_
    | exact Only.Opt.none
    | with_reducible refine Only.Opt.some ?_
    | with_reducible refine Only.Opt.ite ?_ ?_
    | with_reducible refine Only.Opt.getD ?_ ?_
    | with_reducible refine Only.Opt.map ?_
    | split
    | with_reducible refine Only.Opt.elim (by assumption) ?_
    | (refine fun _ => ?_))

theorem State.dmaWrite_only {A : Nat} {s₀ : State} {s : State} {n : Nat} (hS : Only A s₀ s) (hA : Covers 0x1004000000000800 A) :
    Only A s₀ (State.dmaWrite s n) := by
  unfold State.dmaWrite
  repeat' (first
    | with_reducible exact hS
    | with_reducible assumption
    | (with_reducible refine Covers.testBit hA ?_; decide)
    | (with_reducible refine Covers.trans ?_ hA; decide)
    | (refine fun _ => ?_; intros)
    | (extract_lets -underBinder +onlyGivenNames x; refine (fun (hx : Only A s₀ x) => ?_ : Only A s₀ x → _) ?_; (on_goal 2 => unfold x; clear x); (on_goal 1 => clear_value x; revert x; intro _ _))
    | (extract_lets -underBinder +onlyGivenNames x; unfold x; clear x)
    | (extract_lets -underBinder +onlyGivenNames x; revert x; intro _)
    | with_reducible refine State.tagWait_only ?_ ?_
    | with_reducible refine State.request_only ?_ ?_
    | with_reducible refine State.updDma_only ?_ ?_
    | with_reducible refine State.dmaRead_only ?_ ?_
    | exact Only.Opt.none
    | with_reducible refine Only.Opt.some ?_
    | with_reducible refine Only.Opt.ite ?_ ?_
    | with_reducible refine Only.Opt.getD ?_ ?_
    | with_reducible refine Only.Opt.map ?_
    | split
    | with_reducible refine Only.Opt.elim (by assumption) ?_
    | (refine fun _ => ?_))

theorem State.dmaComplete_only {A : Nat} {s₀ : State} {s : State} {n : Nat} (hS : Only A s₀ s) (hA : Covers 0x1006000000000800 A) :
    Only A s₀ (State.dmaComplete s n) := by
  unfold State.dmaComplete
  repeat' (first
    | with_reducible exact hS
    | with_reducible assumption
    | (with_reducible refine Covers.testBit hA ?_; decide)
    | (with_reducible refine Covers.trans ?_ hA; decide)
    | (refine fun _ => ?_; intros)
    | (extract_lets -underBinder +onlyGivenNames x; refine (fun (hx : Only A s₀ x) => ?_ : Only A s₀ x → _) ?_; (on_goal 2 => unfold x; clear x); (on_goal 1 => clear_value x; revert x; intro _ _))
    | (extract_lets -underBinder +onlyGivenNames x; unfold x; clear x)
    | (extract_lets -underBinder +onlyGivenNames x; revert x; intro _)
    | with_reducible refine Only.ite ?_ ?_
    | with_reducible refine State.put_only ?_ ?_
    | with_reducible refine State.updDma_only ?_ ?_
    | with_reducible refine State.putDmaCur_only ?_ ?_
    | with_reducible refine State.putDma_only ?_ ?_
    | with_reducible refine State.dmaEvent_only ?_ ?_
    | with_reducible refine State.dmaFetch_only ?_ ?_
    | split
    | (refine fun _ => ?_))

theorem State.dmaPump_only {A : Nat} {s₀ : State} {s : State} {n : Nat} (hS : Only A s₀ s) (hA : Covers 0x1006000000000800 A) :
    Only A s₀ (State.dmaPump s n) := by
  unfold State.dmaPump
  repeat' (first
    | with_reducible exact hS
    | with_reducible assumption
    | (with_reducible refine Covers.testBit hA ?_; decide)
    | (with_reducible refine Covers.trans ?_ hA; decide)
    | (refine fun _ => ?_; intros)
    | (extract_lets -underBinder +onlyGivenNames x; refine (fun (hx : Only A s₀ x) => ?_ : Only A s₀ x → _) ?_; (on_goal 2 => unfold x; clear x); (on_goal 1 => clear_value x; revert x; intro _ _))
    | (extract_lets -underBinder +onlyGivenNames x; unfold x; clear x)
    | (extract_lets -underBinder +onlyGivenNames x; revert x; intro _)
    | with_reducible refine Only.ite ?_ ?_
    | with_reducible refine State.updDma_only ?_ ?_
    | with_reducible refine State.dmaAborted_only ?_ ?_
    | with_reducible refine State.dmaFetch_only ?_ ?_
    | with_reducible refine State.dmaRead_only ?_ ?_
    | with_reducible refine State.dmaWrite_only ?_ ?_)

theorem State.dmaStart_only {A : Nat} {s₀ : State} {s : State} {n : Nat} (hS : Only A s₀ s) (hA : Covers 0x1806000000000800 A) :
    Only A s₀ (State.dmaStart s n) := by
  unfold State.dmaStart
  repeat' (first
    | with_reducible exact hS
    | with_reducible assumption
    | (with_reducible refine Covers.testBit hA ?_; decide)
    | (with_reducible refine Covers.trans ?_ hA; decide)
    | (refine fun _ => ?_; intros)
    | (extract_lets -underBinder +onlyGivenNames x; refine (fun (hx : Only A s₀ x) => ?_ : Only A s₀ x → _) ?_; (on_goal 2 => unfold x; clear x); (on_goal 1 => clear_value x; revert x; intro _ _))
    | (extract_lets -underBinder +onlyGivenNames x; unfold x; clear x)
    | (extract_lets -underBinder +onlyGivenNames x; revert x; intro _)
    | with_reducible refine Only.ite ?_ ?_
    | with_reducible refine State.put_only ?_ ?_
    | with_reducible refine State.err_only ?_ ?_ ?_
    | with_reducible refine State.updDma_only ?_ ?_
    | with_reducible refine State.putDmaCur_only ?_ ?_
    | with_reducible refine State.putDma_only ?_ ?_
    | with_reducible refine State.dmaPump_only ?_ ?_)

theorem State.dmaAbort_only {A : Nat} {s₀ : State} {s : State} {n : Nat} (hS : Only A s₀ s) (hA : Covers 0x1006000000000800 A) :
    Only A s₀ (State.dmaAbort s n) := by
  unfold State.dmaAbort
  repeat' (first
    | with_reducible exact hS
    | with_reducible assumption
    | (with_reducible refine Covers.testBit hA ?_; decide)
    | (with_reducible refine Covers.trans ?_ hA; decide)
    | (refine fun _ => ?_; intros)
    | (extract_lets -underBinder +onlyGivenNames x; refine (fun (hx : Only A s₀ x) => ?_ : Only A s₀ x → _) ?_; (on_goal 2 => unfold x; clear x); (on_goal 1 => clear_value x; revert x; intro _ _))
    | (extract_lets -underBinder +onlyGivenNames x; unfold x; clear x)
    | (extract_lets -underBinder +onlyGivenNames x; revert x; intro _)
    | with_reducible refine Only.ite ?_ ?_
    | with_reducible refine State.put_only ?_ ?_
    | with_reducible refine State.updDma_only ?_ ?_
    | with_reducible refine State.dmaPump_only ?_ ?_)

theorem State.dmaResume_only {A : Nat} {s₀ : State} {s : State} {n : Nat} (hS : Only A s₀ s) (hA : Covers 0x1004000000000800 A) :
    Only A s₀ (State.dmaResume s n) := by
  unfold State.dmaResume
  repeat' (first
    | with_reducible exact hS
    | with_reducible assumption
    | (with_reducible refine Covers.testBit hA ?_; decide)
    | (with_reducible refine Covers.trans ?_ hA; decide)
    | with_reducible refine Only.ite ?_ ?_
    | with_reducible refine State.putDma_only ?_ ?_
    | with_reducible refine State.dmaFetch_only ?_ ?_)

theorem State.writeDmaCtrl_only {A : Nat} {s₀ : State} {s : State} {n : Nat} {m : Nat} {v : Nat} (hS : Only A s₀ s) (hA : Covers 0x1806000000000800 A) :
    Only A s₀ (State.writeDmaCtrl s n m v) := by
  unfold State.writeDmaCtrl
  repeat' (first
    | with_reducible exact hS
    | with_reducible assumption
    | (with_reducible refine Covers.testBit hA ?_; decide)
    | (with_reducible refine Covers.trans ?_ hA; decide)
    | (extract_lets -underBinder +onlyGivenNames x; refine (fun (hx : Only A s₀ x) => ?_ : Only A s₀ x → _) ?_; (on_goal 2 => unfold x; clear x); (on_goal 1 => clear_value x; revert x; intro _ _))
    | (extract_lets -underBinder +onlyGivenNames x; unfold x; clear x)
    | (extract_lets -underBinder +onlyGivenNames x; revert x; intro _)
    | with_reducible refine Only.ite ?_ ?_
    | with_reducible refine State.wrField_only ?_ ?_
    | with_reducible refine State.dmaStart_only ?_ ?_
    | with_reducible refine State.dmaAbort_only ?_ ?_
    | with_reducible refine State.dmaResume_only ?_ ?_)

theorem State.dmaResponse_only {A : Nat} {s₀ : State} {s : State} {n : Nat} {x : Txn} {ok : Bool} {data : List (BitVec 8)} (hS : Only A s₀ s) (hA : Covers 0x1806001000000800 A) :
    Only A s₀ (State.dmaResponse s n x ok data) := by
  unfold State.dmaResponse
  repeat' (first
    | with_reducible exact hS
    | with_reducible assumption
    | (with_reducible refine Covers.testBit hA ?_; decide)
    | (with_reducible refine Covers.trans ?_ hA; decide)
    | (refine fun _ => ?_; intros)
    | (extract_lets -underBinder +onlyGivenNames x; refine (fun (hx : Only A s₀ x) => ?_ : Only A s₀ x → _) ?_; (on_goal 2 => unfold x; clear x); (on_goal 1 => clear_value x; revert x; intro _ _))
    | (extract_lets -underBinder +onlyGivenNames x; unfold x; clear x)
    | (extract_lets -underBinder +onlyGivenNames x; revert x; intro _)
    | with_reducible refine Only.ite ?_ ?_
    | with_reducible refine State.put_only ?_ ?_
    | with_reducible refine State.updDma_only ?_ ?_
    | with_reducible refine State.dmaFail_only ?_ ?_
    | with_reducible refine State.dmaPieceData_only ?_ ?_
    | with_reducible refine State.dmaRead_only ?_ ?_
    | with_reducible refine State.dmaWrite_only ?_ ?_
    | with_reducible refine State.dmaPump_only ?_ ?_
    | with_reducible refine Only.Fst.ite ?_ ?_
    | with_reducible refine Only.Fst.unpair (by assumption)
    | split
    | with_reducible refine Only.Fst.of ?_
    | with_reducible refine Only.Fst.pair ?_
    | with_reducible refine Only.Fst.elim (by assumption) ?_
    | (refine fun _ => ?_))

theorem State.dmaDescriptorComplete_only {A : Nat} {s₀ : State} {s : State} {n : Nat} (hS : Only A s₀ s) (hA : Covers 0x1006000000000800 A) :
    Only A s₀ (State.dmaDescriptorComplete s n) := by
  unfold State.dmaDescriptorComplete
  repeat' (first
    | with_reducible exact hS
    | with_reducible assumption
    | (with_reducible refine Covers.testBit hA ?_; decide)
    | (with_reducible refine Covers.trans ?_ hA; decide)
    | with_reducible refine Only.ite ?_ ?_
    | with_reducible refine State.dmaComplete_only ?_ ?_)

theorem State.dmaReset_only {A : Nat} {s₀ : State} {s : State} {n : Nat} (hS : Only A s₀ s) (hA : Covers 0x4000000000800 A) :
    Only A s₀ (State.dmaReset s n) := by
  unfold State.dmaReset
  repeat' (first
    | with_reducible exact hS
    | with_reducible assumption
    | (with_reducible refine Covers.testBit hA ?_; decide)
    | (with_reducible refine Covers.trans ?_ hA; decide)
    | (refine fun _ => ?_; intros)
    | with_reducible refine State.updDma_only ?_ ?_
    | with_reducible refine State.putDma_only ?_ ?_)

theorem State.retryTags_only {A : Nat} {s₀ : State} {s : State} (hS : Only A s₀ s) (hA : Covers 0x1A8E20D0000868C0 A) :
    Only A s₀ (State.retryTags s) := by
  unfold State.retryTags
  repeat' (first
    | with_reducible exact hS
    | with_reducible assumption
    | (with_reducible refine Covers.testBit hA ?_; decide)
    | (with_reducible refine Covers.trans ?_ hA; decide)
    | (refine fun _ => ?_; intros)
    | with_reducible refine State.retryStalled_only ?_ ?_
    | with_reducible refine State.tapRequest_only ?_ ?_
    | with_reducible refine State.dmaPump_only ?_ ?_
    | with_reducible refine Only.foldl _ ?_ ?_
    | with_reducible refine Only.Fst.ite ?_ ?_
    | with_reducible refine Only.Fst.unpair (by assumption)
    | with_reducible refine Only.Fst.foldl _ ?_ ?_
    | with_reducible refine Only.Fst.of ?_
    | with_reducible refine Only.Fst.pair ?_
    | with_reducible refine Only.Fst.elim (by assumption) ?_)

theorem State.tagReturns_only {A : Nat} {s₀ : State} {s : State} {k : Nat} (hS : Only A s₀ s) (hA : Covers 0x1A8E20D0000868C0 A) :
    Only A s₀ (State.tagReturns s k) := by
  unfold State.tagReturns
  repeat' (first
    | with_reducible exact hS
    | with_reducible assumption
    | (with_reducible refine Covers.testBit hA ?_; decide)
    | (with_reducible refine Covers.trans ?_ hA; decide)
    | with_reducible refine State.tagHoldExpiry_only ?_ ?_
    | with_reducible refine State.retryTags_only ?_ ?_)

theorem State.completeTxn_only {A : Nat} {s₀ : State} {s : State} {x : Txn} {ok : Bool} {data : List (BitVec 8)} (hS : Only A s₀ s) (hA : Covers 0x1A8E20D0000868C0 A) :
    Only A s₀ (State.completeTxn s x ok data) := by
  unfold State.completeTxn
  repeat' (first
    | with_reducible exact hS
    | with_reducible assumption
    | (with_reducible refine Covers.testBit hA ?_; decide)
    | (with_reducible refine Covers.trans ?_ hA; decide)
    | (extract_lets -underBinder +onlyGivenNames x; refine (fun (hx : Only A s₀ x) => ?_ : Only A s₀ x → _) ?_; (on_goal 2 => unfold x; clear x); (on_goal 1 => clear_value x; revert x; intro _ _))
    | (extract_lets -underBinder +onlyGivenNames x; unfold x; clear x)
    | (extract_lets -underBinder +onlyGivenNames x; revert x; intro _)
    | with_reducible refine Only.ite ?_ ?_
    | with_reducible refine State.freeTxn_only ?_ ?_
    | with_reducible refine State.postedError_only ?_ ?_
    | with_reducible refine State.accessDone_only ?_ ?_
    | with_reducible refine State.tapDone_only ?_ ?_
    | with_reducible refine State.dmaResponse_only ?_ ?_
    | with_reducible refine State.retryTags_only ?_ ?_
    | split
    | (refine fun _ => ?_))

theorem State.ringTimeout_only {A : Nat} {s₀ : State} {s : State} {k : Nat} (hS : Only A s₀ s) (hA : Covers 0x1A8E20D0000868C0 A) :
    Only A s₀ (State.ringTimeout s k) := by
  unfold State.ringTimeout
  repeat' (first
    | with_reducible exact hS
    | with_reducible assumption
    | (with_reducible refine Covers.testBit hA ?_; decide)
    | (with_reducible refine Covers.trans ?_ hA; decide)
    | (refine fun _ => ?_; intros)
    | (extract_lets -underBinder +onlyGivenNames x; refine (fun (hx : Only A s₀ x) => ?_ : Only A s₀ x → _) ?_; (on_goal 2 => unfold x; clear x); (on_goal 1 => clear_value x; revert x; intro _ _))
    | (extract_lets -underBinder +onlyGivenNames x; unfold x; clear x)
    | (extract_lets -underBinder +onlyGivenNames x; revert x; intro _)
    | with_reducible refine State.inc_only ?_ ?_ ?_
    | with_reducible refine State.err_only ?_ ?_ ?_
    | with_reducible refine State.updRing_only ?_ ?_
    | with_reducible refine State.completeTxn_only ?_ ?_
    | split
    | (refine fun _ => ?_))

theorem State.staleResponse_only {A : Nat} {s₀ : State} {s : State} {r : Rsp} (hS : Only A s₀ s) (hA : Covers 0x1A8E20D0000868C0 A) :
    Only A s₀ (State.staleResponse s r) := by
  unfold State.staleResponse
  repeat' (first
    | with_reducible exact hS
    | with_reducible assumption
    | (with_reducible refine Covers.testBit hA ?_; decide)
    | (with_reducible refine Covers.trans ?_ hA; decide)
    | (refine fun _ => ?_; intros)
    | (extract_lets -underBinder +onlyGivenNames x; refine (fun (hx : Only A s₀ x) => ?_ : Only A s₀ x → _) ?_; (on_goal 2 => unfold x; clear x); (on_goal 1 => clear_value x; revert x; intro _ _))
    | (extract_lets -underBinder +onlyGivenNames x; unfold x; clear x)
    | (extract_lets -underBinder +onlyGivenNames x; revert x; intro _)
    | with_reducible refine Only.ite ?_ ?_
    | with_reducible refine State.inc_only ?_ ?_ ?_
    | with_reducible refine State.err_only ?_ ?_ ?_
    | with_reducible refine State.updRing_only ?_ ?_
    | with_reducible refine State.imprLost_only ?_ ?_
    | with_reducible refine State.retryTags_only ?_ ?_)

theorem State.response_only {A : Nat} {s₀ : State} {s : State} {k : Nat} {lat : Nat} (hS : Only A s₀ s) (hA : Covers 0x1A8E20D0000868C0 A) :
    Only A s₀ (State.response s k lat) := by
  unfold State.response
  repeat' (first
    | with_reducible exact hS
    | with_reducible assumption
    | (with_reducible refine Covers.testBit hA ?_; decide)
    | (with_reducible refine Covers.trans ?_ hA; decide)
    | (refine fun _ => ?_; intros)
    | (extract_lets -underBinder +onlyGivenNames x; refine (fun (hx : Only A s₀ x) => ?_ : Only A s₀ x → _) ?_; (on_goal 2 => unfold x; clear x); (on_goal 1 => clear_value x; revert x; intro _ _))
    | (extract_lets -underBinder +onlyGivenNames x; unfold x; clear x)
    | (extract_lets -underBinder +onlyGivenNames x; revert x; intro _)
    | with_reducible refine Only.ite ?_ ?_
    | with_reducible refine State.updRing_only ?_ ?_
    | with_reducible refine State.countResponse_only ?_ ?_
    | with_reducible refine State.completeTxn_only ?_ ?_
    | with_reducible refine State.staleResponse_only ?_ ?_
    | split
    | (refine fun _ => ?_))

end Sys2Proof.Machine
end

