-- ==== Sys2Proof/Laws/OnlyFrontLanes.lean ====
section
/-! SUPPORT. What each operation of Machine/FrontLanes.lean may change. -/

set_option linter.unusedTactic false
set_option linter.unreachableTactic false
set_option linter.unusedVariables false

namespace Sys2Proof.Machine

theorem State.laneErr_only {A : Nat} {s₀ : State} {s : State} {f : Fld} {n : Nat} {detail : Nat} (hS : Only A s₀ s) (hpf : A.testBit f.page = true) (hA : Covers 0x800000000000000 A) :
    Only A s₀ (State.laneErr s f n detail) := by
  unfold State.laneErr
  repeat' (first
    | with_reducible exact hS
    | with_reducible assumption
    | (with_reducible refine Covers.testBit hA ?_; decide)
    | (with_reducible refine Covers.trans ?_ hA; decide)
    | with_reducible refine State.err_only ?_ ?_ ?_)

theorem State.endScan_only {A : Nat} {s₀ : State} {s : State} {n : Nat} (hS : Only A s₀ s) (hA : Covers 0x4 A) :
    Only A s₀ (State.endScan s n) := by
  unfold State.endScan
  repeat' (first
    | with_reducible exact hS
    | with_reducible assumption
    | (with_reducible refine Covers.testBit hA ?_; decide)
    | (with_reducible refine Covers.trans ?_ hA; decide)
    | with_reducible refine Only.ite ?_ ?_
    | with_reducible refine State.put_only ?_ ?_)

theorem State.updFacet_only {A : Nat} {s₀ : State} {s : State} {f : Nat} {g : Facet → Facet} (hS : Only A s₀ s) (hA : Covers 0x20000000000 A) :
    Only A s₀ (State.updFacet s f g) := by
  unfold State.updFacet
  repeat' (first
    | with_reducible exact hS
    | with_reducible assumption
    | (with_reducible refine Covers.testBit hA ?_; decide)
    | (with_reducible refine Covers.trans ?_ hA; decide)
    | with_reducible refine Only.set_edge ?_ ?_)

theorem State.updPath_only {A : Nat} {s₀ : State} {s : State} {f : Nat} {l : Nat} {g : LanePath → LanePath} (hS : Only A s₀ s) (hA : Covers 0x20000000000 A) :
    Only A s₀ (State.updPath s f l g) := by
  unfold State.updPath
  repeat' (first
    | with_reducible exact hS
    | with_reducible assumption
    | (with_reducible refine Covers.testBit hA ?_; decide)
    | (with_reducible refine Covers.trans ?_ hA; decide)
    | (refine fun _ => ?_; intros)
    | with_reducible refine State.updFacet_only ?_ ?_)

theorem State.restartPath_only {A : Nat} {s₀ : State} {s : State} {f : Nat} {l : Nat} (hS : Only A s₀ s) (hA : Covers 0x20000000008 A) :
    Only A s₀ (State.restartPath s f l) := by
  unfold State.restartPath
  repeat' (first
    | with_reducible exact hS
    | with_reducible assumption
    | (with_reducible refine Covers.testBit hA ?_; decide)
    | (with_reducible refine Covers.trans ?_ hA; decide)
    | (refine fun _ => ?_; intros)
    | with_reducible refine State.put_only ?_ ?_
    | with_reducible refine State.updPath_only ?_ ?_)

theorem State.enterLane_only {A : Nat} {s₀ : State} {s : State} {n : Nat} {st : Nat} (hS : Only A s₀ s) (hA : Covers 0x2000000000C A) :
    Only A s₀ (State.enterLane s n st) := by
  unfold State.enterLane
  repeat' (first
    | with_reducible exact hS
    | with_reducible assumption
    | (with_reducible refine Covers.testBit hA ?_; decide)
    | (with_reducible refine Covers.trans ?_ hA; decide)
    | (refine fun _ => ?_; intros)
    | (extract_lets -underBinder +onlyGivenNames x; refine (fun (hx : Only A s₀ x) => ?_ : Only A s₀ x → _) ?_; (on_goal 2 => unfold x; clear x); (on_goal 1 => clear_value x; revert x; intro _ _))
    | (extract_lets -underBinder +onlyGivenNames x; unfold x; clear x)
    | (extract_lets -underBinder +onlyGivenNames x; revert x; intro _)
    | with_reducible refine Only.ite ?_ ?_
    | with_reducible refine State.put_only ?_ ?_
    | with_reducible refine State.endScan_only ?_ ?_
    | with_reducible refine State.restartPath_only ?_ ?_
    | with_reducible refine Only.foldl _ ?_ ?_
    | with_reducible refine Only.Fst.ite ?_ ?_
    | with_reducible refine Only.Fst.unpair (by assumption)
    | with_reducible refine Only.Fst.foldl _ ?_ ?_
    | with_reducible refine Only.Fst.of ?_
    | with_reducible refine Only.Fst.pair ?_
    | with_reducible refine Only.Fst.elim (by assumption) ?_)

theorem State.sendFront_only {A : Nat} {s₀ : State} {s : State} {n : Nat} {word : Nat} (hS : Only A s₀ s) (hA : Covers 0x2000000000 A) :
    Only A s₀ (State.sendFront s n word) := by
  unfold State.sendFront
  repeat' (first
    | with_reducible exact hS
    | with_reducible assumption
    | (with_reducible refine Covers.testBit hA ?_; decide)
    | (with_reducible refine Covers.trans ?_ hA; decide)
    | with_reducible refine Only.set_sent ?_ ?_)

theorem State.publishDl_only {A : Nat} {s₀ : State} {s : State} {n : Nat} (hS : Only A s₀ s) (hA : Covers 0x4 A) :
    Only A s₀ (State.publishDl s n) := by
  unfold State.publishDl
  repeat' (first
    | with_reducible exact hS
    | with_reducible assumption
    | (with_reducible refine Covers.testBit hA ?_; decide)
    | (with_reducible refine Covers.trans ?_ hA; decide)
    | (extract_lets -underBinder +onlyGivenNames x; refine (fun (hx : Only A s₀ x) => ?_ : Only A s₀ x → _) ?_; (on_goal 2 => unfold x; clear x); (on_goal 1 => clear_value x; revert x; intro _ _))
    | (extract_lets -underBinder +onlyGivenNames x; unfold x; clear x)
    | (extract_lets -underBinder +onlyGivenNames x; revert x; intro _)
    | with_reducible refine State.put_only ?_ ?_)

theorem State.writeLaneCtrl_only {A : Nat} {s₀ : State} {s : State} {n : Nat} {m : Nat} {v : Nat} (hS : Only A s₀ s) (hA : Covers 0xC0002000000000C A) :
    Only A s₀ (State.writeLaneCtrl s n m v) := by
  unfold State.writeLaneCtrl
  repeat' (first
    | with_reducible exact hS
    | with_reducible assumption
    | (with_reducible refine Covers.testBit hA ?_; decide)
    | (with_reducible refine Covers.trans ?_ hA; decide)
    | (with_reducible refine Covers.trans (Covers.trans (pageMask_all _) ?_) hA; decide)
    | (refine fun _ => ?_; intros)
    | (extract_lets -underBinder +onlyGivenNames x; refine (fun (hx : Only A s₀ x) => ?_ : Only A s₀ x → _) ?_; (on_goal 2 => unfold x; clear x); (on_goal 1 => clear_value x; revert x; intro _ _))
    | (extract_lets -underBinder +onlyGivenNames x; unfold x; clear x)
    | (extract_lets -underBinder +onlyGivenNames x; revert x; intro _)
    | with_reducible refine Only.ite ?_ ?_
    | with_reducible refine State.put_only ?_ ?_
    | with_reducible refine State.wrReg_only ?_ ?_
    | with_reducible refine State.updLane_only ?_ ?_
    | with_reducible refine State.laneErr_only ?_ ?_ ?_
    | with_reducible refine State.enterLane_only ?_ ?_
    | with_reducible refine State.publishDl_only ?_ ?_)

theorem State.lanePllLock_only {A : Nat} {s₀ : State} {s : State} {n : Nat} (hS : Only A s₀ s) (hA : Covers 0x2000000000C A) :
    Only A s₀ (State.lanePllLock s n) := by
  unfold State.lanePllLock
  repeat' (first
    | with_reducible exact hS
    | with_reducible assumption
    | (with_reducible refine Covers.testBit hA ?_; decide)
    | (with_reducible refine Covers.trans ?_ hA; decide)
    | (extract_lets -underBinder +onlyGivenNames x; refine (fun (hx : Only A s₀ x) => ?_ : Only A s₀ x → _) ?_; (on_goal 2 => unfold x; clear x); (on_goal 1 => clear_value x; revert x; intro _ _))
    | (extract_lets -underBinder +onlyGivenNames x; unfold x; clear x)
    | (extract_lets -underBinder +onlyGivenNames x; revert x; intro _)
    | with_reducible refine Only.ite ?_ ?_
    | with_reducible refine State.put_only ?_ ?_
    | with_reducible refine State.enterLane_only ?_ ?_)

theorem State.signalDetect_only {A : Nat} {s₀ : State} {s : State} {n : Nat} (hS : Only A s₀ s) (hA : Covers 0x2000000000C A) :
    Only A s₀ (State.signalDetect s n) := by
  unfold State.signalDetect
  repeat' (first
    | with_reducible exact hS
    | with_reducible assumption
    | (with_reducible refine Covers.testBit hA ?_; decide)
    | (with_reducible refine Covers.trans ?_ hA; decide)
    | with_reducible refine Only.ite ?_ ?_
    | with_reducible refine State.put_only ?_ ?_
    | with_reducible refine State.enterLane_only ?_ ?_)

theorem State.laneLockDone_only {A : Nat} {s₀ : State} {s : State} {n : Nat} {ctle : Nat} {dfe1 : Nat} (hS : Only A s₀ s) (hA : Covers 0x40002000000000C A) :
    Only A s₀ (State.laneLockDone s n ctle dfe1) := by
  unfold State.laneLockDone
  repeat' (first
    | with_reducible exact hS
    | with_reducible assumption
    | (with_reducible refine Covers.testBit hA ?_; decide)
    | (with_reducible refine Covers.trans ?_ hA; decide)
    | (refine fun _ => ?_; intros)
    | (extract_lets -underBinder +onlyGivenNames x; refine (fun (hx : Only A s₀ x) => ?_ : Only A s₀ x → _) ?_; (on_goal 2 => unfold x; clear x); (on_goal 1 => clear_value x; revert x; intro _ _))
    | (extract_lets -underBinder +onlyGivenNames x; unfold x; clear x)
    | (extract_lets -underBinder +onlyGivenNames x; revert x; intro _)
    | with_reducible refine Only.ite ?_ ?_
    | with_reducible refine State.put_only ?_ ?_
    | with_reducible refine State.updLane_only ?_ ?_
    | with_reducible refine State.enterLane_only ?_ ?_)

theorem State.lockTimeout_only {A : Nat} {s₀ : State} {s : State} {n : Nat} (hS : Only A s₀ s) (hA : Covers 0x80002000000000C A) :
    Only A s₀ (State.lockTimeout s n) := by
  unfold State.lockTimeout
  repeat' (first
    | with_reducible exact hS
    | with_reducible assumption
    | (with_reducible refine Covers.testBit hA ?_; decide)
    | (with_reducible refine Covers.trans ?_ hA; decide)
    | with_reducible refine Only.ite ?_ ?_
    | with_reducible refine State.laneErr_only ?_ ?_ ?_
    | with_reducible refine State.enterLane_only ?_ ?_)

theorem State.signalLost_only {A : Nat} {s₀ : State} {s : State} {n : Nat} (hS : Only A s₀ s) (hA : Covers 0x180002000000000C A) :
    Only A s₀ (State.signalLost s n) := by
  unfold State.signalLost
  repeat' (first
    | with_reducible exact hS
    | with_reducible assumption
    | (with_reducible refine Covers.testBit hA ?_; decide)
    | (with_reducible refine Covers.trans ?_ hA; decide)
    | with_reducible refine Only.ite ?_ ?_
    | with_reducible refine State.put_only ?_ ?_
    | with_reducible refine State.inc_only ?_ ?_ ?_
    | with_reducible refine State.laneErr_only ?_ ?_ ?_
    | with_reducible refine State.enterLane_only ?_ ?_)

theorem State.cdrLost_only {A : Nat} {s₀ : State} {s : State} {n : Nat} (hS : Only A s₀ s) (hA : Covers 0x180002000000000C A) :
    Only A s₀ (State.cdrLost s n) := by
  unfold State.cdrLost
  repeat' (first
    | with_reducible exact hS
    | with_reducible assumption
    | (with_reducible refine Covers.testBit hA ?_; decide)
    | (with_reducible refine Covers.trans ?_ hA; decide)
    | with_reducible refine Only.ite ?_ ?_
    | with_reducible refine State.put_only ?_ ?_
    | with_reducible refine State.inc_only ?_ ?_ ?_
    | with_reducible refine State.laneErr_only ?_ ?_ ?_
    | with_reducible refine State.enterLane_only ?_ ?_)

theorem State.adaptRestart_only {A : Nat} {s₀ : State} {s : State} {n : Nat} (hS : Only A s₀ s) (hA : Covers 0x400000000000004 A) :
    Only A s₀ (State.adaptRestart s n) := by
  unfold State.adaptRestart
  repeat' (first
    | with_reducible exact hS
    | with_reducible assumption
    | (with_reducible refine Covers.testBit hA ?_; decide)
    | (with_reducible refine Covers.trans ?_ hA; decide)
    | (refine fun _ => ?_; intros)
    | with_reducible refine Only.ite ?_ ?_
    | with_reducible refine State.put_only ?_ ?_
    | with_reducible refine State.updLane_only ?_ ?_)

theorem State.writeTxFfe_only {A : Nat} {s₀ : State} {s : State} {n : Nat} {m : Nat} {v : Nat} (hS : Only A s₀ s) (hA : Covers 0x800000000000004 A) :
    Only A s₀ (State.writeTxFfe s n m v) := by
  unfold State.writeTxFfe
  repeat' (first
    | with_reducible exact hS
    | with_reducible assumption
    | (with_reducible refine Covers.testBit hA ?_; decide)
    | (with_reducible refine Covers.trans ?_ hA; decide)
    | (with_reducible refine Covers.trans (Covers.trans (pageMask_all _) ?_) hA; decide)
    | (extract_lets -underBinder +onlyGivenNames x; refine (fun (hx : Only A s₀ x) => ?_ : Only A s₀ x → _) ?_; (on_goal 2 => unfold x; clear x); (on_goal 1 => clear_value x; revert x; intro _ _))
    | (extract_lets -underBinder +onlyGivenNames x; unfold x; clear x)
    | (extract_lets -underBinder +onlyGivenNames x; revert x; intro _)
    | with_reducible refine Only.ite ?_ ?_
    | with_reducible refine State.put_only ?_ ?_
    | with_reducible refine State.wrReg_only ?_ ?_
    | with_reducible refine State.laneErr_only ?_ ?_ ?_)

theorem State.eyeStart_only {A : Nat} {s₀ : State} {s : State} {n : Nat} (hS : Only A s₀ s) (hA : Covers 0x800000000000004 A) :
    Only A s₀ (State.eyeStart s n) := by
  unfold State.eyeStart
  repeat' (first
    | with_reducible exact hS
    | with_reducible assumption
    | (with_reducible refine Covers.testBit hA ?_; decide)
    | (with_reducible refine Covers.trans ?_ hA; decide)
    | with_reducible refine Only.ite ?_ ?_
    | with_reducible refine State.put_only ?_ ?_
    | with_reducible refine State.laneErr_only ?_ ?_ ?_)

theorem State.eyeDone_only {A : Nat} {s₀ : State} {s : State} {n : Nat} {height : Nat} {width : Nat} (hS : Only A s₀ s) (hA : Covers 0x4 A) :
    Only A s₀ (State.eyeDone s n height width) := by
  unfold State.eyeDone
  repeat' (first
    | with_reducible exact hS
    | with_reducible assumption
    | (with_reducible refine Covers.testBit hA ?_; decide)
    | (with_reducible refine Covers.trans ?_ hA; decide)
    | with_reducible refine Only.ite ?_ ?_
    | with_reducible refine State.put_only ?_ ?_)

theorem State.slowHunt_only {A : Nat} {s₀ : State} {n : Nat} {v0 : Nat} {v1 : State} (hS : Only A s₀ v1) (hA : Covers 0x1C00000000000004 A) :
    Only A s₀ (State.slowHunt n v0 v1) := by
  induction v0 generalizing v1 with
  | zero =>
    unfold State.slowHunt
    repeat' (first
      | with_reducible exact hS
      | with_reducible assumption
      | (with_reducible refine Covers.testBit hA ?_; decide)
      | (with_reducible refine Covers.trans ?_ hA; decide)
      | (refine fun _ => ?_; intros)
      | (extract_lets -underBinder +onlyGivenNames x; refine (fun (hx : Only A s₀ x) => ?_ : Only A s₀ x → _) ?_; (on_goal 2 => unfold x; clear x); (on_goal 1 => clear_value x; revert x; intro _ _))
      | (extract_lets -underBinder +onlyGivenNames x; unfold x; clear x)
      | (extract_lets -underBinder +onlyGivenNames x; revert x; intro _)
      | with_reducible refine Only.ite ?_ ?_
      | with_reducible refine State.inc_only ?_ ?_ ?_
      | with_reducible refine State.updLane_only ?_ ?_
      | with_reducible refine State.laneErr_only ?_ ?_ ?_
      | with_reducible refine Only.Fst.ite ?_ ?_
      | with_reducible refine Only.Fst.unpair (by assumption)
      | split
      | with_reducible refine Only.Fst.of ?_
      | with_reducible refine Only.Fst.pair ?_
      | with_reducible refine Only.Fst.elim (by assumption) ?_
      | (refine fun _ => ?_))
  | succ k ih =>
    unfold State.slowHunt
    repeat' (first
      | with_reducible exact hS
      | with_reducible assumption
      | (with_reducible refine Covers.testBit hA ?_; decide)
      | (with_reducible refine Covers.trans ?_ hA; decide)
      | with_reducible refine ih ?_
      | (refine fun _ => ?_; intros)
      | (extract_lets -underBinder +onlyGivenNames x; refine (fun (hx : Only A s₀ x) => ?_ : Only A s₀ x → _) ?_; (on_goal 2 => unfold x; clear x); (on_goal 1 => clear_value x; revert x; intro _ _))
      | (extract_lets -underBinder +onlyGivenNames x; unfold x; clear x)
      | (extract_lets -underBinder +onlyGivenNames x; revert x; intro _)
      | with_reducible refine Only.ite ?_ ?_
      | with_reducible refine State.inc_only ?_ ?_ ?_
      | with_reducible refine State.updLane_only ?_ ?_
      | with_reducible refine State.laneErr_only ?_ ?_ ?_
      | with_reducible refine Only.Fst.ite ?_ ?_
      | with_reducible refine Only.Fst.unpair (by assumption)
      | split
      | with_reducible refine Only.Fst.of ?_
      | with_reducible refine Only.Fst.pair ?_
      | with_reducible refine Only.Fst.elim (by assumption) ?_
      | (refine fun _ => ?_))

theorem State.slowByte_only {A : Nat} {s₀ : State} {s : State} {n : Nat} {b : BitVec 8} (hS : Only A s₀ s) (hA : Covers 0x400000000000000 A) :
    Only A s₀ (State.slowByte s n b) := by
  unfold State.slowByte
  repeat' (first
    | with_reducible exact hS
    | with_reducible assumption
    | (with_reducible refine Covers.testBit hA ?_; decide)
    | (with_reducible refine Covers.trans ?_ hA; decide)
    | (refine fun _ => ?_; intros)
    | with_reducible refine Only.ite ?_ ?_
    | with_reducible refine State.updLane_only ?_ ?_)

theorem State.ageFrom_only {A : Nat} {s₀ : State} {s : State} {n : Nat} {a : Nat} (hS : Only A s₀ s) (hA : Covers 0x400000000000000 A) :
    Only A s₀ (State.ageFrom s n a) := by
  unfold State.ageFrom
  repeat' (first
    | with_reducible exact hS
    | with_reducible assumption
    | (with_reducible refine Covers.testBit hA ?_; decide)
    | (with_reducible refine Covers.trans ?_ hA; decide)
    | (refine fun _ => ?_; intros)
    | with_reducible refine State.updLane_only ?_ ?_)

theorem State.takeAge_only {A : Nat} {s₀ : State} {s : State} {n : Nat} (hS : Only A s₀ s) (hA : Covers 0x400000000000000 A) :
    Only A s₀ (State.takeAge s n) := by
  unfold State.takeAge
  repeat' (first
    | with_reducible exact hS
    | with_reducible assumption
    | (with_reducible refine Covers.testBit hA ?_; decide)
    | (with_reducible refine Covers.trans ?_ hA; decide)
    | with_reducible refine Only.ite ?_ ?_
    | with_reducible refine State.ageFrom_only ?_ ?_)

theorem State.takeIdentity_only {A : Nat} {s₀ : State} {s : State} {n : Nat} {p : List (BitVec 8)} (hS : Only A s₀ s) (hA : Covers 0xC00040000000004 A) :
    Only A s₀ (State.takeIdentity s n p) := by
  unfold State.takeIdentity
  repeat' (first
    | with_reducible exact hS
    | with_reducible assumption
    | (with_reducible refine Covers.testBit hA ?_; decide)
    | (with_reducible refine Covers.trans ?_ hA; decide)
    | (extract_lets -underBinder +onlyGivenNames x; refine (fun (hx : Only A s₀ x) => ?_ : Only A s₀ x → _) ?_; (on_goal 2 => unfold x; clear x); (on_goal 1 => clear_value x; revert x; intro _ _))
    | (extract_lets -underBinder +onlyGivenNames x; unfold x; clear x)
    | (extract_lets -underBinder +onlyGivenNames x; revert x; intro _)
    | with_reducible refine Only.ite ?_ ?_
    | with_reducible refine State.put_only ?_ ?_
    | with_reducible refine State.laneErr_only ?_ ?_ ?_
    | with_reducible refine State.ageFrom_only ?_ ?_
    | with_reducible refine Only.set_ledIn ?_ ?_)

theorem State.takeUser_only {A : Nat} {s₀ : State} {s : State} {n : Nat} {type : Nat} {p : List (BitVec 8)} (hS : Only A s₀ s) (hA : Covers 0x1800000000000004 A) :
    Only A s₀ (State.takeUser s n type p) := by
  unfold State.takeUser
  repeat' (first
    | with_reducible exact hS
    | with_reducible assumption
    | (with_reducible refine Covers.testBit hA ?_; decide)
    | (with_reducible refine Covers.trans ?_ hA; decide)
    | (refine fun _ => ?_; intros)
    | (extract_lets -underBinder +onlyGivenNames x; refine (fun (hx : Only A s₀ x) => ?_ : Only A s₀ x → _) ?_; (on_goal 2 => unfold x; clear x); (on_goal 1 => clear_value x; revert x; intro _ _))
    | (extract_lets -underBinder +onlyGivenNames x; unfold x; clear x)
    | (extract_lets -underBinder +onlyGivenNames x; revert x; intro _)
    | with_reducible refine Only.ite ?_ ?_
    | with_reducible refine State.put_only ?_ ?_
    | with_reducible refine State.inc_only ?_ ?_ ?_
    | with_reducible refine State.laneErr_only ?_ ?_ ?_
    | with_reducible refine Only.forN _ ?_ ?_)

theorem State.slowAct_only {A : Nat} {s₀ : State} {s : State} {n : Nat} {type : Nat} {p : List (BitVec 8)} (hS : Only A s₀ s) (hA : Covers 0x1C00040000000004 A) :
    Only A s₀ (State.slowAct s n type p) := by
  unfold State.slowAct
  repeat' (first
    | with_reducible exact hS
    | with_reducible assumption
    | (with_reducible refine Covers.testBit hA ?_; decide)
    | (with_reducible refine Covers.trans ?_ hA; decide)
    | (extract_lets -underBinder +onlyGivenNames x; refine (fun (hx : Only A s₀ x) => ?_ : Only A s₀ x → _) ?_; (on_goal 2 => unfold x; clear x); (on_goal 1 => clear_value x; revert x; intro _ _))
    | (extract_lets -underBinder +onlyGivenNames x; unfold x; clear x)
    | (extract_lets -underBinder +onlyGivenNames x; revert x; intro _)
    | with_reducible refine Only.ite ?_ ?_
    | with_reducible refine State.put_only ?_ ?_
    | with_reducible refine State.inc_only ?_ ?_ ?_
    | with_reducible refine State.takeIdentity_only ?_ ?_
    | with_reducible refine State.takeUser_only ?_ ?_
    | with_reducible refine Only.set_ledIn ?_ ?_)

theorem State.slowFrame_only {A : Nat} {s₀ : State} {s : State} {n : Nat} {mine : Nat → Bool} (hS : Only A s₀ s) (hA : Covers 0x1C00040000000004 A) :
    Only A s₀ (State.slowFrame s n mine) := by
  unfold State.slowFrame
  repeat' (first
    | with_reducible exact hS
    | with_reducible assumption
    | (with_reducible refine Covers.testBit hA ?_; decide)
    | (with_reducible refine Covers.trans ?_ hA; decide)
    | (refine fun _ => ?_; intros)
    | (extract_lets -underBinder +onlyGivenNames x; refine (fun (hx : Only A s₀ x) => ?_ : Only A s₀ x → _) ?_; (on_goal 2 => unfold x; clear x); (on_goal 1 => clear_value x; revert x; intro _ _))
    | (extract_lets -underBinder +onlyGivenNames x; unfold x; clear x)
    | (extract_lets -underBinder +onlyGivenNames x; revert x; intro _)
    | with_reducible refine Only.ite ?_ ?_
    | with_reducible refine State.inc_only ?_ ?_ ?_
    | with_reducible refine State.updLane_only ?_ ?_
    | with_reducible refine State.slowHunt_only ?_ ?_
    | with_reducible refine State.slowAct_only ?_ ?_
    | split
    | (refine fun _ => ?_))

theorem State.identityTimeout_only {A : Nat} {s₀ : State} {s : State} {n : Nat} (hS : Only A s₀ s) (hA : Covers 0xC00040000000004 A) :
    Only A s₀ (State.identityTimeout s n) := by
  unfold State.identityTimeout
  repeat' (first
    | with_reducible exact hS
    | with_reducible assumption
    | (with_reducible refine Covers.testBit hA ?_; decide)
    | (with_reducible refine Covers.trans ?_ hA; decide)
    | (extract_lets -underBinder +onlyGivenNames x; refine (fun (hx : Only A s₀ x) => ?_ : Only A s₀ x → _) ?_; (on_goal 2 => unfold x; clear x); (on_goal 1 => clear_value x; revert x; intro _ _))
    | (extract_lets -underBinder +onlyGivenNames x; unfold x; clear x)
    | (extract_lets -underBinder +onlyGivenNames x; revert x; intro _)
    | with_reducible refine Only.ite ?_ ?_
    | with_reducible refine State.put_only ?_ ?_
    | with_reducible refine State.laneErr_only ?_ ?_ ?_
    | with_reducible refine State.ageFrom_only ?_ ?_
    | with_reducible refine Only.set_ledIn ?_ ?_)

theorem State.slowSend_only {A : Nat} {s₀ : State} {s : State} {n : Nat} (hS : Only A s₀ s) (hA : Covers 0xC00000000000004 A) :
    Only A s₀ (State.slowSend s n) := by
  unfold State.slowSend
  repeat' (first
    | with_reducible exact hS
    | with_reducible assumption
    | (with_reducible refine Covers.testBit hA ?_; decide)
    | (with_reducible refine Covers.trans ?_ hA; decide)
    | (refine fun _ => ?_; intros)
    | (extract_lets -underBinder +onlyGivenNames x; refine (fun (hx : Only A s₀ x) => ?_ : Only A s₀ x → _) ?_; (on_goal 2 => unfold x; clear x); (on_goal 1 => clear_value x; revert x; intro _ _))
    | (extract_lets -underBinder +onlyGivenNames x; unfold x; clear x)
    | (extract_lets -underBinder +onlyGivenNames x; revert x; intro _)
    | with_reducible refine Only.ite ?_ ?_
    | with_reducible refine State.put_only ?_ ?_
    | with_reducible refine State.updLane_only ?_ ?_
    | with_reducible refine State.laneErr_only ?_ ?_ ?_)

theorem State.slowAbort_only {A : Nat} {s₀ : State} {s : State} {n : Nat} (hS : Only A s₀ s) (hA : Covers 0x400000000000004 A) :
    Only A s₀ (State.slowAbort s n) := by
  unfold State.slowAbort
  repeat' (first
    | with_reducible exact hS
    | with_reducible assumption
    | (with_reducible refine Covers.testBit hA ?_; decide)
    | (with_reducible refine Covers.trans ?_ hA; decide)
    | (refine fun _ => ?_; intros)
    | with_reducible refine Only.ite ?_ ?_
    | with_reducible refine State.put_only ?_ ?_
    | with_reducible refine State.updLane_only ?_ ?_)

theorem State.writeDl_only {A : Nat} {s₀ : State} {s : State} {n : Nat} {off : Nat} {m : Nat} {v : Nat} (hS : Only A s₀ s) (hA : Covers 0xC00000000000004 A) :
    Only A s₀ (State.writeDl s n off m v) := by
  unfold State.writeDl
  repeat' (first
    | with_reducible exact hS
    | with_reducible assumption
    | (with_reducible refine Covers.testBit hA ?_; decide)
    | (with_reducible refine Covers.trans ?_ hA; decide)
    | (with_reducible refine Covers.trans (Covers.trans (pageMask_all _) ?_) hA; decide)
    | (refine fun _ => ?_; intros)
    | (extract_lets -underBinder +onlyGivenNames x; refine (fun (hx : Only A s₀ x) => ?_ : Only A s₀ x → _) ?_; (on_goal 2 => unfold x; clear x); (on_goal 1 => clear_value x; revert x; intro _ _))
    | (extract_lets -underBinder +onlyGivenNames x; unfold x; clear x)
    | (extract_lets -underBinder +onlyGivenNames x; revert x; intro _)
    | with_reducible refine Only.ite ?_ ?_
    | with_reducible refine State.wrReg_only ?_ ?_
    | with_reducible refine State.updLane_only ?_ ?_
    | with_reducible refine State.laneErr_only ?_ ?_ ?_
    | with_reducible refine State.publishDl_only ?_ ?_)

theorem State.downlinkSlot_only {A : Nat} {s₀ : State} {s : State} {n : Nat} {extra : Bool} (hS : Only A s₀ s) (hA : Covers 0x1C00000000000014 A) :
    Only A s₀ (State.downlinkSlot s n extra) := by
  unfold State.downlinkSlot
  repeat' (first
    | with_reducible exact hS
    | with_reducible assumption
    | (with_reducible refine Covers.testBit hA ?_; decide)
    | (with_reducible refine Covers.trans ?_ hA; decide)
    | (refine fun _ => ?_; intros)
    | (extract_lets -underBinder +onlyGivenNames x; refine (fun (hx : Only A s₀ x) => ?_ : Only A s₀ x → _) ?_; (on_goal 2 => unfold x; clear x); (on_goal 1 => clear_value x; revert x; intro _ _))
    | (extract_lets -underBinder +onlyGivenNames x; unfold x; clear x)
    | (extract_lets -underBinder +onlyGivenNames x; revert x; intro _)
    | with_reducible refine Only.ite ?_ ?_
    | with_reducible refine State.put_only ?_ ?_
    | with_reducible refine State.add_only ?_ ?_ ?_
    | with_reducible refine State.inc_only ?_ ?_ ?_
    | with_reducible refine State.err_only ?_ ?_ ?_
    | with_reducible refine State.updLane_only ?_ ?_
    | split)

theorem State.refclkPresence_only {A : Nat} {s₀ : State} {s : State} {k : Nat} {present : Bool} (hS : Only A s₀ s) (hA : Covers 0x4 A) :
    Only A s₀ (State.refclkPresence s k present) := by
  unfold State.refclkPresence
  repeat' (first
    | with_reducible exact hS
    | with_reducible assumption
    | (with_reducible refine Covers.testBit hA ?_; decide)
    | (with_reducible refine Covers.trans ?_ hA; decide)
    | with_reducible refine State.setBit_only ?_ ?_)

end Sys2Proof.Machine
end

