-- ==== Sys2Proof/Laws/OnlyEdgePaths.lean ====
section
/-! SUPPORT. What each operation of Machine/EdgePaths.lean may change. -/

set_option linter.unusedTactic false
set_option linter.unreachableTactic false
set_option linter.unusedVariables false

namespace Sys2Proof.Machine

theorem State.facetErr_only {A : Nat} {s₀ : State} {s : State} {f : Fld} {k : Nat} {detail : Nat} (hS : Only A s₀ s) (hpf : A.testBit f.page = true) (hA : Covers 0x800000000000000 A) :
    Only A s₀ (State.facetErr s f k detail) := by
  unfold State.facetErr
  repeat' (first
    | with_reducible exact hS
    | with_reducible assumption
    | (with_reducible refine Covers.testBit hA ?_; decide)
    | (with_reducible refine Covers.trans ?_ hA; decide)
    | with_reducible refine State.err_only ?_ ?_ ?_)

theorem State.pushBlock_only {A : Nat} {s₀ : State} {s : State} {f : Nat} {l : Nat} {b : Block} (hS : Only A s₀ s) (hA : Covers 0x1800020000000008 A) :
    Only A s₀ (State.pushBlock s f l b) := by
  unfold State.pushBlock
  repeat' (first
    | with_reducible exact hS
    | with_reducible assumption
    | (with_reducible refine Covers.testBit hA ?_; decide)
    | (with_reducible refine Covers.trans ?_ hA; decide)
    | (refine fun _ => ?_; intros)
    | (extract_lets -underBinder +onlyGivenNames x; refine (fun (hx : Only A s₀ x) => ?_ : Only A s₀ x → _) ?_; (on_goal 2 => unfold x; clear x); (on_goal 1 => clear_value x; revert x; intro _ _))
    | (extract_lets -underBinder +onlyGivenNames x; unfold x; clear x)
    | (extract_lets -underBinder +onlyGivenNames x; revert x; intro _)
    | with_reducible refine Only.ite ?_ ?_
    | with_reducible refine State.inc_only ?_ ?_ ?_
    | with_reducible refine State.updPath_only ?_ ?_
    | with_reducible refine State.facetErr_only ?_ ?_ ?_)

theorem State.judgeBlock_only {A : Nat} {s₀ : State} {s : State} {f : Nat} {l : Nat} {b : Nat} (hS : Only A s₀ s) (hA : Covers 0x1800020000000008 A) :
    Only A s₀ (State.judgeBlock s f l b) := by
  unfold State.judgeBlock
  repeat' (first
    | with_reducible exact hS
    | with_reducible assumption
    | (with_reducible refine Covers.testBit hA ?_; decide)
    | (with_reducible refine Covers.trans ?_ hA; decide)
    | (refine fun _ => ?_; intros)
    | (extract_lets -underBinder +onlyGivenNames x; refine (fun (hx : Only A s₀ x) => ?_ : Only A s₀ x → _) ?_; (on_goal 2 => unfold x; clear x); (on_goal 1 => clear_value x; revert x; intro _ _))
    | (extract_lets -underBinder +onlyGivenNames x; unfold x; clear x)
    | (extract_lets -underBinder +onlyGivenNames x; revert x; intro _)
    | with_reducible refine Only.ite ?_ ?_
    | with_reducible refine State.put_only ?_ ?_
    | with_reducible refine State.inc_only ?_ ?_ ?_
    | with_reducible refine State.updPath_only ?_ ?_
    | with_reducible refine State.pushBlock_only ?_ ?_)

theorem State.cutBlocks_only {A : Nat} {s₀ : State} {f : Nat} {l : Nat} {v0 : Nat} {v1 : State} (hS : Only A s₀ v1) (hA : Covers 0x1800020000000008 A) :
    Only A s₀ (State.cutBlocks f l v0 v1) := by
  induction v0 generalizing v1 with
  | zero =>
    unfold State.cutBlocks
    repeat' (first
      | with_reducible exact hS
      | with_reducible assumption
      | (with_reducible refine Covers.testBit hA ?_; decide)
      | (with_reducible refine Covers.trans ?_ hA; decide)
      | (refine fun _ => ?_; intros)
      | (extract_lets -underBinder +onlyGivenNames x; refine (fun (hx : Only A s₀ x) => ?_ : Only A s₀ x → _) ?_; (on_goal 2 => unfold x; clear x); (on_goal 1 => clear_value x; revert x; intro _ _))
      | (extract_lets -underBinder +onlyGivenNames x; unfold x; clear x)
      | (extract_lets -underBinder +onlyGivenNames x; revert x; intro _)
      | with_reducible refine Only.ite ?_ ?_
      | with_reducible refine State.updPath_only ?_ ?_
      | with_reducible refine State.judgeBlock_only ?_ ?_
      | with_reducible refine Only.Fst.ite ?_ ?_
      | with_reducible refine Only.Fst.unpair (by assumption)
      | split
      | with_reducible refine Only.Fst.of ?_
      | with_reducible refine Only.Fst.pair ?_
      | with_reducible refine Only.Fst.elim (by assumption) ?_)
  | succ k ih =>
    unfold State.cutBlocks
    repeat' (first
      | with_reducible exact hS
      | with_reducible assumption
      | (with_reducible refine Covers.testBit hA ?_; decide)
      | (with_reducible refine Covers.trans ?_ hA; decide)
      | with_reducible refine ih ?_
      | (refine fun _ => ?_; intros)
      | (extract_lets -underBinder +onlyGivenNames x; refine (fun (hx : Only A s₀ x) => ?_ : Only A s₀ x → _) ?_; (on_goal 2 => unfold x; clear x); (on_goal 1 => clear_value x; revert x; intro _ _))
      | (extract_lets -underBinder +onlyGivenNames x; unfold x; clear x)
      | (extract_lets -underBinder +onlyGivenNames x; revert x; intro _)
      | with_reducible refine Only.ite ?_ ?_
      | with_reducible refine State.updPath_only ?_ ?_
      | with_reducible refine State.judgeBlock_only ?_ ?_
      | with_reducible refine Only.Fst.ite ?_ ?_
      | with_reducible refine Only.Fst.unpair (by assumption)
      | split
      | with_reducible refine Only.Fst.of ?_
      | with_reducible refine Only.Fst.pair ?_
      | with_reducible refine Only.Fst.elim (by assumption) ?_)

theorem State.pathWord_only {A : Nat} {s₀ : State} {s : State} {f : Nat} {l : Nat} {word : Nat} (hS : Only A s₀ s) (hA : Covers 0x1800020000000008 A) :
    Only A s₀ (State.pathWord s f l word) := by
  unfold State.pathWord
  repeat' (first
    | with_reducible exact hS
    | with_reducible assumption
    | (with_reducible refine Covers.testBit hA ?_; decide)
    | (with_reducible refine Covers.trans ?_ hA; decide)
    | (refine fun _ => ?_; intros)
    | (extract_lets -underBinder +onlyGivenNames x; refine (fun (hx : Only A s₀ x) => ?_ : Only A s₀ x → _) ?_; (on_goal 2 => unfold x; clear x); (on_goal 1 => clear_value x; revert x; intro _ _))
    | (extract_lets -underBinder +onlyGivenNames x; unfold x; clear x)
    | (extract_lets -underBinder +onlyGivenNames x; revert x; intro _)
    | with_reducible refine State.updPath_only ?_ ?_
    | with_reducible refine State.cutBlocks_only ?_ ?_)

theorem State.takeWord_only {A : Nat} {s₀ : State} {s : State} {n : Nat} {raw : Nat} (hS : Only A s₀ s) (hA : Covers 0x180002200000000C A) :
    Only A s₀ (State.takeWord s n raw) := by
  unfold State.takeWord
  repeat' (first
    | with_reducible exact hS
    | with_reducible assumption
    | (with_reducible refine Covers.testBit hA ?_; decide)
    | (with_reducible refine Covers.trans ?_ hA; decide)
    | (extract_lets -underBinder +onlyGivenNames x; refine (fun (hx : Only A s₀ x) => ?_ : Only A s₀ x → _) ?_; (on_goal 2 => unfold x; clear x); (on_goal 1 => clear_value x; revert x; intro _ _))
    | (extract_lets -underBinder +onlyGivenNames x; unfold x; clear x)
    | (extract_lets -underBinder +onlyGivenNames x; revert x; intro _)
    | with_reducible refine Only.ite ?_ ?_
    | with_reducible refine State.inc_only ?_ ?_ ?_
    | with_reducible refine State.sendFront_only ?_ ?_
    | with_reducible refine State.facetErr_only ?_ ?_ ?_
    | with_reducible refine State.pathWord_only ?_ ?_)

theorem State.laneWord_only {A : Nat} {s₀ : State} {s : State} {n : Nat} {raw : Nat} (hS : Only A s₀ s) (hA : Covers 0x180002200000000C A) :
    Only A s₀ (State.laneWord s n raw) := by
  unfold State.laneWord
  repeat' (first
    | with_reducible exact hS
    | with_reducible assumption
    | (with_reducible refine Covers.testBit hA ?_; decide)
    | (with_reducible refine Covers.trans ?_ hA; decide)
    | with_reducible refine Only.ite ?_ ?_
    | with_reducible refine State.takeWord_only ?_ ?_)

theorem State.portCycle_only {A : Nat} {s₀ : State} {s : State} {f : Nat} {l : Nat} {sinks : List (Nat × Nat)} (hS : Only A s₀ s) (hA : Covers 0x1000020000000008 A) :
    Only A s₀ (State.portCycle s f l sinks) := by
  unfold State.portCycle
  repeat' (first
    | with_reducible exact hS
    | with_reducible assumption
    | (with_reducible refine Covers.testBit hA ?_; decide)
    | (with_reducible refine Covers.trans ?_ hA; decide)
    | (refine fun _ => ?_; intros)
    | (extract_lets -underBinder +onlyGivenNames x; refine (fun (hx : Only A s₀ x) => ?_ : Only A s₀ x → _) ?_; (on_goal 2 => unfold x; clear x); (on_goal 1 => clear_value x; revert x; intro _ _))
    | (extract_lets -underBinder +onlyGivenNames x; unfold x; clear x)
    | (extract_lets -underBinder +onlyGivenNames x; revert x; intro _)
    | with_reducible refine Only.ite ?_ ?_
    | with_reducible refine State.put_only ?_ ?_
    | with_reducible refine State.inc_only ?_ ?_ ?_
    | with_reducible refine State.updPath_only ?_ ?_
    | split
    | (refine fun _ => ?_))

theorem State.emitWord_only {A : Nat} {s₀ : State} {s : State} {f : Nat} {l : Nat} {word : Nat} (hS : Only A s₀ s) (hA : Covers 0x1000020000000008 A) :
    Only A s₀ (State.emitWord s f l word) := by
  unfold State.emitWord
  repeat' (first
    | with_reducible exact hS
    | with_reducible assumption
    | (with_reducible refine Covers.testBit hA ?_; decide)
    | (with_reducible refine Covers.trans ?_ hA; decide)
    | (refine fun _ => ?_; intros)
    | with_reducible refine State.inc_only ?_ ?_ ?_
    | with_reducible refine State.updPath_only ?_ ?_)

theorem State.packOut_only {A : Nat} {s₀ : State} {f : Nat} {l : Nat} {v0 : Nat} {v1 : State} (hS : Only A s₀ v1) (hA : Covers 0x1000020000000008 A) :
    Only A s₀ (State.packOut f l v0 v1) := by
  induction v0 generalizing v1 with
  | zero =>
    unfold State.packOut
    repeat' (first
      | with_reducible exact hS
      | with_reducible assumption
      | (with_reducible refine Covers.testBit hA ?_; decide)
      | (with_reducible refine Covers.trans ?_ hA; decide)
      | (refine fun _ => ?_; intros)
      | (extract_lets -underBinder +onlyGivenNames x; refine (fun (hx : Only A s₀ x) => ?_ : Only A s₀ x → _) ?_; (on_goal 2 => unfold x; clear x); (on_goal 1 => clear_value x; revert x; intro _ _))
      | (extract_lets -underBinder +onlyGivenNames x; unfold x; clear x)
      | (extract_lets -underBinder +onlyGivenNames x; revert x; intro _)
      | with_reducible refine Only.ite ?_ ?_
      | with_reducible refine State.updPath_only ?_ ?_
      | with_reducible refine State.emitWord_only ?_ ?_
      | with_reducible refine Only.Fst.ite ?_ ?_
      | with_reducible refine Only.Fst.unpair (by assumption)
      | split
      | with_reducible refine Only.Fst.of ?_
      | with_reducible refine Only.Fst.pair ?_
      | with_reducible refine Only.Fst.elim (by assumption) ?_)
  | succ k ih =>
    unfold State.packOut
    repeat' (first
      | with_reducible exact hS
      | with_reducible assumption
      | (with_reducible refine Covers.testBit hA ?_; decide)
      | (with_reducible refine Covers.trans ?_ hA; decide)
      | with_reducible refine ih ?_
      | (refine fun _ => ?_; intros)
      | (extract_lets -underBinder +onlyGivenNames x; refine (fun (hx : Only A s₀ x) => ?_ : Only A s₀ x → _) ?_; (on_goal 2 => unfold x; clear x); (on_goal 1 => clear_value x; revert x; intro _ _))
      | (extract_lets -underBinder +onlyGivenNames x; unfold x; clear x)
      | (extract_lets -underBinder +onlyGivenNames x; revert x; intro _)
      | with_reducible refine Only.ite ?_ ?_
      | with_reducible refine State.updPath_only ?_ ?_
      | with_reducible refine State.emitWord_only ?_ ?_
      | with_reducible refine Only.Fst.ite ?_ ?_
      | with_reducible refine Only.Fst.unpair (by assumption)
      | split
      | with_reducible refine Only.Fst.of ?_
      | with_reducible refine Only.Fst.pair ?_
      | with_reducible refine Only.Fst.elim (by assumption) ?_)

theorem State.packCycle_only {A : Nat} {s₀ : State} {s : State} {f : Nat} {l : Nat} {sinks : List (Nat × Nat)} (hS : Only A s₀ s) (hA : Covers 0x1400020000000008 A) :
    Only A s₀ (State.packCycle s f l sinks) := by
  unfold State.packCycle
  repeat' (first
    | with_reducible exact hS
    | with_reducible assumption
    | (with_reducible refine Covers.testBit hA ?_; decide)
    | (with_reducible refine Covers.trans ?_ hA; decide)
    | (refine fun _ => ?_; intros)
    | (extract_lets -underBinder +onlyGivenNames x; refine (fun (hx : Only A s₀ x) => ?_ : Only A s₀ x → _) ?_; (on_goal 2 => unfold x; clear x); (on_goal 1 => clear_value x; revert x; intro _ _))
    | (extract_lets -underBinder +onlyGivenNames x; unfold x; clear x)
    | (extract_lets -underBinder +onlyGivenNames x; revert x; intro _)
    | with_reducible refine Only.ite ?_ ?_
    | with_reducible refine State.updPath_only ?_ ?_
    | with_reducible refine State.slowByte_only ?_ ?_
    | with_reducible refine State.emitWord_only ?_ ?_
    | with_reducible refine State.packOut_only ?_ ?_)

theorem State.txOut_only {A : Nat} {s₀ : State} {s : State} {n : Nat} {w : Nat} (hS : Only A s₀ s) (hA : Covers 0x180002200000000C A) :
    Only A s₀ (State.txOut s n w) := by
  unfold State.txOut
  repeat' (first
    | with_reducible exact hS
    | with_reducible assumption
    | (with_reducible refine Covers.testBit hA ?_; decide)
    | (with_reducible refine Covers.trans ?_ hA; decide)
    | (extract_lets -underBinder +onlyGivenNames x; refine (fun (hx : Only A s₀ x) => ?_ : Only A s₀ x → _) ?_; (on_goal 2 => unfold x; clear x); (on_goal 1 => clear_value x; revert x; intro _ _))
    | (extract_lets -underBinder +onlyGivenNames x; unfold x; clear x)
    | (extract_lets -underBinder +onlyGivenNames x; revert x; intro _)
    | with_reducible refine Only.ite ?_ ?_
    | with_reducible refine State.sendFront_only ?_ ?_
    | with_reducible refine State.takeWord_only ?_ ?_)

theorem State.txStep_only {A : Nat} {s₀ : State} {s : State} {st : Nat} {f : Nat} {l : Nat} {word : Nat} (hS : Only A s₀ s) (hA : Covers 0x20000000000 A) :
    Only.Fst A s₀ (State.txStep s st f l word) := by
  unfold State.txStep
  repeat' (first
    | with_reducible exact hS
    | with_reducible assumption
    | (with_reducible refine Covers.testBit hA ?_; decide)
    | (with_reducible refine Covers.trans ?_ hA; decide)
    | (refine fun _ => ?_; intros)
    | (extract_lets -underBinder +onlyGivenNames x; refine (fun (hx : Only A s₀ x) => ?_ : Only A s₀ x → _) ?_; (on_goal 2 => unfold x; clear x); (on_goal 1 => clear_value x; revert x; intro _ _))
    | (extract_lets -underBinder +onlyGivenNames x; unfold x; clear x)
    | (extract_lets -underBinder +onlyGivenNames x; revert x; intro _)
    | with_reducible refine Only.ite ?_ ?_
    | with_reducible refine State.updPath_only ?_ ?_
    | with_reducible refine Only.Fst.ite ?_ ?_
    | with_reducible refine Only.Fst.unpair (by assumption)
    | with_reducible refine Only.Fst.of ?_
    | with_reducible refine Only.Fst.pair ?_
    | with_reducible refine Only.Fst.elim (by assumption) ?_)

theorem State.txEmit_only {A : Nat} {s₀ : State} {s : State} {n : Nat} {t : TxWord} (hS : Only A s₀ s) (hA : Covers 0x180002200000000C A) :
    Only A s₀ (State.txEmit s n t) := by
  unfold State.txEmit
  repeat' (first
    | with_reducible exact hS
    | with_reducible assumption
    | (with_reducible refine Covers.testBit hA ?_; decide)
    | (with_reducible refine Covers.trans ?_ hA; decide)
    | (extract_lets -underBinder +onlyGivenNames x; refine (fun (hx : Only A s₀ x) => ?_ : Only A s₀ x → _) ?_; (on_goal 2 => unfold x; clear x); (on_goal 1 => clear_value x; revert x; intro _ _))
    | (extract_lets -underBinder +onlyGivenNames x; unfold x; clear x)
    | (extract_lets -underBinder +onlyGivenNames x; revert x; intro _)
    | with_reducible refine Only.ite ?_ ?_
    | with_reducible refine State.inc_only ?_ ?_ ?_
    | with_reducible refine State.txOut_only ?_ ?_
    | with_reducible refine State.txStep_only ?_ ?_
    | with_reducible refine Only.Fst.ite ?_ ?_
    | with_reducible refine Only.Fst.unpair (by assumption)
    | with_reducible refine Only.Fst.of ?_
    | with_reducible refine Only.Fst.pair ?_
    | with_reducible refine Only.Fst.elim (by assumption) ?_)

theorem State.txDrain_only {A : Nat} {s₀ : State} {n : Nat} {v0 : Nat} {v1 : State} (hS : Only A s₀ v1) (hA : Covers 0x180002200000000C A) :
    Only A s₀ (State.txDrain n v0 v1) := by
  induction v0 generalizing v1 with
  | zero =>
    unfold State.txDrain
    repeat' (first
      | with_reducible exact hS
      | with_reducible assumption
      | (with_reducible refine Covers.testBit hA ?_; decide)
      | (with_reducible refine Covers.trans ?_ hA; decide)
      | (refine fun _ => ?_; intros)
      | with_reducible refine State.updPath_only ?_ ?_
      | with_reducible refine State.txEmit_only ?_ ?_
      | with_reducible refine Only.Fst.ite ?_ ?_
      | with_reducible refine Only.Fst.unpair (by assumption)
      | split
      | with_reducible refine Only.Fst.of ?_
      | with_reducible refine Only.Fst.pair ?_
      | with_reducible refine Only.Fst.elim (by assumption) ?_
      | (refine fun _ => ?_))
  | succ k ih =>
    unfold State.txDrain
    repeat' (first
      | with_reducible exact hS
      | with_reducible assumption
      | (with_reducible refine Covers.testBit hA ?_; decide)
      | (with_reducible refine Covers.trans ?_ hA; decide)
      | with_reducible refine ih ?_
      | (refine fun _ => ?_; intros)
      | with_reducible refine State.updPath_only ?_ ?_
      | with_reducible refine State.txEmit_only ?_ ?_
      | with_reducible refine Only.Fst.ite ?_ ?_
      | with_reducible refine Only.Fst.unpair (by assumption)
      | split
      | with_reducible refine Only.Fst.of ?_
      | with_reducible refine Only.Fst.pair ?_
      | with_reducible refine Only.Fst.elim (by assumption) ?_
      | (refine fun _ => ?_))

theorem State.txCycle_only {A : Nat} {s₀ : State} {s : State} {n : Nat} (hS : Only A s₀ s) (hA : Covers 0x1A0002200000000C A) :
    Only A s₀ (State.txCycle s n) := by
  unfold State.txCycle
  repeat' (first
    | with_reducible exact hS
    | with_reducible assumption
    | (with_reducible refine Covers.testBit hA ?_; decide)
    | (with_reducible refine Covers.trans ?_ hA; decide)
    | (refine fun _ => ?_; intros)
    | (extract_lets -underBinder +onlyGivenNames x; refine (fun (hx : Only A s₀ x) => ?_ : Only A s₀ x → _) ?_; (on_goal 2 => unfold x; clear x); (on_goal 1 => clear_value x; revert x; intro _ _))
    | (extract_lets -underBinder +onlyGivenNames x; unfold x; clear x)
    | (extract_lets -underBinder +onlyGivenNames x; revert x; intro _)
    | with_reducible refine State.updPath_only ?_ ?_
    | with_reducible refine State.txDrain_only ?_ ?_)

theorem State.txWord_only {A : Nat} {s₀ : State} {s : State} {n : Nat} (hS : Only A s₀ s) (hA : Covers 0x1E0002200000000C A) :
    Only A s₀ (State.txWord s n) := by
  unfold State.txWord
  repeat' (first
    | with_reducible exact hS
    | with_reducible assumption
    | (with_reducible refine Covers.testBit hA ?_; decide)
    | (with_reducible refine Covers.trans ?_ hA; decide)
    | (refine fun _ => ?_; intros)
    | (extract_lets -underBinder +onlyGivenNames x; refine (fun (hx : Only A s₀ x) => ?_ : Only A s₀ x → _) ?_; (on_goal 2 => unfold x; clear x); (on_goal 1 => clear_value x; revert x; intro _ _))
    | (extract_lets -underBinder +onlyGivenNames x; unfold x; clear x)
    | (extract_lets -underBinder +onlyGivenNames x; revert x; intro _)
    | with_reducible refine Only.ite ?_ ?_
    | with_reducible refine State.inc_only ?_ ?_ ?_
    | with_reducible refine State.updLane_only ?_ ?_
    | with_reducible refine State.updPath_only ?_ ?_
    | with_reducible refine State.txEmit_only ?_ ?_
    | split
    | with_reducible refine Only.set_tap ?_ ?_
    | (refine fun _ => ?_))

end Sys2Proof.Machine
end

