-- ==== Sys2Proof/Laws/OnlyEdge.lean ====
section
/-! SUPPORT. What each operation of Machine/Edge.lean may change. -/

set_option linter.unusedTactic false
set_option linter.unreachableTactic false
set_option linter.unusedVariables false

namespace Sys2Proof.Machine

theorem State.bramCycle_only {A : Nat} {s₀ : State} {s : State} {f : Nat} {m : Nat} {sinks : List (Nat × Nat)} (hS : Only A s₀ s) (hA : Covers 0x1800020000000008 A) :
    Only A s₀ (State.bramCycle s f m sinks) := by
  unfold State.bramCycle
  repeat' (first
    | with_reducible exact hS
    | with_reducible assumption
    | (with_reducible refine Covers.testBit hA ?_; decide)
    | (with_reducible refine Covers.trans ?_ hA; decide)
    | (refine fun _ => ?_; intros)
    | (extract_lets -underBinder +onlyGivenNames x; refine (fun (hx : Only A s₀ x) => ?_ : Only A s₀ x → _) ?_; (on_goal 2 => unfold x; clear x); (on_goal 1 => clear_value x; revert x; intro _ _))
    | (extract_lets -underBinder +onlyGivenNames x; unfold x; clear x)
    | (extract_lets -underBinder +onlyGivenNames x; revert x; intro _)
    | with_reducible refine Only.ite ?_ ?_
    | with_reducible refine State.inc_only ?_ ?_ ?_
    | with_reducible refine State.updFacet_only ?_ ?_
    | with_reducible refine State.facetErr_only ?_ ?_ ?_)

theorem State.timerCycle_only {A : Nat} {s₀ : State} {s : State} {f : Nat} {v : FacetSees} {src : Nat → Bool} {sinks : List (Nat × Nat)} (hS : Only A s₀ s) (hA : Covers 0x20000000000 A) :
    Only A s₀ (State.timerCycle s f v src sinks) := by
  unfold State.timerCycle
  repeat' (first
    | with_reducible exact hS
    | with_reducible assumption
    | (with_reducible refine Covers.testBit hA ?_; decide)
    | (with_reducible refine Covers.trans ?_ hA; decide)
    | (refine fun _ => ?_; intros)
    | (extract_lets -underBinder +onlyGivenNames x; refine (fun (hx : Only A s₀ x) => ?_ : Only A s₀ x → _) ?_; (on_goal 2 => unfold x; clear x); (on_goal 1 => clear_value x; revert x; intro _ _))
    | (extract_lets -underBinder +onlyGivenNames x; unfold x; clear x)
    | (extract_lets -underBinder +onlyGivenNames x; revert x; intro _)
    | with_reducible refine Only.ite ?_ ?_
    | with_reducible refine State.updFacet_only ?_ ?_
    | with_reducible refine Only.foldl _ ?_ ?_
    | with_reducible refine Only.Fst.ite ?_ ?_
    | with_reducible refine Only.Fst.unpair (by assumption)
    | with_reducible refine Only.Fst.foldl _ ?_ ?_
    | split
    | with_reducible refine Only.Fst.of ?_
    | with_reducible refine Only.Fst.pair ?_
    | with_reducible refine Only.Fst.elim (by assumption) ?_
    | (refine fun _ => ?_))

theorem State.edgeCycle_only {A : Nat} {s₀ : State} {s : State} {f : Nat} {src : Nat → Bool} (hS : Only A s₀ s) (hA : Covers 0x20000000000 A) :
    Only A s₀ (State.edgeCycle s f src) := by
  unfold State.edgeCycle
  repeat' (first
    | with_reducible exact hS
    | with_reducible assumption
    | (with_reducible refine Covers.testBit hA ?_; decide)
    | (with_reducible refine Covers.trans ?_ hA; decide)
    | (refine fun _ => ?_; intros)
    | (extract_lets -underBinder +onlyGivenNames x; refine (fun (hx : Only A s₀ x) => ?_ : Only A s₀ x → _) ?_; (on_goal 2 => unfold x; clear x); (on_goal 1 => clear_value x; revert x; intro _ _))
    | (extract_lets -underBinder +onlyGivenNames x; unfold x; clear x)
    | (extract_lets -underBinder +onlyGivenNames x; revert x; intro _)
    | with_reducible refine Only.ite ?_ ?_
    | with_reducible refine State.updFacet_only ?_ ?_
    | with_reducible refine Only.foldl _ ?_ ?_
    | with_reducible refine Only.Fst.ite ?_ ?_
    | with_reducible refine Only.Fst.unpair (by assumption)
    | with_reducible refine Only.Fst.foldl _ ?_ ?_
    | split
    | with_reducible refine Only.Fst.of ?_
    | with_reducible refine Only.Fst.pair ?_
    | with_reducible refine Only.Fst.elim (by assumption) ?_
    | (refine fun _ => ?_))

theorem State.drivePin_only {A : Nat} {s₀ : State} {s : State} {n : Nat} (hS : Only A s₀ s) (hA : Covers 0x400000 A) :
    Only A s₀ (State.drivePin s n) := by
  unfold State.drivePin
  repeat' (first
    | with_reducible exact hS
    | with_reducible assumption
    | (with_reducible refine Covers.testBit hA ?_; decide)
    | (with_reducible refine Covers.trans ?_ hA; decide)
    | with_reducible refine State.put_only ?_ ?_)

theorem State.gpioCycle_only {A : Nat} {s₀ : State} {s : State} {f : Nat} {sinks : List (Nat × Nat)} (hS : Only A s₀ s) (hA : Covers 0x20000400000 A) :
    Only A s₀ (State.gpioCycle s f sinks) := by
  unfold State.gpioCycle
  repeat' (first
    | with_reducible exact hS
    | with_reducible assumption
    | (with_reducible refine Covers.testBit hA ?_; decide)
    | (with_reducible refine Covers.trans ?_ hA; decide)
    | (refine fun _ => ?_; intros)
    | (extract_lets -underBinder +onlyGivenNames x; refine (fun (hx : Only A s₀ x) => ?_ : Only A s₀ x → _) ?_; (on_goal 2 => unfold x; clear x); (on_goal 1 => clear_value x; revert x; intro _ _))
    | (extract_lets -underBinder +onlyGivenNames x; unfold x; clear x)
    | (extract_lets -underBinder +onlyGivenNames x; revert x; intro _)
    | with_reducible refine State.updFacet_only ?_ ?_
    | with_reducible refine State.drivePin_only ?_ ?_
    | with_reducible refine Only.foldl _ ?_ ?_
    | with_reducible refine Only.Fst.ite ?_ ?_
    | with_reducible refine Only.Fst.unpair (by assumption)
    | with_reducible refine Only.Fst.foldl _ ?_ ?_
    | with_reducible refine Only.Fst.of ?_
    | with_reducible refine Only.Fst.pair ?_
    | with_reducible refine Only.Fst.elim (by assumption) ?_)

theorem State.presentWord_only {A : Nat} {s₀ : State} {s : State} {w : Nat} (hS : Only A s₀ s) (hA : Covers 0x1800010000000002 A) :
    Only A s₀ (State.presentWord s w) := by
  unfold State.presentWord
  repeat' (first
    | with_reducible exact hS
    | with_reducible assumption
    | (with_reducible refine Covers.testBit hA ?_; decide)
    | (with_reducible refine Covers.trans ?_ hA; decide)
    | (refine fun _ => ?_; intros)
    | with_reducible refine Only.ite ?_ ?_
    | with_reducible refine State.inc_only ?_ ?_ ?_
    | with_reducible refine State.err_only ?_ ?_ ?_
    | with_reducible refine State.updGno_only ?_ ?_
    | split
    | (refine fun _ => ?_))

theorem State.txCycles_only {A : Nat} {s₀ : State} {s : State} {f : Nat} (hS : Only A s₀ s) (hA : Covers 0x1A0002200000000C A) :
    Only A s₀ (State.txCycles s f) := by
  unfold State.txCycles
  repeat' (first
    | with_reducible exact hS
    | with_reducible assumption
    | (with_reducible refine Covers.testBit hA ?_; decide)
    | (with_reducible refine Covers.trans ?_ hA; decide)
    | (refine fun _ => ?_; intros)
    | with_reducible refine Only.ite ?_ ?_
    | with_reducible refine State.txCycle_only ?_ ?_
    | with_reducible refine Only.foldl _ ?_ ?_
    | with_reducible refine Only.Fst.ite ?_ ?_
    | with_reducible refine Only.Fst.unpair (by assumption)
    | with_reducible refine Only.Fst.foldl _ ?_ ?_
    | with_reducible refine Only.Fst.of ?_
    | with_reducible refine Only.Fst.pair ?_
    | with_reducible refine Only.Fst.elim (by assumption) ?_)

theorem State.portCycles_only {A : Nat} {s₀ : State} {s : State} {f : Nat} (hS : Only A s₀ s) (hA : Covers 0x1400020000000008 A) :
    Only A s₀ (State.portCycles s f) := by
  unfold State.portCycles
  repeat' (first
    | with_reducible exact hS
    | with_reducible assumption
    | (with_reducible refine Covers.testBit hA ?_; decide)
    | (with_reducible refine Covers.trans ?_ hA; decide)
    | (refine fun _ => ?_; intros)
    | (extract_lets -underBinder +onlyGivenNames x; refine (fun (hx : Only A s₀ x) => ?_ : Only A s₀ x → _) ?_; (on_goal 2 => unfold x; clear x); (on_goal 1 => clear_value x; revert x; intro _ _))
    | (extract_lets -underBinder +onlyGivenNames x; unfold x; clear x)
    | (extract_lets -underBinder +onlyGivenNames x; revert x; intro _)
    | with_reducible refine Only.ite ?_ ?_
    | with_reducible refine State.portCycle_only ?_ ?_
    | with_reducible refine State.packCycle_only ?_ ?_
    | with_reducible refine Only.foldl _ ?_ ?_
    | with_reducible refine Only.Fst.ite ?_ ?_
    | with_reducible refine Only.Fst.unpair (by assumption)
    | with_reducible refine Only.Fst.foldl _ ?_ ?_
    | with_reducible refine Only.Fst.of ?_
    | with_reducible refine Only.Fst.pair ?_
    | with_reducible refine Only.Fst.elim (by assumption) ?_)

theorem State.runCycle_only {A : Nat} {s₀ : State} {s : State} {f : Nat} {v : FacetSees} (hS : Only A s₀ s) (hA : Covers 0x1C0003000040000A A) :
    Only A s₀ (State.runCycle s f v) := by
  unfold State.runCycle
  repeat' (first
    | with_reducible exact hS
    | with_reducible assumption
    | (with_reducible refine Covers.testBit hA ?_; decide)
    | (with_reducible refine Covers.trans ?_ hA; decide)
    | (refine fun _ => ?_; intros)
    | (extract_lets -underBinder +onlyGivenNames x; refine (fun (hx : Only A s₀ x) => ?_ : Only A s₀ x → _) ?_; (on_goal 2 => unfold x; clear x); (on_goal 1 => clear_value x; revert x; intro _ _))
    | (extract_lets -underBinder +onlyGivenNames x; unfold x; clear x)
    | (extract_lets -underBinder +onlyGivenNames x; revert x; intro _)
    | with_reducible refine Only.ite ?_ ?_
    | with_reducible refine State.updFacet_only ?_ ?_
    | with_reducible refine State.bramCycle_only ?_ ?_
    | with_reducible refine State.timerCycle_only ?_ ?_
    | with_reducible refine State.edgeCycle_only ?_ ?_
    | with_reducible refine State.gpioCycle_only ?_ ?_
    | with_reducible refine State.presentWord_only ?_ ?_
    | with_reducible refine State.portCycles_only ?_ ?_
    | with_reducible refine Only.foldl _ ?_ ?_
    | with_reducible refine Only.Fst.ite ?_ ?_
    | with_reducible refine Only.Fst.unpair (by assumption)
    | with_reducible refine Only.Fst.foldl _ ?_ ?_
    | with_reducible refine Only.Fst.of ?_
    | with_reducible refine Only.Fst.pair ?_
    | with_reducible refine Only.Fst.elim (by assumption) ?_)

theorem State.switchCycle_only {A : Nat} {s₀ : State} {s : State} {f : Nat} {v : FacetSees} (hS : Only A s₀ s) (hA : Covers 0x20000000000 A) :
    Only A s₀ (State.switchCycle s f v) := by
  unfold State.switchCycle
  repeat' (first
    | with_reducible exact hS
    | with_reducible assumption
    | (with_reducible refine Covers.testBit hA ?_; decide)
    | (with_reducible refine Covers.trans ?_ hA; decide)
    | (refine fun _ => ?_; intros)
    | (extract_lets -underBinder +onlyGivenNames x; refine (fun (hx : Only A s₀ x) => ?_ : Only A s₀ x → _) ?_; (on_goal 2 => unfold x; clear x); (on_goal 1 => clear_value x; revert x; intro _ _))
    | (extract_lets -underBinder +onlyGivenNames x; unfold x; clear x)
    | (extract_lets -underBinder +onlyGivenNames x; revert x; intro _)
    | with_reducible refine Only.ite ?_ ?_
    | with_reducible refine State.updFacet_only ?_ ?_
    | with_reducible refine Only.foldl _ ?_ ?_
    | with_reducible refine Only.Fst.ite ?_ ?_
    | with_reducible refine Only.Fst.unpair (by assumption)
    | with_reducible refine Only.Fst.foldl _ ?_ ?_
    | exact Only.OfRes.trap
    | exact Only.OfRes.held
    | with_reducible refine Only.OfRes.acted ?_
    | with_reducible refine Only.OfRes.ite ?_ ?_
    | split
    | with_reducible refine Only.Fst.of ?_
    | with_reducible refine Only.Fst.pair ?_
    | with_reducible refine Only.Fst.elim (by assumption) ?_
    | with_reducible refine Only.OfRes.elim (by assumption) ?_
    | (refine fun _ => ?_))

theorem State.setupCycle_only {A : Nat} {s₀ : State} {s : State} {f : Nat} (hS : Only A s₀ s) (hA : Covers 0x10000000000 A) :
    Only A s₀ (State.setupCycle s f) := by
  unfold State.setupCycle
  repeat' (first
    | with_reducible exact hS
    | with_reducible assumption
    | (with_reducible refine Covers.testBit hA ?_; decide)
    | (with_reducible refine Covers.trans ?_ hA; decide)
    | (refine fun _ => ?_; intros)
    | with_reducible refine Only.ite ?_ ?_
    | with_reducible refine State.updGno_only ?_ ?_)

theorem State.showPins_only {A : Nat} {s₀ : State} {s : State} {f : Nat} {pins : Nat} (hS : Only A s₀ s) (hA : Covers 0x400000 A) :
    Only A s₀ (State.showPins s f pins) := by
  unfold State.showPins
  repeat' (first
    | with_reducible exact hS
    | with_reducible assumption
    | (with_reducible refine Covers.testBit hA ?_; decide)
    | (with_reducible refine Covers.trans ?_ hA; decide)
    | (refine fun _ => ?_; intros)
    | with_reducible refine Only.ite ?_ ?_
    | with_reducible refine State.put_only ?_ ?_
    | with_reducible refine Only.forN _ ?_ ?_)

theorem State.facetStages_only {A : Nat} {s₀ : State} {s : State} {f : Nat} {pins : Nat} {lateStrobe : Bool} (hS : Only A s₀ s) (hA : Covers 0x30000400000 A) :
    Only A s₀ (State.facetStages s f pins lateStrobe) := by
  unfold State.facetStages
  repeat' (first
    | with_reducible exact hS
    | with_reducible assumption
    | (with_reducible refine Covers.testBit hA ?_; decide)
    | (with_reducible refine Covers.trans ?_ hA; decide)
    | (refine fun _ => ?_; intros)
    | (extract_lets -underBinder +onlyGivenNames x; refine (fun (hx : Only A s₀ x) => ?_ : Only A s₀ x → _) ?_; (on_goal 2 => unfold x; clear x); (on_goal 1 => clear_value x; revert x; intro _ _))
    | (extract_lets -underBinder +onlyGivenNames x; unfold x; clear x)
    | (extract_lets -underBinder +onlyGivenNames x; revert x; intro _)
    | with_reducible refine State.updFacet_only ?_ ?_
    | with_reducible refine State.setupCycle_only ?_ ?_
    | with_reducible refine State.showPins_only ?_ ?_)

theorem State.facetCycle_only {A : Nat} {s₀ : State} {s : State} {f : Nat} {pins : Nat} {us : Bool} {late : Nat} {lateStrobe : Bool} (hS : Only A s₀ s) (hA : Covers 0x1E0003200040000E A) :
    Only A s₀ (State.facetCycle s f pins us late lateStrobe) := by
  unfold State.facetCycle
  repeat' (first
    | with_reducible exact hS
    | with_reducible assumption
    | (with_reducible refine Covers.testBit hA ?_; decide)
    | (with_reducible refine Covers.trans ?_ hA; decide)
    | (extract_lets -underBinder +onlyGivenNames x; refine (fun (hx : Only A s₀ x) => ?_ : Only A s₀ x → _) ?_; (on_goal 2 => unfold x; clear x); (on_goal 1 => clear_value x; revert x; intro _ _))
    | (extract_lets -underBinder +onlyGivenNames x; unfold x; clear x)
    | (extract_lets -underBinder +onlyGivenNames x; revert x; intro _)
    | with_reducible refine Only.ite ?_ ?_
    | with_reducible refine State.txCycles_only ?_ ?_
    | with_reducible refine State.runCycle_only ?_ ?_
    | with_reducible refine State.switchCycle_only ?_ ?_
    | with_reducible refine State.facetStages_only ?_ ?_)

theorem State.facetTimerExpiry_only {A : Nat} {s₀ : State} {s : State} {f : Nat} {t : Nat} (hS : Only A s₀ s) (hA : Covers 0x20000000000 A) :
    Only A s₀ (State.facetTimerExpiry s f t) := by
  unfold State.facetTimerExpiry
  repeat' (first
    | with_reducible exact hS
    | with_reducible assumption
    | (with_reducible refine Covers.testBit hA ?_; decide)
    | (with_reducible refine Covers.trans ?_ hA; decide)
    | (refine fun _ => ?_; intros)
    | (extract_lets -underBinder +onlyGivenNames x; refine (fun (hx : Only A s₀ x) => ?_ : Only A s₀ x → _) ?_; (on_goal 2 => unfold x; clear x); (on_goal 1 => clear_value x; revert x; intro _ _))
    | (extract_lets -underBinder +onlyGivenNames x; unfold x; clear x)
    | (extract_lets -underBinder +onlyGivenNames x; revert x; intro _)
    | with_reducible refine Only.ite ?_ ?_
    | with_reducible refine State.updFacet_only ?_ ?_
    | exact Only.OfRes.trap
    | exact Only.OfRes.held
    | with_reducible refine Only.OfRes.acted ?_
    | with_reducible refine Only.OfRes.ite ?_ ?_
    | with_reducible refine Only.OfRes.elim (by assumption) ?_)

theorem State.releasePin_only {A : Nat} {s₀ : State} {s : State} {n : Nat} (hS : Only A s₀ s) (hA : Covers 0x400000 A) :
    Only A s₀ (State.releasePin s n) := by
  unfold State.releasePin
  repeat' (first
    | with_reducible exact hS
    | with_reducible assumption
    | (with_reducible refine Covers.testBit hA ?_; decide)
    | (with_reducible refine Covers.trans ?_ hA; decide)
    | with_reducible refine State.put_only ?_ ?_)

theorem State.releasePins_only {A : Nat} {s₀ : State} {s : State} {f : Nat} {keep : List Nat} (hS : Only A s₀ s) (hA : Covers 0x400000 A) :
    Only A s₀ (State.releasePins s f keep) := by
  unfold State.releasePins
  repeat' (first
    | with_reducible exact hS
    | with_reducible assumption
    | (with_reducible refine Covers.testBit hA ?_; decide)
    | (with_reducible refine Covers.trans ?_ hA; decide)
    | (refine fun _ => ?_; intros)
    | with_reducible refine Only.ite ?_ ?_
    | with_reducible refine State.releasePin_only ?_ ?_
    | with_reducible refine Only.forN _ ?_ ?_)

theorem State.takeAges_only {A : Nat} {s₀ : State} {s : State} {f : Nat} (hS : Only A s₀ s) (hA : Covers 0x400000000000000 A) :
    Only A s₀ (State.takeAges s f) := by
  unfold State.takeAges
  repeat' (first
    | with_reducible exact hS
    | with_reducible assumption
    | (with_reducible refine Covers.testBit hA ?_; decide)
    | (with_reducible refine Covers.trans ?_ hA; decide)
    | (refine fun _ => ?_; intros)
    | with_reducible refine Only.ite ?_ ?_
    | with_reducible refine State.takeAge_only ?_ ?_
    | with_reducible refine Only.foldl _ ?_ ?_
    | with_reducible refine Only.Fst.ite ?_ ?_
    | with_reducible refine Only.Fst.unpair (by assumption)
    | with_reducible refine Only.Fst.foldl _ ?_ ?_
    | with_reducible refine Only.Fst.of ?_
    | with_reducible refine Only.Fst.pair ?_
    | with_reducible refine Only.Fst.elim (by assumption) ?_)

theorem State.enterFacet_only {A : Nat} {s₀ : State} {s : State} {f : Nat} {st : Nat} (hS : Only A s₀ s) (hA : Covers 0x400020000400008 A) :
    Only A s₀ (State.enterFacet s f st) := by
  unfold State.enterFacet
  repeat' (first
    | with_reducible exact hS
    | with_reducible assumption
    | (with_reducible refine Covers.testBit hA ?_; decide)
    | (with_reducible refine Covers.trans ?_ hA; decide)
    | (refine fun _ => ?_; intros)
    | (extract_lets -underBinder +onlyGivenNames x; refine (fun (hx : Only A s₀ x) => ?_ : Only A s₀ x → _) ?_; (on_goal 2 => unfold x; clear x); (on_goal 1 => clear_value x; revert x; intro _ _))
    | (extract_lets -underBinder +onlyGivenNames x; unfold x; clear x)
    | (extract_lets -underBinder +onlyGivenNames x; revert x; intro _)
    | with_reducible refine Only.ite ?_ ?_
    | with_reducible refine State.put_only ?_ ?_
    | with_reducible refine State.setBit_only ?_ ?_
    | with_reducible refine State.updFacet_only ?_ ?_
    | with_reducible refine State.releasePins_only ?_ ?_
    | with_reducible refine State.takeAges_only ?_ ?_
    | with_reducible refine Only.foldl _ ?_ ?_
    | with_reducible refine Only.Fst.ite ?_ ?_
    | with_reducible refine Only.Fst.unpair (by assumption)
    | with_reducible refine Only.Fst.foldl _ ?_ ?_
    | with_reducible refine Only.Fst.of ?_
    | with_reducible refine Only.Fst.pair ?_
    | with_reducible refine Only.Fst.elim (by assumption) ?_)

theorem State.disarmFacet_only {A : Nat} {s₀ : State} {s : State} {f : Nat} (hS : Only A s₀ s) (hA : Covers 0x1000000000A A) :
    Only A s₀ (State.disarmFacet s f) := by
  unfold State.disarmFacet
  repeat' (first
    | with_reducible exact hS
    | with_reducible assumption
    | (with_reducible refine Covers.testBit hA ?_; decide)
    | (with_reducible refine Covers.trans ?_ hA; decide)
    | with_reducible refine State.put_only ?_ ?_
    | with_reducible refine State.disarm_only ?_ ?_)

theorem State.emptyShadow_only {A : Nat} {s₀ : State} {s : State} {f : Nat} (hS : Only A s₀ s) (hA : Covers 0x20000000008 A) :
    Only A s₀ (State.emptyShadow s f) := by
  unfold State.emptyShadow
  repeat' (first
    | with_reducible exact hS
    | with_reducible assumption
    | (with_reducible refine Covers.testBit hA ?_; decide)
    | (with_reducible refine Covers.trans ?_ hA; decide)
    | (refine fun _ => ?_; intros)
    | (extract_lets -underBinder +onlyGivenNames x; refine (fun (hx : Only A s₀ x) => ?_ : Only A s₀ x → _) ?_; (on_goal 2 => unfold x; clear x); (on_goal 1 => clear_value x; revert x; intro _ _))
    | (extract_lets -underBinder +onlyGivenNames x; unfold x; clear x)
    | (extract_lets -underBinder +onlyGivenNames x; revert x; intro _)
    | with_reducible refine Only.ite ?_ ?_
    | with_reducible refine State.put_only ?_ ?_
    | with_reducible refine State.updFacet_only ?_ ?_)

theorem State.facetLoadErr_only {A : Nat} {s₀ : State} {s : State} {f : Nat} {e : Nat} (hS : Only A s₀ s) (hA : Covers 0x8 A) :
    Only A s₀ (State.facetLoadErr s f e) := by
  unfold State.facetLoadErr
  repeat' (first
    | with_reducible exact hS
    | with_reducible assumption
    | (with_reducible refine Covers.testBit hA ?_; decide)
    | (with_reducible refine Covers.trans ?_ hA; decide)
    | with_reducible refine State.put_only ?_ ?_)

theorem State.facetLoad_only {A : Nat} {s₀ : State} {s : State} {f : Nat} (hS : Only A s₀ s) (hA : Covers 0x800020000000008 A) :
    Only A s₀ (State.facetLoad s f) := by
  unfold State.facetLoad
  repeat' (first
    | with_reducible exact hS
    | with_reducible assumption
    | (with_reducible refine Covers.testBit hA ?_; decide)
    | (with_reducible refine Covers.trans ?_ hA; decide)
    | (refine fun _ => ?_; intros)
    | (extract_lets -underBinder +onlyGivenNames x; refine (fun (hx : Only A s₀ x) => ?_ : Only A s₀ x → _) ?_; (on_goal 2 => unfold x; clear x); (on_goal 1 => clear_value x; revert x; intro _ _))
    | (extract_lets -underBinder +onlyGivenNames x; unfold x; clear x)
    | (extract_lets -underBinder +onlyGivenNames x; revert x; intro _)
    | with_reducible refine Only.ite ?_ ?_
    | with_reducible refine State.put_only ?_ ?_
    | with_reducible refine State.updFacet_only ?_ ?_
    | with_reducible refine State.facetErr_only ?_ ?_ ?_
    | with_reducible refine State.emptyShadow_only ?_ ?_
    | with_reducible refine State.facetLoadErr_only ?_ ?_)

theorem State.facetLoadDone_only {A : Nat} {s₀ : State} {s : State} {f : Nat} (hS : Only A s₀ s) (hA : Covers 0x20000000008 A) :
    Only A s₀ (State.facetLoadDone s f) := by
  unfold State.facetLoadDone
  repeat' (first
    | with_reducible exact hS
    | with_reducible assumption
    | (with_reducible refine Covers.testBit hA ?_; decide)
    | (with_reducible refine Covers.trans ?_ hA; decide)
    | (refine fun _ => ?_; intros)
    | (extract_lets -underBinder +onlyGivenNames x; refine (fun (hx : Only A s₀ x) => ?_ : Only A s₀ x → _) ?_; (on_goal 2 => unfold x; clear x); (on_goal 1 => clear_value x; revert x; intro _ _))
    | (extract_lets -underBinder +onlyGivenNames x; unfold x; clear x)
    | (extract_lets -underBinder +onlyGivenNames x; revert x; intro _)
    | with_reducible refine Only.ite ?_ ?_
    | with_reducible refine State.put_only ?_ ?_
    | with_reducible refine State.updFacet_only ?_ ?_
    | with_reducible refine State.emptyShadow_only ?_ ?_
    | with_reducible refine State.facetLoadErr_only ?_ ?_)

theorem State.switchFacet_only {A : Nat} {s₀ : State} {s : State} {f : Nat} (hS : Only A s₀ s) (hA : Covers 0x40003000040000A A) :
    Only A s₀ (State.switchFacet s f) := by
  unfold State.switchFacet
  repeat' (first
    | with_reducible exact hS
    | with_reducible assumption
    | (with_reducible refine Covers.testBit hA ?_; decide)
    | (with_reducible refine Covers.trans ?_ hA; decide)
    | (refine fun _ => ?_; intros)
    | (extract_lets -underBinder +onlyGivenNames x; refine (fun (hx : Only A s₀ x) => ?_ : Only A s₀ x → _) ?_; (on_goal 2 => unfold x; clear x); (on_goal 1 => clear_value x; revert x; intro _ _))
    | (extract_lets -underBinder +onlyGivenNames x; unfold x; clear x)
    | (extract_lets -underBinder +onlyGivenNames x; revert x; intro _)
    | with_reducible refine Only.ite ?_ ?_
    | with_reducible refine State.put_only ?_ ?_
    | with_reducible refine State.updFacet_only ?_ ?_
    | with_reducible refine State.updPath_only ?_ ?_
    | with_reducible refine State.restartPath_only ?_ ?_
    | with_reducible refine State.enterFacet_only ?_ ?_
    | with_reducible refine State.disarmFacet_only ?_ ?_
    | with_reducible refine Only.foldl _ ?_ ?_
    | with_reducible refine Only.Fst.ite ?_ ?_
    | with_reducible refine Only.Fst.unpair (by assumption)
    | with_reducible refine Only.Fst.foldl _ ?_ ?_
    | with_reducible refine Only.Fst.of ?_
    | with_reducible refine Only.Fst.pair ?_
    | with_reducible refine Only.Fst.elim (by assumption) ?_
    | with_reducible refine Only.set_edge ?_ ?_)

theorem State.switchComplete_only {A : Nat} {s₀ : State} {s : State} {f : Nat} (hS : Only A s₀ s) (hA : Covers 0x20000000000 A) :
    Only A s₀ (State.switchComplete s f) := by
  unfold State.switchComplete
  repeat' (first
    | with_reducible exact hS
    | with_reducible assumption
    | (with_reducible refine Covers.testBit hA ?_; decide)
    | (with_reducible refine Covers.trans ?_ hA; decide)
    | (refine fun _ => ?_; intros)
    | with_reducible refine Only.ite ?_ ?_
    | with_reducible refine State.updFacet_only ?_ ?_)

theorem State.startRun_only {A : Nat} {s₀ : State} {s : State} {f : Nat} (hS : Only A s₀ s) (hA : Covers 0x400020000400008 A) :
    Only A s₀ (State.startRun s f) := by
  unfold State.startRun
  repeat' (first
    | with_reducible exact hS
    | with_reducible assumption
    | (with_reducible refine Covers.testBit hA ?_; decide)
    | (with_reducible refine Covers.trans ?_ hA; decide)
    | (refine fun _ => ?_; intros)
    | (extract_lets -underBinder +onlyGivenNames x; refine (fun (hx : Only A s₀ x) => ?_ : Only A s₀ x → _) ?_; (on_goal 2 => unfold x; clear x); (on_goal 1 => clear_value x; revert x; intro _ _))
    | (extract_lets -underBinder +onlyGivenNames x; unfold x; clear x)
    | (extract_lets -underBinder +onlyGivenNames x; revert x; intro _)
    | with_reducible refine Only.ite ?_ ?_
    | with_reducible refine State.updFacet_only ?_ ?_
    | with_reducible refine State.releasePins_only ?_ ?_
    | with_reducible refine State.enterFacet_only ?_ ?_
    | with_reducible refine Only.foldl _ ?_ ?_
    | with_reducible refine Only.Fst.ite ?_ ?_
    | with_reducible refine Only.Fst.unpair (by assumption)
    | with_reducible refine Only.Fst.foldl _ ?_ ?_
    | exact Only.OfRes.trap
    | exact Only.OfRes.held
    | with_reducible refine Only.OfRes.acted ?_
    | with_reducible refine Only.OfRes.ite ?_ ?_
    | with_reducible refine Only.Fst.of ?_
    | with_reducible refine Only.Fst.pair ?_
    | with_reducible refine Only.Fst.elim (by assumption) ?_
    | with_reducible refine Only.OfRes.elim (by assumption) ?_)

theorem State.facetsAtBarrier_only {A : Nat} {s₀ : State} {s : State} (hS : Only A s₀ s) (hA : Covers 0x400020000400008 A) :
    Only A s₀ (State.facetsAtBarrier s) := by
  unfold State.facetsAtBarrier
  repeat' (first
    | with_reducible exact hS
    | with_reducible assumption
    | (with_reducible refine Covers.testBit hA ?_; decide)
    | (with_reducible refine Covers.trans ?_ hA; decide)
    | (refine fun _ => ?_; intros)
    | (extract_lets -underBinder +onlyGivenNames x; refine (fun (hx : Only A s₀ x) => ?_ : Only A s₀ x → _) ?_; (on_goal 2 => unfold x; clear x); (on_goal 1 => clear_value x; revert x; intro _ _))
    | (extract_lets -underBinder +onlyGivenNames x; unfold x; clear x)
    | (extract_lets -underBinder +onlyGivenNames x; revert x; intro _)
    | with_reducible refine Only.ite ?_ ?_
    | with_reducible refine State.updFacet_only ?_ ?_
    | with_reducible refine State.enterFacet_only ?_ ?_
    | with_reducible refine State.startRun_only ?_ ?_
    | with_reducible refine Only.foldl _ ?_ ?_
    | with_reducible refine Only.Fst.ite ?_ ?_
    | with_reducible refine Only.Fst.unpair (by assumption)
    | with_reducible refine Only.Fst.foldl _ ?_ ?_
    | with_reducible refine Only.Fst.of ?_
    | with_reducible refine Only.Fst.pair ?_
    | with_reducible refine Only.Fst.elim (by assumption) ?_)

theorem State.facetActivate_only {A : Nat} {s₀ : State} {s : State} {f : Nat} (hS : Only A s₀ s) (hA : Covers 0xC0003000040000A A) :
    Only A s₀ (State.facetActivate s f) := by
  unfold State.facetActivate
  repeat' (first
    | with_reducible exact hS
    | with_reducible assumption
    | (with_reducible refine Covers.testBit hA ?_; decide)
    | (with_reducible refine Covers.trans ?_ hA; decide)
    | (refine fun _ => ?_; intros)
    | (extract_lets -underBinder +onlyGivenNames x; refine (fun (hx : Only A s₀ x) => ?_ : Only A s₀ x → _) ?_; (on_goal 2 => unfold x; clear x); (on_goal 1 => clear_value x; revert x; intro _ _))
    | (extract_lets -underBinder +onlyGivenNames x; unfold x; clear x)
    | (extract_lets -underBinder +onlyGivenNames x; revert x; intro _)
    | with_reducible refine Only.ite ?_ ?_
    | with_reducible refine State.put_only ?_ ?_
    | with_reducible refine State.arm_only ?_ ?_
    | with_reducible refine State.updFacet_only ?_ ?_
    | with_reducible refine State.facetErr_only ?_ ?_ ?_
    | with_reducible refine State.switchFacet_only ?_ ?_
    | exact Only.Opt.none
    | with_reducible refine Only.Opt.some ?_
    | with_reducible refine Only.Opt.ite ?_ ?_
    | with_reducible refine Only.Opt.getD ?_ ?_
    | with_reducible refine Only.Opt.map ?_
    | split
    | with_reducible refine Only.Opt.elim (by assumption) ?_
    | (refine fun _ => ?_))

theorem State.facetSwitchEntry_only {A : Nat} {s₀ : State} {s : State} {f : Nat} (hS : Only A s₀ s) (hA : Covers 0x40003000040000A A) :
    Only A s₀ (State.facetSwitchEntry s f) := by
  unfold State.facetSwitchEntry
  repeat' (first
    | with_reducible exact hS
    | with_reducible assumption
    | (with_reducible refine Covers.testBit hA ?_; decide)
    | (with_reducible refine Covers.trans ?_ hA; decide)
    | with_reducible refine Only.ite ?_ ?_
    | with_reducible refine State.put_only ?_ ?_
    | with_reducible refine State.tookDue_only ?_ ?_
    | with_reducible refine State.switchFacet_only ?_ ?_)

theorem State.facetAbort_only {A : Nat} {s₀ : State} {s : State} {f : Nat} (hS : Only A s₀ s) (hA : Covers 0x80003000000000A A) :
    Only A s₀ (State.facetAbort s f) := by
  unfold State.facetAbort
  repeat' (first
    | with_reducible exact hS
    | with_reducible assumption
    | (with_reducible refine Covers.testBit hA ?_; decide)
    | (with_reducible refine Covers.trans ?_ hA; decide)
    | (extract_lets -underBinder +onlyGivenNames x; refine (fun (hx : Only A s₀ x) => ?_ : Only A s₀ x → _) ?_; (on_goal 2 => unfold x; clear x); (on_goal 1 => clear_value x; revert x; intro _ _))
    | (extract_lets -underBinder +onlyGivenNames x; unfold x; clear x)
    | (extract_lets -underBinder +onlyGivenNames x; revert x; intro _)
    | with_reducible refine Only.ite ?_ ?_
    | with_reducible refine State.facetErr_only ?_ ?_ ?_
    | with_reducible refine State.disarmFacet_only ?_ ?_
    | with_reducible refine State.emptyShadow_only ?_ ?_
    | with_reducible refine State.facetLoadErr_only ?_ ?_)

theorem State.facetHalt_only {A : Nat} {s₀ : State} {s : State} {f : Nat} (hS : Only A s₀ s) (hA : Covers 0x400020000400008 A) :
    Only A s₀ (State.facetHalt s f) := by
  unfold State.facetHalt
  repeat' (first
    | with_reducible exact hS
    | with_reducible assumption
    | (with_reducible refine Covers.testBit hA ?_; decide)
    | (with_reducible refine Covers.trans ?_ hA; decide)
    | with_reducible refine Only.ite ?_ ?_
    | with_reducible refine State.enterFacet_only ?_ ?_)

theorem State.facetResume_only {A : Nat} {s₀ : State} {s : State} {f : Nat} (hS : Only A s₀ s) (hA : Covers 0x20000000000 A) :
    Only A s₀ (State.facetResume s f) := by
  unfold State.facetResume
  repeat' (first
    | with_reducible exact hS
    | with_reducible assumption
    | (with_reducible refine Covers.testBit hA ?_; decide)
    | (with_reducible refine Covers.trans ?_ hA; decide)
    | (refine fun _ => ?_; intros)
    | with_reducible refine Only.ite ?_ ?_
    | with_reducible refine State.updFacet_only ?_ ?_)

theorem State.facetCapture_only {A : Nat} {s₀ : State} {s : State} {f : Nat} (hS : Only A s₀ s) (hA : Covers 0x800020000000008 A) :
    Only A s₀ (State.facetCapture s f) := by
  unfold State.facetCapture
  repeat' (first
    | with_reducible exact hS
    | with_reducible assumption
    | (with_reducible refine Covers.testBit hA ?_; decide)
    | (with_reducible refine Covers.trans ?_ hA; decide)
    | (refine fun _ => ?_; intros)
    | (extract_lets -underBinder +onlyGivenNames x; refine (fun (hx : Only A s₀ x) => ?_ : Only A s₀ x → _) ?_; (on_goal 2 => unfold x; clear x); (on_goal 1 => clear_value x; revert x; intro _ _))
    | (extract_lets -underBinder +onlyGivenNames x; unfold x; clear x)
    | (extract_lets -underBinder +onlyGivenNames x; revert x; intro _)
    | with_reducible refine Only.ite ?_ ?_
    | with_reducible refine State.put_only ?_ ?_
    | with_reducible refine State.updFacet_only ?_ ?_
    | with_reducible refine State.facetErr_only ?_ ?_ ?_)

theorem State.facetReadback_only {A : Nat} {s₀ : State} {s : State} {f : Nat} (hS : Only A s₀ s) (hA : Covers 0x800000000000008 A) :
    Only A s₀ (State.facetReadback s f) := by
  unfold State.facetReadback
  repeat' (first
    | with_reducible exact hS
    | with_reducible assumption
    | (with_reducible refine Covers.testBit hA ?_; decide)
    | (with_reducible refine Covers.trans ?_ hA; decide)
    | with_reducible refine State.put_only ?_ ?_
    | with_reducible refine State.facetErr_only ?_ ?_ ?_
    | split
    | (refine fun _ => ?_))

theorem State.facetScrub_only {A : Nat} {s₀ : State} {s : State} {f : Nat} {shadow : Bool} {double : Bool} (hS : Only A s₀ s) (hA : Covers 0x1C0003000040000A A) :
    Only A s₀ (State.facetScrub s f shadow double) := by
  unfold State.facetScrub
  repeat' (first
    | with_reducible exact hS
    | with_reducible assumption
    | (with_reducible refine Covers.testBit hA ?_; decide)
    | (with_reducible refine Covers.trans ?_ hA; decide)
    | with_reducible refine Only.ite ?_ ?_
    | with_reducible refine State.inc_only ?_ ?_ ?_
    | with_reducible refine State.facetErr_only ?_ ?_ ?_
    | with_reducible refine State.enterFacet_only ?_ ?_
    | with_reducible refine State.disarmFacet_only ?_ ?_
    | with_reducible refine State.emptyShadow_only ?_ ?_
    | with_reducible refine State.facetLoadErr_only ?_ ?_)

theorem State.blankFacet_only {A : Nat} {s₀ : State} {s : State} {f : Nat} (hS : Only A s₀ s) (hA : Covers 0x8 A) :
    Only A s₀ (State.blankFacet s f) := by
  unfold State.blankFacet
  repeat' (first
    | with_reducible exact hS
    | with_reducible assumption
    | (with_reducible refine Covers.testBit hA ?_; decide)
    | (with_reducible refine Covers.trans ?_ hA; decide)
    | (refine fun _ => ?_; intros)
    | with_reducible refine State.put_only ?_ ?_
    | with_reducible refine Only.foldl _ ?_ ?_
    | with_reducible refine Only.Fst.ite ?_ ?_
    | with_reducible refine Only.Fst.unpair (by assumption)
    | with_reducible refine Only.Fst.foldl _ ?_ ?_
    | with_reducible refine Only.Fst.of ?_
    | with_reducible refine Only.Fst.pair ?_
    | with_reducible refine Only.Fst.elim (by assumption) ?_)

theorem State.resetEdge_only {A : Nat} {s₀ : State} {s : State} (hS : Only A s₀ s) (hA : Covers 0x40003000040000A A) :
    Only A s₀ (State.resetEdge s) := by
  unfold State.resetEdge
  repeat' (first
    | with_reducible exact hS
    | with_reducible assumption
    | (with_reducible refine Covers.testBit hA ?_; decide)
    | (with_reducible refine Covers.trans ?_ hA; decide)
    | (refine fun _ => ?_; intros)
    | (extract_lets -underBinder +onlyGivenNames x; refine (fun (hx : Only A s₀ x) => ?_ : Only A s₀ x → _) ?_; (on_goal 2 => unfold x; clear x); (on_goal 1 => clear_value x; revert x; intro _ _))
    | (extract_lets -underBinder +onlyGivenNames x; unfold x; clear x)
    | (extract_lets -underBinder +onlyGivenNames x; revert x; intro _)
    | with_reducible refine State.put_only ?_ ?_
    | with_reducible refine State.enterFacet_only ?_ ?_
    | with_reducible refine State.disarmFacet_only ?_ ?_
    | with_reducible refine State.emptyShadow_only ?_ ?_
    | with_reducible refine State.blankFacet_only ?_ ?_
    | with_reducible refine Only.forN _ ?_ ?_
    | with_reducible refine Only.set_edge ?_ ?_)

theorem State.writeTclk_only {A : Nat} {s₀ : State} {s : State} {m : Nat} {v : Nat} (hS : Only A s₀ s) (hA : Covers 0x8 A) :
    Only A s₀ (State.writeTclk s m v) := by
  unfold State.writeTclk
  repeat' (first
    | with_reducible exact hS
    | with_reducible assumption
    | (with_reducible refine Covers.testBit hA ?_; decide)
    | (with_reducible refine Covers.trans ?_ hA; decide)
    | (with_reducible refine Covers.trans (Covers.trans (pageMask_all _) ?_) hA; decide)
    | (extract_lets -underBinder +onlyGivenNames x; refine (fun (hx : Only A s₀ x) => ?_ : Only A s₀ x → _) ?_; (on_goal 2 => unfold x; clear x); (on_goal 1 => clear_value x; revert x; intro _ _))
    | (extract_lets -underBinder +onlyGivenNames x; unfold x; clear x)
    | (extract_lets -underBinder +onlyGivenNames x; revert x; intro _)
    | with_reducible refine Only.ite ?_ ?_
    | with_reducible refine State.put_only ?_ ?_
    | with_reducible refine State.wrReg_only ?_ ?_)

theorem State.writeFctrl_only {A : Nat} {s₀ : State} {s : State} {f : Nat} {m : Nat} {v : Nat} (hS : Only A s₀ s) (hA : Covers 0x8 A) :
    Only A s₀ (State.writeFctrl s f m v) := by
  unfold State.writeFctrl
  repeat' (first
    | with_reducible exact hS
    | with_reducible assumption
    | (with_reducible refine Covers.testBit hA ?_; decide)
    | (with_reducible refine Covers.trans ?_ hA; decide)
    | (with_reducible refine Covers.trans (Covers.trans (pageMask_all _) ?_) hA; decide)
    | with_reducible refine Only.ite ?_ ?_
    | with_reducible refine State.wrReg_only ?_ ?_)

theorem State.checkPin_only {A : Nat} {s₀ : State} {s : State} {n : Nat} (hS : Only A s₀ s) (hA : Covers 0x800000000400000 A) :
    Only A s₀ (State.checkPin s n) := by
  unfold State.checkPin
  repeat' (first
    | with_reducible exact hS
    | with_reducible assumption
    | (with_reducible refine Covers.testBit hA ?_; decide)
    | (with_reducible refine Covers.trans ?_ hA; decide)
    | (extract_lets -underBinder +onlyGivenNames x; refine (fun (hx : Only A s₀ x) => ?_ : Only A s₀ x → _) ?_; (on_goal 2 => unfold x; clear x); (on_goal 1 => clear_value x; revert x; intro _ _))
    | (extract_lets -underBinder +onlyGivenNames x; unfold x; clear x)
    | (extract_lets -underBinder +onlyGivenNames x; revert x; intro _)
    | with_reducible refine Only.ite ?_ ?_
    | with_reducible refine State.err_only ?_ ?_ ?_
    | with_reducible refine State.drivePin_only ?_ ?_)

theorem State.writePin_only {A : Nat} {s₀ : State} {s : State} {n : Nat} {m : Nat} {v : Nat} (hS : Only A s₀ s) (hA : Covers 0x800000000400000 A) :
    Only A s₀ (State.writePin s n m v) := by
  unfold State.writePin
  repeat' (first
    | with_reducible exact hS
    | with_reducible assumption
    | (with_reducible refine Covers.testBit hA ?_; decide)
    | (with_reducible refine Covers.trans ?_ hA; decide)
    | (with_reducible refine Covers.trans (Covers.trans (pageMask_all _) ?_) hA; decide)
    | (extract_lets -underBinder +onlyGivenNames x; refine (fun (hx : Only A s₀ x) => ?_ : Only A s₀ x → _) ?_; (on_goal 2 => unfold x; clear x); (on_goal 1 => clear_value x; revert x; intro _ _))
    | (extract_lets -underBinder +onlyGivenNames x; unfold x; clear x)
    | (extract_lets -underBinder +onlyGivenNames x; revert x; intro _)
    | with_reducible refine Only.ite ?_ ?_
    | with_reducible refine State.put_only ?_ ?_
    | with_reducible refine State.wrReg_only ?_ ?_
    | with_reducible refine State.drivePin_only ?_ ?_
    | with_reducible refine State.checkPin_only ?_ ?_)

theorem State.vddioChange_only {A : Nat} {s₀ : State} {s : State} {k : Nat} {code : Nat} (hS : Only A s₀ s) (hA : Covers 0x800000000400000 A) :
    Only A s₀ (State.vddioChange s k code) := by
  unfold State.vddioChange
  repeat' (first
    | with_reducible exact hS
    | with_reducible assumption
    | (with_reducible refine Covers.testBit hA ?_; decide)
    | (with_reducible refine Covers.trans ?_ hA; decide)
    | (refine fun _ => ?_; intros)
    | (extract_lets -underBinder +onlyGivenNames x; refine (fun (hx : Only A s₀ x) => ?_ : Only A s₀ x → _) ?_; (on_goal 2 => unfold x; clear x); (on_goal 1 => clear_value x; revert x; intro _ _))
    | (extract_lets -underBinder +onlyGivenNames x; unfold x; clear x)
    | (extract_lets -underBinder +onlyGivenNames x; revert x; intro _)
    | with_reducible refine State.put_only ?_ ?_
    | with_reducible refine State.errBit_only ?_ ?_ ?_
    | with_reducible refine State.checkPin_only ?_ ?_
    | with_reducible refine Only.forN _ ?_ ?_)

end Sys2Proof.Machine
end

