-- ==== Sys2Proof/Laws/OnlyIslands.lean ====
section
/-! SUPPORT. What each operation of Machine/Islands.lean may change. -/

set_option linter.unusedTactic false
set_option linter.unreachableTactic false
set_option linter.unusedVariables false

namespace Sys2Proof.Machine

theorem State.updIsl_only {A : Nat} {s₀ : State} {s : State} {i : Nat} {f : Island → Island} (hS : Only A s₀ s) (hA : Covers 0x100000000000 A) :
    Only A s₀ (State.updIsl s i f) := by
  unfold State.updIsl
  repeat' (first
    | with_reducible exact hS
    | with_reducible assumption
    | (with_reducible refine Covers.testBit hA ?_; decide)
    | (with_reducible refine Covers.trans ?_ hA; decide)
    | with_reducible refine Only.set_arr ?_ ?_)

theorem State.islErr_only {A : Nat} {s₀ : State} {s : State} {f : Fld} {i : Nat} (hS : Only A s₀ s) (hpf : A.testBit f.page = true) (hA : Covers 0x800000000000000 A) :
    Only A s₀ (State.islErr s f i) := by
  unfold State.islErr
  repeat' (first
    | with_reducible exact hS
    | with_reducible assumption
    | (with_reducible refine Covers.testBit hA ?_; decide)
    | (with_reducible refine Covers.trans ?_ hA; decide)
    | with_reducible refine State.err_only ?_ ?_ ?_)

theorem State.publishArr_only {A : Nat} {s₀ : State} {s : State} (hS : Only A s₀ s) (hA : Covers 0xA0 A) :
    Only A s₀ (State.publishArr s) := by
  unfold State.publishArr
  repeat' (first
    | with_reducible exact hS
    | with_reducible assumption
    | (with_reducible refine Covers.testBit hA ?_; decide)
    | (with_reducible refine Covers.trans ?_ hA; decide)
    | (refine fun _ => ?_; intros)
    | (extract_lets -underBinder +onlyGivenNames x; refine (fun (hx : Only A s₀ x) => ?_ : Only A s₀ x → _) ?_; (on_goal 2 => unfold x; clear x); (on_goal 1 => clear_value x; revert x; intro _ _))
    | (extract_lets -underBinder +onlyGivenNames x; unfold x; clear x)
    | (extract_lets -underBinder +onlyGivenNames x; revert x; intro _)
    | with_reducible refine State.put_only ?_ ?_)

theorem State.stopReload_only {A : Nat} {s₀ : State} {s : State} {i : Nat} (hS : Only A s₀ s) (hA : Covers 0x800100000000020 A) :
    Only A s₀ (State.stopReload s i) := by
  unfold State.stopReload
  repeat' (first
    | with_reducible exact hS
    | with_reducible assumption
    | (with_reducible refine Covers.testBit hA ?_; decide)
    | (with_reducible refine Covers.trans ?_ hA; decide)
    | (refine fun _ => ?_; intros)
    | (extract_lets -underBinder +onlyGivenNames x; refine (fun (hx : Only A s₀ x) => ?_ : Only A s₀ x → _) ?_; (on_goal 2 => unfold x; clear x); (on_goal 1 => clear_value x; revert x; intro _ _))
    | (extract_lets -underBinder +onlyGivenNames x; unfold x; clear x)
    | (extract_lets -underBinder +onlyGivenNames x; revert x; intro _)
    | with_reducible refine State.put_only ?_ ?_
    | with_reducible refine State.updIsl_only ?_ ?_
    | with_reducible refine State.islErr_only ?_ ?_ ?_
    | split
    | (refine fun _ => ?_))

theorem State.enterIsl_only {A : Nat} {s₀ : State} {s : State} {i : Nat} {st : Nat} {reason : Option Nat} (hS : Only A s₀ s) (hA : Covers 0x8101000000100A0 A) :
    Only A s₀ (State.enterIsl s i st reason) := by
  unfold State.enterIsl
  repeat' (first
    | with_reducible exact hS
    | with_reducible assumption
    | (with_reducible refine Covers.testBit hA ?_; decide)
    | (with_reducible refine Covers.trans ?_ hA; decide)
    | (refine fun _ => ?_; intros)
    | (extract_lets -underBinder +onlyGivenNames x; refine (fun (hx : Only A s₀ x) => ?_ : Only A s₀ x → _) ?_; (on_goal 2 => unfold x; clear x); (on_goal 1 => clear_value x; revert x; intro _ _))
    | (extract_lets -underBinder +onlyGivenNames x; unfold x; clear x)
    | (extract_lets -underBinder +onlyGivenNames x; revert x; intro _)
    | with_reducible refine Only.ite ?_ ?_
    | with_reducible refine State.put_only ?_ ?_
    | with_reducible refine State.tarTrigger_only ?_ ?_
    | with_reducible refine State.updIsl_only ?_ ?_
    | with_reducible refine State.publishArr_only ?_ ?_
    | with_reducible refine State.stopReload_only ?_ ?_
    | split
    | (refine fun _ => ?_))

theorem State.islCmd_only {A : Nat} {s₀ : State} {s : State} {i : Nat} {cmd : Nat} (hS : Only A s₀ s) (hA : Covers 0x800100000000020 A) :
    Only A s₀ (State.islCmd s i cmd) := by
  unfold State.islCmd
  repeat' (first
    | with_reducible exact hS
    | with_reducible assumption
    | (with_reducible refine Covers.testBit hA ?_; decide)
    | (with_reducible refine Covers.trans ?_ hA; decide)
    | (refine fun _ => ?_; intros)
    | (extract_lets -underBinder +onlyGivenNames x; refine (fun (hx : Only A s₀ x) => ?_ : Only A s₀ x → _) ?_; (on_goal 2 => unfold x; clear x); (on_goal 1 => clear_value x; revert x; intro _ _))
    | (extract_lets -underBinder +onlyGivenNames x; unfold x; clear x)
    | (extract_lets -underBinder +onlyGivenNames x; revert x; intro _)
    | with_reducible refine Only.ite ?_ ?_
    | with_reducible refine State.updIsl_only ?_ ?_
    | with_reducible refine State.islErr_only ?_ ?_ ?_
    | with_reducible refine Only.foldl _ ?_ ?_
    | with_reducible refine Only.Fst.ite ?_ ?_
    | with_reducible refine Only.Fst.unpair (by assumption)
    | with_reducible refine Only.Fst.foldl _ ?_ ?_
    | split
    | with_reducible refine Only.Fst.of ?_
    | with_reducible refine Only.Fst.pair ?_
    | with_reducible refine Only.Fst.elim (by assumption) ?_
    | (refine fun _ => ?_))

theorem State.dropCmds_only {A : Nat} {s₀ : State} {s : State} {i : Nat} {cmds : Nat} (hS : Only A s₀ s) (hA : Covers 0x800000000000020 A) :
    Only A s₀ (State.dropCmds s i cmds) := by
  unfold State.dropCmds
  repeat' (first
    | with_reducible exact hS
    | with_reducible assumption
    | (with_reducible refine Covers.testBit hA ?_; decide)
    | (with_reducible refine Covers.trans ?_ hA; decide)
    | (refine fun _ => ?_; intros)
    | with_reducible refine Only.ite ?_ ?_
    | with_reducible refine State.islErr_only ?_ ?_ ?_
    | with_reducible refine Only.foldl _ ?_ ?_
    | with_reducible refine Only.Fst.ite ?_ ?_
    | with_reducible refine Only.Fst.unpair (by assumption)
    | with_reducible refine Only.Fst.foldl _ ?_ ?_
    | with_reducible refine Only.Fst.of ?_
    | with_reducible refine Only.Fst.pair ?_
    | with_reducible refine Only.Fst.elim (by assumption) ?_)

theorem State.armMap_only {A : Nat} {s₀ : State} {s : State} {i : Nat} (hS : Only A s₀ s) (hA : Covers 0x100000000000 A) :
    Only A s₀ (State.armMap s i) := by
  unfold State.armMap
  repeat' (first
    | with_reducible exact hS
    | with_reducible assumption
    | (with_reducible refine Covers.testBit hA ?_; decide)
    | (with_reducible refine Covers.trans ?_ hA; decide)
    | (refine fun _ => ?_; intros)
    | with_reducible refine State.updIsl_only ?_ ?_)

theorem State.islToken_only {A : Nat} {s₀ : State} {s : State} {fg : Bool} {i : Nat} (hS : Only A s₀ s) (hA : Covers 0x8101000000100A0 A) :
    Only A s₀ (State.islToken s fg i) := by
  unfold State.islToken
  repeat' (first
    | with_reducible exact hS
    | with_reducible assumption
    | (with_reducible refine Covers.testBit hA ?_; decide)
    | (with_reducible refine Covers.trans ?_ hA; decide)
    | (refine fun _ => ?_; intros)
    | (extract_lets -underBinder +onlyGivenNames x; refine (fun (hx : Only A s₀ x) => ?_ : Only A s₀ x → _) ?_; (on_goal 2 => unfold x; clear x); (on_goal 1 => clear_value x; revert x; intro _ _))
    | (extract_lets -underBinder +onlyGivenNames x; unfold x; clear x)
    | (extract_lets -underBinder +onlyGivenNames x; revert x; intro _)
    | with_reducible refine Only.ite ?_ ?_
    | with_reducible refine State.put_only ?_ ?_
    | with_reducible refine State.updIsl_only ?_ ?_
    | with_reducible refine State.enterIsl_only ?_ ?_
    | with_reducible refine State.dropCmds_only ?_ ?_
    | with_reducible refine State.armMap_only ?_ ?_)

theorem State.epochIncrease_only {A : Nat} {s₀ : State} {s : State} (hS : Only A s₀ s) (hA : Covers 0x100000000020 A) :
    Only A s₀ (State.epochIncrease s) := by
  unfold State.epochIncrease
  repeat' (first
    | with_reducible exact hS
    | with_reducible assumption
    | (with_reducible refine Covers.testBit hA ?_; decide)
    | (with_reducible refine Covers.trans ?_ hA; decide)
    | (refine fun _ => ?_; intros)
    | (extract_lets -underBinder +onlyGivenNames x; refine (fun (hx : Only A s₀ x) => ?_ : Only A s₀ x → _) ?_; (on_goal 2 => unfold x; clear x); (on_goal 1 => clear_value x; revert x; intro _ _))
    | (extract_lets -underBinder +onlyGivenNames x; unfold x; clear x)
    | (extract_lets -underBinder +onlyGivenNames x; revert x; intro _)
    | with_reducible refine Only.ite ?_ ?_
    | with_reducible refine State.put_only ?_ ?_
    | with_reducible refine Only.foldl _ ?_ ?_
    | with_reducible refine Only.Fst.ite ?_ ?_
    | with_reducible refine Only.Fst.unpair (by assumption)
    | with_reducible refine Only.Fst.foldl _ ?_ ?_
    | with_reducible refine Only.Fst.of ?_
    | with_reducible refine Only.Fst.pair ?_
    | with_reducible refine Only.Fst.elim (by assumption) ?_
    | with_reducible refine Only.set_arr ?_ ?_)

theorem State.edgeAtBarrier_only {A : Nat} {s₀ : State} {s : State} (hS : Only A s₀ s) (hA : Covers 0x120000000020 A) :
    Only A s₀ (State.edgeAtBarrier s) := by
  unfold State.edgeAtBarrier
  repeat' (first
    | with_reducible exact hS
    | with_reducible assumption
    | (with_reducible refine Covers.testBit hA ?_; decide)
    | (with_reducible refine Covers.trans ?_ hA; decide)
    | (refine fun _ => ?_; intros)
    | (extract_lets -underBinder +onlyGivenNames x; refine (fun (hx : Only A s₀ x) => ?_ : Only A s₀ x → _) ?_; (on_goal 2 => unfold x; clear x); (on_goal 1 => clear_value x; revert x; intro _ _))
    | (extract_lets -underBinder +onlyGivenNames x; unfold x; clear x)
    | (extract_lets -underBinder +onlyGivenNames x; revert x; intro _)
    | with_reducible refine State.put_only ?_ ?_
    | with_reducible refine Only.foldl _ ?_ ?_
    | with_reducible refine Only.Fst.ite ?_ ?_
    | with_reducible refine Only.Fst.unpair (by assumption)
    | with_reducible refine Only.Fst.foldl _ ?_ ?_
    | with_reducible refine Only.Fst.of ?_
    | with_reducible refine Only.Fst.pair ?_
    | with_reducible refine Only.Fst.elim (by assumption) ?_
    | with_reducible refine Only.set_arr ?_ ?_)

theorem State.islandsAtBarrier_only {A : Nat} {s₀ : State} {s : State} {fg : Bool} (hS : Only A s₀ s) (hA : Covers 0x8101000000100A0 A) :
    Only A s₀ (State.islandsAtBarrier s fg) := by
  unfold State.islandsAtBarrier
  repeat' (first
    | with_reducible exact hS
    | with_reducible assumption
    | (with_reducible refine Covers.testBit hA ?_; decide)
    | (with_reducible refine Covers.trans ?_ hA; decide)
    | (refine fun _ => ?_; intros)
    | (extract_lets -underBinder +onlyGivenNames x; refine (fun (hx : Only A s₀ x) => ?_ : Only A s₀ x → _) ?_; (on_goal 2 => unfold x; clear x); (on_goal 1 => clear_value x; revert x; intro _ _))
    | (extract_lets -underBinder +onlyGivenNames x; unfold x; clear x)
    | (extract_lets -underBinder +onlyGivenNames x; revert x; intro _)
    | with_reducible refine State.islToken_only ?_ ?_
    | with_reducible refine Only.foldl _ ?_ ?_
    | with_reducible refine Only.Fst.ite ?_ ?_
    | with_reducible refine Only.Fst.unpair (by assumption)
    | with_reducible refine Only.Fst.foldl _ ?_ ?_
    | with_reducible refine Only.Fst.of ?_
    | with_reducible refine Only.Fst.pair ?_
    | with_reducible refine Only.Fst.elim (by assumption) ?_
    | with_reducible refine Only.set_arr ?_ ?_)

theorem State.exchangeBanks_only {A : Nat} {s₀ : State} {s : State} {entered : Bool} (hS : Only A s₀ s) (hA : Covers 0x80000000000 A) :
    Only A s₀ (State.exchangeBanks s entered) := by
  unfold State.exchangeBanks
  repeat' (first
    | with_reducible exact hS
    | with_reducible assumption
    | (with_reducible refine Covers.testBit hA ?_; decide)
    | (with_reducible refine Covers.trans ?_ hA; decide)
    | (extract_lets -underBinder +onlyGivenNames x; refine (fun (hx : Only A s₀ x) => ?_ : Only A s₀ x → _) ?_; (on_goal 2 => unfold x; clear x); (on_goal 1 => clear_value x; revert x; intro _ _))
    | (extract_lets -underBinder +onlyGivenNames x; unfold x; clear x)
    | (extract_lets -underBinder +onlyGivenNames x; revert x; intro _)
    | with_reducible refine Only.ite ?_ ?_
    | with_reducible refine Only.set_pri ?_ ?_)

theorem State.recordSpread_only {A : Nat} {s₀ : State} {s : State} (hS : Only A s₀ s) (hA : Covers 0x1000000000000020 A) :
    Only A s₀ (State.recordSpread s) := by
  unfold State.recordSpread
  repeat' (first
    | with_reducible exact hS
    | with_reducible assumption
    | (with_reducible refine Covers.testBit hA ?_; decide)
    | (with_reducible refine Covers.trans ?_ hA; decide)
    | (refine fun _ => ?_; intros)
    | (extract_lets -underBinder +onlyGivenNames x; refine (fun (hx : Only A s₀ x) => ?_ : Only A s₀ x → _) ?_; (on_goal 2 => unfold x; clear x); (on_goal 1 => clear_value x; revert x; intro _ _))
    | (extract_lets -underBinder +onlyGivenNames x; unfold x; clear x)
    | (extract_lets -underBinder +onlyGivenNames x; revert x; intro _)
    | with_reducible refine State.put_only ?_ ?_
    | with_reducible refine State.raiseTo_only ?_ ?_ ?_
    | with_reducible refine Only.foldl _ ?_ ?_
    | with_reducible refine Only.Fst.ite ?_ ?_
    | with_reducible refine Only.Fst.unpair (by assumption)
    | with_reducible refine Only.Fst.foldl _ ?_ ?_
    | with_reducible refine Only.Fst.of ?_
    | with_reducible refine Only.Fst.pair ?_
    | with_reducible refine Only.Fst.elim (by assumption) ?_)

theorem State.arrivals_only {A : Nat} {s₀ : State} {s : State} (hS : Only A s₀ s) (hA : Covers 0x1800000000000020 A) :
    Only A s₀ (State.arrivals s) := by
  unfold State.arrivals
  repeat' (first
    | with_reducible exact hS
    | with_reducible assumption
    | (with_reducible refine Covers.testBit hA ?_; decide)
    | (with_reducible refine Covers.trans ?_ hA; decide)
    | (extract_lets -underBinder +onlyGivenNames x; refine (fun (hx : Only A s₀ x) => ?_ : Only A s₀ x → _) ?_; (on_goal 2 => unfold x; clear x); (on_goal 1 => clear_value x; revert x; intro _ _))
    | (extract_lets -underBinder +onlyGivenNames x; unfold x; clear x)
    | (extract_lets -underBinder +onlyGivenNames x; revert x; intro _)
    | with_reducible refine Only.ite ?_ ?_
    | with_reducible refine State.inc_only ?_ ?_ ?_
    | with_reducible refine State.err_only ?_ ?_ ?_
    | with_reducible refine State.recordSpread_only ?_ ?_)

theorem State.islandArrive_only {A : Nat} {s₀ : State} {s : State} {i : Nat} {t : Nat} {late : Bool} (hS : Only A s₀ s) (hA : Covers 0x1800100000000020 A) :
    Only A s₀ (State.islandArrive s i t late) := by
  unfold State.islandArrive
  repeat' (first
    | with_reducible exact hS
    | with_reducible assumption
    | (with_reducible refine Covers.testBit hA ?_; decide)
    | (with_reducible refine Covers.trans ?_ hA; decide)
    | with_reducible refine Only.ite ?_ ?_
    | with_reducible refine State.arrivals_only ?_ ?_
    | with_reducible refine Only.set_arr ?_ ?_)

theorem State.barrierTimeout_only {A : Nat} {s₀ : State} {s : State} {i : Nat} (hS : Only A s₀ s) (hA : Covers 0x18101000000100A0 A) :
    Only A s₀ (State.barrierTimeout s i) := by
  unfold State.barrierTimeout
  repeat' (first
    | with_reducible exact hS
    | with_reducible assumption
    | (with_reducible refine Covers.testBit hA ?_; decide)
    | (with_reducible refine Covers.trans ?_ hA; decide)
    | (extract_lets -underBinder +onlyGivenNames x; refine (fun (hx : Only A s₀ x) => ?_ : Only A s₀ x → _) ?_; (on_goal 2 => unfold x; clear x); (on_goal 1 => clear_value x; revert x; intro _ _))
    | (extract_lets -underBinder +onlyGivenNames x; unfold x; clear x)
    | (extract_lets -underBinder +onlyGivenNames x; revert x; intro _)
    | with_reducible refine Only.ite ?_ ?_
    | with_reducible refine State.inc_only ?_ ?_ ?_
    | with_reducible refine State.err_only ?_ ?_ ?_
    | with_reducible refine State.islErr_only ?_ ?_ ?_
    | with_reducible refine State.enterIsl_only ?_ ?_
    | with_reducible refine State.arrivals_only ?_ ?_
    | with_reducible refine Only.set_arr ?_ ?_)

theorem State.islandClock_only {A : Nat} {s₀ : State} {s : State} {i : Nat} {period : Nat} (hS : Only A s₀ s) (hA : Covers 0x1800300000000020 A) :
    Only A s₀ (State.islandClock s i period) := by
  unfold State.islandClock
  repeat' (first
    | with_reducible exact hS
    | with_reducible assumption
    | (with_reducible refine Covers.testBit hA ?_; decide)
    | (with_reducible refine Covers.trans ?_ hA; decide)
    | (refine fun _ => ?_; intros)
    | (extract_lets -underBinder +onlyGivenNames x; refine (fun (hx : Only A s₀ x) => ?_ : Only A s₀ x → _) ?_; (on_goal 2 => unfold x; clear x); (on_goal 1 => clear_value x; revert x; intro _ _))
    | (extract_lets -underBinder +onlyGivenNames x; unfold x; clear x)
    | (extract_lets -underBinder +onlyGivenNames x; revert x; intro _)
    | with_reducible refine Only.ite ?_ ?_
    | with_reducible refine State.put_only ?_ ?_
    | with_reducible refine State.inc_only ?_ ?_ ?_
    | with_reducible refine State.updIsl_only ?_ ?_
    | with_reducible refine State.islErr_only ?_ ?_ ?_
    | with_reducible refine Only.set_seq ?_ ?_)

theorem State.clockUnlock_only {A : Nat} {s₀ : State} {s : State} {i : Nat} (hS : Only A s₀ s) (hA : Covers 0x18101000000100A0 A) :
    Only A s₀ (State.clockUnlock s i) := by
  unfold State.clockUnlock
  repeat' (first
    | with_reducible exact hS
    | with_reducible assumption
    | (with_reducible refine Covers.testBit hA ?_; decide)
    | (with_reducible refine Covers.trans ?_ hA; decide)
    | (refine fun _ => ?_; intros)
    | (extract_lets -underBinder +onlyGivenNames x; refine (fun (hx : Only A s₀ x) => ?_ : Only A s₀ x → _) ?_; (on_goal 2 => unfold x; clear x); (on_goal 1 => clear_value x; revert x; intro _ _))
    | (extract_lets -underBinder +onlyGivenNames x; unfold x; clear x)
    | (extract_lets -underBinder +onlyGivenNames x; revert x; intro _)
    | with_reducible refine Only.ite ?_ ?_
    | with_reducible refine State.updIsl_only ?_ ?_
    | with_reducible refine State.islErr_only ?_ ?_ ?_
    | with_reducible refine State.enterIsl_only ?_ ?_
    | with_reducible refine State.arrivals_only ?_ ?_
    | with_reducible refine Only.set_arr ?_ ?_)

theorem State.clockRelock_only {A : Nat} {s₀ : State} {s : State} {i : Nat} (hS : Only A s₀ s) (hA : Covers 0x100000000000 A) :
    Only A s₀ (State.clockRelock s i) := by
  unfold State.clockRelock
  repeat' (first
    | with_reducible exact hS
    | with_reducible assumption
    | (with_reducible refine Covers.testBit hA ?_; decide)
    | (with_reducible refine Covers.trans ?_ hA; decide)
    | (refine fun _ => ?_; intros)
    | with_reducible refine Only.ite ?_ ?_
    | with_reducible refine State.updIsl_only ?_ ?_)

theorem State.clearingComplete_only {A : Nat} {s₀ : State} {s : State} {i : Nat} (hS : Only A s₀ s) (hA : Covers 0x184000000000 A) :
    Only A s₀ (State.clearingComplete s i) := by
  unfold State.clearingComplete
  repeat' (first
    | with_reducible exact hS
    | with_reducible assumption
    | (with_reducible refine Covers.testBit hA ?_; decide)
    | (with_reducible refine Covers.trans ?_ hA; decide)
    | (refine fun _ => ?_; intros)
    | with_reducible refine Only.ite ?_ ?_
    | with_reducible refine State.clearIsland_only ?_ ?_
    | with_reducible refine State.updIsl_only ?_ ?_)

theorem State.writeIslMap_only {A : Nat} {s₀ : State} {s : State} {i : Nat} {m : Nat} {v : Nat} (hS : Only A s₀ s) (hA : Covers 0x800000000000020 A) :
    Only A s₀ (State.writeIslMap s i m v) := by
  unfold State.writeIslMap
  repeat' (first
    | with_reducible exact hS
    | with_reducible assumption
    | (with_reducible refine Covers.testBit hA ?_; decide)
    | (with_reducible refine Covers.trans ?_ hA; decide)
    | (with_reducible refine Covers.trans (Covers.trans (pageMask_all _) ?_) hA; decide)
    | (refine fun _ => ?_; intros)
    | (extract_lets -underBinder +onlyGivenNames x; refine (fun (hx : Only A s₀ x) => ?_ : Only A s₀ x → _) ?_; (on_goal 2 => unfold x; clear x); (on_goal 1 => clear_value x; revert x; intro _ _))
    | (extract_lets -underBinder +onlyGivenNames x; unfold x; clear x)
    | (extract_lets -underBinder +onlyGivenNames x; revert x; intro _)
    | with_reducible refine Only.ite ?_ ?_
    | with_reducible refine State.put_only ?_ ?_
    | with_reducible refine State.wrReg_only ?_ ?_
    | with_reducible refine State.islErr_only ?_ ?_ ?_)

theorem State.writeWhalo_only {A : Nat} {s₀ : State} {s : State} {n : Nat} {m : Nat} {v : Nat} (hS : Only A s₀ s) (hA : Covers 0x800000000000020 A) :
    Only A s₀ (State.writeWhalo s n m v) := by
  unfold State.writeWhalo
  repeat' (first
    | with_reducible exact hS
    | with_reducible assumption
    | (with_reducible refine Covers.testBit hA ?_; decide)
    | (with_reducible refine Covers.trans ?_ hA; decide)
    | (with_reducible refine Covers.trans (Covers.trans (pageMask_all _) ?_) hA; decide)
    | (refine fun _ => ?_; intros)
    | (extract_lets -underBinder +onlyGivenNames x; refine (fun (hx : Only A s₀ x) => ?_ : Only A s₀ x → _) ?_; (on_goal 2 => unfold x; clear x); (on_goal 1 => clear_value x; revert x; intro _ _))
    | (extract_lets -underBinder +onlyGivenNames x; unfold x; clear x)
    | (extract_lets -underBinder +onlyGivenNames x; revert x; intro _)
    | with_reducible refine Only.ite ?_ ?_
    | with_reducible refine State.err_only ?_ ?_ ?_
    | with_reducible refine State.wrReg_only ?_ ?_)

theorem State.writeEdge_only {A : Nat} {s₀ : State} {s : State} {m : Nat} {v : Nat} (hS : Only A s₀ s) (hA : Covers 0x20 A) :
    Only A s₀ (State.writeEdge s m v) := by
  unfold State.writeEdge
  repeat' (first
    | with_reducible exact hS
    | with_reducible assumption
    | (with_reducible refine Covers.testBit hA ?_; decide)
    | (with_reducible refine Covers.trans ?_ hA; decide)
    | (with_reducible refine Covers.trans (Covers.trans (pageMask_all _) ?_) hA; decide)
    | with_reducible refine State.wrReg_only ?_ ?_)

theorem State.writePersist_only {A : Nat} {s₀ : State} {s : State} {n : Nat} {m : Nat} {v : Nat} (hS : Only A s₀ s) (hA : Covers 0x800000000000020 A) :
    Only A s₀ (State.writePersist s n m v) := by
  unfold State.writePersist
  repeat' (first
    | with_reducible exact hS
    | with_reducible assumption
    | (with_reducible refine Covers.testBit hA ?_; decide)
    | (with_reducible refine Covers.trans ?_ hA; decide)
    | (with_reducible refine Covers.trans (Covers.trans (pageMask_all _) ?_) hA; decide)
    | (extract_lets -underBinder +onlyGivenNames x; refine (fun (hx : Only A s₀ x) => ?_ : Only A s₀ x → _) ?_; (on_goal 2 => unfold x; clear x); (on_goal 1 => clear_value x; revert x; intro _ _))
    | (extract_lets -underBinder +onlyGivenNames x; unfold x; clear x)
    | (extract_lets -underBinder +onlyGivenNames x; revert x; intro _)
    | with_reducible refine Only.ite ?_ ?_
    | with_reducible refine State.err_only ?_ ?_ ?_
    | with_reducible refine State.wrReg_only ?_ ?_)

theorem State.bumpEpoch_only {A : Nat} {s₀ : State} {s : State} (hS : Only A s₀ s) (hA : Covers 0x100000000000 A) :
    Only A s₀ (State.bumpEpoch s) := by
  unfold State.bumpEpoch
  repeat' (first
    | with_reducible exact hS
    | with_reducible assumption
    | (with_reducible refine Covers.testBit hA ?_; decide)
    | (with_reducible refine Covers.trans ?_ hA; decide)
    | with_reducible refine Only.set_arr ?_ ?_)

theorem State.armReload_only {A : Nat} {s₀ : State} {s : State} {i : Nat} {firmware : Bool} {src : Nat} {epoch : Nat} (hS : Only A s₀ s) (hA : Covers 0x100000000020 A) :
    Only A s₀ (State.armReload s i firmware src epoch) := by
  unfold State.armReload
  repeat' (first
    | with_reducible exact hS
    | with_reducible assumption
    | (with_reducible refine Covers.testBit hA ?_; decide)
    | (with_reducible refine Covers.trans ?_ hA; decide)
    | (refine fun _ => ?_; intros)
    | (extract_lets -underBinder +onlyGivenNames x; refine (fun (hx : Only A s₀ x) => ?_ : Only A s₀ x → _) ?_; (on_goal 2 => unfold x; clear x); (on_goal 1 => clear_value x; revert x; intro _ _))
    | (extract_lets -underBinder +onlyGivenNames x; unfold x; clear x)
    | (extract_lets -underBinder +onlyGivenNames x; revert x; intro _)
    | with_reducible refine Only.ite ?_ ?_
    | with_reducible refine State.put_only ?_ ?_
    | with_reducible refine State.updIsl_only ?_ ?_)

theorem State.reloadStart_only {A : Nat} {s₀ : State} {s : State} {i : Nat} (hS : Only A s₀ s) (hA : Covers 0x800100000000020 A) :
    Only A s₀ (State.reloadStart s i) := by
  unfold State.reloadStart
  repeat' (first
    | with_reducible exact hS
    | with_reducible assumption
    | (with_reducible refine Covers.testBit hA ?_; decide)
    | (with_reducible refine Covers.trans ?_ hA; decide)
    | (extract_lets -underBinder +onlyGivenNames x; refine (fun (hx : Only A s₀ x) => ?_ : Only A s₀ x → _) ?_; (on_goal 2 => unfold x; clear x); (on_goal 1 => clear_value x; revert x; intro _ _))
    | (extract_lets -underBinder +onlyGivenNames x; unfold x; clear x)
    | (extract_lets -underBinder +onlyGivenNames x; revert x; intro _)
    | with_reducible refine Only.ite ?_ ?_
    | with_reducible refine State.islErr_only ?_ ?_ ?_
    | with_reducible refine State.armReload_only ?_ ?_)

theorem State.reloadAbort_only {A : Nat} {s₀ : State} {s : State} {i : Nat} (hS : Only A s₀ s) (hA : Covers 0x800100000000020 A) :
    Only A s₀ (State.reloadAbort s i) := by
  unfold State.reloadAbort
  repeat' (first
    | with_reducible exact hS
    | with_reducible assumption
    | (with_reducible refine Covers.testBit hA ?_; decide)
    | (with_reducible refine Covers.trans ?_ hA; decide)
    | with_reducible refine Only.ite ?_ ?_
    | with_reducible refine State.islErr_only ?_ ?_ ?_
    | with_reducible refine State.stopReload_only ?_ ?_)

theorem State.autoReload_only {A : Nat} {s₀ : State} {s : State} {i : Nat} (hS : Only A s₀ s) (hA : Covers 0x100000000020 A) :
    Only A s₀ (State.autoReload s i) := by
  unfold State.autoReload
  repeat' (first
    | with_reducible exact hS
    | with_reducible assumption
    | (with_reducible refine Covers.testBit hA ?_; decide)
    | (with_reducible refine Covers.trans ?_ hA; decide)
    | (extract_lets -underBinder +onlyGivenNames x; refine (fun (hx : Only A s₀ x) => ?_ : Only A s₀ x → _) ?_; (on_goal 2 => unfold x; clear x); (on_goal 1 => clear_value x; revert x; intro _ _))
    | (extract_lets -underBinder +onlyGivenNames x; unfold x; clear x)
    | (extract_lets -underBinder +onlyGivenNames x; revert x; intro _)
    | with_reducible refine Only.ite ?_ ?_
    | with_reducible refine State.put_only ?_ ?_
    | with_reducible refine State.armReload_only ?_ ?_)

end Sys2Proof.Machine
end

