-- ==== Sys2Proof/Laws/OnlySidePort.lean ====
section
/-! SUPPORT. What each operation of Machine/SidePort.lean may change. -/

set_option linter.unusedTactic false
set_option linter.unreachableTactic false
set_option linter.unusedVariables false

namespace Sys2Proof.Machine

theorem State.publishSide_only {A : Nat} {s₀ : State} {s : State} (hS : Only A s₀ s) (hA : Covers 0x10 A) :
    Only A s₀ (State.publishSide s) := by
  unfold State.publishSide
  repeat' (first
    | with_reducible exact hS
    | with_reducible assumption
    | (with_reducible refine Covers.testBit hA ?_; decide)
    | (with_reducible refine Covers.trans ?_ hA; decide)
    | with_reducible refine State.put_only ?_ ?_)

theorem State.sidePiece_only {A : Nat} {s₀ : State} {s : State} {write : Bool} {plane : Nat} {p : Piece} (hS : Only A s₀ s) (hA : Covers 0x80000000010 A) :
    Only A s₀ (State.sidePiece s write plane p) := by
  unfold State.sidePiece
  repeat' (first
    | with_reducible exact hS
    | with_reducible assumption
    | (with_reducible refine Covers.testBit hA ?_; decide)
    | (with_reducible refine Covers.trans ?_ hA; decide)
    | (extract_lets -underBinder +onlyGivenNames x; refine (fun (hx : Only A s₀ x) => ?_ : Only A s₀ x → _) ?_; (on_goal 2 => unfold x; clear x); (on_goal 1 => clear_value x; revert x; intro _ _))
    | (extract_lets -underBinder +onlyGivenNames x; unfold x; clear x)
    | (extract_lets -underBinder +onlyGivenNames x; revert x; intro _)
    | with_reducible refine Only.ite ?_ ?_
    | with_reducible refine State.publishSide_only ?_ ?_
    | exact Only.OfRes.trap
    | exact Only.OfRes.held
    | with_reducible refine Only.OfRes.acted ?_
    | with_reducible refine Only.OfRes.ite ?_ ?_
    | split
    | with_reducible refine Only.OfRes.elim (by assumption) ?_
    | with_reducible refine Only.set_pri ?_ ?_
    | (refine fun _ => ?_))

theorem State.admitHeld_only {A : Nat} {s₀ : State} {s : State} {v0 : Nat} (hS : Only A s₀ s) (hA : Covers 0x80000000000 A) :
    Only A s₀ (State.admitHeld s v0) := by
  induction v0 generalizing s with
  | zero =>
    unfold State.admitHeld
    repeat' (first
      | with_reducible exact hS
      | with_reducible assumption
      | (with_reducible refine Covers.testBit hA ?_; decide)
      | (with_reducible refine Covers.trans ?_ hA; decide)
      | (refine fun _ => ?_; intros)
      | with_reducible refine Only.Fst.ite ?_ ?_
      | with_reducible refine Only.Fst.unpair (by assumption)
      | exact Only.OfRes.trap
      | exact Only.OfRes.held
      | with_reducible refine Only.OfRes.acted ?_
      | with_reducible refine Only.OfRes.ite ?_ ?_
      | split
      | with_reducible refine Only.Fst.of ?_
      | with_reducible refine Only.Fst.pair ?_
      | with_reducible refine Only.Fst.elim (by assumption) ?_
      | with_reducible refine Only.OfRes.elim (by assumption) ?_
      | with_reducible refine Only.set_pri ?_ ?_
      | (refine fun _ => ?_))
  | succ k ih =>
    unfold State.admitHeld
    repeat' (first
      | with_reducible exact hS
      | with_reducible assumption
      | (with_reducible refine Covers.testBit hA ?_; decide)
      | (with_reducible refine Covers.trans ?_ hA; decide)
      | with_reducible refine ih ?_
      | (refine fun _ => ?_; intros)
      | with_reducible refine Only.Fst.ite ?_ ?_
      | with_reducible refine Only.Fst.unpair (by assumption)
      | exact Only.OfRes.trap
      | exact Only.OfRes.held
      | with_reducible refine Only.OfRes.acted ?_
      | with_reducible refine Only.OfRes.ite ?_ ?_
      | split
      | with_reducible refine Only.Fst.of ?_
      | with_reducible refine Only.Fst.pair ?_
      | with_reducible refine Only.Fst.elim (by assumption) ?_
      | with_reducible refine Only.OfRes.elim (by assumption) ?_
      | with_reducible refine Only.set_pri ?_ ?_
      | (refine fun _ => ?_))

theorem State.sideRefuse_only {A : Nat} {s₀ : State} {s : State} (hS : Only A s₀ s) (hA : Covers 0x1800000000000010 A) :
    Only A s₀ (State.sideRefuse s) := by
  unfold State.sideRefuse
  repeat' (first
    | with_reducible exact hS
    | with_reducible assumption
    | (with_reducible refine Covers.testBit hA ?_; decide)
    | (with_reducible refine Covers.trans ?_ hA; decide)
    | with_reducible refine State.inc_only ?_ ?_ ?_
    | with_reducible refine State.err_only ?_ ?_ ?_)

theorem State.sideRequest_only {A : Nat} {s₀ : State} {s : State} {write : Bool} {addr : Nat} {len : Nat} {initiator : Nat} {tag : Nat} {data : List (BitVec 8)} (hS : Only A s₀ s) (hA : Covers 0x80000000010 A) :
    Only.Opt A s₀ (State.sideRequest s write addr len initiator tag data) := by
  unfold State.sideRequest
  repeat' (first
    | with_reducible exact hS
    | with_reducible assumption
    | (with_reducible refine Covers.testBit hA ?_; decide)
    | (with_reducible refine Covers.trans ?_ hA; decide)
    | (refine fun _ => ?_; intros)
    | with_reducible refine Only.ite ?_ ?_
    | with_reducible refine State.sidePiece_only ?_ ?_
    | with_reducible refine Only.foldl _ ?_ ?_
    | with_reducible refine Only.Fst.ite ?_ ?_
    | with_reducible refine Only.Fst.unpair (by assumption)
    | with_reducible refine Only.Fst.foldl _ ?_ ?_
    | exact Only.Opt.none
    | with_reducible refine Only.Opt.some ?_
    | with_reducible refine Only.Opt.ite ?_ ?_
    | with_reducible refine Only.Opt.getD ?_ ?_
    | with_reducible refine Only.Opt.map ?_
    | with_reducible refine Only.Fst.of ?_
    | with_reducible refine Only.Fst.pair ?_
    | with_reducible refine Only.Fst.elim (by assumption) ?_
    | with_reducible refine Only.Opt.elim (by assumption) ?_)

theorem State.sideDiscards_only {A : Nat} {s₀ : State} {s : State} {p : Piece} (hS : Only A s₀ s) (hA : Covers 0x1800000000000030 A) :
    Only A s₀ (State.sideDiscards s p) := by
  unfold State.sideDiscards
  repeat' (first
    | with_reducible exact hS
    | with_reducible assumption
    | (with_reducible refine Covers.testBit hA ?_; decide)
    | (with_reducible refine Covers.trans ?_ hA; decide)
    | (refine fun _ => ?_; intros)
    | (extract_lets -underBinder +onlyGivenNames x; refine (fun (hx : Only A s₀ x) => ?_ : Only A s₀ x → _) ?_; (on_goal 2 => unfold x; clear x); (on_goal 1 => clear_value x; revert x; intro _ _))
    | (extract_lets -underBinder +onlyGivenNames x; unfold x; clear x)
    | (extract_lets -underBinder +onlyGivenNames x; revert x; intro _)
    | with_reducible refine Only.ite ?_ ?_
    | with_reducible refine State.inc_only ?_ ?_ ?_
    | with_reducible refine State.err_only ?_ ?_ ?_
    | with_reducible refine Only.foldl _ ?_ ?_
    | with_reducible refine Only.Fst.ite ?_ ?_
    | with_reducible refine Only.Fst.unpair (by assumption)
    | with_reducible refine Only.Fst.foldl _ ?_ ?_
    | with_reducible refine Only.Fst.of ?_
    | with_reducible refine Only.Fst.pair ?_
    | with_reducible refine Only.Fst.elim (by assumption) ?_)

theorem State.followWrite_only {A : Nat} {s₀ : State} {s : State} {plane : Nat} {v : Nat} {mask : Nat} (hS : Only A s₀ s) (hA : Covers 0x100000000000 A) :
    Only A s₀ (State.followWrite s plane v mask) := by
  unfold State.followWrite
  repeat' (first
    | with_reducible exact hS
    | with_reducible assumption
    | (with_reducible refine Covers.testBit hA ?_; decide)
    | (with_reducible refine Covers.trans ?_ hA; decide)
    | (refine fun _ => ?_; intros)
    | (extract_lets -underBinder +onlyGivenNames x; refine (fun (hx : Only A s₀ x) => ?_ : Only A s₀ x → _) ?_; (on_goal 2 => unfold x; clear x); (on_goal 1 => clear_value x; revert x; intro _ _))
    | (extract_lets -underBinder +onlyGivenNames x; unfold x; clear x)
    | (extract_lets -underBinder +onlyGivenNames x; revert x; intro _)
    | with_reducible refine Only.ite ?_ ?_
    | with_reducible refine State.put_only ?_ ?_
    | with_reducible refine Only.set_arr ?_ ?_)

theorem State.sideWrite_only {A : Nat} {s₀ : State} {s : State} {plane : Nat} {p : Piece} (hS : Only A s₀ s) (hA : Covers 0x1800184000000070 A) :
    Only A s₀ (State.sideWrite s plane p) := by
  unfold State.sideWrite
  repeat' (first
    | with_reducible exact hS
    | with_reducible assumption
    | (with_reducible refine Covers.testBit hA ?_; decide)
    | (with_reducible refine Covers.trans ?_ hA; decide)
    | (extract_lets -underBinder +onlyGivenNames x; refine (fun (hx : Only A s₀ x) => ?_ : Only A s₀ x → _) ?_; (on_goal 2 => unfold x; clear x); (on_goal 1 => clear_value x; revert x; intro _ _))
    | (extract_lets -underBinder +onlyGivenNames x; unfold x; clear x)
    | (extract_lets -underBinder +onlyGivenNames x; revert x; intro _)
    | with_reducible refine Only.ite ?_ ?_
    | with_reducible refine State.err_only ?_ ?_ ?_
    | with_reducible refine State.setPortPlane_only ?_ ?_
    | with_reducible refine State.sideDiscards_only ?_ ?_
    | with_reducible refine State.followWrite_only ?_ ?_)

theorem State.sideEntry_only {A : Nat} {s₀ : State} {s : State} {e : SideEntry} (hS : Only A s₀ s) (hA : Covers 0x1800184000000070 A) :
    Only A s₀ (State.sideEntry s e) := by
  unfold State.sideEntry
  repeat' (first
    | with_reducible exact hS
    | with_reducible assumption
    | (with_reducible refine Covers.testBit hA ?_; decide)
    | (with_reducible refine Covers.trans ?_ hA; decide)
    | (refine fun _ => ?_; intros)
    | (extract_lets -underBinder +onlyGivenNames x; refine (fun (hx : Only A s₀ x) => ?_ : Only A s₀ x → _) ?_; (on_goal 2 => unfold x; clear x); (on_goal 1 => clear_value x; revert x; intro _ _))
    | (extract_lets -underBinder +onlyGivenNames x; unfold x; clear x)
    | (extract_lets -underBinder +onlyGivenNames x; revert x; intro _)
    | with_reducible refine Only.ite ?_ ?_
    | with_reducible refine State.sideWrite_only ?_ ?_
    | with_reducible refine Only.foldl _ ?_ ?_
    | with_reducible refine Only.Fst.ite ?_ ?_
    | with_reducible refine Only.Fst.unpair (by assumption)
    | with_reducible refine Only.Fst.foldl _ ?_ ?_
    | split
    | with_reducible refine Only.Fst.of ?_
    | with_reducible refine Only.Fst.pair ?_
    | with_reducible refine Only.Fst.elim (by assumption) ?_
    | with_reducible refine Only.set_pri ?_ ?_)

theorem State.sidePerform_only {A : Nat} {s₀ : State} {s : State} (hS : Only A s₀ s) (hA : Covers 0x1800184000000070 A) :
    Only A s₀ (State.sidePerform s) := by
  unfold State.sidePerform
  repeat' (first
    | with_reducible exact hS
    | with_reducible assumption
    | (with_reducible refine Covers.testBit hA ?_; decide)
    | (with_reducible refine Covers.trans ?_ hA; decide)
    | (refine fun _ => ?_; intros)
    | (extract_lets -underBinder +onlyGivenNames x; refine (fun (hx : Only A s₀ x) => ?_ : Only A s₀ x → _) ?_; (on_goal 2 => unfold x; clear x); (on_goal 1 => clear_value x; revert x; intro _ _))
    | (extract_lets -underBinder +onlyGivenNames x; unfold x; clear x)
    | (extract_lets -underBinder +onlyGivenNames x; revert x; intro _)
    | with_reducible refine State.publishSide_only ?_ ?_
    | with_reducible refine State.admitHeld_only ?_ ?_
    | with_reducible refine State.sideEntry_only ?_ ?_
    | with_reducible refine Only.foldl _ ?_ ?_
    | with_reducible refine Only.Fst.ite ?_ ?_
    | with_reducible refine Only.Fst.unpair (by assumption)
    | with_reducible refine Only.Fst.foldl _ ?_ ?_
    | split
    | with_reducible refine Only.Fst.of ?_
    | with_reducible refine Only.Fst.pair ?_
    | with_reducible refine Only.Fst.elim (by assumption) ?_
    | with_reducible refine Only.set_pri ?_ ?_
    | (refine fun _ => ?_))

theorem State.sideAtToken_only {A : Nat} {s₀ : State} {s : State} (hS : Only A s₀ s) (hA : Covers 0x80000000000 A) :
    Only A s₀ (State.sideAtToken s) := by
  unfold State.sideAtToken
  repeat' (first
    | with_reducible exact hS
    | with_reducible assumption
    | (with_reducible refine Covers.testBit hA ?_; decide)
    | (with_reducible refine Covers.trans ?_ hA; decide)
    | with_reducible refine Only.set_pri ?_ ?_)

end Sys2Proof.Machine
end

