-- ==== Sys2Proof/Laws/OnlyHbm.lean ====
section
/-! SUPPORT. What each operation of Machine/Hbm.lean may change. -/

set_option linter.unusedTactic false
set_option linter.unreachableTactic false
set_option linter.unusedVariables false

namespace Sys2Proof.Machine

theorem State.updHbm_only {A : Nat} {s₀ : State} {s : State} {f : Hbm → Hbm} (hS : Only A s₀ s) (hA : Covers 0x800000000000 A) :
    Only A s₀ (State.updHbm s f) := by
  unfold State.updHbm
  repeat' (first
    | with_reducible exact hS
    | with_reducible assumption
    | (with_reducible refine Covers.testBit hA ?_; decide)
    | (with_reducible refine Covers.trans ?_ hA; decide)
    | with_reducible refine Only.set_hbm ?_ ?_)

theorem State.hbmLose_only {A : Nat} {s₀ : State} {s : State} {k : Nat} (hS : Only A s₀ s) (hA : Covers 0xC000000000 A) :
    Only A s₀ (State.hbmLose s k) := by
  unfold State.hbmLose
  repeat' (first
    | with_reducible exact hS
    | with_reducible assumption
    | (with_reducible refine Covers.testBit hA ?_; decide)
    | (with_reducible refine Covers.trans ?_ hA; decide)
    | (refine fun _ => ?_; intros)
    | with_reducible refine Only.set_mem_poison ?_ ?_ ?_ ?_ ?_
    | exact Sparse.wf_upd _ _ _ _
    | exact Sparse.wf_set _ _ _ _
    | exact Sparse.wf_filter _ _ _
    | exact Sparse.wf_keep _ _ _
    | exact Sparse.wf_filter _ _ _ (by assumption)
    | exact Sparse.wf_keep _ _ _ (by assumption)
    | exact Sparse.wf_upd _ _ _ _ (by assumption))

theorem State.hbmInitComplete_only {A : Nat} {s₀ : State} {s : State} {k : Nat} (hS : Only A s₀ s) (hA : Covers 0x4000000200 A) :
    Only A s₀ (State.hbmInitComplete s k) := by
  unfold State.hbmInitComplete
  refine Only.ite hS ?_
  refine State.putStack_only (Only.set_mem hS (fun w => ?_) (hA.testBit (by decide))) (Covers.trans (by decide) hA)
  rw [Sparse.wf_iff] at w ⊢
  refine ⟨(w.1.map _ ?_).filter _, fun e he => by simpa using (List.mem_filter.mp he).2⟩
  intro a b hab
  dsimp only
  split <;> split <;> exact hab

theorem State.hbmToFault_only {A : Nat} {s₀ : State} {s : State} {k : Nat} (hS : Only A s₀ s) (hA : Covers 0x800000000000200 A) :
    Only A s₀ (State.hbmToFault s k) := by
  unfold State.hbmToFault
  repeat' (first
    | with_reducible exact hS
    | with_reducible assumption
    | (with_reducible refine Covers.testBit hA ?_; decide)
    | (with_reducible refine Covers.trans ?_ hA; decide)
    | with_reducible refine State.err_only ?_ ?_ ?_
    | with_reducible refine State.putStack_only ?_ ?_)

theorem State.hbmInitFail_only {A : Nat} {s₀ : State} {s : State} {k : Nat} (hS : Only A s₀ s) (hA : Covers 0x800000000000200 A) :
    Only A s₀ (State.hbmInitFail s k) := by
  unfold State.hbmInitFail
  repeat' (first
    | with_reducible exact hS
    | with_reducible assumption
    | (with_reducible refine Covers.testBit hA ?_; decide)
    | (with_reducible refine Covers.trans ?_ hA; decide)
    | with_reducible refine Only.ite ?_ ?_
    | with_reducible refine State.hbmToFault_only ?_ ?_)

theorem State.hbmFault_only {A : Nat} {s₀ : State} {s : State} {k : Nat} (hS : Only A s₀ s) (hA : Covers 0x800000000000200 A) :
    Only A s₀ (State.hbmFault s k) := by
  unfold State.hbmFault
  repeat' (first
    | with_reducible exact hS
    | with_reducible assumption
    | (with_reducible refine Covers.testBit hA ?_; decide)
    | (with_reducible refine Covers.trans ?_ hA; decide)
    | with_reducible refine Only.ite ?_ ?_
    | with_reducible refine State.hbmToFault_only ?_ ?_)

theorem State.hbmRestart_only {A : Nat} {s₀ : State} {s : State} (hS : Only A s₀ s) (hA : Covers 0xC000000200 A) :
    Only A s₀ (State.hbmRestart s) := by
  unfold State.hbmRestart
  repeat' (first
    | with_reducible exact hS
    | with_reducible assumption
    | (with_reducible refine Covers.testBit hA ?_; decide)
    | (with_reducible refine Covers.trans ?_ hA; decide)
    | (refine fun _ => ?_; intros)
    | with_reducible refine Only.ite ?_ ?_
    | with_reducible refine State.putStack_only ?_ ?_
    | with_reducible refine State.hbmLose_only ?_ ?_
    | with_reducible refine Only.foldl _ ?_ ?_
    | with_reducible refine Only.Fst.ite ?_ ?_
    | with_reducible refine Only.Fst.unpair (by assumption)
    | with_reducible refine Only.Fst.foldl _ ?_ ?_
    | with_reducible refine Only.Fst.of ?_
    | with_reducible refine Only.Fst.pair ?_
    | with_reducible refine Only.Fst.elim (by assumption) ?_)

theorem State.hbmSpoil_only {A : Nat} {s₀ : State} {s : State} {w : Nat} (hS : Only A s₀ s) (hA : Covers 0xD000000000 A) :
    Only A s₀ (State.hbmSpoil s w) := by
  unfold State.hbmSpoil
  repeat' (first
    | with_reducible exact hS
    | with_reducible assumption
    | (with_reducible refine Covers.testBit hA ?_; decide)
    | (with_reducible refine Covers.trans ?_ hA; decide)
    | (extract_lets -underBinder +onlyGivenNames x; refine (fun (hx : Only A s₀ x) => ?_ : Only A s₀ x → _) ?_; (on_goal 2 => unfold x; clear x); (on_goal 1 => clear_value x; revert x; intro _ _))
    | (extract_lets -underBinder +onlyGivenNames x; unfold x; clear x)
    | (extract_lets -underBinder +onlyGivenNames x; revert x; intro _)
    | with_reducible refine Only.ite ?_ ?_
    | with_reducible refine State.tookFree_only ?_ ?_
    | with_reducible refine State.setLeMem_only ?_ ?_
    | with_reducible refine Only.set_poison ?_ ?_ ?_
    | exact Sparse.wf_upd _ _ _ _
    | exact Sparse.wf_set _ _ _ _
    | exact Sparse.wf_filter _ _ _
    | exact Sparse.wf_keep _ _ _
    | exact Sparse.wf_filter _ _ _ (by assumption)
    | exact Sparse.wf_keep _ _ _ (by assumption)
    | exact Sparse.wf_upd _ _ _ _ (by assumption))

theorem State.hbmEcc_only {A : Nat} {s₀ : State} {s : State} {a : Nat} {o : Codeword} (hS : Only A s₀ s) (hA : Covers 0x180000D000000200 A) :
    Only A s₀ (State.hbmEcc s a o) := by
  unfold State.hbmEcc
  repeat' (first
    | with_reducible exact hS
    | with_reducible assumption
    | (with_reducible refine Covers.testBit hA ?_; decide)
    | (with_reducible refine Covers.trans ?_ hA; decide)
    | (extract_lets -underBinder +onlyGivenNames x; refine (fun (hx : Only A s₀ x) => ?_ : Only A s₀ x → _) ?_; (on_goal 2 => unfold x; clear x); (on_goal 1 => clear_value x; revert x; intro _ _))
    | (extract_lets -underBinder +onlyGivenNames x; unfold x; clear x)
    | (extract_lets -underBinder +onlyGivenNames x; revert x; intro _)
    | with_reducible refine State.inc_only ?_ ?_ ?_
    | with_reducible refine State.err_only ?_ ?_ ?_
    | with_reducible refine State.hbmSpoil_only ?_ ?_
    | split
    | (refine fun _ => ?_))

theorem State.hbmRead_only {A : Nat} {s₀ : State} {s : State} {a : Nat} {n : Nat} {ecc : EccMap} (hS : Only A s₀ s) (hA : Covers 0x180000D000000200 A) :
    Only A s₀ (State.hbmRead s a n ecc) := by
  unfold State.hbmRead
  repeat' (first
    | with_reducible exact hS
    | with_reducible assumption
    | (with_reducible refine Covers.testBit hA ?_; decide)
    | (with_reducible refine Covers.trans ?_ hA; decide)
    | (refine fun _ => ?_; intros)
    | with_reducible refine Only.ite ?_ ?_
    | with_reducible refine State.hbmEcc_only ?_ ?_
    | with_reducible refine Only.foldl _ ?_ ?_
    | with_reducible refine Only.Fst.ite ?_ ?_
    | with_reducible refine Only.Fst.unpair (by assumption)
    | with_reducible refine Only.Fst.foldl _ ?_ ?_
    | with_reducible refine Only.Fst.of ?_
    | with_reducible refine Only.Fst.pair ?_
    | with_reducible refine Only.Fst.elim (by assumption) ?_)

theorem State.hbmReturned_only {A : Nat} {s₀ : State} {s : State} {a : Nat} {n : Nat} (hS : Only A s₀ s) (hA : Covers 0x1000000000 A) :
    Only.Fst A s₀ (State.hbmReturned s a n) := by
  unfold State.hbmReturned
  repeat' (first
    | with_reducible exact hS
    | with_reducible assumption
    | (with_reducible refine Covers.testBit hA ?_; decide)
    | (with_reducible refine Covers.trans ?_ hA; decide)
    | (refine fun _ => ?_; intros)
    | (extract_lets -underBinder +onlyGivenNames x; refine (fun (hx : Only A s₀ x) => ?_ : Only A s₀ x → _) ?_; (on_goal 2 => unfold x; clear x); (on_goal 1 => clear_value x; revert x; intro _ _))
    | (extract_lets -underBinder +onlyGivenNames x; unfold x; clear x)
    | (extract_lets -underBinder +onlyGivenNames x; revert x; intro _)
    | with_reducible refine Only.ite ?_ ?_
    | with_reducible refine State.tookFree_only ?_ ?_
    | with_reducible refine Only.Fst.ite ?_ ?_
    | with_reducible refine Only.Fst.unpair (by assumption)
    | with_reducible refine Only.Fst.of ?_
    | with_reducible refine Only.Fst.pair ?_
    | with_reducible refine Only.Fst.elim (by assumption) ?_)

theorem State.patrolScrub_only {A : Nat} {s₀ : State} {s : State} {a : Nat} {o : Codeword} (hS : Only A s₀ s) (hA : Covers 0x180000D000000200 A) :
    Only A s₀ (State.patrolScrub s a o) := by
  unfold State.patrolScrub
  repeat' (first
    | with_reducible exact hS
    | with_reducible assumption
    | (with_reducible refine Covers.testBit hA ?_; decide)
    | (with_reducible refine Covers.trans ?_ hA; decide)
    | with_reducible refine Only.ite ?_ ?_
    | with_reducible refine State.hbmEcc_only ?_ ?_)

theorem State.publishPipe_only {A : Nat} {s₀ : State} {s : State} (hS : Only A s₀ s) (hA : Covers 0x200 A) :
    Only A s₀ (State.publishPipe s) := by
  unfold State.publishPipe
  repeat' (first
    | with_reducible exact hS
    | with_reducible assumption
    | (with_reducible refine Covers.testBit hA ?_; decide)
    | (with_reducible refine Covers.trans ?_ hA; decide)
    | (extract_lets -underBinder +onlyGivenNames x; refine (fun (hx : Only A s₀ x) => ?_ : Only A s₀ x → _) ?_; (on_goal 2 => unfold x; clear x); (on_goal 1 => clear_value x; revert x; intro _ _))
    | (extract_lets -underBinder +onlyGivenNames x; unfold x; clear x)
    | (extract_lets -underBinder +onlyGivenNames x; revert x; intro _)
    | with_reducible refine Only.ite ?_ ?_
    | with_reducible refine State.put_only ?_ ?_)

theorem State.writePipeCtrl_only {A : Nat} {s₀ : State} {s : State} {m : Nat} {v : Nat} (hS : Only A s₀ s) (hA : Covers 0x800800000000200 A) :
    Only A s₀ (State.writePipeCtrl s m v) := by
  unfold State.writePipeCtrl
  repeat' (first
    | with_reducible exact hS
    | with_reducible assumption
    | (with_reducible refine Covers.testBit hA ?_; decide)
    | (with_reducible refine Covers.trans ?_ hA; decide)
    | (with_reducible refine Covers.trans (Covers.trans (pageMask_all _) ?_) hA; decide)
    | (refine fun _ => ?_; intros)
    | (extract_lets -underBinder +onlyGivenNames x; refine (fun (hx : Only A s₀ x) => ?_ : Only A s₀ x → _) ?_; (on_goal 2 => unfold x; clear x); (on_goal 1 => clear_value x; revert x; intro _ _))
    | (extract_lets -underBinder +onlyGivenNames x; unfold x; clear x)
    | (extract_lets -underBinder +onlyGivenNames x; revert x; intro _)
    | with_reducible refine Only.ite ?_ ?_
    | with_reducible refine State.err_only ?_ ?_ ?_
    | with_reducible refine State.wrReg_only ?_ ?_
    | with_reducible refine State.updHbm_only ?_ ?_)

theorem State.pipePeriods_only {A : Nat} {s₀ : State} {s : State} (hS : Only A s₀ s) (hA : Covers 0x800000000000200 A) :
    Only A s₀ (State.pipePeriods s) := by
  unfold State.pipePeriods
  repeat' (first
    | with_reducible exact hS
    | with_reducible assumption
    | (with_reducible refine Covers.testBit hA ?_; decide)
    | (with_reducible refine Covers.trans ?_ hA; decide)
    | (extract_lets -underBinder +onlyGivenNames x; refine (fun (hx : Only A s₀ x) => ?_ : Only A s₀ x → _) ?_; (on_goal 2 => unfold x; clear x); (on_goal 1 => clear_value x; revert x; intro _ _))
    | (extract_lets -underBinder +onlyGivenNames x; unfold x; clear x)
    | (extract_lets -underBinder +onlyGivenNames x; revert x; intro _)
    | with_reducible refine Only.ite ?_ ?_
    | with_reducible refine State.err_only ?_ ?_ ?_
    | with_reducible refine State.publishPipe_only ?_ ?_)

theorem State.pipelineWrite_only {A : Nat} {s₀ : State} {s : State} {inTime : Bool} (hS : Only A s₀ s) (hA : Covers 0x180088C000000200 A) :
    Only A s₀ (State.pipelineWrite s inTime) := by
  unfold State.pipelineWrite
  repeat' (first
    | with_reducible exact hS
    | with_reducible assumption
    | (with_reducible refine Covers.testBit hA ?_; decide)
    | (with_reducible refine Covers.trans ?_ hA; decide)
    | (refine fun _ => ?_; intros)
    | (extract_lets -underBinder +onlyGivenNames x; refine (fun (hx : Only A s₀ x) => ?_ : Only A s₀ x → _) ?_; (on_goal 2 => unfold x; clear x); (on_goal 1 => clear_value x; revert x; intro _ _))
    | (extract_lets -underBinder +onlyGivenNames x; unfold x; clear x)
    | (extract_lets -underBinder +onlyGivenNames x; revert x; intro _)
    | with_reducible refine Only.ite ?_ ?_
    | with_reducible refine State.put_only ?_ ?_
    | with_reducible refine State.inc_only ?_ ?_ ?_
    | with_reducible refine State.err_only ?_ ?_ ?_
    | with_reducible refine State.writeMem_only ?_ ?_
    | with_reducible refine State.updHbm_only ?_ ?_
    | split
    | with_reducible refine Only.set_pri ?_ ?_
    | (refine fun _ => ?_))

theorem State.ringWriteErr_only {A : Nat} {s₀ : State} {s : State} (hS : Only A s₀ s) (hA : Covers 0x800000000000200 A) :
    Only A s₀ (State.ringWriteErr s) := by
  unfold State.ringWriteErr
  repeat' (first
    | with_reducible exact hS
    | with_reducible assumption
    | (with_reducible refine Covers.testBit hA ?_; decide)
    | (with_reducible refine Covers.trans ?_ hA; decide)
    | with_reducible refine State.err_only ?_ ?_ ?_)

theorem State.tagRead_only {A : Nat} {s₀ : State} {s : State} {serial : Nat} {ecc : EccMap} (hS : Only A s₀ s) (hA : Covers 0x180000D000000200 A) :
    Only A s₀ (State.tagRead s serial ecc) := by
  unfold State.tagRead
  repeat' (first
    | with_reducible exact hS
    | with_reducible assumption
    | (with_reducible refine Covers.testBit hA ?_; decide)
    | (with_reducible refine Covers.trans ?_ hA; decide)
    | with_reducible refine State.hbmRead_only ?_ ?_)

theorem State.reloadData_only {A : Nat} {s₀ : State} {s : State} {i : Nat} {r : Reload} {ecc : EccMap} (hS : Only A s₀ s) (hA : Covers 0x180000D000000200 A) :
    Only.Fst A s₀ (State.reloadData s i r ecc) := by
  unfold State.reloadData
  repeat' (first
    | with_reducible exact hS
    | with_reducible assumption
    | (with_reducible refine Covers.testBit hA ?_; decide)
    | (with_reducible refine Covers.trans ?_ hA; decide)
    | (extract_lets -underBinder +onlyGivenNames x; refine (fun (hx : Only A s₀ x) => ?_ : Only A s₀ x → _) ?_; (on_goal 2 => unfold x; clear x); (on_goal 1 => clear_value x; revert x; intro _ _))
    | (extract_lets -underBinder +onlyGivenNames x; unfold x; clear x)
    | (extract_lets -underBinder +onlyGivenNames x; revert x; intro _)
    | with_reducible refine Only.ite ?_ ?_
    | with_reducible refine State.hbmRead_only ?_ ?_
    | with_reducible refine Only.Fst.ite ?_ ?_
    | with_reducible refine Only.Fst.unpair (by assumption)
    | with_reducible refine Only.Fst.of ?_
    | with_reducible refine Only.Fst.pair ?_
    | with_reducible refine Only.Fst.elim (by assumption) ?_)

theorem State.reloadFetchError_only {A : Nat} {s₀ : State} {s : State} {i : Nat} (hS : Only A s₀ s) (hA : Covers 0x800100000000020 A) :
    Only A s₀ (State.reloadFetchError s i) := by
  unfold State.reloadFetchError
  repeat' (first
    | with_reducible exact hS
    | with_reducible assumption
    | (with_reducible refine Covers.testBit hA ?_; decide)
    | (with_reducible refine Covers.trans ?_ hA; decide)
    | (refine fun _ => ?_; intros)
    | (extract_lets -underBinder +onlyGivenNames x; refine (fun (hx : Only A s₀ x) => ?_ : Only A s₀ x → _) ?_; (on_goal 2 => unfold x; clear x); (on_goal 1 => clear_value x; revert x; intro _ _))
    | (extract_lets -underBinder +onlyGivenNames x; unfold x; clear x)
    | (extract_lets -underBinder +onlyGivenNames x; revert x; intro _)
    | with_reducible refine State.put_only ?_ ?_
    | with_reducible refine State.updIsl_only ?_ ?_
    | with_reducible refine State.islErr_only ?_ ?_ ?_
    | split
    | (refine fun _ => ?_))

theorem State.reloadPlane_only {A : Nat} {s₀ : State} {s : State} {i : Nat} {ecc : EccMap} (hS : Only A s₀ s) (hA : Covers 0x180018D000000220 A) :
    Only A s₀ (State.reloadPlane s i ecc) := by
  unfold State.reloadPlane
  repeat' (first
    | with_reducible exact hS
    | with_reducible assumption
    | (with_reducible refine Covers.testBit hA ?_; decide)
    | (with_reducible refine Covers.trans ?_ hA; decide)
    | (refine fun _ => ?_; intros)
    | (extract_lets -underBinder +onlyGivenNames x; refine (fun (hx : Only A s₀ x) => ?_ : Only A s₀ x → _) ?_; (on_goal 2 => unfold x; clear x); (on_goal 1 => clear_value x; revert x; intro _ _))
    | (extract_lets -underBinder +onlyGivenNames x; unfold x; clear x)
    | (extract_lets -underBinder +onlyGivenNames x; revert x; intro _)
    | with_reducible refine State.put_only ?_ ?_
    | with_reducible refine State.setPlane_only ?_ ?_
    | with_reducible refine State.updIsl_only ?_ ?_
    | with_reducible refine State.reloadData_only ?_ ?_
    | with_reducible refine State.reloadFetchError_only ?_ ?_
    | with_reducible refine Only.Fst.ite ?_ ?_
    | with_reducible refine Only.Fst.unpair (by assumption)
    | split
    | with_reducible refine Only.Fst.of ?_
    | with_reducible refine Only.Fst.pair ?_
    | with_reducible refine Only.Fst.elim (by assumption) ?_
    | (refine fun _ => ?_))

theorem State.reloadAtBarrier_only {A : Nat} {s₀ : State} {s : State} {i : Nat} {ecc : EccMap} (hS : Only A s₀ s) (hA : Covers 0x180018D000000220 A) :
    Only A s₀ (State.reloadAtBarrier s i ecc) := by
  unfold State.reloadAtBarrier
  repeat' (first
    | with_reducible exact hS
    | with_reducible assumption
    | (with_reducible refine Covers.testBit hA ?_; decide)
    | (with_reducible refine Covers.trans ?_ hA; decide)
    | (refine fun _ => ?_; intros)
    | with_reducible refine Only.ite ?_ ?_
    | with_reducible refine State.updIsl_only ?_ ?_
    | with_reducible refine State.reloadPlane_only ?_ ?_
    | with_reducible refine Only.foldl _ ?_ ?_
    | with_reducible refine Only.Fst.ite ?_ ?_
    | with_reducible refine Only.Fst.unpair (by assumption)
    | with_reducible refine Only.Fst.foldl _ ?_ ?_
    | split
    | with_reducible refine Only.Fst.of ?_
    | with_reducible refine Only.Fst.pair ?_
    | with_reducible refine Only.Fst.elim (by assumption) ?_
    | (refine fun _ => ?_))

theorem State.reloadDone_only {A : Nat} {s₀ : State} {s : State} {i : Nat} (hS : Only A s₀ s) (hA : Covers 0x100000000020 A) :
    Only A s₀ (State.reloadDone s i) := by
  unfold State.reloadDone
  repeat' (first
    | with_reducible exact hS
    | with_reducible assumption
    | (with_reducible refine Covers.testBit hA ?_; decide)
    | (with_reducible refine Covers.trans ?_ hA; decide)
    | (refine fun _ => ?_; intros)
    | (extract_lets -underBinder +onlyGivenNames x; refine (fun (hx : Only A s₀ x) => ?_ : Only A s₀ x → _) ?_; (on_goal 2 => unfold x; clear x); (on_goal 1 => clear_value x; revert x; intro _ _))
    | (extract_lets -underBinder +onlyGivenNames x; unfold x; clear x)
    | (extract_lets -underBinder +onlyGivenNames x; revert x; intro _)
    | with_reducible refine State.put_only ?_ ?_
    | with_reducible refine State.updIsl_only ?_ ?_
    | split
    | (refine fun _ => ?_))

theorem State.reloadComplete_only {A : Nat} {s₀ : State} {s : State} {i : Nat} {ecc : EccMap} (hS : Only A s₀ s) (hA : Covers 0x180018D000000220 A) :
    Only A s₀ (State.reloadComplete s i ecc) := by
  unfold State.reloadComplete
  repeat' (first
    | with_reducible exact hS
    | with_reducible assumption
    | (with_reducible refine Covers.testBit hA ?_; decide)
    | (with_reducible refine Covers.trans ?_ hA; decide)
    | (extract_lets -underBinder +onlyGivenNames x; refine (fun (hx : Only A s₀ x) => ?_ : Only A s₀ x → _) ?_; (on_goal 2 => unfold x; clear x); (on_goal 1 => clear_value x; revert x; intro _ _))
    | (extract_lets -underBinder +onlyGivenNames x; unfold x; clear x)
    | (extract_lets -underBinder +onlyGivenNames x; revert x; intro _)
    | with_reducible refine Only.ite ?_ ?_
    | with_reducible refine State.reloadPlane_only ?_ ?_
    | with_reducible refine State.reloadDone_only ?_ ?_
    | split
    | (refine fun _ => ?_))

theorem State.updXfer_only {A : Nat} {s₀ : State} {s : State} {t : Nat} {f : Xfer → Xfer} (hS : Only A s₀ s) (hA : Covers 0x800000000000 A) :
    Only A s₀ (State.updXfer s t f) := by
  unfold State.updXfer
  repeat' (first
    | with_reducible exact hS
    | with_reducible assumption
    | (with_reducible refine Covers.testBit hA ?_; decide)
    | (with_reducible refine Covers.trans ?_ hA; decide)
    | (refine fun _ => ?_; intros)
    | with_reducible refine State.updHbm_only ?_ ?_)

theorem State.xferRefuse_only {A : Nat} {s₀ : State} {s : State} {t : Nat} (hS : Only A s₀ s) (hA : Covers 0x800000000000200 A) :
    Only A s₀ (State.xferRefuse s t) := by
  unfold State.xferRefuse
  repeat' (first
    | with_reducible exact hS
    | with_reducible assumption
    | (with_reducible refine Covers.testBit hA ?_; decide)
    | (with_reducible refine Covers.trans ?_ hA; decide)
    | with_reducible refine State.err_only ?_ ?_ ?_)

theorem State.sidePlane_only {A : Nat} {s₀ : State} {s : State} {t : Nat} {plane : Nat} {v : Nat} (hS : Only A s₀ s) (hA : Covers 0x80000000010 A) :
    Only A s₀ (State.sidePlane s t plane v) := by
  unfold State.sidePlane
  repeat' (first
    | with_reducible exact hS
    | with_reducible assumption
    | (with_reducible refine Covers.testBit hA ?_; decide)
    | (with_reducible refine Covers.trans ?_ hA; decide)
    | with_reducible refine State.sidePiece_only ?_ ?_)

theorem State.xferBlock_only {A : Nat} {s₀ : State} {s : State} {ecc : EccMap} {a : Nat} (hS : Only A s₀ s) (hA : Covers 0x180000D000000200 A) :
    Only.Fst A s₀ (State.xferBlock s ecc a) := by
  unfold State.xferBlock
  repeat' (first
    | with_reducible exact hS
    | with_reducible assumption
    | (with_reducible refine Covers.testBit hA ?_; decide)
    | (with_reducible refine Covers.trans ?_ hA; decide)
    | (extract_lets -underBinder +onlyGivenNames x; refine (fun (hx : Only A s₀ x) => ?_ : Only A s₀ x → _) ?_; (on_goal 2 => unfold x; clear x); (on_goal 1 => clear_value x; revert x; intro _ _))
    | (extract_lets -underBinder +onlyGivenNames x; unfold x; clear x)
    | (extract_lets -underBinder +onlyGivenNames x; revert x; intro _)
    | with_reducible refine Only.ite ?_ ?_
    | with_reducible refine State.tookFree_only ?_ ?_
    | with_reducible refine State.hbmRead_only ?_ ?_
    | with_reducible refine State.hbmReturned_only ?_ ?_
    | with_reducible refine Only.Fst.ite ?_ ?_
    | with_reducible refine Only.Fst.unpair (by assumption)
    | split
    | with_reducible refine Only.Fst.of ?_
    | with_reducible refine Only.Fst.pair ?_
    | with_reducible refine Only.Fst.elim (by assumption) ?_
    | (refine fun _ => ?_))

theorem State.xferStart_only {A : Nat} {s₀ : State} {s : State} {t : Nat} {ecc : EccMap} (hS : Only A s₀ s) (hA : Covers 0x180088D000000210 A) :
    Only A s₀ (State.xferStart s t ecc) := by
  unfold State.xferStart
  repeat' (first
    | with_reducible exact hS
    | with_reducible assumption
    | (with_reducible refine Covers.testBit hA ?_; decide)
    | (with_reducible refine Covers.trans ?_ hA; decide)
    | (refine fun _ => ?_; intros)
    | (extract_lets -underBinder +onlyGivenNames x; refine (fun (hx : Only A s₀ x) => ?_ : Only A s₀ x → _) ?_; (on_goal 2 => unfold x; clear x); (on_goal 1 => clear_value x; revert x; intro _ _))
    | (extract_lets -underBinder +onlyGivenNames x; unfold x; clear x)
    | (extract_lets -underBinder +onlyGivenNames x; revert x; intro _)
    | with_reducible refine Only.ite ?_ ?_
    | with_reducible refine State.put_only ?_ ?_
    | with_reducible refine State.updXfer_only ?_ ?_
    | with_reducible refine State.xferRefuse_only ?_ ?_
    | with_reducible refine State.sidePlane_only ?_ ?_
    | with_reducible refine State.xferBlock_only ?_ ?_
    | with_reducible refine Only.foldl _ ?_ ?_
    | with_reducible refine Only.Fst.ite ?_ ?_
    | with_reducible refine Only.Fst.unpair (by assumption)
    | with_reducible refine Only.Fst.foldl _ ?_ ?_
    | split
    | with_reducible refine Only.Fst.of ?_
    | with_reducible refine Only.Fst.pair ?_
    | with_reducible refine Only.Fst.elim (by assumption) ?_)

theorem State.xferWithdraw_only {A : Nat} {s₀ : State} {s : State} {t : Nat} (hS : Only A s₀ s) (hA : Covers 0x80000000010 A) :
    Only A s₀ (State.xferWithdraw s t) := by
  unfold State.xferWithdraw
  repeat' (first
    | with_reducible exact hS
    | with_reducible assumption
    | (with_reducible refine Covers.testBit hA ?_; decide)
    | (with_reducible refine Covers.trans ?_ hA; decide)
    | (refine fun _ => ?_; intros)
    | (extract_lets -underBinder +onlyGivenNames x; refine (fun (hx : Only A s₀ x) => ?_ : Only A s₀ x → _) ?_; (on_goal 2 => unfold x; clear x); (on_goal 1 => clear_value x; revert x; intro _ _))
    | (extract_lets -underBinder +onlyGivenNames x; unfold x; clear x)
    | (extract_lets -underBinder +onlyGivenNames x; revert x; intro _)
    | with_reducible refine State.publishSide_only ?_ ?_
    | with_reducible refine State.admitHeld_only ?_ ?_
    | exact Only.OfRes.trap
    | exact Only.OfRes.held
    | with_reducible refine Only.OfRes.acted ?_
    | with_reducible refine Only.OfRes.ite ?_ ?_
    | with_reducible refine Only.OfRes.elim (by assumption) ?_
    | with_reducible refine Only.set_pri ?_ ?_)

theorem State.xferAbort_only {A : Nat} {s₀ : State} {s : State} {t : Nat} (hS : Only A s₀ s) (hA : Covers 0x880000000210 A) :
    Only A s₀ (State.xferAbort s t) := by
  unfold State.xferAbort
  repeat' (first
    | with_reducible exact hS
    | with_reducible assumption
    | (with_reducible refine Covers.testBit hA ?_; decide)
    | (with_reducible refine Covers.trans ?_ hA; decide)
    | (refine fun _ => ?_; intros)
    | (extract_lets -underBinder +onlyGivenNames x; refine (fun (hx : Only A s₀ x) => ?_ : Only A s₀ x → _) ?_; (on_goal 2 => unfold x; clear x); (on_goal 1 => clear_value x; revert x; intro _ _))
    | (extract_lets -underBinder +onlyGivenNames x; unfold x; clear x)
    | (extract_lets -underBinder +onlyGivenNames x; revert x; intro _)
    | with_reducible refine Only.ite ?_ ?_
    | with_reducible refine State.put_only ?_ ?_
    | with_reducible refine State.updXfer_only ?_ ?_
    | with_reducible refine State.xferWithdraw_only ?_ ?_)

theorem State.writeXfer_only {A : Nat} {s₀ : State} {s : State} {t : Nat} {off : Nat} {m : Nat} {v : Nat} (hS : Only A s₀ s) (hA : Covers 0x180088D000000210 A) :
    Only A s₀ (State.writeXfer s t off m v) := by
  unfold State.writeXfer
  repeat' (first
    | with_reducible exact hS
    | with_reducible assumption
    | (with_reducible refine Covers.testBit hA ?_; decide)
    | (with_reducible refine Covers.trans ?_ hA; decide)
    | (with_reducible refine Covers.trans (Covers.trans (pageMask_all _) ?_) hA; decide)
    | (extract_lets -underBinder +onlyGivenNames x; refine (fun (hx : Only A s₀ x) => ?_ : Only A s₀ x → _) ?_; (on_goal 2 => unfold x; clear x); (on_goal 1 => clear_value x; revert x; intro _ _))
    | (extract_lets -underBinder +onlyGivenNames x; unfold x; clear x)
    | (extract_lets -underBinder +onlyGivenNames x; revert x; intro _)
    | with_reducible refine Only.ite ?_ ?_
    | with_reducible refine State.wrReg_only ?_ ?_
    | with_reducible refine State.xferRefuse_only ?_ ?_
    | with_reducible refine State.xferStart_only ?_ ?_
    | with_reducible refine State.xferAbort_only ?_ ?_)

theorem State.recallFill_only {A : Nat} {s₀ : State} {s : State} {t : Nat} {dst : Nat} {a : Nat} {n : Nat} {wide : Bool} (hS : Only A s₀ s) (hA : Covers 0x80000000010 A) :
    Only A s₀ (State.recallFill s t dst a n wide) := by
  unfold State.recallFill
  repeat' (first
    | with_reducible exact hS
    | with_reducible assumption
    | (with_reducible refine Covers.testBit hA ?_; decide)
    | (with_reducible refine Covers.trans ?_ hA; decide)
    | with_reducible refine Only.ite ?_ ?_
    | with_reducible refine State.sidePlane_only ?_ ?_)

theorem State.recallTagged_only {A : Nat} {s₀ : State} {s : State} {t : Nat} {serial : Nat} {a : Nat} {len : Nat} {ecc : EccMap} {tag : Nat × Nat} (hS : Only A s₀ s) (hA : Covers 0x180088D000000210 A) :
    Only A s₀ (State.recallTagged s t serial a len ecc tag) := by
  unfold State.recallTagged
  repeat' (first
    | with_reducible exact hS
    | with_reducible assumption
    | (with_reducible refine Covers.testBit hA ?_; decide)
    | (with_reducible refine Covers.trans ?_ hA; decide)
    | (refine fun _ => ?_; intros)
    | (extract_lets -underBinder +onlyGivenNames x; refine (fun (hx : Only A s₀ x) => ?_ : Only A s₀ x → _) ?_; (on_goal 2 => unfold x; clear x); (on_goal 1 => clear_value x; revert x; intro _ _))
    | (extract_lets -underBinder +onlyGivenNames x; unfold x; clear x)
    | (extract_lets -underBinder +onlyGivenNames x; revert x; intro _)
    | with_reducible refine Only.ite ?_ ?_
    | with_reducible refine State.put_only ?_ ?_
    | with_reducible refine State.inc_only ?_ ?_ ?_
    | with_reducible refine State.hbmRead_only ?_ ?_
    | with_reducible refine State.updXfer_only ?_ ?_
    | with_reducible refine State.recallFill_only ?_ ?_)

theorem State.recallHeld_only {A : Nat} {s₀ : State} {s : State} {t : Nat} {serial : Nat} {ecc : EccMap} {v0 : Option (Nat × Nat)} (hS : Only A s₀ s) (hA : Covers 0x180088D000000210 A) :
    Only A s₀ (State.recallHeld s t serial ecc v0) := by
  unfold State.recallHeld
  repeat' (first
    | with_reducible exact hS
    | with_reducible assumption
    | (with_reducible refine Covers.testBit hA ?_; decide)
    | (with_reducible refine Covers.trans ?_ hA; decide)
    | (refine fun _ => ?_; intros)
    | with_reducible refine State.put_only ?_ ?_
    | with_reducible refine State.inc_only ?_ ?_ ?_
    | with_reducible refine State.recallTagged_only ?_ ?_
    | with_reducible refine Only.Fst.ite ?_ ?_
    | with_reducible refine Only.Fst.unpair (by assumption)
    | split
    | with_reducible refine Only.Fst.of ?_
    | with_reducible refine Only.Fst.pair ?_
    | with_reducible refine Only.Fst.elim (by assumption) ?_)

theorem State.recallShown_only {A : Nat} {s₀ : State} {s : State} {t : Nat} {ecc : EccMap} {v0 : Option Entered} (hS : Only A s₀ s) (hA : Covers 0x180088D000000210 A) :
    Only A s₀ (State.recallShown s t ecc v0) := by
  unfold State.recallShown
  repeat' (first
    | with_reducible exact hS
    | with_reducible assumption
    | (with_reducible refine Covers.testBit hA ?_; decide)
    | (with_reducible refine Covers.trans ?_ hA; decide)
    | (refine fun _ => ?_; intros)
    | (extract_lets -underBinder +onlyGivenNames x; refine (fun (hx : Only A s₀ x) => ?_ : Only A s₀ x → _) ?_; (on_goal 2 => unfold x; clear x); (on_goal 1 => clear_value x; revert x; intro _ _))
    | (extract_lets -underBinder +onlyGivenNames x; unfold x; clear x)
    | (extract_lets -underBinder +onlyGivenNames x; revert x; intro _)
    | with_reducible refine State.tagRead_only ?_ ?_
    | with_reducible refine State.recallHeld_only ?_ ?_
    | with_reducible refine Only.Fst.ite ?_ ?_
    | with_reducible refine Only.Fst.unpair (by assumption)
    | split
    | with_reducible refine Only.Fst.of ?_
    | with_reducible refine Only.Fst.pair ?_
    | with_reducible refine Only.Fst.elim (by assumption) ?_)

theorem State.recallOne_only {A : Nat} {s₀ : State} {s : State} {ecc : EccMap} {t : Nat} (hS : Only A s₀ s) (hA : Covers 0x180088D000000210 A) :
    Only A s₀ (State.recallOne s ecc t) := by
  unfold State.recallOne
  repeat' (first
    | with_reducible exact hS
    | with_reducible assumption
    | (with_reducible refine Covers.testBit hA ?_; decide)
    | (with_reducible refine Covers.trans ?_ hA; decide)
    | with_reducible refine Only.ite ?_ ?_
    | with_reducible refine State.put_only ?_ ?_
    | with_reducible refine State.recallShown_only ?_ ?_)

theorem State.recallLeft_only {A : Nat} {s₀ : State} {s : State} {t : Nat} (hS : Only A s₀ s) (hA : Covers 0x1000880000000210 A) :
    Only A s₀ (State.recallLeft s t) := by
  unfold State.recallLeft
  repeat' (first
    | with_reducible exact hS
    | with_reducible assumption
    | (with_reducible refine Covers.testBit hA ?_; decide)
    | (with_reducible refine Covers.trans ?_ hA; decide)
    | (refine fun _ => ?_; intros)
    | (extract_lets -underBinder +onlyGivenNames x; refine (fun (hx : Only A s₀ x) => ?_ : Only A s₀ x → _) ?_; (on_goal 2 => unfold x; clear x); (on_goal 1 => clear_value x; revert x; intro _ _))
    | (extract_lets -underBinder +onlyGivenNames x; unfold x; clear x)
    | (extract_lets -underBinder +onlyGivenNames x; revert x; intro _)
    | with_reducible refine Only.ite ?_ ?_
    | with_reducible refine State.put_only ?_ ?_
    | with_reducible refine State.inc_only ?_ ?_ ?_
    | with_reducible refine State.updXfer_only ?_ ?_
    | with_reducible refine State.xferWithdraw_only ?_ ?_)

theorem State.recallAtBarrier_only {A : Nat} {s₀ : State} {s : State} {ecc : EccMap} (hS : Only A s₀ s) (hA : Covers 0x180088D000000210 A) :
    Only A s₀ (State.recallAtBarrier s ecc) := by
  unfold State.recallAtBarrier
  repeat' (first
    | with_reducible exact hS
    | with_reducible assumption
    | (with_reducible refine Covers.testBit hA ?_; decide)
    | (with_reducible refine Covers.trans ?_ hA; decide)
    | (refine fun _ => ?_; intros)
    | with_reducible refine State.recallOne_only ?_ ?_
    | with_reducible refine State.recallLeft_only ?_ ?_
    | with_reducible refine Only.foldl _ ?_ ?_
    | with_reducible refine Only.Fst.ite ?_ ?_
    | with_reducible refine Only.Fst.unpair (by assumption)
    | with_reducible refine Only.Fst.foldl _ ?_ ?_
    | with_reducible refine Only.Fst.of ?_
    | with_reducible refine Only.Fst.pair ?_
    | with_reducible refine Only.Fst.elim (by assumption) ?_)

theorem State.xferLanded_only {A : Nat} {s₀ : State} {s : State} {t : Nat} (hS : Only A s₀ s) (hA : Covers 0x1000880000000210 A) :
    Only A s₀ (State.xferLanded s t) := by
  unfold State.xferLanded
  repeat' (first
    | with_reducible exact hS
    | with_reducible assumption
    | (with_reducible refine Covers.testBit hA ?_; decide)
    | (with_reducible refine Covers.trans ?_ hA; decide)
    | (refine fun _ => ?_; intros)
    | (extract_lets -underBinder +onlyGivenNames x; refine (fun (hx : Only A s₀ x) => ?_ : Only A s₀ x → _) ?_; (on_goal 2 => unfold x; clear x); (on_goal 1 => clear_value x; revert x; intro _ _))
    | (extract_lets -underBinder +onlyGivenNames x; unfold x; clear x)
    | (extract_lets -underBinder +onlyGivenNames x; revert x; intro _)
    | with_reducible refine Only.ite ?_ ?_
    | with_reducible refine State.put_only ?_ ?_
    | with_reducible refine State.updXfer_only ?_ ?_
    | with_reducible refine State.recallLeft_only ?_ ?_
    | with_reducible refine Only.foldl _ ?_ ?_
    | with_reducible refine Only.Fst.ite ?_ ?_
    | with_reducible refine Only.Fst.unpair (by assumption)
    | with_reducible refine Only.Fst.foldl _ ?_ ?_
    | with_reducible refine Only.Fst.of ?_
    | with_reducible refine Only.Fst.pair ?_
    | with_reducible refine Only.Fst.elim (by assumption) ?_
    | with_reducible refine Only.set_pri ?_ ?_)

theorem State.sideAccesses_only {A : Nat} {s₀ : State} {s : State} (hS : Only A s₀ s) (hA : Covers 0x1800984000000270 A) :
    Only A s₀ (State.sideAccesses s) := by
  unfold State.sideAccesses
  repeat' (first
    | with_reducible exact hS
    | with_reducible assumption
    | (with_reducible refine Covers.testBit hA ?_; decide)
    | (with_reducible refine Covers.trans ?_ hA; decide)
    | (refine fun _ => ?_; intros)
    | with_reducible refine State.sidePerform_only ?_ ?_
    | with_reducible refine State.xferLanded_only ?_ ?_
    | with_reducible refine Only.foldl _ ?_ ?_
    | with_reducible refine Only.Fst.ite ?_ ?_
    | with_reducible refine Only.Fst.unpair (by assumption)
    | with_reducible refine Only.Fst.foldl _ ?_ ?_
    | with_reducible refine Only.Fst.of ?_
    | with_reducible refine Only.Fst.pair ?_
    | with_reducible refine Only.Fst.elim (by assumption) ?_)

theorem State.pipeAtBarrier_only {A : Nat} {s₀ : State} {s : State} (hS : Only A s₀ s) (hA : Covers 0x800000000200 A) :
    Only.Fst A s₀ (State.pipeAtBarrier s) := by
  unfold State.pipeAtBarrier
  repeat' (first
    | with_reducible exact hS
    | with_reducible assumption
    | (with_reducible refine Covers.testBit hA ?_; decide)
    | (with_reducible refine Covers.trans ?_ hA; decide)
    | (refine fun _ => ?_; intros)
    | with_reducible refine Only.ite ?_ ?_
    | with_reducible refine State.updHbm_only ?_ ?_
    | with_reducible refine State.publishPipe_only ?_ ?_
    | with_reducible refine Only.Fst.ite ?_ ?_
    | with_reducible refine Only.Fst.unpair (by assumption)
    | with_reducible refine Only.Fst.of ?_
    | with_reducible refine Only.Fst.pair ?_
    | with_reducible refine Only.Fst.elim (by assumption) ?_)

end Sys2Proof.Machine
end

