-- ==== Sys2Proof/Laws/OnlyWorga.lean ====
section
/-! SUPPORT. What each operation of Machine/Worga.lean may change. -/

set_option linter.unusedTactic false
set_option linter.unreachableTactic false
set_option linter.unusedVariables false

namespace Sys2Proof.Machine

theorem State.updWor_only {A : Nat} {s₀ : State} {s : State} {f : Wor → Wor} (hS : Only A s₀ s) (hA : Covers 0x400000000000 A) :
    Only A s₀ (State.updWor s f) := by
  unfold State.updWor
  repeat' (first
    | with_reducible exact hS
    | with_reducible assumption
    | (with_reducible refine Covers.testBit hA ?_; decide)
    | (with_reducible refine Covers.trans ?_ hA; decide)
    | with_reducible refine Only.set_wor ?_ ?_)

theorem State.updLink_only {A : Nat} {s₀ : State} {s : State} {l : LinkId} {f : WLink → WLink} (hS : Only A s₀ s) (hA : Covers 0x400000000000 A) :
    Only A s₀ (State.updLink s l f) := by
  unfold State.updLink
  repeat' (first
    | with_reducible exact hS
    | with_reducible assumption
    | (with_reducible refine Covers.testBit hA ?_; decide)
    | (with_reducible refine Covers.trans ?_ hA; decide)
    | (refine fun _ => ?_; intros)
    | with_reducible refine State.updWor_only ?_ ?_)

theorem State.putLinkState_only {A : Nat} {s₀ : State} {s : State} {l : LinkId} {v : Nat} (hS : Only A s₀ s) (hA : Covers 0x100 A) :
    Only A s₀ (State.putLinkState s l v) := by
  unfold State.putLinkState
  repeat' (first
    | with_reducible exact hS
    | with_reducible assumption
    | (with_reducible refine Covers.testBit hA ?_; decide)
    | (with_reducible refine Covers.trans ?_ hA; decide)
    | with_reducible refine State.put_only ?_ ?_
    | split
    | (refine fun _ => ?_))

theorem State.linkErr_only {A : Nat} {s₀ : State} {s : State} {l : LinkId} {e : LinkErr} (hS : Only A s₀ s) (hA : Covers 0x800000000000100 A) :
    Only A s₀ (State.linkErr s l e) := by
  unfold State.linkErr
  have hf : A.testBit e.field.page = true := by
    refine Covers.testBit hA ?_
    cases e <;> decide
  repeat' (first
    | with_reducible exact hS
    | with_reducible assumption
    | (with_reducible refine Covers.testBit hA ?_; decide)
    | (with_reducible refine Covers.trans ?_ hA; decide)
    | with_reducible refine State.err_only ?_ ?_ ?_
    | with_reducible refine State.errBit_only ?_ ?_ ?_
    | split)

theorem State.publishArrive_only {A : Nat} {s₀ : State} {s : State} {j : Nat} (hS : Only A s₀ s) (hA : Covers 0x100 A) :
    Only A s₀ (State.publishArrive s j) := by
  unfold State.publishArrive
  repeat' (first
    | with_reducible exact hS
    | with_reducible assumption
    | (with_reducible refine Covers.testBit hA ?_; decide)
    | (with_reducible refine Covers.trans ?_ hA; decide)
    | (extract_lets -underBinder +onlyGivenNames x; refine (fun (hx : Only A s₀ x) => ?_ : Only A s₀ x → _) ?_; (on_goal 2 => unfold x; clear x); (on_goal 1 => clear_value x; revert x; intro _ _))
    | (extract_lets -underBinder +onlyGivenNames x; unfold x; clear x)
    | (extract_lets -underBinder +onlyGivenNames x; revert x; intro _)
    | with_reducible refine State.put_only ?_ ?_)

theorem State.publishLink_only {A : Nat} {s₀ : State} {s : State} {j : Nat} (hS : Only A s₀ s) (hA : Covers 0x100 A) :
    Only A s₀ (State.publishLink s j) := by
  unfold State.publishLink
  repeat' (first
    | with_reducible exact hS
    | with_reducible assumption
    | (with_reducible refine Covers.testBit hA ?_; decide)
    | (with_reducible refine Covers.trans ?_ hA; decide)
    | (extract_lets -underBinder +onlyGivenNames x; refine (fun (hx : Only A s₀ x) => ?_ : Only A s₀ x → _) ?_; (on_goal 2 => unfold x; clear x); (on_goal 1 => clear_value x; revert x; intro _ _))
    | (extract_lets -underBinder +onlyGivenNames x; unfold x; clear x)
    | (extract_lets -underBinder +onlyGivenNames x; revert x; intro _)
    | with_reducible refine State.put_only ?_ ?_
    | with_reducible refine State.publishArrive_only ?_ ?_)

theorem State.publishLinks_only {A : Nat} {s₀ : State} {s : State} (hS : Only A s₀ s) (hA : Covers 0x100 A) :
    Only A s₀ (State.publishLinks s) := by
  unfold State.publishLinks
  repeat' (first
    | with_reducible exact hS
    | with_reducible assumption
    | (with_reducible refine Covers.testBit hA ?_; decide)
    | (with_reducible refine Covers.trans ?_ hA; decide)
    | (refine fun _ => ?_; intros)
    | with_reducible refine State.publishLink_only ?_ ?_
    | with_reducible refine Only.foldl _ ?_ ?_
    | with_reducible refine Only.Fst.ite ?_ ?_
    | with_reducible refine Only.Fst.unpair (by assumption)
    | with_reducible refine Only.Fst.foldl _ ?_ ?_
    | with_reducible refine Only.Fst.of ?_
    | with_reducible refine Only.Fst.pair ?_
    | with_reducible refine Only.Fst.elim (by assumption) ?_)

theorem State.writeWhaloChecked_only {A : Nat} {s₀ : State} {s : State} {n : Nat} {m : Nat} {v : Nat} (hS : Only A s₀ s) (hA : Covers 0x800000000000120 A) :
    Only A s₀ (State.writeWhaloChecked s n m v) := by
  unfold State.writeWhaloChecked
  repeat' (first
    | with_reducible exact hS
    | with_reducible assumption
    | (with_reducible refine Covers.testBit hA ?_; decide)
    | (with_reducible refine Covers.trans ?_ hA; decide)
    | (refine fun _ => ?_; intros)
    | (extract_lets -underBinder +onlyGivenNames x; refine (fun (hx : Only A s₀ x) => ?_ : Only A s₀ x → _) ?_; (on_goal 2 => unfold x; clear x); (on_goal 1 => clear_value x; revert x; intro _ _))
    | (extract_lets -underBinder +onlyGivenNames x; unfold x; clear x)
    | (extract_lets -underBinder +onlyGivenNames x; revert x; intro _)
    | with_reducible refine Only.ite ?_ ?_
    | with_reducible refine State.err_only ?_ ?_ ?_
    | with_reducible refine State.writeWhalo_only ?_ ?_
    | with_reducible refine State.publishLinks_only ?_ ?_
    | with_reducible refine Only.foldl _ ?_ ?_
    | with_reducible refine Only.Fst.ite ?_ ?_
    | with_reducible refine Only.Fst.unpair (by assumption)
    | with_reducible refine Only.Fst.foldl _ ?_ ?_
    | split
    | with_reducible refine Only.Fst.of ?_
    | with_reducible refine Only.Fst.pair ?_
    | with_reducible refine Only.Fst.elim (by assumption) ?_
    | (refine fun _ => ?_))

theorem State.worgaAddress_only {A : Nat} {s₀ : State} {s : State} (hS : Only A s₀ s) (hA : Covers 0x800000000000100 A) :
    Only A s₀ (State.worgaAddress s) := by
  unfold State.worgaAddress
  repeat' (first
    | with_reducible exact hS
    | with_reducible assumption
    | (with_reducible refine Covers.testBit hA ?_; decide)
    | (with_reducible refine Covers.trans ?_ hA; decide)
    | with_reducible refine Only.ite ?_ ?_
    | with_reducible refine State.put_only ?_ ?_
    | with_reducible refine State.err_only ?_ ?_ ?_
    | split
    | (refine fun _ => ?_))

theorem State.writeWorAddr_only {A : Nat} {s₀ : State} {s : State} {m : Nat} {v : Nat} (hS : Only A s₀ s) (hA : Covers 0x800000000000100 A) :
    Only A s₀ (State.writeWorAddr s m v) := by
  unfold State.writeWorAddr
  repeat' (first
    | with_reducible exact hS
    | with_reducible assumption
    | (with_reducible refine Covers.testBit hA ?_; decide)
    | (with_reducible refine Covers.trans ?_ hA; decide)
    | (with_reducible refine Covers.trans (Covers.trans (pageMask_all _) ?_) hA; decide)
    | (extract_lets -underBinder +onlyGivenNames x; refine (fun (hx : Only A s₀ x) => ?_ : Only A s₀ x → _) ?_; (on_goal 2 => unfold x; clear x); (on_goal 1 => clear_value x; revert x; intro _ _))
    | (extract_lets -underBinder +onlyGivenNames x; unfold x; clear x)
    | (extract_lets -underBinder +onlyGivenNames x; revert x; intro _)
    | with_reducible refine State.put_only ?_ ?_
    | with_reducible refine State.err_only ?_ ?_ ?_
    | with_reducible refine State.wrReg_only ?_ ?_
    | with_reducible refine State.worgaAddress_only ?_ ?_
    | split
    | (refine fun _ => ?_))

theorem State.resetMarks_only {A : Nat} {s₀ : State} {s : State} {l : LinkId} (hS : Only A s₀ s) (hA : Covers 0x400000000000 A) :
    Only A s₀ (State.resetMarks s l) := by
  unfold State.resetMarks
  repeat' (first
    | with_reducible exact hS
    | with_reducible assumption
    | (with_reducible refine Covers.testBit hA ?_; decide)
    | (with_reducible refine Covers.trans ?_ hA; decide)
    | (refine fun _ => ?_; intros)
    | with_reducible refine State.updLink_only ?_ ?_)

theorem State.forgetPeer_only {A : Nat} {s₀ : State} {s : State} {l : LinkId} (hS : Only A s₀ s) (hA : Covers 0x100 A) :
    Only A s₀ (State.forgetPeer s l) := by
  unfold State.forgetPeer
  repeat' (first
    | with_reducible exact hS
    | with_reducible assumption
    | (with_reducible refine Covers.testBit hA ?_; decide)
    | (with_reducible refine Covers.trans ?_ hA; decide)
    | with_reducible refine State.put_only ?_ ?_
    | split
    | (refine fun _ => ?_))

theorem State.linkDown_only {A : Nat} {s₀ : State} {s : State} {l : LinkId} (hS : Only A s₀ s) (hA : Covers 0x800400000000100 A) :
    Only A s₀ (State.linkDown s l) := by
  unfold State.linkDown
  repeat' (first
    | with_reducible exact hS
    | with_reducible assumption
    | (with_reducible refine Covers.testBit hA ?_; decide)
    | (with_reducible refine Covers.trans ?_ hA; decide)
    | (refine fun _ => ?_; intros)
    | (extract_lets -underBinder +onlyGivenNames x; refine (fun (hx : Only A s₀ x) => ?_ : Only A s₀ x → _) ?_; (on_goal 2 => unfold x; clear x); (on_goal 1 => clear_value x; revert x; intro _ _))
    | (extract_lets -underBinder +onlyGivenNames x; unfold x; clear x)
    | (extract_lets -underBinder +onlyGivenNames x; revert x; intro _)
    | with_reducible refine Only.ite ?_ ?_
    | with_reducible refine State.updLink_only ?_ ?_
    | with_reducible refine State.putLinkState_only ?_ ?_
    | with_reducible refine State.linkErr_only ?_ ?_
    | with_reducible refine State.worgaAddress_only ?_ ?_
    | with_reducible refine State.resetMarks_only ?_ ?_
    | with_reducible refine State.forgetPeer_only ?_ ?_)

theorem State.leaveService_only {A : Nat} {s₀ : State} {s : State} {l : LinkId} (hS : Only A s₀ s) (hA : Covers 0x800400000000100 A) :
    Only A s₀ (State.leaveService s l) := by
  unfold State.leaveService
  repeat' (first
    | with_reducible exact hS
    | with_reducible assumption
    | (with_reducible refine Covers.testBit hA ?_; decide)
    | (with_reducible refine Covers.trans ?_ hA; decide)
    | with_reducible refine Only.ite ?_ ?_
    | with_reducible refine State.putLinkState_only ?_ ?_
    | with_reducible refine State.linkErr_only ?_ ?_
    | with_reducible refine State.resetMarks_only ?_ ?_)

theorem State.writeLinkCfg_only {A : Nat} {s₀ : State} {s : State} {l : LinkId} {m : Nat} {v : Nat} (hS : Only A s₀ s) (hA : Covers 0x800400000000100 A) :
    Only A s₀ (State.writeLinkCfg s l m v) := by
  unfold State.writeLinkCfg
  repeat' (first
    | with_reducible exact hS
    | with_reducible assumption
    | (with_reducible refine Covers.testBit hA ?_; decide)
    | (with_reducible refine Covers.trans ?_ hA; decide)
    | (with_reducible refine Covers.trans (Covers.trans (pageMask_all _) ?_) hA; decide)
    | (refine fun _ => ?_; intros)
    | (extract_lets -underBinder +onlyGivenNames x; refine (fun (hx : Only A s₀ x) => ?_ : Only A s₀ x → _) ?_; (on_goal 2 => unfold x; clear x); (on_goal 1 => clear_value x; revert x; intro _ _))
    | (extract_lets -underBinder +onlyGivenNames x; unfold x; clear x)
    | (extract_lets -underBinder +onlyGivenNames x; revert x; intro _)
    | with_reducible refine Only.ite ?_ ?_
    | with_reducible refine State.err_only ?_ ?_ ?_
    | with_reducible refine State.wrReg_only ?_ ?_
    | with_reducible refine State.publishLink_only ?_ ?_
    | with_reducible refine State.worgaAddress_only ?_ ?_
    | with_reducible refine State.linkDown_only ?_ ?_
    | split
    | (refine fun _ => ?_))

theorem State.linkLaneLoss_only {A : Nat} {s₀ : State} {s : State} {l : LinkId} (hS : Only A s₀ s) (hA : Covers 0x1800400000000100 A) :
    Only A s₀ (State.linkLaneLoss s l) := by
  unfold State.linkLaneLoss
  repeat' (first
    | with_reducible exact hS
    | with_reducible assumption
    | (with_reducible refine Covers.testBit hA ?_; decide)
    | (with_reducible refine Covers.trans ?_ hA; decide)
    | (extract_lets -underBinder +onlyGivenNames x; refine (fun (hx : Only A s₀ x) => ?_ : Only A s₀ x → _) ?_; (on_goal 2 => unfold x; clear x); (on_goal 1 => clear_value x; revert x; intro _ _))
    | (extract_lets -underBinder +onlyGivenNames x; unfold x; clear x)
    | (extract_lets -underBinder +onlyGivenNames x; revert x; intro _)
    | with_reducible refine Only.ite ?_ ?_
    | with_reducible refine State.inc_only ?_ ?_ ?_
    | with_reducible refine State.linkDown_only ?_ ?_
    | split
    | (refine fun _ => ?_))

theorem State.badControl_only {A : Nat} {s₀ : State} {s : State} {l : LinkId} (hS : Only A s₀ s) (hA : Covers 0x800400000000100 A) :
    Only A s₀ (State.badControl s l) := by
  unfold State.badControl
  repeat' (first
    | with_reducible exact hS
    | with_reducible assumption
    | (with_reducible refine Covers.testBit hA ?_; decide)
    | (with_reducible refine Covers.trans ?_ hA; decide)
    | (refine fun _ => ?_; intros)
    | with_reducible refine State.updLink_only ?_ ?_
    | with_reducible refine State.linkErr_only ?_ ?_)

theorem State.linkPllLock_only {A : Nat} {s₀ : State} {s : State} {l : LinkId} (hS : Only A s₀ s) (hA : Covers 0x100 A) :
    Only A s₀ (State.linkPllLock s l) := by
  unfold State.linkPllLock
  repeat' (first
    | with_reducible exact hS
    | with_reducible assumption
    | (with_reducible refine Covers.testBit hA ?_; decide)
    | (with_reducible refine Covers.trans ?_ hA; decide)
    | (refine fun _ => ?_; intros)
    | with_reducible refine Only.ite ?_ ?_
    | with_reducible refine State.putLinkState_only ?_ ?_)

theorem State.linkTrained_only {A : Nat} {s₀ : State} {s : State} {l : LinkId} (hS : Only A s₀ s) (hA : Covers 0x400000000100 A) :
    Only A s₀ (State.linkTrained s l) := by
  unfold State.linkTrained
  repeat' (first
    | with_reducible exact hS
    | with_reducible assumption
    | (with_reducible refine Covers.testBit hA ?_; decide)
    | (with_reducible refine Covers.trans ?_ hA; decide)
    | (refine fun _ => ?_; intros)
    | with_reducible refine Only.ite ?_ ?_
    | with_reducible refine State.updLink_only ?_ ?_
    | with_reducible refine State.putLinkState_only ?_ ?_)

theorem State.linkTrainTimeout_only {A : Nat} {s₀ : State} {s : State} {l : LinkId} (hS : Only A s₀ s) (hA : Covers 0x800400000000100 A) :
    Only A s₀ (State.linkTrainTimeout s l) := by
  unfold State.linkTrainTimeout
  repeat' (first
    | with_reducible exact hS
    | with_reducible assumption
    | (with_reducible refine Covers.testBit hA ?_; decide)
    | (with_reducible refine Covers.trans ?_ hA; decide)
    | with_reducible refine Only.ite ?_ ?_
    | with_reducible refine State.linkErr_only ?_ ?_
    | with_reducible refine State.linkDown_only ?_ ?_)

theorem State.worgaCodeword_only {A : Nat} {s₀ : State} {s : State} {l : LinkId} {o : Codeword} (hS : Only A s₀ s) (hA : Covers 0x1800000000000100 A) :
    Only A s₀ (State.worgaCodeword s l o) := by
  unfold State.worgaCodeword
  repeat' (first
    | with_reducible exact hS
    | with_reducible assumption
    | (with_reducible refine Covers.testBit hA ?_; decide)
    | (with_reducible refine Covers.trans ?_ hA; decide)
    | with_reducible refine Only.ite ?_ ?_
    | with_reducible refine State.inc_only ?_ ?_ ?_
    | with_reducible refine State.linkErr_only ?_ ?_
    | split
    | (refine fun _ => ?_))

theorem State.enterMatching_only {A : Nat} {s₀ : State} {s : State} {l : LinkId} {w : Nat} (hS : Only A s₀ s) (hA : Covers 0x800400000000100 A) :
    Only A s₀ (State.enterMatching s l w) := by
  unfold State.enterMatching
  repeat' (first
    | with_reducible exact hS
    | with_reducible assumption
    | (with_reducible refine Covers.testBit hA ?_; decide)
    | (with_reducible refine Covers.trans ?_ hA; decide)
    | (extract_lets -underBinder +onlyGivenNames x; refine (fun (hx : Only A s₀ x) => ?_ : Only A s₀ x → _) ?_; (on_goal 2 => unfold x; clear x); (on_goal 1 => clear_value x; revert x; intro _ _))
    | (extract_lets -underBinder +onlyGivenNames x; unfold x; clear x)
    | (extract_lets -underBinder +onlyGivenNames x; revert x; intro _)
    | with_reducible refine State.put_only ?_ ?_
    | with_reducible refine State.putLinkState_only ?_ ?_
    | with_reducible refine State.worgaAddress_only ?_ ?_
    | with_reducible refine State.resetMarks_only ?_ ?_
    | split
    | (refine fun _ => ?_))

theorem State.linkIdent_only {A : Nat} {s₀ : State} {s : State} {l : LinkId} {w : Nat} (hS : Only A s₀ s) (hA : Covers 0x800400000000100 A) :
    Only A s₀ (State.linkIdent s l w) := by
  unfold State.linkIdent
  repeat' (first
    | with_reducible exact hS
    | with_reducible assumption
    | (with_reducible refine Covers.testBit hA ?_; decide)
    | (with_reducible refine Covers.trans ?_ hA; decide)
    | (refine fun _ => ?_; intros)
    | (extract_lets -underBinder +onlyGivenNames x; refine (fun (hx : Only A s₀ x) => ?_ : Only A s₀ x → _) ?_; (on_goal 2 => unfold x; clear x); (on_goal 1 => clear_value x; revert x; intro _ _))
    | (extract_lets -underBinder +onlyGivenNames x; unfold x; clear x)
    | (extract_lets -underBinder +onlyGivenNames x; revert x; intro _)
    | with_reducible refine Only.ite ?_ ?_
    | with_reducible refine State.updLink_only ?_ ?_
    | with_reducible refine State.putLinkState_only ?_ ?_
    | with_reducible refine State.linkErr_only ?_ ?_
    | with_reducible refine State.worgaAddress_only ?_ ?_
    | with_reducible refine State.resetMarks_only ?_ ?_
    | with_reducible refine State.forgetPeer_only ?_ ?_
    | with_reducible refine State.enterMatching_only ?_ ?_)

theorem State.enterService_only {A : Nat} {s₀ : State} {s : State} {l : LinkId} (hS : Only A s₀ s) (hA : Covers 0x400000000100 A) :
    Only A s₀ (State.enterService s l) := by
  unfold State.enterService
  repeat' (first
    | with_reducible exact hS
    | with_reducible assumption
    | (with_reducible refine Covers.testBit hA ?_; decide)
    | (with_reducible refine Covers.trans ?_ hA; decide)
    | (refine fun _ => ?_; intros)
    | (extract_lets -underBinder +onlyGivenNames x; refine (fun (hx : Only A s₀ x) => ?_ : Only A s₀ x → _) ?_; (on_goal 2 => unfold x; clear x); (on_goal 1 => clear_value x; revert x; intro _ _))
    | (extract_lets -underBinder +onlyGivenNames x; unfold x; clear x)
    | (extract_lets -underBinder +onlyGivenNames x; revert x; intro _)
    | with_reducible refine State.put_only ?_ ?_
    | with_reducible refine State.updLink_only ?_ ?_
    | with_reducible refine State.putLinkState_only ?_ ?_
    | with_reducible refine State.publishArrive_only ?_ ?_
    | split
    | (refine fun _ => ?_))

theorem State.markerMiss_only {A : Nat} {s₀ : State} {s : State} {l : LinkId} (hS : Only A s₀ s) (hA : Covers 0x800400000000100 A) :
    Only A s₀ (State.markerMiss s l) := by
  unfold State.markerMiss
  repeat' (first
    | with_reducible exact hS
    | with_reducible assumption
    | (with_reducible refine Covers.testBit hA ?_; decide)
    | (with_reducible refine Covers.trans ?_ hA; decide)
    | (refine fun _ => ?_; intros)
    | (extract_lets -underBinder +onlyGivenNames x; refine (fun (hx : Only A s₀ x) => ?_ : Only A s₀ x → _) ?_; (on_goal 2 => unfold x; clear x); (on_goal 1 => clear_value x; revert x; intro _ _))
    | (extract_lets -underBinder +onlyGivenNames x; unfold x; clear x)
    | (extract_lets -underBinder +onlyGivenNames x; revert x; intro _)
    | with_reducible refine Only.ite ?_ ?_
    | with_reducible refine State.updLink_only ?_ ?_
    | with_reducible refine State.resetMarks_only ?_ ?_
    | with_reducible refine State.leaveService_only ?_ ?_
    | split
    | (refine fun _ => ?_))

theorem State.publishOffset_only {A : Nat} {s₀ : State} {s : State} {l : LinkId} {ofs : Nat} (hS : Only A s₀ s) (hA : Covers 0x100 A) :
    Only A s₀ (State.publishOffset s l ofs) := by
  unfold State.publishOffset
  repeat' (first
    | with_reducible exact hS
    | with_reducible assumption
    | (with_reducible refine Covers.testBit hA ?_; decide)
    | (with_reducible refine Covers.trans ?_ hA; decide)
    | (extract_lets -underBinder +onlyGivenNames x; refine (fun (hx : Only A s₀ x) => ?_ : Only A s₀ x → _) ?_; (on_goal 2 => unfold x; clear x); (on_goal 1 => clear_value x; revert x; intro _ _))
    | (extract_lets -underBinder +onlyGivenNames x; unfold x; clear x)
    | (extract_lets -underBinder +onlyGivenNames x; revert x; intro _)
    | with_reducible refine Only.ite ?_ ?_
    | with_reducible refine State.put_only ?_ ?_
    | with_reducible refine State.publishArrive_only ?_ ?_
    | split
    | (refine fun _ => ?_))

theorem State.slotMarker_only {A : Nat} {s₀ : State} {s : State} {l : LinkId} {w : Nat} {t : Nat} (hS : Only A s₀ s) (hA : Covers 0x800400400000100 A) :
    Only A s₀ (State.slotMarker s l w t) := by
  unfold State.slotMarker
  repeat' (first
    | with_reducible exact hS
    | with_reducible assumption
    | (with_reducible refine Covers.testBit hA ?_; decide)
    | (with_reducible refine Covers.trans ?_ hA; decide)
    | (refine fun _ => ?_; intros)
    | (extract_lets -underBinder +onlyGivenNames x; refine (fun (hx : Only A s₀ x) => ?_ : Only A s₀ x → _) ?_; (on_goal 2 => unfold x; clear x); (on_goal 1 => clear_value x; revert x; intro _ _))
    | (extract_lets -underBinder +onlyGivenNames x; unfold x; clear x)
    | (extract_lets -underBinder +onlyGivenNames x; revert x; intro _)
    | with_reducible refine Only.ite ?_ ?_
    | with_reducible refine State.at_only ?_ ?_
    | with_reducible refine State.updLink_only ?_ ?_
    | with_reducible refine State.enterService_only ?_ ?_
    | with_reducible refine State.markerMiss_only ?_ ?_
    | with_reducible refine State.publishOffset_only ?_ ?_
    | split
    | (refine fun _ => ?_))

theorem State.worgaDiscontinuity_only {A : Nat} {s₀ : State} {s : State} (hS : Only A s₀ s) (hA : Covers 0x800400000000100 A) :
    Only A s₀ (State.worgaDiscontinuity s) := by
  unfold State.worgaDiscontinuity
  repeat' (first
    | with_reducible exact hS
    | with_reducible assumption
    | (with_reducible refine Covers.testBit hA ?_; decide)
    | (with_reducible refine Covers.trans ?_ hA; decide)
    | (refine fun _ => ?_; intros)
    | with_reducible refine State.publishLinks_only ?_ ?_
    | with_reducible refine State.leaveService_only ?_ ?_
    | with_reducible refine Only.foldl _ ?_ ?_
    | with_reducible refine Only.Fst.ite ?_ ?_
    | with_reducible refine Only.Fst.unpair (by assumption)
    | with_reducible refine Only.Fst.foldl _ ?_ ?_
    | with_reducible refine Only.Fst.of ?_
    | with_reducible refine Only.Fst.pair ?_
    | with_reducible refine Only.Fst.elim (by assumption) ?_)

theorem State.worgaPeriods_only {A : Nat} {s₀ : State} {s : State} (hS : Only A s₀ s) (hA : Covers 0x100 A) :
    Only A s₀ (State.worgaPeriods s) := by
  unfold State.worgaPeriods
  repeat' (first
    | with_reducible exact hS
    | with_reducible assumption
    | (with_reducible refine Covers.testBit hA ?_; decide)
    | (with_reducible refine Covers.trans ?_ hA; decide)
    | with_reducible refine State.publishLinks_only ?_ ?_)

end Sys2Proof.Machine
end

