-- ==== Sys2Proof/Laws/OnlyWorgaFrames.lean ====
section
/-! SUPPORT. What each operation of Machine/WorgaFrames.lean may change. -/

set_option linter.unusedTactic false
set_option linter.unreachableTactic false
set_option linter.unusedVariables false

namespace Sys2Proof.Machine

theorem State.takeSeq_only {A : Nat} {s₀ : State} {s : State} {j : Fin 12} {type : Nat} (hS : Only A s₀ s) (hA : Covers 0x400000000000 A) :
    Only.Snd A s₀ (State.takeSeq s j type) := by
  unfold State.takeSeq
  repeat' (first
    | with_reducible exact hS
    | with_reducible assumption
    | (with_reducible refine Covers.testBit hA ?_; decide)
    | (with_reducible refine Covers.trans ?_ hA; decide)
    | (refine fun _ => ?_; intros)
    | (extract_lets -underBinder +onlyGivenNames x; refine (fun (hx : Only A s₀ x) => ?_ : Only A s₀ x → _) ?_; (on_goal 2 => unfold x; clear x); (on_goal 1 => clear_value x; revert x; intro _ _))
    | (extract_lets -underBinder +onlyGivenNames x; unfold x; clear x)
    | (extract_lets -underBinder +onlyGivenNames x; revert x; intro _)
    | with_reducible refine State.updLink_only ?_ ?_
    | with_reducible refine Only.Snd.ite ?_ ?_
    | with_reducible refine Only.Snd.of ?_
    | with_reducible refine Only.Snd.pair ?_
    | with_reducible refine Only.Snd.elim (by assumption) ?_)

theorem State.putFrame_only {A : Nat} {s₀ : State} {s : State} {j : Fin 12} {type : Nat} {first : Bool} {last : Bool} {dst : Nat} {src : Nat} {payload : List Nat} (hS : Only A s₀ s) (hA : Covers 0x400000000000 A) :
    Only.Fst A s₀ (State.putFrame s j type first last dst src payload) := by
  unfold State.putFrame
  repeat' (first
    | with_reducible exact hS
    | with_reducible assumption
    | (with_reducible refine Covers.testBit hA ?_; decide)
    | (with_reducible refine Covers.trans ?_ hA; decide)
    | (extract_lets -underBinder +onlyGivenNames x; refine (fun (hx : Only A s₀ x) => ?_ : Only A s₀ x → _) ?_; (on_goal 2 => unfold x; clear x); (on_goal 1 => clear_value x; revert x; intro _ _))
    | (extract_lets -underBinder +onlyGivenNames x; unfold x; clear x)
    | (extract_lets -underBinder +onlyGivenNames x; revert x; intro _)
    | with_reducible refine State.takeSeq_only ?_ ?_
    | with_reducible refine Only.Fst.ite ?_ ?_
    | with_reducible refine Only.Fst.unpair (by assumption)
    | with_reducible refine Only.Snd.ite ?_ ?_
    | split
    | with_reducible refine Only.Fst.of ?_
    | with_reducible refine Only.Fst.pair ?_
    | with_reducible refine Only.Fst.elim (by assumption) ?_
    | with_reducible refine Only.Snd.of ?_
    | with_reducible refine Only.Snd.pair ?_
    | with_reducible refine Only.Snd.elim (by assumption) ?_)

theorem State.haloCapture_only {A : Nat} {s₀ : State} {s : State} (hS : Only A s₀ s) (hA : Covers 0x400000000000 A) :
    Only A s₀ (State.haloCapture s) := by
  unfold State.haloCapture
  repeat' (first
    | with_reducible exact hS
    | with_reducible assumption
    | (with_reducible refine Covers.testBit hA ?_; decide)
    | (with_reducible refine Covers.trans ?_ hA; decide)
    | (refine fun _ => ?_; intros)
    | (extract_lets -underBinder +onlyGivenNames x; refine (fun (hx : Only A s₀ x) => ?_ : Only A s₀ x → _) ?_; (on_goal 2 => unfold x; clear x); (on_goal 1 => clear_value x; revert x; intro _ _))
    | (extract_lets -underBinder +onlyGivenNames x; unfold x; clear x)
    | (extract_lets -underBinder +onlyGivenNames x; revert x; intro _)
    | with_reducible refine Only.ite ?_ ?_
    | with_reducible refine State.updWor_only ?_ ?_)

theorem State.frameWord_only {A : Nat} {s₀ : State} {s : State} {a : Nat} (hS : Only A s₀ s) (hA : Covers 0x1000000000 A) :
    Only.Fst A s₀ (State.frameWord s a) := by
  unfold State.frameWord
  repeat' (first
    | with_reducible exact hS
    | with_reducible assumption
    | (with_reducible refine Covers.testBit hA ?_; decide)
    | (with_reducible refine Covers.trans ?_ hA; decide)
    | with_reducible refine State.tookFree_only ?_ ?_
    | with_reducible refine Only.Fst.ite ?_ ?_
    | with_reducible refine Only.Fst.unpair (by assumption)
    | split
    | with_reducible refine Only.Fst.of ?_
    | with_reducible refine Only.Fst.pair ?_
    | with_reducible refine Only.Fst.elim (by assumption) ?_
    | (refine fun _ => ?_))

theorem State.frameData_only {A : Nat} {s₀ : State} {s : State} {a : Nat} {v0 : Nat} (hS : Only A s₀ s) (hA : Covers 0x1000000000 A) :
    Only.Fst A s₀ (State.frameData s a v0) := by
  induction v0 generalizing s a with
  | zero =>
    unfold State.frameData
    repeat' (first
      | with_reducible exact hS
      | with_reducible assumption
      | (with_reducible refine Covers.testBit hA ?_; decide)
      | (with_reducible refine Covers.trans ?_ hA; decide)
      | (refine fun _ => ?_; intros)
      | (extract_lets -underBinder +onlyGivenNames x; refine (fun (hx : Only A s₀ x) => ?_ : Only A s₀ x → _) ?_; (on_goal 2 => unfold x; clear x); (on_goal 1 => clear_value x; revert x; intro _ _))
      | (extract_lets -underBinder +onlyGivenNames x; unfold x; clear x)
      | (extract_lets -underBinder +onlyGivenNames x; revert x; intro _)
      | with_reducible refine State.frameWord_only ?_ ?_
      | with_reducible refine Only.Fst.ite ?_ ?_
      | with_reducible refine Only.Fst.unpair (by assumption)
      | split
      | with_reducible refine Only.Fst.of ?_
      | with_reducible refine Only.Fst.pair ?_
      | with_reducible refine Only.Fst.elim (by assumption) ?_)
  | succ k ih =>
    unfold State.frameData
    repeat' (first
      | with_reducible exact hS
      | with_reducible assumption
      | (with_reducible refine Covers.testBit hA ?_; decide)
      | (with_reducible refine Covers.trans ?_ hA; decide)
      | with_reducible refine ih ?_
      | (refine fun _ => ?_; intros)
      | (extract_lets -underBinder +onlyGivenNames x; refine (fun (hx : Only A s₀ x) => ?_ : Only A s₀ x → _) ?_; (on_goal 2 => unfold x; clear x); (on_goal 1 => clear_value x; revert x; intro _ _))
      | (extract_lets -underBinder +onlyGivenNames x; unfold x; clear x)
      | (extract_lets -underBinder +onlyGivenNames x; revert x; intro _)
      | with_reducible refine State.frameWord_only ?_ ?_
      | with_reducible refine Only.Fst.ite ?_ ?_
      | with_reducible refine Only.Fst.unpair (by assumption)
      | split
      | with_reducible refine Only.Fst.of ?_
      | with_reducible refine Only.Fst.pair ?_
      | with_reducible refine Only.Fst.elim (by assumption) ?_)

theorem State.slotIndex_only {A : Nat} {s₀ : State} {s : State} (hS : Only A s₀ s) (hA : Covers 0x1000000000 A) :
    Only.Fst A s₀ (State.slotIndex s) := by
  unfold State.slotIndex
  repeat' (first
    | with_reducible exact hS
    | with_reducible assumption
    | (with_reducible refine Covers.testBit hA ?_; decide)
    | (with_reducible refine Covers.trans ?_ hA; decide)
    | with_reducible refine State.tookFree_only ?_ ?_
    | with_reducible refine Only.Fst.ite ?_ ?_
    | with_reducible refine Only.Fst.unpair (by assumption)
    | split
    | with_reducible refine Only.Fst.of ?_
    | with_reducible refine Only.Fst.pair ?_
    | with_reducible refine Only.Fst.elim (by assumption) ?_
    | (refine fun _ => ?_))

theorem State.streamFrames_only {A : Nat} {s₀ : State} {s : State} {j : Fin 12} (hS : Only A s₀ s) (hA : Covers 0x1000000000 A) :
    Only.Fst A s₀ (State.streamFrames s j) := by
  unfold State.streamFrames
  repeat' (first
    | with_reducible exact hS
    | with_reducible assumption
    | (with_reducible refine Covers.testBit hA ?_; decide)
    | (with_reducible refine Covers.trans ?_ hA; decide)
    | (refine fun _ => ?_; intros)
    | (extract_lets -underBinder +onlyGivenNames x; refine (fun (hx : Only A s₀ x) => ?_ : Only A s₀ x → _) ?_; (on_goal 2 => unfold x; clear x); (on_goal 1 => clear_value x; revert x; intro _ _))
    | (extract_lets -underBinder +onlyGivenNames x; unfold x; clear x)
    | (extract_lets -underBinder +onlyGivenNames x; revert x; intro _)
    | with_reducible refine Only.ite ?_ ?_
    | with_reducible refine State.slotIndex_only ?_ ?_
    | with_reducible refine Only.foldl _ ?_ ?_
    | with_reducible refine Only.Fst.ite ?_ ?_
    | with_reducible refine Only.Fst.unpair (by assumption)
    | with_reducible refine Only.Fst.foldl _ ?_ ?_
    | split
    | with_reducible refine Only.Fst.of ?_
    | with_reducible refine Only.Fst.pair ?_
    | with_reducible refine Only.Fst.elim (by assumption) ?_)

theorem State.firmwareFrames_only {A : Nat} {s₀ : State} {s : State} {j : Fin 12} (hS : Only A s₀ s) (hA : Covers 0x1000000000 A) :
    Only.Fst A s₀ (State.firmwareFrames s j) := by
  unfold State.firmwareFrames
  repeat' (first
    | with_reducible exact hS
    | with_reducible assumption
    | (with_reducible refine Covers.testBit hA ?_; decide)
    | (with_reducible refine Covers.trans ?_ hA; decide)
    | (refine fun _ => ?_; intros)
    | (extract_lets -underBinder +onlyGivenNames x; refine (fun (hx : Only A s₀ x) => ?_ : Only A s₀ x → _) ?_; (on_goal 2 => unfold x; clear x); (on_goal 1 => clear_value x; revert x; intro _ _))
    | (extract_lets -underBinder +onlyGivenNames x; unfold x; clear x)
    | (extract_lets -underBinder +onlyGivenNames x; revert x; intro _)
    | with_reducible refine State.frameData_only ?_ ?_
    | with_reducible refine Only.foldl _ ?_ ?_
    | with_reducible refine Only.Fst.ite ?_ ?_
    | with_reducible refine Only.Fst.unpair (by assumption)
    | with_reducible refine Only.Fst.foldl _ ?_ ?_
    | split
    | with_reducible refine Only.Fst.of ?_
    | with_reducible refine Only.Fst.pair ?_
    | with_reducible refine Only.Fst.elim (by assumption) ?_)

theorem State.publishTx_only {A : Nat} {s₀ : State} {s : State} (hS : Only A s₀ s) (hA : Covers 0x100 A) :
    Only A s₀ (State.publishTx s) := by
  unfold State.publishTx
  repeat' (first
    | with_reducible exact hS
    | with_reducible assumption
    | (with_reducible refine Covers.testBit hA ?_; decide)
    | (with_reducible refine Covers.trans ?_ hA; decide)
    | with_reducible refine State.put_only ?_ ?_)

theorem State.frameSent_only {A : Nat} {s₀ : State} {s : State} {f : Frame} {n : Nat} (hS : Only A s₀ s) (hA : Covers 0x402000000100 A) :
    Only A s₀ (State.frameSent s f n) := by
  unfold State.frameSent
  repeat' (first
    | with_reducible exact hS
    | with_reducible assumption
    | (with_reducible refine Covers.testBit hA ?_; decide)
    | (with_reducible refine Covers.trans ?_ hA; decide)
    | (refine fun _ => ?_; intros)
    | (extract_lets -underBinder +onlyGivenNames x; refine (fun (hx : Only A s₀ x) => ?_ : Only A s₀ x → _) ?_; (on_goal 2 => unfold x; clear x); (on_goal 1 => clear_value x; revert x; intro _ _))
    | (extract_lets -underBinder +onlyGivenNames x; unfold x; clear x)
    | (extract_lets -underBinder +onlyGivenNames x; revert x; intro _)
    | with_reducible refine Only.ite ?_ ?_
    | with_reducible refine State.setBit_only ?_ ?_
    | with_reducible refine State.updWor_only ?_ ?_
    | with_reducible refine State.publishTx_only ?_ ?_
    | split
    | (refine fun _ => ?_))

theorem State.sendPieces_only {A : Nat} {s₀ : State} {s : State} {j : Fin 12} {ps : List (Frame × Nat)} (hS : Only A s₀ s) (hA : Covers 0x402000000100 A) :
    Only.Fst A s₀ (State.sendPieces s j ps) := by
  unfold State.sendPieces
  repeat' (first
    | with_reducible exact hS
    | with_reducible assumption
    | (with_reducible refine Covers.testBit hA ?_; decide)
    | (with_reducible refine Covers.trans ?_ hA; decide)
    | (refine fun _ => ?_; intros)
    | (extract_lets -underBinder +onlyGivenNames x; refine (fun (hx : Only A s₀ x) => ?_ : Only A s₀ x → _) ?_; (on_goal 2 => unfold x; clear x); (on_goal 1 => clear_value x; revert x; intro _ _))
    | (extract_lets -underBinder +onlyGivenNames x; unfold x; clear x)
    | (extract_lets -underBinder +onlyGivenNames x; revert x; intro _)
    | with_reducible refine Only.ite ?_ ?_
    | with_reducible refine State.putFrame_only ?_ ?_
    | with_reducible refine State.frameSent_only ?_ ?_
    | with_reducible refine Only.foldl _ ?_ ?_
    | with_reducible refine Only.Fst.ite ?_ ?_
    | with_reducible refine Only.Fst.unpair (by assumption)
    | with_reducible refine Only.Fst.foldl _ ?_ ?_
    | split
    | with_reducible refine Only.Fst.of ?_
    | with_reducible refine Only.Fst.pair ?_
    | with_reducible refine Only.Fst.elim (by assumption) ?_)

theorem State.slotWord_only {A : Nat} {s₀ : State} {s : State} (hS : Only A s₀ s) (hA : Covers 0x1000000000 A) :
    Only.Fst A s₀ (State.slotWord s) := by
  unfold State.slotWord
  repeat' (first
    | with_reducible exact hS
    | with_reducible assumption
    | (with_reducible refine Covers.testBit hA ?_; decide)
    | (with_reducible refine Covers.trans ?_ hA; decide)
    | (extract_lets -underBinder +onlyGivenNames x; refine (fun (hx : Only A s₀ x) => ?_ : Only A s₀ x → _) ?_; (on_goal 2 => unfold x; clear x); (on_goal 1 => clear_value x; revert x; intro _ _))
    | (extract_lets -underBinder +onlyGivenNames x; unfold x; clear x)
    | (extract_lets -underBinder +onlyGivenNames x; revert x; intro _)
    | with_reducible refine State.tookFree_only ?_ ?_
    | with_reducible refine Only.Fst.ite ?_ ?_
    | with_reducible refine Only.Fst.unpair (by assumption)
    | split
    | with_reducible refine Only.Fst.of ?_
    | with_reducible refine Only.Fst.pair ?_
    | with_reducible refine Only.Fst.elim (by assumption) ?_
    | (refine fun _ => ?_))

theorem State.sendWords_only {A : Nat} {s₀ : State} {s : State} {l : LinkId} {ws : List LinkWord} (hS : Only A s₀ s) (hA : Covers 0x402000000000 A) :
    Only A s₀ (State.sendWords s l ws) := by
  unfold State.sendWords
  repeat' (first
    | with_reducible exact hS
    | with_reducible assumption
    | (with_reducible refine Covers.testBit hA ?_; decide)
    | (with_reducible refine Covers.trans ?_ hA; decide)
    | (refine fun _ => ?_; intros)
    | (extract_lets -underBinder +onlyGivenNames x; refine (fun (hx : Only A s₀ x) => ?_ : Only A s₀ x → _) ?_; (on_goal 2 => unfold x; clear x); (on_goal 1 => clear_value x; revert x; intro _ _))
    | (extract_lets -underBinder +onlyGivenNames x; unfold x; clear x)
    | (extract_lets -underBinder +onlyGivenNames x; revert x; intro _)
    | with_reducible refine State.updLink_only ?_ ?_
    | split
    | with_reducible refine Only.set_sent ?_ ?_
    | (refine fun _ => ?_))

theorem State.slotBody_only {A : Nat} {s₀ : State} {s : State} {j : Fin 12} {extra : Bool} (hS : Only A s₀ s) (hA : Covers 0x403000000100 A) :
    Only.Fst A s₀ (State.slotBody s j extra) := by
  unfold State.slotBody
  repeat' (first
    | with_reducible exact hS
    | with_reducible assumption
    | (with_reducible refine Covers.testBit hA ?_; decide)
    | (with_reducible refine Covers.trans ?_ hA; decide)
    | (refine fun _ => ?_; intros)
    | (extract_lets -underBinder +onlyGivenNames x; refine (fun (hx : Only A s₀ x) => ?_ : Only A s₀ x → _) ?_; (on_goal 2 => unfold x; clear x); (on_goal 1 => clear_value x; revert x; intro _ _))
    | (extract_lets -underBinder +onlyGivenNames x; unfold x; clear x)
    | (extract_lets -underBinder +onlyGivenNames x; revert x; intro _)
    | with_reducible refine Only.ite ?_ ?_
    | with_reducible refine State.updLink_only ?_ ?_
    | with_reducible refine State.putFrame_only ?_ ?_
    | with_reducible refine State.streamFrames_only ?_ ?_
    | with_reducible refine State.firmwareFrames_only ?_ ?_
    | with_reducible refine State.sendPieces_only ?_ ?_
    | with_reducible refine Only.Fst.ite ?_ ?_
    | with_reducible refine Only.Fst.unpair (by assumption)
    | split
    | with_reducible refine Only.Fst.of ?_
    | with_reducible refine Only.Fst.pair ?_
    | with_reducible refine Only.Fst.elim (by assumption) ?_)

theorem State.linkSlot_only {A : Nat} {s₀ : State} {s : State} {l : LinkId} {extra : Bool} (hS : Only A s₀ s) (hA : Covers 0x403000000100 A) :
    Only A s₀ (State.linkSlot s l extra) := by
  unfold State.linkSlot
  repeat' (first
    | with_reducible exact hS
    | with_reducible assumption
    | (with_reducible refine Covers.testBit hA ?_; decide)
    | (with_reducible refine Covers.trans ?_ hA; decide)
    | (extract_lets -underBinder +onlyGivenNames x; refine (fun (hx : Only A s₀ x) => ?_ : Only A s₀ x → _) ?_; (on_goal 2 => unfold x; clear x); (on_goal 1 => clear_value x; revert x; intro _ _))
    | (extract_lets -underBinder +onlyGivenNames x; unfold x; clear x)
    | (extract_lets -underBinder +onlyGivenNames x; revert x; intro _)
    | with_reducible refine Only.ite ?_ ?_
    | with_reducible refine State.slotWord_only ?_ ?_
    | with_reducible refine State.sendWords_only ?_ ?_
    | with_reducible refine State.slotBody_only ?_ ?_
    | with_reducible refine Only.Fst.ite ?_ ?_
    | with_reducible refine Only.Fst.unpair (by assumption)
    | split
    | with_reducible refine Only.Fst.of ?_
    | with_reducible refine Only.Fst.pair ?_
    | with_reducible refine Only.Fst.elim (by assumption) ?_
    | (refine fun _ => ?_))

theorem State.txSend_only {A : Nat} {s₀ : State} {s : State} (hS : Only A s₀ s) (hA : Covers 0x800401000000100 A) :
    Only A s₀ (State.txSend s) := by
  unfold State.txSend
  repeat' (first
    | with_reducible exact hS
    | with_reducible assumption
    | (with_reducible refine Covers.testBit hA ?_; decide)
    | (with_reducible refine Covers.trans ?_ hA; decide)
    | (refine fun _ => ?_; intros)
    | (extract_lets -underBinder +onlyGivenNames x; refine (fun (hx : Only A s₀ x) => ?_ : Only A s₀ x → _) ?_; (on_goal 2 => unfold x; clear x); (on_goal 1 => clear_value x; revert x; intro _ _))
    | (extract_lets -underBinder +onlyGivenNames x; unfold x; clear x)
    | (extract_lets -underBinder +onlyGivenNames x; revert x; intro _)
    | with_reducible refine Only.ite ?_ ?_
    | with_reducible refine State.put_only ?_ ?_
    | with_reducible refine State.err_only ?_ ?_ ?_
    | with_reducible refine State.tookFree_only ?_ ?_
    | with_reducible refine State.updWor_only ?_ ?_
    | with_reducible refine State.publishTx_only ?_ ?_)

theorem State.txAbort_only {A : Nat} {s₀ : State} {s : State} {tag : Nat} (hS : Only A s₀ s) (hA : Covers 0x800400000000100 A) :
    Only A s₀ (State.txAbort s tag) := by
  unfold State.txAbort
  repeat' (first
    | with_reducible exact hS
    | with_reducible assumption
    | (with_reducible refine Covers.testBit hA ?_; decide)
    | (with_reducible refine Covers.trans ?_ hA; decide)
    | (refine fun _ => ?_; intros)
    | with_reducible refine Only.ite ?_ ?_
    | with_reducible refine State.err_only ?_ ?_ ?_
    | with_reducible refine State.setBit_only ?_ ?_
    | with_reducible refine State.updWor_only ?_ ?_
    | with_reducible refine State.publishTx_only ?_ ?_
    | split
    | (refine fun _ => ?_))

theorem State.writeTxCmd_only {A : Nat} {s₀ : State} {s : State} {m : Nat} {v : Nat} (hS : Only A s₀ s) (hA : Covers 0x800401000000100 A) :
    Only A s₀ (State.writeTxCmd s m v) := by
  unfold State.writeTxCmd
  repeat' (first
    | with_reducible exact hS
    | with_reducible assumption
    | (with_reducible refine Covers.testBit hA ?_; decide)
    | (with_reducible refine Covers.trans ?_ hA; decide)
    | (extract_lets -underBinder +onlyGivenNames x; refine (fun (hx : Only A s₀ x) => ?_ : Only A s₀ x → _) ?_; (on_goal 2 => unfold x; clear x); (on_goal 1 => clear_value x; revert x; intro _ _))
    | (extract_lets -underBinder +onlyGivenNames x; unfold x; clear x)
    | (extract_lets -underBinder +onlyGivenNames x; revert x; intro _)
    | with_reducible refine Only.ite ?_ ?_
    | with_reducible refine State.txSend_only ?_ ?_
    | with_reducible refine State.txAbort_only ?_ ?_)

theorem State.writeStream_only {A : Nat} {s₀ : State} {s : State} {r : Nat} {off : Nat} {m : Nat} {v : Nat} (hS : Only A s₀ s) (hA : Covers 0x800000000000100 A) :
    Only A s₀ (State.writeStream s r off m v) := by
  unfold State.writeStream
  repeat' (first
    | with_reducible exact hS
    | with_reducible assumption
    | (with_reducible refine Covers.testBit hA ?_; decide)
    | (with_reducible refine Covers.trans ?_ hA; decide)
    | (with_reducible refine Covers.trans (Covers.trans (pageMask_all _) ?_) hA; decide)
    | (refine fun _ => ?_; intros)
    | (extract_lets -underBinder +onlyGivenNames x; refine (fun (hx : Only A s₀ x) => ?_ : Only A s₀ x → _) ?_; (on_goal 2 => unfold x; clear x); (on_goal 1 => clear_value x; revert x; intro _ _))
    | (extract_lets -underBinder +onlyGivenNames x; unfold x; clear x)
    | (extract_lets -underBinder +onlyGivenNames x; revert x; intro _)
    | with_reducible refine State.err_only ?_ ?_ ?_
    | with_reducible refine State.wrReg_only ?_ ?_
    | with_reducible refine Only.foldl _ ?_ ?_
    | with_reducible refine Only.Fst.ite ?_ ?_
    | with_reducible refine Only.Fst.unpair (by assumption)
    | with_reducible refine Only.Fst.foldl _ ?_ ?_
    | split
    | with_reducible refine Only.Fst.of ?_
    | with_reducible refine Only.Fst.pair ?_
    | with_reducible refine Only.Fst.elim (by assumption) ?_
    | (refine fun _ => ?_))

theorem State.rxDrop_only {A : Nat} {s₀ : State} {s : State} {j : Nat} (hS : Only A s₀ s) (hA : Covers 0x1800000000000100 A) :
    Only A s₀ (State.rxDrop s j) := by
  unfold State.rxDrop
  repeat' (first
    | with_reducible exact hS
    | with_reducible assumption
    | (with_reducible refine Covers.testBit hA ?_; decide)
    | (with_reducible refine Covers.trans ?_ hA; decide)
    | with_reducible refine State.inc_only ?_ ?_ ?_
    | with_reducible refine State.err_only ?_ ?_ ?_)

theorem State.landFrame_only {A : Nat} {s₀ : State} {s : State} {j : Fin 12} {addr : Nat} {payload : List Nat} (hS : Only A s₀ s) (hA : Covers 0x1800400000000100 A) :
    Only A s₀ (State.landFrame s j addr payload) := by
  unfold State.landFrame
  repeat' (first
    | with_reducible exact hS
    | with_reducible assumption
    | (with_reducible refine Covers.testBit hA ?_; decide)
    | (with_reducible refine Covers.trans ?_ hA; decide)
    | (refine fun _ => ?_; intros)
    | (extract_lets -underBinder +onlyGivenNames x; refine (fun (hx : Only A s₀ x) => ?_ : Only A s₀ x → _) ?_; (on_goal 2 => unfold x; clear x); (on_goal 1 => clear_value x; revert x; intro _ _))
    | (extract_lets -underBinder +onlyGivenNames x; unfold x; clear x)
    | (extract_lets -underBinder +onlyGivenNames x; revert x; intro _)
    | with_reducible refine Only.ite ?_ ?_
    | with_reducible refine State.inc_only ?_ ?_ ?_
    | with_reducible refine State.err_only ?_ ?_ ?_
    | with_reducible refine State.updWor_only ?_ ?_
    | with_reducible refine State.rxDrop_only ?_ ?_)

theorem State.storeHalo_only {A : Nat} {s₀ : State} {s : State} {j : Nat} {side : Nat} {p : Nat × Nat} (hS : Only A s₀ s) (hA : Covers 0x1800100000000120 A) :
    Only A s₀ (State.storeHalo s j side p) := by
  unfold State.storeHalo
  repeat' (first
    | with_reducible exact hS
    | with_reducible assumption
    | (with_reducible refine Covers.testBit hA ?_; decide)
    | (with_reducible refine Covers.trans ?_ hA; decide)
    | (extract_lets -underBinder +onlyGivenNames x; refine (fun (hx : Only A s₀ x) => ?_ : Only A s₀ x → _) ?_; (on_goal 2 => unfold x; clear x); (on_goal 1 => clear_value x; revert x; intro _ _))
    | (extract_lets -underBinder +onlyGivenNames x; unfold x; clear x)
    | (extract_lets -underBinder +onlyGivenNames x; revert x; intro _)
    | with_reducible refine State.inc_only ?_ ?_ ?_
    | with_reducible refine State.err_only ?_ ?_ ?_
    | with_reducible refine State.setBit_only ?_ ?_
    | split
    | with_reducible refine Only.set_arr ?_ ?_
    | (refine fun _ => ?_))

theorem State.haloLate_only {A : Nat} {s₀ : State} {s : State} {j : Nat} (hS : Only A s₀ s) (hA : Covers 0x1800000000000100 A) :
    Only A s₀ (State.haloLate s j) := by
  unfold State.haloLate
  repeat' (first
    | with_reducible exact hS
    | with_reducible assumption
    | (with_reducible refine Covers.testBit hA ?_; decide)
    | (with_reducible refine Covers.trans ?_ hA; decide)
    | with_reducible refine State.inc_only ?_ ?_ ?_
    | with_reducible refine State.err_only ?_ ?_ ?_)

theorem State.haloFrame_only {A : Nat} {s₀ : State} {s : State} {j : Fin 12} {payload : List Nat} (hS : Only A s₀ s) (hA : Covers 0x1800500000000120 A) :
    Only A s₀ (State.haloFrame s j payload) := by
  unfold State.haloFrame
  repeat' (first
    | with_reducible exact hS
    | with_reducible assumption
    | (with_reducible refine Covers.testBit hA ?_; decide)
    | (with_reducible refine Covers.trans ?_ hA; decide)
    | (refine fun _ => ?_; intros)
    | (extract_lets -underBinder +onlyGivenNames x; refine (fun (hx : Only A s₀ x) => ?_ : Only A s₀ x → _) ?_; (on_goal 2 => unfold x; clear x); (on_goal 1 => clear_value x; revert x; intro _ _))
    | (extract_lets -underBinder +onlyGivenNames x; unfold x; clear x)
    | (extract_lets -underBinder +onlyGivenNames x; revert x; intro _)
    | with_reducible refine Only.ite ?_ ?_
    | with_reducible refine State.updWor_only ?_ ?_
    | with_reducible refine State.storeHalo_only ?_ ?_
    | with_reducible refine State.haloLate_only ?_ ?_
    | with_reducible refine Only.foldl _ ?_ ?_
    | with_reducible refine Only.Fst.ite ?_ ?_
    | with_reducible refine Only.Fst.unpair (by assumption)
    | with_reducible refine Only.Fst.foldl _ ?_ ?_
    | exact Only.OfRes.trap
    | exact Only.OfRes.held
    | with_reducible refine Only.OfRes.acted ?_
    | with_reducible refine Only.OfRes.ite ?_ ?_
    | split
    | with_reducible refine Only.Fst.of ?_
    | with_reducible refine Only.Fst.pair ?_
    | with_reducible refine Only.Fst.elim (by assumption) ?_
    | with_reducible refine Only.OfRes.elim (by assumption) ?_
    | (refine fun _ => ?_))

theorem State.forwardFrame_only {A : Nat} {s₀ : State} {s : State} {j : Fin 12} {sof : Nat} {payload : List Nat} {room : Bool} (hS : Only A s₀ s) (hA : Covers 0x1800400000000100 A) :
    Only A s₀ (State.forwardFrame s j sof payload room) := by
  unfold State.forwardFrame
  repeat' (first
    | with_reducible exact hS
    | with_reducible assumption
    | (with_reducible refine Covers.testBit hA ?_; decide)
    | (with_reducible refine Covers.trans ?_ hA; decide)
    | (refine fun _ => ?_; intros)
    | with_reducible refine Only.ite ?_ ?_
    | with_reducible refine State.updLink_only ?_ ?_
    | with_reducible refine State.rxDrop_only ?_ ?_
    | split
    | (refine fun _ => ?_))

theorem State.goodFrame_only {A : Nat} {s₀ : State} {s : State} {j : Fin 12} {sof : Nat} {payload : List Nat} {room : Bool} (hS : Only A s₀ s) (hA : Covers 0x1800500000000120 A) :
    Only A s₀ (State.goodFrame s j sof payload room) := by
  unfold State.goodFrame
  repeat' (first
    | with_reducible exact hS
    | with_reducible assumption
    | (with_reducible refine Covers.testBit hA ?_; decide)
    | (with_reducible refine Covers.trans ?_ hA; decide)
    | (extract_lets -underBinder +onlyGivenNames x; refine (fun (hx : Only A s₀ x) => ?_ : Only A s₀ x → _) ?_; (on_goal 2 => unfold x; clear x); (on_goal 1 => clear_value x; revert x; intro _ _))
    | (extract_lets -underBinder +onlyGivenNames x; unfold x; clear x)
    | (extract_lets -underBinder +onlyGivenNames x; revert x; intro _)
    | with_reducible refine Only.ite ?_ ?_
    | with_reducible refine State.landFrame_only ?_ ?_
    | with_reducible refine State.haloFrame_only ?_ ?_
    | with_reducible refine State.forwardFrame_only ?_ ?_
    | split
    | (refine fun _ => ?_))

theorem State.badFrame_only {A : Nat} {s₀ : State} {s : State} {j : Fin 12} (hS : Only A s₀ s) (hA : Covers 0x1800000000000100 A) :
    Only A s₀ (State.badFrame s j) := by
  unfold State.badFrame
  repeat' (first
    | with_reducible exact hS
    | with_reducible assumption
    | (with_reducible refine Covers.testBit hA ?_; decide)
    | (with_reducible refine Covers.trans ?_ hA; decide)
    | with_reducible refine State.inc_only ?_ ?_ ?_
    | with_reducible refine State.linkErr_only ?_ ?_)

theorem State.frameWordIn_only {A : Nat} {s₀ : State} {s : State} {j : Fin 12} {room : Bool} {w : LinkWord} (hS : Only A s₀ s) (hA : Covers 0x1800500000000120 A) :
    Only A s₀ (State.frameWordIn s j room w) := by
  unfold State.frameWordIn
  repeat' (first
    | with_reducible exact hS
    | with_reducible assumption
    | (with_reducible refine Covers.testBit hA ?_; decide)
    | (with_reducible refine Covers.trans ?_ hA; decide)
    | (refine fun _ => ?_; intros)
    | (extract_lets -underBinder +onlyGivenNames x; refine (fun (hx : Only A s₀ x) => ?_ : Only A s₀ x → _) ?_; (on_goal 2 => unfold x; clear x); (on_goal 1 => clear_value x; revert x; intro _ _))
    | (extract_lets -underBinder +onlyGivenNames x; unfold x; clear x)
    | (extract_lets -underBinder +onlyGivenNames x; revert x; intro _)
    | with_reducible refine Only.ite ?_ ?_
    | with_reducible refine State.err_only ?_ ?_ ?_
    | with_reducible refine State.updLink_only ?_ ?_
    | with_reducible refine State.badControl_only ?_ ?_
    | with_reducible refine State.goodFrame_only ?_ ?_
    | with_reducible refine State.badFrame_only ?_ ?_
    | split
    | (refine fun _ => ?_))

theorem State.linkDeliver_only {A : Nat} {s₀ : State} {j : Fin 12} {room : Bool} {v0 : Nat} {v1 : State} (hS : Only A s₀ v1) (hA : Covers 0x1800500000000120 A) :
    Only A s₀ (State.linkDeliver j room v0 v1) := by
  induction v0 generalizing v1 with
  | zero =>
    unfold State.linkDeliver
    repeat' (first
      | with_reducible exact hS
      | with_reducible assumption
      | (with_reducible refine Covers.testBit hA ?_; decide)
      | (with_reducible refine Covers.trans ?_ hA; decide)
      | (refine fun _ => ?_; intros)
      | (extract_lets -underBinder +onlyGivenNames x; refine (fun (hx : Only A s₀ x) => ?_ : Only A s₀ x → _) ?_; (on_goal 2 => unfold x; clear x); (on_goal 1 => clear_value x; revert x; intro _ _))
      | (extract_lets -underBinder +onlyGivenNames x; unfold x; clear x)
      | (extract_lets -underBinder +onlyGivenNames x; revert x; intro _)
      | with_reducible refine State.updLink_only ?_ ?_
      | with_reducible refine State.frameWordIn_only ?_ ?_
      | with_reducible refine Only.Fst.ite ?_ ?_
      | with_reducible refine Only.Fst.unpair (by assumption)
      | split
      | with_reducible refine Only.Fst.of ?_
      | with_reducible refine Only.Fst.pair ?_
      | with_reducible refine Only.Fst.elim (by assumption) ?_
      | (refine fun _ => ?_))
  | succ k ih =>
    unfold State.linkDeliver
    repeat' (first
      | with_reducible exact hS
      | with_reducible assumption
      | (with_reducible refine Covers.testBit hA ?_; decide)
      | (with_reducible refine Covers.trans ?_ hA; decide)
      | with_reducible refine ih ?_
      | (refine fun _ => ?_; intros)
      | (extract_lets -underBinder +onlyGivenNames x; refine (fun (hx : Only A s₀ x) => ?_ : Only A s₀ x → _) ?_; (on_goal 2 => unfold x; clear x); (on_goal 1 => clear_value x; revert x; intro _ _))
      | (extract_lets -underBinder +onlyGivenNames x; unfold x; clear x)
      | (extract_lets -underBinder +onlyGivenNames x; revert x; intro _)
      | with_reducible refine State.updLink_only ?_ ?_
      | with_reducible refine State.frameWordIn_only ?_ ?_
      | with_reducible refine Only.Fst.ite ?_ ?_
      | with_reducible refine Only.Fst.unpair (by assumption)
      | split
      | with_reducible refine Only.Fst.of ?_
      | with_reducible refine Only.Fst.pair ?_
      | with_reducible refine Only.Fst.elim (by assumption) ?_
      | (refine fun _ => ?_))

theorem State.laneWordIn_only {A : Nat} {s₀ : State} {s : State} {j : Fin 12} {room : Bool} {k : Nat} {w : LinkWord} (hS : Only A s₀ s) (hA : Covers 0x1800500000000120 A) :
    Only A s₀ (State.laneWordIn s j room k w) := by
  unfold State.laneWordIn
  repeat' (first
    | with_reducible exact hS
    | with_reducible assumption
    | (with_reducible refine Covers.testBit hA ?_; decide)
    | (with_reducible refine Covers.trans ?_ hA; decide)
    | (refine fun _ => ?_; intros)
    | (extract_lets -underBinder +onlyGivenNames x; refine (fun (hx : Only A s₀ x) => ?_ : Only A s₀ x → _) ?_; (on_goal 2 => unfold x; clear x); (on_goal 1 => clear_value x; revert x; intro _ _))
    | (extract_lets -underBinder +onlyGivenNames x; unfold x; clear x)
    | (extract_lets -underBinder +onlyGivenNames x; revert x; intro _)
    | with_reducible refine Only.ite ?_ ?_
    | with_reducible refine State.updLink_only ?_ ?_
    | with_reducible refine State.linkDeliver_only ?_ ?_)

theorem State.frameIn_only {A : Nat} {s₀ : State} {s : State} {j : Fin 12} {ws : List (Nat × LinkWord)} {room : Bool} (hS : Only A s₀ s) (hA : Covers 0x1800500000000120 A) :
    Only A s₀ (State.frameIn s j ws room) := by
  unfold State.frameIn
  repeat' (first
    | with_reducible exact hS
    | with_reducible assumption
    | (with_reducible refine Covers.testBit hA ?_; decide)
    | (with_reducible refine Covers.trans ?_ hA; decide)
    | (refine fun _ => ?_; intros)
    | with_reducible refine State.laneWordIn_only ?_ ?_
    | with_reducible refine Only.foldl _ ?_ ?_
    | with_reducible refine Only.Fst.ite ?_ ?_
    | with_reducible refine Only.Fst.unpair (by assumption)
    | with_reducible refine Only.Fst.foldl _ ?_ ?_
    | with_reducible refine Only.Fst.of ?_
    | with_reducible refine Only.Fst.pair ?_
    | with_reducible refine Only.Fst.elim (by assumption) ?_)

theorem State.writeHaloDelay_only {A : Nat} {s₀ : State} {s : State} {m : Nat} {v : Nat} (hS : Only A s₀ s) (hA : Covers 0x400000000100 A) :
    Only A s₀ (State.writeHaloDelay s m v) := by
  unfold State.writeHaloDelay
  repeat' (first
    | with_reducible exact hS
    | with_reducible assumption
    | (with_reducible refine Covers.testBit hA ?_; decide)
    | (with_reducible refine Covers.trans ?_ hA; decide)
    | (with_reducible refine Covers.trans (Covers.trans (pageMask_all _) ?_) hA; decide)
    | (refine fun _ => ?_; intros)
    | (extract_lets -underBinder +onlyGivenNames x; refine (fun (hx : Only A s₀ x) => ?_ : Only A s₀ x → _) ?_; (on_goal 2 => unfold x; clear x); (on_goal 1 => clear_value x; revert x; intro _ _))
    | (extract_lets -underBinder +onlyGivenNames x; unfold x; clear x)
    | (extract_lets -underBinder +onlyGivenNames x; revert x; intro _)
    | with_reducible refine State.wrReg_only ?_ ?_
    | with_reducible refine State.updWor_only ?_ ?_)

theorem State.worgaAtBarrier_only {A : Nat} {s₀ : State} {s : State} (hS : Only A s₀ s) (hA : Covers 0x1800500000000120 A) :
    Only A s₀ (State.worgaAtBarrier s) := by
  unfold State.worgaAtBarrier
  repeat' (first
    | with_reducible exact hS
    | with_reducible assumption
    | (with_reducible refine Covers.testBit hA ?_; decide)
    | (with_reducible refine Covers.trans ?_ hA; decide)
    | (refine fun _ => ?_; intros)
    | (extract_lets -underBinder +onlyGivenNames x; refine (fun (hx : Only A s₀ x) => ?_ : Only A s₀ x → _) ?_; (on_goal 2 => unfold x; clear x); (on_goal 1 => clear_value x; revert x; intro _ _))
    | (extract_lets -underBinder +onlyGivenNames x; unfold x; clear x)
    | (extract_lets -underBinder +onlyGivenNames x; revert x; intro _)
    | with_reducible refine Only.ite ?_ ?_
    | with_reducible refine State.updWor_only ?_ ?_
    | with_reducible refine State.publishLinks_only ?_ ?_
    | with_reducible refine State.haloCapture_only ?_ ?_
    | with_reducible refine State.storeHalo_only ?_ ?_
    | with_reducible refine State.haloLate_only ?_ ?_
    | with_reducible refine Only.foldl _ ?_ ?_
    | with_reducible refine Only.Fst.ite ?_ ?_
    | with_reducible refine Only.Fst.unpair (by assumption)
    | with_reducible refine Only.Fst.foldl _ ?_ ?_
    | exact Only.OfRes.trap
    | exact Only.OfRes.held
    | with_reducible refine Only.OfRes.acted ?_
    | with_reducible refine Only.OfRes.ite ?_ ?_
    | with_reducible refine Only.Fst.of ?_
    | with_reducible refine Only.Fst.pair ?_
    | with_reducible refine Only.Fst.elim (by assumption) ?_
    | with_reducible refine Only.OfRes.elim (by assumption) ?_)

theorem State.worgaTimelineLost_only {A : Nat} {s₀ : State} {s : State} (hS : Only A s₀ s) (hA : Covers 0x1800400000000100 A) :
    Only A s₀ (State.worgaTimelineLost s) := by
  unfold State.worgaTimelineLost
  repeat' (first
    | with_reducible exact hS
    | with_reducible assumption
    | (with_reducible refine Covers.testBit hA ?_; decide)
    | (with_reducible refine Covers.trans ?_ hA; decide)
    | (refine fun _ => ?_; intros)
    | (extract_lets -underBinder +onlyGivenNames x; refine (fun (hx : Only A s₀ x) => ?_ : Only A s₀ x → _) ?_; (on_goal 2 => unfold x; clear x); (on_goal 1 => clear_value x; revert x; intro _ _))
    | (extract_lets -underBinder +onlyGivenNames x; unfold x; clear x)
    | (extract_lets -underBinder +onlyGivenNames x; revert x; intro _)
    | with_reducible refine State.updWor_only ?_ ?_
    | with_reducible refine State.haloLate_only ?_ ?_
    | with_reducible refine Only.foldl _ ?_ ?_
    | with_reducible refine Only.Fst.ite ?_ ?_
    | with_reducible refine Only.Fst.unpair (by assumption)
    | with_reducible refine Only.Fst.foldl _ ?_ ?_
    | exact Only.OfRes.trap
    | exact Only.OfRes.held
    | with_reducible refine Only.OfRes.acted ?_
    | with_reducible refine Only.OfRes.ite ?_ ?_
    | with_reducible refine Only.Fst.of ?_
    | with_reducible refine Only.Fst.pair ?_
    | with_reducible refine Only.Fst.elim (by assumption) ?_
    | with_reducible refine Only.OfRes.elim (by assumption) ?_)

end Sys2Proof.Machine
end

