-- ==== Sys2Proof/Laws/OnlyWorgaTree.lean ====
section
/-! SUPPORT. What each operation of Machine/WorgaTree.lean may change. -/

set_option linter.unusedTactic false
set_option linter.unreachableTactic false
set_option linter.unusedVariables false

namespace Sys2Proof.Machine

theorem State.epochApply_only {A : Nat} {s₀ : State} {s : State} (hS : Only A s₀ s) (hA : Covers 0x800410000000102 A) :
    Only A s₀ (State.epochApply s) := by
  unfold State.epochApply
  repeat' (first
    | with_reducible exact hS
    | with_reducible assumption
    | (with_reducible refine Covers.testBit hA ?_; decide)
    | (with_reducible refine Covers.trans ?_ hA; decide)
    | (refine fun _ => ?_; intros)
    | (extract_lets -underBinder +onlyGivenNames x; refine (fun (hx : Only A s₀ x) => ?_ : Only A s₀ x → _) ?_; (on_goal 2 => unfold x; clear x); (on_goal 1 => clear_value x; revert x; intro _ _))
    | (extract_lets -underBinder +onlyGivenNames x; unfold x; clear x)
    | (extract_lets -underBinder +onlyGivenNames x; revert x; intro _)
    | with_reducible refine State.err_only ?_ ?_ ?_
    | with_reducible refine State.arm_only ?_ ?_
    | with_reducible refine State.updWor_only ?_ ?_
    | exact Only.Opt.none
    | with_reducible refine Only.Opt.some ?_
    | with_reducible refine Only.Opt.ite ?_ ?_
    | with_reducible refine Only.Opt.getD ?_ ?_
    | with_reducible refine Only.Opt.map ?_
    | split
    | with_reducible refine Only.Opt.elim (by assumption) ?_
    | (refine fun _ => ?_))

theorem State.epochAbort_only {A : Nat} {s₀ : State} {s : State} (hS : Only A s₀ s) (hA : Covers 0x800010000000102 A) :
    Only A s₀ (State.epochAbort s) := by
  unfold State.epochAbort
  repeat' (first
    | with_reducible exact hS
    | with_reducible assumption
    | (with_reducible refine Covers.testBit hA ?_; decide)
    | (with_reducible refine Covers.trans ?_ hA; decide)
    | with_reducible refine Only.ite ?_ ?_
    | with_reducible refine State.err_only ?_ ?_ ?_
    | with_reducible refine State.disarm_only ?_ ?_)

theorem State.writeWorCmd_only {A : Nat} {s₀ : State} {s : State} {m : Nat} {v : Nat} (hS : Only A s₀ s) (hA : Covers 0x800410000000102 A) :
    Only A s₀ (State.writeWorCmd s m v) := by
  unfold State.writeWorCmd
  repeat' (first
    | with_reducible exact hS
    | with_reducible assumption
    | (with_reducible refine Covers.testBit hA ?_; decide)
    | (with_reducible refine Covers.trans ?_ hA; decide)
    | (extract_lets -underBinder +onlyGivenNames x; refine (fun (hx : Only A s₀ x) => ?_ : Only A s₀ x → _) ?_; (on_goal 2 => unfold x; clear x); (on_goal 1 => clear_value x; revert x; intro _ _))
    | (extract_lets -underBinder +onlyGivenNames x; unfold x; clear x)
    | (extract_lets -underBinder +onlyGivenNames x; revert x; intro _)
    | with_reducible refine Only.ite ?_ ?_
    | with_reducible refine State.epochApply_only ?_ ?_
    | with_reducible refine State.epochAbort_only ?_ ?_)

theorem State.epochFire_only {A : Nat} {s₀ : State} {s : State} (hS : Only A s₀ s) (hA : Covers 0x410000000100 A) :
    Only A s₀ (State.epochFire s) := by
  unfold State.epochFire
  repeat' (first
    | with_reducible exact hS
    | with_reducible assumption
    | (with_reducible refine Covers.testBit hA ?_; decide)
    | (with_reducible refine Covers.trans ?_ hA; decide)
    | (refine fun _ => ?_; intros)
    | with_reducible refine Only.ite ?_ ?_
    | with_reducible refine State.put_only ?_ ?_
    | with_reducible refine State.tookDue_only ?_ ?_
    | with_reducible refine State.updWor_only ?_ ?_)

theorem State.epochCancelled_only {A : Nat} {s₀ : State} {s : State} (hS : Only A s₀ s) (hA : Covers 0x800000000000100 A) :
    Only A s₀ (State.epochCancelled s) := by
  unfold State.epochCancelled
  repeat' (first
    | with_reducible exact hS
    | with_reducible assumption
    | (with_reducible refine Covers.testBit hA ?_; decide)
    | (with_reducible refine Covers.trans ?_ hA; decide)
    | with_reducible refine State.err_only ?_ ?_ ?_)

theorem State.writeTree_only {A : Nat} {s₀ : State} {s : State} {off : Nat} {m : Nat} {v : Nat} (hS : Only A s₀ s) (hA : Covers 0x800000000000100 A) :
    Only A s₀ (State.writeTree s off m v) := by
  unfold State.writeTree
  repeat' (first
    | with_reducible exact hS
    | with_reducible assumption
    | (with_reducible refine Covers.testBit hA ?_; decide)
    | (with_reducible refine Covers.trans ?_ hA; decide)
    | (with_reducible refine Covers.trans (Covers.trans (pageMask_all _) ?_) hA; decide)
    | (extract_lets -underBinder +onlyGivenNames x; refine (fun (hx : Only A s₀ x) => ?_ : Only A s₀ x → _) ?_; (on_goal 2 => unfold x; clear x); (on_goal 1 => clear_value x; revert x; intro _ _))
    | (extract_lets -underBinder +onlyGivenNames x; unfold x; clear x)
    | (extract_lets -underBinder +onlyGivenNames x; revert x; intro _)
    | with_reducible refine Only.ite ?_ ?_
    | with_reducible refine State.err_only ?_ ?_ ?_
    | with_reducible refine State.wrReg_only ?_ ?_)

theorem State.writeTreeWait_only {A : Nat} {s₀ : State} {s : State} {m : Nat} {v : Nat} (hS : Only A s₀ s) (hA : Covers 0x100 A) :
    Only A s₀ (State.writeTreeWait s m v) := by
  unfold State.writeTreeWait
  repeat' (first
    | with_reducible exact hS
    | with_reducible assumption
    | (with_reducible refine Covers.testBit hA ?_; decide)
    | (with_reducible refine Covers.trans ?_ hA; decide)
    | (with_reducible refine Covers.trans (Covers.trans (pageMask_all _) ?_) hA; decide)
    | (extract_lets -underBinder +onlyGivenNames x; refine (fun (hx : Only A s₀ x) => ?_ : Only A s₀ x → _) ?_; (on_goal 2 => unfold x; clear x); (on_goal 1 => clear_value x; revert x; intro _ _))
    | (extract_lets -underBinder +onlyGivenNames x; unfold x; clear x)
    | (extract_lets -underBinder +onlyGivenNames x; revert x; intro _)
    | with_reducible refine State.put_only ?_ ?_
    | with_reducible refine State.wrReg_only ?_ ?_)

theorem State.treeDrop_only {A : Nat} {s₀ : State} {s : State} (hS : Only A s₀ s) (hA : Covers 0x1000000000000100 A) :
    Only A s₀ (State.treeDrop s) := by
  unfold State.treeDrop
  repeat' (first
    | with_reducible exact hS
    | with_reducible assumption
    | (with_reducible refine Covers.testBit hA ?_; decide)
    | (with_reducible refine Covers.trans ?_ hA; decide)
    | with_reducible refine State.inc_only ?_ ?_ ?_)

theorem State.treeLate_only {A : Nat} {s₀ : State} {s : State} (hS : Only A s₀ s) (hA : Covers 0x1000000000000100 A) :
    Only A s₀ (State.treeLate s) := by
  unfold State.treeLate
  repeat' (first
    | with_reducible exact hS
    | with_reducible assumption
    | (with_reducible refine Covers.testBit hA ?_; decide)
    | (with_reducible refine Covers.trans ?_ hA; decide)
    | with_reducible refine State.inc_only ?_ ?_ ?_)

theorem State.openTreeKey_only {A : Nat} {s₀ : State} {s : State} {k : TreeKey} (hS : Only A s₀ s) (hA : Covers 0x1000400000000100 A) :
    Only.Fst A s₀ (State.openTreeKey s k) := by
  unfold State.openTreeKey
  repeat' (first
    | with_reducible exact hS
    | with_reducible assumption
    | (with_reducible refine Covers.testBit hA ?_; decide)
    | (with_reducible refine Covers.trans ?_ hA; decide)
    | (refine fun _ => ?_; intros)
    | with_reducible refine Only.ite ?_ ?_
    | with_reducible refine State.updWor_only ?_ ?_
    | with_reducible refine State.treeDrop_only ?_ ?_
    | with_reducible refine State.treeLate_only ?_ ?_
    | with_reducible refine Only.Fst.ite ?_ ?_
    | with_reducible refine Only.Fst.unpair (by assumption)
    | with_reducible refine Only.Fst.of ?_
    | with_reducible refine Only.Fst.pair ?_
    | with_reducible refine Only.Fst.elim (by assumption) ?_)

theorem State.updKey_only {A : Nat} {s₀ : State} {s : State} {k : TreeKey} {f : OpenKey → OpenKey} (hS : Only A s₀ s) (hA : Covers 0x400000000000 A) :
    Only A s₀ (State.updKey s k f) := by
  unfold State.updKey
  repeat' (first
    | with_reducible exact hS
    | with_reducible assumption
    | (with_reducible refine Covers.testBit hA ?_; decide)
    | (with_reducible refine Covers.trans ?_ hA; decide)
    | (refine fun _ => ?_; intros)
    | with_reducible refine Only.ite ?_ ?_
    | with_reducible refine State.updWor_only ?_ ?_)

theorem State.ownKey_only {A : Nat} {s₀ : State} {s : State} {serial : Nat} {addr : Nat} (hS : Only A s₀ s) (hA : Covers 0x1000000000 A) :
    Only.Fst A s₀ (State.ownKey s serial addr) := by
  unfold State.ownKey
  repeat' (first
    | with_reducible exact hS
    | with_reducible assumption
    | (with_reducible refine Covers.testBit hA ?_; decide)
    | (with_reducible refine Covers.trans ?_ hA; decide)
    | (refine fun _ => ?_; intros)
    | with_reducible refine State.tookFree_only ?_ ?_
    | with_reducible refine Only.Fst.ite ?_ ?_
    | with_reducible refine Only.Fst.unpair (by assumption)
    | split
    | with_reducible refine Only.Fst.of ?_
    | with_reducible refine Only.Fst.pair ?_
    | with_reducible refine Only.Fst.elim (by assumption) ?_
    | (refine fun _ => ?_))

theorem State.ownResult_only {A : Nat} {s₀ : State} {s : State} {t : Nat} (hS : Only A s₀ s) (hA : Covers 0x1000601400000100 A) :
    Only A s₀ (State.ownResult s t) := by
  unfold State.ownResult
  repeat' (first
    | with_reducible exact hS
    | with_reducible assumption
    | (with_reducible refine Covers.testBit hA ?_; decide)
    | (with_reducible refine Covers.trans ?_ hA; decide)
    | (refine fun _ => ?_; intros)
    | (extract_lets -underBinder +onlyGivenNames x; refine (fun (hx : Only A s₀ x) => ?_ : Only A s₀ x → _) ?_; (on_goal 2 => unfold x; clear x); (on_goal 1 => clear_value x; revert x; intro _ _))
    | (extract_lets -underBinder +onlyGivenNames x; unfold x; clear x)
    | (extract_lets -underBinder +onlyGivenNames x; revert x; intro _)
    | with_reducible refine Only.ite ?_ ?_
    | with_reducible refine State.at_only ?_ ?_
    | with_reducible refine State.updSeq_only ?_ ?_
    | with_reducible refine State.treeDrop_only ?_ ?_
    | with_reducible refine State.openTreeKey_only ?_ ?_
    | with_reducible refine State.updKey_only ?_ ?_
    | with_reducible refine State.ownKey_only ?_ ?_
    | with_reducible refine Only.Fst.ite ?_ ?_
    | with_reducible refine Only.Fst.unpair (by assumption)
    | split
    | with_reducible refine Only.Fst.of ?_
    | with_reducible refine Only.Fst.pair ?_
    | with_reducible refine Only.Fst.elim (by assumption) ?_
    | (refine fun _ => ?_))

theorem State.childCell_only {A : Nat} {s₀ : State} {s : State} {n : Fin 48} {c : Cell} {t : Nat} (hS : Only A s₀ s) (hA : Covers 0x1000400400000100 A) :
    Only A s₀ (State.childCell s n c t) := by
  unfold State.childCell
  repeat' (first
    | with_reducible exact hS
    | with_reducible assumption
    | (with_reducible refine Covers.testBit hA ?_; decide)
    | (with_reducible refine Covers.trans ?_ hA; decide)
    | (refine fun _ => ?_; intros)
    | (extract_lets -underBinder +onlyGivenNames x; refine (fun (hx : Only A s₀ x) => ?_ : Only A s₀ x → _) ?_; (on_goal 2 => unfold x; clear x); (on_goal 1 => clear_value x; revert x; intro _ _))
    | (extract_lets -underBinder +onlyGivenNames x; unfold x; clear x)
    | (extract_lets -underBinder +onlyGivenNames x; revert x; intro _)
    | with_reducible refine Only.ite ?_ ?_
    | with_reducible refine State.at_only ?_ ?_
    | with_reducible refine State.openTreeKey_only ?_ ?_
    | with_reducible refine State.updKey_only ?_ ?_
    | with_reducible refine Only.Fst.ite ?_ ?_
    | with_reducible refine Only.Fst.unpair (by assumption)
    | split
    | with_reducible refine Only.Fst.of ?_
    | with_reducible refine Only.Fst.pair ?_
    | with_reducible refine Only.Fst.elim (by assumption) ?_)

theorem State.deliver_only {A : Nat} {s₀ : State} {s : State} {c : Cell} (hS : Only A s₀ s) (hA : Covers 0x1000400000000100 A) :
    Only A s₀ (State.deliver s c) := by
  unfold State.deliver
  repeat' (first
    | with_reducible exact hS
    | with_reducible assumption
    | (with_reducible refine Covers.testBit hA ?_; decide)
    | (with_reducible refine Covers.trans ?_ hA; decide)
    | (refine fun _ => ?_; intros)
    | (extract_lets -underBinder +onlyGivenNames x; refine (fun (hx : Only A s₀ x) => ?_ : Only A s₀ x → _) ?_; (on_goal 2 => unfold x; clear x); (on_goal 1 => clear_value x; revert x; intro _ _))
    | (extract_lets -underBinder +onlyGivenNames x; unfold x; clear x)
    | (extract_lets -underBinder +onlyGivenNames x; revert x; intro _)
    | with_reducible refine State.put_only ?_ ?_
    | with_reducible refine State.inc_only ?_ ?_ ?_
    | with_reducible refine State.updWor_only ?_ ?_)

theorem State.sendCell_only {A : Nat} {s₀ : State} {s : State} {n : Fin 48} {c : Cell} {dir : Nat} (hS : Only A s₀ s) (hA : Covers 0x2000000000 A) :
    Only A s₀ (State.sendCell s n c dir) := by
  unfold State.sendCell
  repeat' (first
    | with_reducible exact hS
    | with_reducible assumption
    | (with_reducible refine Covers.testBit hA ?_; decide)
    | (with_reducible refine Covers.trans ?_ hA; decide)
    | with_reducible refine Only.set_sent ?_ ?_)

theorem State.sendUp_only {A : Nat} {s₀ : State} {s : State} {n : Fin 48} {c : Cell} (hS : Only A s₀ s) (hA : Covers 0x2000000000 A) :
    Only A s₀ (State.sendUp s n c) := by
  unfold State.sendUp
  repeat' (first
    | with_reducible exact hS
    | with_reducible assumption
    | (with_reducible refine Covers.testBit hA ?_; decide)
    | (with_reducible refine Covers.trans ?_ hA; decide)
    | with_reducible refine Only.ite ?_ ?_
    | with_reducible refine State.sendCell_only ?_ ?_)

theorem State.sendDown_only {A : Nat} {s₀ : State} {s : State} {c : Cell} (hS : Only A s₀ s) (hA : Covers 0x2000000000 A) :
    Only A s₀ (State.sendDown s c) := by
  unfold State.sendDown
  repeat' (first
    | with_reducible exact hS
    | with_reducible assumption
    | (with_reducible refine Covers.testBit hA ?_; decide)
    | (with_reducible refine Covers.trans ?_ hA; decide)
    | (refine fun _ => ?_; intros)
    | with_reducible refine State.sendCell_only ?_ ?_
    | with_reducible refine Only.foldl _ ?_ ?_
    | with_reducible refine Only.Fst.ite ?_ ?_
    | with_reducible refine Only.Fst.unpair (by assumption)
    | with_reducible refine Only.Fst.foldl _ ?_ ?_
    | with_reducible refine Only.Fst.of ?_
    | with_reducible refine Only.Fst.pair ?_
    | with_reducible refine Only.Fst.elim (by assumption) ?_)

theorem State.closeKey_only {A : Nat} {s₀ : State} {s : State} {i : Nat} {t : Nat} (hS : Only A s₀ s) (hA : Covers 0x1000402400000100 A) :
    Only A s₀ (State.closeKey s i t) := by
  unfold State.closeKey
  repeat' (first
    | with_reducible exact hS
    | with_reducible assumption
    | (with_reducible refine Covers.testBit hA ?_; decide)
    | (with_reducible refine Covers.trans ?_ hA; decide)
    | (refine fun _ => ?_; intros)
    | (extract_lets -underBinder +onlyGivenNames x; refine (fun (hx : Only A s₀ x) => ?_ : Only A s₀ x → _) ?_; (on_goal 2 => unfold x; clear x); (on_goal 1 => clear_value x; revert x; intro _ _))
    | (extract_lets -underBinder +onlyGivenNames x; unfold x; clear x)
    | (extract_lets -underBinder +onlyGivenNames x; revert x; intro _)
    | with_reducible refine Only.ite ?_ ?_
    | with_reducible refine State.at_only ?_ ?_
    | with_reducible refine State.updWor_only ?_ ?_
    | with_reducible refine State.deliver_only ?_ ?_
    | with_reducible refine State.sendUp_only ?_ ?_
    | with_reducible refine State.sendDown_only ?_ ?_
    | split
    | (refine fun _ => ?_))

theorem State.cellIn_only {A : Nat} {s₀ : State} {s : State} {n : Fin 48} {w0 : Nat} {w1 : Nat} {w2 : Nat} {t : Nat} (hS : Only A s₀ s) (hA : Covers 0x1800402400000100 A) :
    Only A s₀ (State.cellIn s n w0 w1 w2 t) := by
  unfold State.cellIn
  repeat' (first
    | with_reducible exact hS
    | with_reducible assumption
    | (with_reducible refine Covers.testBit hA ?_; decide)
    | (with_reducible refine Covers.trans ?_ hA; decide)
    | (extract_lets -underBinder +onlyGivenNames x; refine (fun (hx : Only A s₀ x) => ?_ : Only A s₀ x → _) ?_; (on_goal 2 => unfold x; clear x); (on_goal 1 => clear_value x; revert x; intro _ _))
    | (extract_lets -underBinder +onlyGivenNames x; unfold x; clear x)
    | (extract_lets -underBinder +onlyGivenNames x; revert x; intro _)
    | with_reducible refine Only.ite ?_ ?_
    | with_reducible refine State.inc_only ?_ ?_ ?_
    | with_reducible refine State.at_only ?_ ?_
    | with_reducible refine State.linkErr_only ?_ ?_
    | with_reducible refine State.badControl_only ?_ ?_
    | with_reducible refine State.childCell_only ?_ ?_
    | with_reducible refine State.deliver_only ?_ ?_
    | with_reducible refine State.sendDown_only ?_ ?_
    | split
    | (refine fun _ => ?_))

theorem State.latchSys_only {A : Nat} {s₀ : State} {s : State} (hS : Only A s₀ s) (hA : Covers 0x100 A) :
    Only A s₀ (State.latchSys s) := by
  unfold State.latchSys
  repeat' (first
    | with_reducible exact hS
    | with_reducible assumption
    | (with_reducible refine Covers.testBit hA ?_; decide)
    | (with_reducible refine Covers.trans ?_ hA; decide)
    | (extract_lets -underBinder +onlyGivenNames x; refine (fun (hx : Only A s₀ x) => ?_ : Only A s₀ x → _) ?_; (on_goal 2 => unfold x; clear x); (on_goal 1 => clear_value x; revert x; intro _ _))
    | (extract_lets -underBinder +onlyGivenNames x; unfold x; clear x)
    | (extract_lets -underBinder +onlyGivenNames x; revert x; intro _)
    | with_reducible refine State.put_only ?_ ?_)

theorem State.writeWor_only {A : Nat} {s₀ : State} {s : State} {off : Nat} {m : Nat} {v : Nat} (hS : Only A s₀ s) (hA : Covers 0x800411000000102 A) :
    Only A s₀ (State.writeWor s off m v) := by
  unfold State.writeWor
  repeat' (first
    | with_reducible exact hS
    | with_reducible assumption
    | (with_reducible refine Covers.testBit hA ?_; decide)
    | (with_reducible refine Covers.trans ?_ hA; decide)
    | (with_reducible refine Covers.trans (Covers.trans (pageMask_all _) ?_) hA; decide)
    | with_reducible refine Only.ite ?_ ?_
    | with_reducible refine State.wrReg_only ?_ ?_
    | with_reducible refine State.writeWorAddr_only ?_ ?_
    | with_reducible refine State.writeLinkCfg_only ?_ ?_
    | with_reducible refine State.writeTxCmd_only ?_ ?_
    | with_reducible refine State.writeStream_only ?_ ?_
    | with_reducible refine State.writeHaloDelay_only ?_ ?_
    | with_reducible refine State.writeWorCmd_only ?_ ?_
    | with_reducible refine State.writeTree_only ?_ ?_
    | with_reducible refine State.writeTreeWait_only ?_ ?_
    | split
    | (refine fun _ => ?_))

end Sys2Proof.Machine
end

