-- ==== Sys2Proof/Laws/OnlyReadoutPorts.lean ====
section
/-! SUPPORT. What each operation of Machine/ReadoutPorts.lean may change. -/

set_option linter.unusedTactic false
set_option linter.unreachableTactic false
set_option linter.unusedVariables false

namespace Sys2Proof.Machine

theorem State.updPort_only {A : Nat} {s₀ : State} {s : State} {k : Nat} {f : Port → Port} (hS : Only A s₀ s) (hA : Covers 0x1000000000000 A) :
    Only A s₀ (State.updPort s k f) := by
  unfold State.updPort
  repeat' (first
    | with_reducible exact hS
    | with_reducible assumption
    | (with_reducible refine Covers.testBit hA ?_; decide)
    | (with_reducible refine Covers.trans ?_ hA; decide)
    | (refine fun _ => ?_; intros)
    | with_reducible refine State.updRdo_only ?_ ?_)

theorem State.sendEther_only {A : Nat} {s₀ : State} {s : State} {k : Nat} {bs : List (BitVec 8)} (hS : Only A s₀ s) (hA : Covers 0x2000000000 A) :
    Only A s₀ (State.sendEther s k bs) := by
  unfold State.sendEther
  repeat' (first
    | with_reducible exact hS
    | with_reducible assumption
    | (with_reducible refine Covers.testBit hA ?_; decide)
    | (with_reducible refine Covers.trans ?_ hA; decide)
    | with_reducible refine Only.set_sent ?_ ?_)

theorem State.portsChanged_only {A : Nat} {s₀ : State} {s : State} {before : Nat} (hS : Only A s₀ s) (hA : Covers 0x800000000000400 A) :
    Only A s₀ (State.portsChanged s before) := by
  unfold State.portsChanged
  repeat' (first
    | with_reducible exact hS
    | with_reducible assumption
    | (with_reducible refine Covers.testBit hA ?_; decide)
    | (with_reducible refine Covers.trans ?_ hA; decide)
    | with_reducible refine Only.ite ?_ ?_
    | with_reducible refine State.err_only ?_ ?_ ?_
    | with_reducible refine State.publishRdo_only ?_ ?_)

theorem State.putPort_only {A : Nat} {s₀ : State} {s : State} {k : Nat} {v : Nat} (hS : Only A s₀ s) (hA : Covers 0x800000000000400 A) :
    Only A s₀ (State.putPort s k v) := by
  unfold State.putPort
  repeat' (first
    | with_reducible exact hS
    | with_reducible assumption
    | (with_reducible refine Covers.testBit hA ?_; decide)
    | (with_reducible refine Covers.trans ?_ hA; decide)
    | (extract_lets -underBinder +onlyGivenNames x; refine (fun (hx : Only A s₀ x) => ?_ : Only A s₀ x → _) ?_; (on_goal 2 => unfold x; clear x); (on_goal 1 => clear_value x; revert x; intro _ _))
    | (extract_lets -underBinder +onlyGivenNames x; unfold x; clear x)
    | (extract_lets -underBinder +onlyGivenNames x; revert x; intro _)
    | with_reducible refine State.put_only ?_ ?_
    | with_reducible refine State.portsChanged_only ?_ ?_)

theorem State.portEval_only {A : Nat} {s₀ : State} {s : State} {k : Nat} (hS : Only A s₀ s) (hA : Covers 0x800000000000400 A) :
    Only A s₀ (State.portEval s k) := by
  unfold State.portEval
  repeat' (first
    | with_reducible exact hS
    | with_reducible assumption
    | (with_reducible refine Covers.testBit hA ?_; decide)
    | (with_reducible refine Covers.trans ?_ hA; decide)
    | (extract_lets -underBinder +onlyGivenNames x; refine (fun (hx : Only A s₀ x) => ?_ : Only A s₀ x → _) ?_; (on_goal 2 => unfold x; clear x); (on_goal 1 => clear_value x; revert x; intro _ _))
    | (extract_lets -underBinder +onlyGivenNames x; unfold x; clear x)
    | (extract_lets -underBinder +onlyGivenNames x; revert x; intro _)
    | with_reducible refine Only.ite ?_ ?_
    | with_reducible refine State.putPort_only ?_ ?_)

theorem State.portDown_only {A : Nat} {s₀ : State} {s : State} {k : Nat} (hS : Only A s₀ s) (hA : Covers 0x801000000000400 A) :
    Only A s₀ (State.portDown s k) := by
  unfold State.portDown
  repeat' (first
    | with_reducible exact hS
    | with_reducible assumption
    | (with_reducible refine Covers.testBit hA ?_; decide)
    | (with_reducible refine Covers.trans ?_ hA; decide)
    | (refine fun _ => ?_; intros)
    | (extract_lets -underBinder +onlyGivenNames x; refine (fun (hx : Only A s₀ x) => ?_ : Only A s₀ x → _) ?_; (on_goal 2 => unfold x; clear x); (on_goal 1 => clear_value x; revert x; intro _ _))
    | (extract_lets -underBinder +onlyGivenNames x; unfold x; clear x)
    | (extract_lets -underBinder +onlyGivenNames x; revert x; intro _)
    | with_reducible refine Only.ite ?_ ?_
    | with_reducible refine State.err_only ?_ ?_ ?_
    | with_reducible refine State.updPort_only ?_ ?_
    | with_reducible refine State.putPort_only ?_ ?_)

theorem State.writePortCfg_only {A : Nat} {s₀ : State} {s : State} {k : Nat} {m : Nat} {v : Nat} (hS : Only A s₀ s) (hA : Covers 0x801000000000500 A) :
    Only A s₀ (State.writePortCfg s k m v) := by
  unfold State.writePortCfg
  repeat' (first
    | with_reducible exact hS
    | with_reducible assumption
    | (with_reducible refine Covers.testBit hA ?_; decide)
    | (with_reducible refine Covers.trans ?_ hA; decide)
    | (with_reducible refine Covers.trans (Covers.trans (pageMask_all _) ?_) hA; decide)
    | (extract_lets -underBinder +onlyGivenNames x; refine (fun (hx : Only A s₀ x) => ?_ : Only A s₀ x → _) ?_; (on_goal 2 => unfold x; clear x); (on_goal 1 => clear_value x; revert x; intro _ _))
    | (extract_lets -underBinder +onlyGivenNames x; unfold x; clear x)
    | (extract_lets -underBinder +onlyGivenNames x; revert x; intro _)
    | with_reducible refine Only.ite ?_ ?_
    | with_reducible refine State.err_only ?_ ?_ ?_
    | with_reducible refine State.wrReg_only ?_ ?_
    | with_reducible refine State.putPort_only ?_ ?_
    | with_reducible refine State.portDown_only ?_ ?_)

theorem State.portLinkUp_only {A : Nat} {s₀ : State} {s : State} {k : Nat} (hS : Only A s₀ s) (hA : Covers 0x800002000000400 A) :
    Only A s₀ (State.portLinkUp s k) := by
  unfold State.portLinkUp
  repeat' (first
    | with_reducible exact hS
    | with_reducible assumption
    | (with_reducible refine Covers.testBit hA ?_; decide)
    | (with_reducible refine Covers.trans ?_ hA; decide)
    | (extract_lets -underBinder +onlyGivenNames x; refine (fun (hx : Only A s₀ x) => ?_ : Only A s₀ x → _) ?_; (on_goal 2 => unfold x; clear x); (on_goal 1 => clear_value x; revert x; intro _ _))
    | (extract_lets -underBinder +onlyGivenNames x; unfold x; clear x)
    | (extract_lets -underBinder +onlyGivenNames x; revert x; intro _)
    | with_reducible refine Only.ite ?_ ?_
    | with_reducible refine State.sendEther_only ?_ ?_
    | with_reducible refine State.putPort_only ?_ ?_
    | with_reducible refine State.portEval_only ?_ ?_)

theorem State.portPcsLoss_only {A : Nat} {s₀ : State} {s : State} {k : Nat} (hS : Only A s₀ s) (hA : Covers 0x801000000000400 A) :
    Only A s₀ (State.portPcsLoss s k) := by
  unfold State.portPcsLoss
  repeat' (first
    | with_reducible exact hS
    | with_reducible assumption
    | (with_reducible refine Covers.testBit hA ?_; decide)
    | (with_reducible refine Covers.trans ?_ hA; decide)
    | with_reducible refine Only.ite ?_ ?_
    | with_reducible refine State.portDown_only ?_ ?_)

theorem State.arpTimer_only {A : Nat} {s₀ : State} {s : State} {k : Nat} (hS : Only A s₀ s) (hA : Covers 0x2000000000 A) :
    Only A s₀ (State.arpTimer s k) := by
  unfold State.arpTimer
  repeat' (first
    | with_reducible exact hS
    | with_reducible assumption
    | (with_reducible refine Covers.testBit hA ?_; decide)
    | (with_reducible refine Covers.trans ?_ hA; decide)
    | with_reducible refine Only.ite ?_ ?_
    | with_reducible refine State.sendEther_only ?_ ?_)

theorem State.arpTimeout_only {A : Nat} {s₀ : State} {s : State} {k : Nat} (hS : Only A s₀ s) (hA : Covers 0x801000000000400 A) :
    Only A s₀ (State.arpTimeout s k) := by
  unfold State.arpTimeout
  repeat' (first
    | with_reducible exact hS
    | with_reducible assumption
    | (with_reducible refine Covers.testBit hA ?_; decide)
    | (with_reducible refine Covers.trans ?_ hA; decide)
    | (refine fun _ => ?_; intros)
    | with_reducible refine Only.ite ?_ ?_
    | with_reducible refine State.err_only ?_ ?_ ?_
    | with_reducible refine State.updPort_only ?_ ?_
    | with_reducible refine State.portEval_only ?_ ?_)

theorem State.portDiscard_only {A : Nat} {s₀ : State} {s : State} {k : Nat} (hS : Only A s₀ s) (hA : Covers 0x1000000000000400 A) :
    Only A s₀ (State.portDiscard s k) := by
  unfold State.portDiscard
  repeat' (first
    | with_reducible exact hS
    | with_reducible assumption
    | (with_reducible refine Covers.testBit hA ?_; decide)
    | (with_reducible refine Covers.trans ?_ hA; decide)
    | with_reducible refine State.inc_only ?_ ?_ ?_)

theorem State.arpReply_only {A : Nat} {s₀ : State} {s : State} {k : Nat} {ip : Nat} {mac : Nat} {target : Nat} (hS : Only A s₀ s) (hA : Covers 0x1801000000000400 A) :
    Only A s₀ (State.arpReply s k ip mac target) := by
  unfold State.arpReply
  repeat' (first
    | with_reducible exact hS
    | with_reducible assumption
    | (with_reducible refine Covers.testBit hA ?_; decide)
    | (with_reducible refine Covers.trans ?_ hA; decide)
    | (refine fun _ => ?_; intros)
    | with_reducible refine Only.ite ?_ ?_
    | with_reducible refine State.updPort_only ?_ ?_
    | with_reducible refine State.portEval_only ?_ ?_
    | with_reducible refine State.portDiscard_only ?_ ?_)

theorem State.arpRequest_only {A : Nat} {s₀ : State} {s : State} {k : Nat} {ip : Nat} {mac : Nat} {target : Nat} (hS : Only A s₀ s) (hA : Covers 0x1000002000000400 A) :
    Only A s₀ (State.arpRequest s k ip mac target) := by
  unfold State.arpRequest
  repeat' (first
    | with_reducible exact hS
    | with_reducible assumption
    | (with_reducible refine Covers.testBit hA ?_; decide)
    | (with_reducible refine Covers.trans ?_ hA; decide)
    | with_reducible refine Only.ite ?_ ?_
    | with_reducible refine State.sendEther_only ?_ ?_
    | with_reducible refine State.portDiscard_only ?_ ?_)

theorem State.takeIdent_only {A : Nat} {s₀ : State} {s : State} {k : Nat} (hS : Only A s₀ s) (hA : Covers 0x1000000000000 A) :
    Only.Snd A s₀ (State.takeIdent s k) := by
  unfold State.takeIdent
  repeat' (first
    | with_reducible exact hS
    | with_reducible assumption
    | (with_reducible refine Covers.testBit hA ?_; decide)
    | (with_reducible refine Covers.trans ?_ hA; decide)
    | (refine fun _ => ?_; intros)
    | with_reducible refine State.updPort_only ?_ ?_
    | with_reducible refine Only.Snd.ite ?_ ?_
    | with_reducible refine Only.Snd.of ?_
    | with_reducible refine Only.Snd.pair ?_
    | with_reducible refine Only.Snd.elim (by assumption) ?_)

theorem State.sendIp_only {A : Nat} {s₀ : State} {s : State} {k : Nat} {mac : Nat} {dst : Nat} {proto : Nat} {payload : List (BitVec 8)} (hS : Only A s₀ s) (hA : Covers 0x1002000000000 A) :
    Only A s₀ (State.sendIp s k mac dst proto payload) := by
  unfold State.sendIp
  repeat' (first
    | with_reducible exact hS
    | with_reducible assumption
    | (with_reducible refine Covers.testBit hA ?_; decide)
    | (with_reducible refine Covers.trans ?_ hA; decide)
    | (extract_lets -underBinder +onlyGivenNames x; refine (fun (hx : Only A s₀ x) => ?_ : Only A s₀ x → _) ?_; (on_goal 2 => unfold x; clear x); (on_goal 1 => clear_value x; revert x; intro _ _))
    | (extract_lets -underBinder +onlyGivenNames x; unfold x; clear x)
    | (extract_lets -underBinder +onlyGivenNames x; revert x; intro _)
    | with_reducible refine State.sendEther_only ?_ ?_
    | with_reducible refine State.takeIdent_only ?_ ?_
    | with_reducible refine Only.Snd.ite ?_ ?_
    | split
    | with_reducible refine Only.Snd.of ?_
    | with_reducible refine Only.Snd.pair ?_
    | with_reducible refine Only.Snd.elim (by assumption) ?_)

theorem State.icmpEcho_only {A : Nat} {s₀ : State} {s : State} {k : Nat} {t : Nat} {mac : Nat} {ip : Nat} {target : Nat} {rest : List (BitVec 8)} (hS : Only A s₀ s) (hA : Covers 0x1001002400000400 A) :
    Only A s₀ (State.icmpEcho s k t mac ip target rest) := by
  unfold State.icmpEcho
  repeat' (first
    | with_reducible exact hS
    | with_reducible assumption
    | (with_reducible refine Covers.testBit hA ?_; decide)
    | (with_reducible refine Covers.trans ?_ hA; decide)
    | (refine fun _ => ?_; intros)
    | (extract_lets -underBinder +onlyGivenNames x; refine (fun (hx : Only A s₀ x) => ?_ : Only A s₀ x → _) ?_; (on_goal 2 => unfold x; clear x); (on_goal 1 => clear_value x; revert x; intro _ _))
    | (extract_lets -underBinder +onlyGivenNames x; unfold x; clear x)
    | (extract_lets -underBinder +onlyGivenNames x; revert x; intro _)
    | with_reducible refine Only.ite ?_ ?_
    | with_reducible refine State.at_only ?_ ?_
    | with_reducible refine State.updPort_only ?_ ?_
    | with_reducible refine State.portDiscard_only ?_ ?_
    | with_reducible refine State.sendIp_only ?_ ?_)

theorem State.portOther_only {A : Nat} {s₀ : State} {s : State} {k : Nat} {bad : Nat} (hS : Only A s₀ s) (hA : Covers 0x1000000000000400 A) :
    Only A s₀ (State.portOther s k bad) := by
  unfold State.portOther
  repeat' (first
    | with_reducible exact hS
    | with_reducible assumption
    | (with_reducible refine Covers.testBit hA ?_; decide)
    | (with_reducible refine Covers.trans ?_ hA; decide)
    | with_reducible refine Only.ite ?_ ?_
    | with_reducible refine State.add_only ?_ ?_ ?_
    | with_reducible refine State.portDiscard_only ?_ ?_)

theorem State.sendUdp_only {A : Nat} {s₀ : State} {s : State} {k : Nat} {data : List (BitVec 8)} (hS : Only A s₀ s) (hA : Covers 0x1001002000000400 A) :
    Only A s₀ (State.sendUdp s k data) := by
  unfold State.sendUdp
  repeat' (first
    | with_reducible exact hS
    | with_reducible assumption
    | (with_reducible refine Covers.testBit hA ?_; decide)
    | (with_reducible refine Covers.trans ?_ hA; decide)
    | (extract_lets -underBinder +onlyGivenNames x; refine (fun (hx : Only A s₀ x) => ?_ : Only A s₀ x → _) ?_; (on_goal 2 => unfold x; clear x); (on_goal 1 => clear_value x; revert x; intro _ _))
    | (extract_lets -underBinder +onlyGivenNames x; unfold x; clear x)
    | (extract_lets -underBinder +onlyGivenNames x; revert x; intro _)
    | with_reducible refine Only.ite ?_ ?_
    | with_reducible refine State.inc_only ?_ ?_ ?_
    | with_reducible refine State.sendIp_only ?_ ?_)

theorem State.eventDone_only {A : Nat} {s₀ : State} {s : State} {e : Event} {t : Nat} (hS : Only A s₀ s) (hA : Covers 0x1801000000000400 A) :
    Only A s₀ (State.eventDone s e t) := by
  unfold State.eventDone
  repeat' (first
    | with_reducible exact hS
    | with_reducible assumption
    | (with_reducible refine Covers.testBit hA ?_; decide)
    | (with_reducible refine Covers.trans ?_ hA; decide)
    | (refine fun _ => ?_; intros)
    | (extract_lets -underBinder +onlyGivenNames x; refine (fun (hx : Only A s₀ x) => ?_ : Only A s₀ x → _) ?_; (on_goal 2 => unfold x; clear x); (on_goal 1 => clear_value x; revert x; intro _ _))
    | (extract_lets -underBinder +onlyGivenNames x; unfold x; clear x)
    | (extract_lets -underBinder +onlyGivenNames x; revert x; intro _)
    | with_reducible refine Only.ite ?_ ?_
    | with_reducible refine State.inc_only ?_ ?_ ?_
    | with_reducible refine State.err_only ?_ ?_ ?_
    | with_reducible refine State.updRdo_only ?_ ?_
    | with_reducible refine State.publishRdo_only ?_ ?_)

theorem State.readoutFrame_only {A : Nat} {s₀ : State} {s : State} {t : Nat} (hS : Only A s₀ s) (hA : Covers 0x1801002400000400 A) :
    Only A s₀ (State.readoutFrame s t) := by
  unfold State.readoutFrame
  repeat' (first
    | with_reducible exact hS
    | with_reducible assumption
    | (with_reducible refine Covers.testBit hA ?_; decide)
    | (with_reducible refine Covers.trans ?_ hA; decide)
    | (refine fun _ => ?_; intros)
    | (extract_lets -underBinder +onlyGivenNames x; refine (fun (hx : Only A s₀ x) => ?_ : Only A s₀ x → _) ?_; (on_goal 2 => unfold x; clear x); (on_goal 1 => clear_value x; revert x; intro _ _))
    | (extract_lets -underBinder +onlyGivenNames x; unfold x; clear x)
    | (extract_lets -underBinder +onlyGivenNames x; revert x; intro _)
    | with_reducible refine Only.ite ?_ ?_
    | with_reducible refine State.at_only ?_ ?_
    | with_reducible refine State.updRdo_only ?_ ?_
    | with_reducible refine State.sendUdp_only ?_ ?_
    | with_reducible refine State.eventDone_only ?_ ?_
    | split
    | (refine fun _ => ?_))

theorem State.writePort_only {A : Nat} {s₀ : State} {s : State} {k : Nat} {off : Nat} {m : Nat} {v : Nat} (hS : Only A s₀ s) (hA : Covers 0x801000000000500 A) :
    Only A s₀ (State.writePort s k off m v) := by
  unfold State.writePort
  repeat' (first
    | with_reducible exact hS
    | with_reducible assumption
    | (with_reducible refine Covers.testBit hA ?_; decide)
    | (with_reducible refine Covers.trans ?_ hA; decide)
    | (with_reducible refine Covers.trans (Covers.trans (pageMask_all _) ?_) hA; decide)
    | (refine fun _ => ?_; intros)
    | (extract_lets -underBinder +onlyGivenNames x; refine (fun (hx : Only A s₀ x) => ?_ : Only A s₀ x → _) ?_; (on_goal 2 => unfold x; clear x); (on_goal 1 => clear_value x; revert x; intro _ _))
    | (extract_lets -underBinder +onlyGivenNames x; unfold x; clear x)
    | (extract_lets -underBinder +onlyGivenNames x; revert x; intro _)
    | with_reducible refine Only.ite ?_ ?_
    | with_reducible refine State.wrReg_only ?_ ?_
    | with_reducible refine State.updPort_only ?_ ?_
    | with_reducible refine State.portEval_only ?_ ?_
    | with_reducible refine State.writePortCfg_only ?_ ?_
    | split
    | (refine fun _ => ?_))

theorem State.writeRdo_only {A : Nat} {s₀ : State} {s : State} {off : Nat} {m : Nat} {v : Nat} (hS : Only A s₀ s) (hA : Covers 0x801000000000500 A) :
    Only A s₀ (State.writeRdo s off m v) := by
  unfold State.writeRdo
  repeat' (first
    | with_reducible exact hS
    | with_reducible assumption
    | (with_reducible refine Covers.testBit hA ?_; decide)
    | (with_reducible refine Covers.trans ?_ hA; decide)
    | (with_reducible refine Covers.trans (Covers.trans (pageMask_all _) ?_) hA; decide)
    | with_reducible refine Only.ite ?_ ?_
    | with_reducible refine State.wrReg_only ?_ ?_
    | with_reducible refine State.writeRdoCfg_only ?_ ?_
    | with_reducible refine State.rdoApply_only ?_ ?_
    | with_reducible refine State.writePort_only ?_ ?_
    | split
    | (refine fun _ => ?_))

theorem State.writeHbm_only {A : Nat} {s₀ : State} {s : State} {off : Nat} {m : Nat} {v : Nat} (hS : Only A s₀ s) (hA : Covers 0x180088D000000210 A) :
    Only A s₀ (State.writeHbm s off m v) := by
  unfold State.writeHbm
  repeat' (first
    | with_reducible exact hS
    | with_reducible assumption
    | (with_reducible refine Covers.testBit hA ?_; decide)
    | (with_reducible refine Covers.trans ?_ hA; decide)
    | (with_reducible refine Covers.trans (Covers.trans (pageMask_all _) ?_) hA; decide)
    | with_reducible refine Only.ite ?_ ?_
    | with_reducible refine State.wrReg_only ?_ ?_
    | with_reducible refine State.hbmRestart_only ?_ ?_
    | with_reducible refine State.writePipeCtrl_only ?_ ?_
    | with_reducible refine State.writeXfer_only ?_ ?_
    | split
    | (refine fun _ => ?_))

end Sys2Proof.Machine
end

