-- ==== Sys2Proof/Laws/OnlyGnomon.lean ====
section
/-! SUPPORT. What each operation of Machine/Gnomon.lean may change. -/

set_option linter.unusedTactic false
set_option linter.unreachableTactic false
set_option linter.unusedVariables false

namespace Sys2Proof.Machine

theorem State.gnoErr_only {A : Nat} {s₀ : State} {s : State} {f : Fld} (hS : Only A s₀ s) (hpf : A.testBit f.page = true) (hA : Covers 0x800000000000000 A) :
    Only A s₀ (State.gnoErr s f) := by
  unfold State.gnoErr
  repeat' (first
    | with_reducible exact hS
    | with_reducible assumption
    | (with_reducible refine Covers.testBit hA ?_; decide)
    | (with_reducible refine Covers.trans ?_ hA; decide)
    | with_reducible refine State.err_only ?_ ?_ ?_)

theorem State.publishShadow_only {A : Nat} {s₀ : State} {s : State} (hS : Only A s₀ s) (hA : Covers 0x2 A) :
    Only A s₀ (State.publishShadow s) := by
  unfold State.publishShadow
  repeat' (first
    | with_reducible exact hS
    | with_reducible assumption
    | (with_reducible refine Covers.testBit hA ?_; decide)
    | (with_reducible refine Covers.trans ?_ hA; decide)
    | (extract_lets -underBinder +onlyGivenNames x; refine (fun (hx : Only A s₀ x) => ?_ : Only A s₀ x → _) ?_; (on_goal 2 => unfold x; clear x); (on_goal 1 => clear_value x; revert x; intro _ _))
    | (extract_lets -underBinder +onlyGivenNames x; unfold x; clear x)
    | (extract_lets -underBinder +onlyGivenNames x; revert x; intro _)
    | with_reducible refine State.put_only ?_ ?_)

theorem State.writeShadowed_only {A : Nat} {s₀ : State} {s : State} {off : Nat} {m : Nat} {v : Nat} (hS : Only A s₀ s) (hA : Covers 0x10000000002 A) :
    Only A s₀ (State.writeShadowed s off m v) := by
  unfold State.writeShadowed
  repeat' (first
    | with_reducible exact hS
    | with_reducible assumption
    | (with_reducible refine Covers.testBit hA ?_; decide)
    | (with_reducible refine Covers.trans ?_ hA; decide)
    | (with_reducible refine Covers.trans (Covers.trans (pageMask_all _) ?_) hA; decide)
    | (extract_lets -underBinder +onlyGivenNames x; refine (fun (hx : Only A s₀ x) => ?_ : Only A s₀ x → _) ?_; (on_goal 2 => unfold x; clear x); (on_goal 1 => clear_value x; revert x; intro _ _))
    | (extract_lets -underBinder +onlyGivenNames x; unfold x; clear x)
    | (extract_lets -underBinder +onlyGivenNames x; revert x; intro _)
    | with_reducible refine Only.ite ?_ ?_
    | with_reducible refine State.put_only ?_ ?_
    | with_reducible refine State.wrReg_only ?_ ?_
    | with_reducible refine State.publishShadow_only ?_ ?_
    | split
    | with_reducible refine Only.set_gno ?_ ?_
    | (refine fun _ => ?_))

theorem State.cancelNamed_only {A : Nat} {s₀ : State} {s : State} {o : Owner} (hS : Only A s₀ s) (hA : Covers 0x18503940000101FA A) :
    Only A s₀ (State.cancelNamed s o) := by
  unfold State.cancelNamed
  repeat' (first
    | with_reducible exact hS
    | with_reducible assumption
    | (with_reducible refine Covers.testBit hA ?_; decide)
    | (with_reducible refine Covers.trans ?_ hA; decide)
    | (extract_lets -underBinder +onlyGivenNames x; refine (fun (hx : Only A s₀ x) => ?_ : Only A s₀ x → _) ?_; (on_goal 2 => unfold x; clear x); (on_goal 1 => clear_value x; revert x; intro _ _))
    | (extract_lets -underBinder +onlyGivenNames x; unfold x; clear x)
    | (extract_lets -underBinder +onlyGivenNames x; revert x; intro _)
    | with_reducible refine State.disarm_only ?_ ?_
    | with_reducible refine State.prismCancelled_only ?_ ?_
    | with_reducible refine State.exchangeCancelled_only ?_ ?_
    | with_reducible refine State.exchange_only ?_ ?_
    | with_reducible refine State.csCancelled_only ?_ ?_
    | with_reducible refine State.epochCancelled_only ?_ ?_
    | with_reducible refine State.facetErr_only ?_ ?_ ?_
    | with_reducible refine State.disarmFacet_only ?_ ?_
    | with_reducible refine State.gnoErr_only ?_ ?_ ?_
    | split
    | (refine fun _ => ?_))

theorem State.cancelAllNamed_only {A : Nat} {s₀ : State} {s : State} (hS : Only A s₀ s) (hA : Covers 0x18503940000101FA A) :
    Only A s₀ (State.cancelAllNamed s) := by
  unfold State.cancelAllNamed
  repeat' (first
    | with_reducible exact hS
    | with_reducible assumption
    | (with_reducible refine Covers.testBit hA ?_; decide)
    | (with_reducible refine Covers.trans ?_ hA; decide)
    | (refine fun _ => ?_; intros)
    | with_reducible refine State.cancelNamed_only ?_ ?_
    | with_reducible refine Only.foldl _ ?_ ?_
    | with_reducible refine Only.Fst.ite ?_ ?_
    | with_reducible refine Only.Fst.unpair (by assumption)
    | with_reducible refine Only.Fst.foldl _ ?_ ?_
    | with_reducible refine Only.Fst.of ?_
    | with_reducible refine Only.Fst.pair ?_
    | with_reducible refine Only.Fst.elim (by assumption) ?_)

theorem State.cancelCommand_only {A : Nat} {s₀ : State} {s : State} (hS : Only A s₀ s) (hA : Covers 0x18503940000101FA A) :
    Only A s₀ (State.cancelCommand s) := by
  unfold State.cancelCommand
  repeat' (first
    | with_reducible exact hS
    | with_reducible assumption
    | (with_reducible refine Covers.testBit hA ?_; decide)
    | (with_reducible refine Covers.trans ?_ hA; decide)
    | (refine fun _ => ?_; intros)
    | (extract_lets -underBinder +onlyGivenNames x; refine (fun (hx : Only A s₀ x) => ?_ : Only A s₀ x → _) ?_; (on_goal 2 => unfold x; clear x); (on_goal 1 => clear_value x; revert x; intro _ _))
    | (extract_lets -underBinder +onlyGivenNames x; unfold x; clear x)
    | (extract_lets -underBinder +onlyGivenNames x; revert x; intro _)
    | with_reducible refine State.cancelNamed_only ?_ ?_
    | with_reducible refine State.cancelAllNamed_only ?_ ?_
    | with_reducible refine Only.foldl _ ?_ ?_
    | with_reducible refine Only.Fst.ite ?_ ?_
    | with_reducible refine Only.Fst.unpair (by assumption)
    | with_reducible refine Only.Fst.foldl _ ?_ ?_
    | with_reducible refine Only.Fst.of ?_
    | with_reducible refine Only.Fst.pair ?_
    | with_reducible refine Only.Fst.elim (by assumption) ?_)

theorem State.discontinuity_only {A : Nat} {s₀ : State} {s : State} (hS : Only A s₀ s) (hA : Covers 0x18507940000101FA A) :
    Only A s₀ (State.discontinuity s) := by
  unfold State.discontinuity
  repeat' (first
    | with_reducible exact hS
    | with_reducible assumption
    | (with_reducible refine Covers.testBit hA ?_; decide)
    | (with_reducible refine Covers.trans ?_ hA; decide)
    | with_reducible refine State.inc_only ?_ ?_ ?_
    | with_reducible refine State.worgaDiscontinuity_only ?_ ?_
    | with_reducible refine State.cancelAllNamed_only ?_ ?_)

theorem State.refuseAccept_only {A : Nat} {s₀ : State} {s : State} (hS : Only A s₀ s) (hA : Covers 0x1800000000000002 A) :
    Only A s₀ (State.refuseAccept s) := by
  unfold State.refuseAccept
  repeat' (first
    | with_reducible exact hS
    | with_reducible assumption
    | (with_reducible refine Covers.testBit hA ?_; decide)
    | (with_reducible refine Covers.trans ?_ hA; decide)
    | with_reducible refine State.inc_only ?_ ?_ ?_
    | with_reducible refine State.gnoErr_only ?_ ?_ ?_)

theorem State.discardWords_only {A : Nat} {s₀ : State} {s : State} (hS : Only A s₀ s) (hA : Covers 0x1800010000000002 A) :
    Only A s₀ (State.discardWords s) := by
  unfold State.discardWords
  repeat' (first
    | with_reducible exact hS
    | with_reducible assumption
    | (with_reducible refine Covers.testBit hA ?_; decide)
    | (with_reducible refine Covers.trans ?_ hA; decide)
    | (refine fun _ => ?_; intros)
    | (extract_lets -underBinder +onlyGivenNames x; refine (fun (hx : Only A s₀ x) => ?_ : Only A s₀ x → _) ?_; (on_goal 2 => unfold x; clear x); (on_goal 1 => clear_value x; revert x; intro _ _))
    | (extract_lets -underBinder +onlyGivenNames x; unfold x; clear x)
    | (extract_lets -underBinder +onlyGivenNames x; revert x; intro _)
    | with_reducible refine Only.ite ?_ ?_
    | with_reducible refine State.put_only ?_ ?_
    | with_reducible refine State.updGno_only ?_ ?_
    | with_reducible refine State.refuseAccept_only ?_ ?_
    | with_reducible refine Only.foldl _ ?_ ?_
    | with_reducible refine Only.Fst.ite ?_ ?_
    | with_reducible refine Only.Fst.unpair (by assumption)
    | with_reducible refine Only.Fst.foldl _ ?_ ?_
    | with_reducible refine Only.Fst.of ?_
    | with_reducible refine Only.Fst.pair ?_
    | with_reducible refine Only.Fst.elim (by assumption) ?_)

theorem State.unnumber_only {A : Nat} {s₀ : State} {s : State} (hS : Only A s₀ s) (hA : Covers 0x10000000002 A) :
    Only A s₀ (State.unnumber s) := by
  unfold State.unnumber
  repeat' (first
    | with_reducible exact hS
    | with_reducible assumption
    | (with_reducible refine Covers.testBit hA ?_; decide)
    | (with_reducible refine Covers.trans ?_ hA; decide)
    | (refine fun _ => ?_; intros)
    | with_reducible refine State.put_only ?_ ?_
    | with_reducible refine State.updGno_only ?_ ?_)

theorem State.endTimeline_only {A : Nat} {s₀ : State} {s : State} {st : Nat} (hS : Only A s₀ s) (hA : Covers 0x18507940000101FA A) :
    Only A s₀ (State.endTimeline s st) := by
  unfold State.endTimeline
  repeat' (first
    | with_reducible exact hS
    | with_reducible assumption
    | (with_reducible refine Covers.testBit hA ?_; decide)
    | (with_reducible refine Covers.trans ?_ hA; decide)
    | (extract_lets -underBinder +onlyGivenNames x; refine (fun (hx : Only A s₀ x) => ?_ : Only A s₀ x → _) ?_; (on_goal 2 => unfold x; clear x); (on_goal 1 => clear_value x; revert x; intro _ _))
    | (extract_lets -underBinder +onlyGivenNames x; unfold x; clear x)
    | (extract_lets -underBinder +onlyGivenNames x; revert x; intro _)
    | with_reducible refine Only.ite ?_ ?_
    | with_reducible refine State.put_only ?_ ?_
    | with_reducible refine State.prismLost_only ?_ ?_
    | with_reducible refine State.dropLater_only ?_ ?_
    | with_reducible refine State.worgaTimelineLost_only ?_ ?_
    | with_reducible refine State.discontinuity_only ?_ ?_
    | with_reducible refine State.discardWords_only ?_ ?_
    | with_reducible refine State.unnumber_only ?_ ?_)

theorem State.enterAcquire_only {A : Nat} {s₀ : State} {s : State} {t : Nat} (hS : Only A s₀ s) (hA : Covers 0x210400000082 A) :
    Only A s₀ (State.enterAcquire s t) := by
  unfold State.enterAcquire
  repeat' (first
    | with_reducible exact hS
    | with_reducible assumption
    | (with_reducible refine Covers.testBit hA ?_; decide)
    | (with_reducible refine Covers.trans ?_ hA; decide)
    | (refine fun _ => ?_; intros)
    | (extract_lets -underBinder +onlyGivenNames x; refine (fun (hx : Only A s₀ x) => ?_ : Only A s₀ x → _) ?_; (on_goal 2 => unfold x; clear x); (on_goal 1 => clear_value x; revert x; intro _ _))
    | (extract_lets -underBinder +onlyGivenNames x; unfold x; clear x)
    | (extract_lets -underBinder +onlyGivenNames x; revert x; intro _)
    | with_reducible refine State.put_only ?_ ?_
    | with_reducible refine State.at_only ?_ ?_
    | with_reducible refine State.updGno_only ?_ ?_
    | with_reducible refine State.glintsIdle_only ?_ ?_
    | with_reducible refine State.publishShadow_only ?_ ?_)

theorem State.writeGnoCtrl_only {A : Nat} {s₀ : State} {s : State} {t : Nat} {m : Nat} {v : Nat} (hS : Only A s₀ s) (hA : Covers 0x18507944000101FA A) :
    Only A s₀ (State.writeGnoCtrl s t m v) := by
  unfold State.writeGnoCtrl
  repeat' (first
    | with_reducible exact hS
    | with_reducible assumption
    | (with_reducible refine Covers.testBit hA ?_; decide)
    | (with_reducible refine Covers.trans ?_ hA; decide)
    | (with_reducible refine Covers.trans (Covers.trans (pageMask_all _) ?_) hA; decide)
    | (extract_lets -underBinder +onlyGivenNames x; refine (fun (hx : Only A s₀ x) => ?_ : Only A s₀ x → _) ?_; (on_goal 2 => unfold x; clear x); (on_goal 1 => clear_value x; revert x; intro _ _))
    | (extract_lets -underBinder +onlyGivenNames x; unfold x; clear x)
    | (extract_lets -underBinder +onlyGivenNames x; revert x; intro _)
    | with_reducible refine Only.ite ?_ ?_
    | with_reducible refine State.at_only ?_ ?_
    | with_reducible refine State.wrReg_only ?_ ?_
    | with_reducible refine State.endTimeline_only ?_ ?_
    | with_reducible refine State.enterAcquire_only ?_ ?_)

theorem State.acquired_only {A : Nat} {s₀ : State} {s : State} {t : Nat} (hS : Only A s₀ s) (hA : Covers 0x18002004000007D6 A) :
    Only A s₀ (State.acquired s t) := by
  unfold State.acquired
  repeat' (first
    | with_reducible exact hS
    | with_reducible assumption
    | (with_reducible refine Covers.testBit hA ?_; decide)
    | (with_reducible refine Covers.trans ?_ hA; decide)
    | (refine fun _ => ?_; intros)
    | (extract_lets -underBinder +onlyGivenNames x; refine (fun (hx : Only A s₀ x) => ?_ : Only A s₀ x → _) ?_; (on_goal 2 => unfold x; clear x); (on_goal 1 => clear_value x; revert x; intro _ _))
    | (extract_lets -underBinder +onlyGivenNames x; unfold x; clear x)
    | (extract_lets -underBinder +onlyGivenNames x; revert x; intro _)
    | with_reducible refine Only.ite ?_ ?_
    | with_reducible refine State.put_only ?_ ?_
    | with_reducible refine State.at_only ?_ ?_
    | with_reducible refine State.publishDl_only ?_ ?_
    | with_reducible refine State.prismBudget_only ?_ ?_
    | with_reducible refine State.admissionOnPeriods_only ?_ ?_
    | with_reducible refine State.worgaPeriods_only ?_ ?_
    | with_reducible refine State.readoutPeriods_only ?_ ?_
    | with_reducible refine Only.forN _ ?_ ?_)

theorem State.xclkLoss_only {A : Nat} {s₀ : State} {s : State} {t : Nat} {freq : Bool} (hS : Only A s₀ s) (hA : Covers 0x18507944000101FA A) :
    Only A s₀ (State.xclkLoss s t freq) := by
  unfold State.xclkLoss
  repeat' (first
    | with_reducible exact hS
    | with_reducible assumption
    | (with_reducible refine Covers.testBit hA ?_; decide)
    | (with_reducible refine Covers.trans ?_ hA; decide)
    | (refine fun _ => ?_; intros)
    | (extract_lets -underBinder +onlyGivenNames x; refine (fun (hx : Only A s₀ x) => ?_ : Only A s₀ x → _) ?_; (on_goal 2 => unfold x; clear x); (on_goal 1 => clear_value x; revert x; intro _ _))
    | (extract_lets -underBinder +onlyGivenNames x; unfold x; clear x)
    | (extract_lets -underBinder +onlyGivenNames x; revert x; intro _)
    | with_reducible refine Only.ite ?_ ?_
    | with_reducible refine State.put_only ?_ ?_
    | with_reducible refine State.at_only ?_ ?_
    | with_reducible refine State.updGno_only ?_ ?_
    | with_reducible refine State.gnoErr_only ?_ ?_ ?_
    | with_reducible refine State.endTimeline_only ?_ ?_)

theorem State.holdoverRecovery_only {A : Nat} {s₀ : State} {s : State} (hS : Only A s₀ s) (hA : Covers 0x2 A) :
    Only A s₀ (State.holdoverRecovery s) := by
  unfold State.holdoverRecovery
  repeat' (first
    | with_reducible exact hS
    | with_reducible assumption
    | (with_reducible refine Covers.testBit hA ?_; decide)
    | (with_reducible refine Covers.trans ?_ hA; decide)
    | with_reducible refine Only.ite ?_ ?_
    | with_reducible refine State.put_only ?_ ?_)

theorem State.holdoverExpiry_only {A : Nat} {s₀ : State} {s : State} {t : Nat} (hS : Only A s₀ s) (hA : Covers 0x18507944000101FA A) :
    Only A s₀ (State.holdoverExpiry s t) := by
  unfold State.holdoverExpiry
  repeat' (first
    | with_reducible exact hS
    | with_reducible assumption
    | (with_reducible refine Covers.testBit hA ?_; decide)
    | (with_reducible refine Covers.trans ?_ hA; decide)
    | with_reducible refine Only.ite ?_ ?_
    | with_reducible refine State.at_only ?_ ?_
    | with_reducible refine State.gnoErr_only ?_ ?_ ?_
    | with_reducible refine State.endTimeline_only ?_ ?_)

theorem State.relock_only {A : Nat} {s₀ : State} {s : State} {t : Nat} {auto : Bool} (hS : Only A s₀ s) (hA : Covers 0x210400000082 A) :
    Only A s₀ (State.relock s t auto) := by
  unfold State.relock
  repeat' (first
    | with_reducible exact hS
    | with_reducible assumption
    | (with_reducible refine Covers.testBit hA ?_; decide)
    | (with_reducible refine Covers.trans ?_ hA; decide)
    | with_reducible refine Only.ite ?_ ?_
    | with_reducible refine State.enterAcquire_only ?_ ?_)

theorem State.fcInject_only {A : Nat} {s₀ : State} {s : State} {word : Nat} (hS : Only A s₀ s) (hA : Covers 0x1800010000000002 A) :
    Only A s₀ (State.fcInject s word) := by
  unfold State.fcInject
  repeat' (first
    | with_reducible exact hS
    | with_reducible assumption
    | (with_reducible refine Covers.testBit hA ?_; decide)
    | (with_reducible refine Covers.trans ?_ hA; decide)
    | (refine fun _ => ?_; intros)
    | with_reducible refine State.put_only ?_ ?_
    | with_reducible refine State.inc_only ?_ ?_ ?_
    | with_reducible refine State.updGno_only ?_ ?_
    | with_reducible refine State.gnoErr_only ?_ ?_ ?_
    | split
    | (refine fun _ => ?_))

theorem State.sampleWord_only {A : Nat} {s₀ : State} {s : State} {serial : Nat} (hS : Only A s₀ s) (hA : Covers 0x1800010000000002 A) :
    Only A s₀ (State.sampleWord s serial) := by
  unfold State.sampleWord
  repeat' (first
    | with_reducible exact hS
    | with_reducible assumption
    | (with_reducible refine Covers.testBit hA ?_; decide)
    | (with_reducible refine Covers.trans ?_ hA; decide)
    | (refine fun _ => ?_; intros)
    | (extract_lets -underBinder +onlyGivenNames x; refine (fun (hx : Only A s₀ x) => ?_ : Only A s₀ x → _) ?_; (on_goal 2 => unfold x; clear x); (on_goal 1 => clear_value x; revert x; intro _ _))
    | (extract_lets -underBinder +onlyGivenNames x; unfold x; clear x)
    | (extract_lets -underBinder +onlyGivenNames x; revert x; intro _)
    | with_reducible refine Only.ite ?_ ?_
    | with_reducible refine State.put_only ?_ ?_
    | with_reducible refine State.inc_only ?_ ?_ ?_
    | with_reducible refine State.updGno_only ?_ ?_
    | with_reducible refine State.gnoErr_only ?_ ?_ ?_
    | split
    | (refine fun _ => ?_))

theorem State.publishTag_only {A : Nat} {s₀ : State} {s : State} {g : Tag} (hS : Only A s₀ s) (hA : Covers 0x2 A) :
    Only A s₀ (State.publishTag s g) := by
  unfold State.publishTag
  repeat' (first
    | with_reducible exact hS
    | with_reducible assumption
    | (with_reducible refine Covers.testBit hA ?_; decide)
    | (with_reducible refine Covers.trans ?_ hA; decide)
    | (extract_lets -underBinder +onlyGivenNames x; refine (fun (hx : Only A s₀ x) => ?_ : Only A s₀ x → _) ?_; (on_goal 2 => unfold x; clear x); (on_goal 1 => clear_value x; revert x; intro _ _))
    | (extract_lets -underBinder +onlyGivenNames x; unfold x; clear x)
    | (extract_lets -underBinder +onlyGivenNames x; revert x; intro _)
    | with_reducible refine Only.ite ?_ ?_
    | with_reducible refine State.put_only ?_ ?_)

theorem State.refreshSeg_only {A : Nat} {s₀ : State} {s : State} {serial : Nat} {orbit : Nat} (hS : Only A s₀ s) (hA : Covers 0x10000000000 A) :
    Only A s₀ (State.refreshSeg s serial orbit) := by
  unfold State.refreshSeg
  repeat' (first
    | with_reducible exact hS
    | with_reducible assumption
    | (with_reducible refine Covers.testBit hA ?_; decide)
    | (with_reducible refine Covers.trans ?_ hA; decide)
    | (refine fun _ => ?_; intros)
    | with_reducible refine Only.ite ?_ ?_
    | with_reducible refine State.updGno_only ?_ ?_
    | split
    | (refine fun _ => ?_))

theorem State.slotEdge_only {A : Nat} {s₀ : State} {s : State} {t : Nat} {meas : Option Nat} (hS : Only A s₀ s) (hA : Covers 0x18012B04000000C2 A) :
    Only A s₀ (State.slotEdge s t meas) := by
  unfold State.slotEdge
  repeat' (first
    | with_reducible exact hS
    | with_reducible assumption
    | (with_reducible refine Covers.testBit hA ?_; decide)
    | (with_reducible refine Covers.trans ?_ hA; decide)
    | (refine fun _ => ?_; intros)
    | (extract_lets -underBinder +onlyGivenNames x; refine (fun (hx : Only A s₀ x) => ?_ : Only A s₀ x → _) ?_; (on_goal 2 => unfold x; clear x); (on_goal 1 => clear_value x; revert x; intro _ _))
    | (extract_lets -underBinder +onlyGivenNames x; unfold x; clear x)
    | (extract_lets -underBinder +onlyGivenNames x; revert x; intro _)
    | with_reducible refine Only.ite ?_ ?_
    | with_reducible refine State.put_only ?_ ?_
    | with_reducible refine State.at_only ?_ ?_
    | with_reducible refine State.updGno_only ?_ ?_
    | with_reducible refine State.prismTag_only ?_ ?_
    | with_reducible refine State.prismEdge_only ?_ ?_
    | with_reducible refine State.turnEdge_only ?_ ?_
    | with_reducible refine State.updSeq_only ?_ ?_
    | with_reducible refine State.hold_only ?_ ?_
    | with_reducible refine State.eventsEnter_only ?_ ?_
    | with_reducible refine State.gnoErr_only ?_ ?_ ?_
    | with_reducible refine State.sampleWord_only ?_ ?_
    | with_reducible refine State.publishTag_only ?_ ?_
    | with_reducible refine State.refreshSeg_only ?_ ?_
    | split
    | with_reducible refine Only.set_edge ?_ ?_
    | (refine fun _ => ?_))

theorem State.orbitResetAct_only {A : Nat} {s₀ : State} {s : State} (hS : Only A s₀ s) (hA : Covers 0x10000000002 A) :
    Only A s₀ (State.orbitResetAct s) := by
  unfold State.orbitResetAct
  repeat' (first
    | with_reducible exact hS
    | with_reducible assumption
    | (with_reducible refine Covers.testBit hA ?_; decide)
    | (with_reducible refine Covers.trans ?_ hA; decide)
    | (refine fun _ => ?_; intros)
    | (extract_lets -underBinder +onlyGivenNames x; refine (fun (hx : Only A s₀ x) => ?_ : Only A s₀ x → _) ?_; (on_goal 2 => unfold x; clear x); (on_goal 1 => clear_value x; revert x; intro _ _))
    | (extract_lets -underBinder +onlyGivenNames x; unfold x; clear x)
    | (extract_lets -underBinder +onlyGivenNames x; revert x; intro _)
    | with_reducible refine Only.ite ?_ ?_
    | with_reducible refine State.put_only ?_ ?_
    | with_reducible refine State.updGno_only ?_ ?_
    | with_reducible refine State.publishTag_only ?_ ?_
    | split
    | (refine fun _ => ?_))

theorem State.tookEffect_only {A : Nat} {s₀ : State} {s : State} {w : FcWord} (hS : Only A s₀ s) (hA : Covers 0x10000000002 A) :
    Only A s₀ (State.tookEffect s w) := by
  unfold State.tookEffect
  repeat' (first
    | with_reducible exact hS
    | with_reducible assumption
    | (with_reducible refine Covers.testBit hA ?_; decide)
    | (with_reducible refine Covers.trans ?_ hA; decide)
    | (refine fun _ => ?_; intros)
    | with_reducible refine State.put_only ?_ ?_
    | with_reducible refine State.updGno_only ?_ ?_)

theorem State.renumberLast_only {A : Nat} {s₀ : State} {s : State} {origin : Nat} (hS : Only A s₀ s) (hA : Covers 0x90000000002 A) :
    Only A s₀ (State.renumberLast s origin) := by
  unfold State.renumberLast
  repeat' (first
    | with_reducible exact hS
    | with_reducible assumption
    | (with_reducible refine Covers.testBit hA ?_; decide)
    | (with_reducible refine Covers.trans ?_ hA; decide)
    | (refine fun _ => ?_; intros)
    | (extract_lets -underBinder +onlyGivenNames x; refine (fun (hx : Only A s₀ x) => ?_ : Only A s₀ x → _) ?_; (on_goal 2 => unfold x; clear x); (on_goal 1 => clear_value x; revert x; intro _ _))
    | (extract_lets -underBinder +onlyGivenNames x; unfold x; clear x)
    | (extract_lets -underBinder +onlyGivenNames x; revert x; intro _)
    | with_reducible refine Only.ite ?_ ?_
    | with_reducible refine State.updGno_only ?_ ?_
    | with_reducible refine State.publishTag_only ?_ ?_
    | split
    | with_reducible refine Only.set_pri ?_ ?_
    | (refine fun _ => ?_))

theorem State.number_only {A : Nat} {s₀ : State} {s : State} {mark : Nat} (hS : Only A s₀ s) (hA : Covers 0x18507940000101FA A) :
    Only A s₀ (State.number s mark) := by
  unfold State.number
  repeat' (first
    | with_reducible exact hS
    | with_reducible assumption
    | (with_reducible refine Covers.testBit hA ?_; decide)
    | (with_reducible refine Covers.trans ?_ hA; decide)
    | (refine fun _ => ?_; intros)
    | (extract_lets -underBinder +onlyGivenNames x; refine (fun (hx : Only A s₀ x) => ?_ : Only A s₀ x → _) ?_; (on_goal 2 => unfold x; clear x); (on_goal 1 => clear_value x; revert x; intro _ _))
    | (extract_lets -underBinder +onlyGivenNames x; unfold x; clear x)
    | (extract_lets -underBinder +onlyGivenNames x; revert x; intro _)
    | with_reducible refine Only.ite ?_ ?_
    | with_reducible refine State.put_only ?_ ?_
    | with_reducible refine State.updGno_only ?_ ?_
    | with_reducible refine State.prismNumbering_only ?_ ?_
    | with_reducible refine State.publishShadow_only ?_ ?_
    | with_reducible refine State.discontinuity_only ?_ ?_
    | with_reducible refine State.renumberLast_only ?_ ?_)

theorem State.orbitMark_only {A : Nat} {s₀ : State} {s : State} (hS : Only A s₀ s) (hA : Covers 0x18507940000101FA A) :
    Only A s₀ (State.orbitMark s) := by
  unfold State.orbitMark
  repeat' (first
    | with_reducible exact hS
    | with_reducible assumption
    | (with_reducible refine Covers.testBit hA ?_; decide)
    | (with_reducible refine Covers.trans ?_ hA; decide)
    | (extract_lets -underBinder +onlyGivenNames x; refine (fun (hx : Only A s₀ x) => ?_ : Only A s₀ x → _) ?_; (on_goal 2 => unfold x; clear x); (on_goal 1 => clear_value x; revert x; intro _ _))
    | (extract_lets -underBinder +onlyGivenNames x; unfold x; clear x)
    | (extract_lets -underBinder +onlyGivenNames x; revert x; intro _)
    | with_reducible refine Only.ite ?_ ?_
    | with_reducible refine State.inc_only ?_ ?_ ?_
    | with_reducible refine State.gnoErr_only ?_ ?_ ?_
    | with_reducible refine State.tookEffect_only ?_ ?_
    | with_reducible refine State.number_only ?_ ?_
    | split
    | (refine fun _ => ?_))

theorem State.publishEvent_only {A : Nat} {s₀ : State} {s : State} (hS : Only A s₀ s) (hA : Covers 0x2 A) :
    Only A s₀ (State.publishEvent s) := by
  unfold State.publishEvent
  repeat' (first
    | with_reducible exact hS
    | with_reducible assumption
    | (with_reducible refine Covers.testBit hA ?_; decide)
    | (with_reducible refine Covers.trans ?_ hA; decide)
    | with_reducible refine State.put_only ?_ ?_)

theorem State.accept_only {A : Nat} {s₀ : State} {s : State} {serial : Nat} {src : Nat} (hS : Only A s₀ s) (hA : Covers 0x1801010000000402 A) :
    Only A s₀ (State.accept s serial src) := by
  unfold State.accept
  repeat' (first
    | with_reducible exact hS
    | with_reducible assumption
    | (with_reducible refine Covers.testBit hA ?_; decide)
    | (with_reducible refine Covers.trans ?_ hA; decide)
    | (refine fun _ => ?_; intros)
    | (extract_lets -underBinder +onlyGivenNames x; refine (fun (hx : Only A s₀ x) => ?_ : Only A s₀ x → _) ?_; (on_goal 2 => unfold x; clear x); (on_goal 1 => clear_value x; revert x; intro _ _))
    | (extract_lets -underBinder +onlyGivenNames x; unfold x; clear x)
    | (extract_lets -underBinder +onlyGivenNames x; revert x; intro _)
    | with_reducible refine Only.ite ?_ ?_
    | with_reducible refine State.updGno_only ?_ ?_
    | with_reducible refine State.eventTaken_only ?_ ?_
    | with_reducible refine State.gnoErr_only ?_ ?_ ?_
    | with_reducible refine State.refuseAccept_only ?_ ?_
    | with_reducible refine State.publishEvent_only ?_ ?_
    | split
    | (refine fun _ => ?_))

theorem State.externalAccept_only {A : Nat} {s₀ : State} {s : State} (hS : Only A s₀ s) (hA : Covers 0x1801010000000402 A) :
    Only A s₀ (State.externalAccept s) := by
  unfold State.externalAccept
  repeat' (first
    | with_reducible exact hS
    | with_reducible assumption
    | (with_reducible refine Covers.testBit hA ?_; decide)
    | (with_reducible refine Covers.trans ?_ hA; decide)
    | with_reducible refine State.tookEffect_only ?_ ?_
    | with_reducible refine State.accept_only ?_ ?_
    | split
    | (refine fun _ => ?_))

theorem State.internalAccept_only {A : Nat} {s₀ : State} {s : State} (hS : Only A s₀ s) (hA : Covers 0x1801010000000402 A) :
    Only A s₀ (State.internalAccept s) := by
  unfold State.internalAccept
  repeat' (first
    | with_reducible exact hS
    | with_reducible assumption
    | (with_reducible refine Covers.testBit hA ?_; decide)
    | (with_reducible refine Covers.trans ?_ hA; decide)
    | (refine fun _ => ?_; intros)
    | (extract_lets -underBinder +onlyGivenNames x; refine (fun (hx : Only A s₀ x) => ?_ : Only A s₀ x → _) ?_; (on_goal 2 => unfold x; clear x); (on_goal 1 => clear_value x; revert x; intro _ _))
    | (extract_lets -underBinder +onlyGivenNames x; unfold x; clear x)
    | (extract_lets -underBinder +onlyGivenNames x; revert x; intro _)
    | with_reducible refine Only.ite ?_ ?_
    | with_reducible refine State.updGno_only ?_ ?_
    | with_reducible refine State.accept_only ?_ ?_
    | with_reducible refine Only.foldl _ ?_ ?_
    | with_reducible refine Only.Fst.ite ?_ ?_
    | with_reducible refine Only.Fst.unpair (by assumption)
    | with_reducible refine Only.Fst.foldl _ ?_ ?_
    | split
    | with_reducible refine Only.Fst.of ?_
    | with_reducible refine Only.Fst.pair ?_
    | with_reducible refine Only.Fst.elim (by assumption) ?_
    | (refine fun _ => ?_))

theorem State.eventReset_only {A : Nat} {s₀ : State} {s : State} (hS : Only A s₀ s) (hA : Covers 0x10000000002 A) :
    Only A s₀ (State.eventReset s) := by
  unfold State.eventReset
  repeat' (first
    | with_reducible exact hS
    | with_reducible assumption
    | (with_reducible refine Covers.testBit hA ?_; decide)
    | (with_reducible refine Covers.trans ?_ hA; decide)
    | (refine fun _ => ?_; intros)
    | with_reducible refine State.updGno_only ?_ ?_
    | with_reducible refine State.tookEffect_only ?_ ?_
    | with_reducible refine State.publishEvent_only ?_ ?_
    | split
    | (refine fun _ => ?_))

theorem State.orbitReset_only {A : Nat} {s₀ : State} {s : State} (hS : Only A s₀ s) (hA : Covers 0x10000000002 A) :
    Only A s₀ (State.orbitReset s) := by
  unfold State.orbitReset
  repeat' (first
    | with_reducible exact hS
    | with_reducible assumption
    | (with_reducible refine Covers.testBit hA ?_; decide)
    | (with_reducible refine Covers.trans ?_ hA; decide)
    | (refine fun _ => ?_; intros)
    | (extract_lets -underBinder +onlyGivenNames x; refine (fun (hx : Only A s₀ x) => ?_ : Only A s₀ x → _) ?_; (on_goal 2 => unfold x; clear x); (on_goal 1 => clear_value x; revert x; intro _ _))
    | (extract_lets -underBinder +onlyGivenNames x; unfold x; clear x)
    | (extract_lets -underBinder +onlyGivenNames x; revert x; intro _)
    | with_reducible refine Only.ite ?_ ?_
    | with_reducible refine State.put_only ?_ ?_
    | with_reducible refine State.updGno_only ?_ ?_
    | with_reducible refine State.tookEffect_only ?_ ?_
    | split
    | (refine fun _ => ?_))

theorem State.resync_only {A : Nat} {s₀ : State} {s : State} (hS : Only A s₀ s) (hA : Covers 0x10000000002 A) :
    Only A s₀ (State.resync s) := by
  unfold State.resync
  repeat' (first
    | with_reducible exact hS
    | with_reducible assumption
    | (with_reducible refine Covers.testBit hA ?_; decide)
    | (with_reducible refine Covers.trans ?_ hA; decide)
    | with_reducible refine State.put_only ?_ ?_
    | with_reducible refine State.tookEffect_only ?_ ?_
    | split
    | (refine fun _ => ?_))

theorem State.forward_only {A : Nat} {s₀ : State} {s : State} {code : Nat} (hS : Only A s₀ s) (hA : Covers 0x1800010000000042 A) :
    Only A s₀ (State.forward s code) := by
  unfold State.forward
  repeat' (first
    | with_reducible exact hS
    | with_reducible assumption
    | (with_reducible refine Covers.testBit hA ?_; decide)
    | (with_reducible refine Covers.trans ?_ hA; decide)
    | with_reducible refine State.seqFastCommand_only ?_ ?_
    | with_reducible refine State.tookEffect_only ?_ ?_
    | split
    | (refine fun _ => ?_))

theorem State.powerAtBarrier_only {A : Nat} {s₀ : State} {s : State} (hS : Only A s₀ s) (hA : Covers 0x80000000040000 A) :
    Only A s₀ (State.powerAtBarrier s) := by
  unfold State.powerAtBarrier
  repeat' (first
    | with_reducible exact hS
    | with_reducible assumption
    | (with_reducible refine Covers.testBit hA ?_; decide)
    | (with_reducible refine Covers.trans ?_ hA; decide)
    | with_reducible refine State.put_only ?_ ?_
    | split
    | with_reducible refine Only.set_pwr ?_ ?_
    | (refine fun _ => ?_))

theorem State.collectDue_only {A : Nat} {s₀ : State} {s : State} (hS : Only A s₀ s) (hA : Covers 0x10000000002 A) :
    Only A s₀ (State.collectDue s) := by
  unfold State.collectDue
  repeat' (first
    | with_reducible exact hS
    | with_reducible assumption
    | (with_reducible refine Covers.testBit hA ?_; decide)
    | (with_reducible refine Covers.trans ?_ hA; decide)
    | (refine fun _ => ?_; intros)
    | (extract_lets -underBinder +onlyGivenNames x; refine (fun (hx : Only A s₀ x) => ?_ : Only A s₀ x → _) ?_; (on_goal 2 => unfold x; clear x); (on_goal 1 => clear_value x; revert x; intro _ _))
    | (extract_lets -underBinder +onlyGivenNames x; unfold x; clear x)
    | (extract_lets -underBinder +onlyGivenNames x; revert x; intro _)
    | with_reducible refine Only.ite ?_ ?_
    | with_reducible refine State.put_only ?_ ?_
    | with_reducible refine Only.set_gno ?_ ?_)

theorem State.collectEffects_only {A : Nat} {s₀ : State} {s : State} (hS : Only A s₀ s) (hA : Covers 0x10000000000 A) :
    Only A s₀ (State.collectEffects s) := by
  unfold State.collectEffects
  repeat' (first
    | with_reducible exact hS
    | with_reducible assumption
    | (with_reducible refine Covers.testBit hA ?_; decide)
    | (with_reducible refine Covers.trans ?_ hA; decide)
    | (refine fun _ => ?_; intros)
    | (extract_lets -underBinder +onlyGivenNames x; refine (fun (hx : Only A s₀ x) => ?_ : Only A s₀ x → _) ?_; (on_goal 2 => unfold x; clear x); (on_goal 1 => clear_value x; revert x; intro _ _))
    | (extract_lets -underBinder +onlyGivenNames x; unfold x; clear x)
    | (extract_lets -underBinder +onlyGivenNames x; revert x; intro _)
    | with_reducible refine Only.ite ?_ ?_
    | with_reducible refine State.updGno_only ?_ ?_)

theorem State.slotBarrier_only {A : Nat} {s₀ : State} {s : State} {t : Nat} {ecc : EccMap} (hS : Only A s₀ s) (hA : Covers 0x1CD3FBD4004507FE A) :
    Only A s₀ (State.slotBarrier s t ecc) := by
  unfold State.slotBarrier
  repeat' (first
    | with_reducible exact hS
    | with_reducible assumption
    | (with_reducible refine Covers.testBit hA ?_; decide)
    | (with_reducible refine Covers.trans ?_ hA; decide)
    | (refine fun _ => ?_; intros)
    | (extract_lets -underBinder +onlyGivenNames x; refine (fun (hx : Only A s₀ x) => ?_ : Only A s₀ x → _) ?_; (on_goal 2 => unfold x; clear x); (on_goal 1 => clear_value x; revert x; intro _ _))
    | (extract_lets -underBinder +onlyGivenNames x; unfold x; clear x)
    | (extract_lets -underBinder +onlyGivenNames x; revert x; intro _)
    | with_reducible refine Only.ite ?_ ?_
    | with_reducible refine State.put_only ?_ ?_
    | with_reducible refine State.at_only ?_ ?_
    | with_reducible refine State.updGno_only ?_ ?_
    | with_reducible refine State.raiseAll_only ?_ ?_
    | with_reducible refine State.epochIncrease_only ?_ ?_
    | with_reducible refine State.edgeAtBarrier_only ?_ ?_
    | with_reducible refine State.islandsAtBarrier_only ?_ ?_
    | with_reducible refine State.exchangeBanks_only ?_ ?_
    | with_reducible refine State.bumpEpoch_only ?_ ?_
    | with_reducible refine State.cornerTurn_only ?_ ?_
    | with_reducible refine State.sideAtToken_only ?_ ?_
    | with_reducible refine State.reloadAtBarrier_only ?_ ?_
    | with_reducible refine State.recallAtBarrier_only ?_ ?_
    | with_reducible refine State.updSeq_only ?_ ?_
    | with_reducible refine State.timersAtBarrier_only ?_ ?_
    | with_reducible refine State.edgesAtBarrier_only ?_ ?_
    | with_reducible refine State.stopIssue_only ?_ ?_
    | with_reducible refine State.openIfReady_only ?_ ?_
    | with_reducible refine State.glintsAtBarrier_only ?_ ?_
    | with_reducible refine State.exchange_only ?_ ?_
    | with_reducible refine State.penumbra_only ?_ ?_
    | with_reducible refine State.drainSlot_only ?_ ?_
    | with_reducible refine State.worgaAtBarrier_only ?_ ?_
    | with_reducible refine State.readoutAtBarrier_only ?_ ?_
    | with_reducible refine State.probeAtBarrier_only ?_ ?_
    | with_reducible refine State.facetsAtBarrier_only ?_ ?_
    | with_reducible refine State.publishShadow_only ?_ ?_
    | with_reducible refine State.discontinuity_only ?_ ?_
    | with_reducible refine State.powerAtBarrier_only ?_ ?_
    | with_reducible refine State.collectDue_only ?_ ?_
    | with_reducible refine State.collectEffects_only ?_ ?_
    | with_reducible refine Only.foldl _ ?_ ?_
    | with_reducible refine Only.Fst.ite ?_ ?_
    | with_reducible refine Only.Fst.unpair (by assumption)
    | with_reducible refine Only.Fst.foldl _ ?_ ?_
    | exact Only.OfRes.trap
    | exact Only.OfRes.held
    | with_reducible refine Only.OfRes.acted ?_
    | with_reducible refine Only.OfRes.ite ?_ ?_
    | split
    | with_reducible refine Only.Fst.of ?_
    | with_reducible refine Only.Fst.pair ?_
    | with_reducible refine Only.Fst.elim (by assumption) ?_
    | with_reducible refine Only.OfRes.elim (by assumption) ?_
    | with_reducible refine Only.set_lanes ?_ ?_ ?_
    | exact Sparse.wf_upd _ _ _ _
    | exact Sparse.wf_set _ _ _ _
    | exact Sparse.wf_filter _ _ _
    | exact Sparse.wf_keep _ _ _
    | exact Sparse.wf_filter _ _ _ (by assumption)
    | exact Sparse.wf_keep _ _ _ (by assumption)
    | exact Sparse.wf_upd _ _ _ _ (by assumption)
    | exact Sparse.wf_foldl_upd _ _ _ _ _ (by assumption)
    | (refine fun _ => ?_))

end Sys2Proof.Machine
end

