-- ==== Sys2Proof/Laws/OnlyJournal.lean ====
section
/-! SUPPORT. What each operation of Machine/Journal.lean may change. -/

set_option linter.unusedTactic false
set_option linter.unreachableTactic false
set_option linter.unusedVariables false

namespace Sys2Proof.Machine

theorem State.publishJournal_only {A : Nat} {s₀ : State} {s : State} (hS : Only A s₀ s) (hA : Covers 0x8000 A) :
    Only A s₀ (State.publishJournal s) := by
  unfold State.publishJournal
  repeat' (first
    | with_reducible exact hS
    | with_reducible assumption
    | (with_reducible refine Covers.testBit hA ?_; decide)
    | (with_reducible refine Covers.trans ?_ hA; decide)
    | with_reducible refine State.put_only ?_ ?_
    | split
    | (refine fun _ => ?_))

theorem State.recordEntry_only {A : Nat} {s₀ : State} {s : State} {e : JnlEntry} (hS : Only A s₀ s) (hA : Covers 0x1840200000008000 A) :
    Only A s₀ (State.recordEntry s e) := by
  unfold State.recordEntry
  repeat' (first
    | with_reducible exact hS
    | with_reducible assumption
    | (with_reducible refine Covers.testBit hA ?_; decide)
    | (with_reducible refine Covers.trans ?_ hA; decide)
    | (refine fun _ => ?_; intros)
    | (extract_lets -underBinder +onlyGivenNames x; refine (fun (hx : Only A s₀ x) => ?_ : Only A s₀ x → _) ?_; (on_goal 2 => unfold x; clear x); (on_goal 1 => clear_value x; revert x; intro _ _))
    | (extract_lets -underBinder +onlyGivenNames x; unfold x; clear x)
    | (extract_lets -underBinder +onlyGivenNames x; revert x; intro _)
    | with_reducible refine Only.ite ?_ ?_
    | with_reducible refine State.put_only ?_ ?_
    | with_reducible refine State.inc_only ?_ ?_ ?_
    | with_reducible refine State.err_only ?_ ?_ ?_
    | with_reducible refine State.updDic_only ?_ ?_
    | with_reducible refine State.publishJournal_only ?_ ?_)

theorem State.journalMirror_only {A : Nat} {s₀ : State} {s : State} {ok : Bool} (hS : Only A s₀ s) (hA : Covers 0x900000000088000 A) :
    Only A s₀ (State.journalMirror s ok) := by
  unfold State.journalMirror
  repeat' (first
    | with_reducible exact hS
    | with_reducible assumption
    | (with_reducible refine Covers.testBit hA ?_; decide)
    | (with_reducible refine Covers.trans ?_ hA; decide)
    | (extract_lets -underBinder +onlyGivenNames x; refine (fun (hx : Only A s₀ x) => ?_ : Only A s₀ x → _) ?_; (on_goal 2 => unfold x; clear x); (on_goal 1 => clear_value x; revert x; intro _ _))
    | (extract_lets -underBinder +onlyGivenNames x; unfold x; clear x)
    | (extract_lets -underBinder +onlyGivenNames x; revert x; intro _)
    | with_reducible refine Only.ite ?_ ?_
    | with_reducible refine State.put_only ?_ ?_
    | with_reducible refine State.err_only ?_ ?_ ?_
    | split
    | with_reducible refine Only.set_flash ?_ ?_
    | (refine fun _ => ?_))

theorem State.mirrorJournal_only {A : Nat} {s₀ : State} {s : State} (hS : Only A s₀ s) (hA : Covers 0x900000000088000 A) :
    Only A s₀ (State.mirrorJournal s) := by
  unfold State.mirrorJournal
  repeat' (first
    | with_reducible exact hS
    | with_reducible assumption
    | (with_reducible refine Covers.testBit hA ?_; decide)
    | (with_reducible refine Covers.trans ?_ hA; decide)
    | (refine fun _ => ?_; intros)
    | with_reducible refine State.journalMirror_only ?_ ?_
    | with_reducible refine Only.forN _ ?_ ?_)

theorem State.reloadJournal_only {A : Nat} {s₀ : State} {s : State} (hS : Only A s₀ s) (hA : Covers 0x40000000008000 A) :
    Only A s₀ (State.reloadJournal s) := by
  unfold State.reloadJournal
  repeat' (first
    | with_reducible exact hS
    | with_reducible assumption
    | (with_reducible refine Covers.testBit hA ?_; decide)
    | (with_reducible refine Covers.trans ?_ hA; decide)
    | (refine fun _ => ?_; intros)
    | (extract_lets -underBinder +onlyGivenNames x; refine (fun (hx : Only A s₀ x) => ?_ : Only A s₀ x → _) ?_; (on_goal 2 => unfold x; clear x); (on_goal 1 => clear_value x; revert x; intro _ _))
    | (extract_lets -underBinder +onlyGivenNames x; unfold x; clear x)
    | (extract_lets -underBinder +onlyGivenNames x; revert x; intro _)
    | with_reducible refine State.put_only ?_ ?_
    | with_reducible refine State.updDic_only ?_ ?_
    | with_reducible refine State.publishJournal_only ?_ ?_
    | split
    | (refine fun _ => ?_))

theorem State.journal_only {A : Nat} {s₀ : State} {s : State} {src : ReqSrc} {index : Nat} {sub : Nat} {flags : Nat} {code : Nat} {old : Nat} {new : Nat} (hS : Only A s₀ s) (hA : Covers 0x1840200000008000 A) :
    Only A s₀ (State.journal s src index sub flags code old new) := by
  unfold State.journal
  repeat' (first
    | with_reducible exact hS
    | with_reducible assumption
    | (with_reducible refine Covers.testBit hA ?_; decide)
    | (with_reducible refine Covers.trans ?_ hA; decide)
    | with_reducible refine Only.ite ?_ ?_
    | with_reducible refine State.recordEntry_only ?_ ?_)

theorem State.journalNmt_only {A : Nat} {s₀ : State} {s : State} {cs : Nat} (hS : Only A s₀ s) (hA : Covers 0x1840200000008000 A) :
    Only A s₀ (State.journalNmt s cs) := by
  unfold State.journalNmt
  repeat' (first
    | with_reducible exact hS
    | with_reducible assumption
    | (with_reducible refine Covers.testBit hA ?_; decide)
    | (with_reducible refine Covers.trans ?_ hA; decide)
    | with_reducible refine State.recordEntry_only ?_ ?_)

theorem State.abortCode_only {A : Nat} {s₀ : State} {s : State} {index : Nat} {sub : Nat} {code : Nat} (hS : Only A s₀ s) (hA : Covers 0x1000000000008000 A) :
    Only A s₀ (State.abortCode s index sub code) := by
  unfold State.abortCode
  repeat' (first
    | with_reducible exact hS
    | with_reducible assumption
    | (with_reducible refine Covers.testBit hA ?_; decide)
    | (with_reducible refine Covers.trans ?_ hA; decide)
    | with_reducible refine Only.ite ?_ ?_
    | with_reducible refine State.put_only ?_ ?_
    | with_reducible refine State.inc_only ?_ ?_ ?_)

theorem State.domainNew_only {A : Nat} {s₀ : State} {s : State} {total : Nat} {got : Nat} (hS : Only A s₀ s) (hA : Covers 0x1000000000 A) :
    Only.Fst A s₀ (State.domainNew s total got) := by
  unfold State.domainNew
  repeat' (first
    | with_reducible exact hS
    | with_reducible assumption
    | (with_reducible refine Covers.testBit hA ?_; decide)
    | (with_reducible refine Covers.trans ?_ hA; decide)
    | with_reducible refine Only.ite ?_ ?_
    | with_reducible refine State.tookFree_only ?_ ?_
    | with_reducible refine Only.Fst.ite ?_ ?_
    | with_reducible refine Only.Fst.unpair (by assumption)
    | with_reducible refine Only.Fst.of ?_
    | with_reducible refine Only.Fst.pair ?_
    | with_reducible refine Only.Fst.elim (by assumption) ?_)

theorem State.dropDomain_only {A : Nat} {s₀ : State} {s : State} {code : Nat} (hS : Only A s₀ s) (hA : Covers 0x1840201000008000 A) :
    Only A s₀ (State.dropDomain s code) := by
  unfold State.dropDomain
  repeat' (first
    | with_reducible exact hS
    | with_reducible assumption
    | (with_reducible refine Covers.testBit hA ?_; decide)
    | (with_reducible refine Covers.trans ?_ hA; decide)
    | (refine fun _ => ?_; intros)
    | (extract_lets -underBinder +onlyGivenNames x; refine (fun (hx : Only A s₀ x) => ?_ : Only A s₀ x → _) ?_; (on_goal 2 => unfold x; clear x); (on_goal 1 => clear_value x; revert x; intro _ _))
    | (extract_lets -underBinder +onlyGivenNames x; unfold x; clear x)
    | (extract_lets -underBinder +onlyGivenNames x; revert x; intro _)
    | with_reducible refine Only.ite ?_ ?_
    | with_reducible refine State.put_only ?_ ?_
    | with_reducible refine State.updDic_only ?_ ?_
    | with_reducible refine State.journal_only ?_ ?_
    | with_reducible refine State.abortCode_only ?_ ?_
    | with_reducible refine State.domainNew_only ?_ ?_
    | with_reducible refine Only.Fst.ite ?_ ?_
    | with_reducible refine Only.Fst.unpair (by assumption)
    | split
    | with_reducible refine Only.Fst.of ?_
    | with_reducible refine Only.Fst.pair ?_
    | with_reducible refine Only.Fst.elim (by assumption) ?_
    | (refine fun _ => ?_))

theorem State.freeScalar_only {A : Nat} {s₀ : State} {s : State} {index : Nat} {sub : Nat} {write : Bool} (hS : Only A s₀ s) (hA : Covers 0x40000000000000 A) :
    Only A s₀ (State.freeScalar s index sub write) := by
  unfold State.freeScalar
  repeat' (first
    | with_reducible exact hS
    | with_reducible assumption
    | (with_reducible refine Covers.testBit hA ?_; decide)
    | (with_reducible refine Covers.trans ?_ hA; decide)
    | (refine fun _ => ?_; intros)
    | with_reducible refine Only.ite ?_ ?_
    | with_reducible refine State.updDic_only ?_ ?_)

theorem State.endUsdo_only {A : Nat} {s₀ : State} {s : State} {code : Nat} (hS : Only A s₀ s) (hA : Covers 0x1840201000008000 A) :
    Only A s₀ (State.endUsdo s code) := by
  unfold State.endUsdo
  repeat' (first
    | with_reducible exact hS
    | with_reducible assumption
    | (with_reducible refine Covers.testBit hA ?_; decide)
    | (with_reducible refine Covers.trans ?_ hA; decide)
    | (refine fun _ => ?_; intros)
    | (extract_lets -underBinder +onlyGivenNames x; refine (fun (hx : Only A s₀ x) => ?_ : Only A s₀ x → _) ?_; (on_goal 2 => unfold x; clear x); (on_goal 1 => clear_value x; revert x; intro _ _))
    | (extract_lets -underBinder +onlyGivenNames x; unfold x; clear x)
    | (extract_lets -underBinder +onlyGivenNames x; revert x; intro _)
    | with_reducible refine Only.ite ?_ ?_
    | with_reducible refine State.updDic_only ?_ ?_
    | with_reducible refine State.journal_only ?_ ?_
    | with_reducible refine State.abortCode_only ?_ ?_
    | with_reducible refine State.dropDomain_only ?_ ?_
    | with_reducible refine State.freeScalar_only ?_ ?_
    | split
    | (refine fun _ => ?_))

theorem State.publishQueue_only {A : Nat} {s₀ : State} {s : State} (hS : Only A s₀ s) (hA : Covers 0x8000 A) :
    Only A s₀ (State.publishQueue s) := by
  unfold State.publishQueue
  repeat' (first
    | with_reducible exact hS
    | with_reducible assumption
    | (with_reducible refine Covers.testBit hA ?_; decide)
    | (with_reducible refine Covers.trans ?_ hA; decide)
    | with_reducible refine State.put_only ?_ ?_)

theorem State.dropReqs_only {A : Nat} {s₀ : State} {s : State} {p : DicReq → Bool} (hS : Only A s₀ s) (hA : Covers 0x40000000008000 A) :
    Only A s₀ (State.dropReqs s p) := by
  unfold State.dropReqs
  repeat' (first
    | with_reducible exact hS
    | with_reducible assumption
    | (with_reducible refine Covers.testBit hA ?_; decide)
    | (with_reducible refine Covers.trans ?_ hA; decide)
    | (refine fun _ => ?_; intros)
    | with_reducible refine State.updDic_only ?_ ?_
    | with_reducible refine State.publishQueue_only ?_ ?_)

theorem State.cutUsdo_only {A : Nat} {s₀ : State} {s : State} (hS : Only A s₀ s) (hA : Covers 0x1840201000008000 A) :
    Only A s₀ (State.cutUsdo s) := by
  unfold State.cutUsdo
  repeat' (first
    | with_reducible exact hS
    | with_reducible assumption
    | (with_reducible refine Covers.testBit hA ?_; decide)
    | (with_reducible refine Covers.trans ?_ hA; decide)
    | (refine fun _ => ?_; intros)
    | (extract_lets -underBinder +onlyGivenNames x; refine (fun (hx : Only A s₀ x) => ?_ : Only A s₀ x → _) ?_; (on_goal 2 => unfold x; clear x); (on_goal 1 => clear_value x; revert x; intro _ _))
    | (extract_lets -underBinder +onlyGivenNames x; unfold x; clear x)
    | (extract_lets -underBinder +onlyGivenNames x; revert x; intro _)
    | with_reducible refine State.journal_only ?_ ?_
    | with_reducible refine State.endUsdo_only ?_ ?_
    | with_reducible refine State.dropReqs_only ?_ ?_
    | with_reducible refine Only.foldl _ ?_ ?_
    | with_reducible refine Only.Fst.ite ?_ ?_
    | with_reducible refine Only.Fst.unpair (by assumption)
    | with_reducible refine Only.Fst.foldl _ ?_ ?_
    | split
    | with_reducible refine Only.Fst.of ?_
    | with_reducible refine Only.Fst.pair ?_
    | with_reducible refine Only.Fst.elim (by assumption) ?_
    | (refine fun _ => ?_))

theorem State.enterInit_only {A : Nat} {s₀ : State} {s : State} (hS : Only A s₀ s) (hA : Covers 0x1840201000008000 A) :
    Only A s₀ (State.enterInit s) := by
  unfold State.enterInit
  repeat' (first
    | with_reducible exact hS
    | with_reducible assumption
    | (with_reducible refine Covers.testBit hA ?_; decide)
    | (with_reducible refine Covers.trans ?_ hA; decide)
    | with_reducible refine State.put_only ?_ ?_
    | with_reducible refine State.cutUsdo_only ?_ ?_)

theorem State.writeDicCtrl_only {A : Nat} {s₀ : State} {s : State} {m : Nat} {v : Nat} (hS : Only A s₀ s) (hA : Covers 0x1840201000008000 A) :
    Only A s₀ (State.writeDicCtrl s m v) := by
  unfold State.writeDicCtrl
  repeat' (first
    | with_reducible exact hS
    | with_reducible assumption
    | (with_reducible refine Covers.testBit hA ?_; decide)
    | (with_reducible refine Covers.trans ?_ hA; decide)
    | (with_reducible refine Covers.trans (Covers.trans (pageMask_all _) ?_) hA; decide)
    | (extract_lets -underBinder +onlyGivenNames x; refine (fun (hx : Only A s₀ x) => ?_ : Only A s₀ x → _) ?_; (on_goal 2 => unfold x; clear x); (on_goal 1 => clear_value x; revert x; intro _ _))
    | (extract_lets -underBinder +onlyGivenNames x; unfold x; clear x)
    | (extract_lets -underBinder +onlyGivenNames x; revert x; intro _)
    | with_reducible refine Only.ite ?_ ?_
    | with_reducible refine State.wrReg_only ?_ ?_
    | with_reducible refine State.enterInit_only ?_ ?_)

theorem State.writeCanCfg_only {A : Nat} {s₀ : State} {s : State} {m : Nat} {v : Nat} (hS : Only A s₀ s) (hA : Covers 0x40000000008000 A) :
    Only A s₀ (State.writeCanCfg s m v) := by
  unfold State.writeCanCfg
  repeat' (first
    | with_reducible exact hS
    | with_reducible assumption
    | (with_reducible refine Covers.testBit hA ?_; decide)
    | (with_reducible refine Covers.trans ?_ hA; decide)
    | (with_reducible refine Covers.trans (Covers.trans (pageMask_all _) ?_) hA; decide)
    | (refine fun _ => ?_; intros)
    | (extract_lets -underBinder +onlyGivenNames x; refine (fun (hx : Only A s₀ x) => ?_ : Only A s₀ x → _) ?_; (on_goal 2 => unfold x; clear x); (on_goal 1 => clear_value x; revert x; intro _ _))
    | (extract_lets -underBinder +onlyGivenNames x; unfold x; clear x)
    | (extract_lets -underBinder +onlyGivenNames x; revert x; intro _)
    | with_reducible refine Only.ite ?_ ?_
    | with_reducible refine State.put_only ?_ ?_
    | with_reducible refine State.wrReg_only ?_ ?_
    | with_reducible refine State.updDic_only ?_ ?_)

end Sys2Proof.Machine
end

