-- ==== Sys2Proof/Laws/OnlyLedger.lean ====
section
/-! SUPPORT. What each operation of Machine/Ledger.lean may change. -/

set_option linter.unusedTactic false
set_option linter.unreachableTactic false
set_option linter.unusedVariables false

namespace Sys2Proof.Machine

theorem State.updLed_only {A : Nat} {s₀ : State} {s : State} {f : Ledger → Ledger} (hS : Only A s₀ s) (hA : Covers 0x20000000000000 A) :
    Only A s₀ (State.updLed s f) := by
  unfold State.updLed
  repeat' (first
    | with_reducible exact hS
    | with_reducible assumption
    | (with_reducible refine Covers.testBit hA ?_; decide)
    | (with_reducible refine Covers.trans ?_ hA; decide)
    | with_reducible refine Only.set_led ?_ ?_)

theorem State.updRec_only {A : Nat} {s₀ : State} {s : State} {r : Nat} {f : LedRec → LedRec} (hS : Only A s₀ s) (hA : Covers 0x20000000000000 A) :
    Only A s₀ (State.updRec s r f) := by
  unfold State.updRec
  repeat' (first
    | with_reducible exact hS
    | with_reducible assumption
    | (with_reducible refine Covers.testBit hA ?_; decide)
    | (with_reducible refine Covers.trans ?_ hA; decide)
    | (refine fun _ => ?_; intros)
    | with_reducible refine State.updLed_only ?_ ?_)

theorem State.mapLane_only {A : Nat} {s₀ : State} {s : State} {lane : Nat} {r : Option Nat} (hS : Only A s₀ s) (hA : Covers 0x20000000020000 A) :
    Only A s₀ (State.mapLane s lane r) := by
  unfold State.mapLane
  repeat' (first
    | with_reducible exact hS
    | with_reducible assumption
    | (with_reducible refine Covers.testBit hA ?_; decide)
    | (with_reducible refine Covers.trans ?_ hA; decide)
    | (refine fun _ => ?_; intros)
    | (extract_lets -underBinder +onlyGivenNames x; refine (fun (hx : Only A s₀ x) => ?_ : Only A s₀ x → _) ?_; (on_goal 2 => unfold x; clear x); (on_goal 1 => clear_value x; revert x; intro _ _))
    | (extract_lets -underBinder +onlyGivenNames x; unfold x; clear x)
    | (extract_lets -underBinder +onlyGivenNames x; revert x; intro _)
    | with_reducible refine State.put_only ?_ ?_
    | with_reducible refine State.updLed_only ?_ ?_)

theorem State.leaveRecord_only {A : Nat} {s₀ : State} {s : State} {lane : Nat} (hS : Only A s₀ s) (hA : Covers 0x20000000020000 A) :
    Only A s₀ (State.leaveRecord s lane) := by
  unfold State.leaveRecord
  repeat' (first
    | with_reducible exact hS
    | with_reducible assumption
    | (with_reducible refine Covers.testBit hA ?_; decide)
    | (with_reducible refine Covers.trans ?_ hA; decide)
    | (refine fun _ => ?_; intros)
    | (extract_lets -underBinder +onlyGivenNames x; refine (fun (hx : Only A s₀ x) => ?_ : Only A s₀ x → _) ?_; (on_goal 2 => unfold x; clear x); (on_goal 1 => clear_value x; revert x; intro _ _))
    | (extract_lets -underBinder +onlyGivenNames x; unfold x; clear x)
    | (extract_lets -underBinder +onlyGivenNames x; revert x; intro _)
    | with_reducible refine Only.ite ?_ ?_
    | with_reducible refine State.updRec_only ?_ ?_
    | with_reducible refine State.mapLane_only ?_ ?_
    | split
    | (refine fun _ => ?_))

theorem State.allocRecord_only {A : Nat} {s₀ : State} {s : State} (hS : Only A s₀ s) (hA : Covers 0x820000000020000 A) :
    Only.OptFst A s₀ (State.allocRecord s) := by
  unfold State.allocRecord
  generalize s.findRec _ = o
  generalize (s.oldestOf 6).orElse _ = q
  split
  · exact Only.OptFst.some hS
  · split
    · exact Only.OptFst.none
    · refine Only.OptFst.some (State.updRec_only ?_ (Covers.trans (by decide) hA))
      refine State.report_only ?_ (Covers.trans (by decide) hA)
      exact Only.foldl _ hS fun s x hs => State.mapLane_only hs (Covers.trans (by decide) hA)

theorem State.openRecord_only {A : Nat} {s₀ : State} {s : State} {r : Nat} {p : List (BitVec 8)} (hS : Only A s₀ s) (hA : Covers 0x20000000000000 A) :
    Only A s₀ (State.openRecord s r p) := by
  unfold State.openRecord
  repeat' (first
    | with_reducible exact hS
    | with_reducible assumption
    | (with_reducible refine Covers.testBit hA ?_; decide)
    | (with_reducible refine Covers.trans ?_ hA; decide)
    | (refine fun _ => ?_; intros)
    | with_reducible refine State.updRec_only ?_ ?_)

theorem State.attach_only {A : Nat} {s₀ : State} {s : State} {lane : Nat} {r : Nat} (hS : Only A s₀ s) (hA : Covers 0x20000000020000 A) :
    Only A s₀ (State.attach s lane r) := by
  unfold State.attach
  repeat' (first
    | with_reducible exact hS
    | with_reducible assumption
    | (with_reducible refine Covers.testBit hA ?_; decide)
    | (with_reducible refine Covers.trans ?_ hA; decide)
    | (refine fun _ => ?_; intros)
    | with_reducible refine State.updRec_only ?_ ?_
    | with_reducible refine State.mapLane_only ?_ ?_)

theorem State.ledIdentity_only {A : Nat} {s₀ : State} {s : State} {lane : Nat} {p : List (BitVec 8)} {changed : Bool} (hS : Only A s₀ s) (hA : Covers 0x820000000020000 A) :
    Only A s₀ (State.ledIdentity s lane p changed) := by
  unfold State.ledIdentity
  repeat' (first
    | with_reducible exact hS
    | with_reducible assumption
    | (with_reducible refine Covers.testBit hA ?_; decide)
    | (with_reducible refine Covers.trans ?_ hA; decide)
    | (refine fun _ => ?_; intros)
    | (extract_lets -underBinder +onlyGivenNames x; refine (fun (hx : Only A s₀ x) => ?_ : Only A s₀ x → _) ?_; (on_goal 2 => unfold x; clear x); (on_goal 1 => clear_value x; revert x; intro _ _))
    | (extract_lets -underBinder +onlyGivenNames x; unfold x; clear x)
    | (extract_lets -underBinder +onlyGivenNames x; revert x; intro _)
    | with_reducible refine Only.ite ?_ ?_
    | with_reducible refine State.report_only ?_ ?_
    | with_reducible refine State.updRec_only ?_ ?_
    | with_reducible refine State.leaveRecord_only ?_ ?_
    | with_reducible refine State.allocRecord_only ?_ ?_
    | with_reducible refine State.openRecord_only ?_ ?_
    | with_reducible refine State.attach_only ?_ ?_
    | exact Only.OptFst.none
    | with_reducible refine Only.OptFst.some ?_
    | with_reducible refine Only.OptFst.ite ?_ ?_
    | split
    | with_reducible refine Only.OptFst.elim (by assumption) ?_
    | (refine fun _ => ?_))

theorem State.ledAbsent_only {A : Nat} {s₀ : State} {s : State} {lane : Nat} (hS : Only A s₀ s) (hA : Covers 0x20000000000000 A) :
    Only A s₀ (State.ledAbsent s lane) := by
  unfold State.ledAbsent
  repeat' (first
    | with_reducible exact hS
    | with_reducible assumption
    | (with_reducible refine Covers.testBit hA ?_; decide)
    | (with_reducible refine Covers.trans ?_ hA; decide)
    | (refine fun _ => ?_; intros)
    | with_reducible refine Only.ite ?_ ?_
    | with_reducible refine State.updRec_only ?_ ?_
    | split
    | (refine fun _ => ?_))

theorem State.orphan_only {A : Nat} {s₀ : State} {s : State} {lane : Nat} (hS : Only A s₀ s) (hA : Covers 0x1800000000020000 A) :
    Only A s₀ (State.orphan s lane) := by
  unfold State.orphan
  repeat' (first
    | with_reducible exact hS
    | with_reducible assumption
    | (with_reducible refine Covers.testBit hA ?_; decide)
    | (with_reducible refine Covers.trans ?_ hA; decide)
    | with_reducible refine State.inc_only ?_ ?_ ?_
    | with_reducible refine State.err_only ?_ ?_ ?_)

theorem State.ledTelemetry_only {A : Nat} {s₀ : State} {s : State} {lane : Nat} {quantity : Nat} {group : Nat} {value : Nat} (hS : Only A s₀ s) (hA : Covers 0x1820000000020000 A) :
    Only A s₀ (State.ledTelemetry s lane quantity group value) := by
  unfold State.ledTelemetry
  repeat' (first
    | with_reducible exact hS
    | with_reducible assumption
    | (with_reducible refine Covers.testBit hA ?_; decide)
    | (with_reducible refine Covers.trans ?_ hA; decide)
    | (refine fun _ => ?_; intros)
    | with_reducible refine Only.ite ?_ ?_
    | with_reducible refine State.updRec_only ?_ ?_
    | with_reducible refine State.orphan_only ?_ ?_
    | split
    | (refine fun _ => ?_))

theorem State.ledReports_only {A : Nat} {s₀ : State} {s : State} (hS : Only A s₀ s) (hA : Covers 0x1820040000020000 A) :
    Only A s₀ (State.ledReports s) := by
  unfold State.ledReports
  repeat' (first
    | with_reducible exact hS
    | with_reducible assumption
    | (with_reducible refine Covers.testBit hA ?_; decide)
    | (with_reducible refine Covers.trans ?_ hA; decide)
    | (refine fun _ => ?_; intros)
    | (extract_lets -underBinder +onlyGivenNames x; refine (fun (hx : Only A s₀ x) => ?_ : Only A s₀ x → _) ?_; (on_goal 2 => unfold x; clear x); (on_goal 1 => clear_value x; revert x; intro _ _))
    | (extract_lets -underBinder +onlyGivenNames x; unfold x; clear x)
    | (extract_lets -underBinder +onlyGivenNames x; revert x; intro _)
    | with_reducible refine State.ledIdentity_only ?_ ?_
    | with_reducible refine State.ledAbsent_only ?_ ?_
    | with_reducible refine State.ledTelemetry_only ?_ ?_
    | with_reducible refine Only.foldl _ ?_ ?_
    | with_reducible refine Only.Fst.ite ?_ ?_
    | with_reducible refine Only.Fst.unpair (by assumption)
    | with_reducible refine Only.Fst.foldl _ ?_ ?_
    | split
    | with_reducible refine Only.Fst.of ?_
    | with_reducible refine Only.Fst.pair ?_
    | with_reducible refine Only.Fst.elim (by assumption) ?_
    | with_reducible refine Only.set_ledIn ?_ ?_
    | (refine fun _ => ?_))

theorem State.postPoint_only {A : Nat} {s₀ : State} {s : State} {r : Nat} {p : Nat} (hS : Only A s₀ s) (hA : Covers 0x820000000020000 A) :
    Only A s₀ (State.postPoint s r p) := by
  unfold State.postPoint
  repeat' (first
    | with_reducible exact hS
    | with_reducible assumption
    | (with_reducible refine Covers.testBit hA ?_; decide)
    | (with_reducible refine Covers.trans ?_ hA; decide)
    | (refine fun _ => ?_; intros)
    | with_reducible refine Only.ite ?_ ?_
    | with_reducible refine State.put_only ?_ ?_
    | with_reducible refine State.report_only ?_ ?_
    | with_reducible refine State.err_only ?_ ?_ ?_
    | with_reducible refine State.updLed_only ?_ ?_
    | exact Only.OfRes.trap
    | exact Only.OfRes.held
    | with_reducible refine Only.OfRes.acted ?_
    | with_reducible refine Only.OfRes.ite ?_ ?_
    | with_reducible refine Only.OfRes.elim (by assumption) ?_)

theorem State.repost_only {A : Nat} {s₀ : State} {s : State} (hS : Only A s₀ s) (hA : Covers 0x820000000020000 A) :
    Only A s₀ (State.repost s) := by
  unfold State.repost
  repeat' (first
    | with_reducible exact hS
    | with_reducible assumption
    | (with_reducible refine Covers.testBit hA ?_; decide)
    | (with_reducible refine Covers.trans ?_ hA; decide)
    | (refine fun _ => ?_; intros)
    | (extract_lets -underBinder +onlyGivenNames x; refine (fun (hx : Only A s₀ x) => ?_ : Only A s₀ x → _) ?_; (on_goal 2 => unfold x; clear x); (on_goal 1 => clear_value x; revert x; intro _ _))
    | (extract_lets -underBinder +onlyGivenNames x; unfold x; clear x)
    | (extract_lets -underBinder +onlyGivenNames x; revert x; intro _)
    | with_reducible refine State.updLed_only ?_ ?_
    | with_reducible refine State.postPoint_only ?_ ?_
    | with_reducible refine Only.foldl _ ?_ ?_
    | with_reducible refine Only.Fst.ite ?_ ?_
    | with_reducible refine Only.Fst.unpair (by assumption)
    | with_reducible refine Only.Fst.foldl _ ?_ ?_
    | exact Only.OfRes.trap
    | exact Only.OfRes.held
    | with_reducible refine Only.OfRes.acted ?_
    | with_reducible refine Only.OfRes.ite ?_ ?_
    | with_reducible refine Only.Fst.of ?_
    | with_reducible refine Only.Fst.pair ?_
    | with_reducible refine Only.Fst.elim (by assumption) ?_
    | with_reducible refine Only.OfRes.elim (by assumption) ?_)

theorem State.enterProbation_only {A : Nat} {s₀ : State} {s : State} {r : Nat} (hS : Only A s₀ s) (hA : Covers 0x820000000020000 A) :
    Only A s₀ (State.enterProbation s r) := by
  unfold State.enterProbation
  repeat' (first
    | with_reducible exact hS
    | with_reducible assumption
    | (with_reducible refine Covers.testBit hA ?_; decide)
    | (with_reducible refine Covers.trans ?_ hA; decide)
    | (refine fun _ => ?_; intros)
    | with_reducible refine State.updRec_only ?_ ?_
    | with_reducible refine State.postPoint_only ?_ ?_)

theorem State.recordState_only {A : Nat} {s₀ : State} {s : State} {r : Nat} (hS : Only A s₀ s) (hA : Covers 0x820000000020000 A) :
    Only A s₀ (State.recordState s r) := by
  unfold State.recordState
  repeat' (first
    | with_reducible exact hS
    | with_reducible assumption
    | (with_reducible refine Covers.testBit hA ?_; decide)
    | (with_reducible refine Covers.trans ?_ hA; decide)
    | (refine fun _ => ?_; intros)
    | (extract_lets -underBinder +onlyGivenNames x; refine (fun (hx : Only A s₀ x) => ?_ : Only A s₀ x → _) ?_; (on_goal 2 => unfold x; clear x); (on_goal 1 => clear_value x; revert x; intro _ _))
    | (extract_lets -underBinder +onlyGivenNames x; unfold x; clear x)
    | (extract_lets -underBinder +onlyGivenNames x; revert x; intro _)
    | with_reducible refine Only.ite ?_ ?_
    | with_reducible refine State.updRec_only ?_ ?_
    | with_reducible refine State.mapLane_only ?_ ?_
    | with_reducible refine State.postPoint_only ?_ ?_
    | with_reducible refine State.enterProbation_only ?_ ?_
    | with_reducible refine Only.foldl _ ?_ ?_
    | with_reducible refine Only.Fst.ite ?_ ?_
    | with_reducible refine Only.Fst.unpair (by assumption)
    | with_reducible refine Only.Fst.foldl _ ?_ ?_
    | with_reducible refine Only.Fst.of ?_
    | with_reducible refine Only.Fst.pair ?_
    | with_reducible refine Only.Fst.elim (by assumption) ?_)

theorem State.countProbation_only {A : Nat} {s₀ : State} {s : State} {r : Nat} (hS : Only A s₀ s) (hA : Covers 0x18202000000000C0 A) :
    Only A s₀ (State.countProbation s r) := by
  unfold State.countProbation
  repeat' (first
    | with_reducible exact hS
    | with_reducible assumption
    | (with_reducible refine Covers.testBit hA ?_; decide)
    | (with_reducible refine Covers.trans ?_ hA; decide)
    | (refine fun _ => ?_; intros)
    | (extract_lets -underBinder +onlyGivenNames x; refine (fun (hx : Only A s₀ x) => ?_ : Only A s₀ x → _) ?_; (on_goal 2 => unfold x; clear x); (on_goal 1 => clear_value x; revert x; intro _ _))
    | (extract_lets -underBinder +onlyGivenNames x; unfold x; clear x)
    | (extract_lets -underBinder +onlyGivenNames x; revert x; intro _)
    | with_reducible refine Only.ite ?_ ?_
    | with_reducible refine State.hold_only ?_ ?_
    | with_reducible refine State.updRec_only ?_ ?_)

theorem State.publishUsed_only {A : Nat} {s₀ : State} {s : State} (hS : Only A s₀ s) (hA : Covers 0x20000 A) :
    Only A s₀ (State.publishUsed s) := by
  unfold State.publishUsed
  repeat' (first
    | with_reducible exact hS
    | with_reducible assumption
    | (with_reducible refine Covers.testBit hA ?_; decide)
    | (with_reducible refine Covers.trans ?_ hA; decide)
    | (refine fun _ => ?_; intros)
    | with_reducible refine State.put_only ?_ ?_)

theorem State.ledgerTick_only {A : Nat} {s₀ : State} {s : State} {t : Nat} (hS : Only A s₀ s) (hA : Covers 0x18202404000200C0 A) :
    Only A s₀ (State.ledgerTick s t) := by
  unfold State.ledgerTick
  repeat' (first
    | with_reducible exact hS
    | with_reducible assumption
    | (with_reducible refine Covers.testBit hA ?_; decide)
    | (with_reducible refine Covers.trans ?_ hA; decide)
    | (refine fun _ => ?_; intros)
    | (extract_lets -underBinder +onlyGivenNames x; refine (fun (hx : Only A s₀ x) => ?_ : Only A s₀ x → _) ?_; (on_goal 2 => unfold x; clear x); (on_goal 1 => clear_value x; revert x; intro _ _))
    | (extract_lets -underBinder +onlyGivenNames x; unfold x; clear x)
    | (extract_lets -underBinder +onlyGivenNames x; revert x; intro _)
    | with_reducible refine Only.ite ?_ ?_
    | with_reducible refine State.put_only ?_ ?_
    | with_reducible refine State.at_only ?_ ?_
    | with_reducible refine State.updLed_only ?_ ?_
    | with_reducible refine State.updRec_only ?_ ?_
    | with_reducible refine State.ledReports_only ?_ ?_
    | with_reducible refine State.repost_only ?_ ?_
    | with_reducible refine State.recordState_only ?_ ?_
    | with_reducible refine State.countProbation_only ?_ ?_
    | with_reducible refine State.publishUsed_only ?_ ?_
    | with_reducible refine Only.foldl _ ?_ ?_
    | with_reducible refine Only.Fst.ite ?_ ?_
    | with_reducible refine Only.Fst.unpair (by assumption)
    | with_reducible refine Only.Fst.foldl _ ?_ ?_
    | with_reducible refine Only.Fst.of ?_
    | with_reducible refine Only.Fst.pair ?_
    | with_reducible refine Only.Fst.elim (by assumption) ?_)

theorem State.probationExpiry_only {A : Nat} {s₀ : State} {s : State} {r : Nat} (hS : Only A s₀ s) (hA : Covers 0x820000000020000 A) :
    Only A s₀ (State.probationExpiry s r) := by
  unfold State.probationExpiry
  repeat' (first
    | with_reducible exact hS
    | with_reducible assumption
    | (with_reducible refine Covers.testBit hA ?_; decide)
    | (with_reducible refine Covers.trans ?_ hA; decide)
    | (refine fun _ => ?_; intros)
    | (extract_lets -underBinder +onlyGivenNames x; refine (fun (hx : Only A s₀ x) => ?_ : Only A s₀ x → _) ?_; (on_goal 2 => unfold x; clear x); (on_goal 1 => clear_value x; revert x; intro _ _))
    | (extract_lets -underBinder +onlyGivenNames x; unfold x; clear x)
    | (extract_lets -underBinder +onlyGivenNames x; revert x; intro _)
    | with_reducible refine Only.ite ?_ ?_
    | with_reducible refine State.updRec_only ?_ ?_
    | with_reducible refine State.postPoint_only ?_ ?_)

theorem State.hitAdd_only {A : Nat} {s₀ : State} {s : State} {ini : Nat} {hi : Nat} (hS : Only A s₀ s) (hA : Covers 0x1820000000020000 A) :
    Only A s₀ (State.hitAdd s ini hi) := by
  unfold State.hitAdd
  repeat' (first
    | with_reducible exact hS
    | with_reducible assumption
    | (with_reducible refine Covers.testBit hA ?_; decide)
    | (with_reducible refine Covers.trans ?_ hA; decide)
    | (refine fun _ => ?_; intros)
    | (extract_lets -underBinder +onlyGivenNames x; refine (fun (hx : Only A s₀ x) => ?_ : Only A s₀ x → _) ?_; (on_goal 2 => unfold x; clear x); (on_goal 1 => clear_value x; revert x; intro _ _))
    | (extract_lets -underBinder +onlyGivenNames x; unfold x; clear x)
    | (extract_lets -underBinder +onlyGivenNames x; revert x; intro _)
    | with_reducible refine State.updRec_only ?_ ?_
    | with_reducible refine State.orphan_only ?_ ?_
    | split
    | (refine fun _ => ?_))

theorem State.actqPop_only {A : Nat} {s₀ : State} {s : State} (hS : Only A s₀ s) (hA : Covers 0x20000000020000 A) :
    Only A s₀ (State.actqPop s) := by
  unfold State.actqPop
  repeat' (first
    | with_reducible exact hS
    | with_reducible assumption
    | (with_reducible refine Covers.testBit hA ?_; decide)
    | (with_reducible refine Covers.trans ?_ hA; decide)
    | (refine fun _ => ?_; intros)
    | with_reducible refine State.put_only ?_ ?_
    | with_reducible refine State.updLed_only ?_ ?_
    | split
    | (refine fun _ => ?_))

theorem State.actqDone_only {A : Nat} {s₀ : State} {s : State} {r : Nat} {p : Nat} {failed : Bool} (hS : Only A s₀ s) (hA : Covers 0x820000000020000 A) :
    Only A s₀ (State.actqDone s r p failed) := by
  unfold State.actqDone
  repeat' (first
    | with_reducible exact hS
    | with_reducible assumption
    | (with_reducible refine Covers.testBit hA ?_; decide)
    | (with_reducible refine Covers.trans ?_ hA; decide)
    | (refine fun _ => ?_; intros)
    | (extract_lets -underBinder +onlyGivenNames x; refine (fun (hx : Only A s₀ x) => ?_ : Only A s₀ x → _) ?_; (on_goal 2 => unfold x; clear x); (on_goal 1 => clear_value x; revert x; intro _ _))
    | (extract_lets -underBinder +onlyGivenNames x; unfold x; clear x)
    | (extract_lets -underBinder +onlyGivenNames x; revert x; intro _)
    | with_reducible refine Only.ite ?_ ?_
    | with_reducible refine State.err_only ?_ ?_ ?_
    | with_reducible refine State.updLed_only ?_ ?_
    | with_reducible refine State.updRec_only ?_ ?_)

theorem State.forgetRec_only {A : Nat} {s₀ : State} {s : State} {r : Nat} (hS : Only A s₀ s) (hA : Covers 0x20000000000000 A) :
    Only A s₀ (State.forgetRec s r) := by
  unfold State.forgetRec
  repeat' (first
    | with_reducible exact hS
    | with_reducible assumption
    | (with_reducible refine Covers.testBit hA ?_; decide)
    | (with_reducible refine Covers.trans ?_ hA; decide)
    | (refine fun _ => ?_; intros)
    | with_reducible refine State.updRec_only ?_ ?_)

theorem State.ledgerSelect_only {A : Nat} {s₀ : State} {s : State} {r : Nat} (hS : Only A s₀ s) (hA : Covers 0x20000 A) :
    Only A s₀ (State.ledgerSelect s r) := by
  unfold State.ledgerSelect
  repeat' (first
    | with_reducible exact hS
    | with_reducible assumption
    | (with_reducible refine Covers.testBit hA ?_; decide)
    | (with_reducible refine Covers.trans ?_ hA; decide)
    | (refine fun _ => ?_; intros)
    | (extract_lets -underBinder +onlyGivenNames x; refine (fun (hx : Only A s₀ x) => ?_ : Only A s₀ x → _) ?_; (on_goal 2 => unfold x; clear x); (on_goal 1 => clear_value x; revert x; intro _ _))
    | (extract_lets -underBinder +onlyGivenNames x; unfold x; clear x)
    | (extract_lets -underBinder +onlyGivenNames x; revert x; intro _)
    | with_reducible refine State.put_only ?_ ?_
    | with_reducible refine Only.forN _ ?_ ?_)

theorem State.ledgerWake_only {A : Nat} {s₀ : State} {s : State} (hS : Only A s₀ s) (hA : Covers 0x20000000000000 A) :
    Only A s₀ (State.ledgerWake s) := by
  unfold State.ledgerWake
  repeat' (first
    | with_reducible exact hS
    | with_reducible assumption
    | (with_reducible refine Covers.testBit hA ?_; decide)
    | (with_reducible refine Covers.trans ?_ hA; decide)
    | (refine fun _ => ?_; intros)
    | with_reducible refine Only.ite ?_ ?_
    | with_reducible refine State.updLed_only ?_ ?_)

end Sys2Proof.Machine
end

