-- ==== Sys2Proof/Laws/OnlyPower.lean ====
section
/-! SUPPORT. What each operation of Machine/Power.lean may change. -/

set_option linter.unusedTactic false
set_option linter.unreachableTactic false
set_option linter.unusedVariables false

namespace Sys2Proof.Machine

theorem State.updPwr_only {A : Nat} {s₀ : State} {s : State} {f : Power → Power} (hS : Only A s₀ s) (hA : Covers 0x80000000000000 A) :
    Only A s₀ (State.updPwr s f) := by
  unfold State.updPwr
  repeat' (first
    | with_reducible exact hS
    | with_reducible assumption
    | (with_reducible refine Covers.testBit hA ?_; decide)
    | (with_reducible refine Covers.trans ?_ hA; decide)
    | with_reducible refine Only.set_pwr ?_ ?_)

theorem State.live_only {A : Nat} {s₀ : State} {s : State} {f : State → State} (hS : Only A s₀ s) (hf : ∀ t, Only A s₀ t → Only A s₀ (f t)) :
    Only A s₀ (State.live s f) := by
  unfold State.live
  repeat' (first
    | with_reducible exact hS
    | with_reducible assumption
    | with_reducible refine Only.ite ?_ ?_
    | with_reducible refine hf _ ?_)

theorem State.alive_only {A : Nat} {s₀ : State} {s : State} {f : State → State} (hS : Only A s₀ s) (hf : ∀ t, Only A s₀ t → Only A s₀ (f t)) :
    Only A s₀ (State.alive s f) := by
  unfold State.alive
  repeat' (first
    | with_reducible exact hS
    | with_reducible assumption
    | with_reducible refine Only.ite ?_ ?_
    | with_reducible refine hf _ ?_
    | exact Only.OfRes.trap
    | exact Only.OfRes.held
    | with_reducible refine Only.OfRes.acted ?_
    | with_reducible refine Only.OfRes.ite ?_ ?_
    | with_reducible refine Only.OfRes.elim (by assumption) ?_)

theorem State.powered_only {A : Nat} {s₀ : State} {s : State} {f : State → State} (hS : Only A s₀ s) (hf : ∀ t, Only A s₀ t → Only A s₀ (f t)) :
    Only A s₀ (State.powered s f) := by
  unfold State.powered
  repeat' (first
    | with_reducible exact hS
    | with_reducible assumption
    | with_reducible refine Only.ite ?_ ?_
    | with_reducible refine hf _ ?_
    | exact Only.OfRes.trap
    | exact Only.OfRes.held
    | with_reducible refine Only.OfRes.acted ?_
    | with_reducible refine Only.OfRes.ite ?_ ?_
    | with_reducible refine Only.OfRes.elim (by assumption) ?_)

theorem State.pwrErr_only {A : Nat} {s₀ : State} {s : State} {f : Fld} (hS : Only A s₀ s) (hpf : A.testBit f.page = true) (hA : Covers 0x800000000000000 A) :
    Only A s₀ (State.pwrErr s f) := by
  unfold State.pwrErr
  repeat' (first
    | with_reducible exact hS
    | with_reducible assumption
    | (with_reducible refine Covers.testBit hA ?_; decide)
    | (with_reducible refine Covers.trans ?_ hA; decide)
    | with_reducible refine State.err_only ?_ ?_ ?_)

theorem State.powerDoze_only {A : Nat} {s₀ : State} {s : State} (hS : Only A s₀ s) (hA : Covers 0x880000000040000 A) :
    Only A s₀ (State.powerDoze s) := by
  unfold State.powerDoze
  repeat' (first
    | with_reducible exact hS
    | with_reducible assumption
    | (with_reducible refine Covers.testBit hA ?_; decide)
    | (with_reducible refine Covers.trans ?_ hA; decide)
    | (refine fun _ => ?_; intros)
    | with_reducible refine Only.ite ?_ ?_
    | with_reducible refine State.updPwr_only ?_ ?_
    | with_reducible refine State.pwrErr_only ?_ ?_ ?_)

theorem State.powerEnter_only {A : Nat} {s₀ : State} {s : State} {st : Nat} (hS : Only A s₀ s) (hA : Covers 0x80000000040000 A) :
    Only A s₀ (State.powerEnter s st) := by
  unfold State.powerEnter
  repeat' (first
    | with_reducible exact hS
    | with_reducible assumption
    | (with_reducible refine Covers.testBit hA ?_; decide)
    | (with_reducible refine Covers.trans ?_ hA; decide)
    | (refine fun _ => ?_; intros)
    | (extract_lets -underBinder +onlyGivenNames x; refine (fun (hx : Only A s₀ x) => ?_ : Only A s₀ x → _) ?_; (on_goal 2 => unfold x; clear x); (on_goal 1 => clear_value x; revert x; intro _ _))
    | (extract_lets -underBinder +onlyGivenNames x; unfold x; clear x)
    | (extract_lets -underBinder +onlyGivenNames x; revert x; intro _)
    | with_reducible refine State.put_only ?_ ?_
    | with_reducible refine State.updPwr_only ?_ ?_)

theorem State.powerEclipse_only {A : Nat} {s₀ : State} {s : State} (hS : Only A s₀ s) (hA : Covers 0x880000000040000 A) :
    Only A s₀ (State.powerEclipse s) := by
  unfold State.powerEclipse
  repeat' (first
    | with_reducible exact hS
    | with_reducible assumption
    | (with_reducible refine Covers.testBit hA ?_; decide)
    | (with_reducible refine Covers.trans ?_ hA; decide)
    | with_reducible refine Only.ite ?_ ?_
    | with_reducible refine State.pwrErr_only ?_ ?_ ?_
    | with_reducible refine State.powerEnter_only ?_ ?_)

theorem State.powerDusk_only {A : Nat} {s₀ : State} {s : State} (hS : Only A s₀ s) (hA : Covers 0x880000000040000 A) :
    Only A s₀ (State.powerDusk s) := by
  unfold State.powerDusk
  repeat' (first
    | with_reducible exact hS
    | with_reducible assumption
    | (with_reducible refine Covers.testBit hA ?_; decide)
    | (with_reducible refine Covers.trans ?_ hA; decide)
    | (refine fun _ => ?_; intros)
    | with_reducible refine Only.ite ?_ ?_
    | with_reducible refine State.put_only ?_ ?_
    | with_reducible refine State.updPwr_only ?_ ?_
    | with_reducible refine State.pwrErr_only ?_ ?_ ?_
    | with_reducible refine State.powerEnter_only ?_ ?_)

theorem State.powerAbort_only {A : Nat} {s₀ : State} {s : State} (hS : Only A s₀ s) (hA : Covers 0x880000000040000 A) :
    Only A s₀ (State.powerAbort s) := by
  unfold State.powerAbort
  repeat' (first
    | with_reducible exact hS
    | with_reducible assumption
    | (with_reducible refine Covers.testBit hA ?_; decide)
    | (with_reducible refine Covers.trans ?_ hA; decide)
    | (refine fun _ => ?_; intros)
    | with_reducible refine Only.ite ?_ ?_
    | with_reducible refine State.put_only ?_ ?_
    | with_reducible refine State.updPwr_only ?_ ?_
    | with_reducible refine State.pwrErr_only ?_ ?_ ?_)

theorem State.eclipseCommit_only {A : Nat} {s₀ : State} {s : State} (hS : Only A s₀ s) (hA : Covers 0x18D07940000501FA A) :
    Only A s₀ (State.eclipseCommit s) := by
  unfold State.eclipseCommit
  repeat' (first
    | with_reducible exact hS
    | with_reducible assumption
    | (with_reducible refine Covers.testBit hA ?_; decide)
    | (with_reducible refine Covers.trans ?_ hA; decide)
    | (refine fun _ => ?_; intros)
    | (extract_lets -underBinder +onlyGivenNames x; refine (fun (hx : Only A s₀ x) => ?_ : Only A s₀ x → _) ?_; (on_goal 2 => unfold x; clear x); (on_goal 1 => clear_value x; revert x; intro _ _))
    | (extract_lets -underBinder +onlyGivenNames x; unfold x; clear x)
    | (extract_lets -underBinder +onlyGivenNames x; revert x; intro _)
    | with_reducible refine Only.ite ?_ ?_
    | with_reducible refine State.put_only ?_ ?_
    | with_reducible refine State.tookDue_only ?_ ?_
    | with_reducible refine State.prismLost_only ?_ ?_
    | with_reducible refine State.updSeq_only ?_ ?_
    | with_reducible refine State.stopIssue_only ?_ ?_
    | with_reducible refine State.drainDone_only ?_ ?_
    | with_reducible refine State.dropLater_only ?_ ?_
    | with_reducible refine State.cancelCommand_only ?_ ?_
    | with_reducible refine State.endTimeline_only ?_ ?_
    | with_reducible refine State.updPwr_only ?_ ?_)

theorem State.eclipseDrain_only {A : Nat} {s₀ : State} {s : State} (hS : Only A s₀ s) (hA : Covers 0x1083000000040000 A) :
    Only A s₀ (State.eclipseDrain s) := by
  unfold State.eclipseDrain
  repeat' (first
    | with_reducible exact hS
    | with_reducible assumption
    | (with_reducible refine Covers.testBit hA ?_; decide)
    | (with_reducible refine Covers.trans ?_ hA; decide)
    | (refine fun _ => ?_; intros)
    | (extract_lets -underBinder +onlyGivenNames x; refine (fun (hx : Only A s₀ x) => ?_ : Only A s₀ x → _) ?_; (on_goal 2 => unfold x; clear x); (on_goal 1 => clear_value x; revert x; intro _ _))
    | (extract_lets -underBinder +onlyGivenNames x; unfold x; clear x)
    | (extract_lets -underBinder +onlyGivenNames x; revert x; intro _)
    | with_reducible refine Only.ite ?_ ?_
    | with_reducible refine State.put_only ?_ ?_
    | with_reducible refine State.add_only ?_ ?_ ?_
    | with_reducible refine State.raiseEvent_only ?_ ?_
    | with_reducible refine State.updRdo_only ?_ ?_
    | with_reducible refine State.updPwr_only ?_ ?_
    | with_reducible refine Only.foldl _ ?_ ?_
    | with_reducible refine Only.Fst.ite ?_ ?_
    | with_reducible refine Only.Fst.unpair (by assumption)
    | with_reducible refine Only.Fst.foldl _ ?_ ?_
    | with_reducible refine Only.Fst.of ?_
    | with_reducible refine Only.Fst.pair ?_
    | with_reducible refine Only.Fst.elim (by assumption) ?_)

theorem State.loseScratchpad_only {A : Nat} {s₀ : State} {s : State} (hS : Only A s₀ s) (hA : Covers 0xC000001000 A) :
    Only A s₀ (State.loseScratchpad s) := by
  unfold State.loseScratchpad
  repeat' (first
    | with_reducible exact hS
    | with_reducible assumption
    | (with_reducible refine Covers.testBit hA ?_; decide)
    | (with_reducible refine Covers.trans ?_ hA; decide)
    | (refine fun _ => ?_; intros)
    | (extract_lets -underBinder +onlyGivenNames x; refine (fun (hx : Only A s₀ x) => ?_ : Only A s₀ x → _) ?_; (on_goal 2 => unfold x; clear x); (on_goal 1 => clear_value x; revert x; intro _ _))
    | (extract_lets -underBinder +onlyGivenNames x; unfold x; clear x)
    | (extract_lets -underBinder +onlyGivenNames x; revert x; intro _)
    | with_reducible refine State.put_only ?_ ?_
    | with_reducible refine Only.forN _ ?_ ?_
    | with_reducible refine Only.set_mem_poison ?_ ?_ ?_ ?_ ?_
    | exact Sparse.wf_upd _ _ _ _
    | exact Sparse.wf_set _ _ _ _
    | exact Sparse.wf_filter _ _ _
    | exact Sparse.wf_keep _ _ _
    | exact Sparse.wf_filter _ _ _ (by assumption)
    | exact Sparse.wf_keep _ _ _ (by assumption)
    | exact Sparse.wf_upd _ _ _ _ (by assumption))

theorem State.islandsOff_only {A : Nat} {s₀ : State} {s : State} (hS : Only A s₀ s) (hA : Covers 0x8101040000100A0 A) :
    Only A s₀ (State.islandsOff s) := by
  unfold State.islandsOff
  repeat' (first
    | with_reducible exact hS
    | with_reducible assumption
    | (with_reducible refine Covers.testBit hA ?_; decide)
    | (with_reducible refine Covers.trans ?_ hA; decide)
    | (refine fun _ => ?_; intros)
    | (extract_lets -underBinder +onlyGivenNames x; refine (fun (hx : Only A s₀ x) => ?_ : Only A s₀ x → _) ?_; (on_goal 2 => unfold x; clear x); (on_goal 1 => clear_value x; revert x; intro _ _))
    | (extract_lets -underBinder +onlyGivenNames x; unfold x; clear x)
    | (extract_lets -underBinder +onlyGivenNames x; revert x; intro _)
    | with_reducible refine Only.ite ?_ ?_
    | with_reducible refine State.enterIsl_only ?_ ?_
    | with_reducible refine Only.foldl _ ?_ ?_
    | with_reducible refine Only.Fst.ite ?_ ?_
    | with_reducible refine Only.Fst.unpair (by assumption)
    | with_reducible refine Only.Fst.foldl _ ?_ ?_
    | with_reducible refine Only.Fst.of ?_
    | with_reducible refine Only.Fst.pair ?_
    | with_reducible refine Only.Fst.elim (by assumption) ?_
    | with_reducible refine Only.set_arr ?_ ?_)

theorem State.lanesOff_only {A : Nat} {s₀ : State} {s : State} (hS : Only A s₀ s) (hA : Covers 0x80142000000050C A) :
    Only A s₀ (State.lanesOff s) := by
  unfold State.lanesOff
  repeat' (first
    | with_reducible exact hS
    | with_reducible assumption
    | (with_reducible refine Covers.testBit hA ?_; decide)
    | (with_reducible refine Covers.trans ?_ hA; decide)
    | (refine fun _ => ?_; intros)
    | (extract_lets -underBinder +onlyGivenNames x; refine (fun (hx : Only A s₀ x) => ?_ : Only A s₀ x → _) ?_; (on_goal 2 => unfold x; clear x); (on_goal 1 => clear_value x; revert x; intro _ _))
    | (extract_lets -underBinder +onlyGivenNames x; unfold x; clear x)
    | (extract_lets -underBinder +onlyGivenNames x; revert x; intro _)
    | with_reducible refine Only.ite ?_ ?_
    | with_reducible refine State.put_only ?_ ?_
    | with_reducible refine State.enterLane_only ?_ ?_
    | with_reducible refine State.putLinkState_only ?_ ?_
    | with_reducible refine State.worgaAddress_only ?_ ?_
    | with_reducible refine State.resetMarks_only ?_ ?_
    | with_reducible refine State.forgetPeer_only ?_ ?_
    | with_reducible refine State.updPort_only ?_ ?_
    | with_reducible refine State.putPort_only ?_ ?_
    | with_reducible refine Only.foldl _ ?_ ?_
    | with_reducible refine Only.forN _ ?_ ?_
    | with_reducible refine Only.Fst.ite ?_ ?_
    | with_reducible refine Only.Fst.unpair (by assumption)
    | with_reducible refine Only.Fst.foldl _ ?_ ?_
    | with_reducible refine Only.Fst.of ?_
    | with_reducible refine Only.Fst.pair ?_
    | with_reducible refine Only.Fst.elim (by assumption) ?_)

theorem State.pinsGated_only {A : Nat} {s₀ : State} {s : State} (hS : Only A s₀ s) (hA : Covers 0x200000000080 A) :
    Only A s₀ (State.pinsGated s) := by
  unfold State.pinsGated
  repeat' (first
    | with_reducible exact hS
    | with_reducible assumption
    | (with_reducible refine Covers.testBit hA ?_; decide)
    | (with_reducible refine Covers.trans ?_ hA; decide)
    | (refine fun _ => ?_; intros)
    | (extract_lets -underBinder +onlyGivenNames x; refine (fun (hx : Only A s₀ x) => ?_ : Only A s₀ x → _) ?_; (on_goal 2 => unfold x; clear x); (on_goal 1 => clear_value x; revert x; intro _ _))
    | (extract_lets -underBinder +onlyGivenNames x; unfold x; clear x)
    | (extract_lets -underBinder +onlyGivenNames x; revert x; intro _)
    | with_reducible refine State.put_only ?_ ?_
    | with_reducible refine State.updSeq_only ?_ ?_
    | with_reducible refine State.updGlint_only ?_ ?_
    | with_reducible refine Only.foldl _ ?_ ?_
    | with_reducible refine Only.Fst.ite ?_ ?_
    | with_reducible refine Only.Fst.unpair (by assumption)
    | with_reducible refine Only.Fst.foldl _ ?_ ?_
    | with_reducible refine Only.Fst.of ?_
    | with_reducible refine Only.Fst.pair ?_
    | with_reducible refine Only.Fst.elim (by assumption) ?_)

theorem State.eclipseExit_only {A : Nat} {s₀ : State} {s : State} (hS : Only A s₀ s) (hA : Covers 0x18B6331400055FEE A) :
    Only A s₀ (State.eclipseExit s) := by
  unfold State.eclipseExit
  repeat' (first
    | with_reducible exact hS
    | with_reducible assumption
    | (with_reducible refine Covers.testBit hA ?_; decide)
    | (with_reducible refine Covers.trans ?_ hA; decide)
    | (refine fun _ => ?_; intros)
    | (extract_lets -underBinder +onlyGivenNames x; refine (fun (hx : Only A s₀ x) => ?_ : Only A s₀ x → _) ?_; (on_goal 2 => unfold x; clear x); (on_goal 1 => clear_value x; revert x; intro _ _))
    | (extract_lets -underBinder +onlyGivenNames x; unfold x; clear x)
    | (extract_lets -underBinder +onlyGivenNames x; revert x; intro _)
    | with_reducible refine Only.ite ?_ ?_
    | with_reducible refine State.put_only ?_ ?_
    | with_reducible refine State.tookFree_only ?_ ?_
    | with_reducible refine State.putStack_only ?_ ?_
    | with_reducible refine State.tarTrigger_only ?_ ?_
    | with_reducible refine State.enterIsl_only ?_ ?_
    | with_reducible refine State.enterLane_only ?_ ?_
    | with_reducible refine State.seqErr_only ?_ ?_ ?_
    | with_reducible refine State.bgDiscard_only ?_ ?_
    | with_reducible refine State.putLinkState_only ?_ ?_
    | with_reducible refine State.putPort_only ?_ ?_
    | with_reducible refine State.facetResume_only ?_ ?_
    | with_reducible refine State.enterAcquire_only ?_ ?_
    | with_reducible refine State.ledgerWake_only ?_ ?_
    | with_reducible refine State.releaseHeld_only ?_ ?_
    | with_reducible refine State.startThread_only ?_ ?_
    | with_reducible refine State.updPwr_only ?_ ?_
    | with_reducible refine Only.foldl _ ?_ ?_
    | with_reducible refine Only.forN _ ?_ ?_
    | with_reducible refine Only.Fst.ite ?_ ?_
    | with_reducible refine Only.Fst.unpair (by assumption)
    | with_reducible refine Only.Fst.foldl _ ?_ ?_
    | with_reducible refine Only.Fst.of ?_
    | with_reducible refine Only.Fst.pair ?_
    | with_reducible refine Only.Fst.elim (by assumption) ?_)

theorem State.wake_only {A : Nat} {s₀ : State} {s : State} {b : Nat} {event : Nat} (hS : Only A s₀ s) (hA : Covers 0x18B6331400055FEE A) :
    Only A s₀ (State.wake s b event) := by
  unfold State.wake
  repeat' (first
    | with_reducible exact hS
    | with_reducible assumption
    | (with_reducible refine Covers.testBit hA ?_; decide)
    | (with_reducible refine Covers.trans ?_ hA; decide)
    | with_reducible refine State.setBit_only ?_ ?_
    | with_reducible refine State.raiseEvent_only ?_ ?_
    | with_reducible refine State.eclipseExit_only ?_ ?_)

theorem State.wakeTiming_only {A : Nat} {s₀ : State} {s : State} (hS : Only A s₀ s) (hA : Covers 0x18B6331400055FEE A) :
    Only A s₀ (State.wakeTiming s) := by
  unfold State.wakeTiming
  repeat' (first
    | with_reducible exact hS
    | with_reducible assumption
    | (with_reducible refine Covers.testBit hA ?_; decide)
    | (with_reducible refine Covers.trans ?_ hA; decide)
    | with_reducible refine Only.ite ?_ ?_
    | with_reducible refine State.wake_only ?_ ?_)

theorem State.keeperTimer_only {A : Nat} {s₀ : State} {s : State} (hS : Only A s₀ s) (hA : Covers 0x18B6331400055FEE A) :
    Only A s₀ (State.keeperTimer s) := by
  unfold State.keeperTimer
  repeat' (first
    | with_reducible exact hS
    | with_reducible assumption
    | (with_reducible refine Covers.testBit hA ?_; decide)
    | (with_reducible refine Covers.trans ?_ hA; decide)
    | (extract_lets -underBinder +onlyGivenNames x; refine (fun (hx : Only A s₀ x) => ?_ : Only A s₀ x → _) ?_; (on_goal 2 => unfold x; clear x); (on_goal 1 => clear_value x; revert x; intro _ _))
    | (extract_lets -underBinder +onlyGivenNames x; unfold x; clear x)
    | (extract_lets -underBinder +onlyGivenNames x; revert x; intro _)
    | with_reducible refine Only.ite ?_ ?_
    | with_reducible refine State.setBit_only ?_ ?_
    | with_reducible refine State.thrTimerExpiry_only ?_ ?_
    | with_reducible refine State.eclipseExit_only ?_ ?_)

theorem State.threadTimer_only {A : Nat} {s₀ : State} {s : State} {u : Nat} (hS : Only A s₀ s) (hA : Covers 0x18B6331400055FEE A) :
    Only A s₀ (State.threadTimer s u) := by
  unfold State.threadTimer
  repeat' (first
    | with_reducible exact hS
    | with_reducible assumption
    | (with_reducible refine Covers.testBit hA ?_; decide)
    | (with_reducible refine Covers.trans ?_ hA; decide)
    | with_reducible refine Only.ite ?_ ?_
    | with_reducible refine State.thrTimerExpiry_only ?_ ?_
    | with_reducible refine State.keeperTimer_only ?_ ?_)

theorem State.powerRun_only {A : Nat} {s₀ : State} {s : State} {keeper : Bool} (hS : Only A s₀ s) (hA : Covers 0x18B6331400055FEE A) :
    Only A s₀ (State.powerRun s keeper) := by
  unfold State.powerRun
  repeat' (first
    | with_reducible exact hS
    | with_reducible assumption
    | (with_reducible refine Covers.testBit hA ?_; decide)
    | (with_reducible refine Covers.trans ?_ hA; decide)
    | (refine fun _ => ?_; intros)
    | with_reducible refine Only.ite ?_ ?_
    | with_reducible refine State.updPwr_only ?_ ?_
    | with_reducible refine State.pwrErr_only ?_ ?_ ?_
    | with_reducible refine State.eclipseExit_only ?_ ?_)

theorem State.publishRetained_only {A : Nat} {s₀ : State} {s : State} (hS : Only A s₀ s) (hA : Covers 0x20000000128000 A) :
    Only A s₀ (State.publishRetained s) := by
  unfold State.publishRetained
  repeat' (first
    | with_reducible exact hS
    | with_reducible assumption
    | (with_reducible refine Covers.testBit hA ?_; decide)
    | (with_reducible refine Covers.trans ?_ hA; decide)
    | (refine fun _ => ?_; intros)
    | (extract_lets -underBinder +onlyGivenNames x; refine (fun (hx : Only A s₀ x) => ?_ : Only A s₀ x → _) ?_; (on_goal 2 => unfold x; clear x); (on_goal 1 => clear_value x; revert x; intro _ _))
    | (extract_lets -underBinder +onlyGivenNames x; unfold x; clear x)
    | (extract_lets -underBinder +onlyGivenNames x; revert x; intro _)
    | with_reducible refine State.put_only ?_ ?_
    | with_reducible refine State.publishErq_only ?_ ?_
    | with_reducible refine State.publishJournal_only ?_ ?_
    | with_reducible refine State.mapLane_only ?_ ?_
    | with_reducible refine State.publishUsed_only ?_ ?_
    | with_reducible refine Only.foldl _ ?_ ?_
    | with_reducible refine Only.Fst.ite ?_ ?_
    | with_reducible refine Only.Fst.unpair (by assumption)
    | with_reducible refine Only.Fst.foldl _ ?_ ?_
    | split
    | with_reducible refine Only.Fst.of ?_
    | with_reducible refine Only.Fst.pair ?_
    | with_reducible refine Only.Fst.elim (by assumption) ?_
    | (refine fun _ => ?_))

theorem State.retain_only {A : Nat} {s₀ : State} {s : State} {old : State} (hS : Only A s₀ s) (ho : Only A s₀ old) (hA : Covers 0x1FFFFFFC007FFFFF A) :
    Only A s₀ (State.retain s old) := by
  unfold State.retain
  intros
  repeat' (first
    | with_reducible exact hS
    | (with_reducible refine Covers.testBit hA ?_; decide)
    | (with_reducible refine Covers.trans ?_ hA; decide)
    | with_reducible refine State.put_only ?_ ?_
    | with_reducible refine State.updCopy_only ?_ ?_ ?_
    | with_reducible refine State.publishRetained_only ?_ ?_
    | with_reducible refine Only.set_pwr ?_ ?_)
  exact Only.all hA hS.pending (fun w => Sparse.wf_keep _ _ _ (ho.csrWf w)) hS.memWf hS.poisonWf hS.lanesWf hS.countsWf

theorem State.fromReset_only {A : Nat} {s₀ : State} {s : State} (hS : Only A s₀ s) (hA : Covers 0x1FFFFFFC007FFFFF A) :
    Only A s₀ (State.fromReset s) := by
  exact hS.trans (Only.all hA rfl (fun _ => rfl) (fun _ => rfl) (fun _ => rfl) (fun _ => rfl) (fun _ => rfl))

theorem State.mailboxClears_only {A : Nat} {s₀ : State} {s : State} (hS : Only A s₀ s) (hA : Covers 0x1000 A) :
    Only A s₀ (State.mailboxClears s) := by
  unfold State.mailboxClears
  repeat' (first
    | with_reducible exact hS
    | with_reducible assumption
    | (with_reducible refine Covers.testBit hA ?_; decide)
    | (with_reducible refine Covers.trans ?_ hA; decide)
    | with_reducible refine State.put_only ?_ ?_)

theorem State.warmReset_only {A : Nat} {s₀ : State} {s : State} (hS : Only A s₀ s) (hA : Covers 0x1FFFFFFC007FFFFF A) :
    Only A s₀ (State.warmReset s) := by
  unfold State.warmReset
  repeat' (first
    | with_reducible exact hS
    | with_reducible assumption
    | (with_reducible refine Covers.testBit hA ?_; decide)
    | (with_reducible refine Covers.trans ?_ hA; decide)
    | (extract_lets -underBinder +onlyGivenNames x; refine (fun (hx : Only A s₀ x) => ?_ : Only A s₀ x → _) ?_; (on_goal 2 => unfold x; clear x); (on_goal 1 => clear_value x; revert x; intro _ _))
    | (extract_lets -underBinder +onlyGivenNames x; unfold x; clear x)
    | (extract_lets -underBinder +onlyGivenNames x; revert x; intro _)
    | with_reducible refine State.cutUsdo_only ?_ ?_
    | with_reducible refine State.retain_only ?_ ?_ ?_
    | with_reducible refine State.fromReset_only ?_ ?_)

theorem State.pinReset_only {A : Nat} {s₀ : State} {s : State} (hS : Only A s₀ s) (hA : Covers 0x1FFFFFFC007FFFFF A) :
    Only A s₀ (State.pinReset s) := by
  unfold State.pinReset
  repeat' (first
    | with_reducible exact hS
    | with_reducible assumption
    | (with_reducible refine Covers.testBit hA ?_; decide)
    | (with_reducible refine Covers.trans ?_ hA; decide)
    | (refine fun _ => ?_; intros)
    | with_reducible refine State.updPwr_only ?_ ?_
    | with_reducible refine State.mailboxClears_only ?_ ?_
    | with_reducible refine State.warmReset_only ?_ ?_)

theorem State.devReset_only {A : Nat} {s₀ : State} {s : State} (hS : Only A s₀ s) (hA : Covers 0x1FFFFFFC007FFFFF A) :
    Only A s₀ (State.devReset s) := by
  unfold State.devReset
  repeat' (first
    | with_reducible exact hS
    | with_reducible assumption
    | (with_reducible refine Covers.testBit hA ?_; decide)
    | (with_reducible refine Covers.trans ?_ hA; decide)
    | with_reducible refine State.pinReset_only ?_ ?_)

theorem State.powerOn_only {A : Nat} {s₀ : State} {s : State} {board : List (Nat × List (BitVec 8))} (hS : Only A s₀ s) (hA : Covers 0x1FFFFFFC007FFFFF A) :
    Only A s₀ (State.powerOn s board) := by
  unfold State.powerOn
  repeat' (first
    | with_reducible exact hS
    | with_reducible assumption
    | (with_reducible refine Covers.testBit hA ?_; decide)
    | (with_reducible refine Covers.trans ?_ hA; decide)
    | (refine fun _ => ?_; intros)
    | with_reducible refine State.updPwr_only ?_ ?_
    | with_reducible refine State.fromReset_only ?_ ?_
    | with_reducible refine State.mailboxClears_only ?_ ?_
    | with_reducible refine Only.foldl _ ?_ ?_
    | with_reducible refine Only.Fst.ite ?_ ?_
    | with_reducible refine Only.Fst.unpair (by assumption)
    | with_reducible refine Only.Fst.foldl _ ?_ ?_
    | with_reducible refine Only.Fst.of ?_
    | with_reducible refine Only.Fst.pair ?_
    | with_reducible refine Only.Fst.elim (by assumption) ?_
    | with_reducible refine Only.set_flash ?_ ?_)

theorem State.lossHold_only {A : Nat} {s₀ : State} {s : State} (hS : Only A s₀ s) (hA : Covers 0x1FFFFFFC007FFFFF A) :
    Only A s₀ (State.lossHold s) := by
  unfold State.lossHold
  repeat' (first
    | with_reducible exact hS
    | with_reducible assumption
    | (with_reducible refine Covers.testBit hA ?_; decide)
    | (with_reducible refine Covers.trans ?_ hA; decide)
    | (refine fun _ => ?_; intros)
    | with_reducible refine State.updPwr_only ?_ ?_
    | with_reducible refine State.warmReset_only ?_ ?_)

theorem State.pwrgdLoss_only {A : Nat} {s₀ : State} {s : State} {aon : Bool} (hS : Only A s₀ s) (hA : Covers 0x1FFFFFFC007FFFFF A) :
    Only A s₀ (State.pwrgdLoss s aon) := by
  unfold State.pwrgdLoss
  repeat' (first
    | with_reducible exact hS
    | with_reducible assumption
    | (with_reducible refine Covers.testBit hA ?_; decide)
    | (with_reducible refine Covers.trans ?_ hA; decide)
    | (refine fun _ => ?_; intros)
    | with_reducible refine Only.ite ?_ ?_
    | with_reducible refine State.updPwr_only ?_ ?_
    | with_reducible refine State.fromReset_only ?_ ?_
    | with_reducible refine State.lossHold_only ?_ ?_)

theorem State.brownout_only {A : Nat} {s₀ : State} {s : State} {core : Bool} (hS : Only A s₀ s) (hA : Covers 0x1FFFFFFC007FFFFF A) :
    Only A s₀ (State.brownout s core) := by
  unfold State.brownout
  repeat' (first
    | with_reducible exact hS
    | with_reducible assumption
    | (with_reducible refine Covers.testBit hA ?_; decide)
    | (with_reducible refine Covers.trans ?_ hA; decide)
    | (extract_lets -underBinder +onlyGivenNames x; refine (fun (hx : Only A s₀ x) => ?_ : Only A s₀ x → _) ?_; (on_goal 2 => unfold x; clear x); (on_goal 1 => clear_value x; revert x; intro _ _))
    | (extract_lets -underBinder +onlyGivenNames x; unfold x; clear x)
    | (extract_lets -underBinder +onlyGivenNames x; revert x; intro _)
    | with_reducible refine Only.ite ?_ ?_
    | with_reducible refine State.put_only ?_ ?_
    | with_reducible refine State.inc_only ?_ ?_ ?_
    | with_reducible refine State.err_only ?_ ?_ ?_
    | with_reducible refine State.lossHold_only ?_ ?_)

theorem State.aonBrownout_only {A : Nat} {s₀ : State} {s : State} (hS : Only A s₀ s) (hA : Covers 0x1FFFFFFC007FFFFF A) :
    Only A s₀ (State.aonBrownout s) := by
  unfold State.aonBrownout
  repeat' (first
    | with_reducible exact hS
    | with_reducible assumption
    | (with_reducible refine Covers.testBit hA ?_; decide)
    | (with_reducible refine Covers.trans ?_ hA; decide)
    | with_reducible refine Only.ite ?_ ?_
    | with_reducible refine State.fromReset_only ?_ ?_
    | with_reducible refine State.mailboxClears_only ?_ ?_)

theorem State.gatedReset_only {A : Nat} {s₀ : State} {s : State} (hS : Only A s₀ s) (hA : Covers 0x1FFFFFFC007FFFFF A) :
    Only A s₀ (State.gatedReset s) := by
  unfold State.gatedReset
  refine State.put_only ?_ (hA.testBit (by decide))
  refine State.put_only ?_ (hA.testBit (by decide))
  exact hS.trans (Only.all hA rfl (fun w => Sparse.wf_keep 0 s.csr (fun k => alwaysOnKey k || mailboxKey k) w)
    (fun w => Sparse.wf_filter 0 s.mem (fun e => alwaysOnByte e.1) w) (fun w => Sparse.wf_keep false s.poison alwaysOnByte w) (fun _ => rfl)
    (fun w => Sparse.wf_keep 0 s.counts (fun k => alwaysOnKey k || mailboxKey k) w))

theorem State.thermalTrip_only {A : Nat} {s₀ : State} {s : State} (hS : Only A s₀ s) (hA : Covers 0x1FFFFFFC007FFFFF A) :
    Only A s₀ (State.thermalTrip s) := by
  unfold State.thermalTrip
  repeat' (first
    | with_reducible exact hS
    | with_reducible assumption
    | (with_reducible refine Covers.testBit hA ?_; decide)
    | (with_reducible refine Covers.trans ?_ hA; decide)
    | (refine fun _ => ?_; intros)
    | (extract_lets -underBinder +onlyGivenNames x; refine (fun (hx : Only A s₀ x) => ?_ : Only A s₀ x → _) ?_; (on_goal 2 => unfold x; clear x); (on_goal 1 => clear_value x; revert x; intro _ _))
    | (extract_lets -underBinder +onlyGivenNames x; unfold x; clear x)
    | (extract_lets -underBinder +onlyGivenNames x; revert x; intro _)
    | with_reducible refine State.put_only ?_ ?_
    | with_reducible refine State.err_only ?_ ?_ ?_
    | with_reducible refine State.updPwr_only ?_ ?_
    | with_reducible refine State.pinsGated_only ?_ ?_
    | with_reducible refine State.gatedReset_only ?_ ?_)

theorem State.kick_only {A : Nat} {s₀ : State} {s : State} (hS : Only A s₀ s) (hA : Covers 0x80000000000000 A) :
    Only A s₀ (State.kick s) := by
  unfold State.kick
  repeat' (first
    | with_reducible exact hS
    | with_reducible assumption
    | (with_reducible refine Covers.testBit hA ?_; decide)
    | (with_reducible refine Covers.trans ?_ hA; decide)
    | (refine fun _ => ?_; intros)
    | with_reducible refine State.updPwr_only ?_ ?_)

theorem State.watchdogExpiry_only {A : Nat} {s₀ : State} {s : State} {t : Nat} (hS : Only A s₀ s) (hA : Covers 0x188E20D4000C68C0 A) :
    Only A s₀ (State.watchdogExpiry s t) := by
  unfold State.watchdogExpiry
  repeat' (first
    | with_reducible exact hS
    | with_reducible assumption
    | (with_reducible refine Covers.testBit hA ?_; decide)
    | (with_reducible refine Covers.trans ?_ hA; decide)
    | (extract_lets -underBinder +onlyGivenNames x; refine (fun (hx : Only A s₀ x) => ?_ : Only A s₀ x → _) ?_; (on_goal 2 => unfold x; clear x); (on_goal 1 => clear_value x; revert x; intro _ _))
    | (extract_lets -underBinder +onlyGivenNames x; unfold x; clear x)
    | (extract_lets -underBinder +onlyGivenNames x; revert x; intro _)
    | with_reducible refine Only.ite ?_ ?_
    | with_reducible refine State.at_only ?_ ?_
    | with_reducible refine State.keeperReset_only ?_ ?_
    | with_reducible refine State.pwrErr_only ?_ ?_ ?_)

theorem State.threadWiped_only {A : Nat} {s₀ : State} {s : State} {u : Nat} (hS : Only A s₀ s) (hA : Covers 0x2000000000000 A) :
    Only A s₀ (State.threadWiped s u) := by
  unfold State.threadWiped
  repeat' (first
    | with_reducible exact hS
    | with_reducible assumption
    | (with_reducible refine Covers.testBit hA ?_; decide)
    | (with_reducible refine Covers.trans ?_ hA; decide)
    | with_reducible refine Only.set_cpu ?_ ?_)

theorem State.threadCleared_only {A : Nat} {s₀ : State} {s : State} {c : Nat} {t : Nat} (hS : Only A s₀ s) (hA : Covers 0x180E001000006800 A) :
    Only A s₀ (State.threadCleared s c t) := by
  unfold State.threadCleared
  repeat' (first
    | with_reducible exact hS
    | with_reducible assumption
    | (with_reducible refine Covers.testBit hA ?_; decide)
    | (with_reducible refine Covers.trans ?_ hA; decide)
    | with_reducible refine State.put_only ?_ ?_
    | with_reducible refine State.putThState_only ?_ ?_
    | with_reducible refine State.ownerReset_only ?_ ?_
    | with_reducible refine State.masterTags_only ?_ ?_
    | with_reducible refine State.cutFree_only ?_ ?_
    | with_reducible refine State.threadWiped_only ?_ ?_)

theorem State.coreCleared_only {A : Nat} {s₀ : State} {s : State} {c : Nat} (hS : Only A s₀ s) (hA : Covers 0x2000000000000 A) :
    Only A s₀ (State.coreCleared s c) := by
  unfold State.coreCleared
  repeat' (first
    | with_reducible exact hS
    | with_reducible assumption
    | (with_reducible refine Covers.testBit hA ?_; decide)
    | (with_reducible refine Covers.trans ?_ hA; decide)
    | with_reducible refine Only.set_cpu ?_ ?_)

theorem State.coreReset_only {A : Nat} {s₀ : State} {s : State} {c : Nat} (hS : Only A s₀ s) (hA : Covers 0x180E2010000068C0 A) :
    Only A s₀ (State.coreReset s c) := by
  unfold State.coreReset
  repeat' (first
    | with_reducible exact hS
    | with_reducible assumption
    | (with_reducible refine Covers.testBit hA ?_; decide)
    | (with_reducible refine Covers.trans ?_ hA; decide)
    | (refine fun _ => ?_; intros)
    | with_reducible refine State.startThread_only ?_ ?_
    | with_reducible refine State.threadCleared_only ?_ ?_
    | with_reducible refine State.coreCleared_only ?_ ?_
    | with_reducible refine Only.foldl _ ?_ ?_
    | with_reducible refine Only.Fst.ite ?_ ?_
    | with_reducible refine Only.Fst.unpair (by assumption)
    | with_reducible refine Only.Fst.foldl _ ?_ ?_
    | with_reducible refine Only.Fst.of ?_
    | with_reducible refine Only.Fst.pair ?_
    | with_reducible refine Only.Fst.elim (by assumption) ?_)

theorem State.masterReset_only {A : Nat} {s₀ : State} {s : State} {i : Nat} (hS : Only A s₀ s) (hA : Covers 0x180E001000002800 A) :
    Only A s₀ (State.masterReset s i) := by
  unfold State.masterReset
  repeat' (first
    | with_reducible exact hS
    | with_reducible assumption
    | (with_reducible refine Covers.testBit hA ?_; decide)
    | (with_reducible refine Covers.trans ?_ hA; decide)
    | with_reducible refine State.ownerReset_only ?_ ?_
    | with_reducible refine State.masterTags_only ?_ ?_
    | with_reducible refine State.cutFree_only ?_ ?_)

theorem State.edgeReset_only {A : Nat} {s₀ : State} {s : State} (hS : Only A s₀ s) (hA : Covers 0x1C0E03100040280A A) :
    Only A s₀ (State.edgeReset s) := by
  unfold State.edgeReset
  repeat' (first
    | with_reducible exact hS
    | with_reducible assumption
    | (with_reducible refine Covers.testBit hA ?_; decide)
    | (with_reducible refine Covers.trans ?_ hA; decide)
    | with_reducible refine State.resetEdge_only ?_ ?_
    | with_reducible refine State.masterReset_only ?_ ?_)

theorem State.dmaGroupReset_only {A : Nat} {s₀ : State} {s : State} {g : Nat} (hS : Only A s₀ s) (hA : Covers 0x180E001000002800 A) :
    Only A s₀ (State.dmaGroupReset s g) := by
  unfold State.dmaGroupReset
  repeat' (first
    | with_reducible exact hS
    | with_reducible assumption
    | (with_reducible refine Covers.testBit hA ?_; decide)
    | (with_reducible refine Covers.trans ?_ hA; decide)
    | (refine fun _ => ?_; intros)
    | with_reducible refine State.dmaReset_only ?_ ?_
    | with_reducible refine State.masterReset_only ?_ ?_
    | with_reducible refine Only.foldl _ ?_ ?_
    | with_reducible refine Only.Fst.ite ?_ ?_
    | with_reducible refine Only.Fst.unpair (by assumption)
    | with_reducible refine Only.Fst.foldl _ ?_ ?_
    | with_reducible refine Only.Fst.of ?_
    | with_reducible refine Only.Fst.pair ?_
    | with_reducible refine Only.Fst.elim (by assumption) ?_)

theorem State.gnomonReset_only {A : Nat} {s₀ : State} {s : State} (hS : Only A s₀ s) (hA : Covers 0x18507940000101FA A) :
    Only A s₀ (State.gnomonReset s) := by
  unfold State.gnomonReset
  refine Only.set_csr_gno_counts (Only.ite hS (State.endTimeline_only hS (Covers.trans (by decide) hA)))
    (fun w => Sparse.wf_keep _ _ _ w) (fun w => Sparse.wf_keep _ _ _ w) (hA.testBit (by decide)) (hA.testBit (by decide)) ?_
  intro k _ hk
  refine Sparse.get_keep_same _ _ _ _ ?_
  have : k / 0x200000 ≠ 1 := fun e => by
    rw [e, hA.testBit (by decide)] at hk
    cases hk
  simp only [bne_iff_ne]
  omega

theorem State.worgaReset_only {A : Nat} {s₀ : State} {s : State} (hS : Only A s₀ s) (hA : Covers 0x180E401000002900 A) :
    Only A s₀ (State.worgaReset s) := by
  unfold State.worgaReset
  repeat' (first
    | with_reducible exact hS
    | with_reducible assumption
    | (with_reducible refine Covers.testBit hA ?_; decide)
    | (with_reducible refine Covers.trans ?_ hA; decide)
    | (refine fun _ => ?_; intros)
    | (extract_lets -underBinder +onlyGivenNames x; refine (fun (hx : Only A s₀ x) => ?_ : Only A s₀ x → _) ?_; (on_goal 2 => unfold x; clear x); (on_goal 1 => clear_value x; revert x; intro _ _))
    | (extract_lets -underBinder +onlyGivenNames x; unfold x; clear x)
    | (extract_lets -underBinder +onlyGivenNames x; revert x; intro _)
    | with_reducible refine State.putLinkState_only ?_ ?_
    | with_reducible refine State.worgaAddress_only ?_ ?_
    | with_reducible refine State.resetMarks_only ?_ ?_
    | with_reducible refine State.forgetPeer_only ?_ ?_
    | with_reducible refine State.masterReset_only ?_ ?_
    | with_reducible refine Only.foldl _ ?_ ?_
    | with_reducible refine Only.Fst.ite ?_ ?_
    | with_reducible refine Only.Fst.unpair (by assumption)
    | with_reducible refine Only.Fst.foldl _ ?_ ?_
    | with_reducible refine Only.Fst.of ?_
    | with_reducible refine Only.Fst.pair ?_
    | with_reducible refine Only.Fst.elim (by assumption) ?_
    | with_reducible refine Only.set_wor ?_ ?_)

theorem State.readoutReset_only {A : Nat} {s₀ : State} {s : State} (hS : Only A s₀ s) (hA : Covers 0x180F001000002C00 A) :
    Only A s₀ (State.readoutReset s) := by
  unfold State.readoutReset
  repeat' (first
    | with_reducible exact hS
    | with_reducible assumption
    | (with_reducible refine Covers.testBit hA ?_; decide)
    | (with_reducible refine Covers.trans ?_ hA; decide)
    | (refine fun _ => ?_; intros)
    | (extract_lets -underBinder +onlyGivenNames x; refine (fun (hx : Only A s₀ x) => ?_ : Only A s₀ x → _) ?_; (on_goal 2 => unfold x; clear x); (on_goal 1 => clear_value x; revert x; intro _ _))
    | (extract_lets -underBinder +onlyGivenNames x; unfold x; clear x)
    | (extract_lets -underBinder +onlyGivenNames x; revert x; intro _)
    | with_reducible refine State.publishRdo_only ?_ ?_
    | with_reducible refine State.putPort_only ?_ ?_
    | with_reducible refine State.masterReset_only ?_ ?_
    | with_reducible refine Only.forN _ ?_ ?_
    | with_reducible refine Only.set_rdo ?_ ?_)

theorem State.writePwrReset_only {A : Nat} {s₀ : State} {s : State} {m : Nat} {v : Nat} (hS : Only A s₀ s) (hA : Covers 0x1C5F7B5000416DFA A) :
    Only A s₀ (State.writePwrReset s m v) := by
  unfold State.writePwrReset
  repeat' (first
    | with_reducible exact hS
    | with_reducible assumption
    | (with_reducible refine Covers.testBit hA ?_; decide)
    | (with_reducible refine Covers.trans ?_ hA; decide)
    | (refine fun _ => ?_; intros)
    | (extract_lets -underBinder +onlyGivenNames x; refine (fun (hx : Only A s₀ x) => ?_ : Only A s₀ x → _) ?_; (on_goal 2 => unfold x; clear x); (on_goal 1 => clear_value x; revert x; intro _ _))
    | (extract_lets -underBinder +onlyGivenNames x; unfold x; clear x)
    | (extract_lets -underBinder +onlyGivenNames x; revert x; intro _)
    | with_reducible refine Only.ite ?_ ?_
    | with_reducible refine State.coreReset_only ?_ ?_
    | with_reducible refine State.edgeReset_only ?_ ?_
    | with_reducible refine State.dmaGroupReset_only ?_ ?_
    | with_reducible refine State.gnomonReset_only ?_ ?_
    | with_reducible refine State.worgaReset_only ?_ ?_
    | with_reducible refine State.readoutReset_only ?_ ?_
    | with_reducible refine Only.foldl _ ?_ ?_
    | with_reducible refine Only.Fst.ite ?_ ?_
    | with_reducible refine Only.Fst.unpair (by assumption)
    | with_reducible refine Only.Fst.foldl _ ?_ ?_
    | with_reducible refine Only.Fst.of ?_
    | with_reducible refine Only.Fst.pair ?_
    | with_reducible refine Only.Fst.elim (by assumption) ?_)

theorem State.writePwrCmd_only {A : Nat} {s₀ : State} {s : State} {keeper : Bool} {m : Nat} {v : Nat} (hS : Only A s₀ s) (hA : Covers 0x1FFFFFFC007FFFFF A) :
    Only A s₀ (State.writePwrCmd s keeper m v) := by
  unfold State.writePwrCmd
  repeat' (first
    | with_reducible exact hS
    | with_reducible assumption
    | (with_reducible refine Covers.testBit hA ?_; decide)
    | (with_reducible refine Covers.trans ?_ hA; decide)
    | (extract_lets -underBinder +onlyGivenNames x; refine (fun (hx : Only A s₀ x) => ?_ : Only A s₀ x → _) ?_; (on_goal 2 => unfold x; clear x); (on_goal 1 => clear_value x; revert x; intro _ _))
    | (extract_lets -underBinder +onlyGivenNames x; unfold x; clear x)
    | (extract_lets -underBinder +onlyGivenNames x; revert x; intro _)
    | with_reducible refine Only.ite ?_ ?_
    | with_reducible refine State.powerDoze_only ?_ ?_
    | with_reducible refine State.powerEclipse_only ?_ ?_
    | with_reducible refine State.powerDusk_only ?_ ?_
    | with_reducible refine State.powerAbort_only ?_ ?_
    | with_reducible refine State.powerRun_only ?_ ?_
    | with_reducible refine State.devReset_only ?_ ?_
    | with_reducible refine State.kick_only ?_ ?_)

theorem State.retentionScrub_only {A : Nat} {s₀ : State} {s : State} {region : Nat} {o : Codeword} (hS : Only A s₀ s) (hA : Covers 0x1880000000040000 A) :
    Only A s₀ (State.retentionScrub s region o) := by
  unfold State.retentionScrub
  repeat' (first
    | with_reducible exact hS
    | with_reducible assumption
    | (with_reducible refine Covers.testBit hA ?_; decide)
    | (with_reducible refine Covers.trans ?_ hA; decide)
    | (refine fun _ => ?_; intros)
    | with_reducible refine State.inc_only ?_ ?_ ?_
    | with_reducible refine State.updPwr_only ?_ ?_
    | with_reducible refine State.pwrErr_only ?_ ?_ ?_
    | split
    | (refine fun _ => ?_))

end Sys2Proof.Machine
end

