-- ==== Sys2Proof/Laws/OnlyStore.lean ====
section
/-! SUPPORT. What each operation of Machine/Store.lean may change. -/

set_option linter.unusedTactic false
set_option linter.unreachableTactic false
set_option linter.unusedVariables false

namespace Sys2Proof.Machine

theorem State.storeStart_only {A : Nat} {s₀ : State} {s : State} {img : List (BitVec 8)} (hS : Only A s₀ s) (hA : Covers 0x80000000000000 A) :
    Only A s₀ (State.storeStart s img) := by
  unfold State.storeStart
  repeat' (first
    | with_reducible exact hS
    | with_reducible assumption
    | (with_reducible refine Covers.testBit hA ?_; decide)
    | (with_reducible refine Covers.trans ?_ hA; decide)
    | with_reducible refine Only.set_pwr ?_ ?_)

theorem State.storeFrom_only {A : Nat} {s₀ : State} {s : State} (hS : Only A s₀ s) (hA : Covers 0x80000000000000 A) :
    Only A s₀ (State.storeFrom s) := by
  unfold State.storeFrom
  repeat' (first
    | with_reducible exact hS
    | with_reducible assumption
    | (with_reducible refine Covers.testBit hA ?_; decide)
    | (with_reducible refine Covers.trans ?_ hA; decide)
    | with_reducible refine Only.ite ?_ ?_
    | with_reducible refine State.storeStart_only ?_ ?_)

theorem State.storeFails_only {A : Nat} {s₀ : State} {s : State} {code : Nat} (hS : Only A s₀ s) (hA : Covers 0x880000000080000 A) :
    Only A s₀ (State.storeFails s code) := by
  unfold State.storeFails
  repeat' (first
    | with_reducible exact hS
    | with_reducible assumption
    | (with_reducible refine Covers.testBit hA ?_; decide)
    | (with_reducible refine Covers.trans ?_ hA; decide)
    | with_reducible refine State.put_only ?_ ?_
    | with_reducible refine State.err_only ?_ ?_ ?_
    | with_reducible refine Only.set_pwr ?_ ?_)

theorem State.storeAbort_only {A : Nat} {s₀ : State} {s : State} (hS : Only A s₀ s) (hA : Covers 0x880000000080000 A) :
    Only A s₀ (State.storeAbort s) := by
  unfold State.storeAbort
  repeat' (first
    | with_reducible exact hS
    | with_reducible assumption
    | (with_reducible refine Covers.testBit hA ?_; decide)
    | (with_reducible refine Covers.trans ?_ hA; decide)
    | with_reducible refine Only.ite ?_ ?_
    | with_reducible refine State.storeFails_only ?_ ?_)

theorem State.writeStoreCmd_only {A : Nat} {s₀ : State} {s : State} {m : Nat} {v : Nat} (hS : Only A s₀ s) (hA : Covers 0x880000000080000 A) :
    Only A s₀ (State.writeStoreCmd s m v) := by
  unfold State.writeStoreCmd
  repeat' (first
    | with_reducible exact hS
    | with_reducible assumption
    | (with_reducible refine Covers.testBit hA ?_; decide)
    | (with_reducible refine Covers.trans ?_ hA; decide)
    | (extract_lets -underBinder +onlyGivenNames x; refine (fun (hx : Only A s₀ x) => ?_ : Only A s₀ x → _) ?_; (on_goal 2 => unfold x; clear x); (on_goal 1 => clear_value x; revert x; intro _ _))
    | (extract_lets -underBinder +onlyGivenNames x; unfold x; clear x)
    | (extract_lets -underBinder +onlyGivenNames x; revert x; intro _)
    | with_reducible refine Only.ite ?_ ?_
    | with_reducible refine State.storeFrom_only ?_ ?_
    | with_reducible refine State.storeAbort_only ?_ ?_)

end Sys2Proof.Machine
end

