-- ==== Sys2Proof/Laws/OnlyCsrBus.lean ====
section
/-! SUPPORT. What each operation of Machine/CsrBus.lean may change. -/

set_option linter.unusedTactic false
set_option linter.unreachableTactic false
set_option linter.unusedVariables false

namespace Sys2Proof.Machine

/-- A fold whose steps over the members of its list are `Only`. -/
theorem foldl_only {β : Type} {A : Nat} {s₀ s : State} {f : State → β → State} {l : List β} (hS : Only A s₀ s)
    (h : ∀ x ∈ l, ∀ t, Only A s₀ t → Only A s₀ (f t x)) : Only A s₀ (l.foldl f s) := by
  induction l generalizing s with
  | nil => exact hS
  | cons x l ih => exact ih (h x List.mem_cons_self s hS) fun y hy => h y (List.mem_cons_of_mem _ hy)

theorem State.writeFln_only {A : Nat} {s₀ : State} {s : State} {off : Nat} {m : Nat} {v : Nat} (hS : Only A s₀ s) (hA : Covers 0xC0002000000000C A) :
    Only A s₀ (State.writeFln s off m v) := by
  unfold State.writeFln
  repeat' (first
    | with_reducible exact hS
    | with_reducible assumption
    | (with_reducible refine Covers.testBit hA ?_; decide)
    | (with_reducible refine Covers.trans ?_ hA; decide)
    | (with_reducible refine Covers.trans (Covers.trans (pageMask_all _) ?_) hA; decide)
    | (extract_lets -underBinder +onlyGivenNames x; refine (fun (hx : Only A s₀ x) => ?_ : Only A s₀ x → _) ?_; (on_goal 2 => unfold x; clear x); (on_goal 1 => clear_value x; revert x; intro _ _))
    | (extract_lets -underBinder +onlyGivenNames x; unfold x; clear x)
    | (extract_lets -underBinder +onlyGivenNames x; revert x; intro _)
    | with_reducible refine Only.ite ?_ ?_
    | with_reducible refine State.wrReg_only ?_ ?_
    | with_reducible refine State.writeLaneCtrl_only ?_ ?_
    | with_reducible refine State.adaptRestart_only ?_ ?_
    | with_reducible refine State.writeTxFfe_only ?_ ?_
    | with_reducible refine State.eyeStart_only ?_ ?_
    | with_reducible refine State.slowSend_only ?_ ?_
    | with_reducible refine State.slowAbort_only ?_ ?_
    | with_reducible refine State.writeDl_only ?_ ?_
    | split
    | (refine fun _ => ?_))

theorem State.writeEdg_only {A : Nat} {s₀ : State} {s : State} {off : Nat} {m : Nat} {v : Nat} (hS : Only A s₀ s) (hA : Covers 0xC0003000040000A A) :
    Only A s₀ (State.writeEdg s off m v) := by
  unfold State.writeEdg
  repeat' (first
    | with_reducible exact hS
    | with_reducible assumption
    | (with_reducible refine Covers.testBit hA ?_; decide)
    | (with_reducible refine Covers.trans ?_ hA; decide)
    | (with_reducible refine Covers.trans (Covers.trans (pageMask_all _) ?_) hA; decide)
    | (extract_lets -underBinder +onlyGivenNames x; refine (fun (hx : Only A s₀ x) => ?_ : Only A s₀ x → _) ?_; (on_goal 2 => unfold x; clear x); (on_goal 1 => clear_value x; revert x; intro _ _))
    | (extract_lets -underBinder +onlyGivenNames x; unfold x; clear x)
    | (extract_lets -underBinder +onlyGivenNames x; revert x; intro _)
    | with_reducible refine Only.ite ?_ ?_
    | with_reducible refine State.wrReg_only ?_ ?_
    | with_reducible refine State.facetLoad_only ?_ ?_
    | with_reducible refine State.facetActivate_only ?_ ?_
    | with_reducible refine State.facetAbort_only ?_ ?_
    | with_reducible refine State.facetHalt_only ?_ ?_
    | with_reducible refine State.facetResume_only ?_ ?_
    | with_reducible refine State.facetCapture_only ?_ ?_
    | with_reducible refine State.writeTclk_only ?_ ?_
    | with_reducible refine State.writeFctrl_only ?_ ?_
    | split
    | (refine fun _ => ?_))

theorem State.writePri_only {A : Nat} {s₀ : State} {s : State} {off : Nat} {m : Nat} {v : Nat} (hS : Only A s₀ s) (hA : Covers 0x800090000000012 A) :
    Only A s₀ (State.writePri s off m v) := by
  unfold State.writePri
  repeat' (first
    | with_reducible exact hS
    | with_reducible assumption
    | (with_reducible refine Covers.testBit hA ?_; decide)
    | (with_reducible refine Covers.trans ?_ hA; decide)
    | (with_reducible refine Covers.trans (Covers.trans (pageMask_all _) ?_) hA; decide)
    | (extract_lets -underBinder +onlyGivenNames x; refine (fun (hx : Only A s₀ x) => ?_ : Only A s₀ x → _) ?_; (on_goal 2 => unfold x; clear x); (on_goal 1 => clear_value x; revert x; intro _ _))
    | (extract_lets -underBinder +onlyGivenNames x; unfold x; clear x)
    | (extract_lets -underBinder +onlyGivenNames x; revert x; intro _)
    | with_reducible refine Only.ite ?_ ?_
    | with_reducible refine State.wrReg_only ?_ ?_
    | with_reducible refine State.writePrism_only ?_ ?_
    | with_reducible refine State.writePriCmd_only ?_ ?_)

theorem State.writeArr_only {A : Nat} {s₀ : State} {s : State} {off : Nat} {m : Nat} {v : Nat} (hS : Only A s₀ s) (hA : Covers 0x800100000000120 A) :
    Only A s₀ (State.writeArr s off m v) := by
  unfold State.writeArr
  repeat' (first
    | with_reducible exact hS
    | with_reducible assumption
    | (with_reducible refine Covers.testBit hA ?_; decide)
    | (with_reducible refine Covers.trans ?_ hA; decide)
    | (with_reducible refine Covers.trans (Covers.trans (pageMask_all _) ?_) hA; decide)
    | (extract_lets -underBinder +onlyGivenNames x; refine (fun (hx : Only A s₀ x) => ?_ : Only A s₀ x → _) ?_; (on_goal 2 => unfold x; clear x); (on_goal 1 => clear_value x; revert x; intro _ _))
    | (extract_lets -underBinder +onlyGivenNames x; unfold x; clear x)
    | (extract_lets -underBinder +onlyGivenNames x; revert x; intro _)
    | with_reducible refine Only.ite ?_ ?_
    | with_reducible refine State.wrReg_only ?_ ?_
    | with_reducible refine State.islCmd_only ?_ ?_
    | with_reducible refine State.writeIslMap_only ?_ ?_
    | with_reducible refine State.writeEdge_only ?_ ?_
    | with_reducible refine State.writePersist_only ?_ ?_
    | with_reducible refine State.bumpEpoch_only ?_ ?_
    | with_reducible refine State.reloadStart_only ?_ ?_
    | with_reducible refine State.reloadAbort_only ?_ ?_
    | with_reducible refine State.writeWhaloChecked_only ?_ ?_
    | split
    | (refine fun _ => ?_))

theorem State.writeSeq_only {A : Nat} {s₀ : State} {s : State} {off : Nat} {m : Nat} {v : Nat} (hS : Only A s₀ s) (hA : Covers 0x840210000000042 A) :
    Only A s₀ (State.writeSeq s off m v) := by
  unfold State.writeSeq
  repeat' (first
    | with_reducible exact hS
    | with_reducible assumption
    | (with_reducible refine Covers.testBit hA ?_; decide)
    | (with_reducible refine Covers.trans ?_ hA; decide)
    | (with_reducible refine Covers.trans (Covers.trans (pageMask_all _) ?_) hA; decide)
    | (extract_lets -underBinder +onlyGivenNames x; refine (fun (hx : Only A s₀ x) => ?_ : Only A s₀ x → _) ?_; (on_goal 2 => unfold x; clear x); (on_goal 1 => clear_value x; revert x; intro _ _))
    | (extract_lets -underBinder +onlyGivenNames x; unfold x; clear x)
    | (extract_lets -underBinder +onlyGivenNames x; revert x; intro _)
    | with_reducible refine Only.ite ?_ ?_
    | with_reducible refine State.wrReg_only ?_ ?_
    | with_reducible refine State.timerCmd_only ?_ ?_
    | with_reducible refine State.writeTimerCfg_only ?_ ?_
    | with_reducible refine State.bgAbort_only ?_ ?_
    | with_reducible refine State.writeOvr_only ?_ ?_
    | with_reducible refine State.startAdmission_only ?_ ?_
    | with_reducible refine State.writePromise_only ?_ ?_
    | with_reducible refine State.writeSeqCmd_only ?_ ?_
    | with_reducible refine State.writeCsCtrl_only ?_ ?_
    | with_reducible refine State.writeCsEntry_only ?_ ?_)

theorem State.writeBcn_only {A : Nat} {s₀ : State} {s : State} {off : Nat} {m : Nat} {v : Nat} (hS : Only A s₀ s) (hA : Covers 0x800200000000080 A) :
    Only A s₀ (State.writeBcn s off m v) := by
  unfold State.writeBcn
  repeat' (first
    | with_reducible exact hS
    | with_reducible assumption
    | (with_reducible refine Covers.testBit hA ?_; decide)
    | (with_reducible refine Covers.trans ?_ hA; decide)
    | (with_reducible refine Covers.trans (Covers.trans (pageMask_all _) ?_) hA; decide)
    | (extract_lets -underBinder +onlyGivenNames x; refine (fun (hx : Only A s₀ x) => ?_ : Only A s₀ x → _) ?_; (on_goal 2 => unfold x; clear x); (on_goal 1 => clear_value x; revert x; intro _ _))
    | (extract_lets -underBinder +onlyGivenNames x; unfold x; clear x)
    | (extract_lets -underBinder +onlyGivenNames x; revert x; intro _)
    | with_reducible refine Only.ite ?_ ?_
    | with_reducible refine State.wrReg_only ?_ ?_
    | with_reducible refine State.writeGlint_only ?_ ?_)

theorem State.writeRng_only {A : Nat} {s₀ : State} {s : State} {off : Nat} {m : Nat} {v : Nat} (hS : Only A s₀ s) (hA : Covers 0x1A8E20D0000868C0 A) :
    Only A s₀ (State.writeRng s off m v) := by
  unfold State.writeRng
  repeat' (first
    | with_reducible exact hS
    | with_reducible assumption
    | (with_reducible refine Covers.testBit hA ?_; decide)
    | (with_reducible refine Covers.trans ?_ hA; decide)
    | (with_reducible refine Covers.trans (Covers.trans (pageMask_all _) ?_) hA; decide)
    | with_reducible refine Only.ite ?_ ?_
    | with_reducible refine State.wrReg_only ?_ ?_
    | with_reducible refine State.writeGuar_only ?_ ?_
    | with_reducible refine State.writeRoute_only ?_ ?_
    | with_reducible refine State.writeDmaCtrl_only ?_ ?_
    | with_reducible refine State.retryTags_only ?_ ?_)

theorem State.doorbell_only {A : Nat} {s₀ : State} {s : State} {ini : Nat} {m : Nat} {v : Nat} (hS : Only A s₀ s) (hA : Covers 0x802000000001000 A) :
    Only.Fst A s₀ (State.doorbell s ini m v) := by
  unfold State.doorbell
  repeat' (first
    | with_reducible exact hS
    | with_reducible assumption
    | (with_reducible refine Covers.testBit hA ?_; decide)
    | (with_reducible refine Covers.trans ?_ hA; decide)
    | (extract_lets -underBinder +onlyGivenNames x; refine (fun (hx : Only A s₀ x) => ?_ : Only A s₀ x → _) ?_; (on_goal 2 => unfold x; clear x); (on_goal 1 => clear_value x; revert x; intro _ _))
    | (extract_lets -underBinder +onlyGivenNames x; unfold x; clear x)
    | (extract_lets -underBinder +onlyGivenNames x; revert x; intro _)
    | with_reducible refine Only.ite ?_ ?_
    | with_reducible refine State.err_only ?_ ?_ ?_
    | with_reducible refine State.raiseEvent_only ?_ ?_
    | with_reducible refine Only.Fst.ite ?_ ?_
    | with_reducible refine Only.Fst.unpair (by assumption)
    | with_reducible refine Only.Fst.of ?_
    | with_reducible refine Only.Fst.pair ?_
    | with_reducible refine Only.Fst.elim (by assumption) ?_)

theorem State.writeCpu_only {A : Nat} {s₀ : State} {s : State} {off : Nat} {m : Nat} {v : Nat} (hS : Only A s₀ s) (hA : Covers 0x180E2000000068C0 A) :
    Only A s₀ (State.writeCpu s off m v) := by
  unfold State.writeCpu
  repeat' (first
    | with_reducible exact hS
    | with_reducible assumption
    | (with_reducible refine Covers.testBit hA ?_; decide)
    | (with_reducible refine Covers.trans ?_ hA; decide)
    | (with_reducible refine Covers.trans (Covers.trans (pageMask_all _) ?_) hA; decide)
    | (extract_lets -underBinder +onlyGivenNames x; refine (fun (hx : Only A s₀ x) => ?_ : Only A s₀ x → _) ?_; (on_goal 2 => unfold x; clear x); (on_goal 1 => clear_value x; revert x; intro _ _))
    | (extract_lets -underBinder +onlyGivenNames x; unfold x; clear x)
    | (extract_lets -underBinder +onlyGivenNames x; revert x; intro _)
    | with_reducible refine Only.ite ?_ ?_
    | with_reducible refine State.wrReg_only ?_ ?_
    | with_reducible refine State.softEvents_only ?_ ?_
    | with_reducible refine State.timerStart_only ?_ ?_
    | with_reducible refine State.timerStop_only ?_ ?_
    | with_reducible refine State.writeThrCmd_only ?_ ?_
    | split
    | (refine fun _ => ?_))

theorem State.writeTar_only {A : Nat} {s₀ : State} {s : State} {off : Nat} {m : Nat} {v : Nat} (hS : Only A s₀ s) (hA : Covers 0x10000000010000 A) :
    Only A s₀ (State.writeTar s off m v) := by
  unfold State.writeTar
  repeat' (first
    | with_reducible exact hS
    | with_reducible assumption
    | (with_reducible refine Covers.testBit hA ?_; decide)
    | (with_reducible refine Covers.trans ?_ hA; decide)
    | (with_reducible refine Covers.trans (Covers.trans (pageMask_all _) ?_) hA; decide)
    | with_reducible refine State.wrReg_only ?_ ?_
    | with_reducible refine State.writeTarCmd_only ?_ ?_
    | with_reducible refine State.writeTarTarget_only ?_ ?_
    | with_reducible refine State.writeTarV_only ?_ ?_
    | with_reducible refine State.writeTarProbe_only ?_ ?_
    | split
    | (refine fun _ => ?_))

theorem State.writeLed_only {A : Nat} {s₀ : State} {s : State} {ini : Nat} {off : Nat} {m : Nat} {v : Nat} (hS : Only A s₀ s) (hA : Covers 0x1820000000020000 A) :
    Only A s₀ (State.writeLed s ini off m v) := by
  unfold State.writeLed
  repeat' (first
    | with_reducible exact hS
    | with_reducible assumption
    | (with_reducible refine Covers.testBit hA ?_; decide)
    | (with_reducible refine Covers.trans ?_ hA; decide)
    | (with_reducible refine Covers.trans (Covers.trans (pageMask_all _) ?_) hA; decide)
    | (refine fun _ => ?_; intros)
    | (extract_lets -underBinder +onlyGivenNames x; refine (fun (hx : Only A s₀ x) => ?_ : Only A s₀ x → _) ?_; (on_goal 2 => unfold x; clear x); (on_goal 1 => clear_value x; revert x; intro _ _))
    | (extract_lets -underBinder +onlyGivenNames x; unfold x; clear x)
    | (extract_lets -underBinder +onlyGivenNames x; revert x; intro _)
    | with_reducible refine Only.ite ?_ ?_
    | with_reducible refine State.wrReg_only ?_ ?_
    | with_reducible refine State.updLed_only ?_ ?_
    | with_reducible refine State.hitAdd_only ?_ ?_
    | with_reducible refine State.actqDone_only ?_ ?_
    | with_reducible refine State.forgetRec_only ?_ ?_
    | with_reducible refine State.ledgerSelect_only ?_ ?_
    | split
    | (refine fun _ => ?_))

theorem State.writeDbg_only {A : Nat} {s₀ : State} {s : State} {off : Nat} {m : Nat} {v : Nat} (hS : Only A s₀ s) (hA : Covers 0x200000204000 A) :
    Only A s₀ (State.writeDbg s off m v) := by
  unfold State.writeDbg
  repeat' (first
    | with_reducible exact hS
    | with_reducible assumption
    | (with_reducible refine Covers.testBit hA ?_; decide)
    | (with_reducible refine Covers.trans ?_ hA; decide)
    | (with_reducible refine Covers.trans (Covers.trans (pageMask_all _) ?_) hA; decide)
    | with_reducible refine Only.ite ?_ ?_
    | with_reducible refine State.wrReg_only ?_ ?_
    | with_reducible refine State.debugResume_only ?_ ?_
    | with_reducible refine State.traceClear_only ?_ ?_
    | split
    | (refine fun _ => ?_))

theorem State.writeGno_only {A : Nat} {s₀ : State} {s : State} {off : Nat} {m : Nat} {v : Nat} (hS : Only A s₀ s) (hA : Covers 0x18507944000101FA A) :
    Only A s₀ (State.writeGno s off m v) := by
  unfold State.writeGno
  repeat' (first
    | with_reducible exact hS
    | with_reducible assumption
    | (with_reducible refine Covers.testBit hA ?_; decide)
    | (with_reducible refine Covers.trans ?_ hA; decide)
    | (with_reducible refine Covers.trans (Covers.trans (pageMask_all _) ?_) hA; decide)
    | (extract_lets -underBinder +onlyGivenNames x; refine (fun (hx : Only A s₀ x) => ?_ : Only A s₀ x → _) ?_; (on_goal 2 => unfold x; clear x); (on_goal 1 => clear_value x; revert x; intro _ _))
    | (extract_lets -underBinder +onlyGivenNames x; unfold x; clear x)
    | (extract_lets -underBinder +onlyGivenNames x; revert x; intro _)
    | with_reducible refine Only.ite ?_ ?_
    | with_reducible refine State.wrReg_only ?_ ?_
    | with_reducible refine State.writeShadowed_only ?_ ?_
    | with_reducible refine State.cancelCommand_only ?_ ?_
    | with_reducible refine State.writeGnoCtrl_only ?_ ?_
    | with_reducible refine State.relock_only ?_ ?_
    | with_reducible refine State.fcInject_only ?_ ?_
    | split
    | (refine fun _ => ?_))

theorem State.writeUnit_only {A : Nat} {s₀ : State} {s : State} {ini : Nat} {page : Nat} {off : Nat} {m : Nat} {v : Nat} (hS : Only A s₀ s) (hA : Covers 0x1FFFFFFC007FFFFF A) :
    Only A s₀ (State.writeUnit s ini page off m v) := by
  unfold State.writeUnit
  repeat' (first
    | with_reducible exact hS
    | with_reducible assumption
    | (with_reducible refine Covers.testBit hA ?_; decide)
    | (with_reducible refine Covers.trans ?_ hA; decide)
    | (with_reducible refine Covers.trans (Covers.trans (pageMask_all _) ?_) hA; decide)
    | with_reducible refine Only.ite ?_ ?_
    | with_reducible refine State.wrReg_only ?_ ?_
    | with_reducible refine State.writeDicCtrl_only ?_ ?_
    | with_reducible refine State.writeCanCfg_only ?_ ?_
    | with_reducible refine State.writeWor_only ?_ ?_
    | with_reducible refine State.writeRdo_only ?_ ?_
    | with_reducible refine State.writeHbm_only ?_ ?_
    | with_reducible refine State.writePin_only ?_ ?_
    | with_reducible refine State.writePwrReset_only ?_ ?_
    | with_reducible refine State.writePwrCmd_only ?_ ?_
    | with_reducible refine State.writeStoreCmd_only ?_ ?_
    | with_reducible refine State.writeFln_only ?_ ?_
    | with_reducible refine State.writeEdg_only ?_ ?_
    | with_reducible refine State.writePri_only ?_ ?_
    | with_reducible refine State.writeArr_only ?_ ?_
    | with_reducible refine State.writeSeq_only ?_ ?_
    | with_reducible refine State.writeBcn_only ?_ ?_
    | with_reducible refine State.writeRng_only ?_ ?_
    | with_reducible refine State.writeCpu_only ?_ ?_
    | with_reducible refine State.writeTar_only ?_ ?_
    | with_reducible refine State.writeLed_only ?_ ?_
    | with_reducible refine State.writeDbg_only ?_ ?_
    | with_reducible refine State.writeGno_only ?_ ?_
    | split
    | (refine fun _ => ?_))

theorem State.watched_only {A : Nat} {s₀ : State} {s : State} {f : State → State} (hS : Only A s₀ s) (hf : ∀ t, Only A s₀ t → Only A s₀ (f t)) (hA : Covers 0x800000000000000 A) :
    Only.Fst A s₀ (State.watched s f) := by
  unfold State.watched
  repeat' (first
    | with_reducible exact hS
    | with_reducible assumption
    | (with_reducible refine Covers.testBit hA ?_; decide)
    | (with_reducible refine Covers.trans ?_ hA; decide)
    | (refine fun _ => ?_; intros)
    | (extract_lets -underBinder +onlyGivenNames x; refine (fun (hx : Only A s₀ x) => ?_ : Only A s₀ x → _) ?_; (on_goal 2 => unfold x; clear x); (on_goal 1 => clear_value x; revert x; intro _ _))
    | (extract_lets -underBinder +onlyGivenNames x; unfold x; clear x)
    | (extract_lets -underBinder +onlyGivenNames x; revert x; intro _)
    | with_reducible refine hf _ ?_
    | with_reducible refine State.updErq_only ?_ ?_
    | with_reducible refine Only.foldl _ ?_ ?_
    | with_reducible refine Only.Fst.ite ?_ ?_
    | with_reducible refine Only.Fst.unpair (by assumption)
    | with_reducible refine Only.Fst.foldl _ ?_ ?_
    | with_reducible refine Only.Fst.of ?_
    | with_reducible refine Only.Fst.pair ?_
    | with_reducible refine Only.Fst.elim (by assumption) ?_)

theorem State.csrWrite_only {A : Nat} {s₀ : State} {s : State} {ini : Nat} {page : Nat} {off : Nat} {m : Nat} {v : Nat} (hS : Only A s₀ s) (hA : Covers 0x1FFFFFFC007FFFFF A) :
    Only.Fst A s₀ (State.csrWrite s ini page off m v) := by
  unfold State.csrWrite
  repeat' (first
    | with_reducible exact hS
    | with_reducible assumption
    | (with_reducible refine Covers.testBit hA ?_; decide)
    | (with_reducible refine Covers.trans ?_ hA; decide)
    | (refine fun _ => ?_; intros)
    | (extract_lets -underBinder +onlyGivenNames x; refine (fun (hx : Only A s₀ x) => ?_ : Only A s₀ x → _) ?_; (on_goal 2 => unfold x; clear x); (on_goal 1 => clear_value x; revert x; intro _ _))
    | (extract_lets -underBinder +onlyGivenNames x; unfold x; clear x)
    | (extract_lets -underBinder +onlyGivenNames x; revert x; intro _)
    | with_reducible refine Only.ite ?_ ?_
    | with_reducible refine State.erqPop_only ?_ ?_
    | with_reducible refine State.writeCanCfg_only ?_ ?_
    | with_reducible refine State.writeSemReq_only ?_ ?_
    | with_reducible refine State.writeSemAdmin_only ?_ ?_
    | with_reducible refine State.doorbell_only ?_ ?_
    | with_reducible refine State.writeUnit_only ?_ ?_
    | with_reducible refine State.watched_only ?_ ?_ ?_
    | with_reducible refine Only.Fst.ite ?_ ?_
    | with_reducible refine Only.Fst.unpair (by assumption)
    | split
    | with_reducible refine Only.Fst.of ?_
    | with_reducible refine Only.Fst.pair ?_
    | with_reducible refine Only.Fst.elim (by assumption) ?_)

theorem State.readClear_only {A : Nat} {s₀ : State} {s : State} {page : Nat} {off : Nat} {m : Nat} (hS : Only A s₀ s) (hA : Covers 0x7FFFFF A) :
    Only A s₀ (State.readClear s page off m) := by
  unfold State.readClear
  refine foldl_only hS ?_
  intro f hf t ht
  have hp : A.testBit f.page = true := by
    obtain ⟨e, hlt⟩ := fieldsOfPage_page page f hf
    rw [e]
    exact (Covers.trans (pageMask_all page) hA).testBit (by simp [pageMask, hlt, Nat.testBit_two_pow_self])
  split
  · dsimp only
    exact Only.ite (State.put_only ht hp) ht
  · exact ht

theorem State.readEffect_only {A : Nat} {s₀ : State} {s : State} {page : Nat} {off : Nat} {m : Nat} (hS : Only A s₀ s) (hA : Covers 0x8240000007FFFFF A) :
    Only A s₀ (State.readEffect s page off m) := by
  unfold State.readEffect
  repeat' (first
    | with_reducible exact hS
    | with_reducible assumption
    | (with_reducible refine Covers.testBit hA ?_; decide)
    | (with_reducible refine Covers.trans ?_ hA; decide)
    | (refine fun _ => ?_; intros)
    | (extract_lets -underBinder +onlyGivenNames x; refine (fun (hx : Only A s₀ x) => ?_ : Only A s₀ x → _) ?_; (on_goal 2 => unfold x; clear x); (on_goal 1 => clear_value x; revert x; intro _ _))
    | (extract_lets -underBinder +onlyGivenNames x; unfold x; clear x)
    | (extract_lets -underBinder +onlyGivenNames x; revert x; intro _)
    | with_reducible refine Only.ite ?_ ?_
    | with_reducible refine State.put_only ?_ ?_
    | with_reducible refine State.err_only ?_ ?_ ?_
    | with_reducible refine State.erqHead_only ?_ ?_
    | with_reducible refine State.latchSys_only ?_ ?_
    | with_reducible refine State.facetReadback_only ?_ ?_
    | with_reducible refine State.actqPop_only ?_ ?_
    | with_reducible refine State.updRing_only ?_ ?_
    | with_reducible refine State.readLatSum_only ?_ ?_
    | with_reducible refine State.readClear_only ?_ ?_
    | with_reducible refine Only.Snd.of ?_
    | with_reducible refine Only.Snd.ite ?_ ?_
    | split
    | with_reducible refine Only.Snd.of ?_
    | with_reducible refine Only.Snd.pair ?_
    | with_reducible refine Only.Snd.elim (by assumption) ?_
    | (refine fun _ => ?_))

theorem State.csrRead_only {A : Nat} {s₀ : State} {s : State} {ini : Nat} {page : Nat} {off : Nat} {m : Nat} (hS : Only A s₀ s) (hA : Covers 0x8240000007FFFFF A) :
    Only.Fst A s₀ (State.csrRead s ini page off m) := by
  unfold State.csrRead
  repeat' (first
    | with_reducible exact hS
    | with_reducible assumption
    | (with_reducible refine Covers.testBit hA ?_; decide)
    | (with_reducible refine Covers.trans ?_ hA; decide)
    | (extract_lets -underBinder +onlyGivenNames x; refine (fun (hx : Only A s₀ x) => ?_ : Only A s₀ x → _) ?_; (on_goal 2 => unfold x; clear x); (on_goal 1 => clear_value x; revert x; intro _ _))
    | (extract_lets -underBinder +onlyGivenNames x; unfold x; clear x)
    | (extract_lets -underBinder +onlyGivenNames x; revert x; intro _)
    | with_reducible refine Only.ite ?_ ?_
    | with_reducible refine State.readEffect_only ?_ ?_
    | with_reducible refine Only.Fst.ite ?_ ?_
    | with_reducible refine Only.Fst.unpair (by assumption)
    | with_reducible refine Only.Fst.of ?_
    | with_reducible refine Only.Fst.pair ?_
    | with_reducible refine Only.Fst.elim (by assumption) ?_)

theorem State.engineTrips_only {A : Nat} {s₀ : State} {s : State} {packets : Nat} {units : Nat} {status : Nat} (hS : Only A s₀ s) (hA : Covers 0x1000001000000800 A) :
    Only A s₀ (State.engineTrips s packets units status) := by
  unfold State.engineTrips
  repeat' (first
    | with_reducible exact hS
    | with_reducible assumption
    | (with_reducible refine Covers.testBit hA ?_; decide)
    | (with_reducible refine Covers.trans ?_ hA; decide)
    | (extract_lets -underBinder +onlyGivenNames x; refine (fun (hx : Only A s₀ x) => ?_ : Only A s₀ x → _) ?_; (on_goal 2 => unfold x; clear x); (on_goal 1 => clear_value x; revert x; intro _ _))
    | (extract_lets -underBinder +onlyGivenNames x; unfold x; clear x)
    | (extract_lets -underBinder +onlyGivenNames x; revert x; intro _)
    | with_reducible refine Only.ite ?_ ?_
    | with_reducible refine State.add_only ?_ ?_ ?_
    | with_reducible refine State.raiseTo_only ?_ ?_ ?_
    | with_reducible refine State.inc_only ?_ ?_ ?_
    | with_reducible refine State.tookFree_only ?_ ?_)

theorem State.engineTrip_only {A : Nat} {s₀ : State} {s : State} {page : Nat} {status : Nat} (hS : Only A s₀ s) (hA : Covers 0x1000001000000800 A) :
    Only A s₀ (State.engineTrip s page status) := by
  unfold State.engineTrip
  repeat' (first
    | with_reducible exact hS
    | with_reducible assumption
    | (with_reducible refine Covers.testBit hA ?_; decide)
    | (with_reducible refine Covers.trans ?_ hA; decide)
    | with_reducible refine Only.ite ?_ ?_
    | with_reducible refine State.engineTrips_only ?_ ?_)

theorem State.refuseAccess_only {A : Nat} {s₀ : State} {s : State} {page : Nat} {ini : Nat} {a : Nat} {op : Nat} {len : Nat} {reason : Nat} (hS : Only A s₀ s) (hA : Covers 0x800000000000000 A) :
    Only A s₀ (State.refuseAccess s page ini a op len reason) := by
  unfold State.refuseAccess
  repeat' (first
    | with_reducible exact hS
    | with_reducible assumption
    | (with_reducible refine Covers.testBit hA ?_; decide)
    | (with_reducible refine Covers.trans ?_ hA; decide)
    | with_reducible refine State.report_only ?_ ?_)

theorem State.csrPut_only {A : Nat} {s₀ : State} {s : State} {ini : Nat} {page : Nat} {off : Nat} {m : Nat} {v : Nat} (hS : Only A s₀ s) (hA : Covers 0x1FFFFFFC007FFFFF A) :
    Only.Fst A s₀ (State.csrPut s ini page off m v) := by
  unfold State.csrPut
  repeat' (first
    | with_reducible exact hS
    | with_reducible assumption
    | (with_reducible refine Covers.testBit hA ?_; decide)
    | (with_reducible refine Covers.trans ?_ hA; decide)
    | (extract_lets -underBinder +onlyGivenNames x; refine (fun (hx : Only A s₀ x) => ?_ : Only A s₀ x → _) ?_; (on_goal 2 => unfold x; clear x); (on_goal 1 => clear_value x; revert x; intro _ _))
    | (extract_lets -underBinder +onlyGivenNames x; unfold x; clear x)
    | (extract_lets -underBinder +onlyGivenNames x; revert x; intro _)
    | with_reducible refine State.csrWrite_only ?_ ?_
    | with_reducible refine Only.Fst.ite ?_ ?_
    | with_reducible refine Only.Fst.unpair (by assumption)
    | with_reducible refine Only.Fst.of ?_
    | with_reducible refine Only.Fst.pair ?_
    | with_reducible refine Only.Fst.elim (by assumption) ?_)

theorem State.csrTake_only {A : Nat} {s₀ : State} {s : State} {ini : Nat} {page : Nat} {off : Nat} {m : Nat} {len : Nat} {sh : Nat} (hS : Only A s₀ s) (hA : Covers 0x8240000007FFFFF A) :
    Only.Fst A s₀ (State.csrTake s ini page off m len sh) := by
  unfold State.csrTake
  repeat' (first
    | with_reducible exact hS
    | with_reducible assumption
    | (with_reducible refine Covers.testBit hA ?_; decide)
    | (with_reducible refine Covers.trans ?_ hA; decide)
    | (extract_lets -underBinder +onlyGivenNames x; refine (fun (hx : Only A s₀ x) => ?_ : Only A s₀ x → _) ?_; (on_goal 2 => unfold x; clear x); (on_goal 1 => clear_value x; revert x; intro _ _))
    | (extract_lets -underBinder +onlyGivenNames x; unfold x; clear x)
    | (extract_lets -underBinder +onlyGivenNames x; revert x; intro _)
    | with_reducible refine State.csrRead_only ?_ ?_
    | with_reducible refine Only.Fst.ite ?_ ?_
    | with_reducible refine Only.Fst.unpair (by assumption)
    | with_reducible refine Only.Fst.of ?_
    | with_reducible refine Only.Fst.pair ?_
    | with_reducible refine Only.Fst.elim (by assumption) ?_)

theorem State.csrOne_only {A : Nat} {s₀ : State} {s : State} {ini : Nat} {a : Nat} {len : Nat} {v0 : Option (List (BitVec 8))} (hS : Only A s₀ s) (hA : Covers 0x1FFFFFFC007FFFFF A) :
    Only.Fst A s₀ (State.csrOne s ini a len v0) := by
  unfold State.csrOne
  repeat' (first
    | with_reducible exact hS
    | with_reducible assumption
    | (with_reducible refine Covers.testBit hA ?_; decide)
    | (with_reducible refine Covers.trans ?_ hA; decide)
    | (refine fun _ => ?_; intros)
    | with_reducible refine State.csrPut_only ?_ ?_
    | with_reducible refine State.csrTake_only ?_ ?_
    | with_reducible refine Only.Fst.ite ?_ ?_
    | with_reducible refine Only.Fst.unpair (by assumption)
    | split
    | with_reducible refine Only.Fst.of ?_
    | with_reducible refine Only.Fst.pair ?_
    | with_reducible refine Only.Fst.elim (by assumption) ?_)

theorem State.csrHigh_only {A : Nat} {s₀ : State} {s : State} {ini : Nat} {a : Nat} {data : Option (List (BitVec 8))} {st : Nat} {lo : List (BitVec 8)} (hS : Only A s₀ s) (hA : Covers 0x1FFFFFFC007FFFFF A) :
    Only.Fst A s₀ (State.csrHigh s ini a data st lo) := by
  unfold State.csrHigh
  repeat' (first
    | with_reducible exact hS
    | with_reducible assumption
    | (with_reducible refine Covers.testBit hA ?_; decide)
    | (with_reducible refine Covers.trans ?_ hA; decide)
    | (extract_lets -underBinder +onlyGivenNames x; refine (fun (hx : Only A s₀ x) => ?_ : Only A s₀ x → _) ?_; (on_goal 2 => unfold x; clear x); (on_goal 1 => clear_value x; revert x; intro _ _))
    | (extract_lets -underBinder +onlyGivenNames x; unfold x; clear x)
    | (extract_lets -underBinder +onlyGivenNames x; revert x; intro _)
    | with_reducible refine Only.ite ?_ ?_
    | with_reducible refine State.refuseAccess_only ?_ ?_
    | with_reducible refine State.csrOne_only ?_ ?_
    | with_reducible refine Only.Fst.ite ?_ ?_
    | with_reducible refine Only.Fst.unpair (by assumption)
    | with_reducible refine Only.Fst.of ?_
    | with_reducible refine Only.Fst.pair ?_
    | with_reducible refine Only.Fst.elim (by assumption) ?_)

theorem State.csrAccess_only {A : Nat} {s₀ : State} {s : State} {ini : Nat} {a : Nat} {len : Nat} {data : Option (List (BitVec 8))} (hS : Only A s₀ s) (hA : Covers 0x1FFFFFFC007FFFFF A) :
    Only.Fst A s₀ (State.csrAccess s ini a len data) := by
  unfold State.csrAccess
  repeat' (first
    | with_reducible exact hS
    | with_reducible assumption
    | (with_reducible refine Covers.testBit hA ?_; decide)
    | (with_reducible refine Covers.trans ?_ hA; decide)
    | (refine fun _ => ?_; intros)
    | (extract_lets -underBinder +onlyGivenNames x; refine (fun (hx : Only A s₀ x) => ?_ : Only A s₀ x → _) ?_; (on_goal 2 => unfold x; clear x); (on_goal 1 => clear_value x; revert x; intro _ _))
    | (extract_lets -underBinder +onlyGivenNames x; unfold x; clear x)
    | (extract_lets -underBinder +onlyGivenNames x; revert x; intro _)
    | with_reducible refine Only.ite ?_ ?_
    | with_reducible refine State.refuseAccess_only ?_ ?_
    | with_reducible refine State.csrOne_only ?_ ?_
    | with_reducible refine State.csrHigh_only ?_ ?_
    | with_reducible refine Only.Fst.ite ?_ ?_
    | with_reducible refine Only.Fst.unpair (by assumption)
    | with_reducible refine Only.Fst.of ?_
    | with_reducible refine Only.Fst.pair ?_
    | with_reducible refine Only.Fst.elim (by assumption) ?_)

end Sys2Proof.Machine
end

