-- ==== Sys2Proof/Laws/OnlyAccess.lean ====
section
/-! SUPPORT. What each operation of Machine/Access.lean may change. -/

set_option linter.unusedTactic false
set_option linter.unreachableTactic false
set_option linter.unusedVariables false

namespace Sys2Proof.Machine

theorem State.onPage_only {A : Nat} {s₀ : State} {s : State} {page : Nat} {off : Nat} {f : State → State} (hS : Only A s₀ s) (hf : ∀ t, Only A s₀ t → Only A s₀ (f t)) :
    Only A s₀ (State.onPage s page off f) := by
  unfold State.onPage
  repeat' (first
    | with_reducible exact hS
    | with_reducible assumption
    | with_reducible refine Only.ite ?_ ?_
    | with_reducible refine hf _ ?_
    | with_reducible refine State.live_only ?_ ?_
    | with_reducible refine State.alive_only ?_ ?_)

theorem State.onReports_only {A : Nat} {s₀ : State} {s : State} {page : Nat} {core : Nat} {f : State → State} (hS : Only A s₀ s) (hf : ∀ t, Only A s₀ t → Only A s₀ (f t)) :
    Only A s₀ (State.onReports s page core f) := by
  unfold State.onReports
  repeat' (first
    | with_reducible exact hS
    | with_reducible assumption
    | with_reducible refine Only.ite ?_ ?_
    | with_reducible refine hf _ ?_
    | with_reducible refine State.live_only ?_ ?_
    | with_reducible refine State.alive_only ?_ ?_)

theorem State.answer_only {A : Nat} {s₀ : State} {s : State} {st : Nat} {word : Option Nat} (hS : Only A s₀ s) (hA : Covers 0x2000000000 A) :
    Only A s₀ (State.answer s st word) := by
  unfold State.answer
  repeat' (first
    | with_reducible exact hS
    | with_reducible assumption
    | (with_reducible refine Covers.testBit hA ?_; decide)
    | (with_reducible refine Covers.trans ?_ hA; decide)
    | with_reducible refine Only.ite ?_ ?_
    | with_reducible refine State.emit_only ?_ ?_
    | split
    | (refine fun _ => ?_))

theorem State.regWrite_only {A : Nat} {s₀ : State} {s : State} {ini : Nat} {page : Nat} {off : Nat} {data : List (BitVec 8)} (hS : Only A s₀ s) (hA : Covers 0x1FFFFFFC007FFFFF A) :
    Only A s₀ (State.regWrite s ini page off data) := by
  unfold State.regWrite
  repeat' (first
    | with_reducible exact hS
    | with_reducible assumption
    | (with_reducible refine Covers.testBit hA ?_; decide)
    | (with_reducible refine Covers.trans ?_ hA; decide)
    | (refine fun _ => ?_; intros)
    | (extract_lets -underBinder +onlyGivenNames x; refine (fun (hx : Only A s₀ x) => ?_ : Only A s₀ x → _) ?_; (on_goal 2 => unfold x; clear x); (on_goal 1 => clear_value x; revert x; intro _ _))
    | (extract_lets -underBinder +onlyGivenNames x; unfold x; clear x)
    | (extract_lets -underBinder +onlyGivenNames x; revert x; intro _)
    | with_reducible refine State.csrAccess_only ?_ ?_
    | with_reducible refine State.onPage_only ?_ ?_
    | with_reducible refine State.answer_only ?_ ?_
    | with_reducible refine Only.Fst.ite ?_ ?_
    | with_reducible refine Only.Fst.unpair (by assumption)
    | split
    | with_reducible refine Only.Fst.of ?_
    | with_reducible refine Only.Fst.pair ?_
    | with_reducible refine Only.Fst.elim (by assumption) ?_)

theorem State.regRead_only {A : Nat} {s₀ : State} {s : State} {ini : Nat} {page : Nat} {off : Nat} {len : Nat} (hS : Only A s₀ s) (hA : Covers 0x1FFFFFFC007FFFFF A) :
    Only A s₀ (State.regRead s ini page off len) := by
  unfold State.regRead
  repeat' (first
    | with_reducible exact hS
    | with_reducible assumption
    | (with_reducible refine Covers.testBit hA ?_; decide)
    | (with_reducible refine Covers.trans ?_ hA; decide)
    | (refine fun _ => ?_; intros)
    | (extract_lets -underBinder +onlyGivenNames x; refine (fun (hx : Only A s₀ x) => ?_ : Only A s₀ x → _) ?_; (on_goal 2 => unfold x; clear x); (on_goal 1 => clear_value x; revert x; intro _ _))
    | (extract_lets -underBinder +onlyGivenNames x; unfold x; clear x)
    | (extract_lets -underBinder +onlyGivenNames x; revert x; intro _)
    | with_reducible refine State.csrAccess_only ?_ ?_
    | with_reducible refine State.onPage_only ?_ ?_
    | with_reducible refine State.answer_only ?_ ?_
    | with_reducible refine Only.Fst.ite ?_ ?_
    | with_reducible refine Only.Fst.unpair (by assumption)
    | split
    | with_reducible refine Only.Fst.of ?_
    | with_reducible refine Only.Fst.pair ?_
    | with_reducible refine Only.Fst.elim (by assumption) ?_)

theorem State.onSmb_only {A : Nat} {s₀ : State} {s : State} {f : State → State} (hS : Only A s₀ s) (hf : ∀ t, Only A s₀ t → Only A s₀ (f t)) (hA : Covers 0x2000000000 A) :
    Only A s₀ (State.onSmb s f) := by
  unfold State.onSmb
  repeat' (first
    | with_reducible exact hS
    | with_reducible assumption
    | (with_reducible refine Covers.testBit hA ?_; decide)
    | (with_reducible refine Covers.trans ?_ hA; decide)
    | with_reducible refine Only.ite ?_ ?_
    | with_reducible refine hf _ ?_
    | with_reducible refine State.emit_only ?_ ?_
    | exact Only.OfRes.trap
    | exact Only.OfRes.held
    | with_reducible refine Only.OfRes.acted ?_
    | with_reducible refine Only.OfRes.ite ?_ ?_
    | with_reducible refine Only.OfRes.elim (by assumption) ?_)

end Sys2Proof.Machine
end

