-- ==== Sys2Proof/Laws/OnlyDictionary.lean ====
section
/-! SUPPORT. What each operation of Machine/Dictionary.lean may change. -/

set_option linter.unusedTactic false
set_option linter.unreachableTactic false
set_option linter.unusedVariables false

namespace Sys2Proof.Machine

theorem State.denied_only {A : Nat} {s₀ : State} {s : State} (hS : Only A s₀ s) (hA : Covers 0x1800000000008000 A) :
    Only A s₀ (State.denied s) := by
  unfold State.denied
  repeat' (first
    | with_reducible exact hS
    | with_reducible assumption
    | (with_reducible refine Covers.testBit hA ?_; decide)
    | (with_reducible refine Covers.trans ?_ hA; decide)
    | with_reducible refine State.inc_only ?_ ?_ ?_
    | with_reducible refine State.err_only ?_ ?_ ?_)

theorem State.partsRead_only {A : Nat} {s₀ : State} {s : State} {ps : List ObjPart} {i : Nat} (hS : Only A s₀ s) (hA : Covers 0x18240010007FFFFF A) :
    Only.Fst A s₀ (State.partsRead s ps i) := by
  unfold State.partsRead
  repeat' (first
    | with_reducible exact hS
    | with_reducible assumption
    | (with_reducible refine Covers.testBit hA ?_; decide)
    | (with_reducible refine Covers.trans ?_ hA; decide)
    | (refine fun _ => ?_; intros)
    | (extract_lets -underBinder +onlyGivenNames x; refine (fun (hx : Only A s₀ x) => ?_ : Only A s₀ x → _) ?_; (on_goal 2 => unfold x; clear x); (on_goal 1 => clear_value x; revert x; intro _ _))
    | (extract_lets -underBinder +onlyGivenNames x; unfold x; clear x)
    | (extract_lets -underBinder +onlyGivenNames x; revert x; intro _)
    | with_reducible refine Only.ite ?_ ?_
    | with_reducible refine State.csrRead_only ?_ ?_
    | with_reducible refine State.engineTrip_only ?_ ?_
    | with_reducible refine Only.foldl _ ?_ ?_
    | with_reducible refine Only.Fst.ite ?_ ?_
    | with_reducible refine Only.Fst.unpair (by assumption)
    | with_reducible refine Only.Fst.foldl _ ?_ ?_
    | split
    | with_reducible refine Only.Fst.of ?_
    | with_reducible refine Only.Fst.pair ?_
    | with_reducible refine Only.Fst.elim (by assumption) ?_)

theorem State.updRpdo_only {A : Nat} {s₀ : State} {s : State} {n : Nat} {f : Pdo → Pdo} (hS : Only A s₀ s) (hA : Covers 0x40000000000000 A) :
    Only A s₀ (State.updRpdo s n f) := by
  unfold State.updRpdo
  repeat' (first
    | with_reducible exact hS
    | with_reducible assumption
    | (with_reducible refine Covers.testBit hA ?_; decide)
    | (with_reducible refine Covers.trans ?_ hA; decide)
    | (refine fun _ => ?_; intros)
    | with_reducible refine State.updDic_only ?_ ?_)

theorem State.updTpdo_only {A : Nat} {s₀ : State} {s : State} {n : Nat} {f : Pdo → Pdo} (hS : Only A s₀ s) (hA : Covers 0x40000000000000 A) :
    Only A s₀ (State.updTpdo s n f) := by
  unfold State.updTpdo
  repeat' (first
    | with_reducible exact hS
    | with_reducible assumption
    | (with_reducible refine Covers.testBit hA ?_; decide)
    | (with_reducible refine Covers.trans ?_ hA; decide)
    | (refine fun _ => ?_; intros)
    | with_reducible refine State.updDic_only ?_ ?_)

theorem State.updTable_only {A : Nat} {s₀ : State} {s : State} {k : Nat} {f : ChanTable → ChanTable} (hS : Only A s₀ s) (hA : Covers 0x40000000000000 A) :
    Only A s₀ (State.updTable s k f) := by
  unfold State.updTable
  repeat' (first
    | with_reducible exact hS
    | with_reducible assumption
    | (with_reducible refine Covers.testBit hA ?_; decide)
    | (with_reducible refine Covers.trans ?_ hA; decide)
    | (refine fun _ => ?_; intros)
    | with_reducible refine State.updDic_only ?_ ?_)

theorem State.windowAccess_only {A : Nat} {s₀ : State} {s : State} {w : Nat} {data : Option (List (BitVec 8))} (hS : Only A s₀ s) (hA : Covers 0x1FFFFFFC007FFFFF A) :
    Only.Fst A s₀ (State.windowAccess s w data) := by
  unfold State.windowAccess
  repeat' (first
    | with_reducible exact hS
    | with_reducible assumption
    | (with_reducible refine Covers.testBit hA ?_; decide)
    | (with_reducible refine Covers.trans ?_ hA; decide)
    | (extract_lets -underBinder +onlyGivenNames x; refine (fun (hx : Only A s₀ x) => ?_ : Only A s₀ x → _) ?_; (on_goal 2 => unfold x; clear x); (on_goal 1 => clear_value x; revert x; intro _ _))
    | (extract_lets -underBinder +onlyGivenNames x; unfold x; clear x)
    | (extract_lets -underBinder +onlyGivenNames x; revert x; intro _)
    | with_reducible refine State.engineTrip_only ?_ ?_
    | with_reducible refine State.csrAccess_only ?_ ?_
    | with_reducible refine Only.Fst.ite ?_ ?_
    | with_reducible refine Only.Fst.unpair (by assumption)
    | split
    | with_reducible refine Only.Fst.of ?_
    | with_reducible refine Only.Fst.pair ?_
    | with_reducible refine Only.Fst.elim (by assumption) ?_)

theorem State.statusCode_only {A : Nat} {s₀ : State} {s : State} {st : Nat} {addr : Nat} (hS : Only A s₀ s) (hA : Covers 0x8000 A) :
    Only.Fst A s₀ (State.statusCode s st addr) := by
  unfold State.statusCode
  repeat' (first
    | with_reducible exact hS
    | with_reducible assumption
    | (with_reducible refine Covers.testBit hA ?_; decide)
    | (with_reducible refine Covers.trans ?_ hA; decide)
    | with_reducible refine Only.ite ?_ ?_
    | with_reducible refine State.put_only ?_ ?_
    | with_reducible refine Only.Fst.ite ?_ ?_
    | with_reducible refine Only.Fst.unpair (by assumption)
    | with_reducible refine Only.Fst.of ?_
    | with_reducible refine Only.Fst.pair ?_
    | with_reducible refine Only.Fst.elim (by assumption) ?_)

theorem State.objRead_only {A : Nat} {s₀ : State} {s : State} {o : ObjInfo} {index : Nat} {sub : Nat} (hS : Only A s₀ s) (hA : Covers 0x1FFFFFFC007FFFFF A) :
    Only.Fst A s₀ (State.objRead s o index sub) := by
  unfold State.objRead
  repeat' (first
    | with_reducible exact hS
    | with_reducible assumption
    | (with_reducible refine Covers.testBit hA ?_; decide)
    | (with_reducible refine Covers.trans ?_ hA; decide)
    | (extract_lets -underBinder +onlyGivenNames x; refine (fun (hx : Only A s₀ x) => ?_ : Only A s₀ x → _) ?_; (on_goal 2 => unfold x; clear x); (on_goal 1 => clear_value x; revert x; intro _ _))
    | (extract_lets -underBinder +onlyGivenNames x; unfold x; clear x)
    | (extract_lets -underBinder +onlyGivenNames x; revert x; intro _)
    | with_reducible refine Only.ite ?_ ?_
    | with_reducible refine State.erqHead_only ?_ ?_
    | with_reducible refine State.partsRead_only ?_ ?_
    | with_reducible refine State.windowAccess_only ?_ ?_
    | with_reducible refine State.statusCode_only ?_ ?_
    | with_reducible refine Only.Fst.ite ?_ ?_
    | with_reducible refine Only.Fst.unpair (by assumption)
    | split
    | with_reducible refine Only.Fst.of ?_
    | with_reducible refine Only.Fst.pair ?_
    | with_reducible refine Only.Fst.elim (by assumption) ?_
    | (refine fun _ => ?_))

theorem State.refuseCode_only {A : Nat} {s₀ : State} {s : State} {index : Nat} {sub : Nat} {code : Nat} (hS : Only A s₀ s) (hA : Covers 0x1800000000008000 A) :
    Only A s₀ (State.refuseCode s index sub code) := by
  unfold State.refuseCode
  repeat' (first
    | with_reducible exact hS
    | with_reducible assumption
    | (with_reducible refine Covers.testBit hA ?_; decide)
    | (with_reducible refine Covers.trans ?_ hA; decide)
    | with_reducible refine Only.ite ?_ ?_
    | with_reducible refine State.abortCode_only ?_ ?_
    | with_reducible refine State.denied_only ?_ ?_)

theorem State.dicRead_only {A : Nat} {s₀ : State} {s : State} {src : ReqSrc} {index : Nat} {sub : Nat} {ty : Option Nat} (hS : Only A s₀ s) (hA : Covers 0x1FFFFFFC007FFFFF A) :
    Only.Fst A s₀ (State.dicRead s src index sub ty) := by
  unfold State.dicRead
  repeat' (first
    | with_reducible exact hS
    | with_reducible assumption
    | (with_reducible refine Covers.testBit hA ?_; decide)
    | (with_reducible refine Covers.trans ?_ hA; decide)
    | (extract_lets -underBinder +onlyGivenNames x; refine (fun (hx : Only A s₀ x) => ?_ : Only A s₀ x → _) ?_; (on_goal 2 => unfold x; clear x); (on_goal 1 => clear_value x; revert x; intro _ _))
    | (extract_lets -underBinder +onlyGivenNames x; unfold x; clear x)
    | (extract_lets -underBinder +onlyGivenNames x; revert x; intro _)
    | with_reducible refine Only.ite ?_ ?_
    | with_reducible refine State.inc_only ?_ ?_ ?_
    | with_reducible refine State.objRead_only ?_ ?_
    | with_reducible refine State.refuseCode_only ?_ ?_
    | with_reducible refine Only.Fst.ite ?_ ?_
    | with_reducible refine Only.Fst.unpair (by assumption)
    | split
    | with_reducible refine Only.Fst.of ?_
    | with_reducible refine Only.Fst.pair ?_
    | with_reducible refine Only.Fst.elim (by assumption) ?_
    | (refine fun _ => ?_))

theorem State.refusedCode_only {A : Nat} {s₀ : State} {s : State} {page : Nat} {off : Nat} (hS : Only A s₀ s) (hA : Covers 0x8000 A) :
    Only.Fst A s₀ (State.refusedCode s page off) := by
  unfold State.refusedCode
  repeat' (first
    | with_reducible exact hS
    | with_reducible assumption
    | (with_reducible refine Covers.testBit hA ?_; decide)
    | (with_reducible refine Covers.trans ?_ hA; decide)
    | with_reducible refine Only.ite ?_ ?_
    | with_reducible refine State.statusCode_only ?_ ?_
    | with_reducible refine Only.Fst.ite ?_ ?_
    | with_reducible refine Only.Fst.unpair (by assumption)
    | with_reducible refine Only.Fst.of ?_
    | with_reducible refine Only.Fst.pair ?_
    | with_reducible refine Only.Fst.elim (by assumption) ?_)

theorem State.writeCode_only {A : Nat} {s₀ : State} {s : State} {st : Nat} {page : Nat} {off : Nat} (hS : Only A s₀ s) (hA : Covers 0x8000 A) :
    Only.Fst A s₀ (State.writeCode s st page off) := by
  unfold State.writeCode
  repeat' (first
    | with_reducible exact hS
    | with_reducible assumption
    | (with_reducible refine Covers.testBit hA ?_; decide)
    | (with_reducible refine Covers.trans ?_ hA; decide)
    | with_reducible refine Only.ite ?_ ?_
    | with_reducible refine State.statusCode_only ?_ ?_
    | with_reducible refine State.refusedCode_only ?_ ?_
    | with_reducible refine Only.Fst.ite ?_ ?_
    | with_reducible refine Only.Fst.unpair (by assumption)
    | with_reducible refine Only.Fst.of ?_
    | with_reducible refine Only.Fst.pair ?_
    | with_reducible refine Only.Fst.elim (by assumption) ?_)

theorem State.engineWrite_only {A : Nat} {s₀ : State} {s : State} {page : Nat} {off : Nat} {m : Nat} {v : Nat} (hS : Only A s₀ s) (hA : Covers 0x1FFFFFFC007FFFFF A) :
    Only.Fst A s₀ (State.engineWrite s page off m v) := by
  unfold State.engineWrite
  repeat' (first
    | with_reducible exact hS
    | with_reducible assumption
    | (with_reducible refine Covers.testBit hA ?_; decide)
    | (with_reducible refine Covers.trans ?_ hA; decide)
    | (extract_lets -underBinder +onlyGivenNames x; refine (fun (hx : Only A s₀ x) => ?_ : Only A s₀ x → _) ?_; (on_goal 2 => unfold x; clear x); (on_goal 1 => clear_value x; revert x; intro _ _))
    | (extract_lets -underBinder +onlyGivenNames x; unfold x; clear x)
    | (extract_lets -underBinder +onlyGivenNames x; revert x; intro _)
    | with_reducible refine State.csrWrite_only ?_ ?_
    | with_reducible refine State.engineTrip_only ?_ ?_
    | with_reducible refine State.writeCode_only ?_ ?_
    | with_reducible refine Only.Fst.ite ?_ ?_
    | with_reducible refine Only.Fst.unpair (by assumption)
    | split
    | with_reducible refine Only.Fst.of ?_
    | with_reducible refine Only.Fst.pair ?_
    | with_reducible refine Only.Fst.elim (by assumption) ?_)

theorem State.partsWrite_only {A : Nat} {s₀ : State} {s : State} {ps : List ObjPart} {i : Nat} {v : Nat} (hS : Only A s₀ s) (hA : Covers 0x1FFFFFFC007FFFFF A) :
    Only.Fst A s₀ (State.partsWrite s ps i v) := by
  unfold State.partsWrite
  repeat' (first
    | with_reducible exact hS
    | with_reducible assumption
    | (with_reducible refine Covers.testBit hA ?_; decide)
    | (with_reducible refine Covers.trans ?_ hA; decide)
    | (refine fun _ => ?_; intros)
    | with_reducible refine Only.ite ?_ ?_
    | with_reducible refine State.engineWrite_only ?_ ?_
    | with_reducible refine Only.foldl _ ?_ ?_
    | with_reducible refine Only.Fst.ite ?_ ?_
    | with_reducible refine Only.Fst.unpair (by assumption)
    | with_reducible refine Only.Fst.foldl _ ?_ ?_
    | with_reducible refine Only.Fst.of ?_
    | with_reducible refine Only.Fst.pair ?_
    | with_reducible refine Only.Fst.elim (by assumption) ?_)

theorem State.ownWrite_only {A : Nat} {s₀ : State} {s : State} {index : Nat} {sub : Nat} {n : Nat} {v : Nat} (hS : Only A s₀ s) (hA : Covers 0x1FFFFFFC007FFFFF A) :
    Only.Fst A s₀ (State.ownWrite s index sub n v) := by
  unfold State.ownWrite
  repeat' (first
    | with_reducible exact hS
    | with_reducible assumption
    | (with_reducible refine Covers.testBit hA ?_; decide)
    | (with_reducible refine Covers.trans ?_ hA; decide)
    | (refine fun _ => ?_; intros)
    | (extract_lets -underBinder +onlyGivenNames x; refine (fun (hx : Only A s₀ x) => ?_ : Only A s₀ x → _) ?_; (on_goal 2 => unfold x; clear x); (on_goal 1 => clear_value x; revert x; intro _ _))
    | (extract_lets -underBinder +onlyGivenNames x; unfold x; clear x)
    | (extract_lets -underBinder +onlyGivenNames x; revert x; intro _)
    | with_reducible refine Only.ite ?_ ?_
    | with_reducible refine State.put_only ?_ ?_
    | with_reducible refine State.updDic_only ?_ ?_
    | with_reducible refine State.erqPop_only ?_ ?_
    | with_reducible refine State.forgetRec_only ?_ ?_
    | with_reducible refine State.updRpdo_only ?_ ?_
    | with_reducible refine State.updTpdo_only ?_ ?_
    | with_reducible refine State.engineWrite_only ?_ ?_
    | with_reducible refine Only.Fst.ite ?_ ?_
    | with_reducible refine Only.Fst.unpair (by assumption)
    | split
    | with_reducible refine Only.Fst.of ?_
    | with_reducible refine Only.Fst.pair ?_
    | with_reducible refine Only.Fst.elim (by assumption) ?_
    | (refine fun _ => ?_))

theorem State.objWrite_only {A : Nat} {s₀ : State} {s : State} {o : ObjInfo} {index : Nat} {sub : Nat} {v : Nat} (hS : Only A s₀ s) (hA : Covers 0x1FFFFFFC007FFFFF A) :
    Only.Fst A s₀ (State.objWrite s o index sub v) := by
  unfold State.objWrite
  repeat' (first
    | with_reducible exact hS
    | with_reducible assumption
    | (with_reducible refine Covers.testBit hA ?_; decide)
    | (with_reducible refine Covers.trans ?_ hA; decide)
    | (refine fun _ => ?_; intros)
    | (extract_lets -underBinder +onlyGivenNames x; refine (fun (hx : Only A s₀ x) => ?_ : Only A s₀ x → _) ?_; (on_goal 2 => unfold x; clear x); (on_goal 1 => clear_value x; revert x; intro _ _))
    | (extract_lets -underBinder +onlyGivenNames x; unfold x; clear x)
    | (extract_lets -underBinder +onlyGivenNames x; revert x; intro _)
    | with_reducible refine Only.ite ?_ ?_
    | with_reducible refine State.engineWrite_only ?_ ?_
    | with_reducible refine State.partsWrite_only ?_ ?_
    | with_reducible refine State.ownWrite_only ?_ ?_
    | with_reducible refine Only.Fst.ite ?_ ?_
    | with_reducible refine Only.Fst.unpair (by assumption)
    | split
    | with_reducible refine Only.Fst.of ?_
    | with_reducible refine Only.Fst.pair ?_
    | with_reducible refine Only.Fst.elim (by assumption) ?_
    | (refine fun _ => ?_))

theorem State.refuseWrite_only {A : Nat} {s₀ : State} {s : State} {src : ReqSrc} {index : Nat} {sub : Nat} {flags : Nat} {code : Nat} {v : Nat} (hS : Only A s₀ s) (hA : Covers 0x1840201000008000 A) :
    Only A s₀ (State.refuseWrite s src index sub flags code v) := by
  unfold State.refuseWrite
  repeat' (first
    | with_reducible exact hS
    | with_reducible assumption
    | (with_reducible refine Covers.testBit hA ?_; decide)
    | (with_reducible refine Covers.trans ?_ hA; decide)
    | (extract_lets -underBinder +onlyGivenNames x; refine (fun (hx : Only A s₀ x) => ?_ : Only A s₀ x → _) ?_; (on_goal 2 => unfold x; clear x); (on_goal 1 => clear_value x; revert x; intro _ _))
    | (extract_lets -underBinder +onlyGivenNames x; unfold x; clear x)
    | (extract_lets -underBinder +onlyGivenNames x; revert x; intro _)
    | with_reducible refine Only.ite ?_ ?_
    | with_reducible refine State.tookFree_only ?_ ?_
    | with_reducible refine State.journal_only ?_ ?_
    | with_reducible refine State.refuseCode_only ?_ ?_)

theorem State.finishWrite_only {A : Nat} {s₀ : State} {s : State} {src : ReqSrc} {index : Nat} {sub : Nat} {code : Nat} {old : Nat} {new : Nat} {flags : Nat} (hS : Only A s₀ s) (hA : Covers 0x1840200000008000 A) :
    Only A s₀ (State.finishWrite s src index sub code old new flags) := by
  unfold State.finishWrite
  repeat' (first
    | with_reducible exact hS
    | with_reducible assumption
    | (with_reducible refine Covers.testBit hA ?_; decide)
    | (with_reducible refine Covers.trans ?_ hA; decide)
    | (refine fun _ => ?_; intros)
    | with_reducible refine Only.ite ?_ ?_
    | with_reducible refine State.updDic_only ?_ ?_
    | with_reducible refine State.journal_only ?_ ?_
    | with_reducible refine State.abortCode_only ?_ ?_)

theorem State.marked_only {A : Nat} {s₀ : State} {s : State} {f : State → State × Nat} (hS : Only A s₀ s) (hf : ∀ t, Only A s₀ t → Only.Fst A s₀ (f t)) (hA : Covers 0x40000000000000 A) :
    Only.Fst A s₀ (State.marked s f) := by
  unfold State.marked
  repeat' (first
    | with_reducible exact hS
    | with_reducible assumption
    | (with_reducible refine Covers.testBit hA ?_; decide)
    | (with_reducible refine Covers.trans ?_ hA; decide)
    | (refine fun _ => ?_; intros)
    | with_reducible refine hf _ ?_
    | with_reducible refine State.updDic_only ?_ ?_
    | with_reducible refine Only.Fst.ite ?_ ?_
    | with_reducible refine Only.Fst.unpair (by assumption)
    | with_reducible refine Only.Fst.of ?_
    | with_reducible refine Only.Fst.pair ?_
    | with_reducible refine Only.Fst.elim (by assumption) ?_)

end Sys2Proof.Machine
end

