-- ==== Sys2Proof/Laws/OnlyRingServe.lean ====
section
/-! SUPPORT. What each operation of Machine/RingServe.lean may change. -/

set_option linter.unusedTactic false
set_option linter.unreachableTactic false
set_option linter.unusedVariables false

namespace Sys2Proof.Machine

theorem State.countHeld_only {A : Nat} {s₀ : State} {s : State} {p : Pkt} {n : Nat} (hS : Only A s₀ s) (hA : Covers 0x1000000000000800 A) :
    Only A s₀ (State.countHeld s p n) := by
  unfold State.countHeld
  repeat' (first
    | with_reducible exact hS
    | with_reducible assumption
    | (with_reducible refine Covers.testBit hA ?_; decide)
    | (with_reducible refine Covers.trans ?_ hA; decide)
    | (extract_lets -underBinder +onlyGivenNames x; refine (fun (hx : Only A s₀ x) => ?_ : Only A s₀ x → _) ?_; (on_goal 2 => unfold x; clear x); (on_goal 1 => clear_value x; revert x; intro _ _))
    | (extract_lets -underBinder +onlyGivenNames x; unfold x; clear x)
    | (extract_lets -underBinder +onlyGivenNames x; revert x; intro _)
    | with_reducible refine Only.ite ?_ ?_
    | with_reducible refine State.add_only ?_ ?_ ?_)

theorem State.carryPkt_only {A : Nat} {s₀ : State} {s : State} {p : Pkt} (hS : Only A s₀ s) (hA : Covers 0x4000000000000 A) :
    Only A s₀ (State.carryPkt s p) := by
  unfold State.carryPkt
  repeat' (first
    | with_reducible exact hS
    | with_reducible assumption
    | (with_reducible refine Covers.testBit hA ?_; decide)
    | (with_reducible refine Covers.trans ?_ hA; decide)
    | with_reducible refine Only.ite ?_ ?_
    | with_reducible refine State.carry_only ?_ ?_)

theorem State.takePkt_only {A : Nat} {s₀ : State} {s : State} {cmd : Cmd} {v0 : PktSrc} (hS : Only A s₀ s) (hA : Covers 0x1004000000000800 A) :
    Only.Fst A s₀ (State.takePkt s cmd v0) := by
  unfold State.takePkt
  repeat' (first
    | with_reducible exact hS
    | with_reducible assumption
    | (with_reducible refine Covers.testBit hA ?_; decide)
    | (with_reducible refine Covers.trans ?_ hA; decide)
    | (refine fun _ => ?_; intros)
    | (extract_lets -underBinder +onlyGivenNames x; refine (fun (hx : Only A s₀ x) => ?_ : Only A s₀ x → _) ?_; (on_goal 2 => unfold x; clear x); (on_goal 1 => clear_value x; revert x; intro _ _))
    | (extract_lets -underBinder +onlyGivenNames x; unfold x; clear x)
    | (extract_lets -underBinder +onlyGivenNames x; revert x; intro _)
    | with_reducible refine Only.ite ?_ ?_
    | with_reducible refine State.updRing_only ?_ ?_
    | with_reducible refine State.offer_only ?_ ?_
    | with_reducible refine State.tagWait_only ?_ ?_
    | with_reducible refine State.request_only ?_ ?_
    | with_reducible refine Only.Fst.ite ?_ ?_
    | with_reducible refine Only.Fst.unpair (by assumption)
    | exact Only.Opt.none
    | with_reducible refine Only.Opt.some ?_
    | with_reducible refine Only.Opt.ite ?_ ?_
    | with_reducible refine Only.Opt.getD ?_ ?_
    | with_reducible refine Only.Opt.map ?_
    | split
    | with_reducible refine Only.Fst.of ?_
    | with_reducible refine Only.Fst.pair ?_
    | with_reducible refine Only.Fst.elim (by assumption) ?_
    | with_reducible refine Only.Opt.elim (by assumption) ?_
    | (refine fun _ => ?_))

theorem State.respond_only {A : Nat} {s₀ : State} {s : State} {p : Pkt} {status : Nat} {data : List (BitVec 8)} (hS : Only A s₀ s) (hA : Covers 0x4000000000000 A) :
    Only A s₀ (State.respond s p status data) := by
  unfold State.respond
  repeat' (first
    | with_reducible exact hS
    | with_reducible assumption
    | (with_reducible refine Covers.testBit hA ?_; decide)
    | (with_reducible refine Covers.trans ?_ hA; decide)
    | (refine fun _ => ?_; intros)
    | (extract_lets -underBinder +onlyGivenNames x; refine (fun (hx : Only A s₀ x) => ?_ : Only A s₀ x → _) ?_; (on_goal 2 => unfold x; clear x); (on_goal 1 => clear_value x; revert x; intro _ _))
    | (extract_lets -underBinder +onlyGivenNames x; unfold x; clear x)
    | (extract_lets -underBinder +onlyGivenNames x; revert x; intro _)
    | with_reducible refine Only.ite ?_ ?_
    | with_reducible refine State.updRing_only ?_ ?_
    | with_reducible refine State.takeRoute_only ?_ ?_
    | with_reducible refine Only.Fst.ite ?_ ?_
    | with_reducible refine Only.Fst.unpair (by assumption)
    | split
    | with_reducible refine Only.Fst.of ?_
    | with_reducible refine Only.Fst.pair ?_
    | with_reducible refine Only.Fst.elim (by assumption) ?_)

theorem State.refusePkt_only {A : Nat} {s₀ : State} {s : State} {p : Pkt} {reason : Nat} (hS : Only A s₀ s) (hA : Covers 0x804000000000000 A) :
    Only A s₀ (State.refusePkt s p reason) := by
  unfold State.refusePkt
  repeat' (first
    | with_reducible exact hS
    | with_reducible assumption
    | (with_reducible refine Covers.testBit hA ?_; decide)
    | (with_reducible refine Covers.trans ?_ hA; decide)
    | with_reducible refine State.refuseAccess_only ?_ ?_
    | with_reducible refine State.respond_only ?_ ?_)

theorem State.targetEcc_only {A : Nat} {s₀ : State} {s : State} {a : Nat} {o : Codeword} (hS : Only A s₀ s) (hA : Covers 0x180000D000005200 A) :
    Only A s₀ (State.targetEcc s a o) := by
  unfold State.targetEcc
  repeat' (first
    | with_reducible exact hS
    | with_reducible assumption
    | (with_reducible refine Covers.testBit hA ?_; decide)
    | (with_reducible refine Covers.trans ?_ hA; decide)
    | with_reducible refine State.inc_only ?_ ?_ ?_
    | with_reducible refine State.err_only ?_ ?_ ?_
    | with_reducible refine State.hbmEcc_only ?_ ?_
    | with_reducible refine State.lramCorrected_only ?_ ?_
    | with_reducible refine State.lramUncorrectable_only ?_ ?_
    | split
    | (refine fun _ => ?_))

theorem State.targetStall_only {A : Nat} {s₀ : State} {s : State} {a : Nat} {n : Nat} (hS : Only A s₀ s) (hA : Covers 0x1000000000005000 A) :
    Only A s₀ (State.targetStall s a n) := by
  unfold State.targetStall
  repeat' (first
    | with_reducible exact hS
    | with_reducible assumption
    | (with_reducible refine Covers.testBit hA ?_; decide)
    | (with_reducible refine Covers.trans ?_ hA; decide)
    | with_reducible refine State.add_only ?_ ?_ ?_
    | split
    | (refine fun _ => ?_))

theorem State.targetRead_only {A : Nat} {s₀ : State} {s : State} {a : Nat} {n : Nat} {part : Bool} {ecc : EccMap} (hS : Only A s₀ s) (hA : Covers 0x180000D000005200 A) :
    Only.Fst A s₀ (State.targetRead s a n part ecc) := by
  unfold State.targetRead
  repeat' (first
    | with_reducible exact hS
    | with_reducible assumption
    | (with_reducible refine Covers.testBit hA ?_; decide)
    | (with_reducible refine Covers.trans ?_ hA; decide)
    | (refine fun _ => ?_; intros)
    | (extract_lets -underBinder +onlyGivenNames x; refine (fun (hx : Only A s₀ x) => ?_ : Only A s₀ x → _) ?_; (on_goal 2 => unfold x; clear x); (on_goal 1 => clear_value x; revert x; intro _ _))
    | (extract_lets -underBinder +onlyGivenNames x; unfold x; clear x)
    | (extract_lets -underBinder +onlyGivenNames x; revert x; intro _)
    | with_reducible refine State.targetEcc_only ?_ ?_
    | with_reducible refine Only.foldl _ ?_ ?_
    | with_reducible refine Only.Fst.ite ?_ ?_
    | with_reducible refine Only.Fst.unpair (by assumption)
    | with_reducible refine Only.Fst.foldl _ ?_ ?_
    | with_reducible refine Only.Fst.of ?_
    | with_reducible refine Only.Fst.pair ?_
    | with_reducible refine Only.Fst.elim (by assumption) ?_)

theorem State.targetWrite_only {A : Nat} {s₀ : State} {s : State} {a : Nat} {data : List (BitVec 8)} {ecc : EccMap} (hS : Only A s₀ s) (hA : Covers 0x180000D000005200 A) :
    Only.Fst A s₀ (State.targetWrite s a data ecc) := by
  unfold State.targetWrite
  repeat' (first
    | with_reducible exact hS
    | with_reducible assumption
    | (with_reducible refine Covers.testBit hA ?_; decide)
    | (with_reducible refine Covers.trans ?_ hA; decide)
    | (extract_lets -underBinder +onlyGivenNames x; refine (fun (hx : Only A s₀ x) => ?_ : Only A s₀ x → _) ?_; (on_goal 2 => unfold x; clear x); (on_goal 1 => clear_value x; revert x; intro _ _))
    | (extract_lets -underBinder +onlyGivenNames x; unfold x; clear x)
    | (extract_lets -underBinder +onlyGivenNames x; revert x; intro _)
    | with_reducible refine Only.ite ?_ ?_
    | with_reducible refine State.writeMem_only ?_ ?_
    | with_reducible refine State.targetRead_only ?_ ?_
    | with_reducible refine Only.Fst.ite ?_ ?_
    | with_reducible refine Only.Fst.unpair (by assumption)
    | split
    | with_reducible refine Only.Fst.of ?_
    | with_reducible refine Only.Fst.pair ?_
    | with_reducible refine Only.Fst.elim (by assumption) ?_)

theorem State.memRefuses_only {A : Nat} {s₀ : State} {s : State} {p : Pkt} (hS : Only A s₀ s) (hA : Covers 0x804000000000200 A) :
    Only.Opt A s₀ (State.memRefuses s p) := by
  unfold State.memRefuses
  repeat' (first
    | with_reducible exact hS
    | with_reducible assumption
    | (with_reducible refine Covers.testBit hA ?_; decide)
    | (with_reducible refine Covers.trans ?_ hA; decide)
    | with_reducible refine Only.ite ?_ ?_
    | with_reducible refine State.err_only ?_ ?_ ?_
    | with_reducible refine State.refusePkt_only ?_ ?_
    | exact Only.Opt.none
    | with_reducible refine Only.Opt.some ?_
    | with_reducible refine Only.Opt.ite ?_ ?_
    | with_reducible refine Only.Opt.getD ?_ ?_
    | with_reducible refine Only.Opt.map ?_
    | with_reducible refine Only.Opt.elim (by assumption) ?_)

theorem State.writePiece_only {A : Nat} {s₀ : State} {s : State} {ini : Nat} {ecc : EccMap} {n : Nat} {a : Nat} {data : List (BitVec 8)} (hS : Only A s₀ s) (hA : Covers 0x180008D000005210 A) :
    Only.Fst A s₀ (State.writePiece s ini ecc n a data) := by
  unfold State.writePiece
  repeat' (first
    | with_reducible exact hS
    | with_reducible assumption
    | (with_reducible refine Covers.testBit hA ?_; decide)
    | (with_reducible refine Covers.trans ?_ hA; decide)
    | (extract_lets -underBinder +onlyGivenNames x; refine (fun (hx : Only A s₀ x) => ?_ : Only A s₀ x → _) ?_; (on_goal 2 => unfold x; clear x); (on_goal 1 => clear_value x; revert x; intro _ _))
    | (extract_lets -underBinder +onlyGivenNames x; unfold x; clear x)
    | (extract_lets -underBinder +onlyGivenNames x; revert x; intro _)
    | with_reducible refine Only.ite ?_ ?_
    | with_reducible refine State.sideRequest_only ?_ ?_
    | with_reducible refine State.targetWrite_only ?_ ?_
    | with_reducible refine Only.Fst.ite ?_ ?_
    | with_reducible refine Only.Fst.unpair (by assumption)
    | exact Only.Opt.none
    | with_reducible refine Only.Opt.some ?_
    | with_reducible refine Only.Opt.ite ?_ ?_
    | with_reducible refine Only.Opt.getD ?_ ?_
    | with_reducible refine Only.Opt.map ?_
    | split
    | with_reducible refine Only.Fst.of ?_
    | with_reducible refine Only.Fst.pair ?_
    | with_reducible refine Only.Fst.elim (by assumption) ?_
    | with_reducible refine Only.Opt.elim (by assumption) ?_
    | (refine fun _ => ?_))

theorem State.poisonedWrite_only {A : Nat} {s₀ : State} {s : State} {p : Pkt} {holes : List (Nat × Nat)} {stall : Nat} {ecc : EccMap} (hS : Only A s₀ s) (hA : Covers 0x180408D000005210 A) :
    Only A s₀ (State.poisonedWrite s p holes stall ecc) := by
  unfold State.poisonedWrite
  repeat' (first
    | with_reducible exact hS
    | with_reducible assumption
    | (with_reducible refine Covers.testBit hA ?_; decide)
    | (with_reducible refine Covers.trans ?_ hA; decide)
    | (refine fun _ => ?_; intros)
    | (extract_lets -underBinder +onlyGivenNames x; refine (fun (hx : Only A s₀ x) => ?_ : Only A s₀ x → _) ?_; (on_goal 2 => unfold x; clear x); (on_goal 1 => clear_value x; revert x; intro _ _))
    | (extract_lets -underBinder +onlyGivenNames x; unfold x; clear x)
    | (extract_lets -underBinder +onlyGivenNames x; revert x; intro _)
    | with_reducible refine Only.ite ?_ ?_
    | with_reducible refine State.report_only ?_ ?_
    | with_reducible refine State.tookFree_only ?_ ?_
    | with_reducible refine State.respond_only ?_ ?_
    | with_reducible refine State.targetStall_only ?_ ?_
    | with_reducible refine State.memRefuses_only ?_ ?_
    | with_reducible refine State.writePiece_only ?_ ?_
    | with_reducible refine Only.foldl _ ?_ ?_
    | with_reducible refine Only.Fst.ite ?_ ?_
    | with_reducible refine Only.Fst.unpair (by assumption)
    | with_reducible refine Only.Fst.foldl _ ?_ ?_
    | exact Only.Opt.none
    | with_reducible refine Only.Opt.some ?_
    | with_reducible refine Only.Opt.ite ?_ ?_
    | with_reducible refine Only.Opt.getD ?_ ?_
    | with_reducible refine Only.Opt.map ?_
    | split
    | with_reducible refine Only.Fst.of ?_
    | with_reducible refine Only.Fst.pair ?_
    | with_reducible refine Only.Fst.elim (by assumption) ?_
    | with_reducible refine Only.Opt.elim (by assumption) ?_
    | (refine fun _ => ?_))

theorem State.serveMem_only {A : Nat} {s₀ : State} {s : State} {p : Pkt} {v : Serve} (hS : Only A s₀ s) (hA : Covers 0x180400D000005200 A) :
    Only A s₀ (State.serveMem s p v) := by
  unfold State.serveMem
  repeat' (first
    | with_reducible exact hS
    | with_reducible assumption
    | (with_reducible refine Covers.testBit hA ?_; decide)
    | (with_reducible refine Covers.trans ?_ hA; decide)
    | (extract_lets -underBinder +onlyGivenNames x; refine (fun (hx : Only A s₀ x) => ?_ : Only A s₀ x → _) ?_; (on_goal 2 => unfold x; clear x); (on_goal 1 => clear_value x; revert x; intro _ _))
    | (extract_lets -underBinder +onlyGivenNames x; unfold x; clear x)
    | (extract_lets -underBinder +onlyGivenNames x; revert x; intro _)
    | with_reducible refine Only.ite ?_ ?_
    | with_reducible refine State.inc_only ?_ ?_ ?_
    | with_reducible refine State.setLeMem_only ?_ ?_
    | with_reducible refine State.respond_only ?_ ?_
    | with_reducible refine State.refusePkt_only ?_ ?_
    | with_reducible refine State.targetStall_only ?_ ?_
    | with_reducible refine State.targetRead_only ?_ ?_
    | with_reducible refine State.targetWrite_only ?_ ?_
    | with_reducible refine State.memRefuses_only ?_ ?_
    | with_reducible refine Only.Fst.ite ?_ ?_
    | with_reducible refine Only.Fst.unpair (by assumption)
    | exact Only.Opt.none
    | with_reducible refine Only.Opt.some ?_
    | with_reducible refine Only.Opt.ite ?_ ?_
    | with_reducible refine Only.Opt.getD ?_ ?_
    | with_reducible refine Only.Opt.map ?_
    | split
    | with_reducible refine Only.Fst.of ?_
    | with_reducible refine Only.Fst.pair ?_
    | with_reducible refine Only.Fst.elim (by assumption) ?_
    | with_reducible refine Only.Opt.elim (by assumption) ?_
    | (refine fun _ => ?_))

theorem State.sideAnswer_only {A : Nat} {s₀ : State} {s : State} {p : Pkt} {v0 : Option State} (hS : Only A s₀ s)
    (ho : Only.Opt A s₀ v0) (hA : Covers 0x1804000000000010 A) : Only A s₀ (State.sideAnswer s p v0) := by
  cases v0 with
  | none => exact State.refusePkt_only (State.sideRefuse_only hS (Covers.trans (by decide) hA)) (Covers.trans (by decide) hA)
  | some t =>
    exact Only.ite (State.updRing_only (Only.Opt.elim rfl ho) (Covers.trans (by decide) hA)) (Only.Opt.elim rfl ho)

theorem State.serveSide_only {A : Nat} {s₀ : State} {s : State} {p : Pkt} (hS : Only A s₀ s) (hA : Covers 0x1804080000000010 A) :
    Only A s₀ (State.serveSide s p) := by
  unfold State.serveSide
  repeat' (first
    | with_reducible exact hS
    | with_reducible assumption
    | (with_reducible refine Covers.testBit hA ?_; decide)
    | (with_reducible refine Covers.trans ?_ hA; decide)
    | (extract_lets -underBinder +onlyGivenNames x; refine (fun (hx : Only A s₀ x) => ?_ : Only A s₀ x → _) ?_; (on_goal 2 => unfold x; clear x); (on_goal 1 => clear_value x; revert x; intro _ _))
    | (extract_lets -underBinder +onlyGivenNames x; unfold x; clear x)
    | (extract_lets -underBinder +onlyGivenNames x; revert x; intro _)
    | with_reducible refine Only.ite ?_ ?_
    | with_reducible refine State.sideRequest_only ?_ ?_
    | with_reducible refine State.refusePkt_only ?_ ?_
    | with_reducible refine State.sideAnswer_only ?_ ?_ ?_
    | exact Only.Opt.none
    | with_reducible refine Only.Opt.some ?_
    | with_reducible refine Only.Opt.ite ?_ ?_
    | with_reducible refine Only.Opt.getD ?_ ?_
    | with_reducible refine Only.Opt.map ?_
    | with_reducible refine Only.Opt.elim (by assumption) ?_)

theorem State.sideResponses_only {A : Nat} {s₀ : State} {s : State} (hS : Only A s₀ s) (hA : Covers 0x4080000000000 A) :
    Only A s₀ (State.sideResponses s) := by
  unfold State.sideResponses
  repeat' (first
    | with_reducible exact hS
    | with_reducible assumption
    | (with_reducible refine Covers.testBit hA ?_; decide)
    | (with_reducible refine Covers.trans ?_ hA; decide)
    | (refine fun _ => ?_; intros)
    | (extract_lets -underBinder +onlyGivenNames x; refine (fun (hx : Only A s₀ x) => ?_ : Only A s₀ x → _) ?_; (on_goal 2 => unfold x; clear x); (on_goal 1 => clear_value x; revert x; intro _ _))
    | (extract_lets -underBinder +onlyGivenNames x; unfold x; clear x)
    | (extract_lets -underBinder +onlyGivenNames x; revert x; intro _)
    | with_reducible refine Only.ite ?_ ?_
    | with_reducible refine State.updRing_only ?_ ?_
    | with_reducible refine State.respond_only ?_ ?_
    | with_reducible refine Only.foldl _ ?_ ?_
    | with_reducible refine Only.Fst.ite ?_ ?_
    | with_reducible refine Only.Fst.unpair (by assumption)
    | with_reducible refine Only.Fst.foldl _ ?_ ?_
    | with_reducible refine Only.Fst.of ?_
    | with_reducible refine Only.Fst.pair ?_
    | with_reducible refine Only.Fst.elim (by assumption) ?_
    | with_reducible refine Only.set_pri ?_ ?_)

theorem State.askResponses_only {A : Nat} {s₀ : State} {s : State} (hS : Only A s₀ s) (hA : Covers 0x82000000000 A) :
    Only A s₀ (State.askResponses s) := by
  unfold State.askResponses
  repeat' (first
    | with_reducible exact hS
    | with_reducible assumption
    | (with_reducible refine Covers.testBit hA ?_; decide)
    | (with_reducible refine Covers.trans ?_ hA; decide)
    | (refine fun _ => ?_; intros)
    | (extract_lets -underBinder +onlyGivenNames x; refine (fun (hx : Only A s₀ x) => ?_ : Only A s₀ x → _) ?_; (on_goal 2 => unfold x; clear x); (on_goal 1 => clear_value x; revert x; intro _ _))
    | (extract_lets -underBinder +onlyGivenNames x; unfold x; clear x)
    | (extract_lets -underBinder +onlyGivenNames x; revert x; intro _)
    | with_reducible refine Only.ite ?_ ?_
    | with_reducible refine State.emit_only ?_ ?_
    | with_reducible refine Only.foldl _ ?_ ?_
    | with_reducible refine Only.Fst.ite ?_ ?_
    | with_reducible refine Only.Fst.unpair (by assumption)
    | with_reducible refine Only.Fst.foldl _ ?_ ?_
    | with_reducible refine Only.Fst.of ?_
    | with_reducible refine Only.Fst.pair ?_
    | with_reducible refine Only.Fst.elim (by assumption) ?_
    | with_reducible refine Only.set_pri ?_ ?_)

theorem State.sideAsk_only {A : Nat} {s₀ : State} {s : State} {write : Bool} {addr : Nat} {len : Nat} {ini : Nat} {tag : Nat} {data : List (BitVec 8)} (hS : Only A s₀ s) (hA : Covers 0x1800082000000010 A) :
    Only A s₀ (State.sideAsk s write addr len ini tag data) := by
  unfold State.sideAsk
  repeat' (first
    | with_reducible exact hS
    | with_reducible assumption
    | (with_reducible refine Covers.testBit hA ?_; decide)
    | (with_reducible refine Covers.trans ?_ hA; decide)
    | (extract_lets -underBinder +onlyGivenNames x; refine (fun (hx : Only A s₀ x) => ?_ : Only A s₀ x → _) ?_; (on_goal 2 => unfold x; clear x); (on_goal 1 => clear_value x; revert x; intro _ _))
    | (extract_lets -underBinder +onlyGivenNames x; unfold x; clear x)
    | (extract_lets -underBinder +onlyGivenNames x; revert x; intro _)
    | with_reducible refine Only.ite ?_ ?_
    | with_reducible refine State.emit_only ?_ ?_
    | with_reducible refine State.sideRefuse_only ?_ ?_
    | with_reducible refine State.sideRequest_only ?_ ?_
    | with_reducible refine State.refuseAccess_only ?_ ?_
    | exact Only.Opt.none
    | with_reducible refine Only.Opt.some ?_
    | with_reducible refine Only.Opt.ite ?_ ?_
    | with_reducible refine Only.Opt.getD ?_ ?_
    | with_reducible refine Only.Opt.map ?_
    | split
    | with_reducible refine Only.Opt.elim (by assumption) ?_
    | with_reducible refine Only.set_pri ?_ ?_
    | (refine fun _ => ?_))

theorem State.sidePortPerform_only {A : Nat} {s₀ : State} {s : State} (hS : Only A s₀ s) (hA : Covers 0x1804986000000270 A) :
    Only A s₀ (State.sidePortPerform s) := by
  unfold State.sidePortPerform
  repeat' (first
    | with_reducible exact hS
    | with_reducible assumption
    | (with_reducible refine Covers.testBit hA ?_; decide)
    | (with_reducible refine Covers.trans ?_ hA; decide)
    | (refine fun _ => ?_; intros)
    | (extract_lets -underBinder +onlyGivenNames x; refine (fun (hx : Only A s₀ x) => ?_ : Only A s₀ x → _) ?_; (on_goal 2 => unfold x; clear x); (on_goal 1 => clear_value x; revert x; intro _ _))
    | (extract_lets -underBinder +onlyGivenNames x; unfold x; clear x)
    | (extract_lets -underBinder +onlyGivenNames x; revert x; intro _)
    | with_reducible refine Only.ite ?_ ?_
    | with_reducible refine State.sideAccesses_only ?_ ?_
    | with_reducible refine State.sideResponses_only ?_ ?_
    | with_reducible refine State.askResponses_only ?_ ?_
    | with_reducible refine Only.set_pri ?_ ?_)

theorem State.serveCstore_only {A : Nat} {s₀ : State} {s : State} {p : Pkt} (hS : Only A s₀ s) (hA : Covers 0x804000000000000 A) :
    Only A s₀ (State.serveCstore s p) := by
  unfold State.serveCstore
  repeat' (first
    | with_reducible exact hS
    | with_reducible assumption
    | (with_reducible refine Covers.testBit hA ?_; decide)
    | (with_reducible refine Covers.trans ?_ hA; decide)
    | (refine fun _ => ?_; intros)
    | (extract_lets -underBinder +onlyGivenNames x; refine (fun (hx : Only A s₀ x) => ?_ : Only A s₀ x → _) ?_; (on_goal 2 => unfold x; clear x); (on_goal 1 => clear_value x; revert x; intro _ _))
    | (extract_lets -underBinder +onlyGivenNames x; unfold x; clear x)
    | (extract_lets -underBinder +onlyGivenNames x; revert x; intro _)
    | with_reducible refine Only.ite ?_ ?_
    | with_reducible refine State.respond_only ?_ ?_
    | with_reducible refine State.refusePkt_only ?_ ?_)

theorem State.performPkt_only {A : Nat} {s₀ : State} {s : State} {p : Pkt} {v : Serve} (hS : Only A s₀ s) (hA : Covers 0x1FFFFFFC007FFFFF A) :
    Only A s₀ (State.performPkt s p v) := by
  unfold State.performPkt
  repeat' (first
    | with_reducible exact hS
    | with_reducible assumption
    | (with_reducible refine Covers.testBit hA ?_; decide)
    | (with_reducible refine Covers.trans ?_ hA; decide)
    | (extract_lets -underBinder +onlyGivenNames x; refine (fun (hx : Only A s₀ x) => ?_ : Only A s₀ x → _) ?_; (on_goal 2 => unfold x; clear x); (on_goal 1 => clear_value x; revert x; intro _ _))
    | (extract_lets -underBinder +onlyGivenNames x; unfold x; clear x)
    | (extract_lets -underBinder +onlyGivenNames x; revert x; intro _)
    | with_reducible refine Only.ite ?_ ?_
    | with_reducible refine State.csrAccess_only ?_ ?_
    | with_reducible refine State.respond_only ?_ ?_
    | with_reducible refine State.refusePkt_only ?_ ?_
    | with_reducible refine State.serveMem_only ?_ ?_
    | with_reducible refine State.serveSide_only ?_ ?_
    | with_reducible refine State.serveCstore_only ?_ ?_
    | with_reducible refine Only.Fst.ite ?_ ?_
    | with_reducible refine Only.Fst.unpair (by assumption)
    | split
    | with_reducible refine Only.Fst.of ?_
    | with_reducible refine Only.Fst.pair ?_
    | with_reducible refine Only.Fst.elim (by assumption) ?_)

theorem State.checkFlits_only {A : Nat} {s₀ : State} {s : State} {data : Nat} {dst : Nat} {v0 : List FlitCheck} (hS : Only A s₀ s) (hA : Covers 0x1800000000000800 A) :
    Only.Fst A s₀ (State.checkFlits s data dst v0) := by
  induction v0 generalizing s with
  | nil => exact Only.Fst.pair hS
  | cons x l ih =>
    cases x with
    | corrected stop => exact ih (State.flitCorrected_only hS (Covers.trans (by decide) hA))
    | header stop link => exact Only.Fst.pair (State.flitUncorrectable_only hS (Covers.trans (by decide) hA))
    | data stop link n =>
      unfold State.checkFlits
      refine Only.Fst.ite (ih hS) ?_
      exact Only.Fst.pair (Only.Fst.of (ih (State.flitUncorrectable_only hS (Covers.trans (by decide) hA))))
    | command cls code =>
      unfold State.checkFlits
      exact Only.Fst.ite (ih hS) (Only.Fst.pair (State.protocolError_only hS (Covers.trans (by decide) hA)))

theorem State.serve_only {A : Nat} {s₀ : State} {s : State} {p : Pkt} {v : Serve} (hS : Only A s₀ s) (hA : Covers 0x1FFFFFFC007FFFFF A) :
    Only A s₀ (State.serve s p v) := by
  unfold State.serve
  repeat' (first
    | with_reducible exact hS
    | with_reducible assumption
    | (with_reducible refine Covers.testBit hA ?_; decide)
    | (with_reducible refine Covers.trans ?_ hA; decide)
    | (extract_lets -underBinder +onlyGivenNames x; refine (fun (hx : Only A s₀ x) => ?_ : Only A s₀ x → _) ?_; (on_goal 2 => unfold x; clear x); (on_goal 1 => clear_value x; revert x; intro _ _))
    | (extract_lets -underBinder +onlyGivenNames x; unfold x; clear x)
    | (extract_lets -underBinder +onlyGivenNames x; revert x; intro _)
    | with_reducible refine Only.ite ?_ ?_
    | with_reducible refine State.countHeld_only ?_ ?_
    | with_reducible refine State.carryPkt_only ?_ ?_
    | with_reducible refine State.poisonedWrite_only ?_ ?_
    | with_reducible refine State.performPkt_only ?_ ?_
    | with_reducible refine State.checkFlits_only ?_ ?_
    | with_reducible refine Only.Fst.ite ?_ ?_
    | with_reducible refine Only.Fst.unpair (by assumption)
    | exact Only.OfRes.trap
    | exact Only.OfRes.held
    | with_reducible refine Only.OfRes.acted ?_
    | with_reducible refine Only.OfRes.ite ?_ ?_
    | split
    | with_reducible refine Only.Fst.of ?_
    | with_reducible refine Only.Fst.pair ?_
    | with_reducible refine Only.Fst.elim (by assumption) ?_
    | with_reducible refine Only.OfRes.elim (by assumption) ?_
    | (refine fun _ => ?_))

theorem State.ringServe_only {A : Nat} {s₀ : State} {s : State} {cmd : Cmd} {src : PktSrc} {v : Serve} (hS : Only A s₀ s) (hA : Covers 0x1FFFFFFC007FFFFF A) :
    Only A s₀ (State.ringServe s cmd src v) := by
  unfold State.ringServe
  repeat' (first
    | with_reducible exact hS
    | with_reducible assumption
    | (with_reducible refine Covers.testBit hA ?_; decide)
    | (with_reducible refine Covers.trans ?_ hA; decide)
    | (refine fun _ => ?_; intros)
    | (extract_lets -underBinder +onlyGivenNames x; refine (fun (hx : Only A s₀ x) => ?_ : Only A s₀ x → _) ?_; (on_goal 2 => unfold x; clear x); (on_goal 1 => clear_value x; revert x; intro _ _))
    | (extract_lets -underBinder +onlyGivenNames x; unfold x; clear x)
    | (extract_lets -underBinder +onlyGivenNames x; revert x; intro _)
    | with_reducible refine Only.ite ?_ ?_
    | with_reducible refine State.updRing_only ?_ ?_
    | with_reducible refine State.takePkt_only ?_ ?_
    | with_reducible refine State.serve_only ?_ ?_
    | with_reducible refine Only.Fst.ite ?_ ?_
    | with_reducible refine Only.Fst.unpair (by assumption)
    | split
    | with_reducible refine Only.Fst.of ?_
    | with_reducible refine Only.Fst.pair ?_
    | with_reducible refine Only.Fst.elim (by assumption) ?_
    | (refine fun _ => ?_))

theorem State.ringEvent_only {A : Nat} {s₀ : State} {s : State} {src : PktSrc} {v : Serve} (hS : Only A s₀ s) (hA : Covers 0x1806000000000800 A) :
    Only A s₀ (State.ringEvent s src v) := by
  unfold State.ringEvent
  repeat' (first
    | with_reducible exact hS
    | with_reducible assumption
    | (with_reducible refine Covers.testBit hA ?_; decide)
    | (with_reducible refine Covers.trans ?_ hA; decide)
    | (extract_lets -underBinder +onlyGivenNames x; refine (fun (hx : Only A s₀ x) => ?_ : Only A s₀ x → _) ?_; (on_goal 2 => unfold x; clear x); (on_goal 1 => clear_value x; revert x; intro _ _))
    | (extract_lets -underBinder +onlyGivenNames x; unfold x; clear x)
    | (extract_lets -underBinder +onlyGivenNames x; revert x; intro _)
    | with_reducible refine State.softEvents_only ?_ ?_
    | with_reducible refine State.countHeld_only ?_ ?_
    | with_reducible refine State.carryPkt_only ?_ ?_
    | with_reducible refine State.takePkt_only ?_ ?_
    | with_reducible refine State.checkFlits_only ?_ ?_
    | with_reducible refine Only.Fst.ite ?_ ?_
    | with_reducible refine Only.Fst.unpair (by assumption)
    | exact Only.OfRes.trap
    | exact Only.OfRes.held
    | with_reducible refine Only.OfRes.acted ?_
    | with_reducible refine Only.OfRes.ite ?_ ?_
    | split
    | with_reducible refine Only.Fst.of ?_
    | with_reducible refine Only.Fst.pair ?_
    | with_reducible refine Only.Fst.elim (by assumption) ?_
    | with_reducible refine Only.OfRes.elim (by assumption) ?_
    | (refine fun _ => ?_))

theorem State.offerLanding_only {A : Nat} {s₀ : State} {s : State} (hS : Only A s₀ s) (hA : Covers 0x1004400000000800 A) :
    Only A s₀ (State.offerLanding s) := by
  unfold State.offerLanding
  repeat' (first
    | with_reducible exact hS
    | with_reducible assumption
    | (with_reducible refine Covers.testBit hA ?_; decide)
    | (with_reducible refine Covers.trans ?_ hA; decide)
    | (refine fun _ => ?_; intros)
    | with_reducible refine State.updWor_only ?_ ?_
    | with_reducible refine State.offer_only ?_ ?_
    | split
    | (refine fun _ => ?_))

theorem State.ringResponse_only {A : Nat} {s₀ : State} {s : State} {is : Cmd → Bool} {k : Nat} {lat : Nat} {flits : List FlitCheck} (hS : Only A s₀ s) (hA : Covers 0x1A8E20D0000868C0 A) :
    Only A s₀ (State.ringResponse s is k lat flits) := by
  unfold State.ringResponse
  repeat' (first
    | with_reducible exact hS
    | with_reducible assumption
    | (with_reducible refine Covers.testBit hA ?_; decide)
    | (with_reducible refine Covers.trans ?_ hA; decide)
    | (refine fun _ => ?_; intros)
    | with_reducible refine Only.ite ?_ ?_
    | with_reducible refine State.updRing_only ?_ ?_
    | with_reducible refine State.carry_only ?_ ?_
    | with_reducible refine State.response_only ?_ ?_
    | with_reducible refine State.checkFlits_only ?_ ?_
    | with_reducible refine Only.Fst.ite ?_ ?_
    | with_reducible refine Only.Fst.unpair (by assumption)
    | split
    | with_reducible refine Only.Fst.of ?_
    | with_reducible refine Only.Fst.pair ?_
    | with_reducible refine Only.Fst.elim (by assumption) ?_
    | (refine fun _ => ?_))

theorem State.maintenance_only {A : Nat} {s₀ : State} {s : State} {dst : Nat} {flits : List FlitCheck} (hS : Only A s₀ s) (hA : Covers 0x1800000000000800 A) :
    Only.Fst A s₀ (State.maintenance s dst flits) := by
  unfold State.maintenance
  repeat' (first
    | with_reducible exact hS
    | with_reducible assumption
    | (with_reducible refine Covers.testBit hA ?_; decide)
    | (with_reducible refine Covers.trans ?_ hA; decide)
    | (extract_lets -underBinder +onlyGivenNames x; refine (fun (hx : Only A s₀ x) => ?_ : Only A s₀ x → _) ?_; (on_goal 2 => unfold x; clear x); (on_goal 1 => clear_value x; revert x; intro _ _))
    | (extract_lets -underBinder +onlyGivenNames x; unfold x; clear x)
    | (extract_lets -underBinder +onlyGivenNames x; revert x; intro _)
    | with_reducible refine State.checkFlits_only ?_ ?_
    | with_reducible refine Only.Fst.ite ?_ ?_
    | with_reducible refine Only.Fst.unpair (by assumption)
    | with_reducible refine Only.Fst.of ?_
    | with_reducible refine Only.Fst.pair ?_
    | with_reducible refine Only.Fst.elim (by assumption) ?_)

theorem State.errorReport_only {A : Nat} {s₀ : State} {s : State} {p : Nat} {core : Nat} {t : Nat} {flits : List FlitCheck} (hS : Only A s₀ s) (hA : Covers 0x1846002400108800 A) :
    Only A s₀ (State.errorReport s p core t flits) := by
  unfold State.errorReport
  repeat' (first
    | with_reducible exact hS
    | with_reducible assumption
    | (with_reducible refine Covers.testBit hA ?_; decide)
    | (with_reducible refine Covers.trans ?_ hA; decide)
    | (refine fun _ => ?_; intros)
    | (extract_lets -underBinder +onlyGivenNames x; refine (fun (hx : Only A s₀ x) => ?_ : Only A s₀ x → _) ?_; (on_goal 2 => unfold x; clear x); (on_goal 1 => clear_value x; revert x; intro _ _))
    | (extract_lets -underBinder +onlyGivenNames x; unfold x; clear x)
    | (extract_lets -underBinder +onlyGivenNames x; revert x; intro _)
    | with_reducible refine Only.ite ?_ ?_
    | with_reducible refine State.at_only ?_ ?_
    | with_reducible refine State.updErq_only ?_ ?_
    | with_reducible refine State.erqTake_only ?_ ?_
    | with_reducible refine State.carry_only ?_ ?_
    | with_reducible refine State.takeRoute_only ?_ ?_
    | with_reducible refine State.maintenance_only ?_ ?_
    | with_reducible refine Only.Fst.ite ?_ ?_
    | with_reducible refine Only.Fst.unpair (by assumption)
    | split
    | with_reducible refine Only.Fst.of ?_
    | with_reducible refine Only.Fst.pair ?_
    | with_reducible refine Only.Fst.elim (by assumption) ?_
    | (refine fun _ => ?_))

theorem State.wakeReq_only {A : Nat} {s₀ : State} {s : State} {d : Nat} {flits : List FlitCheck} (hS : Only A s₀ s) (hA : Covers 0x1806000000000800 A) :
    Only A s₀ (State.wakeReq s d flits) := by
  unfold State.wakeReq
  repeat' (first
    | with_reducible exact hS
    | with_reducible assumption
    | (with_reducible refine Covers.testBit hA ?_; decide)
    | (with_reducible refine Covers.trans ?_ hA; decide)
    | (refine fun _ => ?_; intros)
    | (extract_lets -underBinder +onlyGivenNames x; refine (fun (hx : Only A s₀ x) => ?_ : Only A s₀ x → _) ?_; (on_goal 2 => unfold x; clear x); (on_goal 1 => clear_value x; revert x; intro _ _))
    | (extract_lets -underBinder +onlyGivenNames x; unfold x; clear x)
    | (extract_lets -underBinder +onlyGivenNames x; revert x; intro _)
    | with_reducible refine Only.ite ?_ ?_
    | with_reducible refine State.inc_only ?_ ?_ ?_
    | with_reducible refine State.raiseEvent_only ?_ ?_
    | with_reducible refine State.updRing_only ?_ ?_
    | with_reducible refine State.maintenance_only ?_ ?_
    | with_reducible refine Only.Fst.ite ?_ ?_
    | with_reducible refine Only.Fst.unpair (by assumption)
    | exact Only.OfRes.trap
    | exact Only.OfRes.held
    | with_reducible refine Only.OfRes.acted ?_
    | with_reducible refine Only.OfRes.ite ?_ ?_
    | split
    | with_reducible refine Only.Fst.of ?_
    | with_reducible refine Only.Fst.pair ?_
    | with_reducible refine Only.Fst.elim (by assumption) ?_
    | with_reducible refine Only.OfRes.elim (by assumption) ?_)

theorem State.wakeDoneTo_only {A : Nat} {s₀ : State} {s : State} {d : Nat} {t : Nat} {flits : List FlitCheck} (hS : Only A s₀ s) (hA : Covers 0x1804000000000800 A) :
    Only A s₀ (State.wakeDoneTo s d t flits) := by
  unfold State.wakeDoneTo
  repeat' (first
    | with_reducible exact hS
    | with_reducible assumption
    | (with_reducible refine Covers.testBit hA ?_; decide)
    | (with_reducible refine Covers.trans ?_ hA; decide)
    | (refine fun _ => ?_; intros)
    | (extract_lets -underBinder +onlyGivenNames x; refine (fun (hx : Only A s₀ x) => ?_ : Only A s₀ x → _) ?_; (on_goal 2 => unfold x; clear x); (on_goal 1 => clear_value x; revert x; intro _ _))
    | (extract_lets -underBinder +onlyGivenNames x; unfold x; clear x)
    | (extract_lets -underBinder +onlyGivenNames x; revert x; intro _)
    | with_reducible refine Only.ite ?_ ?_
    | with_reducible refine State.updRing_only ?_ ?_
    | with_reducible refine State.maintenance_only ?_ ?_
    | with_reducible refine Only.Fst.ite ?_ ?_
    | with_reducible refine Only.Fst.unpair (by assumption)
    | split
    | with_reducible refine Only.Fst.of ?_
    | with_reducible refine Only.Fst.pair ?_
    | with_reducible refine Only.Fst.elim (by assumption) ?_)

theorem State.wakeDone_only {A : Nat} {s₀ : State} {s : State} {d : Nat} {flits : List (Fin 32 × List FlitCheck)} (hS : Only A s₀ s) (hA : Covers 0x1804000000000800 A) :
    Only A s₀ (State.wakeDone s d flits) := by
  unfold State.wakeDone
  repeat' (first
    | with_reducible exact hS
    | with_reducible assumption
    | (with_reducible refine Covers.testBit hA ?_; decide)
    | (with_reducible refine Covers.trans ?_ hA; decide)
    | (refine fun _ => ?_; intros)
    | (extract_lets -underBinder +onlyGivenNames x; refine (fun (hx : Only A s₀ x) => ?_ : Only A s₀ x → _) ?_; (on_goal 2 => unfold x; clear x); (on_goal 1 => clear_value x; revert x; intro _ _))
    | (extract_lets -underBinder +onlyGivenNames x; unfold x; clear x)
    | (extract_lets -underBinder +onlyGivenNames x; revert x; intro _)
    | with_reducible refine Only.ite ?_ ?_
    | with_reducible refine State.put_only ?_ ?_
    | with_reducible refine State.updRing_only ?_ ?_
    | with_reducible refine State.releaseHeld_only ?_ ?_
    | with_reducible refine State.wakeDoneTo_only ?_ ?_
    | with_reducible refine Only.foldl _ ?_ ?_
    | with_reducible refine Only.Fst.ite ?_ ?_
    | with_reducible refine Only.Fst.unpair (by assumption)
    | with_reducible refine Only.Fst.foldl _ ?_ ?_
    | with_reducible refine Only.Fst.of ?_
    | with_reducible refine Only.Fst.pair ?_
    | with_reducible refine Only.Fst.elim (by assumption) ?_)

theorem State.spdClearComplete_only {A : Nat} {s₀ : State} {s : State} (hS : Only A s₀ s) (hA : Covers 0x1804000000001800 A) :
    Only A s₀ (State.spdClearComplete s) := by
  unfold State.spdClearComplete
  repeat' (first
    | with_reducible exact hS
    | with_reducible assumption
    | (with_reducible refine Covers.testBit hA ?_; decide)
    | (with_reducible refine Covers.trans ?_ hA; decide)
    | (refine fun _ => ?_; intros)
    | (extract_lets -underBinder +onlyGivenNames x; refine (fun (hx : Only A s₀ x) => ?_ : Only A s₀ x → _) ?_; (on_goal 2 => unfold x; clear x); (on_goal 1 => clear_value x; revert x; intro _ _))
    | (extract_lets -underBinder +onlyGivenNames x; unfold x; clear x)
    | (extract_lets -underBinder +onlyGivenNames x; revert x; intro _)
    | with_reducible refine Only.ite ?_ ?_
    | with_reducible refine State.put_only ?_ ?_
    | with_reducible refine State.wakeDone_only ?_ ?_
    | with_reducible refine Only.forN _ ?_ ?_)

theorem State.wakeRing_only {A : Nat} {s₀ : State} {s : State} (hS : Only A s₀ s) (hA : Covers 0x18B6331400055FEE A) :
    Only A s₀ (State.wakeRing s) := by
  unfold State.wakeRing
  repeat' (first
    | with_reducible exact hS
    | with_reducible assumption
    | (with_reducible refine Covers.testBit hA ?_; decide)
    | (with_reducible refine Covers.trans ?_ hA; decide)
    | (refine fun _ => ?_; intros)
    | (extract_lets -underBinder +onlyGivenNames x; refine (fun (hx : Only A s₀ x) => ?_ : Only A s₀ x → _) ?_; (on_goal 2 => unfold x; clear x); (on_goal 1 => clear_value x; revert x; intro _ _))
    | (extract_lets -underBinder +onlyGivenNames x; unfold x; clear x)
    | (extract_lets -underBinder +onlyGivenNames x; revert x; intro _)
    | with_reducible refine Only.ite ?_ ?_
    | with_reducible refine State.inc_only ?_ ?_ ?_
    | with_reducible refine State.updRing_only ?_ ?_
    | with_reducible refine State.publishHolding_only ?_ ?_
    | with_reducible refine State.wake_only ?_ ?_
    | with_reducible refine State.refuseAccess_only ?_ ?_
    | with_reducible refine State.respond_only ?_ ?_
    | exact Only.OfRes.trap
    | exact Only.OfRes.held
    | with_reducible refine Only.OfRes.acted ?_
    | with_reducible refine Only.OfRes.ite ?_ ?_
    | split
    | with_reducible refine Only.OfRes.elim (by assumption) ?_
    | (refine fun _ => ?_))

theorem State.masterResetAt_only {A : Nat} {s₀ : State} {s : State} {i : Nat} {cut : Option Nat} (hS : Only A s₀ s) (hA : Covers 0x180E000000002800 A) :
    Only A s₀ (State.masterResetAt s i cut) := by
  unfold State.masterResetAt
  repeat' (first
    | with_reducible exact hS
    | with_reducible assumption
    | (with_reducible refine Covers.testBit hA ?_; decide)
    | (with_reducible refine Covers.trans ?_ hA; decide)
    | (refine fun _ => ?_; intros)
    | (extract_lets -underBinder +onlyGivenNames x; refine (fun (hx : Only A s₀ x) => ?_ : Only A s₀ x → _) ?_; (on_goal 2 => unfold x; clear x); (on_goal 1 => clear_value x; revert x; intro _ _))
    | (extract_lets -underBinder +onlyGivenNames x; unfold x; clear x)
    | (extract_lets -underBinder +onlyGivenNames x; revert x; intro _)
    | with_reducible refine State.ownerReset_only ?_ ?_
    | with_reducible refine State.updRing_only ?_ ?_
    | with_reducible refine State.masterTags_only ?_ ?_
    | split
    | (refine fun _ => ?_))

theorem State.spdScrub_only {A : Nat} {s₀ : State} {s : State} {o : Nat} {e : Codeword} {stall : Nat} (hS : Only A s₀ s) (hA : Covers 0x180000D000005200 A) :
    Only A s₀ (State.spdScrub s o e stall) := by
  unfold State.spdScrub
  repeat' (first
    | with_reducible exact hS
    | with_reducible assumption
    | (with_reducible refine Covers.testBit hA ?_; decide)
    | (with_reducible refine Covers.trans ?_ hA; decide)
    | (extract_lets -underBinder +onlyGivenNames x; refine (fun (hx : Only A s₀ x) => ?_ : Only A s₀ x → _) ?_; (on_goal 2 => unfold x; clear x); (on_goal 1 => clear_value x; revert x; intro _ _))
    | (extract_lets -underBinder +onlyGivenNames x; unfold x; clear x)
    | (extract_lets -underBinder +onlyGivenNames x; revert x; intro _)
    | with_reducible refine Only.ite ?_ ?_
    | with_reducible refine State.targetEcc_only ?_ ?_
    | with_reducible refine State.targetStall_only ?_ ?_)

theorem State.mailboxScrub_only {A : Nat} {s₀ : State} {s : State} {o : Nat} {e : Codeword} (hS : Only A s₀ s) (hA : Covers 0x180000D000005200 A) :
    Only A s₀ (State.mailboxScrub s o e) := by
  unfold State.mailboxScrub
  repeat' (first
    | with_reducible exact hS
    | with_reducible assumption
    | (with_reducible refine Covers.testBit hA ?_; decide)
    | (with_reducible refine Covers.trans ?_ hA; decide)
    | with_reducible refine Only.ite ?_ ?_
    | with_reducible refine State.targetEcc_only ?_ ?_)

theorem State.keeperAccess_only {A : Nat} {s₀ : State} {s : State} {x : Access} {a : Nat} {o : Codeword} (hS : Only A s₀ s) (hA : Covers 0x188E20D000087AC0 A) :
    Only A s₀ (State.keeperAccess s x a o) := by
  unfold State.keeperAccess
  repeat' (first
    | with_reducible exact hS
    | with_reducible assumption
    | (with_reducible refine Covers.testBit hA ?_; decide)
    | (with_reducible refine Covers.trans ?_ hA; decide)
    | (extract_lets -underBinder +onlyGivenNames x; refine (fun (hx : Only A s₀ x) => ?_ : Only A s₀ x → _) ?_; (on_goal 2 => unfold x; clear x); (on_goal 1 => clear_value x; revert x; intro _ _))
    | (extract_lets -underBinder +onlyGivenNames x; unfold x; clear x)
    | (extract_lets -underBinder +onlyGivenNames x; revert x; intro _)
    | with_reducible refine Only.ite ?_ ?_
    | with_reducible refine State.setLeMem_only ?_ ?_
    | with_reducible refine State.accessDone_only ?_ ?_
    | with_reducible refine State.targetEcc_only ?_ ?_
    | split
    | (refine fun _ => ?_))

theorem State.mailboxKeeper_only {A : Nat} {s₀ : State} {s : State} {o : Codeword} {other : Option Nat} {v : Serve} (hS : Only A s₀ s) (hA : Covers 0x1FFFFFFC007FFFFF A) :
    Only A s₀ (State.mailboxKeeper s o other v) := by
  unfold State.mailboxKeeper
  repeat' (first
    | with_reducible exact hS
    | with_reducible assumption
    | (with_reducible refine Covers.testBit hA ?_; decide)
    | (with_reducible refine Covers.trans ?_ hA; decide)
    | (refine fun _ => ?_; intros)
    | (extract_lets -underBinder +onlyGivenNames x; refine (fun (hx : Only A s₀ x) => ?_ : Only A s₀ x → _) ?_; (on_goal 2 => unfold x; clear x); (on_goal 1 => clear_value x; revert x; intro _ _))
    | (extract_lets -underBinder +onlyGivenNames x; unfold x; clear x)
    | (extract_lets -underBinder +onlyGivenNames x; revert x; intro _)
    | with_reducible refine Only.ite ?_ ?_
    | with_reducible refine State.inc_only ?_ ?_ ?_
    | with_reducible refine State.err_only ?_ ?_ ?_
    | with_reducible refine State.ringServe_only ?_ ?_
    | with_reducible refine State.keeperAccess_only ?_ ?_
    | split
    | (refine fun _ => ?_))

end Sys2Proof.Machine
end

