-- ==== Sys2Proof/Laws/OnlyTables.lean ====
section
/-! SUPPORT. What each operation of Machine/Tables.lean may change. -/

set_option linter.unusedTactic false
set_option linter.unreachableTactic false
set_option linter.unusedVariables false

namespace Sys2Proof.Machine

theorem State.tableRefused_only {A : Nat} {s₀ : State} {s : State} {k : Nat} {cc : Nat} (hS : Only A s₀ s) (hA : Covers 0x40000000000000 A) :
    Only A s₀ (State.tableRefused s k cc) := by
  unfold State.tableRefused
  repeat' (first
    | with_reducible exact hS
    | with_reducible assumption
    | (with_reducible refine Covers.testBit hA ?_; decide)
    | (with_reducible refine Covers.trans ?_ hA; decide)
    | (refine fun _ => ?_; intros)
    | with_reducible refine State.updTable_only ?_ ?_)

theorem State.tableArm_only {A : Nat} {s₀ : State} {s : State} {k : Nat} {sets : List Nat} (hS : Only A s₀ s) (hA : Covers 0x840210000000042 A) :
    Only.Fst A s₀ (State.tableArm s k sets) := by
  unfold State.tableArm
  repeat' (first
    | with_reducible exact hS
    | with_reducible assumption
    | (with_reducible refine Covers.testBit hA ?_; decide)
    | (with_reducible refine Covers.trans ?_ hA; decide)
    | (refine fun _ => ?_; intros)
    | (extract_lets -underBinder +onlyGivenNames x; refine (fun (hx : Only A s₀ x) => ?_ : Only A s₀ x → _) ?_; (on_goal 2 => unfold x; clear x); (on_goal 1 => clear_value x; revert x; intro _ _))
    | (extract_lets -underBinder +onlyGivenNames x; unfold x; clear x)
    | (extract_lets -underBinder +onlyGivenNames x; revert x; intro _)
    | with_reducible refine Only.ite ?_ ?_
    | with_reducible refine State.put_only ?_ ?_
    | with_reducible refine State.publishCs_only ?_ ?_
    | with_reducible refine State.csArm_only ?_ ?_
    | with_reducible refine State.csClear_only ?_ ?_
    | with_reducible refine State.updTable_only ?_ ?_
    | with_reducible refine State.tableRefused_only ?_ ?_
    | with_reducible refine Only.Fst.ite ?_ ?_
    | with_reducible refine Only.Fst.unpair (by assumption)
    | split
    | with_reducible refine Only.Fst.of ?_
    | with_reducible refine Only.Fst.pair ?_
    | with_reducible refine Only.Fst.elim (by assumption) ?_
    | (refine fun _ => ?_))

theorem State.takenOr_only {A : Nat} {s₀ : State} {s : State} {v0 : Option State} (hS : Only A s₀ s)
    (ho : Only.Opt A s₀ v0) : Only.Fst A s₀ (State.takenOr s v0) := by
  cases v0 with
  | none => exact Only.Fst.pair hS
  | some t => exact Only.Fst.pair (Only.Opt.elim rfl ho)

theorem State.tablePlane_only {A : Nat} {s₀ : State} {s : State} {k : Nat} {plane : Nat} {data : List (BitVec 8)} {ok : Bool} (hS : Only A s₀ s) (hA : Covers 0x1000081000000810 A) :
    Only.Fst A s₀ (State.tablePlane s k plane data ok) := by
  unfold State.tablePlane
  refine Only.Fst.ite (Only.Fst.pair hS) ?_
  have h : Only.Fst A s₀ (s.takenOr (s.sideRequest true (peBase + 0x4000 * plane) 0x4000 17 (tagOfTable k) data)) :=
    State.takenOr_only hS (State.sideRequest_only hS (Covers.trans (by decide) hA))
  exact Only.Fst.pair (State.engineTrips_only h.of (Covers.trans (by decide) hA))

theorem State.tablePlanes_only {A : Nat} {s₀ : State} {s : State} {k : Nat} {planes : List (List (BitVec 8))} (hS : Only A s₀ s) (hA : Covers 0x1042081000000810 A) :
    Only.Fst A s₀ (State.tablePlanes s k planes) := by
  unfold State.tablePlanes
  repeat' (first
    | with_reducible exact hS
    | with_reducible assumption
    | (with_reducible refine Covers.testBit hA ?_; decide)
    | (with_reducible refine Covers.trans ?_ hA; decide)
    | (refine fun _ => ?_; intros)
    | (extract_lets -underBinder +onlyGivenNames x; refine (fun (hx : Only A s₀ x) => ?_ : Only A s₀ x → _) ?_; (on_goal 2 => unfold x; clear x); (on_goal 1 => clear_value x; revert x; intro _ _))
    | (extract_lets -underBinder +onlyGivenNames x; unfold x; clear x)
    | (extract_lets -underBinder +onlyGivenNames x; revert x; intro _)
    | with_reducible refine State.raiseAll_only ?_ ?_
    | with_reducible refine State.updTable_only ?_ ?_
    | with_reducible refine State.tablePlane_only ?_ ?_
    | with_reducible refine Only.foldl _ ?_ ?_
    | with_reducible refine Only.Fst.ite ?_ ?_
    | with_reducible refine Only.Fst.unpair (by assumption)
    | with_reducible refine Only.Fst.foldl _ ?_ ?_
    | with_reducible refine Only.Fst.of ?_
    | with_reducible refine Only.Fst.pair ?_
    | with_reducible refine Only.Fst.elim (by assumption) ?_)

theorem State.takeTable_only {A : Nat} {s₀ : State} {s : State} {k : Nat} (hS : Only A s₀ s) (hA : Covers 0x80000000000 A) :
    Only A s₀ (State.takeTable s k) := by
  unfold State.takeTable
  repeat' (first
    | with_reducible exact hS
    | with_reducible assumption
    | (with_reducible refine Covers.testBit hA ?_; decide)
    | (with_reducible refine Covers.trans ?_ hA; decide)
    | (refine fun _ => ?_; intros)
    | with_reducible refine Only.set_pri ?_ ?_)

theorem State.tableWritten_only {A : Nat} {s₀ : State} {s : State} {k : Nat} (hS : Only A s₀ s) (hA : Covers 0x840290000000042 A) :
    Only A s₀ (State.tableWritten s k) := by
  unfold State.tableWritten
  repeat' (first
    | with_reducible exact hS
    | with_reducible assumption
    | (with_reducible refine Covers.testBit hA ?_; decide)
    | (with_reducible refine Covers.trans ?_ hA; decide)
    | (extract_lets -underBinder +onlyGivenNames x; refine (fun (hx : Only A s₀ x) => ?_ : Only A s₀ x → _) ?_; (on_goal 2 => unfold x; clear x); (on_goal 1 => clear_value x; revert x; intro _ _))
    | (extract_lets -underBinder +onlyGivenNames x; unfold x; clear x)
    | (extract_lets -underBinder +onlyGivenNames x; revert x; intro _)
    | with_reducible refine Only.ite ?_ ?_
    | with_reducible refine State.tableArm_only ?_ ?_
    | with_reducible refine State.takeTable_only ?_ ?_
    | with_reducible refine Only.Fst.ite ?_ ?_
    | with_reducible refine Only.Fst.unpair (by assumption)
    | with_reducible refine Only.Fst.of ?_
    | with_reducible refine Only.Fst.pair ?_
    | with_reducible refine Only.Fst.elim (by assumption) ?_)

theorem State.tablesWritten_only {A : Nat} {s₀ : State} {s : State} (hS : Only A s₀ s) (hA : Covers 0x840290000000042 A) :
    Only A s₀ (State.tablesWritten s) := by
  unfold State.tablesWritten
  repeat' (first
    | with_reducible exact hS
    | with_reducible assumption
    | (with_reducible refine Covers.testBit hA ?_; decide)
    | (with_reducible refine Covers.trans ?_ hA; decide)
    | (refine fun _ => ?_; intros)
    | with_reducible refine State.tableWritten_only ?_ ?_
    | with_reducible refine Only.foldl _ ?_ ?_
    | with_reducible refine Only.Fst.ite ?_ ?_
    | with_reducible refine Only.Fst.unpair (by assumption)
    | with_reducible refine Only.Fst.foldl _ ?_ ?_
    | with_reducible refine Only.Fst.of ?_
    | with_reducible refine Only.Fst.pair ?_
    | with_reducible refine Only.Fst.elim (by assumption) ?_)

end Sys2Proof.Machine
end

