-- ==== Sys2Proof/Laws/OnlyDomain.lean ====
section
/-! SUPPORT. What each operation of Machine/Domain.lean may change. -/

set_option linter.unusedTactic false
set_option linter.unreachableTactic false
set_option linter.unusedVariables false

namespace Sys2Proof.Machine

theorem State.publishDomain_only {A : Nat} {s₀ : State} {s : State} (hS : Only A s₀ s) (hA : Covers 0x8000 A) :
    Only A s₀ (State.publishDomain s) := by
  unfold State.publishDomain
  repeat' (first
    | with_reducible exact hS
    | with_reducible assumption
    | (with_reducible refine Covers.testBit hA ?_; decide)
    | (with_reducible refine Covers.trans ?_ hA; decide)
    | with_reducible refine State.put_only ?_ ?_
    | split
    | (refine fun _ => ?_))

theorem State.domainOpen_only {A : Nat} {s₀ : State} {s : State} {src : ReqSrc} {index : Nat} {sub : Nat} {ty : Option Nat} {total : Nat} (hS : Only A s₀ s) (hA : Covers 0x1840201000008000 A) :
    Only.Fst A s₀ (State.domainOpen s src index sub ty total) := by
  unfold State.domainOpen
  repeat' (first
    | with_reducible exact hS
    | with_reducible assumption
    | (with_reducible refine Covers.testBit hA ?_; decide)
    | (with_reducible refine Covers.trans ?_ hA; decide)
    | (refine fun _ => ?_; intros)
    | (extract_lets -underBinder +onlyGivenNames x; refine (fun (hx : Only A s₀ x) => ?_ : Only A s₀ x → _) ?_; (on_goal 2 => unfold x; clear x); (on_goal 1 => clear_value x; revert x; intro _ _))
    | (extract_lets -underBinder +onlyGivenNames x; unfold x; clear x)
    | (extract_lets -underBinder +onlyGivenNames x; revert x; intro _)
    | with_reducible refine Only.ite ?_ ?_
    | with_reducible refine State.updDic_only ?_ ?_
    | with_reducible refine State.updTable_only ?_ ?_
    | with_reducible refine State.refuseWrite_only ?_ ?_
    | with_reducible refine State.publishDomain_only ?_ ?_
    | with_reducible refine Only.Fst.ite ?_ ?_
    | with_reducible refine Only.Fst.unpair (by assumption)
    | with_reducible refine Only.Fst.of ?_
    | with_reducible refine Only.Fst.pair ?_
    | with_reducible refine Only.Fst.elim (by assumption) ?_)

theorem State.domainData_only {A : Nat} {s₀ : State} {s : State} {off : Nat} {data : List (BitVec 8)} (hS : Only A s₀ s) (hA : Covers 0x4000C000000000 A) :
    Only.Fst A s₀ (State.domainData s off data) := by
  unfold State.domainData
  repeat' (first
    | with_reducible exact hS
    | with_reducible assumption
    | (with_reducible refine Covers.testBit hA ?_; decide)
    | (with_reducible refine Covers.trans ?_ hA; decide)
    | (refine fun _ => ?_; intros)
    | with_reducible refine Only.ite ?_ ?_
    | with_reducible refine State.writeMem_only ?_ ?_
    | with_reducible refine State.updDic_only ?_ ?_
    | with_reducible refine Only.Fst.ite ?_ ?_
    | with_reducible refine Only.Fst.unpair (by assumption)
    | split
    | with_reducible refine Only.Fst.of ?_
    | with_reducible refine Only.Fst.pair ?_
    | with_reducible refine Only.Fst.elim (by assumption) ?_
    | (refine fun _ => ?_))

theorem State.handImage_only {A : Nat} {s₀ : State} {s : State} {page : Nat} {lo : Nat} {cmd : Nat} {len : Nat} (hS : Only A s₀ s) (hA : Covers 0x1FFFFFFC007FFFFF A) :
    Only.Fst A s₀ (State.handImage s page lo cmd len) := by
  unfold State.handImage
  repeat' (first
    | with_reducible exact hS
    | with_reducible assumption
    | (with_reducible refine Covers.testBit hA ?_; decide)
    | (with_reducible refine Covers.trans ?_ hA; decide)
    | (extract_lets -underBinder +onlyGivenNames x; refine (fun (hx : Only A s₀ x) => ?_ : Only A s₀ x → _) ?_; (on_goal 2 => unfold x; clear x); (on_goal 1 => clear_value x; revert x; intro _ _))
    | (extract_lets -underBinder +onlyGivenNames x; unfold x; clear x)
    | (extract_lets -underBinder +onlyGivenNames x; revert x; intro _)
    | with_reducible refine State.engineWrite_only ?_ ?_
    | with_reducible refine Only.Fst.ite ?_ ?_
    | with_reducible refine Only.Fst.unpair (by assumption)
    | split
    | with_reducible refine Only.Fst.of ?_
    | with_reducible refine Only.Fst.pair ?_
    | with_reducible refine Only.Fst.elim (by assumption) ?_)

theorem State.handOff_only {A : Nat} {s₀ : State} {s : State} {index : Nat} {sub : Nat} {total : Nat} (hS : Only A s₀ s) (hA : Covers 0x1FFFFFFC007FFFFF A) :
    Only.Fst A s₀ (State.handOff s index sub total) := by
  unfold State.handOff
  repeat' (first
    | with_reducible exact hS
    | with_reducible assumption
    | (with_reducible refine Covers.testBit hA ?_; decide)
    | (with_reducible refine Covers.trans ?_ hA; decide)
    | (refine fun _ => ?_; intros)
    | (extract_lets -underBinder +onlyGivenNames x; refine (fun (hx : Only A s₀ x) => ?_ : Only A s₀ x → _) ?_; (on_goal 2 => unfold x; clear x); (on_goal 1 => clear_value x; revert x; intro _ _))
    | (extract_lets -underBinder +onlyGivenNames x; unfold x; clear x)
    | (extract_lets -underBinder +onlyGivenNames x; revert x; intro _)
    | with_reducible refine Only.ite ?_ ?_
    | with_reducible refine State.storeStart_only ?_ ?_
    | with_reducible refine State.tableRefused_only ?_ ?_
    | with_reducible refine State.tablePlanes_only ?_ ?_
    | with_reducible refine State.handImage_only ?_ ?_
    | with_reducible refine Only.Fst.ite ?_ ?_
    | with_reducible refine Only.Fst.unpair (by assumption)
    | split
    | with_reducible refine Only.Fst.of ?_
    | with_reducible refine Only.Fst.pair ?_
    | with_reducible refine Only.Fst.elim (by assumption) ?_
    | with_reducible refine Only.set_pwr ?_ ?_)

theorem State.recordHanded_only {A : Nat} {s₀ : State} {s : State} {h : Handed} {code : Nat} (hS : Only A s₀ s) (hA : Covers 0x1840200000008000 A) :
    Only A s₀ (State.recordHanded s h code) := by
  unfold State.recordHanded
  repeat' (first
    | with_reducible exact hS
    | with_reducible assumption
    | (with_reducible refine Covers.testBit hA ?_; decide)
    | (with_reducible refine Covers.trans ?_ hA; decide)
    | with_reducible refine Only.ite ?_ ?_
    | with_reducible refine State.journal_only ?_ ?_
    | with_reducible refine State.abortCode_only ?_ ?_)

theorem State.domainEnd_only {A : Nat} {s₀ : State} {s : State} {crc : Option Nat} (hS : Only A s₀ s) (hA : Covers 0x1FFFFFFC007FFFFF A) :
    Only.Fst A s₀ (State.domainEnd s crc) := by
  unfold State.domainEnd
  repeat' (first
    | with_reducible exact hS
    | with_reducible assumption
    | (with_reducible refine Covers.testBit hA ?_; decide)
    | (with_reducible refine Covers.trans ?_ hA; decide)
    | (refine fun _ => ?_; intros)
    | (extract_lets -underBinder +onlyGivenNames x; refine (fun (hx : Only A s₀ x) => ?_ : Only A s₀ x → _) ?_; (on_goal 2 => unfold x; clear x); (on_goal 1 => clear_value x; revert x; intro _ _))
    | (extract_lets -underBinder +onlyGivenNames x; unfold x; clear x)
    | (extract_lets -underBinder +onlyGivenNames x; revert x; intro _)
    | with_reducible refine Only.ite ?_ ?_
    | with_reducible refine State.updDic_only ?_ ?_
    | with_reducible refine State.dropDomain_only ?_ ?_
    | with_reducible refine State.publishDomain_only ?_ ?_
    | with_reducible refine State.handOff_only ?_ ?_
    | with_reducible refine State.recordHanded_only ?_ ?_
    | with_reducible refine Only.Fst.ite ?_ ?_
    | with_reducible refine Only.Fst.unpair (by assumption)
    | split
    | with_reducible refine Only.Fst.of ?_
    | with_reducible refine Only.Fst.pair ?_
    | with_reducible refine Only.Fst.elim (by assumption) ?_
    | (refine fun _ => ?_))

theorem State.handDone_only {A : Nat} {s₀ : State} {s : State} {h : Handed} {code : Nat} (hS : Only A s₀ s) (hA : Covers 0x1840200000008000 A) :
    Only A s₀ (State.handDone s h code) := by
  unfold State.handDone
  repeat' (first
    | with_reducible exact hS
    | with_reducible assumption
    | (with_reducible refine Covers.testBit hA ?_; decide)
    | (with_reducible refine Covers.trans ?_ hA; decide)
    | (refine fun _ => ?_; intros)
    | (extract_lets -underBinder +onlyGivenNames x; refine (fun (hx : Only A s₀ x) => ?_ : Only A s₀ x → _) ?_; (on_goal 2 => unfold x; clear x); (on_goal 1 => clear_value x; revert x; intro _ _))
    | (extract_lets -underBinder +onlyGivenNames x; unfold x; clear x)
    | (extract_lets -underBinder +onlyGivenNames x; revert x; intro _)
    | with_reducible refine Only.ite ?_ ?_
    | with_reducible refine State.updDic_only ?_ ?_
    | with_reducible refine State.recordHanded_only ?_ ?_)

theorem State.tooLate_only {A : Nat} {s₀ : State} {s : State} {src : ReqSrc} {index : Nat} {sub : Nat} {flags : Nat} {new : Nat} (hS : Only A s₀ s) (hA : Covers 0x1840200000008000 A) :
    Only A s₀ (State.tooLate s src index sub flags new) := by
  unfold State.tooLate
  repeat' (first
    | with_reducible exact hS
    | with_reducible assumption
    | (with_reducible refine Covers.testBit hA ?_; decide)
    | (with_reducible refine Covers.trans ?_ hA; decide)
    | with_reducible refine State.journal_only ?_ ?_
    | with_reducible refine State.abortCode_only ?_ ?_)

theorem State.domainAbort_only {A : Nat} {s₀ : State} {s : State} {src : ReqSrc} {index : Nat} {sub : Nat} (hS : Only A s₀ s) (hA : Covers 0x1840201000008000 A) :
    Only.Fst A s₀ (State.domainAbort s src index sub) := by
  unfold State.domainAbort
  repeat' (first
    | with_reducible exact hS
    | with_reducible assumption
    | (with_reducible refine Covers.testBit hA ?_; decide)
    | (with_reducible refine Covers.trans ?_ hA; decide)
    | (extract_lets -underBinder +onlyGivenNames x; refine (fun (hx : Only A s₀ x) => ?_ : Only A s₀ x → _) ?_; (on_goal 2 => unfold x; clear x); (on_goal 1 => clear_value x; revert x; intro _ _))
    | (extract_lets -underBinder +onlyGivenNames x; unfold x; clear x)
    | (extract_lets -underBinder +onlyGivenNames x; revert x; intro _)
    | with_reducible refine Only.ite ?_ ?_
    | with_reducible refine State.journal_only ?_ ?_
    | with_reducible refine State.abortCode_only ?_ ?_
    | with_reducible refine State.dropDomain_only ?_ ?_
    | with_reducible refine State.tooLate_only ?_ ?_
    | with_reducible refine Only.Fst.ite ?_ ?_
    | with_reducible refine Only.Fst.unpair (by assumption)
    | split
    | with_reducible refine Only.Fst.of ?_
    | with_reducible refine Only.Fst.pair ?_
    | with_reducible refine Only.Fst.elim (by assumption) ?_
    | (refine fun _ => ?_))

theorem State.domainTimeout_only {A : Nat} {s₀ : State} {s : State} (hS : Only A s₀ s) (hA : Covers 0x1840201000008000 A) :
    Only A s₀ (State.domainTimeout s) := by
  unfold State.domainTimeout
  repeat' (first
    | with_reducible exact hS
    | with_reducible assumption
    | (with_reducible refine Covers.testBit hA ?_; decide)
    | (with_reducible refine Covers.trans ?_ hA; decide)
    | with_reducible refine State.dropDomain_only ?_ ?_)

theorem State.domainRead_only {A : Nat} {s₀ : State} {s : State} {src : ReqSrc} {index : Nat} {sub : Nat} {ty : Option Nat} {off : Nat} {n : Nat} (hS : Only A s₀ s) (hA : Covers 0x1800000000008000 A) :
    Only.Fst A s₀ (State.domainRead s src index sub ty off n) := by
  unfold State.domainRead
  repeat' (first
    | with_reducible exact hS
    | with_reducible assumption
    | (with_reducible refine Covers.testBit hA ?_; decide)
    | (with_reducible refine Covers.trans ?_ hA; decide)
    | with_reducible refine Only.ite ?_ ?_
    | with_reducible refine State.refuseCode_only ?_ ?_
    | with_reducible refine Only.Fst.ite ?_ ?_
    | with_reducible refine Only.Fst.unpair (by assumption)
    | split
    | with_reducible refine Only.Fst.of ?_
    | with_reducible refine Only.Fst.pair ?_
    | with_reducible refine Only.Fst.elim (by assumption) ?_
    | (refine fun _ => ?_))

theorem State.tableWrite_only {A : Nat} {s₀ : State} {s : State} {k : Nat} {sub : Nat} {v : Nat} (hS : Only A s₀ s) (hA : Covers 0x842210000000042 A) :
    Only.Fst A s₀ (State.tableWrite s k sub v) := by
  unfold State.tableWrite
  repeat' (first
    | with_reducible exact hS
    | with_reducible assumption
    | (with_reducible refine Covers.testBit hA ?_; decide)
    | (with_reducible refine Covers.trans ?_ hA; decide)
    | (refine fun _ => ?_; intros)
    | (extract_lets -underBinder +onlyGivenNames x; refine (fun (hx : Only A s₀ x) => ?_ : Only A s₀ x → _) ?_; (on_goal 2 => unfold x; clear x); (on_goal 1 => clear_value x; revert x; intro _ _))
    | (extract_lets -underBinder +onlyGivenNames x; unfold x; clear x)
    | (extract_lets -underBinder +onlyGivenNames x; revert x; intro _)
    | with_reducible refine Only.ite ?_ ?_
    | with_reducible refine State.raiseAll_only ?_ ?_
    | with_reducible refine State.scalar_only ?_ ?_
    | with_reducible refine State.updTable_only ?_ ?_
    | with_reducible refine State.tableRefused_only ?_ ?_
    | with_reducible refine State.tableArm_only ?_ ?_
    | with_reducible refine Only.Fst.ite ?_ ?_
    | with_reducible refine Only.Fst.unpair (by assumption)
    | split
    | with_reducible refine Only.Fst.of ?_
    | with_reducible refine Only.Fst.pair ?_
    | with_reducible refine Only.Fst.elim (by assumption) ?_
    | (refine fun _ => ?_))

theorem State.windowWrite_only {A : Nat} {s₀ : State} {s : State} {w : Nat} {v : Nat} (hS : Only A s₀ s) (hA : Covers 0x1FFFFFFC007FFFFF A) :
    Only.Fst A s₀ (State.windowWrite s w v) := by
  unfold State.windowWrite
  have h := State.windowAccess_only (w := w) (data := some (leBytes 4 v)) hS hA
  revert h
  generalize s.windowAccess w (some (leBytes 4 v)) = r
  generalize s.windowAddr w = a
  intro h
  obtain ⟨t, st, b⟩ := r
  exact State.writeCode_only h.of (Covers.trans (by decide) hA)

theorem State.dicWrite_only {A : Nat} {s₀ : State} {s : State} {src : ReqSrc} {index : Nat} {sub : Nat} {ty : Option Nat} {bs : List (BitVec 8)} (hS : Only A s₀ s) (hA : Covers 0x1FFFFFFC007FFFFF A) :
    Only.Fst A s₀ (State.dicWrite s src index sub ty bs) := by
  unfold State.dicWrite
  repeat' (first
    | with_reducible exact hS
    | with_reducible assumption
    | (with_reducible refine Covers.testBit hA ?_; decide)
    | (with_reducible refine Covers.trans ?_ hA; decide)
    | (refine fun _ => ?_; intros)
    | (extract_lets -underBinder +onlyGivenNames x; refine (fun (hx : Only A s₀ x) => ?_ : Only A s₀ x → _) ?_; (on_goal 2 => unfold x; clear x); (on_goal 1 => clear_value x; revert x; intro _ _))
    | (extract_lets -underBinder +onlyGivenNames x; unfold x; clear x)
    | (extract_lets -underBinder +onlyGivenNames x; revert x; intro _)
    | with_reducible refine Only.ite ?_ ?_
    | with_reducible refine State.inc_only ?_ ?_ ?_
    | with_reducible refine State.objWrite_only ?_ ?_
    | with_reducible refine State.refuseWrite_only ?_ ?_
    | with_reducible refine State.finishWrite_only ?_ ?_
    | with_reducible refine State.marked_only ?_ ?_ ?_
    | with_reducible refine State.tableWrite_only ?_ ?_
    | with_reducible refine State.windowWrite_only ?_ ?_
    | with_reducible refine Only.Fst.ite ?_ ?_
    | with_reducible refine Only.Fst.unpair (by assumption)
    | split
    | with_reducible refine Only.Fst.of ?_
    | with_reducible refine Only.Fst.pair ?_
    | with_reducible refine Only.Fst.elim (by assumption) ?_
    | (refine fun _ => ?_))

end Sys2Proof.Machine
end

