-- ==== Sys2Proof/Laws/OnlyLantern.lean ====
section
/-! SUPPORT. What each operation of Machine/Lantern.lean may change. -/

set_option linter.unusedTactic false
set_option linter.unreachableTactic false
set_option linter.unusedVariables false

namespace Sys2Proof.Machine

theorem State.useSession_only {A : Nat} {s₀ : State} {s : State} {x : LanSession} (hS : Only A s₀ s) (hA : Covers 0x40000000000000 A) :
    Only A s₀ (State.useSession s x) := by
  unfold State.useSession
  repeat' (first
    | with_reducible exact hS
    | with_reducible assumption
    | (with_reducible refine Covers.testBit hA ?_; decide)
    | (with_reducible refine Covers.trans ?_ hA; decide)
    | (refine fun _ => ?_; intros)
    | (extract_lets -underBinder +onlyGivenNames x; refine (fun (hx : Only A s₀ x) => ?_ : Only A s₀ x → _) ?_; (on_goal 2 => unfold x; clear x); (on_goal 1 => clear_value x; revert x; intro _ _))
    | (extract_lets -underBinder +onlyGivenNames x; unfold x; clear x)
    | (extract_lets -underBinder +onlyGivenNames x; revert x; intro _)
    | with_reducible refine Only.ite ?_ ?_
    | with_reducible refine State.updDic_only ?_ ?_
    | split
    | (refine fun _ => ?_))

theorem State.lanAnswer_only {A : Nat} {s₀ : State} {s : State} {r : LanReq} (hS : Only A s₀ s) (hA : Covers 0x1ACE20F0000868C0 A) :
    Only A s₀ (State.lanAnswer s r) := by
  unfold State.lanAnswer
  repeat' (first
    | with_reducible exact hS
    | with_reducible assumption
    | (with_reducible refine Covers.testBit hA ?_; decide)
    | (with_reducible refine Covers.trans ?_ hA; decide)
    | (extract_lets -underBinder +onlyGivenNames x; refine (fun (hx : Only A s₀ x) => ?_ : Only A s₀ x → _) ?_; (on_goal 2 => unfold x; clear x); (on_goal 1 => clear_value x; revert x; intro _ _))
    | (extract_lets -underBinder +onlyGivenNames x; unfold x; clear x)
    | (extract_lets -underBinder +onlyGivenNames x; revert x; intro _)
    | with_reducible refine State.tookFree_only ?_ ?_
    | with_reducible refine State.mgtUdp_only ?_ ?_
    | with_reducible refine State.response_only ?_ ?_
    | with_reducible refine State.useSession_only ?_ ?_)

theorem State.setHead_only {A : Nat} {s₀ : State} {s : State} {r : Option DicReq} (hS : Only A s₀ s) (hA : Covers 0x40000000000000 A) :
    Only A s₀ (State.setHead s r) := by
  unfold State.setHead
  repeat' (first
    | with_reducible exact hS
    | with_reducible assumption
    | (with_reducible refine Covers.testBit hA ?_; decide)
    | (with_reducible refine Covers.trans ?_ hA; decide)
    | (refine fun _ => ?_; intros)
    | with_reducible refine State.updDic_only ?_ ?_)

theorem State.servedBy_only {A : Nat} {s₀ : State} {s : State} {on : Bool} {f : State → State} (hS : Only A s₀ s) (hf : ∀ t, Only A s₀ t → Only A s₀ (f t)) :
    Only A s₀ (State.servedBy s on f) := by
  unfold State.servedBy
  repeat' (first
    | with_reducible exact hS
    | with_reducible assumption
    | with_reducible refine Only.ite ?_ ?_
    | with_reducible refine hf _ ?_)

theorem State.itemSkipped_only {A : Nat} {s₀ : State} {s : State} {r : LanReq} {x : LanItem} {c : Nat} (hS : Only A s₀ s) (hA : Covers 0x1840201000008000 A) :
    Only A s₀ (State.itemSkipped s r x c) := by
  unfold State.itemSkipped
  repeat' (first
    | with_reducible exact hS
    | with_reducible assumption
    | (with_reducible refine Covers.testBit hA ?_; decide)
    | (with_reducible refine Covers.trans ?_ hA; decide)
    | with_reducible refine Only.ite ?_ ?_
    | with_reducible refine State.abortCode_only ?_ ?_
    | with_reducible refine State.refuseWrite_only ?_ ?_)

theorem State.queueTurn_only {A : Nat} {s₀ : State} {s : State} (hS : Only A s₀ s) (hA : Covers 0x1FFFFFFC007FFFFF A) :
    Only.Fst A s₀ (State.queueTurn s) := by
  unfold State.queueTurn
  repeat' (first
    | with_reducible exact hS
    | with_reducible assumption
    | (with_reducible refine Covers.testBit hA ?_; decide)
    | (with_reducible refine Covers.trans ?_ hA; decide)
    | (refine fun _ => ?_; intros)
    | (extract_lets -underBinder +onlyGivenNames x; refine (fun (hx : Only A s₀ x) => ?_ : Only A s₀ x → _) ?_; (on_goal 2 => unfold x; clear x); (on_goal 1 => clear_value x; revert x; intro _ _))
    | (extract_lets -underBinder +onlyGivenNames x; unfold x; clear x)
    | (extract_lets -underBinder +onlyGivenNames x; revert x; intro _)
    | with_reducible refine Only.ite ?_ ?_
    | with_reducible refine State.inc_only ?_ ?_ ?_
    | with_reducible refine State.mgtUdp_only ?_ ?_
    | with_reducible refine State.request_only ?_ ?_
    | with_reducible refine State.response_only ?_ ?_
    | with_reducible refine State.usdoRequest_only ?_ ?_
    | with_reducible refine State.usdoSegment_only ?_ ?_
    | with_reducible refine State.rpdoWrite_only ?_ ?_
    | with_reducible refine State.useSession_only ?_ ?_
    | with_reducible refine State.lanAnswer_only ?_ ?_
    | with_reducible refine State.setHead_only ?_ ?_
    | with_reducible refine State.servedBy_only ?_ ?_
    | with_reducible refine State.itemSkipped_only ?_ ?_
    | with_reducible refine Only.Fst.ite ?_ ?_
    | with_reducible refine Only.Fst.unpair (by assumption)
    | exact Only.Opt.none
    | with_reducible refine Only.Opt.some ?_
    | with_reducible refine Only.Opt.ite ?_ ?_
    | with_reducible refine Only.Opt.getD ?_ ?_
    | with_reducible refine Only.Opt.map ?_
    | split
    | with_reducible refine Only.Fst.of ?_
    | with_reducible refine Only.Fst.pair ?_
    | with_reducible refine Only.Fst.elim (by assumption) ?_
    | with_reducible refine Only.Opt.elim (by assumption) ?_
    | (refine fun _ => ?_))

theorem State.queueRun_only {A : Nat} {s₀ : State} {s : State} {v0 : Nat} (hS : Only A s₀ s) (hA : Covers 0x1FFFFFFC007FFFFF A) :
    Only A s₀ (State.queueRun s v0) := by
  induction v0 generalizing s with
  | zero =>
    unfold State.queueRun
    repeat' (first
      | with_reducible exact hS
      | with_reducible assumption
      | (with_reducible refine Covers.testBit hA ?_; decide)
      | (with_reducible refine Covers.trans ?_ hA; decide)
      | (refine fun _ => ?_; intros)
      | (extract_lets -underBinder +onlyGivenNames x; refine (fun (hx : Only A s₀ x) => ?_ : Only A s₀ x → _) ?_; (on_goal 2 => unfold x; clear x); (on_goal 1 => clear_value x; revert x; intro _ _))
      | (extract_lets -underBinder +onlyGivenNames x; unfold x; clear x)
      | (extract_lets -underBinder +onlyGivenNames x; revert x; intro _)
      | with_reducible refine Only.ite ?_ ?_
      | with_reducible refine State.queueTurn_only ?_ ?_
      | with_reducible refine Only.Fst.ite ?_ ?_
      | with_reducible refine Only.Fst.unpair (by assumption)
      | split
      | with_reducible refine Only.Fst.of ?_
      | with_reducible refine Only.Fst.pair ?_
      | with_reducible refine Only.Fst.elim (by assumption) ?_)
  | succ k ih =>
    unfold State.queueRun
    repeat' (first
      | with_reducible exact hS
      | with_reducible assumption
      | (with_reducible refine Covers.testBit hA ?_; decide)
      | (with_reducible refine Covers.trans ?_ hA; decide)
      | with_reducible refine ih ?_
      | (refine fun _ => ?_; intros)
      | (extract_lets -underBinder +onlyGivenNames x; refine (fun (hx : Only A s₀ x) => ?_ : Only A s₀ x → _) ?_; (on_goal 2 => unfold x; clear x); (on_goal 1 => clear_value x; revert x; intro _ _))
      | (extract_lets -underBinder +onlyGivenNames x; unfold x; clear x)
      | (extract_lets -underBinder +onlyGivenNames x; revert x; intro _)
      | with_reducible refine Only.ite ?_ ?_
      | with_reducible refine State.queueTurn_only ?_ ?_
      | with_reducible refine Only.Fst.ite ?_ ?_
      | with_reducible refine Only.Fst.unpair (by assumption)
      | split
      | with_reducible refine Only.Fst.of ?_
      | with_reducible refine Only.Fst.pair ?_
      | with_reducible refine Only.Fst.elim (by assumption) ?_)

theorem State.advance_only {A : Nat} {s₀ : State} {s : State} (hS : Only A s₀ s) (hA : Covers 0x1FFFFFFC007FFFFF A) :
    Only A s₀ (State.advance s) := by
  unfold State.advance
  repeat' (first
    | with_reducible exact hS
    | with_reducible assumption
    | (with_reducible refine Covers.testBit hA ?_; decide)
    | (with_reducible refine Covers.trans ?_ hA; decide)
    | with_reducible refine State.publishQueue_only ?_ ?_
    | with_reducible refine State.queueRun_only ?_ ?_)

theorem State.enqueue_only {A : Nat} {s₀ : State} {s : State} {r : DicReq} (hS : Only A s₀ s) (hA : Covers 0x1FFFFFFC007FFFFF A) :
    Only A s₀ (State.enqueue s r) := by
  unfold State.enqueue
  repeat' (first
    | with_reducible exact hS
    | with_reducible assumption
    | (with_reducible refine Covers.testBit hA ?_; decide)
    | (with_reducible refine Covers.trans ?_ hA; decide)
    | (refine fun _ => ?_; intros)
    | with_reducible refine Only.ite ?_ ?_
    | with_reducible refine State.err_only ?_ ?_ ?_
    | with_reducible refine State.updDic_only ?_ ?_
    | with_reducible refine State.advance_only ?_ ?_)

theorem State.lanDrop_only {A : Nat} {s₀ : State} {s : State} (hS : Only A s₀ s) (hA : Covers 0x1000000000008000 A) :
    Only A s₀ (State.lanDrop s) := by
  unfold State.lanDrop
  repeat' (first
    | with_reducible exact hS
    | with_reducible assumption
    | (with_reducible refine Covers.testBit hA ?_; decide)
    | (with_reducible refine Covers.trans ?_ hA; decide)
    | with_reducible refine State.inc_only ?_ ?_ ?_)

theorem State.lanternDatagram_only {A : Nat} {s₀ : State} {s : State} {dest : Option (Nat × Nat)} {ip : Nat} {port : Nat} {b : List (BitVec 8)} (hS : Only A s₀ s) (hA : Covers 0x1FFFFFFC007FFFFF A) :
    Only A s₀ (State.lanternDatagram s dest ip port b) := by
  unfold State.lanternDatagram
  repeat' (first
    | with_reducible exact hS
    | with_reducible assumption
    | (with_reducible refine Covers.testBit hA ?_; decide)
    | (with_reducible refine Covers.trans ?_ hA; decide)
    | (refine fun _ => ?_; intros)
    | (extract_lets -underBinder +onlyGivenNames x; refine (fun (hx : Only A s₀ x) => ?_ : Only A s₀ x → _) ?_; (on_goal 2 => unfold x; clear x); (on_goal 1 => clear_value x; revert x; intro _ _))
    | (extract_lets -underBinder +onlyGivenNames x; unfold x; clear x)
    | (extract_lets -underBinder +onlyGivenNames x; revert x; intro _)
    | with_reducible refine Only.ite ?_ ?_
    | with_reducible refine State.err_only ?_ ?_ ?_
    | with_reducible refine State.tookFree_only ?_ ?_
    | with_reducible refine State.updDic_only ?_ ?_
    | with_reducible refine State.mgtUdp_only ?_ ?_
    | with_reducible refine State.advance_only ?_ ?_
    | with_reducible refine State.lanDrop_only ?_ ?_
    | split
    | (refine fun _ => ?_))

theorem State.itemDone_only {A : Nat} {s₀ : State} {s : State} {code : Nat} {data : List (BitVec 8)} (hS : Only A s₀ s) (hA : Covers 0x1FFFFFFC007FFFFF A) :
    Only A s₀ (State.itemDone s code data) := by
  unfold State.itemDone
  repeat' (first
    | with_reducible exact hS
    | with_reducible assumption
    | (with_reducible refine Covers.testBit hA ?_; decide)
    | (with_reducible refine Covers.trans ?_ hA; decide)
    | with_reducible refine State.response_only ?_ ?_
    | with_reducible refine State.setHead_only ?_ ?_
    | with_reducible refine State.advance_only ?_ ?_
    | split
    | (refine fun _ => ?_))

theorem State.onItem_only {A : Nat} {s₀ : State} {s : State} {op : Nat} {f : State → LanReq → LanItem → State} (hS : Only A s₀ s) (hf : ∀ t x y, Only A s₀ t → Only A s₀ (f t x y)) :
    Only A s₀ (State.onItem s op f) := by
  unfold State.onItem
  repeat' (first
    | with_reducible exact hS
    | with_reducible assumption
    | with_reducible refine hf _ _ _ ?_
    | split
    | (refine fun _ => ?_))

theorem State.lanRead_only {A : Nat} {s₀ : State} {s : State} (hS : Only A s₀ s) (hA : Covers 0x1FFFFFFC007FFFFF A) :
    Only A s₀ (State.lanRead s) := by
  unfold State.lanRead
  repeat' (first
    | with_reducible exact hS
    | with_reducible assumption
    | (with_reducible refine Covers.testBit hA ?_; decide)
    | (with_reducible refine Covers.trans ?_ hA; decide)
    | (refine fun _ => ?_; intros)
    | (extract_lets -underBinder +onlyGivenNames x; refine (fun (hx : Only A s₀ x) => ?_ : Only A s₀ x → _) ?_; (on_goal 2 => unfold x; clear x); (on_goal 1 => clear_value x; revert x; intro _ _))
    | (extract_lets -underBinder +onlyGivenNames x; unfold x; clear x)
    | (extract_lets -underBinder +onlyGivenNames x; revert x; intro _)
    | with_reducible refine State.dicRead_only ?_ ?_
    | with_reducible refine State.itemDone_only ?_ ?_
    | with_reducible refine State.onItem_only ?_ ?_
    | with_reducible refine Only.Fst.ite ?_ ?_
    | with_reducible refine Only.Fst.unpair (by assumption)
    | split
    | with_reducible refine Only.Fst.of ?_
    | with_reducible refine Only.Fst.pair ?_
    | with_reducible refine Only.Fst.elim (by assumption) ?_)

theorem State.lanWrite_only {A : Nat} {s₀ : State} {s : State} (hS : Only A s₀ s) (hA : Covers 0x1FFFFFFC007FFFFF A) :
    Only A s₀ (State.lanWrite s) := by
  unfold State.lanWrite
  repeat' (first
    | with_reducible exact hS
    | with_reducible assumption
    | (with_reducible refine Covers.testBit hA ?_; decide)
    | (with_reducible refine Covers.trans ?_ hA; decide)
    | (refine fun _ => ?_; intros)
    | (extract_lets -underBinder +onlyGivenNames x; refine (fun (hx : Only A s₀ x) => ?_ : Only A s₀ x → _) ?_; (on_goal 2 => unfold x; clear x); (on_goal 1 => clear_value x; revert x; intro _ _))
    | (extract_lets -underBinder +onlyGivenNames x; unfold x; clear x)
    | (extract_lets -underBinder +onlyGivenNames x; revert x; intro _)
    | with_reducible refine State.dicWrite_only ?_ ?_
    | with_reducible refine State.itemDone_only ?_ ?_
    | with_reducible refine State.onItem_only ?_ ?_
    | with_reducible refine Only.Fst.ite ?_ ?_
    | with_reducible refine Only.Fst.unpair (by assumption)
    | split
    | with_reducible refine Only.Fst.of ?_
    | with_reducible refine Only.Fst.pair ?_
    | with_reducible refine Only.Fst.elim (by assumption) ?_)

theorem State.lanBegin_only {A : Nat} {s₀ : State} {s : State} (hS : Only A s₀ s) (hA : Covers 0x1FFFFFFC007FFFFF A) :
    Only A s₀ (State.lanBegin s) := by
  unfold State.lanBegin
  repeat' (first
    | with_reducible exact hS
    | with_reducible assumption
    | (with_reducible refine Covers.testBit hA ?_; decide)
    | (with_reducible refine Covers.trans ?_ hA; decide)
    | (refine fun _ => ?_; intros)
    | (extract_lets -underBinder +onlyGivenNames x; refine (fun (hx : Only A s₀ x) => ?_ : Only A s₀ x → _) ?_; (on_goal 2 => unfold x; clear x); (on_goal 1 => clear_value x; revert x; intro _ _))
    | (extract_lets -underBinder +onlyGivenNames x; unfold x; clear x)
    | (extract_lets -underBinder +onlyGivenNames x; revert x; intro _)
    | with_reducible refine Only.ite ?_ ?_
    | with_reducible refine State.inc_only ?_ ?_ ?_
    | with_reducible refine State.refuseWrite_only ?_ ?_
    | with_reducible refine State.domainOpen_only ?_ ?_
    | with_reducible refine State.itemDone_only ?_ ?_
    | with_reducible refine State.onItem_only ?_ ?_
    | with_reducible refine Only.Fst.ite ?_ ?_
    | with_reducible refine Only.Fst.unpair (by assumption)
    | split
    | with_reducible refine Only.Fst.of ?_
    | with_reducible refine Only.Fst.pair ?_
    | with_reducible refine Only.Fst.elim (by assumption) ?_)

theorem State.itemRefused_only {A : Nat} {s₀ : State} {s : State} {x : LanItem} {c : Nat} (hS : Only A s₀ s) (hA : Covers 0x1FFFFFFC007FFFFF A) :
    Only A s₀ (State.itemRefused s x c) := by
  unfold State.itemRefused
  repeat' (first
    | with_reducible exact hS
    | with_reducible assumption
    | (with_reducible refine Covers.testBit hA ?_; decide)
    | (with_reducible refine Covers.trans ?_ hA; decide)
    | with_reducible refine State.abortCode_only ?_ ?_
    | with_reducible refine State.itemDone_only ?_ ?_)

theorem State.lanData_only {A : Nat} {s₀ : State} {s : State} (hS : Only A s₀ s) (hA : Covers 0x1FFFFFFC007FFFFF A) :
    Only A s₀ (State.lanData s) := by
  unfold State.lanData
  repeat' (first
    | with_reducible exact hS
    | with_reducible assumption
    | (with_reducible refine Covers.testBit hA ?_; decide)
    | (with_reducible refine Covers.trans ?_ hA; decide)
    | (refine fun _ => ?_; intros)
    | (extract_lets -underBinder +onlyGivenNames x; refine (fun (hx : Only A s₀ x) => ?_ : Only A s₀ x → _) ?_; (on_goal 2 => unfold x; clear x); (on_goal 1 => clear_value x; revert x; intro _ _))
    | (extract_lets -underBinder +onlyGivenNames x; unfold x; clear x)
    | (extract_lets -underBinder +onlyGivenNames x; revert x; intro _)
    | with_reducible refine Only.ite ?_ ?_
    | with_reducible refine State.inc_only ?_ ?_ ?_
    | with_reducible refine State.domainData_only ?_ ?_
    | with_reducible refine State.itemDone_only ?_ ?_
    | with_reducible refine State.onItem_only ?_ ?_
    | with_reducible refine State.itemRefused_only ?_ ?_
    | with_reducible refine Only.Fst.ite ?_ ?_
    | with_reducible refine Only.Fst.unpair (by assumption)
    | split
    | with_reducible refine Only.Fst.of ?_
    | with_reducible refine Only.Fst.pair ?_
    | with_reducible refine Only.Fst.elim (by assumption) ?_)

theorem State.lanEnd_only {A : Nat} {s₀ : State} {s : State} (hS : Only A s₀ s) (hA : Covers 0x1FFFFFFC007FFFFF A) :
    Only A s₀ (State.lanEnd s) := by
  unfold State.lanEnd
  repeat' (first
    | with_reducible exact hS
    | with_reducible assumption
    | (with_reducible refine Covers.testBit hA ?_; decide)
    | (with_reducible refine Covers.trans ?_ hA; decide)
    | (refine fun _ => ?_; intros)
    | (extract_lets -underBinder +onlyGivenNames x; refine (fun (hx : Only A s₀ x) => ?_ : Only A s₀ x → _) ?_; (on_goal 2 => unfold x; clear x); (on_goal 1 => clear_value x; revert x; intro _ _))
    | (extract_lets -underBinder +onlyGivenNames x; unfold x; clear x)
    | (extract_lets -underBinder +onlyGivenNames x; revert x; intro _)
    | with_reducible refine Only.ite ?_ ?_
    | with_reducible refine State.inc_only ?_ ?_ ?_
    | with_reducible refine State.domainEnd_only ?_ ?_
    | with_reducible refine State.itemDone_only ?_ ?_
    | with_reducible refine State.onItem_only ?_ ?_
    | with_reducible refine State.itemRefused_only ?_ ?_
    | with_reducible refine Only.Fst.ite ?_ ?_
    | with_reducible refine Only.Fst.unpair (by assumption)
    | split
    | with_reducible refine Only.Fst.of ?_
    | with_reducible refine Only.Fst.pair ?_
    | with_reducible refine Only.Fst.elim (by assumption) ?_)

theorem State.lanDomainRead_only {A : Nat} {s₀ : State} {s : State} (hS : Only A s₀ s) (hA : Covers 0x1FFFFFFC007FFFFF A) :
    Only A s₀ (State.lanDomainRead s) := by
  unfold State.lanDomainRead
  repeat' (first
    | with_reducible exact hS
    | with_reducible assumption
    | (with_reducible refine Covers.testBit hA ?_; decide)
    | (with_reducible refine Covers.trans ?_ hA; decide)
    | (refine fun _ => ?_; intros)
    | (extract_lets -underBinder +onlyGivenNames x; refine (fun (hx : Only A s₀ x) => ?_ : Only A s₀ x → _) ?_; (on_goal 2 => unfold x; clear x); (on_goal 1 => clear_value x; revert x; intro _ _))
    | (extract_lets -underBinder +onlyGivenNames x; unfold x; clear x)
    | (extract_lets -underBinder +onlyGivenNames x; revert x; intro _)
    | with_reducible refine Only.ite ?_ ?_
    | with_reducible refine State.inc_only ?_ ?_ ?_
    | with_reducible refine State.domainRead_only ?_ ?_
    | with_reducible refine State.itemDone_only ?_ ?_
    | with_reducible refine State.onItem_only ?_ ?_
    | with_reducible refine State.itemRefused_only ?_ ?_
    | with_reducible refine Only.Fst.ite ?_ ?_
    | with_reducible refine Only.Fst.unpair (by assumption)
    | split
    | with_reducible refine Only.Fst.of ?_
    | with_reducible refine Only.Fst.pair ?_
    | with_reducible refine Only.Fst.elim (by assumption) ?_)

theorem State.lanAbort_only {A : Nat} {s₀ : State} {s : State} (hS : Only A s₀ s) (hA : Covers 0x1FFFFFFC007FFFFF A) :
    Only A s₀ (State.lanAbort s) := by
  unfold State.lanAbort
  repeat' (first
    | with_reducible exact hS
    | with_reducible assumption
    | (with_reducible refine Covers.testBit hA ?_; decide)
    | (with_reducible refine Covers.trans ?_ hA; decide)
    | (refine fun _ => ?_; intros)
    | (extract_lets -underBinder +onlyGivenNames x; refine (fun (hx : Only A s₀ x) => ?_ : Only A s₀ x → _) ?_; (on_goal 2 => unfold x; clear x); (on_goal 1 => clear_value x; revert x; intro _ _))
    | (extract_lets -underBinder +onlyGivenNames x; unfold x; clear x)
    | (extract_lets -underBinder +onlyGivenNames x; revert x; intro _)
    | with_reducible refine Only.ite ?_ ?_
    | with_reducible refine State.inc_only ?_ ?_ ?_
    | with_reducible refine State.journal_only ?_ ?_
    | with_reducible refine State.domainAbort_only ?_ ?_
    | with_reducible refine State.itemDone_only ?_ ?_
    | with_reducible refine State.onItem_only ?_ ?_
    | with_reducible refine State.itemRefused_only ?_ ?_
    | with_reducible refine Only.Fst.ite ?_ ?_
    | with_reducible refine Only.Fst.unpair (by assumption)
    | split
    | with_reducible refine Only.Fst.of ?_
    | with_reducible refine Only.Fst.pair ?_
    | with_reducible refine Only.Fst.elim (by assumption) ?_
    | (refine fun _ => ?_))

theorem State.domainResult_only {A : Nat} {s₀ : State} {s : State} (hS : Only A s₀ s) (hA : Covers 0x1FFFFFFC007FFFFF A) :
    Only A s₀ (State.domainResult s) := by
  unfold State.domainResult
  repeat' (first
    | with_reducible exact hS
    | with_reducible assumption
    | (with_reducible refine Covers.testBit hA ?_; decide)
    | (with_reducible refine Covers.trans ?_ hA; decide)
    | (extract_lets -underBinder +onlyGivenNames x; refine (fun (hx : Only A s₀ x) => ?_ : Only A s₀ x → _) ?_; (on_goal 2 => unfold x; clear x); (on_goal 1 => clear_value x; revert x; intro _ _))
    | (extract_lets -underBinder +onlyGivenNames x; unfold x; clear x)
    | (extract_lets -underBinder +onlyGivenNames x; revert x; intro _)
    | with_reducible refine Only.ite ?_ ?_
    | with_reducible refine State.handDone_only ?_ ?_
    | with_reducible refine State.usdoSay_only ?_ ?_
    | with_reducible refine State.setUsdo_only ?_ ?_
    | with_reducible refine State.usdoWrote_only ?_ ?_
    | with_reducible refine State.advance_only ?_ ?_
    | with_reducible refine State.itemDone_only ?_ ?_
    | split
    | (refine fun _ => ?_))

theorem State.lanTimeout_only {A : Nat} {s₀ : State} {s : State} (hS : Only A s₀ s) (hA : Covers 0x1840201000008000 A) :
    Only A s₀ (State.lanTimeout s) := by
  unfold State.lanTimeout
  repeat' (first
    | with_reducible exact hS
    | with_reducible assumption
    | (with_reducible refine Covers.testBit hA ?_; decide)
    | (with_reducible refine Covers.trans ?_ hA; decide)
    | with_reducible refine State.dropDomain_only ?_ ?_
    | split
    | (refine fun _ => ?_))

theorem State.mgtArp_only {A : Nat} {s₀ : State} {s : State} {ip : Nat} {mac : Nat} {target : Nat} (hS : Only A s₀ s) (hA : Covers 0x1000002000008000 A) :
    Only A s₀ (State.mgtArp s ip mac target) := by
  unfold State.mgtArp
  repeat' (first
    | with_reducible exact hS
    | with_reducible assumption
    | (with_reducible refine Covers.testBit hA ?_; decide)
    | (with_reducible refine Covers.trans ?_ hA; decide)
    | with_reducible refine Only.ite ?_ ?_
    | with_reducible refine State.emit_only ?_ ?_
    | with_reducible refine State.lanDrop_only ?_ ?_)

theorem State.mgtEcho_only {A : Nat} {s₀ : State} {s : State} {t : Nat} {mac : Nat} {ip : Nat} {target : Nat} {rest : List (BitVec 8)} (hS : Only A s₀ s) (hA : Covers 0x1040003400008000 A) :
    Only A s₀ (State.mgtEcho s t mac ip target rest) := by
  unfold State.mgtEcho
  repeat' (first
    | with_reducible exact hS
    | with_reducible assumption
    | (with_reducible refine Covers.testBit hA ?_; decide)
    | (with_reducible refine Covers.trans ?_ hA; decide)
    | (refine fun _ => ?_; intros)
    | (extract_lets -underBinder +onlyGivenNames x; refine (fun (hx : Only A s₀ x) => ?_ : Only A s₀ x → _) ?_; (on_goal 2 => unfold x; clear x); (on_goal 1 => clear_value x; revert x; intro _ _))
    | (extract_lets -underBinder +onlyGivenNames x; unfold x; clear x)
    | (extract_lets -underBinder +onlyGivenNames x; revert x; intro _)
    | with_reducible refine Only.ite ?_ ?_
    | with_reducible refine State.tookFree_only ?_ ?_
    | with_reducible refine State.at_only ?_ ?_
    | with_reducible refine State.updDic_only ?_ ?_
    | with_reducible refine State.emit_only ?_ ?_
    | with_reducible refine State.lanDrop_only ?_ ?_)

theorem State.mgtLock_only {A : Nat} {s₀ : State} {s : State} {locked : Bool} (hS : Only A s₀ s) (hA : Covers 0x8000 A) :
    Only A s₀ (State.mgtLock s locked) := by
  unfold State.mgtLock
  repeat' (first
    | with_reducible exact hS
    | with_reducible assumption
    | (with_reducible refine Covers.testBit hA ?_; decide)
    | (with_reducible refine Covers.trans ?_ hA; decide)
    | with_reducible refine State.put_only ?_ ?_)

end Sys2Proof.Machine
end

