-- ==== Sys2Proof/Laws/OnlyDawn.lean ====
section
/-! SUPPORT. What each operation of Machine/Dawn.lean may change. -/

set_option linter.unusedTactic false
set_option linter.unreachableTactic false
set_option linter.unusedVariables false

namespace Sys2Proof.Machine

theorem State.dawnStep_only {A : Nat} {s₀ : State} {s : State} {k : Nat} (hS : Only A s₀ s) (hA : Covers 0x80000 A) :
    Only A s₀ (State.dawnStep s k) := by
  unfold State.dawnStep
  repeat' (first
    | with_reducible exact hS
    | with_reducible assumption
    | (with_reducible refine Covers.testBit hA ?_; decide)
    | (with_reducible refine Covers.trans ?_ hA; decide)
    | with_reducible refine State.put_only ?_ ?_)

theorem State.dawnKeeper_only {A : Nat} {s₀ : State} {s : State} {img : List (BitVec 8)} (hS : Only A s₀ s) (hA : Covers 0x188220C0000840C0 A) :
    Only A s₀ (State.dawnKeeper s img) := by
  unfold State.dawnKeeper
  repeat' (first
    | with_reducible exact hS
    | with_reducible assumption
    | (with_reducible refine Covers.testBit hA ?_; decide)
    | (with_reducible refine Covers.trans ?_ hA; decide)
    | (refine fun _ => ?_; intros)
    | with_reducible refine State.loadFirmware_only ?_ ?_
    | with_reducible refine State.startThread_only ?_ ?_
    | with_reducible refine State.updPwr_only ?_ ?_)

theorem State.dawnStack_only {A : Nat} {s₀ : State} {s : State} {k : Nat} {ok : Bool} (hS : Only A s₀ s) (hA : Covers 0x800004000080200 A) :
    Only A s₀ (State.dawnStack s k ok) := by
  unfold State.dawnStack
  repeat' (first
    | with_reducible exact hS
    | with_reducible assumption
    | (with_reducible refine Covers.testBit hA ?_; decide)
    | (with_reducible refine Covers.trans ?_ hA; decide)
    | (extract_lets -underBinder +onlyGivenNames x; refine (fun (hx : Only A s₀ x) => ?_ : Only A s₀ x → _) ?_; (on_goal 2 => unfold x; clear x); (on_goal 1 => clear_value x; revert x; intro _ _))
    | (extract_lets -underBinder +onlyGivenNames x; unfold x; clear x)
    | (extract_lets -underBinder +onlyGivenNames x; revert x; intro _)
    | with_reducible refine Only.ite ?_ ?_
    | with_reducible refine State.putStack_only ?_ ?_
    | with_reducible refine State.dawnErr_only ?_ ?_
    | with_reducible refine State.hbmInitComplete_only ?_ ?_
    | with_reducible refine State.hbmInitFail_only ?_ ?_)

theorem State.dawnDomains_only {A : Nat} {s₀ : State} {s : State} {ok0 : Bool} {ok1 : Bool} (hS : Only A s₀ s) (hA : Covers 0x800004000081200 A) :
    Only A s₀ (State.dawnDomains s ok0 ok1) := by
  unfold State.dawnDomains
  repeat' (first
    | with_reducible exact hS
    | with_reducible assumption
    | (with_reducible refine Covers.testBit hA ?_; decide)
    | (with_reducible refine Covers.trans ?_ hA; decide)
    | (refine fun _ => ?_; intros)
    | (extract_lets -underBinder +onlyGivenNames x; refine (fun (hx : Only A s₀ x) => ?_ : Only A s₀ x → _) ?_; (on_goal 2 => unfold x; clear x); (on_goal 1 => clear_value x; revert x; intro _ _))
    | (extract_lets -underBinder +onlyGivenNames x; unfold x; clear x)
    | (extract_lets -underBinder +onlyGivenNames x; revert x; intro _)
    | with_reducible refine State.put_only ?_ ?_
    | with_reducible refine State.dawnStack_only ?_ ?_
    | with_reducible refine Only.forN _ ?_ ?_)

theorem State.coreImages_only {A : Nat} {s₀ : State} {s : State} {mode : Nat} (hS : Only A s₀ s) (hA : Covers 0x800000000080000 A) :
    Only.Fst A s₀ (State.coreImages s mode) := by
  unfold State.coreImages
  repeat' (first
    | with_reducible exact hS
    | with_reducible assumption
    | (with_reducible refine Covers.testBit hA ?_; decide)
    | (with_reducible refine Covers.trans ?_ hA; decide)
    | (refine fun _ => ?_; intros)
    | (extract_lets -underBinder +onlyGivenNames x; refine (fun (hx : Only A s₀ x) => ?_ : Only A s₀ x → _) ?_; (on_goal 2 => unfold x; clear x); (on_goal 1 => clear_value x; revert x; intro _ _))
    | (extract_lets -underBinder +onlyGivenNames x; unfold x; clear x)
    | (extract_lets -underBinder +onlyGivenNames x; revert x; intro _)
    | with_reducible refine State.bootImage_only ?_ ?_
    | with_reducible refine Only.foldl _ ?_ ?_
    | with_reducible refine Only.Fst.ite ?_ ?_
    | with_reducible refine Only.Fst.unpair (by assumption)
    | with_reducible refine Only.Fst.foldl _ ?_ ?_
    | split
    | with_reducible refine Only.Fst.of ?_
    | with_reducible refine Only.Fst.pair ?_
    | with_reducible refine Only.Fst.elim (by assumption) ?_
    | (refine fun _ => ?_))

theorem State.dawnCores_only {A : Nat} {s₀ : State} {s : State} {mode : Nat} (hS : Only A s₀ s) (hA : Covers 0x180220C0000840C0 A) :
    Only A s₀ (State.dawnCores s mode) := by
  unfold State.dawnCores
  repeat' (first
    | with_reducible exact hS
    | with_reducible assumption
    | (with_reducible refine Covers.testBit hA ?_; decide)
    | (with_reducible refine Covers.trans ?_ hA; decide)
    | (refine fun _ => ?_; intros)
    | (extract_lets -underBinder +onlyGivenNames x; refine (fun (hx : Only A s₀ x) => ?_ : Only A s₀ x → _) ?_; (on_goal 2 => unfold x; clear x); (on_goal 1 => clear_value x; revert x; intro _ _))
    | (extract_lets -underBinder +onlyGivenNames x; unfold x; clear x)
    | (extract_lets -underBinder +onlyGivenNames x; revert x; intro _)
    | with_reducible refine Only.ite ?_ ?_
    | with_reducible refine State.dawnErr_only ?_ ?_
    | with_reducible refine State.loadFirmware_only ?_ ?_
    | with_reducible refine State.startThread_only ?_ ?_
    | with_reducible refine State.dawnStep_only ?_ ?_
    | with_reducible refine State.coreImages_only ?_ ?_
    | with_reducible refine Only.forN _ ?_ ?_
    | with_reducible refine Only.Fst.ite ?_ ?_
    | with_reducible refine Only.Fst.unpair (by assumption)
    | split
    | with_reducible refine Only.Fst.of ?_
    | with_reducible refine Only.Fst.pair ?_
    | with_reducible refine Only.Fst.elim (by assumption) ?_)

theorem State.dawnPatch_only {A : Nat} {s₀ : State} {s : State} {mode : Nat} (hS : Only A s₀ s) (hA : Covers 0x800200000080000 A) :
    Only A s₀ (State.dawnPatch s mode) := by
  unfold State.dawnPatch
  repeat' (first
    | with_reducible exact hS
    | with_reducible assumption
    | (with_reducible refine Covers.testBit hA ?_; decide)
    | (with_reducible refine Covers.trans ?_ hA; decide)
    | (extract_lets -underBinder +onlyGivenNames x; refine (fun (hx : Only A s₀ x) => ?_ : Only A s₀ x → _) ?_; (on_goal 2 => unfold x; clear x); (on_goal 1 => clear_value x; revert x; intro _ _))
    | (extract_lets -underBinder +onlyGivenNames x; unfold x; clear x)
    | (extract_lets -underBinder +onlyGivenNames x; revert x; intro _)
    | with_reducible refine Only.ite ?_ ?_
    | with_reducible refine State.put_only ?_ ?_
    | with_reducible refine State.dawnErr_only ?_ ?_
    | with_reducible refine State.bootImage_only ?_ ?_
    | with_reducible refine State.setPatch_only ?_ ?_
    | with_reducible refine State.loadPatch_only ?_ ?_
    | with_reducible refine Only.Fst.ite ?_ ?_
    | with_reducible refine Only.Fst.unpair (by assumption)
    | split
    | with_reducible refine Only.Fst.of ?_
    | with_reducible refine Only.Fst.pair ?_
    | with_reducible refine Only.Fst.elim (by assumption) ?_
    | (refine fun _ => ?_))

theorem State.reloadLedger_only {A : Nat} {s₀ : State} {s : State} (hS : Only A s₀ s) (hA : Covers 0x20000000020000 A) :
    Only A s₀ (State.reloadLedger s) := by
  unfold State.reloadLedger
  repeat' (first
    | with_reducible exact hS
    | with_reducible assumption
    | (with_reducible refine Covers.testBit hA ?_; decide)
    | (with_reducible refine Covers.trans ?_ hA; decide)
    | (refine fun _ => ?_; intros)
    | (extract_lets -underBinder +onlyGivenNames x; refine (fun (hx : Only A s₀ x) => ?_ : Only A s₀ x → _) ?_; (on_goal 2 => unfold x; clear x); (on_goal 1 => clear_value x; revert x; intro _ _))
    | (extract_lets -underBinder +onlyGivenNames x; unfold x; clear x)
    | (extract_lets -underBinder +onlyGivenNames x; revert x; intro _)
    | with_reducible refine State.put_only ?_ ?_
    | with_reducible refine State.updLed_only ?_ ?_
    | with_reducible refine State.mapLane_only ?_ ?_
    | with_reducible refine State.publishUsed_only ?_ ?_
    | with_reducible refine Only.foldl _ ?_ ?_
    | with_reducible refine Only.Fst.ite ?_ ?_
    | with_reducible refine Only.Fst.unpair (by assumption)
    | with_reducible refine Only.Fst.foldl _ ?_ ?_
    | with_reducible refine Only.Fst.of ?_
    | with_reducible refine Only.Fst.pair ?_
    | with_reducible refine Only.Fst.elim (by assumption) ?_)

theorem State.reloadHistory_only {A : Nat} {s₀ : State} {s : State} (hS : Only A s₀ s) (hA : Covers 0x410000000000000 A) :
    Only A s₀ (State.reloadHistory s) := by
  unfold State.reloadHistory
  repeat' (first
    | with_reducible exact hS
    | with_reducible assumption
    | (with_reducible refine Covers.testBit hA ?_; decide)
    | (with_reducible refine Covers.trans ?_ hA; decide)
    | (refine fun _ => ?_; intros)
    | (extract_lets -underBinder +onlyGivenNames x; refine (fun (hx : Only A s₀ x) => ?_ : Only A s₀ x → _) ?_; (on_goal 2 => unfold x; clear x); (on_goal 1 => clear_value x; revert x; intro _ _))
    | (extract_lets -underBinder +onlyGivenNames x; unfold x; clear x)
    | (extract_lets -underBinder +onlyGivenNames x; revert x; intro _)
    | with_reducible refine State.updTar_only ?_ ?_)

theorem State.emptyQueue_only {A : Nat} {s₀ : State} {s : State} (hS : Only A s₀ s) (hA : Covers 0x800000000100000 A) :
    Only A s₀ (State.emptyQueue s) := by
  unfold State.emptyQueue
  repeat' (first
    | with_reducible exact hS
    | with_reducible assumption
    | (with_reducible refine Covers.testBit hA ?_; decide)
    | (with_reducible refine Covers.trans ?_ hA; decide)
    | (refine fun _ => ?_; intros)
    | with_reducible refine State.updErq_only ?_ ?_
    | with_reducible refine State.publishErq_only ?_ ?_)

theorem State.emptyStore_only {A : Nat} {s₀ : State} {s : State} (hS : Only A s₀ s) (hA : Covers 0x40000000008000 A) :
    Only A s₀ (State.emptyStore s) := by
  unfold State.emptyStore
  refine Only.set_csr_dic hS (fun w => Sparse.wf_keep _ _ _ w) (hA.testBit (by decide)) ?_
  intro k _ hk
  refine Sparse.get_keep_same _ _ _ _ ?_
  have : k / 0x200000 ≠ 15 := fun e => by
    rw [e, hA.testBit (by decide)] at hk
    cases hk
  simp only [clientKey, Bool.not_eq_true', Bool.and_eq_false_iff, beq_eq_false_iff_ne]
  left
  omega

theorem State.bootFields_only {A : Nat} {s₀ : State} {s : State} (hS : Only A s₀ s) (hA : Covers 0x8000 A) :
    Only A s₀ (State.bootFields s) := by
  unfold State.bootFields
  repeat' (first
    | with_reducible exact hS
    | with_reducible assumption
    | (with_reducible refine Covers.testBit hA ?_; decide)
    | (with_reducible refine Covers.trans ?_ hA; decide)
    | (extract_lets -underBinder +onlyGivenNames x; refine (fun (hx : Only A s₀ x) => ?_ : Only A s₀ x → _) ?_; (on_goal 2 => unfold x; clear x); (on_goal 1 => clear_value x; revert x; intro _ _))
    | (extract_lets -underBinder +onlyGivenNames x; unfold x; clear x)
    | (extract_lets -underBinder +onlyGivenNames x; revert x; intro _)
    | with_reducible refine State.put_only ?_ ?_)

theorem State.dawnRetained_only {A : Nat} {s₀ : State} {s : State} (hS : Only A s₀ s) (hA : Covers 0xDF00000001A8000 A) :
    Only A s₀ (State.dawnRetained s) := by
  unfold State.dawnRetained
  repeat' (first
    | with_reducible exact hS
    | with_reducible assumption
    | (with_reducible refine Covers.testBit hA ?_; decide)
    | (with_reducible refine Covers.trans ?_ hA; decide)
    | (refine fun _ => ?_; intros)
    | (extract_lets -underBinder +onlyGivenNames x; refine (fun (hx : Only A s₀ x) => ?_ : Only A s₀ x → _) ?_; (on_goal 2 => unfold x; clear x); (on_goal 1 => clear_value x; revert x; intro _ _))
    | (extract_lets -underBinder +onlyGivenNames x; unfold x; clear x)
    | (extract_lets -underBinder +onlyGivenNames x; revert x; intro _)
    | with_reducible refine Only.ite ?_ ?_
    | with_reducible refine State.put_only ?_ ?_
    | with_reducible refine State.reloadJournal_only ?_ ?_
    | with_reducible refine State.ledgerWake_only ?_ ?_
    | with_reducible refine State.updPwr_only ?_ ?_
    | with_reducible refine State.dawnStep_only ?_ ?_
    | with_reducible refine State.reloadLedger_only ?_ ?_
    | with_reducible refine State.reloadHistory_only ?_ ?_
    | with_reducible refine State.emptyQueue_only ?_ ?_
    | with_reducible refine State.emptyStore_only ?_ ?_
    | with_reducible refine State.bootFields_only ?_ ?_
    | with_reducible refine Only.set_flash ?_ ?_)

theorem State.dawnPlan_only {A : Nat} {s₀ : State} {s : State} (hS : Only A s₀ s) (hA : Covers 0x8101000000900E0 A) :
    Only A s₀ (State.dawnPlan s) := by
  unfold State.dawnPlan
  repeat' (first
    | with_reducible exact hS
    | with_reducible assumption
    | (with_reducible refine Covers.testBit hA ?_; decide)
    | (with_reducible refine Covers.trans ?_ hA; decide)
    | (refine fun _ => ?_; intros)
    | (extract_lets -underBinder +onlyGivenNames x; refine (fun (hx : Only A s₀ x) => ?_ : Only A s₀ x → _) ?_; (on_goal 2 => unfold x; clear x); (on_goal 1 => clear_value x; revert x; intro _ _))
    | (extract_lets -underBinder +onlyGivenNames x; unfold x; clear x)
    | (extract_lets -underBinder +onlyGivenNames x; revert x; intro _)
    | with_reducible refine Only.ite ?_ ?_
    | with_reducible refine State.put_only ?_ ?_
    | with_reducible refine State.enterIsl_only ?_ ?_
    | with_reducible refine State.dawnStep_only ?_ ?_
    | with_reducible refine Only.forN _ ?_ ?_)

theorem State.tableBarriers_only {A : Nat} {s₀ : State} {s : State} {k : Nat} {v0 : Nat} (hS : Only A s₀ s) (hA : Covers 0x1844B96000000272 A) :
    Only A s₀ (State.tableBarriers s k v0) := by
  induction v0 generalizing s with
  | zero =>
    unfold State.tableBarriers
    repeat' (first
      | with_reducible exact hS
      | with_reducible assumption
      | (with_reducible refine Covers.testBit hA ?_; decide)
      | (with_reducible refine Covers.trans ?_ hA; decide)
      | (refine fun _ => ?_; intros)
      | with_reducible refine Only.ite ?_ ?_
      | with_reducible refine State.sideAtToken_only ?_ ?_
      | with_reducible refine State.sidePortPerform_only ?_ ?_
      | with_reducible refine State.tablesWritten_only ?_ ?_
      | with_reducible refine Only.Fst.ite ?_ ?_
      | with_reducible refine Only.Fst.unpair (by assumption)
      | split
      | with_reducible refine Only.Fst.of ?_
      | with_reducible refine Only.Fst.pair ?_
      | with_reducible refine Only.Fst.elim (by assumption) ?_)
  | succ k ih =>
    unfold State.tableBarriers
    repeat' (first
      | with_reducible exact hS
      | with_reducible assumption
      | (with_reducible refine Covers.testBit hA ?_; decide)
      | (with_reducible refine Covers.trans ?_ hA; decide)
      | with_reducible refine ih ?_
      | (refine fun _ => ?_; intros)
      | with_reducible refine Only.ite ?_ ?_
      | with_reducible refine State.sideAtToken_only ?_ ?_
      | with_reducible refine State.sidePortPerform_only ?_ ?_
      | with_reducible refine State.tablesWritten_only ?_ ?_
      | with_reducible refine Only.Fst.ite ?_ ?_
      | with_reducible refine Only.Fst.unpair (by assumption)
      | split
      | with_reducible refine Only.Fst.of ?_
      | with_reducible refine Only.Fst.pair ?_
      | with_reducible refine Only.Fst.elim (by assumption) ?_)

theorem State.handSettle_only {A : Nat} {s₀ : State} {s : State} {h : Handed} (hS : Only A s₀ s) (hA : Covers 0x1844BB60000002FA A) :
    Only A s₀ (State.handSettle s h) := by
  unfold State.handSettle
  repeat' (first
    | with_reducible exact hS
    | with_reducible assumption
    | (with_reducible refine Covers.testBit hA ?_; decide)
    | (with_reducible refine Covers.trans ?_ hA; decide)
    | with_reducible refine Only.ite ?_ ?_
    | with_reducible refine State.admissionComplete_only ?_ ?_
    | with_reducible refine State.loadDone_only ?_ ?_
    | with_reducible refine State.facetLoadDone_only ?_ ?_
    | with_reducible refine State.tableBarriers_only ?_ ?_)

theorem State.replayRecord_only {A : Nat} {s₀ : State} {s : State} {r : CfgRecord} (hS : Only A s₀ s) (hA : Covers 0x1FFFFFFC007FFFFF A) :
    Only.Fst A s₀ (State.replayRecord s r) := by
  unfold State.replayRecord
  repeat' (first
    | with_reducible exact hS
    | with_reducible assumption
    | (with_reducible refine Covers.testBit hA ?_; decide)
    | (with_reducible refine Covers.trans ?_ hA; decide)
    | (refine fun _ => ?_; intros)
    | (extract_lets -underBinder +onlyGivenNames x; refine (fun (hx : Only A s₀ x) => ?_ : Only A s₀ x → _) ?_; (on_goal 2 => unfold x; clear x); (on_goal 1 => clear_value x; revert x; intro _ _))
    | (extract_lets -underBinder +onlyGivenNames x; unfold x; clear x)
    | (extract_lets -underBinder +onlyGivenNames x; revert x; intro _)
    | with_reducible refine Only.ite ?_ ?_
    | with_reducible refine State.inc_only ?_ ?_ ?_
    | with_reducible refine State.updDic_only ?_ ?_
    | with_reducible refine State.dropDomain_only ?_ ?_
    | with_reducible refine State.domainOpen_only ?_ ?_
    | with_reducible refine State.domainData_only ?_ ?_
    | with_reducible refine State.domainEnd_only ?_ ?_
    | with_reducible refine State.handDone_only ?_ ?_
    | with_reducible refine State.dicWrite_only ?_ ?_
    | with_reducible refine State.handSettle_only ?_ ?_
    | with_reducible refine Only.Fst.ite ?_ ?_
    | with_reducible refine Only.Fst.unpair (by assumption)
    | split
    | with_reducible refine Only.Fst.of ?_
    | with_reducible refine Only.Fst.pair ?_
    | with_reducible refine Only.Fst.elim (by assumption) ?_
    | (refine fun _ => ?_))

theorem State.recordRefused_only {A : Nat} {s₀ : State} {s : State} {n : Nat} (hS : Only A s₀ s) (hA : Covers 0x800000000080000 A) :
    Only A s₀ (State.recordRefused s n) := by
  unfold State.recordRefused
  repeat' (first
    | with_reducible exact hS
    | with_reducible assumption
    | (with_reducible refine Covers.testBit hA ?_; decide)
    | (with_reducible refine Covers.trans ?_ hA; decide)
    | (extract_lets -underBinder +onlyGivenNames x; refine (fun (hx : Only A s₀ x) => ?_ : Only A s₀ x → _) ?_; (on_goal 2 => unfold x; clear x); (on_goal 1 => clear_value x; revert x; intro _ _))
    | (extract_lets -underBinder +onlyGivenNames x; unfold x; clear x)
    | (extract_lets -underBinder +onlyGivenNames x; revert x; intro _)
    | with_reducible refine Only.ite ?_ ?_
    | with_reducible refine State.put_only ?_ ?_
    | with_reducible refine State.err_only ?_ ?_ ?_)

theorem State.replay_only {A : Nat} {s₀ : State} {s : State} {l : List CfgRecord} (hS : Only A s₀ s) (hA : Covers 0x1FFFFFFC007FFFFF A) :
    Only A s₀ (State.replay s l) := by
  unfold State.replay
  repeat' (first
    | with_reducible exact hS
    | with_reducible assumption
    | (with_reducible refine Covers.testBit hA ?_; decide)
    | (with_reducible refine Covers.trans ?_ hA; decide)
    | (refine fun _ => ?_; intros)
    | (extract_lets -underBinder +onlyGivenNames x; refine (fun (hx : Only A s₀ x) => ?_ : Only A s₀ x → _) ?_; (on_goal 2 => unfold x; clear x); (on_goal 1 => clear_value x; revert x; intro _ _))
    | (extract_lets -underBinder +onlyGivenNames x; unfold x; clear x)
    | (extract_lets -underBinder +onlyGivenNames x; revert x; intro _)
    | with_reducible refine Only.ite ?_ ?_
    | with_reducible refine State.updDic_only ?_ ?_
    | with_reducible refine State.replayRecord_only ?_ ?_
    | with_reducible refine State.recordRefused_only ?_ ?_
    | with_reducible refine Only.foldl _ ?_ ?_
    | with_reducible refine Only.Fst.ite ?_ ?_
    | with_reducible refine Only.Fst.unpair (by assumption)
    | with_reducible refine Only.Fst.foldl _ ?_ ?_
    | split
    | with_reducible refine Only.Fst.of ?_
    | with_reducible refine Only.Fst.pair ?_
    | with_reducible refine Only.Fst.elim (by assumption) ?_)

theorem State.slotsChecked_only {A : Nat} {s₀ : State} {s : State} (hS : Only A s₀ s) (hA : Covers 0x800000000080000 A) :
    Only A s₀ (State.slotsChecked s) := by
  unfold State.slotsChecked
  repeat' (first
    | with_reducible exact hS
    | with_reducible assumption
    | (with_reducible refine Covers.testBit hA ?_; decide)
    | (with_reducible refine Covers.trans ?_ hA; decide)
    | (refine fun _ => ?_; intros)
    | with_reducible refine Only.ite ?_ ?_
    | with_reducible refine State.imageBad_only ?_ ?_
    | with_reducible refine Only.foldl _ ?_ ?_
    | with_reducible refine Only.Fst.ite ?_ ?_
    | with_reducible refine Only.Fst.unpair (by assumption)
    | with_reducible refine Only.Fst.foldl _ ?_ ?_
    | with_reducible refine Only.Fst.of ?_
    | with_reducible refine Only.Fst.pair ?_
    | with_reducible refine Only.Fst.elim (by assumption) ?_)

theorem State.dawnReplay_only {A : Nat} {s₀ : State} {s : State} (hS : Only A s₀ s) (hA : Covers 0x1FFFFFFC007FFFFF A) :
    Only A s₀ (State.dawnReplay s) := by
  unfold State.dawnReplay
  repeat' (first
    | with_reducible exact hS
    | with_reducible assumption
    | (with_reducible refine Covers.testBit hA ?_; decide)
    | (with_reducible refine Covers.trans ?_ hA; decide)
    | (extract_lets -underBinder +onlyGivenNames x; refine (fun (hx : Only A s₀ x) => ?_ : Only A s₀ x → _) ?_; (on_goal 2 => unfold x; clear x); (on_goal 1 => clear_value x; revert x; intro _ _))
    | (extract_lets -underBinder +onlyGivenNames x; unfold x; clear x)
    | (extract_lets -underBinder +onlyGivenNames x; revert x; intro _)
    | with_reducible refine State.put_only ?_ ?_
    | with_reducible refine State.dawnErr_only ?_ ?_
    | with_reducible refine State.dawnStep_only ?_ ?_
    | with_reducible refine State.replay_only ?_ ?_
    | with_reducible refine State.slotsChecked_only ?_ ?_
    | split
    | (refine fun _ => ?_))

theorem State.dawnDone_only {A : Nat} {s₀ : State} {s : State} (hS : Only A s₀ s) (hA : Covers 0x1FFFFFFC007FFFFF A) :
    Only A s₀ (State.dawnDone s) := by
  unfold State.dawnDone
  repeat' (first
    | with_reducible exact hS
    | with_reducible assumption
    | (with_reducible refine Covers.testBit hA ?_; decide)
    | (with_reducible refine Covers.trans ?_ hA; decide)
    | (extract_lets -underBinder +onlyGivenNames x; refine (fun (hx : Only A s₀ x) => ?_ : Only A s₀ x → _) ?_; (on_goal 2 => unfold x; clear x); (on_goal 1 => clear_value x; revert x; intro _ _))
    | (extract_lets -underBinder +onlyGivenNames x; unfold x; clear x)
    | (extract_lets -underBinder +onlyGivenNames x; revert x; intro _)
    | with_reducible refine State.put_only ?_ ?_
    | with_reducible refine State.tarTrigger_only ?_ ?_
    | with_reducible refine State.glintsIdle_only ?_ ?_
    | with_reducible refine State.glintTrim_only ?_ ?_
    | with_reducible refine State.initialisationDone_only ?_ ?_
    | with_reducible refine State.dawnStep_only ?_ ?_
    | with_reducible refine Only.set_dawnAt ?_ ?_)

theorem State.dawnStop_only {A : Nat} {s₀ : State} {s : State} {err : Nat} (hS : Only A s₀ s) (hA : Covers 0x800200000080080 A) :
    Only A s₀ (State.dawnStop s err) := by
  unfold State.dawnStop
  repeat' (first
    | with_reducible exact hS
    | with_reducible assumption
    | (with_reducible refine Covers.testBit hA ?_; decide)
    | (with_reducible refine Covers.trans ?_ hA; decide)
    | with_reducible refine State.put_only ?_ ?_
    | with_reducible refine State.err_only ?_ ?_ ?_
    | with_reducible refine State.pinsGated_only ?_ ?_
    | with_reducible refine State.dawnStep_only ?_ ?_)

theorem State.toReset_only {A : Nat} {s₀ : State} {s : State} {f : Fld} {i : Nat} (hS : Only A s₀ s) (hpf : A.testBit f.page = true) :
    Only A s₀ (State.toReset s f i) := by
  unfold State.toReset
  repeat' (first
    | with_reducible exact hS
    | with_reducible assumption
    | with_reducible refine State.put_only ?_ ?_)

theorem State.rightsReset_only {A : Nat} {s₀ : State} {s : State} (hS : Only A s₀ s) (hA : Covers 0x8000 A) :
    Only A s₀ (State.rightsReset s) := by
  unfold State.rightsReset
  repeat' (first
    | with_reducible exact hS
    | with_reducible assumption
    | (with_reducible refine Covers.testBit hA ?_; decide)
    | (with_reducible refine Covers.trans ?_ hA; decide)
    | (refine fun _ => ?_; intros)
    | with_reducible refine State.toReset_only ?_ ?_
    | with_reducible refine Only.forN _ ?_ ?_)

theorem State.dawnRest_only {A : Nat} {s₀ : State} {s : State} {mode : Nat} {ok0 : Bool} {ok1 : Bool} (hS : Only A s₀ s) (hA : Covers 0x1FFFFFFC007FFFFF A) :
    Only A s₀ (State.dawnRest s mode ok0 ok1) := by
  unfold State.dawnRest
  repeat' (first
    | with_reducible exact hS
    | with_reducible assumption
    | (with_reducible refine Covers.testBit hA ?_; decide)
    | (with_reducible refine Covers.trans ?_ hA; decide)
    | (extract_lets -underBinder +onlyGivenNames x; refine (fun (hx : Only A s₀ x) => ?_ : Only A s₀ x → _) ?_; (on_goal 2 => unfold x; clear x); (on_goal 1 => clear_value x; revert x; intro _ _))
    | (extract_lets -underBinder +onlyGivenNames x; unfold x; clear x)
    | (extract_lets -underBinder +onlyGivenNames x; revert x; intro _)
    | with_reducible refine Only.ite ?_ ?_
    | with_reducible refine State.put_only ?_ ?_
    | with_reducible refine State.err_only ?_ ?_ ?_
    | with_reducible refine State.initialisationDone_only ?_ ?_
    | with_reducible refine State.dawnStep_only ?_ ?_
    | with_reducible refine State.dawnDomains_only ?_ ?_
    | with_reducible refine State.dawnCores_only ?_ ?_
    | with_reducible refine State.dawnPatch_only ?_ ?_
    | with_reducible refine State.dawnRetained_only ?_ ?_
    | with_reducible refine State.dawnPlan_only ?_ ?_
    | with_reducible refine State.dawnReplay_only ?_ ?_
    | with_reducible refine State.dawnDone_only ?_ ?_
    | with_reducible refine State.rightsReset_only ?_ ?_)

theorem State.dawn_only {A : Nat} {s₀ : State} {s : State} {t : Nat} {us : Nat} {mode : Nat} {flash : Option Sfdp} {ok0 : Bool} {ok1 : Bool} (hS : Only A s₀ s) (hA : Covers 0x1FFFFFFC007FFFFF A) :
    Only A s₀ (State.dawn s t us mode flash ok0 ok1) := by
  unfold State.dawn
  repeat' (first
    | with_reducible exact hS
    | with_reducible assumption
    | (with_reducible refine Covers.testBit hA ?_; decide)
    | (with_reducible refine Covers.trans ?_ hA; decide)
    | (refine fun _ => ?_; intros)
    | (extract_lets -underBinder +onlyGivenNames x; refine (fun (hx : Only A s₀ x) => ?_ : Only A s₀ x → _) ?_; (on_goal 2 => unfold x; clear x); (on_goal 1 => clear_value x; revert x; intro _ _))
    | (extract_lets -underBinder +onlyGivenNames x; unfold x; clear x)
    | (extract_lets -underBinder +onlyGivenNames x; revert x; intro _)
    | with_reducible refine Only.ite ?_ ?_
    | with_reducible refine State.put_only ?_ ?_
    | with_reducible refine State.err_only ?_ ?_ ?_
    | with_reducible refine State.at_only ?_ ?_
    | with_reducible refine State.flashFound_only ?_ ?_
    | with_reducible refine State.bootImage_only ?_ ?_
    | with_reducible refine State.updPwr_only ?_ ?_
    | with_reducible refine State.pinsGated_only ?_ ?_
    | with_reducible refine State.dawnStep_only ?_ ?_
    | with_reducible refine State.dawnKeeper_only ?_ ?_
    | with_reducible refine State.dawnStop_only ?_ ?_
    | with_reducible refine State.dawnRest_only ?_ ?_
    | with_reducible refine Only.Fst.ite ?_ ?_
    | with_reducible refine Only.Fst.unpair (by assumption)
    | split
    | with_reducible refine Only.Fst.of ?_
    | with_reducible refine Only.Fst.pair ?_
    | with_reducible refine Only.Fst.elim (by assumption) ?_
    | with_reducible refine Only.set_flash ?_ ?_
    | (refine fun _ => ?_))

theorem State.configStore_only {A : Nat} {s₀ : State} {s : State} {run : FlashRun} (hS : Only A s₀ s) (hA : Covers 0x980000000080000 A) :
    Only A s₀ (State.configStore s run) := by
  unfold State.configStore
  repeat' (first
    | with_reducible exact hS
    | with_reducible assumption
    | (with_reducible refine Covers.testBit hA ?_; decide)
    | (with_reducible refine Covers.trans ?_ hA; decide)
    | (extract_lets -underBinder +onlyGivenNames x; refine (fun (hx : Only A s₀ x) => ?_ : Only A s₀ x → _) ?_; (on_goal 2 => unfold x; clear x); (on_goal 1 => clear_value x; revert x; intro _ _))
    | (extract_lets -underBinder +onlyGivenNames x; unfold x; clear x)
    | (extract_lets -underBinder +onlyGivenNames x; revert x; intro _)
    | with_reducible refine Only.ite ?_ ?_
    | with_reducible refine State.put_only ?_ ?_
    | with_reducible refine State.err_only ?_ ?_ ?_
    | with_reducible refine State.storeFails_only ?_ ?_
    | split
    | with_reducible refine Only.set_flash ?_ ?_
    | with_reducible refine Only.set_pwr ?_ ?_
    | (refine fun _ => ?_))

theorem State.vendorUpdate_only {A : Nat} {s₀ : State} {s : State} {run : FlashRun} (hS : Only A s₀ s) (hA : Covers 0x980000000080000 A) :
    Only A s₀ (State.vendorUpdate s run) := by
  unfold State.vendorUpdate
  repeat' (first
    | with_reducible exact hS
    | with_reducible assumption
    | (with_reducible refine Covers.testBit hA ?_; decide)
    | (with_reducible refine Covers.trans ?_ hA; decide)
    | (refine fun _ => ?_; intros)
    | (extract_lets -underBinder +onlyGivenNames x; refine (fun (hx : Only A s₀ x) => ?_ : Only A s₀ x → _) ?_; (on_goal 2 => unfold x; clear x); (on_goal 1 => clear_value x; revert x; intro _ _))
    | (extract_lets -underBinder +onlyGivenNames x; unfold x; clear x)
    | (extract_lets -underBinder +onlyGivenNames x; revert x; intro _)
    | with_reducible refine Only.ite ?_ ?_
    | with_reducible refine State.put_only ?_ ?_
    | with_reducible refine State.err_only ?_ ?_ ?_
    | with_reducible refine State.updPwr_only ?_ ?_
    | split
    | with_reducible refine Only.set_flash ?_ ?_
    | (refine fun _ => ?_))

end Sys2Proof.Machine
end

