-- ==== Sys2Proof/Laws/OnlyRowsArray.lean ====
section
/-! SUPPORT. What each operation of Machine/RowsArray.lean may change. -/

set_option linter.unusedTactic false
set_option linter.unreachableTactic false
set_option linter.unusedVariables false

namespace Sys2Proof.Machine

theorem State.issuing_only {A : Nat} {s₀ : State} {s : State} {f : State → State} (hS : Only A s₀ s) (hf : ∀ t, Only A s₀ t → Only A s₀ (f t)) :
    Only A s₀ (State.issuing s f) := by
  unfold State.issuing
  repeat' (first
    | with_reducible exact hS
    | with_reducible assumption
    | (refine fun _ => ?_; intros)
    | with_reducible refine Only.ite ?_ ?_
    | with_reducible refine hf _ ?_
    | with_reducible refine State.live_only ?_ ?_)

end Sys2Proof.Machine
end

