-- ==== Sys2Proof/Laws/ExecRowsArray.lean ====
section
/-! SUPPORT. What each command of Machine/RowsArray.lean may change. -/

set_option linter.unusedTactic false
set_option linter.unreachableTactic false
set_option linter.unusedVariables false

namespace Sys2Proof.Machine

theorem execIslandArrive_only {A : Nat} {i : Fin 16} {t : Nat} {late : Bool} {s : State} {final : State} (h : execIslandArrive i t late s = .next final) (hA : Covers 0x1800100000000020 A) :
    Only A s final := by
  unfold execIslandArrive at h
  injection h with h
  subst h
  have hS : Only A s s := Only.rfl
  repeat' (first
    | with_reducible exact hS
    | with_reducible assumption
    | (with_reducible refine Covers.testBit hA ?_; decide)
    | (with_reducible refine Covers.trans ?_ hA; decide)
    | (refine fun _ => ?_; intros)
    | with_reducible refine State.islandArrive_only ?_ ?_
    | with_reducible refine State.live_only ?_ ?_)

theorem execBarrierTimeout_only {A : Nat} {i : Fin 16} {s : State} {t : State} (h : execBarrierTimeout i s = .next t) (hA : Covers 0x18101000000100A0 A) :
    Only A s t := by
  unfold execBarrierTimeout at h
  injection h with h
  subst h
  have hS : Only A s s := Only.rfl
  repeat' (first
    | with_reducible exact hS
    | with_reducible assumption
    | (with_reducible refine Covers.testBit hA ?_; decide)
    | (with_reducible refine Covers.trans ?_ hA; decide)
    | (refine fun _ => ?_; intros)
    | with_reducible refine State.barrierTimeout_only ?_ ?_
    | with_reducible refine State.live_only ?_ ?_)

theorem execIslandClockSlow_only {A : Nat} {i : Fin 16} {period : Fin 0x100000} {s : State} {t : State} (h : execIslandClockSlow i period s = .next t) (hA : Covers 0x1800300000000020 A) :
    Only A s t := by
  unfold execIslandClockSlow at h
  injection h with h
  subst h
  have hS : Only A s s := Only.rfl
  repeat' (first
    | with_reducible exact hS
    | with_reducible assumption
    | (with_reducible refine Covers.testBit hA ?_; decide)
    | (with_reducible refine Covers.trans ?_ hA; decide)
    | (refine fun _ => ?_; intros)
    | with_reducible refine State.islandClock_only ?_ ?_
    | with_reducible refine State.live_only ?_ ?_)

theorem execIslandClockUnlock_only {A : Nat} {i : Fin 16} {s : State} {t : State} (h : execIslandClockUnlock i s = .next t) (hA : Covers 0x18101000000100A0 A) :
    Only A s t := by
  unfold execIslandClockUnlock at h
  injection h with h
  subst h
  have hS : Only A s s := Only.rfl
  repeat' (first
    | with_reducible exact hS
    | with_reducible assumption
    | (with_reducible refine Covers.testBit hA ?_; decide)
    | (with_reducible refine Covers.trans ?_ hA; decide)
    | (refine fun _ => ?_; intros)
    | with_reducible refine State.clockUnlock_only ?_ ?_
    | with_reducible refine State.live_only ?_ ?_)

theorem execIslandClockRelock_only {A : Nat} {i : Fin 16} {s : State} {t : State} (h : execIslandClockRelock i s = .next t) (hA : Covers 0x100000000000 A) :
    Only A s t := by
  unfold execIslandClockRelock at h
  injection h with h
  subst h
  have hS : Only A s s := Only.rfl
  repeat' (first
    | with_reducible exact hS
    | with_reducible assumption
    | (with_reducible refine Covers.testBit hA ?_; decide)
    | (with_reducible refine Covers.trans ?_ hA; decide)
    | (refine fun _ => ?_; intros)
    | with_reducible refine State.clockRelock_only ?_ ?_
    | with_reducible refine State.live_only ?_ ?_)

theorem execClearingComplete_only {A : Nat} {i : Fin 16} {s : State} {t : State} (h : execClearingComplete i s = .next t) (hA : Covers 0x184000000000 A) :
    Only A s t := by
  unfold execClearingComplete at h
  injection h with h
  subst h
  have hS : Only A s s := Only.rfl
  repeat' (first
    | with_reducible exact hS
    | with_reducible assumption
    | (with_reducible refine Covers.testBit hA ?_; decide)
    | (with_reducible refine Covers.trans ?_ hA; decide)
    | (refine fun _ => ?_; intros)
    | with_reducible refine State.clearingComplete_only ?_ ?_
    | with_reducible refine State.live_only ?_ ?_)

theorem execIslandOff_only {A : Nat} {i : Fin 16} {s : State} {t : State} (h : execIslandOff i s = .next t) (hA : Covers 0x800100000000020 A) :
    Only A s t := by
  unfold execIslandOff at h
  injection h with h
  subst h
  have hS : Only A s s := Only.rfl
  repeat' (first
    | with_reducible exact hS
    | with_reducible assumption
    | (with_reducible refine Covers.testBit hA ?_; decide)
    | (with_reducible refine Covers.trans ?_ hA; decide)
    | (refine fun _ => ?_; intros)
    | with_reducible refine State.islCmd_only ?_ ?_
    | with_reducible refine State.live_only ?_ ?_)

theorem execIslandOn_only {A : Nat} {i : Fin 16} {s : State} {t : State} (h : execIslandOn i s = .next t) (hA : Covers 0x800100000000020 A) :
    Only A s t := by
  unfold execIslandOn at h
  injection h with h
  subst h
  have hS : Only A s s := Only.rfl
  repeat' (first
    | with_reducible exact hS
    | with_reducible assumption
    | (with_reducible refine Covers.testBit hA ?_; decide)
    | (with_reducible refine Covers.trans ?_ hA; decide)
    | (refine fun _ => ?_; intros)
    | with_reducible refine State.islCmd_only ?_ ?_
    | with_reducible refine State.live_only ?_ ?_)

theorem execIslandQuarantine_only {A : Nat} {i : Fin 16} {s : State} {t : State} (h : execIslandQuarantine i s = .next t) (hA : Covers 0x800100000000020 A) :
    Only A s t := by
  unfold execIslandQuarantine at h
  injection h with h
  subst h
  have hS : Only A s s := Only.rfl
  repeat' (first
    | with_reducible exact hS
    | with_reducible assumption
    | (with_reducible refine Covers.testBit hA ?_; decide)
    | (with_reducible refine Covers.trans ?_ hA; decide)
    | (refine fun _ => ?_; intros)
    | with_reducible refine State.islCmd_only ?_ ?_
    | with_reducible refine State.live_only ?_ ?_)

theorem execApplyMap_only {A : Nat} {i : Fin 16} {s : State} {t : State} (h : execApplyMap i s = .next t) (hA : Covers 0x800100000000020 A) :
    Only A s t := by
  unfold execApplyMap at h
  injection h with h
  subst h
  have hS : Only A s s := Only.rfl
  repeat' (first
    | with_reducible exact hS
    | with_reducible assumption
    | (with_reducible refine Covers.testBit hA ?_; decide)
    | (with_reducible refine Covers.trans ?_ hA; decide)
    | (refine fun _ => ?_; intros)
    | with_reducible refine State.islCmd_only ?_ ?_
    | with_reducible refine State.live_only ?_ ?_)

theorem execIslandMapWrite_only {A : Nat} {i : Fin 16} {mask : BitVec 32} {value : BitVec 32} {s : State} {t : State} (h : execIslandMapWrite i mask value s = .next t) (hA : Covers 0x800000000000020 A) :
    Only A s t := by
  unfold execIslandMapWrite at h
  injection h with h
  subst h
  have hS : Only A s s := Only.rfl
  repeat' (first
    | with_reducible exact hS
    | with_reducible assumption
    | (with_reducible refine Covers.testBit hA ?_; decide)
    | (with_reducible refine Covers.trans ?_ hA; decide)
    | (refine fun _ => ?_; intros)
    | with_reducible refine State.writeIslMap_only ?_ ?_
    | with_reducible refine State.live_only ?_ ?_)

theorem execEdgeConfigWrite_only {A : Nat} {whalo : Option (Fin 8)} {mask : BitVec 32} {value : BitVec 32} {s : State} {t : State} (h : execEdgeConfigWrite whalo mask value s = .next t) (hA : Covers 0x800000000000120 A) :
    Only A s t := by
  unfold execEdgeConfigWrite at h
  injection h with h
  subst h
  have hS : Only A s s := Only.rfl
  repeat' (first
    | with_reducible exact hS
    | with_reducible assumption
    | (with_reducible refine Covers.testBit hA ?_; decide)
    | (with_reducible refine Covers.trans ?_ hA; decide)
    | (refine fun _ => ?_; intros)
    | with_reducible refine State.writeEdge_only ?_ ?_
    | with_reducible refine State.writeWhaloChecked_only ?_ ?_
    | with_reducible refine State.live_only ?_ ?_
    | split
    | (refine fun _ => ?_))

theorem execEpochBump_only {A : Nat} {s : State} {t : State} (h : execEpochBump s = .next t) (hA : Covers 0x100000000000 A) :
    Only A s t := by
  unfold execEpochBump at h
  injection h with h
  subst h
  have hS : Only A s s := Only.rfl
  repeat' (first
    | with_reducible exact hS
    | with_reducible assumption
    | (with_reducible refine Covers.testBit hA ?_; decide)
    | (with_reducible refine Covers.trans ?_ hA; decide)
    | (refine fun _ => ?_; intros)
    | with_reducible refine State.bumpEpoch_only ?_ ?_
    | with_reducible refine State.live_only ?_ ?_)

theorem execReloadStart_only {A : Nat} {i : Fin 16} {s : State} {t : State} (h : execReloadStart i s = .next t) (hA : Covers 0x800100000000020 A) :
    Only A s t := by
  unfold execReloadStart at h
  injection h with h
  subst h
  have hS : Only A s s := Only.rfl
  repeat' (first
    | with_reducible exact hS
    | with_reducible assumption
    | (with_reducible refine Covers.testBit hA ?_; decide)
    | (with_reducible refine Covers.trans ?_ hA; decide)
    | (refine fun _ => ?_; intros)
    | with_reducible refine State.reloadStart_only ?_ ?_
    | with_reducible refine State.live_only ?_ ?_)

theorem execReloadComplete_only {A : Nat} {i : Fin 16} {ecc : EccMap} {s : State} {t : State} (h : execReloadComplete i ecc s = .next t) (hA : Covers 0x180018D000000220 A) :
    Only A s t := by
  unfold execReloadComplete at h
  injection h with h
  subst h
  have hS : Only A s s := Only.rfl
  repeat' (first
    | with_reducible exact hS
    | with_reducible assumption
    | (with_reducible refine Covers.testBit hA ?_; decide)
    | (with_reducible refine Covers.trans ?_ hA; decide)
    | (refine fun _ => ?_; intros)
    | with_reducible refine State.reloadComplete_only ?_ ?_
    | with_reducible refine State.live_only ?_ ?_)

theorem execReloadFetchError_only {A : Nat} {i : Fin 16} {s : State} {t : State} (h : execReloadFetchError i s = .next t) (hA : Covers 0x800100000000020 A) :
    Only A s t := by
  unfold execReloadFetchError at h
  injection h with h
  subst h
  have hS : Only A s s := Only.rfl
  repeat' (first
    | with_reducible exact hS
    | with_reducible assumption
    | (with_reducible refine Covers.testBit hA ?_; decide)
    | (with_reducible refine Covers.trans ?_ hA; decide)
    | (refine fun _ => ?_; intros)
    | with_reducible refine State.reloadFetchError_only ?_ ?_
    | with_reducible refine State.live_only ?_ ?_)

theorem execReloadAbort_only {A : Nat} {i : Fin 16} {s : State} {t : State} (h : execReloadAbort i s = .next t) (hA : Covers 0x800100000000020 A) :
    Only A s t := by
  unfold execReloadAbort at h
  injection h with h
  subst h
  have hS : Only A s s := Only.rfl
  repeat' (first
    | with_reducible exact hS
    | with_reducible assumption
    | (with_reducible refine Covers.testBit hA ?_; decide)
    | (with_reducible refine Covers.trans ?_ hA; decide)
    | (refine fun _ => ?_; intros)
    | with_reducible refine State.reloadAbort_only ?_ ?_
    | with_reducible refine State.live_only ?_ ?_)

theorem execAutoReload_only {A : Nat} {i : Fin 16} {s : State} {t : State} (h : execAutoReload i s = .next t) (hA : Covers 0x100000000020 A) :
    Only A s t := by
  unfold execAutoReload at h
  injection h with h
  subst h
  have hS : Only A s s := Only.rfl
  repeat' (first
    | with_reducible exact hS
    | with_reducible assumption
    | (with_reducible refine Covers.testBit hA ?_; decide)
    | (with_reducible refine Covers.trans ?_ hA; decide)
    | (refine fun _ => ?_; intros)
    | with_reducible refine State.autoReload_only ?_ ?_
    | with_reducible refine State.live_only ?_ ?_)

theorem execMicrowordIssue_only {A : Nat} {halo : List (Fin 16 × Nat)} {queue : List (Fin 16 × Nat)} {s : State} {t : State} (h : execMicrowordIssue halo queue s = .next t) (hA : Covers 0x1800385000200060 A) :
    Only A s t := by
  unfold execMicrowordIssue at h
  injection h with h
  subst h
  have hS : Only A s s := Only.rfl
  repeat' (first
    | with_reducible exact hS
    | with_reducible assumption
    | (with_reducible refine Covers.testBit hA ?_; decide)
    | (with_reducible refine Covers.trans ?_ hA; decide)
    | (refine fun _ => ?_; intros)
    | with_reducible refine State.microwordIssue_only ?_ ?_
    | with_reducible refine State.addStalls_only ?_ ?_
    | with_reducible refine State.live_only ?_ ?_)

theorem execWaitRelease_only {A : Nat} {cycles : Fin 4096} {halo : List (Fin 16 × Nat)} {queue : List (Fin 16 × Nat)} {s : State} {t : State} (h : execWaitRelease cycles halo queue s = .next t) (hA : Covers 0x1800385000200060 A) :
    Only A s t := by
  unfold execWaitRelease at h
  injection h with h
  subst h
  have hS : Only A s s := Only.rfl
  repeat' (first
    | with_reducible exact hS
    | with_reducible assumption
    | (with_reducible refine Covers.testBit hA ?_; decide)
    | (with_reducible refine Covers.trans ?_ hA; decide)
    | (refine fun _ => ?_; intros)
    | with_reducible refine State.waitRelease_only ?_ ?_
    | with_reducible refine State.addStalls_only ?_ ?_
    | with_reducible refine State.live_only ?_ ?_)

theorem execWaitTimeout_only {A : Nat} {halo : List (Fin 16 × Nat)} {queue : List (Fin 16 × Nat)} {s : State} {t : State} (h : execWaitTimeout halo queue s = .next t) (hA : Covers 0x1800385000200060 A) :
    Only A s t := by
  unfold execWaitTimeout at h
  injection h with h
  subst h
  have hS : Only A s s := Only.rfl
  repeat' (first
    | with_reducible exact hS
    | with_reducible assumption
    | (with_reducible refine Covers.testBit hA ?_; decide)
    | (with_reducible refine Covers.trans ?_ hA; decide)
    | (refine fun _ => ?_; intros)
    | with_reducible refine State.waitTimeout_only ?_ ?_
    | with_reducible refine State.addStalls_only ?_ ?_
    | with_reducible refine State.live_only ?_ ?_)

theorem execSeqNext_only {A : Nat} {s : State} {t : State} (h : execSeqNext s = .next t) (hA : Covers 0x200000000000 A) :
    Only A s t := by
  unfold execSeqNext at h
  injection h with h
  subst h
  have hS : Only A s s := Only.rfl
  repeat' (first
    | with_reducible exact hS
    | with_reducible assumption
    | (with_reducible refine Covers.testBit hA ?_; decide)
    | (with_reducible refine Covers.trans ?_ hA; decide)
    | (refine fun _ => ?_; intros)
    | with_reducible refine State.updCtx_only ?_ ?_
    | with_reducible refine State.issuing_only ?_ ?_)

theorem execJump_only {A : Nat} {target : Fin 16384} {s : State} {t : State} (h : execJump target s = .next t) (hA : Covers 0x200000000000 A) :
    Only A s t := by
  unfold execJump at h
  injection h with h
  subst h
  have hS : Only A s s := Only.rfl
  repeat' (first
    | with_reducible exact hS
    | with_reducible assumption
    | (with_reducible refine Covers.testBit hA ?_; decide)
    | (with_reducible refine Covers.trans ?_ hA; decide)
    | (refine fun _ => ?_; intros)
    | with_reducible refine State.updCtx_only ?_ ?_
    | with_reducible refine State.issuing_only ?_ ?_)

theorem execJif_only {A : Nat} {cond : Fin 64} {target : Fin 16384} {s : State} {t : State} (h : execJif cond target s = .next t) (hA : Covers 0x200000000040 A) :
    Only A s t := by
  unfold execJif at h
  injection h with h
  subst h
  have hS : Only A s s := Only.rfl
  repeat' (first
    | with_reducible exact hS
    | with_reducible assumption
    | (with_reducible refine Covers.testBit hA ?_; decide)
    | (with_reducible refine Covers.trans ?_ hA; decide)
    | (refine fun _ => ?_; intros)
    | with_reducible refine State.flowIf_only ?_ ?_
    | with_reducible refine State.issuing_only ?_ ?_)

theorem execJifn_only {A : Nat} {cond : Fin 64} {target : Fin 16384} {s : State} {t : State} (h : execJifn cond target s = .next t) (hA : Covers 0x200000000040 A) :
    Only A s t := by
  unfold execJifn at h
  injection h with h
  subst h
  have hS : Only A s s := Only.rfl
  repeat' (first
    | with_reducible exact hS
    | with_reducible assumption
    | (with_reducible refine Covers.testBit hA ?_; decide)
    | (with_reducible refine Covers.trans ?_ hA; decide)
    | (refine fun _ => ?_; intros)
    | with_reducible refine State.flowIf_only ?_ ?_
    | with_reducible refine State.issuing_only ?_ ?_)

theorem execSeqCall_only {A : Nat} {target : Fin 16384} {s : State} {t : State} (h : execSeqCall target s = .next t) (hA : Covers 0x200000000000 A) :
    Only A s t := by
  unfold execSeqCall at h
  injection h with h
  subst h
  have hS : Only A s s := Only.rfl
  repeat' (first
    | with_reducible exact hS
    | with_reducible assumption
    | (with_reducible refine Covers.testBit hA ?_; decide)
    | (with_reducible refine Covers.trans ?_ hA; decide)
    | (refine fun _ => ?_; intros)
    | with_reducible refine State.updCtx_only ?_ ?_
    | with_reducible refine State.issuing_only ?_ ?_)

theorem execPcall_only {A : Nat} {a : Fin 4096} {b : Fin 4096} {w : Fin 4096} {bsrc : Fin 8} {src : Fin 16} {imm : BitVec 16} {target : Fin 16384} {s : State} {t : State} (h : execPcall a b w bsrc src imm target s = .next t) (hA : Covers 0x1800385000000060 A) :
    Only A s t := by
  unfold execPcall at h
  injection h with h
  subst h
  have hS : Only A s s := Only.rfl
  repeat' (first
    | with_reducible exact hS
    | with_reducible assumption
    | (with_reducible refine Covers.testBit hA ?_; decide)
    | (with_reducible refine Covers.trans ?_ hA; decide)
    | (refine fun _ => ?_; intros)
    | with_reducible refine State.pcall_only ?_ ?_
    | with_reducible refine State.issuing_only ?_ ?_)

theorem execSeqRet_only {A : Nat} {s : State} {t : State} (h : execSeqRet s = .next t) (hA : Covers 0x200000000000 A) :
    Only A s t := by
  unfold execSeqRet at h
  injection h with h
  subst h
  have hS : Only A s s := Only.rfl
  repeat' (first
    | with_reducible exact hS
    | with_reducible assumption
    | (with_reducible refine Covers.testBit hA ?_; decide)
    | (with_reducible refine Covers.trans ?_ hA; decide)
    | (refine fun _ => ?_; intros)
    | with_reducible refine State.updCtx_only ?_ ?_
    | with_reducible refine State.issuing_only ?_ ?_)

theorem execLoop_only {A : Nat} {lc : Fin 8} {target : Fin 16384} {s : State} {t : State} (h : execLoop lc target s = .next t) (hA : Covers 0x1000384000000060 A) :
    Only A s t := by
  unfold execLoop at h
  injection h with h
  subst h
  have hS : Only A s s := Only.rfl
  repeat' (first
    | with_reducible exact hS
    | with_reducible assumption
    | (with_reducible refine Covers.testBit hA ?_; decide)
    | (with_reducible refine Covers.trans ?_ hA; decide)
    | (refine fun _ => ?_; intros)
    | with_reducible refine State.flowLoop_only ?_ ?_
    | with_reducible refine State.issuing_only ?_ ?_)

theorem execStageEnd_only {A : Nat} {s : State} {t : State} (h : execStageEnd s = .next t) (hA : Covers 0x1800300000000060 A) :
    Only A s t := by
  unfold execStageEnd at h
  injection h with h
  subst h
  have hS : Only A s s := Only.rfl
  repeat' (first
    | with_reducible exact hS
    | with_reducible assumption
    | (with_reducible refine Covers.testBit hA ?_; decide)
    | (with_reducible refine Covers.trans ?_ hA; decide)
    | (refine fun _ => ?_; intros)
    | with_reducible refine State.stageEnd_only ?_ ?_
    | with_reducible refine State.issuing_only ?_ ?_)

theorem execYield_only {A : Nat} {s : State} {t : State} (h : execYield s = .next t) (hA : Covers 0x1000384000000060 A) :
    Only A s t := by
  unfold execYield at h
  injection h with h
  subst h
  have hS : Only A s s := Only.rfl
  repeat' (first
    | with_reducible exact hS
    | with_reducible assumption
    | (with_reducible refine Covers.testBit hA ?_; decide)
    | (with_reducible refine Covers.trans ?_ hA; decide)
    | (refine fun _ => ?_; intros)
    | with_reducible refine State.yieldPoint_only ?_ ?_
    | with_reducible refine State.issuing_only ?_ ?_)

theorem execBgEnd_only {A : Nat} {s : State} {t : State} (h : execBgEnd s = .next t) (hA : Covers 0x1000384000000060 A) :
    Only A s t := by
  unfold execBgEnd at h
  injection h with h
  subst h
  have hS : Only A s s := Only.rfl
  repeat' (first
    | with_reducible exact hS
    | with_reducible assumption
    | (with_reducible refine Covers.testBit hA ?_; decide)
    | (with_reducible refine Covers.trans ?_ hA; decide)
    | (refine fun _ => ?_; intros)
    | with_reducible refine State.bgEnd_only ?_ ?_
    | with_reducible refine State.issuing_only ?_ ?_)

theorem execScNop_only {A : Nat} {s : State} {t : State} (h : execScNop s = .next t) (hA : Covers 0x200000000000 A) :
    Only A s t := by
  unfold execScNop at h
  injection h with h
  subst h
  have hS : Only A s s := Only.rfl
  repeat' (first
    | with_reducible exact hS
    | with_reducible assumption
    | (with_reducible refine Covers.testBit hA ?_; decide)
    | (with_reducible refine Covers.trans ?_ hA; decide)
    | (refine fun _ => ?_; intros)
    | with_reducible refine State.scalar_only ?_ ?_
    | with_reducible refine State.issuing_only ?_ ?_)

theorem execLdi_only {A : Nat} {d : Fin 16} {imm : BitVec 16} {s : State} {t : State} (h : execLdi d imm s = .next t) (hA : Covers 0x200000000000 A) :
    Only A s t := by
  unfold execLdi at h
  injection h with h
  subst h
  have hS : Only A s s := Only.rfl
  repeat' (first
    | with_reducible exact hS
    | with_reducible assumption
    | (with_reducible refine Covers.testBit hA ?_; decide)
    | (with_reducible refine Covers.trans ?_ hA; decide)
    | (refine fun _ => ?_; intros)
    | with_reducible refine State.scalar_only ?_ ?_
    | with_reducible refine State.issuing_only ?_ ?_)

theorem execLdih_only {A : Nat} {d : Fin 16} {imm : BitVec 16} {s : State} {t : State} (h : execLdih d imm s = .next t) (hA : Covers 0x200000000000 A) :
    Only A s t := by
  unfold execLdih at h
  injection h with h
  subst h
  have hS : Only A s s := Only.rfl
  repeat' (first
    | with_reducible exact hS
    | with_reducible assumption
    | (with_reducible refine Covers.testBit hA ?_; decide)
    | (with_reducible refine Covers.trans ?_ hA; decide)
    | (refine fun _ => ?_; intros)
    | with_reducible refine State.scalar_only ?_ ?_
    | with_reducible refine State.issuing_only ?_ ?_)

theorem execScAddi_only {A : Nat} {d : Fin 16} {src : Fin 16} {imm : BitVec 16} {s : State} {t : State} (h : execScAddi d src imm s = .next t) (hA : Covers 0x200000000000 A) :
    Only A s t := by
  unfold execScAddi at h
  injection h with h
  subst h
  have hS : Only A s s := Only.rfl
  repeat' (first
    | with_reducible exact hS
    | with_reducible assumption
    | (with_reducible refine Covers.testBit hA ?_; decide)
    | (with_reducible refine Covers.trans ?_ hA; decide)
    | (refine fun _ => ?_; intros)
    | with_reducible refine State.scalar_only ?_ ?_
    | with_reducible refine State.issuing_only ?_ ?_)

theorem execMov_only {A : Nat} {d : Fin 16} {src : Fin 16} {s : State} {t : State} (h : execMov d src s = .next t) (hA : Covers 0x200000000000 A) :
    Only A s t := by
  unfold execMov at h
  injection h with h
  subst h
  have hS : Only A s s := Only.rfl
  repeat' (first
    | with_reducible exact hS
    | with_reducible assumption
    | (with_reducible refine Covers.testBit hA ?_; decide)
    | (with_reducible refine Covers.trans ?_ hA; decide)
    | (refine fun _ => ?_; intros)
    | with_reducible refine State.scalar_only ?_ ?_
    | with_reducible refine State.issuing_only ?_ ?_)

theorem execSubr_only {A : Nat} {d : Fin 16} {src : Fin 16} {imm : BitVec 16} {s : State} {t : State} (h : execSubr d src imm s = .next t) (hA : Covers 0x200000000000 A) :
    Only A s t := by
  unfold execSubr at h
  injection h with h
  subst h
  have hS : Only A s s := Only.rfl
  repeat' (first
    | with_reducible exact hS
    | with_reducible assumption
    | (with_reducible refine Covers.testBit hA ?_; decide)
    | (with_reducible refine Covers.trans ?_ hA; decide)
    | (refine fun _ => ?_; intros)
    | with_reducible refine State.scalar_only ?_ ?_
    | with_reducible refine State.issuing_only ?_ ?_)

theorem execScAndi_only {A : Nat} {d : Fin 16} {src : Fin 16} {imm : BitVec 16} {s : State} {t : State} (h : execScAndi d src imm s = .next t) (hA : Covers 0x200000000000 A) :
    Only A s t := by
  unfold execScAndi at h
  injection h with h
  subst h
  have hS : Only A s s := Only.rfl
  repeat' (first
    | with_reducible exact hS
    | with_reducible assumption
    | (with_reducible refine Covers.testBit hA ?_; decide)
    | (with_reducible refine Covers.trans ?_ hA; decide)
    | (refine fun _ => ?_; intros)
    | with_reducible refine State.scalar_only ?_ ?_
    | with_reducible refine State.issuing_only ?_ ?_)

theorem execBcnt_only {A : Nat} {d : Fin 16} {src : Fin 16} {s : State} {t : State} (h : execBcnt d src s = .next t) (hA : Covers 0x200000000000 A) :
    Only A s t := by
  unfold execBcnt at h
  injection h with h
  subst h
  have hS : Only A s s := Only.rfl
  repeat' (first
    | with_reducible exact hS
    | with_reducible assumption
    | (with_reducible refine Covers.testBit hA ?_; decide)
    | (with_reducible refine Covers.trans ?_ hA; decide)
    | (refine fun _ => ?_; intros)
    | with_reducible refine State.scalar_only ?_ ?_
    | with_reducible refine State.issuing_only ?_ ?_)

theorem execBfirst_only {A : Nat} {d : Fin 16} {src : Fin 16} {s : State} {t : State} (h : execBfirst d src s = .next t) (hA : Covers 0x200000000000 A) :
    Only A s t := by
  unfold execBfirst at h
  injection h with h
  subst h
  have hS : Only A s s := Only.rfl
  repeat' (first
    | with_reducible exact hS
    | with_reducible assumption
    | (with_reducible refine Covers.testBit hA ?_; decide)
    | (with_reducible refine Covers.trans ?_ hA; decide)
    | (refine fun _ => ?_; intros)
    | with_reducible refine State.scalar_only ?_ ?_
    | with_reducible refine State.issuing_only ?_ ?_)

theorem execLci_only {A : Nat} {d : Fin 16} {imm : BitVec 16} {s : State} {t : State} (h : execLci d imm s = .next t) (hA : Covers 0x200000000000 A) :
    Only A s t := by
  unfold execLci at h
  injection h with h
  subst h
  have hS : Only A s s := Only.rfl
  repeat' (first
    | with_reducible exact hS
    | with_reducible assumption
    | (with_reducible refine Covers.testBit hA ?_; decide)
    | (with_reducible refine Covers.trans ?_ hA; decide)
    | (refine fun _ => ?_; intros)
    | with_reducible refine State.scalar_only ?_ ?_
    | with_reducible refine State.issuing_only ?_ ?_)

theorem execLcw_only {A : Nat} {d : Fin 16} {src : Fin 16} {imm : BitVec 16} {s : State} {t : State} (h : execLcw d src imm s = .next t) (hA : Covers 0x200000000000 A) :
    Only A s t := by
  unfold execLcw at h
  injection h with h
  subst h
  have hS : Only A s s := Only.rfl
  repeat' (first
    | with_reducible exact hS
    | with_reducible assumption
    | (with_reducible refine Covers.testBit hA ?_; decide)
    | (with_reducible refine Covers.trans ?_ hA; decide)
    | (refine fun _ => ?_; intros)
    | with_reducible refine State.scalar_only ?_ ?_
    | with_reducible refine State.issuing_only ?_ ?_)

theorem execCmp_only {A : Nat} {src : Fin 16} {imm : BitVec 16} {s : State} {t : State} (h : execCmp src imm s = .next t) (hA : Covers 0x200000000000 A) :
    Only A s t := by
  unfold execCmp at h
  injection h with h
  subst h
  have hS : Only A s s := Only.rfl
  repeat' (first
    | with_reducible exact hS
    | with_reducible assumption
    | (with_reducible refine Covers.testBit hA ?_; decide)
    | (with_reducible refine Covers.trans ?_ hA; decide)
    | (refine fun _ => ?_; intros)
    | with_reducible refine State.scalar_only ?_ ?_
    | with_reducible refine State.issuing_only ?_ ?_)

theorem execSeqTimerExpiry_only {A : Nat} {t : Fin 8} {s : State} {final : State} (h : execSeqTimerExpiry t s = .next final) (hA : Covers 0x200000000040 A) :
    Only A s final := by
  unfold execSeqTimerExpiry at h
  injection h with h
  subst h
  have hS : Only A s s := Only.rfl
  repeat' (first
    | with_reducible exact hS
    | with_reducible assumption
    | (with_reducible refine Covers.testBit hA ?_; decide)
    | (with_reducible refine Covers.trans ?_ hA; decide)
    | (refine fun _ => ?_; intros)
    | with_reducible refine State.timerExpiry_only ?_ ?_
    | with_reducible refine State.live_only ?_ ?_)

theorem execSeqTimerStart_only {A : Nat} {t : Fin 8} {s : State} {final : State} (h : execSeqTimerStart t s = .next final) (hA : Covers 0x200000000040 A) :
    Only A s final := by
  unfold execSeqTimerStart at h
  injection h with h
  subst h
  have hS : Only A s s := Only.rfl
  repeat' (first
    | with_reducible exact hS
    | with_reducible assumption
    | (with_reducible refine Covers.testBit hA ?_; decide)
    | (with_reducible refine Covers.trans ?_ hA; decide)
    | (refine fun _ => ?_; intros)
    | with_reducible refine State.timerCmd_only ?_ ?_
    | with_reducible refine State.live_only ?_ ?_)

theorem execSeqTimerStop_only {A : Nat} {t : Fin 8} {s : State} {final : State} (h : execSeqTimerStop t s = .next final) (hA : Covers 0x200000000040 A) :
    Only A s final := by
  unfold execSeqTimerStop at h
  injection h with h
  subst h
  have hS : Only A s s := Only.rfl
  repeat' (first
    | with_reducible exact hS
    | with_reducible assumption
    | (with_reducible refine Covers.testBit hA ?_; decide)
    | (with_reducible refine Covers.trans ?_ hA; decide)
    | (refine fun _ => ?_; intros)
    | with_reducible refine State.timerCmd_only ?_ ?_
    | with_reducible refine State.live_only ?_ ?_)

theorem execSeqTimerLoad_only {A : Nat} {t : Fin 8} {s : State} {final : State} (h : execSeqTimerLoad t s = .next final) (hA : Covers 0x200000000040 A) :
    Only A s final := by
  unfold execSeqTimerLoad at h
  injection h with h
  subst h
  have hS : Only A s s := Only.rfl
  repeat' (first
    | with_reducible exact hS
    | with_reducible assumption
    | (with_reducible refine Covers.testBit hA ?_; decide)
    | (with_reducible refine Covers.trans ?_ hA; decide)
    | (refine fun _ => ?_; intros)
    | with_reducible refine State.timerCmd_only ?_ ?_
    | with_reducible refine State.live_only ?_ ?_)

theorem execBgAbort_only {A : Nat} {s : State} {t : State} (h : execBgAbort s = .next t) (hA : Covers 0x800200000000040 A) :
    Only A s t := by
  unfold execBgAbort at h
  injection h with h
  subst h
  have hS : Only A s s := Only.rfl
  repeat' (first
    | with_reducible exact hS
    | with_reducible assumption
    | (with_reducible refine Covers.testBit hA ?_; decide)
    | (with_reducible refine Covers.trans ?_ hA; decide)
    | (refine fun _ => ?_; intros)
    | with_reducible refine State.bgAbort_only ?_ ?_
    | with_reducible refine State.live_only ?_ ?_)

theorem execCstoreEccError_only {A : Nat} {word : Fin 16384} {double : Bool} {s : State} {t : State} (h : execCstoreEccError word double s = .next t) (hA : Covers 0x18002100000000C2 A) :
    Only A s t := by
  unfold execCstoreEccError at h
  injection h with h
  subst h
  have hS : Only A s s := Only.rfl
  repeat' (first
    | with_reducible exact hS
    | with_reducible assumption
    | (with_reducible refine Covers.testBit hA ?_; decide)
    | (with_reducible refine Covers.trans ?_ hA; decide)
    | (refine fun _ => ?_; intros)
    | with_reducible refine State.cstoreError_only ?_ ?_
    | with_reducible refine State.live_only ?_ ?_)

theorem execProgramLoad_only {A : Nat} {s : State} {t : State} (h : execProgramLoad s = .next t) (hA : Covers 0x800200000000040 A) :
    Only A s t := by
  unfold execProgramLoad at h
  injection h with h
  subst h
  have hS : Only A s s := Only.rfl
  repeat' (first
    | with_reducible exact hS
    | with_reducible assumption
    | (with_reducible refine Covers.testBit hA ?_; decide)
    | (with_reducible refine Covers.trans ?_ hA; decide)
    | (refine fun _ => ?_; intros)
    | with_reducible refine State.programLoad_only ?_ ?_
    | with_reducible refine State.live_only ?_ ?_)

theorem execProgramLoadDone_only {A : Nat} {s : State} {t : State} (h : execProgramLoadDone s = .next t) (hA : Covers 0x800200000000040 A) :
    Only A s t := by
  unfold execProgramLoadDone at h
  injection h with h
  subst h
  have hS : Only A s s := Only.rfl
  repeat' (first
    | with_reducible exact hS
    | with_reducible assumption
    | (with_reducible refine Covers.testBit hA ?_; decide)
    | (with_reducible refine Covers.trans ?_ hA; decide)
    | (refine fun _ => ?_; intros)
    | with_reducible refine State.loadDone_only ?_ ?_
    | with_reducible refine State.live_only ?_ ?_)

theorem execLoadAbort_only {A : Nat} {s : State} {t : State} (h : execLoadAbort s = .next t) (hA : Covers 0x800200000000040 A) :
    Only A s t := by
  unfold execLoadAbort at h
  injection h with h
  subst h
  have hS : Only A s s := Only.rfl
  repeat' (first
    | with_reducible exact hS
    | with_reducible assumption
    | (with_reducible refine Covers.testBit hA ?_; decide)
    | (with_reducible refine Covers.trans ?_ hA; decide)
    | (refine fun _ => ?_; intros)
    | with_reducible refine State.loadAbort_only ?_ ?_
    | with_reducible refine State.live_only ?_ ?_)

theorem execExchangeArm_only {A : Nat} {s : State} {t : State} (h : execExchangeArm s = .next t) (hA : Covers 0x800210000000042 A) :
    Only A s t := by
  unfold execExchangeArm at h
  injection h with h
  subst h
  have hS : Only A s s := Only.rfl
  repeat' (first
    | with_reducible exact hS
    | with_reducible assumption
    | (with_reducible refine Covers.testBit hA ?_; decide)
    | (with_reducible refine Covers.trans ?_ hA; decide)
    | (refine fun _ => ?_; intros)
    | with_reducible refine State.exchangeArm_only ?_ ?_
    | with_reducible refine State.live_only ?_ ?_)

theorem execExchangeCancel_only {A : Nat} {s : State} {t : State} (h : execExchangeCancel s = .next t) (hA : Covers 0x800010000000042 A) :
    Only A s t := by
  unfold execExchangeCancel at h
  injection h with h
  subst h
  have hS : Only A s s := Only.rfl
  repeat' (first
    | with_reducible exact hS
    | with_reducible assumption
    | (with_reducible refine Covers.testBit hA ?_; decide)
    | (with_reducible refine Covers.trans ?_ hA; decide)
    | (refine fun _ => ?_; intros)
    | with_reducible refine State.exchangeCancel_only ?_ ?_
    | with_reducible refine State.live_only ?_ ?_)

theorem execPenumbraExchange_only {A : Nat} {s : State} {t : State} (h : execPenumbraExchange s = .next t) (hA : Covers 0x18103950000100E0 A) :
    Only A s t := by
  unfold execPenumbraExchange at h
  injection h with h
  subst h
  have hS : Only A s s := Only.rfl
  repeat' (first
    | with_reducible exact hS
    | with_reducible assumption
    | (with_reducible refine Covers.testBit hA ?_; decide)
    | (with_reducible refine Covers.trans ?_ hA; decide)
    | (refine fun _ => ?_; intros)
    | with_reducible refine State.openIfReady_only ?_ ?_
    | with_reducible refine State.penumbra_only ?_ ?_
    | with_reducible refine State.live_only ?_ ?_)

theorem execPromiseWrite_only {A : Nat} {mask : BitVec 32} {value : BitVec 32} {s : State} {t : State} (h : execPromiseWrite mask value s = .next t) (hA : Covers 0x800200000000040 A) :
    Only A s t := by
  unfold execPromiseWrite at h
  injection h with h
  subst h
  have hS : Only A s s := Only.rfl
  repeat' (first
    | with_reducible exact hS
    | with_reducible assumption
    | (with_reducible refine Covers.testBit hA ?_; decide)
    | (with_reducible refine Covers.trans ?_ hA; decide)
    | (refine fun _ => ?_; intros)
    | with_reducible refine State.writePromise_only ?_ ?_
    | with_reducible refine State.live_only ?_ ?_)

theorem execCommitSetArm_only {A : Nat} {n : Fin 4} {s : State} {t : State} (h : execCommitSetArm n s = .next t) (hA : Covers 0x800210000000042 A) :
    Only A s t := by
  unfold execCommitSetArm at h
  injection h with h
  subst h
  have hS : Only A s s := Only.rfl
  repeat' (first
    | with_reducible exact hS
    | with_reducible assumption
    | (with_reducible refine Covers.testBit hA ?_; decide)
    | (with_reducible refine Covers.trans ?_ hA; decide)
    | (refine fun _ => ?_; intros)
    | with_reducible refine State.csArm_only ?_ ?_
    | with_reducible refine State.live_only ?_ ?_)

theorem execCommitSetAbort_only {A : Nat} {n : Fin 4} {s : State} {t : State} (h : execCommitSetAbort n s = .next t) (hA : Covers 0x840010000000042 A) :
    Only A s t := by
  unfold execCommitSetAbort at h
  injection h with h
  subst h
  have hS : Only A s s := Only.rfl
  repeat' (first
    | with_reducible exact hS
    | with_reducible assumption
    | (with_reducible refine Covers.testBit hA ?_; decide)
    | (with_reducible refine Covers.trans ?_ hA; decide)
    | (refine fun _ => ?_; intros)
    | with_reducible refine State.csAbort_only ?_ ?_
    | with_reducible refine State.live_only ?_ ?_)

theorem execCommitSetClear_only {A : Nat} {n : Fin 4} {s : State} {t : State} (h : execCommitSetClear n s = .next t) (hA : Covers 0x40 A) :
    Only A s t := by
  unfold execCommitSetClear at h
  injection h with h
  subst h
  have hS : Only A s s := Only.rfl
  repeat' (first
    | with_reducible exact hS
    | with_reducible assumption
    | (with_reducible refine Covers.testBit hA ?_; decide)
    | (with_reducible refine Covers.trans ?_ hA; decide)
    | (refine fun _ => ?_; intros)
    | with_reducible refine State.csClear_only ?_ ?_
    | with_reducible refine State.live_only ?_ ?_)

theorem execCommitSetFire_only {A : Nat} {n : Fin 4} {s : State} {t : State} (h : execCommitSetFire n s = .next t) (hA : Covers 0x18503110000100E0 A) :
    Only A s t := by
  unfold execCommitSetFire at h
  injection h with h
  subst h
  have hS : Only A s s := Only.rfl
  repeat' (first
    | with_reducible exact hS
    | with_reducible assumption
    | (with_reducible refine Covers.testBit hA ?_; decide)
    | (with_reducible refine Covers.trans ?_ hA; decide)
    | (refine fun _ => ?_; intros)
    | with_reducible refine State.openIfReady_only ?_ ?_
    | with_reducible refine State.csFire_only ?_ ?_
    | with_reducible refine State.live_only ?_ ?_)

theorem execAdmissionRerun_only {A : Nat} {s : State} {t : State} (h : execAdmissionRerun s = .next t) (hA : Covers 0x200000000040 A) :
    Only A s t := by
  unfold execAdmissionRerun at h
  injection h with h
  subst h
  have hS : Only A s s := Only.rfl
  repeat' (first
    | with_reducible exact hS
    | with_reducible assumption
    | (with_reducible refine Covers.testBit hA ?_; decide)
    | (with_reducible refine Covers.trans ?_ hA; decide)
    | (refine fun _ => ?_; intros)
    | with_reducible refine State.startAdmission_only ?_ ?_
    | with_reducible refine State.live_only ?_ ?_)

theorem execAdmissionComplete_only {A : Nat} {s : State} {t : State} (h : execAdmissionComplete s = .next t) (hA : Covers 0x18122130000100C2 A) :
    Only A s t := by
  unfold execAdmissionComplete at h
  injection h with h
  subst h
  have hS : Only A s s := Only.rfl
  repeat' (first
    | with_reducible exact hS
    | with_reducible assumption
    | (with_reducible refine Covers.testBit hA ?_; decide)
    | (with_reducible refine Covers.trans ?_ hA; decide)
    | (refine fun _ => ?_; intros)
    | with_reducible refine State.admissionComplete_only ?_ ?_
    | with_reducible refine State.tarAdmission_only ?_ ?_
    | with_reducible refine State.live_only ?_ ?_)

theorem execMarginPlanApply_only {A : Nat} {s : State} {t : State} (h : execMarginPlanApply s = .next t) (hA : Covers 0x18103130000100E0 A) :
    Only A s t := by
  unfold execMarginPlanApply at h
  injection h with h
  subst h
  have hS : Only A s s := Only.rfl
  repeat' (first
    | with_reducible exact hS
    | with_reducible assumption
    | (with_reducible refine Covers.testBit hA ?_; decide)
    | (with_reducible refine Covers.trans ?_ hA; decide)
    | (refine fun _ => ?_; intros)
    | with_reducible refine Only.ite ?_ ?_
    | with_reducible refine State.tookDue_only ?_ ?_
    | with_reducible refine State.openIfReady_only ?_ ?_
    | with_reducible refine State.tarApply_only ?_ ?_
    | with_reducible refine State.live_only ?_ ?_)

theorem execBeaconSettle_only {A : Nat} {removed : BitVec 16} {s : State} {t : State} (h : execBeaconSettle removed s = .next t) (hA : Covers 0x18002000000000C0 A) :
    Only A s t := by
  unfold execBeaconSettle at h
  injection h with h
  subst h
  have hS : Only A s s := Only.rfl
  repeat' (first
    | with_reducible exact hS
    | with_reducible assumption
    | (with_reducible refine Covers.testBit hA ?_; decide)
    | (with_reducible refine Covers.trans ?_ hA; decide)
    | (refine fun _ => ?_; intros)
    | with_reducible refine State.beaconSettle_only ?_ ?_
    | with_reducible refine State.live_only ?_ ?_)

theorem execLateDecision_only {A : Nat} {removed : BitVec 16} {s : State} {t : State} (h : execLateDecision removed s = .next t) (hA : Covers 0x18002000000000C0 A) :
    Only A s t := by
  unfold execLateDecision at h
  injection h with h
  subst h
  have hS : Only A s s := Only.rfl
  repeat' (first
    | with_reducible exact hS
    | with_reducible assumption
    | (with_reducible refine Covers.testBit hA ?_; decide)
    | (with_reducible refine Covers.trans ?_ hA; decide)
    | (refine fun _ => ?_; intros)
    | with_reducible refine State.lateDecision_only ?_ ?_
    | with_reducible refine State.live_only ?_ ?_)

theorem execLaunchInstant_only {A : Nat} {s : State} {t : State} (h : execLaunchInstant s = .next t) (hA : Covers 0x18112104000100C0 A) :
    Only A s t := by
  unfold execLaunchInstant at h
  injection h with h
  subst h
  have hS : Only A s s := Only.rfl
  repeat' (first
    | with_reducible exact hS
    | with_reducible assumption
    | (with_reducible refine Covers.testBit hA ?_; decide)
    | (with_reducible refine Covers.trans ?_ hA; decide)
    | (refine fun _ => ?_; intros)
    | with_reducible refine State.launch_only ?_ ?_
    | with_reducible refine State.takeRecord_only ?_ ?_
    | with_reducible refine State.live_only ?_ ?_)

theorem execGlintPulseEnd_only {A : Nat} {n : Fin 16} {s : State} {t : State} (h : execGlintPulseEnd n s = .next t) (hA : Covers 0x200000000000 A) :
    Only A s t := by
  unfold execGlintPulseEnd at h
  injection h with h
  subst h
  have hS : Only A s s := Only.rfl
  repeat' (first
    | with_reducible exact hS
    | with_reducible assumption
    | (with_reducible refine Covers.testBit hA ?_; decide)
    | (with_reducible refine Covers.trans ?_ hA; decide)
    | (refine fun _ => ?_; intros)
    | with_reducible refine State.pulseEnd_only ?_ ?_
    | with_reducible refine State.live_only ?_ ?_)

theorem execBusyEvaluate_only {A : Nat} {s : State} {t : State} (h : execBusyEvaluate s = .next t) (hA : Covers 0x1000200000000080 A) :
    Only A s t := by
  unfold execBusyEvaluate at h
  injection h with h
  subst h
  have hS : Only A s s := Only.rfl
  repeat' (first
    | with_reducible exact hS
    | with_reducible assumption
    | (with_reducible refine Covers.testBit hA ?_; decide)
    | (with_reducible refine Covers.trans ?_ hA; decide)
    | (refine fun _ => ?_; intros)
    | with_reducible refine State.busyEvaluate_only ?_ ?_
    | with_reducible refine State.live_only ?_ ?_)

theorem execBusyMinExpiry_only {A : Nat} {s : State} {t : State} (h : execBusyMinExpiry s = .next t) (hA : Covers 0x200000000080 A) :
    Only A s t := by
  unfold execBusyMinExpiry at h
  injection h with h
  subst h
  have hS : Only A s s := Only.rfl
  repeat' (first
    | with_reducible exact hS
    | with_reducible assumption
    | (with_reducible refine Covers.testBit hA ?_; decide)
    | (with_reducible refine Covers.trans ?_ hA; decide)
    | (refine fun _ => ?_; intros)
    | with_reducible refine State.busyExpiry_only ?_ ?_
    | with_reducible refine State.live_only ?_ ?_)

end Sys2Proof.Machine
end

