-- ==== Sys2Proof/Laws/ExecRowsEdge.lean ====
section
/-! SUPPORT. What each command of Machine/RowsEdge.lean may change. -/

set_option linter.unusedTactic false
set_option linter.unreachableTactic false
set_option linter.unusedVariables false

namespace Sys2Proof.Machine

theorem execLaneCtrlWrite_only {A : Nat} {n : Fin 224} {mask : BitVec 32} {value : BitVec 32} {s : State} {t : State} (h : execLaneCtrlWrite n mask value s = .next t) (hA : Covers 0xC0002000000000C A) :
    Only A s t := by
  unfold execLaneCtrlWrite at h
  injection h with h
  subst h
  have hS : Only A s s := Only.rfl
  repeat' (first
    | with_reducible exact hS
    | with_reducible assumption
    | (with_reducible refine Covers.testBit hA ?_; decide)
    | (with_reducible refine Covers.trans ?_ hA; decide)
    | (refine fun _ => ?_; intros)
    | with_reducible refine State.writeLaneCtrl_only ?_ ?_
    | with_reducible refine State.live_only ?_ ?_)

theorem execLanePllLock_only {A : Nat} {n : Fin 224} {s : State} {t : State} (h : execLanePllLock n s = .next t) (hA : Covers 0x2000000000C A) :
    Only A s t := by
  unfold execLanePllLock at h
  injection h with h
  subst h
  have hS : Only A s s := Only.rfl
  repeat' (first
    | with_reducible exact hS
    | with_reducible assumption
    | (with_reducible refine Covers.testBit hA ?_; decide)
    | (with_reducible refine Covers.trans ?_ hA; decide)
    | (refine fun _ => ?_; intros)
    | with_reducible refine State.lanePllLock_only ?_ ?_
    | with_reducible refine State.live_only ?_ ?_)

theorem execSignalDetect_only {A : Nat} {n : Fin 224} {s : State} {t : State} (h : execSignalDetect n s = .next t) (hA : Covers 0x2000000000C A) :
    Only A s t := by
  unfold execSignalDetect at h
  injection h with h
  subst h
  have hS : Only A s s := Only.rfl
  repeat' (first
    | with_reducible exact hS
    | with_reducible assumption
    | (with_reducible refine Covers.testBit hA ?_; decide)
    | (with_reducible refine Covers.trans ?_ hA; decide)
    | (refine fun _ => ?_; intros)
    | with_reducible refine State.signalDetect_only ?_ ?_
    | with_reducible refine State.live_only ?_ ?_)

theorem execLaneLockDone_only {A : Nat} {n : Fin 224} {ctle : Fin 32} {dfe1 : Fin 64} {s : State} {t : State} (h : execLaneLockDone n ctle dfe1 s = .next t) (hA : Covers 0x40002000000000C A) :
    Only A s t := by
  unfold execLaneLockDone at h
  injection h with h
  subst h
  have hS : Only A s s := Only.rfl
  repeat' (first
    | with_reducible exact hS
    | with_reducible assumption
    | (with_reducible refine Covers.testBit hA ?_; decide)
    | (with_reducible refine Covers.trans ?_ hA; decide)
    | (refine fun _ => ?_; intros)
    | with_reducible refine State.laneLockDone_only ?_ ?_
    | with_reducible refine State.live_only ?_ ?_)

theorem execLockTimeout_only {A : Nat} {n : Fin 224} {s : State} {t : State} (h : execLockTimeout n s = .next t) (hA : Covers 0x80002000000000C A) :
    Only A s t := by
  unfold execLockTimeout at h
  injection h with h
  subst h
  have hS : Only A s s := Only.rfl
  repeat' (first
    | with_reducible exact hS
    | with_reducible assumption
    | (with_reducible refine Covers.testBit hA ?_; decide)
    | (with_reducible refine Covers.trans ?_ hA; decide)
    | (refine fun _ => ?_; intros)
    | with_reducible refine State.lockTimeout_only ?_ ?_
    | with_reducible refine State.live_only ?_ ?_)

theorem execSignalLost_only {A : Nat} {n : Fin 224} {s : State} {t : State} (h : execSignalLost n s = .next t) (hA : Covers 0x180002000000000C A) :
    Only A s t := by
  unfold execSignalLost at h
  injection h with h
  subst h
  have hS : Only A s s := Only.rfl
  repeat' (first
    | with_reducible exact hS
    | with_reducible assumption
    | (with_reducible refine Covers.testBit hA ?_; decide)
    | (with_reducible refine Covers.trans ?_ hA; decide)
    | (refine fun _ => ?_; intros)
    | with_reducible refine State.signalLost_only ?_ ?_
    | with_reducible refine State.live_only ?_ ?_)

theorem execCdrLost_only {A : Nat} {n : Fin 224} {s : State} {t : State} (h : execCdrLost n s = .next t) (hA : Covers 0x180002000000000C A) :
    Only A s t := by
  unfold execCdrLost at h
  injection h with h
  subst h
  have hS : Only A s s := Only.rfl
  repeat' (first
    | with_reducible exact hS
    | with_reducible assumption
    | (with_reducible refine Covers.testBit hA ?_; decide)
    | (with_reducible refine Covers.trans ?_ hA; decide)
    | (refine fun _ => ?_; intros)
    | with_reducible refine State.cdrLost_only ?_ ?_
    | with_reducible refine State.live_only ?_ ?_)

theorem execAdaptRestart_only {A : Nat} {n : Fin 224} {s : State} {t : State} (h : execAdaptRestart n s = .next t) (hA : Covers 0x400000000000004 A) :
    Only A s t := by
  unfold execAdaptRestart at h
  injection h with h
  subst h
  have hS : Only A s s := Only.rfl
  repeat' (first
    | with_reducible exact hS
    | with_reducible assumption
    | (with_reducible refine Covers.testBit hA ?_; decide)
    | (with_reducible refine Covers.trans ?_ hA; decide)
    | (refine fun _ => ?_; intros)
    | with_reducible refine State.adaptRestart_only ?_ ?_
    | with_reducible refine State.live_only ?_ ?_)

theorem execTxFfeWrite_only {A : Nat} {n : Fin 224} {mask : BitVec 32} {value : BitVec 32} {s : State} {t : State} (h : execTxFfeWrite n mask value s = .next t) (hA : Covers 0x800000000000004 A) :
    Only A s t := by
  unfold execTxFfeWrite at h
  injection h with h
  subst h
  have hS : Only A s s := Only.rfl
  repeat' (first
    | with_reducible exact hS
    | with_reducible assumption
    | (with_reducible refine Covers.testBit hA ?_; decide)
    | (with_reducible refine Covers.trans ?_ hA; decide)
    | (refine fun _ => ?_; intros)
    | with_reducible refine State.writeTxFfe_only ?_ ?_
    | with_reducible refine State.live_only ?_ ?_)

theorem execEyeScanStart_only {A : Nat} {n : Fin 224} {s : State} {t : State} (h : execEyeScanStart n s = .next t) (hA : Covers 0x800000000000004 A) :
    Only A s t := by
  unfold execEyeScanStart at h
  injection h with h
  subst h
  have hS : Only A s s := Only.rfl
  repeat' (first
    | with_reducible exact hS
    | with_reducible assumption
    | (with_reducible refine Covers.testBit hA ?_; decide)
    | (with_reducible refine Covers.trans ?_ hA; decide)
    | (refine fun _ => ?_; intros)
    | with_reducible refine State.eyeStart_only ?_ ?_
    | with_reducible refine State.live_only ?_ ?_)

theorem execEyeScanDone_only {A : Nat} {lane : EyeLane} {height : Fin 65536} {width : Fin 256} {s : State} {t : State} (h : execEyeScanDone lane height width s = .next t) (hA : Covers 0x1812000000010004 A) :
    Only A s t := by
  unfold execEyeScanDone at h
  injection h with h
  subst h
  have hS : Only A s s := Only.rfl
  repeat' (first
    | with_reducible exact hS
    | with_reducible assumption
    | (with_reducible refine Covers.testBit hA ?_; decide)
    | (with_reducible refine Covers.trans ?_ hA; decide)
    | (refine fun _ => ?_; intros)
    | with_reducible refine State.scanDone_only ?_ ?_
    | with_reducible refine State.live_only ?_ ?_)

theorem execIdentityRecord_only {A : Nat} {n : Fin 224} {s : State} {t : State} (h : execIdentityRecord n s = .next t) (hA : Covers 0x1C00040000000004 A) :
    Only A s t := by
  unfold execIdentityRecord at h
  injection h with h
  subst h
  have hS : Only A s s := Only.rfl
  repeat' (first
    | with_reducible exact hS
    | with_reducible assumption
    | (with_reducible refine Covers.testBit hA ?_; decide)
    | (with_reducible refine Covers.trans ?_ hA; decide)
    | (refine fun _ => ?_; intros)
    | with_reducible refine State.slowFrame_only ?_ ?_
    | with_reducible refine State.live_only ?_ ?_)

theorem execTelemetryRecord_only {A : Nat} {n : Fin 224} {s : State} {t : State} (h : execTelemetryRecord n s = .next t) (hA : Covers 0x1C00040000000004 A) :
    Only A s t := by
  unfold execTelemetryRecord at h
  injection h with h
  subst h
  have hS : Only A s s := Only.rfl
  repeat' (first
    | with_reducible exact hS
    | with_reducible assumption
    | (with_reducible refine Covers.testBit hA ?_; decide)
    | (with_reducible refine Covers.trans ?_ hA; decide)
    | (refine fun _ => ?_; intros)
    | with_reducible refine State.slowFrame_only ?_ ?_
    | with_reducible refine State.live_only ?_ ?_)

theorem execSetpointAcknowledgement_only {A : Nat} {n : Fin 224} {s : State} {t : State} (h : execSetpointAcknowledgement n s = .next t) (hA : Covers 0x1C00040000000004 A) :
    Only A s t := by
  unfold execSetpointAcknowledgement at h
  injection h with h
  subst h
  have hS : Only A s s := Only.rfl
  repeat' (first
    | with_reducible exact hS
    | with_reducible assumption
    | (with_reducible refine Covers.testBit hA ?_; decide)
    | (with_reducible refine Covers.trans ?_ hA; decide)
    | (refine fun _ => ?_; intros)
    | with_reducible refine State.slowFrame_only ?_ ?_
    | with_reducible refine State.live_only ?_ ?_)

theorem execUserFrame_only {A : Nat} {n : Fin 224} {s : State} {t : State} (h : execUserFrame n s = .next t) (hA : Covers 0x1C00040000000004 A) :
    Only A s t := by
  unfold execUserFrame at h
  injection h with h
  subst h
  have hS : Only A s s := Only.rfl
  repeat' (first
    | with_reducible exact hS
    | with_reducible assumption
    | (with_reducible refine Covers.testBit hA ?_; decide)
    | (with_reducible refine Covers.trans ?_ hA; decide)
    | (refine fun _ => ?_; intros)
    | with_reducible refine State.slowFrame_only ?_ ?_
    | with_reducible refine State.live_only ?_ ?_)

theorem execIdentityTimeout_only {A : Nat} {n : Fin 224} {s : State} {t : State} (h : execIdentityTimeout n s = .next t) (hA : Covers 0xC00040000000004 A) :
    Only A s t := by
  unfold execIdentityTimeout at h
  injection h with h
  subst h
  have hS : Only A s s := Only.rfl
  repeat' (first
    | with_reducible exact hS
    | with_reducible assumption
    | (with_reducible refine Covers.testBit hA ?_; decide)
    | (with_reducible refine Covers.trans ?_ hA; decide)
    | (refine fun _ => ?_; intros)
    | with_reducible refine State.identityTimeout_only ?_ ?_
    | with_reducible refine State.live_only ?_ ?_)

theorem execScTxSend_only {A : Nat} {n : Fin 224} {s : State} {t : State} (h : execScTxSend n s = .next t) (hA : Covers 0xC00000000000004 A) :
    Only A s t := by
  unfold execScTxSend at h
  injection h with h
  subst h
  have hS : Only A s s := Only.rfl
  repeat' (first
    | with_reducible exact hS
    | with_reducible assumption
    | (with_reducible refine Covers.testBit hA ?_; decide)
    | (with_reducible refine Covers.trans ?_ hA; decide)
    | (refine fun _ => ?_; intros)
    | with_reducible refine State.slowSend_only ?_ ?_
    | with_reducible refine State.live_only ?_ ?_)

theorem execScTxAbort_only {A : Nat} {n : Fin 224} {s : State} {t : State} (h : execScTxAbort n s = .next t) (hA : Covers 0x400000000000004 A) :
    Only A s t := by
  unfold execScTxAbort at h
  injection h with h
  subst h
  have hS : Only A s s := Only.rfl
  repeat' (first
    | with_reducible exact hS
    | with_reducible assumption
    | (with_reducible refine Covers.testBit hA ?_; decide)
    | (with_reducible refine Covers.trans ?_ hA; decide)
    | (refine fun _ => ?_; intros)
    | with_reducible refine State.slowAbort_only ?_ ?_
    | with_reducible refine State.live_only ?_ ?_)

theorem execDownlinkSlot_only {A : Nat} {n : Fin 224} {extra : Bool} {s : State} {t : State} (h : execDownlinkSlot n extra s = .next t) (hA : Covers 0x1C00000000000014 A) :
    Only A s t := by
  unfold execDownlinkSlot at h
  injection h with h
  subst h
  have hS : Only A s s := Only.rfl
  repeat' (first
    | with_reducible exact hS
    | with_reducible assumption
    | (with_reducible refine Covers.testBit hA ?_; decide)
    | (with_reducible refine Covers.trans ?_ hA; decide)
    | (refine fun _ => ?_; intros)
    | with_reducible refine State.downlinkSlot_only ?_ ?_
    | with_reducible refine State.live_only ?_ ?_)

theorem execDlWindowWrite_only {A : Nat} {n : Fin 224} {window : Bool} {mask : BitVec 32} {value : BitVec 32} {s : State} {t : State} (h : execDlWindowWrite n window mask value s = .next t) (hA : Covers 0xC00000000000004 A) :
    Only A s t := by
  unfold execDlWindowWrite at h
  injection h with h
  subst h
  have hS : Only A s s := Only.rfl
  repeat' (first
    | with_reducible exact hS
    | with_reducible assumption
    | (with_reducible refine Covers.testBit hA ?_; decide)
    | (with_reducible refine Covers.trans ?_ hA; decide)
    | (refine fun _ => ?_; intros)
    | with_reducible refine Only.ite ?_ ?_
    | with_reducible refine State.writeDl_only ?_ ?_
    | with_reducible refine State.live_only ?_ ?_)

theorem execBlockArrival_only {A : Nat} {n : Fin 224} {word : BitVec 64} {s : State} {t : State} (h : execBlockArrival n word s = .next t) (hA : Covers 0x180002200000000C A) :
    Only A s t := by
  unfold execBlockArrival at h
  injection h with h
  subst h
  have hS : Only A s s := Only.rfl
  repeat' (first
    | with_reducible exact hS
    | with_reducible assumption
    | (with_reducible refine Covers.testBit hA ?_; decide)
    | (with_reducible refine Covers.trans ?_ hA; decide)
    | (refine fun _ => ?_; intros)
    | with_reducible refine State.laneWord_only ?_ ?_
    | with_reducible refine State.live_only ?_ ?_)

theorem execRefclkPresenceChange_only {A : Nat} {k : Fin 8} {present : Bool} {s : State} {t : State} (h : execRefclkPresenceChange k present s = .next t) (hA : Covers 0x4 A) :
    Only A s t := by
  unfold execRefclkPresenceChange at h
  injection h with h
  subst h
  have hS : Only A s s := Only.rfl
  repeat' (first
    | with_reducible exact hS
    | with_reducible assumption
    | (with_reducible refine Covers.testBit hA ?_; decide)
    | (with_reducible refine Covers.trans ?_ hA; decide)
    | (refine fun _ => ?_; intros)
    | with_reducible refine State.refclkPresence_only ?_ ?_
    | with_reducible refine State.live_only ?_ ?_)

theorem execFacetLogicCycle_only {A : Nat} {f : Fin 57} {pins : BitVec 96} {us : Bool} {late : BitVec 288} {strobe : Bool} {s : State} {t : State} (h : execFacetLogicCycle f pins us late strobe s = .next t) (hA : Covers 0x1E0003200040000E A) :
    Only A s t := by
  unfold execFacetLogicCycle at h
  injection h with h
  subst h
  have hS : Only A s s := Only.rfl
  repeat' (first
    | with_reducible exact hS
    | with_reducible assumption
    | (with_reducible refine Covers.testBit hA ?_; decide)
    | (with_reducible refine Covers.trans ?_ hA; decide)
    | (refine fun _ => ?_; intros)
    | with_reducible refine State.facetCycle_only ?_ ?_
    | with_reducible refine State.live_only ?_ ?_)

theorem execFacetTimerExpiry_only {A : Nat} {f : Fin 57} {t : Fin 16} {s : State} {final : State} (h : execFacetTimerExpiry f t s = .next final) (hA : Covers 0x20000000000 A) :
    Only A s final := by
  unfold execFacetTimerExpiry at h
  injection h with h
  subst h
  have hS : Only A s s := Only.rfl
  repeat' (first
    | with_reducible exact hS
    | with_reducible assumption
    | (with_reducible refine Covers.testBit hA ?_; decide)
    | (with_reducible refine Covers.trans ?_ hA; decide)
    | (refine fun _ => ?_; intros)
    | with_reducible refine State.facetTimerExpiry_only ?_ ?_
    | with_reducible refine State.live_only ?_ ?_)

theorem execTxWord_only {A : Nat} {n : Fin 224} {s : State} {t : State} (h : execTxWord n s = .next t) (hA : Covers 0x1E0002200000000C A) :
    Only A s t := by
  unfold execTxWord at h
  injection h with h
  subst h
  have hS : Only A s s := Only.rfl
  repeat' (first
    | with_reducible exact hS
    | with_reducible assumption
    | (with_reducible refine Covers.testBit hA ?_; decide)
    | (with_reducible refine Covers.trans ?_ hA; decide)
    | (refine fun _ => ?_; intros)
    | with_reducible refine State.txWord_only ?_ ?_
    | with_reducible refine State.live_only ?_ ?_)

theorem execFacetLoad_only {A : Nat} {f : Fin 57} {s : State} {t : State} (h : execFacetLoad f s = .next t) (hA : Covers 0x800020000000008 A) :
    Only A s t := by
  unfold execFacetLoad at h
  injection h with h
  subst h
  have hS : Only A s s := Only.rfl
  repeat' (first
    | with_reducible exact hS
    | with_reducible assumption
    | (with_reducible refine Covers.testBit hA ?_; decide)
    | (with_reducible refine Covers.trans ?_ hA; decide)
    | (refine fun _ => ?_; intros)
    | with_reducible refine State.facetLoad_only ?_ ?_
    | with_reducible refine State.live_only ?_ ?_)

theorem execFacetLoadDone_only {A : Nat} {f : Fin 57} {s : State} {t : State} (h : execFacetLoadDone f s = .next t) (hA : Covers 0x20000000008 A) :
    Only A s t := by
  unfold execFacetLoadDone at h
  injection h with h
  subst h
  have hS : Only A s s := Only.rfl
  repeat' (first
    | with_reducible exact hS
    | with_reducible assumption
    | (with_reducible refine Covers.testBit hA ?_; decide)
    | (with_reducible refine Covers.trans ?_ hA; decide)
    | (refine fun _ => ?_; intros)
    | with_reducible refine State.facetLoadDone_only ?_ ?_
    | with_reducible refine State.live_only ?_ ?_)

theorem execFacetActivate_only {A : Nat} {f : Fin 57} {s : State} {t : State} (h : execFacetActivate f s = .next t) (hA : Covers 0xC0003000040000A A) :
    Only A s t := by
  unfold execFacetActivate at h
  injection h with h
  subst h
  have hS : Only A s s := Only.rfl
  repeat' (first
    | with_reducible exact hS
    | with_reducible assumption
    | (with_reducible refine Covers.testBit hA ?_; decide)
    | (with_reducible refine Covers.trans ?_ hA; decide)
    | (refine fun _ => ?_; intros)
    | with_reducible refine State.facetActivate_only ?_ ?_
    | with_reducible refine State.live_only ?_ ?_)

theorem execFacetAbort_only {A : Nat} {f : Fin 57} {s : State} {t : State} (h : execFacetAbort f s = .next t) (hA : Covers 0x80003000000000A A) :
    Only A s t := by
  unfold execFacetAbort at h
  injection h with h
  subst h
  have hS : Only A s s := Only.rfl
  repeat' (first
    | with_reducible exact hS
    | with_reducible assumption
    | (with_reducible refine Covers.testBit hA ?_; decide)
    | (with_reducible refine Covers.trans ?_ hA; decide)
    | (refine fun _ => ?_; intros)
    | with_reducible refine State.facetAbort_only ?_ ?_
    | with_reducible refine State.live_only ?_ ?_)

theorem execFacetHalt_only {A : Nat} {f : Fin 57} {s : State} {t : State} (h : execFacetHalt f s = .next t) (hA : Covers 0x400020000400008 A) :
    Only A s t := by
  unfold execFacetHalt at h
  injection h with h
  subst h
  have hS : Only A s s := Only.rfl
  repeat' (first
    | with_reducible exact hS
    | with_reducible assumption
    | (with_reducible refine Covers.testBit hA ?_; decide)
    | (with_reducible refine Covers.trans ?_ hA; decide)
    | (refine fun _ => ?_; intros)
    | with_reducible refine State.facetHalt_only ?_ ?_
    | with_reducible refine State.live_only ?_ ?_)

theorem execFacetResume_only {A : Nat} {f : Fin 57} {s : State} {t : State} (h : execFacetResume f s = .next t) (hA : Covers 0x20000000000 A) :
    Only A s t := by
  unfold execFacetResume at h
  injection h with h
  subst h
  have hS : Only A s s := Only.rfl
  repeat' (first
    | with_reducible exact hS
    | with_reducible assumption
    | (with_reducible refine Covers.testBit hA ?_; decide)
    | (with_reducible refine Covers.trans ?_ hA; decide)
    | (refine fun _ => ?_; intros)
    | with_reducible refine State.facetResume_only ?_ ?_
    | with_reducible refine State.live_only ?_ ?_)

theorem execFacetCapture_only {A : Nat} {f : Fin 57} {s : State} {t : State} (h : execFacetCapture f s = .next t) (hA : Covers 0x800020000000008 A) :
    Only A s t := by
  unfold execFacetCapture at h
  injection h with h
  subst h
  have hS : Only A s s := Only.rfl
  repeat' (first
    | with_reducible exact hS
    | with_reducible assumption
    | (with_reducible refine Covers.testBit hA ?_; decide)
    | (with_reducible refine Covers.trans ?_ hA; decide)
    | (refine fun _ => ?_; intros)
    | with_reducible refine State.facetCapture_only ?_ ?_
    | with_reducible refine State.live_only ?_ ?_)

theorem execFacetSwitchEntry_only {A : Nat} {f : Fin 57} {s : State} {t : State} (h : execFacetSwitchEntry f s = .next t) (hA : Covers 0x1C103310004100EA A) :
    Only A s t := by
  unfold execFacetSwitchEntry at h
  injection h with h
  subst h
  have hS : Only A s s := Only.rfl
  repeat' (first
    | with_reducible exact hS
    | with_reducible assumption
    | (with_reducible refine Covers.testBit hA ?_; decide)
    | (with_reducible refine Covers.trans ?_ hA; decide)
    | (refine fun _ => ?_; intros)
    | with_reducible refine State.openIfReady_only ?_ ?_
    | with_reducible refine State.facetSwitchEntry_only ?_ ?_
    | with_reducible refine State.live_only ?_ ?_)

theorem execFacetSwitchComplete_only {A : Nat} {f : Fin 57} {s : State} {t : State} (h : execFacetSwitchComplete f s = .next t) (hA : Covers 0x20000000000 A) :
    Only A s t := by
  unfold execFacetSwitchComplete at h
  injection h with h
  subst h
  have hS : Only A s s := Only.rfl
  repeat' (first
    | with_reducible exact hS
    | with_reducible assumption
    | (with_reducible refine Covers.testBit hA ?_; decide)
    | (with_reducible refine Covers.trans ?_ hA; decide)
    | (refine fun _ => ?_; intros)
    | with_reducible refine State.switchComplete_only ?_ ?_
    | with_reducible refine State.live_only ?_ ?_)

theorem execFacetConfigScrub_only {A : Nat} {f : Fin 57} {shadow : Bool} {double : Bool} {s : State} {t : State} (h : execFacetConfigScrub f shadow double s = .next t) (hA : Covers 0x1C0003000040000A A) :
    Only A s t := by
  unfold execFacetConfigScrub at h
  injection h with h
  subst h
  have hS : Only A s s := Only.rfl
  repeat' (first
    | with_reducible exact hS
    | with_reducible assumption
    | (with_reducible refine Covers.testBit hA ?_; decide)
    | (with_reducible refine Covers.trans ?_ hA; decide)
    | (refine fun _ => ?_; intros)
    | with_reducible refine State.facetScrub_only ?_ ?_
    | with_reducible refine State.live_only ?_ ?_)

theorem execFacetReadbackRead_only {A : Nat} {ini : Fin 41} {f : Fin 57} {s : State} {t : State} (h : execFacetReadbackRead ini f s = .next t) (hA : Covers 0x1FFFFFFC007FFFFF A) :
    Only A s t := by
  unfold execFacetReadbackRead at h
  injection h with h
  subst h
  have hS : Only A s s := Only.rfl
  repeat' (first
    | with_reducible exact hS
    | with_reducible assumption
    | (with_reducible refine Covers.testBit hA ?_; decide)
    | (with_reducible refine Covers.trans ?_ hA; decide)
    | with_reducible refine State.regRead_only ?_ ?_)

theorem execGpiPinWrite_only {A : Nat} {n : Fin 96} {mask : BitVec 32} {value : BitVec 32} {s : State} {t : State} (h : execGpiPinWrite n mask value s = .next t) (hA : Covers 0x800000000400000 A) :
    Only A s t := by
  unfold execGpiPinWrite at h
  injection h with h
  subst h
  have hS : Only A s s := Only.rfl
  repeat' (first
    | with_reducible exact hS
    | with_reducible assumption
    | (with_reducible refine Covers.testBit hA ?_; decide)
    | (with_reducible refine Covers.trans ?_ hA; decide)
    | (refine fun _ => ?_; intros)
    | with_reducible refine State.writePin_only ?_ ?_
    | with_reducible refine State.live_only ?_ ?_)

theorem execVddioChange_only {A : Nat} {k : Fin 4} {code : Fin 5} {s : State} {t : State} (h : execVddioChange k code s = .next t) (hA : Covers 0x800000000400000 A) :
    Only A s t := by
  unfold execVddioChange at h
  injection h with h
  subst h
  have hS : Only A s s := Only.rfl
  repeat' (first
    | with_reducible exact hS
    | with_reducible assumption
    | (with_reducible refine Covers.testBit hA ?_; decide)
    | (with_reducible refine Covers.trans ?_ hA; decide)
    | (refine fun _ => ?_; intros)
    | with_reducible refine State.vddioChange_only ?_ ?_
    | with_reducible refine State.live_only ?_ ?_)

theorem execPrismWord_only {A : Nat} {n : Fin 224} {t : Nat} {s : State} {final : State} (h : execPrismWord n t s = .next final) (hA : Covers 0x18000A0400000010 A) :
    Only A s final := by
  unfold execPrismWord at h
  injection h with h
  subst h
  have hS : Only A s s := Only.rfl
  repeat' (first
    | with_reducible exact hS
    | with_reducible assumption
    | (with_reducible refine Covers.testBit hA ?_; decide)
    | (with_reducible refine Covers.trans ?_ hA; decide)
    | (refine fun _ => ?_; intros)
    | with_reducible refine State.prismWord_only ?_ ?_
    | with_reducible refine State.live_only ?_ ?_)

theorem execCommitDeadline_only {A : Nat} {t : Nat} {s : State} {final : State} (h : execCommitDeadline t s = .next final) (hA : Covers 0x1820080400000030 A) :
    Only A s final := by
  unfold execCommitDeadline at h
  injection h with h
  subst h
  have hS : Only A s s := Only.rfl
  repeat' (first
    | with_reducible exact hS
    | with_reducible assumption
    | (with_reducible refine Covers.testBit hA ?_; decide)
    | (with_reducible refine Covers.trans ?_ hA; decide)
    | (refine fun _ => ?_; intros)
    | with_reducible refine State.commitDeadline_only ?_ ?_
    | with_reducible refine State.live_only ?_ ?_)

theorem execPrismApply_only {A : Nat} {s : State} {t : State} (h : execPrismApply s = .next t) (hA : Covers 0x800090000000012 A) :
    Only A s t := by
  unfold execPrismApply at h
  injection h with h
  subst h
  have hS : Only A s s := Only.rfl
  repeat' (first
    | with_reducible exact hS
    | with_reducible assumption
    | (with_reducible refine Covers.testBit hA ?_; decide)
    | (with_reducible refine Covers.trans ?_ hA; decide)
    | (refine fun _ => ?_; intros)
    | with_reducible refine State.prismApply_only ?_ ?_
    | with_reducible refine State.live_only ?_ ?_)

theorem execPrismAbort_only {A : Nat} {s : State} {t : State} (h : execPrismAbort s = .next t) (hA : Covers 0x800090000000012 A) :
    Only A s t := by
  unfold execPrismAbort at h
  injection h with h
  subst h
  have hS : Only A s s := Only.rfl
  repeat' (first
    | with_reducible exact hS
    | with_reducible assumption
    | (with_reducible refine Covers.testBit hA ?_; decide)
    | (with_reducible refine Covers.trans ?_ hA; decide)
    | (refine fun _ => ?_; intros)
    | with_reducible refine State.prismAbort_only ?_ ?_
    | with_reducible refine State.live_only ?_ ?_)

theorem execSlackReset_only {A : Nat} {s : State} {t : State} (h : execSlackReset s = .next t) (hA : Covers 0x10 A) :
    Only A s t := by
  unfold execSlackReset at h
  injection h with h
  subst h
  have hS : Only A s s := Only.rfl
  repeat' (first
    | with_reducible exact hS
    | with_reducible assumption
    | (with_reducible refine Covers.testBit hA ?_; decide)
    | (with_reducible refine Covers.trans ?_ hA; decide)
    | (refine fun _ => ?_; intros)
    | with_reducible refine State.slackReset_only ?_ ?_
    | with_reducible refine State.live_only ?_ ?_)

theorem execPrismApplyCommit_only {A : Nat} {s : State} {t : State} (h : execPrismApplyCommit s = .next t) (hA : Covers 0x18103910000100F0 A) :
    Only A s t := by
  unfold execPrismApplyCommit at h
  injection h with h
  subst h
  have hS : Only A s s := Only.rfl
  repeat' (first
    | with_reducible exact hS
    | with_reducible assumption
    | (with_reducible refine Covers.testBit hA ?_; decide)
    | (with_reducible refine Covers.trans ?_ hA; decide)
    | (refine fun _ => ?_; intros)
    | with_reducible refine State.prismApplyCommit_only ?_ ?_
    | with_reducible refine State.openIfReady_only ?_ ?_
    | with_reducible refine State.live_only ?_ ?_)

theorem execSidePortRequest_only {A : Nat} {write : Bool} {addr : Fin 0x10000000000} {len : Fin 257} {ini : Fin 41} {tag : Fin 64} {data : List (BitVec 8)} {s : State} {t : State} (h : execSidePortRequest write addr len ini tag data s = .next t) (hA : Covers 0x1800082000000010 A) :
    Only A s t := by
  unfold execSidePortRequest at h
  injection h with h
  subst h
  have hS : Only A s s := Only.rfl
  repeat' (first
    | with_reducible exact hS
    | with_reducible assumption
    | (with_reducible refine Covers.testBit hA ?_; decide)
    | (with_reducible refine Covers.trans ?_ hA; decide)
    | (refine fun _ => ?_; intros)
    | with_reducible refine State.live_only ?_ ?_
    | with_reducible refine State.sideAsk_only ?_ ?_)

theorem execSidePortPerform_only {A : Nat} {s : State} {t : State} (h : execSidePortPerform s = .next t) (hA : Covers 0x1844B96000000272 A) :
    Only A s t := by
  unfold execSidePortPerform at h
  injection h with h
  subst h
  have hS : Only A s s := Only.rfl
  repeat' (first
    | with_reducible exact hS
    | with_reducible assumption
    | (with_reducible refine Covers.testBit hA ?_; decide)
    | (with_reducible refine Covers.trans ?_ hA; decide)
    | (refine fun _ => ?_; intros)
    | with_reducible refine State.live_only ?_ ?_
    | with_reducible refine State.sidePortPerform_only ?_ ?_
    | with_reducible refine State.tablesWritten_only ?_ ?_)

end Sys2Proof.Machine
end

