-- ==== Sys2Proof/Laws/ExecRowsLinks.lean ====
section
/-! SUPPORT. What each command of Machine/RowsLinks.lean may change. -/

set_option linter.unusedTactic false
set_option linter.unreachableTactic false
set_option linter.unusedVariables false

namespace Sys2Proof.Machine

theorem execLinkConfigWrite_only {A : Nat} {l : LinkId} {mask : BitVec 32} {value : BitVec 32} {s : State} {t : State} (h : execLinkConfigWrite l mask value s = .next t) (hA : Covers 0x800400000000100 A) :
    Only A s t := by
  unfold execLinkConfigWrite at h
  injection h with h
  subst h
  have hS : Only A s s := Only.rfl
  repeat' (first
    | with_reducible exact hS
    | with_reducible assumption
    | (with_reducible refine Covers.testBit hA ?_; decide)
    | (with_reducible refine Covers.trans ?_ hA; decide)
    | (refine fun _ => ?_; intros)
    | with_reducible refine State.writeLinkCfg_only ?_ ?_
    | with_reducible refine State.live_only ?_ ?_)

theorem execLinkLaneLoss_only {A : Nat} {l : LinkId} {s : State} {t : State} (h : execLinkLaneLoss l s = .next t) (hA : Covers 0x1800400000000100 A) :
    Only A s t := by
  unfold execLinkLaneLoss at h
  injection h with h
  subst h
  have hS : Only A s s := Only.rfl
  repeat' (first
    | with_reducible exact hS
    | with_reducible assumption
    | (with_reducible refine Covers.testBit hA ?_; decide)
    | (with_reducible refine Covers.trans ?_ hA; decide)
    | (refine fun _ => ?_; intros)
    | with_reducible refine State.linkLaneLoss_only ?_ ?_
    | with_reducible refine State.live_only ?_ ?_)

theorem execLinkTrained_only {A : Nat} {l : LinkId} {s : State} {t : State} (h : execLinkTrained l s = .next t) (hA : Covers 0x400000000100 A) :
    Only A s t := by
  unfold execLinkTrained at h
  injection h with h
  subst h
  have hS : Only A s s := Only.rfl
  repeat' (first
    | with_reducible exact hS
    | with_reducible assumption
    | (with_reducible refine Covers.testBit hA ?_; decide)
    | (with_reducible refine Covers.trans ?_ hA; decide)
    | (refine fun _ => ?_; intros)
    | with_reducible refine State.linkTrained_only ?_ ?_
    | with_reducible refine State.live_only ?_ ?_)

theorem execLinkTrainTimeout_only {A : Nat} {l : LinkId} {s : State} {t : State} (h : execLinkTrainTimeout l s = .next t) (hA : Covers 0x800400000000100 A) :
    Only A s t := by
  unfold execLinkTrainTimeout at h
  injection h with h
  subst h
  have hS : Only A s s := Only.rfl
  repeat' (first
    | with_reducible exact hS
    | with_reducible assumption
    | (with_reducible refine Covers.testBit hA ?_; decide)
    | (with_reducible refine Covers.trans ?_ hA; decide)
    | (refine fun _ => ?_; intros)
    | with_reducible refine State.linkTrainTimeout_only ?_ ?_
    | with_reducible refine State.live_only ?_ ?_)

theorem execIdent_only {A : Nat} {l : LinkId} {word : BitVec 64} {s : State} {t : State} (h : execIdent l word s = .next t) (hA : Covers 0x800400000000100 A) :
    Only A s t := by
  unfold execIdent at h
  injection h with h
  subst h
  have hS : Only A s s := Only.rfl
  repeat' (first
    | with_reducible exact hS
    | with_reducible assumption
    | (with_reducible refine Covers.testBit hA ?_; decide)
    | (with_reducible refine Covers.trans ?_ hA; decide)
    | (refine fun _ => ?_; intros)
    | with_reducible refine State.linkIdent_only ?_ ?_
    | with_reducible refine State.live_only ?_ ?_)

theorem execSlot_only {A : Nat} {l : LinkId} {word : BitVec 64} {t : Nat} {s : State} {final : State} (h : execSlot l word t s = .next final) (hA : Covers 0x800400400000100 A) :
    Only A s final := by
  unfold execSlot at h
  injection h with h
  subst h
  have hS : Only A s s := Only.rfl
  repeat' (first
    | with_reducible exact hS
    | with_reducible assumption
    | (with_reducible refine Covers.testBit hA ?_; decide)
    | (with_reducible refine Covers.trans ?_ hA; decide)
    | (refine fun _ => ?_; intros)
    | with_reducible refine State.slotMarker_only ?_ ?_
    | with_reducible refine State.live_only ?_ ?_)

theorem execMarkerLoss_only {A : Nat} {l : LinkId} {s : State} {t : State} (h : execMarkerLoss l s = .next t) (hA : Covers 0x800400000000100 A) :
    Only A s t := by
  unfold execMarkerLoss at h
  injection h with h
  subst h
  have hS : Only A s s := Only.rfl
  repeat' (first
    | with_reducible exact hS
    | with_reducible assumption
    | (with_reducible refine Covers.testBit hA ?_; decide)
    | (with_reducible refine Covers.trans ?_ hA; decide)
    | (refine fun _ => ?_; intros)
    | with_reducible refine State.markerMiss_only ?_ ?_
    | with_reducible refine State.live_only ?_ ?_)

theorem execLinkSlot_only {A : Nat} {l : LinkId} {extra : Bool} {s : State} {t : State} (h : execLinkSlot l extra s = .next t) (hA : Covers 0x403000000100 A) :
    Only A s t := by
  unfold execLinkSlot at h
  injection h with h
  subst h
  have hS : Only A s s := Only.rfl
  repeat' (first
    | with_reducible exact hS
    | with_reducible assumption
    | (with_reducible refine Covers.testBit hA ?_; decide)
    | (with_reducible refine Covers.trans ?_ hA; decide)
    | (refine fun _ => ?_; intros)
    | with_reducible refine State.linkSlot_only ?_ ?_
    | with_reducible refine State.live_only ?_ ?_)

theorem execHaloFrame_only {A : Nat} {j : Fin 12} {payload : List (BitVec 64)} {s : State} {t : State} (h : execHaloFrame j payload s = .next t) (hA : Covers 0x1800500000000120 A) :
    Only A s t := by
  unfold execHaloFrame at h
  injection h with h
  subst h
  have hS : Only A s s := Only.rfl
  repeat' (first
    | with_reducible exact hS
    | with_reducible assumption
    | (with_reducible refine Covers.testBit hA ?_; decide)
    | (with_reducible refine Covers.trans ?_ hA; decide)
    | (refine fun _ => ?_; intros)
    | with_reducible refine State.haloFrame_only ?_ ?_
    | with_reducible refine State.live_only ?_ ?_)

theorem execWorgaFrame_only {A : Nat} {j : Fin 12} {words : List (Fin 4 × Bool × BitVec 64)} {room : Bool} {s : State} {t : State} (h : execWorgaFrame j words room s = .next t) (hA : Covers 0x1800500000000120 A) :
    Only A s t := by
  unfold execWorgaFrame at h
  injection h with h
  subst h
  have hS : Only A s s := Only.rfl
  repeat' (first
    | with_reducible exact hS
    | with_reducible assumption
    | (with_reducible refine Covers.testBit hA ?_; decide)
    | (with_reducible refine Covers.trans ?_ hA; decide)
    | (refine fun _ => ?_; intros)
    | with_reducible refine State.frameIn_only ?_ ?_
    | with_reducible refine State.live_only ?_ ?_)

theorem execWorgaTxSend_only {A : Nat} {s : State} {t : State} (h : execWorgaTxSend s = .next t) (hA : Covers 0x800401000000100 A) :
    Only A s t := by
  unfold execWorgaTxSend at h
  injection h with h
  subst h
  have hS : Only A s s := Only.rfl
  repeat' (first
    | with_reducible exact hS
    | with_reducible assumption
    | (with_reducible refine Covers.testBit hA ?_; decide)
    | (with_reducible refine Covers.trans ?_ hA; decide)
    | (refine fun _ => ?_; intros)
    | with_reducible refine State.txSend_only ?_ ?_
    | with_reducible refine State.live_only ?_ ?_)

theorem execWorgaTxAbort_only {A : Nat} {tag : Fin 256} {s : State} {t : State} (h : execWorgaTxAbort tag s = .next t) (hA : Covers 0x800400000000100 A) :
    Only A s t := by
  unfold execWorgaTxAbort at h
  injection h with h
  subst h
  have hS : Only A s s := Only.rfl
  repeat' (first
    | with_reducible exact hS
    | with_reducible assumption
    | (with_reducible refine Covers.testBit hA ?_; decide)
    | (with_reducible refine Covers.trans ?_ hA; decide)
    | (refine fun _ => ?_; intros)
    | with_reducible refine State.txAbort_only ?_ ?_
    | with_reducible refine State.live_only ?_ ?_)

theorem execEpochApply_only {A : Nat} {s : State} {t : State} (h : execEpochApply s = .next t) (hA : Covers 0x800410000000102 A) :
    Only A s t := by
  unfold execEpochApply at h
  injection h with h
  subst h
  have hS : Only A s s := Only.rfl
  repeat' (first
    | with_reducible exact hS
    | with_reducible assumption
    | (with_reducible refine Covers.testBit hA ?_; decide)
    | (with_reducible refine Covers.trans ?_ hA; decide)
    | (refine fun _ => ?_; intros)
    | with_reducible refine State.epochApply_only ?_ ?_
    | with_reducible refine State.live_only ?_ ?_)

theorem execEpochAbort_only {A : Nat} {s : State} {t : State} (h : execEpochAbort s = .next t) (hA : Covers 0x800010000000102 A) :
    Only A s t := by
  unfold execEpochAbort at h
  injection h with h
  subst h
  have hS : Only A s s := Only.rfl
  repeat' (first
    | with_reducible exact hS
    | with_reducible assumption
    | (with_reducible refine Covers.testBit hA ?_; decide)
    | (with_reducible refine Covers.trans ?_ hA; decide)
    | (refine fun _ => ?_; intros)
    | with_reducible refine State.epochAbort_only ?_ ?_
    | with_reducible refine State.live_only ?_ ?_)

theorem execEpochFire_only {A : Nat} {s : State} {t : State} (h : execEpochFire s = .next t) (hA : Covers 0x18107110000101E0 A) :
    Only A s t := by
  unfold execEpochFire at h
  injection h with h
  subst h
  have hS : Only A s s := Only.rfl
  repeat' (first
    | with_reducible exact hS
    | with_reducible assumption
    | (with_reducible refine Covers.testBit hA ?_; decide)
    | (with_reducible refine Covers.trans ?_ hA; decide)
    | (refine fun _ => ?_; intros)
    | with_reducible refine State.openIfReady_only ?_ ?_
    | with_reducible refine State.epochFire_only ?_ ?_
    | with_reducible refine State.live_only ?_ ?_)

theorem execBeaconTreeConfig_only {A : Nat} {off : Fin 3} {mask : BitVec 32} {value : BitVec 32} {s : State} {t : State} (h : execBeaconTreeConfig off mask value s = .next t) (hA : Covers 0x800000000000100 A) :
    Only A s t := by
  unfold execBeaconTreeConfig at h
  injection h with h
  subst h
  have hS : Only A s s := Only.rfl
  repeat' (first
    | with_reducible exact hS
    | with_reducible assumption
    | (with_reducible refine Covers.testBit hA ?_; decide)
    | (with_reducible refine Covers.trans ?_ hA; decide)
    | (refine fun _ => ?_; intros)
    | with_reducible refine State.writeTree_only ?_ ?_
    | with_reducible refine State.live_only ?_ ?_)

theorem execBeaconOwnResult_only {A : Nat} {t : Nat} {s : State} {final : State} (h : execBeaconOwnResult t s = .next final) (hA : Covers 0x1000601400000100 A) :
    Only A s final := by
  unfold execBeaconOwnResult at h
  injection h with h
  subst h
  have hS : Only A s s := Only.rfl
  repeat' (first
    | with_reducible exact hS
    | with_reducible assumption
    | (with_reducible refine Covers.testBit hA ?_; decide)
    | (with_reducible refine Covers.trans ?_ hA; decide)
    | (refine fun _ => ?_; intros)
    | with_reducible refine State.ownResult_only ?_ ?_
    | with_reducible refine State.live_only ?_ ?_)

theorem execBeaconCellUp_only {A : Nat} {n : Fin 48} {w0 : BitVec 64} {w1 : BitVec 64} {w2 : BitVec 64} {t : Nat} {s : State} {final : State} (h : execBeaconCellUp n w0 w1 w2 t s = .next final) (hA : Covers 0x1800402400000100 A) :
    Only A s final := by
  unfold execBeaconCellUp at h
  injection h with h
  subst h
  have hS : Only A s s := Only.rfl
  repeat' (first
    | with_reducible exact hS
    | with_reducible assumption
    | (with_reducible refine Covers.testBit hA ?_; decide)
    | (with_reducible refine Covers.trans ?_ hA; decide)
    | (refine fun _ => ?_; intros)
    | with_reducible refine Only.ite ?_ ?_
    | with_reducible refine State.cellIn_only ?_ ?_
    | with_reducible refine State.live_only ?_ ?_)

theorem execBeaconKeyClose_only {A : Nat} {i : Nat} {t : Nat} {s : State} {final : State} (h : execBeaconKeyClose i t s = .next final) (hA : Covers 0x1000402400000100 A) :
    Only A s final := by
  unfold execBeaconKeyClose at h
  injection h with h
  subst h
  have hS : Only A s s := Only.rfl
  repeat' (first
    | with_reducible exact hS
    | with_reducible assumption
    | (with_reducible refine Covers.testBit hA ?_; decide)
    | (with_reducible refine Covers.trans ?_ hA; decide)
    | (refine fun _ => ?_; intros)
    | with_reducible refine State.closeKey_only ?_ ?_
    | with_reducible refine State.live_only ?_ ?_)

theorem execBeaconCellDown_only {A : Nat} {n : Fin 48} {w0 : BitVec 64} {w1 : BitVec 64} {w2 : BitVec 64} {t : Nat} {s : State} {final : State} (h : execBeaconCellDown n w0 w1 w2 t s = .next final) (hA : Covers 0x1800402400000100 A) :
    Only A s final := by
  unfold execBeaconCellDown at h
  injection h with h
  subst h
  have hS : Only A s s := Only.rfl
  repeat' (first
    | with_reducible exact hS
    | with_reducible assumption
    | (with_reducible refine Covers.testBit hA ?_; decide)
    | (with_reducible refine Covers.trans ?_ hA; decide)
    | (refine fun _ => ?_; intros)
    | with_reducible refine Only.ite ?_ ?_
    | with_reducible refine State.cellIn_only ?_ ?_
    | with_reducible refine State.live_only ?_ ?_)

theorem execSysResultRead_only {A : Nat} {ini : Fin 41} {s : State} {t : State} (h : execSysResultRead ini s = .next t) (hA : Covers 0x1FFFFFFC007FFFFF A) :
    Only A s t := by
  unfold execSysResultRead at h
  injection h with h
  subst h
  have hS : Only A s s := Only.rfl
  repeat' (first
    | with_reducible exact hS
    | with_reducible assumption
    | (with_reducible refine Covers.testBit hA ?_; decide)
    | (with_reducible refine Covers.trans ?_ hA; decide)
    | with_reducible refine State.regRead_only ?_ ?_)

theorem execWorgaLanePllLock_only {A : Nat} {l : LinkId} {s : State} {t : State} (h : execWorgaLanePllLock l s = .next t) (hA : Covers 0x100 A) :
    Only A s t := by
  unfold execWorgaLanePllLock at h
  injection h with h
  subst h
  have hS : Only A s s := Only.rfl
  repeat' (first
    | with_reducible exact hS
    | with_reducible assumption
    | (with_reducible refine Covers.testBit hA ?_; decide)
    | (with_reducible refine Covers.trans ?_ hA; decide)
    | (refine fun _ => ?_; intros)
    | with_reducible refine State.linkPllLock_only ?_ ?_
    | with_reducible refine State.live_only ?_ ?_)

theorem execWorgaCodeword_only {A : Nat} {l : LinkId} {o : Codeword} {s : State} {t : State} (h : execWorgaCodeword l o s = .next t) (hA : Covers 0x1800000000000100 A) :
    Only A s t := by
  unfold execWorgaCodeword at h
  injection h with h
  subst h
  have hS : Only A s s := Only.rfl
  repeat' (first
    | with_reducible exact hS
    | with_reducible assumption
    | (with_reducible refine Covers.testBit hA ?_; decide)
    | (with_reducible refine Covers.trans ?_ hA; decide)
    | (refine fun _ => ?_; intros)
    | with_reducible refine State.worgaCodeword_only ?_ ?_
    | with_reducible refine State.live_only ?_ ?_)

theorem execHbmPipelineWrite_only {A : Nat} {inTime : Bool} {s : State} {t : State} (h : execHbmPipelineWrite inTime s = .next t) (hA : Covers 0x180088C000000200 A) :
    Only A s t := by
  unfold execHbmPipelineWrite at h
  injection h with h
  subst h
  have hS : Only A s s := Only.rfl
  repeat' (first
    | with_reducible exact hS
    | with_reducible assumption
    | (with_reducible refine Covers.testBit hA ?_; decide)
    | (with_reducible refine Covers.trans ?_ hA; decide)
    | (refine fun _ => ?_; intros)
    | with_reducible refine State.pipelineWrite_only ?_ ?_
    | with_reducible refine State.live_only ?_ ?_)

theorem execHbmInitComplete_only {A : Nat} {k : Fin 2} {s : State} {t : State} (h : execHbmInitComplete k s = .next t) (hA : Covers 0x4000000200 A) :
    Only A s t := by
  unfold execHbmInitComplete at h
  injection h with h
  subst h
  have hS : Only A s s := Only.rfl
  repeat' (first
    | with_reducible exact hS
    | with_reducible assumption
    | (with_reducible refine Covers.testBit hA ?_; decide)
    | (with_reducible refine Covers.trans ?_ hA; decide)
    | (refine fun _ => ?_; intros)
    | with_reducible refine State.hbmInitComplete_only ?_ ?_
    | with_reducible refine State.live_only ?_ ?_)

theorem execHbmInitFail_only {A : Nat} {k : Fin 2} {s : State} {t : State} (h : execHbmInitFail k s = .next t) (hA : Covers 0x800000000000200 A) :
    Only A s t := by
  unfold execHbmInitFail at h
  injection h with h
  subst h
  have hS : Only A s s := Only.rfl
  repeat' (first
    | with_reducible exact hS
    | with_reducible assumption
    | (with_reducible refine Covers.testBit hA ?_; decide)
    | (with_reducible refine Covers.trans ?_ hA; decide)
    | (refine fun _ => ?_; intros)
    | with_reducible refine State.hbmInitFail_only ?_ ?_
    | with_reducible refine State.live_only ?_ ?_)

theorem execHbmFault_only {A : Nat} {k : Fin 2} {s : State} {t : State} (h : execHbmFault k s = .next t) (hA : Covers 0x800000000000200 A) :
    Only A s t := by
  unfold execHbmFault at h
  injection h with h
  subst h
  have hS : Only A s s := Only.rfl
  repeat' (first
    | with_reducible exact hS
    | with_reducible assumption
    | (with_reducible refine Covers.testBit hA ?_; decide)
    | (with_reducible refine Covers.trans ?_ hA; decide)
    | (refine fun _ => ?_; intros)
    | with_reducible refine State.hbmFault_only ?_ ?_
    | with_reducible refine State.live_only ?_ ?_)

theorem execHbmRestart_only {A : Nat} {s : State} {t : State} (h : execHbmRestart s = .next t) (hA : Covers 0xC000000200 A) :
    Only A s t := by
  unfold execHbmRestart at h
  injection h with h
  subst h
  have hS : Only A s s := Only.rfl
  repeat' (first
    | with_reducible exact hS
    | with_reducible assumption
    | (with_reducible refine Covers.testBit hA ?_; decide)
    | (with_reducible refine Covers.trans ?_ hA; decide)
    | (refine fun _ => ?_; intros)
    | with_reducible refine State.hbmRestart_only ?_ ?_
    | with_reducible refine State.live_only ?_ ?_)

theorem execHbmPatrolScrub_only {A : Nat} {addr : Fin 0x400000000} {o : Codeword} {s : State} {t : State} (h : execHbmPatrolScrub addr o s = .next t) (hA : Covers 0x180000D000000200 A) :
    Only A s t := by
  unfold execHbmPatrolScrub at h
  injection h with h
  subst h
  have hS : Only A s s := Only.rfl
  repeat' (first
    | with_reducible exact hS
    | with_reducible assumption
    | (with_reducible refine Covers.testBit hA ?_; decide)
    | (with_reducible refine Covers.trans ?_ hA; decide)
    | (refine fun _ => ?_; intros)
    | with_reducible refine State.patrolScrub_only ?_ ?_
    | with_reducible refine State.live_only ?_ ?_)

theorem execPipeCtrlWrite_only {A : Nat} {mask : BitVec 32} {value : BitVec 32} {s : State} {t : State} (h : execPipeCtrlWrite mask value s = .next t) (hA : Covers 0x800800000000200 A) :
    Only A s t := by
  unfold execPipeCtrlWrite at h
  injection h with h
  subst h
  have hS : Only A s s := Only.rfl
  repeat' (first
    | with_reducible exact hS
    | with_reducible assumption
    | (with_reducible refine Covers.testBit hA ?_; decide)
    | (with_reducible refine Covers.trans ?_ hA; decide)
    | (refine fun _ => ?_; intros)
    | with_reducible refine State.writePipeCtrl_only ?_ ?_
    | with_reducible refine State.live_only ?_ ?_)

theorem execXferStart_only {A : Nat} {t : Fin 4} {ecc : EccMap} {s : State} {final : State} (h : execXferStart t ecc s = .next final) (hA : Covers 0x180088D000000210 A) :
    Only A s final := by
  unfold execXferStart at h
  injection h with h
  subst h
  have hS : Only A s s := Only.rfl
  repeat' (first
    | with_reducible exact hS
    | with_reducible assumption
    | (with_reducible refine Covers.testBit hA ?_; decide)
    | (with_reducible refine Covers.trans ?_ hA; decide)
    | (refine fun _ => ?_; intros)
    | with_reducible refine State.xferStart_only ?_ ?_
    | with_reducible refine State.live_only ?_ ?_)

theorem execXferAbort_only {A : Nat} {t : Fin 4} {s : State} {final : State} (h : execXferAbort t s = .next final) (hA : Covers 0x880000000210 A) :
    Only A s final := by
  unfold execXferAbort at h
  injection h with h
  subst h
  have hS : Only A s s := Only.rfl
  repeat' (first
    | with_reducible exact hS
    | with_reducible assumption
    | (with_reducible refine Covers.testBit hA ?_; decide)
    | (with_reducible refine Covers.trans ?_ hA; decide)
    | (refine fun _ => ?_; intros)
    | with_reducible refine State.xferAbort_only ?_ ?_
    | with_reducible refine State.live_only ?_ ?_)

theorem execReadoutBeaconEntry_only {A : Nat} {system : Bool} {s : State} {t : State} (h : execReadoutBeaconEntry system s = .next t) (hA : Covers 0x1001600000000400 A) :
    Only A s t := by
  unfold execReadoutBeaconEntry at h
  injection h with h
  subst h
  have hS : Only A s s := Only.rfl
  repeat' (first
    | with_reducible exact hS
    | with_reducible assumption
    | (with_reducible refine Covers.testBit hA ?_; decide)
    | (with_reducible refine Covers.trans ?_ hA; decide)
    | (refine fun _ => ?_; intros)
    | with_reducible refine Only.ite ?_ ?_
    | with_reducible refine State.takeBeacon_only ?_ ?_
    | with_reducible refine State.takeSystem_only ?_ ?_
    | with_reducible refine State.live_only ?_ ?_)

theorem execEventReady_only {A : Nat} {t : Nat} {s : State} {final : State} (h : execEventReady t s = .next final) (hA : Covers 0x1000400000000 A) :
    Only A s final := by
  unfold execEventReady at h
  injection h with h
  subst h
  have hS : Only A s s := Only.rfl
  repeat' (first
    | with_reducible exact hS
    | with_reducible assumption
    | (with_reducible refine Covers.testBit hA ?_; decide)
    | (with_reducible refine Covers.trans ?_ hA; decide)
    | (refine fun _ => ?_; intros)
    | with_reducible refine State.at_only ?_ ?_
    | with_reducible refine State.eventReady_only ?_ ?_
    | with_reducible refine State.live_only ?_ ?_)

theorem execEventGather_only {A : Nat} {ecc : EccMap} {s : State} {t : State} (h : execEventGather ecc s = .next t) (hA : Covers 0x180100D000000200 A) :
    Only A s t := by
  unfold execEventGather at h
  injection h with h
  subst h
  have hS : Only A s s := Only.rfl
  repeat' (first
    | with_reducible exact hS
    | with_reducible assumption
    | (with_reducible refine Covers.testBit hA ?_; decide)
    | (with_reducible refine Covers.trans ?_ hA; decide)
    | (refine fun _ => ?_; intros)
    | with_reducible refine State.eventGather_only ?_ ?_
    | with_reducible refine State.live_only ?_ ?_)

theorem execEventAssembled_only {A : Nat} {s : State} {t : State} (h : execEventAssembled s = .next t) (hA : Covers 0x100C000000400 A) :
    Only A s t := by
  unfold execEventAssembled at h
  injection h with h
  subst h
  have hS : Only A s s := Only.rfl
  repeat' (first
    | with_reducible exact hS
    | with_reducible assumption
    | (with_reducible refine Covers.testBit hA ?_; decide)
    | (with_reducible refine Covers.trans ?_ hA; decide)
    | (refine fun _ => ?_; intros)
    | with_reducible refine State.eventAssembled_only ?_ ?_
    | with_reducible refine State.live_only ?_ ?_)

theorem execReadoutFrameSend_only {A : Nat} {t : Nat} {s : State} {final : State} (h : execReadoutFrameSend t s = .next final) (hA : Covers 0x1801002400000400 A) :
    Only A s final := by
  unfold execReadoutFrameSend at h
  injection h with h
  subst h
  have hS : Only A s s := Only.rfl
  repeat' (first
    | with_reducible exact hS
    | with_reducible assumption
    | (with_reducible refine Covers.testBit hA ?_; decide)
    | (with_reducible refine Covers.trans ?_ hA; decide)
    | (refine fun _ => ?_; intros)
    | with_reducible refine State.readoutFrame_only ?_ ?_
    | with_reducible refine State.live_only ?_ ?_)

theorem execReadoutApply_only {A : Nat} {s : State} {t : State} (h : execReadoutApply s = .next t) (hA : Covers 0x801000000000400 A) :
    Only A s t := by
  unfold execReadoutApply at h
  injection h with h
  subst h
  have hS : Only A s s := Only.rfl
  repeat' (first
    | with_reducible exact hS
    | with_reducible assumption
    | (with_reducible refine Covers.testBit hA ?_; decide)
    | (with_reducible refine Covers.trans ?_ hA; decide)
    | (refine fun _ => ?_; intros)
    | with_reducible refine State.rdoApply_only ?_ ?_
    | with_reducible refine State.live_only ?_ ?_)

theorem execPortConfigWrite_only {A : Nat} {k : Fin 16} {mask : BitVec 32} {value : BitVec 32} {s : State} {t : State} (h : execPortConfigWrite k mask value s = .next t) (hA : Covers 0x801000000000500 A) :
    Only A s t := by
  unfold execPortConfigWrite at h
  injection h with h
  subst h
  have hS : Only A s s := Only.rfl
  repeat' (first
    | with_reducible exact hS
    | with_reducible assumption
    | (with_reducible refine Covers.testBit hA ?_; decide)
    | (with_reducible refine Covers.trans ?_ hA; decide)
    | (refine fun _ => ?_; intros)
    | with_reducible refine State.writePortCfg_only ?_ ?_
    | with_reducible refine State.live_only ?_ ?_)

theorem execPortLinkUp_only {A : Nat} {k : Fin 16} {s : State} {t : State} (h : execPortLinkUp k s = .next t) (hA : Covers 0x800002000000400 A) :
    Only A s t := by
  unfold execPortLinkUp at h
  injection h with h
  subst h
  have hS : Only A s s := Only.rfl
  repeat' (first
    | with_reducible exact hS
    | with_reducible assumption
    | (with_reducible refine Covers.testBit hA ?_; decide)
    | (with_reducible refine Covers.trans ?_ hA; decide)
    | (refine fun _ => ?_; intros)
    | with_reducible refine State.portLinkUp_only ?_ ?_
    | with_reducible refine State.live_only ?_ ?_)

theorem execPortPcsLoss_only {A : Nat} {k : Fin 16} {s : State} {t : State} (h : execPortPcsLoss k s = .next t) (hA : Covers 0x801000000000400 A) :
    Only A s t := by
  unfold execPortPcsLoss at h
  injection h with h
  subst h
  have hS : Only A s s := Only.rfl
  repeat' (first
    | with_reducible exact hS
    | with_reducible assumption
    | (with_reducible refine Covers.testBit hA ?_; decide)
    | (with_reducible refine Covers.trans ?_ hA; decide)
    | (refine fun _ => ?_; intros)
    | with_reducible refine State.portPcsLoss_only ?_ ?_
    | with_reducible refine State.live_only ?_ ?_)

theorem execArpRequestTimer_only {A : Nat} {k : Fin 16} {s : State} {t : State} (h : execArpRequestTimer k s = .next t) (hA : Covers 0x2000000000 A) :
    Only A s t := by
  unfold execArpRequestTimer at h
  injection h with h
  subst h
  have hS : Only A s s := Only.rfl
  repeat' (first
    | with_reducible exact hS
    | with_reducible assumption
    | (with_reducible refine Covers.testBit hA ?_; decide)
    | (with_reducible refine Covers.trans ?_ hA; decide)
    | (refine fun _ => ?_; intros)
    | with_reducible refine State.arpTimer_only ?_ ?_
    | with_reducible refine State.live_only ?_ ?_)

theorem execArpTimeout_only {A : Nat} {k : Fin 16} {s : State} {t : State} (h : execArpTimeout k s = .next t) (hA : Covers 0x801000000000400 A) :
    Only A s t := by
  unfold execArpTimeout at h
  injection h with h
  subst h
  have hS : Only A s s := Only.rfl
  repeat' (first
    | with_reducible exact hS
    | with_reducible assumption
    | (with_reducible refine Covers.testBit hA ?_; decide)
    | (with_reducible refine Covers.trans ?_ hA; decide)
    | (refine fun _ => ?_; intros)
    | with_reducible refine State.arpTimeout_only ?_ ?_
    | with_reducible refine State.live_only ?_ ?_)

theorem execArpReply_only {A : Nat} {k : Fin 16} {ip : BitVec 32} {mac : BitVec 48} {target : BitVec 32} {s : State} {t : State} (h : execArpReply k ip mac target s = .next t) (hA : Covers 0x1801000000000400 A) :
    Only A s t := by
  unfold execArpReply at h
  injection h with h
  subst h
  have hS : Only A s s := Only.rfl
  repeat' (first
    | with_reducible exact hS
    | with_reducible assumption
    | (with_reducible refine Covers.testBit hA ?_; decide)
    | (with_reducible refine Covers.trans ?_ hA; decide)
    | (refine fun _ => ?_; intros)
    | with_reducible refine State.arpReply_only ?_ ?_
    | with_reducible refine State.live_only ?_ ?_)

theorem execArpRequest_only {A : Nat} {k : Fin 16} {ip : BitVec 32} {mac : BitVec 48} {target : BitVec 32} {s : State} {t : State} (h : execArpRequest k ip mac target s = .next t) (hA : Covers 0x1000002000000400 A) :
    Only A s t := by
  unfold execArpRequest at h
  injection h with h
  subst h
  have hS : Only A s s := Only.rfl
  repeat' (first
    | with_reducible exact hS
    | with_reducible assumption
    | (with_reducible refine Covers.testBit hA ?_; decide)
    | (with_reducible refine Covers.trans ?_ hA; decide)
    | (refine fun _ => ?_; intros)
    | with_reducible refine State.arpRequest_only ?_ ?_
    | with_reducible refine State.live_only ?_ ?_)

theorem execIcmpEchoRequest_only {A : Nat} {k : Fin 16} {t : Nat} {mac : BitVec 48} {ip : BitVec 32} {target : BitVec 32} {rest : List (BitVec 8)} {s : State} {final : State} (h : execIcmpEchoRequest k t mac ip target rest s = .next final) (hA : Covers 0x1001002400000400 A) :
    Only A s final := by
  unfold execIcmpEchoRequest at h
  injection h with h
  subst h
  have hS : Only A s s := Only.rfl
  repeat' (first
    | with_reducible exact hS
    | with_reducible assumption
    | (with_reducible refine Covers.testBit hA ?_; decide)
    | (with_reducible refine Covers.trans ?_ hA; decide)
    | (refine fun _ => ?_; intros)
    | with_reducible refine State.icmpEcho_only ?_ ?_
    | with_reducible refine State.live_only ?_ ?_)

theorem execPortFrameDiscard_only {A : Nat} {k : Fin 16} {bad : Nat} {s : State} {t : State} (h : execPortFrameDiscard k bad s = .next t) (hA : Covers 0x1000000000000400 A) :
    Only A s t := by
  unfold execPortFrameDiscard at h
  injection h with h
  subst h
  have hS : Only A s s := Only.rfl
  repeat' (first
    | with_reducible exact hS
    | with_reducible assumption
    | (with_reducible refine Covers.testBit hA ?_; decide)
    | (with_reducible refine Covers.trans ?_ hA; decide)
    | (refine fun _ => ?_; intros)
    | with_reducible refine State.portOther_only ?_ ?_
    | with_reducible refine State.live_only ?_ ?_)

end Sys2Proof.Machine
end

