-- ==== Sys2Proof/Laws/OnlyLedgerAction.lean ====
section
/-! SUPPORT. What each operation of Machine/LedgerAction.lean may change. -/

set_option linter.unusedTactic false
set_option linter.unreachableTactic false
set_option linter.unusedVariables false

namespace Sys2Proof.Machine

theorem State.rewriteTable_only {A : Nat} {s₀ : State} {s : State} {k : Nat} {planes : List Nat} (hS : Only A s₀ s) (hA : Covers 0x1042081000000810 A) :
    Only A s₀ (State.rewriteTable s k planes) := by
  unfold State.rewriteTable
  repeat' (first
    | with_reducible exact hS
    | with_reducible assumption
    | (with_reducible refine Covers.testBit hA ?_; decide)
    | (with_reducible refine Covers.trans ?_ hA; decide)
    | (refine fun _ => ?_; intros)
    | (extract_lets -underBinder +onlyGivenNames x; refine (fun (hx : Only A s₀ x) => ?_ : Only A s₀ x → _) ?_; (on_goal 2 => unfold x; clear x); (on_goal 1 => clear_value x; revert x; intro _ _))
    | (extract_lets -underBinder +onlyGivenNames x; unfold x; clear x)
    | (extract_lets -underBinder +onlyGivenNames x; revert x; intro _)
    | with_reducible refine Only.ite ?_ ?_
    | with_reducible refine State.updTable_only ?_ ?_
    | with_reducible refine State.tableRefused_only ?_ ?_
    | with_reducible refine State.tablePlanes_only ?_ ?_
    | with_reducible refine Only.Fst.ite ?_ ?_
    | with_reducible refine Only.Fst.unpair (by assumption)
    | split
    | with_reducible refine Only.Fst.of ?_
    | with_reducible refine Only.Fst.pair ?_
    | with_reducible refine Only.Fst.elim (by assumption) ?_)

theorem State.sendSetpoint_only {A : Nat} {s₀ : State} {s : State} {lane : Nat} {seq : Nat} {addr : Nat} {value : Nat} (hS : Only A s₀ s) (hA : Covers 0xC00000000000004 A) :
    Only A s₀ (State.sendSetpoint s lane seq addr value) := by
  unfold State.sendSetpoint
  repeat' (first
    | with_reducible exact hS
    | with_reducible assumption
    | (with_reducible refine Covers.testBit hA ?_; decide)
    | (with_reducible refine Covers.trans ?_ hA; decide)
    | (refine fun _ => ?_; intros)
    | (extract_lets -underBinder +onlyGivenNames x; refine (fun (hx : Only A s₀ x) => ?_ : Only A s₀ x → _) ?_; (on_goal 2 => unfold x; clear x); (on_goal 1 => clear_value x; revert x; intro _ _))
    | (extract_lets -underBinder +onlyGivenNames x; unfold x; clear x)
    | (extract_lets -underBinder +onlyGivenNames x; revert x; intro _)
    | with_reducible refine State.put_only ?_ ?_
    | with_reducible refine State.slowSend_only ?_ ?_
    | with_reducible refine Only.foldl _ ?_ ?_
    | with_reducible refine Only.Fst.ite ?_ ?_
    | with_reducible refine Only.Fst.unpair (by assumption)
    | with_reducible refine Only.Fst.foldl _ ?_ ?_
    | with_reducible refine Only.Fst.of ?_
    | with_reducible refine Only.Fst.pair ?_
    | with_reducible refine Only.Fst.elim (by assumption) ?_)

theorem State.updWork_only {A : Nat} {s₀ : State} {s : State} {r : Nat} {p : Nat} {f : LedWork → LedWork} (hS : Only A s₀ s) (hA : Covers 0x20000000000000 A) :
    Only A s₀ (State.updWork s r p f) := by
  unfold State.updWork
  repeat' (first
    | with_reducible exact hS
    | with_reducible assumption
    | (with_reducible refine Covers.testBit hA ?_; decide)
    | (with_reducible refine Covers.trans ?_ hA; decide)
    | (refine fun _ => ?_; intros)
    | with_reducible refine Only.ite ?_ ?_
    | with_reducible refine State.updLed_only ?_ ?_)

theorem State.startWork_only {A : Nat} {s₀ : State} {s : State} {r : Nat} {p : Nat} (hS : Only A s₀ s) (hA : Covers 0x1062081000000810 A) :
    Only A s₀ (State.startWork s r p) := by
  unfold State.startWork
  repeat' (first
    | with_reducible exact hS
    | with_reducible assumption
    | (with_reducible refine Covers.testBit hA ?_; decide)
    | (with_reducible refine Covers.trans ?_ hA; decide)
    | (refine fun _ => ?_; intros)
    | (extract_lets -underBinder +onlyGivenNames x; refine (fun (hx : Only A s₀ x) => ?_ : Only A s₀ x → _) ?_; (on_goal 2 => unfold x; clear x); (on_goal 1 => clear_value x; revert x; intro _ _))
    | (extract_lets -underBinder +onlyGivenNames x; unfold x; clear x)
    | (extract_lets -underBinder +onlyGivenNames x; revert x; intro _)
    | with_reducible refine Only.ite ?_ ?_
    | with_reducible refine State.updLed_only ?_ ?_
    | with_reducible refine State.updRec_only ?_ ?_
    | with_reducible refine State.rewriteTable_only ?_ ?_
    | with_reducible refine State.updWork_only ?_ ?_
    | with_reducible refine Only.foldl _ ?_ ?_
    | with_reducible refine Only.Fst.ite ?_ ?_
    | with_reducible refine Only.Fst.unpair (by assumption)
    | with_reducible refine Only.Fst.foldl _ ?_ ?_
    | with_reducible refine Only.Fst.of ?_
    | with_reducible refine Only.Fst.pair ?_
    | with_reducible refine Only.Fst.elim (by assumption) ?_)

theorem State.takeAcks_only {A : Nat} {s₀ : State} {s : State} {r : Nat} {p : Nat} (hS : Only A s₀ s) (hA : Covers 0x20000000000004 A) :
    Only A s₀ (State.takeAcks s r p) := by
  unfold State.takeAcks
  repeat' (first
    | with_reducible exact hS
    | with_reducible assumption
    | (with_reducible refine Covers.testBit hA ?_; decide)
    | (with_reducible refine Covers.trans ?_ hA; decide)
    | (refine fun _ => ?_; intros)
    | (extract_lets -underBinder +onlyGivenNames x; refine (fun (hx : Only A s₀ x) => ?_ : Only A s₀ x → _) ?_; (on_goal 2 => unfold x; clear x); (on_goal 1 => clear_value x; revert x; intro _ _))
    | (extract_lets -underBinder +onlyGivenNames x; unfold x; clear x)
    | (extract_lets -underBinder +onlyGivenNames x; revert x; intro _)
    | with_reducible refine Only.ite ?_ ?_
    | with_reducible refine State.put_only ?_ ?_
    | with_reducible refine State.updWork_only ?_ ?_
    | with_reducible refine Only.foldl _ ?_ ?_
    | with_reducible refine Only.Fst.ite ?_ ?_
    | with_reducible refine Only.Fst.unpair (by assumption)
    | with_reducible refine Only.Fst.foldl _ ?_ ?_
    | split
    | with_reducible refine Only.Fst.of ?_
    | with_reducible refine Only.Fst.pair ?_
    | with_reducible refine Only.Fst.elim (by assumption) ?_
    | (refine fun _ => ?_))

theorem State.sendDue_only {A : Nat} {s₀ : State} {s : State} {r : Nat} {p : Nat} {lane : Nat} {seq : Nat} (hS : Only A s₀ s) (hA : Covers 0xC20200000000004 A) :
    Only A s₀ (State.sendDue s r p lane seq) := by
  unfold State.sendDue
  repeat' (first
    | with_reducible exact hS
    | with_reducible assumption
    | (with_reducible refine Covers.testBit hA ?_; decide)
    | (with_reducible refine Covers.trans ?_ hA; decide)
    | (refine fun _ => ?_; intros)
    | with_reducible refine Only.ite ?_ ?_
    | with_reducible refine State.sendSetpoint_only ?_ ?_
    | with_reducible refine State.updWork_only ?_ ?_
    | split
    | (refine fun _ => ?_))

theorem State.ledgerAction_only {A : Nat} {s₀ : State} {s : State} {r : Nat} {p : Nat} {lane : Nat} {seq : Nat} (hS : Only A s₀ s) (hA : Covers 0x1C62281000000814 A) :
    Only A s₀ (State.ledgerAction s r p lane seq) := by
  unfold State.ledgerAction
  repeat' (first
    | with_reducible exact hS
    | with_reducible assumption
    | (with_reducible refine Covers.testBit hA ?_; decide)
    | (with_reducible refine Covers.trans ?_ hA; decide)
    | (refine fun _ => ?_; intros)
    | (extract_lets -underBinder +onlyGivenNames x; refine (fun (hx : Only A s₀ x) => ?_ : Only A s₀ x → _) ?_; (on_goal 2 => unfold x; clear x); (on_goal 1 => clear_value x; revert x; intro _ _))
    | (extract_lets -underBinder +onlyGivenNames x; unfold x; clear x)
    | (extract_lets -underBinder +onlyGivenNames x; revert x; intro _)
    | with_reducible refine Only.ite ?_ ?_
    | with_reducible refine State.startWork_only ?_ ?_
    | with_reducible refine State.takeAcks_only ?_ ?_
    | with_reducible refine State.sendDue_only ?_ ?_
    | split
    | (refine fun _ => ?_))

end Sys2Proof.Machine
end

