-- ==== Sys2Proof/Laws/ExecRowsManagement.lean ====
section
/-! SUPPORT. What each command of Machine/RowsManagement.lean may change. -/

set_option linter.unusedTactic false
set_option linter.unreachableTactic false
set_option linter.unusedVariables false

namespace Sys2Proof.Machine

theorem execUsdoRequest_only {A : Nat} {index : Fin 65536} {sub : Fin 256} {op : UsdoOp} {s : State} {t : State} (h : execUsdoRequest index sub op s = .next t) (hA : Covers 0x1FFFFFFC007FFFFF A) :
    Only A s t := by
  unfold execUsdoRequest at h
  injection h with h
  subst h
  have hS : Only A s s := Only.rfl
  repeat' (first
    | with_reducible exact hS
    | with_reducible assumption
    | (with_reducible refine Covers.testBit hA ?_; decide)
    | (with_reducible refine Covers.trans ?_ hA; decide)
    | (refine fun _ => ?_; intros)
    | with_reducible refine Only.ite ?_ ?_
    | with_reducible refine State.request_only ?_ ?_
    | with_reducible refine State.alive_only ?_ ?_
    | with_reducible refine State.enqueue_only ?_ ?_
    | exact Only.Opt.none
    | with_reducible refine Only.Opt.some ?_
    | with_reducible refine Only.Opt.ite ?_ ?_
    | with_reducible refine Only.Opt.getD ?_ ?_
    | with_reducible refine Only.Opt.map ?_
    | with_reducible refine Only.Opt.elim (by assumption) ?_)

theorem execUsdoSegment_only {A : Nat} {op : UsdoSegment} {s : State} {t : State} (h : execUsdoSegment op s = .next t) (hA : Covers 0x1FFFFFFC007FFFFF A) :
    Only A s t := by
  unfold execUsdoSegment at h
  injection h with h
  subst h
  have hS : Only A s s := Only.rfl
  repeat' (first
    | with_reducible exact hS
    | with_reducible assumption
    | (with_reducible refine Covers.testBit hA ?_; decide)
    | (with_reducible refine Covers.trans ?_ hA; decide)
    | (refine fun _ => ?_; intros)
    | with_reducible refine Only.ite ?_ ?_
    | with_reducible refine State.alive_only ?_ ?_
    | with_reducible refine State.enqueue_only ?_ ?_)

theorem execUsdoAbort_only {A : Nat} {index : Fin 65536} {sub : Fin 256} {s : State} {t : State} (h : execUsdoAbort index sub s = .next t) (hA : Covers 0x1840201000008000 A) :
    Only A s t := by
  unfold execUsdoAbort at h
  injection h with h
  subst h
  have hS : Only A s s := Only.rfl
  repeat' (first
    | with_reducible exact hS
    | with_reducible assumption
    | (with_reducible refine Covers.testBit hA ?_; decide)
    | (with_reducible refine Covers.trans ?_ hA; decide)
    | (refine fun _ => ?_; intros)
    | with_reducible refine Only.ite ?_ ?_
    | with_reducible refine State.alive_only ?_ ?_
    | with_reducible refine State.usdoAbort_only ?_ ?_)

theorem execUsdoTimeout_only {A : Nat} {s : State} {t : State} (h : execUsdoTimeout s = .next t) (hA : Covers 0x1840203000008000 A) :
    Only A s t := by
  unfold execUsdoTimeout at h
  injection h with h
  subst h
  have hS : Only A s s := Only.rfl
  repeat' (first
    | with_reducible exact hS
    | with_reducible assumption
    | (with_reducible refine Covers.testBit hA ?_; decide)
    | (with_reducible refine Covers.trans ?_ hA; decide)
    | (refine fun _ => ?_; intros)
    | with_reducible refine State.alive_only ?_ ?_
    | with_reducible refine State.usdoTimeout_only ?_ ?_)

theorem execRpdo_only {A : Nat} {n : Fin 4} {data : List (BitVec 8)} {s : State} {t : State} (h : execRpdo n data s = .next t) (hA : Covers 0x1FFFFFFC007FFFFF A) :
    Only A s t := by
  unfold execRpdo at h
  injection h with h
  subst h
  have hS : Only A s s := Only.rfl
  repeat' (first
    | with_reducible exact hS
    | with_reducible assumption
    | (with_reducible refine Covers.testBit hA ?_; decide)
    | (with_reducible refine Covers.trans ?_ hA; decide)
    | (refine fun _ => ?_; intros)
    | with_reducible refine Only.ite ?_ ?_
    | with_reducible refine State.alive_only ?_ ?_
    | with_reducible refine State.enqueue_only ?_ ?_)

theorem execTpdoEventTimer_only {A : Nat} {n : Fin 4} {t : Nat} {s : State} {final : State} (h : execTpdoEventTimer n t s = .next final) (hA : Covers 0x1FFFFFFC007FFFFF A) :
    Only A s final := by
  unfold execTpdoEventTimer at h
  injection h with h
  subst h
  have hS : Only A s s := Only.rfl
  repeat' (first
    | with_reducible exact hS
    | with_reducible assumption
    | (with_reducible refine Covers.testBit hA ?_; decide)
    | (with_reducible refine Covers.trans ?_ hA; decide)
    | (refine fun _ => ?_; intros)
    | with_reducible refine State.alive_only ?_ ?_
    | with_reducible refine State.tpdoTimer_only ?_ ?_)

theorem execHeartbeat_only {A : Nat} {s : State} {t : State} (h : execHeartbeat s = .next t) (hA : Covers 0x2000000000 A) :
    Only A s t := by
  unfold execHeartbeat at h
  injection h with h
  subst h
  have hS : Only A s s := Only.rfl
  repeat' (first
    | with_reducible exact hS
    | with_reducible assumption
    | (with_reducible refine Covers.testBit hA ?_; decide)
    | (with_reducible refine Covers.trans ?_ hA; decide)
    | (refine fun _ => ?_; intros)
    | with_reducible refine State.alive_only ?_ ?_
    | with_reducible refine State.heartbeat_only ?_ ?_)

theorem execNmtStart_only {A : Nat} {s : State} {t : State} (h : execNmtStart s = .next t) (hA : Covers 0x1FFFFFFC007FFFFF A) :
    Only A s t := by
  unfold execNmtStart at h
  injection h with h
  subst h
  have hS : Only A s s := Only.rfl
  repeat' (first
    | with_reducible exact hS
    | with_reducible assumption
    | (with_reducible refine Covers.testBit hA ?_; decide)
    | (with_reducible refine Covers.trans ?_ hA; decide)
    | (refine fun _ => ?_; intros)
    | with_reducible refine State.alive_only ?_ ?_
    | with_reducible refine State.onNmt_only ?_ ?_)

theorem execNmtStop_only {A : Nat} {s : State} {t : State} (h : execNmtStop s = .next t) (hA : Covers 0x1FFFFFFC007FFFFF A) :
    Only A s t := by
  unfold execNmtStop at h
  injection h with h
  subst h
  have hS : Only A s s := Only.rfl
  repeat' (first
    | with_reducible exact hS
    | with_reducible assumption
    | (with_reducible refine Covers.testBit hA ?_; decide)
    | (with_reducible refine Covers.trans ?_ hA; decide)
    | (refine fun _ => ?_; intros)
    | with_reducible refine State.alive_only ?_ ?_
    | with_reducible refine State.onNmt_only ?_ ?_)

theorem execNmtEnterPreoperational_only {A : Nat} {s : State} {t : State} (h : execNmtEnterPreoperational s = .next t) (hA : Covers 0x1FFFFFFC007FFFFF A) :
    Only A s t := by
  unfold execNmtEnterPreoperational at h
  injection h with h
  subst h
  have hS : Only A s s := Only.rfl
  repeat' (first
    | with_reducible exact hS
    | with_reducible assumption
    | (with_reducible refine Covers.testBit hA ?_; decide)
    | (with_reducible refine Covers.trans ?_ hA; decide)
    | (refine fun _ => ?_; intros)
    | with_reducible refine State.alive_only ?_ ?_
    | with_reducible refine State.onNmt_only ?_ ?_)

theorem execNmtResetNode_only {A : Nat} {s : State} {t : State} (h : execNmtResetNode s = .next t) (hA : Covers 0x1FFFFFFC007FFFFF A) :
    Only A s t := by
  unfold execNmtResetNode at h
  injection h with h
  subst h
  have hS : Only A s s := Only.rfl
  repeat' (first
    | with_reducible exact hS
    | with_reducible assumption
    | (with_reducible refine Covers.testBit hA ?_; decide)
    | (with_reducible refine Covers.trans ?_ hA; decide)
    | (refine fun _ => ?_; intros)
    | with_reducible refine State.alive_only ?_ ?_
    | with_reducible refine State.onNmt_only ?_ ?_)

theorem execNmtResetCommunication_only {A : Nat} {s : State} {t : State} (h : execNmtResetCommunication s = .next t) (hA : Covers 0x1FFFFFFC007FFFFF A) :
    Only A s t := by
  unfold execNmtResetCommunication at h
  injection h with h
  subst h
  have hS : Only A s s := Only.rfl
  repeat' (first
    | with_reducible exact hS
    | with_reducible assumption
    | (with_reducible refine Covers.testBit hA ?_; decide)
    | (with_reducible refine Covers.trans ?_ hA; decide)
    | (refine fun _ => ?_; intros)
    | with_reducible refine State.alive_only ?_ ?_
    | with_reducible refine State.onNmt_only ?_ ?_)

theorem execCanEnableWrite_only {A : Nat} {s : State} {t : State} (h : execCanEnableWrite s = .next t) (hA : Covers 0x1840201000008000 A) :
    Only A s t := by
  unfold execCanEnableWrite at h
  injection h with h
  subst h
  have hS : Only A s s := Only.rfl
  repeat' (first
    | with_reducible exact hS
    | with_reducible assumption
    | (with_reducible refine Covers.testBit hA ?_; decide)
    | (with_reducible refine Covers.trans ?_ hA; decide)
    | (refine fun _ => ?_; intros)
    | with_reducible refine State.live_only ?_ ?_
    | with_reducible refine State.canEnable_only ?_ ?_)

theorem execInitialisationDone_only {A : Nat} {s : State} {t : State} (h : execInitialisationDone s = .next t) (hA : Covers 0x1FFFFFFC007FFFFF A) :
    Only A s t := by
  unfold execInitialisationDone at h
  injection h with h
  subst h
  have hS : Only A s s := Only.rfl
  repeat' (first
    | with_reducible exact hS
    | with_reducible assumption
    | (with_reducible refine Covers.testBit hA ?_; decide)
    | (with_reducible refine Covers.trans ?_ hA; decide)
    | (refine fun _ => ?_; intros)
    | with_reducible refine State.alive_only ?_ ?_
    | with_reducible refine State.initialisationDone_only ?_ ?_)

theorem execCanBusOffRecovery_only {A : Nat} {s : State} {t : State} (h : execCanBusOffRecovery s = .next t) (hA : Covers 0x800000000008000 A) :
    Only A s t := by
  unfold execCanBusOffRecovery at h
  injection h with h
  subst h
  have hS : Only A s s := Only.rfl
  repeat' (first
    | with_reducible exact hS
    | with_reducible assumption
    | (with_reducible refine Covers.testBit hA ?_; decide)
    | (with_reducible refine Covers.trans ?_ hA; decide)
    | (refine fun _ => ?_; intros)
    | with_reducible refine State.alive_only ?_ ?_
    | with_reducible refine State.canRecovery_only ?_ ?_)

theorem execCanBusStateChange_only {A : Nat} {bus : Fin 3} {tec : Fin 512} {rec : Fin 512} {s : State} {t : State} (h : execCanBusStateChange bus tec rec s = .next t) (hA : Covers 0x800000000008000 A) :
    Only A s t := by
  unfold execCanBusStateChange at h
  injection h with h
  subst h
  have hS : Only A s s := Only.rfl
  repeat' (first
    | with_reducible exact hS
    | with_reducible assumption
    | (with_reducible refine Covers.testBit hA ?_; decide)
    | (with_reducible refine Covers.trans ?_ hA; decide)
    | (refine fun _ => ?_; intros)
    | with_reducible refine State.alive_only ?_ ?_
    | with_reducible refine State.canBus_only ?_ ?_)

theorem execLanternDatagram_only {A : Nat} {dest : Option (BitVec 32 × BitVec 16)} {ip : BitVec 32} {port : BitVec 16} {data : List (BitVec 8)} {s : State} {t : State} (h : execLanternDatagram dest ip port data s = .next t) (hA : Covers 0x1FFFFFFC007FFFFF A) :
    Only A s t := by
  unfold execLanternDatagram at h
  injection h with h
  subst h
  have hS : Only A s s := Only.rfl
  repeat' (first
    | with_reducible exact hS
    | with_reducible assumption
    | (with_reducible refine Covers.testBit hA ?_; decide)
    | (with_reducible refine Covers.trans ?_ hA; decide)
    | (refine fun _ => ?_; intros)
    | with_reducible refine State.live_only ?_ ?_
    | with_reducible refine State.lanternDatagram_only ?_ ?_)

theorem execLanternRead_only {A : Nat} {s : State} {t : State} (h : execLanternRead s = .next t) (hA : Covers 0x1FFFFFFC007FFFFF A) :
    Only A s t := by
  unfold execLanternRead at h
  injection h with h
  subst h
  have hS : Only A s s := Only.rfl
  repeat' (first
    | with_reducible exact hS
    | with_reducible assumption
    | (with_reducible refine Covers.testBit hA ?_; decide)
    | (with_reducible refine Covers.trans ?_ hA; decide)
    | (refine fun _ => ?_; intros)
    | with_reducible refine State.live_only ?_ ?_
    | with_reducible refine State.lanRead_only ?_ ?_)

theorem execLanternWrite_only {A : Nat} {s : State} {t : State} (h : execLanternWrite s = .next t) (hA : Covers 0x1FFFFFFC007FFFFF A) :
    Only A s t := by
  unfold execLanternWrite at h
  injection h with h
  subst h
  have hS : Only A s s := Only.rfl
  repeat' (first
    | with_reducible exact hS
    | with_reducible assumption
    | (with_reducible refine Covers.testBit hA ?_; decide)
    | (with_reducible refine Covers.trans ?_ hA; decide)
    | (refine fun _ => ?_; intros)
    | with_reducible refine State.live_only ?_ ?_
    | with_reducible refine State.lanWrite_only ?_ ?_)

theorem execDomainBegin_only {A : Nat} {s : State} {t : State} (h : execDomainBegin s = .next t) (hA : Covers 0x1FFFFFFC007FFFFF A) :
    Only A s t := by
  unfold execDomainBegin at h
  injection h with h
  subst h
  have hS : Only A s s := Only.rfl
  repeat' (first
    | with_reducible exact hS
    | with_reducible assumption
    | (with_reducible refine Covers.testBit hA ?_; decide)
    | (with_reducible refine Covers.trans ?_ hA; decide)
    | (refine fun _ => ?_; intros)
    | with_reducible refine State.live_only ?_ ?_
    | with_reducible refine State.lanBegin_only ?_ ?_)

theorem execDomainData_only {A : Nat} {s : State} {t : State} (h : execDomainData s = .next t) (hA : Covers 0x1FFFFFFC007FFFFF A) :
    Only A s t := by
  unfold execDomainData at h
  injection h with h
  subst h
  have hS : Only A s s := Only.rfl
  repeat' (first
    | with_reducible exact hS
    | with_reducible assumption
    | (with_reducible refine Covers.testBit hA ?_; decide)
    | (with_reducible refine Covers.trans ?_ hA; decide)
    | (refine fun _ => ?_; intros)
    | with_reducible refine State.live_only ?_ ?_
    | with_reducible refine State.lanData_only ?_ ?_)

theorem execDomainEnd_only {A : Nat} {s : State} {t : State} (h : execDomainEnd s = .next t) (hA : Covers 0x1FFFFFFC007FFFFF A) :
    Only A s t := by
  unfold execDomainEnd at h
  injection h with h
  subst h
  have hS : Only A s s := Only.rfl
  repeat' (first
    | with_reducible exact hS
    | with_reducible assumption
    | (with_reducible refine Covers.testBit hA ?_; decide)
    | (with_reducible refine Covers.trans ?_ hA; decide)
    | (refine fun _ => ?_; intros)
    | with_reducible refine State.live_only ?_ ?_
    | with_reducible refine State.lanEnd_only ?_ ?_)

theorem execDomainRead_only {A : Nat} {s : State} {t : State} (h : execDomainRead s = .next t) (hA : Covers 0x1FFFFFFC007FFFFF A) :
    Only A s t := by
  unfold execDomainRead at h
  injection h with h
  subst h
  have hS : Only A s s := Only.rfl
  repeat' (first
    | with_reducible exact hS
    | with_reducible assumption
    | (with_reducible refine Covers.testBit hA ?_; decide)
    | (with_reducible refine Covers.trans ?_ hA; decide)
    | (refine fun _ => ?_; intros)
    | with_reducible refine State.live_only ?_ ?_
    | with_reducible refine State.lanDomainRead_only ?_ ?_)

theorem execLanternAbort_only {A : Nat} {s : State} {t : State} (h : execLanternAbort s = .next t) (hA : Covers 0x1FFFFFFC007FFFFF A) :
    Only A s t := by
  unfold execLanternAbort at h
  injection h with h
  subst h
  have hS : Only A s s := Only.rfl
  repeat' (first
    | with_reducible exact hS
    | with_reducible assumption
    | (with_reducible refine Covers.testBit hA ?_; decide)
    | (with_reducible refine Covers.trans ?_ hA; decide)
    | (refine fun _ => ?_; intros)
    | with_reducible refine State.live_only ?_ ?_
    | with_reducible refine State.lanAbort_only ?_ ?_)

theorem execDomainTimeout_only {A : Nat} {s : State} {t : State} (h : execDomainTimeout s = .next t) (hA : Covers 0x1840201000008000 A) :
    Only A s t := by
  unfold execDomainTimeout at h
  injection h with h
  subst h
  have hS : Only A s s := Only.rfl
  repeat' (first
    | with_reducible exact hS
    | with_reducible assumption
    | (with_reducible refine Covers.testBit hA ?_; decide)
    | (with_reducible refine Covers.trans ?_ hA; decide)
    | (refine fun _ => ?_; intros)
    | with_reducible refine State.live_only ?_ ?_
    | with_reducible refine State.lanTimeout_only ?_ ?_)

theorem execDomainResult_only {A : Nat} {s : State} {t : State} (h : execDomainResult s = .next t) (hA : Covers 0x1FFFFFFC007FFFFF A) :
    Only A s t := by
  unfold execDomainResult at h
  injection h with h
  subst h
  have hS : Only A s s := Only.rfl
  repeat' (first
    | with_reducible exact hS
    | with_reducible assumption
    | (with_reducible refine Covers.testBit hA ?_; decide)
    | (with_reducible refine Covers.trans ?_ hA; decide)
    | (refine fun _ => ?_; intros)
    | with_reducible refine State.live_only ?_ ?_
    | with_reducible refine State.domainResult_only ?_ ?_)

theorem execRegisterWindowAccess_only {A : Nat} {client : Option (BitVec 32)} {w : Fin 256} {data : Option (BitVec 32)} {s : State} {t : State} (h : execRegisterWindowAccess client w data s = .next t) (hA : Covers 0x1FFFFFFC007FFFFF A) :
    Only A s t := by
  unfold execRegisterWindowAccess at h
  injection h with h
  subst h
  have hS : Only A s s := Only.rfl
  repeat' (first
    | with_reducible exact hS
    | with_reducible assumption
    | (with_reducible refine Covers.testBit hA ?_; decide)
    | (with_reducible refine Covers.trans ?_ hA; decide)
    | (refine fun _ => ?_; intros)
    | with_reducible refine State.live_only ?_ ?_
    | with_reducible refine State.windowCommand_only ?_ ?_)

theorem execMgtArp_only {A : Nat} {ip : BitVec 32} {mac : BitVec 48} {target : BitVec 32} {s : State} {t : State} (h : execMgtArp ip mac target s = .next t) (hA : Covers 0x1000002000008000 A) :
    Only A s t := by
  unfold execMgtArp at h
  injection h with h
  subst h
  have hS : Only A s s := Only.rfl
  repeat' (first
    | with_reducible exact hS
    | with_reducible assumption
    | (with_reducible refine Covers.testBit hA ?_; decide)
    | (with_reducible refine Covers.trans ?_ hA; decide)
    | (refine fun _ => ?_; intros)
    | with_reducible refine State.live_only ?_ ?_
    | with_reducible refine State.mgtArp_only ?_ ?_)

theorem execMgtIcmpEcho_only {A : Nat} {t : Nat} {mac : BitVec 48} {ip : BitVec 32} {target : BitVec 32} {rest : List (BitVec 8)} {s : State} {final : State} (h : execMgtIcmpEcho t mac ip target rest s = .next final) (hA : Covers 0x1040003400008000 A) :
    Only A s final := by
  unfold execMgtIcmpEcho at h
  injection h with h
  subst h
  have hS : Only A s s := Only.rfl
  repeat' (first
    | with_reducible exact hS
    | with_reducible assumption
    | (with_reducible refine Covers.testBit hA ?_; decide)
    | (with_reducible refine Covers.trans ?_ hA; decide)
    | (refine fun _ => ?_; intros)
    | with_reducible refine State.live_only ?_ ?_
    | with_reducible refine State.mgtEcho_only ?_ ?_)

theorem execMgtBlockLock_only {A : Nat} {locked : Bool} {s : State} {t : State} (h : execMgtBlockLock locked s = .next t) (hA : Covers 0x8000 A) :
    Only A s t := by
  unfold execMgtBlockLock at h
  injection h with h
  subst h
  have hS : Only A s s := Only.rfl
  repeat' (first
    | with_reducible exact hS
    | with_reducible assumption
    | (with_reducible refine Covers.testBit hA ?_; decide)
    | (with_reducible refine Covers.trans ?_ hA; decide)
    | (refine fun _ => ?_; intros)
    | with_reducible refine State.live_only ?_ ?_
    | with_reducible refine State.mgtLock_only ?_ ?_)

theorem execJournalMirror_only {A : Nat} {ok : Bool} {s : State} {t : State} (h : execJournalMirror ok s = .next t) (hA : Covers 0x900000000088000 A) :
    Only A s t := by
  unfold execJournalMirror at h
  injection h with h
  subst h
  have hS : Only A s s := Only.rfl
  repeat' (first
    | with_reducible exact hS
    | with_reducible assumption
    | (with_reducible refine Covers.testBit hA ?_; decide)
    | (with_reducible refine Covers.trans ?_ hA; decide)
    | (refine fun _ => ?_; intros)
    | with_reducible refine State.journalMirror_only ?_ ?_
    | with_reducible refine State.alive_only ?_ ?_)

theorem execTempSample_only {A : Nat} {t : Nat} {temps : List Int} {lows : List Nat} {hbm0 : BitVec 8} {hbm1 : BitVec 8} {s : State} {final : State} (h : execTempSample t temps lows hbm0 hbm1 s = .next final) (hA : Covers 0x10000400010201 A) :
    Only A s final := by
  unfold execTempSample at h
  injection h with h
  subst h
  have hS : Only A s s := Only.rfl
  repeat' (first
    | with_reducible exact hS
    | with_reducible assumption
    | (with_reducible refine Covers.testBit hA ?_; decide)
    | (with_reducible refine Covers.trans ?_ hA; decide)
    | (refine fun _ => ?_; intros)
    | with_reducible refine State.tempSample_only ?_ ?_
    | with_reducible refine State.live_only ?_ ?_)

theorem execTempShiftHeld_only {A : Nat} {i : Fin 16} {s : State} {t : State} (h : execTempShiftHeld i s = .next t) (hA : Covers 0x10000000010000 A) :
    Only A s t := by
  unfold execTempShiftHeld at h
  injection h with h
  subst h
  have hS : Only A s s := Only.rfl
  repeat' (first
    | with_reducible exact hS
    | with_reducible assumption
    | (with_reducible refine Covers.testBit hA ?_; decide)
    | (with_reducible refine Covers.trans ?_ hA; decide)
    | (refine fun _ => ?_; intros)
    | with_reducible refine State.tempShiftHeld_only ?_ ?_
    | with_reducible refine State.live_only ?_ ?_)

theorem execReplanIntervalExpiry_only {A : Nat} {s : State} {t : State} (h : execReplanIntervalExpiry s = .next t) (hA : Covers 0x10000000010000 A) :
    Only A s t := by
  unfold execReplanIntervalExpiry at h
  injection h with h
  subst h
  have hS : Only A s s := Only.rfl
  repeat' (first
    | with_reducible exact hS
    | with_reducible assumption
    | (with_reducible refine Covers.testBit hA ?_; decide)
    | (with_reducible refine Covers.trans ?_ hA; decide)
    | (refine fun _ => ?_; intros)
    | with_reducible refine State.tarTrigger_only ?_ ?_
    | with_reducible refine State.live_only ?_ ?_)

theorem execReplan_only {A : Nat} {s : State} {t : State} (h : execReplan s = .next t) (hA : Covers 0x10000000010000 A) :
    Only A s t := by
  unfold execReplan at h
  injection h with h
  subst h
  have hS : Only A s s := Only.rfl
  repeat' (first
    | with_reducible exact hS
    | with_reducible assumption
    | (with_reducible refine Covers.testBit hA ?_; decide)
    | (with_reducible refine Covers.trans ?_ hA; decide)
    | (refine fun _ => ?_; intros)
    | with_reducible refine State.tarTrigger_only ?_ ?_
    | with_reducible refine State.live_only ?_ ?_)

theorem execReplanningStart_only {A : Nat} {s : State} {t : State} (h : execReplanningStart s = .next t) (hA : Covers 0x1810000000010004 A) :
    Only A s t := by
  unfold execReplanningStart at h
  injection h with h
  subst h
  have hS : Only A s s := Only.rfl
  repeat' (first
    | with_reducible exact hS
    | with_reducible assumption
    | (with_reducible refine Covers.testBit hA ?_; decide)
    | (with_reducible refine Covers.trans ?_ hA; decide)
    | (refine fun _ => ?_; intros)
    | with_reducible refine State.replanStart_only ?_ ?_
    | with_reducible refine State.live_only ?_ ?_)

theorem execSensorsSampled_only {A : Nat} {t : Nat} {reads : List SensorRead} {s : State} {final : State} (h : execSensorsSampled t reads s = .next final) (hA : Covers 0x812303400010060 A) :
    Only A s final := by
  unfold execSensorsSampled at h
  injection h with h
  subst h
  have hS : Only A s s := Only.rfl
  repeat' (first
    | with_reducible exact hS
    | with_reducible assumption
    | (with_reducible refine Covers.testBit hA ?_; decide)
    | (with_reducible refine Covers.trans ?_ hA; decide)
    | (refine fun _ => ?_; intros)
    | with_reducible refine State.sensorsSampled_only ?_ ?_
    | with_reducible refine State.live_only ?_ ?_)

theorem execAvsComplete_only {A : Nat} {means : List Nat} {s : State} {t : State} (h : execAvsComplete means s = .next t) (hA : Covers 0x1010000000010000 A) :
    Only A s t := by
  unfold execAvsComplete at h
  injection h with h
  subst h
  have hS : Only A s s := Only.rfl
  repeat' (first
    | with_reducible exact hS
    | with_reducible assumption
    | (with_reducible refine Covers.testBit hA ?_; decide)
    | (with_reducible refine Covers.trans ?_ hA; decide)
    | (refine fun _ => ?_; intros)
    | with_reducible refine State.avsComplete_only ?_ ?_
    | with_reducible refine State.live_only ?_ ?_)

theorem execAvsSettleExpiry_only {A : Nat} {s : State} {t : State} (h : execAvsSettleExpiry s = .next t) (hA : Covers 0x12200000000040 A) :
    Only A s t := by
  unfold execAvsSettleExpiry at h
  injection h with h
  subst h
  have hS : Only A s s := Only.rfl
  repeat' (first
    | with_reducible exact hS
    | with_reducible assumption
    | (with_reducible refine Covers.testBit hA ?_; decide)
    | (with_reducible refine Covers.trans ?_ hA; decide)
    | (refine fun _ => ?_; intros)
    | with_reducible refine State.avsSettled_only ?_ ?_
    | with_reducible refine State.live_only ?_ ?_)

theorem execAvsFail_only {A : Nat} {s : State} {t : State} (h : execAvsFail s = .next t) (hA : Covers 0x1810000000010000 A) :
    Only A s t := by
  unfold execAvsFail at h
  injection h with h
  subst h
  have hS : Only A s s := Only.rfl
  repeat' (first
    | with_reducible exact hS
    | with_reducible assumption
    | (with_reducible refine Covers.testBit hA ?_; decide)
    | (with_reducible refine Covers.trans ?_ hA; decide)
    | (refine fun _ => ?_; intros)
    | with_reducible refine State.avsFail_only ?_ ?_
    | with_reducible refine State.live_only ?_ ?_)

theorem execUnretire_only {A : Nat} {i : Fin 16} {s : State} {t : State} (h : execUnretire i s = .next t) (hA : Covers 0x10000 A) :
    Only A s t := by
  unfold execUnretire at h
  injection h with h
  subst h
  have hS : Only A s s := Only.rfl
  repeat' (first
    | with_reducible exact hS
    | with_reducible assumption
    | (with_reducible refine Covers.testBit hA ?_; decide)
    | (with_reducible refine Covers.trans ?_ hA; decide)
    | (refine fun _ => ?_; intros)
    | with_reducible refine State.unretire_only ?_ ?_
    | with_reducible refine State.live_only ?_ ?_)

theorem execHistoryPoint_only {A : Nat} {t : Nat} {s : State} {final : State} (h : execHistoryPoint t s = .next final) (hA : Covers 0xC12000400010000 A) :
    Only A s final := by
  unfold execHistoryPoint at h
  injection h with h
  subst h
  have hS : Only A s s := Only.rfl
  repeat' (first
    | with_reducible exact hS
    | with_reducible assumption
    | (with_reducible refine Covers.testBit hA ?_; decide)
    | (with_reducible refine Covers.trans ?_ hA; decide)
    | (refine fun _ => ?_; intros)
    | with_reducible refine State.historyPoint_only ?_ ?_
    | with_reducible refine State.live_only ?_ ?_)

theorem execPenaltyDecay_only {A : Nat} {i : Fin 16} {s : State} {t : State} (h : execPenaltyDecay i s = .next t) (hA : Covers 0x10000 A) :
    Only A s t := by
  unfold execPenaltyDecay at h
  injection h with h
  subst h
  have hS : Only A s s := Only.rfl
  repeat' (first
    | with_reducible exact hS
    | with_reducible assumption
    | (with_reducible refine Covers.testBit hA ?_; decide)
    | (with_reducible refine Covers.trans ?_ hA; decide)
    | (refine fun _ => ?_; intros)
    | with_reducible refine State.penaltyDecay_only ?_ ?_
    | with_reducible refine State.live_only ?_ ?_)

theorem execLedgerTick_only {A : Nat} {t : Nat} {s : State} {final : State} (h : execLedgerTick t s = .next final) (hA : Covers 0x18202404000200C0 A) :
    Only A s final := by
  unfold execLedgerTick at h
  injection h with h
  subst h
  have hS : Only A s s := Only.rfl
  repeat' (first
    | with_reducible exact hS
    | with_reducible assumption
    | (with_reducible refine Covers.testBit hA ?_; decide)
    | (with_reducible refine Covers.trans ?_ hA; decide)
    | (refine fun _ => ?_; intros)
    | with_reducible refine State.ledgerTick_only ?_ ?_
    | with_reducible refine State.live_only ?_ ?_)

theorem execProbationExpiry_only {A : Nat} {r : Fin 1024} {s : State} {t : State} (h : execProbationExpiry r s = .next t) (hA : Covers 0x820000000020000 A) :
    Only A s t := by
  unfold execProbationExpiry at h
  injection h with h
  subst h
  have hS : Only A s s := Only.rfl
  repeat' (first
    | with_reducible exact hS
    | with_reducible assumption
    | (with_reducible refine Covers.testBit hA ?_; decide)
    | (with_reducible refine Covers.trans ?_ hA; decide)
    | (refine fun _ => ?_; intros)
    | with_reducible refine State.probationExpiry_only ?_ ?_
    | with_reducible refine State.live_only ?_ ?_)

theorem execHitAdd_only {A : Nat} {ini : Fin 41} {hi : BitVec 32} {s : State} {t : State} (h : execHitAdd ini hi s = .next t) (hA : Covers 0x1820000000020000 A) :
    Only A s t := by
  unfold execHitAdd at h
  injection h with h
  subst h
  have hS : Only A s s := Only.rfl
  repeat' (first
    | with_reducible exact hS
    | with_reducible assumption
    | (with_reducible refine Covers.testBit hA ?_; decide)
    | (with_reducible refine Covers.trans ?_ hA; decide)
    | (refine fun _ => ?_; intros)
    | with_reducible refine State.hitAdd_only ?_ ?_
    | with_reducible refine State.live_only ?_ ?_)

theorem execActqRead_only {A : Nat} {ini : Fin 41} {s : State} {t : State} (h : execActqRead ini s = .next t) (hA : Covers 0x1FFFFFFC007FFFFF A) :
    Only A s t := by
  unfold execActqRead at h
  injection h with h
  subst h
  have hS : Only A s s := Only.rfl
  repeat' (first
    | with_reducible exact hS
    | with_reducible assumption
    | (with_reducible refine Covers.testBit hA ?_; decide)
    | (with_reducible refine Covers.trans ?_ hA; decide)
    | with_reducible refine State.regRead_only ?_ ?_)

theorem execActqDone_only {A : Nat} {r : Fin 4096} {point : Fin 8} {failed : Bool} {s : State} {t : State} (h : execActqDone r point failed s = .next t) (hA : Covers 0x820000000020000 A) :
    Only A s t := by
  unfold execActqDone at h
  injection h with h
  subst h
  have hS : Only A s s := Only.rfl
  repeat' (first
    | with_reducible exact hS
    | with_reducible assumption
    | (with_reducible refine Covers.testBit hA ?_; decide)
    | (with_reducible refine Covers.trans ?_ hA; decide)
    | (refine fun _ => ?_; intros)
    | with_reducible refine State.actqDone_only ?_ ?_
    | with_reducible refine State.live_only ?_ ?_)

theorem execLedgerAction_only {A : Nat} {r : Fin 1024} {point : Fin 4} {lane : Fin 224} {seq : Fin 256} {s : State} {t : State} (h : execLedgerAction r point lane seq s = .next t) (hA : Covers 0x1C62281000000814 A) :
    Only A s t := by
  unfold execLedgerAction at h
  injection h with h
  subst h
  have hS : Only A s s := Only.rfl
  repeat' (first
    | with_reducible exact hS
    | with_reducible assumption
    | (with_reducible refine Covers.testBit hA ?_; decide)
    | (with_reducible refine Covers.trans ?_ hA; decide)
    | (refine fun _ => ?_; intros)
    | with_reducible refine State.live_only ?_ ?_
    | with_reducible refine State.ledgerAction_only ?_ ?_)

theorem execForget_only {A : Nat} {r : Fin 1024} {s : State} {t : State} (h : execForget r s = .next t) (hA : Covers 0x20000000000000 A) :
    Only A s t := by
  unfold execForget at h
  injection h with h
  subst h
  have hS : Only A s s := Only.rfl
  repeat' (first
    | with_reducible exact hS
    | with_reducible assumption
    | (with_reducible refine Covers.testBit hA ?_; decide)
    | (with_reducible refine Covers.trans ?_ hA; decide)
    | (refine fun _ => ?_; intros)
    | with_reducible refine State.forgetRec_only ?_ ?_
    | with_reducible refine State.live_only ?_ ?_)

theorem execLedgerSelect_only {A : Nat} {r : Fin 1024} {s : State} {t : State} (h : execLedgerSelect r s = .next t) (hA : Covers 0x20000 A) :
    Only A s t := by
  unfold execLedgerSelect at h
  injection h with h
  subst h
  have hS : Only A s s := Only.rfl
  repeat' (first
    | with_reducible exact hS
    | with_reducible assumption
    | (with_reducible refine Covers.testBit hA ?_; decide)
    | (with_reducible refine Covers.trans ?_ hA; decide)
    | (refine fun _ => ?_; intros)
    | with_reducible refine State.ledgerSelect_only ?_ ?_
    | with_reducible refine State.live_only ?_ ?_)

theorem execLedgerMirror_only {A : Nat} {ok : Bool} {s : State} {t : State} (h : execLedgerMirror ok s = .next t) (hA : Covers 0x9000000000A0000 A) :
    Only A s t := by
  unfold execLedgerMirror at h
  injection h with h
  subst h
  have hS : Only A s s := Only.rfl
  repeat' (first
    | with_reducible exact hS
    | with_reducible assumption
    | (with_reducible refine Covers.testBit hA ?_; decide)
    | (with_reducible refine Covers.trans ?_ hA; decide)
    | (refine fun _ => ?_; intros)
    | with_reducible refine State.alive_only ?_ ?_
    | with_reducible refine State.ledgerMirror_only ?_ ?_)

end Sys2Proof.Machine
end

