-- ==== Sys2Proof/Laws/OnlyPins.lean ====
section
/-! SUPPORT. What each operation of Machine/Pins.lean may change. -/

set_option linter.unusedTactic false
set_option linter.unreachableTactic false
set_option linter.unusedVariables false

namespace Sys2Proof.Machine

theorem State.boundaryScan_only {A : Nat} {s₀ : State} {s : State} {levels : Nat} {loaded : Nat} (hS : Only A s₀ s) (hA : Covers 0x200000000000000 A) :
    Only A s₀ (State.boundaryScan s levels loaded) := by
  unfold State.boundaryScan
  repeat' (first
    | with_reducible exact hS
    | with_reducible assumption
    | (with_reducible refine Covers.testBit hA ?_; decide)
    | (with_reducible refine Covers.trans ?_ hA; decide)
    | (refine fun _ => ?_; intros)
    | with_reducible refine State.updTap_only ?_ ?_)

theorem State.tapSample_only {A : Nat} {s₀ : State} {s : State} {levels : Nat} {loaded : Nat} (hS : Only A s₀ s) (hA : Covers 0x200000000000000 A) :
    Only A s₀ (State.tapSample s levels loaded) := by
  unfold State.tapSample
  repeat' (first
    | with_reducible exact hS
    | with_reducible assumption
    | (with_reducible refine Covers.testBit hA ?_; decide)
    | (with_reducible refine Covers.trans ?_ hA; decide)
    | with_reducible refine State.tapLoad_only ?_ ?_
    | with_reducible refine State.boundaryScan_only ?_ ?_)

theorem State.tapExtest_only {A : Nat} {s₀ : State} {s : State} {ir : Nat} {pins : PinDrive} {levels : Nat} {loaded : Nat} (hS : Only A s₀ s) (hA : Covers 0xA00000000200000 A) :
    Only A s₀ (State.tapExtest s ir pins levels loaded) := by
  unfold State.tapExtest
  repeat' (first
    | with_reducible exact hS
    | with_reducible assumption
    | (with_reducible refine Covers.testBit hA ?_; decide)
    | (with_reducible refine Covers.trans ?_ hA; decide)
    | (extract_lets -underBinder +onlyGivenNames x; refine (fun (hx : Only A s₀ x) => ?_ : Only A s₀ x → _) ?_; (on_goal 2 => unfold x; clear x); (on_goal 1 => clear_value x; revert x; intro _ _))
    | (extract_lets -underBinder +onlyGivenNames x; unfold x; clear x)
    | (extract_lets -underBinder +onlyGivenNames x; revert x; intro _)
    | with_reducible refine Only.ite ?_ ?_
    | with_reducible refine State.tapPins_only ?_ ?_
    | with_reducible refine State.boundaryScan_only ?_ ?_)

end Sys2Proof.Machine
end

