-- ==== Sys2Proof/Laws/ExecRowsPower.lean ====
section
/-! SUPPORT. What each command of Machine/RowsPower.lean may change. -/

set_option linter.unusedTactic false
set_option linter.unreachableTactic false
set_option linter.unusedVariables false

namespace Sys2Proof.Machine

theorem execDoze_only {A : Nat} {s : State} {t : State} (h : execDoze s = .next t) (hA : Covers 0x880000000040000 A) :
    Only A s t := by
  unfold execDoze at h
  injection h with h
  subst h
  have hS : Only A s s := Only.rfl
  repeat' (first
    | with_reducible exact hS
    | with_reducible assumption
    | (with_reducible refine Covers.testBit hA ?_; decide)
    | (with_reducible refine Covers.trans ?_ hA; decide)
    | (refine fun _ => ?_; intros)
    | with_reducible refine State.alive_only ?_ ?_
    | with_reducible refine State.powerDoze_only ?_ ?_)

theorem execRun_only {A : Nat} {keeper : Bool} {s : State} {t : State} (h : execRun keeper s = .next t) (hA : Covers 0x18B6331400055FEE A) :
    Only A s t := by
  unfold execRun at h
  injection h with h
  subst h
  have hS : Only A s s := Only.rfl
  repeat' (first
    | with_reducible exact hS
    | with_reducible assumption
    | (with_reducible refine Covers.testBit hA ?_; decide)
    | (with_reducible refine Covers.trans ?_ hA; decide)
    | (refine fun _ => ?_; intros)
    | with_reducible refine State.alive_only ?_ ?_
    | with_reducible refine State.powerRun_only ?_ ?_)

theorem execEclipse_only {A : Nat} {s : State} {t : State} (h : execEclipse s = .next t) (hA : Covers 0x880000000040000 A) :
    Only A s t := by
  unfold execEclipse at h
  injection h with h
  subst h
  have hS : Only A s s := Only.rfl
  repeat' (first
    | with_reducible exact hS
    | with_reducible assumption
    | (with_reducible refine Covers.testBit hA ?_; decide)
    | (with_reducible refine Covers.trans ?_ hA; decide)
    | (refine fun _ => ?_; intros)
    | with_reducible refine State.alive_only ?_ ?_
    | with_reducible refine State.powerEclipse_only ?_ ?_)

theorem execDusk_only {A : Nat} {s : State} {t : State} (h : execDusk s = .next t) (hA : Covers 0x880000000040000 A) :
    Only A s t := by
  unfold execDusk at h
  injection h with h
  subst h
  have hS : Only A s s := Only.rfl
  repeat' (first
    | with_reducible exact hS
    | with_reducible assumption
    | (with_reducible refine Covers.testBit hA ?_; decide)
    | (with_reducible refine Covers.trans ?_ hA; decide)
    | (refine fun _ => ?_; intros)
    | with_reducible refine State.alive_only ?_ ?_
    | with_reducible refine State.powerDusk_only ?_ ?_)

theorem execPowerAbort_only {A : Nat} {s : State} {t : State} (h : execPowerAbort s = .next t) (hA : Covers 0x880000000040000 A) :
    Only A s t := by
  unfold execPowerAbort at h
  injection h with h
  subst h
  have hS : Only A s s := Only.rfl
  repeat' (first
    | with_reducible exact hS
    | with_reducible assumption
    | (with_reducible refine Covers.testBit hA ?_; decide)
    | (with_reducible refine Covers.trans ?_ hA; decide)
    | (refine fun _ => ?_; intros)
    | with_reducible refine State.alive_only ?_ ?_
    | with_reducible refine State.powerAbort_only ?_ ?_)

theorem execEclipseCommit_only {A : Nat} {s : State} {t : State} (h : execEclipseCommit s = .next t) (hA : Covers 0x18D07940000501FA A) :
    Only A s t := by
  unfold execEclipseCommit at h
  injection h with h
  subst h
  have hS : Only A s s := Only.rfl
  repeat' (first
    | with_reducible exact hS
    | with_reducible assumption
    | (with_reducible refine Covers.testBit hA ?_; decide)
    | (with_reducible refine Covers.trans ?_ hA; decide)
    | (refine fun _ => ?_; intros)
    | with_reducible refine State.alive_only ?_ ?_
    | with_reducible refine State.eclipseCommit_only ?_ ?_)

theorem execEclipseDrainExpiry_only {A : Nat} {s : State} {t : State} (h : execEclipseDrainExpiry s = .next t) (hA : Covers 0x1083000000040000 A) :
    Only A s t := by
  unfold execEclipseDrainExpiry at h
  injection h with h
  subst h
  have hS : Only A s s := Only.rfl
  repeat' (first
    | with_reducible exact hS
    | with_reducible assumption
    | (with_reducible refine Covers.testBit hA ?_; decide)
    | (with_reducible refine Covers.trans ?_ hA; decide)
    | (refine fun _ => ?_; intros)
    | with_reducible refine State.alive_only ?_ ?_
    | with_reducible refine State.eclipseDrain_only ?_ ?_)

theorem execEclipseGraceExpiry_only {A : Nat} {s : State} {t : State} (h : execEclipseGraceExpiry s = .next t) (hA : Covers 0x1FFFFFFC007FFFFF A) :
    Only A s t := by
  unfold execEclipseGraceExpiry at h
  injection h with h
  subst h
  have hS : Only A s s := Only.rfl
  repeat' (first
    | with_reducible exact hS
    | with_reducible assumption
    | (with_reducible refine Covers.testBit hA ?_; decide)
    | (with_reducible refine Covers.trans ?_ hA; decide)
    | (refine fun _ => ?_; intros)
    | with_reducible refine State.alive_only ?_ ?_
    | with_reducible refine State.eclipseGrace_only ?_ ?_)

theorem execDuskMirrorDone_only {A : Nat} {s : State} {t : State} (h : execDuskMirrorDone s = .next t) (hA : Covers 0x1FFFFFFC007FFFFF A) :
    Only A s t := by
  unfold execDuskMirrorDone at h
  injection h with h
  subst h
  have hS : Only A s s := Only.rfl
  repeat' (first
    | with_reducible exact hS
    | with_reducible assumption
    | (with_reducible refine Covers.testBit hA ?_; decide)
    | (with_reducible refine Covers.trans ?_ hA; decide)
    | (refine fun _ => ?_; intros)
    | with_reducible refine State.alive_only ?_ ?_
    | with_reducible refine State.duskMirrorDone_only ?_ ?_)

theorem execWakeCan_only {A : Nat} {frame : CanFrame} {s : State} {t : State} (h : execWakeCan frame s = .next t) (hA : Covers 0x1FFFFFFC007FFFFF A) :
    Only A s t := by
  unfold execWakeCan at h
  injection h with h
  subst h
  have hS : Only A s s := Only.rfl
  repeat' (first
    | with_reducible exact hS
    | with_reducible assumption
    | (with_reducible refine Covers.testBit hA ?_; decide)
    | (with_reducible refine Covers.trans ?_ hA; decide)
    | (refine fun _ => ?_; intros)
    | with_reducible refine State.alive_only ?_ ?_
    | with_reducible refine State.wakeCan_only ?_ ?_)

theorem execWakeTiming_only {A : Nat} {s : State} {t : State} (h : execWakeTiming s = .next t) (hA : Covers 0x18B6331400055FEE A) :
    Only A s t := by
  unfold execWakeTiming at h
  injection h with h
  subst h
  have hS : Only A s s := Only.rfl
  repeat' (first
    | with_reducible exact hS
    | with_reducible assumption
    | (with_reducible refine Covers.testBit hA ?_; decide)
    | (with_reducible refine Covers.trans ?_ hA; decide)
    | (refine fun _ => ?_; intros)
    | with_reducible refine State.alive_only ?_ ?_
    | with_reducible refine State.wakeTiming_only ?_ ?_)

theorem execWakeRing_only {A : Nat} {s : State} {t : State} (h : execWakeRing s = .next t) (hA : Covers 0x18B6331400055FEE A) :
    Only A s t := by
  unfold execWakeRing at h
  injection h with h
  subst h
  have hS : Only A s s := Only.rfl
  repeat' (first
    | with_reducible exact hS
    | with_reducible assumption
    | (with_reducible refine Covers.testBit hA ?_; decide)
    | (with_reducible refine Covers.trans ?_ hA; decide)
    | (refine fun _ => ?_; intros)
    | with_reducible refine State.alive_only ?_ ?_
    | with_reducible refine State.wakeRing_only ?_ ?_)

theorem execWakeTimer_only {A : Nat} {s : State} {t : State} (h : execWakeTimer s = .next t) (hA : Covers 0x18B6331400055FEE A) :
    Only A s t := by
  unfold execWakeTimer at h
  injection h with h
  subst h
  have hS : Only A s s := Only.rfl
  repeat' (first
    | with_reducible exact hS
    | with_reducible assumption
    | (with_reducible refine Covers.testBit hA ?_; decide)
    | (with_reducible refine Covers.trans ?_ hA; decide)
    | (refine fun _ => ?_; intros)
    | with_reducible refine State.alive_only ?_ ?_
    | with_reducible refine State.keeperTimer_only ?_ ?_)

theorem execDevReset_only {A : Nat} {s : State} {t : State} (h : execDevReset s = .next t) (hA : Covers 0x1FFFFFFC007FFFFF A) :
    Only A s t := by
  unfold execDevReset at h
  injection h with h
  subst h
  have hS : Only A s s := Only.rfl
  repeat' (first
    | with_reducible exact hS
    | with_reducible assumption
    | (with_reducible refine Covers.testBit hA ?_; decide)
    | (with_reducible refine Covers.trans ?_ hA; decide)
    | (refine fun _ => ?_; intros)
    | with_reducible refine State.alive_only ?_ ?_
    | with_reducible refine State.devReset_only ?_ ?_)

theorem execKick_only {A : Nat} {s : State} {t : State} (h : execKick s = .next t) (hA : Covers 0x80000000000000 A) :
    Only A s t := by
  unfold execKick at h
  injection h with h
  subst h
  have hS : Only A s s := Only.rfl
  repeat' (first
    | with_reducible exact hS
    | with_reducible assumption
    | (with_reducible refine Covers.testBit hA ?_; decide)
    | (with_reducible refine Covers.trans ?_ hA; decide)
    | (refine fun _ => ?_; intros)
    | with_reducible refine State.alive_only ?_ ?_
    | with_reducible refine State.kick_only ?_ ?_)

theorem execWatchdogExpiry_only {A : Nat} {t : Nat} {s : State} {final : State} (h : execWatchdogExpiry t s = .next final) (hA : Covers 0x188E20D4000C68C0 A) :
    Only A s final := by
  unfold execWatchdogExpiry at h
  injection h with h
  subst h
  have hS : Only A s s := Only.rfl
  repeat' (first
    | with_reducible exact hS
    | with_reducible assumption
    | (with_reducible refine Covers.testBit hA ?_; decide)
    | (with_reducible refine Covers.trans ?_ hA; decide)
    | (refine fun _ => ?_; intros)
    | with_reducible refine State.alive_only ?_ ?_
    | with_reducible refine State.watchdogExpiry_only ?_ ?_)

theorem execCoreReset_only {A : Nat} {c : Fin 4} {s : State} {t : State} (h : execCoreReset c s = .next t) (hA : Covers 0x180E2010000068C0 A) :
    Only A s t := by
  unfold execCoreReset at h
  injection h with h
  subst h
  have hS : Only A s s := Only.rfl
  repeat' (first
    | with_reducible exact hS
    | with_reducible assumption
    | (with_reducible refine Covers.testBit hA ?_; decide)
    | (with_reducible refine Covers.trans ?_ hA; decide)
    | (refine fun _ => ?_; intros)
    | with_reducible refine State.live_only ?_ ?_
    | with_reducible refine State.coreReset_only ?_ ?_)

theorem execDmaGroupReset_only {A : Nat} {g : Fin 2} {s : State} {t : State} (h : execDmaGroupReset g s = .next t) (hA : Covers 0x180E001000002800 A) :
    Only A s t := by
  unfold execDmaGroupReset at h
  injection h with h
  subst h
  have hS : Only A s s := Only.rfl
  repeat' (first
    | with_reducible exact hS
    | with_reducible assumption
    | (with_reducible refine Covers.testBit hA ?_; decide)
    | (with_reducible refine Covers.trans ?_ hA; decide)
    | (refine fun _ => ?_; intros)
    | with_reducible refine State.live_only ?_ ?_
    | with_reducible refine State.dmaGroupReset_only ?_ ?_)

theorem execEdgeFabricReset_only {A : Nat} {s : State} {t : State} (h : execEdgeFabricReset s = .next t) (hA : Covers 0x1C0E03100040280A A) :
    Only A s t := by
  unfold execEdgeFabricReset at h
  injection h with h
  subst h
  have hS : Only A s s := Only.rfl
  repeat' (first
    | with_reducible exact hS
    | with_reducible assumption
    | (with_reducible refine Covers.testBit hA ?_; decide)
    | (with_reducible refine Covers.trans ?_ hA; decide)
    | (refine fun _ => ?_; intros)
    | with_reducible refine State.live_only ?_ ?_
    | with_reducible refine State.edgeReset_only ?_ ?_)

theorem execGnomonReset_only {A : Nat} {s : State} {t : State} (h : execGnomonReset s = .next t) (hA : Covers 0x18507940000101FA A) :
    Only A s t := by
  unfold execGnomonReset at h
  injection h with h
  subst h
  have hS : Only A s s := Only.rfl
  repeat' (first
    | with_reducible exact hS
    | with_reducible assumption
    | (with_reducible refine Covers.testBit hA ?_; decide)
    | (with_reducible refine Covers.trans ?_ hA; decide)
    | (refine fun _ => ?_; intros)
    | with_reducible refine State.live_only ?_ ?_
    | with_reducible refine State.gnomonReset_only ?_ ?_)

theorem execWorgaReset_only {A : Nat} {s : State} {t : State} (h : execWorgaReset s = .next t) (hA : Covers 0x180E401000002900 A) :
    Only A s t := by
  unfold execWorgaReset at h
  injection h with h
  subst h
  have hS : Only A s s := Only.rfl
  repeat' (first
    | with_reducible exact hS
    | with_reducible assumption
    | (with_reducible refine Covers.testBit hA ?_; decide)
    | (with_reducible refine Covers.trans ?_ hA; decide)
    | (refine fun _ => ?_; intros)
    | with_reducible refine State.live_only ?_ ?_
    | with_reducible refine State.worgaReset_only ?_ ?_)

theorem execReadoutReset_only {A : Nat} {s : State} {t : State} (h : execReadoutReset s = .next t) (hA : Covers 0x180F001000002C00 A) :
    Only A s t := by
  unfold execReadoutReset at h
  injection h with h
  subst h
  have hS : Only A s s := Only.rfl
  repeat' (first
    | with_reducible exact hS
    | with_reducible assumption
    | (with_reducible refine Covers.testBit hA ?_; decide)
    | (with_reducible refine Covers.trans ?_ hA; decide)
    | (refine fun _ => ?_; intros)
    | with_reducible refine State.live_only ?_ ?_
    | with_reducible refine State.readoutReset_only ?_ ?_)

theorem execPwrgdLoss_only {A : Nat} {aon : Bool} {s : State} {t : State} (h : execPwrgdLoss aon s = .next t) (hA : Covers 0x1FFFFFFC007FFFFF A) :
    Only A s t := by
  unfold execPwrgdLoss at h
  injection h with h
  subst h
  have hS : Only A s s := Only.rfl
  repeat' (first
    | with_reducible exact hS
    | with_reducible assumption
    | (with_reducible refine Covers.testBit hA ?_; decide)
    | (with_reducible refine Covers.trans ?_ hA; decide)
    | with_reducible refine State.pwrgdLoss_only ?_ ?_)

theorem execPinReset_only {A : Nat} {s : State} {t : State} (h : execPinReset s = .next t) (hA : Covers 0x1FFFFFFC007FFFFF A) :
    Only A s t := by
  unfold execPinReset at h
  injection h with h
  subst h
  have hS : Only A s s := Only.rfl
  repeat' (first
    | with_reducible exact hS
    | with_reducible assumption
    | (with_reducible refine Covers.testBit hA ?_; decide)
    | (with_reducible refine Covers.trans ?_ hA; decide)
    | with_reducible refine State.pinReset_only ?_ ?_)

theorem execPowerOnReset_only {A : Nat} {board : List (Nat × List (BitVec 8))} {s : State} {t : State} (h : execPowerOnReset board s = .next t) (hA : Covers 0x1FFFFFFC007FFFFF A) :
    Only A s t := by
  unfold execPowerOnReset at h
  injection h with h
  subst h
  have hS : Only A s s := Only.rfl
  repeat' (first
    | with_reducible exact hS
    | with_reducible assumption
    | (with_reducible refine Covers.testBit hA ?_; decide)
    | (with_reducible refine Covers.trans ?_ hA; decide)
    | with_reducible refine State.powerOn_only ?_ ?_)

theorem execBrownout_only {A : Nat} {core : Bool} {s : State} {t : State} (h : execBrownout core s = .next t) (hA : Covers 0x1FFFFFFC007FFFFF A) :
    Only A s t := by
  unfold execBrownout at h
  injection h with h
  subst h
  have hS : Only A s s := Only.rfl
  repeat' (first
    | with_reducible exact hS
    | with_reducible assumption
    | (with_reducible refine Covers.testBit hA ?_; decide)
    | (with_reducible refine Covers.trans ?_ hA; decide)
    | with_reducible refine State.brownout_only ?_ ?_)

theorem execAonBrownout_only {A : Nat} {s : State} {t : State} (h : execAonBrownout s = .next t) (hA : Covers 0x1FFFFFFC007FFFFF A) :
    Only A s t := by
  unfold execAonBrownout at h
  injection h with h
  subst h
  have hS : Only A s s := Only.rfl
  repeat' (first
    | with_reducible exact hS
    | with_reducible assumption
    | (with_reducible refine Covers.testBit hA ?_; decide)
    | (with_reducible refine Covers.trans ?_ hA; decide)
    | with_reducible refine State.aonBrownout_only ?_ ?_)

theorem execThermalTrip_only {A : Nat} {s : State} {t : State} (h : execThermalTrip s = .next t) (hA : Covers 0x1FFFFFFC007FFFFF A) :
    Only A s t := by
  unfold execThermalTrip at h
  injection h with h
  subst h
  have hS : Only A s s := Only.rfl
  repeat' (first
    | with_reducible exact hS
    | with_reducible assumption
    | (with_reducible refine Covers.testBit hA ?_; decide)
    | (with_reducible refine Covers.trans ?_ hA; decide)
    | with_reducible refine State.thermalTrip_only ?_ ?_)

theorem execDawn_only {A : Nat} {t : Nat} {us : Nat} {mode : Fin 8} {flash : Option Sfdp} {stack0 : Bool} {stack1 : Bool} {s : State} {final : State} (h : execDawn t us mode flash stack0 stack1 s = .next final) (hA : Covers 0x1FFFFFFC007FFFFF A) :
    Only A s final := by
  unfold execDawn at h
  injection h with h
  subst h
  have hS : Only A s s := Only.rfl
  repeat' (first
    | with_reducible exact hS
    | with_reducible assumption
    | (with_reducible refine Covers.testBit hA ?_; decide)
    | (with_reducible refine Covers.trans ?_ hA; decide)
    | with_reducible refine State.dawn_only ?_ ?_)

theorem execRetentionScrub_only {A : Nat} {region : Fin 5} {o : Codeword} {s : State} {t : State} (h : execRetentionScrub region o s = .next t) (hA : Covers 0x1880000000040000 A) :
    Only A s t := by
  unfold execRetentionScrub at h
  injection h with h
  subst h
  have hS : Only A s s := Only.rfl
  repeat' (first
    | with_reducible exact hS
    | with_reducible assumption
    | (with_reducible refine Covers.testBit hA ?_; decide)
    | (with_reducible refine Covers.trans ?_ hA; decide)
    | (refine fun _ => ?_; intros)
    | with_reducible refine State.alive_only ?_ ?_
    | with_reducible refine State.retentionScrub_only ?_ ?_)

theorem execConfigStore_only {A : Nat} {run : FlashRun} {s : State} {t : State} (h : execConfigStore run s = .next t) (hA : Covers 0x980000000080000 A) :
    Only A s t := by
  unfold execConfigStore at h
  injection h with h
  subst h
  have hS : Only A s s := Only.rfl
  repeat' (first
    | with_reducible exact hS
    | with_reducible assumption
    | (with_reducible refine Covers.testBit hA ?_; decide)
    | (with_reducible refine Covers.trans ?_ hA; decide)
    | (refine fun _ => ?_; intros)
    | with_reducible refine State.alive_only ?_ ?_
    | with_reducible refine State.configStore_only ?_ ?_)

theorem execConfigStoreAbort_only {A : Nat} {s : State} {t : State} (h : execConfigStoreAbort s = .next t) (hA : Covers 0x880000000080000 A) :
    Only A s t := by
  unfold execConfigStoreAbort at h
  injection h with h
  subst h
  have hS : Only A s s := Only.rfl
  repeat' (first
    | with_reducible exact hS
    | with_reducible assumption
    | (with_reducible refine Covers.testBit hA ?_; decide)
    | (with_reducible refine Covers.trans ?_ hA; decide)
    | (refine fun _ => ?_; intros)
    | with_reducible refine State.alive_only ?_ ?_
    | with_reducible refine State.storeAbort_only ?_ ?_)

theorem execVendorUpdate_only {A : Nat} {run : FlashRun} {s : State} {t : State} (h : execVendorUpdate run s = .next t) (hA : Covers 0x980000000080000 A) :
    Only A s t := by
  unfold execVendorUpdate at h
  injection h with h
  subst h
  have hS : Only A s s := Only.rfl
  repeat' (first
    | with_reducible exact hS
    | with_reducible assumption
    | (with_reducible refine Covers.testBit hA ?_; decide)
    | (with_reducible refine Covers.trans ?_ hA; decide)
    | (refine fun _ => ?_; intros)
    | with_reducible refine State.alive_only ?_ ?_
    | with_reducible refine State.vendorUpdate_only ?_ ?_)

theorem execErqHeadRead_only {A : Nat} {ini : Fin 41} {s : State} {t : State} (h : execErqHeadRead ini s = .next t) (hA : Covers 0x1FFFFFFC007FFFFF A) :
    Only A s t := by
  unfold execErqHeadRead at h
  injection h with h
  subst h
  have hS : Only A s s := Only.rfl
  repeat' (first
    | with_reducible exact hS
    | with_reducible assumption
    | (with_reducible refine Covers.testBit hA ?_; decide)
    | (with_reducible refine Covers.trans ?_ hA; decide)
    | with_reducible refine State.regRead_only ?_ ?_)

theorem execErqPop_only {A : Nat} {seq : BitVec 32} {s : State} {t : State} (h : execErqPop seq s = .next t) (hA : Covers 0x800000000100000 A) :
    Only A s t := by
  unfold execErqPop at h
  injection h with h
  subst h
  have hS : Only A s s := Only.rfl
  repeat' (first
    | with_reducible exact hS
    | with_reducible assumption
    | (with_reducible refine Covers.testBit hA ?_; decide)
    | (with_reducible refine Covers.trans ?_ hA; decide)
    | (refine fun _ => ?_; intros)
    | with_reducible refine State.erqPop_only ?_ ?_
    | with_reducible refine State.onReports_only ?_ ?_
    | with_reducible refine Only.Fst.ite ?_ ?_
    | with_reducible refine Only.Fst.unpair (by assumption)
    | with_reducible refine Only.Fst.of ?_
    | with_reducible refine Only.Fst.pair ?_
    | with_reducible refine Only.Fst.elim (by assumption) ?_)

theorem execSmbStatus_only {A : Nat} {pec : Bool} {s : State} {t : State} (h : execSmbStatus pec s = .next t) (hA : Covers 0x800002000000001 A) :
    Only A s t := by
  unfold execSmbStatus at h
  injection h with h
  subst h
  have hS : Only A s s := Only.rfl
  repeat' (first
    | with_reducible exact hS
    | with_reducible assumption
    | (with_reducible refine Covers.testBit hA ?_; decide)
    | (with_reducible refine Covers.trans ?_ hA; decide)
    | (refine fun _ => ?_; intros)
    | with_reducible refine State.smbAnswer_only ?_ ?_
    | with_reducible refine State.onSmb_only ?_ ?_ ?_)

theorem execSmbIslandTemp_only {A : Nat} {pec : Bool} {s : State} {t : State} (h : execSmbIslandTemp pec s = .next t) (hA : Covers 0x800002000000001 A) :
    Only A s t := by
  unfold execSmbIslandTemp at h
  injection h with h
  subst h
  have hS : Only A s s := Only.rfl
  repeat' (first
    | with_reducible exact hS
    | with_reducible assumption
    | (with_reducible refine Covers.testBit hA ?_; decide)
    | (with_reducible refine Covers.trans ?_ hA; decide)
    | (refine fun _ => ?_; intros)
    | with_reducible refine State.smbAnswer_only ?_ ?_
    | with_reducible refine State.onSmb_only ?_ ?_ ?_)

theorem execSmbHbmTemp_only {A : Nat} {pec : Bool} {s : State} {t : State} (h : execSmbHbmTemp pec s = .next t) (hA : Covers 0x800002000000001 A) :
    Only A s t := by
  unfold execSmbHbmTemp at h
  injection h with h
  subst h
  have hS : Only A s s := Only.rfl
  repeat' (first
    | with_reducible exact hS
    | with_reducible assumption
    | (with_reducible refine Covers.testBit hA ?_; decide)
    | (with_reducible refine Covers.trans ?_ hA; decide)
    | (refine fun _ => ?_; intros)
    | with_reducible refine State.smbAnswer_only ?_ ?_
    | with_reducible refine State.onSmb_only ?_ ?_ ?_)

theorem execSmbVout_only {A : Nat} {pec : Bool} {s : State} {t : State} (h : execSmbVout pec s = .next t) (hA : Covers 0x800002000000001 A) :
    Only A s t := by
  unfold execSmbVout at h
  injection h with h
  subst h
  have hS : Only A s s := Only.rfl
  repeat' (first
    | with_reducible exact hS
    | with_reducible assumption
    | (with_reducible refine Covers.testBit hA ?_; decide)
    | (with_reducible refine Covers.trans ?_ hA; decide)
    | (refine fun _ => ?_; intros)
    | with_reducible refine State.smbAnswer_only ?_ ?_
    | with_reducible refine State.onSmb_only ?_ ?_ ?_)

theorem execSmbErqUsed_only {A : Nat} {pec : Bool} {s : State} {t : State} (h : execSmbErqUsed pec s = .next t) (hA : Covers 0x800002000000001 A) :
    Only A s t := by
  unfold execSmbErqUsed at h
  injection h with h
  subst h
  have hS : Only A s s := Only.rfl
  repeat' (first
    | with_reducible exact hS
    | with_reducible assumption
    | (with_reducible refine Covers.testBit hA ?_; decide)
    | (with_reducible refine Covers.trans ?_ hA; decide)
    | (refine fun _ => ?_; intros)
    | with_reducible refine State.smbAnswer_only ?_ ?_
    | with_reducible refine State.onSmb_only ?_ ?_ ?_)

theorem execSmbStepping_only {A : Nat} {pec : Bool} {s : State} {t : State} (h : execSmbStepping pec s = .next t) (hA : Covers 0x800002000000001 A) :
    Only A s t := by
  unfold execSmbStepping at h
  injection h with h
  subst h
  have hS : Only A s s := Only.rfl
  repeat' (first
    | with_reducible exact hS
    | with_reducible assumption
    | (with_reducible refine Covers.testBit hA ?_; decide)
    | (with_reducible refine Covers.trans ?_ hA; decide)
    | (refine fun _ => ?_; intros)
    | with_reducible refine State.smbAnswer_only ?_ ?_
    | with_reducible refine State.onSmb_only ?_ ?_ ?_)

theorem execSmbId_only {A : Nat} {pec : Bool} {s : State} {t : State} (h : execSmbId pec s = .next t) (hA : Covers 0x800002000000001 A) :
    Only A s t := by
  unfold execSmbId at h
  injection h with h
  subst h
  have hS : Only A s s := Only.rfl
  repeat' (first
    | with_reducible exact hS
    | with_reducible assumption
    | (with_reducible refine Covers.testBit hA ?_; decide)
    | (with_reducible refine Covers.trans ?_ hA; decide)
    | (refine fun _ => ?_; intros)
    | with_reducible refine State.smbAnswer_only ?_ ?_
    | with_reducible refine State.onSmb_only ?_ ?_ ?_)

theorem execSmbNack_only {A : Nat} {s : State} {t : State} (h : execSmbNack s = .next t) (hA : Covers 0x800002000000001 A) :
    Only A s t := by
  unfold execSmbNack at h
  injection h with h
  subst h
  have hS : Only A s s := Only.rfl
  repeat' (first
    | with_reducible exact hS
    | with_reducible assumption
    | (with_reducible refine Covers.testBit hA ?_; decide)
    | (with_reducible refine Covers.trans ?_ hA; decide)
    | (refine fun _ => ?_; intros)
    | with_reducible refine State.smbNack_only ?_ ?_
    | with_reducible refine State.onSmb_only ?_ ?_ ?_)

theorem execIdcode_only {A : Nat} {s : State} {t : State} (h : execIdcode s = .next t) (hA : Covers 0x200000000000000 A) :
    Only A s t := by
  unfold execIdcode at h
  injection h with h
  subst h
  have hS : Only A s s := Only.rfl
  repeat' (first
    | with_reducible exact hS
    | with_reducible assumption
    | (with_reducible refine Covers.testBit hA ?_; decide)
    | (with_reducible refine Covers.trans ?_ hA; decide)
    | with_reducible refine State.tapLoad_only ?_ ?_)

theorem execSamplePreload_only {A : Nat} {levels : BitVec 895} {loaded : BitVec 895} {s : State} {t : State} (h : execSamplePreload levels loaded s = .next t) (hA : Covers 0x200000000000000 A) :
    Only A s t := by
  unfold execSamplePreload at h
  injection h with h
  subst h
  have hS : Only A s s := Only.rfl
  repeat' (first
    | with_reducible exact hS
    | with_reducible assumption
    | (with_reducible refine Covers.testBit hA ?_; decide)
    | (with_reducible refine Covers.trans ?_ hA; decide)
    | with_reducible refine State.tapSample_only ?_ ?_)

theorem execExtest_only {A : Nat} {levels : BitVec 895} {loaded : BitVec 895} {s : State} {t : State} (h : execExtest levels loaded s = .next t) (hA : Covers 0xA00000000200000 A) :
    Only A s t := by
  unfold execExtest at h
  injection h with h
  subst h
  have hS : Only A s s := Only.rfl
  repeat' (first
    | with_reducible exact hS
    | with_reducible assumption
    | (with_reducible refine Covers.testBit hA ?_; decide)
    | (with_reducible refine Covers.trans ?_ hA; decide)
    | with_reducible refine State.tapExtest_only ?_ ?_)

theorem execClamp_only {A : Nat} {s : State} {t : State} (h : execClamp s = .next t) (hA : Covers 0xA00000000200000 A) :
    Only A s t := by
  unfold execClamp at h
  injection h with h
  subst h
  have hS : Only A s s := Only.rfl
  repeat' (first
    | with_reducible exact hS
    | with_reducible assumption
    | (with_reducible refine Covers.testBit hA ?_; decide)
    | (with_reducible refine Covers.trans ?_ hA; decide)
    | with_reducible refine State.tapPins_only ?_ ?_)

theorem execHighz_only {A : Nat} {s : State} {t : State} (h : execHighz s = .next t) (hA : Covers 0xA00000000200000 A) :
    Only A s t := by
  unfold execHighz at h
  injection h with h
  subst h
  have hS : Only A s s := Only.rfl
  repeat' (first
    | with_reducible exact hS
    | with_reducible assumption
    | (with_reducible refine Covers.testBit hA ?_; decide)
    | (with_reducible refine Covers.trans ?_ hA; decide)
    | with_reducible refine State.tapPins_only ?_ ?_)

theorem execExtestPulse_only {A : Nat} {levels : BitVec 895} {loaded : BitVec 895} {s : State} {t : State} (h : execExtestPulse levels loaded s = .next t) (hA : Covers 0xA00000000200000 A) :
    Only A s t := by
  unfold execExtestPulse at h
  injection h with h
  subst h
  have hS : Only A s s := Only.rfl
  repeat' (first
    | with_reducible exact hS
    | with_reducible assumption
    | (with_reducible refine Covers.testBit hA ?_; decide)
    | (with_reducible refine Covers.trans ?_ hA; decide)
    | with_reducible refine State.tapExtest_only ?_ ?_)

theorem execExtestTrain_only {A : Nat} {levels : BitVec 895} {loaded : BitVec 895} {s : State} {t : State} (h : execExtestTrain levels loaded s = .next t) (hA : Covers 0xA00000000200000 A) :
    Only A s t := by
  unfold execExtestTrain at h
  injection h with h
  subst h
  have hS : Only A s s := Only.rfl
  repeat' (first
    | with_reducible exact hS
    | with_reducible assumption
    | (with_reducible refine Covers.testBit hA ?_; decide)
    | (with_reducible refine Covers.trans ?_ hA; decide)
    | with_reducible refine State.tapExtest_only ?_ ?_)

theorem execBypass_only {A : Nat} {s : State} {t : State} (h : execBypass s = .next t) (hA : Covers 0x200000000000000 A) :
    Only A s t := by
  unfold execBypass at h
  injection h with h
  subst h
  have hS : Only A s s := Only.rfl
  repeat' (first
    | with_reducible exact hS
    | with_reducible assumption
    | (with_reducible refine Covers.testBit hA ?_; decide)
    | (with_reducible refine Covers.trans ?_ hA; decide)
    | with_reducible refine State.tapBypass_only ?_ ?_)

theorem execMemAccess_only {A : Nat} {go : Bool} {write : Bool} {addr : Fin 0x10000000000} {data : BitVec 32} {s : State} {t : State} (h : execMemAccess go write addr data s = .next t) (hA : Covers 0x1A04000000200800 A) :
    Only A s t := by
  unfold execMemAccess at h
  injection h with h
  subst h
  have hS : Only A s s := Only.rfl
  repeat' (first
    | with_reducible exact hS
    | with_reducible assumption
    | (with_reducible refine Covers.testBit hA ?_; decide)
    | (with_reducible refine Covers.trans ?_ hA; decide)
    | with_reducible refine State.memAccess_only ?_ ?_)

theorem execTapReset_only {A : Nat} {s : State} {t : State} (h : execTapReset s = .next t) (hA : Covers 0x200000000000000 A) :
    Only A s t := by
  unfold execTapReset at h
  injection h with h
  subst h
  have hS : Only A s s := Only.rfl
  repeat' (first
    | with_reducible exact hS
    | with_reducible assumption
    | (with_reducible refine Covers.testBit hA ?_; decide)
    | (with_reducible refine Covers.trans ?_ hA; decide)
    | with_reducible refine State.tapReset_only ?_ ?_)

theorem execTraceClear_only {A : Nat} {s : State} {t : State} (h : execTraceClear s = .next t) (hA : Covers 0x200000200000 A) :
    Only A s t := by
  unfold execTraceClear at h
  injection h with h
  subst h
  have hS : Only A s s := Only.rfl
  repeat' (first
    | with_reducible exact hS
    | with_reducible assumption
    | (with_reducible refine Covers.testBit hA ?_; decide)
    | (with_reducible refine Covers.trans ?_ hA; decide)
    | (refine fun _ => ?_; intros)
    | with_reducible refine State.traceClear_only ?_ ?_
    | with_reducible refine State.live_only ?_ ?_)

end Sys2Proof.Machine
end

