-- ==== Sys2Proof/Laws/ExecRowsRing.lean ====
section
/-! SUPPORT. What each command of Machine/RowsRing.lean may change. -/

set_option linter.unusedTactic false
set_option linter.unreachableTactic false
set_option linter.unusedVariables false

namespace Sys2Proof.Machine

theorem execDebugResume_only {A : Nat} {core : Fin 5} {thread : Fin 4} {s : State} {t : State} (h : execDebugResume core thread s = .next t) (hA : Covers 0x4000 A) :
    Only A s t := by
  unfold execDebugResume at h
  injection h with h
  subst h
  have hS : Only A s s := Only.rfl
  repeat' (first
    | with_reducible exact hS
    | with_reducible assumption
    | (with_reducible refine Covers.testBit hA ?_; decide)
    | (with_reducible refine Covers.trans ?_ hA; decide)
    | (refine fun _ => ?_; intros)
    | with_reducible refine State.debugResume_only ?_ ?_
    | with_reducible refine State.live_only ?_ ?_)

theorem execRead_only {A : Nat} {src : PktSrc} {v : Serve} {s : State} {t : State} (h : execRead src v s = .next t) (hA : Covers 0x1FFFFFFC007FFFFF A) :
    Only A s t := by
  unfold execRead at h
  injection h with h
  subst h
  have hS : Only A s s := Only.rfl
  repeat' (first
    | with_reducible exact hS
    | with_reducible assumption
    | (with_reducible refine Covers.testBit hA ?_; decide)
    | (with_reducible refine Covers.trans ?_ hA; decide)
    | (refine fun _ => ?_; intros)
    | with_reducible refine State.live_only ?_ ?_
    | with_reducible refine State.ringServe_only ?_ ?_)

theorem execWrite_only {A : Nat} {src : PktSrc} {v : Serve} {s : State} {t : State} (h : execWrite src v s = .next t) (hA : Covers 0x1FFFFFFC007FFFFF A) :
    Only A s t := by
  unfold execWrite at h
  injection h with h
  subst h
  have hS : Only A s s := Only.rfl
  repeat' (first
    | with_reducible exact hS
    | with_reducible assumption
    | (with_reducible refine Covers.testBit hA ?_; decide)
    | (with_reducible refine Covers.trans ?_ hA; decide)
    | (refine fun _ => ?_; intros)
    | with_reducible refine State.live_only ?_ ?_
    | with_reducible refine State.ringServe_only ?_ ?_)

theorem execRingAmoadd_only {A : Nat} {src : PktSrc} {v : Serve} {s : State} {t : State} (h : execRingAmoadd src v s = .next t) (hA : Covers 0x1FFFFFFC007FFFFF A) :
    Only A s t := by
  unfold execRingAmoadd at h
  injection h with h
  subst h
  have hS : Only A s s := Only.rfl
  repeat' (first
    | with_reducible exact hS
    | with_reducible assumption
    | (with_reducible refine Covers.testBit hA ?_; decide)
    | (with_reducible refine Covers.trans ?_ hA; decide)
    | (refine fun _ => ?_; intros)
    | with_reducible refine State.live_only ?_ ?_
    | with_reducible refine State.ringServe_only ?_ ?_)

theorem execRingAmoswap_only {A : Nat} {src : PktSrc} {v : Serve} {s : State} {t : State} (h : execRingAmoswap src v s = .next t) (hA : Covers 0x1FFFFFFC007FFFFF A) :
    Only A s t := by
  unfold execRingAmoswap at h
  injection h with h
  subst h
  have hS : Only A s s := Only.rfl
  repeat' (first
    | with_reducible exact hS
    | with_reducible assumption
    | (with_reducible refine Covers.testBit hA ?_; decide)
    | (with_reducible refine Covers.trans ?_ hA; decide)
    | (refine fun _ => ?_; intros)
    | with_reducible refine State.live_only ?_ ?_
    | with_reducible refine State.ringServe_only ?_ ?_)

theorem execWriteP_only {A : Nat} {landing : Bool} {src : PktSrc} {v : Serve} {s : State} {t : State} (h : execWriteP landing src v s = .next t) (hA : Covers 0x1FFFFFFC007FFFFF A) :
    Only A s t := by
  unfold execWriteP at h
  injection h with h
  subst h
  have hS : Only A s s := Only.rfl
  repeat' (first
    | with_reducible exact hS
    | with_reducible assumption
    | (with_reducible refine Covers.testBit hA ?_; decide)
    | (with_reducible refine Covers.trans ?_ hA; decide)
    | (refine fun _ => ?_; intros)
    | with_reducible refine Only.ite ?_ ?_
    | with_reducible refine State.live_only ?_ ?_
    | with_reducible refine State.ringServe_only ?_ ?_
    | with_reducible refine State.offerLanding_only ?_ ?_)

theorem execEvent_only {A : Nat} {src : PktSrc} {v : Serve} {s : State} {t : State} (h : execEvent src v s = .next t) (hA : Covers 0x1806000000000800 A) :
    Only A s t := by
  unfold execEvent at h
  injection h with h
  subst h
  have hS : Only A s s := Only.rfl
  repeat' (first
    | with_reducible exact hS
    | with_reducible assumption
    | (with_reducible refine Covers.testBit hA ?_; decide)
    | (with_reducible refine Covers.trans ?_ hA; decide)
    | (refine fun _ => ?_; intros)
    | with_reducible refine State.live_only ?_ ?_
    | with_reducible refine State.ringEvent_only ?_ ?_)

theorem execReadData_only {A : Nat} {k : Nat} {lat : Nat} {flits : List FlitCheck} {s : State} {t : State} (h : execReadData k lat flits s = .next t) (hA : Covers 0x1A8E20D0000868C0 A) :
    Only A s t := by
  unfold execReadData at h
  injection h with h
  subst h
  have hS : Only A s s := Only.rfl
  repeat' (first
    | with_reducible exact hS
    | with_reducible assumption
    | (with_reducible refine Covers.testBit hA ?_; decide)
    | (with_reducible refine Covers.trans ?_ hA; decide)
    | (refine fun _ => ?_; intros)
    | with_reducible refine State.live_only ?_ ?_
    | with_reducible refine State.ringResponse_only ?_ ?_)

theorem execWriteAck_only {A : Nat} {k : Nat} {lat : Nat} {flits : List FlitCheck} {s : State} {t : State} (h : execWriteAck k lat flits s = .next t) (hA : Covers 0x1A8E20D0000868C0 A) :
    Only A s t := by
  unfold execWriteAck at h
  injection h with h
  subst h
  have hS : Only A s s := Only.rfl
  repeat' (first
    | with_reducible exact hS
    | with_reducible assumption
    | (with_reducible refine Covers.testBit hA ?_; decide)
    | (with_reducible refine Covers.trans ?_ hA; decide)
    | (refine fun _ => ?_; intros)
    | with_reducible refine State.live_only ?_ ?_
    | with_reducible refine State.ringResponse_only ?_ ?_)

theorem execAmoData_only {A : Nat} {k : Nat} {lat : Nat} {flits : List FlitCheck} {s : State} {t : State} (h : execAmoData k lat flits s = .next t) (hA : Covers 0x1A8E20D0000868C0 A) :
    Only A s t := by
  unfold execAmoData at h
  injection h with h
  subst h
  have hS : Only A s s := Only.rfl
  repeat' (first
    | with_reducible exact hS
    | with_reducible assumption
    | (with_reducible refine Covers.testBit hA ?_; decide)
    | (with_reducible refine Covers.trans ?_ hA; decide)
    | (refine fun _ => ?_; intros)
    | with_reducible refine State.live_only ?_ ?_
    | with_reducible refine State.ringResponse_only ?_ ?_)

theorem execErrorReport_only {A : Nat} {page : Fin 32} {core : Fin 5} {t : Nat} {flits : List FlitCheck} {s : State} {final : State} (h : execErrorReport page core t flits s = .next final) (hA : Covers 0x1846002400108800 A) :
    Only A s final := by
  unfold execErrorReport at h
  injection h with h
  subst h
  have hS : Only A s s := Only.rfl
  repeat' (first
    | with_reducible exact hS
    | with_reducible assumption
    | (with_reducible refine Covers.testBit hA ?_; decide)
    | (with_reducible refine Covers.trans ?_ hA; decide)
    | (refine fun _ => ?_; intros)
    | with_reducible refine State.onReports_only ?_ ?_
    | with_reducible refine State.errorReport_only ?_ ?_)

theorem execWakeReq_only {A : Nat} {d : Fin 32} {flits : List FlitCheck} {s : State} {t : State} (h : execWakeReq d flits s = .next t) (hA : Covers 0x1806000000000800 A) :
    Only A s t := by
  unfold execWakeReq at h
  injection h with h
  subst h
  have hS : Only A s s := Only.rfl
  repeat' (first
    | with_reducible exact hS
    | with_reducible assumption
    | (with_reducible refine Covers.testBit hA ?_; decide)
    | (with_reducible refine Covers.trans ?_ hA; decide)
    | (refine fun _ => ?_; intros)
    | with_reducible refine State.alive_only ?_ ?_
    | with_reducible refine State.wakeReq_only ?_ ?_)

theorem execWakeDone_only {A : Nat} {d : Fin 32} {flits : List (Fin 32 × List FlitCheck)} {s : State} {t : State} (h : execWakeDone d flits s = .next t) (hA : Covers 0x1804000000000800 A) :
    Only A s t := by
  unfold execWakeDone at h
  injection h with h
  subst h
  have hS : Only A s s := Only.rfl
  repeat' (first
    | with_reducible exact hS
    | with_reducible assumption
    | (with_reducible refine Covers.testBit hA ?_; decide)
    | (with_reducible refine Covers.trans ?_ hA; decide)
    | (refine fun _ => ?_; intros)
    | with_reducible refine State.live_only ?_ ?_
    | with_reducible refine State.wakeDone_only ?_ ?_)

theorem execRingTimeout_only {A : Nat} {k : Nat} {s : State} {t : State} (h : execRingTimeout k s = .next t) (hA : Covers 0x1A8E20D0000868C0 A) :
    Only A s t := by
  unfold execRingTimeout at h
  injection h with h
  subst h
  have hS : Only A s s := Only.rfl
  repeat' (first
    | with_reducible exact hS
    | with_reducible assumption
    | (with_reducible refine Covers.testBit hA ?_; decide)
    | (with_reducible refine Covers.trans ?_ hA; decide)
    | (refine fun _ => ?_; intros)
    | with_reducible refine State.ringTimeout_only ?_ ?_
    | with_reducible refine State.live_only ?_ ?_)

theorem execRouteWrite_only {A : Nat} {stop : Fin 32} {entry : Fin 64} {mask : BitVec 32} {value : BitVec 32} {s : State} {t : State} (h : execRouteWrite stop entry mask value s = .next t) (hA : Covers 0x804000000000800 A) :
    Only A s t := by
  unfold execRouteWrite at h
  injection h with h
  subst h
  have hS : Only A s s := Only.rfl
  repeat' (first
    | with_reducible exact hS
    | with_reducible assumption
    | (with_reducible refine Covers.testBit hA ?_; decide)
    | (with_reducible refine Covers.trans ?_ hA; decide)
    | (refine fun _ => ?_; intros)
    | with_reducible refine State.writeRoute_only ?_ ?_
    | with_reducible refine State.live_only ?_ ?_)

theorem execGuarWrite_only {A : Nat} {ini : Fin 41} {stops : Bool} {mask : BitVec 32} {value : BitVec 32} {s : State} {t : State} (h : execGuarWrite ini stops mask value s = .next t) (hA : Covers 0x800000000000800 A) :
    Only A s t := by
  unfold execGuarWrite at h
  injection h with h
  subst h
  have hS : Only A s s := Only.rfl
  repeat' (first
    | with_reducible exact hS
    | with_reducible assumption
    | (with_reducible refine Covers.testBit hA ?_; decide)
    | (with_reducible refine Covers.trans ?_ hA; decide)
    | (refine fun _ => ?_; intros)
    | with_reducible refine Only.ite ?_ ?_
    | with_reducible refine State.writeGuar_only ?_ ?_
    | with_reducible refine State.live_only ?_ ?_)

theorem execMasterReset_only {A : Nat} {ini : Fin 41} {cut : Option Nat} {s : State} {t : State} (h : execMasterReset ini cut s = .next t) (hA : Covers 0x180E000000002800 A) :
    Only A s t := by
  unfold execMasterReset at h
  injection h with h
  subst h
  have hS : Only A s s := Only.rfl
  repeat' (first
    | with_reducible exact hS
    | with_reducible assumption
    | (with_reducible refine Covers.testBit hA ?_; decide)
    | (with_reducible refine Covers.trans ?_ hA; decide)
    | (refine fun _ => ?_; intros)
    | with_reducible refine State.live_only ?_ ?_
    | with_reducible refine State.masterResetAt_only ?_ ?_)

theorem execTagHoldExpiry_only {A : Nat} {k : Nat} {s : State} {t : State} (h : execTagHoldExpiry k s = .next t) (hA : Covers 0x1A8E20D0000868C0 A) :
    Only A s t := by
  unfold execTagHoldExpiry at h
  injection h with h
  subst h
  have hS : Only A s s := Only.rfl
  repeat' (first
    | with_reducible exact hS
    | with_reducible assumption
    | (with_reducible refine Covers.testBit hA ?_; decide)
    | (with_reducible refine Covers.trans ?_ hA; decide)
    | (refine fun _ => ?_; intros)
    | with_reducible refine State.tagReturns_only ?_ ?_
    | with_reducible refine State.live_only ?_ ?_)

theorem execLatSumRead_only {A : Nat} {ini : Fin 41} {i : Fin 41} {s : State} {t : State} (h : execLatSumRead ini i s = .next t) (hA : Covers 0x1FFFFFFC007FFFFF A) :
    Only A s t := by
  unfold execLatSumRead at h
  injection h with h
  subst h
  have hS : Only A s s := Only.rfl
  repeat' (first
    | with_reducible exact hS
    | with_reducible assumption
    | (with_reducible refine Covers.testBit hA ?_; decide)
    | (with_reducible refine Covers.trans ?_ hA; decide)
    | with_reducible refine State.regRead_only ?_ ?_)

theorem execDmaStart_only {A : Nat} {n : Fin 16} {s : State} {t : State} (h : execDmaStart n s = .next t) (hA : Covers 0x1806000000000800 A) :
    Only A s t := by
  unfold execDmaStart at h
  injection h with h
  subst h
  have hS : Only A s s := Only.rfl
  repeat' (first
    | with_reducible exact hS
    | with_reducible assumption
    | (with_reducible refine Covers.testBit hA ?_; decide)
    | (with_reducible refine Covers.trans ?_ hA; decide)
    | (refine fun _ => ?_; intros)
    | with_reducible refine State.dmaStart_only ?_ ?_
    | with_reducible refine State.live_only ?_ ?_)

theorem execDmaAbort_only {A : Nat} {n : Fin 16} {s : State} {t : State} (h : execDmaAbort n s = .next t) (hA : Covers 0x1006000000000800 A) :
    Only A s t := by
  unfold execDmaAbort at h
  injection h with h
  subst h
  have hS : Only A s s := Only.rfl
  repeat' (first
    | with_reducible exact hS
    | with_reducible assumption
    | (with_reducible refine Covers.testBit hA ?_; decide)
    | (with_reducible refine Covers.trans ?_ hA; decide)
    | (refine fun _ => ?_; intros)
    | with_reducible refine State.dmaAbort_only ?_ ?_
    | with_reducible refine State.live_only ?_ ?_)

theorem execDmaResume_only {A : Nat} {n : Fin 16} {s : State} {t : State} (h : execDmaResume n s = .next t) (hA : Covers 0x1004000000000800 A) :
    Only A s t := by
  unfold execDmaResume at h
  injection h with h
  subst h
  have hS : Only A s s := Only.rfl
  repeat' (first
    | with_reducible exact hS
    | with_reducible assumption
    | (with_reducible refine Covers.testBit hA ?_; decide)
    | (with_reducible refine Covers.trans ?_ hA; decide)
    | (refine fun _ => ?_; intros)
    | with_reducible refine State.dmaResume_only ?_ ?_
    | with_reducible refine State.live_only ?_ ?_)

theorem execDmaDescriptorComplete_only {A : Nat} {n : Fin 16} {s : State} {t : State} (h : execDmaDescriptorComplete n s = .next t) (hA : Covers 0x1006000000000800 A) :
    Only A s t := by
  unfold execDmaDescriptorComplete at h
  injection h with h
  subst h
  have hS : Only A s s := Only.rfl
  repeat' (first
    | with_reducible exact hS
    | with_reducible assumption
    | (with_reducible refine Covers.testBit hA ?_; decide)
    | (with_reducible refine Covers.trans ?_ hA; decide)
    | (refine fun _ => ?_; intros)
    | with_reducible refine State.dmaDescriptorComplete_only ?_ ?_
    | with_reducible refine State.live_only ?_ ?_)

theorem execSpdPatrolScrub_only {A : Nat} {o : Fin 0x800000} {e : Codeword} {stall : Nat} {s : State} {t : State} (h : execSpdPatrolScrub o e stall s = .next t) (hA : Covers 0x180000D000005200 A) :
    Only A s t := by
  unfold execSpdPatrolScrub at h
  injection h with h
  subst h
  have hS : Only A s s := Only.rfl
  repeat' (first
    | with_reducible exact hS
    | with_reducible assumption
    | (with_reducible refine Covers.testBit hA ?_; decide)
    | (with_reducible refine Covers.trans ?_ hA; decide)
    | (refine fun _ => ?_; intros)
    | with_reducible refine State.live_only ?_ ?_
    | with_reducible refine State.spdScrub_only ?_ ?_)

theorem execSpdClearComplete_only {A : Nat} {s : State} {t : State} (h : execSpdClearComplete s = .next t) (hA : Covers 0x1804000000001800 A) :
    Only A s t := by
  unfold execSpdClearComplete at h
  injection h with h
  subst h
  have hS : Only A s s := Only.rfl
  repeat' (first
    | with_reducible exact hS
    | with_reducible assumption
    | (with_reducible refine Covers.testBit hA ?_; decide)
    | (with_reducible refine Covers.trans ?_ hA; decide)
    | (refine fun _ => ?_; intros)
    | with_reducible refine State.live_only ?_ ?_
    | with_reducible refine State.spdClearComplete_only ?_ ?_)

theorem execMailboxKeeperAccess_only {A : Nat} {o : Codeword} {other : Option Nat} {v : Serve} {s : State} {t : State} (h : execMailboxKeeperAccess o other v s = .next t) (hA : Covers 0x1FFFFFFC007FFFFF A) :
    Only A s t := by
  unfold execMailboxKeeperAccess at h
  injection h with h
  subst h
  have hS : Only A s s := Only.rfl
  repeat' (first
    | with_reducible exact hS
    | with_reducible assumption
    | (with_reducible refine Covers.testBit hA ?_; decide)
    | (with_reducible refine Covers.trans ?_ hA; decide)
    | (refine fun _ => ?_; intros)
    | with_reducible refine State.alive_only ?_ ?_
    | with_reducible refine State.mailboxKeeper_only ?_ ?_)

theorem execMailboxScrub_only {A : Nat} {o : Fin 0x10000} {e : Codeword} {s : State} {t : State} (h : execMailboxScrub o e s = .next t) (hA : Covers 0x180000D000005200 A) :
    Only A s t := by
  unfold execMailboxScrub at h
  injection h with h
  subst h
  have hS : Only A s s := Only.rfl
  repeat' (first
    | with_reducible exact hS
    | with_reducible assumption
    | (with_reducible refine Covers.testBit hA ?_; decide)
    | (with_reducible refine Covers.trans ?_ hA; decide)
    | (refine fun _ => ?_; intros)
    | with_reducible refine State.powered_only ?_ ?_
    | with_reducible refine State.mailboxScrub_only ?_ ?_)

theorem execMailboxDoorbell_only {A : Nat} {ini : Fin 41} {mask : BitVec 32} {value : BitVec 32} {s : State} {t : State} (h : execMailboxDoorbell ini mask value s = .next t) (hA : Covers 0x802000000001000 A) :
    Only A s t := by
  unfold execMailboxDoorbell at h
  injection h with h
  subst h
  have hS : Only A s s := Only.rfl
  repeat' (first
    | with_reducible exact hS
    | with_reducible assumption
    | (with_reducible refine Covers.testBit hA ?_; decide)
    | (with_reducible refine Covers.trans ?_ hA; decide)
    | (refine fun _ => ?_; intros)
    | with_reducible refine State.alive_only ?_ ?_
    | with_reducible refine State.doorbell_only ?_ ?_
    | with_reducible refine Only.Fst.ite ?_ ?_
    | with_reducible refine Only.Fst.unpair (by assumption)
    | with_reducible refine Only.Fst.of ?_
    | with_reducible refine Only.Fst.pair ?_
    | with_reducible refine Only.Fst.elim (by assumption) ?_)

theorem execSemTry_only {A : Nat} {ini : Fin 41} {n : Fin 512} {s : State} {t : State} (h : execSemTry ini n s = .next t) (hA : Covers 0x180A000000002000 A) :
    Only A s t := by
  unfold execSemTry at h
  injection h with h
  subst h
  have hS : Only A s s := Only.rfl
  repeat' (first
    | with_reducible exact hS
    | with_reducible assumption
    | (with_reducible refine Covers.testBit hA ?_; decide)
    | (with_reducible refine Covers.trans ?_ hA; decide)
    | (refine fun _ => ?_; intros)
    | with_reducible refine State.semRequest_only ?_ ?_
    | with_reducible refine State.live_only ?_ ?_)

theorem execWait_only {A : Nat} {ini : Fin 41} {n : Fin 512} {prio : Fin 8} {s : State} {t : State} (h : execWait ini n prio s = .next t) (hA : Covers 0x180A000000002000 A) :
    Only A s t := by
  unfold execWait at h
  injection h with h
  subst h
  have hS : Only A s s := Only.rfl
  repeat' (first
    | with_reducible exact hS
    | with_reducible assumption
    | (with_reducible refine Covers.testBit hA ?_; decide)
    | (with_reducible refine Covers.trans ?_ hA; decide)
    | (refine fun _ => ?_; intros)
    | with_reducible refine State.semRequest_only ?_ ?_
    | with_reducible refine State.live_only ?_ ?_)

theorem execRelease_only {A : Nat} {ini : Fin 41} {n : Fin 512} {s : State} {t : State} (h : execRelease ini n s = .next t) (hA : Covers 0x180A000000002000 A) :
    Only A s t := by
  unfold execRelease at h
  injection h with h
  subst h
  have hS : Only A s s := Only.rfl
  repeat' (first
    | with_reducible exact hS
    | with_reducible assumption
    | (with_reducible refine Covers.testBit hA ?_; decide)
    | (with_reducible refine Covers.trans ?_ hA; decide)
    | (refine fun _ => ?_; intros)
    | with_reducible refine State.semRequest_only ?_ ?_
    | with_reducible refine State.live_only ?_ ?_)

theorem execCancel_only {A : Nat} {ini : Fin 41} {n : Fin 512} {s : State} {t : State} (h : execCancel ini n s = .next t) (hA : Covers 0x180A000000002000 A) :
    Only A s t := by
  unfold execCancel at h
  injection h with h
  subst h
  have hS : Only A s s := Only.rfl
  repeat' (first
    | with_reducible exact hS
    | with_reducible assumption
    | (with_reducible refine Covers.testBit hA ?_; decide)
    | (with_reducible refine Covers.trans ?_ hA; decide)
    | (refine fun _ => ?_; intros)
    | with_reducible refine State.semRequest_only ?_ ?_
    | with_reducible refine State.live_only ?_ ?_)

theorem execRenew_only {A : Nat} {ini : Fin 41} {n : Fin 512} {s : State} {t : State} (h : execRenew ini n s = .next t) (hA : Covers 0x180A000000002000 A) :
    Only A s t := by
  unfold execRenew at h
  injection h with h
  subst h
  have hS : Only A s s := Only.rfl
  repeat' (first
    | with_reducible exact hS
    | with_reducible assumption
    | (with_reducible refine Covers.testBit hA ?_; decide)
    | (with_reducible refine Covers.trans ?_ hA; decide)
    | (refine fun _ => ?_; intros)
    | with_reducible refine State.semRequest_only ?_ ?_
    | with_reducible refine State.live_only ?_ ?_)

theorem execBadOperation_only {A : Nat} {ini : Fin 41} {n : Fin 512} {op : Fin 16} {prio : Fin 8} {s : State} {t : State} (h : execBadOperation ini n op prio s = .next t) (hA : Covers 0x180A000000002000 A) :
    Only A s t := by
  unfold execBadOperation at h
  injection h with h
  subst h
  have hS : Only A s s := Only.rfl
  repeat' (first
    | with_reducible exact hS
    | with_reducible assumption
    | (with_reducible refine Covers.testBit hA ?_; decide)
    | (with_reducible refine Covers.trans ?_ hA; decide)
    | (refine fun _ => ?_; intros)
    | with_reducible refine State.semRequest_only ?_ ?_
    | with_reducible refine State.live_only ?_ ?_)

theorem execLeaseExpiry_only {A : Nat} {n : Fin 512} {s : State} {t : State} (h : execLeaseExpiry n s = .next t) (hA : Covers 0x180A000000002000 A) :
    Only A s t := by
  unfold execLeaseExpiry at h
  injection h with h
  subst h
  have hS : Only A s s := Only.rfl
  repeat' (first
    | with_reducible exact hS
    | with_reducible assumption
    | (with_reducible refine Covers.testBit hA ?_; decide)
    | (with_reducible refine Covers.trans ?_ hA; decide)
    | (refine fun _ => ?_; intros)
    | with_reducible refine State.leaseExpiry_only ?_ ?_
    | with_reducible refine State.live_only ?_ ?_)

theorem execSemAdminWrite_only {A : Nat} {ini : Fin 41} {off : Fin 65536} {mask : BitVec 32} {value : BitVec 32} {s : State} {t : State} (h : execSemAdminWrite ini off mask value s = .next t) (hA : Covers 0x1800000000002000 A) :
    Only A s t := by
  unfold execSemAdminWrite at h
  injection h with h
  subst h
  have hS : Only A s s := Only.rfl
  repeat' (first
    | with_reducible exact hS
    | with_reducible assumption
    | (with_reducible refine Covers.testBit hA ?_; decide)
    | (with_reducible refine Covers.trans ?_ hA; decide)
    | (refine fun _ => ?_; intros)
    | with_reducible refine State.writeSemAdmin_only ?_ ?_
    | with_reducible refine State.live_only ?_ ?_
    | with_reducible refine Only.Fst.ite ?_ ?_
    | with_reducible refine Only.Fst.unpair (by assumption)
    | with_reducible refine Only.Fst.of ?_
    | with_reducible refine Only.Fst.pair ?_
    | with_reducible refine Only.Fst.elim (by assumption) ?_)

end Sys2Proof.Machine
end

