-- ==== Sys2Proof/Laws/ExecRowsTiming.lean ====
section
/-! SUPPORT. What each command of Machine/RowsTiming.lean may change. -/

set_option linter.unusedTactic false
set_option linter.unreachableTactic false
set_option linter.unusedVariables false

namespace Sys2Proof.Machine

theorem execRegisterWrite_only {A : Nat} {ini : Fin 41} {page : Fin 256} {off : Fin 65536} {data : List (BitVec 8)} {s : State} {t : State} (h : execRegisterWrite ini page off data s = .next t) (hA : Covers 0x1FFFFFFC007FFFFF A) :
    Only A s t := by
  unfold execRegisterWrite at h
  injection h with h
  subst h
  have hS : Only A s s := Only.rfl
  repeat' (first
    | with_reducible exact hS
    | with_reducible assumption
    | (with_reducible refine Covers.testBit hA ?_; decide)
    | (with_reducible refine Covers.trans ?_ hA; decide)
    | with_reducible refine State.regWrite_only ?_ ?_)

theorem execRcFieldRead_only {A : Nat} {ini : Fin 41} {page : Fin 256} {off : Fin 65536} {len : Fin 9} {s : State} {t : State} (h : execRcFieldRead ini page off len s = .next t) (hA : Covers 0x1FFFFFFC007FFFFF A) :
    Only A s t := by
  unfold execRcFieldRead at h
  injection h with h
  subst h
  have hS : Only A s s := Only.rfl
  repeat' (first
    | with_reducible exact hS
    | with_reducible assumption
    | (with_reducible refine Covers.testBit hA ?_; decide)
    | (with_reducible refine Covers.trans ?_ hA; decide)
    | with_reducible refine State.regRead_only ?_ ?_)

theorem execHoldingRegisterLatch_only {A : Nat} {ini : Fin 41} {page : Fin 256} {off : Fin 65536} {s : State} {t : State} (h : execHoldingRegisterLatch ini page off s = .next t) (hA : Covers 0x1FFFFFFC007FFFFF A) :
    Only A s t := by
  unfold execHoldingRegisterLatch at h
  injection h with h
  subst h
  have hS : Only A s s := Only.rfl
  repeat' (first
    | with_reducible exact hS
    | with_reducible assumption
    | (with_reducible refine Covers.testBit hA ?_; decide)
    | (with_reducible refine Covers.trans ?_ hA; decide)
    | with_reducible refine State.regRead_only ?_ ?_)

theorem execSlotReferenceEdge_only {A : Nat} {t : Nat} {meas : Option Nat} {s : State} {final : State} (h : execSlotReferenceEdge t meas s = .next final) (hA : Covers 0x18012B04000000C2 A) :
    Only A s final := by
  unfold execSlotReferenceEdge at h
  injection h with h
  subst h
  have hS : Only A s s := Only.rfl
  repeat' (first
    | with_reducible exact hS
    | with_reducible assumption
    | (with_reducible refine Covers.testBit hA ?_; decide)
    | (with_reducible refine Covers.trans ?_ hA; decide)
    | (refine fun _ => ?_; intros)
    | with_reducible refine State.slotEdge_only ?_ ?_
    | with_reducible refine State.live_only ?_ ?_)

theorem execGnomonEnableWrite_only {A : Nat} {t : Nat} {enable : Bool} {s : State} {final : State} (h : execGnomonEnableWrite t enable s = .next final) (hA : Covers 0x18507944000101FA A) :
    Only A s final := by
  unfold execGnomonEnableWrite at h
  injection h with h
  subst h
  have hS : Only A s s := Only.rfl
  repeat' (first
    | with_reducible exact hS
    | with_reducible assumption
    | (with_reducible refine Covers.testBit hA ?_; decide)
    | (with_reducible refine Covers.trans ?_ hA; decide)
    | (refine fun _ => ?_; intros)
    | with_reducible refine State.writeGnoCtrl_only ?_ ?_
    | with_reducible refine State.live_only ?_ ?_)

theorem execAcquisitionComplete_only {A : Nat} {t : Nat} {s : State} {final : State} (h : execAcquisitionComplete t s = .next final) (hA : Covers 0x18002004000007D6 A) :
    Only A s final := by
  unfold execAcquisitionComplete at h
  injection h with h
  subst h
  have hS : Only A s s := Only.rfl
  repeat' (first
    | with_reducible exact hS
    | with_reducible assumption
    | (with_reducible refine Covers.testBit hA ?_; decide)
    | (with_reducible refine Covers.trans ?_ hA; decide)
    | (refine fun _ => ?_; intros)
    | with_reducible refine State.acquired_only ?_ ?_
    | with_reducible refine State.live_only ?_ ?_)

theorem execXclkLoss_only {A : Nat} {t : Nat} {freq : Bool} {s : State} {final : State} (h : execXclkLoss t freq s = .next final) (hA : Covers 0x18507944000101FA A) :
    Only A s final := by
  unfold execXclkLoss at h
  injection h with h
  subst h
  have hS : Only A s s := Only.rfl
  repeat' (first
    | with_reducible exact hS
    | with_reducible assumption
    | (with_reducible refine Covers.testBit hA ?_; decide)
    | (with_reducible refine Covers.trans ?_ hA; decide)
    | (refine fun _ => ?_; intros)
    | with_reducible refine State.xclkLoss_only ?_ ?_
    | with_reducible refine State.live_only ?_ ?_)

theorem execHoldoverRecovery_only {A : Nat} {s : State} {t : State} (h : execHoldoverRecovery s = .next t) (hA : Covers 0x2 A) :
    Only A s t := by
  unfold execHoldoverRecovery at h
  injection h with h
  subst h
  have hS : Only A s s := Only.rfl
  repeat' (first
    | with_reducible exact hS
    | with_reducible assumption
    | (with_reducible refine Covers.testBit hA ?_; decide)
    | (with_reducible refine Covers.trans ?_ hA; decide)
    | (refine fun _ => ?_; intros)
    | with_reducible refine State.holdoverRecovery_only ?_ ?_
    | with_reducible refine State.live_only ?_ ?_)

theorem execHoldoverLimitExpiry_only {A : Nat} {t : Nat} {s : State} {final : State} (h : execHoldoverLimitExpiry t s = .next final) (hA : Covers 0x18507944000101FA A) :
    Only A s final := by
  unfold execHoldoverLimitExpiry at h
  injection h with h
  subst h
  have hS : Only A s s := Only.rfl
  repeat' (first
    | with_reducible exact hS
    | with_reducible assumption
    | (with_reducible refine Covers.testBit hA ?_; decide)
    | (with_reducible refine Covers.trans ?_ hA; decide)
    | (refine fun _ => ?_; intros)
    | with_reducible refine State.holdoverExpiry_only ?_ ?_
    | with_reducible refine State.live_only ?_ ?_)

theorem execLostAutoRelock_only {A : Nat} {t : Nat} {s : State} {final : State} (h : execLostAutoRelock t s = .next final) (hA : Covers 0x210400000082 A) :
    Only A s final := by
  unfold execLostAutoRelock at h
  injection h with h
  subst h
  have hS : Only A s s := Only.rfl
  repeat' (first
    | with_reducible exact hS
    | with_reducible assumption
    | (with_reducible refine Covers.testBit hA ?_; decide)
    | (with_reducible refine Covers.trans ?_ hA; decide)
    | (refine fun _ => ?_; intros)
    | with_reducible refine State.relock_only ?_ ?_
    | with_reducible refine State.live_only ?_ ?_)

theorem execReacquire_only {A : Nat} {t : Nat} {s : State} {final : State} (h : execReacquire t s = .next final) (hA : Covers 0x210400000082 A) :
    Only A s final := by
  unfold execReacquire at h
  injection h with h
  subst h
  have hS : Only A s s := Only.rfl
  repeat' (first
    | with_reducible exact hS
    | with_reducible assumption
    | (with_reducible refine Covers.testBit hA ?_; decide)
    | (with_reducible refine Covers.trans ?_ hA; decide)
    | (refine fun _ => ?_; intros)
    | with_reducible refine State.relock_only ?_ ?_
    | with_reducible refine State.live_only ?_ ?_)

theorem execCancelNamed_only {A : Nat} {s : State} {t : State} (h : execCancelNamed s = .next t) (hA : Covers 0x18503940000101FA A) :
    Only A s t := by
  unfold execCancelNamed at h
  injection h with h
  subst h
  have hS : Only A s s := Only.rfl
  repeat' (first
    | with_reducible exact hS
    | with_reducible assumption
    | (with_reducible refine Covers.testBit hA ?_; decide)
    | (with_reducible refine Covers.trans ?_ hA; decide)
    | (refine fun _ => ?_; intros)
    | with_reducible refine State.cancelCommand_only ?_ ?_
    | with_reducible refine State.live_only ?_ ?_)

theorem execFcInject_only {A : Nat} {word : BitVec 16} {s : State} {t : State} (h : execFcInject word s = .next t) (hA : Covers 0x1800010000000002 A) :
    Only A s t := by
  unfold execFcInject at h
  injection h with h
  subst h
  have hS : Only A s s := Only.rfl
  repeat' (first
    | with_reducible exact hS
    | with_reducible assumption
    | (with_reducible refine Covers.testBit hA ?_; decide)
    | (with_reducible refine Covers.trans ?_ hA; decide)
    | (refine fun _ => ?_; intros)
    | with_reducible refine State.fcInject_only ?_ ?_
    | with_reducible refine State.live_only ?_ ?_)

theorem execOrbitMark_only {A : Nat} {s : State} {t : State} (h : execOrbitMark s = .next t) (hA : Covers 0x18507940000101FA A) :
    Only A s t := by
  unfold execOrbitMark at h
  injection h with h
  subst h
  have hS : Only A s s := Only.rfl
  repeat' (first
    | with_reducible exact hS
    | with_reducible assumption
    | (with_reducible refine Covers.testBit hA ?_; decide)
    | (with_reducible refine Covers.trans ?_ hA; decide)
    | (refine fun _ => ?_; intros)
    | with_reducible refine State.orbitMark_only ?_ ?_
    | with_reducible refine State.live_only ?_ ?_)

theorem execAccept_only {A : Nat} {s : State} {t : State} (h : execAccept s = .next t) (hA : Covers 0x1801010000000402 A) :
    Only A s t := by
  unfold execAccept at h
  injection h with h
  subst h
  have hS : Only A s s := Only.rfl
  repeat' (first
    | with_reducible exact hS
    | with_reducible assumption
    | (with_reducible refine Covers.testBit hA ?_; decide)
    | (with_reducible refine Covers.trans ?_ hA; decide)
    | (refine fun _ => ?_; intros)
    | with_reducible refine State.externalAccept_only ?_ ?_
    | with_reducible refine State.live_only ?_ ?_)

theorem execEventReset_only {A : Nat} {s : State} {t : State} (h : execEventReset s = .next t) (hA : Covers 0x10000000002 A) :
    Only A s t := by
  unfold execEventReset at h
  injection h with h
  subst h
  have hS : Only A s s := Only.rfl
  repeat' (first
    | with_reducible exact hS
    | with_reducible assumption
    | (with_reducible refine Covers.testBit hA ?_; decide)
    | (with_reducible refine Covers.trans ?_ hA; decide)
    | (refine fun _ => ?_; intros)
    | with_reducible refine State.eventReset_only ?_ ?_
    | with_reducible refine State.live_only ?_ ?_)

theorem execOrbitReset_only {A : Nat} {s : State} {t : State} (h : execOrbitReset s = .next t) (hA : Covers 0x10000000002 A) :
    Only A s t := by
  unfold execOrbitReset at h
  injection h with h
  subst h
  have hS : Only A s s := Only.rfl
  repeat' (first
    | with_reducible exact hS
    | with_reducible assumption
    | (with_reducible refine Covers.testBit hA ?_; decide)
    | (with_reducible refine Covers.trans ?_ hA; decide)
    | (refine fun _ => ?_; intros)
    | with_reducible refine State.orbitReset_only ?_ ?_
    | with_reducible refine State.live_only ?_ ?_)

theorem execOrbitResetAct_only {A : Nat} {s : State} {t : State} (h : execOrbitResetAct s = .next t) (hA : Covers 0x10000000002 A) :
    Only A s t := by
  unfold execOrbitResetAct at h
  injection h with h
  subst h
  have hS : Only A s s := Only.rfl
  repeat' (first
    | with_reducible exact hS
    | with_reducible assumption
    | (with_reducible refine Covers.testBit hA ?_; decide)
    | (with_reducible refine Covers.trans ?_ hA; decide)
    | (refine fun _ => ?_; intros)
    | with_reducible refine State.orbitResetAct_only ?_ ?_
    | with_reducible refine State.live_only ?_ ?_)

theorem execResync_only {A : Nat} {s : State} {t : State} (h : execResync s = .next t) (hA : Covers 0x10000000002 A) :
    Only A s t := by
  unfold execResync at h
  injection h with h
  subst h
  have hS : Only A s s := Only.rfl
  repeat' (first
    | with_reducible exact hS
    | with_reducible assumption
    | (with_reducible refine Covers.testBit hA ?_; decide)
    | (with_reducible refine Covers.trans ?_ hA; decide)
    | (refine fun _ => ?_; intros)
    | with_reducible refine State.resync_only ?_ ?_
    | with_reducible refine State.live_only ?_ ?_)

theorem execCalReq_only {A : Nat} {s : State} {t : State} (h : execCalReq s = .next t) (hA : Covers 0x1800010000000042 A) :
    Only A s t := by
  unfold execCalReq at h
  injection h with h
  subst h
  have hS : Only A s s := Only.rfl
  repeat' (first
    | with_reducible exact hS
    | with_reducible assumption
    | (with_reducible refine Covers.testBit hA ?_; decide)
    | (with_reducible refine Covers.trans ?_ hA; decide)
    | (refine fun _ => ?_; intros)
    | with_reducible refine State.forward_only ?_ ?_
    | with_reducible refine State.live_only ?_ ?_)

theorem execUserCommand_only {A : Nat} {n : Fin 16} {s : State} {t : State} (h : execUserCommand n s = .next t) (hA : Covers 0x1800010000000042 A) :
    Only A s t := by
  unfold execUserCommand at h
  injection h with h
  subst h
  have hS : Only A s s := Only.rfl
  repeat' (first
    | with_reducible exact hS
    | with_reducible assumption
    | (with_reducible refine Covers.testBit hA ?_; decide)
    | (with_reducible refine Covers.trans ?_ hA; decide)
    | (refine fun _ => ?_; intros)
    | with_reducible refine State.forward_only ?_ ?_
    | with_reducible refine State.live_only ?_ ?_)

theorem execInternalAccept_only {A : Nat} {s : State} {t : State} (h : execInternalAccept s = .next t) (hA : Covers 0x1801010000000402 A) :
    Only A s t := by
  unfold execInternalAccept at h
  injection h with h
  subst h
  have hS : Only A s s := Only.rfl
  repeat' (first
    | with_reducible exact hS
    | with_reducible assumption
    | (with_reducible refine Covers.testBit hA ?_; decide)
    | (with_reducible refine Covers.trans ?_ hA; decide)
    | (refine fun _ => ?_; intros)
    | with_reducible refine State.internalAccept_only ?_ ?_
    | with_reducible refine State.live_only ?_ ?_)

theorem execSlotBarrier_only {A : Nat} {t : Nat} {ecc : EccMap} {s : State} {final : State} (h : execSlotBarrier t ecc s = .next final) (hA : Covers 0x1CD3FBD4004507FE A) :
    Only A s final := by
  unfold execSlotBarrier at h
  injection h with h
  subst h
  have hS : Only A s s := Only.rfl
  repeat' (first
    | with_reducible exact hS
    | with_reducible assumption
    | (with_reducible refine Covers.testBit hA ?_; decide)
    | (with_reducible refine Covers.trans ?_ hA; decide)
    | (refine fun _ => ?_; intros)
    | with_reducible refine State.slotBarrier_only ?_ ?_
    | with_reducible refine State.live_only ?_ ?_)

end Sys2Proof.Machine
end

