-- ==== Sys2Proof/Laws/State.lean ====
section
/-! SUPPORT. What the named updates of the state leave in each of its fields, and the laws of registers, memory and the
gates of power. -/

namespace Sys2Proof.Machine

/-! ### One lemma per field per update -/

section

variable (s : State) (f : Fld) (v i j : Nat)

@[simp] theorem State.put_pending : (s.put f v i j).pending = s.pending := rfl
@[simp] theorem State.put_csr : (s.put f v i j).csr = Sparse.set 0 s.csr (f.key i j) ((v % 2 ^ f.width) ^^^ f.reset i j) := rfl
@[simp] theorem State.put_now : (s.put f v i j).now = s.now := rfl
@[simp] theorem State.put_dawnAt : (s.put f v i j).dawnAt = s.dawnAt := rfl
@[simp] theorem State.put_freeCount : (s.put f v i j).freeCount = s.freeCount := rfl
@[simp] theorem State.put_sent : (s.put f v i j).sent = s.sent := rfl
@[simp] theorem State.put_mem : (s.put f v i j).mem = s.mem := rfl
@[simp] theorem State.put_poison : (s.put f v i j).poison = s.poison := rfl
@[simp] theorem State.put_gno : (s.put f v i j).gno = s.gno := rfl
@[simp] theorem State.put_edge : (s.put f v i j).edge = s.edge := rfl
@[simp] theorem State.put_ledIn : (s.put f v i j).ledIn = s.ledIn := rfl
@[simp] theorem State.put_pri : (s.put f v i j).pri = s.pri := rfl
@[simp] theorem State.put_arr : (s.put f v i j).arr = s.arr := rfl
@[simp] theorem State.put_seq : (s.put f v i j).seq = s.seq := rfl
@[simp] theorem State.put_wor : (s.put f v i j).wor = s.wor := rfl
@[simp] theorem State.put_hbm : (s.put f v i j).hbm = s.hbm := rfl
@[simp] theorem State.put_rdo : (s.put f v i j).rdo = s.rdo := rfl
@[simp] theorem State.put_cpu : (s.put f v i j).cpu = s.cpu := rfl
@[simp] theorem State.put_ring : (s.put f v i j).ring = s.ring := rfl
@[simp] theorem State.put_sem : (s.put f v i j).sem = s.sem := rfl
@[simp] theorem State.put_tar : (s.put f v i j).tar = s.tar := rfl
@[simp] theorem State.put_led : (s.put f v i j).led = s.led := rfl
@[simp] theorem State.put_dic : (s.put f v i j).dic = s.dic := rfl
@[simp] theorem State.put_pwr : (s.put f v i j).pwr = s.pwr := rfl
@[simp] theorem State.put_flash : (s.put f v i j).flash = s.flash := rfl
@[simp] theorem State.put_tap : (s.put f v i j).tap = s.tap := rfl
@[simp] theorem State.put_lanes : (s.put f v i j).lanes = s.lanes := rfl
@[simp] theorem State.put_erq : (s.put f v i j).erq = s.erq := rfl
@[simp] theorem State.put_counts : (s.put f v i j).counts = s.counts := rfl
@[simp] theorem State.byte_put (y : Nat) : (s.put f v i j).byte y = s.byte y := rfl

end

section

variable (s : State) (page inst code detail : Nat)

@[simp] theorem State.report_pending : (s.report page inst code detail).pending = s.pending := rfl
@[simp] theorem State.report_csr : (s.report page inst code detail).csr = s.csr := rfl
@[simp] theorem State.report_now : (s.report page inst code detail).now = s.now := rfl
@[simp] theorem State.report_dawnAt : (s.report page inst code detail).dawnAt = s.dawnAt := rfl
@[simp] theorem State.report_freeCount : (s.report page inst code detail).freeCount = s.freeCount := rfl
@[simp] theorem State.report_sent : (s.report page inst code detail).sent = s.sent := rfl
@[simp] theorem State.report_mem : (s.report page inst code detail).mem = s.mem := rfl
@[simp] theorem State.report_poison : (s.report page inst code detail).poison = s.poison := rfl
@[simp] theorem State.report_gno : (s.report page inst code detail).gno = s.gno := rfl
@[simp] theorem State.report_edge : (s.report page inst code detail).edge = s.edge := rfl
@[simp] theorem State.report_ledIn : (s.report page inst code detail).ledIn = s.ledIn := rfl
@[simp] theorem State.report_pri : (s.report page inst code detail).pri = s.pri := rfl
@[simp] theorem State.report_arr : (s.report page inst code detail).arr = s.arr := rfl
@[simp] theorem State.report_seq : (s.report page inst code detail).seq = s.seq := rfl
@[simp] theorem State.report_wor : (s.report page inst code detail).wor = s.wor := rfl
@[simp] theorem State.report_hbm : (s.report page inst code detail).hbm = s.hbm := rfl
@[simp] theorem State.report_rdo : (s.report page inst code detail).rdo = s.rdo := rfl
@[simp] theorem State.report_cpu : (s.report page inst code detail).cpu = s.cpu := rfl
@[simp] theorem State.report_ring : (s.report page inst code detail).ring = s.ring := rfl
@[simp] theorem State.report_sem : (s.report page inst code detail).sem = s.sem := rfl
@[simp] theorem State.report_tar : (s.report page inst code detail).tar = s.tar := rfl
@[simp] theorem State.report_led : (s.report page inst code detail).led = s.led := rfl
@[simp] theorem State.report_dic : (s.report page inst code detail).dic = s.dic := rfl
@[simp] theorem State.report_pwr : (s.report page inst code detail).pwr = s.pwr := rfl
@[simp] theorem State.report_flash : (s.report page inst code detail).flash = s.flash := rfl
@[simp] theorem State.report_tap : (s.report page inst code detail).tap = s.tap := rfl
@[simp] theorem State.report_lanes : (s.report page inst code detail).lanes = s.lanes := rfl
@[simp] theorem State.report_erq : (s.report page inst code detail).erq = { s.erq with reports := joinReport { page, inst, code, count := 1, first := detail, last := detail, core := reportCore page inst code detail } s.erq.reports } := rfl
@[simp] theorem State.report_counts : (s.report page inst code detail).counts = s.counts := rfl
@[simp] theorem State.get_report (g : Fld) (k l : Nat) : (s.report page inst code detail).get g k l = s.get g k l := rfl
@[simp] theorem State.bit_report (g : Fld) (k l : Nat) : (s.report page inst code detail).bit g k l = s.bit g k l := rfl
@[simp] theorem State.byte_report (y : Nat) : (s.report page inst code detail).byte y = s.byte y := rfl

end

section

variable (s : State) (f : Fld) (u : Nat → Nat) (i j : Nat)

@[simp] theorem State.updCopy_pending : (s.updCopy f u i j).pending = s.pending := rfl
@[simp] theorem State.updCopy_csr : (s.updCopy f u i j).csr = s.csr := rfl
@[simp] theorem State.updCopy_now : (s.updCopy f u i j).now = s.now := rfl
@[simp] theorem State.updCopy_dawnAt : (s.updCopy f u i j).dawnAt = s.dawnAt := rfl
@[simp] theorem State.updCopy_freeCount : (s.updCopy f u i j).freeCount = s.freeCount := rfl
@[simp] theorem State.updCopy_sent : (s.updCopy f u i j).sent = s.sent := rfl
@[simp] theorem State.updCopy_mem : (s.updCopy f u i j).mem = s.mem := rfl
@[simp] theorem State.updCopy_poison : (s.updCopy f u i j).poison = s.poison := rfl
@[simp] theorem State.updCopy_gno : (s.updCopy f u i j).gno = s.gno := rfl
@[simp] theorem State.updCopy_edge : (s.updCopy f u i j).edge = s.edge := rfl
@[simp] theorem State.updCopy_ledIn : (s.updCopy f u i j).ledIn = s.ledIn := rfl
@[simp] theorem State.updCopy_pri : (s.updCopy f u i j).pri = s.pri := rfl
@[simp] theorem State.updCopy_arr : (s.updCopy f u i j).arr = s.arr := rfl
@[simp] theorem State.updCopy_seq : (s.updCopy f u i j).seq = s.seq := rfl
@[simp] theorem State.updCopy_wor : (s.updCopy f u i j).wor = s.wor := rfl
@[simp] theorem State.updCopy_hbm : (s.updCopy f u i j).hbm = s.hbm := rfl
@[simp] theorem State.updCopy_rdo : (s.updCopy f u i j).rdo = s.rdo := rfl
@[simp] theorem State.updCopy_cpu : (s.updCopy f u i j).cpu = s.cpu := rfl
@[simp] theorem State.updCopy_ring : (s.updCopy f u i j).ring = s.ring := rfl
@[simp] theorem State.updCopy_sem : (s.updCopy f u i j).sem = s.sem := rfl
@[simp] theorem State.updCopy_tar : (s.updCopy f u i j).tar = s.tar := rfl
@[simp] theorem State.updCopy_led : (s.updCopy f u i j).led = s.led := rfl
@[simp] theorem State.updCopy_dic : (s.updCopy f u i j).dic = s.dic := rfl
@[simp] theorem State.updCopy_pwr : (s.updCopy f u i j).pwr = s.pwr := rfl
@[simp] theorem State.updCopy_flash : (s.updCopy f u i j).flash = s.flash := rfl
@[simp] theorem State.updCopy_tap : (s.updCopy f u i j).tap = s.tap := rfl
@[simp] theorem State.updCopy_lanes : (s.updCopy f u i j).lanes = s.lanes := rfl
@[simp] theorem State.updCopy_erq : (s.updCopy f u i j).erq = s.erq := rfl
@[simp] theorem State.updCopy_counts : (s.updCopy f u i j).counts = Sparse.upd 0 s.counts (f.key i j) fun c => min (2 ^ f.width - 1) (u c) := rfl
@[simp] theorem State.get_updCopy (g : Fld) (k l : Nat) : (s.updCopy f u i j).get g k l = s.get g k l := rfl
@[simp] theorem State.bit_updCopy (g : Fld) (k l : Nat) : (s.updCopy f u i j).bit g k l = s.bit g k l := rfl
@[simp] theorem State.byte_updCopy (y : Nat) : (s.updCopy f u i j).byte y = s.byte y := rfl

end

section

variable (s : State)

@[simp] theorem State.tookFree_pending : (s.tookFree).pending = s.pending := rfl
@[simp] theorem State.tookFree_csr : (s.tookFree).csr = s.csr := rfl
@[simp] theorem State.tookFree_now : (s.tookFree).now = s.now := rfl
@[simp] theorem State.tookFree_dawnAt : (s.tookFree).dawnAt = s.dawnAt := rfl
@[simp] theorem State.tookFree_freeCount : (s.tookFree).freeCount = s.freeCount + 1 := rfl
@[simp] theorem State.tookFree_sent : (s.tookFree).sent = s.sent := rfl
@[simp] theorem State.tookFree_mem : (s.tookFree).mem = s.mem := rfl
@[simp] theorem State.tookFree_poison : (s.tookFree).poison = s.poison := rfl
@[simp] theorem State.tookFree_gno : (s.tookFree).gno = s.gno := rfl
@[simp] theorem State.tookFree_edge : (s.tookFree).edge = s.edge := rfl
@[simp] theorem State.tookFree_ledIn : (s.tookFree).ledIn = s.ledIn := rfl
@[simp] theorem State.tookFree_pri : (s.tookFree).pri = s.pri := rfl
@[simp] theorem State.tookFree_arr : (s.tookFree).arr = s.arr := rfl
@[simp] theorem State.tookFree_seq : (s.tookFree).seq = s.seq := rfl
@[simp] theorem State.tookFree_wor : (s.tookFree).wor = s.wor := rfl
@[simp] theorem State.tookFree_hbm : (s.tookFree).hbm = s.hbm := rfl
@[simp] theorem State.tookFree_rdo : (s.tookFree).rdo = s.rdo := rfl
@[simp] theorem State.tookFree_cpu : (s.tookFree).cpu = s.cpu := rfl
@[simp] theorem State.tookFree_ring : (s.tookFree).ring = s.ring := rfl
@[simp] theorem State.tookFree_sem : (s.tookFree).sem = s.sem := rfl
@[simp] theorem State.tookFree_tar : (s.tookFree).tar = s.tar := rfl
@[simp] theorem State.tookFree_led : (s.tookFree).led = s.led := rfl
@[simp] theorem State.tookFree_dic : (s.tookFree).dic = s.dic := rfl
@[simp] theorem State.tookFree_pwr : (s.tookFree).pwr = s.pwr := rfl
@[simp] theorem State.tookFree_flash : (s.tookFree).flash = s.flash := rfl
@[simp] theorem State.tookFree_tap : (s.tookFree).tap = s.tap := rfl
@[simp] theorem State.tookFree_lanes : (s.tookFree).lanes = s.lanes := rfl
@[simp] theorem State.tookFree_erq : (s.tookFree).erq = s.erq := rfl
@[simp] theorem State.tookFree_counts : (s.tookFree).counts = s.counts := rfl
@[simp] theorem State.get_tookFree (g : Fld) (k l : Nat) : (s.tookFree).get g k l = s.get g k l := rfl
@[simp] theorem State.bit_tookFree (g : Fld) (k l : Nat) : (s.tookFree).bit g k l = s.bit g k l := rfl
@[simp] theorem State.byte_tookFree (y : Nat) : (s.tookFree).byte y = s.byte y := rfl

end

section

variable (s : State) (t : Nat)

@[simp] theorem State.at_pending : (s.at t).pending = s.pending := rfl
@[simp] theorem State.at_csr : (s.at t).csr = s.csr := rfl
@[simp] theorem State.at_now : (s.at t).now = max s.now t := rfl
@[simp] theorem State.at_dawnAt : (s.at t).dawnAt = s.dawnAt := rfl
@[simp] theorem State.at_freeCount : (s.at t).freeCount = s.freeCount := rfl
@[simp] theorem State.at_sent : (s.at t).sent = s.sent := rfl
@[simp] theorem State.at_mem : (s.at t).mem = s.mem := rfl
@[simp] theorem State.at_poison : (s.at t).poison = s.poison := rfl
@[simp] theorem State.at_gno : (s.at t).gno = s.gno := rfl
@[simp] theorem State.at_edge : (s.at t).edge = s.edge := rfl
@[simp] theorem State.at_ledIn : (s.at t).ledIn = s.ledIn := rfl
@[simp] theorem State.at_pri : (s.at t).pri = s.pri := rfl
@[simp] theorem State.at_arr : (s.at t).arr = s.arr := rfl
@[simp] theorem State.at_seq : (s.at t).seq = s.seq := rfl
@[simp] theorem State.at_wor : (s.at t).wor = s.wor := rfl
@[simp] theorem State.at_hbm : (s.at t).hbm = s.hbm := rfl
@[simp] theorem State.at_rdo : (s.at t).rdo = s.rdo := rfl
@[simp] theorem State.at_cpu : (s.at t).cpu = s.cpu := rfl
@[simp] theorem State.at_ring : (s.at t).ring = s.ring := rfl
@[simp] theorem State.at_sem : (s.at t).sem = s.sem := rfl
@[simp] theorem State.at_tar : (s.at t).tar = s.tar := rfl
@[simp] theorem State.at_led : (s.at t).led = s.led := rfl
@[simp] theorem State.at_dic : (s.at t).dic = s.dic := rfl
@[simp] theorem State.at_pwr : (s.at t).pwr = s.pwr := rfl
@[simp] theorem State.at_flash : (s.at t).flash = s.flash := rfl
@[simp] theorem State.at_tap : (s.at t).tap = s.tap := rfl
@[simp] theorem State.at_lanes : (s.at t).lanes = s.lanes := rfl
@[simp] theorem State.at_erq : (s.at t).erq = s.erq := rfl
@[simp] theorem State.at_counts : (s.at t).counts = s.counts := rfl
@[simp] theorem State.get_at (g : Fld) (k l : Nat) : (s.at t).get g k l = s.get g k l := rfl
@[simp] theorem State.bit_at (g : Fld) (k l : Nat) : (s.at t).bit g k l = s.bit g k l := rfl
@[simp] theorem State.byte_at (y : Nat) : (s.at t).byte y = s.byte y := rfl

end

section

variable (s : State) (x : Sent)

@[simp] theorem State.emit_pending : (s.emit x).pending = s.pending := rfl
@[simp] theorem State.emit_csr : (s.emit x).csr = s.csr := rfl
@[simp] theorem State.emit_now : (s.emit x).now = s.now := rfl
@[simp] theorem State.emit_dawnAt : (s.emit x).dawnAt = s.dawnAt := rfl
@[simp] theorem State.emit_freeCount : (s.emit x).freeCount = s.freeCount := rfl
@[simp] theorem State.emit_sent : (s.emit x).sent = s.sent ++ [x] := rfl
@[simp] theorem State.emit_mem : (s.emit x).mem = s.mem := rfl
@[simp] theorem State.emit_poison : (s.emit x).poison = s.poison := rfl
@[simp] theorem State.emit_gno : (s.emit x).gno = s.gno := rfl
@[simp] theorem State.emit_edge : (s.emit x).edge = s.edge := rfl
@[simp] theorem State.emit_ledIn : (s.emit x).ledIn = s.ledIn := rfl
@[simp] theorem State.emit_pri : (s.emit x).pri = s.pri := rfl
@[simp] theorem State.emit_arr : (s.emit x).arr = s.arr := rfl
@[simp] theorem State.emit_seq : (s.emit x).seq = s.seq := rfl
@[simp] theorem State.emit_wor : (s.emit x).wor = s.wor := rfl
@[simp] theorem State.emit_hbm : (s.emit x).hbm = s.hbm := rfl
@[simp] theorem State.emit_rdo : (s.emit x).rdo = s.rdo := rfl
@[simp] theorem State.emit_cpu : (s.emit x).cpu = s.cpu := rfl
@[simp] theorem State.emit_ring : (s.emit x).ring = s.ring := rfl
@[simp] theorem State.emit_sem : (s.emit x).sem = s.sem := rfl
@[simp] theorem State.emit_tar : (s.emit x).tar = s.tar := rfl
@[simp] theorem State.emit_led : (s.emit x).led = s.led := rfl
@[simp] theorem State.emit_dic : (s.emit x).dic = s.dic := rfl
@[simp] theorem State.emit_pwr : (s.emit x).pwr = s.pwr := rfl
@[simp] theorem State.emit_flash : (s.emit x).flash = s.flash := rfl
@[simp] theorem State.emit_tap : (s.emit x).tap = s.tap := rfl
@[simp] theorem State.emit_lanes : (s.emit x).lanes = s.lanes := rfl
@[simp] theorem State.emit_erq : (s.emit x).erq = s.erq := rfl
@[simp] theorem State.emit_counts : (s.emit x).counts = s.counts := rfl
@[simp] theorem State.get_emit (g : Fld) (k l : Nat) : (s.emit x).get g k l = s.get g k l := rfl
@[simp] theorem State.bit_emit (g : Fld) (k l : Nat) : (s.emit x).bit g k l = s.bit g k l := rfl
@[simp] theorem State.byte_emit (y : Nat) : (s.emit x).byte y = s.byte y := rfl

end

section

variable (s : State) (a : Nat) (b : BitVec 8)

@[simp] theorem State.setByte_pending : (s.setByte a b).pending = s.pending := rfl
@[simp] theorem State.setByte_csr : (s.setByte a b).csr = s.csr := rfl
@[simp] theorem State.setByte_now : (s.setByte a b).now = s.now := rfl
@[simp] theorem State.setByte_dawnAt : (s.setByte a b).dawnAt = s.dawnAt := rfl
@[simp] theorem State.setByte_freeCount : (s.setByte a b).freeCount = s.freeCount := rfl
@[simp] theorem State.setByte_sent : (s.setByte a b).sent = s.sent := rfl
@[simp] theorem State.setByte_mem : (s.setByte a b).mem = Sparse.set memDefault s.mem a b := rfl
@[simp] theorem State.setByte_poison : (s.setByte a b).poison = s.poison := rfl
@[simp] theorem State.setByte_gno : (s.setByte a b).gno = s.gno := rfl
@[simp] theorem State.setByte_edge : (s.setByte a b).edge = s.edge := rfl
@[simp] theorem State.setByte_ledIn : (s.setByte a b).ledIn = s.ledIn := rfl
@[simp] theorem State.setByte_pri : (s.setByte a b).pri = s.pri := rfl
@[simp] theorem State.setByte_arr : (s.setByte a b).arr = s.arr := rfl
@[simp] theorem State.setByte_seq : (s.setByte a b).seq = s.seq := rfl
@[simp] theorem State.setByte_wor : (s.setByte a b).wor = s.wor := rfl
@[simp] theorem State.setByte_hbm : (s.setByte a b).hbm = s.hbm := rfl
@[simp] theorem State.setByte_rdo : (s.setByte a b).rdo = s.rdo := rfl
@[simp] theorem State.setByte_cpu : (s.setByte a b).cpu = s.cpu := rfl
@[simp] theorem State.setByte_ring : (s.setByte a b).ring = s.ring := rfl
@[simp] theorem State.setByte_sem : (s.setByte a b).sem = s.sem := rfl
@[simp] theorem State.setByte_tar : (s.setByte a b).tar = s.tar := rfl
@[simp] theorem State.setByte_led : (s.setByte a b).led = s.led := rfl
@[simp] theorem State.setByte_dic : (s.setByte a b).dic = s.dic := rfl
@[simp] theorem State.setByte_pwr : (s.setByte a b).pwr = s.pwr := rfl
@[simp] theorem State.setByte_flash : (s.setByte a b).flash = s.flash := rfl
@[simp] theorem State.setByte_tap : (s.setByte a b).tap = s.tap := rfl
@[simp] theorem State.setByte_lanes : (s.setByte a b).lanes = s.lanes := rfl
@[simp] theorem State.setByte_erq : (s.setByte a b).erq = s.erq := rfl
@[simp] theorem State.setByte_counts : (s.setByte a b).counts = s.counts := rfl
@[simp] theorem State.get_setByte (g : Fld) (k l : Nat) : (s.setByte a b).get g k l = s.get g k l := rfl
@[simp] theorem State.bit_setByte (g : Fld) (k l : Nat) : (s.setByte a b).bit g k l = s.bit g k l := rfl

end

section

variable (s : State) (n : Nat) (f : Lane → Lane)

@[simp] theorem State.updLane_pending : (s.updLane n f).pending = s.pending := rfl
@[simp] theorem State.updLane_csr : (s.updLane n f).csr = s.csr := rfl
@[simp] theorem State.updLane_now : (s.updLane n f).now = s.now := rfl
@[simp] theorem State.updLane_dawnAt : (s.updLane n f).dawnAt = s.dawnAt := rfl
@[simp] theorem State.updLane_freeCount : (s.updLane n f).freeCount = s.freeCount := rfl
@[simp] theorem State.updLane_sent : (s.updLane n f).sent = s.sent := rfl
@[simp] theorem State.updLane_mem : (s.updLane n f).mem = s.mem := rfl
@[simp] theorem State.updLane_poison : (s.updLane n f).poison = s.poison := rfl
@[simp] theorem State.updLane_gno : (s.updLane n f).gno = s.gno := rfl
@[simp] theorem State.updLane_edge : (s.updLane n f).edge = s.edge := rfl
@[simp] theorem State.updLane_ledIn : (s.updLane n f).ledIn = s.ledIn := rfl
@[simp] theorem State.updLane_pri : (s.updLane n f).pri = s.pri := rfl
@[simp] theorem State.updLane_arr : (s.updLane n f).arr = s.arr := rfl
@[simp] theorem State.updLane_seq : (s.updLane n f).seq = s.seq := rfl
@[simp] theorem State.updLane_wor : (s.updLane n f).wor = s.wor := rfl
@[simp] theorem State.updLane_hbm : (s.updLane n f).hbm = s.hbm := rfl
@[simp] theorem State.updLane_rdo : (s.updLane n f).rdo = s.rdo := rfl
@[simp] theorem State.updLane_cpu : (s.updLane n f).cpu = s.cpu := rfl
@[simp] theorem State.updLane_ring : (s.updLane n f).ring = s.ring := rfl
@[simp] theorem State.updLane_sem : (s.updLane n f).sem = s.sem := rfl
@[simp] theorem State.updLane_tar : (s.updLane n f).tar = s.tar := rfl
@[simp] theorem State.updLane_led : (s.updLane n f).led = s.led := rfl
@[simp] theorem State.updLane_dic : (s.updLane n f).dic = s.dic := rfl
@[simp] theorem State.updLane_pwr : (s.updLane n f).pwr = s.pwr := rfl
@[simp] theorem State.updLane_flash : (s.updLane n f).flash = s.flash := rfl
@[simp] theorem State.updLane_tap : (s.updLane n f).tap = s.tap := rfl
@[simp] theorem State.updLane_lanes : (s.updLane n f).lanes = Sparse.upd {} s.lanes n f := rfl
@[simp] theorem State.updLane_erq : (s.updLane n f).erq = s.erq := rfl
@[simp] theorem State.updLane_counts : (s.updLane n f).counts = s.counts := rfl
@[simp] theorem State.get_updLane (g : Fld) (k l : Nat) : (s.updLane n f).get g k l = s.get g k l := rfl
@[simp] theorem State.bit_updLane (g : Fld) (k l : Nat) : (s.updLane n f).bit g k l = s.bit g k l := rfl
@[simp] theorem State.byte_updLane (y : Nat) : (s.updLane n f).byte y = s.byte y := rfl

end

section

variable (s : State) (u : Nat) (f : Th → Th)

@[simp] theorem State.updTh_pending : (s.updTh u f).pending = s.pending := rfl
@[simp] theorem State.updTh_csr : (s.updTh u f).csr = s.csr := rfl
@[simp] theorem State.updTh_now : (s.updTh u f).now = s.now := rfl
@[simp] theorem State.updTh_dawnAt : (s.updTh u f).dawnAt = s.dawnAt := rfl
@[simp] theorem State.updTh_freeCount : (s.updTh u f).freeCount = s.freeCount := rfl
@[simp] theorem State.updTh_sent : (s.updTh u f).sent = s.sent := rfl
@[simp] theorem State.updTh_mem : (s.updTh u f).mem = s.mem := rfl
@[simp] theorem State.updTh_poison : (s.updTh u f).poison = s.poison := rfl
@[simp] theorem State.updTh_gno : (s.updTh u f).gno = s.gno := rfl
@[simp] theorem State.updTh_edge : (s.updTh u f).edge = s.edge := rfl
@[simp] theorem State.updTh_ledIn : (s.updTh u f).ledIn = s.ledIn := rfl
@[simp] theorem State.updTh_pri : (s.updTh u f).pri = s.pri := rfl
@[simp] theorem State.updTh_arr : (s.updTh u f).arr = s.arr := rfl
@[simp] theorem State.updTh_seq : (s.updTh u f).seq = s.seq := rfl
@[simp] theorem State.updTh_wor : (s.updTh u f).wor = s.wor := rfl
@[simp] theorem State.updTh_hbm : (s.updTh u f).hbm = s.hbm := rfl
@[simp] theorem State.updTh_rdo : (s.updTh u f).rdo = s.rdo := rfl
@[simp] theorem State.updTh_cpu : (s.updTh u f).cpu = { s.cpu with threads := Sparse.upd {} s.cpu.threads u f } := rfl
@[simp] theorem State.updTh_ring : (s.updTh u f).ring = s.ring := rfl
@[simp] theorem State.updTh_sem : (s.updTh u f).sem = s.sem := rfl
@[simp] theorem State.updTh_tar : (s.updTh u f).tar = s.tar := rfl
@[simp] theorem State.updTh_led : (s.updTh u f).led = s.led := rfl
@[simp] theorem State.updTh_dic : (s.updTh u f).dic = s.dic := rfl
@[simp] theorem State.updTh_pwr : (s.updTh u f).pwr = s.pwr := rfl
@[simp] theorem State.updTh_flash : (s.updTh u f).flash = s.flash := rfl
@[simp] theorem State.updTh_tap : (s.updTh u f).tap = s.tap := rfl
@[simp] theorem State.updTh_lanes : (s.updTh u f).lanes = s.lanes := rfl
@[simp] theorem State.updTh_erq : (s.updTh u f).erq = s.erq := rfl
@[simp] theorem State.updTh_counts : (s.updTh u f).counts = s.counts := rfl
@[simp] theorem State.get_updTh (g : Fld) (k l : Nat) : (s.updTh u f).get g k l = s.get g k l := rfl
@[simp] theorem State.bit_updTh (g : Fld) (k l : Nat) : (s.updTh u f).bit g k l = s.bit g k l := rfl
@[simp] theorem State.byte_updTh (y : Nat) : (s.updTh u f).byte y = s.byte y := rfl

end

section

variable (s : State) (c : Nat) (f : Core → Core)

@[simp] theorem State.updCore_pending : (s.updCore c f).pending = s.pending := rfl
@[simp] theorem State.updCore_csr : (s.updCore c f).csr = s.csr := rfl
@[simp] theorem State.updCore_now : (s.updCore c f).now = s.now := rfl
@[simp] theorem State.updCore_dawnAt : (s.updCore c f).dawnAt = s.dawnAt := rfl
@[simp] theorem State.updCore_freeCount : (s.updCore c f).freeCount = s.freeCount := rfl
@[simp] theorem State.updCore_sent : (s.updCore c f).sent = s.sent := rfl
@[simp] theorem State.updCore_mem : (s.updCore c f).mem = s.mem := rfl
@[simp] theorem State.updCore_poison : (s.updCore c f).poison = s.poison := rfl
@[simp] theorem State.updCore_gno : (s.updCore c f).gno = s.gno := rfl
@[simp] theorem State.updCore_edge : (s.updCore c f).edge = s.edge := rfl
@[simp] theorem State.updCore_ledIn : (s.updCore c f).ledIn = s.ledIn := rfl
@[simp] theorem State.updCore_pri : (s.updCore c f).pri = s.pri := rfl
@[simp] theorem State.updCore_arr : (s.updCore c f).arr = s.arr := rfl
@[simp] theorem State.updCore_seq : (s.updCore c f).seq = s.seq := rfl
@[simp] theorem State.updCore_wor : (s.updCore c f).wor = s.wor := rfl
@[simp] theorem State.updCore_hbm : (s.updCore c f).hbm = s.hbm := rfl
@[simp] theorem State.updCore_rdo : (s.updCore c f).rdo = s.rdo := rfl
@[simp] theorem State.updCore_cpu : (s.updCore c f).cpu = { s.cpu with cores := Sparse.upd {} s.cpu.cores c f } := rfl
@[simp] theorem State.updCore_ring : (s.updCore c f).ring = s.ring := rfl
@[simp] theorem State.updCore_sem : (s.updCore c f).sem = s.sem := rfl
@[simp] theorem State.updCore_tar : (s.updCore c f).tar = s.tar := rfl
@[simp] theorem State.updCore_led : (s.updCore c f).led = s.led := rfl
@[simp] theorem State.updCore_dic : (s.updCore c f).dic = s.dic := rfl
@[simp] theorem State.updCore_pwr : (s.updCore c f).pwr = s.pwr := rfl
@[simp] theorem State.updCore_flash : (s.updCore c f).flash = s.flash := rfl
@[simp] theorem State.updCore_tap : (s.updCore c f).tap = s.tap := rfl
@[simp] theorem State.updCore_lanes : (s.updCore c f).lanes = s.lanes := rfl
@[simp] theorem State.updCore_erq : (s.updCore c f).erq = s.erq := rfl
@[simp] theorem State.updCore_counts : (s.updCore c f).counts = s.counts := rfl
@[simp] theorem State.get_updCore (g : Fld) (k l : Nat) : (s.updCore c f).get g k l = s.get g k l := rfl
@[simp] theorem State.bit_updCore (g : Fld) (k l : Nat) : (s.updCore c f).bit g k l = s.bit g k l := rfl
@[simp] theorem State.byte_updCore (y : Nat) : (s.updCore c f).byte y = s.byte y := rfl

end

section

variable (s : State) (f : Gno → Gno)

@[simp] theorem State.updGno_pending : (s.updGno f).pending = s.pending := rfl
@[simp] theorem State.updGno_csr : (s.updGno f).csr = s.csr := rfl
@[simp] theorem State.updGno_now : (s.updGno f).now = s.now := rfl
@[simp] theorem State.updGno_dawnAt : (s.updGno f).dawnAt = s.dawnAt := rfl
@[simp] theorem State.updGno_freeCount : (s.updGno f).freeCount = s.freeCount := rfl
@[simp] theorem State.updGno_sent : (s.updGno f).sent = s.sent := rfl
@[simp] theorem State.updGno_mem : (s.updGno f).mem = s.mem := rfl
@[simp] theorem State.updGno_poison : (s.updGno f).poison = s.poison := rfl
@[simp] theorem State.updGno_gno : (s.updGno f).gno = f s.gno := rfl
@[simp] theorem State.updGno_edge : (s.updGno f).edge = s.edge := rfl
@[simp] theorem State.updGno_ledIn : (s.updGno f).ledIn = s.ledIn := rfl
@[simp] theorem State.updGno_pri : (s.updGno f).pri = s.pri := rfl
@[simp] theorem State.updGno_arr : (s.updGno f).arr = s.arr := rfl
@[simp] theorem State.updGno_seq : (s.updGno f).seq = s.seq := rfl
@[simp] theorem State.updGno_wor : (s.updGno f).wor = s.wor := rfl
@[simp] theorem State.updGno_hbm : (s.updGno f).hbm = s.hbm := rfl
@[simp] theorem State.updGno_rdo : (s.updGno f).rdo = s.rdo := rfl
@[simp] theorem State.updGno_cpu : (s.updGno f).cpu = s.cpu := rfl
@[simp] theorem State.updGno_ring : (s.updGno f).ring = s.ring := rfl
@[simp] theorem State.updGno_sem : (s.updGno f).sem = s.sem := rfl
@[simp] theorem State.updGno_tar : (s.updGno f).tar = s.tar := rfl
@[simp] theorem State.updGno_led : (s.updGno f).led = s.led := rfl
@[simp] theorem State.updGno_dic : (s.updGno f).dic = s.dic := rfl
@[simp] theorem State.updGno_pwr : (s.updGno f).pwr = s.pwr := rfl
@[simp] theorem State.updGno_flash : (s.updGno f).flash = s.flash := rfl
@[simp] theorem State.updGno_tap : (s.updGno f).tap = s.tap := rfl
@[simp] theorem State.updGno_lanes : (s.updGno f).lanes = s.lanes := rfl
@[simp] theorem State.updGno_erq : (s.updGno f).erq = s.erq := rfl
@[simp] theorem State.updGno_counts : (s.updGno f).counts = s.counts := rfl
@[simp] theorem State.get_updGno (g : Fld) (k l : Nat) : (s.updGno f).get g k l = s.get g k l := rfl
@[simp] theorem State.bit_updGno (g : Fld) (k l : Nat) : (s.updGno f).bit g k l = s.bit g k l := rfl
@[simp] theorem State.byte_updGno (y : Nat) : (s.updGno f).byte y = s.byte y := rfl

end

section

variable (s : State) (f : Erq → Erq)

@[simp] theorem State.updErq_pending : (s.updErq f).pending = s.pending := rfl
@[simp] theorem State.updErq_csr : (s.updErq f).csr = s.csr := rfl
@[simp] theorem State.updErq_now : (s.updErq f).now = s.now := rfl
@[simp] theorem State.updErq_dawnAt : (s.updErq f).dawnAt = s.dawnAt := rfl
@[simp] theorem State.updErq_freeCount : (s.updErq f).freeCount = s.freeCount := rfl
@[simp] theorem State.updErq_sent : (s.updErq f).sent = s.sent := rfl
@[simp] theorem State.updErq_mem : (s.updErq f).mem = s.mem := rfl
@[simp] theorem State.updErq_poison : (s.updErq f).poison = s.poison := rfl
@[simp] theorem State.updErq_gno : (s.updErq f).gno = s.gno := rfl
@[simp] theorem State.updErq_edge : (s.updErq f).edge = s.edge := rfl
@[simp] theorem State.updErq_ledIn : (s.updErq f).ledIn = s.ledIn := rfl
@[simp] theorem State.updErq_pri : (s.updErq f).pri = s.pri := rfl
@[simp] theorem State.updErq_arr : (s.updErq f).arr = s.arr := rfl
@[simp] theorem State.updErq_seq : (s.updErq f).seq = s.seq := rfl
@[simp] theorem State.updErq_wor : (s.updErq f).wor = s.wor := rfl
@[simp] theorem State.updErq_hbm : (s.updErq f).hbm = s.hbm := rfl
@[simp] theorem State.updErq_rdo : (s.updErq f).rdo = s.rdo := rfl
@[simp] theorem State.updErq_cpu : (s.updErq f).cpu = s.cpu := rfl
@[simp] theorem State.updErq_ring : (s.updErq f).ring = s.ring := rfl
@[simp] theorem State.updErq_sem : (s.updErq f).sem = s.sem := rfl
@[simp] theorem State.updErq_tar : (s.updErq f).tar = s.tar := rfl
@[simp] theorem State.updErq_led : (s.updErq f).led = s.led := rfl
@[simp] theorem State.updErq_dic : (s.updErq f).dic = s.dic := rfl
@[simp] theorem State.updErq_pwr : (s.updErq f).pwr = s.pwr := rfl
@[simp] theorem State.updErq_flash : (s.updErq f).flash = s.flash := rfl
@[simp] theorem State.updErq_tap : (s.updErq f).tap = s.tap := rfl
@[simp] theorem State.updErq_lanes : (s.updErq f).lanes = s.lanes := rfl
@[simp] theorem State.updErq_erq : (s.updErq f).erq = f s.erq := rfl
@[simp] theorem State.updErq_counts : (s.updErq f).counts = s.counts := rfl
@[simp] theorem State.get_updErq (g : Fld) (k l : Nat) : (s.updErq f).get g k l = s.get g k l := rfl
@[simp] theorem State.bit_updErq (g : Fld) (k l : Nat) : (s.updErq f).bit g k l = s.bit g k l := rfl
@[simp] theorem State.byte_updErq (y : Nat) : (s.updErq f).byte y = s.byte y := rfl

end

section

variable (s : State) (f : Dic → Dic)

@[simp] theorem State.updDic_pending : (s.updDic f).pending = s.pending := rfl
@[simp] theorem State.updDic_csr : (s.updDic f).csr = s.csr := rfl
@[simp] theorem State.updDic_now : (s.updDic f).now = s.now := rfl
@[simp] theorem State.updDic_dawnAt : (s.updDic f).dawnAt = s.dawnAt := rfl
@[simp] theorem State.updDic_freeCount : (s.updDic f).freeCount = s.freeCount := rfl
@[simp] theorem State.updDic_sent : (s.updDic f).sent = s.sent := rfl
@[simp] theorem State.updDic_mem : (s.updDic f).mem = s.mem := rfl
@[simp] theorem State.updDic_poison : (s.updDic f).poison = s.poison := rfl
@[simp] theorem State.updDic_gno : (s.updDic f).gno = s.gno := rfl
@[simp] theorem State.updDic_edge : (s.updDic f).edge = s.edge := rfl
@[simp] theorem State.updDic_ledIn : (s.updDic f).ledIn = s.ledIn := rfl
@[simp] theorem State.updDic_pri : (s.updDic f).pri = s.pri := rfl
@[simp] theorem State.updDic_arr : (s.updDic f).arr = s.arr := rfl
@[simp] theorem State.updDic_seq : (s.updDic f).seq = s.seq := rfl
@[simp] theorem State.updDic_wor : (s.updDic f).wor = s.wor := rfl
@[simp] theorem State.updDic_hbm : (s.updDic f).hbm = s.hbm := rfl
@[simp] theorem State.updDic_rdo : (s.updDic f).rdo = s.rdo := rfl
@[simp] theorem State.updDic_cpu : (s.updDic f).cpu = s.cpu := rfl
@[simp] theorem State.updDic_ring : (s.updDic f).ring = s.ring := rfl
@[simp] theorem State.updDic_sem : (s.updDic f).sem = s.sem := rfl
@[simp] theorem State.updDic_tar : (s.updDic f).tar = s.tar := rfl
@[simp] theorem State.updDic_led : (s.updDic f).led = s.led := rfl
@[simp] theorem State.updDic_dic : (s.updDic f).dic = f s.dic := rfl
@[simp] theorem State.updDic_pwr : (s.updDic f).pwr = s.pwr := rfl
@[simp] theorem State.updDic_flash : (s.updDic f).flash = s.flash := rfl
@[simp] theorem State.updDic_tap : (s.updDic f).tap = s.tap := rfl
@[simp] theorem State.updDic_lanes : (s.updDic f).lanes = s.lanes := rfl
@[simp] theorem State.updDic_erq : (s.updDic f).erq = s.erq := rfl
@[simp] theorem State.updDic_counts : (s.updDic f).counts = s.counts := rfl
@[simp] theorem State.get_updDic (g : Fld) (k l : Nat) : (s.updDic f).get g k l = s.get g k l := rfl
@[simp] theorem State.bit_updDic (g : Fld) (k l : Nat) : (s.updDic f).bit g k l = s.bit g k l := rfl
@[simp] theorem State.byte_updDic (y : Nat) : (s.updDic f).byte y = s.byte y := rfl

end

section

variable (s : State) (f : Tap → Tap)

@[simp] theorem State.updTap_pending : (s.updTap f).pending = s.pending := rfl
@[simp] theorem State.updTap_csr : (s.updTap f).csr = s.csr := rfl
@[simp] theorem State.updTap_now : (s.updTap f).now = s.now := rfl
@[simp] theorem State.updTap_dawnAt : (s.updTap f).dawnAt = s.dawnAt := rfl
@[simp] theorem State.updTap_freeCount : (s.updTap f).freeCount = s.freeCount := rfl
@[simp] theorem State.updTap_sent : (s.updTap f).sent = s.sent := rfl
@[simp] theorem State.updTap_mem : (s.updTap f).mem = s.mem := rfl
@[simp] theorem State.updTap_poison : (s.updTap f).poison = s.poison := rfl
@[simp] theorem State.updTap_gno : (s.updTap f).gno = s.gno := rfl
@[simp] theorem State.updTap_edge : (s.updTap f).edge = s.edge := rfl
@[simp] theorem State.updTap_ledIn : (s.updTap f).ledIn = s.ledIn := rfl
@[simp] theorem State.updTap_pri : (s.updTap f).pri = s.pri := rfl
@[simp] theorem State.updTap_arr : (s.updTap f).arr = s.arr := rfl
@[simp] theorem State.updTap_seq : (s.updTap f).seq = s.seq := rfl
@[simp] theorem State.updTap_wor : (s.updTap f).wor = s.wor := rfl
@[simp] theorem State.updTap_hbm : (s.updTap f).hbm = s.hbm := rfl
@[simp] theorem State.updTap_rdo : (s.updTap f).rdo = s.rdo := rfl
@[simp] theorem State.updTap_cpu : (s.updTap f).cpu = s.cpu := rfl
@[simp] theorem State.updTap_ring : (s.updTap f).ring = s.ring := rfl
@[simp] theorem State.updTap_sem : (s.updTap f).sem = s.sem := rfl
@[simp] theorem State.updTap_tar : (s.updTap f).tar = s.tar := rfl
@[simp] theorem State.updTap_led : (s.updTap f).led = s.led := rfl
@[simp] theorem State.updTap_dic : (s.updTap f).dic = s.dic := rfl
@[simp] theorem State.updTap_pwr : (s.updTap f).pwr = s.pwr := rfl
@[simp] theorem State.updTap_flash : (s.updTap f).flash = s.flash := rfl
@[simp] theorem State.updTap_tap : (s.updTap f).tap = f s.tap := rfl
@[simp] theorem State.updTap_lanes : (s.updTap f).lanes = s.lanes := rfl
@[simp] theorem State.updTap_erq : (s.updTap f).erq = s.erq := rfl
@[simp] theorem State.updTap_counts : (s.updTap f).counts = s.counts := rfl
@[simp] theorem State.get_updTap (g : Fld) (k l : Nat) : (s.updTap f).get g k l = s.get g k l := rfl
@[simp] theorem State.bit_updTap (g : Fld) (k l : Nat) : (s.updTap f).bit g k l = s.bit g k l := rfl
@[simp] theorem State.byte_updTap (y : Nat) : (s.updTap f).byte y = s.byte y := rfl

end

section

variable (s : State) (f : Hbm → Hbm)

@[simp] theorem State.updHbm_pending : (s.updHbm f).pending = s.pending := rfl
@[simp] theorem State.updHbm_csr : (s.updHbm f).csr = s.csr := rfl
@[simp] theorem State.updHbm_now : (s.updHbm f).now = s.now := rfl
@[simp] theorem State.updHbm_dawnAt : (s.updHbm f).dawnAt = s.dawnAt := rfl
@[simp] theorem State.updHbm_freeCount : (s.updHbm f).freeCount = s.freeCount := rfl
@[simp] theorem State.updHbm_sent : (s.updHbm f).sent = s.sent := rfl
@[simp] theorem State.updHbm_mem : (s.updHbm f).mem = s.mem := rfl
@[simp] theorem State.updHbm_poison : (s.updHbm f).poison = s.poison := rfl
@[simp] theorem State.updHbm_gno : (s.updHbm f).gno = s.gno := rfl
@[simp] theorem State.updHbm_edge : (s.updHbm f).edge = s.edge := rfl
@[simp] theorem State.updHbm_ledIn : (s.updHbm f).ledIn = s.ledIn := rfl
@[simp] theorem State.updHbm_pri : (s.updHbm f).pri = s.pri := rfl
@[simp] theorem State.updHbm_arr : (s.updHbm f).arr = s.arr := rfl
@[simp] theorem State.updHbm_seq : (s.updHbm f).seq = s.seq := rfl
@[simp] theorem State.updHbm_wor : (s.updHbm f).wor = s.wor := rfl
@[simp] theorem State.updHbm_hbm : (s.updHbm f).hbm = f s.hbm := rfl
@[simp] theorem State.updHbm_rdo : (s.updHbm f).rdo = s.rdo := rfl
@[simp] theorem State.updHbm_cpu : (s.updHbm f).cpu = s.cpu := rfl
@[simp] theorem State.updHbm_ring : (s.updHbm f).ring = s.ring := rfl
@[simp] theorem State.updHbm_sem : (s.updHbm f).sem = s.sem := rfl
@[simp] theorem State.updHbm_tar : (s.updHbm f).tar = s.tar := rfl
@[simp] theorem State.updHbm_led : (s.updHbm f).led = s.led := rfl
@[simp] theorem State.updHbm_dic : (s.updHbm f).dic = s.dic := rfl
@[simp] theorem State.updHbm_pwr : (s.updHbm f).pwr = s.pwr := rfl
@[simp] theorem State.updHbm_flash : (s.updHbm f).flash = s.flash := rfl
@[simp] theorem State.updHbm_tap : (s.updHbm f).tap = s.tap := rfl
@[simp] theorem State.updHbm_lanes : (s.updHbm f).lanes = s.lanes := rfl
@[simp] theorem State.updHbm_erq : (s.updHbm f).erq = s.erq := rfl
@[simp] theorem State.updHbm_counts : (s.updHbm f).counts = s.counts := rfl
@[simp] theorem State.get_updHbm (g : Fld) (k l : Nat) : (s.updHbm f).get g k l = s.get g k l := rfl
@[simp] theorem State.bit_updHbm (g : Fld) (k l : Nat) : (s.updHbm f).bit g k l = s.bit g k l := rfl
@[simp] theorem State.byte_updHbm (y : Nat) : (s.updHbm f).byte y = s.byte y := rfl

end

section

variable (s : State) (f : Ledger → Ledger)

@[simp] theorem State.updLed_pending : (s.updLed f).pending = s.pending := rfl
@[simp] theorem State.updLed_csr : (s.updLed f).csr = s.csr := rfl
@[simp] theorem State.updLed_now : (s.updLed f).now = s.now := rfl
@[simp] theorem State.updLed_dawnAt : (s.updLed f).dawnAt = s.dawnAt := rfl
@[simp] theorem State.updLed_freeCount : (s.updLed f).freeCount = s.freeCount := rfl
@[simp] theorem State.updLed_sent : (s.updLed f).sent = s.sent := rfl
@[simp] theorem State.updLed_mem : (s.updLed f).mem = s.mem := rfl
@[simp] theorem State.updLed_poison : (s.updLed f).poison = s.poison := rfl
@[simp] theorem State.updLed_gno : (s.updLed f).gno = s.gno := rfl
@[simp] theorem State.updLed_edge : (s.updLed f).edge = s.edge := rfl
@[simp] theorem State.updLed_ledIn : (s.updLed f).ledIn = s.ledIn := rfl
@[simp] theorem State.updLed_pri : (s.updLed f).pri = s.pri := rfl
@[simp] theorem State.updLed_arr : (s.updLed f).arr = s.arr := rfl
@[simp] theorem State.updLed_seq : (s.updLed f).seq = s.seq := rfl
@[simp] theorem State.updLed_wor : (s.updLed f).wor = s.wor := rfl
@[simp] theorem State.updLed_hbm : (s.updLed f).hbm = s.hbm := rfl
@[simp] theorem State.updLed_rdo : (s.updLed f).rdo = s.rdo := rfl
@[simp] theorem State.updLed_cpu : (s.updLed f).cpu = s.cpu := rfl
@[simp] theorem State.updLed_ring : (s.updLed f).ring = s.ring := rfl
@[simp] theorem State.updLed_sem : (s.updLed f).sem = s.sem := rfl
@[simp] theorem State.updLed_tar : (s.updLed f).tar = s.tar := rfl
@[simp] theorem State.updLed_led : (s.updLed f).led = f s.led := rfl
@[simp] theorem State.updLed_dic : (s.updLed f).dic = s.dic := rfl
@[simp] theorem State.updLed_pwr : (s.updLed f).pwr = s.pwr := rfl
@[simp] theorem State.updLed_flash : (s.updLed f).flash = s.flash := rfl
@[simp] theorem State.updLed_tap : (s.updLed f).tap = s.tap := rfl
@[simp] theorem State.updLed_lanes : (s.updLed f).lanes = s.lanes := rfl
@[simp] theorem State.updLed_erq : (s.updLed f).erq = s.erq := rfl
@[simp] theorem State.updLed_counts : (s.updLed f).counts = s.counts := rfl
@[simp] theorem State.get_updLed (g : Fld) (k l : Nat) : (s.updLed f).get g k l = s.get g k l := rfl
@[simp] theorem State.bit_updLed (g : Fld) (k l : Nat) : (s.updLed f).bit g k l = s.bit g k l := rfl
@[simp] theorem State.byte_updLed (y : Nat) : (s.updLed f).byte y = s.byte y := rfl

end

section

variable (s : State) (f : Power → Power)

@[simp] theorem State.updPwr_pending : (s.updPwr f).pending = s.pending := rfl
@[simp] theorem State.updPwr_csr : (s.updPwr f).csr = s.csr := rfl
@[simp] theorem State.updPwr_now : (s.updPwr f).now = s.now := rfl
@[simp] theorem State.updPwr_dawnAt : (s.updPwr f).dawnAt = s.dawnAt := rfl
@[simp] theorem State.updPwr_freeCount : (s.updPwr f).freeCount = s.freeCount := rfl
@[simp] theorem State.updPwr_sent : (s.updPwr f).sent = s.sent := rfl
@[simp] theorem State.updPwr_mem : (s.updPwr f).mem = s.mem := rfl
@[simp] theorem State.updPwr_poison : (s.updPwr f).poison = s.poison := rfl
@[simp] theorem State.updPwr_gno : (s.updPwr f).gno = s.gno := rfl
@[simp] theorem State.updPwr_edge : (s.updPwr f).edge = s.edge := rfl
@[simp] theorem State.updPwr_ledIn : (s.updPwr f).ledIn = s.ledIn := rfl
@[simp] theorem State.updPwr_pri : (s.updPwr f).pri = s.pri := rfl
@[simp] theorem State.updPwr_arr : (s.updPwr f).arr = s.arr := rfl
@[simp] theorem State.updPwr_seq : (s.updPwr f).seq = s.seq := rfl
@[simp] theorem State.updPwr_wor : (s.updPwr f).wor = s.wor := rfl
@[simp] theorem State.updPwr_hbm : (s.updPwr f).hbm = s.hbm := rfl
@[simp] theorem State.updPwr_rdo : (s.updPwr f).rdo = s.rdo := rfl
@[simp] theorem State.updPwr_cpu : (s.updPwr f).cpu = s.cpu := rfl
@[simp] theorem State.updPwr_ring : (s.updPwr f).ring = s.ring := rfl
@[simp] theorem State.updPwr_sem : (s.updPwr f).sem = s.sem := rfl
@[simp] theorem State.updPwr_tar : (s.updPwr f).tar = s.tar := rfl
@[simp] theorem State.updPwr_led : (s.updPwr f).led = s.led := rfl
@[simp] theorem State.updPwr_dic : (s.updPwr f).dic = s.dic := rfl
@[simp] theorem State.updPwr_pwr : (s.updPwr f).pwr = f s.pwr := rfl
@[simp] theorem State.updPwr_flash : (s.updPwr f).flash = s.flash := rfl
@[simp] theorem State.updPwr_tap : (s.updPwr f).tap = s.tap := rfl
@[simp] theorem State.updPwr_lanes : (s.updPwr f).lanes = s.lanes := rfl
@[simp] theorem State.updPwr_erq : (s.updPwr f).erq = s.erq := rfl
@[simp] theorem State.updPwr_counts : (s.updPwr f).counts = s.counts := rfl
@[simp] theorem State.get_updPwr (g : Fld) (k l : Nat) : (s.updPwr f).get g k l = s.get g k l := rfl
@[simp] theorem State.bit_updPwr (g : Fld) (k l : Nat) : (s.updPwr f).bit g k l = s.bit g k l := rfl
@[simp] theorem State.byte_updPwr (y : Nat) : (s.updPwr f).byte y = s.byte y := rfl

end

section

variable (s : State) (f : Rdo → Rdo)

@[simp] theorem State.updRdo_pending : (s.updRdo f).pending = s.pending := rfl
@[simp] theorem State.updRdo_csr : (s.updRdo f).csr = s.csr := rfl
@[simp] theorem State.updRdo_now : (s.updRdo f).now = s.now := rfl
@[simp] theorem State.updRdo_dawnAt : (s.updRdo f).dawnAt = s.dawnAt := rfl
@[simp] theorem State.updRdo_freeCount : (s.updRdo f).freeCount = s.freeCount := rfl
@[simp] theorem State.updRdo_sent : (s.updRdo f).sent = s.sent := rfl
@[simp] theorem State.updRdo_mem : (s.updRdo f).mem = s.mem := rfl
@[simp] theorem State.updRdo_poison : (s.updRdo f).poison = s.poison := rfl
@[simp] theorem State.updRdo_gno : (s.updRdo f).gno = s.gno := rfl
@[simp] theorem State.updRdo_edge : (s.updRdo f).edge = s.edge := rfl
@[simp] theorem State.updRdo_ledIn : (s.updRdo f).ledIn = s.ledIn := rfl
@[simp] theorem State.updRdo_pri : (s.updRdo f).pri = s.pri := rfl
@[simp] theorem State.updRdo_arr : (s.updRdo f).arr = s.arr := rfl
@[simp] theorem State.updRdo_seq : (s.updRdo f).seq = s.seq := rfl
@[simp] theorem State.updRdo_wor : (s.updRdo f).wor = s.wor := rfl
@[simp] theorem State.updRdo_hbm : (s.updRdo f).hbm = s.hbm := rfl
@[simp] theorem State.updRdo_rdo : (s.updRdo f).rdo = f s.rdo := rfl
@[simp] theorem State.updRdo_cpu : (s.updRdo f).cpu = s.cpu := rfl
@[simp] theorem State.updRdo_ring : (s.updRdo f).ring = s.ring := rfl
@[simp] theorem State.updRdo_sem : (s.updRdo f).sem = s.sem := rfl
@[simp] theorem State.updRdo_tar : (s.updRdo f).tar = s.tar := rfl
@[simp] theorem State.updRdo_led : (s.updRdo f).led = s.led := rfl
@[simp] theorem State.updRdo_dic : (s.updRdo f).dic = s.dic := rfl
@[simp] theorem State.updRdo_pwr : (s.updRdo f).pwr = s.pwr := rfl
@[simp] theorem State.updRdo_flash : (s.updRdo f).flash = s.flash := rfl
@[simp] theorem State.updRdo_tap : (s.updRdo f).tap = s.tap := rfl
@[simp] theorem State.updRdo_lanes : (s.updRdo f).lanes = s.lanes := rfl
@[simp] theorem State.updRdo_erq : (s.updRdo f).erq = s.erq := rfl
@[simp] theorem State.updRdo_counts : (s.updRdo f).counts = s.counts := rfl
@[simp] theorem State.get_updRdo (g : Fld) (k l : Nat) : (s.updRdo f).get g k l = s.get g k l := rfl
@[simp] theorem State.bit_updRdo (g : Fld) (k l : Nat) : (s.updRdo f).bit g k l = s.bit g k l := rfl
@[simp] theorem State.byte_updRdo (y : Nat) : (s.updRdo f).byte y = s.byte y := rfl

end

section

variable (s : State) (f : Ring → Ring)

@[simp] theorem State.updRing_pending : (s.updRing f).pending = s.pending := rfl
@[simp] theorem State.updRing_csr : (s.updRing f).csr = s.csr := rfl
@[simp] theorem State.updRing_now : (s.updRing f).now = s.now := rfl
@[simp] theorem State.updRing_dawnAt : (s.updRing f).dawnAt = s.dawnAt := rfl
@[simp] theorem State.updRing_freeCount : (s.updRing f).freeCount = s.freeCount := rfl
@[simp] theorem State.updRing_sent : (s.updRing f).sent = s.sent := rfl
@[simp] theorem State.updRing_mem : (s.updRing f).mem = s.mem := rfl
@[simp] theorem State.updRing_poison : (s.updRing f).poison = s.poison := rfl
@[simp] theorem State.updRing_gno : (s.updRing f).gno = s.gno := rfl
@[simp] theorem State.updRing_edge : (s.updRing f).edge = s.edge := rfl
@[simp] theorem State.updRing_ledIn : (s.updRing f).ledIn = s.ledIn := rfl
@[simp] theorem State.updRing_pri : (s.updRing f).pri = s.pri := rfl
@[simp] theorem State.updRing_arr : (s.updRing f).arr = s.arr := rfl
@[simp] theorem State.updRing_seq : (s.updRing f).seq = s.seq := rfl
@[simp] theorem State.updRing_wor : (s.updRing f).wor = s.wor := rfl
@[simp] theorem State.updRing_hbm : (s.updRing f).hbm = s.hbm := rfl
@[simp] theorem State.updRing_rdo : (s.updRing f).rdo = s.rdo := rfl
@[simp] theorem State.updRing_cpu : (s.updRing f).cpu = s.cpu := rfl
@[simp] theorem State.updRing_ring : (s.updRing f).ring = f s.ring := rfl
@[simp] theorem State.updRing_sem : (s.updRing f).sem = s.sem := rfl
@[simp] theorem State.updRing_tar : (s.updRing f).tar = s.tar := rfl
@[simp] theorem State.updRing_led : (s.updRing f).led = s.led := rfl
@[simp] theorem State.updRing_dic : (s.updRing f).dic = s.dic := rfl
@[simp] theorem State.updRing_pwr : (s.updRing f).pwr = s.pwr := rfl
@[simp] theorem State.updRing_flash : (s.updRing f).flash = s.flash := rfl
@[simp] theorem State.updRing_tap : (s.updRing f).tap = s.tap := rfl
@[simp] theorem State.updRing_lanes : (s.updRing f).lanes = s.lanes := rfl
@[simp] theorem State.updRing_erq : (s.updRing f).erq = s.erq := rfl
@[simp] theorem State.updRing_counts : (s.updRing f).counts = s.counts := rfl
@[simp] theorem State.get_updRing (g : Fld) (k l : Nat) : (s.updRing f).get g k l = s.get g k l := rfl
@[simp] theorem State.bit_updRing (g : Fld) (k l : Nat) : (s.updRing f).bit g k l = s.bit g k l := rfl
@[simp] theorem State.byte_updRing (y : Nat) : (s.updRing f).byte y = s.byte y := rfl

end

section

variable (s : State) (f : Sem → Sem)

@[simp] theorem State.updSem_pending : (s.updSem f).pending = s.pending := rfl
@[simp] theorem State.updSem_csr : (s.updSem f).csr = s.csr := rfl
@[simp] theorem State.updSem_now : (s.updSem f).now = s.now := rfl
@[simp] theorem State.updSem_dawnAt : (s.updSem f).dawnAt = s.dawnAt := rfl
@[simp] theorem State.updSem_freeCount : (s.updSem f).freeCount = s.freeCount := rfl
@[simp] theorem State.updSem_sent : (s.updSem f).sent = s.sent := rfl
@[simp] theorem State.updSem_mem : (s.updSem f).mem = s.mem := rfl
@[simp] theorem State.updSem_poison : (s.updSem f).poison = s.poison := rfl
@[simp] theorem State.updSem_gno : (s.updSem f).gno = s.gno := rfl
@[simp] theorem State.updSem_edge : (s.updSem f).edge = s.edge := rfl
@[simp] theorem State.updSem_ledIn : (s.updSem f).ledIn = s.ledIn := rfl
@[simp] theorem State.updSem_pri : (s.updSem f).pri = s.pri := rfl
@[simp] theorem State.updSem_arr : (s.updSem f).arr = s.arr := rfl
@[simp] theorem State.updSem_seq : (s.updSem f).seq = s.seq := rfl
@[simp] theorem State.updSem_wor : (s.updSem f).wor = s.wor := rfl
@[simp] theorem State.updSem_hbm : (s.updSem f).hbm = s.hbm := rfl
@[simp] theorem State.updSem_rdo : (s.updSem f).rdo = s.rdo := rfl
@[simp] theorem State.updSem_cpu : (s.updSem f).cpu = s.cpu := rfl
@[simp] theorem State.updSem_ring : (s.updSem f).ring = s.ring := rfl
@[simp] theorem State.updSem_sem : (s.updSem f).sem = f s.sem := rfl
@[simp] theorem State.updSem_tar : (s.updSem f).tar = s.tar := rfl
@[simp] theorem State.updSem_led : (s.updSem f).led = s.led := rfl
@[simp] theorem State.updSem_dic : (s.updSem f).dic = s.dic := rfl
@[simp] theorem State.updSem_pwr : (s.updSem f).pwr = s.pwr := rfl
@[simp] theorem State.updSem_flash : (s.updSem f).flash = s.flash := rfl
@[simp] theorem State.updSem_tap : (s.updSem f).tap = s.tap := rfl
@[simp] theorem State.updSem_lanes : (s.updSem f).lanes = s.lanes := rfl
@[simp] theorem State.updSem_erq : (s.updSem f).erq = s.erq := rfl
@[simp] theorem State.updSem_counts : (s.updSem f).counts = s.counts := rfl
@[simp] theorem State.get_updSem (g : Fld) (k l : Nat) : (s.updSem f).get g k l = s.get g k l := rfl
@[simp] theorem State.bit_updSem (g : Fld) (k l : Nat) : (s.updSem f).bit g k l = s.bit g k l := rfl
@[simp] theorem State.byte_updSem (y : Nat) : (s.updSem f).byte y = s.byte y := rfl

end

section

variable (s : State) (f : Seq → Seq)

@[simp] theorem State.updSeq_pending : (s.updSeq f).pending = s.pending := rfl
@[simp] theorem State.updSeq_csr : (s.updSeq f).csr = s.csr := rfl
@[simp] theorem State.updSeq_now : (s.updSeq f).now = s.now := rfl
@[simp] theorem State.updSeq_dawnAt : (s.updSeq f).dawnAt = s.dawnAt := rfl
@[simp] theorem State.updSeq_freeCount : (s.updSeq f).freeCount = s.freeCount := rfl
@[simp] theorem State.updSeq_sent : (s.updSeq f).sent = s.sent := rfl
@[simp] theorem State.updSeq_mem : (s.updSeq f).mem = s.mem := rfl
@[simp] theorem State.updSeq_poison : (s.updSeq f).poison = s.poison := rfl
@[simp] theorem State.updSeq_gno : (s.updSeq f).gno = s.gno := rfl
@[simp] theorem State.updSeq_edge : (s.updSeq f).edge = s.edge := rfl
@[simp] theorem State.updSeq_ledIn : (s.updSeq f).ledIn = s.ledIn := rfl
@[simp] theorem State.updSeq_pri : (s.updSeq f).pri = s.pri := rfl
@[simp] theorem State.updSeq_arr : (s.updSeq f).arr = s.arr := rfl
@[simp] theorem State.updSeq_seq : (s.updSeq f).seq = f s.seq := rfl
@[simp] theorem State.updSeq_wor : (s.updSeq f).wor = s.wor := rfl
@[simp] theorem State.updSeq_hbm : (s.updSeq f).hbm = s.hbm := rfl
@[simp] theorem State.updSeq_rdo : (s.updSeq f).rdo = s.rdo := rfl
@[simp] theorem State.updSeq_cpu : (s.updSeq f).cpu = s.cpu := rfl
@[simp] theorem State.updSeq_ring : (s.updSeq f).ring = s.ring := rfl
@[simp] theorem State.updSeq_sem : (s.updSeq f).sem = s.sem := rfl
@[simp] theorem State.updSeq_tar : (s.updSeq f).tar = s.tar := rfl
@[simp] theorem State.updSeq_led : (s.updSeq f).led = s.led := rfl
@[simp] theorem State.updSeq_dic : (s.updSeq f).dic = s.dic := rfl
@[simp] theorem State.updSeq_pwr : (s.updSeq f).pwr = s.pwr := rfl
@[simp] theorem State.updSeq_flash : (s.updSeq f).flash = s.flash := rfl
@[simp] theorem State.updSeq_tap : (s.updSeq f).tap = s.tap := rfl
@[simp] theorem State.updSeq_lanes : (s.updSeq f).lanes = s.lanes := rfl
@[simp] theorem State.updSeq_erq : (s.updSeq f).erq = s.erq := rfl
@[simp] theorem State.updSeq_counts : (s.updSeq f).counts = s.counts := rfl
@[simp] theorem State.get_updSeq (g : Fld) (k l : Nat) : (s.updSeq f).get g k l = s.get g k l := rfl
@[simp] theorem State.bit_updSeq (g : Fld) (k l : Nat) : (s.updSeq f).bit g k l = s.bit g k l := rfl
@[simp] theorem State.byte_updSeq (y : Nat) : (s.updSeq f).byte y = s.byte y := rfl

end

section

variable (s : State) (f : Tarnish → Tarnish)

@[simp] theorem State.updTar_pending : (s.updTar f).pending = s.pending := rfl
@[simp] theorem State.updTar_csr : (s.updTar f).csr = s.csr := rfl
@[simp] theorem State.updTar_now : (s.updTar f).now = s.now := rfl
@[simp] theorem State.updTar_dawnAt : (s.updTar f).dawnAt = s.dawnAt := rfl
@[simp] theorem State.updTar_freeCount : (s.updTar f).freeCount = s.freeCount := rfl
@[simp] theorem State.updTar_sent : (s.updTar f).sent = s.sent := rfl
@[simp] theorem State.updTar_mem : (s.updTar f).mem = s.mem := rfl
@[simp] theorem State.updTar_poison : (s.updTar f).poison = s.poison := rfl
@[simp] theorem State.updTar_gno : (s.updTar f).gno = s.gno := rfl
@[simp] theorem State.updTar_edge : (s.updTar f).edge = s.edge := rfl
@[simp] theorem State.updTar_ledIn : (s.updTar f).ledIn = s.ledIn := rfl
@[simp] theorem State.updTar_pri : (s.updTar f).pri = s.pri := rfl
@[simp] theorem State.updTar_arr : (s.updTar f).arr = s.arr := rfl
@[simp] theorem State.updTar_seq : (s.updTar f).seq = s.seq := rfl
@[simp] theorem State.updTar_wor : (s.updTar f).wor = s.wor := rfl
@[simp] theorem State.updTar_hbm : (s.updTar f).hbm = s.hbm := rfl
@[simp] theorem State.updTar_rdo : (s.updTar f).rdo = s.rdo := rfl
@[simp] theorem State.updTar_cpu : (s.updTar f).cpu = s.cpu := rfl
@[simp] theorem State.updTar_ring : (s.updTar f).ring = s.ring := rfl
@[simp] theorem State.updTar_sem : (s.updTar f).sem = s.sem := rfl
@[simp] theorem State.updTar_tar : (s.updTar f).tar = f s.tar := rfl
@[simp] theorem State.updTar_led : (s.updTar f).led = s.led := rfl
@[simp] theorem State.updTar_dic : (s.updTar f).dic = s.dic := rfl
@[simp] theorem State.updTar_pwr : (s.updTar f).pwr = s.pwr := rfl
@[simp] theorem State.updTar_flash : (s.updTar f).flash = s.flash := rfl
@[simp] theorem State.updTar_tap : (s.updTar f).tap = s.tap := rfl
@[simp] theorem State.updTar_lanes : (s.updTar f).lanes = s.lanes := rfl
@[simp] theorem State.updTar_erq : (s.updTar f).erq = s.erq := rfl
@[simp] theorem State.updTar_counts : (s.updTar f).counts = s.counts := rfl
@[simp] theorem State.get_updTar (g : Fld) (k l : Nat) : (s.updTar f).get g k l = s.get g k l := rfl
@[simp] theorem State.bit_updTar (g : Fld) (k l : Nat) : (s.updTar f).bit g k l = s.bit g k l := rfl
@[simp] theorem State.byte_updTar (y : Nat) : (s.updTar f).byte y = s.byte y := rfl

end

section

variable (s : State) (f : Wor → Wor)

@[simp] theorem State.updWor_pending : (s.updWor f).pending = s.pending := rfl
@[simp] theorem State.updWor_csr : (s.updWor f).csr = s.csr := rfl
@[simp] theorem State.updWor_now : (s.updWor f).now = s.now := rfl
@[simp] theorem State.updWor_dawnAt : (s.updWor f).dawnAt = s.dawnAt := rfl
@[simp] theorem State.updWor_freeCount : (s.updWor f).freeCount = s.freeCount := rfl
@[simp] theorem State.updWor_sent : (s.updWor f).sent = s.sent := rfl
@[simp] theorem State.updWor_mem : (s.updWor f).mem = s.mem := rfl
@[simp] theorem State.updWor_poison : (s.updWor f).poison = s.poison := rfl
@[simp] theorem State.updWor_gno : (s.updWor f).gno = s.gno := rfl
@[simp] theorem State.updWor_edge : (s.updWor f).edge = s.edge := rfl
@[simp] theorem State.updWor_ledIn : (s.updWor f).ledIn = s.ledIn := rfl
@[simp] theorem State.updWor_pri : (s.updWor f).pri = s.pri := rfl
@[simp] theorem State.updWor_arr : (s.updWor f).arr = s.arr := rfl
@[simp] theorem State.updWor_seq : (s.updWor f).seq = s.seq := rfl
@[simp] theorem State.updWor_wor : (s.updWor f).wor = f s.wor := rfl
@[simp] theorem State.updWor_hbm : (s.updWor f).hbm = s.hbm := rfl
@[simp] theorem State.updWor_rdo : (s.updWor f).rdo = s.rdo := rfl
@[simp] theorem State.updWor_cpu : (s.updWor f).cpu = s.cpu := rfl
@[simp] theorem State.updWor_ring : (s.updWor f).ring = s.ring := rfl
@[simp] theorem State.updWor_sem : (s.updWor f).sem = s.sem := rfl
@[simp] theorem State.updWor_tar : (s.updWor f).tar = s.tar := rfl
@[simp] theorem State.updWor_led : (s.updWor f).led = s.led := rfl
@[simp] theorem State.updWor_dic : (s.updWor f).dic = s.dic := rfl
@[simp] theorem State.updWor_pwr : (s.updWor f).pwr = s.pwr := rfl
@[simp] theorem State.updWor_flash : (s.updWor f).flash = s.flash := rfl
@[simp] theorem State.updWor_tap : (s.updWor f).tap = s.tap := rfl
@[simp] theorem State.updWor_lanes : (s.updWor f).lanes = s.lanes := rfl
@[simp] theorem State.updWor_erq : (s.updWor f).erq = s.erq := rfl
@[simp] theorem State.updWor_counts : (s.updWor f).counts = s.counts := rfl
@[simp] theorem State.get_updWor (g : Fld) (k l : Nat) : (s.updWor f).get g k l = s.get g k l := rfl
@[simp] theorem State.bit_updWor (g : Fld) (k l : Nat) : (s.updWor f).bit g k l = s.bit g k l := rfl
@[simp] theorem State.byte_updWor (y : Nat) : (s.updWor f).byte y = s.byte y := rfl

end

/-! ### Registers -/

/-- What a field reads as after it is stored. -/
@[simp] theorem State.get_put_same (s : State) (f : Fld) (v i j : Nat) : (s.put f v i j).get f i j = v % 2 ^ f.width := by
  unfold State.get State.put
  rw [Sparse.get_set_same, Nat.xor_assoc, Nat.xor_self, Nat.xor_zero]

/-- Storing a field leaves every field of another key. -/
theorem State.get_put_ne (s : State) (f g : Fld) (v i j k l : Nat) (h : g.key k l ≠ f.key i j) :
    (s.put f v i j).get g k l = s.get g k l := by
  unfold State.get State.put
  rw [Sparse.get_set_ne _ _ _ h]

/-- The same for a field's truth value. -/
theorem State.bit_put_ne (s : State) (f g : Fld) (v i j k l : Nat) (h : g.key k l ≠ f.key i j) :
    (s.put f v i j).bit g k l = s.bit g k l := by
  unfold State.bit
  rw [State.get_put_ne _ _ _ _ _ _ _ _ h]

/-- A field of another page stands in another key. -/
theorem Fld.key_ne_of_page {f g : Fld} {i j k l : Nat} (h : g.page ≠ f.page) : g.key k l ≠ f.key i j := by
  unfold Fld.key
  omega

/-- Counting one on a counter that wraps. -/
theorem State.inc_eq (s : State) (f : Fld) (i j : Nat) (h : f.acc ≠ .rc) : s.inc f i j = s.put f (s.get f i j + 1) i j := by
  unfold State.inc State.add
  cases e : f.acc <;> simp_all

/-- Counting one on an RC counter: it stays at its largest value, and the dictionary engine's own copy counts with it (R642). -/
theorem State.inc_rc (s : State) (f : Fld) (i j : Nat) (h : f.acc = .rc) :
    s.inc f i j =
      (s.put f (if 2 ^ f.width ≤ s.get f i j + 1 then 2 ^ f.width - 1 else s.get f i j + 1) i j).updCopy f (fun c => c + 1) i j := by
  unfold State.inc State.add
  simp [h]

/-- Raising an error bit sets it (R595). -/
theorem State.get_err_same (s : State) (f : Fld) (i inst detail j : Nat) (h : f.width = 1) :
    (s.err f i inst detail j).get f i j = 1 := by
  unfold State.err
  simp [h]

/-- Raising an error bit leaves every field of another key. -/
theorem State.get_err_ne (s : State) (f g : Fld) (i inst detail j k l : Nat) (h : g.key k l ≠ f.key i j) :
    (s.err f i inst detail j).get g k l = s.get g k l := by
  unfold State.err
  simp [State.get_put_ne _ _ _ _ _ _ _ _ h]

/-! ### Memory -/

/-- A byte reads as it was written. -/
@[simp] theorem State.byte_setByte_same (s : State) (a : Nat) (b : BitVec 8) : (s.setByte a b).byte a = b := by
  unfold State.byte State.setByte
  exact Sparse.get_set_same _ _ _ _

/-- Writing a byte leaves every other byte. -/
theorem State.byte_setByte_ne (s : State) (a x : Nat) (b : BitVec 8) (h : x ≠ a) : (s.setByte a b).byte x = s.byte x := by
  unfold State.byte State.setByte
  exact Sparse.get_set_ne _ _ _ h

/-- Writing bytes leaves every byte outside them. -/
theorem State.byte_setBytes_out (s : State) (a x : Nat) (l : List (BitVec 8)) (h : x < a ∨ a + l.length ≤ x) :
    (s.setBytes a l).byte x = s.byte x := by
  induction l generalizing s a with
  | nil => rfl
  | cons b l ih =>
    rw [State.setBytes, ih _ _ (by simp at h; omega), State.byte_setByte_ne _ _ _ _ (by simp at h; omega)]

/-- Bytes read as they were written. -/
theorem State.bytesAt_setBytes (s : State) (a : Nat) (l : List (BitVec 8)) : (s.setBytes a l).bytesAt a l.length = l := by
  induction l generalizing s a with
  | nil => rfl
  | cons b l ih =>
    simp only [State.setBytes, List.length_cons, State.bytesAt]
    rw [ih, State.byte_setBytes_out _ _ _ _ (by omega), State.byte_setByte_same]

/-- Writing memory leaves every byte outside what is written. -/
theorem State.byte_writeMem_out (s : State) (a x : Nat) (l : List (BitVec 8)) (h : x < a ∨ a + l.length ≤ x) :
    (s.writeMem a l).byte x = s.byte x := State.byte_setBytes_out s a x l h

/-! ### The gates of power (R554) -/

theorem State.live_of_awake {s : State} (f : State → State) (h : s.awake = true) : s.live f = f s := by
  unfold State.live
  rw [if_pos h]

theorem State.live_of_not {s : State} (f : State → State) (h : s.awake = false) : s.live f = s := by
  unfold State.live
  simp [h]

theorem State.alive_of_awake {s : State} (f : State → State) (h : s.awake = true) : s.alive f = f s := by
  unfold State.alive
  unfold State.awake at h
  simp at h
  simp [h]

theorem State.issuing_of {s : State} (f : State → State) (h : s.awake = true) (k : s.canIssue = true) : s.issuing f = f s := by
  unfold State.issuing State.live
  simp [h, k]

end Sys2Proof.Machine
end

