-- ==== Sys2Proof/Tests/Slice0.lean ====
section
/-! SUPPORT. Tests: the checks of `Instr.wf` each refuse an ill-formed command, and worked figures of the spec. The expected
values are those that the named rule or example gives. -/

namespace Sys2Proof.Tests

set_option Elab.async false

open Sys2Proof.Machine Sys2Proof.Safety

/-! ### Well-formedness: one ill-formed command for each check, and a sound one -/

theorem test_wf_length_of_a_write : (Instr.registerWrite 16 0 0 [1, 2, 3]).wf = false := by decide
theorem test_wf_sound_write : (Instr.registerWrite 16 0 0 [1, 2, 3, 4]).wf = true := by decide
theorem test_wf_length_of_a_read : (Instr.rcFieldRead 16 0 0 3).wf = false := by decide
theorem test_wf_holding_register : (Instr.holdingRegisterLatch 16 0 2).wf = false := by decide
theorem test_wf_byte_mask : (Instr.islandMapWrite 0 0x80#32 0#32).wf = false := by decide
theorem test_wf_sound_byte_mask : (Instr.islandMapWrite 0 0xFF00#32 0#32).wf = true := by decide
theorem test_wf_semaphore_offset : (Instr.semAdminWrite 16 2 0xFF#32 0#32).wf = false := by decide
theorem test_wf_side_port_length : (Instr.sidePortRequest false 0 0 16 0 []).wf = false := by decide
theorem test_wf_side_port_data : (Instr.sidePortRequest true 0 2 16 0 [1]).wf = false := by decide
theorem test_wf_read_with_data : (Instr.read (.unit 16 0 1 [1]) {}).wf = false := by decide
theorem test_wf_write_without_data : (Instr.write (.unit 16 0 1 []) {}).wf = false := by decide
theorem test_wf_write_posted : (Instr.writeP false (.unit 16 0 0 []) {}).wf = false := by decide
theorem test_wf_ring_amoadd : (Instr.ringAmoadd (.unit 16 0 4 [1]) {}).wf = false := by decide
theorem test_wf_ring_amoswap : (Instr.ringAmoswap (.unit 16 0 4 [1]) {}).wf = false := by decide
theorem test_wf_event : (Instr.event (.unit 16 0 2 [1]) {}).wf = false := by decide
theorem test_wf_halo_payload : (Instr.haloFrame 0 (List.replicate 2048 0)).wf = false := by decide +kernel
theorem test_wf_bad_operation : (Instr.badOperation 16 0 1 0).wf = false := by decide
theorem test_wf_upload : (Instr.usdoRequest 0 0 (.upload 0)).wf = false := by decide
theorem test_wf_expedited : (Instr.usdoRequest 0 0 (.expedited [])).wf = false := by decide
theorem test_wf_segmented : (Instr.usdoRequest 0 0 (.segmented 0)).wf = false := by decide
theorem test_wf_rpdo : (Instr.rpdo 0 (List.replicate 65 0)).wf = false := by decide
theorem test_wf_datagram : (Instr.lanternDatagram none 0#32 0#16 (List.replicate 1473 0)).wf = false := by decide +kernel
theorem test_wf_temperatures : (Instr.tempSample 0 [25] [750] 0#8 0#8).wf = false := by decide
theorem test_wf_lows : (Instr.tempSample 0 (List.replicate 16 25) [750] 0#8 0#8).wf = false := by decide
theorem test_wf_sensors :
    (Instr.sensorsSampled 0 [⟨3, 0, 0⟩, ⟨3, 1, 0⟩]).wf = false := by decide
theorem test_wf_avs_means : (Instr.avsComplete [1]).wf = false := by decide
theorem test_wf_dawn : (Instr.dawn 0 (2 ^ 32) 0 none true true).wf = false := by decide

/-- A queue with one ill-formed command is no sound queue. -/
theorem test_wf_queue : queueWf { State.reset with pending := [.avsComplete []] } = false := by decide

/-! ### Figures of the spec -/

/-- R25, example: 40,080,000 Hz and 1,000 ppm give 24,925,174 fs and 24,975,074 fs. -/
theorem test_period_window : windowPeriod 40080000 1001000 = 24925174 ∧ windowPeriod 40080000 999000 = 24975074 := by decide

/-- R199, example: MUL with n = m = 8 takes 89 cycles. -/
theorem test_mul_cycles : libCycles 0x0100 8 8 0 = 89 := by decide

/-- R379, example: lz(7) = 29 and lz(1,000,000) = 12. -/
theorem test_clz : clz32 7 = 29 ∧ clz32 1000000 = 12 ∧ clz32 0 = 32 := by decide

/-- Thread 1 of core 1 runs at address 64. -/
def ready (f : Th → Th) : State := (State.reset.putThState 5 1).updTh 5 fun h => f { h with pc := 64 }

/-- The thread after a command, as it was where there is no next state. -/
def thenTh (c : Instr) (s : State) : Th :=
  match exec c s with
  | .next t => t.th 5
  | _ => s.th 5

/-- An issue by that thread. -/
def by5 : Issue := { core := 1, thread := 1 }

/-- R379, example: DIVS of −1,000,000 by 7 waits with −142,857, and REMS with −1. -/
theorem test_divs : (thenTh (.divs by5 10 11 12) (ready fun h => (h.setReg 11 4293967296).setReg 12 7)).hold = .divide 10 4294824439 := by
  decide +kernel
theorem test_rems : (thenTh (.rems by5 10 11 12) (ready fun h => (h.setReg 11 4293967296).setReg 12 7)).hold = .divide 10 4294967295 := by
  decide +kernel

/-- R378: DIVS of −2³¹ by −1 is −2³¹. -/
theorem test_divs_least :
    (thenTh (.divs by5 10 11 12) (ready fun h => (h.setReg 11 0x80000000).setReg 12 0xFFFFFFFF)).hold = .divide 10 0x80000000 := by
  decide +kernel

/-- R365: ADD is taken modulo 2³², with the source as destination. -/
theorem test_add_wraps : (thenTh (.add by5 11 11 12) (ready fun h => (h.setReg 11 0xFFFFFFFF).setReg 12 2)).reg 11 = 1 := by
  decide +kernel

/-- R350: g0 reads 0 whatever is written. -/
theorem test_add_to_g0 : (thenTh (.add by5 0 11 12) (ready fun h => h.setReg 11 5)).reg 0 = 0 := by decide +kernel

/-- R367: a constant takes LUI and then ORI. -/
theorem test_lui : (thenTh (.lui by5 9 0x8765#16) (ready fun h => h)).reg 9 = 0x87650000 := by decide +kernel
theorem test_ori : (thenTh (.ori by5 9 9 0xFFFF#16) (ready fun h => h.setReg 9 0x87650000)).reg 9 = 0x8765FFFF := by decide +kernel

/-- R369: LB extends the sign. -/
theorem test_lb : (thenTh (.lb by5 9 0 0x103#16) ((ready fun h => h).setLeMem (lramBase 1 + 0x100) 4 0x80000000)).reg 9 = 0xFFFFFF80 := by
  decide +kernel

/-- R351: w12 of the window that WOPEN leaves is w0 of the one it opens, window 0 after window 7. -/
theorem test_wopen : (thenTh (.wopen by5) (ready fun h => { h with cur := 7 }.setReg 20 77)).reg 8 = 77 ∧
    (thenTh (.wopen by5) (ready fun h => { h with cur := 7 }.setReg 20 77)).cur = 0 := by decide +kernel

/-- R385: 1.5 + 0.25 = 1.75 in double precision, and 1 / 3 in single precision rounds to 0x3EAAAAAB and is inexact. -/
theorem test_fadd : (fmtOf true).add 1 false ((fmtOf true).decode 0x3FF8000000000000) ((fmtOf true).decode 0x3FD0000000000000) =
    (0x3FFC000000000000, 0) := by decide +kernel
theorem test_fdiv : (fmtOf false).div 1 false ((fmtOf false).decode 0x3F800000) ((fmtOf false).decode 0x40400000) =
    (0x3EAAAAAB, 16) := by decide +kernel

/-- R386: ∞ × 0 is invalid and gives the canonical quiet NaN. -/
theorem test_fmul_invalid : (fmtOf false).mul 1 false ((fmtOf false).decode 0xFF800000) ((fmtOf false).decode 0) = (0x7FC00000, 1) := by
  decide +kernel

/-- R387: FCVTW of a NaN and of 3 × 10⁹ give 0x7FFF_FFFF with invalid. -/
theorem test_fcvtw : fpToInt 1 false ((fmtOf false).decode 0x7FC00000) = (0x7FFFFFFF, 1) ∧
    fpToInt 1 false ((fmtOf false).decode 0x4F32D05E) = (0x7FFFFFFF, 1) := by decide +kernel

/-- R545, example: 50,000 h, 2,000 × 10⁹ hits and 400,000 mC against 40,000 h, 1.5 × 10¹² hits and 0.63 of the dose give a
life of 52,428. -/
theorem test_life : (State.reset.put LED_POLICY.components 7).lifeOf
    { ratedHours := 50000, ratedHits := 2000, ratedDose := 400000, effS := 40000 * 3600, hits := 1500000000000,
      dose := 2000 * 35000 * 3600 } = 52428 := by decide +kernel

/-- R59: the check value of CRC-16 with polynomial 0x1021 and initial value 0xFFFF, over "123456789". -/
theorem test_crc16 : crc16 [0x31, 0x32, 0x33, 0x34, 0x35, 0x36, 0x37, 0x38, 0x39] = 0x29B1 := by decide +kernel

/-- R103: the check value of the Ethernet CRC-32 over the same bytes. -/
theorem test_crc32 : crc32 [0x31, 0x32, 0x33, 0x34, 0x35, 0x36, 0x37, 0x38, 0x39] = 0xCBF43926 := by decide +kernel

/-- R357, example: aperture 3 with base 0x008 maps core address 0x3000_0000 + 16 e onto 0x00_8000_0000 + 16 e. -/
theorem test_aperture : (State.reset.updCore 1 fun k => { k with aps := [(3, { base := 8, valid := true })] }).physical 1 0x30000050 =
    0x80000050 := by decide +kernel

/-- R431: the code of every command has the class that its table gives it, and the code of every answer is a response. -/
theorem test_command_codes : (∀ c : Cmd, codeClass c.code = some c.class_) ∧
    ∀ c : Cmd, c.isRequest = true → codeClass c.answerCode = some 1 := by
  constructor <;> intro c <;> cases c <;> decide

end Sys2Proof.Tests
end

