-- ==== Sys2Proof/Tests/Witness0.lean ====
section
/-! SUPPORT. For every clause of a statement that has hypotheses, a state and operands that meet all of them together. -/

namespace Sys2Proof.Tests

set_option Elab.async false

open Sys2Proof.Machine Sys2Proof.Safety

/-- The state on which the witnesses build: right after reset. -/
def base : State := State.reset

/-- A stage of half 0 issues in a slot of 100 cycles. -/
def issuing : State :=
  (base.put SEQ_STATUS.state 1).updSeq fun q => { q with run := { q.run with who := some (.stage 0 1 5), length := 100, foreground := true } }

/-- The same with background. -/
def background : State :=
  issuing.updSeq fun q => { q with inPass := true, bgFresh := false, run := { q.run with who := some .background } }

/-- An image whose one word is `w`. -/
def image (w : Nat) : List (BitVec 8) := leBytes 704 0 ++ leBytes 24 w

/-- A stage waits at most 7 cycles in a word with wait condition `cond`: 2 no request to BR register 0 stands, 3 a grant. -/
def waiting (cond : Nat) : State :=
  (issuing.updSeq fun q => { q with run := { q.run with waiting := true } }).updHalf 0 fun x => { x with image := image (cond * 2 ^ 97 + 7 * 2 ^ 107) }

/-- Bytes written at an offset of a list. -/
def patchAt (l : List (BitVec 8)) (o : Nat) (b : List (BitVec 8)) : List (BitVec 8) := l.take o ++ b ++ l.drop (o + b.length)

/-- A program of one stage whose one word ends it, its CRC-32 not yet filled in. -/
def tinyBlank : List (BitVec 8) :=
  let i := patchAt (image (8 * 2 ^ 119)) 0 (leBytes 4 0x49514553)
  let i := patchAt i 4 (leBytes 2 1)
  let i := patchAt i 8 (leBytes 4 728)
  let i := patchAt i 16 (leBytes 2 1)
  let i := patchAt i 18 (leBytes 1 1)
  let i := patchAt i 22 (leBytes 2 0xFFFF)
  let i := patchAt i 32 (leBytes 4 1)
  let i := patchAt i 64 (leBytes 8 (0x1400 + 2 ^ 32))
  (List.range 8).foldl (fun i t => patchAt i (576 + 8 * t) (leBytes 8 1)) i

/-- The same with its CRC-32. -/
def tinyProgram : List (BitVec 8) := patchAt tinyBlank 60 (leBytes 4 318561624)

/-- The CRC-32 register, each byte's step evaluated before the next. -/
def crcForced : List (BitVec 8) → Nat → Nat
  | [], c => c
  | b :: bs, c => if crc32Byte c b = 0 then crcForced bs 0 else crcForced bs (crc32Byte c b)

theorem crcForced_eq (bs : List (BitVec 8)) : ∀ c, bs.foldl crc32Byte c = crcForced bs c := by
  induction bs with
  | nil => intro c; rfl
  | cons b bs ih => intro c; simp only [List.foldl_cons, crcForced]; split <;> simp_all

theorem tinyProgram_crc : crc32Field tinyProgram 60 = 318561624 := by
  rw [crc32Field, crc32, crcForced_eq]; decide +kernel

/-- The bytes of a slow-channel frame of a type with a payload. -/
def slowBytes (t : Nat) (p : List (BitVec 8)) : List (BitVec 8) :=
  let body := BitVec.ofNat 8 t :: BitVec.ofNat 8 p.length :: p
  0xA5#8 :: body ++ leBytes 2 (crc16 body)

/-- A plane whose lanes cut blocks of 128 bits. -/
def wideFacet : List (BitVec 8) :=
  leBytes 17 0 ++ [1#8] ++ leBytes 46 0 ++ leBytes 4 1 ++ leBytes 4 256 ++
    (leBytes 64 128 ++ leBytes 64 128 ++ leBytes 64 128 ++ leBytes 64 128)

/-- A scan of rear lane 47 that ends with its next result. -/
def rearScan : TarScan := { lane := 303, eye := 0, left := [], freeze := 0, height := 65535, width := 255 }

/-- Data link 11 in SERVICE on side N, with halo entry 7 enabled for plane 0x123. -/
def dlHalo : State :=
  let s := ((base.put WOR_LINK_STATUS.state 4 11).put WOR_LINK_CFG.side 0 11).put WOR_LINK_CFG.enable 1 11 |>.put WOR_HALO_DELAY.slots 0
  { s with arr := { s.arr with whalo := [(7, 0x80000123)] } }

/-- A cell of a key. -/
def upCell : Cell := { or := true, none := false, key := { index := 3, orbit := 7, uaddr := 9 }, devices := 2 }

/-- A Lantern request with its one item still to do. -/
def lanReq (x : LanItem) : LanReq :=
  { ip := 0x0A000002, port := 5000, session := 7, seq := 9, count := 1, stop := false, todo := [x], started := true }

/-- The engine with that request at the head, its client holding all rights, and the state of its DOMAIN write. -/
def lanState (x : LanItem) (d : Option DomainWrite) : State :=
  (base.put DIC_RIGHTS.lan_default 15).updDic fun q => { q with reqs := [.lantern (lanReq x)], domain := d }

/-- An item on the producer heartbeat time. -/
def beatItem (op : Nat) (data : List (BitVec 8)) : LanItem := { op := op, sub := 0, index := 0x1017, type := 6, data := data }

/-- An item on a DOMAIN object. -/
def domItem (op index : Nat) (data : List (BitVec 8)) : LanItem := { op := op, sub := 1, index := index, type := 15, data := data }

/-- The DOMAIN write that the request's session has open on an object. -/
def lanWrite (index got : Nat) : DomainWrite := { src := .lantern 0x0A000002 5000 7, index := index, sub := 1, total := 8, got := got }

/-- A replanning that raises the voltage. -/
def raisingPlan : Plan := { periods := List.replicate 16 320000, voltage := 800, tmax := List.replicate 16 85, second := false }

/-- One journal entry. -/
def jnlEntry (n : Nat) : JnlEntry :=
  { seq := n, time := 0, dawn := 1, source := 3, client := 0, sub := 1, flags := 0, index := 0, code := 0, old := 0, new := 0 }

/-- The device in Eclipse, with every wake source enabled. -/
def asleep : State := (base.put PWR_STATUS.state 2).put PWR_WAKE_EN.en 15

/-- A stored entry of the error queue. -/
def erqOne (taken : Bool) : ErrEntry :=
  { page := 14, inst := 0xFFFF, code := 5, dawn := 1, count := 1, seq := 7, saturated := false, taken := taken, firstTime := 9,
    firstDetail := 3, lastTime := 9, lastDetail := 3 }

/-- An image of a type without a payload, its checksum, flags and aux as given. -/
def emptyImage (type flags crc : Nat) : List (BitVec 8) :=
  leBytes 4 0x4D494B53 ++ leBytes 2 1 ++ leBytes 1 type ++ leBytes 1 flags ++ leBytes 4 0 ++ leBytes 4 3 ++ leBytes 32 0 ++
    leBytes 4 crc ++ leBytes 12 0 ++ leBytes 96 0

/-- A flash whose configuration slots announce no payload. -/
def bareSlots : State :=
  { base with flash := { base.flash with
      bytes := [(0x800008, 0), (0x800009, 0), (0x80000A, 0), (0x80000B, 0), (0x1000008, 0), (0x1000009, 0), (0x100000A, 0), (0x100000B, 0)] } }

/-- A configuration without records is handed to the keeper of a part whose owner key is not set. -/
def storing : State := (bareSlots.put BOT_FUSE.owner_key 0).storeStart (emptyImage 4 0 2654938470)

/-- A vendor bundle of one keeper image. -/
def tinyBundle : List (BitVec 8) := emptyImage 1 2 442033965

theorem storing_owner : storing.bit BOT_FUSE.owner_key = false := by
  have h : (bareSlots.put BOT_FUSE.owner_key 0).get BOT_FUSE.owner_key = 0 := by simp
  show ((bareSlots.put BOT_FUSE.owner_key 0).get BOT_FUSE.owner_key != 0) = false
  rw [h]; rfl

theorem storing_stands : stands storing = true := by
  have h : storing.powerState = 0 := by
    show (bareSlots.put BOT_FUSE.owner_key 0).get PWR_STATUS.state = 0
    rw [State.get_put_ne _ _ _ _ _ _ _ _ (by decide)]; decide +kernel
  simp only [stands, h]; rfl

/-- A packet of initiator 16 to the start of scratchpad bank 3, and its bytes where it carries some. -/
def pkt (c : Cmd) (len : Nat) (data : List (BitVec 8)) : Pkt :=
  { ini := 16, cmd := c, slot := 5, addr := 0x1000300000, len := len, data := data }

/-- That packet on its way to a READY bank. -/
def flying (p : Pkt) : State := (base.put SPD_BANK_STATUS.state 2 3).updRing fun x => { x with reqs := [p] }

/-- A transaction of a unit and the response to it. -/
def txnOf (i : Nat) : Txn := { ini := i, slot := 5, epoch := 0, dst := 11, g := false, len := 4, purpose := .unit }
def rspOf (i : Nat) (c : Cmd) : Rsp := { ini := i, slot := 5, epoch := 0, cmd := c, src := 11, status := 0, data := [1, 2, 3, 4] }

/-- Such a response under way. -/
def answering (i : Nat) (c : Cmd) : State := base.updRing fun x => { x with outs := [txnOf i], rsps := [rspOf i c] }

/-- The keeper waits for port K with one access. -/
def portK (x : Access) (after : After) : State :=
  (base.put SPD_MBX_STATUS.state 2).updTh 16 fun h =>
    { h with hold := .access { todo := [x], got := [], after := after, portK := true, phys := 0x1000800000 } }

/-- Thread `id` runs at address 64. -/
def running (id : Nat) (f : Th → Th) : State := (base.putThState id 1).updTh id fun h => f { h with pc := 64 }

/-- Thread `id` runs at an address. -/
def runningAt (pc id : Nat) (f : Th → Th) : State := (base.putThState id 1).updTh id fun h => { f h with pc := pc }
theorem w_registerAccess_1 : (fun s : State => (s.awake = true)) (base) := by
  decide +kernel

theorem w_registerAccess_2 : (fun s : State => (s.awake = true)) (base) := by
  decide +kernel

theorem w_registerAccess_3 : (fun s : State => (s.awake = true)) (base) := by
  decide +kernel

theorem w_registerAccess_4 : (fun s : State => (s.awake = true)) (base) := by
  decide +kernel

theorem w_registerAccess_5 : (fun s : State => (s.awake = true)) (base) := by
  decide +kernel

theorem w_registerAccess_6 : (fun s : State => (s.awake = true)) (base) := by
  decide +kernel

theorem w_registerAccess_7 : (fun s : State => (s.awake = true)) (base) := by
  decide +kernel

theorem w_gnomonStates_1 : (fun s : State => (s.awake = true) ∧ (s.gnoState = 0)) (base) := by
  decide +kernel

theorem w_gnomonStates_2 : (fun s : State => (s.awake = true) ∧ (s.gnoState ≠ 0)) (base.put GNO_STATUS.state 4) := by
  decide +kernel

theorem w_gnomonStates_3 : (fun s : State => (s.awake = true) ∧ (s.gnoState = 1)) (base.put GNO_STATUS.state 1) := by
  decide +kernel

theorem w_gnomonStates_4 : (fun s : State => (s.awake = true) ∧ (s.gnoState = 3) ∧ (s.bit GNO_CTRL.holdover_en = true) ∧ (s.get GNO_HOLDOVER.limit ≠ 0)) (base.put GNO_STATUS.state 3) := by
  decide +kernel

theorem w_gnomonStates_5 : (fun s : State => (s.awake = true) ∧ (s.gnoState = 2)) (base.put GNO_STATUS.state 2) := by
  decide +kernel

theorem w_gnomonStates_6 : (fun s : State => (s.awake = true) ∧ (s.gnoState = 4) ∧ (s.gno.holdSlots < s.get GNO_HOLDOVER.limit)) (base.put GNO_STATUS.state 4) := by
  decide +kernel

theorem w_gnomonStates_7 : (fun s : State => (s.awake = true) ∧ (s.gnoState = 4) ∧ (s.get GNO_HOLDOVER.limit ≤ s.gno.holdSlots)) ((base.put GNO_STATUS.state 4).updGno fun g => { g with holdSlots := 256 }) := by
  decide +kernel

theorem w_gnomonStates_8 : (fun s : State => (s.awake = true) ∧ (s.gnoState = 5) ∧ (s.bit GNO_CTRL.auto_relock = true)) (base.put GNO_STATUS.state 5) := by
  decide +kernel

theorem w_gnomonStates_9 : (fun s : State => (s.awake = true) ∧ (s.gnoState = 5)) (base.put GNO_STATUS.state 5) := by
  decide +kernel

theorem w_gnomonEdges_1 : (fun s : State => (s.awake = true) ∧ (s.hasTimeline = true)) (base.put GNO_STATUS.state 2) := by
  decide +kernel

theorem w_gnomonEdges_2 : (fun s : State => (s.awake = true) ∧ (s.barrierReady = true)) (base) := by
  decide +kernel

theorem w_gnomonEdges_3 : (fun s : State => (s.awake = true) ∧ (s.barrierReady = true) ∧ (s.gno.orDiscont = false)) (((base.put GNO_STATUS.state 3).updGno fun g => { g with nextSerial := 900, named := [{ owner := .prism, serial := 899 }], unnamed := [{ owner := .exchange, left := 1 }, { owner := .epoch, left := 2 }] })) := by
  decide +kernel

theorem w_gnomonEdges_4 : (fun s : State => (s.awake = true) ∧ (s.gno.due.contains .plan = true)) (base.updGno fun g => { g with due := [.plan, .exchange] }) := by
  decide +kernel

theorem w_gnomonEdges_5 : (fun s : State => (s.awake = true) ∧ ((s.gno.due.contains .plan || s.gno.due.contains .exchange || (List.range (2 : Fin 4).val).any fun k => s.gno.due.contains (.cset k)) = true)) (base.updGno fun g => { g with due := [.cset 2, .cset 1] }) := by
  decide +kernel

theorem w_gnomonEdges_6 : (fun s : State => (s.awake = true) ∧ ((s.gno.due.contains .plan || s.gno.due.contains .exchange || (List.range 4).any fun k => s.gno.due.contains (.cset k)) = true)) (base.updGno fun g => { g with due := [.cset 3, .facet 56, .prism, .epoch] }) := by
  decide +kernel

theorem w_gnomonEdges_7 : (fun s : State => (s.awake = true) ∧ ((s.gno.due.contains .plan || s.gno.due.contains .exchange || (List.range 4).any fun k => s.gno.due.contains (.cset k)) = true)) (base.updGno fun g => { g with due := [.cset 3, .facet 56, .prism, .epoch] }) := by
  decide +kernel

theorem w_gnomonEdges_8 : (fun s : State => (s.awake = true) ∧ ((s.gno.due.contains .plan || s.gno.due.contains .exchange || (List.range 4).any fun k => s.gno.due.contains (.cset k)) = true)) (base.updGno fun g => { g with due := [.cset 3, .facet 56, .prism, .epoch] }) := by
  decide +kernel

theorem w_gnomonEdges_9 : (fun s : State => (s.awake = true) ∧ (s.gno.due ≠ [])) (base.updGno fun g => { g with due := [.epoch] }) := by
  decide +kernel

theorem w_gnomonEdges_10 : (fun s : State => (s.awake = true) ∧ (s.gno.due ≠ [])) (base.updGno fun g => { g with due := [.epoch] }) := by
  decide +kernel

theorem w_gnomonEdges_11 : (fun s : State => (s.awake = true) ∧ (s.gno.due ≠ [])) (base.updGno fun g => { g with due := [.epoch] }) := by
  decide +kernel

theorem w_gnomonEdges_12 : (fun s : State => (s.awake = true) ∧ (s.gno.due ≠ [])) (base.updGno fun g => { g with due := [.epoch] }) := by
  decide +kernel

theorem w_gnomonEdges_13 : (fun s : State => (s.awake = true) ∧ (s.gno.due ≠ [])) (base.updGno fun g => { g with due := [.epoch] }) := by
  decide +kernel

theorem w_gnomonEdges_14 : (fun s : State => (s.awake = true) ∧ (s.gno.due ≠ [])) (base.updGno fun g => { g with due := [.epoch] }) := by
  decide +kernel

theorem w_gnomonEdges_15 : (fun s : State => (s.awake = true) ∧ (s.gno.due ≠ [])) (base.updGno fun g => { g with due := [.epoch] }) := by
  decide +kernel

theorem w_gnomonEdges_16 : (fun s : State => (s.awake = true) ∧ (s.gno.due ≠ [])) (base.updGno fun g => { g with due := [.epoch] }) := by
  decide +kernel

theorem w_gnomonEdges_17 : (fun s : State => (s.awake = true) ∧ (s.hasTimeline = true) ∧ (s.gno.presented = some (2#16 : BitVec 16).toNat) ∧ (2 ≤ s.gno.setup) ∧ (0 < (2#16 : BitVec 16).toNat % 256) ∧ ((2#16 : BitVec 16).toNat % 256 ≤ 6) ∧ ((s.get GNO_FC_ENABLE.mask).testBit ((2#16 : BitVec 16).toNat % 256 - 1) = true)) ((base.put GNO_STATUS.state 3).updGno fun g => { g with presented := some 2, setup := 2, nextSerial := 900 }) := by
  decide +kernel

theorem w_gnomonEdges_18 : (fun s : State => (s.awake = true) ∧ (s.hasTimeline = true) ∧ (s.gno.inject = none) ∧ (s.gno.setup < 2)) ((base.put GNO_STATUS.state 3).updGno fun g => { g with presented := some 2, setup := 1 }) := by
  decide +kernel

theorem w_gnomonEdges_19 : (fun s : State => (s.awake = true) ∧ (s.gno.inject = none)) (base) := by
  decide +kernel

theorem w_gnomonEdges_20 : (fun s : State => (s.awake = true) ∧ (s.gno.inject.isSome = true)) (base.updGno fun g => { g with inject := some 1 }) := by
  decide +kernel

theorem w_gnomonEdges_21 : (fun s : State => (s.awake = true)) (base) := by
  decide +kernel

theorem w_fastCommandEffects_1 : (fun s : State => (s.awake = true) ∧ (s.effectOf 1 = some ({ word := 1, serial := 7, target := 0 } : FcWord)) ∧ (s.gnoState = 2)) ((base.put GNO_STATUS.state 2).updGno fun g => { g with effect := some { word := 1, serial := 7, target := 0 } }) := by
  decide +kernel

theorem w_fastCommandEffects_2 : (fun s : State => (s.awake = true) ∧ (s.effectOf 2 = some ({ word := 2, serial := 7, target := 3 } : FcWord)) ∧ (s.tagging = true) ∧ (serialAge ({ word := 2, serial := 7, target := 3 } : FcWord).target s.lastSerial ≤ 4096) ∧ (s.gno.tags.find? (fun q => q.serial = ({ word := 2, serial := 7, target := 3 } : FcWord).target ∧ q.numbered) = some ({ serial := 3, numbered := true } : Tag)) ∧ (({ serial := 3, numbered := true } : Tag).event = none)) ((base.put GNO_STATUS.state 3).updGno fun g => { g with nextSerial := 10, tags := [{ serial := 3, numbered := true }], effect := some { word := 2, serial := 7, target := 3 } }) := by
  decide +kernel

theorem w_fastCommandEffects_3 : (fun s : State => (s.awake = true) ∧ (s.gno.acceptsDue = [(3 : Nat)]) ∧ (s.gno.effect = none) ∧ (s.gno.due = []) ∧ (s.tagging = true) ∧ (serialAge (3 : Nat) s.lastSerial ≤ 4096) ∧ (s.gno.tags.find? (fun q => q.serial = (3 : Nat) ∧ q.numbered) = some ({ serial := 3, numbered := true } : Tag)) ∧ (({ serial := 3, numbered := true } : Tag).event = none)) ((base.put GNO_STATUS.state 3).updGno fun g => { g with nextSerial := 10, tags := [{ serial := 3, numbered := true }], acceptsDue := [3] }) := by
  decide +kernel

theorem w_fastCommandEffects_4 : (fun s : State => (s.awake = true) ∧ (s.effectOf 3 = some ({ word := 3, serial := 7, target := 0 } : FcWord))) (base.updGno fun g => { g with event := 5, effect := some { word := 3, serial := 7, target := 0 } }) := by
  decide +kernel

theorem w_fastCommandEffects_5 : (fun s : State => (s.awake = true) ∧ (s.effectOf 4 = some ({ word := 4, serial := 7, target := 0 } : FcWord))) (base.updGno fun g => { g with effect := some { word := 4, serial := 7, target := 0 } }) := by
  decide +kernel

theorem w_fastCommandEffects_6 : (fun s : State => (s.awake = true) ∧ (s.orbitResetReady = true)) (((base.put GNO_STATUS.state 3).put GNO_STATUS.orbit_reset_pending 1).updGno fun g => { g with tags := [{ serial := 3, numbered := true }], orbit := 9, segs := [{ start := 0, zero := 3, length := 16, orbit := 9 }] }) := by
  decide +kernel

theorem w_fastCommandEffects_7 : (fun s : State => (s.awake = true) ∧ (s.effectOf 5 = some ({ word := 5, serial := 7, target := 0 } : FcWord))) (base.updGno fun g => { g with effect := some { word := 5, serial := 7, target := 0 } }) := by
  decide +kernel

theorem w_fastCommandEffects_8 : (fun s : State => (s.awake = true) ∧ (s.effectOf 6 = some ({ word := 0x106, serial := 7, target := 0 } : FcWord))) (base.updGno fun g => { g with effect := some { word := 0x106, serial := 7, target := 0 } }) := by
  decide +kernel

theorem w_fastCommandEffects_9 : (fun s : State => (s.awake = true) ∧ (s.effectOf (16 + (15 : Fin 16).val) = some ({ word := 0x11F, serial := 7, target := 0 } : FcWord))) (base.updGno fun g => { g with effect := some { word := 0x11F, serial := 7, target := 0 } }) := by
  decide +kernel

theorem w_islandCommands_1 : (fun s : State => (s.awake = true) ∧ (s.islState (15 : Fin 16).val ≠ 0)) ((base.put ARR_ISL_STATUS.state 4 15)) := by
  decide +kernel

theorem w_islandCommands_2 : (fun s : State => (s.awake = true) ∧ (s.islState (15 : Fin 16).val = 0)) ((base.put ARR_ISL_STATUS.state 0 15)) := by
  decide +kernel

theorem w_islandCommands_3 : (fun s : State => (s.awake = true) ∧ (s.islState (15 : Fin 16).val = 0 ∨ s.islState (15 : Fin 16).val = 5) ∧ ((s.get TAR_STATUS.retired).testBit (15 : Fin 16).val = false)) ((base.put ARR_ISL_STATUS.state 5 15)) := by
  decide +kernel

theorem w_islandCommands_4 : (fun s : State => (s.awake = true) ∧ (s.islState (15 : Fin 16).val = 3 ∨ s.islState (15 : Fin 16).val = 4)) ((base.put ARR_ISL_STATUS.state 4 15)) := by
  decide +kernel

theorem w_islandCommands_5 : (fun s : State => (s.awake = true)) (base) := by
  decide +kernel

theorem w_islandCommands_6 : (fun s : State => (s.awake = true) ∧ (∀ j < 4, bits (0x83828100#32 : BitVec 32).toNat (8 * j) 8 ≤ 131 ∧ ∀ k < j, bits (0x83828100#32 : BitVec 32).toNat (8 * k) 8 ≠ bits (0x83828100#32 : BitVec 32).toNat (8 * j) 8)) (base) := by
  decide +kernel

theorem w_islandCommands_7 : (fun s : State => (s.awake = true) ∧ (¬ ∀ j < 4, bits (0x84828180#32 : BitVec 32).toNat (8 * j) 8 ≤ 131 ∧ ∀ k < j, bits (0x84828180#32 : BitVec 32).toNat (8 * k) 8 ≠ bits (0x84828180#32 : BitVec 32).toNat (8 * j) 8)) (base) := by
  decide +kernel

theorem w_islandCommands_8 : (fun s : State => (s.awake = true)) (base) := by
  decide +kernel

theorem w_islandCommands_9 : (fun s : State => (s.awake = true) ∧ ((0xF7F#32 : BitVec 32).getLsbD 31 = false) ∧ (bits (0xF7F#32 : BitVec 32).toNat 0 12 ≤ 0xF7F)) (base) := by
  decide +kernel

theorem w_islandCommands_10 : (fun s : State => (s.awake = true)) (base) := by
  decide +kernel

theorem w_islandEvents_1 : (fun s : State => (s.awake = true) ∧ (executing (s.islState (15 : Fin 16).val) = true) ∧ (Sparse.get 0 s.arr.arrived (15 : Fin 16).val = 0)) ((base.put ARR_ISL_STATUS.state 3 15)) := by
  decide +kernel

theorem w_islandEvents_2 : (fun s : State => (s.awake = true) ∧ (executing (s.islState (15 : Fin 16).val) = true) ∧ (Sparse.get 0 s.arr.arrived (15 : Fin 16).val = 0)) ((base.put ARR_ISL_STATUS.state 2 15)) := by
  decide +kernel

theorem w_islandEvents_3 : (fun s : State => (s.awake = true) ∧ (executing (s.islState (15 : Fin 16).val) = true ∨ s.islState (15 : Fin 16).val = 1 ∧ (s.isl (15 : Fin 16).val).unlocked = false) ∧ (103 * s.get ARR_ISL_CLK_PLAN.period_fs (15 : Fin 16).val < 100 * (⟨0xFFFFF, by decide⟩ : Fin 0x100000).val)) ((base.put ARR_ISL_STATUS.state 4 15)) := by
  refine ⟨by decide +kernel, by decide +kernel, ?_⟩
  simp only [State.get, Fld.reset, ARR_ISL_CLK_PLAN.period_fs]
  generalize Sys2Proof.Config.grade28 = b
  cases b <;> decide +kernel

theorem w_islandEvents_4 : (fun s : State => (s.awake = true) ∧ (executing (s.islState (15 : Fin 16).val) = true ∨ s.islState (15 : Fin 16).val = 1 ∧ (s.isl (15 : Fin 16).val).unlocked = false) ∧ (100 * (⟨329600, by decide⟩ : Fin 0x100000).val ≤ 103 * s.get ARR_ISL_CLK_PLAN.period_fs (15 : Fin 16).val)) ((base.put ARR_ISL_STATUS.state 4 15)) := by
  refine ⟨by decide +kernel, by decide +kernel, ?_⟩
  simp only [State.get, Fld.reset, ARR_ISL_CLK_PLAN.period_fs]
  generalize Sys2Proof.Config.grade28 = b
  cases b <;> decide +kernel

theorem w_islandEvents_5 : (fun s : State => (s.awake = true) ∧ (executing (s.islState (15 : Fin 16).val) = true)) ((base.put ARR_ISL_STATUS.state 4 15)) := by
  decide +kernel

theorem w_islandEvents_6 : (fun s : State => (s.awake = true) ∧ (s.islState (15 : Fin 16).val = 1)) ((base.put ARR_ISL_STATUS.state 1 15)) := by
  decide +kernel

theorem w_islandEvents_7 : (fun s : State => (s.awake = true) ∧ (s.islState (15 : Fin 16).val = 1) ∧ ((s.isl (15 : Fin 16).val).unlocked = true)) ((base.put ARR_ISL_STATUS.state 1 15).updIsl 15 fun x => { x with unlocked := true }) := by
  decide +kernel

theorem w_islandEvents_8 : (fun s : State => (s.awake = true) ∧ (s.islState (15 : Fin 16).val = 1) ∧ ((s.isl (15 : Fin 16).val).unlocked = false) ∧ ((s.isl (15 : Fin 16).val).cleared = false)) ((base.put ARR_ISL_STATUS.state 1 15)) := by
  decide +kernel

theorem w_islandEvents_9 : (fun s : State => (s.awake = true) ∧ (s.islState (15 : Fin 16).val = 1 ∨ s.islState (15 : Fin 16).val = 2) ∧ (s.bit ARR_ISL_RELOAD_STATUS.busy (15 : Fin 16).val = false)) ((base.put ARR_ISL_STATUS.state 2 15)) := by
  decide +kernel

theorem w_islandEvents_10 : (fun s : State => (s.awake = true) ∧ (s.islState (15 : Fin 16).val ≠ 1 ∧ s.islState (15 : Fin 16).val ≠ 2 ∨ s.bit ARR_ISL_RELOAD_STATUS.busy (15 : Fin 16).val = true)) ((base.put ARR_ISL_STATUS.state 4 15)) := by
  decide +kernel

theorem w_islandEvents_11 : (fun s : State => (s.awake = true) ∧ (s.islState (15 : Fin 16).val = 2) ∧ ((s.isl (15 : Fin 16).val).cycles ≠ 0) ∧ ((s.isl (15 : Fin 16).val).reload = some ({ firmware := true, src := 0, epoch := 9, planes := [0x80], next := 0 } : Reload)) ∧ (({ firmware := true, src := 0, epoch := 9, planes := [0x80], next := 0 } : Reload).planes.length ≤ ({ firmware := true, src := 0, epoch := 9, planes := [0x80], next := 0 } : Reload).next + 1) ∧ (({ firmware := true, src := 0, epoch := 9, planes := [0x80], next := 0 } : Reload).planes.length = ({ firmware := true, src := 0, epoch := 9, planes := [0x80], next := 0 } : Reload).next + 1 → (s.reloadData (15 : Fin 16).val ({ firmware := true, src := 0, epoch := 9, planes := [0x80], next := 0 } : Reload) ([] : EccMap)).2.isSome = true)) ((base.put ARR_ISL_STATUS.state 2 15).updIsl 15 fun x => { x with cycles := 1, reload := some { firmware := true, src := 0, epoch := 9, planes := [0x80], next := 0 } }) := by
  decide +kernel

theorem w_islandEvents_12 : (fun s : State => (s.awake = true) ∧ (s.islState (15 : Fin 16).val = 2) ∧ ((s.isl (15 : Fin 16).val).cycles ≠ 0) ∧ ((s.isl (15 : Fin 16).val).reload = some ({ firmware := true, src := 0, epoch := 9, planes := [0x80], next := 0 } : Reload)) ∧ (({ firmware := true, src := 0, epoch := 9, planes := [0x80], next := 0 } : Reload).planes.length = ({ firmware := true, src := 0, epoch := 9, planes := [0x80], next := 0 } : Reload).next + 1) ∧ (0x80 ≤ ({ firmware := true, src := 0, epoch := 9, planes := [0x80], next := 0 } : Reload).planes.getD ({ firmware := true, src := 0, epoch := 9, planes := [0x80], next := 0 } : Reload).next 0) ∧ (({ firmware := true, src := 0, epoch := 9, planes := [0x80], next := 0 } : Reload).planes.getD ({ firmware := true, src := 0, epoch := 9, planes := [0x80], next := 0 } : Reload).next 0 < 0xF80) ∧ ((s.reloadData (15 : Fin 16).val ({ firmware := true, src := 0, epoch := 9, planes := [0x80], next := 0 } : Reload) ([] : EccMap)).2 = some (0 : Nat))) ((base.put ARR_ISL_STATUS.state 2 15).updIsl 15 fun x => { x with cycles := 1, reload := some { firmware := true, src := 0, epoch := 9, planes := [0x80], next := 0 } }) := by
  decide +kernel

theorem w_islandEvents_13 : (fun s : State => (s.awake = true) ∧ ((s.isl (15 : Fin 16).val).reload.isSome = true)) ((base.put ARR_ISL_STATUS.state 2 15).updIsl 15 fun x => { x with reload := some { firmware := false, src := 0, epoch := 9, planes := [0x80], next := 0 } }) := by
  decide +kernel

theorem w_islandEvents_14 : (fun s : State => (s.awake = true) ∧ ((s.isl (15 : Fin 16).val).reload.isSome = true)) ((base.put ARR_ISL_STATUS.state 2 15).updIsl 15 fun x => { x with reload := some { firmware := false, src := 0, epoch := 9, planes := [0x80], next := 0 } }) := by
  decide +kernel

theorem w_islandEvents_15 : (fun s : State => (s.awake = true) ∧ (s.bit ARR_ISL_CTRL.auto_reload (15 : Fin 16).val = true) ∧ (s.islState (15 : Fin 16).val = 1 ∨ s.islState (15 : Fin 16).val = 2) ∧ ((s.isl (15 : Fin 16).val).reload = none) ∧ (s.pri.turns = 0) ∧ (s.bit ARR_ISL_STATUS.epoch_valid (15 : Fin 16).val = false ∨ s.get ARR_ISL_EPOCH.epoch (15 : Fin 16).val ≠ s.get ARR_EPOCH.epoch)) (((base.put ARR_ISL_STATUS.state 1 15).put ARR_ISL_CTRL.auto_reload 1 15)) := by
  decide +kernel

theorem w_microwordIssue_1 : (fun s : State => (s.awake = true) ∧ (s.canIssue = true) ∧ (s.seq.run.who = some (.stage (0 : Nat) (1 : Nat) (5 : Nat))) ∧ (s.seq.run.waiting = false) ∧ (mwWaitCond s.curWord = 0) ∧ (mwFlow s.curWord = 0) ∧ (s.seq.run.used + mwCycles s.curWord (mwTimeout s.curWord) ≤ s.seq.run.length)) (issuing) := by
  decide +kernel

theorem w_microwordIssue_2 : (fun s : State => (s.awake = true) ∧ (s.canIssue = true) ∧ (s.seq.run.who = some (.stage (0 : Nat) (1 : Nat) (5 : Nat))) ∧ (s.seq.run.waiting = false) ∧ (mwWaitCond s.curWord = 0) ∧ (mwFlow s.curWord = 0) ∧ (mwBSrc s.curWord ≤ 4) ∧ (s.seq.run.used + mwCycles s.curWord (mwTimeout s.curWord) ≤ s.seq.run.length)) (issuing) := by
  decide +kernel

theorem w_microwordIssue_3 : (fun s : State => (s.awake = true) ∧ (s.canIssue = true) ∧ (s.seq.run.who = some (.stage (0 : Nat) (1 : Nat) (5 : Nat))) ∧ (s.seq.run.waiting = false) ∧ (mwWaitCond s.curWord = 0) ∧ (mwFlow s.curWord = 0) ∧ (mwBSrc s.curWord ≤ 4) ∧ (s.seq.run.used + mwCycles s.curWord (mwTimeout s.curWord) ≤ s.seq.run.length) ∧ (0x80 ≤ (mwArrayOp s.curCtx s.curWord).wAddr) ∧ ((mwArrayOp s.curCtx s.curWord).wAddr < 0xF80) ∧ (s.savePlane (mwArrayOp s.curCtx s.curWord).wAddr = false)) ((issuing.updHalf 0 fun x => { x with image := image (128 * 2 ^ 40 + 0x96 * 2 ^ 65 + 2 ^ 81 + 2 ^ 85) })) := by
  decide +kernel

theorem w_microwordIssue_4 : (fun s : State => (s.awake = true) ∧ (s.canIssue = true) ∧ (s.seq.run.who = some (.stage (0 : Nat) (1 : Nat) (5 : Nat))) ∧ (s.seq.run.waiting = true) ∧ (s.waitHolds (mwWaitCond s.curWord) (mwWaitArg s.curWord) = true) ∧ (mwWaitMode s.curWord = 0) ∧ ((1 : Fin 4096).val ≤ mwTimeout s.curWord) ∧ (mwFlow s.curWord = 0) ∧ (s.seq.run.used + mwCycles s.curWord (1 : Fin 4096).val ≤ s.seq.run.length)) (waiting 2) := by
  decide +kernel

theorem w_microwordIssue_5 : (fun s : State => (s.awake = true) ∧ (s.canIssue = true) ∧ (s.seq.run.who = some (.stage (0 : Nat) (1 : Nat) (5 : Nat))) ∧ (s.seq.run.waiting = true) ∧ (s.waitHolds (mwWaitCond s.curWord) (mwWaitArg s.curWord) = false) ∧ (mwFlow s.curWord = 0) ∧ (s.seq.run.used + mwCycles s.curWord (mwTimeout s.curWord) ≤ s.seq.run.length)) (waiting 3) := by
  decide +kernel

theorem w_microwordIssue_6 : (fun s : State => (s.awake = true) ∧ (s.canIssue = true)) (issuing) := by
  decide +kernel

theorem w_microwordIssue_7 : (fun s : State => (s.awake = true) ∧ (s.canIssue = true)) (issuing) := by
  decide +kernel

theorem w_microwordIssue_8 : (fun s : State => (s.awake = true) ∧ (s.canIssue = true)) (issuing) := by
  decide +kernel

theorem w_microwordIssue_9 : (fun s : State => (s.awake = true) ∧ (s.canIssue = true)) (issuing) := by
  decide +kernel

theorem w_microwordIssue_10 : (fun s : State => (s.awake = true) ∧ (s.canIssue = true)) (issuing) := by
  decide +kernel

theorem w_microwordIssue_11 : (fun s : State => (s.awake = true) ∧ (s.canIssue = true) ∧ (s.curCtx.stack = (77 : Nat) :: ([1] : List Nat))) ((issuing.updCtx fun c => { c with stack := [77, 1] })) := by
  decide +kernel

theorem w_microwordIssue_12 : (fun s : State => (s.awake = true) ∧ (s.canIssue = true) ∧ (libEntry (0x1400 : Fin 16384).val = none)) (issuing) := by
  decide +kernel

theorem w_microwordIssue_13 : (fun s : State => (s.awake = true) ∧ (s.canIssue = true) ∧ ((libEntry (0x100 : Fin 16384).val).isSome = true) ∧ (s.seq.run.who = some (.stage (0 : Nat) (1 : Nat) (5 : Nat)))) (issuing) := by
  decide +kernel

theorem w_microwordIssue_14 : (fun s : State => (s.awake = true) ∧ (s.canIssue = true) ∧ (s.seq.run.who = some (.stage (0 : Nat) (1 : Nat) (5 : Nat))) ∧ ((0x10 : Fin 16384).val = 0x10 ∨ (0x10 : Fin 16384).val = 0x20 ∨ (0x10 : Fin 16384).val = 0xF0 ∨ (0x10 : Fin 16384).val = 0xF8) ∧ (0x80 ≤ (160 : Fin 4096).val) ∧ ((160 : Fin 4096).val + callN (0x0007#16 : BitVec 16).toNat ≤ 0xF7E) ∧ (s.seq.bgSave = none)) (((issuing.put ARR_ISL_STATUS.state 4 0).updSeq fun q => { q with bgSave := none })) := by
  decide +kernel

theorem w_microwordFlow_1 : (fun s : State => (s.awake = true) ∧ (s.canIssue = true) ∧ (s.curCtx.loopTaken (7 : Fin 8).val = true) ∧ (s.seq.run.who = some .background → s.seq.abortPass = false ∧ s.bit SEQ_BG_CTRL.enable = true ∧ s.seq.run.used + s.bgY + 5 ≤ s.seq.run.length)) ((issuing.updCtx fun c => c.setLoop 7 3 0)) := by
  decide +kernel

theorem w_microwordFlow_2 : (fun s : State => (s.awake = true) ∧ (s.canIssue = true) ∧ (s.curCtx.loopTaken (7 : Fin 8).val = false)) ((issuing.updCtx fun c => c.setLoop 7 3 2)) := by
  decide +kernel

theorem w_microwordFlow_3 : (fun s : State => (s.awake = true) ∧ (s.canIssue = true) ∧ (s.seq.run.who = some (.stage (0 : Nat) (1 : Nat) (5 : Nat)))) (issuing) := by
  decide +kernel

theorem w_microwordFlow_4 : (fun s : State => (s.awake = true) ∧ (s.canIssue = true) ∧ (s.seq.run.who = some .background) ∧ (s.seq.abortPass = false) ∧ (s.bit SEQ_BG_CTRL.enable = true) ∧ (s.seq.run.used + s.bgY + 5 ≤ s.seq.run.length)) (background) := by
  decide +kernel

theorem w_microwordFlow_5 : (fun s : State => (s.awake = true) ∧ (s.canIssue = true) ∧ (s.seq.run.who = some .background) ∧ (s.seq.abortPass = false) ∧ (s.seq.run.length < s.seq.run.used + s.bgY + 5)) ((background.updSeq fun q => { q with run := { q.run with length := 3 } })) := by
  decide +kernel

theorem w_microwordFlow_6 : (fun s : State => (s.awake = true) ∧ (s.canIssue = true) ∧ (s.seq.run.who = some .background) ∧ (s.seq.abortPass = false)) (background) := by
  decide +kernel

theorem w_microwordScalars_1 : (fun s : State => (s.awake = true) ∧ (s.canIssue = true)) (issuing) := by
  decide +kernel

theorem w_microwordScalars_2 : (fun s : State => (s.awake = true) ∧ (s.canIssue = true)) (issuing) := by
  decide +kernel

theorem w_microwordScalars_3 : (fun s : State => (s.awake = true) ∧ (s.canIssue = true)) (issuing) := by
  decide +kernel

theorem w_microwordScalars_4 : (fun s : State => (s.awake = true) ∧ (s.canIssue = true)) (issuing) := by
  decide +kernel

theorem w_microwordScalars_5 : (fun s : State => (s.awake = true) ∧ (s.canIssue = true)) (issuing) := by
  decide +kernel

theorem w_microwordScalars_6 : (fun s : State => (s.awake = true) ∧ (s.canIssue = true)) (issuing) := by
  decide +kernel

theorem w_microwordScalars_7 : (fun s : State => (s.awake = true) ∧ (s.canIssue = true)) (issuing) := by
  decide +kernel

theorem w_microwordScalars_8 : (fun s : State => (s.awake = true) ∧ (s.canIssue = true)) (issuing) := by
  decide +kernel

theorem w_microwordScalars_9 : (fun s : State => (s.awake = true) ∧ (s.canIssue = true)) (issuing) := by
  decide +kernel

theorem w_microwordScalars_10 : (fun s : State => (s.awake = true) ∧ (s.canIssue = true)) (issuing) := by
  decide +kernel

theorem w_microwordScalars_11 : (fun s : State => (s.awake = true) ∧ (s.canIssue = true)) (issuing) := by
  decide +kernel

theorem w_microwordScalars_12 : (fun s : State => (s.awake = true) ∧ (s.canIssue = true)) (issuing) := by
  decide +kernel

theorem w_sequencerTimers_1 : (fun s : State => (s.awake = true) ∧ (s.get SEQ_TMR_CFG.tick (7 : Fin 8).val = 0 ∨ s.get SEQ_TMR_CFG.tick (7 : Fin 8).val = 2) ∧ (s.bit SEQ_TMR_STAT.running (7 : Fin 8).val = true)) ((base.put SEQ_TMR_STAT.running 1 7)) := by
  decide +kernel

theorem w_sequencerTimers_2 : (fun s : State => (s.awake = true)) (base) := by
  decide +kernel

theorem w_sequencerTimers_3 : (fun s : State => (s.awake = true)) (base) := by
  decide +kernel

theorem w_sequencerTimers_4 : (fun s : State => (s.awake = true)) (base) := by
  decide +kernel

theorem w_sequencerTimers_5 : (fun s : State => (s.awake = true) ∧ (s.seq.inPass = true) ∧ (s.seq.abortPass = false)) ((base.updSeq fun q => { q with inPass := true })) := by
  decide +kernel

theorem w_sequencerTimers_6 : (fun s : State => (s.awake = true)) (base) := by
  decide +kernel

theorem w_sequencerTimers_7 : (fun s : State => (s.awake = true) ∧ ((5119 : Fin 16384).val < 5120) ∧ (s.seqState ≠ 2)) (base) := by
  decide +kernel

theorem w_programLoading_1 : (fun s : State => (s.awake = true) ∧ (s.umbraState ≠ 1) ∧ (s.umbraState ≠ 5) ∧ (s.umbraState ≠ 6)) ((base.put SEQ_UMBRA_STATUS.state 3)) := by
  decide +kernel

theorem w_programLoading_2 : (fun s : State => (s.awake = true) ∧ (s.umbraState = 1) ∧ (s.seq.loading = some (tinyProgram : List (BitVec 8))) ∧ ((progErr (tinyProgram : List (BitVec 8)).length (s.get BOT_PATCH_VER.ver) (tinyProgram : List (BitVec 8))).1 = 0)) (((base.put SEQ_UMBRA_STATUS.state 1).updSeq fun q => { q with loading := some tinyProgram })) := by
  refine ⟨by decide +kernel, by decide +kernel, rfl, ?_⟩
  simp only [progErr, tinyProgram_crc]; decide +kernel

theorem w_programLoading_3 : (fun s : State => (s.awake = true) ∧ (s.umbraState = 1) ∧ (s.seq.loading = none)) ((base.put SEQ_UMBRA_STATUS.state 1)) := by
  decide +kernel

theorem w_programLoading_4 : (fun s : State => (s.awake = true) ∧ (s.umbraState = 1)) ((base.put SEQ_UMBRA_STATUS.state 1)) := by
  decide +kernel

theorem w_programLoading_5 : (fun s : State => (s.awake = true) ∧ (s.umbraState = 3) ∧ (s.bit SEQ_XCHG_WHEN_HI.named = false)) ((base.put SEQ_UMBRA_STATUS.state 3)) := by
  decide +kernel

theorem w_programLoading_6 : (fun s : State => (s.awake = true) ∧ (s.umbraState = 5) ∧ (s.gno.due.contains .exchange = false)) ((base.put SEQ_UMBRA_STATUS.state 5)) := by
  decide +kernel

theorem w_programLoading_7 : (fun s : State => (s.awake = true) ∧ (s.isDue .exchange = true) ∧ (s.umbraState = 5)) (((base.put SEQ_UMBRA_STATUS.state 5).updGno fun g => { g with due := [.exchange] })) := by
  decide +kernel

theorem w_programLoading_8 : (fun s : State => (s.awake = true) ∧ (s.seqState = 0)) (base) := by
  decide +kernel

theorem w_programLoading_9 : (fun s : State => (s.awake = true)) (base) := by
  decide +kernel

theorem w_programLoading_10 : (fun s : State => (s.awake = true) ∧ (s.seq.admission = some ({ active := true, umbra := true } : Admission)) ∧ (s.tar.phase ≠ .proposed)) ((base.updSeq fun q => { q with admission := some { active := true, umbra := true } })) := by
  decide +kernel

theorem w_programLoading_11 : (fun s : State => (s.awake = true) ∧ (s.seq.admission = some ({ active := false, umbra := true } : Admission)) ∧ (({ active := false, umbra := true } : Admission).active = false) ∧ (({ active := false, umbra := true } : Admission).umbra = true) ∧ (({ active := false, umbra := true } : Admission).plan = none) ∧ (s.tar.phase ≠ .proposed) ∧ (s.umbraState = 2) ∧ (s.seqState = 0) ∧ ((s.half s.umbraHalf).facts.decOutside = false) ∧ ((s.half s.umbraHalf).facts.missing = false) ∧ (waitShort (s.half s.umbraHalf).facts s.pSlow = false) ∧ ((s.half s.umbraHalf).facts.fg.sum ≤ s.get GNO_PERIOD_MIN.period_fs / s.pSlow - 3) ∧ ((s.half s.umbraHalf).facts.dec = 0 ∨ (if (s.half s.umbraHalf).facts.fullLast then 7750000 else 6250000) + (s.half s.umbraHalf).facts.dec * s.pSlow + ((s.half s.umbraHalf).facts.fg.length - 1) * s.get GNO_PERIOD_MAX.period_fs ≤ 1000000 * s.get SEQ_PROMISE_NS.ns)) ((((base.put SEQ_UMBRA_STATUS.state 2).put GNO_PERIOD_MIN.period_fs 24000000).put GNO_PERIOD_MAX.period_fs 26000000).updSeq fun q => { q with admission := some { active := false, umbra := true }, half1 := { q.half1 with facts := { fg := [20, 30], dec := 10 } } }) := by
  simp only [State.pSlow, State.get, Fld.reset, ARR_ISL_CLK_PLAN.period_fs]
  generalize Sys2Proof.Config.grade28 = b
  cases b <;> decide +kernel

theorem w_programLoading_12 : (fun s : State => (s.awake = true) ∧ (s.seq.admission = some ({ active := false, umbra := true } : Admission)) ∧ (({ active := false, umbra := true } : Admission).active = false) ∧ (({ active := false, umbra := true } : Admission).umbra = true) ∧ (({ active := false, umbra := true } : Admission).plan = none) ∧ (s.tar.phase ≠ .proposed) ∧ (s.umbraState = 2) ∧ (¬ (((s.half s.umbraHalf).facts.decOutside = false) ∧ ((s.half s.umbraHalf).facts.missing = false) ∧ (waitShort (s.half s.umbraHalf).facts s.pSlow = false) ∧ ((s.half s.umbraHalf).facts.fg.sum ≤ s.get GNO_PERIOD_MIN.period_fs / s.pSlow - 3) ∧ ((s.half s.umbraHalf).facts.dec = 0 ∨ (if (s.half s.umbraHalf).facts.fullLast then 7750000 else 6250000) + (s.half s.umbraHalf).facts.dec * s.pSlow + ((s.half s.umbraHalf).facts.fg.length - 1) * s.get GNO_PERIOD_MAX.period_fs ≤ 1000000 * s.get SEQ_PROMISE_NS.ns)))) ((((base.put SEQ_UMBRA_STATUS.state 2).put GNO_PERIOD_MIN.period_fs 24000000).put GNO_PERIOD_MAX.period_fs 26000000).updSeq fun q => { q with admission := some { active := false, umbra := true }, half1 := { q.half1 with facts := { fg := [20, 30], dec := 10, missing := true } } }) := by
  simp only [State.pSlow, State.get, Fld.reset, ARR_ISL_CLK_PLAN.period_fs]
  generalize Sys2Proof.Config.grade28 = b
  cases b <;> decide +kernel

theorem w_programLoading_13 : (fun s : State => (s.awake = true) ∧ (s.seq.admission = some ({ active := false, umbra := true } : Admission)) ∧ (({ active := false, umbra := true } : Admission).active = false) ∧ (({ active := false, umbra := true } : Admission).umbra = true) ∧ (({ active := false, umbra := true } : Admission).plan = none) ∧ (s.tar.phase ≠ .proposed) ∧ (s.umbraState = 2) ∧ (s.seqState = 1) ∧ (2 ≤ s.active.facts.fg.length) ∧ (s.bit SEQ_ADM_STATUS.held = false) ∧ ((s.half s.umbraHalf).facts.decOutside = false) ∧ ((s.half s.umbraHalf).facts.missing = false) ∧ (waitShort (s.half s.umbraHalf).facts s.pSlow = false) ∧ ((s.half s.umbraHalf).facts.fg.sum ≤ s.get GNO_PERIOD_MIN.period_fs / s.pSlow - 3) ∧ ((s.half s.umbraHalf).facts.dec = 0 ∨ (if (s.half s.umbraHalf).facts.fullLast then 7750000 else 6250000) + (s.half s.umbraHalf).facts.dec * s.pSlow + ((s.half s.umbraHalf).facts.fg.length - 1) * s.get GNO_PERIOD_MAX.period_fs ≤ 1000000 * s.get SEQ_PROMISE_NS.ns)) ((((((base.put SEQ_UMBRA_STATUS.state 2).put GNO_PERIOD_MIN.period_fs 24000000).put GNO_PERIOD_MAX.period_fs 26000000).updSeq fun q => { q with admission := some { active := false, umbra := true }, half1 := { q.half1 with facts := { fg := [20, 30], dec := 10 } } }).put SEQ_STATUS.state 1).updSeq fun q => { q with half0 := { q.half0 with facts := { fg := [20, 40] } } }) := by
  simp only [State.pSlow, State.get, Fld.reset, ARR_ISL_CLK_PLAN.period_fs]
  generalize Sys2Proof.Config.grade28 = b
  cases b <;> decide +kernel

theorem w_programLoading_14 : (fun s : State => (s.awake = true) ∧ (s.seq.admission = some ({ active := true, umbra := false } : Admission)) ∧ (({ active := true, umbra := false } : Admission).active = true) ∧ (({ active := true, umbra := false } : Admission).umbra = false) ∧ (({ active := true, umbra := false } : Admission).plan = none) ∧ (s.tar.phase ≠ .proposed) ∧ (s.seqState ≠ 0)) ((base.put SEQ_STATUS.state 1).updSeq fun q => { q with admission := some { active := true, umbra := false } }) := by
  decide +kernel

theorem w_programLoading_15 : (fun s : State => (s.awake = true) ∧ (s.isDue .plan = true) ∧ (s.seq.plan = some ({ periods := [300000], voltage := 700, tmax := [], second := false } : Plan))) (((base.updSeq fun q => { q with plan := some { periods := [300000], voltage := 700, tmax := [], second := false } }).updGno fun g => { g with due := [.plan] })) := by
  decide +kernel

theorem w_commitSets_1 : (fun s : State => (s.awake = true) ∧ (s.bit SEQ_CS_STATUS.armed (3 : Fin 4).val = false) ∧ (s.csEntries (3 : Fin 4).val ≠ 0) ∧ (s.bit SEQ_CS_WHEN_HI.named (3 : Fin 4).val = false)) ((base.put SEQ_CS_ENT.valid 1 3 15)) := by
  decide +kernel

theorem w_commitSets_2 : (fun s : State => (s.awake = true) ∧ (s.csEntries (3 : Fin 4).val = 0)) (base) := by
  decide +kernel

theorem w_commitSets_3 : (fun s : State => (s.awake = true) ∧ (s.bit SEQ_CS_STATUS.armed (3 : Fin 4).val = true) ∧ (s.gno.due.contains (.cset (3 : Fin 4).val) = false)) ((base.put SEQ_CS_STATUS.armed 1 3)) := by
  decide +kernel

theorem w_commitSets_4 : (fun s : State => (s.awake = true) ∧ (s.bit SEQ_CS_STATUS.armed (3 : Fin 4).val = false)) ((base.put SEQ_CS_ENT.valid 1 3 15)) := by
  decide +kernel

theorem w_commitSets_5 : (fun s : State => (s.awake = true) ∧ (s.isDue (.cset (3 : Fin 4).val) = true)) ((base.updGno fun g => { g with due := [.cset 3] })) := by
  decide +kernel

theorem w_beaconAndGlint_1 : (fun s : State => (s.awake = true) ∧ (s.seq.requests = ({ reg := 3, full := true, glint := some 15, ext := 0, serial := some 5, half := 0, addr := 0, responders := 0x10001, contrib := 1 } : BcnReq) :: ([] : List BcnReq))) ((base.updSeq fun q => { q with requests := [{ reg := 3, full := true, glint := some 15, ext := 0, serial := some 5, half := 0, addr := 0, responders := 0x10001, contrib := 1 }] })) := by
  decide +kernel

theorem w_beaconAndGlint_2 : (fun s : State => (s.awake = true) ∧ (s.seq.requests = ({ reg := 3, full := true, glint := some 15, ext := 0, serial := some 5, half := 0, addr := 0, responders := 0x10001, contrib := 1 } : BcnReq) :: ([] : List BcnReq)) ∧ (({ reg := 3, full := true, glint := some 15, ext := 0, serial := some 5, half := 0, addr := 0, responders := 0x10001, contrib := 1 } : BcnReq).glint = some (15 : Nat)) ∧ (({ reg := 3, full := true, glint := some 15, ext := 0, serial := some 5, half := 0, addr := 0, responders := 0x10001, contrib := 1 } : BcnReq).serial = some (5 : Nat)) ∧ (s.launchedPast (5 : Nat) = true) ∧ (s.seq.releases.any (fun x => x.serial = (5 : Nat) ∧ x.half = ({ reg := 3, full := true, glint := some 15, ext := 0, serial := some 5, half := 0, addr := 0, responders := 0x10001, contrib := 1 } : BcnReq).half) = false)) ((base.updSeq fun q => { q with launched := some 6, requests := [{ reg := 3, full := true, glint := some 15, ext := 0, serial := some 5, half := 0, addr := 0, responders := 0x10001, contrib := 1 }] })) := by
  decide +kernel

theorem w_beaconAndGlint_3 : (fun s : State => (s.awake = true) ∧ (s.seq.releases = ({ serial := 5, instant := 40000000, half := 0, set := 0x8000 } : Release) :: ([] : List Release))) ((base.updSeq fun q => { q with releases := [{ serial := 5, instant := 40000000, half := 0, set := 0x8000 }] })) := by
  decide +kernel

theorem w_beaconAndGlint_4 : (fun s : State => (s.awake = true) ∧ ((s.glint (15 : Fin 16).val).pulse = true)) ((base.updGlint 15 fun g => { g with level := 1, pulse := true })) := by
  decide +kernel

theorem w_beaconAndGlint_5 : (fun s : State => (s.awake = true) ∧ (s.seq.busyNext = true) ∧ (s.bit BCN_STATUS.busy = false)) (((base.put BCN_STATUS.busy 0).updSeq fun q => { q with busyNext := true })) := by
  decide +kernel

theorem w_beaconAndGlint_6 : (fun s : State => (s.awake = true) ∧ (s.seq.busyLeft = 1) ∧ (s.seq.busyNext = false)) (((base.put BCN_STATUS.busy 1).updSeq fun q => { q with busyLeft := 1, busyNext := false })) := by
  decide +kernel

theorem w_frontLaneStates_1 : (fun s : State => (s.awake = true) ∧ (s.laneState (223 : Fin 224).val = 0) ∧ ((0x107#32 : BitVec 32).getLsbD 0 = true) ∧ (bits (0x107#32 : BitVec 32).toNat 2 2 ≠ 3) ∧ (bits (0x107#32 : BitVec 32).toNat 6 2 ≠ 3)) (base) := by
  decide +kernel

theorem w_frontLaneStates_2 : (fun s : State => (s.awake = true) ∧ ((0x106#32 : BitVec 32).getLsbD 0 = false)) ((base.put FLN_STATUS.state 4 223)) := by
  decide +kernel

theorem w_frontLaneStates_3 : (fun s : State => (s.awake = true) ∧ (bits (0xC#32 : BitVec 32).toNat 2 2 = 3)) (base) := by
  decide +kernel

theorem w_frontLaneStates_4 : (fun s : State => (s.awake = true) ∧ (s.laneState (223 : Fin 224).val = 1) ∧ ((s.get FLN_REFCLK_STATUS.present).testBit ((223 : Fin 224).val / 28) = true)) ((base.put FLN_STATUS.state 1 223).put FLN_REFCLK_STATUS.present 0x80) := by
  decide +kernel

theorem w_frontLaneStates_5 : (fun s : State => (s.awake = true) ∧ (s.laneState (223 : Fin 224).val = 2)) ((base.put FLN_STATUS.state 2 223)) := by
  decide +kernel

theorem w_frontLaneStates_6 : (fun s : State => (s.awake = true) ∧ (s.laneState (223 : Fin 224).val = 3)) ((base.put FLN_STATUS.state 3 223)) := by
  decide +kernel

theorem w_frontLaneStates_7 : (fun s : State => (s.awake = true) ∧ (s.laneState (223 : Fin 224).val = 3)) ((base.put FLN_STATUS.state 3 223)) := by
  decide +kernel

theorem w_frontLaneStates_8 : (fun s : State => (s.awake = true) ∧ (s.laneState (223 : Fin 224).val = 4)) ((base.put FLN_STATUS.state 4 223)) := by
  decide +kernel

theorem w_frontLaneStates_9 : (fun s : State => (s.awake = true) ∧ (s.laneState (223 : Fin 224).val = 4)) ((base.put FLN_STATUS.state 4 223)) := by
  decide +kernel

theorem w_frontLaneStates_10 : (fun s : State => (s.awake = true) ∧ (s.laneState (223 : Fin 224).val = 4) ∧ (s.bit FLN_RX_EQ.adapt_freeze (223 : Fin 224).val = false)) ((base.put FLN_STATUS.state 4 223)) := by
  decide +kernel

theorem w_frontLaneStates_11 : (fun s : State => (s.awake = true)) (base) := by
  decide +kernel

theorem w_laneEqualisers_1 : (fun s : State => (s.awake = true)) (base) := by
  decide +kernel

theorem w_laneEqualisers_2 : (fun s : State => (s.awake = true) ∧ (s.laneState (223 : Fin 224).val = 4) ∧ (s.bit FLN_STATUS.eye_busy (223 : Fin 224).val = false)) ((base.put FLN_STATUS.state 4 223)) := by
  decide +kernel

theorem w_laneEqualisers_3 : (fun s : State => (s.awake = true) ∧ (s.laneState (223 : Fin 224).val ≠ 4)) ((base.put FLN_STATUS.state 3 223)) := by
  decide +kernel

theorem w_laneEqualisers_4 : (fun s : State => (s.awake = true) ∧ (s.bit FLN_STATUS.eye_busy (223 : Fin 224).val = true) ∧ (s.tar.scans.find? (fun x => x.lane == (223 : Fin 224).val) = none)) ((base.put FLN_STATUS.state 4 223).put FLN_STATUS.eye_busy 1 223) := by
  decide +kernel

theorem w_laneEqualisers_5 : (fun s : State => (s.awake = true) ∧ (s.tar.scans.find? (fun (rearScan : TarScan) => (rearScan : TarScan).lane == 256 + (47 : Fin 48).val) = some (rearScan : TarScan)) ∧ ((rearScan : TarScan).left = [])) ((base.updTar fun t => { t with scans := [rearScan] })) := by
  decide +kernel

theorem w_slowChannel_1 : (fun s : State => (s.awake = true) ∧ (slowScan (s.lane (223 : Fin 224).val).rx = .good 1 ((leBytes 28 0x123456789ABCDEF0 ++ 1#8 :: leBytes 3 0) : List (BitVec 8)) ([] : List (BitVec 8))) ∧ (((leBytes 28 0x123456789ABCDEF0 ++ 1#8 :: leBytes 3 0) : List (BitVec 8)).length = 32) ∧ (leAt ((leBytes 28 0x123456789ABCDEF0 ++ 1#8 :: leBytes 3 0) : List (BitVec 8)) 28 1 = 1)) ((base.updLane 223 fun l => { l with rx := slowBytes 1 (leBytes 28 0x123456789ABCDEF0 ++ 1#8 :: leBytes 3 0) })) := by
  decide +kernel

theorem w_slowChannel_2 : (fun s : State => (s.awake = true) ∧ (slowScan (s.lane (223 : Fin 224).val).rx = .good 2 ((leBytes 6 0x050403020103) : List (BitVec 8)) ([] : List (BitVec 8))) ∧ (((leBytes 6 0x050403020103) : List (BitVec 8)).length = 6) ∧ (1 ≤ leAt ((leBytes 6 0x050403020103) : List (BitVec 8)) 0 1) ∧ (leAt ((leBytes 6 0x050403020103) : List (BitVec 8)) 0 1 ≤ 3)) ((base.updLane 223 fun l => { l with rx := slowBytes 2 (leBytes 6 0x050403020103) })) := by
  decide +kernel

theorem w_slowChannel_3 : (fun s : State => (s.awake = true) ∧ (slowScan (s.lane (223 : Fin 224).val).rx = .good 3 ([7#8, 9#8] : List (BitVec 8)) ([] : List (BitVec 8))) ∧ (([7#8, 9#8] : List (BitVec 8)).length = 2)) ((base.updLane 223 fun l => { l with rx := slowBytes 3 [7#8, 9#8] })) := by
  decide +kernel

theorem w_slowChannel_4 : (fun s : State => (s.awake = true) ∧ (slowScan (s.lane (223 : Fin 224).val).rx = .good (0x7F : Nat) ([7#8, 9#8] : List (BitVec 8)) ([] : List (BitVec 8))) ∧ (0x10 ≤ (0x7F : Nat)) ∧ ((0x7F : Nat) ≤ 0x7F) ∧ (s.bit FLN_SC_STATUS.rx_full (223 : Fin 224).val = false)) ((base.updLane 223 fun l => { l with rx := slowBytes 127 [7#8, 9#8] })) := by
  decide +kernel

theorem w_slowChannel_5 : (fun s : State => (s.awake = true) ∧ (slowScan (s.lane (223 : Fin 224).val).rx = .good (0x7F : Nat) ([7#8, 9#8] : List (BitVec 8)) ([] : List (BitVec 8))) ∧ (0x10 ≤ (0x7F : Nat)) ∧ ((0x7F : Nat) ≤ 0x7F) ∧ (s.bit FLN_SC_STATUS.rx_full (223 : Fin 224).val = true)) (((base.put FLN_SC_STATUS.rx_full 1 223).updLane 223 fun l => { l with rx := slowBytes 127 [7#8, 9#8] })) := by
  decide +kernel

theorem w_slowChannel_6 : (fun s : State => (s.awake = true) ∧ (s.bit FLN_STATUS.module_present (223 : Fin 224).val = true) ∧ (s.reconfiguring (223 : Fin 224).val = false)) ((base.put FLN_STATUS.state 4 223).put FLN_STATUS.module_present 1 223) := by
  decide +kernel

theorem w_slowChannel_7 : (fun s : State => (s.awake = true) ∧ (s.bit FLN_DL_WORDS.slow_ok (223 : Fin 224).val = true) ∧ (s.bit FLN_SC_STATUS.tx_pending (223 : Fin 224).val = false)) (((base.put FLN_DL_WORDS.slow_ok 1 223).put FLN_SC_TX_BUF.bytes 0xFF10 223 0)) := by
  decide +kernel

theorem w_slowChannel_8 : (fun s : State => (s.awake = true) ∧ (s.bit FLN_SC_STATUS.tx_pending (223 : Fin 224).val = true)) ((base.put FLN_SC_STATUS.tx_pending 1 223)) := by
  decide +kernel

theorem w_downlinkSlot_1 : (fun s : State => (s.awake = true) ∧ (s.bit FLN_CTRL.tx_en (223 : Fin 224).val = true) ∧ (s.get FLN_CTRL.loopback (223 : Fin 224).val ≠ 2) ∧ (s.hasTimeline = true) ∧ (s.dlInForce (223 : Fin 224).val = (true, true, (true : Bool), (0 : Nat))) ∧ (1 + (0 : Nat) ≤ s.wMin (223 : Fin 224).val)) (((((base.put FLN_CTRL.tx_en 1 223).put GNO_STATUS.state 2).put FLN_DL_CTRL.dl_en 1 223).put GNO_PERIOD_MIN.period_fs 24000000)) := by
  decide +kernel

theorem w_downlinkSlot_2 : (fun s : State => (s.awake = true) ∧ (s.get FLN_DL_CTRL.fc_en (223 : Fin 224).val + bits (2#32 : BitVec 32).toNat 0 5 ≤ s.wMin (223 : Fin 224).val)) ((base.put GNO_PERIOD_MIN.period_fs 24000000)) := by
  decide +kernel

theorem w_downlinkSlot_3 : (fun s : State => (s.awake = true) ∧ (s.wMin (223 : Fin 224).val < s.get FLN_DL_CTRL.fc_en (223 : Fin 224).val + bits (31#32 : BitVec 32).toNat 0 5)) (base) := by
  decide +kernel

theorem w_downlinkSlot_4 : (fun s : State => (s.awake = true) ∧ (s.laneState (223 : Fin 224).val = 4) ∧ (s.bit FLN_CTRL.rx_invert (223 : Fin 224).val = false) ∧ ((s.path ((223 : Fin 224).val / 4) ((223 : Fin 224).val % 4)).skip = false) ∧ (s.get FLN_CTRL.loopback (223 : Fin 224).val ≠ 2) ∧ (s.bit FLN_TIMING_SEL.enable = false) ∧ (s.facetState ((223 : Fin 224).val / 4) = 1) ∧ (s.facetServes ((223 : Fin 224).val / 4) (s.get FLN_CTRL.rate (223 : Fin 224).val) = true) ∧ ((s.path ((223 : Fin 224).val / 4) ((223 : Fin 224).val % 4)).nbits + 64 < imgPrim (s.img ((223 : Fin 224).val / 4)) ((223 : Fin 224).val % 4) 0 1)) ((((base.put FLN_STATUS.state 4 223).put EDG_FSTATUS.state 1 55).updFacet 55 fun x => { x with active := wideFacet })) := by
  decide +kernel

theorem w_downlinkSlot_5 : (fun s : State => (s.awake = true) ∧ (s.laneState (223 : Fin 224).val = 4) ∧ (s.bit FLN_TIMING_SEL.enable = false) ∧ (s.facetState ((223 : Fin 224).val / 4) = 0)) ((base.put FLN_STATUS.state 4 223)) := by
  decide +kernel

theorem w_downlinkSlot_6 : (fun s : State => (s.awake = true) ∧ ((s.lane (223 : Fin 224).val).words = ({ tag := 2, first := true, word := 0x1234 } : TxWord) :: ([] : List TxWord)) ∧ (s.facetState ((223 : Fin 224).val / 4) = 1) ∧ (s.bit FLN_CTRL.tx_en (223 : Fin 224).val = true) ∧ (s.get FLN_CTRL.loopback (223 : Fin 224).val = 0) ∧ (imgPrim (s.img ((223 : Fin 224).val / 4)) ((223 : Fin 224).val % 4) 55 1 = 0) ∧ ((s.path ((223 : Fin 224).val / 4) ((223 : Fin 224).val % 4)).txQ = []) ∧ ((0x1234 : Nat) = (s.txMade ((223 : Fin 224).val / 4) ((223 : Fin 224).val % 4) ({ tag := 2, first := true, word := 0x1234 } : TxWord).word).1)) ((((base.put EDG_FSTATUS.state 1 55).put FLN_CTRL.tx_en 1 223).updLane 223 fun l => { l with words := [{ tag := 2, first := true, word := 0x1234 }] })) := by
  decide +kernel

theorem w_downlinkSlot_7 : (fun s : State => (s.awake = true) ∧ ((s.lane (223 : Fin 224).val).words = ({ tag := 2, first := true, word := 0x1234 } : TxWord) :: ([] : List TxWord)) ∧ (s.facetState ((223 : Fin 224).val / 4) ≠ 1) ∧ (s.bit FLN_CTRL.tx_en (223 : Fin 224).val = true) ∧ (s.get FLN_CTRL.loopback (223 : Fin 224).val = 0) ∧ ((s.path ((223 : Fin 224).val / 4) ((223 : Fin 224).val % 4)).txQ = [])) ((((base.put EDG_FSTATUS.state 3 55).put FLN_CTRL.tx_en 1 223).updLane 223 fun l => { l with words := [{ tag := 2, first := true, word := 0x1234 }] })) := by
  decide +kernel

theorem w_facetCommands_1 : (fun s : State => (s.awake = true) ∧ (s.facetState (56 : Fin 57).val ≠ 3) ∧ (s.get EDG_FSTATUS.shadow (56 : Fin 57).val ≠ 1) ∧ (s.bit EDG_FSTATUS.act_pending (56 : Fin 57).val = false) ∧ (s.bit EDG_CFG_PORT.busy = false)) ((base.put EDG_FSTATUS.state 0 56)) := by
  decide +kernel

theorem w_facetCommands_2 : (fun s : State => (s.awake = true) ∧ (s.facetState (56 : Fin 57).val = 3)) ((base.put EDG_FSTATUS.state 3 56)) := by
  decide +kernel

theorem w_facetCommands_3 : (fun s : State => (s.awake = true) ∧ (s.get EDG_FSTATUS.shadow (56 : Fin 57).val = 1)) ((base.put EDG_FSTATUS.shadow 1 56)) := by
  decide +kernel

theorem w_facetCommands_4 : (fun s : State => (s.awake = true) ∧ (s.get EDG_FSTATUS.shadow (56 : Fin 57).val = 2) ∧ (imgClk (s.facet (56 : Fin 57).val).shadow = s.get EDG_FCTRL.clk (56 : Fin 57).val) ∧ (s.facetState (56 : Fin 57).val ≠ 1) ∧ (s.facetState (56 : Fin 57).val ≠ 3)) (((base.put EDG_FSTATUS.shadow 2 56).updFacet 56 fun x => { x with shadow := leBytes 16 0 ++ [3#8] })) := by
  decide +kernel

theorem w_facetCommands_5 : (fun s : State => (s.awake = true) ∧ (s.get EDG_FSTATUS.shadow (56 : Fin 57).val = 2) ∧ (imgClk (s.facet (56 : Fin 57).val).shadow = s.get EDG_FCTRL.clk (56 : Fin 57).val) ∧ (s.facetState (56 : Fin 57).val = 1) ∧ (s.bit EDG_CFG_WHEN_HI.named (56 : Fin 57).val = false)) (((base.put EDG_FSTATUS.shadow 2 56).put EDG_FSTATUS.state 1 56).updFacet 56 fun x => { x with shadow := leBytes 16 0 ++ [3#8] }) := by
  decide +kernel

theorem w_facetCommands_6 : (fun s : State => (s.awake = true) ∧ (s.isDue (.facet (56 : Fin 57).val) = true) ∧ (s.facetState (56 : Fin 57).val = 1) ∧ (s.get EDG_FSTATUS.shadow (56 : Fin 57).val = 2)) ((((base.put EDG_FSTATUS.state 1 56).put EDG_FSTATUS.shadow 2 56).updGno fun g => { g with due := [.facet 56] })) := by
  decide +kernel

theorem w_facetCommands_7 : (fun s : State => (s.awake = true) ∧ (s.facetState (56 : Fin 57).val = 3)) ((base.put EDG_FSTATUS.state 3 56)) := by
  decide +kernel

theorem w_facetCommands_8 : (fun s : State => (s.awake = true) ∧ ((s.facet (56 : Fin 57).val).switched = false) ∧ (s.gno.due.contains (.facet (56 : Fin 57).val) = false) ∧ (s.get EDG_FSTATUS.shadow (56 : Fin 57).val ≠ 0)) ((base.put EDG_FSTATUS.shadow 2 56)) := by
  decide +kernel

theorem w_facetCommands_9 : (fun s : State => (s.awake = true) ∧ ((s.facet (56 : Fin 57).val).switched = true ∨ s.gno.due.contains (.facet (56 : Fin 57).val) = true)) ((base.updFacet 56 fun x => { x with switched := true })) := by
  decide +kernel

theorem w_facetCommands_10 : (fun s : State => (s.awake = true) ∧ (s.facetState (56 : Fin 57).val = 1)) ((base.put EDG_FSTATUS.state 1 56)) := by
  decide +kernel

theorem w_facetCommands_11 : (fun s : State => (s.awake = true) ∧ (s.facetState (56 : Fin 57).val = 2)) ((base.put EDG_FSTATUS.state 2 56)) := by
  decide +kernel

theorem w_facetCommands_12 : (fun s : State => (s.awake = true) ∧ (s.facetState (56 : Fin 57).val = 1 ∨ s.facetState (56 : Fin 57).val = 2)) ((base.put EDG_FSTATUS.state 2 56)) := by
  decide +kernel

theorem w_facetCommands_13 : (fun s : State => (s.awake = true) ∧ (s.readback (56 : Fin 57).val = some (77 : Nat))) ((base.updFacet 56 fun x => { x with capture := [77] })) := by
  decide +kernel

theorem w_facetCommands_14 : (fun s : State => (s.awake = true)) (base) := by
  decide +kernel

theorem w_facetCommands_15 : (fun s : State => (s.awake = true) ∧ (s.facetState (56 : Fin 57).val = 1)) ((base.put EDG_FSTATUS.state 1 56)) := by
  decide +kernel

theorem w_facetCycle_1 : (fun s : State => (s.awake = true) ∧ (s.facetState (56 : Fin 57).val = 1)) ((base.put EDG_FSTATUS.state 1 56)) := by
  decide +kernel

theorem w_facetCycle_2 : (fun s : State => (s.awake = true) ∧ (s.facetState (56 : Fin 57).val = 2)) ((base.put EDG_FSTATUS.state 2 56)) := by
  decide +kernel

theorem w_facetCycle_3 : (fun s : State => (s.awake = true) ∧ (s.facetState (56 : Fin 57).val = 1) ∧ ((Sparse.get {} (s.facet (56 : Fin 57).val).timers (15 : Fin 16).val).running = true) ∧ ((Sparse.get {} (s.facet (56 : Fin 57).val).timers (15 : Fin 16).val).count ≤ 1) ∧ ((s.facet (56 : Fin 57).val).sink (imgSinks (s.img (56 : Fin 57).val)) (0x2000 + 4 * (15 : Fin 16).val + 1) = false) ∧ ((s.facet (56 : Fin 57).val).sink (imgSinks (s.img (56 : Fin 57).val)) (0x2000 + 4 * (15 : Fin 16).val + 2) = false)) ((base.put EDG_FSTATUS.state 1 56).updFacet 56 fun x => { x with timers := [(15, { count := 1, running := true })] }) := by
  decide +kernel

theorem w_facetCycle_4 : (fun s : State => (s.awake = true)) (base) := by
  decide +kernel

theorem w_facetCycle_5 : (fun s : State => (s.awake = true) ∧ ((94 : Fin 96).val % 2 = 0) ∧ (bits (2#32 : BitVec 32).toNat 0 2 = 1 ∨ bits (2#32 : BitVec 32).toNat 0 2 = 2)) (base) := by
  decide +kernel

theorem w_facetCycle_6 : (fun s : State => (s.awake = true)) (base) := by
  decide +kernel

theorem w_prismCommands_1 : (fun s : State => (s.awake = true) ∧ ((s.prismCheck s.prismCfg).1 = 0) ∧ (s.bit PRI_APPLY_WHEN_HI.named = false)) ((base.put GNO_PERIOD_MIN.period_fs 24000000)) := by
  decide +kernel

theorem w_prismCommands_2 : (fun s : State => (s.awake = true) ∧ ((s.prismCheck s.prismCfg).1 ≠ 0)) ((base.put PRI_LIN.slots 0)) := by
  decide +kernel

theorem w_prismCommands_3 : (fun s : State => (s.awake = true) ∧ (s.pri.armed.isSome = true) ∧ (s.gno.due.contains .prism = false)) ({ base with pri := { base.pri with armed := some {} } }) := by
  decide +kernel

theorem w_prismCommands_4 : (fun s : State => (s.awake = true) ∧ (s.pri.armed = some ({ lin := 20 } : PrismCfg)) ∧ (s.pri.fixed = none) ∧ (s.isDue .prism = true)) (({ base with pri := { base.pri with armed := some { lin := 20 } } }.updGno fun g => { g with due := [.prism] })) := by
  decide +kernel

theorem w_prismCommands_5 : (fun s : State => (s.awake = true)) (base) := by
  decide +kernel

theorem w_prismData_1 : (fun s : State => (s.awake = true) ∧ ((s.path ((223 : Fin 224).val / 4) ((223 : Fin 224).val % 4)).words = ({ tag := 5, first := true, word := 77 } : PortWord) :: ([] : List PortWord)) ∧ ((Sparse.get {} s.pri.work.lanes (223 : Fin 224).val).enable = true) ∧ (({ tag := 5, first := true, word := 77 } : PortWord).first = true) ∧ (s.classify (223 : Fin 224).val ({ tag := 5, first := true, word := 77 } : PortWord).tag = .crossing (5 : Nat)) ∧ (0 < mapWords (Sparse.get {} s.pri.work.lanes (223 : Fin 224).val).count (Sparse.get {} s.pri.work.lanes (223 : Fin 224).val).bits)) ((({ base with pri := { base.pri with work := { base.pri.work with lanes := [(223, { enable := true, tagMode := 1, count := 1 })] }, pend := [{ serial := 5, index := 0, holdover := false }] } }.updPath 55 3 fun p => { p with words := [{ tag := 5, first := true, word := 77 }] }))) := by
  decide +kernel

theorem w_prismData_2 : (fun s : State => (s.awake = true) ∧ (s.pri.pend = ({ serial := 5, index := 3, holdover := false } : Pending) :: ([] : List Pending)) ∧ ((s.cfgOf ({ serial := 5, index := 3, holdover := false } : Pending)).lin ≤ serialAge ({ serial := 5, index := 3, holdover := false } : Pending).serial s.lastSerial + 1) ∧ (serialAge ({ serial := 5, index := 3, holdover := false } : Pending).serial s.lastSerial < 2 ^ 63) ∧ (s.bit PRI_STATUS.budget_fail = false)) (({ base with pri := { base.pri with pend := [{ serial := 5, index := 3, holdover := false }] } }.updGno fun g => { g with nextSerial := 30 })) := by
  decide +kernel

theorem w_prismData_3 : (fun s : State => (s.awake = true) ∧ (sideClosed (⟨0x3000004000, by decide⟩ : Fin 0x10000000000).val (64 : Fin 257).val = false) ∧ (peBase ≤ (⟨0x3000004000, by decide⟩ : Fin 0x10000000000).val) ∧ (0 < (64 : Fin 257).val) ∧ ((64 : Fin 257).val ≤ 64 - (⟨0x3000004000, by decide⟩ : Fin 0x10000000000).val % 64) ∧ (s.pri.held = []) ∧ (s.pri.side = [])) (base) := by
  decide +kernel

theorem w_prismData_4 : (fun s : State => (s.awake = true) ∧ (peBase ≤ (⟨0x3003E00000, by decide⟩ : Fin 0x10000000000).val) ∧ (sideClosed (⟨0x3003E00000, by decide⟩ : Fin 0x10000000000).val (64 : Fin 257).val = true)) (base) := by
  decide +kernel

theorem w_prismData_5 : (fun s : State => (s.awake = true) ∧ (s.gno.due = []) ∧ (s.pri.asks = []) ∧ (s.pri.turns = 1) ∧ (s.pri.side = [{ write := false, plane := (1 : Nat), pieces := [({ offset := 0, len := 8, data := [], initiator := 16, tag := 0 } : Piece)] }]) ∧ (s.pri.held = []) ∧ (s.pri.performed = []) ∧ (s.ring.sideReqs = [({ ini := 16, cmd := .read, addr := 0x3000004000, len := 8 } : Pkt)]) ∧ (({ ini := 16, cmd := .read, addr := 0x3000004000, len := 8 } : Pkt).cmd = .read) ∧ (({ ini := 16, cmd := .read, addr := 0x3000004000, len := 8 } : Pkt).ini = ({ offset := 0, len := 8, data := [], initiator := 16, tag := 0 } : Piece).initiator) ∧ (({ ini := 16, cmd := .read, addr := 0x3000004000, len := 8 } : Pkt).sideTag = ({ offset := 0, len := 8, data := [], initiator := 16, tag := 0 } : Piece).tag) ∧ (({ ini := 16, cmd := .read, addr := 0x3000004000, len := 8 } : Pkt).len = ({ offset := 0, len := 8, data := [], initiator := 16, tag := 0 } : Piece).len) ∧ (s.hbm.xfers = []) ∧ (∀ t < 4, ({ offset := 0, len := 8, data := [], initiator := 16, tag := 0 } : Piece).initiator ≠ xferInitiator t)) (({ base with pri := { base.pri with turns := 1, side := [{ write := false, plane := 1, pieces := [{ offset := 0, len := 8, data := [], initiator := 16, tag := 0 }] }] } }.updRing fun r => { r with sideReqs := [{ ini := 16, cmd := .read, addr := 0x3000004000, len := 8 }] })) := by
  decide +kernel

theorem w_linkStates_1 : (fun s : State => (s.awake = true) ∧ ((0x61#32 : BitVec 32).getLsbD 0 = true) ∧ (bits (0x61#32 : BitVec 32).toNat 5 3 ≤ 4) ∧ (s.linkState (.data (11 : Fin 12)) = 0) ∧ ((s.wrReg 8 (0x400 + 0x40 * (11 : Fin 12).val) allBits (0x61#32 : BitVec 32).toNat).laneConflict ((s.wrReg 8 (0x400 + 0x40 * (11 : Fin 12).val) allBits (0x61#32 : BitVec 32).toNat).linkLanes (11 : Fin 12).val) = false) ∧ ((s.wrReg 8 (0x400 + 0x40 * (11 : Fin 12).val) allBits (0x61#32 : BitVec 32).toNat).windowOk (11 : Fin 12).val = true)) (base) := by
  decide +kernel

theorem w_linkStates_2 : (fun s : State => (s.awake = true) ∧ ((0x61#32 : BitVec 32).getLsbD 0 = true) ∧ ((s.wrReg 8 (0x400 + 0x40 * (11 : Fin 12).val) allBits (0x61#32 : BitVec 32).toNat).laneConflict ((s.wrReg 8 (0x400 + 0x40 * (11 : Fin 12).val) allBits (0x61#32 : BitVec 32).toNat).linkLanes (11 : Fin 12).val) = true)) ((base.put WOR_BLN_CFG.enable 1 44)) := by
  decide +kernel

theorem w_linkStates_3 : (fun s : State => (s.awake = true) ∧ ((0x60#32 : BitVec 32).getLsbD 0 = false) ∧ (s.linkState (.data (11 : Fin 12)) = 4)) ((base.put WOR_LINK_STATUS.state 4 11)) := by
  decide +kernel

theorem w_linkStates_4 : (fun s : State => (s.awake = true) ∧ (s.linkEnabled (.beacon 47 : LinkId) = true) ∧ (s.linkState (.beacon 47 : LinkId) = 0) ∧ (∀ n ∈ s.rearLanes (.beacon 47 : LinkId), (s.get FLN_REFCLK_STATUS.present).testBit (n / 6) = true)) (((base.put WOR_BLN_CFG.enable 1 47).put FLN_REFCLK_STATUS.present 0x80)) := by
  decide +kernel

theorem w_linkStates_5 : (fun s : State => (s.awake = true) ∧ (s.linkState (.beacon 47 : LinkId) = 1)) ((base.put WOR_BLN_STATUS.state 1 47)) := by
  decide +kernel

theorem w_linkStates_6 : (fun s : State => (s.awake = true) ∧ (s.linkState (.data (11 : Fin 12)) = 1)) ((base.put WOR_LINK_STATUS.state 1 11)) := by
  decide +kernel

theorem w_linkStates_7 : (fun s : State => (s.awake = true) ∧ (s.linkState (.data (11 : Fin 12)) = 4)) ((base.put WOR_LINK_STATUS.state 4 11)) := by
  decide +kernel

theorem w_linkStates_8 : (fun s : State => (s.awake = true) ∧ (s.linkState (.beacon (47 : Fin 48)) ≠ 0)) ((base.put WOR_BLN_STATUS.state 3 47)) := by
  decide +kernel

theorem w_linkStates_9 : (fun s : State => (s.awake = true) ∧ (s.linkState (.data (11 : Fin 12)) = 2) ∧ (s.identFits (.data (11 : Fin 12)) (0x24012366#64 : BitVec 64).toNat = true) ∧ ((0x24012366#64 : BitVec 64).getLsbD 26 = true) ∧ (identPeer (0x24012366#64 : BitVec 64).toNat = (s.wlink (.data (11 : Fin 12))).ident) ∧ ((s.wlink (.data (11 : Fin 12))).identRun = 7)) ((base.put WOR_LINK_STATUS.state 2 11).updLink (.data 11) fun x => { x with identRun := 7, ident := 0x240123 }) := by
  decide +kernel

theorem w_linkStates_10 : (fun s : State => (s.awake = true) ∧ (s.linkState (.data (11 : Fin 12)) = 2) ∧ (s.identFits (.data (11 : Fin 12)) (0x4012366#64 : BitVec 64).toNat = false)) ((base.put WOR_LINK_STATUS.state 2 11)) := by
  decide +kernel

theorem w_linkStates_11 : (fun s : State => (s.awake = true) ∧ (s.linkState (.data (11 : Fin 12)) = 4) ∧ (s.markerMatch (0x1C00010031E#64 : BitVec 64).toNat = some (40000 : Nat))) ((base.put WOR_LINK_STATUS.state 4 11).updGno fun g => { g with tags := [{ serial := 20, edge := 40000 }, { serial := 4, index := 3, orbit := 7, numbered := true }] }) := by
  decide +kernel

theorem w_linkStates_12 : (fun s : State => (s.awake = true) ∧ (s.linkState (.data (11 : Fin 12)) = 4) ∧ ((s.wlink (.data (11 : Fin 12))).misses = 3)) ((base.put WOR_LINK_STATUS.state 4 11).updLink (.data 11) fun x => { x with misses := 3 }) := by
  decide +kernel

theorem w_linkStates_13 : (fun s : State => (s.awake = true) ∧ (s.linkState (.data (11 : Fin 12)) ≠ 0) ∧ (s.bit WOR_LINK_CFG.fec (11 : Fin 12).val = true)) ((base.put WOR_LINK_STATUS.state 3 11).put WOR_LINK_CFG.fec 1 11) := by
  decide +kernel

theorem w_linkStates_14 : (fun s : State => (s.awake = true) ∧ (s.linkState (.data (11 : Fin 12)) ≠ 0)) ((base.put WOR_LINK_STATUS.state 3 11)) := by
  decide +kernel

theorem w_worgaFrames_1 : (fun s : State => (s.awake = true) ∧ (3 ≤ s.linkState (.beacon (47 : Fin 48)))) ((base.put WOR_BLN_STATUS.state 3 47)) := by
  decide +kernel

theorem w_worgaFrames_2 : (fun s : State => (s.awake = true) ∧ (s.linkState (.beacon (47 : Fin 48)) = 2)) ((base.put WOR_BLN_STATUS.state 2 47)) := by
  decide +kernel

theorem w_worgaFrames_3 : (fun s : State => (s.awake = true) ∧ (s.linkState (.data (11 : Fin 12)) = 4) ∧ (s.get WOR_LINK_CFG.side (11 : Fin 12).val < 4) ∧ (s.haloDelay = 0) ∧ ((s.wlink (.data (11 : Fin 12))).marker.bind s.indexAhead = some 0) ∧ (haloPlanes (s.get WOR_LINK_CFG.side (11 : Fin 12).val) 8 (([0x123#64, 1#64, 0#64, 0#64, 2#64, 0#64, 0#64, 0#64, 0#64] : List (BitVec 64)).map BitVec.toNat) = [((0x123, 1 + 2 * 2 ^ 192) : Nat × Nat)]) ∧ (s.whaloEntry ((0x123, 1 + 2 * 2 ^ 192) : Nat × Nat).1 = some (7 : Nat))) (((dlHalo.updLink (.data 11) fun x => { x with marker := some 3 }).updGno fun g => { g with tags := [{ serial := 20, edge := 40000 }, { serial := 4, index := 3, orbit := 7, numbered := true }], segs := [{ start := 0, zero := 1, length := 16, orbit := 7 }] })) := by
  decide +kernel

theorem w_worgaFrames_4 : (fun s : State => (s.awake = true) ∧ ((((frameWords (sofWord 1 1 1 0 5 0) [0x10000, 7]).map fun w => ((0 : Fin 4), w.1, BitVec.ofNat 64 w.2)) : List (Fin 4 × Bool × BitVec 64)).map (fun w => (w.1.val, w.2.1, w.2.2.toNat)) = (frameWords (sofWord 1 1 1 0 5 0 : Nat) ((0x10000 : Nat) :: ([7] : List Nat))).zipIdx.map (fun e => (((s.wlink (.data (11 : Fin 12))).rxTurn + e.2) % s.linkWidth (11 : Fin 12).val, e.1))) ∧ ((s.wlink (.data (11 : Fin 12))).rxTurn < s.linkWidth (11 : Fin 12).val) ∧ ((s.wlink (.data (11 : Fin 12))).waits = []) ∧ ((sofWord 1 1 1 0 5 0 : Nat) % 256 = 0x2D) ∧ (bits (sofWord 1 1 1 0 5 0 : Nat) 8 2 = 1) ∧ (([7] : List Nat).length < 2047) ∧ (3 ≤ s.linkState (.data (11 : Fin 12))) ∧ ((s.wlink (.data (11 : Fin 12))).rx = none) ∧ (s.ownAddress = some (bits (sofWord 1 1 1 0 5 0 : Nat) 12 18)) ∧ (s.get WOR_RX_WIN_LO.base * 65536 + s.get WOR_RX_WIN_HI.base * 2 ^ 32 ≤ (0x10000 : Nat) % 2 ^ 40) ∧ ((0x10000 : Nat) % 2 ^ 40 + 8 * ([7] : List Nat).length ≤ s.get WOR_RX_WIN_LO.base * 65536 + s.get WOR_RX_WIN_HI.base * 2 ^ 32 + s.get WOR_RX_WIN_HI.size * 65536) ∧ (s.rxFill (11 : Fin 12).val + 8 * ([7] : List Nat).length ≤ 65536)) ((base.put WOR_LINK_STATUS.state 4 11).put WOR_RX_WIN_HI.size 16) := by
  decide +kernel

theorem w_worgaFrames_5 : (fun s : State => (s.awake = true) ∧ (∃ t < 32, s.wor.frames.all (fun f => f.tag ≠ t) = true) ∧ (s.firstHop (s.get WOR_TX_DST_HI.device) = some (11 : Fin 12)) ∧ (s.linkState (.data (11 : Fin 12)) = 4) ∧ (s.bit WOR_LINK_STATUS.bulk_ok (11 : Fin 12).val = true)) ((((dlHalo.put WOR_LINK_CFG.side 1 11).put WOR_LINK_STATUS.bulk_ok 1 11).put WOR_TX_DST_HI.device 5)) := by
  decide +kernel

theorem w_worgaFrames_6 : (fun s : State => (s.awake = true) ∧ (s.wor.frames.find? (fun x => x.tag = (31 : Fin 256).val) = some ({ tag := 31, src := 0, dst := 0, device := 5, words := 1 } : TxFrame)) ∧ (({ tag := 31, src := 0, dst := 0, device := 5, words := 1 } : TxFrame).started = false)) ((base.updWor fun w => { w with frames := [{ tag := 31, src := 0, dst := 0, device := 5, words := 1 }] })) := by
  decide +kernel

theorem w_worgaFrames_7 : (fun s : State => (s.awake = true) ∧ (s.wor.frames.find? (fun x => x.tag = (31 : Fin 256).val) = some ({ tag := 31, src := 0, dst := 0, device := 5, words := 1, started := true } : TxFrame)) ∧ (({ tag := 31, src := 0, dst := 0, device := 5, words := 1, started := true } : TxFrame).started = true)) ((base.updWor fun w => { w with frames := [{ tag := 31, src := 0, dst := 0, device := 5, words := 1, started := true }] })) := by
  decide +kernel

theorem w_systemEpochAndTree_1 : (fun s : State => (s.awake = true) ∧ (s.bit WOR_EPOCH_WHEN_HI.named = false)) (base) := by
  decide +kernel

theorem w_systemEpochAndTree_2 : (fun s : State => (s.awake = true) ∧ (s.epochArmed = true)) ((base.updGno fun g => { g with unnamed := [{ owner := .epoch, left := 2 }] })) := by
  decide +kernel

theorem w_systemEpochAndTree_3 : (fun s : State => (s.awake = true) ∧ (s.isDue .epoch = true)) ((base.put WOR_EPOCH.pending 7).updGno fun g => { g with due := [.epoch] }) := by
  decide +kernel

theorem w_systemEpochAndTree_4 : (fun s : State => (s.awake = true) ∧ ((s.wrReg 8 (0x24 + 4 * (1 : Fin 3).val) allBits (0xFE#32 : BitVec 32).toNat).treeOk = true)) (base) := by
  decide +kernel

theorem w_systemEpochAndTree_5 : (fun s : State => (s.awake = true) ∧ ((s.wrReg 8 (0x24 + 4 * (1 : Fin 3).val) allBits (0x1FF#32 : BitVec 32).toNat).treeOk = false)) (base) := by
  decide +kernel

theorem w_systemEpochAndTree_6 : (fun s : State => (s.awake = true) ∧ (s.seq.toWorga = ({ or := true, full := true, count := 3, first := some 77, contrib := 1, serial := some 4, addr := 9 } : BcnResult) :: ([] : List BcnResult)) ∧ (({ or := true, full := true, count := 3, first := some 77, contrib := 1, serial := some 4, addr := 9 } : BcnResult).serial = some (4 : Nat)) ∧ (s.bit WOR_BCN_CTRL.enable = true) ∧ (s.gno.tags.find? (fun q => q.serial == (4 : Nat) && q.numbered) = some ({ serial := 4, index := 3, orbit := 23, numbered := true } : Tag)) ∧ (s.wor.keys = []) ∧ (s.wor.closed = [])) ((((base.put WOR_BCN_CTRL.enable 1).updGno fun g => { g with tags := [{ serial := 4, index := 3, orbit := 23, numbered := true }] }).updSeq fun q => { q with toWorga := [{ or := true, full := true, count := 3, first := some 77, contrib := 1, serial := some 4, addr := 9 }] })) := by
  decide +kernel

theorem w_systemEpochAndTree_7 : (fun s : State => (s.awake = true) ∧ (s.linkState (.beacon (47 : Fin 48)) = 4) ∧ (s.isParent (47 : Fin 48) = false) ∧ (s.childLanes.contains (47 : Fin 48) = true) ∧ (s.bit WOR_BCN_CTRL.enable = true) ∧ (cellOf (BitVec.ofNat 64 (upCell.words 0).head! : BitVec 64).toNat (BitVec.ofNat 64 ((upCell.words 0).getD 1 0) : BitVec 64).toNat (BitVec.ofNat 64 ((upCell.words 0).getD 2 0) : BitVec 64).toNat = some (0, (upCell : Cell))) ∧ (s.wor.keys = []) ∧ (s.wor.closed = [])) (((base.put WOR_BCN_CTRL.enable 1).put WOR_BLN_STATUS.state 4 47).put WOR_BCN_CHILD_HI.lanes 0x8000) := by
  decide +kernel

theorem w_systemEpochAndTree_8 : (fun s : State => (s.awake = true) ∧ (s.linkState (.beacon (47 : Fin 48)) = 4) ∧ (s.isParent (47 : Fin 48) = false) ∧ ((0x4B#64 : BitVec 64).toNat % 256 = 0x4B) ∧ (cellOf (0x4B#64 : BitVec 64).toNat (0#64 : BitVec 64).toNat (0#64 : BitVec 64).toNat = none)) ((base.put WOR_BLN_STATUS.state 4 47).put WOR_BCN_CTRL.root 1) := by
  decide +kernel

theorem w_systemEpochAndTree_9 : (fun s : State => (s.awake = true) ∧ (s.wor.keys = [({ key := { index := 3, orbit := 7, uaddr := 9 }, openedAt := 1, children := [(47, upCell)] } : OpenKey)]) ∧ ((0 : Nat) = 0) ∧ (({ key := { index := 3, orbit := 7, uaddr := 9 }, openedAt := 1, children := [(47, upCell)] } : OpenKey).openedAt + s.get WOR_BCN_WAIT.ns * 1000000 ≤ (10 ^ 15 : Nat)) ∧ (s.bit WOR_BCN_CTRL.root = true)) (((base.put WOR_BCN_CTRL.root 1).updWor fun w => { w with keys := [{ key := { index := 3, orbit := 7, uaddr := 9 }, openedAt := 1, children := [(47, upCell)] }] })) := by
  decide +kernel

theorem w_systemEpochAndTree_10 : (fun s : State => (s.awake = true) ∧ (s.linkState (.beacon (47 : Fin 48)) = 4) ∧ (s.isParent (47 : Fin 48) = true) ∧ (s.childLanes.contains (47 : Fin 48) = false) ∧ (cellOf (BitVec.ofNat 64 (upCell.words 1).head! : BitVec 64).toNat (BitVec.ofNat 64 ((upCell.words 1).getD 1 0) : BitVec 64).toNat (BitVec.ofNat 64 ((upCell.words 1).getD 2 0) : BitVec 64).toNat = some (1, (upCell : Cell)))) ((base.put WOR_BLN_STATUS.state 4 47).put WOR_BCN_CTRL.parent 47) := by
  decide +kernel

theorem w_systemEpochAndTree_11 : (fun s : State => (s.awake = true)) ((base.updWor fun w => { w with sys := upCell })) := by
  decide +kernel

theorem w_hbmStacks_1 : (fun s : State => (s.awake = true) ∧ (s.stack (1 : Fin 2).val = 1)) ((base.put HBM_STATUS.stack1 1)) := by
  decide +kernel

theorem w_hbmStacks_2 : (fun s : State => (s.awake = true) ∧ (s.stack (1 : Fin 2).val = 1)) ((base.put HBM_STATUS.stack1 1)) := by
  decide +kernel

theorem w_hbmStacks_3 : (fun s : State => (s.awake = true) ∧ (s.stack (1 : Fin 2).val = 2)) ((base.put HBM_STATUS.stack1 2)) := by
  decide +kernel

theorem w_hbmStacks_4 : (fun s : State => (s.awake = true) ∧ (s.stack 1 = 4) ∧ (s.stack 0 ≠ 4)) ((base.put HBM_STATUS.stack1 4)) := by
  decide +kernel

theorem w_hbmStacks_5 : (fun s : State => (s.awake = true) ∧ (0x80100000 ≤ (⟨0x80100000, by decide⟩ : Fin 0x400000000).val) ∧ (s.stack ((⟨0x80100000, by decide⟩ : Fin 0x400000000).val / 256 % 2) = 2) ∧ (Sparse.get false s.poison ((⟨0x80100000, by decide⟩ : Fin 0x400000000).val / 8 * 8) = false)) ((base.put HBM_STATUS.stack0 2)) := by
  decide +kernel

theorem w_hbmStacks_6 : (fun s : State => (s.awake = true) ∧ (0x80100000 ≤ (⟨0x80100000, by decide⟩ : Fin 0x400000000).val) ∧ (s.stack ((⟨0x80100000, by decide⟩ : Fin 0x400000000).val / 256 % 2) = 2)) ((base.put HBM_STATUS.stack0 2)) := by
  decide +kernel

theorem w_hbmPipeline_1 : (fun s : State => (s.awake = true) ∧ (s.pri.handoffs = ({ crossing := { serial := 70000, index := 3, holdover := false, planes := 2, gap := false }, pipe := 5, storing := true, half0 := 0x80, half1 := 0, service := 0xFFFF } : Handoff) :: ([] : List Handoff)) ∧ (s.stack 0 = 2) ∧ (s.stack 1 = 2) ∧ (({ crossing := { serial := 70000, index := 3, holdover := false, planes := 2, gap := false }, pipe := 5, storing := true, half0 := 0x80, half1 := 0, service := 0xFFFF } : Handoff).storing = true)) ({ (base.put HBM_STATUS.stack0 2).put HBM_STATUS.stack1 2 with pri := { base.pri with handoffs := [{ crossing := { serial := 70000, index := 3, holdover := false, planes := 2, gap := false }, pipe := 5, storing := true, half0 := 0x80, half1 := 0, service := 0xFFFF }] } }) := by
  decide +kernel

theorem w_hbmPipeline_2 : (fun s : State => (s.awake = true) ∧ (s.pri.handoffs = ({ crossing := { serial := 70000, index := 3, holdover := false, planes := 2, gap := false }, pipe := 5, storing := true, half0 := 0x80, half1 := 0, service := 0xFFFF } : Handoff) :: ([] : List Handoff)) ∧ (s.stack 0 ≠ 2)) ({ base with pri := { base.pri with handoffs := [{ crossing := { serial := 70000, index := 3, holdover := false, planes := 2, gap := false }, pipe := 5, storing := true, half0 := 0x80, half1 := 0, service := 0xFFFF }] } }) := by
  decide +kernel

theorem w_hbmPipeline_3 : (fun s : State => (s.awake = true) ∧ (s.pipeRateOk (5#32 : BitVec 32).toNat = true)) (base) := by
  decide +kernel

theorem w_hbmPipeline_4 : (fun s : State => (s.awake = true) ∧ ((3#32 : BitVec 32).getLsbD 0 = true) ∧ (s.pipeRateOk (3#32 : BitVec 32).toNat = false)) ((base.put GNO_PERIOD_MIN.period_fs 1000000)) := by
  decide +kernel

theorem w_hbmPipeline_5 : (fun s : State => (s.awake = true) ∧ (s.get HBM_XFER_CTRL.mode (3 : Fin 4).val = 1) ∧ (s.bit HBM_XFER_STATUS.busy (3 : Fin 4).val = false) ∧ (s.xferOk (3 : Fin 4).val = true)) ((base.put HBM_XFER_CTRL.mode 1 3)) := by
  decide +kernel

theorem w_hbmPipeline_6 : (fun s : State => (s.awake = true) ∧ (s.get HBM_XFER_CTRL.mode (3 : Fin 4).val = 1) ∧ (s.bit HBM_XFER_STATUS.busy (3 : Fin 4).val = true)) (((base.put HBM_XFER_CTRL.mode 1 3).put HBM_XFER_STATUS.busy 1 3)) := by
  decide +kernel

theorem w_hbmPipeline_7 : (fun s : State => (s.awake = true) ∧ (s.bit HBM_XFER_STATUS.busy (3 : Fin 4).val = true)) ((base.put HBM_XFER_STATUS.busy 1 3)) := by
  decide +kernel

theorem w_readoutEvents_1 : (fun s : State => (s.awake = true) ∧ (s.seq.toReadout = ({ or := true, full := true, count := 3, first := some 77, contrib := 1, serial := some 4, addr := 9 } : BcnResult) :: ([] : List BcnResult)) ∧ (({ or := true, full := true, count := 3, first := some 77, contrib := 1, serial := some 4, addr := 9 } : BcnResult).serial = some (4 : Nat)) ∧ ((s.keptOf (4 : Nat)).beacons.length < 4) ∧ (serialAge (4 : Nat) s.lastSerial < 4096)) (((base.updSeq fun q => { q with toReadout := [{ or := true, full := true, count := 3, first := some 77, contrib := 1, serial := some 4, addr := 9 }] }).updGno fun g => { g with nextSerial := 10 })) := by
  decide +kernel

theorem w_readoutEvents_2 : (fun s : State => (s.awake = true) ∧ (s.rdo.events = ({ number := 5, serial := 30, orbit := 7, index := 3, holdover := false, sources := 1, cfg := { mtu := 1500 }, takenAt := 0, charge := 0, enterAt := some 0 } : Event) :: ([] : List Event)) ∧ (s.rdo.events.any (fun x => x.phase = .gathering) = false) ∧ (({ number := 5, serial := 30, orbit := 7, index := 3, holdover := false, sources := 1, cfg := { mtu := 1500 }, takenAt := 0, charge := 0, enterAt := some 0 } : Event).skip = 0) ∧ (({ number := 5, serial := 30, orbit := 7, index := 3, holdover := false, sources := 1, cfg := { mtu := 1500 }, takenAt := 0, charge := 0, enterAt := some 0 } : Event).phase = .queued) ∧ ((s.at (10 ^ 15 : Nat)).isReady ({ number := 5, serial := 30, orbit := 7, index := 3, holdover := false, sources := 1, cfg := { mtu := 1500 }, takenAt := 0, charge := 0, enterAt := some 0 } : Event) = true)) (((base.updRdo fun r => { r with events := [{ number := 5, serial := 30, orbit := 7, index := 3, holdover := false, sources := 1, cfg := { mtu := 1500 }, takenAt := 0, charge := 0, enterAt := some 0 }] }).updGno fun g => { g with nextSerial := 60, tags := [{ serial := 46 }] })) := by
  decide +kernel

theorem w_readoutEvents_3 : (fun s : State => (s.awake = true) ∧ (s.rdo.events = ({ number := 5, serial := 30, orbit := 7, index := 3, holdover := false, sources := 1, cfg := { mtu := 1500 }, takenAt := 0, charge := 0, phase := .gathering } : Event) :: ([] : List Event)) ∧ (({ number := 5, serial := 30, orbit := 7, index := 3, holdover := false, sources := 1, cfg := { mtu := 1500 }, takenAt := 0, charge := 0, phase := .gathering } : Event).phase = .gathering)) ((base.updRdo fun r => { r with events := [{ number := 5, serial := 30, orbit := 7, index := 3, holdover := false, sources := 1, cfg := { mtu := 1500 }, takenAt := 0, charge := 0, phase := .gathering }] })) := by
  decide +kernel

theorem w_readoutEvents_4 : (fun s : State => (s.awake = true) ∧ (s.rdo.events = ({ number := 5, serial := 30, orbit := 7, index := 3, holdover := false, sources := 1, cfg := { mtu := 1500 }, takenAt := 0, charge := 0, phase := .gathered } : Event) :: ([] : List Event)) ∧ (({ number := 5, serial := 30, orbit := 7, index := 3, holdover := false, sources := 1, cfg := { mtu := 1500 }, takenAt := 0, charge := 0, phase := .gathered } : Event).phase = .gathered)) ((base.updRdo fun r => { r with events := [{ number := 5, serial := 30, orbit := 7, index := 3, holdover := false, sources := 1, cfg := { mtu := 1500 }, takenAt := 0, charge := 0, phase := .gathered }] })) := by
  decide +kernel

theorem w_readoutEvents_5 : (fun s : State => (s.awake = true) ∧ (s.rdo.events = ({ number := 5, serial := 30, orbit := 7, index := 3, holdover := false, sources := 1, cfg := { mtu := 1500 }, takenAt := 0, charge := 0, phase := .assembled, body := [1#8, 2#8] } : Event) :: ([] : List Event)) ∧ (({ number := 5, serial := 30, orbit := 7, index := 3, holdover := false, sources := 1, cfg := { mtu := 1500 }, takenAt := 0, charge := 0, phase := .assembled, body := [1#8, 2#8] } : Event).skip = 0) ∧ (({ number := 5, serial := 30, orbit := 7, index := 3, holdover := false, sources := 1, cfg := { mtu := 1500 }, takenAt := 0, charge := 0, phase := .assembled, body := [1#8, 2#8] } : Event).phase = .assembled) ∧ (({ number := 5, serial := 30, orbit := 7, index := 3, holdover := false, sources := 1, cfg := { mtu := 1500 }, takenAt := 0, charge := 0, phase := .assembled, body := [1#8, 2#8] } : Event).sent = 0) ∧ (({ number := 5, serial := 30, orbit := 7, index := 3, holdover := false, sources := 1, cfg := { mtu := 1500 }, takenAt := 0, charge := 0, phase := .assembled, body := [1#8, 2#8] } : Event).frames ≤ 1) ∧ (pickPort s.rdo.frame s.readyPorts s.readyPorts = some (15 : Nat))) (((base.put RDO_PORT_STATUS.state 3 15).updRdo fun r => { r with events := [{ number := 5, serial := 30, orbit := 7, index := 3, holdover := false, sources := 1, cfg := { mtu := 1500 }, takenAt := 0, charge := 0, phase := .assembled, body := [1#8, 2#8] }] })) := by
  decide +kernel

theorem w_readoutEvents_6 : (fun s : State => (s.awake = true) ∧ (s.rdoCheck s.rdoPending = 0)) (((base.put RDO_PORT_CFG.enable 1 15).put HBM_SHARE.share 15000)) := by
  decide +kernel

theorem w_readoutEvents_7 : (fun s : State => (s.awake = true) ∧ (s.rdoCheck s.rdoPending ≠ 0)) ((base.put RDO_WINDOW.pre 15)) := by
  decide +kernel

theorem w_readoutPorts_1 : (fun s : State => (s.awake = true) ∧ ((0x5F#32 : BitVec 32).getLsbD 0 = true) ∧ (s.get RDO_PORT_STATUS.state (15 : Fin 16).val = 0) ∧ ((s.wrReg 10 (0x400 + 0x40 * (15 : Fin 16).val) allBits (0x5F#32 : BitVec 32).toNat).laneConflict [bits (0x5F#32 : BitVec 32).toNat 1 6] = false)) (base) := by
  decide +kernel

theorem w_readoutPorts_2 : (fun s : State => (s.awake = true) ∧ ((0x5E#32 : BitVec 32).getLsbD 0 = false) ∧ (2 ≤ s.get RDO_PORT_STATUS.state (15 : Fin 16).val) ∧ (s.get RDO_PORT_STATUS.state (15 : Fin 16).val < 4)) ((base.put RDO_PORT_STATUS.state 3 15)) := by
  decide +kernel

theorem w_readoutPorts_3 : (fun s : State => (s.awake = true) ∧ (s.get RDO_PORT_STATUS.state (15 : Fin 16).val = 1)) ((base.put RDO_PORT_STATUS.state 1 15)) := by
  decide +kernel

theorem w_readoutPorts_4 : (fun s : State => (s.awake = true) ∧ (2 ≤ s.get RDO_PORT_STATUS.state (15 : Fin 16).val)) ((base.put RDO_PORT_STATUS.state 3 15)) := by
  decide +kernel

theorem w_readoutPorts_5 : (fun s : State => (s.awake = true) ∧ (2 ≤ s.get RDO_PORT_STATUS.state (15 : Fin 16).val) ∧ (s.bit RDO_PORT_DST_MAC_HI.static (15 : Fin 16).val = false)) ((base.put RDO_PORT_STATUS.state 3 15)) := by
  decide +kernel

theorem w_readoutPorts_6 : (fun s : State => (s.awake = true) ∧ (s.get RDO_PORT_STATUS.state (15 : Fin 16).val = 3) ∧ (s.bit RDO_PORT_DST_MAC_HI.static (15 : Fin 16).val = false)) ((base.put RDO_PORT_STATUS.state 3 15)) := by
  decide +kernel

theorem w_readoutPorts_7 : (fun s : State => (s.awake = true) ∧ (2 ≤ s.get RDO_PORT_STATUS.state (15 : Fin 16).val) ∧ ((7#32 : BitVec 32).toNat = s.get RDO_PORT_IP.ip (15 : Fin 16).val) ∧ ((9#32 : BitVec 32).toNat = s.get RDO_PORT_DST_IP.ip (15 : Fin 16).val) ∧ (s.bit RDO_PORT_DST_MAC_HI.static (15 : Fin 16).val = false)) (((base.put RDO_PORT_DST_IP.ip 9 15).put RDO_PORT_STATUS.state 2 15).put RDO_PORT_IP.ip 7 15) := by
  decide +kernel

theorem w_readoutPorts_8 : (fun s : State => (s.awake = true) ∧ (2 ≤ s.get RDO_PORT_STATUS.state (15 : Fin 16).val) ∧ ((7#32 : BitVec 32).toNat = s.get RDO_PORT_IP.ip (15 : Fin 16).val) ∧ ((7#32 : BitVec 32).toNat ≠ 0)) ((base.put RDO_PORT_STATUS.state 2 15).put RDO_PORT_IP.ip 7 15) := by
  decide +kernel

theorem w_readoutPorts_9 : (fun s : State => (s.awake = true) ∧ (2 ≤ s.get RDO_PORT_STATUS.state (15 : Fin 16).val) ∧ ((0#32 : BitVec 32).toNat = s.get RDO_PORT_IP.ip (15 : Fin 16).val) ∧ (24 + ([1#8, 2#8] : List (BitVec 8)).length ≤ s.rdo.work.mtu) ∧ (s.now ≤ (10 ^ 15 : Nat)) ∧ ((s.port (15 : Fin 16).val).second + 10 ^ 15 ≤ (10 ^ 15 : Nat))) ((base.put RDO_PORT_STATUS.state 2 15)) := by
  decide +kernel

theorem w_readoutPorts_10 : (fun s : State => (s.awake = true) ∧ (2 ≤ s.get RDO_PORT_STATUS.state (15 : Fin 16).val)) ((base.put RDO_PORT_STATUS.state 2 15)) := by
  decide +kernel

theorem w_canNode_1 : (fun s : State => (stands s = true) ∧ (s.canOn = true) ∧ (s.nmtState = 127 ∨ s.nmtState = 4)) ((base.put DIC_STATUS.nmt_hb 4)) := by
  decide +kernel

theorem w_canNode_2 : (fun s : State => (stands s = true) ∧ (s.canOn = false)) ((base.put DIC_CTRL.can_en 0)) := by
  decide +kernel

theorem w_canNode_3 : (fun s : State => (stands s = true) ∧ (s.canOn = true) ∧ (s.nmtState = 127 ∨ s.nmtState = 5)) ((base.put DIC_STATUS.nmt_hb 5).setUsdo (some { index := 0x1008, sub := 0, write := false, total := 16 })) := by
  decide +kernel

theorem w_canNode_4 : (fun s : State => (stands s = true) ∧ (s.canOn = true) ∧ (s.nmtState = 5 ∨ s.nmtState = 4)) ((base.put DIC_STATUS.nmt_hb 5)) := by
  decide +kernel

theorem w_canNode_5 : (fun s : State => (stands s = true) ∧ (s.canOn = true) ∧ (s.bit DIC_CTRL.nmt_reset_en = false)) ((base.put DIC_STATUS.nmt_hb 5)) := by
  decide +kernel

theorem w_canNode_6 : (fun s : State => (stands s = true) ∧ (s.canOn = true)) ((base.put DIC_STATUS.nmt_hb 5)) := by
  decide +kernel

theorem w_canNode_7 : (fun s : State => (s.awake = true)) ((base.put DIC_CTRL.can_en 0)) := by
  decide +kernel

theorem w_canNode_8 : (fun s : State => (stands s = true) ∧ (s.canOn = true) ∧ (s.nmtState = 0) ∧ (s.bit BOT_STATUS.dawn_done = true)) ((base.put BOT_STATUS.dawn_done 1)) := by
  decide +kernel

theorem w_canNode_9 : (fun s : State => (stands s = true) ∧ (s.canOn = true) ∧ (s.nmtState = 0) ∧ (s.bit BOT_STATUS.dawn_done = true) ∧ (s.dic.defaults = [])) ((base.put BOT_STATUS.dawn_done 1)) := by
  decide +kernel

theorem w_canNode_10 : (fun s : State => (stands s = true) ∧ (s.bit DIC_CTRL.can_en = true) ∧ (s.dic.heartbeat ≠ 0) ∧ (s.nmtState ≠ 0)) ((base.put DIC_STATUS.nmt_hb 5)) := by
  decide +kernel

theorem w_canNode_11 : (fun s : State => (stands s = true)) (base) := by
  decide +kernel

theorem w_canNode_12 : (fun s : State => (stands s = true)) (base) := by
  decide +kernel

theorem w_canNode_13 : (fun s : State => (stands s = true) ∧ (s.get DIC_CAN_STATE.bus = 2)) ((base.put DIC_CAN_STATE.bus 2)) := by
  decide +kernel

theorem w_usdoAndPdo_1 : (fun s : State => (stands s = true) ∧ (s.usdoOn = true) ∧ (s.dic.reqs = []) ∧ (s.dic.handed = none) ∧ (s.dic.usdo = none) ∧ (codeOf (s.readCheck .usdo (⟨0x1018, by decide⟩ : Fin 65536).val (9 : Fin 256).val none) = (0x06090011 : Nat)) ∧ ((0x06090011 : Nat) ≠ 0) ∧ (isDomain (⟨0x1018, by decide⟩ : Fin 65536).val (9 : Fin 256).val = false)) ((base.put DIC_STATUS.nmt_hb 127)) := by
  decide +kernel

theorem w_usdoAndPdo_2 : (fun s : State => (stands s = true) ∧ (s.usdoOn = true) ∧ (s.dic.reqs = []) ∧ (s.dic.handed = none) ∧ (s.dic.usdo = none) ∧ ((s.get DIC_RIGHTS.can).testBit 0 = true) ∧ (2 ≤ (4 : Nat))) ((base.put DIC_STATUS.nmt_hb 127)) := by
  decide +kernel

theorem w_usdoAndPdo_3 : (fun s : State => (stands s = true) ∧ (s.usdoOn = true) ∧ (s.dic.reqs = []) ∧ (s.dic.handed = none) ∧ (s.dic.usdo = none) ∧ ((s.get DIC_RIGHTS.can).testBit 2 = true) ∧ (([0xF4, 1] : List (BitVec 8)).length = 2)) ((base.put DIC_STATUS.nmt_hb 127)) := by
  decide +kernel

theorem w_usdoAndPdo_4 : (fun s : State => (stands s = true) ∧ (s.usdoOn = true) ∧ (s.dic.reqs = []) ∧ (s.dic.handed = none) ∧ (s.dic.usdo.isSome = true)) ((base.put DIC_STATUS.nmt_hb 5).setUsdo (some { index := 0x1008, sub := 0, write := false, total := 16, data := leBytes 16 77 })) := by
  decide +kernel

theorem w_usdoAndPdo_5 : (fun s : State => (stands s = true) ∧ (s.usdoOn = true) ∧ (s.dic.reqs = []) ∧ (s.dic.handed = none) ∧ (s.dic.usdo = some ({ index := 0x1008, sub := 0, write := false, total := 16, data := leBytes 16 77 } : UsdoXfer)) ∧ (({ index := 0x1008, sub := 0, write := false, total := 16, data := leBytes 16 77 } : UsdoXfer).write = false) ∧ (({ index := 0x1008, sub := 0, write := false, total := 16, data := leBytes 16 77 } : UsdoXfer).domain = false)) ((base.put DIC_STATUS.nmt_hb 5).setUsdo (some { index := 0x1008, sub := 0, write := false, total := 16, data := leBytes 16 77 })) := by
  decide +kernel

theorem w_usdoAndPdo_6 : (fun s : State => (stands s = true) ∧ (s.usdoOn = true) ∧ (s.dic.reqs = []) ∧ (s.dic.handed = none) ∧ (s.dic.usdo = some ({ index := 0x1008, sub := 0, write := false, total := 16, data := leBytes 16 77 } : UsdoXfer)) ∧ (({ index := 0x1008, sub := 0, write := false, total := 16, data := leBytes 16 77 } : UsdoXfer).write = false)) ((base.put DIC_STATUS.nmt_hb 5).setUsdo (some { index := 0x1008, sub := 0, write := false, total := 16, data := leBytes 16 77 })) := by
  decide +kernel

theorem w_usdoAndPdo_7 : (fun s : State => (stands s = true) ∧ (s.usdoOn = true) ∧ (s.dic.handed = none) ∧ (s.dic.usdo.isSome = true)) ((base.put DIC_STATUS.nmt_hb 5).setUsdo (some { index := 0x1008, sub := 0, write := false, total := 16, data := leBytes 16 77 })) := by
  decide +kernel

theorem w_usdoAndPdo_8 : (fun s : State => (stands s = true) ∧ (s.dic.handed = none) ∧ (s.dic.usdo.isSome = true)) ((base.put DIC_STATUS.nmt_hb 5).setUsdo (some { index := 0x1008, sub := 0, write := false, total := 16, data := leBytes 16 77 })) := by
  decide +kernel

theorem w_usdoAndPdo_9 : (fun s : State => (stands s = true) ∧ (s.usdoOn = true) ∧ (s.dic.reqs = []) ∧ (s.dic.handed = none) ∧ (s.nmtState = 5) ∧ ((s.rpdo (3 : Fin 4).val).cob.testBit 31 = false) ∧ ((s.rpdo (3 : Fin 4).val).entries = [(0x2603, 1, 4)]) ∧ (4 ≤ ([0x83, 2, 0, 0] : List (BitVec 8)).length) ∧ ((s.get DIC_RIGHTS.can).testBit 1 = true)) ((base.put DIC_STATUS.nmt_hb 5).updRpdo 3 fun _ => { cob := 0x1FF, kind := 0xFE, map := [0x26030120], count := 1, timer := 10 }) := by
  decide +kernel

theorem w_usdoAndPdo_10 : (fun s : State => (stands s = true) ∧ (s.usdoOn = true) ∧ (s.dic.reqs = []) ∧ (s.dic.handed = none) ∧ (([0x83] : List (BitVec 8)).length < ((s.rpdo (3 : Fin 4).val).entries.map fun e => e.2.2).sum)) ((base.put DIC_STATUS.nmt_hb 5).updRpdo 3 fun _ => { cob := 0x1FF, kind := 0xFE, map := [0x26030120], count := 1, timer := 10 }) := by
  decide +kernel

theorem w_usdoAndPdo_11 : (fun s : State => (stands s = true) ∧ (s.canOn = true) ∧ (s.nmtState = 5) ∧ ((s.tpdo (3 : Fin 4).val).cob.testBit 31 = false) ∧ ((s.tpdo (3 : Fin 4).val).timer ≠ 0) ∧ ((s.tpdo (3 : Fin 4).val).entries = [(0x1017, 0, 2)]) ∧ ((s.tpdo (3 : Fin 4).val).sentAt = 0 ∨ (s.tpdo (3 : Fin 4).val).sentAt - 1 + (s.tpdo (3 : Fin 4).val).inhibit * 10 ^ 11 ≤ s.now)) ((base.put DIC_STATUS.nmt_hb 5).updTpdo 3 fun _ => { cob := 0x1FF, kind := 0xFE, map := [0x10170010], count := 1, timer := 10 }) := by
  decide +kernel

theorem w_usdoAndPdo_12 : (fun s : State => (stands s = true) ∧ (s.nmtState ≠ 5)) (base) := by
  decide +kernel

theorem w_lanternItems_1 : (fun s : State => (s.awake = true) ∧ ((some (0#32, 0x4C4E#16) : Option (BitVec 32 × BitVec 16)).map (fun p => (p.1.toNat, p.2.toNat)) = some (s.get DIC_MGT_IP.ip, s.get DIC_LAN_PORT.port)) ∧ (s.bit DIC_CTRL.lan_en = false)) ((base.put DIC_CTRL.lan_en 0)) := by
  decide +kernel

theorem w_lanternItems_2 : (fun s : State => (s.awake = true) ∧ ((none : Option (BitVec 32 × BitVec 16)).map (fun p => (p.1.toNat, p.2.toNat)) ≠ some (s.get DIC_MGT_IP.ip, s.get DIC_LAN_PORT.port))) (base) := by
  decide +kernel

theorem w_lanternItems_3 : (fun s : State => (s.awake = true) ∧ ((some (0#32, 0x4C4E#16) : Option (BitVec 32 × BitVec 16)).map (fun p => (p.1.toNat, p.2.toNat)) = some (s.get DIC_MGT_IP.ip, s.get DIC_LAN_PORT.port)) ∧ (s.bit DIC_CTRL.lan_en = true) ∧ ((leBytes 16 0x4E4B : List (BitVec 8)).length < 16 ∨ leAt (leBytes 16 0x4E4B : List (BitVec 8)) 0 2 ≠ 0x4E4C)) (base) := by
  decide +kernel

theorem w_lanternItems_4 : (fun s : State => (s.awake = true) ∧ ((some (0#32, 0x4C4E#16) : Option (BitVec 32 × BitVec 16)).map (fun p => (p.1.toNat, p.2.toNat)) = some (s.get DIC_MGT_IP.ip, s.get DIC_LAN_PORT.port)) ∧ (s.bit DIC_CTRL.lan_en = true) ∧ (16 ≤ (leBytes 2 0x4E4C ++ [1, 0] ++ leBytes 2 7 ++ leBytes 2 9 ++ [1, 0] ++ leBytes 6 0 ++ leBytes 1 2 ++ leBytes 1 0 ++ leBytes 2 0x1017 ++ leBytes 2 6 ++ leBytes 2 2 ++ leBytes 4 0 ++ leBytes 4 500 : List (BitVec 8)).length) ∧ (leAt (leBytes 2 0x4E4C ++ [1, 0] ++ leBytes 2 7 ++ leBytes 2 9 ++ [1, 0] ++ leBytes 6 0 ++ leBytes 1 2 ++ leBytes 1 0 ++ leBytes 2 0x1017 ++ leBytes 2 6 ++ leBytes 2 2 ++ leBytes 4 0 ++ leBytes 4 500 : List (BitVec 8)) 0 2 = 0x4E4C) ∧ (leAt (leBytes 2 0x4E4C ++ [1, 0] ++ leBytes 2 7 ++ leBytes 2 9 ++ [1, 0] ++ leBytes 6 0 ++ leBytes 1 2 ++ leBytes 1 0 ++ leBytes 2 0x1017 ++ leBytes 2 6 ++ leBytes 2 2 ++ leBytes 4 0 ++ leBytes 4 500 : List (BitVec 8)) 2 1 = 1) ∧ (leAt (leBytes 2 0x4E4C ++ [1, 0] ++ leBytes 2 7 ++ leBytes 2 9 ++ [1, 0] ++ leBytes 6 0 ++ leBytes 1 2 ++ leBytes 1 0 ++ leBytes 2 0x1017 ++ leBytes 2 6 ++ leBytes 2 2 ++ leBytes 4 0 ++ leBytes 4 500 : List (BitVec 8)) 3 1 = 0) ∧ (leAt (leBytes 2 0x4E4C ++ [1, 0] ++ leBytes 2 7 ++ leBytes 2 9 ++ [1, 0] ++ leBytes 6 0 ++ leBytes 1 2 ++ leBytes 1 0 ++ leBytes 2 0x1017 ++ leBytes 2 6 ++ leBytes 2 2 ++ leBytes 4 0 ++ leBytes 4 500 : List (BitVec 8)) 8 1 = 1) ∧ (lanItems 1 ((leBytes 2 0x4E4C ++ [1, 0] ++ leBytes 2 7 ++ leBytes 2 9 ++ [1, 0] ++ leBytes 6 0 ++ leBytes 1 2 ++ leBytes 1 0 ++ leBytes 2 0x1017 ++ leBytes 2 6 ++ leBytes 2 2 ++ leBytes 4 0 ++ leBytes 4 500 : List (BitVec 8)).drop 16) = some [(beatItem 2 [0xF4, 1] : LanItem)]) ∧ (s.dic.reqs = []) ∧ (s.dic.handed = none) ∧ (s.dic.sessions = []) ∧ ((beatItem 2 [0xF4, 1] : LanItem).op = 2 ∧ (beatItem 2 [0xF4, 1] : LanItem).data.length ≤ 1400)) (base) := by
  decide +kernel

theorem w_lanternItems_5 : (fun s : State => (s.awake = true) ∧ ((some (0#32, 0x4C4E#16) : Option (BitVec 32 × BitVec 16)).map (fun p => (p.1.toNat, p.2.toNat)) = some (s.get DIC_MGT_IP.ip, s.get DIC_LAN_PORT.port)) ∧ (s.bit DIC_CTRL.lan_en = true) ∧ (16 ≤ (leBytes 2 0x4E4C ++ [1, 0] ++ leBytes 2 7 ++ leBytes 2 9 ++ [1, 0] ++ leBytes 6 0 ++ leBytes 1 1 ++ leBytes 1 0 ++ leBytes 2 0x1017 ++ leBytes 2 6 ++ leBytes 2 0 ++ leBytes 4 0 : List (BitVec 8)).length) ∧ (leAt (leBytes 2 0x4E4C ++ [1, 0] ++ leBytes 2 7 ++ leBytes 2 9 ++ [1, 0] ++ leBytes 6 0 ++ leBytes 1 1 ++ leBytes 1 0 ++ leBytes 2 0x1017 ++ leBytes 2 6 ++ leBytes 2 0 ++ leBytes 4 0 : List (BitVec 8)) 0 2 = 0x4E4C) ∧ (leAt (leBytes 2 0x4E4C ++ [1, 0] ++ leBytes 2 7 ++ leBytes 2 9 ++ [1, 0] ++ leBytes 6 0 ++ leBytes 1 1 ++ leBytes 1 0 ++ leBytes 2 0x1017 ++ leBytes 2 6 ++ leBytes 2 0 ++ leBytes 4 0 : List (BitVec 8)) 2 1 = 1) ∧ (leAt (leBytes 2 0x4E4C ++ [1, 0] ++ leBytes 2 7 ++ leBytes 2 9 ++ [1, 0] ++ leBytes 6 0 ++ leBytes 1 1 ++ leBytes 1 0 ++ leBytes 2 0x1017 ++ leBytes 2 6 ++ leBytes 2 0 ++ leBytes 4 0 : List (BitVec 8)) 3 1 = 0) ∧ (1 ≤ leAt (leBytes 2 0x4E4C ++ [1, 0] ++ leBytes 2 7 ++ leBytes 2 9 ++ [1, 0] ++ leBytes 6 0 ++ leBytes 1 1 ++ leBytes 1 0 ++ leBytes 2 0x1017 ++ leBytes 2 6 ++ leBytes 2 0 ++ leBytes 4 0 : List (BitVec 8)) 8 1) ∧ (leAt (leBytes 2 0x4E4C ++ [1, 0] ++ leBytes 2 7 ++ leBytes 2 9 ++ [1, 0] ++ leBytes 6 0 ++ leBytes 1 1 ++ leBytes 1 0 ++ leBytes 2 0x1017 ++ leBytes 2 6 ++ leBytes 2 0 ++ leBytes 4 0 : List (BitVec 8)) 8 1 ≤ 32) ∧ ((lanItems (leAt (leBytes 2 0x4E4C ++ [1, 0] ++ leBytes 2 7 ++ leBytes 2 9 ++ [1, 0] ++ leBytes 6 0 ++ leBytes 1 1 ++ leBytes 1 0 ++ leBytes 2 0x1017 ++ leBytes 2 6 ++ leBytes 2 0 ++ leBytes 4 0 : List (BitVec 8)) 8 1) ((leBytes 2 0x4E4C ++ [1, 0] ++ leBytes 2 7 ++ leBytes 2 9 ++ [1, 0] ++ leBytes 6 0 ++ leBytes 1 1 ++ leBytes 1 0 ++ leBytes 2 0x1017 ++ leBytes 2 6 ++ leBytes 2 0 ++ leBytes 4 0 : List (BitVec 8)).drop 16)).isSome = true) ∧ (64 < s.queued + leAt (leBytes 2 0x4E4C ++ [1, 0] ++ leBytes 2 7 ++ leBytes 2 9 ++ [1, 0] ++ leBytes 6 0 ++ leBytes 1 1 ++ leBytes 1 0 ++ leBytes 2 0x1017 ++ leBytes 2 6 ++ leBytes 2 0 ++ leBytes 4 0 : List (BitVec 8)) 8 1)) ((base.updDic fun d => { d with reqs := List.replicate 64 (.rpdo 0 []) })) := by
  decide +kernel

theorem w_lanternItems_6 : (fun s : State => (s.awake = true) ∧ (s.dic.handed = none) ∧ (s.dic.reqs = [.lantern (lanReq (beatItem 1 []) : LanReq)]) ∧ ((lanReq (beatItem 1 []) : LanReq).todo = [(beatItem 1 [] : LanItem)]) ∧ (s.stored (lanReq (beatItem 1 []) : LanReq) = none) ∧ ((beatItem 1 [] : LanItem).op = 1) ∧ ((beatItem 1 [] : LanItem).index = 0x1017) ∧ ((beatItem 1 [] : LanItem).sub = 0) ∧ ((beatItem 1 [] : LanItem).type = 6) ∧ ((s.rightsOf (lanReq (beatItem 1 []) : LanReq).src).testBit 0 = true)) ((lanState (beatItem 1 []) none)) := by
  decide +kernel

theorem w_lanternItems_7 : (fun s : State => (s.awake = true) ∧ (s.dic.handed = none) ∧ (s.dic.reqs = [.lantern (lanReq (beatItem 2 [0xF4, 1]) : LanReq)]) ∧ ((lanReq (beatItem 2 [0xF4, 1]) : LanReq).todo = [(beatItem 2 [0xF4, 1] : LanItem)]) ∧ (s.stored (lanReq (beatItem 2 [0xF4, 1]) : LanReq) = none) ∧ ((beatItem 2 [0xF4, 1] : LanItem).op = 2) ∧ ((beatItem 2 [0xF4, 1] : LanItem).index = 0x1017) ∧ ((beatItem 2 [0xF4, 1] : LanItem).sub = 0) ∧ ((beatItem 2 [0xF4, 1] : LanItem).type = 6) ∧ ((beatItem 2 [0xF4, 1] : LanItem).data.length = 2) ∧ ((s.rightsOf (lanReq (beatItem 2 [0xF4, 1]) : LanReq).src).testBit 2 = true)) ((lanState (beatItem 2 [0xF4, 1]) none)) := by
  decide +kernel

theorem w_lanternItems_8 : (fun s : State => (s.awake = true) ∧ (s.dic.handed = none) ∧ (s.dic.reqs = [.lantern (lanReq (beatItem 2 [0xF4]) : LanReq)]) ∧ ((lanReq (beatItem 2 [0xF4]) : LanReq).todo = [(beatItem 2 [0xF4] : LanItem)]) ∧ (s.stored (lanReq (beatItem 2 [0xF4]) : LanReq) = none) ∧ ((beatItem 2 [0xF4] : LanItem).op = 2) ∧ ((0x06070010 : Nat) ≠ 0) ∧ (codeOf (s.writeCheck (lanReq (beatItem 2 [0xF4]) : LanReq).src (beatItem 2 [0xF4] : LanItem).index (beatItem 2 [0xF4] : LanItem).sub (some (beatItem 2 [0xF4] : LanItem).type) (beatItem 2 [0xF4] : LanItem).data.length) = (0x06070010 : Nat))) ((lanState (beatItem 2 [0xF4]) none)) := by
  decide +kernel

theorem w_lanternItems_9 : (fun s : State => (s.awake = true) ∧ (s.dic.handed = none) ∧ (s.dic.reqs = [.lantern (lanReq (domItem 3 0x2600 (leBytes 4 8)) : LanReq)]) ∧ ((lanReq (domItem 3 0x2600 (leBytes 4 8)) : LanReq).todo = [(domItem 3 0x2600 (leBytes 4 8) : LanItem)]) ∧ (s.stored (lanReq (domItem 3 0x2600 (leBytes 4 8)) : LanReq) = none) ∧ ((domItem 3 0x2600 (leBytes 4 8) : LanItem).op = 3) ∧ ((domItem 3 0x2600 (leBytes 4 8) : LanItem).data.length = 4) ∧ (s.openCheck (lanReq (domItem 3 0x2600 (leBytes 4 8)) : LanReq).src (domItem 3 0x2600 (leBytes 4 8) : LanItem).index (domItem 3 0x2600 (leBytes 4 8) : LanItem).sub (some (domItem 3 0x2600 (leBytes 4 8) : LanItem).type) (leNat (domItem 3 0x2600 (leBytes 4 8) : LanItem).data) = 0)) ((lanState (domItem 3 0x2600 (leBytes 4 8)) none)) := by
  decide +kernel

theorem w_lanternItems_10 : (fun s : State => (s.awake = true) ∧ (s.dic.handed = none) ∧ (s.dic.reqs = [.lantern (lanReq (domItem 4 0x2600 (leBytes 4 4 ++ [1, 2, 3, 4])) : LanReq)]) ∧ ((lanReq (domItem 4 0x2600 (leBytes 4 4 ++ [1, 2, 3, 4])) : LanReq).todo = [(domItem 4 0x2600 (leBytes 4 4 ++ [1, 2, 3, 4]) : LanItem)]) ∧ (s.stored (lanReq (domItem 4 0x2600 (leBytes 4 4 ++ [1, 2, 3, 4])) : LanReq) = none) ∧ ((domItem 4 0x2600 (leBytes 4 4 ++ [1, 2, 3, 4]) : LanItem).op = 4) ∧ (s.dic.domain = some (lanWrite 0x2600 4 : DomainWrite)) ∧ (s.ownsDomain (lanReq (domItem 4 0x2600 (leBytes 4 4 ++ [1, 2, 3, 4])) : LanReq) (domItem 4 0x2600 (leBytes 4 4 ++ [1, 2, 3, 4]) : LanItem) = true) ∧ ((domItem 4 0x2600 (leBytes 4 4 ++ [1, 2, 3, 4]) : LanItem).type = 15) ∧ (4 ≤ (domItem 4 0x2600 (leBytes 4 4 ++ [1, 2, 3, 4]) : LanItem).data.length) ∧ ((domItem 4 0x2600 (leBytes 4 4 ++ [1, 2, 3, 4]) : LanItem).data.length ≤ 1444) ∧ (leAt (domItem 4 0x2600 (leBytes 4 4 ++ [1, 2, 3, 4]) : LanItem).data 0 4 = (lanWrite 0x2600 4 : DomainWrite).got) ∧ ((lanWrite 0x2600 4 : DomainWrite).got + ((domItem 4 0x2600 (leBytes 4 4 ++ [1, 2, 3, 4]) : LanItem).data.length - 4) ≤ (lanWrite 0x2600 4 : DomainWrite).total) ∧ ((lanWrite 0x2600 4 : DomainWrite).total ≤ 1048576)) ((lanState (domItem 4 0x2600 (leBytes 4 4 ++ [1, 2, 3, 4])) (some (lanWrite 0x2600 4)))) := by
  decide +kernel

theorem w_lanternItems_11 : (fun s : State => (s.awake = true) ∧ (s.dic.handed = none) ∧ (s.dic.reqs = [.lantern (lanReq (domItem 5 0x3003 (leBytes 4 1)) : LanReq)]) ∧ ((lanReq (domItem 5 0x3003 (leBytes 4 1)) : LanReq).todo = [(domItem 5 0x3003 (leBytes 4 1) : LanItem)]) ∧ (s.stored (lanReq (domItem 5 0x3003 (leBytes 4 1)) : LanReq) = none) ∧ ((domItem 5 0x3003 (leBytes 4 1) : LanItem).op = 5) ∧ (s.dic.domain = some (lanWrite 0x3003 8 : DomainWrite)) ∧ (s.ownsDomain (lanReq (domItem 5 0x3003 (leBytes 4 1)) : LanReq) (domItem 5 0x3003 (leBytes 4 1) : LanItem) = true) ∧ ((domItem 5 0x3003 (leBytes 4 1) : LanItem).type = 15) ∧ ((domItem 5 0x3003 (leBytes 4 1) : LanItem).data.length = 4) ∧ ((lanWrite 0x3003 8 : DomainWrite).got = (lanWrite 0x3003 8 : DomainWrite).total) ∧ (leNat (domItem 5 0x3003 (leBytes 4 1) : LanItem).data ≠ crc32 (s.bytesAt 0x1000400000 (lanWrite 0x3003 8 : DomainWrite).total))) ((lanState (domItem 5 0x3003 (leBytes 4 1)) (some (lanWrite 0x3003 8)))) := by
  decide +kernel

theorem w_lanternItems_12 : (fun s : State => (s.awake = true) ∧ (s.dic.handed = none) ∧ (s.dic.reqs = [.lantern (lanReq (domItem 5 0x3003 (leBytes 4 0x6522DF69)) : LanReq)]) ∧ ((lanReq (domItem 5 0x3003 (leBytes 4 0x6522DF69)) : LanReq).todo = [(domItem 5 0x3003 (leBytes 4 0x6522DF69) : LanItem)]) ∧ (s.stored (lanReq (domItem 5 0x3003 (leBytes 4 0x6522DF69)) : LanReq) = none) ∧ ((domItem 5 0x3003 (leBytes 4 0x6522DF69) : LanItem).op = 5) ∧ (s.dic.domain = some (lanWrite 0x3003 8 : DomainWrite)) ∧ (s.ownsDomain (lanReq (domItem 5 0x3003 (leBytes 4 0x6522DF69)) : LanReq) (domItem 5 0x3003 (leBytes 4 0x6522DF69) : LanItem) = true) ∧ ((domItem 5 0x3003 (leBytes 4 0x6522DF69) : LanItem).type = 15) ∧ ((domItem 5 0x3003 (leBytes 4 0x6522DF69) : LanItem).data.length = 4) ∧ ((lanWrite 0x3003 8 : DomainWrite).got = (lanWrite 0x3003 8 : DomainWrite).total) ∧ (leNat (domItem 5 0x3003 (leBytes 4 0x6522DF69) : LanItem).data = crc32 (s.bytesAt 0x1000400000 (lanWrite 0x3003 8 : DomainWrite).total)) ∧ ((lanWrite 0x3003 8 : DomainWrite).index = 0x3003) ∧ (s.pwr.bundle = none)) ((lanState (domItem 5 0x3003 (leBytes 4 0x6522DF69)) (some (lanWrite 0x3003 8)))) := by
  decide +kernel

theorem w_lanternItems_13 : (fun s : State => (s.awake = true) ∧ (s.dic.handed = none) ∧ (s.dic.reqs = [.lantern (lanReq (domItem 6 0x2D01 (leBytes 4 163838 ++ leBytes 4 4)) : LanReq)]) ∧ ((lanReq (domItem 6 0x2D01 (leBytes 4 163838 ++ leBytes 4 4)) : LanReq).todo = [(domItem 6 0x2D01 (leBytes 4 163838 ++ leBytes 4 4) : LanItem)]) ∧ (s.stored (lanReq (domItem 6 0x2D01 (leBytes 4 163838 ++ leBytes 4 4)) : LanReq) = none) ∧ ((domItem 6 0x2D01 (leBytes 4 163838 ++ leBytes 4 4) : LanItem).op = 6) ∧ ((domItem 6 0x2D01 (leBytes 4 163838 ++ leBytes 4 4) : LanItem).data.length = 8) ∧ (leAt (domItem 6 0x2D01 (leBytes 4 163838 ++ leBytes 4 4) : LanItem).data 4 4 ≤ 1440) ∧ ((domItem 6 0x2D01 (leBytes 4 163838 ++ leBytes 4 4) : LanItem).index = 0x2D01) ∧ ((domItem 6 0x2D01 (leBytes 4 163838 ++ leBytes 4 4) : LanItem).sub = 1) ∧ (codeOf (s.readCheck (lanReq (domItem 6 0x2D01 (leBytes 4 163838 ++ leBytes 4 4)) : LanReq).src (domItem 6 0x2D01 (leBytes 4 163838 ++ leBytes 4 4) : LanItem).index (domItem 6 0x2D01 (leBytes 4 163838 ++ leBytes 4 4) : LanItem).sub (some (domItem 6 0x2D01 (leBytes 4 163838 ++ leBytes 4 4) : LanItem).type)) = 0)) ((lanState (domItem 6 0x2D01 (leBytes 4 163838 ++ leBytes 4 4)) none)) := by
  decide +kernel

theorem w_lanternItems_14 : (fun s : State => (s.awake = true) ∧ (s.dic.handed = none) ∧ (s.dic.reqs = [.lantern (lanReq (domItem 7 0x2600 []) : LanReq)]) ∧ ((lanReq (domItem 7 0x2600 []) : LanReq).todo = [(domItem 7 0x2600 [] : LanItem)]) ∧ (s.stored (lanReq (domItem 7 0x2600 []) : LanReq) = none) ∧ ((domItem 7 0x2600 [] : LanItem).op = 7) ∧ (s.ownsDomain (lanReq (domItem 7 0x2600 []) : LanReq) (domItem 7 0x2600 [] : LanItem) = true)) ((lanState (domItem 7 0x2600 []) (some (lanWrite 0x2600 4)))) := by
  decide +kernel

theorem w_lanternItems_15 : (fun s : State => (s.awake = true) ∧ (s.dic.handed = none) ∧ (s.dic.reqs = [.lantern (lanReq (domItem 7 0x2600 []) : LanReq)]) ∧ ((lanReq (domItem 7 0x2600 []) : LanReq).todo = [(domItem 7 0x2600 [] : LanItem)]) ∧ (s.stored (lanReq (domItem 7 0x2600 []) : LanReq) = none) ∧ ((domItem 7 0x2600 [] : LanItem).op = 7) ∧ (s.ownsDomain (lanReq (domItem 7 0x2600 []) : LanReq) (domItem 7 0x2600 [] : LanItem) = false) ∧ (s.dic.lastDomain = some ({ src := .lantern 0x0A000002 5000 7, index := 0x2600, sub := 1, length := 4, crc := 9 } : Handed)) ∧ (({ src := .lantern 0x0A000002 5000 7, index := 0x2600, sub := 1, length := 4, crc := 9 } : Handed).src = (lanReq (domItem 7 0x2600 []) : LanReq).src) ∧ (({ src := .lantern 0x0A000002 5000 7, index := 0x2600, sub := 1, length := 4, crc := 9 } : Handed).index = (domItem 7 0x2600 [] : LanItem).index) ∧ (({ src := .lantern 0x0A000002 5000 7, index := 0x2600, sub := 1, length := 4, crc := 9 } : Handed).sub = (domItem 7 0x2600 [] : LanItem).sub)) (((lanState (domItem 7 0x2600 []) none).updDic fun d => { d with lastDomain := some { src := .lantern 0x0A000002 5000 7, index := 0x2600, sub := 1, length := 4, crc := 9 } })) := by
  decide +kernel

theorem w_lanternItems_16 : (fun s : State => (s.awake = true) ∧ (s.dic.handed = none) ∧ (s.dic.reqs = [.lantern (lanReq (domItem 7 0x2600 []) : LanReq)]) ∧ ((lanReq (domItem 7 0x2600 []) : LanReq).todo = [(domItem 7 0x2600 [] : LanItem)]) ∧ (s.stored (lanReq (domItem 7 0x2600 []) : LanReq) = none) ∧ ((domItem 7 0x2600 [] : LanItem).op = 7) ∧ (s.ownsDomain (lanReq (domItem 7 0x2600 []) : LanReq) (domItem 7 0x2600 [] : LanItem) = false) ∧ (s.dic.lastDomain = none)) ((lanState (domItem 7 0x2600 []) none)) := by
  decide +kernel

theorem w_lanternItems_17 : (fun s : State => (s.awake = true) ∧ (s.dic.domain = some (lanWrite 0x2600 4 : DomainWrite)) ∧ ((lanWrite 0x2600 4 : DomainWrite).src = .lantern (0x0A000002 : Nat) (5000 : Nat) (7 : Nat))) ((lanState (domItem 7 0x2600 []) (some (lanWrite 0x2600 4)))) := by
  decide +kernel

theorem w_lanternItems_18 : (fun s : State => (s.awake = true) ∧ (s.dic.reqs = [.lantern (lanReq (domItem 5 0x3003 (leBytes 4 0x6522DF69)) : LanReq)]) ∧ ((lanReq (domItem 5 0x3003 (leBytes 4 0x6522DF69)) : LanReq).todo = [(domItem 5 0x3003 (leBytes 4 0x6522DF69) : LanItem)]) ∧ (s.stored (lanReq (domItem 5 0x3003 (leBytes 4 0x6522DF69)) : LanReq) = none) ∧ (s.dic.handed = some ({ src := .lantern 0x0A000002 5000 7, index := 0x3003, sub := 1, length := 8, crc := 5 } : Handed)) ∧ (s.handResult ({ src := .lantern 0x0A000002 5000 7, index := 0x3003, sub := 1, length := 8, crc := 5 } : Handed) = some (0 : Nat)) ∧ (({ src := .lantern 0x0A000002 5000 7, index := 0x3003, sub := 1, length := 8, crc := 5 } : Handed).src = .lantern (0x0A000002 : Nat) (5000 : Nat) (7 : Nat))) (((lanState (domItem 5 0x3003 (leBytes 4 0x6522DF69)) none).updDic fun d => { d with handed := some { src := .lantern 0x0A000002 5000 7, index := 0x3003, sub := 1, length := 8, crc := 5 } })) := by
  decide +kernel

theorem w_lanternItems_19 : (fun s : State => (s.awake = true) ∧ (s.dic.handed = some ({ src := .lantern 0x0A000002 5000 7, index := 0x3003, sub := 1, length := 8, crc := 5 } : Handed)) ∧ (s.handResult ({ src := .lantern 0x0A000002 5000 7, index := 0x3003, sub := 1, length := 8, crc := 5 } : Handed) = none)) (({ base with pwr := { base.pwr with bundle := some [] } }.updDic fun d => { d with handed := some { src := .lantern 0x0A000002 5000 7, index := 0x3003, sub := 1, length := 8, crc := 5 } })) := by
  decide +kernel

theorem w_managementPort_1 : (fun s : State => (s.awake = true) ∧ (Sparse.get 0 s.dic.windows (255 : Fin 256).val = 0x0F0038) ∧ ((s.rightsOf (match (none : Option (BitVec 32)) with | some ip => .lantern ip.toNat 0 0 | none => .usdo)).testBit 0 = true)) (((base.put DIC_JNL_SEL.seq 77).updDic fun d => { d with windows := [(255, 0x0F0038)] })) := by
  decide +kernel

theorem w_managementPort_2 : (fun s : State => (s.awake = true) ∧ (Sparse.get 0 s.dic.windows (255 : Fin 256).val = 0x0F0038) ∧ ((s.rightsOf (match (some 0x0A000002#32 : Option (BitVec 32)) with | some ip => .lantern ip.toNat 0 0 | none => .usdo)).testBit 3 = true)) (((base.put DIC_RIGHTS.lan_default 15).updDic fun d => { d with windows := [(255, 0x0F0038)] })) := by
  decide +kernel

theorem w_managementPort_3 : (fun s : State => (s.awake = true) ∧ (s.bit DIC_CTRL.lan_en = true) ∧ ((0x0A000001#32 : BitVec 32).toNat = s.get DIC_MGT_IP.ip)) ((base.put DIC_MGT_IP.ip 0x0A000001)) := by
  decide +kernel

theorem w_managementPort_4 : (fun s : State => (s.awake = true) ∧ (s.bit DIC_CTRL.lan_en = true) ∧ ((0x0A000003#32 : BitVec 32).toNat ≠ s.get DIC_MGT_IP.ip)) ((base.put DIC_MGT_IP.ip 0x0A000001)) := by
  decide +kernel

theorem w_managementPort_5 : (fun s : State => (s.awake = true) ∧ (s.bit DIC_CTRL.lan_en = true) ∧ ((0x0A000001#32 : BitVec 32).toNat = s.get DIC_MGT_IP.ip) ∧ (s.dic.echoSecond ≠ max s.now (2000000000000000 : Nat) / 10 ^ 15 ∨ s.dic.echoes < 100)) ((base.put DIC_MGT_IP.ip 0x0A000001)) := by
  decide +kernel

theorem w_managementPort_6 : (fun s : State => (s.awake = true) ∧ (s.bit DIC_CTRL.lan_en = true) ∧ (s.dic.echoSecond = max s.now (2000000000000000 : Nat) / 10 ^ 15) ∧ (100 ≤ s.dic.echoes)) (((base.put DIC_MGT_IP.ip 0x0A000001).updDic fun d => { d with echoSecond := 2, echoes := 100 })) := by
  decide +kernel

theorem w_managementPort_7 : (fun s : State => (s.awake = true)) (base) := by
  decide +kernel

theorem w_managementPort_8 : (fun s : State => (stands s = true) ∧ (s.unmirrored = (jnlEntry 0 : JnlEntry) :: ([] : List JnlEntry))) ((base.updDic fun d => { d with journal := [jnlEntry 0] })) := by
  decide +kernel

theorem w_managementPort_9 : (fun s : State => (stands s = true) ∧ (s.unmirrored ≠ [])) ((base.updDic fun d => { d with journal := [jnlEntry 0] })) := by
  decide +kernel

theorem w_tarnishPlans_1 : (fun s : State => (s.awake = true)) (base) := by
  decide +kernel

theorem w_tarnishPlans_2 : (fun s : State => (s.awake = true) ∧ (s.bit TAR_CTRL.enable = true) ∧ (s.tar.tmax = some (List.replicate 16 85 : List Int)) ∧ (∃ i, i < 16 ∧ i < (List.replicate 16 681 : List Int).length ∧ 8 * (List.replicate 16 85 : List Int).getD i 0 < (List.replicate 16 681 : List Int).getD i 0)) ((base.updTar fun x => { x with tmax := some (List.replicate 16 85) })) := by
  refine ⟨by decide +kernel, by decide +kernel, by decide +kernel, 0, by decide +kernel⟩

theorem w_tarnishPlans_3 : (fun s : State => (s.awake = true) ∧ (s.bit TAR_CTRL.enable = true) ∧ (8 * s.get TAR_TEMP.trig < ((s.tarIsl (15 : Fin 16).val).temp - (s.tarIsl (15 : Fin 16).val).tempPlan).natAbs)) (((base.put TAR_STATUS.busy 1).updTarIsl 15 fun x => { x with temp := 41 })) := by
  decide +kernel

theorem w_tarnishPlans_4 : (fun s : State => (s.awake = true) ∧ (((s.tarIsl (15 : Fin 16).val).temp - (s.tarIsl (15 : Fin 16).val).tempPlan).natAbs ≤ 8 * s.get TAR_TEMP.trig)) ((base.updTarIsl 15 fun x => { x with temp := 40 })) := by
  decide +kernel

theorem w_tarnishPlans_5 : (fun s : State => (s.awake = true) ∧ ((s.tarIsl 0).window = none)) (base) := by
  decide +kernel

theorem w_tarnishPlans_6 : (fun s : State => (s.awake = true) ∧ (s.bit TAR_CTRL.enable = true)) (base) := by
  decide +kernel

theorem w_tarnishPlans_7 : (fun s : State => (s.awake = true) ∧ (s.bit TAR_CTRL.enable = true)) (base) := by
  decide +kernel

theorem w_tarnishPlans_8 : (fun s : State => (s.awake = true) ∧ (s.bit TAR_CTRL.enable = false)) ((base.put TAR_CTRL.enable 0)) := by
  decide +kernel

theorem w_tarnishPlans_9 : (fun s : State => (s.awake = true) ∧ (s.bit TAR_CTRL.enable = true) ∧ (s.tar.phase = .idle) ∧ (s.tar.due ≠ 0)) ((base.updTar fun x => { x with due := 0x82 })) := by
  decide +kernel

theorem w_tarnishPlans_10 : (fun s : State => (s.awake = true) ∧ (s.tar.phase = .sampling)) ((base.updTar fun x => { x with phase := .sampling })) := by
  decide +kernel

theorem w_tarnishPlans_11 : (fun s : State => (s.awake = true) ∧ (s.tar.phase = .sampling) ∧ (executing (s.islState ({ island := 15, taps := 40, shift := -3 } : SensorRead).island.val) = true)) (((base.put ARR_ISL_STATUS.state 4 15).updTar fun x => { x with phase := .sampling })) := by
  decide +kernel

theorem w_tarnishPlans_12 : (fun s : State => (s.awake = true) ∧ (s.tar.phase = .raising) ∧ (s.tar.plan = some (raisingPlan : Plan)) ∧ (∀ i < 16, (List.replicate 16 790 : List Nat).getD i 0 ≤ (raisingPlan : Plan).voltage + 10 ∧ (raisingPlan : Plan).voltage ≤ (List.replicate 16 790 : List Nat).getD i 0 + 10)) ((base.updTar fun x => { x with phase := .raising, plan := some raisingPlan })) := by
  decide +kernel

theorem w_tarnishPlans_13 : (fun s : State => (s.awake = true) ∧ (s.tar.phase = .raising) ∧ (s.tar.plan = some (raisingPlan : Plan)) ∧ (¬ ∀ i < 16, (List.replicate 16 789 : List Nat).getD i 0 ≤ (raisingPlan : Plan).voltage + 10 ∧ (raisingPlan : Plan).voltage ≤ (List.replicate 16 789 : List Nat).getD i 0 + 10)) ((base.updTar fun x => { x with phase := .raising, plan := some raisingPlan })) := by
  decide +kernel

theorem w_tarnishPlans_14 : (fun s : State => (s.awake = true) ∧ (s.tar.phase = .lowering) ∧ (s.tar.plan = some (raisingPlan : Plan))) ((base.updTar fun x => { x with phase := .lowering, plan := some raisingPlan })) := by
  decide +kernel

theorem w_tarnishPlans_15 : (fun s : State => (s.awake = true) ∧ (s.tar.phase = .settling) ∧ (s.tar.plan.isSome = true)) ((base.updTar fun x => { x with phase := .settling, plan := some raisingPlan })) := by
  decide +kernel

theorem w_tarnishPlans_16 : (fun s : State => (s.awake = true) ∧ (s.tar.phase = .raising ∨ s.tar.phase = .lowering)) ((base.updTar fun x => { x with phase := .raising, plan := some raisingPlan })) := by
  decide +kernel

theorem w_tarnishPlans_17 : (fun s : State => (s.awake = true)) (base) := by
  decide +kernel

theorem w_tarnishPlans_18 : (fun s : State => (s.awake = true)) (base) := by
  decide +kernel

theorem w_tarnishPlans_19 : (fun s : State => (s.awake = true)) (base) := by
  decide +kernel

theorem w_farSideLedger_1 : (fun s : State => (s.awake = true) ∧ (s.bit LED_CTRL.enable = true)) (base) := by
  decide +kernel

theorem w_farSideLedger_2 : (fun s : State => (s.awake = true) ∧ (s.bit LED_CTRL.enable = false)) ((base.put LED_CTRL.enable 0)) := by
  decide +kernel

theorem w_farSideLedger_3 : (fun s : State => (s.awake = true) ∧ (s.bit LED_CTRL.enable = true) ∧ (s.ledIn = []) ∧ (s.led.recs = [((1023 : Nat), ({ state := 2, present := true, temp := 0x8000 } : LedRec))]) ∧ (2 ≤ ({ state := 2, present := true, temp := 0x8000 } : LedRec).state ∧ ({ state := 2, present := true, temp := 0x8000 } : LedRec).state ≤ 4) ∧ (({ state := 2, present := true, temp := 0x8000 } : LedRec).present = true) ∧ (({ state := 2, present := true, temp := 0x8000 } : LedRec).emptied = false)) ((base.updLed fun l => { l with recs := [(1023, { state := 2, present := true, temp := 0x8000 })] })) := by
  decide +kernel

theorem w_farSideLedger_4 : (fun s : State => (s.awake = true) ∧ ((s.ledRec (1023 : Fin 1024).val).state = 1) ∧ ((s.ledRec (1023 : Fin 1024).val).probLeft = 0) ∧ ((s.ledRec (1023 : Fin 1024).val).exitPosted = false) ∧ (s.led.queue.length < 16)) ((base.updLed fun l => { l with recs := [(1023, { state := 1, present := true })] })) := by
  decide +kernel

theorem w_farSideLedger_5 : (fun s : State => (s.awake = true) ∧ ((s.ledRec (1023 : Fin 1024).val).state = 1) ∧ ((s.ledRec (1023 : Fin 1024).val).probLeft = 0) ∧ ((s.ledRec (1023 : Fin 1024).val).exitPosted = false) ∧ (16 ≤ s.led.queue.length)) ((base.updLed fun l => { l with recs := [(1023, { state := 1, present := true })], queue := List.replicate 16 (5, 0) })) := by
  decide +kernel

theorem w_farSideLedger_6 : (fun s : State => (s.awake = true) ∧ (s.laneRecord (Sparse.get 0 s.led.hitLane (16 : Fin 41).val) = some (1023 : Nat))) ((base.updLed fun l => { l with hitLane := [(16, 223)], hitLow := [(16, 5)], laneRec := [(223, 1024)] })) := by
  decide +kernel

theorem w_farSideLedger_7 : (fun s : State => (s.awake = true) ∧ (s.laneRecord (Sparse.get 0 s.led.hitLane (16 : Fin 41).val) = none)) (base) := by
  decide +kernel

theorem w_farSideLedger_8 : (fun s : State => (s.awake = true) ∧ (s.led.queue = ((1023 : Nat), (3 : Nat)) :: ([(5, 0)] : List (Nat × Nat))) ∧ ((1023 : Nat) < 4096) ∧ ((3 : Nat) < 8)) ((base.updLed fun x => { x with queue := [(1023, 3), (5, 0)] })) := by
  decide +kernel

theorem w_farSideLedger_9 : (fun s : State => (s.awake = true) ∧ ((s.ledRec (1023 : Fin 4096).val).state = 1) ∧ ((s.ledRec (1023 : Fin 4096).val).exitPosted = true)) ((base.updLed fun l => { l with recs := [(1023, { state := 1, present := true, exitPosted := true })] })) := by
  decide +kernel

theorem w_farSideLedger_10 : (fun s : State => (s.awake = true)) (base) := by
  decide +kernel

theorem w_farSideLedger_11 : (fun s : State => (s.awake = true) ∧ (s.led.work.find? (fun w => w.record == (1023 : Fin 1024).val && w.point == (1 : Fin 4).val) = none)) (base) := by
  decide +kernel

theorem w_farSideLedger_12 : (fun s : State => (s.awake = true) ∧ (s.led.work = [({ record := 1023, point := 1 } : LedWork)]) ∧ (({ record := 1023, point := 1 } : LedWork).record = (1023 : Fin 1024).val) ∧ (({ record := 1023, point := 1 } : LedWork).point = 1) ∧ (({ record := 1023, point := 1 } : LedWork).started = false) ∧ (s.get LED_ACT.warn_act = 8) ∧ ((s.recLanes (1023 : Fin 1024).val).contains (223 : Fin 224).val = true) ∧ (s.bit FLN_DL_WORDS.slow_ok (223 : Fin 224).val = true) ∧ (s.bit FLN_SC_STATUS.tx_pending (223 : Fin 224).val = false)) ((((base.put LED_ACT.warn_act 8).put FLN_DL_WORDS.slow_ok 1 223).updLed fun l => { l with work := [{ record := 1023, point := 1 }], laneRec := [(223, 1024)] })) := by
  decide +kernel

theorem w_farSideLedger_13 : (fun s : State => (s.awake = true) ∧ (s.led.work = [({ record := 1023, point := 1, started := true, sends := [{ point := 1, attempts := 1, lane := 223, seq := 7, waits := true }] } : LedWork)]) ∧ (({ record := 1023, point := 1, started := true, sends := [{ point := 1, attempts := 1, lane := 223, seq := 7, waits := true }] } : LedWork).record = (1023 : Fin 1024).val) ∧ (({ record := 1023, point := 1, started := true, sends := [{ point := 1, attempts := 1, lane := 223, seq := 7, waits := true }] } : LedWork).point = 1) ∧ (({ record := 1023, point := 1, started := true, sends := [{ point := 1, attempts := 1, lane := 223, seq := 7, waits := true }] } : LedWork).started = true) ∧ (({ record := 1023, point := 1, started := true, sends := [{ point := 1, attempts := 1, lane := 223, seq := 7, waits := true }] } : LedWork).sends = [({ point := 1, attempts := 1, lane := 223, seq := 7, waits := true } : LedSend)]) ∧ (({ point := 1, attempts := 1, lane := 223, seq := 7, waits := true } : LedSend).acked = false) ∧ (({ point := 1, attempts := 1, lane := 223, seq := 7, waits := true } : LedSend).failed = false) ∧ (({ point := 1, attempts := 1, lane := 223, seq := 7, waits := true } : LedSend).waits = true) ∧ (s.bit FLN_SC_ACK.new ({ point := 1, attempts := 1, lane := 223, seq := 7, waits := true } : LedSend).lane = true) ∧ (s.get FLN_SC_ACK.seq ({ point := 1, attempts := 1, lane := 223, seq := 7, waits := true } : LedSend).lane = ({ point := 1, attempts := 1, lane := 223, seq := 7, waits := true } : LedSend).seq) ∧ (s.get FLN_SC_ACK.status ({ point := 1, attempts := 1, lane := 223, seq := 7, waits := true } : LedSend).lane = 0 ∨ 3 ≤ ({ point := 1, attempts := 1, lane := 223, seq := 7, waits := true } : LedSend).attempts)) (((base.put FLN_SC_ACK.new 1 223).put FLN_SC_ACK.seq 7 223).updLed fun l => { l with work := [{ record := 1023, point := 1, started := true, sends := [{ point := 1, attempts := 1, lane := 223, seq := 7, waits := true }] }], laneRec := [(223, 1024)] }) := by
  decide +kernel

theorem w_farSideLedger_14 : (fun s : State => (s.awake = true)) (base) := by
  decide +kernel

theorem w_farSideLedger_15 : (fun s : State => (s.awake = true)) (base) := by
  decide +kernel

theorem w_farSideLedger_16 : (fun s : State => (stands s = true) ∧ (∀ e ∈ s.led.recs, e.1 < 1024) ∧ (∀ e ∈ s.led.laneRec, e.1 < 256)) ((base.updLed fun l => { l with recs := [(5, { state := 3, hits := 9 }), (1023, { state := 2, present := true })], laneRec := [(0, 6), (255, 1024)] })) := by
  decide +kernel

theorem w_farSideLedger_17 : (fun s : State => (stands s = true)) (base) := by
  decide +kernel

theorem w_powerStates_1 : (fun s : State => (stands s = true) ∧ (s.powerState = 0)) (base) := by
  decide +kernel

theorem w_powerStates_2 : (fun s : State => (stands s = true) ∧ (s.powerState ≠ 0)) (((base.put PWR_STATUS.state 1))) := by
  decide +kernel

theorem w_powerStates_3 : (fun s : State => (stands s = true) ∧ (s.powerState = 1)) (((base.put PWR_STATUS.state 1))) := by
  decide +kernel

theorem w_powerStates_4 : (fun s : State => (stands s = true) ∧ (s.powerState = 2)) (asleep) := by
  decide +kernel

theorem w_powerStates_5 : (fun s : State => (stands s = true) ∧ (s.powerState = 2)) (asleep) := by
  decide +kernel

theorem w_powerStates_6 : (fun s : State => (stands s = true) ∧ (s.powerState ≤ 1)) (((base.put PWR_STATUS.state 1))) := by
  decide +kernel

theorem w_powerStates_7 : (fun s : State => (stands s = true) ∧ (s.powerState ≤ 1)) (base) := by
  decide +kernel

theorem w_powerStates_8 : (fun s : State => (stands s = true) ∧ (s.powerState = 2)) (asleep) := by
  decide +kernel

theorem w_powerStates_9 : (fun s : State => (stands s = true) ∧ (s.powerEntering = true) ∧ (s.gno.due.contains .power = false)) (((base.put PWR_STATUS.state 3))) := by
  decide +kernel

theorem w_powerStates_10 : (fun s : State => (stands s = true) ∧ (s.powerEntering = false) ∧ (s.pwr.past = true)) ((((base.put PWR_STATUS.state 5).put PWR_STATUS.committed 1).updPwr fun p => { p with past := true })) := by
  decide +kernel

theorem w_powerStates_11 : (fun s : State => (stands s = true) ∧ (s.isDue .power = true)) (((((base.put PWR_STATUS.state 3).put GNO_STATUS.state 1)).updGno fun g => { g with due := [.power] })) := by
  decide +kernel

theorem w_powerStates_12 : (fun s : State => (stands s = true) ∧ (s.pwr.step = 2)) ((((base.put PWR_STATUS.state 3)).updPwr fun p => { p with step := 2 })) := by
  decide +kernel

theorem w_powerStates_13 : (fun s : State => (stands s = true) ∧ (s.pwr.step = 3) ∧ (s.powerState = 3)) ((((base.put PWR_STATUS.state 3).put ARR_ISL_STATUS.state 4 15).updPwr fun p => { p with step := 3 })) := by
  decide +kernel

theorem w_powerStates_14 : (fun s : State => (stands s = true) ∧ (s.powerState = 5) ∧ (s.pwr.step = 5)) ((((base.put PWR_STATUS.state 5)).updPwr fun p => { p with step := 5 })) := by
  decide +kernel

theorem w_powerStates_15 : (fun s : State => (stands s = true) ∧ (s.bit DIC_CTRL.can_en = true) ∧ (s.wakes 0 = true)) (asleep) := by
  decide +kernel

theorem w_powerStates_16 : (fun s : State => (stands s = true) ∧ (s.bit DIC_CTRL.can_en = true) ∧ (s.wakes 0 = true)) (asleep) := by
  decide +kernel

theorem w_powerStates_17 : (fun s : State => (stands s = true) ∧ (s.wakes 0 = false)) (((base.put PWR_STATUS.state 2).put PWR_WAKE_EN.en 14)) := by
  decide +kernel

theorem w_powerStates_18 : (fun s : State => (stands s = true) ∧ (s.wakes 1 = true)) (asleep) := by
  decide +kernel

theorem w_powerStates_19 : (fun s : State => (stands s = true) ∧ (s.wakes 2 = true) ∧ ((s.ring.held.any fun p => p.ini == 16 && !alwaysOnStop p.dst) = true)) ((asleep.updRing fun x => { x with held := [{ ini := 16, cmd := .read, addr := 0x1000000000, len := 8 }] })) := by
  decide +kernel

theorem w_powerStates_20 : (fun s : State => (stands s = true) ∧ (s.powerState = 2) ∧ (s.wakes 2 = false) ∧ (s.ring.held = [({ ini := 16, cmd := .read, addr := 0x1000000000, len := 8 } : Pkt)]) ∧ (({ ini := 16, cmd := .read, addr := 0x1000000000, len := 8 } : Pkt).ini = 16) ∧ (alwaysOnStop ({ ini := 16, cmd := .read, addr := 0x1000000000, len := 8 } : Pkt).dst = false)) (((asleep.put PWR_WAKE_EN.en 11).updRing fun x => { x with held := [{ ini := 16, cmd := .read, addr := 0x1000000000, len := 8 }] })) := by
  decide +kernel

theorem w_powerStates_21 : (fun s : State => (stands s = true) ∧ (s.bit CPU_THR_TMR_STAT.running 4 0 = true) ∧ (s.wakes 3 = true)) ((asleep.put CPU_THR_TMR_STAT.running 1 4 0)) := by
  decide +kernel

theorem w_resets_1 : (fun s : State => (stands s = true)) ((base.updErq fun q => { q with entries := [erqOne true] })) := by
  decide +kernel

theorem w_resets_6 : (fun s : State => (s.pwr.pwrgd = false)) ((base.updPwr fun p => { p with pwrgd := false })) := by
  decide +kernel

theorem w_resets_7 : (fun s : State => (s.pwr.pwrgd = true)) (base) := by
  decide +kernel

theorem w_resets_8 : (fun s : State => (s.pwr.pwrgd = true)) (base) := by
  decide +kernel

theorem w_resets_10 : (fun s : State => (stands s = true)) (base) := by
  decide +kernel

theorem w_resets_11 : (fun s : State => (stands s = true) ∧ (s.get PWR_WDOG.ms = 0 ∨ max s.now (9 : Nat) < s.pwr.kickAt + s.get PWR_WDOG.ms * 10 ^ 12)) (base) := by
  decide +kernel

theorem w_resets_12 : (fun s : State => (stands s = true) ∧ (s.get PWR_WDOG.ms ≠ 0) ∧ (s.pwr.kickAt + s.get PWR_WDOG.ms * 10 ^ 12 ≤ max s.now (2000000000000000 : Nat))) (base) := by
  decide +kernel

theorem w_resets_13 : (fun s : State => (s.awake = true)) (((base.putThState 13 1).putThState 14 4)) := by
  decide +kernel

theorem w_resets_14 : (fun s : State => (s.awake = true)) (base) := by
  decide +kernel

theorem w_resets_15 : (fun s : State => (s.awake = true)) (((base.put EDG_FSTATUS.state 1 56).put EDG_CFG_PORT.busy 1)) := by
  decide +kernel

theorem w_resets_16 : (fun s : State => (s.awake = true)) ((((base.put GNO_STATUS.state 2).put GNO_FC_ENABLE.mask 5).updGno fun g => { g with nextSerial := 9, event := 4, named := [{ owner := .prism, serial := 12 }] })) := by
  decide +kernel

theorem w_resets_17 : (fun s : State => (s.awake = true)) (((base.put WOR_LINK_STATUS.state 4 11).put WOR_BLN_STATUS.state 2 47)) := by
  decide +kernel

theorem w_resets_18 : (fun s : State => (s.awake = true)) ((base.put RDO_PORT_STATUS.state 3 15)) := by
  decide +kernel

theorem w_bootAndStore_1 : (fun s : State => (s.pwr.dawnReady = false)) ((base.updPwr fun p => { p with dawnReady := false })) := by
  decide +kernel

theorem w_bootAndStore_2 : (fun s : State => (s.pwr.dawnReady = true)) (base) := by
  decide +kernel

theorem w_bootAndStore_3 : (fun s : State => (s.pwr.dawnReady = true) ∧ (5 ≤ (7 : Fin 8).val)) (base) := by
  decide +kernel

theorem w_bootAndStore_4 : (fun s : State => (s.pwr.dawnReady = true) ∧ ((0 : Fin 8).val ≤ 2)) (base) := by
  decide +kernel

theorem w_bootAndStore_5 : (fun s : State => (s.pwr.dawnReady = true) ∧ ((0 : Fin 8).val ≤ 2) ∧ ((fastRead ({ density := 24, read144 := some { read := 3, dummy := 6 }, read114 := none, quadEnable := 4, addressEntry := 1, erase4k := 32 } : Sfdp)).isSome = true) ∧ (({ density := 24, read144 := some { read := 3, dummy := 6 }, read114 := none, quadEnable := 4, addressEntry := 1, erase4k := 32 } : Sfdp).density < 25)) (base) := by
  decide +kernel

theorem w_bootAndStore_6 : (fun s : State => (s.pwr.dawnReady = true) ∧ ((0 : Fin 8).val ≤ 2) ∧ (({ density := 25, read144 := none, read114 := none, quadEnable := 0, addressEntry := 0, erase4k := 32 } : Sfdp).read144 = none) ∧ (({ density := 25, read144 := none, read114 := none, quadEnable := 0, addressEntry := 0, erase4k := 32 } : Sfdp).read114 = none)) (base) := by
  decide +kernel

theorem w_bootAndStore_7 : (fun s : State => (s.pwr.dawnReady = true)) (base) := by
  decide +kernel

theorem w_bootAndStore_8 : (fun s : State => (s.pwr.dawnReady = true) ∧ ((0 : Fin 8).val ≤ 2) ∧ ((fastRead ({ density := 25, read144 := some { read := 3, dummy := 6 }, read114 := none, quadEnable := 4, addressEntry := 1, erase4k := 32 } : Sfdp)).isSome = true) ∧ (25 ≤ ({ density := 25, read144 := some { read := 3, dummy := 6 }, read114 := none, quadEnable := 4, addressEntry := 1, erase4k := 32 } : Sfdp).density)) (base) := by
  decide +kernel

theorem w_bootAndStore_9 : (fun s : State => (s.pwr.dawnReady = true) ∧ ((fastRead ({ density := 25, read144 := some { read := 3, dummy := 6 }, read114 := none, quadEnable := 4, addressEntry := 1, erase4k := 32 } : Sfdp)).isSome = true) ∧ (25 ≤ ({ density := 25, read144 := some { read := 3, dummy := 6 }, read114 := none, quadEnable := 4, addressEntry := 1, erase4k := 32 } : Sfdp).density) ∧ (s.dic.defaults = [])) (base) := by
  decide +kernel

theorem w_bootAndStore_10 : (fun s : State => (stands s = true)) (base) := by
  decide +kernel

theorem w_bootAndStore_11 : (fun s : State => (stands s = true)) (base) := by
  decide +kernel

theorem w_bootAndStore_12 : (fun s : State => (stands s = true) ∧ (s.pwr.store = some (emptyImage 4 0 2654938470 : List (BitVec 8))) ∧ (s.storeCheck (emptyImage 4 0 2654938470 : List (BitVec 8)) = 0)) (storing) := by
  refine ⟨storing_stands, rfl, ?_⟩
  simp only [State.storeCheck, storing_owner]
  decide +kernel

theorem w_bootAndStore_13 : (fun s : State => (stands s = true) ∧ (s.pwr.store = some ([] : List (BitVec 8))) ∧ (s.storeCheck ([] : List (BitVec 8)) ≠ 0)) ((base.storeStart [])) := by
  decide +kernel

theorem w_bootAndStore_14 : (fun s : State => (stands s = true) ∧ (s.pwr.store.isSome = true)) ((base.storeStart [])) := by
  decide +kernel

theorem w_bootAndStore_15 : (fun s : State => (stands s = true) ∧ (s.pwr.bundle = some (tinyBundle : List (BitVec 8)))) ((base.updPwr fun p => { p with bundle := some tinyBundle })) := by
  decide +kernel

theorem w_bootAndStore_16 : (fun s : State => (stands s = true) ∧ (s.pwr.bundle = some ([] : List (BitVec 8)))) ((base.updPwr fun p => { p with bundle := some [] })) := by
  decide +kernel

theorem w_errorQueueAndTap_1 : (fun s : State => (s.awake = true) ∧ (s.erq.entries = (erqOne false : ErrEntry) :: ([] : List ErrEntry))) ((base.updErq fun q => { q with entries := [erqOne false] })) := by
  decide +kernel

theorem w_errorQueueAndTap_2 : (fun s : State => (s.awake = true) ∧ (s.erq.entries = (erqOne true : ErrEntry) :: ([] : List ErrEntry)) ∧ ((erqOne true : ErrEntry).taken = true) ∧ ((erqOne true : ErrEntry).seq = (7#32 : BitVec 32).toNat)) ((base.updErq fun q => { q with entries := [erqOne true] })) := by
  decide +kernel

theorem w_errorQueueAndTap_3 : (fun s : State => (s.awake = true) ∧ (s.erq.entries = (erqOne false : ErrEntry) :: ([] : List ErrEntry)) ∧ ((erqOne false : ErrEntry).taken = false ∨ (erqOne false : ErrEntry).seq ≠ (7#32 : BitVec 32).toNat)) ((base.updErq fun q => { q with entries := [erqOne false] })) := by
  decide +kernel

theorem w_errorQueueAndTap_4 : (fun s : State => (s.pwr.held = false) ∧ (s.bit SYS_SMB_CFG.enable = true) ∧ (s.powerState ≠ 6) ∧ (s.bit SYS_SMB_CFG.pec_req = false ∨ (true : Bool) = true)) (base) := by
  decide +kernel

theorem w_errorQueueAndTap_5 : (fun s : State => (s.pwr.held = false) ∧ (s.bit SYS_SMB_CFG.enable = true) ∧ (s.powerState ≠ 6) ∧ (s.bit SYS_SMB_CFG.pec_req = false ∨ (true : Bool) = true) ∧ (s.powerState ≠ 2) ∧ ((s.tar.islands.any fun e => !e.2.temps.isEmpty) = true)) ((base.updTarIsl 15 fun x => { x with temps := [(9, 680)] })) := by
  decide +kernel

theorem w_errorQueueAndTap_6 : (fun s : State => (s.pwr.held = false) ∧ (s.bit SYS_SMB_CFG.enable = true) ∧ (s.powerState ≠ 6) ∧ (s.bit SYS_SMB_CFG.pec_req = false ∨ (true : Bool) = true) ∧ (s.stack 0 = 2 ∨ s.stack 1 = 2)) ((base.putStack 1 2)) := by
  decide +kernel

theorem w_errorQueueAndTap_7 : (fun s : State => (s.pwr.held = false) ∧ (s.bit SYS_SMB_CFG.enable = true) ∧ (s.powerState ≠ 6) ∧ (s.bit SYS_SMB_CFG.pec_req = false ∨ (true : Bool) = true)) (base) := by
  decide +kernel

theorem w_errorQueueAndTap_8 : (fun s : State => (s.pwr.held = false) ∧ (s.bit SYS_SMB_CFG.enable = true) ∧ (s.powerState ≠ 6) ∧ (s.bit SYS_SMB_CFG.pec_req = false ∨ (true : Bool) = true)) (base) := by
  decide +kernel

theorem w_errorQueueAndTap_9 : (fun s : State => (s.pwr.held = false) ∧ (s.bit SYS_SMB_CFG.enable = true) ∧ (s.powerState ≠ 6) ∧ (s.bit SYS_SMB_CFG.pec_req = false ∨ (true : Bool) = true)) (base) := by
  decide +kernel

theorem w_errorQueueAndTap_10 : (fun s : State => (s.pwr.held = false) ∧ (s.bit SYS_SMB_CFG.enable = true) ∧ (s.powerState ≠ 6) ∧ (s.bit SYS_SMB_CFG.pec_req = false ∨ (true : Bool) = true)) (base) := by
  decide +kernel

theorem w_errorQueueAndTap_11 : (fun s : State => (s.pwr.held = false) ∧ (s.bit SYS_SMB_CFG.enable = true) ∧ (s.powerState ≠ 6) ∧ (s.bit SYS_SMB_CFG.pec_req = true)) ((base.put SYS_SMB_CFG.pec_req 1)) := by
  decide +kernel

theorem w_errorQueueAndTap_12 : (fun s : State => (s.pwr.held = false) ∧ (s.bit SYS_SMB_CFG.enable = true) ∧ (s.powerState ≠ 6)) (base) := by
  decide +kernel

theorem w_errorQueueAndTap_15 : (fun s : State => (s.get BOT_STATUS.bootmode = 3 ∨ s.get BOT_STATUS.bootmode = 4)) ((base.put BOT_STATUS.bootmode 4)) := by
  decide +kernel

theorem w_errorQueueAndTap_16 : (fun s : State => (s.get BOT_STATUS.bootmode = 3 ∨ s.get BOT_STATUS.bootmode = 4)) ((base.put BOT_STATUS.bootmode 4)) := by
  decide +kernel

theorem w_errorQueueAndTap_17 : (fun s : State => (s.get BOT_STATUS.bootmode = 3 ∨ s.get BOT_STATUS.bootmode = 4)) ((base.put BOT_STATUS.bootmode 4)) := by
  decide +kernel

theorem w_errorQueueAndTap_18 : (fun s : State => (s.get BOT_STATUS.bootmode = 3 ∨ s.get BOT_STATUS.bootmode = 4)) ((base.put BOT_STATUS.bootmode 4)) := by
  decide +kernel

theorem w_errorQueueAndTap_19 : (fun s : State => (s.get BOT_STATUS.bootmode = 3 ∨ s.get BOT_STATUS.bootmode = 4)) ((base.put BOT_STATUS.bootmode 4)) := by
  decide +kernel

theorem w_errorQueueAndTap_20 : (fun s : State => (s.get BOT_STATUS.bootmode ≠ 3) ∧ (s.get BOT_STATUS.bootmode ≠ 4)) (base) := by
  decide +kernel

theorem w_errorQueueAndTap_22 : (fun s : State => (s.tap.busy = false) ∧ (s.bit DBG_CTRL.tap_mem_en = true) ∧ (s.get BOT_STATUS.bootmode ≠ 4) ∧ (s.powerState ≠ 2) ∧ ((s.freeTag 40).isSome = true)) (base) := by
  decide +kernel

theorem w_errorQueueAndTap_23 : (fun s : State => (s.tap.busy = false) ∧ (s.bit DBG_CTRL.tap_mem_en = false ∨ s.get BOT_STATUS.bootmode = 4 ∨ s.powerState = 2)) ((base.put BOT_STATUS.bootmode 4)) := by
  decide +kernel

theorem w_errorQueueAndTap_24 : (fun s : State => (s.tap.busy = true)) ({ base with tap := { base.tap with busy := true } }) := by
  decide +kernel

theorem w_errorQueueAndTap_26 : (fun s : State => (s.awake = true)) ((base.put DBG_TRACE_STATUS.stopped 1)) := by
  decide +kernel

theorem w_ringRequests_1 : (fun s : State => (s.awake = true) ∧ (s.ring.reqs[(0 : Nat)]? = some (pkt .read 8 ([]) : Pkt)) ∧ ((pkt .read 8 ([]) : Pkt).cmd = .read) ∧ ((pkt .read 8 ([]) : Pkt).cut = none) ∧ (s.ring.behind (0 : Nat) (pkt .read 8 ([]) : Pkt) = false) ∧ (({} : Serve).flit = []) ∧ (memRange (pkt .read 8 ([]) : Pkt).addr (pkt .read 8 ([]) : Pkt).len = true) ∧ (s.memUp (pkt .read 8 ([]) : Pkt).addr (pkt .read 8 ([]) : Pkt).len = true) ∧ (s.memReady (pkt .read 8 ([]) : Pkt).addr = true) ∧ (s.eccFound (pkt .read 8 ([]) : Pkt).addr (pkt .read 8 ([]) : Pkt).len false ({} : Serve).ecc = [])) ((flying (pkt .read 8 ([])))) := by
  decide +kernel

theorem w_ringRequests_2 : (fun s : State => (s.awake = true) ∧ (s.ring.reqs[(0 : Nat)]? = some ({ ini := 16, cmd := .read, addr := 0x3205000000, len := 8 } : Pkt)) ∧ (({ ini := 16, cmd := .read, addr := 0x3205000000, len := 8 } : Pkt).cmd = .read) ∧ (({ ini := 16, cmd := .read, addr := 0x3205000000, len := 8 } : Pkt).cut = none) ∧ (s.ring.behind (0 : Nat) ({ ini := 16, cmd := .read, addr := 0x3205000000, len := 8 } : Pkt) = false) ∧ (({} : Serve).flit = []) ∧ (0x3205000000 ≤ ({ ini := 16, cmd := .read, addr := 0x3205000000, len := 8 } : Pkt).addr)) ((flying { ini := 16, cmd := .read, addr := 0x3205000000, len := 8 })) := by
  decide +kernel

theorem w_ringRequests_3 : (fun s : State => (s.awake = true) ∧ (s.ring.reqs[(0 : Nat)]? = some (pkt .read 8 ([]) : Pkt)) ∧ ((pkt .read 8 ([]) : Pkt).cmd = .read) ∧ (s.memReady (pkt .read 8 ([]) : Pkt).addr = true) ∧ (s.ring.behind (0 : Nat) (pkt .read 8 ([]) : Pkt) = false) ∧ (({ flit := [.header 31 3] } : Serve).flit = [.header (31 : Fin 32) (3 : Fin 4)])) ((flying (pkt .read 8 ([])))) := by
  decide +kernel

theorem w_ringRequests_4 : (fun s : State => (s.awake = true) ∧ ((4 : Fin 257).val ≠ 0) ∧ (oneBlock (0 : Fin 0x10000000000).val (4 : Fin 257).val = true) ∧ (s.freeTag (16 : Fin 41).val = none) ∧ (Sparse.get none s.ring.tagWaits (16 : Fin 41).val = none)) (((base.put RNG_INI_CFG.tagcap 1 16).updRing fun x => { x with outs := [txnOf 16] })) := by
  decide +kernel

theorem w_ringRequests_5 : (fun s : State => (s.awake = true) ∧ (s.ring.reqs[(0 : Nat)]? = some (pkt .write 8 (leBytes 8 77) : Pkt)) ∧ ((pkt .write 8 (leBytes 8 77) : Pkt).cmd = .write) ∧ ((pkt .write 8 (leBytes 8 77) : Pkt).cut = none) ∧ (s.ring.behind (0 : Nat) (pkt .write 8 (leBytes 8 77) : Pkt) = false) ∧ (({} : Serve).flit = []) ∧ (memRange (pkt .write 8 (leBytes 8 77) : Pkt).addr (pkt .write 8 (leBytes 8 77) : Pkt).len = true) ∧ (s.memUp (pkt .write 8 (leBytes 8 77) : Pkt).addr (pkt .write 8 (leBytes 8 77) : Pkt).len = true) ∧ (s.memReady (pkt .write 8 (leBytes 8 77) : Pkt).addr = true) ∧ (s.eccFound (pkt .write 8 (leBytes 8 77) : Pkt).addr (pkt .write 8 (leBytes 8 77) : Pkt).len true ({} : Serve).ecc = []) ∧ ((pkt .write 8 (leBytes 8 77) : Pkt).data.length = (pkt .write 8 (leBytes 8 77) : Pkt).len) ∧ (s.ringWriteClosed (pkt .write 8 (leBytes 8 77) : Pkt).addr (pkt .write 8 (leBytes 8 77) : Pkt).len = false)) ((flying (pkt .write 8 (leBytes 8 77)))) := by
  decide +kernel

theorem w_ringRequests_6 : (fun s : State => (s.awake = true) ∧ (s.ring.reqs[(0 : Nat)]? = some (pkt .writeP 8 (leBytes 8 77) : Pkt)) ∧ ((pkt .writeP 8 (leBytes 8 77) : Pkt).cmd = .writeP) ∧ ((pkt .writeP 8 (leBytes 8 77) : Pkt).cut = none) ∧ (s.ring.behind (0 : Nat) (pkt .writeP 8 (leBytes 8 77) : Pkt) = false) ∧ (({} : Serve).flit = []) ∧ (memRange (pkt .writeP 8 (leBytes 8 77) : Pkt).addr (pkt .writeP 8 (leBytes 8 77) : Pkt).len = true) ∧ (s.memUp (pkt .writeP 8 (leBytes 8 77) : Pkt).addr (pkt .writeP 8 (leBytes 8 77) : Pkt).len = true) ∧ (s.memReady (pkt .writeP 8 (leBytes 8 77) : Pkt).addr = true) ∧ (s.eccFound (pkt .writeP 8 (leBytes 8 77) : Pkt).addr (pkt .writeP 8 (leBytes 8 77) : Pkt).len true ({} : Serve).ecc = []) ∧ ((pkt .writeP 8 (leBytes 8 77) : Pkt).data.length = (pkt .writeP 8 (leBytes 8 77) : Pkt).len) ∧ (s.ringWriteClosed (pkt .writeP 8 (leBytes 8 77) : Pkt).addr (pkt .writeP 8 (leBytes 8 77) : Pkt).len = false)) ((flying (pkt .writeP 8 (leBytes 8 77)))) := by
  decide +kernel

theorem w_ringRequests_7 : (fun s : State => (s.awake = true) ∧ (s.ring.reqs[(0 : Nat)]? = some (pkt .amoAdd 4 (leBytes 4 0xFFFFFFFF) : Pkt)) ∧ ((pkt .amoAdd 4 (leBytes 4 0xFFFFFFFF) : Pkt).cmd = .amoAdd) ∧ ((pkt .amoAdd 4 (leBytes 4 0xFFFFFFFF) : Pkt).cut = none) ∧ (s.ring.behind (0 : Nat) (pkt .amoAdd 4 (leBytes 4 0xFFFFFFFF) : Pkt) = false) ∧ (({} : Serve).flit = []) ∧ (memRange (pkt .amoAdd 4 (leBytes 4 0xFFFFFFFF) : Pkt).addr (pkt .amoAdd 4 (leBytes 4 0xFFFFFFFF) : Pkt).len = true) ∧ (s.memUp (pkt .amoAdd 4 (leBytes 4 0xFFFFFFFF) : Pkt).addr (pkt .amoAdd 4 (leBytes 4 0xFFFFFFFF) : Pkt).len = true) ∧ (s.memReady (pkt .amoAdd 4 (leBytes 4 0xFFFFFFFF) : Pkt).addr = true) ∧ (s.eccFound (pkt .amoAdd 4 (leBytes 4 0xFFFFFFFF) : Pkt).addr (pkt .amoAdd 4 (leBytes 4 0xFFFFFFFF) : Pkt).len false ({} : Serve).ecc = []) ∧ ((pkt .amoAdd 4 (leBytes 4 0xFFFFFFFF) : Pkt).addr % 4 = 0) ∧ ((pkt .amoAdd 4 (leBytes 4 0xFFFFFFFF) : Pkt).len = 4) ∧ ((pkt .amoAdd 4 (leBytes 4 0xFFFFFFFF) : Pkt).addr < 0x1000810000) ∧ (0x1000000000 ≤ (pkt .amoAdd 4 (leBytes 4 0xFFFFFFFF) : Pkt).addr) ∧ (s.ringWriteClosed (pkt .amoAdd 4 (leBytes 4 0xFFFFFFFF) : Pkt).addr (pkt .amoAdd 4 (leBytes 4 0xFFFFFFFF) : Pkt).len = false)) (((flying (pkt .amoAdd 4 (leBytes 4 0xFFFFFFFF))).setLeMem 0x1000300000 4 5)) := by
  decide +kernel

theorem w_ringRequests_8 : (fun s : State => (s.awake = true) ∧ (s.ring.reqs[(0 : Nat)]? = some (pkt .amoSwap 4 (leBytes 4 0xFFFFFFFF) : Pkt)) ∧ ((pkt .amoSwap 4 (leBytes 4 0xFFFFFFFF) : Pkt).cmd = .amoSwap) ∧ ((pkt .amoSwap 4 (leBytes 4 0xFFFFFFFF) : Pkt).cut = none) ∧ (s.ring.behind (0 : Nat) (pkt .amoSwap 4 (leBytes 4 0xFFFFFFFF) : Pkt) = false) ∧ (({} : Serve).flit = []) ∧ (memRange (pkt .amoSwap 4 (leBytes 4 0xFFFFFFFF) : Pkt).addr (pkt .amoSwap 4 (leBytes 4 0xFFFFFFFF) : Pkt).len = true) ∧ (s.memUp (pkt .amoSwap 4 (leBytes 4 0xFFFFFFFF) : Pkt).addr (pkt .amoSwap 4 (leBytes 4 0xFFFFFFFF) : Pkt).len = true) ∧ (s.memReady (pkt .amoSwap 4 (leBytes 4 0xFFFFFFFF) : Pkt).addr = true) ∧ (s.eccFound (pkt .amoSwap 4 (leBytes 4 0xFFFFFFFF) : Pkt).addr (pkt .amoSwap 4 (leBytes 4 0xFFFFFFFF) : Pkt).len false ({} : Serve).ecc = []) ∧ ((pkt .amoSwap 4 (leBytes 4 0xFFFFFFFF) : Pkt).addr % 4 = 0) ∧ ((pkt .amoSwap 4 (leBytes 4 0xFFFFFFFF) : Pkt).len = 4) ∧ ((pkt .amoSwap 4 (leBytes 4 0xFFFFFFFF) : Pkt).addr < 0x1000810000) ∧ (0x1000000000 ≤ (pkt .amoSwap 4 (leBytes 4 0xFFFFFFFF) : Pkt).addr) ∧ (s.ringWriteClosed (pkt .amoSwap 4 (leBytes 4 0xFFFFFFFF) : Pkt).addr (pkt .amoSwap 4 (leBytes 4 0xFFFFFFFF) : Pkt).len = false)) (((flying (pkt .amoSwap 4 (leBytes 4 0xFFFFFFFF))).setLeMem 0x1000300000 4 5)) := by
  decide +kernel

theorem w_ringRequests_9 : (fun s : State => (s.awake = true) ∧ (s.ring.reqs[(0 : Nat)]? = some ({ ini := 17, cmd := .event, addr := 16, len := 2, data := [5, 128] } : Pkt)) ∧ (({ ini := 17, cmd := .event, addr := 16, len := 2, data := [5, 128] } : Pkt).cmd = .event) ∧ (s.ring.behind (0 : Nat) ({ ini := 17, cmd := .event, addr := 16, len := 2, data := [5, 128] } : Pkt) = false) ∧ (({} : Serve).flit = []) ∧ (({ ini := 17, cmd := .event, addr := 16, len := 2, data := [5, 128] } : Pkt).addr % 32 < 17) ∧ (s.thState (({ ini := 17, cmd := .event, addr := 16, len := 2, data := [5, 128] } : Pkt).addr % 32) ≠ 3)) ((flying { ini := 17, cmd := .event, addr := 16, len := 2, data := [5, 128] })) := by
  decide +kernel

theorem w_ringRequests_10 : (fun s : State => (s.awake = true) ∧ (s.ring.reqs[(0 : Nat)]? = some (pkt .write 8 (leBytes 8 77) : Pkt)) ∧ ((memKind (pkt .write 8 (leBytes 8 77) : Pkt).addr).isSome = true) ∧ ((pkt .write 8 (leBytes 8 77) : Pkt).cmd = .write)) ((flying (pkt .write 8 (leBytes 8 77)))) := by
  decide +kernel

theorem w_ringRequests_11 : (fun s : State => (s.awake = true) ∧ (s.ring.reqs[(0 : Nat)]? = some (pkt .writeP 8 (leBytes 8 77) : Pkt)) ∧ ((memKind (pkt .writeP 8 (leBytes 8 77) : Pkt).addr).isSome = true) ∧ ((pkt .writeP 8 (leBytes 8 77) : Pkt).cmd = .writeP)) ((flying (pkt .writeP 8 (leBytes 8 77)))) := by
  decide +kernel

theorem w_ringRequests_12 : (fun s : State => (s.awake = true) ∧ (s.ring.reqs[(0 : Nat)]? = some (pkt .amoAdd 4 (leBytes 4 9) : Pkt)) ∧ ((memKind (pkt .amoAdd 4 (leBytes 4 9) : Pkt).addr).isSome = true) ∧ ((pkt .amoAdd 4 (leBytes 4 9) : Pkt).cmd = .amoAdd)) ((flying (pkt .amoAdd 4 (leBytes 4 9)))) := by
  decide +kernel

theorem w_ringRequests_13 : (fun s : State => (s.awake = true) ∧ (s.ring.reqs[(0 : Nat)]? = some (pkt .amoSwap 4 (leBytes 4 9) : Pkt)) ∧ ((memKind (pkt .amoSwap 4 (leBytes 4 9) : Pkt).addr).isSome = true) ∧ ((pkt .amoSwap 4 (leBytes 4 9) : Pkt).cmd = .amoSwap)) ((flying (pkt .amoSwap 4 (leBytes 4 9)))) := by
  decide +kernel

theorem w_ringRequests_14 : (fun s : State => (s.awake = true) ∧ (s.ring.reqs[(0 : Nat)]? = some ({ ini := 16, cmd := .read, slot := 5, addr := 0x3000000000, len := 4, data := [] } : Pkt)) ∧ (({ ini := 16, cmd := .read, slot := 5, addr := 0x3000000000, len := 4, data := [] } : Pkt).cmd = .read) ∧ ((memKind ({ ini := 16, cmd := .read, slot := 5, addr := 0x3000000000, len := 4, data := [] } : Pkt).addr).isSome = true ∨ 0x3000000000 ≤ ({ ini := 16, cmd := .read, slot := 5, addr := 0x3000000000, len := 4, data := [] } : Pkt).addr ∧ ({ ini := 16, cmd := .read, slot := 5, addr := 0x3000000000, len := 4, data := [] } : Pkt).addr < 0x3004000000)) ((flying ({ ini := 16, cmd := .read, slot := 5, addr := 0x3000000000, len := 4, data := [] }))) := by
  decide +kernel

theorem w_ringRequests_15 : (fun s : State => (s.awake = true) ∧ (s.ring.reqs[(0 : Nat)]? = some ({ ini := 16, cmd := .write, slot := 5, addr := 0x3000000000, len := 4, data := leBytes 4 9 } : Pkt)) ∧ (({ ini := 16, cmd := .write, slot := 5, addr := 0x3000000000, len := 4, data := leBytes 4 9 } : Pkt).cmd = .write) ∧ (0x3000000000 ≤ ({ ini := 16, cmd := .write, slot := 5, addr := 0x3000000000, len := 4, data := leBytes 4 9 } : Pkt).addr ∧ ({ ini := 16, cmd := .write, slot := 5, addr := 0x3000000000, len := 4, data := leBytes 4 9 } : Pkt).addr < 0x3004000000)) ((flying ({ ini := 16, cmd := .write, slot := 5, addr := 0x3000000000, len := 4, data := leBytes 4 9 }))) := by
  decide +kernel

theorem w_ringRequests_16 : (fun s : State => (s.awake = true) ∧ (s.ring.reqs[(0 : Nat)]? = some ({ ini := 16, cmd := .writeP, slot := 5, addr := 0x3000000000, len := 4, data := leBytes 4 9 } : Pkt)) ∧ (({ ini := 16, cmd := .writeP, slot := 5, addr := 0x3000000000, len := 4, data := leBytes 4 9 } : Pkt).cmd = .writeP) ∧ (0x3000000000 ≤ ({ ini := 16, cmd := .writeP, slot := 5, addr := 0x3000000000, len := 4, data := leBytes 4 9 } : Pkt).addr ∧ ({ ini := 16, cmd := .writeP, slot := 5, addr := 0x3000000000, len := 4, data := leBytes 4 9 } : Pkt).addr < 0x3004000000)) ((flying ({ ini := 16, cmd := .writeP, slot := 5, addr := 0x3000000000, len := 4, data := leBytes 4 9 }))) := by
  decide +kernel

theorem w_ringResponses_1 : (fun s : State => (s.awake = true) ∧ (s.ring.rsps[(0 : Nat)]? = some (rspOf 40 .read : Rsp)) ∧ (s.ring.outs.find? (fun y => y.ini == (rspOf 40 .read : Rsp).ini && y.slot == (rspOf 40 .read : Rsp).slot) = some (txnOf 40 : Txn)) ∧ ((txnOf 40 : Txn).epoch = (rspOf 40 .read : Rsp).epoch) ∧ ((txnOf 40 : Txn).purpose = .unit) ∧ ((txnOf 40 : Txn).ini = (rspOf 40 .read : Rsp).ini) ∧ (s.ring.held = []) ∧ (noStall s = true) ∧ ((txnOf 40 : Txn).ini < 18 ∨ 33 < (txnOf 40 : Txn).ini) ∧ ((rspOf 40 .read : Rsp).cmd = .read)) ((answering 40 .read)) := by
  decide +kernel

theorem w_ringResponses_2 : (fun s : State => (s.awake = true) ∧ (s.ring.rsps[(0 : Nat)]? = some (rspOf 35 .write : Rsp)) ∧ (s.ring.outs.find? (fun y => y.ini == (rspOf 35 .write : Rsp).ini && y.slot == (rspOf 35 .write : Rsp).slot) = some (txnOf 35 : Txn)) ∧ ((txnOf 35 : Txn).epoch = (rspOf 35 .write : Rsp).epoch) ∧ ((txnOf 35 : Txn).purpose = .unit) ∧ ((txnOf 35 : Txn).ini = (rspOf 35 .write : Rsp).ini) ∧ (s.ring.held = []) ∧ (noStall s = true) ∧ ((txnOf 35 : Txn).ini < 18 ∨ 33 < (txnOf 35 : Txn).ini) ∧ ((rspOf 35 .write : Rsp).cmd = .write)) ((answering 35 .write)) := by
  decide +kernel

theorem w_ringResponses_3 : (fun s : State => (s.awake = true) ∧ (s.ring.rsps[(0 : Nat)]? = some (rspOf 35 .amoSwap : Rsp)) ∧ (s.ring.outs.find? (fun y => y.ini == (rspOf 35 .amoSwap : Rsp).ini && y.slot == (rspOf 35 .amoSwap : Rsp).slot) = some (txnOf 35 : Txn)) ∧ ((txnOf 35 : Txn).epoch = (rspOf 35 .amoSwap : Rsp).epoch) ∧ ((txnOf 35 : Txn).purpose = .unit) ∧ ((txnOf 35 : Txn).ini = (rspOf 35 .amoSwap : Rsp).ini) ∧ (s.ring.held = []) ∧ (noStall s = true) ∧ ((txnOf 35 : Txn).ini < 18 ∨ 33 < (txnOf 35 : Txn).ini) ∧ ((rspOf 35 .amoSwap : Rsp).cmd = .amoAdd ∨ (rspOf 35 .amoSwap : Rsp).cmd = .amoSwap)) ((answering 35 .amoSwap)) := by
  decide +kernel

theorem w_ringResponses_4 : (fun s : State => (s.awake = true) ∧ (s.ring.rsps[(0 : Nat)]? = some (rspOf 33 .read : Rsp)) ∧ (s.ring.outs.find? (fun y => y.ini == (rspOf 33 .read : Rsp).ini && y.slot == (rspOf 33 .read : Rsp).slot) = some ({ txnOf 33 with purpose := .piece 0 0x1000300040 } : Txn)) ∧ (({ txnOf 33 with purpose := .piece 0 0x1000300040 } : Txn).epoch = (rspOf 33 .read : Rsp).epoch) ∧ (({ txnOf 33 with purpose := .piece 0 0x1000300040 } : Txn).ini = (rspOf 33 .read : Rsp).ini) ∧ (17 < ({ txnOf 33 with purpose := .piece 0 0x1000300040 } : Txn).ini) ∧ (({ txnOf 33 with purpose := .piece 0 0x1000300040 } : Txn).ini < 34) ∧ (noStall s = true) ∧ (s.ring.held = []) ∧ ((rspOf 33 .read : Rsp).cmd = .read) ∧ ((rspOf 33 .read : Rsp).status = 0) ∧ (({ txnOf 33 with purpose := .piece 0 0x1000300040 } : Txn).purpose = .piece (0 : Nat) (0x1000300040 : Nat)) ∧ (s.get RNG_DMA_STATUS.state (({ txnOf 33 with purpose := .piece 0 0x1000300040 } : Txn).ini - 18) = 1) ∧ ((s.dma (({ txnOf 33 with purpose := .piece 0 0x1000300040 } : Txn).ini - 18)).desc.any Desc.overlaps = false) ∧ ((s.dma (({ txnOf 33 with purpose := .piece 0 0x1000300040 } : Txn).ini - 18)).piece.isNone = true) ∧ ((s.freeTag ({ txnOf 33 with purpose := .piece 0 0x1000300040 } : Txn).ini).isSome = true) ∧ (s.get RNG_STOP_STATUS.asleep (targetStop (0x1000300040 : Nat)) = 0) ∧ (s.ring.deaf = []) ∧ (s.ring.changed = [])) ((((base.put RNG_DMA_STATUS.state 1 15).updDma 15 fun d => { d with desc := some { src := 0, dst := 0x1000300040, rowLen := 4, rows := 1, ctrl := 1, srcStride := 0, dstStride := 0, next := 0 }, row := 1 }).updRing fun y => { y with outs := [{ txnOf 33 with purpose := .piece 0 0x1000300040 }], rsps := [rspOf 33 .read] })) := by
  decide +kernel

theorem w_ringResponses_5 : (fun s : State => (s.awake = true) ∧ (s.ring.rsps[(0 : Nat)]? = some (rspOf 33 .write : Rsp)) ∧ (s.ring.outs.find? (fun y => y.ini == (rspOf 33 .write : Rsp).ini && y.slot == (rspOf 33 .write : Rsp).slot) = some (txnOf 33 : Txn)) ∧ ((txnOf 33 : Txn).epoch = (rspOf 33 .write : Rsp).epoch) ∧ ((txnOf 33 : Txn).ini = (rspOf 33 .write : Rsp).ini) ∧ (17 < (txnOf 33 : Txn).ini) ∧ ((txnOf 33 : Txn).ini < 34) ∧ (noStall s = true) ∧ (s.ring.held = []) ∧ ((rspOf 33 .write : Rsp).cmd = .write)) ((answering 33 .write)) := by
  decide +kernel

theorem w_ringResponses_6 : (fun s : State => (s.awake = true) ∧ (s.ring.rsps[(0 : Nat)]? = some ({ rspOf 35 .read with epoch := 15 } : Rsp)) ∧ (({ rspOf 35 .read with epoch := 15 } : Rsp).cmd = .read) ∧ (s.ring.outs.find? (fun y => y.ini == ({ rspOf 35 .read with epoch := 15 } : Rsp).ini && y.slot == ({ rspOf 35 .read with epoch := 15 } : Rsp).slot) = some (txnOf 35 : Txn)) ∧ ((txnOf 35 : Txn).epoch ≠ ({ rspOf 35 .read with epoch := 15 } : Rsp).epoch) ∧ (s.ring.kept = []) ∧ (noStall s = true)) ((base.updRing fun y => { y with outs := [txnOf 35], rsps := [{ rspOf 35 .read with epoch := 15 }] })) := by
  decide +kernel

theorem w_ringResponses_7 : (fun s : State => (s.awake = true) ∧ (s.ring.rsps[(0 : Nat)]? = some (rspOf 35 .read : Rsp)) ∧ ((rspOf 35 .read : Rsp).cmd ≠ .write)) ((answering 35 .read)) := by
  decide +kernel

theorem w_ringResponses_8 : (fun s : State => (s.awake = true) ∧ (s.ring.outs[(0 : Nat)]? = some (txnOf 35 : Txn)) ∧ ((txnOf 35 : Txn).purpose = .unit) ∧ (s.ring.held = []) ∧ (noStall s = true) ∧ ((txnOf 35 : Txn).ini < 18 ∨ 33 < (txnOf 35 : Txn).ini ∧ (txnOf 35 : Txn).ini < 41)) ((answering 35 .read)) := by
  decide +kernel

theorem w_ringResponses_9 : (fun s : State => (s.awake = true) ∧ (s.nextReport (14 : Fin 32).val (3 : Fin 5).val = some (({ page := 14, core := 3, inst := 0xFFFF, code := 5, count := 1, first := 9, last := 9 } : Report), ([] : List Report))) ∧ (s.erq.entries.any (fun e => e.matches_ ({ page := 14, core := 3, inst := 0xFFFF, code := 5, count := 1, first := 9, last := 9 } : Report)) = false) ∧ (s.erq.entries.length < 256)) ((base.updErq fun y => { y with reports := [{ page := 14, core := 3, inst := 0xFFFF, code := 5, count := 1, first := 9, last := 9 }] })) := by
  decide +kernel

theorem w_ringResponses_10 : (fun s : State => (s.awake = true) ∧ (s.nextReport (14 : Fin 32).val (3 : Fin 5).val = some (({ page := 14, core := 3, inst := 0xFFFF, code := 5, count := 1, first := 9, last := 9 } : Report), ([] : List Report))) ∧ (s.erq.entries.any (fun e => e.matches_ ({ page := 14, core := 3, inst := 0xFFFF, code := 5, count := 1, first := 9, last := 9 } : Report)) = true)) ((base.updErq fun y => { y with reports := [{ page := 14, core := 3, inst := 0xFFFF, code := 5, count := 1, first := 9, last := 9 }], entries := [erqOne false] })) := by
  decide +kernel

theorem w_ringResponses_11 : (fun s : State => (s.awake = true) ∧ (s.nextReport (14 : Fin 32).val (3 : Fin 5).val = some (({ page := 14, core := 3, inst := 0xFFFF, code := 5, count := 1, first := 9, last := 9 } : Report), ([] : List Report))) ∧ (s.erq.entries.any (fun e => e.matches_ ({ page := 14, core := 3, inst := 0xFFFF, code := 5, count := 1, first := 9, last := 9 } : Report)) = false) ∧ (256 ≤ s.erq.entries.length)) ((base.updErq fun y => { y with reports := [{ page := 14, core := 3, inst := 0xFFFF, code := 5, count := 1, first := 9, last := 9 }], entries := List.replicate 256 (erqOne true) })) := by
  decide +kernel

theorem w_ringResponses_12 : (fun s : State => (s.awake = true) ∧ (s.nextReport (14 : Fin 32).val (3 : Fin 5).val = some (({ page := 14, core := 3, inst := 0xFFFF, code := 5, count := 1, first := 9, last := 9 } : Report), ([] : List Report)))) ((base.updErq fun y => { y with reports := [{ page := 14, core := 3, inst := 0xFFFF, code := 5, count := 1, first := 9, last := 9 }] })) := by
  decide +kernel

theorem w_ringResponses_13 : (fun s : State => (stands s = true) ∧ (s.nextReport 12 (0 : Fin 5).val = some (({ page := 12, inst := 0xFFFF, code := 5, count := 1, first := 9, last := 9 } : Report), ([] : List Report))) ∧ (s.powerState = 2) ∧ (s.erq.entries.any (fun e => e.matches_ ({ page := 12, inst := 0xFFFF, code := 5, count := 1, first := 9, last := 9 } : Report)) = false) ∧ (s.erq.entries.length < 256)) ((asleep.updErq fun y => { y with reports := [{ page := 12, inst := 0xFFFF, code := 5, count := 1, first := 9, last := 9 }] })) := by
  decide +kernel

theorem w_ringResponses_14 : (fun s : State => (s.awake = true) ∧ (s.ring.kept[(0 : Nat)]? = some (txnOf 35 : Txn)) ∧ (noStall s = true)) ((base.updRing fun y => { y with kept := [txnOf 35] })) := by
  decide +kernel

theorem w_ringResponses_15 : (fun s : State => (s.awake = true)) (base) := by
  decide +kernel

theorem w_ringResponses_16 : (fun s : State => (stands s = true) ∧ (s.bit RNG_STOP_STATUS.asleep (11 : Fin 32).val = true) ∧ (s.ring.held.any (fun p => p.dst == (11 : Fin 32).val) = true) ∧ (s.ring.waking.contains (11 : Fin 32).val = false) ∧ (s.powerState ≠ 2)) (((base.put RNG_STOP_STATUS.asleep 1 11).updRing fun y => { y with held := [pkt .read 8 []] })) := by
  decide +kernel

theorem w_ringResponses_17 : (fun s : State => (stands s = true) ∧ (s.bit RNG_STOP_STATUS.asleep (11 : Fin 32).val = true) ∧ (s.ring.held.any (fun p => p.dst == (11 : Fin 32).val) = true) ∧ (s.ring.waking.contains (11 : Fin 32).val = false) ∧ (s.powerState ≠ 2)) (((base.put RNG_STOP_STATUS.asleep 1 11).updRing fun y => { y with held := [pkt .read 8 []] })) := by
  decide +kernel

theorem w_ringResponses_18 : (fun s : State => (s.awake = true) ∧ (8 ≤ (11 : Fin 32).val → (11 : Fin 32).val < 16 → s.get SPD_BANK_STATUS.state ((11 : Fin 32).val - 8) = 2) ∧ (s.ring.held = [(pkt .read 8 [] : Pkt)]) ∧ ((pkt .read 8 [] : Pkt).dst = (11 : Fin 32).val) ∧ (s.ring.changed = [])) ((((base.put RNG_STOP_STATUS.asleep 1 11).put SPD_BANK_STATUS.state 2 3).updRing fun y => { y with held := [pkt .read 8 []], waking := [11] })) := by
  decide +kernel

theorem w_ringControl_1 : (fun s : State => (s.awake = true) ∧ ((7#32 : BitVec 32).getLsbD 2 = false ∨ 4 < (31 : Fin 32).val) ∧ ((s.wrReg 11 (0x1000 + 0x100 * (31 : Fin 32).val + 4 * (63 : Fin 64).val) 0xFFFFFFFF (7#32 : BitVec 32).toNat).guarOk = true)) (base) := by
  decide +kernel

theorem w_ringControl_2 : (fun s : State => (s.awake = true) ∧ ((4#32 : BitVec 32).getLsbD 2 = true) ∧ ((4 : Fin 32).val ≤ 4)) (base) := by
  decide +kernel

theorem w_ringControl_3 : (fun s : State => (s.awake = true) ∧ ((s.wrReg 11 (0x4000 + 0x40 * (40 : Fin 41).val + (if (true : Bool) then 0x10 else 0xC)) (0xFFFFFFFF#32 : BitVec 32).toNat (0x80000000#32 : BitVec 32).toNat).guarOk = true)) (base) := by
  decide +kernel

theorem w_ringControl_4 : (fun s : State => (s.awake = true) ∧ ((s.wrReg 11 (0x4000 + 0x40 * (40 : Fin 41).val + (if (true : Bool) then 0x10 else 0xC)) (0xFFFFFFFF#32 : BitVec 32).toNat (0xFFFFFFFF#32 : BitVec 32).toNat).guarOk = false)) (((base.put RNG_INI_GUAR.enable 1 40).put RNG_INI_GUAR.rate 512 40)) := by
  decide +kernel

theorem w_ringControl_5 : (fun s : State => (s.awake = true) ∧ ((s.sem.waits.any fun w => w.ini == (35 : Fin 41).val) = false)) ((base.updRing fun y => { y with outs := [txnOf 35] })) := by
  decide +kernel

theorem w_ringControl_6 : (fun s : State => (s.awake = true) ∧ (s.get RNG_DMA_STATUS.state (15 : Fin 16).val ≠ 1) ∧ (s.get RNG_DMA_STATUS.state (15 : Fin 16).val ≠ 2) ∧ ((s.freeTag (18 + (15 : Fin 16).val)).isSome = true) ∧ (s.dmaBusy (15 : Fin 16).val = false) ∧ (s.get RNG_DMA_DESC_LO.addr (15 : Fin 16).val < 2 ^ 27) ∧ (s.get RNG_DMA_DESC_HI.addr (15 : Fin 16).val < 2 ^ 8)) ((base.put RNG_DMA_DESC_LO.addr 77 15)) := by
  decide +kernel

theorem w_ringControl_7 : (fun s : State => (s.awake = true) ∧ (s.get RNG_DMA_STATUS.state (15 : Fin 16).val ≠ 1) ∧ (s.get RNG_DMA_STATUS.state (15 : Fin 16).val ≠ 2) ∧ (s.dmaBusy (15 : Fin 16).val = true)) (((base.put RNG_DMA_STATUS.state 5 15).updRing fun y => { y with outs := [txnOf 33] })) := by
  decide +kernel

theorem w_ringControl_8 : (fun s : State => (s.awake = true) ∧ (s.get RNG_DMA_STATUS.state (15 : Fin 16).val = 1 ∨ s.get RNG_DMA_STATUS.state (15 : Fin 16).val = 2)) ((base.put RNG_DMA_STATUS.state 2 15)) := by
  decide +kernel

theorem w_ringControl_9 : (fun s : State => (s.awake = true) ∧ (s.get RNG_DMA_STATUS.state (15 : Fin 16).val = 1 ∨ s.get RNG_DMA_STATUS.state (15 : Fin 16).val = 2) ∧ ((s.dma (15 : Fin 16).val).committed = false) ∧ (s.dmaBusy (15 : Fin 16).val = false)) ((base.put RNG_DMA_STATUS.state 1 15)) := by
  decide +kernel

theorem w_ringControl_10 : (fun s : State => (s.awake = true) ∧ (s.get RNG_DMA_STATUS.state (15 : Fin 16).val = 3 ∨ s.get RNG_DMA_STATUS.state (15 : Fin 16).val = 1 ∧ (s.dma (15 : Fin 16).val).committed = true)) (((base.put RNG_DMA_STATUS.state 1 15).updDma 15 fun d => { d with committed := true })) := by
  decide +kernel

theorem w_ringControl_11 : (fun s : State => (s.awake = true) ∧ (s.get RNG_DMA_STATUS.state (15 : Fin 16).val = 2) ∧ ((s.dma (15 : Fin 16).val).aborting = false) ∧ ((s.freeTag (18 + (15 : Fin 16).val)).isSome = true)) ((base.put RNG_DMA_STATUS.state 2 15)) := by
  decide +kernel

theorem w_ringControl_12 : (fun s : State => (s.awake = true) ∧ (s.get RNG_DMA_STATUS.state (15 : Fin 16).val = 1) ∧ (s.dmaDescDone (15 : Fin 16).val = true) ∧ ((s.dma (15 : Fin 16).val).aborting = false) ∧ ((s.dma (15 : Fin 16).val).desc = some ({ src := 0, dst := 0, rowLen := 1, rows := 1, ctrl := 1, srcStride := 0, dstStride := 0, next := 64 } : Desc)) ∧ (({ src := 0, dst := 0, rowLen := 1, rows := 1, ctrl := 1, srcStride := 0, dstStride := 0, next := 64 } : Desc).ctrl % 2 = 1)) (((base.put RNG_DMA_STATUS.state 1 15).updDma 15 fun d => { d with desc := some { src := 0, dst := 0, rowLen := 1, rows := 1, ctrl := 1, srcStride := 0, dstStride := 0, next := 64 }, row := 1 })) := by
  decide +kernel

theorem w_ringControl_13 : (fun s : State => (s.awake = true) ∧ (s.get RNG_DMA_STATUS.state (15 : Fin 16).val = 1) ∧ (s.dmaDescDone (15 : Fin 16).val = true) ∧ ((s.dma (15 : Fin 16).val).aborting = false) ∧ ((s.dma (15 : Fin 16).val).desc = some ({ src := 0, dst := 0, rowLen := 1, rows := 1, ctrl := 4, srcStride := 0, dstStride := 0, next := 64 } : Desc)) ∧ (({ src := 0, dst := 0, rowLen := 1, rows := 1, ctrl := 4, srcStride := 0, dstStride := 0, next := 64 } : Desc).ctrl % 2 = 0) ∧ (({ src := 0, dst := 0, rowLen := 1, rows := 1, ctrl := 4, srcStride := 0, dstStride := 0, next := 64 } : Desc).ctrl.testBit 2 = true) ∧ (({ src := 0, dst := 0, rowLen := 1, rows := 1, ctrl := 4, srcStride := 0, dstStride := 0, next := 64 } : Desc).next % 32 = 0) ∧ (({ src := 0, dst := 0, rowLen := 1, rows := 1, ctrl := 4, srcStride := 0, dstStride := 0, next := 64 } : Desc).next < 2 ^ 40)) (((base.put RNG_DMA_STATUS.state 1 15).updDma 15 fun d => { d with desc := some { src := 0, dst := 0, rowLen := 1, rows := 1, ctrl := 4, srcStride := 0, dstStride := 0, next := 64 }, row := 1 })) := by
  decide +kernel

theorem w_scratchpadAndMailbox_1 : (fun s : State => (s.awake = true) ∧ (s.get SPD_BANK_STATUS.state ((⟨0x7FFFF8, by decide⟩ : Fin 0x800000).val / 0x100000) = 2)) ((base.put SPD_BANK_STATUS.state 2 7)) := by
  decide +kernel

theorem w_scratchpadAndMailbox_2 : (fun s : State => (s.awake = true) ∧ (s.get SPD_BANK_STATUS.state ((0 : Fin 0x800000).val / 0x100000) = 2)) ((base.put SPD_BANK_STATUS.state 2 0)) := by
  decide +kernel

theorem w_scratchpadAndMailbox_3 : (fun s : State => (s.awake = true)) (((base.put SPD_BANK_STATUS.state 1 7).put RNG_STOP_STATUS.asleep 1 15)) := by
  decide +kernel

theorem w_scratchpadAndMailbox_4 : (fun s : State => (stands s = true) ∧ (s.portKAccess = some (.load (0x10000002 : Nat) (2 : Nat), (0x1000800000 : Nat))) ∧ ((s.th 16).hold = .access { todo := [.load (0x10000002 : Nat) (2 : Nat)], got := [], after := .word (31 : Nat) (2 : Nat) (true : Bool), portK := true, phys := (0x1000800000 : Nat) }) ∧ ((31 : Nat) < 32) ∧ (s.get SPD_MBX_STATUS.state = 2) ∧ ((s.th 16).stopping = false)) (((portK (.load 0x10000002 2) (.word 31 2 true)).setLeMem 0x1000800000 2 0xFFFE)) := by
  decide +kernel

theorem w_scratchpadAndMailbox_5 : (fun s : State => (stands s = true) ∧ (s.portKAccess = some (.store (0x10000001 : Nat) (1 : Nat) (0xFF : Nat), (0x1000800000 : Nat))) ∧ ((s.th 16).hold = .access { todo := [.store (0x10000001 : Nat) (1 : Nat) (0xFF : Nat)], got := [], after := .nothing, portK := true, phys := (0x1000800000 : Nat) }) ∧ (s.get SPD_MBX_STATUS.state = 2) ∧ ((s.th 16).stopping = false)) ((portK (.store 0x10000001 1 0xFF) .nothing)) := by
  decide +kernel

theorem w_scratchpadAndMailbox_6 : (fun s : State => (stands s = true) ∧ (s.get SPD_MBX_STATUS.state ≠ 2)) (((portK (.load 0x10000000 4) (.word 5 4 false)).put SPD_MBX_STATUS.state 1)) := by
  decide +kernel

theorem w_scratchpadAndMailbox_7 : (fun s : State => (s.pwr.held = false) ∧ (s.get SPD_MBX_STATUS.state = 2)) ((base.put SPD_MBX_STATUS.state 2)) := by
  decide +kernel

theorem w_scratchpadAndMailbox_8 : (fun s : State => (stands s = true) ∧ (bits (15#32 : BitVec 32).toNat 0 5 ≤ 16) ∧ (bits (15#32 : BitVec 32).toNat 0 5 = 16 ∨ (16 : Fin 41).val = 16 ∨ (16 : Fin 41).val = 17) ∧ ((s.evEnabled (bits (15#32 : BitVec 32).toNat 0 5)).testBit 19 = true)) ((base.put CPU_THR_EVEN.en 8 3 3)) := by
  decide +kernel

theorem w_scratchpadAndMailbox_9 : (fun s : State => (stands s = true) ∧ (16 < bits (15#32 : BitVec 32).toNat 0 5 ∨ bits (15#32 : BitVec 32).toNat 0 5 < 16 ∧ (18 : Fin 41).val ≠ 16 ∧ (18 : Fin 41).val ≠ 17)) (base) := by
  decide +kernel

theorem w_semaphores_1 : (fun s : State => (s.awake = true) ∧ (s.semMay (17 : Fin 41).val (511 : Fin 512).val = true) ∧ (s.bit SEM_STATE.held (511 : Fin 512).val = false)) (base) := by
  decide +kernel

theorem w_semaphores_2 : (fun s : State => (s.awake = true) ∧ (s.semMay (17 : Fin 41).val (511 : Fin 512).val = true) ∧ (s.bit SEM_STATE.held (511 : Fin 512).val = true) ∧ (s.get SEM_STATE.owner (511 : Fin 512).val ≠ (17 : Fin 41).val)) (((base.put SEM_STATE.held 1 511).put SEM_STATE.owner 5 511)) := by
  decide +kernel

theorem w_semaphores_3 : (fun s : State => (s.awake = true) ∧ (s.semMay (40 : Fin 41).val (511 : Fin 512).val = false)) (base) := by
  decide +kernel

theorem w_semaphores_4 : (fun s : State => (s.awake = true) ∧ (s.semMay (17 : Fin 41).val (511 : Fin 512).val = true) ∧ (s.bit SEM_STATE.held (511 : Fin 512).val = false)) (base) := by
  decide +kernel

theorem w_semaphores_5 : (fun s : State => (s.awake = true) ∧ (s.semMay (17 : Fin 41).val (511 : Fin 512).val = true) ∧ (s.bit SEM_STATE.held (511 : Fin 512).val = true) ∧ (s.get SEM_STATE.owner (511 : Fin 512).val ≠ (17 : Fin 41).val) ∧ ((17 : Fin 41).val ≤ 17) ∧ (s.bit SEM_INI_WAIT.waiting (17 : Fin 41).val = false)) (((base.put SEM_STATE.held 1 511).put SEM_STATE.owner 5 511)) := by
  decide +kernel

theorem w_semaphores_6 : (fun s : State => (s.awake = true) ∧ (s.semMay (17 : Fin 41).val (511 : Fin 512).val = true) ∧ (s.holdsSem (17 : Fin 41).val (511 : Fin 512).val = true) ∧ (s.nextWaiter (511 : Fin 512).val = none)) (((base.put SEM_STATE.held 1 511).put SEM_STATE.owner 17 511)) := by
  decide +kernel

theorem w_semaphores_7 : (fun s : State => (s.awake = true) ∧ (s.semMay (17 : Fin 41).val (511 : Fin 512).val = true) ∧ (s.holdsSem (17 : Fin 41).val (511 : Fin 512).val = true) ∧ (s.nextWaiter (511 : Fin 512).val = some ({ ini := 5, sem := 511, prio := 3 } : SemWait)) ∧ (({ ini := 5, sem := 511, prio := 3 } : SemWait).ini < 41) ∧ (({ ini := 5, sem := 511, prio := 3 } : SemWait).ini ≠ (17 : Fin 41).val)) (((((base.put SEM_STATE.held 1 511).put SEM_STATE.owner 17 511)).updSem fun m => { m with waits := [{ ini := 5, sem := 511, prio := 3 }] })) := by
  decide +kernel

theorem w_semaphores_8 : (fun s : State => (s.awake = true) ∧ (s.semMay (17 : Fin 41).val (511 : Fin 512).val = true) ∧ (s.holdsSem (17 : Fin 41).val (511 : Fin 512).val = false)) (((base.put SEM_STATE.held 1 511).put SEM_STATE.owner 5 511)) := by
  decide +kernel

theorem w_semaphores_9 : (fun s : State => (s.awake = true) ∧ (s.semMay (17 : Fin 41).val (511 : Fin 512).val = true) ∧ ((s.sem.waits.any fun x => decide (x.ini = (17 : Fin 41).val ∧ x.sem = (511 : Fin 512).val)) = true)) ((base.updSem fun m => { m with waits := [{ ini := 17, sem := 511, prio := 3 }] })) := by
  decide +kernel

theorem w_semaphores_10 : (fun s : State => (s.awake = true) ∧ (s.semMay (17 : Fin 41).val (511 : Fin 512).val = true) ∧ (s.holdsSem (17 : Fin 41).val (511 : Fin 512).val = true) ∧ ((s.sem.waits.any fun x => decide (x.ini = (17 : Fin 41).val ∧ x.sem = (511 : Fin 512).val)) = false) ∧ (((17 : Fin 41).val, (511 : Fin 512).val) ∈ s.sem.granted)) (((((base.put SEM_STATE.held 1 511).put SEM_STATE.owner 17 511)).updSem fun m => { m with granted := [(17, 511)] })) := by
  decide +kernel

theorem w_semaphores_11 : (fun s : State => (s.awake = true) ∧ (s.semMay (17 : Fin 41).val (511 : Fin 512).val = true) ∧ (s.holdsSem (17 : Fin 41).val (511 : Fin 512).val = true)) (((base.put SEM_STATE.held 1 511).put SEM_STATE.owner 17 511)) := by
  decide +kernel

theorem w_semaphores_12 : (fun s : State => (s.awake = true) ∧ (s.semMay (17 : Fin 41).val (511 : Fin 512).val = true) ∧ ((15 : Fin 16).val = 0 ∨ 5 < (15 : Fin 16).val)) (base) := by
  decide +kernel

theorem w_semaphores_13 : (fun s : State => (s.awake = true) ∧ (s.bit SEM_STATE.held (511 : Fin 512).val = true) ∧ (s.nextWaiter (511 : Fin 512).val = none)) (((base.put SEM_STATE.held 1 511).put SEM_STATE.owner 5 511)) := by
  decide +kernel

theorem w_semaphores_14 : (fun s : State => (s.awake = true) ∧ (s.iniBit SEM_ADMIN_LO.initiators SEM_ADMIN_HI.initiators (17 : Fin 41).val = true)) (base) := by
  decide +kernel

theorem w_semaphores_15 : (fun s : State => (s.awake = true) ∧ ((⟨0x108, by decide⟩ : Fin 65536).val < 8 → (40 : Fin 41).val ≠ 16) ∧ (8 ≤ (⟨0x108, by decide⟩ : Fin 65536).val → s.iniBit SEM_ADMIN_LO.initiators SEM_ADMIN_HI.initiators (40 : Fin 41).val = false)) (base) := by
  decide +kernel

theorem w_aluGroup_1 : (fun s : State => (runs s ({ core := 4, thread := 0, fetch := .corrected, cycles := 3 } : Issue) = true) ∧ ((8 : Fin 32).val < 24) ∧ ((23 : Fin 32).val < 24) ∧ ((0 : Fin 32).val < 24)) ((running 16 fun h => h)) := by
  decide +kernel

theorem w_aluGroup_2 : (fun s : State => (runs s ({ core := 4, thread := 0, fetch := .corrected, cycles := 3 } : Issue) = true) ∧ ((8 : Fin 32).val < 24) ∧ ((23 : Fin 32).val < 24) ∧ ((0 : Fin 32).val < 24)) ((running 16 fun h => h)) := by
  decide +kernel

theorem w_aluGroup_3 : (fun s : State => (runs s ({ core := 4, thread := 0, fetch := .corrected, cycles := 3 } : Issue) = true) ∧ ((8 : Fin 32).val < 24) ∧ ((23 : Fin 32).val < 24) ∧ ((0 : Fin 32).val < 24)) ((running 16 fun h => h)) := by
  decide +kernel

theorem w_aluGroup_4 : (fun s : State => (runs s ({ core := 1, thread := 1, cycles := 7 } : Issue) = true) ∧ ((23 : Fin 32).val < 24) ∧ ((23 : Fin 32).val < 24) ∧ ((1 : Fin 32).val < 24)) ((running 5 fun h => h)) := by
  decide +kernel

theorem w_aluGroup_5 : (fun s : State => (runs s ({ core := 4, thread := 0, fetch := .corrected, cycles := 3 } : Issue) = true) ∧ ((8 : Fin 32).val < 24) ∧ ((23 : Fin 32).val < 24) ∧ ((0 : Fin 32).val < 24)) ((running 16 fun h => h)) := by
  decide +kernel

theorem w_aluGroup_6 : (fun s : State => (runs s ({ core := 4, thread := 0, fetch := .corrected, cycles := 3 } : Issue) = true) ∧ ((8 : Fin 32).val < 24) ∧ ((23 : Fin 32).val < 24) ∧ ((0 : Fin 32).val < 24)) ((running 16 fun h => h)) := by
  decide +kernel

theorem w_aluGroup_7 : (fun s : State => (runs s ({ core := 4, thread := 0, fetch := .corrected, cycles := 3 } : Issue) = true) ∧ ((8 : Fin 32).val < 24) ∧ ((23 : Fin 32).val < 24) ∧ ((0 : Fin 32).val < 24)) ((running 16 fun h => h)) := by
  decide +kernel

theorem w_aluGroup_8 : (fun s : State => (runs s ({ core := 1, thread := 1, cycles := 7 } : Issue) = true) ∧ ((23 : Fin 32).val < 24) ∧ ((23 : Fin 32).val < 24) ∧ ((1 : Fin 32).val < 24)) ((running 5 fun h => h)) := by
  decide +kernel

theorem w_aluGroup_9 : (fun s : State => (runs s ({ core := 4, thread := 0, fetch := .corrected, cycles := 3 } : Issue) = true) ∧ ((8 : Fin 32).val < 24) ∧ ((23 : Fin 32).val < 24) ∧ ((0 : Fin 32).val < 24)) ((running 16 fun h => h)) := by
  decide +kernel

theorem w_aluGroup_10 : (fun s : State => (runs s ({ core := 1, thread := 1, cycles := 7 } : Issue) = true) ∧ ((23 : Fin 32).val < 24) ∧ ((23 : Fin 32).val < 24) ∧ ((1 : Fin 32).val < 24)) ((running 5 fun h => h)) := by
  decide +kernel

theorem w_aluGroup_11 : (fun s : State => (runs s ({ core := 4, thread := 0, fetch := .corrected, cycles := 3 } : Issue) = true) ∧ ((8 : Fin 32).val < 24) ∧ ((23 : Fin 32).val < 24) ∧ ((0 : Fin 32).val < 24)) ((running 16 fun h => h)) := by
  decide +kernel

theorem w_aluGroup_12 : (fun s : State => (runs s ({ core := 1, thread := 1, cycles := 7 } : Issue) = true) ∧ ((23 : Fin 32).val < 24) ∧ ((23 : Fin 32).val < 24) ∧ ((1 : Fin 32).val < 24)) ((running 5 fun h => h)) := by
  decide +kernel

theorem w_aluGroup_13 : (fun s : State => (runs s ({ core := 4, thread := 0, fetch := .corrected, cycles := 3 } : Issue) = true) ∧ ((8 : Fin 32).val < 24) ∧ ((23 : Fin 32).val < 24) ∧ ((0 : Fin 32).val < 24)) ((running 16 fun h => h)) := by
  decide +kernel

theorem w_aluGroup_14 : (fun s : State => (runs s ({ core := 1, thread := 1, cycles := 7 } : Issue) = true) ∧ ((23 : Fin 32).val < 24) ∧ ((23 : Fin 32).val < 24) ∧ ((1 : Fin 32).val < 24)) ((running 5 fun h => h)) := by
  decide +kernel

theorem w_aluGroup_15 : (fun s : State => (runs s ({ core := 4, thread := 0, fetch := .corrected, cycles := 3 } : Issue) = true) ∧ ((8 : Fin 32).val < 24) ∧ ((23 : Fin 32).val < 24) ∧ ((0 : Fin 32).val < 24)) ((running 16 fun h => h)) := by
  decide +kernel

theorem w_aluGroup_16 : (fun s : State => (runs s ({ core := 1, thread := 1, cycles := 7 } : Issue) = true) ∧ ((23 : Fin 32).val < 24) ∧ ((23 : Fin 32).val < 24) ∧ ((1 : Fin 32).val < 24)) ((running 5 fun h => h)) := by
  decide +kernel

theorem w_aluGroup_17 : (fun s : State => (runs s ({ core := 1, thread := 1, cycles := 7 } : Issue) = true) ∧ ((23 : Fin 32).val < 24) ∧ ((8 : Fin 32).val < 24)) ((running 5 fun h => h)) := by
  decide +kernel

theorem w_aluGroup_18 : (fun s : State => (runs s ({ core := 1, thread := 1, cycles := 7 } : Issue) = true) ∧ ((23 : Fin 32).val < 24) ∧ ((8 : Fin 32).val < 24)) ((running 5 fun h => h)) := by
  decide +kernel

theorem w_aluGroup_19 : (fun s : State => (runs s ({ core := 1, thread := 1, cycles := 7 } : Issue) = true) ∧ ((23 : Fin 32).val < 24) ∧ ((8 : Fin 32).val < 24)) ((running 5 fun h => h)) := by
  decide +kernel

theorem w_aluGroup_20 : (fun s : State => (runs s ({ core := 1, thread := 1, cycles := 7 } : Issue) = true) ∧ ((23 : Fin 32).val < 24) ∧ ((8 : Fin 32).val < 24)) ((running 5 fun h => h)) := by
  decide +kernel

theorem w_aluGroup_21 : (fun s : State => (runs s ({ core := 1, thread := 1, cycles := 7 } : Issue) = true) ∧ ((23 : Fin 32).val < 24) ∧ ((8 : Fin 32).val < 24)) ((running 5 fun h => h)) := by
  decide +kernel

theorem w_aluGroup_22 : (fun s : State => (runs s ({ core := 1, thread := 1, cycles := 7 } : Issue) = true) ∧ ((23 : Fin 32).val < 24) ∧ ((8 : Fin 32).val < 24)) ((running 5 fun h => h)) := by
  decide +kernel

theorem w_aluGroup_23 : (fun s : State => (runs s ({ core := 1, thread := 1, cycles := 7 } : Issue) = true) ∧ (24 ≤ (24 : Fin 32).val ∨ 24 ≤ (31 : Fin 32).val ∨ 24 ≤ (23 : Fin 32).val) ∧ ((s.th (thr ({ core := 1, thread := 1, cycles := 7 } : Issue))).inTrap = false)) ((running 5 fun h => h)) := by
  decide +kernel

theorem w_shiftImmediate_1 : (fun s : State => (runs s ({ core := 1, thread := 1, cycles := 7 } : Issue) = true) ∧ ((23 : Fin 32).val < 24) ∧ ((8 : Fin 32).val < 24)) ((running 5 fun h => h)) := by
  decide +kernel

theorem w_shiftImmediate_2 : (fun s : State => (runs s ({ core := 1, thread := 1, cycles := 7 } : Issue) = true) ∧ ((23 : Fin 32).val < 24) ∧ ((8 : Fin 32).val < 24)) ((running 5 fun h => h)) := by
  decide +kernel

theorem w_shiftImmediate_3 : (fun s : State => (runs s ({ core := 1, thread := 1, cycles := 7 } : Issue) = true) ∧ ((23 : Fin 32).val < 24) ∧ ((8 : Fin 32).val < 24)) ((running 5 fun h => h)) := by
  decide +kernel

theorem w_shiftImmediate_4 : (fun s : State => (runs s ({ core := 1, thread := 1, cycles := 7 } : Issue) = true) ∧ ((23 : Fin 32).val < 24) ∧ ((8 : Fin 32).val < 24)) ((running 5 fun h => h)) := by
  decide +kernel

theorem w_shiftImmediate_same : (fun s : State => runs s { core := 1, thread := 1, cycles := 7 } = true ∧ word s { core := 1, thread := 1, cycles := 7 } 8 = BitVec.ofNat 32 (31 : Fin 32).val) (running 5 fun h => h.setReg 8 31) := by decide +kernel

theorem w_shiftImmediate_illegal : (fun s : State => runs s { core := 1, thread := 1, cycles := 7 } = true ∧ (24 ≤ (24 : Fin 32).val ∨ 24 ≤ (0 : Fin 32).val) ∧ (s.th (thr { core := 1, thread := 1, cycles := 7 })).inTrap = false) (running 5 fun h => h) := by decide +kernel

theorem w_immediateOperations_1 : (fun s : State => (runs s ({ core := 1, thread := 1, cycles := 7 } : Issue) = true) ∧ ((23 : Fin 32).val < 24) ∧ ((8 : Fin 32).val < 24)) ((running 5 fun h => h)) := by
  decide +kernel

theorem w_immediateOperations_2 : (fun s : State => (runs s ({ core := 1, thread := 1, cycles := 7 } : Issue) = true) ∧ ((23 : Fin 32).val < 24) ∧ ((8 : Fin 32).val < 24)) ((running 5 fun h => h)) := by
  decide +kernel

theorem w_immediateOperations_3 : (fun s : State => (runs s ({ core := 1, thread := 1, cycles := 7 } : Issue) = true) ∧ ((23 : Fin 32).val < 24) ∧ ((8 : Fin 32).val < 24)) ((running 5 fun h => h)) := by
  decide +kernel

theorem w_immediateOperations_4 : (fun s : State => (runs s ({ core := 1, thread := 1, cycles := 7 } : Issue) = true) ∧ ((23 : Fin 32).val < 24) ∧ ((8 : Fin 32).val < 24)) ((running 5 fun h => h)) := by
  decide +kernel

theorem w_immediateOperations_5 : (fun s : State => (runs s ({ core := 1, thread := 1, cycles := 7 } : Issue) = true) ∧ ((23 : Fin 32).val < 24) ∧ ((8 : Fin 32).val < 24)) ((running 5 fun h => h)) := by
  decide +kernel

theorem w_immediateOperations_6 : (fun s : State => (runs s ({ core := 1, thread := 1, cycles := 7 } : Issue) = true) ∧ ((23 : Fin 32).val < 24) ∧ ((8 : Fin 32).val < 24)) ((running 5 fun h => h)) := by
  decide +kernel

theorem w_immediateOperations_7 : (fun s : State => (runs s ({ core := 1, thread := 1, cycles := 7 } : Issue) = true) ∧ ((23 : Fin 32).val < 24)) ((running 5 fun h => h)) := by
  decide +kernel

theorem w_immediateOperations_8 : (fun s : State => (runs s ({ core := 1, thread := 1, cycles := 7 } : Issue) = true) ∧ ((23 : Fin 32).val < 24)) ((running 5 fun h => h)) := by
  decide +kernel

theorem w_immediateOperations_illegal : (fun s : State => runs s { core := 1, thread := 1, cycles := 7 } = true ∧ 24 ≤ (24 : Fin 32).val ∧ (s.th (thr { core := 1, thread := 1, cycles := 7 })).inTrap = false) (running 5 fun h => h) := by decide +kernel

theorem w_immediateOperations_constant : (fun s : State => runs s { core := 1, thread := 1, cycles := 7 } = true ∧ (match exec (.lui { core := 1, thread := 1, cycles := 7 } 23 0xFFFF#16) s with | .next t => runs t { core := 1, thread := 1, cycles := 7 } | _ => false) = true ∧ (match exec (.lui { core := 1, thread := 1, cycles := 7 } 23 0xFFFF#16) s with | .next t => (match exec (.ori { core := 1, thread := 1, cycles := 7 } 23 23 0x8000#16) t with | .next _ => true | _ => false) | _ => false) = true) (running 5 fun h => h) := by decide +kernel

theorem w_immediateOperations_reach : pcOk (thr { core := 1, thread := 1, cycles := 7 }) 0 = true ∧ pcOk (thr { core := 1, thread := 1, cycles := 7 }) 0x1FFFC = true := by decide +kernel

theorem w_productsAndDivisions_1 : (fun s : State => (runs s ({ core := 1, thread := 1, cycles := 7 } : Issue) = true) ∧ ((23 : Fin 32).val < 24) ∧ ((23 : Fin 32).val < 24) ∧ ((1 : Fin 32).val < 24)) ((running 5 fun h => h)) := by
  decide +kernel

theorem w_productsAndDivisions_2 : (fun s : State => (runs s ({ core := 1, thread := 1, cycles := 7 } : Issue) = true) ∧ ((23 : Fin 32).val < 24) ∧ ((23 : Fin 32).val < 24) ∧ ((1 : Fin 32).val < 24)) ((running 5 fun h => h)) := by
  decide +kernel

theorem w_productsAndDivisions_3 : (fun s : State => (runs s ({ core := 1, thread := 1, cycles := 7 } : Issue) = true) ∧ ((23 : Fin 32).val < 24) ∧ ((23 : Fin 32).val < 24) ∧ ((1 : Fin 32).val < 24)) ((running 5 fun h => h)) := by
  decide +kernel

theorem w_productsAndDivisions_4 : (fun s : State => (runs s ({ core := 1, thread := 1, cycles := 7 } : Issue) = true) ∧ ((23 : Fin 32).val < 24) ∧ ((23 : Fin 32).val < 24) ∧ ((1 : Fin 32).val < 24) ∧ (s.dividing ({ core := 1, thread := 1, cycles := 7 } : Issue).core.val = false) ∧ (word s ({ core := 1, thread := 1, cycles := 7 } : Issue) (1 : Fin 32) ≠ 0#32)) ((running 5 fun h => { h with g := [(1, 0xFFFFFFFF)] })) := by
  decide +kernel

theorem w_productsAndDivisions_5 : (fun s : State => (runs s ({ core := 1, thread := 1, cycles := 7 } : Issue) = true) ∧ ((23 : Fin 32).val < 24) ∧ ((23 : Fin 32).val < 24) ∧ ((1 : Fin 32).val < 24) ∧ (s.dividing ({ core := 1, thread := 1, cycles := 7 } : Issue).core.val = false) ∧ (word s ({ core := 1, thread := 1, cycles := 7 } : Issue) (1 : Fin 32) ≠ 0#32)) ((running 5 fun h => { h with g := [(1, 0xFFFFFFFF)] })) := by
  decide +kernel

theorem w_productsAndDivisions_6 : (fun s : State => (runs s ({ core := 1, thread := 1, cycles := 7 } : Issue) = true) ∧ ((23 : Fin 32).val < 24) ∧ ((23 : Fin 32).val < 24) ∧ ((1 : Fin 32).val < 24) ∧ (s.dividing ({ core := 1, thread := 1, cycles := 7 } : Issue).core.val = false) ∧ (word s ({ core := 1, thread := 1, cycles := 7 } : Issue) (1 : Fin 32) ≠ 0#32)) ((running 5 fun h => { h with g := [(1, 0xFFFFFFFF)] })) := by
  decide +kernel

theorem w_productsAndDivisions_7 : (fun s : State => (runs s ({ core := 1, thread := 1, cycles := 7 } : Issue) = true) ∧ ((23 : Fin 32).val < 24) ∧ ((23 : Fin 32).val < 24) ∧ ((1 : Fin 32).val < 24) ∧ (s.dividing ({ core := 1, thread := 1, cycles := 7 } : Issue).core.val = false) ∧ (word s ({ core := 1, thread := 1, cycles := 7 } : Issue) (1 : Fin 32) ≠ 0#32)) ((running 5 fun h => { h with g := [(1, 0xFFFFFFFF)] })) := by
  decide +kernel

theorem w_productsAndDivisions_8 : (fun s : State => (runs s ({ core := 1, thread := 1, cycles := 7 } : Issue) = true) ∧ ((23 : Fin 32).val < 24) ∧ ((23 : Fin 32).val < 24) ∧ ((1 : Fin 32).val < 24) ∧ (s.dividing ({ core := 1, thread := 1, cycles := 7 } : Issue).core.val = false) ∧ (word s ({ core := 1, thread := 1, cycles := 7 } : Issue) (1 : Fin 32) = 0#32) ∧ ((s.th (thr ({ core := 1, thread := 1, cycles := 7 } : Issue))).inTrap = false)) ((running 5 fun h => h)) := by
  decide +kernel

theorem w_productsAndDivisions_9 : (fun s : State => (runs s ({ core := 1, thread := 1, cycles := 7 } : Issue) = true) ∧ ((23 : Fin 32).val < 24) ∧ ((23 : Fin 32).val < 24) ∧ ((1 : Fin 32).val < 24) ∧ (s.dividing ({ core := 1, thread := 1, cycles := 7 } : Issue).core.val = true)) (((running 5 fun h => h).updTh 4 fun h => { h with hold := .divide 1 1 })) := by
  decide +kernel

theorem w_productsAndDivisions_10 : (fun s : State => ((s.th (4 * (1 : Fin 5).val + (1 : Fin 4).val)).hold = .divide (23 : Nat) (77 : Nat)) ∧ ((s.th (4 * (1 : Fin 5).val + (1 : Fin 4).val)).stopping = false)) ((running 5 fun h => { h with hold := .divide 23 77 })) := by
  decide +kernel

theorem w_localAccesses_1 : (fun s : State => (runs s ({ core := 1, thread := 1, cycles := 7 } : Issue) = true) ∧ ((23 : Fin 32).val < 24) ∧ ((0 : Fin 32).val < 24) ∧ (dataAt s ({ core := 1, thread := 1, cycles := 7 } : Issue) (0 : Fin 32) (0x7FF8#16 : BitVec 16) % 1 = 0) ∧ (dataAt s ({ core := 1, thread := 1, cycles := 7 } : Issue) (0 : Fin 32) (0x7FF8#16 : BitVec 16) + 1 ≤ lramSize ({ core := 1, thread := 1, cycles := 7 } : Issue).core.val) ∧ (eccBad ({ core := 1, thread := 1, cycles := 7 } : Issue).data = false) ∧ ((s.th (thr ({ core := 1, thread := 1, cycles := 7 } : Issue))).stopping = false)) (((running 5 fun h => h).setLeMem (lramBase 1 + 0x7FF8) 8 0x8182838485868788)) := by
  decide +kernel

theorem w_localAccesses_2 : (fun s : State => (runs s ({ core := 1, thread := 1, cycles := 7 } : Issue) = true) ∧ ((23 : Fin 32).val < 24) ∧ ((0 : Fin 32).val < 24) ∧ (dataAt s ({ core := 1, thread := 1, cycles := 7 } : Issue) (0 : Fin 32) (0x7FF8#16 : BitVec 16) % 1 = 0) ∧ (dataAt s ({ core := 1, thread := 1, cycles := 7 } : Issue) (0 : Fin 32) (0x7FF8#16 : BitVec 16) + 1 ≤ lramSize ({ core := 1, thread := 1, cycles := 7 } : Issue).core.val) ∧ (eccBad ({ core := 1, thread := 1, cycles := 7 } : Issue).data = false) ∧ ((s.th (thr ({ core := 1, thread := 1, cycles := 7 } : Issue))).stopping = false)) (((running 5 fun h => h).setLeMem (lramBase 1 + 0x7FF8) 8 0x8182838485868788)) := by
  decide +kernel

theorem w_localAccesses_3 : (fun s : State => (runs s ({ core := 1, thread := 1, cycles := 7 } : Issue) = true) ∧ ((23 : Fin 32).val < 24) ∧ ((0 : Fin 32).val < 24) ∧ (dataAt s ({ core := 1, thread := 1, cycles := 7 } : Issue) (0 : Fin 32) (0x7FF8#16 : BitVec 16) % 2 = 0) ∧ (dataAt s ({ core := 1, thread := 1, cycles := 7 } : Issue) (0 : Fin 32) (0x7FF8#16 : BitVec 16) + 2 ≤ lramSize ({ core := 1, thread := 1, cycles := 7 } : Issue).core.val) ∧ (eccBad ({ core := 1, thread := 1, cycles := 7 } : Issue).data = false) ∧ ((s.th (thr ({ core := 1, thread := 1, cycles := 7 } : Issue))).stopping = false)) (((running 5 fun h => h).setLeMem (lramBase 1 + 0x7FF8) 8 0x8182838485868788)) := by
  decide +kernel

theorem w_localAccesses_4 : (fun s : State => (runs s ({ core := 1, thread := 1, cycles := 7 } : Issue) = true) ∧ ((23 : Fin 32).val < 24) ∧ ((0 : Fin 32).val < 24) ∧ (dataAt s ({ core := 1, thread := 1, cycles := 7 } : Issue) (0 : Fin 32) (0x7FF8#16 : BitVec 16) % 2 = 0) ∧ (dataAt s ({ core := 1, thread := 1, cycles := 7 } : Issue) (0 : Fin 32) (0x7FF8#16 : BitVec 16) + 2 ≤ lramSize ({ core := 1, thread := 1, cycles := 7 } : Issue).core.val) ∧ (eccBad ({ core := 1, thread := 1, cycles := 7 } : Issue).data = false) ∧ ((s.th (thr ({ core := 1, thread := 1, cycles := 7 } : Issue))).stopping = false)) (((running 5 fun h => h).setLeMem (lramBase 1 + 0x7FF8) 8 0x8182838485868788)) := by
  decide +kernel

theorem w_localAccesses_5 : (fun s : State => (runs s ({ core := 1, thread := 1, cycles := 7 } : Issue) = true) ∧ ((23 : Fin 32).val < 24) ∧ ((0 : Fin 32).val < 24) ∧ (dataAt s ({ core := 1, thread := 1, cycles := 7 } : Issue) (0 : Fin 32) (0x7FF8#16 : BitVec 16) % 4 = 0) ∧ (dataAt s ({ core := 1, thread := 1, cycles := 7 } : Issue) (0 : Fin 32) (0x7FF8#16 : BitVec 16) + 4 ≤ lramSize ({ core := 1, thread := 1, cycles := 7 } : Issue).core.val) ∧ (eccBad ({ core := 1, thread := 1, cycles := 7 } : Issue).data = false) ∧ ((s.th (thr ({ core := 1, thread := 1, cycles := 7 } : Issue))).stopping = false)) (((running 5 fun h => h).setLeMem (lramBase 1 + 0x7FF8) 8 0x8182838485868788)) := by
  decide +kernel

theorem w_localAccesses_6 : (fun s : State => (runs s ({ core := 1, thread := 1, cycles := 7 } : Issue) = true) ∧ ((22 : Fin 32).val < 24) ∧ ((0 : Fin 32).val < 24) ∧ ((22 : Fin 32).val % 2 = 0) ∧ (dataAt s ({ core := 1, thread := 1, cycles := 7 } : Issue) (0 : Fin 32) (0x7FF8#16 : BitVec 16) % 8 = 0) ∧ (dataAt s ({ core := 1, thread := 1, cycles := 7 } : Issue) (0 : Fin 32) (0x7FF8#16 : BitVec 16) + 8 ≤ lramSize ({ core := 1, thread := 1, cycles := 7 } : Issue).core.val) ∧ (eccBad ({ core := 1, thread := 1, cycles := 7 } : Issue).data = false) ∧ ((s.th (thr ({ core := 1, thread := 1, cycles := 7 } : Issue))).stopping = false)) (((running 5 fun h => h).setLeMem (lramBase 1 + 0x7FF8) 8 0x8182838485868788)) := by
  decide +kernel

theorem w_localAccesses_7 : (fun s : State => (runs s ({ core := 1, thread := 1, cycles := 7 } : Issue) = true) ∧ (({ core := 1, thread := 1, cycles := 7 } : Issue).core.val ≠ 4) ∧ ((0 : Fin 32).val < 24) ∧ (dataAt s ({ core := 1, thread := 1, cycles := 7 } : Issue) (0 : Fin 32) (0x7FF8#16 : BitVec 16) % 4 = 0) ∧ (dataAt s ({ core := 1, thread := 1, cycles := 7 } : Issue) (0 : Fin 32) (0x7FF8#16 : BitVec 16) + 4 ≤ lramSize ({ core := 1, thread := 1, cycles := 7 } : Issue).core.val) ∧ (eccBad ({ core := 1, thread := 1, cycles := 7 } : Issue).data = false) ∧ ((s.th (thr ({ core := 1, thread := 1, cycles := 7 } : Issue))).stopping = false)) (((running 5 fun h => h).setLeMem (lramBase 1 + 0x7FF8) 8 0x8182838485868788)) := by
  decide +kernel

theorem w_localAccesses_8 : (fun s : State => (runs s ({ core := 1, thread := 1, cycles := 7 } : Issue) = true) ∧ (({ core := 1, thread := 1, cycles := 7 } : Issue).core.val ≠ 4) ∧ ((0 : Fin 32).val < 24) ∧ (dataAt s ({ core := 1, thread := 1, cycles := 7 } : Issue) (0 : Fin 32) (0x7FF8#16 : BitVec 16) % 8 = 0) ∧ (dataAt s ({ core := 1, thread := 1, cycles := 7 } : Issue) (0 : Fin 32) (0x7FF8#16 : BitVec 16) + 8 ≤ lramSize ({ core := 1, thread := 1, cycles := 7 } : Issue).core.val) ∧ (eccBad ({ core := 1, thread := 1, cycles := 7 } : Issue).data = false) ∧ ((s.th (thr ({ core := 1, thread := 1, cycles := 7 } : Issue))).stopping = false)) (((running 5 fun h => h).setLeMem (lramBase 1 + 0x7FF8) 8 0x8182838485868788)) := by
  decide +kernel

theorem w_localAccesses_9 : (fun s : State => (runs s ({ core := 1, thread := 1, cycles := 7 } : Issue) = true) ∧ ((23 : Fin 32).val < 24) ∧ ((0 : Fin 32).val < 24) ∧ ((s.th (thr ({ core := 1, thread := 1, cycles := 7 } : Issue))).stopping = false) ∧ (dataAt s ({ core := 1, thread := 1, cycles := 7 } : Issue) (0 : Fin 32) (0x7FF8#16 : BitVec 16) % 1 = 0) ∧ (dataAt s ({ core := 1, thread := 1, cycles := 7 } : Issue) (0 : Fin 32) (0x7FF8#16 : BitVec 16) + 1 ≤ lramSize ({ core := 1, thread := 1, cycles := 7 } : Issue).core.val)) ((running 5 fun h => h.setReg 23 0x81828384)) := by
  decide +kernel

theorem w_localAccesses_10 : (fun s : State => (runs s ({ core := 1, thread := 1, cycles := 7 } : Issue) = true) ∧ ((23 : Fin 32).val < 24) ∧ ((0 : Fin 32).val < 24) ∧ ((s.th (thr ({ core := 1, thread := 1, cycles := 7 } : Issue))).stopping = false) ∧ (dataAt s ({ core := 1, thread := 1, cycles := 7 } : Issue) (0 : Fin 32) (0x7FF8#16 : BitVec 16) % 2 = 0) ∧ (dataAt s ({ core := 1, thread := 1, cycles := 7 } : Issue) (0 : Fin 32) (0x7FF8#16 : BitVec 16) + 2 ≤ lramSize ({ core := 1, thread := 1, cycles := 7 } : Issue).core.val)) ((running 5 fun h => h.setReg 23 0x81828384)) := by
  decide +kernel

theorem w_localAccesses_11 : (fun s : State => (runs s ({ core := 1, thread := 1, cycles := 7 } : Issue) = true) ∧ ((23 : Fin 32).val < 24) ∧ ((0 : Fin 32).val < 24) ∧ ((s.th (thr ({ core := 1, thread := 1, cycles := 7 } : Issue))).stopping = false) ∧ (dataAt s ({ core := 1, thread := 1, cycles := 7 } : Issue) (0 : Fin 32) (0x7FF8#16 : BitVec 16) % 4 = 0) ∧ (dataAt s ({ core := 1, thread := 1, cycles := 7 } : Issue) (0 : Fin 32) (0x7FF8#16 : BitVec 16) + 4 ≤ lramSize ({ core := 1, thread := 1, cycles := 7 } : Issue).core.val)) ((running 5 fun h => h.setReg 23 0x81828384)) := by
  decide +kernel

theorem w_localAccesses_12 : (fun s : State => (runs s ({ core := 1, thread := 1, cycles := 7 } : Issue) = true) ∧ ((22 : Fin 32).val < 24) ∧ ((0 : Fin 32).val < 24) ∧ ((22 : Fin 32).val % 2 = 0) ∧ ((s.th (thr ({ core := 1, thread := 1, cycles := 7 } : Issue))).stopping = false) ∧ (dataAt s ({ core := 1, thread := 1, cycles := 7 } : Issue) (0 : Fin 32) (0x7FF8#16 : BitVec 16) % 8 = 0) ∧ (dataAt s ({ core := 1, thread := 1, cycles := 7 } : Issue) (0 : Fin 32) (0x7FF8#16 : BitVec 16) + 8 ≤ lramSize ({ core := 1, thread := 1, cycles := 7 } : Issue).core.val)) ((running 5 fun h => h.setReg 23 0x81828384)) := by
  decide +kernel

theorem w_localAccesses_13 : (fun s : State => (runs s ({ core := 1, thread := 1, cycles := 7 } : Issue) = true) ∧ (({ core := 1, thread := 1, cycles := 7 } : Issue).core.val ≠ 4) ∧ ((0 : Fin 32).val < 24) ∧ ((s.th (thr ({ core := 1, thread := 1, cycles := 7 } : Issue))).stopping = false) ∧ (dataAt s ({ core := 1, thread := 1, cycles := 7 } : Issue) (0 : Fin 32) (0x7FF8#16 : BitVec 16) % 4 = 0) ∧ (dataAt s ({ core := 1, thread := 1, cycles := 7 } : Issue) (0 : Fin 32) (0x7FF8#16 : BitVec 16) + 4 ≤ lramSize ({ core := 1, thread := 1, cycles := 7 } : Issue).core.val)) ((running 5 fun h => h)) := by
  decide +kernel

theorem w_localAccesses_14 : (fun s : State => (runs s ({ core := 1, thread := 1, cycles := 7 } : Issue) = true) ∧ (({ core := 1, thread := 1, cycles := 7 } : Issue).core.val ≠ 4) ∧ ((0 : Fin 32).val < 24) ∧ ((s.th (thr ({ core := 1, thread := 1, cycles := 7 } : Issue))).stopping = false) ∧ (dataAt s ({ core := 1, thread := 1, cycles := 7 } : Issue) (0 : Fin 32) (0x7FF8#16 : BitVec 16) % 8 = 0) ∧ (dataAt s ({ core := 1, thread := 1, cycles := 7 } : Issue) (0 : Fin 32) (0x7FF8#16 : BitVec 16) + 8 ≤ lramSize ({ core := 1, thread := 1, cycles := 7 } : Issue).core.val)) ((running 5 fun h => h)) := by
  decide +kernel

theorem w_localAccesses_15 : (fun s : State => (runs s ({ core := 1, thread := 1, cycles := 7 } : Issue) = true) ∧ ((23 : Fin 32).val < 24) ∧ ((23 : Fin 32).val < 24) ∧ ((1 : Fin 32).val < 24) ∧ (s.settled (thr ({ core := 1, thread := 1, cycles := 7 } : Issue)) = true) ∧ ((word s ({ core := 1, thread := 1, cycles := 7 } : Issue) (23 : Fin 32)).toNat % 4 = 0) ∧ ((word s ({ core := 1, thread := 1, cycles := 7 } : Issue) (23 : Fin 32)).toNat + 4 ≤ lramSize ({ core := 1, thread := 1, cycles := 7 } : Issue).core.val) ∧ (eccBad ({ core := 1, thread := 1, cycles := 7 } : Issue).data = false) ∧ ((s.th (thr ({ core := 1, thread := 1, cycles := 7 } : Issue))).stopping = false)) (((running 5 fun h => (h.setReg 23 64).setReg 1 0x80000001).setLeMem (lramBase 1 + 64) 4 0xFFFFFFFF)) := by
  decide +kernel

theorem w_localAccesses_16 : (fun s : State => (runs s ({ core := 1, thread := 1, cycles := 7 } : Issue) = true) ∧ ((23 : Fin 32).val < 24) ∧ ((23 : Fin 32).val < 24) ∧ ((1 : Fin 32).val < 24) ∧ (s.settled (thr ({ core := 1, thread := 1, cycles := 7 } : Issue)) = true) ∧ ((word s ({ core := 1, thread := 1, cycles := 7 } : Issue) (23 : Fin 32)).toNat % 4 = 0) ∧ ((word s ({ core := 1, thread := 1, cycles := 7 } : Issue) (23 : Fin 32)).toNat + 4 ≤ lramSize ({ core := 1, thread := 1, cycles := 7 } : Issue).core.val) ∧ (eccBad ({ core := 1, thread := 1, cycles := 7 } : Issue).data = false) ∧ ((s.th (thr ({ core := 1, thread := 1, cycles := 7 } : Issue))).stopping = false)) (((running 5 fun h => (h.setReg 23 64).setReg 1 0x80000001).setLeMem (lramBase 1 + 64) 4 0xFFFFFFFF)) := by
  decide +kernel

theorem w_accessTraps_1 : (fun s : State => (runs s ({ core := 1, thread := 1, cycles := 7 } : Issue) = true) ∧ ((23 : Fin 32).val < 24) ∧ ((0 : Fin 32).val < 24) ∧ ((s.th (thr ({ core := 1, thread := 1, cycles := 7 } : Issue))).inTrap = false) ∧ (dataAt s ({ core := 1, thread := 1, cycles := 7 } : Issue) (0 : Fin 32) (0xFFFE#16 : BitVec 16) % 4 ≠ 0)) ((running 5 fun h => h)) := by
  decide +kernel

theorem w_accessTraps_2 : (fun s : State => (runs s ({ core := 1, thread := 1, cycles := 7 } : Issue) = true) ∧ ((23 : Fin 32).val < 24) ∧ ((0 : Fin 32).val < 24) ∧ ((s.th (thr ({ core := 1, thread := 1, cycles := 7 } : Issue))).inTrap = false) ∧ (dataAt s ({ core := 1, thread := 1, cycles := 7 } : Issue) (0 : Fin 32) (0x7FFF#16 : BitVec 16) % 2 ≠ 0)) ((running 5 fun h => h)) := by
  decide +kernel

theorem w_accessTraps_3 : (fun s : State => (runs s ({ core := 1, thread := 1, cycles := 7 } : Issue) = true) ∧ ((23 : Fin 32).val < 24) ∧ ((23 : Fin 32).val < 24) ∧ ((s.th (thr ({ core := 1, thread := 1, cycles := 7 } : Issue))).inTrap = false) ∧ ((23 : Fin 32).val % 2 = 1)) ((running 5 fun h => h)) := by
  decide +kernel

theorem w_accessTraps_4 : (fun s : State => (runs s ({ core := 1, thread := 1, cycles := 7 } : Issue) = true) ∧ ((23 : Fin 32).val < 24) ∧ ((8 : Fin 32).val < 24) ∧ ((s.th (thr ({ core := 1, thread := 1, cycles := 7 } : Issue))).inTrap = false) ∧ (dataAt s ({ core := 1, thread := 1, cycles := 7 } : Issue) (8 : Fin 32) (0#16 : BitVec 16) % 4 = 0) ∧ (dataAt s ({ core := 1, thread := 1, cycles := 7 } : Issue) (8 : Fin 32) (0#16 : BitVec 16) < 2 ^ 28) ∧ (lramSize ({ core := 1, thread := 1, cycles := 7 } : Issue).core.val ≤ dataAt s ({ core := 1, thread := 1, cycles := 7 } : Issue) (8 : Fin 32) (0#16 : BitVec 16))) ((running 5 fun h => h.setReg 8 0x20000)) := by
  decide +kernel

theorem w_accessTraps_5 : (fun s : State => (runs s ({ core := 1, thread := 1, cycles := 7 } : Issue) = true) ∧ ((23 : Fin 32).val < 24) ∧ ((8 : Fin 32).val < 24) ∧ ((s.th (thr ({ core := 1, thread := 1, cycles := 7 } : Issue))).inTrap = false) ∧ (dataAt s ({ core := 1, thread := 1, cycles := 7 } : Issue) (8 : Fin 32) (0#16 : BitVec 16) % 4 = 0) ∧ ((s.aperture ({ core := 1, thread := 1, cycles := 7 } : Issue).core.val (dataAt s ({ core := 1, thread := 1, cycles := 7 } : Issue) (8 : Fin 32) (0#16 : BitVec 16) / 2 ^ 28)).valid = false)) ((running 5 fun h => h.setReg 8 0xE0000000)) := by
  decide +kernel

theorem w_accessTraps_6 : (fun s : State => (runs s ({ core := 1, thread := 1, cycles := 7 } : Issue) = true) ∧ ((23 : Fin 32).val < 24) ∧ ((23 : Fin 32).val < 24) ∧ ((1 : Fin 32).val < 24) ∧ ((s.th (thr ({ core := 1, thread := 1, cycles := 7 } : Issue))).inTrap = false) ∧ (s.settled (thr ({ core := 1, thread := 1, cycles := 7 } : Issue)) = true) ∧ ((word s ({ core := 1, thread := 1, cycles := 7 } : Issue) (23 : Fin 32)).toNat % 4 = 0) ∧ (0xF0000000 ≤ (word s ({ core := 1, thread := 1, cycles := 7 } : Issue) (23 : Fin 32)).toNat)) ((running 5 fun h => h.setReg 23 0xF0000000)) := by
  decide +kernel

theorem w_accessTraps_7 : (fun s : State => (runs s ({ core := 1, thread := 1, data := [(4, .uncorrectable)] } : Issue) = true) ∧ ((23 : Fin 32).val < 24) ∧ ((0 : Fin 32).val < 24) ∧ ((s.th (thr ({ core := 1, thread := 1, data := [(4, .uncorrectable)] } : Issue))).inTrap = false) ∧ (dataAt s ({ core := 1, thread := 1, data := [(4, .uncorrectable)] } : Issue) (0 : Fin 32) (4#16 : BitVec 16) % 4 = 0) ∧ (dataAt s ({ core := 1, thread := 1, data := [(4, .uncorrectable)] } : Issue) (0 : Fin 32) (4#16 : BitVec 16) + 4 ≤ lramSize ({ core := 1, thread := 1, data := [(4, .uncorrectable)] } : Issue).core.val) ∧ (({ core := 1, thread := 1, data := [(4, .uncorrectable)] } : Issue).data = [(dataAt s ({ core := 1, thread := 1, data := [(4, .uncorrectable)] } : Issue) (0 : Fin 32) (4#16 : BitVec 16), .uncorrectable)]) ∧ (({ core := 1, thread := 1, data := [(4, .uncorrectable)] } : Issue).fetch = .good)) ((running 5 fun h => h)) := by
  decide +kernel

theorem w_accessTraps_8 : (fun s : State => (runs s ({ core := 1, thread := 1, cycles := 7 } : Issue) = true) ∧ ((23 : Fin 32).val < 24) ∧ ((8 : Fin 32).val < 24) ∧ (dataAt s ({ core := 1, thread := 1, cycles := 7 } : Issue) (8 : Fin 32) (0xFFFC#16 : BitVec 16) % 4 = 0) ∧ (2 ^ 28 ≤ dataAt s ({ core := 1, thread := 1, cycles := 7 } : Issue) (8 : Fin 32) (0xFFFC#16 : BitVec 16)) ∧ ((s.aperture ({ core := 1, thread := 1, cycles := 7 } : Issue).core.val (dataAt s ({ core := 1, thread := 1, cycles := 7 } : Issue) (8 : Fin 32) (0xFFFC#16 : BitVec 16) / 2 ^ 28)).valid = true) ∧ ((s.freeTag (thr ({ core := 1, thread := 1, cycles := 7 } : Issue))).isSome = true) ∧ (({ core := 1, thread := 1, cycles := 7 } : Issue).core.val ≠ 4)) ((running 5 fun h => h.setReg 8 0xF0000100)) := by
  decide +kernel

theorem w_accessTraps_9 : (fun s : State => (runs s ({ core := 1, thread := 1, cycles := 7 } : Issue) = true) ∧ ((23 : Fin 32).val < 24) ∧ ((8 : Fin 32).val < 24) ∧ (dataAt s ({ core := 1, thread := 1, cycles := 7 } : Issue) (8 : Fin 32) (0#16 : BitVec 16) % 4 = 0) ∧ (2 ^ 28 ≤ dataAt s ({ core := 1, thread := 1, cycles := 7 } : Issue) (8 : Fin 32) (0#16 : BitVec 16)) ∧ ((s.aperture ({ core := 1, thread := 1, cycles := 7 } : Issue).core.val (dataAt s ({ core := 1, thread := 1, cycles := 7 } : Issue) (8 : Fin 32) (0#16 : BitVec 16) / 2 ^ 28)).valid = true) ∧ ((s.freeTag (thr ({ core := 1, thread := 1, cycles := 7 } : Issue))).isSome = true) ∧ (({ core := 1, thread := 1, cycles := 7 } : Issue).core.val ≠ 4) ∧ (eventsThread (s.physical ({ core := 1, thread := 1, cycles := 7 } : Issue).core.val (dataAt s ({ core := 1, thread := 1, cycles := 7 } : Issue) (8 : Fin 32) (0#16 : BitVec 16))) 4 = none) ∧ ((s.th (thr ({ core := 1, thread := 1, cycles := 7 } : Issue))).stopping = false) ∧ (dataAt s ({ core := 1, thread := 1, cycles := 7 } : Issue) (8 : Fin 32) (0#16 : BitVec 16) < 0xF0000000) ∧ ((s.aperture ({ core := 1, thread := 1, cycles := 7 } : Issue).core.val (dataAt s ({ core := 1, thread := 1, cycles := 7 } : Issue) (8 : Fin 32) (0#16 : BitVec 16) / 2 ^ 28)).posted = true)) (((running 5 fun h => h.setReg 8 0xE0000000).updCore 1 fun k => { k with aps := [(14, { base := 0x100, valid := true, posted := true })] })) := by
  decide +kernel

theorem w_accessTraps_10 : (fun s : State => (runs s ({ core := 1, thread := 1, cycles := 7 } : Issue) = true) ∧ ((23 : Fin 32).val < 24) ∧ ((8 : Fin 32).val < 24) ∧ (dataAt s ({ core := 1, thread := 1, cycles := 7 } : Issue) (8 : Fin 32) (0#16 : BitVec 16) % 4 = 0) ∧ (2 ^ 28 ≤ dataAt s ({ core := 1, thread := 1, cycles := 7 } : Issue) (8 : Fin 32) (0#16 : BitVec 16)) ∧ ((s.aperture ({ core := 1, thread := 1, cycles := 7 } : Issue).core.val (dataAt s ({ core := 1, thread := 1, cycles := 7 } : Issue) (8 : Fin 32) (0#16 : BitVec 16) / 2 ^ 28)).valid = true) ∧ ((s.freeTag (thr ({ core := 1, thread := 1, cycles := 7 } : Issue))).isSome = true) ∧ (({ core := 1, thread := 1, cycles := 7 } : Issue).core.val ≠ 4) ∧ (eventsThread (s.physical ({ core := 1, thread := 1, cycles := 7 } : Issue).core.val (dataAt s ({ core := 1, thread := 1, cycles := 7 } : Issue) (8 : Fin 32) (0#16 : BitVec 16))) 4 = none) ∧ (0xF0000000 ≤ dataAt s ({ core := 1, thread := 1, cycles := 7 } : Issue) (8 : Fin 32) (0#16 : BitVec 16) ∨ (s.aperture ({ core := 1, thread := 1, cycles := 7 } : Issue).core.val (dataAt s ({ core := 1, thread := 1, cycles := 7 } : Issue) (8 : Fin 32) (0#16 : BitVec 16) / 2 ^ 28)).posted = false)) ((running 5 fun h => h.setReg 8 0xF0000100)) := by
  decide +kernel

theorem w_accessTraps_11 : (fun s : State => (runs s ({ core := 1, thread := 1, cycles := 7 } : Issue) = true) ∧ ((23 : Fin 32).val < 24) ∧ ((8 : Fin 32).val < 24) ∧ (dataAt s ({ core := 1, thread := 1, cycles := 7 } : Issue) (8 : Fin 32) (0#16 : BitVec 16) % 4 = 0) ∧ (2 ^ 28 ≤ dataAt s ({ core := 1, thread := 1, cycles := 7 } : Issue) (8 : Fin 32) (0#16 : BitVec 16)) ∧ ((s.aperture ({ core := 1, thread := 1, cycles := 7 } : Issue).core.val (dataAt s ({ core := 1, thread := 1, cycles := 7 } : Issue) (8 : Fin 32) (0#16 : BitVec 16) / 2 ^ 28)).valid = true) ∧ (s.freeTag (thr ({ core := 1, thread := 1, cycles := 7 } : Issue)) = none) ∧ (({ core := 1, thread := 1, cycles := 7 } : Issue).core.val ≠ 4)) ((((running 5 fun h => h.setReg 8 0xF0000100).put RNG_INI_CFG.tagcap 1 5).updRing fun y => { y with outs := [txnOf 5] })) := by
  decide +kernel

theorem w_accessTraps_12 : (fun s : State => (s.awake = true) ∧ (s.ring.rsps[(0 : Nat)]? = some ({ rspOf 5 .read with status := 0 } : Rsp)) ∧ (s.ring.outs.find? (fun y => y.ini == ({ rspOf 5 .read with status := 0 } : Rsp).ini && y.slot == ({ rspOf 5 .read with status := 0 } : Rsp).slot) = some ({ txnOf 5 with purpose := .wait } : Txn)) ∧ (({ txnOf 5 with purpose := .wait } : Txn).epoch = ({ rspOf 5 .read with status := 0 } : Rsp).epoch) ∧ (({ txnOf 5 with purpose := .wait } : Txn).purpose = .wait) ∧ (({ txnOf 5 with purpose := .wait } : Txn).ini = ({ rspOf 5 .read with status := 0 } : Rsp).ini) ∧ (s.ring.held = []) ∧ (noStall s = true) ∧ (({ txnOf 5 with purpose := .wait } : Txn).ini < 17) ∧ (({ rspOf 5 .read with status := 0 } : Rsp).cmd = .read) ∧ ((s.th ({ txnOf 5 with purpose := .wait } : Txn).ini).hold = .access { todo := [.load (0xF0000100 : Nat) 4], after := .word (23 : Nat) 4 false, phys := (0 : Nat) }) ∧ ((s.th ({ txnOf 5 with purpose := .wait } : Txn).ini).stopping = false) ∧ (({ rspOf 5 .read with status := 0 } : Rsp).status = 0)) ((((base.updRing fun y => { y with outs := [{ txnOf 5 with purpose := .wait }], rsps := [{ rspOf 5 .read with status := 0 }] }).putThState 5 1).updTh 5 fun h => { h with pc := 64, hold := .access { todo := [.load 0xF0000100 4], after := .word 23 4 false } })) := by
  decide +kernel

theorem w_accessTraps_13 : (fun s : State => (s.awake = true) ∧ (s.ring.rsps[(0 : Nat)]? = some ({ rspOf 5 .read with status := 1 } : Rsp)) ∧ (s.ring.outs.find? (fun y => y.ini == ({ rspOf 5 .read with status := 1 } : Rsp).ini && y.slot == ({ rspOf 5 .read with status := 1 } : Rsp).slot) = some ({ txnOf 5 with purpose := .wait } : Txn)) ∧ (({ txnOf 5 with purpose := .wait } : Txn).epoch = ({ rspOf 5 .read with status := 1 } : Rsp).epoch) ∧ (({ txnOf 5 with purpose := .wait } : Txn).purpose = .wait) ∧ (({ txnOf 5 with purpose := .wait } : Txn).ini = ({ rspOf 5 .read with status := 1 } : Rsp).ini) ∧ (s.ring.held = []) ∧ (noStall s = true) ∧ (({ txnOf 5 with purpose := .wait } : Txn).ini < 17) ∧ (({ rspOf 5 .read with status := 1 } : Rsp).cmd = .read) ∧ ((s.th ({ txnOf 5 with purpose := .wait } : Txn).ini).hold = .access { todo := [.load (0xF0000100 : Nat) 4], after := .word (23 : Nat) 4 false, phys := (0 : Nat) }) ∧ ((s.th ({ txnOf 5 with purpose := .wait } : Txn).ini).stopping = false) ∧ (({ rspOf 5 .read with status := 1 } : Rsp).status ≠ 0) ∧ ((s.th ({ txnOf 5 with purpose := .wait } : Txn).ini).inTrap = false) ∧ ((0xF0000100 : Nat) < 2 ^ 32)) ((((base.updRing fun y => { y with outs := [{ txnOf 5 with purpose := .wait }], rsps := [{ rspOf 5 .read with status := 1 }] }).putThState 5 1).updTh 5 fun h => { h with pc := 64, hold := .access { todo := [.load 0xF0000100 4], after := .word 23 4 false } })) := by
  decide +kernel

theorem w_transfers_1 : (fun s : State => (runs s ({ core := 1, thread := 1, cycles := 7 } : Issue) = true) ∧ ((23 : Fin 32).val < 24) ∧ ((8 : Fin 32).val < 24) ∧ (word s ({ core := 1, thread := 1, cycles := 7 } : Issue) (23 : Fin 32) = word s ({ core := 1, thread := 1, cycles := 7 } : Issue) (8 : Fin 32) → pcOk (thr ({ core := 1, thread := 1, cycles := 7 } : Issue)) (BitVec.ofNat 32 (s.th (thr ({ core := 1, thread := 1, cycles := 7 } : Issue))).pc + 4 * (0xFFF0#16 : BitVec 16).signExtend 32).toNat = true)) ((running 5 fun h => h)) := by
  decide +kernel

theorem w_transfers_2 : (fun s : State => (runs s ({ core := 1, thread := 1, cycles := 7 } : Issue) = true) ∧ ((23 : Fin 32).val < 24) ∧ ((8 : Fin 32).val < 24) ∧ (word s ({ core := 1, thread := 1, cycles := 7 } : Issue) (23 : Fin 32) ≠ word s ({ core := 1, thread := 1, cycles := 7 } : Issue) (8 : Fin 32) → pcOk (thr ({ core := 1, thread := 1, cycles := 7 } : Issue)) (BitVec.ofNat 32 (s.th (thr ({ core := 1, thread := 1, cycles := 7 } : Issue))).pc + 4 * (0xFFF0#16 : BitVec 16).signExtend 32).toNat = true)) ((running 5 fun h => h.setReg 8 1)) := by
  decide +kernel

theorem w_transfers_3 : (fun s : State => (runs s ({ core := 1, thread := 1, cycles := 7 } : Issue) = true) ∧ ((23 : Fin 32).val < 24) ∧ ((8 : Fin 32).val < 24) ∧ ((word s ({ core := 1, thread := 1, cycles := 7 } : Issue) (23 : Fin 32)).toInt < (word s ({ core := 1, thread := 1, cycles := 7 } : Issue) (8 : Fin 32)).toInt → pcOk (thr ({ core := 1, thread := 1, cycles := 7 } : Issue)) (BitVec.ofNat 32 (s.th (thr ({ core := 1, thread := 1, cycles := 7 } : Issue))).pc + 4 * (0xFFF0#16 : BitVec 16).signExtend 32).toNat = true)) ((running 5 fun h => h.setReg 8 1)) := by
  decide +kernel

theorem w_transfers_4 : (fun s : State => (runs s ({ core := 1, thread := 1, cycles := 7 } : Issue) = true) ∧ ((23 : Fin 32).val < 24) ∧ ((8 : Fin 32).val < 24) ∧ ((word s ({ core := 1, thread := 1, cycles := 7 } : Issue) (23 : Fin 32)).toInt ≥ (word s ({ core := 1, thread := 1, cycles := 7 } : Issue) (8 : Fin 32)).toInt → pcOk (thr ({ core := 1, thread := 1, cycles := 7 } : Issue)) (BitVec.ofNat 32 (s.th (thr ({ core := 1, thread := 1, cycles := 7 } : Issue))).pc + 4 * (0xFFF0#16 : BitVec 16).signExtend 32).toNat = true)) ((running 5 fun h => h)) := by
  decide +kernel

theorem w_transfers_5 : (fun s : State => (runs s ({ core := 1, thread := 1, cycles := 7 } : Issue) = true) ∧ ((23 : Fin 32).val < 24) ∧ ((8 : Fin 32).val < 24) ∧ ((word s ({ core := 1, thread := 1, cycles := 7 } : Issue) (23 : Fin 32)).toNat < (word s ({ core := 1, thread := 1, cycles := 7 } : Issue) (8 : Fin 32)).toNat → pcOk (thr ({ core := 1, thread := 1, cycles := 7 } : Issue)) (BitVec.ofNat 32 (s.th (thr ({ core := 1, thread := 1, cycles := 7 } : Issue))).pc + 4 * (0xFFF0#16 : BitVec 16).signExtend 32).toNat = true)) ((running 5 fun h => h.setReg 8 1)) := by
  decide +kernel

theorem w_transfers_6 : (fun s : State => (runs s ({ core := 1, thread := 1, cycles := 7 } : Issue) = true) ∧ ((23 : Fin 32).val < 24) ∧ ((8 : Fin 32).val < 24) ∧ ((word s ({ core := 1, thread := 1, cycles := 7 } : Issue) (23 : Fin 32)).toNat ≥ (word s ({ core := 1, thread := 1, cycles := 7 } : Issue) (8 : Fin 32)).toNat → pcOk (thr ({ core := 1, thread := 1, cycles := 7 } : Issue)) (BitVec.ofNat 32 (s.th (thr ({ core := 1, thread := 1, cycles := 7 } : Issue))).pc + 4 * (0xFFF0#16 : BitVec 16).signExtend 32).toNat = true)) ((running 5 fun h => h)) := by
  decide +kernel

theorem w_transfers_7 : (fun s : State => (runs s ({ core := 1, thread := 1, cycles := 7 } : Issue) = true) ∧ ((23 : Fin 32).val < 24) ∧ ((8 : Fin 32).val < 24) ∧ ((s.th (thr ({ core := 1, thread := 1, cycles := 7 } : Issue))).inTrap = false) ∧ (word s ({ core := 1, thread := 1, cycles := 7 } : Issue) (23 : Fin 32) = word s ({ core := 1, thread := 1, cycles := 7 } : Issue) (8 : Fin 32)) ∧ (pcOk (thr ({ core := 1, thread := 1, cycles := 7 } : Issue)) (BitVec.ofNat 32 (s.th (thr ({ core := 1, thread := 1, cycles := 7 } : Issue))).pc + 4 * (0x8000#16 : BitVec 16).signExtend 32).toNat = false)) ((running 5 fun h => h)) := by
  decide +kernel

theorem w_transfers_8 : (fun s : State => (runs s ({ core := 1, thread := 1, cycles := 7 } : Issue) = true) ∧ (pcOk (thr ({ core := 1, thread := 1, cycles := 7 } : Issue)) (BitVec.ofNat 32 (s.th (thr ({ core := 1, thread := 1, cycles := 7 } : Issue))).pc + 4 * (0x3FFFFF0#26 : BitVec 26).signExtend 32).toNat = true)) ((running 5 fun h => h)) := by
  decide +kernel

theorem w_transfers_9 : (fun s : State => (runs s ({ core := 1, thread := 1, cycles := 7 } : Issue) = true) ∧ ((s.th (thr ({ core := 1, thread := 1, cycles := 7 } : Issue))).inTrap = false) ∧ ((s.th (thr ({ core := 1, thread := 1, cycles := 7 } : Issue))).rstack.length < 128) ∧ (pcOk (thr ({ core := 1, thread := 1, cycles := 7 } : Issue)) (BitVec.ofNat 32 (s.th (thr ({ core := 1, thread := 1, cycles := 7 } : Issue))).pc + 4 * (0x3FFFFF0#26 : BitVec 26).signExtend 32).toNat = true)) ((running 5 fun h => { h with rstack := List.replicate 127 4 })) := by
  decide +kernel

theorem w_transfers_10 : (fun s : State => (runs s ({ core := 1, thread := 1, cycles := 7 } : Issue) = true) ∧ ((s.th (thr ({ core := 1, thread := 1, cycles := 7 } : Issue))).inTrap = false) ∧ ((s.th (thr ({ core := 1, thread := 1, cycles := 7 } : Issue))).rstack.length = 128) ∧ (pcOk (thr ({ core := 1, thread := 1, cycles := 7 } : Issue)) (BitVec.ofNat 32 (s.th (thr ({ core := 1, thread := 1, cycles := 7 } : Issue))).pc + 4 * (0x3FFFFF0#26 : BitVec 26).signExtend 32).toNat = true)) ((running 5 fun h => { h with rstack := List.replicate 128 4 })) := by
  decide +kernel

theorem w_transfers_11 : (fun s : State => (runs s ({ core := 1, thread := 1, cycles := 7 } : Issue) = true) ∧ ((23 : Fin 32).val < 24) ∧ (pcOk (thr ({ core := 1, thread := 1, cycles := 7 } : Issue)) (word s ({ core := 1, thread := 1, cycles := 7 } : Issue) (23 : Fin 32)).toNat = true)) ((running 5 fun h => h.setReg 23 0x1FFFC)) := by
  decide +kernel

theorem w_transfers_12 : (fun s : State => (runs s ({ core := 1, thread := 1, cycles := 7 } : Issue) = true) ∧ ((s.th (thr ({ core := 1, thread := 1, cycles := 7 } : Issue))).inTrap = false) ∧ ((s.th (thr ({ core := 1, thread := 1, cycles := 7 } : Issue))).rstack.length < 128) ∧ ((23 : Fin 32).val < 24) ∧ (pcOk (thr ({ core := 1, thread := 1, cycles := 7 } : Issue)) (word s ({ core := 1, thread := 1, cycles := 7 } : Issue) (23 : Fin 32)).toNat = true)) ((running 5 fun h => h.setReg 23 0x1FFFC)) := by
  decide +kernel

theorem w_transfers_13 : (fun s : State => (runs s ({ core := 1, thread := 1, cycles := 7 } : Issue) = true) ∧ ((s.th (thr ({ core := 1, thread := 1, cycles := 7 } : Issue))).inTrap = false) ∧ ((s.th (thr ({ core := 1, thread := 1, cycles := 7 } : Issue))).rstack = (0x1FFFC : Nat) :: ([8] : List Nat)) ∧ (pcOk (thr ({ core := 1, thread := 1, cycles := 7 } : Issue)) (0x1FFFC : Nat) = true)) ((running 5 fun h => { h with rstack := [0x1FFFC, 8] })) := by
  decide +kernel

theorem w_transfers_14 : (fun s : State => (runs s ({ core := 1, thread := 1, cycles := 7 } : Issue) = true) ∧ ((s.th (thr ({ core := 1, thread := 1, cycles := 7 } : Issue))).inTrap = false) ∧ ((s.th (thr ({ core := 1, thread := 1, cycles := 7 } : Issue))).rstack = [])) ((running 5 fun h => h)) := by
  decide +kernel

theorem w_transfers_15 : (fun s : State => (runs s ({ core := 1, thread := 1, cycles := 7 } : Issue) = true) ∧ ((s.th (thr ({ core := 1, thread := 1, cycles := 7 } : Issue))).inTrap = false) ∧ ((s.th (thr ({ core := 1, thread := 1, cycles := 7 } : Issue))).rstack = (0x1FFFC : Nat) :: ([8] : List Nat)) ∧ (pcOk (thr ({ core := 1, thread := 1, cycles := 7 } : Issue)) (0x1FFFC : Nat) = true) ∧ (1 < (s.th (thr ({ core := 1, thread := 1, cycles := 7 } : Issue))).live)) ((running 5 fun h => { h with rstack := [0x1FFFC, 8], live := 2 })) := by
  decide +kernel

theorem w_transfers_16 : (fun s : State => (runs s ({ core := 1, thread := 1, cycles := 7 } : Issue) = true) ∧ ((s.th (thr ({ core := 1, thread := 1, cycles := 7 } : Issue))).stopping = false) ∧ ((s.th (thr ({ core := 1, thread := 1, cycles := 7 } : Issue))).inTrap = true) ∧ (1 < (s.th (thr ({ core := 1, thread := 1, cycles := 7 } : Issue))).live) ∧ ((s.th (thr ({ core := 1, thread := 1, cycles := 7 } : Issue))).reg 7 % 4 = 0) ∧ (64 ≤ (s.th (thr ({ core := 1, thread := 1, cycles := 7 } : Issue))).reg 7) ∧ ((s.th (thr ({ core := 1, thread := 1, cycles := 7 } : Issue))).reg 7 ≤ lramSize ({ core := 1, thread := 1, cycles := 7 } : Issue).core.val)) (((running 5 fun h => { (h.setReg 7 0x20000) with inTrap := true, cur := 1, live := 8, w := (List.range 128).map fun i => (i, i + 1000) }))) := by
  decide +kernel

theorem w_transfers_17 : (fun s : State => (runs s ({ core := 1, thread := 1, cycles := 7 } : Issue) = true) ∧ ((s.th (thr ({ core := 1, thread := 1, cycles := 7 } : Issue))).inTrap = true) ∧ ((s.th (thr ({ core := 1, thread := 1, cycles := 7 } : Issue))).live < 8) ∧ ((s.th (thr ({ core := 1, thread := 1, cycles := 7 } : Issue))).reg 7 % 4 = 0) ∧ ((s.th (thr ({ core := 1, thread := 1, cycles := 7 } : Issue))).reg 7 + 64 ≤ lramSize ({ core := 1, thread := 1, cycles := 7 } : Issue).core.val) ∧ (eccBad ({ core := 1, thread := 1, cycles := 7 } : Issue).data = false) ∧ ((s.th (thr ({ core := 1, thread := 1, cycles := 7 } : Issue))).stopping = false)) (((running 5 fun h => { (h.setReg 7 0x1FFC0) with inTrap := true, cur := 1, live := 2 }).setLeMem (lramBase 1 + 0x1FFC0) 64 (256 ^ 63 + 0x8877665544332211))) := by
  decide +kernel

theorem w_transfers_18 : (fun s : State => (runs s ({ core := 1, thread := 1, cycles := 7 } : Issue) = true) ∧ ((s.th (thr ({ core := 1, thread := 1, cycles := 7 } : Issue))).inTrap = false)) ((running 5 fun h => h)) := by
  decide +kernel

theorem w_windowInstructions_1 : (fun s : State => (runs s ({ core := 1, thread := 1, cycles := 7 } : Issue) = true) ∧ ((s.th (thr ({ core := 1, thread := 1, cycles := 7 } : Issue))).inTrap = false) ∧ ((s.th (thr ({ core := 1, thread := 1, cycles := 7 } : Issue))).live < 8)) ((running 5 fun h => { h with cur := 7, live := 7 })) := by
  decide +kernel

theorem w_windowInstructions_2 : (fun s : State => (runs s ({ core := 1, thread := 1, cycles := 7 } : Issue) = true) ∧ ((s.th (thr ({ core := 1, thread := 1, cycles := 7 } : Issue))).inTrap = false) ∧ ((s.th (thr ({ core := 1, thread := 1, cycles := 7 } : Issue))).live = 8)) ((running 5 fun h => { h with cur := 7, live := 8 })) := by
  decide +kernel

theorem w_windowInstructions_3 : (fun s : State => (runs s ({ core := 1, thread := 1, cycles := 7 } : Issue) = true) ∧ ((s.th (thr ({ core := 1, thread := 1, cycles := 7 } : Issue))).inTrap = false) ∧ (1 < (s.th (thr ({ core := 1, thread := 1, cycles := 7 } : Issue))).live)) ((running 5 fun h => { h with cur := 0, live := 2 })) := by
  decide +kernel

theorem w_windowInstructions_4 : (fun s : State => (runs s ({ core := 1, thread := 1, cycles := 7 } : Issue) = true) ∧ ((s.th (thr ({ core := 1, thread := 1, cycles := 7 } : Issue))).inTrap = false) ∧ ((s.th (thr ({ core := 1, thread := 1, cycles := 7 } : Issue))).live = 1)) ((running 5 fun h => { h with cur := 7 })) := by
  decide +kernel

theorem w_systemInstructions_1 : (fun s : State => (runs s ({ core := 1, thread := 1, cycles := 7 } : Issue) = true) ∧ ((s.th (thr ({ core := 1, thread := 1, cycles := 7 } : Issue))).inTrap = false)) ((running 5 fun h => h)) := by
  decide +kernel

theorem w_systemInstructions_2 : (fun s : State => (runs s ({ core := 1, thread := 1, cycles := 7 } : Issue) = true) ∧ ((s.th (thr ({ core := 1, thread := 1, cycles := 7 } : Issue))).inTrap = true) ∧ (pcOk (thr ({ core := 1, thread := 1, cycles := 7 } : Issue)) (s.th (thr ({ core := 1, thread := 1, cycles := 7 } : Issue))).resume = true)) ((running 5 fun h => { h with inTrap := true, resume := 0x1FFFC, rsReset := true, rstack := [4] })) := by
  decide +kernel

theorem w_systemInstructions_3 : (fun s : State => (runs s ({ core := 1, thread := 1, cycles := 7 } : Issue) = true) ∧ ((s.th (thr ({ core := 1, thread := 1, cycles := 7 } : Issue))).inTrap = false)) ((running 5 fun h => h)) := by
  decide +kernel

theorem w_systemInstructions_4 : (fun s : State => (runs s ({ core := 4, thread := 0, fetch := .corrected, cycles := 3 } : Issue) = true) ∧ (s.settled (thr ({ core := 4, thread := 0, fetch := .corrected, cycles := 3 } : Issue)) = true)) ((running 16 fun h => h)) := by
  decide +kernel

theorem w_systemInstructions_5 : (fun s : State => (runs s ({ core := 1, thread := 1, cycles := 7 } : Issue) = true) ∧ (s.settled (thr ({ core := 1, thread := 1, cycles := 7 } : Issue)) = false)) (((running 5 fun h => h).updRing fun y => { y with outs := [txnOf 5] })) := by
  decide +kernel

theorem w_systemInstructions_6 : (fun s : State => (runs s ({ core := 1, thread := 1, cycles := 7 } : Issue) = true) ∧ (({ core := 1, thread := 1, cycles := 7 } : Issue).core.val ≠ 4) ∧ ((s.th (thr ({ core := 1, thread := 1, cycles := 7 } : Issue))).fpOps = [])) ((running 5 fun h => h)) := by
  decide +kernel

theorem w_systemInstructions_7 : (fun s : State => (runs s ({ core := 4, thread := 0, fetch := .corrected, cycles := 3 } : Issue) = true) ∧ (({ core := 4, thread := 0, fetch := .corrected, cycles := 3 } : Issue).core.val = 4) ∧ ((s.th (thr ({ core := 4, thread := 0, fetch := .corrected, cycles := 3 } : Issue))).inTrap = false)) ((running 16 fun h => h)) := by
  decide +kernel

theorem w_systemInstructions_8 : (fun s : State => (runs s ({ core := 1, thread := 1, cycles := 7 } : Issue) = true) ∧ ((23 : Fin 32).val < 24) ∧ (0 < (23 : Fin 32).val) ∧ ((4 : Fin 32).val ≠ 3) ∧ ((4 : Fin 32).val < 16)) (((running 5 fun h => h).updCore 1 fun k => { k with cycles := 2 ^ 40 + 2 ^ 32 - 1 })) := by
  decide +kernel

theorem w_systemInstructions_9 : (fun s : State => (runs s ({ core := 1, thread := 1, cycles := 7 } : Issue) = true) ∧ ((23 : Fin 32).val < 24) ∧ ((3 : Fin 32).val = 3) ∧ (({ core := 1, thread := 1, cycles := 7 } : Issue).core.val ≠ 4) ∧ ((s.th (thr ({ core := 1, thread := 1, cycles := 7 } : Issue))).fpOps = [])) ((running 5 fun h => { h with flags := 31, enables := 31, rm := 5, ftz := true })) := by
  decide +kernel

theorem w_systemInstructions_10 : (fun s : State => (runs s ({ core := 1, thread := 1, cycles := 7 } : Issue) = true) ∧ ((23 : Fin 32).val < 24) ∧ (16 ≤ (31 : Fin 32).val)) ((running 5 fun h => h)) := by
  decide +kernel

theorem w_systemInstructions_11 : (fun s : State => (runs s ({ core := 1, thread := 1, cycles := 7 } : Issue) = true) ∧ ((23 : Fin 32).val < 24) ∧ ((9 : Fin 32).val = 9)) ((running 5 fun h => h.setReg 23 0xFFFFFFFF)) := by
  decide +kernel

theorem w_systemInstructions_12 : (fun s : State => (runs s ({ core := 1, thread := 1, cycles := 7 } : Issue) = true) ∧ ((23 : Fin 32).val < 24) ∧ ((10 : Fin 32).val = 10)) ((running 5 fun h => h.setReg 23 0xFFFFFFFF)) := by
  decide +kernel

theorem w_systemInstructions_13 : (fun s : State => (runs s ({ core := 1, thread := 1, cycles := 7 } : Issue) = true) ∧ ((23 : Fin 32).val < 24) ∧ ((15 : Fin 32).val = 15)) ((running 5 fun h => h.setReg 23 0xFFFFFFFF)) := by
  decide +kernel

theorem w_systemInstructions_14 : (fun s : State => (runs s ({ core := 1, thread := 1, cycles := 7 } : Issue) = true) ∧ ((23 : Fin 32).val < 24) ∧ ((3 : Fin 32).val = 3) ∧ (({ core := 1, thread := 1, cycles := 7 } : Issue).core.val ≠ 4) ∧ ((s.th (thr ({ core := 1, thread := 1, cycles := 7 } : Issue))).fpOps = [])) ((running 5 fun h => h.setReg 23 0xFFFFFFFF)) := by
  decide +kernel

theorem w_systemInstructions_15 : (fun s : State => (runs s ({ core := 1, thread := 1, cycles := 7 } : Issue) = true) ∧ ((23 : Fin 32).val < 24) ∧ ((11 : Fin 32).val = 11) ∧ ((s.th (thr ({ core := 1, thread := 1, cycles := 7 } : Issue))).inTrap = true)) ((running 5 fun h => { h with inTrap := true }.setReg 23 0xFFFFFFFF)) := by
  decide +kernel

theorem w_systemInstructions_16 : (fun s : State => (runs s ({ core := 1, thread := 1, cycles := 7 } : Issue) = true) ∧ ((23 : Fin 32).val < 24) ∧ ((14 : Fin 32).val = 14) ∧ ((s.th (thr ({ core := 1, thread := 1, cycles := 7 } : Issue))).inTrap = true)) ((running 5 fun h => { h with inTrap := true }.setReg 23 0xFFFFFFFF)) := by
  decide +kernel

theorem w_systemInstructions_17 : (fun s : State => (runs s ({ core := 1, thread := 1, cycles := 7 } : Issue) = true) ∧ ((23 : Fin 32).val < 24) ∧ ((1 : Fin 32).val = 1) ∧ ((s.th (thr ({ core := 1, thread := 1, cycles := 7 } : Issue))).inTrap = true) ∧ (0 < (word s ({ core := 1, thread := 1, cycles := 7 } : Issue) (23 : Fin 32)).toNat / 16 % 16) ∧ ((word s ({ core := 1, thread := 1, cycles := 7 } : Issue) (23 : Fin 32)).toNat / 16 % 16 ≤ 8)) ((running 5 fun h => { h with inTrap := true }.setReg 23 0x87)) := by
  decide +kernel

theorem w_systemInstructions_18 : (fun s : State => (runs s ({ core := 1, thread := 1, cycles := 7 } : Issue) = true) ∧ ((23 : Fin 32).val < 24) ∧ (17 ≤ (30 : Fin 32).val) ∧ ((30 : Fin 32).val ≤ 30)) ((running 5 fun h => h.setReg 23 0x30FFF)) := by
  decide +kernel

theorem w_systemInstructions_19 : (fun s : State => (runs s ({ core := 1, thread := 1, cycles := 7 } : Issue) = true) ∧ ((23 : Fin 32).val < 24) ∧ ((s.th (thr ({ core := 1, thread := 1, cycles := 7 } : Issue))).inTrap = false) ∧ ((31 : Fin 32).val ∈ [0, 1, 2, 4, 5, 6, 7, 8, 11, 12, 13, 14, 16, 31])) ((running 5 fun h => h)) := by
  decide +kernel

theorem w_systemInstructions_20 : (fun s : State => (runs s ({ core := 1, thread := 1, cycles := 7 } : Issue) = true) ∧ ((23 : Fin 32).val < 24) ∧ ((8 : Fin 32).val < 24) ∧ ((s.th (thr ({ core := 1, thread := 1, cycles := 7 } : Issue))).inTrap = false) ∧ (word s ({ core := 1, thread := 1, cycles := 7 } : Issue) (8 : Fin 32) ≠ 0#32) ∧ ((word s ({ core := 1, thread := 1, cycles := 7 } : Issue) (8 : Fin 32)).toNat < 2 ^ 24) ∧ ((BitVec.ofNat 32 (s.th (thr ({ core := 1, thread := 1, cycles := 7 } : Issue))).events &&& word s ({ core := 1, thread := 1, cycles := 7 } : Issue) (8 : Fin 32)) ≠ 0#32)) ((running 5 fun h => { h with events := 0xFFFFFF }.setReg 8 0x800001)) := by
  decide +kernel

theorem w_systemInstructions_21 : (fun s : State => (runs s ({ core := 1, thread := 1, cycles := 7 } : Issue) = true) ∧ ((23 : Fin 32).val < 24) ∧ ((8 : Fin 32).val < 24) ∧ ((s.th (thr ({ core := 1, thread := 1, cycles := 7 } : Issue))).inTrap = false) ∧ (word s ({ core := 1, thread := 1, cycles := 7 } : Issue) (8 : Fin 32) ≠ 0#32) ∧ ((word s ({ core := 1, thread := 1, cycles := 7 } : Issue) (8 : Fin 32)).toNat < 2 ^ 24) ∧ ((BitVec.ofNat 32 (s.th (thr ({ core := 1, thread := 1, cycles := 7 } : Issue))).events &&& word s ({ core := 1, thread := 1, cycles := 7 } : Issue) (8 : Fin 32)) = 0#32)) ((running 5 fun h => { h with events := 0x7FFFFE }.setReg 8 0x800001)) := by
  decide +kernel

theorem w_systemInstructions_22 : (fun s : State => (runs s ({ core := 1, thread := 1, cycles := 7 } : Issue) = true) ∧ ((23 : Fin 32).val < 24) ∧ ((8 : Fin 32).val < 24) ∧ ((s.th (thr ({ core := 1, thread := 1, cycles := 7 } : Issue))).inTrap = false) ∧ (word s ({ core := 1, thread := 1, cycles := 7 } : Issue) (8 : Fin 32) = 0#32 ∨ 2 ^ 24 ≤ (word s ({ core := 1, thread := 1, cycles := 7 } : Issue) (8 : Fin 32)).toNat)) ((running 5 fun h => h.setReg 8 0x1000000)) := by
  decide +kernel

theorem w_systemInstructions_23 : (fun s : State => (runs s ({ core := 1, thread := 1, cycles := 7 } : Issue) = true) ∧ ((8 : Fin 32).val < 24) ∧ ((23 : Fin 32).val < 24) ∧ ((word s ({ core := 1, thread := 1, cycles := 7 } : Issue) (8 : Fin 32)).toNat < 17) ∧ ((word s ({ core := 1, thread := 1, cycles := 7 } : Issue) (23 : Fin 32)).toNat < 65536) ∧ ((word s ({ core := 1, thread := 1, cycles := 7 } : Issue) (8 : Fin 32)).toNat / 4 = ({ core := 1, thread := 1, cycles := 7 } : Issue).core.val) ∧ (s.thState (word s ({ core := 1, thread := 1, cycles := 7 } : Issue) (8 : Fin 32)).toNat ≠ 3)) ((running 5 fun h => (h.setReg 8 7).setReg 23 0xFFFF)) := by
  decide +kernel

theorem w_systemInstructions_24 : (fun s : State => (runs s ({ core := 1, thread := 1, cycles := 7 } : Issue) = true) ∧ ((8 : Fin 32).val < 24) ∧ ((23 : Fin 32).val < 24) ∧ ((word s ({ core := 1, thread := 1, cycles := 7 } : Issue) (8 : Fin 32)).toNat < 17) ∧ ((word s ({ core := 1, thread := 1, cycles := 7 } : Issue) (23 : Fin 32)).toNat < 65536) ∧ ((word s ({ core := 1, thread := 1, cycles := 7 } : Issue) (8 : Fin 32)).toNat / 4 ≠ ({ core := 1, thread := 1, cycles := 7 } : Issue).core.val)) ((running 5 fun h => (h.setReg 8 16).setReg 23 0xFFFF)) := by
  decide +kernel

theorem w_systemInstructions_25 : (fun s : State => (runs s ({ core := 1, thread := 1, cycles := 7 } : Issue) = true) ∧ ((s.th (thr ({ core := 1, thread := 1, cycles := 7 } : Issue))).inTrap = false) ∧ (s.bit CPU_THR_CTRL.dbg_en ({ core := 1, thread := 1, cycles := 7 } : Issue).core.val ({ core := 1, thread := 1, cycles := 7 } : Issue).thread.val = false)) ((running 5 fun h => h)) := by
  decide +kernel

theorem w_systemInstructions_26 : (fun s : State => (runs s ({ core := 1, thread := 1, cycles := 7 } : Issue) = true) ∧ (s.bit CPU_THR_CTRL.dbg_en ({ core := 1, thread := 1, cycles := 7 } : Issue).core.val ({ core := 1, thread := 1, cycles := 7 } : Issue).thread.val = true)) (((running 5 fun h => h).put CPU_THR_CTRL.dbg_en 1 1 1)) := by
  decide +kernel

theorem w_fpInstructions_1 : (fun s : State => (runs s ({ core := 1, thread := 1, cycles := 7 } : Issue) = true) ∧ (({ core := 1, thread := 1, cycles := 7 } : Issue).core.val ≠ 4) ∧ (1 ≤ (5 : Nat)) ∧ ((5 : Nat) ≤ 5) ∧ ((0 : Fin 8).val = 0 ∧ (s.th (thr ({ core := 1, thread := 1, cycles := 7 } : Issue))).rm = (5 : Nat) ∨ (0 : Fin 8).val = (5 : Nat))) ((running 5 fun h => { h with rm := 5, ftz := true, f := [(0, 0x4000000000000001), (1, 0xFFFFFFFF40490FDB), (31, 0xBFF123456789ABCD)] })) := by
  decide +kernel

theorem w_fpInstructions_2 : (fun s : State => (runs s ({ core := 1, thread := 1, cycles := 7 } : Issue) = true) ∧ (({ core := 1, thread := 1, cycles := 7 } : Issue).core.val ≠ 4) ∧ (1 ≤ (5 : Nat)) ∧ ((5 : Nat) ≤ 5) ∧ ((0 : Fin 8).val = 0 ∧ (s.th (thr ({ core := 1, thread := 1, cycles := 7 } : Issue))).rm = (5 : Nat) ∨ (0 : Fin 8).val = (5 : Nat))) ((running 5 fun h => { h with rm := 5, ftz := true, f := [(0, 0x4000000000000001), (1, 0xFFFFFFFF40490FDB), (31, 0xBFF123456789ABCD)] })) := by
  decide +kernel

theorem w_fpInstructions_3 : (fun s : State => (runs s ({ core := 1, thread := 1, cycles := 7 } : Issue) = true) ∧ (({ core := 1, thread := 1, cycles := 7 } : Issue).core.val ≠ 4) ∧ (1 ≤ (5 : Nat)) ∧ ((5 : Nat) ≤ 5) ∧ ((0 : Fin 8).val = 0 ∧ (s.th (thr ({ core := 1, thread := 1, cycles := 7 } : Issue))).rm = (5 : Nat) ∨ (0 : Fin 8).val = (5 : Nat))) ((running 5 fun h => { h with rm := 5, ftz := true, f := [(0, 0x4000000000000001), (1, 0xFFFFFFFF40490FDB), (31, 0xBFF123456789ABCD)] })) := by
  decide +kernel

theorem w_fpInstructions_4 : (fun s : State => (runs s ({ core := 1, thread := 1, cycles := 7 } : Issue) = true) ∧ (({ core := 1, thread := 1, cycles := 7 } : Issue).core.val ≠ 4) ∧ (1 ≤ (5 : Nat)) ∧ ((5 : Nat) ≤ 5) ∧ ((0 : Fin 8).val = 0 ∧ (s.th (thr ({ core := 1, thread := 1, cycles := 7 } : Issue))).rm = (5 : Nat) ∨ (0 : Fin 8).val = (5 : Nat))) ((running 5 fun h => { h with rm := 5, ftz := true, f := [(0, 0x4000000000000001), (1, 0xFFFFFFFF40490FDB), (31, 0xBFF123456789ABCD)] })) := by
  decide +kernel

theorem w_fpInstructions_5 : (fun s : State => (runs s ({ core := 1, thread := 1, cycles := 7 } : Issue) = true) ∧ (({ core := 1, thread := 1, cycles := 7 } : Issue).core.val ≠ 4) ∧ (1 ≤ (5 : Nat)) ∧ ((5 : Nat) ≤ 5) ∧ ((0 : Fin 8).val = 0 ∧ (s.th (thr ({ core := 1, thread := 1, cycles := 7 } : Issue))).rm = (5 : Nat) ∨ (0 : Fin 8).val = (5 : Nat))) ((running 5 fun h => { h with rm := 5, ftz := true, f := [(0, 0x4000000000000001), (1, 0xFFFFFFFF40490FDB), (31, 0xBFF123456789ABCD)] })) := by
  decide +kernel

theorem w_fpInstructions_6 : (fun s : State => (runs s ({ core := 1, thread := 1, cycles := 7 } : Issue) = true) ∧ (({ core := 1, thread := 1, cycles := 7 } : Issue).core.val ≠ 4) ∧ (1 ≤ (5 : Nat)) ∧ ((5 : Nat) ≤ 5) ∧ ((0 : Fin 8).val = 0 ∧ (s.th (thr ({ core := 1, thread := 1, cycles := 7 } : Issue))).rm = (5 : Nat) ∨ (0 : Fin 8).val = (5 : Nat))) ((running 5 fun h => { h with rm := 5, ftz := true, f := [(0, 0x4000000000000001), (1, 0xFFFFFFFF40490FDB), (31, 0xBFF123456789ABCD)] })) := by
  decide +kernel

theorem w_fpInstructions_7 : (fun s : State => (runs s ({ core := 1, thread := 1, cycles := 7 } : Issue) = true) ∧ (({ core := 1, thread := 1, cycles := 7 } : Issue).core.val ≠ 4) ∧ (1 ≤ (5 : Nat)) ∧ ((5 : Nat) ≤ 5) ∧ ((0 : Fin 8).val = 0 ∧ (s.th (thr ({ core := 1, thread := 1, cycles := 7 } : Issue))).rm = (5 : Nat) ∨ (0 : Fin 8).val = (5 : Nat))) ((running 5 fun h => { h with rm := 5, ftz := true, f := [(0, 0x4000000000000001), (1, 0xFFFFFFFF40490FDB), (31, 0xBFF123456789ABCD)] })) := by
  decide +kernel

theorem w_fpInstructions_8 : (fun s : State => (runs s ({ core := 1, thread := 1, cycles := 7 } : Issue) = true) ∧ (({ core := 1, thread := 1, cycles := 7 } : Issue).core.val ≠ 4) ∧ (1 ≤ (5 : Nat)) ∧ ((5 : Nat) ≤ 5) ∧ ((0 : Fin 8).val = 0 ∧ (s.th (thr ({ core := 1, thread := 1, cycles := 7 } : Issue))).rm = (5 : Nat) ∨ (0 : Fin 8).val = (5 : Nat))) ((running 5 fun h => { h with rm := 5, ftz := true, f := [(0, 0x4000000000000001), (1, 0xFFFFFFFF40490FDB), (31, 0xBFF123456789ABCD)] })) := by
  decide +kernel

theorem w_fpInstructions_9 : (fun s : State => (runs s ({ core := 1, thread := 1, cycles := 7 } : Issue) = true) ∧ (({ core := 1, thread := 1, cycles := 7 } : Issue).core.val ≠ 4) ∧ (1 ≤ (5 : Nat)) ∧ ((5 : Nat) ≤ 5) ∧ ((0 : Fin 8).val = 0 ∧ (s.th (thr ({ core := 1, thread := 1, cycles := 7 } : Issue))).rm = (5 : Nat) ∨ (0 : Fin 8).val = (5 : Nat))) ((running 5 fun h => { h with rm := 5, ftz := true, f := [(0, 0x4000000000000001), (1, 0xFFFFFFFF40490FDB), (31, 0xBFF123456789ABCD)] })) := by
  decide +kernel

theorem w_fpInstructions_10 : (fun s : State => (runs s ({ core := 1, thread := 1, cycles := 7 } : Issue) = true) ∧ (({ core := 1, thread := 1, cycles := 7 } : Issue).core.val ≠ 4)) ((running 5 fun h => { h with rm := 5, ftz := true, f := [(0, 0x4000000000000001), (1, 0xFFFFFFFF40490FDB), (31, 0xBFF123456789ABCD)] })) := by
  decide +kernel

theorem w_fpInstructions_11 : (fun s : State => (runs s ({ core := 1, thread := 1, cycles := 7 } : Issue) = true) ∧ (({ core := 1, thread := 1, cycles := 7 } : Issue).core.val ≠ 4)) ((running 5 fun h => { h with rm := 5, ftz := true, f := [(0, 0x4000000000000001), (1, 0xFFFFFFFF40490FDB), (31, 0xBFF123456789ABCD)] })) := by
  decide +kernel

theorem w_fpInstructions_12 : (fun s : State => (runs s ({ core := 1, thread := 1, cycles := 7 } : Issue) = true) ∧ (({ core := 1, thread := 1, cycles := 7 } : Issue).core.val ≠ 4) ∧ ((23 : Fin 32).val < 24)) ((running 5 fun h => { h with rm := 5, ftz := true, f := [(0, 0x4000000000000001), (1, 0xFFFFFFFF40490FDB), (31, 0xBFF123456789ABCD)] })) := by
  decide +kernel

theorem w_fpInstructions_13 : (fun s : State => (runs s ({ core := 1, thread := 1, cycles := 7 } : Issue) = true) ∧ (({ core := 1, thread := 1, cycles := 7 } : Issue).core.val ≠ 4) ∧ ((23 : Fin 32).val < 24)) ((running 5 fun h => { h with rm := 5, ftz := true, f := [(0, 0x4000000000000001), (1, 0xFFFFFFFF40490FDB), (31, 0xBFF123456789ABCD)] })) := by
  decide +kernel

theorem w_fpInstructions_14 : (fun s : State => (runs s ({ core := 1, thread := 1, cycles := 7 } : Issue) = true) ∧ (({ core := 1, thread := 1, cycles := 7 } : Issue).core.val ≠ 4) ∧ ((23 : Fin 32).val < 24)) ((running 5 fun h => { h with rm := 5, ftz := true, f := [(0, 0x4000000000000001), (1, 0xFFFFFFFF40490FDB), (31, 0xBFF123456789ABCD)] })) := by
  decide +kernel

theorem w_fpInstructions_15 : (fun s : State => (runs s ({ core := 1, thread := 1, cycles := 7 } : Issue) = true) ∧ (({ core := 1, thread := 1, cycles := 7 } : Issue).core.val ≠ 4) ∧ ((23 : Fin 32).val < 24)) ((running 5 fun h => { h with rm := 5, ftz := true, f := [(0, 0x4000000000000001), (1, 0xFFFFFFFF40490FDB), (31, 0xBFF123456789ABCD)] })) := by
  decide +kernel

theorem w_fpInstructions_16 : (fun s : State => (runs s ({ core := 1, thread := 1, cycles := 7 } : Issue) = true) ∧ (({ core := 1, thread := 1, cycles := 7 } : Issue).core.val ≠ 4) ∧ (1 ≤ (5 : Nat)) ∧ ((5 : Nat) ≤ 5) ∧ ((0 : Fin 8).val = 0 ∧ (s.th (thr ({ core := 1, thread := 1, cycles := 7 } : Issue))).rm = (5 : Nat) ∨ (0 : Fin 8).val = (5 : Nat)) ∧ ((23 : Fin 32).val < 24)) ((running 5 fun h => { h with rm := 5, ftz := true, f := [(0, 0x4000000000000001), (1, 0xFFFFFFFF40490FDB), (31, 0xBFF123456789ABCD)] })) := by
  decide +kernel

theorem w_fpInstructions_17 : (fun s : State => (runs s ({ core := 1, thread := 1, cycles := 7 } : Issue) = true) ∧ (({ core := 1, thread := 1, cycles := 7 } : Issue).core.val ≠ 4) ∧ (1 ≤ (5 : Nat)) ∧ ((5 : Nat) ≤ 5) ∧ ((0 : Fin 8).val = 0 ∧ (s.th (thr ({ core := 1, thread := 1, cycles := 7 } : Issue))).rm = (5 : Nat) ∨ (0 : Fin 8).val = (5 : Nat)) ∧ ((23 : Fin 32).val < 24)) ((running 5 fun h => { h with rm := 5, ftz := true, f := [(0, 0x4000000000000001), (1, 0xFFFFFFFF40490FDB), (31, 0xBFF123456789ABCD)] })) := by
  decide +kernel

theorem w_fpInstructions_18 : (fun s : State => (runs s ({ core := 1, thread := 1, cycles := 7 } : Issue) = true) ∧ (({ core := 1, thread := 1, cycles := 7 } : Issue).core.val ≠ 4) ∧ (1 ≤ (5 : Nat)) ∧ ((5 : Nat) ≤ 5) ∧ ((0 : Fin 8).val = 0 ∧ (s.th (thr ({ core := 1, thread := 1, cycles := 7 } : Issue))).rm = (5 : Nat) ∨ (0 : Fin 8).val = (5 : Nat)) ∧ ((23 : Fin 32).val < 24)) ((running 5 fun h => { h with rm := 5, ftz := true, f := [(0, 0x4000000000000001), (1, 0xFFFFFFFF40490FDB), (31, 0xBFF123456789ABCD)] }.setReg 23 0xFFFFFFFF)) := by
  decide +kernel

theorem w_fpInstructions_19 : (fun s : State => (runs s ({ core := 1, thread := 1, cycles := 7 } : Issue) = true) ∧ (({ core := 1, thread := 1, cycles := 7 } : Issue).core.val ≠ 4) ∧ (1 ≤ (5 : Nat)) ∧ ((5 : Nat) ≤ 5) ∧ ((0 : Fin 8).val = 0 ∧ (s.th (thr ({ core := 1, thread := 1, cycles := 7 } : Issue))).rm = (5 : Nat) ∨ (0 : Fin 8).val = (5 : Nat)) ∧ ((23 : Fin 32).val < 24)) ((running 5 fun h => { h with rm := 5, ftz := true, f := [(0, 0x4000000000000001), (1, 0xFFFFFFFF40490FDB), (31, 0xBFF123456789ABCD)] }.setReg 23 0xFFFFFFFF)) := by
  decide +kernel

theorem w_fpInstructions_20 : (fun s : State => (runs s ({ core := 1, thread := 1, cycles := 7 } : Issue) = true) ∧ (({ core := 1, thread := 1, cycles := 7 } : Issue).core.val ≠ 4) ∧ (1 ≤ (5 : Nat)) ∧ ((5 : Nat) ≤ 5) ∧ ((0 : Fin 8).val = 0 ∧ (s.th (thr ({ core := 1, thread := 1, cycles := 7 } : Issue))).rm = (5 : Nat) ∨ (0 : Fin 8).val = (5 : Nat))) ((running 5 fun h => { h with rm := 5, ftz := true, f := [(0, 0x4000000000000001), (1, 0xFFFFFFFF40490FDB), (31, 0xBFF123456789ABCD)] })) := by
  decide +kernel

theorem w_fpInstructions_21 : (fun s : State => (runs s ({ core := 1, thread := 1, cycles := 7 } : Issue) = true) ∧ (({ core := 1, thread := 1, cycles := 7 } : Issue).core.val ≠ 4) ∧ ((23 : Fin 32).val < 24)) ((running 5 fun h => { h with rm := 5, ftz := true, f := [(0, 0x4000000000000001), (1, 0xFFFFFFFF40490FDB), (31, 0xBFF123456789ABCD)] })) := by
  decide +kernel

theorem w_fpInstructions_22 : (fun s : State => (runs s ({ core := 1, thread := 1, cycles := 7 } : Issue) = true) ∧ (({ core := 1, thread := 1, cycles := 7 } : Issue).core.val ≠ 4) ∧ ((23 : Fin 32).val < 24)) ((running 5 fun h => { h with rm := 5, ftz := true, f := [(0, 0x4000000000000001), (1, 0xFFFFFFFF40490FDB), (31, 0xBFF123456789ABCD)] })) := by
  decide +kernel

theorem w_fpInstructions_23 : (fun s : State => (runs s ({ core := 1, thread := 1, cycles := 7 } : Issue) = true) ∧ (({ core := 1, thread := 1, cycles := 7 } : Issue).core.val ≠ 4)) ((running 5 fun h => { h with rm := 5, ftz := true, f := [(0, 0x4000000000000001), (1, 0xFFFFFFFF40490FDB), (31, 0xBFF123456789ABCD)] })) := by
  decide +kernel

theorem w_fpInstructions_24 : (fun s : State => (runs s ({ core := 1, thread := 1, cycles := 7 } : Issue) = true) ∧ (({ core := 1, thread := 1, cycles := 7 } : Issue).core.val ≠ 4)) ((running 5 fun h => { h with rm := 5, ftz := true, f := [(0, 0x4000000000000001), (1, 0xFFFFFFFF40490FDB), (31, 0xBFF123456789ABCD)] })) := by
  decide +kernel

theorem w_fpInstructions_25 : (fun s : State => (runs s ({ core := 1, thread := 1, cycles := 7 } : Issue) = true) ∧ (({ core := 1, thread := 1, cycles := 7 } : Issue).core.val ≠ 4)) ((running 5 fun h => { h with rm := 5, ftz := true, f := [(0, 0x4000000000000001), (1, 0xFFFFFFFF40490FDB), (31, 0xBFF123456789ABCD)] })) := by
  decide +kernel

theorem w_fpInstructions_26 : (fun s : State => (runs s ({ core := 1, thread := 1, cycles := 7 } : Issue) = true) ∧ ((s.th (thr ({ core := 1, thread := 1, cycles := 7 } : Issue))).inTrap = false) ∧ (({ core := 1, thread := 1, cycles := 7 } : Issue).core.val ≠ 4) ∧ (5 < (6 : Fin 8).val ∨ (6 : Fin 8).val = 0 ∧ ((s.th (thr ({ core := 1, thread := 1, cycles := 7 } : Issue))).rm = 0 ∨ 5 < (s.th (thr ({ core := 1, thread := 1, cycles := 7 } : Issue))).rm))) ((running 5 fun h => { h with rm := 5, ftz := true, f := [(0, 0x4000000000000001), (1, 0xFFFFFFFF40490FDB), (31, 0xBFF123456789ABCD)] })) := by
  decide +kernel

theorem w_fpInstructions_27 : (fun s : State => (runs s ({ core := 4, thread := 0, fetch := .corrected, cycles := 3 } : Issue) = true) ∧ ((s.th (thr ({ core := 4, thread := 0, fetch := .corrected, cycles := 3 } : Issue))).inTrap = false) ∧ (({ core := 4, thread := 0, fetch := .corrected, cycles := 3 } : Issue).core.val = 4)) ((running 16 fun h => h)) := by
  decide +kernel

theorem w_fpInstructions_28 : (fun s : State => ((s.th (4 * (1 : Fin 5).val + (1 : Fin 4).val)).fpOps[(0 : Nat)]? = some ({ pc := 64, flags := 17, inTrap := false } : FpOp)) ∧ (({ pc := 64, flags := 17, inTrap := false } : FpOp).flags &&& (s.th (4 * (1 : Fin 5).val + (1 : Fin 4).val)).enables = 0) ∧ (s.thState (4 * (1 : Fin 5).val + (1 : Fin 4).val) ≠ 3)) ((running 5 fun h => { h with enables := 14, fpOps := [{ pc := 64, flags := 17, inTrap := false }] })) := by
  decide +kernel

theorem w_fpInstructions_29 : (fun s : State => ((s.th (4 * (1 : Fin 5).val + (1 : Fin 4).val)).fpOps[(0 : Nat)]? = some ({ pc := 64, flags := 17, inTrap := false } : FpOp)) ∧ (({ pc := 64, flags := 17, inTrap := false } : FpOp).flags &&& (s.th (4 * (1 : Fin 5).val + (1 : Fin 4).val)).enables ≠ 0) ∧ ((s.th (4 * (1 : Fin 5).val + (1 : Fin 4).val)).fpPend = none) ∧ (s.thState (4 * (1 : Fin 5).val + (1 : Fin 4).val) ≠ 2) ∧ (s.thState (4 * (1 : Fin 5).val + (1 : Fin 4).val) ≠ 3)) ((running 5 fun h => { h with enables := 31, fpOps := [{ pc := 64, flags := 17, inTrap := false }] })) := by
  decide +kernel

theorem w_trapDelivery_1 : (fun s : State => (s.thrCanIssue (thr ({ core := 1, thread := 1, cycles := 7 } : Issue)) ({ core := 1, thread := 1, cycles := 7 } : Issue).late.val = true) ∧ ((s.th (thr ({ core := 1, thread := 1, cycles := 7 } : Issue))).inTrap = false) ∧ ((s.th (thr ({ core := 1, thread := 1, cycles := 7 } : Issue))).busPend = some ((0x1234 : Nat), false))) ((running 5 fun h => { h with busPend := some (0x1234, false), fpPend := some (4, false) })) := by
  decide +kernel

theorem w_trapDelivery_2 : (fun s : State => (s.thrCanIssue (thr ({ core := 1, thread := 1, cycles := 7 } : Issue)) ({ core := 1, thread := 1, cycles := 7 } : Issue).late.val = true) ∧ ((s.th (thr ({ core := 1, thread := 1, cycles := 7 } : Issue))).inTrap = false) ∧ ((s.th (thr ({ core := 1, thread := 1, cycles := 7 } : Issue))).busPend = none) ∧ ((s.th (thr ({ core := 1, thread := 1, cycles := 7 } : Issue))).fpPend = some ((0x1234 : Nat), false))) ((running 5 fun h => { h with fpPend := some (0x1234, false) })) := by
  decide +kernel

theorem w_trapDelivery_3 : (fun s : State => (s.thrCanIssue (thr ({ core := 1, thread := 1, cycles := 7 } : Issue)) ({ core := 1, thread := 1, cycles := 7 } : Issue).late.val = true) ∧ ((s.th (thr ({ core := 1, thread := 1, cycles := 7 } : Issue))).due = none) ∧ ((s.th (thr ({ core := 1, thread := 1, cycles := 7 } : Issue))).inTrap = false) ∧ (pcOk (thr ({ core := 1, thread := 1, cycles := 7 } : Issue)) (s.th (thr ({ core := 1, thread := 1, cycles := 7 } : Issue))).pc = false)) ((runningAt 0x20000 5 fun h => h)) := by
  decide +kernel

theorem w_trapDelivery_4 : (fun s : State => (s.thrCanIssue (thr ({ core := 1, thread := 1, fetch := .uncorrectable } : Issue)) ({ core := 1, thread := 1, fetch := .uncorrectable } : Issue).late.val = true) ∧ ((s.th (thr ({ core := 1, thread := 1, fetch := .uncorrectable } : Issue))).due = none) ∧ ((s.th (thr ({ core := 1, thread := 1, fetch := .uncorrectable } : Issue))).inTrap = false) ∧ (pcOk (thr ({ core := 1, thread := 1, fetch := .uncorrectable } : Issue)) (s.th (thr ({ core := 1, thread := 1, fetch := .uncorrectable } : Issue))).pc = true) ∧ (({ core := 1, thread := 1, fetch := .uncorrectable } : Issue).fetch = .uncorrectable)) ((running 5 fun h => h)) := by
  decide +kernel

theorem w_trapDelivery_5 : (fun s : State => (s.thrCanIssue (thr ({ core := 1, thread := 1, cycles := 7 } : Issue)) ({ core := 1, thread := 1, cycles := 7 } : Issue).late.val = true) ∧ ((s.th (thr ({ core := 1, thread := 1, cycles := 7 } : Issue))).due = none) ∧ ((s.th (thr ({ core := 1, thread := 1, cycles := 7 } : Issue))).inTrap = true) ∧ (({ core := 1, thread := 1, cycles := 7 } : Issue).core.val ≠ 4) ∧ (pcOk (thr ({ core := 1, thread := 1, cycles := 7 } : Issue)) (s.th (thr ({ core := 1, thread := 1, cycles := 7 } : Issue))).pc = false)) ((runningAt 0x20000 5 fun h => { h with inTrap := true, trapcode := 17 })) := by
  decide +kernel

theorem w_trapDelivery_6 : (fun s : State => (s.thrCanIssue (4 * (1 : Fin 5).val + (1 : Fin 4).val) (0 : Fin 16).val = true) ∧ ((s.th (4 * (1 : Fin 5).val + (1 : Fin 4).val)).inTrap = false) ∧ ((s.th (4 * (1 : Fin 5).val + (1 : Fin 4).val)).busPend = some ((0x1234 : Nat), false))) ((running 5 fun h => { h with busPend := some (0x1234, false) })) := by
  decide +kernel

theorem w_trapDelivery_7 : (fun s : State => (s.thState (4 * (1 : Fin 5).val + (1 : Fin 4).val) = 2) ∧ ((s.th (4 * (1 : Fin 5).val + (1 : Fin 4).val)).inTrap = false) ∧ ((s.th (4 * (1 : Fin 5).val + (1 : Fin 4).val)).busPend = none) ∧ ((s.th (4 * (1 : Fin 5).val + (1 : Fin 4).val)).fpPend = some ((0x1234 : Nat), false))) (((running 5 fun h => { h with fpPend := some (0x1234, false), hold := .event 1 1 }).putThState 5 2)) := by
  decide +kernel

theorem w_trapDelivery_8 : (fun s : State => ((s.th (4 * (1 : Fin 5).val + (1 : Fin 4).val)).inTrap = true) ∧ ((s.th (4 * (1 : Fin 5).val + (1 : Fin 4).val)).busPend = none) ∧ ((s.th (4 * (1 : Fin 5).val + (1 : Fin 4).val)).fpPend = some ((64 : Nat), false))) ((running 5 fun h => { h with fpPend := some (64, false), inTrap := true })) := by
  decide +kernel

theorem w_trapDelivery_9 : (fun s : State => (s.thrCanIssue (4 * (1 : Fin 5).val + (1 : Fin 4).val) (0 : Fin 16).val = true) ∧ ((1 : Fin 5).val ≠ 4) ∧ ((s.th (4 * (1 : Fin 5).val + (1 : Fin 4).val)).busPend = some ((0x1234 : Nat), true))) ((running 5 fun h => { h with busPend := some (0x1234, true), trapcode := 17 })) := by
  decide +kernel

theorem w_threads_1 : (fun s : State => ((4 * (1 : Fin 5).val + (1 : Fin 4).val) < 17) ∧ (s.thState (4 * (1 : Fin 5).val + (1 : Fin 4).val) = 0 ∨ s.thState (4 * (1 : Fin 5).val + (1 : Fin 4).val) = 3) ∧ ((s.th (4 * (1 : Fin 5).val + (1 : Fin 4).val)).stopping = false)) (((base.putThState 5 3).updTh 5 fun h => { h with rstack := [4], events := 5, inTrap := true, cur := 3, live := 4 })) := by
  decide +kernel

theorem w_threads_2 : (fun s : State => ((4 * (1 : Fin 5).val + (1 : Fin 4).val) < 17) ∧ (s.thState (4 * (1 : Fin 5).val + (1 : Fin 4).val) ≠ 0) ∧ (s.thState (4 * (1 : Fin 5).val + (1 : Fin 4).val) ≠ 3)) ((running 5 fun h => h)) := by
  decide +kernel

theorem w_threads_3 : (fun s : State => ((4 * (1 : Fin 5).val + (1 : Fin 4).val) < 17) ∧ (s.thState (4 * (1 : Fin 5).val + (1 : Fin 4).val) ≠ 0) ∧ ((s.th (4 * (1 : Fin 5).val + (1 : Fin 4).val)).hold = .none) ∧ ((s.th (4 * (1 : Fin 5).val + (1 : Fin 4).val)).restart = false)) ((((running 5 fun h => { h with hold := .none, inTrap := true, busPend := some (0x40, true) }).put SEM_STATE.held 1 511).put SEM_STATE.owner 5 511)) := by
  decide +kernel

theorem w_threads_4 : (fun s : State => ((4 * (1 : Fin 5).val + (1 : Fin 4).val) < 17) ∧ (s.thState (4 * (1 : Fin 5).val + (1 : Fin 4).val) ≠ 0) ∧ ((s.th (4 * (1 : Fin 5).val + (1 : Fin 4).val)).hold = .event (23 : Nat) (5 : Nat)) ∧ ((s.th (4 * (1 : Fin 5).val + (1 : Fin 4).val)).restart = false)) (((((running 5 fun h => { h with hold := .event 23 5, inTrap := true, busPend := some (0x40, true) }).putThState 5 2).put SEM_STATE.held 1 511).put SEM_STATE.owner 5 511)) := by
  decide +kernel

theorem w_threads_5 : (fun s : State => ((4 * (1 : Fin 5).val + (1 : Fin 4).val) < 17) ∧ (s.thState (4 * (1 : Fin 5).val + (1 : Fin 4).val) ≠ 0) ∧ ((s.th (4 * (1 : Fin 5).val + (1 : Fin 4).val)).hold = .divide (1 : Nat) (1 : Nat))) ((running 5 fun h => { h with hold := .divide 1 1 })) := by
  decide +kernel

theorem w_threads_6 : (fun s : State => ((4 * (1 : Fin 5).val + (1 : Fin 4).val) < 17) ∧ (s.thState (4 * (1 : Fin 5).val + (1 : Fin 4).val) ≠ 0) ∧ ((s.th (4 * (1 : Fin 5).val + (1 : Fin 4).val)).hold = .access ({ todo := [.load 64 4], after := .word 5 4 false } : Waiting))) ((running 5 fun h => { h with hold := .access { todo := [.load 64 4], after := .word 5 4 false } })) := by
  decide +kernel

theorem w_threads_7 : (fun s : State => (s.thState (4 * (1 : Fin 5).val + (1 : Fin 4).val) = 2) ∧ ((s.th (4 * (1 : Fin 5).val + (1 : Fin 4).val)).hold = .event (23 : Nat) (5 : Nat)) ∧ (((s.th (4 * (1 : Fin 5).val + (1 : Fin 4).val)).events &&& (5 : Nat)) ≠ 0)) (((running 5 fun h => { h with hold := .event 23 5, events := 7 }).putThState 5 2)) := by
  decide +kernel

theorem w_threads_8 : (fun s : State => (s.thState (4 * (1 : Fin 5).val + (1 : Fin 4).val) = 2) ∧ ((s.th (4 * (1 : Fin 5).val + (1 : Fin 4).val)).hold = .event (23 : Nat) (5 : Nat)) ∧ (((s.th (4 * (1 : Fin 5).val + (1 : Fin 4).val)).events &&& (5 : Nat)) = 0)) (((running 5 fun h => { h with hold := .event 23 5, events := 2 }).putThState 5 2)) := by
  decide +kernel

theorem w_threads_9 : (fun s : State => ((4 * (4 : Fin 5).val + (0 : Fin 4).val) < 17) ∧ (s.thState (4 * (4 : Fin 5).val + (0 : Fin 4).val) ≠ 3)) ((running 16 fun h => h)) := by
  decide +kernel

theorem w_threads_10 : (fun _ : State => ((4 * (1 : Fin 5).val + (1 : Fin 4).val) < 17)) ((base.put CPU_THR_TMR_LOAD.reload 77 1 1)) := by
  decide +kernel

theorem w_threads_11 : (fun s : State => ((4 * (1 : Fin 5).val + (1 : Fin 4).val) < 17) ∧ (s.bit CPU_THR_TMR_STAT.running (1 : Fin 5).val (1 : Fin 4).val = true)) ((((base.put CPU_THR_TMR_STAT.running 1 1 1).put CPU_THR_TMR_STAT.count 0xFFFFFF 1 1).at 77000000000)) := by
  decide +kernel

theorem w_threads_12 : (fun s : State => ((4 * (1 : Fin 5).val + (1 : Fin 4).val) < 17) ∧ (s.bit CPU_THR_TMR_STAT.running (1 : Fin 5).val (1 : Fin 4).val = true) ∧ (s.get CPU_THR_EVEN.en (1 : Fin 5).val (1 : Fin 4).val % 2 = 1) ∧ (s.bit CPU_THR_TMR_LOAD.periodic (1 : Fin 5).val (1 : Fin 4).val = false)) (((base.put CPU_THR_TMR_STAT.running 1 1 1).put CPU_THR_EVEN.en 1 1 1)) := by
  decide +kernel

theorem w_threads_13 : (fun s : State => ((4 * (1 : Fin 5).val + (1 : Fin 4).val) < 17) ∧ (s.bit CPU_THR_TMR_STAT.running (1 : Fin 5).val (1 : Fin 4).val = true) ∧ (s.get CPU_THR_EVEN.en (1 : Fin 5).val (1 : Fin 4).val % 2 = 0) ∧ (s.bit CPU_THR_TMR_LOAD.periodic (1 : Fin 5).val (1 : Fin 4).val = true)) (((base.put CPU_THR_TMR_STAT.running 1 1 1).put CPU_THR_TMR_LOAD.periodic 1 1 1)) := by
  decide +kernel

theorem w_threads_14 : (fun s : State => (s.thrReady (4 * (1 : Fin 4).val + (1 : Fin 4).val) = true) ∧ (s.get CPU_SCHED.starve (1 : Fin 4).val ≠ 0)) (((running 5 fun h => h).put CPU_SCHED.starve 1 1)) := by
  decide +kernel

theorem w_threads_15 : (fun s : State => (s.blackout = true) ∧ (s.thState 0 = 2) ∧ ((s.th 0).inTrap = false)) (((((base.put CPU_BLACKOUT_CTRL.enable 1).put CPU_BLACKOUT_STATUS.armed 1).putThState 0 2).updTh 0 fun h => { h with pc := 64, hold := .event 1 1 })) := by
  decide +kernel

theorem w_threads_16 : (fun s : State => (s.blackout = true) ∧ (s.thState 0 ≠ 2)) (((((base.put CPU_BLACKOUT_CTRL.enable 1).put CPU_BLACKOUT_STATUS.armed 1).putThState 5 2).updTh 5 fun h => { h with pc := 64, hold := .event 1 1 })) := by
  decide +kernel

theorem w_threads_17 : (fun s : State => (s.blackout = false)) (base) := by
  decide +kernel

theorem w_threads_18 : (fun s : State => (stands s = true) ∧ ((4 * (1 : Fin 5).val + (1 : Fin 4).val) < 17) ∧ (s.thState (4 * (1 : Fin 5).val + (1 : Fin 4).val) = 4)) ((base.putThState 5 4)) := by
  decide +kernel

theorem w_stepTakesTheFrontCommand_1 : (fun s : State => s.pending = [Instr.holdoverRecovery]) { base with pending := [.holdoverRecovery] } := by decide +kernel

theorem w_stepTakesTheFrontCommand_2 : base.pending = [] := by decide +kernel

theorem w_tablesStayCanonical : (fun s : State => (Sparse.wf 0 s.csr = true ∧ Sparse.wf 0 s.counts = true ∧ Sparse.wf memDefault s.mem = true ∧ Sparse.wf false s.poison = true ∧ Sparse.wf {} s.lanes = true) ∧ (match step s with | .next _ => true | _ => false) = true) { base with pending := [.holdoverRecovery] } := by decide +kernel

theorem w_commandFrames : (fun s : State => (match exec .holdoverRecovery s with | .next _ => true | _ => false) = true) base := by decide +kernel

theorem w_nineCommandsComplete_1 : (fun s : State => (s.awake = true) ∧ (s.facetState (56 : Fin 57).val = 1)) ((base.put EDG_FSTATUS.state 1 56)) := by
  decide +kernel

theorem w_nineCommandsComplete_2 : (fun s : State => (s.awake = true) ∧ (s.facetState (56 : Fin 57).val = 1) ∧ ((Sparse.get {} (s.facet (56 : Fin 57).val).timers (15 : Fin 16).val).running = true) ∧ ((Sparse.get {} (s.facet (56 : Fin 57).val).timers (15 : Fin 16).val).count ≤ 1) ∧ ((s.facet (56 : Fin 57).val).sink (imgSinks (s.img (56 : Fin 57).val)) (0x2000 + 4 * (15 : Fin 16).val + 1) = false) ∧ ((s.facet (56 : Fin 57).val).sink (imgSinks (s.img (56 : Fin 57).val)) (0x2000 + 4 * (15 : Fin 16).val + 2) = false)) ((base.put EDG_FSTATUS.state 1 56).updFacet 56 fun x => { x with timers := [(15, { count := 1, running := true })] }) := by
  decide +kernel

theorem w_nineCommandsComplete_3 : (fun s : State => (s.awake = true)) (base) := by
  decide +kernel

theorem w_nineCommandsComplete_4 : (fun s : State => (s.awake = true)) (base) := by
  decide +kernel

theorem w_nineCommandsComplete_5 : (fun s : State => (s.pwr.dawnReady = true) ∧ ((fastRead ({ density := 25, read144 := some { read := 3, dummy := 6 }, read114 := none, quadEnable := 4, addressEntry := 1, erase4k := 32 } : Sfdp)).isSome = true) ∧ (25 ≤ ({ density := 25, read144 := some { read := 3, dummy := 6 }, read114 := none, quadEnable := 4, addressEntry := 1, erase4k := 32 } : Sfdp).density) ∧ (s.dic.defaults = [])) (base) := by
  decide +kernel

theorem w_nineCommandsComplete_6 : (fun s : State => (stands s = true)) (base) := by
  decide +kernel

theorem w_nineCommandsComplete_7 : (fun s : State => (stands s = true) ∧ (s.pwr.store = some (emptyImage 4 0 2654938470 : List (BitVec 8))) ∧ (s.storeCheck (emptyImage 4 0 2654938470 : List (BitVec 8)) = 0)) (storing) := by
  refine ⟨storing_stands, rfl, ?_⟩
  simp only [State.storeCheck, storing_owner]
  decide +kernel

theorem w_nineCommandsComplete_8 : (fun s : State => (stands s = true) ∧ (s.pwr.store.isSome = true)) ((base.storeStart [])) := by
  decide +kernel

theorem w_nineCommandsComplete_9 : (fun s : State => (stands s = true) ∧ (s.pwr.bundle = some (tinyBundle : List (BitVec 8)))) ((base.updPwr fun p => { p with bundle := some tinyBundle })) := by
  decide +kernel

end Sys2Proof.Tests
end

/-! # The control cores: shift-immediate, I-format and window instructions

The proofs go through three layers: what an update of the state leaves of a thread; what `issue` comes to for an
instruction that `runs`, whose word is legal or not; and how the model's arithmetic on numbers reads on 32-bit words. -/

namespace Sys2Proof.Machine

open Sys2Proof.Safety

/-! ### Threads and memory under the updates of the state -/

section ThreadRules

variable (s : State)

@[simp] theorem State.th_updTh_same (u : Nat) (f : Th → Th) : (s.updTh u f).th u = f (s.th u) :=
  Sparse.get_upd_same _ _ _ _

theorem State.th_updTh_ne {u v : Nat} (f : Th → Th) (h : v ≠ u) : (s.updTh u f).th v = s.th v :=
  Sparse.get_upd_ne _ _ _ h

@[simp] theorem State.th_tookIssue (u n v : Nat) : (s.tookIssue u n).th v = s.th v := rfl

@[simp] theorem State.mem_tookIssue (u n : Nat) : (s.tookIssue u n).mem = s.mem := rfl

@[simp] theorem State.inc_cpu (f : Fld) (i j : Nat) : (s.inc f i j).cpu = s.cpu := by
  unfold State.inc State.add
  split <;> rfl

@[simp] theorem State.inc_mem (f : Fld) (i j : Nat) : (s.inc f i j).mem = s.mem := by
  unfold State.inc State.add
  split <;> rfl

@[simp] theorem State.th_inc (f : Fld) (i j v : Nat) : (s.inc f i j).th v = s.th v := by
  simp [State.th]

@[simp] theorem State.th_lramCorrected (c v : Nat) : (s.lramCorrected c).th v = s.th v :=
  State.th_inc s CPU_LRAM_CORR_CNT.count c 0 v

@[simp] theorem State.mem_lramCorrected (c : Nat) : (s.lramCorrected c).mem = s.mem :=
  State.inc_mem s CPU_LRAM_CORR_CNT.count c 0

@[simp] theorem th_issued (u : Issue) (v : Nat) : (issued s u).th v = s.th v := by
  unfold issued
  split <;> simp

@[simp] theorem mem_issued (u : Issue) : (issued s u).mem = s.mem := by
  unfold issued
  split <;> simp

/-- The thread of an instruction that has ended (R382). -/
@[simp] theorem State.th_retire (id n : Nat) (f : Th → Th) :
    (s.retire id n f).th id = { f (s.th id) with pc := n, instret := ((s.th id).instret + 1) % 2 ^ 64 } :=
  State.th_updTh_same s id _

/-- The registers after an instruction that has ended are those that its effect leaves. -/
theorem State.reg_retire (id n r : Nat) (f : Th → Th) : ((s.retire id n f).th id).reg r = (f (s.th id)).reg r := by
  rw [State.th_retire]
  rfl

end ThreadRules

/-! ### The entry into the trap window (R406, R407) -/

section TrapEntry

variable (s : State) {id : Nat} (cause info resume : Nat)

/-- CC_TRAPINFO takes 32 bits. -/
theorem State.takeTrap_mod : s.takeTrap id cause (info % 2 ^ 32) resume = s.takeTrap id cause info resume := by
  unfold State.takeTrap
  simp only [Nat.mod_mod]

theorem State.th_takeTrap (h : (s.th id).inTrap = false) :
    (s.takeTrap id cause info resume).th id = { s.th id with
      resume, trapcode := cause, trapinfo := info % 2 ^ 32, inTrap := true, pc := (s.th id).entry cause, hold := .none } := by
  unfold State.takeTrap
  split <;> simp [h]

theorem State.th_takeTrap_ne {v : Nat} (h : (s.th id).inTrap = false) (hv : v ≠ id) :
    (s.takeTrap id cause info resume).th v = s.th v := by
  simp only [State.takeTrap, h, Bool.false_eq_true, if_false]
  split <;> simp [State.th_updTh_ne _ _ hv]

theorem State.mem_takeTrap (h : (s.th id).inTrap = false) : (s.takeTrap id cause info resume).mem = s.mem := by
  simp only [State.takeTrap, h, Bool.false_eq_true, if_false]
  split <;> simp

end TrapEntry

/-! ### Integer registers (R350) -/

theorem Th.reg_lt (t : Th) (r : Nat) : t.reg r < 2 ^ 32 := by
  unfold Th.reg
  split
  · omega
  · split <;> exact Nat.mod_lt _ (by omega)

/-- A register reads as it was written, but g0. -/
theorem Th.reg_setReg_same (t : Th) {r : Nat} (v : Nat) (h : 0 < r) : (t.setReg r v).reg r = v % 2 ^ 32 := by
  unfold Th.setReg Th.reg
  split
  · omega
  · split <;> simp [Th.window]

/-- A window register of a thread outside the trap window. -/
theorem Th.reg_window (t : Th) (h : t.inTrap = false) (i : Nat) :
    t.reg (8 + i) = Sparse.get 0 t.w (16 * t.cur + i) % 2 ^ 32 := by
  simp [Th.reg, Th.window, h]

/-- A write to a register depends on the low 32 bits of the value alone. -/
theorem Th.setReg_congr (t : Th) (r : Nat) {v w : Nat} (h : v % 2 ^ 32 = w % 2 ^ 32) : t.setReg r v = t.setReg r w := by
  unfold Th.setReg
  rw [h]

/-- Ends of an instruction that write the same low 32 bits to its destination are the same. -/
theorem State.retire_setReg_congr (s : State) (id n r : Nat) {v w : Nat} (h : v % 2 ^ 32 = w % 2 ^ 32) :
    (s.retire id n fun t => t.setReg r v) = s.retire id n fun t => t.setReg r w := by
  simp only [Th.setReg_congr _ r h]

@[simp] theorem toNat_word (s : State) (u : Issue) (r : Fin 32) : (word s u r).toNat = (s.th (thr u)).reg r.val := by
  simpa [word] using Nat.mod_eq_of_lt (Th.reg_lt _ _)

/-! ### The issue of an instruction that reaches its own effect (R361, R363, R392, R409) -/

section IssueRules

variable {s : State} {u : Issue} {enc : Nat} {body : State → Res}

theorem State.deliverEvent_of_not_due (h : (s.th (thr u)).due = none) : s.deliverEvent (thr u) = none := by
  unfold State.deliverEvent
  simp [h]

/-- What `issue` makes of the result of an instruction whose word is legal: `s` is the state before it, `s1` the one in
which it acts. -/
def Res.outcome (s s1 : State) (id : Nat) : Res → State
  | .acted t => t
  | .trap cause info => s1.takeTrap id cause info (s.th id).pc
  | .held => s

/-- The issue of an instruction that `runs`: only the legality of its word is left to decide. -/
theorem State.issue_of_runs (hr : runs s u = true) :
    s.issue u enc body =
      if legalWord (coreOf (thr u) == 4) (enc % 2 ^ 32) then (body (issued s u)).outcome s (issued s u) (thr u)
      else (issued s u).takeTrap (thr u) 3 (enc % 2 ^ 32) (s.th (thr u)).pc := by
  simp only [runs, Bool.and_eq_true, bne_iff_ne, beq_iff_eq, Option.isNone_iff_eq_none] at hr
  obtain ⟨⟨⟨⟨hcan, hdue⟩, hpc⟩, hfetch⟩, hstray⟩ := hr
  have hnone := State.deliverEvent_of_not_due (s := s.tookIssue (thr u) u.cycles) (u := u) (by simpa using hdue)
  have hs1 : (if u.fetch = .corrected then (s.tookIssue (thr u) u.cycles).lramCorrected (coreOf (thr u))
      else s.tookIssue (thr u) u.cycles) = issued s u := rfl
  have hword : (enc ^^^ (0 : BitVec 32).toNat) % 2 ^ 32 = enc % 2 ^ 32 := by simp
  unfold State.issue
  simp only [hcan, hnone, hpc, hfetch, hs1, hword, hstray, not_true_eq_false, ne_eq, if_false, ite_not]
  cases body (issued s u) <;> rfl

/-- An instruction that acts leaves the state after it. -/
theorem State.issue_acted {t : State} (hr : runs s u = true) (hw : legalWord (coreOf (thr u) == 4) (enc % 2 ^ 32) = true)
    (hb : body (issued s u) = .acted t) : s.issue u enc body = t := by
  rw [State.issue_of_runs hr, if_pos hw, hb, Res.outcome]

/-- An instruction that raises a trap enters it at its own address. -/
theorem State.issue_trap {cause info : Nat} (hr : runs s u = true)
    (hw : legalWord (coreOf (thr u) == 4) (enc % 2 ^ 32) = true) (hb : body (issued s u) = .trap cause info) :
    s.issue u enc body = (issued s u).takeTrap (thr u) cause info (s.th (thr u)).pc := by
  rw [State.issue_of_runs hr, if_pos hw, hb, Res.outcome]

/-- An illegal word raises trap 3 with the word. -/
theorem State.issue_illegal (hr : runs s u = true) (hw : legalWord (coreOf (thr u) == 4) (enc % 2 ^ 32) = false) :
    s.issue u enc body = (issued s u).takeTrap (thr u) 3 enc (s.th (thr u)).pc := by
  rw [State.issue_of_runs hr, if_neg (by simpa using hw), State.takeTrap_mod]

/-- Outside the trap window the issue of a trap enters it: the registers, CC_WSTATE, memory and the other threads stay (R406,
R407). -/
theorem State.trapped_takeTrap (cause info : Nat) (ht : (s.th (thr u)).inTrap = false) :
    trapped s ((issued s u).takeTrap (thr u) cause info (s.th (thr u)).pc) (thr u) cause info (s.th (thr u)).pc := by
  have ht' : ((issued s u).th (thr u)).inTrap = false := by rwa [th_issued]
  have hother : ∀ v < 17, v ≠ thr u → ((issued s u).takeTrap (thr u) cause info (s.th (thr u)).pc).th v = s.th v :=
    fun v _ hv => by rw [State.th_takeTrap_ne _ _ _ _ ht' hv, th_issued]
  rw [trapped, State.th_takeTrap _ _ _ _ ht', State.mem_takeTrap _ _ _ _ ht', th_issued, mem_issued]
  exact ⟨rfl, rfl, rfl, rfl, rfl, rfl, rfl, rfl, rfl, rfl, rfl, rfl, hother⟩

section SysGroup

variable {rd ra rb : Fin 32} {func : Nat} {sys : State → Th → Nat → Res}
  (hr : runs s u = true) (hw : legalWord (coreOf (thr u) == 4) (encR 0x02 rd.val ra.val rb.val func % 2 ^ 32) = true)
include hr hw

/-- A SYS instruction that acts. -/
theorem State.sysOp_acted {t : State}
    (hb : sys (issued s u) (s.th (thr u)) (encR 0x02 rd.val ra.val rb.val func) = .acted t) :
    s.sysOp u rd ra rb func sys = t := by
  unfold State.sysOp
  exact State.issue_acted hr hw (by rwa [th_issued])

/-- A SYS instruction that raises a trap. -/
theorem State.sysOp_trap {cause info : Nat}
    (hb : sys (issued s u) (s.th (thr u)) (encR 0x02 rd.val ra.val rb.val func) = .trap cause info) :
    s.sysOp u rd ra rb func sys = (issued s u).takeTrap (thr u) cause info (s.th (thr u)).pc := by
  unfold State.sysOp
  exact State.issue_trap hr hw (by rwa [th_issued])

end SysGroup

end IssueRules

/-! ### Instruction words: their fields and which of them are legal (R362, R363, R366, R367, R380) -/

section Words

theorem encR_eq (op rd ra rb func : Nat) :
    encR op rd ra rb func = 2 ^ 26 * op + 2 ^ 21 * rd + 2 ^ 16 * ra + 2 ^ 11 * rb + func := by
  simp only [encR, Nat.shiftLeft_eq, Nat.mul_comm]

theorem encI_eq (op rd ra : Nat) (imm : BitVec 16) :
    encI op rd ra imm.toNat = 2 ^ 26 * op + 2 ^ 21 * rd + 2 ^ 16 * ra + imm.toNat := by
  simp only [encI, Nat.shiftLeft_eq, Nat.mul_comm, Nat.mod_eq_of_lt (show imm.toNat < 65536 from imm.isLt)]

/-- The fields of a word of format R. -/
theorem bits_encR (op func : Nat) (rd ra rb : Fin 32) (hop : op < 64) (hfunc : func < 2048) :
    bits (encR op rd.val ra.val rb.val func % 2 ^ 32) 26 6 = op ∧ bits (encR op rd.val ra.val rb.val func % 2 ^ 32) 21 5 = rd.val ∧
    bits (encR op rd.val ra.val rb.val func % 2 ^ 32) 16 5 = ra.val ∧ bits (encR op rd.val ra.val rb.val func % 2 ^ 32) 11 5 = rb.val ∧
    bits (encR op rd.val ra.val rb.val func % 2 ^ 32) 0 11 = func := by
  simp only [bits, encR_eq, Nat.shiftRight_eq_div_pow]
  omega

/-- The fields of a word of format I that its legality depends on. -/
theorem bits_encI (op : Nat) (rd ra : Fin 32) (imm : BitVec 16) (hop : op < 64) :
    bits (encI op rd.val ra.val imm.toNat % 2 ^ 32) 26 6 = op ∧ bits (encI op rd.val ra.val imm.toNat % 2 ^ 32) 21 5 = rd.val ∧
    bits (encI op rd.val ra.val imm.toNat % 2 ^ 32) 16 5 = ra.val := by
  have := imm.isLt
  simp only [bits, encI_eq, Nat.shiftRight_eq_div_pow]
  omega

variable (keeper : Bool) (rd ra rb : Fin 32) (imm : BitVec 16)

/-- A three-register word of the ALU group is legal when its register codes name registers (R350, R365). -/
theorem legalWord_alu {func : Nat} (hf : func ≤ 0x15) (hu : ¬ (0x0E ≤ func ∧ func ≤ 0x13)) :
    legalWord keeper (encR 0x00 rd.val ra.val rb.val func % 2 ^ 32) =
      (decide (rd.val < 24) && decide (ra.val < 24) && decide (rb.val < 24)) := by
  obtain ⟨hop, hrd, hra, hrb, hfunc⟩ := bits_encR 0x00 func rd ra rb (by omega) (by omega)
  simp only [legalWord, hop, hrd, hra, hrb, hfunc]
  simp [hf, hu]

theorem legalWord_shiftImm {func : Nat} (hf : func = 5 ∨ func = 6 ∨ func = 7 ∨ func = 0x15) :
    legalWord keeper (encR 0x28 rd.val ra.val rb.val func % 2 ^ 32) = (decide (rd.val < 24) && decide (ra.val < 24)) := by
  obtain ⟨hop, hrd, hra, -, hfunc⟩ := bits_encR 0x28 func rd ra rb (by omega) (by omega)
  simp only [legalWord, hop, hrd, hra, hfunc]
  rcases hf with rfl | rfl | rfl | rfl <;> simp

theorem legalWord_immOp {op : Nat} (h8 : 0x08 ≤ op) (hE : op < 0x0E) :
    legalWord keeper (encI op rd.val ra.val imm.toNat % 2 ^ 32) = (decide (rd.val < 24) && decide (ra.val < 24)) := by
  obtain ⟨hop, hrd, hra⟩ := bits_encI op rd ra imm (by omega)
  simp only [legalWord, hop, hrd, hra]
  rw [if_neg (by omega), if_neg (by omega), if_neg (by omega), if_neg (by omega), if_neg (by omega), if_pos hE]

theorem legalWord_upperOp {op : Nat} (hE : 0x0E ≤ op) (h10 : op < 0x10) :
    legalWord keeper (encI op rd.val 0 imm.toNat % 2 ^ 32) = decide (rd.val < 24) := by
  obtain ⟨hop, hrd, hra⟩ := bits_encI op rd 0 imm (by omega)
  simp only [Fin.val_zero] at hop hrd hra
  simp only [legalWord, hop, hrd, hra]
  rw [if_neg (by omega), if_neg (by omega), if_neg (by omega), if_neg (by omega), if_neg (by omega), if_neg (by omega), if_pos h10]
  simp

/-- The words of WOPEN and WCLOSE are legal on every core. -/
theorem legalWord_window {func : Nat} (hf : func < 2) :
    legalWord keeper (encR 0x02 (0 : Fin 32).val (0 : Fin 32).val (0 : Fin 32).val func % 2 ^ 32) = true := by
  cases keeper <;> interval_cases func <;> decide

end Words

/-! ### The arithmetic of the model on numbers, as arithmetic on words -/

section Arithmetic

theorem ofInt_eq (w : Nat) (x : Int) : ofInt w x = (BitVec.ofInt w x).toNat := (BitVec.toNat_ofInt x).symm

theorem toInt_toNat {w : Nat} (hw : 0 < w) (x : BitVec w) : toInt w x.toNat = x.toInt := by
  obtain ⟨n, rfl⟩ : ∃ n, w = n + 1 := ⟨w - 1, by omega⟩
  rw [toInt, BitVec.toInt_eq_toNat_cond, Nat.mod_eq_of_lt x.isLt, Nat.add_sub_cancel]
  simp only [Nat.pow_succ, Nat.mul_comm 2, Nat.mul_lt_mul_right (show 0 < 2 by omega)]

theorem sext_toNat {w : Nat} (hw : 0 < w) (n : Nat) (x : BitVec w) : sext w n x.toNat = (x.signExtend n).toNat := by
  rw [sext, toInt_toNat hw, ofInt_eq]
  rfl

theorem slt32_toNat (x y : BitVec 32) : slt32 x.toNat y.toNat = x.slt y := by
  rw [slt32, toInt_toNat (by omega), toInt_toNat (by omega), BitVec.slt_eq_decide]

theorem sra32_toNat (x : BitVec 32) {k : Nat} (hk : k < 32) : sra32 x.toNat k = (x.sshiftRight k).toNat := by
  rw [sra32, toInt_toNat (by omega), ofInt_eq, Nat.mod_eq_of_lt hk, BitVec.sshiftRight, Int.shiftRight_eq_div_pow]

theorem rotr32_toNat (x : BitVec 32) (k : Nat) : rotr32 x.toNat k = (x.rotateRight k).toNat := by
  have hx := x.isLt
  rw [rotr32, BitVec.toNat_rotateRight, Nat.or_mod_two_pow,
    Nat.mod_eq_of_lt (Nat.lt_of_le_of_lt (Nat.shiftRight_le _ _) hx)]
  by_cases hk : k % 32 = 0
  · simp [hk, Nat.shiftLeft_eq, Nat.mod_eq_of_lt hx]
  · rw [Nat.mod_eq_of_lt (show 32 - k % 32 < 32 by omega)]

/-- An address at a signed displacement in words (R367, R368). -/
theorem relative_toNat {w : Nat} (hw : 0 < w) (pc : Nat) (d : BitVec w) :
    relative pc w d.toNat = (BitVec.ofNat 32 pc + 4 * d.signExtend 32).toNat := by
  rw [relative, toInt_toNat hw, ofInt_eq, BitVec.ofInt_add, BitVec.ofInt_mul]
  rfl

end Arithmetic

/-! ### What the arithmetic instructions come to (R365 to R367) -/

section ArithInstructions

variable {s : State} {u : Issue} {rd ra rb : Fin 32} {imm : BitVec 16} {f : Nat → Nat → Nat} {v : Nat}

theorem State.plain_issued (g : Th → Th) :
    (issued s u).plain (thr u) g = .acted ((issued s u).retire (thr u) ((s.th (thr u)).pc + 4) g) := by
  rw [State.plain, th_issued]

/-- An ALU-group instruction on three registers writes `v` to rd, where `v` agrees with `f` of the operands on 32 bits. -/
theorem State.alu_of_runs {func : Nat} (hr : runs s u = true) (hf : func ≤ 0x15) (hu : ¬ (0x0E ≤ func ∧ func ≤ 0x13))
    (hrd : rd.val < 24) (hra : ra.val < 24) (hrb : rb.val < 24)
    (hv : f (word s u ra).toNat (word s u rb).toNat % 2 ^ 32 = v % 2 ^ 32) :
    s.alu u func rd ra rb f =
      (issued s u).retire (thr u) ((s.th (thr u)).pc + 4) fun t => t.setReg rd.val v := by
  refine State.issue_acted hr (by rw [legalWord_alu _ _ _ _ hf hu]; simp [hrd, hra, hrb]) ?_
  rw [State.plain_issued, th_issued, ← toNat_word, ← toNat_word, State.retire_setReg_congr _ _ _ _ hv]

/-- A shift-immediate instruction writes `v` to rd, where `v` agrees with `f` of ra and the amount on 32 bits. -/
theorem State.shiftImm_of_runs {func : Nat} {sh : Fin 32} (hr : runs s u = true)
    (hf : func = 5 ∨ func = 6 ∨ func = 7 ∨ func = 0x15) (hrd : rd.val < 24) (hra : ra.val < 24)
    (hv : f (word s u ra).toNat sh.val % 2 ^ 32 = v % 2 ^ 32) :
    s.shiftImm u func rd ra sh f =
      (issued s u).retire (thr u) ((s.th (thr u)).pc + 4) fun t => t.setReg rd.val v := by
  refine State.issue_acted hr (by rw [legalWord_shiftImm _ _ _ _ hf]; simp [hrd, hra]) ?_
  rw [State.plain_issued, th_issued, ← toNat_word, State.retire_setReg_congr _ _ _ _ hv]

/-- A shift-immediate word that names no register raises trap 3 with op 0x28, the amount in [15:11] and func. -/
theorem State.trapped_shiftImm {func : Nat} {sh : Fin 32} (hr : runs s u = true)
    (hf : func = 5 ∨ func = 6 ∨ func = 7 ∨ func = 0x15) (hreg : 24 ≤ rd.val ∨ 24 ≤ ra.val)
    (ht : (s.th (thr u)).inTrap = false) :
    trapped s (s.shiftImm u func rd ra sh f) (thr u) 3
      (2 ^ 26 * 0x28 + 2 ^ 21 * rd.val + 2 ^ 16 * ra.val + 2 ^ 11 * sh.val + func) (s.th (thr u)).pc := by
  have hw : legalWord (coreOf (thr u) == 4) (encR 0x28 rd.val ra.val sh.val func % 2 ^ 32) = false := by
    rw [legalWord_shiftImm _ _ _ _ hf]
    simpa [imp_iff_not_or] using hreg
  rw [State.shiftImm, State.issue_illegal hr hw, encR_eq]
  exact State.trapped_takeTrap _ _ ht

/-- An I-format operation writes `v` to rd, where `v` agrees with `f` of ra and the immediate on 32 bits. -/
theorem State.immOp_of_runs {op : Nat} (hr : runs s u = true) (h8 : 0x08 ≤ op) (hE : op < 0x0E) (hrd : rd.val < 24)
    (hra : ra.val < 24) (hv : f (word s u ra).toNat imm.toNat % 2 ^ 32 = v % 2 ^ 32) :
    s.immOp u op rd ra imm f =
      (issued s u).retire (thr u) ((s.th (thr u)).pc + 4) fun t => t.setReg rd.val v := by
  refine State.issue_acted hr (by rw [legalWord_immOp _ _ _ _ h8 hE]; simp [hrd, hra]) ?_
  rw [State.plain_issued, th_issued, ← toNat_word, State.retire_setReg_congr _ _ _ _ hv]

/-- LUI and ADDPC write `v` to rd, where `v` agrees with `f` of the pc and the immediate on 32 bits. -/
theorem State.upperOp_of_runs {op : Nat} (hr : runs s u = true) (hE : 0x0E ≤ op) (h10 : op < 0x10) (hrd : rd.val < 24)
    (hv : f (s.th (thr u)).pc imm.toNat % 2 ^ 32 = v % 2 ^ 32) :
    s.upperOp u op rd imm f =
      (issued s u).retire (thr u) ((s.th (thr u)).pc + 4) fun t => t.setReg rd.val v := by
  refine State.issue_acted hr (by rw [legalWord_upperOp _ _ _ hE h10]; simp [hrd]) ?_
  rw [State.plain_issued, th_issued, State.retire_setReg_congr _ _ _ _ hv]

/-- The word of LUI or ADDPC with no register for rd raises trap 3; its ra field is 0. -/
theorem State.trapped_upperOp {op : Nat} (hr : runs s u = true) (hE : 0x0E ≤ op) (h10 : op < 0x10) (hrd : 24 ≤ rd.val)
    (ht : (s.th (thr u)).inTrap = false) :
    trapped s (s.upperOp u op rd imm f) (thr u) 3 (2 ^ 26 * op + 2 ^ 21 * rd.val + imm.toNat) (s.th (thr u)).pc := by
  have hw : legalWord (coreOf (thr u) == 4) (encI op rd.val 0 imm.toNat % 2 ^ 32) = false := by
    rw [legalWord_upperOp _ _ _ hE h10]
    simpa using hrd
  rw [State.upperOp, State.issue_illegal hr hw, encI_eq]
  exact State.trapped_takeTrap _ _ ht

end ArithInstructions

/-! ### The shift-immediate group and the ALU codes of the same numbers (R365, R366) -/

section Shifts

variable {s : State} {u : Issue} {rd ra rb sh : Fin 32}
variable (hr : runs s u = true) (hrd : rd.val < 24) (hra : ra.val < 24) (hrb : rb.val < 24)

include hr hrd hra

theorem exec_slli : exec (.slli u rd ra sh) s = .next ((issued s u).retire (thr u) ((s.th (thr u)).pc + 4) fun t =>
    t.setReg rd.val (word s u ra <<< sh.val).toNat) :=
  congrArg _ (State.shiftImm_of_runs hr (by decide) hrd hra (by simp only [BitVec.toNat_shiftLeft, Nat.mod_mod]))

theorem exec_srli : exec (.srli u rd ra sh) s = .next ((issued s u).retire (thr u) ((s.th (thr u)).pc + 4) fun t =>
    t.setReg rd.val (word s u ra >>> sh.val).toNat) :=
  congrArg _ (State.shiftImm_of_runs hr (by decide) hrd hra (by rw [BitVec.toNat_ushiftRight]))

theorem exec_srai : exec (.srai u rd ra sh) s = .next ((issued s u).retire (thr u) ((s.th (thr u)).pc + 4) fun t =>
    t.setReg rd.val ((word s u ra).sshiftRight sh.val).toNat) :=
  congrArg _ (State.shiftImm_of_runs hr (by decide) hrd hra (by rw [sra32_toNat _ sh.isLt]))

theorem exec_rotri : exec (.rotri u rd ra sh) s = .next ((issued s u).retire (thr u) ((s.th (thr u)).pc + 4) fun t =>
    t.setReg rd.val ((word s u ra).rotateRight sh.val).toNat) :=
  congrArg _ (State.shiftImm_of_runs hr (by decide) hrd hra (by rw [rotr32_toNat]))

include hrb

theorem exec_sll : exec (.sll u rd ra rb) s = .next ((issued s u).retire (thr u) ((s.th (thr u)).pc + 4) fun t =>
    t.setReg rd.val (word s u ra <<< ((word s u rb).toNat % 32)).toNat) :=
  congrArg _ (State.alu_of_runs hr (by decide) (by decide) hrd hra hrb (by simp only [BitVec.toNat_shiftLeft, Nat.mod_mod]))

theorem exec_srl : exec (.srl u rd ra rb) s = .next ((issued s u).retire (thr u) ((s.th (thr u)).pc + 4) fun t =>
    t.setReg rd.val (word s u ra >>> ((word s u rb).toNat % 32)).toNat) :=
  congrArg _ (State.alu_of_runs hr (by decide) (by decide) hrd hra hrb (by rw [BitVec.toNat_ushiftRight]))

theorem exec_sra : exec (.sra u rd ra rb) s = .next ((issued s u).retire (thr u) ((s.th (thr u)).pc + 4) fun t =>
    t.setReg rd.val ((word s u ra).sshiftRight ((word s u rb).toNat % 32)).toNat) :=
  congrArg _ (State.alu_of_runs hr (by decide) (by decide) hrd hra hrb (by
    rw [← sra32_toNat _ (Nat.mod_lt _ (by omega)), sra32, sra32, Nat.mod_mod]))

theorem exec_rotr : exec (.rotr u rd ra rb) s = .next ((issued s u).retire (thr u) ((s.th (thr u)).pc + 4) fun t =>
    t.setReg rd.val ((word s u ra).rotateRight ((word s u rb).toNat % 32)).toNat) :=
  congrArg _ (State.alu_of_runs hr (by decide) (by decide) hrd hra hrb (by
    rw [← rotr32_toNat, rotr32, rotr32, Nat.mod_mod (_ : Nat) 32, Nat.mod_mod]))

end Shifts

/-- The amount that an ALU shift takes from a register that holds a shift-immediate's. -/
theorem shiftAmount_of_word {s : State} {u : Issue} {rb sh : Fin 32} (h : word s u rb = BitVec.ofNat 32 sh.val) :
    (word s u rb).toNat % 32 = sh.val := by
  rw [h, BitVec.toNat_ofNat]
  omega

/-- Settles O45: each shift-immediate code writes its shift of ra, as the ALU code of the same number does of a register that
holds the amount, and its illegal words raise trap 3. -/
theorem shiftImmediate : Obligations.ShiftImmediate := by
  unfold Obligations.ShiftImmediate
  refine ⟨fun _ _ _ _ _ => exec_slli, fun _ _ _ _ _ => exec_srli,
    fun _ _ _ _ _ => exec_srai, fun _ _ _ _ _ => exec_rotri,
    fun _ _ _ _ _ _ hr hrd hra hrb h => ?slli_sll, fun _ _ _ _ _ _ hr hrd hra hrb h => ?srli_srl,
    fun _ _ _ _ _ _ hr hrd hra hrb h => ?srai_sra, fun _ _ _ _ _ _ hr hrd hra hrb h => ?rotri_rotr,
    fun _ _ _ _ _ hr hreg ht => ⟨_, rfl, State.trapped_shiftImm hr (by decide) hreg ht⟩,
    fun _ _ _ _ _ hr hreg ht => ⟨_, rfl, State.trapped_shiftImm hr (by decide) hreg ht⟩,
    fun _ _ _ _ _ hr hreg ht => ⟨_, rfl, State.trapped_shiftImm hr (by decide) hreg ht⟩,
    fun _ _ _ _ _ hr hreg ht => ⟨_, rfl, State.trapped_shiftImm hr (by decide) hreg ht⟩⟩
  case slli_sll => rw [exec_slli hr hrd hra, exec_sll hr hrd hra hrb, shiftAmount_of_word h]
  case srli_srl => rw [exec_srli hr hrd hra, exec_srl hr hrd hra hrb, shiftAmount_of_word h]
  case srai_sra => rw [exec_srai hr hrd hra, exec_sra hr hrd hra hrb, shiftAmount_of_word h]
  case rotri_rotr => rw [exec_rotri hr hrd hra, exec_rotr hr hrd hra hrb, shiftAmount_of_word h]

/-! ### The I-format operations (R367) -/

section Immediates

variable {s : State} {u : Issue} {rd ra : Fin 32} {imm : BitVec 16}
variable (hr : runs s u = true) (hrd : rd.val < 24) (hra : ra.val < 24)

/-- The zero-extended immediate as the model reads it. -/
theorem toNat_zeroExtend_imm : (imm.zeroExtend 32).toNat = imm.toNat :=
  BitVec.toNat_setWidth_of_le (by omega)

include hr hrd

theorem exec_lui : exec (.lui u rd imm) s = .next ((issued s u).retire (thr u) ((s.th (thr u)).pc + 4) fun t =>
    t.setReg rd.val (65536 * imm.toNat)) :=
  congrArg _ (State.upperOp_of_runs hr (by decide) (by decide) hrd (by rw [Nat.mul_comm]))

theorem exec_addpc : exec (.addpc u rd imm) s = .next ((issued s u).retire (thr u) ((s.th (thr u)).pc + 4) fun t =>
    t.setReg rd.val (BitVec.ofNat 32 (s.th (thr u)).pc + 4 * imm.signExtend 32).toNat) :=
  congrArg _ (State.upperOp_of_runs hr (by decide) (by decide) hrd (by rw [relative_toNat (by omega)]))

include hra

theorem exec_addi : exec (.addi u rd ra imm) s = .next ((issued s u).retire (thr u) ((s.th (thr u)).pc + 4) fun t =>
    t.setReg rd.val (word s u ra + imm.signExtend 32).toNat) :=
  congrArg _ (State.immOp_of_runs hr (by decide) (by decide) hrd hra (by
    rw [sext_toNat (by omega), BitVec.toNat_add, Nat.mod_mod]))

theorem exec_andi : exec (.andi u rd ra imm) s = .next ((issued s u).retire (thr u) ((s.th (thr u)).pc + 4) fun t =>
    t.setReg rd.val (word s u ra &&& imm.zeroExtend 32).toNat) :=
  congrArg _ (State.immOp_of_runs hr (by decide) (by decide) hrd hra (by rw [BitVec.toNat_and, toNat_zeroExtend_imm]))

theorem exec_ori : exec (.ori u rd ra imm) s = .next ((issued s u).retire (thr u) ((s.th (thr u)).pc + 4) fun t =>
    t.setReg rd.val (word s u ra ||| imm.zeroExtend 32).toNat) :=
  congrArg _ (State.immOp_of_runs hr (by decide) (by decide) hrd hra (by rw [BitVec.toNat_or, toNat_zeroExtend_imm]))

theorem exec_xori : exec (.xori u rd ra imm) s = .next ((issued s u).retire (thr u) ((s.th (thr u)).pc + 4) fun t =>
    t.setReg rd.val (word s u ra ^^^ imm.zeroExtend 32).toNat) :=
  congrArg _ (State.immOp_of_runs hr (by decide) (by decide) hrd hra (by rw [BitVec.toNat_xor, toNat_zeroExtend_imm]))

theorem exec_slti : exec (.slti u rd ra imm) s = .next ((issued s u).retire (thr u) ((s.th (thr u)).pc + 4) fun t =>
    t.setReg rd.val (if (word s u ra).slt (imm.signExtend 32) then 1 else 0)) :=
  congrArg _ (State.immOp_of_runs hr (by decide) (by decide) hrd hra (by
    rw [sext_toNat (by omega), slt32_toNat, b2n]))

theorem exec_sltiu : exec (.sltiu u rd ra imm) s = .next ((issued s u).retire (thr u) ((s.th (thr u)).pc + 4) fun t =>
    t.setReg rd.val (if (word s u ra).ult (imm.signExtend 32) then 1 else 0)) :=
  congrArg _ (State.immOp_of_runs hr (by decide) (by decide) hrd hra (by
    rw [sext_toNat (by omega), ← BitVec.ult_eq_decide, b2n]))

end Immediates

/-- LUI and then ORI on the same register write the constant whose halves they carry. -/
theorem reg_lui_ori {s t v : State} {u : Issue} {rd : Fin 32} {hi lo : BitVec 16} (hr : runs s u = true) (hrd : rd.val < 24)
    (h0 : 0 < rd.val) (ht : exec (.lui u rd hi) s = .next t) (hrt : runs t u = true) (hv : exec (.ori u rd rd lo) t = .next v) :
    (v.th (thr u)).reg rd.val = 65536 * hi.toNat + lo.toNat := by
  have hhi := hi.isLt
  have hlo := lo.isLt
  have hword : (word t u rd).toNat = 65536 * hi.toNat := by
    rw [exec_lui hr hrd, Host.Outcome.next.injEq] at ht
    rw [toNat_word, ← ht, State.reg_retire, Th.reg_setReg_same _ _ h0]
    omega
  rw [exec_ori hrt hrd hrd, Host.Outcome.next.injEq] at hv
  rw [← hv, State.reg_retire, Th.reg_setReg_same _ _ h0, Nat.mod_eq_of_lt (BitVec.isLt _), BitVec.toNat_or, hword,
    toNat_zeroExtend_imm]
  exact (Nat.two_pow_add_eq_or_of_lt hlo hi.toNat).symm

/-- No local RAM holds more than 2^15 words (R358). -/
theorem lramSize_le (c : Nat) : lramSize c ≤ 0x20000 := by
  unfold lramSize
  split <;> omega

/-- From any address of a local RAM, some ADDPC reaches any word of it (R367). -/
theorem exists_addpc_reach (u : Issue) {pc a : Nat} (hpc : pcOk (thr u) pc = true) (ha : pcOk (thr u) a = true) :
    ∃ imm : BitVec 16, (BitVec.ofNat 32 pc + 4 * imm.signExtend 32).toNat = a := by
  simp only [pcOk, Bool.and_eq_true, beq_iff_eq, decide_eq_true_eq] at hpc ha
  obtain ⟨hpc4, hpcLt⟩ := hpc
  obtain ⟨ha4, haLt⟩ := ha
  have hsize := lramSize_le (coreOf (thr u))
  have himm : (BitVec.ofInt 16 (((a : Int) - pc) / 4)).toInt = ((a : Int) - pc) / 4 := by
    rw [BitVec.toInt_ofInt]
    exact Int.bmod_eq_of_le (by omega) (by omega)
  refine ⟨BitVec.ofInt 16 (((a : Int) - pc) / 4), ?_⟩
  rw [← relative_toNat (by omega), relative, toInt_toNat (by omega), himm, ofInt]
  omega

/-- Settles O46: each I-format operation writes its function of ra or the pc and of the immediate; LUI and ORI build every
constant, and ADDPC reaches every word of the local RAM. -/
theorem immediateOperations : Obligations.ImmediateOperations := by
  unfold Obligations.ImmediateOperations
  exact ⟨fun _ _ _ _ _ => exec_addi, fun _ _ _ _ _ => exec_andi,
    fun _ _ _ _ _ => exec_ori, fun _ _ _ _ _ => exec_xori,
    fun _ _ _ _ _ => exec_slti, fun _ _ _ _ _ => exec_sltiu,
    fun _ _ _ _ => exec_lui, fun _ _ _ _ => exec_addpc,
    fun _ _ _ _ hr hrd ht => ⟨_, rfl, State.trapped_upperOp hr (by decide) (by decide) hrd ht⟩,
    fun _ _ _ _ hr hrd ht => ⟨_, rfl, State.trapped_upperOp hr (by decide) (by decide) hrd ht⟩,
    fun _ _ _ _ _ _ _ => reg_lui_ori,
    fun u _ _ => exists_addpc_reach u⟩

/-! ### WOPEN and WCLOSE (R351, R353, R412) -/

/-- Writing consecutive keys one after another: each reads as written, every other key as before. -/
theorem Sparse.get_foldl_set {α : Type} [DecidableEq α] (d : α) (w : Sparse α) (k : Nat) (v : Nat → α) (m x : Nat) :
    Sparse.get d ((List.range m).foldl (fun w n => Sparse.set d w (k + n) (v n)) w) x =
      if k ≤ x ∧ x < k + m then v (x - k) else Sparse.get d w x := by
  induction m with
  | zero => simp
  | succ m ih =>
    rw [List.range_succ, List.foldl_append, List.foldl_cons, List.foldl_nil]
    by_cases hx : x = k + m
    · subst hx
      simp
    · rw [Sparse.get_set_ne _ _ _ hx, ih]
      simp only [show (x < k + (m + 1)) = (x < k + m) by simp only [eq_iff_iff]; omega]

section Windows

variable (t : Th) (a i b j : Nat)

/-- A window register after a copy of four. -/
theorem Th.get_copy4 (k : Nat) : Sparse.get 0 (t.copy4 a i b j).w k =
    if 16 * b + j ≤ k ∧ k < 16 * b + j + 4 then Sparse.get 0 t.w (16 * a + i + (k - (16 * b + j))) else Sparse.get 0 t.w k :=
  Sparse.get_foldl_set 0 t.w (16 * b + j) (fun n => Sparse.get 0 t.w (16 * a + i + n)) 4 k

/-- WOPEN changes w0 to w3 of the window it opens alone. -/
theorem Th.get_openWindow_out {k : Nat}
    (hk : ¬ (16 * t.openWindow.cur + 0 ≤ k ∧ k < 16 * t.openWindow.cur + 4)) :
    Sparse.get 0 t.openWindow.w k = Sparse.get 0 t.w k :=
  (t.get_copy4 t.cur 12 t.openWindow.cur 0 k).trans (if_neg hk)

/-- WCLOSE changes w12 to w15 of the window to which it returns alone. -/
theorem Th.get_closeWindow_out {k : Nat}
    (hk : ¬ (16 * t.closeWindow.cur + 12 ≤ k ∧ k < 16 * t.closeWindow.cur + 16)) :
    Sparse.get 0 t.closeWindow.w k = Sparse.get 0 t.w k :=
  (t.get_copy4 t.cur 0 t.closeWindow.cur 12 k).trans (if_neg hk)

variable {t} (h : t.inTrap = false)
include h

/-- WOPEN copies w12 to w15 of the window it leaves to w0 to w3 of the window it opens. -/
theorem Th.reg_openWindow {n : Nat} (hn : n < 4) : t.openWindow.reg (8 + n) = t.reg (20 + n) := by
  have hcopy := t.get_copy4 t.cur 12 t.openWindow.cur 0 (16 * t.openWindow.cur + n)
  rw [if_pos (by omega), show 16 * t.cur + 12 + (16 * t.openWindow.cur + n - (16 * t.openWindow.cur + 0)) =
    16 * t.cur + (12 + n) by omega] at hcopy
  rw [show 20 + n = 8 + (12 + n) by omega, Th.reg_window t h, Th.reg_window t.openWindow h]
  exact congrArg (· % 2 ^ 32) hcopy

/-- WCLOSE copies w0 to w3 of the window it closes to w12 to w15 of the window to which it returns. -/
theorem Th.reg_closeWindow {n : Nat} (hn : n < 4) : t.closeWindow.reg (20 + n) = t.reg (8 + n) := by
  have hcopy := t.get_copy4 t.cur 0 t.closeWindow.cur 12 (16 * t.closeWindow.cur + (12 + n))
  rw [if_pos (by omega), show 16 * t.cur + 0 + (16 * t.closeWindow.cur + (12 + n) - (16 * t.closeWindow.cur + 12)) =
    16 * t.cur + n by omega] at hcopy
  rw [show 20 + n = 8 + (12 + n) by omega, Th.reg_window t h, Th.reg_window t.closeWindow h]
  exact congrArg (· % 2 ^ 32) hcopy

end Windows

section WindowInstructions

variable {s : State} {u : Issue} (hr : runs s u = true) (ht : (s.th (thr u)).inTrap = false)
include hr ht

theorem exec_wopen (hlive : (s.th (thr u)).live < 8) :
    exec (.wopen u) s = .next ((issued s u).retire (thr u) ((s.th (thr u)).pc + 4) Th.openWindow) := by
  refine congrArg _ (State.sysOp_acted hr (legalWord_window _ (by decide)) ?_)
  rw [if_neg (by simp [ht]), if_neg (by omega), State.plain_issued]

theorem exec_wclose (hlive : 1 < (s.th (thr u)).live) :
    exec (.wclose u) s = .next ((issued s u).retire (thr u) ((s.th (thr u)).pc + 4) Th.closeWindow) := by
  refine congrArg _ (State.sysOp_acted hr (legalWord_window _ (by decide)) ?_)
  rw [if_neg (by simp [ht]), if_neg (by omega), State.plain_issued]

/-- WOPEN with 8 live windows raises window overflow. -/
theorem exec_wopen_overflow (hlive : (s.th (thr u)).live = 8) :
    exec (.wopen u) s = .next ((issued s u).takeTrap (thr u) 6 ((s.th (thr u)).cur + 16 * 8) (s.th (thr u)).pc) := by
  refine congrArg _ (State.sysOp_trap hr (legalWord_window _ (by decide)) ?_)
  rw [if_neg (by simp [ht]), if_pos (by omega), Th.wstate, hlive]

/-- WCLOSE with 1 live window raises window underflow. -/
theorem exec_wclose_underflow (hlive : (s.th (thr u)).live = 1) :
    exec (.wclose u) s = .next ((issued s u).takeTrap (thr u) 7 ((s.th (thr u)).cur + 16) (s.th (thr u)).pc) := by
  refine congrArg _ (State.sysOp_trap hr (legalWord_window _ (by decide)) ?_)
  rw [if_neg (by simp [ht]), if_pos (by omega), Th.wstate, hlive]

end WindowInstructions

/-- Settles O51: WOPEN and WCLOSE copy four registers and move CC_WSTATE, or raise the window trap. -/
theorem windowInstructions : Obligations.WindowInstructions := by
  unfold Obligations.WindowInstructions
  refine ⟨fun _ _ hr ht hlive => ⟨_, exec_wopen hr ht hlive, ?wopen⟩,
    fun _ _ hr ht hlive => ⟨_, exec_wopen_overflow hr ht hlive, State.trapped_takeTrap _ _ ht⟩,
    fun _ _ hr ht hlive => ⟨_, exec_wclose hr ht hlive, ?wclose⟩,
    fun _ _ hr ht hlive => ⟨_, exec_wclose_underflow hr ht hlive, State.trapped_takeTrap _ _ ht⟩⟩
  case wopen =>
    beta_reduce
    rw [State.th_retire, th_issued]
    exact ⟨rfl, rfl, rfl, rfl, fun i hi => ⟨Th.reg_openWindow ht hi, fun k _ hk => Th.get_openWindow_out _ hk⟩⟩
  case wclose =>
    beta_reduce
    rw [State.th_retire, th_issued]
    exact ⟨rfl, rfl, rfl, rfl, fun i hi => ⟨Th.reg_closeWindow ht hi, fun k _ hk => Th.get_closeWindow_out _ hk⟩⟩

end Sys2Proof.Machine

namespace Sys2Proof.Machine

open Sys2Proof.Safety

-- One proof is checked after another from here on: together they would take more memory than the check has.
set_option Elab.async false

/-! # The frame of every command

Every command changes no more than its footprint allows (`exec_only`); the canonical form of the tables and the frame of
a command both follow from that. -/

theorem covers_instructionSpan : Covers 0x188E20D0000868C0 instructionSpan := by decide

theorem covers_everySpan : Covers 0x1FFFFFFC007FFFFF everySpan := by decide

/-- What a command changes lies within its footprint. -/
theorem exec_only (c : Instr) {s t : State} (h : exec c s = .next t) : Only (footprint c) s t := by
  cases c with
  | registerWrite => exact execRegisterWrite_only h covers_everySpan
  | rcFieldRead => exact execRcFieldRead_only h covers_everySpan
  | holdingRegisterLatch => exact execHoldingRegisterLatch_only h covers_everySpan
  | slotReferenceEdge => exact execSlotReferenceEdge_only h (by change Covers _ (span _ _); decide)
  | gnomonEnableWrite => exact execGnomonEnableWrite_only h (by change Covers _ (span _ _); decide)
  | acquisitionComplete => exact execAcquisitionComplete_only h (by change Covers _ (span _ _); decide)
  | xclkLoss => exact execXclkLoss_only h (by change Covers _ (span _ _); decide)
  | holdoverRecovery => exact execHoldoverRecovery_only h (by change Covers _ (span _ _); decide)
  | holdoverLimitExpiry => exact execHoldoverLimitExpiry_only h (by change Covers _ (span _ _); decide)
  | lostAutoRelock => exact execLostAutoRelock_only h (by change Covers _ (span _ _); decide)
  | reacquire => exact execReacquire_only h (by change Covers _ (span _ _); decide)
  | cancelNamed => exact execCancelNamed_only h (by change Covers _ (span _ _); decide)
  | fcInject => exact execFcInject_only h (by change Covers _ (span _ _); decide)
  | orbitMark => exact execOrbitMark_only h (by change Covers _ (span _ _); decide)
  | accept => exact execAccept_only h (by change Covers _ (span _ _); decide)
  | eventReset => exact execEventReset_only h (by change Covers _ (span _ _); decide)
  | orbitReset => exact execOrbitReset_only h (by change Covers _ (span _ _); decide)
  | orbitResetAct => exact execOrbitResetAct_only h (by change Covers _ (span _ _); decide)
  | resync => exact execResync_only h (by change Covers _ (span _ _); decide)
  | calReq => exact execCalReq_only h (by change Covers _ (span _ _); decide)
  | userCommand => exact execUserCommand_only h (by change Covers _ (span _ _); decide)
  | internalAccept => exact execInternalAccept_only h (by change Covers _ (span _ _); decide)
  | slotBarrier => exact execSlotBarrier_only h (by change Covers _ (span _ _); decide)
  | islandArrive => exact execIslandArrive_only h (by change Covers _ (span _ _); decide)
  | barrierTimeout => exact execBarrierTimeout_only h (by change Covers _ (span _ _); decide)
  | islandClockSlow => exact execIslandClockSlow_only h (by change Covers _ (span _ _); decide)
  | islandClockUnlock => exact execIslandClockUnlock_only h (by change Covers _ (span _ _); decide)
  | islandClockRelock => exact execIslandClockRelock_only h (by change Covers _ (span _ _); decide)
  | clearingComplete => exact execClearingComplete_only h (by change Covers _ (span _ _); decide)
  | islandOff => exact execIslandOff_only h (by change Covers _ (span _ _); decide)
  | islandOn => exact execIslandOn_only h (by change Covers _ (span _ _); decide)
  | islandQuarantine => exact execIslandQuarantine_only h (by change Covers _ (span _ _); decide)
  | applyMap => exact execApplyMap_only h (by change Covers _ (span _ _); decide)
  | islandMapWrite => exact execIslandMapWrite_only h (by change Covers _ (span _ _); decide)
  | edgeConfigWrite => exact execEdgeConfigWrite_only h (by change Covers _ (span _ _); decide)
  | epochBump => exact execEpochBump_only h (by change Covers _ (span _ _); decide)
  | reloadStart => exact execReloadStart_only h (by change Covers _ (span _ _); decide)
  | reloadComplete => exact execReloadComplete_only h (by change Covers _ (span _ _); decide)
  | reloadFetchError => exact execReloadFetchError_only h (by change Covers _ (span _ _); decide)
  | reloadAbort => exact execReloadAbort_only h (by change Covers _ (span _ _); decide)
  | autoReload => exact execAutoReload_only h (by change Covers _ (span _ _); decide)
  | microwordIssue => exact execMicrowordIssue_only h (by change Covers _ (span _ _); decide)
  | waitRelease => exact execWaitRelease_only h (by change Covers _ (span _ _); decide)
  | waitTimeout => exact execWaitTimeout_only h (by change Covers _ (span _ _); decide)
  | seqNext => exact execSeqNext_only h (by change Covers _ (span _ _); decide)
  | jump => exact execJump_only h (by change Covers _ (span _ _); decide)
  | jif => exact execJif_only h (by change Covers _ (span _ _); decide)
  | jifn => exact execJifn_only h (by change Covers _ (span _ _); decide)
  | seqCall => exact execSeqCall_only h (by change Covers _ (span _ _); decide)
  | pcall => exact execPcall_only h (by change Covers _ (span _ _); decide)
  | seqRet => exact execSeqRet_only h (by change Covers _ (span _ _); decide)
  | loop => exact execLoop_only h (by change Covers _ (span _ _); decide)
  | stageEnd => exact execStageEnd_only h (by change Covers _ (span _ _); decide)
  | yield => exact execYield_only h (by change Covers _ (span _ _); decide)
  | bgEnd => exact execBgEnd_only h (by change Covers _ (span _ _); decide)
  | scNop => exact execScNop_only h (by change Covers _ (span _ _); decide)
  | ldi => exact execLdi_only h (by change Covers _ (span _ _); decide)
  | ldih => exact execLdih_only h (by change Covers _ (span _ _); decide)
  | scAddi => exact execScAddi_only h (by change Covers _ (span _ _); decide)
  | mov => exact execMov_only h (by change Covers _ (span _ _); decide)
  | subr => exact execSubr_only h (by change Covers _ (span _ _); decide)
  | scAndi => exact execScAndi_only h (by change Covers _ (span _ _); decide)
  | bcnt => exact execBcnt_only h (by change Covers _ (span _ _); decide)
  | bfirst => exact execBfirst_only h (by change Covers _ (span _ _); decide)
  | lci => exact execLci_only h (by change Covers _ (span _ _); decide)
  | lcw => exact execLcw_only h (by change Covers _ (span _ _); decide)
  | cmp => exact execCmp_only h (by change Covers _ (span _ _); decide)
  | seqTimerExpiry => exact execSeqTimerExpiry_only h (by change Covers _ (span _ _); decide)
  | seqTimerStart => exact execSeqTimerStart_only h (by change Covers _ (span _ _); decide)
  | seqTimerStop => exact execSeqTimerStop_only h (by change Covers _ (span _ _); decide)
  | seqTimerLoad => exact execSeqTimerLoad_only h (by change Covers _ (span _ _); decide)
  | bgAbort => exact execBgAbort_only h (by change Covers _ (span _ _); decide)
  | cstoreEccError => exact execCstoreEccError_only h (by change Covers _ (span _ _); decide)
  | programLoad => exact execProgramLoad_only h (by change Covers _ (span _ _); decide)
  | programLoadDone => exact execProgramLoadDone_only h (by change Covers _ (span _ _); decide)
  | loadAbort => exact execLoadAbort_only h (by change Covers _ (span _ _); decide)
  | exchangeArm => exact execExchangeArm_only h (by change Covers _ (span _ _); decide)
  | exchangeCancel => exact execExchangeCancel_only h (by change Covers _ (span _ _); decide)
  | penumbraExchange => exact execPenumbraExchange_only h (by change Covers _ (span _ _); decide)
  | promiseWrite => exact execPromiseWrite_only h (by change Covers _ (span _ _); decide)
  | commitSetArm => exact execCommitSetArm_only h (by change Covers _ (span _ _); decide)
  | commitSetAbort => exact execCommitSetAbort_only h (by change Covers _ (span _ _); decide)
  | commitSetClear => exact execCommitSetClear_only h (by change Covers _ (span _ _); decide)
  | commitSetFire => exact execCommitSetFire_only h (by change Covers _ (span _ _); decide)
  | admissionRerun => exact execAdmissionRerun_only h (by change Covers _ (span _ _); decide)
  | admissionComplete => exact execAdmissionComplete_only h (by change Covers _ (span _ _); decide)
  | marginPlanApply => exact execMarginPlanApply_only h (by change Covers _ (span _ _); decide)
  | beaconSettle => exact execBeaconSettle_only h (by change Covers _ (span _ _); decide)
  | lateDecision => exact execLateDecision_only h (by change Covers _ (span _ _); decide)
  | launchInstant => exact execLaunchInstant_only h (by change Covers _ (span _ _); decide)
  | glintPulseEnd => exact execGlintPulseEnd_only h (by change Covers _ (span _ _); decide)
  | busyEvaluate => exact execBusyEvaluate_only h (by change Covers _ (span _ _); decide)
  | busyMinExpiry => exact execBusyMinExpiry_only h (by change Covers _ (span _ _); decide)
  | laneCtrlWrite => exact execLaneCtrlWrite_only h (by change Covers _ (span _ _); decide)
  | lanePllLock => exact execLanePllLock_only h (by change Covers _ (span _ _); decide)
  | signalDetect => exact execSignalDetect_only h (by change Covers _ (span _ _); decide)
  | laneLockDone => exact execLaneLockDone_only h (by change Covers _ (span _ _); decide)
  | lockTimeout => exact execLockTimeout_only h (by change Covers _ (span _ _); decide)
  | signalLost => exact execSignalLost_only h (by change Covers _ (span _ _); decide)
  | cdrLost => exact execCdrLost_only h (by change Covers _ (span _ _); decide)
  | adaptRestart => exact execAdaptRestart_only h (by change Covers _ (span _ _); decide)
  | txFfeWrite => exact execTxFfeWrite_only h (by change Covers _ (span _ _); decide)
  | eyeScanStart => exact execEyeScanStart_only h (by change Covers _ (span _ _); decide)
  | eyeScanDone => exact execEyeScanDone_only h (by change Covers _ (span _ _); decide)
  | identityRecord => exact execIdentityRecord_only h (by change Covers _ (span _ _); decide)
  | telemetryRecord => exact execTelemetryRecord_only h (by change Covers _ (span _ _); decide)
  | setpointAcknowledgement => exact execSetpointAcknowledgement_only h (by change Covers _ (span _ _); decide)
  | userFrame => exact execUserFrame_only h (by change Covers _ (span _ _); decide)
  | identityTimeout => exact execIdentityTimeout_only h (by change Covers _ (span _ _); decide)
  | scTxSend => exact execScTxSend_only h (by change Covers _ (span _ _); decide)
  | scTxAbort => exact execScTxAbort_only h (by change Covers _ (span _ _); decide)
  | downlinkSlot => exact execDownlinkSlot_only h (by change Covers _ (span _ _); decide)
  | dlWindowWrite => exact execDlWindowWrite_only h (by change Covers _ (span _ _); decide)
  | blockArrival => exact execBlockArrival_only h (by change Covers _ (span _ _); decide)
  | facetLogicCycle => exact execFacetLogicCycle_only h (by change Covers _ (span _ _); decide)
  | facetTimerExpiry => exact execFacetTimerExpiry_only h (by change Covers _ (span _ _); decide)
  | txWord => exact execTxWord_only h (by change Covers _ (span _ _); decide)
  | facetLoad => exact execFacetLoad_only h (by change Covers _ (span _ _); decide)
  | facetLoadDone => exact execFacetLoadDone_only h (by change Covers _ (span _ _); decide)
  | facetActivate => exact execFacetActivate_only h (by change Covers _ (span _ _); decide)
  | facetAbort => exact execFacetAbort_only h (by change Covers _ (span _ _); decide)
  | facetHalt => exact execFacetHalt_only h (by change Covers _ (span _ _); decide)
  | facetResume => exact execFacetResume_only h (by change Covers _ (span _ _); decide)
  | facetCapture => exact execFacetCapture_only h (by change Covers _ (span _ _); decide)
  | facetSwitchEntry => exact execFacetSwitchEntry_only h (by change Covers _ (span _ _); decide)
  | facetSwitchComplete => exact execFacetSwitchComplete_only h (by change Covers _ (span _ _); decide)
  | facetConfigScrub => exact execFacetConfigScrub_only h (by change Covers _ (span _ _); decide)
  | facetReadbackRead => exact execFacetReadbackRead_only h covers_everySpan
  | gpiPinWrite => exact execGpiPinWrite_only h (by change Covers _ (span _ _); decide)
  | vddioChange => exact execVddioChange_only h (by change Covers _ (span _ _); decide)
  | prismWord => exact execPrismWord_only h (by change Covers _ (span _ _); decide)
  | commitDeadline => exact execCommitDeadline_only h (by change Covers _ (span _ _); decide)
  | hbmPipelineWrite => exact execHbmPipelineWrite_only h (by change Covers _ (span _ _); decide)
  | prismApply => exact execPrismApply_only h (by change Covers _ (span _ _); decide)
  | prismAbort => exact execPrismAbort_only h (by change Covers _ (span _ _); decide)
  | slackReset => exact execSlackReset_only h (by change Covers _ (span _ _); decide)
  | prismApplyCommit => exact execPrismApplyCommit_only h (by change Covers _ (span _ _); decide)
  | sidePortRequest => exact execSidePortRequest_only h (by change Covers _ (span _ _); decide)
  | sidePortPerform => exact execSidePortPerform_only h (by change Covers _ (span _ _); decide)
  | linkConfigWrite => exact execLinkConfigWrite_only h (by change Covers _ (span _ _); decide)
  | linkLaneLoss => exact execLinkLaneLoss_only h (by change Covers _ (span _ _); decide)
  | linkTrained => exact execLinkTrained_only h (by change Covers _ (span _ _); decide)
  | linkTrainTimeout => exact execLinkTrainTimeout_only h (by change Covers _ (span _ _); decide)
  | ident => exact execIdent_only h (by change Covers _ (span _ _); decide)
  | slot => exact execSlot_only h (by change Covers _ (span _ _); decide)
  | markerLoss => exact execMarkerLoss_only h (by change Covers _ (span _ _); decide)
  | linkSlot => exact execLinkSlot_only h (by change Covers _ (span _ _); decide)
  | haloFrame => exact execHaloFrame_only h (by change Covers _ (span _ _); decide)
  | worgaFrame => exact execWorgaFrame_only h (by change Covers _ (span _ _); decide)
  | worgaTxSend => exact execWorgaTxSend_only h (by change Covers _ (span _ _); decide)
  | worgaTxAbort => exact execWorgaTxAbort_only h (by change Covers _ (span _ _); decide)
  | epochApply => exact execEpochApply_only h (by change Covers _ (span _ _); decide)
  | epochAbort => exact execEpochAbort_only h (by change Covers _ (span _ _); decide)
  | epochFire => exact execEpochFire_only h (by change Covers _ (span _ _); decide)
  | beaconTreeConfig => exact execBeaconTreeConfig_only h (by change Covers _ (span _ _); decide)
  | beaconOwnResult => exact execBeaconOwnResult_only h (by change Covers _ (span _ _); decide)
  | beaconCellUp => exact execBeaconCellUp_only h (by change Covers _ (span _ _); decide)
  | beaconKeyClose => exact execBeaconKeyClose_only h (by change Covers _ (span _ _); decide)
  | beaconCellDown => exact execBeaconCellDown_only h (by change Covers _ (span _ _); decide)
  | sysResultRead => exact execSysResultRead_only h covers_everySpan
  | hbmInitComplete => exact execHbmInitComplete_only h (by change Covers _ (span _ _); decide)
  | hbmInitFail => exact execHbmInitFail_only h (by change Covers _ (span _ _); decide)
  | hbmFault => exact execHbmFault_only h (by change Covers _ (span _ _); decide)
  | hbmRestart => exact execHbmRestart_only h (by change Covers _ (span _ _); decide)
  | hbmPatrolScrub => exact execHbmPatrolScrub_only h (by change Covers _ (span _ _); decide)
  | pipeCtrlWrite => exact execPipeCtrlWrite_only h (by change Covers _ (span _ _); decide)
  | xferStart => exact execXferStart_only h (by change Covers _ (span _ _); decide)
  | xferAbort => exact execXferAbort_only h (by change Covers _ (span _ _); decide)
  | readoutBeaconEntry => exact execReadoutBeaconEntry_only h (by change Covers _ (span _ _); decide)
  | eventReady => exact execEventReady_only h (by change Covers _ (span _ _); decide)
  | eventGather => exact execEventGather_only h (by change Covers _ (span _ _); decide)
  | eventAssembled => exact execEventAssembled_only h (by change Covers _ (span _ _); decide)
  | readoutFrameSend => exact execReadoutFrameSend_only h (by change Covers _ (span _ _); decide)
  | readoutApply => exact execReadoutApply_only h (by change Covers _ (span _ _); decide)
  | portConfigWrite => exact execPortConfigWrite_only h (by change Covers _ (span _ _); decide)
  | portLinkUp => exact execPortLinkUp_only h (by change Covers _ (span _ _); decide)
  | portPcsLoss => exact execPortPcsLoss_only h (by change Covers _ (span _ _); decide)
  | arpRequestTimer => exact execArpRequestTimer_only h (by change Covers _ (span _ _); decide)
  | arpTimeout => exact execArpTimeout_only h (by change Covers _ (span _ _); decide)
  | arpReply => exact execArpReply_only h (by change Covers _ (span _ _); decide)
  | arpRequest => exact execArpRequest_only h (by change Covers _ (span _ _); decide)
  | icmpEchoRequest => exact execIcmpEchoRequest_only h (by change Covers _ (span _ _); decide)
  | portFrameDiscard => exact execPortFrameDiscard_only h (by change Covers _ (span _ _); decide)
  | add => exact execAdd_only h covers_instructionSpan
  | sub => exact execSub_only h covers_instructionSpan
  | and => exact execAnd_only h covers_instructionSpan
  | or => exact execOr_only h covers_instructionSpan
  | xor => exact execXor_only h covers_instructionSpan
  | sll => exact execSll_only h covers_instructionSpan
  | srl => exact execSrl_only h covers_instructionSpan
  | sra => exact execSra_only h covers_instructionSpan
  | slt => exact execSlt_only h covers_instructionSpan
  | sltu => exact execSltu_only h covers_instructionSpan
  | min => exact execMin_only h covers_instructionSpan
  | max => exact execMax_only h covers_instructionSpan
  | minu => exact execMinu_only h covers_instructionSpan
  | maxu => exact execMaxu_only h covers_instructionSpan
  | clz => exact execClz_only h covers_instructionSpan
  | ctz => exact execCtz_only h covers_instructionSpan
  | popc => exact execPopc_only h covers_instructionSpan
  | bswap => exact execBswap_only h covers_instructionSpan
  | sextb => exact execSextb_only h covers_instructionSpan
  | sexth => exact execSexth_only h covers_instructionSpan
  | andn => exact execAndn_only h covers_instructionSpan
  | rotr => exact execRotr_only h covers_instructionSpan
  | slli => exact execSlli_only h covers_instructionSpan
  | srli => exact execSrli_only h covers_instructionSpan
  | srai => exact execSrai_only h covers_instructionSpan
  | rotri => exact execRotri_only h covers_instructionSpan
  | addi => exact execAddi_only h covers_instructionSpan
  | andi => exact execAndi_only h covers_instructionSpan
  | ori => exact execOri_only h covers_instructionSpan
  | xori => exact execXori_only h covers_instructionSpan
  | slti => exact execSlti_only h covers_instructionSpan
  | sltiu => exact execSltiu_only h covers_instructionSpan
  | lui => exact execLui_only h covers_instructionSpan
  | addpc => exact execAddpc_only h covers_instructionSpan
  | lb => exact execLb_only h covers_instructionSpan
  | lbu => exact execLbu_only h covers_instructionSpan
  | lh => exact execLh_only h covers_instructionSpan
  | lhu => exact execLhu_only h covers_instructionSpan
  | lw => exact execLw_only h covers_instructionSpan
  | ldp => exact execLdp_only h covers_instructionSpan
  | flw => exact execFlw_only h covers_instructionSpan
  | fld => exact execFld_only h covers_instructionSpan
  | sb => exact execSb_only h covers_instructionSpan
  | sh => exact execSh_only h covers_instructionSpan
  | sw => exact execSw_only h covers_instructionSpan
  | stp => exact execStp_only h covers_instructionSpan
  | fsw => exact execFsw_only h covers_instructionSpan
  | fsd => exact execFsd_only h covers_instructionSpan
  | amoadd => exact execAmoadd_only h covers_instructionSpan
  | amoswap => exact execAmoswap_only h covers_instructionSpan
  | beq => exact execBeq_only h covers_instructionSpan
  | bne => exact execBne_only h covers_instructionSpan
  | blt => exact execBlt_only h covers_instructionSpan
  | bge => exact execBge_only h covers_instructionSpan
  | bltu => exact execBltu_only h covers_instructionSpan
  | bgeu => exact execBgeu_only h covers_instructionSpan
  | jmp => exact execJmp_only h covers_instructionSpan
  | call => exact execCall_only h covers_instructionSpan
  | mul => exact execMul_only h covers_instructionSpan
  | mulhs => exact execMulhs_only h covers_instructionSpan
  | mulhu => exact execMulhu_only h covers_instructionSpan
  | divs => exact execDivs_only h covers_instructionSpan
  | divu => exact execDivu_only h covers_instructionSpan
  | rems => exact execRems_only h covers_instructionSpan
  | remu => exact execRemu_only h covers_instructionSpan
  | dividerDone => exact execDividerDone_only h (by change Covers _ (span _ _); decide)
  | wopen => exact execWopen_only h covers_instructionSpan
  | wclose => exact execWclose_only h covers_instructionSpan
  | spill => exact execSpill_only h covers_instructionSpan
  | fill => exact execFill_only h covers_instructionSpan
  | jr => exact execJr_only h covers_instructionSpan
  | callr => exact execCallr_only h covers_instructionSpan
  | ret => exact execRet_only h covers_instructionSpan
  | retc => exact execRetc_only h covers_instructionSpan
  | trap => exact execTrap_only h covers_instructionSpan
  | tret => exact execTret_only h covers_instructionSpan
  | fence => exact execFence_only h covers_instructionSpan
  | fsync => exact execFsync_only h covers_instructionSpan
  | mfc => exact execMfc_only h covers_instructionSpan
  | mtc => exact execMtc_only h covers_instructionSpan
  | waite => exact execWaite_only h covers_instructionSpan
  | sige => exact execSige_only h covers_instructionSpan
  | brk => exact execBrk_only h covers_instructionSpan
  | fadd => exact execFadd_only h covers_instructionSpan
  | fsub => exact execFsub_only h covers_instructionSpan
  | fmul => exact execFmul_only h covers_instructionSpan
  | fdiv => exact execFdiv_only h covers_instructionSpan
  | fsqrt => exact execFsqrt_only h covers_instructionSpan
  | fmin => exact execFmin_only h covers_instructionSpan
  | fmax => exact execFmax_only h covers_instructionSpan
  | feq => exact execFeq_only h covers_instructionSpan
  | flt => exact execFlt_only h covers_instructionSpan
  | fle => exact execFle_only h covers_instructionSpan
  | fclass => exact execFclass_only h covers_instructionSpan
  | fcvtw => exact execFcvtw_only h covers_instructionSpan
  | fcvtwu => exact execFcvtwu_only h covers_instructionSpan
  | fcvtfw => exact execFcvtfw_only h covers_instructionSpan
  | fcvtfwu => exact execFcvtfwu_only h covers_instructionSpan
  | fcvtp => exact execFcvtp_only h covers_instructionSpan
  | fmvtoi => exact execFmvtoi_only h covers_instructionSpan
  | fmvfromi => exact execFmvfromi_only h covers_instructionSpan
  | fneg => exact execFneg_only h covers_instructionSpan
  | fabs => exact execFabs_only h covers_instructionSpan
  | fcopysign => exact execFcopysign_only h covers_instructionSpan
  | fmadd => exact execFmadd_only h covers_instructionSpan
  | fmsub => exact execFmsub_only h covers_instructionSpan
  | fnmadd => exact execFnmadd_only h covers_instructionSpan
  | fnmsub => exact execFnmsub_only h covers_instructionSpan
  | fpComplete => exact execFpComplete_only h covers_instructionSpan
  | impreciseTrap => exact execImpreciseTrap_only h covers_instructionSpan
  | threadStart => exact execThreadStart_only h (by change Covers _ (span _ _); decide)
  | threadStop => exact execThreadStop_only h (by change Covers _ (span _ _); decide)
  | threadWake => exact execThreadWake_only h (by change Covers _ (span _ _); decide)
  | threadEventsWrite => exact execThreadEventsWrite_only h (by change Covers _ (span _ _); decide)
  | threadTimerStart => exact execThreadTimerStart_only h (by change Covers _ (span _ _); decide)
  | threadTimerStop => exact execThreadTimerStop_only h (by change Covers _ (span _ _); decide)
  | threadTimerExpiry => exact execThreadTimerExpiry_only h (by change Covers _ (span _ _); decide)
  | starvationIssue => exact execStarvationIssue_only h (by change Covers _ (span _ _); decide)
  | blackout => exact execBlackout_only h covers_instructionSpan
  | debugResume => exact execDebugResume_only h (by change Covers _ (span _ _); decide)
  | read => exact execRead_only h covers_everySpan
  | write => exact execWrite_only h covers_everySpan
  | ringAmoadd => exact execRingAmoadd_only h covers_everySpan
  | ringAmoswap => exact execRingAmoswap_only h covers_everySpan
  | writeP => exact execWriteP_only h covers_everySpan
  | event => exact execEvent_only h (by change Covers _ (span _ _); decide)
  | readData => exact execReadData_only h (by change Covers _ (span _ _); decide)
  | writeAck => exact execWriteAck_only h (by change Covers _ (span _ _); decide)
  | amoData => exact execAmoData_only h (by change Covers _ (span _ _); decide)
  | errorReport => exact execErrorReport_only h (by change Covers _ (span _ _); decide)
  | wakeReq => exact execWakeReq_only h (by change Covers _ (span _ _); decide)
  | wakeDone => exact execWakeDone_only h (by change Covers _ (span _ _); decide)
  | ringTimeout => exact execRingTimeout_only h (by change Covers _ (span _ _); decide)
  | routeWrite => exact execRouteWrite_only h (by change Covers _ (span _ _); decide)
  | guarWrite => exact execGuarWrite_only h (by change Covers _ (span _ _); decide)
  | masterReset => exact execMasterReset_only h (by change Covers _ (span _ _); decide)
  | tagHoldExpiry => exact execTagHoldExpiry_only h (by change Covers _ (span _ _); decide)
  | latSumRead => exact execLatSumRead_only h covers_everySpan
  | dmaStart => exact execDmaStart_only h (by change Covers _ (span _ _); decide)
  | dmaAbort => exact execDmaAbort_only h (by change Covers _ (span _ _); decide)
  | dmaResume => exact execDmaResume_only h (by change Covers _ (span _ _); decide)
  | dmaDescriptorComplete => exact execDmaDescriptorComplete_only h (by change Covers _ (span _ _); decide)
  | spdPatrolScrub => exact execSpdPatrolScrub_only h (by change Covers _ (span _ _); decide)
  | spdClearComplete => exact execSpdClearComplete_only h (by change Covers _ (span _ _); decide)
  | mailboxKeeperAccess => exact execMailboxKeeperAccess_only h covers_everySpan
  | mailboxScrub => exact execMailboxScrub_only h (by change Covers _ (span _ _); decide)
  | mailboxDoorbell => exact execMailboxDoorbell_only h (by change Covers _ (span _ _); decide)
  | semTry => exact execSemTry_only h (by change Covers _ (span _ _); decide)
  | wait => exact execWait_only h (by change Covers _ (span _ _); decide)
  | release => exact execRelease_only h (by change Covers _ (span _ _); decide)
  | cancel => exact execCancel_only h (by change Covers _ (span _ _); decide)
  | renew => exact execRenew_only h (by change Covers _ (span _ _); decide)
  | badOperation => exact execBadOperation_only h (by change Covers _ (span _ _); decide)
  | leaseExpiry => exact execLeaseExpiry_only h (by change Covers _ (span _ _); decide)
  | semAdminWrite => exact execSemAdminWrite_only h (by change Covers _ (span _ _); decide)
  | usdoRequest => exact execUsdoRequest_only h covers_everySpan
  | usdoSegment => exact execUsdoSegment_only h covers_everySpan
  | usdoAbort => exact execUsdoAbort_only h (by change Covers _ (span _ _); decide)
  | usdoTimeout => exact execUsdoTimeout_only h (by change Covers _ (span _ _); decide)
  | rpdo => exact execRpdo_only h covers_everySpan
  | tpdoEventTimer => exact execTpdoEventTimer_only h covers_everySpan
  | heartbeat => exact execHeartbeat_only h (by change Covers _ (span _ _); decide)
  | nmtStart => exact execNmtStart_only h covers_everySpan
  | nmtStop => exact execNmtStop_only h covers_everySpan
  | nmtEnterPreoperational => exact execNmtEnterPreoperational_only h covers_everySpan
  | nmtResetNode => exact execNmtResetNode_only h covers_everySpan
  | nmtResetCommunication => exact execNmtResetCommunication_only h covers_everySpan
  | canEnableWrite => exact execCanEnableWrite_only h (by change Covers _ (span _ _); decide)
  | initialisationDone => exact execInitialisationDone_only h covers_everySpan
  | canBusOffRecovery => exact execCanBusOffRecovery_only h (by change Covers _ (span _ _); decide)
  | lanternDatagram => exact execLanternDatagram_only h covers_everySpan
  | lanternRead => exact execLanternRead_only h covers_everySpan
  | lanternWrite => exact execLanternWrite_only h covers_everySpan
  | domainBegin => exact execDomainBegin_only h covers_everySpan
  | domainData => exact execDomainData_only h covers_everySpan
  | domainEnd => exact execDomainEnd_only h covers_everySpan
  | domainRead => exact execDomainRead_only h covers_everySpan
  | lanternAbort => exact execLanternAbort_only h covers_everySpan
  | domainTimeout => exact execDomainTimeout_only h (by change Covers _ (span _ _); decide)
  | domainResult => exact execDomainResult_only h covers_everySpan
  | registerWindowAccess => exact execRegisterWindowAccess_only h covers_everySpan
  | mgtArp => exact execMgtArp_only h (by change Covers _ (span _ _); decide)
  | mgtIcmpEcho => exact execMgtIcmpEcho_only h (by change Covers _ (span _ _); decide)
  | journalMirror => exact execJournalMirror_only h (by change Covers _ (span _ _); decide)
  | tempSample => exact execTempSample_only h (by change Covers _ (span _ _); decide)
  | tempShiftHeld => exact execTempShiftHeld_only h (by change Covers _ (span _ _); decide)
  | replanIntervalExpiry => exact execReplanIntervalExpiry_only h (by change Covers _ (span _ _); decide)
  | replan => exact execReplan_only h (by change Covers _ (span _ _); decide)
  | replanningStart => exact execReplanningStart_only h (by change Covers _ (span _ _); decide)
  | sensorsSampled => exact execSensorsSampled_only h (by change Covers _ (span _ _); decide)
  | avsComplete => exact execAvsComplete_only h (by change Covers _ (span _ _); decide)
  | avsSettleExpiry => exact execAvsSettleExpiry_only h (by change Covers _ (span _ _); decide)
  | avsFail => exact execAvsFail_only h (by change Covers _ (span _ _); decide)
  | unretire => exact execUnretire_only h (by change Covers _ (span _ _); decide)
  | historyPoint => exact execHistoryPoint_only h (by change Covers _ (span _ _); decide)
  | penaltyDecay => exact execPenaltyDecay_only h (by change Covers _ (span _ _); decide)
  | ledgerTick => exact execLedgerTick_only h (by change Covers _ (span _ _); decide)
  | probationExpiry => exact execProbationExpiry_only h (by change Covers _ (span _ _); decide)
  | hitAdd => exact execHitAdd_only h (by change Covers _ (span _ _); decide)
  | actqRead => exact execActqRead_only h covers_everySpan
  | actqDone => exact execActqDone_only h (by change Covers _ (span _ _); decide)
  | ledgerAction => exact execLedgerAction_only h (by change Covers _ (span _ _); decide)
  | forget => exact execForget_only h (by change Covers _ (span _ _); decide)
  | ledgerSelect => exact execLedgerSelect_only h (by change Covers _ (span _ _); decide)
  | ledgerMirror => exact execLedgerMirror_only h (by change Covers _ (span _ _); decide)
  | doze => exact execDoze_only h (by change Covers _ (span _ _); decide)
  | run => exact execRun_only h (by change Covers _ (span _ _); decide)
  | eclipse => exact execEclipse_only h (by change Covers _ (span _ _); decide)
  | dusk => exact execDusk_only h (by change Covers _ (span _ _); decide)
  | powerAbort => exact execPowerAbort_only h (by change Covers _ (span _ _); decide)
  | eclipseCommit => exact execEclipseCommit_only h (by change Covers _ (span _ _); decide)
  | eclipseDrainExpiry => exact execEclipseDrainExpiry_only h (by change Covers _ (span _ _); decide)
  | eclipseGraceExpiry => exact execEclipseGraceExpiry_only h covers_everySpan
  | duskMirrorDone => exact execDuskMirrorDone_only h covers_everySpan
  | wakeCan => exact execWakeCan_only h covers_everySpan
  | wakeTiming => exact execWakeTiming_only h (by change Covers _ (span _ _); decide)
  | wakeRing => exact execWakeRing_only h (by change Covers _ (span _ _); decide)
  | wakeTimer => exact execWakeTimer_only h (by change Covers _ (span _ _); decide)
  | devReset => exact execDevReset_only h covers_everySpan
  | kick => exact execKick_only h (by change Covers _ (span _ _); decide)
  | watchdogExpiry => exact execWatchdogExpiry_only h (by change Covers _ (span _ _); decide)
  | coreReset => exact execCoreReset_only h (by change Covers _ (span _ _); decide)
  | dmaGroupReset => exact execDmaGroupReset_only h (by change Covers _ (span _ _); decide)
  | edgeFabricReset => exact execEdgeFabricReset_only h (by change Covers _ (span _ _); decide)
  | gnomonReset => exact execGnomonReset_only h (by change Covers _ (span _ _); decide)
  | worgaReset => exact execWorgaReset_only h (by change Covers _ (span _ _); decide)
  | readoutReset => exact execReadoutReset_only h (by change Covers _ (span _ _); decide)
  | pwrgdLoss => exact execPwrgdLoss_only h covers_everySpan
  | pinReset => exact execPinReset_only h covers_everySpan
  | powerOnReset => exact execPowerOnReset_only h covers_everySpan
  | dawn => exact execDawn_only h covers_everySpan
  | retentionScrub => exact execRetentionScrub_only h (by change Covers _ (span _ _); decide)
  | configStore => exact execConfigStore_only h (by change Covers _ (span _ _); decide)
  | configStoreAbort => exact execConfigStoreAbort_only h (by change Covers _ (span _ _); decide)
  | vendorUpdate => exact execVendorUpdate_only h (by change Covers _ (span _ _); decide)
  | erqHeadRead => exact execErqHeadRead_only h covers_everySpan
  | erqPop => exact execErqPop_only h (by change Covers _ (span _ _); decide)
  | brownout => exact execBrownout_only h covers_everySpan
  | aonBrownout => exact execAonBrownout_only h covers_everySpan
  | thermalTrip => exact execThermalTrip_only h covers_everySpan
  | smbStatus => exact execSmbStatus_only h (by change Covers _ (span _ _); decide)
  | smbIslandTemp => exact execSmbIslandTemp_only h (by change Covers _ (span _ _); decide)
  | smbHbmTemp => exact execSmbHbmTemp_only h (by change Covers _ (span _ _); decide)
  | smbVout => exact execSmbVout_only h (by change Covers _ (span _ _); decide)
  | smbErqUsed => exact execSmbErqUsed_only h (by change Covers _ (span _ _); decide)
  | smbStepping => exact execSmbStepping_only h (by change Covers _ (span _ _); decide)
  | smbId => exact execSmbId_only h (by change Covers _ (span _ _); decide)
  | smbNack => exact execSmbNack_only h (by change Covers _ (span _ _); decide)
  | idcode => exact execIdcode_only h (by change Covers _ (span _ _); decide)
  | samplePreload => exact execSamplePreload_only h (by change Covers _ (span _ _); decide)
  | extest => exact execExtest_only h (by change Covers _ (span _ _); decide)
  | clamp => exact execClamp_only h (by change Covers _ (span _ _); decide)
  | highz => exact execHighz_only h (by change Covers _ (span _ _); decide)
  | extestPulse => exact execExtestPulse_only h (by change Covers _ (span _ _); decide)
  | extestTrain => exact execExtestTrain_only h (by change Covers _ (span _ _); decide)
  | bypass => exact execBypass_only h (by change Covers _ (span _ _); decide)
  | memAccess => exact execMemAccess_only h (by change Covers _ (span _ _); decide)
  | tapReset => exact execTapReset_only h (by change Covers _ (span _ _); decide)
  | traceClear => exact execTraceClear_only h (by change Covers _ (span _ _); decide)
  | worgaLanePllLock => exact execWorgaLanePllLock_only h (by change Covers _ (span _ _); decide)
  | worgaCodeword => exact execWorgaCodeword_only h (by change Covers _ (span _ _); decide)
  | canBusStateChange => exact execCanBusStateChange_only h (by change Covers _ (span _ _); decide)
  | mgtBlockLock => exact execMgtBlockLock_only h (by change Covers _ (span _ _); decide)
  | refclkPresenceChange => exact execRefclkPresenceChange_only h (by change Covers _ (span _ _); decide)

/-- A command within a mask leaves everything outside it, and the commands that wait. -/
theorem Only.outside {m : Nat} {s t : State} (h : Only m s t) : Outside m s t := by
  refine ⟨h.pending, fun f i j hp hm => ?reg, fun hm a => ?byte, h.now, h.dawnAt, h.freeCount, h.sent, h.poison, h.gno,
    h.edge, h.ledIn, h.pri, h.arr, h.seq, h.wor, h.hbm, h.rdo, h.cpu, h.ring, h.sem, h.tar, h.led, h.dic, h.pwr, h.flash,
    h.tap, h.lanes, h.erq, h.counts⟩
  case reg =>
    rw [State.get, State.get, h.regs _ (by rwa [Fld.key_page]) (by rwa [Fld.key_page])]
  case byte => rw [State.byte, State.byte, h.mem hm]

/-- A command within any mask keeps the canonical form of the tables. -/
theorem Only.tablesWf {m : Nat} {s t : State} (h : Only m s t) (hs : tablesWf s) : tablesWf t := by
  obtain ⟨hcsr, hcounts, hmem, hpoison, hlanes⟩ := hs
  exact ⟨h.csrWf hcsr, h.countsWf hcounts, h.memWf hmem, h.poisonWf hpoison, h.lanesWf hlanes⟩

/-- Settles O58: a step is a command on the state without it in the queue, and no command touches the canonical forms. -/
theorem tablesStayCanonical : Obligations.TablesStayCanonical := by
  unfold Obligations.TablesStayCanonical
  intro s t hs h
  unfold step at h
  split at h
  case h_1 hq =>
    cases h
    exact ⟨hs, by simp [hq]⟩
  case h_2 c rest hq =>
    have hc := exec_only c h
    exact ⟨hc.tablesWf hs, by rw [hc.pending, hq, List.tail_cons]⟩

/-- Settles O59: whatever a command answers lies within its footprint. -/
theorem commandFrames : Obligations.CommandFrames := by
  unfold Obligations.CommandFrames
  exact fun c _ _ h => (exec_only c h).outside

/-- Settles O56: the step is the dispatch on the front of the queue. -/
theorem stepTakesTheFrontCommand : Obligations.StepTakesTheFrontCommand := by
  unfold Obligations.StepTakesTheFrontCommand
  refine ⟨fun s c rest h => ?_, fun s h => ?_⟩ <;> rw [step, h]

/-- A field of the state after reset reads as its reset value. -/
@[simp] theorem State.get_reset (f : Fld) (i j : Nat) : State.reset.get f i j = f.reset i j := Nat.zero_xor _

/-- Settles O57: every table of the state after reset is empty, so every field reads as its reset value. -/
theorem resetState : Obligations.ResetState := by
  unfold Obligations.ResetState
  refine ⟨State.get_reset, rfl, rfl, fun n _ => State.get_reset _ _ _, fun n _ => State.get_reset _ _ _, rfl, rfl,
    fun u _ => State.get_reset _ _ _, fun n _ => ?_, rfl, fun a => rfl, fun u r => ?_, rfl, rfl, rfl, rfl, rfl⟩
  · rw [State.bit, State.get_reset]
    rfl
  · rw [State.th, Th.reg]
    split
    · rfl
    · split <;> rfl

/-! # Registers under updates

When storing one field leaves another: the two stand on different pages, at different bits, or at offsets that no entry
of either makes equal. -/

/-- Every entry of `f` and every entry of `g` stand at different keys: their pages, their lowest bits, or their
offsets modulo everything by which instances differ. -/
def Fld.apart (f g : Fld) : Bool :=
  f.page != g.page || f.lsb % 32 != g.lsb % 32 ||
    (let d := Nat.gcd 0x10000 (Nat.gcd (Nat.gcd f.s1 f.s2) (Nat.gcd g.s1 g.s2))
     (f.lsb / 32 + f.base) % d != (g.lsb / 32 + g.base) % d)

theorem Fld.key_ne_of_apart {f g : Fld} (h : f.apart g = true) (i j k l : Nat) : g.key k l ≠ f.key i j := by
  intro e
  have hpage : g.page = f.page := by
    rw [← Fld.key_page g k l, ← Fld.key_page f i j, e]
  have hmod : (32 * g.off k l + g.lsb) % 0x200000 = (32 * f.off i j + f.lsb) % 0x200000 := by
    unfold Fld.key at e
    omega
  have hlsb : f.lsb % 32 = g.lsb % 32 := by omega
  have hoff : (f.lsb / 32 + f.off i j) % 0x10000 = (g.lsb / 32 + g.off k l) % 0x10000 := by omega
  simp only [Fld.apart, hpage, hlsb, bne_self_eq_false, Bool.or_false, Bool.false_or, bne_iff_ne, ne_eq] at h
  generalize hd : Nat.gcd 0x10000 (Nat.gcd (Nat.gcd f.s1 f.s2) (Nat.gcd g.s1 g.s2)) = d at h
  have hD : d ∣ 0x10000 := hd ▸ Nat.gcd_dvd_left _ _
  have hin : d ∣ Nat.gcd (Nat.gcd f.s1 f.s2) (Nat.gcd g.s1 g.s2) := hd ▸ Nat.gcd_dvd_right _ _
  have hf := hin.trans (Nat.gcd_dvd_left _ _)
  have hg := hin.trans (Nat.gcd_dvd_right _ _)
  have base_mod (b o s1 s2 i j : Nat) (h1 : d ∣ s1) (h2 : d ∣ s2) : (o + (b + s1 * i + s2 * j)) % d = (o + b) % d := by
    obtain ⟨x, rfl⟩ := h1
    obtain ⟨y, rfl⟩ := h2
    rw [show o + (b + d * x * i + d * y * j) = o + b + d * (x * i + y * j) by ring, Nat.add_mul_mod_self_left]
  refine h ?_
  rw [← base_mod f.base _ f.s1 f.s2 i j (hf.trans (Nat.gcd_dvd_left _ _)) (hf.trans (Nat.gcd_dvd_right _ _)),
    ← base_mod g.base _ g.s1 g.s2 k l (hg.trans (Nat.gcd_dvd_left _ _)) (hg.trans (Nat.gcd_dvd_right _ _)),
    ← Nat.mod_mod_of_dvd _ hD, ← Nat.mod_mod_of_dvd (g.lsb / 32 + _) hD]
  exact congrArg (· % d) hoff

section

variable {f g : Fld} (s : State) (v i j k l inst detail : Nat) (b : Bool) (h : f.apart g = true)
include h

@[simp] theorem State.get_put_apart : (s.put f v i j).get g k l = s.get g k l :=
  State.get_put_ne _ _ _ _ _ _ _ _ (Fld.key_ne_of_apart h i j k l)

@[simp] theorem State.bit_put_apart : (s.put f v i j).bit g k l = s.bit g k l :=
  State.bit_put_ne _ _ _ _ _ _ _ _ (Fld.key_ne_of_apart h i j k l)

@[simp] theorem State.get_err_apart : (s.err f i inst detail j).get g k l = s.get g k l :=
  State.get_err_ne _ _ _ _ _ _ _ _ _ (Fld.key_ne_of_apart h i j k l)

@[simp] theorem State.get_errBit_apart : (s.errBit f v i inst detail).get g k l = s.get g k l := by
  simp [State.errBit, h]

@[simp] theorem State.get_setBit_apart : (s.setBit f v b i j).get g k l = s.get g k l := by
  simp [State.setBit, h]

@[simp] theorem State.get_add_apart : (s.add f v i j).get g k l = s.get g k l := by
  unfold State.add
  split <;> simp [h]

@[simp] theorem State.get_inc_apart : (s.inc f i j).get g k l = s.get g k l :=
  State.get_add_apart s 1 i j k l h

@[simp] theorem State.get_raiseTo_apart : (s.raiseTo f v i j).get g k l = s.get g k l := by
  simp [State.raiseTo, h]

end

section

variable {f : Fld} (s : State) {v : Nat} (i j inst detail : Nat)

/-- A value that fits its field reads as it was stored. -/
theorem State.get_put_of_lt (h : v < 2 ^ f.width) : (s.put f v i j).get f i j = v := by
  rw [State.get_put_same, Nat.mod_eq_of_lt h]

@[simp] theorem State.bit_put_same : (s.put f v i j).bit f i j = (v % 2 ^ f.width != 0) := by
  rw [State.bit, State.get_put_same]

/-- An RC counter counts one and stays at its largest value (R642). -/
theorem State.get_inc_rc (h : f.acc = .rc) : (s.inc f i j).get f i j = min (2 ^ f.width - 1) (s.get f i j + 1) := by
  have hpos := Nat.two_pow_pos f.width
  rw [State.inc_rc _ _ _ _ h, State.get_updCopy, State.get_put_same]
  split
  · rw [Nat.mod_eq_of_lt (by omega)]
    omega
  · rw [Nat.mod_eq_of_lt (by omega)]
    omega

end

/-! ### Commands that act on a device that runs -/

theorem Covers.refl {a : Nat} : Covers a a := Nat.and_self a

/-- A field of a page outside a mask reads as before. -/
theorem Only.get {A : Nat} {s t : State} (h : Only A s t) {f : Fld} (hf : f.page < 23 ∧ A.testBit f.page = false)
    (i j : Nat) : t.get f i j = s.get f i j := by
  rw [State.get, State.get, h.regs _ (by rw [Fld.key_page]; exact hf.1) (by rw [Fld.key_page]; exact hf.2)]

/-- The same for a field's truth value. -/
theorem Only.bit {A : Nat} {s t : State} (h : Only A s t) {f : Fld} (hf : f.page < 23 ∧ A.testBit f.page = false)
    (i j : Nat) : t.bit f i j = s.bit f i j := by
  rw [State.bit, State.bit, h.get hf]

section

variable {c : Instr} {s : State} {F : State → State} {P : State → Prop}

theorem exec_live {t : State} (h : exec c s = .next (s.live F)) (ha : s.awake = true) (e : F s = t) :
    exec c s = .next t := by
  rw [h, State.live_of_awake F ha, e]

theorem exec_alive {t : State} (h : exec c s = .next (s.alive F)) (ha : stands s = true) (e : F s = t) :
    exec c s = .next t := by
  rw [h, State.alive, if_neg (by simpa [stands] using ha), e]

theorem does_live (h : exec c s = .next (s.live F)) (ha : s.awake = true) (hP : P (F s)) : Does c s P :=
  ⟨F s, exec_live h ha rfl, hP⟩

theorem does_alive (h : exec c s = .next (s.alive F)) (ha : stands s = true) (hP : P (F s)) : Does c s P :=
  ⟨F s, exec_alive h ha rfl, hP⟩

end

/-! # Gnomon: its lock states (R28)

What the end of the timeline and the entry to ACQUIRE leave of Gnomon's own registers. -/

/-- A field of Gnomon's page that no write to one of the listed fields can touch. -/
def Fld.gnoApart (l : List Fld) (f : Fld) : Bool := f.page == 1 && l.all fun g => g.apart f

/-- The fields of Gnomon's page that the end of a timeline may write beside its state. -/
def endFields : List Fld :=
  [GNO_ERR.named_cancelled, GNO_NAMED_USED.entries, GNO_DISCONT.count, GNO_REFUSED_CNT.count, GNO_ERR.accept_refused,
    GNO_STATUS.orbit_reset_pending, GNO_STATUS.numbered, GNO_INDEX.valid]

/-- What of the registers of Gnomon's page a change outside that page leaves: everything. -/
theorem Only.get_gno {A : Nat} {s t : State} (h : Only A s t) {l : List Fld} {f : Fld} (hf : f.gnoApart l = true)
    (hA : A.testBit 1 = false) (i j : Nat) : t.get f i j = s.get f i j := by
  simp only [Fld.gnoApart, Bool.and_eq_true, beq_iff_eq] at hf
  exact h.get (by rw [hf.1]; exact ⟨by decide, hA⟩) i j

section

variable {f : Fld} (hf : f.gnoApart endFields = true)
include hf

/-- A field that is listed, or stands on another page, does not touch one that is apart from the list. -/
theorem apart_of_endFields {g : Fld} (hg : g ∈ endFields ∨ g.page ≠ 1) : g.apart f = true := by
  simp only [Fld.gnoApart, Bool.and_eq_true, List.all_eq_true, beq_iff_eq] at hf
  obtain ⟨hp, hl⟩ := hf
  rcases hg with hg | hg
  · exact hl g hg
  · simp [Fld.apart, hp, hg]

variable (s : State) (i j : Nat)

theorem State.get_disarm (o : Owner) : (s.disarm o).get f i j = s.get f i j :=
  State.get_put_apart _ _ _ _ _ _ (apart_of_endFields hf (.inl (by decide)))

/-- The cancellation of a named-slot action writes no register of Gnomon but its error bit and the count of entries. -/
theorem State.get_cancelNamed (o : Owner) : (s.cancelNamed o).get f i j = s.get f i j := by
  cases o <;>
    simp (disch := exact apart_of_endFields hf (by decide)) only [State.cancelNamed, State.gnoErr, State.get_err_apart,
      State.disarmFacet, State.facetErr, State.exchangeCancelled, State.seqErr, State.csCancelled, State.get_put_apart,
      State.get_disarm hf, (State.tablesSettle_only Only.rfl Covers.refl).get_gno hf rfl,
      (State.prismCancelled_only Only.rfl Covers.refl).get_gno hf rfl,
      (State.epochCancelled_only Only.rfl Covers.refl).get_gno hf rfl]

theorem State.get_cancelAllNamed : s.cancelAllNamed.get f i j = s.get f i j := by
  unfold State.cancelAllNamed
  generalize s.gno.named = l
  induction l generalizing s with
  | nil => rfl
  | cons n l ih => rw [List.foldl_cons, ih, State.get_cancelNamed hf]

theorem State.get_discontinuity : s.discontinuity.get f i j = s.get f i j := by
  rw [State.discontinuity, (State.worgaDiscontinuity_only Only.rfl Covers.refl).get_gno hf rfl,
    State.get_cancelAllNamed hf, State.get_inc_apart _ _ _ _ _ (apart_of_endFields hf (by decide))]

theorem State.get_refuseAccept : s.refuseAccept.get f i j = s.get f i j := by
  simp (disch := exact apart_of_endFields hf (by decide)) only [State.refuseAccept, State.gnoErr, State.get_err_apart,
    State.get_inc_apart]

theorem State.get_discardWords : s.discardWords.get f i j = s.get f i j := by
  have hfold (l : List FcWord) (s : State) :
      (l.foldl (fun s w => if w.word % 256 = 2 then s.refuseAccept else s) s).get f i j = s.get f i j := by
    induction l generalizing s with
    | nil => rfl
    | cons w l ih =>
      rw [List.foldl_cons, ih]
      split
      · exact State.get_refuseAccept hf s i j
      · rfl
  rw [State.discardWords, State.get_put_apart _ _ _ _ _ _ (apart_of_endFields hf (by decide)), hfold, State.get_updGno]

/-- The end of the timeline writes Gnomon's state and the fields of `endFields` alone. -/
theorem State.get_endTimeline (st : Nat) : (s.endTimeline st).get f i j = (s.put GNO_STATUS.state st).get f i j := by
  unfold State.endTimeline
  dsimp only
  split
  · exact State.get_discardWords hf _ i j
  · have hlost (s : State) : (s.dropLater true).prismLost.unnumber.get f i j = s.get f i j := by
      simp (disch := exact apart_of_endFields hf (by decide)) only [State.unnumber, State.get_put_apart, State.get_updGno,
        (State.prismLost_only Only.rfl Covers.refl).get_gno hf rfl,
        (State.dropLater_only Only.rfl Covers.refl).get_gno hf rfl]
    rw [State.get_discontinuity hf]
    refine Eq.trans ?_ ((hlost _).trans (State.get_discardWords hf _ i j))
    split
    · exact (State.worgaTimelineLost_only Only.rfl Covers.refl).get_gno hf rfl i j
    · rfl

end

section

variable (s : State) (st t : Nat)

@[simp] theorem State.gnoState_endTimeline : (s.endTimeline st).gnoState = st % 8 := by
  rw [State.gnoState, State.get_endTimeline (by decide), State.get_put_same]
  rfl

theorem State.wrReg_gnoEnable (b : Bool) : s.wrReg 1 0 1 (b2n b) = s.put GNO_CTRL.enable (b2n b) := by
  have h : s.wrReg 1 0 1 (b2n b) = s.put GNO_CTRL.enable ((s.get GNO_CTRL.enable &&& 0) ||| (b2n b &&& 1)) := by
    cases b <;> rfl
  rw [h]
  cases b <;> simp [b2n]

/-- The entry to ACQUIRE writes the state, the flag of waiting writes, and the Glint outputs. -/
theorem State.get_enterAcquire {f : Fld} (hf : f.gnoApart [GNO_STATUS.shadow_pending] = true) (i j : Nat) :
    (s.enterAcquire t).get f i j = (s.put GNO_STATUS.state 1).get f i j := by
  have hshadow : GNO_STATUS.shadow_pending.apart f = true := by
    simp only [Fld.gnoApart, List.all_cons, Bool.and_eq_true] at hf
    exact hf.2.1
  rw [State.enterAcquire, (State.glintsIdle_only Only.rfl Covers.refl).get_gno hf rfl, State.publishShadow,
    State.get_put_apart _ _ _ _ _ _ hshadow]
  rfl

@[simp] theorem State.gnoState_enterAcquire : (s.enterAcquire t).gnoState = 1 := by
  rw [State.gnoState, State.get_enterAcquire _ _ (by decide), State.get_put_same]
  rfl

@[simp] theorem State.now_enterAcquire : (s.enterAcquire t).now = max s.now t := by
  rw [State.enterAcquire, (State.glintsIdle_only Only.rfl Covers.refl).now rfl]
  rfl

end

/-- A write of GNO_CTRL.enable = 1 in OFF enters ACQUIRE. -/
theorem State.writeGnoCtrl_on {s : State} (t : Nat) (h : s.gnoState = 0) :
    s.writeGnoCtrl t 1 (b2n true) = ((s.at t).put GNO_CTRL.enable 1).enterAcquire t := by
  have hst : ((s.at t).put GNO_CTRL.enable 1).gnoState = 0 := by
    rw [State.gnoState, State.get_put_apart _ _ _ _ _ _ (by decide)]
    exact h
  rw [State.writeGnoCtrl, State.wrReg_gnoEnable]
  exact if_pos ⟨State.bit_put_same _ 0 0, hst⟩

/-- A write of GNO_CTRL.enable = 0 in another state than OFF ends the timeline. -/
theorem State.writeGnoCtrl_off {s : State} (t : Nat) (h : s.gnoState ≠ 0) :
    s.writeGnoCtrl t 1 (b2n false) = ((s.at t).put GNO_CTRL.enable 0).endTimeline 0 := by
  have hst : ((s.at t).put GNO_CTRL.enable 0).gnoState ≠ 0 := by
    rwa [State.gnoState, State.get_put_apart _ _ _ _ _ _ (by decide)]
  have hoff : ((s.at t).put GNO_CTRL.enable 0).bit GNO_CTRL.enable = false := State.bit_put_same _ 0 0
  rw [State.writeGnoCtrl, State.wrReg_gnoEnable]
  exact (if_neg fun hc => by simp [b2n, hoff] at hc).trans (if_pos ⟨by simp [b2n, hoff], hst⟩)

/-- Once edges are good for long enough, the checks that depend on the slot periods leave Gnomon's page. -/
theorem State.get_acquired {s : State} (t : Nat) (h : s.gnoState = 1) {f : Fld} (hf : f.gnoApart [GNO_ACQ_TIME.us] = true)
    (i j : Nat) : (s.acquired t).get f i j =
      (((s.put GNO_STATUS.state 2).put GNO_PERIOD_MIN.period_fs
        (windowPeriod (s.gno.oldNom.getD (s.get GNO_XCLK_NOM.nom_hz)) (1000000 + s.gno.oldTol.getD (s.get GNO_TRACK.tol_ppm)))).put
        GNO_PERIOD_MAX.period_fs
        (windowPeriod (s.gno.oldNom.getD (s.get GNO_XCLK_NOM.nom_hz)) (1000000 - s.gno.oldTol.getD (s.get GNO_TRACK.tol_ppm)))).get f i j := by
  have hdl (n : Nat) (s : State) : (forN n s fun n s => s.publishDl n).get f i j = s.get f i j :=
    (Only.forN (A := 4) n Only.rfl fun n s hs => State.publishDl_only hs Covers.refl).get_gno hf rfl i j
  have htime : GNO_ACQ_TIME.us.apart f = true := by
    simp only [Fld.gnoApart, List.all_cons, Bool.and_eq_true] at hf
    exact hf.2.1
  unfold State.acquired
  rw [if_neg (by simpa using h)]
  simp only [(State.readoutPeriods_only Only.rfl Covers.refl).get_gno hf rfl,
    (State.worgaPeriods_only Only.rfl Covers.refl).get_gno hf rfl,
    (State.admissionOnPeriods_only Only.rfl Covers.refl).get_gno hf rfl, hdl,
    (State.prismBudget_only Only.rfl Covers.refl).get_gno hf rfl, State.get_put_apart _ _ _ _ _ _ htime]
  have hnom : ((s.at t).put GNO_STATUS.state 2).get GNO_XCLK_NOM.nom_hz = s.get GNO_XCLK_NOM.nom_hz :=
    State.get_put_apart _ _ _ _ _ _ (by decide)
  have htol : ((s.at t).put GNO_STATUS.state 2).get GNO_TRACK.tol_ppm = s.get GNO_TRACK.tol_ppm :=
    State.get_put_apart _ _ _ _ _ _ (by decide)
  rw [hnom, htol]
  rfl

@[simp] theorem State.gnoErr_eq (s : State) (f : Fld) : s.gnoErr f = s.err f := rfl

/-- The loss condition with holdover: HOLDOVER, with its error bits. -/
theorem State.xclkLoss_holdover {s : State} (t : Nat) (freq : Bool) (h : s.gnoState = 3)
    (hen : s.bit GNO_CTRL.holdover_en = true) (hlim : s.get GNO_HOLDOVER.limit ≠ 0) :
    s.xclkLoss t freq =
      let q := (s.at t).err GNO_ERR.xclk_lost
      (((if freq then q.err GNO_ERR.freq_window else q).put GNO_STATUS.state 4).updGno fun g => { g with holdSlots := 0 }).err
        GNO_ERR.holdover_entered := by
  have hen' (f : Fld) (hf : f.apart GNO_CTRL.holdover_en = true) (s : State) :
      (s.err f).bit GNO_CTRL.holdover_en = s.bit GNO_CTRL.holdover_en := by
    rw [State.bit, State.get_err_apart _ _ _ _ _ _ _ hf, State.bit]
  rw [State.xclkLoss]
  simp only [h, State.gnoErr_eq]
  rw [if_neg (by decide), if_pos]
  refine ⟨trivial, ?_, ?_⟩ <;> split <;> simp (disch := decide) [hen', hen, hlim]

theorem State.xclkLoss_lost {s : State} (t : Nat) (freq : Bool) (h : s.gnoState = 2) :
    s.xclkLoss t freq =
      let q := (s.at t).err GNO_ERR.xclk_lost
      ((if freq then q.err GNO_ERR.freq_window else q).err GNO_ERR.lost_entered).endTimeline 5 := by
  rw [State.xclkLoss]
  simp only [h, State.gnoErr_eq]
  rw [if_neg (by decide), if_neg (by simp)]

/-- Settles O2: each clause is one row of the table of R28. -/
theorem gnomonStates : Obligations.GnomonStates := by
  unfold Obligations.GnomonStates
  refine ⟨fun s t ha h => ?on, fun s t ha h => ?off, fun s t ha h => ?acquired, fun s t freq ha h hen hlim => ?holdover,
    fun s t freq ha h => ?lost, fun s ha h hn => ?recovery, fun s t ha h hn => ?expiry, fun s t ha h hauto => ?relock,
    fun s t ha h => ?reacquire⟩
  case on =>
    refine does_live rfl ha ?_
    rw [State.writeGnoCtrl_on t h]
    refine ⟨State.gnoState_enterAcquire _ _, ?_, ?_⟩
    · rw [State.bit, State.get_enterAcquire _ _ (by decide), State.get_put_apart _ _ _ _ _ _ (by decide), State.get_put_same]
      rfl
    · simp
  case off =>
    refine does_live rfl ha ?_
    rw [State.writeGnoCtrl_off t h]
    refine ⟨State.gnoState_endTimeline _ _, ?_⟩
    rw [State.bit, State.get_endTimeline (by decide), State.get_put_apart _ _ _ _ _ _ (by decide), State.get_put_same]
    rfl
  case acquired =>
    refine does_live rfl ha ⟨?_, ?_, ?_⟩
    · rw [State.gnoState, State.get_acquired t h (by decide)]
      simp (disch := decide)
      rfl
    · rw [State.get_acquired t h (by decide), State.get_put_apart _ _ _ _ _ _ (by decide), State.get_put_same]
      rfl
    · rw [State.get_acquired t h (by decide), State.get_put_same]
      rfl
  case holdover =>
    refine does_live rfl ha ?_
    rw [State.xclkLoss_holdover t freq h hen hlim]
    refine ⟨?_, rfl, ?_, State.get_err_same _ _ _ _ _ _ rfl, fun hf => ?_⟩
    · simp (disch := decide) [State.gnoState]
      rfl
    · cases freq <;> simp (disch := decide) [State.get_err_same]
    · simp (disch := decide) [hf, State.get_err_same]
  case lost =>
    refine does_live rfl ha ?_
    rw [State.xclkLoss_lost t freq h]
    refine ⟨State.gnoState_endTimeline _ _, ?_⟩
    rw [State.get_endTimeline (by decide), State.get_put_apart _ _ _ _ _ _ (by decide), State.get_err_same _ _ _ _ _ _ rfl]
  case recovery => exact exec_live rfl ha (if_pos ⟨h, hn⟩)
  case expiry =>
    refine does_live rfl ha ?_
    rw [State.holdoverExpiry, if_pos ⟨h, hn⟩]
    refine ⟨State.gnoState_endTimeline _ _, ?_⟩
    rw [State.get_endTimeline (by decide), State.get_put_apart _ _ _ _ _ _ (by decide)]
    exact State.get_err_same _ _ _ _ _ _ rfl
  case relock =>
    refine does_live rfl ha ?_
    rw [State.relock, if_pos ⟨h, .inr hauto⟩]
    exact State.gnoState_enterAcquire _ _
  case reacquire =>
    refine does_live rfl ha ?_
    rw [State.relock, if_pos ⟨h, .inl (by simp)⟩]
    exact State.gnoState_enterAcquire _ _

/-! # Gnomon: an internal accept released at the very instant of a barrier (R40) -/

/-- The state after reset with one internal accept, of crossing 0, released at instant 0. -/
def acceptAtZero : State := State.reset.updGno fun g => { g with accepts := [(0, 0)] }

/-- A barrier at instant 0 passes, and leaves the accept that was released at that instant to the next barrier. -/
theorem accepts_acceptAtZero :
    acceptAtZero.barrierReady = true ∧ (acceptAtZero.slotBarrier 0 []).gno.accepts = [(0, 0)] := by
  decide +kernel

/-- Refutes O3: an internal accept takes effect at the first barrier after its release, so that a barrier at the instant
of the release leaves it waiting. -/
theorem not_gnomonEdges : ¬ Obligations.GnomonEdges := by
  unfold Obligations.GnomonEdges
  intro h
  obtain ⟨-, hbarrier, -⟩ := h
  obtain ⟨hready, hkept⟩ := accepts_acceptAtZero
  obtain ⟨r, hr, -, hempty, -⟩ := hbarrier acceptAtZero 0 [] rfl hready
  have hexec : exec (.slotBarrier 0 []) acceptAtZero = .next (acceptAtZero.slotBarrier 0 []) := exec_live rfl rfl rfl
  rw [hexec] at hr
  injection hr with hr
  rw [← hr, hkept] at hempty
  cases hempty

/-! # Statements that a concrete state refutes -/

/-- What a command is claimed to do holds of the state that it answers. -/
theorem does_elim {c : Instr} {s t : State} {P : State → Prop} (h : Does c s P) (e : exec c s = .next t) : P t := by
  obtain ⟨r, hr, hP⟩ := h
  rw [e] at hr
  injection hr with hr
  exact hr ▸ hP

/-! ### A committed crossing carries the pipeline selects of its configuration (R137) -/

/-- A Prism whose working configuration selects plane 1 for half 0, with crossing 5 pending past its deadline. -/
def selectsPlaneOne : State :=
  { State.reset with
    pri := { State.reset.pri with
      pend := [{ serial := 5, index := 3, holdover := false }],
      work := { State.reset.pri.work with sel0 := 1 } },
    gno := { State.reset.gno with nextSerial := 30 } }

theorem sel0_selectsPlaneOne :
    (selectsPlaneOne.commitDeadline 0).pri.hidden.map (fun e => e.sel0) = some 1 := by
  decide +kernel

/-- Refutes O21: the hidden bank's crossing keeps the selects in force at its commit, where the statement has those of the
reset configuration. -/
theorem not_prismData : ¬ Obligations.PrismData := by
  unfold Obligations.PrismData
  intro h
  obtain ⟨-, hdeadline, -⟩ := h
  have hdoes := hdeadline selectsPlaneOne 0 { serial := 5, index := 3, holdover := false } [] rfl rfl (by decide) (by decide) rfl
  obtain ⟨-, hhidden, -⟩ := does_elim hdoes (exec_live rfl rfl rfl)
  have hsel := sel0_selectsPlaneOne
  rw [hhidden] at hsel
  exact absurd hsel (by decide)

/-! ### A corrected instruction fetch is reported (R361, R595) -/

/-- Thread 0 of core 0 runs at address 0. -/
def threadZeroRuns : State := State.reset.putThState 0 1

/-- It loads the byte at address 0, its own word fetched with a single-bit error. -/
def correctedFetch : Issue := { core := 0, thread := 0, fetch := .corrected }

theorem reports_correctedFetch :
    threadZeroRuns.erq.reports = [] ∧
      (threadZeroRuns.loadOp correctedFetch 0x10 1 0 0 1 true).erq.reports.length = 1 := by
  decide +kernel

/-- Refutes O48: a load whose own word is fetched with a corrected error adds to the pending reports, which the statement has
unchanged. -/
theorem not_localAccesses : ¬ Obligations.LocalAccesses := by
  unfold Obligations.LocalAccesses
  intro h
  obtain ⟨hlb, -⟩ := h
  have hdoes := hlb threadZeroRuns correctedFetch 1 0 0 (by decide +kernel) (by decide) (by decide) (by decide +kernel)
    (by decide +kernel) rfl rfl
  obtain ⟨-, ⟨hstill, -⟩, -⟩ := does_elim hdoes rfl
  obtain ⟨hbefore, hafter⟩ := reports_correctedFetch
  rw [congrArg (fun r => r.erq.reports) hstill, hbefore] at hafter
  cases hafter

/-! ### The debug unit lies outside the always-on domain (R554) -/

/-- Thread 0 is held by the debug unit while the power gates are closed. -/
def heldBehindGates : State := (State.reset.putThState 0 4).updPwr fun p => { p with gated := true }

/-- Refutes O55: a resume does nothing while the power gates are closed, though the always-on domain runs. -/
theorem not_threads : ¬ Obligations.Threads := by
  unfold Obligations.Threads
  intro h
  obtain ⟨-, -, -, -, -, -, -, -, -, -, -, -, -, -, -, -, -, hresume⟩ := h
  have hdoes := hresume heldBehindGates 0 0 rfl (by decide) (by decide +kernel)
  exact absurd (does_elim hdoes (congrArg Host.Outcome.next (State.live_of_not _ rfl))) (by decide +kernel)

/-! # The ALU group (R365) -/

section Arithmetic

/-- The count of leading zeros is the place of the first one from the top. -/
theorem clz32_toNat (x : BitVec 32) : clz32 x.toNat = ((List.range 32).find? fun n => x.getMsbD n).getD 32 := by
  have hlt := x.isLt
  rw [clz32, Nat.mod_eq_of_lt hlt]
  by_cases hx : x.toNat = 0
  · have h : x = 0#32 := BitVec.eq_of_toNat_eq hx
    subst h
    decide
  · have hk : x.toNat.log2 < 32 := (Nat.log2_lt hx).mpr hlt
    have hfind : (List.range 32).find? (fun n => x.getMsbD n) = some (31 - x.toNat.log2) := by
      rw [List.find?_range_eq_some]
      refine ⟨?_, by simp; omega, fun j hj => ?_⟩
      · rw [BitVec.getMsbD_eq_getLsbD, show 32 - 1 - (31 - x.toNat.log2) = x.toNat.log2 by omega, BitVec.getLsbD,
          Nat.testBit_log2 hx]
        simp; omega
      · rw [BitVec.getMsbD_eq_getLsbD, BitVec.getLsbD, Nat.testBit_lt_two_pow
          (Nat.lt_of_lt_of_le Nat.lt_log2_self (Nat.pow_le_pow_right (by omega) (by omega)))]
        simp
    rw [hfind, if_neg hx, Option.getD_some]
    omega

theorem lowestOne_toNat (x : BitVec 32) : lowestOne 32 x.toNat = (List.range 32).find? fun n => x.getLsbD n := by
  simp only [lowestOne, BitVec.getLsbD, Nat.testBit_eq_decide_div_mod_eq, Nat.shiftRight_eq_div_pow]

theorem popCount_eq (n v : Nat) : popCount n v = ((List.range n).filter fun i => v.testBit i).length := by
  induction n with
  | zero => rfl
  | succ n ih =>
    rw [popCount, ih, List.range_succ, List.filter_append, List.length_append, Nat.shiftRight_eq_div_pow]
    rcases Nat.mod_two_eq_zero_or_one (v / 2 ^ n) with h | h <;> simp [h, Nat.testBit_eq_decide_div_mod_eq]

/-- A word with a byte below it. -/
theorem toNat_append_byte {w : Nat} (x : BitVec w) (y : BitVec 8) : (x ++ y).toNat = 256 * x.toNat + y.toNat := by
  rw [BitVec.toNat_append, ← Nat.shiftLeft_add_eq_or_of_lt y.isLt, Nat.shiftLeft_eq, Nat.mul_comm]

theorem bswap_toNat (x : BitVec 32) : leNat (leBytes 4 x.toNat).reverse =
    (x.extractLsb' 0 8 ++ x.extractLsb' 8 8 ++ x.extractLsb' 16 8 ++ x.extractLsb' 24 8).toNat := by
  simp only [leBytes, List.reverse_cons, List.reverse_nil, List.nil_append, List.cons_append, leNat, toNat_append_byte,
    BitVec.extractLsb'_toNat, BitVec.toNat_ofNat, Nat.shiftRight_eq_div_pow, Nat.reducePow, Nat.div_one,
    Nat.div_div_eq_div_mul, Nat.reduceMul]
  omega

theorem sext_low_toNat {w : Nat} (hw : 0 < w) (x : BitVec 32) :
    sext w 32 x.toNat = ((x.extractLsb' 0 w).signExtend 32).toNat := by
  rw [← sext_toNat hw, sext, sext, BitVec.extractLsb'_toNat, toInt, toInt, Nat.shiftRight_zero, Nat.mod_mod]

theorem slt_eq_not_le (x y : BitVec 32) : x.slt y = !decide (y.toInt ≤ x.toInt) := by
  rw [BitVec.slt_eq_decide, ← decide_not]
  simp only [not_le]

theorem min_toNat (x y : BitVec 32) :
    (if slt32 x.toNat y.toNat then x.toNat else y.toNat) = if x.toInt ≤ y.toInt then x.toNat else y.toNat := by
  rw [slt32_toNat, BitVec.slt_eq_decide]
  rcases lt_trichotomy x.toInt y.toInt with h | h | h
  · simp [h, h.le]
  · simp [BitVec.eq_of_toInt_eq h]
  · simp [h.not_gt, h.not_ge]

theorem max_toNat (x y : BitVec 32) :
    (if slt32 x.toNat y.toNat then y.toNat else x.toNat) = if x.toInt ≤ y.toInt then y.toNat else x.toNat := by
  rw [slt32_toNat, BitVec.slt_eq_decide]
  rcases lt_trichotomy x.toInt y.toInt with h | h | h
  · simp [h, h.le]
  · simp [BitVec.eq_of_toInt_eq h]
  · simp [h.not_gt, h.not_ge]

/-- The two's complement of a 32-bit word, as the ALU forms it. -/
theorem andn_toNat (x y : BitVec 32) : x.toNat &&& (2 ^ 32 - 1 - y.toNat) = (x &&& ~~~y).toNat := by
  rw [BitVec.toNat_and, BitVec.toNat_not]

end Arithmetic

section Words

variable (keeper : Bool) (rd ra : Fin 32)

theorem legalWord_alu1 {func : Nat} (h1 : 0x0E ≤ func) (h2 : func ≤ 0x13) :
    legalWord keeper (encR 0x00 rd.val ra.val (0 : Fin 32).val func % 2 ^ 32) = (decide (rd.val < 24) && decide (ra.val < 24)) := by
  obtain ⟨hop, hrd, hra, hrb, hfunc⟩ := bits_encR 0x00 func rd ra 0 (by omega) (by omega)
  simp only [legalWord, hop, hrd, hra, hrb, hfunc]
  simp [h1, h2, show func ≤ 0x15 by omega]

end Words

section

variable {s : State} {u : Issue} {rd ra rb : Fin 32} {f : Nat → Nat → Nat} {v : Nat}

/-- An ALU-group instruction on one register writes `v` to rd, where `v` agrees with `f` of the operand on 32 bits. -/
theorem State.alu1_of_runs {func : Nat} (hr : runs s u = true) (h1 : 0x0E ≤ func) (h2 : func ≤ 0x13)
    (hrd : rd.val < 24) (hra : ra.val < 24)
    (hv : f (word s u ra).toNat ((s.th (thr u)).reg 0) % 2 ^ 32 = v % 2 ^ 32) :
    s.alu u func rd ra 0 f = (issued s u).retire (thr u) ((s.th (thr u)).pc + 4) fun t => t.setReg rd.val v := by
  refine State.issue_acted hr (by rw [legalWord_alu1 _ _ _ h1 h2]; simp [hrd, hra]) ?_
  rw [State.plain_issued, th_issued, ← toNat_word]
  exact congrArg _ (State.retire_setReg_congr _ _ _ _ hv)

/-- A three-register word of the ALU group that names no register raises trap 3 with itself. -/
theorem State.trapped_alu {func : Nat} (hr : runs s u = true) (hf : func ≤ 0x15) (hu : ¬ (0x0E ≤ func ∧ func ≤ 0x13))
    (hreg : 24 ≤ rd.val ∨ 24 ≤ ra.val ∨ 24 ≤ rb.val) (ht : (s.th (thr u)).inTrap = false) :
    trapped s (s.alu u func rd ra rb f) (thr u) 3 (2 ^ 21 * rd.val + 2 ^ 16 * ra.val + 2 ^ 11 * rb.val + func)
      (s.th (thr u)).pc := by
  have hw : legalWord (coreOf (thr u) == 4) (encR 0x00 rd.val ra.val rb.val func % 2 ^ 32) = false := by
    rw [legalWord_alu _ _ _ _ hf hu]
    simp
    omega
  rw [State.alu, State.issue_illegal hr hw, encR_eq, Nat.mul_zero, Nat.zero_add]
  exact State.trapped_takeTrap _ _ ht

end

/-- Settles O44: each code of the group agrees with its word operation on 32 bits, and an illegal word raises trap 3. -/
theorem aluGroup : Obligations.AluGroup := by
  unfold Obligations.AluGroup
  refine ⟨fun s u rd ra rb hr hrd hra hrb => congrArg _ (State.alu_of_runs hr (by decide) (by decide) hrd hra hrb ?add),
    fun s u rd ra rb hr hrd hra hrb => congrArg _ (State.alu_of_runs hr (by decide) (by decide) hrd hra hrb ?sub),
    fun s u rd ra rb hr hrd hra hrb => congrArg _ (State.alu_of_runs hr (by decide) (by decide) hrd hra hrb ?and),
    fun s u rd ra rb hr hrd hra hrb => congrArg _ (State.alu_of_runs hr (by decide) (by decide) hrd hra hrb ?or),
    fun s u rd ra rb hr hrd hra hrb => congrArg _ (State.alu_of_runs hr (by decide) (by decide) hrd hra hrb ?xor),
    fun _ _ _ _ _ => exec_sll, fun _ _ _ _ _ => exec_srl, fun _ _ _ _ _ => exec_sra,
    fun s u rd ra rb hr hrd hra hrb => congrArg _ (State.alu_of_runs hr (by decide) (by decide) hrd hra hrb ?slt),
    fun s u rd ra rb hr hrd hra hrb => congrArg _ (State.alu_of_runs hr (by decide) (by decide) hrd hra hrb ?sltu),
    fun s u rd ra rb hr hrd hra hrb => congrArg _ (State.alu_of_runs hr (by decide) (by decide) hrd hra hrb ?min),
    fun s u rd ra rb hr hrd hra hrb => congrArg _ (State.alu_of_runs hr (by decide) (by decide) hrd hra hrb ?max),
    fun s u rd ra rb hr hrd hra hrb => congrArg _ (State.alu_of_runs hr (by decide) (by decide) hrd hra hrb ?minu),
    fun s u rd ra rb hr hrd hra hrb => congrArg _ (State.alu_of_runs hr (by decide) (by decide) hrd hra hrb ?maxu),
    fun s u rd ra rb hr hrd hra hrb => congrArg _ (State.alu_of_runs hr (by decide) (by decide) hrd hra hrb ?andn),
    fun _ _ _ _ _ => exec_rotr,
    fun s u rd ra hr hrd hra => congrArg _ (State.alu1_of_runs hr (by decide) (by decide) hrd hra ?clz),
    fun s u rd ra hr hrd hra => congrArg _ (State.alu1_of_runs hr (by decide) (by decide) hrd hra ?ctz),
    fun s u rd ra hr hrd hra => congrArg _ (State.alu1_of_runs hr (by decide) (by decide) hrd hra ?popc),
    fun s u rd ra hr hrd hra => congrArg _ (State.alu1_of_runs hr (by decide) (by decide) hrd hra ?bswap),
    fun s u rd ra hr hrd hra => congrArg _ (State.alu1_of_runs hr (by decide) (by decide) hrd hra ?sextb),
    fun s u rd ra hr hrd hra => congrArg _ (State.alu1_of_runs hr (by decide) (by decide) hrd hra ?sexth),
    fun _ _ _ _ _ hr hreg ht => ⟨_, rfl, State.trapped_alu hr (by decide) (by decide) hreg ht⟩⟩
  case add => rw [BitVec.toNat_add, Nat.mod_mod]
  case sub =>
    have := (word s u rb).isLt
    rw [BitVec.toNat_sub, Nat.mod_mod]
    congr 1
    omega
  case and => rw [BitVec.toNat_and]
  case or => rw [BitVec.toNat_or]
  case xor => rw [BitVec.toNat_xor]
  case slt => rw [slt32_toNat, b2n]
  case sltu => rw [← BitVec.ult_eq_decide, b2n]
  case min => rw [min_toNat]
  case max => rw [max_toNat]
  case minu => rw [Nat.min_def]
  case maxu => rw [Nat.max_def]
  case andn => rw [andn_toNat]
  case clz => rw [clz32_toNat]
  case ctz => rw [lowestOne_toNat]
  case popc => rw [popCount_eq]; rfl
  case bswap => rw [bswap_toNat]
  case sextb => rw [sext_low_toNat (by decide)]
  case sexth => rw [sext_low_toNat (by decide)]

/-! # Products and divisions (R377 to R379) -/

section Arithmetic

theorem mulhs_toNat (x y : BitVec 32) : ofInt 32 (toInt 32 x.toNat * toInt 32 y.toNat / (2 ^ 32 : Nat)) =
    ((x.signExtend 64 * y.signExtend 64).extractLsb' 32 32).toNat := by
  have hmul : x.signExtend 64 * y.signExtend 64 = BitVec.ofInt 64 (x.toInt * y.toInt) := (BitVec.ofInt_mul _ _).symm
  rw [toInt_toNat (by decide), toInt_toNat (by decide), hmul, BitVec.extractLsb'_toNat, BitVec.toNat_ofInt, ofInt,
    Nat.shiftRight_eq_div_pow]
  generalize x.toInt * y.toInt = z
  omega

theorem mulhu_toNat (x y : BitVec 32) :
    x.toNat * y.toNat / 2 ^ 32 = ((x.zeroExtend 64 * y.zeroExtend 64).extractLsb' 32 32).toNat := by
  have hlt : x.toNat * y.toNat < 2 ^ 32 * 2 ^ 32 := Nat.mul_lt_mul'' x.isLt y.isLt
  have hx := x.isLt
  have hy := y.isLt
  rw [BitVec.extractLsb'_toNat, BitVec.toNat_mul, BitVec.toNat_setWidth, BitVec.toNat_setWidth,
    Nat.mod_eq_of_lt (show x.toNat < 2 ^ 64 by omega), Nat.mod_eq_of_lt (show y.toNat < 2 ^ 64 by omega),
    Nat.shiftRight_eq_div_pow]
  generalize x.toNat * y.toNat = z at hlt
  omega

/-- The quotient of the least word by -1 wraps to the least word on both sides. -/
theorem sdiv_toNat (x y : BitVec 32) : ofInt 32 ((toInt 32 x.toNat).tdiv (toInt 32 y.toNat)) = (x.sdiv y).toNat := by
  rw [toInt_toNat (by decide), toInt_toNat (by decide), ofInt_eq]
  congr 1
  exact BitVec.eq_of_toInt_eq (by rw [BitVec.toInt_ofInt, BitVec.toInt_sdiv])

theorem srem_toNat (x y : BitVec 32) : ofInt 32 ((toInt 32 x.toNat).tmod (toInt 32 y.toNat)) = (x.srem y).toNat := by
  rw [toInt_toNat (by decide), toInt_toNat (by decide), ofInt_eq, ← BitVec.toInt_srem, BitVec.ofInt_toInt]

end Arithmetic

section

variable {s : State} {u : Issue} {rd ra rb : Fin 32} {f : Nat → Nat → Nat} {v func : Nat}

theorem legalWord_mul (keeper : Bool) (hf : func ≤ 7) (h3 : func ≠ 3) (hrd : rd.val < 24) (hra : ra.val < 24) (hrb : rb.val < 24) :
    legalWord keeper (encR 0x01 rd.val ra.val rb.val func % 2 ^ 32) = true := by
  obtain ⟨hop, hd, ha, hb, hfunc⟩ := bits_encR 0x01 func rd ra rb (by omega) (by omega)
  simp only [legalWord, hop, hd, ha, hb, hfunc]
  simp [hf, h3, hrd, hra, hrb]

@[simp] theorem coreOf_thr (u : Issue) : coreOf (thr u) = u.core.val := by
  rw [coreOf, thr]
  omega

@[simp] theorem dividing_issued (s : State) (u : Issue) (c : Nat) : (issued s u).dividing c = s.dividing c := by
  simp only [State.dividing, th_issued]

/-- A product writes `v` to rd, where `v` agrees with `f` of the operands on 32 bits. -/
theorem State.mulOp_of_runs (hr : runs s u = true) (hf : func ≤ 7) (h3 : func ≠ 3)
    (hrd : rd.val < 24) (hra : ra.val < 24) (hrb : rb.val < 24)
    (hv : f (word s u ra).toNat (word s u rb).toNat % 2 ^ 32 = v % 2 ^ 32) :
    s.mulOp u func rd ra rb f = (issued s u).retire (thr u) ((s.th (thr u)).pc + 4) fun t => t.setReg rd.val v := by
  refine State.issue_acted hr (legalWord_mul _ hf h3 hrd hra hrb) ?_
  rw [State.plain_issued, th_issued, ← toNat_word, ← toNat_word, State.retire_setReg_congr _ _ _ _ hv]

/-- A division by another divisor than 0 holds its thread with the result, where the divider is free. -/
theorem State.divOp_of_runs (hr : runs s u = true) (hf : func ≤ 7) (h3 : func ≠ 3)
    (hrd : rd.val < 24) (hra : ra.val < 24) (hrb : rb.val < 24) (hfree : s.dividing u.core.val = false)
    (hb : word s u rb ≠ 0#32) (hv : f (word s u ra).toNat (word s u rb).toNat = v) :
    s.divOp u func rd ra rb f = (issued s u).updTh (thr u) fun t => { t with hold := .divide rd.val v } := by
  refine State.issue_acted hr (legalWord_mul _ hf h3 hrd hra hrb) ?_
  have hne : (word s u rb).toNat ≠ 0 := fun h => hb (BitVec.eq_of_toNat_eq h)
  simp only [dividing_issued, coreOf_thr, hfree, th_issued, ← toNat_word, hne, hv]
  rfl

/-- A division by 0 raises trap 10. -/
theorem State.trapped_divOp (hr : runs s u = true) (hf : func ≤ 7) (h3 : func ≠ 3)
    (hrd : rd.val < 24) (hra : ra.val < 24) (hrb : rb.val < 24) (hfree : s.dividing u.core.val = false)
    (hb : word s u rb = 0#32) (ht : (s.th (thr u)).inTrap = false) :
    trapped s (s.divOp u func rd ra rb f) (thr u) 10 0 (s.th (thr u)).pc := by
  have htrap : s.divOp u func rd ra rb f = (issued s u).takeTrap (thr u) 10 0 (s.th (thr u)).pc :=
    State.issue_trap hr (legalWord_mul _ hf h3 hrd hra hrb) (by simp [hfree, ← toNat_word, hb])
  rw [htrap]
  exact State.trapped_takeTrap _ _ ht

/-- A division leaves its thread where the divider is busy. -/
theorem State.divOp_busy (hr : runs s u = true) (hf : func ≤ 7) (h3 : func ≠ 3)
    (hrd : rd.val < 24) (hra : ra.val < 24) (hrb : rb.val < 24) (hbusy : s.dividing u.core.val = true) :
    s.divOp u func rd ra rb f = s := by
  rw [State.divOp, State.issue_of_runs hr, if_pos (legalWord_mul _ hf h3 hrd hra hrb)]
  simp [hbusy, Res.outcome]

theorem State.dividerDone_of_divide {id d : Nat} (hh : (s.th id).hold = .divide d v) (hs : (s.th id).stopping = false) :
    s.dividerDone id = s.retire id ((s.th id).pc + 4) fun t => { t with hold := .none }.setReg d v := by
  simp [State.dividerDone, hh, hs]

end

/-- Settles O47: products and quotients agree with the word operations on 32 bits, a divisor of 0 raises trap 10, and a busy
divider leaves the instruction. -/
theorem productsAndDivisions : Obligations.ProductsAndDivisions := by
  unfold Obligations.ProductsAndDivisions
  refine ⟨fun s u rd ra rb hr hrd hra hrb => congrArg _ (State.mulOp_of_runs hr (by decide) (by decide) hrd hra hrb ?mul),
    fun s u rd ra rb hr hrd hra hrb => congrArg _ (State.mulOp_of_runs hr (by decide) (by decide) hrd hra hrb ?mulhs),
    fun s u rd ra rb hr hrd hra hrb => congrArg _ (State.mulOp_of_runs hr (by decide) (by decide) hrd hra hrb ?mulhu),
    fun s u rd ra rb hr hrd hra hrb hf hb =>
      congrArg _ (State.divOp_of_runs hr (by decide) (by decide) hrd hra hrb hf hb (sdiv_toNat _ _)),
    fun s u rd ra rb hr hrd hra hrb hf hb =>
      congrArg _ (State.divOp_of_runs hr (by decide) (by decide) hrd hra hrb hf hb (BitVec.toNat_udiv).symm),
    fun s u rd ra rb hr hrd hra hrb hf hb =>
      congrArg _ (State.divOp_of_runs hr (by decide) (by decide) hrd hra hrb hf hb (srem_toNat _ _)),
    fun s u rd ra rb hr hrd hra hrb hf hb =>
      congrArg _ (State.divOp_of_runs hr (by decide) (by decide) hrd hra hrb hf hb (BitVec.toNat_umod).symm),
    fun s u rd ra rb hr hrd hra hrb hf hb ht =>
      ⟨_, rfl, State.trapped_divOp hr (by decide) (by decide) hrd hra hrb hf hb ht⟩,
    fun s u rd ra rb hr hrd hra hrb hbusy =>
      congrArg _ (State.divOp_busy hr (by decide) (by decide) hrd hra hrb hbusy),
    fun s core thread d v hh hs => congrArg _ (State.dividerDone_of_divide hh hs)⟩
  case mul => rw [BitVec.toNat_mul, Nat.mod_mod]
  case mulhs => rw [mulhs_toNat]
  case mulhu => rw [mulhu_toNat]

/-! # Memory as numbers, and accesses to local RAM (R1, R358, R361, R373) -/

section LittleEndian

@[simp] theorem length_leBytes (n v : Nat) : (leBytes n v).length = n := by
  induction n generalizing v with
  | zero => rfl
  | succ n ih => rw [leBytes, List.length_cons, ih]

theorem leNat_lt (l : List (BitVec 8)) : leNat l < 256 ^ l.length := by
  induction l with
  | nil => decide
  | cons b l ih =>
    have := b.isLt
    rw [leNat, List.length_cons, Nat.pow_succ]
    omega

theorem leNat_leBytes (n v : Nat) : leNat (leBytes n v) = v % 256 ^ n := by
  induction n generalizing v with
  | zero => rw [leBytes, leNat, Nat.pow_zero, Nat.mod_one]
  | succ n ih =>
    rw [leBytes, leNat, ih, BitVec.toNat_ofNat, show 256 ^ (n + 1) = 256 * 256 ^ n from Nat.pow_succ', Nat.mod_mul]

end LittleEndian

section Bytes

variable (s : State)

@[simp] theorem State.length_bytesAt (a n : Nat) : (s.bytesAt a n).length = n := by
  induction n generalizing a with
  | zero => rfl
  | succ n ih => rw [State.bytesAt, List.length_cons, ih]

theorem State.bytesAt_congr {s t : State} {a n : Nat} (h : ∀ x, a ≤ x → x < a + n → t.byte x = s.byte x) :
    t.bytesAt a n = s.bytesAt a n := by
  induction n generalizing a with
  | zero => rfl
  | succ n ih =>
    rw [State.bytesAt, State.bytesAt, h a (by omega) (by omega), ih fun x h1 h2 => h x (by omega) (by omega)]

theorem State.leMem_congr {s t : State} {a n : Nat} (h : ∀ x, a ≤ x → x < a + n → t.byte x = s.byte x) :
    t.leMem a n = s.leMem a n := by
  rw [State.leMem, State.leMem, State.bytesAt_congr h]

theorem State.leMem_of_mem {s t : State} (h : t.mem = s.mem) (a n : Nat) : t.leMem a n = s.leMem a n :=
  State.leMem_congr fun _ _ _ => by rw [State.byte, State.byte, h]

/-- A number reads as it was written, as far as its bytes hold it. -/
theorem State.leMem_setLeMem_same (a n v : Nat) : (s.setLeMem a n v).leMem a n = v % 256 ^ n := by
  have h := State.bytesAt_setBytes s a (leBytes n v)
  rw [length_leBytes] at h
  rw [State.leMem, State.setLeMem, h, leNat_leBytes]

theorem State.byte_setLeMem_out (a n v : Nat) {x : Nat} (h : x < a ∨ a + n ≤ x) : (s.setLeMem a n v).byte x = s.byte x :=
  State.byte_setBytes_out s a x _ (by simpa using h)

theorem State.leMem_setLeMem_out (a n v : Nat) {b m : Nat} (h : b + m ≤ a ∨ a + n ≤ b) :
    (s.setLeMem a n v).leMem b m = s.leMem b m :=
  State.leMem_congr fun _ _ _ => State.byte_setLeMem_out s a n v (by omega)

theorem State.cpu_setBytes (a : Nat) (l : List (BitVec 8)) : (s.setBytes a l).cpu = s.cpu := by
  induction l generalizing s a with
  | nil => rfl
  | cons b l ih => rw [State.setBytes, ih]; rfl

@[simp] theorem State.th_setLeMem (a n v id : Nat) : (s.setLeMem a n v).th id = s.th id := by
  rw [State.th, State.setLeMem, State.cpu_setBytes]
  rfl

end Bytes

section LocalRam

variable {s : State} {c id : Nat}

/-- An aligned access that lies in the local RAM of the core. -/
def Access.inLocalRam (c : Nat) (x : Access) : Prop := x.addr % x.size = 0 ∧ x.addr + x.size ≤ lramSize c

theorem Access.isLocal_addr {x : Access} (h : x.inLocalRam c) (hs : 0 < x.size) : isLocal x.addr = true := by
  have := lramSize_le c
  have := h.2
  simp only [isLocal, decide_eq_true_eq]
  omega

theorem State.accessTrap_local {x : Access} (h : x.inLocalRam c) (hs : 0 < x.size) : s.accessTrap c x = none := by
  have hl := Access.isLocal_addr h hs
  obtain ⟨ha, hb⟩ := h
  simp [State.accessTrap, ha, hl, hb]

theorem State.firstTrap_local {xs : List Access} (h : ∀ x ∈ xs, x.inLocalRam c ∧ 0 < x.size) : s.firstTrap c xs = none := by
  induction xs with
  | nil => rfl
  | cons x xs ih =>
    rw [State.firstTrap, State.accessTrap_local (h x (by simp)).1 (h x (by simp)).2]
    exact ih fun y hy => h y (by simp [hy])

/-- An access to local RAM acts at once, and the accesses after it follow. -/
theorem State.access_local {x : Access} (xs : List Access) (after : After) (got : List (Nat × Nat))
    (h : x.inLocalRam (coreOf id)) (hs : 0 < x.size) :
    s.access id after (x :: xs) got =
      (s.localAccess (coreOf id) x).1.access id after xs (got ++ (s.localAccess (coreOf id) x).2.toList) := by
  rw [State.access, State.accessTrap_local h hs]
  simp only [Access.isLocal_addr h hs, if_true]

/-- Loads from local RAM bring the numbers that it holds. -/
theorem State.access_loads (after : After) (l : List (Nat × Nat)) (got : List (Nat × Nat))
    (h : ∀ p ∈ l, (Access.load p.1 p.2).inLocalRam (coreOf id) ∧ 0 < p.2) :
    s.access id after (l.map fun p => .load p.1 p.2) got =
      s.accessEnds id after (got ++ l.map fun p => (p.2, s.leMem (lramBase (coreOf id) + p.1) p.2)) := by
  induction l generalizing got with
  | nil => rw [List.map_nil, State.access, List.map_nil, List.append_nil]
  | cons p l ih =>
    have hp := h p (by simp)
    rw [List.map_cons, State.access_local _ _ _ hp.1 hp.2, State.localAccess]
    rw [ih _ fun q hq => h q (by simp [hq])]
    simp [Access.addr]

/-- The state after stores to the local RAM of a core. -/
def State.storeLocal (s : State) (c : Nat) : List (Nat × Nat × Nat) → State
  | [] => s
  | p :: l => (s.setLeMem (lramBase c + p.1) p.2.1 p.2.2).storeLocal c l

/-- Stores to local RAM write it one after another. -/
theorem State.access_stores (after : After) (l : List (Nat × Nat × Nat)) (got : List (Nat × Nat))
    (h : ∀ p ∈ l, (Access.store p.1 p.2.1 p.2.2).inLocalRam (coreOf id) ∧ 0 < p.2.1) :
    s.access id after (l.map fun p => .store p.1 p.2.1 p.2.2) got = (s.storeLocal (coreOf id) l).accessEnds id after got := by
  induction l generalizing s with
  | nil => rw [List.map_nil, State.access, State.storeLocal]
  | cons p l ih =>
    have hp := h p (by simp)
    rw [List.map_cons, State.access_local _ _ _ hp.1 hp.2, State.localAccess, State.storeLocal,
      ← ih fun q hq => h q (by simp [hq])]
    simp [Access.addr]

@[simp] theorem State.th_storeLocal (l : List (Nat × Nat × Nat)) (v : Nat) : (s.storeLocal c l).th v = s.th v := by
  induction l generalizing s with
  | nil => rfl
  | cons p l ih => rw [State.storeLocal, ih, State.th_setLeMem]

/-- Stores leave the number at an address outside them. -/
theorem State.leMem_storeLocal_out {l : List (Nat × Nat × Nat)} {a n : Nat}
    (h : ∀ p ∈ l, a + n ≤ lramBase c + p.1 ∨ lramBase c + p.1 + p.2.1 ≤ a) : (s.storeLocal c l).leMem a n = s.leMem a n := by
  induction l generalizing s with
  | nil => rfl
  | cons p l ih =>
    rw [State.storeLocal, ih fun q hq => h q (by simp [hq]), State.leMem_setLeMem_out _ _ _ _ (h p (by simp))]

/-- Consecutive words read as they were stored. -/
theorem State.leMem_storeLocal_words (a k m : Nat) (v : Nat → Nat) {i : Nat} (hk : k ≤ i) (hi : i < k + m) :
    (s.storeLocal c ((List.range' k m).map fun i => (a + 4 * i, 4, v i))).leMem (lramBase c + (a + 4 * i)) 4 = v i % 2 ^ 32 := by
  induction m generalizing s k with
  | zero => omega
  | succ m ih =>
    rw [List.range'_succ, List.map_cons, State.storeLocal]
    by_cases h : i = k
    · subst h
      have hout : ∀ p ∈ (List.range' (i + 1) m).map fun i => (a + 4 * i, 4, v i),
          lramBase c + (a + 4 * i) + 4 ≤ lramBase c + p.1 ∨ lramBase c + p.1 + p.2.1 ≤ lramBase c + (a + 4 * i) := by
        intro p hp
        obtain ⟨j, hj, rfl⟩ := List.mem_map.mp hp
        have := List.mem_range'_1.mp hj
        dsimp only
        omega
      exact (State.leMem_storeLocal_out hout).trans (State.leMem_setLeMem_same _ _ _ _)
    · exact ih (k + 1) (by omega) (by omega)

end LocalRam

section Checks

variable {s : State} {c : Nat}

theorem mem_of_mem_eccFirst {m : EccMap} {e : Nat × Codeword} (h : e ∈ eccFirst m) : e ∈ m := by
  have hsub : ∀ (m l : EccMap), e ∈ m.foldl (fun l e => if l.any (fun x => x.1 == e.1) then l else l ++ [e]) l →
      e ∈ l ∨ e ∈ m := by
    intro m
    induction m with
    | nil => exact fun l h => .inl h
    | cons d m ih =>
      intro l h
      rcases ih _ h with h | h
      · beta_reduce at h
        split at h
        · exact .inl h
        · rcases List.mem_append.mp h with h | h
          · exact .inl h
          · exact .inr (by simp [List.mem_singleton.mp h])
      · exact .inr (by simp [h])
  simpa using hsub m [] h

/-- Counting one word that a check has read. -/
def State.lramCounted (c : Nat) (s : State) (e : Nat × Codeword) : State :=
  match e.2 with
  | .good => s
  | .corrected => s.lramCorrected c
  | .uncorrectable => s.lramUncorrectable c

theorem State.lramCounted_foldl {l : EccMap} (h : eccBad l = false) :
    (l.foldl (State.lramCounted c) s).mem = s.mem ∧ ∀ v, (l.foldl (State.lramCounted c) s).th v = s.th v := by
  induction l generalizing s with
  | nil => exact ⟨rfl, fun _ => rfl⟩
  | cons e l ih =>
    simp only [eccBad, List.any_cons, Bool.or_eq_false_iff, beq_eq_false_iff_ne, ne_eq] at h
    obtain ⟨hmem, hth⟩ := ih (s := State.lramCounted c s e) h.2
    have he : (State.lramCounted c s e).mem = s.mem ∧ ∀ v, (State.lramCounted c s e).th v = s.th v := by
      obtain ⟨n, w⟩ := e
      cases w with
      | good => exact ⟨rfl, fun _ => rfl⟩
      | corrected => exact ⟨State.mem_lramCorrected s c, State.th_lramCorrected s c⟩
      | uncorrectable => exact absurd rfl h.1
    rw [List.foldl_cons]
    exact ⟨hmem.trans he.1, fun v => (hth v).trans (he.2 v)⟩

/-- A check that finds no uncorrectable word counts the corrected ones; memory and the threads stay. -/
theorem State.lramChecked_of_good {ecc : EccMap} (h : eccBad ecc = false) (xs : List Access) :
    ∃ t, s.lramChecked c ecc xs = (t, none) ∧ t.mem = s.mem ∧ ∀ v, t.th v = s.th v := by
  have hgood : ∀ q, eccBad ((eccFirst ecc).filter q) = false := by
    intro q
    simp only [eccBad, List.any_eq_false] at h ⊢
    exact fun e he => h e (mem_of_mem_eccFirst (List.mem_of_mem_filter he))
  induction xs generalizing s with
  | nil => exact ⟨s, rfl, rfl, fun _ => rfl⟩
  | cons x xs ih =>
    unfold State.lramChecked
    simp only [hgood, Bool.false_eq_true, if_false]
    obtain ⟨t, ht, hmem, hth⟩ := ih (s := ((eccFirst ecc).filter _).foldl (State.lramCounted c) s)
    obtain ⟨hmem', hth'⟩ := State.lramCounted_foldl (s := s) (c := c) (hgood _)
    exact ⟨t, ht, hmem.trans hmem', fun v => (hth v).trans (hth' v)⟩

/-- Stores are not checked. -/
theorem State.lramChecked_stores (ecc : EccMap) (l : List (Nat × Nat × Nat)) :
    s.lramChecked c ecc (l.map fun p => .store p.1 p.2.1 p.2.2) = (s, none) := by
  induction l with
  | nil => rfl
  | cons p l ih => 
    rw [List.map_cons, State.lramChecked]
    simpa [eccBad] using ih

/-- Stores of an instruction to local RAM write it, and the instruction ends. -/
theorem State.accesses_stores {u : Issue} (after : After) (l : List (Nat × Nat × Nat))
    (h : ∀ p ∈ l, (Access.store p.1 p.2.1 p.2.2).inLocalRam (coreOf (thr u)) ∧ 0 < p.2.1) :
    s.accesses u after (l.map fun p => .store p.1 p.2.1 p.2.2) =
      .acted ((s.storeLocal (coreOf (thr u)) l).accessEnds (thr u) after []) := by
  have hft : s.firstTrap (coreOf (thr u)) (l.map fun p => .store p.1 p.2.1 p.2.2) = none :=
    State.firstTrap_local (List.forall_mem_map.mpr h)
  simp only [State.accesses, hft, State.lramChecked_stores, State.access_stores after l _ h]

/-- Loads of an instruction from local RAM without a bad word bring what it holds, and the instruction ends. -/
theorem State.accesses_loads {u : Issue} (after : After) (l : List (Nat × Nat)) (hgood : eccBad u.data = false)
    (h : ∀ p ∈ l, (Access.load p.1 p.2).inLocalRam (coreOf (thr u)) ∧ 0 < p.2) :
    ∃ t : State, t.mem = s.mem ∧ (∀ v, t.th v = s.th v) ∧
      s.accesses u after (l.map fun p => .load p.1 p.2) = .acted (t.accessEnds (thr u) after
        (l.map fun p => (p.2, s.leMem (lramBase (coreOf (thr u)) + p.1) p.2))) := by
  have hft : s.firstTrap (coreOf (thr u)) (l.map fun p => .load p.1 p.2) = none :=
    State.firstTrap_local (List.forall_mem_map.mpr h)
  obtain ⟨t, ht, hmem, hth⟩ := State.lramChecked_of_good (s := s) (c := coreOf (thr u)) hgood (l.map fun p => .load p.1 p.2)
  refine ⟨t, hmem, hth, ?_⟩
  simp only [State.accesses, hft, ht, State.access_loads after l _ h, List.nil_append, State.leMem_of_mem hmem]

end Checks

/-! # Transfers of control and register windows (R354, R356, R368) -/

section Words

variable (keeper : Bool) (rd ra rb : Fin 32)

/-- A SYS word is legal by its register codes and its function. -/
theorem legalWord_sys {func : Nat} (hf : func < 2048) :
    legalWord keeper (encR 0x02 rd.val ra.val rb.val func % 2 ^ 32) = legalSys keeper rd.val ra.val rb.val func := by
  obtain ⟨hop, hrd, hra, hrb, hfunc⟩ := bits_encR 0x02 func rd ra rb (by omega) hf
  simp only [legalWord, hop, hrd, hra, hrb, hfunc]
  rfl

theorem legalWord_branch {op : Nat} (h1 : 0x20 ≤ op) (h2 : op ≤ 0x25) (disp : BitVec 16) :
    legalWord keeper (encB op ra.val rb.val disp.toNat % 2 ^ 32) = (decide (ra.val < 24) && decide (rb.val < 24)) := by
  have henc : encB op ra.val rb.val disp.toNat = encI op ra.val rb.val disp.toNat := rfl
  obtain ⟨hop, hra, hrb⟩ := bits_encI op ra rb disp (by omega)
  rw [henc]
  simp only [legalWord, hop, hra, hrb]
  rw [if_neg (by omega), if_neg (by omega), if_neg (by omega), if_neg (by omega), if_neg (by omega), if_neg (by omega),
    if_neg (by omega), if_neg (by omega), if_neg (by omega), if_neg (by omega), if_neg (by omega), if_pos (by omega)]

theorem legalWord_jump {op : Nat} (h : op = 0x26 ∨ op = 0x27) (disp : BitVec 26) :
    legalWord keeper (encJ op disp.toNat % 2 ^ 32) = true := by
  have hd := disp.isLt
  have hop : bits (encJ op disp.toNat % 2 ^ 32) 26 6 = op := by
    simp only [bits, encJ, Nat.shiftLeft_eq, Nat.shiftRight_eq_div_pow]
    omega
  simp only [legalWord, hop]
  rcases h with rfl | rfl <;> rfl

end Words

section Traps

variable {s : State} {u : Issue} {enc cause info : Nat} {body : State → Res}

/-- The issue of an instruction that raises a trap outside the trap window enters it. -/
theorem State.trapped_issue (hr : runs s u = true) (hw : legalWord (coreOf (thr u) == 4) (enc % 2 ^ 32) = true)
    (ht : (s.th (thr u)).inTrap = false) (hb : body (issued s u) = .trap cause info) :
    trapped s (s.issue u enc body) (thr u) cause info (s.th (thr u)).pc := by
  rw [State.issue_trap hr hw hb]
  exact State.trapped_takeTrap _ _ ht

theorem State.trapped_sysOp {rd ra rb : Fin 32} {func : Nat} {sys : State → Th → Nat → Res} (hr : runs s u = true)
    (hw : legalWord (coreOf (thr u) == 4) (encR 0x02 rd.val ra.val rb.val func % 2 ^ 32) = true)
    (ht : (s.th (thr u)).inTrap = false)
    (hb : sys (issued s u) (s.th (thr u)) (encR 0x02 rd.val ra.val rb.val func) = .trap cause info) :
    trapped s (s.sysOp u rd ra rb func sys) (thr u) cause info (s.th (thr u)).pc := by
  rw [State.sysOp_trap hr hw hb]
  exact State.trapped_takeTrap _ _ ht

/-- The words of the SYS group that name no register, on every core. -/
theorem legalWord_bare (keeper : Bool) {func : Nat} (hf : func ≤ 0x0A ∨ func = 0x13) :
    legalWord keeper (encR 0x02 (0 : Fin 32).val (0 : Fin 32).val (0 : Fin 32).val func % 2 ^ 32) = true := by
  rw [legalWord_sys _ _ _ _ (by omega)]
  rcases hf with hf | rfl
  · interval_cases func <;> rfl
  · rfl

theorem legalWord_target (keeper : Bool) {ra : Fin 32} (hra : ra.val < 24) {func : Nat} (hf : func = 4 ∨ func = 5) :
    legalWord keeper (encR 0x02 (0 : Fin 32).val ra.val (0 : Fin 32).val func % 2 ^ 32) = true := by
  rw [legalWord_sys _ _ _ _ (by omega)]
  rcases hf with rfl | rfl <;> simpa [legalSys] using hra

end Traps

section Control

variable {s : State} {u : Issue} {ra rb : Fin 32} {disp : BitVec 16} {p : Nat → Nat → Bool} {op target enc a : Nat} {rest : List Nat}

theorem State.transfer_issued (f : Th → Th) (h : pcOk (thr u) target = true) :
    (issued s u).transfer (thr u) target f = .acted ((issued s u).retire (thr u) target f) := by
  rw [State.transfer, if_pos h]

/-- A branch goes to its target where its condition holds, else on (R368). -/
theorem State.branchOp_of_runs (c : Prop) [Decidable c] (hr : runs s u = true) (h1 : 0x20 ≤ op) (h2 : op ≤ 0x25)
    (hra : ra.val < 24) (hrb : rb.val < 24) (hp : p (word s u ra).toNat (word s u rb).toNat = decide c)
    (hok : c → pcOk (thr u) (BitVec.ofNat 32 (s.th (thr u)).pc + 4 * disp.signExtend 32).toNat = true) :
    s.branchOp u op ra rb disp p = (issued s u).retire (thr u)
      (if c then (BitVec.ofNat 32 (s.th (thr u)).pc + 4 * disp.signExtend 32).toNat else (s.th (thr u)).pc + 4) := by
  refine State.issue_acted hr (by rw [legalWord_branch _ _ _ h1 h2]; simp [hra, hrb]) ?_
  rw [toNat_word, toNat_word] at hp
  simp only [th_issued, hp, relative_toNat (show 0 < 16 by decide)]
  by_cases hc : c
  · simp only [hc, decide_true, if_true, State.transfer_issued _ (hok hc)]
  · simp only [hc, decide_false, Bool.false_eq_true, if_false, State.plain_issued]

/-- A branch that is taken to an address outside local RAM raises trap 1 with the address (R360). -/
theorem State.trapped_branchOp (hr : runs s u = true) (h1 : 0x20 ≤ op) (h2 : op ≤ 0x25) (hra : ra.val < 24) (hrb : rb.val < 24)
    (ht : (s.th (thr u)).inTrap = false) (hp : p (word s u ra).toNat (word s u rb).toNat = true)
    (hbad : pcOk (thr u) (BitVec.ofNat 32 (s.th (thr u)).pc + 4 * disp.signExtend 32).toNat = false) :
    trapped s (s.branchOp u op ra rb disp p) (thr u) 1 (BitVec.ofNat 32 (s.th (thr u)).pc + 4 * disp.signExtend 32).toNat
      (s.th (thr u)).pc := by
  rw [toNat_word, toNat_word] at hp
  have htrap : s.branchOp u op ra rb disp p = (issued s u).takeTrap (thr u) 1
      (BitVec.ofNat 32 (s.th (thr u)).pc + 4 * disp.signExtend 32).toNat (s.th (thr u)).pc := by
    refine State.issue_trap hr (by rw [legalWord_branch _ _ _ h1 h2]; simp [hra, hrb]) ?_
    simp only [th_issued, hp, relative_toNat (show 0 < 16 by decide), if_true, State.transfer, hbad, Bool.false_eq_true, if_false]
  rw [htrap]
  exact State.trapped_takeTrap _ _ ht

section Calls

variable (ht : (s.th (thr u)).inTrap = false)
include ht

/-- A call pushes the address after it (R356). -/
theorem State.callTo_issued (hlen : (s.th (thr u)).rstack.length < 128) (h : pcOk (thr u) target = true) :
    (issued s u).callTo (thr u) enc target = .acted ((issued s u).retire (thr u) target fun t =>
      { t with rstack := ((s.th (thr u)).pc + 4) :: (s.th (thr u)).rstack }) := by
  simp only [State.callTo, th_issued, h, ht, show ¬ 128 ≤ (s.th (thr u)).rstack.length by omega, not_true_eq_false, if_false,
    Bool.false_eq_true, State.retire, State.updTh, Sparse.upd]
  rw [show Sparse.get {} (issued s u).cpu.threads (thr u) = s.th (thr u) from th_issued s u (thr u)]

theorem State.callTo_full (hlen : (s.th (thr u)).rstack.length = 128) (h : pcOk (thr u) target = true) :
    (issued s u).callTo (thr u) enc target = .trap 4 128 := by
  simp [State.callTo, h, ht, hlen]

/-- A return pops an address (R356). -/
theorem State.returnFrom_issued (hst : (s.th (thr u)).rstack = a :: rest) (h : pcOk (thr u) a = true) (close : Bool)
    (hlive : close = true → 1 < (s.th (thr u)).live) :
    (issued s u).returnFrom (thr u) enc close = .acted ((issued s u).retire (thr u) a fun t =>
      { (if close then t.closeWindow else t) with rstack := rest }) := by
  have hc : (close && decide ((s.th (thr u)).live ≤ 1)) = false := by
    cases close with
    | false => rfl
    | true => simpa using hlive rfl
  simp [State.returnFrom, hst, h, ht, hc]

theorem State.returnFrom_empty (hst : (s.th (thr u)).rstack = []) (close : Bool) :
    (issued s u).returnFrom (thr u) enc close = .trap 5 0 := by
  simp [State.returnFrom, hst, ht]

/-- RETC returns and closes a window (R356). -/
theorem exec_retc (hr : runs s u = true) (hst : (s.th (thr u)).rstack = a :: rest) (h : pcOk (thr u) a = true)
    (hlive : 1 < (s.th (thr u)).live) :
    exec (.retc u) s = .next ((issued s u).retire (thr u) a fun t => { t.closeWindow with rstack := rest }) :=
  congrArg _ (State.sysOp_acted hr (legalWord_bare _ (by decide))
    (State.returnFrom_issued ht hst h true fun _ => hlive))

end Calls

end Control

section Windows

variable {s : State} {u : Issue}

/-- The end of an instruction leaves the mark of a stop. -/
@[simp] theorem Th.stopping_setReg (t : Th) (r v : Nat) : (t.setReg r v).stopping = t.stopping := by
  unfold Th.setReg
  split
  · rfl
  · split <;> rfl

@[simp] theorem Th.stopping_finish (t : Th) (after : After) (got : List (Nat × Nat)) :
    (t.finish after got).stopping = t.stopping := by
  cases after <;> simp [Th.finish, Th.setFreg]

/-- A thread that nothing holds any more. -/
def Th.released (h : Th) : Th := { h with hold := .none }

@[simp] theorem Th.stopping_released (h : Th) : h.released.stopping = h.stopping := rfl

@[simp] theorem Th.reg_released (h : Th) (r : Nat) : h.released.reg r = h.reg r := rfl

/-- The end of the accesses of a thread that is not to stop. -/
theorem State.accessEnds_of_not_stopping {id : Nat} (hs : (s.th id).stopping = false) (after : After) (got : List (Nat × Nat)) :
    s.accessEnds id after got = (s.updTh id Th.released).retire id ((s.th id).pc + 4) fun h =>
      h.finish after got := by
  have hstay : (((s.updTh id Th.released).retire id ((s.th id).pc + 4) fun h =>
      h.finish after got).th id).stopping = false := by
    rw [State.th_retire]
    exact (Th.stopping_finish _ after got).trans (by simpa using hs)
  unfold Th.released at hstay ⊢
  rw [State.accessEnds]
  simp only [hstay, Bool.false_eq_true, if_false]

theorem State.th_accessEnds {id : Nat} (hs : (s.th id).stopping = false) (after : After) (got : List (Nat × Nat)) :
    (s.accessEnds id after got).th id = { (s.th id).released.finish after got with
      pc := (s.th id).pc + 4, instret := ((s.th id).instret + 1) % 2 ^ 64 } := by
  rw [State.accessEnds_of_not_stopping hs, State.th_retire, State.th_updTh_same]
  rfl

theorem State.reg_accessEnds {id : Nat} (hs : (s.th id).stopping = false) (after : After) (got : List (Nat × Nat)) (r : Nat) :
    ((s.accessEnds id after got).th id).reg r = ((s.th id).released.finish after got).reg r := by
  rw [State.th_accessEnds hs]
  rfl

theorem State.mem_accessEnds {id : Nat} (hs : (s.th id).stopping = false) (after : After) (got : List (Nat × Nat)) :
    (s.accessEnds id after got).mem = s.mem := by
  rw [State.accessEnds_of_not_stopping hs]
  rfl

section SpillAndFill

/-- What SPILL stores: the oldest window, below g7. -/
def Th.spillWords (h : Th) : List (Nat × Nat × Nat) :=
  (List.range' 0 16).map fun i => (h.reg 7 - 64 + 4 * i, 4, Sparse.get 0 h.w (16 * ((h.cur + 8 - h.live + 1) % 8) + i))

/-- What FILL loads: the window at g7. -/
def Th.fillWords (h : Th) : List (Nat × Nat) := (List.range' 0 16).map fun i => (h.reg 7 + 4 * i, 4)

variable (hr : runs s u = true) (hs : (s.th (thr u)).stopping = false) (ht : (s.th (thr u)).inTrap = true)
  (hal : (s.th (thr u)).reg 7 % 4 = 0)
include hr ht hal

/-- SPILL stores the oldest window below g7 (R354). -/
theorem exec_spill (hlive : 1 < (s.th (thr u)).live) (hlo : 64 ≤ (s.th (thr u)).reg 7)
    (hhi : (s.th (thr u)).reg 7 ≤ lramSize u.core.val) :
    exec (.spill u) s =
      .next (((issued s u).storeLocal u.core.val (s.th (thr u)).spillWords).accessEnds (thr u) .spill []) := by
  have hexec : exec (.spill u) s = execSpill u s := rfl
  have hsize := lramSize_le u.core.val
  generalize hh : s.th (thr u) = h at *
  have hstores : ((List.range 16).map fun i => Access.store ((h.reg 7 + 2 ^ 32 - 64 + 4 * i) % 2 ^ 32) 4
      (Sparse.get 0 h.w (16 * ((h.cur + 8 - h.live + 1) % 8) + i))) = h.spillWords.map fun p => .store p.1 p.2.1 p.2.2 := by
    rw [Th.spillWords, List.map_map, List.range_eq_range']
    refine List.map_congr_left fun i hi => ?_
    have := List.mem_range'_1.mp hi
    rw [Function.comp_apply, show (h.reg 7 + 2 ^ 32 - 64 + 4 * i) % 2 ^ 32 = h.reg 7 - 64 + 4 * i by omega]
  have hlocal : ∀ p ∈ h.spillWords, (Access.store p.1 p.2.1 p.2.2).inLocalRam (coreOf (thr u)) ∧ 0 < p.2.1 := by
    intro p hp
    obtain ⟨i, hi, rfl⟩ := List.mem_map.mp hp
    have := List.mem_range'_1.mp hi
    simp only [Access.inLocalRam, Access.addr, Access.size, coreOf_thr]
    omega
  rw [hexec, execSpill, State.sysOp_acted hr ?legal ?acts]
  case legal => rw [legalWord_sys _ _ _ _ (by decide)]; rfl
  case acts =>
    simp only [hh, ht, not_true_eq_false, false_or, show ¬ h.live ≤ 1 by omega, if_false]
    rw [hstores, State.accesses_stores _ _ hlocal, coreOf_thr]

/-- FILL loads the window at g7 (R354). -/
theorem exec_fill (hlive : (s.th (thr u)).live < 8) (hhi : (s.th (thr u)).reg 7 + 64 ≤ lramSize u.core.val)
    (hgood : eccBad u.data = false) :
    ∃ t : State, t.mem = s.mem ∧ (∀ v, t.th v = s.th v) ∧
      exec (.fill u) s = .next (t.accessEnds (thr u) .fill ((s.th (thr u)).fillWords.map fun p =>
        (p.2, s.leMem (lramBase u.core.val + p.1) p.2))) := by
  have hexec : exec (.fill u) s = execFill u s := rfl
  have hsize := lramSize_le u.core.val
  have hth := th_issued s u
  generalize hh : s.th (thr u) = h at *
  have hloads : ((List.range 16).map fun i => Access.load ((h.reg 7 + 4 * i) % 2 ^ 32) 4) =
      h.fillWords.map fun p => .load p.1 p.2 := by
    rw [Th.fillWords, List.map_map, List.range_eq_range']
    refine List.map_congr_left fun i hi => ?_
    have := List.mem_range'_1.mp hi
    rw [Function.comp_apply, show (h.reg 7 + 4 * i) % 2 ^ 32 = h.reg 7 + 4 * i by omega]
  have hlocal : ∀ p ∈ h.fillWords, (Access.load p.1 p.2).inLocalRam (coreOf (thr u)) ∧ 0 < p.2 := by
    intro p hp
    obtain ⟨i, hi, rfl⟩ := List.mem_map.mp hp
    have := List.mem_range'_1.mp hi
    simp only [Access.inLocalRam, Access.addr, Access.size, coreOf_thr]
    omega
  obtain ⟨t, hmem, hsame, hacc⟩ := State.accesses_loads (s := issued s u) .fill _ hgood hlocal
  refine ⟨t, hmem.trans (mem_issued s u), fun v => (hsame v).trans (hth v), ?_⟩
  rw [hexec, execFill, State.sysOp_acted hr ?legal ?acts]
  case legal => rw [legalWord_sys _ _ _ _ (by decide)]; rfl
  case acts =>
    simp only [hh, ht, not_true_eq_false, false_or, show ¬ 8 ≤ h.live by omega, if_false]
    rw [hloads, hacc, coreOf_thr]
    simp only [State.leMem_of_mem (mem_issued s u)]

end SpillAndFill

section FillRegisters

variable (h : Th)

theorem Th.reg_live (n r : Nat) : { h with live := n }.reg r = h.reg r := rfl

theorem Th.reg7_finish_spill (hlo : 64 ≤ h.reg 7) : (h.finish .spill []).reg 7 = h.reg 7 - 64 := by
  have hlt := Th.reg_lt h 7
  rw [Th.finish, Th.reg_live, Th.reg_setReg_same _ _ (by decide)]
  omega

theorem Th.reg7_finish_fill (got : List (Nat × Nat)) (hhi : h.reg 7 + 64 < 2 ^ 32) :
    (h.finish .fill got).reg 7 = h.reg 7 + 64 := by
  rw [Th.finish, Th.reg_live, Th.reg_setReg_same _ _ (by decide), Nat.mod_eq_of_lt hhi]

/-- FILL leaves in the window below the oldest live one what it loaded. -/
theorem Th.get_finish_fill (got : List (Nat × Nat)) {i : Nat} (hi : i < 16) :
    Sparse.get 0 (h.finish .fill got).w (16 * ((h.cur + 8 - h.live) % 8) + i) = (got.getD i (4, 0)).2 := by
  have hw : (h.finish .fill got).w = (List.range 16).foldl (fun w i =>
      Sparse.set 0 w (16 * ((h.cur + 8 - h.live) % 8) + i) (got.getD i (4, 0)).2) h.w := by
    rfl
  rw [hw, Sparse.get_foldl_set, if_pos (by omega), Nat.add_sub_cancel_left]

end FillRegisters

end Windows

/-- Settles O50: branches and jumps go to their targets or raise trap 1, calls and returns move the return stack or raise its
trap, and SPILL and FILL carry a window through local RAM. -/
theorem transfers : Obligations.Transfers := by
  unfold Obligations.Transfers
  refine ⟨fun s u ra rb d hr hra hrb hok => congrArg _ (State.branchOp_of_runs _ hr (by decide) (by decide) hra hrb ?beq hok),
    fun s u ra rb d hr hra hrb hok => congrArg _ (State.branchOp_of_runs _ hr (by decide) (by decide) hra hrb ?bne hok),
    fun s u ra rb d hr hra hrb hok => congrArg _ (State.branchOp_of_runs _ hr (by decide) (by decide) hra hrb ?blt hok),
    fun s u ra rb d hr hra hrb hok => congrArg _ (State.branchOp_of_runs _ hr (by decide) (by decide) hra hrb ?bge hok),
    fun s u ra rb d hr hra hrb hok => congrArg _ (State.branchOp_of_runs _ hr (by decide) (by decide) hra hrb ?bltu hok),
    fun s u ra rb d hr hra hrb hok => congrArg _ (State.branchOp_of_runs _ hr (by decide) (by decide) hra hrb ?bgeu hok),
    fun s u ra rb d hr hra hrb ht heq hbad =>
      ⟨_, rfl, State.trapped_branchOp hr (by decide) (by decide) hra hrb ht (by simp [heq]) hbad⟩,
    fun s u d hr hok => congrArg _ (State.issue_acted hr (legalWord_jump _ (.inl rfl) d) ?jmp),
    fun s u d hr ht hlen hok => congrArg _ (State.issue_acted hr (legalWord_jump _ (.inr rfl) d) ?call),
    fun s u d hr ht hlen hok => ⟨_, rfl, State.trapped_issue hr (legalWord_jump _ (.inr rfl) d) ht ?callFull⟩,
    fun s u ra hr hra hok => congrArg _ (State.sysOp_acted hr (legalWord_target _ hra (.inl rfl)) ?jr),
    fun s u ra hr ht hlen hra hok => congrArg _ (State.sysOp_acted hr (legalWord_target _ hra (.inr rfl)) ?callr),
    fun s u a rest hr ht hst hok => congrArg _
      (State.sysOp_acted hr (legalWord_bare _ (by decide)) (State.returnFrom_issued ht hst hok false nofun)),
    fun s u hr ht hst => ⟨_, rfl,
      State.trapped_sysOp hr (legalWord_bare _ (by decide)) ht (State.returnFrom_empty ht hst false)⟩,
    fun s u a rest hr ht hst hok hlive => ⟨_, exec_retc ht hr hst hok hlive, ?retc⟩,
    fun s u hr hs ht hlive hal hlo hhi => ⟨_, exec_spill hr ht hal hlive hlo hhi, ?spill⟩,
    fun s u hr ht hlive hal hhi hgood hs => ?fill,
    fun s u hr ht => ⟨_, rfl, State.trapped_sysOp hr (legalWord_bare _ (by decide)) ht ?outside⟩⟩
  case beq => rw [Bool.beq_eq_decide_eq]; simp only [BitVec.toNat_inj]
  case bne => rw [bne, Bool.beq_eq_decide_eq]; simp only [BitVec.toNat_inj, ne_eq, decide_not]
  case blt => rw [slt32_toNat, BitVec.slt_eq_decide]
  case bge => rw [slt32_toNat, slt_eq_not_le, Bool.not_not]
  case bltu => rfl
  case bgeu => rfl
  case jmp => simp only [th_issued, relative_toNat (show 0 < 26 by decide), State.transfer_issued _ hok]
  case call => simp only [th_issued, relative_toNat (show 0 < 26 by decide), State.callTo_issued ht hlen hok]
  case callFull => simp only [th_issued, relative_toNat (show 0 < 26 by decide), State.callTo_full ht hlen hok]
  case jr =>
    rw [toNat_word] at hok
    rw [toNat_word, State.transfer_issued _ hok]
  case callr =>
    rw [toNat_word] at hok
    rw [toNat_word, State.callTo_issued ht hlen hok]
  case outside => simp [ht]; rfl
  case retc =>
    beta_reduce
    rw [State.th_retire, th_issued]
    exact ⟨rfl, rfl, rfl, rfl, fun i hi => Th.reg_closeWindow ht hi⟩
  case spill =>
    have hs' : (((issued s u).storeLocal u.core.val (s.th (thr u)).spillWords).th (thr u)).stopping = false := by
      rwa [State.th_storeLocal, th_issued]
    have hreg := State.reg_accessEnds hs' .spill [] 7
    rw [State.th_storeLocal, th_issued, Th.reg7_finish_spill (s.th (thr u)).released hlo, Th.reg_released] at hreg
    beta_reduce
    rw [hreg, State.th_accessEnds hs', State.th_storeLocal, th_issued]
    refine ⟨rfl, rfl, rfl, fun i hi => ?_⟩
    rw [State.leMem_of_mem (State.mem_accessEnds hs' _ _), Nat.add_sub_assoc hlo, Nat.add_assoc]
    exact State.leMem_storeLocal_words _ _ _ _ (Nat.zero_le i) (by omega)
  case fill =>
    have hsize := lramSize_le u.core.val
    obtain ⟨t, hmem, hth, hexec⟩ := exec_fill hr ht hal hlive hhi hgood
    have hs' : (t.th (thr u)).stopping = false := by rwa [hth]
    refine ⟨_, hexec, ?_⟩
    have hfit : (s.th (thr u)).reg 7 + 64 < 2 ^ 32 := by omega
    have hreg := fun got => State.reg_accessEnds hs' .fill got 7
    simp only [hth, Th.reg7_finish_fill (s.th (thr u)).released _ hfit, Th.reg_released] at hreg
    beta_reduce
    rw [hreg, State.th_accessEnds hs', State.mem_accessEnds hs', hth]
    refine ⟨rfl, rfl, rfl, hmem, fun i hi => ?_⟩
    refine (Th.get_finish_fill _ _ hi).trans ?_
    simp [Th.fillWords, hi, Nat.add_assoc]

/-! # Traps, fences, control registers and events of the SYS group (R375, R380 to R382, R389, R396, R403, R404, R408) -/

section Words

variable (keeper : Bool) (rd ra rb : Fin 32)

theorem legalWord_trapCode : legalWord keeper (encR 0x02 (0 : Fin 32).val (0 : Fin 32).val rb.val 0x008 % 2 ^ 32) = true := by
  rw [legalWord_sys _ _ _ _ (by decide)]
  rfl

theorem legalWord_fsync :
    legalWord keeper (encR 0x02 (0 : Fin 32).val (0 : Fin 32).val (0 : Fin 32).val 0x00B % 2 ^ 32) = !keeper := by
  cases keeper <;> decide

theorem legalWord_mfc (hrd : rd.val < 24) :
    legalWord keeper (encR 0x02 rd.val ra.val (0 : Fin 32).val 0x00C % 2 ^ 32) = !(keeper && ra.val == 3) := by
  rw [legalWord_sys _ _ _ _ (by decide)]
  simp [legalSys, hrd]

theorem legalWord_mtc (hra : ra.val < 24) :
    legalWord keeper (encR 0x02 rd.val ra.val (0 : Fin 32).val 0x00D % 2 ^ 32) = !(keeper && rd.val == 3) := by
  rw [legalWord_sys _ _ _ _ (by decide)]
  simp [legalSys, hra]

theorem legalWord_waite (hrd : rd.val < 24) (hra : ra.val < 24) :
    legalWord keeper (encR 0x02 rd.val ra.val (0 : Fin 32).val 0x00E % 2 ^ 32) = true := by
  rw [legalWord_sys _ _ _ _ (by decide)]
  simp [legalSys, hrd, hra]

theorem legalWord_sige (hra : ra.val < 24) (hrb : rb.val < 24) :
    legalWord keeper (encR 0x02 (0 : Fin 32).val ra.val rb.val 0x00F % 2 ^ 32) = true := by
  rw [legalWord_sys _ _ _ _ (by decide)]
  simp [legalSys, hra, hrb]

end Words

section Issued

variable (s : State) (u : Issue)

/-- What the issue of an instruction leaves: its core's counts, the counts of corrected words and their report alone change. -/
theorem issued_only : Only 0x1802000000004000 s (issued s u) := by
  have htook : Only 0x1802000000004000 s (s.tookIssue (thr u) u.cycles) := State.tookIssue_only Only.rfl (by decide)
  unfold issued
  split
  · exact State.lramCorrected_only htook (by decide)
  · exact htook

theorem settled_issued : (issued s u).settled (thr u) = s.settled (thr u) := by
  rw [State.settled, State.settled, (issued_only s u).ring rfl]

theorem core_issued (c : Nat) : (issued s u).core c = (s.tookIssue (thr u) u.cycles).core c := by
  unfold issued
  split
  · simp [State.core, State.lramCorrected, State.err]
  · rfl

/-- The cycle count of the core goes on with the issue; the latch of its high half stays (R382). -/
theorem cycles_issued : ((issued s u).core u.core.val).cycles = ((s.core u.core.val).cycles + u.cycles) % 2 ^ 64 := by
  rw [core_issued, State.tookIssue, coreOf_thr, State.core, State.updCore, Sparse.get_upd_same]
  rfl

theorem cycleHi_issued : ((issued s u).core u.core.val).cycleHi = (s.core u.core.val).cycleHi := by
  rw [core_issued, State.tookIssue, coreOf_thr, State.core, State.updCore, Sparse.get_upd_same]
  rfl

theorem aperture_issued (n : Nat) : (issued s u).aperture u.core.val n = s.aperture u.core.val n := by
  have haps : ((issued s u).core u.core.val).aps = (s.core u.core.val).aps := by
    rw [core_issued, State.tookIssue, coreOf_thr, State.core, State.updCore, Sparse.get_upd_same]
    rfl
  rw [State.aperture, State.aperture, haps]

theorem get_issued {f : Fld} (i j : Nat) (h : CPU_LRAM_CORR_CNT.count.apart f = true)
    (h' : CPU_ISA_ERR.lram_corrected.apart f = true) : (issued s u).get f i j = s.get f i j := by
  unfold issued
  split
  · simp only [State.lramCorrected, State.get_err_apart, State.get_inc_apart, h, h']
    rfl
  · rfl

theorem thState_issued (v : Nat) : (issued s u).thState v = s.thState v :=
  get_issued s u _ _ (by decide) (by decide)

/-- A trap that the issue of an instruction enters outside the trap window. -/
theorem trapped_of_takeTrap (cause info resume : Nat) (ht : (s.th (thr u)).inTrap = false) :
    trapped s ((issued s u).takeTrap (thr u) cause info resume) (thr u) cause info resume := by
  have ht' : ((issued s u).th (thr u)).inTrap = false := by rwa [th_issued]
  have hother : ∀ v < 17, v ≠ thr u → ((issued s u).takeTrap (thr u) cause info resume).th v = s.th v :=
    fun v _ hv => by rw [State.th_takeTrap_ne _ _ _ _ ht' hv, th_issued]
  rw [trapped, State.th_takeTrap _ _ _ _ ht', State.mem_takeTrap _ _ _ _ ht', th_issued, mem_issued]
  exact ⟨rfl, rfl, rfl, rfl, rfl, rfl, rfl, rfl, rfl, rfl, rfl, rfl, hother⟩

end Issued

section Fences

variable {s : State} {u : Issue} (hr : runs s u = true)
include hr

theorem exec_trap (code : Fin 32) (ht : (s.th (thr u)).inTrap = false) :
    exec (.trap u code) s = .next ((issued s u).takeTrap (thr u) 13 code.val ((s.th (thr u)).pc + 4)) :=
  congrArg _ (State.sysOp_acted hr (legalWord_trapCode _ code) (by simp [ht]))

theorem exec_tret (ht : (s.th (thr u)).inTrap = true) (hok : pcOk (thr u) (s.th (thr u)).resume = true) :
    exec (.tret u) s = .next ((issued s u).retire (thr u) (s.th (thr u)).resume fun t =>
      { t with inTrap := false, rstack := if t.rsReset then [] else t.rstack, rsReset := false }) :=
  congrArg _ (State.sysOp_acted hr (legalWord_bare _ (by decide)) (by simp [ht, State.transfer_issued _ hok]))

theorem exec_fence_settled (h : s.settled (thr u) = true) :
    exec (.fence u) s = .next ((issued s u).retire (thr u) ((s.th (thr u)).pc + 4)) :=
  congrArg _ (State.sysOp_acted hr (legalWord_bare _ (by decide)) (by simp only [settled_issued, h, if_true, State.plain_issued]))

/-- A fence holds its thread while an access is outstanding. -/
theorem exec_fence_held (h : s.settled (thr u) = false) : exec (.fence u) s = .next s := by
  refine congrArg Host.Outcome.next ?_
  rw [State.sysOp, State.issue_of_runs hr, if_pos (legalWord_bare _ (by decide))]
  simp [settled_issued, h, Res.outcome]

theorem exec_fsync (hcore : u.core.val ≠ 4) (h : (s.th (thr u)).fpOps = []) :
    exec (.fsync u) s = .next ((issued s u).retire (thr u) ((s.th (thr u)).pc + 4)) :=
  congrArg _ (State.sysOp_acted hr (by rw [legalWord_fsync, coreOf_thr]; simpa using hcore)
    (by simp only [Th.fpBusy, h, List.isEmpty_nil, Bool.not_true, Bool.false_eq_true, if_false, State.plain_issued]))

/-- On the keeper FSYNC is an illegal word. -/
theorem trapped_fsync (hcore : u.core.val = 4) (ht : (s.th (thr u)).inTrap = false) :
    Does (.fsync u) s fun r => trapped s r (thr u) 3 0x0800000B (s.th (thr u)).pc := by
  have hw : legalWord (coreOf (thr u) == 4)
      (encR 0x02 (0 : Fin 32).val (0 : Fin 32).val (0 : Fin 32).val 0x00B % 2 ^ 32) = false := by
    rw [legalWord_fsync, coreOf_thr, hcore]
    rfl
  refine ⟨_, rfl, ?_⟩
  rw [State.sysOp, State.issue_illegal hr hw]
  exact trapped_of_takeTrap _ _ _ _ _ ht

end Fences

theorem bits_eq_div (v i n : Nat) : bits v i n = v / 2 ^ i % 2 ^ n := by
  rw [bits, Nat.shiftRight_eq_div_pow]

theorem lane4_thr (u : Issue) : lane4 (thr u) = u.thread.val := by
  rw [lane4, thr]
  omega

section ControlRegisters

@[simp] theorem Th.instretHi_setReg (t : Th) (r v : Nat) : (t.setReg r v).instretHi = t.instretHi := by
  unfold Th.setReg
  split
  · rfl
  · split <;> rfl

@[simp] theorem State.core_updCore_same (t : State) (c : Nat) (f : Core → Core) : (t.updCore c f).core c = f (t.core c) := by
  unfold State.core State.updCore
  exact Sparse.get_upd_same _ _ _ _

section Values

variable (t : State) (id : Nat)

@[simp] theorem State.readCcr_tid : (t.readCcr id 0).1 = lane4 id + 4 * coreOf id := rfl
@[simp] theorem State.readCcr_wstate : (t.readCcr id 1).1 = (t.th id).wstate := rfl
@[simp] theorem State.readCcr_rsDepth : (t.readCcr id 2).1 = (t.th id).rstack.length := rfl
@[simp] theorem State.readCcr_fcsr : (t.readCcr id 3).1 = (t.th id).flags + (t.th id).enables <<< 8 + (t.th id).rm <<< 16 +
  b2n (t.th id).ftz <<< 20 + b2n (t.th id).fpPend.isSome <<< 24 := rfl
@[simp] theorem State.readCcr_cycleLo : (t.readCcr id 4).1 = (t.core (coreOf id)).cycles % 2 ^ 32 := rfl
@[simp] theorem State.readCcr_cycleHi : (t.readCcr id 5).1 = (t.core (coreOf id)).cycleHi := rfl
@[simp] theorem State.readCcr_instretLo : (t.readCcr id 6).1 = (t.th id).instret % 2 ^ 32 := rfl
@[simp] theorem State.readCcr_instretHi : (t.readCcr id 7).1 = (t.th id).instretHi := rfl
@[simp] theorem State.readCcr_events : (t.readCcr id 8).1 = (t.th id).events := rfl
@[simp] theorem State.readCcr_prio : (t.readCcr id 9).1 = (t.th id).prio := rfl
@[simp] theorem State.readCcr_trapbase : (t.readCcr id 10).1 = (t.th id).trapbase <<< 10 := rfl
@[simp] theorem State.readCcr_resume : (t.readCcr id 11).1 = (t.th id).resume := rfl
@[simp] theorem State.readCcr_trapcode : (t.readCcr id 12).1 = (t.th id).trapcode := rfl
@[simp] theorem State.readCcr_trapinfo : (t.readCcr id 13).1 = (t.th id).trapinfo := rfl
@[simp] theorem State.readCcr_trapflags : (t.readCcr id 14).1 = b2n (t.th id).rsReset := rfl
@[simp] theorem State.readCcr_trapscr : (t.readCcr id 15).1 = (t.th id).trapscr := rfl

/-- A read of the low half of CC_CYCLE latches its high half (R382). -/
theorem State.core_readCcr_cycleLo : ((t.readCcr id 4).2.core (coreOf id)).cycleHi = (t.core (coreOf id)).cycles / 2 ^ 32 := by
  have hcores : (t.readCcr id 4).2.cpu.cores = Sparse.upd {} t.cpu.cores (coreOf id) fun k =>
    { k with cycleHi := (t.core (coreOf id)).cycles / 2 ^ 32 } := rfl
  rw [State.core, hcores, Sparse.get_upd_same]

/-- CCR 16 + n reads aperture n of the core (R382). -/
theorem State.readCcr_aperture {n : Nat} (h : 16 ≤ n) : t.readCcr id n = ((t.aperture (coreOf id) (n - 16)).base +
    b2n (t.aperture (coreOf id) (n - 16)).valid <<< 16 + b2n (t.aperture (coreOf id) (n - 16)).posted <<< 17, t) := by
  obtain ⟨m, rfl⟩ : ∃ m, n = m + 16 := ⟨n - 16, by omega⟩
  rfl

end Values

/-- A read of a control register leaves the thread, but for the latch of the high half of CC_INSTRET_LO (R382). -/
theorem State.th_readCcr (t : State) (id n : Nat) : (t.readCcr id n).2.th id =
    { t.th id with instretHi := if n = 6 then (t.th id).instret / 2 ^ 32 else (t.th id).instretHi } := by
  match n with
  | 6 => exact State.th_updTh_same t id _
  | 0 | 1 | 2 | 3 | 4 | 5 | 7 | 8 | 9 | 10 | 11 | 12 | 13 | 14 | 15 => rfl
  | m + 16 => rw [if_neg (by omega)]; rfl

/-- CC_WSTATE takes 1 to 8 live windows in the trap window (R381, R408). -/
theorem State.writeCcr_wstate {t : State} {id v : Nat} (ht : (t.th id).inTrap = true) (h1 : 0 < v / 16 % 16)
    (h8 : v / 16 % 16 ≤ 8) :
    t.writeCcr id 1 v = some (t.updTh id fun h => { h with cur := v % 8, live := v / 16 % 16 }) := by
  have hlive : bits v 4 4 = v / 16 % 16 := bits_eq_div v 4 4
  refine (if_neg ?_).trans ?_
  · simp only [ht, hlive, not_true_eq_false, false_or]
    omega
  · rw [hlive]

theorem State.aperture_written (t : State) (c : Nat) {n : Nat} (h0 : n ≠ 0) (h15 : n ≠ 15) (x : Aperture) :
    (t.updCore c fun k => { k with aps := Sparse.set {} k.aps n x }).aperture c n = x := by
  have hcore : (t.updCore c fun k => { k with aps := Sparse.set {} k.aps n x }).core c =
      { t.core c with aps := Sparse.set {} (t.core c).aps n x } := State.core_updCore_same _ _ _
  rw [State.aperture, if_neg h0, if_neg h15, hcore, Sparse.get_set_same]

/-- The read-only control registers, and outside the trap window those of the trap window, take no write (R381, R408). -/
theorem State.writeCcr_none {t : State} {id n : Nat} (v : Nat) (ht : (t.th id).inTrap = false)
    (hn : n ∈ [0, 1, 2, 4, 5, 6, 7, 8, 11, 12, 13, 14, 16, 31]) : t.writeCcr id n v = none := by
  have hout : ¬ (t.th id).inTrap = true := by simp [ht]
  simp only [List.mem_cons, List.not_mem_nil, or_false] at hn
  obtain rfl | rfl | rfl | rfl | rfl | rfl | rfl | rfl | rfl | rfl | rfl | rfl | rfl | rfl := hn
  exacts [rfl, if_pos (.inl hout), rfl, rfl, rfl, rfl, rfl, rfl, if_neg hout, rfl, rfl, if_neg hout, rfl, rfl]

/-- CC 16 + n takes aperture n of the core (R359). -/
theorem State.writeCcr_aperture {t : State} {id n v : Nat} (h17 : 17 ≤ n) (h30 : n ≤ 30) : t.writeCcr id n v =
    some (t.updCore (coreOf id) fun k => { k with
      aps := Sparse.set {} k.aps (n - 16) { base := bits v 0 12, valid := v.testBit 16, posted := v.testBit 17 } }) := by
  obtain ⟨m, rfl⟩ : ∃ m, n = m + 17 := ⟨n - 17, by omega⟩
  exact if_pos ⟨h17, h30⟩

@[simp] theorem State.th_publishLevels (s : State) (v : Nat) : s.publishLevels.th v = s.th v := by
  rw [State.th, State.th, (State.publishLevels_only Only.rfl Covers.refl).cpu rfl]

variable {s : State} {u : Issue} {rd ccr ra : Fin 32} (hr : runs s u = true)
include hr

/-- MFC writes what `readCcr` reads, in the state that it leaves. -/
theorem exec_mfc (hrd : rd.val < 24) (hfp : ccr.val = 3 → u.core.val ≠ 4 ∧ (s.th (thr u)).fpOps = []) :
    exec (.mfc u rd ccr) s = .next (((issued s u).readCcr (thr u) ccr.val).2.retire (thr u)
      ((((issued s u).readCcr (thr u) ccr.val).2.th (thr u)).pc + 4) fun t =>
        t.setReg rd.val ((issued s u).readCcr (thr u) ccr.val).1) := by
  refine congrArg _ (State.sysOp_acted hr ?_ ?_)
  · rw [legalWord_mfc _ _ _ hrd, coreOf_thr]
    by_cases h3 : ccr.val = 3
    · simpa [h3] using (hfp h3).1
    · simp [h3]
  · have hbusy : ¬ (ccr.val = 3 ∧ (s.th (thr u)).fpBusy = true) := fun ⟨h3, hb⟩ => by simp [Th.fpBusy, (hfp h3).2] at hb
    simp only [hbusy, if_false]
    rfl

theorem exec_mtc {t : State} (hra : ra.val < 24) (hfp : ccr.val = 3 → u.core.val ≠ 4 ∧ (s.th (thr u)).fpOps = [])
    (hw : (issued s u).writeCcr (thr u) ccr.val (word s u ra).toNat = some t) :
    exec (.mtc u ccr ra) s = .next (t.retire (thr u) ((t.th (thr u)).pc + 4)) := by
  refine congrArg _ (State.sysOp_acted hr ?_ ?_)
  · rw [legalWord_mtc _ _ _ hra, coreOf_thr]
    by_cases h3 : ccr.val = 3
    · simpa [h3] using (hfp h3).1
    · simp [h3]
  · have hbusy : ¬ (ccr.val = 3 ∧ (s.th (thr u)).fpBusy = true) := fun ⟨h3, hb⟩ => by simp [Th.fpBusy, (hfp h3).2] at hb
    rw [toNat_word] at hw
    simp only [hbusy, if_false, hw]
    rfl

/-- A write that no control register takes is an illegal instruction. -/
theorem trapped_mtc (hra : ra.val < 24) (ht : (s.th (thr u)).inTrap = false) (h3 : ccr.val ≠ 3)
    (hw : (issued s u).writeCcr (thr u) ccr.val (word s u ra).toNat = none) :
    Does (.mtc u ccr ra) s fun r =>
      trapped s r (thr u) 3 (0x0800000D + 2 ^ 21 * ccr.val + 2 ^ 16 * ra.val) (s.th (thr u)).pc := by
  have henc : encR 0x02 ccr.val ra.val (0 : Fin 32).val 0x00D = 0x0800000D + 2 ^ 21 * ccr.val + 2 ^ 16 * ra.val := by
    rw [encR_eq, Fin.val_zero]
    omega
  rw [← henc]
  refine ⟨_, rfl, State.trapped_sysOp hr ?_ ht ?_⟩
  · rw [legalWord_mtc _ _ _ hra]
    simp [h3]
  · rw [toNat_word] at hw
    simp only [h3, false_and, if_false, hw]

/-- A write that a control register takes ends the instruction with the thread as the write leaves it. -/
theorem does_mtc {t : State} {h' : Th} (hra : ra.val < 24) (hfp : ccr.val = 3 → u.core.val ≠ 4 ∧ (s.th (thr u)).fpOps = [])
    (hw : (issued s u).writeCcr (thr u) ccr.val (word s u ra).toNat = some t) (hth : t.th (thr u) = h')
    (hpc : h'.pc = (s.th (thr u)).pc) (hi : h'.instret = (s.th (thr u)).instret) :
    Does (.mtc u ccr ra) s fun r => next u (s.th (thr u)) h' r := by
  refine ⟨_, exec_mtc hr hra hfp hw, ?_⟩
  beta_reduce
  rw [next, State.th_retire, hth, hpc, hi]

/-- The same for a register that is a part of its thread. -/
theorem does_mtc_thread (f : Th → Th) (hra : ra.val < 24) (hfp : ccr.val = 3 → u.core.val ≠ 4 ∧ (s.th (thr u)).fpOps = [])
    (hw : (issued s u).writeCcr (thr u) ccr.val (word s u ra).toNat = some ((issued s u).updTh (thr u) f))
    (hpc : (f (s.th (thr u))).pc = (s.th (thr u)).pc) (hi : (f (s.th (thr u))).instret = (s.th (thr u)).instret) :
    Does (.mtc u ccr ra) s fun r => next u (s.th (thr u)) (f (s.th (thr u))) r :=
  does_mtc hr hra hfp hw (by rw [State.th_updTh_same, th_issued]) hpc hi

end ControlRegisters

section Events

variable {s : State} {u : Issue}

theorem and_ofNat_toNat (n : Nat) (x : BitVec 32) : n &&& x.toNat = (BitVec.ofNat 32 n &&& x).toNat := by
  rw [BitVec.toNat_and, BitVec.toNat_ofNat]
  refine Nat.eq_of_testBit_eq fun i => ?_
  rw [Nat.testBit_and, Nat.testBit_and, Nat.testBit_mod_two_pow]
  by_cases hi : i < 32
  · simp [hi]
  · rw [Nat.testBit_lt_two_pow (Nat.lt_of_lt_of_le x.isLt (Nat.pow_le_pow_right (by omega) (by omega)))]
    simp

/-- The events that a mask leaves. -/
theorem and_compl_toNat (n : Nat) (x : BitVec 32) : n &&& (2 ^ 32 - 1 - x.toNat) = (BitVec.ofNat 32 n &&& ~~~x).toNat := by
  rw [← BitVec.toNat_not, and_ofNat_toNat]

@[simp] theorem State.th_rearm (t : State) (id v : Nat) : (t.rearm id).th v = t.th v := by
  unfold State.rearm
  split <;> rfl

/-- Software events join those of a thread that is not halted (R403, R415). -/
theorem State.th_softEvents {t : State} {v m : Nat} (hv : v < 17) (hst : t.thState v ≠ 3) (hm : m < 2 ^ 16) :
    t.softEvents v m = t.updTh v fun h => { h with events := h.events ||| m } := by
  have htakes : t.takesEvents v = true := by simp [State.takesEvents, isThread, hv, hst]
  rw [State.softEvents, if_pos htakes, Nat.mod_eq_of_lt hm]

section Waite

variable {rd ra : Fin 32} (hr : runs s u = true) (hrd : rd.val < 24) (hra : ra.val < 24) (ht : (s.th (thr u)).inTrap = false)
include hr hrd hra ht

/-- WAITE takes the pending events of its mask (R404). -/
theorem exec_waite_takes (h0 : word s u ra ≠ 0#32) (hm : (word s u ra).toNat < 2 ^ 24)
    (hev : (BitVec.ofNat 32 (s.th (thr u)).events &&& word s u ra) ≠ 0#32) :
    exec (.waite u rd ra) s = .next (((issued s u).retire (thr u) ((s.th (thr u)).pc + 4) fun t =>
      { t.setReg rd.val (BitVec.ofNat 32 (s.th (thr u)).events &&& word s u ra).toNat with
        events := t.events &&& (2 ^ 32 - 1 - (word s u ra).toNat) }).rearm (thr u)) := by
  refine congrArg _ (State.sysOp_acted hr (legalWord_waite _ _ _ hrd hra) ?_)
  have hne : (word s u ra).toNat ≠ 0 := fun h => h0 (BitVec.eq_of_toNat_eq h)
  have hev' : (BitVec.ofNat 32 (s.th (thr u)).events &&& word s u ra).toNat ≠ 0 := fun h => hev (BitVec.eq_of_toNat_eq h)
  have hbad : ¬ ((word s u ra).toNat / 2 ^ 24 ≠ 0 ∨ (word s u ra).toNat = 0 ∨ (s.th (thr u)).inTrap = true) := by
    simp only [ht, Bool.false_eq_true, or_false]
    omega
  simp only [← toNat_word, and_ofNat_toNat, if_neg hbad, if_pos hev']

/-- WAITE without a pending event of its mask waits (R404). -/
theorem exec_waite_waits (h0 : word s u ra ≠ 0#32) (hm : (word s u ra).toNat < 2 ^ 24)
    (hev : (BitVec.ofNat 32 (s.th (thr u)).events &&& word s u ra) = 0#32) :
    exec (.waite u rd ra) s = .next ((((issued s u).updTh (thr u) fun t =>
      { t with hold := .event rd.val (word s u ra).toNat }).putThState (thr u) 2).put
        CPU_THR_WMASK.mask (word s u ra).toNat (coreOf (thr u)) (lane4 (thr u))) := by
  refine congrArg _ (State.sysOp_acted hr (legalWord_waite _ _ _ hrd hra) ?_)
  have hne : (word s u ra).toNat ≠ 0 := fun h => h0 (BitVec.eq_of_toNat_eq h)
  have hbad : ¬ ((word s u ra).toNat / 2 ^ 24 ≠ 0 ∨ (word s u ra).toNat = 0 ∨ (s.th (thr u)).inTrap = true) := by
    simp only [ht, Bool.false_eq_true, or_false]
    omega
  simp only [← toNat_word, and_ofNat_toNat, if_neg hbad, hev]
  rfl

/-- A mask of 0 or above bit 23 is an illegal instruction (R404). -/
theorem trapped_waite (hbad : word s u ra = 0#32 ∨ 2 ^ 24 ≤ (word s u ra).toNat) :
    Does (.waite u rd ra) s fun r =>
      trapped s r (thr u) 3 (0x0800000E + 2 ^ 21 * rd.val + 2 ^ 16 * ra.val) (s.th (thr u)).pc := by
  have henc : encR 0x02 rd.val ra.val (0 : Fin 32).val 0x00E = 0x0800000E + 2 ^ 21 * rd.val + 2 ^ 16 * ra.val := by
    rw [encR_eq, Fin.val_zero]
    omega
  have hbad' : (word s u ra).toNat / 2 ^ 24 ≠ 0 ∨ (word s u ra).toNat = 0 ∨ (s.th (thr u)).inTrap = true := by
    rcases hbad with h | h
    · simp [h]
    · omega
  rw [← henc]
  refine ⟨_, rfl, State.trapped_sysOp hr (legalWord_waite _ _ _ hrd hra) ht ?_⟩
  simp only [← toNat_word, if_pos hbad']

end Waite

/-- SIGE to a thread hands it the events (R403). -/
theorem exec_sige {ra rb : Fin 32} (hr : runs s u = true) (hra : ra.val < 24) (hrb : rb.val < 24)
    (htgt : (word s u ra).toNat < 17) (hm : (word s u rb).toNat < 65536) :
    exec (.sige u ra rb) s = .next (((issued s u).retire (thr u) ((s.th (thr u)).pc + 4)).signal (thr u)
      (word s u ra).toNat (word s u rb).toNat) := by
  refine congrArg _ (State.sysOp_acted hr (legalWord_sige _ _ _ hra hrb) ?_)
  have hbad : ¬ (2 ^ 16 ≤ (word s u rb).toNat ∨ ¬ isThread (word s u ra).toNat = true) := by
    simp only [isThread, decide_eq_true_eq]
    omega
  simp only [← toNat_word, if_neg hbad]

theorem exec_brk (hr : runs s u = true) : exec (.brk u) s = .next
    (if s.bit CPU_THR_CTRL.dbg_en u.core.val u.thread.val then ((issued s u).retire (thr u) ((s.th (thr u)).pc + 4)).putThState (thr u) 4
      else (issued s u).takeTrap (thr u) 17 0 ((s.th (thr u)).pc + 4)) := by
  refine congrArg _ (State.sysOp_acted hr (legalWord_bare _ (by decide)) ?_)
  have hlane : lane4 (thr u) = u.thread.val := by
    rw [lane4, thr]
    omega
  have hbit : (issued s u).bit CPU_THR_CTRL.dbg_en u.core.val u.thread.val = s.bit CPU_THR_CTRL.dbg_en u.core.val u.thread.val := by
    rw [State.bit, State.bit, get_issued _ _ _ _ (by decide) (by decide)]
  simp only [coreOf_thr, hlane, hbit]
  split <;> rfl

end Events

/-- Settles O52: each instruction of the group with a legal word does what its condition on the thread says, and the others
raise their trap. -/
theorem systemInstructions : Obligations.SystemInstructions := by
  unfold Obligations.SystemInstructions
  refine ⟨fun s u rb hr ht => ⟨_, exec_trap hr rb ht, trapped_of_takeTrap _ _ _ _ _ ht⟩,
    fun s u hr ht hok => exec_tret hr ht hok,
    fun s u hr ht => ⟨_, rfl, State.trapped_sysOp hr (legalWord_bare _ (by decide)) ht ?tret⟩,
    fun s u hr h => exec_fence_settled hr h, fun s u hr h => exec_fence_held hr h,
    fun s u hr hc h => exec_fsync hr hc h, fun s u hr hc ht => trapped_fsync hr hc ht,
    fun s u rd ccr hr hrd hpos h3 h16 => ⟨_, exec_mfc hr hrd fun h => absurd h h3, ?mfc⟩,
    fun s u rd ccr hr hrd h3 hc hfp => ⟨_, exec_mfc hr hrd fun _ => ⟨hc, hfp⟩, ?fcsr⟩,
    fun s u rd ccr hr hrd h16 => ⟨_, exec_mfc hr hrd (by omega), ?aperture⟩,
    fun s u ccr ra hr hra h => does_mtc hr hra (by omega) (by rw [h]; rfl) ?prio rfl rfl,
    fun s u ccr ra hr hra h => does_mtc hr hra (by omega) (by rw [h]; rfl) ?trapbase rfl rfl,
    fun s u ccr ra hr hra h => does_mtc_thread hr (fun t => { t with trapscr := (word s u ra).toNat }) hra (by omega) (by rw [h]; rfl) rfl rfl,
    fun s u ccr ra hr hra h hc hfp => does_mtc hr hra (fun _ => ⟨hc, hfp⟩) (by rw [h]; rfl) ?flags rfl rfl,
    fun s u ccr ra hr hra h ht =>
      does_mtc_thread hr (fun t => { t with resume := (word s u ra).toNat / 4 * 4 }) hra (by omega)
        (by rw [h]; exact if_pos (by rwa [th_issued])) rfl rfl,
    fun s u ccr ra hr hra h ht =>
      does_mtc_thread hr (fun t => { t with rsReset := t.rsReset || (word s u ra).toNat.testBit 0 }) hra (by omega)
        (by rw [h]; exact if_pos (by rwa [th_issued])) rfl rfl,
    fun s u ccr ra hr hra h ht h1 h8 =>
      does_mtc hr hra (by omega) (by rw [h]; exact State.writeCcr_wstate (by rwa [th_issued]) h1 h8) ?wstate rfl rfl,
    fun s u ccr ra hr hra h17 h30 => ⟨_, exec_mtc hr hra (by omega) (State.writeCcr_aperture h17 h30), ?apertureWritten⟩,
    fun s u ccr ra hr hra ht h => trapped_mtc hr hra ht (by rintro h3; simp [h3] at h)
      (State.writeCcr_none _ (by rwa [th_issued]) h),
    fun s u rd ra hr hrd hra ht h0 hm hev => ⟨_, exec_waite_takes hr hrd hra ht h0 hm hev, ?takes⟩,
    fun s u rd ra hr hrd hra ht h0 hm hev => ⟨_, exec_waite_waits hr hrd hra ht h0 hm hev, ?waits⟩,
    fun s u rd ra hr hrd hra ht hbad => trapped_waite hr hrd hra ht hbad,
    fun s u ra rb hr hra hrb htgt hm hc hst => ⟨_, exec_sige hr hra hrb htgt hm, ?own⟩,
    fun s u ra rb hr hra hrb htgt hm hc => (exec_sige hr hra hrb htgt hm).trans (congrArg _ ?remote),
    fun s u hr ht hd => ⟨_, exec_brk hr, ?brk⟩,
    fun s u hr hd => (exec_brk hr).trans (by rw [if_pos hd])⟩
  case tret => simp [ht]; rfl
  case mfc =>
    have hreg := State.reg_retire ((issued s u).readCcr (thr u) ccr.val).2 (thr u)
      ((((issued s u).readCcr (thr u) ccr.val).2.th (thr u)).pc + 4) rd.val
      fun t => t.setReg rd.val ((issued s u).readCcr (thr u) ccr.val).1
    rw [Th.reg_setReg_same _ _ hpos] at hreg
    beta_reduce
    rw [hreg, State.th_retire, State.th_readCcr, th_issued]
    refine ⟨rfl, ?_, ?_, ?_, ?_, ?_, ?_, ?_, ?_, ?_, ?_, ?_, ?_, ?_, ?_, ?_, ?_, ?_⟩ <;> intro h <;> rw [h]
    case refine_16 =>
      have := State.core_readCcr_cycleLo (issued s u) (thr u)
      rwa [coreOf_thr, cycles_issued] at this
    case refine_17 => simp
    all_goals simp [lane4_thr, cycles_issued, cycleHi_issued, Th.wstate, b2n, Nat.shiftLeft_eq, Nat.mul_comm]
  case fcsr =>
    beta_reduce
    rw [h3, next, State.th_retire, State.th_readCcr, th_issued]
    simp [b2n, Nat.shiftLeft_eq, Nat.mul_comm]
  case aperture =>
    beta_reduce
    rw [State.readCcr_aperture _ _ h16, coreOf_thr, aperture_issued, next, State.th_retire, th_issued]
    simp [b2n, Nat.shiftLeft_eq]
  case prio => rw [State.th_publishLevels, State.th_updTh_same, th_issued]
  case trapbase =>
    rw [State.th_updTh_same, th_issued, bits_eq_div]
    rfl
  case flags =>
    rw [State.th_updTh_same, th_issued, bits_eq_div, bits_eq_div, bits_eq_div, Nat.pow_zero, Nat.div_one]
    rfl
  case wstate => rw [State.th_updTh_same, th_issued]
  case apertureWritten =>
    refine ⟨?_, ?_⟩
    · have hap := State.aperture_written (issued s u) u.core.val (n := ccr.val - 16) (by omega) (by omega)
        { base := bits (word s u ra).toNat 0 12, valid := (word s u ra).toNat.testBit 16,
          posted := (word s u ra).toNat.testBit 17 }
      rw [← coreOf_thr] at hap ⊢
      refine Eq.trans hap ?_
      rw [bits_eq_div, Nat.pow_zero, Nat.div_one]
      rfl
    · rw [next, State.th_retire]
      exact congrArg (fun h : Th => { h with pc := h.pc + 4, instret := (h.instret + 1) % 2 ^ 64 }) (th_issued s u (thr u))
  case takes =>
    refine ⟨?_, fun h16 => ?_⟩
    · rw [next, State.th_rearm, State.th_retire, th_issued, ← and_compl_toNat]
    · rw [State.rearm, if_pos h16, State.get_put_same]
      rfl
  case waits =>
    beta_reduce
    rw [coreOf_thr, lane4_thr]
    refine ⟨?_, ?_, ?_, State.get_put_of_lt _ _ _ (Nat.lt_trans hm (by decide))⟩
    · rw [State.thState, State.get_put_apart _ _ _ _ _ _ (by decide), State.putThState, State.get_put_same]
      rfl
    · exact congrArg Th.hold (State.th_updTh_same _ _ _)
    · refine (congrArg Th.pc (State.th_updTh_same _ _ _)).trans ?_
      rw [th_issued]
  case own =>
    have hst' : ((issued s u).retire (thr u) ((s.th (thr u)).pc + 4)).thState (word s u ra).toNat ≠ 3 := by
      rw [← thState_issued s u] at hst
      exact hst
    beta_reduce
    rw [State.signal, if_pos (by rw [coreOf_thr]; exact hc.symm), State.th_softEvents htgt hst' hm, State.th_updTh_same]
    by_cases heq : thr u = (word s u ra).toNat
    · rw [← heq, State.th_updTh_same, State.th_retire, th_issued]
      exact ⟨rfl, rfl⟩
    · rw [State.th_updTh_ne _ _ heq, State.th_retire, State.retire, State.th_updTh_ne _ _ (Ne.symm heq), th_issued]
      exact ⟨rfl, rfl⟩
  case remote =>
    rw [State.signal, if_neg (by rw [coreOf_thr]; exact fun h => hc h.symm)]
  case brk =>
    beta_reduce
    rw [hd]
    exact trapped_of_takeTrap _ _ _ _ _ ht

/-! # What a release of semaphores leaves of the threads (R402, R471, R475) -/

/-- From `s` to `t` the threads have at most taken events. -/
def EventsOnly (s t : State) : Prop := ∀ v, ∃ e, t.th v = { s.th v with events := e }

namespace EventsOnly

variable {s t r : State}

theorem refl (s : State) : EventsOnly s s := fun v => ⟨(s.th v).events, rfl⟩

theorem of_cpu (h : t.cpu = s.cpu) : EventsOnly s t := fun v => ⟨(s.th v).events, by rw [State.th, h]; rfl⟩

theorem trans (h : EventsOnly s t) (h' : EventsOnly t r) : EventsOnly s r := by
  intro v
  obtain ⟨e, he⟩ := h v
  obtain ⟨e', he'⟩ := h' v
  exact ⟨e', by rw [he', he]⟩

theorem before (h' : EventsOnly t r) (h : EventsOnly s t) : EventsOnly s r := h.trans h'

theorem foldl {α : Type} {f : State → α → State} (hf : ∀ s a, EventsOnly s (f s a)) (l : List α) (s : State) :
    EventsOnly s (l.foldl f s) := by
  induction l generalizing s with
  | nil => exact refl s
  | cons a l ih => exact (hf s a).trans (ih _)

theorem raiseEvent (s : State) (u b : Nat) : EventsOnly s (s.raiseEvent u b) := by
  intro v
  unfold State.raiseEvent
  split
  · by_cases h : v = u
    · subst h
      exact ⟨_, State.th_updTh_same s v _⟩
    · exact ⟨_, State.th_updTh_ne s _ h⟩
  · exact ⟨_, rfl⟩

theorem updSem (s : State) (f : Sem → Sem) : EventsOnly s (s.updSem f) := of_cpu rfl

theorem publishLevels (s : State) : EventsOnly s s.publishLevels :=
  of_cpu ((State.publishLevels_only Only.rfl Covers.refl).cpu rfl)

theorem dropWait (s : State) (i : Nat) : EventsOnly s (s.dropWait i) :=
  of_cpu ((State.dropWait_only Only.rfl Covers.refl).cpu rfl)

theorem semGrant (s : State) (i n : Nat) : EventsOnly s (s.semGrant i n) :=
  of_cpu ((State.semGrant_only Only.rfl Covers.refl).cpu rfl)

/-- A semaphore that becomes free hands its next owner an event (R471). -/
theorem semFree (s : State) (n : Nat) (reset expired : Bool) : EventsOnly s (s.semFree n reset expired) := by
  unfold State.semFree
  dsimp only
  split
  · refine trans ?_ (publishLevels _)
    exact of_cpu rfl
  · refine trans (trans ?_ (raiseEvent _ _ 17)) (publishLevels _)
    refine (updSem _ _).before (trans (trans ?_ (dropWait _ _)) (semGrant _ _ n))
    exact of_cpu rfl

theorem ownerReset (s : State) (i : Nat) : EventsOnly s (s.ownerReset i) := by
  unfold State.ownerReset
  refine trans (trans (trans (dropWait s i) (updSem _ _)) (foldl (fun s n => ?_) _ _)) (publishLevels _)
  split
  · refine trans ?_ (semFree _ n true false)
    exact of_cpu (State.inc_cpu s _ 0 0)
  · exact refl s

theorem threadReset (s : State) (u : Nat) : EventsOnly s (s.threadReset u) := by
  refine trans (of_cpu ?_) (ownerReset _ u)
  exact (State.resetTags_only Only.rfl Covers.refl).cpu rfl

end EventsOnly

/-! # The delivery of traps (R389, R392, R409 to R418) -/

section Issue

variable {s t : State} {u : Issue} {enc : Nat} {body : State → Res}

/-- An instruction whose thread can issue meets an imprecise trap that is due before anything else (R409). -/
theorem State.issue_due (hcan : s.thrCanIssue (thr u) u.late.val = true)
    (h : (s.tookIssue (thr u) u.cycles).deliverEvent (thr u) = some t) : s.issue u enc body = t := by
  unfold State.issue
  simp only [hcan, not_true_eq_false, if_false, h]

section NotDue

variable (hcan : s.thrCanIssue (thr u) u.late.val = true) (hdue : (s.th (thr u)).due = none)
include hcan hdue

/-- An address that local RAM does not hold raises trap 1 (R360). -/
theorem State.issue_badPc (hpc : pcOk (thr u) (s.th (thr u)).pc = false) : s.issue u enc body =
    (s.tookIssue (thr u) u.cycles).takeTrap (thr u) 1 (s.th (thr u)).pc (s.th (thr u)).pc := by
  have hnone := State.deliverEvent_of_not_due (s := s.tookIssue (thr u) u.cycles) (u := u) (by simpa using hdue)
  unfold State.issue
  simp [hcan, hnone, hpc]

/-- A double-bit error of the fetch raises trap 2 (R361). -/
theorem State.issue_badFetch (hpc : pcOk (thr u) (s.th (thr u)).pc = true) (hf : u.fetch = .uncorrectable) :
    s.issue u enc body = ((s.tookIssue (thr u) u.cycles).lramUncorrectable (coreOf (thr u))).takeTrap (thr u) 2
      (s.th (thr u)).pc (s.th (thr u)).pc := by
  have hnone := State.deliverEvent_of_not_due (s := s.tookIssue (thr u) u.cycles) (u := u) (by simpa using hdue)
  unfold State.issue
  simp [hcan, hnone, hpc, hf]

end NotDue

end Issue

section Entry

variable {s s1 : State} {id : Nat}

/-- A trap entered in a state that has at most dropped what held the thread and an imprecise trap of it. -/
theorem trapped_of_dropped {h : Hold} {b p : Option (Nat × Bool)} (cause info resume : Nat) (ht : (s.th id).inTrap = false)
    (hmem : s1.mem = s.mem) (hid : s1.th id = { s.th id with hold := h, busPend := b, fpPend := p })
    (hother : ∀ v, v ≠ id → s1.th v = s.th v) : trapped s (s1.takeTrap id cause info resume) id cause info resume := by
  have ht' : (s1.th id).inTrap = false := by rw [hid]; exact ht
  rw [trapped, State.th_takeTrap _ _ _ _ ht', State.mem_takeTrap _ _ _ _ ht', hid]
  exact ⟨rfl, rfl, rfl, rfl, rfl, rfl, rfl, rfl, rfl, rfl, rfl, hmem, fun v _ hv => by
    rw [State.th_takeTrap_ne _ _ _ _ ht' hv, hother v hv]⟩

theorem State.thState_takeTrap (cause info resume : Nat) (ht : (s.th id).inTrap = false) (v : Nat) :
    (s.takeTrap id cause info resume).thState v = s.thState v := by
  simp only [State.takeTrap, ht, Bool.false_eq_true, if_false, State.thState]
  split
  · rw [State.get_inc_apart (h := by decide), State.get_inc_apart (h := by decide)]
    rfl
  · rw [State.get_inc_apart (h := by decide)]
    rfl

end Entry

section Due

variable {h : Th} {a : Nat} {b : Bool}

/-- A posted bus error comes before an FP exception; one that was raised outside the trap window waits in it (R409, R411). -/
theorem Th.due_bus (hb : h.busPend = some (a, b)) (ho : h.inTrap = false ∨ b = true) : h.due = some (14, a, b) := by
  rcases ho with ho | rfl
  · simp [Th.due, hb, ho, Option.filter]
  · simp [Th.due, hb, Option.filter]

theorem Th.due_fp (hbus : h.busPend = none) (hf : h.fpPend = some (a, b)) (ho : h.inTrap = false ∨ b = true) :
    h.due = some (15, a, b) := by
  rcases ho with ho | rfl
  · simp [Th.due, hbus, hf, ho, Option.filter]
  · simp [Th.due, hbus, hf, Option.filter]

theorem Th.due_none (hbus : h.busPend = none) (hf : h.fpPend = some (a, false)) (ht : h.inTrap = true) : h.due = none := by
  simp [Th.due, hbus, hf, ht, Option.filter]

end Due

section Delivery

variable {s s0 : State} {id a : Nat} {h : Hold}

/-- A posted bus error that is due is delivered: the thread enters the trap, and the error is no longer pending (R409). -/
theorem State.deliverEvent_bus (hmem : s0.mem = s.mem) (hid : s0.th id = { s.th id with hold := h })
    (hother : ∀ v, v ≠ id → s0.th v = s.th v) (ht : (s.th id).inTrap = false) (hb : (s.th id).busPend = some (a, false)) :
    ∃ t, s0.deliverEvent id = some t ∧ trapped s t id 14 a (s.th id).pc ∧ (t.th id).busPend = none := by
  have hdue : (s0.th id).due = some (14, a, false) := Th.due_bus (by rw [hid]; exact hb) (.inl (by rw [hid]; exact ht))
  have hid' : (s0.updTh id fun h => { h with busPend := none }).th id =
      { s.th id with hold := h, busPend := none, fpPend := (s.th id).fpPend } := by rw [State.th_updTh_same, hid]
  have ht' : ((s0.updTh id fun h => { h with busPend := none }).th id).inTrap = false := by rw [hid']; exact ht
  refine ⟨(s0.updTh id fun h => { h with busPend := none }).takeTrap id 14 a (s.th id).pc, ?_,
    trapped_of_dropped 14 a _ ht hmem hid' fun v hv => by rw [State.th_updTh_ne _ _ hv, hother v hv], ?_⟩
  · have hpc : (s0.th id).pc = (s.th id).pc := by rw [hid]
    simp [State.deliverEvent, hdue, hpc]
  · rw [State.th_takeTrap _ _ _ _ ht', hid']

/-- The same for an FP exception (R389, R409). -/
theorem State.deliverEvent_fp (hmem : s0.mem = s.mem) (hid : s0.th id = { s.th id with hold := h })
    (hother : ∀ v, v ≠ id → s0.th v = s.th v) (ht : (s.th id).inTrap = false) (hb : (s.th id).busPend = none)
    (hf : (s.th id).fpPend = some (a, false)) :
    ∃ t, s0.deliverEvent id = some t ∧ trapped s t id 15 a (s.th id).pc ∧ (t.th id).fpPend = none ∧
      ∀ v, t.thState v = s0.thState v := by
  have hdue : (s0.th id).due = some (15, a, false) :=
    Th.due_fp (by rw [hid]; exact hb) (by rw [hid]; exact hf) (.inl (by rw [hid]; exact ht))
  have hid' : (s0.updTh id fun h => { h with fpPend := none }).th id =
      { s.th id with hold := h, busPend := (s.th id).busPend, fpPend := none } := by rw [State.th_updTh_same, hid]
  have ht' : ((s0.updTh id fun h => { h with fpPend := none }).th id).inTrap = false := by rw [hid']; exact ht
  refine ⟨(s0.updTh id fun h => { h with fpPend := none }).takeTrap id 15 a (s.th id).pc, ?_,
    trapped_of_dropped 15 a _ ht hmem hid' fun v hv => by rw [State.th_updTh_ne _ _ hv, hother v hv], ?_, fun v => ?_⟩
  · have hpc : (s0.th id).pc = (s.th id).pc := by rw [hid]
    simp [State.deliverEvent, hdue, hpc]
  · rw [State.th_takeTrap _ _ _ _ ht', hid']
  · exact State.thState_takeTrap 15 a _ ht' v

/-- An imprecise trap that was raised in the trap window is a double fault (R414, R418). -/
theorem State.deliverEvent_double {cause : Nat} (hdue : (s.th id).due = some (cause, a, true)) :
    s.deliverEvent id = some ((s.updTh id fun h => if cause = 14 then { h with busPend := none }
      else { h with fpPend := none }).doubleFault id cause (s.th id).pc) := by
  simp [State.deliverEvent, hdue]

end Delivery

section Threads

variable (s : State)

theorem State.th_put (f : Fld) (v i j id : Nat) : (s.put f v i j).th id = s.th id := rfl

theorem State.th_errBit (f : Fld) (b i inst detail id : Nat) : (s.errBit f b i inst detail).th id = s.th id := rfl

end Threads

section DoubleFaults

variable (s : State) {u : Nat} (cause2 pc : Nat)

/-- A double fault of a control core halts its thread with its causes shown; its registers stay (R415, R416). -/
theorem State.halted_doubleFault (hu : u ≠ 16) :
    (s.doubleFault u cause2 pc).thState u = 3 ∧
    (s.doubleFault u cause2 pc).get CPU_THR_DFAULT.cause1 (coreOf u) (lane4 u) = (s.th u).trapcode % 32 ∧
    (s.doubleFault u cause2 pc).get CPU_THR_DFAULT.cause2 (coreOf u) (lane4 u) = cause2 % 32 ∧
    (s.doubleFault u cause2 pc).get CPU_THR_DFAULT.valid (coreOf u) (lane4 u) = 1 ∧
    ∃ e, (s.doubleFault u cause2 pc).th u =
      { s.th u with hold := .none, stopping := false, restart := false, events := e } := by
  unfold State.doubleFault
  simp only [if_neg hu, State.thState]
  simp (disch := decide) only [(State.threadReset_only Only.rfl Covers.refl).get, State.thrErr, State.get_errBit_apart,
    State.get_put_apart, State.get_put_same, State.get_updTh, State.putThState]
  refine ⟨rfl, rfl, rfl, rfl, ?_⟩
  obtain ⟨e, he⟩ := EventsOnly.threadReset _ u u
  refine ⟨e, he.trans ?_⟩
  rw [State.th_errBit, State.th_put, State.th_put, State.th_put, State.th_put, State.th_updTh_same, State.th_put]

end DoubleFaults

/-- Settles O54: the branches of `issue` in their order, and the delivery of an imprecise trap in each state of its thread. -/
theorem trapDelivery : Obligations.TrapDelivery := by
  unfold Obligations.TrapDelivery
  refine ⟨fun s u rd ra rb a hcan ht hb => ?bus, fun s u rd ra rb a hcan ht hb hf => ?fp,
    fun s u rd ra rb hcan hdue ht hpc => ?badPc, fun s u rd ra rb hcan hdue ht hpc hf => ?badFetch,
    fun s u rd ra rb hcan hdue ht hc hpc => ?doubleFault, fun s core thread late a hcan ht hb => ?imprecise,
    fun s core thread late a hst ht hb hf => ?waiting, fun s core thread late a ht hb hf => ?pending,
    fun s core thread late a hcan hc hb => ?lateDoubleFault⟩
  case bus =>
    obtain ⟨t, hdel, htrap, hnone⟩ := State.deliverEvent_bus (s0 := s.tookIssue (thr u) u.cycles) rfl rfl (fun _ _ => rfl) ht hb
    exact ⟨t, congrArg Host.Outcome.next (State.issue_due hcan hdel), htrap, hnone⟩
  case fp =>
    obtain ⟨t, hdel, htrap, hnone, -⟩ :=
      State.deliverEvent_fp (s0 := s.tookIssue (thr u) u.cycles) rfl rfl (fun _ _ => rfl) ht hb hf
    exact ⟨t, congrArg Host.Outcome.next (State.issue_due hcan hdel), htrap, hnone⟩
  case badPc =>
    exact ⟨_, congrArg Host.Outcome.next (State.issue_badPc hcan hdue hpc), trapped_of_dropped (s := s) _ _ _ ht rfl rfl fun _ _ => rfl⟩
  case badFetch =>
    have hcpu : ((s.tookIssue (thr u) u.cycles).lramUncorrectable (coreOf (thr u))).cpu = (s.tookIssue (thr u) u.cycles).cpu :=
      State.inc_cpu _ _ _ _
    have hth : ∀ v, ((s.tookIssue (thr u) u.cycles).lramUncorrectable (coreOf (thr u))).th v = s.th v := fun v => by
      rw [State.th, hcpu]
      rfl
    exact ⟨_, congrArg Host.Outcome.next (State.issue_badFetch hcan hdue hpc hf),
      trapped_of_dropped (s := s) _ _ _ ht (State.inc_mem _ _ _ _) (hth _) fun v _ => hth v⟩
  case doubleFault =>
    have hu : thr u ≠ 16 := by
      rw [thr]
      omega
    have hexec : exec (.add u rd ra rb) s = .next ((s.tookIssue (thr u) u.cycles).doubleFault (thr u) 1 (s.th (thr u)).pc) := by
      refine congrArg Host.Outcome.next ((State.issue_badPc hcan hdue hpc).trans ?_)
      rw [State.takeTrap, State.th_tookIssue, if_pos ht]
    obtain ⟨hst, hc1, hc2, hv, e, he⟩ :=
      State.halted_doubleFault (s.tookIssue (thr u) u.cycles) 1 (s.th (thr u)).pc hu
    rw [coreOf_thr, lane4_thr] at hc1 hc2 hv
    refine ⟨_, hexec, hst, hc1, hc2, hv, ?_⟩
    rw [he]
    exact ⟨rfl, rfl, rfl, rfl, rfl⟩
  case imprecise =>
    obtain ⟨t, hdel, htrap, -⟩ := State.deliverEvent_bus (s := s) rfl rfl (fun _ _ => rfl) ht hb
    refine ⟨t, congrArg Host.Outcome.next ?_, htrap⟩
    rw [if_pos hcan, hdel, Option.getD_some]
  case waiting =>
    have hleave : (s.leaveWait (4 * core.val + thread.val)).th (4 * core.val + thread.val) =
        { s.th (4 * core.val + thread.val) with hold := .none } := State.th_updTh_same _ _ _
    obtain ⟨t, hdel, htrap, -, hstate⟩ := State.deliverEvent_fp (s := s)
      (s0 := s.leaveWait (4 * core.val + thread.val)) rfl hleave
      (fun v hv => State.th_updTh_ne s _ hv) ht hb hf
    have hcan : s.thrCanIssue (4 * core.val + thread.val) late.val = false := by
      simp [State.thrCanIssue, State.thrReady, hst]
    have hsome : (s.th (4 * core.val + thread.val)).due.isSome = true := by rw [Th.due_fp hb hf (.inl ht)]; rfl
    refine ⟨t, congrArg Host.Outcome.next ?_, htrap, (hstate _).trans ?_⟩
    · simp [hcan, State.deliverWaiting, hst, hsome, hdel]
    · rw [State.thState, State.leaveWait, State.get_put_apart (h := by decide), State.putThState, State.get_put_same]
      rfl
  case pending =>
    have hdue := Th.due_none hb hf ht
    refine congrArg Host.Outcome.next ?_
    simp [State.deliverEvent, State.deliverWaiting, hdue]
  case lateDoubleFault =>
    have hu : 4 * core.val + thread.val ≠ 16 := by omega
    have hcore : coreOf (4 * core.val + thread.val) = core.val := by rw [coreOf]; omega
    have hlane : lane4 (4 * core.val + thread.val) = thread.val := by rw [lane4]; omega
    have hdue := Th.due_bus hb (.inr rfl)
    obtain ⟨hst, hc1, hc2, hv, e, he⟩ := State.halted_doubleFault
      (s.updTh (4 * core.val + thread.val) fun h => { h with busPend := none }) 14 (s.th (4 * core.val + thread.val)).pc hu
    rw [hcore, hlane] at hc1 hc2 hv
    rw [State.th_updTh_same] at hc1 he
    refine ⟨_, congrArg Host.Outcome.next ?_, hst, hc1, hc2, hv, by rw [he]⟩
    rw [if_pos hcan, State.deliverEvent_double hdue]
    rfl

/-! # A statement that a wait of an initiator beyond the last one refutes -/

/-! ### A released semaphore goes to a waiter that reads as its owner (R471, R475) -/

/-- A fold whose steps all leave the state leaves it. -/
theorem foldl_of_fixed {α β : Type} {f : α → β → α} {s : α} {l : List β} (h : ∀ b ∈ l, f s b = s) : l.foldl f s = s := by
  induction l with
  | nil => rfl
  | cons b l ih =>
    rw [List.foldl_cons, h b (by simp)]
    exact ih fun b hb => h b (by simp [hb])

/-- One semaphore at an owner reset of initiator `i`. -/
def State.releaseAtReset (i : Nat) (s : State) (n : Nat) : State :=
  if s.holdsSem i n then ((s.inc SEM_RESET_CNT.count).err SEM_ERR.owner_reset 0 n i).semFree n true false else s

/-- An owner reset before its first semaphore. -/
def State.waitDropped (s : State) (i : Nat) : State :=
  (s.dropWait i).updSem fun m => { m with granted := m.granted.filter fun e => e.1 ≠ i }

theorem State.ownerReset_eq (s : State) (i : Nat) :
    s.ownerReset i = ((List.range' 1 511).foldl (State.releaseAtReset i)
      (State.releaseAtReset i (s.waitDropped i) 0)).publishLevels := by
  have hsems : List.range 512 = 0 :: List.range' 1 511 := by rw [List.range_eq_range', List.range'_succ]
  unfold State.ownerReset
  dsimp only
  rw [hsems, List.foldl_cons]
  rfl

/-- An owner reset ends with the first semaphore where the initiator then holds none of the others. -/
theorem State.ownerReset_of_first {s : State} {i : Nat}
    (h : ((List.range' 1 511).all fun n => !(State.releaseAtReset i (s.waitDropped i) 0).holdsSem i n) = true) :
    s.ownerReset i = (State.releaseAtReset i (s.waitDropped i) 0).publishLevels := by
  rw [State.ownerReset_eq, foldl_of_fixed]
  intro n hn
  have hnot := List.all_eq_true.mp h n hn
  rw [State.releaseAtReset, if_neg (by simpa using hnot)]

/-- Initiator 0 holds semaphore 0, for which an initiator 64 waits: SEM_STATE.owner has six bits. -/
def waiterReadsAsOwner : State :=
  { State.reset.put SEM_STATE.held 1 0 with sem := { State.reset.sem with waits := [{ ini := 64, sem := 0, prio := 0 }] } }

theorem holdsSem_waiterReadsAsOwner : (waiterReadsAsOwner.masterResetAt 0 none).holdsSem 0 0 = true := by
  have hreset : waiterReadsAsOwner.masterResetAt 0 none = _ :=
    State.ownerReset_of_first (s := waiterReadsAsOwner.masterTags 0) (i := 0) (by decide +kernel)
  rw [hreset]
  decide +kernel

/-- Refutes O41: the semaphore that the master reset releases goes to a waiter whose number reads as that of the initiator. -/
theorem not_ringControl : ¬ Obligations.RingControl := by
  unfold Obligations.RingControl
  intro h
  obtain ⟨-, -, -, -, hreset, -⟩ := h
  obtain ⟨-, -, -, hfree⟩ := does_elim (hreset waiterReadsAsOwner 0 rfl rfl) (exec_live rfl rfl rfl)
  have hfalse := hfree 0 (by decide) (by decide +kernel)
  rw [Fin.val_zero, holdsSem_waiterReadsAsOwner] at hfalse
  cases hfalse

/-! # Accesses that trap and accesses that leave the core (R357 to R361, R369 to R374) -/

section Words

variable (keeper : Bool) {rd ra rb : Fin 32} (imm : BitVec 16)

/-- The loads and stores of one register. -/
theorem legalWord_access {op : Nat} (hop : 0x10 ≤ op ∧ op < 0x15 ∨ 0x18 ≤ op ∧ op < 0x1B) (hrd : rd.val < 24) (hra : ra.val < 24) :
    legalWord keeper (encI op rd.val ra.val imm.toNat % 2 ^ 32) = true := by
  obtain ⟨ho, hd, ha⟩ := bits_encI op rd ra imm (by omega)
  simp only [legalWord, ho, hd, ha]
  rw [if_neg (by omega), if_neg (by omega), if_neg (by omega), if_neg (by omega), if_neg (by omega), if_neg (by omega),
    if_neg (by omega), if_neg (by omega), if_neg (by omega), if_pos (by omega)]
  simp [hrd, hra]

/-- A pair begins with an even register (R371). -/
theorem legalWord_pair_odd (hodd : rd.val % 2 = 1) : legalWord keeper (encI 0x15 rd.val ra.val imm.toNat % 2 ^ 32) = false := by
  obtain ⟨ho, hd, ha⟩ := bits_encI 0x15 rd ra imm (by omega)
  simp only [legalWord, ho, hd, ha]
  simp [hodd]

theorem legalWord_amo {func : Nat} (hf : func ≤ 1) (hrd : rd.val < 24) (hra : ra.val < 24) (hrb : rb.val < 24) :
    legalWord keeper (encR 0x1E rd.val ra.val rb.val func % 2 ^ 32) = true := by
  obtain ⟨ho, hd, ha, hb, hfunc⟩ := bits_encR 0x1E func rd ra rb (by omega) (by omega)
  simp only [legalWord, ho, hd, ha, hb, hfunc]
  simp [hrd, hra, hrb, hf]

end Words

section Operands

variable {s : State} {u : Issue} {rd ra rb : Fin 32} {imm : BitVec 16} {op n : Nat}

theorem dataAddr_eq (s : State) (u : Issue) (ra : Fin 32) (imm : BitVec 16) :
    (s.th (thr u)).dataAddr ra imm = dataAt s u ra imm := by
  rw [Th.dataAddr, dataAt, BitVec.toNat_add, toNat_word, sext_toNat (by decide)]

theorem dataAt_lt (s : State) (u : Issue) (ra : Fin 32) (imm : BitVec 16) : dataAt s u ra imm < 2 ^ 32 :=
  BitVec.isLt _

/-- A load is its one access. -/
theorem State.loadOp_of_runs (hr : runs s u = true) (hop : 0x10 ≤ op ∧ op < 0x15) (hrd : rd.val < 24) (hra : ra.val < 24)
    (sgn : Bool) : s.loadOp u op rd ra imm n sgn = ((issued s u).accesses u (.word rd.val n sgn)
      [.load (dataAt s u ra imm) n]).outcome s (issued s u) (thr u) := by
  rw [State.loadOp, State.issue_of_runs hr, if_pos (legalWord_access _ imm (.inl hop) hrd hra), th_issued, dataAddr_eq]

theorem State.storeOp_of_runs (hr : runs s u = true) (hop : 0x18 ≤ op ∧ op < 0x1B) (hrs : rd.val < 24) (hra : ra.val < 24) :
    s.storeOp u op rd ra imm n = ((issued s u).accesses u .nothing
      [.store (dataAt s u ra imm) n ((s.th (thr u)).reg rd.val % 256 ^ n)]).outcome s (issued s u) (thr u) := by
  rw [State.storeOp, State.issue_of_runs hr, if_pos (legalWord_access _ imm (.inr hop) hrs hra)]
  simp only [th_issued, dataAddr_eq]

/-- An AMO that no earlier access of its thread holds back is its one access (R372). -/
theorem State.amoOp_of_runs (hr : runs s u = true) (swap : Bool) (hrd : rd.val < 24) (hra : ra.val < 24) (hrb : rb.val < 24)
    (hs : s.settled (thr u) = true) : s.amoOp u swap rd ra rb = ((issued s u).accesses u (.word rd.val 4 false)
      [.amo (word s u ra).toNat swap (word s u rb).toNat]).outcome s (issued s u) (thr u) := by
  have hf : b2n swap ≤ 1 := by cases swap <;> decide
  rw [State.amoOp, State.issue_of_runs hr, if_pos (legalWord_amo _ hf hrd hra hrb)]
  simp [settled_issued, hs]

end Operands

section OneAccess

variable {s : State} {u : Issue} {x : Access} {after : After} {cause : Nat}

theorem State.accesses_trap (h : s.accessTrap u.core.val x = some cause) : s.accesses u after [x] = .trap cause x.addr := by
  simp [State.accesses, State.firstTrap, h]

theorem accessTrap_issued (s : State) (u : Issue) (x : Access) :
    (issued s u).accessTrap u.core.val x = s.accessTrap u.core.val x := by
  unfold State.accessTrap State.physical
  simp only [aperture_issued]

theorem State.accessTrap_misaligned (s : State) (c : Nat) (h : x.addr % x.size ≠ 0) : s.accessTrap c x = some 8 := by
  simp [State.accessTrap, h]

/-- Aperture 0 holds local RAM alone (R358). -/
theorem State.accessTrap_above (s : State) {c : Nat} (h : x.addr % x.size = 0) (hl : x.addr < 2 ^ 28) (hs : 0 < x.size)
    (ha : lramSize c ≤ x.addr) : s.accessTrap c x = some 9 := by
  have hloc : isLocal x.addr = true := by simpa [isLocal] using hl
  simp [State.accessTrap, h, hloc]
  omega

theorem State.accessTrap_invalid {s : State} {c : Nat} (h : x.addr % x.size = 0)
    (hv : (s.aperture c (x.addr / 2 ^ 28)).valid = false) : s.accessTrap c x = some 9 := by
  have hloc : isLocal x.addr = false := by
    by_contra hc
    have hlt : x.addr < 2 ^ 28 := by simpa [isLocal] using hc
    rw [Nat.div_eq_of_lt hlt] at hv
    cases hv
  simp only [State.accessTrap, h, hloc, hv, ne_eq, not_true_eq_false, if_false, Bool.false_eq_true, not_false_eq_true, if_true]

/-- No AMO acts on CSR space (R372). -/
theorem State.accessTrap_amo_csr (s : State) (c : Nat) {a v : Nat} {swap : Bool} (h : a % 4 = 0) (hlo : 0xF0000000 ≤ a)
    (hhi : a < 2 ^ 32) : s.accessTrap c (.amo a swap v) = some 9 := by
  have h15 : a / 2 ^ 28 = 15 := by omega
  have hloc : isLocal a = false := by
    simp only [isLocal, decide_eq_false_iff_not]
    omega
  have hphys : s.physical c a = 0x2000000000 + a % 2 ^ 28 := by
    have hap : (s.aperture c 15).base = 0x200 := rfl
    rw [State.physical, h15, hap]
    omega
  have htgt : amoTarget (s.physical c a) = false := by
    rw [hphys]
    simp only [amoTarget, Bool.and_eq_false_iff, decide_eq_false_iff_not]
    omega
  simp [State.accessTrap, Access.addr, Access.size, h, hloc, htgt]

/-- The trap of an instruction's one access, outside the trap window. -/
theorem trapped_accesses {s : State} (ht : (s.th (thr u)).inTrap = false) (h : s.accessTrap u.core.val x = some cause) :
    trapped s (((issued s u).accesses u after [x]).outcome s (issued s u) (thr u)) (thr u) cause x.addr (s.th (thr u)).pc := by
  rw [State.accesses_trap (by rw [accessTrap_issued]; exact h), Res.outcome]
  exact trapped_of_takeTrap _ _ _ _ _ ht

end OneAccess

section Requests

variable {s : State} {id : Nat} {x : Access} {after : After}

/-- What handing a packet to the ring, or taking its tag back, can change: the registers and counts of RNG, and the ring. -/
abbrev ringMask : Nat := 0x1004000000000800

@[simp] theorem State.outs_offer (s : State) (p : Pkt) : (s.offer p).ring.outs = s.ring.outs := by
  unfold State.offer
  split
  · rw [(State.publishHolding_only Only.rfl (Covers.refl (a := 0x800))).ring rfl]
    rfl
  · simp only [State.inject, State.takeRoute]
    rw [(State.countInjected_only Only.rfl (Covers.refl (a := 0x1000000000000800))).ring rfl]
    split <;> rfl

/-- With a free tag the request takes the lowest one and enters the ring (R442). -/
theorem State.request_of_free {p : Pkt} (h : (s.freeTag p.ini).isSome = true) (purpose : Purpose) :
    ∃ t, s.request p purpose = some t ∧ Only ringMask s t ∧
      (t.ring.outs.getLast?).map (fun y => (y.ini, y.len)) = some (p.ini, p.len) := by
  obtain ⟨n, hn⟩ := Option.isSome_iff_exists.mp h
  have hreq : ∃ t, s.request p purpose = some t ∧
      (t.ring.outs.getLast?).map (fun y => (y.ini, y.len)) = some (p.ini, p.len) := by
    rw [State.request, hn]
    refine ⟨_, rfl, ?_⟩
    rw [State.outs_offer, State.updRing]
    simp
  obtain ⟨t, ht, hlast⟩ := hreq
  exact ⟨t, ht, Only.Opt.elim ht (State.request_only Only.rfl Covers.refl), hlast⟩

@[simp] theorem Access.ini_pkt (x : Access) (id a : Nat) : (x.pkt id a).ini = id := by cases x <;> rfl

@[simp] theorem Access.len_pkt (x : Access) (id a : Nat) : (x.pkt id a).len = x.size := by cases x <;> rfl

/-- The wait of a thread of core `c` for its one access. -/
def State.waitsFor (s : State) (c : Nat) (x : Access) (after : After) (posted stalled : Bool) : Waiting :=
  { todo := [x], after, phys := s.physical c x.addr, posted, stalled }

/-- An access of an instruction leaves the core: with a free tag it enters the ring, and a posted store lets its thread go on
(R373). -/
theorem State.access_requests (htrap : s.accessTrap (coreOf id) x = none) (hloc : isLocal x.addr = false) (hk : coreOf id ≠ 4)
    (hsig : x.signal (s.physical (coreOf id) x.addr) = none) (hfree : (s.freeTag id).isSome = true) :
    ∃ t, Only ringMask s t ∧ (t.ring.outs.getLast?).map (fun y => (y.ini, y.len)) = some (id, x.size) ∧
      s.access id after [x] [] = if s.isPosted (coreOf id) x then t.accessEnds id after []
        else t.holdAccess id (s.waitsFor (coreOf id) x after false false) := by
  obtain ⟨t, ht, honly, hlast⟩ := State.request_of_free (s := s) (p := x.pkt id (s.physical (coreOf id) x.addr))
    (by simpa using hfree) (if s.isPosted (coreOf id) x then .posted x.addr (s.th id).inTrap else .wait)
  have hsend : s.sendAccess id x (s.physical (coreOf id) x.addr) (s.isPosted (coreOf id) x) =
      some (t, s.isPosted (coreOf id) x) := by
    rw [State.sendAccess, hsig]
    simp only [ht, Option.map_some]
  refine ⟨t, honly, by simpa using hlast, ?_⟩
  rw [State.access, htrap]
  simp only [hloc, hk, hsend, false_and, if_false, Bool.false_eq_true]
  cases hp : s.isPosted (coreOf id) x with
  | true => simp [State.access]
  | false => rfl

/-- Without a free tag the thread stalls (R373, R442). -/
theorem State.access_stalls (htrap : s.accessTrap (coreOf id) x = none) (hloc : isLocal x.addr = false) (hk : coreOf id ≠ 4)
    (hsig : x.signal (s.physical (coreOf id) x.addr) = none) (hfree : s.freeTag id = none) :
    s.access id after [x] [] =
      (s.holdAccess id (s.waitsFor (coreOf id) x after (s.isPosted (coreOf id) x) true)).tagWait id := by
  have hsend : s.sendAccess id x (s.physical (coreOf id) x.addr) (s.isPosted (coreOf id) x) = none := by
    rw [State.sendAccess, hsig, State.request]
    simp [hfree]
  rw [State.access, htrap]
  simp only [hloc, hk, hsend, false_and, if_false, Bool.false_eq_true]
  rfl

end Requests

section Remote

variable {s : State} {u : Issue} {x : Access} {after : After}

/-- Local RAM checks no word for an access that leaves the core. -/
theorem State.lramChecked_remote (hloc : isLocal x.addr = false) (c : Nat) (ecc : EccMap) :
    s.lramChecked c ecc [x] = (s, none) := by
  cases x <;> simp_all [State.lramChecked, eccBad, Access.addr]

theorem freeTag_issued (s : State) (u : Issue) (i : Nat) : (issued s u).freeTag i = s.freeTag i := by
  rw [State.freeTag, State.freeTag, (issued_only s u).ring rfl, get_issued _ _ _ _ (by decide) (by decide)]

theorem physical_issued (s : State) (u : Issue) (a : Nat) : (issued s u).physical u.core.val a = s.physical u.core.val a := by
  rw [State.physical, State.physical, aperture_issued]

theorem isPosted_issued (s : State) (u : Issue) (x : Access) :
    (issued s u).isPosted u.core.val x = s.isPosted u.core.val x := by
  cases x <;> simp [State.isPosted, aperture_issued]

/-- No trap of an access of an aligned address outside local RAM through a valid aperture, but for an AMO (R357, R358). -/
theorem State.accessTrap_remote {c : Nat} (h : x.addr % x.size = 0) (hloc : isLocal x.addr = false)
    (hv : (s.aperture c (x.addr / 2 ^ 28)).valid = true) (hamo : ∀ a swap v, x ≠ .amo a swap v) : s.accessTrap c x = none := by
  cases x with
  | amo a swap v => exact absurd rfl (hamo a swap v)
  | load a n => simp only [State.accessTrap, h, hloc, hv, ne_eq, not_true_eq_false, if_false, Bool.false_eq_true]
  | store a n v => simp only [State.accessTrap, h, hloc, hv, ne_eq, not_true_eq_false, if_false, Bool.false_eq_true]

/-- The access of an instruction leaves the core through a valid aperture, and is not one of the mailbox's port or a signal to
a thread's events. -/
def Leaves (s : State) (u : Issue) (x : Access) : Prop :=
  s.accessTrap u.core.val x = none ∧ isLocal x.addr = false ∧ u.core.val ≠ 4 ∧ x.signal (s.physical u.core.val x.addr) = none

/-- What an instruction does whose one access leaves the core while a tag is free. -/
theorem accesses_request (hx : Leaves s u x) (hfree : (s.freeTag (thr u)).isSome = true) :
    ∃ t, Only ringMask (issued s u) t ∧ (t.ring.outs.getLast?).map (fun y => (y.ini, y.len)) = some (thr u, x.size) ∧
      (issued s u).accesses u after [x] = .acted (if s.isPosted u.core.val x then t.accessEnds (thr u) after []
        else t.holdAccess (thr u) (s.waitsFor u.core.val x after false false)) := by
  obtain ⟨htrap, hloc, hk, hsig⟩ := hx
  obtain ⟨t, honly, hlast, ht⟩ := State.access_requests (s := issued s u) (id := thr u) (x := x) (after := after)
    (by rwa [coreOf_thr, accessTrap_issued]) hloc (by rwa [coreOf_thr]) (by rwa [coreOf_thr, physical_issued])
    (by rwa [freeTag_issued])
  refine ⟨t, honly, hlast, ?_⟩
  have hft : (issued s u).firstTrap (coreOf (thr u)) [x] = none := by
    simp [State.firstTrap, coreOf_thr, accessTrap_issued, htrap]
  have hw : (issued s u).waitsFor u.core.val x after false false = s.waitsFor u.core.val x after false false := by
    rw [State.waitsFor, State.waitsFor, physical_issued]
  rw [coreOf_thr, isPosted_issued, hw] at ht
  simp only [State.accesses, hft, State.lramChecked_remote hloc, ht]

/-- What an instruction does whose one access leaves the core while no tag is free. -/
theorem accesses_stall (hx : Leaves s u x) (hfree : s.freeTag (thr u) = none) :
    (issued s u).accesses u after [x] = .acted (((issued s u).holdAccess (thr u)
      (s.waitsFor u.core.val x after (s.isPosted u.core.val x) true)).tagWait (thr u)) := by
  obtain ⟨htrap, hloc, hk, hsig⟩ := hx
  have ht := State.access_stalls (s := issued s u) (id := thr u) (x := x) (after := after)
    (by rwa [coreOf_thr, accessTrap_issued]) hloc (by rwa [coreOf_thr]) (by rwa [coreOf_thr, physical_issued])
    (by rwa [freeTag_issued])
  have hft : (issued s u).firstTrap (coreOf (thr u)) [x] = none := by
    simp [State.firstTrap, coreOf_thr, accessTrap_issued, htrap]
  have hw : (issued s u).waitsFor u.core.val x after (s.isPosted u.core.val x) true =
      s.waitsFor u.core.val x after (s.isPosted u.core.val x) true := by
    rw [State.waitsFor, State.waitsFor, physical_issued]
  rw [coreOf_thr, isPosted_issued, hw] at ht
  simp only [State.accesses, hft, State.lramChecked_remote hloc, ht]

/-- A store that leaves the core is posted through a posted aperture other than 15 (R373). -/
theorem State.isPosted_store {c a : Nat} (hloc : isLocal a = false) (n v : Nat) :
    s.isPosted c (.store a n v) = (decide (a / 2 ^ 28 ≠ 15) && (s.aperture c (a / 2 ^ 28)).posted) := by
  simp only [State.isPosted, hloc, Bool.not_false, Bool.true_and]

theorem State.hold_holdAccess (s : State) (id : Nat) (w : Waiting) :
    (s.holdAccess id w).th id = { s.th id with hold := .access w } := State.th_updTh_same _ _ _

end Remote

section Uncorrectable

variable {s : State} {u : Issue} {a n : Nat} {after : After}

/-- The entry into the trap window counts one trap (R406). -/
theorem State.get_takeTrap_apart {id i j : Nat} {f : Fld} (ht : (s.th id).inTrap = false) (cause info resume : Nat)
    (h : CPU_THR_TRAP_CNT.count.apart f = true) (h' : CPU_THR_RS_TRAP_CNT.count.apart f = true) :
    (s.takeTrap id cause info resume).get f i j = s.get f i j := by
  rw [State.takeTrap, ht]
  simp only [Bool.false_eq_true, if_false]
  split
  · rw [State.get_inc_apart (h := h'), State.get_inc_apart (h := h)]
    rfl
  · rw [State.get_inc_apart (h := h)]
    rfl

/-- A load whose word of local RAM has a double-bit error takes the trap of R361, and the error is counted. -/
theorem accesses_uncorrectable (h : (Access.load a n).inLocalRam u.core.val) (hn : 0 < n) (ha : a % 4 = 0)
    (hdata : u.data = [(a, .uncorrectable)]) : (issued s u).accesses u after [.load a n] =
      .acted (((issued s u).lramUncorrectable u.core.val).takeTrap (thr u) 11 a
        (((issued s u).lramUncorrectable u.core.val).th (thr u)).pc) := by
  have hloc : isLocal a = true := Access.isLocal_addr h hn
  have hft : (issued s u).firstTrap u.core.val [.load a n] = none :=
    State.firstTrap_local fun y hy => by rw [List.mem_singleton.mp hy]; exact ⟨h, hn⟩
  have hread : decide (a < a + 4) = true ∧ decide (a < a + n) = true := by
    constructor <;> simp only [decide_eq_true_eq] <;> omega
  simp only [State.accesses, coreOf_thr, hft]
  simp [State.lramChecked, hdata, eccFirst, Access.addr, Access.size, hloc, ha, eccBad, hn]

end Uncorrectable

section Threads

variable {s : State} {u : Issue}

theorem released_of_runs (hr : runs s u = true) : (s.th (thr u)).released = s.th (thr u) := by
  simp only [runs, State.thrCanIssue, State.thrReady, Bool.and_eq_true, beq_iff_eq] at hr
  obtain ⟨⟨⟨⟨⟨⟨_, hhold⟩, _⟩, _⟩, _⟩, _⟩, _⟩ := hr
  rw [Th.released, ← hhold]

theorem thr_lt (hk : u.core.val ≠ 4) : thr u < 17 := by
  have := u.core.isLt
  have := u.thread.isLt
  unfold thr
  omega

@[simp] theorem State.th_tagWait (s : State) (i v : Nat) : (s.tagWait i).th v = s.th v := by
  unfold State.tagWait
  split <;> rfl

theorem noStall_of_stalled {id : Nat} {w : Waiting} (hid : id < 17) (h : (s.th id).hold = .access w) (hw : w.stalled = true) :
    noStall s = false := by
  by_contra hc
  simp only [Bool.not_eq_false, noStall, Bool.and_eq_true, List.all_eq_true, List.mem_range] at hc
  obtain ⟨⟨hth, _⟩, _⟩ := hc
  have hgoes := hth id hid
  rw [h] at hgoes
  simp [hw] at hgoes

end Threads

section Responses

variable {s : State} {k lat : Nat} {q : Rsp} {x : Txn}

theorem State.ring_publishHolding (s : State) : s.publishHolding.ring = s.ring :=
  (State.publishHolding_only Only.rfl (Covers.refl (a := 0x800))).ring rfl

/-- A transaction that ends while nothing is held at injection frees its tag. -/
theorem State.ring_freeTxn (h : s.ring.held = []) (x : Txn) : (s.freeTxn x).ring = { s.ring with
    outs := s.ring.outs.filter fun y => y ≠ x
    changed := (s.ring.changed.map fun c => if c.1 / 64 = iniStop x.ini then (c.1, c.2.filter fun n => n ≠ x.slot) else c).filter
      fun c => !c.2.isEmpty } := by
  rw [State.freeTxn, State.releaseHeld, State.ring_publishHolding]
  simp [State.updRing, h]

/-- A response that no check of the way harms ends its transaction. -/
theorem State.ringResponse_completes {is : Cmd → Bool} (hq : s.ring.rsps[k]? = some q) (his : is q.cmd = true)
    (hx : s.ring.outs.find? (fun y => y.ini == q.ini && y.slot == q.slot) = some x) (he : x.epoch = q.epoch) :
    ∃ t l, Only ringMask s t ∧ t.ring = { s.ring with rsps := s.ring.rsps.eraseIdx k, carried := l } ∧
      s.ringResponse is k lat [] = t.completeTxn x (q.status == 0) q.data := by
  let c := s.carry q.ring q.dir q.src (iniStop q.ini) (dataFlits q.addr q.data.length)
  let t := (c.updRing fun g => { g with rsps := g.rsps.eraseIdx k }).countResponse q.ini q.status lat q.data.length
  have hc : Only ringMask s t := State.countResponse_only (State.updRing_only (State.carry_only Only.rfl (by decide)) (by decide))
    (by decide)
  have hring : t.ring = { s.ring with rsps := s.ring.rsps.eraseIdx k, carried := c.ring.carried } := 
    (State.countResponse_only Only.rfl (Covers.refl (a := 0x1000000000000800))).ring rfl
  refine ⟨t, c.ring.carried, hc, hring, ?_⟩
  have houts : t.ring.outs = s.ring.outs := by rw [hring]
  have hcq : c.ring.rsps[k]? = some q := hq
  rw [State.ringResponse, hq]
  simp only [his, not_true_eq_false, if_false]
  change (match c.checkFlits (dataFlits q.addr q.data.length - 1) (iniStop q.ini) [] with
    | (s, none) => s.updRing fun g => { g with rsps := g.rsps.eraseIdx k }
    | (s, some []) => s.response k lat
    | (s, some (_ :: _)) =>
      (s.updRing fun g => { g with rsps := listUpd g.rsps k fun r => { r with status := 2 } }).response k lat) = _
  rw [State.checkFlits]
  simp only []
  rw [State.response, hcq]
  simp only []
  change (match t.ring.outs.find? _ with
    | none => t.staleResponse q
    | some x => if x.epoch ≠ q.epoch then t.staleResponse q else t.completeTxn x (q.status == 0) q.data) = _
  rw [houts, hx]
  simp only [he, ne_eq, not_true_eq_false, if_false]

/-- Where no thread, no channel and not the debug port waits for a tag, freeing one lets nobody go on. -/
theorem State.retryTags_of_noStall (h : noStall s = true) : s.retryTags = s := by
  simp only [noStall, Bool.and_eq_true, List.all_eq_true, List.mem_range, Option.isNone_iff_eq_none] at h
  obtain ⟨⟨hth, hdma⟩, htap⟩ := h
  have hthreads : s.retryStalled = s := foldl_of_fixed fun id hid => by
    have hw := hth id (List.mem_range.mp hid)
    rw [State.retryThread]
    split
    · next w hold =>
      rw [hold] at hw
      rw [if_pos (by simpa using hw)]
    · rfl
  have hpump : (List.range 16).foldl (fun s n => s.dmaPump n) s = s := foldl_of_fixed fun n hn => by
    have hd := hdma n (List.mem_range.mp hn)
    simp only [Bool.not_eq_true'] at hd
    obtain ⟨⟨⟨hdrain, habort⟩, hready⟩, hfetch⟩ := hd
    simp [State.dmaPump, hdrain, habort, hready, hfetch]
  rw [State.retryTags, hthreads, hpump, State.tapRequest, htap]

/-- Nobody begins to wait for a tag while a thread ends its wait. -/
theorem noStall_of_released {t : State} {id : Nat} (h : noStall s = true) (hth : ∀ v < 17, v ≠ id → t.th v = s.th v)
    (hid : (t.th id).hold = .none) (hdma : t.ring.dmas = s.ring.dmas) (htap : t.tap = s.tap) : noStall t = true := by
  have hd : ∀ n, t.dma n = s.dma n := fun n => by rw [State.dma, State.dma, hdma]
  simp only [noStall, Bool.and_eq_true, List.all_eq_true, List.mem_range, hd, htap] at h ⊢
  obtain ⟨⟨hths, hdmas⟩, htaps⟩ := h
  refine ⟨⟨fun v hv => ?_, hdmas⟩, htaps⟩
  by_cases he : v = id
  · rw [he, hid]
  · rw [hth v hv he]
    exact hths v hv

theorem Only.th {A : Nat} {t : State} (h : Only A s t) (hA : A.testBit 49 = false) (v : Nat) : t.th v = s.th v := by
  rw [State.th, State.th, h.cpu hA]

/-- The response that a thread waits for reaches it, and what the thread then does ends its wait. -/
theorem State.ringResponse_wait {is : Cmd → Bool} (ha : s.ring.held = []) (hq : s.ring.rsps[k]? = some q) (his : is q.cmd = true)
    (hx : s.ring.outs.find? (fun y => y.ini == q.ini && y.slot == q.slot) = some x) (he : x.epoch = q.epoch)
    (hpur : x.purpose = .wait) (hns : noStall s = true) : ∃ t, Only ringMask s t ∧
      ∀ r, t.accessDone x.ini (!(q.status == 0)) q.data = r → (r.th x.ini).hold = .none →
        (∀ v < 17, v ≠ x.ini → r.th v = s.th v) → r.ring = t.ring → r.tap = t.tap → s.ringResponse is k lat [] = r := by
  obtain ⟨t, l, honly, hring, hrsp⟩ := State.ringResponse_completes (lat := lat) hq his hx he
  have hheld : t.ring.held = [] := by rw [hring, ← ha]
  have hfree : Only ringMask s (t.freeTxn x) := State.freeTxn_only honly Covers.refl
  refine ⟨t.freeTxn x, hfree, fun r hr hhold hth hr1 hr2 => ?_⟩
  have hdmas : r.ring.dmas = s.ring.dmas := by rw [hr1, State.ring_freeTxn hheld, hring]
  rw [hrsp, State.completeTxn, hpur]
  simp only [hr]
  exact State.retryTags_of_noStall (noStall_of_released hns hth hhold hdmas (hr2.trans (hfree.tap rfl)))

/-- The thread's one load has its bytes: the instruction ends. -/
theorem State.accessDone_load {id a n d p : Nat} {sgn : Bool} {data : List (BitVec 8)}
    (hhold : (s.th id).hold = .access { todo := [.load a n], after := .word d n sgn, phys := p })
    (hst : (s.th id).stopping = false) :
    s.accessDone id false data = s.accessEnds id (.word d n sgn) [(n, leNat data)] := by
  rw [State.accessDone, hhold]
  simp only [hst, Bool.false_eq_true, if_false]
  rw [State.access]
  rfl

/-- The thread's one load has an error response: bus error (R374). -/
theorem State.accessDone_error {id a n d p : Nat} {sgn : Bool} {data : List (BitVec 8)}
    (hhold : (s.th id).hold = .access { todo := [.load a n], after := .word d n sgn, phys := p })
    (hst : (s.th id).stopping = false) :
    s.accessDone id true data = (s.updTh id Th.released).takeTrap id 12 a (s.th id).pc := by
  rw [State.accessDone, hhold]
  simp only [hst, Bool.false_eq_true, if_false, if_true]
  rw [State.accessFails, if_neg (by simp [hst])]
  rfl

theorem Th.released_setReg (h : Th) (d v : Nat) : h.released.setReg d v = (h.setReg d v).released := by
  unfold Th.setReg
  repeat' split
  all_goals rfl

/-- The thread after a load of one word. -/
theorem State.th_accessEnds_word {id : Nat} (hst : (s.th id).stopping = false) (d n v : Nat) :
    (s.accessEnds id (.word d n false) [(n, v)]).th id = { (s.th id).setReg d v with
      hold := .none, pc := (s.th id).pc + 4, instret := ((s.th id).instret + 1) % 2 ^ 64 } := by
  have hfin : (s.th id).released.finish (.word d n false) [(n, v)] = ((s.th id).setReg d v).released := by
    rw [← Th.released_setReg, Th.finish, gotValue, gotValue, Nat.mul_zero, Nat.add_zero]
    rfl
  rw [State.th_accessEnds hst, hfin]
  rfl

theorem State.th_accessEnds_ne {id v : Nat} (hst : (s.th id).stopping = false) (hv : v ≠ id) (after : After)
    (got : List (Nat × Nat)) : (s.accessEnds id after got).th v = s.th v := by
  rw [State.accessEnds_of_not_stopping hst, State.retire, State.th_updTh_ne _ _ hv, State.th_updTh_ne _ _ hv]

theorem State.ring_accessEnds {id : Nat} (hst : (s.th id).stopping = false) (after : After) (got : List (Nat × Nat)) :
    (s.accessEnds id after got).ring = s.ring ∧ (s.accessEnds id after got).tap = s.tap := by
  rw [State.accessEnds_of_not_stopping hst]
  exact ⟨rfl, rfl⟩

theorem State.ring_takeTrap {id : Nat} (ht : (s.th id).inTrap = false) (cause info resume : Nat) :
    (s.takeTrap id cause info resume).ring = s.ring ∧ (s.takeTrap id cause info resume).tap = s.tap := by
  simp only [State.takeTrap, ht, Bool.false_eq_true, if_false]
  split <;> exact ⟨rfl, rfl⟩

end Responses

/-- Settles O49: each trap is that of the instruction's one access, a good access enters the ring as one transaction, and its
response ends or fails the access that its thread waits for. -/
theorem accessTraps : Obligations.AccessTraps := by
  unfold Obligations.AccessTraps
  refine ⟨fun s u rd ra imm hr hrd hra ht hmis => ?lw, fun s u rs ra imm hr hrs hra ht hmis => ?sh,
    fun s u rd ra imm hr hrd hra ht hodd => ?ldp, fun s u rd ra imm hr hrd hra ht hal hlo habove => ?above,
    fun s u rs ra imm hr hrs hra ht hal hv => ?invalid, fun s u rd ra rb hr hrd hra hrb ht hs hal hlo => ?amo,
    fun s u rd ra imm hr hrd hra ht hal hin hdata hfetch => ?uncorrectable,
    fun s u rd ra imm hr hrd hra hal hlo hv hfree hk => ?request,
    fun s u rs ra imm hr hrs hra hal hlo hv hfree hk hev hst hcsr hp => ?posted,
    fun s u rs ra imm hr hrs hra hal hlo hv hfree hk hev hp => ?waits,
    fun s u rd ra imm hr hrd hra hal hlo hv hfree hk => ?stalls,
    fun s k lat q x a d p ha hq hx he hpur hini hheld hns hlt hcmd hhold hst hstatus => ?data,
    fun s k lat q x a d p ha hq hx he hpur hini hheld hns hlt hcmd hhold hst hstatus ht hlt32 => ?error⟩
  case lw =>
    refine ⟨_, congrArg Host.Outcome.next (State.loadOp_of_runs hr (by decide) hrd hra false), ?_⟩
    exact trapped_accesses ht (State.accessTrap_misaligned _ _ hmis)
  case sh =>
    refine ⟨_, congrArg Host.Outcome.next (State.storeOp_of_runs hr (by decide) hrs hra), ?_⟩
    exact trapped_accesses ht (State.accessTrap_misaligned _ _ hmis)
  case ldp =>
    refine ⟨_, congrArg Host.Outcome.next (State.issue_illegal hr (by rw [coreOf_thr]; exact legalWord_pair_odd _ imm hodd)), ?_⟩
    rw [encI_eq]
    exact trapped_of_takeTrap _ _ _ _ _ ht
  case above =>
    refine ⟨_, congrArg Host.Outcome.next (State.loadOp_of_runs hr (by decide) hrd hra false), ?_⟩
    exact trapped_accesses ht (State.accessTrap_above _ hal hlo (Nat.zero_lt_succ 3) habove)
  case invalid =>
    refine ⟨_, congrArg Host.Outcome.next (State.storeOp_of_runs hr (by decide) hrs hra), ?_⟩
    exact trapped_accesses ht (State.accessTrap_invalid hal hv)
  case amo =>
    refine ⟨_, congrArg Host.Outcome.next (State.amoOp_of_runs hr false hrd hra hrb hs), ?_⟩
    exact trapped_accesses ht (State.accessTrap_amo_csr _ _ hal hlo (word s u ra).isLt)
  case uncorrectable =>
    refine ⟨_, congrArg Host.Outcome.next (State.loadOp_of_runs hr (by decide) hrd hra false), ?_⟩
    have hacc := accesses_uncorrectable (s := s) (a := dataAt s u ra imm) (after := .word rd.val 4 false) ⟨hal, hin⟩ (Nat.zero_lt_succ 3) hal hdata
    beta_reduce
    rw [hacc, Res.outcome]
    have hth : ∀ v, ((issued s u).lramUncorrectable u.core.val).th v = s.th v := fun v =>
      (Only.th (State.lramUncorrectable_only Only.rfl (Covers.refl (a := 0x1800000000004000))) rfl v).trans (th_issued s u v)
    have htrap : (((issued s u).lramUncorrectable u.core.val).th (thr u)).inTrap = false := by rwa [hth]
    rw [hth]
    refine ⟨trapped_of_dropped _ _ _ ht (mem_issued s u) (hth _) fun v _ => hth v, ?_⟩
    rw [State.get_takeTrap_apart htrap _ _ _ (by decide) (by decide), State.lramUncorrectable,
      State.get_err_apart (h := by decide), State.get_inc_rc (h := rfl), get_issued (h := by decide) (h' := by decide)]
    rfl
  case request =>
    have hloc : isLocal (dataAt s u ra imm) = false := by
      simpa [isLocal] using hlo
    have hleaves : Leaves s u (.load (dataAt s u ra imm) 4) :=
      ⟨State.accessTrap_remote hal hloc hv (by simp), hloc, hk, rfl⟩
    obtain ⟨t, honly, hlast, hreq⟩ := accesses_request (after := .word rd.val 4 false) hleaves hfree
    refine ⟨_, congrArg Host.Outcome.next (State.loadOp_of_runs hr (by decide) hrd hra false), ?_⟩
    beta_reduce
    rw [hreq, Res.outcome, if_neg (by simp [State.isPosted]), State.hold_holdAccess]
    refine ⟨rfl, ?_, hlast, (honly.mem rfl).trans (mem_issued s u)⟩
    rw [Only.th honly rfl, th_issued]
  case posted =>
    have hloc : isLocal (dataAt s u ra imm) = false := by
      simpa [isLocal] using hlo
    have hleaves : Leaves s u (.store (dataAt s u ra imm) 4 ((s.th (thr u)).reg rs.val % 256 ^ 4)) :=
      ⟨State.accessTrap_remote hal hloc hv (by simp), hloc, hk, by simp [Access.signal, Access.addr, hev]⟩
    obtain ⟨t, honly, hlast, hreq⟩ := accesses_request (after := .nothing) hleaves hfree
    refine ⟨_, congrArg Host.Outcome.next (State.storeOp_of_runs hr (by decide) hrs hra), ?_⟩
    beta_reduce
    rw [hreq, Res.outcome, if_pos (by
      rw [State.isPosted_store hloc, hp]
      simp only [Bool.and_true, decide_eq_true_eq]
      omega)]
    have hst' : (t.th (thr u)).stopping = false := by rwa [Only.th honly rfl, th_issued]
    have hnext : next u (s.th (thr u)) (s.th (thr u)) (t.accessEnds (thr u) .nothing []) := by
      rw [next, State.th_accessEnds hst', Only.th honly rfl, th_issued, released_of_runs hr]
      rfl
    refine ⟨hnext, ?_, ?_⟩
    · rw [(State.ring_accessEnds hst' _ _).1]
      exact hlast
    · rw [State.mem_accessEnds hst', honly.mem rfl, mem_issued]
  case waits =>
    have hloc : isLocal (dataAt s u ra imm) = false := by
      simpa [isLocal] using hlo
    have hleaves : Leaves s u (.store (dataAt s u ra imm) 4 ((s.th (thr u)).reg rs.val % 256 ^ 4)) :=
      ⟨State.accessTrap_remote hal hloc hv (by simp), hloc, hk, by simp [Access.signal, Access.addr, hev]⟩
    obtain ⟨t, honly, hlast, hreq⟩ := accesses_request (after := .nothing) hleaves hfree
    refine ⟨_, congrArg Host.Outcome.next (State.storeOp_of_runs hr (by decide) hrs hra), ?_⟩
    beta_reduce
    rw [hreq, Res.outcome, if_neg (by
      rw [State.isPosted_store hloc]
      have hlt := dataAt_lt s u ra imm
      rcases hp with hp | hp
      · rw [show dataAt s u ra imm / 2 ^ 28 = 15 by omega]
        simp
      · rw [hp, Bool.and_false]
        decide)]
    refine ⟨?_, hlast, (honly.mem rfl).trans (mem_issued s u)⟩
    have hword : (s.th (thr u)).reg rs.val % 256 ^ 4 = (s.th (thr u)).reg rs.val := Nat.mod_eq_of_lt (Th.reg_lt _ _)
    rw [State.hold_holdAccess, toNat_word, hword]
    rfl
  case stalls =>
    have hloc : isLocal (dataAt s u ra imm) = false := by
      simpa [isLocal] using hlo
    have hleaves : Leaves s u (.load (dataAt s u ra imm) 4) :=
      ⟨State.accessTrap_remote hal hloc hv (by simp), hloc, hk, rfl⟩
    refine ⟨_, congrArg Host.Outcome.next (State.loadOp_of_runs hr (by decide) hrd hra false), ?_⟩
    beta_reduce
    rw [accesses_stall hleaves hfree, Res.outcome]
    have hth := (State.th_tagWait _ (thr u) (thr u)).trans (State.hold_holdAccess (issued s u) (thr u)
      (s.waitsFor u.core.val (.load (dataAt s u ra imm) 4) (.word rd.val 4 false)
        (s.isPosted u.core.val (.load (dataAt s u ra imm) 4)) true))
    refine ⟨noStall_of_stalled (thr_lt hk) (congrArg Th.hold hth) rfl, ?_⟩
    rw [hth, th_issued]
  case data =>
    obtain ⟨t, honly, hends⟩ := State.ringResponse_wait (is := (· == .read)) (lat := lat) hheld hq (by simp [hcmd]) hx he hpur hns
    have hth := Only.th honly rfl
    rw [hstatus] at hends
    have hst' : (t.th x.ini).stopping = false := by rwa [hth]
    have hdone := State.accessDone_load (data := q.data) (by rwa [hth]) hst'
    have hexec := hends _ hdone (by rw [State.th_accessEnds_word hst']) (fun v _ hv => by rw [State.th_accessEnds_ne hst' hv, hth])
      (State.ring_accessEnds hst' _ _).1 (State.ring_accessEnds hst' _ _).2
    refine ⟨_, exec_live rfl ha hexec, ?_⟩
    beta_reduce
    rw [State.th_accessEnds_word hst', hth]
  case error =>
    obtain ⟨t, honly, hends⟩ := State.ringResponse_wait (is := (· == .read)) (lat := lat) hheld hq (by simp [hcmd]) hx he hpur hns
    have hth := Only.th honly rfl
    rw [show (q.status == 0) = false by simpa using hstatus] at hends
    have hst' : (t.th x.ini).stopping = false := by rwa [hth]
    have hdone := State.accessDone_error (data := q.data) (by rwa [hth]) hst'
    have hrel : ((t.updTh x.ini Th.released).th x.ini) = (s.th x.ini).released := by rw [State.th_updTh_same, hth]
    have ht' : ((t.updTh x.ini Th.released).th x.ini).inTrap = false := by
      rw [hrel]
      exact ht
    have htrap : trapped s ((t.updTh x.ini Th.released).takeTrap x.ini 12 a (t.th x.ini).pc) x.ini 12 a (s.th x.ini).pc := by
      rw [hth]
      exact trapped_of_dropped _ _ _ ht (honly.mem rfl) hrel fun v hv => (State.th_updTh_ne _ _ hv).trans (hth v)
    have hexec := hends _ hdone (by
      rw [State.th_takeTrap _ _ _ _ ht']) (fun v hv hne => by
      rw [State.th_takeTrap_ne _ _ _ _ ht' hne, State.th_updTh_ne _ _ hne, hth])
      (State.ring_takeTrap ht' _ _ _).1 (State.ring_takeTrap ht' _ _ _).2
    exact ⟨_, exec_live rfl ha hexec, htrap⟩

/-! # Registers with index numbers in their tables, and writes of whole registers (R4, R591) -/

/-- The offset of the last entry of a field. -/
def Fld.last (f : Fld) : Nat := f.off (f.c1 - 1) (f.c2 - 1) + f.lsb / 32

/-- Within their tables `f` and `g` stand at different keys: their pages or their lowest bits differ, or one table ends
before the other begins. -/
def Fld.parted (f g : Fld) : Bool :=
  f.page != g.page || f.lsb % 32 != g.lsb % 32 ||
    decide (f.last < 0x10000 ∧ g.last < 0x10000 ∧ (f.last < g.base + g.lsb / 32 ∨ g.last < f.base + f.lsb / 32))

theorem Fld.off_le_last (f : Fld) {i j : Nat} (hi : i < f.c1) (hj : j < f.c2) : f.off i j + f.lsb / 32 ≤ f.last := by
  have h1 : f.s1 * i ≤ f.s1 * (f.c1 - 1) := Nat.mul_le_mul_left _ (by omega)
  have h2 : f.s2 * j ≤ f.s2 * (f.c2 - 1) := Nat.mul_le_mul_left _ (by omega)
  unfold Fld.last Fld.off
  omega

section

variable {f g : Fld} {i j k l : Nat} (h : f.parted g = true) (hi : i < f.c1) (hj : j < f.c2) (hk : k < g.c1) (hl : l < g.c2)
include h hi hj hk hl

theorem Fld.key_ne_of_parted : g.key k l ≠ f.key i j := by
  intro e
  have hpage : g.page = f.page := by
    rw [← Fld.key_page g k l, ← Fld.key_page f i j, e]
  have hmod : (32 * g.off k l + g.lsb) % 0x200000 = (32 * f.off i j + f.lsb) % 0x200000 := by
    unfold Fld.key at e
    omega
  have hlsb : f.lsb % 32 = g.lsb % 32 := by omega
  have hf := Fld.off_le_last f hi hj
  have hg := Fld.off_le_last g hk hl
  have hf0 : f.base ≤ f.off i j := by unfold Fld.off; omega
  have hg0 : g.base ≤ g.off k l := by unfold Fld.off; omega
  simp only [Fld.parted, hpage, hlsb, bne_self_eq_false, Bool.or_false, Bool.false_or, decide_eq_true_eq] at h
  omega

variable (s : State) (v inst detail : Nat)

theorem State.get_put_parted : (s.put f v i j).get g k l = s.get g k l :=
  State.get_put_ne _ _ _ _ _ _ _ _ (Fld.key_ne_of_parted h hi hj hk hl)

theorem State.get_err_parted : (s.err f i inst detail j).get g k l = s.get g k l :=
  State.get_err_ne _ _ _ _ _ _ _ _ _ (Fld.key_ne_of_parted h hi hj hk hl)

theorem State.get_add_parted : (s.add f v i j).get g k l = s.get g k l := by
  have hput := fun v => State.get_put_parted h hi hj hk hl s v
  unfold State.add
  split <;> simp [hput]

theorem State.get_inc_parted : (s.inc f i j).get g k l = s.get g k l :=
  State.get_add_parted h hi hj hk hl s 1

end

/-- The instances of a field stand at different keys within its table: those of different first numbers. -/
theorem Fld.key_ne_of_first {f : Fld} {i j k : Nat} (h : 0 < f.s1 ∧ f.last < 0x10000) (hi : i < f.c1) (hk : k < f.c1) (hj : j < f.c2)
    (hne : k ≠ i) : f.key k j ≠ f.key i j := by
  have h1 := Fld.off_le_last f hi hj
  have h2 := Fld.off_le_last f hk hj
  have hmul : f.s1 * k ≠ f.s1 * i := fun e => hne (Nat.eq_of_mul_eq_mul_left h.1 e)
  unfold Fld.key
  unfold Fld.off at h1 h2 ⊢
  omega

/-- Those of different second numbers. -/
theorem Fld.key_ne_of_second {f : Fld} {i j l : Nat} (h : 0 < f.s2 ∧ f.last < 0x10000) (hi : i < f.c1) (hj : j < f.c2) (hl : l < f.c2)
    (hne : l ≠ j) : f.key i l ≠ f.key i j := by
  have h1 := Fld.off_le_last f hi hj
  have h2 := Fld.off_le_last f hi hl
  have hmul : f.s2 * l ≠ f.s2 * j := fun e => hne (Nat.eq_of_mul_eq_mul_left h.1 e)
  unfold Fld.key
  unfold Fld.off at h1 h2 ⊢
  omega

/-- What every step of a fold leaves, the fold leaves. -/
theorem State.get_foldl {α : Type} {f : State → α → State} {g : Fld} {k l : Nat} {xs : List α} (s : State)
    (h : ∀ s, ∀ x ∈ xs, (f s x).get g k l = s.get g k l) : (xs.foldl f s).get g k l = s.get g k l := by
  induction xs generalizing s with
  | nil => rfl
  | cons x xs ih =>
    rw [List.foldl_cons, ih _ fun s y hy => h s y (by simp [hy]), h s x (by simp)]

/-- The fields of a page that have an entry at an offset. -/
def fieldsAt (page off : Nat) : List (Fld × Nat × Nat) :=
  (fieldsOfPage page).filterMap fun f => (f.locate off).map fun ij => (f, ij)

/-- A write of a register is a write of each of its fields. -/
theorem State.wrReg_eq (s : State) (page off m v : Nat) :
    s.wrReg page off m v = (fieldsAt page off).foldl (fun s x => s.wrField x.1 m v x.2.1 x.2.2) s := by
  rw [State.wrReg, fieldsAt, List.foldl_filterMap]
  congr 1
  funext s f
  cases f.locate off <;> rfl

theorem bits_lt (v lo w : Nat) : bits v lo w < 2 ^ w := Nat.mod_lt _ (Nat.two_pow_pos w)

/-- A write of every bit of a field stores the new value, within its clamp (R591). -/
theorem State.wrField_rw {s : State} {f : Fld} {m v i j : Nat} (hacc : f.acc = .rw) (hw : 0 < f.width)
    (hm : bits m f.lsb f.width = 2 ^ f.width - 1) :
    s.wrField f m v i j = s.put f (f.clampTo (s.get f i j) (bits v f.lsb f.width)) i j := by
  have hpos : 2 ^ f.width - 1 ≠ 0 := by
    have := Nat.one_lt_two_pow (n := f.width) (by omega)
    omega
  have hmerged : (s.get f i j &&& (2 ^ f.width - 1 - (2 ^ f.width - 1))) ||| (bits v f.lsb f.width &&& (2 ^ f.width - 1)) =
      bits v f.lsb f.width := by
    rw [Nat.sub_self, Nat.and_zero, Nat.zero_or, Nat.and_two_pow_sub_one_eq_mod, Nat.mod_eq_of_lt (bits_lt _ _ _)]
  simp only [State.wrField, hacc, hm, hmerged, if_neg hpos]

section Counting

variable (s : State) (f : Fld) (i j : Nat)

/-- Counting writes the count and the dictionary's copy of it alone. -/
theorem State.inc_parts : ∃ csr counts, s.inc f i j = { s with csr := csr, counts := counts } := by
  unfold State.inc State.add
  split <;> exact ⟨_, _, rfl⟩

@[simp] theorem State.inc_sem : (s.inc f i j).sem = s.sem := by
  obtain ⟨_, _, h⟩ := State.inc_parts s f i j
  rw [h]

@[simp] theorem State.inc_poison : (s.inc f i j).poison = s.poison := by
  obtain ⟨_, _, h⟩ := State.inc_parts s f i j
  rw [h]

end Counting

/-! # Semaphores: their operations, leases and rights (R469 to R476) -/

/-- None of the fields `l` has an entry at the key of an entry of `g`. -/
def Fld.partedAll (l : List Fld) (g : Fld) : Bool := l.all fun f => f.parted g

/-- The fields of an outcome (R469). -/
def resultFields : List Fld :=
  [SEM_INI_RESULT.sem, SEM_INI_RESULT.code, SEM_INI_RESULT.owner_reset, SEM_INI_RESULT.lease_expired]

/-- The fields that a grant writes (R469, R471, R476). -/
def grantFields : List Fld := SEM_STATE.owner :: SEM_STATE.held :: SEM_GRANT_CNT.count :: resultFields

section Fields

variable {g : Fld} {i n k l : Nat} (s : State) (code : Nat)

theorem State.get_semResult (h : Fld.partedAll resultFields g = true) (hi : i < 41) (hk : k < g.c1) (hl : l < g.c2) :
    (s.semResult i n code).get g k l = s.get g k l := by
  simp only [Fld.partedAll, resultFields, List.all_cons, List.all_nil, Bool.and_true, Bool.and_eq_true] at h
  obtain ⟨hsem, hcode, hreset, hexp⟩ := h
  rw [State.semResult, State.get_put_parted hexp hi (by decide) hk hl, State.get_put_parted hreset hi (by decide) hk hl,
    State.get_put_parted hcode hi (by decide) hk hl, State.get_put_parted hsem hi (by decide) hk hl]

@[simp] theorem State.code_semResult : (s.semResult i n code).get SEM_INI_RESULT.code i = code % 16 := by
  rw [State.semResult, State.get_put_apart (h := by decide), State.get_put_apart (h := by decide), State.get_put_same]
  rfl

@[simp] theorem State.resultSem_semResult : (s.semResult i n code).get SEM_INI_RESULT.sem i = n % 512 := by
  rw [State.semResult, State.get_put_apart (h := by decide), State.get_put_apart (h := by decide),
    State.get_put_apart (h := by decide), State.get_put_same]
  rfl

theorem State.get_publishLevels (h : Fld.partedAll [SEM_INH.level, SEM_INH.signalled] g = true) (hk : k < g.c1) (hl : l < g.c2) :
    s.publishLevels.get g k l = s.get g k l := by
  simp only [Fld.partedAll, List.all_cons, List.all_nil, Bool.and_true, Bool.and_eq_true] at h
  obtain ⟨hlevel, hsig⟩ := h
  unfold State.publishLevels
  refine State.get_foldl s fun t u hu => ?_
  have hu : u < 16 := List.mem_range.mp hu
  dsimp only
  rw [State.get_put_parted hsig hu (by decide) hk hl, State.get_put_parted hlevel hu (by decide) hk hl]

theorem State.holdsSem_publishLevels (hn : n < 512) : s.publishLevels.holdsSem i n = s.holdsSem i n := by
  rw [State.holdsSem, State.holdsSem, State.bit, State.bit, State.get_publishLevels _ (by decide) hn (by decide),
    State.get_publishLevels _ (by decide) hn (by decide)]

@[simp] theorem State.sem_publishLevels : s.publishLevels.sem = s.sem :=
  (State.publishLevels_only Only.rfl (Covers.refl (a := 0x2000))).sem rfl

@[simp] theorem State.sem_semResult : (s.semResult i n code).sem = s.sem := rfl

section Grant

/-- What a grant shows and counts (R469, R474). -/
theorem State.semGrant_shows (hi : i < 41) (hn : n < 512) :
    (s.semGrant i n).get SEM_INI_RESULT.code i = 1 ∧ (s.semGrant i n).get SEM_INI_RESULT.sem i = n ∧
      (s.semGrant i n).holdsSem i n = true ∧
      (s.semGrant i n).get SEM_GRANT_CNT.count = min (2 ^ 32 - 1) (s.get SEM_GRANT_CNT.count + 1) ∧
      (s.semGrant i n).sem = { s.sem with leases := Sparse.set 0 s.sem.leases n (s.get SEM_GRP_LEASE.us (n / 16)) } := by
  have hleases : (((s.put SEM_STATE.owner i n).put SEM_STATE.held 1 n).get SEM_GRP_LEASE.us (n / 16)) =
      s.get SEM_GRP_LEASE.us (n / 16) := by
    have hgrp : n / 16 < 32 := by omega
    rw [State.get_put_apart (h := by decide), State.get_put_parted (by decide) hn (by decide) hgrp (by decide)]
  have hheld : (((s.put SEM_STATE.owner i n).put SEM_STATE.held 1 n).startLease n).get SEM_STATE.held n = 1 :=
    State.get_put_of_lt _ _ _ (by decide)
  have howner : (((s.put SEM_STATE.owner i n).put SEM_STATE.held 1 n).startLease n).get SEM_STATE.owner n = i := by
    refine (State.get_put_apart _ _ _ _ _ _ (by decide)).trans ?_
    exact State.get_put_of_lt _ _ _ (show i < 2 ^ 6 by omega)
  refine ⟨?_, ?_, ?_, ?_, ?_⟩
  · rw [State.semGrant, State.get_put_apart (h := by decide), State.get_put_apart (h := by decide), State.code_semResult]
  · rw [State.semGrant, State.get_put_apart (h := by decide), State.get_put_apart (h := by decide), State.resultSem_semResult,
      Nat.mod_eq_of_lt hn]
  · rw [State.holdsSem, State.bit, State.semGrant, State.get_put_apart (h := by decide), State.get_put_apart (h := by decide),
      State.get_put_apart (h := by decide), State.get_put_apart (h := by decide),
      State.get_semResult _ _ (by decide) hi hn (by decide), State.get_semResult _ _ (by decide) hi hn (by decide),
      State.get_inc_apart (h := by decide), State.get_inc_parted (by decide) (by decide) (by decide) hn (by decide), hheld, howner]
    simp
  · rw [State.semGrant, State.get_put_apart (h := by decide), State.get_put_apart (h := by decide),
      State.get_semResult _ _ (by decide) hi (by decide) (by decide), State.get_inc_rc _ _ _ rfl]
    refine congrArg (fun c => min (2 ^ 32 - 1) (c + 1)) ?_
    exact (State.get_put_apart _ _ _ _ _ _ (by decide)).trans
      (State.get_put_parted (by decide) hn (by decide) (by decide) (by decide) _ _)
  · rw [← hleases]
    rfl

theorem State.semTake_shows (hi : i < 41) (hn : n < 512) :
    (s.semTake i n).get SEM_INI_RESULT.code i = 1 ∧ (s.semTake i n).get SEM_INI_RESULT.sem i = n ∧
      (s.semTake i n).holdsSem i n = true ∧
      (s.semTake i n).get SEM_GRANT_CNT.count = min (2 ^ 32 - 1) (s.get SEM_GRANT_CNT.count + 1) ∧
      Sparse.get 0 (s.semTake i n).sem.leases n = s.get SEM_GRP_LEASE.us (n / 16) := by
  obtain ⟨hcode, hsem, hholds, hcount, hs⟩ := State.semGrant_shows s hi hn
  rw [State.semTake, State.get_publishLevels _ (by decide) hi (by decide), State.get_publishLevels _ (by decide) hi (by decide),
    State.holdsSem_publishLevels _ hn, State.get_publishLevels _ (by decide) (by decide) (by decide), State.sem_publishLevels, hs]
  exact ⟨hcode, hsem, hholds, hcount, Sparse.get_set_same _ _ _ _⟩

end Grant

section Drop

/-- The wait of an initiator is over: none of it is left, and it shows no wait (R469). -/
theorem State.waits_dropWait : (s.dropWait i).sem.waits = s.sem.waits.filter fun w => decide (w.ini ≠ i) := by
  unfold State.dropWait
  split
  · next h =>
    rw [List.find?_eq_none] at h
    exact (List.filter_eq_self.mpr fun w hw => by simpa using h w hw).symm
  · rfl

theorem State.no_wait_dropWait : ((s.dropWait i).sem.waits.any fun w => w.ini == i) = false := by
  rw [State.waits_dropWait, List.any_filter]
  simp

theorem State.waiting_dropWait (h : (s.sem.waits.any fun w => decide (w.ini = i ∧ w.sem = n)) = true) :
    (s.dropWait i).get SEM_INI_WAIT.waiting i = 0 := by
  unfold State.dropWait
  split
  · next hnone =>
    rw [List.find?_eq_none] at hnone
    obtain ⟨w, hw, hwi⟩ := List.any_eq_true.mp h
    exact absurd (of_decide_eq_true hwi).1 (by simpa using hnone w hw)
  · rw [State.publishWaiters, State.get_put_apart (h := by decide), State.get_put_same]
    rfl

end Drop

section Free

/-- A semaphore that nobody holds any more, before it is granted again (R471, R476). -/
def State.freed (s : State) (n : Nat) (reset expired : Bool) : State :=
  ((((s.updSem fun m => { m with granted := (m.granted.filter fun e => e ≠ (s.get SEM_STATE.owner n, n)), leases := m.leases.erase n }).put
    SEM_STATE.owner 0 n).put SEM_STATE.held 0 n).put SEM_STATE.owner_reset (b2n reset) n).put SEM_STATE.lease_expired (b2n expired) n

variable {reset expired : Bool}

theorem State.get_freed (h : Fld.partedAll [SEM_STATE.owner, SEM_STATE.held, SEM_STATE.owner_reset, SEM_STATE.lease_expired] g = true)
    (hn : n < 512) (hk : k < g.c1) (hl : l < g.c2) : (s.freed n reset expired).get g k l = s.get g k l := by
  simp only [Fld.partedAll, List.all_cons, List.all_nil, Bool.and_true, Bool.and_eq_true] at h
  obtain ⟨howner, hheld, hreset, hexp⟩ := h
  rw [State.freed, State.get_put_parted hexp hn (by decide) hk hl, State.get_put_parted hreset hn (by decide) hk hl,
    State.get_put_parted hheld hn (by decide) hk hl, State.get_put_parted howner hn (by decide) hk hl]
  rfl

theorem State.owner_freed : (s.freed n reset expired).get SEM_STATE.owner n = 0 := by
  rw [State.freed, State.get_put_apart (h := by decide), State.get_put_apart (h := by decide),
    State.get_put_apart (h := by decide), State.get_put_same]
  rfl

theorem State.held_freed : (s.freed n reset expired).get SEM_STATE.held n = 0 := by
  rw [State.freed, State.get_put_apart (h := by decide), State.get_put_apart (h := by decide), State.get_put_same]
  rfl

theorem State.expired_freed : (s.freed n reset expired).get SEM_STATE.lease_expired n = b2n expired := by
  rw [State.freed, State.get_put_same]
  cases expired <;> rfl

/-- The next waiter depends on the waits and on the levels that the threads are signalled alone. -/
theorem State.nextWaiter_congr {s t : State} (hsem : t.sem.waits = s.sem.waits)
    (hsig : ∀ u < 16, t.get SEM_INH.signalled u = s.get SEM_INH.signalled u)
    (hlevel : ∀ u < 16, t.get SEM_INH.level u = s.get SEM_INH.level u) (n : Nat) : t.nextWaiter n = s.nextWaiter n := by
  have hprio : ∀ w, t.waitPrioNow w = s.waitPrioNow w := by
    intro w
    unfold State.waitPrioNow waitPrio
    split
    · next h =>
      simp only [State.bit, hsig _ h, hlevel _ h]
      rfl
    · rfl
  unfold State.nextWaiter
  simp only [hprio, hsem]

theorem State.nextWaiter_freed (hn : n < 512) : (s.freed n reset expired).nextWaiter n = s.nextWaiter n :=
  State.nextWaiter_congr (s := s) (t := s.freed n reset expired) rfl
    (fun _ hu => State.get_freed (g := SEM_INH.signalled) (l := 0) s (by decide) hn hu (by decide))
    (fun _ hu => State.get_freed (g := SEM_INH.level) (l := 0) s (by decide) hn hu (by decide)) n

/-- Nobody waits: the semaphore stays free. -/
theorem State.semFree_of_none (hn : n < 512) (h : s.nextWaiter n = none) :
    s.semFree n reset expired = (s.freed n reset expired).publishLevels := by
  have hnext := State.nextWaiter_freed (reset := reset) (expired := expired) s hn
  rw [h] at hnext
  rw [State.semFree]
  change (match (s.freed n reset expired).nextWaiter n with
    | none => _
    | some w => _) = _
  rw [hnext]
  rfl

/-- The semaphore goes to the next waiter, with an event for its thread (R402, R471). -/
theorem State.semFree_of_some (hn : n < 512) {w : SemWait} (h : s.nextWaiter n = some w) :
    s.semFree n reset expired = (((((s.freed n reset expired).dropWait w.ini).semGrant w.ini n).updSem fun m =>
      { m with granted := m.granted ++ [(w.ini, n)] }).raiseEvent w.ini 17).publishLevels := by
  have hnext := State.nextWaiter_freed (reset := reset) (expired := expired) s hn
  rw [h] at hnext
  rw [State.semFree]
  change (match (s.freed n reset expired).nextWaiter n with
    | none => _
    | some w => _) = _
  rw [hnext]
  rfl

end Free

end Fields

section Requests

variable {s : State} {ini : Fin 41} {n : Fin 512}

/-- A semaphore released with nobody waiting for it is free. -/
theorem State.semFree_clears {m : Nat} {reset expired : Bool} (hm : m < 512) (h : s.nextWaiter m = none) :
    (s.semFree m reset expired).get SEM_STATE.held m = 0 ∧ (s.semFree m reset expired).get SEM_STATE.owner m = 0 ∧
      (s.semFree m reset expired).get SEM_STATE.lease_expired m = b2n expired := by
  rw [State.semFree_of_none s hm h, State.get_publishLevels _ (by decide) hm (by decide),
    State.get_publishLevels _ (by decide) hm (by decide), State.get_publishLevels _ (by decide) hm (by decide)]
  exact ⟨State.held_freed s, State.owner_freed s, State.expired_freed s⟩

/-- A semaphore released while somebody waits for it goes to that waiter (R471). -/
theorem State.semFree_grants {m : Nat} {reset expired : Bool} (hm : m < 512) {w : SemWait} (h : s.nextWaiter m = some w)
    (hw : w.ini < 41) : (s.semFree m reset expired).holdsSem w.ini m = true ∧
      ((s.semFree m reset expired).sem.waits.any fun x => x.ini == w.ini) = false ∧
      (s.semFree m reset expired).sem.granted.contains (w.ini, m) = true := by
  have hsem : (s.semFree m reset expired).sem = ((((s.freed m reset expired).dropWait w.ini).semGrant w.ini m).updSem fun x =>
      { x with granted := x.granted ++ [(w.ini, m)] }).sem := by
    rw [State.semFree_of_some s hm h, State.sem_publishLevels]
    exact (State.raiseEvent_only Only.rfl (Covers.refl (a := 0x2000000000000))).sem rfl
  obtain ⟨-, -, hholds, -, hs⟩ := State.semGrant_shows ((s.freed m reset expired).dropWait w.ini) hw hm
  refine ⟨?_, ?_, ?_⟩
  · rw [State.semFree_of_some s hm h, State.holdsSem_publishLevels _ hm, State.holdsSem, State.bit]
    have hget := fun f hf => (State.raiseEvent_only (u := w.ini) (b := 17)
      (s := ((((s.freed m reset expired).dropWait w.ini).semGrant w.ini m).updSem fun x =>
        { x with granted := x.granted ++ [(w.ini, m)] })) Only.rfl (Covers.refl (a := 0x2000000000000))).get (f := f) hf m 0
    rw [hget _ (by decide), hget _ (by decide)]
    exact hholds
  · rw [hsem]
    refine (congrArg (fun x : Sem => x.waits.any fun x => x.ini == w.ini) hs).trans ?_
    exact State.no_wait_dropWait _
  · rw [hsem]
    simp [State.updSem]

theorem State.semRequest_of_may {op prio : Nat} (h : s.semMay ini.val n.val = true) :
    s.semRequest ini.val n.val op prio = s.semOp ini.val n.val op prio := by
  rw [State.semRequest, if_pos h]

/-- The outcome that an operation shows its initiator. -/
theorem State.semResult_shows (code : Nat) (hc : code < 16) : (s.semResult ini.val n.val code).get SEM_INI_RESULT.code ini.val = code ∧
    (s.semResult ini.val n.val code).get SEM_INI_RESULT.sem ini.val = n.val := by
  rw [State.code_semResult, State.resultSem_semResult, Nat.mod_eq_of_lt n.isLt, Nat.mod_eq_of_lt hc]
  exact ⟨rfl, rfl⟩

theorem State.holdsSem_of_owner_ne (h : s.get SEM_STATE.owner n.val ≠ ini.val) : s.holdsSem ini.val n.val = false := by
  rw [State.holdsSem, beq_eq_false_iff_ne.mpr h, Bool.and_false]

theorem State.holdsSem_semResult {i j m code : Nat} (hi : i < 41) (hm : m < 512) :
    (s.semResult i m code).holdsSem j m = s.holdsSem j m := by
  rw [State.holdsSem, State.holdsSem, State.bit, State.bit, State.get_semResult _ _ (by decide) hi hm (by decide),
    State.get_semResult _ _ (by decide) hi hm (by decide)]

/-- A wait joins the queue (R469). -/
def State.semQueued (s : State) (i n prio : Nat) : State :=
  (((((((s.updSem fun m => { m with waits := m.waits ++ [{ ini := i, sem := n, prio := prio }] }).put
    SEM_INI_WAIT.sem n i).put SEM_INI_WAIT.waiting 1 i).put SEM_INI_WAIT.prio prio i).inc
    SEM_WAIT_CNT.count).publishWaiters n).semResult i n 3).publishLevels

theorem State.semQueued_shows (prio : Fin 8) : (s.semQueued ini.val n.val prio.val).get SEM_INI_RESULT.code ini.val = 3 ∧
    (s.semQueued ini.val n.val prio.val).get SEM_INI_RESULT.sem ini.val = n.val ∧
    (s.semQueued ini.val n.val prio.val).sem.waits = s.sem.waits ++ [{ ini := ini.val, sem := n.val, prio := prio.val }] ∧
    (s.semQueued ini.val n.val prio.val).get SEM_INI_WAIT.waiting ini.val = 1 ∧
    (s.semQueued ini.val n.val prio.val).get SEM_INI_WAIT.sem ini.val = n.val ∧
    (s.semQueued ini.val n.val prio.val).get SEM_INI_WAIT.prio ini.val = prio.val := by
  have hi := ini.isLt
  rw [State.semQueued, State.get_publishLevels _ (by decide) hi (by decide), State.get_publishLevels _ (by decide) hi (by decide),
    State.get_publishLevels _ (by decide) hi (by decide), State.get_publishLevels _ (by decide) hi (by decide),
    State.get_publishLevels _ (by decide) hi (by decide), State.sem_publishLevels, State.sem_semResult,
    State.get_semResult (g := SEM_INI_WAIT.waiting) _ _ (by decide) hi hi (by decide),
    State.get_semResult (g := SEM_INI_WAIT.sem) _ _ (by decide) hi hi (by decide),
    State.get_semResult (g := SEM_INI_WAIT.prio) _ _ (by decide) hi hi (by decide), and_assoc.symm]
  refine ⟨State.semResult_shows 3 (by decide), ?_, ?_, ?_, ?_⟩
  · rw [State.publishWaiters, State.put_sem, State.inc_sem]
    rfl
  · rw [State.publishWaiters, State.get_put_apart (h := by decide), State.get_inc_apart (h := by decide),
      State.get_put_apart (h := by decide), State.get_put_same]
    rfl
  · rw [State.publishWaiters, State.get_put_apart (h := by decide), State.get_inc_parted (by decide) (by decide) (by decide) hi (by decide),
      State.get_put_apart (h := by decide), State.get_put_apart (h := by decide), State.get_put_of_lt]
    exact n.isLt
  · rw [State.publishWaiters, State.get_put_apart (h := by decide), State.get_inc_apart (h := by decide), State.get_put_of_lt]
    exact prio.isLt

end Requests

/-- Settles O43: an operation by an initiator with the right shows its outcome, and what it makes of the semaphore, its waits
and its lease follows from the rules of a grant and of a release. -/
theorem semaphores : Obligations.Semaphores := by
  unfold Obligations.Semaphores
  refine ⟨fun s ini n ha hmay hfree => ?take, fun s ini n ha hmay hheld hown => ?busy, fun s ini n ha hmay => ?denied,
    fun s ini n prio ha hmay hfree => ?wait, fun s ini n prio ha hmay hheld hown hini hw => ?queued,
    fun s ini n ha hmay hmine hnext => ?release, fun s ini n w ha hmay hmine hnext hw hne => ?handOver,
    fun s ini n ha hmay hmine => ?refused, fun s ini n ha hmay hw => ?cancel, fun s ini n ha hmay hmine hw hg => ?late,
    fun s ini n ha hmay hmine => ?renew, fun s ini n op prio ha hmay hop => ?bad, fun s n ha hheld hnext => ?expiry,
    fun s ini value ha hadmin => ?admin, fun s ini off mask value ha hlo hhi => ?adminDenied⟩
  case take =>
    refine does_live rfl ha ?_
    rw [State.semRequest_of_may hmay]
    have hop : s.semOp ini.val n.val 1 0 = s.semTake ini.val n.val := by
      simp [State.semOp, hfree]
    rw [hop]
    exact State.semTake_shows s ini.isLt n.isLt
  case busy =>
    refine does_live rfl ha ?_
    have hmine := State.holdsSem_of_owner_ne hown
    have hop : s.semOp ini.val n.val 1 0 = s.semResult ini.val n.val 2 := by
      simp [State.semOp, hheld, hmine]
    rw [State.semRequest_of_may hmay, hop, State.holdsSem_semResult ini.isLt n.isLt, and_assoc.symm]
    exact ⟨State.semResult_shows 2 (by decide), hmine⟩
  case denied =>
    refine exec_live rfl ha ?_
    rw [State.semRequest, hmay]
    rfl
  case wait =>
    refine does_live rfl ha ?_
    have hop : s.semOp ini.val n.val 2 prio.val = s.semTake ini.val n.val := by
      simp [State.semOp, hfree]
    rw [State.semRequest_of_may hmay, hop]
    exact State.semTake_shows s ini.isLt n.isLt
  case queued =>
    refine does_live rfl ha ?_
    have hmine := State.holdsSem_of_owner_ne hown
    have hop : s.semOp ini.val n.val 2 prio.val = s.semQueued ini.val n.val prio.val := by
      simp [State.semOp, hheld, hmine, hw, Nat.not_lt.mpr hini, State.semQueued]
    rw [State.semRequest_of_may hmay, hop]
    exact State.semQueued_shows prio
  case release =>
    refine does_live rfl ha ?_
    have hop : s.semOp ini.val n.val 3 0 = (s.semFree n.val false false).semResult ini.val n.val 4 := by
      simp [State.semOp, hmine]
    obtain ⟨hheld, howner, -⟩ := State.semFree_clears (reset := false) (expired := false) n.isLt hnext
    rw [State.semRequest_of_may hmay, hop, State.bit,
      State.get_semResult (g := SEM_STATE.held) _ _ (by decide) ini.isLt n.isLt (by decide),
      State.get_semResult (g := SEM_STATE.owner) _ _ (by decide) ini.isLt n.isLt (by decide), hheld, howner, and_assoc.symm]
    exact ⟨State.semResult_shows 4 (by decide), rfl, rfl⟩
  case handOver =>
    refine does_live rfl ha ?_
    have hop : s.semOp ini.val n.val 3 0 = (s.semFree n.val false false).semResult ini.val n.val 4 := by
      simp [State.semOp, hmine]
    obtain ⟨hholds, hwaits, hgranted⟩ := State.semFree_grants (reset := false) (expired := false) n.isLt hnext hw
    rw [State.semRequest_of_may hmay, hop, State.holdsSem_semResult ini.isLt n.isLt, State.sem_semResult]
    exact ⟨hholds, hwaits, hgranted, State.semResult_shows 4 (by decide)⟩
  case refused =>
    refine does_live rfl ha ?_
    have hop : s.semOp ini.val n.val 3 0 = s.semResult ini.val n.val 5 := by
      simp [State.semOp, hmine]
    rw [State.semRequest_of_may hmay, hop]
    exact State.semResult_shows 5 (by decide)
  case cancel =>
    refine does_live rfl ha ?_
    have hop : s.semOp ini.val n.val 4 0 = ((s.dropWait ini.val).semResult ini.val n.val 7).publishLevels := by
      rw [State.semOp]
      exact if_pos hw
    rw [State.semRequest_of_may hmay, hop, State.get_publishLevels _ (by decide) ini.isLt (by decide),
      State.get_publishLevels _ (by decide) ini.isLt (by decide), State.get_publishLevels _ (by decide) ini.isLt (by decide),
      State.sem_publishLevels, State.sem_semResult,
      State.get_semResult (g := SEM_INI_WAIT.waiting) _ _ (by decide) ini.isLt ini.isLt (by decide), and_assoc.symm]
    exact ⟨State.semResult_shows 7 (by decide), State.no_wait_dropWait s, State.waiting_dropWait s hw⟩
  case late =>
    refine does_live rfl ha ?_
    have hop : s.semOp ini.val n.val 4 0 = s.semResult ini.val n.val 8 := by
      rw [State.semOp]
      exact (if_neg (by rw [hw]; decide)).trans (if_pos ⟨hmine, hg⟩)
    rw [State.semRequest_of_may hmay, hop]
    exact State.semResult_shows 8 (by decide)
  case renew =>
    refine does_live rfl ha ?_
    have hop : s.semOp ini.val n.val 5 0 = (s.startLease n.val).semResult ini.val n.val 9 := by
      simp [State.semOp, hmine]
    rw [State.semRequest_of_may hmay, hop, State.sem_semResult, and_assoc.symm]
    exact ⟨State.semResult_shows 9 (by decide), Sparse.get_set_same _ _ _ _⟩
  case bad =>
    refine does_live rfl ha ?_
    have hsem : s.semOp ini.val n.val op.val prio.val = (s.semResult ini.val n.val 13).err SEM_ERR.bad_op 0 ini.val n.val := by
      unfold State.semOp
      split
      any_goals omega
      rfl
    rw [State.semRequest_of_may hmay, hsem, State.get_err_apart (h := by decide),
      State.get_err_parted (by decide) (by decide) (by decide) ini.isLt (by decide), State.get_err_same (h := rfl), and_assoc.symm]
    exact ⟨State.semResult_shows 13 (by decide), rfl⟩
  case expiry =>
    refine does_live rfl ha ?_
    have hop : s.leaseExpiry n.val = ((s.inc SEM_LEASE_CNT.count).err SEM_ERR.lease_expired 0 n.val
        (s.get SEM_STATE.owner n.val)).semFree n.val false true := by
      rw [State.leaseExpiry, if_neg (by simp [hheld])]
    have hnext' := (State.nextWaiter_congr (s := s) (t := (s.inc SEM_LEASE_CNT.count).err SEM_ERR.lease_expired 0 n.val
        (s.get SEM_STATE.owner n.val)) (congrArg Sem.waits (State.inc_sem s _ _ _))
      (fun u hu => (State.get_err_apart _ _ _ _ _ _ _ (by decide)).trans (State.get_inc_apart _ _ _ _ _ (by decide)))
      (fun u hu => (State.get_err_apart _ _ _ _ _ _ _ (by decide)).trans
        (State.get_inc_parted (by decide) (by decide) (by decide) hu (by decide) s)) n.val).trans hnext
    obtain ⟨hfree, -, hexp⟩ := State.semFree_clears (reset := false) (expired := true) n.isLt hnext'
    rw [hop, State.bit, hfree, hexp, State.semFree_of_none _ n.isLt hnext',
      State.get_publishLevels _ (by decide) (by decide) (by decide), State.get_publishLevels _ (by decide) (by decide) (by decide),
      State.get_freed _ (by decide) n.isLt (by decide) (by decide), State.get_freed _ (by decide) n.isLt (by decide) (by decide),
      State.get_err_same (h := rfl), State.get_err_apart (h := by decide), State.get_inc_rc _ _ _ rfl]
    exact ⟨rfl, rfl, rfl, rfl⟩
  case admin =>
    refine does_live rfl ha ?_
    have hop : (s.writeSemAdmin ini.val 0x108 0xFFFFFFFF value.toNat).1 = s.wrField SEM_GRP_LEASE.us 0xFFFFFFFF value.toNat 0 0 := by
      rw [State.writeSemAdmin]
      simp only [hadmin]
      rfl
    have hclamp : SEM_GRP_LEASE.us.clampTo (s.get SEM_GRP_LEASE.us 0) (bits value.toNat 0 20) = max 10 (bits value.toNat 0 20) := by
      have hlt := bits_lt value.toNat 0 20
      simp only [Fld.clampTo, SEM_GRP_LEASE.us, clampN]
      repeat' split
      all_goals omega
    have hput := State.get_put_of_lt (f := SEM_GRP_LEASE.us) s 0 0 (show max 10 (bits value.toNat 0 20) < 2 ^ 20 from
      max_lt (by decide) (bits_lt _ _ _))
    refine Eq.trans ?_ hput
    refine congrArg (fun t : State => t.get SEM_GRP_LEASE.us) (hop.trans ?_)
    rw [State.wrField_rw rfl (by decide) (by decide)]
    exact congrArg (fun x => s.put SEM_GRP_LEASE.us x) hclamp
  case adminDenied =>
    refine exec_live rfl ha ?_
    have hmay : (if off.val < 8 then ini.val == 16 else s.iniBit SEM_ADMIN_LO.initiators SEM_ADMIN_HI.initiators ini.val) = false := by
      split
      · next h => simpa using hlo h
      · next h => exact hhi (by omega)
    rw [State.writeSemAdmin, hmay]
    rfl

/-! # Scalar operations of microwords (R194) -/

section Context

variable {s : State}

/-- What runs now acts on its own context. -/
theorem State.curCtx_updCtx (h : s.seq.run.who.isSome = true) (f : Ctx → Ctx) : (s.updCtx f).curCtx = f s.curCtx := by
  unfold State.updCtx State.curCtx
  cases hwho : s.seq.run.who with
  | none => simp [hwho] at h
  | some w =>
    cases w with
    | stage h a b =>
      by_cases h0 : h = 0 <;> simp [State.updHalf, State.half, State.updSeq, hwho, h0]
    | background => simp [State.updSeq, hwho]

theorem State.updCtx_id (s : State) : (s.updCtx fun c => c) = s := by
  unfold State.updCtx
  split
  · next h _ _ _ => by_cases h0 : h = 0 <;> simp [State.updHalf, State.updSeq, h0]
  · rfl
  · rfl

theorem State.who_of_canIssue (h : s.canIssue = true) : s.seq.run.who.isSome = true := by
  simp only [State.canIssue, Bool.and_eq_true] at h
  exact h.2

/-- A scalar operation acts on the context of what runs. -/
theorem does_scalar {c : Instr} {op d q v : Nat} {P : State → Prop}
    (h : exec c s = .next (s.issuing fun s => s.scalar op d q v)) (ha : s.awake = true) (hi : s.canIssue = true)
    (hP : ∀ r, r.curCtx = s.scalarOp s.curCtx op d q v → P r) : Does c s P := by
  refine does_live h ha ?_
  rw [if_pos hi]
  exact hP _ (State.curCtx_updCtx (State.who_of_canIssue hi) _)

/-- The flags of a result, as a machine word. -/
theorem Ctx.flags_shows (c : Ctx) {v : Nat} (x : BitVec 32) (h : v % 2 ^ 32 = x.toNat) :
    (c.flags v).z = decide (x.toNat = 0) ∧ (c.flags v).n = x.msb := by
  refine ⟨by rw [← h]; rfl, ?_⟩
  rw [BitVec.msb_eq_getLsbD_last, BitVec.getLsbD, ← h, Nat.testBit_mod_two_pow]
  rfl

@[simp] theorem Ctx.s_flags (c : Ctx) (v : Nat) : (c.flags v).s = c.s := rfl

/-- The result of an operation as a machine word. -/
theorem Ctx.result_shows (c : Ctx) (d : Nat) {v : Nat} (x : BitVec 32) (h : v % 2 ^ 32 = x.toNat) :
    (c.result d v).reg d = x.toNat ∧ (c.result d v).z = decide (x.toNat = 0) ∧ (c.result d v).n = x.msb ∧
      (c.result d v).pc = c.pc := by
  obtain ⟨hz, hn⟩ := Ctx.flags_shows (c.setReg d v) x h
  refine ⟨?_, hz, hn, rfl⟩
  rw [← h]
  exact Sparse.get_set_same _ _ _ _

end Context

section Arithmetic

theorem sub32_eq (a b : Nat) : sub32 a b % 2 ^ 32 = (BitVec.ofNat 32 a - BitVec.ofNat 32 b).toNat := by
  rw [sub32, BitVec.toNat_sub, BitVec.toNat_ofNat, BitVec.toNat_ofNat]
  omega

theorem sub_eq_zero_iff_mod_eq (a b : Nat) :
    (BitVec.ofNat 32 a - BitVec.ofNat 32 b).toNat = 0 ↔ a % 2 ^ 32 = b % 2 ^ 32 := by
  rw [BitVec.toNat_sub, BitVec.toNat_ofNat, BitVec.toNat_ofNat]
  omega

theorem toNat_clampI {lo hi : Int} (x : Int) (h : 0 ≤ lo) (hle : lo ≤ hi) : ((clampI lo hi x).toNat : Int) = max lo (min hi x) := by
  unfold clampI
  repeat' split
  all_goals omega

end Arithmetic

/-- Settles O9: each operation computes its word in the context of what runs. -/
theorem microwordScalars : Obligations.MicrowordScalars := by
  unfold Obligations.MicrowordScalars
  refine ⟨fun s ha hi => ?nop, fun s d v ha hi => ?ldi, fun s d v ha hi => ?ldih, fun s d q v ha hi => ?addi,
    fun s d q ha hi => ?mov, fun s d q v ha hi => ?subr, fun s d q v ha hi => ?andi, fun s d q ha hi => ?bcnt,
    fun s d q ha hi => ?bfirst, fun s d v ha hi => ?lci, fun s d q v ha hi => ?lcw, fun s q v ha hi => ?cmp⟩
  case nop =>
    exact exec_live rfl ha ((if_pos hi).trans (State.updCtx_id s))
  case ldi =>
    refine does_scalar rfl ha hi fun r hr => ?_
    rw [hr]
    exact Ctx.result_shows _ _ _ (by simp)
  case ldih =>
    refine does_scalar rfl ha hi fun r hr => ?_
    rw [hr]
    refine Ctx.result_shows _ _ _ ?_
    have hlow := Nat.mod_lt (s.curCtx.reg d.val) (show 0 < 2 ^ 16 by decide)
    have hv := v.isLt
    rw [BitVec.toNat_append, BitVec.toNat_ofNat, ← Nat.shiftLeft_add_eq_or_of_lt hlow, Nat.shiftLeft_eq]
    omega
  case addi =>
    refine does_scalar rfl ha hi fun r hr => ?_
    rw [hr]
    refine Ctx.result_shows _ _ _ ?_
    rw [Nat.mod_mod, BitVec.toNat_add, BitVec.toNat_ofNat, sext_toNat (by decide), Nat.mod_add_mod]
  case mov =>
    refine does_scalar rfl ha hi fun r hr => ?_
    rw [hr]
    exact Ctx.result_shows _ _ _ (BitVec.toNat_ofNat _ _).symm
  case subr =>
    refine does_scalar rfl ha hi fun r hr => ?_
    rw [hr]
    exact Ctx.result_shows _ _ _ (sub32_eq _ _)
  case andi =>
    refine does_scalar rfl ha hi fun r hr => ?_
    rw [hr]
    refine Ctx.result_shows _ _ _ ?_
    rw [BitVec.toNat_and, BitVec.toNat_ofNat, BitVec.toNat_setWidth, Nat.and_mod_two_pow]
  case bcnt =>
    refine does_scalar rfl ha hi fun r hr => ?_
    rw [hr]
    exact Ctx.result_shows _ _ _ (BitVec.toNat_ofNat _ _).symm
  case bfirst =>
    refine does_scalar rfl ha hi fun r hr => ?_
    rw [hr]
    refine Ctx.result_shows _ _ _ ?_
    unfold State.brFirst
    split
    · rfl
    · exact (BitVec.toNat_ofNat _ _).symm
  case lci =>
    refine does_scalar rfl ha hi fun r hr => ?_
    have hloop : r.curCtx.loop (d.val % 8) = { limit := v.toNat, li := 0 } := by
      rw [hr]
      exact Sparse.get_set_same _ _ _ _
    rw [hloop]
    exact ⟨rfl, rfl⟩
  case lcw =>
    refine does_scalar rfl ha hi fun r hr => ?_
    have hloop : r.curCtx.loop (d.val % 8) = LoopCtr.mk (clampI 1 65535
        (((if q.val % 2 = 0 then s.curCtx.wn else s.curCtx.wm : Nat) : Int) + toInt 16 v.toNat)).toNat 0 := by
      rw [hr]
      exact Sparse.get_set_same _ _ _ _
    rw [hloop, toInt_toNat (by decide)]
    exact ⟨toNat_clampI _ (by decide) (by decide), rfl⟩
  case cmp =>
    refine does_scalar rfl ha hi fun r hr => ?_
    have hop : r.curCtx = s.curCtx.flags (sub32 (s.curCtx.reg q.val) (s.curCtx.reg (v.toNat % 16))) := hr
    obtain ⟨hz, hn⟩ := Ctx.flags_shows s.curCtx _ (sub32_eq (s.curCtx.reg q.val) (s.curCtx.reg (v.toNat % 16)))
    rw [hop]
    exact ⟨hz.trans (decide_eq_decide.mpr (sub_eq_zero_iff_mod_eq _ _)), hn, Ctx.s_flags _ _⟩

/-! # What the opening of a slot leaves (R214 to R221) -/

/-- The fields of SEQ that the opening of a slot can write. -/
def slotFields : List Fld :=
  [SEQ_BG_STATUS.suspended, SEQ_BG_STATUS.started, SEQ_UMBRA_STATUS.state, SEQ_STATUS.drain_left, SEQ_LOST_DECISIONS.count,
    SEQ_BG_STARVE_CNT.count, SEQ_ERR.bg_starved]

/-- A field of SEQ that no opening of a slot writes. -/
def Fld.slotApart (f : Fld) : Bool := f.page == 6 && slotFields.all fun g => g.apart f

/-- What the opening of a slot leaves of the sequencer: the S registers of the background context and the margin plan. -/
def Seq.opens (q : Seq) : Sparse Nat × Option Plan := (q.bg.s, q.plan)

/-- From `s` to `t` no more has changed than the opening of a slot can change: the registers outside its fields, the islands'
clock plan, the S registers of the background context and the margin plan stand. -/
structure Opened (s t : State) : Prop where
  get : ∀ f, f.slotApart = true → ∀ i j, t.get f i j = s.get f i j
  clock : ∀ i < 16, t.get ARR_ISL_CLK_PLAN.period_fs i = s.get ARR_ISL_CLK_PLAN.period_fs i
  opens : t.seq.opens = s.seq.opens

theorem clockKey_ne : ∀ i < 16, ∀ k < 16, ARR_ISL_CLK_PLAN.period_fs.key i 0 ≠ ARR_ISL_DISCARD_CNT.count.key k 0 := by decide

theorem slotFields_clock : ∀ f ∈ slotFields, f.apart ARR_ISL_CLK_PLAN.period_fs = true := by decide

namespace Opened

variable {s t r : State}

theorem refl (s : State) : Opened s s := ⟨fun _ _ _ _ => rfl, fun _ _ => rfl, rfl⟩

theorem trans (h : Opened s t) (h' : Opened t r) : Opened s r :=
  ⟨fun f hf i j => (h'.get f hf i j).trans (h.get f hf i j), fun i hi => (h'.clock i hi).trans (h.clock i hi), h'.opens.trans h.opens⟩

theorem ite {p : Prop} [Decidable p] {a b : State} (ha : Opened s a) (hb : Opened s b) : Opened s (if p then a else b) := by
  split <;> assumption

theorem updSeq {f : Seq → Seq} (h : Opened s t) (hf : (f t.seq).opens = t.seq.opens) : Opened s (t.updSeq f) :=
  h.trans ⟨fun _ _ _ _ => rfl, fun _ _ => rfl, hf⟩

theorem put {f : Fld} (h : Opened s t) (hf : f ∈ slotFields) (v i j : Nat) : Opened s (t.put f v i j) := by
  refine h.trans ⟨fun g hg k l => ?_, fun _ _ => State.get_put_apart _ _ _ _ _ _ (slotFields_clock f hf), rfl⟩
  simp only [Fld.slotApart, Bool.and_eq_true, List.all_eq_true] at hg
  exact State.get_put_apart _ _ _ _ _ _ (hg.2 f hf)

/-- A part of the step that touches neither SEQ nor the sequencer's state. -/
theorem of_only {A : Nat} (h : Opened s t) (ho : Only A t r) (hA : A.testBit 5 = false ∧ A.testBit 6 = false ∧ A.testBit 45 = false) : Opened s r := by
  obtain ⟨harr, hseq, hstate⟩ := hA
  refine h.trans ⟨fun f hf i j => ?_, fun i _ => ho.get (f := ARR_ISL_CLK_PLAN.period_fs) ⟨by decide, harr⟩ i 0, congrArg Seq.opens (ho.seq hstate)⟩
  have hpage : f.page = 6 := by
    simp only [Fld.slotApart, Bool.and_eq_true, beq_iff_eq] at hf
    exact hf.1
  exact ho.get (by rw [hpage]; exact ⟨by decide, hseq⟩) i j

theorem inc {f : Fld} (h : Opened s t) (hf : f ∈ slotFields) (i j : Nat) : Opened s (t.inc f i j) := by
  refine h.trans ⟨fun g hg k l => ?_, fun _ _ => State.get_inc_apart _ _ _ _ _ (slotFields_clock f hf), ?_⟩
  · simp only [Fld.slotApart, Bool.and_eq_true, List.all_eq_true] at hg
    exact State.get_inc_apart _ _ _ _ _ (hg.2 f hf)
  · unfold State.inc State.add
    split <;> rfl

theorem seqErr {f : Fld} (h : Opened s t) (hf : f ∈ slotFields) : Opened s (t.seqErr f) := by
  refine h.trans ⟨fun g hg k l => ?_, fun _ _ => State.get_err_apart _ _ _ _ _ _ _ (slotFields_clock f hf), rfl⟩
  simp only [Fld.slotApart, Bool.and_eq_true, List.all_eq_true] at hg
  exact State.get_err_apart _ _ _ _ _ _ _ (hg.2 f hf)

/-- Words that a fabric out of service drains are counted in ARR, beside the clock plan (R14). -/
theorem offerWords {n : Nat} (h : Opened s t) : Opened s (t.offerWords n) := by
  have honly : Only 0x1000000000000020 t (t.offerWords n) := State.offerWords_only Only.rfl Covers.refl
  refine h.trans ⟨fun f hf i j => ?_, fun i hi => ?_, congrArg Seq.opens (honly.seq (by decide))⟩
  · have hpage : f.page = 6 := by
      simp only [Fld.slotApart, Bool.and_eq_true, beq_iff_eq] at hf
      exact hf.1
    exact honly.get (by rw [hpage]; decide) i j
  · refine State.get_foldl t fun u k hk => ?_
    have hcount : ∀ k < 16, (u.add ARR_ISL_DISCARD_CNT.count n k).get ARR_ISL_CLK_PLAN.period_fs i = u.get ARR_ISL_CLK_PLAN.period_fs i := fun k hk => by
      have hput := fun v => State.get_put_ne u _ _ v k 0 i 0 (clockKey_ne i hi k hk)
      unfold State.add
      split <;> simp [hput]
    split
    · exact hcount k (List.mem_range.1 hk)
    · rfl

theorem drainDone (h : Opened s t) : Opened s t.drainDone := by
  unfold State.drainDone State.updHalf
  refine updSeq (put (put h (by decide) _ _ _) (by decide) _ _ _) ?_
  split <;> rfl

theorem bgStart (h : Opened s t) : Opened s t.bgStart := by
  unfold State.bgStart
  refine ite (updSeq h rfl) (ite (updSeq (seqErr (inc h (by decide) _ _) (by decide)) rfl) ?_)
  refine put (put (updSeq (ite (updSeq h rfl) ?_) rfl) (by decide) _ _ _) (by decide) _ _ _
  unfold State.bgRestore State.useCycles
  refine updSeq (offerWords ?_) rfl
  exact h.trans ⟨fun _ _ _ _ => rfl, fun _ _ => rfl, rfl⟩

theorem nextStage (h : Opened s t) : Opened s t.nextStage := by
  unfold State.nextStage
  split
  · exact bgStart (updSeq h rfl)
  · refine updSeq (updSeq h ?_) rfl
    split <;> rfl

theorem openSlot (h : Opened s t) : Opened s t.openSlot := by
  unfold State.openSlot
  extract_lets enter held fg serial run period claim opened s1 s2 umbra draining runs old new s3 s4 s5 s6 s7
  have h1 : Opened s s1 := updSeq h rfl
  have h2 : Opened s s2 := ite (of_only h1 (State.sweepStep_only Only.rfl Covers.refl) (by decide)) h1
  have h3 : Opened s s3 := updSeq h2 rfl
  have h4 : Opened s s4 := ite (drainDone h3) h3
  have h5 : Opened s s5 := ite (inc h4 (by decide) _ _) h4
  have h6 : Opened s s6 := ite (h5.trans ⟨fun _ _ _ _ => rfl, fun _ _ => rfl, rfl⟩) h5
  have hreleases : Opened s (s6.scheduleReleases (old ++ new)) := h6.trans ⟨fun _ _ _ _ => rfl, fun _ _ => rfl, rfl⟩
  have h7 : Opened s s7 := of_only hreleases (State.publishReleases_only Only.rfl Covers.refl) (by decide)
  exact ite h7 (nextStage (updSeq h7 rfl))

theorem openIfReady (h : Opened s t) : Opened s t.openIfReady := ite (openSlot h) h

end Opened

section Sets

variable {s : State} {n : Nat}

theorem State.disarm_unarmed (s : State) (o : Owner) : (s.disarm o).armed o = false := by
  simp [State.armed, State.disarm]

/-- An unnamed action waits for the second barrier from now (R43). -/
theorem State.arm_unnamed (s : State) (o : Owner) (orbit index : Nat) :
    ∃ t, s.arm o false orbit index = some t ∧ t.armed o = true :=
  ⟨_, rfl, by simp [State.armed]⟩

/-- Arming a set with a valid entry, and no name (R237). -/
theorem State.csArm_shows (hoff : s.bit SEQ_CS_STATUS.armed n = false) (hent : s.csEntries n ≠ 0)
    (hname : s.bit SEQ_CS_WHEN_HI.named n = false) :
    (s.csArm n).get SEQ_CS_STATUS.armed n = 1 ∧ (s.csArm n).armed (.cset n) = true := by
  obtain ⟨t, ht, harmed⟩ := State.arm_unnamed s (.cset n) (s.get SEQ_CS_WHEN_LO.orbit n + 2 ^ 32 * s.get SEQ_CS_WHEN_HI.orbit n)
    (s.get SEQ_CS_WHEN_HI.index n)
  have hno : ¬ (s.bit SEQ_CS_STATUS.armed n = true ∨ s.csEntries n = 0) := by simp [hoff, hent]
  rw [State.csArm, if_neg hno, State.whenOf]
  simp only [hname, ht]
  exact ⟨State.get_put_of_lt _ _ _ (by decide), harmed⟩

/-- An entry that is written to its register leaves the registers and the other entries' effects (R236). -/
@[simp] theorem State.get_csWrite (s : State) (n e : Nat) (f : Fld) (i j : Nat) : (s.csWrite n e).get f i j = s.get f i j := by
  unfold State.csWrite
  split
  · rfl
  · dsimp only
    split
    · rfl
    · split <;> rfl

theorem State.csWrite_invalid {e : Nat} (h : s.bit SEQ_CS_ENT.valid n e = false) : s.csWrite n e = s :=
  if_pos (by simp [h])

/-- A valid entry of the background context writes its register. -/
theorem State.reg_csWrite {e : Nat} (hv : s.bit SEQ_CS_ENT.valid n e = true) (hc : s.bit SEQ_CS_ENT.ctx n e = true) :
    (s.csWrite n e).seq.bg.reg (s.get SEQ_CS_ENT.reg n e) = s.get SEQ_CS_VAL.value n e % 2 ^ 32 := by
  rw [State.csWrite, if_neg (by simp [hv]), if_pos hc]
  exact Sparse.get_set_same _ _ _ _

/-- All entries of a set are written, in their order. -/
def State.csWrites (s : State) (n : Nat) (es : List Nat) : State := es.foldl (fun s e => s.csWrite n e) s

@[simp] theorem State.get_csWrites (s : State) (n : Nat) (es : List Nat) (f : Fld) (i j : Nat) :
    (s.csWrites n es).get f i j = s.get f i j :=
  State.get_foldl s fun t e _ => State.get_csWrite t n e f i j

/-- The last valid entry of the background context stands when all have been written. -/
theorem State.reg_csWrites {e : Nat} (he : e < 16) (hv : s.bit SEQ_CS_ENT.valid n e = true)
    (hc : s.bit SEQ_CS_ENT.ctx n e = true) (hlast : ∀ e2 < 16, e < e2 → s.bit SEQ_CS_ENT.valid n e2 = false) :
    (s.csWrites n (List.range 16)).seq.bg.reg (s.get SEQ_CS_ENT.reg n e) = s.get SEQ_CS_VAL.value n e % 2 ^ 32 := by
  have hsplit : List.range 16 = List.range e ++ e :: List.range' (e + 1) (15 - e) := by
    interval_cases e <;> rfl
  have hget : ∀ f j, (s.csWrites n (List.range e)).get f n j = s.get f n j := fun f j => State.get_csWrites s n _ f n j
  have hrest : ((s.csWrites n (List.range e)).csWrite n e).csWrites n (List.range' (e + 1) (15 - e)) =
      (s.csWrites n (List.range e)).csWrite n e := foldl_of_fixed fun e2 h2 => by
    have hr := List.mem_range'_1.mp h2
    refine State.csWrite_invalid ?_
    rw [State.bit, State.get_csWrite, hget]
    exact hlast e2 (by omega) (by omega)
  rw [State.csWrites, hsplit, List.foldl_append, List.foldl_cons]
  refine (congrArg (fun t : State => t.seq.bg.reg _) hrest).trans ?_
  rw [← hget, ← hget SEQ_CS_VAL.value]
  exact State.reg_csWrite (by rw [State.bit, hget]; exact hv) (by rw [State.bit, hget]; exact hc)

/-- The set that has fired is open again, and shows that it has committed (R237). -/
theorem State.csFire_eq (h : s.isDue (.cset n) = true) : s.csFire n = (((((s.tookDue (.cset n)).csWrites n (List.range 16)).updSeq
    fun q => { q with fired := q.fired ||| 2 ^ n }).put SEQ_CS_STATUS.armed 0 n).put SEQ_CS_STATUS.committed 1 n).tablesSettle n true :=
  if_neg (by simp [h])

/-- Clearing a set leaves no valid entry. -/
def State.csEmptied (s : State) (n : Nat) : State := (List.range 16).foldl (fun s e => s.put SEQ_CS_ENT.valid 0 n e) s

theorem State.valid_csEmptied (s : State) (hn : n < 4) {e : Nat} (he : e < 16) :
    (s.csEmptied n).get SEQ_CS_ENT.valid n e = 0 := by
  have hfold : ∀ (es : List Nat) (t : State), (∀ a ∈ es, a < 16) → (e ∈ es ∨ t.get SEQ_CS_ENT.valid n e = 0) →
      (es.foldl (fun s e => s.put SEQ_CS_ENT.valid 0 n e) t).get SEQ_CS_ENT.valid n e = 0 := by
    intro es
    induction es with
    | nil => exact fun t _ h => by simpa using h
    | cons a es ih =>
      intro t hes h
      refine ih _ (fun b hb => hes b (by simp [hb])) ?_
      by_cases hea : e = a
      · right
        rw [hea, State.get_put_same]
        rfl
      · refine h.imp (fun hmem => (List.mem_cons.mp hmem).resolve_left hea) fun hzero => ?_
        exact (State.get_put_ne _ _ _ _ _ _ _ _ (Fld.key_ne_of_second (by decide) hn (hes a (by simp)) he hea)).trans hzero
  exact hfold _ s (fun a ha => List.mem_range.mp ha) (.inl (List.mem_range.mpr he))

theorem State.csEntries_csEmptied (s : State) (hn : n < 4) : (s.csEmptied n).csEntries n = 0 := by
  rw [State.csEntries, List.length_eq_zero_iff, List.filter_eq_nil_iff]
  intro e he
  rw [State.bit, State.valid_csEmptied s hn (List.mem_range.mp he)]
  decide

end Sets

/-- Settles O12: each command acts on the set's own fields and on its action in the matcher; the entries of a set that fires are
written in their order, so the last one of a register stands. -/
theorem commitSets : Obligations.CommitSets := by
  unfold Obligations.CommitSets
  refine ⟨fun s n ha hoff hent hname => does_live rfl ha (State.csArm_shows hoff hent hname), fun s n ha hent => ?refused,
    fun s n ha harmed hdue => ?abort, fun s n ha hoff => ?clear, fun s n ha hdue => ?fire⟩
  case refused =>
    refine does_live rfl ha ?_
    rw [State.csArm, if_pos (.inr hent)]
    exact ⟨State.get_err_same (h := rfl) .., rfl⟩
  case abort =>
    refine does_live rfl ha ?_
    rw [State.csAbort, if_neg (by rw [hdue]; decide), if_pos harmed]
    refine ⟨?_, ?_, State.disarm_unarmed s _⟩
    · exact (State.get_put_apart _ _ _ _ _ _ (by decide)).trans (State.get_put_of_lt _ _ _ (by decide))
    · exact State.get_put_of_lt _ _ _ (by decide)
  case clear =>
    refine does_live rfl ha ?_
    have hclear : s.csClear n.val = (s.csEmptied n.val).publishCs n.val := if_neg (by simp [hoff])
    rw [hclear, State.publishCs, State.csEntries_csEmptied s n.isLt]
    refine ⟨State.get_put_of_lt _ _ _ (by decide), fun e he => ?_⟩
    rw [State.get_put_apart (h := by decide), State.valid_csEmptied s n.isLt he]
  case fire =>
    refine does_live rfl ha ?_
    have hopen := Opened.openIfReady (Opened.refl (s.csFire n.val))
    rw [hopen.get _ (by decide), hopen.get _ (by decide)]
    refine ⟨?_, ?_, fun e he hv hc hlast => ?_⟩
    · rw [State.csFire_eq hdue]
      exact (State.get_put_apart _ _ _ _ _ _ (by decide)).trans (State.get_put_of_lt _ _ _ (by decide))
    · rw [State.csFire_eq hdue]
      exact State.get_put_of_lt _ _ _ (by decide)
    · have hbg : (s.csFire n.val).openIfReady.seq.bg.s = (s.csFire n.val).seq.bg.s := congrArg Prod.fst hopen.opens
      rw [Ctx.reg, hbg, State.csFire_eq hdue]
      exact State.reg_csWrites (s := s.tookDue (.cset n.val)) he hv hc hlast

/-! # The HBM stacks (R317, R318) -/

section Stacks

variable {s : State}

/-- A stack shows the state that is put. -/
theorem State.stack_putStack (k v : Nat) (hv : v < 8) : (s.putStack k v).stack k = v := by
  unfold State.putStack State.stack
  split <;> exact State.get_put_of_lt _ _ _ hv

/-- The other stack keeps its state. -/
theorem State.stack_putStack_ne {k l v : Nat} (hk : k < 2) (hl : l < 2) (h : l ≠ k) : (s.putStack k v).stack l = s.stack l := by
  unfold State.putStack State.stack
  by_cases hk0 : k = 0
  · rw [if_pos hk0, if_neg (by omega), if_neg (by omega), State.get_put_apart (h := by decide)]
  · rw [if_neg hk0, if_pos (by omega), if_pos (by omega), State.get_put_apart (h := by decide)]

/-- An error bit of HBM leaves what the stacks show. -/
theorem State.stack_err {f : Fld} (h : f.apart HBM_STATUS.stack0 = true ∧ f.apart HBM_STATUS.stack1 = true) (inst : Nat) (k : Nat) :
    (s.err f 0 inst).stack k = s.stack k := by
  rw [State.stack, State.stack, State.get_err_apart (h := h.1), State.get_err_apart (h := h.2)]

/-- A stack that fails shows it and reports it (R317). -/
theorem State.hbmToFault_shows (k : Nat) :
    (s.hbmToFault k).stack k = 4 ∧ (s.hbmToFault k).get HBM_ERR.stack_fault = 1 ∧ ∀ a, (s.hbmToFault k).byte a = s.byte a := by
  refine ⟨?_, State.get_err_same (h := rfl) .., fun a => ?_⟩
  · rw [State.hbmToFault, State.stack_err (by decide), State.stack_putStack _ _ (by decide)]
  · rw [State.hbmToFault, State.putStack]
    split <;> rfl

theorem State.byte_putStack (k v a : Nat) : (s.putStack k v).byte a = s.byte a := by
  unfold State.putStack
  split <;> rfl

/-- The contents of a stack are lost, and nothing else (R317). -/
theorem State.byte_hbmLose (k a : Nat) : (s.hbmLose k).byte a = if inStack k a then memDefault else s.byte a := by
  cases h : inStack k a with
  | true => exact Sparse.get_keep_out _ s.mem (fun w => !inStack k w) a (by simp [h])
  | false => exact Sparse.get_keep_same _ s.mem (fun w => !inStack k w) a (by simp [h])

end Stacks

section Tags

/-- The byte of a tag that holds its valid bit (R316). -/
def tagByte (k a : Nat) : Bool := decide (tagTable ≤ a) && decide (a < tagTable + 0x100000) && a % 16 == 8 && inStack k a

theorem Sparse.get_default_or_mem {α : Type} (d : α) (m : Sparse α) (k : Nat) :
    Sparse.get d m k = d ∨ (k, Sparse.get d m k) ∈ m := by
  induction m with
  | nil => exact .inl rfl
  | cons e m ih =>
    obtain ⟨a, v⟩ := e
    rw [Sparse.get]
    split
    · next h => exact .inr (by simp [h])
    · exact ih.imp id fun h => List.mem_cons_of_mem _ h

/-- Clearing bit 0 of the bytes that `p` names leaves none of them with it. -/
theorem lsb_get_cleared (p : Nat → Bool) (m : Sparse (BitVec 8)) {a : Nat} (ha : p a = true) :
    (Sparse.get memDefault ((m.map fun c => if p c.1 then (c.1, c.2 &&& 0xFE) else c).filter fun c => c.2 != memDefault) a).getLsbD 0 =
      false := by
  rcases Sparse.get_default_or_mem memDefault ((m.map fun c => if p c.1 then (c.1, c.2 &&& 0xFE) else c).filter fun c =>
    c.2 != memDefault) a with h | h
  · rw [h]
    rfl
  · obtain ⟨c, -, hc⟩ := List.mem_map.mp (List.mem_of_mem_filter h)
    have hkey : c.1 = a := by
      split at hc <;> exact congrArg Prod.fst hc
    rw [hkey, ha] at hc
    have hval := congrArg Prod.snd hc
    dsimp only at hval
    rw [← hval]
    simp

/-- Training completes: no tag of the stack is valid (R317). -/
theorem State.hbmInitComplete_eq {s : State} {k : Nat} (h : s.stack k = 1) : s.hbmInitComplete k =
    ({ s with mem := ((s.mem.map fun c => if tagByte k c.1 then (c.1, c.2 &&& 0xFE) else c).filter
      (fun c => c.2 != memDefault)) } : State).putStack k 2 :=
  if_neg (by simp [h])

end Tags

section Scrub

variable {s : State} {a : Nat}

theorem State.poison_hbmSpoil (w : Nat) : Sparse.get false (s.hbmSpoil w).poison w = true := by
  unfold State.hbmSpoil
  split
  · assumption
  · exact Sparse.get_set_same false ((s.setLeMem w 8 (s.fresh 64)).tookFree).poison w true

/-- An uncorrectable word is marked, counted and reported (R318). -/
theorem State.hbmEcc_uncorrectable_shows :
    Sparse.get false (s.hbmEcc a .uncorrectable).poison (a / 8 * 8) = true ∧ (s.hbmEcc a .uncorrectable).get HBM_ERR.ecc_uncorr = 1 ∧
      (s.hbmEcc a .uncorrectable).get HBM_ECC_UNCORR_CNT.count = min (2 ^ 32 - 1) (s.get HBM_ECC_UNCORR_CNT.count + 1) := by
  refine ⟨?_, State.get_err_same (h := rfl) .., ?_⟩
  · have hpoison : (s.hbmEcc a .uncorrectable).poison = (s.hbmSpoil (a / 8 * 8)).poison := by
      rw [State.hbmEcc]
      exact State.inc_poison _ _ _ _
    rw [hpoison, State.poison_hbmSpoil]
  · have hspoil := (State.hbmSpoil_only (w := a / 8 * 8) (Only.rfl (s := s)) Covers.refl).get
      (f := HBM_ECC_UNCORR_CNT.count) (by decide) 0 0
    rw [State.hbmEcc, State.get_err_apart (h := by decide), State.get_inc_rc _ _ _ rfl, hspoil]
    rfl

end Scrub

/-- Settles O25: each transition puts the stack's state, and what it makes of memory follows from the rules of losing a stack,
clearing its tags and spoiling a word. -/
theorem hbmStacks : Obligations.HbmStacks := by
  unfold Obligations.HbmStacks
  refine ⟨fun s k ha hk => ?complete, fun s k ha hk => ?fail, fun s k ha hk => ?fault, fun s ha h1 h0 => ?restart,
    fun s addr ha hlo hrun hgood => ?corrected, fun s addr ha hlo hrun => ?uncorrectable⟩
  case complete =>
    refine does_live rfl ha ?_
    rw [State.hbmInitComplete_eq hk]
    refine ⟨State.stack_putStack _ _ (by decide), fun a hlo hhi htag hstack => ?_⟩
    rw [State.byte_putStack]
    refine lsb_get_cleared _ _ ?_
    have hhbm : a < 0x400000000 := by
      unfold tagTable at hhi
      omega
    simp [tagByte, inStack, hlo, hhi, htag, hstack, hhbm]
  case fail =>
    refine does_live rfl ha ?_
    rw [State.hbmInitFail, if_pos hk]
    obtain ⟨hstack, herr, -⟩ := State.hbmToFault_shows (s := s) k.val
    exact ⟨hstack, herr⟩
  case fault =>
    refine does_live rfl ha ?_
    rw [State.hbmFault, if_pos hk]
    exact State.hbmToFault_shows k.val
  case restart =>
    refine does_live rfl ha ?_
    have heq : s.hbmRestart = (s.hbmLose 1).putStack 1 1 := by
      simp [State.hbmRestart, h1, h0]
    rw [heq]
    refine ⟨State.stack_putStack _ _ (by decide), State.stack_putStack_ne (by decide) (by decide) (by decide), fun a => ?_⟩
    rw [State.byte_putStack, State.byte_hbmLose]
  case corrected =>
    refine exec_live rfl ha ?_
    rw [State.patrolScrub, if_neg (by have := addr.isLt; omega), hgood]
    rfl
  case uncorrectable =>
    refine does_live rfl ha ?_
    have heq : s.patrolScrub addr.val .uncorrectable = s.hbmEcc addr.val .uncorrectable := by
      rw [State.patrolScrub, if_neg (by have := addr.isLt; omega)]
      split <;> rfl
    rw [heq]
    exact State.hbmEcc_uncorrectable_shows

/-! # Timers of the sequencer, the background abort and the control store's errors (R209, R210, R222, R224) -/

section Timers

variable {s : State} {t : Nat}

theorem State.get_timerSync {f : Fld} (h : SEQ_TMR_STAT.count.apart f = true) (i j : Nat) :
    (s.timerSync t).get f i j = s.get f i j := by
  unfold State.timerSync
  dsimp only
  split <;> exact State.get_put_apart _ _ _ _ _ _ h

theorem State.count_timerSync : (s.timerSync t).get SEQ_TMR_STAT.count t = s.timerCount t % 2 ^ 24 := by
  unfold State.timerSync
  dsimp only
  split <;> exact State.get_put_same ..

/-- The tick from 1 to 0 expires the timer; a periodic one begins again (R209). -/
theorem State.timerTick_expires (h : s.bit SEQ_TMR_STAT.running t = true) :
    ((s.put SEQ_TMR_STAT.count 1 t).timerTick t).get SEQ_TMR_STAT.expired t = 1 ∧
      (s.bit SEQ_TMR_CFG.periodic t = false → ((s.put SEQ_TMR_STAT.count 1 t).timerTick t).get SEQ_TMR_STAT.running t = 0 ∧
        ((s.put SEQ_TMR_STAT.count 1 t).timerTick t).get SEQ_TMR_STAT.count t = 0) ∧
      (s.bit SEQ_TMR_CFG.periodic t = true → ((s.put SEQ_TMR_STAT.count 1 t).timerTick t).get SEQ_TMR_STAT.count t =
        s.get SEQ_TMR_CFG.reload t % 2 ^ 24) := by
  have hrun : (s.put SEQ_TMR_STAT.count 1 t).bit SEQ_TMR_STAT.running t = true := by
    rw [State.bit_put_apart (h := by decide), h]
  have hcount : (s.put SEQ_TMR_STAT.count 1 t).get SEQ_TMR_STAT.count t = 1 := State.get_put_of_lt _ _ _ (by decide)
  have hper : ((s.put SEQ_TMR_STAT.count 1 t).put SEQ_TMR_STAT.expired 1 t).bit SEQ_TMR_CFG.periodic t =
      s.bit SEQ_TMR_CFG.periodic t := by
    rw [State.bit_put_apart (h := by decide), State.bit_put_apart (h := by decide)]
  rw [State.timerTick, if_neg (by simp [hrun]), hcount]
  simp only [show ¬ 2 ≤ 1 by decide, if_false, hper]
  cases s.bit SEQ_TMR_CFG.periodic t with
  | true =>
    simp only [if_true, Bool.true_eq_false, false_implies, true_and, true_implies]
    refine ⟨?_, ?_⟩
    · rw [State.get_put_apart (h := by decide)]
      exact State.get_put_of_lt _ _ _ (by decide)
    · rw [State.get_put_same, State.get_put_apart (h := by decide), State.get_put_apart (h := by decide)]
      rfl
  | false =>
    simp only [Bool.false_eq_true, if_false, false_implies, and_true, true_implies]
    refine ⟨?_, State.get_put_of_lt _ _ _ (by decide), ?_⟩
    · rw [State.get_put_apart (h := by decide), State.get_put_apart (h := by decide)]
      exact State.get_put_of_lt _ _ _ (by decide)
    · rw [State.get_put_apart (h := by decide)]
      exact State.get_put_of_lt _ _ _ (by decide)

end Timers

section Faults

variable {s : State}

/-- Decisions that are dropped are counted; no other field of SEQ changes. -/
theorem State.get_dropLater {f : Fld} (h : SEQ_LOST_DECISIONS.count.apart f = true) (hpage : f.page = 6) (count : Bool) (i j : Nat) :
    (s.dropLater count).get f i j = s.get f i j := by
  unfold State.dropLater
  dsimp only
  rw [(State.publishReleases_only Only.rfl (Covers.refl (a := 0x80))).get (by rw [hpage]; decide),
    (State.glintsIdle_only Only.rfl Covers.refl).get (by rw [hpage]; decide)]
  split
  · rw [State.get_add_apart (h := h)]
    rfl
  · rfl

/-- The entry to FAULT (R225). -/
theorem State.seqFault_shows (h : s.seqState ≠ 2) : s.seqFault.seqState = 2 ∧ s.seqFault.get SEQ_ERR.cstore_fault = 1 := by
  have hstate : ((s.put SEQ_STATUS.state 2).seqErr SEQ_ERR.cstore_fault).get SEQ_STATUS.state = 2 :=
    (State.get_err_apart _ _ _ _ _ _ _ (by decide)).trans (State.get_put_of_lt _ _ _ (by decide))
  have herr : ((s.put SEQ_STATUS.state 2).seqErr SEQ_ERR.cstore_fault).get SEQ_ERR.cstore_fault = 1 := State.get_err_same (h := rfl) ..
  rw [State.seqFault, if_neg h, State.seqState, State.get_dropLater (by decide) rfl, State.get_dropLater (by decide) rfl]
  exact ⟨hstate, herr⟩

/-- An abort of a pass in progress marks it for its next preemption point, or discards it at once (R222). -/
theorem State.bgAbort_shows (hpass : s.seq.inPass = true) (habort : s.seq.abortPass = false) :
    s.bgAbort.get SEQ_BG_STATUS.pass_aborted = 1 ∧ s.bgAbort.get SEQ_ERR.aborted = 1 ∧
      (s.bgAbort.seq.abortPass = true ∨ s.bgAbort.seq.inPass = false) := by
  have hshown : ((s.put SEQ_BG_STATUS.pass_aborted 1).seqErr SEQ_ERR.aborted).get SEQ_BG_STATUS.pass_aborted = 1 :=
    (State.get_err_apart _ _ _ _ _ _ _ (by decide)).trans (State.get_put_of_lt _ _ _ (by decide))
  have herr : ((s.put SEQ_BG_STATUS.pass_aborted 1).seqErr SEQ_ERR.aborted).get SEQ_ERR.aborted = 1 := State.get_err_same (h := rfl) ..
  rw [State.bgAbort, if_pos hpass, if_neg (by simp [habort])]
  dsimp only
  split
  · exact ⟨hshown, herr, .inl rfl⟩
  · refine ⟨(State.get_put_apart _ _ _ _ _ _ (by decide)).trans hshown,
      (State.get_put_apart _ _ _ _ _ _ (by decide)).trans herr, .inr rfl⟩

end Faults

/-- Settles O10: a timer command brings the count up to date and acts on it; an abort and an error act on the sequencer's own
fields. -/
theorem sequencerTimers : Obligations.SequencerTimers := by
  unfold Obligations.SequencerTimers
  refine ⟨fun s t ha htick hrun => ?expiry, fun s t ha => ?start, fun s t ha => ?stop, fun s t ha => ?load,
    fun s ha hpass habort => ?abort, fun s word ha => ?corrected, fun s word ha hlo hs => ?fault⟩
  case expiry =>
    refine does_live rfl ha ?_
    rw [State.timerExpiry, if_pos ⟨htick, hrun⟩]
    exact State.timerTick_expires hrun
  case start =>
    refine does_live rfl ha ?_
    have heq : s.timerCmd t.val 4 = (s.timerSync t.val).put SEQ_TMR_STAT.running 1 t.val := rfl
    rw [heq, State.get_put_apart _ _ _ _ _ _ (by decide : SEQ_TMR_STAT.running.apart SEQ_TMR_STAT.count = true), State.count_timerSync]
    exact ⟨State.get_put_of_lt _ _ _ (by decide), rfl⟩
  case stop =>
    refine does_live rfl ha ?_
    have heq : s.timerCmd t.val 2 = (s.timerSync t.val).put SEQ_TMR_STAT.running 0 t.val := rfl
    rw [heq, State.get_put_apart _ _ _ _ _ _ (by decide : SEQ_TMR_STAT.running.apart SEQ_TMR_STAT.count = true), State.count_timerSync]
    exact ⟨State.get_put_of_lt _ _ _ (by decide), rfl⟩
  case load =>
    refine does_live rfl ha ?_
    have heq : s.timerCmd t.val 1 = (s.timerSync t.val).put SEQ_TMR_STAT.count ((s.timerSync t.val).get SEQ_TMR_CFG.reload t.val) t.val :=
      rfl
    have hcfg : (s.timerSync t.val).get SEQ_TMR_CFG.reload t.val = s.get SEQ_TMR_CFG.reload t.val :=
      State.get_timerSync (by decide) _ _
    have hrun : (s.timerSync t.val).get SEQ_TMR_STAT.running t.val = s.get SEQ_TMR_STAT.running t.val :=
      State.get_timerSync (by decide) _ _
    rw [heq, hcfg, State.get_put_same, State.get_put_apart (h := by decide), hrun]
    exact ⟨rfl, rfl⟩
  case abort =>
    refine does_live rfl ha ?_
    exact State.bgAbort_shows hpass habort
  case corrected =>
    refine does_live rfl ha ?_
    refine ⟨State.get_err_same (h := rfl) .., ?_⟩
    exact (State.get_err_apart _ _ _ _ _ _ _ (by decide)).trans (State.get_inc_apart _ _ _ _ _ (by decide))
  case fault =>
    refine does_live rfl ha ?_
    have heq : s.cstoreError word.val true = s.seqFault := by
      simp [State.cstoreError, hlo]
    rw [heq]
    exact State.seqFault_shows hs

/-! # A packet whose initiator no table of registers holds (R445, R449) -/

/-- A read of a Gnomon register by an initiator that the tables of the ring have no entry for. -/
def strayPacket : Pkt := { ini := 961, cmd := .read, addr := 0x2000010000, len := 4 }

/-- It is held for stop 23, with the counts of R449 on. -/
def strayHeld : State := (State.reset.put RNG_CTRL.stats_en 1).updRing fun r => { r with held := [strayPacket] }

theorem asleep_strayHeld : (strayHeld.wakeDone 23 []).bit RNG_STOP_STATUS.asleep 23 = true := by
  decide +kernel

/-- Refutes O40: the packet's injection is counted in index 961 of RNG_INI_PKT_CNT, whose offset within the page is that of
RNG_STOP_STATUS of stop 23: the stop that has just woken shows asleep. -/
theorem not_ringResponses : ¬ Obligations.RingResponses := by
  unfold Obligations.RingResponses
  intro h
  obtain ⟨-, -, -, -, -, -, -, -, -, -, -, -, -, -, -, -, -, hwake⟩ := h
  have hdoes := hwake strayHeld 23 strayPacket rfl (by decide) rfl (by decide) rfl
  obtain ⟨hawake, -⟩ := does_elim hdoes (exec_live rfl rfl rfl)
  have hasleep := asleep_strayHeld
  exact absurd (hasleep.symm.trans hawake) (by decide)

/-! # A word of HBM that a read finds uncorrectable (R318, R431) -/

/-- A read of the first word of HBM. -/
def wordRead : Pkt := { ini := 0, cmd := .read, addr := 0, len := 8 }

/-- The check of that word finds an error that it cannot correct. -/
def wordLost : Serve := { ecc := [(0, .uncorrectable)] }

/-- The read is on its way to a stack in RUN whose first byte is `x`. -/
def wordState (x : BitVec 8) : State :=
  ((State.reset.putStack 0 2).setByte 0 x).updRing fun r => { r with reqs := [wordRead] }

/-- The read of such a word changes memory as R318's mark of the word does. -/
theorem mem_wordState_read_zero : ((wordState 0).ringServe .read (.flight 0) wordLost).mem = ((wordState 0).hbmSpoil 0).mem := by
  rfl

theorem mem_wordState_read_one : ((wordState 1).ringServe .read (.flight 0) wordLost).mem = ((wordState 1).hbmSpoil 0).mem := by
  rfl

/-- What stands in the word then is the free value, whatever stood there. -/
theorem leMem_hbmSpoil_wordState (x : BitVec 8) : ((wordState x).hbmSpoil 0).leMem 0 8 = State.reset.fresh 64 % 256 ^ 8 :=
  calc ((wordState x).hbmSpoil 0).leMem 0 8
      = ((wordState x).setLeMem 0 8 (State.reset.fresh 64)).leMem 0 8 := rfl
    _ = State.reset.fresh 64 % 256 ^ 8 := State.leMem_setLeMem_same ..

/-- Refutes O39: a read that finds its word uncorrectable leaves a free value in it (R318), and no value is both of two that may
stand there before. -/
theorem not_ringRequests : ¬ Obligations.RingRequests := by
  unfold Obligations.RingRequests
  intro h
  obtain ⟨-, -, -, -, -, -, -, -, -, -, -, -, -, hread, -⟩ := h
  have hzero := does_elim (hread (wordState 0) 0 wordLost wordRead rfl rfl rfl (.inl rfl)) (exec_live rfl rfl rfl)
  have hone := does_elim (hread (wordState 1) 0 wordLost wordRead rfl rfl rfl (.inl rfl)) (exec_live rfl rfl rfl)
  have hfree0 := State.leMem_of_mem (mem_wordState_read_zero.symm.trans hzero) 0 8
  have hfree1 := State.leMem_of_mem (mem_wordState_read_one.symm.trans hone) 0 8
  rw [leMem_hbmSpoil_wordState] at hfree0 hfree1
  exact absurd (hfree0.symm.trans hfree1) (by decide)

/-! # A Beacon request of a register that no table holds (R264) -/

/-- A full request whose result goes to register 8, which R280's tables do not have. -/
def strayRequest : BcnReq :=
  { reg := 8, full := true, glint := none, ext := 0, serial := none, half := 0, addr := 0, responders := 0, contrib := 1 }

def strayRequested : State := State.reset.updSeq fun q => { q with requests := [strayRequest] }

theorem contrib_strayRequested : (strayRequested.beaconSettle 0).get BCN_BR_CONTRIB.mask 8 = 0 := by
  decide +kernel

/-- Refutes O13: index 8 of BCN_BR_CONTRIB has the offset of that of BCN_BR, so the count of a full result stands where the
contributor mask was put. -/
theorem not_beaconAndGlint : ¬ Obligations.BeaconAndGlint := by
  unfold Obligations.BeaconAndGlint
  intro h
  obtain ⟨hsettle, -⟩ := h
  obtain ⟨-, hmask, -⟩ := does_elim (hsettle strayRequested strayRequest [] rfl rfl) (exec_live rfl rfl rfl)
  exact absurd (contrib_strayRequested.symm.trans hmask) (by decide)

/-! # The system epoch and the combining tree (R295, R307 to R311) -/

section ReadWord

/-- An access to a whole register that no rule refuses reads it (R589, R590). -/
theorem State.csrAccess_word {s : State} {a page off : Nat} (ini : Nat) (hword : csrReason a 4 = 0)
    (hpage : csrPage a = page ∧ csrOff a = off ∧ csrBits a 4 = allBits) (hfacet : page ≠ 3) :
    s.csrAccess ini a 4 none =
      (s.readEffect page off allBits, 0, leBytes 4 (s.csrView ini page off / 2 ^ (8 * (a % 4)))) := by
  obtain ⟨rfl, rfl, hbits⟩ := hpage
  rw [State.csrAccess, if_neg (not_not.mpr hword), if_pos (Nat.le_refl 4), State.csrOne, State.csrTake, hbits, State.csrRead,
    if_neg (not_and.mpr fun h _ => hfacet h)]

/-- A command that reads a whole register performs the read's effect and answers the word. -/
theorem State.regRead_word {s : State} {page off : Nat} (ini : Nat) (hword : csrReason (csrAddr page off) 4 = 0)
    (hpage : csrPage (csrAddr page off) = page ∧ csrOff (csrAddr page off) = off ∧ csrBits (csrAddr page off) 4 = allBits)
    (hfacet : page ≠ 3) :
    s.regRead ini page off 4 = s.onPage page off fun s =>
      (s.readEffect page off allBits).emit
        (.value (leNat (leBytes 4 (s.csrView ini page off / 2 ^ (8 * (csrAddr page off % 4)))))) := by
  unfold State.regRead
  congr 1
  funext s
  rw [State.csrAccess_word ini hword hpage hfacet]
  exact if_neg (not_not.mpr rfl)

end ReadWord

section Counting

variable {s : State} (f : Fld) (i j : Nat)

@[simp] theorem State.inc_wor : (s.inc f i j).wor = s.wor := by
  obtain ⟨_, _, h⟩ := State.inc_parts s f i j
  rw [h]

@[simp] theorem State.inc_now : (s.inc f i j).now = s.now := by
  obtain ⟨_, _, h⟩ := State.inc_parts s f i j
  rw [h]

end Counting

section Epoch

variable {s : State}

theorem State.epochApply_shows (h : s.bit WOR_EPOCH_WHEN_HI.named = false) :
    (s.epochApply).armed .epoch = true ∧ s.epochApply.wor.epochFired = false := by
  obtain ⟨t, ht, harmed⟩ := State.arm_unnamed s .epoch (s.get WOR_EPOCH_WHEN_LO.orbit + 2 ^ 32 * s.get WOR_EPOCH_WHEN_HI.orbit)
    (s.get WOR_EPOCH_WHEN_HI.index)
  rw [State.epochApply, State.whenOf]
  simp only [h, ht]
  exact ⟨harmed, rfl⟩

theorem State.epochAbort_shows (h : s.epochArmed = true) :
    (s.epochAbort).armed .epoch = false ∧ s.epochAbort.get WOR_ERR.aborted = 1 := by
  rw [State.epochAbort, if_pos h]
  exact ⟨State.disarm_unarmed s .epoch, State.get_err_same (h := rfl) ..⟩

theorem State.epochFire_shows (h : s.isDue .epoch = true) :
    s.epochFire.openIfReady.get WOR_EPOCH.active = s.get WOR_EPOCH.pending % 65536 ∧
      s.epochFire.openIfReady.wor.epochFired = true := by
  have hopen := State.openIfReady_only (Only.rfl (s := s.epochFire)) Covers.refl
  rw [hopen.get (by decide), hopen.wor (by decide), State.epochFire, if_neg (not_not.mpr h)]
  exact ⟨State.get_put_same .., rfl⟩

end Epoch

section Tree

variable {s : State} {n : Fin 48} {w0 w1 w2 t : Nat} {c : Cell}

/-- A triple of words that spells a cell begins with the code of one (R308). -/
theorem code_of_cellOf {e : Nat × Cell} (h : cellOf w0 w1 w2 = some e) : w0 % 256 = 0x4B := by
  unfold cellOf at h
  split at h
  · cases h
  · next hno => exact not_not.mp (not_or.mp hno).1

/-- Counting a register of the lanes leaves which lanes the tree uses. -/
theorem State.isParent_incCell (k : Nat) (m : Fin 48) : (s.inc WOR_BLN_CELL_CNT.count k).isParent m = s.isParent m := by
  have hrole : (s.inc WOR_BLN_CELL_CNT.count k).laneRole m.val = s.laneRole m.val := by
    rw [State.laneRole, State.laneRole, State.bit, State.bit, State.get_inc_apart (h := by decide),
      State.get_inc_apart (h := by decide)]
  rw [State.isParent, State.isParent, hrole]

theorem State.childLanes_incCell (k : Nat) : (s.inc WOR_BLN_CELL_CNT.count k).childLanes = s.childLanes := by
  simp only [State.childLanes]
  rw [State.get_inc_apart (h := by decide), State.get_inc_apart (h := by decide)]

/-- A good up cell of a child lane that is not the parent lane is counted and goes to its key (R309). -/
theorem State.cellIn_up (hstate : s.linkState (.beacon n) = 4) (hparent : s.isParent n = false)
    (hchild : s.childLanes.contains n = true) (hcell : cellOf w0 w1 w2 = some (0, c)) :
    s.cellIn n w0 w1 w2 t = (s.inc WOR_BLN_CELL_CNT.count n.val).childCell n c t := by
  rw [State.cellIn, if_neg (by simp [hstate]), if_neg (by rw [code_of_cellOf hcell]; decide), hcell]
  dsimp only
  rw [State.isParent_incCell, State.childLanes_incCell, hparent, hchild]
  rfl

/-- A good down cell of the parent lane is counted, delivered and sent on (R311). -/
theorem State.cellIn_down (hstate : s.linkState (.beacon n) = 4) (hparent : s.isParent n = true)
    (hchild : s.childLanes.contains n = false) (hcell : cellOf w0 w1 w2 = some (1, c)) :
    s.cellIn n w0 w1 w2 t = (((s.inc WOR_BLN_CELL_CNT.count n.val).at t).deliver c).sendDown c := by
  rw [State.cellIn, if_neg (by simp [hstate]), if_neg (by rw [code_of_cellOf hcell]; decide), hcell]
  dsimp only
  rw [State.isParent_incCell, State.childLanes_incCell, hparent, hchild]
  rfl

/-- Three words with a wrong checksum are counted and reported (R308). -/
theorem State.cellIn_bad (hstate : s.linkState (.beacon n) = 4) (hcode : w0 % 256 = 0x4B) (hcell : cellOf w0 w1 w2 = none) :
    s.cellIn n w0 w1 w2 t = (s.inc WOR_BLN_CRC_CNT.count n.val).linkErr (.beacon n) .crc := by
  rw [State.cellIn, if_neg (by simp [hstate]), if_neg (by rw [hcode]; decide), hcell]

/-- A new key opens while none stands and none has closed (R309). -/
theorem State.openTreeKey_new {k : TreeKey} (hkeys : s.wor.keys = []) (hclosed : s.wor.closed = []) :
    s.openTreeKey k = (s.updWor fun w => { w with keys := [{ key := k, openedAt := s.now }] }, true) := by
  simp [State.openTreeKey, State.updWor, hkeys, hclosed]

/-- A child's cell opens its key with itself as that child's input. -/
theorem State.childCell_new (henable : s.bit WOR_BCN_CTRL.enable = true) (hkeys : s.wor.keys = []) (hclosed : s.wor.closed = []) :
    (s.childCell n c t).wor.keys = [{ key := c.key, openedAt := max s.now t, children := [(n.val, c)] }] ∧
      (s.childCell n c t).csr = s.csr := by
  rw [State.childCell, if_neg (by simp [henable]), State.openTreeKey_new (s := s.at t) hkeys hclosed]
  exact ⟨by simp [State.updKey, State.updWor, State.at], rfl⟩

/-- The key of an own result of the crossing that a tag numbers (R309). -/
def tagKey (g : Tag) (x : BcnResult) : TreeKey := { index := g.index, orbit := g.orbit % 16, uaddr := x.addr }

/-- The cell of an own result (R308, R309). -/
def State.ownCell (s : State) (g : Tag) (x : BcnResult) : Cell :=
  { or := x.or, full := x.full, none := !x.or, key := tagKey g x, devices := 1, count := if x.full then x.count else 0,
    p := if x.full then x.first.getD 0 else 0, dev := if x.full ∧ x.or then s.ownAddress.getD 0 else 0 }

/-- An own result opens its key with its cell (R309). -/
theorem State.ownResult_new {x : BcnResult} {rest : List BcnResult} {serial : Nat} {g : Tag} (hqueue : s.seq.toWorga = x :: rest)
    (hserial : x.serial = some serial) (henable : s.bit WOR_BCN_CTRL.enable = true)
    (htag : s.gno.tags.find? (fun q => q.serial == serial && q.numbered) = some g)
    (hkeys : s.wor.keys = []) (hclosed : s.wor.closed = []) :
    (s.ownResult t).seq.toWorga = rest ∧
      (s.ownResult t).wor.keys = [{ key := tagKey g x, openedAt := max s.now t, own := some (s.ownCell g x) }] := by
  obtain ⟨u, hu⟩ : ∃ u : State, u = (s.at t).updSeq fun q => { q with toWorga := rest } := ⟨_, rfl⟩
  have hukeys : u.wor.keys = [] := by rw [hu]; exact hkeys
  have huclosed : u.wor.closed = [] := by rw [hu]; exact hclosed
  have huenable : u.bit WOR_BCN_CTRL.enable = true := by rw [hu]; exact henable
  have hutags : u.gno.tags.find? (fun q => q.serial == serial && q.numbered) = some g := by rw [hu]; exact htag
  have hkey : u.ownKey serial x.addr = (u, tagKey g x) := by
    rw [State.ownKey, hutags]
    rfl
  rw [State.ownResult, hqueue]
  dsimp only
  rw [← hu, hserial]
  simp only [huenable, not_true, if_false, hkey, State.openTreeKey_new hukeys huclosed]
  subst hu
  refine ⟨rfl, ?_⟩
  simp only [State.updKey, State.updWor, List.map_cons, List.map_nil, if_true]
  rfl

/-- A key that has waited long enough closes at the root with the combination of its inputs (R310, R311). -/
theorem State.closeKey_root {o : OpenKey} (hkeys : s.wor.keys = [o])
    (hdue : o.openedAt + s.get WOR_BCN_WAIT.ns * 1000000 ≤ t) (hroot : s.bit WOR_BCN_CTRL.root = true) :
    ∃ u : State, s.closeKey 0 t =
        (u.deliver (combine o.key (o.own.toList ++ o.children.map (·.2)) (!s.keyComplete o))).sendDown
          (combine o.key (o.own.toList ++ o.children.map (·.2)) (!s.keyComplete o)) ∧
      u.wor.keys = [] ∧ u.wor.sysOut = s.wor.sysOut ∧ u.csr = s.csr := by
  have hkey : s.wor.keys[0]? = some o := by rw [hkeys]; rfl
  have hwait : decide (o.openedAt + (s.at t).get WOR_BCN_WAIT.ns * 1000000 ≤ (s.at t).now) = true :=
    decide_eq_true (hdue.trans (Nat.le_max_right ..))
  rw [State.closeKey, hkey]
  refine ⟨_, (if_neg fun h => h.1 hwait).trans (if_pos hroot), ?_, rfl, rfl⟩
  simp [State.updWor, State.at, hkeys]

/-- The latch copies the result into its holding registers (R36, R311). -/
theorem State.latchSys_shows :
    s.latchSys.get WOR_SYS_COUNT_LO.count = s.wor.sys.count % 2 ^ 32 ∧
      s.latchSys.get WOR_SYS_DEVICES.count = s.wor.sys.devices % 2 ^ 19 ∧
      s.latchSys.get WOR_SYS_RESULT.flags = s.get WOR_SYS_RESULT.flags ∧ s.latchSys.sent = s.sent := by
  rw [State.latchSys]
  refine ⟨?_, State.get_put_same .., ?_, rfl⟩
  · rw [State.get_put_apart (h := by decide), State.get_put_apart (h := by decide), State.get_put_apart (h := by decide),
      State.get_put_apart (h := by decide)]
    exact (State.get_put_same ..).trans (Nat.mod_mod ..)
  · simp (disch := decide) only [State.get_put_apart]

/-- A delivered result shows, is listed and is counted (R311). -/
theorem State.deliver_shows :
    (s.deliver c).wor.sys = c ∧ (s.deliver c).wor.keys = s.wor.keys ∧ (s.deliver c).wor.sysOut = s.wor.sysOut ++ [c] ∧
      (s.deliver c).get WOR_SYS_RESULT.index = c.key.index % 4096 ∧
      (s.deliver c).get WOR_SYS_CNT.count = min (2 ^ 32 - 1) (s.get WOR_SYS_CNT.count + 1) := by
  rw [State.deliver, State.inc_wor]
  refine ⟨rfl, rfl, rfl, ?_, ?_⟩
  · rw [State.get_inc_apart (h := by decide)]
    exact (State.get_put_apart (h := by decide) ..).trans (State.get_put_same ..)
  · rw [State.get_inc_rc _ _ _ rfl]
    have hput : ((((s.put WOR_SYS_RESULT.flags (b2n c.or + 2 * b2n c.full + 4 * b2n c.none + 8 * b2n c.part)).put
        WOR_SYS_RESULT.index c.key.index).put WOR_SYS_RESULT.uaddr c.key.uaddr)).get WOR_SYS_CNT.count =
        s.get WOR_SYS_CNT.count := by
      rw [State.get_put_apart (h := by decide), State.get_put_apart (h := by decide), State.get_put_apart (h := by decide)]
    exact congrArg (fun x => min (2 ^ 32 - 1) (x + 1)) hput

end Tree

/-- Settles O24: the epoch's apply goes through the rules of arming; a cell or an own result goes to its key, a key closes with
the combination of its inputs, and a result that is delivered shows. -/
theorem systemEpochAndTree : Obligations.SystemEpochAndTree := by
  unfold Obligations.SystemEpochAndTree
  refine ⟨fun s ha hname => does_live rfl ha (State.epochApply_shows hname),
    fun s ha harmed => does_live rfl ha (State.epochAbort_shows harmed),
    fun s ha hdue => does_live rfl ha (State.epochFire_shows hdue), fun s off v ha hok => ?stored, fun s off v ha hbad => ?refused,
    fun s t x rest c g ha hqueue hserial henable htag hkeys hclosed => ?own,
    fun s n w0 w1 w2 t c ha hstate hparent hchild henable hcell hkeys hclosed => ?up,
    fun s n w0 w1 w2 t ha hstate hparent hcode hcell => ?bad, fun s i t o ha hkeys hi hdue hroot => ?close,
    fun s n w0 w1 w2 t c ha hstate hparent hchild hcell => ?down, fun s ini ha => ?latch⟩
  case stored =>
    exact exec_live rfl ha (if_pos hok)
  case refused =>
    exact exec_live rfl ha (if_neg (by rw [Bool.not_eq_true]; exact hbad))
  case own =>
    refine does_live rfl ha ?_
    rw [hkeys]
    exact State.ownResult_new hqueue hserial henable htag hkeys hclosed
  case up =>
    refine does_live rfl ha ?_
    rw [if_neg (by simp [hparent]), State.cellIn_up hstate hparent hchild hcell]
    obtain ⟨u, hu⟩ : ∃ u, u = s.inc WOR_BLN_CELL_CNT.count n.val := ⟨_, rfl⟩
    have huwor : u.wor = s.wor := by rw [hu, State.inc_wor]
    obtain ⟨hkey, hcsr⟩ := State.childCell_new (s := u) (n := n) (t := t) (c := c)
      (by rw [hu, State.bit, State.get_inc_apart (h := by decide)]; exact henable) (by rw [huwor, hkeys]) (by rw [huwor, hclosed])
    rw [← hu]
    refine ⟨by rw [hkey, hu, State.inc_now], ?_⟩
    rw [State.get, hcsr, hu]
    exact State.get_inc_rc _ _ _ rfl
  case bad =>
    refine does_live rfl ha ?_
    rw [if_neg (by simp [hparent]), State.cellIn_bad hstate hcode hcell]
    refine ⟨?_, State.inc_wor ..⟩
    rw [State.linkErr, State.get_errBit_apart (h := by decide), State.get_inc_rc _ _ _ rfl]
    rfl
  case close =>
    refine does_live rfl ha ?_
    subst hi
    obtain ⟨u, hclose, hukeys, huout, hcsr⟩ := State.closeKey_root hkeys hdue hroot
    obtain ⟨hsys, hdkeys, hdout, -, hdcount⟩ := State.deliver_shows (s := u)
      (c := combine o.key (o.own.toList ++ o.children.map (·.2)) (!s.keyComplete o))
    have hdown := State.sendDown_only (c := combine o.key (o.own.toList ++ o.children.map (·.2)) (!s.keyComplete o))
      (Only.rfl (s := u.deliver (combine o.key (o.own.toList ++ o.children.map (·.2)) (!s.keyComplete o)))) Covers.refl
    rw [hclose, hdown.wor (by decide), hdown.get (by decide), hsys, hdkeys, hdout, hdcount, hukeys, huout, State.get, hcsr]
    exact ⟨rfl, rfl, rfl, rfl⟩
  case down =>
    refine does_live rfl ha ?_
    rw [if_pos hparent, State.cellIn_down hstate hparent hchild hcell]
    obtain ⟨u, hu⟩ : ∃ u, u = (s.inc WOR_BLN_CELL_CNT.count n.val).at t := ⟨_, rfl⟩
    obtain ⟨hsys, -, -, hindex, hcount⟩ := State.deliver_shows (s := u) (c := c)
    have hdown := State.sendDown_only (c := c) (Only.rfl (s := u.deliver c)) Covers.refl
    have hsame : u.get WOR_SYS_CNT.count = s.get WOR_SYS_CNT.count := by
      rw [hu]
      exact State.get_inc_apart (h := by decide) ..
    rw [← hu, hdown.wor (by decide), hdown.get (by decide), hdown.get (by decide), hcount, hsame]
    exact ⟨hsys, hindex, rfl⟩
  case latch =>
    refine ⟨_, (congrArg Host.Outcome.next ((State.regRead_word ini.val (by decide) (by decide) (by decide)).trans
      (if_pos ha))), ?_⟩
    obtain ⟨hlo, hdevices, hflags, hsent⟩ := State.latchSys_shows (s := s)
    exact ⟨hlo, hdevices, hflags, by rw [← hsent]; exact List.length_append⟩

/-! # What a write of a whole register stores (R4, R591) -/

/-- What a field holds after a write of the bits `m` of `v` while it held `old` (R4). -/
def Fld.stored (f : Fld) (m v old : Nat) : Nat :=
  let mf := bits m f.lsb f.width
  let vf := bits v f.lsb f.width
  match f.acc with
  | .rw => if mf = 0 then old else f.clampTo old ((old &&& (2 ^ f.width - 1 - mf)) ||| (vf &&& mf)) % 2 ^ f.width
  | .w1c => (old &&& (2 ^ f.width - 1 - (vf &&& mf))) % 2 ^ f.width
  | .w1s => (old ||| (vf &&& mf)) % 2 ^ f.width
  | .ro | .wo | .rc => old

theorem State.get_wrField_same (s : State) (f : Fld) (m v i j : Nat) :
    (s.wrField f m v i j).get f i j = f.stored m v (s.get f i j) := by
  unfold State.wrField Fld.stored
  cases f.acc with
  | rw =>
    dsimp only
    split
    · rfl
    · exact State.get_put_same ..
  | w1c => exact State.get_put_same ..
  | w1s => exact State.get_put_same ..
  | ro => rfl
  | wo => rfl
  | rc => rfl

/-- A write of one field leaves what stands at another key. -/
theorem State.get_wrField_ne {s : State} {f g : Fld} {i j k l : Nat} (m v : Nat) (h : g.key k l ≠ f.key i j) :
    (s.wrField f m v i j).get g k l = s.get g k l := by
  have hput (x : Nat) : (s.put f x i j).get g k l = s.get g k l := State.get_put_ne _ _ _ _ _ _ _ _ h
  unfold State.wrField
  cases f.acc with
  | rw =>
    dsimp only
    split
    · rfl
    · exact hput _
  | w1c => exact hput _
  | w1s => exact hput _
  | ro => rfl
  | wo => rfl
  | rc => rfl

/-- The entry that a field has at an offset stands there and lies in its table. -/
theorem Fld.locate_some {f : Fld} {o : Nat} {ij : Nat × Nat} (h : f.locate o = some ij) :
    f.off ij.1 ij.2 = o ∧ ij.1 < f.c1 ∧ ij.2 < f.c2 := by
  unfold Fld.locate at h
  by_cases ho : o < f.base
  · rw [if_pos ho] at h
    cases h
  · rw [if_neg ho] at h
    dsimp only at h
    generalize (if f.s1 = 0 then 0 else (o - f.base) / f.s1) = i at h
    generalize (if f.s2 = 0 then 0 else (o - f.base - f.s1 * i) / f.s2) = j at h
    by_cases hin : i < f.c1 ∧ j < f.c2 ∧ f.off i j = o
    · rw [if_pos hin] at h
      obtain ⟨hi, hj, hoff⟩ := hin
      cases h
      exact ⟨hoff, hi, hj⟩
    · rw [if_neg hin] at h
      cases h

/-- The strides of a table nest: offsets name their instances. -/
def Fld.nests (f : Fld) : Bool :=
  (f.s1 != 0 || f.c1 == 1) && (f.s2 != 0 || f.c2 == 1) && (f.s1 == 0 || decide (f.s2 * (f.c2 - 1) < f.s1))

theorem Fld.locate_off {f : Fld} {i j : Nat} (h : f.nests = true) (hi : i < f.c1) (hj : j < f.c2) :
    f.locate (f.off i j) = some (i, j) := by
  simp only [Fld.nests, Bool.and_eq_true, Bool.or_eq_true, bne_iff_ne, beq_iff_eq, decide_eq_true_eq] at h
  obtain ⟨⟨h1, h2⟩, h3⟩ := h
  have hj' : f.s2 * j ≤ f.s2 * (f.c2 - 1) := Nat.mul_le_mul_left _ (by omega)
  have hfirst : (if f.s1 = 0 then 0 else (f.s1 * i + f.s2 * j) / f.s1) = i := by
    by_cases hs : f.s1 = 0
    · rw [if_pos hs]
      omega
    · rw [if_neg hs, Nat.mul_add_div (by omega), Nat.div_eq_of_lt (by omega), Nat.add_zero]
  have hsecond : (if f.s2 = 0 then 0 else f.s2 * j / f.s2) = j := by
    by_cases hs : f.s2 = 0
    · rw [if_pos hs]
      omega
    · rw [if_neg hs, Nat.mul_div_cancel_left _ (by omega)]
  have hoff : f.off i j - f.base = f.s1 * i + f.s2 * j := by unfold Fld.off; omega
  unfold Fld.locate
  rw [if_neg (by unfold Fld.off; omega)]
  dsimp only
  rw [hoff, hfirst, Nat.add_sub_cancel_left, hsecond, if_pos ⟨hi, hj, rfl⟩]

/-- The place of a field's first entry within a block of `d`. -/
def Fld.place (f : Fld) (d : Nat) : Nat := (f.base + f.lsb / 32) % d

/-- The blocks of `f` and `g` are woven: `f` and `g` take different parts of each. -/
def Fld.woven (f g : Fld) : Bool :=
  let d := Nat.gcd 0x10000 (Nat.gcd f.s1 g.s1)
  let af := f.place d
  let ag := g.place d
  let lf := af + f.s2 * (f.c2 - 1)
  let lg := ag + g.s2 * (g.c2 - 1)
  decide (lf < d ∧ lg < d ∧ (lf < ag ∨ lg < af))

/-- An entry stands at its place in a block. -/
theorem Fld.off_mod {f : Fld} {d i j : Nat} (hd : d ∣ f.s1) (hj : j < f.c2) (h : f.place d + f.s2 * (f.c2 - 1) < d) :
    (f.off i j + f.lsb / 32) % d = f.place d + f.s2 * j := by
  have hle : f.s2 * j ≤ f.s2 * (f.c2 - 1) := Nat.mul_le_mul_left _ (by omega)
  obtain ⟨q, hq⟩ := hd
  have hoff : f.off i j + f.lsb / 32 = f.base + f.lsb / 32 + f.s2 * j + d * (q * i) := by
    unfold Fld.off
    rw [hq]
    ring
  rw [hoff, Nat.add_mul_mod_self_left, Nat.add_mod, Nat.mod_eq_of_lt (show f.s2 * j < d by omega)]
  exact Nat.mod_eq_of_lt (by unfold Fld.place at h; omega)

theorem Fld.key_ne_of_woven {f g : Fld} {i j k l : Nat} (h : f.woven g = true) (hj : j < f.c2) (hl : l < g.c2) :
    g.key k l ≠ f.key i j := by
  intro e
  have hpage : g.page = f.page := by
    rw [← Fld.key_page g k l, ← Fld.key_page f i j, e]
  have hmod : (32 * g.off k l + g.lsb) % 0x200000 = (32 * f.off i j + f.lsb) % 0x200000 := by
    unfold Fld.key at e
    omega
  have hoff : (f.off i j + f.lsb / 32) % 0x10000 = (g.off k l + g.lsb / 32) % 0x10000 := by omega
  simp only [Fld.woven, decide_eq_true_eq] at h
  generalize hd : Nat.gcd 0x10000 (Nat.gcd f.s1 g.s1) = d at h
  obtain ⟨hf, hg, hdis⟩ := h
  have hD : d ∣ 0x10000 := hd ▸ Nat.gcd_dvd_left _ _
  have hin : d ∣ Nat.gcd f.s1 g.s1 := hd ▸ Nat.gcd_dvd_right _ _
  have hsame := congrArg (· % d) hoff
  rw [Nat.mod_mod_of_dvd _ hD, Nat.mod_mod_of_dvd _ hD, Fld.off_mod (hin.trans (Nat.gcd_dvd_left _ _)) hj hf,
    Fld.off_mod (hin.trans (Nat.gcd_dvd_right _ _)) hl hg] at hsame
  have h1 : f.s2 * j ≤ f.s2 * (f.c2 - 1) := Nat.mul_le_mul_left _ (by omega)
  have h2 : g.s2 * l ≤ g.s2 * (g.c2 - 1) := Nat.mul_le_mul_left _ (by omega)
  omega

/-- Within their tables the instances of `f` and `g` stand at different keys. -/
def Fld.separate (f g : Fld) : Bool := f.parted g || f.apart g || f.woven g

theorem Fld.key_ne_of_separate {f g : Fld} {i j k l : Nat} (h : f.separate g = true) (hi : i < f.c1) (hj : j < f.c2) (hk : k < g.c1)
    (hl : l < g.c2) : g.key k l ≠ f.key i j := by
  simp only [Fld.separate, Bool.or_eq_true] at h
  obtain (hparted | hapart) | hwoven := h
  · exact Fld.key_ne_of_parted hparted hi hj hk hl
  · exact Fld.key_ne_of_apart hapart i j k l
  · exact Fld.key_ne_of_woven hwoven hj hl

/-- Of its page, only the field itself stands at the keys of its instances. -/
def Fld.alone (f : Fld) : Bool := (fieldsOfPage f.page).filter (fun g => !g.separate f) == [f]

section

variable {f : Fld} {i j : Nat} (m v : Nat)

/-- A write of a whole register stores each field of it by the field's own rule. -/
theorem State.get_wrReg_same {page off : Nat} (s : State) (hpage : f.page = page) (hoff : f.off i j = off) (h : f.alone = true)
    (hn : f.nests = true) (hi : i < f.c1) (hj : j < f.c2) :
    (s.wrReg page off m v).get f i j = f.stored m v (s.get f i j) := by
  subst hpage hoff
  simp only [Fld.alone, beq_iff_eq] at h
  rw [State.wrReg_eq, fieldsAt]
  generalize fieldsOfPage f.page = l at h
  have hother (g : Fld) (hg : g.separate f = true) (kl : Nat × Nat) (hkl : g.locate (f.off i j) = some kl) (s : State) :
      (s.wrField g m v kl.1 kl.2).get f i j = s.get f i j := by
    obtain ⟨-, hk, hl⟩ := Fld.locate_some hkl
    exact State.get_wrField_ne m v (Fld.key_ne_of_separate hg hk hl hi hj)
  induction l generalizing s with
  | nil => cases h
  | cons g l ih =>
    cases hg : g.separate f with
    | true =>
      rw [List.filter_cons_of_neg (by simp [hg])] at h
      cases hloc : g.locate (f.off i j) with
      | none => rw [List.filterMap_cons_none (by rw [hloc]; rfl), ih _ h]
      | some kl => rw [List.filterMap_cons_some (by rw [hloc]; rfl), List.foldl_cons, ih _ h, hother g hg kl hloc]
    | false =>
      rw [List.filter_cons_of_pos (by simp [hg])] at h
      obtain ⟨rfl, hrest⟩ := List.cons.inj h
      rw [List.filterMap_cons_some (by rw [Fld.locate_off hn hi hj]; rfl), List.foldl_cons, State.get_foldl]
      · exact State.get_wrField_same ..
      · intro s x hx
        obtain ⟨y, hy, hxy⟩ := List.mem_filterMap.mp hx
        obtain ⟨kl, hkl, rfl⟩ := Option.map_eq_some_iff.mp hxy
        exact hother y (by simpa using List.filter_eq_nil_iff.mp hrest y hy) kl hkl s

/-- It leaves the fields of the registers at other offsets. -/
theorem State.get_wrReg_off {page off : Nat} (s : State) (hlsb : (f.lsb :: (fieldsOfPage page).map (·.lsb)).all (· < 32) = true)
    (hf : f.off i j < 0x10000) (hoff : off < 0x10000) (hne : f.off i j ≠ off) :
    (s.wrReg page off m v).get f i j = s.get f i j := by
  simp only [List.all_cons, List.all_map, Bool.and_eq_true, decide_eq_true_eq, List.all_eq_true, Function.comp] at hlsb
  obtain ⟨hf32, hall⟩ := hlsb
  rw [State.wrReg_eq]
  refine State.get_foldl s fun s x hx => ?_
  obtain ⟨g, hg, hxg⟩ := List.mem_filterMap.mp hx
  obtain ⟨kl, hkl, rfl⟩ := Option.map_eq_some_iff.mp hxg
  obtain ⟨hgoff, -, -⟩ := Fld.locate_some hkl
  have hg32 := hall g hg
  refine State.get_wrField_ne m v fun e => hne ?_
  unfold Fld.key at e
  rw [hgoff] at e
  have hpage : (0x200000 * f.page + (32 * f.off i j + f.lsb) % 0x200000) % 0x200000 =
    (0x200000 * g.page + (32 * off + g.lsb) % 0x200000) % 0x200000 := congrArg (· % 0x200000) e
  omega

/-- A write of every bit of a field stores its new value. -/
theorem Fld.stored_all {old : Nat} (hacc : f.acc = .rw) (hw : 0 < f.width) (hm : bits m f.lsb f.width = 2 ^ f.width - 1)
    (hclamp : f.clamp = .none) : f.stored m v old = bits v f.lsb f.width := by
  have hpos : 2 ^ f.width - 1 ≠ 0 := by
    have := Nat.one_lt_two_pow (n := f.width) (by omega)
    omega
  have hmerged : (old &&& (2 ^ f.width - 1 - (2 ^ f.width - 1))) ||| (bits v f.lsb f.width &&& (2 ^ f.width - 1)) =
      bits v f.lsb f.width := by
    rw [Nat.sub_self, Nat.and_zero, Nat.zero_or, Nat.and_two_pow_sub_one_eq_mod, Nat.mod_eq_of_lt (bits_lt _ _ _)]
  simp only [Fld.stored, hacc, hm, hmerged, if_neg hpos, Fld.clampTo, hclamp, Nat.mod_eq_of_lt (bits_lt v f.lsb f.width)]

end

/-- One bit of a word as a number. -/
theorem bits_one (v : BitVec 32) (b : Nat) : bits v.toNat b 1 = b2n (v.getLsbD b) := by
  rw [BitVec.getLsbD, Nat.testBit_eq_decide_div_mod_eq, bits, Nat.shiftRight_eq_div_pow, Nat.pow_one]
  have := Nat.mod_two_eq_zero_or_one (v.toNat / 2 ^ b)
  rcases this with h | h <;> simp [h, b2n]

/-! # A rear lane that is being scanned and still waits for its scan (R524) -/

/-- The last eye of rear lane 0 is being scanned. -/
def lastEye : TarScan := { lane := 256, eye := 2, left := [], freeze := 0, height := 0xFFFF, width := 0xFF }

/-- The lane has lock, and the list of lanes to scan names it again. -/
def rescanned : State := (State.reset.put WOR_BLN_STATUS.state 2 0).updTar fun t => { t with scans := [lastEye], scanTodo := [256] }

theorem valid_rescanned : (rescanned.scanDone 256 0 0).get TAR_RLANE_EYE.valid 0 = 0 := by
  decide +kernel

/-- Refutes O15: the scan that ends lets the next lane start; where that is the same rear lane, its result is no longer valid. -/
theorem not_laneEqualisers : ¬ Obligations.LaneEqualisers := by
  unfold Obligations.LaneEqualisers
  intro h
  obtain ⟨-, -, -, -, hrear⟩ := h
  obtain ⟨-, -, hvalid⟩ := does_elim (hrear rescanned 0 0 0 lastEye rfl rfl rfl) (exec_live rfl rfl rfl)
  exact absurd (valid_rescanned.symm.trans hvalid) (by decide)

/-! # The receive side of a front lane (R49 to R53) -/

/-- Every field of the list stands apart from `g`. -/
def Fld.clearOf (l : List Fld) (g : Fld) : Bool := l.all fun f => f.apart g

/-- From `s` to `t` no field that stands apart from those of the list has changed. -/
def Touches (l : List Fld) (s t : State) : Prop := ∀ g : Fld, g.clearOf l = true → ∀ i j, t.get g i j = s.get g i j

namespace Touches

variable {l : List Fld} {s t u : State} {f : Fld}

theorem refl : Touches l s s := fun _ _ _ _ => rfl

theorem trans (h : Touches l s t) (k : Touches l t u) : Touches l s u := fun g hg i j => (k g hg i j).trans (h g hg i j)

theorem of_csr (h : Touches l s t) (e : u.csr = t.csr) : Touches l s u :=
  h.trans fun g _ i j => by rw [State.get, State.get, e]

theorem ite {p : Prop} [Decidable p] (ht : Touches l s t) (hu : Touches l s u) : Touches l s (if p then t else u) := by
  split <;> assumption

theorem apart (hf : f ∈ l) {g : Fld} (hg : g.clearOf l = true) : f.apart g = true := List.all_eq_true.mp hg f hf

theorem put (h : Touches l s t) (hf : f ∈ l) (v i j : Nat) : Touches l s (t.put f v i j) :=
  h.trans fun _ hg _ _ => State.get_put_apart _ _ _ _ _ _ (apart hf hg)

theorem setBit (h : Touches l s t) (hf : f ∈ l) (v : Nat) (b : Bool) (i j : Nat) : Touches l s (t.setBit f v b i j) :=
  put h hf _ i j

theorem add (h : Touches l s t) (hf : f ∈ l) (v i j : Nat) : Touches l s (t.add f v i j) :=
  h.trans fun _ hg _ _ => State.get_add_apart _ _ _ _ _ _ (apart hf hg)

theorem inc (h : Touches l s t) (hf : f ∈ l) (i j : Nat) : Touches l s (t.inc f i j) := add h hf 1 i j

theorem err (h : Touches l s t) (hf : f ∈ l) (i inst detail j : Nat) : Touches l s (t.err f i inst detail j) :=
  h.trans fun _ hg _ _ => State.get_err_apart _ _ _ _ _ _ _ (apart hf hg)

theorem errBit (h : Touches l s t) (hf : f ∈ l) (v i inst detail : Nat) : Touches l s (t.errBit f v i inst detail) :=
  h.trans fun _ hg _ _ => State.get_errBit_apart _ _ _ _ _ _ _ (apart hf hg)

theorem foldl {α : Type} {f : State → α → State} (h : Touches l s t) (xs : List α) (hf : ∀ t x, Touches l s t → Touches l s (f t x)) :
    Touches l s (xs.foldl f t) := by
  induction xs generalizing t with
  | nil => exact h
  | cons x xs ih => exact ih (hf t x h)

theorem bit (h : Touches l s t) {g : Fld} (hg : g.clearOf l = true) (i j : Nat) : t.bit g i j = s.bit g i j := by
  rw [State.bit, State.bit, h g hg]

end Touches

section Enter

variable {s : State} {n st : Nat}

/-- The fields that an entry to a receive state writes, beside the state. -/
def enterFields : List Fld :=
  [FLN_STATUS.eye_busy, FLN_EYE_RESULT.valid, FLN_STATUS.cdr_lock, FLN_STATUS.adapt_done,
    FLN_STATUS.signal_detect, EDG_LANE_STATUS.aligned, EDG_LANE_STATUS.offset, EDG_LANE_STATUS.seeded]

theorem Touches.restartPath {t : State} (h : Touches enterFields s t) (f l : Nat) : Touches enterFields s (t.restartPath f l) :=
  (((h.of_csr rfl).put (by decide) _ _ _).put (by decide) _ _ _).put (by decide) _ _ _

/-- The state before an entry to a receive state: a lane that leaves READY has ended its scan (R57). -/
def State.leftReady (s : State) (n st : Nat) : State := if s.laneState n = 4 ∧ st ≠ 4 then s.endScan n else s

theorem State.leftReady_touches : Touches enterFields s (s.leftReady n st) :=
  .ite (.ite ((Touches.refl.put (by decide) _ _ _).put (by decide) _ _ _) .refl) .refl

/-- The clears of an entry below READY, and the fresh start in READY. -/
theorem State.enterLane_touches :
    Touches enterFields ((s.leftReady n st).put FLN_STATUS.state st n) (s.enterLane n st) := by
  have h1 : Touches enterFields ((s.leftReady n st).put FLN_STATUS.state st n)
      (if st < 3 then (((s.leftReady n st).put FLN_STATUS.state st n).put FLN_STATUS.cdr_lock 0 n).put FLN_STATUS.adapt_done 0 n
        else (s.leftReady n st).put FLN_STATUS.state st n) :=
    .ite ((Touches.refl.put (by decide) _ _ _).put (by decide) _ _ _) .refl
  exact .ite (.foldl (.ite (h1.put (by decide) _ _ _) h1) _ fun t p ht => ht.restartPath p.1 p.2) (.ite (h1.put (by decide) _ _ _) h1)

/-- The lane shows the state that it enters. -/
theorem State.laneState_enterLane (hst : st < 8) : (s.enterLane n st).laneState n = st := by
  rw [State.laneState, State.enterLane_touches FLN_STATUS.state (by decide), State.get_put_of_lt _ _ _ hst]

/-- An entry leaves what stands apart from the state and the fields that it clears. -/
theorem State.get_enterLane {g : Fld} (h : g.clearOf (FLN_STATUS.state :: enterFields) = true) (i j : Nat) :
    (s.enterLane n st).get g i j = s.get g i j := by
  rw [Fld.clearOf, List.all_cons, Bool.and_eq_true] at h
  obtain ⟨hstate, hrest⟩ := h
  rw [State.enterLane_touches g hrest, State.get_put_apart (h := hstate), State.leftReady_touches g hrest]

/-- The fields that an entry to LOCKING or READY writes, beside the state. -/
def highFields : List Fld :=
  [FLN_STATUS.eye_busy, FLN_EYE_RESULT.valid, EDG_LANE_STATUS.aligned, EDG_LANE_STATUS.offset, EDG_LANE_STATUS.seeded]

theorem State.enterLane_high (hst : 3 ≤ st) : Touches (FLN_STATUS.state :: highFields) s (s.enterLane n st) := by
  have hleft : Touches (FLN_STATUS.state :: highFields) s (s.leftReady n st) :=
    .ite (.ite ((Touches.refl.put (by decide) _ _ _).put (by decide) _ _ _) .refl) .refl
  have heq : s.enterLane n st = if st = 4 then
      (((s.leftReady n st).put FLN_STATUS.state st n).pathsOf n).foldl (fun s p => s.restartPath p.1 p.2)
        ((s.leftReady n st).put FLN_STATUS.state st n)
      else (s.leftReady n st).put FLN_STATUS.state st n := by
    simp only [State.enterLane, if_neg (show ¬ st < 3 by omega), if_neg (show ¬ st < 2 by omega)]
    rfl
  rw [heq]
  have hput := hleft.put (f := FLN_STATUS.state) (by decide) st n 0
  exact .ite (.foldl hput _ fun t p ht =>
    (((ht.of_csr rfl).put (by decide) _ _ _).put (by decide) _ _ _).put (by decide) _ _ _) hput

end Enter

section Stored

variable {s : State} {n m v : Nat}

/-- FLN_CTRL as a write stores it, with the code kept where a reserved one is written (R49). -/
def State.laneStored (s : State) (n m v : Nat) : State :=
  let t := s.wrReg 2 (0x100 * n) m v
  let t' := if t.get FLN_CTRL.rate n = 3 then t.put FLN_CTRL.rate (s.get FLN_CTRL.rate n) n else t
  if t.get FLN_CTRL.loopback n = 3 then t'.put FLN_CTRL.loopback (s.get FLN_CTRL.loopback n) n else t'

/-- The reserved code is reported, and what depends on the register follows it. -/
def State.laneFollows (t : State) (n : Nat) (bad : Prop) [Decidable bad] : State :=
  let t := if bad then t.laneErr FLN_ERR.bad_cfg n else t
  let t := if t.bit FLN_CTRL.sc_en n then t else t.updLane n fun l => { l with rx := [] }
  let t := if t.bit FLN_CTRL.tx_en n then t else t.put FLN_STATUS.tx_ready 0 n
  t.publishDl n

/-- The receive side moves by the first three rows of R51. -/
def State.laneMoves (t : State) (n rate loop : Nat) : State :=
  if ¬ t.bit FLN_CTRL.rx_en n then (if t.laneState n = 0 then t else t.enterLane n 0)
  else if t.laneState n = 0 then t.enterLane n 1
  else if t.get FLN_CTRL.rate n ≠ rate ∨ t.get FLN_CTRL.loopback n ≠ loop then t.enterLane n 1
  else t

theorem State.writeLaneCtrl_eq : s.writeLaneCtrl n m v =
    ((s.laneStored n m v).laneFollows n ((s.wrReg 2 (0x100 * n) m v).get FLN_CTRL.rate n = 3 ∨
      (s.wrReg 2 (0x100 * n) m v).get FLN_CTRL.loopback n = 3)).laneMoves n (s.get FLN_CTRL.rate n) (s.get FLN_CTRL.loopback n) :=
  rfl

/-- The fields that follow FLN_CTRL. -/
def followFields : List Fld :=
  [FLN_STATUS.tx_ready, FLN_DL_WORDS.w_min, FLN_DL_WORDS.slow_words, FLN_DL_WORDS.slow_ok]

theorem State.laneFollows_touches {bad : Prop} [Decidable bad] : Touches followFields (if bad then s.laneErr FLN_ERR.bad_cfg n else s)
    (s.laneFollows n bad) := by
  obtain ⟨t, ht⟩ : ∃ t, t = if bad then s.laneErr FLN_ERR.bad_cfg n else s := ⟨_, rfl⟩
  rw [State.laneFollows, ← ht]
  have h1 : Touches followFields t (if t.bit FLN_CTRL.sc_en n then t else t.updLane n fun l => { l with rx := [] }) :=
    .ite .refl (.of_csr .refl rfl)
  exact (((Touches.ite h1 (h1.put (by decide) _ _ _)).put (by decide) _ _ _).put (by decide) _ _ _).put (by decide) _ _ _

/-- The moves of the receive side leave every register but its state and what an entry clears. -/
theorem State.get_laneMoves {g : Fld} (h : g.clearOf (FLN_STATUS.state :: enterFields) = true) (rate loop i j : Nat) :
    (s.laneMoves n rate loop).get g i j = s.get g i j := by
  unfold State.laneMoves
  split
  · split
    · rfl
    · exact State.get_enterLane h i j
  · split
    · exact State.get_enterLane h i j
    · split
      · exact State.get_enterLane h i j
      · rfl

end Stored

section Ctrl

variable {s : State} {n : Fin 224} {v : BitVec 32}

/-- A written field of FLN_CTRL. -/
theorem State.get_laneCtrl {f : Fld} (h : f ∈ [FLN_CTRL.rx_en, FLN_CTRL.tx_en, FLN_CTRL.rate, FLN_CTRL.loopback]) :
    (s.wrReg 2 (0x100 * n.val) (0xFFFFFFFF#32).toNat v.toNat).get f n.val = bits v.toNat f.lsb f.width := by
  have hn := n.isLt
  have hfacts : ∀ f ∈ [FLN_CTRL.rx_en, FLN_CTRL.tx_en, FLN_CTRL.rate, FLN_CTRL.loopback], f.page = 2 ∧ f.base = 0 ∧ f.s1 = 0x100 ∧
      f.s2 = 0 ∧ f.c1 = 224 ∧ f.c2 = 1 ∧ f.alone = true ∧ f.nests = true ∧ f.acc = .rw ∧ 0 < f.width ∧
      bits 0xFFFFFFFF f.lsb f.width = 2 ^ f.width - 1 ∧ f.clamp = .none := by decide +kernel
  obtain ⟨hpage, hbase, hs1, hs2, hc1, hc2, halone, hnests, hacc, hw, hm, hclamp⟩ := hfacts f h
  rw [State.get_wrReg_same _ _ _ hpage (by rw [Fld.off, hbase, hs1, hs2]; omega) halone hnests (by omega) (by omega)]
  exact Fld.stored_all _ _ hacc hw hm hclamp

theorem State.laneState_laneCtrl : (s.wrReg 2 (0x100 * n.val) (0xFFFFFFFF#32).toNat v.toNat).laneState n.val = s.laneState n.val := by
  have hn := n.isLt
  refine State.get_wrReg_off _ _ _ (by decide +kernel) ?_ ?_ ?_
  · rw [Fld.off, show FLN_STATUS.state.base = 4 from rfl, show FLN_STATUS.state.s1 = 0x100 from rfl]
    omega
  · omega
  · rw [Fld.off, show FLN_STATUS.state.base = 4 from rfl, show FLN_STATUS.state.s1 = 0x100 from rfl]
    omega

/-- Where no reserved code is written, the register is stored as it is. -/
theorem State.laneStored_of_codes (hrate : bits v.toNat 2 2 ≠ 3) (hloop : bits v.toNat 6 2 ≠ 3) :
    s.laneStored n.val (0xFFFFFFFF#32).toNat v.toNat = s.wrReg 2 (0x100 * n.val) (0xFFFFFFFF#32).toNat v.toNat := by
  have h1 := State.get_laneCtrl (s := s) (n := n) (v := v) (f := FLN_CTRL.rate) (by decide)
  have h2 := State.get_laneCtrl (s := s) (n := n) (v := v) (f := FLN_CTRL.loopback) (by decide)
  rw [State.laneStored, if_neg (by rw [h2]; exact hloop)]
  exact if_neg (by rw [h1]; exact hrate)

/-- rx_en and tx_en are stored in every case. -/
theorem State.get_laneStored {f : Fld} (h : f ∈ [FLN_CTRL.rx_en, FLN_CTRL.tx_en]) :
    (s.laneStored n.val (0xFFFFFFFF#32).toNat v.toNat).get f n.val = bits v.toNat f.lsb f.width := by
  have hclear : Touches [FLN_CTRL.rate, FLN_CTRL.loopback] (s.wrReg 2 (0x100 * n.val) (0xFFFFFFFF#32).toNat v.toNat)
      (s.laneStored n.val (0xFFFFFFFF#32).toNat v.toNat) := by
    have h1 := Touches.ite (p := (s.wrReg 2 (0x100 * n.val) (0xFFFFFFFF#32).toNat v.toNat).get FLN_CTRL.rate n.val = 3)
      (Touches.refl.put (f := FLN_CTRL.rate) (by decide) (s.get FLN_CTRL.rate n.val) n.val 0) (Touches.refl (l := [FLN_CTRL.rate, FLN_CTRL.loopback])
        (s := s.wrReg 2 (0x100 * n.val) (0xFFFFFFFF#32).toNat v.toNat))
    exact .ite (h1.put (by decide) _ _ _) h1
  have happart : ∀ f ∈ [FLN_CTRL.rx_en, FLN_CTRL.tx_en], f.clearOf [FLN_CTRL.rate, FLN_CTRL.loopback] = true := by decide
  rw [hclear f (happart f h)]
  exact State.get_laneCtrl (List.mem_of_mem_take (i := 2) h)

/-- A reserved rate code keeps the rate. -/
theorem State.rate_laneStored (hrate : bits v.toNat 2 2 = 3) :
    (s.laneStored n.val (0xFFFFFFFF#32).toNat v.toNat).get FLN_CTRL.rate n.val = s.get FLN_CTRL.rate n.val % 4 := by
  have h1 := State.get_laneCtrl (s := s) (n := n) (v := v) (f := FLN_CTRL.rate) (by decide)
  rw [State.laneStored, if_pos (h1.trans hrate)]
  split
  · exact (State.get_put_apart (h := by decide) ..).trans (State.get_put_same ..)
  · exact State.get_put_same ..

end Ctrl

section Moves

variable {s : State} {n : Nat}

/-- Whether the code is reserved or not, what follows leaves every register but bad_cfg and what depends on FLN_CTRL. -/
theorem State.get_laneFollows {bad : Prop} [Decidable bad] {g : Fld} (h : g.clearOf (FLN_ERR.bad_cfg :: followFields) = true)
    (i j : Nat) : (s.laneFollows n bad).get g i j = s.get g i j := by
  rw [Fld.clearOf, List.all_cons, Bool.and_eq_true] at h
  obtain ⟨hbad, hrest⟩ := h
  rw [State.laneFollows_touches g hrest]
  split
  · exact State.get_err_apart (h := hbad) ..
  · rfl

/-- The PLL lock leads from RESET to SIGNAL_WAIT. -/
theorem State.lanePllLock_shows (hstate : s.laneState n = 1) (hpresent : (s.get FLN_REFCLK_STATUS.present).testBit (n / 28) = true) :
    (s.lanePllLock n).laneState n = 2 := by
  rw [State.lanePllLock, if_pos hpresent]
  dsimp only
  rw [if_pos ?_]
  · exact State.laneState_enterLane (by decide)
  · rw [State.laneState]
    split
    · rw [State.get_put_apart (h := by decide)]
      exact hstate
    · exact hstate

theorem State.signalDetect_shows (hstate : s.laneState n = 2) :
    (s.signalDetect n).laneState n = 3 ∧ (s.signalDetect n).get FLN_STATUS.signal_detect n = 1 := by
  rw [State.signalDetect, if_pos hstate]
  exact ⟨State.laneState_enterLane (by decide),
    (State.enterLane_high (by decide) FLN_STATUS.signal_detect (by decide) ..).trans (State.get_put_same ..)⟩

/-- The settings that adaptation found, unless they are frozen. -/
def State.adapted (s : State) (n ctle dfe1 : Nat) : State :=
  ((if s.bit FLN_RX_EQ.adapt_freeze n then s else (s.put FLN_RX_EQ.ctle ctle n).put FLN_RX_EQ.dfe1 dfe1 n).put
    FLN_STATUS.adapt_done 1 n).updLane n fun l => { l with adapting := false }

/-- Lock and adaptation lead from LOCKING to READY (R51). -/
theorem State.laneLockDone_shows {ctle dfe1 : Nat} (hstate : s.laneState n = 3) (hctle : ctle < 32) (hdfe : dfe1 < 64) :
    (s.laneLockDone n ctle dfe1).laneState n = 4 ∧ (s.laneLockDone n ctle dfe1).get FLN_STATUS.cdr_lock n = 1 ∧
      (s.laneLockDone n ctle dfe1).get FLN_STATUS.adapt_done n = 1 ∧
      (s.bit FLN_RX_EQ.adapt_freeze n = false → (s.laneLockDone n ctle dfe1).get FLN_RX_EQ.ctle n = ctle ∧
        (s.laneLockDone n ctle dfe1).get FLN_RX_EQ.dfe1 n = dfe1) := by
  have hready : s.laneLockDone n ctle dfe1 = ((s.adapted n ctle dfe1).put FLN_STATUS.cdr_lock 1 n).enterLane n 4 := if_pos hstate
  rw [hready]
  have hhigh {g : Fld} (hg : g.clearOf (FLN_STATUS.state :: highFields) = true) (t : State) :
      (t.enterLane n 4).get g n = t.get g n := State.enterLane_high (by decide) g hg ..
  have hsettle {g : Fld} (hg : FLN_STATUS.adapt_done.apart g = true) : (s.adapted n ctle dfe1).get g n =
      (if s.bit FLN_RX_EQ.adapt_freeze n then s else (s.put FLN_RX_EQ.ctle ctle n).put FLN_RX_EQ.dfe1 dfe1 n).get g n :=
    State.get_put_apart (h := hg) ..
  have hdone : (s.adapted n ctle dfe1).get FLN_STATUS.adapt_done n = 1 := State.get_put_same ..
  refine ⟨State.laneState_enterLane (by decide), ?_, ?_, fun hfreeze => ⟨?_, ?_⟩⟩
  · rw [hhigh (by decide), State.get_put_same]
    rfl
  · rw [hhigh (by decide), State.get_put_apart (h := by decide), hdone]
  · rw [hhigh (by decide), State.get_put_apart (h := by decide), hsettle (by decide), if_neg (by simp [hfreeze]),
      State.get_put_apart (h := by decide), State.get_put_of_lt _ _ _ hctle]
  · rw [hhigh (by decide), State.get_put_apart (h := by decide), hsettle (by decide), if_neg (by simp [hfreeze]),
      State.get_put_of_lt _ _ _ hdfe]

theorem State.lockTimeout_shows (hstate : s.laneState n = 3) :
    (s.lockTimeout n).laneState n = 1 ∧ (s.lockTimeout n).get FLN_ERR.lock_timeout n = 1 := by
  rw [State.lockTimeout, if_pos hstate]
  exact ⟨(State.get_err_apart (h := by decide) ..).trans (State.laneState_enterLane (by decide)), State.get_err_same (h := rfl) ..⟩

/-- The loss of the signal leads from READY to SIGNAL_WAIT, reported and counted (R51). -/
theorem State.signalLost_shows (hstate : s.laneState n = 4) :
    (s.signalLost n).laneState n = 2 ∧ (s.signalLost n).get FLN_ERR.signal_lost n = 1 ∧
      (s.signalLost n).get FLN_LOCK_LOSS_CNT.count n = min 65535 (s.get FLN_LOCK_LOSS_CNT.count n + 1) := by
  rw [State.signalLost, if_pos hstate]
  refine ⟨?_, ?_, ?_⟩
  · rw [State.laneState, State.get_inc_apart (h := by decide), State.laneErr, State.get_err_apart (h := by decide),
      State.get_put_apart (h := by decide)]
    exact State.laneState_enterLane (by decide)
  · rw [State.get_inc_apart (h := by decide)]
    exact State.get_err_same (h := rfl) ..
  · rw [State.get_inc_rc _ _ _ rfl, State.laneErr, State.get_err_apart (h := by decide), State.get_put_apart (h := by decide),
      State.get_enterLane (by decide)]
    rfl

/-- The loss of the lock leads from READY to LOCKING, reported and counted (R51). -/
theorem State.cdrLost_shows (hstate : s.laneState n = 4) :
    (s.cdrLost n).laneState n = 3 ∧ (s.cdrLost n).get FLN_ERR.cdr_lost n = 1 ∧ (s.cdrLost n).get FLN_STATUS.cdr_lock n = 0 ∧
      (s.cdrLost n).get FLN_LOCK_LOSS_CNT.count n = min 65535 (s.get FLN_LOCK_LOSS_CNT.count n + 1) := by
  rw [State.cdrLost, if_pos hstate]
  refine ⟨?_, ?_, ?_, ?_⟩
  · rw [State.laneState, State.get_inc_apart (h := by decide), State.laneErr, State.get_err_apart (h := by decide),
      State.get_put_apart (h := by decide), State.get_put_apart (h := by decide)]
    exact State.laneState_enterLane (by decide)
  · rw [State.get_inc_apart (h := by decide)]
    exact State.get_err_same (h := rfl) ..
  · rw [State.get_inc_apart (h := by decide), State.laneErr, State.get_err_apart (h := by decide),
      State.get_put_apart (h := by decide), State.get_put_same]
    rfl
  · rw [State.get_inc_rc _ _ _ rfl, State.laneErr, State.get_err_apart (h := by decide), State.get_put_apart (h := by decide),
      State.get_put_apart (h := by decide), State.get_enterLane (by decide)]
    rfl

/-- A restart of adaptation keeps READY (R53). -/
theorem State.adaptRestart_shows (hstate : s.laneState n = 4) (hfreeze : s.bit FLN_RX_EQ.adapt_freeze n = false) :
    (s.adaptRestart n).laneState n = 4 ∧ (s.adaptRestart n).get FLN_RX_EQ.ctle n = 0 ∧ (s.adaptRestart n).get FLN_RX_EQ.dfe1 n = 0 ∧
      (s.adaptRestart n).get FLN_STATUS.adapt_done n = 0 := by
  obtain ⟨t, ht⟩ : ∃ t, t = ((s.put FLN_RX_EQ.ctle 0 n).put FLN_RX_EQ.dfe1 0 n).put FLN_STATUS.adapt_done 0 n := ⟨_, rfl⟩
  have hget (g : Fld) : (s.adaptRestart n).get g n = t.get g n := by
    rw [State.adaptRestart, if_pos ⟨hstate, by simp [hfreeze]⟩, ht]
    rfl
  rw [State.laneState, hget, hget, hget, hget, ht]
  refine ⟨?_, ?_, ?_, ?_⟩
  · rw [State.get_put_apart (h := by decide), State.get_put_apart (h := by decide), State.get_put_apart (h := by decide)]
    exact hstate
  · rw [State.get_put_apart (h := by decide), State.get_put_apart (h := by decide), State.get_put_same]
    rfl
  · rw [State.get_put_apart (h := by decide), State.get_put_same]
    rfl
  · rw [State.get_put_same]
    rfl

/-- A bit of a mask reads as it is set, within the mask's width. -/
theorem State.testBit_setBit {f : Fld} {b : Nat} (v : Bool) (i j : Nat) (hb : b < f.width) :
    ((s.setBit f b v i j).get f i j).testBit b = v := by
  rw [State.setBit, State.get_put_same, Nat.testBit_mod_two_pow, decide_eq_true hb, Bool.true_and]
  cases v with
  | true => simp
  | false =>
    cases ho : (s.get f i j).testBit b with
    | false => simp [ho]
    | true =>
      have hquot := Nat.sub_mul_div (s.get f i j) (2 ^ b) 1
      rw [Nat.testBit_eq_decide_div_mod_eq, decide_eq_true_eq] at ho
      rw [Nat.mul_one] at hquot
      simp only [Bool.false_eq_true, if_false, if_true]
      rw [Nat.testBit_eq_decide_div_mod_eq, hquot, decide_eq_false_iff_not]
      omega

end Moves

/-- Settles O14: a write of FLN_CTRL stores the register, what depends on it follows, and the receive side moves by R51; each
other row of the table is an entry to the state that it names. -/
theorem frontLaneStates : Obligations.FrontLaneStates := by
  unfold Obligations.FrontLaneStates
  refine ⟨fun s n v ha hstate hen hrate hloop => ?enable, fun s n v ha hen => ?disable, fun s n v ha hrate => ?reserved,
    fun s n ha hstate hpresent => does_live rfl ha (State.lanePllLock_shows hstate hpresent),
    fun s n ha hstate => does_live rfl ha (State.signalDetect_shows hstate),
    fun s n ctle dfe1 ha hstate => does_live rfl ha (State.laneLockDone_shows hstate ctle.isLt dfe1.isLt),
    fun s n ha hstate => does_live rfl ha (State.lockTimeout_shows hstate),
    fun s n ha hstate => does_live rfl ha (State.signalLost_shows hstate),
    fun s n ha hstate => does_live rfl ha (State.cdrLost_shows hstate),
    fun s n ha hstate hfreeze => does_live rfl ha (State.adaptRestart_shows hstate hfreeze),
    fun s k present ha => does_live rfl ha (State.testBit_setBit present 0 0 k.isLt)⟩
  case enable =>
    refine does_live rfl ha ?_
    rw [State.writeLaneCtrl_eq, State.laneStored_of_codes hrate hloop]
    obtain ⟨t, ht⟩ : ∃ t, t = (s.wrReg 2 (0x100 * n.val) (0xFFFFFFFF#32).toNat v.toNat).laneFollows n.val
      ((s.wrReg 2 (0x100 * n.val) (0xFFFFFFFF#32).toNat v.toNat).get FLN_CTRL.rate n.val = 3 ∨
        (s.wrReg 2 (0x100 * n.val) (0xFFFFFFFF#32).toNat v.toNat).get FLN_CTRL.loopback n.val = 3) := ⟨_, rfl⟩
    have hctrl {f : Fld} (hf : f ∈ [FLN_CTRL.rx_en, FLN_CTRL.tx_en, FLN_CTRL.rate, FLN_CTRL.loopback])
        (hg : f.clearOf (FLN_ERR.bad_cfg :: followFields) = true) : t.get f n.val = bits v.toNat f.lsb f.width := by
      rw [ht, State.get_laneFollows hg, State.get_laneCtrl hf]
    have hoff : t.laneState n.val = 0 := by
      rw [State.laneState, ht, State.get_laneFollows (by decide)]
      exact State.laneState_laneCtrl.trans hstate
    have hrx : t.get FLN_CTRL.rx_en n.val = 1 := (hctrl (by decide) (by decide)).trans ((bits_one v 0).trans (by rw [hen]; rfl))
    rw [← ht, State.get_laneMoves (by decide), State.get_laneMoves (by decide), State.get_laneMoves (by decide)]
    refine ⟨?_, hrx, hctrl (by decide) (by decide), hctrl (by decide) (by decide)⟩
    rw [State.laneMoves, if_neg (by simp [State.bit, hrx]), if_pos hoff]
    exact State.laneState_enterLane (by decide)
  case disable =>
    refine does_live rfl ha ?_
    rw [State.writeLaneCtrl_eq]
    obtain ⟨t, ht⟩ : ∃ t, t = (s.laneStored n.val (0xFFFFFFFF#32).toNat v.toNat).laneFollows n.val
      ((s.wrReg 2 (0x100 * n.val) (0xFFFFFFFF#32).toNat v.toNat).get FLN_CTRL.rate n.val = 3 ∨
        (s.wrReg 2 (0x100 * n.val) (0xFFFFFFFF#32).toNat v.toNat).get FLN_CTRL.loopback n.val = 3) := ⟨_, rfl⟩
    have hrx : t.get FLN_CTRL.rx_en n.val = 0 := by
      rw [ht, State.get_laneFollows (by decide), State.get_laneStored (by decide)]
      exact (bits_one v 0).trans (by rw [hen]; rfl)
    rw [← ht, State.get_laneMoves (by decide)]
    refine ⟨?_, hrx⟩
    rw [State.laneMoves, if_pos (by simp [State.bit, hrx])]
    split
    · assumption
    · exact State.laneState_enterLane (by decide)
  case reserved =>
    refine does_live rfl ha ?_
    have hbad : (s.wrReg 2 (0x100 * n.val) (0xFFFFFFFF#32).toNat v.toNat).get FLN_CTRL.rate n.val = 3 ∨
        (s.wrReg 2 (0x100 * n.val) (0xFFFFFFFF#32).toNat v.toNat).get FLN_CTRL.loopback n.val = 3 :=
      .inl ((State.get_laneCtrl (by decide)).trans hrate)
    rw [State.writeLaneCtrl_eq, State.get_laneMoves (by decide), State.get_laneMoves (by decide), State.get_laneFollows (by decide),
      State.laneFollows_touches _ (by decide), if_pos hbad]
    exact ⟨State.rate_laneStored hrate, State.get_err_same (h := rfl) ..⟩

/-! # The age of an identity record, as its register and as its view (R76) -/

/-- An identity record of version 1. -/
def identityBytes : List (BitVec 8) := List.replicate 28 0 ++ [1, 0, 0, 0]

/-- The frame of it, as it comes up the slow channel. -/
def identityFrame : List (BitVec 8) :=
  0xA5 :: 1 :: 32 :: identityBytes ++ leBytes 2 (crc16 (1 :: 32 :: identityBytes))

/-- It has reached front lane 0, whose FLN_ID_AGE.ms holds 1. -/
def identified : State := (State.reset.put FLN_ID_AGE.ms 1 0).updLane 0 fun l => { l with rx := identityFrame }

theorem scan_identified : slowScan (identified.lane 0).rx = .good 1 identityBytes [] := by decide +kernel

theorem age_identified : (identified.slowFrame 0 (· == 1)).get FLN_ID_AGE.ms 0 = 1 := by decide +kernel

/-- Refutes O16: the age counts in the lane's internal state, from which a read of FLN_ID_AGE shows it (R76); the record does not
store it into the register. -/
theorem not_slowChannel : ¬ Obligations.SlowChannel := by
  unfold Obligations.SlowChannel
  intro h
  obtain ⟨hidentity, -⟩ := h
  obtain ⟨-, -, -, hage, -⟩ := does_elim (hidentity identified 0 identityBytes [] rfl scan_identified rfl (by decide +kernel))
    (exec_live rfl rfl rfl)
  exact absurd (age_identified.symm.trans hage) (by decide)

/-! # A word at a receiver that listens to its own transmitter (R75) -/

/-- Front lane 0 is READY and in near-end loopback; its facet holds no running plane. -/
def loopedBack : State := (State.reset.put FLN_STATUS.state 4 0).put FLN_CTRL.loopback 1 0

theorem discards_loopedBack : (loopedBack.laneWord 0 0).get FLN_DISCARD_CNT.count 0 = 0 := by decide +kernel

/-- Refutes O17: in near-end loopback the receiver takes no word from FRX (R75), so none is discarded and counted. -/
theorem not_downlinkSlot : ¬ Obligations.DownlinkSlot := by
  unfold Obligations.DownlinkSlot
  intro h
  obtain ⟨-, -, -, -, hdiscard, -⟩ := h
  obtain ⟨hcount, -⟩ := does_elim (hdiscard loopedBack 0 0 rfl (by decide +kernel) (by decide +kernel) (by decide +kernel))
    (exec_live rfl rfl rfl)
  exact absurd (discards_loopedBack.symm.trans hcount) (by decide +kernel)

/-! # The effects of fast commands (R32, R37 to R42, R644) -/

/-- The registers of Gnomon's page that a cancelled action writes. -/
def cancelFields : List Fld := [GNO_ERR.named_cancelled, GNO_NAMED_USED.entries, GNO_DISCONT.count]

/-- From `s` to `t` only actions have been cancelled, as far as Gnomon's numbering and its words go. -/
structure GnoCancels (s t : State) : Prop where
  get : ∀ f : Fld, f.gnoApart cancelFields = true → ∀ i j, t.get f i j = s.get f i j
  segs : t.gno.segs = s.gno.segs
  effect : t.gno.effect = s.gno.effect

namespace GnoCancels

variable {s t u : State}

theorem refl : GnoCancels s s := ⟨fun _ _ _ _ => rfl, rfl, rfl⟩

theorem trans (h : GnoCancels s t) (k : GnoCancels t u) : GnoCancels s u :=
  ⟨fun f hf i j => (k.get f hf i j).trans (h.get f hf i j), k.segs.trans h.segs, k.effect.trans h.effect⟩

/-- What leaves Gnomon alone cancels nothing of it. -/
theorem of_only {A : Nat} (h : GnoCancels s t) (k : Only A t u) (hA : A.testBit 1 = false ∧ A.testBit 40 = false) : GnoCancels s u :=
  h.trans ⟨fun _ hf i j => k.get_gno hf hA.1 i j, by rw [k.gno hA.2], by rw [k.gno hA.2]⟩

theorem apart {f g : Fld} (hf : f ∈ cancelFields ∨ f.page ≠ 1) (hg : g.gnoApart cancelFields = true) : f.apart g = true := by
  simp only [Fld.gnoApart, Bool.and_eq_true, List.all_eq_true, beq_iff_eq] at hg
  obtain ⟨hpage, hall⟩ := hg
  rcases hf with hf | hf
  · exact hall f hf
  · simp [Fld.apart, hpage, hf]

theorem put {f : Fld} (h : GnoCancels s t) (hf : f ∈ cancelFields ∨ f.page ≠ 1) (v i j : Nat) : GnoCancels s (t.put f v i j) :=
  h.trans ⟨fun _ hg _ _ => State.get_put_apart _ _ _ _ _ _ (apart hf hg), rfl, rfl⟩

theorem err {f : Fld} (h : GnoCancels s t) (hf : f ∈ cancelFields ∨ f.page ≠ 1) (i inst detail j : Nat) :
    GnoCancels s (t.err f i inst detail j) :=
  h.trans ⟨fun _ hg _ _ => State.get_err_apart _ _ _ _ _ _ _ (apart hf hg), rfl, rfl⟩

theorem disarm (h : GnoCancels s t) (o : Owner) : GnoCancels s (t.disarm o) :=
  h.trans ⟨fun _ hg _ _ => State.get_put_apart _ _ _ _ _ _ (apart (.inl (by decide)) hg), rfl, rfl⟩

theorem cancelNamed (h : GnoCancels s t) (o : Owner) : GnoCancels s (t.cancelNamed o) := by
  have herr := h.err (f := GNO_ERR.named_cancelled) (.inl (by decide)) 0 noInst 0 0
  cases o with
  | plan => exact herr
  | facet f => exact ((herr.disarm _).put (.inr (by decide)) _ _ _).err (.inr (by decide)) _ _ _ _
  | prism => exact (herr.disarm _).of_only (State.prismCancelled_only Only.rfl Covers.refl) (by decide)
  | exchange => exact ((herr.disarm _).put (.inr (by decide)) _ _ _).err (.inr (by decide)) _ _ _ _
  | cset n =>
    exact ((((herr.disarm _).put (.inr (by decide)) _ _ _).put (.inr (by decide)) _ _ _).err (.inr (by decide)) _ _ _ _).of_only
      (State.tablesSettle_only Only.rfl Covers.refl) (by decide)
  | epoch => exact (herr.disarm _).of_only (State.epochCancelled_only Only.rfl Covers.refl) (by decide)
  | power => exact herr

theorem cancelAllNamed (h : GnoCancels s t) : GnoCancels s t.cancelAllNamed := by
  unfold State.cancelAllNamed
  generalize t.gno.named = l
  induction l generalizing t with
  | nil => exact h
  | cons n l ih => exact ih (h.cancelNamed n.owner)

theorem inc {f : Fld} (h : GnoCancels s t) (hf : f ∈ cancelFields ∨ f.page ≠ 1) (i j : Nat) : GnoCancels s (t.inc f i j) := by
  obtain ⟨csr, counts, heq⟩ := State.inc_parts t f i j
  exact h.trans ⟨fun _ hg _ _ => State.get_inc_apart _ _ _ _ _ (apart hf hg), by rw [heq], by rw [heq]⟩

theorem discontinuity (h : GnoCancels s t) : GnoCancels s t.discontinuity :=
  ((h.inc (.inl (by decide)) _ _).cancelAllNamed).of_only (State.worgaDiscontinuity_only Only.rfl Covers.refl) (by decide)

end GnoCancels

section Numbering

variable {s : State} {w : FcWord} {origin mark : Nat}

/-- The crossing tagged last taking its place keeps the numberings, the effect and the lock state (R32). -/
theorem State.renumberLast_keeps : (s.renumberLast origin).gno.segs = s.gno.segs ∧
    (s.renumberLast origin).gno.effect = s.gno.effect ∧ (s.renumberLast origin).gnoState = s.gnoState := by
  unfold State.renumberLast
  by_cases horigin : origin ≠ s.lastSerial
  · rw [if_pos horigin]
    exact ⟨rfl, rfl, rfl⟩
  · rw [if_neg horigin]
    cases s.gno.tags with
    | nil => exact ⟨rfl, rfl, rfl⟩
    | cons g gs =>
      refine ⟨rfl, rfl, ?_⟩
      simp (disch := decide) only [State.publishTag, if_true, State.gnoState, State.get_put_apart]
      rfl

/-- The length and the offset that waited come into force (R30). -/
def State.lengthTaken (s : State) : State := (s.updGno fun g => { g with oldLen := none, oldOffset := none }).publishShadow

/-- The numbering whose index-0 crossing is `origin` (R32). -/
def State.segAt (s : State) (origin : Nat) : Seg :=
  { start := if origin = s.lastSerial then origin else s.gno.nextSerial, zero := origin, length := s.orbitLen, orbit := s.gno.orbit }

/-- The timeline with that numbering. -/
def State.segTaken (s : State) (origin : Nat) : State :=
  (s.updGno fun g => { g with segs := (s.segAt origin :: g.segs).take 512 }).renumberLast origin

/-- What shows that the timeline is numbered. -/
def State.showsNumbered (s : State) : State :=
  ((if s.gnoState = 2 then s.put GNO_STATUS.state 3 else s).put GNO_STATUS.numbered 1).put GNO_STATUS.resync_pending 0

theorem State.number_eq : s.number mark =
    (s.lengthTaken.segTaken ((mark + 2 + s.lengthTaken.tagOffset) % 2 ^ 64)).showsNumbered.prismNumbering.discontinuity := rfl

theorem State.get_lengthTaken {g : Fld} (hg : GNO_STATUS.shadow_pending.apart g = true) (i j : Nat) :
    s.lengthTaken.get g i j = s.get g i j := by
  rw [State.lengthTaken, State.publishShadow, State.get_put_apart (h := hg)]
  rfl

theorem State.segTaken_keeps : (s.segTaken origin).gno.segs.head? = some (s.segAt origin) ∧
    (s.segTaken origin).gno.effect = s.gno.effect ∧ (s.segTaken origin).gnoState = s.gnoState := by
  obtain ⟨hsegs, heffect, hstate⟩ := State.renumberLast_keeps
    (s := s.updGno fun g => { g with segs := (s.segAt origin :: g.segs).take 512 }) (origin := origin)
  exact ⟨congrArg List.head? hsegs, heffect, hstate⟩

/-- A marker numbers a timeline in UNNUMBERED (R32). -/
theorem State.number_shows (hstate : s.gnoState = 2) :
    (s.number mark).gnoState = 3 ∧ (s.number mark).get GNO_STATUS.numbered = 1 ∧ (s.number mark).get GNO_STATUS.resync_pending = 0 ∧
      (s.number mark).gno.effect = s.gno.effect ∧
      (s.number mark).gno.segs.head?.map (·.zero) = some ((mark + 2 + s.get GNO_TAG_OFFSET.offset) % 2 ^ 64) ∧
      (s.number mark).gno.segs.head?.map (·.length) = some (s.get GNO_ORBIT_LEN.length) := by
  have hoffset : s.lengthTaken.tagOffset = s.get GNO_TAG_OFFSET.offset := State.get_lengthTaken (by decide) 0 0
  have hlen : s.lengthTaken.orbitLen = s.get GNO_ORBIT_LEN.length := State.get_lengthTaken (by decide) 0 0
  obtain ⟨hhead, heffect, hrun⟩ := State.segTaken_keeps (s := s.lengthTaken)
    (origin := (mark + 2 + s.lengthTaken.tagOffset) % 2 ^ 64)
  have hrun2 := hrun.trans ((State.get_lengthTaken (g := GNO_STATUS.state) (by decide) 0 0).trans hstate)
  have hcancels : GnoCancels (s.lengthTaken.segTaken ((mark + 2 + s.lengthTaken.tagOffset) % 2 ^ 64)).showsNumbered (s.number mark) := by
    rw [State.number_eq]
    exact (GnoCancels.refl.of_only (State.prismNumbering_only Only.rfl Covers.refl) (by decide)).discontinuity
  have hsegs : (s.number mark).gno.segs.head? = some (s.lengthTaken.segAt ((mark + 2 + s.lengthTaken.tagOffset) % 2 ^ 64)) := by
    rw [hcancels.segs, State.showsNumbered, if_pos hrun2]
    exact hhead
  rw [State.gnoState, hcancels.get _ (by decide), hcancels.get _ (by decide), hcancels.get _ (by decide), hcancels.effect, hsegs,
    State.showsNumbered, if_pos hrun2]
  refine ⟨?_, ?_, State.get_put_same .., heffect, ?_, ?_⟩
  · rw [State.get_put_apart (h := by decide), State.get_put_apart (h := by decide), State.get_put_same]
    rfl
  · rw [State.get_put_apart (h := by decide), State.get_put_same]
    rfl
  · rw [Option.map_some, State.segAt, hoffset]
  · rw [Option.map_some, State.segAt, hlen]

/-- The registers of a word that has taken effect (R44). -/
theorem State.tookEffect_touches : Touches [GNO_FC_LAST.word, GNO_FC_LAST.serial_lo] s (s.tookEffect w) :=
  ((Touches.refl.of_csr rfl).put (by decide) _ _ _).put (by decide) _ _ _

/-- A marker in UNNUMBERED numbers the timeline. -/
theorem State.orbitMark_shows (heffect : s.effectOf 1 = some w) (hstate : s.gnoState = 2) :
    s.orbitMark = (s.tookEffect w).number w.serial ∧ (s.tookEffect w).gnoState = 2 := by
  have htook : (s.tookEffect w).gnoState = 2 := (State.tookEffect_touches _ (by decide) 0 0).trans hstate
  rw [State.orbitMark, heffect]
  exact ⟨if_pos (.inl htook), htook⟩

end Numbering

section Accepts

variable {s : State} {serial src : Nat} {g : Tag}

/-- A tag found for a crossing names it and is numbered. -/
theorem tag_of_find {tags : List Tag} (h : tags.find? (fun q => q.serial = serial ∧ q.numbered) = some g) :
    g.serial = serial ∧ g.numbered = true := by
  simpa using List.find?_some h

/-- A crossing without an event takes the next event number, and the counter counts on (R41, R42). -/
theorem State.accept_new (htag : s.tagging = true) (hage : serialAge serial s.lastSerial ≤ 4096)
    (hfind : s.gno.tags.find? (fun q => q.serial = serial ∧ q.numbered) = some g) (hnew : g.event = none) :
    (s.accept serial src).gno = { s.gno with
      tags := s.gno.tags.map fun q => if q.serial = serial then { g with event := some s.gno.event, sources := g.sources ||| 2 ^ src } else q,
      event := (s.gno.event + 1) % 2 ^ 48 } := by
  rw [State.accept]
  simp only [htag, hage, and_self, if_true, hfind, hnew, Option.isNone_none, Option.getD_none, Bool.true_and]
  rw [(State.eventTaken_only Only.rfl Covers.refl).gno (by decide)]
  split <;> rfl

/-- The crossing shows its event. -/
theorem find_accepted {tags : List Tag} {f : Tag} (hfind : tags.find? (fun q => q.serial = serial ∧ q.numbered) = some g)
    (hf : f.serial = serial ∧ f.numbered = true) :
    (tags.map fun q => if q.serial = serial then f else q).find? (fun q => q.serial = serial ∧ q.numbered) = some f := by
  induction tags with
  | nil => cases hfind
  | cons q tags ih =>
    rw [List.map_cons]
    by_cases hq : q.serial = serial
    · rw [if_pos hq, List.find?_cons_of_pos (by simp [hf])]
    · rw [if_neg hq, List.find?_cons_of_neg (by simp [hq])]
      rw [List.find?_cons_of_neg (by simp [hq])] at hfind
      exact ih hfind

theorem State.tagging_tookEffect {w : FcWord} : (s.tookEffect w).tagging = s.tagging := by
  rw [State.tagging, State.tagging, State.gnoState, State.gnoState, State.tookEffect_touches _ (by decide)]

/-- The accept that stands for its effect (R40). -/
theorem State.externalAccept_shows {w : FcWord} (heffect : s.effectOf 2 = some w) (htag : s.tagging = true)
    (hage : serialAge w.target s.lastSerial ≤ 4096)
    (hfind : s.gno.tags.find? (fun q => q.serial = w.target ∧ q.numbered) = some g) (hnew : g.event = none) :
    s.externalAccept.gno.event = (s.gno.event + 1) % 2 ^ 48 ∧ s.externalAccept.gno.effect = none ∧
      (s.externalAccept.gno.tags.find? fun q => q.serial = w.target ∧ q.numbered).map (fun q => q.event) = some (some s.gno.event) := by
  have heq : s.externalAccept = (s.tookEffect w).accept w.target 0 := by rw [State.externalAccept, heffect]
  have hgno := State.accept_new (s := s.tookEffect w) (src := 0) (State.tagging_tookEffect.trans htag) hage hfind hnew
  obtain ⟨hserial, hnum⟩ := tag_of_find hfind
  rw [heq, hgno]
  refine ⟨rfl, rfl, ?_⟩
  exact (congrArg (Option.map fun q : Tag => q.event) (find_accepted
    (f := { g with event := some s.gno.event, sources := g.sources ||| 2 ^ 0 }) hfind ⟨hserial, hnum⟩)).trans rfl

/-- The one decision that stands for its effect (R39, R40). -/
theorem State.internalAccept_shows {c : Nat} (hdue : s.gno.acceptsDue = [c]) (heffect : s.gno.effect = none) (hsettled : s.gno.due = [])
    (htag : s.tagging = true) (hage : serialAge c s.lastSerial ≤ 4096)
    (hfind : s.gno.tags.find? (fun q => q.serial = c ∧ q.numbered) = some g) (hnew : g.event = none) :
    s.internalAccept.gno.event = (s.gno.event + 1) % 2 ^ 48 ∧ s.internalAccept.gno.acceptsDue = [] := by
  have hbarrier : s.barrierSettled = true := by rw [State.barrierSettled, hsettled]; rfl
  have heq : s.internalAccept = (s.updGno fun g => { g with acceptsDue := g.acceptsDue.erase c }).accept c 1 := by
    rw [State.internalAccept, hdue]
    simp [hbarrier, heffect]
  have hgno := State.accept_new (s := s.updGno fun g => { g with acceptsDue := g.acceptsDue.erase c }) (src := 1) htag hage hfind hnew
  rw [heq, hgno]
  exact ⟨rfl, by simp [State.updGno, hdue]⟩

end Accepts

section Resets

variable {s : State} {w : FcWord}

theorem State.eventReset_shows (heffect : s.effectOf 3 = some w) :
    s.eventReset.gno.event = 0 ∧ s.eventReset.get GNO_EVENT_LO.event = 0 ∧ s.eventReset.gno.effect = none ∧
      s.eventReset.get GNO_FC_LAST.word = w.word % 65536 := by
  have heq : s.eventReset = ((s.tookEffect w).updGno fun g => { g with event := 0 }).publishEvent := by
    rw [State.eventReset, heffect]
  rw [heq]
  refine ⟨rfl, (State.get_put_same ..).trans rfl, rfl, ?_⟩
  rw [State.publishEvent, State.get_put_apart (h := by decide)]
  exact (State.get_put_apart (h := by decide) ..).trans (State.get_put_same ..)

theorem State.orbitReset_shows (heffect : s.effectOf 4 = some w) :
    s.orbitReset.bit GNO_STATUS.orbit_reset_pending = true ∧ s.orbitReset.gno.orbit = s.gno.orbit ∧ s.orbitReset.gno.effect = none := by
  rw [State.orbitReset, heffect]
  dsimp only
  split
  · next harmed => exact ⟨harmed, rfl, rfl⟩
  · exact ⟨(State.bit_put_same ..).trans rfl, rfl, rfl⟩

/-- The armed reset acts on the crossing tagged last, which has index 0 (R644). -/
theorem State.orbitResetAct_shows (hready : s.orbitResetReady = true) :
    s.orbitResetAct.gno.orbit = 0 ∧ s.orbitResetAct.bit GNO_STATUS.orbit_reset_pending = false ∧
      s.orbitResetAct.get GNO_ORBIT_LO.orbit = 0 ∧ s.orbitResetAct.gno.orDiscont = true := by
  rw [State.orbitResetAct, if_neg (not_not.mpr hready)]
  rw [State.orbitResetReady] at hready
  cases htags : s.gno.tags with
  | nil => simp [htags] at hready
  | cons g gs =>
    have hnum : g.numbered = true := by
      simp only [htags, Bool.and_eq_true] at hready
      exact hready.2.1.1
    dsimp only
    simp only [State.publishTag, hnum, if_true]
    refine ⟨rfl, ?_, (State.get_put_same ..).trans rfl, rfl⟩
    rw [State.bit_put_apart (h := by decide), State.bit_put_apart (h := by decide), State.bit_put_apart (h := by decide),
      State.bit_put_apart (h := by decide), State.bit_put_same]
    rfl

theorem State.resync_shows (heffect : s.effectOf 5 = some w) :
    s.resync.bit GNO_STATUS.resync_pending = true ∧ s.resync.gno.effect = none := by
  rw [State.resync, heffect]
  exact ⟨(State.bit_put_same ..).trans rfl, rfl⟩

theorem State.forward_eq {code : Nat} (heffect : s.effectOf code = some w) :
    s.forward code = (s.tookEffect w).seqFastCommand code (w.word / 256 % 256) := by
  rw [State.forward, heffect]
  dsimp only
  rw [bits, Nat.shiftRight_eq_div_pow, show (2 : Nat) ^ 8 = 256 from rfl]

end Resets

/-- Settles O4: a marker numbers the timeline, an accept gives its crossing the event number, and each other command writes what
its code names. -/
theorem fastCommandEffects : Obligations.FastCommandEffects := by
  unfold Obligations.FastCommandEffects
  refine ⟨fun s w ha heffect hstate => ?mark,
    fun s w g ha heffect htag hage hfind hnew => does_live rfl ha (State.externalAccept_shows heffect htag hage hfind hnew),
    fun s c g ha hdue heffect hsettled htag hage hfind hnew =>
      does_live rfl ha (State.internalAccept_shows hdue heffect hsettled htag hage hfind hnew),
    fun s w ha heffect => does_live rfl ha (State.eventReset_shows heffect),
    fun s w ha heffect => does_live rfl ha (State.orbitReset_shows heffect),
    fun s ha hready => does_live rfl ha (State.orbitResetAct_shows hready),
    fun s w ha heffect => does_live rfl ha (State.resync_shows heffect),
    fun s w ha heffect => exec_live rfl ha (State.forward_eq heffect),
    fun s n w ha heffect => exec_live rfl ha (State.forward_eq heffect)⟩
  case mark =>
    refine does_live rfl ha ?_
    obtain ⟨hmark, htook⟩ := State.orbitMark_shows heffect hstate
    obtain ⟨hrun, hnum, hresync, hnone, hzero, hlen⟩ := State.number_shows (mark := w.serial) htook
    rw [State.tookEffect_touches _ (by decide)] at hzero hlen
    rw [hmark]
    exact ⟨hrun, hnum, hresync, hnone, hzero, hlen⟩

/-! # The apply of a Prism configuration (R133, R134, R144, R145) -/

section Apply

variable {s : State}

/-- A configuration that passes every check is armed for its barrier (R133). -/
theorem State.prismApply_passes (hcheck : (s.prismCheck s.prismCfg).1 = 0) (hname : s.bit PRI_APPLY_WHEN_HI.named = false) :
    s.prismApply.pri.armed = some s.prismCfg ∧ s.prismApply.get PRI_STATUS.apply_armed = 1 ∧ s.prismApply.get PRI_CFG_ERR.code = 0 ∧
      s.prismApply.armed .prism = true := by
  rw [State.prismApply, State.whenOf]
  simp only [hcheck, hname, State.arm, Bool.false_eq_true, ne_eq, not_true, if_false]
  refine ⟨rfl, ?_, ?_, ?_⟩
  · exact (State.get_put_same ..).trans rfl
  · exact (State.get_put_apart (h := by decide) ..).trans ((State.get_put_same ..).trans rfl)
  · simp [State.armed, State.updGno]

/-- One that fails a check is refused with its code (R144). -/
theorem State.prismApply_fails (hcheck : (s.prismCheck s.prismCfg).1 ≠ 0) :
    s.prismApply.pri = s.pri ∧ s.prismApply.get PRI_CFG_ERR.code = (s.prismCheck s.prismCfg).1 % 256 ∧
      s.prismApply.get PRI_ERR.cfg_refused = 1 := by
  have hrefuse : s.prismApply = s.prismRefuse (s.prismCheck s.prismCfg).1 (s.prismCheck s.prismCfg).2 := by
    unfold State.prismApply
    generalize s.prismCfg = c at hcheck ⊢
    dsimp only
    exact if_pos hcheck
  rw [hrefuse, State.prismRefuse]
  exact ⟨rfl, (State.get_err_apart (h := by decide) ..).trans (State.get_put_same ..), State.get_err_same (h := rfl) ..⟩

/-- An abort before the barrier takes the apply back (R133). -/
theorem State.prismAbort_shows (harmed : s.pri.armed.isSome = true) (hdue : s.gno.due.contains .prism = false) :
    s.prismAbort.pri.armed = none ∧ s.prismAbort.get PRI_STATUS.apply_armed = 0 ∧ s.prismAbort.get PRI_CFG_ERR.code = 12 ∧
      s.prismAbort.armed .prism = false ∧ s.prismAbort.get PRI_ERR.aborted = 1 := by
  rw [State.prismAbort, if_neg (by rw [hdue]; simp), if_pos harmed]
  refine ⟨rfl, ?_, ?_, ?_, State.get_err_same (h := rfl) ..⟩
  · rw [State.get_err_apart (h := by decide), State.get_put_apart (h := by decide), State.get_put_same]
    rfl
  · rw [State.get_err_apart (h := by decide), State.get_put_same]
    rfl
  · have hgone : Owner.prism ∉ s.gno.due := by simpa using hdue
    simp [State.armed, State.err, State.updGno, State.disarm, hgone]

/-- Emptying the alignment buffers changes nothing else of Prism's own state. -/
theorem State.emptyBufs_pri : ∃ bufs, s.emptyBufs.pri = { s.pri with bufs := bufs } := by
  unfold State.emptyBufs
  generalize s.pri.bufs = l
  induction l generalizing s with
  | nil => exact ⟨_, rfl⟩
  | cons e l ih =>
    obtain ⟨bufs, h⟩ := ih (s := s.updBuf e.1 fun b => { b with contribs := [], current := .nothing })
    exact ⟨bufs, h.trans rfl⟩

/-- The commit as the state of Prism that it makes, the registers that show it, and the corner-turn after it (R133, R134). -/
theorem State.prismApplyCommit_eq {c : PrismCfg} (harmed : s.pri.armed = some c) (hfixed : s.pri.fixed = none)
    (hdue : s.isDue .prism = true) :
    ∃ (u : State) (n : Nat), s.prismApplyCommit =
        (((u.put PRI_STATUS.apply_armed 0).put PRI_STATUS.cfg_pending n).put PRI_STATUS.budget_fail 0).cornerTurn ∧
      u.pri.work = c ∧ u.pri.armed = none ∧ u.pri.applied = true := by
  have hcontains : s.gno.due.contains .prism = true := (Bool.and_eq_true_iff.mp hdue).1
  have hcfg : s.prismFixed = some c := by rw [State.prismFixed, if_pos hcontains, hfixed, harmed]; rfl
  obtain ⟨bufs, hbufs⟩ := State.emptyBufs_pri (s := s.tookDue .prism)
  have hnone : (s.tookDue .prism).emptyBufs.pri.fixed = none := by rw [hbufs]; exact hfixed
  rw [State.prismApplyCommit, hcfg]
  dsimp only
  rw [if_neg (not_not.mpr hdue)]
  generalize (s.tookDue .prism).emptyBufs = t at hnone ⊢
  rw [hnone]
  exact ⟨_, _, rfl, rfl, rfl, rfl⟩

/-- At its barrier the armed configuration becomes the working one (R134). -/
theorem State.prismApplyCommit_shows {c : PrismCfg} (harmed : s.pri.armed = some c) (hfixed : s.pri.fixed = none)
    (hdue : s.isDue .prism = true) :
    s.prismApplyCommit.pri.work = c ∧ s.prismApplyCommit.pri.armed = none ∧ s.prismApplyCommit.get PRI_STATUS.apply_armed = 0 ∧
      s.prismApplyCommit.pri.applied = true := by
  obtain ⟨u, n, heq, hwork, hnone, happlied⟩ := State.prismApplyCommit_eq harmed hfixed hdue
  have hturn (t : State) : t.cornerTurn.get PRI_STATUS.apply_armed = t.get PRI_STATUS.apply_armed := rfl
  rw [heq, hturn, State.get_put_apart (h := by decide), State.get_put_apart (h := by decide), State.get_put_same]
  exact ⟨hwork, hnone, rfl, happlied⟩

/-- Every lane's least slack starts anew (R145). -/
theorem State.slackReset_shows {n : Nat} (hn : n < 224) : s.slackReset.get PRI_LANE_SLACK.min n = 0xFFFF := by
  have hfirst (m : Nat) (hm : m ≤ 224) (hin : n < m) :
      (forN m s fun n s => s.put PRI_LANE_SLACK.min 0xFFFF n).get PRI_LANE_SLACK.min n = 0xFFFF := by
    induction m with
    | zero => omega
    | succ m ih =>
      rw [forN]
      by_cases hnm : n = m
      · subst hnm
        exact (State.get_put_same ..).trans rfl
      · rw [State.get_put_ne (h := Fld.key_ne_of_first (by decide) (show m < 224 by omega) (show n < 224 by omega) (by decide) hnm)]
        exact ih (by omega) (by omega)
  exact hfirst 224 (Nat.le_refl _) hn

end Apply

/-- Settles O20: an apply passes or fails its checks, an abort takes back what is armed, and the commit at the barrier makes it the
working configuration. -/
theorem prismCommands : Obligations.PrismCommands := by
  unfold Obligations.PrismCommands
  refine ⟨fun s ha hcheck hname => does_live rfl ha (State.prismApply_passes hcheck hname),
    fun s ha hcheck => does_live rfl ha (State.prismApply_fails hcheck),
    fun s ha harmed hdue => does_live rfl ha (State.prismAbort_shows harmed hdue),
    fun s c ha harmed hfixed hdue => ?commit, fun s ha => does_live rfl ha fun n hn => State.slackReset_shows hn⟩
  case commit =>
    refine does_live rfl ha ?_
    have hopen := State.openIfReady_only (Only.rfl (s := s.prismApplyCommit)) Covers.refl
    rw [hopen.pri (by decide), hopen.get (by decide)]
    exact State.prismApplyCommit_shows harmed hfixed hdue

/-! # A wide halo entry that is disabled while a link's window does not fit (R156, R297) -/

/-- ARR_WHALO_0 is enabled, and data link 0 is in use with a slot too short for any halo window. -/
def shortSlot : State := ((State.reset.put GNO_PERIOD_MIN.period_fs 1).put WOR_LINK_CFG.enable 1 0).put ARR_WHALO.enable 1 0

theorem addr_shortSlot : (shortSlot.writeWhaloChecked 0 (0xFFFFFFFF#32).toNat (5#32).toNat).get ARR_WHALO.addr 0 = 0 := by
  decide +kernel

/-- Refutes O5: the write changes the number of enabled entries, and R297's check refuses it for the link whose window does not fit,
though the entry is disabled. -/
theorem not_islandCommands : ¬ Obligations.IslandCommands := by
  unfold Obligations.IslandCommands
  intro h
  obtain ⟨-, -, -, -, -, -, -, -, hwhalo, -⟩ := h
  obtain ⟨haddr, -⟩ := does_elim (hwhalo shortSlot 0 5#32 rfl (by decide) (by decide)) (exec_live rfl rfl rfl)
  exact absurd (addr_shortSlot.symm.trans haddr) (by decide)

/-! # Arrivals, faults, clearing and reloads of the islands (R161 to R175) -/

section Islands

variable {s : State} {i : Nat}

@[simp] theorem State.isl_updIsl (f : Island → Island) : (s.updIsl i f).isl i = f (s.isl i) := Sparse.get_upd_same _ _ _ _

/-- Showing the islands' states touches these registers. -/
def shownFields : List Fld := [ARR_STATUS.service, BCN_STATUS.contrib, ARR_STATUS.executing]

/-- The end of a reload touches these registers. -/
def stopFields : List Fld :=
  [ARR_ISL_RELOAD_STATUS.busy, ARR_ISL_RELOAD_STATUS.planes_left, ARR_ISL_STATUS.epoch_valid, ARR_ISL_ERR.reload_aborted]

/-- An entry to FAULT touches these registers, beside the state and the reason. -/
def faultFields : List Fld := [ARR_ISL_STATUS.warm_left, TAR_ISL_VMIN.stale] ++ stopFields ++ shownFields

theorem Touches.stopReload {l : List Fld} {t : State} (h : Touches l s t) (hl : ∀ f ∈ stopFields, f ∈ l) : Touches l s (t.stopReload i) := by
  unfold State.stopReload
  cases (t.isl i).reload with
  | none => exact h
  | some r =>
    exact ((((h.of_csr rfl).put (hl _ (by decide)) _ _ _).put (hl _ (by decide)) _ _ _).put (hl _ (by decide)) _ _ _).err
      (hl _ (by decide)) i i 0 0

theorem Touches.updIsl {l : List Fld} {t : State} (h : Touches l s t) (k : Nat) (f : Island → Island) : Touches l s (t.updIsl k f) :=
  h.of_csr rfl

theorem Touches.publishArr {l : List Fld} {t : State} (h : Touches l s t) (hl : ∀ f ∈ shownFields, f ∈ l) : Touches l s t.publishArr :=
  ((h.put (hl _ (by decide)) _ _ _).put (hl _ (by decide)) _ _ _).put (hl _ (by decide)) _ _ _

/-- A fall to FAULT shows the state and the reason, and clears what R168 and R174 name. -/
theorem State.enterIsl_fault (reason : Nat) :
    Touches faultFields ((s.put ARR_ISL_STATUS.state 5 i).put ARR_ISL_STATUS.reason reason i) (s.enterIsl i 5 (some reason)) := by
  have hput : Touches faultFields ((s.put ARR_ISL_STATUS.state 5 i).put ARR_ISL_STATUS.reason reason i)
      (((s.put ARR_ISL_STATUS.state 5 i).put ARR_ISL_STATUS.reason reason i).put ARR_ISL_STATUS.epoch_valid 0 i |>.stopReload i) :=
    (Touches.refl.put (by decide) _ _ _).stopReload (by decide)
  unfold State.enterIsl
  simp only [show inUse 5 = false from rfl, show executing 5 = false from rfl, Bool.false_eq_true, if_false, or_true, if_true,
    show ¬ (5 = 3) by decide, show ¬ (5 = 1) by decide, show ¬ (5 = 2) by decide]
  generalize State.stopReload _ i = t at hput ⊢
  refine .publishArr (.put (.updIsl (hput.put ?_ _ _ _) _ _) ?_ _ _ _) ?_ <;> decide

theorem State.enterIsl_fault_shows {reason : Nat} (hr : reason < 16) :
    (s.enterIsl i 5 (some reason)).islState i = 5 ∧ (s.enterIsl i 5 (some reason)).get ARR_ISL_STATUS.reason i = reason := by
  rw [State.islState, State.enterIsl_fault _ _ (by decide), State.enterIsl_fault _ _ (by decide), State.get_put_apart (h := by decide),
    State.get_put_same, State.get_put_of_lt _ _ _ hr]
  exact ⟨rfl, rfl⟩

/-- The last arrival touches these registers. -/
def arrivalFields : List Fld := [ARR_BAR_SPREAD.ps, ARR_BAR_SPREAD_MAX.ps, ARR_ERR.bar_late, ARR_BAR_LATE_CNT.count]

theorem State.arrivals_touches : Touches arrivalFields s s.arrivals := by
  have hspread : Touches arrivalFields s s.recordSpread :=
    (Touches.refl.put (by decide) _ _ _).trans fun g hg k l => State.get_raiseTo_apart _ _ _ _ _ _ (Touches.apart (by decide) hg)
  exact .ite .refl (.ite ((hspread.err (by decide) _ _ _ _).inc (by decide) _ _) hspread)

theorem State.arr_arrivals : s.arrivals.arr = s.arr := by
  have hspread : s.recordSpread.arr = s.arr := rfl
  unfold State.arrivals
  split
  · rfl
  · dsimp only
    split
    · obtain ⟨_, _, h⟩ := State.inc_parts (s.recordSpread.err ARR_ERR.bar_late) ARR_BAR_LATE_CNT.count 0 0
      rw [h]
      exact hspread
    · exact hspread

theorem State.awaited_of (hexec : executing (s.islState i) = true) (hnone : Sparse.get 0 s.arr.arrived i = 0) : s.awaited i = true := by
  rw [State.awaited, hexec, hnone]
  rfl

/-- An arrival is recorded (R162). -/
theorem State.islandArrive_shows {t : Nat} {late : Bool} (hwait : s.awaited i = true) :
    Sparse.get 0 (s.islandArrive i t late).arr.arrived i = t + 1 ∧ (s.islandArrive i t late).arr.late = (s.arr.late || late) := by
  rw [State.islandArrive, if_neg (not_not.mpr hwait), State.arr_arrivals]
  exact ⟨Sparse.get_set_same 0 s.arr.arrived i (t + 1), rfl⟩

/-- An island that has not come falls to FAULT (R164). -/
theorem State.barrierTimeout_shows (hwait : s.awaited i = true) :
    (s.barrierTimeout i).islState i = 5 ∧ (s.barrierTimeout i).get ARR_ISL_STATUS.reason i = 3 ∧
      (s.barrierTimeout i).get ARR_ERR.bar_timeout = 1 ∧ (s.barrierTimeout i).get ARR_ISL_ERR.bar_timeout i = 1 := by
  rw [State.barrierTimeout, if_neg (not_not.mpr hwait)]
  dsimp only
  obtain ⟨u, hu⟩ : ∃ u : State, u = { s with arr := { s.arr with timedOut := true } } := ⟨_, rfl⟩
  rw [← hu]
  obtain ⟨hstate, hreason⟩ := State.enterIsl_fault_shows (s := u) (i := i) (reason := 3) (by decide)
  have hkeep {g : Fld} (hg : g.clearOf (ARR_BAR_TMO_CNT.count :: ARR_ISL_ERR.bar_timeout :: ARR_ERR.bar_timeout :: arrivalFields) = true) :
      (((((u.enterIsl i 5 (some 3)).err ARR_ERR.bar_timeout 0 i).islErr ARR_ISL_ERR.bar_timeout i).inc ARR_BAR_TMO_CNT.count).arrivals).get
        g i = (u.enterIsl i 5 (some 3)).get g i := by
    rw [State.arrivals_touches g (by simp only [Fld.clearOf, List.all_cons, Bool.and_eq_true] at hg ⊢; exact hg.2.2.2),
      State.get_inc_apart (h := Touches.apart (by decide) hg), State.islErr, State.get_err_apart (h := Touches.apart (by decide) hg),
      State.get_err_apart (h := Touches.apart (by decide) hg)]
  refine ⟨(hkeep (by decide)).trans hstate, (hkeep (by decide)).trans hreason, ?_, ?_⟩
  · rw [State.arrivals_touches _ (by decide), State.get_inc_apart (h := by decide), State.islErr, State.get_err_apart (h := by decide)]
    exact State.get_err_same (h := rfl) ..
  · rw [State.arrivals_touches _ (by decide), State.get_inc_apart (h := by decide)]
    exact State.get_err_same (h := rfl) ..

end Islands

section Clocks

variable {s : State} {i p : Nat}

theorem State.clockRuns_of (h : executing (s.islState i) = true ∨ s.islState i = 1 ∧ (s.isl i).unlocked = false) :
    s.clockRuns i = true := by
  rw [State.clockRuns]
  rcases h with h | ⟨hstate, hlock⟩
  · rw [h]
    rfl
  · simp [hstate, hlock]

/-- The releases that wait name the slow island (R161). -/
def State.slowMarked (s : State) (i : Nat) : State :=
  { s with seq := { s.seq with releases := s.seq.releases.map fun r => { r with slow := r.slow ||| 2 ^ i } } }

/-- A period beyond the plan is shown and reported, and the slot is counted once (R161). -/
theorem State.islandClock_slow (hruns : s.clockRuns i = true) (hp : p < 0x100000)
    (hslow : 103 * s.get ARR_ISL_CLK_PLAN.period_fs i < 100 * p) :
    (s.islandClock i p).get ARR_ISL_ERR.clk_slow i = 1 ∧ (s.islandClock i p).get ARR_ISL_CLK_MEAS.period_fs i = p ∧
      ((s.isl i).slow = false →
        (s.islandClock i p).get ARR_ISL_SLOW_CNT.count i = min (2 ^ 32 - 1) (s.get ARR_ISL_SLOW_CNT.count i + 1)) := by
  obtain ⟨u, hu⟩ : ∃ u, u = ((s.put ARR_ISL_CLK_MEAS.period_fs (min p 0xFFFFF) i).islErr ARR_ISL_ERR.clk_slow i).slowMarked i := ⟨_, rfl⟩
  have hmarked (g : Fld) : u.get g i =
      ((s.put ARR_ISL_CLK_MEAS.period_fs (min p 0xFFFFF) i).islErr ARR_ISL_ERR.clk_slow i).get g i := by rw [hu]; rfl
  have herr : u.get ARR_ISL_ERR.clk_slow i = 1 := by rw [hmarked]; exact State.get_err_same (h := rfl) ..
  have hmeas : u.get ARR_ISL_CLK_MEAS.period_fs i = p := by
    rw [hmarked, State.islErr, State.get_err_apart (h := by decide),
      State.get_put_of_lt _ _ _ (show min p 0xFFFFF < 2 ^ 20 by omega)]
    omega
  have hcount : u.get ARR_ISL_SLOW_CNT.count i = s.get ARR_ISL_SLOW_CNT.count i := by
    rw [hmarked, State.islErr, State.get_err_apart (h := by decide), State.get_put_apart (h := by decide)]
  have hslowu : (u.isl i).slow = (s.isl i).slow := by rw [hu]; rfl
  have hplan : 103 * (s.put ARR_ISL_CLK_MEAS.period_fs (min p 0xFFFFF) i).get ARR_ISL_CLK_PLAN.period_fs i < 100 * p := by
    rw [State.get_put_apart (h := by decide)]
    exact hslow
  have heq : s.islandClock i p =
      if (u.isl i).slow then u else (u.updIsl i fun x => { x with slow := true }).inc ARR_ISL_SLOW_CNT.count i := by
    rw [State.islandClock, if_neg (not_not.mpr hruns), hu]
    exact if_pos hplan
  rw [heq]
  cases hs : (s.isl i).slow with
  | true =>
    rw [if_pos (hslowu.trans hs)]
    exact ⟨herr, hmeas, fun h => by cases h⟩
  | false =>
    rw [if_neg (by rw [Bool.not_eq_true]; exact hslowu.trans hs)]
    refine ⟨?_, ?_, fun _ => ?_⟩
    · exact (State.get_inc_apart (h := by decide) ..).trans herr
    · exact (State.get_inc_apart (h := by decide) ..).trans hmeas
    · rw [State.get_inc_rc _ _ _ rfl]
      exact congrArg (fun x => min (2 ^ 32 - 1) (x + 1)) hcount

/-- A period within the plan is shown alone. -/
theorem State.islandClock_within (hruns : s.clockRuns i = true) (hp : p < 0x100000)
    (hin : 100 * p ≤ 103 * s.get ARR_ISL_CLK_PLAN.period_fs i) : s.islandClock i p = s.put ARR_ISL_CLK_MEAS.period_fs p i := by
  rw [State.islandClock, if_neg (not_not.mpr hruns), show min p 0xFFFFF = p by omega]
  refine if_neg ?_
  rw [State.get_put_apart (h := by decide)]
  omega

/-- The loss of lock of an executing island sends it to FAULT (R161). -/
theorem State.clockUnlock_executing (hexec : executing (s.islState i) = true) :
    (s.clockUnlock i).islState i = 5 ∧ (s.clockUnlock i).get ARR_ISL_STATUS.reason i = 4 ∧
      (s.clockUnlock i).get ARR_ISL_ERR.clk_unlock i = 1 := by
  obtain ⟨hstate, hreason⟩ := State.enterIsl_fault_shows (s := s) (i := i) (reason := 4) (by decide)
  obtain ⟨u, hu⟩ : ∃ u, u = (s.enterIsl i 5 (some 4)).islErr ARR_ISL_ERR.clk_unlock i := ⟨_, rfl⟩
  have hustate : u.islState i = 5 := by
    rw [hu, State.islErr, State.islState, State.get_err_apart (h := by decide)]
    exact hstate
  have hureason : u.get ARR_ISL_STATUS.reason i = 4 := by rw [hu, State.islErr, State.get_err_apart (h := by decide), hreason]
  have huerr : u.get ARR_ISL_ERR.clk_unlock i = 1 := by rw [hu]; exact State.get_err_same (h := rfl) ..
  have hget (g : Fld) (hg : g.clearOf arrivalFields = true) : (s.clockUnlock i).get g i = u.get g i := by
    rw [State.clockUnlock, if_pos hexec]
    dsimp only
    rw [← hu]
    split
    · exact State.arrivals_touches g hg i 0
    · rfl
  exact ⟨(hget _ (by decide)).trans hustate, (hget _ (by decide)).trans hureason, (hget _ (by decide)).trans huerr⟩

/-- The loss of lock of a clearing island stops the clearing (R161). -/
theorem State.clockUnlock_clearing (hstate : s.islState i = 1) :
    (s.clockUnlock i).islState i = 1 ∧ ((s.clockUnlock i).isl i).unlocked = true ∧ ((s.clockUnlock i).isl i).cleared = false ∧
      (s.clockUnlock i).get ARR_ISL_ERR.clk_unlock i = 1 := by
  have heq : s.clockUnlock i =
      (s.updIsl i fun x => { x with unlocked := true, cleared := false }).islErr ARR_ISL_ERR.clk_unlock i := by
    rw [State.clockUnlock, hstate]
    rfl
  have hisl : ((s.updIsl i fun x => { x with unlocked := true, cleared := false }).islErr ARR_ISL_ERR.clk_unlock i).isl i =
      { s.isl i with unlocked := true, cleared := false } := State.isl_updIsl (s := s) (i := i) _
  rw [heq, hisl]
  refine ⟨?_, rfl, rfl, State.get_err_same (h := rfl) ..⟩
  rw [State.islErr, State.islState, State.get_err_apart (h := by decide)]
  exact hstate

theorem State.clockRelock_shows (hstate : s.islState i = 1) (hlock : (s.isl i).unlocked = true) :
    ((s.clockRelock i).isl i).unlocked = false ∧ ((s.clockRelock i).isl i).cleared = false := by
  rw [State.clockRelock, if_pos ⟨hstate, hlock⟩, State.isl_updIsl]
  exact ⟨rfl, rfl⟩

theorem State.clearingComplete_shows (hstate : s.islState i = 1) (hlock : (s.isl i).unlocked = false)
    (hclear : (s.isl i).cleared = false) : ((s.clearingComplete i).isl i).cleared = true ∧ (s.clearingComplete i).islState i = 1 := by
  rw [State.clearingComplete, if_pos ⟨hstate, by simp [hlock], by simp [hclear]⟩, State.isl_updIsl]
  exact ⟨rfl, hstate⟩

end Clocks

section Reloads

variable {s : State} {i : Nat} {x : Reload}

/-- Arming the reload engine (R172). -/
theorem State.armReload_shows (firmware : Bool) (src epoch : Nat) :
    ((s.armReload i firmware src epoch).isl i).reload.map (·.epoch) = some epoch ∧
      ((s.armReload i firmware src epoch).isl i).reload.map (·.firmware) = some firmware ∧
      (s.armReload i firmware src epoch).get ARR_ISL_RELOAD_STATUS.busy i = 1 ∧
      (s.armReload i firmware src epoch).get ARR_ISL_STATUS.epoch_valid i = 0 := by
  have hisl : (s.armReload i firmware src epoch).isl i = { s.isl i with
      reload := some { firmware, src, epoch, planes := s.persistentPlanes, image := if firmware then s.arr.copies else [] },
      committed := false, cycles := 0 } := State.isl_updIsl (s := s) (i := i) _
  rw [hisl]
  refine ⟨rfl, rfl, ?_, ?_⟩
  · rw [State.armReload, State.get_put_apart (h := by decide), State.get_put_apart (h := by decide), State.get_put_same]
    rfl
  · exact (State.get_put_same ..).trans rfl

/-- A reload that ends takes effect (R173). -/
theorem State.reloadDone_shows (hreload : (s.isl i).reload = some x) :
    (s.reloadDone i).get ARR_ISL_STATUS.epoch_valid i = 1 ∧ (s.reloadDone i).get ARR_ISL_EPOCH.epoch i = x.epoch % 2 ^ 32 ∧
      (s.reloadDone i).get ARR_ISL_RELOAD_STATUS.done_ i = 1 ∧ (s.reloadDone i).get ARR_ISL_RELOAD_STATUS.busy i = 0 ∧
      ((s.reloadDone i).isl i).reload = none ∧ ∀ a, (s.reloadDone i).plane a = s.plane a := by
  rw [State.reloadDone, hreload]
  dsimp only
  refine ⟨(State.get_put_same ..).trans rfl, ?_, ?_, ?_, ?_, fun a => rfl⟩
  · rw [State.get_put_apart (h := by decide), State.get_put_same]
    rfl
  · rw [State.get_put_apart (h := by decide), State.get_put_apart (h := by decide), State.get_put_same]
    rfl
  · rw [State.get_put_apart (h := by decide), State.get_put_apart (h := by decide), State.get_put_apart (h := by decide),
      State.get_put_apart (h := by decide), State.get_put_same]
    rfl
  · exact congrArg Island.reload (State.isl_updIsl (s := s) (i := i) _)

theorem State.stopReload_shows (hreload : (s.isl i).reload = some x) :
    ((s.stopReload i).isl i).reload = none ∧ (s.stopReload i).get ARR_ISL_ERR.reload_aborted i = 1 ∧
      (s.stopReload i).get ARR_ISL_STATUS.epoch_valid i = 0 := by
  rw [State.stopReload, hreload]
  dsimp only
  refine ⟨congrArg Island.reload (State.isl_updIsl (s := s) (i := i) _), State.get_err_same (h := rfl) .., ?_⟩
  rw [State.islErr, State.get_err_apart (h := by decide), State.get_put_same]
  rfl

theorem State.reloadFetchError_shows (hreload : (s.isl i).reload = some x) :
    ((s.reloadFetchError i).isl i).reload = none ∧ (s.reloadFetchError i).get ARR_ISL_ERR.reload_err i = 1 ∧
      (s.reloadFetchError i).get ARR_ISL_STATUS.epoch_valid i = 0 := by
  rw [State.reloadFetchError, hreload]
  dsimp only
  refine ⟨congrArg Island.reload (State.isl_updIsl (s := s) (i := i) _), State.get_err_same (h := rfl) .., ?_⟩
  rw [State.islErr, State.get_err_apart (h := by decide), State.get_put_same]
  rfl

/-- A plane of the array's own memory that is written at some PEs. -/
theorem State.plane_setPlane {p v mask : Nat} (hlo : 0x80 ≤ p) (hhi : p < 0xF80) (a : Nat) :
    (s.setPlane p v mask).plane a = if a = p then mixBits (s.plane a) v mask else s.plane a := by
  have hset : s.setPlane p v mask = { s with arr := { s.arr with mem := Sparse.upd 0 s.arr.mem p fun o => mixBits o v mask } } := by
    rw [State.setPlane, if_neg (by omega), if_neg (by omega), if_pos hhi]
  rw [hset]
  by_cases ha : a = p
  · subst ha
    rw [if_pos rfl, State.plane, State.plane, if_neg (by omega), if_neg (by omega), if_pos hhi, if_neg (by omega), if_neg (by omega),
      if_pos hhi]
    exact Sparse.get_upd_same 0 s.arr.mem a fun o => mixBits o v mask
  · rw [if_neg ha, State.plane, State.plane]
    split
    · rfl
    · split
      · rfl
      · split
        · exact Sparse.get_upd_ne 0 s.arr.mem (fun o => mixBits o v mask) ha
        · rfl

/-- A plane whose data are there is written, and the reload goes on behind it (R173). -/
theorem State.reloadPlane_shows {ecc : EccMap} {d : Nat} (hreload : (s.isl i).reload = some x)
    (hdata : (s.reloadData i x ecc).2 = some d) :
    ((s.reloadPlane i ecc).isl i).reload = some { x with next := x.next + 1 } ∧
      ∀ a, (s.reloadPlane i ecc).plane a =
        ((s.reloadData i x ecc).1.setPlane (x.planes.getD x.next 0) d (islandMask i)).plane a := by
  obtain ⟨t, ht⟩ : ∃ t, t = (s.reloadData i x ecc).1 := ⟨_, rfl⟩
  have hpair : s.reloadData i x ecc = (t, some d) := by rw [ht, ← hdata]
  rw [State.reloadPlane, hreload]
  dsimp only
  rw [hpair]
  exact ⟨congrArg Island.reload (State.isl_updIsl (i := i) _), fun a => rfl⟩

/-- What the fetch of the data finds leaves the planes. -/
theorem State.plane_reloadData {ecc : EccMap} (a : Nat) : (s.reloadData i x ecc).1.plane a = s.plane a := by
  have honly := State.reloadData_only (i := i) (r := x) (ecc := ecc) (Only.rfl (s := s)) Covers.refl |>.of
  rw [State.plane, State.plane, honly.pri (by decide), honly.arr (by decide)]

/-- The last plane, or the end without one (R173). -/
theorem State.reloadComplete_eq {ecc : EccMap} (hstate : s.islState i = 2) (hcycles : (s.isl i).cycles ≠ 0)
    (hreload : (s.isl i).reload = some x) (hlast : x.planes.length ≤ x.next + 1) :
    s.reloadComplete i ecc = if x.planes.length = x.next + 1 then (s.reloadPlane i ecc).reloadDone i else s.reloadDone i := by
  have hgo : ¬ (s.islState i ≠ 2 ∨ (s.isl i).cycles = 0 ∨ 1 < x.planes.length - x.next) := by
    rintro (h | h | h)
    · exact h hstate
    · exact hcycles h
    · omega
  rw [State.reloadComplete, hreload]
  dsimp only
  rw [if_neg hgo]
  by_cases heq : x.planes.length = x.next + 1
  · rw [if_pos (by omega), if_pos heq]
  · rw [if_neg (by omega), if_neg heq]

theorem State.reloadStart_arms (hstate : s.islState i = 1 ∨ s.islState i = 2) (hbusy : s.bit ARR_ISL_RELOAD_STATUS.busy i = false) :
    s.reloadStart i = s.armReload i false (64 * s.get ARR_ISL_RELOAD_SRC_LO.addr i + 2 ^ 32 * s.get ARR_ISL_RELOAD_SRC_HI.addr i)
      (s.get ARR_ISL_RELOAD_EPOCH.epoch i) := by
  exact if_neg (not_or.2 ⟨fun h => hstate.elim h.1 h.2, by rw [hbusy]; exact Bool.false_ne_true⟩)

theorem State.reloadStart_refused
    (h : s.islState i ≠ 1 ∧ s.islState i ≠ 2 ∨ s.bit ARR_ISL_RELOAD_STATUS.busy i = true) :
    s.reloadStart i = s.islErr ARR_ISL_ERR.reload_refused i := if_pos h

theorem State.autoReload_arms (hauto : s.bit ARR_ISL_CTRL.auto_reload i = true) (hstate : s.islState i = 1 ∨ s.islState i = 2)
    (hnone : (s.isl i).reload = none) (hturns : s.pri.turns = 0)
    (hold : s.bit ARR_ISL_STATUS.epoch_valid i = false ∨ s.get ARR_ISL_EPOCH.epoch i ≠ s.get ARR_EPOCH.epoch) :
    s.autoReload i = (s.put ARR_ISL_RELOAD_EPOCH.epoch (s.get ARR_EPOCH.epoch) i).armReload i true 0 (s.get ARR_EPOCH.epoch) := by
  refine if_pos ⟨hauto, hstate, by rw [hnone]; rfl, hturns, ?_⟩
  rintro ⟨hvalid, hepoch⟩
  rcases hold with hold | hold
  · rw [hold] at hvalid
    cases hvalid
  · exact hold hepoch

end Reloads

/-- Settles O6: arrivals and faults show what they are, a clock's loss and return stop and start the clearing, and a reload is armed,
ends with its planes, or ends without its epoch. -/
theorem islandEvents : Obligations.IslandEvents := by
  unfold Obligations.IslandEvents
  refine ⟨fun s i t late ha hexec hnone => does_live rfl ha (State.islandArrive_shows (State.awaited_of hexec hnone)),
    fun s i ha hexec hnone => does_live rfl ha (State.barrierTimeout_shows (State.awaited_of hexec hnone)),
    fun s i p ha hruns hslow => does_live rfl ha (State.islandClock_slow (State.clockRuns_of hruns) p.isLt hslow),
    fun s i p ha hruns hin => exec_live rfl ha (State.islandClock_within (State.clockRuns_of hruns) p.isLt hin),
    fun s i ha hexec => does_live rfl ha (State.clockUnlock_executing hexec),
    fun s i ha hstate => does_live rfl ha (State.clockUnlock_clearing hstate),
    fun s i ha hstate hlock => does_live rfl ha (State.clockRelock_shows hstate hlock),
    fun s i ha hstate hlock hclear => does_live rfl ha (State.clearingComplete_shows hstate hlock hclear),
    fun s i ha hstate hbusy => ?start, fun s i ha h => ?refused, fun s i x ecc ha hstate hcycles hreload hlast hdata => ?complete,
    fun s i x ecc d ha hstate hcycles hreload hlast hlo hhi hdata => ?plane, fun s i ha hreload => ?fetch,
    fun s i ha hreload => ?abort, fun s i ha hauto hstate hnone hturns hold => ?auto⟩
  case start =>
    refine does_live rfl ha ?_
    rw [State.reloadStart_arms hstate hbusy]
    obtain ⟨hepoch, -, hbusy, hvalid⟩ := State.armReload_shows (s := s) (i := i.val) false
      (64 * s.get ARR_ISL_RELOAD_SRC_LO.addr i.val + 2 ^ 32 * s.get ARR_ISL_RELOAD_SRC_HI.addr i.val)
      (s.get ARR_ISL_RELOAD_EPOCH.epoch i.val)
    exact ⟨hepoch, hbusy, hvalid⟩
  case refused =>
    refine does_live rfl ha ?_
    rw [State.reloadStart_refused h]
    exact ⟨State.get_err_same (h := rfl) .., rfl⟩
  case complete =>
    refine does_live rfl ha ?_
    rw [State.reloadComplete_eq hstate hcycles hreload hlast]
    split
    · next hone =>
      obtain ⟨d, hd⟩ := Option.isSome_iff_exists.mp (hdata hone)
      obtain ⟨hvalid, hepoch, hdone, hbusy, hnone, -⟩ := State.reloadDone_shows (State.reloadPlane_shows hreload hd).1
      exact ⟨hvalid, hepoch, hdone, hbusy, hnone⟩
    · obtain ⟨hvalid, hepoch, hdone, hbusy, hnone, -⟩ := State.reloadDone_shows hreload
      exact ⟨hvalid, hepoch, hdone, hbusy, hnone⟩
  case plane =>
    refine does_live rfl ha fun a => ?_
    obtain ⟨hnext, hplane⟩ := State.reloadPlane_shows hreload hdata
    obtain ⟨-, -, -, -, -, hsame⟩ := State.reloadDone_shows hnext
    rw [State.reloadComplete_eq hstate hcycles hreload hlast.le, if_pos hlast, hsame, hplane, State.plane_setPlane hlo hhi,
      State.plane_reloadData]
  case fetch =>
    obtain ⟨x, hx⟩ := Option.isSome_iff_exists.mp hreload
    exact does_live rfl ha (State.reloadFetchError_shows hx)
  case abort =>
    obtain ⟨x, hx⟩ := Option.isSome_iff_exists.mp hreload
    refine does_live rfl ha ?_
    rw [State.reloadAbort, if_pos hreload]
    exact State.stopReload_shows hx
  case auto =>
    refine does_live rfl ha ?_
    rw [State.autoReload_arms hauto hstate hnone hturns hold]
    obtain ⟨hepoch, hfirm, hbusy, -⟩ := State.armReload_shows
      (s := s.put ARR_ISL_RELOAD_EPOCH.epoch (s.get ARR_EPOCH.epoch) i.val) (i := i.val) true 0 (s.get ARR_EPOCH.epoch)
    exact ⟨hepoch, hfirm, hbusy⟩

/-! # A data link whose own window fits beside one whose window does not (R297) -/

/-- All eight wide halo entries are enabled, and data link 1 toward N, in use, has fewer link words in a slot than its halo window needs. -/
def tightNeighbour : State :=
  (List.range 8).foldl (fun s n => s.put ARR_WHALO.enable 1 n)
    ((State.reset.put WOR_LINK_CFG.enable 1 1).put WOR_LINK_CFG.side 0 1)

/-- A link without a side carries no halo frames, so its own window fits. -/
theorem window_tightNeighbour : (tightNeighbour.wrReg 8 0x400 allBits (0x81#32).toNat).windowOk 0 = true := by decide +kernel

theorem lanes_tightNeighbour : (tightNeighbour.wrReg 8 0x400 allBits (0x81#32).toNat).laneConflict
    ((tightNeighbour.wrReg 8 0x400 allBits (0x81#32).toNat).linkLanes 0) = false := by decide +kernel

theorem enable_tightNeighbour :
    (tightNeighbour.writeLinkCfg (.data 0) (0xFFFFFFFF#32).toNat (0x81#32).toNat).get WOR_LINK_CFG.enable 0 = 0 := by
  decide +kernel

/-- Refutes O22: the check of R297 covers every data link in use, and the write that enables link 0, whose own window fits, is
refused for link 1. -/
theorem not_linkStates : ¬ Obligations.LinkStates := by
  unfold Obligations.LinkStates
  intro h
  obtain ⟨hconfig, -⟩ := h
  obtain ⟨henable, -⟩ := does_elim (hconfig tightNeighbour 0 0x81#32 rfl (by decide) (by decide) (by decide +kernel)
    lanes_tightNeighbour window_tightNeighbour) (exec_live rfl (by decide +kernel) rfl)
  exact absurd (enable_tightNeighbour.symm.trans henable) (by decide)

/-! # A doorbell to a halted thread (R415, R468) -/

/-- Thread 0 is HALTED with its doorbell event enabled. -/
def haltedListener : State := (State.reset.put CPU_THR_STATUS.state 3 0 0).put CPU_THR_EVEN.en 8 0 0

theorem events_haltedListener :
    ((haltedListener.doorbell 16 (0xFFFFFFFF#32).toNat (0#32).toNat).1.th 0).events.testBit 19 = false := by
  decide +kernel

/-- Refutes O42: the events of a HALTED thread are frozen, and a doorbell to it sets none. -/
theorem not_scratchpadAndMailbox : ¬ Obligations.ScratchpadAndMailbox := by
  unfold Obligations.ScratchpadAndMailbox
  intro h
  obtain ⟨-, -, -, -, -, -, -, hbell, -⟩ := h
  have hset := does_elim (hbell haltedListener 16 0#32 rfl (by decide) (by decide) (by decide +kernel)) (exec_alive rfl rfl rfl)
  exact absurd (events_haltedListener.symm.trans hset) (by decide)

/-! # A USDO abort while a second request waits behind a datagram (R486, R496) -/

/-- A segmented upload with one byte left. -/
def openUpload : UsdoXfer := { index := 0x1008, sub := 0, write := false, total := 8, data := [0x41] }

/-- A datagram whose one READ item is under way. -/
def waitingRead : LanReq :=
  { ip := 1, port := 1, session := 1, seq := 1, count := 1, stop := false, started := true,
    todo := [{ op := 1, sub := 0, index := 0x1017, type := 6, data := [] }] }

/-- The upload is open, and behind the datagram waits a request to read the heartbeat time. -/
def queuedRequest : State :=
  (State.reset.put DIC_STATUS.nmt_hb 5).updDic fun d =>
    { d with usdo := some openUpload, reqs := [.lantern waitingRead, .request 0x1017 0 (.upload 2)] }

theorem usdo_queuedRequest : (queuedRequest.usdoAbort 0x1017 0).dic.usdo = some openUpload := by
  decide +kernel

/-- Refutes O30: an abort of the object that the waiting request names takes that request out of the queue, and the open transfer
goes on. -/
theorem not_usdoAndPdo : ¬ Obligations.UsdoAndPdo := by
  unfold Obligations.UsdoAndPdo
  intro h
  obtain ⟨-, -, -, -, -, -, habort, -⟩ := h
  have hon : queuedRequest.usdoOn = true := by decide +kernel
  obtain ⟨hnone, -⟩ := does_elim (habort queuedRequest 0x1017 0 rfl hon rfl rfl) (exec_alive rfl rfl (if_pos hon))
  exact absurd (usdo_queuedRequest.symm.trans hnone) (by simp)

/-! # An ABORT item whose data type is not that of its object (R489, R503) -/

/-- The session's open write of the vendor bundle. -/
def openBundle : DomainWrite := { src := .lantern 1 1 1, index := 0x3003, sub := 0, total := 16 }

/-- An ABORT item on the same object that carries type 0. -/
def untypedAbort : LanItem := { op := 7, sub := 0, index := 0x3003, type := 0, data := [] }

/-- The datagram of that item. -/
def abortDatagram : LanReq :=
  { ip := 1, port := 1, session := 1, seq := 1, count := 1, stop := false, started := true, todo := [untypedAbort] }

def abortQueued : State :=
  State.reset.updDic fun d => { d with domain := some openBundle, reqs := [.lantern abortDatagram] }

theorem domain_abortQueued : abortQueued.lanAbort.dic.domain = some openBundle := by
  decide +kernel

/-- Refutes O31: an ABORT item whose type is not that of the object is refused with 0x0607_0010, and the write stays open. -/
theorem not_lanternItems : ¬ Obligations.LanternItems := by
  unfold Obligations.LanternItems
  intro h
  obtain ⟨-, -, -, -, -, -, -, -, -, -, -, -, -, habort, -⟩ := h
  obtain ⟨hnone, -⟩ := does_elim (habort abortQueued abortDatagram untypedAbort rfl rfl rfl rfl (by decide +kernel) rfl
    (by decide +kernel)) (exec_live rfl rfl rfl)
  exact absurd (domain_abortQueued.symm.trans hnone) (by simp)

/-! # An event frame that goes out after its release instant (R337, R338) -/

/-- The release record of crossing 7, whose instant is 5. -/
def releaseAtFive : ReleaseRec :=
  { serial := 7, instant := 5, set := 0, values := 0, overrun := 0, degraded := 0 }

/-- An assembled event of crossing 7 with an empty body. -/
def eventOfSeven : Event :=
  { number := 1, serial := 7, orbit := 0, index := 0, holdover := false, sources := 1, cfg := {}, takenAt := 0, charge := 0,
    phase := .assembled, release := some releaseAtFive }

/-- Before instant 5, with port 0 READY. -/
def eventAssembledEarly : State :=
  (State.reset.put RDO_PORT_STATUS.state 3 0).updRdo fun r => { r with events := [eventOfSeven] }

/-- A byte of the frame that left last; the flags of the readout header stand at byte 45. -/
def lastFrameByte (l : List Sent) (n : Nat) : Option (BitVec 8) :=
  match l.getLast? with
  | some (.ether _ bytes) => bytes[n]?
  | _ => none

/-- The frame that goes out at instant 10 has a release record. -/
theorem flags_eventAssembledEarly : lastFrameByte (eventAssembledEarly.readoutFrame 10).sent 45 = some 1 := by
  decide +kernel

/-- By the state before the command there is none yet. -/
theorem flags_before : lastFrameByte (eventAssembledEarly.sendUdp 0
    (eventAssembledEarly.readoutHeader eventOfSeven 0 eventOfSeven.frames 0 ++
      slice eventOfSeven.body 0 eventOfSeven.cfg.chunk)).sent 45 = some 129 := by
  decide +kernel

/-- Refutes O27: the header carries the release record where its instant has come when the frame goes out, and not where it had come
before the command. -/
theorem not_readoutEvents : ¬ Obligations.ReadoutEvents := by
  unfold Obligations.ReadoutEvents
  intro h
  obtain ⟨-, -, -, -, hsend, -⟩ := h
  obtain ⟨-, -, -, hsent⟩ := does_elim (hsend eventAssembledEarly 10 eventOfSeven [] 0 rfl rfl rfl rfl rfl (by decide)
    (by decide +kernel)) (exec_live rfl rfl rfl)
  have hflags := flags_eventAssembledEarly.symm.trans ((congrArg (lastFrameByte · 45) hsent).trans flags_before)
  exact absurd hflags (by decide)

/-! # An activation of a halted facet while an earlier one is due (R111) -/

/-- Facet 0 in HALT with a READY shadow plane, whose armed activation has reached its barrier. -/
def dueActivation : State :=
  (((State.reset.put EDG_FSTATUS.state 2 0).put EDG_FSTATUS.shadow 2 0).put EDG_FCTRL.clk 0 0).updGno fun g => { g with due := [.facet 0] }

theorem state_dueActivation : (dueActivation.facetActivate 0).facetState 0 = 2 := by
  decide +kernel

/-- Refutes O18: while the activation armed in RUN is due, another one is refused outside RUN too. -/
theorem not_facetCommands : ¬ Obligations.FacetCommands := by
  unfold Obligations.FacetCommands
  intro h
  obtain ⟨-, -, -, hactivate, -⟩ := h
  obtain ⟨hswitch, -⟩ := does_elim (hactivate dueActivation 0 rfl (by decide +kernel) (by decide +kernel) (by decide +kernel)
    (by decide +kernel)) (exec_live rfl rfl rfl)
  exact absurd (state_dueActivation.symm.trans hswitch) (by decide)

/-! # The FP instructions (R383 to R388, R417) -/

section Words

variable (keeper : Bool) (rd ra rb : Fin 32) (rm : Fin 8) (dbl : Bool)

theorem b2n_le_one : b2n dbl ≤ 1 := by
  cases dbl <;> decide

theorem fpFunc_eq (prec op : Nat) : fpFunc rm prec op = 256 * rm.val + 128 * prec + op := by
  simp only [fpFunc, Nat.shiftLeft_eq, Nat.mul_comm]

/-- The parts of func of the FP group: the operation and the rounding mode. -/
theorem bits_fpFunc {op : Nat} (hop : op < 128) :
    bits (fpFunc rm (b2n dbl) op) 0 7 = op ∧ bits (fpFunc rm (b2n dbl) op) 8 3 = rm.val := by
  have hprec := b2n_le_one dbl
  rw [fpFunc_eq]
  simp only [bits, Nat.shiftRight_eq_div_pow]
  omega

/-- The same of an instruction that does not round. -/
theorem bits_fpFunc_quiet {op : Nat} (hop : op < 128) :
    bits (fpFunc 0 (b2n dbl) op) 0 7 = op ∧ bits (fpFunc 0 (b2n dbl) op) 8 3 = 0 :=
  bits_fpFunc 0 dbl hop

/-- An FP word is legal on a control core alone, by its register codes and its function. -/
theorem legalWord_fp {op : Nat} (hop : op < 128) :
    legalWord keeper (encR 0x03 rd.val ra.val rb.val (fpFunc rm (b2n dbl) op) % 2 ^ 32) =
      (!keeper && legalFp rd.val ra.val rb.val (fpFunc rm (b2n dbl) op)) := by
  have hprec := b2n_le_one dbl
  obtain ⟨h6, hd, ha, hb, hfunc⟩ :=
    bits_encR 0x03 (fpFunc rm (b2n dbl) op) rd ra rb (by omega) (by rw [fpFunc_eq]; omega)
  simp only [legalWord, h6, hd, ha, hb, hfunc]
  rfl

/-- A word of the F format is legal on a control core where its rounding mode is one. -/
theorem legalWord_fused {op : Nat} (h4 : 4 ≤ op) (h8 : op < 8) (rc : Fin 32) (hrm : rm.val ≤ 5) :
    legalWord keeper (encF op rd.val ra.val rb.val rc.val rm.val (b2n dbl) % 2 ^ 32) = !keeper := by
  have hprec := b2n_le_one dbl
  have heq : encF op rd.val ra.val rb.val rc.val rm.val (b2n dbl) =
      2 ^ 26 * op + 2 ^ 21 * rd.val + 2 ^ 16 * ra.val + 2 ^ 11 * rb.val + 2 ^ 6 * rc.val + 2 ^ 3 * rm.val + 2 ^ 2 * b2n dbl := by
    simp only [encF, Nat.shiftLeft_eq, Nat.mul_comm]
  have hop : bits (encF op rd.val ra.val rb.val rc.val rm.val (b2n dbl) % 2 ^ 32) 26 6 = op := by
    simp only [heq, bits, Nat.shiftRight_eq_div_pow]
    omega
  have hmode : bits (encF op rd.val ra.val rb.val rc.val rm.val (b2n dbl) % 2 ^ 32) 3 3 = rm.val := by
    simp only [heq, bits, Nat.shiftRight_eq_div_pow]
    omega
  have hzero : bits (encF op rd.val ra.val rb.val rc.val rm.val (b2n dbl) % 2 ^ 32) 0 2 = 0 := by
    simp only [heq, bits, Nat.shiftRight_eq_div_pow]
    omega
  simp only [legalWord, hop, hmode, hzero]
  rw [if_neg (by omega), if_neg (by omega), if_neg (by omega), if_neg (by omega), if_pos h8]
  simp [hrm]

theorem legalFp_arith {op : Nat} (hop : op ≤ 3) :
    legalFp rd.val ra.val rb.val (fpFunc rm (b2n dbl) op) = decide (rm.val ≤ 5) := by
  obtain ⟨h0, h8⟩ := bits_fpFunc rm dbl (op := op) (by omega)
  interval_cases op <;> simp only [legalFp, h0, h8]

theorem legalFp_arith_of_le {op : Nat} (hop : op ≤ 3) (hrm : rm.val ≤ 5) :
    legalFp rd.val ra.val rb.val (fpFunc rm (b2n dbl) op) = true :=
  (legalFp_arith _ _ _ _ _ hop).trans (decide_eq_true hrm)

theorem legalFp_round {op : Nat} (hop : op = 0x04 ∨ op = 0x14) (hrm : rm.val ≤ 5) :
    legalFp rd.val ra.val (0 : Fin 32).val (fpFunc rm (b2n dbl) op) = true := by
  obtain ⟨h0, h8⟩ := bits_fpFunc rm dbl (op := op) (by omega)
  rcases hop with rfl | rfl <;> simp [legalFp, h0, h8, hrm]

theorem legalFp_toInt {op : Nat} (hop : op = 0x10 ∨ op = 0x11) (hrm : rm.val ≤ 5) (hrd : rd.val < 24) :
    legalFp rd.val ra.val (0 : Fin 32).val (fpFunc rm (b2n dbl) op) = true := by
  obtain ⟨h0, h8⟩ := bits_fpFunc rm dbl (op := op) (by omega)
  rcases hop with rfl | rfl <;> simp [legalFp, h0, h8, hrm, hrd]

theorem legalFp_ofInt {op : Nat} (hop : op = 0x12 ∨ op = 0x13) (hrm : rm.val ≤ 5) (hra : ra.val < 24) :
    legalFp rd.val ra.val (0 : Fin 32).val (fpFunc rm (b2n dbl) op) = true := by
  obtain ⟨h0, h8⟩ := bits_fpFunc rm dbl (op := op) (by omega)
  rcases hop with rfl | rfl <;> simp [legalFp, h0, h8, hrm, hra]

theorem legalFp_quiet {op : Nat} (hop : op = 0x05 ∨ op = 0x06 ∨ op = 0x1C) :
    legalFp rd.val ra.val rb.val (fpFunc 0 (b2n dbl) op) = true := by
  obtain ⟨h0, h8⟩ := bits_fpFunc_quiet dbl (op := op) (by omega)
  rcases hop with rfl | rfl | rfl <;> simp [legalFp, h0, h8]

theorem legalFp_compare {op : Nat} (hop : op = 0x08 ∨ op = 0x09 ∨ op = 0x0A) (hrd : rd.val < 24) :
    legalFp rd.val ra.val rb.val (fpFunc 0 (b2n dbl) op) = true := by
  obtain ⟨h0, h8⟩ := bits_fpFunc_quiet dbl (op := op) (by omega)
  rcases hop with rfl | rfl | rfl <;> simp [legalFp, h0, h8, hrd]

theorem legalFp_toReg {op : Nat} (hop : op = 0x0B ∨ op = 0x18) (hrd : rd.val < 24) :
    legalFp rd.val ra.val (0 : Fin 32).val (fpFunc 0 (b2n dbl) op) = true := by
  obtain ⟨h0, h8⟩ := bits_fpFunc_quiet dbl (op := op) (by omega)
  rcases hop with rfl | rfl <;> simp [legalFp, h0, h8, hrd]

theorem legalFp_fromReg (hra : ra.val < 24) :
    legalFp rd.val ra.val (0 : Fin 32).val (fpFunc 0 (b2n dbl) 0x19) = true := by
  obtain ⟨h0, h8⟩ := bits_fpFunc_quiet dbl (op := 0x19) (by omega)
  simp [legalFp, h0, h8, hra]

theorem legalFp_sign {op : Nat} (hop : op = 0x1A ∨ op = 0x1B) :
    legalFp rd.val ra.val (0 : Fin 32).val (fpFunc 0 (b2n dbl) op) = true := by
  obtain ⟨h0, h8⟩ := bits_fpFunc_quiet dbl (op := op) (by omega)
  rcases hop with rfl | rfl <;> simp [legalFp, h0, h8]

end Words

/-- The thread after an FP instruction that computed `r` and put its value with `put`: the flags wait for their merge (R388). -/
def Th.fpEnded (h : Th) (put : Th → Nat → Th) (r : FpRes) (t : Th) : Th :=
  { put t r.1 with fpOps := t.fpOps ++ [{ pc := h.pc, flags := r.2, inTrap := h.inTrap }] }

theorem Th.rounding_of_named {h : Th} {rm m : Nat} (h1 : 1 ≤ m) (h5 : m ≤ 5) (hrm : rm = 0 ∧ h.rm = m ∨ rm = m) :
    h.rounding rm = some m := by
  unfold Th.rounding
  rcases hrm with ⟨rfl, rfl⟩ | rfl
  · simp [h1, h5]
  · rw [if_pos (by omega)]

theorem rm_le_of_named {h : Th} {rm m : Nat} (h5 : m ≤ 5) (hrm : rm = 0 ∧ h.rm = m ∨ rm = m) : rm ≤ 5 := by
  omega

theorem core_ne_keeper {u : Issue} (h : u.core.val ≠ 4) : (coreOf (thr u) == 4) = false := by
  rw [coreOf_thr]
  simpa using h

section Runs

variable {s : State} {u : Issue} {op m : Nat} {rd ra rb rc : Fin 32} {rm : Fin 8} {dbl : Bool}

theorem State.fpEnd_issued (r : FpRes) (put : Th → Nat → Th) :
    ((issued s u).fpEnd (thr u) r.2 fun t => put t r.1) =
      .acted ((issued s u).retire (thr u) ((s.th (thr u)).pc + 4) ((s.th (thr u)).fpEnded put r)) := by
  unfold State.fpEnd Th.fpEnded
  simp only [th_issued]

theorem State.fpRound_of_runs (f : Nat → Th → FpRes) (put : Th → Nat → Th) (hr : runs s u = true) (hk : u.core.val ≠ 4)
    (hop : op < 128) (h1 : 1 ≤ m) (h5 : m ≤ 5) (hrm : rm.val = 0 ∧ (s.th (thr u)).rm = m ∨ rm.val = m)
    (hl : legalFp rd.val ra.val rb.val (fpFunc rm (b2n dbl) op) = true) :
    s.fpRound u op rd ra rb rm dbl f put =
      (issued s u).retire (thr u) ((s.th (thr u)).pc + 4) ((s.th (thr u)).fpEnded put (f m (s.th (thr u)))) := by
  have hlegal : legalWord (coreOf (thr u) == 4) (encR 0x03 rd.val ra.val rb.val (fpFunc rm (b2n dbl) op) % 2 ^ 32) = true := by
    rw [legalWord_fp _ _ _ _ _ _ hop, core_ne_keeper hk, hl]
    rfl
  unfold State.fpRound
  refine State.issue_acted hr hlegal ?_
  simp only [th_issued, Th.rounding_of_named h1 h5 hrm]
  exact State.fpEnd_issued _ _

theorem State.fpQuiet_of_runs (f : Th → FpRes) (put : Th → Nat → Th) (hr : runs s u = true) (hk : u.core.val ≠ 4)
    (hop : op < 128) (hl : legalFp rd.val ra.val rb.val (fpFunc 0 (b2n dbl) op) = true) :
    s.fpQuiet u op rd ra rb dbl f put =
      (issued s u).retire (thr u) ((s.th (thr u)).pc + 4) ((s.th (thr u)).fpEnded put (f (s.th (thr u)))) := by
  have hlegal : legalWord (coreOf (thr u) == 4) (encR 0x03 rd.val ra.val rb.val (fpFunc 0 (b2n dbl) op) % 2 ^ 32) = true := by
    refine (legalWord_fp _ _ _ _ 0 dbl hop).trans ?_
    rw [core_ne_keeper hk]
    exact hl
  unfold State.fpQuiet
  refine State.issue_acted hr hlegal ?_
  simp only [th_issued]
  exact State.fpEnd_issued _ _

theorem State.fpFused_of_runs (negProd negC : Bool) (hr : runs s u = true) (hk : u.core.val ≠ 4) (h4 : 4 ≤ op) (h8 : op < 8)
    (h1 : 1 ≤ m) (h5 : m ≤ 5) (hrm : rm.val = 0 ∧ (s.th (thr u)).rm = m ∨ rm.val = m) :
    s.fpFused u op rd ra rb rc rm dbl negProd negC =
      (issued s u).retire (thr u) ((s.th (thr u)).pc + 4) ((s.th (thr u)).fpEnded (fun t v => t.setFval dbl rd.val v)
        ((fmtOf dbl).fma m (s.th (thr u)).ftz
          (if negProd then ((s.th (thr u)).fnum dbl ra.val).neg else (s.th (thr u)).fnum dbl ra.val)
          ((s.th (thr u)).fnum dbl rb.val)
          (if negC then ((s.th (thr u)).fnum dbl rc.val).neg else (s.th (thr u)).fnum dbl rc.val))) := by
  have hlegal : legalWord (coreOf (thr u) == 4)
      (encF op rd.val ra.val rb.val rc.val rm.val (b2n dbl) % 2 ^ 32) = true := by
    rw [legalWord_fused _ _ _ _ _ _ h4 h8 _ (rm_le_of_named h5 hrm), core_ne_keeper hk]
    rfl
  unfold State.fpFused
  refine State.issue_acted hr hlegal ?_
  simp only [th_issued, Th.rounding_of_named h1 h5 hrm]
  exact State.fpEnd_issued _ _

/-- A rounding mode that is none, by the word or by CC_FCSR, raises trap 3 with the word (R384). -/
theorem State.trapped_fpRound (f : Nat → Th → FpRes) (put : Th → Nat → Th) (hr : runs s u = true) (hk : u.core.val ≠ 4)
    (hop : op ≤ 3) (ht : (s.th (thr u)).inTrap = false)
    (hrm : 5 < rm.val ∨ rm.val = 0 ∧ ((s.th (thr u)).rm = 0 ∨ 5 < (s.th (thr u)).rm)) :
    trapped s (s.fpRound u op rd ra rb rm dbl f put) (thr u) 3
      (encR 0x03 rd.val ra.val rb.val (fpFunc rm (b2n dbl) op)) (s.th (thr u)).pc := by
  have hlegal : legalWord (coreOf (thr u) == 4) (encR 0x03 rd.val ra.val rb.val (fpFunc rm (b2n dbl) op) % 2 ^ 32) =
      decide (rm.val ≤ 5) := by
    rw [legalWord_fp _ _ _ _ _ _ (by omega), core_ne_keeper hk, legalFp_arith _ _ _ _ _ hop]
    rfl
  have htrap : s.fpRound u op rd ra rb rm dbl f put =
      (issued s u).takeTrap (thr u) 3 (encR 0x03 rd.val ra.val rb.val (fpFunc rm (b2n dbl) op)) (s.th (thr u)).pc := by
    unfold State.fpRound
    rcases Nat.lt_or_ge 5 rm.val with hgt | hle
    · exact State.issue_illegal hr (by rw [hlegal]; simpa using hgt)
    · have hnone : (s.th (thr u)).rounding rm.val = none := by
        unfold Th.rounding
        rw [if_neg (by omega), if_neg (by omega)]
      exact State.issue_trap hr (by rw [hlegal]; simpa using hle) (by simp only [th_issued, hnone])
  rw [htrap]
  exact State.trapped_takeTrap _ _ ht

/-- The keeper has no FP unit: an FP word is illegal there (R350). -/
theorem State.trapped_fpRound_keeper (f : Nat → Th → FpRes) (put : Th → Nat → Th) (hr : runs s u = true)
    (hk : u.core.val = 4) (hop : op < 128) (ht : (s.th (thr u)).inTrap = false) :
    trapped s (s.fpRound u op rd ra rb rm dbl f put) (thr u) 3
      (encR 0x03 rd.val ra.val rb.val (fpFunc rm (b2n dbl) op)) (s.th (thr u)).pc := by
  have hkeeper : (coreOf (thr u) == 4) = true := by simp [coreOf_thr, hk]
  have htrap : s.fpRound u op rd ra rb rm dbl f put =
      (issued s u).takeTrap (thr u) 3 (encR 0x03 rd.val ra.val rb.val (fpFunc rm (b2n dbl) op)) (s.th (thr u)).pc := by
    unfold State.fpRound
    exact State.issue_illegal hr (by rw [legalWord_fp _ _ _ _ _ _ hop, hkeeper]; rfl)
  rw [htrap]
  exact State.trapped_takeTrap _ _ ht

end Runs

section Signs

variable (h : Th) (dbl : Bool) (r : Fin 32)

theorem xor_two_pow {x k : Nat} (hx : x < 2 ^ (k + 1)) : x ^^^ 2 ^ k = (x + 2 ^ k) % 2 ^ (k + 1) := by
  refine Nat.eq_of_testBit_eq fun i => ?_
  rw [Nat.testBit_xor, Nat.testBit_two_pow, Nat.testBit_mod_two_pow, Nat.add_comm x]
  rcases Nat.lt_trichotomy i k with hlt | rfl | hgt
  · rw [Nat.testBit_two_pow_add_gt hlt]
    simp [Nat.ne_of_gt hlt, Nat.lt_succ_of_lt hlt]
  · rw [Nat.testBit_two_pow_add_eq]
    simp
  · have hfalse : x.testBit i = false :=
      Nat.testBit_lt_two_pow (Nat.lt_of_lt_of_le hx (Nat.pow_le_pow_right (by decide) hgt))
    simp [hfalse, Nat.ne_of_lt hgt, Nat.not_lt.2 hgt]

/-- The place of the sign bit in a precision. -/
theorem signBit_fmtOf : (fmtOf dbl).signBit true = if dbl then 2 ^ 63 else 2 ^ 31 := by
  cases dbl <;> rfl

theorem two_pow_width_fmtOf : 2 ^ ((fmtOf dbl).width - 1) = if dbl then 2 ^ 63 else 2 ^ 31 := by
  cases dbl <;> rfl

theorem Th.fval_eq : h.fval dbl r = h.freg r % (2 * if dbl then 2 ^ 63 else 2 ^ 31) := by
  cases dbl
  · rfl
  · simp [Th.fval, Th.freg]

theorem Th.fval_xor_sign : h.fval dbl r ^^^ (fmtOf dbl).signBit true =
    (h.freg r % (2 * if dbl then 2 ^ 63 else 2 ^ 31) + if dbl then 2 ^ 63 else 2 ^ 31) % (2 * if dbl then 2 ^ 63 else 2 ^ 31) := by
  rw [signBit_fmtOf, Th.fval_eq]
  cases dbl
  · exact xor_two_pow (k := 31) (Nat.mod_lt _ (by decide))
  · exact xor_two_pow (k := 63) (Nat.mod_lt _ (by decide))

/-- The sign of a pattern, at its place, is its value from the sign bit on. -/
theorem FpFmt.signBit_sign_of_lt {k : FpFmt} {v : Nat} (hv : v < 2 * 2 ^ (k.width - 1)) :
    k.signBit (k.sign v) = v / 2 ^ (k.width - 1) * 2 ^ (k.width - 1) := by
  have hq : v / 2 ^ (k.width - 1) < 2 := Nat.div_lt_of_lt_mul (by rwa [Nat.mul_comm])
  unfold FpFmt.signBit FpFmt.sign
  rw [Nat.testBit_eq_decide_div_mod_eq, Nat.mod_eq_of_lt hq]
  interval_cases v / 2 ^ (k.width - 1) <;> simp

theorem Th.signBit_sign_fval : (fmtOf dbl).signBit ((fmtOf dbl).sign (h.fval dbl r)) =
    h.freg r % (2 * if dbl then 2 ^ 63 else 2 ^ 31) / (if dbl then 2 ^ 63 else 2 ^ 31) * if dbl then 2 ^ 63 else 2 ^ 31 := by
  rw [Th.fval_eq, FpFmt.signBit_sign_of_lt, two_pow_width_fmtOf]
  rw [two_pow_width_fmtOf]
  exact Nat.mod_lt _ (by cases dbl <;> decide)

end Signs

section Merge

variable {s : State} {id k : Nat} {o : FpOp}

theorem State.fpComplete_masked (ho : (s.th id).fpOps[k]? = some o) (hm : o.flags &&& (s.th id).enables = 0)
    (hst : s.thState id ≠ 3) :
    s.fpComplete id k = s.updTh id fun h => { h with fpOps := h.fpOps.eraseIdx k, flags := h.flags ||| o.flags } := by
  unfold State.fpComplete
  rw [ho]
  dsimp only
  rw [if_neg hst, if_pos]
  rwa [State.th_updTh_same]

/-- An enabled flag leaves the exception of its instruction pending (R388, R409). -/
theorem State.fpComplete_enabled (ho : (s.th id).fpOps[k]? = some o) (hm : o.flags &&& (s.th id).enables ≠ 0)
    (hp : (s.th id).fpPend = none) (hw : s.thState id ≠ 2) (hst : s.thState id ≠ 3) :
    s.fpComplete id k =
      (s.updTh id fun h => { h with fpOps := h.fpOps.eraseIdx k, flags := h.flags ||| o.flags }).updTh id
        fun h => { h with fpPend := some (o.pc, o.inTrap) } := by
  unfold State.fpComplete
  rw [ho]
  dsimp only
  rw [if_neg hst, if_neg, if_neg]
  · exact if_neg fun hc => hw hc.1
  · rw [State.th_updTh_same]
    simp [hp]
  · rwa [State.th_updTh_same]

end Merge

/-- The word of FADD, written out. -/
theorem encR_fadd (fd fa fb : Fin 32) (rm : Fin 8) (dbl : Bool) :
    encR 0x03 fd.val fa.val fb.val (fpFunc rm (b2n dbl) 0x00) =
      0x0C000000 + 2 ^ 21 * fd.val + 2 ^ 16 * fa.val + 2 ^ 11 * fb.val + 256 * rm.val + if dbl then 128 else 0 := by
  rw [encR_eq, fpFunc_eq]
  cases dbl
  · simp [b2n]
  · simp [b2n]
    omega

/-- Settles O53: each FP instruction that is issued retires with the value and the flags of its operation; a rounding mode that is
none and an FP word on the keeper trap; the flags merge at FP_COMPLETE. -/
theorem fpInstructions : Obligations.FpInstructions := by
  unfold Obligations.FpInstructions
  refine ⟨fun s u fd fa fb rm m dbl hr hk h1 h5 hrm => congrArg _ (State.fpRound_of_runs _ _ hr hk (by decide) h1 h5 hrm
      (legalFp_arith_of_le _ _ _ _ _ (by decide) (rm_le_of_named h5 hrm))),
    fun s u fd fa fb rm m dbl hr hk h1 h5 hrm => congrArg _ (State.fpRound_of_runs _ _ hr hk (by decide) h1 h5 hrm
      (legalFp_arith_of_le _ _ _ _ _ (by decide) (rm_le_of_named h5 hrm))),
    fun s u fd fa fb rm m dbl hr hk h1 h5 hrm => congrArg _ (State.fpRound_of_runs _ _ hr hk (by decide) h1 h5 hrm
      (legalFp_arith_of_le _ _ _ _ _ (by decide) (rm_le_of_named h5 hrm))),
    fun s u fd fa fb rm m dbl hr hk h1 h5 hrm => congrArg _ (State.fpRound_of_runs _ _ hr hk (by decide) h1 h5 hrm
      (legalFp_arith_of_le _ _ _ _ _ (by decide) (rm_le_of_named h5 hrm))),
    fun s u fd fa rm m dbl hr hk h1 h5 hrm => congrArg _ (State.fpRound_of_runs _ _ hr hk (by decide) h1 h5 hrm
      (legalFp_round _ _ _ _ (.inl rfl) (rm_le_of_named h5 hrm))),
    fun s u fd fa fb fc rm m dbl hr hk h1 h5 hrm =>
      congrArg _ (State.fpFused_of_runs false false hr hk (by decide) (by decide) h1 h5 hrm),
    fun s u fd fa fb fc rm m dbl hr hk h1 h5 hrm =>
      congrArg _ (State.fpFused_of_runs false true hr hk (by decide) (by decide) h1 h5 hrm),
    fun s u fd fa fb fc rm m dbl hr hk h1 h5 hrm =>
      congrArg _ (State.fpFused_of_runs true true hr hk (by decide) (by decide) h1 h5 hrm),
    fun s u fd fa fb fc rm m dbl hr hk h1 h5 hrm =>
      congrArg _ (State.fpFused_of_runs true false hr hk (by decide) (by decide) h1 h5 hrm),
    fun s u fd fa fb dbl hr hk => congrArg _ (State.fpQuiet_of_runs _ _ hr hk (by decide) (legalFp_quiet _ _ _ _ (.inl rfl))),
    fun s u fd fa fb dbl hr hk =>
      congrArg _ (State.fpQuiet_of_runs _ _ hr hk (by decide) (legalFp_quiet _ _ _ _ (.inr (.inl rfl)))),
    fun s u rd fa fb dbl hr hk hrd =>
      congrArg _ (State.fpQuiet_of_runs _ _ hr hk (by decide) (legalFp_compare _ _ _ _ (.inl rfl) hrd)),
    fun s u rd fa fb dbl hr hk hrd =>
      congrArg _ (State.fpQuiet_of_runs _ _ hr hk (by decide) (legalFp_compare _ _ _ _ (.inr (.inl rfl)) hrd)),
    fun s u rd fa fb dbl hr hk hrd =>
      congrArg _ (State.fpQuiet_of_runs _ _ hr hk (by decide) (legalFp_compare _ _ _ _ (.inr (.inr rfl)) hrd)),
    fun s u rd fa dbl hr hk hrd =>
      congrArg _ (State.fpQuiet_of_runs _ _ hr hk (by decide) (legalFp_toReg _ _ _ (.inl rfl) hrd)),
    fun s u rd fa rm m dbl hr hk h1 h5 hrm hrd => congrArg _ (State.fpRound_of_runs _ _ hr hk (by decide) h1 h5 hrm
      (legalFp_toInt _ _ _ _ (.inl rfl) (rm_le_of_named h5 hrm) hrd)),
    fun s u rd fa rm m dbl hr hk h1 h5 hrm hrd => congrArg _ (State.fpRound_of_runs _ _ hr hk (by decide) h1 h5 hrm
      (legalFp_toInt _ _ _ _ (.inr rfl) (rm_le_of_named h5 hrm) hrd)),
    fun s u fd ra rm m dbl hr hk h1 h5 hrm hra => ?ofSigned,
    fun s u fd ra rm m dbl hr hk h1 h5 hrm hra => ?ofUnsigned,
    fun s u fd fa rm m dbl hr hk h1 h5 hrm => congrArg _ (State.fpRound_of_runs _ _ hr hk (by decide) h1 h5 hrm
      (legalFp_round _ _ _ _ (.inr rfl) (rm_le_of_named h5 hrm))),
    fun s u rd fa high hr hk hrd =>
      congrArg _ (State.fpQuiet_of_runs _ _ hr hk (by decide) (legalFp_toReg _ _ _ (.inr rfl) hrd)),
    fun s u fd ra high hr hk hra => ?fromReg,
    fun s u fd fa dbl hr hk => ?neg,
    fun s u fd fa dbl hr hk => ?abs,
    fun s u fd fa fb dbl hr hk => ?copysign,
    fun s u fd fa fb rm dbl hr ht hk hrm => ⟨_, rfl, encR_fadd fd fa fb rm dbl ▸ State.trapped_fpRound _ _ hr hk (by decide) ht hrm⟩,
    fun s u fd fa fb rm dbl hr ht hk => ⟨_, rfl, ?keeper⟩,
    fun s core thread k o ho hm hst => congrArg _ (State.fpComplete_masked ho hm hst),
    fun s core thread k o ho hm hp hw hst => ⟨_, rfl, ?enabled⟩⟩
  case ofSigned =>
    rw [toNat_word]
    exact congrArg _ (State.fpRound_of_runs _ _ hr hk (by decide) h1 h5 hrm
      (legalFp_ofInt _ _ _ _ (.inl rfl) (rm_le_of_named h5 hrm) hra))
  case ofUnsigned =>
    rw [toNat_word]
    exact congrArg _ (State.fpRound_of_runs _ _ hr hk (by decide) h1 h5 hrm
      (legalFp_ofInt _ _ _ _ (.inr rfl) (rm_le_of_named h5 hrm) hra))
  case fromReg =>
    rw [toNat_word]
    exact congrArg _ (State.fpQuiet_of_runs _ _ hr hk (by decide) (legalFp_fromReg _ _ _ hra))
  case neg =>
    rw [← Th.fval_xor_sign]
    exact congrArg _ (State.fpQuiet_of_runs _ _ hr hk (by decide) (legalFp_sign _ _ _ (.inl rfl)))
  case abs =>
    rw [← Th.fval_eq, ← two_pow_width_fmtOf]
    exact congrArg _ (State.fpQuiet_of_runs _ _ hr hk (by decide) (legalFp_sign _ _ _ (.inr rfl)))
  case copysign =>
    rw [← Th.signBit_sign_fval, ← Th.fval_eq, ← two_pow_width_fmtOf]
    exact congrArg _ (State.fpQuiet_of_runs _ _ hr hk (by decide) (legalFp_quiet _ _ _ _ (.inr (.inr rfl))))
  case keeper =>
    obtain ⟨htrap, hcode, -⟩ := State.trapped_fpRound_keeper (op := 0x02) (rd := fd) (ra := fa) (rb := fb) (rm := rm) (dbl := dbl)
      (fun m h => (fmtOf dbl).mul m h.ftz (h.fnum dbl fa.val) (h.fnum dbl fb.val)) (fun t v => t.setFval dbl fd.val v) hr hk
      (by decide) ht
    exact ⟨hcode, htrap⟩
  case enabled =>
    rw [State.fpComplete_enabled ho hm hp hw hst]
    dsimp only
    rw [State.th_updTh_same, State.th_updTh_same]
    exact ⟨rfl, rfl⟩

/-! # A restart of a stack that is on its way when the gates close (R447, R555, R558) -/

/-- The Ring domain once its stops sleep and what is on the ring has reached its targets. -/
def State.drained (s : State) : State :=
  ((List.range 32).foldl (fun s d => if alwaysOnStop d then s else s.put RNG_STOP_STATUS.asleep 1 d) s).gateInitiators.ringDrains

/-- Every page but HBM's, and every other part of the state. -/
def besidesHbm : Nat := 0x1FFFFFFC007FFDFF

theorem State.ringOff_besidesHbm (s : State) : Only besidesHbm s.drained s.ringOff := by
  have hdma : Only besidesHbm s.drained ((List.range 16).foldl (fun s n => s.dmaReset n) s.drained) :=
    Only.foldl _ Only.rfl fun s n hs => State.dmaReset_only hs (by decide)
  have hmem := State.loseScratchpad_only (State.freeSemaphores_only hdma (by decide)) (by decide)
  unfold State.ringOff
  refine State.put_only (State.put_only (State.put_only (State.put_only (State.put_only (State.put_only
    (Only.set_dic_tap (State.updTar_only (State.updRing_only hmem ?_) ?_) ?_ ?_) ?_) ?_) ?_) ?_) ?_) ?_ <;> decide

/-- The second stack's refresh leaves the first. -/
theorem State.stack0_refresh (s : State) (h : s.get HBM_STATUS.stack0 ≠ 2) :
    ([0, 1].foldl (fun s k => if s.stack k = 2 then s.putStack k 3 else s) s).get HBM_STATUS.stack0 = s.get HBM_STATUS.stack0 := by
  have h0 : s.stack 0 = s.get HBM_STATUS.stack0 := if_pos rfl
  have h1 : s.putStack 1 3 = s.put HBM_STATUS.stack1 3 := if_neg (by decide)
  rw [List.foldl_cons, List.foldl_cons, List.foldl_nil, h0, if_neg h]
  split
  · rw [h1, State.get_put_apart (h := by decide)]
  · rfl

/-- What the gates do after the ring is empty leaves the state of a stack that is not in RUN. -/
theorem State.stack0_closeGates (s : State) (h : s.drained.get HBM_STATUS.stack0 ≠ 2) :
    s.closeGates.get HBM_STATUS.stack0 = s.drained.get HBM_STATUS.stack0 := by
  have hring := State.ringOff_besidesHbm s
  unfold State.closeGates
  extract_lets b runs a c d e f g pr i
  have ha : Only besidesHbm s.drained a := State.put_only (State.put_only hring (by decide)) (by decide)
  clear_value a
  have hc : Only besidesHbm s.drained c := Only.forN _ ha fun f s hs => State.facetHalt_only hs (by decide)
  clear_value c
  have hkept : c.get HBM_STATUS.stack0 = s.drained.get HBM_STATUS.stack0 := hc.get (by decide) 0 0
  have hd : d.get HBM_STATUS.stack0 = c.get HBM_STATUS.stack0 := State.stack0_refresh c (by rwa [hkept])
  clear_value d
  have he : Only besidesHbm d e :=
    State.updSeq_only (State.lanesOff_only (State.islandsOff_only Only.rfl (by decide)) (by decide)) (by decide)
  clear_value e
  have hg : Only besidesHbm d g := State.updHbm_only (State.put_only he (by decide)) (by decide)
  have hi : Only besidesHbm d i := State.publishSide_only (Only.set_pri hg (by decide)) (by decide)
  clear_value i
  have hend := State.pinsGated_only (State.updPwr_only (f := fun p => { p with gated := true }) hi (by decide)) (by decide)
  exact (hend.get (by decide) 0 0).trans (hd.trans hkept)

/-- The end of an Eclipse entry shows a stack that is not in RUN as it stands once the ring is empty. -/
theorem State.stack0_eclipseGrace {s : State} (hstep : s.pwr.step = 3) (hstate : s.powerState = 3)
    (hoff : ∀ u ∈ List.range 16, s.thState u = 0) (hrun : s.drained.get HBM_STATUS.stack0 ≠ 2) :
    s.eclipseGrace.get HBM_STATUS.stack0 = s.drained.get HBM_STATUS.stack0 := by
  have hthreads : (List.range 16).foldl (fun s u => if s.thState u = 0 then s else s.stopNow u) s = s :=
    List.foldlRecOn (motive := (· = s)) _ _ rfl fun t ht u hu => by rw [ht, if_pos (hoff u hu)]
  have hcommit : ((s.closeGates.put PWR_STATUS.state 2).put PWR_STATUS.committed 0).get HBM_STATUS.stack0 =
      s.drained.get HBM_STATUS.stack0 := by
    rw [State.get_put_apart (h := by decide), State.get_put_apart (h := by decide), State.stack0_closeGates s hrun]
  rw [State.eclipseGrace, if_neg (by simpa using hstep), hthreads]
  dsimp only
  rw [if_pos hstate]
  generalize (s.closeGates.put PWR_STATUS.state 2).put PWR_STATUS.committed 0 = t at hcommit ⊢
  rw [State.get_updPwr, State.get_inc_apart (h := by decide), hcommit]

/-- A posted write of the keeper to the restart register of stack 0. -/
def restartWrite : Pkt := { ini := 16, cmd := .writeP, addr := 0x2000090000, len := 4, data := [1, 0, 0, 0] }

/-- The grace period of an Eclipse entry is over, stack 0 is in FAULT and its restart is on the ring. -/
def graceOver : State :=
  (((State.reset.put PWR_STATUS.state 3).put HBM_STATUS.stack0 4).updPwr fun p => { p with step := 3 }).updRing
    fun r => { r with reqs := [restartWrite] }

theorem drained_graceOver : graceOver.drained.get HBM_STATUS.stack0 = 1 := by
  decide +kernel

theorem stack0_eclipseGrace_graceOver : graceOver.eclipseGrace.stack 0 = 1 := by
  have hoff : ∀ u ∈ List.range 16, graceOver.thState u = 0 := by decide +kernel
  rw [State.stack, if_pos rfl, State.stack0_eclipseGrace (by decide) (by decide +kernel) hoff (by rw [drained_graceOver]; decide),
    drained_graceOver]

/-- Refutes O35: what is on the ring when the gates close reaches its target first, and a restart among it takes a stack out of
FAULT. -/
theorem not_powerStates : ¬ Obligations.PowerStates := by
  unfold Obligations.PowerStates
  intro h
  obtain ⟨-, -, -, -, -, -, -, -, -, -, -, -, hgrace, -⟩ := h
  obtain ⟨-, -, -, -, hstacks⟩ :=
    does_elim (hgrace graceOver (by decide +kernel) (by decide) (by decide +kernel)) (exec_alive rfl rfl rfl)
  have hkept : graceOver.eclipseGrace.stack 0 = 4 := (hstacks 0 (by decide)).trans (by decide +kernel)
  exact absurd (stack0_eclipseGrace_graceOver.symm.trans hkept) (by decide)

/-! # What a fold over the indices reaches and keeps -/

section Folds

variable {σ α : Type} {f : σ → α → σ} {P Q : σ → Prop} {s : σ}

/-- What every step keeps, a fold keeps. -/
theorem foldl_keeps {l : List α} (hs : P s) (hkeep : ∀ s, ∀ x ∈ l, P s → P (f s x)) : P (l.foldl f s) :=
  List.foldlRecOn l f hs fun s hs x hx => hkeep s x hx hs

/-- A fold over distinct elements reaches `P` at `x`: `Q` holds before, the step at `x` turns it into `P`, and the other steps keep
either. -/
theorem foldl_reaches {l : List α} {x : α} (hx : x ∈ l) (hl : l.Nodup) (hs : Q s) (hQ : ∀ s, ∀ y ∈ l, y ≠ x → Q s → Q (f s y))
    (hat : ∀ s, Q s → P (f s x)) (hP : ∀ s, ∀ y ∈ l, y ≠ x → P s → P (f s y)) : P (l.foldl f s) := by
  obtain ⟨before, after, rfl⟩ := List.append_of_mem hx
  rw [List.nodup_append, List.nodup_cons] at hl
  obtain ⟨-, ⟨hafter, -⟩, hbefore⟩ := hl
  rw [List.foldl_append, List.foldl_cons]
  refine foldl_keeps (hat _ (foldl_keeps hs fun s y hy => ?_)) fun s y hy => ?_
  · exact hQ s y (List.mem_append_left _ hy) (hbefore y hy x List.mem_cons_self)
  · exact hP s y (List.mem_append_right _ (List.mem_cons_of_mem _ hy)) fun h => hafter (h ▸ hy)

/-- The same over the first `n` indices. -/
theorem foldl_range_reaches {f : σ → Nat → σ} {n i : Nat} (hi : i < n) (hs : Q s) (hQ : ∀ s, ∀ j < n, j ≠ i → Q s → Q (f s j))
    (hat : ∀ s, Q s → P (f s i)) (hP : ∀ s, ∀ j < n, j ≠ i → P s → P (f s j)) : P ((List.range n).foldl f s) :=
  foldl_reaches (List.mem_range.2 hi) List.nodup_range hs (fun s j hj => hQ s j (List.mem_range.1 hj)) hat
    fun s j hj => hP s j (List.mem_range.1 hj)

end Folds

/-! # Temperatures, triggers and plans of Tarnish (R521 to R537) -/

/-- Fields that are allowed are so in a longer list. -/
theorem Touches.mono {l m : List Fld} {s t : State} (h : Touches l s t) (hlm : l.all (m.contains ·) = true) : Touches m s t :=
  fun g hg => h g (List.all_eq_true.2 fun f hf =>
    Touches.apart (List.contains_iff_mem.1 (List.all_eq_true.1 hlm f hf)) hg)

/-! ### What Tarnish holds of an island -/

section Islands

variable (s : State) (i : Nat) (f : TarIsland → TarIsland)

@[simp] theorem State.tarIsl_updTarIsl_same : (s.updTarIsl i f).tarIsl i = f (s.tarIsl i) :=
  Sparse.get_upd_same _ _ i f

theorem State.tarIsl_updTarIsl_ne {j : Nat} (h : j ≠ i) : (s.updTarIsl i f).tarIsl j = s.tarIsl j :=
  Sparse.get_upd_ne _ _ f h

@[simp] theorem State.get_updTarIsl (g : Fld) (k l : Nat) : (s.updTarIsl i f).get g k l = s.get g k l := rfl

theorem State.tarIsl_congr {s t : State} (h : t.tar = s.tar) : t.tarIsl i = s.tarIsl i := by
  rw [State.tarIsl, State.tarIsl, h]

end Islands

/-! ### Triggers (R525, R526) -/

section Triggers

variable {s : State} (code : Nat)

theorem State.tarTrigger_of_disabled (h : s.bit TAR_CTRL.enable = false) : s.tarTrigger code = s := by
  simp [State.tarTrigger, h]

theorem State.tarTrigger_touches (s : State) : Touches [TAR_STATUS.pending] s (s.tarTrigger code) :=
  .ite .refl (.ite ((Touches.refl.of_csr rfl).put (by decide) _ _ _) (Touches.refl.of_csr rfl))

/-- A trigger adds its code to those that are due. -/
theorem State.tar_tarTrigger (h : s.bit TAR_CTRL.enable = true) :
    (s.tarTrigger code).tar = { s.tar with due := s.tar.due ||| 2 ^ code } := by
  simp only [State.tarTrigger, h, not_true_eq_false, if_false]
  split <;> rfl

theorem State.tar_tarTrigger_cases (s : State) :
    (s.tarTrigger code).tar = s.tar ∨ (s.tarTrigger code).tar = { s.tar with due := s.tar.due ||| 2 ^ code } := by
  by_cases h : s.bit TAR_CTRL.enable = true
  · exact .inr (State.tar_tarTrigger code h)
  · exact .inl (by rw [State.tarTrigger_of_disabled code (by simpa using h)])

@[simp] theorem State.tarIsl_tarTrigger (s : State) (i : Nat) : (s.tarTrigger code).tarIsl i = s.tarIsl i := by
  rcases State.tar_tarTrigger_cases code s with h | h <;> simp [State.tarIsl, h]

theorem State.pending_tarTrigger (h : s.bit TAR_CTRL.enable = true) (hbusy : s.bit TAR_STATUS.busy = true) :
    (s.tarTrigger code).get TAR_STATUS.pending = 1 := by
  have hbusy' : (s.updTar fun t => { t with due := t.due ||| 2 ^ code }).bit TAR_STATUS.busy = true := hbusy
  simp only [State.tarTrigger, h, not_true_eq_false, if_false, hbusy', if_true]
  exact State.get_put_of_lt _ _ _ (by decide)

/-- What a trigger does where Tarnish is on. -/
theorem State.tarTrigger_shows (h : s.bit TAR_CTRL.enable = true) :
    (s.tarTrigger code).tar.due = s.tar.due ||| 2 ^ code ∧
      (s.bit TAR_STATUS.busy = true → (s.tarTrigger code).get TAR_STATUS.pending = 1) :=
  ⟨by rw [State.tar_tarTrigger code h], State.pending_tarTrigger code h⟩

end Triggers

/-! ### A sample of the temperatures (R521) -/

/-- An island's temperature as a sample stores and shows it. -/
def State.storeTemp (s : State) (i : Nat) (v : Int) : State :=
  let s := s.updTarIsl i fun x => { x with temp := v, temps := windowPush (fun a b => decide (b ≤ a)) s.now v x.temps }
  let hi := (((s.tarIsl i).temps.head?).map (·.2)).getD v
  (s.put TAR_ISL_TEMP.now (ofInt 12 v) i).put TAR_ISL_TEMP.max24 (ofInt 12 hi) i

/-- One island's step of a sample: its temperature, and a trigger where it is above the plan's. -/
def State.takeTemp (temps : List Int) (s : State) (i : Nat) : State :=
  match temps[i]? with
  | none => s
  | some v =>
    let s := s.storeTemp i v
    match s.tar.tmax with
    | none => s
    | some l => if 8 * l.getD i 0 < v then s.tarTrigger 2 else s

/-- The temperatures of the stacks and of the hottest island, as a sample shows them. -/
def State.showTemps (s : State) (t : Nat) (temps : List Int) (h0 h1 : Nat) : State :=
  let s := (((s.at t).put HBM_TEMP.stack0 h0).put HBM_TEMP.stack1 h1).put SYS_TEMP.hbm (ofInt 8 (max (toInt 8 (h0 % 256)) (toInt 8 (h1 % 256))))
  match temps with
  | [] => s
  | v :: vs => s.put SYS_TEMP.island (ofInt 12 (vs.foldl max v))

/-- The lowest voltages of a sample join the droop windows. -/
def State.takeDroops (s : State) (lows : List Nat) : State :=
  lows.zipIdx.foldl (fun s e => if e.2 < 16 then s.droopSample e.2 e.1 else s) s

theorem State.tempSample_eq (s : State) (t : Nat) (temps : List Int) (lows : List Nat) (h0 h1 : Nat) :
    s.tempSample t temps lows h0 h1 =
      (List.range 16).foldl (State.takeTemp temps) ((s.showTemps t temps h0 h1).takeDroops lows) := rfl

section Sample

variable {s : State} {temps : List Int} {i j : Nat} {v : Int}

theorem ofInt_lt (w : Nat) (x : Int) : ofInt w x < 2 ^ w := by
  rw [ofInt_eq]
  exact (BitVec.ofInt w x).isLt

theorem State.storeTemp_touches (s : State) (i : Nat) (v : Int) :
    Touches [TAR_ISL_TEMP.now, TAR_ISL_TEMP.max24] s (s.storeTemp i v) :=
  ((Touches.refl.of_csr rfl).put (by decide) _ _ _).put (by decide) _ _ _

theorem State.takeTemp_cases (s : State) (h : temps[i]? = some v) :
    s.takeTemp temps i = s.storeTemp i v ∨ s.takeTemp temps i = (s.storeTemp i v).tarTrigger 2 := by
  unfold State.takeTemp
  rw [h]
  dsimp only
  split
  · exact .inl rfl
  · split
    · exact .inr rfl
    · exact .inl rfl

theorem State.takeTemp_none (s : State) (h : temps[i]? = none) : s.takeTemp temps i = s := by
  unfold State.takeTemp
  rw [h]

/-- A temperature above the plan's brings trigger 2. -/
theorem State.takeTemp_above {l : List Int} (h : temps[i]? = some v) (hl : s.tar.tmax = some l) (hlt : 8 * l.getD i 0 < v) :
    s.takeTemp temps i = (s.storeTemp i v).tarTrigger 2 := by
  have hmax : (s.storeTemp i v).tar.tmax = some l := hl
  unfold State.takeTemp
  rw [h]
  simp only [hmax, if_pos hlt]

/-- A sample writes the temperatures of the islands and the pending bit alone. -/
theorem State.takeTemp_touches (s : State) (temps : List Int) (i : Nat) :
    Touches [TAR_ISL_TEMP.now, TAR_ISL_TEMP.max24, TAR_STATUS.pending] s (s.takeTemp temps i) := by
  have hstore : ∀ v, Touches [TAR_ISL_TEMP.now, TAR_ISL_TEMP.max24, TAR_STATUS.pending] s (s.storeTemp i v) := fun v =>
    ((Touches.refl.of_csr rfl).put (by decide) _ _ _).put (by decide) _ _ _
  cases h : temps[i]? with
  | none => rw [State.takeTemp_none s h]; exact .refl
  | some v =>
    rcases State.takeTemp_cases s h with e | e <;> rw [e]
    · exact hstore v
    · exact (hstore v).trans ((State.tarTrigger_touches 2 _).mono (by decide))

/-- The island of a step has the temperature of the sample. -/
theorem State.takeTemp_shows (s : State) (h : temps[i]? = some v) :
    ((s.takeTemp temps i).tarIsl i).temp = v ∧ (s.takeTemp temps i).get TAR_ISL_TEMP.now i = ofInt 12 v := by
  have htemp : ((s.storeTemp i v).tarIsl i).temp = v := by
    rw [State.storeTemp, State.tarIsl_congr i rfl]
    exact congrArg TarIsland.temp (State.tarIsl_updTarIsl_same s i _)
  have hnow : (s.storeTemp i v).get TAR_ISL_TEMP.now i = ofInt 12 v := by
    rw [State.storeTemp, State.get_put_apart (h := by decide), State.get_put_of_lt _ _ _ (ofInt_lt 12 v)]
  rcases State.takeTemp_cases s h with e | e <;> rw [e]
  · exact ⟨htemp, hnow⟩
  · rw [(State.tarTrigger_touches 2 _) TAR_ISL_TEMP.now (by decide)]
    exact ⟨by rw [State.tarIsl_tarTrigger, htemp], hnow⟩

/-- The step of another island leaves it. -/
theorem State.takeTemp_other (s : State) (hi : i < 16) (hj : j < 16) (h : j ≠ i) :
    (s.takeTemp temps j).tarIsl i = s.tarIsl i ∧ (s.takeTemp temps j).get TAR_ISL_TEMP.now i = s.get TAR_ISL_TEMP.now i := by
  have hisl (v : Int) : (s.storeTemp j v).tarIsl i = s.tarIsl i := by
    rw [State.storeTemp, State.tarIsl_congr i rfl]
    exact State.tarIsl_updTarIsl_ne _ _ _ h.symm
  have hnow (v : Int) : (s.storeTemp j v).get TAR_ISL_TEMP.now i = s.get TAR_ISL_TEMP.now i := by
    rw [State.storeTemp, State.get_put_apart (h := by decide),
      State.get_put_ne _ _ _ _ _ _ _ _ (Fld.key_ne_of_first (by decide) hj hi (by decide) h.symm), State.get_updTarIsl]
  cases hv : temps[j]? with
  | none => rw [State.takeTemp_none s hv]; exact ⟨rfl, rfl⟩
  | some v =>
    rcases State.takeTemp_cases s hv with e | e <;> rw [e]
    · exact ⟨hisl v, hnow v⟩
    · rw [(State.tarTrigger_touches 2 _) TAR_ISL_TEMP.now (by decide), State.tarIsl_tarTrigger]
      exact ⟨hisl v, hnow v⟩

theorem State.droopSample_touches (s : State) (i low : Nat) :
    Touches [TAR_ISL_DROOP.min_mv, TAR_ISL_DROOP.depth_mv] s (s.droopSample i low) := by
  have hends : ∀ t low deep, Touches [TAR_ISL_DROOP.min_mv, TAR_ISL_DROOP.depth_mv] s (s.droopEnds i t low deep) :=
    fun _ _ _ => ((Touches.refl.of_csr rfl).put (by decide) _ _ _).put (by decide) _ _ _
  unfold State.droopSample
  dsimp only
  refine Touches.of_csr ?_ (t := match (s.tarIsl i).window with
    | some w => if w.index = (s.now - 1) / droopWindow then s else s.droopEnds i ((w.index + 1) * droopWindow) w.low w.deep
    | none => s) rfl
  split
  · exact .ite .refl (hends _ _ _)
  · exact .refl

theorem State.tmax_droopSample (s : State) (i low : Nat) : (s.droopSample i low).tar.tmax = s.tar.tmax := by
  cases h : (s.tarIsl i).window with
  | none => simp only [State.droopSample, h]; rfl
  | some w =>
    simp only [State.droopSample, h]
    split <;> rfl

/-- The first voltage of a window opens it with its depth below the setpoint. -/
theorem State.window_droopSample (h : (s.tarIsl i).window = none) (low : Nat) :
    ((s.droopSample i low).tarIsl i).window =
      some { index := (s.now - 1) / droopWindow, low := low, deep := s.get TAR_AVS.set_mv - low } := by
  simp only [State.droopSample, h, State.tarIsl_updTarIsl_same, Option.filter_none]

/-- What a sample keeps: the trigger's enable bit, the plan's temperatures and the temperatures that the stacks show. -/
def SampleKeeps (s t : State) : Prop :=
  Touches [TAR_ISL_DROOP.min_mv, TAR_ISL_DROOP.depth_mv, TAR_ISL_TEMP.now, TAR_ISL_TEMP.max24, TAR_STATUS.pending] s t ∧
    t.tar.tmax = s.tar.tmax

theorem SampleKeeps.trans {t u : State} (h : SampleKeeps s t) (k : SampleKeeps t u) : SampleKeeps s u :=
  ⟨h.1.trans k.1, k.2.trans h.2⟩

theorem State.takeDroops_keeps (s : State) (lows : List Nat) : SampleKeeps s (s.takeDroops lows) :=
  foldl_keeps (P := SampleKeeps s) ⟨.refl, rfl⟩ fun t e _ ht => by
    split
    · exact ht.trans ⟨(State.droopSample_touches _ _ _).mono (by decide), State.tmax_droopSample _ _ _⟩
    · exact ht

theorem State.takeTemp_keeps (s : State) (temps : List Int) (i : Nat) : SampleKeeps s (s.takeTemp temps i) := by
  refine ⟨(State.takeTemp_touches s temps i).mono (by decide), ?_⟩
  cases h : temps[i]? with
  | none => rw [State.takeTemp_none s h]
  | some v =>
    rcases State.takeTemp_cases s h with e | e <;> rw [e]
    · rfl
    · rcases State.tar_tarTrigger_cases 2 (s.storeTemp i v) with h | h <;> rw [h] <;> rfl

/-- The triggers that are due stay so over a sample. -/
theorem State.due_takeTemp (h : s.tar.due.testBit 2 = true) : (s.takeTemp temps i).tar.due.testBit 2 = true := by
  have hstore : ∀ v, (s.storeTemp i v).tar.due = s.tar.due := fun _ => rfl
  cases hv : temps[i]? with
  | none => rwa [State.takeTemp_none s hv]
  | some v =>
    rcases State.takeTemp_cases s hv with e | e <;> rw [e]
    · rwa [hstore]
    · rcases State.tar_tarTrigger_cases 2 (s.storeTemp i v) with k | k <;> rw [k]
      · rwa [hstore]
      · rw [Nat.testBit_or, show Nat.testBit (2 ^ 2) 2 = true from by decide, Bool.or_true]

theorem State.showTemps_touches (s : State) (t : Nat) (temps : List Int) (h0 h1 : Nat) :
    Touches [HBM_TEMP.stack0, HBM_TEMP.stack1, SYS_TEMP.hbm, SYS_TEMP.island] s (s.showTemps t temps h0 h1) ∧
      (s.showTemps t temps h0 h1).tar = s.tar ∧ (s.showTemps t temps h0 h1).now = max s.now t := by
  have hshown : Touches [HBM_TEMP.stack0, HBM_TEMP.stack1, SYS_TEMP.hbm, SYS_TEMP.island] s
      ((((s.at t).put HBM_TEMP.stack0 h0).put HBM_TEMP.stack1 h1).put SYS_TEMP.hbm
        (ofInt 8 (max (toInt 8 (h0 % 256)) (toInt 8 (h1 % 256))))) :=
    (((Touches.refl.of_csr rfl).put (by decide) _ _ _).put (by decide) _ _ _).put (by decide) _ _ _
  cases temps with
  | nil => exact ⟨hshown, rfl, rfl⟩
  | cons v vs => exact ⟨hshown.put (by decide) _ _ _, rfl, rfl⟩

/-- The temperatures of the stacks as a sample shows them. -/
theorem State.showTemps_hbm (s : State) (t : Nat) (temps : List Int) (h0 h1 : BitVec 8) :
    (s.showTemps t temps h0.toNat h1.toNat).get HBM_TEMP.stack0 = h0.toNat ∧
      (s.showTemps t temps h0.toNat h1.toNat).get HBM_TEMP.stack1 = h1.toNat := by
  have h0' := State.get_put_of_lt (s.at t) (f := HBM_TEMP.stack0) 0 0 h0.isLt
  have h1' := State.get_put_of_lt ((s.at t).put HBM_TEMP.stack0 h0.toNat) (f := HBM_TEMP.stack1) 0 0 h1.isLt
  cases temps <;> simp only [State.showTemps, State.get_put_apart _ _ _ _ _ _ (h := show SYS_TEMP.island.apart HBM_TEMP.stack0 from by decide),
    State.get_put_apart _ _ _ _ _ _ (h := show SYS_TEMP.island.apart HBM_TEMP.stack1 from by decide),
    State.get_put_apart _ _ _ _ _ _ (h := show SYS_TEMP.hbm.apart HBM_TEMP.stack0 from by decide),
    State.get_put_apart _ _ _ _ _ _ (h := show SYS_TEMP.hbm.apart HBM_TEMP.stack1 from by decide),
    State.get_put_apart _ _ _ _ _ _ (h := show HBM_TEMP.stack1.apart HBM_TEMP.stack0 from by decide), h0', h1'] <;> exact ⟨trivial, trivial⟩

end Sample

/-! ### The steps of a replanning (R525 to R532) -/

section Replanning

variable {s : State}

theorem State.inc_tar (s : State) (f : Fld) (i j : Nat) : (s.inc f i j).tar = s.tar := by
  obtain ⟨_, _, e⟩ := State.inc_parts s f i j
  rw [e]

theorem lowestOne_eq {n v c : Nat} (hc : c < n) (h : v.testBit c = true) (hlow : ∀ b < c, v.testBit b = false) :
    lowestOne n v = some c := by
  have hbit (b : Nat) : decide (v >>> b % 2 = 1) = v.testBit b := by
    rw [Nat.testBit_eq_decide_div_mod_eq, Nat.shiftRight_eq_div_pow]
  rw [lowestOne, List.find?_eq_some_iff_append]
  refine ⟨(hbit c).trans h, List.range c, (List.range (n - c - 1)).map (c + 1 + ·), ?_, fun b hb => ?_⟩
  · rw [← List.singleton_append, ← List.append_assoc, ← List.range_succ, ← List.range_add]
    congr 1
    omega
  · rw [hbit, hlow b (List.mem_range.1 hb)]
    rfl

/-- The fields that the scans of a replanning write. -/
def scanFields : List Fld :=
  [FLN_RX_EQ.adapt_freeze, FLN_STATUS.eye_busy, FLN_EYE_RESULT.valid, FLN_ERR.eye_busy, TAR_RLANE_EYE.valid,
    TAR_EYE_REFUSED_CNT.count, TAR_ERR.eye_refused]

/-- From `s` to `t` scans have started or ended, and nothing else of a replanning has changed. -/
def Scans (s t : State) : Prop := Touches scanFields s t ∧ t.tar.phase = s.tar.phase ∧ t.tar.due = s.tar.due

namespace Scans

variable {s t u : State}

theorem refl : Scans s s := ⟨.refl, rfl, rfl⟩

theorem trans (h : Scans s t) (k : Scans t u) : Scans s u := ⟨h.1.trans k.1, k.2.1.trans h.2.1, k.2.2.trans h.2.2⟩

theorem of_touches (h : Touches scanFields s t) (e : t.tar = s.tar) : Scans s t := ⟨h, by rw [e], by rw [e]⟩

theorem ite {p : Prop} [Decidable p] (ht : Scans s t) (hu : Scans s u) : Scans s (if p then t else u) := by
  split <;> assumption

theorem put {f : Fld} (h : Scans s t) (hf : f ∈ scanFields) (v i j : Nat) : Scans s (t.put f v i j) :=
  h.trans (of_touches (Touches.refl.put hf v i j) rfl)

theorem updTar (h : Scans s t) (f : Tarnish → Tarnish) (hf : ∀ x, (f x).phase = x.phase ∧ (f x).due = x.due) :
    Scans s (t.updTar f) :=
  h.trans ⟨Touches.refl.of_csr rfl, (hf t.tar).1, (hf t.tar).2⟩

theorem eyeStart (h : Scans s t) (n : Nat) : Scans s (t.eyeStart n) := by
  unfold State.eyeStart
  split
  · exact (h.put (by decide) _ _ _).put (by decide) _ _ _
  · exact h.trans (of_touches (Touches.refl.err (by decide) _ _ _ _) rfl)

theorem scanEnds (h : Scans s t) (x : TarScan) : Scans s (t.scanEnds x) := by
  have hend := h.updTar (fun y => { y with scans := y.scans.filter fun z => z.lane != x.lane }) fun _ => ⟨rfl, rfl⟩
  unfold State.scanEnds
  dsimp only
  split
  · exact hend.put (by decide) _ _ _
  · exact hend

theorem scanStart (h : Scans s t) (lane : Nat) : Scans s (t.scanStart lane) := by
  unfold State.scanStart
  split
  · exact h
  split
  · dsimp only
    split
    · have hcount := (h.eyeStart lane).trans (of_touches (Touches.refl.inc (f := TAR_EYE_REFUSED_CNT.count) (by decide) 0 0)
        (State.inc_tar _ _ _ _))
      exact hcount.trans (of_touches (Touches.refl.err (by decide) _ _ _ _) rfl)
    · exact ((h.put (by decide) _ _ _).eyeStart lane).updTar _ fun _ => ⟨rfl, rfl⟩
  · exact (h.put (by decide) _ _ _).updTar _ fun _ => ⟨rfl, rfl⟩

theorem scanNext (h : Scans s t) : Scans s t.scanNext := by
  unfold State.scanNext
  refine foldl_keeps (P := Scans s) (foldl_keeps (P := Scans s) h fun u x _ hu => ?_) fun u lane _ hu => ?_
  · exact .ite hu (hu.scanEnds x)
  · refine .ite hu (scanStart (updTar hu _ ?_) lane)
    exact fun _ => ⟨rfl, rfl⟩

theorem scansBegin (h : Scans s t) : Scans s t.scansBegin := by
  unfold State.scansBegin
  split
  · exact h
  · dsimp only
    refine scanNext (updTar h _ ?_)
    exact fun _ => ⟨rfl, rfl⟩

end Scans

/-- A replanning that starts. -/
theorem State.replanStart_of_due (hen : s.bit TAR_CTRL.enable = true) (hph : s.tar.phase = .idle) (hdue : s.tar.due ≠ 0) :
    s.replanStart = (((((match lowestOne 9 s.tar.due with
      | some c => s.put TAR_STATUS.last_trigger c
      | none => s).put TAR_STATUS.busy 1).put TAR_STATUS.pending 0).updTar fun t => { t with phase := .sampling, due := 0 }).scansBegin) := by
  unfold State.replanStart
  exact if_neg (by simp [hph, hen, hdue])

theorem State.replanStart_shows (hen : s.bit TAR_CTRL.enable = true) (hph : s.tar.phase = .idle) (hdue : s.tar.due ≠ 0) :
    s.replanStart.tar.phase = .sampling ∧ s.replanStart.tar.due = 0 ∧ s.replanStart.get TAR_STATUS.busy = 1 ∧
      s.replanStart.get TAR_STATUS.pending = 0 ∧ (∀ c < 9, s.tar.due.testBit c = true → (∀ b < c, s.tar.due.testBit b = false) →
        s.replanStart.get TAR_STATUS.last_trigger = c) := by
  rw [State.replanStart_of_due hen hph hdue]
  generalize hfirst : (match lowestOne 9 s.tar.due with
    | some c => s.put TAR_STATUS.last_trigger c
    | none => s) = p
  obtain ⟨hkeep, hphase, hdue'⟩ := Scans.refl.scansBegin
    (s := ((p.put TAR_STATUS.busy 1).put TAR_STATUS.pending 0).updTar fun t => { t with phase := .sampling, due := 0 })
  refine ⟨hphase, hdue', ?_, ?_, fun c hc hbit hlow => ?_⟩
  · rw [hkeep TAR_STATUS.busy (by decide), State.get_updTar, State.get_put_apart (h := by decide), State.get_put_of_lt _ _ _ (by decide)]
  · rw [hkeep TAR_STATUS.pending (by decide), State.get_updTar, State.get_put_of_lt _ _ _ (by decide)]
  · rw [hkeep TAR_STATUS.last_trigger (by decide), State.get_updTar, State.get_put_apart (h := by decide),
      State.get_put_apart (h := by decide), ← hfirst, lowestOne_eq hc hbit hlow]
    exact State.get_put_of_lt _ _ _ (Nat.lt_of_lt_of_le hc (by decide))

/-- The end of a replanning. -/
theorem State.replanEnd_shows (s : State) (completed : Bool) :
    (s.replanEnd completed).tar.phase = .idle ∧ (s.replanEnd completed).tar.plan = none ∧
      (s.replanEnd completed).get TAR_STATUS.busy = 0 ∧
      Touches [TAR_STATUS.busy, TAR_REPLAN_CNT.count] s (s.replanEnd completed) := by
  have hbusy : ((s.updTar fun t => { t with phase := .idle, plan := none }).put TAR_STATUS.busy 0).get TAR_STATUS.busy = 0 :=
    State.get_put_of_lt _ _ _ (by decide)
  have htouch : Touches [TAR_STATUS.busy, TAR_REPLAN_CNT.count] s
      ((s.updTar fun t => { t with phase := .idle, plan := none }).put TAR_STATUS.busy 0) :=
    (Touches.refl.of_csr rfl).put (by decide) _ _ _
  cases completed with
  | false => exact ⟨rfl, rfl, hbusy, htouch⟩
  | true =>
    rw [show s.replanEnd true = ((s.updTar fun t => { t with phase := .idle, plan := none }).put TAR_STATUS.busy 0).inc
      TAR_REPLAN_CNT.count from rfl]
    exact ⟨by rw [State.inc_tar]; rfl, by rw [State.inc_tar]; rfl, by rw [State.get_inc_apart (h := by decide), hbusy],
      htouch.inc (by decide) _ _⟩

end Replanning

/-! # The plan of a replanning, and what Tarnish keeps (R527 to R536) -/

section Plan

variable {s : State}

/-- The readings of a replanning, the temperatures that it starts from and the setpoint in force. -/
def State.sensed (s : State) (t : Nat) (reads : List SensorRead) : State :=
  let s := reads.foldl State.takeReading (s.at t)
  let s := (List.range 16).foldl (fun s i =>
    let s := s.updTarIsl i fun x => { x with tempPlan := x.temp }
    if executing (s.islState i) ∧ s.get SEQ_BG_CTRL.vendor_period ≠ 0 then s else s.put TAR_ISL_VMIN.stale 1 i) s
  s.updTar fun x => { x with vNow := s.get TAR_AVS.set_mv }

/-- What the plan takes of the islands. -/
def State.predictions (s : State) (reads : List SensorRead) : State × List PredIn :=
  (List.range 16).foldl (fun (a : State × List PredIn) i =>
    let (s, x) := a.1.normalise i (a.1.predIn (reads.any fun r => r.island.val == i) i)
    (s, a.2 ++ [x])) (s, [])

/-- The lowest voltage of the plan. -/
def State.firstVoltage (s : State) (ins : List PredIn) : Nat :=
  let vmax := (ins.filterMap (·.vmin)).foldl max 0
  if ins.any (·.vmin.isSome) then max (s.get TAR_V.floor_mv) (5 * ceilDiv (vmax + s.get TAR_GUARD.sram_mv) 5)
  else s.get TAR_V.floor_mv

/-- The plan from what it takes of the islands, to its order or its proposal. -/
def State.planFrom (s : State) (ins : List PredIn) : State :=
  let s := s.updTar fun x => { x with ins := ins, v0 := s.firstVoltage ins }
  let (pl, retire) := s.makePlan
  let s := s.planWarnings pl retire
  let s := retire.foldl State.retireIsland s
  s.orderVoltage pl

theorem State.sensorsSampled_of_sampling (h : s.tar.phase = .sampling) (t : Nat) (reads : List SensorRead) :
    s.sensorsSampled t reads = ((s.sensed t reads).predictions reads).1.planFrom ((s.sensed t reads).predictions reads).2 := by
  unfold State.sensorsSampled
  rw [if_neg (by simp [h])]
  extract_lets s1 s2 s3
  have hs : s3 = s.sensed t reads := rfl
  clear_value s3
  generalize hp : List.foldl _ _ _ = p
  rw [hs] at hp
  rw [show (s.sensed t reads).predictions reads = p from hp]
  obtain ⟨s4, ins⟩ := p
  dsimp only [State.planFrom, State.firstVoltage]

/-- The fields that the computation of a plan writes. -/
def planFields : List Fld :=
  [TAR_ISL_VMIN.stale, TAR_ISL_SLACK.norm, TAR_ISL_SLOPE.fs_per_h, TAR_ISL_FORECAST.hours, TAR_ISL_WARN.advisory,
    TAR_ISL_WARN.urgent, TAR_ISL_WARN.below_target, TAR_ISL_WARN.retired, TAR_STATUS.retired, TAR_ERR.island_retired,
    ARR_ISL_ERR.cmd_refused, SEQ_ADM_STATUS.busy]

theorem State.csr_raiseAll (s : State) (b : Nat) : (s.raiseAll b).csr = s.csr :=
  foldl_keeps (P := fun t : State => t.csr = s.csr) rfl fun t u _ ht => by
    unfold State.raiseEvent
    split
    · exact ht
    · exact ht

/-- From `s` to `t` only what a plan writes has changed, and neither what it takes of the islands nor the setpoint that it starts from. -/
def Plans (s t : State) : Prop := Touches planFields s t ∧ t.tar.ins = s.tar.ins ∧ t.tar.vNow = s.tar.vNow

namespace Plans

variable {s t u : State}

theorem refl : Plans s s := ⟨.refl, rfl, rfl⟩

theorem trans (h : Plans s t) (k : Plans t u) : Plans s u := ⟨h.1.trans k.1, k.2.1.trans h.2.1, k.2.2.trans h.2.2⟩

theorem of_touches (h : Touches planFields s t) (e : t.tar = s.tar) : Plans s t := ⟨h, by rw [e], by rw [e]⟩

theorem ite {p : Prop} [Decidable p] (ht : Plans s t) (hu : Plans s u) : Plans s (if p then t else u) := by
  split <;> assumption

theorem put {f : Fld} (h : Plans s t) (hf : f ∈ planFields) (v i j : Nat) : Plans s (t.put f v i j) :=
  h.trans (of_touches (Touches.refl.put hf v i j) rfl)

theorem err {f : Fld} (h : Plans s t) (hf : f ∈ planFields) (i inst detail j : Nat) : Plans s (t.err f i inst detail j) :=
  h.trans (of_touches (Touches.refl.err hf i inst detail j) rfl)

theorem updTarIsl (h : Plans s t) (i : Nat) (f : TarIsland → TarIsland) : Plans s (t.updTarIsl i f) :=
  h.trans ⟨Touches.refl.of_csr rfl, rfl, rfl⟩

theorem raiseAll (h : Plans s t) (b : Nat) : Plans s (t.raiseAll b) :=
  h.trans (of_touches (Touches.refl.of_csr (State.csr_raiseAll t b)) ((State.raiseAll_only (Only.rfl (s := t)) Covers.refl).tar (by decide)))

theorem publishForecast (h : Plans s t) (i : Nat) : Plans s (t.publishForecast i) := by
  have hslope := h.updTarIsl i fun x => { x with slope := t.islSlope i }
  unfold State.publishForecast
  dsimp only
  split
  · exact (hslope.put (by decide) _ _ _).put (by decide) _ _ _
  · exact (hslope.put (by decide) _ _ _).put (by decide) _ _ _

theorem normalise (h : Plans s t) (i : Nat) (x : PredIn) : Plans s (t.normalise i x).1 := by
  unfold State.normalise
  split
  · exact h
  · exact ((h.updTarIsl _ _).put (by decide) _ _ _).publishForecast i

theorem tarWarn {f : Fld} (h : Plans s t) (hf : f ∈ planFields) (i : Nat) : Plans s (t.tarWarn f i) :=
  have herr := h.err hf i i (t.fresh 64) 0
  have htook : Plans s (t.err f i i (t.fresh 64) 0).tookFree :=
    herr.trans (of_touches (Touches.refl.of_csr (State.tookFree_csr _)) (State.tookFree_tar _))
  htook.raiseAll 23

theorem planWarnings (h : Plans s t) (pl : Plan) (retire : List Nat) : Plans s (t.planWarnings pl retire) := by
  refine foldl_keeps (P := Plans s) h fun u i _ hu => ?_
  have h1 : ∀ p [Decidable p], Plans s (if p then u.tarWarn TAR_ISL_WARN.advisory i else u) :=
    fun p _ => ite (hu.tarWarn (by decide) i) hu
  extract_lets a b c
  have ha : Plans s a := h1 _
  have hb : Plans s b := ite (ha.tarWarn (by decide) i) ha
  have hc : Plans s c := ite (hb.tarWarn (by decide) i) hb
  exact ite (hc.tarWarn (by decide) i) hc

theorem islCmd (h : Plans s t) (i cmd : Nat) : Plans s (t.islCmd i cmd) := by
  refine foldl_keeps (P := Plans s) h fun u b _ hu => ?_
  refine ite hu (ite ?_ ?_)
  · exact hu.trans (of_touches (Touches.refl.of_csr rfl) rfl)
  · exact hu.err (by decide) _ _ _ _

theorem retireIsland (h : Plans s t) (i : Nat) : Plans s (t.retireIsland i) :=
  ((h.islCmd i 1).put (by decide) _ _ _).err (by decide) _ _ _ _

end Plans

/-- The proposal of a plan. -/
theorem State.tarPropose_of_plan {p : Plan} (h : s.tar.plan = some p) :
    s.tarPropose = ((s.updTar fun t => { t with phase := .proposed }).startAdmission false false (some p)).raiseAll 23 := by
  rw [State.tarPropose, h]

theorem State.tarPropose_shows (h : s.tar.plan.isSome = true) :
    Plans s s.tarPropose ∧ s.tarPropose.tar.phase = .proposed ∧ s.tarPropose.tar.plan = s.tar.plan ∧
      s.tarPropose.get SEQ_ADM_STATUS.busy = 1 := by
  obtain ⟨p, hp⟩ := Option.isSome_iff_exists.1 h
  have hall := State.raiseAll_only (b := 23)
    (Only.rfl (s := (s.updTar fun t => { t with phase := .proposed }).startAdmission false false (some p))) Covers.refl
  have htar := hall.tar (by decide)
  have hplan : Plans s ((s.updTar fun t => { t with phase := .proposed }).startAdmission false false (some p)) :=
    ⟨(Touches.refl.of_csr rfl).put (by decide) _ _ _, rfl, rfl⟩
  rw [State.tarPropose_of_plan hp]
  refine ⟨hplan.raiseAll 23, by rw [htar]; rfl, by rw [htar]; rfl, ?_⟩
  rw [hall.get (by decide)]
  exact State.get_put_of_lt _ _ _ (by decide)

/-- A plan is ordered where it raises the voltage, and proposed otherwise. -/
theorem State.orderVoltage_shows (s : State) (p : Plan) :
    Plans s (s.orderVoltage p) ∧ (s.orderVoltage p).tar.plan.isSome = true ∧
      ((s.orderVoltage p).tar.phase = .raising ∨ (s.orderVoltage p).tar.phase = .proposed) := by
  have hset : Plans s (s.updTar fun t => { t with plan := some p }) := ⟨Touches.refl.of_csr rfl, rfl, rfl⟩
  unfold State.orderVoltage
  dsimp only
  split
  · exact ⟨hset.trans ⟨Touches.refl.of_csr rfl, rfl, rfl⟩, rfl, .inl rfl⟩
  · obtain ⟨hkeep, hphase, hplan, -⟩ := State.tarPropose_shows (s := s.updTar fun t => { t with plan := some p }) rfl
    exact ⟨hset.trans hkeep, by rw [hplan]; rfl, .inr hphase⟩

theorem State.planFrom_shows (s : State) (ins : List PredIn) :
    Touches planFields s (s.planFrom ins) ∧ (s.planFrom ins).tar.ins = ins ∧ (s.planFrom ins).tar.vNow = s.tar.vNow ∧
      (s.planFrom ins).tar.plan.isSome = true ∧
      ((s.planFrom ins).tar.phase = .raising ∨ (s.planFrom ins).tar.phase = .proposed) := by
  obtain ⟨q, hq⟩ : ∃ q, q = s.updTar fun x => { x with ins := ins, v0 := s.firstVoltage ins } := ⟨_, rfl⟩
  have htouch : Touches planFields s q := by rw [hq]; exact Touches.refl.of_csr rfl
  have hins : q.tar.ins = ins ∧ q.tar.vNow = s.tar.vNow := by rw [hq]; exact ⟨rfl, rfl⟩
  have hwarned : Plans q (q.makePlan.2.foldl State.retireIsland (q.planWarnings q.makePlan.1 q.makePlan.2)) :=
    foldl_keeps (P := Plans q) (Plans.refl.planWarnings _ _) fun u i _ hu => hu.retireIsland i
  obtain ⟨hkeep, hplan, hphase⟩ :=
    State.orderVoltage_shows (q.makePlan.2.foldl State.retireIsland (q.planWarnings q.makePlan.1 q.makePlan.2)) q.makePlan.1
  obtain ⟨hall, hi, hv⟩ := hwarned.trans hkeep
  have heq : s.planFrom ins = (q.makePlan.2.foldl State.retireIsland (q.planWarnings q.makePlan.1 q.makePlan.2)).orderVoltage
      q.makePlan.1 := by
    rw [State.planFrom, ← hq]
  rw [heq]
  exact ⟨htouch.trans hall, hi.trans hins.1, hv.trans hins.2, hplan, hphase⟩

/-- Every island enters the plan once. -/
theorem State.predictions_shows (s : State) (reads : List SensorRead) :
    Plans s (s.predictions reads).1 ∧ (s.predictions reads).2.length = 16 := by
  have hall : ∀ (l : List Nat) (a : State × List PredIn), Plans s a.1 →
      Plans s (l.foldl (fun (a : State × List PredIn) i =>
        let (s, x) := a.1.normalise i (a.1.predIn (reads.any fun r => r.island.val == i) i)
        (s, a.2 ++ [x])) a).1 ∧
      (l.foldl (fun (a : State × List PredIn) i =>
        let (s, x) := a.1.normalise i (a.1.predIn (reads.any fun r => r.island.val == i) i)
        (s, a.2 ++ [x])) a).2.length = a.2.length + l.length := by
    intro l
    induction l with
    | nil => exact fun a ha => ⟨ha, rfl⟩
    | cons i l ih =>
      intro a ha
      obtain ⟨hkeep, hlen⟩ := ih ((a.1.normalise i (a.1.predIn (reads.any fun r => r.island.val == i) i)).1,
        a.2 ++ [(a.1.normalise i (a.1.predIn (reads.any fun r => r.island.val == i) i)).2]) (ha.normalise i _)
      refine ⟨hkeep, hlen.trans ?_⟩
      simp only [List.length_append, List.length_cons, List.length_nil]
      omega
  obtain ⟨hkeep, hlen⟩ := hall (List.range 16) (s, []) Plans.refl
  exact ⟨hkeep, hlen⟩

theorem State.takeReading_touches (s : State) (x : SensorRead) :
    Touches [TAR_ISL_VMIN.stale, TAR_ISL_SLACK.meas, TAR_ISL_RO.shift_ppm] s (s.takeReading x) := by
  unfold State.takeReading
  dsimp only
  split
  · exact Touches.refl.put (by decide) _ _ _
  · exact ((Touches.refl.of_csr rfl).put (by decide) _ _ _).put (by decide) _ _ _

/-- An island that executes shows its reading. -/
theorem State.takeReading_shows (x : SensorRead) (h : executing (s.islState x.island.val) = true) :
    (s.takeReading x).get TAR_ISL_SLACK.meas x.island.val = 50 * x.taps.val ∧
      (s.takeReading x).get TAR_ISL_RO.shift_ppm x.island.val = ofInt 16 x.shift := by
  have htaps := x.taps.isLt
  unfold State.takeReading
  simp only [h, not_true_eq_false, if_false]
  refine ⟨?_, State.get_put_of_lt _ _ _ (ofInt_lt 16 _)⟩
  rw [State.get_put_apart (h := by decide)]
  exact State.get_put_of_lt _ _ _ (Nat.lt_of_le_of_lt (Nat.mul_le_mul_left 50 (Nat.le_of_lt_succ htaps)) (by decide))

theorem State.sensed_shows (s : State) (t : Nat) (reads : List SensorRead) :
    Touches [TAR_ISL_VMIN.stale] (reads.foldl State.takeReading (s.at t)) (s.sensed t reads) ∧
      (s.sensed t reads).tar.vNow = s.get TAR_AVS.set_mv := by
  have hread : Touches [TAR_ISL_VMIN.stale, TAR_ISL_SLACK.meas, TAR_ISL_RO.shift_ppm] s (reads.foldl State.takeReading (s.at t)) :=
    foldl_keeps (P := Touches _ s) (Touches.refl.of_csr rfl) fun u x _ hu => hu.trans (State.takeReading_touches u x)
  obtain ⟨q, hq⟩ : ∃ q, q = (List.range 16).foldl (fun s i =>
    let s := s.updTarIsl i fun x => { x with tempPlan := x.temp }
    if executing (s.islState i) ∧ s.get SEQ_BG_CTRL.vendor_period ≠ 0 then s else s.put TAR_ISL_VMIN.stale 1 i)
      (reads.foldl State.takeReading (s.at t)) := ⟨_, rfl⟩
  have hstale : Touches [TAR_ISL_VMIN.stale] (reads.foldl State.takeReading (s.at t)) q := by
    rw [hq]
    exact foldl_keeps (P := Touches _ _) .refl fun u i _ hu => .ite (hu.of_csr rfl) ((hu.of_csr rfl).put (by decide) _ _ _)
  have heq : s.sensed t reads = q.updTar fun x => { x with vNow := q.get TAR_AVS.set_mv } := by
    rw [hq]
    rfl
  rw [heq]
  exact ⟨hstale.of_csr rfl, (hstale TAR_AVS.set_mv (by decide) 0 0).trans (hread TAR_AVS.set_mv (by decide) 0 0)⟩

theorem State.sensorsSampled_shows (h : s.tar.phase = .sampling) (t : Nat) (reads : List SensorRead) :
    (s.sensorsSampled t reads).tar.ins.length = 16 ∧ (s.sensorsSampled t reads).tar.vNow = s.get TAR_AVS.set_mv ∧
      (s.sensorsSampled t reads).tar.plan.isSome = true ∧
      ((s.sensorsSampled t reads).tar.phase = .raising ∨ (s.sensorsSampled t reads).tar.phase = .proposed) := by
  obtain ⟨-, hv⟩ := State.sensed_shows s t reads
  obtain ⟨⟨-, -, hpv⟩, hlen⟩ := State.predictions_shows (s.sensed t reads) reads
  obtain ⟨-, hins, hvn, hplan, hphase⟩ :=
    State.planFrom_shows ((s.sensed t reads).predictions reads).1 ((s.sensed t reads).predictions reads).2
  rw [State.sensorsSampled_of_sampling h]
  exact ⟨by rw [hins, hlen], by rw [hvn, hpv, hv], hplan, hphase⟩

/-- What the readings show, the plan leaves. -/
theorem State.sensorsSampled_reading (h : s.tar.phase = .sampling) (t : Nat) (x : SensorRead)
    (hx : executing (s.islState x.island.val) = true) :
    (s.sensorsSampled t [x]).get TAR_ISL_SLACK.meas x.island.val = 50 * x.taps.val ∧
      (s.sensorsSampled t [x]).get TAR_ISL_RO.shift_ppm x.island.val = ofInt 16 x.shift := by
  obtain ⟨hstale, -⟩ := State.sensed_shows s t [x]
  obtain ⟨⟨hpred, -, -⟩, -⟩ := State.predictions_shows (s.sensed t [x]) [x]
  obtain ⟨hplan, -⟩ :=
    State.planFrom_shows ((s.sensed t [x]).predictions [x]).1 ((s.sensed t [x]).predictions [x]).2
  have hall : Touches (TAR_ISL_VMIN.stale :: planFields) ((s.at t).takeReading x) (s.sensorsSampled t [x]) := by
    rw [State.sensorsSampled_of_sampling h]
    exact ((hstale.mono (by decide)).trans (hpred.mono (by decide))).trans (hplan.mono (by decide))
  obtain ⟨hmeas, hshift⟩ := State.takeReading_shows (s := s.at t) x hx
  exact ⟨by rw [hall _ (by decide), hmeas], by rw [hall _ (by decide), hshift]⟩

end Plan

/-! ### What Tarnish keeps (R533, R534) -/

section History

variable {s : State}

/-- What a point of its history adds to an island. -/
def TarIsland.pointed (x y : TarIsland) (now : Nat) : Prop :=
  y.hist.head?.map (fun p => p.norm) = x.norm ∧ y.hist.head?.map (fun p => p.time) = some now ∧ y.hist.tail = x.hist.take 255

theorem State.tarIsl_publishForecast (s : State) (i : Nat) : ∃ m, (s.publishForecast i).tarIsl i = { s.tarIsl i with slope := m } ∧
    ∀ j ≠ i, (s.publishForecast i).tarIsl j = s.tarIsl j := by
  have hset : (s.publishForecast i).tar = (s.updTarIsl i fun x => { x with slope := s.islSlope i }).tar := by
    unfold State.publishForecast
    dsimp only
    split <;> rfl
  exact ⟨_, (State.tarIsl_congr i hset).trans (State.tarIsl_updTarIsl_same s i _),
    fun j hj => (State.tarIsl_congr j hset).trans (State.tarIsl_updTarIsl_ne s i _ hj)⟩

/-- The point of an island whose s_norm is `n`. -/
def State.histPoint (s : State) (i : Nat) (n : Int) : HistPoint :=
  { time := s.now, norm := n, shift := (s.tarIsl i).shift,
    tmax := -((-(((s.tarIsl i).temps.head?.map (·.2)).getD (s.tarIsl i).temp)) / 8) + s.get TAR_TEMP.headroom }

/-- The point of one island joins its history. -/
def State.addPoint (s : State) (i : Nat) : State :=
  match (s.tarIsl i).norm with
  | none => s
  | some n => (s.updTarIsl i fun x => { x with hist := (s.histPoint i n :: x.hist).take 256 }).publishForecast i

/-- The point of one lane. -/
def State.addEye (s : State) (e : Nat × Option (Nat × Nat)) : State :=
  match e.2 with
  | none => s
  | some (h, w) =>
    (s.updTar fun t => { t with lanes := Sparse.upd [] t.lanes e.1 fun l =>
      (({ time := s.now, height := h, width := w } : EyePoint) :: l).take 64 }).judgeEye e.1

theorem State.historyPoint_eq (s : State) (t : Nat) :
    s.historyPoint t = ((List.range 16).foldl State.addPoint (s.at t)).tar.eyes.foldl State.addEye
      ((List.range 16).foldl State.addPoint (s.at t)) := by
  unfold State.historyPoint
  extract_lets a b
  have hb : b = (List.range 16).foldl State.addPoint (s.at t) := by
    unfold b
    congr 1
  rw [← hb]
  congr 1

theorem State.addPoint_of_norm {i : Nat} {n : Int} (h : (s.tarIsl i).norm = some n) :
    s.addPoint i = (s.updTarIsl i fun x => { x with hist := (s.histPoint i n :: x.hist).take 256 }).publishForecast i := by
  rw [State.addPoint, h]

theorem State.addPoint_of_none {i : Nat} (h : (s.tarIsl i).norm = none) : s.addPoint i = s := by
  rw [State.addPoint, h]

theorem State.addPoint_same (i : Nat) (h : (s.tarIsl i).norm.isSome = true) :
    (s.tarIsl i).pointed ((s.addPoint i).tarIsl i) s.now := by
  obtain ⟨n, hn⟩ := Option.isSome_iff_exists.1 h
  rw [State.addPoint_of_norm hn]
  generalize hp : s.histPoint i n = p
  obtain ⟨m, hm, -⟩ := State.tarIsl_publishForecast (s.updTarIsl i fun x => { x with hist := (p :: x.hist).take 256 }) i
  rw [hm, State.tarIsl_updTarIsl_same, ← hp]
  exact ⟨hn.symm, rfl, rfl⟩

theorem State.addPoint_other {i j : Nat} (h : j ≠ i) : (s.addPoint i).tarIsl j = s.tarIsl j := by
  cases hn : (s.tarIsl i).norm with
  | none => rw [State.addPoint_of_none hn]
  | some n =>
    rw [State.addPoint_of_norm hn]
    generalize s.histPoint i n = p
    obtain ⟨m, -, hm⟩ := State.tarIsl_publishForecast (s.updTarIsl i fun x => { x with hist := (p :: x.hist).take 256 }) i
    rw [hm j h, State.tarIsl_updTarIsl_ne s i _ h]

theorem State.now_addPoint (i : Nat) : (s.addPoint i).now = s.now := by
  cases hn : (s.tarIsl i).norm with
  | none => rw [State.addPoint_of_none hn]
  | some n =>
    rw [State.addPoint_of_norm hn]
    generalize s.histPoint i n = p
    have honly := State.publishForecast_only (i := i)
      (Only.rfl (s := s.updTarIsl i fun x => { x with hist := (p :: x.hist).take 256 })) Covers.refl
    rw [honly.now (by decide)]
    rfl

theorem State.tarIsl_addEye (e : Nat × Option (Nat × Nat)) (i : Nat) : (s.addEye e).tarIsl i = s.tarIsl i := by
  unfold State.addEye
  split
  · rfl
  · next h w _ =>
    generalize hu : (s.updTar fun t => { t with lanes := Sparse.upd [] t.lanes e.1 fun l =>
      (({ time := s.now, height := h, width := w } : EyePoint) :: l).take 64 }) = u
    have htar := (State.judgeEye_only (lane := e.1) (Only.rfl (s := u)) Covers.refl).tar (by decide)
    rw [State.tarIsl_congr i htar, ← hu]
    rfl

theorem State.historyPoint_shows (s : State) (t : Nat) {i : Nat} (hi : i < 16) (h : (s.tarIsl i).norm.isSome = true) :
    (s.tarIsl i).pointed ((s.historyPoint t).tarIsl i) (max s.now t) := by
  have hpoints : (s.tarIsl i).pointed (((List.range 16).foldl State.addPoint (s.at t)).tarIsl i) (max s.now t) := by
    refine foldl_range_reaches (P := fun u : State => (s.tarIsl i).pointed (u.tarIsl i) (max s.now t))
      (Q := fun u : State => u.tarIsl i = s.tarIsl i ∧ u.now = max s.now t) hi ⟨rfl, rfl⟩ (fun u j _ hj hu => ?_) (fun u hu => ?_)
      fun u j _ hj hu => ?_
    · rwa [State.addPoint_other hj.symm, State.now_addPoint]
    · obtain ⟨hisl, hnow⟩ := hu
      have hp := State.addPoint_same (s := u) i (by rwa [hisl])
      rwa [hisl, hnow] at hp
    · rwa [State.addPoint_other hj.symm]
  rw [State.historyPoint_eq]
  exact foldl_keeps (P := fun u : State => (s.tarIsl i).pointed (u.tarIsl i) (max s.now t)) hpoints
    fun u e _ hu => by rwa [State.tarIsl_addEye]

/-- Taking a bit away leaves the others. -/
theorem testBit_sub_two_pow {o b j : Nat} (ho : o.testBit b = true) (h : j ≠ b) : (o - 2 ^ b).testBit j = o.testBit j := by
  have hpow : 2 ^ (b + 1) = 2 * 2 ^ b := by rw [Nat.pow_succ, Nat.mul_comm]
  rw [Nat.testBit_eq_decide_div_mod_eq, decide_eq_true_eq] at ho
  have hdiv := Nat.div_add_mod o (2 ^ b)
  have hr := Nat.mod_lt o (Nat.two_pow_pos b)
  generalize hrest : o % 2 ^ b = r at hdiv hr
  obtain ⟨q, hq⟩ : ∃ q, o / 2 ^ b = 2 * q + 1 := ⟨o / 2 ^ b / 2, by omega⟩
  have hfull : o = 2 ^ (b + 1) * q + (2 ^ b + r) := by
    rw [hpow, ← hdiv, hq]
    ring
  have hless : o - 2 ^ b = 2 ^ (b + 1) * q + r := by omega
  rw [hless, hfull, Nat.testBit_two_pow_mul_add _ (by omega), Nat.testBit_two_pow_mul_add _ (by omega)]
  split
  · next hlt => rw [Nat.testBit_two_pow_add_gt (by omega)]
  · rfl

/-- Setting or clearing one bit of a mask leaves the others. -/
theorem State.testBit_setBit_ne {f : Fld} {b j : Nat} (s : State) (v : Bool) (i k : Nat) (hj : j < f.width) (h : j ≠ b) :
    ((s.setBit f b v i k).get f i k).testBit j = (s.get f i k).testBit j := by
  rw [State.setBit, State.get_put_same, Nat.testBit_mod_two_pow, decide_eq_true hj, Bool.true_and]
  cases v with
  | true => simp [Nat.testBit_or, h.symm]
  | false =>
    cases ho : (s.get f i k).testBit b with
    | false => simp
    | true => simpa using testBit_sub_two_pow ho h

/-- A write of an island's number takes it from the retired ones. -/
theorem State.unretire_shows (s : State) (i : Fin 16) : ∀ j < 16, ((s.unretire i.val).get TAR_STATUS.retired).testBit j =
    (decide (j ≠ i.val) && (s.get TAR_STATUS.retired).testBit j) := by
  intro j hj
  by_cases hji : j = i.val
  · subst hji
    rw [State.unretire, State.testBit_setBit _ _ _ hj]
    simp
  · rw [State.unretire, State.testBit_setBit_ne _ _ _ _ hj hji, decide_eq_true hji, Bool.true_and]

end History

/-! ### The voltage (R530, R531) -/

section Voltage

variable {s : State} {p : Plan}

theorem State.avsComplete_raising (hph : s.tar.phase = .raising) (hp : s.tar.plan = some p) (means : List Nat) :
    s.avsComplete means = if ((List.range 16).all fun i => decide (means.getD i 0 ≤ p.voltage + 10 ∧ p.voltage ≤ means.getD i 0 + 10)) then
      (s.put TAR_AVS.set_mv p.voltage).updTar fun t => { t with phase := .settling } else s.put TAR_AVS.set_mv p.voltage := by
  simp only [State.avsComplete, hp, hph]

theorem State.avsComplete_lowering (hph : s.tar.phase = .lowering) (hp : s.tar.plan = some p) (means : List Nat) :
    s.avsComplete means = (s.put TAR_AVS.set_mv p.voltage).replanEnd true := by
  simp only [State.avsComplete, hp, hph]

/-- The reading of every island is within 10 mV of the plan's voltage. -/
theorem means_near {means : List Nat} : ((List.range 16).all fun i =>
    decide (means.getD i 0 ≤ p.voltage + 10 ∧ p.voltage ≤ means.getD i 0 + 10)) = true ↔
      ∀ i < 16, means.getD i 0 ≤ p.voltage + 10 ∧ p.voltage ≤ means.getD i 0 + 10 := by
  simp only [List.all_eq_true, List.mem_range, decide_eq_true_eq]

theorem State.avsComplete_near (hph : s.tar.phase = .raising) (hp : s.tar.plan = some p) {means : List Nat}
    (h : ∀ i < 16, means.getD i 0 ≤ p.voltage + 10 ∧ p.voltage ≤ means.getD i 0 + 10) :
    (s.avsComplete means).get TAR_AVS.set_mv = p.voltage % 1024 ∧ (s.avsComplete means).tar.phase = .settling := by
  rw [State.avsComplete_raising hph hp, if_pos (means_near.2 h)]
  exact ⟨State.get_put_same .., rfl⟩

theorem State.avsComplete_far (hph : s.tar.phase = .raising) (hp : s.tar.plan = some p) {means : List Nat}
    (h : ¬ ∀ i < 16, means.getD i 0 ≤ p.voltage + 10 ∧ p.voltage ≤ means.getD i 0 + 10) :
    (s.avsComplete means).get TAR_AVS.set_mv = p.voltage % 1024 ∧ (s.avsComplete means).tar.phase = .raising := by
  rw [State.avsComplete_raising hph hp, if_neg (fun hall => h (means_near.1 hall))]
  exact ⟨State.get_put_same .., hph⟩

/-- The voltage of a plan that lowers it ends the replanning. -/
theorem State.avsComplete_lower (hph : s.tar.phase = .lowering) (hp : s.tar.plan = some p) (means : List Nat) :
    (s.avsComplete means).get TAR_AVS.set_mv = p.voltage % 1024 ∧ (s.avsComplete means).tar.phase = .idle ∧
      (s.avsComplete means).tar.plan = none ∧ (s.avsComplete means).get TAR_STATUS.busy = 0 ∧
      (s.avsComplete means).get TAR_REPLAN_CNT.count = min (2 ^ 32 - 1) (s.get TAR_REPLAN_CNT.count + 1) := by
  obtain ⟨hphase, hplan, hbusy, hkeep⟩ := State.replanEnd_shows (s.put TAR_AVS.set_mv p.voltage) true
  rw [State.avsComplete_lowering hph hp]
  refine ⟨(hkeep TAR_AVS.set_mv (by decide) 0 0).trans (State.get_put_same ..), hphase, hplan, hbusy, ?_⟩
  rw [State.replanEnd, if_pos rfl, State.get_inc_rc _ _ _ rfl, State.get_put_apart (h := by decide), State.get_updTar,
    State.get_put_apart (h := by decide)]
  rfl

/-- An error of the voltage abandons the replanning. -/
theorem State.avsFail_shows (h : s.tar.phase = .raising ∨ s.tar.phase = .lowering) :
    s.avsFail.tar.phase = .idle ∧ s.avsFail.tar.plan = none ∧ s.avsFail.get TAR_STATUS.busy = 0 ∧
      s.avsFail.get TAR_STATUS.pending = 1 ∧ s.avsFail.get TAR_ERR.avs_fail = 1 := by
  obtain ⟨hphase, hplan, hbusy, hkeep⟩ := State.replanEnd_shows (s.err TAR_ERR.avs_fail) false
  rw [State.avsFail, if_pos h]
  refine ⟨hphase, hplan, (State.get_put_apart (h := by decide) ..).trans hbusy, State.get_put_of_lt _ _ _ (by decide), ?_⟩
  rw [State.get_put_apart (h := by decide), hkeep TAR_ERR.avs_fail (by decide)]
  exact State.get_err_same (h := rfl) ..

end Voltage

/-- The temperatures that a sample shows. -/
theorem State.tempSample_shows (s : State) (t : Nat) (temps : List Int) (lows : List Nat) (h0 h1 : BitVec 8) :
    (s.tempSample t temps lows h0.toNat h1.toNat).get HBM_TEMP.stack0 = h0.toNat ∧
      (s.tempSample t temps lows h0.toNat h1.toNat).get HBM_TEMP.stack1 = h1.toNat ∧ ∀ i < 16, i < temps.length →
        ((s.tempSample t temps lows h0.toNat h1.toNat).tarIsl i).temp = temps.getD i 0 ∧
          (s.tempSample t temps lows h0.toNat h1.toNat).get TAR_ISL_TEMP.now i = ofInt 12 (temps.getD i 0) := by
  obtain ⟨hhbm0, hhbm1⟩ := State.showTemps_hbm s t temps h0 h1
  rw [State.tempSample_eq]
  obtain ⟨hkeep, -⟩ := (State.takeDroops_keeps (s.showTemps t temps h0.toNat h1.toNat) lows).trans
    (foldl_keeps (P := SampleKeeps _) (l := List.range 16) (f := State.takeTemp temps) ⟨.refl, rfl⟩
      fun u i _ hu => hu.trans (State.takeTemp_keeps u temps i))
  refine ⟨(hkeep HBM_TEMP.stack0 (by decide) 0 0).trans hhbm0, (hkeep HBM_TEMP.stack1 (by decide) 0 0).trans hhbm1, fun i hi hlen => ?_⟩
  have hget : temps[i]? = some (temps.getD i 0) := by
    rw [List.getD_eq_getElem?_getD, List.getElem?_eq_getElem hlen]
    rfl
  refine foldl_range_reaches (P := fun u : State => (u.tarIsl i).temp = temps.getD i 0 ∧
    u.get TAR_ISL_TEMP.now i = ofInt 12 (temps.getD i 0)) (Q := fun _ => True) hi trivial (fun _ _ _ _ _ => trivial)
    (fun u _ => State.takeTemp_shows u hget) fun u j hj hji hu => ?_
  obtain ⟨hisl, hnow⟩ := State.takeTemp_other (temps := temps) u hi hj hji
  rwa [hisl, hnow]

/-- A temperature above the plan's is a trigger. -/
theorem State.tempSample_above (s : State) (t : Nat) {temps : List Int} (lows : List Nat) (h0 h1 : Nat) {l : List Int}
    (hen : s.bit TAR_CTRL.enable = true) (hl : s.tar.tmax = some l)
    (hi : ∃ i, i < 16 ∧ i < temps.length ∧ 8 * l.getD i 0 < temps.getD i 0) :
    (s.tempSample t temps lows h0 h1).tar.due.testBit 2 = true := by
  obtain ⟨i, hi, hlen, hlt⟩ := hi
  have hget : temps[i]? = some (temps.getD i 0) := by
    rw [List.getD_eq_getElem?_getD, List.getElem?_eq_getElem hlen]
    rfl
  obtain ⟨hshow, htar, -⟩ := State.showTemps_touches s t temps h0 h1
  obtain ⟨hdroop, htmax⟩ := State.takeDroops_keeps (s.showTemps t temps h0 h1) lows
  rw [State.tempSample_eq]
  refine foldl_range_reaches (P := fun u : State => u.tar.due.testBit 2 = true)
    (Q := fun u : State => u.bit TAR_CTRL.enable = true ∧ u.tar.tmax = some l) hi ⟨?_, ?_⟩ (fun u j _ _ hu => ?_) (fun u hu => ?_)
    fun u j _ _ hu => State.due_takeTemp hu
  · rw [hdroop.bit (by decide), hshow.bit (by decide), hen]
  · rw [htmax, htar, hl]
  · obtain ⟨hkeep, hmax⟩ := State.takeTemp_keeps u temps j
    obtain ⟨hon, hl'⟩ := hu
    exact ⟨(hkeep.bit (by decide) 0 0).trans hon, hmax.trans hl'⟩
  · obtain ⟨hon, hl'⟩ := hu
    have hon' : (u.storeTemp i (temps.getD i 0)).bit TAR_CTRL.enable = true :=
      ((State.storeTemp_touches u i _).bit (by decide) 0 0).trans hon
    rw [State.takeTemp_above hget hl' hlt, State.tar_tarTrigger 2 hon']
    rw [Nat.testBit_or, show Nat.testBit (2 ^ 2) 2 = true from by decide, Bool.or_true]

/-- The first voltage of an island's window opens it. -/
theorem State.tempSample_window (s : State) (t low h0 h1 : Nat) (h : (s.tarIsl 0).window = none) :
    ((s.tempSample t [] [low] h0 h1).tarIsl 0).window =
      some { index := (max s.now t - 1) / 10 ^ 13, low := low, deep := s.get TAR_AVS.set_mv - low } := by
  obtain ⟨hshow, htar, hnow⟩ := State.showTemps_touches s t [] h0 h1
  have hfold : s.tempSample t [] [low] h0 h1 = (s.showTemps t [] h0 h1).droopSample 0 low := by
    rw [State.tempSample_eq]
    exact foldl_of_fixed fun i _ => State.takeTemp_none _ rfl
  rw [hfold, State.window_droopSample (by rwa [State.tarIsl_congr 0 htar]), hnow, hshow TAR_AVS.set_mv (by decide)]
  rfl

/-- Settles O33: the steps of a replanning each have their effect; the frames of the scans, of a plan and of a sample's steps are
proved once each. -/
theorem tarnishPlans : Obligations.TarnishPlans := by
  unfold Obligations.TarnishPlans
  refine ⟨fun s t temps lows h0 h1 ha => does_live rfl ha (State.tempSample_shows s t temps lows h0 h1),
    fun s t temps lows h0 h1 l ha hen hl hi => does_live rfl ha (State.tempSample_above s t lows _ _ hen hl hi),
    fun s i ha hen hshift => does_live rfl ha ?shift,
    fun s i ha hshift => exec_live rfl ha (if_neg (Nat.not_lt.2 hshift)),
    fun s t low h0 h1 ha hw => does_live rfl ha (State.tempSample_window s t low _ _ hw),
    fun s ha hen => does_live rfl ha (State.tarTrigger_shows 1 hen),
    fun s ha hen => does_live rfl ha (State.tarTrigger_shows 7 hen),
    fun s ha hen => exec_live rfl ha (State.tarTrigger_of_disabled 7 hen),
    fun s ha hen hph hdue => does_live rfl ha (State.replanStart_shows hen hph hdue),
    fun s t reads ha hph => does_live rfl ha (State.sensorsSampled_shows hph t reads),
    fun s t x ha hph hx => does_live rfl ha (State.sensorsSampled_reading hph t x hx),
    fun s means p ha hph hp hnear => does_live rfl ha (State.avsComplete_near hph hp hnear),
    fun s means p ha hph hp hfar => does_live rfl ha (State.avsComplete_far hph hp hfar),
    fun s means p ha hph hp => does_live rfl ha (State.avsComplete_lower hph hp means),
    fun s ha hph hp => does_live rfl ha ?settled,
    fun s ha hph => does_live rfl ha (State.avsFail_shows hph),
    fun s i ha => does_live rfl ha (State.unretire_shows s i),
    fun s t ha => does_live rfl ha fun i hi hn => State.historyPoint_shows s t hi hn,
    fun s i ha => does_live rfl ha (State.get_put_same ..)⟩
  case shift =>
    rw [State.tempShiftHeld, if_pos hshift]
    exact State.tarTrigger_shows 3 hen
  case settled =>
    obtain ⟨-, hphase, hplan, hbusy⟩ := State.tarPropose_shows hp
    rw [State.avsSettled, if_pos hph]
    exact ⟨hphase, hplan, hbusy⟩

/-! # A report of a lane that the tables do not hold (R539, R542) -/

/-- The ledger takes the identity of lane 16,153, whose entry of LED_LANE_REC stands at the offset of LED_CLOCK. -/
def strayIdentity : State := { State.reset with ledIn := [.identity 16153 [] false 0] }

theorem clock_strayIdentity : (strayIdentity.ledgerTick 0).get LED_CLOCK.s = 0 := by
  decide +kernel

/-- Refutes O34: in a state that holds a report of a lane past the last one, the tick maps that lane at the offset of LED_CLOCK,
and the clock does not show the seconds counted. -/
theorem not_farSideLedger : ¬ Obligations.FarSideLedger := by
  unfold Obligations.FarSideLedger
  intro h
  obtain ⟨htick, -⟩ := h
  obtain ⟨hclock, -⟩ := does_elim (htick strayIdentity 0 (by decide +kernel) (by decide +kernel)) (exec_live rfl rfl rfl)
  have hcounted : (strayIdentity.ledgerTick 0).get LED_CLOCK.s = 1 := hclock.trans (by decide +kernel)
  exact absurd (clock_strayIdentity.symm.trans hcounted) (by decide)

/-! # The boot flash: what programming and erasing leave, and what is read back (R570, R571) -/

section Flash

variable (f : Flash)

/-- The byte of the flash at an offset. -/
def Flash.byteAt (k : Nat) : BitVec 8 := Sparse.get flashErased f.bytes k

theorem Flash.read_succ (a n : Nat) : f.read a (n + 1) = f.byteAt a :: f.read (a + 1) n := rfl

@[simp] theorem Flash.length_read (a n : Nat) : (f.read a n).length = n := by
  induction n generalizing a with
  | zero => rfl
  | succ n ih => rw [Flash.read_succ, List.length_cons, ih]

/-- Flashes that agree on a range read alike there. -/
theorem Flash.read_congr {f g : Flash} {a n : Nat} (h : ∀ k, a ≤ k → k < a + n → f.byteAt k = g.byteAt k) :
    f.read a n = g.read a n := by
  induction n generalizing a with
  | zero => rfl
  | succ n ih => rw [Flash.read_succ, Flash.read_succ, h a (by omega) (by omega), ih fun k h1 h2 => h k (by omega) (by omega)]

theorem Flash.byteAt_program_out {a k : Nat} (l : List (BitVec 8)) (h : k < a ∨ a + l.length ≤ k) :
    (f.program a l).byteAt k = f.byteAt k := by
  induction l generalizing f a with
  | nil => rfl
  | cons b bs ih =>
    rw [List.length_cons] at h
    rw [Flash.program, ih _ (by omega)]
    exact Sparse.get_set_ne _ _ _ (by omega)

theorem Flash.read_program_out {a b n : Nat} (l : List (BitVec 8)) (h : a + n ≤ b ∨ b + l.length ≤ a) :
    (f.program b l).read a n = f.read a n :=
  Flash.read_congr fun k h1 h2 => f.byteAt_program_out l (by omega)

/-- What is programmed reads back. -/
theorem Flash.read_program_same (a : Nat) (l : List (BitVec 8)) : (f.program a l).read a l.length = l := by
  induction l generalizing f a with
  | nil => rfl
  | cons b bs ih =>
    rw [List.length_cons, Flash.read_succ, Flash.program, ih, Flash.byteAt_program_out _ _ (.inl (by omega))]
    exact congrArg (· :: bs) (Sparse.get_set_same _ _ _ _)

theorem Flash.byteAt_erase_out {a n k : Nat} (h : k < a ∨ a + n ≤ k) : (f.erase a n).byteAt k = f.byteAt k := by
  refine Sparse.get_keep_same flashErased f.bytes (fun k => !(decide (a ≤ k) && decide (k < a + n))) k ?_
  simp only [Bool.not_eq_true', Bool.and_eq_false_iff, decide_eq_false_iff_not]
  omega

theorem Flash.read_erase_out {a b n m : Nat} (h : a + n ≤ b ∨ b + m ≤ a) : (f.erase b m).read a n = f.read a n :=
  Flash.read_congr fun k h1 h2 => f.byteAt_erase_out (by omega)

end Flash

/-! # The readout ports (R334 to R336, R343, R348) -/

/-- The fields that show the estimate of the readout. -/
def rdoFields : List Fld :=
  [RDO_STATUS.ports_ready, RDO_TAU.ns, RDO_THRESH.ns, RDO_BACKLOG.ns, RDO_STATUS.throttle, RDO_STATUS.queued, RDO_ERR.port_change]

/-- What a count that keeps its largest value shows after an addition (R642). -/
theorem State.get_add_rc (s : State) (f : Fld) (n i j : Nat) (h : f.acc = .rc) :
    (s.add f n i j).get f i j = min (2 ^ f.width - 1) (s.get f i j + n) := by
  have hadd : s.add f n i j =
      (s.put f (if 2 ^ f.width ≤ s.get f i j + n then 2 ^ f.width - 1 else s.get f i j + n) i j).updCopy f (fun c => c + n) i j := by
    unfold State.add
    simp [h]
  have hpos := Nat.two_pow_pos f.width
  rw [hadd, State.get_updCopy, State.get_put_same]
  split
  · rw [Nat.mod_eq_of_lt (by omega)]; omega
  · rw [Nat.mod_eq_of_lt (by omega)]; omega

section Ports

variable {s : State} {k : Nat}

theorem State.publishRdo_touches (s : State) : Touches rdoFields s s.publishRdo :=
  (((((Touches.refl.put (by decide) _ _ _).put (by decide) _ _ _).put (by decide) _ _ _).put (by decide) _ _ _).put
    (by decide) _ _ _).put (by decide) _ _ _

/-- A change of a port leaves everything but its state and the estimate. -/
theorem State.putPort_shows (s : State) (k v : Nat) : Touches rdoFields (s.put RDO_PORT_STATUS.state v k) (s.putPort k v) ∧
    (s.putPort k v).rdo = s.rdo ∧ (s.putPort k v).sent = s.sent := by
  unfold State.putPort State.portsChanged
  dsimp only
  split
  · exact ⟨State.publishRdo_touches _, rfl, rfl⟩
  · exact ⟨(Touches.refl.err (by decide) _ _ _ _).trans (State.publishRdo_touches _), rfl, rfl⟩

theorem State.state_putPort {v : Nat} (hv : v < 4) : (s.putPort k v).get RDO_PORT_STATUS.state k = v := by
  obtain ⟨hkeep, -, -⟩ := State.putPort_shows s k v
  rw [hkeep _ (by decide), State.get_put_of_lt _ _ _ hv]

/-- What a change of a port leaves. -/
theorem State.get_putPort {g : Fld} (h : g.clearOf (RDO_PORT_STATUS.state :: rdoFields) = true) (v i j : Nat) :
    (s.putPort k v).get g i j = s.get g i j := by
  rw [Fld.clearOf, List.all_cons, Bool.and_eq_true] at h
  obtain ⟨hstate, hrest⟩ := h
  obtain ⟨hkeep, -, -⟩ := State.putPort_shows s k v
  rw [hkeep g hrest, State.get_put_apart (h := hstate)]

/-- The throttle's bit stands before the ports' registers. -/
theorem State.mac_publishRdo (hk : k < 16) : s.publishRdo.get RDO_PORT_MAC_LO.mac k = s.get RDO_PORT_MAC_LO.mac k := by
  unfold State.publishRdo
  extract_lets c n a b d e f
  rw [State.get_put_apart (h := by decide), State.get_put_parted (f := RDO_STATUS.throttle) (by decide) (by decide) (by decide) hk (by decide),
    State.get_put_apart (h := by decide), State.get_put_apart (h := by decide), State.get_put_apart (h := by decide),
    State.get_put_apart (h := by decide)]

theorem State.portMac_putPort (hk : k < 16) (v : Nat) : (s.putPort k v).portMac k = s.portMac k := by
  have hlo : (s.putPort k v).get RDO_PORT_MAC_LO.mac k = s.get RDO_PORT_MAC_LO.mac k := by
    unfold State.putPort State.portsChanged
    dsimp only
    split
    · rw [State.mac_publishRdo hk, State.get_put_apart (h := by decide)]
    · rw [State.mac_publishRdo hk, State.get_err_apart (h := by decide), State.get_put_apart (h := by decide)]
  rw [State.portMac, State.portMac, hlo, State.get_putPort (by decide)]

@[simp] theorem State.get_updPort (f : Port → Port) (g : Fld) (i j : Nat) : (s.updPort k f).get g i j = s.get g i j := rfl

@[simp] theorem State.port_updPort_same (s : State) (k : Nat) (f : Port → Port) : (s.updPort k f).port k = f (s.port k) :=
  Sparse.get_upd_same _ _ k f

theorem State.port_putPort (s : State) (k v n : Nat) : (s.putPort k v).port n = s.port n := by
  obtain ⟨-, hrdo, -⟩ := State.putPort_shows s k v
  rw [State.port, State.port, hrdo]

/-- A port that goes DOWN forgets the MAC that it has learned. -/
theorem State.portDown_shows (h : 2 ≤ s.get RDO_PORT_STATUS.state k) :
    (s.portDown k).get RDO_PORT_STATUS.state k = 0 ∧ ((s.portDown k).port k).mac = none ∧
      (s.portDown k).get RDO_PORT_ERR.down k = 1 := by
  have heq : s.portDown k = ((s.putPort k 0).updPort k fun p => { p with mac := none }).err RDO_PORT_ERR.down k k := if_pos h
  have hport : (s.portDown k).port k = ((s.putPort k 0).updPort k fun p => { p with mac := none }).port k := by
    rw [heq]
    rfl
  rw [hport, State.port_updPort_same, heq]
  refine ⟨?_, rfl, State.get_err_same (h := rfl) ..⟩
  rw [State.get_err_apart (h := by decide), State.get_updPort, State.state_putPort (by decide)]

/-- The state of a port by its condition. -/
def State.portCond (s : State) (k : Nat) : Nat := if s.get RDO_PORT_IP.ip k ≠ 0 ∧ (s.destMac k).isSome then 3 else 2

theorem State.portCond_lt (s : State) (k : Nat) : s.portCond k < 4 := by
  unfold State.portCond
  split <;> decide

theorem State.portEval_of_up (h : 2 ≤ s.get RDO_PORT_STATUS.state k) : s.portEval k = s.putPort k (s.portCond k) := by
  rw [State.portEval, if_neg (Nat.not_lt.2 h)]
  rfl

/-- The destination's MAC stands with the port's registers and what it has learned. -/
theorem State.destMac_congr {t : State} (hport : (t.port k).mac = (s.port k).mac)
    (hreg : ∀ g ∈ [RDO_PORT_DST_MAC_HI.static, RDO_PORT_DST_MAC_HI.mac, RDO_PORT_DST_MAC_LO.mac], t.get g k = s.get g k) :
    t.destMac k = s.destMac k := by
  rw [State.destMac, State.destMac, State.bit, State.bit, hport, hreg _ (by decide), hreg _ (by decide), hreg _ (by decide)]

end Ports

section Commands

variable {s : State} (k : Fin 16)

theorem portOff (f : Fld) (hf : f.s1 = 0x40 ∧ f.s2 = 0 ∧ f.base = 0x400) : f.off k.val 0 = 0x400 + 0x40 * k.val := by
  obtain ⟨h1, h2, hb⟩ := hf
  rw [Fld.off, h1, h2, hb]
  omega

/-- A write of a port's configuration stores its fields. -/
theorem State.wrPort_shows (s : State) (v : BitVec 32) :
    (s.wrReg 10 (0x400 + 0x40 * k.val) allBits v.toNat).get RDO_PORT_CFG.enable k.val = bits v.toNat 0 1 ∧
      (s.wrReg 10 (0x400 + 0x40 * k.val) allBits v.toNat).get RDO_PORT_CFG.lane k.val = bits v.toNat 1 6 ∧
      ∀ g ∈ [RDO_PORT_STATUS.state, RDO_PORT_ERR.down], (s.wrReg 10 (0x400 + 0x40 * k.val) allBits v.toNat).get g k.val = s.get g k.val := by
  have hk := k.isLt
  refine ⟨?_, ?_, fun g hg => State.get_wrReg_off _ _ _ ?_ ?_ (by omega) ?_⟩
  · rw [State.get_wrReg_same (page := 10) allBits v.toNat s rfl (portOff k RDO_PORT_CFG.enable (by decide)) (by decide +kernel) (by decide) hk (by decide),
      Fld.stored_all _ _ rfl (by decide) (by decide) rfl]
    rfl
  · rw [State.get_wrReg_same (page := 10) allBits v.toNat s rfl (portOff k RDO_PORT_CFG.lane (by decide)) (by decide +kernel) (by decide) hk (by decide),
      Fld.stored_all _ _ rfl (by decide) (by decide) rfl]
    rfl
  all_goals
    simp only [List.mem_cons, List.not_mem_nil, or_false] at hg
    rcases hg with rfl | rfl
  · decide +kernel
  · decide +kernel
  · simp only [Fld.off, RDO_PORT_STATUS.state]; omega
  · simp only [Fld.off, RDO_PORT_ERR.down]; omega
  · simp only [Fld.off, RDO_PORT_STATUS.state]; omega
  · simp only [Fld.off, RDO_PORT_ERR.down]; omega

theorem bit_of_get_one {f : Fld} {i : Nat} (h : s.get f i = 1) : s.bit f i = true := by
  rw [State.bit, h]
  rfl

theorem bit_of_get_zero {f : Fld} {i : Nat} (h : s.get f i = 0) : s.bit f i = false := by
  rw [State.bit, h]
  rfl

theorem State.writePortCfg_enable {v : BitVec 32} (hv : v.getLsbD 0 = true) (hst : s.get RDO_PORT_STATUS.state k.val = 0)
    (hfree : (s.wrReg 10 (0x400 + 0x40 * k.val) allBits v.toNat).laneConflict [bits v.toNat 1 6] = false) :
    s.writePortCfg k.val allBits v.toNat = (s.wrReg 10 (0x400 + 0x40 * k.val) allBits v.toNat).putPort k.val 1 := by
  obtain ⟨hen, hlane, hother⟩ := State.wrPort_shows k s v
  have hon := bit_of_get_one (hen.trans (by rw [bits_one, hv]; rfl))
  have hstate := (hother RDO_PORT_STATUS.state (by decide)).trans hst
  simp only [State.writePortCfg, hon, hlane, hfree, hstate]
  rfl

theorem State.writePortCfg_disable {v : BitVec 32} (hv : v.getLsbD 0 = false) (hst : 2 ≤ s.get RDO_PORT_STATUS.state k.val) :
    s.writePortCfg k.val allBits v.toNat = (s.wrReg 10 (0x400 + 0x40 * k.val) allBits v.toNat).portDown k.val := by
  obtain ⟨hen, -, hother⟩ := State.wrPort_shows k s v
  have hoff := bit_of_get_zero (hen.trans (by rw [bits_one, hv]; rfl))
  have hstate := hother RDO_PORT_STATUS.state (by decide)
  simp only [State.writePortCfg, hoff]
  rw [if_neg (by simp), if_pos (by simp), if_neg (by omega)]

/-- PCS lock brings a port UP, or READY by its condition, and its address is announced. -/
theorem State.portLinkUp_shows (h : s.get RDO_PORT_STATUS.state k.val = 1) :
    (s.portLinkUp k.val).get RDO_PORT_STATUS.state k.val = s.portCond k.val ∧
      (s.portLinkUp k.val).sent = s.sent ++ [.ether k.val (arpFrame broadcast (s.portMac k.val) 1 (s.get RDO_PORT_IP.ip k.val) 0
        (s.get RDO_PORT_IP.ip k.val))] := by
  obtain ⟨p, hp⟩ : ∃ p, p = s.putPort k.val 2 := ⟨_, rfl⟩
  have hkeep {g : Fld} (hg : g.clearOf (RDO_PORT_STATUS.state :: rdoFields) = true) (i : Nat) : p.get g i = s.get g i := by
    rw [hp, State.get_putPort hg]
  have hstate : p.get RDO_PORT_STATUS.state k.val = 2 := by rw [hp, State.state_putPort (by decide)]
  have hmac : p.portMac k.val = s.portMac k.val := by rw [hp, State.portMac_putPort k.isLt]
  have hdest : p.destMac k.val = s.destMac k.val := by
    refine State.destMac_congr (by rw [hp, State.port_putPort]) fun g hg => ?_
    simp only [List.mem_cons, List.not_mem_nil, or_false] at hg
    rcases hg with rfl | rfl | rfl <;> exact hkeep (by decide) _
  obtain ⟨-, -, hsent⟩ := State.putPort_shows s k.val 2
  rw [← hp] at hsent
  generalize hf : arpFrame broadcast (s.portMac k.val) 1 (s.get RDO_PORT_IP.ip k.val) 0 (s.get RDO_PORT_IP.ip k.val) = frame
  have heq : s.portLinkUp k.val = (p.sendEther k.val frame).portEval k.val := by
    simp only [State.portLinkUp, h, ← hp, hmac, hf]
    rfl
  obtain ⟨-, -, hlast⟩ := State.putPort_shows (p.sendEther k.val frame) k.val ((p.sendEther k.val frame).portCond k.val)
  have hcond : (p.sendEther k.val frame).portCond k.val = s.portCond k.val := by
    have h1 : (p.sendEther k.val frame).portCond k.val = p.portCond k.val := rfl
    rw [h1, State.portCond, State.portCond, hkeep (by decide), hdest]
  have hup : 2 ≤ (p.sendEther k.val frame).get RDO_PORT_STATUS.state k.val := hstate.ge
  rw [heq, State.portEval_of_up hup, hlast, State.state_putPort (State.portCond_lt _ _), hcond]
  exact ⟨rfl, by rw [State.sendEther, hsent]⟩

theorem State.arpTimeout_shows (h : s.get RDO_PORT_STATUS.state k.val = 3) (hst : s.bit RDO_PORT_DST_MAC_HI.static k.val = false) :
    (s.arpTimeout k.val).get RDO_PORT_STATUS.state k.val = 2 ∧ ((s.arpTimeout k.val).port k.val).mac = none ∧
      (s.arpTimeout k.val).get RDO_PORT_ERR.arp_timeout k.val = 1 := by
  obtain ⟨p, hp⟩ : ∃ p, p = s.updPort k.val fun p => { p with mac := none } := ⟨_, rfl⟩
  have hmac : (p.port k.val).mac = none := by rw [hp, State.port_updPort_same]
  have hstate : 2 ≤ p.get RDO_PORT_STATUS.state k.val := by
    rw [hp, State.get_updPort, h]
    decide
  have hcond : p.portCond k.val = 2 := by
    have hdest : p.destMac k.val = none := by
      rw [State.destMac, if_neg (by rw [hp]; exact fun h => absurd (hst.symm.trans h) (by decide)), hmac]
    rw [State.portCond, hdest]
    exact if_neg (by simp)
  have heq : s.arpTimeout k.val = (p.putPort k.val 2).err RDO_PORT_ERR.arp_timeout k.val k.val := by
    rw [State.arpTimeout, if_neg (by simp [h, hst]), ← hp, State.portEval_of_up hstate, hcond]
  have hport : (s.arpTimeout k.val).port k.val = p.port k.val := by
    rw [heq]
    exact State.port_putPort p k.val 2 k.val
  rw [hport, heq, State.get_err_apart (h := by decide), State.state_putPort (by decide)]
  exact ⟨rfl, hmac, State.get_err_same (h := rfl) ..⟩

theorem State.arpReply_shows (ip mac target : Nat) (h : 2 ≤ s.get RDO_PORT_STATUS.state k.val)
    (ht : target = s.get RDO_PORT_IP.ip k.val) (hip : ip = s.get RDO_PORT_DST_IP.ip k.val)
    (hst : s.bit RDO_PORT_DST_MAC_HI.static k.val = false) :
    ((s.arpReply k.val ip mac target).port k.val).mac = some (mac % 2 ^ 48) ∧
      (target ≠ 0 → (s.arpReply k.val ip mac target).get RDO_PORT_STATUS.state k.val = 3) := by
  obtain ⟨p, hp⟩ : ∃ p, p = s.updPort k.val fun p => { p with mac := some (mac % 2 ^ 48) } := ⟨_, rfl⟩
  have hmac : (p.port k.val).mac = some (mac % 2 ^ 48) := by rw [hp, State.port_updPort_same]
  have hstate : 2 ≤ p.get RDO_PORT_STATUS.state k.val := by rwa [hp, State.get_updPort]
  have heq : s.arpReply k.val ip mac target = p.putPort k.val (p.portCond k.val) := by
    rw [State.arpReply, if_neg (Nat.not_lt.2 h), if_neg (not_not.2 ht), if_pos ⟨hip, by simp [hst]⟩, ← hp, State.portEval_of_up hstate]
  rw [heq, State.port_putPort, State.state_putPort (State.portCond_lt _ _)]
  refine ⟨hmac, fun hne => ?_⟩
  have hdest : p.destMac k.val = some (mac % 2 ^ 48) := by
    rw [State.destMac, if_neg (by rw [hp]; exact fun h => absurd (hst.symm.trans h) (by decide)), hmac]
  have hip' : p.get RDO_PORT_IP.ip k.val ≠ 0 := by
    rw [hp, State.get_updPort, ← ht]
    exact hne
  rw [State.portCond, hdest]
  exact if_pos ⟨hip', rfl⟩

theorem State.icmpEcho_shows (t mac ip target : Nat) (rest : List (BitVec 8)) (h : 2 ≤ s.get RDO_PORT_STATUS.state k.val)
    (htarget : target = s.get RDO_PORT_IP.ip k.val) (hlen : 24 + rest.length ≤ s.rdo.work.mtu) (hnow : s.now ≤ t)
    (hsec : (s.port k.val).second + 10 ^ 15 ≤ t) :
    (s.icmpEcho k.val t mac ip target rest).sent.length = s.sent.length + 1 ∧
      ((s.icmpEcho k.val t mac ip target rest).port k.val).echoes = 1 ∧
      ((s.icmpEcho k.val t mac ip target rest).port k.val).second = t := by
  have hmax : max s.now t = t := Nat.max_eq_right hnow
  have hstate : ¬ s.get RDO_PORT_STATUS.state k.val < 2 := Nat.not_lt.2 h
  have hfresh : decide ((s.port k.val).second + 1000000000000000 ≤ t) = true := decide_eq_true hsec
  obtain ⟨p, hp⟩ : ∃ p, p = (s.at t).updPort k.val fun p => { p with echoes := 1, second := t } := ⟨_, rfl⟩
  have hport : p.port k.val = { s.port k.val with echoes := 1, second := t } := by
    rw [hp, State.port_updPort_same]
    rfl
  obtain ⟨body, heq⟩ : ∃ body, s.icmpEcho k.val t mac ip target rest = p.sendIp k.val mac ip 1 body := by
    have hcond : ¬ (target ≠ (s.at t).get RDO_PORT_IP.ip k.val ∨ (s.at t).rdo.work.mtu < 24 + rest.length ∨ 1000 ≤ 0) := by
      simp only [State.at_rdo, State.get_at, htarget]
      omega
    have hnow' : (s.at t).now = max s.now t := rfl
    have hsecond : (s.at t).port k.val = s.port k.val := rfl
    simp only [State.icmpEcho, if_neg hstate, hnow', hsecond, hmax, hfresh, if_true, if_neg hcond, Nat.zero_add, ← hp]
    exact ⟨_, rfl⟩
  obtain ⟨frame, hframe⟩ : ∃ frame, p.sendIp k.val mac ip 1 body =
      (p.updPort k.val fun q => { q with ident := (q.ident + 1) % 65536 }).sendEther k.val frame := ⟨_, rfl⟩
  have hlast : ((p.updPort k.val fun q => { q with ident := (q.ident + 1) % 65536 }).sendEther k.val frame).port k.val =
      { p.port k.val with ident := ((p.port k.val).ident + 1) % 65536 } := State.port_updPort_same p k.val _
  rw [heq, hframe, hlast, hport]
  refine ⟨?_, rfl, rfl⟩
  rw [State.sendEther, List.length_append, hp]
  rfl

end Commands

/-- Settles O28: the states of a port follow its condition, and a change of one leaves the other registers of the ports. -/
theorem readoutPorts : Obligations.ReadoutPorts := by
  unfold Obligations.ReadoutPorts
  refine ⟨fun s k v ha hv hst hfree => does_live rfl ha ?enable,
    fun s k v ha hv hst hlt => does_live rfl ha ?disable,
    fun s k ha hst => does_live rfl ha (State.portLinkUp_shows k hst),
    fun s k ha hst => does_live rfl ha ?loss,
    fun s k ha hst hdyn => does_live rfl ha ?timer,
    fun s k ha hst hdyn => does_live rfl ha (State.arpTimeout_shows k hst hdyn),
    fun s k ip mac target ha hst ht hip hdyn => does_live rfl ha ?reply,
    fun s k ip mac target ha hst ht hne => does_live rfl ha ?request,
    fun s k t mac ip target rest ha hst ht hlen hnow hsec => does_live rfl ha (State.icmpEcho_shows k t _ _ _ rest hst ht hlen hnow hsec),
    fun s k bad ha hst => does_live rfl ha ?discard⟩
  case enable =>
    obtain ⟨hen, hlane, -⟩ := State.wrPort_shows k s v
    have hone : bits v.toNat 0 1 = 1 := by rw [bits_one, hv]; rfl
    rw [show (0xFFFFFFFF#32).toNat = allBits from rfl, State.writePortCfg_enable k hv hst hfree]
    exact ⟨State.state_putPort (by decide), (State.get_putPort (by decide) ..).trans (hen.trans hone),
      (State.get_putPort (by decide) ..).trans hlane⟩
  case disable =>
    obtain ⟨-, -, hother⟩ := State.wrPort_shows k s v
    obtain ⟨hdown, -, herr⟩ := State.portDown_shows (s := s.wrReg 10 (0x400 + 0x40 * k.val) allBits v.toNat) (k := k.val)
      (by rwa [hother RDO_PORT_STATUS.state (by decide)])
    rw [show (0xFFFFFFFF#32).toNat = allBits from rfl, State.writePortCfg_disable k hv hst]
    exact ⟨hdown, herr⟩
  case loss =>
    rw [State.portPcsLoss, if_pos hst]
    exact State.portDown_shows hst
  case timer =>
    rw [State.arpTimer, if_neg (by simp [hdyn, Nat.not_lt.2 hst])]
    rfl
  case reply =>
    obtain ⟨hmac, hup⟩ := State.arpReply_shows k ip.toNat mac.toNat target.toNat hst ht hip hdyn
    exact ⟨hmac.trans (congrArg some (Nat.mod_eq_of_lt mac.isLt)), hup⟩
  case request =>
    rw [State.arpRequest, if_neg (Nat.not_lt.2 hst), if_neg (by simp [ht.symm, hne])]
    rfl
  case discard =>
    have hdrop := State.get_inc_rc s (f := RDO_PORT_RX_DROP_CNT.count) k.val 0 rfl
    rw [State.portOther, if_neg (Nat.not_lt.2 hst), State.portDiscard, State.get_add_apart (h := by decide), hdrop]
    refine ⟨rfl, ?_⟩
    rw [State.get_add_rc (h := rfl), State.get_inc_apart (h := by decide)]
    rfl

/-! # The CAN node (R492 to R495) -/

/-- The fields that show the journal. -/
def journalFields : List Fld :=
  [DIC_JNL_HEAD.seq, DIC_JNL_NEXT.seq, DIC_JNL_MIRROR.seq, DIC_JNL_LOST_CNT.count, DIC_ERR.jnl_lost]

/-- The fields that the end of a transfer shows. -/
def transferFields : List Fld :=
  journalFields ++ [DIC_LAST_ABORT.code, DIC_LAST_ABORT_OBJ.index, DIC_LAST_ABORT_OBJ.subindex, DIC_ABORT_CNT.count,
    DIC_STATUS.domain_open, DIC_STATUS.queued]

/-- An operation that shows `l` at most and leaves the open transfer of USDO and the entries of the error queue. -/
structure KeepsUsdo (l : List Fld) (s t : State) : Prop where
  shows : Touches l s t
  usdo : t.dic.usdo = s.dic.usdo
  entries : t.erq.entries = s.erq.entries

namespace KeepsUsdo

variable {l m : List Fld} {s t u : State}

theorem refl : KeepsUsdo l s s := ⟨.refl, rfl, rfl⟩

theorem trans (h : KeepsUsdo l s t) (k : KeepsUsdo l t u) : KeepsUsdo l s u := ⟨h.shows.trans k.shows, k.usdo.trans h.usdo, k.entries.trans h.entries⟩

theorem mono (h : KeepsUsdo l s t) (hlm : l.all (m.contains ·) = true) : KeepsUsdo m s t := ⟨h.shows.mono hlm, h.usdo, h.entries⟩

theorem ite {p : Prop} [Decidable p] (ht : KeepsUsdo l s t) (hu : KeepsUsdo l s u) : KeepsUsdo l s (if p then t else u) := by
  split
  · exact ht
  · exact hu

end KeepsUsdo

section Journal

variable {s : State}

/-- The seq of the next entry follows the last one of the ring. -/
theorem State.publishJournal_append (xs : List JnlEntry) (e : JnlEntry) (h : s.dic.journal = xs ++ [e]) :
    KeepsUsdo [DIC_JNL_HEAD.seq, DIC_JNL_NEXT.seq] s s.publishJournal ∧ s.publishJournal.get DIC_JNL_NEXT.seq = (e.seq + 1) % 2 ^ 32 := by
  obtain ⟨e₀, heq⟩ : ∃ e₀, s.publishJournal = (s.put DIC_JNL_HEAD.seq e₀).put DIC_JNL_NEXT.seq (e.seq + 1) := by
    have hlast : s.dic.journal.getLast? = some e := by rw [h, List.getLast?_append]; rfl
    obtain ⟨a, as, hcons⟩ : ∃ a as, s.dic.journal = a :: as := List.exists_cons_of_ne_nil (by rw [h]; simp)
    refine ⟨a.seq, ?_⟩
    rw [State.publishJournal, hlast, hcons]
  rw [heq]
  exact ⟨⟨(Touches.refl.put (by decide) _ _ _).put (by decide) _ _ _, rfl, rfl⟩, State.get_put_same ..⟩

/-- An entry takes the seq that was next, and the following one is next. -/
theorem State.recordEntry_shows (s : State) (e : JnlEntry) :
    KeepsUsdo journalFields s (s.recordEntry e) ∧ (s.recordEntry e).get DIC_JNL_NEXT.seq = (s.get DIC_JNL_NEXT.seq + 1) % 2 ^ 32 := by
  unfold State.recordEntry
  extract_lets e' full head lost u p
  obtain ⟨hkeep, hnext⟩ := State.publishJournal_append (s := u) (if full then s.dic.journal.drop 1 else s.dic.journal) e' rfl
  have hp : KeepsUsdo journalFields s p :=
    KeepsUsdo.trans (t := u) ⟨Touches.refl.of_csr rfl, rfl, rfl⟩ (hkeep.mono (by decide))
  split
  · refine ⟨hp.trans ⟨((Touches.refl.inc (by decide) _ _).put (by decide) _ _ _).err (by decide) _ _ _ _, rfl, rfl⟩, ?_⟩
    rw [State.get_err_apart (h := by decide), State.get_put_apart (h := by decide), State.get_inc_apart (h := by decide), hnext]
  · exact ⟨hp, hnext⟩

theorem State.journal_keepsUsdo (s : State) (src : ReqSrc) (index sub flags code old new : Nat) :
    KeepsUsdo journalFields s (s.journal src index sub flags code old new) :=
  .ite .refl (State.recordEntry_shows s _).1

theorem State.abortCode_keepsUsdo (s : State) (index sub code : Nat) :
    KeepsUsdo transferFields s (s.abortCode index sub code) :=
  .ite .refl ⟨(((Touches.refl.put (by decide) _ _ _).put (by decide) _ _ _).put (by decide) _ _ _).inc (by decide) _ _, rfl, rfl⟩

/-- The record of an abort and its code. -/
theorem State.recordAbort_keepsUsdo (s : State) (src : ReqSrc) (index sub flags code old new code' : Nat) :
    KeepsUsdo transferFields s ((s.journal src index sub flags code old new).abortCode index sub code') :=
  ((s.journal_keepsUsdo ..).mono (by decide)).trans (State.abortCode_keepsUsdo ..)

theorem State.domainNew_keepsUsdo (l : List Fld) (s : State) (total got : Nat) : KeepsUsdo l s (s.domainNew total got).1 := by
  unfold State.domainNew
  split
  · exact .refl
  · exact ⟨Touches.refl.of_csr rfl, rfl, rfl⟩

theorem State.dropDomain_keepsUsdo (s : State) (code : Nat) : KeepsUsdo transferFields s (s.dropDomain code) := by
  unfold State.dropDomain
  split
  · exact .refl
  · next d hd =>
    extract_lets idle u p
    have hu : KeepsUsdo transferFields s u := ⟨(Touches.refl.of_csr rfl).put (by decide) _ _ _, rfl, rfl⟩
    exact (hu.trans (State.domainNew_keepsUsdo _ u _ _)).trans (State.recordAbort_keepsUsdo ..)

theorem State.freeScalar_keepsUsdo (l : List Fld) (s : State) (index sub : Nat) (write : Bool) :
    KeepsUsdo l s (s.freeScalar index sub write) :=
  .ite ⟨Touches.refl.of_csr rfl, rfl, rfl⟩ .refl

/-- After the end of the open transfer none is open. -/
theorem State.endUsdo_shows (s : State) (code : Nat) : Touches transferFields s (s.endUsdo code) ∧ (s.endUsdo code).dic.usdo = none ∧
    (s.endUsdo code).erq.entries = s.erq.entries := by
  unfold State.endUsdo
  split
  · next h => exact ⟨.refl, h, rfl⟩
  · next x h =>
    extract_lets u
    have hu := State.freeScalar_keepsUsdo transferFields (s.updDic fun d => { d with usdo := none }) x.index x.sub x.write
    have hcut : ∀ t, KeepsUsdo transferFields u t →
        Touches transferFields s t ∧ t.dic.usdo = none ∧ t.erq.entries = s.erq.entries := fun t ht =>
      have hall := hu.trans ht
      ⟨(Touches.refl.of_csr rfl).trans hall.shows, hall.usdo, hall.entries⟩
    split
    · split
      · exact hcut _ (State.dropDomain_keepsUsdo u code)
      · exact hcut _ (State.recordAbort_keepsUsdo ..)
    · exact hcut _ (State.recordAbort_keepsUsdo ..)

theorem State.dropReqs_keepsUsdo (s : State) (p : DicReq → Bool) : KeepsUsdo transferFields s (s.dropReqs p) :=
  ⟨(Touches.refl.of_csr rfl).put (by decide) _ _ _, rfl, rfl⟩

/-- Each waiting request is recorded as ended. -/
theorem State.recordReqs_keepsUsdo (s : State) (reqs : List DicReq) :
    KeepsUsdo transferFields s (reqs.foldl (fun s r => match r with
      | .request index sub _ => s.journal .usdo index sub 4 0 0 0
      | _ => s) s) := by
  induction reqs generalizing s with
  | nil => exact .refl
  | cons r rs ih =>
    rw [List.foldl_cons]
    refine KeepsUsdo.trans ?_ (ih _)
    split
    · exact (s.journal_keepsUsdo ..).mono (by decide)
    · exact .refl

theorem State.cutUsdo_shows (s : State) :
    Touches transferFields s s.cutUsdo ∧ s.cutUsdo.dic.usdo = none ∧ s.cutUsdo.erq.entries = s.erq.entries := by
  obtain ⟨hend, hnone, hentries⟩ := s.endUsdo_shows 0
  have hcut := (State.recordReqs_keepsUsdo (s.endUsdo 0) (s.endUsdo 0).dic.reqs).trans (State.dropReqs_keepsUsdo _ DicReq.isCan)
  have heq : s.cutUsdo = ((s.endUsdo 0).dic.reqs.foldl (fun s r => match r with
      | .request index sub _ => s.journal .usdo index sub 4 0 0 0
      | _ => s) (s.endUsdo 0)).dropReqs DicReq.isCan := rfl
  rw [heq]
  exact ⟨hend.trans hcut.shows, hcut.usdo.trans hnone, hcut.entries.trans hentries⟩

end Journal

section Node

variable {s : State}

@[simp] theorem State.nmtState_putNmt (v : Nat) : (s.putNmt v).nmtState = v % 2 ^ 7 := State.get_put_same ..

theorem State.journalNmt_shows (s : State) (cs : Nat) :
    (s.journalNmt cs).nmtState = s.nmtState ∧ (s.journalNmt cs).dic.usdo = s.dic.usdo ∧
      (s.journalNmt cs).get DIC_JNL_NEXT.seq = (s.get DIC_JNL_NEXT.seq + 1) % 2 ^ 32 := by
  obtain ⟨e, he⟩ : ∃ e, s.journalNmt cs = s.recordEntry e := ⟨_, rfl⟩
  obtain ⟨hkeep, hnext⟩ := s.recordEntry_shows e
  rw [he]
  exact ⟨hkeep.shows _ (by decide) _ _, hkeep.usdo, hnext⟩

theorem State.enterInit_shows (s : State) : s.enterInit.nmtState = 0 ∧ s.enterInit.dic.usdo = none := by
  obtain ⟨-, hnone, -⟩ := s.cutUsdo_shows
  exact ⟨State.get_put_same .., hnone⟩

theorem State.nmtStart_shows (h : s.nmtState = 127 ∨ s.nmtState = 4) :
    s.nmtStart.nmtState = 5 ∧ s.nmtStart.get DIC_JNL_NEXT.seq = (s.get DIC_JNL_NEXT.seq + 1) % 2 ^ 32 := by
  obtain ⟨hst, -, hnext⟩ := s.journalNmt_shows 1
  rw [State.nmtStart, if_pos (hst ▸ h), State.nmtState_putNmt, State.putNmt, State.get_put_apart (h := by decide)]
  exact ⟨rfl, hnext⟩

theorem State.nmtStop_shows (h : s.nmtState = 127 ∨ s.nmtState = 5) : s.nmtStop.nmtState = 4 ∧ s.nmtStop.dic.usdo = none := by
  obtain ⟨hst, -, -⟩ := s.journalNmt_shows 2
  obtain ⟨-, hnone, -⟩ := (s.journalNmt 2).cutUsdo_shows
  rw [State.nmtStop, if_pos (hst ▸ h), State.nmtState_putNmt]
  exact ⟨rfl, hnone⟩

theorem State.nmtPreOperational_shows (h : s.nmtState = 5 ∨ s.nmtState = 4) :
    s.nmtPreOperational.nmtState = 127 ∧ s.nmtPreOperational.dic.usdo = s.dic.usdo ∧
      s.nmtPreOperational.get DIC_JNL_NEXT.seq = (s.get DIC_JNL_NEXT.seq + 1) % 2 ^ 32 := by
  obtain ⟨hst, husdo, hnext⟩ := s.journalNmt_shows 128
  rw [State.nmtPreOperational, if_pos (hst ▸ h), State.nmtState_putNmt]
  refine ⟨rfl, husdo, ?_⟩
  rw [State.putNmt, State.get_put_apart (h := by decide), State.dropReqs, State.publishQueue, State.get_put_apart (h := by decide)]
  exact hnext

theorem State.nmtResetNode_shows (h : s.bit DIC_CTRL.nmt_reset_en = false) :
    s.nmtResetNode.nmtState = 0 ∧ s.nmtResetNode.dic.usdo = none := by
  rw [State.nmtResetNode, h]
  exact State.enterInit_shows _

theorem State.canEnable_shows (s : State) :
    s.canEnable.bit DIC_CTRL.can_en = true ∧ s.canEnable.nmtState = 0 ∧ s.canEnable.dic.usdo = none := by
  have heq : s.canEnable = (s.wrReg 15 0 1 1).enterInit := rfl
  obtain ⟨hcut, -⟩ := (s.wrReg 15 0 1 1).cutUsdo_shows
  have hstored : (s.wrReg 15 0 1 1).get DIC_CTRL.can_en = 1 := by
    rw [State.get_wrReg_same (page := 15) (off := 0) 1 1 s rfl rfl (by decide +kernel) (by decide) (by decide) (by decide)]
    show ((s.get DIC_CTRL.can_en &&& 0) ||| 1) % 2 = 1
    rw [Nat.and_zero, Nat.zero_or]
  rw [heq]
  refine ⟨?_, State.enterInit_shows _⟩
  rw [State.enterInit, State.bit_put_apart (h := by decide), State.bit, hcut _ (by decide), hstored]
  rfl

/-- The bus state and the counters that a change shows. -/
theorem State.canBus_shows (s : State) (bus tec rec : Nat) :
    (s.canBus bus tec rec).get DIC_CAN_STATE.bus = bus % 4 ∧ (s.canBus bus tec rec).get DIC_CAN_STATE.tec = tec % 256 ∧
      (s.canBus bus tec rec).get DIC_CAN_STATE.rec = rec % 256 ∧ (s.canBus bus tec rec).nmtState = s.nmtState := by
  obtain ⟨u, hu⟩ : ∃ u, u = ((s.put DIC_CAN_STATE.bus bus).put DIC_CAN_STATE.tec tec).put DIC_CAN_STATE.rec rec := ⟨_, rfl⟩
  have herr : Touches [DIC_ERR.can_bus_off] u (s.canBus bus tec rec) := by
    rw [State.canBus, ← hu]
    exact .ite (Touches.refl.err (by decide) _ _ _ _) .refl
  rw [State.nmtState, State.nmtState, herr _ (by decide), herr _ (by decide), herr _ (by decide), herr _ (by decide), hu]
  refine ⟨?_, ?_, State.get_put_same .., ?_⟩
  · rw [State.get_put_apart (h := by decide), State.get_put_apart (h := by decide), State.get_put_same]
    rfl
  · rw [State.get_put_apart (h := by decide), State.get_put_same]
    rfl
  · rw [State.get_put_apart (h := by decide), State.get_put_apart (h := by decide), State.get_put_apart (h := by decide)]

theorem State.canBus_off (s : State) (tec rec : Nat) :
    (s.canBus 2 tec rec).get DIC_ERR.can_bus_off = 1 ∧ (s.canBus 2 tec rec).errorRegister / 16 = 1 := by
  obtain ⟨hbus, -⟩ := s.canBus_shows 2 tec rec
  refine ⟨State.get_err_same (h := rfl) .., ?_⟩
  have hone : b2n (!(s.canBus 2 tec rec).erq.entries.isEmpty) < 16 := by
    cases !(s.canBus 2 tec rec).erq.entries.isEmpty <;> decide
  rw [State.errorRegister, hbus]
  show (_ + 16 * 1) / 16 = 1
  omega

theorem State.onNmt_of_on (h : s.canOn = true) (cmd : NmtCommand) : s.onNmt cmd = s.nmt cmd := if_pos h

/-- With no value to apply the defaults are all that Initialisation sets. -/
theorem State.initObjects_none (h : s.dic.defaults = []) :
    s.initObjects = s.updDic fun d => { d with
      node := s.get DIC_CAN_CFG.node_id
      rates := s.get DIC_CAN_CFG.nom_rate + 16 * s.get DIC_CAN_CFG.data_rate
      cobEmcy := none, inhibitEmcy := 100, heartbeat := 1000, history := [], rpdo := [], tpdo := [], defaults := [] } := by
  rw [State.initObjects, h]
  rfl

/-- The end of Initialisation. -/
theorem State.initialisationDone_of_ready (hon : s.canOn = true) (hst : s.nmtState = 0) (hd : s.bit BOT_STATUS.dawn_done = true) :
    s.initialisationDone = (s.initObjects.emit (.can (s.initObjects.cobId 0x700) [0])).putNmt 127 :=
  if_pos ⟨hon, hst, .inl hd⟩

end Node

/-- Settles O29: every command of the NMT is recorded, and what ends a transfer of USDO leaves the node's other registers. -/
theorem canNode : Obligations.CanNode := by
  unfold Obligations.CanNode
  refine ⟨fun s ha hon hst => does_alive rfl ha ?start,
    fun s ha hoff => ?off,
    fun s ha hon hst => does_alive rfl ha ?stop,
    fun s ha hon hst => does_alive rfl ha ?pre,
    fun s ha hon hen => does_alive rfl ha ?node,
    fun s ha hon => does_alive rfl ha ?comm,
    fun s ha => does_live rfl ha s.canEnable_shows,
    fun s ha hon hst hd => does_alive rfl ha ?done,
    fun s ha hon hst hd hnone => does_alive rfl ha ?boot,
    fun s ha hen hb hst => does_alive rfl ha ?beat,
    fun s bus tec rec ha => does_alive rfl ha ?bus,
    fun s tec rec ha => does_alive rfl ha (s.canBus_off tec.val rec.val),
    fun s ha hbus => does_alive rfl ha ?recovery⟩
  case start =>
    rw [State.onNmt_of_on hon]
    exact State.nmtStart_shows hst
  case off => exact exec_alive rfl ha (if_neg (by simp [hoff]))
  case stop =>
    rw [State.onNmt_of_on hon]
    exact State.nmtStop_shows hst
  case pre =>
    rw [State.onNmt_of_on hon]
    exact State.nmtPreOperational_shows hst
  case node =>
    rw [State.onNmt_of_on hon]
    exact State.nmtResetNode_shows hen
  case comm =>
    rw [State.onNmt_of_on hon]
    exact State.enterInit_shows _
  case done =>
    rw [State.initialisationDone_of_ready hon hst hd]
    exact State.nmtState_putNmt 127
  case boot =>
    rw [State.initialisationDone_of_ready hon hst hd, State.initObjects_none hnone]
    exact ⟨rfl, rfl, rfl⟩
  case beat =>
    have hbyte : leBytes 1 s.nmtState = [BitVec.ofNat 8 (s.get DIC_STATUS.nmt_hb)] := rfl
    rw [State.heartbeat, if_pos ⟨hen, hb, hst⟩, hbyte]
    rfl
  case bus =>
    obtain ⟨hb, ht, hr, -⟩ := s.canBus_shows bus.val tec.val rec.val
    exact ⟨hb.trans (Nat.mod_eq_of_lt (by omega)), ht, hr⟩
  case recovery =>
    rw [State.canRecovery, if_pos hbus]
    exact s.canBus_shows 0 0 0

/-! # Resets of the device and what outlives them (R559, R566, R567, R619, R620) -/

section Kept

variable {s t : State} {p : Nat → Bool} {f : Fld} {i j : Nat}

/-- A register that is not kept reads its reset value. -/
theorem State.get_of_keep_out (hcsr : t.csr = s.csr.keep p) (h : p (f.key i j) = false) : t.get f i j = f.reset i j := by
  rw [State.get, hcsr, Sparse.get_keep_out _ _ _ _ h, Nat.zero_xor]

/-- A register that is kept reads as before. -/
theorem State.get_of_keep_same (hcsr : t.csr = s.csr.keep p) (h : p (f.key i j) = true) : t.get f i j = s.get f i j := by
  rw [State.get, State.get, hcsr, Sparse.get_keep_same _ _ _ _ h]

theorem clientKey_out (h : f.page ≠ 15) : clientKey (f.key i j) = false := by
  have hpage := Fld.key_page f i j
  rw [clientKey, Nat.div_div_eq_div_mul, hpage]
  simp [h]

end Kept

section Retained

/-- The contents of the retention SRAM, before the registers that show them. -/
def State.retainBase (s old : State) : State :=
  { s with
    erq := { s.erq with entries := old.erq.entries }
    led := s.led.kept old.led
    tar := s.tar.kept old.tar
    dic := { s.dic with journal := old.dic.journal, defaults := old.dic.defaults }
    csr := old.csr.keep clientKey }

/-- The registers that are written before the retained numbers are shown. -/
def retainFields : List Fld :=
  [DIC_JNL_NEXT.seq, DIC_JNL_MIRROR.seq, LED_CLOCK.s, SYS_BROWNOUT_CNT.count, SYS_TRIP.prior]

theorem State.mapLane_recs (s : State) (lane : Nat) (r : Option Nat) : (s.mapLane lane r).led.recs = s.led.recs := rfl

theorem State.publishRetained_recs (s : State) : s.publishRetained.led.recs = s.led.recs := by
  have hmap : (s.led.laneRec.foldl (fun s e => s.mapLane e.1 (some (e.2 - 1))) s).led.recs = s.led.recs :=
    foldl_keeps (P := fun t : State => t.led.recs = s.led.recs) rfl fun t e _ ht => (State.mapLane_recs t e.1 _).trans ht
  obtain ⟨u, hu⟩ : ∃ u, u = s.led.laneRec.foldl (fun s e => s.mapLane e.1 (some (e.2 - 1))) s := ⟨_, rfl⟩
  have hshow : Only 0x128000 u s.publishRetained := by
    unfold State.publishRetained
    rw [← hu]
    have hjnl : Only 0x128000 u u.publishUsed.publishErq.publishJournal :=
      State.publishJournal_only (State.publishErq_only (State.publishUsed_only Only.rfl (by decide)) (by decide)) (by decide)
    dsimp only
    split
    · exact State.put_only hjnl (by decide)
    · exact hjnl
  rw [hshow.led (by decide), hu, hmap]

/-- What `retain` leaves of the contents that it has taken over. -/
theorem State.retain_shows (s old : State) : ∃ u,
    s.retain old = { u with pwr := { u.pwr with lost := old.pwr.lost, invalid := old.pwr.invalid, lossFlag := old.pwr.lossFlag } } ∧
      Only 0x1020000000128001 (s.retainBase old) u ∧ u.led.recs = (s.retainBase old).led.recs ∧
      (∀ g : Fld, g.clearOf retainFields = true → g.page = 0 → ∀ i j, u.get g i j = (s.retainBase old).get g i j) ∧
      u.get SYS_BROWNOUT_CNT.count = old.get SYS_BROWNOUT_CNT.count % 2 ^ 32 := by
  obtain ⟨b, hb⟩ : ∃ b, b = s.retainBase old := ⟨_, rfl⟩
  obtain ⟨v, hv⟩ : ∃ v, v = ((b.put DIC_JNL_NEXT.seq (old.get DIC_JNL_NEXT.seq)).put DIC_JNL_MIRROR.seq (old.get DIC_JNL_MIRROR.seq)).put
    LED_CLOCK.s (old.get LED_CLOCK.s) := ⟨_, rfl⟩
  obtain ⟨w, hw⟩ : ∃ w, w = ((v.put SYS_BROWNOUT_CNT.count (old.get SYS_BROWNOUT_CNT.count)).updCopy SYS_BROWNOUT_CNT.count
    fun _ => old.copyOf SYS_BROWNOUT_CNT.count).put SYS_TRIP.prior (max (old.get SYS_TRIP.prior) (old.get SYS_TRIP.tripped)) := ⟨_, rfl⟩
  have hvb : Touches retainFields b v ∧ Only 0x1020000000128001 b v := by
    rw [hv]
    exact ⟨((Touches.refl.put (by decide) _ _ _).put (by decide) _ _ _).put (by decide) _ _ _,
      State.put_only (State.put_only (State.put_only Only.rfl (by decide)) (by decide)) (by decide)⟩
  have hwb : Touches retainFields b w ∧ Only 0x1020000000128001 b w := by
    rw [hw]
    exact ⟨hvb.1.trans (((Touches.refl.put (by decide) _ _ _).of_csr rfl).put (by decide) _ _ _),
      State.put_only (State.updCopy_only (State.put_only hvb.2 (by decide)) (by decide) (by decide)) (by decide)⟩
  have hshow : Only 0x20000000128000 w w.publishRetained := State.publishRetained_only Only.rfl Covers.refl
  refine ⟨w.publishRetained, ?_, hb ▸ State.publishRetained_only hwb.2 (by decide), ?_, fun g hg hp i j => ?_, ?_⟩
  · rw [hw, hv, hb]
    rfl
  · rw [State.publishRetained_recs, hw, hv, hb]
    rfl
  · rw [hshow.get (by rw [hp]; decide), ← hb]
    exact hwb.1 g hg i j
  · rw [hshow.get (by decide), hw, State.get_put_apart (h := by decide), State.get_updCopy, State.get_put_same]
    rfl

/-- What a reset that keeps the retention SRAM leaves. -/
structure Retained (s r : State) : Prop where
  entries : r.erq.entries = s.erq.entries
  recs : r.led.recs = (s.led.recs.map fun e => (e.1, e.2.kept)).filter fun e => e.2 != {}
  journal : s.dic.usdo = none → s.dic.reqs = [] → r.dic.journal = s.dic.journal
  pending : r.pending = s.pending
  flash : r.flash = s.flash
  sent : r.sent = s.sent

theorem State.journal_cutUsdo {s : State} (hnone : s.dic.usdo = none) (hreqs : s.dic.reqs = []) : s.cutUsdo.dic.journal = s.dic.journal := by
  have hend : s.endUsdo 0 = s := by rw [State.endUsdo, hnone]
  rw [State.cutUsdo, hend, hreqs]
  rfl

variable {s : State} {f : Fld} {i j : Nat}

theorem State.get_fromReset_retainBase (old : State) (h : f.page ≠ 15) : (s.fromReset.retainBase old).get f i j = f.reset i j :=
  State.get_of_keep_out rfl (clientKey_out h)

theorem State.warmReset_shows (s : State) : Retained s s.warmReset ∧ s.warmReset.mem = [] ∧
    s.warmReset.pwr = { lost := s.pwr.lost, invalid := s.pwr.invalid, lossFlag := s.pwr.lossFlag } := by
  obtain ⟨-, -, hentries⟩ := s.cutUsdo_shows
  have hcut : Only 0x1840201000008000 s s.cutUsdo := State.cutUsdo_only Only.rfl Covers.refl
  obtain ⟨u, heq, hu, hrecs, -, -⟩ := s.cutUsdo.fromReset.retain_shows s.cutUsdo
  have hpwr : u.pwr = {} := hu.pwr (by decide)
  have hcpwr : s.cutUsdo.pwr = s.pwr := hcut.pwr (by decide)
  rw [show s.warmReset = s.cutUsdo.fromReset.retain s.cutUsdo from rfl, heq, hpwr, hcpwr]
  refine ⟨⟨?_, ?_, fun hnone hreqs => ?_, ?_, ?_, ?_⟩, hu.mem (by decide), rfl⟩
  · exact (congrArg Erq.entries (hu.erq (by decide))).trans hentries
  · refine hrecs.trans ?_
    rw [← hcut.led (by decide)]
    rfl
  · exact (congrArg Dic.journal (hu.dic (by decide))).trans (State.journal_cutUsdo hnone hreqs)
  · exact (hu.pending).trans hcut.pending
  · exact (hu.flash (by decide)).trans (hcut.flash (by decide))
  · exact (hu.sent (by decide)).trans (hcut.sent (by decide))

/-- The registers outside the pages that show what is retained stand at their reset values. -/
theorem State.get_warmReset (h : f.page ∉ [0, 15, 17, 20] ∧ f.page < 23) : s.warmReset.get f i j = f.reset i j := by
  obtain ⟨hpage, hlt⟩ := h
  obtain ⟨u, heq, hu, -, -, -⟩ := s.cutUsdo.fromReset.retain_shows s.cutUsdo
  have hout : Nat.testBit 0x1020000000128001 f.page = false := by
    generalize f.page = n at hpage hlt
    interval_cases n <;> simp_all <;> decide
  rw [show s.warmReset = s.cutUsdo.fromReset.retain s.cutUsdo from rfl, heq]
  exact (hu.get ⟨hlt, hout⟩ i j).trans (State.get_fromReset_retainBase _ fun h => hpage (by simp [h]))

/-- So do the registers of SYS that the retained counts and events leave. -/
theorem State.get_sys_warmReset (hpage : f.page = 0) (h : f.clearOf retainFields = true) : s.warmReset.get f i j = f.reset i j := by
  obtain ⟨u, heq, -, -, hsys, -⟩ := s.cutUsdo.fromReset.retain_shows s.cutUsdo
  rw [show s.warmReset = s.cutUsdo.fromReset.retain s.cutUsdo from rfl, heq]
  exact (hsys f h hpage i j).trans (State.get_fromReset_retainBase _ (by omega))

theorem State.brownouts_warmReset (s : State) :
    s.warmReset.get SYS_BROWNOUT_CNT.count = s.get SYS_BROWNOUT_CNT.count % 2 ^ 32 := by
  obtain ⟨u, heq, -, -, -, hcount⟩ := s.cutUsdo.fromReset.retain_shows s.cutUsdo
  have hcut : Only 0x1840201000008000 s s.cutUsdo := State.cutUsdo_only Only.rfl Covers.refl
  rw [show s.warmReset = s.cutUsdo.fromReset.retain s.cutUsdo from rfl, heq, ← hcut.get (by decide)]
  exact hcount

end Retained

section Commands

variable {s : State}

theorem State.awake_of {t : State} (hheld : t.pwr.held = false) (hgated : t.pwr.gated = false) (h : t.powerState = 0) : t.awake = true := by
  rw [State.awake, hheld, hgated, h]
  rfl

theorem State.pinReset_shows (s : State) : Retained s s.pinReset ∧ s.pinReset.mem = [] ∧ s.pinReset.awake = true ∧
    s.pinReset.powerState = 0 ∧ s.pinReset.pwr.dawnReady = true ∧ s.pinReset.bit BOT_STATUS.dawn_done = false := by
  obtain ⟨⟨hentries, hrecs, hjournal, hpending, hflash, hsent⟩, hmem, hpwr⟩ := s.warmReset_shows
  have hstate : s.pinReset.powerState = 0 := by
    have hget : s.pinReset.get PWR_STATUS.state = (s.warmReset.put SPD_MBX_STATUS.state 1).get PWR_STATUS.state := rfl
    rw [State.powerState, hget, State.get_put_apart (h := by decide), State.get_warmReset (by decide)]
    rfl
  have hdawn : s.pinReset.get BOT_STATUS.dawn_done = 0 := by
    have hget : s.pinReset.get BOT_STATUS.dawn_done = (s.warmReset.put SPD_MBX_STATUS.state 1).get BOT_STATUS.dawn_done := rfl
    rw [hget, State.get_put_apart (h := by decide), State.get_warmReset (by decide)]
    rfl
  have hp : s.pinReset.pwr = { s.warmReset.pwr with dawnReady := true, held := false } := rfl
  refine ⟨⟨hentries, hrecs, hjournal, hpending, hflash, hsent⟩, hmem, ?_, hstate, ?_, bit_of_get_zero hdawn⟩
  · exact State.awake_of (by rw [hp]) (by rw [hp, hpwr]) hstate
  · rw [hp]

theorem State.lossHold_shows (s : State) : Retained s s.lossHold ∧ s.lossHold.pwr.held = true ∧ s.lossHold.pwr.dawnReady = false ∧
    s.lossHold.pwr.lossFlag = true := by
  obtain ⟨⟨hentries, hrecs, hjournal, hpending, hflash, hsent⟩, -, -⟩ := s.warmReset_shows
  exact ⟨⟨hentries, hrecs, hjournal, hpending, hflash, hsent⟩, rfl, rfl, rfl⟩

theorem State.brownout_shows (core : Bool) (h : s.pwr.pwrgd = true) : (s.brownout core).pwr.held = true ∧
    (s.brownout core).get SYS_SUPPLY.core_ok = (if core then 0 else 1) ∧
    (s.brownout core).get SYS_SUPPLY.sram_ok = (if core then 1 else 0) ∧ (s.brownout core).get SYS_ERR.brownout = 1 ∧
    (s.brownout core).get SYS_BROWNOUT_CNT.count = min (2 ^ 32 - 1) (s.get SYS_BROWNOUT_CNT.count + 1) := by
  obtain ⟨w, hw⟩ : ∃ w, w = (s.inc SYS_BROWNOUT_CNT.count).lossHold.err SYS_ERR.brownout := ⟨_, rfl⟩
  have hheld : w.pwr.held = true := by rw [hw]; rfl
  have herr : w.get SYS_ERR.brownout = 1 := by rw [hw]; exact State.get_err_same (h := rfl) ..
  have hsupply : w.get SYS_SUPPLY.core_ok = 1 ∧ w.get SYS_SUPPLY.sram_ok = 1 := by
    rw [hw, State.get_err_apart (h := by decide), State.get_err_apart (h := by decide)]
    exact ⟨State.get_sys_warmReset (f := SYS_SUPPLY.core_ok) rfl (by decide), State.get_sys_warmReset (f := SYS_SUPPLY.sram_ok) rfl (by decide)⟩
  have hcount : w.get SYS_BROWNOUT_CNT.count = min (2 ^ 32 - 1) (s.get SYS_BROWNOUT_CNT.count + 1) := by
    rw [hw, State.get_err_apart (h := by decide)]
    refine (State.brownouts_warmReset _).trans ?_
    rw [State.get_inc_rc _ _ _ rfl]
    exact Nat.mod_eq_of_lt (lt_of_le_of_lt (Nat.min_le_left _ _) (by decide))
  have heq : s.brownout core = if core then w.put SYS_SUPPLY.core_ok 0 else w.put SYS_SUPPLY.sram_ok 0 := by
    rw [State.brownout, if_neg (by simp [h]), ← hw]
  cases core with
  | true =>
    rw [heq, if_pos rfl, State.get_put_same, State.get_put_apart (h := by decide), State.get_put_apart (h := by decide),
      State.get_put_apart (h := by decide)]
    exact ⟨hheld, rfl, hsupply.2, herr, hcount⟩
  | false =>
    rw [heq, if_neg (by decide), State.get_put_same, State.get_put_apart (h := by decide), State.get_put_apart (h := by decide),
      State.get_put_apart (h := by decide)]
    exact ⟨hheld, hsupply.1, rfl, herr, hcount⟩

/-- The power state that stands with every register at its reset value. -/
theorem State.awake_mailboxClears {t : State} (hcsr : t.csr = []) (hpwr : t.pwr.held = false ∧ t.pwr.gated = false) :
    t.mailboxClears.awake = true := by
  refine State.awake_of hpwr.1 hpwr.2 ?_
  rw [State.powerState, State.mailboxClears, State.get_put_apart (h := by decide), State.get, hcsr]
  rfl

theorem alwaysOnKey_of_page {f : Fld} {i j : Nat} (h : f.page = 0 ∨ f.page = 15 ∨ f.page = 18 ∨ f.page = 19 ∨ f.page = 20) :
    alwaysOnKey (f.key i j) = true := by
  have hpage : f.key i j / 32 / 65536 = f.page := by rw [Nat.div_div_eq_div_mul]; exact Fld.key_page f i j
  simp only [alwaysOnKey, hpage]
  rcases h with h | h | h | h | h <;> simp [h]

theorem State.gatedReset_shows (s : State) : s.gatedReset.pwr = { s.pwr with gated := true } ∧ s.gatedReset.th 16 = s.th 16 ∧
    s.gatedReset.powerState = s.powerState ∧ s.gatedReset.erq = s.erq ∧ s.gatedReset.flash = s.flash := by
  refine ⟨rfl, Sparse.get_keep_same _ s.cpu.threads (· == 16) 16 rfl, ?_, rfl, rfl⟩
  rw [State.powerState, State.gatedReset, State.get_put_apart (h := by decide), State.get_put_apart (h := by decide)]
  refine State.get_of_keep_same (s := s) (p := fun k => alwaysOnKey k || mailboxKey k) rfl ?_
  rw [Bool.or_eq_true]
  exact .inl (alwaysOnKey_of_page (by decide))

theorem State.pinsGated_shows (s : State) : Only 0x200000000080 s s.pinsGated ∧ s.pinsGated.get BCN_STATUS.busy = 1 :=
  ⟨State.pinsGated_only Only.rfl Covers.refl, (State.get_updSeq ..).trans (State.get_put_same ..)⟩

theorem State.thermalTrip_shows (s : State) : s.thermalTrip.pwr = { s.pwr with gated := true, thermtrip := true, dawnReady := false } ∧
    s.thermalTrip.th 16 = s.th 16 ∧ s.thermalTrip.powerState = s.powerState ∧ s.thermalTrip.get SYS_TRIP.tripped = 1 ∧
    s.thermalTrip.get SYS_ERR.thermtrip = 1 ∧ s.thermalTrip.get BCN_STATUS.busy = 1 ∧ s.thermalTrip.erq.entries = s.erq.entries ∧
    s.thermalTrip.flash = s.flash := by
  obtain ⟨hpwr, hth, hstate, herq, hflash⟩ := s.gatedReset_shows
  obtain ⟨hpins, hbusy⟩ := s.gatedReset.pinsGated_shows
  obtain ⟨g, hg⟩ : ∃ g, g = s.gatedReset.pinsGated := ⟨_, rfl⟩
  have heq : s.thermalTrip = ((g.put SYS_TRIP.tripped 1).err SYS_ERR.thermtrip).updPwr fun p =>
    { p with thermtrip := true, dawnReady := false } := by rw [hg]; rfl
  rw [← hg] at hpins hbusy
  have hcpu := hpins.cpu (by decide)
  rw [heq, State.powerState, State.get_updPwr, State.get_updPwr, State.get_updPwr, State.get_updPwr,
    State.get_err_apart (h := by decide), State.get_put_apart (h := by decide), State.get_err_apart (h := by decide),
    State.get_put_of_lt _ _ _ (by decide), State.get_err_same (h := rfl), State.get_err_apart (h := by decide),
    State.get_put_apart (h := by decide), hpins.get (by decide)]
  refine ⟨?_, ?_, hstate, rfl, rfl, hbusy, ?_, ?_⟩
  · show { g.pwr with thermtrip := true, dawnReady := false } = _
    rw [hpins.pwr (by decide), hpwr]
  · rw [← hth, State.th, State.th, ← hcpu]
    rfl
  · exact (congrArg Erq.entries (hpins.erq (by decide))).trans (congrArg Erq.entries herq)
  · exact (hpins.flash (by decide)).trans hflash

end Commands

/-! # Resets of single units (R443, R447, R567) -/

/-- What a fold over the first `n` numbers reaches at one of them. -/
theorem forN_reaches {σ : Type} {f : Nat → σ → σ} {P : σ → Prop} {n i : Nat} {s : σ} (hi : i < n) (hat : ∀ s, P (f i s))
    (hkeep : ∀ s, ∀ j < n, j ≠ i → P s → P (f j s)) : P (forN n s f) := by
  induction n with
  | zero => omega
  | succ n ih =>
    show P (f n (forN n s f))
    rcases Nat.lt_succ_iff_lt_or_eq.1 hi with hlt | rfl
    · exact hkeep _ n (by omega) (by omega) (ih hlt fun s j hj => hkeep s j (by omega))
    · exact hat _

section Keeper

variable {s t : State}

/-- The registers that finding the flash writes (R570). -/
def flashFields : List Fld := [BOT_FLASH.density, BOT_FLASH.read, BOT_FLASH.dummy, BOT_FLASH.sck_mhz]

/-- The registers that looking for a valid image writes (R575). -/
def imageFields : List Fld := [BOT_STATUS.fallback, BOT_ERR.sig_fail, BOT_ERR.crc_fail]

theorem State.flashFound_touches (s : State) : Touches flashFields s s.flashFound.1 := by
  unfold State.flashFound
  split
  · exact .refl
  · split
    · exact .refl
    · exact (((((Touches.refl.put (by decide) _ _ _).put (by decide) _ _ _).put (by decide) _ _ _).put (by decide) _ _ _).of_csr rfl)

theorem State.imageBad_touches (s : State) (c : Nat) : Touches imageFields s (s.imageBad c) :=
  .ite (Touches.refl.err (by decide) _ _ _ _) (Touches.refl.err (by decide) _ _ _ _)

theorem State.bootImage_touches (s : State) (mode type index : Nat) : Touches imageFields s (s.bootImage mode type index).1 := by
  have hB : ∀ t : State, Touches imageFields s t → Touches imageFields s (match t.imageIn 1 type index with
      | some (b, 0) => (t, some b)
      | some (_, c) => (t.imageBad c, none)
      | none => (t, none)).1 := fun t ht => by
    split
    · exact ht
    · exact ht.trans (t.imageBad_touches _)
    · exact ht
  unfold State.bootImage
  extract_lets fromB
  split
  · exact hB s .refl
  · split
    · exact .refl
    · exact hB _ ((s.imageBad_touches _).put (by decide) _ _ _)
    · exact hB _ (Touches.refl.put (by decide) _ _ _)

theorem State.csr_setBytes (s : State) (a : Nat) (l : List (BitVec 8)) : (s.setBytes a l).csr = s.csr := by
  induction l generalizing s a with
  | nil => rfl
  | cons b l ih => exact ih ..

theorem State.loadFirmware_touches (s : State) (img : List Byte) : Touches [BOT_KEEPER_VER.ver, CPU_THR_PC_START.pc] s (s.loadFirmware 4 img) := by
  have hmem : ∀ a bs, Touches [BOT_KEEPER_VER.ver, CPU_THR_PC_START.pc] s (s.writeMem a bs) := fun _ _ => Touches.refl.of_csr (s.csr_setBytes ..)
  exact ((hmem (lramBase 4 + leAt img 16 4) (imagePayload img)).put (f := BOT_KEEPER_VER.ver) (by decide) (leAt img 12 4) 0 0).put
    (f := CPU_THR_PC_START.pc) (by decide) (leAt img 16 4 / 4) 4 0

theorem State.keeperBooted_reads (img : Option (List Byte)) :
    (s.keeperBooted 4 16 img).get BOT_KEEPER_RST_CNT.count = s.get BOT_KEEPER_RST_CNT.count := by
  cases img with
  | none => exact State.get_put_apart (h := by decide) ..
  | some img =>
    obtain ⟨u, hu⟩ : ∃ u : State, u = { s.loadFirmware 4 img with pwr := { s.pwr with kickAt := s.now } } := ⟨_, rfl⟩
    have hstart : Only 0x18022000000040C0 u (u.startThread 16) := State.startThread_only Only.rfl Covers.refl
    have hload : Touches [BOT_KEEPER_VER.ver, CPU_THR_PC_START.pc] s u := by
      rw [hu]
      exact (s.loadFirmware_touches img).of_csr rfl
    have heq : s.keeperBooted 4 16 (some img) = u.startThread 16 := by rw [hu]; rfl
    rw [heq, hstart.get (by decide), hload _ (by decide)]

theorem State.keeperLoads_reads (e : Nat) : (s.keeperLoads e).get BOT_KEEPER_RST_CNT.count = s.get BOT_KEEPER_RST_CNT.count := by
  unfold State.keeperLoads
  split
  · exact State.get_put_apart (h := by decide) ..
  · rw [State.keeperBooted_reads, s.bootImage_touches _ _ _ _ (by decide)]

/-- A reset of the keeper is counted. -/
theorem State.keeperReset_counts (s : State) :
    s.keeperReset.get BOT_KEEPER_RST_CNT.count = min (2 ^ 32 - 1) (s.get BOT_KEEPER_RST_CNT.count + 1) := by
  obtain ⟨u, hu⟩ : ∃ u : State, u = (((s.clearLram 4).cutFree 16).masterTags 16).ownerReset 16 := ⟨_, rfl⟩
  have hfree : Only 0x180E00D000002800 s u := by
    rw [hu]
    exact State.ownerReset_only (State.masterTags_only (State.cutFree_only (State.clearLram_only Only.rfl (by decide)) (by decide)) (by decide)) (by decide)
  have hclear : (s.keeperCleared 4 16).get BOT_KEEPER_RST_CNT.count = min (2 ^ 32 - 1) (s.get BOT_KEEPER_RST_CNT.count + 1) := by
    unfold State.keeperCleared
    rw [← hu, State.get_put_apart (h := by decide), State.get_inc_rc _ _ _ rfl, State.putThState, State.get_put_apart (h := by decide)]
    show min _ (u.get BOT_KEEPER_RST_CNT.count + 1) = _
    rw [hfree.get (by decide)]
    rfl
  rw [State.keeperReset, State.keeperLoads_reads, State.flashFound_touches _ _ (by decide), hclear]

end Keeper

section Core

variable {s : State} {c : Nat}

/-- The registers of the core's threads before they are shown as OFF. -/
theorem State.threadCleared_eq (t : Nat) : ∃ u : State, (∀ i j, u.get CPU_THR_STATUS.state i j = s.get CPU_THR_STATUS.state i j) ∧
    s.threadCleared c t = (u.putThState (4 * c + t) 0).put CPU_THR_WMASK.mask 0 c t := by
  refine ⟨_, fun i j => ?_, rfl⟩
  have h : Only 0x180E001000002800 s ((((s.cutFree (4 * c + t)).masterTags (4 * c + t)).ownerReset (4 * c + t)).threadWiped (4 * c + t)) :=
    State.threadWiped_only (State.ownerReset_only (State.masterTags_only (State.cutFree_only Only.rfl (by decide)) (by decide)) (by decide)) (by decide)
  exact h.get (by decide) i j

theorem State.state_threadCleared_same {t : Nat} (ht : t < 4) : (s.threadCleared c t).get CPU_THR_STATUS.state c t = 0 := by
  obtain ⟨u, -, heq⟩ := State.threadCleared_eq (s := s) (c := c) t
  have hcore : coreOf (4 * c + t) = c := by unfold coreOf; omega
  have hlane : lane4 (4 * c + t) = t := by unfold lane4; omega
  rw [heq, State.get_put_apart (h := by decide), State.putThState, hcore, hlane, State.get_put_same]
  rfl

theorem State.state_threadCleared_ne {t l : Nat} (hc : c < 4) (ht : t < 4) (hl : l < 4) (hne : l ≠ t) :
    (s.threadCleared c t).get CPU_THR_STATUS.state c l = s.get CPU_THR_STATUS.state c l := by
  obtain ⟨u, hu, heq⟩ := State.threadCleared_eq (s := s) (c := c) t
  have hcore : coreOf (4 * c + t) = c := by unfold coreOf; omega
  have hlane : lane4 (4 * c + t) = t := by unfold lane4; omega
  rw [heq, State.get_put_apart (h := by decide), State.putThState, hcore, hlane,
    State.get_put_ne (h := Fld.key_ne_of_second (by decide) (by omega : c < 5) ht hl hne), hu]

/-- The states of the threads after a reset of their core. -/
theorem State.coreReset_shows (s : State) (hc : c < 4) : (s.coreReset c).thState (4 * c) = 1 ∧
    (∀ t < 4, t ≠ 0 → (s.coreReset c).thState (4 * c + t) = 0) ∧ (s.coreReset c).mem = s.mem := by
  obtain ⟨w, hw⟩ : ∃ w : State, w = (List.range 4).foldl (fun s t => s.threadCleared c t) s := ⟨_, rfl⟩
  obtain ⟨u, hu⟩ : ∃ u : State, u = w.coreCleared c := ⟨_, rfl⟩
  have hmem : u.mem = s.mem := by
    have hall : Only 0x180E001000006800 s w := hw ▸ foldl_keeps Only.rfl fun _ _ _ ht => State.threadCleared_only ht (by decide)
    rw [hu]
    exact hall.mem (by decide)
  have hoff : ∀ t < 4, u.get CPU_THR_STATUS.state c t = 0 := fun t ht => by
    have hall : w.get CPU_THR_STATUS.state c t = 0 := hw ▸
      foldl_range_reaches (P := fun v : State => v.get CPU_THR_STATUS.state c t = 0) (Q := fun _ => True) ht trivial
        (fun _ _ _ _ _ => trivial) (fun v _ => State.state_threadCleared_same ht)
        fun v j hj hne hv => (State.state_threadCleared_ne hc hj ht hne.symm).trans hv
    rw [hu]
    exact hall
  have hcore : ∀ t < 4, coreOf (4 * c + t) = c ∧ lane4 (4 * c + t) = t := fun t ht => by
    unfold coreOf lane4
    omega
  have hcore0 : coreOf (4 * c) = c := by unfold coreOf; omega
  have hlane0 : lane4 (4 * c) = 0 := by unfold lane4; omega
  obtain ⟨f, heq⟩ : ∃ f, u.startThread (4 * c) =
      (((u.updTh (4 * c) f).putThState (4 * c) 1).put CPU_THR_DFAULT.valid 0 c 0).put CPU_BLACKOUT_STATUS.armed 1 := by
    have hst : u.thState (4 * c) = 0 := by
      rw [State.thState, hcore0, hlane0, hoff 0 (by decide)]
    have hthread : isThread (4 * c) = true := decide_eq_true (by omega)
    rw [State.startThread, if_neg (by simp [hthread]), if_neg (by rw [hst]; decide)]
    dsimp only
    rw [hcore0, hlane0, State.rearm, if_pos (by omega)]
    exact ⟨_, rfl⟩
  have hreset : s.coreReset c = u.startThread (4 * c) := by rw [hu, hw]; rfl
  have hfinal : (u.startThread (4 * c)).mem = u.mem := (State.startThread_only (u := 4 * c) Only.rfl Covers.refl : Only 0x18022000000040C0 u _).mem (by decide)
  refine ⟨?_, fun t ht hne => ?_, by rw [hreset, hfinal, hmem]⟩
  · rw [hreset, heq, State.thState, State.get_put_apart (h := by decide), State.get_put_apart (h := by decide), State.putThState,
      State.get_put_same]
    rfl
  · obtain ⟨hc', hl'⟩ := hcore t ht
    rw [hreset, heq, State.thState, hc', hl', State.get_put_apart (h := by decide), State.get_put_apart (h := by decide),
      State.putThState, hcore0, hlane0, State.get_put_ne (h := Fld.key_ne_of_second (by decide) (by omega : c < 5) (by decide) ht hne),
      State.get_updTh, hoff t ht]

end Core

/-! # Resets of groups of units: the ring's interfaces, the facets, Gnomon, the links and the ports (R447, R567) -/

/-- The registers of the ring that the release of a tag may write. -/
def ringFields : List Fld := [RNG_INI_PKT_CNT.count, RNG_INI_BYTE_CNT.count, RNG_STOP_STATUS.holding, RNG_INI_TAG_WAIT.cycles]

section Ring

variable {s : State}

theorem State.publishHolding_touches (s : State) : Touches ringFields s s.publishHolding :=
  Touches.refl.foldl _ fun _ _ ht => ht.put (by decide) _ _ _

theorem State.countInjected_touches (s : State) (p : Pkt) : Touches ringFields s (s.countInjected p) :=
  .ite .refl ((Touches.refl.inc (by decide) _ _).add (by decide) _ _ _)

theorem State.inject_touches (s : State) (p : Pkt) : Touches ringFields s (s.inject p) := by
  have hroute : (s.takeRoute (iniStop p.ini) p.dst p.g).1.csr = s.csr := by
    unfold State.takeRoute
    dsimp only
    split
    · rfl
    · rfl
  unfold State.inject
  exact (Touches.refl.of_csr hroute).trans (State.countInjected_touches _ _)

theorem State.offer_touches (s : State) (p : Pkt) : Touches ringFields s (s.offer p) := by
  unfold State.offer
  split
  · exact (Touches.refl.of_csr rfl).trans (State.publishHolding_touches _)
  · exact State.inject_touches s p

theorem State.releaseHeld_touches (s : State) : Touches ringFields s s.releaseHeld :=
  Touches.trans (t := s.ring.held.foldl (fun s p => s.offer p) (s.updRing fun r => { r with held := [] }))
    ((Touches.refl.of_csr rfl).foldl _ fun _ _ ht => ht.trans (State.offer_touches _ _)) (State.publishHolding_touches _)

theorem State.freeTxn_touches (s : State) (x : Txn) : Touches ringFields s (s.freeTxn x) :=
  (Touches.refl.of_csr rfl).trans (State.releaseHeld_touches _)

theorem State.tagGot_touches (s : State) (i : Nat) : Touches ringFields s (s.tagGot i) := by
  unfold State.tagGot
  split
  · exact .refl
  · exact (Touches.refl.of_csr rfl).add (by decide) _ _ _

theorem State.cutFree_csr (s : State) (i : Nat) : (s.cutFree i).csr = s.csr := by
  unfold State.cutFree
  split
  · rfl
  · dsimp only
    split
    · rfl
    · rfl

/-- A reset of an interface advances its epoch. -/
theorem State.resetTags_shows (s : State) (i : Nat) : ∃ u, Touches ringFields s u ∧
    Touches ringFields (u.put RNG_INI_STATUS.epoch ((s.get RNG_INI_STATUS.epoch i + 1) % 16) i) (s.resetTags i) := by
  unfold State.resetTags
  extract_lets mine epoch s1 s2
  exact ⟨s2, (Touches.refl.of_csr rfl).foldl _ fun _ _ ht => ht.trans (State.freeTxn_touches _ _), State.publishHolding_touches _⟩

/-- What a master reset of an initiator does to the registers of the ring. -/
theorem State.masterReset_shows (s : State) {i : Nat} (hi : i < 41) : (s.masterReset i).get RNG_INI_STATUS.epoch i =
      (s.get RNG_INI_STATUS.epoch i + 1) % 16 ∧
    (∀ k < 41, k ≠ i → (s.masterReset i).get RNG_INI_STATUS.epoch k = s.get RNG_INI_STATUS.epoch k) ∧
    ∀ k, (s.masterReset i).get RNG_DMA_STATUS.state k = s.get RNG_DMA_STATUS.state k := by
  obtain ⟨v, hv⟩ : ∃ v, v = ((s.cutFree i).updRing fun r => { r with held := r.held.filter fun p => p.ini ≠ i }).tagGot i := ⟨_, rfl⟩
  have hsv : Touches ringFields s v := hv ▸ (Touches.refl.of_csr (s.cutFree_csr i)).trans (State.tagGot_touches _ i)
  obtain ⟨u, hvu, hu⟩ := v.resetTags_shows i
  have howner : Only 0x180A000000002000 (v.resetTags i) (s.masterReset i) := by
    have heq : s.masterReset i = (v.resetTags i).ownerReset i := by rw [hv]; rfl
    rw [heq]
    exact State.ownerReset_only Only.rfl Covers.refl
  have hsu := hsv.trans hvu
  refine ⟨?_, fun k hk hne => ?_, fun k => ?_⟩
  · rw [howner.get (by decide), hu _ (by decide), State.get_put_same, hsv _ (by decide)]
    exact Nat.mod_eq_of_lt (Nat.mod_lt _ (by decide))
  · rw [howner.get (by decide), hu _ (by decide),
      State.get_put_ne (h := Fld.key_ne_of_first (f := RNG_INI_STATUS.epoch) (by decide) hi hk (by decide) hne), hsu _ (by decide)]
  · rw [howner.get (by decide), hu _ (by decide), State.get_put_apart (h := by decide), hsu _ (by decide)]

/-- The channel of a group at a reset: its interface and its state. -/
def State.channelReset (s : State) (g k : Nat) : State := (s.masterReset (18 + 8 * g + k)).dmaReset (8 * g + k)

theorem State.dmaReset_eq (s : State) (n : Nat) : ∃ u : State, u.csr = s.csr ∧ s.dmaReset n = u.put RNG_DMA_STATUS.state 0 n :=
  ⟨s.updDma n fun _ => {}, rfl, rfl⟩

theorem State.channelReset_shows (s : State) {g k : Nat} (hg : g < 2) (hk : k < 8) :
    (s.channelReset g k).get RNG_INI_STATUS.epoch (18 + 8 * g + k) = (s.get RNG_INI_STATUS.epoch (18 + 8 * g + k) + 1) % 16 ∧
      (s.channelReset g k).get RNG_DMA_STATUS.state (8 * g + k) = 0 ∧
      ∀ j < 8, j ≠ k → (s.channelReset g k).get RNG_INI_STATUS.epoch (18 + 8 * g + j) = s.get RNG_INI_STATUS.epoch (18 + 8 * g + j) ∧
        (s.channelReset g k).get RNG_DMA_STATUS.state (8 * g + j) = s.get RNG_DMA_STATUS.state (8 * g + j) := by
  obtain ⟨hsame, hother, hdma⟩ := s.masterReset_shows (i := 18 + 8 * g + k) (by omega)
  obtain ⟨u, hu, heq⟩ := (s.masterReset (18 + 8 * g + k)).dmaReset_eq (8 * g + k)
  have hget (f : Fld) (i : Nat) : u.get f i = (s.masterReset (18 + 8 * g + k)).get f i := by rw [State.get, State.get, hu]
  rw [State.channelReset, heq, State.get_put_apart (h := by decide), hget, hsame, State.get_put_same]
  refine ⟨rfl, rfl, fun j hj hne => ⟨?_, ?_⟩⟩
  · rw [State.get_put_apart (h := by decide), hget, hother _ (by omega) (by omega)]
  · rw [State.get_put_ne (h := Fld.key_ne_of_first (f := RNG_DMA_STATUS.state) (by decide) (by show _ < 16; omega) (by show _ < 16; omega) (by decide) (by omega)),
      hget, hdma]

theorem State.dmaGroupReset_shows (s : State) {g k : Nat} (hg : g < 2) (hk : k < 8) :
    (s.dmaGroupReset g).get RNG_INI_STATUS.epoch (18 + 8 * g + k) = (s.get RNG_INI_STATUS.epoch (18 + 8 * g + k) + 1) % 16 ∧
      (s.dmaGroupReset g).get RNG_DMA_STATUS.state (8 * g + k) = 0 := by
  have heq : s.dmaGroupReset g = (List.range 8).foldl (fun s k => s.channelReset g k) s := rfl
  rw [heq]
  refine foldl_range_reaches (Q := fun t : State => t.get RNG_INI_STATUS.epoch (18 + 8 * g + k) = s.get RNG_INI_STATUS.epoch (18 + 8 * g + k))
    (P := fun t : State => t.get RNG_INI_STATUS.epoch (18 + 8 * g + k) = (s.get RNG_INI_STATUS.epoch (18 + 8 * g + k) + 1) % 16 ∧
      t.get RNG_DMA_STATUS.state (8 * g + k) = 0) hk rfl (fun t j hj hne ht => ?_) (fun t ht => ?_) fun t j hj hne ht => ?_
  · obtain ⟨-, -, hother⟩ := t.channelReset_shows hg hj
    exact (hother k hk hne.symm).1.trans ht
  · obtain ⟨hepoch, hstate, -⟩ := t.channelReset_shows hg hk
    exact ⟨by rw [hepoch, ht], hstate⟩
  · obtain ⟨-, -, hother⟩ := t.channelReset_shows hg hj
    obtain ⟨hepoch, hstate⟩ := hother k hk hne.symm
    exact ⟨hepoch.trans ht.1, hstate.trans ht.2⟩

end Ring

section Facets

variable {s : State} {f : Nat}

/-- The registers of the edge fabric that the loss of a facet writes, beside the state of the facet and what EDG_RUN shows. -/
def facetLossFields : List Fld :=
  [EDG_FSTATUS.act_pending, EDG_FSTATUS.shadow, EDG_SHADOW_ID.id, EDG_CFG_PORT.busy, EDG_IMG_ID.id, EDG_LANE_STATUS.aligned,
    EDG_LANE_STATUS.seeded, EDG_LANE_STATUS.span_open, EDG_LANE_STATUS.offset, EDG_RUN_LO.run, EDG_RUN_HI.run]

theorem State.disarmFacet_state (s : State) (f k : Nat) : (s.disarmFacet f).facetState k = s.facetState k := by
  have hdisarm : Only 0x10000000002 s (s.disarm (.facet f)) := State.disarm_only Only.rfl Covers.refl
  rw [State.facetState, State.disarmFacet, State.get_put_apart (h := by decide), hdisarm.get (by decide)]
  rfl

theorem State.emptyShadow_touches (s : State) (f : Nat) : Touches facetLossFields s (s.emptyShadow f) :=
  have h := ((Touches.refl.of_csr (l := facetLossFields) (s := s) (u := s.updFacet f fun x => { x with shadow := [], loading := [] }) rfl).put
    (f := EDG_FSTATUS.shadow) (by decide) 0 f 0).put (f := EDG_SHADOW_ID.id) (by decide) 0 f 0
  .ite (h.put (by decide) _ _ _) h

theorem State.blankFacet_touches (s : State) (f : Nat) : Touches facetLossFields s (s.blankFacet f) :=
  (Touches.refl.put (by decide) _ _ _).foldl _ fun _ _ ht =>
    (((ht.put (by decide) _ _ _).put (by decide) _ _ _).put (by decide) _ _ _).put (by decide) _ _ _

theorem State.enterFacet_lost (s : State) (f : Nat) : ∃ u : State, (∀ k, u.facetState k = s.facetState k) ∧
    ∀ k, (s.enterFacet f 0).facetState k = (u.put EDG_FSTATUS.state 0 f).facetState k := by
  have hage : Only 0x400000000000000 s (s.takeAges f) := State.takeAges_only Only.rfl Covers.refl
  refine ⟨s.takeAges f, fun k => hage.get (by decide) k 0, fun k => ?_⟩
  obtain ⟨w, hw⟩ : ∃ w, w = (s.takeAges f).put EDG_FSTATUS.state 0 f := ⟨_, rfl⟩
  obtain ⟨x, hx⟩ : ∃ x, x = if f < 32 then w.setBit EDG_RUN_LO.run f (0 = 1) else w.setBit EDG_RUN_HI.run (f - 32) (0 = 1) := ⟨_, rfl⟩
  have htouch : Touches facetLossFields w x := hx ▸ .ite (Touches.refl.setBit (by decide) _ _ _ _) (Touches.refl.setBit (by decide) _ _ _ _)
  have hpins : Only 0x400000 x (x.releasePins f []) := State.releasePins_only Only.rfl Covers.refl
  have heq : s.enterFacet f 0 = (x.releasePins f []).updFacet f fun y => { y with gpioOut := 0, gpioEn := 0 } := by
    rw [hx, hw]
    rfl
  rw [← hw, heq]
  exact (hpins.get (by decide) k 0).trans (htouch _ (by decide) k 0)

/-- What the loss of a facet shows of the facets' states. -/
theorem State.facetLost_shows (s : State) (hf : f < 57) :
    ((((s.disarmFacet f).emptyShadow f).enterFacet f 0).blankFacet f).facetState f = 0 ∧
      ∀ k < 57, k ≠ f → ((((s.disarmFacet f).emptyShadow f).enterFacet f 0).blankFacet f).facetState k = s.facetState k := by
  obtain ⟨v, hv⟩ : ∃ v, v = (s.disarmFacet f).emptyShadow f := ⟨_, rfl⟩
  have hsv (k : Nat) : v.facetState k = s.facetState k := by
    rw [← s.disarmFacet_state f k, hv]
    exact State.emptyShadow_touches _ f _ (by decide) k 0
  obtain ⟨u, hu, henter⟩ := v.enterFacet_lost f
  have hblank (k : Nat) : ((v.enterFacet f 0).blankFacet f).facetState k = (u.put EDG_FSTATUS.state 0 f).facetState k :=
    (State.blankFacet_touches _ f _ (by decide) k 0).trans (henter k)
  rw [← hv]
  refine ⟨(hblank f).trans (State.get_put_same ..), fun k hk hne => (hblank k).trans ?_⟩
  rw [State.facetState, State.get_put_ne (h := Fld.key_ne_of_first (f := EDG_FSTATUS.state) (by decide) hf hk (by decide) hne),
    ← hsv, ← hu]
  rfl

theorem State.edgeReset_shows (s : State) : s.edgeReset.edge.facets = [] ∧ s.edgeReset.get EDG_CFG_PORT.busy = 0 ∧
    ∀ f < 57, s.edgeReset.facetState f = 0 := by
  obtain ⟨v, hv⟩ : ∃ v, v = forN 57 (s.masterReset 38) fun f s => (((s.disarmFacet f).emptyShadow f).enterFacet f 0).blankFacet f := ⟨_, rfl⟩
  obtain ⟨w, hw⟩ : ∃ w, w = (v.put EDG_CFG_PORT.busy 0).put EDG_CFG_PORT.facet 0 := ⟨_, rfl⟩
  have heq : s.edgeReset = { w with edge := { w.edge with facets := [], mult := 21 } } := by
    rw [hw, hv]
    rfl
  have hget (g : Fld) (i : Nat) : s.edgeReset.get g i = w.get g i := by rw [heq]; rfl
  rw [hget]
  refine ⟨by rw [heq], ?_, fun f hf => ?_⟩
  · rw [hw, State.get_put_apart (h := by decide), State.get_put_same]
    rfl
  · have hlost : v.facetState f = 0 := hv ▸ forN_reaches (P := fun t : State => t.facetState f = 0) hf (fun t => (t.facetLost_shows hf).1)
      fun t j hj hne ht => ((t.facetLost_shows hj).2 f hf hne.symm).trans ht
    rw [State.facetState, hget, hw, State.get_put_parted (f := EDG_CFG_PORT.facet) (by decide) (by decide) (by decide) hf (by decide),
      State.get_put_apart (h := by decide)]
    exact hlost

end Facets

section Gnomon

variable {s t : State}

/-- A cancelled action is no longer pending; a plan of margins or of power is not cancelled. -/
theorem State.named_cancelNamed (s : State) (o : Owner) : (s.cancelNamed o).gno.named =
    s.gno.named.filter fun n => decide (n.owner ≠ o ∨ o = .plan ∨ o = .power) := by
  have hkeep : ∀ o : Owner, (o = .plan ∨ o = .power) → s.gno.named = s.gno.named.filter fun n => decide (n.owner ≠ o ∨ o = .plan ∨ o = .power) :=
    fun o ho => (List.filter_eq_self.2 fun n _ => decide_eq_true (.inr ho)).symm
  have hdrop : ∀ o : Owner, ¬ (o = .plan ∨ o = .power) →
      (s.gno.named.filter fun n => decide (n.owner ≠ o)) = s.gno.named.filter fun n => decide (n.owner ≠ o ∨ o = .plan ∨ o = .power) :=
    fun o ho => List.filter_congr fun n _ => by simp [ho]
  cases o with
  | plan => exact hkeep _ (.inl rfl)
  | power => exact hkeep _ (.inr rfl)
  | facet f => exact hdrop _ (by simp)
  | exchange => exact hdrop _ (by simp)
  | prism =>
    rw [← hdrop _ (by simp)]
    exact congrArg Gno.named ((State.prismCancelled_only Only.rfl Covers.refl).gno (by decide))
  | cset n =>
    rw [← hdrop _ (by simp)]
    exact congrArg Gno.named ((State.tablesSettle_only Only.rfl Covers.refl).gno (by decide))
  | epoch =>
    rw [← hdrop _ (by simp)]
    exact congrArg Gno.named ((State.epochCancelled_only Only.rfl Covers.refl).gno (by decide))

/-- Of the actions only plans of margins and of power outlive a cancellation of all. -/
theorem State.named_cancelAllNamed (s : State) : ∀ n ∈ s.cancelAllNamed.gno.named, n.owner = .plan ∨ n.owner = .power := by
  have hall : ∀ (l : List Named) (t : State), ∀ n ∈ (l.foldl (fun s m => s.cancelNamed m.owner) t).gno.named,
      n ∈ t.gno.named ∧ ∀ m ∈ l, n.owner ≠ m.owner ∨ m.owner = .plan ∨ m.owner = .power := by
    intro l
    induction l with
    | nil => exact fun t n hn => ⟨hn, by simp⟩
    | cons m l ih =>
      intro t n hn
      obtain ⟨hmem, hrest⟩ := ih _ n hn
      rw [State.named_cancelNamed, List.mem_filter, decide_eq_true_eq] at hmem
      exact ⟨hmem.1, List.forall_mem_cons.2 ⟨hmem.2, hrest⟩⟩
  intro n hn
  obtain ⟨hmem, hl⟩ := hall s.gno.named s n hn
  rcases hl n hmem with h | h
  · exact absurd rfl h
  · exact h

/-- The end of a timeline cancels the actions. -/
theorem State.named_endTimeline (st : Nat) (h : s.hasTimeline = true) :
    ∀ n ∈ (s.endTimeline st).gno.named, n.owner = .plan ∨ n.owner = .power := by
  have hdis : ∀ u : State, ∀ n ∈ u.discontinuity.gno.named, n.owner = .plan ∨ n.owner = .power := fun u n hn => by
    have hwor : Only 0x800400000000100 (u.inc GNO_DISCONT.count).cancelAllNamed u.discontinuity :=
      State.worgaDiscontinuity_only Only.rfl Covers.refl
    rw [hwor.gno (by decide)] at hn
    exact State.named_cancelAllNamed _ n hn
  obtain ⟨u, hu⟩ : ∃ u : State, s.endTimeline st = u.discontinuity := by
    unfold State.endTimeline
    rw [if_neg (by simp [h])]
    exact ⟨_, rfl⟩
  rw [hu]
  exact hdis u

theorem State.gnomonReset_regs (s : State) (f : Fld) (h : f.page = 1) (i : Nat) : s.gnomonReset.get f i = State.reset.get f i := by
  have hkey : (fun k => k / 32 / 65536 != 1) (f.key i 0) = false := by
    have hpage : f.key i 0 / 32 / 65536 = f.page := by rw [Nat.div_div_eq_div_mul]; exact Fld.key_page f i 0
    simp [hpage, h]
  obtain ⟨u, hu⟩ : ∃ u : State, u = if s.gnoState = 0 then s else s.endTimeline 0 := ⟨_, rfl⟩
  have hcsr : s.gnomonReset.csr = u.csr.keep fun k => k / 32 / 65536 != 1 := by
    rw [hu]
    rfl
  rw [State.get_of_keep_out hcsr hkey, State.get]
  exact (Nat.zero_xor _).symm

theorem State.gnomonReset_named (h : s.hasTimeline = true) : s.gnomonReset.gno.named.all (fun n => n.owner = .plan ∨ n.owner = .power) = true := by
  have hst : s.gnoState ≠ 0 := by
    intro h0
    simp [State.hasTimeline, h0] at h
  have heq : s.gnomonReset.gno.named = (s.endTimeline 0).gno.named := by
    unfold State.gnomonReset
    rw [if_neg hst]
  rw [heq, List.all_eq_true]
  exact fun n hn => decide_eq_true (State.named_endTimeline 0 h n hn)

end Gnomon

section Links

/-- The registers of a link's peer and of the device's address. -/
def peerFields : List Fld := [WOR_LINK_PEER.valid, WOR_BLN_PEER.valid, WOR_ADDR_STATUS.valid, WOR_ERR.addr_conflict]

/-- A link is taken DOWN for a reset. -/
def State.linkReset (s : State) (l : LinkId) : State := ((s.putLinkState l 0).resetMarks l).forgetPeer l

theorem State.linkReset_shows (s : State) (l : LinkId) : ∃ u : State, u.csr = (s.putLinkState l 0).csr ∧ Touches peerFields u (s.linkReset l) := by
  refine ⟨(s.putLinkState l 0).resetMarks l, rfl, ?_⟩
  unfold State.linkReset State.forgetPeer
  cases l with
  | data j => exact Touches.refl.put (by decide) _ _ _
  | beacon n => exact Touches.refl.put (by decide) _ _ _

theorem State.linkReset_same (s : State) (j : Fin 12) : (s.linkReset (.data j)).linkState (.data j) = 0 := by
  obtain ⟨u, hu, htouch⟩ := s.linkReset_shows (.data j)
  refine (htouch _ (by decide) j.val 0).trans ?_
  rw [State.get, hu]
  exact State.get_put_same s WOR_LINK_STATUS.state 0 j.val 0

theorem State.linkReset_ne (s : State) {j : Fin 12} {l : LinkId} (h : l ≠ .data j) : (s.linkReset l).linkState (.data j) = s.linkState (.data j) := by
  obtain ⟨u, hu, htouch⟩ := s.linkReset_shows l
  refine (htouch _ (by decide) j.val 0).trans ?_
  rw [State.get, hu]
  cases l with
  | data i =>
    exact State.get_put_ne _ _ _ _ _ _ _ _ (Fld.key_ne_of_first (f := WOR_LINK_STATUS.state) (by decide) i.isLt j.isLt (by decide)
      fun e => h (by rw [Fin.ext e]))
  | beacon n =>
    exact State.get_put_parted (f := WOR_BLN_STATUS.state) (g := WOR_LINK_STATUS.state) (by decide) n.isLt (by decide) j.isLt (by decide) s 0

theorem allLinks_nodup : allLinks.Nodup := by decide

theorem State.worgaReset_shows (s : State) (j : Fin 12) : s.worgaReset.linkState (.data j) = 0 := by
  obtain ⟨v, hv⟩ : ∃ v : State, v = allLinks.foldl (fun s l => s.linkReset l) (s.masterReset 35) := ⟨_, rfl⟩
  have hdown : v.linkState (.data j) = 0 := hv ▸ foldl_reaches (Q := fun _ => True) (P := fun t : State => t.linkState (.data j) = 0)
    (x := .data j) (by simp [allLinks]) allLinks_nodup trivial (fun _ _ _ _ _ => trivial) (fun t _ => t.linkReset_same j)
    fun t l _ hne ht => (t.linkReset_ne hne).trans ht
  obtain ⟨w, hw⟩ : ∃ w : State, w = { v with wor := {} } := ⟨_, rfl⟩
  have heq : s.worgaReset = w.worgaAddress := by rw [hw, hv]; rfl
  have hwstate : w.linkState (.data j) = 0 := by rw [hw]; exact hdown
  have hj := j.isLt
  rw [heq, State.linkState, State.worgaAddress]
  split
  · rw [State.get_put_apart (h := by decide), State.get_put_parted (f := WOR_ADDR_STATUS.addr) (by decide) (by decide) (by decide) hj (by decide)]
    exact hwstate
  · split
    · rw [State.get_err_apart (h := by decide), State.get_put_apart (h := by decide)]
      exact hwstate
    · exact hwstate

theorem State.readoutReset_shows (s : State) : s.readoutReset.rdo.events = [] ∧ ∀ k < 16, s.readoutReset.get RDO_PORT_STATUS.state k = 0 := by
  obtain ⟨v, hv⟩ : ∃ v : State, v = forN 16 (s.masterReset 34) fun k s => s.putPort k 0 := ⟨_, rfl⟩
  have hdown : ∀ k < 16, v.get RDO_PORT_STATUS.state k = 0 := fun k hk => hv ▸
    forN_reaches (P := fun t : State => t.get RDO_PORT_STATUS.state k = 0) hk (fun _ => State.state_putPort (by decide)) fun t j hj hne ht => by
      obtain ⟨hkeep, -, -⟩ := State.putPort_shows t j 0
      rw [hkeep _ (by decide), State.get_put_ne (h := Fld.key_ne_of_first (f := RDO_PORT_STATUS.state) (by decide) hj hk (by decide) hne.symm), ht]
  obtain ⟨w, hw⟩ : ∃ w : State, w = { v with rdo := { ({} : Rdo) with work := v.rdo.work } } := ⟨_, rfl⟩
  have heq : s.readoutReset = w.publishRdo := by rw [hw, hv]; rfl
  refine ⟨by rw [heq]; exact congrArg (fun t : State => t.rdo.events) hw, fun k hk => ?_⟩
  rw [heq, w.publishRdo_touches _ (by decide), hw]
  exact hdown k hk

end Links

/-- Settles O36: a reset of the device leaves what is retained, and a reset of a unit sets its own registers again. -/
theorem resets : Obligations.Resets := by
  unfold Obligations.Resets
  refine ⟨fun s ha => does_alive rfl ha ?dev, fun s => ⟨_, rfl, ?pin⟩, fun s board => ⟨_, rfl, ?on⟩, fun s => ⟨_, rfl, ?loss⟩,
    fun s => ⟨_, rfl, rfl, rfl, rfl, rfl, rfl⟩, fun s core h => congrArg Host.Outcome.next (if_pos (by simp [h])),
    fun s core h => ⟨_, rfl, State.brownout_shows core h⟩, fun s h => ⟨_, rfl, ?aon⟩, fun s => ⟨_, rfl, ?trip⟩,
    fun s ha => exec_alive rfl ha rfl, fun s t ha h => exec_alive rfl ha (if_pos h), fun s t ha hms hdue => does_alive rfl ha ?dog,
    fun s c ha => does_live rfl ha ?core, fun s g ha => does_live rfl ha ?dma, fun s ha => does_live rfl ha s.edgeReset_shows,
    fun s ha => does_live rfl ha ?gnomon, fun s ha => does_live rfl ha s.worgaReset_shows, fun s ha => does_live rfl ha s.readoutReset_shows⟩
  case dev =>
    obtain ⟨⟨hentries, hrecs, hjournal, hpending, hflash, hsent⟩, hmem, -, hstate, hdawn, -⟩ := s.pinReset_shows
    exact ⟨hdawn, hstate, hmem, hentries, hrecs, hjournal, hpending, hflash, hsent⟩
  case pin =>
    obtain ⟨⟨hentries, hrecs, hjournal, hpending, hflash, hsent⟩, hmem, hawake, -, hdawn, hdone⟩ := s.pinReset_shows
    exact ⟨hawake, hdawn, hmem, hdone, hentries, hrecs, hjournal, hpending, hflash, hsent⟩
  case on =>
    exact ⟨State.awake_mailboxClears (t := { s.fromReset with flash := board.foldl (fun f e => f.program e.1 e.2) s.flash }) rfl ⟨rfl, rfl⟩,
      rfl, rfl, rfl, rfl, rfl, rfl⟩
  case loss =>
    obtain ⟨⟨hentries, hrecs, hjournal, hpending, hflash, hsent⟩, hheld, hdawn, hloss⟩ := s.lossHold_shows
    exact ⟨hheld, rfl, hdawn, hloss, hentries, hrecs, hjournal, hpending, hflash, hsent⟩
  case aon =>
    rw [State.aonBrownout, if_neg (by simp [h])]
    exact ⟨State.awake_mailboxClears rfl ⟨rfl, rfl⟩, rfl, rfl, rfl, rfl⟩
  case trip =>
    obtain ⟨hpwr, hth, hstate, htripped, herr, hbusy, hentries, hflash⟩ := s.thermalTrip_shows
    have hawake : s.thermalTrip.awake = false := by
      rw [State.awake, hpwr]
      simp
    rw [hpwr]
    exact ⟨rfl, rfl, rfl, hth, hstate, hawake, rfl, htripped, herr, hbusy, hentries, hflash⟩
  case dog =>
    have hnot : ¬ ((s.at t).get PWR_WDOG.ms = 0 ∨ (s.at t).now < (s.at t).pwr.kickAt + (s.at t).get PWR_WDOG.ms * 10 ^ 12) := by
      rw [not_or]
      exact ⟨hms, Nat.not_lt.2 hdue⟩
    rw [State.watchdogExpiry, if_neg hnot]
    refine ⟨State.get_err_same (h := rfl) .., ?_⟩
    rw [State.pwrErr, State.get_err_apart (h := by decide), State.keeperReset_counts]
    rfl
  case core =>
    obtain ⟨hrun, hoff, hmem⟩ := s.coreReset_shows c.isLt
    exact ⟨hrun, hoff 1 (by decide) (by decide), hoff 2 (by decide) (by decide), hoff 3 (by decide) (by decide), hmem⟩
  case dma => exact ⟨fun k hk => (s.dmaGroupReset_shows g.isLt hk).1, fun k hk => (s.dmaGroupReset_shows g.isLt hk).2⟩
  case gnomon =>
    have hpages : ∀ f ∈ fieldsGNO, f.page = 1 := by decide
    have hregs : (fieldsGNO.all fun x => (List.range 32).all fun i => s.gnomonReset.get x i == State.reset.get x i) = true :=
      List.all_eq_true.2 fun x hx => List.all_eq_true.2 fun i _ => beq_iff_eq.2 (s.gnomonReset_regs x (hpages x hx) i)
    exact ⟨hregs, rfl, rfl, rfl, rfl, rfl, rfl, rfl, State.gnomonReset_named⟩

/-! # The flow of microwords: loops, the end of a stage and preemption points (R191, R215 to R222) -/

theorem does_issuing {c : Instr} {s : State} {f : State → State} {P : State → Prop} (h : exec c s = .next (s.issuing f))
    (ha : s.awake = true) (hi : s.canIssue = true) (hP : P (f s)) : Does c s P := by
  refine does_live h ha ?_
  rw [if_pos hi]
  exact hP

section Contexts

variable {c : Ctx} {n a : Nat}

theorem Ctx.doLoop_taken (h : c.loopTaken n = true) (ha : a < 2 ^ 14) :
    (c.doLoop n a).pc = a ∧ ((c.doLoop n a).loop n).li = (c.loop n).li + 1 := by
  rw [Ctx.doLoop, if_pos h]
  exact ⟨Nat.mod_eq_of_lt ha, congrArg LoopCtr.li (Sparse.get_set_same ..)⟩

theorem Ctx.doLoop_ended (h : c.loopTaken n = false) : (c.doLoop n a).pc = (c.pc + 1) % 2 ^ 14 ∧ ((c.doLoop n a).loop n).li = 0 := by
  rw [Ctx.doLoop, if_neg (by simp [h])]
  exact ⟨rfl, congrArg LoopCtr.li (Sparse.get_set_same ..)⟩

end Contexts

section Background

variable {s : State}

/-- The slot has room for background's next stretch and its save. -/
def State.bgFits (s : State) : Prop := s.seq.abortPass = false ∧ s.bit SEQ_BG_CTRL.enable = true ∧ s.seq.run.used + s.bgY + 5 ≤ s.seq.run.length

theorem State.preempt_eq (habort : s.seq.abortPass = false) :
    s.preempt = if s.bit SEQ_BG_CTRL.enable ∧ s.seq.run.used + s.bgY + 5 ≤ s.seq.run.length then s
      else s.bgSave.stopIssue.put SEQ_BG_STATUS.suspended (b2n (!s.bgSave.stopIssue.seq.bgFresh)) := by
  have hkept : (if s.seq.abortPass then s.bgDiscard else s) = s := if_neg (by simp [habort])
  unfold State.preempt
  rw [hkept]

theorem State.preempt_of_fits (h : s.bgFits) : s.preempt = s := by
  obtain ⟨habort, hroom⟩ := h
  rw [State.preempt_eq habort, if_pos hroom]

theorem State.who_updCtx (f : Ctx → Ctx) : (s.updCtx f).seq.run.who = s.seq.run.who := by
  unfold State.updCtx
  split
  · next h _ _ _ => by_cases h0 : h = 0 <;> simp [State.updHalf, State.updSeq, h0]
  · rfl
  · rfl

/-- A change of background's context leaves the room of the slot. -/
theorem State.bgFits_updCtx (hwho : s.seq.run.who = some .background) (f : Ctx → Ctx) (h : s.bgFits) : (s.updCtx f).bgFits := by
  have heq : s.updCtx f = s.updSeq fun q => { q with bg := f q.bg } := by
    rw [State.updCtx, hwho]
  rw [heq]
  exact h

/-- The save words take five cycles and leave the rest of the sequencer. -/
theorem State.seq_bgSave (s : State) : s.bgSave.seq = { s.seq with run := { s.seq.run with used := s.seq.run.used + 5 } } := by
  obtain ⟨u, hu⟩ : ∃ u : State, s.bgSave = u.useCycles 5 ∧ u.seq = s.seq := by
    refine ⟨_, rfl, Only.seq (A := 0x1000184000000020) ?_ (by decide)⟩
    exact State.offerWords_only (foldl_keeps Only.rfl fun _ _ _ ht => State.setPlane_only ht (by decide)) (by decide)
  obtain ⟨heq, hseq⟩ := hu
  rw [heq, State.useCycles, State.updSeq, hseq]

/-- After a preemption point the pass and what it has done stand as before. -/
theorem State.preempt_shows (habort : s.seq.abortPass = false) : s.preempt.seq.passDone = s.seq.passDone ∧
    s.preempt.seq.inPass = s.seq.inPass ∧ s.preempt.seq.bgFresh = s.seq.bgFresh ∧
    s.preempt.get SEQ_BG_STATUS.pass_done = s.get SEQ_BG_STATUS.pass_done := by
  rw [State.preempt_eq habort]
  split
  · exact ⟨rfl, rfl, rfl, rfl⟩
  · have hseq := s.seq_bgSave
    have hsave : Only 0x1000384000000020 s s.bgSave := State.bgSave_only Only.rfl Covers.refl
    obtain ⟨u, hu⟩ : ∃ u : State, u = s.bgSave := ⟨_, rfl⟩
    rw [← hu] at hseq hsave ⊢
    refine ⟨(congrArg Seq.passDone hseq : u.seq.passDone = _), (congrArg Seq.inPass hseq : u.seq.inPass = _),
      (congrArg Seq.bgFresh hseq : u.seq.bgFresh = _), ?_⟩
    rw [State.get_put_apart (h := by decide)]
    exact hsave.get (by decide) 0 0

theorem State.preempt_stops (habort : s.seq.abortPass = false) (h : s.seq.run.length < s.seq.run.used + s.bgY + 5) :
    s.preempt.seq.run.who = none := by
  rw [State.preempt_eq habort, if_neg fun hroom => absurd hroom.2 (Nat.not_le.2 h)]
  rfl

theorem State.seq_bgRestore (s : State) : s.bgRestore.seq = { s.seq with run := { s.seq.run with used := s.seq.run.used + 5 } } := by
  obtain ⟨u, hu⟩ : ∃ u : State, s.bgRestore = u.useCycles 5 ∧ u.seq = s.seq := by
    refine ⟨_, rfl, ?_⟩
    exact (State.offerWords_only Only.rfl Covers.refl : Only 0x1000000000000020 _ _).seq (by decide)
  obtain ⟨heq, hseq⟩ := hu
  rw [heq, State.useCycles, State.updSeq, hseq]

/-- What the start of background leaves of the stages. -/
structure StagesStand (s t : State) : Prop where
  todo : t.seq.run.todo = s.seq.run.todo
  half0 : t.seq.half0 = s.seq.half0
  half1 : t.seq.half1 = s.seq.half1
  last : t.get SEQ_FG_CYCLES.last = s.get SEQ_FG_CYCLES.last

theorem State.bgRestore_stands (s : State) : StagesStand s s.bgRestore := by
  have hseq := s.seq_bgRestore
  have hother : Only 0x1000300000000020 s s.bgRestore := State.bgRestore_only Only.rfl Covers.refl
  exact ⟨by rw [hseq], by rw [hseq], by rw [hseq], hother.get (by decide) 0 0⟩

theorem State.stopIssue_stands (h : s.seq.run.todo = []) : StagesStand s s.stopIssue := ⟨h.symm, rfl, rfl, rfl⟩

theorem State.bgStart_stands (h : s.seq.run.todo = []) : StagesStand s s.bgStart := by
  unfold State.bgStart
  extract_lets r need u v
  have hu : StagesStand s u := by
    unfold u
    split
    · exact ⟨rfl, rfl, rfl, rfl⟩
    · exact s.bgRestore_stands
  clear_value u
  split
  · exact State.stopIssue_stands h
  · split
    · obtain ⟨csr, counts, hinc⟩ := s.inc_parts SEQ_BG_STARVE_CNT.count 0 0
      have hlast : ((s.inc SEQ_BG_STARVE_CNT.count).seqErr SEQ_ERR.bg_starved).get SEQ_FG_CYCLES.last = s.get SEQ_FG_CYCLES.last := by
        rw [State.seqErr, State.get_err_apart (h := by decide), State.get_inc_apart (h := by decide)]
      refine ⟨h.symm, ?_, ?_, hlast⟩
      · show (s.inc SEQ_BG_STARVE_CNT.count).seq.half0 = _
        rw [hinc]
      · show (s.inc SEQ_BG_STARVE_CNT.count).seq.half1 = _
        rw [hinc]
    · obtain ⟨htodo, h0, h1, hlast⟩ := hu
      refine ⟨htodo, h0, h1, ?_⟩
      rw [State.get_put_apart (h := by decide), State.get_put_apart (h := by decide)]
      exact hlast

/-- The stages of the slot after one has ended. -/
theorem State.nextStage_shows (s : State) : s.nextStage.get SEQ_FG_CYCLES.last = s.get SEQ_FG_CYCLES.last ∧
    (∀ h, (s.nextStage.half h).ran = (s.half h).ran) ∧ s.nextStage.seq.run.todo = s.seq.run.todo.tail := by
  unfold State.nextStage
  split
  · next htodo =>
    obtain ⟨hnone, h0, h1, hlast⟩ := State.bgStart_stands (s := s.updSeq fun q => { q with run := { q.run with who := none } }) htodo
    refine ⟨hlast, fun h => ?_, by rw [hnone, htodo]; exact htodo⟩
    rw [State.half, State.half, h0, h1]
    rfl
  · next h k c rest htodo =>
    rw [htodo]
    refine ⟨by rw [State.updHalf]; rfl, fun g => ?_, rfl⟩
    rw [State.updHalf, State.half, State.half]
    by_cases h0 : h = 0 <;> by_cases g0 : g = 0 <;> simp [State.updSeq, h0, g0]

end Background

/-- A pass of background has ended: the next one starts at the program's entry. -/
def Seq.passEnded (q : Seq) (entry : Nat) : Seq :=
  { q with bgFresh := true, inPass := false, passDone := true, bg := { q.bg with pc := entry, stack := [] } }

/-- Settles O8: every preemption point asks for the same room, and the words of the flow change their own context only. -/
theorem microwordFlow : Obligations.MicrowordFlow := by
  unfold Obligations.MicrowordFlow
  refine ⟨fun s n a ha hi htaken hroom => does_issuing rfl ha hi ?taken, fun s n a ha hi hended => does_issuing rfl ha hi ?ended,
    fun s h k c ha hi hwho => does_issuing rfl ha hi ?stage, fun s ha hi hwho habort hen hroom => does_issuing rfl ha hi ?goes,
    fun s ha hi hwho habort hfull => does_issuing rfl ha hi ?stops, fun s ha hi hwho habort => does_issuing rfl ha hi ?ends⟩
  case taken =>
    have hctx := State.curCtx_updCtx (State.who_of_canIssue hi) fun c => c.doLoop n.val a.val
    have hsame : s.flowLoop n.val a.val = s.updCtx fun c => c.doLoop n.val a.val := by
      unfold State.flowLoop
      rw [htaken]
      dsimp only
      split
      · next hbg =>
        have hwho : s.seq.run.who = some .background := by rwa [State.who_updCtx] at hbg
        rw [if_pos rfl, State.preempt_of_fits (State.bgFits_updCtx hwho _ (hroom hwho))]
      · rfl
    rw [hsame, hctx]
    exact Ctx.doLoop_taken htaken a.isLt
  case ended =>
    have hctx := State.curCtx_updCtx (State.who_of_canIssue hi) fun c => c.doLoop n.val a.val
    have hsame : s.flowLoop n.val a.val = s.updCtx fun c => c.doLoop n.val a.val := by
      unfold State.flowLoop
      rw [hended]
      dsimp only
      split
      · exact if_neg (by decide)
      · rfl
    rw [hsame, hctx]
    exact Ctx.doLoop_ended hended
  case stage =>
    obtain ⟨u, hu⟩ : ∃ u : State, u = s.updHalf h fun x => { x with ran := x.ran ++ [(k, c)] } := ⟨_, rfl⟩
    have heq : s.stageEnd = ((u.put SEQ_FG_CYCLES.last (min 0xFFFF s.seq.run.used)).raiseTo SEQ_FG_CYCLES.max (min 0xFFFF s.seq.run.used)).nextStage := by
      have hused : u.seq.run.used = s.seq.run.used := by
        rw [hu, State.updHalf]
        by_cases h0 : h = 0 <;> simp [State.updSeq, h0]
      unfold State.stageEnd
      rw [hwho]
      dsimp only
      rw [← hu, hused]
    obtain ⟨v, hv⟩ : ∃ v : State, v = (u.put SEQ_FG_CYCLES.last (min 0xFFFF s.seq.run.used)).raiseTo SEQ_FG_CYCLES.max (min 0xFFFF s.seq.run.used) := ⟨_, rfl⟩
    have hseq : v.seq = u.seq := by rw [hv]; rfl
    obtain ⟨hlast, hran, htodo⟩ := v.nextStage_shows
    rw [heq, ← hv, hlast, hran, htodo]
    refine ⟨?_, ?_, ?_⟩
    · rw [hv, State.get_raiseTo_apart (h := by decide), State.get_put_of_lt _ _ _ (lt_of_le_of_lt (Nat.min_le_left _ _) (by decide))]
    · rw [State.half, State.half, hseq, hu, State.updHalf]
      by_cases h0 : h = 0 <;> simp [State.updSeq, h0]
    · rw [hseq, hu, State.updHalf]
      by_cases h0 : h = 0 <;> simp [State.updSeq, h0]
  case goes =>
    have hstay : s.yieldPoint = s.updCtx Ctx.next := by
      unfold State.yieldPoint
      rw [hwho]
      exact State.preempt_of_fits (State.bgFits_updCtx hwho _ ⟨habort, hen, hroom⟩)
    rw [hstay, State.curCtx_updCtx (State.who_of_canIssue hi), State.who_updCtx]
    exact ⟨hwho, rfl⟩
  case stops =>
    have hupd : s.updCtx Ctx.next = s.updSeq fun q => { q with bg := q.bg.next } := by rw [State.updCtx, hwho]
    have hstop : s.yieldPoint = (s.updSeq fun q => { q with bg := q.bg.next }).preempt := by
      unfold State.yieldPoint
      rw [hwho]
      exact congrArg State.preempt hupd
    rw [hstop]
    exact State.preempt_stops habort hfull
  case ends =>
    obtain ⟨u, hu⟩ : ∃ u : State, u = (s.put SEQ_BG_STATUS.pass_done 1).inc SEQ_BG_PASS_CNT.count := ⟨_, rfl⟩
    have hdone : u.get SEQ_BG_STATUS.pass_done = 1 := by
      rw [hu, State.get_inc_apart (h := by decide), State.get_put_same]
      rfl
    have hseq : u.seq = s.seq := by
      obtain ⟨csr, counts, hinc⟩ := (s.put SEQ_BG_STATUS.pass_done 1).inc_parts SEQ_BG_PASS_CNT.count 0 0
      rw [hu, hinc]
      rfl
    obtain ⟨v, hv⟩ : ∃ v : State, v = u.updSeq fun q => q.passEnded (progBgEntry u.active.image) := ⟨_, rfl⟩
    have heq : s.bgEnd = v.preempt := by
      unfold State.bgEnd
      rw [hwho]
      dsimp only
      rw [if_neg (by simp [habort]), ← hu, hv]
      rfl
    have habort' : v.seq.abortPass = false := by
      rw [hv]
      exact (congrArg Seq.abortPass hseq).trans habort
    obtain ⟨hpass, hin, hfresh, hshown⟩ := State.preempt_shows habort'
    rw [heq, hpass, hin, hfresh, hshown, hv]
    exact ⟨hdone, rfl, rfl, rfl⟩

/-! # The cycle of a facet (R86 to R102) -/

section Paths

variable {s t u : State}

/-- A facet without its lane paths. -/
def Facet.core (x : Facet) : Facet := { x with paths := [] }

/-- From `s` to `t` the facets have changed in their lane paths at most. -/
structure PathsOnly (s t : State) : Prop where
  core : ∀ f, (t.facet f).core = (s.facet f).core

theorem State.facet_updFacet_same (s : State) (f : Nat) (g : Facet → Facet) : (s.updFacet f g).facet f = g (s.facet f) :=
  Sparse.get_upd_same _ _ _ _

theorem State.facet_updFacet_ne (s : State) {f k : Nat} (g : Facet → Facet) (h : k ≠ f) : (s.updFacet f g).facet k = s.facet k :=
  Sparse.get_upd_ne _ _ _ h

namespace PathsOnly

theorem refl : PathsOnly s s := ⟨fun _ => rfl⟩

theorem trans (h : PathsOnly s t) (k : PathsOnly t u) : PathsOnly s u := ⟨fun f => (k.core f).trans (h.core f)⟩

theorem of_edge (h : PathsOnly s t) (e : u.edge = t.edge) : PathsOnly s u := ⟨fun f => by
  rw [State.facet, e]
  exact h.core f⟩

theorem ite {p : Prop} [Decidable p] (ht : PathsOnly s t) (hu : PathsOnly s u) : PathsOnly s (if p then t else u) := by
  split
  · exact ht
  · exact hu

theorem updPath (h : PathsOnly s t) (f l : Nat) (g : LanePath → LanePath) : PathsOnly s (t.updPath f l g) := ⟨fun k => by
  refine Eq.trans ?_ (h.core k)
  by_cases hk : k = f
  · subst hk
    rw [State.updPath, State.facet_updFacet_same]
    rfl
  · rw [State.updPath, State.facet_updFacet_ne _ _ hk]⟩

theorem put (h : PathsOnly s t) (f : Fld) (v i j : Nat) : PathsOnly s (t.put f v i j) := h.of_edge rfl

theorem inc (h : PathsOnly s t) (f : Fld) (i j : Nat) : PathsOnly s (t.inc f i j) := by
  obtain ⟨csr, counts, heq⟩ := t.inc_parts f i j
  rw [heq]
  exact h.of_edge rfl

theorem err (h : PathsOnly s t) (f : Fld) (i inst detail j : Nat) : PathsOnly s (t.err f i inst detail j) := h.of_edge rfl

theorem foldl {α : Type} {f : State → α → State} (h : PathsOnly s t) (xs : List α) (hf : ∀ t x, PathsOnly t (f t x)) :
    PathsOnly s (xs.foldl f t) :=
  foldl_keeps h fun t x _ ht => ht.trans (hf t x)

end PathsOnly

theorem State.pushBlock_paths (s : State) (f l : Nat) (b : Block) : PathsOnly s (s.pushBlock f l b) := by
  unfold State.pushBlock
  exact .ite (.ite (((PathsOnly.refl.inc _ _ _).err _ _ _ _ _).err _ _ _ _ _) ((PathsOnly.refl.inc _ _ _).err _ _ _ _ _))
    (PathsOnly.refl.updPath _ _ _)

theorem State.judgeBlock_paths (s : State) (f l b : Nat) : PathsOnly s (s.judgeBlock f l b) := by
  unfold State.judgeBlock
  dsimp only
  split
  · exact (PathsOnly.refl.put _ _ _ _).trans (State.pushBlock_paths ..)
  · split
    · exact .ite (((PathsOnly.refl.updPath _ _ _).put _ _ _ _).inc _ _ _) ((PathsOnly.refl.updPath _ _ _).trans (State.pushBlock_paths ..))
    · exact .ite (PathsOnly.refl.updPath _ _ _) (.ite (.ite (((PathsOnly.refl.updPath _ _ _).updPath _ _ _).put _ _ _ _)
        (PathsOnly.refl.updPath _ _ _)) (((PathsOnly.refl.updPath _ _ _).inc _ _ _).put _ _ _ _))

theorem State.cutBlocks_paths (f l k : Nat) (s : State) : PathsOnly s (State.cutBlocks f l k s) := by
  induction k generalizing s with
  | zero => exact .refl
  | succ k ih =>
    unfold State.cutBlocks
    exact .ite (((PathsOnly.refl.updPath _ _ _).trans (State.judgeBlock_paths ..)).trans (ih _)) .refl

theorem State.pathWord_paths (s : State) (f l word : Nat) : PathsOnly s (s.pathWord f l word) :=
  (PathsOnly.refl.updPath _ _ _).trans (State.cutBlocks_paths ..)

theorem State.takeWord_paths (s : State) (n raw : Nat) : PathsOnly s (s.takeWord n raw) := by
  unfold State.takeWord
  split
  · exact .refl
  · extract_lets word u timing st56 v f st
    have hu : PathsOnly s u := .ite (PathsOnly.refl.of_edge rfl) .refl
    have hv : PathsOnly s v := .ite (hu.trans (State.pathWord_paths ..)) hu
    exact .ite ((hv.inc _ _ _).err _ _ _ _ _) (.ite (hv.inc _ _ _) (hv.trans (State.pathWord_paths ..)))

theorem State.txOut_paths (s : State) (n w : Nat) : PathsOnly s (s.txOut n w) := by
  unfold State.txOut
  have hsent : PathsOnly s (s.sendFront n w) := PathsOnly.refl.of_edge rfl
  exact .ite .refl (.ite (hsent.trans (State.takeWord_paths ..)) hsent)

theorem State.txEmit_paths (s : State) (n : Nat) (t : TxWord) : PathsOnly s (s.txEmit n t) := by
  have hstep : ∀ st f l word, PathsOnly s (s.txStep st f l word).1 := fun st f l word => by
    unfold State.txStep
    split
    · exact .refl
    · exact PathsOnly.refl.updPath _ _ _
  exact .ite ((hstep _ _ _ _).inc _ _ _) ((hstep _ _ _ _).trans (State.txOut_paths ..))

theorem State.txDrain_paths (n k : Nat) (s : State) : PathsOnly s (State.txDrain n k s) := by
  induction k generalizing s with
  | zero => exact .refl
  | succ k ih =>
    unfold State.txDrain
    split
    · exact ((PathsOnly.refl.updPath _ _ _).trans (State.txEmit_paths ..)).trans (ih _)
    · exact .refl

theorem State.txCycles_paths (s : State) (f : Nat) : PathsOnly s (s.txCycles f) :=
  .ite .refl (PathsOnly.refl.foldl _ fun _ _ => (PathsOnly.refl.updPath _ _ _).trans (State.txDrain_paths ..))

theorem State.portCycle_paths (s : State) (f l : Nat) (sinks : List (Nat × Nat)) : PathsOnly s (s.portCycle f l sinks) := by
  unfold State.portCycle
  extract_lets x p img keepPast b0 lo hi mode seed u c start isOpen stop ps0 ps
  have hu : PathsOnly s u := .ite (PathsOnly.refl.put _ _ _ _) .refl
  split
  · exact PathsOnly.refl.updPath _ _ _
  · next b rest _ =>
    extract_lets r reg ok blk v w
    have hw : PathsOnly s w := (hu.updPath _ _ _).put _ _ _ _
    clear_value w
    exact .ite (.ite (hw.inc _ _ _) (hw.inc _ _ _)) hw

theorem State.emitWord_paths (s : State) (f l word : Nat) : PathsOnly s (s.emitWord f l word) :=
  (PathsOnly.refl.updPath _ _ _).inc _ _ _

theorem State.packOut_paths (f l k : Nat) (s : State) : PathsOnly s (State.packOut f l k s) := by
  induction k generalizing s with
  | zero => exact .refl
  | succ k ih =>
    unfold State.packOut
    exact .ite (((State.emitWord_paths ..).updPath _ _ _).trans (ih _)) .refl

theorem State.packCycle_paths (s : State) (f l : Nat) (sinks : List (Nat × Nat)) : PathsOnly s (s.packCycle f l sinks) := by
  unfold State.packCycle
  extract_lets x p img b sk s1 w s2 s3
  have h1 : PathsOnly s s1 := .ite (PathsOnly.refl.updPath _ _ _) .refl
  have h2 : PathsOnly s s2 := .ite (h1.trans ((PathsOnly.refl.updPath _ _ _).trans (State.packOut_paths ..))) h1
  have h3 : PathsOnly s s3 := .ite ((h2.trans (State.emitWord_paths ..)).updPath _ _ _) h2
  exact .ite .refl (.ite (h3.trans (.ite (PathsOnly.refl.of_edge rfl) .refl)) h3)

theorem State.portCycles_paths (s : State) (f : Nat) : PathsOnly s (s.portCycles f) := by
  unfold State.portCycles
  extract_lets sinks u
  have hu : PathsOnly s u := PathsOnly.refl.foldl _ fun _ _ => State.portCycle_paths ..
  exact .ite hu (hu.foldl _ fun _ _ => State.packCycle_paths ..)

end Paths

section Logic

variable {s t u : State}

/-- A facet without its lane paths and without what a cycle computes beside macrocells and lines. -/
def Facet.logic (x : Facet) : Facet :=
  { x with paths := [], timers := [], expired := 0, tickPrev := 0, prev := 0, pulses := 0, fresh := 0, rows := [], read := [],
           gpioOut := 0, gpioEn := 0 }

theorem Facet.logic_timers (x : Facet) (h : Sparse HardTimer) (e p : Nat) :
    ({ x with timers := h, expired := e, tickPrev := p } : Facet).logic = x.logic := rfl

theorem Facet.logic_edges (x : Facet) (p q : Nat) : ({ x with pulses := p, prev := q, fresh := 0 } : Facet).logic = x.logic := rfl

/-- From `s` to `t` the macrocells, the lines and the images of the facets stand. -/
structure LogicStands (s t : State) : Prop where
  logic : ∀ f, (t.facet f).logic = (s.facet f).logic

namespace LogicStands

theorem refl : LogicStands s s := ⟨fun _ => rfl⟩

theorem trans (h : LogicStands s t) (k : LogicStands t u) : LogicStands s u := ⟨fun f => (k.logic f).trans (h.logic f)⟩

theorem of_paths (h : LogicStands s t) (k : PathsOnly t u) : LogicStands s u :=
  ⟨fun f => (congrArg Facet.logic (k.core f) : (u.facet f).core.logic = _).trans (h.logic f)⟩

theorem of_edge (h : LogicStands s t) (e : u.edge = t.edge) : LogicStands s u := h.of_paths (PathsOnly.refl.of_edge e)

theorem updFacet (h : LogicStands s t) (f : Nat) (g : Facet → Facet) (hg : ∀ x, (g x).logic = x.logic) : LogicStands s (t.updFacet f g) := ⟨fun k => by
  refine Eq.trans ?_ (h.logic k)
  by_cases hk : k = f
  · subst hk
    rw [State.facet_updFacet_same, hg]
  · rw [State.facet_updFacet_ne _ _ hk]⟩

theorem ite {p : Prop} [Decidable p] (ht : LogicStands s t) (hu : LogicStands s u) : LogicStands s (if p then t else u) := by
  split
  · exact ht
  · exact hu

end LogicStands

theorem State.bramCycle_logic (s : State) (f m : Nat) (sinks : List (Nat × Nat)) : LogicStands s (s.bramCycle f m sinks) := by
  unfold State.bramCycle
  extract_lets x sk place row writes clash rd wr v
  have hrd : ∀ p y, (rd p y).logic = y.logic := fun p y => by
    unfold rd
    split
    · rfl
    · rfl
  have hwr : ∀ p y, (wr p y).logic = y.logic := fun _ _ => rfl
  have hv : LogicStands s v := LogicStands.refl.updFacet f _ fun y => by
    dsimp only
    split <;> split <;> simp only [hwr, hrd]
  exact .ite (hv.of_paths ((PathsOnly.refl.inc _ _ _).err _ _ _ _ _)) hv

theorem State.timerCycle_logic (s : State) (f : Nat) (v : FacetSees) (src : Nat → Bool) (sinks : List (Nat × Nat)) :
    LogicStands s (s.timerCycle f v src sinks) := by
  unfold State.timerCycle
  exact LogicStands.refl.updFacet f _ fun y => y.logic_timers _ _ _

theorem State.edgeCycle_logic (s : State) (f : Nat) (src : Nat → Bool) : LogicStands s (s.edgeCycle f src) := by
  unfold State.edgeCycle
  exact LogicStands.refl.updFacet f _ fun y => y.logic_edges _ _

theorem State.gpioCycle_logic (s : State) (f : Nat) (sinks : List (Nat × Nat)) : LogicStands s (s.gpioCycle f sinks) := by
  unfold State.gpioCycle
  extract_lets x pins out en v
  have hv : LogicStands s v := LogicStands.refl.updFacet f _ fun _ => rfl
  exact foldl_keeps hv fun t n _ ht => ht.of_edge rfl

end Logic

section Cycle

variable {s : State}

/-- A cycle in RUN computes the macrocells and drives the exported lines from them. -/
theorem State.runCycle_shows (s : State) (f : Nat) (v : FacetSees) : ∃ y : Facet, y.logic = (s.facet f).logic ∧
    (s.runCycle f v).facet f = { y with
      cells := nextCells (s.facet f).active ((s.portCycles f).cellInputs f v) (s.facet f).cells,
      exports := exportLines (s.facet f).active (nextCells (s.facet f).active ((s.portCycles f).cellInputs f v) (s.facet f).cells) } := by
  unfold State.runCycle
  extract_lets x sinks p src cells b e g w
  have hp : LogicStands s p := LogicStands.refl.of_paths (State.portCycles_paths s f)
  have hb : LogicStands s b := foldl_keeps hp fun t m _ ht => ht.trans (State.bramCycle_logic ..)
  have he : LogicStands s e := (hb.trans (State.timerCycle_logic ..)).trans (State.edgeCycle_logic ..)
  have hg : LogicStands s g := he.trans (State.gpioCycle_logic ..)
  have hw : LogicStands s w := by
    unfold w
    split
    · exact hg.of_edge ((State.presentWord_only Only.rfl Covers.refl : Only 0x1800010000000002 g _).edge (by decide))
    · exact hg
  exact ⟨w.facet f, hw.logic f, State.facet_updFacet_same ..⟩

/-- The synchronisers' stages of a facet after a cycle; the rest of it stands. -/
theorem State.facetStages_shows (s : State) (f pins : Nat) (strobe : Bool) : ∃ edges strobes, (s.facetStages f pins strobe).facet f =
    { s.facet f with lines3 := (s.facet f).lines2, lines2 := (s.facet f).lines1, lines1 := s.linesTo f, edges := edges, strobes := strobes } := by
  unfold State.facetStages
  extract_lets sb v u
  have hu : u.edge = s.edge := by
    unfold u State.setupCycle
    split
    · rfl
    · rfl
  obtain ⟨w, hw⟩ : ∃ w : State, w = u.updFacet f fun y =>
    { y with lines3 := y.lines2, lines2 := y.lines1, lines1 := u.linesTo f, edges := u.edge.edges, strobes := sb.1 } := ⟨_, rfl⟩
  have hshow : Only 0x400000 w (w.showPins f v) := State.showPins_only Only.rfl Covers.refl
  have hlines : u.linesTo f = s.linesTo f := by
    unfold State.linesTo State.facet
    rw [hu]
  have hfacet : w.facet f = { s.facet f with
      lines3 := (s.facet f).lines2, lines2 := (s.facet f).lines1, lines1 := s.linesTo f, edges := u.edge.edges, strobes := sb.1 } := by
    rw [hw, State.facet_updFacet_same, hlines, State.facet, hu]
    rfl
  refine ⟨u.edge.edges, sb.1, ?_⟩
  rw [← hw, State.facet, hshow.edge (by decide)]
  exact hfacet

/-- The values that a facet keeps outside its lane paths. -/
theorem State.facetCycle_core (s : State) (f pins : Nat) (us : Bool) (late : Nat) (strobe : Bool) :
    ((s.facetCycle f pins us late strobe).facet f).core =
      ((if s.facetState f = 1 then (s.facetStages f pins strobe).runCycle f (s.facetSees f pins us late strobe)
        else if s.facetState f = 3 then (s.facetStages f pins strobe).switchCycle f (s.facetSees f pins us late strobe)
        else s.facetStages f pins strobe).facet f).core :=
  (State.txCycles_paths _ f).core f

/-- What a cycle in RUN does to a facet's macrocells, lines and exports. -/
theorem State.facetCycle_run (f pins : Nat) (us : Bool) (late : Nat) (strobe : Bool) (h : s.facetState f = 1) :
    ∃ y : Facet, ((s.facetCycle f pins us late strobe).facet f).core = y.core ∧ y.lines1 = s.linesTo f ∧
      y.lines2 = (s.facet f).lines1 ∧ y.lines3 = (s.facet f).lines2 ∧ y.active = s.img f ∧
      y.cells = nextCells (s.img f) (bitSet 160 fun i => ((s.facetStages f pins strobe).portCycles f).facetSource f
        (s.facetSees f pins us late strobe) (imgInput (s.img f) i)) (s.facet f).cells ∧
      y.exports = exportLines (s.img f) y.cells := by
  obtain ⟨edges, strobes, hstages⟩ := s.facetStages_shows f pins strobe
  obtain ⟨y, hy, hrun⟩ := (s.facetStages f pins strobe).runCycle_shows f (s.facetSees f pins us late strobe)
  have hcore := s.facetCycle_core f pins us late strobe
  rw [if_pos h] at hcore
  have hactive : (((s.facetStages f pins strobe).portCycles f).facet f).active = s.img f := by
    have hports := congrArg Facet.active (((s.facetStages f pins strobe).portCycles_paths f).core f)
    exact hports.trans (congrArg Facet.active hstages :)
  have hcells : ((s.facetStages f pins strobe).facet f).cells = (s.facet f).cells := (congrArg Facet.cells hstages :)
  have himg : ((s.facetStages f pins strobe).facet f).active = s.img f := (congrArg Facet.active hstages :)
  refine ⟨_, hcore, ?_⟩
  rw [hrun, himg, hcells, State.cellInputs, hactive]
  rw [hstages] at hy
  refine ⟨(congrArg Facet.lines1 hy :), (congrArg Facet.lines2 hy :),
    (congrArg Facet.lines3 hy :), (congrArg Facet.active hy :), rfl, rfl⟩

/-- A facet in HALT keeps its macrocells, timers and exports through a cycle. -/
theorem State.facetCycle_halt (f pins : Nat) (us : Bool) (late : Nat) (strobe : Bool) (h : s.facetState f = 2) :
    ((s.facetCycle f pins us late strobe).facet f).cells = (s.facet f).cells ∧
      ((s.facetCycle f pins us late strobe).facet f).timers = (s.facet f).timers ∧
      ((s.facetCycle f pins us late strobe).facet f).exports = (s.facet f).exports := by
  obtain ⟨edges, strobes, hstages⟩ := s.facetStages_shows f pins strobe
  have hcore := s.facetCycle_core f pins us late strobe
  rw [if_neg (by omega), if_neg (by omega), hstages] at hcore
  exact ⟨(congrArg Facet.cells hcore :), (congrArg Facet.timers hcore :), (congrArg Facet.exports hcore :)⟩

/-- A running timer at its last count expires. -/
theorem State.facetTimerExpiry_run {f t : Nat} (h : s.facetState f = 1) (hrun : (Sparse.get {} (s.facet f).timers t).running = true)
    (hcount : (Sparse.get {} (s.facet f).timers t).count ≤ 1)
    (hstop : (s.facet f).sink (imgSinks (s.img f)) (0x2000 + 4 * t + 1) = false)
    (hload : (s.facet f).sink (imgSinks (s.img f)) (0x2000 + 4 * t + 2) = false) :
    ((s.facetTimerExpiry f t).facet f).expired.testBit t = true ∧
      Sparse.get {} ((s.facetTimerExpiry f t).facet f).timers t =
        (if (s.timerRec f t).testBit 59 then { count := bits (s.timerRec f t) 0 24, running := true } else { count := 0, running := false }) := by
  rw [State.img] at hstop hload
  have heq : s.facetTimerExpiry f t = s.updFacet f fun y => { y with
      timers := Sparse.set {} y.timers t ((({ Sparse.get {} (s.facet f).timers t with running := true } : HardTimer).tick
        (bits (s.timerRec f t) 0 24) ((s.timerRec f t).testBit 59)).1), expired := y.expired ||| 2 ^ t } := by
    unfold State.facetTimerExpiry
    rw [h]
    simp [hstop, hload, hrun, hcount, State.timerRec, State.img]
  rw [heq, State.facet_updFacet_same]
  refine ⟨by simp [Nat.testBit_or], ?_⟩
  refine (Sparse.get_set_same ..).trans ?_
  unfold HardTimer.tick
  rw [if_neg (by simp), if_pos hcount]
  cases (s.timerRec f t).testBit 59 <;> rfl

end Cycle

/-! # The pins of the edge fabric (R117, R118, R121) -/

/-- A write of every bit of a field whose value its clamp lets pass. -/
theorem Fld.stored_clamped {f : Fld} {m v old : Nat} (hacc : f.acc = .rw) (hw : 0 < f.width)
    (hm : bits m f.lsb f.width = 2 ^ f.width - 1) (hclamp : f.clampTo old (bits v f.lsb f.width) = bits v f.lsb f.width) :
    f.stored m v old = bits v f.lsb f.width := by
  have hpos : 2 ^ f.width - 1 ≠ 0 := by
    have := Nat.one_lt_two_pow (n := f.width) (by omega)
    omega
  have hmerged : (old &&& (2 ^ f.width - 1 - (2 ^ f.width - 1))) ||| (bits v f.lsb f.width &&& (2 ^ f.width - 1)) =
      bits v f.lsb f.width := by
    rw [Nat.sub_self, Nat.and_zero, Nat.zero_or, Nat.and_two_pow_sub_one_eq_mod, Nat.mod_eq_of_lt (bits_lt _ _ _)]
  simp only [Fld.stored, hacc, hm, hmerged, if_neg hpos, hclamp, Nat.mod_eq_of_lt (bits_lt v f.lsb f.width)]

section Pins

variable {s : State} {n v : Nat}

/-- The check of a pin shows whether it drives, and a conflict of its standard. -/
theorem State.get_checkPin {g : Fld} {k l : Nat} (hdrive : GPI_PIN.driving.apart g = true) (herr : GPI_ERR.std_conflict.parted g = true)
    (hk : k < g.c1) (hl : l < g.c2) (s : State) (n : Nat) : (s.checkPin n).get g k l = s.get g k l := by
  unfold State.checkPin
  dsimp only
  split
  · exact State.get_put_apart (h := hdrive) ..
  · rw [State.get_err_parted (f := GPI_ERR.std_conflict) herr (by decide) (by decide) hk hl]
    exact State.get_put_apart (h := hdrive) ..

/-- A field of a pin's register after a write of the whole register. -/
theorem State.get_wrPin (f : Fld) (hf : f.page = 22 ∧ f.base = 0 ∧ f.s1 = 4 ∧ f.s2 = 0 ∧ f.c1 = 96 ∧ f.c2 = 1) (halone : f.alone = true)
    (hnests : f.nests = true) (m : Nat) (hn : n < 96) : (s.wrReg 22 (4 * n) m v).get f n = f.stored m v (s.get f n) := by
  obtain ⟨hpage, hbase, h1, h2, hc1, hc2⟩ := hf
  exact State.get_wrReg_same _ _ _ hpage (by rw [Fld.off, hbase, h1, h2]; omega) halone hnests (by omega) (by omega)

/-- What the write of a pin's register leaves to the register's own rules. -/
theorem State.get_writePin {g : Fld} {k l : Nat} (hfield : [GPI_PIN.std, GPI_PIN.in_, GPI_PIN.driving].all (·.apart g) = true)
    (herr : GPI_ERR.std_conflict.parted g = true) (hk : k < g.c1) (hl : l < g.c2) (s : State) (n m v : Nat) :
    (s.writePin n m v).get g k l = (s.wrReg 22 (4 * n) m v).get g k l := by
  simp only [List.all_cons, List.all_nil, Bool.and_true, Bool.and_eq_true] at hfield
  obtain ⟨hstd, hin, hdrive⟩ := hfield
  unfold State.writePin
  dsimp only
  split
  · split
    · exact State.get_checkPin hdrive herr hk hl ..
    · exact State.get_put_apart (h := hstd) ..
  · rw [State.drivePin, State.get_put_apart (h := hdrive), State.get_checkPin hdrive herr hk hl]
    split
    · rw [State.get_put_apart (h := hin), State.get_put_apart (h := hstd)]
    · split
      · exact State.get_put_apart (h := hstd) ..
      · rfl

theorem State.writePin_shows (hn : n < 96) : (s.writePin n allBits v).get GPI_PIN.pull n = bits v 4 2 ∧
    (s.writePin n allBits v).get GPI_PIN.drive n = bits v 8 2 ∧ (s.writePin n allBits v).get GPI_PIN.facet n = s.get GPI_PIN.facet n := by
  rw [State.get_writePin (by decide) (by decide) hn (by decide), State.get_writePin (by decide) (by decide) hn (by decide),
    State.get_writePin (by decide) (by decide) hn (by decide), State.get_wrPin _ (by decide) (by decide +kernel) (by decide) _ hn,
    State.get_wrPin _ (by decide) (by decide +kernel) (by decide) _ hn, State.get_wrPin _ (by decide) (by decide +kernel) (by decide) _ hn]
  exact ⟨Fld.stored_all _ _ rfl (by decide) (by decide) rfl, Fld.stored_all _ _ rfl (by decide) (by decide) rfl, rfl⟩

/-- A differential standard of an even pin stands at its pair. -/
theorem State.writePin_pair (hn : n < 96) (heven : n % 2 = 0) (hv : bits v 0 2 = 1 ∨ bits v 0 2 = 2) :
    (s.writePin n allBits v).get GPI_PIN.std n = bits v 0 2 ∧ (s.writePin n allBits v).get GPI_PIN.std (n + 1) = bits v 0 2 := by
  obtain ⟨t, ht⟩ : ∃ t, t = s.wrReg 22 (4 * n) allBits v := ⟨_, rfl⟩
  have hstd : t.get GPI_PIN.std n = bits v 0 2 := by
    rw [ht, State.get_wrPin _ (by decide) (by decide +kernel) (by decide) _ hn]
    refine Fld.stored_clamped rfl (by decide) (by decide) (if_neg ?_)
    show ¬ 2 < bits v 0 2
    omega
  have heq : s.writePin n allBits v = ((((t.put GPI_PIN.std (bits v 0 2) (n + 1)).put GPI_PIN.in_ 0 (n + 1)).checkPin n).drivePin (n + 1)) := by
    unfold State.writePin
    rw [if_neg (by omega), ← ht, hstd]
    dsimp only
    rw [if_pos (by omega)]
  have hfit : bits v 0 2 < 2 ^ GPI_PIN.std.width := bits_lt v 0 2
  have hpair : n + 1 < GPI_PIN.std.c1 := by
    show _ < 96
    omega
  rw [heq, State.drivePin]
  refine ⟨?_, ?_⟩
  · rw [State.get_put_apart (h := by decide), State.get_checkPin (by decide) (by decide) hn (by decide), State.get_put_apart (h := by decide),
      State.get_put_ne (h := Fld.key_ne_of_first (f := GPI_PIN.std) (by decide) hpair hn (by decide) (by omega)), hstd]
  · rw [State.get_put_apart (h := by decide), State.get_checkPin (by decide) (by decide) hpair (by decide), State.get_put_apart (h := by decide),
      State.get_put_of_lt _ _ _ hfit]

theorem State.vddioChange_shows (s : State) (k : Fin 4) (code : Fin 5) : (s.vddioChange k.val code.val).get GPI_BANK_STATUS.vddio k.val = code.val ∧
    ((s.vddioChange k.val code.val).get GPI_ERR.vddio_change).testBit k.val = true := by
  obtain ⟨u, hu⟩ : ∃ u, u = (s.put GPI_BANK_STATUS.vddio code.val k.val).errBit GPI_ERR.vddio_change k.val 0 k.val := ⟨_, rfl⟩
  have hcheck {g : Fld} {l : Nat} (hdrive : GPI_PIN.driving.apart g = true) (herr : GPI_ERR.std_conflict.parted g = true)
      (hl : l < g.c1) (hj : 0 < g.c2) : (forN 24 u fun i s => s.checkPin (24 * k.val + i)).get g l = u.get g l := by
    generalize 24 * k.val = c
    generalize 24 = m
    induction m with
    | zero => rfl
    | succ m ih => exact (State.get_checkPin hdrive herr hl hj ..).trans ih
  have heq : s.vddioChange k.val code.val = forN 24 u fun i s => s.checkPin (24 * k.val + i) := by
    rw [hu]
    rfl
  have hfit : code.val < 2 ^ GPI_BANK_STATUS.vddio.width := by
    show _ < 8
    omega
  rw [heq, hcheck (by decide) (by decide) k.isLt (by decide), hcheck (by decide) (by decide) (by decide) (by decide), hu, State.errBit,
    State.get_report, State.get_report, State.get_put_parted (f := GPI_ERR.vddio_change) (by decide) (by decide) (by decide) k.isLt (by decide),
    State.get_put_of_lt _ _ _ hfit, State.get_put_same, Nat.testBit_mod_two_pow]
  refine ⟨rfl, ?_⟩
  have hwidth : k.val < GPI_ERR.vddio_change.width := k.isLt
  simp [Nat.testBit_or, hwidth]

end Pins

/-- Settles O19: a facet's cycle acts on the registers of its start, and the lane paths hold nothing of its logic. -/
theorem facetCycle : Obligations.FacetCycle := by
  unfold Obligations.FacetCycle
  refine ⟨fun s f pins us late strobe ha hst => does_live rfl ha ?run, fun s f pins us late strobe ha hst => does_live rfl ha (State.facetCycle_halt _ _ _ _ _ hst),
    fun s f t ha hst hrun hcount hstop hload => does_live rfl ha (State.facetTimerExpiry_run hst hrun hcount hstop hload),
    fun s n v ha => does_live rfl ha (State.writePin_shows n.isLt), fun s n v ha heven hv => does_live rfl ha (State.writePin_pair n.isLt heven hv),
    fun s k code ha => does_live rfl ha (s.vddioChange_shows k code)⟩
  case run =>
    obtain ⟨y, hy, h1, h2, h3, hactive, hcells, hexports⟩ := State.facetCycle_run f.val pins.toNat us late.toNat strobe hst
    have hx : ((s.facetCycle f.val pins.toNat us late.toNat strobe).facet f.val).cells = y.cells := (congrArg Facet.cells hy :)
    rw [hx]
    exact ⟨Eq.trans (congrArg Facet.exports hy :) hexports, Eq.trans (congrArg Facet.lines1 hy :) h1, Eq.trans (congrArg Facet.lines2 hy :) h2,
      Eq.trans (congrArg Facet.lines3 hy :) h3, Eq.trans (congrArg Facet.active hy :) hactive, hcells⟩

/-! # Storing a configuration, the vendor update and the retention scrub (R559, R578) -/

section Lists

variable {b : List (BitVec 8)}

/-- The images of a bundle are the bundle. -/
theorem flatten_bundleImages {fuel : Nat} {l : List (List (BitVec 8))} (h : bundleImages fuel b = some l) : l.flatten = b := by
  induction fuel generalizing b l with
  | zero =>
    cases b with
    | nil => cases h; rfl
    | cons x xs => cases h
  | succ fuel ih =>
    cases b with
    | nil => cases h; rfl
    | cons x xs =>
      simp only [bundleImages] at h
      split at h
      · cases h
      · obtain ⟨r, hr, rfl⟩ := Option.map_eq_some_iff.1 h
        rw [List.flatten_cons, ih hr, List.take_append_drop]

theorem bundleImages_of_code (h : bundleCode b = 0) : ∃ l, bundleImages b.length b = some l ∧ l.length ≤ 127 ∧ b.length ≤ 0x400000 - 0x2000 := by
  unfold bundleCode at h
  split at h
  · cases h
  · next l hl =>
    dsimp only at h
    split at h
    · cases h
    · next hn =>
      rw [not_or, not_or] at hn
      obtain ⟨-, hlen, -⟩ := hn
      split at h
      · next c _ hbad =>
        have hc := List.mem_of_mem_filter (hbad ▸ List.mem_cons_self : c ∈ ((l.map bundleCheck).filter (· != 0)))
        have hne : c ∈ (l.map bundleCheck).filter (· != 0) := hbad ▸ List.mem_cons_self
        rw [List.mem_filter] at hne
        exact absurd h (by simpa using hne.2)
      · split at h
        · cases h
        · exact ⟨l, hl, by omega, by omega⟩

/-- A directory takes its 4 KiB. -/
theorem length_bundleDirectory {l : List (List (BitVec 8))} (base : Nat) (h : l.length ≤ 127) : (bundleDirectory l base).length = 4096 := by
  unfold bundleDirectory
  extract_lets entry body head rest
  have hentry : ∀ n, (entry n).length = 32 := fun n => by simp [entry]
  have hbody : body.length = 32 * l.length := by simp [body, List.length_flatMap, hentry, Nat.mul_comm]
  have hrest : rest.length = 4080 := by simp [rest, hbody]; omega
  simp [head, hrest]

/-- Writing the generation leaves the length of an image. -/
theorem length_withGeneration {img : List (BitVec 8)} (g : Nat) (h : 52 ≤ img.length) : (withGeneration img g).length = img.length := by
  unfold withGeneration
  extract_lets b sum
  have hb : b.length = img.length := by simp [b]; omega
  simp [hb]
  omega

end Lists

section Area

variable (f : Flash)

/-- An image area and its directory after both have been written whole. -/
theorem Flash.writeArea_shows {l : List (List (BitVec 8))} {d n : Nat} (hd : d < 2) (hl : l.length ≤ 127)
    (hfit : l.flatten.length ≤ 0x400000 - 0x2000) (hn : l.flatten.length + 4096 ≤ n) :
    (f.writeArea d l n).read (imageArea d).1 l.flatten.length = l.flatten ∧
      (f.writeArea d l n).read (0x1000 * d) 4096 = bundleDirectory l (imageArea d).1 ∧
      ∀ a m, (a + m ≤ 0x1000 * d ∨ 0x1000 * d + 0x1000 ≤ a) → (a + m ≤ (imageArea d).1 ∨ (imageArea d).2 ≤ a) →
        (f.writeArea d l n).read a m = f.read a m := by
  obtain ⟨lo, hi, harea, hlo, hhi⟩ : ∃ lo hi, imageArea d = (lo, hi) ∧ 0x1000 * d + 0x1000 ≤ lo ∧ lo + (0x400000 - 0x2000) ≤ hi := by
    interval_cases d
    · exact ⟨_, _, rfl, by decide, by decide⟩
    · exact ⟨_, _, rfl, by decide, by decide⟩
  have hdir := length_bundleDirectory (l := l) lo hl
  obtain ⟨g, hg⟩ : ∃ g, g = (f.erase (0x1000 * d) 0x1000).erase lo (hi - lo) := ⟨_, rfl⟩
  have heq : f.writeArea d l n = (g.program lo l.flatten).program (0x1000 * d) (bundleDirectory l lo) := by
    unfold Flash.writeArea
    rw [harea, hg]
    dsimp only
    rw [List.take_of_length_le (by omega), List.take_of_length_le (by omega)]
  rw [heq, harea]
  refine ⟨?_, ?_, fun a m h1 h2 => ?_⟩
  · rw [Flash.read_program_out _ _ (by right; rw [hdir]; omega), Flash.read_program_same]
  · have hsame := Flash.read_program_same (g.program lo l.flatten) (0x1000 * d) (bundleDirectory l lo)
    rwa [hdir] at hsame
  · dsimp only at h2
    rw [Flash.read_program_out _ _ (by rw [hdir]; omega), Flash.read_program_out _ _ (by omega), hg, Flash.read_erase_out _ (by omega),
      Flash.read_erase_out _ (by omega)]

end Area

section Commands

variable {s : State}

/-- A bundle that passes its checks stands in both areas. -/
theorem Flash.writeAreas_shows (f : Flash) {b : List (BitVec 8)} (h : bundleCode b = 0) :
    (((f.writeArea 1 ((bundleImages b.length b).getD []) (2 * (b.length + 4096))).writeArea 0 ((bundleImages b.length b).getD [])
      (2 * (b.length + 4096) - (b.length + 4096))).read 0x2000 b.length = b ∧
    ((f.writeArea 1 ((bundleImages b.length b).getD []) (2 * (b.length + 4096))).writeArea 0 ((bundleImages b.length b).getD [])
      (2 * (b.length + 4096) - (b.length + 4096))).read 0x400000 b.length = b ∧
    ((f.writeArea 1 ((bundleImages b.length b).getD []) (2 * (b.length + 4096))).writeArea 0 ((bundleImages b.length b).getD [])
      (2 * (b.length + 4096) - (b.length + 4096))).read 0 4096 = bundleDirectory ((bundleImages b.length b).getD []) 0x2000 ∧
    ((f.writeArea 1 ((bundleImages b.length b).getD []) (2 * (b.length + 4096))).writeArea 0 ((bundleImages b.length b).getD [])
      (2 * (b.length + 4096) - (b.length + 4096))).read 0x1000 4096 = bundleDirectory ((bundleImages b.length b).getD []) 0x400000) := by
  obtain ⟨l, hl, hlen, hfit⟩ := bundleImages_of_code h
  have hflat := flatten_bundleImages hl
  have hsize : l.flatten.length = b.length := by rw [hflat]
  rw [hl, Option.getD_some]
  obtain ⟨himgB, hdirB, -⟩ := f.writeArea_shows (d := 1) (n := 2 * (b.length + 4096)) (by decide) hlen (by omega) (by omega)
  obtain ⟨himgA, hdirA, hout⟩ := (f.writeArea 1 l (2 * (b.length + 4096))).writeArea_shows (d := 0)
    (n := 2 * (b.length + 4096) - (b.length + 4096)) (by decide) hlen (by omega) (by omega)
  rw [hsize, hflat] at himgA himgB
  refine ⟨himgA, (hout 0x400000 b.length (.inr (by decide)) (.inr (by decide))).trans himgB, hdirA,
    (hout 0x1000 4096 (.inr (by decide)) (.inl (by decide))).trans hdirB⟩

/-- A vendor update that is refused. -/
theorem State.vendorUpdate_refused {b : List (BitVec 8)} (run : FlashRun) (hb : s.pwr.bundle = some b) (h : bundleCode b ≠ 0) (hc : bundleCode b < 256) :
    (s.vendorUpdate run).pwr.bundle = none ∧ (s.vendorUpdate run).flash = s.flash ∧
      (s.vendorUpdate run).get BOT_STORE_ERR.code = bundleCode b ∧ (s.vendorUpdate run).get BOT_ERR.store_fail = 1 := by
  have heq : s.vendorUpdate run = ((s.updPwr fun p => { p with bundle := none }).put BOT_STORE_ERR.code (bundleCode b)).err BOT_ERR.store_fail := by
    unfold State.vendorUpdate
    rw [hb]
    exact if_pos h
  rw [heq, State.get_err_apart (h := by decide), State.get_put_of_lt _ _ _ hc]
  exact ⟨rfl, rfl, rfl, State.get_err_same (h := rfl) ..⟩

theorem bundleCheck_lt (b : List (BitVec 8)) : bundleCheck b < 256 := by
  unfold bundleCheck
  dsimp only
  split
  · decide
  · split
    · split_ifs <;> decide
    · decide
    · decide

theorem bundleCode_lt (b : List (BitVec 8)) : bundleCode b < 256 := by
  unfold bundleCode
  split
  · decide
  · next l _ =>
    dsimp only
    split
    · decide
    · split
      · next c _ hbad =>
        have hc : c ∈ (l.map bundleCheck).filter (· != 0) := hbad ▸ List.mem_cons_self
        obtain ⟨b', -, rfl⟩ := List.mem_map.1 (List.mem_filter.1 hc).1
        exact bundleCheck_lt b'
      · split <;> decide

theorem State.vendorUpdate_done {b : List (BitVec 8)} (hb : s.pwr.bundle = some b) (h : bundleCode b = 0) :
    (s.vendorUpdate .done).pwr.bundle = none ∧ (s.vendorUpdate .done).get BOT_STORE_ERR.code = 0 ∧
      (s.vendorUpdate .done).flash = (s.flash.writeArea 1 ((bundleImages b.length b).getD []) (2 * (b.length + 4096))).writeArea 0
        ((bundleImages b.length b).getD []) (2 * (b.length + 4096) - (b.length + 4096)) := by
  obtain ⟨n, hn⟩ : ∃ n, n = b.length + 4096 := ⟨_, rfl⟩
  obtain ⟨f, hf⟩ : ∃ f, f = (s.flash.writeArea 1 ((bundleImages b.length b).getD []) (2 * n)).writeArea 0
    ((bundleImages b.length b).getD []) (2 * n - n) := ⟨_, rfl⟩
  have heq : s.vendorUpdate .done = ({ (s.updPwr fun p => { p with bundle := none }) with flash := f } : State).put BOT_STORE_ERR.code 0 := by
    unfold State.vendorUpdate
    rw [hb]
    simp only [landed, ← hn]
    rw [if_neg (by simp [h]), if_neg (by omega), hf]
    rfl
  rw [heq, ← hn, ← hf, State.get_put_same]
  exact ⟨rfl, rfl, rfl⟩

theorem State.vendorUpdate_code {b : List (BitVec 8)} (run : FlashRun) (hb : s.pwr.bundle = some b) (h : bundleCode b = 0) :
    (s.vendorUpdate run).pwr.bundle = none ∧ (s.vendorUpdate run).get BOT_STORE_ERR.code = (match run with | .done => 0 | .failed _ => 5) := by
  cases run with
  | done =>
    obtain ⟨hnone, hcode, -⟩ := State.vendorUpdate_done hb h
    exact ⟨hnone, hcode⟩
  | failed k =>
    unfold State.vendorUpdate
    rw [hb]
    dsimp only
    rw [if_neg (by simp [h]), State.get_err_apart (h := by decide), State.get_err_apart (h := by decide), State.get_put_same]
    exact ⟨rfl, rfl⟩

/-- What passes the check of a store is a whole image within its slot. -/
theorem State.storeCheck_length {img : List (BitVec 8)} (h : s.storeCheck img = 0) : 160 + leAt img 8 4 ≤ img.length ∧ img.length ≤ 0x800000 := by
  unfold State.storeCheck at h
  split at h
  · cases h
  · next hsize =>
    split at h
    · cases h
    · cases h
    · cases h
    · next h1 _ _ =>
      refine ⟨?_, by omega⟩
      by_contra hlt
      refine h1 ?_
      unfold imageCheck
      dsimp only
      rw [if_pos (by omega)]

/-- The slot that Dawn would not take, and the generation of the one that it takes. -/
def State.storeSlot (s : State) : Nat := match s.dawnSlot with | some k => 1 - k | none => 0

def State.storeGen (s : State) : Nat := match s.dawnSlot with | some k => s.slotGen k | none => 0

theorem State.dawnSlot_lt {k : Nat} (h : s.dawnSlot = some k) : k < 2 := by
  unfold State.dawnSlot at h
  split at h
  · rw [← Option.some.inj h]
    split
    · exact Nat.one_lt_two
    · exact Nat.zero_lt_two
  · rw [← Option.some.inj h]
    exact Nat.zero_lt_two
  · rw [← Option.some.inj h]
    exact Nat.one_lt_two
  · exact absurd h (by simp)

/-- The flash after an image has been stored whole. -/
theorem State.configStore_done {img : List (BitVec 8)} (himg : s.pwr.store = some img) (h : s.storeCheck img = 0) :
    (s.configStore .done).pwr.store = none ∧ (s.configStore .done).get BOT_STORE_ERR.code = 0 ∧
      (s.configStore .done).flash = (s.flash.erase (0x800000 + 0x800000 * s.storeSlot) 0x800000).program (0x800000 + 0x800000 * s.storeSlot)
        (withGeneration (img.take (160 + leAt img 8 4)) ((s.storeGen + 1) % 2 ^ 31)) := by
  obtain ⟨f, hf⟩ : ∃ f, f = (s.flash.erase (0x800000 + 0x800000 * s.storeSlot) 0x800000).program (0x800000 + 0x800000 * s.storeSlot)
    (withGeneration (img.take (160 + leAt img 8 4)) ((s.storeGen + 1) % 2 ^ 31)) := ⟨_, rfl⟩
  have heq : s.configStore .done = ({ ({ s with flash := f } : State) with pwr := { s.pwr with store := none } } : State).put BOT_STORE_ERR.code 0 := by
    rw [hf]
    unfold State.configStore State.storeSlot State.storeGen
    rw [himg]
    simp only [landed]
    rw [if_neg (not_not.2 h)]
    generalize s.dawnSlot = o
    cases o <;> rw [List.take_length]
  rw [heq, ← hf, State.get_put_same]
  exact ⟨rfl, rfl, rfl⟩

theorem State.configStore_stored {img : List (BitVec 8)} (himg : s.pwr.store = some img) (h : s.storeCheck img = 0) :
    (s.configStore .done).flash.read (0x800000 + 0x800000 * s.storeSlot) (160 + leAt img 8 4) =
        withGeneration (img.take (160 + leAt img 8 4)) ((s.storeGen + 1) % 2 ^ 31) ∧
      ∀ k, s.dawnSlot = some k → ∀ a, 0x800000 + 0x800000 * k ≤ a → a < 0x1000000 + 0x800000 * k →
        Sparse.get flashErased (s.configStore .done).flash.bytes a = Sparse.get flashErased s.flash.bytes a := by
  obtain ⟨-, -, hflash⟩ := State.configStore_done himg h
  obtain ⟨hlen, hmax⟩ := State.storeCheck_length h
  have htake : (img.take (160 + leAt img 8 4)).length = 160 + leAt img 8 4 := by rw [List.length_take]; omega
  have hdata := length_withGeneration (img := img.take (160 + leAt img 8 4)) ((s.storeGen + 1) % 2 ^ 31) (by omega)
  rw [hflash]
  refine ⟨?_, fun k hk a hlo hhi => ?_⟩
  · have hsame := Flash.read_program_same (s.flash.erase (0x800000 + 0x800000 * s.storeSlot) 0x800000) (0x800000 + 0x800000 * s.storeSlot)
      (withGeneration (img.take (160 + leAt img 8 4)) ((s.storeGen + 1) % 2 ^ 31))
    rwa [hdata, htake] at hsame
  · have hk2 := State.dawnSlot_lt hk
    have hslot : s.storeSlot = 1 - k := by rw [State.storeSlot, hk]
    rw [hslot]
    exact (Flash.byteAt_program_out _ _ (by rw [hdata, htake]; omega)).trans (Flash.byteAt_erase_out _ (by omega))

/-- A store that is refused leaves the flash. -/
theorem State.storeFails_shows (s : State) {c : Nat} (hc : c < 256) : (s.storeFails c).pwr.store = none ∧ (s.storeFails c).flash = s.flash ∧
    (s.storeFails c).get BOT_STORE_ERR.code = c ∧ (s.storeFails c).get BOT_ERR.store_fail = 1 := by
  refine ⟨rfl, rfl, ?_, State.get_err_same (h := rfl) ..⟩
  rw [State.storeFails, State.get_err_apart (h := by decide), State.get_put_of_lt _ _ _ hc]

theorem State.storeCheck_lt (s : State) (img : List (BitVec 8)) : s.storeCheck img < 256 := by
  unfold State.storeCheck
  split
  · decide
  · split
    · decide
    · decide
    · decide
    · dsimp only
      split
      · decide
      · split <;> decide

theorem State.configStore_refused {img : List (BitVec 8)} (run : FlashRun) (himg : s.pwr.store = some img) (h : s.storeCheck img ≠ 0) :
    s.configStore run = s.storeFails (s.storeCheck img) := by
  unfold State.configStore
  rw [himg]
  exact if_pos h

theorem State.storeAbort_of_some (h : s.pwr.store.isSome = true) : s.storeAbort = s.storeFails 6 := if_pos h

/-- What the scrub of a corrected word shows. -/
theorem State.retentionScrub_corrected (s : State) (region : Nat) : (s.retentionScrub region .corrected).pwr = s.pwr ∧
    (s.retentionScrub region .corrected).get PWR_ERR.ret_corrected = 1 ∧
    (s.retentionScrub region .corrected).get PWR_RET_CORR_CNT.count = min (2 ^ 32 - 1) (s.get PWR_RET_CORR_CNT.count + 1) := by
  obtain ⟨csr, counts, hinc⟩ := s.inc_parts PWR_RET_CORR_CNT.count 0 0
  refine ⟨?_, State.get_err_same (h := rfl) .., ?_⟩
  · show (s.inc PWR_RET_CORR_CNT.count).pwr = _
    rw [hinc]
  · rw [State.retentionScrub, State.pwrErr, State.get_err_apart (h := by decide), State.get_inc_rc _ _ _ rfl]
    rfl

theorem State.retentionScrub_uncorrectable (s : State) (region : Nat) : (s.retentionScrub region .uncorrectable).pwr.invalid.testBit region = true ∧
    (s.retentionScrub region .uncorrectable).get PWR_ERR.ret_uncorrectable = 1 ∧
    (s.retentionScrub region .uncorrectable).get PWR_RET_UNCORR_CNT.count = min (2 ^ 32 - 1) (s.get PWR_RET_UNCORR_CNT.count + 1) := by
  obtain ⟨u, hu⟩ : ∃ u, u = (s.inc PWR_RET_UNCORR_CNT.count).pwrErr PWR_ERR.ret_uncorrectable := ⟨_, rfl⟩
  have heq : s.retentionScrub region .uncorrectable = u.updPwr fun p => { p with invalid := p.invalid ||| 2 ^ region } := by rw [hu]; rfl
  rw [heq, State.get_updPwr, State.get_updPwr]
  refine ⟨?_, ?_, ?_⟩
  · show (u.pwr.invalid ||| 2 ^ region).testBit region = true
    simp [Nat.testBit_or]
  · rw [hu]
    exact State.get_err_same (h := rfl) ..
  · rw [hu, State.pwrErr, State.get_err_apart (h := by decide), State.get_inc_rc _ _ _ rfl]
    rfl

end Commands

/-! # Dawn (R568, R569, R575) -/

section Images

variable {s t : State}

theorem Flash.read_of_bytes {f g : Flash} (h : f.bytes = g.bytes) (a n : Nat) : f.read a n = g.read a n :=
  Flash.read_congr fun k _ _ => congrArg (Sparse.get flashErased · k) h

theorem State.directory_congr (h : s.flash.bytes = t.flash.bytes) (d : Nat) : s.directory d = t.directory d :=
  congrArg readDirectory (Flash.read_of_bytes h ..)

theorem State.dirEntry_congr (h : s.flash.bytes = t.flash.bytes) (d type index : Nat) : s.dirEntry d type index = t.dirEntry d type index := by
  rw [State.dirEntry, State.dirEntry, State.directory_congr h]

theorem State.imageIn_congr (h : s.flash.bytes = t.flash.bytes) (d type index : Nat) : s.imageIn d type index = t.imageIn d type index := by
  simp only [State.imageIn, State.directory_congr h, Flash.read_of_bytes h]

/-- The image where its check finds it valid. -/
def validImage : Option (List (BitVec 8) × Nat) → Option (List (BitVec 8))
  | some (b, 0) => some b
  | _ => none

theorem validImage_invalid {b : List (BitVec 8)} {c : Nat} (h : c = 0 → False) : validImage (some (b, c)) = none := by
  unfold validImage
  split
  · next heq => exact (h (congrArg Prod.snd (Option.some.inj heq))).elim
  · rfl

theorem State.bootImage_image (s : State) (mode type index : Nat) : (s.bootImage mode type index).2 =
    if mode = 1 then validImage (s.imageIn 1 type index) else (validImage (s.imageIn 0 type index)).or (validImage (s.imageIn 1 type index)) := by
  have hB : ∀ t : State, t.flash = s.flash → (match t.imageIn 1 type index with
      | some (b, 0) => (t, some b)
      | some (_, c) => (t.imageBad c, none)
      | none => (t, none)).2 = validImage (s.imageIn 1 type index) := fun t ht => by
    rw [← State.imageIn_congr (congrArg Flash.bytes ht)]
    split
    · next h => rw [h]; rfl
    · next hc h => rw [h, validImage_invalid hc]
    · next h => rw [h]; rfl
  have hbad : ∀ c, (s.imageBad c).flash = s.flash := fun c => by
    unfold State.imageBad
    split <;> rfl
  unfold State.bootImage
  extract_lets fromB
  split
  · exact hB s rfl
  · split
    · next h => rw [h]; rfl
    · next c hc h =>
      rw [h, validImage_invalid hc]
      exact hB _ (hbad c)
    · next h =>
      rw [h]
      exact hB _ rfl

theorem State.bootImage_congr (h : s.flash.bytes = t.flash.bytes) (mode type index : Nat) :
    (s.bootImage mode type index).2 = (t.bootImage mode type index).2 := by
  rw [State.bootImage_image, State.bootImage_image, State.imageIn_congr h, State.imageIn_congr h]

theorem State.flash_bootImage (s : State) (mode type index : Nat) : (s.bootImage mode type index).1.flash = s.flash :=
  (State.bootImage_only Only.rfl Covers.refl).of.flash (by decide)

/-- Two rounds of the search for the cores' firmware that look at the same flash and have found the same. -/
def SameImages (p q : State × List (Option (List (BitVec 8)))) : Prop := p.1.flash.bytes = q.1.flash.bytes ∧ p.2 = q.2

/-- The images of the cores are looked up in the bytes of the flash alone. -/
theorem State.coreImages_congr (h : s.flash.bytes = t.flash.bytes) (mode : Nat) : (s.coreImages mode).2 = (t.coreImages mode).2 := by
  have hkey : ∀ c, ((s.dirEntry 0 2 c, s.dirEntry 1 2 c) : Option DirEntry × Option DirEntry) = (t.dirEntry 0 2 c, t.dirEntry 1 2 c) := fun c => by
    rw [State.dirEntry_congr h, State.dirEntry_congr h]
  unfold State.coreImages
  simp only [hkey]
  refine And.right (show SameImages _ _ from ?_)
  refine List.foldl_rel (r := SameImages) ⟨h, rfl⟩ fun c _ p q hpq => ?_
  obtain ⟨u, l⟩ := p
  obtain ⟨v, m⟩ := q
  obtain ⟨hb, rfl⟩ : u.flash.bytes = v.flash.bytes ∧ l = m := hpq
  dsimp only
  split
  · exact ⟨hb, rfl⟩
  · exact ⟨by rw [State.flash_bootImage, State.flash_bootImage, hb], by rw [State.bootImage_congr hb]⟩

end Images

section Keeps

variable {s t u : State}

/-- What the later steps of Dawn keep: the error shown, and that no value waits for Initialisation. -/
structure DawnKeeps (s t : State) : Prop where
  err : t.get BOT_STATUS.err = s.get BOT_STATUS.err
  defaults : s.dic.defaults = [] → t.dic.defaults = []

namespace DawnKeeps

theorem refl : DawnKeeps s s := ⟨rfl, id⟩

theorem trans (h : DawnKeeps s t) (k : DawnKeeps t u) : DawnKeeps s u := ⟨k.err.trans h.err, fun e => k.defaults (h.defaults e)⟩

theorem of_dic (herr : t.get BOT_STATUS.err = s.get BOT_STATUS.err) (hdic : t.dic = s.dic) : DawnKeeps s t :=
  ⟨herr, fun h => hdic ▸ h⟩

theorem of_only {A : Nat} (hA : A.testBit 19 = false ∧ A.testBit 54 = false) (h : Only A s t) : DawnKeeps s t :=
  of_dic (h.get (f := BOT_STATUS.err) ⟨by decide, hA.1⟩ _ _) (h.dic hA.2)

theorem ite {p : Prop} [Decidable p] (ht : DawnKeeps s t) (hu : DawnKeeps s u) : DawnKeeps s (if p then t else u) := by
  split <;> assumption

theorem put {f : Fld} (h : DawnKeeps s t) (hf : f.apart BOT_STATUS.err = true) (v i j : Nat) : DawnKeeps s (t.put f v i j) :=
  h.trans (of_dic (State.get_put_apart (h := hf) ..) rfl)

end DawnKeeps

theorem State.bootImage_keeps (s : State) (mode type index : Nat) : DawnKeeps s (s.bootImage mode type index).1 :=
  .of_dic (s.bootImage_touches _ _ _ _ (by decide) _ _) ((State.bootImage_only Only.rfl Covers.refl).of.dic (by decide))

theorem State.loadFirmware_keeps (s : State) (c : Nat) (img : List (BitVec 8)) : DawnKeeps s (s.loadFirmware c img) := by
  refine .of_dic ?_ ((State.loadFirmware_only Only.rfl Covers.refl).dic (by decide))
  have hmem : ∀ a bs, (s.writeMem a bs).get BOT_STATUS.err = s.get BOT_STATUS.err := fun _ _ => by
    rw [State.get, State.get, State.writeMem, State.csr_setBytes]
  unfold State.loadFirmware
  dsimp only
  rw [State.get_put_apart (h := by decide)]
  split
  · rw [State.get_put_apart (h := by decide), hmem]
  · rw [State.get_put_apart (h := by decide), hmem]

/-- Firmware loaded and its thread started. -/
theorem State.started_keeps (s : State) (c n : Nat) (img : List (BitVec 8)) : DawnKeeps s ((s.loadFirmware c img).startThread n) :=
  (s.loadFirmware_keeps c img).trans (.of_only (A := 0x18022000000040C0) (by decide) (State.startThread_only Only.rfl Covers.refl))

theorem State.dawnKeeper_keeps (s : State) (img : List (BitVec 8)) : DawnKeeps s (s.dawnKeeper img) :=
  (s.loadFirmware_keeps 4 img).trans
    (.trans (t := (s.loadFirmware 4 img).updPwr fun p => { p with kickAt := s.now }) (.of_dic rfl rfl)
      (.of_only (A := 0x18022000000040C0) (by decide) (State.startThread_only Only.rfl Covers.refl)))

theorem State.coreImages_keeps (s : State) (mode : Nat) : DawnKeeps s (s.coreImages mode).1 := by
  unfold State.coreImages
  extract_lets key
  refine foldl_keeps (P := fun p : State × List (Option (List (BitVec 8))) => DawnKeeps s p.1) .refl fun p c _ hp => ?_
  obtain ⟨u, l⟩ := p
  dsimp only
  split
  · exact hp
  · exact hp.trans (u.bootImage_keeps _ _ _)

theorem State.dawnErr_shows (s : State) {e : Nat} (he : e < 32) :
    (s.dawnErr e).get BOT_STATUS.err = (if s.get BOT_STATUS.err = 0 ∨ e < s.get BOT_STATUS.err then e else s.get BOT_STATUS.err) ∧
      (s.dawnErr e).dic = s.dic := by
  unfold State.dawnErr
  dsimp only
  split
  · exact ⟨State.get_put_of_lt _ _ _ he, rfl⟩
  · exact ⟨rfl, rfl⟩

/-- A stack that fails shows error 9 at most. -/
theorem State.dawnStack_shows (k : Nat) (ok : Bool) (h : s.get BOT_STATUS.err = 0 ∨ s.get BOT_STATUS.err = 9) :
    ((s.dawnStack k ok).get BOT_STATUS.err = 0 ∨ (s.dawnStack k ok).get BOT_STATUS.err = 9) ∧ (s.dawnStack k ok).dic = s.dic := by
  have hinit : Only 0x200 s (s.putStack k 1) := State.putStack_only Only.rfl Covers.refl
  have herr := hinit.get (f := BOT_STATUS.err) (by decide) 0 0
  unfold State.dawnStack
  dsimp only
  split
  · have hdone : Only 0x4000000200 s ((s.putStack k 1).hbmInitComplete k) := State.hbmInitComplete_only (hinit.mono (by decide)) Covers.refl
    rw [hdone.get (by decide)]
    exact ⟨h, hdone.dic (by decide)⟩
  · have hfail : Only 0x800000000000200 s ((s.putStack k 1).hbmInitFail k) := State.hbmInitFail_only (hinit.mono (by decide)) Covers.refl
    obtain ⟨hshow, hdic⟩ := State.dawnErr_shows ((s.putStack k 1).hbmInitFail k) (e := 9) (by decide)
    rw [hshow, hdic, hfail.get (by decide)]
    refine ⟨?_, hfail.dic (by decide)⟩
    rcases h with h | h <;> rw [h] <;> decide

theorem State.dawnDomains_shows (ok0 ok1 : Bool) (h : s.get BOT_STATUS.err = 0) :
    ((s.dawnDomains ok0 ok1).get BOT_STATUS.err = 0 ∨ (s.dawnDomains ok0 ok1).get BOT_STATUS.err = 9) ∧ (s.dawnDomains ok0 ok1).dic = s.dic := by
  have hbanks : ∀ n, (forN n s fun b s => s.put SPD_BANK_STATUS.state 2 b).get BOT_STATUS.err = s.get BOT_STATUS.err ∧
      (forN n s fun b s => s.put SPD_BANK_STATUS.state 2 b).dic = s.dic := fun n => by
    induction n with
    | zero => exact ⟨rfl, rfl⟩
    | succ n ih => exact ⟨(State.get_put_apart (h := by decide) ..).trans ih.1, ih.2⟩
  obtain ⟨herr, hdic⟩ := hbanks 8
  unfold State.dawnDomains
  extract_lets u v
  have hv : v.get BOT_STATUS.err = 0 := (State.get_put_apart (h := by decide) ..).trans (herr.trans h)
  obtain ⟨h0, hdic0⟩ := v.dawnStack_shows 0 ok0 (.inl hv)
  obtain ⟨h1, hdic1⟩ := State.dawnStack_shows 1 ok1 h0
  exact ⟨h1, hdic1.trans (hdic0.trans hdic)⟩

/-- Without firmware for every core error 6 stands; else what stood before. -/
theorem State.dawnCores_shows (s : State) (mode : Nat) (h : s.get BOT_STATUS.err = 0 ∨ s.get BOT_STATUS.err = 9) :
    (s.dawnCores mode).get BOT_STATUS.err = (if (s.coreImages mode).2.any (fun i => i.isNone) = true then 6 else s.get BOT_STATUS.err) ∧
      (s.dic.defaults = [] → (s.dawnCores mode).dic.defaults = []) := by
  have hkeep := s.coreImages_keeps mode
  unfold State.dawnCores
  revert hkeep
  generalize s.coreImages mode = p
  rintro ⟨herr, hdef⟩
  obtain ⟨u, l⟩ := p
  dsimp only at herr hdef ⊢
  split
  · obtain ⟨hshow, hdic⟩ := u.dawnErr_shows (e := 6) (by decide)
    rw [hshow, hdic, herr]
    refine ⟨?_, hdef⟩
    rcases h with h | h <;> rw [h] <;> decide
  · have hcore : ∀ n, DawnKeeps u (forN n u fun c s => (s.loadFirmware c ((l.getD c none).getD [])).startThread (4 * c)) := fun n => by
      induction n with
      | zero => exact .refl
      | succ n ih => exact ih.trans (State.started_keeps ..)
    obtain ⟨herr', hdef'⟩ := (hcore 4).put (f := BOT_STATUS.step) (by decide) 5 0 0
    exact ⟨herr'.trans herr, fun h => hdef' (hdef h)⟩

/-- An error that stands is not replaced by a higher one. -/
theorem State.dawnErr_of_lower {e : Nat} (h : s.get BOT_STATUS.err ≠ 0) (he : s.get BOT_STATUS.err ≤ e) : s.dawnErr e = s :=
  if_neg (not_or.2 ⟨h, Nat.not_lt.2 he⟩)

theorem State.setPatch_keeps (s : State) (p : List (BitVec 8)) (v : Nat) : DawnKeeps s ((s.setPatch p).put BOT_PATCH_VER.ver v) :=
  (.of_dic rfl rfl : DawnKeeps s (s.setPatch p)).put (by decide) _ _ _

theorem State.loadPatch_keeps (s : State) (img : List (BitVec 8)) : DawnKeeps s (s.loadPatch img).1 := by
  have hfail : DawnKeeps s (((s.setPatch []).put BOT_PATCH_VER.ver 0).err BOT_ERR.patch_fail) :=
    (s.setPatch_keeps [] 0).trans (.of_dic (State.get_err_apart (h := by decide) ..) rfl)
  unfold State.loadPatch
  split
  · split
    · exact s.setPatch_keeps ..
    · exact hfail
  · exact hfail

theorem State.dawnPatch_defaults (mode : Nat) (h : s.dic.defaults = []) : (s.dawnPatch mode).dic.defaults = [] := by
  have hpatch : Only 0x800200000080000 s (s.dawnPatch mode) := State.dawnPatch_only Only.rfl Covers.refl
  rw [hpatch.dic (by decide), h]

/-- Where firmware is missing, the patch leaves that error. -/
theorem State.dawnPatch_err (mode : Nat) (h : s.get BOT_STATUS.err = 6) : (s.dawnPatch mode).get BOT_STATUS.err = 6 := by
  have hkeep := s.bootImage_keeps mode 3 0
  have hlow : ∀ u : State, u.get BOT_STATUS.err = 6 → u.dawnErr 7 = u := fun u hu => State.dawnErr_of_lower (by omega) (by omega)
  unfold State.dawnPatch
  revert hkeep
  generalize s.bootImage mode 3 0 = p
  intro hkeep
  obtain ⟨u, o⟩ := p
  have hu : u.get BOT_STATUS.err = 6 := hkeep.err.trans h
  cases o with
  | none =>
    have hnone := (u.setPatch_keeps [] 0).err.trans hu
    dsimp only
    rw [hlow _ hnone, hnone]
  | some img =>
    have hload := (u.loadPatch_keeps img).err.trans hu
    revert hload
    dsimp only
    generalize u.loadPatch img = q
    intro hload
    split
    · exact hload
    · rw [hlow _ hload]; exact hload

theorem State.dic_publishJournal (s : State) : s.publishJournal.dic = s.dic := by
  unfold State.publishJournal
  split <;> rfl

theorem State.reloadJournal_keeps (s : State) : DawnKeeps s s.reloadJournal := by
  have honly : Only 0x40000000008000 s s.reloadJournal := State.reloadJournal_only Only.rfl Covers.refl
  refine ⟨honly.get (by decide) _ _, fun h => ?_⟩
  unfold State.reloadJournal
  extract_lets all u v
  have hv : v.dic = u.dic := by
    show (match all.getLast? with
      | some l => (u.put DIC_JNL_NEXT.seq (l.seq + 1)).put DIC_JNL_MIRROR.seq (l.seq + 1)
      | none => u).dic = u.dic
    split <;> rfl
  rw [State.dic_publishJournal, hv]
  exact h

theorem State.emptyStore_keeps (s : State) : DawnKeeps s s.emptyStore :=
  ⟨State.get_of_keep_same (s := s) (p := fun k => !clientKey k) rfl (by rw [clientKey_out (by decide)]; rfl), fun _ => rfl⟩

/-- Step D7 ends at step 7 and keeps the error and what waits for Initialisation. -/
theorem State.dawnRetained_shows (s : State) : DawnKeeps s s.dawnRetained ∧ s.dawnRetained.get BOT_STATUS.step = 7 := by
  unfold State.dawnRetained
  extract_lets r off s1 s2 s3 s4 s5 s6 s7 s8 s9 n s10
  have h1 : DawnKeeps s s1 := .ite s.reloadJournal_keeps .refl
  have h2 : DawnKeeps s s2 := .ite (h1.trans (.of_only (A := 0x20000000020000) (by decide) (State.reloadLedger_only Only.rfl Covers.refl))) h1
  have h3 : DawnKeeps s s3 := .ite (h2.trans (.of_only (A := 0x20000000000000) (by decide) (State.ledgerWake_only Only.rfl Covers.refl))) h2
  have h4 : DawnKeeps s s4 := .ite (h3.trans (.of_only (A := 0x410000000000000) (by decide) (State.reloadHistory_only Only.rfl Covers.refl))) h3
  have h5 : DawnKeeps s s5 := .ite (h4.trans (.of_only (A := 0x800000000100000) (by decide) (State.emptyQueue_only Only.rfl Covers.refl))) h4
  have h6 : DawnKeeps s s6 := .ite (h5.trans s5.emptyStore_keeps) h5
  have h7 : DawnKeeps s s7 := .ite h6 (h6.put (by decide) _ _ _)
  have h8 : DawnKeeps s s8 := h7.put (by decide) _ _ _
  have h10 : DawnKeeps s (s10.put BOT_DAWN_CNT.count n) := (h8.trans (.of_dic (t := s10) rfl rfl)).put (by decide) _ _ _
  have hboot : Only 0x8000 _ (s10.put BOT_DAWN_CNT.count n).bootFields := State.bootFields_only Only.rfl Covers.refl
  exact ⟨(h10.trans (.of_only (by decide) hboot)).put (by decide) _ _ _, State.get_put_of_lt _ _ _ (by decide)⟩

/-- With no value to apply Initialisation leaves the boot page. -/
theorem State.initialisationDone_touches (h : s.dic.defaults = []) : Touches [DIC_STATUS.nmt_hb] s s.initialisationDone := by
  unfold State.initialisationDone
  rw [State.initObjects_none h]
  exact .ite (.put (.of_csr .refl rfl) (by decide) _ _ _) .refl

/-- Step D10 with no value to apply. -/
theorem State.dawnDone_shows (h : s.dic.defaults = []) : s.dawnDone.get BOT_STATUS.step = 10 ∧ s.dawnDone.get BOT_STATUS.dawn_done = 1 := by
  unfold State.dawnDone
  extract_lets u₀ u
  have hidle : Only 0x201000000080 u u.glintsIdle.glintTrim :=
    State.glintTrim_only (State.glintsIdle_only Only.rfl (by decide)) (by decide)
  have hinit := u.glintsIdle.glintTrim.initialisationDone_touches ((congrArg Dic.defaults (hidle.dic (by decide))).trans h)
  have htrig : Only 0x10000000010000 _ (u.glintsIdle.glintTrim.initialisationDone.tarTrigger 8) := State.tarTrigger_only Only.rfl Covers.refl
  rw [htrig.get (by decide), htrig.get (by decide), hinit _ (by decide), hinit _ (by decide), hidle.get (by decide), hidle.get (by decide)]
  show ((s.dawnStep 10).put BOT_STATUS.dawn_done 1).get BOT_STATUS.step = 10 ∧ ((s.dawnStep 10).put BOT_STATUS.dawn_done 1).get BOT_STATUS.dawn_done = 1
  rw [State.get_put_apart (h := by decide)]
  exact ⟨State.get_put_of_lt _ _ _ (by decide), State.get_put_same ..⟩

theorem State.dawnPlan_defaults (h : s.dic.defaults = []) : (s.dawnPlan.put BOT_CFG_VER.ver 0).dic.defaults = [] := by
  have hplan : Only 0x8101000000900E0 s s.dawnPlan := State.dawnPlan_only Only.rfl Covers.refl
  rw [State.put_dic, hplan.dic (by decide), h]

/-- The rest of Dawn in mode 2: step D10, or step D7 with error 6 where firmware of a core is missing. -/
theorem State.dawnRest_shows (ok0 ok1 : Bool) (herr : s.get BOT_STATUS.err = 0) (h : s.dic.defaults = []) :
    if (s.coreImages 2).2.any (fun i => i.isNone) = true then
      (s.dawnRest 2 ok0 ok1).get BOT_STATUS.step = 7 ∧ (s.dawnRest 2 ok0 ok1).get BOT_STATUS.err = 6
    else (s.dawnRest 2 ok0 ok1).get BOT_STATUS.step = 10 ∧ (s.dawnRest 2 ok0 ok1).get BOT_STATUS.dawn_done = 1 := by
  obtain ⟨u, hu⟩ : ∃ u, u = (s.dawnDomains ok0 ok1).dawnStep 4 := ⟨_, rfl⟩
  have hflash : u.flash.bytes = s.flash.bytes := by
    have hdom : Only 0x800004000081200 s (s.dawnDomains ok0 ok1) := State.dawnDomains_only Only.rfl Covers.refl
    rw [hu]
    exact congrArg Flash.bytes (hdom.flash (by decide))
  obtain ⟨hdom, hdic⟩ := s.dawnDomains_shows ok0 ok1 herr
  have hstep : u.get BOT_STATUS.err = (s.dawnDomains ok0 ok1).get BOT_STATUS.err := by
    rw [hu]; exact State.get_put_apart (h := by decide) ..
  rw [← hstep] at hdom
  have hnone : u.dic.defaults = [] := by rw [hu]; exact (congrArg Dic.defaults hdic).trans h
  obtain ⟨hcores, hcdef⟩ := u.dawnCores_shows 2 hdom
  obtain ⟨v, hv⟩ : ∃ v, v = u.dawnCores 2 := ⟨_, rfl⟩
  obtain ⟨w, hw⟩ : ∃ w, w = ((v.dawnPatch 2).dawnStep 6).dawnRetained.rightsReset := ⟨_, rfl⟩
  have heq : s.dawnRest 2 ok0 ok1 = if ¬ (v.get BOT_STATUS.err != 6) = true then w.initialisationDone else (w.dawnPlan.put BOT_CFG_VER.ver 0).dawnDone := by
    rw [hw, hv, hu]; rfl
  have hwkeep : (v.dawnPatch 2).dic.defaults = [] → w.dic.defaults = [] ∧ w.get BOT_STATUS.step = 7 ∧
      w.get BOT_STATUS.err = (v.dawnPatch 2).get BOT_STATUS.err := fun hd => by
    obtain ⟨hkeep, h7⟩ := ((v.dawnPatch 2).dawnStep 6).dawnRetained_shows
    have hrights : Only 0x8000 _ ((v.dawnPatch 2).dawnStep 6).dawnRetained.rightsReset := State.rightsReset_only Only.rfl Covers.refl
    rw [hw, hrights.dic (by decide), hrights.get (by decide), hrights.get (by decide), hkeep.err]
    exact ⟨hkeep.defaults hd, h7, State.get_put_apart (h := by decide) ..⟩
  rw [← hv] at hcores hcdef
  obtain ⟨hwdef, hw7, hwerr⟩ := hwkeep (State.dawnPatch_defaults 2 (hcdef hnone))
  rw [heq, State.coreImages_congr hflash.symm]
  split
  · next hmiss =>
    rw [if_pos hmiss] at hcores
    have hinit := w.initialisationDone_touches hwdef
    rw [if_pos (by rw [hcores]; decide), hinit _ (by decide), hinit _ (by decide), hwerr]
    exact ⟨hw7, State.dawnPatch_err 2 hcores⟩
  · next hall =>
    rw [if_neg hall] at hcores
    rw [if_neg (by rw [hcores]; rcases hdom with h | h <;> rw [h] <;> decide)]
    exact State.dawnDone_shows (State.dawnPlan_defaults hwdef)

end Keeps

/-! # Dawn in one command, and the nine commands that complete (R568, R569, R575, R578) -/

section Dawn

variable {s : State}

/-- Dawn with what it shows first: no Dawn is due any more, no error, the mailbox READY and the flash found by its SFDP table. -/
def State.dawnStart (s : State) (t mode : Nat) (flash : Option Sfdp) : State :=
  let s := (((s.at t).updPwr fun p => { p with dawnReady := false }).put BOT_STATUS.bootmode mode).put BOT_STATUS.err 0
  { s.put SPD_MBX_STATUS.state 2 with flash := { s.flash with sfdp := flash } }

/-- What Dawn goes on with once it has found the flash. -/
def State.dawnFound (s : State) (us mode : Nat) (ok0 ok1 : Bool) : State :=
  match (s.dawnStep 2).bootImage mode 1 0 with
  | (s, none) => s.dawnStop 5
  | (s, some img) => (((s.dawnKeeper img).dawnStep 3).dawnRest mode ok0 ok1).put BOT_DAWN_US.us us

theorem State.dawn_of_ready (t us mode : Nat) (flash : Option Sfdp) (ok0 ok1 : Bool) (h : s.pwr.dawnReady = true) :
    s.dawn t us mode flash ok0 ok1 = if mode = 4 then (s.dawnStart t mode flash).pinsGated.updPwr fun p => { p with held := true }
      else if mode = 3 then (s.dawnStart t mode flash).dawnStop 0
      else if 5 ≤ mode then (s.dawnStart t mode flash).dawnStop 1
      else if (s.dawnStart t mode flash).flashFound.2 ≠ 0 then (s.dawnStart t mode flash).flashFound.1.dawnStop (s.dawnStart t mode flash).flashFound.2
      else (s.dawnStart t mode flash).flashFound.1.dawnFound us mode ok0 ok1 :=
  if_neg (not_not.2 h)

theorem State.dawnStart_shows (s : State) (t : Nat) {mode : Nat} (flash : Option Sfdp) (hm : mode < 8) :
    (s.dawnStart t mode flash).pwr.dawnReady = false ∧
    (s.dawnStart t mode flash).get BOT_STATUS.err = 0 ∧ (s.dawnStart t mode flash).get BOT_STATUS.bootmode = mode ∧ (s.dawnStart t mode flash).now = max s.now t ∧
    (s.dawnStart t mode flash).dic = s.dic ∧ (s.dawnStart t mode flash).flash.bytes = s.flash.bytes ∧ (s.dawnStart t mode flash).flash.sfdp = flash := by
  obtain ⟨u, hu⟩ : ∃ u, u = ((s.at t).updPwr fun p => { p with dawnReady := false }).put BOT_STATUS.bootmode mode := ⟨_, rfl⟩
  have hget : ∀ f i j, (s.dawnStart t mode flash).get f i j = ((u.put BOT_STATUS.err 0).put SPD_MBX_STATUS.state 2).get f i j := fun f i j => by
    rw [hu]; rfl
  refine ⟨rfl, ?_, ?_, rfl, rfl, rfl, rfl⟩
  · rw [hget, State.get_put_apart (h := by decide), State.get_put_same]
    rfl
  · rw [hget, State.get_put_apart (h := by decide), State.get_put_apart (h := by decide), hu, State.get_put_of_lt _ _ _ hm]

/-- What Dawn shows where it ends in the boot ROM. -/
theorem State.dawnStop_shows (s : State) {e : Nat} (he : e < 32) : (s.dawnStop e).pwr = s.pwr ∧ (s.dawnStop e).get BOT_STATUS.step = 1 ∧
    (s.dawnStop e).get BOT_STATUS.err = e ∧ (s.dawnStop e).get BCN_STATUS.busy = 1 ∧ (s.dawnStop e).now = s.now ∧
    (s.dawnStop e).get BOT_STATUS.bootmode = s.get BOT_STATUS.bootmode ∧ (s.dawnStop e).get BOT_FLASH.density = s.get BOT_FLASH.density := by
  obtain ⟨hgate, hbusy⟩ := ((s.put BOT_STATUS.err e).dawnStep 1).pinsGated_shows
  unfold State.dawnStop
  rw [hgate.pwr (by decide), hgate.now (by decide), hgate.get (f := BOT_STATUS.step) (by decide), hgate.get (f := BOT_STATUS.err) (by decide),
    hgate.get (f := BOT_STATUS.bootmode) (by decide), hgate.get (f := BOT_FLASH.density) (by decide)]
  unfold State.dawnStep
  refine ⟨rfl, State.get_put_of_lt _ _ _ (by decide), ?_, hbusy, rfl, ?_, ?_⟩
  · rw [State.get_put_apart (h := by decide), State.get_put_of_lt _ _ _ he]
  · rw [State.get_put_apart (h := by decide), State.get_put_apart (h := by decide)]
  · rw [State.get_put_apart (h := by decide), State.get_put_apart (h := by decide)]

/-- What a Dawn shows that ends before it has found a flash. -/
theorem State.dawnStart_stop_shows (s : State) (t : Nat) {mode e : Nat} (flash : Option Sfdp) (hm : mode < 8) (he : e < 32) :
    ((s.dawnStart t mode flash).dawnStop e).pwr.dawnReady = false ∧ ((s.dawnStart t mode flash).dawnStop e).get BOT_STATUS.step = 1 ∧
    ((s.dawnStart t mode flash).dawnStop e).get BOT_STATUS.err = e ∧ ((s.dawnStart t mode flash).dawnStop e).get BCN_STATUS.busy = 1 ∧
    ((s.dawnStart t mode flash).dawnStop e).now = max s.now t ∧ ((s.dawnStart t mode flash).dawnStop e).get BOT_STATUS.bootmode = mode := by
  obtain ⟨hready, -, hmode, hnow, -⟩ := s.dawnStart_shows t flash hm
  obtain ⟨hpwr, hstep, herr, hbusy, hat, hboot, -⟩ := (s.dawnStart t mode flash).dawnStop_shows he
  exact ⟨(congrArg Power.dawnReady hpwr).trans hready, hstep, herr, hbusy, hat.trans hnow, hboot.trans hmode⟩

/-- Without a fast read no flash is found. -/
theorem State.flashFound_none (h : s.flash.sfdp.bind fastRead = none) : s.flashFound = (s, 2) := by
  unfold State.flashFound
  cases hx : s.flash.sfdp with
  | none => rfl
  | some x =>
    rw [hx, Option.bind_some] at h
    simp only [Option.bind_some, h, Option.map_none]

theorem State.flashFound_small {x : Sfdp} (hx : s.flash.sfdp = some x) (hr : (fastRead x).isSome = true) (h : x.density < 25) : s.flashFound = (s, 3) := by
  obtain ⟨r, hr⟩ := Option.isSome_iff_exists.1 hr
  unfold State.flashFound
  simp only [hx, hr, Option.bind_some, Option.map_some, if_pos h]

/-- A flash of 32 MiB or more is found; without a directory that passes the error is 4. -/
theorem State.flashFound_whole {x : Sfdp} (hx : s.flash.sfdp = some x) (hr : (fastRead x).isSome = true) (h : 25 ≤ x.density) :
    s.flashFound.2 = (if (s.directory 0).isNone = true ∧ (s.directory 1).isNone = true then 4 else 0) ∧
      s.flashFound.1.get BOT_FLASH.density = x.density % 256 ∧ s.flashFound.1.flash = s.flash ∧ DawnKeeps s s.flashFound.1 := by
  obtain ⟨r, hr⟩ := Option.isSome_iff_exists.1 hr
  have hkeep : DawnKeeps s s.flashFound.1 :=
    .of_dic (s.flashFound_touches _ (by decide) _ _) ((State.flashFound_only Only.rfl Covers.refl).of.dic (by decide))
  have hflash : s.flashFound.1.flash = s.flash := (State.flashFound_only Only.rfl Covers.refl).of.flash (by decide)
  obtain ⟨u, n, hu, hdens⟩ : ∃ (u : State) (n : Nat), s.flashFound = (u, if ((u.directory 0).isNone && (u.directory 1).isNone) = true then 4 else 0) ∧
      ∀ i j, u.get BOT_FLASH.density i j =
        ((((s.put BOT_FLASH.density x.density).put BOT_FLASH.read r.read).put BOT_FLASH.dummy r.dummy).put BOT_FLASH.sck_mhz n).get BOT_FLASH.density i j := by
    unfold State.flashFound
    simp only [hx, hr, Option.bind_some, Option.map_some, if_neg (show ¬ x.density < 25 by omega)]
    exact ⟨_, _, rfl, fun _ _ => rfl⟩
  rw [hu] at hflash hkeep ⊢
  have hdir : ∀ d, u.directory d = s.directory d := State.directory_congr (congrArg Flash.bytes hflash)
  refine ⟨by simp only [hdir, Bool.and_eq_true], ?_, hflash, hkeep⟩
  rw [hdens, State.get_put_apart (h := by decide), State.get_put_apart (h := by decide), State.get_put_apart (h := by decide), State.get_put_same]
  rfl

/-- A Dawn that does not find its flash ends with the code of that. -/
theorem State.dawn_of_unfound (t us : Nat) {mode e : Nat} (flash : Option Sfdp) (ok0 ok1 : Bool) (h : s.pwr.dawnReady = true) (hm : mode ≤ 2)
    (he : e ≠ 0) (hfound : (s.dawnStart t mode flash).flashFound = (s.dawnStart t mode flash, e)) :
    s.dawn t us mode flash ok0 ok1 = (s.dawnStart t mode flash).dawnStop e := by
  rw [State.dawn_of_ready _ _ _ _ _ _ h, if_neg (by omega), if_neg (by omega), if_neg (by omega), hfound, if_pos he]

theorem State.dawnFound_none (us : Nat) {mode : Nat} (ok0 ok1 : Bool) (h : (s.bootImage mode 1 0).2 = none) :
    (s.dawnFound us mode ok0 ok1).get BOT_STATUS.step = 1 ∧ (s.dawnFound us mode ok0 ok1).get BOT_STATUS.err = 5 := by
  rw [State.bootImage_congr (s := s) (t := s.dawnStep 2) rfl] at h
  unfold State.dawnFound
  revert h
  generalize (s.dawnStep 2).bootImage mode 1 0 = p
  intro h
  obtain ⟨u, o⟩ := p
  cases (h : o = none)
  obtain ⟨-, hstep, herr, -⟩ := u.dawnStop_shows (e := 5) (by decide)
  exact ⟨hstep, herr⟩

/-- With firmware for the keeper the rest of Dawn follows. -/
theorem State.dawnFound_some (us : Nat) {mode : Nat} (ok0 ok1 : Bool) (h : (s.bootImage mode 1 0).2 ≠ none) :
    ∃ v : State, DawnKeeps s v ∧ v.flash = s.flash ∧ s.dawnFound us mode ok0 ok1 = (v.dawnRest mode ok0 ok1).put BOT_DAWN_US.us us := by
  rw [State.bootImage_congr (s := s) (t := s.dawnStep 2) rfl] at h
  have hkeep := (s.dawnStep 2).bootImage_keeps mode 1 0
  have hflash := (s.dawnStep 2).flash_bootImage mode 1 0
  have hstep : DawnKeeps s (s.dawnStep 2) := DawnKeeps.refl.put (by decide) _ _ _
  unfold State.dawnFound
  revert h hkeep hflash
  generalize (s.dawnStep 2).bootImage mode 1 0 = p
  intro h hkeep hflash
  obtain ⟨u, o⟩ := p
  cases o with
  | none => exact absurd rfl h
  | some img =>
    have hfw : Only 0x188220C0000840C0 u (u.dawnKeeper img) := State.dawnKeeper_only Only.rfl Covers.refl
    exact ⟨_, (hstep.trans (hkeep.trans (u.dawnKeeper_keeps img))).put (by decide) _ _ _, (hfw.flash (by decide)).trans hflash, rfl⟩

/-- Dawn with a flash that answers and is large enough, in modes 0 to 2. -/
theorem State.dawn_of_found (t us : Nat) {mode : Nat} {x : Sfdp} (ok0 ok1 : Bool) (h : s.pwr.dawnReady = true) (hm : mode ≤ 2)
    (hr : (fastRead x).isSome = true) (hx : 25 ≤ x.density) : ∃ u : State, u.flash.bytes = s.flash.bytes ∧ u.get BOT_STATUS.err = 0 ∧
      (s.dic.defaults = [] → u.dic.defaults = []) ∧ u.get BOT_FLASH.density = x.density % 256 ∧
      s.dawn t us mode (some x) ok0 ok1 =
        if (s.directory 0).isNone = true ∧ (s.directory 1).isNone = true then u.dawnStop 4 else u.dawnFound us mode ok0 ok1 := by
  obtain ⟨-, herr, -, -, hdic, hbytes, hsfdp⟩ := s.dawnStart_shows t (mode := mode) (some x) (by omega)
  obtain ⟨hcode, hdens, hflash, hkeep⟩ := State.flashFound_whole hsfdp hr hx
  rw [State.directory_congr hbytes, State.directory_congr hbytes] at hcode
  refine ⟨_, (congrArg Flash.bytes hflash).trans hbytes, hkeep.err.trans herr, fun hd => hkeep.defaults ((congrArg Dic.defaults hdic).trans hd), hdens, ?_⟩
  rw [State.dawn_of_ready _ _ _ _ _ _ h, if_neg (by omega), if_neg (by omega), if_neg (by omega), hcode]
  split
  · exact if_pos (by decide)
  · exact if_neg (by decide)

/-- What such a Dawn shows, in every mode up to 2. -/
theorem State.dawn_shows (t us : Nat) {mode : Nat} {x : Sfdp} (ok0 ok1 : Bool) (h : s.pwr.dawnReady = true) (hm : mode ≤ 2)
    (hr : (fastRead x).isSome = true) (hx : 25 ≤ x.density) :
    if (s.directory 0).isNone = true ∧ (s.directory 1).isNone = true then
      (s.dawn t us mode (some x) ok0 ok1).get BOT_STATUS.step = 1 ∧ (s.dawn t us mode (some x) ok0 ok1).get BOT_STATUS.err = 4 ∧
        (s.dawn t us mode (some x) ok0 ok1).get BOT_FLASH.density = x.density % 256
    else if (s.bootImage mode 1 0).2 = none then
      (s.dawn t us mode (some x) ok0 ok1).get BOT_STATUS.step = 1 ∧ (s.dawn t us mode (some x) ok0 ok1).get BOT_STATUS.err = 5
    else (s.dawn t us mode (some x) ok0 ok1).get BOT_DAWN_US.us = us % 2 ^ 32 := by
  obtain ⟨u, hbytes, -, -, hdens, heq⟩ := s.dawn_of_found t us ok0 ok1 h hm hr hx
  rw [heq, State.bootImage_congr hbytes.symm]
  split
  · obtain ⟨-, hstep, herr, -, -, -, hd⟩ := u.dawnStop_shows (e := 4) (by decide)
    exact ⟨hstep, herr, hd.trans hdens⟩
  · split
    · next hnone => exact State.dawnFound_none us ok0 ok1 hnone
    · next hsome =>
      obtain ⟨v, -, -, hv⟩ := State.dawnFound_some us ok0 ok1 hsome
      rw [hv]
      exact State.get_put_same ..

/-- In mode 2, with no value to apply, Dawn that goes past the keeper comes to its end or shows the missing firmware. -/
theorem State.dawn_two_shows (t us : Nat) {x : Sfdp} (ok0 ok1 : Bool) (h : s.pwr.dawnReady = true) (hr : (fastRead x).isSome = true)
    (hx : 25 ≤ x.density) (hd : s.dic.defaults = []) :
    if (s.directory 0).isNone = true ∧ (s.directory 1).isNone = true then
      (s.dawn t us 2 (some x) ok0 ok1).get BOT_STATUS.step = 1 ∧ (s.dawn t us 2 (some x) ok0 ok1).get BOT_STATUS.err = 4 ∧
        (s.dawn t us 2 (some x) ok0 ok1).get BOT_FLASH.density = x.density % 256
    else if (s.bootImage 2 1 0).2 = none then
      (s.dawn t us 2 (some x) ok0 ok1).get BOT_STATUS.step = 1 ∧ (s.dawn t us 2 (some x) ok0 ok1).get BOT_STATUS.err = 5
    else (s.dawn t us 2 (some x) ok0 ok1).get BOT_DAWN_US.us = us % 2 ^ 32 ∧
      (if (s.coreImages 2).2.any (fun i => i.isNone) = true then
        (s.dawn t us 2 (some x) ok0 ok1).get BOT_STATUS.step = 7 ∧ (s.dawn t us 2 (some x) ok0 ok1).get BOT_STATUS.err = 6
      else (s.dawn t us 2 (some x) ok0 ok1).get BOT_STATUS.step = 10 ∧ (s.dawn t us 2 (some x) ok0 ok1).get BOT_STATUS.dawn_done = 1) := by
  have hall := s.dawn_shows t us ok0 ok1 h (mode := 2) (by decide) hr hx
  split
  · next hnone => rwa [if_pos hnone] at hall
  · next hdir =>
    rw [if_neg hdir] at hall
    split
    · next hnone => rwa [if_pos hnone] at hall
    · next hsome =>
      rw [if_neg hsome] at hall
      refine ⟨hall, ?_⟩
      obtain ⟨u, hbytes, herr, hdef, -, heq⟩ := s.dawn_of_found t us ok0 ok1 h (mode := 2) (by decide) hr hx
      rw [State.bootImage_congr hbytes.symm] at hsome
      obtain ⟨v, hkeep, hflash, hv⟩ := State.dawnFound_some us ok0 ok1 hsome
      have hrest := v.dawnRest_shows ok0 ok1 (hkeep.err.trans herr) (hkeep.defaults (hdef hd))
      rw [State.coreImages_congr ((congrArg Flash.bytes hflash).trans hbytes)] at hrest
      have hus : Touches [BOT_DAWN_US.us] (v.dawnRest 2 ok0 ok1) (s.dawn t us 2 (some x) ok0 ok1) := by
        rw [heq, if_neg hdir, hv]
        exact .put .refl (by decide) _ _ _
      rwa [hus _ (by decide), hus _ (by decide), hus _ (by decide)]

/-- In mode 4 the keeper, and every unit with it, stays held. -/
theorem State.dawn_held (t us : Nat) (flash : Option Sfdp) (ok0 ok1 : Bool) (h : s.pwr.dawnReady = true) :
    (s.dawn t us 4 flash ok0 ok1).pwr.held = true ∧ (s.dawn t us 4 flash ok0 ok1).pwr.dawnReady = false ∧
      (s.dawn t us 4 flash ok0 ok1).get BOT_STATUS.bootmode = 4 := by
  obtain ⟨hready, -, hmode, -⟩ := s.dawnStart_shows t flash (mode := 4) (by decide)
  have hdawn := s.dawn_of_ready t us 4 flash ok0 ok1 h
  rw [if_pos rfl] at hdawn
  revert hready hmode hdawn
  generalize s.dawnStart t 4 flash = u
  intro hready hmode hdawn
  obtain ⟨hgate, -⟩ := u.pinsGated_shows
  rw [hdawn, State.get_updPwr, hgate.get (by decide)]
  exact ⟨rfl, (congrArg Power.dawnReady (hgate.pwr (by decide))).trans hready, hmode⟩

/-- A store that runs to its end. -/
theorem State.configStore_shows {img : List (BitVec 8)} {slot gen : Nat} (himg : s.pwr.store = some img) (hc : s.storeCheck img = 0)
    (hslot : slot = s.storeSlot) (hgen : gen = s.storeGen) : (s.configStore .done).pwr.store = none ∧ (s.configStore .done).get BOT_STORE_ERR.code = 0 ∧
    (s.configStore .done).flash.read (0x800000 + 0x800000 * slot) (160 + leAt img 8 4) =
      withGeneration (img.take (160 + leAt img 8 4)) ((gen + 1) % 2 ^ 31) ∧
    ∀ k, s.dawnSlot = some k → ∀ a, 0x800000 + 0x800000 * k ≤ a → a < 0x1000000 + 0x800000 * k →
      Sparse.get flashErased (s.configStore .done).flash.bytes a = Sparse.get flashErased s.flash.bytes a := by
  obtain ⟨hnone, hcode, -⟩ := State.configStore_done himg hc
  obtain ⟨hread, hkeep⟩ := State.configStore_stored himg hc
  rw [hslot, hgen]
  exact ⟨hnone, hcode, hread, hkeep⟩

/-- A vendor update that runs to its end. -/
theorem State.vendorUpdate_shows {b : List (BitVec 8)} (hb : s.pwr.bundle = some b) :
    (s.vendorUpdate .done).pwr.bundle = none ∧ (s.vendorUpdate .done).get BOT_STORE_ERR.code = bundleCode b ∧
    (bundleCode b = 0 → (s.vendorUpdate .done).flash.read 0x2000 b.length = b ∧ (s.vendorUpdate .done).flash.read 0x400000 b.length = b ∧
      (s.vendorUpdate .done).flash.read 0 4096 = bundleDirectory ((bundleImages b.length b).getD []) 0x2000 ∧
      (s.vendorUpdate .done).flash.read 0x1000 4096 = bundleDirectory ((bundleImages b.length b).getD []) 0x400000) ∧
    (bundleCode b ≠ 0 → (s.vendorUpdate .done).flash = s.flash ∧ (s.vendorUpdate .done).get BOT_ERR.store_fail = 1) := by
  by_cases hc : bundleCode b = 0
  · obtain ⟨hnone, hcode, hflash⟩ := State.vendorUpdate_done hb hc
    refine ⟨hnone, hcode.trans hc.symm, fun _ => ?_, fun h => absurd hc h⟩
    rw [hflash]
    exact s.flash.writeAreas_shows hc
  · obtain ⟨hnone, hflash, hcode, hfail⟩ := State.vendorUpdate_refused .done hb hc (bundleCode_lt b)
    exact ⟨hnone, hcode, fun h => absurd h hc, fun _ => ⟨hflash, hfail⟩⟩

end Dawn

/-- Settles O37: what a Dawn finds in the flash rests on its bytes alone, which no step before the last ones changes. -/
theorem bootAndStore : Obligations.BootAndStore := by
  unfold Obligations.BootAndStore
  refine ⟨fun s t us mode flash ok0 ok1 h => congrArg Host.Outcome.next (if_pos (by rw [h]; decide)),
    fun s t us flash ok0 ok1 h => ⟨_, rfl, ?three⟩,
    fun s t us mode flash ok0 ok1 h hm => ⟨_, rfl, ?bypass⟩,
    fun s t us mode ok0 ok1 h hm => ⟨_, rfl, ?absent⟩,
    fun s t us mode x ok0 ok1 h hm hr hx => ⟨_, rfl, ?small⟩,
    fun s t us mode x ok0 ok1 h hm h144 h114 => ⟨_, rfl, ?slow⟩,
    fun s t us flash ok0 ok1 h => ⟨_, rfl, ?four⟩,
    fun s t us mode x ok0 ok1 h hm hr hx => ⟨_, rfl, s.dawn_shows t us ok0 ok1 h hm hr hx⟩,
    fun s t us x ok0 ok1 h hr hx hd => ⟨_, rfl, s.dawn_two_shows t us ok0 ok1 h hr hx hd⟩,
    fun s region ha => does_alive rfl ha (s.retentionScrub_uncorrectable region.val),
    fun s region ha => does_alive rfl ha (s.retentionScrub_corrected region.val),
    fun s img ha himg hc => does_alive rfl ha ?stored,
    fun s run img ha himg hc => does_alive rfl ha ?refused,
    fun s ha hst => does_alive rfl ha ?abort,
    fun s b ha hb => does_alive rfl ha ?bundle,
    fun s run b ha hb => does_alive rfl ha ?update⟩
  case three =>
    rw [State.dawn_of_ready _ _ _ _ _ _ h]
    exact s.dawnStart_stop_shows t flash (by decide) (by decide)
  case bypass =>
    rw [State.dawn_of_ready _ _ _ _ _ _ h, if_neg (by omega), if_neg (by omega), if_pos hm]
    exact s.dawnStart_stop_shows t flash mode.isLt (by decide)
  case absent =>
    rw [State.dawn_of_unfound t us none ok0 ok1 h hm (e := 2) (by decide) (State.flashFound_none rfl)]
    obtain ⟨hready, hstep, herr, hbusy, hnow, -⟩ := s.dawnStart_stop_shows t none mode.isLt (e := 2) (by decide)
    exact ⟨hready, hstep, herr, hbusy, hnow⟩
  case small =>
    rw [State.dawn_of_unfound t us (some x) ok0 ok1 h hm (e := 3) (by decide) (State.flashFound_small rfl hr hx)]
    obtain ⟨hready, hstep, herr, hbusy, hnow, -⟩ := s.dawnStart_stop_shows t (some x) mode.isLt (e := 3) (by decide)
    exact ⟨hready, hstep, herr, hbusy, hnow⟩
  case slow =>
    have hfast : fastRead x = none := by rw [fastRead, h144, h114]; rfl
    rw [State.dawn_of_unfound t us (some x) ok0 ok1 h hm (e := 2) (by decide) (State.flashFound_none hfast)]
    obtain ⟨hready, hstep, herr, hbusy, hnow, -⟩ := s.dawnStart_stop_shows t (some x) mode.isLt (e := 2) (by decide)
    exact ⟨hready, hstep, herr, hbusy, hnow⟩
  case four => exact s.dawn_held t us flash ok0 ok1 h
  case stored => exact State.configStore_shows himg hc (by unfold State.storeSlot; cases s.dawnSlot <;> rfl) (by unfold State.storeGen; cases s.dawnSlot <;> rfl)
  case refused =>
    rw [State.configStore_refused run himg hc]
    exact s.storeFails_shows (s.storeCheck_lt img)
  case abort =>
    rw [State.storeAbort_of_some hst]
    obtain ⟨hnone, hflash, hcode, -⟩ := s.storeFails_shows (c := 6) (by decide)
    exact ⟨hnone, hflash, hcode⟩
  case bundle => exact State.vendorUpdate_shows hb
  case update =>
    by_cases hc : bundleCode b = 0
    · obtain ⟨hnone, hcode⟩ := State.vendorUpdate_code run hb hc
      exact ⟨hnone, fun h => absurd hc h, fun _ => hcode⟩
    · obtain ⟨hnone, hflash, hcode, hfail⟩ := State.vendorUpdate_refused run hb hc (bundleCode_lt b)
      exact ⟨hnone, fun _ => ⟨hflash, hcode, hfail⟩, fun h => absurd h hc⟩

theorem does_imp {c : Instr} {s : State} {P Q : State → Prop} (h : Does c s P) (hPQ : ∀ r, P r → Q r) : Does c s Q :=
  let ⟨r, hr, hP⟩ := h
  ⟨r, hr, hPQ r hP⟩

/-- Settles O60: what O19 and O37 state of these commands holds of the states that they answer. -/
theorem nineCommandsComplete : Obligations.NineCommandsComplete := by
  obtain ⟨hcycle, -, htimer, hpin, -, hvddio⟩ := facetCycle
  obtain ⟨-, -, -, -, -, -, -, -, hdawn, -, hscrub, hstore, -, habort, hvendor, -⟩ := bootAndStore
  exact ⟨fun s f pins us late strobe ha hst => does_imp (hcycle s f pins us late strobe ha hst) fun _ ⟨he, _, _, _, _, hc⟩ => ⟨he, hc⟩,
    fun s f t ha hst hrun hcount hstop hload => does_imp (htimer s f t ha hst hrun hcount hstop hload) fun _ ⟨hexp, _⟩ => hexp,
    fun s n v ha => does_imp (hpin s n v ha) fun _ ⟨hpull, hdrive, _⟩ => ⟨hpull, hdrive⟩,
    fun s k code ha => does_imp (hvddio s k code ha) fun _ ⟨hcode, _⟩ => hcode,
    hdawn, fun s region ha => does_imp (hscrub s region ha) fun _ ⟨hpwr, herr, _⟩ => ⟨herr, hpwr⟩, hstore, habort, hvendor⟩

/-! # The pipeline ring and the array transfers (R319 to R324) -/

section Words

variable {s : State}

/-- A register's word is put together from its fields. -/
theorem State.regWord_eq (s : State) (page off : Nat) : s.regWord page off =
    (fieldsAt page off).foldl (fun a x => if x.1.acc = .wo then a else a ||| s.get x.1 x.2.1 x.2.2 <<< x.1.lsb) 0 := by
  rw [State.regWord, fieldsAt, List.foldl_filterMap]
  congr 1
  funext a f
  cases f.locate off <;> rfl

theorem fieldsAt_pipeCtrl : fieldsAt 9 8 = [(HBM_PIPE_CTRL.enable, 0, 0), (HBM_PIPE_CTRL.planes2, 0, 0), (HBM_PIPE_CTRL.half, 0, 0)] := by
  decide +kernel

/-- The word of HBM_PIPE_CTRL. -/
theorem State.regWord_pipeCtrl (s : State) : s.regWord 9 8 =
    s.get HBM_PIPE_CTRL.enable ||| s.get HBM_PIPE_CTRL.planes2 <<< 1 ||| s.get HBM_PIPE_CTRL.half <<< 2 := by
  rw [State.regWord_eq, fieldsAt_pipeCtrl]
  show 0 ||| s.get HBM_PIPE_CTRL.enable <<< 0 ||| s.get HBM_PIPE_CTRL.planes2 <<< 1 ||| s.get HBM_PIPE_CTRL.half <<< 2 = _
  rw [Nat.zero_or, Nat.shiftLeft_zero]

theorem bits_testBit (v lo : Nat) : bits v lo 1 = (v.testBit lo).toNat := by
  rw [bits, Nat.testBit_eq_decide_div_mod_eq, Nat.shiftRight_eq_div_pow, Nat.pow_one]
  rcases Nat.mod_two_eq_zero_or_one (v / 2 ^ lo) with h | h <;> simp [h]

/-- The lowest three bits of a word, put together again. -/
theorem testBit_lowest_three (v : Nat) {i : Nat} (hi : i < 3) :
    (bits v 0 1 ||| bits v 1 1 <<< 1 ||| bits v 2 1 <<< 2).testBit i = v.testBit i := by
  rw [bits_testBit, bits_testBit, bits_testBit]
  interval_cases i <;> cases v.testBit 0 <;> cases v.testBit 1 <;> cases v.testBit 2 <;> rfl

/-- The stored bytes per crossing depend on bits 1 and 2 of the configuration. -/
theorem pipeBytes_congr {v w : Nat} (h1 : v.testBit 1 = w.testBit 1) (h2 : v.testBit 2 = w.testBit 2) : pipeBytes v = pipeBytes w := by
  have hone : ∀ u : Nat, bit1 u 1 = (u.testBit 1).toNat := fun u => bits_testBit u 1
  rw [pipeBytes, pipeBytes, hone, hone, h1, h2]

end Words

section Pipe

variable {s : State}

/-- What a write of the whole HBM_PIPE_CTRL stores. -/
theorem State.wrReg_pipeCtrl (s : State) (v : Nat) : (s.wrReg 9 8 allBits v).get HBM_PIPE_CTRL.enable = bits v 0 1 ∧
    (s.wrReg 9 8 allBits v).get HBM_PIPE_CTRL.planes2 = bits v 1 1 ∧ (s.wrReg 9 8 allBits v).get HBM_PIPE_CTRL.half = bits v 2 1 := by
  rw [State.get_wrReg_same (page := 9) (off := 8) _ _ s rfl rfl (by decide +kernel) (by decide) (by decide) (by decide),
    State.get_wrReg_same (page := 9) (off := 8) _ _ s rfl rfl (by decide +kernel) (by decide) (by decide) (by decide),
    State.get_wrReg_same (page := 9) (off := 8) _ _ s rfl rfl (by decide +kernel) (by decide) (by decide) (by decide)]
  exact ⟨Fld.stored_all _ _ rfl (by decide) rfl rfl, Fld.stored_all _ _ rfl (by decide) rfl rfl, Fld.stored_all _ _ rfl (by decide) rfl rfl⟩

/-- The word written names the rate of the value, bit by bit. -/
theorem State.regWord_wrReg_pipeCtrl (s : State) (v : Nat) {i : Nat} (hi : i < 3) :
    ((s.wrReg 9 8 allBits v).regWord 9 8).testBit i = v.testBit i := by
  obtain ⟨henable, hplanes, hhalf⟩ := s.wrReg_pipeCtrl v
  rw [State.regWord_pipeCtrl, henable, hplanes, hhalf, testBit_lowest_three v hi]

theorem State.pipeRateOk_wrReg (s : State) (v : Nat) : s.pipeRateOk ((s.wrReg 9 8 allBits v).regWord 9 8) = s.pipeRateOk v := by
  rw [State.pipeRateOk, State.pipeRateOk,
    pipeBytes_congr (s.regWord_wrReg_pipeCtrl v (by decide)) (s.regWord_wrReg_pipeCtrl v (by decide))]

theorem State.writePipeCtrl_ok (v : Nat) (h : s.pipeRateOk v = true) :
    s.writePipeCtrl allBits v = (s.wrReg 9 8 allBits v).updHbm fun x => { x with oldPipe := some s.pipeWord } := by
  unfold State.writePipeCtrl
  exact if_neg (by rw [State.pipeRateOk_wrReg, h]; simp)

theorem State.writePipeCtrl_refused (v : Nat) (hv : v.testBit 0 = true) (h : s.pipeRateOk v = false) :
    s.writePipeCtrl allBits v = s.err HBM_ERR.cfg_refused := by
  unfold State.writePipeCtrl
  exact if_pos ⟨(s.regWord_wrReg_pipeCtrl v (by decide)).trans hv, by rw [State.pipeRateOk_wrReg, h]; simp⟩

/-- A byte inside what has been written reads as written. -/
theorem State.byte_setBytes_in (s : State) (a : Nat) {l : List (BitVec 8)} {k : Nat} (hk : k < l.length) : (s.setBytes a l).byte (a + k) = l.getD k 0 := by
  induction l generalizing s a k with
  | nil => simp at hk
  | cons b l ih =>
    rw [State.setBytes]
    cases k with
    | zero => exact (State.byte_setBytes_out _ _ _ _ (by omega)).trans (State.byte_setByte_same ..)
    | succ k =>
      rw [show a + (k + 1) = a + 1 + k by omega, ih _ _ (by simpa using hk)]
      rfl

theorem State.byte_writeMem_in (s : State) (a : Nat) {l : List (BitVec 8)} {k : Nat} (hk : k < l.length) : (s.writeMem a l).byte (a + k) = l.getD k 0 :=
  s.byte_setBytes_in a hk

theorem length_pipeTag (h : Handoff) : (pipeTag h).length = 16 := by
  simp [pipeTag]

/-- A hand-off that is stored in time. -/
theorem State.pipelineWrite_stored {h : Handoff} {rest : List Handoff} (hq : s.pri.handoffs = h :: rest) (h0 : s.stack 0 = 2) (h1 : s.stack 1 = 2)
    (hs : h.storing = true) : (s.pipelineWrite true).pri.handoffs = rest ∧ (s.pipelineWrite true).hbm.last = h.crossing.serial ∧
      (s.pipelineWrite true).get HBM_PIPE_LAST_LO.serial = h.crossing.serial % 2 ^ 32 ∧
      ∀ k < 16, (s.pipelineWrite true).byte (tagTable + 16 * (h.crossing.serial % 65536) + k) = (pipeTag h).getD k 0 := by
  obtain ⟨v, hv⟩ : ∃ v : State, v = { s with pri := { s.pri with handoffs := rest } } := ⟨_, rfl⟩
  have hstack : ∀ k, v.stack k = s.stack k := fun k => by rw [hv]; rfl
  have hgo : ¬ (v.stack 0 ≠ 2 ∨ v.stack 1 ≠ 2 ∨ ¬ h.storing = true ∨ ¬ true = true) := by simp [hstack, h0, h1, hs]
  obtain ⟨t, hpri, hbytes, heq⟩ : ∃ t : State, t.pri.handoffs = rest ∧
      (∀ k < 16, t.byte (tagTable + 16 * (h.crossing.serial % 65536) + k) = (pipeTag h).getD k 0) ∧ s.pipelineWrite true =
        (t.updHbm fun x => { x with last := h.crossing.serial }).put HBM_PIPE_LAST_LO.serial (h.crossing.serial % 2 ^ 32) := by
    have hmem : ∀ (u : State) a l, (u.writeMem a l).pri = u.pri := fun u a l => (State.writeMem_only Only.rfl Covers.refl).pri (by decide)
    unfold State.pipelineWrite
    rw [hq]
    dsimp only
    rw [← hv, if_neg hgo]
    refine ⟨_, ?_, ?_, rfl⟩
    · rw [hmem]
      split
      · rw [hmem, hmem, hv]
      · rw [hmem, hv]
    · intro k hk
      exact State.byte_writeMem_in _ _ (hk.trans_eq (length_pipeTag h).symm)
  rw [heq]
  exact ⟨hpri, rfl, State.get_put_of_lt _ _ _ (Nat.mod_lt _ (by decide)), hbytes⟩

/-- A hand-off that finds a stack not in RUN. -/
theorem State.pipelineWrite_dropped {h : Handoff} {rest : List Handoff} (inTime : Bool) (hq : s.pri.handoffs = h :: rest) (h0 : s.stack 0 ≠ 2) :
    (s.pipelineWrite inTime).pri.handoffs = rest ∧
      (s.pipelineWrite inTime).get HBM_PIPE_DROP_CNT.count = min (2 ^ 32 - 1) (s.get HBM_PIPE_DROP_CNT.count + 1) ∧
      (s.pipelineWrite inTime).get HBM_ERR.pipe_drop = 1 ∧ ∀ a, (s.pipelineWrite inTime).byte a = s.byte a := by
  obtain ⟨u, hu⟩ : ∃ u : State, u = { s with pri := { s.pri with handoffs := rest } } := ⟨_, rfl⟩
  have heq : s.pipelineWrite inTime = (u.inc HBM_PIPE_DROP_CNT.count).err HBM_ERR.pipe_drop := by
    unfold State.pipelineWrite
    rw [hq, hu]
    exact if_pos (.inl h0)
  obtain ⟨csr, counts, hinc⟩ := u.inc_parts HBM_PIPE_DROP_CNT.count 0 0
  rw [heq, State.get_err_apart (h := by decide), State.get_inc_rc _ _ _ rfl]
  refine ⟨?_, ?_, State.get_err_same (h := rfl) .., fun a => ?_⟩
  · show (u.inc HBM_PIPE_DROP_CNT.count).pri.handoffs = rest
    rw [hinc, hu]
  · rw [hu]; rfl
  · show (u.inc HBM_PIPE_DROP_CNT.count).byte a = s.byte a
    rw [hinc, hu]
    rfl

end Pipe

section Transfer

variable {s t : State}

/-- The registers that the reads and the pieces of a transfer write. -/
def transferCounts : List Fld := [HBM_ECC_CORR_CNT.count, HBM_ECC_UNCORR_CNT.count, HBM_ERR.ecc_uncorr, PRI_SP_STATUS.queued]

/-- What a step of a transfer leaves: every register but its counts, and the channels. -/
def KeepsTransfers (s t : State) : Prop := Touches transferCounts s t ∧ t.hbm = s.hbm

theorem KeepsTransfers.trans {u : State} (h : KeepsTransfers s t) (k : KeepsTransfers t u) : KeepsTransfers s u :=
  ⟨h.1.trans k.1, k.2.trans h.2⟩

theorem State.hbmEcc_touches (s : State) (a : Nat) (o : Codeword) : Touches transferCounts s (s.hbmEcc a o) := by
  cases o with
  | good => exact .refl
  | corrected => exact .inc .refl (by decide) _ _
  | uncorrectable =>
    have hspoil : Touches transferCounts s (s.hbmSpoil (a / 8 * 8)) := by
      unfold State.hbmSpoil
      exact .ite .refl (.of_csr .refl (State.csr_setBytes ..))
    exact (hspoil.inc (by decide) _ _).err (by decide) _ _ _ _

theorem State.hbmRead_touches (s : State) (a n : Nat) (ecc : EccMap) : Touches transferCounts s (s.hbmRead a n ecc) :=
  .ite (.foldl .refl _ fun t _ h => h.trans (t.hbmEcc_touches _ _)) .refl

theorem State.xferBlock_keeps (s : State) (ecc : EccMap) (a : Nat) : KeepsTransfers s (s.xferBlock ecc a).1 := by
  refine ⟨?_, (State.xferBlock_only Only.rfl Covers.refl).of.hbm (by decide)⟩
  have hread := s.hbmRead_touches a 0x4000 ecc
  unfold State.xferBlock
  dsimp only
  split
  · unfold State.hbmReturned
    split
    · exact hread
    · exact hread.of_csr rfl
  · split
    · exact hread
    · exact hread.of_csr rfl

theorem State.sidePlane_keeps (s : State) (t plane v : Nat) : KeepsTransfers s (s.sidePlane t plane v) := by
  refine ⟨?_, (State.sidePlane_only Only.rfl Covers.refl).hbm (by decide)⟩
  unfold State.sidePlane State.sidePiece
  dsimp only
  split
  · split
    · exact .put (.of_csr .refl rfl) (by decide) _ _ _
    · exact .of_csr .refl rfl
  · exact .of_csr .refl rfl

theorem State.xfer_updXfer_same (s : State) (t : Nat) (f : Xfer → Xfer) : (s.updXfer t f).xfer t = f (s.xfer t) := Sparse.get_upd_same ..

/-- A start of an idle one-shot channel. -/
theorem State.xferStart_idle {t : Nat} (ecc : EccMap) (hmode : s.get HBM_XFER_CTRL.mode t = 1) (hbusy : s.bit HBM_XFER_STATUS.busy t = false)
    (hok : s.xferOk t = true) : (s.xferStart t ecc).get HBM_XFER_STATUS.busy t = 1 ∧ (s.xferStart t ecc).get HBM_XFER_STATUS.done_ t = 0 ∧
      ((s.xferStart t ecc).xfer t).left = 0x4000 * s.get HBM_XFER_CFG.planes t := by
  obtain ⟨u, hu⟩ : ∃ u, u = ((s.put HBM_XFER_STATUS.grant 0 t).put HBM_XFER_STATUS.done_ 0 t).put HBM_XFER_STATUS.busy 1 t := ⟨_, rfl⟩
  obtain ⟨v, hv⟩ : ∃ v, v = u.updXfer t fun x => { x with left := 0x4000 * s.get HBM_XFER_CFG.planes t, landed := false } := ⟨_, rfl⟩
  have hkeep : KeepsTransfers v (s.xferStart t ecc) := by
    unfold State.xferStart
    rw [if_neg (not_not.2 hmode), if_neg (by rw [hbusy, hok]; decide)]
    dsimp only
    rw [← hu, ← hv]
    exact foldl_keeps (P := KeepsTransfers v) ⟨.refl, rfl⟩ fun w i _ hw => hw.trans ((w.xferBlock_keeps ..).trans (State.sidePlane_keeps ..))
  obtain ⟨htouch, hhbm⟩ := hkeep
  rw [htouch _ (by decide), htouch _ (by decide), State.xfer, hhbm, ← State.xfer, hv, State.xfer_updXfer_same]
  refine ⟨?_, ?_, rfl⟩
  · rw [State.updXfer, State.get_updHbm, hu, State.get_put_of_lt _ _ _ (by decide)]
  · rw [State.updXfer, State.get_updHbm, hu, State.get_put_apart (h := by decide), State.get_put_of_lt _ _ _ (by decide)]

/-- The pieces of a channel other than `t`. -/
def othersPieces (t : Nat) (q : List SideEntry) : Prop := ∀ e ∈ q, ∀ p ∈ e.pieces, p.initiator ≠ xferInitiator t

theorem othersPieces_joinSide {t taken plane : Nat} {q r : List SideEntry} {write : Bool} {p : Piece} (h : othersPieces t q)
    (hp : p.initiator ≠ xferInitiator t) (hr : joinSide taken q write plane p = some r) : othersPieces t r := by
  have hnew : othersPieces t (q ++ [{ write := write, plane := plane, pieces := [p] }]) := fun e he x hx => by
    rcases List.mem_append.1 he with he | he
    · exact h e he x hx
    · rw [List.mem_singleton.1 he] at hx
      rwa [List.mem_singleton.1 hx]
  unfold joinSide at hr
  split at hr
  · next l hl =>
    split at hr
    · cases hr
      intro e he x hx
      rcases List.mem_append.1 he with he | he
      · exact h e (List.dropLast_subset _ he) x hx
      · rw [List.mem_singleton.1 he] at hx
        rcases List.mem_append.1 hx with hx | hx
        · exact h l (List.mem_of_getLast? hl) x hx
        · rwa [List.mem_singleton.1 hx]
    · split at hr
      · cases hr
        exact hnew
      · cases hr
  · next hl =>
    cases hr
    rw [List.getLast?_eq_none_iff] at hl
    rw [hl] at hnew
    exact hnew

/-- Held pieces that enter bring none of a channel that holds none. -/
theorem State.admitHeld_others {t : Nat} (n : Nat) (h : othersPieces t s.pri.side) (hheld : ∀ x ∈ s.pri.held, x.2.2.initiator ≠ xferInitiator t) :
    othersPieces t (s.admitHeld n).pri.side := by
  induction n generalizing s with
  | zero => exact h
  | succ n ih =>
    unfold State.admitHeld
    split
    · exact h
    · next w a p rest hq =>
      rw [hq] at hheld
      split
      · next q hj =>
        exact ih (othersPieces_joinSide h (hheld _ List.mem_cons_self) hj) fun x hx => hheld x (List.mem_cons_of_mem _ hx)
      · exact h

theorem State.xferWithdraw_others (s : State) (t : Nat) : othersPieces t (s.xferWithdraw t).pri.side := by
  unfold State.xferWithdraw
  extract_lets mine side taken
  refine State.admitHeld_others 256 (fun e he p hp => ?_) fun x hx => ?_
  · obtain ⟨e', -, rfl⟩ := List.mem_map.1 (List.mem_filter.1 he).1
    simpa [mine] using (List.mem_filter.1 hp).2
  · simpa [mine] using (List.mem_filter.1 hx).2

/-- An abort of a busy channel. -/
theorem State.xferAbort_busy {t : Nat} (h : s.bit HBM_XFER_STATUS.busy t = true) : (s.xferAbort t).get HBM_XFER_STATUS.busy t = 0 ∧
    (s.xferAbort t).get HBM_XFER_STATUS.aborted t = 1 ∧ ((s.xferAbort t).xfer t).left = 0 ∧ othersPieces t (s.xferAbort t).pri.side := by
  have hside := s.xferWithdraw_others t
  unfold State.xferAbort
  rw [if_pos h]
  generalize s.xferWithdraw t = u at hside
  dsimp only
  rw [State.get_put_apart (h := by decide), State.get_put_of_lt _ _ _ (by decide), State.get_put_of_lt _ _ _ (by decide)]
  exact ⟨rfl, rfl, (congrArg Xfer.left (u.xfer_updXfer_same t _) :), hside⟩

end Transfer

/-- Settles O26: a transfer's reads and pieces keep its channel, and what enters the queue after an abort is no piece of it. -/
theorem hbmPipeline : Obligations.HbmPipeline := by
  unfold Obligations.HbmPipeline
  refine ⟨fun s h rest ha hq h0 h1 hs => does_live rfl ha (State.pipelineWrite_stored hq h0 h1 hs),
    fun s inTime h rest ha hq h0 => does_live rfl ha (State.pipelineWrite_dropped inTime hq h0),
    fun s v ha hok => does_live rfl ha ?_,
    fun s v ha hv hok => exec_live rfl ha (State.writePipeCtrl_refused v.toNat hv hok),
    fun s t ecc ha hmode hbusy hok => does_live rfl ha (State.xferStart_idle ecc hmode hbusy hok),
    fun s t ecc ha hmode hbusy => exec_live rfl ha ?_,
    fun s t ha hbusy => does_live rfl ha (State.xferAbort_busy hbusy)⟩
  · obtain ⟨henable, -, hhalf⟩ := s.wrReg_pipeCtrl v.toNat
    have hstore := State.writePipeCtrl_ok v.toNat hok
    show (s.writePipeCtrl allBits v.toNat).get _ = _ ∧ (s.writePipeCtrl allBits v.toNat).get _ = _ ∧ (s.writePipeCtrl allBits v.toNat).hbm.oldPipe = _
    rw [hstore]
    exact ⟨henable, hhalf, rfl⟩
  · rw [State.xferStart, if_neg (not_not.2 hmode), if_pos (.inl hbusy)]
    rfl

/-! # Loading and exchange of a program image (R228 to R235) -/

section Load

variable {s : State}

/-- A load that begins. -/
theorem State.programLoad_shows (h1 : s.umbraState ≠ 1) (h5 : s.umbraState ≠ 5) (h6 : s.umbraState ≠ 6) : s.programLoad.umbraState = 1 ∧
    s.programLoad.get SEQ_UMBRA_STATUS.load_err = 0 ∧
    s.programLoad.seq.loading = s.fetchBytes (8 * s.get SEQ_LOAD_ADDR_LO.addr + 2 ^ 32 * s.get SEQ_LOAD_ADDR_HI.addr) (s.get SEQ_LOAD_LEN.bytes) := by
  obtain ⟨img, himg⟩ : ∃ img, img = s.fetchBytes (8 * s.get SEQ_LOAD_ADDR_LO.addr + 2 ^ 32 * s.get SEQ_LOAD_ADDR_HI.addr) (s.get SEQ_LOAD_LEN.bytes) := ⟨_, rfl⟩
  obtain ⟨u, hu⟩ : ∃ u : State, u = (s.updSeq fun q => { q with loading := img, loaded := false }).updHalf s.umbraHalf fun _ =>
    { ctx := clearedCtx (progEntry (img.getD []) 1) } := ⟨_, rfl⟩
  have hload : u.seq.loading = img := by
    rw [hu]
    unfold State.updHalf State.updSeq
    dsimp only
    split <;> rfl
  have heq : s.programLoad = (((((u.put SEQ_UMBRA_STATUS.state 1).put SEQ_UMBRA_STATUS.load_err 0).put SEQ_UMBRA_STATUS.admit_err 0).put
      SEQ_UMBRA_ID.id 0).put SEQ_DEC_OUTPUTS.umbra 0).put SEQ_UMBRA_CERT.bound 0 := by
    unfold State.programLoad
    dsimp only
    rw [if_neg (by omega), ← himg, hu]
    rfl
  rw [heq, State.umbraState, ← himg]
  refine ⟨?_, ?_, hload⟩
  · rw [State.get_put_apart (h := by decide), State.get_put_apart (h := by decide), State.get_put_apart (h := by decide),
      State.get_put_apart (h := by decide), State.get_put_apart (h := by decide), State.get_put_of_lt _ _ _ (by decide)]
  · rw [State.get_put_apart (h := by decide), State.get_put_apart (h := by decide), State.get_put_apart (h := by decide),
      State.get_put_apart (h := by decide), State.get_put_of_lt _ _ _ (by decide)]

theorem State.half_updHalf_same (s : State) (h : Nat) (f : Half → Half) : (s.updHalf h f).half h = f (s.half h) := by
  unfold State.half State.updHalf State.updSeq
  dsimp only
  split <;> rfl

/-- The start of an admission shows in the register of its run alone. -/
theorem State.startAdmission_touches (s : State) (active umbra : Bool) (plan : Option Plan) :
    Touches [SEQ_ADM_STATUS.busy] s (s.startAdmission active umbra plan) := .put (.of_csr .refl rfl) (by decide) _ _ _

theorem State.startAdmission_shows (s : State) (active umbra : Bool) (plan : Option Plan) :
    (s.startAdmission active umbra plan).seq.admission.isSome = true ∧ (s.startAdmission active umbra plan).get SEQ_ADM_STATUS.busy = 1 :=
  ⟨rfl, State.get_put_of_lt _ _ _ (by decide)⟩

/-- An image that passes every check. -/
theorem State.loadDone_checked {img : List (BitVec 8)} (hst : s.umbraState = 1) (himg : s.seq.loading = some img)
    (hok : (progErr img.length (s.get BOT_PATCH_VER.ver) img).1 = 0) : s.loadDone.umbraState = 2 ∧ s.loadDone.get SEQ_UMBRA_ID.id = progId img % 2 ^ 32 ∧
      (s.loadDone.half s.umbraHalf).image = img ∧ s.loadDone.get SEQ_ADM_STATUS.busy = 1 := by
  obtain ⟨u, f, hhalf, heq⟩ : ∃ (u : State) (f : ProgFacts), (u.half s.umbraHalf).image = img ∧ s.loadDone =
      (((u.put SEQ_UMBRA_STATUS.state 2).put SEQ_UMBRA_ID.id (progId img)).put SEQ_DEC_OUTPUTS.umbra f.decided).startAdmission false true := by
    unfold State.loadDone
    rw [if_neg (not_not.2 hst), himg]
    dsimp only
    rw [if_neg (not_not.2 hok)]
    exact ⟨_, _, congrArg Half.image (State.half_updHalf_same ..), rfl⟩
  obtain ⟨-, hbusy⟩ := (((u.put SEQ_UMBRA_STATUS.state 2).put SEQ_UMBRA_ID.id (progId img)).put SEQ_DEC_OUTPUTS.umbra f.decided).startAdmission_shows false true none
  have htouch := (((u.put SEQ_UMBRA_STATUS.state 2).put SEQ_UMBRA_ID.id (progId img)).put SEQ_DEC_OUTPUTS.umbra f.decided).startAdmission_touches false true none
  rw [heq, State.umbraState, htouch _ (by decide), htouch _ (by decide)]
  refine ⟨?_, ?_, hhalf, hbusy⟩
  · rw [State.get_put_apart (h := by decide), State.get_put_apart (h := by decide), State.get_put_of_lt _ _ _ (by decide)]
  · exact (State.get_put_apart (h := by decide) ..).trans (State.get_put_same ..)

/-- A load that ends without an image. -/
theorem State.loadFails_shows (s : State) {code : Nat} (hc : code < 256) {f : Fld} (h : f ∈ [SEQ_ERR.load_failed, SEQ_ERR.aborted]) :
    ((s.loadFails code).seqErr f).umbraState = 0 ∧ ((s.loadFails code).seqErr f).get SEQ_UMBRA_STATUS.load_err = code ∧
      ((s.loadFails code).seqErr f).get f = 1 := by
  have hput : ∀ u : State, ((u.put SEQ_UMBRA_STATUS.state 0).put SEQ_UMBRA_STATUS.load_err code).get SEQ_UMBRA_STATUS.state = 0 ∧
      ((u.put SEQ_UMBRA_STATUS.state 0).put SEQ_UMBRA_STATUS.load_err code).get SEQ_UMBRA_STATUS.load_err = code := fun u =>
    ⟨(State.get_put_apart (h := by decide) ..).trans (State.get_put_of_lt _ _ _ (by decide)), State.get_put_of_lt _ _ _ hc⟩
  obtain ⟨hstate, herr⟩ := hput ((s.updSeq fun q => { q with loading := none }).updHalf (s.updSeq fun q => { q with loading := none }).umbraHalf fun _ => {})
  unfold State.seqErr State.umbraState
  rcases List.mem_pair.1 h with rfl | rfl
  · rw [State.get_err_apart (h := by decide), State.get_err_apart (h := by decide)]
    exact ⟨hstate, herr, State.get_err_same (h := rfl) ..⟩
  · rw [State.get_err_apart (h := by decide), State.get_err_apart (h := by decide)]
    exact ⟨hstate, herr, State.get_err_same (h := rfl) ..⟩

theorem State.loadDone_missing (hst : s.umbraState = 1) (himg : s.seq.loading = none) : s.loadDone = (s.loadFails 27).seqErr SEQ_ERR.load_failed := by
  unfold State.loadDone
  rw [if_neg (not_not.2 hst), himg]

theorem State.loadAbort_loading (hst : s.umbraState = 1) : s.loadAbort = (s.loadFails 28).seqErr SEQ_ERR.aborted := if_pos hst

/-- An exchange armed without a name (R232). -/
theorem State.exchangeArm_unnamed (hst : s.umbraState = 3) (hname : s.bit SEQ_XCHG_WHEN_HI.named = false) :
    s.exchangeArm.umbraState = 5 ∧ s.exchangeArm.armed .exchange = true := by
  obtain ⟨t, ht, harmed⟩ := State.arm_unnamed s .exchange (s.get SEQ_XCHG_WHEN_LO.orbit + 2 ^ 32 * s.get SEQ_XCHG_WHEN_HI.orbit) (s.get SEQ_XCHG_WHEN_HI.index)
  rw [State.exchangeArm, if_neg (not_not.2 hst), State.whenOf]
  simp only [hname, ht]
  exact ⟨State.get_put_of_lt _ _ _ (by decide), harmed⟩

/-- An exchange cancelled before it is due (R231). -/
theorem State.exchangeCancel_armed (hst : s.umbraState = 5) (hdue : s.gno.due.contains .exchange = false) :
    s.exchangeCancel.umbraState = 3 ∧ s.exchangeCancel.get SEQ_ERR.exchange_cancelled = 1 ∧ s.exchangeCancel.armed .exchange = false := by
  have heq : s.exchangeCancel = ((s.disarm .exchange).put SEQ_UMBRA_STATUS.state 3).err SEQ_ERR.exchange_cancelled := by
    unfold State.exchangeCancel
    rw [if_neg (by rw [hdue]; decide), if_pos hst]
    rfl
  rw [heq, State.umbraState, State.get_err_apart (h := by decide), State.get_put_of_lt _ _ _ (by decide)]
  exact ⟨rfl, State.get_err_same (h := rfl) .., s.disarm_unarmed .exchange⟩

end Load

section Stored

variable {f : Fld} {m v old : Nat}

/-- A write of every bit of a field stores the new value, within its clamp (R591). -/
theorem Fld.stored_rw (hacc : f.acc = .rw) (hw : 0 < f.width) (hm : bits m f.lsb f.width = 2 ^ f.width - 1) :
    f.stored m v old = f.clampTo old (bits v f.lsb f.width) % 2 ^ f.width := by
  have hpos : 2 ^ f.width - 1 ≠ 0 := by
    have := Nat.one_lt_two_pow (n := f.width) (by omega)
    omega
  have hmerged : (old &&& (2 ^ f.width - 1 - (2 ^ f.width - 1))) ||| (bits v f.lsb f.width &&& (2 ^ f.width - 1)) = bits v f.lsb f.width := by
    rw [Nat.sub_self, Nat.and_zero, Nat.zero_or, Nat.and_two_pow_sub_one_eq_mod, Nat.mod_eq_of_lt (bits_lt _ _ _)]
  simp only [Fld.stored, hacc, hm, hmerged, if_neg hpos]

theorem clampN_lt {lo hi x n : Nat} (h : lo ≤ hi ∧ hi < n) : clampN lo hi x < n := by
  unfold clampN
  split_ifs <;> omega

end Stored

section Exchange

variable {s t u : State}

/-- The state code of the sequencer and the half that is Active stand. -/
def RunsOn (s t : State) : Prop := t.seqState = s.seqState ∧ t.activeHalf = s.activeHalf

/-- A field that holds neither. -/
def Fld.besideRun (f : Fld) : Bool := f.apart SEQ_STATUS.state && f.apart SEQ_STATUS.active_half

namespace RunsOn

theorem refl : RunsOn s s := ⟨rfl, rfl⟩

theorem trans (h : RunsOn s t) (k : RunsOn t u) : RunsOn s u := ⟨k.1.trans h.1, k.2.trans h.2⟩

theorem of_csr (h : RunsOn s t) (e : u.csr = t.csr) : RunsOn s u := by
  refine h.trans ⟨?_, ?_⟩
  · rw [State.seqState, State.seqState, State.get, State.get, e]
  · rw [State.activeHalf, State.activeHalf, State.get, State.get, e]

theorem updSeq (h : RunsOn s t) (f : Seq → Seq) : RunsOn s (t.updSeq f) := h.of_csr rfl

theorem updHalf (h : RunsOn s t) (n : Nat) (f : Half → Half) : RunsOn s (t.updHalf n f) := h.of_csr rfl

theorem ite {p : Prop} [Decidable p] (ht : RunsOn s t) (hu : RunsOn s u) : RunsOn s (if p then t else u) := by
  split <;> assumption

theorem put {f : Fld} (h : RunsOn s t) (hf : f.besideRun = true) (v i j : Nat) : RunsOn s (t.put f v i j) := by
  rw [Fld.besideRun, Bool.and_eq_true] at hf
  exact h.trans ⟨State.get_put_apart (h := hf.1) .., State.get_put_apart (h := hf.2) ..⟩

theorem inc {f : Fld} (h : RunsOn s t) (hf : f.besideRun = true) (i j : Nat) : RunsOn s (t.inc f i j) := by
  rw [Fld.besideRun, Bool.and_eq_true] at hf
  exact h.trans ⟨State.get_inc_apart (h := hf.1) .., State.get_inc_apart (h := hf.2) ..⟩

theorem of_only {A : Nat} (h : RunsOn s t) (hA : A.testBit 6 = false) (ho : Only A t u) : RunsOn s u :=
  h.trans ⟨ho.get (f := SEQ_STATUS.state) ⟨by decide, hA⟩ 0 0, ho.get (f := SEQ_STATUS.active_half) ⟨by decide, hA⟩ 0 0⟩

end RunsOn

theorem State.publishActive_runsOn (s : State) : RunsOn s s.publishActive := by
  unfold State.publishActive
  extract_lets x f p l b s1 s2 s3 s4 s5 s6 s7
  have h1 : RunsOn s s1 := (RunsOn.refl.put (by decide) _ _ _).put (by decide) _ _ _
  have h3 : RunsOn s s3 := (((h1.put (by decide) _ _ _).put (by decide) _ _ _).put (by decide) _ _ _).put (by decide) _ _ _
  have h5 : RunsOn s s5 := ((h3.put (by decide) _ _ _).put (by decide) _ _ _).put (by decide) _ _ _
  have h7 : RunsOn s s7 := (h5.put (by decide) _ _ _).put (by decide) _ _ _
  exact .ite h1 (foldl_keeps h7 fun _ _ _ h => h.put (by decide) _ _ _)

theorem State.exchangeTimer_runsOn (img : List (BitVec 8)) (all : Bool) {k : Nat} (hk : k < 8) (h : RunsOn s t) : RunsOn s (t.exchangeTimer img all k) := by
  unfold State.exchangeTimer
  extract_lets r was u
  have hsync : RunsOn t (t.timerSync k) := ⟨State.get_timerSync (by decide) _ _, State.get_timerSync (by decide) _ _⟩
  have hreload : RunsOn s ((t.timerSync k).put SEQ_TMR_CFG.reload (bits r 0 24) k) :=
    (h.trans hsync).trans ⟨State.get_put_parted (by decide) hk (by decide) (by decide) (by decide) _ _,
      State.get_put_parted (by decide) hk (by decide) (by decide) (by decide) _ _⟩
  have hu : RunsOn s u := (hreload.put (by decide) _ _ _).put (by decide) _ _ _
  exact .ite (.of_csr (((hu.put (by decide) _ _ _).put (by decide) _ _ _).put (by decide) _ _ _) rfl) (.ite hu (.of_csr hu rfl))

theorem State.exchangeEdge_runsOn (img : List (BitVec 8)) (all : Bool) {e : Nat} (he : e < 16) (h : RunsOn s t) : RunsOn s (t.exchangeEdge img all e) := by
  unfold State.exchangeEdge
  extract_lets r u v
  have hsource : RunsOn s (t.put SEQ_EDG.source (bits r 0 8) e) :=
    h.trans ⟨State.get_put_parted (by decide) he (by decide) (by decide) (by decide) _ _,
      State.get_put_parted (by decide) he (by decide) (by decide) (by decide) _ _⟩
  have hv : RunsOn s v := ((hsource.put (by decide) _ _ _).put (by decide) _ _ _).put (by decide) _ _ _
  exact .ite (.of_csr (hv.put (by decide) _ _ _) rfl) hv

/-- The halves change over and the sequencer runs (R233). -/
theorem State.exchange_shows (hst : s.umbraState = 5) : s.exchange.activeHalf = 1 - s.activeHalf ∧ s.exchange.seqState = 1 := by
  obtain ⟨u, hu⟩ : ∃ u : State, u = (s.put SEQ_STATUS.active_half s.umbraHalf).put SEQ_STATUS.state 1 := ⟨_, rfl⟩
  have hrun : RunsOn u s.exchange := by
    unfold State.exchange
    rw [if_neg (not_not.2 hst)]
    extract_lets old sOld idle drains pass s1 s2 s3 s4 s5 s6 s7 s8 img s9 s10 s11 s12 s13
    have h1 : RunsOn u s1 := hu ▸ .refl
    have hdone : RunsOn u ((s1.put SEQ_UMBRA_STATUS.state 0).put SEQ_STATUS.drain_left 0) := (h1.put (by decide) _ _ _).put (by decide) _ _ _
    have h2 : RunsOn u s2 := .ite ((h1.put (by decide) _ _ _).put (by decide) _ _ _) (hdone.updHalf _ _)
    have h4 : RunsOn u s4 := (((h2.updSeq _).put (by decide) _ _ _).put (by decide) _ _ _).put (by decide) _ _ _
    have h5 : RunsOn u s5 := ((h4.put (by decide) _ _ _).put (by decide) _ _ _).put (by decide) _ _ _
    have h6 : RunsOn u s6 := (h5.updSeq _).put (by decide) _ _ _
    have h7 : RunsOn u s7 := .ite (h6.put (by decide) _ _ _) h6
    have h8 : RunsOn u s8 := (h7.put (by decide) _ _ _).updSeq _
    have h9 : RunsOn u s9 := foldl_keeps h8 fun _ _ hk h => State.exchangeTimer_runsOn _ _ (List.mem_range.1 hk) h
    have h10 : RunsOn u s10 := foldl_keeps h9 fun _ _ he h => State.exchangeEdge_runsOn _ _ (List.mem_range.1 he) h
    have h11 : RunsOn u s11 := (h10.inc (by decide) _ _).put (by decide) _ _ _
    have h12 : RunsOn u s12 := .ite (.of_only h11 (A := 0x10000000010000) (by decide) (State.tarTrigger_only Only.rfl Covers.refl)) h11
    have h13 : RunsOn u s13 := (h12.put (by decide) _ _ _).put (by decide) _ _ _
    exact .trans (.ite ((h13.updSeq _).put (by decide) _ _ _) ((h13.put (by decide) _ _ _).updSeq _)) (State.publishActive_runsOn _)
  obtain ⟨hstate, hhalf⟩ := hrun
  have hbit : s.umbraHalf < 2 ^ SEQ_STATUS.active_half.width := by
    show 1 - s.activeHalf < 2
    omega
  rw [hstate, hhalf, hu, State.activeHalf, State.seqState, State.get_put_apart (h := by decide), State.get_put_of_lt _ _ _ hbit,
    State.get_put_of_lt _ _ _ (by decide)]
  exact ⟨rfl, rfl⟩

/-- The exchange at its barrier, before the slot opens. -/
theorem State.penumbra_shows (hdue : s.isDue .exchange = true) (hst : s.umbraState = 5) :
    s.penumbra.openIfReady.activeHalf = 1 - s.activeHalf ∧ s.penumbra.openIfReady.seqState = 1 := by
  have hopen := Opened.openIfReady (Opened.refl s.penumbra)
  have hex : s.penumbra = (s.tookDue .exchange).exchange := if_pos hdue
  rw [State.activeHalf, State.seqState, hopen.get _ (by decide), hopen.get _ (by decide), hex]
  exact State.exchange_shows (s := s.tookDue .exchange) hst

/-- The pending promise written while no program is Active. -/
theorem State.writePromise_idle (v : Nat) (hst : s.seqState = 0) : (s.writePromise allBits v).get SEQ_PROMISE_NS.ns = clampN 40 1600 (bits v 0 11) := by
  have hstored : (s.wrReg 6 0x2C allBits v).get SEQ_PROMISE_NS.ns = clampN 40 1600 (bits v 0 11) := by
    rw [State.get_wrReg_same (page := 6) (off := 0x2C) _ _ s rfl rfl (by decide +kernel) (by decide) (by decide) (by decide)]
    have hraw : ∀ old, SEQ_PROMISE_NS.ns.stored allBits v old = clampN 40 1600 (bits v 0 11) := fun old =>
      (Fld.stored_rw rfl (by decide) rfl).trans (Nat.mod_eq_of_lt (clampN_lt (by decide)))
    exact hraw _
  have hidle : s.hasActive = false := by rw [State.hasActive, hst]; rfl
  unfold State.writePromise
  rw [if_neg (by decide)]
  dsimp only
  rw [if_neg (by rw [hidle]; simp)]
  split
  · exact (State.startAdmission_touches _ _ _ _ _ (by decide) _ _).trans hstored
  · exact hstored

/-- The plan's periods, once it has been applied. -/
theorem State.planApply_shows {p : Plan} (hp : s.seq.plan = some p) : s.planApply.seq.plan = none ∧
    ∀ i < 16, s.planApply.get ARR_ISL_CLK_PLAN.period_fs i = p.periods.getD i 0 % 2 ^ 20 := by
  obtain ⟨w, hw⟩ : ∃ w : State, w = (List.range 16).foldl (fun s i => s.put ARR_ISL_CLK_PLAN.period_fs (p.periods.getD i 0) i) s.timersSync := ⟨_, rfl⟩
  have heq : s.planApply = ((w.updSeq fun q => { q with plan := none }).publishActive).glintTrim := by
    unfold State.planApply
    rw [hp, hw]
  have honly : Only 0x10000000C0 (w.updSeq fun q => { q with plan := none }) s.planApply := by
    rw [heq]
    exact State.glintTrim_only (State.publishActive_only Only.rfl (by decide)) (by decide)
  refine ⟨congrArg Seq.plan (honly.seq (by decide)), fun i hi => ?_⟩
  rw [honly.get (by decide), State.get_updSeq, hw]
  refine foldl_range_reaches (Q := fun _ => True) (P := fun u : State => u.get ARR_ISL_CLK_PLAN.period_fs i = p.periods.getD i 0 % 2 ^ 20) hi trivial
    (fun _ _ _ _ _ => trivial) (fun u _ => State.get_put_same ..) fun u k hk hne hu => ?_
  rwa [State.get_put_ne (h := Fld.key_ne_of_first (f := ARR_ISL_CLK_PLAN.period_fs) (by decide) hk hi (by decide) (Ne.symm hne))]

/-- What Tarnish does with a plan that has been applied concerns neither the sequencer nor the islands' clocks. -/
theorem State.tarApply_only_tarnish {p : Plan} (hp : s.seq.plan = some p) : Only 0x1010002000010000 s.planApply s.tarApply := by
  unfold State.tarApply
  rw [hp]
  dsimp only
  refine .ite ?_ (.ite (State.updTar_only (State.avsOrder_only ?_ (by decide)) (by decide)) (State.replanEnd_only ?_ (by decide)))
  all_goals exact State.put_only (State.put_only (State.updTar_only (State.inc_only Only.rfl (by decide) (by decide)) (by decide)) (by decide)) (by decide)

/-- A margin plan at its barrier gives every island its period. -/
theorem State.tarApply_shows {p : Plan} (hp : s.seq.plan = some p) : s.tarApply.openIfReady.seq.plan = none ∧
    ∀ i < 16, s.tarApply.openIfReady.get ARR_ISL_CLK_PLAN.period_fs i = p.periods.getD i 0 % 2 ^ 20 := by
  have hopen := Opened.openIfReady (Opened.refl s.tarApply)
  have hplan : s.tarApply.openIfReady.seq.plan = s.tarApply.seq.plan := congrArg Prod.snd hopen.opens
  have htar := State.tarApply_only_tarnish hp
  obtain ⟨hnone, hclock⟩ := State.planApply_shows hp
  refine ⟨hplan.trans ((congrArg Seq.plan (htar.seq (by decide))).trans hnone), fun i hi => ?_⟩
  rw [hopen.clock i hi, htar.get (by decide), hclock i hi]

end Exchange

/-! # The admission of a program image (R242 to R253) -/

section Codes

variable {f old new : ProgFacts} {tmin tmax p promise : Nat}

/-- An image passes the checks on its own. -/
def ProgFacts.passes (f : ProgFacts) (tmin tmax p promise : Nat) : Prop :=
  f.decOutside = false ∧ f.missing = false ∧ waitShort f p = false ∧ f.fg.sum ≤ tmin / p - 3 ∧
    (f.dec = 0 ∨ boundOf f tmax p f.dec ≤ 1000000 * promise)

theorem admitCode_eq_zero_iff : admitCode f tmin tmax p promise = 0 ↔ f.passes tmin tmax p promise := by
  unfold admitCode ProgFacts.passes slotLength
  split_ifs <;> simp_all <;> omega

theorem admitCode_of_fails (h : ¬ f.passes tmin tmax p promise) : admitCode f tmin tmax p promise =
    if f.decOutside = true then 6 else if f.missing = true then 7 else if waitShort f p = true then 5 else if tmin / p - 3 < f.fg.sum then 1 else 2 := by
  have hne := mt admitCode_eq_zero_iff.1 h
  revert hne
  unfold admitCode slotLength
  split_ifs <;> simp

theorem admitCode_lt : admitCode f tmin tmax p promise < 8 := by
  unfold admitCode
  split_ifs <;> decide

theorem admitExchange_lt : (admitExchange old new tmin tmax p promise).1 < 8 := by
  unfold admitExchange
  refine foldl_keeps (P := fun a : Nat × Nat × Nat => a.1 < 8) (by decide) fun a j _ ha => ?_
  dsimp only
  split_ifs <;> omega

end Codes

section Runs

variable {s t : State} {p : Nat}

/-- The registers that show what is known of the Active program. -/
def publishFields : List Fld :=
  [SEQ_ADM_PSLOW.period_fs, SEQ_ADM_BUDGET.budget, SEQ_STATUS.stages, SEQ_ACTIVE_ID.id, SEQ_ADM_BUDGET.fg_total, SEQ_CERT_NS.bound,
    SEQ_DEC_INFO.dec_cycles, SEQ_DEC_INFO.full, SEQ_DEC_OUTPUTS.active, SEQ_ADM_STATUS.bg_room_low, SEQ_BG_STATUS.yield, BCN_GL_STATUS.in_set]

theorem State.publishActive_touches (s : State) : Touches publishFields s s.publishActive := by
  unfold State.publishActive
  extract_lets x f p l b s1 s2 s3 s4 s5 s6 s7
  have h1 : Touches publishFields s s1 := (Touches.refl.put (by decide) _ _ _).put (by decide) _ _ _
  have h3 : Touches publishFields s s3 := (((h1.put (by decide) _ _ _).put (by decide) _ _ _).put (by decide) _ _ _).put (by decide) _ _ _
  have h5 : Touches publishFields s s5 := ((h3.put (by decide) _ _ _).put (by decide) _ _ _).put (by decide) _ _ _
  have h7 : Touches publishFields s s7 := (h5.put (by decide) _ _ _).put (by decide) _ _ _
  exact .ite h1 (.foldl h7 _ fun _ _ h => h.put (by decide) _ _ _)

/-- The code of the Umbra half's admission under periods with largest period `p` (R246 to R248). -/
def State.umbraCode (s : State) (p : Nat) : Nat :=
  let nw := (s.half s.umbraHalf).facts
  let c := admitCode nw (s.get GNO_PERIOD_MIN.period_fs) (s.get GNO_PERIOD_MAX.period_fs) p (s.get SEQ_PROMISE_NS.ns)
  if c ≠ 0 then c
  else if s.seqState = 1 ∧ 2 ≤ s.active.facts.fg.length ∧ ¬ (s.bit SEQ_ADM_STATUS.held ∧ ¬ s.seq.holdEnds) then
    (admitExchange s.active.facts nw (s.get GNO_PERIOD_MIN.period_fs) (s.get GNO_PERIOD_MAX.period_fs) p
      (max (s.get SEQ_PROMISE_NS.ns) (s.get SEQ_PROMISE_ACT.ns))).1
  else 0

/-- The bound that is published for the image of the Umbra half (R254). -/
def State.umbraBound (s : State) (p : Nat) : Nat :=
  let nw := (s.half s.umbraHalf).facts
  if nw.dec = 0 then 0 else certOf (boundOf nw (s.get GNO_PERIOD_MAX.period_fs) p nw.dec)

theorem State.umbraCode_lt : s.umbraCode p < 8 := by
  unfold State.umbraCode
  dsimp only
  split_ifs
  · exact admitCode_lt
  · exact admitExchange_lt
  · decide

theorem State.umbraReject_of_checked (h : s.umbraState = 2) (c : Nat) : s.umbraReject c =
    ((s.put SEQ_UMBRA_STATUS.state 4).put SEQ_UMBRA_STATUS.admit_err c).seqErr SEQ_ERR.admit_rejected := by
  unfold State.umbraReject
  rw [if_neg (by omega)]

/-- What the admission of a CHECKED image shows. -/
theorem State.admitUmbra_shows (h : s.umbraState = 2) : (s.admitUmbra p).umbraState = (if s.umbraCode p = 0 then 3 else 4) ∧
    (s.admitUmbra p).get SEQ_UMBRA_STATUS.admit_err = s.umbraCode p ∧ (s.admitUmbra p).get SEQ_UMBRA_CERT.bound = s.umbraBound p % 2 ^ 18 ∧
    (s.umbraCode p ≠ 0 → (s.admitUmbra p).get SEQ_ERR.admit_rejected = 1) := by
  obtain ⟨u, hu, hstate, hbound⟩ : ∃ u : State, s.admitUmbra p = (if s.umbraCode p ≠ 0 then u.umbraReject (s.umbraCode p)
      else (u.put SEQ_UMBRA_STATUS.admit_err 0).put SEQ_UMBRA_STATUS.state 3) ∧ u.umbraState = 2 ∧ u.get SEQ_UMBRA_CERT.bound = s.umbraBound p % 2 ^ 18 := by
    unfold State.admitUmbra
    extract_lets st nw old tmin tmax pend c held x c' b u v
    rw [if_neg (fun hn => hn.1 h)]
    have hc : c' = s.umbraCode p := by
      by_cases h0 : c = 0
      · have hx : x = if s.seqState = 1 ∧ 2 ≤ old.fg.length ∧ ¬ held then admitExchange old nw tmin tmax p (max pend (s.get SEQ_PROMISE_ACT.ns))
            else (0, 0, 0) := if_congr (by simp [h0]) rfl rfl
        have hcode : s.umbraCode p = if s.seqState = 1 ∧ 2 ≤ old.fg.length ∧ ¬ held then
            (admitExchange old nw tmin tmax p (max pend (s.get SEQ_PROMISE_ACT.ns))).1 else 0 := if_neg (not_not.2 h0)
        rw [hcode, show c' = x.1 from if_pos h0, hx]
        split <;> rfl
      · exact (if_neg h0).trans (if_pos h0).symm
    refine ⟨u, ?_, ?_, ?_⟩
    · rw [hc, if_pos h]
    · rw [State.umbraState, State.get_put_apart (h := by decide), State.get_put_apart (h := by decide), State.get_put_apart (h := by decide)]
      exact h
    · rw [State.get_put_apart (h := by decide), State.get_put_apart (h := by decide), State.get_put_same]
      rfl
  have hcode : s.umbraCode p < 8 := State.umbraCode_lt
  by_cases h0 : s.umbraCode p = 0
  · have heq : s.admitUmbra p = (u.put SEQ_UMBRA_STATUS.admit_err 0).put SEQ_UMBRA_STATUS.state 3 := hu.trans (if_neg (not_not.2 h0))
    rw [heq, h0, State.umbraState, State.get_put_of_lt _ _ _ (by decide), State.get_put_apart (h := by decide), State.get_put_of_lt _ _ _ (by decide),
      State.get_put_apart (h := by decide), State.get_put_apart (h := by decide), hbound]
    exact ⟨rfl, rfl, rfl, fun hn => absurd rfl hn⟩
  · have heq : s.admitUmbra p = ((u.put SEQ_UMBRA_STATUS.state 4).put SEQ_UMBRA_STATUS.admit_err (s.umbraCode p)).err SEQ_ERR.admit_rejected :=
      hu.trans ((if_pos h0).trans (State.umbraReject_of_checked hstate _))
    have hfit : s.umbraCode p < 2 ^ SEQ_UMBRA_STATUS.admit_err.width := by
      show _ < 256
      omega
    rw [heq, if_neg h0, State.umbraState, State.get_err_apart (h := by decide), State.get_put_apart (h := by decide), State.get_put_of_lt _ _ _ (by decide),
      State.get_err_apart (h := by decide), State.get_put_of_lt _ _ _ hfit, State.get_err_apart (h := by decide), State.get_put_apart (h := by decide),
      State.get_put_apart (h := by decide), hbound]
    exact ⟨rfl, rfl, rfl, fun _ => State.get_err_same (h := rfl) ..⟩

/-- A run that completes, before it tests anything. -/
def State.admissionBegun (s : State) : State :=
  ((s.updSeq fun q => { q with admission := none }).inc SEQ_ADM_RUN_CNT.count).put SEQ_ADM_STATUS.busy 0

theorem State.admissionBegun_touches (s : State) : Touches [SEQ_ADM_RUN_CNT.count, SEQ_ADM_STATUS.busy] s s.admissionBegun :=
  ((Touches.refl.of_csr rfl).inc (by decide) _ _).put (by decide) _ _ _

theorem State.seq_admissionBegun (s : State) : s.admissionBegun.seq = { s.seq with admission := none } := by
  obtain ⟨csr, counts, hinc⟩ := (s.updSeq fun q => { q with admission := none }).inc_parts SEQ_ADM_RUN_CNT.count 0 0
  show ((s.updSeq fun q => { q with admission := none }).inc SEQ_ADM_RUN_CNT.count).seq = _
  rw [hinc]
  rfl

theorem State.half_admissionBegun (s : State) (h : Nat) : s.admissionBegun.half h = s.half h := by
  rw [State.half, s.seq_admissionBegun]
  rfl

theorem State.umbraHalf_admissionBegun (s : State) : s.admissionBegun.umbraHalf = s.umbraHalf := by
  rw [State.umbraHalf, State.umbraHalf, State.activeHalf, s.admissionBegun_touches _ (by decide)]
  rfl

theorem State.active_admissionBegun (s : State) : s.admissionBegun.active = s.active := by
  rw [State.active, State.active, s.half_admissionBegun, State.activeHalf, s.admissionBegun_touches _ (by decide)]
  rfl

theorem State.pSlow_admissionBegun (s : State) : s.admissionBegun.pSlow = s.pSlow := by
  unfold State.pSlow
  simp only [s.admissionBegun_touches ARR_ISL_CLK_PLAN.period_fs (by decide)]

theorem State.umbraCode_admissionBegun (s : State) (p : Nat) : s.admissionBegun.umbraCode p = s.umbraCode p := by
  have ht := s.admissionBegun_touches
  unfold State.umbraCode
  rw [s.umbraHalf_admissionBegun, s.half_admissionBegun, s.active_admissionBegun, s.seq_admissionBegun, State.seqState, State.seqState,
    ht GNO_PERIOD_MIN.period_fs (by decide), ht GNO_PERIOD_MAX.period_fs (by decide), ht SEQ_PROMISE_NS.ns (by decide),
    ht SEQ_PROMISE_ACT.ns (by decide), ht SEQ_STATUS.state (by decide), ht.bit (by decide)]

theorem State.umbraBound_admissionBegun (s : State) (p : Nat) : s.admissionBegun.umbraBound p = s.umbraBound p := by
  unfold State.umbraBound
  rw [s.umbraHalf_admissionBegun, s.half_admissionBegun, s.admissionBegun_touches GNO_PERIOD_MAX.period_fs (by decide)]

/-- With no proposal of Tarnish, the end of a run is all that happens. -/
theorem State.tarAdmission_of_none (h : s.tar.phase ≠ .proposed) : s.admissionComplete.tarAdmission = s.admissionComplete := by
  have honly : Only 0x18002100000000C2 s s.admissionComplete := State.admissionComplete_only Only.rfl Covers.refl
  exact if_pos (.inl (by rw [honly.tar (by decide)]; exact h))

/-- A run that other events have asked for the Umbra half alone. -/
theorem State.admissionComplete_umbra {a : Admission} (ha : s.seq.admission = some a) (hactive : a.active = false) (humbra : a.umbra = true)
    (hplan : a.plan = none) : s.admissionComplete = (s.admissionBegun.admitUmbra s.pSlow).publishActive := by
  rw [← s.pSlow_admissionBegun]
  unfold State.admissionComplete
  rw [ha]
  dsimp only
  rw [hplan, if_pos humbra, if_neg (by simp [hactive])]
  rfl

/-- What such a run shows of a CHECKED image. -/
theorem State.admissionComplete_checked {a : Admission} (ha : s.seq.admission = some a) (hactive : a.active = false) (humbra : a.umbra = true)
    (hplan : a.plan = none) (htar : s.tar.phase ≠ .proposed) (hst : s.umbraState = 2) :
    s.admissionComplete.tarAdmission.umbraState = (if s.umbraCode s.pSlow = 0 then 3 else 4) ∧
    s.admissionComplete.tarAdmission.get SEQ_UMBRA_STATUS.admit_err = s.umbraCode s.pSlow ∧
    s.admissionComplete.tarAdmission.get SEQ_UMBRA_CERT.bound = s.umbraBound s.pSlow % 2 ^ 18 ∧
    (s.umbraCode s.pSlow ≠ 0 → s.admissionComplete.tarAdmission.get SEQ_ERR.admit_rejected = 1) := by
  have hbegun : s.admissionBegun.umbraState = 2 := (s.admissionBegun_touches _ (by decide) _ _).trans hst
  have hshow := State.admitUmbra_shows (p := s.pSlow) hbegun
  rw [s.umbraCode_admissionBegun, s.umbraBound_admissionBegun] at hshow
  have hpub := (s.admissionBegun.admitUmbra s.pSlow).publishActive_touches
  rw [State.tarAdmission_of_none htar, State.admissionComplete_umbra ha hactive humbra hplan, State.umbraState, hpub _ (by decide), hpub _ (by decide),
    hpub _ (by decide), hpub _ (by decide)]
  exact hshow

/-- The Umbra half's image passes the checks on its own under the plan in force. -/
def State.umbraPasses (s : State) : Prop :=
  (s.half s.umbraHalf).facts.passes (s.get GNO_PERIOD_MIN.period_fs) (s.get GNO_PERIOD_MAX.period_fs) s.pSlow (s.get SEQ_PROMISE_NS.ns)

theorem State.umbraCode_idle (hst : s.seqState = 0) (h : s.umbraPasses) : s.umbraCode s.pSlow = 0 :=
  (if_neg (not_not.2 (admitCode_eq_zero_iff.2 h))).trans (if_neg (fun hn => absurd (hst.symm.trans hn.1) (by decide)))

theorem State.umbraCode_of_fails (h : ¬ s.umbraPasses) : s.umbraCode s.pSlow ≠ 0 ∧ s.umbraCode s.pSlow =
    if (s.half s.umbraHalf).facts.decOutside = true then 6 else if (s.half s.umbraHalf).facts.missing = true then 7
      else if waitShort (s.half s.umbraHalf).facts s.pSlow = true then 5
      else if s.get GNO_PERIOD_MIN.period_fs / s.pSlow - 3 < (s.half s.umbraHalf).facts.fg.sum then 1 else 2 := by
  have hne := mt admitCode_eq_zero_iff.1 h
  have hcode : s.umbraCode s.pSlow = _ := if_pos hne
  rw [hcode]
  exact ⟨hne, admitCode_of_fails h⟩

theorem State.umbraCode_exchange (hst : s.seqState = 1) (hlen : 2 ≤ s.active.facts.fg.length) (hheld : s.bit SEQ_ADM_STATUS.held = false)
    (h : s.umbraPasses) : s.umbraCode s.pSlow =
      (admitExchange s.active.facts (s.half s.umbraHalf).facts (s.get GNO_PERIOD_MIN.period_fs) (s.get GNO_PERIOD_MAX.period_fs) s.pSlow
        (max (s.get SEQ_PROMISE_NS.ns) (s.get SEQ_PROMISE_ACT.ns))).1 :=
  (if_neg (not_not.2 (admitCode_eq_zero_iff.2 h))).trans (if_pos ⟨hst, hlen, fun hn => by rw [hheld] at hn; exact absurd hn.1 (by decide)⟩)

end Runs

section Active

variable {s t u : State} {p : Nat}

/-- What the tests of a run leave: whether one is asked for, and the register that shows it. -/
def KeepsRun (s t : State) : Prop := t.seq.admission = s.seq.admission ∧ t.get SEQ_ADM_STATUS.busy = s.get SEQ_ADM_STATUS.busy

namespace KeepsRun

theorem refl : KeepsRun s s := ⟨rfl, rfl⟩

theorem trans (h : KeepsRun s t) (k : KeepsRun t u) : KeepsRun s u := ⟨k.1.trans h.1, k.2.trans h.2⟩

theorem ite {p : Prop} [Decidable p] (ht : KeepsRun s t) (hu : KeepsRun s u) : KeepsRun s (if p then t else u) := by
  split <;> assumption

theorem updSeq {f : Seq → Seq} (h : KeepsRun s t) (hf : (f t.seq).admission = t.seq.admission) : KeepsRun s (t.updSeq f) := h.trans ⟨hf, rfl⟩

theorem put {f : Fld} (h : KeepsRun s t) (hf : f.apart SEQ_ADM_STATUS.busy = true) (v i j : Nat) : KeepsRun s (t.put f v i j) :=
  h.trans ⟨rfl, State.get_put_apart (h := hf) ..⟩

theorem err {f : Fld} (h : KeepsRun s t) (hf : f.apart SEQ_ADM_STATUS.busy = true) (i inst detail j : Nat) : KeepsRun s (t.err f i inst detail j) :=
  h.trans ⟨rfl, State.get_err_apart (h := hf) ..⟩

theorem inc {f : Fld} (h : KeepsRun s t) (hf : f.apart SEQ_ADM_STATUS.busy = true) (i j : Nat) : KeepsRun s (t.inc f i j) := by
  obtain ⟨csr, counts, hinc⟩ := t.inc_parts f i j
  exact h.trans ⟨by rw [hinc], State.get_inc_apart (h := hf) ..⟩

end KeepsRun

theorem State.admission_glintsIdle (s : State) : s.glintsIdle.seq.admission = s.seq.admission :=
  foldl_keeps (P := fun t : State => t.seq.admission = s.seq.admission) rfl fun _ _ _ h => h

theorem State.dropLater_keepsRun (s : State) : KeepsRun s (s.dropLater false) := by
  refine ⟨?_, State.get_dropLater (by decide) rfl _ _ _⟩
  unfold State.dropLater
  extract_lets gone n u
  exact u.admission_glintsIdle

theorem State.hold_keepsRun (s : State) : KeepsRun s s.hold := by
  unfold State.hold
  extract_lets u
  have hu : KeepsRun s u := .updSeq .refl rfl
  exact .ite hu (((hu.put (by decide) _ _ _).err (by decide) _ _ _ _).trans (State.dropLater_keepsRun _))

/-- The code of the Active program's admission. -/
def State.activeCode (s : State) (p : Nat) : Nat :=
  admitCode s.active.facts (s.get GNO_PERIOD_MIN.period_fs) (s.get GNO_PERIOD_MAX.period_fs) p (min (s.get SEQ_PROMISE_NS.ns) (s.get SEQ_PROMISE_ACT.ns))

theorem State.admitActive_keepsRun (s : State) (p : Nat) (planned : Bool) : KeepsRun s (s.admitActive p planned).1 := by
  unfold State.admitActive
  split
  · exact .refl
  · extract_lets c u v
    have hv : KeepsRun s v := .ite (.put .refl (by decide) _ _ _) (.put (.put .refl (by decide) _ _ _) (by decide) _ _ _)
    split
    · exact .ite hv (hv.trans v.hold_keepsRun)
    · exact .ite (.updSeq hv rfl) hv

theorem State.umbraReject_keepsRun (s : State) (c : Nat) : KeepsRun s (s.umbraReject c) := by
  unfold State.umbraReject
  extract_lets u
  have hdisarm : Only 0x10000000002 s (s.disarm .exchange) := State.disarm_only Only.rfl Covers.refl
  have hbusy : KeepsRun s (s.disarm .exchange) := ⟨rfl, hdisarm.get (f := SEQ_ADM_STATUS.busy) (by decide) _ _⟩
  have hu : KeepsRun s u := .ite (hbusy.err (f := SEQ_ERR.exchange_cancelled) (by decide) _ _ _ _) .refl
  exact ((hu.put (by decide) _ _ _).put (by decide) _ _ _).err (by decide) _ _ _ _

theorem State.admitUmbra_keepsRun (s : State) (p : Nat) : KeepsRun s (s.admitUmbra p) := by
  unfold State.admitUmbra
  extract_lets st nw old tmin tmax pend c held x c' b u v
  have hu : KeepsRun s u := ((KeepsRun.refl.put (by decide) _ _ _).put (by decide) _ _ _).put (by decide) _ _ _
  have hv : KeepsRun s v := hu.put (by decide) _ _ _
  exact .ite .refl (.ite (hu.trans (u.umbraReject_keepsRun _)) (.ite (hv.put (by decide) _ _ _) hv))

theorem State.admitPlan_keepsRun (s : State) (pl : Plan) : KeepsRun s (s.admitPlan pl) := by
  have hactive := s.admitActive_keepsRun (pl.periods.foldl max 1) true
  unfold State.admitPlan
  extract_lets p
  generalize s.admitActive p true = r at hactive
  obtain ⟨u, c⟩ := r
  dsimp only at hactive ⊢
  exact .trans (.ite (.updSeq hactive rfl) (.updSeq (.err (.inc (hactive.put (by decide) _ _ _) (by decide) _ _) (by decide) _ _ _ _) rfl))
    (State.admitUmbra_keepsRun _ _)

theorem State.publishActive_keepsRun (s : State) : KeepsRun s s.publishActive := by
  have honly : Only 0xC0 s s.publishActive := State.publishActive_only Only.rfl Covers.refl
  exact ⟨congrArg Seq.admission (honly.seq (by decide)), s.publishActive_touches _ (by decide) _ _⟩

/-- A run that completes leaves none asked for. -/
theorem State.admissionComplete_ends {a : Admission} (ha : s.seq.admission = some a) : s.admissionComplete.seq.admission = none ∧
    s.admissionComplete.get SEQ_ADM_STATUS.busy = 0 := by
  have hkeep : KeepsRun s.admissionBegun s.admissionComplete := by
    unfold State.admissionComplete
    rw [ha]
    obtain ⟨v, hv⟩ : ∃ v, v = if a.active = true then (s.admissionBegun.admitActive s.admissionBegun.pSlow false).1 else s.admissionBegun := ⟨_, rfl⟩
    obtain ⟨w, hw⟩ : ∃ w, w = if a.umbra = true then v.admitUmbra v.pSlow else v := ⟨_, rfl⟩
    have hv' : KeepsRun s.admissionBegun v := hv ▸ .ite (State.admitActive_keepsRun _ _ _) .refl
    have hw' : KeepsRun s.admissionBegun w := hw ▸ .ite (hv'.trans (State.admitUmbra_keepsRun _ _)) hv'
    have hplan : KeepsRun s.admissionBegun (match a.plan with | none => w | some pl => w.admitPlan pl) := by
      split
      · exact hw'
      · exact hw'.trans (State.admitPlan_keepsRun _ _)
    subst hw hv
    exact hplan.trans (State.publishActive_keepsRun _)
  obtain ⟨hadm, hbusy⟩ := hkeep
  rw [hadm, hbusy, s.seq_admissionBegun]
  exact ⟨rfl, State.get_put_of_lt _ _ _ (by decide)⟩

/-- The Active program's code shows in SEQ_ADM_STATUS. -/
theorem State.admitActive_shows (p : Nat) (hact : s.hasActive = true) : (s.admitActive p false).1.get SEQ_ADM_STATUS.active_ok = b2n (s.activeCode p == 0) := by
  unfold State.admitActive
  rw [if_neg (by rw [hact]; decide)]
  extract_lets c u v
  have hfit : b2n (c == 0) < 2 ^ SEQ_ADM_STATUS.active_ok.width := by cases c == 0 <;> decide
  have hu : u.get SEQ_ADM_STATUS.active_ok = b2n (c == 0) := State.get_put_of_lt _ _ _ hfit
  have hv : v.get SEQ_ADM_STATUS.active_ok = b2n (c == 0) := by
    show (if c = 0 then u else u.put SEQ_ADM_STATUS.active_err c).get _ = _
    split
    · exact hu
    · exact (State.get_put_apart (h := by decide) ..).trans hu
  split
  · show v.hold.get _ = _
    refine Eq.trans ?_ hv
    unfold State.hold
    extract_lets w
    split
    · rfl
    · rw [State.get_dropLater (by decide) rfl, State.get_err_apart (h := by decide), State.get_put_apart (h := by decide)]
      rfl
  · show (if v.bit SEQ_ADM_STATUS.held = true then _ else v).get _ = _
    split <;> exact hv

/-- A run for the Active program alone. -/
theorem State.admissionComplete_active {a : Admission} (ha : s.seq.admission = some a) (hactive : a.active = true) (humbra : a.umbra = false)
    (hplan : a.plan = none) (htar : s.tar.phase ≠ .proposed) (hact : s.seqState ≠ 0) :
    s.admissionComplete.tarAdmission.get SEQ_ADM_STATUS.active_ok = b2n (s.activeCode s.pSlow == 0) := by
  have heq : s.admissionComplete = (s.admissionBegun.admitActive s.admissionBegun.pSlow false).1.publishActive := by
    unfold State.admissionComplete
    rw [ha]
    dsimp only
    rw [hplan, if_neg (by simp [humbra]), if_pos hactive]
    rfl
  have hbegun : s.admissionBegun.hasActive = true := by
    rw [State.hasActive, State.seqState, s.admissionBegun_touches _ (by decide)]
    exact bne_iff_ne.2 hact
  have ht := s.admissionBegun_touches
  have hcode : s.admissionBegun.activeCode s.pSlow = s.activeCode s.pSlow := by
    unfold State.activeCode
    rw [s.active_admissionBegun, ht GNO_PERIOD_MIN.period_fs (by decide), ht GNO_PERIOD_MAX.period_fs (by decide), ht SEQ_PROMISE_NS.ns (by decide),
      ht SEQ_PROMISE_ACT.ns (by decide)]
  rw [State.tarAdmission_of_none htar, heq, State.publishActive_touches _ _ (by decide), State.admitActive_shows _ hbegun, s.pSlow_admissionBegun, hcode]

end Active

/-- Settles O11: an admission's code decides what it shows, and what follows a change at a barrier leaves the registers that tell of it. -/
theorem programLoading : Obligations.ProgramLoading := by
  unfold Obligations.ProgramLoading
  refine ⟨fun s ha h1 h5 h6 => does_live rfl ha (State.programLoad_shows h1 h5 h6),
    fun s img ha hst himg hok => does_live rfl ha (State.loadDone_checked hst himg hok),
    fun s ha hst himg => does_live rfl ha (by rw [State.loadDone_missing hst himg]; exact s.loadFails_shows (by decide) (by decide)),
    fun s ha hst => does_live rfl ha (by rw [State.loadAbort_loading hst]; exact s.loadFails_shows (by decide) (by decide)),
    fun s ha hst hname => does_live rfl ha (State.exchangeArm_unnamed hst hname),
    fun s ha hst hdue => does_live rfl ha (State.exchangeCancel_armed hst hdue),
    fun s ha hdue hst => does_live rfl ha (State.penumbra_shows hdue hst),
    fun s v ha hst => does_live rfl ha (State.writePromise_idle v.toNat hst),
    fun s ha => does_live rfl ha (s.startAdmission_shows _ _ _),
    fun s a ha hadm htar => does_live rfl ha ?ends,
    fun s a ha hadm hactive humbra hplan htar hst hidle hout hmiss hwait hfg hbound => does_live rfl ha ?admitted,
    fun s a ha hadm hactive humbra hplan htar hst hfails => does_live rfl ha ?rejected,
    fun s a ha hadm hactive humbra hplan htar hst hrun hlen hheld hout hmiss hwait hfg hbound => does_live rfl ha ?beside,
    fun s a ha hadm hactive humbra hplan htar hact => does_live rfl ha ?active,
    fun s p ha hdue hp => does_live rfl ha ?plan⟩
  case ends =>
    rw [State.tarAdmission_of_none htar]
    exact State.admissionComplete_ends hadm
  case admitted =>
    obtain ⟨hstate, herr, hcert, -⟩ := State.admissionComplete_checked hadm hactive humbra hplan htar hst
    rw [State.umbraCode_idle hidle ⟨hout, hmiss, hwait, hfg, hbound⟩] at hstate herr
    exact ⟨hstate, herr, hcert⟩
  case rejected =>
    obtain ⟨hstate, herr, -, hrej⟩ := State.admissionComplete_checked hadm hactive humbra hplan htar hst
    obtain ⟨hne, hcode⟩ := s.umbraCode_of_fails hfails
    rw [if_neg hne] at hstate
    exact ⟨hstate, hrej hne, herr.trans hcode⟩
  case beside =>
    obtain ⟨hstate, herr, -, -⟩ := State.admissionComplete_checked hadm hactive humbra hplan htar hst
    rw [State.umbraCode_exchange hrun hlen hheld ⟨hout, hmiss, hwait, hfg, hbound⟩] at hstate herr
    exact ⟨hstate, herr.trans (Nat.mod_eq_of_lt (admitExchange_lt.trans (by decide))).symm⟩
  case active =>
    rw [State.admissionComplete_active hadm hactive humbra hplan htar hact]
    refine Iff.trans ?_ admitCode_eq_zero_iff
    show b2n (s.activeCode s.pSlow == 0) = 1 ↔ s.activeCode s.pSlow = 0
    by_cases h : s.activeCode s.pSlow = 0
    · simp [h, b2n]
    · simp [h, b2n]
  case plan =>
    rw [if_pos hdue]
    exact State.tarApply_shows (s := s.tookDue .plan) hp

/-! # Link slots, halo planes and frames (R286 to R289, R296 to R305) -/

section Crc

theorem crc32Byte_lt {c : Nat} (hc : c < 2 ^ 32) (b : BitVec 8) : crc32Byte c b < 2 ^ 32 := by
  unfold crc32Byte
  refine foldl_keeps (P := fun c : Nat => c < 2 ^ 32) (Nat.xor_lt_two_pow hc (b.isLt.trans (by decide))) fun c _ _ hc => ?_
  have hhalf : c >>> 1 < 2 ^ 32 := lt_of_le_of_lt (Nat.shiftRight_le c 1) hc
  split
  · exact Nat.xor_lt_two_pow hhalf (by decide)
  · exact hhalf

theorem crc32_lt (l : List (BitVec 8)) : crc32 l < 2 ^ 32 :=
  Nat.xor_lt_two_pow (foldl_keeps (P := fun c : Nat => c < 2 ^ 32) (by decide) fun _ _ _ hc => crc32Byte_lt hc _) (by decide)

/-- The EOF word of a frame with a payload of fewer than 2,048 words: its code, its count and its CRC. -/
theorem eofWord_parts {n crc : Nat} (hn : n < 2048) (hcrc : crc < 2 ^ 32) :
    (0x33 + (n % 2048) <<< 8 + crc <<< 32) % 256 = 0x33 ∧ bits (0x33 + (n % 2048) <<< 8 + crc <<< 32) 8 11 = n ∧
      bits (0x33 + (n % 2048) <<< 8 + crc <<< 32) 32 32 = crc ∧
      bits (0x33 + (n % 2048) <<< 8 + crc <<< 32) 8 24 = bits (0x33 + (n % 2048) <<< 8) 8 24 := by
  simp only [bits, Nat.shiftLeft_eq, Nat.shiftRight_eq_div_pow]
  refine ⟨?_, ?_, ?_, ?_⟩ <;> omega

end Crc

section Receive

variable {s t u : State} {j : Fin 12} {turn : Nat} {rx : Option (Nat × List Nat)}

/-- A state in which link `j` has brought a part of a frame: no register has changed, no word waits, and the next one comes on lane
`turn` of the group. -/
structure Receiving (s : State) (j : Fin 12) (turn : Nat) (rx : Option (Nat × List Nat)) (t : State) : Prop where
  csr : t.csr = s.csr
  posted : t.wor.posted = s.wor.posted
  turn : (t.wlink (.data j)).rxTurn = turn
  waits : (t.wlink (.data j)).waits = []
  rx : (t.wlink (.data j)).rx = rx

theorem State.wlink_updLink_same (s : State) (l : LinkId) (f : WLink → WLink) : (s.updLink l f).wlink l = f (s.wlink l) := Sparse.get_upd_same ..

theorem State.get_of_csr (h : t.csr = s.csr) (f : Fld) (i k : Nat) : t.get f i k = s.get f i k := by rw [State.get, State.get, h]

theorem State.linkState_of_csr (h : t.csr = s.csr) (l : LinkId) : t.linkState l = s.linkState l := by
  cases l <;> exact State.get_of_csr h ..

theorem State.linkWidth_of_csr (h : t.csr = s.csr) (k : Nat) : t.linkWidth k = s.linkWidth k := by
  rw [State.linkWidth, State.linkWidth, State.get_of_csr h]

theorem State.peerOn_of_csr (h : t.csr = s.csr) (side : Nat) : t.peerOn side = s.peerOn side := by
  have hside : t.linkOfSide side = s.linkOfSide side := by simp only [State.linkOfSide, State.bit, State.get_of_csr h]
  unfold State.peerOn
  rw [hside]
  split
  · rfl
  · rw [State.linkState_of_csr h, State.get_of_csr h]

theorem State.ownAddress_of_csr (h : t.csr = s.csr) : t.ownAddress = s.ownAddress := by
  unfold State.ownAddress State.addrBeyond
  rw [State.bit, State.bit, State.get_of_csr h, State.get_of_csr h, State.peerOn_of_csr h, State.peerOn_of_csr h]

/-- The next word in turn reaches the frame at once (R286). -/
theorem Receiving.laneWordIn (h : Receiving s j turn rx t) (room : Bool) (hst : 3 ≤ s.linkState (.data j)) (hturn : turn < s.linkWidth j.val) (w : LinkWord) :
    ∃ u, Receiving s j ((turn + 1) % s.linkWidth j.val) rx u ∧ t.laneWordIn j room turn w = u.frameWordIn j room w := by
  obtain ⟨hcsr, hposted, hrx, hwaits, hopen⟩ := h
  obtain ⟨v, hv⟩ : ∃ v, v = t.updLink (.data j) fun x => { x with waits := Sparse.upd [] x.waits turn fun ws => ws ++ [w] } := ⟨_, rfl⟩
  have hone : (v.wlink (.data j)).waits = [(turn, [w])] := by
    have hupd : (v.wlink (.data j)).waits = Sparse.upd [] (t.wlink (.data j)).waits turn fun ws => ws ++ [w] := by
      rw [hv, State.wlink_updLink_same]
    rw [hupd, hwaits]
    simp [Sparse.upd, Sparse.set, Sparse.erase, Sparse.insert, Sparse.get]
  have hvcsr : v.csr = s.csr := by rw [hv]; exact hcsr
  refine ⟨v.updLink (.data j) fun y => { y with waits := Sparse.set [] y.waits turn [], rxTurn := (turn + 1) % v.linkWidth j.val }, ⟨?_, ?_, ?_, ?_, ?_⟩, ?_⟩
  · exact hvcsr
  · rw [hv]
    exact hposted
  · rw [State.wlink_updLink_same, State.linkWidth_of_csr hvcsr]
  · rw [State.wlink_updLink_same]
    show Sparse.set [] (v.wlink (.data j)).waits turn [] = []
    rw [hone]
    simp [Sparse.set, Sparse.erase]
  · rw [State.wlink_updLink_same, hv, State.wlink_updLink_same]
    exact hopen
  · unfold State.laneWordIn
    rw [if_neg (by rw [State.linkState_of_csr hcsr, State.linkWidth_of_csr hcsr]; omega)]
    dsimp only
    rw [← hv, hone]
    show State.linkDeliver j room 1 v = _
    have hturn' : (v.wlink (.data j)).rxTurn = turn := by
      rw [hv, State.wlink_updLink_same]
      exact hrx
    unfold State.linkDeliver
    dsimp only
    rw [hone, hturn']
    have hget : Sparse.get [] [(turn, [w])] turn = [w] := if_pos rfl
    rw [hget]
    rfl

/-- A SOF word opens a frame (R288). -/
theorem Receiving.sof (h : Receiving s j turn none t) (room : Bool) (hst : 3 ≤ s.linkState (.data j)) {sof : Nat} (hsof : sof % 256 = 0x2D) :
    Receiving s j turn (some (sof, [])) (t.frameWordIn j room (true, sof)) := by
  obtain ⟨hcsr, hposted, hrx, hwaits, hopen⟩ := h
  have heq : t.frameWordIn j room (true, sof) = t.updLink (.data j) fun x => { x with rx := some (sof, []) } := by
    unfold State.frameWordIn
    dsimp only
    rw [if_neg (by rw [State.linkState_of_csr hcsr]; omega), if_pos rfl, hsof, hopen]
    rfl
  rw [heq]
  exact ⟨hcsr, hposted, by rw [State.wlink_updLink_same]; exact hrx, by rw [State.wlink_updLink_same]; exact hwaits, by rw [State.wlink_updLink_same]⟩

/-- A data word joins the open frame (R288). -/
theorem Receiving.data {sof : Nat} {back : List Nat} (h : Receiving s j turn (some (sof, back)) t) (room : Bool) (hst : 3 ≤ s.linkState (.data j)) (v : Nat) :
    Receiving s j turn (some (sof, v :: back)) (t.frameWordIn j room (false, v)) := by
  obtain ⟨hcsr, hposted, hrx, hwaits, hopen⟩ := h
  have heq : t.frameWordIn j room (false, v) = t.updLink (.data j) fun x => { x with rx := some (sof, v :: back) } := by
    unfold State.frameWordIn
    dsimp only
    rw [if_neg (by rw [State.linkState_of_csr hcsr]; omega), if_neg (by decide), hopen]
  rw [heq]
  exact ⟨hcsr, hposted, by rw [State.wlink_updLink_same]; exact hrx, by rw [State.wlink_updLink_same]; exact hwaits, by rw [State.wlink_updLink_same]⟩

/-- The lanes on which the words of a frame come in turn. -/
def laneTurns (r width i : Nat) (ws : List LinkWord) : List (Nat × LinkWord) := (ws.zipIdx i).map fun e => ((r + e.2) % width, e.1)

theorem Receiving.payload {r i sof : Nat} (room : Bool) (hst : 3 ≤ s.linkState (.data j)) (hr : r < s.linkWidth j.val) (ps : List Nat) {back : List Nat}
    (h : Receiving s j ((r + i) % s.linkWidth j.val) (some (sof, back)) t) :
    Receiving s j ((r + (i + ps.length)) % s.linkWidth j.val) (some (sof, ps.reverse ++ back))
      (t.frameIn j (laneTurns r (s.linkWidth j.val) i (ps.map fun w => (false, w))) room) := by
  induction ps generalizing t i back with
  | nil => exact h
  | cons v ps ih =>
    obtain ⟨u, hu, heq⟩ := h.laneWordIn room hst (Nat.mod_lt _ (by omega)) (false, v)
    have hnext := ih (i := i + 1) (t := u.frameWordIn j room (false, v)) (by
      have hdata := hu.data room hst v
      rwa [Nat.mod_add_mod] at hdata)
    show Receiving s j _ _ ((t.laneWordIn j room ((r + i) % s.linkWidth j.val) (false, v)).frameIn j (laneTurns r (s.linkWidth j.val) (i + 1) _) room)
    rw [heq, List.reverse_cons, List.append_assoc, List.length_cons, show i + (ps.length + 1) = i + 1 + ps.length by omega]
    exact hnext

/-- A good EOF word closes the frame, which is used (R288). -/
theorem Receiving.eof {sof last : Nat} {payload : List Nat} (h : Receiving s j turn (some (sof, payload.reverse)) t) (room : Bool)
    (hst : 3 ≤ s.linkState (.data j)) (hcode : last % 256 = 0x33) (hcount : bits last 8 11 = payload.length)
    (hcrc : bits last 32 32 = frameCrc sof payload last) : ∃ u, Receiving s j turn none u ∧
      t.frameWordIn j room (true, last) = u.goodFrame j sof payload room := by
  obtain ⟨hcsr, hposted, hrx, hwaits, hopen⟩ := h
  refine ⟨t.updLink (.data j) fun x => { x with rx := none },
    ⟨hcsr, hposted, by rw [State.wlink_updLink_same]; exact hrx, by rw [State.wlink_updLink_same]; exact hwaits, by rw [State.wlink_updLink_same]⟩, ?_⟩
  unfold State.frameWordIn
  dsimp only
  rw [if_neg (by rw [State.linkState_of_csr hcsr]; omega), if_pos rfl, hcode, hopen]
  dsimp only
  rw [List.reverse_reverse]
  exact if_pos ⟨hcount, hcrc⟩

/-- A bulk frame for this device lands where it fits (R302). -/
theorem Receiving.lands {sof d : Nat} {ws : List Nat} (h : Receiving s j turn none t) (room : Bool) (htype : bits sof 8 2 = 1)
    (hst : 3 ≤ s.linkState (.data j)) (hown : s.ownAddress = some (bits sof 12 18))
    (hlo : s.get WOR_RX_WIN_LO.base * 65536 + s.get WOR_RX_WIN_HI.base * 2 ^ 32 ≤ d % 2 ^ 40)
    (hhi : d % 2 ^ 40 + 8 * ws.length ≤ s.get WOR_RX_WIN_LO.base * 65536 + s.get WOR_RX_WIN_HI.base * 2 ^ 32 + s.get WOR_RX_WIN_HI.size * 65536)
    (hfill : s.rxFill j.val + 8 * ws.length ≤ 65536) :
    t.goodFrame j sof (d :: ws) room = t.updWor fun w => { w with posted := w.posted ++ postedWrites j.val (d % 2 ^ 40) (ws.map (leBytes 8)).flatten } := by
  obtain ⟨hcsr, hposted, -, -, -⟩ := h
  have hfill' : t.rxFill j.val = s.rxFill j.val := by rw [State.rxFill, State.rxFill, hposted]
  unfold State.goodFrame
  dsimp only
  rw [htype, if_neg (by rw [State.linkState_of_csr hcsr]; simp; omega), if_neg (by rw [State.ownAddress_of_csr hcsr, hown]; simp), if_neg (by decide)]
  unfold State.landFrame
  dsimp only
  rw [State.get_of_csr hcsr, State.get_of_csr hcsr, State.get_of_csr hcsr, if_neg (by omega), if_neg (by omega)]

theorem State.frameIn_append (t : State) (j : Fin 12) (l m : List (Nat × LinkWord)) (room : Bool) :
    t.frameIn j (l ++ m) room = (t.frameIn j l room).frameIn j m room := List.foldl_append ..

theorem laneTurns_append (r width i : Nat) (l m : List LinkWord) :
    laneTurns r width i (l ++ m) = laneTurns r width i l ++ laneTurns r width (i + l.length) m := by
  rw [laneTurns, List.zipIdx_append, List.map_append]
  rfl

/-- A whole good bulk frame for this device, within its window and its buffer, lands (R288, R289, R302). -/
theorem State.frameIn_lands {r sof d : Nat} {ws : List Nat} (room : Bool) (hturn : (s.wlink (.data j)).rxTurn = r) (hr : r < s.linkWidth j.val)
    (hwaits : (s.wlink (.data j)).waits = []) (hsof : sof % 256 = 0x2D) (htype : bits sof 8 2 = 1) (hlen : ws.length < 2047)
    (hst : 3 ≤ s.linkState (.data j)) (hopen : (s.wlink (.data j)).rx = none) (hown : s.ownAddress = some (bits sof 12 18))
    (hlo : s.get WOR_RX_WIN_LO.base * 65536 + s.get WOR_RX_WIN_HI.base * 2 ^ 32 ≤ d % 2 ^ 40)
    (hhi : d % 2 ^ 40 + 8 * ws.length ≤ s.get WOR_RX_WIN_LO.base * 65536 + s.get WOR_RX_WIN_HI.base * 2 ^ 32 + s.get WOR_RX_WIN_HI.size * 65536)
    (hfill : s.rxFill j.val + 8 * ws.length ≤ 65536) :
    (s.frameIn j (laneTurns r (s.linkWidth j.val) 0 (frameWords sof (d :: ws))) room).wor.posted =
        s.wor.posted ++ postedWrites j.val (d % 2 ^ 40) (ws.map (leBytes 8)).flatten ∧
      ((s.frameIn j (laneTurns r (s.linkWidth j.val) 0 (frameWords sof (d :: ws))) room).wlink (.data j)).rx = none := by
  have h0 : Receiving s j r none s := ⟨rfl, rfl, hturn, hwaits, hopen⟩
  obtain ⟨u, hu, hfirst⟩ := h0.laneWordIn room hst hr (true, sof)
  obtain ⟨v, hv⟩ : ∃ v, v = u.frameWordIn j room (true, sof) := ⟨_, rfl⟩
  have hv' : Receiving s j ((r + 1) % s.linkWidth j.val) (some (sof, [])) v := hv ▸ hu.sof room hst hsof
  have hpay := hv'.payload room hst hr (d :: ws)
  obtain ⟨x, hx⟩ : ∃ x, x = v.frameIn j (laneTurns r (s.linkWidth j.val) 1 ((d :: ws).map fun w => (false, w))) room := ⟨_, rfl⟩
  rw [← hx, List.append_nil] at hpay
  obtain ⟨eof, heof⟩ : ∃ eof, eof = 0x33 + ((d :: ws).length % 2048) <<< 8 := ⟨_, rfl⟩
  obtain ⟨last, hlast⟩ : ∃ last, last = eof + (frameCrc sof (d :: ws) eof) <<< 32 := ⟨_, rfl⟩
  obtain ⟨y, hy, hend⟩ := hpay.laneWordIn room hst (Nat.mod_lt _ (by omega)) (true, last)
  have heq : s.frameIn j (laneTurns r (s.linkWidth j.val) 0 (frameWords sof (d :: ws))) room = y.frameWordIn j room (true, last) := by
    have hwords : frameWords sof (d :: ws) = (true, sof) :: ((d :: ws).map (fun w => (false, w)) ++ [(true, last)]) := by
      rw [hlast, heof]; rfl
    rw [hwords]
    show (s.laneWordIn j room (r % s.linkWidth j.val) (true, sof)).frameIn j (laneTurns r (s.linkWidth j.val) 1 _) room = _
    rw [Nat.mod_eq_of_lt hr, hfirst, ← hv, laneTurns_append, State.frameIn_append, ← hx, List.length_map]
    exact hend
  obtain ⟨hcode, hcount, hcrc, hfield⟩ := eofWord_parts (n := (d :: ws).length) (crc := frameCrc sof (d :: ws) eof) (by simp; omega) (crc32_lt _)
  rw [← heof, ← hlast] at hcode hcount hcrc hfield
  have hcrc' : frameCrc sof (d :: ws) last = frameCrc sof (d :: ws) eof := by rw [frameCrc, frameCrc, hfield]
  obtain ⟨z, hz, hgood⟩ := hy.eof room hst hcode hcount (hcrc.trans hcrc'.symm)
  rw [heq, hgood, hz.lands room htype hst hown hlo hhi hfill]
  refine ⟨?_, hz.rx⟩
  show z.wor.posted ++ _ = _
  rw [hz.posted]

/-- The packets of a frame hold bytes, each within a block of 256 (R302). -/
theorem blockCuts_within (n a : Nat) (l : List (BitVec 8)) : ∀ e ∈ blockCuts n a l, 0 < e.2.length ∧ e.1 / 256 = (e.1 + e.2.length - 1) / 256 := by
  induction n generalizing a l with
  | zero => intro e he; cases he
  | succ n ih =>
    intro e he
    unfold blockCuts at he
    split at he
    · cases he
    · next hne =>
      rcases List.mem_cons.1 he with rfl | he
      · have hpos : l.length ≠ 0 := by simpa using hne
        dsimp only
        rw [List.length_take]
        omega
      · exact ih _ _ _ he

theorem postedWrites_within (k a : Nat) (l : List (BitVec 8)) : ∀ p ∈ postedWrites k a l, 0 < p.data.length ∧ p.addr / 256 = (p.addr + p.data.length - 1) / 256 := by
  intro p hp
  obtain ⟨e, he, rfl⟩ := List.mem_map.1 hp
  exact blockCuts_within _ _ _ e he

end Receive

section Slots

variable {s : State}

/-- A beacon lane in MATCHING or SERVICE sends the marker and its IDENT (R291). -/
theorem State.linkSlot_beacon (n : Fin 48) (extra : Bool) (h : 2 ≤ s.linkState (.beacon n)) : (s.linkSlot (.beacon n) extra).sent =
    s.sent ++ [.link (16 + n.val) ((if s.linkState (.beacon n) = 2 then fillIdle (s.slotWords (.beacon n) + b2n extra) [(true, s.slotWord.2), (true, s.identWord (.beacon n))]
      else [(true, s.slotWord.2), (true, s.identWord (.beacon n))]).map fun e => (n.val, e))] := by
  have hword : s.slotWord.1 = s ∨ s.slotWord.1 = s.tookFree := by
    unfold State.slotWord
    dsimp only
    split
    · exact .inl rfl
    · exact .inr rfl
  unfold State.linkSlot
  dsimp only
  rw [if_neg (by omega), if_neg (by omega)]
  generalize s.slotWord = w at hword
  obtain ⟨u, mark⟩ := w
  rcases hword with rfl | rfl <;> rfl

/-- A halo plane of the current slot is stored under its entry (R304, R305). -/
theorem State.haloFrame_stores {j : Fin 12} {payload : List Nat} {p : Nat × Nat} {k : Nat} (hst : s.linkState (.data j) = 4)
    (hside : s.get WOR_LINK_CFG.side j.val < 4) (hdelay : s.haloDelay = 0) (hnow : (s.wlink (.data j)).marker.bind s.indexAhead = some 0)
    (hp : haloPlanes (s.get WOR_LINK_CFG.side j.val) 8 payload = [p]) (hk : s.whaloEntry p.1 = some k) :
    Sparse.get 0 (s.haloFrame j payload).arr.halo (8 * s.get WOR_LINK_CFG.side j.val + k) = p.2 ∧
      ((s.haloFrame j payload).get ARR_WHALO_READY.ready).testBit (8 * s.get WOR_LINK_CFG.side j.val + k) = true := by
  have hk8 : k < 8 := List.mem_range.1 (List.mem_of_find?_eq_some hk)
  have heq : s.haloFrame j payload = s.storeHalo j.val (s.get WOR_LINK_CFG.side j.val) p := by
    unfold State.haloFrame
    dsimp only
    rw [if_neg (by omega), hnow, hdelay, hp]
    rfl
  obtain ⟨n, hn⟩ : ∃ n, n = 8 * s.get WOR_LINK_CFG.side j.val + k := ⟨_, rfl⟩
  have hn32 : n < 32 := by omega
  have hstore : s.storeHalo j.val (s.get WOR_LINK_CFG.side j.val) p =
      ({ s with arr := { s.arr with halo := Sparse.set 0 s.arr.halo n p.2 } } : State).setBit ARR_WHALO_READY.ready n true := by
    unfold State.storeHalo
    rw [hk, hn]
  rw [heq, hstore, ← hn]
  exact ⟨Sparse.get_set_same .., State.testBit_setBit true 0 0 hn32⟩

/-- A frame of the firmware is queued under a free tag (R300). -/
theorem State.txSend_queued {j : Fin 12} (htag : ∃ t < 32, s.wor.frames.all (fun f => f.tag ≠ t) = true)
    (hhop : s.firstHop (s.get WOR_TX_DST_HI.device) = some j) (hst : s.linkState (.data j) = 4) (hbulk : s.bit WOR_LINK_STATUS.bulk_ok j.val = true) :
    s.txSend.wor.frames.length = s.wor.frames.length + 1 ∧ s.txSend.get WOR_TX_STATUS.queued = (s.wor.frames.length + 1) % 64 ∧
      s.txSend.wor.frames.getLast?.map (fun f => (f.src, f.dst, f.device, f.words)) =
        some (8 * s.get WOR_TX_SRC_LO.addr + 2 ^ 32 * s.get WOR_TX_SRC_HI.addr, s.get WOR_TX_DST_LO.addr + 2 ^ 32 * s.get WOR_TX_DST_HI.addr,
          s.get WOR_TX_DST_HI.device, s.get WOR_TX_LEN.words) := by
  obtain ⟨k, hk, hfree⟩ := htag
  have hmem : k ∈ (List.range 32).filter fun t => s.wor.frames.all fun f => f.tag ≠ t := List.mem_filter.2 ⟨List.mem_range.2 hk, hfree⟩
  obtain ⟨u, f, hframes, hf, heq⟩ : ∃ (u : State) (f : TxFrame), u.wor.frames = s.wor.frames ++ [f] ∧ (f.src, f.dst, f.device, f.words) =
      (8 * s.get WOR_TX_SRC_LO.addr + 2 ^ 32 * s.get WOR_TX_SRC_HI.addr, s.get WOR_TX_DST_LO.addr + 2 ^ 32 * s.get WOR_TX_DST_HI.addr,
        s.get WOR_TX_DST_HI.device, s.get WOR_TX_LEN.words) ∧ s.txSend = (u.put WOR_TX_STATUS.tag f.tag).publishTx := by
    unfold State.txSend
    dsimp only
    rw [if_neg ?ready]
    case ready =>
      rw [hhop]
      rintro (hnone | hshut)
      · rw [List.isEmpty_iff.1 hnone] at hmem
        exact List.not_mem_nil hmem
      · exact hshut (by simp [hst, hbulk])
    generalize List.getD _ _ 0 = tag
    exact ⟨_, { tag := tag, src := 8 * s.get WOR_TX_SRC_LO.addr + 2 ^ 32 * s.get WOR_TX_SRC_HI.addr,
                dst := s.get WOR_TX_DST_LO.addr + 2 ^ 32 * s.get WOR_TX_DST_HI.addr, device := s.get WOR_TX_DST_HI.device,
                words := s.get WOR_TX_LEN.words }, rfl, rfl, rfl⟩
  rw [heq]
  refine ⟨?_, ?_, ?_⟩
  · show u.wor.frames.length = _
    rw [hframes, List.length_append]
    rfl
  · show ((u.put WOR_TX_STATUS.tag f.tag).put WOR_TX_STATUS.queued u.wor.frames.length).get WOR_TX_STATUS.queued = _
    rw [State.get_put_same, hframes, List.length_append]
    rfl
  · show u.wor.frames.getLast?.map _ = _
    rw [hframes, List.getLast?_concat, Option.map_some, hf]

/-- A frame that has not started is taken back (R300). -/
theorem State.txAbort_queued {tag : Nat} {f : TxFrame} (hf : s.wor.frames.find? (fun x => x.tag = tag) = some f) (hst : f.started = false) :
    (s.txAbort tag).wor.frames.all (fun x => x.tag ≠ tag) = true ∧ ((s.txAbort tag).get WOR_TX_ABORTED.tags).testBit tag = decide (tag < 32) ∧
      (s.txAbort tag).get WOR_TX_STATUS.queued = (s.txAbort tag).wor.frames.length % 64 := by
  obtain ⟨u, hu⟩ : ∃ u, u = s.updWor fun w => { w with frames := w.frames.filter fun x => x.tag ≠ tag } := ⟨_, rfl⟩
  have heq : s.txAbort tag = (u.setBit WOR_TX_ABORTED.tags tag true).publishTx := by
    unfold State.txAbort
    rw [hf, hu]
    dsimp only
    rw [if_neg (by rw [hst]; decide)]
  rw [heq]
  refine ⟨?_, ?_, State.get_put_same ..⟩
  · show u.wor.frames.all _ = true
    rw [hu]
    exact List.all_eq_true.2 fun x hx => (List.mem_filter.1 hx).2
  · rw [State.publishTx, State.get_put_apart (h := by decide), State.setBit, State.get_put_same, Nat.testBit_mod_two_pow]
    simp only [if_pos, Nat.testBit_or, Nat.testBit_two_pow_self, Bool.or_true, Bool.and_true]
    rfl

end Slots

/-- Settles O23: the words of a frame come one lane after the other, so each reaches the frame as it comes. -/
theorem worgaFrames : Obligations.WorgaFrames := by
  unfold Obligations.WorgaFrames
  refine ⟨fun s n extra ha h => does_live rfl ha ?slot, fun s n extra ha h => does_live rfl ha ?ident,
    fun s j payload p k ha hst hside hdelay hnow hp hk => does_live rfl ha (State.haloFrame_stores hst hside hdelay hnow hp hk),
    fun s j words room sof d ws ha hwords hturn hwaits hsof htype hlen hst hopen hown hlo hhi hfill => does_live rfl ha ?frame,
    fun s j ha htag hhop hst hbulk => does_live rfl ha (State.txSend_queued htag hhop hst hbulk),
    fun s tag f ha hf hst => does_live rfl ha (State.txAbort_queued hf hst),
    fun s tag f ha hf hst => exec_live rfl ha ?late⟩
  case slot => rw [State.linkSlot_beacon n extra (by omega), if_neg (by omega)]; rfl
  case ident => rw [State.linkSlot_beacon n extra (by omega), if_pos h]
  case frame =>
    rw [hwords]
    obtain ⟨hposted, hrx⟩ := State.frameIn_lands room rfl hturn hwaits hsof htype hlen hst hopen hown hlo hhi hfill
    exact ⟨hposted, hrx, postedWrites_within _ _ _⟩
  case late =>
    unfold State.txAbort
    rw [hf]
    exact if_pos hst

/-! # Accesses of the CSR space (R4, R36, R589 to R593) -/

section Writes

/-- A write of a register leaves all of the state but the registers, and does not depend on the reports. -/
theorem State.wrField_updErq (s : State) (q : Erq → Erq) (f : Fld) (m v i j : Nat) :
    (s.updErq q).wrField f m v i j = (s.wrField f m v i j).updErq q := by
  unfold State.wrField
  cases f.acc with
  | rw =>
    show (if bits m f.lsb f.width = 0 then _ else _) = State.updErq (if bits m f.lsb f.width = 0 then _ else _) q
    split <;> rfl
  | w1c | w1s | ro | wo | rc => rfl

theorem State.wrReg_updErq (s : State) (q : Erq → Erq) (page off m v : Nat) :
    (s.updErq q).wrReg page off m v = (s.wrReg page off m v).updErq q := by
  rw [State.wrReg_eq, State.wrReg_eq]
  exact List.foldl_hom (State.updErq · q) fun s x => s.wrField_updErq q x.1 m v x.2.1 x.2.2

theorem State.wrField_csr (s : State) (f : Fld) (m v i j : Nat) : ∃ csr, s.wrField f m v i j = { s with csr := csr } := by
  unfold State.wrField
  cases f.acc with
  | rw =>
    show ∃ csr, (if bits m f.lsb f.width = 0 then s else _) = _
    split
    · exact ⟨s.csr, rfl⟩
    · exact ⟨_, rfl⟩
  | w1c | w1s => exact ⟨_, rfl⟩
  | ro | wo | rc => exact ⟨s.csr, rfl⟩

theorem State.wrReg_csr (s : State) (page off m v : Nat) : ∃ csr, s.wrReg page off m v = { s with csr := csr } := by
  rw [State.wrReg_eq]
  generalize fieldsAt page off = l
  induction l generalizing s with
  | nil => exact ⟨s.csr, rfl⟩
  | cons x l ih =>
    obtain ⟨csr, hx⟩ := s.wrField_csr x.1 m v x.2.1 x.2.2
    obtain ⟨csr', hl⟩ := ih { s with csr := csr }
    exact ⟨csr', by rw [List.foldl_cons, hx, hl]⟩

/-- A write that reports nothing is no refusal and leaves the reports. -/
theorem State.watched_wrReg (s : State) (page off m v : Nat) :
    s.watched (fun s => s.wrReg page off m v) = (s.wrReg page off m v, false) := by
  obtain ⟨csr, h⟩ := s.wrReg_csr page off m v
  unfold State.watched
  dsimp only
  rw [State.wrReg_updErq, h]
  rfl

/-- A page whose registers no rule of R488 watches by itself, but for one of the dictionary's. -/
def plainPage (page off : Nat) : Bool := page != 12 && page != 13 && page != 18 && page != 20 && !(page == 15 && off == 8)

/-- A write of a register with no side effect of its unit's stores its fields. -/
theorem State.csrWrite_plain {s : State} {ini page off m v : Nat} (hpage : plainPage page off = true)
    (hunit : ∀ s : State, s.writeUnit ini page off m v = s.wrReg page off m v) : s.csrWrite ini page off m v = (s.wrReg page off m v, 0) := by
  simp only [plainPage, Bool.and_eq_true, bne_iff_ne, Bool.not_eq_true', Bool.and_eq_false_iff, beq_eq_false_iff_ne] at hpage
  obtain ⟨⟨⟨⟨h12, h13⟩, h18⟩, h20⟩, hcan⟩ := hpage
  unfold State.csrWrite
  rw [if_neg (fun h => h12 h.1), if_neg (fun h => h13 h.1), if_neg (fun h => h20 h.1), if_neg (fun h => hcan.elim (· h.1) (· h.2.1)),
    if_neg (fun h => h18 h.1), funext hunit, State.watched_wrReg]
  rfl

/-- An access of a whole register that no rule refuses writes it (R589). -/
theorem State.csrAccess_store {s : State} {page off v : Nat} (ini : Nat) (hword : csrReason (csrAddr page off) 4 = 0)
    (haddr : csrPage (csrAddr page off) = page ∧ csrOff (csrAddr page off) = off ∧ csrBits (csrAddr page off) 4 = allBits ∧ csrAddr page off % 4 = 0)
    (hpage : plainPage page off = true) (hv : v < 2 ^ 32) (hunit : ∀ s : State, s.writeUnit ini page off allBits v = s.wrReg page off allBits v) :
    s.csrAccess ini (csrAddr page off) 4 (some (leBytes 4 v)) = (s.wrReg page off allBits v, 0, []) := by
  obtain ⟨hp, ho, hbits, halign⟩ := haddr
  have hval : leNat (leBytes 4 v) * 2 ^ (8 * (csrAddr page off % 4)) = v := by
    rw [halign, leNat_leBytes, Nat.mod_eq_of_lt (by omega)]
    omega
  rw [State.csrAccess, if_neg (not_not.mpr hword), if_pos (Nat.le_refl 4), State.csrOne, hp, ho, hbits, hval, State.csrPut,
    State.csrWrite_plain hpage hunit]

/-- A command that writes a whole register of a unit without a rule of its own stores its fields. -/
theorem State.regWrite_word {s : State} {page off v : Nat} (ini : Nat) (hword : csrReason (csrAddr page off) 4 = 0)
    (haddr : csrPage (csrAddr page off) = page ∧ csrOff (csrAddr page off) = off ∧ csrBits (csrAddr page off) 4 = allBits ∧ csrAddr page off % 4 = 0)
    (hpage : plainPage page off = true) (hv : v < 2 ^ 32) (hunit : ∀ s : State, s.writeUnit ini page off allBits v = s.wrReg page off allBits v) :
    s.regWrite ini page off (leBytes 4 v) = s.onPage page off fun s => s.wrReg page off allBits v := by
  unfold State.regWrite
  congr 1
  funext s
  rw [length_leBytes, State.csrAccess_store ini hword haddr hpage hv hunit]
  rfl

end Writes

/-- A register outside the always-on domain acts while the domains run (R554). -/
theorem State.onPage_live (s : State) {page off : Nat} (f : State → State) (h : alwaysOnKey ((page * 65536 + off) * 32) = false) :
    s.onPage page off f = s.live f := by
  rw [State.onPage, h]
  rfl

section Gnomon

variable {s : State}

/-- The registers of Gnomon that the statement writes: their addresses name them and no rule of the unit stands between. -/
theorem gno_word {off : Nat} (hoff : off ∈ [0x10, 0x2C, 0x60]) : csrReason (csrAddr 1 off) 4 = 0 ∧ (csrPage (csrAddr 1 off) = 1 ∧
    csrOff (csrAddr 1 off) = off ∧ csrBits (csrAddr 1 off) 4 = allBits ∧ csrAddr 1 off % 4 = 0) ∧ plainPage 1 off = true ∧ alwaysOnKey ((1 * 65536 + off) * 32) = false := by
  revert off
  decide +kernel

/-- A write of a word to such a register. -/
theorem State.regWrite_gno {off : Nat} (ini : Nat) (v : BitVec 32) (ha : s.awake = true) (hoff : off ∈ [0x10, 0x2C, 0x60]) :
    s.regWrite ini 1 off (leBytes 4 v.toNat) = s.wrReg 1 off allBits v.toNat := by
  obtain ⟨hword, haddr, hpage, hlive⟩ := gno_word hoff
  rw [State.regWrite_word ini hword haddr hpage v.isLt fun s => ?unit]
  case unit =>
    simp only [List.mem_cons, List.not_mem_nil, or_false] at hoff
    rcases hoff with rfl | rfl | rfl <;> rfl
  rw [State.onPage_live _ _ hlive]
  exact if_pos ha

/-- A W1C bit is cleared by a 1 and kept by a 0. -/
theorem Fld.stored_w1c {f : Fld} (v old : Nat) (hacc : f.acc = .w1c) (hw : f.width = 1) (hm : bits allBits f.lsb 1 = 1) :
    f.stored allBits v old = if v.testBit f.lsb then 0 else old % 2 := by
  simp only [Fld.stored, hacc, hw, hm, bits_testBit]
  cases v.testBit f.lsb
  · exact congrArg (· % 2) (Nat.and_one_is_mod old) |>.trans (Nat.mod_mod ..)
  · exact congrArg (· % 2) (Nat.and_zero old)

/-- An offset without a register is refused and reported (R593). -/
theorem State.regWrite_undefined (ini : Nat) (v : BitVec 32) : s.regWrite ini 1 0x100 (leBytes 4 v.toNat) =
    s.live fun s => (s.report 1 noInst 0xF000 ((0x2000010100 : Nat) + 2 ^ 40 * ini + 2 ^ 46 * 1 + 2 ^ 48 * 3 + 2 ^ 56 * 1)).emit (.refused 1) := by
  rw [State.regWrite, State.onPage_live _ _ (by decide +kernel)]
  congr 1
  funext s
  rw [length_leBytes, State.csrAccess, if_pos (by decide +kernel)]
  rfl

theorem fieldsAt_mismatch : fieldsAt 1 0x68 = [(GNO_MISMATCH_CNT.count, 0, 0)] := by decide +kernel

theorem fieldsAt_orbitLo : fieldsAt 1 0x38 = [(GNO_ORBIT_LO.orbit, 0, 0)] := by decide +kernel

theorem fieldsAt_serialLo : fieldsAt 1 0x48 = [(GNO_SERIAL_LO.serial, 0, 0)] := by decide +kernel

/-- A register of one field from bit 0 on shows the field. -/
theorem State.regWord_alone (s : State) {page off i j : Nat} {f : Fld} (h : fieldsAt page off = [(f, i, j)]) (hwo : decide (f.acc = .wo) = false)
    (hl : f.lsb = 0) : s.regWord page off = s.get f i j := by
  rw [State.regWord_eq, h, List.foldl_cons, List.foldl_nil, if_neg (of_decide_eq_false hwo), hl, Nat.zero_or, Nat.shiftLeft_zero]

/-- A read clears the fields of its register that it covers (R590). -/
theorem State.readClear_eq (s : State) (page off m : Nat) : s.readClear page off m = (fieldsAt page off).foldl (fun s x =>
    if x.1.acc = .rc ∧ bits m (x.1.lsb / 8 * 8) ((x.1.lsb + x.1.width + 7) / 8 * 8 - x.1.lsb / 8 * 8) =
      2 ^ ((x.1.lsb + x.1.width + 7) / 8 * 8 - x.1.lsb / 8 * 8) - 1 then s.put x.1 0 x.2.1 x.2.2 else s) s := by
  rw [State.readClear, fieldsAt, List.foldl_filterMap]
  congr 1
  funext s f
  cases f.locate off <;> rfl

theorem State.readClear_mismatch (s : State) : s.readClear 1 0x68 allBits = s.put GNO_MISMATCH_CNT.count 0 := by
  rw [State.readClear_eq, fieldsAt_mismatch]
  rw [List.foldl_cons, List.foldl_nil, if_pos ⟨rfl, rfl⟩]

/-- A read of a word of Gnomon. -/
theorem State.regRead_gno {off : Nat} (ini : Nat) (ha : s.awake = true) (hoff : off ∈ [0x68, 0x38, 0x48]) :
    s.regRead ini 1 off 4 = (s.readEffect 1 off allBits).emit (.value (leNat (leBytes 4 (s.regWord 1 off)))) := by
  have hcheck : ∀ o ∈ [0x68, 0x38, 0x48], csrReason (csrAddr 1 o) 4 = 0 ∧ (csrPage (csrAddr 1 o) = 1 ∧ csrOff (csrAddr 1 o) = o ∧
      csrBits (csrAddr 1 o) 4 = allBits) ∧ csrAddr 1 o % 4 = 0 ∧ alwaysOnKey ((1 * 65536 + o) * 32) = false := by decide +kernel
  obtain ⟨hword, haddr, halign, hdomain⟩ := hcheck off hoff
  rw [State.regRead_word ini hword haddr (show (1 : Nat) ≠ 3 by decide), halign, State.onPage_live _ _ hdomain]
  exact (if_pos ha).trans (by dsimp only; rw [Nat.mul_zero, Nat.pow_zero, Nat.div_one]; rfl)

end Gnomon

/-- Settles O1: each access comes down to the fields of its register. -/
theorem registerAccess : Obligations.RegisterAccess := by
  unfold Obligations.RegisterAccess
  refine ⟨fun s ini v ha => ⟨_, congrArg Host.Outcome.next (State.regWrite_gno (off := 0x2C) ini.val v ha (by decide)), ?limit⟩,
    fun s ini v ha => ⟨_, congrArg Host.Outcome.next (State.regWrite_gno (off := 0x60) ini.val v ha (by decide)), ?cleared⟩,
    fun s ini v ha => ⟨_, congrArg Host.Outcome.next (State.regWrite_gno (off := 0x10) ini.val v ha (by decide)), ?kept⟩,
    fun s ini v ha => ?undefined, fun s ini ha => ?counted, fun s ini ha => ?orbit, fun s ini ha => ?serial⟩
  case limit =>
    refine ⟨?_, ?_⟩
    · show (s.wrReg 1 0x2C allBits v.toNat).get GNO_HOLDOVER.limit = _
      rw [State.get_wrReg_same (page := 1) (off := 0x2C) _ _ s rfl rfl (by decide +kernel) (by decide) (by decide) (by decide),
        Fld.stored_all _ _ rfl (by decide) rfl rfl]
      rfl
    · obtain ⟨csr, h⟩ := s.wrReg_csr 1 0x2C allBits v.toNat
      show (s.wrReg 1 0x2C allBits v.toNat).now = _ ∧ ∀ a, (s.wrReg 1 0x2C allBits v.toNat).byte a = _
      rw [h]
      exact ⟨rfl, fun _ => rfl⟩
  case cleared =>
    show (s.wrReg 1 0x60 allBits v.toNat).get GNO_ERR.xclk_lost = _ ∧ (s.wrReg 1 0x60 allBits v.toNat).get GNO_ERR.freq_window = _
    rw [State.get_wrReg_same (page := 1) (off := 0x60) _ _ s rfl rfl (by decide +kernel) (by decide) (by decide) (by decide),
      State.get_wrReg_same (page := 1) (off := 0x60) _ _ s rfl rfl (by decide +kernel) (by decide) (by decide) (by decide),
      Fld.stored_w1c _ _ rfl rfl rfl, Fld.stored_w1c _ _ rfl rfl rfl]
    exact ⟨rfl, rfl⟩
  case kept =>
    exact State.get_wrReg_same (page := 1) (off := 0x10) _ _ s rfl rfl (by decide +kernel) (by decide) (by decide) (by decide)
  case undefined => exact congrArg Host.Outcome.next ((State.regWrite_undefined ini.val v).trans (if_pos ha))
  case counted =>
    refine ⟨_, congrArg Host.Outcome.next (State.regRead_gno (off := 0x68) ini.val ha (by decide)), ?_, ?_⟩
    · show (s.readClear 1 0x68 allBits).get GNO_MISMATCH_CNT.count = 0
      rw [s.readClear_mismatch]
      exact State.get_put_same ..
    · show (s.readClear 1 0x68 allBits).sent ++ [_] = _
      rw [s.readClear_mismatch, s.regWord_alone fieldsAt_mismatch rfl rfl, leNat_leBytes]
      rfl
  case orbit =>
    refine ⟨_, congrArg Host.Outcome.next (State.regRead_gno (off := 0x38) ini.val ha (by decide)), State.get_put_same .., ?_⟩
    rw [s.regWord_alone fieldsAt_orbitLo rfl rfl, leNat_leBytes]
    rfl
  case serial =>
    refine ⟨_, congrArg Host.Outcome.next (State.regRead_gno (off := 0x48) ini.val ha (by decide)), (State.get_put_same ..).trans ?_, ?_⟩
    · rw [State.shownSerial]
      cases s.gno.tags.head? <;> rfl
    · rw [s.regWord_alone fieldsAt_serialLo rfl rfl, leNat_leBytes]
      rfl

/-! # The management port, the register windows and the mirror of the journal (R500, R513, R517) -/

section Windows

variable {s : State}

/-- Counting a request changes no right. -/
theorem State.rightsOf_inc (s : State) (src : ReqSrc) : (s.inc DIC_REQ_CNT.count).rightsOf src = s.rightsOf src := by
  have hclient : ∀ ip, (s.inc DIC_REQ_CNT.count).clientOf ip = s.clientOf ip := fun ip => List.find?_congr fun n hn => by
    have hn : n < 16 := List.mem_range.1 hn
    rw [State.bit, State.get_inc_parted (h := by decide) (by decide) (by decide) hn (by decide),
      State.get_inc_parted (h := by decide) (by decide) (by decide) hn (by decide),
      State.get_inc_parted (h := by decide) (by decide) (by decide) hn (by decide)]
    rfl
  cases src with
  | usdo | rpdo => exact State.get_inc_apart _ _ _ _ _ (by decide)
  | lantern ip a b =>
    simp only [State.rightsOf, hclient]
    cases hn : s.clientOf ip with
    | none => exact State.get_inc_apart _ _ _ _ _ (by decide)
    | some n =>
      have hn : n < 16 := List.mem_range.1 (List.mem_of_find?_eq_some hn)
      exact State.get_inc_parted (by decide) (by decide) (by decide) hn (by decide) _
  | replay => rfl

/-- The object that shows the register of a window (R513). -/
def windowObj (w : Fin 256) : ObjInfo := { ty := .u32, acc := .rw, kind := .own, n := w.val, i := 0 }

theorem objInfo_window : ∀ w : Fin 256, objInfo (0x4000 + w.val) 2 = .ok (windowObj w) := by decide +kernel

theorem State.readCheck_window (w : Fin 256) (src : ReqSrc) (h : (s.rightsOf src).testBit 0 = true) :
    s.readCheck src (0x4000 + w.val) 2 none = .ok (windowObj w) := by
  rw [State.readCheck, objInfo_window]
  show (if ¬ (s.rightsOf src).testBit 0 = true then Except.error 0x06010000 else Except.ok (windowObj w)) = _
  rw [if_neg (not_not.2 h)]

theorem writeRight_window : ∀ w : Fin 256, writeRight (0x4000 + w.val) = 3 := by decide +kernel

theorem State.writeCheck_window (w : Fin 256) (src : ReqSrc) (h : (s.rightsOf src).testBit 3 = true) :
    s.writeCheck src (0x4000 + w.val) 2 none 4 = .ok (windowObj w) := by
  rw [State.writeCheck, objInfo_window]
  show (if ¬ (s.rightsOf src).testBit (writeRight (0x4000 + w.val)) = true then Except.error 0x06010000 else Except.ok (windowObj w)) = _
  rw [writeRight_window, if_neg (not_not.2 h)]

theorem State.windowAddr_journal {w : Nat} (h : Sparse.get 0 s.dic.windows w = 0x0F0038) : s.windowAddr w = csrAddr 15 0x38 := by
  rw [State.windowAddr, h]
  decide

theorem fieldsAt_journalSel : fieldsAt 15 0x38 = [(DIC_JNL_SEL.seq, 0, 0)] := by decide +kernel

/-- A read of DIC_JNL_SEL through a window. -/
theorem State.windowAccess_read {w : Nat} (h : Sparse.get 0 s.dic.windows w = 0x0F0038) :
    s.windowAccess w none = (s, 0, leBytes 4 (s.get DIC_JNL_SEL.seq)) := by
  have hclear : s.readEffect 15 0x38 allBits = s := by
    show s.readClear 15 0x38 allBits = s
    rw [State.readClear_eq, fieldsAt_journalSel, List.foldl_cons, List.foldl_nil, if_neg (fun h => by cases h.1)]
  rw [State.windowAccess, s.windowAddr_journal h, State.csrAccess_word (page := 15) (off := 0x38) 17 (by decide +kernel) (by decide +kernel) (by decide), hclear]
  dsimp only
  rw [s.windowAddr_journal h]
  show (s, 0, leBytes 4 (s.regWord 15 0x38 / 1)) = _
  rw [Nat.div_one, s.regWord_alone fieldsAt_journalSel rfl rfl]

/-- A write of it. -/
theorem State.windowAccess_write {w v : Nat} (h : Sparse.get 0 s.dic.windows w = 0x0F0038) (hv : v < 2 ^ 32) :
    s.windowAccess w (some (leBytes 4 v)) = (s.wrReg 15 0x38 allBits v, 0, []) := by
  rw [State.windowAccess, s.windowAddr_journal h, State.csrAccess_store 17 (by decide +kernel) (by decide +kernel) (by decide) hv fun _ => rfl]
  obtain ⟨csr, hwr⟩ := s.wrReg_csr 15 0x38 allBits v
  have haddr : (s.wrReg 15 0x38 allBits v).windowAddr w = csrAddr 15 0x38 := by
    rw [hwr]
    exact s.windowAddr_journal h
  dsimp only
  rw [haddr]
  rfl

/-- The source of a request through a window. -/
def windowSrc (client : Option (BitVec 32)) : ReqSrc :=
  match client with
  | some ip => .lantern ip.toNat 0 0
  | none => .usdo

theorem State.dicRead_window {w : Fin 256} (src : ReqSrc) (hw : Sparse.get 0 s.dic.windows w.val = 0x0F0038) (h : (s.rightsOf src).testBit 0 = true) :
    s.dicRead src (0x4000 + w.val) 2 none = (s.inc DIC_REQ_CNT.count, 0, leBytes 4 (s.get DIC_JNL_SEL.seq)) := by
  have hdic : Sparse.get 0 (s.inc DIC_REQ_CNT.count).dic.windows w.val = 0x0F0038 := by
    obtain ⟨csr, counts, hinc⟩ := State.inc_parts s DIC_REQ_CNT.count 0 0
    rw [hinc]
    exact hw
  have hread : (s.inc DIC_REQ_CNT.count).objRead (windowObj w) (0x4000 + w.val) 2 =
      (s.inc DIC_REQ_CNT.count, 0, leBytes 4 (s.get DIC_JNL_SEL.seq)) := by
    have hacc : (s.inc DIC_REQ_CNT.count).windowAccess (windowObj w).n none =
        (s.inc DIC_REQ_CNT.count, 0, leBytes 4 (s.get DIC_JNL_SEL.seq)) := by
      rw [windowObj, State.windowAccess_read hdic, State.get_inc_apart (h := by decide)]
    unfold State.objRead
    dsimp only [windowObj] at hacc ⊢
    rw [if_neg (by omega), if_pos (by omega), hacc]
    rfl
  rw [State.dicRead, State.readCheck_window w src (by rw [State.rightsOf_inc]; exact h)]
  dsimp only
  rw [if_neg (show (windowObj w).ty ≠ .domain from ObjTy.noConfusion), hread]
  rfl

theorem State.windowCommand_read {w : Fin 256} (client : Option (BitVec 32)) (hw : Sparse.get 0 s.dic.windows w.val = 0x0F0038)
    (h : (s.rightsOf (windowSrc client)).testBit 0 = true) :
    (s.windowCommand (client.map BitVec.toNat) w.val none).sent = s.sent ++ [.value (s.get DIC_JNL_SEL.seq % 2 ^ 32)] := by
  have heq : s.windowCommand (client.map BitVec.toNat) w.val none = (let p := s.dicRead (windowSrc client) (0x4000 + w.val) 2 none
      if p.2.1 = 0 then p.1.emit (.value (leNat p.2.2)) else p.1) := by
    cases client <;> rfl
  rw [heq, State.dicRead_window _ hw h]
  show (s.inc DIC_REQ_CNT.count).sent ++ [.value (leNat (leBytes 4 (s.get DIC_JNL_SEL.seq)))] = _
  obtain ⟨csr, counts, hinc⟩ := State.inc_parts s DIC_REQ_CNT.count 0 0
  rw [hinc, leNat_leBytes]
  rfl

/-- A request under way has been counted and has marked the engine as busy. -/
def State.underWay (s : State) : State := (s.inc DIC_REQ_CNT.count).updDic fun d => { d with busy := true }

/-- A write of DIC_JNL_SEL through a window is recorded. -/
theorem State.dicWrite_window {w : Fin 256} {v : Nat} (src : ReqSrc) (hsrc : src ≠ .replay) (hw : Sparse.get 0 s.dic.windows w.val = 0x0F0038)
    (hv : v < 2 ^ 32) (h : (s.rightsOf src).testBit 3 = true) :
    ∃ e, (s.dicWrite src (0x4000 + w.val) 2 none (leBytes 4 v)).1 =
      ((s.underWay.wrReg 15 0x38 allBits v).updDic fun d => { d with busy := false }).recordEntry e := by
  have hdic : Sparse.get 0 s.underWay.dic.windows w.val = 0x0F0038 := by
    obtain ⟨csr, counts, hinc⟩ := State.inc_parts s DIC_REQ_CNT.count 0 0
    rw [State.underWay, hinc]
    exact hw
  have hval : leNat (leBytes 4 v) = v := (leNat_leBytes 4 v).trans (Nat.mod_eq_of_lt hv)
  have hacc : s.underWay.windowWrite (windowObj w).n v = (s.underWay.wrReg 15 0x38 allBits v, 0) := by
    rw [windowObj, State.windowWrite, State.windowAccess_write hdic hv, s.underWay.windowAddr_journal hdic]
    rfl
  have hbusy : (s.underWay.wrReg 15 0x38 allBits v).dic.busy = true := by
    obtain ⟨csr, hwr⟩ := s.underWay.wrReg_csr 15 0x38 allBits v
    rw [hwr]
    rfl
  have hwindow : isWindow (0x4000 + w.val) 2 = true := by
    rw [isWindow, show (0x4000 + w.val) / 256 = 0x40 by omega]
    rfl
  unfold State.dicWrite
  dsimp only
  rw [length_leBytes, State.writeCheck_window w src (by rw [State.rightsOf_inc]; exact h)]
  dsimp only
  rw [if_neg (show (windowObj w).ty ≠ .domain from ObjTy.noConfusion), hval, State.marked, if_pos hwindow, ← State.underWay, hacc,
    if_neg (not_not.2 hbusy), State.finishWrite, State.abortCode, if_pos rfl, State.journal, if_neg hsrc]
  exact ⟨_, rfl⟩

theorem State.windowCommand_write {w : Fin 256} (client : Option (BitVec 32)) (v : BitVec 32) (hw : Sparse.get 0 s.dic.windows w.val = 0x0F0038)
    (h : (s.rightsOf (windowSrc client)).testBit 3 = true) {r : State}
    (hr : s.windowCommand (client.map BitVec.toNat) w.val (some v.toNat) = r) :
    r.get DIC_JNL_SEL.seq = v.toNat ∧ r.sent = s.sent ∧ r.get DIC_JNL_NEXT.seq = (s.get DIC_JNL_NEXT.seq + 1) % 2 ^ 32 := by
  have heq : s.windowCommand (client.map BitVec.toNat) w.val (some v.toNat) =
      (s.dicWrite (windowSrc client) (0x4000 + w.val) 2 none (leBytes 4 v.toNat)).1 := by
    cases client <;> rfl
  obtain ⟨e, hdic⟩ := State.dicWrite_window (windowSrc client) (by cases client <;> exact ReqSrc.noConfusion) hw v.isLt h
  obtain ⟨u, hu⟩ : ∃ u, u = (s.underWay.wrReg 15 0x38 allBits v.toNat).updDic fun d => { d with busy := false } := ⟨_, rfl⟩
  obtain ⟨hkeep, hnext⟩ := State.recordEntry_shows u e
  have hsel : u.get DIC_JNL_SEL.seq = v.toNat := by
    rw [hu]
    show (s.underWay.wrReg 15 0x38 allBits v.toNat).get DIC_JNL_SEL.seq = _
    rw [State.get_wrReg_same (page := 15) (off := 0x38) _ _ _ rfl rfl (by decide +kernel) (by decide) (by decide) (by decide),
      Fld.stored_all _ _ rfl (by decide) rfl rfl]
    exact Nat.mod_eq_of_lt v.isLt
  have hold : u.get DIC_JNL_NEXT.seq = s.get DIC_JNL_NEXT.seq := by
    rw [hu]
    show (s.underWay.wrReg 15 0x38 allBits v.toNat).get DIC_JNL_NEXT.seq = _
    rw [State.get_wrReg_off _ _ _ (by decide +kernel) (by decide) (by decide) (by decide)]
    exact State.get_inc_apart _ _ _ _ _ (by decide)
  have hsent : u.sent = s.sent := by
    obtain ⟨csr, hwr⟩ := s.underWay.wrReg_csr 15 0x38 allBits v.toNat
    obtain ⟨csr', counts, hinc⟩ := State.inc_parts s DIC_REQ_CNT.count 0 0
    rw [hu, hwr, State.underWay, hinc]
    rfl
  rw [← hr, heq, hdic, ← hu, hkeep.shows _ (by decide), hsel, hnext, hold]
  exact ⟨rfl, ((State.recordEntry_only Only.rfl Covers.refl).sent (by decide)).trans hsent, rfl⟩

end Windows

section Port

variable {s : State}

@[simp] theorem length_beBytes (n v : Nat) : (beBytes n v).length = n := by
  rw [beBytes, List.length_reverse, length_leBytes]

theorem length_ipHeader (dscp ttl len ident proto src dst : Nat) : (ipHeader dscp ttl len ident proto src dst).length = 20 := by
  simp [ipHeader]

/-- An echo within the limit is answered with the data of the request. -/
theorem State.mgtEcho_answers {t mac ip target : Nat} {rest : List (BitVec 8)} (htarget : target = s.get DIC_MGT_IP.ip)
    (hon : s.bit DIC_CTRL.lan_en = true) (hroom : s.dic.echoSecond ≠ max s.now t / 10 ^ 15 ∨ s.dic.echoes < 100) :
    (s.mgtEcho t mac ip target rest).dic.echoes = (if s.dic.echoSecond = max s.now t / 10 ^ 15 then s.dic.echoes else 0) + 1 ∧
      ∃ b, (s.mgtEcho t mac ip target rest).sent = s.sent ++ [.mgt b] ∧ b.drop 38 = rest := by
  have hless : ¬ 100 ≤ if s.dic.echoSecond = max s.now t / 10 ^ 15 then s.dic.echoes else 0 := by
    split
    · next h => exact Nat.not_le.2 (hroom.resolve_left (not_not.2 h))
    · decide
  unfold State.mgtEcho
  extract_lets u sec n body open_ head w
  have htarget' : ¬ target ≠ u.get DIC_MGT_IP.ip := not_not.2 htarget
  have hon' : ¬ ¬ u.bit DIC_CTRL.lan_en = true := not_not.2 hon
  have hn : ¬ 100 ≤ n := hless
  rw [if_neg htarget', if_neg hon', if_neg hn]
  refine ⟨rfl, _, rfl, ?_⟩
  rw [← List.append_assoc]
  exact List.drop_left' (by simp [head, length_ipHeader])

/-- An echo past the limit is dropped. -/
theorem State.mgtEcho_full {t mac ip target : Nat} {rest : List (BitVec 8)} (hon : s.bit DIC_CTRL.lan_en = true)
    (hsec : s.dic.echoSecond = max s.now t / 10 ^ 15) (hfull : 100 ≤ s.dic.echoes) :
    (s.mgtEcho t mac ip target rest).sent = s.sent ∧
      (s.mgtEcho t mac ip target rest).get DIC_LAN_DROP_CNT.count = min (2 ^ 32 - 1) (s.get DIC_LAN_DROP_CNT.count + 1) := by
  have hdrop : s.mgtEcho t mac ip target rest = (s.at t).lanDrop := by
    unfold State.mgtEcho
    extract_lets u sec n body open_ head w
    split
    · rfl
    · refine (if_neg (not_not.2 hon)).trans ?_
      exact if_pos (by rw [show n = s.dic.echoes from if_pos hsec]; exact hfull)
  rw [hdrop]
  refine ⟨?_, State.get_inc_rc _ _ _ rfl⟩
  obtain ⟨csr, counts, hinc⟩ := State.inc_parts (s.at t) DIC_LAN_DROP_CNT.count 0 0
  rw [State.lanDrop, hinc]
  rfl

theorem State.journalMirror_done {e : JnlEntry} {l : List JnlEntry} (h : s.unmirrored = e :: l) :
    (s.journalMirror true).flash = s.flash.program (0x1800000 + 40 * (e.seq % 65536)) e.bytes ∧
      (s.journalMirror true).get DIC_JNL_MIRROR.seq = (e.seq + 1) % 2 ^ 32 ∧ (s.journalMirror true).get DIC_STATUS.mirror_ok = 1 := by
  unfold State.journalMirror
  rw [h]
  exact ⟨rfl, (State.get_put_apart _ _ _ _ _ _ (by decide)).trans (State.get_put_same ..), State.get_put_same ..⟩

theorem State.journalMirror_fails (h : s.unmirrored ≠ []) :
    (s.journalMirror false).flash = s.flash ∧ (s.journalMirror false).get DIC_STATUS.mirror_ok = 0 ∧
      (s.journalMirror false).get DIC_ERR.mirror_fail = 1 ∧ (s.journalMirror false).get BOT_ERR.flash_fail = 1 := by
  obtain ⟨e, l, hl⟩ := List.exists_cons_of_ne_nil h
  have heq : s.journalMirror false = ((s.put DIC_STATUS.mirror_ok 0).err DIC_ERR.mirror_fail).err BOT_ERR.flash_fail := by
    unfold State.journalMirror
    rw [hl]
    rfl
  rw [heq]
  refine ⟨rfl, ?_, ?_, State.get_err_same (h := rfl) ..⟩
  · rw [State.get_err_apart (h := by decide), State.get_err_apart (h := by decide), State.get_put_same]
    rfl
  · rw [State.get_err_apart (h := by decide)]
    exact State.get_err_same (h := rfl) ..

end Port

/-- Settles O32: a window request is one access of its register between the counting and the record. -/
theorem managementPort : Obligations.ManagementPort := by
  unfold Obligations.ManagementPort
  refine ⟨fun s client w ha hw h => does_live rfl ha ?read, fun s client w v ha hw h => does_live rfl ha ?write,
    fun s ip mac target ha hon htarget => does_live rfl ha ?arp, fun s ip mac target ha _ htarget => exec_live rfl ha (if_pos htarget),
    fun s t mac ip target rest ha hon htarget hroom => does_live rfl ha ?echo, fun s t mac ip target rest ha hon hsec hfull => does_live rfl ha ?full,
    fun s locked ha => exec_live rfl ha rfl, fun s e l ha hl => does_alive rfl ha ?mirrored, fun s ha hl => does_alive rfl ha ?failed⟩
  case read => exact State.windowCommand_read client hw (by cases client <;> exact h)
  case write => exact State.windowCommand_write client v hw (by cases client <;> exact h) rfl
  case arp =>
    unfold State.mgtArp
    rw [if_neg (not_not.2 htarget), if_neg (not_not.2 hon)]
    rfl
  case echo => exact State.mgtEcho_answers htarget hon hroom
  case full => exact State.mgtEcho_full hon hsec hfull
  case mirrored => exact State.journalMirror_done hl
  case failed => exact State.journalMirror_fails hl

/-! # The head of the error queue, the SMBus target and the test access port (R600, R629, R634 to R640) -/

section Queue

variable {s : State}

/-- The head goes to the holding buffer and is taken. -/
theorem State.erqHead_takes {e : ErrEntry} {es : List ErrEntry} (h : s.erq.entries = e :: es) :
    s.erqHead.erq.entries = { e with taken := true } :: es ∧ s.erqHead.erq.hold = e.bytes ∧ s.erqHead.get ERQ_STATUS.head_taken = 1 ∧
      s.erqHead.sent = s.sent := by
  have heq : s.erqHead = (s.updErq fun q => { q with hold := e.bytes, entries := { e with taken := true } :: es }).publishErq := by
    unfold State.erqHead
    rw [h]
  rw [heq]
  exact ⟨rfl, rfl, State.get_put_same .., rfl⟩

theorem State.erqPop_head {e : ErrEntry} {es : List ErrEntry} {seq : Nat} (h : s.erq.entries = e :: es) (ht : e.taken = true) (hseq : e.seq = seq) :
    (s.erqPop seq).1.erq.entries = es ∧ (s.erqPop seq).1.get ERQ_STATUS.used = es.length % 512 := by
  have heq : (s.erqPop seq).1 = (s.updErq fun q => { q with entries := es }).publishErq := by
    unfold State.erqPop
    rw [h]
    dsimp only
    rw [if_pos ⟨ht, hseq⟩]
  rw [heq]
  exact ⟨rfl, ((State.get_put_apart _ _ _ _ _ _ (by decide)).trans (State.get_put_apart _ _ _ _ _ _ (by decide))).trans (State.get_put_same ..)⟩

theorem State.erqPop_refuses {e : ErrEntry} {es : List ErrEntry} {seq : Nat} (h : s.erq.entries = e :: es) (hno : e.taken = false ∨ e.seq ≠ seq) :
    (s.erqPop seq).1 = s.put ERQ_ERR.pop_refused 1 := by
  unfold State.erqPop
  rw [h]
  dsimp only
  rw [if_neg fun hyes => hno.elim (by simp [hyes.1]) (· hyes.2)]

/-- While the domains run the reports of every unit leave. -/
theorem State.onReports_awake (page core : Nat) (f : State → State) (ha : s.awake = true) : s.onReports page core f = f s := by
  rw [State.onReports, State.alive_of_awake f ha, State.live_of_awake f ha, ite_self]

/-- While they run every register acts. -/
theorem State.onPage_awake (page off : Nat) (f : State → State) (ha : s.awake = true) : s.onPage page off f = f s := by
  rw [State.onPage, State.alive_of_awake f ha, State.live_of_awake f ha, ite_self]

/-- A read of the head's first word shows the entry as it was before. -/
theorem State.regRead_head {e : ErrEntry} {es : List ErrEntry} (ini : Nat) (ha : s.awake = true) (h : s.erq.entries = e :: es) :
    s.regRead ini 20 0x100 4 = s.erqHead.emit (.value (leAt e.bytes 0 4)) := by
  have hview : s.csrView ini 20 0x100 = leAt e.bytes 0 4 := by
    have hhead : s.csrView ini 20 0x100 = (s.erq.entries.head?).elim 0 fun e => leAt e.bytes 0 4 := by
      show (match s.erq.entries with
        | e :: _ => leAt e.bytes 0 4
        | [] => 0) = _
      cases s.erq.entries <;> rfl
    rw [hhead, h]
    rfl
  have hlen : (slice e.bytes 0 4).length ≤ 4 := by
    rw [slice, List.length_take]
    exact Nat.min_le_left ..
  have hlt : leAt e.bytes 0 4 < 256 ^ 4 := Nat.lt_of_lt_of_le (leNat_lt _) (Nat.pow_le_pow_right (by decide) hlen)
  rw [State.regRead_word (page := 20) (off := 0x100) ini (by decide +kernel) (by decide +kernel) (by decide), State.onPage_awake _ _ _ ha, hview,
    show csrAddr 20 0x100 % 4 = 0 by decide, Nat.mul_zero, Nat.pow_zero, Nat.div_one, leNat_leBytes, Nat.mod_eq_of_lt hlt]
  rfl

end Queue

section Bus

theorem fieldsAt_stepping : fieldsAt 0 0 = [(SYS_STEPPING.letter, 0, 0), (SYS_STEPPING.number, 0, 0)] := by decide +kernel

theorem fieldsAt_jtagId : fieldsAt 0 0x10 =
    [(SYS_JTAG_ID.one, 0, 0), (SYS_JTAG_ID.maker, 0, 0), (SYS_JTAG_ID.part, 0, 0), (SYS_JTAG_ID.version, 0, 0)] := by decide +kernel

variable {s : State}

/-- The target answers a read with the word and, where it is asked for, its packet error code. -/
theorem State.onSmb_answers {code : Nat} {word : State → Nat} {w : Nat} {pec : Bool} (hheld : s.pwr.held = false) (hen : s.bit SYS_SMB_CFG.enable = true)
    (hdusk : s.powerState ≠ 6) (hpec : s.bit SYS_SMB_CFG.pec_req = false ∨ pec = true) (hw : word s = w) :
    s.onSmb (fun s => s.smbAnswer code (word s) pec) =
      s.emit (.smb (some (w % 65536)) (if pec then some (smbPec (s.get SYS_SMB_CFG.addr) code (w % 65536)) else none)) := by
  rw [State.onSmb, if_neg (by simp [hheld]), State.smbAnswer, if_neg (fun h => h.elim (· hen) hdusk),
    if_neg (fun h => hpec.elim (fun hno => by simp [hno] at h) h.2), hw]

theorem State.smbStepping_word (s : State) : s.regWord 0 0 = s.get SYS_STEPPING.number ||| s.get SYS_STEPPING.letter * 16 := by
  rw [State.regWord_eq, fieldsAt_stepping]
  show 0 ||| s.get SYS_STEPPING.letter <<< 4 ||| s.get SYS_STEPPING.number <<< 0 = _
  rw [Nat.zero_or, Nat.shiftLeft_zero, Nat.shiftLeft_eq, Nat.or_comm]

theorem State.jtagId_word (s : State) : s.jtagId =
    (s.get SYS_JTAG_ID.one ||| s.get SYS_JTAG_ID.maker * 2 ||| s.get SYS_JTAG_ID.part * 4096 ||| s.get SYS_JTAG_ID.version * 2 ^ 28) := by
  rw [State.jtagId, State.regWord_eq, fieldsAt_jtagId]
  show 0 ||| s.get SYS_JTAG_ID.one <<< 0 ||| s.get SYS_JTAG_ID.maker <<< 1 ||| s.get SYS_JTAG_ID.part <<< 12 ||| s.get SYS_JTAG_ID.version <<< 28 = _
  rw [Nat.zero_or, Nat.shiftLeft_zero, Nat.shiftLeft_eq, Nat.shiftLeft_eq, Nat.shiftLeft_eq]

end Bus

section Boundary

/-- The bits of a sum of distinct powers of two. -/
theorem testBit_foldl_zipIdx {α : Type} (f : α × Nat → Bool) (xs : List α) :
    xs.zipIdx.foldl (fun a e => a + b2n (f e) * 2 ^ e.2) 0 < 2 ^ xs.length ∧
      ∀ k, (xs.zipIdx.foldl (fun a e => a + b2n (f e) * 2 ^ e.2) 0).testBit k = (xs[k]?).elim false fun x => f (x, k) := by
  induction xs using List.reverseRecOn with
  | nil => exact ⟨Nat.one_pos, fun k => Nat.zero_testBit k⟩
  | append_singleton xs x ih =>
    obtain ⟨hlt, hbits⟩ := ih
    rw [List.zipIdx_append, List.foldl_append, List.zipIdx_singleton, List.foldl_cons, List.foldl_nil, Nat.zero_add, List.length_append]
    generalize xs.zipIdx.foldl (fun a e => a + b2n (f e) * 2 ^ e.2) 0 = a at hlt hbits
    dsimp only
    have hb : b2n (f (x, xs.length)) ≤ 1 := by
      unfold b2n
      split <;> decide
    refine ⟨?_, fun k => ?_⟩
    · have := Nat.mul_le_mul_right (2 ^ xs.length) hb
      rw [List.length_singleton, Nat.pow_succ]
      omega
    · rw [Nat.add_comm, Nat.mul_comm, Nat.testBit_two_pow_mul_add _ hlt, hbits]
      split
      · next hk => rw [List.getElem?_append_left hk]
      · next hk =>
        rw [List.getElem?_append_right (Nat.le_of_not_lt hk)]
        rcases Nat.eq_or_lt_of_le (Nat.le_of_not_lt hk) with rfl | hk
        · rw [Nat.sub_self]
          show (b2n (f (x, xs.length))).testBit 0 = f (x, xs.length)
          cases f (x, xs.length) <;> rfl
        · obtain ⟨m, hm⟩ := Nat.exists_eq_add_of_lt hk
          rw [show k - xs.length = m + 1 by omega, Nat.testBit_lt_two_pow (Nat.lt_of_le_of_lt hb (Nat.one_lt_two_pow (by omega)))]
          rfl

variable {s : State}

/-- Each cell captures its own bit of the boundary register. -/
theorem State.testBit_boundaryCapture (s : State) (levels k : Nat) :
    (s.boundaryCapture levels).testBit k = (boundaryCells[k]?).elim false fun c => s.cellCapture c (levels.testBit k) :=
  (testBit_foldl_zipIdx (fun e => s.cellCapture e.1 (levels.testBit e.2)) boundaryCells).2 k

theorem State.tap_updTap (s : State) (f : Tap → Tap) : (s.updTap f).tap = f s.tap := rfl

theorem State.dr_boundaryScan (s : State) (levels loaded : Nat) : (s.boundaryScan levels loaded).tap.dr = s.boundaryCapture levels := by
  rw [State.boundaryScan, State.tap_updTap]

/-- An input cell captures the level at its ball. -/
theorem State.boundaryCapture_input (s : State) (levels : BitVec 895) (k : Nat) (hk : boundaryCells[k]? = some (.input p)) :
    ((s.boundaryCapture levels.toNat).testBit k == levels.getLsbD k) = true := by
  rw [State.testBit_boundaryCapture, hk]
  exact beq_self_eq_true _

/-- In boot modes 3 and 4 an instruction drives the pins. -/
theorem State.tapPins_drives (ir : Nat) (pins : PinDrive) (h : s.get BOT_STATUS.bootmode = 3 ∨ s.get BOT_STATUS.bootmode = 4) :
    s.tapPins ir pins = s.tapLoad ir 0 pins := if_pos h

theorem State.tapExtest_drives (ir : Nat) (pins : PinDrive) (levels loaded : BitVec 895)
    (h : s.get BOT_STATUS.bootmode = 3 ∨ s.get BOT_STATUS.bootmode = 4) {r : State} (hr : s.tapExtest ir pins levels.toNat loaded.toNat = r) :
    r.tap.ir = ir ∧ r.tap.pins = pins ∧ r.tap.boundary = loaded.toNat ∧
      (∀ k < 895, (match boundaryCells[k]? with | some (.input _) => r.tap.dr.testBit k == levels.getLsbD k | _ => true) = true) ∧ r.csr = s.csr := by
  have heq : s.tapExtest ir pins levels.toNat loaded.toNat = (s.tapLoad ir 0 pins).boundaryScan levels.toNat loaded.toNat := by
    unfold State.tapExtest
    dsimp only
    rw [State.tapPins_drives ir pins h, if_pos (show (s.tapLoad ir 0 pins).tap.ir = ir from rfl)]
  rw [← hr, heq]
  refine ⟨rfl, rfl, rfl, fun k _ => ?_, rfl⟩
  rw [State.dr_boundaryScan]
  split
  · next hk => exact State.boundaryCapture_input _ _ _ hk
  · rfl

/-- In another mode it acts as BYPASS and shows the refusal. -/
theorem State.tapExtest_refuses {ir : Nat} (pins : PinDrive) (levels loaded : Nat) (hir : 0xFF ≠ ir) (h3 : s.get BOT_STATUS.bootmode ≠ 3)
    (h4 : s.get BOT_STATUS.bootmode ≠ 4) : s.tapExtest ir pins levels loaded = s.tapBypass.err DBG_ERR.ic_refused := by
  have hpins : s.tapPins ir pins = s.tapBypass.err DBG_ERR.ic_refused := if_neg (not_or.2 ⟨h3, h4⟩)
  unfold State.tapExtest
  dsimp only
  rw [hpins]
  exact if_neg hir

end Boundary

section Memory

variable {s : State}

/-- The port while it selects MEM_ACCESS. -/
def State.memSelected (s : State) : State := s.updTap fun t => { t with ir := 0x20, dr := t.capture, pins := .functional }

/-- The packet of an access of the port. -/
def tapPkt (write : Bool) (addr data : Nat) : Pkt :=
  { ini := 40, cmd := if write then .write else .read, addr := addr, len := 4, data := if write then leBytes 4 data else [] }

/-- An access that is permitted takes a tag and goes to the ring (R636). -/
theorem State.memAccess_goes {write : Bool} {addr data : Nat} (hidle : s.tap.busy = false) (hen : s.bit DBG_CTRL.tap_mem_en = true)
    (hmode : s.get BOT_STATUS.bootmode ≠ 4) (hrun : s.powerState ≠ 2) (htag : (s.freeTag 40).isSome = true) {r : State}
    (hr : s.memAccess true write addr data = r) :
    r.tap.busy = true ∧ r.tap.done_ = false ∧ r.tap.error = false ∧ (r.ring.outs.getLast?).map (fun x => (x.ini, x.len)) = some (40, 4) := by
  obtain ⟨u, hu⟩ : ∃ u, u = s.memSelected.updTap fun t => { t with busy := true, done_ := false, error := false, waits := some (write, addr, data) } :=
    ⟨_, rfl⟩
  have heq : s.memAccess true write addr data = u.tapRequest := by
    unfold State.memAccess
    dsimp only
    rw [if_neg (by decide), ← State.memSelected, if_neg (show ¬ s.memSelected.tap.busy = true by rw [show s.memSelected.tap.busy = s.tap.busy from rfl, hidle]; decide),
      if_neg (fun h => h.elim (· hen) (·.elim hmode hrun)), hu]
  obtain ⟨t, ht, honly, hlast⟩ := State.request_of_free (s := u) (p := tapPkt write addr data) (by rw [hu]; exact htag) .unit
  have htap : u.tap.waits = some (write, addr, data) := by rw [hu]; rfl
  have hreq : u.tapRequest = t.updTap fun x => { x with waits := none } := by
    unfold State.tapRequest
    rw [htap]
    dsimp only
    rw [← tapPkt, ht]
  rw [← hr, heq, hreq]
  show t.tap.busy = true ∧ t.tap.done_ = false ∧ t.tap.error = false ∧ _
  rw [honly.tap (by decide), hu]
  exact ⟨rfl, rfl, rfl, hlast⟩

theorem State.memAccess_refused {write : Bool} {addr data : Nat} (hidle : s.tap.busy = false)
    (hno : s.bit DBG_CTRL.tap_mem_en = false ∨ s.get BOT_STATUS.bootmode = 4 ∨ s.powerState = 2) :
    s.memAccess true write addr data = s.memSelected.updTap fun t => { t with done_ := false, error := true } := by
  have hbar : ¬ s.memSelected.bit DBG_CTRL.tap_mem_en = true ∨ s.memSelected.get BOT_STATUS.bootmode = 4 ∨ s.memSelected.get PWR_STATUS.state = 2 :=
    hno.imp_left fun h => by rw [show s.memSelected.bit DBG_CTRL.tap_mem_en = s.bit DBG_CTRL.tap_mem_en from rfl, h]; decide
  unfold State.memAccess
  dsimp only
  rw [if_neg (by decide), ← State.memSelected, if_neg (show ¬ s.memSelected.tap.busy = true by rw [show s.memSelected.tap.busy = s.tap.busy from rfl, hidle]; decide),
    if_pos hbar]

theorem State.memAccess_busy {write : Bool} {addr data : Nat} (hbusy : s.tap.busy = true) :
    s.memAccess true write addr data = s.memSelected.err DBG_ERR.mem_busy := by
  unfold State.memAccess
  dsimp only
  rw [if_neg (by decide), ← State.memSelected, if_pos (show s.memSelected.tap.busy = true from hbusy)]

end Memory

/-- Settles O38: the cells of the boundary register each bring a power of two of their own. -/
theorem errorQueueAndTap : Obligations.ErrorQueueAndTap := by
  unfold Obligations.ErrorQueueAndTap
  refine ⟨fun s ini e es ha h => ⟨_, congrArg Host.Outcome.next (State.regRead_head ini.val ha h), ?head⟩,
    fun s seq e es ha h ht hseq => ⟨_, congrArg Host.Outcome.next (State.onReports_awake 20 0 _ ha), State.erqPop_head h ht hseq⟩,
    fun s seq e es ha h hno => congrArg Host.Outcome.next ((State.onReports_awake 20 0 _ ha).trans (State.erqPop_refuses h hno)),
    fun s pec hheld hen hdusk hpec => congrArg Host.Outcome.next (State.onSmb_answers hheld hen hdusk hpec rfl),
    fun s pec hheld hen hdusk hpec hrun hcur => ?island, fun s pec hheld hen hdusk hpec hrun => ?stack,
    fun s pec hheld hen hdusk hpec => congrArg Host.Outcome.next (State.onSmb_answers hheld hen hdusk hpec rfl),
    fun s pec hheld hen hdusk hpec => congrArg Host.Outcome.next (State.onSmb_answers hheld hen hdusk hpec rfl),
    fun s pec hheld hen hdusk hpec => congrArg Host.Outcome.next (State.onSmb_answers hheld hen hdusk hpec s.smbStepping_word),
    fun s pec hheld hen hdusk hpec => congrArg Host.Outcome.next (State.onSmb_answers hheld hen hdusk hpec rfl),
    fun s hheld hen hdusk hpec => congrArg Host.Outcome.next ?pec, fun s hheld hen hdusk => congrArg Host.Outcome.next ?nack,
    fun s => ⟨_, rfl, rfl, s.jtagId_word, rfl, rfl⟩, fun s levels loaded => ⟨_, rfl, rfl, ?cells, ?inputs, rfl, rfl, rfl⟩,
    fun s levels loaded h => ⟨_, rfl, State.tapExtest_drives 3 .extest levels loaded h rfl⟩,
    fun s levels loaded h => ⟨_, rfl, State.tapExtest_drives 6 .pulse levels loaded h rfl⟩,
    fun s levels loaded h => ⟨_, rfl, State.tapExtest_drives 7 .train levels loaded h rfl⟩,
    fun s h => congrArg Host.Outcome.next (State.tapPins_drives 4 .clamp h), fun s h => congrArg Host.Outcome.next (State.tapPins_drives 5 .highz h),
    fun s levels loaded h3 h4 => ⟨_, congrArg Host.Outcome.next (State.tapExtest_refuses .extest _ _ (by decide) h3 h4), rfl, rfl, rfl,
      State.get_err_same (h := rfl) ..⟩,
    fun s => rfl, fun s write addr data hidle hen hmode hrun htag => ⟨_, rfl, State.memAccess_goes hidle hen hmode hrun htag rfl⟩,
    fun s write addr data hidle hno => ⟨_, congrArg Host.Outcome.next (State.memAccess_refused hidle hno), rfl, rfl, rfl⟩,
    fun s write addr data hbusy => ⟨_, congrArg Host.Outcome.next (State.memAccess_busy hbusy), State.get_err_same (h := rfl) .., hbusy, rfl⟩,
    fun s => ⟨_, rfl, rfl, rfl, rfl, rfl⟩, fun s ha => does_live rfl ha ?trace⟩
  case head =>
    obtain ⟨hentries, hhold, htaken, hsent⟩ := State.erqHead_takes h
    exact ⟨hentries, hhold, htaken, congrArg (· ++ [Sent.value (leAt e.bytes 0 4)]) hsent⟩
  case island =>
    refine congrArg Host.Outcome.next ((State.onSmb_answers hheld hen hdusk hpec (w := ofInt 16 (s.getInt SYS_TEMP.island)) ?_).trans ?_)
    · obtain ⟨e, he, htemps⟩ := List.any_eq_true.1 hcur
      exact if_neg fun hnone => hnone.elim (fun hall => by simp [List.all_eq_true.1 hall e he] at htemps) hrun
    · rw [Nat.mod_eq_of_lt (show _ < 65536 from ofInt_lt 16 _)]
  case stack =>
    refine congrArg Host.Outcome.next ((State.onSmb_answers hheld hen hdusk hpec (w := ofInt 16 (s.getInt SYS_TEMP.hbm)) ?_).trans ?_)
    · exact if_neg fun hnone => hrun.elim hnone.1 hnone.2
    · rw [Nat.mod_eq_of_lt (show _ < 65536 from ofInt_lt 16 _)]
  case pec =>
    rw [State.onSmb, if_neg (by simp [hheld]), State.smbAnswer, if_neg (fun h => h.elim (· hen) hdusk), if_pos ⟨hpec, Bool.false_ne_true⟩]
  case nack =>
    rw [State.onSmb, if_neg (by simp [hheld])]
    exact if_pos ⟨hen, hdusk⟩
  case cells =>
    intro k hk
    rw [State.tapSample, State.dr_boundaryScan, State.testBit_boundaryCapture]
    cases boundaryCells[k]? with
    | none => rfl
    | some c => cases c <;> rfl
  case inputs =>
    intro k hk
    rw [State.tapSample, State.dr_boundaryScan]
    split
    · next hcell => exact State.boundaryCapture_input _ _ _ hcell
    · rfl
  case trace =>
    exact ⟨rfl, (State.get_put_apart _ _ _ _ _ _ (by decide)).trans (State.get_put_same ..), State.get_put_same ..⟩

/-! # The array part of a microword, PE by PE (R148 to R150) -/

section Bits

theorem testBit_mixBits (old new mask p : Nat) : (mixBits old new mask).testBit p = if mask.testBit p then new.testBit p else old.testBit p := by
  rw [mixBits, Nat.testBit_or, Nat.testBit_xor, Nat.testBit_and, Nat.testBit_and]
  cases mask.testBit p <;> cases old.testBit p <;> cases new.testBit p <;> rfl

theorem testBit_allPes {p : Nat} (hp : p < 131072) : allPes.testBit p = true := by
  rw [allPes, pes, Nat.testBit_two_pow_sub_one]
  exact decide_eq_true hp

theorem testBit_notP {p : Nat} (hp : p < 131072) (v : Nat) : (notP v).testBit p = !v.testBit p := by
  rw [notP, Nat.testBit_xor, testBit_allPes hp, Bool.true_xor]

/-- The bits of planes joined where a test holds. -/
theorem testBit_foldl_or (f : Nat → Nat) (t : Nat → Bool) (l : List Nat) (r p : Nat) :
    (l.foldl (fun r i => if t i then r ||| f i else r) r).testBit p = (r.testBit p || l.any fun i => t i && (f i).testBit p) := by
  induction l generalizing r with
  | nil => simp
  | cons i l ih =>
    rw [List.foldl_cons, ih, List.any_cons]
    cases t i
    · rw [Bool.false_and, Bool.false_or]
      rfl
    · rw [if_pos rfl, Nat.testBit_or, Bool.true_and, Bool.or_assoc]

/-- Each PE takes the bit of the table that its three inputs name (R149). -/
theorem testBit_lookup {p : Nat} (hp : p < 131072) (tt a b k : Nat) :
    (lookup tt a b k).testBit p = tt.testBit (4 * (a.testBit p).toNat + 2 * (b.testBit p).toNat + (k.testBit p).toNat) := by
  have hnot : ∀ v, (allPes ^^^ v).testBit p = !v.testBit p := testBit_notP hp
  unfold lookup
  rw [testBit_foldl_or, Nat.zero_testBit, Bool.false_or]
  simp only [Nat.testBit_and, apply_ite (Nat.testBit · p), hnot]
  cases a.testBit p <;> cases b.testBit p <;> cases k.testBit p <;> simp [List.range_succ, Nat.testBit]

/-- A plane that an operation may write, bit by bit. -/
theorem testBit_ite_mixBits {P Q : Prop} [Decidable P] [Decidable (P ∧ Q)] (old new mask p : Nat) (hQ : mask.testBit p = true ↔ Q) :
    (if P then mixBits old new mask else old).testBit p = if P ∧ Q then new.testBit p else old.testBit p := by
  by_cases hP : P
  · rw [if_pos hP, testBit_mixBits]
    by_cases hq : Q
    · rw [if_pos (hQ.2 hq), if_pos ⟨hP, hq⟩]
    · rw [if_neg (mt hQ.1 hq), if_neg fun h => hq h.2]
  · rw [if_neg hP, if_neg fun h => hP h.1]

end Bits

section Frame

/-- The third input of an operation. -/
def State.kPlane (s : State) (o : ArrayOp) : Nat :=
  match o.kSrc with
  | .c => s.arr.c
  | .f => s.arr.f
  | .x => s.arr.x
  | .y => s.arr.y

/-- The PEs that keep the results of an operation. -/
def State.enables (s : State) (o : ArrayOp) : Nat := if o.all then s.pesWhere executing else s.arr.m &&& s.pesWhere executing

/-- The carry plane after an operation. -/
def State.carried (s : State) (o : ArrayOp) (b : Nat) : Nat :=
  if o.carry then mixBits s.arr.c (lookup o.ttC (s.plane o.aAddr) b (s.kPlane o)) (s.enables o) else s.arr.c

/-- Where an operation brings its result, the carry apart. -/
def State.keepsResult (s : State) (o : ArrayOp) (r : Nat) : State :=
  match o.dest with
  | .none => s
  | .mem => s.progPlane o.wAddr r (s.enables o)
  | .f => { s with arr := { s.arr with f := mixBits s.arr.f r (s.enables o) } }
  | .x => { s with arr := { s.arr with x := mixBits s.arr.x r (s.enables o) } }
  | .y => { s with arr := { s.arr with y := mixBits s.arr.y r (s.enables o) } }
  | .m => { s with arr := { s.arr with m := mixBits s.arr.m r (s.pesWhere executing) } }

/-- An operation stores its result and its carry (R149). -/
theorem State.arrayOpWith_eq (s : State) (o : ArrayOp) (b : Nat) :
    (s.arrayOpWith o b).arr = { (s.keepsResult o (lookup o.ttR (s.plane o.aAddr) b (s.kPlane o))).arr with c := s.carried o b } ∧
      (s.arrayOpWith o b).pri = (s.keepsResult o (lookup o.ttR (s.plane o.aAddr) b (s.kPlane o))).pri :=
  ⟨rfl, rfl⟩

/-- The fields that a microword shows beside those of its own wait and flow. -/
def wordFields : List Fld :=
  [ARR_ISL_DISCARD_CNT.count, ARR_ISL_HALO_STALL.cycles, ARR_ISL_Q_STALL.cycles, DBG_TRACE_STATUS.entries, DBG_TRACE_STATUS.stopped,
   DBG_ERR.trace_overflow, SEQ_ERR.save_write, ARR_ERR.whalo_miss, ARR_WHALO_MISS_CNT.count]

/-- From `s` to `t` nothing has changed that an array operation reads. -/
structure SameArray (s t : State) : Prop where
  arr : t.arr = s.arr
  pri : t.pri = s.pri
  save : t.seq.bgSave = s.seq.bgSave
  isl : ∀ i, t.islState i = s.islState i
  ready : t.get ARR_WHALO_READY.ready = s.get ARR_WHALO_READY.ready

namespace SameArray

variable {s t u : State}

theorem refl : SameArray s s := ⟨rfl, rfl, rfl, fun _ => rfl, rfl⟩

theorem trans (h : SameArray s t) (k : SameArray t u) : SameArray s u :=
  ⟨k.arr.trans h.arr, k.pri.trans h.pri, k.save.trans h.save, fun i => (k.isl i).trans (h.isl i), k.ready.trans h.ready⟩

/-- An operation that shows fields of a microword and leaves the array. -/
theorem of_touches (h : Touches wordFields s t) (harr : t.arr = s.arr) (hpri : t.pri = s.pri) (hsave : t.seq.bgSave = s.seq.bgSave) :
    SameArray s t :=
  ⟨harr, hpri, hsave, fun i => h ARR_ISL_STATUS.state (by decide) i 0, h ARR_WHALO_READY.ready (by decide) 0 0⟩

variable (h : SameArray s t)
include h

theorem plane (a : Nat) : t.plane a = s.plane a := by
  unfold State.plane
  rw [h.pri, h.arr]

theorem pesWhere (p : Nat → Bool) : t.pesWhere p = s.pesWhere p := by
  unfold State.pesWhere
  simp only [h.isl]

theorem savePlane (a : Nat) : t.savePlane a = s.savePlane a := by
  unfold State.savePlane
  rw [h.save]

theorem operandB (o : ArrayOp) : (t.operandB o).1 = (s.operandB o).1 := by
  have hedge : ∀ d, t.edgeMode d = s.edgeMode d := fun d => by
    unfold State.edgeMode
    rw [h.arr]
  have hread : ∀ d addr own live, t.edgeRead d addr own live = s.edgeRead d addr own live := fun d addr own live => by
    unfold State.edgeRead State.whaloEntry
    rw [hedge, h.arr, h.ready]
  unfold State.operandB State.neighbour
  rw [h.plane, h.pesWhere, h.pesWhere]
  cases o.bSrc <;> simp only [hread]

/-- A plane is written into the same array. -/
theorem setPlane (a v mask : Nat) : (t.setPlane a v mask).arr = (s.setPlane a v mask).arr ∧ (t.setPlane a v mask).pri = (s.setPlane a v mask).pri := by
  unfold State.setPlane
  rw [h.pri, h.arr]
  by_cases hin : a < 64
  · rw [if_pos hin, if_pos hin]
    cases s.pri.visible with
    | none => exact ⟨h.arr, h.pri⟩
    | some e =>
      dsimp only
      split
      · exact ⟨rfl, rfl⟩
      · exact ⟨h.arr, h.pri⟩
  · rw [if_neg hin, if_neg hin]
    by_cases hout : a < 0x80
    · rw [if_pos hout, if_pos hout]
      exact ⟨rfl, rfl⟩
    · rw [if_neg hout, if_neg hout]
      split
      · exact ⟨rfl, rfl⟩
      · exact ⟨h.arr, h.pri⟩

theorem progPlane (a v mask : Nat) : (t.progPlane a v mask).arr = (s.progPlane a v mask).arr ∧ (t.progPlane a v mask).pri = (s.progPlane a v mask).pri := by
  unfold State.progPlane
  rw [h.savePlane]
  split
  · exact ⟨h.arr, h.pri⟩
  · exact h.setPlane a v mask

theorem kPlane (o : ArrayOp) : t.kPlane o = s.kPlane o := by
  unfold State.kPlane
  rw [h.arr]

theorem enables (o : ArrayOp) : t.enables o = s.enables o := by
  unfold State.enables
  rw [h.pesWhere, h.arr]

theorem carried (o : ArrayOp) (b : Nat) : t.carried o b = s.carried o b := by
  unfold State.carried
  rw [h.arr, h.plane, h.kPlane, h.enables]

theorem keepsResult (o : ArrayOp) (r : Nat) : (t.keepsResult o r).arr = (s.keepsResult o r).arr ∧ (t.keepsResult o r).pri = (s.keepsResult o r).pri := by
  unfold State.keepsResult
  rw [h.enables, h.pesWhere, h.arr]
  cases o.dest with
  | none => exact ⟨h.arr, h.pri⟩
  | mem => exact h.progPlane ..
  | f | x | y | m => exact ⟨rfl, h.pri⟩

/-- The same operation of the same array leaves the same array. -/
theorem arrayOpWith (o : ArrayOp) (b : Nat) :
    (t.arrayOpWith o b).arr = (s.arrayOpWith o b).arr ∧ (t.arrayOpWith o b).pri = (s.arrayOpWith o b).pri := by
  obtain ⟨harr, hpri⟩ := h.keepsResult o (lookup o.ttR (s.plane o.aAddr) b (s.kPlane o))
  rw [(t.arrayOpWith_eq o b).1, (t.arrayOpWith_eq o b).2, (s.arrayOpWith_eq o b).1, (s.arrayOpWith_eq o b).2, h.carried, h.plane, h.kPlane, harr, hpri]
  exact ⟨rfl, rfl⟩

end SameArray

end Frame

section Operation

variable {s : State}

theorem State.progPlane_regs (s : State) (a v mask : Nat) : (s.progPlane a v mask).arr.f = s.arr.f ∧ (s.progPlane a v mask).arr.x = s.arr.x ∧
    (s.progPlane a v mask).arr.y = s.arr.y ∧ (s.progPlane a v mask).arr.m = s.arr.m := by
  unfold State.progPlane State.setPlane
  split
  · exact ⟨rfl, rfl, rfl, rfl⟩
  · split
    · cases s.pri.visible with
      | none => exact ⟨rfl, rfl, rfl, rfl⟩
      | some e =>
        dsimp only
        split <;> exact ⟨rfl, rfl, rfl, rfl⟩
    · split
      · exact ⟨rfl, rfl, rfl, rfl⟩
      · split <;> exact ⟨rfl, rfl, rfl, rfl⟩

theorem State.testBit_enables (s : State) (o : ArrayOp) (p : Nat) : (s.enables o).testBit p = true ↔ enabled s o p := by
  unfold State.enables enabled
  cases o.all with
  | true => simp
  | false => simp [and_comm]

/-- The registers of the PEs after an operation. -/
theorem State.arrayOpWith_regs (s : State) (o : ArrayOp) (b : Nat) {r : Nat} (hr : lookup o.ttR (s.plane o.aAddr) b (s.kPlane o) = r) :
    (s.arrayOpWith o b).arr.f = (if o.dest = .f then mixBits s.arr.f r (s.enables o) else s.arr.f) ∧
      (s.arrayOpWith o b).arr.x = (if o.dest = .x then mixBits s.arr.x r (s.enables o) else s.arr.x) ∧
      (s.arrayOpWith o b).arr.y = (if o.dest = .y then mixBits s.arr.y r (s.enables o) else s.arr.y) ∧
      (s.arrayOpWith o b).arr.m = (if o.dest = .m then mixBits s.arr.m r (s.pesWhere executing) else s.arr.m) ∧
      (s.arrayOpWith o b).arr.c = s.carried o b := by
  rw [(s.arrayOpWith_eq o b).1, hr]
  unfold State.keepsResult
  cases o.dest with
  | mem =>
    obtain ⟨hf, hx, hy, hm⟩ := s.progPlane_regs o.wAddr r (s.enables o)
    exact ⟨hf, hx, hy, hm, rfl⟩
  | none | f | x | y | m => exact ⟨rfl, rfl, rfl, rfl, rfl⟩

/-- A plane depends on the memory of the PEs and on the banks of Prism. -/
theorem State.plane_congr {s t : State} (hmem : t.arr.mem = s.arr.mem) (hpri : t.pri = s.pri) (a : Nat) : t.plane a = s.plane a := by
  unfold State.plane
  rw [hmem, hpri]

/-- The planes after an operation. -/
theorem State.arrayOpWith_plane (s : State) (o : ArrayOp) (b a : Nat) (hlo : 0x80 ≤ o.wAddr) (hhi : o.wAddr < 0xF80) (hsave : s.savePlane o.wAddr = false) :
    (s.arrayOpWith o b).plane a =
      if o.dest = .mem ∧ a = o.wAddr then mixBits (s.plane a) (lookup o.ttR (s.plane o.aAddr) b (s.kPlane o)) (s.enables o) else s.plane a := by
  obtain ⟨harr, hpri⟩ := s.arrayOpWith_eq o b
  rw [State.plane_congr (s := s.keepsResult o (lookup o.ttR (s.plane o.aAddr) b (s.kPlane o))) (congrArg Arr.mem harr :) hpri]
  unfold State.keepsResult
  cases o.dest with
  | mem =>
    dsimp only
    rw [State.progPlane, hsave, if_neg (by decide), State.plane_setPlane hlo hhi]
    simp
  | none | f | x | y | m => exact (if_neg (by simp)).symm

end Operation

/-! # The issue of a microword (R183, R188, R197) -/

section Run

/-- From `s` to `t` what runs, and the contexts, are the same. -/
structure SameRun (s t : State) : Prop where
  run : t.seq.run = s.seq.run
  half0 : t.seq.half0 = s.seq.half0
  half1 : t.seq.half1 = s.seq.half1
  bg : t.seq.bg = s.seq.bg
  save : t.seq.bgSave = s.seq.bgSave

namespace SameRun

variable {s t u : State}

theorem refl : SameRun s s := ⟨rfl, rfl, rfl, rfl, rfl⟩

theorem trans (h : SameRun s t) (k : SameRun t u) : SameRun s u :=
  ⟨k.run.trans h.run, k.half0.trans h.half0, k.half1.trans h.half1, k.bg.trans h.bg, k.save.trans h.save⟩

theorem of_seq (h : t.seq = s.seq) : SameRun s t :=
  ⟨congrArg Seq.run h, congrArg Seq.half0 h, congrArg Seq.half1 h, congrArg Seq.bg h, congrArg Seq.bgSave h⟩

theorem curCtx (h : SameRun s t) : t.curCtx = s.curCtx := by
  unfold State.curCtx State.half
  rw [h.run, h.half0, h.half1, h.bg]

end SameRun

variable {s : State}

theorem State.traceWord_sameRun (s : State) (w addr cycle : Nat) (tgt : Bool) : SameRun s (s.traceWord w addr cycle tgt) := by
  unfold State.traceWord
  extract_lets
  split
  · exact .refl
  · split
    · exact ⟨rfl, rfl, rfl, rfl, rfl⟩
    · split <;> exact ⟨rfl, rfl, rfl, rfl, rfl⟩

theorem State.traceWord_touches (s : State) (w addr cycle : Nat) (tgt : Bool) : Touches wordFields s (s.traceWord w addr cycle tgt) := by
  unfold State.traceWord
  extract_lets
  refine .ite .refl (.ite ((Touches.refl.of_csr rfl).put (by decide) _ _ _) (.ite ((Touches.refl.of_csr rfl).err (by decide) _ _ _ _)
    ((Touches.refl.put (by decide) _ _ _).err (by decide) _ _ _ _)))

theorem State.beaconRequest_sameRun (s : State) (req reg : Nat) (glint : Option Nat) (ext addr : Nat) :
    SameRun s (s.beaconRequest req reg glint ext addr) ∧ (s.beaconRequest req reg glint ext addr).csr = s.csr := by
  unfold State.beaconRequest
  split
  · exact ⟨.refl, rfl⟩
  · dsimp only
    split <;> exact ⟨⟨rfl, rfl, rfl, rfl, rfl⟩, rfl⟩

theorem State.offerWords_touches (s : State) (n : Nat) : Touches wordFields s (s.offerWords n) :=
  Touches.refl.foldl _ fun _ _ h => .ite (h.add (by decide) _ _ _) h

theorem State.offerHalo_touches (s : State) (d : BSrc) (n : Nat) : Touches wordFields s (s.offerHalo d n) := by
  refine Touches.refl.foldl _ fun t i h => ?_
  split
  · exact .ite (h.add (by decide) _ _ _) h
  · exact h

theorem State.addStalls_touches (s : State) (halo queue : List (Fin 16 × Nat)) : Touches wordFields s (s.addStalls halo queue) :=
  (Touches.refl.foldl _ fun _ _ h => h.add (by decide) _ _ _).foldl _ fun _ _ h => h.add (by decide) _ _ _

theorem State.arrayOpWith_touches (s : State) (o : ArrayOp) (b : Nat) : Touches wordFields s (s.arrayOpWith o b) := by
  have hset : ∀ a v mask, (s.setPlane a v mask).csr = s.csr := fun a v mask => by
    unfold State.setPlane
    split
    · cases s.pri.visible with
      | none => rfl
      | some e =>
        dsimp only
        split <;> rfl
    · split
      · rfl
      · split <;> rfl
  have hprog : ∀ a v mask, Touches wordFields s (s.progPlane a v mask) := fun a v mask =>
    .ite (Touches.refl.err (by decide) _ _ _ _) (Touches.refl.of_csr (hset a v mask))
  unfold State.arrayOpWith
  cases o.dest with
  | mem => exact Touches.of_csr (hprog _ _ _) rfl
  | none | f | x | y | m => exact Touches.refl.of_csr rfl

theorem State.mwArray_touches (s : State) (c : Ctx) (w : Nat) : Touches wordFields s (s.mwArray c w) := by
  unfold State.mwArray
  extract_lets o src u
  have hu : Touches wordFields s u := .ite (s.offerWords_touches 1) ((s.offerWords_touches 1).trans (State.offerHalo_touches _ _ _))
  refine .ite hu (.ite (hu.trans (State.arrayOpWith_touches _ _ _)) ?_)
  unfold State.arrayOp
  generalize u.operandB o = p
  obtain ⟨b, miss⟩ := p
  exact (hu.trans (State.arrayOpWith_touches _ _ _)).trans (.ite ((Touches.refl.err (by decide) _ _ _ _).inc (by decide) _ _) .refl)

/-- What the array part of a microword of an own or neighbour operand leaves in the array. -/
theorem State.mwArray_array {u : State} {c : Ctx} {w : Nat} (h : SameArray s u) (hflow : mwFlow w = 0) (hsrc : mwBSrc w ≤ 4) :
    (u.mwArray c w).arr = (s.arrayOpWith (mwArrayOp c w) (s.operandB (mwArrayOp c w)).1).arr ∧
      (u.mwArray c w).pri = (s.arrayOpWith (mwArrayOp c w) (s.operandB (mwArrayOp c w)).1).pri := by
  obtain ⟨v, hv⟩ : ∃ v, v = (u.offerWords 1).offerHalo (mwArrayOp c w).bSrc 1 := ⟨_, rfl⟩
  have hsame : SameArray s v := by
    have honly : Only 0x1000000000000020 u v := hv ▸ State.offerHalo_only (State.offerWords_only Only.rfl Covers.refl) Covers.refl
    exact h.trans (.of_touches (hv ▸ (u.offerWords_touches 1).trans (State.offerHalo_touches _ _ _)) (honly.arr rfl) (honly.pri rfl)
      (congrArg Seq.bgSave (honly.seq rfl)))
  obtain ⟨harr, hpri⟩ := hsame.arrayOpWith (mwArrayOp c w) (s.operandB (mwArrayOp c w)).1
  unfold State.mwArray
  dsimp only
  rw [if_neg (by omega : ¬ mwFlow w = 5), ← hv]
  by_cases hidle : mwDest w = 0 ∧ mwCarry w = 0
  · have hdest : (mwArrayOp c w).dest = .none := congrArg destOf hidle.1
    have hcarry : (mwArrayOp c w).carry = false := by rw [mwArrayOp, hidle.2]; rfl
    obtain ⟨harr', hpri'⟩ := v.arrayOpWith_eq (mwArrayOp c w) (s.operandB (mwArrayOp c w)).1
    rw [if_pos hidle, ← harr, ← hpri, harr', hpri', State.carried, hcarry, State.keepsResult, hdest]
    exact ⟨rfl, rfl⟩
  · rw [if_neg hidle, if_neg (by rw [if_neg (by omega)]; omega)]
    have hop : v.arrayOp (mwArrayOp c w) = (v.arrayOpWith (mwArrayOp c w) (v.operandB (mwArrayOp c w)).1).whaloMiss (v.operandB (mwArrayOp c w)).2 := rfl
    have honly := State.whaloMiss_only (s := v.arrayOpWith (mwArrayOp c w) (v.operandB (mwArrayOp c w)).1)
      (miss := (v.operandB (mwArrayOp c w)).2) Only.rfl Covers.refl
    rw [hop, honly.arr rfl, honly.pri rfl, hsame.operandB]
    exact ⟨harr, hpri⟩

/-- A microword that goes on at the next word performs its scalar operation first. -/
theorem State.mwFlowStep_next {w : Nat} (hflow : mwFlow w = 0) : s.mwFlowStep w =
    (s.updCtx fun c => s.scalarOp c (mwScOp w) (mwScD w) (mwScS w) (mwScImm w)).updCtx Ctx.next := by
  have hmatch : ∀ (f : Nat) (a b c d e g h i j k l : State), f = 0 → (match f with
      | 1 => a | 2 => b | 3 => c | 4 => d | 5 => e | 6 => g | 7 => h | 8 => i | 9 => j | 10 => k | _ => l) = l := by
    rintro _ _ _ _ _ _ _ _ _ _ _ _ rfl
    rfl
  unfold State.mwFlowStep
  extract_lets stage f t tests u v c
  refine (hmatch f _ _ _ _ _ _ _ _ _ _ _ hflow).trans ?_
  have hne : ¬ f = 5 := fun h => absurd (hflow.symm.trans h) (by decide)
  have hu : u = s := if_neg fun h => h.elim (fun h => absurd (hflow.symm.trans h) (by decide)) fun h => absurd (hflow.symm.trans h) (by decide)
  have hv : v = s.updCtx fun c => s.scalarOp c (mwScOp w) (mwScD w) (mwScS w) (mwScImm w) := (if_neg hne).trans (by rw [hu])
  rw [hv]

/-- A context that keeps its place and its timeout flag. -/
def Ctx.Stands (c d : Ctx) : Prop := d.pc = c.pc ∧ d.tgt = c.tgt

theorem Ctx.stands_result (c : Ctx) (d v : Nat) : c.Stands (c.result d v) := ⟨rfl, rfl⟩

theorem Ctx.stands_setLoop (c : Ctx) (n lim li : Nat) : c.Stands (c.setLoop n lim li) := ⟨rfl, rfl⟩

theorem Ctx.stands_flags (c : Ctx) (v : Nat) : c.Stands (c.flags v) := ⟨rfl, rfl⟩

theorem State.scalarOp_stands (s : State) (c : Ctx) (op d src imm : Nat) : c.Stands (s.scalarOp c op d src imm) := by
  unfold State.scalarOp
  split
  · exact c.stands_result ..
  · exact c.stands_result ..
  · exact c.stands_result ..
  · exact c.stands_result ..
  · exact c.stands_result ..
  · exact c.stands_result ..
  · exact c.stands_result ..
  · exact c.stands_result ..
  · exact c.stands_setLoop ..
  · exact c.stands_setLoop ..
  · exact c.stands_flags ..
  · exact ⟨rfl, rfl⟩

theorem State.updCtx_keeps (s : State) (f : Ctx → Ctx) : (s.updCtx f).seq.run = s.seq.run ∧ (s.updCtx f).csr = s.csr ∧
    (s.updCtx f).arr = s.arr ∧ (s.updCtx f).pri = s.pri ∧ (s.updCtx f).seq.bgSave = s.seq.bgSave := by
  unfold State.updCtx State.updHalf
  split
  · dsimp only
    split <;> exact ⟨rfl, rfl, rfl, rfl, rfl⟩
  · exact ⟨rfl, rfl, rfl, rfl, rfl⟩
  · exact ⟨rfl, rfl, rfl, rfl, rfl⟩

/-- A microword of `k` cycles of waiting has been performed, and the next word follows. -/
structure WordDone (s : State) (k : Nat) (r : State) : Prop where
  pc : r.curCtx.pc = (s.curCtx.pc + 1) % 2 ^ 14
  tgt : r.curCtx.tgt = s.curCtx.tgt
  used : r.seq.run.used = s.seq.run.used + k + 1
  who : r.seq.run.who = s.seq.run.who
  waiting : r.seq.run.waiting = false
  shows : Touches wordFields s r
  array : mwBSrc s.curWord ≤ 4 → r.arr = (s.arrayOpWith (mwArrayOp s.curCtx s.curWord) (s.operandB (mwArrayOp s.curCtx s.curWord)).1).arr ∧
    r.pri = (s.arrayOpWith (mwArrayOp s.curCtx s.curWord) (s.operandB (mwArrayOp s.curCtx s.curWord)).1).pri

/-- The stalls of the islands change none of it. -/
theorem WordDone.addStalls {k : Nat} {r : State} (h : WordDone s k r) (halo queue : List (Fin 16 × Nat)) : WordDone s k (r.addStalls halo queue) := by
  have honly := State.addStalls_only (s := r) (halo := halo) (queue := queue) Only.rfl Covers.refl
  have hrun : SameRun r (r.addStalls halo queue) := .of_seq (honly.seq rfl)
  refine ⟨by rw [hrun.curCtx, h.pc], by rw [hrun.curCtx, h.tgt], by rw [hrun.run, h.used], by rw [hrun.run, h.who], by rw [hrun.run, h.waiting],
    h.shows.trans (r.addStalls_touches halo queue), fun hsrc => ?_⟩
  rw [honly.arr rfl, honly.pri rfl]
  exact h.array hsrc

/-- A microword of a stage waits no more. -/
def State.wordOpened (s : State) : State :=
  s.updSeq fun q => { q with run := { q.run with waiting := false }, inPass := q.inPass || false, passDone := q.passDone && !false,
                             bgFresh := q.bgFresh && !false }

/-- It is recorded and takes its cycles. -/
def State.wordBegun (s : State) (k : Nat) : State :=
  (s.wordOpened.traceWord s.curWord s.curCtx.pc (s.seq.run.used + k + 1) s.curCtx.tgt).useCycles (k + ownCycles s.curWord)

/-- A stage performs its microword where the slot has room for it. -/
theorem State.performWord_stage {h j c k : Nat} (hwho : s.seq.run.who = some (.stage h j c)) (hroom : s.seq.run.used + mwCycles s.curWord k ≤ s.seq.run.length) :
    s.performWord k = (((s.wordBegun k).mwArray s.curCtx s.curWord).mwBeacon s.curWord s.curCtx.pc).mwFlowStep s.curWord := by
  unfold State.performWord
  simp only [hwho]
  rw [if_neg (by simpa using hroom)]
  rfl

theorem State.wordBegun_shows (s : State) (k : Nat) : (s.wordBegun k).seq.run = { s.seq.run with waiting := false, used := s.seq.run.used + (k + ownCycles s.curWord) } ∧
    (s.wordBegun k).seq.half0 = s.seq.half0 ∧ (s.wordBegun k).seq.half1 = s.seq.half1 ∧ (s.wordBegun k).seq.bg = s.seq.bg ∧ SameArray s (s.wordBegun k) ∧
    Touches wordFields s (s.wordBegun k) := by
  have htrace := s.wordOpened.traceWord_sameRun s.curWord s.curCtx.pc (s.seq.run.used + k + 1) s.curCtx.tgt
  have honly := State.traceWord_only (s := s.wordOpened) (w := s.curWord) (addr := s.curCtx.pc) (cycle := s.seq.run.used + k + 1) (tgt := s.curCtx.tgt)
    Only.rfl Covers.refl
  have hshows := s.wordOpened.traceWord_touches s.curWord s.curCtx.pc (s.seq.run.used + k + 1) s.curCtx.tgt
  unfold State.wordBegun
  generalize s.wordOpened.traceWord s.curWord s.curCtx.pc (s.seq.run.used + k + 1) s.curCtx.tgt = t at htrace honly hshows
  have ht : Touches wordFields s (t.useCycles (k + ownCycles s.curWord)) := Touches.of_csr (t := t) hshows rfl
  exact ⟨congrArg (fun r : Run => { r with used := r.used + (k + ownCycles s.curWord) }) htrace.run, htrace.half0, htrace.half1, htrace.bg,
    .of_touches ht (honly.arr rfl) (honly.pri rfl) htrace.save, ht⟩

/-- A stage's microword that goes on at the next word. -/
theorem State.performWord_done {h j c k : Nat} (hwho : s.seq.run.who = some (.stage h j c)) (hflow : mwFlow s.curWord = 0)
    (hroom : s.seq.run.used + mwCycles s.curWord k ≤ s.seq.run.length) : WordDone s k (s.performWord k) := by
  obtain ⟨hrun, hhalf0, hhalf1, hbg, hsame, hshows⟩ := s.wordBegun_shows k
  obtain ⟨v, hv⟩ : ∃ v, v = (s.wordBegun k).mwArray s.curCtx s.curWord := ⟨_, rfl⟩
  have honly : Only 0x1800184000000060 (s.wordBegun k) v := hv ▸ State.mwArray_only Only.rfl Covers.refl
  have hvrun : SameRun (s.wordBegun k) v := .of_seq (honly.seq rfl)
  obtain ⟨hb, hbcsr⟩ : SameRun v (v.mwBeacon s.curWord s.curCtx.pc) ∧ (v.mwBeacon s.curWord s.curCtx.pc).csr = v.csr := v.beaconRequest_sameRun ..
  have hbonly : Only 0x200000000000 v (v.mwBeacon s.curWord s.curCtx.pc) := State.mwBeacon_only Only.rfl Covers.refl
  rw [State.performWord_stage hwho hroom, ← hv]
  obtain ⟨u, hu⟩ : ∃ u, u = v.mwBeacon s.curWord s.curCtx.pc := ⟨_, rfl⟩
  rw [← hu] at hb hbcsr hbonly ⊢
  have hall := hvrun.trans hb
  have hctx : u.curCtx = s.curCtx := by
    unfold State.curCtx State.half
    rw [hall.run, hall.half0, hall.half1, hall.bg, hrun, hhalf0, hhalf1, hbg]
  have hown : ownCycles s.curWord = 1 := by
    rw [ownCycles, mwLib, if_neg (show ¬ mwFlow s.curWord = 5 by omega)]
    rfl
  have hwhou : u.seq.run.who = s.seq.run.who := by rw [hall.run, hrun]
  rw [State.mwFlowStep_next hflow]
  obtain ⟨x, hx⟩ : ∃ x, x = u.updCtx fun c => u.scalarOp c (mwScOp s.curWord) (mwScD s.curWord) (mwScS s.curWord) (mwScImm s.curWord) := ⟨_, rfl⟩
  obtain ⟨hxrun, hxcsr, hxarr, hxpri, -⟩ := u.updCtx_keeps fun c => u.scalarOp c (mwScOp s.curWord) (mwScD s.curWord) (mwScS s.curWord) (mwScImm s.curWord)
  have hxctx := State.curCtx_updCtx (s := u) (by rw [hwhou, hwho]; rfl) fun c => u.scalarOp c (mwScOp s.curWord) (mwScD s.curWord) (mwScS s.curWord) (mwScImm s.curWord)
  rw [← hx] at hxrun hxcsr hxarr hxpri hxctx ⊢
  obtain ⟨hyrun, hycsr, hyarr, hypri, -⟩ := x.updCtx_keeps Ctx.next
  have hyctx := State.curCtx_updCtx (s := x) (by rw [hxrun, hwhou, hwho]; rfl) Ctx.next
  obtain ⟨hpc, htgt⟩ := u.scalarOp_stands u.curCtx (mwScOp s.curWord) (mwScD s.curWord) (mwScS s.curWord) (mwScImm s.curWord)
  refine ⟨?_, ?_, ?_, ?_, ?_, ?_, fun hsrc => ?_⟩
  · rw [hyctx, hxctx, Ctx.next, Ctx.goto, hpc, hctx]
  · rw [hyctx, hxctx, ← hctx, ← htgt]
    rfl
  · rw [hyrun, hxrun, hall.run, hrun, hown]
    rfl
  · rw [hyrun, hxrun, hwhou]
  · rw [hyrun, hxrun, hall.run, hrun]
  · refine Touches.of_csr (t := v) (hshows.trans ?_) (by rw [hycsr, hxcsr, hbcsr])
    rw [hv]
    exact State.mwArray_touches _ _ _
  · obtain ⟨harr, hpri⟩ := State.mwArray_array (c := s.curCtx) hsame hflow hsrc
    rw [hyarr, hypri, hxarr, hxpri, hbonly.arr rfl, hbonly.pri rfl, hv]
    exact ⟨harr, hpri⟩

end Run

/-! # Waits and flow of a microword (R187 to R195) -/

section Issue

variable {s : State} {h j c k : Nat}

/-- A stage's microword that waits for nothing is performed at once. -/
theorem State.microwordIssue_stage (hi : s.canIssue = true) (hwho : s.seq.run.who = some (.stage h j c)) (hwait : s.seq.run.waiting = false)
    (hcond : mwWaitCond s.curWord = 0) : s.microwordIssue = s.performWord (mwTimeout s.curWord) := by
  unfold State.microwordIssue
  rw [if_neg (by simp [hi, hwait]), hwho]
  exact if_pos hcond

theorem State.curWord_stage (hwho : s.seq.run.who = some (.stage h j c)) : s.curWord = progWord (s.half h).image (s.half h).ctx.pc := by
  unfold State.curWord
  rw [hwho]

/-- The context of a waiting microword whose wait has ended with the flag `b`. -/
def State.waitEnded (s : State) (b : Bool) : State := s.updCtx fun c => { c with tgt := b }

theorem State.waitEnded_shows (b : Bool) (hwho : s.seq.run.who = some (.stage h j c)) :
    (s.waitEnded b).curCtx = { s.curCtx with tgt := b } ∧ (s.waitEnded b).curWord = s.curWord ∧ (s.waitEnded b).seq.run = s.seq.run ∧
      (s.waitEnded b).csr = s.csr := by
  obtain ⟨hrun, hcsr, -, -, -⟩ := s.updCtx_keeps fun c => { c with tgt := b }
  refine ⟨State.curCtx_updCtx (by rw [hwho]; rfl) _, ?_, hrun, hcsr⟩
  have hhalf : (s.waitEnded b).half h = { s.half h with ctx := { (s.half h).ctx with tgt := b } } := by
    have hupd : s.waitEnded b = s.updHalf h fun x => { x with ctx := { x.ctx with tgt := b } } := by
      unfold State.waitEnded State.updCtx
      rw [hwho]
    rw [hupd, State.half_updHalf_same]
  rw [State.curWord_stage (s := s.waitEnded b) (by rw [← hwho]; exact congrArg Run.who hrun), State.curWord_stage hwho, hhalf]

/-- A waiting microword is performed after its wait. -/
theorem State.performWord_waited {t : State} {b : Bool} (hwho : s.seq.run.who = some (.stage h j c)) (hst : t.seq = s.seq)
    (hflow : mwFlow s.curWord = 0) (hroom : s.seq.run.used + mwCycles s.curWord k ≤ s.seq.run.length) {r : State}
    (hr : (t.waitEnded b).performWord k = r) :
    r.seq.run.waiting = false ∧ r.curCtx.tgt = b ∧ r.curCtx.pc = (s.curCtx.pc + 1) % 2 ^ 14 ∧ r.seq.run.used = s.seq.run.used + k + 1 ∧
      Touches wordFields t r := by
  have hts : SameRun s t := .of_seq hst
  have hword : t.curWord = s.curWord := by
    rw [State.curWord_stage (s := t) (by rw [hst]; exact hwho), State.curWord_stage hwho, State.half, State.half, hst]
  obtain ⟨hctx, hw, hrun, hcsr⟩ := State.waitEnded_shows (s := t) b (by rw [hst]; exact hwho)
  obtain ⟨hpc, htgt, hused, -, hwaiting, hshows, -⟩ := State.performWord_done (s := t.waitEnded b) (k := k) (by rw [hrun, hst]; exact hwho)
    (by rw [hw, hword]; exact hflow) (by rw [hw, hword, hrun, hst]; exact hroom)
  subst hr
  refine ⟨hwaiting, by rw [htgt, hctx], by rw [hpc, hctx, hts.curCtx], by rw [hused, hrun, hst], (Touches.refl.of_csr hcsr).trans hshows⟩

/-- A waiting microword whose condition holds is released in time (R188). -/
theorem State.waitRelease_stage (hi : s.canIssue = true) (hwho : s.seq.run.who = some (.stage h j c)) (hwait : s.seq.run.waiting = true)
    (hholds : s.waitHolds (mwWaitCond s.curWord) (mwWaitArg s.curWord) = true) (hmode : mwWaitMode s.curWord = 0) (hk : k ≤ mwTimeout s.curWord)
    (hflow : mwFlow s.curWord = 0) (hroom : s.seq.run.used + mwCycles s.curWord k ≤ s.seq.run.length) {r : State} (hr : s.waitRelease k = r) :
    r.seq.run.waiting = false ∧ r.curCtx.tgt = false ∧ r.curCtx.pc = (s.curCtx.pc + 1) % 2 ^ 14 ∧ r.seq.run.used = s.seq.run.used + k + 1 := by
  obtain ⟨t, ht, heq⟩ : ∃ t : State, t.seq = s.seq ∧ s.waitRelease k = (t.waitEnded false).performWord k := by
    unfold State.waitRelease
    dsimp only
    rw [if_neg (by simp [hi, hwait, hholds, hmode, hk])]
    refine ⟨_, ?_, rfl⟩
    split
    · rfl
    · split <;> rfl
  obtain ⟨hwaiting, htgt, hpc, hused, -⟩ := State.performWord_waited hwho ht hflow hroom (heq ▸ hr)
  exact ⟨hwaiting, htgt, hpc, hused⟩

/-- One whose condition does not hold by its timeout is performed with TGT set (R188). -/
theorem State.waitTimeout_stage (hi : s.canIssue = true) (hwho : s.seq.run.who = some (.stage h j c)) (hwait : s.seq.run.waiting = true)
    (hholds : s.waitHolds (mwWaitCond s.curWord) (mwWaitArg s.curWord) = false) (hflow : mwFlow s.curWord = 0)
    (hroom : s.seq.run.used + mwCycles s.curWord (mwTimeout s.curWord) ≤ s.seq.run.length) {r : State} (hr : s.waitTimeout = r) :
    r.seq.run.waiting = false ∧ r.curCtx.tgt = true ∧ r.get SEQ_ERR.wait_timeout = 1 ∧ r.curCtx.pc = (s.curCtx.pc + 1) % 2 ^ 14 := by
  obtain ⟨t, ht⟩ : ∃ t, t = (s.inc SEQ_WAIT_TO_CNT.count).seqErr SEQ_ERR.wait_timeout := ⟨_, rfl⟩
  have heq : s.waitTimeout = (t.waitEnded true).performWord (mwTimeout s.curWord) := by
    unfold State.waitTimeout
    dsimp only
    rw [if_neg (by simp [hi, hwait, hholds]), ht]
    rfl
  have hseq : t.seq = s.seq := by
    obtain ⟨csr, counts, hinc⟩ := State.inc_parts s SEQ_WAIT_TO_CNT.count 0 0
    rw [ht, hinc]
    rfl
  obtain ⟨hwaiting, htgt, hpc, -, hshows⟩ := State.performWord_waited hwho hseq hflow hroom (heq ▸ hr)
  refine ⟨hwaiting, htgt, ?_, hpc⟩
  rw [hshows SEQ_ERR.wait_timeout (by decide), ht]
  exact State.get_err_same (h := rfl) ..

end Issue

section Array

variable {s r : State} {k p : Nat}

theorem State.testBit_result (s : State) (o : ArrayOp) (tt : Nat) (hp : p < 131072) :
    (lookup tt (s.plane o.aAddr) (s.operandB o).1 (s.kPlane o)).testBit p = tt.testBit (tableIndex s o p) := testBit_lookup hp ..

/-- The registers of a PE after a microword. -/
theorem WordDone.regs (h : WordDone s k r) (hsrc : mwBSrc s.curWord ≤ 4) (hp : p < 131072) {o : ArrayOp} (ho : mwArrayOp s.curCtx s.curWord = o) :
    (r.arr.f.testBit p = if o.dest = .f ∧ enabled s o p then o.ttR.testBit (tableIndex s o p) else s.arr.f.testBit p) ∧
      (r.arr.x.testBit p = if o.dest = .x ∧ enabled s o p then o.ttR.testBit (tableIndex s o p) else s.arr.x.testBit p) ∧
      (r.arr.y.testBit p = if o.dest = .y ∧ enabled s o p then o.ttR.testBit (tableIndex s o p) else s.arr.y.testBit p) ∧
      (r.arr.m.testBit p = if o.dest = .m ∧ (s.pesWhere executing).testBit p = true then o.ttR.testBit (tableIndex s o p) else s.arr.m.testBit p) ∧
      r.arr.c.testBit p = if o.carry = true ∧ enabled s o p then o.ttC.testBit (tableIndex s o p) else s.arr.c.testBit p := by
  obtain ⟨harr, -⟩ := h.array hsrc
  obtain ⟨hf, hx, hy, hm, hc⟩ := s.arrayOpWith_regs o (s.operandB o).1 rfl
  have hen := s.testBit_enables o p
  rw [harr, ho, hf, hx, hy, hm, hc, State.carried, testBit_ite_mixBits _ _ _ _ hen, testBit_ite_mixBits _ _ _ _ hen, testBit_ite_mixBits _ _ _ _ hen,
    testBit_ite_mixBits _ _ _ _ Iff.rfl, testBit_ite_mixBits _ _ _ _ hen, s.testBit_result o o.ttR hp, s.testBit_result o o.ttC hp]
  exact ⟨rfl, rfl, rfl, rfl, rfl⟩

/-- Its planes. -/
theorem WordDone.planes (h : WordDone s k r) (hsrc : mwBSrc s.curWord ≤ 4) (hp : p < 131072) {o : ArrayOp} (ho : mwArrayOp s.curCtx s.curWord = o)
    (hlo : 0x80 ≤ o.wAddr) (hhi : o.wAddr < 0xF80) (hsave : s.savePlane o.wAddr = false) (a : Nat) :
    (r.plane a).testBit p =
      if a = o.wAddr ∧ o.dest = .mem ∧ enabled s o p then o.ttR.testBit (tableIndex s o p) else (s.plane a).testBit p := by
  obtain ⟨harr, hpri⟩ := h.array hsrc
  rw [State.plane_congr (congrArg Arr.mem harr) hpri, ho, s.arrayOpWith_plane o _ a hlo hhi hsave, testBit_ite_mixBits _ _ _ _ (s.testBit_enables o p),
    s.testBit_result o o.ttR hp]
  exact if_congr (by tauto) rfl rfl

end Array

section Flow

variable {s : State}

theorem State.consumeCond_seq (s : State) (cond : Nat) : (s.consumeCond cond).seq = s.seq := by
  unfold State.consumeCond
  split
  · rfl
  · split <;> rfl

/-- A stage issues what runs now. -/
def State.stageIssues (s : State) : Bool :=
  match s.seq.run.who with
  | some (.stage _ _ _) => true
  | _ => false

/-- A conditional jump judges its condition before it consumes the event. -/
theorem State.curCtx_flowIf (hwho : s.seq.run.who.isSome = true) (cond target : Nat) (sense : Bool) : (s.flowIf cond target sense).curCtx =
    if s.condHolds s.curCtx s.stageIssues cond = sense then s.curCtx.goto target else s.curCtx.next := by
  have hseq := s.consumeCond_seq cond
  have hctx : (s.consumeCond cond).curCtx = s.curCtx := SameRun.curCtx (.of_seq hseq)
  rw [← hctx]
  refine (State.curCtx_updCtx (s := s.consumeCond cond) (by rw [hseq]; exact hwho) _).trans ?_
  rw [hctx]
  rfl

/-- The registers that they load (R195). -/
theorem Ctx.pcallArgs_regs (c : Ctx) (a b w bsrc src imm : Nat) : (c.pcallArgs a b w bsrc src imm).reg 12 = a % 2 ^ 32 ∧
    (c.pcallArgs a b w bsrc src imm).reg 13 = b % 2 ^ 32 ∧ (c.pcallArgs a b w bsrc src imm).reg 14 = w % 2 ^ 32 ∧
    (c.pcallArgs a b w bsrc src imm).reg 15 = c.reg src % 2 ^ 32 := by
  have hsame : ∀ (c : Ctx) (n v : Nat), (c.setReg n v).reg n = v % 2 ^ 32 := fun c n v => Sparse.get_set_same ..
  have hne : ∀ (c : Ctx) (m n v : Nat), m ≠ n → (c.setReg n v).reg m = c.reg m := fun c m n v hn => Sparse.get_set_ne _ _ _ hn
  have hregs : ∀ n, (c.pcallArgs a b w bsrc src imm).reg n = ((((c.setReg 12 a).setReg 13 b).setReg 14 w).setReg 15 (c.reg src)).reg n := fun _ => rfl
  rw [hregs, hregs, hregs, hregs]
  refine ⟨?_, ?_, ?_, hsame ..⟩
  · rw [hne _ _ _ _ (by decide), hne _ _ _ _ (by decide), hne _ _ _ _ (by decide), hsame]
  · rw [hne _ _ _ _ (by decide), hne _ _ _ _ (by decide), hsame]
  · rw [hne _ _ _ _ (by decide), hsame]

/-- A call of a customer routine enters it. -/
theorem State.curCtx_pcall (hwho : s.seq.run.who.isSome = true) (a b w bsrc src imm : Nat) {target : Nat} (hlib : libEntry target = none) :
    (s.pcall a b w bsrc src imm target).curCtx = (s.curCtx.pcallArgs a b w bsrc src imm).call target := by
  unfold State.pcall
  dsimp only
  rw [hlib]
  dsimp only
  rw [State.curCtx_updCtx (by rw [State.who_updCtx]; exact hwho), State.curCtx_updCtx hwho]

end Flow

/-! # Calls of the primitive library, PE by PE (R195 to R202) -/

section Numbers

/-- The number that the planes of a field hold in PE `p`, bit 0 first. -/
def valF (ps : List Nat) (p : Nat) : Nat := ps.foldr (fun x v => (x.testBit p).toNat + 2 * v) 0

variable {p : Nat}

theorem valF_cons (x : Nat) (ps : List Nat) : valF (x :: ps) p = (x.testBit p).toNat + 2 * valF ps p := rfl

theorem valF_concat (ps : List Nat) (x : Nat) : valF (ps ++ [x]) p = valF ps p + 2 ^ ps.length * (x.testBit p).toNat := by
  induction ps with
  | nil => simp [valF]
  | cons y ps ih =>
    rw [List.cons_append, valF_cons, valF_cons, ih, List.length_cons, Nat.pow_succ]
    ring

theorem valF_lt (ps : List Nat) : valF ps p < 2 ^ ps.length := by
  induction ps with
  | nil => exact Nat.one_pos
  | cons x ps ih =>
    have hx := Bool.toNat_lt (x.testBit p)
    rw [valF_cons, List.length_cons, Nat.pow_succ]
    omega

theorem valF_zero (n : Nat) : valF (List.replicate n 0) p = 0 := by
  induction n with
  | zero => rfl
  | succ n ih => rw [List.replicate_succ, valF_cons, ih, Nat.zero_testBit]; rfl

/-- The complement of every plane. -/
theorem valF_notP (hp : p < 131072) (ps : List Nat) : valF (ps.map notP) p + valF ps p + 1 = 2 ^ ps.length := by
  induction ps with
  | nil => rfl
  | cons x ps ih =>
    rw [List.map_cons, valF_cons, valF_cons, testBit_notP hp, List.length_cons, Nat.pow_succ]
    cases x.testBit p <;> simp only [Bool.not_false, Bool.not_true, Bool.toNat_false, Bool.toNat_true] <;> omega

/-- A full adder of one PE. -/
theorem fullAdder (a b c : Nat) : ((a ^^^ b ^^^ c).testBit p).toNat + 2 * ((majP a b c).testBit p).toNat =
    (a.testBit p).toNat + (b.testBit p).toNat + (c.testBit p).toNat := by
  simp only [majP, Nat.testBit_or, Nat.testBit_and, Nat.testBit_xor]
  cases a.testBit p <;> cases b.testBit p <;> cases c.testBit p <;> rfl

/-- Planes are added with their carry. -/
theorem valF_addF (as bs : List Nat) (c : Nat) (hlen : bs.length = as.length) : (addF as bs c).1.length = as.length ∧
    valF (addF as bs c).1 p + 2 ^ as.length * ((addF as bs c).2.testBit p).toNat = valF as p + valF bs p + (c.testBit p).toNat := by
  induction as generalizing bs c with
  | nil =>
    rw [List.eq_nil_of_length_eq_zero hlen]
    exact ⟨rfl, by simp [addF, valF]⟩
  | cons a as ih =>
    cases bs with
    | nil => simp at hlen
    | cons b bs =>
      obtain ⟨hl, hv⟩ := ih bs (majP a b c) (by simpa using hlen)
      have hadd := fullAdder (p := p) a b c
      refine ⟨congrArg (· + 1) hl, ?_⟩
      show ((a ^^^ b ^^^ c).testBit p).toNat + 2 * valF (addF as bs (majP a b c)).1 p + 2 ^ (as.length + 1) * ((addF as bs (majP a b c)).2.testBit p).toNat = _
      rw [valF_cons, valF_cons, Nat.pow_succ]
      linarith

theorem valF_sum (as bs : List Nat) (hlen : bs.length = as.length) : valF (addF as bs 0).1 p = (valF as p + valF bs p) % 2 ^ as.length := by
  obtain ⟨hl, hv⟩ := valF_addF (p := p) as bs 0 hlen
  have hlt := valF_lt (p := p) (addF as bs 0).1
  rw [hl] at hlt
  rw [Nat.zero_testBit, Bool.toNat_false, Nat.add_zero] at hv
  rw [← hv, Nat.add_mul_mod_self_left, Nat.mod_eq_of_lt hlt]

theorem valF_difference (hp : p < 131072) (as bs : List Nat) (hlen : bs.length = as.length) :
    valF (subF as bs).1 p = (valF as p + 2 ^ as.length - valF bs p) % 2 ^ as.length := by
  obtain ⟨hl, hv⟩ := valF_addF (p := p) as (bs.map notP) allPes (by rw [List.length_map, hlen])
  have hlt := valF_lt (p := p) (addF as (bs.map notP) allPes).1
  have hnot := valF_notP hp bs
  rw [hl] at hlt
  rw [hlen] at hnot
  rw [testBit_allPes hp, Bool.toNat_true] at hv
  have hsum : valF as p + 2 ^ as.length - valF bs p = valF as p + valF (bs.map notP) p + 1 := by omega
  rw [subF, hsum, ← hv, Nat.add_mul_mod_self_left, Nat.mod_eq_of_lt hlt]

end Numbers

section Fields

variable {s : State} {p : Nat}

/-- The number in a field is that of its planes. -/
theorem fieldAt_of_planes {a n : Nat} {ps : List Nat} (hlen : ps.length = n)
    (h : ∀ i (hi : i < ps.length), (s.plane ((a + i) % 4096)).testBit p = ps[i].testBit p) : fieldAt s a n p = valF ps p := by
  subst hlen
  unfold fieldAt
  induction ps using List.reverseRecOn with
  | nil => rfl
  | append_singleton ps x ih =>
    rw [List.length_append, List.length_singleton, List.range_succ, List.foldl_append, List.foldl_cons, List.foldl_nil, valF_concat,
      ih fun i hi => (h i (by simp; omega)).trans (by rw [List.getElem_append_left hi]), h ps.length (by simp), List.getElem_concat_length rfl]

theorem fieldAt_eq_valF (s : State) (a n p : Nat) : fieldAt s a n p = valF (s.field a n) p :=
  fieldAt_of_planes (by simp [State.field]) fun i hi => by simp [State.field]

/-- The planes of memory after a field is written. -/
theorem State.plane_setField {w mask : Nat} (ps : List Nat) (hlo : 0x80 ≤ w) (hhi : w + ps.length ≤ 0xF80) (hsave : s.seq.bgSave = none) (a : Nat) :
    (s.setField w mask ps).plane a = if w ≤ a ∧ a < w + ps.length then mixBits (s.plane a) (ps.getD (a - w) 0) mask else s.plane a := by
  induction ps using List.reverseRecOn with
  | nil => exact (if_neg (by simp)).symm
  | append_singleton ps x ih =>
    rw [List.length_append, List.length_singleton] at hhi ⊢
    have hset : s.setField w mask (ps ++ [x]) = (s.setField w mask ps).progPlane ((w + ps.length) % 4096) x mask := by
      rw [State.setField, List.zipIdx_append, List.foldl_append]
      simp [State.setField]
    have hnone : (s.setField w mask ps).savePlane ((w + ps.length) % 4096) = false := by
      rw [State.savePlane, (State.setField_only (s := s) (a := w) (mask := mask) (ps := ps) Only.rfl Covers.refl).seq rfl, hsave]
    rw [hset, State.progPlane, hnone, if_neg (by decide), Nat.mod_eq_of_lt (by omega), State.plane_setPlane (by omega) (by omega), ih (by omega)]
    by_cases hlast : a = w + ps.length
    · subst hlast
      rw [if_pos rfl, if_neg (by omega), if_pos (by omega), Nat.add_sub_cancel_left]
      simp
    · rw [if_neg hlast]
      by_cases hin : w ≤ a ∧ a < w + ps.length
      · rw [if_pos hin, if_pos (by omega), List.getD_append _ _ _ _ (by omega)]
      · rw [if_neg hin, if_neg (by omega)]

/-- The number that a written field holds: the new one where the mask is 1. -/
theorem fieldAt_of_setField {t : State} {w n mask : Nat} {ps : List Nat} (hlen : ps.length = n) (hhi : w + n ≤ 0xF80)
    (h : ∀ a, t.plane a = if w ≤ a ∧ a < w + ps.length then mixBits (s.plane a) (ps.getD (a - w) 0) mask else s.plane a) :
    fieldAt t w n p = if mask.testBit p then valF ps p else fieldAt s w n p := by
  have hplane : ∀ i (hi : i < ps.length), (t.plane ((w + i) % 4096)).testBit p =
      if mask.testBit p then ps[i].testBit p else (s.plane ((w + i) % 4096)).testBit p := fun i hi => by
    rw [Nat.mod_eq_of_lt (by omega), h, if_pos (by omega), testBit_mixBits, Nat.add_sub_cancel_left, List.getD_eq_getElem _ _ hi]
  cases hm : mask.testBit p with
  | true => exact fieldAt_of_planes hlen fun i hi => by rw [hplane i hi, hm]; rfl
  | false =>
    rw [if_neg (by decide), fieldAt_eq_valF s]
    refine fieldAt_of_planes (by simp [State.field]) fun i hi => ?_
    have hi' : i < ps.length := by simpa [State.field, hlen] using hi
    rw [hplane i hi', hm]
    simp [State.field]

end Fields

section Calls

variable {s : State} {x : LibCall} {p : Nat}

/-- The entries whose D is their whole effect on memory and whose D may overlap A and B. -/
def plainEntries : List Nat := [0x10, 0x20, 0xF0, 0xF8]

/-- They use no scratch, D never clashes, and B is as wide as A. -/
theorem LibCall.plain (h : x.entry ∈ plainEntries) : libScratch x.entry x.n = 0 ∧ x.clash = false ∧ x.bWidth = x.n := by
  simp only [plainEntries, List.mem_cons, List.not_mem_nil, or_false] at h
  unfold LibCall.clash LibCall.bWidth
  rcases h with h | h | h | h <;> rw [h] <;> exact ⟨rfl, by simp [libOverlapOk, libScratch, planesMeet], if_neg (by decide)⟩

theorem State.libFirst_plain (s : State) (h : x.entry ∈ plainEntries) : s.libFirst x = [] := by
  simp only [plainEntries, List.mem_cons, List.not_mem_nil, or_false] at h
  unfold State.libFirst
  rcases h with h | h | h | h <;> rw [h] <;> rfl

theorem State.libB_own (s : State) (hsrc : x.asrc = 0) (n : Nat) : s.libB x n = s.field x.b n := by
  rw [State.libB, if_neg (by omega), hsrc]
  rfl

/-- The planes that they bring to D. -/
def State.plainResult (s : State) (x : LibCall) : List Nat :=
  if x.entry = 0x10 then (addF (s.field x.a x.n) (s.field x.b x.n) 0).1
  else if x.entry = 0x20 then (subF (s.field x.a x.n) (s.field x.b x.n)).1
  else if x.entry = 0xF0 then s.field x.b x.n
  else List.replicate x.n 0

theorem State.libOut_plain (s : State) (h : x.entry ∈ plainEntries) (hsrc : x.asrc = 0) :
    (s.libOut x).d = s.plainResult x ∧ (s.libOut x).ovf = 0 ∧ (s.libOut x).dz = 0 := by
  have hb := s.libB_own hsrc x.n
  obtain ⟨-, -, hwidth⟩ := LibCall.plain h
  simp only [plainEntries, List.mem_cons, List.not_mem_nil, or_false] at h
  unfold State.libOut State.plainResult
  rw [hwidth, hb]
  rcases h with h | h | h | h <;> rw [h] <;> exact ⟨rfl, rfl, rfl⟩

theorem State.length_field (s : State) (a n : Nat) : (s.field a n).length = n := by simp [State.field]

/-- The numbers that they bring to D (R201, R206). -/
theorem State.valF_plainResult (s : State) (hp : p < 131072) : (s.plainResult x).length = x.n ∧ valF (s.plainResult x) p =
    if x.entry = 0x10 then (fieldAt s x.a x.n p + fieldAt s x.b x.n p) % 2 ^ x.n
    else if x.entry = 0x20 then (fieldAt s x.a x.n p + 2 ^ x.n - fieldAt s x.b x.n p) % 2 ^ x.n
    else if x.entry = 0xF0 then fieldAt s x.b x.n p else 0 := by
  have ha := s.length_field x.a x.n
  have hb := s.length_field x.b x.n
  rw [fieldAt_eq_valF, fieldAt_eq_valF]
  unfold State.plainResult
  split
  · refine ⟨(valF_addF (p := p) _ _ _ (by rw [ha, hb])).1.trans ha, ?_⟩
    rw [valF_sum _ _ (by rw [ha, hb]), ha]
  · split
    · refine ⟨(valF_addF (p := p) _ _ _ (by rw [List.length_map, ha, hb])).1.trans ha, ?_⟩
      rw [valF_difference hp _ _ (by rw [ha, hb]), ha]
    · split
      · exact ⟨hb, rfl⟩
      · exact ⟨List.length_replicate, valF_zero _⟩

/-- A primitive that leaves no scratch and no flag writes D alone of memory. -/
theorem State.plane_libFinish (s : State) {q : LibPlan} (hfirst : q.first = []) (hscratch : libScratch q.call.entry q.call.n = 0)
    (hclash : q.call.clash = false) (hovf : q.out.ovf = 0) (hdz : q.out.dz = 0) (hlo : 0x80 ≤ q.call.d) (hhi : q.call.d + q.out.d.length ≤ 0xF80)
    (hsave : s.seq.bgSave = none) (a : Nat) : (s.libFinish q).plane a =
      if q.call.d ≤ a ∧ a < q.call.d + q.out.d.length then mixBits (s.plane a) (q.out.d.getD (a - q.call.d) 0) (q.m &&& s.pesWhere executing)
      else s.plane a := by
  obtain ⟨u, hu⟩ : ∃ u : State, u = { s with arr := { s.arr with m := mixBits s.arr.m q.m (s.pesWhere executing) } } := ⟨_, rfl⟩
  have hplane : ∀ a, u.plane a = s.plane a := State.plane_congr (by rw [hu]) (by rw [hu])
  obtain ⟨t, ht⟩ : ∃ t, t = u.setField q.call.d (q.m &&& s.pesWhere executing) q.out.d := ⟨_, rfl⟩
  have hfield : t.plane a = _ := ht ▸ State.plane_setField (s := u) (mask := q.m &&& s.pesWhere executing) q.out.d hlo hhi (by rw [hu]; exact hsave) a
  have hfinish : s.libFinish q = (t.libRegs (s.pesWhere executing) (q.m &&& s.pesWhere executing) q.out).libMissed q.miss := by
    unfold State.libFinish
    dsimp only
    rw [← hu, hfirst, hscratch, hclash, hovf, hdz, Nat.zero_and, if_neg Bool.false_ne_true, if_pos rfl, if_pos rfl, ht]
    rfl
  have honly := State.libMissed_only (s := t.libRegs (s.pesWhere executing) (q.m &&& s.pesWhere executing) q.out) (miss := q.miss) Only.rfl Covers.refl
  rw [hfinish, State.plane_congr (t := State.libMissed _ _) (congrArg Arr.mem (honly.arr rfl)) (honly.pri rfl), ← hplane a]
  exact hfield

/-- Every island that executes takes the words of a primitive. -/
theorem State.libOffer_touches (s : State) (x : LibCall) (n : Nat) : Touches wordFields s (s.libOffer x n) := by
  unfold State.libOffer
  extract_lets u
  have hu : Touches wordFields s u := s.offerWords_touches n
  refine .ite hu (hu.foldl _ fun t i ht => ?_)
  extract_lets
  exact .ite ((ht.add (by decide) _ _ _).of_csr rfl) ht

end Calls

section Stage

variable {s : State} {h k c : Nat}

/-- The state in which a stage's primitive returns. -/
def State.libEnds (s : State) (q : LibPlan) : State :=
  (s.libOffer q.call (libCycles q.call.entry q.call.n q.call.m q.call.opt - 1)).useCycles (libCycles q.call.entry q.call.n q.call.m q.call.opt)

/-- The call that a PCALL makes of what runs. -/
def Ctx.called (c : Ctx) (a b w bsrc src imm target : Nat) : LibCall := (c.pcallArgs a b w bsrc src imm).libCall target

/-- A stage runs a primitive at once (R195). -/
theorem State.pcall_stage (hwho : s.seq.run.who = some (.stage h k c)) {a b w bsrc src imm target : Nat} (hlib : (libEntry target).isSome = true)
    {u : State} (hu : u = s.updCtx fun c => c.pcallArgs a b w bsrc src imm) :
    s.pcall a b w bsrc src imm target = (u.libEnds (u.libPlan (s.curCtx.called a b w bsrc src imm target))).libReturn
      (u.libPlan (s.curCtx.called a b w bsrc src imm target)) := by
  obtain ⟨e, he⟩ := Option.isSome_iff_exists.1 hlib
  have hctx : u.curCtx = s.curCtx.pcallArgs a b w bsrc src imm := hu ▸ State.curCtx_updCtx (by rw [hwho]; rfl) _
  have hrun : u.seq.run.who = some (.stage h k c) := by rw [hu, State.who_updCtx, hwho]
  unfold State.pcall
  dsimp only
  rw [← hu, he, hctx, hrun]
  rfl

theorem State.libEnds_shows (s : State) (q : LibPlan) : SameArray s (s.libEnds q) ∧
    (s.libEnds q).seq.run.used = s.seq.run.used + libCycles q.call.entry q.call.n q.call.m q.call.opt := by
  have honly := State.libOffer_only (s := s) (x := q.call) (n := libCycles q.call.entry q.call.n q.call.m q.call.opt - 1) Only.rfl Covers.refl
  have hshows := s.libOffer_touches q.call (libCycles q.call.entry q.call.n q.call.m q.call.opt - 1)
  unfold State.libEnds
  generalize s.libOffer q.call (libCycles q.call.entry q.call.n q.call.m q.call.opt - 1) = t at honly hshows
  have hseq := honly.seq rfl
  exact ⟨.of_touches (Touches.of_csr (t := t) hshows rfl) (honly.arr rfl) (honly.pri rfl)
      (show t.seq.bgSave = s.seq.bgSave from congrArg Seq.bgSave hseq),
    congrArg (fun q' : Seq => q'.run.used + libCycles q.call.entry q.call.n q.call.m q.call.opt) hseq⟩

/-- A primitive returns into the context of what runs. -/
theorem State.libReturn_shows (s : State) (q : LibPlan) : (s.libReturn q).seq.run = s.seq.run ∧ ∀ a, (s.libReturn q).plane a = (s.libFinish q).plane a := by
  have hseq : (s.libFinish q).seq = s.seq := (State.libFinish_only (s := s) (p := q) Only.rfl Covers.refl).seq rfl
  obtain ⟨hrun, -, harr, hpri, -⟩ := (s.libFinish q).updCtx_keeps fun c => (libCtx c (s.libFinish q).freeCount).next
  exact ⟨hrun.trans (congrArg Seq.run hseq), State.plane_congr (congrArg Arr.mem harr) hpri⟩

/-- A stage's primitive takes the cycles of its formula (R199). -/
theorem State.used_pcall (hwho : s.seq.run.who = some (.stage h k c)) {a b w bsrc src imm target : Nat} (hlib : (libEntry target).isSome = true) :
    (s.pcall a b w bsrc src imm target).seq.run.used = s.seq.run.used + libCycles target (callN imm) (callM imm) (callOpt imm) := by
  rw [State.pcall_stage hwho hlib rfl, (State.libReturn_shows _ _).1, (State.libEnds_shows _ _).2, (s.updCtx_keeps _).1]
  rfl

/-- The arguments of a call as it carries them. -/
theorem Ctx.called_shows (c : Ctx) {a b w src imm target : Nat} (ha : a < 4096) (hb : b < 4096) (hw : w < 4096) {x : LibCall}
    (hx : c.called a b w 0 src imm target = x) :
    x.entry = target ∧ x.n = callN imm ∧ x.asrc = 0 ∧ x.a = a ∧ x.b = b ∧ x.d = w := by
  have hmod : ∀ v < 4096, v % 2 ^ 32 % 4096 = v := fun v hv => by omega
  obtain ⟨hra, hrb, hrw, -⟩ := Ctx.pcallArgs_regs c a b w 0 src imm
  subst hx
  exact ⟨rfl, rfl, rfl, (congrArg (· % 4096) hra).trans (hmod a ha), (congrArg (· % 4096) hrb).trans (hmod b hb),
    (congrArg (· % 4096) hrw).trans (hmod w hw)⟩

/-- The plan of an entry that writes D alone. -/
theorem State.libPlan_plain (s : State) {x : LibCall} (h : x.entry ∈ plainEntries) (hsrc : x.asrc = 0) : (s.libPlan x).first = [] ∧
    (s.libPlan x).out.d = s.plainResult x ∧ (s.libPlan x).out.ovf = 0 ∧ (s.libPlan x).out.dz = 0 := by
  have hout : (s.libPlan x).out = s.libOut x := by
    show (s.setField x.t (s.pesWhere executing) (s.libFirst x)).libOut x = _
    rw [s.libFirst_plain h]
    rfl
  obtain ⟨hd, hovf, hdz⟩ := s.libOut_plain h hsrc
  rw [hout]
  exact ⟨s.libFirst_plain h, hd, hovf, hdz⟩

/-- What ADD, SUB, COPY and CLEAR of a stage leave in D. -/
theorem State.fieldAt_pcall (hwho : s.seq.run.who = some (.stage h k c)) {a b w src imm target p : Nat} (hentry : target ∈ plainEntries)
    (ha : a < 4096) (hb : b < 4096) (hlo : 0x80 ≤ w) (hhi : w + callN imm ≤ 0xF80) (hsave : s.seq.bgSave = none) (hp : p < 131072) :
    fieldAt (s.pcall a b w 0 src imm target) w (callN imm) p =
      if (s.pesWhere executing).testBit p = true ∧ s.arr.m.testBit p = true then
        (if target = 0x10 then (fieldAt s a (callN imm) p + fieldAt s b (callN imm) p) % 2 ^ callN imm
         else if target = 0x20 then (fieldAt s a (callN imm) p + 2 ^ callN imm - fieldAt s b (callN imm) p) % 2 ^ callN imm
         else if target = 0xF0 then fieldAt s b (callN imm) p else 0)
      else fieldAt s w (callN imm) p := by
  have hlib : (libEntry target).isSome = true := by
    simp only [plainEntries, List.mem_cons, List.not_mem_nil, or_false] at hentry
    rcases hentry with rfl | rfl | rfl | rfl <;> rfl
  obtain ⟨u, hu⟩ : ∃ u, u = s.updCtx fun c => c.pcallArgs a b w 0 src imm := ⟨_, rfl⟩
  obtain ⟨x, hx⟩ : ∃ x, x = s.curCtx.called a b w 0 src imm target := ⟨_, rfl⟩
  have hpcall := State.pcall_stage (src := src) hwho hlib hu
  rw [← hx] at hpcall
  obtain ⟨hxe, hxn, hxs, hxa, hxb, hxd⟩ := Ctx.called_shows s.curCtx ha hb (by omega : w < 4096) hx.symm
  obtain ⟨-, hucsr, huarr, hupri, husave⟩ := s.updCtx_keeps fun c => c.pcallArgs a b w 0 src imm
  rw [← hu] at hucsr huarr hupri husave
  have hsu : SameArray s u := .of_touches (Touches.refl.of_csr hucsr) huarr hupri husave
  have hplain : x.entry ∈ plainEntries := by rw [hxe]; exact hentry
  obtain ⟨hscratch, hclash, -⟩ := LibCall.plain hplain
  obtain ⟨hfirst, hd, hovf, hdz⟩ := u.libPlan_plain hplain hxs
  obtain ⟨hlen, hval⟩ := u.valF_plainResult (x := x) hp
  obtain ⟨hends, -⟩ := u.libEnds_shows (u.libPlan x)
  have hsv := hsu.trans hends
  have hlend : (u.libPlan x).out.d.length = callN imm := by rw [hd, hlen, hxn]
  have hcall : (u.libPlan x).call = x := rfl
  have hplane := State.plane_libFinish (u.libEnds (u.libPlan x)) hfirst hscratch hclash hovf hdz (by rw [hcall, hxd]; exact hlo)
    (by rw [hcall, hxd, hlend]; exact hhi) (by rw [hsv.save]; exact hsave)
  have hwritten : ∀ a', (s.pcall a b w 0 src imm target).plane a' = if w ≤ a' ∧ a' < w + (u.libPlan x).out.d.length then
      mixBits (s.plane a') ((u.libPlan x).out.d.getD (a' - w) 0) (s.arr.m &&& s.pesWhere executing) else s.plane a' := fun a' => by
    rw [hpcall, (State.libReturn_shows _ _).2, hplane, hcall, hxd, hsv.plane, hsv.pesWhere, show (u.libPlan x).m = s.arr.m from congrArg Arr.m huarr]
  have hsame : ∀ a n, fieldAt u a n p = fieldAt s a n p := fun a n => by
    unfold fieldAt
    simp only [hsu.plane]
  rw [fieldAt_of_setField hlend hhi hwritten, hd, hval, hxe, hxn, hxa, hxb, hsame, hsame, Nat.testBit_and]
  exact if_congr (by rw [Bool.and_eq_true, and_comm]) rfl rfl

end Stage

/-! # Microwords are issued, wait and move on -/

/-- The stalls of the islands change nothing of what runs. -/
theorem State.addStalls_runs (s : State) (halo queue : List (Fin 16 × Nat)) :
    (s.addStalls halo queue).seq.run = s.seq.run ∧ (s.addStalls halo queue).curCtx = s.curCtx := by
  have hsame : SameRun s (s.addStalls halo queue) := .of_seq ((State.addStalls_only Only.rfl Covers.refl).seq rfl)
  exact ⟨hsame.run, hsame.curCtx⟩

theorem Ctx.pc_goto (c : Ctx) {a : Nat} (ha : a < 16384) : (c.goto a).pc = a := Nat.mod_eq_of_lt ha

/-- In the statement the branch of a register that keeps its bit also holds what is said of the registers after it: as each of those
statements is true, it is the bit that was there. -/
theorem bit_with_rest {v new old : Bool} {A Q : Prop} [Decidable A] [Decidable (old = true ∧ Q)] (h : v = if A then new else old) (hQ : Q) :
    v = if A then new else decide (old = true ∧ Q) := by
  have hold : decide (old = true ∧ Q) = old := by
    rw [Bool.eq_iff_iff, decide_eq_true_iff]
    exact and_iff_left hQ
  rw [hold, h]

/-- Settles O7: a microword of a stage is one array operation between two steps that leave the array, and ADD and SUB are a ripple of full
adders in every PE. -/
theorem microwordIssue : Obligations.MicrowordIssue := by
  unfold Obligations.MicrowordIssue
  have hwho : ∀ {s : State}, s.canIssue = true → s.seq.run.who.isSome = true := State.who_of_canIssue
  refine ⟨fun s halo queue h k c ha hi hst hw hc hf hroom => does_live rfl ha ?next,
    fun s halo queue h k c p ha hi hst hw hc hf hsrc hroom => does_live rfl ha ?regs,
    fun s halo queue h k c p ha hi hst hw hc hf hsrc hroom hlo hhi hsave => does_live rfl ha ?planes,
    fun s cycles halo queue h k c ha hi hst hw hholds hmode hk hf hroom => does_live rfl ha ?release,
    fun s halo queue h k c ha hi hst hw hholds hf hroom => does_live rfl ha ?timeout,
    fun s ha hi => does_issuing rfl ha hi ?seqNext, fun s a ha hi => does_issuing rfl ha hi ?jump, fun s q a ha hi => does_issuing rfl ha hi ?jif,
    fun s q a ha hi => does_issuing rfl ha hi ?jifn, fun s a ha hi => does_issuing rfl ha hi ?call,
    fun s x xs ha hi hstack => does_issuing rfl ha hi ?ret, fun s a b w m q v z ha hi hlib => does_issuing rfl ha hi ?customer,
    fun s a b w m q v z h k c ha hi hlib hst => does_issuing rfl ha hi (State.used_pcall hst hlib),
    fun s a b w q v z h k c p ha hi hst hz hlo hhi hsave => does_issuing rfl ha hi ?field⟩
  case next =>
    rw [State.microwordIssue_stage hi hst hw hc]
    have hdone := (State.performWord_done hst hf hroom).addStalls halo queue
    exact ⟨hdone.pc, hdone.used, hdone.who⟩
  case regs =>
    rw [State.microwordIssue_stage hi hst hw hc]
    obtain ⟨hf', hx, hy, hm, hc'⟩ := ((State.performWord_done hst hf hroom).addStalls halo queue).regs hsrc p.isLt rfl
    exact bit_with_rest hf' (bit_with_rest hx (bit_with_rest hy (bit_with_rest hm hc')))
  case planes =>
    rw [State.microwordIssue_stage hi hst hw hc]
    exact ((State.performWord_done hst hf hroom).addStalls halo queue).planes hsrc p.isLt rfl hlo hhi hsave
  case release =>
    obtain ⟨hwaiting, htgt, hpc, hused⟩ := State.waitRelease_stage hi hst hw hholds hmode hk hf hroom rfl
    obtain ⟨hrun, hctx⟩ := (s.waitRelease cycles.val).addStalls_runs halo queue
    rw [hrun, hctx]
    exact ⟨hwaiting, htgt, hpc, hused⟩
  case timeout =>
    obtain ⟨hwaiting, htgt, herr, hpc⟩ := State.waitTimeout_stage hi hst hw hholds hf hroom rfl
    obtain ⟨hrun, hctx⟩ := s.waitTimeout.addStalls_runs halo queue
    rw [hrun, hctx, s.waitTimeout.addStalls_touches halo queue SEQ_ERR.wait_timeout (by decide)]
    exact ⟨hwaiting, htgt, herr, hpc⟩
  case seqNext =>
    rw [State.curCtx_updCtx (hwho hi)]
    rfl
  case jump =>
    rw [State.curCtx_updCtx (hwho hi)]
    exact Nat.mod_eq_of_lt a.isLt
  case jif =>
    rw [State.curCtx_flowIf (hwho hi)]
    show Ctx.pc (if s.condHolds s.curCtx s.stageIssues q.val = true then _ else _) = if s.condHolds s.curCtx s.stageIssues q.val = true then _ else _
    rw [apply_ite Ctx.pc, Ctx.pc_goto s.curCtx a.isLt]
    rfl
  case jifn =>
    rw [State.curCtx_flowIf (hwho hi)]
    show Ctx.pc (if s.condHolds s.curCtx s.stageIssues q.val = false then _ else _) = if s.condHolds s.curCtx s.stageIssues q.val = true then _ else _
    rw [apply_ite Ctx.pc, Ctx.pc_goto s.curCtx a.isLt]
    cases s.condHolds s.curCtx s.stageIssues q.val <;> rfl
  case call =>
    rw [State.curCtx_updCtx (hwho hi)]
    exact ⟨Nat.mod_eq_of_lt a.isLt, rfl⟩
  case ret =>
    rw [State.curCtx_updCtx (hwho hi), Ctx.ret, hstack]
    exact ⟨rfl, rfl⟩
  case customer =>
    rw [State.curCtx_pcall (hwho hi) _ _ _ _ _ _ hlib]
    obtain ⟨h12, h13, h14, h15⟩ := Ctx.pcallArgs_regs s.curCtx a.val b.val w.val m.val q.val v.toNat
    exact ⟨Nat.mod_eq_of_lt z.isLt, rfl, h12.trans (Nat.mod_eq_of_lt (by omega)), h13.trans (Nat.mod_eq_of_lt (by omega)),
      h14.trans (Nat.mod_eq_of_lt (by omega)), h15⟩
  case field =>
    exact State.fieldAt_pcall hst (by simp only [plainEntries, List.mem_cons, List.not_mem_nil, or_false]; exact hz) a.isLt b.isLt hlo (by omega) hsave p.isLt

end Sys2Proof.Machine
